-- ==== Sys2Proof/Word.lean ====
section
/-! DEFINITION. The word types of the SX-4 and their plainest arithmetic. -/

namespace Sys2Proof

/-- A register, memory word or descriptor word (R13, R209). -/
abbrev W64 := BitVec 64
/-- An FP32 value's bits, or a 32-bit field (R55). -/
abbrev W32 := BitVec 32
abbrev W16 := BitVec 16
abbrev Byte := BitVec 8

namespace Bits

/-- Field [hi:lo] of a 64-bit word, both ends included (R9). -/
def get (w : W64) (hi lo : Nat) : Nat := (w.toNat >>> lo) % 2 ^ (hi + 1 - lo)

/-- Bit [n] of a 64-bit word (R9). -/
def bit (w : W64) (n : Nat) : Bool := w.getLsbD n

/-- The mask of the bits [hi:lo]. -/
def mask (hi lo : Nat) : W64 := BitVec.ofNat 64 ((2 ^ (hi + 1 - lo) - 1) <<< lo)

/-- The word with field [hi:lo] replaced by the low bits of v. -/
def put (w : W64) (hi lo : Nat) (v : Nat) : W64 :=
  (w &&& ~~~(mask hi lo)) ||| (BitVec.ofNat 64 (v <<< lo) &&& mask hi lo)

/-- The word with bit [n] set to b. -/
def putBit (w : W64) (n : Nat) (b : Bool) : W64 := put w n n (if b then 1 else 0)

/-- A two's-complement reading of the low n bits of v. -/
def signed (n v : Nat) : Int := if v % 2 ^ n < 2 ^ (n - 1) then (v % 2 ^ n : Nat) else (v % 2 ^ n : Nat) - (2 ^ n : Nat)

/-- The word whose bits are those of the numbers of a list, each in its field. -/
def make (fs : List (Nat × Nat × Nat)) : W64 :=
  fs.foldl (fun w f => put w f.1 f.2.1 f.2.2) 0

/-- Number of bits set among the low n. -/
def popcount (n v : Nat) : Nat := (List.range n).countP fun i => v.testBit i

/-- The set bits of v below n, ascending. -/
def setBits (n v : Nat) : List Nat := (List.range n).filter fun i => v.testBit i

end Bits

/-- A count that stays at its ceiling (saturating counters of the register maps). -/
def satAdd (ceil a b : Nat) : Nat := min ceil (a + b)

end Sys2Proof
end

