-- ==== Sys2Proof/Syntax.lean ====
section
/-! DEFINITION. The commands of the block: one constructor per row of spec/opcode_table.json, with the operands the
manual gives the row. Units are named by their package-wide number (R3, R4): a cluster by 12n + m, a matrix engine by
4 × cluster + engine, a vector engine by 2 × cluster + engine, a stack by its number, an update unit by the index u of
R182, a core or agent by its participant slot (R4, R288). -/

namespace Sys2Proof

/-- A compute die CD0 to CD3. -/
abbrev Die := Fin 4
/-- A cluster 12n + m. -/
abbrev ClusterNo := Fin 48
/-- A matrix engine 4 × cluster + engine. -/
abbrev MxeNo := Fin 192
/-- A vector engine 2 × cluster + engine. -/
abbrev VxeNo := Fin 96
/-- A core that executes the base instructions: steward and ostler cores (R4), couriers and update-unit prologue
cores at their agent slots (R288). -/
abbrev CoreNo := Fin 376
/-- A general register G0 to G31 (R156). -/
abbrev Gpr := Fin 32

/-- The integer ALU functions the manual names for the cores (R156: integer arithmetic in 64 bits; R431 uses xor, shifts
and multiplication); every other function code of the class. -/
inductive AluFn where
  | add | sub | mul | and | or | xor | shl | shr
  | other (fn : BitVec 10)
  deriving DecidableEq, Repr

/-- The opcode that a base instruction presents: its row's own, or another code (R157). -/
inductive Opc where
  | own
  | other (code : BitVec 7)
  deriving DecidableEq, Repr

/-- A base instruction as it is presented: its core, and the opcode. -/
structure Issued where
  core : CoreNo
  opc : Opc
  deriving DecidableEq, Repr

/-- The second operand of an ALU instruction: format A register or format I immediate (R156). -/
inductive AluSrc where
  | reg (r : Gpr)
  | imm (v : BitVec 15)
  deriving DecidableEq, Repr

/-- The floating-point functions of OPC 0x06 that the manual names (R77, R157), and every other function code. -/
inductive FpFn where
  | add | sub | mul | div | sqrt
  | toFp64 | toFp32
  | other (fn : BitVec 10)
  deriving DecidableEq, Repr

/-- The conditions of a compare-and-branch; the coding is that of R159. -/
inductive Cond where
  | eq | ne | lt | ge
  deriving DecidableEq, Repr

/-- The system registers the manual names (R163, R177, R279, R290, R430), and every other number. -/
inductive Csr where
  | slotNo | synctmo | gstep | hsnap | barrive
  | other (n : BitVec 10)
  deriving DecidableEq, Repr

/-- A system instruction of OPC 0x09 (R157): control-register access or fence. -/
inductive SysFn where
  | read (rd : Gpr) (csr : Csr)
  | write (csr : Csr) (rs1 : Gpr)
  | fence
  deriving DecidableEq, Repr

/-- What a load or store names: a package address (R189) or the core's private scratch (R158). -/
inductive Space where
  | addr | scratch
  deriving DecidableEq, Repr

/-- A fault of the array during one run (R98, R99): in K-block kb, cell (row, col) sends delta × 2^exp too much, either
in its K-block sum or (acc) in its running addition, which the residue check of R85 watches. -/
structure CellFault where
  kb : Nat
  row : Nat
  col : Nat
  delta : Int
  exp : Int
  acc : Bool
  deriving DecidableEq, Repr

/-- A temperature sensor: an island of a die or a memory stack (R41, R43, R200). -/
inductive Sensor where
  | island (d : Die) (k : Fin 35)
  | stack (k : Fin 20)
  deriving DecidableEq, Repr

/-- A memory controller: of a stack or of two LPDDR packages (R3). -/
inductive MemCtl where
  | stack (k : Fin 20)
  | lpddr (k : Fin 16)
  deriving DecidableEq, Repr

/-- An error that a scrub pass or a read of the array meets (R212, R214): the member offset of the line, the stack
channel or LPDDR package half it lies in, and whether it can be corrected. -/
structure LineError where
  unit : Nat
  moff : Nat
  channel : Nat
  correctable : Bool
  deriving DecidableEq, Repr

/-- What reading a word or line of memory meets in the array (R211, R214, R398), or a bad parity of command, address or data on the
way to a stack: once, or again at the retry (R199). -/
inductive ArrayErr where
  | none | corrected | uncorrectable | parityOnce | parityTwice
  deriving DecidableEq, Repr

/-- What the reads that a command makes of memory meet, in their order: local address and error. -/
abbrev Hits := List (Nat × ArrayErr)

/-- An operand of a row, with what the reads of the row meet (log 134). -/
structure Met (α : Type) where
  arg : α
  hits : Hits
  deriving DecidableEq, Repr

/-- A core, with what the array access of its instruction meets (log 134). -/
structure CoreErr where
  core : CoreNo
  err : ArrayErr
  deriving DecidableEq, Repr

/-- What a scrub pass meets: errors of lines, and whether the stack's controller fails (R212, R213). -/
structure ScrubErrs where
  lines : List LineError
  ctlFails : Bool
  deriving DecidableEq, Repr

/-- What PWR_OK's rise finds: the self-check of each die (R475), the LPDDR packages that train (R34), and whether each flash
device works (R450). The history found in them is the survival store of the state (R448). -/
structure PowerUpIn where
  selfOk : BitVec 4
  lpOk : BitVec 32
  devA : Bool
  devB : Bool
  deriving DecidableEq, Repr

/-- A stage-link message between two ends (R252 to R255, R264). -/
structure SlOpen where
  srcDev : BitVec 16
  srcOl : BitVec 8
  depth : Nat
  qn : BitVec 8
  deriving DecidableEq, Repr

/-- A stage-link descriptor as it arrives: the queue, the sequence number and the eight words (R251). -/
structure SlDesc where
  qn : BitVec 8
  seq : W32
  words : List W64
  deriving DecidableEq, Repr

/-- A TAINT message: step and micro-batch, and its sequence number on the link (R264). -/
structure TaintId where
  step : W64
  mb : W32
  seq : W32
  deriving DecidableEq, Repr

/-- A HELLO flit's fields (R336). -/
structure Hello where
  crcOk : Bool
  idv : Bool
  isSwitch : Bool
  port : BitVec 8
  dev : BitVec 16
  role : BitVec 8
  pos : BitVec 8
  uid : W64
  fabric : W64
  deriving DecidableEq, Repr

/-- A LOC flit's fields (R336). -/
structure Loc where
  crcOk : Bool
  pod : BitVec 4
  rack : BitVec 6
  swIndex : BitVec 8
  sport : BitVec 8
  fabric : W64
  deriving DecidableEq, Repr

/-- A unit that a watchdog covers (R404). -/
inductive WdUnit where
  | mxe (e : MxeNo)
  | vxe (v : VxeNo)
  | core (c : Fin 336)
  | porter (d : Die) (p : Fin 16)
  | gather (c : ClusterNo)
  | update (u : Fin 36)
  | courier (d : Die)
  | service (d : Die)
  | queue (q : Fin 256)
  deriving DecidableEq, Repr

/-- What a reset of R416 resets. -/
inductive ResetTarget where
  | engine (u : WdUnit)
  | cluster (c : ClusterNo)
  | dieFunction (d : Die)
  | warm
  | cold
  deriving DecidableEq, Repr

/-- What retraining finds during a die-function reset or a recovery (R23, R34, R213, R299, R365): failing LPDDR packages,
stack channels as (stack, channel), link ports, bridges, lane sets and dies. -/
structure TrainIn where
  lpFail : BitVec 32
  chFail : List (Fin 20 × Fin 32)
  bridgeFail : BitVec 4
  dieFail : BitVec 4
  msFail : BitVec 20
  deriving DecidableEq, Repr

/-- One command: a row of spec/opcode_table.json. -/
inductive Instr where
  | regWrite (addr : BitVec 26) (size : BitVec 2) (data : W64)
  | powerUp (i : PowerUpIn)
  | powerLoss
  | coldReset (tr : TrainIn)
  | bridgeFlitReplay (b : Fin 4) (flit : Nat)
  | bridgeDown (b : Fin 4)
  | refclkLost (d : Die)
  | refclkReturn (d : Die)
  | thermtrip (sn : Sensor) (temp : W16)
  | islStretchRead (d : Die) (k : Fin 35)
  | tissue (c : ClusterNo) (rd rs1 rs2 : Gpr)
  | tpair (c : ClusterNo) (rd rs1 rs2 : Gpr)
  | tileExecute (c : Met ClusterNo) (slot : Fin 4) (faults : List CellFault)
  | tileCheckDone (e : MxeNo)
  | tileRerun (e : Met MxeNo) (faults : List CellFault)
  | tileDrainStart (e : MxeNo)
  | tileDrainEnd (e : MxeNo)
  | issueCapWindow (e : MxeNo)
  | strikeWindowExpire (e : MxeNo)
  | mxeFence (e : MxeNo)
  | mxeSelftest (e : MxeNo)
  | mxeSelftestDone (e : MxeNo) (pass : Bool)
  | mxeReadmit (e : MxeNo)
  | mxeChkRead (e : MxeNo)
  | mxePerfRead (e : MxeNo)
  | cissue (c : ClusterNo) (rd rs1 rs2 : Gpr)
  | chainStart (v : Met VxeNo)
  | chainEntryClaim (v : VxeNo)
  | chainComplete (v : Met VxeNo) (parity : Bool)
  | vxeFence (v : VxeNo)
  | vxeSelftest (v : VxeNo)
  | vxeSelftestDone (v : VxeNo) (pass : Bool)
  | vxeReadmit (v : VxeNo)
  | vxePerfRead (v : VxeNo)
  | cpop (c : ClusterNo) (rd : Gpr)
  | cpeek (c : ClusterNo) (rd : Gpr)
  | smovS (c : ClusterNo) (sd : Fin 64) (rs1 : Gpr)
  | smovG (c : ClusterNo) (rd : Gpr) (ss : Fin 64)
  | bs (c : ClusterNo) (cond : Cond) (uns : Bool) (s1 s2 : Fin 64) (off : BitVec 9)
  | ringRecordRelease (c : ClusterNo)
  | gather (c : ClusterNo) (oc : Fin 6) (rd rs1 : Gpr)
  | scatter (c : ClusterNo) (oc : Fin 6) (rd rs1 : Gpr)
  | gatherComplete (c : Met ClusterNo)
  | intAlu (c : Issued) (fn : AluFn) (rd rs1 : Gpr) (src : AluSrc)
  | load (c : Issued) (sp : Space) (width : Fin 4) (rd rs1 : Gpr) (imm : BitVec 15) (err : ArrayErr)
  | store (c : Issued) (sp : Space) (width : Fin 4) (rs rs1 : Gpr) (imm : BitVec 15) (err : ArrayErr)
  | compareBranch (c : Issued) (cond : Cond) (rs1 rs2 : Gpr) (off : BitVec 15)
  | jumpAndLink (c : Issued) (rd rs1 : Gpr) (imm : BitVec 15)
  | fpOp (c : CoreNo) (fn : FpFn) (dbl : Bool) (rd rs1 rs2 : Gpr)
  | systemOp (c : Issued) (fn : SysFn)
  | cluCtxWrite (c : ClusterNo) (data : W64)
  | coreRun (c : ClusterNo) (k : Fin 7)
  | coreStop (c : ClusterNo) (k : Fin 7)
  | hstSnapshot (d : Die) (stream : Byte) (addr : BitVec 42)
  | hstSnapshotClear (d : Die) (stream : Byte) (addr : BitVec 42)
  | hstLoad (d : Die) (stream : Byte) (addr : BitVec 42)
  | hstOpDone (d : Die)
  | hsnapWrite (c : ClusterNo) (oc : Fin 6) (data : W64)
  | hstOwnWrite (d : Die) (stream : Byte) (data : W64)
  | ctrClear (d : Die)
  | ctrAdd (d : Die) (value : W64)
  | ctrEvtRead (d : Die) (i : Fin 48)
  | mapRgnValidate (r : Fin 64) (data : W64)
  | mapRgnClose (r : Fin 64)
  | mapQuiesceDone
  | tollRefill (d : Die)
  | tollBktWrite (d : Die) (b : Fin 64) (data : W64)
  | tollHeldRead (d : Die) (b : Fin 64)
  | stackTempReport (k : Fin 20) (temp : W16)
  | throttleFallStep (k : Fin 20)
  | msTempLost (k : Fin 20)
  | lpTempReport (k : Fin 32) (temp : W16)
  | scrubPass (m : MemCtl) (errs : ScrubErrs)
  | mscFenceWrite (k : Fin 20) (chan : W32)
  | lpcFenceWrite (k : Fin 16) (lp : BitVec 2)
  | mscEccRead (m : MemCtl)
  | updateStart
  | uuChunkRun (u : Met (Fin 36)) (parity : Bool)
  | journalMirrorAck (u : Fin 36)
  | uuSegmentPass (u : Met (Fin 36))
  | updateCommit
  | uld (u : Fin 36) (rd : Gpr) (stream : Fin 32)
  | ust (u : Fin 36) (stream : Fin 32) (rs2 : Gpr)
  | ukset (u : Fin 36) (rd : Fin 16) (rs1 : Gpr)
  | uadd (u : Fin 36) (dbl : Bool) (rd rs1 rs2 : Gpr)
  | usub (u : Fin 36) (dbl : Bool) (rd rs1 rs2 : Gpr)
  | umul (u : Fin 36) (dbl : Bool) (rd rs1 rs2 : Gpr)
  | udiv (u : Fin 36) (dbl : Bool) (rd rs1 rs2 : Gpr)
  | ufma (u : Fin 36) (dbl : Bool) (rd rs1 rs2 : Gpr)
  | usqrt (u : Fin 36) (dbl : Bool) (rd rs1 : Gpr)
  | umax (u : Fin 36) (dbl : Bool) (rd rs1 rs2 : Gpr)
  | umin (u : Fin 36) (dbl : Bool) (rd rs1 rs2 : Gpr)
  | uabs (u : Fin 36) (dbl : Bool) (rd rs1 : Gpr)
  | uneg (u : Fin 36) (dbl : Bool) (rd rs1 : Gpr)
  | usgn (u : Fin 36) (dbl : Bool) (rd rs1 : Gpr)
  | ucvt (u : Fin 36) (toDbl : Bool) (rd rs1 : Gpr)
  | uwadd (u : Fin 36) (rd rs1 rs2 : Gpr)
  | uloop (u : Fin 36)
  | uend (u : Fin 36)
  | uuFence (u : Fin 36)
  | uuSelftest (u : Fin 36)
  | uuSelftestDone (u : Fin 36) (pass : Bool)
  | uuReadmit (u : Fin 36)
  | uuPerfRead (u : Fin 36)
  | updPerfRead (d : Die)
  | qpush (c : ClusterNo) (nb : Bool) (rd rs1 rs2 : Gpr)
  | qpop (c : ClusterNo) (nb : Bool) (rd rs1 rs2 : Gpr)
  | qdone (c : ClusterNo) (rd rs1 : Gpr)
  | vacq (c : ClusterNo) (rd rs1 rs2 : Gpr)
  | vrel (c : ClusterNo) (rd rs1 rs2 : Gpr)
  | fbeg (c : ClusterNo) (rd rs1 : Gpr)
  | fend (c : ClusterNo) (rd rs1 : Gpr)
  | taint (c : ClusterNo) (rd rs1 rs2 : Gpr)
  | slCopyDone (ol : Met Byte) (seq : W32)
  | slOpenRecv (m : SlOpen)
  | slAcceptRecv (ol : Byte)
  | slRefuseRecv (ol : Byte)
  | slDescRecv (m : SlDesc)
  | slAckRecv (ol : Byte) (seq consumed : W32)
  | slConsumedSend (qn : Byte)
  | slCreditRecv (ol : Byte) (consumed : W32)
  | slResend (ol : Byte)
  | slTaintRecv (qn : Byte) (t : TaintId)
  | slqIncfgWrite (d : Die) (q : Fin 64) (data : W64)
  | slqOutcfgWrite (d : Die) (j : Fin 64) (data : W64)
  | stgStageWrite (i : Fin 16) (data : W64)
  | vcmdActivate (vte : W16)
  | vcmdRetire (vte : W16)
  | stgTclr (ctx : Byte)
  | ldfe (c : CoreErr) (nb : Bool) (rd rs1 : Gpr)
  | ldfn (c : CoreErr) (nb : Bool) (rd rs1 : Gpr)
  | stef (c : CoreNo) (nb : Bool) (rd rs1 rs2 : Gpr)
  | finc (c : CoreErr) (rd rs1 rs2 : Gpr)
  | fdec (c : CoreErr) (rd rs1 rs2 : Gpr)
  | fini (c : CoreNo) (full : Bool) (rd rs1 rs2 : Gpr)
  | fsig (c : CoreNo) (rd rs1 rs2 : Gpr)
  | swait (c : CoreNo) (nb : Bool) (rd rs1 : Gpr)
  | barr (c : CoreNo) (nb : Bool) (rd rs1 : Gpr)
  | bwait (c : CoreNo) (nb : Bool) (rd rs1 rs2 : Gpr)
  | fclaim (c : CoreNo) (rd rs1 rs2 : Gpr)
  | frel (c : CoreNo) (rd rs1 : Gpr)
  | barrive (u : Fin 36) (ctx : Byte) (data : W64)
  | syncTimeout (c : CoreNo)
  | synLose (ctx : Byte)
  | claimMarkDone
  | barArm (b : Fin 64) (data : W64)
  | barDisarm (b : Fin 64)
  | barStatRead (b : Fin 64)
  | porterTransferDone (d : Die) (g : Fin 2) (p : Fin 8) (parity : Bool) (hits : Hits)
  | ropPut (c : Met CoreNo) (rd rs1 rs2 : Gpr)
  | ropGet (c : CoreNo) (rd rs1 rs2 : Gpr)
  | ropGet3 (c : CoreNo) (rd rs1 rs2 : Gpr)
  | ropAtomic (c : CoreNo) (rd rs1 rs2 : Gpr)
  | ropSignal (c : CoreNo) (rd rs1 rs2 : Gpr)
  | putRecv (d : Met Die)
  | getRecv (d : Met Die)
  | get3Recv (d : Met Die)
  | data3Recv (d : Met Die)
  | atomicRecv (d : Met Die)
  | signalRecv (d : Die)
  | replyRecv (d : Met Die)
  | remoteTimeout (d : Die) (slot : Fin 4096)
  | rwinDenyRead
  | linkTrainDone (p : Fin 24) (lanes : Byte) (vers : Byte)
  | linkTrainFail (p : Fin 24)
  | linkFecUncorr (p : Fin 24) (codeword : Bool)
  | rsreqRecv (p : Fin 24)
  | markRecv (p : Fin 24) (sent : List W16)
  | rsackRecv (p : Fin 24) (freed : List W16)
  | crdRecv (p : Fin 24) (freed : List W16)
  | crdSend (p : Fin 24)
  | linkFlitGapTimeout (p : Fin 24)
  | linkResyncTimeout (p : Fin 24)
  | pktRecv (p : Fin 24) (words : List W64)
  | pktForward (d : Die)
  | pktStaleDiscard (d : Die)
  | lnkVcallocWrite (p : Fin 24) (hi : Bool) (data : W64)
  | lnkFence (p : Fin 24)
  | lnkReadmit (p : Fin 24)
  | lnkRetrain (p : Fin 24)
  | lnkAdmit (p : Fin 24)
  | lnkPark (p : Fin 24)
  | lnkEnWrite (p : Fin 24) (en : Bool)
  | lnkCounterRead (p : Fin 24) (reg : Fin 3)
  | rteLoad (data : W64)
  | rteLoadDone
  | rteFlip
  | rteCfgWrite (data : W64)
  | rteTimersWrite (data : W64)
  | rteCounterRead (reg : Fin 3)
  | helloRecv (p : Fin 24) (h : Hello)
  | locRecv (p : Fin 24) (l : Loc)
  | probeRecv (p : Fin 24) (crcOk : Bool)
  | helloSend (p : Fin 24)
  | discElect
  | discPeerTimeout (p : Fin 24)
  | dscExpWrite (p : Fin 24) (data : W64)
  | dscFabricWrite (data : W64)
  | dscIdWrite (data : W64)
  | jobAdmission (q : Fin 256)
  | collOpen (c : CoreNo) (rd rs2 : Gpr)
  | collClose (c : CoreNo) (rd rs2 : Gpr)
  | allreduce (c : CoreNo) (rd rs2 : Gpr)
  | reduceScatter (c : CoreNo) (rd rs2 : Gpr)
  | allgather (c : CoreNo) (rd rs2 : Gpr)
  | broadcast (c : CoreNo) (rd rs2 : Gpr)
  | permute (c : CoreNo) (rd rs2 : Gpr)
  | alltoall (c : CoreNo) (rd rs2 : Gpr)
  | collStart (d : Met Die)
  | collChunkSend (d : Met Die)
  | chunkRecv (d : Met Die)
  | collCreditRecv (d : Die)
  | collComplete (d : Die)
  | crrFence (d : Die)
  | crrSelftest (d : Die)
  | crrSelftestDone (d : Die) (pass : Bool)
  | crrReadmit (d : Die)
  | crrCntRead (d : Die)
  | hostFrameRecv (laneB : Bool) (words : List W64)
  | hostReplyFrame
  | submitEcho
  | regDeferredResult
  | regOpTimeout
  | nop (q : Fin 256)
  | qwait (q : Fin 256)
  | hostCmdBadOpcode (q : Fin 256)
  | complRecordSend
  | hlFrameGapTimeout (laneB : Bool)
  | hlTrainDone (laneB : Bool) (versions : Byte)
  | hlRetrainTick
  | hlkSwap
  | hlkRetrain (laneB : Bool)
  | hlkFence (laneB : Bool)
  | hlkCntRead
  | sqCfgWrite (q : Fin 256) (data : W64)
  | wmarkWrite
  | errInject (page : BitVec 14) (data : W64)
  | evtSelWrite (page : BitVec 14) (data : W64)
  | evtSelRead (page : BitVec 14)
  | watchdogExpire (u : WdUnit)
  | hangTrialDone (u : WdUnit) (pass : Bool)
  | taintBackstop
  | contextAbort (q : Fin 256)
  | rcvAbort (ctx : Byte) (fabric : Bool)
  | abortWedgeCheck (wedged : List (WdUnit × Bool))
  | abortComplete
  | abortRelayResend
  | relayRecv (p : Fin 24) (words : List W64)
  | resetEngine (u : WdUnit)
  | resetCluster (c : ClusterNo)
  | resetDieFunction (d : Die) (tr : TrainIn)
  | resetWarm (tr : TrainIn)
  | resetCold (tr : TrainIn)
  | dieFence (d : Die)
  | resetDone (t : ResetTarget) (selfTestsPass : Bool)
  | resetFail (t : ResetTarget)
  | recoveryDone
  | rcvOosack (evseq : W32)
  | rcvJobidWrite (jobid : W64)
  | rcvWdlimWrite (hi : Bool) (data : W64) (elapsed : List (WdUnit × Nat))
  | rcvAbstatRead
  | dumpRead
  | evlLostRead (d : Die)
  | lseal (c : ClusterNo) (rd rs1 rs2 : Gpr)
  | sealDone
  | gstepWrite (c : ClusterNo) (rs1 : Gpr)
  | ldgGeomWrite (data : W64)
  | ckmarkStart
  | ckmarkEnd
  | ckmarkEmpty
  | ldgCkWrite (obs : Bool) (data : W64)
  | ckRecompute (ctx : Byte)
  | sstRecordWrite
  | sstBankErase
  | sstCompact
  | sstRselWrite (data : W64)
  | sstRdataRead
  | pwrTick (counts : List Nat)
  | tjcapStep (hot : Bool) (d : Die) (k : Fin 35) (temp : W16)
  | bmBmlimWrite (v : W16)
  | pwrCaplogRead
  | droopWarnAssert (d : Die) (k : Fin 35) (mv : W16)
  | droopWarnEnd (d : Die) (k : Fin 35) (mv : W16)
  | droopReset (d : Die) (k : Fin 35)
  | drpCntRead (d : Die)
  | bmShutdown (v : W16)
  | bmShutdownDone
  | bootLoadBegin
  | bootLoaddata (data : W64)
  | bootLoadEnd
  | imageVerifyDone
  | fuseRaiseSvn (target : Byte)
  | fuseRevoke (slot : Byte)
  | fuseBurnDone (readBackOk : Bool)
  | idtreeDone
  | attestGo
  | attestDone
  | secRselWrite
  | secRdataRead
  | testEnter (d : Die) (dies : BitVec 4)
  | tstTokenWrite (data : W64)
  | testDone (d : Die) (res0 : BitVec 35) (res1 : W32)
  | jtagTapReset (d : Die)
  | extest (d : Die)
  | samplePreload (d : Die)
  | idcode (d : Die)
  | clamp (d : Die)
  | highz (d : Die)
  | extestPulse (d : Die)
  | extestTrain (d : Die)
  | tsttoken (d : Die) (bytes : List Byte)
  | tstacc (d : Die) (op : BitVec 2) (addr : BitVec 26) (data : W64)
  | bypass (d : Die) (code : Byte)
  | hlTrainFail (laneB : Bool) (noVersion : Bool)
  | phaseReady
  | vcmdDone
  | downWindowExpire (p : Option (Fin 24))
  deriving DecidableEq, Repr

end Sys2Proof
end

