-- ==== Sys2Proof/Machine/Num.lean ====
section
/-! DEFINITION. Exact numbers, the rounding of R70 (to nearest, ties away from zero), the wide formats BF16, FP32, FP64 and
W40 (R55 to R58), and arithmetic rounded once. -/

namespace Sys2Proof.Machine

/-- A value: the NaN, an infinity, or (−1)^neg × m × 2^e, exact; zeros keep their sign. -/
inductive Fl where
  | nan
  | inf (neg : Bool)
  | fin (neg : Bool) (m : Nat) (e : Int)
  deriving DecidableEq, Repr

namespace Fl

def zero : Fl := .fin false 0 0
def one : Fl := .fin false 1 0

def isNan : Fl → Bool | .nan => true | _ => false
def isInf : Fl → Bool | .inf _ => true | _ => false
def isFin : Fl → Bool | .fin _ _ _ => true | _ => false
def isZero : Fl → Bool | .fin _ 0 _ => true | _ => false
def isNeg : Fl → Bool | .nan => false | .inf n => n | .fin n _ _ => n

/-- The signed mantissa of a finite value. -/
def sig : Fl → Int | .fin n m _ => if n then -(m : Int) else m | _ => 0
def exp : Fl → Int | .fin _ _ e => e | _ => 0

/-- A finite value from a signed mantissa; an exact zero takes the sign given. -/
def ofInt (zneg : Bool) (m : Int) (e : Int) : Fl := if m = 0 then .fin zneg 0 0 else .fin (decide (m < 0)) m.natAbs e

def ofNat (n : Nat) : Fl := .fin false n 0

def neg : Fl → Fl | .nan => .nan | .inf n => .inf (!n) | .fin n m e => .fin (!n) m e
def abs : Fl → Fl | .nan => .nan | .inf _ => .inf false | .fin _ m e => .fin false m e

/-- Exact sum. Infinities of both signs give NaN; an exact zero sum is +0 unless both terms are −0 (IEEE 754, R56). -/
def add : Fl → Fl → Fl
  | .nan, _ | _, .nan => .nan
  | .inf a, .inf b => if a = b then .inf a else .nan
  | .inf a, _ => .inf a
  | _, .inf b => .inf b
  | .fin a m e, .fin b n f =>
    let lo := min e f
    ofInt (a && b) (sig (.fin a m e) * 2 ^ (e - lo).toNat + sig (.fin b n f) * 2 ^ (f - lo).toNat) lo

def sub (x y : Fl) : Fl := add x (neg y)

/-- Exact product; infinity times zero is NaN (R80). -/
def mul : Fl → Fl → Fl
  | .nan, _ | _, .nan => .nan
  | .inf a, .inf b => .inf (a != b)
  | .inf a, .fin b m _ => if m = 0 then .nan else .inf (a != b)
  | .fin a m _, .inf b => if m = 0 then .nan else .inf (a != b)
  | .fin a m e, .fin b n f => .fin (a != b) (m * n) (e + f)

/-- The exact sum of a list; an exact zero is +0 (R85, R149). -/
def sum (xs : List Fl) : Fl :=
  match xs.foldl add zero with
  | .fin _ 0 _ => zero
  | v => v

/-- Scale by a power of two. -/
def scale (k : Int) : Fl → Fl | .fin n m e => .fin n m (e + k) | v => v

/-- Numeric order of finite and infinite values; false if either is NaN. -/
def lt : Fl → Fl → Bool
  | .nan, _ | _, .nan => false
  | .inf a, .inf b => a && !b
  | .inf a, _ => a
  | _, .inf b => !b
  | x, y => decide ((sub x y).sig < 0)

def eq (x y : Fl) : Bool := !x.isNan && !y.isNan && !lt x y && !lt y x
def le (x y : Fl) : Bool := lt x y || eq x y

/-- floor(log2 |x|) of a finite non-zero value. -/
def log2 : Fl → Int | .fin _ m e => (Nat.log2 m : Int) + e | _ => 0

end Fl

/-! ## Rounding -/

/-- m / 2^s to the nearest whole number, ties away from zero (R70). -/
def roundShift (m s : Nat) : Nat := if s = 0 then m else (m + 2 ^ (s - 1)) >>> s

/-- The magnitude m × 2^e rounded to p significand bits with exponents of the unit place not below qmin (none: no bound):
the rounded mantissa and the exponent of its unit place. -/
def roundMag (p : Nat) (qmin : Option Int) (m : Nat) (e : Int) : Nat × Int :=
  if m = 0 then (0, qmin.getD 0) else
  let q0 : Int := (Nat.log2 m : Int) + e - ((p : Int) - 1)
  let q := match qmin with | none => q0 | some b => max q0 b
  if q ≤ e then (m * 2 ^ (e - q).toNat, q) else (roundShift m (q - e).toNat, q)

/-- A binary interchange format of the wide kind: significand bits with the hidden one, exponent of the least unit place, and
the code of +∞. The codes of finite magnitudes are (q − qmin) × 2^(p−1) + m. -/
structure WideFmt where
  p : Nat
  qmin : Int
  infCode : Nat
  deriving DecidableEq, Repr

def fp32F : WideFmt := ⟨24, -149, 0x7F800000⟩
def bf16F : WideFmt := ⟨8, -133, 0x7F80⟩
def fp64F : WideFmt := ⟨53, -1074, 0x7FF0000000000000⟩
/-- W40 as a 40-bit code H:L (R57). -/
def w40F : WideFmt := ⟨32, -157, 0x7F80000000⟩

/-- A rounded result: the code, and the events it counts (R73): a saturation, a non-zero value rounded to zero, a NaN. -/
structure Rounded where
  code : Nat
  sat : Bool
  flush : Bool
  nan : Bool
  deriving DecidableEq, Repr

/-- The sign bit of a format's code. -/
def WideFmt.signBit (f : WideFmt) : Nat := if f.p = 24 then 2 ^ 31 else if f.p = 8 then 2 ^ 15 else if f.p = 53 then 2 ^ 63 else 2 ^ 39

/-- The canonical NaN of R56 (the quiet bit alone). -/
def WideFmt.nanCode (f : WideFmt) : Nat := f.infCode + 2 ^ (f.p - 2)

/-- One rounding into a wide format (R56, R58, R70): ties away from zero, and a finite result beyond the largest finite
value becomes that value and counts as a saturation. -/
def WideFmt.round (f : WideFmt) : Fl → Rounded
  | .nan => ⟨f.nanCode, false, false, true⟩
  | .inf n => ⟨f.infCode + (if n then f.signBit else 0), false, false, false⟩
  | .fin n m e =>
    let (r, q) := roundMag f.p (some f.qmin) m e
    let c := if r = 0 then 0 else (q - f.qmin).toNat * 2 ^ (f.p - 1) + r
    let s := if n then f.signBit else 0
    if f.infCode ≤ c then ⟨f.infCode - 1 + s, true, false, false⟩ else ⟨c + s, false, decide (r = 0) && decide (m ≠ 0), false⟩

/-- The exact value of a code. -/
def WideFmt.value (f : WideFmt) (c : Nat) : Fl :=
  let n := decide (f.signBit ≤ c % (2 * f.signBit))
  let a := c % f.signBit
  if f.infCode < a then .nan else if a = f.infCode then .inf n else
  let x := a / 2 ^ (f.p - 1)
  if x = 0 then .fin n a f.qmin else .fin n (a % 2 ^ (f.p - 1) + 2 ^ (f.p - 1)) (f.qmin + x - 1)

def fp32v (c : Nat) : Fl := fp32F.value c
def bf16v (c : Nat) : Fl := bf16F.value c
def fp64v (c : Nat) : Fl := fp64F.value c

/-- The exact value of a W40 element with high word h and extension byte l (R57); l is ignored for an infinite or NaN h. -/
def w40v (h l : Nat) : Fl :=
  if 0x7F800000 ≤ h % 2 ^ 31 then fp32v h else w40F.value (h * 256 + l % 256)

/-- A rounded W40 code as (H, L); an infinite or NaN H takes L = 0 (R57). -/
def w40Split (c : Nat) : Nat × Nat :=
  if 0x7F800000 ≤ (c / 256) % 2 ^ 31 then (c / 256, 0) else (c / 256, c % 256)

/-! ## Division and roots, rounded once -/

/-- The exact quotient of two positive numbers, cut far below any rounding place of the formats with a sticky last bit, so
that rounding it rounds the exact quotient. -/
def ratFl (neg : Bool) (num den : Nat) (e : Int) : Fl :=
  if num = 0 then .fin neg 0 0 else
  let s := 128 + Nat.log2 den
  let q := (num <<< s) / den
  let st := if q * den = num <<< s then 0 else 1
  .fin neg (2 * q + st) (e - s - 1)

/-- Quotient: x / 0 is an infinity for a non-zero x, 0/0 and ∞/∞ are NaN (R56, IEEE 754). -/
def Fl.div : Fl → Fl → Fl
  | .nan, _ | _, .nan => .nan
  | .inf _, .inf _ => .nan
  | .inf a, .fin b _ _ => .inf (a != b)
  | .fin a _ _, .inf b => .fin (a != b) 0 0
  | .fin a m e, .fin b n f =>
    if n = 0 then (if m = 0 then .nan else .inf (a != b)) else ratFl (a != b) m n (e - f)

/-- The integer square root, by Newton's iteration from above. -/
def isqrtLoop (n : Nat) : Nat → Nat → Nat
  | 0, x => x
  | k + 1, x => let y := (x + n / x) / 2; if x ≤ y then x else isqrtLoop n k y

def isqrt (n : Nat) : Nat := if n = 0 then 0 else isqrtLoop n (Nat.log2 n + 2) (2 ^ (Nat.log2 n / 2 + 1))

/-- Square root: of −0 is −0, of a negative non-zero value NaN. -/
def Fl.sqrt : Fl → Fl
  | .nan => .nan
  | .inf n => if n then .nan else .inf false
  | .fin n m e =>
    if m = 0 then .fin n 0 0 else if n then .nan else
    let (m', e') := if e % 2 = 0 then (m, e) else (2 * m, e - 1)
    let w := m' <<< 256
    let r := isqrt w
    .fin false (2 * r + (if r * r = w then 0 else 1)) (e' / 2 - 128 - 1)

/-- Reciprocal square root: of ±0 is ±∞, of a negative non-zero value NaN (R56, R142). -/
def Fl.rsqrt : Fl → Fl
  | .nan => .nan
  | .inf n => if n then .nan else .zero
  | .fin n m e =>
    if m = 0 then .inf n else if n then .nan else
    let (m', e') := if e % 2 = 0 then (m, e) else (2 * m, e - 1)
    let k := 512 + 2 * (Nat.log2 m' / 2)
    let r := isqrt (2 ^ k / m')
    .fin false (2 * r + (if r * r * m' = 2 ^ k then 0 else 1)) (-(e' / 2) - (k / 2 : Nat) - 1)

/-! ## FP32 and FP64 arithmetic on codes, one rounding each (R56, R70) -/

/-- A code with the saturations of the operations that led to it. -/
structure FpR where
  code : Nat
  sat : Bool
  deriving DecidableEq, Repr

def FpR.of (f : WideFmt) (v : Fl) : FpR := let r := f.round v; ⟨r.code, r.sat⟩

def fpAdd (f : WideFmt) (a b : Nat) : FpR := .of f (.add (f.value a) (f.value b))
def fpSub (f : WideFmt) (a b : Nat) : FpR := .of f (.sub (f.value a) (f.value b))
def fpMul (f : WideFmt) (a b : Nat) : FpR := .of f (.mul (f.value a) (f.value b))
def fpFma (f : WideFmt) (a b c : Nat) : FpR := .of f (.add (.mul (f.value a) (f.value b)) (f.value c))
def fpDiv (f : WideFmt) (a b : Nat) : FpR := .of f (.div (f.value a) (f.value b))
def fpSqrt (f : WideFmt) (a : Nat) : FpR := .of f (.sqrt (f.value a))
def fpRsqrt (f : WideFmt) (a : Nat) : FpR := .of f (.rsqrt (f.value a))

/-- The larger: +0 above −0; NaN if either is NaN (R141). -/
def fpMax (f : WideFmt) (a b : Nat) : Nat :=
  let x := f.value a; let y := f.value b
  if x.isNan || y.isNan then f.nanCode else if x.lt y then b else if y.lt x then a else if x.isNeg then b else a

/-- The smaller: −0 below +0; NaN if either is NaN (R141). -/
def fpMin (f : WideFmt) (a b : Nat) : Nat :=
  let x := f.value a; let y := f.value b
  if x.isNan || y.isNan then f.nanCode else if x.lt y then a else if y.lt x then b else if x.isNeg then a else b

/-- A code, with any NaN made the canonical one (R56). -/
def fpCanon (f : WideFmt) (a : Nat) : Nat := if (f.value a).isNan then f.nanCode else a

def fpNeg (f : WideFmt) (a : Nat) : Nat := if (f.value a).isNan then f.nanCode else (f.round (f.value a).neg).code
def fpAbs (f : WideFmt) (a : Nat) : Nat := if (f.value a).isNan then f.nanCode else (f.round (f.value a).abs).code

def fp32One : Nat := 0x3F800000
def fp32Nan : Nat := 0x7FC00000

end Sys2Proof.Machine
end

