-- ==== Sys2Proof/Machine/Formats.lean ====
section
/-! DEFINITION. The tensor formats (02): the format word, the narrow element codes, block scales, escapes and side lists,
reading an element and writing a tensor with the events of R73. -/

namespace Sys2Proof.Machine

/-- A format word (R44). -/
structure Fmt where
  role : Bool
  slcap : Nat
  zp : Int
  zpen : Bool
  blk : Nat
  fmt : Nat
  deriving DecidableEq, Repr

def Fmt.ofWord (w : Nat) : Fmt :=
  ⟨w.testBit 15, w / 2 ^ 12 % 8, Bits.signed 4 (w / 2 ^ 8), w.testBit 7, w / 2 ^ 4 % 8, w % 16⟩

/-- The named element formats. -/
abbrev fmtF4 := 0
abbrev fmtI4 := 1
abbrev fmtT2 := 2
abbrev fmtF8 := 3
abbrev fmtF8W := 4
abbrev fmtBF16 := 5
abbrev fmtFP32 := 6
abbrev fmtW40 := 7

/-! Status codes (R427). -/
namespace St
abbrev ok := 0x00
abbrev notReady := 0x01
abbrev queueFull := 0x02
abbrev queueEmpty := 0x03
abbrev noCredit := 0x04
abbrev flightFull := 0x05
abbrev protocolErr := 0x10
abbrev illegalInsn := 0x11
abbrev fmtUnsupported := 0x12
abbrev zpOnWeight := 0x13
abbrev segPartial := 0x14
abbrev kbAlign := 0x15
abbrev blockAxis := 0x16
abbrev pairShape := 0x17
abbrev tagSkew := 0x18
abbrev updShape := 0x19
abbrev updProg := 0x1A
abbrev regSize := 0x1B
abbrev addrUnmapped := 0x20
abbrev partViolation := 0x21
abbrev sramRange := 0x22
abbrev memFenced := 0x23
abbrev poisoned := 0x30
abbrev checkFail := 0x31
abbrev checkLate := 0x32
abbrev tainted := 0x33
abbrev earlyDenied := 0x34
abbrev versionBase := 0x40
abbrev stepStale := 0x41
abbrev versionGone := 0x42
abbrev versionAhead := 0x43
abbrev verMismatch := 0x44
abbrev refUnderflow := 0x45
abbrev linkDown := 0x46
abbrev ownerLost := 0x50
abbrev barrierBroken := 0x51
abbrev syncTimeout := 0x52
abbrev syncOverflow := 0x53
abbrev syncUnderflow := 0x54
abbrev claimOverlap := 0x55
abbrev claimFull := 0x56
abbrev sigDenied := 0x57
abbrev noRoute := 0x60
abbrev versionLimit := 0x61
abbrev remoteTimeout := 0x62
abbrev topoShort := 0x63
abbrev collNobuf := 0x64
abbrev layoutStale := 0x65
abbrev aborted := 0x70
abbrev engineFenced := 0x71
abbrev unfinished := 0x72
abbrev regTimeout := 0x73
end St

/-- Whether the combination is one of R45's table. -/
def Fmt.combination (f : Fmt) : Bool :=
  if f.fmt = fmtF4 ∨ f.fmt = fmtT2 then decide (1 ≤ f.blk ∧ f.blk ≤ 6 ∧ f.slcap ≤ 6) && !f.zpen
  else if f.fmt = fmtI4 then decide (1 ≤ f.blk ∧ f.blk ≤ 6 ∧ f.slcap = 0)
  else if f.fmt = fmtF8 ∨ f.fmt = fmtF8W then decide (f.blk ≤ 6 ∧ f.slcap = 0) && !f.zpen
  else if f.fmt ≤ 7 then decide (f.blk = 0 ∧ f.slcap = 0) && !f.zpen else false

/-- The status of a format word: OK, or the refusal of R45 or R46. -/
def Fmt.check (f : Fmt) : Nat :=
  if !f.combination then St.fmtUnsupported else if f.zpen && f.role then St.zpOnWeight else St.ok

/-- Bits of an element code. -/
def Fmt.bits (f : Fmt) : Nat :=
  match f.fmt with | 0 | 1 => 4 | 2 => 2 | 3 | 4 => 8 | 5 => 16 | _ => 32

/-- Block height and width; (1, 1) for BLK = 0. -/
def Fmt.blkH (f : Fmt) : Nat := match f.blk with | 5 => 4 | 6 => 8 | _ => 1
def Fmt.blkW (f : Fmt) : Nat := match f.blk with | 1 => 16 | 2 => 32 | 3 => 64 | 4 => 128 | 5 => 4 | 6 => 8 | _ => 1
def Fmt.square (f : Fmt) : Bool := decide (f.blk = 5 ∨ f.blk = 6)
def Fmt.scaled (f : Fmt) : Bool := decide (f.fmt ≤ fmtF8W ∧ f.blk ≠ 0)
def Fmt.escapes (f : Fmt) : Bool := decide (f.fmt = fmtF4 ∨ f.fmt = fmtT2)

/-- Elements and bytes of one block (of one element for BLK = 0). -/
def Fmt.blkElems (f : Fmt) : Nat := f.blkH * f.blkW
def Fmt.blkBytes (f : Fmt) : Nat := f.blkElems * f.bits / 8

/-- Slots of a run (R44, R65). -/
def Fmt.slots (f : Fmt) : Nat := if f.slcap = 0 then 0 else 2 ^ f.slcap

/-- Bytes of the element plane in one segment of 1,024 elements (R497). -/
def Fmt.segBytes (f : Fmt) : Nat := 128 * f.bits

def roundUp (n m : Nat) : Nat := (n + m - 1) / m * m

/-! ## Element codes -/

/-- The value of an F4, T2, F8 or F8W code before its block factor, escapes apart (R47, R52, R53). -/
def narrowCode (fmt c : Nat) : Fl :=
  match fmt with
  | 0 =>
    let n := c.testBit 3; let x := c / 2 % 4; let m := c % 2
    if x = 0 then .zero else .fin n (2 + m) ((x : Int) - 2)
  | 2 => if c % 4 = 1 then .one else if c % 4 = 3 then .fin true 1 0 else .zero
  | 3 =>
    let n := c.testBit 7; let x := c / 8 % 16; let m := c % 8
    if x = 15 ∧ m = 7 then .nan else if x = 0 then .fin n 0 0 else .fin n (8 + m) ((x : Int) - 10)
  | _ =>
    let n := c.testBit 7; let x := c / 4 % 32; let m := c % 4
    if x = 31 then (if m = 0 then .inf n else .nan) else if x = 0 then .fin n 0 0 else .fin n (4 + m) ((x : Int) - 17)

/-- The value of an element code with its scale byte (R50, R59, R72). -/
def codeValue (f : Fmt) (c b : Nat) : Fl :=
  if f.scaled && b = 0xFF then .nan else
  let k : Int := if f.scaled then (b : Int) - 127 else 0
  if f.fmt = fmtI4 then
    let q := Bits.signed 4 c - (if f.zpen then f.zp else 0)
    .ofInt false q k
  else (narrowCode f.fmt c).scale k

/-- Whether a code is the escape (R64). -/
def isEscape (f : Fmt) (c : Nat) : Bool := (decide (f.fmt = fmtF4) && c = 8) || (decide (f.fmt = fmtT2) && c = 2)

/-- Significand bits, largest magnitude, least normal exponent and emax of a floating narrow format (R49, R52 to R54, R60). -/
structure NarrowP where
  p : Nat
  maxM : Nat
  emin : Int
  emax : Int

def narrowP (fmt : Nat) : NarrowP :=
  match fmt with
  | 0 => ⟨2, 6, 0, 2⟩
  | 2 => ⟨1, 1, 0, 0⟩
  | 3 => ⟨4, 448, -6, 8⟩
  | _ => ⟨3, 57344, -14, 15⟩

/-- A finite magnitude y = m × 2^e rounded to the narrow grid with exponents unbounded below (R71 step 3). T2 rounds to the
whole number (R52). -/
def narrowRound (fmt m : Nat) (e : Int) : Nat × Int :=
  if fmt = fmtT2 then (if 0 ≤ e then (m * 2 ^ e.toNat, 0) else (roundShift m (-e).toNat, 0))
  else roundMag (narrowP fmt).p none m e

/-- m × 2^e compared with a whole number. -/
def magGt (m : Nat) (e : Int) (n : Nat) : Bool := if 0 ≤ e then decide (n < m * 2 ^ e.toNat) else decide (n * 2 ^ (-e).toNat < m)

/-- The code of an exact narrow magnitude r × 2^q (R47, R53). -/
def narrowEncode (fmt : Nat) (neg : Bool) (r : Nat) (q : Int) : Nat :=
  let l := Nat.log2 r; let x : Int := (l : Int) + q
  match fmt with
  | 0 => (if neg then 8 else 0) + (x + 1).toNat * 2 + (if l = 0 then 0 else (r >>> (l - 1)) % 2)
  | 2 => if neg then 3 else 1
  | 3 => (if neg then 128 else 0) + (x + 7).toNat * 8 + (r * 8 / 2 ^ l) % 8
  | _ => (if neg then 128 else 0) + (x + 15).toNat * 4 + (r * 4 / 2 ^ l) % 4

/-- A code with the events of its writing. -/
structure CodeR where
  code : Nat
  sat : Bool
  flush : Bool
  nanOut : Bool
  deriving DecidableEq, Repr

/-- The saturated element ±M of a format with escapes (R68). -/
def satCode (fmt : Nat) (neg : Bool) : Nat :=
  match fmt with
  | 0 => if neg then 15 else 7
  | 2 => if neg then 3 else 1
  | 3 => if neg then 0xFE else 0x7E
  | _ => if neg then 0xFB else 0x7B

/-- Steps 2 to 5 of R71 for one element under block exponent e: F4, T2, F8, F8W, I4 and the non-finite elements of R496. -/
def narrowOne (f : Fmt) (e : Int) (v : Fl) : CodeR :=
  match v with
  | .nan => if f.fmt = fmtF8 then ⟨0x7F, false, false, true⟩ else if f.fmt = fmtF8W then ⟨0x7E, false, false, true⟩ else ⟨0, false, false, false⟩
  | .inf n =>
    if f.fmt = fmtI4 then ⟨if n then 8 else 7, true, false, false⟩
    else if f.fmt = fmtF8W then ⟨if n then 0xFC else 0x7C, false, false, false⟩
    else ⟨satCode f.fmt n, true, false, false⟩
  | .fin n m x =>
    if f.fmt = fmtI4 then
      let y : Int := if 0 ≤ x - e then (m : Int) * 2 ^ (x - e).toNat else roundShift m (e - x).toNat
      let q := (if n then -y else y) + (if f.zpen then f.zp else 0)
      if 7 < q then ⟨7, true, false, false⟩ else if q < -8 then ⟨8, true, false, false⟩ else ⟨(q % 16).toNat, false, false, false⟩
    else
      let z := if n && f.fmt ≠ fmtF4 && f.fmt ≠ fmtT2 then 128 else 0
      if m = 0 then ⟨z, false, false, false⟩ else
      let (r, q) := narrowRound f.fmt m (x - e)
      if r = 0 ∨ (Nat.log2 r : Int) + q < (narrowP f.fmt).emin then ⟨z, false, true, false⟩
      else if magGt r q (narrowP f.fmt).maxM then ⟨satCode f.fmt n, true, false, false⟩
      else ⟨narrowEncode f.fmt n r q, false, false, false⟩

/-- Whether every q of an I4 block lies in −8 to +7 at exponent e (R60). -/
def i4Fits (f : Fmt) (vs : List Fl) (e : Int) : Bool := vs.all fun v => v.isFin && !(narrowOne f e v).sat

/-- The block scale byte of R60 for the finite, non-escaped elements of a block; e = b − 127. -/
def blockScale (f : Fmt) (vs : List Fl) : Nat :=
  let nz := vs.filter fun v => v.isFin && !v.isZero
  if nz.isEmpty then 0 else
  if f.fmt = fmtI4 then
    match (List.range 255).find? fun (b : Nat) => i4Fits f nz ((b : Int) - 127) with
    | some b => b
    | none => 254
  else
    let amax := nz.foldl (fun a v => if a.lt v.abs then v.abs else a) .zero
    match amax with
    | .fin _ m x =>
      let e0 := amax.log2 - (narrowP f.fmt).emax
      let (r, q) := narrowRound f.fmt m (x - e0)
      let e1 := if magGt r q (narrowP f.fmt).maxM then e0 + 1 else e0
      (min (max e1 (-127)) 127 + 127).toNat
    | _ => 0

/-! ## Reading an element -/

/-- A tensor as a command names it: format, planes and row stride (R91, R138). For W40 the SCALE address names the
extension plane (DESIGN CHOICE, log 14). -/
structure TRef where
  fmt : Fmt
  elem : Nat
  scale : Nat
  side : Nat
  stride : Nat
  deriving DecidableEq, Repr

/-- Bit address of the code of element (i, j) (R62, R91). -/
def TRef.bitAddr (t : TRef) (i j : Nat) : Nat :=
  let f := t.fmt
  if f.square then 8 * t.elem + i / f.blkH * t.stride * 8 + (j / f.blkW * f.blkElems + i % f.blkH * f.blkW + j % f.blkW) * f.bits
  else 8 * t.elem + i * t.stride * 8 + j * f.bits

/-- Address of the scale byte of element (i, j) (R63): the blocks of a row, or band, take stride / block bytes places. -/
def TRef.scaleAddr (t : TRef) (i j : Nat) : Nat := t.scale + i / t.fmt.blkH * (t.stride / t.fmt.blkBytes) + j / t.fmt.blkW

/-- Address of the run of slots of the segment that holds a bit address (R497). -/
def TRef.runAddr (t : TRef) (bit : Nat) : Nat :=
  t.side + (bit / 8 / t.fmt.segBytes - t.elem / t.fmt.segBytes) * t.fmt.slots * 4

/-- Storage position within its segment of the code at a bit address (R497). -/
def Fmt.segPos (f : Fmt) (bit : Nat) : Nat := bit % (8 * f.segBytes) / f.bits

/-- The bytes at an address as a little-endian number (R10). -/
def leBytes (rd : Nat → Byte) (a n : Nat) : Nat := (List.range n).foldr (fun i acc => (rd (a + i)).toNat + 256 * acc) 0

def codeAt (rd : Nat → Byte) (bits bit : Nat) : Nat := leBytes rd (bit / 8) ((bits + 7) / 8) / 2 ^ (bit % 8) % 2 ^ bits

/-- An element as read: its value, its code, and the events of reading it: an orphan escape (R66), an escape. -/
structure ElemR where
  val : Fl
  code : Nat
  orphan : Bool
  escape : Bool
  deriving DecidableEq, Repr

/-- Element (i, j) of a tensor: exact value under R59, R66, R72. -/
def TRef.read (t : TRef) (rd : Nat → Byte) (i j : Nat) : ElemR :=
  let f := t.fmt
  let bit := t.bitAddr i j
  let c := codeAt rd f.bits bit
  match f.fmt with
  | 5 => ⟨bf16v c, c, false, false⟩
  | 6 => ⟨fp32v c, c, false, false⟩
  | 7 => ⟨w40v c (rd (t.scale + i * (t.stride / 4) + j)).toNat, c, false, false⟩
  | _ =>
    let b := if f.scaled then (rd (t.scaleAddr i j)).toNat else 127
    if isEscape f c && !(f.scaled && b = 0xFF) then
      let run := t.runAddr bit
      let p := f.segPos bit
      let hit := (List.range f.slots).find? fun k =>
        let w := leBytes rd (run + 4 * k) 4
        w.testBit 31 && w / 2 ^ 23 % 64 = p / f.blkElems && w / 2 ^ 16 % 128 = p % f.blkElems
      match hit with
      | some k => ⟨bf16v (leBytes rd (run + 4 * k) 4 % 2 ^ 16), c, false, true⟩
      | none => ⟨.nan, c, true, true⟩
    else ⟨codeValue f c b, c, false, false⟩

/-- The addresses of the bytes that reading element (i, j) takes; for an escape the whole run. -/
def TRef.readAddrs (t : TRef) (rd : Nat → Byte) (i j : Nat) : List Nat :=
  let f := t.fmt
  let bit := t.bitAddr i j
  (List.range ((f.bits + 7) / 8)).map (bit / 8 + ·) ++
  (if f.fmt = fmtW40 then [t.scale + i * (t.stride / 4) + j] else []) ++
  (if f.scaled then [t.scaleAddr i j] else []) ++
  (if (t.read rd i j).escape then (List.range (4 * f.slots)).map (t.runAddr bit + ·) else [])

/-! ## Writing a tensor -/

/-- An element to be written: bit address of its code, address of its scale byte, of its run, position in its segment, the
value, whether the outlier rule marks it, whether it is an element (not padding, R61), and whether it was read as a saturated value
(R59): it is then written as one, and is no escape candidate. -/
structure WElt where
  bit : Nat
  scale : Nat
  run : Nat
  pos : Nat
  v : Fl
  mark : Bool
  real : Bool
  sat : Bool
  deriving DecidableEq, Repr

/-- The six event counts of R73 in the order of R178: SAT, FLUSH, ESC_OVF, NAN_BLOCK, NAN_OUT, ESC_ORPHAN. -/
structure Events where
  sat : Nat
  flush : Nat
  escOvf : Nat
  nanBlock : Nat
  nanOut : Nat
  orphan : Nat
  deriving DecidableEq, Repr

def Events.none : Events := ⟨0, 0, 0, 0, 0, 0⟩
def Events.add (a b : Events) : Events :=
  ⟨a.sat + b.sat, a.flush + b.flush, a.escOvf + b.escOvf, a.nanBlock + b.nanBlock, a.nanOut + b.nanOut, a.orphan + b.orphan⟩
def Events.list (e : Events) : List Nat := [e.sat, e.flush, e.escOvf, e.nanBlock, e.nanOut, e.orphan]

/-- What a write leaves: bit fields (bit address, width, value), and events. -/
structure WOut where
  fields : List (Nat × Nat × Nat)
  ev : Events
  deriving DecidableEq, Repr

def WOut.append (a b : WOut) : WOut := ⟨a.fields ++ b.fields, a.ev.add b.ev⟩

/-- Whether a candidate ranks before another (R68): NaN, then infinities, then finite values; larger magnitude; lower
position. -/
def ranksBefore (a b : WElt) : Bool :=
  let k : Fl → Nat := fun v => if v.isNan then 0 else if v.isInf then 1 else 2
  if k a.v ≠ k b.v then decide (k a.v < k b.v)
  else if k a.v = 2 && (b.v.abs.lt a.v.abs || a.v.abs.lt b.v.abs) then b.v.abs.lt a.v.abs
  else decide (a.pos < b.pos)

def rankInsert (a : WElt) : List WElt → List WElt
  | [] => [a]
  | b :: t => if ranksBefore a b then a :: b :: t else b :: rankInsert a t

/-- The first two of each 32-element group, in rank order (R67, R68). -/
def keepTwo (cs : List WElt) : List WElt :=
  cs.foldl (fun kept c => if (kept.filter fun k => k.pos / 32 = c.pos / 32).length < 2 then kept ++ [c] else kept) []

/-- The elements of one segment that get a slot (R68). -/
def escaped (f : Fmt) (seg : List WElt) : List WElt :=
  let cands := seg.filter fun x => x.real && !x.sat && (!x.v.isFin || x.mark)
  ((keepTwo (cands.foldr rankInsert [])).take f.slots)

/-- The slot of an escaped element and the events of its value (R64, R65). -/
def slotWord (f : Fmt) (x : WElt) : Nat × Events :=
  let r := bf16F.round x.v
  (2 ^ 31 + x.pos / f.blkElems * 2 ^ 23 + x.pos % f.blkElems * 2 ^ 16 + r.code,
   { Events.none with sat := if r.sat then 1 else 0, flush := if r.flush then 1 else 0 })

/-- A candidate of an escape that got no slot (R68). -/
def fallsBack (f : Fmt) (esc : List WElt) (x : WElt) : Bool := f.escapes && x.real && !x.sat && !esc.contains x && (!x.v.isFin || x.mark)

/-- Whether a block becomes a NaN block (R59, R68, R496). -/
def nanBlk (f : Fmt) (esc : List WElt) (blk : List WElt) : Bool :=
  if f.escapes then blk.any fun x => fallsBack f esc x && x.v.isNan
  else decide (f.fmt = fmtI4) && blk.any fun x => x.real && x.v.isNan

/-- One block of a segment: scale byte and codes under R59 to R60, R68, R496. esc says which elements escape. -/
def writeBlock (f : Fmt) (esc : List WElt) (blk : List WElt) : WOut :=
  let isEsc := fun x => esc.contains x
  let fall := fallsBack f esc
  let plain := (blk.filter fun x => !isEsc x && !fall x).map (·.v)
  let nanB := nanBlk f esc blk
  let b := if f.blk = 0 then 127 else blockScale f plain
  let one : WElt → WOut := fun x =>
    if isEsc x then ⟨[(x.bit, f.bits, if f.fmt = fmtF4 then 8 else 2)], .none⟩
    else if fall x then
      ⟨[(x.bit, f.bits, if x.v.isNan then 0 else satCode f.fmt x.v.isNeg)], { Events.none with escOvf := if x.v.isNan then 0 else 1 }⟩
    else
      let r := narrowOne f ((b : Int) - 127) x.v
      ⟨[(x.bit, f.bits, r.code)], { Events.none with
        sat := if r.sat && !nanB then 1 else 0, flush := if r.flush && x.real then 1 else 0, nanOut := if r.nanOut then 1 else 0 }⟩
  let body := (blk.map one).foldl WOut.append ⟨[], .none⟩
  let sc := match blk with
    | x :: _ => if f.blk = 0 then [] else [(8 * x.scale, 8, if nanB then 0xFF else b)]
    | [] => []
  ⟨sc ++ body.fields, body.ev.add { Events.none with nanBlock := if nanB then 1 else 0 }⟩

/-- Consecutive elements of equal key, as lists. -/
def groupOn (key : WElt → Nat) : List WElt → List (List WElt)
  | [] => []
  | x :: t =>
    match groupOn key t with
    | [] => [[x]]
    | g :: gs => match g with
      | [] => [x] :: gs
      | y :: _ => if key x = key y then (x :: g) :: gs else [x] :: g :: gs

/-- One segment: the side-list run and the blocks (R66, R68). A slot's saturation in a NaN block counts as NAN_BLOCK only (R74). -/
def writeSegment (f : Fmt) (seg : List WElt) : WOut :=
  let esc := if f.escapes then escaped f seg else []
  let inOrder := seg.filter fun x => esc.contains x
  let groups := groupOn (fun x => x.bit / (8 * max 1 f.blkBytes)) seg
  let inNan := fun x => groups.any fun b => b.contains x && nanBlk f esc b
  let slots := inOrder.map fun x => let (w, ev) := slotWord f x; (w, if inNan x then { ev with sat := 0 } else ev)
  let run := match seg with | x :: _ => x.run | [] => 0
  let side := (List.range f.slots).map fun k => (8 * (run + 4 * k), 32, ((slots.map (·.1)).getD k 0))
  let blocks := groups.map (writeBlock f esc)
  blocks.foldl WOut.append ⟨side, (slots.map (·.2)).foldl Events.add .none⟩

/-- A narrow tensor's elements in storage order: segment by segment. -/
def writeNarrow (f : Fmt) (xs : List WElt) : WOut :=
  ((groupOn (fun x => x.bit / (8 * f.segBytes)) xs).map (writeSegment f)).foldl WOut.append ⟨[], .none⟩

/-- The places of a rows × cols output in storage order, block padding included (R61, R62). -/
def TRef.places (t : TRef) (rows cols : Nat) : List (Nat × Nat) :=
  let f := t.fmt
  let r := roundUp rows f.blkH; let c := roundUp cols f.blkW
  if f.square then
    (List.range (r / f.blkH)).flatMap fun bi => (List.range (c / f.blkW)).flatMap fun bj =>
      (List.range f.blkH).flatMap fun u => (List.range f.blkW).map fun v => (bi * f.blkH + u, bj * f.blkW + v)
  else (List.range r).flatMap fun i => (List.range c).map fun j => (i, j)

/-- The elements of a narrow tensor write in storage order, padding included. -/
def TRef.elements (t : TRef) (rows cols : Nat) (val : Nat → Nat → Fl) (mark : Nat → Nat → Bool) : List WElt :=
  (t.places rows cols).map fun (i, j) =>
    let real := decide (i < rows ∧ j < cols)
    let bit := t.bitAddr i j
    ⟨bit, t.scaleAddr i j, t.runAddr bit, t.fmt.segPos bit, if real then val i j else .zero, real && mark i j, real, false⟩

/-- A tensor write: the value of each element, its outlier mark, and which positions are written (merged positions of a wide
format keep their old value, R147). -/
def TRef.write (t : TRef) (rows cols : Nat) (val : Nat → Nat → Fl) (mark : Nat → Nat → Bool) (wr : Nat → Nat → Bool) : WOut :=
  let f := t.fmt
  if f.fmt ≤ fmtF8W then writeNarrow f (t.elements rows cols val mark)
  else
    let wf := match f.fmt with | 5 => bf16F | 6 => fp32F | _ => w40F
    ((List.range rows).flatMap fun i => (List.range cols).map fun j =>
      if wr i j then
        let r := wf.round (val i j)
        let ev : Events := { Events.none with sat := if r.sat then 1 else 0, flush := if r.flush then 1 else 0, nanOut := if r.nan then 1 else 0 }
        if f.fmt = fmtW40 then
          let hl := w40Split r.code
          (⟨[(t.bitAddr i j, 32, hl.1), (8 * (t.scale + i * (t.stride / 4) + j), 8, hl.2)], ev⟩ : WOut)
        else ⟨[(t.bitAddr i j, f.bits, r.code)], ev⟩
      else ⟨[], .none⟩).foldl WOut.append ⟨[], .none⟩

/-- Whether an output covers every segment it touches (R69); tend: it ends its tensor. -/
def TRef.coversSegments (t : TRef) (rows cols : Nat) (tend : Bool) : Bool :=
  let f := t.fmt
  if f.slcap = 0 then true else
  let bits := (t.places rows cols).map fun (i, j) => t.bitAddr i j
  let segs := (bits.map (· / (8 * f.segBytes))).eraseDups
  let last := segs.foldl max 0
  segs.all fun s =>
    let ps := (bits.filter fun b => b / (8 * f.segBytes) = s).map f.segPos
    decide (ps.length = 1024) || (tend && decide (s = last) && (List.range ps.length).all fun p => ps.contains p)

/-- Bit addresses of the count padding after the last element of an output that ends its tensor (R61, R69). DESIGN CHOICE (log 113):
an output without a side list has none, since R69 gives these positions to no command and says of its last segment only that the
package writes them; a reader of R61 alone would expect zeros there. -/
def TRef.padding (t : TRef) (rows cols : Nat) : List Nat :=
  let f := t.fmt
  if f.slcap = 0 then [] else
  let bits := (t.places rows cols).map fun (i, j) => t.bitAddr i j
  let last := bits.foldl max 0
  (List.range (1023 - f.segPos last)).map fun k => last + (k + 1) * f.bits

/-- The zero codes of the count padding (R69). -/
def TRef.tail (t : TRef) (rows cols : Nat) : List (Nat × Nat × Nat) := (t.padding rows cols).map fun b => (b, t.fmt.bits, 0)

end Sys2Proof.Machine
end

