-- ==== Sys2Proof/Config.lean ====
section
/-! DEFINITION. What a part or an implementation fixes and the manual does not give: constants without a body, so that
nothing can be proved of their values. Each names its entry of the log. -/

namespace Sys2Proof.Config

/-- The free value drawn n-th: a value the manual leaves open, or a count of cycles or an analogue reading that it gives no
way to compute. The state's field free counts the draws (log 7). -/
opaque freeValue : Nat → BitVec 64

/-- The result of an integer function of the base ISA that the manual does not name, by function code and operands (log 7). -/
opaque aluOther : BitVec 10 → BitVec 64 → BitVec 64 → BitVec 64

/-- The result of a floating-point function code that the manual does not name (log 7). -/
opaque fpOther : BitVec 10 → Bool → BitVec 64 → BitVec 64 → BitVec 64

/-- The result of a base instruction inside the element section of an update program, by its word and operands, and, where it loads or stores, the
log2 of its bytes and whether it addresses scratch: the manual gives the base opcodes no function codes (R157, R227; log 127). -/
opaque baseResult : BitVec 32 → BitVec 64 → BitVec 64 → BitVec 64
opaque baseWidth : BitVec 32 → Nat
opaque baseScratch : BitVec 32 → Bool

/-- The sign of the saturated value that an element of a NaN block reads as in a format without NaN, by format and code: the manual
says only that it is saturated (R59; log 114). -/
opaque nanBlockNeg : Nat → Nat → Bool

/-- The upper half of a 64-bit register after an FP32 result: the manual gives the FP32 code's 32 bits only (log 7). -/
opaque fp32High : BitVec 32 → BitVec 32

/-- How far below nominal, in MHz, an island's mean clock shows under a droop warning, by die, island and time: the manual gives the
bounds only (R41; log 7). -/
opaque droopClock : Nat → Nat → Nat → BitVec 64

/-- How far a taken branch or jump goes for an offset: the manual gives OFF in instructions and not the base (log 16). -/
opaque branchBase : BitVec 64

/-- Unit identity, a fuse field (R474; log 15). -/
opaque uid : BitVec 64
/-- Hashes of the vendor keys (R474): the four words of VKH0 and VKH1 (log 15). -/
opaque vkh : Nat → Nat → BitVec 64
/-- Hash of the identity public key (R474; log 15). -/
opaque idpkh : Nat → BitVec 64
/-- Bytes 0 to 31 of the device secret, a fuse field (R474; log 15). -/
opaque dsecret : Nat → BitVec 8
/-- Words of the root of the XMSS tree that SK_SEED and PUB_SEED give (RFC 8391, R483; log 15). -/
opaque xmssRoot : List (BitVec 8) → List (BitVec 8) → Nat → BitVec 64
/-- Whether an XMSS signature verifies: public key, signature and message as bytes (R476, RFC 8391; log 15). -/
opaque xmssVerify : List (BitVec 8) → List (BitVec 8) → List (BitVec 8) → Bool
/-- The 2,820-byte XMSS signature that SK_SEED, SK_PRF and PUB_SEED give for a leaf index and a message, as 64-bit words padded (RFC
8391, R485; log 15). -/
opaque xmssSign : List (BitVec 8) → List (BitVec 8) → List (BitVec 8) → Nat → List (BitVec 8) → Nat → BitVec 64
/-- Calibrated weight of class i in 1/16 pJ, static power of a die, and whether the CAL fuses are blank (R456, R474). -/
opaque calWeight : Nat → BitVec 32
opaque calStatic : Nat → BitVec 16
opaque calBlank : Bool
/-- Die stepping (R474) and Amintimer's JEP106 code (R490). -/
opaque dieStep : Nat → BitVec 4
opaque jep106 : BitVec 11
/-- The OID of XMSS-SHAKE256_20_256 that SP 800-208 assigns (R476). -/
opaque xmssOid : BitVec 32

end Sys2Proof.Config
end

