-- ==== Sys2Proof/Machine/Catalogue.lean ====
section
/-! DEFINITION. The register catalogue: for every register of the register maps (R15), its offset, how often and how far
apart it repeats, its value after a package cold reset (R17), and the masks of its RW, W1C, W1S and RC bits. A bit in no mask
is RO, WO or reserved. A reset of — is given as zero here; State.reset and the views of reads say what it holds; MXE.STAT.CAP_EFF is
16, the controller's first cap (R96, R469). -/

namespace Sys2Proof.Machine

/-- One register of a register map (R15). -/
structure RegRow where
  off : Nat
  stride : Nat
  count : Nat
  reset : Nat
  rw : Nat
  w1c : Nat
  w1s : Nat
  rc : Nat
  deriving DecidableEq, Repr

namespace Cat

/-- The common header of every page (R390). -/
def com : List RegRow :=
  [ ⟨0x000, 0, 1, 0x3000000, 0, 0, 0, 0⟩
  , ⟨0x008, 0, 1, 0, 0, 0, 0, 0⟩
  , ⟨0x028, 0, 1, 0, 0xffffffffffffffff, 0, 0, 0⟩
  , ⟨0x030, 0, 1, 0, 0, 0, 0, 0⟩
  , ⟨0x038, 0, 1, 0, 0x7f, 0, 0, 0xffffffff00000000⟩
  , ⟨0x040, 0, 1, 0xf, 0xf, 0, 0, 0⟩ ]

/-- Block type 0x00, DIR: R391. -/
def dir : List RegRow :=
  [ ⟨0x018, 0, 1, 0, 0, 0, 0, 0⟩
  , ⟨0x100, 8, 480, 0, 0, 0, 0, 0⟩ ]

/-- Block type 0x01, HLK: R394. -/
def hlk : List RegRow :=
  [ ⟨0x010, 0, 1, 0, 0, 0, 0x30, 0⟩
  , ⟨0x018, 0, 1, 0, 0, 0, 0, 0⟩
  , ⟨0x020, 0, 1, 0, 0, 0x1ff, 0, 0⟩
  , ⟨0x100, 0, 1, 0x100, 0x1ffff, 0, 0, 0⟩
  , ⟨0x108, 0, 1, 0, 0, 0, 0, 0xffffffffffffffff⟩
  , ⟨0x110, 0, 1, 0, 0, 0, 0, 0⟩ ]

/-- Block type 0x02, ISL: R41. -/
def isl : List RegRow :=
  [ ⟨0x100, 0, 1, 0, 0, 0, 0, 0⟩
  , ⟨0x108, 0, 1, 0, 0, 0, 0, 0xffffffffffffffff⟩
  , ⟨0x110, 0, 1, 0, 0, 0, 0, 0⟩
  , ⟨0x118, 0, 1, 0, 0, 0, 0, 0⟩ ]

/-- Block type 0x04, SQ: R395. -/
def sq : List RegRow :=
  [ ⟨0x018, 0, 1, 0, 0, 0, 0, 0⟩
  , ⟨0x020, 0, 1, 0, 0, 0xf, 0, 0⟩
  , ⟨0x100, 0, 1, 0x1, 0x80ff000000001fff, 0, 0, 0⟩
  , ⟨0x108, 0, 1, 0, 0xffffffffffffffff, 0, 0, 0⟩
  , ⟨0x110, 0, 1, 0, 0, 0, 0, 0⟩
  , ⟨0x118, 0, 1, 0, 0, 0, 0, 0⟩ ]

/-- Block type 0x05, ATN: R396. -/
def atn : List RegRow :=
  [ ⟨0x100, 0, 1, 0x7ff, 0, 0, 0, 0⟩
  , ⟨0x200, 8, 4, 0, 0, 0, 0, 0⟩
  , ⟨0x300, 8, 30, 0, 0, 0, 0, 0⟩ ]

/-- Block type 0x06, PWR: R469. -/
def pwr : List RegRow :=
  [ ⟨0x018, 0, 1, 0x2010, 0, 0, 0, 0⟩
  , ⟨0x020, 0, 1, 0, 0, 0x7, 0, 0⟩
  , ⟨0x100, 0, 1, 0x76c06400032, 0xffffffff00ff, 0, 0, 0⟩
  , ⟨0x108, 0, 1, 0, 0, 0, 0, 0⟩
  , ⟨0x110, 0, 1, 0, 0, 0, 0, 0⟩
  , ⟨0x118, 0, 1, 0, 0x1, 0, 0, 0⟩
  , ⟨0x200, 0, 1, 54400, 0xffffffff, 0, 0, 0⟩
  , ⟨0x208, 0, 1, 32, 0xffffffff, 0, 0, 0⟩
  , ⟨0x210, 0, 1, 960, 0xffffffff, 0, 0, 0⟩
  , ⟨0x218, 0, 1, 480, 0xffffffff, 0, 0, 0⟩
  , ⟨0x220, 0, 1, 12800, 0xffffffff, 0, 0, 0⟩
  , ⟨0x228, 0, 1, 8320, 0xffffffff, 0, 0, 0⟩
  , ⟨0x230, 0, 1, 2880, 0xffffffff, 0, 0, 0⟩
  , ⟨0x238, 0, 1, 2400, 0xffffffff, 0, 0, 0⟩
  , ⟨0x240, 0, 1, 0, 0, 0, 0, 0⟩
  , ⟨0x248, 0, 1, 0, 0, 0, 0, 0⟩
  , ⟨0x250, 0, 1, 0, 0, 0, 0, 0⟩
  , ⟨0x258, 0, 1, 0, 0, 0, 0, 0⟩
  , ⟨0x260, 0, 1, 0, 0, 0, 0, 0⟩
  , ⟨0x268, 0, 1, 0, 0, 0, 0, 0⟩
  , ⟨0x270, 0, 1, 0, 0, 0, 0, 0⟩
  , ⟨0x278, 0, 1, 0, 0, 0, 0, 0⟩
  , ⟨0x280, 0, 1, 0x78007800780078, 0xffffffffffffffff, 0, 0, 0⟩
  , ⟨0x300, 0, 1, 0, 0, 0, 0, 0xffffffffffffffff⟩
  , ⟨0x308, 0, 1, 0x640, 0xffff, 0, 0, 0⟩ ]

/-- Block type 0x07, DRP: R470. -/
def drp : List RegRow :=
  [ ⟨0x018, 0, 1, 0, 0, 0, 0, 0⟩
  , ⟨0x020, 0, 1, 0, 0, 0x3, 0, 0⟩
  , ⟨0x100, 0, 1, 0, 0, 0, 0, 0xffffffffffffffff⟩
  , ⟨0x108, 0, 1, 0, 0, 0, 0, 0⟩
  , ⟨0x110, 0, 1, 0x3e8, 0xffff, 0, 0, 0⟩ ]

/-- Block type 0x08, MXE: R112. -/
def mxe : List RegRow :=
  [ ⟨0x010, 0, 1, 0x20, 0x3f, 0, 0x8000, 0⟩
  , ⟨0x018, 0, 1, 0x100000, 0, 0, 0, 0⟩
  , ⟨0x020, 0, 1, 0, 0, 0x1f, 0, 0⟩
  , ⟨0x100, 0, 1, 0, 0, 0, 0, 0xffffffffffffffff⟩
  , ⟨0x108, 0, 1, 0, 0, 0, 0, 0xffffffffffffffff⟩
  , ⟨0x110, 16, 3, 0, 0, 0, 0, 0⟩
  , ⟨0x118, 16, 3, 0, 0, 0, 0, 0⟩ ]

/-- Block type 0x09, MXG: R113. -/
def mxg : List RegRow :=
  [ ⟨0x100, 8, 4, 0, 0xffffffffffffffff, 0, 0, 0⟩ ]

/-- Block type 0x0A, VXE: R164. -/
def vxe : List RegRow :=
  [ ⟨0x010, 0, 1, 0, 0, 0, 0x8000, 0⟩
  , ⟨0x018, 0, 1, 0, 0, 0, 0, 0⟩
  , ⟨0x020, 0, 1, 0, 0, 0xf, 0, 0⟩
  , ⟨0x100, 0, 1, 0, 0, 0, 0, 0xffffffffffffffff⟩ ]

/-- Block type 0x0B, CLU: R165. -/
def clu : List RegRow :=
  [ ⟨0x018, 0, 1, 0x10000, 0, 0, 0, 0⟩
  , ⟨0x020, 0, 1, 0, 0, 0x3, 0, 0⟩
  , ⟨0x100, 0, 1, 0, 0x1ff, 0, 0, 0⟩
  , ⟨0x108, 0, 1, 0, 0x7f, 0, 0, 0⟩
  , ⟨0x110, 0, 1, 0, 0xffffffff, 0, 0, 0⟩ ]

/-- Block type 0x0C, SCL: R186. -/
def scl : List RegRow :=
  [ ⟨0x100, 0, 1, 0, 0x1ffffffff, 0, 0, 0⟩ ]

/-- Block type 0x0D, HST: R187. -/
def hst : List RegRow :=
  [ ⟨0x018, 0, 1, 0, 0, 0, 0, 0⟩
  , ⟨0x020, 0, 1, 0, 0, 0xf, 0, 0⟩
  , ⟨0x100, 0, 1, 0, 0, 0, 0, 0⟩
  , ⟨0x200, 8, 256, 0, 0x1ff, 0, 0, 0⟩ ]

/-- Block type 0x0E, CTR: R188. -/
def ctr : List RegRow :=
  [ ⟨0x020, 0, 1, 0, 0, 0x3, 0, 0⟩
  , ⟨0x100, 0, 1, 0, 0xff, 0, 0, 0⟩
  , ⟨0x108, 0, 1, 0, 0, 0, 0, 0⟩
  , ⟨0x110, 0, 1, 0, 0xfffffffffffff001, 0, 0, 0⟩
  , ⟨0x118, 0, 1, 0, 0x3f, 0, 0, 0⟩
  , ⟨0x120, 0, 1, 0, 0, 0, 0, 0⟩
  , ⟨0x128, 0, 1, 0, 0, 0, 0, 0⟩
  , ⟨0x200, 8, 48, 0, 0, 0, 0, 0xffffffffffffffff⟩ ]

/-- Block type 0x10, MAP: R216. -/
def map : List RegRow :=
  [ ⟨0x018, 0, 1, 0, 0, 0, 0, 0⟩
  , ⟨0x020, 0, 1, 0, 0, 0x3, 0, 0⟩
  , ⟨0x100, 0, 1, 0, 0, 0, 0, 0⟩
  , ⟨0x200, 32, 64, 0, 0xffffffff0000, 0, 0, 0⟩
  , ⟨0x208, 32, 64, 0, 0xffffffff0000, 0, 0, 0⟩
  , ⟨0x210, 32, 64, 0, 0xfffc000000000000, 0, 0, 0⟩
  , ⟨0x218, 32, 64, 0, 0x3fffff0000, 0, 0, 0⟩
  , ⟨0xA00, 8, 16, 0, 0xffffffffffffffff, 0, 0, 0⟩ ]

/-- Block type 0x11, TOLL: R217. -/
def toll : List RegRow :=
  [ ⟨0x100, 8, 64, 0x40000, 0x800000ffffffffff, 0, 0, 0⟩
  , ⟨0x300, 8, 64, 0, 0, 0, 0, 0⟩
  , ⟨0x500, 8, 64, 0, 0, 0, 0, 0xffffffffffffffff⟩ ]

/-- Block type 0x12, MSC: R218. -/
def msc : List RegRow :=
  [ ⟨0x100, 0, 1, 0x40000, 0, 0, 0, 0⟩
  , ⟨0x108, 0, 1, 0x5f0, 0xffff, 0, 0, 0⟩
  , ⟨0x110, 0, 1, 0, 0, 0, 0, 0xffffffffffffffff⟩
  , ⟨0x118, 0, 1, 0, 0, 0, 0xffffffff, 0⟩ ]

/-- Block type 0x13, LPC: R219. -/
def lpc : List RegRow :=
  [ ⟨0x100, 0, 1, 0, 0, 0, 0, 0⟩
  , ⟨0x110, 0, 1, 0, 0, 0, 0, 0xffffffffffffffff⟩
  , ⟨0x118, 0, 1, 0, 0, 0, 0x3, 0⟩ ]

/-- Block type 0x14, UU: R246. -/
def uu : List RegRow :=
  [ ⟨0x010, 0, 1, 0x20, 0x3f, 0, 0x8000, 0⟩
  , ⟨0x018, 0, 1, 0, 0, 0, 0, 0⟩
  , ⟨0x020, 0, 1, 0, 0, 0x1f, 0, 0⟩
  , ⟨0x100, 0, 1, 0, 0, 0, 0, 0xffffffffffffffff⟩ ]

/-- Block type 0x15, UPD: R247. -/
def upd : List RegRow :=
  [ ⟨0x018, 0, 1, 0, 0, 0, 0, 0⟩
  , ⟨0x020, 0, 1, 0, 0, 0x7, 0, 0⟩
  , ⟨0x100, 0, 1, 0, 0, 0, 0, 0xffffffffffffffff⟩ ]

/-- Block type 0x16, STG: R271. -/
def stg : List RegRow :=
  [ ⟨0x020, 0, 1, 0, 0, 0xf, 0, 0⟩
  , ⟨0x100, 8, 16, 0, 0x80ffffffffffffff, 0, 0, 0⟩
  , ⟨0x180, 0, 1, 0, 0xffffffffffffff81, 0, 0, 0⟩
  , ⟨0x188, 0, 1, 0, 0xffffffffffffff81, 0, 0, 0⟩
  , ⟨0x190, 0, 1, 0, 0, 0, 0, 0⟩
  , ⟨0x198, 0, 1, 0, 0, 0, 0, 0⟩
  , ⟨0x1A0, 0, 1, 0, 0, 0, 0, 0⟩
  , ⟨0x1A8, 0, 1, 0, 0, 0, 0, 0⟩
  , ⟨0x200, 8, 16, 0x60, 0x7f, 0, 0, 0⟩ ]

/-- Block type 0x17, SLQ: R272. -/
def slq : List RegRow :=
  [ ⟨0x020, 0, 1, 0, 0, 0x1f, 0, 0⟩
  , ⟨0x100, 16, 64, 0x1000000000001, 0x9f7fffffff00ffff, 0, 0, 0⟩
  , ⟨0x108, 16, 64, 0, 0xfffffffff000, 0, 0, 0⟩
  , ⟨0x500, 16, 64, 0x1000000c80000, 0x8fff0000ffff0000, 0, 0, 0⟩
  , ⟨0x508, 16, 64, 0, 0xffff0000000000ff, 0, 0, 0⟩
  , ⟨0x900, 8, 64, 0, 0, 0, 0, 0⟩
  , ⟨0xB00, 8, 64, 0, 0, 0, 0, 0⟩ ]

/-- Block type 0x18, SYN: R296. -/
def syn : List RegRow :=
  [ ⟨0x018, 0, 1, 0, 0, 0, 0, 0⟩
  , ⟨0x020, 0, 1, 0, 0, 0x7, 0, 0⟩
  , ⟨0x100, 0, 1, 0, 0, 0, 0, 0⟩
  , ⟨0x108, 0, 1, 0, 0, 0, 0, 0⟩
  , ⟨0x110, 0, 1, 0, 0xff, 0, 0, 0⟩
  , ⟨0x118, 0, 1, 0, 0, 0, 0, 0⟩
  , ⟨0x120, 0, 1, 0, 0, 0, 0, 0⟩ ]

/-- Block type 0x19, BAR: R297. -/
def bar : List RegRow :=
  [ ⟨0x018, 0, 1, 0, 0, 0, 0, 0xff0000⟩
  , ⟨0x020, 0, 1, 0, 0, 0x3, 0, 0⟩
  , ⟨0x100, 0, 1, 0, 0x80ff000000000000, 0, 0, 0⟩
  , ⟨0x108, 8, 6, 0, 0xffffffffffffffff, 0, 0, 0⟩
  , ⟨0x140, 8, 6, 0, 0, 0, 0, 0⟩
  , ⟨0x170, 0, 1, 0, 0, 0, 0, 0⟩ ]

/-- Block type 0x1A, LNK: R329. -/
def lnk : List RegRow :=
  [ ⟨0x010, 0, 1, 0x1, 0x1, 0, 0x8000, 0⟩
  , ⟨0x018, 0, 1, 0, 0, 0, 0, 0⟩
  , ⟨0x020, 0, 1, 0, 0, 0x7f, 0, 0⟩
  , ⟨0x100, 0, 1, 0x1f, 0x1f, 0, 0, 0⟩
  , ⟨0x108, 0, 1, 0x200020005000500, 0xffffffffffffffff, 0, 0, 0⟩
  , ⟨0x110, 0, 1, 0x300030006000600, 0xffffffffffffffff, 0, 0, 0⟩
  , ⟨0x118, 0, 1, 0, 0, 0, 0, 0⟩
  , ⟨0x120, 0, 1, 0, 0, 0, 0, 0⟩
  , ⟨0x128, 0, 1, 0, 0, 0, 0, 0xffffffffffffffff⟩
  , ⟨0x130, 0, 1, 0, 0, 0, 0, 0xffffffffffffffff⟩
  , ⟨0x138, 0, 1, 0, 0, 0, 0, 0xffffffffffffffff⟩
  , ⟨0x140, 0, 1, 0, 0, 0, 0, 0⟩ ]

/-- Block type 0x1B, RTE: R330. -/
def rte : List RegRow :=
  [ ⟨0x018, 0, 1, 0, 0, 0, 0, 0⟩
  , ⟨0x020, 0, 1, 0, 0, 0x7, 0, 0⟩
  , ⟨0x100, 0, 1, 0x2000000000, 0xffff013f00000000, 0, 0, 0⟩
  , ⟨0x108, 0, 1, 0xfa0000001f4, 0xffffffff0000ffff, 0, 0, 0⟩
  , ⟨0x110, 0, 1, 0, 0, 0, 0, 0⟩
  , ⟨0x118, 0, 1, 0, 0, 0, 0, 0⟩
  , ⟨0x120, 0, 1, 0, 0, 0, 0, 0⟩
  , ⟨0x128, 0, 1, 0, 0, 0, 0, 0xffffffffffffffff⟩
  , ⟨0x130, 0, 1, 0, 0, 0, 0, 0xffffffffffff0000⟩
  , ⟨0x138, 0, 1, 0, 0, 0, 0, 0xffffffff⟩
  , ⟨0x140, 0, 1, 0, 0x1ffff, 0, 0, 0⟩
  , ⟨0x148, 0, 1, 0, 0, 0, 0, 0⟩ ]

/-- Block type 0x1C, DSC: R361. -/
def dsc : List RegRow :=
  [ ⟨0x018, 0, 1, 0, 0, 0, 0, 0⟩
  , ⟨0x020, 0, 1, 0, 0, 0xf, 0, 0⟩
  , ⟨0x100, 0, 1, 0, 0, 0, 0, 0⟩
  , ⟨0x108, 0, 1, 0, 0xffffffffffffffff, 0, 0, 0⟩
  , ⟨0x110, 0, 1, 0, 0xffff000000000001, 0, 0, 0⟩
  , ⟨0x118, 0, 1, 0, 0xffff000000000000, 0, 0, 0⟩
  , ⟨0x200, 8, 24, 0xffff, 0, 0, 0, 0⟩
  , ⟨0x300, 8, 24, 0, 0, 0, 0, 0⟩
  , ⟨0x400, 8, 24, 0, 0xc0ffffff00000000, 0, 0, 0⟩ ]

/-- Block type 0x1D, RWIN: R362. -/
def rwin : List RegRow :=
  [ ⟨0x020, 0, 1, 0, 0, 0x1, 0, 0⟩
  , ⟨0x100, 0, 1, 0, 0, 0, 0, 0xffffffff⟩
  , ⟨0x200, 32, 64, 0, 0xf8f0ff00ffffffff, 0, 0, 0⟩
  , ⟨0x208, 32, 64, 0, 0xfffffffff000, 0, 0, 0⟩
  , ⟨0x210, 32, 64, 0, 0xfffffffff000, 0, 0, 0⟩ ]

/-- Block type 0x1E, CRR: R363. -/
def crr : List RegRow :=
  [ ⟨0x010, 0, 1, 0, 0, 0, 0x8000, 0⟩
  , ⟨0x018, 0, 1, 0, 0, 0, 0, 0⟩
  , ⟨0x020, 0, 1, 0, 0, 0x1f, 0, 0⟩
  , ⟨0x100, 0, 1, 0x8, 0xff, 0, 0, 0⟩
  , ⟨0x108, 0, 1, 0, 0, 0, 0, 0xffffffffffffffff⟩
  , ⟨0x110, 0, 1, 0, 0xff, 0, 0, 0⟩
  , ⟨0x118, 0, 1, 0, 0, 0, 0, 0⟩ ]

/-- Block type 0x20, EVL: R428. -/
def evl : List RegRow :=
  [ ⟨0x020, 0, 1, 0, 0, 0x1, 0, 0⟩
  , ⟨0x100, 0, 1, 0, 0xffffffff, 0, 0, 0⟩
  , ⟨0x108, 8, 4, 0, 0, 0, 0, 0⟩
  , ⟨0x128, 0, 1, 0, 0, 0, 0, 0xffffffff⟩ ]

/-- Block type 0x21, RCV: R429. -/
def rcv : List RegRow :=
  [ ⟨0x018, 0, 1, 0, 0, 0, 0, 0⟩
  , ⟨0x020, 0, 1, 0, 0, 0x1f, 0, 0⟩
  , ⟨0x100, 0, 1, 0, 0x1, 0, 0, 0⟩
  , ⟨0x108, 0, 1, 0, 0, 0, 0, 0⟩
  , ⟨0x110, 0, 1, 0, 0, 0, 0, 0xff00000000⟩
  , ⟨0x118, 0, 1, 0, 0, 0, 0, 0⟩
  , ⟨0x120, 0, 1, 0, 0, 0, 0, 0⟩
  , ⟨0x128, 0, 1, 0, 0, 0, 0, 0⟩
  , ⟨0x130, 0, 1, 0, 0xff, 0, 0, 0⟩
  , ⟨0x138, 0, 1, 0, 0xffffffffffffffff, 0, 0, 0⟩
  , ⟨0x140, 0, 1, 0, 0, 0, 0, 0⟩
  , ⟨0x148, 0, 1, 0x271003e803e803e8, 0xffffffffffffffff, 0, 0, 0⟩
  , ⟨0x150, 0, 1, 0x3c03e827101388, 0xffffffffffffffff, 0, 0, 0⟩
  , ⟨0x158, 0, 1, 0, 0xffffffff, 0, 0, 0⟩
  , ⟨0x160, 0, 1, 0, 0, 0, 0, 0⟩ ]

/-- Block type 0x22, LDG: R453. -/
def ldg : List RegRow :=
  [ ⟨0x018, 0, 1, 0, 0, 0, 0, 0⟩
  , ⟨0x020, 0, 1, 0, 0, 0x7, 0, 0⟩
  , ⟨0x100, 0, 1, 0, 0xff, 0, 0, 0⟩
  , ⟨0x108, 0, 1, 0, 0xfffffffff000, 0, 0, 0⟩
  , ⟨0x110, 0, 1, 0x100000001, 0x8000ffff0000ffff, 0, 0, 0⟩
  , ⟨0x118, 0, 1, 0, 0xfffffffffffff001, 0, 0, 0⟩
  , ⟨0x120, 0, 1, 0xffffffffffffffff, 0xffffffffffffffff, 0, 0, 0⟩
  , ⟨0x128, 0, 1, 0xffffffffffffffff, 0, 0, 0, 0⟩
  , ⟨0x130, 0, 1, 0x151800100ea60, 0xffffffffffffffff, 0, 0, 0⟩
  , ⟨0x138, 0, 1, 0, 0, 0, 0, 0⟩
  , ⟨0x140, 0, 1, 0, 0x1, 0, 0, 0⟩
  , ⟨0x148, 0, 1, 0, 0xffffffffffffffff, 0, 0, 0⟩
  , ⟨0x150, 0, 1, 0, 0, 0, 0, 0⟩
  , ⟨0x158, 0, 1, 0, 0, 0, 0, 0⟩ ]

/-- Block type 0x23, SST: R454. -/
def sst : List RegRow :=
  [ ⟨0x018, 0, 1, 0, 0, 0, 0, 0⟩
  , ⟨0x020, 0, 1, 0, 0, 0xf, 0, 0⟩
  , ⟨0x100, 0, 1, 0, 0, 0, 0, 0⟩
  , ⟨0x108, 0, 1, 0, 0, 0, 0, 0⟩
  , ⟨0x110, 0, 1, 0, 0xff000000ffffffff, 0, 0, 0⟩
  , ⟨0x118, 0, 1, 0, 0, 0, 0, 0⟩ ]

/-- Block type 0x24, GEN: R452. -/
def gen : List RegRow :=
  [ ⟨0x100, 0, 1, 0, 0xff, 0, 0, 0⟩
  , ⟨0x108, 0, 1, 0, 0xffffffffffffffff, 0, 0, 0⟩
  , ⟨0x110, 0, 1, 0, 0xffffffffffffffff, 0, 0, 0⟩
  , ⟨0x200, 8, 12, 0, 0xffffffffffffffff, 0, 0, 0⟩ ]

/-- Block type 0x25, BOOT: R493. -/
def boot : List RegRow :=
  [ ⟨0x018, 0, 1, 0, 0, 0, 0, 0⟩
  , ⟨0x020, 0, 1, 0, 0, 0x7, 0, 0⟩
  , ⟨0x100, 0, 1, 0, 0, 0, 0, 0⟩
  , ⟨0x108, 0, 1, 0, 0, 0, 0, 0⟩
  , ⟨0x110, 0, 1, 0, 0, 0, 0, 0⟩
  , ⟨0x120, 8, 4, 0, 0, 0, 0, 0⟩ ]

/-- Block type 0x26, SEC: R494. -/
def sec : List RegRow :=
  [ ⟨0x018, 0, 1, 0, 0, 0, 0, 0⟩
  , ⟨0x020, 0, 1, 0, 0, 0xf, 0, 0⟩
  , ⟨0x100, 8, 4, 0, 0xffffffffffffffff, 0, 0, 0⟩
  , ⟨0x120, 8, 4, 0, 0xffffffffffffffff, 0, 0, 0⟩
  , ⟨0x140, 0, 1, 0, 0, 0, 0, 0⟩
  , ⟨0x148, 0, 1, 0, 0, 0, 0, 0⟩
  , ⟨0x150, 0, 1, 0, 0, 0, 0, 0⟩
  , ⟨0x158, 0, 1, 0, 0, 0, 0, 0⟩
  , ⟨0x160, 0, 1, 0, 0, 0, 0, 0⟩
  , ⟨0x180, 8, 8, 0, 0, 0, 0, 0⟩ ]

/-- Block type 0x27, TST: R495. -/
def tst : List RegRow :=
  [ ⟨0x020, 0, 1, 0, 0, 0x3, 0, 0⟩
  , ⟨0x100, 0, 1, 0, 0xf, 0, 0, 0⟩
  , ⟨0x108, 0, 1, 0x64, 0xffff, 0, 0, 0⟩
  , ⟨0x110, 8, 4, 0, 0, 0, 0, 0⟩
  , ⟨0x130, 0, 1, 0, 0, 0, 0, 0⟩
  , ⟨0x138, 0, 1, 0, 0, 0, 0, 0⟩
  , ⟨0x140, 0, 1, 0, 0, 0, 0, 0⟩ ]

/-- The registers of a block type beyond the common header (R12). -/
def block : Nat → List RegRow
  | 0x00 => dir
  | 0x01 => hlk
  | 0x02 => isl
  | 0x04 => sq
  | 0x05 => atn
  | 0x06 => pwr
  | 0x07 => drp
  | 0x08 => mxe
  | 0x09 => mxg
  | 0x0A => vxe
  | 0x0B => clu
  | 0x0C => scl
  | 0x0D => hst
  | 0x0E => ctr
  | 0x10 => map
  | 0x11 => toll
  | 0x12 => msc
  | 0x13 => lpc
  | 0x14 => uu
  | 0x15 => upd
  | 0x16 => stg
  | 0x17 => slq
  | 0x18 => syn
  | 0x19 => bar
  | 0x1A => lnk
  | 0x1B => rte
  | 0x1C => dsc
  | 0x1D => rwin
  | 0x1E => crr
  | 0x20 => evl
  | 0x21 => rcv
  | 0x22 => ldg
  | 0x23 => sst
  | 0x24 => gen
  | 0x25 => boot
  | 0x26 => sec
  | 0x27 => tst
  | _ => []

end Cat

end Sys2Proof.Machine
end

