-- ==== Sys2Proof/Machine/Crc.lean ====
section
/-! DEFINITION. The cyclic codes of the manual, bit by bit: CRC-64 of R175 (ECMA-182, reflected), CRC-32 of R112 (IEEE) and
CRC-32C of R310, each with initial and final values of all ones; and words as little-endian bytes (R10). -/

namespace Sys2Proof.Machine

/-- One byte into a reflected CRC with the reflected polynomial given. -/
def crcByte (poly c : Nat) (b : Byte) : Nat :=
  (List.range 8).foldl (fun c _ => if c % 2 = 1 then (c / 2) ^^^ poly else c / 2) (c ^^^ b.toNat)

/-- A reflected CRC of the given width over bytes in address order. -/
def crcRefl (width poly : Nat) (bs : List Byte) : Nat :=
  (bs.foldl (crcByte poly) (2 ^ width - 1)) ^^^ (2 ^ width - 1)

def crc64 (bs : List Byte) : W64 := BitVec.ofNat 64 (crcRefl 64 0xC96C5795D7870F42 bs)
def crc32 (bs : List Byte) : Nat := crcRefl 32 0xEDB88320 bs
def crc32c (bs : List Byte) : Nat := crcRefl 32 0x82F63B78 bs

/-- The n low bytes of a number, least significant first (R10). -/
def natBytes (n v : Nat) : List Byte := (List.range n).map fun i => BitVec.ofNat 8 (v >>> (8 * i))

def wordBytes (w : W64) : List Byte := natBytes 8 w.toNat
def wordsBytes (ws : List W64) : List Byte := ws.flatMap wordBytes

/-- The word of eight little-endian bytes. -/
def bytesNat (bs : List Byte) : Nat := bs.foldr (fun b acc => b.toNat + 256 * acc) 0

def crcWords (ws : List W64) : W64 := crc64 (wordsBytes ws)

end Sys2Proof.Machine
end

