-- ==== Sys2Proof/Machine/Fields.lean ====
section
/-! DEFINITION. The names of the register fields of the register maps (R15): the offset in the page and the bits. For a
register that repeats, the offset is that of its first copy. -/

namespace Sys2Proof.Machine

/-- A register field: the register's offset in its page, and its bits [hi:lo] (R9, R12). -/
structure Fld where
  off : Nat
  hi : Nat
  lo : Nat
  deriving DecidableEq, Repr

namespace F

/-! The common header (R390) of every page. -/
abbrev comPageIdDie : Fld := ⟨0x000, 57, 56⟩
abbrev comPageIdBlock : Fld := ⟨0x000, 53, 48⟩
abbrev comPageIdInst : Fld := ⟨0x000, 45, 40⟩
abbrev comPageIdMajor : Fld := ⟨0x000, 31, 24⟩
abbrev comPageIdMinor : Fld := ⟨0x000, 23, 16⟩
abbrev comCapsFast : Fld := ⟨0x008, 63, 63⟩
abbrev comCapsMoves : Fld := ⟨0x008, 62, 62⟩
abbrev comErrMaskMask : Fld := ⟨0x028, 63, 0⟩
abbrev comErrInjectInject : Fld := ⟨0x030, 63, 0⟩
abbrev comEvtSelCount : Fld := ⟨0x038, 63, 32⟩
abbrev comEvtSelSel : Fld := ⟨0x038, 6, 0⟩
abbrev comAtnCtx : Fld := ⟨0x040, 23, 16⟩
abbrev comAtnSev : Fld := ⟨0x040, 10, 8⟩
abbrev comAtnRaised : Fld := ⟨0x040, 7, 4⟩
abbrev comAtnEn : Fld := ⟨0x040, 3, 0⟩

/-! The DIR page. -/
abbrev dirStatCount : Fld := ⟨0x018, 42, 32⟩
abbrev dirStatGen : Fld := ⟨0x018, 31, 0⟩
abbrev dirEntryValid : Fld := ⟨0x100, 63, 63⟩
abbrev dirEntryFast : Fld := ⟨0x100, 62, 62⟩
abbrev dirEntryId : Fld := ⟨0x100, 61, 0⟩

/-! The HLK page. -/
abbrev hlkCtrlFenceB : Fld := ⟨0x010, 5, 5⟩
abbrev hlkCtrlFenceA : Fld := ⟨0x010, 4, 4⟩
abbrev hlkCtrlSwap : Fld := ⟨0x010, 3, 3⟩
abbrev hlkCtrlRetrainB : Fld := ⟨0x010, 2, 2⟩
abbrev hlkCtrlRetrainA : Fld := ⟨0x010, 1, 1⟩
abbrev hlkStatVersion : Fld := ⟨0x018, 19, 16⟩
abbrev hlkStatDowns : Fld := ⟨0x018, 15, 12⟩
abbrev hlkStatStateB : Fld := ⟨0x018, 11, 8⟩
abbrev hlkStatStateA : Fld := ⟨0x018, 7, 4⟩
abbrev hlkStatActive : Fld := ⟨0x018, 0, 0⟩
abbrev hlkErrStatBadSeq : Fld := ⟨0x020, 8, 8⟩
abbrev hlkErrStatCredit : Fld := ⟨0x020, 7, 7⟩
abbrev hlkErrStatFenced : Fld := ⟨0x020, 6, 6⟩
abbrev hlkErrStatDirChange : Fld := ⟨0x020, 5, 5⟩
abbrev hlkErrStatVerFail : Fld := ⟨0x020, 4, 4⟩
abbrev hlkErrStatTrainFail : Fld := ⟨0x020, 3, 3⟩
abbrev hlkErrStatFailover : Fld := ⟨0x020, 2, 2⟩
abbrev hlkErrStatDownB : Fld := ⟨0x020, 1, 1⟩
abbrev hlkErrStatDownA : Fld := ⟨0x020, 0, 0⟩
abbrev hlkCfgCring : Fld := ⟨0x100, 16, 0⟩
abbrev hlkCntFcrcBad : Fld := ⟨0x108, 63, 40⟩
abbrev hlkCntBaditem : Fld := ⟨0x108, 39, 32⟩
abbrev hlkCntDupSubmit : Fld := ⟨0x108, 31, 16⟩
abbrev hlkCntOpidReplay : Fld := ⟨0x108, 15, 0⟩
abbrev hlkCsentCsent : Fld := ⟨0x110, 63, 0⟩

/-! The ISL page. -/
abbrev islClkFreqMhz : Fld := ⟨0x100, 31, 16⟩
abbrev islClkNomMhz : Fld := ⟨0x100, 15, 0⟩
abbrev islStretchEvents : Fld := ⟨0x108, 63, 32⟩
abbrev islStretchStretchNs : Fld := ⟨0x108, 31, 0⟩
abbrev islTempTemp : Fld := ⟨0x110, 15, 0⟩
abbrev islTimeNs : Fld := ⟨0x118, 63, 0⟩

/-! The SQ page. -/
abbrev sqStatOutstanding : Fld := ⟨0x018, 12, 0⟩
abbrev sqErrStatBadSeq : Fld := ⟨0x020, 3, 3⟩
abbrev sqErrStatUnbound : Fld := ⟨0x020, 2, 2⟩
abbrev sqErrStatFull : Fld := ⟨0x020, 1, 1⟩
abbrev sqErrStatGap : Fld := ⟨0x020, 0, 0⟩
abbrev sqCfgValid : Fld := ⟨0x100, 63, 63⟩
abbrev sqCfgCtx : Fld := ⟨0x100, 55, 48⟩
abbrev sqCfgDepth : Fld := ⟨0x100, 12, 0⟩
abbrev sqNextSeq : Fld := ⟨0x108, 63, 0⟩
abbrev sqDoneSeq : Fld := ⟨0x110, 63, 0⟩
abbrev sqWmarkW : Fld := ⟨0x118, 63, 0⟩

/-! The ATN page. -/
abbrev atnTopCtx : Fld := ⟨0x100, 63, 56⟩
abbrev atnTopSev : Fld := ⟨0x100, 50, 48⟩
abbrev atnTopClass : Fld := ⟨0x100, 47, 44⟩
abbrev atnTopIndex : Fld := ⟨0x100, 10, 0⟩
abbrev atnCtxCtxBits : Fld := ⟨0x200, 63, 0⟩
abbrev atnRaisedPageBits : Fld := ⟨0x300, 63, 0⟩

/-! The PWR page. -/
abbrev pwrStatCal : Fld := ⟨0x018, 16, 16⟩
abbrev pwrStatTjcap : Fld := ⟨0x018, 13, 8⟩
abbrev pwrStatCap : Fld := ⟨0x018, 5, 0⟩
abbrev pwrErrStatTjHot : Fld := ⟨0x020, 2, 2⟩
abbrev pwrErrStatBmLimit : Fld := ⟨0x020, 1, 1⟩
abbrev pwrErrStatLimited : Fld := ⟨0x020, 0, 0⟩
abbrev pwrLimitPeak : Fld := ⟨0x100, 47, 32⟩
abbrev pwrLimitSust : Fld := ⟨0x100, 31, 16⟩
abbrev pwrLimitGuard : Fld := ⟨0x100, 7, 0⟩
abbrev pwrBmlimLimit : Fld := ⟨0x108, 15, 0⟩
abbrev pwrEstP : Fld := ⟨0x110, 47, 32⟩
abbrev pwrEstA1 : Fld := ⟨0x110, 31, 16⟩
abbrev pwrEstAs : Fld := ⟨0x110, 15, 0⟩
abbrev pwrWcfgCal : Fld := ⟨0x118, 0, 0⟩
abbrev pwrWPj : Fld := ⟨0x200, 31, 0⟩
abbrev pwrStaticD3 : Fld := ⟨0x280, 63, 48⟩
abbrev pwrStaticD2 : Fld := ⟨0x280, 47, 32⟩
abbrev pwrStaticD1 : Fld := ⟨0x280, 31, 16⟩
abbrev pwrStaticD0 : Fld := ⟨0x280, 15, 0⟩
abbrev pwrCaplogLimitedUs : Fld := ⟨0x300, 63, 32⟩
abbrev pwrCaplogEpisodes : Fld := ⟨0x300, 31, 0⟩
abbrev pwrTjThr : Fld := ⟨0x308, 15, 0⟩

/-! The DRP page. -/
abbrev drpStatWarn : Fld := ⟨0x018, 34, 0⟩
abbrev drpErrStatReset : Fld := ⟨0x020, 1, 1⟩
abbrev drpErrStatWarn : Fld := ⟨0x020, 0, 0⟩
abbrev drpCntWarns : Fld := ⟨0x100, 63, 32⟩
abbrev drpCntWarnNs : Fld := ⟨0x100, 31, 0⟩
abbrev drpLastIsland : Fld := ⟨0x108, 55, 48⟩
abbrev drpLastMv : Fld := ⟨0x108, 47, 32⟩
abbrev drpLastNs : Fld := ⟨0x108, 31, 0⟩
abbrev drpCfgHold : Fld := ⟨0x110, 15, 0⟩

/-! The MXE page. -/
abbrev mxeCtrlFence : Fld := ⟨0x010, 15, 15⟩
abbrev mxeCtrlReadmit : Fld := ⟨0x010, 14, 14⟩
abbrev mxeCtrlSelftest : Fld := ⟨0x010, 13, 13⟩
abbrev mxeCtrlIssueCap : Fld := ⟨0x010, 5, 0⟩
abbrev mxeStatStrikes : Fld := ⟨0x018, 25, 24⟩
abbrev mxeStatCapEff : Fld := ⟨0x018, 21, 16⟩
abbrev mxeStatFtqUsed : Fld := ⟨0x018, 11, 8⟩
abbrev mxeStatState : Fld := ⟨0x018, 3, 0⟩
abbrev mxeErrStatBadSeq : Fld := ⟨0x020, 4, 4⟩
abbrev mxeErrStatStrikeFence : Fld := ⟨0x020, 3, 3⟩
abbrev mxeErrStatCheckFail : Fld := ⟨0x020, 2, 2⟩
abbrev mxeErrStatCheckLate : Fld := ⟨0x020, 1, 1⟩
abbrev mxeErrStatMismatch : Fld := ⟨0x020, 0, 0⟩
abbrev mxeChkKbChecked : Fld := ⟨0x100, 63, 32⟩
abbrev mxeChkMismatch : Fld := ⟨0x100, 31, 16⟩
abbrev mxeChkChkSkip : Fld := ⟨0x100, 15, 0⟩
abbrev mxePerfKstepK : Fld := ⟨0x108, 63, 32⟩
abbrev mxePerfLongKb : Fld := ⟨0x108, 31, 0⟩
abbrev mxeStrikeTimeNs : Fld := ⟨0x110, 63, 0⟩
abbrev mxeStrikeSigFmta : Fld := ⟨0x118, 63, 60⟩
abbrev mxeStrikeSigFmtb : Fld := ⟨0x118, 59, 56⟩
abbrev mxeStrikeSigMulti : Fld := ⟨0x118, 55, 55⟩
abbrev mxeStrikeSigKbi : Fld := ⟨0x118, 54, 48⟩
abbrev mxeStrikeSigRow : Fld := ⟨0x118, 47, 40⟩
abbrev mxeStrikeSigCol : Fld := ⟨0x118, 39, 32⟩
abbrev mxeStrikeSigCrc : Fld := ⟨0x118, 31, 0⟩

/-! The MXG page. -/
abbrev mxgEarlyOkCtxBits : Fld := ⟨0x100, 63, 0⟩

/-! The VXE page. -/
abbrev vxeCtrlFence : Fld := ⟨0x010, 15, 15⟩
abbrev vxeCtrlReadmit : Fld := ⟨0x010, 14, 14⟩
abbrev vxeCtrlSelftest : Fld := ⟨0x010, 13, 13⟩
abbrev vxeStatQueued : Fld := ⟨0x018, 12, 8⟩
abbrev vxeStatState : Fld := ⟨0x018, 3, 0⟩
abbrev vxeErrStatBadSeq : Fld := ⟨0x020, 3, 3⟩
abbrev vxeErrStatTagSkew : Fld := ⟨0x020, 2, 2⟩
abbrev vxeErrStatPoisoned : Fld := ⟨0x020, 1, 1⟩
abbrev vxeErrStatParity : Fld := ⟨0x020, 0, 0⟩
abbrev vxePerfElemK : Fld := ⟨0x100, 63, 32⟩
abbrev vxePerfChains : Fld := ⟨0x100, 31, 0⟩

/-! The CLU page. -/
abbrev cluStatIdle : Fld := ⟨0x018, 16, 16⟩
abbrev cluStatRingUsed : Fld := ⟨0x018, 8, 0⟩
abbrev cluErrStatIllegalInsn : Fld := ⟨0x020, 1, 1⟩
abbrev cluErrStatBadSeq : Fld := ⟨0x020, 0, 0⟩
abbrev cluCtxValid : Fld := ⟨0x100, 8, 8⟩
abbrev cluCtxCtx : Fld := ⟨0x100, 7, 0⟩
abbrev cluCoreRun : Fld := ⟨0x108, 6, 0⟩
abbrev cluEntryAddr : Fld := ⟨0x110, 31, 0⟩

/-! The SCL page. -/
abbrev sclDirValid : Fld := ⟨0x100, 32, 32⟩
abbrev sclDirBase : Fld := ⟨0x100, 31, 0⟩

/-! The HST page. -/
abbrev hstStatBusy : Fld := ⟨0x018, 16, 16⟩
abbrev hstStatDone : Fld := ⟨0x018, 15, 0⟩
abbrev hstErrStatBadSeq : Fld := ⟨0x020, 3, 3⟩
abbrev hstErrStatDigest : Fld := ⟨0x020, 2, 2⟩
abbrev hstErrStatDestRange : Fld := ⟨0x020, 1, 1⟩
abbrev hstErrStatDropped : Fld := ⟨0x020, 0, 0⟩
abbrev hstSnapAddr : Fld := ⟨0x100, 63, 22⟩
abbrev hstSnapOp : Fld := ⟨0x100, 9, 8⟩
abbrev hstSnapStream : Fld := ⟨0x100, 7, 0⟩
abbrev hstOwnValid : Fld := ⟨0x200, 8, 8⟩
abbrev hstOwnCtx : Fld := ⟨0x200, 7, 0⟩

/-! The CTR page. -/
abbrev ctrErrStatBadSeq : Fld := ⟨0x020, 1, 1⟩
abbrev ctrErrStatNormRange : Fld := ⟨0x020, 0, 0⟩
abbrev ctrSelCtx : Fld := ⟨0x100, 7, 0⟩
abbrev ctrClearClear : Fld := ⟨0x108, 0, 0⟩
abbrev ctrNormLayers : Fld := ⟨0x110, 63, 48⟩
abbrev ctrNormBase : Fld := ⟨0x110, 47, 12⟩
abbrev ctrNormValid : Fld := ⟨0x110, 0, 0⟩
abbrev ctrAddidxIdx : Fld := ⟨0x118, 5, 0⟩
abbrev ctrAddValue : Fld := ⟨0x120, 63, 0⟩
abbrev ctrDigestCrc : Fld := ⟨0x128, 63, 0⟩
abbrev ctrEvtCount : Fld := ⟨0x200, 63, 0⟩

/-! The MAP page. -/
abbrev mapStatQuiescing : Fld := ⟨0x018, 8, 8⟩
abbrev mapStatLastErr : Fld := ⟨0x018, 7, 0⟩
abbrev mapErrStatRefused : Fld := ⟨0x020, 1, 1⟩
abbrev mapErrStatBadSeq : Fld := ⟨0x020, 0, 0⟩
abbrev mapInsvcLp : Fld := ⟨0x100, 63, 32⟩
abbrev mapInsvcMs : Fld := ⟨0x100, 19, 0⟩
abbrev mapRgnBaseLbase : Fld := ⟨0x200, 47, 16⟩
abbrev mapRgnSizeSize : Fld := ⟨0x208, 47, 16⟩
abbrev mapRgnCfgValid : Fld := ⟨0x210, 63, 63⟩
abbrev mapRgnCfgSync : Fld := ⟨0x210, 62, 62⟩
abbrev mapRgnCfgTier : Fld := ⟨0x210, 61, 61⟩
abbrev mapRgnCfgMode : Fld := ⟨0x210, 60, 59⟩
abbrev mapRgnCfgTarget : Fld := ⟨0x210, 58, 54⟩
abbrev mapRgnCfgPart : Fld := ⟨0x210, 53, 50⟩
abbrev mapRgnCfgDegraded : Fld := ⟨0x210, 49, 49⟩
abbrev mapRgnCfgNmem : Fld := ⟨0x210, 37, 32⟩
abbrev mapRgnCfgMembers : Fld := ⟨0x210, 31, 0⟩
abbrev mapRgnSliceSlice : Fld := ⟨0x218, 37, 16⟩
abbrev mapDsownOwner : Fld := ⟨0xA00, 63, 0⟩

/-! The TOLL page. -/
abbrev tollBktEn : Fld := ⟨0x100, 63, 63⟩
abbrev tollBktDepth : Fld := ⟨0x100, 39, 16⟩
abbrev tollBktRate : Fld := ⟨0x100, 15, 0⟩
abbrev tollLevelLevel : Fld := ⟨0x300, 23, 0⟩
abbrev tollHeldNs : Fld := ⟨0x500, 63, 0⟩

/-! The MSC page. -/
abbrev mscTempValid : Fld := ⟨0x100, 19, 19⟩
abbrev mscTempLevel : Fld := ⟨0x100, 18, 16⟩
abbrev mscTempTemp : Fld := ⟨0x100, 15, 0⟩
abbrev mscThrThresh : Fld := ⟨0x108, 15, 0⟩
abbrev mscEccCe : Fld := ⟨0x110, 63, 32⟩
abbrev mscEccUe : Fld := ⟨0x110, 31, 16⟩
abbrev mscEccPoisonWr : Fld := ⟨0x110, 15, 0⟩
abbrev mscFenceChan : Fld := ⟨0x118, 31, 0⟩

/-! The LPC page. -/
abbrev lpcTempTemp1 : Fld := ⟨0x100, 31, 16⟩
abbrev lpcTempTemp0 : Fld := ⟨0x100, 15, 0⟩
abbrev lpcEccCe : Fld := ⟨0x110, 63, 32⟩
abbrev lpcEccUe : Fld := ⟨0x110, 31, 16⟩
abbrev lpcEccPoisonWr : Fld := ⟨0x110, 15, 0⟩
abbrev lpcFenceLp1 : Fld := ⟨0x118, 1, 1⟩
abbrev lpcFenceLp0 : Fld := ⟨0x118, 0, 0⟩

/-! The UU page. -/
abbrev uuCtrlFence : Fld := ⟨0x010, 15, 15⟩
abbrev uuCtrlReadmit : Fld := ⟨0x010, 14, 14⟩
abbrev uuCtrlSelftest : Fld := ⟨0x010, 13, 13⟩
abbrev uuCtrlRateCap : Fld := ⟨0x010, 5, 0⟩
abbrev uuStatPartner : Fld := ⟨0x018, 39, 32⟩
abbrev uuStatCmds : Fld := ⟨0x018, 15, 8⟩
abbrev uuStatState : Fld := ⟨0x018, 3, 0⟩
abbrev uuErrStatBadSeq : Fld := ⟨0x020, 4, 4⟩
abbrev uuErrStatIllegalInsn : Fld := ⟨0x020, 3, 3⟩
abbrev uuErrStatPoisoned : Fld := ⟨0x020, 2, 2⟩
abbrev uuErrStatReplay : Fld := ⟨0x020, 1, 1⟩
abbrev uuErrStatParity : Fld := ⟨0x020, 0, 0⟩
abbrev uuPerfChunks : Fld := ⟨0x100, 63, 32⟩
abbrev uuPerfSkipped : Fld := ⟨0x100, 31, 0⟩

/-! The UPD page. -/
abbrev updStatInprog : Fld := ⟨0x018, 23, 16⟩
abbrev updStatQueued : Fld := ⟨0x018, 8, 0⟩
abbrev updErrStatCommitReplay : Fld := ⟨0x020, 2, 2⟩
abbrev updErrStatStepStale : Fld := ⟨0x020, 1, 1⟩
abbrev updErrStatVersionBase : Fld := ⟨0x020, 0, 0⟩
abbrev updPerfCommits : Fld := ⟨0x100, 63, 32⟩
abbrev updPerfAbandoned : Fld := ⟨0x100, 31, 0⟩

/-! The STG page. -/
abbrev stgErrStatVtblDegraded : Fld := ⟨0x020, 3, 3⟩
abbrev stgErrStatRefUnderflow : Fld := ⟨0x020, 2, 2⟩
abbrev stgErrStatTaintFull : Fld := ⟨0x020, 1, 1⟩
abbrev stgErrStatBadSeq : Fld := ⟨0x020, 0, 0⟩
abbrev stgStageValid : Fld := ⟨0x100, 63, 63⟩
abbrev stgStageCtx : Fld := ⟨0x100, 55, 48⟩
abbrev stgStageClusters : Fld := ⟨0x100, 47, 0⟩
abbrev stgVtblALast : Fld := ⟨0x180, 63, 48⟩
abbrev stgVtblABase : Fld := ⟨0x180, 47, 7⟩
abbrev stgVtblAValid : Fld := ⟨0x180, 0, 0⟩
abbrev stgVtblBLast : Fld := ⟨0x188, 63, 48⟩
abbrev stgVtblBBase : Fld := ⟨0x188, 47, 7⟩
abbrev stgVtblBValid : Fld := ⟨0x188, 0, 0⟩
abbrev stgVcmdOp : Fld := ⟨0x190, 17, 16⟩
abbrev stgVcmdVte : Fld := ⟨0x190, 15, 0⟩
abbrev stgVstatBusy : Fld := ⟨0x198, 63, 63⟩
abbrev stgVstatResult : Fld := ⟨0x198, 23, 16⟩
abbrev stgVstatVte : Fld := ⟨0x198, 15, 0⟩
abbrev stgUseTaints : Fld := ⟨0x1A0, 14, 8⟩
abbrev stgUseFlight : Fld := ⟨0x1A0, 6, 0⟩
abbrev stgTclrCtx : Fld := ⟨0x1A8, 7, 0⟩
abbrev stgFcapCap : Fld := ⟨0x200, 6, 0⟩

/-! The SLQ page. -/
abbrev slqErrStatPool : Fld := ⟨0x020, 4, 4⟩
abbrev slqErrStatRefused : Fld := ⟨0x020, 3, 3⟩
abbrev slqErrStatStall : Fld := ⟨0x020, 2, 2⟩
abbrev slqErrStatGap : Fld := ⟨0x020, 1, 1⟩
abbrev slqErrStatDup : Fld := ⟨0x020, 0, 0⟩
abbrev slqIncfgValid : Fld := ⟨0x100, 63, 63⟩
abbrev slqIncfgState : Fld := ⟨0x100, 62, 61⟩
abbrev slqIncfgEarlyOk : Fld := ⟨0x100, 60, 60⟩
abbrev slqIncfgStage : Fld := ⟨0x100, 59, 56⟩
abbrev slqIncfgDepth : Fld := ⟨0x100, 54, 48⟩
abbrev slqIncfgSrcdev : Fld := ⟨0x100, 47, 32⟩
abbrev slqIncfgSrcout : Fld := ⟨0x100, 31, 24⟩
abbrev slqIncfgStride : Fld := ⟨0x100, 15, 0⟩
abbrev slqInbufBase : Fld := ⟨0x108, 47, 12⟩
abbrev slqOutcfgValid : Fld := ⟨0x500, 63, 63⟩
abbrev slqOutcfgState : Fld := ⟨0x500, 62, 60⟩
abbrev slqOutcfgEarly : Fld := ⟨0x500, 59, 59⟩
abbrev slqOutcfgStage : Fld := ⟨0x500, 58, 55⟩
abbrev slqOutcfgDepth : Fld := ⟨0x500, 54, 48⟩
abbrev slqOutcfgResend : Fld := ⟨0x500, 31, 16⟩
abbrev slqOutdstDev : Fld := ⟨0x508, 63, 48⟩
abbrev slqOutdstQn : Fld := ⟨0x508, 7, 0⟩
abbrev slqInseqExpected : Fld := ⟨0x900, 63, 32⟩
abbrev slqInseqConsumed : Fld := ⟨0x900, 31, 0⟩
abbrev slqOutseqSent : Fld := ⟨0xB00, 63, 32⟩
abbrev slqOutseqConsumed : Fld := ⟨0xB00, 31, 0⟩

/-! The SYN page. -/
abbrev synStatMarking : Fld := ⟨0x018, 16, 16⟩
abbrev synStatClaims : Fld := ⟨0x018, 8, 0⟩
abbrev synErrStatUnderflow : Fld := ⟨0x020, 2, 2⟩
abbrev synErrStatClaimFull : Fld := ⟨0x020, 1, 1⟩
abbrev synErrStatBadSeq : Fld := ⟨0x020, 0, 0⟩
abbrev synLoseGo : Fld := ⟨0x100, 8, 8⟩
abbrev synLoseCtx : Fld := ⟨0x100, 7, 0⟩
abbrev synUflogIssuer : Fld := ⟨0x108, 63, 56⟩
abbrev synUflogOwner : Fld := ⟨0x108, 55, 48⟩
abbrev synUflogAddr : Fld := ⟨0x108, 47, 0⟩
abbrev synClselIdx : Fld := ⟨0x110, 7, 0⟩
abbrev synClbaseValid : Fld := ⟨0x118, 63, 63⟩
abbrev synClbaseLost : Fld := ⟨0x118, 62, 62⟩
abbrev synClbaseCtx : Fld := ⟨0x118, 55, 48⟩
abbrev synClbaseBase : Fld := ⟨0x118, 47, 0⟩
abbrev synCllenLen : Fld := ⟨0x120, 20, 0⟩

/-! The BAR page. -/
abbrev barStatEpisode : Fld := ⟨0x018, 63, 32⟩
abbrev barStatState : Fld := ⟨0x018, 25, 24⟩
abbrev barStatDropped : Fld := ⟨0x018, 23, 16⟩
abbrev barStatArrived : Fld := ⟨0x018, 8, 0⟩
abbrev barErrStatBroken : Fld := ⟨0x020, 1, 1⟩
abbrev barErrStatBadSeq : Fld := ⟨0x020, 0, 0⟩
abbrev barCfgValid : Fld := ⟨0x100, 63, 63⟩
abbrev barCfgCtx : Fld := ⟨0x100, 55, 48⟩
abbrev barMaskSlots : Fld := ⟨0x108, 63, 0⟩
abbrev barArrSlots : Fld := ⟨0x140, 63, 0⟩
abbrev barCauseReason : Fld := ⟨0x170, 11, 9⟩
abbrev barCauseSlot : Fld := ⟨0x170, 8, 0⟩

/-! The LNK page. -/
abbrev lnkCtrlFence : Fld := ⟨0x010, 15, 15⟩
abbrev lnkCtrlReadmit : Fld := ⟨0x010, 14, 14⟩
abbrev lnkCtrlRetrain : Fld := ⟨0x010, 13, 13⟩
abbrev lnkCtrlAdmit : Fld := ⟨0x010, 12, 12⟩
abbrev lnkCtrlPark : Fld := ⟨0x010, 11, 11⟩
abbrev lnkCtrlEn : Fld := ⟨0x010, 0, 0⟩
abbrev lnkStatPend : Fld := ⟨0x018, 15, 14⟩
abbrev lnkStatWidth : Fld := ⟨0x018, 11, 8⟩
abbrev lnkStatVersion : Fld := ⟨0x018, 7, 4⟩
abbrev lnkStatState : Fld := ⟨0x018, 3, 0⟩
abbrev lnkErrStatBadSeq : Fld := ⟨0x020, 6, 6⟩
abbrev lnkErrStatVerFail : Fld := ⟨0x020, 5, 5⟩
abbrev lnkErrStatTrainFail : Fld := ⟨0x020, 4, 4⟩
abbrev lnkErrStatFenced : Fld := ⟨0x020, 3, 3⟩
abbrev lnkErrStatDown : Fld := ⟨0x020, 2, 2⟩
abbrev lnkErrStatStorm : Fld := ⟨0x020, 1, 1⟩
abbrev lnkErrStatFormat : Fld := ⟨0x020, 0, 0⟩
abbrev lnkCfgRingpeer : Fld := ⟨0x100, 4, 0⟩
abbrev lnkVcalloc0Vc3 : Fld := ⟨0x108, 63, 48⟩
abbrev lnkVcalloc0Vc2 : Fld := ⟨0x108, 47, 32⟩
abbrev lnkVcalloc0Vc1 : Fld := ⟨0x108, 31, 16⟩
abbrev lnkVcalloc0Vc0 : Fld := ⟨0x108, 15, 0⟩
abbrev lnkVcalloc1Vc7 : Fld := ⟨0x110, 63, 48⟩
abbrev lnkVcalloc1Vc6 : Fld := ⟨0x110, 47, 32⟩
abbrev lnkVcalloc1Vc5 : Fld := ⟨0x110, 31, 16⟩
abbrev lnkVcalloc1Vc4 : Fld := ⟨0x110, 15, 0⟩
abbrev lnkCredit0Vc : Fld := ⟨0x118, 63, 0⟩
abbrev lnkCredit1Vc : Fld := ⟨0x120, 63, 0⟩
abbrev lnkErrcntFecCorr : Fld := ⟨0x128, 63, 32⟩
abbrev lnkErrcntFecUnc : Fld := ⟨0x128, 31, 16⟩
abbrev lnkErrcntResync : Fld := ⟨0x128, 15, 0⟩
abbrev lnkDropFormat : Fld := ⟨0x130, 63, 32⟩
abbrev lnkDropFlitsLost : Fld := ⟨0x130, 31, 0⟩
abbrev lnkTrafficTx : Fld := ⟨0x138, 63, 32⟩
abbrev lnkTrafficRx : Fld := ⟨0x138, 31, 0⟩
abbrev lnkDownsCount : Fld := ⟨0x140, 3, 0⟩

/-! The RTE page. -/
abbrev rteStatV1state : Fld := ⟨0x018, 10, 8⟩
abbrev rteStatV0state : Fld := ⟨0x018, 6, 4⟩
abbrev rteStatInj : Fld := ⟨0x018, 0, 0⟩
abbrev rteErrStatLoadDigest : Fld := ⟨0x020, 2, 2⟩
abbrev rteErrStatNoRoute : Fld := ⟨0x020, 1, 1⟩
abbrev rteErrStatBadSeq : Fld := ⟨0x020, 0, 0⟩
abbrev rteCfgSelf : Fld := ⟨0x100, 63, 48⟩
abbrev rteCfgMode : Fld := ⟨0x100, 40, 40⟩
abbrev rteCfgTtl : Fld := ⟨0x100, 37, 32⟩
abbrev rteTimersReqTmo : Fld := ⟨0x108, 63, 32⟩
abbrev rteTimersStale : Fld := ⟨0x108, 15, 0⟩
abbrev rteLoadAddr : Fld := ⟨0x110, 63, 32⟩
abbrev rteLoadVer : Fld := ⟨0x110, 1, 1⟩
abbrev rteLoadGo : Fld := ⟨0x110, 0, 0⟩
abbrev rteFlipGo : Fld := ⟨0x118, 0, 0⟩
abbrev rteSinceNs : Fld := ⟨0x120, 63, 0⟩
abbrev rteDropaTtl : Fld := ⟨0x128, 63, 48⟩
abbrev rteDropaStale : Fld := ⟨0x128, 47, 32⟩
abbrev rteDropaNoroute : Fld := ⟨0x128, 31, 16⟩
abbrev rteDropaPort : Fld := ⟨0x128, 15, 0⟩
abbrev rteDropbEpoch : Fld := ⟨0x130, 63, 48⟩
abbrev rteDropbVer : Fld := ⟨0x130, 47, 32⟩
abbrev rteDropbRpl : Fld := ⟨0x130, 31, 16⟩
abbrev rteTmoCount : Fld := ⟨0x138, 31, 0⟩
abbrev rteTselVer : Fld := ⟨0x140, 16, 16⟩
abbrev rteTselDst : Fld := ⟨0x140, 15, 0⟩
abbrev rteTentEntry : Fld := ⟨0x148, 63, 0⟩

/-! The DSC page. -/
abbrev dscStatDev : Fld := ⟨0x018, 63, 48⟩
abbrev dscStatIdv : Fld := ⟨0x018, 47, 47⟩
abbrev dscStatSource : Fld := ⟨0x018, 46, 44⟩
abbrev dscStatPos : Fld := ⟨0x018, 2, 0⟩
abbrev dscErrStatFabricMoved : Fld := ⟨0x020, 3, 3⟩
abbrev dscErrStatIdChange : Fld := ⟨0x020, 2, 2⟩
abbrev dscErrStatWrong : Fld := ⟨0x020, 1, 1⟩
abbrev dscErrStatLocConflict : Fld := ⟨0x020, 0, 0⟩
abbrev dscUidUid : Fld := ⟨0x100, 63, 0⟩
abbrev dscFabricFabric : Fld := ⟨0x108, 63, 0⟩
abbrev dscIdDev : Fld := ⟨0x110, 63, 48⟩
abbrev dscIdForce : Fld := ⟨0x110, 0, 0⟩
abbrev dscBaseDev : Fld := ⟨0x118, 63, 48⟩
abbrev dscPeerResult : Fld := ⟨0x200, 63, 61⟩
abbrev dscPeerSwitch : Fld := ⟨0x200, 60, 60⟩
abbrev dscPeerPort : Fld := ⟨0x200, 55, 48⟩
abbrev dscPeerDev : Fld := ⟨0x200, 47, 32⟩
abbrev dscPeerIdv : Fld := ⟨0x200, 31, 31⟩
abbrev dscPeerAge : Fld := ⟨0x200, 15, 0⟩
abbrev dscPuidUid : Fld := ⟨0x300, 63, 0⟩
abbrev dscExpValid : Fld := ⟨0x400, 63, 63⟩
abbrev dscExpSwitch : Fld := ⟨0x400, 62, 62⟩
abbrev dscExpPort : Fld := ⟨0x400, 55, 48⟩
abbrev dscExpDev : Fld := ⟨0x400, 47, 32⟩

/-! The RWIN page. -/
abbrev rwinErrStatBadSeq : Fld := ⟨0x020, 0, 0⟩
abbrev rwinDenyCount : Fld := ⟨0x100, 31, 0⟩
abbrev rwinSrcValid : Fld := ⟨0x200, 63, 63⟩
abbrev rwinSrcRights : Fld := ⟨0x200, 62, 59⟩
abbrev rwinSrcPart : Fld := ⟨0x200, 55, 52⟩
abbrev rwinSrcCtx : Fld := ⟨0x200, 47, 40⟩
abbrev rwinSrcSrchi : Fld := ⟨0x200, 31, 16⟩
abbrev rwinSrcSrclo : Fld := ⟨0x200, 15, 0⟩
abbrev rwinBaseLbase : Fld := ⟨0x208, 47, 12⟩
abbrev rwinSizeSize : Fld := ⟨0x210, 47, 12⟩

/-! The CRR page. -/
abbrev crrCtrlFence : Fld := ⟨0x010, 15, 15⟩
abbrev crrCtrlReadmit : Fld := ⟨0x010, 14, 14⟩
abbrev crrCtrlSelftest : Fld := ⟨0x010, 13, 13⟩
abbrev crrStatIntake : Fld := ⟨0x018, 47, 32⟩
abbrev crrStatGroups : Fld := ⟨0x018, 23, 16⟩
abbrev crrStatRunning : Fld := ⟨0x018, 11, 8⟩
abbrev crrStatState : Fld := ⟨0x018, 3, 0⟩
abbrev crrErrStatBadSeq : Fld := ⟨0x020, 4, 4⟩
abbrev crrErrStatNogroup : Fld := ⟨0x020, 3, 3⟩
abbrev crrErrStatGap : Fld := ⟨0x020, 2, 2⟩
abbrev crrErrStatRetryFail : Fld := ⟨0x020, 1, 1⟩
abbrev crrErrStatNobuf : Fld := ⟨0x020, 0, 0⟩
abbrev crrCfgRetry : Fld := ⟨0x100, 7, 0⟩
abbrev crrCntDup : Fld := ⟨0x108, 63, 32⟩
abbrev crrCntReissue : Fld := ⟨0x108, 31, 0⟩
abbrev crrLselCtx : Fld := ⟨0x110, 7, 0⟩
abbrev crrLepOldest : Fld := ⟨0x118, 63, 48⟩
abbrev crrLepActive : Fld := ⟨0x118, 15, 0⟩

/-! The EVL page. -/
abbrev evlErrStatOverflow : Fld := ⟨0x020, 0, 0⟩
abbrev evlPtrWr : Fld := ⟨0x100, 63, 32⟩
abbrev evlPtrRd : Fld := ⟨0x100, 31, 0⟩
abbrev evlRecWord : Fld := ⟨0x108, 63, 0⟩
abbrev evlLostCount : Fld := ⟨0x128, 31, 0⟩

/-! The RCV page. -/
abbrev rcvStatLastdom : Fld := ⟨0x018, 7, 4⟩
abbrev rcvStatPhase : Fld := ⟨0x018, 3, 0⟩
abbrev rcvErrStatBadSeq : Fld := ⟨0x020, 4, 4⟩
abbrev rcvErrStatOosSubmit : Fld := ⟨0x020, 3, 3⟩
abbrev rcvErrStatResetFail : Fld := ⟨0x020, 2, 2⟩
abbrev rcvErrStatTaintBackstop : Fld := ⟨0x020, 1, 1⟩
abbrev rcvErrStatEscalated : Fld := ⟨0x020, 0, 0⟩
abbrev rcvCfgScope : Fld := ⟨0x100, 0, 0⟩
abbrev rcvAbortFabric : Fld := ⟨0x108, 9, 9⟩
abbrev rcvAbortGo : Fld := ⟨0x108, 8, 8⟩
abbrev rcvAbortCtx : Fld := ⟨0x108, 7, 0⟩
abbrev rcvAbstatBusy : Fld := ⟨0x110, 63, 63⟩
abbrev rcvAbstatCtx : Fld := ⟨0x110, 55, 48⟩
abbrev rcvAbstatCause : Fld := ⟨0x110, 43, 40⟩
abbrev rcvAbstatDropped : Fld := ⟨0x110, 39, 32⟩
abbrev rcvAbstatDone : Fld := ⟨0x110, 31, 0⟩
abbrev rcvResetDomain : Fld := ⟨0x118, 63, 61⟩
abbrev rcvResetDie : Fld := ⟨0x118, 57, 56⟩
abbrev rcvResetBlock : Fld := ⟨0x118, 53, 48⟩
abbrev rcvResetInst : Fld := ⟨0x118, 45, 40⟩
abbrev rcvResetGo : Fld := ⟨0x118, 0, 0⟩
abbrev rcvOosLatched : Fld := ⟨0x120, 63, 63⟩
abbrev rcvOosEvseq : Fld := ⟨0x120, 31, 0⟩
abbrev rcvOosackEvseq : Fld := ⟨0x128, 31, 0⟩
abbrev rcvJobselCtx : Fld := ⟨0x130, 7, 0⟩
abbrev rcvJobidJobid : Fld := ⟨0x138, 63, 0⟩
abbrev rcvJobgenGen : Fld := ⟨0x140, 31, 0⟩
abbrev rcvWdlim0Core : Fld := ⟨0x148, 63, 48⟩
abbrev rcvWdlim0Porter : Fld := ⟨0x148, 47, 32⟩
abbrev rcvWdlim0Vxe : Fld := ⟨0x148, 31, 16⟩
abbrev rcvWdlim0Mxe : Fld := ⟨0x148, 15, 0⟩
abbrev rcvWdlim1Qstall : Fld := ⟨0x150, 63, 48⟩
abbrev rcvWdlim1Service : Fld := ⟨0x150, 47, 32⟩
abbrev rcvWdlim1Courier : Fld := ⟨0x150, 31, 16⟩
abbrev rcvWdlim1Uu : Fld := ⟨0x150, 15, 0⟩
abbrev rcvDumpptrLen : Fld := ⟨0x158, 63, 32⟩
abbrev rcvDumpptrOffset : Fld := ⟨0x158, 31, 0⟩
abbrev rcvDumpdataData : Fld := ⟨0x160, 63, 0⟩

/-! The LDG page. -/
abbrev ldgStatInflight : Fld := ⟨0x018, 6, 0⟩
abbrev ldgErrStatMirrorFail : Fld := ⟨0x020, 2, 2⟩
abbrev ldgErrStatStepStale : Fld := ⟨0x020, 1, 1⟩
abbrev ldgErrStatBadSeq : Fld := ⟨0x020, 0, 0⟩
abbrev ldgLselCtx : Fld := ⟨0x100, 7, 0⟩
abbrev ldgBaseBase : Fld := ⟨0x108, 47, 12⟩
abbrev ldgGeomValid : Fld := ⟨0x110, 63, 63⟩
abbrev ldgGeomSlotsz : Fld := ⟨0x110, 47, 32⟩
abbrev ldgGeomNrec : Fld := ⟨0x110, 15, 0⟩
abbrev ldgMirrorMdev : Fld := ⟨0x118, 63, 48⟩
abbrev ldgMirrorMaddr : Fld := ⟨0x118, 47, 12⟩
abbrev ldgMirrorMen : Fld := ⟨0x118, 0, 0⟩
abbrev ldgLastStep : Fld := ⟨0x120, 63, 0⟩
abbrev ldgSecuredStep : Fld := ⟨0x128, 63, 0⟩
abbrev ldgCkcfgPriorMtbf : Fld := ⟨0x130, 63, 32⟩
abbrev ldgCkcfgPriorN : Fld := ⟨0x130, 31, 24⟩
abbrev ldgCkcfgCostprior : Fld := ⟨0x130, 23, 0⟩
abbrev ldgCkmarkOp : Fld := ⟨0x138, 1, 0⟩
abbrev ldgCkrunRun : Fld := ⟨0x140, 0, 0⟩
abbrev ldgCkobsF : Fld := ⟨0x148, 63, 32⟩
abbrev ldgCkobsTrun : Fld := ⟨0x148, 31, 0⟩
abbrev ldgCkcostN : Fld := ⟨0x150, 59, 56⟩
abbrev ldgCkcostC : Fld := ⟨0x150, 31, 0⟩
abbrev ldgCkintMtbf : Fld := ⟨0x158, 63, 32⟩
abbrev ldgCkintInterval : Fld := ⟨0x158, 31, 0⟩

/-! The SST page. -/
abbrev sstStatCompacts : Fld := ⟨0x018, 47, 32⟩
abbrev sstStatActive : Fld := ⟨0x018, 4, 4⟩
abbrev sstStatDevbOk : Fld := ⟨0x018, 1, 1⟩
abbrev sstStatDevaOk : Fld := ⟨0x018, 0, 0⟩
abbrev sstErrStatFormatted : Fld := ⟨0x020, 3, 3⟩
abbrev sstErrStatCrcSkip : Fld := ⟨0x020, 2, 2⟩
abbrev sstErrStatDevbFail : Fld := ⟨0x020, 1, 1⟩
abbrev sstErrStatDevaFail : Fld := ⟨0x020, 0, 0⟩
abbrev sstSeqNext : Fld := ⟨0x100, 63, 0⟩
abbrev sstUsedLive : Fld := ⟨0x108, 63, 32⟩
abbrev sstUsedWritten : Fld := ⟨0x108, 31, 0⟩
abbrev sstRselType : Fld := ⟨0x110, 63, 56⟩
abbrev sstRselN : Fld := ⟨0x110, 31, 0⟩
abbrev sstRdataData : Fld := ⟨0x118, 63, 0⟩

/-! The GEN page. -/
abbrev genKselCtx : Fld := ⟨0x100, 7, 0⟩
abbrev genKeyaKey : Fld := ⟨0x108, 63, 0⟩
abbrev genKeybKey : Fld := ⟨0x110, 63, 0⟩
abbrev genStepStep : Fld := ⟨0x200, 63, 0⟩

/-! The BOOT page. -/
abbrev bootStatSvnImg : Fld := ⟨0x018, 23, 16⟩
abbrev bootStatResult : Fld := ⟨0x018, 15, 8⟩
abbrev bootStatSource : Fld := ⟨0x018, 7, 4⟩
abbrev bootStatPhase : Fld := ⟨0x018, 3, 0⟩
abbrev bootErrStatKeptBad : Fld := ⟨0x020, 2, 2⟩
abbrev bootErrStatAuthFail : Fld := ⟨0x020, 1, 1⟩
abbrev bootErrStatBadSeq : Fld := ⟨0x020, 0, 0⟩
abbrev bootLoadctlEnd : Fld := ⟨0x100, 1, 1⟩
abbrev bootLoadctlBegin : Fld := ⟨0x100, 0, 0⟩
abbrev bootLoaddataData : Fld := ⟨0x108, 63, 0⟩
abbrev bootLoadptrBytes : Fld := ⟨0x110, 31, 0⟩
abbrev bootMeasFwmeas : Fld := ⟨0x120, 63, 0⟩

/-! The SEC page. -/
abbrev secStatSvnFuse : Fld := ⟨0x018, 47, 40⟩
abbrev secStatLifecycle : Fld := ⟨0x018, 39, 38⟩
abbrev secStatVkrev : Fld := ⟨0x018, 37, 36⟩
abbrev secStatIdready : Fld := ⟨0x018, 32, 32⟩
abbrev secStatLeafnext : Fld := ⟨0x018, 20, 0⟩
abbrev secErrStatIdtreeFail : Fld := ⟨0x020, 3, 3⟩
abbrev secErrStatLeafLow : Fld := ⟨0x020, 2, 2⟩
abbrev secErrStatFuseFail : Fld := ⟨0x020, 1, 1⟩
abbrev secErrStatBadSeq : Fld := ⟨0x020, 0, 0⟩
abbrev secNonceData : Fld := ⟨0x100, 63, 0⟩
abbrev secUserData : Fld := ⟨0x120, 63, 0⟩
abbrev secAcmdGo : Fld := ⟨0x140, 0, 0⟩
abbrev secAstatBusy : Fld := ⟨0x148, 63, 63⟩
abbrev secAstatLeaf : Fld := ⟨0x148, 51, 32⟩
abbrev secAstatResult : Fld := ⟨0x148, 7, 0⟩
abbrev secRdataData : Fld := ⟨0x158, 63, 0⟩
abbrev secFusecmdOp : Fld := ⟨0x160, 63, 62⟩
abbrev secFusecmdTarget : Fld := ⟨0x160, 7, 0⟩
abbrev secIdpkKey : Fld := ⟨0x180, 63, 0⟩

/-! The TST page. -/
abbrev tstErrStatToken : Fld := ⟨0x020, 1, 1⟩
abbrev tstErrStatBadSeq : Fld := ⟨0x020, 0, 0⟩
abbrev tstModeGo : Fld := ⟨0x100, 63, 63⟩
abbrev tstModeDies : Fld := ⟨0x100, 3, 0⟩
abbrev tstCfgBrMs : Fld := ⟨0x108, 15, 0⟩
abbrev tstChalChal : Fld := ⟨0x110, 63, 0⟩
abbrev tstTokenData : Fld := ⟨0x130, 63, 0⟩
abbrev tstRes0Done : Fld := ⟨0x138, 63, 63⟩
abbrev tstRes0Lbist : Fld := ⟨0x138, 34, 0⟩
abbrev tstRes1Mbist : Fld := ⟨0x140, 31, 31⟩
abbrev tstRes1Lpc : Fld := ⟨0x140, 27, 24⟩
abbrev tstRes1Link : Fld := ⟨0x140, 21, 16⟩
abbrev tstRes1Bridge : Fld := ⟨0x140, 9, 8⟩
abbrev tstRes1Stack : Fld := ⟨0x140, 4, 0⟩

end F

end Sys2Proof.Machine
end

