-- ==== Sys2Proof/Machine/KMap.lean ====
section
/-! DEFINITION. Sparse data by key in one canonical form: keys strictly rising, and no entry equal to what an unlisted key
reads as. Memory, register files and tables of the state are held this way, so that equal contents are equal data. -/

namespace Sys2Proof.Machine

/-- Key and value pairs (memory cells are Host.Cell in the same form). -/
abbrev KMap (α : Type) := List (Nat × α)

/-- The entry of a key, if it is listed. -/
def KMap.find {α : Type} : KMap α → Nat → Option α
  | [], _ => none
  | (a, v) :: t, k => if a = k then some v else KMap.find t k

/-- What a key reads as: its entry, or the default d of an unlisted key. -/
def KMap.get {α : Type} (d : α) (m : KMap α) (k : Nat) : α := (KMap.find m k).getD d

/-- The map without a key. -/
def KMap.erase {α : Type} : KMap α → Nat → KMap α
  | [], _ => []
  | (a, v) :: t, k => if a = k then KMap.erase t k else (a, v) :: KMap.erase t k

/-- The map with an entry put in front of the first greater key. -/
def KMap.insert {α : Type} : KMap α → Nat → α → KMap α
  | [], k, v => [(k, v)]
  | (a, w) :: t, k, v => if k < a then (k, v) :: (a, w) :: t else (a, w) :: KMap.insert t k v

/-- The map with a key set to a value; setting the default removes the entry. -/
def KMap.set {α : Type} [DecidableEq α] (d : α) (m : KMap α) (k : Nat) (v : α) : KMap α :=
  if v = d then KMap.erase m k else KMap.insert (KMap.erase m k) k v

/-- Every key of a map is above a bound, keys rise strictly, and no entry equals its default. -/
def KMap.wfFrom {α : Type} [DecidableEq α] (d : Nat → α) : Option Nat → KMap α → Bool
  | _, [] => true
  | b, (a, v) :: t => (match b with | none => true | some x => decide (x < a)) && !decide (v = d a) &&
      KMap.wfFrom d (some a) t

/-- The canonical form. -/
def KMap.wf {α : Type} [DecidableEq α] (d : Nat → α) (m : KMap α) : Bool := KMap.wfFrom d none m

end Sys2Proof.Machine
end

