-- ==== Sys2Proof/Machine/State.lean ====
section
/-! DEFINITION. The state of the package, as plain data: every register (one sparse map over the window addresses), every
queue, buffer, counter and memory the manual gives it, and the queue of commands that wait. INVENTORY.md lists each piece
with the rule that names it. -/

namespace Sys2Proof.Machine

/-! ## Package, survival store, events (01, 14, 15) -/

/-- A bridge (R21 to R23): consecutive failed replays of the flit in question, whether it is down, and the flits its sender
holds that are sent and not acknowledged, oldest first. -/
structure Bridge where
  flit : Nat
  replays : Nat
  down : Bool
  held : List Nat
  deriving DecidableEq, Repr

/-- A die's time base (R31, R32): the count of ns, and whether the reference is lost and the count runs free. -/
structure TimeBase where
  ns : Nat
  free : Bool
  deriving DecidableEq, Repr

/-- A record of the survival store (R446); free: its time stamp is marked free-running (R32; log 110). -/
structure SstRec where
  typ : Nat
  key : Nat
  seq : Nat
  time : Nat
  free : Bool
  payload : List W64
  crc : W64
  deriving DecidableEq, Repr

/-- A flash device (R445, R450): in service or failed, and its two banks, oldest record first. -/
structure Flash where
  ok : Bool
  bank0 : List SstRec
  bank1 : List SstRec
  deriving DecidableEq, Repr

/-- The content of a UNIT record (R447): each history newest first. -/
structure UnitRec where
  fenced : Bool
  cause : Nat
  strikes : List Nat
  downs : List Nat
  resets : List Nat
  deriving DecidableEq, Repr

/-- The survival store (R445 to R451): the two devices, the records requested and not yet durable (oldest first), whether
the other bank is erased and whether its erase runs, and the package's working copy of the UNIT records. -/
structure Sst where
  a : Flash
  b : Flash
  wait : List SstRec
  erased : Bool
  erasing : Bool
  units : KMap UnitRec
  rdWord : Nat
  deriving DecidableEq, Repr

/-! ## Cores and clusters (05) -/

/-- A core: general registers G1 to G31, program counter, SYNCTMO, and the status that an instruction of it last raised against its
context where the manual names no register for it (R157, R177; 0: none; log 21). -/
structure Core where
  g : KMap W64
  pc : W64
  tmo : W32
  raised : Nat
  deriving DecidableEq, Repr

/-- A tile command in its slot's queue (R93, R95, R111, R113, R120): its eight words, the early-egress permission it was
accepted with, its place in a pair (0 none, 1 P, 2 Q), the engines it may run on (those in service at its issue and since; for Q,
once P has started, the engine that runs P), and its number among the cluster's tile commands. -/
structure TileCmd where
  words : List W64
  early : Bool
  pair : Nat
  engines : List Nat
  no : Nat
  deriving DecidableEq, Repr

/-- A chain in its queue (R136, R137): its 24 words, the scalars at issue (R151), the job key and the step (R430), the engines in
service at its issue and since (R111, R155), and its logical slot. -/
structure ChainCmd where
  words : List W64
  scal : KMap W32
  ka : W64
  kb : W64
  step : W64
  engines : List Nat
  slot : Nat
  deriving DecidableEq, Repr

/-- A gather or scatter descriptor (R162): its four words, and the core that queued it. -/
structure GatherCmd where
  words : List W64
  scatter : Bool
  oc : Nat
  deriving DecidableEq, Repr

/-- A completion record of 16 bytes (R160). -/
structure RingRec where
  w0 : W64
  w1 : W64
  deriving DecidableEq, Repr

/-- A tile's record that waits for the records of earlier commands of its slot (R95): slot, the command's number, the page of the
engine that writes it (0: none), and the record. -/
structure LateRec where
  slot : Nat
  no : Nat
  unit : Nat
  entry : RingRec
  deriving DecidableEq, Repr

/-- The column sums of a backward kernel over the bands of one tensor (R132, R133): what the bands share, dγ and dβ by column, and
whether a band was poisoned. -/
structure ColSums where
  words : List W64
  dgamma : KMap W32
  dbeta : KMap W32
  poison : Bool
  deriving DecidableEq, Repr

/-- A cluster: the queues of the MXE slots, of the vector engines (in order of issue) and of the gather unit, the scalar registers, the
scalar registers reserved by chains in flight (first register of each reserved range of five), the completion ring, the records
that it had no room for with the page of the unit that holds each, the tile records that wait for earlier ones, the number of
the next tile command, and the column sums of each vector slot. -/
structure Cluster where
  tiles : KMap (List TileCmd)
  chains : List ChainCmd
  gathers : List GatherCmd
  scal : KMap W32
  reserved : List Nat
  ring : List RingRec
  held : List (Nat × RingRec)
  late : List LateRec
  nextNo : Nat
  sums : KMap (Option ColSums)
  deriving DecidableEq, Repr

/-! ## Matrix and vector engines (03, 04, 05) -/

/-- A finished-tile queue entry (R107): values at row × 256 + column, CTX, TAG, visibility, marks, and whether the VXE has
claimed it. hidden: reserved for a tile whose check or drain is not over. -/
structure Fte where
  data : KMap W32
  ctx : Nat
  tag : Nat
  rows : Nat
  cols : Nat
  hidden : Bool
  early : Bool
  droop : Bool
  poisoned : Bool
  claimed : Bool
  id : Nat
  deriving DecidableEq, Repr

/-- The first failing K-block of a run (R101, R112): K-block, row, column, and whether more than one row or column failed. -/
structure Locus where
  kb : Nat
  row : Nat
  col : Nat
  multi : Bool
  deriving DecidableEq, Repr

/-- A tile in hand (R101 to R108): the command, its slot, the engine that ran it first, the engine of the last run, or of the
re-run to come; the runs' engines; the mismatching runs so far (engine and signature, R112); its result, the starting
contents of the bank; the DROOP mark of the last run and of any run; whether it met poison, an operand requantised,
the entry number reserved (0: none); the K-blocks and left-out comparisons of the last run; the phase (0 check to come, 1 re-run to come, 2 passed, 3 failed); whether its drain
runs and whether it is over. -/
structure TileRun where
  cmd : TileCmd
  slot : Nat
  first : Nat
  last : Nat
  tried : List Nat
  bad : List (Nat × W64)
  locus : Option Locus
  result : KMap W32
  start : KMap W32
  droop : Bool
  anyDroop : Bool
  poisoned : Bool
  requant : Bool
  entry : Nat
  kbs : Nat
  skips : Nat
  phase : Nat
  draining : Bool
  drained : Bool
  deriving DecidableEq, Repr

/-- The shared-tile buffer (R122): the bytes of P's operand A by cluster-SRAM address, and whether one was poisoned. -/
structure SharedTile where
  data : KMap Byte
  poison : Bool
  deriving DecidableEq, Repr

/-- A matrix engine: the tiles in hand in command order, the finished-tile queue in command order, the number of the next
entry, for each bank of the logical slot of the engine's own number whether the slot's last command on it had EMIT = 0, the cause of
a fence that waits for the second tile of a pair (R124), and the shared-tile buffer. -/
structure Mxe where
  runs : List TileRun
  ftq : List Fte
  nextId : Nat
  accum : BitVec 2
  fenceDue : Option Nat
  shared : Option SharedTile
  deriving DecidableEq, Repr

/-- A vector engine's running chain (R143, R153): the command, its logical slot, the table entry as checked (word 0 VALUES and
THRESH, word 1 the rest; R168), the entries it holds as (engine, entry), how many it has taken, whether one carried the
DROOP mark, whether one was poisoned, and the cause of a fence that waits for the chain's end (R110, R155). -/
structure ChainRun where
  cmd : ChainCmd
  slot : Nat
  table : List W64
  taken : List (Nat × Nat)
  seen : Nat
  droop : Bool
  poisoned : Bool
  fenceDue : Option Nat
  deriving DecidableEq, Repr

/-! ## Telemetry and memory (06, 07) -/

/-- An operation of a histogram unit in progress (R176). -/
structure HstOp where
  stream : Nat
  op : Nat
  addr : Nat
  deriving DecidableEq, Repr

/-- Memory (07): bytes by physical place, the full bits and poison bits by 64-bit word, and the poisoned lines of stack and
LPDDR memory. -/
structure Mem where
  bytes : KMap Byte
  full : KMap Bool
  poison : KMap Bool
  lines : KMap Bool
  deriving DecidableEq, Repr

/-- A stack's throttle (R200 to R203): a fall interval runs; readouts missed in a row. -/
structure Throttle where
  falling : Bool
  missed : Nat
  deriving DecidableEq, Repr

/-- The memory system: channel lists of the valid regions by region × 64 + member (R501), the context's partitions (R6),
the throttles, the requests held at tollgates by die × 64 + bucket (costs, oldest first), doubled refresh per LPDDR
package, SRAM errors corrected by cluster, or 48 + die (R398). -/
structure MemSys where
  chans : KMap (List Nat)
  part : KMap Nat
  thr : KMap Throttle
  held : KMap (List Nat)
  heldSince : KMap Nat
  lpHot : KMap Bool
  sramCe : KMap Nat
  deriving DecidableEq, Repr

/-! ## Update units (08) -/

/-- An update command accepted by the dispatcher (R221, R241): its number in acceptance order, its queue and SEQ, its 16 words with CTX
filled in, and whether its commit is staged and not written (R238); once it runs,
what the dispatcher has read (parameter block, loaded program, table; R222), the slot it writes, the chunks that remain with the
unit of each, the chunks done with the unit and the record's words 1 to 4 of each, the units whose segment pass is done (R225),
the units past the prologue and the constants that ukset replaced by 16 × unit + index (R227), and whether a chunk met poison. -/
structure UpdCmd where
  num : Nat
  staged : Bool
  sq : Nat
  seq : W64
  words : List W64
  running : Bool
  pblk : List W64
  prog : List W32
  table : List W32
  slot : Nat
  todo : List (Nat × Nat)
  done : List (Nat × Nat × List W64)
  passed : List Nat
  ready : List Nat
  consts : KMap W32
  poisoned : Bool
  deriving DecidableEq, Repr

/-- A journal (R236): RMAP, chunk, step, the command's queue, SEQ and context, the unit that wrote it and its partner (0xFF: none), the
new bytes by local address, poison, the sums of the record that follows, and whether the journal is complete. -/
structure Journal where
  rmap : Nat
  chunk : Nat
  step : W64
  sq : Nat
  seq : W64
  ctx : Nat
  unit : Nat
  partner : Nat
  writes : List (Nat × Byte)
  poison : Bool
  sums : List W64
  complete : Bool
  deriving DecidableEq, Repr

/-- What a pass of the element section leaves of a lane beside its streams: the update value d of R233, whether a stream it read saturated on
widening, an FP32 result saturated, and the W40 result saturated or flushed. -/
structure LaneEv where
  d : Nat
  inSat : Bool
  sat : Bool
  wSat : Bool
  wFlush : Bool
  deriving DecidableEq, Repr

/-- The chunk whose element section a unit runs instruction by instruction (R227, R228): the command's queue and SEQ, the chunk, the lane group
in hand, and the streams stored and the marks of the elements before it. -/
structure UuHand where
  sq : Nat
  seq : W64
  chunk : Nat
  group : Nat
  els : List (KMap W64 × LaneEv)
  deriving DecidableEq, Repr

/-- An update unit: element registers at 32 × register + lane, streams of the present lane group by 32 × stream + lane as read, with the
marks of those that saturated on widening, and as stored; the lanes' marks; whether the unit is in the element section (between uloop and uend),
the chunk in hand there, and the number of the command it served last (R241). -/
structure Uu where
  e : KMap W64
  inp : KMap W64
  inSat : KMap Bool
  out : KMap W64
  evs : KMap LaneEv
  section_ : Bool
  hand : Option UuHand
  last : Option Nat
  deriving DecidableEq, Repr

/-! ## Stages, queues, versions (09) -/

/-- An in-queue (R250 to R255) beside its registers: the descriptors accepted and not released, oldest first, each with the
mark whether it has been popped. -/
structure InQueue where
  descs : List (List W64 × Bool)
  deriving DecidableEq, Repr

/-- A descriptor or TAINT message sent on an out-link and not yet acknowledged (R253, R254, R264). copying: its payload copy
is not complete, so it is not posted. -/
structure OutMsg where
  seq : W32
  words : List W64
  donew : Nat
  copying : Bool
  resends : Nat
  taint : Bool
  deriving DecidableEq, Repr

/-- A message of a stage link on its way out of this package's end (R252 to R255, R264): kind 0 OPEN, 1 ACCEPT, 2 REFUSE,
3 descriptor, 4 acknowledgement, 5 credit, 6 TAINT; the queue or link it concerns, and its words. -/
structure SlMsg where
  kind : Nat
  num : Nat
  words : List W64
  deriving DecidableEq, Repr

/-- A taint (R264): context, step and micro-batch (all ones for the whole step). -/
structure Taint where
  ctx : Nat
  step : W64
  mb : W32
  deriving DecidableEq, Repr

/-- A flight entry (R256). -/
structure Flight where
  ctx : Nat
  seqid : W32
  count : Nat
  deriving DecidableEq, Repr

/-- A version-table command in progress (R262): 1 ACTIVATE, 2 RETIRE. -/
structure VCmd where
  op : Nat
  vte : Nat
  deriving DecidableEq, Repr

/-- The stage manager and the stage links. -/
structure Stages where
  inq : KMap InQueue
  outq : KMap (List OutMsg)
  outbox : List SlMsg
  flight : List Flight
  taints : List Taint
  taintAll : KMap Bool
  vcmd : Option VCmd
  deriving DecidableEq, Repr

/-! ## Synchronisation (10) -/

/-- What a core that waits is waiting for, and what it then does. -/
inductive Why where
  /-- a full/empty operation on a word (R276, R277): ldfe, ldfn and stef with its value -/
  | ldfe (addr : Nat)
  | ldfn (addr : Nat)
  | stef (addr : Nat) (v : W64)
  /-- swait on a mask (R287) -/
  | signal (mask : W64)
  /-- barr: the episode it arrived for (R291) -/
  | arrived (b : Nat) (ep : W32)
  /-- barr of a slot that has arrived already: waits for the episode, then arrives (R291) -/
  | arriveNext (b : Nat)
  /-- bwait for an episode (R291) -/
  | episode (b : Nat) (ep : W32)
  /-- cpop on an empty ring (R159) -/
  | ring
  /-- instructions that stall until a reserved scalar register is delivered (R150, R151): smov.s with its value, smov.g, a
  scalar branch, and a chain issue with its descriptor -/
  | smovS (i : Nat) (v : W32)
  | smovG (i : Nat)
  | branchS (cond : Cond) (uns : Bool) (i j : Nat) (off : BitVec 9)
  | cissue (slot : Nat) (words : List W64)
  /-- qpush that waits for a credit, with its push block, and qpop that waits for a descriptor (R253, R255) -/
  | qpush (ol : Nat) (words : List W64)
  | qpop (qn : Nat) (dest : Nat)
  deriving DecidableEq, Repr

/-- A waiting core: participant slot and destination register. Waiters stand in the order they arrived (R277). -/
structure Waiter where
  slot : Nat
  rd : Nat
  why : Why
  deriving DecidableEq, Repr

/-- A claim (R281). -/
structure Claim where
  base : Nat
  len : Nat
  ctx : Nat
  lost : Bool
  deriving DecidableEq, Repr

/-- Synchronisation: waiters, pending signals by slot, the claim table by entry, agent arrivals held for the next episode by
barrier × 384 + slot. -/
structure Sync where
  waiters : List Waiter
  signals : KMap W64
  claims : KMap (Option Claim)
  heldArr : KMap Bool
  deriving DecidableEq, Repr

/-! ## Fabric and remote operations (11, 12) -/

/-- A packet that the package holds (R303, R315): header and payload words, the die that holds it, and the port it came in
by (24: formed here). -/
structure Held where
  words : List W64
  die : Nat
  port : Nat
  deriving DecidableEq, Repr

/-- A link port beside its registers (R305 to R307, R336 to R339): by virtual channel the flits SENT, the partner's FREED as
last heard, the flits accepted, the own FREED, and the allocation in force; RSREQ sent and MARK awaited; the sender stopped
until RSACK; time stamps of resyncs; whether CRD or HELLO is due; the last HELLO and LOC received; the peer's
UID when the port was admitted; the packet or control flit sent last; whether a warm recovery found the port ROUTED, and whether it found it PARKED or ROUTED; the time of the
last valid HELLO or LOC. -/
structure Port where
  sent : KMap Nat
  heard : KMap Nat
  accepted : KMap Nat
  freed : KMap Nat
  alloc : KMap Nat
  waitMark : Bool
  stopped : Bool
  resyncs : List Nat
  crdDue : Bool
  helloDue : Bool
  hello : Option Hello
  loc : Option Loc
  admitUid : W64
  lastTx : List W64
  wasRouted : Bool
  wasUp : Bool
  helloAt : Option Nat
  deriving DecidableEq, Repr

/-- What holds a reply slot (R325, R351): a piece of a porter operation (its number, offset and length), or a chunk of a
group (courier's die, GID, rank it went to, SEQ). -/
inductive Owner where
  | porter (op off len : Nat)
  | chunk (gid rank seq : Nat)
  deriving DecidableEq, Repr

/-- A reply slot (R325): its generation, and its context and owner while it is reserved. -/
structure Slot where
  gen : Nat
  use : Option (Nat × Owner)
  deriving DecidableEq, Repr

/-- A porter operation (R342 to R347): number, porter group (2 × die + group), context, block, the pieces (offset, length) not
sent yet, pieces in flight, the epoch it was formed in, bytes completed, status and old value; for one of CX000 whose local range lies in
the register window (R189), the bytes of that range by offset. -/
structure PortOp where
  num : Nat
  group : Nat
  ctx : Nat
  words : List W64
  rest : List (Nat × Nat)
  flying : Nat
  epoch : Option Nat
  bytes : Nat
  status : Nat
  old : W64
  win : KMap Byte
  deriving DecidableEq, Repr

/-- The admitted map of a context (R341): wraps, sizes, coordinates and cuts of its axes, and the address of the map. -/
structure Job where
  wrap : List Bool
  sizes : List Nat
  coords : List Nat
  cuts : List Nat
  addr : Nat
  deriving DecidableEq, Repr

/-- What has arrived of a narrow put and is not widened yet (R344): source, address of its first byte as the packets name it,
format word and wide format, and the bytes by their offset. -/
structure NarrowPart where
  src : Nat
  base : Nat
  fmt : Nat
  wide : Nat
  bytes : KMap Byte
  deriving DecidableEq, Repr

/-- The fabric: held packets in order of arrival, packets for this package that have not been taken, ports, reply slots by
4,096 × die + slot, operations in order of issue, the number of the next one, the routing tables by 65,536 × version +
device, loads in progress (version, address, whether both versions were EMPTY), the time of the last flip, admitted maps by
context, narrow puts in part, and the number an election gave (R338). -/
structure Net where
  held : List Held
  sunk : List Held
  ports : KMap Port
  slots : KMap Slot
  ops : List PortOp
  nextOp : Nat
  routes : KMap W64
  loads : List (Nat × Nat × Bool)
  flipAt : Option Nat
  jobs : KMap (Option Job)
  narrow : List NarrowPart
  elect : Option Nat
  deriving DecidableEq, Repr

/-! ## Collectives (12) -/

/-- An open group (R348): courier's die, GID, context, members by rank, own rank, node size, window, chunk bytes, STATE
address, hierarchy, first LEPOCH, whether a chunk exhausted RETRY, the ranks whose CREDIT has been heard, and the landed chunks
by rank × 2^32 + SEQ. -/
structure Group where
  die : Nat
  gid : Nat
  ctx : Nat
  members : List Nat
  rank : Nat
  node : Nat
  window : Nat
  chunk : Nat
  state : Nat
  hier : Bool
  lepoch : Nat
  failed : Bool
  heard : List Nat
  intake : KMap (List W64)
  deriving DecidableEq, Repr

/-- A chunk sent and not acknowledged (R353): rank it went to, SEQ, the packet, and its timeouts so far. -/
structure Flown where
  rank : Nat
  seq : Nat
  words : List W64
  timeouts : Nat
  deriving DecidableEq, Repr

/-- A collective (R349 to R359): its number, courier's die, context, descriptor, whether it runs; for each of its levels (R356) the step
in which it sends with the bytes of it sent, and the step in which it receives; the values it forwards or has gathered, as bytes by their place, and which of
them are poisoned; the chunks in flight; its status. -/
structure Coll where
  num : Nat
  die : Nat
  ctx : Nat
  words : List W64
  running : Bool
  sendAt : List (Nat × Nat)
  recvAt : List Nat
  fwd : KMap Byte
  bad : KMap Bool
  flown : List Flown
  status : Nat
  deriving DecidableEq, Repr

/-- The couriers of the package: open groups, collectives in acceptance order, the number of the next one, and the highest LEPOCH of
an accepted PERMUTE by context (R359). -/
structure Courier where
  groups : List Group
  colls : List Coll
  next : Nat
  layout : KMap Nat
  deriving DecidableEq, Repr

/-! ## Host link and submission (13) -/

/-- An accepted host command (R379 to R386): its SEQ and descriptor; whether it has been echoed and dispatched; when it has
finished its status, RESULT and time, and whether that time is marked free-running (R32). -/
structure SqCmd where
  seq : W64
  ctx : Nat
  words : List W64
  echoed : Bool
  dispatched : Bool
  fin : Option (Nat × W64 × W64)
  free : Bool
  deriving DecidableEq, Repr

/-- A register operation (R372): OPID, write or read, address, data. -/
structure RegOp where
  opid : W16
  op : BitVec 2
  addr : BitVec 26
  size : Nat
  data : W64
  deriving DecidableEq, Repr

/-- A register result (R372), with the operation it answers. -/
structure RegRes where
  opid : W16
  op : BitVec 2
  addr : BitVec 26
  status : Nat
  data : W64
  deriving DecidableEq, Repr

/-- The host link and the submission engine: accepted commands of each queue without a record sent, in SEQ order; those whose
mirror copies are not complete, in the order they came; echoes to be sent; completion records sent and not consumed, and those of
them that a reply frame has still to carry; the highest SEQ consumed by queue (R387); CCONS; operations on slow pages, each with
its result once it has taken effect, and results of theirs to be sent; kept results, newest first (R374); the results due in the next reply frame by item; TAG and
RQ_OK for that frame; the last reply frame; submission stopped (R473), shutdown done; stamps of request frames that failed their FCRC
by lane set (R366); the stacks that hold whole mirror copies (R380), and whether a second part failed while one was missing (R389); records of the range form still to be sent as (queue, W + 1) (R388); records that a warm recovery found not consumed and sends
again; the number of the next update command; the lane sets whose training the package began by itself while none was ACTIVE (R367); the last
idle frame of a STANDBY set (R365). -/
structure HostLink where
  sqs : KMap (List SqCmd)
  fresh : List (Nat × W64)
  echoes : List (Nat × W64)
  sent : List (List W64)
  held : List (List W64)
  consumed : KMap W64
  ccons : W64
  deferred : List (RegOp × Option RegRes)
  results : List RegRes
  kept : List RegRes
  fast : List (Nat × List RegRes)
  tag : Byte
  rqOk : Bool
  reply : List W64
  stopped : Bool
  shutDone : Bool
  fails : KMap (List Nat)
  mirrors : List Nat
  mirrorLost : Bool
  ranges : List (Nat × W64)
  again : List (List W64)
  nextUpd : Nat
  ticks : List Bool
  idle : List W64
  deriving DecidableEq, Repr

/-! ## Recovery (14) -/

/-- An abort in progress (R409, R410): context, cause, whether it originates relays, the software reason, the queue forms
that wait for it as (queue, SEQ). -/
structure AbortJob where
  ctx : Nat
  cause : Nat
  reason : W64
  queues : List (Nat × W64)
  deriving DecidableEq, Repr

/-- A relay being re-sent (R414): context, JOBID, GEN, origin, cause, the neighbours, and sendings left. -/
structure Relay where
  words : List W64
  devs : List Nat
  left : Nat
  deriving DecidableEq, Repr

/-- A reset in progress (R416): domain code and what is reset, whether it counts (R408). -/
structure ResetJob where
  dom : Nat
  target : ResetTarget
  train : Option TrainIn
  deriving DecidableEq, Repr

/-- Trials of a unit in REPLAY (R407): the suspects that remain, the one in trial first. -/
structure Trial where
  unit : WdUnit
  suspects : List Nat
  deriving DecidableEq, Repr

/-- A staged crash dump (R423): trigger SEQ, time and whether it is marked free-running (R32), the two stacks, READ, its words. -/
structure Dump where
  evseq : W32
  time : Nat
  free : Bool
  stackA : Nat
  stackB : Nat
  read : Bool
  words : List W64
  deriving DecidableEq, Repr

/-- Recovery: aborts in progress, relays being sent, relay packets sent (by neighbour), resets in progress, trials, dump,
CHECK_LATE records that wait for their taint as (cluster, context), a cold reset since the out-of-service latch. -/
structure Recovery where
  aborts : List AbortJob
  relays : List Relay
  resets : List ResetJob
  trials : List Trial
  dump : Option Dump
  late : List (Nat × Nat)
  coldSince : Bool
  deriving DecidableEq, Repr

/-- A seal in progress (R436 to R439): its number, context, record address, the four words of its seal block, whether it has
been applied, the step, the mirror put (operation number), and its status. -/
structure Seal where
  num : Nat
  ctx : Nat
  addr : Nat
  block : List W64
  applied : Bool
  step : Nat
  put : Option Nat
  status : Nat
  deriving DecidableEq, Repr

/-- The ledger (15): the seals in arrival order and the number of the next one; by context the steps sealed since validation that
SECURED has not passed, ascending, each with the mark whether the mirror has it (R438), the open start stamp and the cost
history of checkpoints, newest first (R441), and run time below one second in ns (R442). -/
structure Ledger where
  seals : List Seal
  next : Nat
  unsecured : KMap (List (Nat × Bool))
  start : KMap (Option Nat)
  costs : KMap (List Nat)
  runNs : KMap Nat
  deriving DecidableEq, Repr

/-! ## Power, droop, boot, security, test (16, 17) -/

/-- The power controller (R455 to R462): estimates, newest first, in units of 1/25,600,000 W; the length and lowest cap of
the episode with cap below 32; elapsed tick of the episode. -/
structure Power where
  ests : List Nat
  epTicks : Nat
  epLow : Nat
  hot : Bool
  deriving DecidableEq, Repr

/-- A droop warning of an island (R463, R464): start and lowest sample in mV, and the time up to which ISL.STRETCH has counted it. -/
structure Warn where
  start : Nat
  low : Nat
  counted : Nat
  deriving DecidableEq, Repr

/-- Boot, security and test: words received since BEGIN, the image under check, the image that runs (header words), the kept
copies, fuses burnt, fuse operation in progress, a burn that failed its read-back, identity tree built or failed, leaves reserved and used, the report in the
making and the last one, RDATA places, token bytes, token valid, and DSECRET reads disabled. -/
structure Boot where
  load : List W64
  check : Option (List W64)
  running : List W64
  kept0 : List W64
  kept1 : List W64
  vkrev : BitVec 2
  svn : Nat
  lifecycle : Nat
  fuseOp : Option (Nat × Nat)
  fuseBad : Bool
  idFail : Bool
  leafRes : Nat
  waitGo : Bool
  report : List W64
  secWord : Nat
  token : List Byte
  tokenOk : Option Nat
  secretOff : Bool
  deriving DecidableEq, Repr

/-- The test access ports (R490, R491): the instruction of each die's TAP (IDCODE after Test-Logic-Reset), and whether a boundary
instruction is in effect, which holds the package in reset. -/
structure Tap where
  ir : KMap Byte
  hold : Bool
  deriving DecidableEq, Repr

/-- Pins, bridges and time bases (01, 17), dies fenced or held in a reset, islands' warnings. -/
structure Plat where
  pwrOk : Bool
  coldRstN : Bool
  thermtrip : Bool
  time : KMap TimeBase
  bridges : KMap Bridge
  dieFenced : BitVec 4
  dieReset : BitVec 4
  dieTest : BitVec 4
  warns : KMap (Option Warn)
  silent : Bool
  deriving DecidableEq, Repr

/-! ## The whole -/

/-- The state of the package. pending is the queue of commands that wait, first in first out. regs holds every register at
its window address (R12), the registers of one context at context × 2^26 above it, and the pages that move between CD0 and
CD3 at their CD0 address. errCtx holds the context of each ERR_STAT bit by page × 64 + bit (R375). work counts, by page, what MXE.PERF, VXE.PERF and LNK.TRAFFIC show
in larger units since their last read: K-steps, elements, flits sent and (at page + 1) received. regStatus is the status with which
the last REG_WRITE or TSTACC completed (R13, R372). An event holds its four words, and a fifth one, 1, where its time stamp is marked
free-running (R32; log 110); a completion record likewise. -/
structure State where
  pending : List Instr
  free : Nat
  rdData : W64
  regStatus : Nat
  regs : KMap W64
  errCtx : KMap Nat
  events : KMap (List W64)
  plat : Plat
  sst : Sst
  cores : KMap Core
  scratch : KMap Byte
  clusters : KMap Cluster
  banks : KMap W32
  mxes : KMap Mxe
  vxes : KMap (Option ChainRun)
  bins : KMap Nat
  work : KMap Nat
  hstOp : KMap (Option HstOp)
  mem : Mem
  ms : MemSys
  upd : List UpdCmd
  commit : List (Nat × Byte)
  uus : KMap Uu
  journals : List Journal
  stg : Stages
  sync : Sync
  net : Net
  cr : Courier
  host : HostLink
  rcv : Recovery
  ldg : Ledger
  pwr : Power
  boot : Boot
  tap : Tap
  deriving DecidableEq, Repr

/-! ## Stops -/

/-- Why the block could stop with a fault. The manual describes none: every error is a status, an ERR_STAT bit or an event
of the next state. -/
inductive Fault where
  /-- Raised by nothing: the type has one constructor so that it is a closed type that is not empty. Safe. -/
  | none
  deriving DecidableEq, Repr

/-- Why a command is refused. -/
inductive Refusal where
  /-- A command whose meaning has not been written yet, by its mnemonic. Safe: the block stops. -/
  | notModelled (mnemonic : String)
  deriving DecidableEq, Repr

/-! ## Defaults and reset -/

def Bridge.reset : Bridge := ⟨0, 0, false, []⟩
def TimeBase.reset : TimeBase := ⟨0, false⟩
def UnitRec.reset : UnitRec := ⟨false, 0, [], [], []⟩
def Core.reset : Core := ⟨[], 0, 0, 0⟩
def Cluster.reset : Cluster := ⟨[], [], [], [], [], [], [], [], 0, []⟩
def Mxe.reset : Mxe := ⟨[], [], 1, 0, none, none⟩
def LaneEv.none : LaneEv := ⟨0, false, false, false, false⟩
def Uu.reset : Uu := ⟨[], [], [], [], [], false, none, none⟩
def InQueue.reset : InQueue := ⟨[]⟩
def Port.reset : Port := { sent := [], heard := [], accepted := [], freed := [], alloc := [], waitMark := false, stopped := false, resyncs := [], crdDue := false, helloDue := false, hello := none, loc := none, admitUid := 0, lastTx := [], wasRouted := false, wasUp := false, helloAt := none }
def Slot.reset : Slot := ⟨0, none⟩

/-- The SEAL record with which a formatted store begins (R447, R448); a test checks its CRC. -/
def sealAtReset : SstRec := ⟨1, 0, 0, 0, false, [0, 0], 0x554c240eeb4f9763⟩

/-- A formatted store without history (log 12). -/
def Sst.reset : Sst := ⟨⟨true, [sealAtReset], []⟩, ⟨true, [sealAtReset], []⟩, [], true, false, [], 0⟩

/-- LNK.STAT of the six ports of a die: DETECT, since EN resets to 1 (R299; log 11). -/
def portsAtReset (d : Nat) : KMap W64 := (List.range 6).map fun i => (d * 0x1000000 + 0x680018 + i * 0x1000, 1)

/-- Registers whose reset the manual gives as —, at their window addresses: both lane sets train (R365, R481; log 11); the ports detect;
RCV.STAT.PHASE is RECOVERING until READY (R429, R481; log 4); SST.SEQ.NEXT and SST.USED.WRITTEN follow from the formatted store. -/
def regsAtReset : KMap W64 :=
  [(0x40018, 0x110)] ++ portsAtReset 0 ++ [(0x840018, 1), (0x8C0100, 1), (0x8C0108, 56)] ++ portsAtReset 1 ++ portsAtReset 2 ++ portsAtReset 3

/-- The package right after a package cold reset with the rails up (R17, R472; log 4): every register at its Reset column
(an empty map reads so), every queue empty, memory zero. -/
def State.reset : State where
  pending := []
  free := 0
  rdData := 0
  regStatus := 0
  regs := regsAtReset
  errCtx := []
  events := []
  plat := { pwrOk := true, coldRstN := true, thermtrip := false, time := [], bridges := [], dieFenced := 0, dieReset := 0, dieTest := 0, warns := [], silent := false }
  sst := .reset
  cores := []
  scratch := []
  clusters := []
  banks := []
  mxes := []
  vxes := []
  bins := []
  work := []
  hstOp := []
  mem := ⟨[], [], [], []⟩
  ms := ⟨[], [], [], [], [], [], []⟩
  upd := []
  commit := []
  uus := []
  journals := []
  stg := ⟨[], [], [], [], [], [], none⟩
  sync := ⟨[], [], [], []⟩
  net := { held := [], sunk := [], ports := [], slots := [], ops := [], nextOp := 0, routes := [], loads := [], flipAt := none, jobs := [], narrow := [], elect := none }
  cr := ⟨[], [], 0, []⟩
  host := { sqs := [], fresh := [], echoes := [], sent := [], held := [], consumed := [], ccons := 0, deferred := [], results := [], kept := [], fast := [], tag := 0, rqOk := false, reply := [], stopped := false, shutDone := false, fails := [], mirrors := [5, 10], mirrorLost := false, ranges := [], again := [], nextUpd := 0, ticks := [], idle := [] }
  rcv := ⟨[], [], [], [], none, [], false⟩
  ldg := ⟨[], 0, [], [], [], []⟩
  pwr := ⟨[], 0, 32, false⟩
  boot := { load := [], check := none, running := [], kept0 := [], kept1 := [], vkrev := 0, svn := 0, lifecycle := 1, fuseOp := none, fuseBad := false, idFail := false, leafRes := 0, waitGo := false, report := [], secWord := 0, token := [], tokenOk := none, secretOff := false }
  tap := ⟨[], false⟩

end Sys2Proof.Machine
end

