-- ==== Sys2Proof/Machine/Ops.lean ====
section
/-! DEFINITION. The named operations over the state that every command shares: registers and their fields, error bits,
free values, time, events, the survival store, units in service. -/

namespace Sys2Proof.Machine

/-! ## Named updates: one per field of the state -/

def State.withPending (s : State) (x : List Instr) : State := { s with pending := x }
def State.withFree (s : State) (x : Nat) : State := { s with free := x }
def State.withRdData (s : State) (x : W64) : State := { s with rdData := x }
def State.withRegStatus (s : State) (x : Nat) : State := { s with regStatus := x }
def State.withRegs (s : State) (x : KMap W64) : State := { s with regs := x }
def State.withErrCtx (s : State) (x : KMap Nat) : State := { s with errCtx := x }
def State.withEvents (s : State) (x : KMap (List W64)) : State := { s with events := x }
def State.withPlat (s : State) (x : Plat) : State := { s with plat := x }
def State.withSst (s : State) (x : Sst) : State := { s with sst := x }
def State.withCores (s : State) (x : KMap Core) : State := { s with cores := x }
def State.withScratch (s : State) (x : KMap Byte) : State := { s with scratch := x }
def State.withClusters (s : State) (x : KMap Cluster) : State := { s with clusters := x }
def State.withBanks (s : State) (x : KMap W32) : State := { s with banks := x }
def State.withMxes (s : State) (x : KMap Mxe) : State := { s with mxes := x }
def State.withVxes (s : State) (x : KMap (Option ChainRun)) : State := { s with vxes := x }
def State.withBins (s : State) (x : KMap Nat) : State := { s with bins := x }
def State.withWork (s : State) (x : KMap Nat) : State := { s with work := x }
def State.withHstOp (s : State) (x : KMap (Option HstOp)) : State := { s with hstOp := x }
def State.withMem (s : State) (x : Mem) : State := { s with mem := x }
def State.withMs (s : State) (x : MemSys) : State := { s with ms := x }
def State.withUpd (s : State) (x : List UpdCmd) : State := { s with upd := x }
def State.withCommit (s : State) (x : List (Nat × Byte)) : State := { s with commit := x }
def State.withUus (s : State) (x : KMap Uu) : State := { s with uus := x }
def State.withJournals (s : State) (x : List Journal) : State := { s with journals := x }
def State.withStg (s : State) (x : Stages) : State := { s with stg := x }
def State.withSync (s : State) (x : Sync) : State := { s with sync := x }
def State.withNet (s : State) (x : Net) : State := { s with net := x }
def State.withCr (s : State) (x : Courier) : State := { s with cr := x }
def State.withHost (s : State) (x : HostLink) : State := { s with host := x }
def State.withRcv (s : State) (x : Recovery) : State := { s with rcv := x }
def State.withLdg (s : State) (x : Ledger) : State := { s with ldg := x }
def State.withPwr (s : State) (x : Power) : State := { s with pwr := x }
def State.withBoot (s : State) (x : Boot) : State := { s with boot := x }
def State.withTap (s : State) (x : Tap) : State := { s with tap := x }

/-! ## Register addresses (R12, R390, R391) -/

/-- Window address of a page (R12). -/
def pg (die blk inst : Nat) : Nat := die * 2 ^ 24 + blk * 2 ^ 18 + inst * 2 ^ 12

/-- A register page of one context, for registers that LSEL, KSEL, SEL or JOBSEL banks. -/
def bank (ctx page : Nat) : Nat := ctx * 2 ^ 26 + page

namespace Pg
def dir : Nat := pg 0 0x00 0
def hlk : Nat := pg 0 0x01 0
def isl (d k : Nat) : Nat := pg d 0x02 k
def sq (q : Nat) : Nat := pg (q / 64) 0x04 (q % 64)
def atn : Nat := pg 0 0x05 0
def pwr : Nat := pg 0 0x06 0
def drp (d : Nat) : Nat := pg d 0x07 0
def mxe (e : Nat) : Nat := pg (e / 48) 0x08 (e % 48)
def mxg (d : Nat) : Nat := pg d 0x09 0
def vxe (v : Nat) : Nat := pg (v / 24) 0x0A (v % 24)
def clu (c : Nat) : Nat := pg (c / 12) 0x0B (c % 12)
def scl (c : Nat) : Nat := pg (c / 12) 0x0C (c % 12)
def hst (d : Nat) : Nat := pg d 0x0D 0
def ctr (d : Nat) : Nat := pg d 0x0E 0
def map : Nat := pg 0 0x10 0
def toll (d : Nat) : Nat := pg d 0x11 0
def msc (k : Nat) : Nat := pg (k / 5) 0x12 (k % 5)
def lpc (k : Nat) : Nat := pg (k / 4) 0x13 (k % 4)
def uu (u : Nat) : Nat := if u < 20 then pg (u / 5) 0x14 (u % 5) else pg ((u - 20) / 4) 0x14 (5 + (u - 20) % 4)
def upd (d : Nat) : Nat := pg d 0x15 0
def stg : Nat := pg 0 0x16 0
def slq (d : Nat) : Nat := pg d 0x17 0
def syn : Nat := pg 0 0x18 0
def bar (b : Nat) : Nat := pg 0 0x19 b
def lnk (p : Nat) : Nat := pg (p / 6) 0x1A (p % 6)
def rte : Nat := pg 0 0x1B 0
def dsc : Nat := pg 0 0x1C 0
def rwin : Nat := pg 0 0x1D 0
def crr (d : Nat) : Nat := pg d 0x1E 0
def evl (d : Nat) : Nat := pg d 0x20 0
def rcv : Nat := pg 0 0x21 0
def ldg : Nat := pg 0 0x22 0
def sst : Nat := pg 0 0x23 0
def gen (d : Nat) : Nat := pg d 0x24 0
def boot : Nat := pg 0 0x25 0
def sec : Nat := pg 0 0x26 0
def tst (d : Nat) : Nat := pg d 0x27 0
end Pg

def pgDie (k : Nat) : Nat := k / 2 ^ 24 % 4
def pgBlk (k : Nat) : Nat := k / 2 ^ 18 % 64
def pgInst (k : Nat) : Nat := k / 2 ^ 12 % 64
def pgOff (k : Nat) : Nat := k % 2 ^ 12
def pageOf (k : Nat) : Nat := k / 2 ^ 12 * 2 ^ 12

/-- Whether a register row covers an offset. -/
def RegRow.covers (r : RegRow) (off : Nat) : Bool :=
  if r.count ≤ 1 then decide (off = r.off)
  else decide (r.off ≤ off) && decide ((off - r.off) % r.stride = 0) && decide ((off - r.off) / r.stride < r.count)

/-- The row of the catalogue for a window address: a register of the block, or of the common header (R390). -/
def rowOf (k : Nat) : Option RegRow :=
  match (Cat.block (pgBlk k)).find? (·.covers (pgOff k)) with
  | some r => some r
  | none => Cat.com.find? (·.covers (pgOff k))

/-- The value of a register after a package cold reset (R17). -/
def resetOf (k : Nat) : W64 := match rowOf k with | some r => BitVec.ofNat 64 r.reset | none => 0

/-! ## Registers -/

def State.reg (s : State) (k : Nat) : W64 := KMap.get (resetOf k) s.regs k

def State.setReg (s : State) (k : Nat) (v : W64) : State := s.withRegs (KMap.set (resetOf k) s.regs k v)

/-- A field of the register map at a page (of a repeated register: at page + stride × index). -/
def State.fld (s : State) (page : Nat) (f : Fld) : Nat := Bits.get (s.reg (page + f.off)) f.hi f.lo

def State.setFld (s : State) (page : Nat) (f : Fld) (v : Nat) : State :=
  s.setReg (page + f.off) (Bits.put (s.reg (page + f.off)) f.hi f.lo v)

def State.bitF (s : State) (page : Nat) (f : Fld) : Bool := (s.reg (page + f.off)).getLsbD f.lo

def State.setBitF (s : State) (page : Nat) (f : Fld) (b : Bool) : State := s.setFld page f (if b then 1 else 0)

/-- A saturating count in a field. -/
def State.addFld (s : State) (page : Nat) (f : Fld) (n : Nat) : State :=
  s.setFld page f (satAdd (2 ^ (f.hi + 1 - f.lo) - 1) (s.fld page f) n)

/-- A wrapping count in a field. -/
def State.wrapFld (s : State) (page : Nat) (f : Fld) (n : Nat) : State :=
  s.setFld page f ((s.fld page f + n) % 2 ^ (f.hi + 1 - f.lo))

/-- Field of a data word about to be written. -/
def Fld.of (f : Fld) (d : W64) : Nat := Bits.get d f.hi f.lo

/-- The package sets bit b of a page's ERR_STAT for a context: the bit ends set (R18), it carries the context (R375), and
EVT_SEL counts the setting when it selects the bit (R390). -/
def State.setErrBit (s : State) (page b ctx : Nat) : State :=
  let s1 := s.setReg (page + 0x20) (Bits.putBit (s.reg (page + 0x20)) b true)
  let s2 := s1.withErrCtx (KMap.set 0 s1.errCtx (page / 2 ^ 12 * 64 + b) ctx)
  if s2.fld page F.comEvtSelSel = b + 1 then s2.addFld page F.comEvtSelCount 1 else s2

def State.setErr (s : State) (page : Nat) (f : Fld) (ctx : Nat) : State := s.setErrBit page f.lo ctx

/-- The place of the BAD_SEQ bit in a block's ERR_STAT (the SLQ page has none; REFUSED is not used for it: log 17). -/
def badSeqBit (blk : Nat) : Option Nat :=
  match blk with
  | 0x01 => some 8 | 0x04 => some 3 | 0x08 => some 4 | 0x0A => some 3 | 0x0B => some 0 | 0x0D => some 3 | 0x0E => some 1
  | 0x10 => some 0 | 0x14 => some 4 | 0x16 => some 0 | 0x18 => some 0 | 0x19 => some 0 | 0x1A => some 6 | 0x1B => some 0
  | 0x1D => some 0 | 0x1E => some 4 | 0x21 => some 4 | 0x22 => some 0 | 0x25 => some 0 | 0x26 => some 0 | 0x27 => some 0
  | _ => none

/-- A refused write sets the page's BAD_SEQ bit (R500). -/
def State.badSeq (s : State) (page : Nat) : State :=
  match badSeqBit (pgBlk page) with | some b => s.setErrBit page b 0 | none => s

/-- A write under the access codes of R15 and the reserved bits of R16: RW bits take the data, ones clear W1C bits and set
W1S bits; RO, RC, WO and reserved bits ignore it. -/
def RegRow.apply (r : RegRow) (old data : W64) : W64 :=
  let rw := BitVec.ofNat 64 r.rw; let w1c := BitVec.ofNat 64 r.w1c; let w1s := BitVec.ofNat 64 r.w1s
  ((old &&& ~~~rw) ||| (data &&& rw)) &&& ~~~(data &&& w1c) ||| (data &&& w1s)

/-- A write with no effect beyond the access codes. -/
def State.plainWrite (s : State) (k : Nat) (data : W64) : State :=
  match rowOf k with
  | some r => s.setReg k (r.apply (s.reg k) data)
  | none => s

/-- Whether a write would change a bit of a mask (R500). -/
def State.changes (s : State) (k : Nat) (m data : W64) : Bool := ((s.reg k ^^^ data) &&& m) != 0

/-- A write while the bits of a mask are locked (R500): refused as a whole if it would change one. -/
def State.lockedWrite (s : State) (k : Nat) (m data : W64) : State :=
  if s.changes k m data then s.badSeq (pageOf k) else s.plainWrite k data

/-! ## Free values, output, time -/

/-- The next free value, and the state that has drawn it (log 7). -/
def State.draw (s : State) : W64 × State := (Config.freeValue s.free, (s.withFree (s.free + 1)))

def State.out (s : State) (v : W64) : State := s.withRdData v

def State.tb (s : State) (d : Nat) : TimeBase := KMap.get TimeBase.reset s.plat.time d

/-- The time base of a die, in ns (R31). -/
def State.now (s : State) (d : Nat) : Nat := (s.tb d).ns % 2 ^ 64

def State.setTb (s : State) (d : Nat) (t : TimeBase) : State :=
  s.withPlat { s.plat with time := KMap.set TimeBase.reset s.plat.time d t }

/-- The mark of a time stamp of a die whose count runs free, as the words that follow the stamped ones (R32; log 110). -/
def State.freeMark (s : State) (d : Nat) : List W64 := if (s.tb d).free then [1] else []

/-- A time window of 86,400 s in ns (R106, R213, R307, R367). -/
def dayNs : Nat := 86400 * 10 ^ 9

/-! ## Dies and services (R391, R401) -/

/-- A die answers and works: powered, not fenced, not in a die-function reset, and in the test mask in test mode. -/
def State.dieUp (s : State) (d : Nat) : Bool :=
  s.plat.pwrOk && !s.plat.dieFenced.getLsbD d && !s.plat.dieReset.getLsbD d

/-- The die of the package-wide services: CD0, or CD3 while CD0 is fenced or in reset (R192, R220, R401, R416). With CD3 out too
there is no such service (hubUp). -/
def State.hub (s : State) : Nat := if s.dieUp 0 then 0 else 3

/-- One of CD0 and CD3 works: it serves the board-management bus and the package-wide services (R25, R475). -/
def State.hubUp (s : State) : Bool := !s.plat.silent && (s.dieUp 0 || s.dieUp 3)

/-! ## Bridges (R21 to R23, R315) -/

/-- The die and port (BH false, BV true) of a bridge's two ends (R21): top, right, bottom, left. -/
def bridgeEnds (b : Nat) : List (Nat × Bool) := ([[(0, false), (1, false)], [(1, true), (3, true)], [(3, false), (2, false)], [(2, true), (0, true)]]).getD b []

def State.bridge (s : State) (b : Nat) : Bridge := KMap.get Bridge.reset s.plat.bridges b
def State.setBridge (s : State) (b : Nat) (x : Bridge) : State := s.withPlat { s.plat with bridges := KMap.set Bridge.reset s.plat.bridges b x }

/-- A bridge carries traffic: it is not down and both of its dies work. -/
def State.bridgeUp (s : State) (b : Nat) : Bool := !(s.bridge b).down && (bridgeEnds b).all fun e => s.dieUp e.1

/-- Place of a die in the ring CD0, CD1, CD3, CD2; bridge i joins place i to the next one. -/
def ringPlace (d : Nat) : Nat := [0, 1, 3, 2].getD d 0

/-- The bridges from a die to another, clockwise or the other way round the ring. -/
def ringWay (src dst : Nat) (clockwise : Bool) : List Nat :=
  let n := (ringPlace dst + 4 - ringPlace src) % 4
  if clockwise then (List.range n).map fun i => (ringPlace src + i) % 4 else (List.range ((4 - n) % 4)).map fun i => (ringPlace src + 3 - i) % 4

/-- Whether an access goes clockwise: between adjacent dies over their bridge, between diagonal ones as bit [12] of its address says (R22). -/
def accessClockwise (src dst addr : Nat) : Bool :=
  let n := (ringPlace dst + 4 - ringPlace src) % 4
  decide (n = 1 ∨ n = 2 ∧ addr / 4096 % 2 = 0)

/-- Whether a Fenelm packet crosses clockwise: diagonal crossings go through CD1 for CD0 and CD3, through CD0 for CD1 and CD2 (R315). -/
def packetClockwise (src dst : Nat) : Bool :=
  let n := (ringPlace dst + 4 - ringPlace src) % 4
  decide (n = 1 ∨ n = 2 ∧ (src = 0 ∨ src = 2))

/-- The way that is taken: the one chosen, or the other one round the ring while a bridge of it carries nothing (R23). none: the dies
are parted (log 111). -/
def State.wayOver (s : State) (src dst : Nat) (clockwise : Bool) : Option (List Nat) :=
  [ringWay src dst clockwise, ringWay src dst (!clockwise)].find? fun w => w.all s.bridgeUp

/-- The bridges that an access of a die to an address of another one crosses, in order. -/
def State.accessWay (s : State) (src dst addr : Nat) : Option (List Nat) := s.wayOver src dst (accessClockwise src dst addr)

/-- The bridges that a packet crosses from its ingress die to its egress die. -/
def State.packetWay (s : State) (src dst : Nat) : Option (List Nat) := s.wayOver src dst (packetClockwise src dst)

/-- A number of a unit or domain: its kind, and its number in the kind. -/
def wdCode (u : WdUnit) : Nat × Nat :=
  match u with
  | .mxe e => (0, e) | .vxe v => (1, v) | .core c => (2, c) | .porter d p => (3, 16 * d.val + p.val) | .gather c => (4, c)
  | .update u => (5, u) | .courier d => (6, d) | .service d => (7, d) | .queue q => (8, q)

def targetCode (t : ResetTarget) : Nat × Nat :=
  match t with
  | .engine u => wdCode u | .cluster c => (9, c) | .dieFunction d => (10, d) | .warm => (11, 0) | .cold => (12, 0)

/-- Whether a reset of one of these runs (R416): the unit starts nothing until it is over. -/
def State.inReset (s : State) (us : List (Nat × Nat)) : Bool := s.rcv.resets.any fun j => us.contains (targetCode j.target)

/-- The context whose trial runs on a unit in REPLAY (R407). -/
def State.trialCtx (s : State) (u : Nat × Nat) : Option Nat := (s.rcv.trials.find? fun t => decide (wdCode t.unit = u)).bind fun t => t.suspects.head?

/-- Whether a unit may run work of a context now: it is not in a reset, and in REPLAY only the suspect's work runs (R407, R416). -/
def State.mayRun (s : State) (u : Nat × Nat) (ctx : Nat) : Bool := match s.trialCtx u with | some x => decide (x = ctx) | none => true

/-! ## The survival store (R445 to R451) -/

def SstRec.head (r : SstRec) : List W64 :=
  [Bits.make [(63, 56, r.typ), (47, 32, 8 * r.payload.length)], BitVec.ofNat 64 r.key, BitVec.ofNat 64 r.seq, BitVec.ofNat 64 r.time] ++ r.payload

/-- A record's words as they lie in flash (R446). -/
def SstRec.words (r : SstRec) : List W64 := r.head ++ [r.crc]

def SstRec.valid (r : SstRec) : Bool := decide (r.crc = crcWords r.head)

/-- Requests a record: it takes the next SEQ and waits to become durable (R451). -/
def State.sstAdd (s : State) (typ key : Nat) (payload : List W64) : State :=
  let seq := s.fld Pg.sst F.sstSeqNext
  let r : SstRec := ⟨typ, key, seq, s.now s.hub, (s.tb s.hub).free, payload, 0⟩
  let s1 := s.setFld Pg.sst F.sstSeqNext (seq + 1)
  s1.withSst { s1.sst with wait := s1.sst.wait ++ [{ r with crc := crcWords r.head }] }

/-! ## Events (R424 to R426, R468, R492) -/

/-- Class and severity of an event code. -/
def evInfo (code : Nat) : Nat × Nat :=
  match code with
  | 0x01 => (0, 2) | 0x02 => (2, 2) | 0x03 => (2, 3)
  | 0x10 => (0, 4) | 0x11 => (0, 3) | 0x12 => (0, 4) | 0x13 => (0, 0) | 0x14 => (0, 4) | 0x15 => (0, 5) | 0x16 => (0, 3)
  | 0x17 => (0, 5) | 0x18 => (0, 4) | 0x19 => (0, 4) | 0x1A => (0, 5) | 0x1B => (0, 2) | 0x1C => (0, 2)
  | 0x20 => (0, 4) | 0x21 => (0, 6) | 0x22 => (0, 6) | 0x23 => (0, 7) | 0x24 => (0, 1) | 0x25 => (0, 5) | 0x26 => (0, 5)
  | 0x30 => (1, 4) | 0x31 => (1, 3) | 0x32 => (1, 7) | 0x33 => (1, 1) | 0x34 => (1, 1) | 0x35 => (1, 3) | 0x36 => (1, 2) | 0x37 => (1, 5)
  | 0x40 => (2, 3) | 0x41 => (2, 4) | 0x42 => (2, 1)
  | 0x50 => (2, 4) | 0x51 => (2, 1) | 0x52 => (2, 4) | 0x53 => (2, 5) | 0x54 => (2, 3) | 0x55 => (2, 5) | 0x56 => (2, 4) | 0x57 => (2, 4) | 0x58 => (2, 4)
  | _ => (0, 0)

namespace Ev
abbrev ctxAbort := 0x01
abbrev fabricAbortIn := 0x02
abbrev abortRelayV2 := 0x03
abbrev memUe := 0x10
abbrev poisonConsumed := 0x11
abbrev sramUe := 0x12
abbrev sramCe := 0x13
abbrev parity := 0x14
abbrev clDatapath := 0x15
abbrev strike := 0x16
abbrev unitFenced := 0x17
abbrev taintBackstop := 0x18
abbrev hang := 0x19
abbrev hangUnattributed := 0x1A
abbrev syncUnderflow := 0x1B
abbrev qStall := 0x1C
abbrev reset := 0x20
abbrev resetFail := 0x21
abbrev dieFenced := 0x22
abbrev outOfService := 0x23
abbrev recoveryDone := 0x24
abbrev bridgeDown := 0x25
abbrev refclkLost := 0x26
abbrev msTempLost := 0x30
abbrev lpHot := 0x31
abbrev thermtrip := 0x32
abbrev pwrLimit := 0x33
abbrev bmLimit := 0x34
abbrev tjHot := 0x35
abbrev droopWarn := 0x36
abbrev droopReset := 0x37
abbrev lkDown := 0x40
abbrev fabricId := 0x41
abbrev discChange := 0x42
abbrev secAuthFail := 0x50
abbrev svnRaised := 0x51
abbrev keyRevoked := 0x52
abbrev idtreeFail := 0x53
abbrev leafLow := 0x54
abbrev leafExhausted := 0x55
abbrev testEntry := 0x56
abbrev bootDieAlt := 0x57
abbrev keptCopyBad := 0x58
end Ev

/-- PAGE_ID bits [57:40] of a page, as UNIT of an event and KEY of a UNIT record hold them (R424, R498). -/
def unitOf (page : Nat) : Nat := pgDie page * 2 ^ 16 + pgBlk page * 2 ^ 8 + pgInst page

/-- The die that records an event: the one named, or the hub die while that one is out (log 18). -/
def State.recDie (s : State) (d : Nat) : Nat := if s.dieUp d then d else s.hub

/-- A die records an event in its ring (R424, R425); from severity 4, and for a DOWN event of a port and a strike (R106, R327), also in
the error log of the survival store. With neither that die nor CD0 nor CD3 at work nothing records it. -/
def State.event (s : State) (d code ctx unit d0 : Nat) (d1 : W64) : State :=
  let d := s.recDie d
  if !s.dieUp d then s else
  let wr := s.fld (Pg.evl d) F.evlPtrWr
  let rd := s.fld (Pg.evl d) F.evlPtrRd
  let (cls, sev) := evInfo code
  let w := [Bits.make [(63, 48, code), (47, 40, ctx), (39, 38, cls), (37, 35, sev), (33, 32, d), (31, 0, wr)],
            BitVec.ofNat 64 (s.now d), Bits.make [(63, 32, unit), (31, 0, d0)], d1]
  let s1 := s.withEvents (KMap.set [] s.events (d * 1024 + wr % 1024) (w ++ s.freeMark d))
  let s2 := if (wr - rd) % 2 ^ 32 = 1024 ∨ (2 ^ 32 + wr - rd) % 2 ^ 32 = 1024 then
      ((s1.setFld (Pg.evl d) F.evlPtrRd ((rd + 1) % 2 ^ 32)).addFld (Pg.evl d) F.evlLostCount 1).setErr (Pg.evl d) F.evlErrStatOverflow ctx
    else s1
  let s3 := s2.setFld (Pg.evl d) F.evlPtrWr ((wr + 1) % 2 ^ 32)
  if 4 ≤ sev ∨ code = Ev.lkDown ∨ code = Ev.strike then s3.sstAdd 0x04 (d * 2 ^ 32 + wr) w else s3

/-! ## UNIT records (R447, R498, R499) -/

def unitKey (page sub : Nat) : Nat := unitOf page + sub * 2 ^ 18

def State.unitRec (s : State) (key : Nat) : UnitRec := KMap.get UnitRec.reset s.sst.units key

def UnitRec.words (u : UnitRec) : List W64 :=
  let three : List Nat → List W64 := fun l => (List.range 3).map fun i => BitVec.ofNat 64 (l.getD i 0)
  [Bits.make [(63, 63, if u.fenced then 1 else 0), (3, 0, u.cause)]] ++ three u.strikes ++ three u.downs ++ three u.resets

/-- The UNIT record that ten payload words hold. -/
def UnitRec.ofWords (ws : List W64) : UnitRec :=
  let g := fun i => (ws.getD i 0).toNat
  let three := fun i => ([g i, g (i + 1), g (i + 2)].filter (· ≠ 0))
  ⟨(ws.getD 0 0).getLsbD 63, g 0 % 16, three 1, three 4, three 7⟩

/-- Writes a unit's record: the package's copy, and a record to the survival store. -/
def State.putUnit (s : State) (key : Nat) (u : UnitRec) : State :=
  (s.withSst { s.sst with units := KMap.set UnitRec.reset s.sst.units key u }).sstAdd 0x03 key u.words

def State.unitFenced (s : State) (key : Nat) : Bool := (s.unitRec key).fenced

/-- Marks a unit fenced for a cause; the first cause stays (R499). -/
def State.markFenced (s : State) (key cause : Nat) : State :=
  let u := s.unitRec key
  if u.fenced then s else s.putUnit key { u with fenced := true, cause := cause }

def State.liftFence (s : State) (key : Nat) : State :=
  let u := s.unitRec key
  s.putUnit key { u with fenced := false, cause := 0 }

/-- Stamps of a history that lie within a window of now. -/
def within (now win : Nat) (l : List Nat) : List Nat := l.filter fun t => decide ((now - t) + (t - now) ≤ win)

/-! ## Engine STATE codes (R112, R164, R246, R363) -/
namespace Eng
abbrev idle := 0
abbrev busy := 1
abbrev fenced := 2
abbrev selftest := 3
abbrev selftestPass := 4
abbrev selftestFail := 5
abbrev waitEntry := 6
end Eng

/-- STATE of an engine page: 2 to 5 are out of service (R110, R111). -/
def outOfSvc (st : Nat) : Bool := decide (2 ≤ st ∧ st ≤ 5)

def State.mxe (s : State) (e : Nat) : Mxe := KMap.get Mxe.reset s.mxes e
def State.setMxe (s : State) (e : Nat) (m : Mxe) : State := s.withMxes (KMap.set Mxe.reset s.mxes e m)
def State.mxeUp (s : State) (e : Nat) : Bool := s.dieUp (e / 48) && !outOfSvc (s.fld (Pg.mxe e) F.mxeStatState)
def State.vxe (s : State) (v : Nat) : Option ChainRun := KMap.get none s.vxes v
def State.setVxe (s : State) (v : Nat) (r : Option ChainRun) : State := s.withVxes (KMap.set none s.vxes v r)
def State.vxeUp (s : State) (v : Nat) : Bool := s.dieUp (v / 24) && !outOfSvc (s.fld (Pg.vxe v) F.vxeStatState)
def State.uu (s : State) (u : Nat) : Uu := KMap.get Uu.reset s.uus u
def State.setUu (s : State) (u : Nat) (x : Uu) : State := s.withUus (KMap.set Uu.reset s.uus u x)
def uuDie (u : Nat) : Nat := if u < 20 then u / 5 else (u - 20) / 4
def State.uuUp (s : State) (u : Nat) : Bool := s.dieUp (uuDie u) && !outOfSvc (s.fld (Pg.uu u) F.uuStatState)
def State.clu (s : State) (c : Nat) : Cluster := KMap.get Cluster.reset s.clusters c
def State.setClu (s : State) (c : Nat) (x : Cluster) : State := s.withClusters (KMap.set Cluster.reset s.clusters c x)
def State.core (s : State) (c : Nat) : Core := KMap.get Core.reset s.cores c
def State.setCore (s : State) (c : Nat) (x : Core) : State := s.withCores (KMap.set Core.reset s.cores c x)

/-- Slots of the cores of a cluster: steward, then ostlers (R4). -/
def stewardOf (c : Nat) : Nat := c
def ostlerOf (c k : Nat) : Nat := 48 + 6 * c + k
def coreSlot (c k : Nat) : Nat := if k = 0 then c else 48 + 6 * c + (k - 1)
/-- The cluster of a core slot below 336, and its place among the cluster's cores. -/
def clusterOfSlot (p : Nat) : Nat := if p < 48 then p else (p - 48) / 6
def coreIndex (p : Nat) : Nat := if p < 48 then 0 else (p - 48) % 6 + 1

/-- A context's partition (R6; log 10). -/
def State.partOf (s : State) (ctx : Nat) : Nat := if ctx = 0 then 0 else KMap.get 0 s.ms.part ctx

/-- The context a cluster runs, if it is allocated (R163). -/
def State.cluCtx (s : State) (c : Nat) : Option Nat :=
  if s.bitF (Pg.clu c) F.cluCtxValid then some (s.fld (Pg.clu c) F.cluCtxCtx) else none

/-- The context that a cluster's cores and engines act for: CLU.CTX names it (R163); with VALID = 0 its SRAM is out of its reach
(R190; log 103). -/
def State.runCtx (s : State) (c : Nat) : Nat := s.fld (Pg.clu c) F.cluCtxCtx

/-- Element k of a list of descriptor words. -/
def wd (ws : List W64) (k : Nat) : W64 := ws.getD k 0
/-- Field [hi:lo] of word k. -/
def wf (ws : List W64) (k hi lo : Nat) : Nat := Bits.get (wd ws k) hi lo

end Sys2Proof.Machine
end

