-- ==== Sys2Proof/Machine/Memory.lean ====
section
/-! DEFINITION. Memory (07): the local address map, regions and their spread over members and channels, who may reach an
address, poison, loads and stores, and the tollgates' charge. -/

namespace Sys2Proof.Machine

/-! ## Address map (R189) -/

def clusterBase (c : Nat) : Nat := 0xF00000000000 + 0x2000000 * c
def sharedBase (d : Nat) : Nat := 0xF10000000000 + 0x4000000 * d
def windowBase : Nat := 0xFF0000000000

/-- Where a local address lies: cluster SRAM, die-shared SRAM (by its local address), the register window, or a member unit
of region r at a member offset (units 0 to 19 are stacks, 20 to 51 LPDDR packages). -/
inductive Place where
  | cluster (c : Nat)
  | shared (d seg : Nat)
  | window
  | unit (r u moff : Nat)
  deriving DecidableEq, Repr

/-- The members a mode may have, in the order of R195; a unit is 0 to 19 for stacks, 20 + k for LPk. -/
def memberOrder (tier : Bool) (mode target : Nat) : List Nat :=
  match mode, tier with
  | 0, false => (List.range 5).flatMap fun k => (List.range 4).map fun n => 5 * n + k
  | 0, true => (List.range 8).flatMap fun k => (List.range 4).map fun n => 20 + 8 * n + k
  | 1, false => (List.range 5).map fun k => 5 * target + k
  | 1, true => (List.range 8).map fun k => 20 + 8 * target + k
  | 2, false => [target]
  | 2, true => [20 + target]
  | _, _ => []

/-- A region of the table, as its registers hold it (R216). -/
structure Region where
  valid : Bool
  sync : Bool
  tier : Bool
  mode : Nat
  target : Nat
  part : Nat
  members : Nat
  lbase : Nat
  size : Nat
  slice : Nat
  deriving DecidableEq, Repr

def State.region (s : State) (r : Nat) : Region :=
  let p := Pg.map + 32 * r
  { valid := s.bitF p F.mapRgnCfgValid, sync := s.bitF p F.mapRgnCfgSync, tier := s.bitF p F.mapRgnCfgTier
    mode := s.fld p F.mapRgnCfgMode, target := s.fld p F.mapRgnCfgTarget, part := s.fld p F.mapRgnCfgPart
    members := s.fld p F.mapRgnCfgMembers, lbase := s.fld p F.mapRgnBaseLbase * 2 ^ 16
    size := s.fld p F.mapRgnSizeSize * 2 ^ 16, slice := s.fld p F.mapRgnSliceSlice * 2 ^ 16 }

def Region.memberList (g : Region) : List Nat :=
  (memberOrder g.tier g.mode g.target).filter fun u => g.members.testBit (if g.tier then u - 20 else u)

/-- Granule of R195; for mode 2 the whole region. -/
def Region.granule (g : Region) : Nat := if g.mode = 0 then 4096 else if g.mode = 1 then 256 else max 1 g.size

/-- The member and member offset of an address (R196). -/
def Region.spread (g : Region) (a : Nat) : Nat × Nat :=
  let ms := g.memberList
  let off := a - g.lbase
  let i := off / g.granule
  (ms.getD (i % max 1 ms.length) 0, g.slice + i / max 1 ms.length * g.granule + off % g.granule)

/-- The valid region that covers an address. -/
def State.regionAt (s : State) (a : Nat) : Option Nat :=
  (List.range 64).find? fun r => let g := s.region r; g.valid && decide (g.lbase ≤ a ∧ a < g.lbase + g.size)

/-- Where a local address lies; none: unmapped (R189). -/
def State.place (s : State) (a : Nat) : Option Place :=
  if a < 0xF00000000000 then
    match s.regionAt a with
    | some r => let (u, m) := (s.region r).spread a; some (.unit r u m)
    | none => none
  else if a < 0xF00000000000 + 48 * 0x2000000 then
    let o := a - 0xF00000000000
    if o % 0x2000000 < 0x1800000 then some (.cluster (o / 0x2000000)) else none
  else if 0xF10000000000 ≤ a ∧ a < 0xF10000000000 + 4 * 0x4000000 then
    let o := a - 0xF10000000000
    some (.shared (o / 0x4000000) (o % 0x4000000 / 2 ^ 20))
  else if 0xFF0000000000 ≤ a ∧ a < 0xFF0004000000 then some .window
  else none

/-- The key of a byte: member unit and offset, or the local address itself for SRAM. -/
def Place.key (p : Place) (a : Nat) : Nat := match p with | .unit _ u m => u * 2 ^ 38 + m | _ => a

/-- The die a place lies on, for tollgates and services. -/
def Place.die (p : Place) : Nat :=
  match p with | .cluster c => c / 12 | .shared d _ => d | .window => 0 | .unit _ u _ => if u < 20 then u / 5 else (u - 20) / 8

/-- The home controller of a place as an update unit index (R182, R196): 0 to 19 for stacks, 20 to 35 for LCkk. -/
def Place.homeUnit (p : Place) : Nat := match p with | .unit _ u _ => if u < 20 then u else 20 + (u - 20) / 2 | _ => 0

/-! ## Units in service (R213, R215) -/

def stackKey (k : Nat) : Nat := unitKey (Pg.msc k) 32

def State.chanFenced (s : State) (k ch : Nat) : Bool := (s.fld (Pg.msc k) F.mscFenceChan).testBit ch
def State.stackFenced (s : State) (k : Nat) : Bool := s.unitFenced (stackKey k)
def State.lpFenced (s : State) (k : Nat) : Bool := (s.reg (Pg.lpc (k / 2) + 0x118)).getLsbD (k % 2)

/-- A stack is in service with at least one channel in service (MAP.INSVC); an LPDDR package when not fenced. -/
def State.unitUp (s : State) (u : Nat) : Bool :=
  if u < 20 then s.dieUp (u / 5) && !s.stackFenced u && decide (s.fld (Pg.msc u) F.mscFenceChan ≠ 2 ^ 32 - 1)
  else s.dieUp ((u - 20) / 8) && !s.lpFenced (u - 20)

/-- The channel list that a region was validated with on a member, stacks and LPDDR packages alike (R501). -/
def State.chanList (s : State) (r u : Nat) : List Nat := KMap.get [] s.ms.chans (r * 64 + u)

/-- The channel of a member offset of a region's slice (R501). -/
def State.channelOf (s : State) (r u moff : Nat) : Nat :=
  let l := s.chanList r u
  l.getD ((moff - (s.region r).slice) / 256 % max 1 l.length) 0

/-- Whether the unit that backs a place is fenced (R215), or the segment of die-shared SRAM (R398), or the whole die (R26, R401; log 51). -/
def State.placeFenced (s : State) (p : Place) : Bool :=
  match p with
  | .unit r u m => s.plat.dieFenced.getLsbD p.die || (if u < 20 then s.stackFenced u || s.chanFenced u (s.channelOf r u m) else s.lpFenced (u - 20))
  | .shared d seg => s.plat.dieFenced.getLsbD d || s.unitFenced (unitKey (Pg.isl d 34) 1 + seg * 2 ^ 24)
  | .cluster c => s.plat.dieFenced.getLsbD (c / 12)
  | .window => false

/-! ## Who may reach an address (R190, R197, R257) -/

def ownerOfSeg (s : State) (d seg : Nat) : Nat := Bits.get (s.reg (Pg.map + 0xA00 + 8 * (4 * d + seg / 16))) (4 * (seg % 16) + 3) (4 * (seg % 16))

/-- A version-table copy's range (R257, R271). -/
def State.inVtbl (s : State) (f : Fld) (v : Fld) (a : Nat) : Bool :=
  let base := s.fld Pg.stg f * 128
  s.bitF Pg.stg v && decide (base ≤ a ∧ a < base + 128 * (Bits.get (s.reg (Pg.stg + f.off)) 63 48 + 1))

def State.inVtable (s : State) (a : Nat) : Bool :=
  s.inVtbl F.stgVtblABase F.stgVtblAValid a || s.inVtbl F.stgVtblBBase F.stgVtblBValid a

/-- Whether a partition and context reach a place: the status of the access (R189, R190, R197, R257). -/
def State.reach (s : State) (ctx part : Nat) (a : Nat) (p : Place) : Nat :=
  match p with
  | .cluster c => if ctx = 0 ∨ s.cluCtx c = some ctx then St.ok else St.partViolation
  | .shared d seg => if ctx = 0 ∨ ownerOfSeg s d seg = part then St.ok else St.partViolation
  | .window => if ctx = 0 then St.ok else St.partViolation
  | .unit r _ _ =>
    if ctx = 0 then St.ok
    else if s.inVtable a then St.partViolation
    else if (s.region r).part = part then St.ok else St.partViolation

/-- Where an access to n bytes is checked: at its first address and at each multiple of 64 in it. Every boundary of the map, of a
region and its granules, of an owner and of a version-table entry is such a multiple (R189, R190, R193, R257, R501). -/
def checkPoints (a n : Nat) : List Nat :=
  if n = 0 then [] else a :: (List.range ((a % 64 + n - 1) / 64)).map fun i => a / 64 * 64 + 64 * (i + 1)

/-- The status of an access to n bytes: of its first address that is unmapped or out of reach (R189, R190, R197). -/
def State.memCheckAs (s : State) (ctx part a n : Nat) : Nat :=
  (checkPoints a n).foldl (fun st x =>
    if st ≠ St.ok then st else
    match s.place x with
    | none => St.addrUnmapped
    | some p => s.reach ctx part x p) St.ok

def State.memCheck (s : State) (ctx a n : Nat) : Nat := s.memCheckAs ctx (s.partOf ctx) a n

/-! ## Bits beside the data -/

/-- Whether the word at an address keeps full/empty and poison bits: SRAM, and sync regions (R209, R210). -/
def State.hasWordBits (s : State) (p : Place) : Bool :=
  match p with | .cluster _ => true | .shared _ _ => true | .window => false | .unit r _ _ => (s.region r).sync

def State.fullAt (s : State) (key : Nat) : Bool := KMap.get false s.mem.full (key / 8)
def State.setFull (s : State) (key : Nat) (b : Bool) : State := s.withMem { s.mem with full := KMap.set false s.mem.full (key / 8) b }
def State.poisonAt (s : State) (key : Nat) : Bool := KMap.get false s.mem.poison (key / 8)
def State.setPoison (s : State) (key : Nat) (b : Bool) : State := s.withMem { s.mem with poison := KMap.set false s.mem.poison (key / 8) b }
def State.lineAt (s : State) (key : Nat) : Bool := KMap.get false s.mem.lines (key / 64)
def State.setLine (s : State) (key : Nat) (b : Bool) : State := s.withMem { s.mem with lines := KMap.set false s.mem.lines (key / 64) b }

/-- The claim whose range holds a local address. -/
def State.claimAt (s : State) (a : Nat) : Option Claim :=
  (s.sync.claims.filterMap (·.2)).find? fun c => decide (c.base ≤ a ∧ a < c.base + c.len)

/-- A word of a LOST claim is seen as POISON_EMPTY from the loss instant (R283). -/
def State.lostAt (s : State) (a : Nat) : Bool := match s.claimAt a with | some c => c.lost | none => false

/-- Whether the byte at a local address reads poisoned (R209, R210, R214, R215, R283). -/
def State.poisonedAt (s : State) (a : Nat) : Bool :=
  match s.place a with
  | none => false
  | some p => s.placeFenced p || s.lostAt a || (if s.hasWordBits p then s.poisonAt (p.key a) else match p with
      | .unit _ _ _ => s.lineAt (p.key a) | _ => false)

/-! ## Loads and stores -/

/-- What a byte that nothing has written reads as (R209, R421; log 3). -/
def unlisted : Byte := 0

def State.byteKey (s : State) (key : Nat) : Byte := KMap.get unlisted s.mem.bytes key

/-- The byte at a local address. -/
def State.byteAt (s : State) (a : Nat) : Byte := match s.place a with | some p => s.byteKey (p.key a) | none => unlisted

def State.loadNat (s : State) (a n : Nat) : Nat := leBytes s.byteAt a n
def State.load64 (s : State) (a : Nat) : W64 := BitVec.ofNat 64 (s.loadNat a 8)
def State.loadWords (s : State) (a n : Nat) : List W64 := (List.range n).map fun i => s.load64 (a + 8 * i)
def State.loadPoison (s : State) (a n : Nat) : Bool := (List.range n).any fun i => s.poisonedAt (a + i)

/-- Whether an address lies in a version-table entry whose VALID bit is 1: CX000 does not write there (R257). -/
def State.vtLocked (s : State) (a : Nat) : Bool :=
  let inCopy := fun (f v : Fld) => s.inVtbl f v a && (s.load64 ((a - s.fld Pg.stg f * 128) / 128 * 128 + s.fld Pg.stg f * 128)).getLsbD 63
  inCopy F.stgVtblABase F.stgVtblAValid || inCopy F.stgVtblBBase F.stgVtblBValid

/-- Whether n bytes from an address meet a copy of the version table (R257). -/
def State.vtableMeets (s : State) (a n : Nat) : Bool :=
  [(F.stgVtblABase, F.stgVtblAValid), (F.stgVtblBBase, F.stgVtblBValid)].any fun c =>
    let base := s.fld Pg.stg c.1 * 128
    s.bitF Pg.stg c.2 && decide (base < a + n ∧ a < base + 128 * (Bits.get (s.reg (Pg.stg + c.1.off)) 63 48 + 1))

/-- A write's check: also the valid entries of the version table (R257). -/
def State.memCheckW (s : State) (ctx a n : Nat) : Nat :=
  let st := s.memCheck ctx a n
  if st ≠ St.ok then st
  else if ctx = 0 && (checkPoints a n).any s.vtLocked then St.partViolation
  else St.ok

/-- Whether a fenced unit backs the byte at an address (R215). -/
def State.fencedAt (s : State) (a : Nat) : Bool := match s.place a with | some p => s.placeFenced p | none => false

/-- The status of a write of n bytes that passed its check: MEM_FENCED where a fenced unit backs some of them. The write has no effect
there, and its effect elsewhere (R215). -/
def State.wrote (s : State) (a n : Nat) : Nat := if (checkPoints a n).any s.fencedAt then St.memFenced else St.ok

/-- How many of n bytes a fenced unit backs. -/
def State.fencedBytes (s : State) (a n : Nat) : Nat :=
  (checkPoints a n).foldl (fun m x => if s.fencedAt x then m + (min (x / 64 * 64 + 64) (a + n) - x) else m) 0

def State.putByte (s : State) (key : Nat) (b : Byte) : State := s.withMem { s.mem with bytes := KMap.set unlisted s.mem.bytes key b }

/-- The poison bits of the word, or line, of a place after a store of some of its bytes: a store of every byte sets them to
the poison of the data, a narrower store of poisoned data sets them, another leaves them (R209, R210, R214). -/
def State.markStore (s : State) (p : Place) (a : Nat) (touched : List Nat) (poison : Bool) : State :=
  let k := p.key a
  if s.hasWordBits p then
    let whole := (List.range 8).all fun i => touched.contains (a / 8 * 8 + i)
    if whole || poison then s.setPoison k poison else s
  else match p with
    | .unit _ _ _ =>
      let whole := (List.range 64).all fun i => touched.contains (a / 64 * 64 + i)
      if whole || poison then s.setLine k poison else s
    | _ => s

/-- The memory lines, not in sync regions, that a store reaches (R214). -/
def State.linesOf (s : State) (touched : List Nat) : List (Nat × Nat) :=
  (touched.filterMap fun a => match s.place a with
    | some (.unit r u m) => if (s.region r).sync || s.placeFenced (.unit r u m) then none else some (u, m / 64)
    | _ => none).eraseDups

/-- POISON_WR of the controller of each line written poisoned (R218, R219). -/
def State.countPoisonWr (s : State) (ls : List (Nat × Nat)) : State :=
  ls.foldl (fun s l => if l.1 < 20 then s.addFld (Pg.msc l.1) F.mscEccPoisonWr 1 else s.addFld (Pg.lpc ((l.1 - 20) / 2)) F.lpcEccPoisonWr 1) s

/-- Stores bytes at local addresses; a byte that a fenced unit backs is not written (R215). -/
def State.storeBytes (s : State) (bs : List (Nat × Byte)) (poison : Bool) : State :=
  let touched := bs.map (·.1)
  bs.foldl (fun s ab =>
    match s.place ab.1 with
    | none => s
    | some .window => s
    | some p => if s.placeFenced p then s else (s.putByte (p.key ab.1) ab.2).markStore p ab.1 touched poison)
    (if poison then s.countPoisonWr (s.linesOf touched) else s)

def addrBytes (a : Nat) (bs : List Byte) : List (Nat × Byte) := bs.zipIdx.map fun (b, i) => (a + i, b)

def State.storeNat (s : State) (a n v : Nat) : State := s.storeBytes (addrBytes a (natBytes n v)) false
def State.storeWords (s : State) (a : Nat) (ws : List W64) : State := s.storeBytes (addrBytes a (wordsBytes ws)) false

/-- A range of n bytes at a, cut at multiples of w: first address and length of each piece. -/
def cuts (w : Nat) : Nat → Nat → Nat → List (Nat × Nat)
  | 0, _, _ => []
  | fuel + 1, a, n => if n = 0 then [] else let m := min n (w - a % w); (a, m) :: cuts w fuel (a + m) (n - m)

/-- Stores bytes from an address on, each word, or line, poisoned when a byte i of it is bad (R209, R214). -/
def State.storeMarked (s : State) (a : Nat) (bs : List Byte) (bad : Nat → Bool) : State :=
  let w := match s.place a with | some p => if s.hasWordBits p then 8 else 64 | none => 64
  (cuts w bs.length a bs.length).foldl (fun s c =>
    s.storeBytes (addrBytes c.1 ((bs.drop (c.1 - a)).take c.2)) ((List.range c.2).any fun i => bad (c.1 - a + i))) s

/-- Moves n bytes, poison with them. -/
def State.moveBytes (s : State) (src dst n : Nat) : State :=
  s.storeMarked dst ((List.range n).map fun i => s.byteAt (src + i)) fun i => s.poisonedAt (src + i)

/-- The bytes that bit fields (bit address, width, value) leave, over what memory holds. -/
def State.overlay (s : State) (fields : List (Nat × Nat × Nat)) : KMap Byte :=
  fields.foldl (fun m (bit, w, v) =>
    (List.range ((bit % 8 + w + 7) / 8)).foldl (fun m i =>
      let a := bit / 8 + i
      let old := (match KMap.find m a with | some b => b | none => s.byteAt a).toNat
      let lo := if i = 0 then bit % 8 else 0
      let done := if i = 0 then 0 else 8 * i - bit % 8
      let n := min (8 - lo) (w - done)
      let part := v / 2 ^ done % 2 ^ n
      KMap.insert (KMap.erase m a) a (BitVec.ofNat 8 (old / 2 ^ (lo + n) * 2 ^ (lo + n) + part * 2 ^ lo + old % 2 ^ lo))) m) []

def State.storeFields (s : State) (fields : List (Nat × Nat × Nat)) (poison : Bool) : State := s.storeBytes (s.overlay fields) poison

/-! ## Tollgates (R205 to R207) -/

def bucket (part : Nat) (tier wr : Bool) : Nat := 4 * part + (if tier then 2 else 0) + (if wr then 1 else 0)

/-- A request of cost c at a bucket: admitted when the bucket is off or holds enough and nothing waits before it; else held
(R206). The data of the request that the bucket lacks tokens for moves as it is issued; every later access of the bucket waits (gateShut; log 19). -/
def State.tollRequest (s : State) (d b c : Nat) : State :=
  let p := Pg.toll d + 8 * b
  if !s.bitF p F.tollBktEn then s else
  let held := KMap.get [] s.ms.held (d * 64 + b)
  let lvl := s.fld p F.tollLevelLevel
  if held.isEmpty && decide (c ≤ lvl) then s.setFld p F.tollLevelLevel (lvl - c)
  else
    let s1 := s.withMs { s.ms with held := KMap.set [] s.ms.held (d * 64 + b) (held ++ [c]) }
    if held.isEmpty then (s1.withMs { s1.ms with heldSince := KMap.set 0 s1.ms.heldSince (d * 64 + b) (s.now d + 1) }) else s1

/-- The costs of an access of n bytes: requests of at most 256 bytes, one token per 64 bytes (R206). -/
def tollCosts (n : Nat) : List Nat :=
  List.replicate (n / 256) 4 ++ (if n % 256 = 0 then [] else [(n % 256 + 63) / 64])

/-- Charges an access that a unit on die d makes for a partition, each part in the bucket of the tier it lies in; a region ends on a
multiple of 64 KiB. SRAM passes no tollgate (R205). -/
def State.charge (s : State) (d part a n : Nat) (wr : Bool) : State :=
  (cuts 65536 n a n).foldl (fun s c =>
    match s.place c.1 with
    | some (.unit r _ _) => (tollCosts c.2).foldl (fun s cost => s.tollRequest d (bucket part (s.region r).tier wr) cost) s
    | _ => s) s

/-- Whether an access finds a request held in one of its buckets: it is a later request of that bucket, and waits for TOLL_REFILL to admit what
stands before it (R206; log 19). -/
def State.gateShut (s : State) (d part a n : Nat) (wr : Bool) : Bool :=
  !s.ms.held.isEmpty && (cuts 65536 n a n).any fun c =>
    match s.place c.1 with
    | some (.unit r _ _) => !(KMap.get [] s.ms.held (d * 64 + bucket part (s.region r).tier wr)).isEmpty
    | _ => false

/-- The same of an access to single bytes at many addresses. -/
def State.gateShuts (s : State) (d part : Nat) (l : List Nat) (wr : Bool) : Bool := !s.ms.held.isEmpty && l.any fun a => s.gateShut d part a 1 wr

end Sys2Proof.Machine
end

