-- ==== Sys2Proof/Machine/Operands.lean ====
section
/-! DEFINITION. The operand forms of the core instructions (R156): general registers, the second operand, immediates, scratch,
descriptors in scratch, and how an instruction ends, waits or is illegal. -/

namespace Sys2Proof.Machine

/-- A general register; G0 reads as zero (R156). -/
def State.g (s : State) (c r : Nat) : W64 := if r = 0 then 0 else KMap.get 0 (s.core c).g r

/-- Writes a general register; G0 ignores it (R156). -/
def State.setG (s : State) (c r : Nat) (v : W64) : State :=
  if r = 0 then s else let k := s.core c; s.setCore c { k with g := KMap.set 0 k.g r v }

def State.setPc (s : State) (c : Nat) (v : W64) : State := s.setCore c { s.core c with pc := v }

/-- The pc moves past a 32-bit instruction (R156). -/
def State.nextPc (s : State) (c : Nat) : State := s.setPc c ((s.core c).pc + 4)

/-- An instruction ends with a value in RD. -/
def State.ret (s : State) (c rd : Nat) (v : W64) : State := (s.setG c rd v).nextPc c
def State.retSt (s : State) (c rd st : Nat) : State := s.ret c rd (BitVec.ofNat 64 st)
/-- A pair form ends: status in RD, data in RD + 1 (R275). -/
def State.retPair (s : State) (c rd st : Nat) (v : W64) : State := ((s.setG c rd (BitVec.ofNat 64 st)).setG c (rd + 1) v).nextPc c

/-- A pair form that has no data to return: RD + 1 gets a free value (log 34). -/
def State.retNone (s : State) (c rd st : Nat) : State := let (v, s1) := s.draw; s1.retPair c rd st v

/-- The second operand of an ALU instruction (R156): a register, or a signed immediate. -/
def State.src2 (s : State) (c : Nat) : AluSrc → W64
  | .reg r => s.g c r
  | .imm v => v.signExtend 64

/-- A core waits for something. -/
def State.waits (s : State) (c : Nat) : Bool := s.sync.waiters.any fun w => decide (w.slot = c)

/-- An instruction waits: its core joins the waiters, last (R277). -/
def State.wait (s : State) (c rd : Nat) (why : Why) : State := s.withSync { s.sync with waiters := s.sync.waiters ++ [⟨c, rd, why⟩] }

def State.unwait (s : State) (c : Nat) : State := s.withSync { s.sync with waiters := s.sync.waiters.filter fun w => decide (w.slot ≠ c) }

/-- The die that an operation runs on: its porter group's, or the one that the sealing engine or the stage links put from (log 42, 129). -/
def PortOp.die (o : PortOp) : Nat := if o.group < 8 then o.group / 2 else o.group % 4

/-- Whether a core or the host submitted an operation, which then has a record. -/
def PortOp.ofPorter (o : PortOp) : Bool := decide (o.group < 8)

/-- Segment mode (R225). -/
def UpdCmd.fmtW (k : UpdCmd) : Fmt := .ofWord (wf k.words 4 63 48)
def UpdCmd.cols (k : UpdCmd) : Nat := wf k.words 2 31 0
def UpdCmd.segMode (k : UpdCmd) : Bool := decide (k.fmtW.slcap ≠ 0 ∧ 1 ≤ k.fmtW.blk ∧ k.fmtW.blk ≤ 5 ∧ 1024 < k.cols ∧ k.cols % 1024 ≠ 0)

/-- Units that still owe a segment pass (R225). -/
def UpdCmd.owed (k : UpdCmd) : List Nat := if k.segMode then ((k.done.map fun t => t.2.1).eraseDups).filter fun u => !k.passed.contains u else []

/-- Whether a running command has work left on a unit: a chunk to run, a journal that is not written back, or a segment pass. -/
def State.unitHas (s : State) (k : UpdCmd) (u : Nat) : Bool :=
  k.running && ((k.todo.any fun t => decide (t.2 = u)) || (s.journals.any fun j => decide (j.unit = u ∧ j.sq = k.sq ∧ j.seq = k.seq)) || k.owed.contains u)

/-- Whether a unit has started a command: a chunk of it is done or in a journal there, or its prologue has run. -/
def State.unitBegan (s : State) (k : UpdCmd) (u : Nat) : Bool :=
  (k.done.any fun t => decide (t.2.1 = u)) || (s.journals.any fun j => decide (j.unit = u ∧ j.sq = k.sq ∧ j.seq = k.seq)) || k.ready.contains u

/-- The update command whose loaded prologue a unit's core executes (R227). -/
def State.unitCmd (s : State) (u : Nat) : Option UpdCmd :=
  s.upd.find? fun k => k.running && decide (wf k.words 0 47 40 = 0) && !k.ready.contains u && k.todo.any fun t => decide (t.2 = u)

/-- The context a core runs for: the one that its cluster's CLU.CTX names, the update command's of a prologue core, or CX000 for a courier (log 20). -/
def State.coreCtx (s : State) (c : Nat) : Nat :=
  if c < 336 then s.runCtx (clusterOfSlot c)
  else if c < 340 then 0
  else match s.unitCmd (c - 340) with | some k => wf k.words 0 55 48 | none => 0

/-- The die of a core slot. -/
def slotDie (c : Nat) : Nat := if c < 336 then clusterOfSlot c / 12 else if c < 340 then c - 336 else uuDie (c - 340)

/-- A core executes an instruction only while it runs, waits for nothing, and its die and unit are in service (log 6). -/
def State.coreRuns (s : State) (c : Nat) : Bool :=
  s.dieUp (slotDie c) && !s.waits c && !(decide (c < 336) && s.inReset [(2, c), (9, clusterOfSlot c)]) &&
  (if c < 336 then (s.fld (Pg.clu (clusterOfSlot c)) F.cluCoreRun).testBit (coreIndex c)
   else if c < 340 then !outOfSvc (s.fld (Pg.crr (c - 336)) F.crrStatState)
   else s.uuUp (c - 340) && (s.unitCmd (c - 340)).isSome)

/-- An instruction raises a status against the context of its core. -/
def State.raise (s : State) (c st : Nat) : State := s.setCore c { s.core c with raised := st }

/-- The major opcodes of a core's profile (R157, R158). -/
def profile (c : Nat) : List Nat :=
  if c < 48 then [0, 1, 2, 3, 4, 5, 6, 7, 8, 9, 0x10, 0x12]
  else if c < 336 then [0, 1, 2, 3, 4, 5, 6, 7, 8, 9, 0x11]
  else if c < 340 then [0, 1, 2, 3, 4, 5, 7, 8, 9, 0x14]
  else [0, 1, 2, 3, 4, 5, 6, 9, 0x13]

/-- Whether a presented opcode is reserved or outside a core's profile. -/
def badOpc (c : Nat) : Opc → Bool
  | .own => false
  | .other x => !(profile c).contains x.toNat

/-- ILLEGAL_INSN against the running context (R157): the status raised, and the error bit of the cluster's or unit's page (a courier's
has none); nothing else, and the pc moves on (log 21). -/
def State.illegal (s0 : State) (c : Nat) : State :=
  let ctx := s0.coreCtx c
  let s := s0.raise c St.illegalInsn
  (if c < 336 then s.setErr (Pg.clu (clusterOfSlot c)) F.cluErrStatIllegalInsn ctx
   else if c < 340 then s else s.setErr (Pg.uu (c - 340)) F.uuErrStatIllegalInsn ctx).nextPc c

/-! ## Scratch (R158) -/

def scratchSize : Nat := 131072
/-- DESIGN CHOICE (log 125): an address at or above 128 KiB wraps; R158 does not say. -/
def scratchKey (c a : Nat) : Nat := c * scratchSize + a % scratchSize
def State.scratchByte (s : State) (c a : Nat) : Byte := KMap.get unlisted s.scratch (scratchKey c a)
def State.setScratchByte (s : State) (c a : Nat) (b : Byte) : State := s.withScratch (KMap.set unlisted s.scratch (scratchKey c a) b)
def State.scratchNat (s : State) (c a n : Nat) : Nat := leBytes (s.scratchByte c) a n
def State.scratchWord (s : State) (c a : Nat) : W64 := BitVec.ofNat 64 (s.scratchNat c a 8)
def State.scratchWords (s : State) (c a n : Nat) : List W64 := (List.range n).map fun i => s.scratchWord c (a + 8 * i)
def State.setScratchBytes (s : State) (c a : Nat) (bs : List Byte) : State := bs.zipIdx.foldl (fun s (b, i) => s.setScratchByte c (a + i) b) s
def State.setScratchWords (s : State) (c a : Nat) (ws : List W64) : State := s.setScratchBytes c a (wordsBytes ws)

end Sys2Proof.Machine
end

