-- ==== Sys2Proof/Machine/SyncOps.lean ====
section
/-! DEFINITION. The synchronisation operations that instructions, completion actions, aborts and resets share (10): words and
their wait queues, signals, barriers, completion actions, the loss of a context's claims. -/

namespace Sys2Proof.Machine

/-! ## Synchronising words (R273 to R278) -/

/-- This package's device number (R338). -/
def State.dev (s : State) : Nat := s.fld Pg.dsc F.dscStatDev

/-- The checks of R274 on a package address, in order. -/
def State.wordCheck (s : State) (ctx : Nat) (a : W64) : Nat :=
  let l := a.toNat % 2 ^ 48
  if a.toNat % 8 ≠ 0 ∨ a.toNat / 2 ^ 48 ≠ s.dev then St.protocolErr else
  match s.place l with
  | none => St.addrUnmapped
  | some p => if !s.hasWordBits p then St.protocolErr else s.reach ctx (s.partOf ctx) l p

/-- The key of the byte at a local address. -/
def State.keyOf (s : State) (l : Nat) : Nat := match s.place l with | some p => p.key l | none => l

/-- Full and poison of a word as seen: a word of a LOST claim is POISON_EMPTY (R283). -/
def State.wordState (s : State) (l : Nat) : Bool × Bool :=
  if s.lostAt l then (false, true) else (s.fullAt (s.keyOf l), s.poisonAt (s.keyOf l))

/-- Stores a whole word by an operation that the table of R276 gives: data, full bit, poison bit. -/
def State.setWord (s : State) (l : Nat) (v : W64) (full poison : Bool) : State :=
  let k := s.keyOf l
  let s1 := (wordBytes v).zipIdx.foldl (fun s (b, i) => s.putByte (k + i) b) s
  (s1.setFull k full).setPoison k poison

/-- A full/empty operation on a word. -/
inductive WordOp where
  | ldfe
  | ldfn
  | stef (v : W64)
  | finc (n : W64)
  | fdec (n : W64)
  | fini (full : Bool) (v : W64)
  deriving DecidableEq, Repr

/-- What an operation does on a word: none while it waits, else its status, its data if it returns any, and the state (R276, R278). -/
def State.wordOp (s : State) (l : Nat) (op : WordOp) : Option (Nat × Option W64 × State) :=
  let (full, poison) := s.wordState l
  let v := s.load64 l
  match op with
  | .fini f x => if s.lostAt l then some (St.ownerLost, none, s) else some (St.ok, none, s.setWord l x f false)
  | .stef x =>
    if full then none else if poison then some (St.ownerLost, none, s) else some (St.ok, none, s.setWord l x true false)
  | .ldfe =>
    if !full then (if poison then some (St.ownerLost, none, s) else none)
    else if poison then some (St.poisoned, some v, s.setWord l v false false) else some (St.ok, some v, s.setWord l v false false)
  | .ldfn =>
    if !full then (if poison then some (St.ownerLost, none, s) else none)
    else if poison then some (St.poisoned, some v, s) else some (St.ok, some v, s)
  | .finc n =>
    if n = 0 then some (St.protocolErr, none, s) else
    if !full && poison then some (St.ownerLost, none, s) else if poison then some (St.poisoned, some v, s) else
    if 2 ^ 64 ≤ v.toNat + n.toNat then some (St.syncOverflow, some v, s) else some (St.ok, some v, s.setWord l (v + n) full false)
  | .fdec n =>
    if n = 0 then some (St.protocolErr, none, s) else
    if !full && poison then some (St.ownerLost, none, s) else if poison then some (St.poisoned, some v, s) else
    if v.toNat < n.toNat then some (St.syncUnderflow, some v, s) else some (St.ok, some v, s.setWord l (v - n) full false)

/-- An underflow is reported to the owning context, and to the issuer when the two differ (R278). -/
def State.underflow (s : State) (issuer l : Nat) : State :=
  let owner := match s.claimAt l with | some c => c.ctx | none => issuer
  let s1 := (s.setErr Pg.syn F.synErrStatUnderflow owner).setReg (Pg.syn + 0x108) (Bits.make [(63, 56, issuer), (55, 48, owner), (47, 0, l)])
  let s2 := s1.event s1.hub Ev.syncUnderflow owner (unitOf Pg.syn) issuer (BitVec.ofNat 64 l)
  if owner = issuer then s2 else s2.event s2.hub Ev.syncUnderflow issuer (unitOf Pg.syn) issuer (BitVec.ofNat 64 l)

/-- A full/empty operation ends: stef and fini return the status alone, the others a pair (R275). -/
def State.retWord (s : State) (c rd : Nat) (op : WordOp) (st : Nat) (v : Option W64) : State :=
  match op, v with
  | .stef _, _ => s.retSt c rd st
  | .fini _ _, _ => s.retSt c rd st
  | _, some x => s.retPair c rd st x
  | _, none => s.retNone c rd st

def Why.word? : Why → Option (Nat × WordOp)
  | .ldfe a => some (a, .ldfe)
  | .ldfn a => some (a, .ldfn)
  | .stef a v => some (a, .stef v)
  | _ => none

/-- One pass over the wait queue of a word from its head (R277): the state, and the contexts that consumed poison. -/
def State.wakePass (s : State) (l : Nat) : State × List Nat :=
  s.sync.waiters.foldl (fun (acc : State × List Nat) w =>
    match w.why.word? with
    | some (a, op) =>
      if a ≠ l then acc else
      match acc.1.wordOp l op with
      | none => acc
      | some (st, v, s1) =>
        let s2 := s1.unwait w.slot
        let s3 := s2.retWord w.slot w.rd op st v
        (s3, if st = St.poisoned then acc.2 ++ [s3.coreCtx w.slot] else acc.2)
    | none => acc) (s, [])

/-- The home repeats the pass until one completes nothing (R277). -/
def State.wakeLoop : Nat → State → Nat → List Nat → State × List Nat
  | 0, s, _, ps => (s, ps)
  | n + 1, s, l, ps =>
    let (s1, p1) := s.wakePass l
    if s1.sync.waiters.length = s.sync.waiters.length then (s1, ps ++ p1) else State.wakeLoop n s1 l (ps ++ p1)

/-- After a change of a word: every waiter that its state now allows completes, and the contexts that consumed poison. -/
def State.wakeWord (s : State) (l : Nat) : State × List Nat := State.wakeLoop (s.sync.waiters.length + 1) s l []

/-! ## Signals (R286 to R288) -/

def agentSlot (p : Nat) : Bool := decide (336 ≤ p ∧ p < 384)

/-- The contexts of the collectives that a courier runs. -/
def State.courierCtxs (s : State) (d : Nat) : List Nat :=
  (s.cr.colls.filter fun k => k.running && decide (k.die = d)).map (·.ctx)

/-- The contexts an update unit holds work in progress of (R286): of commands that it has started and not completed, and of the one whose
prologue it runs; a command whose chunks there only wait is none. -/
def State.unitCtxs (s : State) (u : Nat) : List Nat :=
  (s.upd.filter fun k => s.unitHas k u && (s.unitBegan k u || decide (s.unitCmd u = some k))).map fun k => wf k.words 0 55 48

/-- Whether a slot runs a context (R286): a core its cluster's, an agent any of which it holds work in progress. -/
def State.slotRuns (s : State) (p ctx : Nat) : Bool :=
  if p < 336 then decide (s.cluCtx (clusterOfSlot p) = some ctx)
  else if p < 340 then (s.courierCtxs (p - 336)).contains ctx
  else if p < 376 then (s.unitCtxs (p - 340)).contains ctx
  else false

def State.signals (s : State) (p : Nat) : W64 := KMap.get 0 s.sync.signals p
def State.setSignals (s : State) (p : Nat) (v : W64) : State := s.withSync { s.sync with signals := KMap.set 0 s.sync.signals p v }

/-- swait takes the pending bits of its mask, if there are any (R287). -/
def State.takeSignals (s : State) (p : Nat) (mask : W64) : Option (W64 × State) :=
  let b := s.signals p &&& mask
  if b = 0 then none else some (b, s.setSignals p (s.signals p &&& ~~~mask))

/-- A slot that waits in swait returns when its mask is met. -/
def State.wakeSignal (s : State) (p : Nat) : State :=
  match s.sync.waiters.find? fun w => decide (w.slot = p) with
  | some w => match w.why with
    | .signal m => match s.takeSignals p m with
      | some (b, s1) => (s1.unwait p).retPair p w.rd St.ok b
      | none => s
    | _ => s
  | none => s

/-- fsig, from any issuer of a context (R286): its status and the state. -/
def State.signal (s : State) (ctx p : Nat) (mask : W64) : Nat × State :=
  if 383 < p ∨ mask = 0 ∨ 376 ≤ p then (St.protocolErr, s)
  else if ctx ≠ 0 && !s.slotRuns p ctx then (St.sigDenied, s)
  else (St.ok, (s.setSignals p (s.signals p ||| mask)).wakeSignal p)

/-! ## Barriers (R289 to R292) -/
namespace Bar
abbrev idle := 0
abbrev armed := 1
abbrev broken := 2
end Bar

def State.barState (s : State) (b : Nat) : Nat := s.fld (Pg.bar b) F.barStatState
def State.barEpisode (s : State) (b : Nat) : W32 := BitVec.ofNat 32 (s.fld (Pg.bar b) F.barStatEpisode)
def State.barCtx (s : State) (b : Nat) : Nat := s.fld (Pg.bar b) F.barCfgCtx
def State.inMask (s : State) (b p : Nat) : Bool := (s.reg (Pg.bar b + 0x108 + 8 * (p / 64))).getLsbD (p % 64)
def State.hasArrived (s : State) (b p : Nat) : Bool := (s.reg (Pg.bar b + 0x140 + 8 * (p / 64))).getLsbD (p % 64)
def State.setArrived (s : State) (b p : Nat) : State :=
  let k := Pg.bar b + 0x140 + 8 * (p / 64)
  let s1 := s.setReg k (Bits.putBit (s.reg k) (p % 64) true)
  s1.setFld (Pg.bar b) F.barStatArrived (s1.fld (Pg.bar b) F.barStatArrived + 1)
def State.clearArrived (s : State) (b : Nat) : State :=
  ((List.range 6).foldl (fun s i => s.setReg (Pg.bar b + 0x140 + 8 * i) 0) s).setFld (Pg.bar b) F.barStatArrived 0
def State.allArrived (s : State) (b : Nat) : Bool :=
  (List.range 6).all fun i => s.reg (Pg.bar b + 0x108 + 8 * i) = s.reg (Pg.bar b + 0x140 + 8 * i)

def State.heldArr (s : State) (b p : Nat) : Bool := KMap.get false s.sync.heldArr (b * 384 + p)
def State.setHeldArr (s : State) (b p : Nat) (v : Bool) : State :=
  s.withSync { s.sync with heldArr := KMap.set false s.sync.heldArr (b * 384 + p) v }

/-- Whether episode e has completed: EPISODE − E is zero or more as a signed 32-bit difference (R291). -/
def episodeDone (now e : W32) : Bool := !(now - e).msb

/-- The waiters of a completed episode complete; those that wait to arrive for the next one arrive (R291). -/
def State.wakeBarrier (s : State) (b : Nat) : State :=
  s.sync.waiters.foldl (fun s w =>
    match w.why with
    | .arrived b' e => if b' = b && episodeDone (s.barEpisode b) e then (s.unwait w.slot).retPair w.slot w.rd St.ok (e.setWidth 64) else s
    | .episode b' e => if b' = b && episodeDone (s.barEpisode b) e then (s.unwait w.slot).retSt w.slot w.rd St.ok else s
    | .arriveNext b' =>
      if b' = b && !s.hasArrived b w.slot then
        ((s.unwait w.slot).wait w.slot w.rd (.arrived b (s.barEpisode b + 1))).setArrived b w.slot
      else s
    | _ => s) s

/-- The agents' held arrivals count for the episode that begins (R291). -/
def State.takeHeld (s : State) (b : Nat) : State :=
  (List.range 48).foldl (fun s i => if s.heldArr b (336 + i) then (s.setHeldArr b (336 + i) false).setArrived b (336 + i) else s) s

/-- Completes episodes while every slot of the mask has arrived (R291). -/
def State.barProgress : Nat → State → Nat → State
  | 0, s, _ => s
  | n + 1, s, b =>
    if s.barState b = Bar.armed && s.allArrived b then
      let s1 := (s.setFld (Pg.bar b) F.barStatEpisode ((s.fld (Pg.bar b) F.barStatEpisode + 1) % 2 ^ 32)).clearArrived b
      State.barProgress n ((s1.takeHeld b).wakeBarrier b) b
    else s

def State.barAdvance (s : State) (b : Nat) : State := State.barProgress (s.sync.waiters.length + 3) s b

/-- What refuses an arrival of a slot for a context (R290): OK when nothing does. -/
def State.arriveCheck (s : State) (b p ctx : Nat) : Nat :=
  if !s.inMask b p ∨ s.barCtx b ≠ ctx ∨ s.barState b = Bar.idle then St.protocolErr
  else if s.barState b = Bar.broken then St.barrierBroken else St.ok

/-- An agent's arrival: a second one is held, a third dropped and counted (R290, R291). -/
def State.agentArrive (s : State) (b p ctx : Nat) : Nat × State :=
  let st := s.arriveCheck b p ctx
  if st ≠ St.ok then (st, s)
  else if !s.hasArrived b p then (St.ok, (s.setArrived b p).barAdvance b)
  else if !s.heldArr b p then (St.ok, s.setHeldArr b p true)
  else (St.ok, s.addFld (Pg.bar b) F.barStatDropped 1)

/-- Every waiter of a barrier completes with BARRIER_BROKEN. -/
def State.releaseBroken (s : State) (b : Nat) : State :=
  s.sync.waiters.foldl (fun s w =>
    match w.why with
    | .arrived b' e => if b' = b then (s.unwait w.slot).retPair w.slot w.rd St.barrierBroken (e.setWidth 64) else s
    | .episode b' _ => if b' = b then (s.unwait w.slot).retSt w.slot w.rd St.barrierBroken else s
    | .arriveNext b' => if b' = b then (s.unwait w.slot).retNone w.slot w.rd St.barrierBroken else s
    | _ => s) s

/-- A barrier breaks while ARMED: the first cause is recorded and every waiter released (R292). -/
def State.breakBarrier (s : State) (b reason slot : Nat) : State :=
  if s.barState b ≠ Bar.armed then s else
  ((s.setFld (Pg.bar b) F.barStatState Bar.broken).setReg (Pg.bar b + 0x170) (Bits.make [(11, 9, reason), (8, 0, slot)])).setErr
    (Pg.bar b) F.barErrStatBroken (s.barCtx b) |>.releaseBroken b

/-- Every barrier whose mask holds a slot breaks (R292). -/
def State.breakSlot (s : State) (p reason : Nat) : State :=
  (List.range 64).foldl (fun s b => if s.inMask b p then s.breakBarrier b reason p else s) s

/-! ## Completion actions (R293 to R295) -/

/-- Tollgate charge of an atomic on a word, by a unit on die d for a partition: one read and one write (R205). -/
def State.chargeAtomic (s : State) (d part l : Nat) : State := (s.charge d part l 8 false).charge d part l 8 true

/-- Whether an atomic waits behind a held request (R206). -/
def State.atomicShut (s : State) (d part l : Nat) : Bool := s.gateShut d part l 8 false || s.gateShut d part l 8 true

/-- The die of a porter group's slot (R4). -/
def groupDie (slot : Nat) : Nat := (slot - 376) / 2

/-- The action of a transfer of a context, performed as a porter-group slot: its status, the state, and whether the context
consumed poison. -/
def State.action (s : State) (ctx slot : Nat) (w0 v : W64) : Nat × State × Bool :=
  let kind := Bits.get w0 63 60
  let tgt := Bits.get w0 47 0
  if Bits.get w0 59 48 ≠ 0 ∨ 4 < kind then (St.protocolErr, s, false) else
  let word : WordOp → Nat × State × Bool := fun op =>
    let a := BitVec.ofNat 64 (s.dev * 2 ^ 48 + tgt)
    let st := s.wordCheck ctx a
    if st ≠ St.ok then (st, s, false) else
    let s0 := s.chargeAtomic (groupDie slot) (s.partOf ctx) tgt
    match s0.wordOp tgt op with
    | none => (St.notReady, s0, false)
    | some (st, _, s1) =>
      let s2 := if st = St.syncUnderflow then s1.underflow ctx tgt else s1
      (st, (s2.wakeWord tgt).1, st = St.poisoned)
  match kind with
  | 0 => (St.ok, s, false)
  | 1 => if tgt / 512 ≠ 0 then (St.protocolErr, s, false) else let (st, s1) := s.signal ctx tgt v; (st, s1, false)
  | 2 => word (.finc v)
  | 3 => if tgt / 64 ≠ 0 then (St.protocolErr, s, false) else let (st, s1) := s.agentArrive tgt slot ctx; (st, s1, false)
  | _ => word (.stef v)

/-! ## Loss of a context (R282 to R284, R292) -/

/-- The loss instant: the context's claims become LOST, every operation that waits on their words completes with OWNER_LOST,
the waits of its own cores are withdrawn, and its armed barriers break. -/
def State.lose (s : State) (ctx : Nat) : State :=
  let s0 := s.withSync { s.sync with waiters := s.sync.waiters.filter fun w => decide (s.coreCtx w.slot ≠ ctx ∨ (336 ≤ w.slot ∧ w.slot < 340)) }
  let s1 := (s0.withSync { s0.sync with claims := s0.sync.claims.map fun (e : Nat × Option Claim) =>
    (e.1, e.2.map fun (c : Claim) => if c.ctx = ctx then { c with lost := true } else c) })
  let hit := s1.sync.claims.any fun (e : Nat × Option Claim) => (e.2.map fun (c : Claim) => decide (c.ctx = ctx)).getD false
  let s2 := if hit then s1.setBitF Pg.syn F.synStatMarking true else s1
  let s3 := s2.sync.waiters.foldl (fun s w =>
    match w.why.word? with
    | some (a, op) => if s.lostAt a then (s.unwait w.slot).retWord w.slot w.rd op St.ownerLost none else s
    | none => s) s2
  (List.range 64).foldl (fun s b => if s.barCtx b = ctx then s.breakBarrier b 4 0 else s) s3

end Sys2Proof.Machine
end

