-- ==== Sys2Proof/Machine/Cluster.lean ====
section
/-! DEFINITION. What the units of a cluster share (03, 05): the completion ring, the mapping of slots onto engines in service,
queues, reserved scalar registers, starting and stopping cores, and clearing a cluster. -/

namespace Sys2Proof.Machine

/-! ## Completion ring (R160, R161) -/

def RingRec.src (r : RingRec) : Nat := Bits.get r.w0 62 60
def RingRec.status (r : RingRec) : Nat := Bits.get r.w0 47 32
def RingRec.ctx (r : RingRec) : Nat := Bits.get r.w0 55 48

/-- A record enters the ring, which is kept apart from the scratch bytes: the manual gives it no address there (DESIGN CHOICE, log 117). One of status CHECK_LATE starts the watch of R402. -/
def State.ringPut (s : State) (c : Nat) (r : RingRec) : State :=
  let k := s.clu c
  let s1 := s.setClu c { k with ring := k.ring ++ [r] }
  if r.status = St.checkLate then (s1.withRcv { s1.rcv with late := s1.rcv.late ++ [(c, r.ctx)] }) else s1

/-- A steward core that waits in cpop takes the oldest record (R159). -/
def State.wakeRing (s : State) (c : Nat) : State :=
  match s.sync.waiters.find? fun w => decide (w.slot = stewardOf c ∧ w.why = .ring) with
  | none => s
  | some w =>
    let k := s.clu c
    match k.ring with
    | [] => s
    | r :: rest => ((((s.setClu c { k with ring := rest }).unwait w.slot).setG w.slot w.rd r.w0).setG w.slot (w.rd + 1) r.w1).nextPc w.slot

/-- Whether the unit of a page holds a record that the full ring refused: it starts no further command (R161). -/
def State.unitBlocked (s : State) (c page : Nat) : Bool := (s.clu c).held.any fun r => decide (r.1 = page)

/-- Writes a record, or lets its unit hold it while the ring is full or an earlier record is held (R161). -/
def State.putRec (s : State) (c unit : Nat) (r : RingRec) : State :=
  let k := s.clu c
  if k.ring.length < 256 && k.held.isEmpty then (s.ringPut c r).wakeRing c
  else s.setClu c { k with held := k.held ++ [(unit, r)] }

/-- A completion record (R160). TIME is the time base; CYCLES, a count the manual gives no way to compute, is a free value. -/
def State.recOf (s : State) (c src : Nat) (droop pair rql : Bool) (ctx st tag : Nat) : RingRec × State :=
  let (v, s1) := s.draw
  let b : Bool → Nat := fun x => if x then 1 else 0
  (⟨Bits.make [(63, 63, 1), (62, 60, src), (59, 59, b droop), (58, 58, b pair), (57, 57, b rql), (55, 48, ctx), (47, 32, st), (15, 0, tag)],
    Bits.make [(63, 32, s.now (c / 12)), (31, 0, v.toNat)]⟩, s1)

/-- The record of a chain or descriptor, written by the unit of a page. -/
def State.record (s : State) (c src unit : Nat) (droop : Bool) (ctx st tag : Nat) : State :=
  let (r, s1) := s.recOf c src droop false false ctx st tag
  s1.putRec c unit r

/-- A held record is written once the ring has room (R161). -/
def State.releaseRec (s : State) (c : Nat) : State :=
  let k := s.clu c
  match k.held with
  | [] => s
  | r :: rest => if k.ring.length < 256 then ((s.setClu c { k with held := rest }).ringPut c r.2).wakeRing c else s

/-! ## Slots and engines (R110, R136) -/

def State.mxesUp (s : State) (c : Nat) : List Nat := ((List.range 4).map (4 * c + ·)).filter s.mxeUp
def State.vxesUp (s : State) (c : Nat) : List Nat := ((List.range 2).map (2 * c + ·)).filter s.vxeUp
/-- The engine a logical slot is mapped onto; none when no engine is in service. -/
def State.mxeOfSlot (s : State) (c slot : Nat) : Option Nat := let l := s.mxesUp c; l[slot % max 1 l.length]?
/-- The engine of a command issued to a slot: the slot's among the engines in service since the issue; none is left when each of
them has been fenced, since a re-admitted engine takes only commands issued after (R110, R111; log 56). -/
def slotEngine (now since : List Nat) (slot : Nat) : Option Nat :=
  let l := now.filter fun e => since.contains e
  l[slot % max 1 l.length]?
def State.mxeFor (s : State) (c slot : Nat) (t : TileCmd) : Option Nat := slotEngine (s.mxesUp c) t.engines slot
def State.vxeFor (s : State) (c : Nat) (k : ChainCmd) : Option Nat := slotEngine (s.vxesUp c) k.engines k.slot

def Cluster.tileQ (k : Cluster) (slot : Nat) : List TileCmd := KMap.get [] k.tiles slot
def State.setTileQ (s : State) (c slot : Nat) (q : List TileCmd) : State := s.setClu c { s.clu c with tiles := KMap.set [] (s.clu c).tiles slot q }
def State.setChains (s : State) (c : Nat) (l : List ChainCmd) : State := s.setClu c { s.clu c with chains := l }

/-- The queue of a vector engine: the chains that are mapped onto it, in order of issue (R136; log 26). -/
def State.vxeQueue (s : State) (v : Nat) : List ChainCmd := (s.clu (v / 2)).chains.filter fun k => decide (s.vxeFor (v / 2) k = some v)

/-- Fields of a tile command (R93). -/
def TileCmd.ctx (t : TileCmd) : Nat := wf t.words 0 55 48
def TileCmd.tag (t : TileCmd) : Nat := wf t.words 0 47 32
def TileCmd.acc (t : TileCmd) : Bool := (wd t.words 0).getLsbD 31
def TileCmd.emit (t : TileCmd) : Bool := (wd t.words 0).getLsbD 30
def TileCmd.bank (t : TileCmd) : Nat := wf t.words 0 29 29
def TileCmd.egress (t : TileCmd) : Bool := (wd t.words 0).getLsbD 28
def ChainCmd.ctx (k : ChainCmd) : Nat := wf k.words 0 55 48
def ChainCmd.tag (k : ChainCmd) : Nat := wf k.words 0 47 32
/-- The five summary registers a chain reserves (R150). -/
def ChainCmd.summary (k : ChainCmd) : Option Nat := if (wd k.words 1).getLsbD 33 then some (wf k.words 1 31 26) else none

/-- Whether the cluster holds a run or entry of its engines. -/
def State.mxeWork (s : State) (c : Nat) : Bool := ((List.range 4).map (4 * c + ·)).any fun e => !(s.mxe e).runs.isEmpty
def State.vxeWork (s : State) (c : Nat) : Bool := ((List.range 2).map (2 * c + ·)).any fun v => (s.vxe v).isSome

/-! ## Scalar registers (R150, R151, R159) -/

def State.scalar (s : State) (c i : Nat) : W32 := KMap.get 0 (s.clu c).scal i
def State.setScalar (s : State) (c i : Nat) (v : W32) : State := s.setClu c { s.clu c with scal := KMap.set 0 (s.clu c).scal i v }
def State.reserved (s : State) (c i : Nat) : Bool := (s.clu c).reserved.any fun r => decide (r ≤ i ∧ i < r + 5)
def State.unreserve (s : State) (c r : Nat) : State := s.setClu c { s.clu c with reserved := (s.clu c).reserved.erase r }

/-! ## Cores (R163, R292) -/

/-- Stops a core: its RUN bit reads 0, its wait ends without a result, and ARMED barriers of its slot break. -/
def State.haltCore (s : State) (c k reason : Nat) : State :=
  let s1 := s.setFld (Pg.clu c) F.cluCoreRun ((s.fld (Pg.clu c) F.cluCoreRun) &&& (127 - 2 ^ k))
  (s1.unwait (coreSlot c k)).breakSlot (coreSlot c k) reason

def State.haltCores (s : State) (c reason : Nat) : State := (List.range 7).foldl (fun s k => s.haltCore c k reason) s

/-- Conditions of R163: cores stopped, the queues of the six engines empty, no entry allocated, the ring read. -/
def State.cluIdle (s : State) (c : Nat) : Bool :=
  let k := s.clu c
  decide (s.fld (Pg.clu c) F.cluCoreRun = 0) && k.tiles.isEmpty && k.chains.isEmpty && k.ring.isEmpty && k.held.isEmpty &&
    !s.mxeWork c && !s.vxeWork c && (((List.range 4).map (4 * c + ·)).all fun e => (s.mxe e).ftq.isEmpty)

/-- Bytes from lo to hi become zero, their words EMPTY and not poisoned. -/
def State.clearMem (s : State) (lo hi : Nat) : State :=
  let below := fun (k n : Nat) => decide (k < lo / n ∨ hi / n ≤ k)
  s.withMem { s.mem with bytes := s.mem.bytes.filter (fun e => below e.1 1), full := s.mem.full.filter (fun e => below e.1 8),
                         poison := s.mem.poison.filter (fun e => below e.1 8) }

/-- SRAM cleared: every word zero and EMPTY (R209, R422); each word's wait queue is passed over, as after every change of it (R277). -/
def State.clearSram (s : State) (lo hi : Nat) : State :=
  let s1 := s.clearMem lo hi
  let ls := (s1.sync.waiters.filterMap fun w => w.why.word?.map (·.1)).eraseDups
  (ls.filter fun l => decide (lo ≤ s1.keyOf l ∧ s1.keyOf l < hi)).foldl (fun s l => (s.wakeWord l).1) s1

/-! ## Finished-tile queue (R107, R108) -/

def State.fte (s : State) (e id : Nat) : Option Fte := (s.mxe e).ftq.find? fun x => decide (x.id = id)
def State.mapFte (s : State) (e id : Nat) (f : Fte → Fte) : State :=
  s.setMxe e { s.mxe e with ftq := (s.mxe e).ftq.map fun x => if x.id = id then f x else x }
def State.freeFte (s : State) (e id : Nat) : State := s.setMxe e { s.mxe e with ftq := (s.mxe e).ftq.filter fun x => decide (x.id ≠ id) }

/-- The visible entries of an engine: those before the first hidden one (R108). -/
def State.visible (s : State) (e : Nat) : List Fte := (s.mxe e).ftq.takeWhile fun x => !x.hidden

/-! ## Strikes and fences (R106, R399, R400) -/

/-- Strike stamps of a unit within 86,400 s of now. -/
def State.strikesNow (s : State) (d key : Nat) : Nat := (within (s.now d) dayNs (s.unitRec key).strikes).length

/-- Records a strike: the newest of three stamps, the event; the answer says whether the unit now holds three within the
window and was not fenced. -/
def State.strikeRec (s : State) (d key ctx : Nat) (sig : W64) : State × Bool :=
  let u := s.unitRec key
  let t := s.now d
  let u1 := { u with strikes := (t :: u.strikes).take 3 }
  let s1 := (s.putUnit key u1).event d Ev.strike ctx (key % 2 ^ 18) (key / 2 ^ 18) sig
  (s1, !u.fenced && decide ((within t dayNs u1.strikes).length ≥ 3))

/-! ## Records of tiles (R95, R109, R121) -/

/-- Whether a command of a slot with a lower number has not ended. -/
def State.tileBefore (s : State) (c slot no : Nat) : Bool :=
  (((s.clu c).tileQ slot).any fun t => decide (t.no < no)) ||
  ((List.range 4).map (4 * c + ·)).any fun e => (s.mxe e).runs.any fun r => decide (r.slot = slot ∧ r.cmd.no < no)

def insertLate (r : LateRec) : List LateRec → List LateRec
  | [] => [r]
  | x :: l => if r.no < x.no then r :: x :: l else x :: insertLate r l

/-- Writes the tile records that no earlier command of their slot precedes any more. -/
def State.releaseLate (s : State) (c : Nat) : State :=
  (s.clu c).late.foldl (fun s x =>
    if s.tileBefore c x.slot x.no then s
    else (s.setClu c { s.clu c with late := (s.clu c).late.filter fun y => decide (y ≠ x) }).putRec c x.unit x.entry) s

/-- A tile command has ended: its record takes its place among those of its slot. -/
def State.lateRec (s : State) (c slot unit : Nat) (t : TileCmd) (droop rql : Bool) (st : Nat) : State :=
  let (r, s1) := s.recOf c slot droop (t.pair != 0) rql t.ctx st t.tag
  s1.setClu c { s1.clu c with late := insertLate ⟨slot, t.no, unit, r⟩ (s1.clu c).late }

/-! ## Fences of engines (R110, R111, R124, R155) -/

/-- A fence becomes effective: the unit record, the event. -/
def State.fenceUnit (s : State) (d page key cause : Nat) : State :=
  if s.unitFenced key then s else (s.markFenced key cause).event d Ev.unitFenced 0 (unitOf page) (key / 2 ^ 18) (BitVec.ofNat 64 cause)

/-- The engine of a page takes FENCED and its CTRL.FENCE bit reads 1 (R111, R112). -/
def State.fenceEngine (s : State) (d page : Nat) (state : Fld) (key cause : Nat) : State :=
  ((s.setFld page state Eng.fenced).setBitF page F.mxeCtrlFence true).fenceUnit d page key cause

def mxeKey (e : Nat) : Nat := unitKey (Pg.mxe e) 0
def vxeKey (v : Nat) : Nat := unitKey (Pg.vxe v) 0

/-- FTQ_USED and STATE follow the engine: BUSY while it holds a tile, or runs the re-run of another engine's. -/
def State.showMxe (s : State) (e : Nat) : State :=
  let s1 := s.setFld (Pg.mxe e) F.mxeStatFtqUsed (s.mxe e).ftq.length
  let busy := !(s.mxe e).runs.isEmpty || ((List.range 4).map (e / 4 * 4 + ·)).any fun x => (s.mxe x).runs.any fun r => decide (r.last = e)
  if outOfSvc (s1.fld (Pg.mxe e) F.mxeStatState) then s1 else s1.setFld (Pg.mxe e) F.mxeStatState (if busy then Eng.busy else Eng.idle)

def State.showMxes (s : State) (c : Nat) : State := ((List.range 4).map (4 * c + ·)).foldl (fun s e => s.showMxe e) s

/-- STATE follows the engine while it is in service. -/
def State.showVxe (s : State) (v state : Nat) : State :=
  if outOfSvc (s.fld (Pg.vxe v) F.vxeStatState) then s else s.setFld (Pg.vxe v) F.vxeStatState state

/-- Whether the second tile of a pair that has started on an engine waits to start there. -/
def State.pairDue (s : State) (e : Nat) : Bool :=
  (List.range 4).any fun sl => match (s.clu (e / 4)).tileQ sl with | t :: _ => decide (t.pair = 2 ∧ t.engines = [e]) | [] => false

/-- Whether a pair that has started on an engine is not complete: a fence waits for its second tile (R124). -/
def State.pairOpen (s : State) (e : Nat) : Bool := s.pairDue e || (s.mxe e).runs.any fun r => decide (r.cmd.pair = 2)

/-- A matrix engine is fenced: commands that wait do not return to it (R110, R111). -/
def State.fenceMxeNow (s : State) (e cause : Nat) : State :=
  let k := s.clu (e / 4)
  (s.setClu (e / 4) { k with tiles := k.tiles.map fun q => (q.1, q.2.map fun t => { t with engines := t.engines.filter (· ≠ e) }) }).fenceEngine (e / 48) (Pg.mxe e) F.mxeStatState (mxeKey e) cause

/-- An engine is fenced at the next command boundary; a pair counts as one command (R110, R111, R124). -/
def State.fenceMxe (s : State) (e cause : Nat) : State :=
  if outOfSvc (s.fld (Pg.mxe e) F.mxeStatState) then s
  else if s.pairOpen e then s.setMxe e { s.mxe e with fenceDue := some cause }
  else s.fenceMxeNow e cause

/-- A fence that waited takes effect once no pair is open. -/
def State.fenceWaited (s : State) (e : Nat) : State :=
  match (s.mxe e).fenceDue with
  | some k => if s.pairOpen e then s else (s.setMxe e { s.mxe e with fenceDue := none }).fenceMxe e k
  | none => s

/-- A vector engine is fenced: chains that wait do not return to it (R110, R155). -/
def State.fenceVxeNow (s : State) (v cause : Nat) : State :=
  let c := v / 2
  (s.setChains c ((s.clu c).chains.map fun k => { k with engines := k.engines.filter (· ≠ v) })).fenceEngine (v / 24) (Pg.vxe v) F.vxeStatState (vxeKey v) cause

/-- A vector engine is fenced when its running chain has ended (R110, R155). -/
def State.fenceVxe (s : State) (v cause : Nat) : State :=
  if outOfSvc (s.fld (Pg.vxe v) F.vxeStatState) then s
  else match s.vxe v with
    | some r => if r.fenceDue.isSome then s else s.setVxe v (some { r with fenceDue := some cause })
    | none => s.fenceVxeNow v cause

/-- A vector engine lets its chain go; a fence that waited takes effect. -/
def State.leaveVxe (s : State) (v : Nat) (r : ChainRun) : State :=
  let s1 := (s.setVxe v none).showVxe v Eng.idle
  match r.fenceDue with | some k => s1.fenceVxe v k | none => s1

def clusterKey (c : Nat) : Nat := unitKey (Pg.clu c) 0
def coreKey (c k : Nat) : Nat := unitKey (Pg.clu c) (1 + k)
def gatherKey (c : Nat) : Nat := unitKey (Pg.clu c) 8
def porterKey (d p : Nat) : Nat := unitKey (Pg.isl d 34) (16 + p)
def State.clusterFenced (s : State) (c : Nat) : Bool := s.unitFenced (clusterKey c)

end Sys2Proof.Machine
end

