-- ==== Sys2Proof/Machine/NetOps.lean ====
section
/-! DEFINITION. Packets, routes, reply slots and admitted maps (11, 12): what remote operations, collectives and abort relays
share. -/

namespace Sys2Proof.Machine

/-! ## Packets (R308, R310) -/

/-- The header fields of a packet as the source forms it; VC and TTL are set at each hop. -/
structure PktHead where
  dst : Nat
  src : Nat
  epoch : Nat
  cls : Nat
  ttl : Nat
  narrow : Bool
  unord : Bool
  op : Nat
  slot : Nat
  gen : Nat
  addr : Nat
  seq : Nat
  fmt : Nat
  len : Nat
  status : Nat
  deriving DecidableEq, Repr

namespace Op
abbrev put := 0x01
abbrev get := 0x02
abbrev get3 := 0x03
abbrev atomic := 0x04
abbrev signal := 0x05
abbrev sl := 0x06
abbrev data3 := 0x41
abbrev relay := 0x42
abbrev ack := 0x81
abbrev data := 0x82
abbrev credit := 0x83
abbrev chunk := 0xC1
end Op

/-- PCRC: CRC-32C of the header with VC, TTL and PCRC read as zero, then the payload (R310). -/
def pcrc (ws : List W64) : Nat :=
  let w0 := Bits.put (Bits.put (wd ws 0) 30 28 0) 25 20 0
  crc32c (wordsBytes ([w0, wd ws 1, wd ws 2, Bits.put (wd ws 3) 31 0 0] ++ ws.drop 4))

/-- A packet's words: four of header, and the payload filled up to whole flits. -/
def mkPkt (h : PktHead) (payload : List W64) : List W64 :=
  let plen := (payload.length + 3) / 4
  let body := payload ++ List.replicate (4 * plen - payload.length) 0
  let b : Bool → Nat := fun x => if x then 1 else 0
  let w0 := Bits.make [(63, 48, h.dst), (47, 32, h.src), (31, 31, h.epoch), (27, 26, h.cls), (25, 20, h.ttl), (19, 14, plen), (9, 9, b h.narrow), (8, 8, b h.unord), (7, 0, h.op)]
  let w1 := Bits.make [(63, 52, h.slot), (51, 48, h.gen), (47, 0, h.addr)]
  let w2 := Bits.make [(63, 32, h.seq), (31, 16, h.fmt), (15, 0, h.len)]
  let w3 := Bits.make [(63, 56, h.status)]
  [w0, w1, w2, Bits.put w3 31 0 (pcrc ([w0, w1, w2, w3] ++ body))] ++ body

namespace Pkt
def dst (p : List W64) : Nat := wf p 0 63 48
def src (p : List W64) : Nat := wf p 0 47 32
def epoch (p : List W64) : Nat := wf p 0 31 31
def vc (p : List W64) : Nat := wf p 0 30 28
def cls (p : List W64) : Nat := wf p 0 27 26
def ttl (p : List W64) : Nat := wf p 0 25 20
def plen (p : List W64) : Nat := wf p 0 19 14
def narrow (p : List W64) : Bool := (wd p 0).getLsbD 9
def unord (p : List W64) : Bool := (wd p 0).getLsbD 8
def op (p : List W64) : Nat := wf p 0 7 0
def slot (p : List W64) : Nat := wf p 1 63 52
def gen (p : List W64) : Nat := wf p 1 51 48
def addr (p : List W64) : Nat := wf p 1 47 0
def seq (p : List W64) : Nat := wf p 2 63 32
def fmt (p : List W64) : Nat := wf p 2 31 16
def len (p : List W64) : Nat := wf p 2 15 0
def status (p : List W64) : Nat := wf p 3 63 56
/-- Payload bytes. -/
def bytes (p : List W64) (n : Nat) : List Byte := (wordsBytes (p.drop 4)).take n
def payload (p : List W64) (k : Nat) : W64 := wd p (4 + k)
end Pkt

/-- Words of a byte list, zero filled. -/
def bytesWords (bs : List Byte) : List W64 :=
  (List.range ((bs.length + 7) / 8)).map fun i => BitVec.ofNat 64 (bytesNat ((bs.drop (8 * i)).take 8))

/-! ## Routes (R318 to R321) -/

def State.self (s : State) : Nat := s.fld Pg.rte F.rteCfgSelf
def State.inj (s : State) : Nat := s.fld Pg.rte F.rteStatInj
def State.verState (s : State) (v : Nat) : Nat := if v = 0 then s.fld Pg.rte F.rteStatV0state else s.fld Pg.rte F.rteStatV1state
def State.setVerState (s : State) (v n : Nat) : State := if v = 0 then s.setFld Pg.rte F.rteStatV0state n else s.setFld Pg.rte F.rteStatV1state n
namespace Ver
abbrev empty := 0
abbrev loading := 1
abbrev ready := 2
abbrev active := 3
abbrev draining := 4
end Ver

/-- Whether packets of an epoch are routed (R320). -/
def State.verUsable (s : State) (v : Nat) : Bool := decide (2 ≤ s.verState v ∧ s.verState v ≤ 4)

/-- An entry of a version as it is loaded (R318), which RTE.TENT shows. -/
def State.entry (s : State) (v dev : Nat) : W64 := KMap.get 0 s.net.routes (65536 * v + dev)

/-- The routing entry of a device in a version (R318); the entry of the package's own number is never read. -/
def State.route (s : State) (v dev : Nat) : W64 := if dev = s.self then 0 else s.entry v dev
def routeValid (e : W64) : Bool := e.getLsbD 63
def routeHash (e : W64) : Bool := e.getLsbD 62
def routeV2 (e : W64) : Bool := e.getLsbD 61
def routePrim (e : W64) : Nat := Bits.get e 60 56
def routeMask (e : W64) : Nat := Bits.get e 55 32

/-- The look-up of a remote operation at issue (R319): its status; NO_ROUTE sets the error bit. needV3: GET3, a RELAY or a
NARROW payload. -/
def State.lookup (s : State) (dst : Nat) (needV3 : Bool) : Nat × State :=
  let e := s.route s.inj dst
  if !routeValid e then (St.noRoute, s.setErr Pg.rte F.rteErrStatNoRoute 0)
  else if routeV2 e && needV3 then (St.versionLimit, s)
  else (St.ok, s)

namespace Lk
abbrev off := 0
abbrev detect := 1
abbrev parked := 6
abbrev routed := 7
abbrev down := 8
abbrev fenced := 9
end Lk

def State.port (s : State) (p : Nat) : Port := KMap.get Port.reset s.net.ports p
def State.setPort (s : State) (p : Nat) (x : Port) : State := s.withNet { s.net with ports := KMap.set Port.reset s.net.ports p x }
def State.lnk (s : State) (p : Nat) : Nat := s.fld (Pg.lnk p) F.lnkStatState
/-- A packet formed now toward a device may carry NARROW or UNORD: its route reaches no version-2 partner (R301, R308). -/
def State.unordTo (s : State) (dev : Nat) (u : Bool) : Bool := u && !routeV2 (s.route s.inj dev)

def State.setLnk (s : State) (p st : Nat) : State := s.setFld (Pg.lnk p) F.lnkStatState st

/-- A packet formed on a die joins the packets that wait to leave (R321). -/
def State.inject (s : State) (d : Nat) (ws : List W64) : State := s.withNet { s.net with held := s.net.held ++ [⟨ws, d, 24⟩] }

/-- The common fields of a packet formed now (R319). -/
def State.head (s : State) (dst cls op : Nat) : PktHead :=
  { dst := dst, src := s.self, epoch := s.inj, cls := cls, ttl := s.fld Pg.rte F.rteCfgTtl, narrow := false, unord := false, op := op,
    slot := 0, gen := 0, addr := 0, seq := 0, fmt := 0, len := 0, status := 0 }

/-! ## Reply slots (R325) -/

def State.slot (s : State) (k : Nat) : Slot := KMap.get Slot.reset s.net.slots k
def State.setSlot (s : State) (k : Nat) (x : Slot) : State := s.withNet { s.net with slots := KMap.set Slot.reset s.net.slots k x }

/-- The first free slot of a die, among its 4,096. -/
def State.freeSlot (s : State) (d : Nat) : Option Nat :=
  (((List.range 4096).map (4096 * d + ·)).find? fun k => (s.slot k).use.isNone)

/-- A slot freed with its GEN advanced, as for a timeout. -/
def State.expireSlot (s : State) (k : Nat) : State := s.setSlot k ⟨((s.slot k).gen + 1) % 16, none⟩

/-! ## Admitted maps (R340, R341) -/

def State.job (s : State) (ctx : Nat) : Option Job := KMap.get none s.net.jobs ctx

/-- The map index of a coordinate point, axis 0 fastest. -/
def mapIndex (sizes coords : List Nat) : Nat := ((sizes.zip coords).foldr (fun p acc => p.2 + p.1 * acc) 0)

/-- Device number at a point of a map in memory. -/
def State.mapDev (s : State) (j : Job) (coords : List Nat) : Nat := s.loadNat (j.addr + 2 * mapIndex j.sizes coords) 2

/-- The neighbours of the own point in ascending axis, down before up: (axis, direction, device) (R340, R341). -/
def State.neighbours (s : State) (j : Job) : List (Nat × Nat × Nat) :=
  (List.range j.sizes.length).flatMap fun a =>
    let n := j.sizes.getD a 1
    let c := j.coords.getD a 0
    let w := j.wrap.getD a false
    let at_ := fun k => s.mapDev j (j.coords.set a k)
    (if 0 < c then [(a, 0, at_ (c - 1))] else if w then [(a, 0, at_ (n - 1))] else []) ++
    (if c + 1 < n then [(a, 1, at_ (c + 1))] else if w then [(a, 1, at_ 0)] else [])

/-- A completion record of a porter or courier of a die (R347): VALID, STATUS, bytes completed; word 1. A record that its context may not
write is not written. -/
def State.portRecord (s : State) (d ctx addr st bytes : Nat) (w1 : W64) : State :=
  if addr = 0 ∨ s.memCheckW ctx addr 16 ≠ St.ok then s else (s.charge d (s.partOf ctx) addr 16 true).storeWords addr [Bits.make [(63, 63, 1), (47, 32, st), (31, 0, bytes)], w1]

end Sys2Proof.Machine
end

