-- ==== Sys2Proof/Machine/Service.lean ====
section
/-! DEFINITION. What the package-wide services keep (08, 09, 13): host commands and their outcomes, journals and chunk records,
the version table, stages, stage links and taints. -/

namespace Sys2Proof.Machine

/-! ## Accepted host commands (R379 to R382) -/

def State.sqCmds (s : State) (q : Nat) : List SqCmd := KMap.get [] s.host.sqs q
def State.setSqCmds (s : State) (q : Nat) (l : List SqCmd) : State := s.withHost { s.host with sqs := KMap.set [] s.host.sqs q l }

/-- A host command has finished: its record waits for its turn (R382). The first outcome stays. -/
def State.finCmd (s : State) (q : Nat) (seq : W64) (st : Nat) (result : W64) : State :=
  s.setSqCmds q ((s.sqCmds q).map fun k => if k.seq = seq && k.fin.isNone then { k with fin := some (st, result, BitVec.ofNat 64 (s.now s.hub)), free := (s.tb s.hub).free } else k)

/-- A command that an abort ends: outside RUN a recovery decides its record (R386, R411, R419, R421). -/
def State.finAborted (s : State) (q : Nat) (seq : W64) : State :=
  if s.fld Pg.rcv F.rcvStatPhase = 0 then s.finCmd q seq St.aborted 0 else s

/-- The oldest command of a queue that is not dispatched, nor ended by an abort or a recovery (R382, R386). -/
def State.nextCmd (s : State) (q : Nat) : Option SqCmd := (s.sqCmds q).find? fun k => !k.dispatched && k.fin.isNone

def State.markDispatched (s : State) (q : Nat) (seq : W64) : State :=
  s.setSqCmds q ((s.sqCmds q).map fun k => if k.seq = seq then { k with dispatched := true } else k)

/-- The update dispatcher accepts UPDATE commands of a queue in order while it has room (R221, R241, R382). -/
def State.pumpQueue : Nat → State → Nat → State
  | 0, s, _ => s
  | n + 1, s, q =>
    match s.nextCmd q with
    | some k =>
      if k.echoed && decide (wf k.words 0 63 56 = 0x10 ∧ s.upd.length < 256) then
        let u : UpdCmd := { num := s.host.nextUpd, staged := false, sq := q, seq := k.seq, words := k.words.set 0 (Bits.put (wd k.words 0) 55 48 k.ctx), running := false, pblk := [], prog := [], table := [], slot := 0, todo := [], done := [], passed := [], ready := [], consts := [], poisoned := false }
        State.pumpQueue n (((s.withUpd (s.upd ++ [u])).withHost { s.host with nextUpd := s.host.nextUpd + 1 }).markDispatched q k.seq) q
      else s
    | none => s

def State.pump (s : State) (q : Nat) : State := State.pumpQueue (s.sqCmds q).length s q
/-- Every queue, after the dispatcher has room again. -/
def State.pumpAll (s : State) : State := (s.host.sqs.map (·.1)).foldl State.pump s

/-! ## Chunk records and journals (R234 to R237) -/

/-- A chunk record: STEP, the four words of sums, POISON, CRC (R234). -/
def chunkRec (step : W64) (sums : List W64) (poison : Bool) : List W64 :=
  let ws := [step, wd sums 0, wd sums 1, wd sums 2, wd sums 3, (if poison then 1 else 0), 0]
  ws ++ [crcWords ws]

/-- Runs of rising addresses: first address and bytes. -/
def runsOf : List Nat → List (Nat × Nat)
  | [] => []
  | a :: t => match runsOf t with
    | (b, n) :: r => if b = a + 1 then (a, n + 1) :: r else if b = a then (b, n) :: r else (a, 1) :: (b, n) :: r
    | [] => [(a, 1)]

/-- Charges a unit's access to bytes at rising addresses (R205, R245). -/
def State.chargeRuns (s : State) (u ctx : Nat) (l : List Nat) (wr : Bool) : State :=
  (runsOf l).foldl (fun s r => s.charge (uuDie u) (s.partOf ctx) r.1 r.2 wr) s

/-- Writes a chunk record, one 64-byte write (R234). -/
def State.putRecord (s : State) (u ctx rmap c : Nat) (step : W64) (sums : List W64) (poison : Bool) : State :=
  (s.charge (uuDie u) (s.partOf ctx) (rmap + 64 * c) 64 true).storeWords (rmap + 64 * c) (chunkRec step sums poison)

/-- Writes a journal back, with its chunk record, and drops it (R235, R237). -/
def State.writeBack (s : State) (j : Journal) : State :=
  let s1 := ((s.chargeRuns j.unit j.ctx (j.writes.map (·.1)) true).storeBytes j.writes j.poison).putRecord j.unit j.ctx j.rmap j.chunk j.step j.sums j.poison
  s1.withJournals (s1.journals.filter fun k => decide (k ≠ j))

/-- Writes back a journal that a recovery finds (R237): the unit's REPLAY bit. -/
def State.replayJournal (s : State) (j : Journal) : State :=
  (s.setErr (Pg.uu j.unit) F.uuErrStatReplay j.ctx).writeBack j

/-- Every journal of a context that is complete is written back, every other one dropped (R243, R237). -/
def State.settleJournals (s : State) (mine : Journal → Bool) : State :=
  let s1 := (s.journals.filter fun j => mine j && j.complete).foldl (fun s j => s.replayJournal j) s
  s1.withJournals (s1.journals.filter fun j => !mine j)

/-- The writes of a staged commit are made (R238). -/
def State.applyCommit (s : State) : State :=
  (s.storeBytes s.commit false).withCommit []

/-- The commits that a fault left staged are made again, from either copy, and their commands complete (R238). -/
def State.replayCommit (s : State) : State :=
  (s.upd.filter (·.staged)).foldl (fun s k =>
    let s1 := ((s.applyCommit).setErr (Pg.upd s.hub) F.updErrStatCommitReplay (wf k.words 0 55 48)).addFld (Pg.upd s.hub) F.updPerfCommits 1
    (s1.withUpd (s1.upd.filter fun x => decide (x.num ≠ k.num))).finCmd k.sq k.seq St.ok (BitVec.ofNat 64 ((wf k.words 3 31 0 + 1) % 2 ^ 32))) s

/-! ## The version table (R257 to R262) -/

/-- Whether a fenced unit, or a stack with a fenced channel, is a member of a region (R215). -/
def State.degraded (s : State) (r : Nat) : Bool :=
  (s.region r).memberList.any fun u =>
    s.plat.dieFenced.getLsbD (if u < 20 then u / 5 else (u - 20) / 8) ||
    (if u < 20 then s.stackFenced u || decide (s.fld (Pg.msc u) F.mscFenceChan ≠ 0) else s.lpFenced (u - 20))

def State.vtA (s : State) (e : Nat) : Nat := s.fld Pg.stg F.stgVtblABase * 128 + 128 * e
def State.vtB (s : State) (e : Nat) : Nat := s.fld Pg.stg F.stgVtblBBase * 128 + 128 * e
/-- Copy A, or copy B while A's region is degraded (R257). -/
def State.vtUseB (s : State) : Bool := match s.regionAt (s.vtA 0) with | some r => s.degraded r | none => false
def State.vtWord (s : State) (e k : Nat) : W64 := s.load64 ((if s.vtUseB then s.vtB e else s.vtA e) + 8 * k)
/-- The error bit of a read of copy B. -/
def State.vtNote (s : State) : State := if s.vtUseB then s.setErr Pg.stg F.stgErrStatVtblDegraded 0 else s
/-- A change is written to copy A, then to copy B. -/
def State.setVt (s : State) (e k : Nat) (v : W64) : State := (s.storeWords (s.vtA e + 8 * k) [v]).storeWords (s.vtB e + 8 * k) [v]

def State.vtExists (s : State) (e : Nat) : Bool :=
  s.bitF Pg.stg F.stgVtblAValid && s.bitF Pg.stg F.stgVtblBValid && decide (e ≤ s.fld Pg.stg F.stgVtblALast ∧ e ≤ s.fld Pg.stg F.stgVtblBLast)
def State.vtValid (s : State) (e : Nat) : Bool := s.vtExists e && (s.vtWord e 0).getLsbD 63
def State.vtCtx (s : State) (e : Nat) : Nat := Bits.get (s.vtWord e 0) 55 48
def State.vtSlots (s : State) (e : Nat) : Nat := Bits.get (s.vtWord e 0) 43 40
namespace Vs
abbrev free := 0
abbrev pending := 1
abbrev current := 2
abbrev stashed := 3
end Vs
def State.vsState (s : State) (e i : Nat) : Nat := Bits.get (s.vtWord e (8 + i)) 50 48
def State.vsRefs (s : State) (e i : Nat) : Nat := Bits.get (s.vtWord e (8 + i)) 47 32
def State.vsVersion (s : State) (e i : Nat) : Nat := Bits.get (s.vtWord e (8 + i)) 31 0
def State.setVs (s : State) (e i st refs ver : Nat) : State := s.setVt e (8 + i) (Bits.make [(50, 48, st), (47, 32, refs), (31, 0, ver)])
def State.findVs (s : State) (e : Nat) (p : Nat → Bool) : Option Nat := (List.range (s.vtSlots e)).find? p
def State.currentVs (s : State) (e : Nat) : Option Nat := s.findVs e fun i => decide (s.vsState e i = Vs.current)
def State.vsElem (s : State) (e i : Nat) : Nat := Bits.get (s.vtWord e 2) 47 0 + i * Bits.get (s.vtWord e 3) 47 0

/-- The abort row of R259: references drop, stashed slots become free. -/
def State.abortEntry (s : State) (e : Nat) : State :=
  (List.range (s.vtSlots e)).foldl (fun s i =>
    let st := s.vsState e i
    s.setVs e i (if st = Vs.stashed then Vs.free else st) 0 (s.vsVersion e i)) s

def State.abortEntries (s : State) (mine : Nat → Bool) : State :=
  if !(s.bitF Pg.stg F.stgVtblAValid && s.bitF Pg.stg F.stgVtblBValid) then s else
  (List.range (s.fld Pg.stg F.stgVtblALast + 1)).foldl (fun s e => if s.vtValid e && mine (s.vtCtx e) then s.abortEntry e else s) s

/-! ## Stages and stage links (R248 to R255) -/

def State.stageValid (s : State) (i : Nat) : Bool := s.bitF (Pg.stg + 8 * i) F.stgStageValid
def State.stageCtx (s : State) (i : Nat) : Nat := s.fld (Pg.stg + 8 * i) F.stgStageCtx
/-- The valid stage that holds a cluster. -/
def State.stageOf (s : State) (c : Nat) : Option Nat :=
  (List.range 16).find? fun i => s.stageValid i && (s.fld (Pg.stg + 8 * i) F.stgStageClusters).testBit c

def inPg (qn : Nat) : Nat := Pg.slq (qn / 64) + 16 * (qn % 64)
def inSeqPg (qn : Nat) : Nat := Pg.slq (qn / 64) + 8 * (qn % 64)
namespace Sl
abbrev closed := 0
abbrev open_ := 1
abbrev stopped := 2
abbrev outOpening := 1
abbrev outOpen := 2
abbrev outRefused := 3
abbrev outStalled := 4
abbrev outStopped := 5
end Sl
def State.inState (s : State) (qn : Nat) : Nat := s.fld (inPg qn) F.slqIncfgState
def State.outState (s : State) (ol : Nat) : Nat := s.fld (inPg ol) F.slqOutcfgState
def State.inStage (s : State) (qn : Nat) : Nat := s.fld (inPg qn) F.slqIncfgStage
def State.outStage (s : State) (ol : Nat) : Nat := s.fld (inPg ol) F.slqOutcfgStage
def State.inq (s : State) (qn : Nat) : InQueue := KMap.get InQueue.reset s.stg.inq qn
def State.setInq (s : State) (qn : Nat) (q : InQueue) : State := s.withStg { s.stg with inq := KMap.set InQueue.reset s.stg.inq qn q }
def State.outq (s : State) (ol : Nat) : List OutMsg := KMap.get [] s.stg.outq ol
def State.setOutq (s : State) (ol : Nat) (q : List OutMsg) : State := s.withStg { s.stg with outq := KMap.set [] s.stg.outq ol q }
/-- A message leaves for the other end of a link. -/
def State.slSend (s : State) (m : SlMsg) : State := s.withStg { s.stg with outbox := s.stg.outbox ++ [m] }

/-- Stops the links of a stage and discards what they hold (R269, R271). -/
def State.stopStage (s : State) (i : Nat) : State :=
  (List.range 256).foldl (fun s n =>
    let s1 := if s.bitF (inPg n) F.slqIncfgValid && decide (s.inStage n = i) then (s.setFld (inPg n) F.slqIncfgState Sl.stopped).setInq n ⟨[]⟩ else s
    if s1.bitF (inPg n) F.slqOutcfgValid && decide (s1.outStage n = i) then (s1.setFld (inPg n) F.slqOutcfgState Sl.outStopped).setOutq n [] else s1) s

/-! ## Taints (R264 to R267) -/

def State.taintAll (s : State) (ctx : Nat) : Bool := KMap.get false s.stg.taintAll ctx

/-- Whether the list covers a micro-batch of a step (R265). -/
def State.tainted (s : State) (ctx : Nat) (step : W64) (mb : W32) : Bool :=
  s.taintAll ctx || s.stg.taints.any fun t => decide (t.ctx = ctx ∧ t.step = step ∧ (t.mb = mb ∨ t.mb = BitVec.allOnes 32))

/-- Whether any entry of a context covers a step (R266). -/
def State.stepTainted (s : State) (ctx : Nat) (step : W64) : Bool :=
  s.taintAll ctx || s.stg.taints.any fun t => decide (t.ctx = ctx ∧ t.step = step)

/-- Descriptors in the in-queues that match a taint are marked TAINTED (R265). -/
def State.markTainted (s : State) : State :=
  (s.withStg { s.stg with inq := s.stg.inq.map fun e => (e.1, ⟨e.2.descs.map fun d =>
      if s.tainted (wf d.1 0 55 48) (wd d.1 2) (BitVec.ofNat 32 (wf d.1 1 31 0)) then (d.1.set 0 (Bits.putBit (wd d.1 0) 46 true), d.2) else d⟩) })

/-- Sends TAINT on an out-link: it takes the link's next SEQ and no credit, and leaves once every lower SEQ is posted (R253, R264;
log 22). -/
def State.sendTaint (s : State) (ol : Nat) (t : Taint) : State :=
  let seq := BitVec.ofNat 32 (s.fld (inSeqPg ol) F.slqOutseqSent)
  let ws := [t.step, BitVec.ofNat 64 t.mb.toNat]
  let s1 := (s.wrapFld (inSeqPg ol) F.slqOutseqSent 1).setOutq ol (s.outq ol ++ [⟨seq, ws, 0, false, 0, true⟩])
  if (s.outq ol).any (·.copying) then s1 else s1.slSend ⟨6, ol, BitVec.ofNat 64 seq.toNat :: ws⟩

/-- Records a taint and relays it once on every open out-link of every stage of the context; a taint already covered does
nothing; a full list sets TAINT_ALL (R264, R267). -/
def State.recordTaint (s : State) (t : Taint) : State :=
  if s.tainted t.ctx t.step t.mb then s else
  let s1 := if s.stg.taints.length < 64 then s.withStg { s.stg with taints := s.stg.taints ++ [t] }
    else ((s.withStg { s.stg with taintAll := KMap.set false s.stg.taintAll t.ctx true })).setErr Pg.stg F.stgErrStatTaintFull t.ctx
  (List.range 256).foldl (fun s ol =>
    if s.outState ol = Sl.outOpen && s.stageValid (s.outStage ol) && decide (s.stageCtx (s.outStage ol) = t.ctx) then s.sendTaint ol t else s) s1.markTainted

/-- TAINT_ALL set by the backstop of R402: no step or micro-batch is named, so no TAINT message can be sent; what the context pushes
from here on carries the mark (R265, R267; log 59). -/
def State.taintWhole (s : State) (ctx : Nat) : State :=
  (s.withStg { s.stg with taintAll := KMap.set false s.stg.taintAll ctx true }).markTainted

end Sys2Proof.Machine
end

