-- ==== Sys2Proof/Machine/Abort.lean ====
section
/-! DEFINITION. CONTEXT_ABORT (R409 to R415), the consumption of poison (R403), and fences of units (R399, R400): what every
family shares. -/

namespace Sys2Proof.Machine

namespace Cause
abbrev host := 0
abbrev poison := 1
abbrev hang := 2
abbrev fence := 3
abbrev fabric := 4
abbrev reset := 5
abbrev remote := 6
end Cause

def State.aborting (s : State) (ctx : Nat) : Bool := s.rcv.aborts.any fun j => decide (j.ctx = ctx)

/-- A core's instruction that would give its context new work: refused with ABORTED from the loss instant to the end of an abort (R410). -/
def State.newWork (s : State) (c rd : Nat) (t : State) : State := if s.aborting (s.coreCtx c) then s.retSt c rd St.aborted else t

/-! ## Stopping the units -/

/-- The engines of a cluster drop a context's runs, queued tiles, entries and buffers; each command writes one ABORTED record, in
queue order (R109, R124). -/
def State.abortTiles (s : State) (c ctx : Nat) : State :=
  let es := (List.range 4).map (4 * c + ·)
  let runs := es.flatMap fun e => (s.mxe e).runs.filter fun r => decide (r.cmd.ctx = ctx)
  let queued := (List.range 4).flatMap fun sl => (((s.clu c).tileQ sl).filter fun t => decide (t.ctx = ctx)).map fun t => (sl, t)
  let s1 := es.foldl (fun s e =>
    let m := s.mxe e
    let s1 := s.setMxe e { m with runs := m.runs.filter fun r => decide (r.cmd.ctx ≠ ctx), ftq := m.ftq.filter fun x => decide (x.ctx ≠ ctx), accum := if s.cluCtx c = some ctx then 0 else m.accum }
    if s.cluCtx c = some ctx then s1.withBanks (s1.banks.filter fun b => decide (b.1 / 131072 ≠ e)) else s1) s
  let s2 := (List.range 4).foldl (fun s sl => s.setTileQ c sl (((s.clu c).tileQ sl).filter fun t => decide (t.ctx ≠ ctx))) s1
  let s3 := runs.foldl (fun s r => s.lateRec c r.slot (Pg.mxe r.first) r.cmd r.droop r.requant St.aborted) s2
  let s4 := queued.foldl (fun s x => s.lateRec c x.1 (match s.mxeFor c x.1 x.2 with | some e => Pg.mxe e | none => 0) x.2 false false St.aborted) s3
  let s5 := es.foldl (fun s e => (if s.pairDue e then s else s.setMxe e { s.mxe e with shared := none }).fenceWaited e) (s4.releaseLate c)
  s5.showMxes c

/-- The summary registers of a chain are freed without a delivery (R154). -/
def State.freeSummary (s : State) (c : Nat) (k : ChainCmd) : State := match k.summary with | some r => s.unreserve c r | none => s

/-- The vector engines of a cluster drop a context's chains; each writes one ABORTED record, the running ones first; an entry's DROOP
mark passes into it (R144, R154). -/
def State.abortChains (s : State) (c ctx : Nat) : State :=
  let s1 := ((List.range 2).map (2 * c + ·)).foldl (fun s v =>
    match s.vxe v with
    | some r => if r.cmd.ctx = ctx then
        let s1 := (r.taken.foldl (fun s t => s.freeFte t.1 t.2) s).leaveVxe v r
        (s1.freeSummary c r.cmd).record c (4 + r.slot) (Pg.vxe v) r.droop ctx St.aborted r.cmd.tag
      else s
    | none => s) s
  let mine := (s1.clu c).chains.filter fun k => decide (k.ctx = ctx)
  let s2 := mine.foldl (fun s k => (s.freeSummary c k).record c (4 + k.slot) (match s.vxeFor c k with | some v => Pg.vxe v | none => 0) false ctx St.aborted k.tag)
    (s1.setChains c ((s1.clu c).chains.filter fun k => decide (k.ctx ≠ ctx)))
  s2.showMxes c

/-- The gather unit of a cluster of the context drops its descriptors with ABORTED records (R411). -/
def State.abortGathers (s : State) (c ctx : Nat) : State :=
  if s.cluCtx c ≠ some ctx then s else
  let q := (s.clu c).gathers
  q.foldl (fun s g => s.record c 6 (Pg.clu c) false ctx St.aborted (wf g.words 3 15 0)) (s.setClu c { s.clu c with gathers := [] })

/-- The cores of the context's clusters are stopped as by CLU.CORE.RUN (R411). -/
def State.abortCores (s : State) (ctx : Nat) : State :=
  (List.range 48).foldl (fun s c => if s.cluCtx c = some ctx then s.haltCores c 1 else s) s

/-- Update commands (R243): waiting ones are discarded, complete journals written back, the rest abandoned; one whose commit stands
staged completes first (R238, R411). -/
def State.abortUpdates (s0 : State) (ctx : Nat) : State :=
  let s := s0.replayCommit
  let mine := s.upd.filter fun k => decide (wf k.words 0 55 48 = ctx)
  let lost := (mine.filter (·.running)).foldl (fun n k => n + k.todo.length) 0 + s.journals.countP fun j => decide (j.ctx = ctx) && !j.complete
  let s1 := s.settleJournals fun j => decide (j.ctx = ctx)
  let s2 := s1.withUpd (s1.upd.filter fun k => decide (wf k.words 0 55 48 ≠ ctx))
  let s3 := s2.addFld (Pg.upd s2.hub) F.updPerfAbandoned lost
  mine.foldl (fun s k => s.finAborted k.sq k.seq) s3

/-- The stage manager (R269). -/
def State.abortStages (s : State) (ctx : Nat) : State :=
  let s1 := (List.range 16).foldl (fun s i => if s.stageValid i && decide (s.stageCtx i = ctx) then s.stopStage i else s) s
  let s2 := (s1.withStg { s1.stg with
    flight := s1.stg.flight.filter fun f => decide (f.ctx ≠ ctx), taints := s1.stg.taints.filter fun t => decide (t.ctx ≠ ctx)
    taintAll := KMap.set false s1.stg.taintAll ctx false })
  s2.abortEntries fun c => decide (c = ctx)

/-- Groups close: their intake is free (R348, R357). -/
def State.dropGroups (s : State) (gone : Group → Bool) : State :=
  s.withCr { s.cr with groups := s.cr.groups.filter fun g => !gone g }

/-- A collective ends: its record, with TAG in word 1 (R349). -/
def State.endColl (s : State) (k : Coll) (st bytes : Nat) : State :=
  let s1 := s.withCr { s.cr with colls := s.cr.colls.filter fun x => decide (x.num ≠ k.num) }
  s1.portRecord k.die k.ctx (wf k.words 5 47 0) st bytes (BitVec.ofNat 64 (wf k.words 0 15 0))

/-- The couriers (R357): running and queued collectives end ABORTED, the groups close. -/
def State.abortColls (s : State) (ctx : Nat) : State :=
  ((s.cr.colls.filter fun k => decide (k.ctx = ctx)).foldl (fun s k => s.endColl k St.aborted 0) s).dropGroups fun g => decide (g.ctx = ctx)

/-- Porters (R411): transfers end ABORTED without an action; the context's reply slots are freed with GEN advanced. -/
def State.abortPorters (s : State) (ctx : Nat) : State :=
  let mine := s.net.ops.filter fun o => decide (o.ctx = ctx)
  let s1 := s.withNet { s.net with ops := s.net.ops.filter fun o => decide (o.ctx ≠ ctx) }
  let s2 := (mine.filter (·.ofPorter)).foldl (fun s o => s.portRecord o.die o.ctx (wf o.words 0 47 0) St.aborted o.bytes 0) s1
  s2.withNet { s2.net with slots := s2.net.slots.map fun e => match e.2.use with | some u => if u.1 = ctx then (e.1, ⟨(e.2.gen + 1) % 16, none⟩) else e | none => e }

/-- Accepted host commands without an outcome complete with ABORTED, but for the abort commands themselves (R411). A command
whose commit record exists has finished already. -/
def State.abortHostCmds (s : State) (ctx : Nat) (but : List (Nat × W64)) : State :=
  (s.host.sqs.map (·.1)).foldl (fun s q => (s.sqCmds q).foldl (fun s k =>
    if k.ctx = ctx && !but.contains (q, k.seq) then s.finAborted q k.seq else s) s) s

/-- Seals in progress end ABORTED; one whose local write is done keeps it (R439). -/
def State.abortSeals (s : State) (ctx : Nat) : State :=
  s.withLdg { s.ldg with seals := s.ldg.seals.map fun x => if x.ctx = ctx then { x with status := St.aborted } else x }

/-- Whether a context has any work (R409). -/
def State.hasWork (s : State) (ctx : Nat) (but : List (Nat × W64)) : Bool :=
  ((List.range 48).any fun c => decide (s.cluCtx c = some ctx) && (!s.cluIdle c || !(s.clu c).gathers.isEmpty)) ||
  (s.upd.any fun k => decide (wf k.words 0 55 48 = ctx)) || (s.cr.colls.any fun k => decide (k.ctx = ctx)) || (s.cr.groups.any fun g => decide (g.ctx = ctx)) ||
  (s.net.ops.any fun o => decide (o.ctx = ctx)) || (s.ldg.seals.any fun x => decide (x.ctx = ctx)) ||
  ((List.range 16).any fun i => s.stageValid i && decide (s.stageCtx i = ctx)) || (s.stg.flight.any fun f => decide (f.ctx = ctx)) ||
  (s.sync.claims.any fun (e : Nat × Option Claim) => (e.2.map fun (x : Claim) => decide (x.ctx = ctx)).getD false) ||
  (s.host.sqs.any fun e => e.2.any fun k => decide (k.ctx = ctx) && k.fin.isNone && !but.contains (e.1, k.seq))

/-! ## Relays (R413 to R415) -/

def State.jobId (s : State) (ctx : Nat) : W64 := s.reg (bank ctx Pg.rcv + 0x138)
def State.jobGen (s : State) (ctx : Nat) : Nat := s.fld (bank ctx Pg.rcv) F.rcvJobgenGen

/-- Sends a relay once to each of its devices (R414). -/
def State.sendRelay (s : State) (r : Relay) : State :=
  r.devs.foldl (fun s d => s.inject s.hub (mkPkt (s.head d 1 Op.relay) r.words)) s

/-- Starts a relay to the neighbours of a context's map but one, each looked up at its issue (R319): one without a route gets none, and
one reached over version 2 is named in an event (R414). -/
def State.startRelay (s : State) (ctx cause origin gen : Nat) (but : Option Nat) : State :=
  match s.job ctx with
  | none => s
  | some j =>
    let devs := ((s.neighbours j).map (·.2.2)).eraseDups.filter fun d => decide (some d ≠ but ∧ d ≠ s.self)
    let s1 := devs.foldl (fun s d =>
      let (st, s2) := s.lookup d true
      if st = St.versionLimit then s2.event s2.hub Ev.abortRelayV2 ctx (unitOf Pg.rcv) d (BitVec.ofNat 64 cause) else s2) s
    let ok := devs.filter fun d => decide ((s.lookup d true).1 = St.ok)
    let r : Relay := ⟨[s.jobId ctx, Bits.make [(63, 32, gen), (15, 0, origin)], Bits.make [(3, 0, cause)], 0], ok, 3⟩
    (s1.sendRelay r).withRcv { s1.rcv with relays := s1.rcv.relays ++ [r] }

/-- Origination: GEN advances and the relay starts, for a job of an admitted map (R413). -/
def State.originate (s : State) (ctx cause : Nat) : State :=
  if s.jobId ctx = 0 ∨ (s.job ctx).isNone then s else
  let s1 := s.wrapFld (bank ctx Pg.rcv) F.rcvJobgenGen 1
  s1.startRelay ctx cause s1.self (s1.jobGen ctx) none

/-! ## The abort (R409 to R412) -/

/-- t0 to t0 + 25 µs: the loss instant, and every unit stops the context's work. relay: the abort originates one. -/
def State.abort (s : State) (ctx cause : Nat) (relay : Bool) (reason : W64) (q : List (Nat × W64)) : State :=
  if ctx = 0 then s
  else if s.aborting ctx then
    s.withRcv { s.rcv with aborts := s.rcv.aborts.map fun j => if j.ctx = ctx then { j with queues := j.queues ++ q } else j }
  else if !s.hasWork ctx q then q.foldl (fun s e => s.finCmd e.1 e.2 St.ok 0) s
  else
    let s1 := s.withRcv { s.rcv with aborts := s.rcv.aborts ++ [({ ctx := ctx, cause := cause, reason := reason, queues := q } : AbortJob)] }
    let s2 := (s1.setBitF Pg.rcv F.rcvAbstatBusy true).lose ctx
    let s3 := s2.abortCores ctx
    let s4 := (List.range 48).foldl (fun s c => ((s.abortTiles c ctx).abortChains c ctx).abortGathers c ctx) s3
    let s5 := ((((s4.abortUpdates ctx).abortStages ctx).abortColls ctx).abortPorters ctx).abortSeals ctx
    let s6 := s5.abortHostCmds ctx q
    let s7 := if cause ≠ Cause.host && s6.bitF (bank ctx Pg.ldg) F.ldgCkrunRun then s6.addFld (bank ctx Pg.ldg) F.ldgCkobsF 1 else s6
    if relay then s7.originate ctx cause else s7

/-- An abort that the package itself starts; it relays (R409, R413). -/
def State.abortFor (s : State) (ctx cause : Nat) : State := s.abort ctx cause true 0 []

/-- The abort is complete (R410): RCV.ABSTAT, event CTX_ABORT, the records of the queue forms. -/
def State.finishAbort (s : State) (j : AbortJob) : State :=
  let s1 := s.withRcv { s.rcv with aborts := s.rcv.aborts.filter fun k => decide (k.ctx ≠ j.ctx) }
  let s2 := ((s1.setFld Pg.rcv F.rcvAbstatCtx j.ctx).setFld Pg.rcv F.rcvAbstatCause j.cause).wrapFld Pg.rcv F.rcvAbstatDone 1
  let s3 := (s2.setBitF Pg.rcv F.rcvAbstatBusy (!s2.rcv.aborts.isEmpty)).event s2.hub Ev.ctxAbort j.ctx (unitOf Pg.rcv) j.cause
    (if j.cause = Cause.host then j.reason else BitVec.ofNat 64 j.cause)
  j.queues.foldl (fun s e => s.finCmd e.1 e.2 St.ok 0) s3

/-! ## Poison (R403) -/

/-- A context consumes poison: the event with the address or unit, and the abort; CX000 is only logged. -/
def State.consume (s : State) (d ctx unit : Nat) (addr : W64) : State :=
  (s.event d Ev.poisonConsumed ctx unit 0 addr).abortFor ctx Cause.poison

/-- Every context of a list consumes poison of a word. -/
def State.consumeAll (s : State) (cs : List Nat) (addr : W64) : State := cs.foldl (fun s c => s.consume s.hub c 0 addr) s

/-- After a change of a word: waiters complete, and those that read poison are aborted (R277, R403). -/
def State.wake (s : State) (l : Nat) : State := let (s1, ps) := s.wakeWord l; s1.consumeAll ps (BitVec.ofNat 64 l)

/-- The effect of a completion action, with the abort of a context that reads poison by it (R294, R403). -/
def State.act (s : State) (ctx slot : Nat) (w0 v : W64) : Nat × State :=
  let (st, s1, p) := s.action ctx slot w0 v
  (st, if p then s1.consume s1.hub ctx 0 (BitVec.ofNat 64 (Bits.get w0 47 0)) else s1)

/-! ## Fences of clusters and their units (R400) -/

/-- A cluster is fenced: its context is aborted, CLU.CTX.VALID reads 0 (R400). -/
def State.fenceCluster (s : State) (c cause : Nat) : State :=
  if s.clusterFenced c then s else
  let ctx := s.cluCtx c
  let s1 := s.fenceUnit (c / 12) (Pg.clu c) (clusterKey c) cause
  let s2 := match ctx with | some x => s1.abortFor x Cause.fence | none => s1
  (s2.haltCores c 1).setBitF (Pg.clu c) F.cluCtxValid false

/-- A strike on a steward core fences the cluster, on an ostler core the core, whose context is aborted (R399, R400). -/
def State.strikeCore (s : State) (c k ctx : Nat) : State :=
  let (s1, third) := s.strikeRec (c / 12) (coreKey c k) ctx 0
  if !third then s1 else
  let cx := s1.cluCtx c
  let s2 := s1.fenceUnit (c / 12) (Pg.clu c) (coreKey c k) 1
  if k = 0 then s2.fenceCluster c 1
  else (match cx with | some x => s2.abortFor x Cause.fence | none => s2).haltCore c k 1

/-! ## Agents' fences (R292) -/

/-- A fenced agent breaks the ARMED barriers of its slot. -/
def State.agentFenced (s : State) (slot : Nat) : State := s.breakSlot slot 3

/-! ## Self-test and re-admission (R111) -/

/-- SELFTEST is accepted only in FENCED. -/
def State.startSelftest (s : State) (page : Nat) (state : Fld) : State :=
  if s.fld page state = Eng.fenced then s.setFld page state Eng.selftest else s.badSeq page

/-- The self-test that runs ends. -/
def State.endSelftest (s : State) (page : Nat) (state : Fld) (pass : Bool) : State :=
  if s.fld page state = Eng.selftest then s.setFld page state (if pass then Eng.selftestPass else Eng.selftestFail) else s

/-- READMIT is accepted only in SELFTEST_PASS: the strikes return to zero and the fence is lifted; the log is kept. -/
def State.readmit (s : State) (page : Nat) (state : Fld) (key : Nat) : State :=
  if s.fld page state = Eng.selftestPass then
    let u := s.unitRec key
    ((s.setFld page state Eng.idle).setBitF page F.mxeCtrlFence false).putUnit key { u with fenced := false, cause := 0, strikes := [] }
  else s.badSeq page

end Sys2Proof.Machine
end

