-- ==== Sys2Proof/Machine/Flags.lean ====
section
/-! DEFINITION. The counted conditions: number-format events (R73, R178), checks and strikes of the engines, and the effective
issue cap (R96). -/

namespace Sys2Proof.Machine

/-- The counter of an event of a format for a context on a die (R178). -/
def evtKey (d ctx fmt ev : Nat) : Nat := bank ctx (Pg.ctr d) + 0x200 + 8 * (6 * fmt + ev)

/-- A 64-bit count that stays at its largest value. -/
def State.addCount (s : State) (k n : Nat) : State :=
  if n = 0 then s else s.setReg k (BitVec.ofNat 64 (satAdd (2 ^ 64 - 1) (s.reg k).toNat n))

/-- Counts events against a context and format on the die that writes or reads (R73, R178). -/
def State.countEvents (s : State) (d ctx fmt : Nat) (e : Events) : State :=
  e.list.zipIdx.foldl (fun s x => s.addCount (evtKey d ctx fmt x.2) x.1) s

/-- A histogram increment (R173). -/
def State.addBin (s : State) (d stream bin n : Nat) : State :=
  let k := (d * 256 + stream) * 64 + bin
  s.withBins (KMap.set 0 s.bins k (satAdd (2 ^ 64 - 1) (KMap.get 0 s.bins k) n))

/-- The bin of a value (R173). -/
def histBin (v : Fl) : Nat :=
  match v with
  | .fin _ 0 _ => 0
  | .fin _ _ _ => let e := v.log2; if e ≤ -40 then 1 else if 21 ≤ e then 62 else (e + 41).toNat
  | _ => 63

/-- Work shown in larger units (MXE.PERF, VXE.PERF, LNK.TRAFFIC). -/
def State.addWork (s : State) (page n : Nat) : State := s.withWork (KMap.set 0 s.work page (KMap.get 0 s.work page + n))

/-! ## Droop and caps (R96, R463, R464) -/

/-- Whether an island of a die holds a droop warning. -/
def State.droopWarn (s : State) (d : Nat) : Bool := (List.range 35).any fun k => (KMap.get none s.plat.warns (64 * d + k)).isSome

def State.droopCap (s : State) (d : Nat) : Nat := if s.droopWarn d then 8 else 32

/-- The smallest of the three caps (R96). -/
def State.effCap (s : State) (e : Nat) : Nat :=
  min (s.fld (Pg.mxe e) F.mxeCtrlIssueCap) (min (s.fld Pg.pwr F.pwrStatCap) (s.droopCap (e / 48)))

/-! ## Strikes of an engine (R105, R106, R112) -/

/-- STAT.STRIKES follows the stamps within the window. -/
def State.showStrikes (s : State) (e : Nat) : State := s.setFld (Pg.mxe e) F.mxeStatStrikes (min 3 (s.strikesNow (e / 48) (mxeKey e)))

/-- The strike log of the page: entry 0 is the most recent. -/
def State.logStrike (s : State) (e : Nat) (t : W64) (sig : W64) : State :=
  let p := Pg.mxe e
  ((((((s.setReg (p + 0x130) (s.reg (p + 0x120))).setReg (p + 0x138) (s.reg (p + 0x128))).setReg (p + 0x120) (s.reg (p + 0x110))).setReg (p + 0x128)
    (s.reg (p + 0x118))).setReg (p + 0x110) t).setReg (p + 0x118) sig)

/-- A strike on an engine with the signature of its failing run; the third within 86,400 s fences it (R105, R106). -/
def State.strikeMxe (s : State) (e ctx : Nat) (sig : W64) : State :=
  let (s1, third) := s.strikeRec (e / 48) (mxeKey e) ctx sig
  let s2 := (s1.logStrike e (BitVec.ofNat 64 (s.now (e / 48))) sig).showStrikes e
  if third then (s2.setErr (Pg.mxe e) F.mxeErrStatStrikeFence ctx).fenceMxe e 1 else s2

end Sys2Proof.Machine
end

