-- ==== Sys2Proof/Machine/Elem.lean ====
section
/-! DEFINITION. The element-wise functions of R142: each returns the exact value at its operands, rounded once. A value is
formed in fixed point with 640 fraction bits, far more than rounding to FP32 needs: away from the arguments handled
exactly, these functions take no value that lies within 2^−300 of a rounding boundary (DEDUCED, log 13). -/

namespace Sys2Proof.Machine.Elem

/-- Fraction bits of the fixed-point numbers of this file. -/
def P : Nat := 640
def unit : Int := (2 : Int) ^ P
def fmul (a b : Int) : Int := a * b / unit
def fdiv (a b : Int) : Int := if b = 0 then 0 else a * unit / b

/-- Fixed point of a finite value. -/
def toFx : Fl → Int
  | .fin n m e =>
    let s := e + P
    let a : Int := if 0 ≤ s then (m : Int) * 2 ^ s.toNat else (m : Int) / 2 ^ (-s).toNat
    if n then -a else a
  | _ => 0

def ofFx (zneg : Bool) (a : Int) : Fl := .ofInt zneg a (-(P : Int))

/-- 2 × atanh(num/den) for 0 ≤ num/den ≤ 1/3, as a series. -/
def atanh2 (z : Int) : Int :=
  let z2 := fmul z z
  let r := (List.range 240).foldl (fun (acc : Int × Int) (i : Nat) => (acc.1 + acc.2 / (2 * i + 1), fmul acc.2 z2)) (0, z)
  2 * r.1

def ln2 : Int := atanh2 (unit / 3)

/-- atan(1/k) by its series. -/
def atanInv (k : Int) : Int :=
  let r := (List.range 300).foldl (fun (acc : Int × Int) (i : Nat) =>
    (if i % 2 = 0 then acc.1 + acc.2 / (2 * i + 1) else acc.1 - acc.2 / (2 * i + 1), acc.2 / (k * k))) (0, unit / k)
  r.1

def pi : Int := 16 * atanInv 5 - 4 * atanInv 239

def sqrtFx (a : Int) : Int := (isqrt (a.toNat <<< P) : Int)

/-- exp of a fixed-point number, as a positive value. Below −700 it is some tiny positive number. -/
def expFx (a : Int) : Fl :=
  let k : Int := a / ln2
  if k < -1000 then .fin false 1 (-1000) else
  let r := a - k * ln2
  let s := (List.range 160).foldl (fun (acc : Int × Int) (i : Nat) => (acc.1 + acc.2, fmul acc.2 r / (i + 1))) (0, unit)
  .fin false s.1.natAbs (k - P)

/-- log of a positive value. -/
def logFl (m : Nat) (e : Int) : Int :=
  let l := Nat.log2 m
  let x : Int := toFx (.fin false m (-(l : Int)))
  ((l : Int) + e) * ln2 + atanh2 (fdiv (x - unit) (x + unit))

/-- erf of a fixed-point number of magnitude at most 12, by its series. -/
def erfFx (x : Int) : Int :=
  let x2 := fmul x x
  let r := (List.range 900).foldl (fun (acc : Int × Int) (i : Nat) =>
    (if i % 2 = 0 then acc.1 + acc.2 / (2 * i + 1) else acc.1 - acc.2 / (2 * i + 1), fmul acc.2 x2 / (i + 1))) (0, x)
  fdiv (2 * r.1) (sqrtFx pi)

/-- One half of 1 + erf(x/√2), the normal distribution function Φ, for |x| at most 16. -/
def phiFx (x : Int) : Int := (unit + erfFx (fdiv x (sqrtFx (2 * unit)))) / 2

/-- 1 / (1 + exp(−x)). -/
def sigma (x : Fl) : Fl :=
  let t := expFx (-(toFx x.abs))
  let p := Fl.div .one (.add .one t)
  if x.isNeg then .mul t p else p

/-- Keeps the leading 640 bits of a value, with a sticky last bit: enough for every later rounding. -/
def trim : Fl → Fl
  | .fin n m e => let l := Nat.log2 m; if l < P then .fin n m e else
      let s := l - P
      .fin n (2 * (m >>> s) + (if m % 2 ^ s = 0 then 0 else 1)) (e + s - 1)
  | v => v

def big (k : Int) (x : Fl) : Bool := x.isInf || Fl.le (.ofInt false k 0) x.abs

/-- The sum of a value and a positive or negative amount too small to matter but for the side on which the result lies. -/
def nudge (x : Fl) (up : Bool) : Fl := if x.isFin then .add x (.fin (!up) 1 (x.log2 - 300)) else x

def exp (x : Fl) : Fl :=
  match x with
  | .nan => .nan
  | .inf n => if n then .zero else .inf false
  | .fin n m _ => if m = 0 then .one else
    if big 300 x then (if n then .fin false 1 (-400) else .fin false 1 400) else expFx (toFx x)

def log (x : Fl) : Fl :=
  match x with
  | .nan => .nan
  | .inf n => if n then .nan else .inf false
  | .fin n m e => if m = 0 then .inf true else if n then .nan else ofFx false (logFl m e)

def tanh (x : Fl) : Fl :=
  match x with
  | .nan => .nan
  | .inf n => .fin n 1 0
  | .fin n m e => if m = 0 then .fin n 0 0 else
    let r := if big 300 x then nudge .one false else
      let t := expFx (-2 * toFx (.fin false m e)); trim (.div (.sub .one t) (.add .one t))
    if n then r.neg else r

def sigmoid (x : Fl) : Fl :=
  match x with
  | .nan => .nan
  | .inf n => if n then .zero else .one
  | _ => if big 300 x then (if x.isNeg then .fin false 1 (-400) else nudge .one false) else sigma x

def erf (x : Fl) : Fl :=
  match x with
  | .nan => .nan
  | .inf n => .fin n 1 0
  | .fin n m e => if m = 0 then .fin n 0 0 else
    let r := if big 10 x then nudge .one false else ofFx false (erfFx (toFx (.fin false m e)))
    if n then r.neg else r

/-- a·Φ(a) (GELU): −0 at −∞, +∞ at +∞ (R142). -/
def gelu (x : Fl) : Fl :=
  match x with
  | .nan => .nan
  | .inf n => if n then .fin true 0 0 else .inf false
  | .fin n m _ => if m = 0 then x else
    if big 15 x then (if n then .fin true 1 (-400) else nudge x false) else .mul x (ofFx false (phiFx (toFx x)))

/-- a·σ(a) (SILU): −0 at −∞, +∞ at +∞ (R142). -/
def silu (x : Fl) : Fl :=
  match x with
  | .nan => .nan
  | .inf n => if n then .fin true 0 0 else .inf false
  | .fin n m _ => if m = 0 then x else
    if big 300 x then (if n then .fin true 1 (-400) else nudge x false) else .mul x (sigma x)

/-- log(1 + exp(a)) (SOFTPLUS). -/
def softplus (x : Fl) : Fl :=
  match x with
  | .nan => .nan
  | .inf n => if n then .zero else .inf false
  | .fin n _ _ =>
    if big 300 x then (if n then .fin false 1 (-400) else nudge x true) else
    let t := expFx (-(toFx x.abs))
    let l : Fl := match trim (.add .one t) with | .fin _ m e => ofFx false (logFl m e) | v => v
    if n then l else .add x l

/-- b × (exp(a) − 1), the negative branch of ELU. -/
def eluNeg (a b : Fl) : Fl :=
  match a with
  | .fin _ m _ => if m = 0 then .mul b a else
    if big 300 a then .mul b (nudge (.fin true 1 0) true) else .mul b (trim (.sub (expFx (toFx a)) .one))
  | .inf _ => .mul b (.fin true 1 0)
  | .nan => .nan

/-- 1 − exp(−y), d of softplus; an infinite y follows the formula (R126, R127). -/
def softplusD (y : Fl) : Fl :=
  match y with
  | .nan => .nan
  | .inf n => if n then .inf true else .one
  | .fin n m _ => if m = 0 then .zero else
    if big 300 y then (if n then .fin true 1 400 else nudge .one false) else .neg (trim (.sub (expFx (-(toFx y))) .one))

/-- φ(x), the normal density. -/
def density (x : Fl) : Fl :=
  .mul (expFx (-(toFx (.mul x x)) / 2)) (ofFx false (fdiv unit (sqrtFx (2 * pi))))

/-- Φ(x) + x·φ(x), the derivative of GELU, with its limits at the infinities (R131, R142). -/
def geluD (x : Fl) : Fl :=
  match x with
  | .nan => .nan
  | .inf n => if n then .zero else .one
  | _ => if big 15 x then (if x.isNeg then .fin true 1 (-400) else nudge .one true) else
    .add (ofFx false (phiFx (toFx x))) (.mul x (trim (density x)))

/-- σ(x) × (1 + x × (1 − σ(x))), the derivative of SILU, with its limits at the infinities (R131, R142). -/
def siluD (x : Fl) : Fl :=
  match x with
  | .nan => .nan
  | .inf n => if n then .zero else .one
  | _ => if big 300 x then (if x.isNeg then .fin true 1 (-400) else nudge .one true) else
    let s := trim (sigma x)
    .mul s (.add .one (.mul x (trim (sigma x.neg))))

end Sys2Proof.Machine.Elem
end

