-- ==== Sys2Proof/Machine/Arrays.lean ====
section
/-! DEFINITION. Errors of the memory arrays (07, 14): the extent of a region's slice, fences of channels, stacks and LPDDR packages,
and what a read meets. -/

namespace Sys2Proof.Machine

/-! ## Slices (R193, R198, R501) -/

def memberCap (u : Nat) : Nat := if u < 20 then 192 * 2 ^ 30 - 128 * 2 ^ 20 else 128 * 2 ^ 30

/-- Channels of a stack in service, ascending (R501). -/
def State.chansUp (s : State) (k : Nat) : List Nat := (List.range 32).filter fun ch => !s.chanFenced k ch

/-- Extent of a region's slice on a member whose channel list has nch channels (R193, R501). -/
def sliceExtent (g : Region) (u nmem nch : Nat) : Nat :=
  let n := g.size / max 1 nmem
  if u < 20 then roundUp ((n * 32 + max 1 nch - 1) / max 1 nch) 65536 else n

def State.sliceSpan (s : State) (r u : Nat) : Nat × Nat :=
  let g := s.region r
  (g.slice, g.slice + sliceExtent g u g.memberList.length (s.chanList r u).length)

/-! ## Fences of memory units (R213, R215) -/

def unitPage (u : Nat) : Nat := if u < 20 then Pg.msc u else Pg.lpc ((u - 20) / 2)
def unitDie (u : Nat) : Nat := if u < 20 then u / 5 else (u - 20) / 8
def chanKey (k ch : Nat) : Nat := unitKey (Pg.msc k) ch
def lpKey (k : Nat) : Nat := unitKey (Pg.lpc (k / 2)) (k % 2)

/-- A part fails: the mirror copies on the stacks that it takes away are gone; while a copy is missing, one that takes the other copy, or the
die of the submission engine, reduces the report of a recovery (R380, R389; log 131). -/
def State.mirrorFault (s : State) (gone : Nat → Bool) (engine : Bool) : State :=
  let left := s.host.mirrors.filter fun k => !gone k
  s.withHost { s.host with mirrors := left, mirrorLost := s.host.mirrorLost || (decide (s.host.mirrors.length < 2) && (engine || decide (left.length < s.host.mirrors.length))) }

def State.fenceStack (s : State) (k cause : Nat) : State :=
  (s.fenceUnit (k / 5) (Pg.msc k) (stackKey k) cause).mirrorFault (fun x => decide (x = k)) false

/-- A channel is fenced; with eight fenced, the stack (R213). -/
def State.fenceChan (s : State) (k ch cause : Nat) : State :=
  let s1 := (s.setFld (Pg.msc k) F.mscFenceChan (s.fld (Pg.msc k) F.mscFenceChan ||| 2 ^ ch)).fenceUnit (k / 5) (Pg.msc k) (chanKey k ch) cause
  if 8 ≤ Bits.popcount 32 (s1.fld (Pg.msc k) F.mscFenceChan) then s1.fenceStack k 6 else s1

def State.fenceLp (s : State) (k cause : Nat) : State :=
  let r := Pg.lpc (k / 2) + 0x118
  (s.setReg r (Bits.putBit (s.reg r) (k % 2) true)).fenceUnit (k / 8) (Pg.lpc (k / 2)) (lpKey k) cause

/-! ## Errors of the arrays (R209 to R214, R398) -/

/-- Records an uncorrectable error of a unit; the fourth within 86,400 s answers true (R213, R398). -/
def State.ueStamp (s : State) (d key : Nat) : State × Bool :=
  let u := s.unitRec key
  let old := within (s.now d) dayNs u.strikes
  (s.putUnit key { u with strikes := (s.now d :: u.strikes).take 3 }, decide (3 ≤ old.length))

/-- The valid region whose slice holds a member offset. -/
def State.regionOf (s : State) (u moff : Nat) : Option Nat :=
  (List.range 64).find? fun r => (s.region r).valid && (s.region r).memberList.contains u && (let (a, b) := s.sliceSpan r u; decide (a ≤ moff ∧ moff < b))

/-- An uncorrectable line (R210, R214): poisoned in place, counted, event MEM_UE; the fourth within 86,400 s fences. -/
def State.lineUe (s : State) (u moff ch : Nat) (addr : W64) : State :=
  let key := u * 2 ^ 38 + moff / 64 * 64
  let sync := match s.regionOf u moff with | some r => (s.region r).sync | none => false
  let s1 := if sync then (List.range 8).foldl (fun s i => s.setPoison (key + 8 * i) true) s else s.setLine key true
  let p := unitPage u
  let s2 := s1.addFld p F.mscEccUe 1
  let s3 := if sync then s2 else s2.addFld p F.mscEccPoisonWr 1
  let s4 := s3.event (unitDie u) Ev.memUe 0 (unitOf p) ch addr
  let (s5, fourth) := s4.ueStamp (unitDie u) (if u < 20 then chanKey u ch else lpKey (u - 20))
  if !fourth then s5
  else if u < 20 then (if s5.chanFenced u ch then s5 else s5.fenceChan u ch 2) else if s5.lpFenced (u - 20) then s5 else s5.fenceLp (u - 20) 2

def State.lineCe (s : State) (u : Nat) : State := s.addFld (unitPage u) F.mscEccCe 1

/-- An SRAM error (R398): corrected ones are counted, one event per 1,024; an uncorrectable one poisons its word, and the
fourth within 86,400 s fences the cluster, or the segment. -/
def State.sramErr (s : State) (p : Place) (a : Nat) (ue : Bool) : State :=
  let (d, page, key, i) := match p with
    | .cluster c => (c / 12, Pg.clu c, clusterKey c, c)
    | .shared d seg => (d, Pg.isl d 34, unitKey (Pg.isl d 34) 1 + seg * 2 ^ 24, 48 + d)
    | _ => (0, 0, 0, 0)
  if !ue then
    let n := KMap.get 0 s.ms.sramCe i + 1
    let s1 := s.withMs { s.ms with sramCe := KMap.set 0 s.ms.sramCe i (n % 1024) }
    if n = 1024 then s1.event d Ev.sramCe 0 (unitOf page) 1024 0 else s1
  else
    let (s1, fourth) := ((s.setPoison a true).event d Ev.sramUe 0 (unitOf page) 0 (BitVec.ofNat 64 a)).ueStamp d key
    if !fourth then s1 else match p with
      | .cluster c => s1.fenceCluster c 2
      | _ => s1.fenceUnit d page key 2

/-- What a read of a local address meets in the array. A parity error on the way to a stack is retried once; one that is met again is
handled as a line that cannot be corrected (R199, R214). -/
def State.arrayErr (s : State) (a : Nat) (e : ArrayErr) : State :=
  match e, s.place a with
  | .none, _ => s
  | .parityOnce, _ => s
  | .parityTwice, some (.unit r u m) => if u < 20 then s.lineUe u m (s.channelOf r u m) (BitVec.ofNat 64 a) else s
  | .parityTwice, _ => s
  | .corrected, some (.unit _ u _) => s.lineCe u
  | .uncorrectable, some (.unit r u m) => s.lineUe u m (if u < 20 then s.channelOf r u m else (u - 20) % 2) (BitVec.ofNat 64 a)
  | .corrected, some p => if p = .window then s else s.sramErr p a false
  | .uncorrectable, some p => if p = .window then s else s.sramErr p a true
  | _, none => s

/-- What the reads of a command meet in the arrays, in order: local address and error. -/
def State.meet (s : State) (hits : Hits) : State := hits.foldl (fun s h => s.arrayErr h.1 h.2) s

end Sys2Proof.Machine
end

