-- ==== Sys2Proof/Machine/Matrix.lean ====
section
/-! DEFINITION. The arithmetic of a tile (03, 04): operands as the loaders deliver them, requantised or not, K-block sums, the
running output, the checks, the signature of a failing run, and the checks of the command itself. -/

namespace Sys2Proof.Machine

/-! ## Fields of the command (R93) -/

def TileCmd.m (t : TileCmd) : Nat := wf t.words 1 31 16
def TileCmd.n (t : TileCmd) : Nat := wf t.words 1 15 0
def TileCmd.k (t : TileCmd) : Nat := wf t.words 2 31 0
def TileCmd.kb (t : TileCmd) : Nat := 64 * 2 ^ wf t.words 0 23 22
def TileCmd.ta (t : TileCmd) : Bool := (wd t.words 0).getLsbD 27
def TileCmd.tb (t : TileCmd) : Bool := (wd t.words 0).getLsbD 26
def TileCmd.rql (t : TileCmd) : Bool := (wd t.words 0).getLsbD 25
def TileCmd.fmtA (t : TileCmd) : Fmt := .ofWord (wf t.words 1 63 48)
def TileCmd.fmtB (t : TileCmd) : Fmt := .ofWord (wf t.words 1 47 32)
def TileCmd.refA (t : TileCmd) : TRef := ⟨t.fmtA, wf t.words 3 31 0, wf t.words 3 63 32, wf t.words 4 31 0, wf t.words 4 63 32⟩
def TileCmd.refB (t : TileCmd) : TRef := ⟨t.fmtB, wf t.words 5 31 0, wf t.words 5 63 32, wf t.words 6 31 0, wf t.words 6 63 32⟩

/-- Blocks that run along a row (1×N). -/
def Fmt.rowBlocks (f : Fmt) : Bool := decide (1 ≤ f.blk ∧ f.blk ≤ 4)
/-- Whether an operand is requantised on load (R117). -/
def requantised (t : TileCmd) (f : Fmt) (tr : Bool) : Bool := t.rql && tr && f.rowBlocks

/-! ## Checks before the first K-step (R94) -/

/-- The block extent along K (R82, R118); along: the stored rows run along K. -/
def kExtent (f : Fmt) (along requant : Bool) : Nat := if requant then 8 else if f.square then f.blkH else if f.rowBlocks && along then f.blkW else 1

/-- The stride of a tensor whose stored rows have the given columns (R91). -/
def strideFits (r : TRef) (cols : Nat) : Bool :=
  let f := r.fmt
  if f.square then decide (r.stride % f.blkBytes = 0 ∧ roundUp cols f.blkW / f.blkW * f.blkBytes ≤ r.stride)
  else
    let unit := max 1 (f.blkW * f.bits / 8)
    decide (r.stride ≠ 0 ∧ r.stride % unit = 0 ∧ roundUp cols f.blkW * f.bits / 8 ≤ r.stride)

/-- Base and stride of an operand (R91). -/
def strideOk (r : TRef) (cols : Nat) : Bool := decide (r.elem % 256 = 0) && strideFits r cols

/-- One above the highest cluster-SRAM address that a tensor of rows × cols takes (R91). -/
def TRef.reachEnd (r : TRef) (rows cols : Nat) : Nat :=
  let f := r.fmt
  let last := r.bitAddr (roundUp rows f.blkH - 1) (roundUp cols f.blkW - 1)
  max ((last + f.bits + 7) / 8) (max (if f.scaled then r.scaleAddr (rows - 1) (cols - 1) + 1 else 0)
    (max (if f.fmt = fmtW40 then r.scale + (rows - 1) * (r.stride / 4) + cols else 0) (if f.slots = 0 then 0 else r.runAddr last + 4 * f.slots)))

def sramBytes : Nat := 0x1800000

/-- The bytes of a cluster's SRAM that its context is allocated (R190). -/
def State.sramSize (s : State) (c : Nat) : Nat := if s.runCtx c = 0 || s.bitF (Pg.clu c) F.cluCtxValid then sramBytes else 0

/-- The checks of R94 in their order, in an allocation of sram bytes: the status of the first that fails. -/
def tileCheck (sram : Nat) (t : TileCmd) : Nat :=
  let fa := t.fmtA; let fb := t.fmtB
  let ra := requantised t fa t.ta; let rb := requantised t fb t.tb
  let (arows, acols) := if t.ta then (t.k, t.m) else (t.m, t.k)
  let (brows, bcols) := if t.tb then (t.n, t.k) else (t.k, t.n)
  if wf t.words 0 63 56 ≠ 1 ∨ wf t.words 0 24 24 ≠ 0 ∨ wf t.words 0 21 0 ≠ 0 ∨ wf t.words 2 63 32 ≠ 0 ∨ wd t.words 7 ≠ 0 then St.protocolErr
  else if t.m = 0 ∨ 256 < t.m ∨ t.n = 0 ∨ 256 < t.n then St.protocolErr
  else if fa.check ≠ St.ok then fa.check
  else if fb.check ≠ St.ok then fb.check
  else if fa.fmt = fmtW40 ∨ fb.fmt = fmtW40 then St.fmtUnsupported
  else if (t.ta && fa.rowBlocks && !t.rql) || (t.tb && fb.rowBlocks && !t.rql) then St.blockAxis
  else if t.k = 0 ∨ t.k % t.kb ≠ 0 ∨ 1048576 < t.k ∨ t.kb % kExtent fa (!t.ta) ra ≠ 0 ∨ t.kb % kExtent fb t.tb rb ≠ 0 then St.kbAlign
  else if !strideOk t.refA acols || !strideOk t.refB bcols then St.protocolErr
  else if sram < t.refA.reachEnd arows acols ∨ sram < t.refB.reachEnd brows bcols then St.sramRange
  else if t.egress && !t.early then St.earlyDenied
  else St.ok

/-- The conditions of a pair (R120). -/
def pairOk (p q : TileCmd) : Bool :=
  decide (p.refA = q.refB) && decide (wf p.words 1 63 48 = wf q.words 1 47 32) && !p.ta && !q.tb && decide (p.m = q.k ∧ p.k = q.n) &&
    decide (wf p.words 0 23 22 = wf q.words 0 23 22) && decide (p.bank ≠ q.bank) && decide (p.fmtA.fmt ≠ fmtFP32)

/-! ## Operands (R80, R88, R90, R115, R117) -/

/-- An operand as delivered: element (r, c) of the delivered tile, with the exponent of its block scale (for an escape, of its
value) that R86 uses; and the events of requantising it. -/
structure Operand where
  val : Nat → Nat → Fl
  exp : Nat → Nat → Int
  orphan : Nat → Nat → Bool
  ev : Events

/-- Bytes that bit fields leave over zeros. -/
def packFields (fields : List (Nat × Nat × Nat)) : KMap Byte :=
  fields.foldl (fun m (bit, w, v) =>
    (List.range ((bit % 8 + w + 7) / 8)).foldl (fun m i =>
      let a := bit / 8 + i
      let part := v * 2 ^ (bit % 8) / 2 ^ (8 * i) % 256
      KMap.set 0 m a (KMap.get 0 m a ||| BitVec.ofNat 8 part)) m) []

/-- The exponent that an element contributes to a combined exponent (R86). -/
def scaleExp (t : TRef) (rd : Nat → Byte) (i j : Nat) : Int :=
  let e := t.read rd i j
  if e.escape then e.val.log2 else if t.fmt.scaled then ((rd (t.scaleAddr i j)).toNat : Int) - 127 else 0

/-- Whether a stored element lies in a NaN block of a format without NaN (R59). -/
def TRef.satBlock (t : TRef) (rd : Nat → Byte) (i j : Nat) : Bool := t.fmt.scaled && decide (t.fmt.fmt ≤ fmtT2) && decide (rd (t.scaleAddr i j) = 0xFF)

/-- A delivered operand of rows × cols; tr: the stored tensor is its transpose. A requantised element of a NaN block of F4, I4 or T2
reads, in its destination format, as a saturated value (R59, R117). -/
def deliver (t : TRef) (rd : Nat → Byte) (rows cols : Nat) (tr requant : Bool) : Operand :=
  let at_ := fun r c => if tr then t.read rd c r else t.read rd r c
  if requant then
    let f8 : Fmt := { t.fmt with blk := 6 }
    let blocks := (cols + 7) / 8 * f8.blkBytes
    let plane := (rows + 7) / 8 * blocks
    let v : TRef := ⟨f8, 0, roundUp plane f8.segBytes, roundUp plane f8.segBytes + (rows + 7) / 8 * ((cols + 7) / 8), blocks⟩
    let bad := fun r c => if tr then t.satBlock rd c r else t.satBlock rd r c
    let val := fun r c => let e := at_ r c; if bad r c then Fl.inf (Config.nanBlockNeg t.fmt.fmt e.code) else e.val
    let els := (v.elements rows cols val fun r c => (at_ r c).escape).zip (v.places rows cols)
    let w := writeNarrow f8 (els.map fun x => if x.1.real && bad x.2.1 x.2.2 then { x.1 with sat := true } else x.1)
    let mem := packFields w.fields
    let rd8 := fun a => KMap.get (0 : Byte) mem a
    ⟨fun r c => (v.read rd8 r c).val, scaleExp v rd8, fun r c => (at_ r c).orphan, w.ev⟩
  else ⟨fun r c => (at_ r c).val, fun r c => if tr then scaleExp t rd c r else scaleExp t rd r c, fun r c => (at_ r c).orphan, .none⟩

/-- Whether a delivered element's bytes hold poison (R92). -/
def State.operandPoison (s : State) (base : Nat) (t : TRef) (rows cols : Nat) (tr : Bool) : Bool :=
  (List.range rows).any fun r => (List.range cols).any fun c =>
    (t.readAddrs (fun a => s.byteAt (base + a)) (if tr then c else r) (if tr then r else c)).any fun a => s.poisonedAt (base + a)

/-! ## K-block sums (R83 to R87) -/

def exactPair (fa fb : Nat) : Bool := decide (fa ≤ fmtT2 ∧ fb ≤ fmtT2)

/-- The accumulator of R84: 32 significand bits. -/
def acc32 (v p : Fl) : Fl :=
  match Fl.add v p with
  | .fin n m e => let (r, q) := roundMag 32 none m e; .fin n r q
  | x => x

/-- The H12 part of a finite FP32 value, and the rest (R79). -/
def high12 : Fl → Fl | .fin n m e => .fin n (m / 4096 * 4096) e | v => v
def low12 : Fl → Fl | .fin n m e => .fin n (m % 4096) e | _ => .zero

/-- The part of an operand that a pass takes; another format than FP32 is whole in the H pass and absent from the L pass. -/
def passPart (fmt : Nat) (high : Bool) (v : Fl) : Fl := if fmt = fmtFP32 then (if high then high12 v else low12 v) else if high then v else .zero

/-- The product that a pass adds for a pair (R79): the pair with a non-finite element only in the H·H pass. -/
def passProd (fa fb : Nat) (ha hb : Bool) (a b : Fl) : Fl :=
  if a.isFin && b.isFin then .mul (passPart fa ha a) (passPart fb hb b) else if ha && hb then .mul a b else .zero

/-- The sum of one K-block for a cell (R83, R84). -/
def kbSum (fa fb : Nat) (as bs : List Fl) : Fl :=
  let ps := as.zip bs
  if exactPair fa fb then Fl.sum (ps.map fun p => .mul p.1 p.2)
  else
    let passes := if fa = fmtFP32 ∨ fb = fmtFP32 then [(true, true), (true, false), (false, true), (false, false)] else [(true, true)]
    passes.foldl (fun acc h => ps.foldl (fun acc p => acc32 acc (passProd fa fb h.1 h.2 p.1 p.2)) acc) .zero

/-- One addition to the running output (R85): the code and whether it saturated. -/
def runAdd (out : Nat) (sum : Fl) : Rounded := fp32F.round (.add (fp32v out) (match sum with | .fin _ 0 _ => .zero | v => v))

/-- What one run of a tile gives. -/
structure RunOut where
  result : KMap W32
  sats : Nat
  skips : Nat
  fail : Option Locus
  long : Nat

/-- A checksum lane (R98, R99): exact for an exact pair, else accumulated like an array cell. -/
def chkLane (exact : Bool) (ps : List Fl) : Fl := if exact then Fl.sum ps else ps.foldl acc32 .zero

/-- Whether a sum and its checksum agree within the bound of R99. -/
def chkPass (exact : Bool) (sum chk s : Fl) : Bool :=
  if exact then Fl.eq sum chk else Fl.le (Fl.sub sum chk).abs (s.scale (-18))

/-- The comparisons of one K-block on one side: indices left out, and indices that fail (R98 to R100). -/
def chkSide (exact : Bool) (n : Nat) (sums : Nat → Fl) (lanes : Nat → Fl × Fl) : List Nat × List Nat :=
  (List.range n).foldl (fun acc i =>
    let s := sums i
    let (c, g) := lanes i
    if !s.isFin || !c.isFin then (acc.1 ++ [i], acc.2) else if chkPass exact s c g then acc else (acc.1, acc.2 ++ [i])) ([], [])

/-- One run of the array over a command: the result, the saturations, the comparisons and the locus of a mismatch. Cell faults
change K-block sums or running additions (R98, R99); the residue of a running addition is taken mod 7, so a fault of a multiple of 7
passes (R85, R101; log 115). An element counts one saturation at most (R74). A span counts finite operands and products only: others leave the window (R86). -/
def runTile (t : TileCmd) (a b : Operand) (start : Nat → Nat) (faults : List CellFault) : RunOut :=
  let fa := t.fmtA.fmt; let fb := t.fmtB.fmt
  let ex := exactPair fa fb
  let ks := fun kb => (List.range t.kb).map (kb * t.kb + ·)
  let row := fun kb i => (ks kb).map (a.val i)
  let col := fun kb j => (ks kb).map fun k => b.val k j
  let cell := fun kb i j =>
    (faults.filter fun f => decide (f.kb = kb ∧ f.row = i ∧ f.col = j) && !f.acc).foldl (fun v f => Fl.add v (.ofInt false f.delta f.exp)) (kbSum fa fb (row kb i) (col kb j))
  let nkb := t.k / t.kb
  let outs := (List.range t.m).flatMap fun i => (List.range t.n).map fun j =>
    (i * 256 + j, (List.range nkb).foldl (fun (acc : Nat × Nat) kb =>
      let bad := faults.filter fun f => decide (f.kb = kb ∧ f.row = i ∧ f.col = j) && f.acc
      let r := runAdd acc.1 (bad.foldl (fun v f => Fl.add v (.ofInt false f.delta f.exp)) (cell kb i j))
      (r.code, if r.sat then 1 else acc.2)) (start (i * 256 + j), 0))
  let eta := fun mag kb => (ks kb).map fun k => (List.range t.m).foldl (fun v i => Fl.add v (if mag then (a.val i k).abs else a.val i k)) Fl.zero
  let be := fun mag kb => (ks kb).map fun k => (List.range t.n).foldl (fun v j => Fl.add v (if mag then (b.val k j).abs else b.val k j)) Fl.zero
  let one := fun kb =>
    let ea := eta false kb; let eg := eta true kb; let ba := be false kb; let bg := be true kb
    let cs := chkSide ex t.n (fun j => Fl.sum ((List.range t.m).map fun i => cell kb i j)) fun j =>
      (chkLane ex ((ea.zip (col kb j)).map fun p => .mul p.1 p.2), chkLane ex ((eg.zip (col kb j)).map fun p => .mul p.1 p.2.abs))
    let rs := chkSide ex t.m (fun i => Fl.sum ((List.range t.n).map fun j => cell kb i j)) fun i =>
      (chkLane ex (((row kb i).zip ba).map fun p => .mul p.1 p.2), chkLane ex (((row kb i).zip bg).map fun p => .mul p.1.abs p.2))
    let res := faults.filter fun f => decide (f.kb = kb ∧ f.row < t.m ∧ f.col < t.n ∧ f.delta % 7 ≠ 0) && f.acc
    let rows := (rs.2 ++ res.map (·.row)).eraseDups
    let cols := (cs.2 ++ res.map (·.col)).eraseDups
    (cs.1.length + rs.1.length, rows, cols)
  let chk := (List.range nkb).map one
  let fail := ((List.range nkb).zip chk).findSome? fun (kb, _, rows, cols) =>
    if rows.isEmpty && cols.isEmpty then none
    else some (⟨kb, (rows.min?).getD 0, (cols.min?).getD 0, decide (1 < rows.length ∨ 1 < cols.length)⟩ : Locus)
  let span := fun kb i j =>
    let fin := fun (val : Nat → Fl) => (ks kb).filter fun k => (val k).isFin
    let anchor := (((fin (a.val i)).map (a.exp i)).foldl max (-200)) + (((fin fun k => b.val k j).map fun k => b.exp k j).foldl max (-200))
    let used := (ks kb).filter fun k => let p := Fl.mul (a.val i k) (b.val k j); p.isFin && !p.isZero
    used.any fun k => decide (96 < anchor - (a.exp i k + b.exp k j))
  let long := if ex then (List.range nkb).countP fun kb => (List.range t.m).any fun i => (List.range t.n).any fun j => span kb i j else 0
  { result := outs.foldl (fun m o => KMap.set 0 m o.1 (BitVec.ofNat 32 o.2.1)) []
    sats := outs.foldl (fun n o => n + o.2.2) 0
    skips := chk.foldl (fun n c => n + c.1) 0
    fail := fail
    long := long }

/-! ## Signature (R112) -/

/-- Scale bytes and packed codes of a line of stored elements. -/
def lineBytes (t : TRef) (rd : Nat → Byte) (ps : List (Nat × Nat)) : List Byte :=
  let scales := if t.fmt.scaled then ((ps.map fun p => t.scaleAddr p.1 p.2).eraseDups).map rd else []
  let bits := t.fmt.bits
  let code := ps.foldr (fun p acc => (t.read rd p.1 p.2).code + 2 ^ bits * acc) 0
  scales ++ natBytes ((ps.length * bits + 7) / 8) code

def signature (t : TileCmd) (rd rdB : Nat → Byte) (l : Locus) : W64 :=
  let ks := (List.range t.kb).map (l.kb * t.kb + ·)
  let a := lineBytes t.refA rd (ks.map fun k => if t.ta then (k, l.row) else (l.row, k))
  let b := lineBytes t.refB rdB (ks.map fun k => if t.tb then (l.col, k) else (k, l.col))
  Bits.make [(63, 60, t.fmtA.fmt), (59, 56, t.fmtB.fmt), (55, 55, if l.multi then 1 else 0), (54, 48, l.kb), (47, 40, l.row), (39, 32, l.col), (31, 0, crc32 (a ++ b))]

end Sys2Proof.Machine
end

