-- ==== Sys2Proof/Machine/Mxe.lean ====
section
/-! DEFINITION. The matrix engines' commands (R78 to R124): issue, execution, checks, re-runs, drains, fences, self-test. -/

namespace Sys2Proof.Machine

/-! ## Issue (R95, R113, R120, R121, R159) -/

/-- The steward core's context fills CTX; the early-egress permission is that of the moment (R93, R113). -/
def State.tileOf (s : State) (c a pair : Nat) : TileCmd :=
  let ctx := s.runCtx c
  let ws := s.scratchWords c a 8
  ⟨ws.set 0 (Bits.put (wd ws 0) 55 48 ctx), (s.reg (Pg.mxg (c / 12) + 0x100 + 8 * (ctx / 64))).getLsbD (ctx % 64), pair, s.mxesUp c,
    (s.clu c).nextNo + if pair = 2 then 1 else 0⟩

/-- Tile commands join a slot's queue. -/
def State.pushTiles (s : State) (c slot : Nat) (l : List TileCmd) : State :=
  let k := s.clu c
  s.setClu c { k with tiles := KMap.set [] k.tiles slot (k.tileQ slot ++ l), nextNo := k.nextNo + l.length }

def execTissue (c : ClusterNo) (rd rs1 rs2 : Gpr) (s : State) : Host.Outcome State Fault Refusal :=
  let p := stewardOf c
  if !s.coreRuns p then .next s else
  let slot := (s.g p rs1).toNat % 4
  let q := (s.clu c).tileQ slot
  .next (s.newWork p rd (if 16 ≤ q.length then s.retSt p rd St.queueFull
    else (s.pushTiles c slot [s.tileOf c (s.g p rs2).toNat 0]).retSt p rd St.ok))

def execTpair (c : ClusterNo) (rd rs1 rs2 : Gpr) (s : State) : Host.Outcome State Fault Refusal :=
  let p := stewardOf c
  if !s.coreRuns p then .next s else
  let slot := (s.g p rs1).toNat % 4
  let a := (s.g p rs2).toNat
  let q := (s.clu c).tileQ slot
  .next (s.newWork p rd (if 15 ≤ q.length then s.retSt p rd St.queueFull
    else (s.pushTiles c slot [s.tileOf c a 1, s.tileOf c (a + 64) 2]).retSt p rd St.ok))

/-! ## A run -/

/-- What loader LA copies of P's operand A: every byte that reading the tile takes, and whether one is poisoned (R122). -/
def State.shareTile (s : State) (c : Nat) (t : TileCmd) : SharedTile :=
  let rd := fun a => s.byteAt (clusterBase c + a)
  let at_ := (List.range t.m).flatMap fun i => (List.range t.k).flatMap fun j => t.refA.readAddrs rd i j
  ⟨at_.foldl (fun m a => KMap.set 0 m a (rd a)) [], s.operandPoison (clusterBase c) t.refA t.m t.k t.ta⟩

/-- What a run of a command needs and leaves: the run's outcome, whether it read poison, the signature of a mismatch, and the
state with its events counted. shared: the buffer that operand B comes from (R122), else cluster SRAM. -/
def State.runOn (s : State) (c : Nat) (t : TileCmd) (shared : Option SharedTile) (start : Nat → Nat) (faults : List CellFault) : RunOut × Bool × W64 × State :=
  let base := clusterBase c
  let rd := fun a => s.byteAt (base + a)
  let rdB := match shared with | some x => fun a => KMap.get 0 x.data a | none => rd
  let ra := requantised t t.fmtA t.ta; let rb := requantised t t.fmtB t.tb
  let a := deliver t.refA rd t.m t.k t.ta ra
  let b := deliver t.refB rdB t.k t.n t.tb rb
  let poison := s.operandPoison base t.refA t.m t.k t.ta || match shared with | some x => x.poison | none => s.operandPoison base t.refB t.k t.n t.tb
  let r := runTile t a b start faults
  let orphans := fun (o : Operand) rows cols => (List.range rows).foldl (fun n i => n + (List.range cols).countP (o.orphan i)) 0
  let s1 := s.countEvents (c / 12) t.ctx t.fmtA.fmt { a.ev with orphan := orphans a t.m t.k }
  let s2 := s1.countEvents (c / 12) t.ctx t.fmtB.fmt { b.ev with orphan := orphans b t.k t.n }
  let s3 := s2.countEvents (c / 12) t.ctx fmtFP32 { Events.none with sat := r.sats }
  (r, poison, match r.fail with | some l => signature t rd rdB l | none => 0, s3)

/-- Contents of bank b, by cell, of the logical slot of engine e's number: an accumulation belongs to its slot, so that remapping changes
no result (R76, R104, R110; log 116). -/
def bankKey (e b i : Nat) : Nat := (2 * e + b) * 65536 + i
def State.bankOf (s : State) (e b : Nat) : KMap W32 := (s.banks.filter fun x => decide (x.1 / 65536 = 2 * e + b)).map fun x => (x.1 % 65536, x.2)
def State.setBank (s : State) (e b : Nat) (m : KMap W32) : State :=
  s.withBanks (m.foldl (fun k x => KMap.set 0 k (bankKey e b x.1) x.2) (s.banks.filter fun x => decide (x.1 / 65536 ≠ 2 * e + b)))

def State.putRuns (s : State) (e : Nat) (l : List TileRun) : State := s.setMxe e { s.mxe e with runs := l }

/-- The run of a cluster, with the engine that holds it, that meets a condition. -/
def State.findRun (s : State) (c : Nat) (p : TileRun → Bool) : Option (Nat × TileRun) :=
  ((List.range 4).map (4 * c + ·)).findSome? fun e => ((s.mxe e).runs.find? p).map fun r => (e, r)

def State.replaceRun (s : State) (r r1 : TileRun) : State := s.putRuns r.first ((s.mxe r.first).runs.map fun x => if x = r then r1 else x)

/-! ## Outcome of a tile (R95, R102 to R106) -/

/-- Whether an early-egress tile mismatched (R103). -/
def TileRun.late (r : TileRun) : Bool := r.cmd.egress && !r.bad.isEmpty

/-- The engine number whose banks are a slot's. -/
def TileRun.home (r : TileRun) : Nat := r.first / 4 * 4 + r.slot

/-- A command has ended: its record, and those that waited for it. -/
def State.tileRecord (s : State) (c slot unit : Nat) (t : TileCmd) (droop rql : Bool) (st : Nat) : State := (s.lateRec c slot unit t droop rql st).releaseLate c

/-- Ends a tile whose check and drain are over: its record, the visibility of its entry, and what follows for the context. -/
def State.settleTile (s : State) (r : TileRun) : State :=
  let c := r.first / 4
  let gate := r.drained && (r.cmd.egress || decide (r.phase = 2))
  let s1 := if gate then s.mapFte r.first r.entry fun x => { x with hidden := false } else s
  let drop := fun (s : State) => s.putRuns r.first ((s.mxe r.first).runs.filter fun x => decide (x ≠ r))
  if r.phase = 3 then
    let s2 := (drop (s1.freeFte r.first r.entry)).setErr (Pg.mxe r.first) F.mxeErrStatCheckFail r.cmd.ctx
    let s3 := if r.cmd.emit then s2 else s2.setBank r.home r.cmd.bank r.start
    let s4 := (s3.tileRecord c r.slot (Pg.mxe r.first) r.cmd r.anyDroop r.requant St.checkFail).event (c / 12) Ev.clDatapath r.cmd.ctx (unitOf (Pg.mxe r.first)) r.cmd.tag 0
    (s4.fenceWaited r.first).showMxes c
  else if r.phase = 2 ∧ (r.cmd.emit = false ∨ r.drained = true) then
    let st := if r.poisoned then St.poisoned else if r.late then St.checkLate else St.ok
    let s2 := (drop s1).tileRecord c r.slot (Pg.mxe r.first) r.cmd r.droop r.requant st
    let s3 := (s2.fenceWaited r.first).showMxes c
    if r.poisoned then s3.consume (c / 12) r.cmd.ctx (unitOf (Pg.mxe r.first)) 0 else s3
  else s1.showMxes c

/-- A command that ends without a run, at the engine of a page (0: none is in service). -/
def State.refuseTile (s : State) (c slot unit : Nat) (t : TileCmd) (st : Nat) : State := s.tileRecord c slot unit t false false st

/-- Whether a bank is free for a new command of a slot: nothing of the engine's, or of the slot's, on it waits for a check, a re-run, a
drain or an entry (R78, R104, R108; log 23). -/
def State.bankFree (s : State) (e slot b : Nat) : Bool :=
  ((List.range 4).map (e / 4 * 4 + ·)).all fun x => (s.mxe x).runs.all fun r => decide (r.cmd.bank ≠ b ∨ (x ≠ e ∧ r.slot ≠ slot))

/-- The command at a slot's head starts on an engine (R94 to R97, R101); P of a pair fills the shared-tile buffer, Q takes its B from
it (R122). -/
def State.startTile (s : State) (c slot e : Nat) (t : TileCmd) (faults : List CellFault) : State :=
  let home := 4 * c + slot
  let start := s.bankOf home t.bank
  let (r, poison, sig, s1) := s.runOn c t (if t.pair = 2 then (s.mxe e).shared else none) (fun i => if t.acc then (KMap.get 0 start i).toNat else 0) faults
  let droop := s.droopWarn (c / 12)
  let run : TileRun :=
    { cmd := t, slot := slot, first := e, last := e, tried := [e], bad := if r.fail.isSome && !poison then [(e, sig)] else [], locus := r.fail, result := r.result
      start := start, droop := droop, anyDroop := droop, poisoned := poison, requant := requantised t t.fmtA t.ta || requantised t t.fmtB t.tb
      entry := 0, kbs := t.k / t.kb, skips := r.skips, phase := if poison then 2 else 0, draining := false, drained := false }
  let m := s1.mxe e
  let s2 := s1.setMxe e { m with runs := m.runs ++ [run], shared := if t.pair = 1 then some (s.shareTile c t) else none }
  let h := s2.mxe home
  let s3 := (s2.setMxe home { h with accum := if t.emit then h.accum &&& ~~~(1#2 <<< t.bank) else h.accum ||| (1#2 <<< t.bank) }).setBank home t.bank r.result
  let s4 := (s3.addWork (Pg.mxe e) t.k).addFld (Pg.mxe e) F.mxePerfLongKb r.long
  s4.settleTile run

/-- Whether an engine may start the command at a slot's head: no re-run comes first, no other slot's pair is between its tiles, and the
banks it needs are free, both for a pair (R104, R122). -/
def State.mayStartTile (s : State) (c slot e : Nat) (t : TileCmd) : Bool :=
  !s.unitBlocked c (Pg.mxe e) && !s.inReset [(0, e), (9, c)] &&
  (decide (t.pair = 2) || (!s.pairDue e && (s.findRun c fun r => decide (r.phase = 1 ∧ r.last = e)).isNone)) &&
  s.bankFree e slot t.bank && (decide (t.pair ≠ 1) || s.bankFree e slot (1 - t.bank))

/-- Both members of a pair end without a run. -/
def State.refusePair (s : State) (c slot unit : Nat) (p q : TileCmd) (stp stq : Nat) : State := (s.refuseTile c slot unit p stp).refuseTile c slot unit q stq

/-- Issue stops while THERMTRIP_N is low (R43). With no engine left, a pair ends as one command (R110, R124). -/
def execTileExecute (c : Met ClusterNo) (slot : Fin 4) (faults : List CellFault) (s : State) : Host.Outcome State Fault Refusal :=
  match (s.clu c.arg).tileQ slot with
  | [] => .next s
  | t :: rest =>
    match s.mxeFor c.arg slot t, t.pair, rest with
    | none, 1, q :: rest2 => .next ((s.setTileQ c.arg slot rest2).refusePair c.arg slot 0 t q St.engineFenced St.engineFenced)
    | none, _, _ => .next ((s.setTileQ c.arg slot rest).refuseTile c.arg slot 0 t St.engineFenced)
    | some e, 1, q :: rest2 =>
      let stp := tileCheck (s.sramSize c.arg) t
      let stq := tileCheck (s.sramSize c.arg) q
      if s.plat.thermtrip || s.unitBlocked c.arg (Pg.mxe e) || s.inReset [(0, e), (9, c.arg)] then .next s
      else if stp ≠ St.ok ∨ stq ≠ St.ok ∨ !pairOk t q then
        let own := fun x => if x = St.ok then St.pairShape else x
        .next ((s.setTileQ c.arg slot rest2).refusePair c.arg slot (Pg.mxe e) t q (own stp) (own stq))
      else if !s.mayStartTile c.arg slot e t then .next s
      else .next (((s.meet c.hits).setTileQ c.arg slot ({ q with engines := [e] } :: rest2)).startTile c.arg slot e t faults)
    | some e, _, _ =>
      let st := if t.pair = 2 then St.ok else tileCheck (s.sramSize c.arg) t
      if s.plat.thermtrip || s.unitBlocked c.arg (Pg.mxe e) || s.inReset [(0, e), (9, c.arg)] then .next s
      else if st ≠ St.ok then .next ((s.setTileQ c.arg slot rest).refuseTile c.arg slot (Pg.mxe e) t st)
      else if !s.mayStartTile c.arg slot e t then .next s
      else .next (((s.meet c.hits).setTileQ c.arg slot rest).startTile c.arg slot e t faults)

/-- The engine that re-runs a tile (R104): the lowest in service that has not run it, else the last one. -/
def State.rerunEngine (s : State) (r : TileRun) : Nat := ((s.mxesUp (r.first / 4)).find? fun e => !r.tried.contains e).getD r.last

/-- The check's result is known (R98 to R101, R103 to R106). -/
def State.checkTile (s : State) (r : TileRun) : State :=
  let e := r.last
  let s1 := (s.addFld (Pg.mxe e) F.mxeChkKbChecked r.kbs).addFld (Pg.mxe e) F.mxeChkChkSkip r.skips
  match r.locus with
  | none =>
    let r1 := { r with phase := 2 }
    let s2 := s1.replaceRun r r1
    let s3 := if r.cmd.emit then s2 else s2.setBank r.home r.cmd.bank r.result
    (r.bad.foldl (fun s b => s.strikeMxe b.1 r.cmd.ctx b.2) s3).settleTile r1
  | some _ =>
    let s2 := (s1.addFld (Pg.mxe e) F.mxeChkMismatch 1).setErr (Pg.mxe e) F.mxeErrStatMismatch r.cmd.ctx
    let s3 := if r.cmd.egress then s2.setErr (Pg.mxe e) F.mxeErrStatCheckLate r.cmd.ctx else s2
    if 3 ≤ r.tried.length then let r1 := { r with phase := 3 }; (s3.replaceRun r r1).settleTile r1
    else let r1 := { r with phase := 1, last := s3.rerunEngine r }; (s3.replaceRun r r1).showMxes (r.first / 4)

def execTileCheckDone (e : MxeNo) (s : State) : Host.Outcome State Fault Refusal :=
  match s.findRun (e / 4) fun r => decide (r.phase = 0 ∧ r.last = e) with
  | some (_, r) => .next (s.checkTile r)
  | none => .next s

/-- A re-run from the start contents, ahead of the engine's own commands; it leaves its result in the engine's bank, but for the slots
mapped onto the engine that hold an accumulation there, which is saved and restored (R104); the result of an early-egress tile's re-run
is discarded (R105). -/
def State.rerunTile (s : State) (r : TileRun) (faults : List CellFault) : State :=
  let c := r.first / 4
  let (o, poison, sig, s1) := s.runOn c r.cmd none (fun i => if r.cmd.acc then (KMap.get 0 r.start i).toNat else 0) faults
  let droop := s.droopWarn (c / 12)
  let keep := r.cmd.egress
  let r1 := { r with tried := r.tried ++ [r.last], bad := if o.fail.isSome && !poison && !(r.bad.any fun b => decide (b.1 = r.last)) then r.bad ++ [(r.last, sig)] else r.bad, locus := o.fail
                     result := if keep then r.result else o.result, droop := if keep then r.droop else droop, anyDroop := r.anyDroop || droop, poisoned := poison
                     kbs := r.cmd.k / r.cmd.kb, skips := o.skips, phase := if poison then 2 else 0
                     draining := keep && r.draining, drained := keep && r.drained }
  let s2 := (List.range 4).foldl (fun s sl =>
    if s.mxeOfSlot c sl = some r.last && !(s.mxe (4 * c + sl)).accum.getLsbD r.cmd.bank then s.setBank (4 * c + sl) r.cmd.bank o.result else s) s1
  (((s2.replaceRun r r1).addWork (Pg.mxe r.last) r.cmd.k).addFld (Pg.mxe r.last) F.mxePerfLongKb o.long).settleTile r1

def execTileRerun (e : Met MxeNo) (faults : List CellFault) (s : State) : Host.Outcome State Fault Refusal :=
  if s.plat.thermtrip || s.inReset [(0, e.arg), (9, e.arg / 4)] || s.pairDue e.arg then .next s else
  match s.findRun (e.arg / 4) fun r => decide (r.phase = 1 ∧ r.last = e.arg) with
  | some (_, r) => .next ((s.meet e.hits).rerunTile r faults)
  | none => .next s

/-! ## Drain (R107, R108) -/

/-- Whether a run may take its place in the finished-tile queue: entries come in the order of the engine's commands, and eight
are in use at most (R107, R108). -/
def State.entryDue (s : State) (r : TileRun) : Bool :=
  decide ((s.mxe r.first).ftq.length < 8) && ((s.mxe r.first).runs.find? fun x => x.cmd.emit && decide (x.entry = 0)) == some r

/-- A run's drain begins with a new entry, hidden until the tile has passed or, for an early-egress tile, until the drain ends
(R102, R103, R107). -/
def State.takeEntry (s : State) (r : TileRun) : State :=
  let m := s.mxe r.first
  let x : Fte := { data := [], ctx := r.cmd.ctx, tag := r.cmd.tag, rows := r.cmd.m, cols := r.cmd.n, hidden := true, early := r.cmd.egress
                   droop := r.droop, poisoned := r.poisoned, claimed := false, id := m.nextId }
  ((s.setMxe r.first { m with ftq := m.ftq ++ [x], nextId := m.nextId + 1 }).replaceRun r { r with draining := true, entry := m.nextId }).showMxe r.first

def execTileDrainStart (e : MxeNo) (s : State) : Host.Outcome State Fault Refusal :=
  match s.findRun (e / 4) fun r => decide (r.last = e ∧ r.phase ≠ 1) && r.cmd.emit && !r.draining && (decide (r.entry ≠ 0) || s.entryDue r) with
  | none => .next s
  | some (_, r) => if r.entry ≠ 0 then .next (s.replaceRun r { r with draining := true }) else .next (s.takeEntry r)

def execTileDrainEnd (e : MxeNo) (s : State) : Host.Outcome State Fault Refusal :=
  match s.findRun (e / 4) fun r => r.draining && !r.drained && (decide (r.last = e) || (r.cmd.egress && decide (r.first = e))) with
  | none => .next s
  | some (_, r) =>
    let r1 := { r with drained := true }
    let s1 := s.mapFte r.first r.entry fun x => { x with data := r.result, droop := r.droop, poisoned := r.poisoned }
    .next ((s1.replaceRun r r1).settleTile r1)

/-! ## Cap, strikes, fence, self-test, counters (R96, R106, R110 to R112) -/

def execIssueCapWindow (e : MxeNo) (s : State) : Host.Outcome State Fault Refusal := .next (s.setFld (Pg.mxe e) F.mxeStatCapEff (s.effCap e))

def execStrikeWindowExpire (e : MxeNo) (s : State) : Host.Outcome State Fault Refusal := .next (s.showStrikes e)

def execMxeFence (e : MxeNo) (s : State) : Host.Outcome State Fault Refusal := .next (s.fenceMxe e 7)

def execMxeSelftest (e : MxeNo) (s : State) : Host.Outcome State Fault Refusal := .next (s.startSelftest (Pg.mxe e) F.mxeStatState)

def execMxeSelftestDone (e : MxeNo) (pass : Bool) (s : State) : Host.Outcome State Fault Refusal := .next (s.endSelftest (Pg.mxe e) F.mxeStatState pass)

def execMxeReadmit (e : MxeNo) (s : State) : Host.Outcome State Fault Refusal :=
  .next (((s.readmit (Pg.mxe e) F.mxeStatState (mxeKey e)).showStrikes e).showMxe e)

/-- A read of a register of RC counts: the value, and the counts cleared (R18). -/
def State.readClear (s : State) (k : Nat) (m : W64) : State := (s.out (s.reg k)).setReg k (s.reg k &&& ~~~m)

def execMxeChkRead (e : MxeNo) (s : State) : Host.Outcome State Fault Refusal := .next (s.readClear (Pg.mxe e + 0x100) (BitVec.allOnes 64))

/-- The count of a page in units of 2^sh, saturating in 32 bits. -/
def State.workUnits (s : State) (page sh : Nat) : Nat := satAdd (2 ^ 32 - 1) 0 (KMap.get 0 s.work page / 2 ^ sh)

def execMxePerfRead (e : MxeNo) (s : State) : Host.Outcome State Fault Refusal :=
  let p := Pg.mxe e
  let v := Bits.put (s.reg (p + 0x108)) 63 32 (s.workUnits p 10)
  .next (((s.out v).setReg (p + 0x108) 0).withWork (KMap.set 0 s.work p 0))

end Sys2Proof.Machine
end

