-- ==== Sys2Proof/Machine/Chain.lean ====
section
/-! DEFINITION. Chains of the vector engines (04, 05, 06): the descriptor and its checks, operations, row kernels, the write of
the result with learned scale and outlier rule, flags and summaries. Values are FP32 codes. -/

namespace Sys2Proof.Machine

/-! ## The descriptor (R137 to R139) -/

namespace ChainCmd
def etag (k : ChainCmd) : Nat := wf k.words 0 31 16
def mslot (k : ChainCmd) : Nat := wf k.words 0 15 14
def src (k : ChainCmd) : Bool := (wd k.words 0).getLsbD 13
def release (k : ChainCmd) : Bool := (wd k.words 0).getLsbD 12
def nstg (k : ChainCmd) : Nat := wf k.words 0 11 8
def kernel (k : ChainCmd) : Nat := wf k.words 0 7 4
def maskMode (k : ChainCmd) : Nat := wf k.words 0 3 2
def merge (k : ChainCmd) : Bool := (wd k.words 0).getLsbD 1
def rows (k : ChainCmd) : Nat := wf k.words 1 63 55
def cols (k : ChainCmd) : Nat := wf k.words 1 54 38
def sumStg (k : ChainCmd) : Nat := wf k.words 1 37 34
def sumEn (k : ChainCmd) : Bool := (wd k.words 1).getLsbD 33
def hen (k : ChainCmd) : Bool := (wd k.words 1).getLsbD 32
def sdst (k : ChainCmd) : Nat := wf k.words 1 31 26
def flagStg (k : ChainCmd) : Nat := wf k.words 1 25 23
def flagEn (k : ChainCmd) : Bool := (wd k.words 1).getLsbD 22
def hstream (k : ChainCmd) : Nat := wf k.words 1 21 14
def moff (k : ChainCmd) : Nat := wf k.words 1 13 8
def pct (k : ChainCmd) : Nat := wf k.words 1 7 0
def stageAddr (k : ChainCmd) : Nat := wf k.words 2 31 0
/-- Stage word s: operation and selectors a, b, c. -/
def stg (k : ChainCmd) (s : Nat) : Nat × Nat × Nat × Nat :=
  let b := if s % 2 = 0 then 0 else 32
  let f := fun hi lo => wf k.words (3 + s / 2) (b + hi) (b + lo)
  (f 31 24, f 23 16, f 15 8, f 7 0)
/-- Tensor reference at word w: kind and tensor. -/
def kind (k : ChainCmd) (w : Nat) : Nat := wf k.words (w + 2) 18 16
def ref (k : ChainCmd) (w : Nat) : TRef := ⟨.ofWord (wf k.words (w + 2) 15 0), wf k.words w 31 0, wf k.words (w + 1) 31 0, wf k.words (w + 1) 63 32, wf k.words w 63 32⟩
def tend (k : ChainCmd) (w : Nat) : Bool := (wd k.words (w + 2)).getLsbD 19
abbrev in0 := 7
abbrev in1 := 10
abbrev in2 := 13
abbrev out0 := 16
abbrev out1 := 19
end ChainCmd

open ChainCmd (in0 in1 in2 out0 out1)

/-! ## Operations (R141) -/

/-- Operands that an operation reads; none for a reserved code. -/
def opReads (op : Nat) : Option Nat :=
  match op with
  | 0x01 | 0x09 | 0x0A | 0x10 | 0x11 | 0x12 | 0x13 | 0x14 | 0x15 | 0x16 | 0x17 | 0x20 | 0x22 | 0x23 | 0x24 => some 1
  | 0x28 | 0x2A | 0x2B | 0x2C | 0x2D | 0x38 => some 1
  | 0x02 | 0x03 | 0x04 | 0x06 | 0x07 | 0x08 | 0x0D | 0x21 | 0x25 | 0x29 | 0x2E | 0x2F | 0x30 => some 2
  | 0x05 | 0x0B | 0x0C => some 3
  | _ => none

/-- Selectors that the table of R139 gives to a stage; later stages cannot be named. -/
def selOk (k : ChainCmd) (s sel : Nat) : Bool :=
  decide (sel ≤ 0x06 ∨ (0x08 ≤ sel ∧ sel < 0x08 + s) ∨ sel = 0x10 ∨ sel = 0x11 ∨ (0x40 ≤ sel ∧ sel ≤ 0x7F)) &&
    !(decide (sel = 0x02) && (k.kind in1 = 0 || k.kind in1 = 5)) && !(decide (sel = 0x03) && (k.kind in2 = 0 || k.kind in2 = 5))

/-- The selectors that the chain reads, stage by stage. -/
def ChainCmd.selectors (k : ChainCmd) : List Nat :=
  (List.range k.nstg).flatMap fun s => let (op, a, b, c) := k.stg s; ([a, b, c]).take (((opReads op).getD 0))

/-- A forward kernel reads SA of stage 0 as its ε register (R152). -/
def ChainCmd.epsSel (k : ChainCmd) : List Nat := if (k.kernel = 1 || k.kernel = 2) && k.nstg ≠ 0 then [(k.stg 0).2.1] else []

/-- One stage word: operation, selectors, and unread selectors zero (R139, R140, R142, R148). -/
def stageOk (k : ChainCmd) (s : Nat) : Bool :=
  let (op, a, b, c) := k.stg s
  match opReads op with
  | none => false
  | some n =>
    (([a, b, c]).take n).all (selOk k s) && ((([a, b, c]).drop n).all (· == 0)) &&
    (if op = 0x2F ∨ op = 0x30 then (b = 0x02 && k.kind in1 = 4) || (b = 0x03 && k.kind in2 = 4) else true)

/-- A row or column vector's format word (R138). -/
def vecOk (kind : Nat) (f : Fmt) : Bool :=
  (f.fmt = fmtFP32 || (kind = 3 && f.fmt = fmtBF16)) && f.blk = 0 && f.slcap = 0 && !f.zpen

/-- The refusals of R140 that the descriptor alone decides; OK when none applies. DESIGN CHOICE (log 124): with SRC = 0 the reserved
bits and TEND of IN0 are checked like those of every reference, where R138 has IN0's other fields ignored. -/
def ChainCmd.check (k : ChainCmd) : Nat :=
  let refs := [in0, in1, in2, out0, out1]
  let kinds := refs.map k.kind
  let resv := wf k.words 0 63 56 ≠ 2 ∨ wf k.words 0 0 0 ≠ 0 ∨ wf k.words 2 63 32 ≠ 0 ∨ wd k.words 22 ≠ 0 ∨ wd k.words 23 ≠ 0 ∨ (refs.any fun w => wf k.words (w + 2) 63 20 ≠ 0) ∨
    (refs.any fun w => w ≠ out0 && k.tend w) ∨ (kinds.any fun x => 5 < x)
  let shape := k.rows = 0 ∨ 256 < k.rows ∨ k.cols = 0 ∨ 65536 < k.cols ∨ 8 < k.nstg ∨ 6 < k.kernel ∨ k.maskMode = 3 ∨ (!k.src && k.kernel = 0 && 256 < k.cols)
  let kindBad := (if k.src then k.kind in0 ≠ 1 else 1 < k.kind in0) ∨ k.kind out0 ≠ 1 ∨ ¬ (k.kind out1 = 0 ∨ k.kind out1 = 4 ∨ (k.kind out1 = 5 ∧ (k.kernel = 1 ∨ k.kernel = 2))) ∨
    (k.maskMode = 1 ∧ k.kind in2 ≠ 4)
  let kern : Bool := match k.kernel with
    | 1 => decide (k.kind in1 ≠ 3 ∨ ¬ (k.kind in2 = 0 ∨ k.kind in2 = 3))
    | 2 => decide (k.kind in1 ≠ 3)
    | 4 => decide (k.kind in1 ≠ 1)
    | 5 | 6 => decide (k.kind in1 ≠ 1 ∨ k.kind in2 ≠ 5)
    | _ => false
  let sums := k.sumEn && decide (8 < k.sumStg ∨ (k.sumStg < 8 ∧ k.nstg ≤ k.sumStg) ∨ 59 < k.sdst)
  let flags := k.flagEn && !(k.kind out1 = 4 && k.flagStg < k.nstg && ((k.stg k.flagStg).1 = 0x22 || (k.stg k.flagStg).1 = 0x23))
  let vec := [in1, in2].any fun w => (k.kind w = 2 || k.kind w = 3) && !vecOk (k.kind w) (k.ref w).fmt
  let outF := (k.ref out0).fmt
  let fulls := ((if k.src then [in0] else []) ++ [in1, in2, out0]).filter fun w => k.kind w = 1
  let fst := fulls.findSome? fun w => let st := (k.ref w).fmt.check; if st = St.ok then none else some st
  if resv ∨ shape ∨ kindBad then St.protocolErr
  else if (List.range k.nstg).any fun s => !stageOk k s then St.protocolErr
  else if kern ∨ sums ∨ flags then St.protocolErr
  else if vec then St.fmtUnsupported
  else if k.merge && !(outF.fmt = fmtBF16 || outF.fmt = fmtFP32) then St.protocolErr
  else match fst with
    | some st => st
    | none => if fulls.any fun w => !strideFits (k.ref w) k.cols then St.protocolErr else St.ok

/-- Storage position of an element counted from the tensor's first (R62, R129). -/
def TRef.pos (t : TRef) (i j : Nat) : Nat := (t.bitAddr i j - 8 * t.elem) / t.fmt.bits

/-- One above the highest position a pass takes in a bit plane. -/
def ChainCmd.planeBits (k : ChainCmd) : Nat := ((k.ref out0).places k.rows k.cols).foldl (fun m p => max m ((k.ref out0).pos p.1 p.2 + 1)) 0

/-- One above the highest cluster-SRAM address a reference takes. -/
def ChainCmd.refEnd (k : ChainCmd) (w : Nat) : Nat :=
  let t := k.ref w
  match k.kind w with
  | 1 => t.reachEnd k.rows k.cols
  | 2 => t.elem + 4 * k.rows
  | 3 => t.elem + (if t.fmt.fmt = fmtBF16 then 2 else 4) * k.cols
  | 4 => t.elem + (k.planeBits + 7) / 8
  | 5 => t.elem + 8 * k.rows
  | _ => 0

/-! ## FP32 arithmetic of a stage (R142) -/

/-- A value with whether any operation on the way saturated (R56, R73). -/
abbrev V := FpR

def V.of (c : Nat) : V := ⟨c, false⟩
def V.lift1 (f : Fl → Fl) (a : V) : V := let r := fp32F.round (f (fp32v a.code)); ⟨r.code, a.sat || r.sat⟩
def V.lift2 (f : Fl → Fl → Fl) (a b : V) : V := let r := fp32F.round (f (fp32v a.code) (fp32v b.code)); ⟨r.code, a.sat || b.sat || r.sat⟩
def V.add := V.lift2 Fl.add
def V.sub := V.lift2 Fl.sub
def V.mul := V.lift2 Fl.mul
def V.div := V.lift2 Fl.div
def V.exp := V.lift1 Elem.exp
def V.isNan (a : V) : Bool := (fp32v a.code).isNan
def V.one : V := .of fp32One
def V.zero : V := .of 0
def V.pos (a : V) : Bool := Fl.lt .zero (fp32v a.code)

/-- Nodes of R130: x_min, and entry (b, j) as X, Y, D codes. -/
def xMin (gelu : Bool) : Nat := if gelu then 0xBF407560 else 0xBFA3A4BE
def tableNode (gelu : Bool) (b j : Nat) : Nat × Nat × Nat :=
  let m := fp32v (xMin gelu)
  let step := Fl.mul (.fin false (2 * j + 1) (-1)) (.div (if b = 0 then .sub (.ofNat 8) m else .add (.ofNat 8) m) (.ofNat 32))
  let x := (fp32F.round (if b = 0 then .add m step else .sub m step)).code
  (x, (fp32F.round (if gelu then Elem.gelu (fp32v x) else Elem.silu (fp32v x))).code, (fp32F.round (if gelu then Elem.geluD (fp32v x) else Elem.siluD (fp32v x))).code)

/-- d of R131; only an infinite y, or an overflow of the refinement itself, gives an infinite x. -/
def branchD (gelu : Bool) (y flag : V) : V :=
  let v := fp32v y.code
  let b := if flag.code = 0 then 0 else 1
  if v.isNan then .of fp32Nan
  else if b = 1 && !Fl.lt v .zero then .zero
  else
    let dist := fun j => (Fl.sub v (fp32v (tableNode gelu b j).2.1)).abs
    let below := Fl.lt v (fp32v (if gelu then 0xBE2E0CE1 else 0xBE8E92F7))
    let j := if below then 0 else (List.range 32).foldl (fun best j => if Fl.lt (dist j) (dist best) then j else best) 0
    let (nx, ny, nd) := tableNode gelu b j
    let q := V.div (V.sub (.of y.code) (.of ny)) (.of nd)
    let x := V.add (.of nx) q
    let x1 := if q.sat || x.sat then V.of (if (fp32v x.code).isNeg then 0xFF800000 else 0x7F800000) else x
    V.lift1 (if gelu then Elem.geluD else Elem.siluD) { x1 with sat := y.sat }

/-- The step-keyed generator (R431). -/
def mix64 (x : W64) : W64 :=
  let a := x ^^^ (x >>> 32)
  let b := a * 0xC2F38A5196E74D1B#64
  let c := b ^^^ (b >>> 29)
  let d := c * 0x8B4E27D5F1A93C67#64
  d ^^^ (d >>> 32)
def gen (ka kb st : W64) (t i : Nat) : W64 :=
  mix64 (mix64 (mix64 (ka ^^^ st) ^^^ kb ^^^ BitVec.ofNat 64 (t * 2 ^ 32)) ^^^ BitVec.ofNat 64 i)
def randCode (g : W64) : Nat := (fp32F.round (.fin false (g.toNat / 2 ^ 40) (-24))).code

/-- The result of an operation on operands a, b, c, rounded once for the stage but for DGELU and DSILU (R126, R131, R141, R142; log 102). -/
def stageOp (op : Nat) (a b c : V) (rnd : Nat → Nat) : V :=
  let n := (opReads op).getD 0
  let flag := decide (op = 0x2F ∨ op = 0x30)
  let nan := op ≠ 0x38 && (a.isNan || (decide (2 ≤ n) && !flag && b.isNan) || (n = 3 && c.isNan))
  let sat := a.sat || (decide (2 ≤ n) && b.sat) || (n = 3 && c.sat)
  let keep := fun (x : V) => (⟨x.code, sat || x.sat⟩ : V)
  let fn1 := fun f => V.lift1 f a
  if nan then ⟨fp32Nan, sat⟩ else
  match op with
  | 0x01 => a
  | 0x02 => V.add a b
  | 0x03 => V.sub a b
  | 0x04 => V.mul a b
  | 0x05 => let r := fpFma fp32F a.code b.code c.code; ⟨r.code, sat || r.sat⟩
  | 0x06 => V.div a b
  | 0x07 => keep (.of (fpMax fp32F a.code b.code))
  | 0x08 => keep (.of (fpMin fp32F a.code b.code))
  | 0x09 => keep (.of (fpAbs fp32F a.code))
  | 0x0A => keep (.of (fpNeg fp32F a.code))
  | 0x0B => keep (if Fl.lt (fp32v a.code) (fp32v b.code) then b else if Fl.lt (fp32v c.code) (fp32v a.code) then c else a)
  | 0x0C => keep (if a.pos then b else c)
  | 0x0D => keep (if Fl.lt (fp32v b.code) (fp32v a.code) then .one else .zero)
  | 0x10 => fn1 Elem.exp
  | 0x11 => fn1 Elem.log
  | 0x12 => fn1 (Fl.div .one)
  | 0x13 => fn1 Fl.rsqrt
  | 0x14 => fn1 Fl.sqrt
  | 0x15 => fn1 Elem.tanh
  | 0x16 => fn1 Elem.sigmoid
  | 0x17 => fn1 Elem.erf
  | 0x20 => if a.pos then a else keep .zero
  | 0x21 => if a.pos then keep a else V.mul b a
  | 0x22 => fn1 Elem.gelu
  | 0x23 => fn1 Elem.silu
  | 0x24 => fn1 Elem.softplus
  | 0x25 => if a.pos then keep a else V.lift2 Elem.eluNeg a b
  | 0x28 => keep (if a.pos then .one else .zero)
  | 0x29 => keep (if a.pos then .one else b)
  | 0x2A => fn1 fun y => .mul y (.sub .one y)
  | 0x2B => fn1 fun y => .sub .one (.mul y y)
  | 0x2C => fn1 Elem.softplusD
  | 0x2D => a
  | 0x2E => if a.pos then keep .one else V.add a b
  | 0x2F => branchD true a b
  | 0x30 => branchD false a b
  | _ => .of (rnd a.code)

/-! ## Operands of an element -/

/-- What a chain computes with: the memory, and the stage-0 input of each element. -/
structure ChainEnv where
  k : ChainCmd
  rd : Nat → Byte
  table : List W64
  x : Nat → Nat → V

/-- Table fields (R167): VALUES, THRESH, LEN, OMODE, APPLY. With PCT = 0 selector 0x06 reads +0. -/
def tabValues (t : List W64) : Nat := wf t 0 31 0
def tabThresh (t : List W64) : Nat := wf t 0 63 32
def tabLen (t : List W64) : Nat := wf t 1 31 0
def tabOmode (t : List W64) : Nat := wf t 1 35 34
def tabApply (t : List W64) : Nat := wf t 1 33 32
def ChainEnv.tabAddr (e : ChainEnv) (j : Nat) : Nat := tabValues e.table + 4 * (if tabApply e.table = 1 then 0 else j)
def ChainEnv.tab (e : ChainEnv) (j : Nat) : V := if e.k.pct = 0 then .zero else .of (leBytes e.rd (e.tabAddr j) 4)

/-- A bit of a plane at an element's storage position (R129, R138). DESIGN CHOICE (log 123): the storage order is that of this chain's
OUT0, for the mask and the flags of DGELU and DSILU as for the flags it writes; R129 and R138 say 'the output's'. -/
def ChainEnv.planeBit (e : ChainEnv) (w i j : Nat) : Bool :=
  let p := (e.k.ref out0).pos i j
  (e.rd ((e.k.ref w).elem + p / 8)).getLsbD (p % 8)

/-- A full-tensor element, widened into FP32 (R72). -/
def widenV (t : TRef) (rd : Nat → Byte) (i j : Nat) : V := let r := fp32F.round (t.read rd i j).val; ⟨r.code, r.sat⟩

/-- The element of a reference that selectors 0x01 to 0x03 read (R139). -/
def ChainEnv.refVal (e : ChainEnv) (w i j : Nat) : V :=
  let t := e.k.ref w
  match e.k.kind w with
  | 1 => widenV t e.rd i j
  | 2 => .of (leBytes e.rd (t.elem + 4 * i) 4)
  | 3 => if t.fmt.fmt = fmtBF16 then .of (leBytes e.rd (t.elem + 2 * j) 2 * 65536) else .of (leBytes e.rd (t.elem + 4 * j) 4)
  | 4 => if e.planeBit w i j then .one else .zero
  | _ => .zero

/-- Addresses that refVal reads. -/
def ChainEnv.refAddrs (e : ChainEnv) (w i j : Nat) : List Nat :=
  let t := e.k.ref w
  match e.k.kind w with
  | 1 => t.readAddrs e.rd i j
  | 2 => [t.elem + 4 * i]
  | 3 => [t.elem + (if t.fmt.fmt = fmtBF16 then 2 else 4) * j]
  | 4 => [t.elem + (e.k.ref out0).pos i j / 8]
  | 5 => [t.elem + 8 * i]
  | _ => []

/-- Whether an element is active (R145). -/
def ChainEnv.active (e : ChainEnv) (i j : Nat) : Bool :=
  match e.k.maskMode with
  | 1 => e.planeBit in2 i j
  | 2 => decide ((j : Int) ≤ (i : Int) + Bits.signed 32 (KMap.get (0 : W32) e.k.scal e.k.moff).toNat)
  | _ => true

def ChainEnv.sel (e : ChainEnv) (s0 : V) (outs : List V) (i j sel : Nat) (raw : V) : V :=
  if sel = 0x00 then outs.getLastD s0
  else if sel = 0x01 then raw
  else if sel = 0x02 then e.refVal in1 i j
  else if sel = 0x03 then e.refVal in2 i j
  else if sel = 0x04 then .of (fp32F.round (.ofNat i)).code
  else if sel = 0x05 then .of (fp32F.round (.ofNat j)).code
  else if sel = 0x06 then e.tab j
  else if sel < 0x10 then outs.getD (sel - 8) .zero
  else if sel = 0x10 then .zero
  else if sel = 0x11 then .one
  else .of (KMap.get (0 : W32) e.k.scal (sel - 0x40)).toNat

/-! ## Row kernels (R132, R133, R152) -/

def r32 (v : Fl) : V := let r := fp32F.round v; ⟨r.code, r.sat⟩
/-- A rounded sum in order, from +0 (R133). -/
def V.sumUp (l : List V) : V := l.foldl V.add .zero

/-- A backward kernel's x̂ of an element: (x − μ) × r, or x × r for RMS norm (R132). -/
def ChainEnv.xhat (e : ChainEnv) (i j : Nat) : V :=
  let a := (e.k.ref in2).elem + 8 * i
  let r := V.of (leBytes e.rd (a + 4) 4)
  let x := e.refVal in1 i j
  V.mul (if e.k.kernel = 5 then V.sub x (V.of (leBytes e.rd a 4)) else x) r

/-- A backward kernel's h of an element: g × γ (R132). -/
def ChainEnv.hval (e : ChainEnv) (i j : Nat) : V := V.mul (e.x i j) (if e.k.pct = 0 then .one else e.tab j)

/-- Kernels with column reductions (R132). -/
def ChainCmd.colKernel (k : ChainCmd) : Bool := decide (k.kernel = 5 ∨ k.kernel = 6)

/-- dγ and dβ of a column after this band's rows in ascending order, from what earlier bands left (R132, R133, R146). -/
def ChainEnv.colSum (e : ChainEnv) (old : ColSums) (j : Nat) : V × V :=
  ((List.range e.k.rows).filter fun i => e.active i j).foldl (fun acc i => (V.add acc.1 (V.mul (e.x i j) (e.xhat i j)), V.add acc.2 (e.x i j)))
    (.of (KMap.get (0 : W32) old.dgamma j).toNat, .of (KMap.get (0 : W32) old.dbeta j).toNat)

/-- DESIGN CHOICE (log 122): the saved inputs of a backward kernel have no named references in the manual; here y or x comes from IN1
(KIND 1), a supplied D_i from an IN2 of KIND 2, the pair (μ, r) from an IN2 of KIND 5, and γ from table PCT, 1.0 with PCT = 0.
Statistics of a row: for layer norm (μ, r), for RMS norm (+0, r), for softmax (largest, sum), for backward kernels the row sums. -/
def ChainEnv.rowStats (e : ChainEnv) (i : Nat) : V × V :=
  let k := e.k
  let js := (List.range k.cols).filter (e.active i)
  let xs := js.map (e.x i)
  let vs := xs.map fun v => fp32v v.code
  let w := Fl.ofNat k.cols
  let wv : V := r32 w
  let eps : V := if k.nstg = 0 then .zero else .of (KMap.get (0 : W32) k.scal ((k.stg 0).2.1 % 64)).toNat
  match k.kernel with
  | 1 =>
    let s1 := Fl.sum vs; let s2 := Fl.sum (vs.map fun v => .mul v v)
    let mu := r32 (.div s1 w)
    let v := r32 (.div (.sub (.mul w s2) (.mul s1 s1)) (.mul w w))
    (mu, V.lift1 Fl.rsqrt (V.add v eps))
  | 2 => (.zero, V.lift1 Fl.rsqrt (V.add (r32 (.div (Fl.sum (vs.map fun v => .mul v v)) w)) eps))
  | 3 =>
    let m : V := .of (xs.foldl (fun m v => fpMax fp32F m v.code) 0xFF800000)
    (m, r32 (Fl.sum (xs.map fun x => fp32v (V.exp (V.sub x m)).code)))
  | 4 => (if k.kind in2 = 2 then e.refVal in2 i 0 else V.sumUp (js.map fun j => V.mul (e.x i j) (e.refVal in1 i j)), wv)
  | _ => (V.sumUp (js.map (e.hval i)), V.sumUp (js.map fun j => V.mul (e.hval i j) (e.xhat i j)))

/-- The result of a kernel for an element, which enters stage 0; a saturation of the row's statistics is theirs, not the element's. -/
def ChainEnv.kernelVal (e : ChainEnv) (rowSt : V × V) (i j : Nat) : V :=
  let st := (V.of rowSt.1.code, V.of rowSt.2.code)
  let k := e.k
  let x := e.x i j
  let wv : V := r32 (.ofNat k.cols)
  let r := V.of (leBytes e.rd ((k.ref in2).elem + 8 * i + 4) 4)
  let y := e.refVal in1 i j
  let xhat := e.xhat i j
  let h := e.hval i j
  match k.kernel with
  | 1 => let u := V.mul (V.sub x st.1) st.2; let p := Fl.mul (fp32v u.code) (fp32v (e.refVal in1 0 j).code)
         let b := if k.kind in2 = 3 then e.refVal in2 0 j else V.zero
         let o := r32 (.add p (fp32v b.code)); ⟨o.code, u.sat || o.sat⟩
  | 2 => V.mul (V.mul x st.2) (e.refVal in1 0 j)
  | 3 => V.div (V.exp (V.sub x st.1)) st.2
  | 4 => V.mul y (V.sub x st.1)
  | 5 => V.mul r (V.sub (V.sub h (V.div st.1 wv)) (V.div (V.mul xhat st.2) wv))
  | 6 => V.mul r (V.sub h (V.div (V.mul xhat st.2) wv))
  | _ => x

/-! ## The pass -/

/-- What the chain computes for an element: the outputs of its stages and the value for OUT0, before the learned scale. -/
structure ElOut where
  outs : List V
  last : V
  flag : Bool

def ChainEnv.element (e : ChainEnv) (st : V × V) (i j : Nat) : ElOut :=
  let k := e.k
  let s0 := if k.kernel = 0 then e.x i j else e.kernelVal st i j
  let outs := (List.range k.nstg).foldl (fun outs s =>
    let (op, a, b, c) := k.stg s
    let sel := fun x => e.sel s0 outs i j x (e.x i j)
    outs ++ [stageOp op (sel a) (sel b) (sel c) fun t => randCode (gen k.ka k.kb k.step t ((k.ref out0).pos i j))]) []
  let (fop, fa, _, _) := k.stg k.flagStg
  let fin := e.sel s0 (outs.take k.flagStg) i j fa (e.x i j)
  ⟨outs, outs.getLastD s0, k.flagEn && Fl.lt (fp32v fin.code) (fp32v (xMin (fop = 0x22)))⟩

/-- The third-largest of a list of magnitudes, counting equal ones; zero when there are fewer (R172). -/
def thirdMag (l : List Fl) : Fl :=
  let ins : List Fl → Fl → List Fl := fun top v =>
    let (a, b) := top.span fun x => !Fl.lt x v
    (a ++ v :: b).take 3
  (l.foldl ins []).getD 2 .zero

/-- Whether the outlier rule marks a value (R172); third is the third-largest finite magnitude of its group. -/
def outlier (omode thresh : Nat) (v third : Fl) : Bool :=
  let t := fp32v thresh
  if !v.isFin || t.isNan || Fl.lt t .zero then false else
  match omode with
  | 1 => Fl.le t v.abs
  | 2 => !third.isZero && Fl.le (.mul t third) v.abs
  | _ => false

/-- The places that the outlier rule marks among values with their 32-element groups (R172). -/
def markGroups (omode thresh : Nat) (xs : List ((Nat × Nat) × Nat × Fl)) : List (Nat × Nat) :=
  if omode = 0 then [] else
  let mags := (xs.filter fun x => x.2.2.isFin).map fun x => (x.2.1, x.2.2.abs)
  (xs.filter fun x => outlier omode thresh x.2.2 (thirdMag ((mags.filter fun m => m.1 = x.2.1).map (·.2)))).map (·.1)

end Sys2Proof.Machine
end

