-- ==== Sys2Proof/Machine/Vxe.lean ====
section
/-! DEFINITION. The vector engines' commands (R135 to R155, R166 to R174): issue of chains, their checks, claims of finished
tiles, completion, fences; the steward core's instructions on scalar registers and the completion ring (R149 to R151, R159). -/

namespace Sys2Proof.Machine

open ChainCmd (in0 in1 in2 out0 out1)

/-! ## Instructions that a reserved scalar register stalls (R150, R151) -/

/-- Scalar registers that a chain names (R151). -/
def ChainCmd.named (k : ChainCmd) : List Nat :=
  (k.selectors.filter fun x => decide (0x40 ≤ x)).map (fun x => x - 0x40) ++ k.epsSel.map (· % 64) ++ (if k.maskMode = 2 then [k.moff] else [])

/-- The chain that a descriptor makes when it is issued now: context, scalars, job key, step (R137, R151, R430). -/
def State.chainOf (s : State) (c slot : Nat) (ws : List W64) : ChainCmd :=
  let ctx := s.runCtx c
  let g := bank ctx (Pg.gen (c / 12))
  ⟨ws.set 0 (Bits.put (wd ws 0) 55 48 ctx), (s.clu c).scal, s.reg (g + 0x108), s.reg (g + 0x110), s.reg (Pg.gen (c / 12) + 0x200 + 8 * (c % 12)), s.vxesUp c, slot⟩

/-- Chains in the queue of the vector engine that a slot is mapped onto; of the slot alone when none is in service (R136). -/
def State.chainsQueued (s : State) (c slot : Nat) : Nat :=
  match slotEngine (s.vxesUp c) (s.vxesUp c) slot with
  | some v => (s.vxeQueue v).length
  | none => (s.clu c).chains.countP fun k => decide (k.slot = slot)

/-- Whether an issue stalls: a named register is reserved, or the summary range overlaps a reserved one (R150, R151). -/
def State.issueStalls (s : State) (c : Nat) (k : ChainCmd) : Bool :=
  (k.named.any fun i => s.reserved c i) || match k.summary with | some r => (List.range 5).any fun i => s.reserved c (r + i) | none => false

/-- Condition of a scalar branch (R159): 0 eq, 1 ne, 2 lt, 3 ge; unsigned, or FP32 with NaN making only ne true. -/
def scalarCond (cond : Cond) (uns : Bool) (a b : W32) : Bool :=
  let x := fp32v a.toNat; let y := fp32v b.toNat
  match cond, uns with
  | .eq, true => decide (a = b)
  | .ne, true => decide (a ≠ b)
  | .lt, true => decide (a.toNat < b.toNat)
  | .ge, true => decide (b.toNat ≤ a.toNat)
  | .eq, false => Fl.eq x y
  | .ne, false => !Fl.eq x y
  | .lt, false => Fl.lt x y
  | .ge, false => Fl.le y x

/-- The pc of a taken branch: OFF counts instructions (R156); the base is a constant of the part (log 16). -/
def State.branchTo (s : State) (c : Nat) (off : W64) : State := s.setPc c ((s.core c).pc + Config.branchBase + 4 * off)

/-- An instruction on scalar registers of a steward core: none while it stalls. -/
def State.scalarStep (s : State) (c rd : Nat) (why : Why) : Option State :=
  let p := stewardOf c
  match why with
  | .smovS i v => if s.reserved c i then none else some ((s.setScalar c i v).nextPc p)
  | .smovG i => if s.reserved c i then none else some (s.ret p rd ((s.scalar c i).setWidth 64))
  | .branchS cond uns i j off =>
    if s.reserved c i || s.reserved c j then none
    else some (if scalarCond cond uns (s.scalar c i) (s.scalar c j) then s.branchTo p (off.signExtend 64) else s.nextPc p)
  | .cissue slot ws =>
    let k := s.chainOf c slot ws
    if 16 ≤ s.chainsQueued c slot then some (s.retSt p rd St.queueFull)
    else if s.issueStalls c k then none
    else
      let s1 := s.setChains c ((s.clu c).chains ++ [k])
      let s2 := match k.summary with | some r => s1.setClu c { s1.clu c with reserved := (s1.clu c).reserved ++ [r] } | none => s1
      some (s2.retSt p rd St.ok)
  | _ => none

/-- Runs the instruction, or lets the core wait for the register. -/
def State.scalarRun (s : State) (c rd : Nat) (why : Why) : State :=
  match s.scalarStep c rd why with | some s1 => s1 | none => s.wait (stewardOf c) rd why

/-- After a delivery: the steward core's stalled instruction goes on (R150). -/
def State.wakeScalar (s : State) (c : Nat) : State :=
  match s.sync.waiters.find? fun w => decide (w.slot = stewardOf c) with
  | none => s
  | some w => match (s.unwait w.slot).scalarStep c w.rd w.why with | some s1 => s1 | none => s

def execCissue (c : ClusterNo) (rd rs1 rs2 : Gpr) (s : State) : Host.Outcome State Fault Refusal :=
  let p := stewardOf c
  if !s.coreRuns p then .next s else
  .next (s.newWork p rd (s.scalarRun c rd (.cissue ((s.g p rs1).toNat % 2) (s.scratchWords p (s.g p rs2).toNat 24))))

def execSmovS (c : ClusterNo) (sd : Fin 64) (rs1 : Gpr) (s : State) : Host.Outcome State Fault Refusal :=
  if !s.coreRuns (stewardOf c) then .next s else .next (s.scalarRun c 0 (.smovS sd ((s.g (stewardOf c) rs1).setWidth 32)))

def execSmovG (c : ClusterNo) (rd : Gpr) (ss : Fin 64) (s : State) : Host.Outcome State Fault Refusal :=
  if !s.coreRuns (stewardOf c) then .next s else .next (s.scalarRun c rd (.smovG ss))

def execBs (c : ClusterNo) (cond : Cond) (uns : Bool) (s1 s2 : Fin 64) (off : BitVec 9) (s : State) : Host.Outcome State Fault Refusal :=
  if !s.coreRuns (stewardOf c) then .next s else .next (s.scalarRun c 0 (.branchS cond uns s1 s2 off))

/-! ## The completion ring (R159 to R161) -/

def State.popRing (s : State) (c rd : Nat) (r : RingRec) (rest : List RingRec) : State :=
  let p := stewardOf c
  ((((s.setClu c { s.clu c with ring := rest }).setG p rd r.w0).setG p (rd + 1) r.w1).nextPc p)

/-- cpop; an odd RD is illegal, as in the pair forms of R275 (log 25). -/
def execCpop (c : ClusterNo) (rd : Gpr) (s : State) : Host.Outcome State Fault Refusal :=
  let p := stewardOf c
  if !s.coreRuns p then .next s
  else if rd.val % 2 = 1 then .next (s.illegal p)
  else match (s.clu c).ring with
    | r :: rest => .next (s.popRing c rd r rest)
    | [] => .next (s.wait p rd .ring)

def execCpeek (c : ClusterNo) (rd : Gpr) (s : State) : Host.Outcome State Fault Refusal :=
  let p := stewardOf c
  if !s.coreRuns p then .next s
  else if rd.val % 2 = 1 then .next (s.illegal p)
  else match (s.clu c).ring with
    | r :: rest => .next (s.popRing c rd r rest)
    | [] => .next (s.ret p rd 0)

def execRingRecordRelease (c : ClusterNo) (s : State) : Host.Outcome State Fault Refusal := .next (s.releaseRec c)

/-! ## Ending a chain (R136, R149, R150) -/

/-- The five summaries (R149) as the registers hold them. -/
structure Summary where
  max : Nat
  min : Nat
  sum : Nat
  nans : Nat
  sats : Nat

/-- What a chain that does not end OK delivers (R150). -/
def Summary.bad : Summary := ⟨fp32Nan, fp32Nan, fp32Nan, 0xFFFFFFFF, 0xFFFFFFFF⟩

def summarise (vs : List V) (sats : Nat) : Summary :=
  let nums := vs.filter fun v => !v.isNan
  ⟨nums.foldl (fun m v => fpMax fp32F m v.code) 0xFF800000, nums.foldl (fun m v => fpMin fp32F m v.code) 0x7F800000,
   (fp32F.round (Fl.sum (nums.map fun v => fp32v v.code))).code, vs.length - nums.length, min sats 0xFFFFFFFF⟩

def State.deliver (s : State) (c r : Nat) (x : Summary) : State :=
  let put := fun (s : State) (i v : Nat) => s.setScalar c (r + i) (BitVec.ofNat 32 v)
  put (put (put (put (put s 0 x.max) 1 x.min) 2 x.sum) 3 x.nans) 4 x.sats

/-- A chain ends at the engine of a page (0: none): its summaries and its record; what waited for the registers goes on. -/
def State.finChain (s : State) (c unit : Nat) (k : ChainCmd) (droop : Bool) (st : Nat) (x : Summary) : State :=
  let s1 := match k.summary with | some r => ((s.unreserve c r).deliver c r (if st = St.ok then x else .bad)) | none => s
  (s1.record c (4 + k.slot) unit droop k.ctx st k.tag).wakeScalar c

/-- The engine lets a chain go: entries kept under RELEASE = 0 may be claimed again (R143). -/
def State.dropChain (s : State) (v : Nat) (r : ChainRun) : State :=
  let s1 := r.taken.foldl (fun s t => if r.cmd.release then s.freeFte t.1 t.2 else s.mapFte t.1 t.2 fun x => { x with claimed := false }) s
  (s1.leaveVxe v r).showMxes (v / 2)

/-- The chain in hand ends with a status and counts as completed. -/
def State.endRun (s : State) (v : Nat) (r : ChainRun) (st : Nat) (x : Summary) : State :=
  let s1 := (s.dropChain v r).addFld (Pg.vxe v) F.vxePerfChains 1
  let s2 := if st = St.tagSkew then s1.setErr (Pg.vxe v) F.vxeErrStatTagSkew r.cmd.ctx
    else if st = St.poisoned then s1.setErr (Pg.vxe v) F.vxeErrStatPoisoned r.cmd.ctx else s1
  let s3 := s2.finChain (v / 2) (Pg.vxe v) r.cmd r.droop st x
  if st = St.poisoned then s3.consume (v / 24) r.cmd.ctx (unitOf (Pg.vxe v)) 0 else s3

/-! ## Start (R140, R168, R174) -/

/-- Whether the stream of a chain with HEN = 1 is the context's (R174). -/
def State.streamOwned (s : State) (d : Nat) (k : ChainCmd) : Bool :=
  let p := Pg.hst d + 8 * k.hstream
  s.bitF p F.hstOwnValid && decide (s.fld p F.hstOwnCtx = k.ctx)

/-- The checks of a directory entry (R168): its status and its two words. -/
def State.tableCheck (s : State) (c : Nat) (k : ChainCmd) : Nat × List W64 :=
  if k.pct = 0 then (St.ok, [0, 0]) else
  let dir := s.fld (Pg.scl c) F.sclDirBase / 256 * 256 + 16 * k.pct
  if !s.bitF (Pg.scl c) F.sclDirValid then (St.protocolErr, [])
  else if s.sramSize c < dir + 16 then (St.sramRange, [])
  else if s.loadPoison (clusterBase c + dir) 16 then (St.poisoned, [])
  else
    let t := s.loadWords (clusterBase c + dir) 2
    let resv := !(wd t 1).getLsbD 39 || decide (wf t 1 63 40 ≠ 0 ∨ wf t 1 38 36 ≠ 0 ∨ tabOmode t = 3 ∨ tabApply t = 3)
    let len := decide (tabLen t = 0 ∨ 65536 < tabLen t ∨ tabValues t % 4 ≠ 0)
    let short := (decide (tabApply t = 2) || k.selectors.contains 0x06) && decide (tabLen t < k.cols)
    if resv || len || short then (St.protocolErr, [])
    else if s.sramSize c < tabValues t + 4 * tabLen t then (St.sramRange, [])
    else (St.ok, t)

/-- References that a chain uses (R138). -/
def ChainCmd.usedRefs (k : ChainCmd) : List Nat :=
  (if k.src then [in0] else []) ++ [in1, in2, out0, out1]

/-- Staging area of a kernel with SRC = 0 (R134, R153). -/
def ChainCmd.stages (k : ChainCmd) : Bool := !k.src && decide (k.kernel ≠ 0)

/-- Planes, vectors and staging within the allocation; whole segments (R69, R134, R140). -/
def ChainCmd.rangeCheck (sram : Nat) (k : ChainCmd) : Nat :=
  if (k.usedRefs.any fun w => decide (sram < k.refEnd w)) || (k.stages && decide (sram < k.stageAddr + 4 * k.rows * k.cols)) then St.sramRange
  else if !(k.ref out0).coversSegments k.rows k.cols (k.tend out0) then St.segPartial
  else St.ok

/-- The status a chain is refused with, OK if none, and its table. -/
def State.chainCheck (s : State) (c : Nat) (k : ChainCmd) : Nat × List W64 :=
  if k.check ≠ St.ok then (k.check, [])
  else if k.hen && !s.streamOwned (c / 12) k then (St.protocolErr, [])
  else
    let (st, t) := s.tableCheck c k
    if st ≠ St.ok then (st, []) else (k.rangeCheck (s.sramSize c), t)

/-- Whether a chain is the first of its slot that has not ended: a slot's chains end in queue order (R136). -/
def State.slotFirst (s : State) (c : Nat) (k : ChainCmd) : Bool :=
  ((s.clu c).chains.find? fun x => decide (x.slot = k.slot)) == some k &&
  ((List.range 2).map (2 * c + ·)).all fun v => match s.vxe v with | some r => decide (r.slot ≠ k.slot) | none => true

/-- The chain that an engine takes next: the head of its queue (R136). -/
def State.nextChain (s : State) (v : Nat) : Option ChainCmd := ((s.vxeQueue v).head?).filter fun k => s.slotFirst (v / 2) k

/-- The chain of an engine's own slot that no engine in service is left for (R110, R155). -/
def State.lostChain (s : State) (v : Nat) : Option ChainCmd :=
  (s.clu (v / 2)).chains.find? fun k => decide (k.slot = v % 2) && (s.vxeFor (v / 2) k).isNone && s.slotFirst (v / 2) k

/-- A chain leaves its queue. -/
def State.takeChain (s : State) (c : Nat) (k : ChainCmd) : State := s.setChains c ((s.clu c).chains.erase k)

def State.startChain (s : State) (v : Nat) (k : ChainCmd) : State :=
  let c := v / 2
  let (st, t) := s.chainCheck c k
  if st ≠ St.ok then
    let s1 := if st = St.poisoned then s.setErr (Pg.vxe v) F.vxeErrStatPoisoned k.ctx else s
    let s2 := s1.finChain c (Pg.vxe v) k false st .bad
    if st = St.poisoned then s2.consume (v / 24) k.ctx (unitOf (Pg.vxe v)) 0 else s2
  else (s.setVxe v (some ⟨k, k.slot, t, [], 0, false, false, none⟩)).showVxe v (if k.src then Eng.busy else Eng.waitEntry)

/-- DESIGN CHOICE (log 118): the chain in execution has left its queue, so it takes none of the 16 places and QUEUED does not count it;
R136 and R164 do not say. -/
def execChainStart (v : Met VxeNo) (s : State) : Host.Outcome State Fault Refusal :=
  let c := v.arg.val / 2
  match s.lostChain v.arg with
  | some k => .next ((s.takeChain c k).finChain c 0 k false St.engineFenced .bad)
  | none =>
    if (s.vxe v.arg).isSome || s.inReset [(1, v.arg), (9, c)] || s.unitBlocked c (Pg.vxe v.arg) then .next s else
    match s.nextChain v.arg with
    | none => .next s
    | some k => .next (((s.meet v.hits).takeChain c k).startChain v.arg k)

/-! ## Entries (R143, R144, R153) -/

/-- Entries that a chain takes (R143, R153). -/
def ChainCmd.needs (k : ChainCmd) : Nat := if k.src then 0 else if k.kernel = 0 then 1 else (k.cols + 255) / 256

def entryVal (x : Fte) (i j : Nat) : Nat := (KMap.get (0 : W32) x.data (256 * i + j)).toNat

/-- Pass 1 stages an entry's values at its columns (R153). -/
def State.stageEntry (s : State) (c : Nat) (k : ChainCmd) (t : Nat) (x : Fte) : State :=
  let base := clusterBase c + k.stageAddr
  let w := min 256 (k.cols - 256 * t)
  s.storeBytes ((List.range k.rows).flatMap fun i => (List.range w).flatMap fun j => addrBytes (base + 4 * (i * k.cols + 256 * t + j)) (natBytes 4 (entryVal x i j))) x.poisoned

/-- The TAG of the entry that a chain takes next (R143). -/
def ChainRun.nextTag (r : ChainRun) : Nat := (r.cmd.etag + r.seen) % 65536

def execChainEntryClaim (v : VxeNo) (s : State) : Host.Outcome State Fault Refusal :=
  let c := v.val / 2
  match s.vxe v with
  | none => .next s
  | some r =>
    let k := r.cmd
    if k.needs ≤ r.seen then .next s else
    match s.mxeOfSlot c k.mslot with
    | none => .next s
    | some e => match (s.visible e).find? fun x => !x.claimed with
      | none => .next s
      | some x =>
        if x.tag ≠ r.nextTag then .next (s.endRun v r St.tagSkew .bad)
        else if x.ctx ≠ k.ctx then .next (s.endRun v r St.protocolErr .bad)
        else
          let r1 := { r with seen := r.seen + 1, droop := r.droop || x.droop, poisoned := r.poisoned || x.poisoned }
          let show_ := fun (s : State) => if k.needs ≤ r1.seen then s.showVxe v Eng.busy else s
          if k.stages && k.release then
            .next (show_ ((((s.stageEntry c k r.seen x).freeFte e x.id).showMxes c).setVxe v (some r1)))
          else
            let s1 := s.mapFte e x.id fun y => { y with claimed := true }
            let s2 := if k.stages then s1.stageEntry c k r.seen x else s1
            .next (show_ (s2.setVxe v (some { r1 with taken := r.taken ++ [(e, x.id)] })))

/-! ## Completion (R144 to R149, R166 to R173) -/

/-- Stage-0 input of each element. -/
def State.chainInput (s : State) (c : Nat) (r : ChainRun) (i j : Nat) : V :=
  let k := r.cmd
  let rd := fun a => s.byteAt (clusterBase c + a)
  if k.src then widenV (k.ref in0) rd i j
  else if k.kernel = 0 then match r.taken with
    | (e, id) :: _ => match s.fte e id with | some x => .of (entryVal x i j) | none => .zero
    | [] => .zero
  else .of (leBytes rd (k.stageAddr + 4 * (i * k.cols + j)) 4)

/-- References whose elements the chain reads. -/
def ChainCmd.reads (k : ChainCmd) : List Nat :=
  let sel := k.selectors
  (if k.src then [in0] else []) ++
  (if sel.contains 0x02 || decide (k.kernel = 1 ∨ k.kernel = 2 ∨ 4 ≤ k.kernel) then [in1] else []) ++
  (if sel.contains 0x03 || decide (k.kernel = 1 ∨ 4 ≤ k.kernel) then [in2] else [])

/-- What a pass computes, before anything is written. -/
structure PassOut where
  els : List ((Nat × Nat) × ElOut × V)
  stats : List (V × V)
  sums : List (V × V)
  poisoned : Bool
  orphans : List (Nat × Nat)

/-- What the bands of one tensor have in common: context, kernel, columns, table. -/
def ChainCmd.bandKey (k : ChainCmd) : List W64 := [k.ctx, k.kernel, k.cols, k.pct].map (BitVec.ofNat 64)

/-- The column sums that a band adds to: those of the bands before it, or none (R133; log 119). -/
def State.heldSums (s : State) (c : Nat) (r : ChainRun) : ColSums :=
  match KMap.get none (s.clu c).sums r.slot with
  | some x => if x.words = r.cmd.bandKey then x else ⟨[], [], [], false⟩
  | none => ⟨[], [], [], false⟩

/-- Keeps the column sums of a band, in FP32; TEND marks the tensor's last band (R133). DESIGN CHOICE (log 119): no reference of a
descriptor names a place for dγ and dβ, so they stay with the logical slot until the next tensor's first band. -/
def State.keepSums (s : State) (c : Nat) (r : ChainRun) (sums : List (V × V)) (poison : Bool) : State :=
  if !r.cmd.colKernel then s else
  let put := fun (f : V × V → V) => (sums.zipIdx.foldl (fun m x => KMap.set 0 m x.2 (BitVec.ofNat 32 (f x.1).code)) ([] : KMap W32))
  let x : ColSums := ⟨if r.cmd.tend out0 then [] else r.cmd.bandKey, put (·.1), if r.cmd.kernel = 5 then put (·.2) else [], poison || (s.heldSums c r).poison⟩
  s.setClu c { s.clu c with sums := KMap.set none (s.clu c).sums r.slot (some x) }

/-- The pass over the active elements: outputs, v′ (R166), row statistics, poison met (R144, R146, R169), orphans by format. -/
def State.chainPass (s : State) (c : Nat) (r : ChainRun) : PassOut :=
  let k := r.cmd
  let rd := fun a => s.byteAt (clusterBase c + a)
  let e : ChainEnv := ⟨k, rd, r.table, s.chainInput c r⟩
  let all := (List.range k.rows).flatMap fun i => (List.range k.cols).map fun j => (i, j)
  let act := all.filter fun p => e.active p.1 p.2
  let stats := if k.kernel = 0 then [] else (List.range k.rows).map e.rowStats
  let scaled := k.pct ≠ 0 && decide (tabApply r.table ≠ 0)
  let els := act.map fun p =>
    let o := e.element (stats.getD p.1 (.zero, .zero)) p.1 p.2
    (p, o, if scaled then V.mul o.last (e.tab p.2) else o.last)
  let useTab := k.pct ≠ 0 && (scaled || k.selectors.contains 0x06 || decide (5 ≤ k.kernel))
  let addrs := fun (p : Nat × Nat) => (k.reads.flatMap fun w => e.refAddrs w p.1 p.2) ++
    (if useTab then (List.range 4).map (e.tabAddr p.2 + ·) else []) ++ (if k.stages then [k.stageAddr + 4 * (p.1 * k.cols + p.2)] else [])
  let bad := fun a => s.poisonedAt (clusterBase c + a)
  let mask := if k.maskMode = 1 then act.flatMap fun p => e.refAddrs in2 p.1 p.2 else []
  { els := els, stats := stats
    sums := if k.colKernel then (List.range k.cols).map (e.colSum (s.heldSums c r)) else []
    poisoned := r.poisoned || (act.any fun p => (addrs p).any bad) || mask.any bad
    orphans := (k.reads.filter fun w => k.kind w = 1).map fun w => ((k.ref w).fmt.fmt, act.countP fun p => ((k.ref w).read rd p.1 p.2).orphan) }

/-- Outlier marks of the values of a pass (R172): groups of 32 in storage order, as the output's addresses give it. -/
def outlierMarks (k : ChainCmd) (t : List W64) (els : List ((Nat × Nat) × ElOut × V)) : List (Nat × Nat) :=
  if k.pct = 0 then [] else markGroups (tabOmode t) (tabThresh t) (els.map fun x => (x.1, (k.ref out0).bitAddr x.1.1 x.1.2 / (32 * (k.ref out0).fmt.bits), fp32v x.2.2.code))

/-- Bit fields at cluster-SRAM addresses, moved to local addresses. -/
def toLocal (c : Nat) (fs : List (Nat × Nat × Nat)) : List (Nat × Nat × Nat) := fs.map fun f => (8 * clusterBase c + f.1, f.2.1, f.2.2)

/-- Writes a pass: OUT0 (R147, R148), flags, padding's included (R129), or row statistics (R152) in OUT1, and the column sums (R133);
answers the events of the OUT0 write. DESIGN CHOICE (log 120): with MERGE = 1 an inactive element keeps its value in softmax forward
too, where R146 writes +0 and R147 the old value. -/
def State.chainWrite (s : State) (c : Nat) (r : ChainRun) (o : PassOut) : State × Events :=
  let k := r.cmd
  let t := k.ref out0
  let val := fun i j => match o.els.find? fun x => decide (x.1 = (i, j)) with | some x => fp32v x.2.2.code | none => Fl.zero
  let isAct := fun i j => o.els.any fun x => decide (x.1 = (i, j))
  let marks := outlierMarks k r.table o.els
  let w := t.write k.rows k.cols val (fun i j => marks.contains (i, j)) fun i j => !k.merge || isAct i j
  let tail := if k.tend out0 then t.tail k.rows k.cols else []
  let flags := if k.flagEn && k.kind out1 = 4 then ((t.places k.rows k.cols).map fun p =>
      (8 * (k.ref out1).elem + t.pos p.1 p.2, 1, if o.els.any fun x => decide (x.1 = p) && x.2.1.flag then 1 else 0)) ++
      (if k.tend out0 then (t.padding k.rows k.cols).map fun b => (8 * (k.ref out1).elem + (b - 8 * t.elem) / t.fmt.bits, 1, 0) else []) else []
  let stats := if k.kind out1 = 5 then o.stats.zipIdx.flatMap fun x => let a := 8 * ((k.ref out1).elem + 8 * x.2); [(a, 32, x.1.1.code), (a + 32, 32, x.1.2.code)] else []
  ((s.storeFields (toLocal c (w.fields ++ tail ++ flags ++ stats)) o.poisoned).keepSums c r o.sums o.poisoned, w.ev)

/-- The FP32 events of the row statistics and column sums of a pass: saturations, and the NaN written (R73). -/
def PassOut.wideEvents (k : ChainCmd) (o : PassOut) : Events :=
  let cols := o.sums.flatMap fun x => if k.kernel = 5 then [x.1, x.2] else [x.1]
  let rows := o.stats.flatMap fun x => [x.1, x.2]
  { Events.none with
    sat := (rows ++ cols).countP (·.sat)
    nanOut := ((if k.kind out1 = 5 then rows else []) ++ cols).countP V.isNan }

/-- Counts of a pass: events (R73, R178), histogram (R173, R174), elements. DESIGN CHOICE (log 121): an orphan escape counts in the
format of the tensor that is read, whose code it is, where R73 speaks of a destination format. -/
def State.chainCount (s : State) (v : Nat) (r : ChainRun) (o : PassOut) (ev : Events) : State :=
  let k := r.cmd
  let d := v / 24
  let sats := o.els.countP fun x => x.2.2.sat || x.2.1.last.sat || x.2.1.outs.any (·.sat)
  let s1 := ((s.countEvents d k.ctx (k.ref out0).fmt.fmt ev).countEvents d k.ctx fmtFP32 { Events.none with sat := sats }).countEvents d k.ctx fmtFP32 (o.wideEvents k)
  let s2 := o.orphans.foldl (fun s x => s.countEvents d k.ctx x.1 { Events.none with orphan := x.2 }) s1
  let s3 := if !k.hen then s2
    else if s2.streamOwned d k then o.els.foldl (fun s x => s.addBin d k.hstream (histBin (fp32v x.2.2.code)) 1) s2
    else s2.setErr (Pg.hst d) F.hstErrStatDropped k.ctx
  s3.addWork (Pg.vxe v) o.els.length

/-- The summarised values (R149). -/
def State.summarised (s : State) (c : Nat) (k : ChainCmd) (o : PassOut) : List V :=
  if k.sumStg = 8 then o.els.map fun x => widenV (k.ref out0) (fun a => s.byteAt (clusterBase c + a)) x.1.1 x.1.2
  else o.els.map fun x => x.2.1.outs.getD k.sumStg .zero

/-- A chain that ran to its end. -/
def State.runChain (s : State) (v : Nat) (r : ChainRun) : State :=
  let c := v / 2
  let o := s.chainPass c r
  let (s1, ev) := s.chainWrite c r o
  let s2 := s1.chainCount v r o ev
  s2.endRun v r (if o.poisoned then St.poisoned else St.ok) (summarise (s2.summarised c r.cmd o) ev.sat)

/-- A strike on a vector engine; the third within 86,400 s fences it (R106, R399). -/
def State.strikeVxe (s : State) (v ctx : Nat) : State :=
  let (s1, third) := s.strikeRec (v / 24) (vxeKey v) ctx 0
  if third then s1.fenceVxe v 1 else s1

/-- A parity error on a stage datapath (R164, R397): nothing is written, CHECK_FAIL, a strike, event PARITY. -/
def State.parityChain (s : State) (v : Nat) (r : ChainRun) : State :=
  let s1 := (s.setErr (Pg.vxe v) F.vxeErrStatParity r.cmd.ctx).endRun v r St.checkFail .bad
  (s1.event (v / 24) Ev.parity r.cmd.ctx (unitOf (Pg.vxe v)) 0 0).strikeVxe v r.cmd.ctx

def execChainComplete (v : Met VxeNo) (parity : Bool) (s : State) : Host.Outcome State Fault Refusal :=
  match s.vxe v.arg with
  | none => .next s
  | some r => if r.seen < r.cmd.needs then .next s else if parity then .next ((s.meet v.hits).parityChain v.arg r) else .next ((s.meet v.hits).runChain v.arg r)

/-! ## Fence, self-test, counters (R155, R164) -/

def execVxeFence (v : VxeNo) (s : State) : Host.Outcome State Fault Refusal := .next (s.fenceVxe v 7)

def execVxeSelftest (v : VxeNo) (s : State) : Host.Outcome State Fault Refusal := .next (s.startSelftest (Pg.vxe v) F.vxeStatState)

def execVxeSelftestDone (v : VxeNo) (pass : Bool) (s : State) : Host.Outcome State Fault Refusal := .next (s.endSelftest (Pg.vxe v) F.vxeStatState pass)

def execVxeReadmit (v : VxeNo) (s : State) : Host.Outcome State Fault Refusal := .next (s.readmit (Pg.vxe v) F.vxeStatState (vxeKey v))

def execVxePerfRead (v : VxeNo) (s : State) : Host.Outcome State Fault Refusal :=
  let p := Pg.vxe v
  let x := Bits.put (s.reg (p + 0x100)) 63 32 (s.workUnits p 10)
  .next (((s.out x).setReg (p + 0x100) 0).withWork (KMap.set 0 s.work p 0))

end Sys2Proof.Machine
end

