-- ==== Sys2Proof/Machine/Ostler.lean ====
section
/-! DEFINITION. The gather unit (R162) and the registers that start, stop and allocate a cluster (R163, R287, R292). -/

namespace Sys2Proof.Machine

/-! ## Gather unit (R161, R162) -/

namespace GatherCmd
def src (g : GatherCmd) : Nat := wf g.words 0 31 0
def dst (g : GatherCmd) : Nat := wf g.words 0 63 32
def idx (g : GatherCmd) : Nat := wf g.words 1 31 0
def count (g : GatherCmd) : Nat := wf g.words 1 63 32
def rowb (g : GatherCmd) : Nat := wf g.words 2 31 0
def limit (g : GatherCmd) : Nat := wf g.words 2 63 32
def tag (g : GatherCmd) : Nat := wf g.words 3 15 0
end GatherCmd

/-- Queues a descriptor of an ostler core (R162). -/
def State.queueGather (s : State) (c oc rd rs1 : Nat) (scatter : Bool) : State :=
  let p := ostlerOf c oc
  if !s.coreRuns p then s else
  let k := s.clu c
  s.newWork p rd (if 8 ≤ k.gathers.length then s.retSt p rd St.queueFull
    else (s.setClu c { k with gathers := k.gathers ++ [⟨s.scratchWords p (s.g p rs1).toNat 4, scatter, oc⟩] }).retSt p rd St.ok)

def execGather (c : ClusterNo) (oc : Fin 6) (rd rs1 : Gpr) (s : State) : Host.Outcome State Fault Refusal := .next (s.queueGather c oc rd rs1 false)

def execScatter (c : ClusterNo) (oc : Fin 6) (rd rs1 : Gpr) (s : State) : Host.Outcome State Fault Refusal := .next (s.queueGather c oc rd rs1 true)

def State.gatherIdx (s : State) (c : Nat) (g : GatherCmd) (k : Nat) : Nat := s.loadNat (clusterBase c + g.idx + 4 * k) 4

/-- Moves one row, word by word, poison with the data (log 27). -/
def State.moveRow (s : State) (c : Nat) (g : GatherCmd) (k : Nat) : State :=
  let i := s.gatherIdx c g k
  let (a, b) := if g.scatter then (g.src + g.rowb * k, g.dst + g.rowb * i) else (g.src + g.rowb * i, g.dst + g.rowb * k)
  (List.range (g.rowb / 8)).foldl (fun s w =>
    let x := clusterBase c + a + 8 * w
    s.storeBytes (addrBytes (clusterBase c + b + 8 * w) ((List.range 8).map fun n => s.byteAt (x + n))) (s.loadPoison x 8)) s

/-- The status of a descriptor (R162); a span outside the 24 MiB is SRAM_RANGE, a set reserved byte or another ROWB
PROTOCOL_ERR, a poisoned index POISONED (log 27). -/
def State.gatherCheck (s : State) (c : Nat) (g : GatherCmd) : Nat :=
  let rows := fun scat => if scat = g.scatter then g.count else g.limit
  if wf g.words 3 63 16 ≠ 0 ∨ g.rowb % 8 ≠ 0 then St.protocolErr
  else if s.sramSize c < g.idx + 4 * g.count ∨ s.sramSize c < g.src + g.rowb * rows true ∨ s.sramSize c < g.dst + g.rowb * rows false then St.sramRange
  else if s.loadPoison (clusterBase c + g.idx) (4 * g.count) then St.poisoned
  else if (List.range g.count).any fun k => decide (g.limit ≤ s.gatherIdx c g k) then St.sramRange
  else St.ok

def State.runGather (s : State) (c : Nat) (g : GatherCmd) : State :=
  let st := s.gatherCheck c g
  let ctx := s.runCtx c
  let s1 := if st = St.ok then (List.range g.count).foldl (fun s k => s.moveRow c g k) s else s
  let s2 := s1.record c 6 (Pg.clu c) false ctx st g.tag
  if st = St.poisoned then s2.consume (c / 12) ctx (unitOf (Pg.clu c)) (BitVec.ofNat 64 (clusterBase c + g.idx)) else s2

def execGatherComplete (c : Met ClusterNo) (s : State) : Host.Outcome State Fault Refusal :=
  match (s.clu c.arg).gathers with
  | g :: rest => if s.unitBlocked c.arg (Pg.clu c.arg) || s.inReset [(4, c.arg), (9, c.arg)] then .next s else
    let s := s.meet c.hits
    .next ((s.setClu c.arg { s.clu c.arg with gathers := rest }).runGather c.arg g)
  | [] => .next s

/-! ## Context and cores (R163, R287, R292, R400) -/

/-- The pending signals of the cluster's core slots are cleared, and barriers of those slots break. -/
def State.changeCtx (s : State) (c : Nat) : State :=
  (List.range 7).foldl (fun s k => (s.setSignals (coreSlot c k) 0).breakSlot (coreSlot c k) 2) s

def execCluCtxWrite (c : ClusterNo) (data : W64) (s : State) : Host.Outcome State Fault Refusal :=
  let p := Pg.clu c
  let valid := data.getLsbD 8
  let row := match rowOf (p + 0x100) with | some r => BitVec.ofNat 64 r.rw | none => 0
  if !s.changes (p + 0x100) row data then .next s
  else if !s.cluIdle c || (s.clusterFenced c && valid) then .next (s.setErr p F.cluErrStatBadSeq 0)
  else
    let s1 := s.plainWrite (p + 0x100) data
    .next (if s1.reg (p + 0x100) = s.reg (p + 0x100) then s1 else s1.changeCtx c)

/-- A core starts at CLU.ENTRY; a running core, a fenced core and a fenced cluster stay as they are (R400; log 28). -/
def execCoreRun (c : ClusterNo) (k : Fin 7) (s : State) : Host.Outcome State Fault Refusal :=
  let p := Pg.clu c
  let run := s.fld p F.cluCoreRun
  if run.testBit k || s.unitFenced (coreKey c k) || s.clusterFenced c then .next s
  else .next ((s.setFld p F.cluCoreRun (run + 2 ^ k.val)).setPc (coreSlot c k) (BitVec.ofNat 64 (s.fld p F.cluEntryAddr)))

def execCoreStop (c : ClusterNo) (k : Fin 7) (s : State) : Host.Outcome State Fault Refusal :=
  if (s.fld (Pg.clu c) F.cluCoreRun).testBit k then .next (s.haltCore c k 1) else .next s

end Sys2Proof.Machine
end

