-- ==== Sys2Proof/Machine/Telemetry.lean ====
section
/-! DEFINITION. Histograms and event counters (R173 to R181, R187, R188). -/

namespace Sys2Proof.Machine

/-! ## Histograms (R174 to R177) -/

def State.bin (s : State) (d stream n : Nat) : Nat := KMap.get 0 s.bins ((d * 256 + stream) * 64 + n)
def State.setBin (s : State) (d stream n v : Nat) : State := s.withBins (KMap.set 0 s.bins ((d * 256 + stream) * 64 + n) v)
def State.clearBins (s : State) (d stream : Nat) : State := (List.range 64).foldl (fun s n => s.setBin d stream n 0) s

/-- A histogram record (R175). -/
def State.histRecord (s : State) (d stream : Nat) : List W64 :=
  let bins := (List.range 64).map fun n => s.bin d stream n
  let head := [Bits.make [(15, 8, s.fld (Pg.hst d + 8 * stream) F.hstOwnCtx), (7, 0, stream)], BitVec.ofNat 64 (s.now d), BitVec.ofNat 64 (bins.foldl (satAdd (2 ^ 64 - 1)) 0)]
  let body := bins.map (BitVec.ofNat 64)
  head ++ [crcWords (head ++ body), 0, 0, 0, 0] ++ body

/-- Whether a record of a stream may lie at an address: in the partition of the stream's owner (R176); a stream without an
owner has none (log 29). -/
def State.histRange (s : State) (d stream op a : Nat) : Bool :=
  let p := Pg.hst d + 8 * stream
  let ctx := s.fld p F.hstOwnCtx
  s.bitF p F.hstOwnValid && decide ((if op = 2 then s.memCheck ctx a 576 else s.memCheckW ctx a 576) = St.ok)

/-- A load: DIGEST and STREAM match, then the bins are added, saturating (R176). A poisoned record does not match (log 29). -/
def State.histLoad (s : State) (d stream a : Nat) : State :=
  let ws := s.loadWords a 72
  if s.loadPoison a 576 || decide (wd ws 3 ≠ crcWords (ws.take 3 ++ ws.drop 8) ∨ wf ws 0 7 0 ≠ stream) then s.setErr (Pg.hst d) F.hstErrStatDigest (s.fld (Pg.hst d + 8 * stream) F.hstOwnCtx)
  else (List.range 64).foldl (fun s n => s.setBin d stream n (satAdd (2 ^ 64 - 1) (s.bin d stream n) (wd ws (8 + n)).toNat)) s

/-- A write of HST.SNAP: operation on a stream with the record at a local address (R176, R177). -/
def State.histOp (s : State) (d stream op a : Nat) : State :=
  let p := Pg.hst d
  if s.bitF p F.hstStatBusy ∨ 3 ≤ op then s.setErr p F.hstErrStatBadSeq 0
  else if !s.histRange d stream op a then s.setErr p F.hstErrStatDestRange (s.fld (p + 8 * stream) F.hstOwnCtx)
  else
    let s1 := (s.setBitF p F.hstStatBusy true).withHstOp (KMap.set none s.hstOp d (some ⟨stream, op, a⟩))
    match op with
    | 0 => s1.storeWords a (s1.histRecord d stream)
    | 1 => (s1.storeWords a (s1.histRecord d stream)).clearBins d stream
    | _ => s1.histLoad d stream a

def execHstSnapshot (d : Die) (stream : Byte) (addr : BitVec 42) (s : State) : Host.Outcome State Fault Refusal := .next (s.histOp d stream.toNat 0 (64 * addr.toNat))

def execHstSnapshotClear (d : Die) (stream : Byte) (addr : BitVec 42) (s : State) : Host.Outcome State Fault Refusal := .next (s.histOp d stream.toNat 1 (64 * addr.toNat))

def execHstLoad (d : Die) (stream : Byte) (addr : BitVec 42) (s : State) : Host.Outcome State Fault Refusal := .next (s.histOp d stream.toNat 2 (64 * addr.toNat))

/-- The operation that runs is finished: DONE advances (R176, R187). -/
def execHstOpDone (d : Die) (s : State) : Host.Outcome State Fault Refusal :=
  if s.bitF (Pg.hst d) F.hstStatBusy then
    .next (((s.withHstOp (KMap.set none s.hstOp d none)).setBitF (Pg.hst d) F.hstStatBusy false).wrapFld (Pg.hst d) F.hstStatDone 1)
  else .next s

/-- The HSNAP of the ostler core at a slot (R177): the layout of HST.SNAP, on its own die; a stream of another context raises
PROTOCOL_ERR against the core's, and nothing happens. -/
def State.hsnap (s : State) (p : Nat) (data : W64) : State :=
  let c := clusterOfSlot p
  let d := c / 12
  let stream := F.hstSnapStream.of data
  let own := Pg.hst d + 8 * stream
  if s.bitF own F.hstOwnValid && decide (some (s.fld own F.hstOwnCtx) = s.cluCtx c) then s.histOp d stream (F.hstSnapOp.of data) (64 * F.hstSnapAddr.of data)
  else s.raise p St.protocolErr

def execHsnapWrite (c : ClusterNo) (oc : Fin 6) (data : W64) (s : State) : Host.Outcome State Fault Refusal :=
  if s.coreRuns (ostlerOf c oc) then .next ((s.hsnap (ostlerOf c oc) data).nextPc (ostlerOf c oc)) else .next s

/-- A write of HST.OWNs clears the stream's bins (R174). -/
def execHstOwnWrite (d : Die) (stream : Byte) (data : W64) (s : State) : Host.Outcome State Fault Refusal :=
  .next ((s.plainWrite (Pg.hst d + 0x200 + 8 * stream.toNat) data).clearBins d stream.toNat)

/-! ## Event counters (R178 to R180) -/

/-- Whether an event can arise in a format (R73, R178). -/
def evtLive (i : Nat) : Bool :=
  let f := i / 6
  decide (i < 48) && (match i % 6 with
    | 0 => true
    | 1 => decide (f ≠ fmtI4)
    | 2 => decide (f = fmtF4 ∨ f = fmtT2)
    | 3 => decide (f ≤ fmtT2)
    | 4 => decide (fmtF8 ≤ f)
    | _ => decide (f = fmtF4 ∨ f = fmtT2))

def State.ctrSel (s : State) (d : Nat) : Nat := s.fld (Pg.ctr d) F.ctrSelCtx
def ctrKey (d ctx i : Nat) : Nat := bank ctx (Pg.ctr d) + 0x200 + 8 * i

/-- CTR.DIGEST: CRC-64 over the 48 counters of the selected context (R180). -/
def State.ctrDigest (s : State) (d : Nat) : W64 := crcWords ((List.range 48).map fun i => s.reg (ctrKey d (s.ctrSel d) i))

def execCtrClear (d : Die) (s : State) : Host.Outcome State Fault Refusal :=
  .next ((List.range 48).foldl (fun s i => s.setReg (ctrKey d (s.ctrSel d) i) 0) s)

def execCtrAdd (d : Die) (value : W64) (s : State) : Host.Outcome State Fault Refusal :=
  let i := s.fld (Pg.ctr d) F.ctrAddidxIdx
  if evtLive i then .next (s.addCount (ctrKey d (s.ctrSel d) i) value.toNat) else .next (s.setErr (Pg.ctr d) F.ctrErrStatBadSeq 0)

def execCtrEvtRead (d : Die) (i : Fin 48) (s : State) : Host.Outcome State Fault Refusal := .next (s.readClear (ctrKey d (s.ctrSel d) i) (BitVec.allOnes 64))

end Sys2Proof.Machine
end

