-- ==== Sys2Proof/Machine/Stacks.lean ====
section
/-! DEFINITION. The memory system's commands (07): the region table, tollgates, temperatures, scrubbing and errors of the
arrays, fences of channels, stacks and LPDDR packages. -/

namespace Sys2Proof.Machine

/-! ## Region table (R193 to R195, R198, R501) -/

/-- The checks of R193: 7 first, then 1 to 6; 0 when all pass. -/
def State.rgnCheck (s : State) (r : Nat) : Nat :=
  let g := s.region r
  let ms := (memberOrder g.tier g.mode g.target).filter s.unitUp
  let nmem := max 1 ms.length
  let others := (List.range 64).filter fun q => decide (q ≠ r) && (s.region q).valid
  let span := fun u => (g.slice, g.slice + sliceExtent g u nmem (s.chansUp u).length)
  let meets := fun (a b : Nat × Nat) => decide (a.1 < b.2 ∧ b.1 < a.2)
  if g.mode = 3 ∨ (g.mode = 1 ∧ 4 ≤ g.target) ∨ (g.mode = 2 ∧ !g.tier ∧ 20 ≤ g.target) then 7
  else if g.lbase % 65536 ≠ 0 ∨ g.slice % 65536 ≠ 0 ∨ g.size = 0 ∨ g.size % (nmem * 65536) ≠ 0 then 1
  else if 0xF00000000000 < g.lbase + g.size ∨ (others.any fun q => meets (g.lbase, g.lbase + g.size) ((s.region q).lbase, (s.region q).lbase + (s.region q).size)) then 2
  else if ms.any fun u => decide (memberCap u < (span u).2) then 3
  else if ms.any fun u => others.any fun q => (s.region q).memberList.contains u && meets (span u) (s.sliceSpan q u) then 4
  else if g.sync && (g.tier || decide (2 ^ 30 < g.size + ((others.filter fun q => (s.region q).sync).map fun q => (s.region q).size).foldl (· + ·) 0)) then 5
  else if ms.isEmpty then 6
  else 0

/-- A sync region begins with every word EMPTY and not poisoned (R210). -/
def State.clearSync (s : State) (r : Nat) : State :=
  let inSlice := fun w => (s.region r).memberList.any fun u =>
    let (a, b) := s.sliceSpan r u
    decide ((u * 2 ^ 38 + a) / 8 ≤ w ∧ w < (u * 2 ^ 38 + b) / 8)
  s.withMem { s.mem with full := s.mem.full.filter fun e => !inSlice e.1, poison := s.mem.poison.filter fun e => !inSlice e.1 }

/-- A region passes: its members, their channel lists, VALID. -/
def State.rgnOpen (s : State) (r : Nat) : State :=
  let p := Pg.map + 32 * r
  let g := s.region r
  let ms := (memberOrder g.tier g.mode g.target).filter s.unitUp
  let bits := ms.foldl (fun n u => n + 2 ^ (if g.tier then u - 20 else u)) 0
  let s1 := ms.foldl (fun s u => (s.withMs { s.ms with chans := KMap.set [] s.ms.chans (r * 64 + u) (if u < 20 then s.chansUp u else []) })) s
  let s2 := ((s1.setFld p F.mapRgnCfgMembers bits).setFld p F.mapRgnCfgNmem ms.length).setBitF p F.mapRgnCfgValid true
  if g.sync then s2.clearSync r else s2

def rgnMask : W64 := Bits.mask 62 50

/-- A write of MAP.RGN_CFG (R193, R194, R500). -/
def State.rgnWrite (s : State) (r : Nat) (data : W64) : State :=
  let p := Pg.map + 32 * r
  let k := p + 0x210
  if s.bitF p F.mapRgnCfgValid then
    if !data.getLsbD 63 then (s.setBitF p F.mapRgnCfgValid false).setBitF Pg.map F.mapStatQuiescing true
    else if s.changes k rgnMask data then s.badSeq Pg.map else s
  else
    let s1 := s.setReg k ((s.reg k &&& ~~~rgnMask) ||| (data &&& rgnMask))
    if !data.getLsbD 63 then s1 else
    let code := s1.rgnCheck r
    if code = 0 then s1.rgnOpen r else (s1.setFld Pg.map F.mapStatLastErr code).setErr Pg.map F.mapErrStatRefused 0

def execMapRgnValidate (r : Fin 64) (data : W64) (s : State) : Host.Outcome State Fault Refusal := .next (s.rgnWrite r (Bits.putBit data 63 true))

def execMapRgnClose (r : Fin 64) (s : State) : Host.Outcome State Fault Refusal :=
  .next (s.rgnWrite r (Bits.putBit (s.reg (Pg.map + 32 * r + 0x210)) 63 false))

def execMapQuiesceDone (s : State) : Host.Outcome State Fault Refusal := .next (s.setBitF Pg.map F.mapStatQuiescing false)

/-! ## Tollgates (R205 to R207, R217) -/

def State.heldQ (s : State) (d b : Nat) : List Nat := KMap.get [] s.ms.held (d * 64 + b)
def State.setHeldQ (s : State) (d b : Nat) (l : List Nat) : State := s.withMs { s.ms with held := KMap.set [] s.ms.held (d * 64 + b) l }
def State.setHeldSince (s : State) (d b t : Nat) : State := s.withMs { s.ms with heldSince := KMap.set 0 s.ms.heldSince (d * 64 + b) t }

/-- HELD takes the time since the requests began to wait, or since it was last counted (R217). -/
def State.countHeld (s : State) (d b : Nat) : State :=
  let t := KMap.get 0 s.ms.heldSince (d * 64 + b)
  if t = 0 then s else (s.addFld (Pg.toll d + 8 * b) F.tollHeldNs (s.now d - (t - 1))).setHeldSince d b (if (s.heldQ d b).isEmpty then 0 else s.now d + 1)

/-- Held requests that a level admits, in issue order: what is left of the level and of the queue. -/
def admitHeld : Nat → List Nat → Nat × List Nat
  | lvl, [] => (lvl, [])
  | lvl, c :: t => if c ≤ lvl then admitHeld (lvl - c) t else (lvl, c :: t)

/-- One refill of a bucket, clipped to DEPTH first (R206, R207). -/
def State.refill (s : State) (d b : Nat) : State :=
  let p := Pg.toll d + 8 * b
  if !s.bitF p F.tollBktEn then s else
  let depth := s.fld p F.tollBktDepth
  let lvl := min (min (s.fld p F.tollLevelLevel) depth + s.fld p F.tollBktRate) depth
  let (l, q) := admitHeld lvl (s.heldQ d b)
  let s1 := (s.setFld p F.tollLevelLevel l).setHeldQ d b q
  if q.isEmpty then s1.countHeld d b else s1

def execTollRefill (d : Die) (s : State) : Host.Outcome State Fault Refusal := .next ((List.range 64).foldl (fun s b => s.refill d b) s)

/-- A write of TOLL.BKTb (R207, R217): floors of DEPTH and RATE; a change of EN empties the bucket, EN = 0 admits what waits. -/
def execTollBktWrite (d : Die) (b : Fin 64) (data : W64) (s : State) : Host.Outcome State Fault Refusal :=
  let p := Pg.toll d + 8 * b.val
  let was := s.bitF p F.tollBktEn
  let s1 := s.plainWrite (p + 0x100) data
  let s2 := s1.setFld p F.tollBktDepth (max 4 (s1.fld p F.tollBktDepth))
  let en := s2.bitF p F.tollBktEn
  let s3 := if en then s2.setFld p F.tollBktRate (max 1 (s2.fld p F.tollBktRate)) else s2
  if en = was then .next s3
  else if en then .next (s3.setFld p F.tollLevelLevel 0)
  else .next (((s3.setFld p F.tollLevelLevel 0).setHeldQ d b []).countHeld d b)

def execTollHeldRead (d : Die) (b : Fin 64) (s : State) : Host.Outcome State Fault Refusal :=
  .next ((s.countHeld d b).readClear (Pg.toll d + 8 * b + 0x500) (BitVec.allOnes 64))

/-! ## Heat (R43, R200 to R204) -/

/-- The watermark: one word per queue, the highest SEQ consumed in order (R387, R447). -/
def State.storeWmark (s : State) : State :=
  let w := fun q => KMap.get (0 : W64) s.host.consumed q
  ((List.range 256).foldl (fun s q => s.setReg (Pg.sq q + 0x118) (w q)) s).sstAdd 0x07 0 ((List.range 256).map w)

/-- THERMTRIP_N falls (R43, R387): matrix issue stops, the event is recorded and the watermark written. -/
def State.trip (s : State) (d unit : Nat) (temp : W16) : State :=
  if s.plat.thermtrip then s
  else ((s.storeWmark.withPlat { s.plat with thermtrip := true })).event d Ev.thermtrip 0 unit 0 (temp.signExtend 64)

def State.throttle (s : State) (k : Nat) : Throttle := KMap.get ⟨false, 0⟩ s.ms.thr k
def State.setThrottle (s : State) (k : Nat) (t : Throttle) : State := s.withMs { s.ms with thr := KMap.set ⟨false, 0⟩ s.ms.thr k t }

/-- target(T) of R200, in 1/16 °C. -/
def heatTarget (thr temp : W16) : Nat := if temp.toInt < thr.toInt then 0 else min 7 (1 + ((temp.toInt - thr.toInt) / 32).toNat)

def State.stackTarget (s : State) (k : Nat) : Nat := heatTarget (BitVec.ofNat 16 (s.fld (Pg.msc k) F.mscThrThresh)) (BitVec.ofNat 16 (s.fld (Pg.msc k) F.mscTempTemp))

def execStackTempReport (k : Fin 20) (temp : W16) (s : State) : Host.Outcome State Fault Refusal :=
  let p := Pg.msc k
  let first := !s.bitF p F.mscTempValid || decide (5 ≤ (s.throttle k).missed)
  let lvl := s.fld p F.mscTempLevel
  let s1 := (s.setFld p F.mscTempTemp temp.toNat).setBitF p F.mscTempValid true
  let t := s1.stackTarget k
  let s2 := if first ∨ lvl < t then (s1.setFld p F.mscTempLevel t).setThrottle k ⟨false, 0⟩
    else if t = lvl then s1.setThrottle k ⟨false, 0⟩
    else s1.setThrottle k ⟨true, 0⟩
  .next (if 1760 ≤ temp.toInt then s2.trip (k / 5) (unitOf p) temp else s2)

/-- The 10 ms of a fall interval are over (R200). -/
def execThrottleFallStep (k : Fin 20) (s : State) : Host.Outcome State Fault Refusal :=
  let p := Pg.msc k
  let lvl := s.fld p F.mscTempLevel
  if (s.throttle k).falling && decide (lvl ≠ 0) then
    .next ((s.setFld p F.mscTempLevel (lvl - 1)).setThrottle k ⟨decide (s.stackTarget k < lvl - 1), (s.throttle k).missed⟩)
  else .next s

/-- Five readouts in a row were lost (R203). -/
def execMsTempLost (k : Fin 20) (s : State) : Host.Outcome State Fault Refusal :=
  let p := Pg.msc k
  .next (((s.setFld p F.mscTempLevel 7).setThrottle k ⟨false, 5⟩).event (k / 5) Ev.msTempLost 0 (unitOf p) 0 0)

/-- An LPDDR readout (R204, R219): above 85 °C refresh doubles; LP_HOT is raised as it begins. -/
def execLpTempReport (k : Fin 32) (temp : W16) (s : State) : Host.Outcome State Fault Refusal :=
  let p := Pg.lpc (k / 2)
  let s1 := s.setFld p (if k.val % 2 = 0 then F.lpcTempTemp0 else F.lpcTempTemp1) temp.toNat
  let hot := decide (1360 < temp.toInt)
  let was := KMap.get false s.ms.lpHot k
  let s2 := s1.withMs { s1.ms with lpHot := KMap.set false s1.ms.lpHot k hot }
  .next (if hot && !was then s2.event (k / 8) Ev.lpHot 0 (unitOf p) (k % 2) (temp.signExtend 64) else s2)

/-! ## Fences by software, scrub (R212, R213) -/

def execMscFenceWrite (k : Fin 20) (chan : W32) (s : State) : Host.Outcome State Fault Refusal :=
  .next (((Bits.setBits 32 chan.toNat).filter fun ch => !s.chanFenced k ch).foldl (fun s ch => s.fenceChan k ch 7) s)

def execLpcFenceWrite (k : Fin 16) (lp : BitVec 2) (s : State) : Host.Outcome State Fault Refusal :=
  .next (((Bits.setBits 2 lp.toNat).filter fun i => !s.lpFenced (2 * k + i)).foldl (fun s i => s.fenceLp (2 * k + i) 7) s)

/-- Whether a unit belongs to a controller. -/
def ctlOf (m : MemCtl) (u : Nat) : Bool := match m with | .stack k => decide (u = k) | .lpddr k => decide (20 ≤ u ∧ (u - 20) / 2 = k)

def ctlPage (m : MemCtl) : Nat := match m with | .stack k => Pg.msc k | .lpddr k => Pg.lpc k

/-- A stack whose controller fails is fenced (R213). -/
def State.ctlFails (s : State) (m : MemCtl) : State :=
  match m with | .stack k => if s.stackFenced k then s else s.fenceStack k 6 | .lpddr _ => s

/-- One pass of background scrub over a controller's capacity, with what it met (R212), and whether the controller failed in it. -/
def execScrubPass (m : MemCtl) (errs : ScrubErrs) (s : State) : Host.Outcome State Fault Refusal :=
  let s := if errs.ctlFails then s.ctlFails m else s
  .next ((errs.lines.filter fun e => ctlOf m e.unit).foldl (fun s e => if e.correctable then s.lineCe e.unit else s.lineUe e.unit e.moff e.channel (BitVec.ofNat 64 e.moff)) s)

def execMscEccRead (m : MemCtl) (s : State) : Host.Outcome State Fault Refusal := .next (s.readClear (ctlPage m + 0x110) (BitVec.allOnes 64))

end Sys2Proof.Machine
end

