-- ==== Sys2Proof/Machine/RemoteOps.lean ====
section
/-! DEFINITION. Remote memory operations (R342 to R347) and completion actions of porters (R293 to R295): operation blocks, the
packets a porter forms, requests that arrive through import windows. -/

namespace Sys2Proof.Machine

/-! ## Packed segments (R62, R65, R72, R344, R355) -/

/-- A format whose blocks lie in a row and hold as many elements: storage order read as columns. -/
def Fmt.inRow (f : Fmt) : Fmt := if f.blk = 5 then { f with blk := 1 } else if f.blk = 6 then { f with blk := 3 } else f

def Fmt.segScales (f : Fmt) : Nat := if f.scaled then 1024 / f.blkElems else 0

/-- Bytes of a packed segment: elements, scale bytes, side-list run. -/
def Fmt.packed (f : Fmt) : Nat := f.segBytes + f.segScales + 4 * f.slots

/-- The 1,024 wide codes of a packed segment in storage order, with the events (R72, R73). -/
def widenSeg (f : Fmt) (wide : WideFmt) (rd : Nat → Byte) : List Nat × Events :=
  let t : TRef := ⟨f.inRow, 0, f.segBytes, f.segBytes + f.segScales, 0⟩
  let els := (List.range 1024).map fun p =>
    let e := t.read rd 0 p
    let r := wide.round e.val
    (r.code, ({ Events.none with sat := if r.sat then 1 else 0, flush := if r.flush then 1 else 0, nanOut := if r.nan then 1 else 0, orphan := if e.orphan then 1 else 0 } : Events))
  (els.map (·.1), (els.map (·.2)).foldl Events.add .none)

def wideOf (w : Nat) : WideFmt := if w = 0 then bf16F else fp32F
def wideBytes (w : Nat) : Nat := if w = 0 then 2 else 4
def wideCode (w : Nat) : Nat := if w = 0 then fmtBF16 else fmtFP32

/-- Events of widened data (R73): an escape without a slot counts in the format that was read, the rest in the one written (log 121). -/
def State.countWide (s : State) (d ctx fmt wide : Nat) (ev : Events) : State :=
  (s.countEvents d ctx (wideCode wide) { ev with orphan := 0 }).countEvents d ctx (Fmt.ofWord fmt).fmt { Events.none with orphan := ev.orphan }

/-- The row-major index of storage position q in a tensor of padded row length cols (R62). -/
def Fmt.rowMajor (f : Fmt) (cols q : Nat) : Nat :=
  if !f.square then q else
  let k := q / f.blkElems; let per := max 1 (cols / f.blkW)
  (k / per * f.blkH + q % f.blkElems / f.blkW) * cols + k % per * f.blkW + q % f.blkW

/-- Writes the values of a widened segment from index q on. -/
def State.storeWide (s : State) (base wide : Nat) (place : Nat → Nat) (q : Nat) (codes : List Nat) (poison : Bool) : State :=
  s.storeBytes (codes.zipIdx.flatMap fun x => addrBytes (base + wideBytes wide * place (q + x.2)) (natBytes (wideBytes wide) x.1)) poison

/-! ## The operation block (R343) -/

namespace PortOp
def kind (o : PortOp) : Nat := wf o.words 0 63 60
def aop (o : PortOp) : Nat := wf o.words 0 59 56
def unord (o : PortOp) : Bool := (wd o.words 0).getLsbD 55
def narrow (o : PortOp) : Bool := (wd o.words 0).getLsbD 54
def wfmt (o : PortOp) : Nat := wf o.words 0 53 52
def record (o : PortOp) : Nat := wf o.words 0 47 0
def raddr (o : PortOp) : Nat := wf o.words 1 47 0
def rdev (o : PortOp) : Nat := wf o.words 1 63 48
def len (o : PortOp) : Nat := wf o.words 2 63 32
def fmt (o : PortOp) : Nat := wf o.words 2 31 16
def cmp (o : PortOp) : W64 := wd o.words 2
def lop (o : PortOp) : W64 := wd o.words 3
def lopAddr (o : PortOp) : Nat := wf o.words 3 47 0
def lopDev (o : PortOp) : Nat := wf o.words 3 63 48
def moves (o : PortOp) : Bool := decide (o.kind ≤ 3)
def hasAction (o : PortOp) : Bool := decide (wf o.words 4 63 0 ≠ 0)
/-- The device that a reply comes from. -/
def answerer (o : PortOp) : Nat := if o.kind = 3 then o.lopDev else o.rdev
end PortOp

/-- A block that sends nothing (R343). -/
def PortOp.malformed (o : PortOp) : Bool :=
  decide (o.kind = 0 ∨ 5 < o.kind) || decide (wf o.words 0 51 48 ≠ 0) ||
  (if o.kind = 4 then decide (8 < o.aop ∨ wf o.words 1 2 0 ≠ 0) || (decide (o.aop ≠ 2) && decide (o.cmp ≠ 0)) else decide (o.aop ≠ 0)) ||
  (if o.moves then decide (o.len = 0 ∨ wf o.words 2 15 0 ≠ 0) else decide (o.kind = 5 ∧ o.cmp ≠ 0)) ||
  (if o.kind = 1 && o.narrow then decide (1 < o.wfmt) else o.narrow || decide (o.wfmt ≠ 0)) ||
  (decide (o.kind ≠ 1 ∨ o.narrow = false) && decide (o.moves ∧ o.fmt ≠ 0)) ||
  (decide (o.kind = 5) && decide (wf o.words 1 47 9 ≠ 0))

/-- The status of a format word that a NARROW payload names (R45, R46): of a refused combination, or of a format that is not narrow. -/
def narrowCheck (w : Nat) : Nat :=
  let f := Fmt.ofWord w
  if f.check ≠ St.ok then f.check else if fmtF8W < f.fmt then St.fmtUnsupported else St.ok

/-- Whether the operation runs inside this package: its device is SELF, and it is no GET3. -/
def State.isLocal (s : State) (o : PortOp) : Bool := decide (o.kind ≠ 3 ∧ o.rdev = s.self)

/-- The first failure of an operation at issue (R319, R343, R190, R197): OK if there is none. -/
def State.opCheck (s : State) (o : PortOp) : Nat × State :=
  if o.malformed then (St.protocolErr, s)
  else if o.narrow && decide (narrowCheck o.fmt ≠ St.ok) then (narrowCheck o.fmt, s)
  else
    let (st, s1) := if o.rdev = s.self then (St.ok, s) else s.lookup o.rdev (decide (o.kind = 3) || o.narrow)
    if st ≠ St.ok then (st, s1)
    else if o.kind = 1 then (s1.memCheck o.ctx o.lopAddr o.len, s1)
    else if o.kind = 2 then (s1.memCheckW o.ctx o.lopAddr o.len, s1)
    else (St.ok, s1)

/-! ## Forming packets (R319, R325, R344, R346) -/

/-- A packet leaves for its device; one for this package sinks on the die. -/
def State.post (s : State) (d : Nat) (ws : List W64) : State :=
  if Pkt.dst ws = s.self then (s.withNet { s.net with sunk := s.net.sunk ++ [⟨ws, d, 24⟩] }) else s.inject d ws

/-- Reply intake that an owner of a slot holds: a header, and the data of a GET. -/
def State.intakeOf (s : State) (o : Owner) : Nat :=
  match o with
  | .porter op _ len => match s.net.ops.find? fun x => decide (x.num = op) with
    | some x => if x.kind = 2 then 32 + roundUp len 32 else 64
    | none => 32 + roundUp len 32
  | .chunk _ _ _ => 32

/-- Reply intake in use on a die. -/
def State.intakeUsed (s : State) (d : Nat) : Nat :=
  (s.net.slots.filter fun e => decide (e.1 / 4096 = d)).foldl (fun n e => match e.2.use with | some u => n + s.intakeOf u.2 | none => n) 0

/-- A reply slot of a die for an owner that its 2 MiB of intake can serve. -/
def State.claimSlot (s : State) (d ctx : Nat) (o : Owner) : Option (Nat × State) :=
  if 2 ^ 21 < s.intakeUsed d + s.intakeOf o then none else
  match s.freeSlot d with
  | some k => some (k, s.setSlot k ⟨(s.slot k).gen, some (ctx, o)⟩)
  | none => none

/-- Bytes of the largest piece to a device. -/
def State.pieceMax (s : State) (dev : Nat) : Nat := if routeV2 (s.route s.inj dev) then 128 else 1024

/-- Whether a local address lies in the register window, which only CX000 reaches (R189). -/
def State.inWindow (s : State) (a : Nat) : Bool := decide (s.place a = some .window)

/-- The request packet of a piece (log 39). -/
def State.requestPkt (s : State) (o : PortOp) (k off n : Nat) : List W64 :=
  let op := match o.kind with | 1 => Op.put | 2 => Op.get | 3 => Op.get3 | 4 => Op.atomic | _ => Op.signal
  let h0 : PktHead := { s.head o.rdev 0 op with unord := s.unordTo o.rdev o.unord, slot := k % 4096, gen := (s.slot k).gen, addr := o.raddr + off, len := n }
  match o.kind with
  | 1 =>
    let a := o.lopAddr + off
    let ws := bytesWords ((List.range n).map fun i => if s.inWindow o.lopAddr then (KMap.find o.win (off + i)).getD 0 else s.byteAt (a + i))
    let h1 := { h0 with status := if s.loadPoison a n then St.poisoned else St.ok }
    mkPkt (if o.narrow then { h1 with narrow := true, addr := o.raddr, seq := off, fmt := o.fmt, len := n + 2 ^ 15 * o.wfmt } else h1) ws
  | 2 => mkPkt h0 []
  | 3 => mkPkt h0 [o.lop + BitVec.ofNat 64 off]
  | 4 => mkPkt { h0 with addr := o.raddr, len := o.aop } [o.lop, o.cmp]
  | _ => mkPkt { h0 with addr := o.raddr, len := 0 } [o.lop]

/-- Whether an operation may form its next packet (R346). -/
def State.mayForm (s : State) (o : PortOp) : Bool :=
  o.unord || (s.net.ops.takeWhile fun e => decide (e.num ≠ o.num)).all fun e =>
    !(decide (e.group = o.group ∧ e.rdev = o.rdev ∧ e.unord = false) && (match e.epoch with | some x => decide (x ≠ s.inj) | none => false))

def State.mapOp (s : State) (num : Nat) (f : PortOp → PortOp) : State :=
  s.withNet { s.net with ops := s.net.ops.map fun o => if o.num = num then f o else o }

/-- The operation of a die that forms the next packet: the first in issue order. -/
def State.nextOp (s : State) (d : Nat) : Option PortOp :=
  s.net.ops.find? fun o => decide (o.die = d ∧ o.status = St.ok) && !o.rest.isEmpty && !s.isLocal o && s.mayForm o

/-- One packet of an operation. -/
def State.formOne (s : State) (o : PortOp) : Option State :=
  match o.rest with
  | [] => none
  | (off, len) :: t =>
    let n := if o.moves then min len (s.pieceMax o.rdev) else len
    match s.claimSlot o.die o.ctx (.porter o.num off n) with
    | none => none
    | some (k, s1) =>
      let ws := s1.requestPkt o k off n
      let s2 := if o.kind = 1 then s1.charge o.die (s1.partOf o.ctx) (o.lopAddr + off) n false else s1
      let s3 := s2.mapOp o.num fun x => { x with rest := (if n < len then (off + n, len - n) :: t else t), flying := x.flying + 1, epoch := match x.epoch with | some e => some e | none => some s.inj }
      some (s3.post o.die ws)

/-- Every packet that slots, intake and order allow now. -/
def State.formMany : Nat → State → Nat → State
  | 0, s, _ => s
  | n + 1, s, d => match s.nextOp d with
    | some o => (match s.formOne o with | some s1 => State.formMany n s1 d | none => s)
    | none => s

def State.formAll (s : State) (d : Nat) : State := State.formMany 4097 s d

/-- An operation that the package itself submits, without action or record: its number, and the state. -/
def State.submitOp (s : State) (group ctx : Nat) (words : List W64) : Nat × State :=
  let o : PortOp := { num := s.net.nextOp, group := group, ctx := ctx, words := words, rest := [], flying := 0, epoch := none, bytes := 0, status := St.ok, old := 0, win := [] }
  let (st, s1) := s.opCheck o
  let o1 := { o with status := st, rest := if st = St.ok then [(0, o.len)] else [] }
  (o.num, (s1.withNet { s1.net with ops := s1.net.ops ++ [o1], nextOp := s1.net.nextOp + 1 }).formAll o.die)

/-! ## Effects at the home (R344) -/

/-- The words with waiters that a store of n bytes touches; each is tried again (R277). -/
def State.wakeRange (s : State) (a n : Nat) : State :=
  let ls := (s.sync.waiters.filterMap fun w => w.why.word?.map (·.1)).eraseDups.filter fun l => decide (l < a + n ∧ a < l + 8)
  ls.foldl (fun s l => s.wake l) s

/-- The value that ADD, SWAP, CAS or FADD leaves in a word (R344). -/
def atomicValue (aop : Nat) (v x cmp : W64) : W64 :=
  match aop with
  | 0 => v + x
  | 1 => x
  | 2 => if v = cmp then x else v
  | _ => BitVec.ofNat 64 (fpAdd fp64F v.toNat x.toNat).code

/-- An atomic operation on a word that may be reached: status, old value if there is one, state (R344). -/
def State.atomicOp (s : State) (l aop : Nat) (x cmp : W64) : Nat × Option W64 × State :=
  let v := s.load64 l
  let plain : W64 → Nat × Option W64 × State := fun nv =>
    if s.loadPoison l 8 then (St.poisoned, some v, s) else (St.ok, some v, (s.storeWords l [nv]).wakeRange l 8)
  let word : WordOp → Nat × Option W64 × State := fun op =>
    match s.place l with
    | none => (St.addrUnmapped, none, s)
    | some p =>
      if !s.hasWordBits p then (St.protocolErr, none, s) else
      match s.wordOp l op with
      | none => (St.notReady, none, s)
      | some (st, r, s1) => (st, (match r with | some w => some w | none => if st = St.ok then some v else none), s1.wake l)
  match aop with
  | 0 | 1 | 2 | 3 => plain (atomicValue aop v x cmp)
  | 4 => word (.finc x)
  | 5 => word (.fdec x)
  | 6 => word (.stef x)
  | 7 => word .ldfe
  | 8 => word .ldfn
  | _ => (St.protocolErr, none, s)

/-- The old value of an atomic operation; where the word gave none, a free value (log 40). -/
def State.oldValue (s : State) (v : Option W64) : W64 × State := match v with | some x => (x, s) | none => s.draw

/-! ## Local operations (R293, R344) -/

/-- The packed segments of n bytes read by rd, widened to base in storage order: a last part that fills no segment is not. -/
def State.widenAll (s : State) (d ctx base fmt wide n : Nat) (rd : Nat → Byte) (poison : Nat → Nat → Bool) : State :=
  let f := Fmt.ofWord fmt
  (List.range (n / max 1 f.packed)).foldl (fun s g =>
    let (codes, ev) := widenSeg f (wideOf wide) fun i => rd (g * f.packed + i)
    (s.storeWide base wide id (1024 * g) codes (poison (g * f.packed) f.packed)).countWide d ctx fmt wide ev) s

/-- What an operation on this package itself does: status, bytes, old value, state. -/
def State.runLocal (s : State) (o : PortOp) : Nat × Nat × W64 × State :=
  let d := o.die; let part := s.partOf o.ctx
  match o.kind with
  | 1 =>
    let n := if o.narrow then o.len / max 1 (Fmt.ofWord o.fmt).packed * 1024 * wideBytes o.wfmt else o.len
    let st := s.memCheckW o.ctx o.raddr n
    if st ≠ St.ok then (st, 0, 0, s) else
    let s1 := ((if o.narrow then s.widenAll d o.ctx o.raddr o.fmt o.wfmt o.len (fun i => s.byteAt (o.lopAddr + i)) (fun i m => s.loadPoison (o.lopAddr + i) m)
      else s.moveBytes o.lopAddr o.raddr o.len).charge d part o.lopAddr o.len false).charge d part o.raddr n true
    (s.wrote o.raddr n, o.len - s.fencedBytes o.raddr n, 0, s1.wakeRange o.raddr n)
  | 2 =>
    let st := s.memCheck o.ctx o.raddr o.len
    if st ≠ St.ok then (st, 0, 0, s) else
    (s.wrote o.lopAddr o.len, o.len - s.fencedBytes o.lopAddr o.len, 0, ((((s.moveBytes o.raddr o.lopAddr o.len).charge d part o.raddr o.len false).charge d part o.lopAddr o.len true).wakeRange o.lopAddr o.len))
  | 4 =>
    let chk := s.memCheckW o.ctx o.raddr 8
    let st := if chk ≠ St.ok then chk else s.wrote o.raddr 8
    if st ≠ St.ok then (st, 0, 0, s) else
    let (st, v, s1) := ((s.charge d part o.raddr 8 false).charge d part o.raddr 8 true).atomicOp o.raddr o.aop o.lop o.cmp
    let (w, s2) := s1.oldValue v
    let s3 := if st = St.syncUnderflow then s2.underflow o.ctx o.raddr else s2
    (st, if st = St.ok then 8 else 0, w, if st = St.poisoned then s3.consume d o.ctx 0 (BitVec.ofNat 64 o.raddr) else s3)
  | _ => let (st, s1) := s.signal o.ctx (wf o.words 1 8 0) o.lop; (st, 0, 0, s1)

/-! ## The end of a transfer (R293 to R295, R347) -/

/-- Whether a local operation waits behind a request that a tollgate holds (R206). -/
def State.opShut (s : State) (o : PortOp) : Bool :=
  let part := s.partOf o.ctx
  match o.kind with
  | 1 => s.gateShut o.die part o.lopAddr o.len false || s.gateShut o.die part o.raddr o.len true
  | 2 => s.gateShut o.die part o.raddr o.len false || s.gateShut o.die part o.lopAddr o.len true
  | 4 => s.atomicShut o.die part o.raddr
  | _ => false

def State.finished (s : State) (o : PortOp) : Bool :=
  decide (o.status ≠ St.ok) || (s.isLocal o && !s.opShut o) || (!s.isLocal o && o.rest.isEmpty && decide (o.flying = 0))

/-- Whether nothing before it in its group keeps an operation from its end: an action waits for the actions of its context before
it, and a local operation that keeps order for the local ones before it (R295, R346). -/
def State.mayEnd (s : State) (o : PortOp) : Bool :=
  s.finished o && (s.net.ops.takeWhile fun e => decide (e.num ≠ o.num)).all fun e =>
    decide (e.group ≠ o.group) ||
    (!(o.hasAction && decide (o.status = St.ok ∧ e.ctx = o.ctx ∧ e.status = St.ok) && e.hasAction) &&
     !(s.isLocal o && s.isLocal e && !o.unord && !e.unord && decide (o.status = St.ok ∧ e.status = St.ok)))

/-- Action and record (R293, R294, R347): the status of a failed action enters the record. -/
def State.endOp (s : State) (o : PortOp) (st bytes : Nat) (old : W64) : State :=
  let s1 := s.withNet { s.net with ops := s.net.ops.filter fun x => decide (x.num ≠ o.num) }
  let (st2, s2) := if st = St.ok then s1.act o.ctx (376 + o.group) (wd o.words 4) (wd o.words 5) else (st, s1)
  (s2.portRecord o.die o.ctx o.record st2 bytes old).formAll o.die

/-! ## Import windows (R345) -/

/-- What an import window admits: partition and context. -/
structure Import where
  part : Nat
  ctx : Nat
  deriving DecidableEq, Repr

/-- The first window that fits a request (R345): bit is the right in SRC; slot, for a SIGNAL, the target; else n bytes at a. -/
def State.importWin (s : State) (src bit : Nat) (slot : Option Nat) (a n : Nat) : Option Import :=
  let w := (List.range 64).find? fun w =>
    let p := Pg.rwin + 32 * w
    s.bitF p F.rwinSrcValid && decide (s.fld p F.rwinSrcSrclo ≤ src ∧ src ≤ s.fld p F.rwinSrcSrchi) && (s.reg (p + F.rwinSrcValid.off)).getLsbD bit &&
    (match slot with
     | some t => s.slotRuns t (s.fld p F.rwinSrcCtx)
     | none => decide (s.fld p F.rwinBaseLbase * 4096 ≤ a ∧ a + n ≤ (s.fld p F.rwinBaseLbase + s.fld p F.rwinSizeSize) * 4096))
  w.map fun w => ⟨s.fld (Pg.rwin + 32 * w) F.rwinSrcPart, s.fld (Pg.rwin + 32 * w) F.rwinSrcCtx⟩

/-- A request that no window fits is counted (R345). -/
def State.deny (s : State) : State := s.addFld Pg.rwin F.rwinDenyCount 1

/-- The context an import counts as in R190: the window's; none for CX000, which an import never is. -/
def Import.asCtx (w : Import) : Nat := if w.ctx = 0 then 256 else w.ctx

/-- The status of an import's access to n bytes (R190, R197), and of a write (R257). -/
def State.importCheck (s : State) (w : Import) (a n : Nat) : Nat := s.memCheckAs w.asCtx w.part a n
def State.importCheckW (s : State) (w : Import) (a n : Nat) : Nat :=
  let st := s.importCheck w a n
  if st = St.ok && decide (w.ctx = 0) && (checkPoints a n).any s.vtLocked then St.partViolation else st

/-- A request that keeps its place in its source's order (R346). -/
def keepsOrder (ws : List W64) : Bool := decide (Op.put ≤ Pkt.op ws ∧ Pkt.op ws ≤ Op.signal) && !Pkt.unord ws

/-- Whether a sunk packet may take effect now: no request with UNORD = 0 of its source stands before it, if it has UNORD = 0 too (R346). -/
def State.inOrder (s : State) (h : Held) : Bool :=
  !keepsOrder h.words || (s.net.sunk.takeWhile fun x => decide (x ≠ h)).all fun x => !(keepsOrder x.words && decide (Pkt.src x.words = Pkt.src h.words))

/-- Takes the first sunk packet of a die that holds and may take effect. -/
def State.takeSunk (s : State) (d : Nat) (p : List W64 → Bool) : Option (List W64 × State) :=
  match s.net.sunk.find? fun h => decide (h.die = d) && p h.words && s.inOrder h with
  | some h => some (h.words, (s.withNet { s.net with sunk := s.net.sunk.erase h }))
  | none => none

/-- A reply to a request, or to the requester that a DATA3 names. -/
def State.reply (s : State) (d dst : Nat) (req : List W64) (op st len : Nat) (payload : List W64) : State :=
  s.post d (mkPkt { s.head dst 2 op with slot := Pkt.slot req, gen := Pkt.gen req, status := st, len := len } payload)

def State.ack (s : State) (d : Nat) (req : List W64) (st : Nat) : State := s.reply d (Pkt.src req) req Op.ack st 0 []

/-! ## Arriving requests (R344, R345) -/

/-- Bytes of the payload that a LEN field gives. -/
def lenOf (ws : List W64) : Nat := wf ws 2 14 0

/-- What has arrived of a narrow put, if any. -/
def State.narrowAt (s : State) (src base fmt wide : Nat) : KMap Byte :=
  match s.net.narrow.find? fun x => decide (x.src = src ∧ x.base = base ∧ x.fmt = fmt ∧ x.wide = wide) with | some x => x.bytes | none => []

def State.setNarrow (s : State) (src base fmt wide : Nat) (m : KMap Byte) : State :=
  let others := s.net.narrow.filter fun x => !decide (x.src = src ∧ x.base = base ∧ x.fmt = fmt ∧ x.wide = wide)
  s.withNet { s.net with narrow := if m.isEmpty then others else others ++ [⟨src, base, fmt, wide, m⟩] }

/-- The segments that bytes [off, off + n) of a narrow put lie in: first and number. -/
def segSpan (f : Fmt) (off n : Nat) : Nat × Nat := let p := max 1 f.packed; (off / p, (off + n - 1) / p + 1 - off / p)

/-- A piece of a narrow put: its bytes join those that have come, and each segment now whole is widened and written. -/
def State.landNarrow (s : State) (d : Nat) (w : Import) (ws : List W64) : State :=
  let src := Pkt.src ws; let base := Pkt.addr ws; let fmt := Pkt.fmt ws; let wide := wf ws 2 15 15
  let f := Fmt.ofWord fmt
  let m := (Pkt.bytes ws (lenOf ws)).zipIdx.foldl (fun m b => KMap.insert (KMap.erase m (Pkt.seq ws + b.2)) (Pkt.seq ws + b.2) b.1) (s.narrowAt src base fmt wide)
  let (g0, gn) := segSpan f (Pkt.seq ws) (lenOf ws)
  let poison := Pkt.status ws = St.poisoned
  let (s1, m1) := (List.range gn).foldl (fun (acc : State × KMap Byte) k =>
    let g := g0 + k
    if (List.range f.packed).all fun i => (KMap.find acc.2 (g * f.packed + i)).isSome then
      let (codes, ev) := widenSeg f (wideOf wide) fun i => (KMap.find acc.2 (g * f.packed + i)).getD 0
      let s1 := (acc.1.storeWide base wide id (1024 * g) codes poison).countWide d w.ctx fmt wide ev
      (s1, acc.2.filter fun e => decide (e.1 / f.packed ≠ g))
    else acc) (s, m)
  s1.setNarrow src base fmt wide m1

def execPutRecv (d : Met Die) (s0 : State) : Host.Outcome State Fault Refusal :=
  let s := s0.meet d.hits
  match s.takeSunk d.arg fun ws => decide (Pkt.op ws = Op.put) with
  | none => .next s0
  | some (ws, s1) =>
    let f := Fmt.ofWord (Pkt.fmt ws)
    let bad := Pkt.narrow ws && decide (narrowCheck (Pkt.fmt ws) ≠ St.ok)
    let (a, n) := if Pkt.narrow ws then
        let (g0, gn) := segSpan f (Pkt.seq ws) (lenOf ws)
        (Pkt.addr ws + 1024 * wideBytes (wf ws 2 15 15) * g0, 1024 * wideBytes (wf ws 2 15 15) * gn)
      else (Pkt.addr ws, lenOf ws)
    if bad then .next (s1.ack d.arg ws (narrowCheck (Pkt.fmt ws))) else
    match s1.importWin (Pkt.src ws) 62 none a n with
    | none => .next (s1.deny.ack d.arg ws St.partViolation)
    | some w =>
      if s1.gateShut d.arg w.part a n true then .next s0 else
      let st := s1.importCheckW w a n
      if st ≠ St.ok then .next (s1.ack d.arg ws st)
      else
        let s2 := if Pkt.narrow ws then s1.landNarrow d.arg w ws
          else s1.storeMarked a (Pkt.bytes ws n) fun _ => decide (Pkt.status ws = St.poisoned)
        .next (((s2.charge d.arg w.part a n true).wakeRange a n).ack d.arg ws (s1.wrote a n))

/-- The bytes a GET or GET3 reads, as payload. -/
def State.readPayload (s : State) (a n : Nat) : List W64 := bytesWords ((List.range n).map fun i => s.byteAt (a + i))

def execGetRecv (d : Met Die) (s0 : State) : Host.Outcome State Fault Refusal :=
  let s := s0.meet d.hits
  match s.takeSunk d.arg fun ws => decide (Pkt.op ws = Op.get) with
  | none => .next s0
  | some (ws, s1) =>
    let a := Pkt.addr ws; let n := Pkt.len ws
    match s1.importWin (Pkt.src ws) 61 none a n with
    | none => .next (s1.deny.reply d.arg (Pkt.src ws) ws Op.data St.partViolation 0 [])
    | some w =>
      if s1.gateShut d.arg w.part a n false then .next s0 else
      let st := s1.importCheck w a n
      if st ≠ St.ok then .next (s1.reply d.arg (Pkt.src ws) ws Op.data st 0 [])
      else .next ((s1.charge d.arg w.part a n false).reply d.arg (Pkt.src ws) ws Op.data (if s1.loadPoison a n then St.poisoned else St.ok) n (s1.readPayload a n))

/-- A GET3 at the source device: DATA3 goes on to the third device, with the requester's device in SEQ and its slot (log 39). -/
def execGet3Recv (d : Met Die) (s0 : State) : Host.Outcome State Fault Refusal :=
  let s := s0.meet d.hits
  match s.takeSunk d.arg fun ws => decide (Pkt.op ws = Op.get3) with
  | none => .next s0
  | some (ws, s1) =>
    let a := Pkt.addr ws; let n := Pkt.len ws
    match s1.importWin (Pkt.src ws) 61 none a n with
    | none => .next (s1.deny.ack d.arg ws St.partViolation)
    | some w =>
      if s1.gateShut d.arg w.part a n false then .next s0 else
      let st := s1.importCheck w a n
      if st ≠ St.ok then .next (s1.ack d.arg ws st)
      else
        let dst := Pkt.payload ws 0
        let (rt, s2) := if Bits.get dst 63 48 = s1.self then (St.ok, s1) else s1.lookup (Bits.get dst 63 48) true
        if rt ≠ St.ok then .next (s2.ack d.arg ws rt)
        else .next ((s2.charge d.arg w.part a n false).post d.arg (mkPkt { s2.head (Bits.get dst 63 48) 1 Op.data3 with
          slot := Pkt.slot ws, gen := Pkt.gen ws, addr := Bits.get dst 47 0, seq := Pkt.src ws, len := n, unord := s2.unordTo (Bits.get dst 63 48) (Pkt.unord ws)
          status := if s2.loadPoison a n then St.poisoned else St.ok } (s2.readPayload a n)))

/-- DATA3 at the third device: its window is checked with the right of a GET3 and the requester's device (log 39). -/
def execData3Recv (d : Met Die) (s0 : State) : Host.Outcome State Fault Refusal :=
  let s := s0.meet d.hits
  match s.takeSunk d.arg fun ws => decide (Pkt.op ws = Op.data3) with
  | none => .next s0
  | some (ws, s1) =>
    let a := Pkt.addr ws; let n := Pkt.len ws; let req := Pkt.seq ws
    let answer := fun (s : State) st => s.reply d.arg req ws Op.ack st 0 []
    match s1.importWin req 61 none a n with
    | none => .next (answer s1.deny St.partViolation)
    | some w =>
      if s1.gateShut d.arg w.part a n true then .next s0 else
      let st := s1.importCheckW w a n
      if st ≠ St.ok then .next (answer s1 st)
      else
        let s2 := s1.storeMarked a (Pkt.bytes ws n) fun _ => decide (Pkt.status ws = St.poisoned)
        .next (answer ((s2.charge d.arg w.part a n true).wakeRange a n) (s1.wrote a n))

def execAtomicRecv (d : Met Die) (s0 : State) : Host.Outcome State Fault Refusal :=
  let s := s0.meet d.hits
  match s.takeSunk d.arg fun ws => decide (Pkt.op ws = Op.atomic) with
  | none => .next s0
  | some (ws, s1) =>
    let a := Pkt.addr ws
    match s1.importWin (Pkt.src ws) 60 none a 8 with
    | none => .next (s1.deny.ack d.arg ws St.partViolation)
    | some w =>
      if s1.atomicShut d.arg w.part a then .next s0 else
      let chk := s1.importCheckW w a 8
      let st := if a % 8 ≠ 0 then St.protocolErr else if chk ≠ St.ok then chk else s1.wrote a 8
      if st ≠ St.ok then .next (s1.ack d.arg ws st)
      else
        let s2 := (s1.charge d.arg w.part a 8 false).charge d.arg w.part a 8 true
        let (st, v, s3) := s2.atomicOp a (Pkt.len ws) (Pkt.payload ws 0) (Pkt.payload ws 1)
        let (x, s4) := s3.oldValue v
        let s5 := if st = St.syncUnderflow then s4.underflow w.ctx a else s4
        .next (s5.reply d.arg (Pkt.src ws) ws Op.ack st 0 [x])

def execSignalRecv (d : Die) (s : State) : Host.Outcome State Fault Refusal :=
  match s.takeSunk d fun ws => decide (Pkt.op ws = Op.signal) with
  | none => .next s
  | some (ws, s1) =>
    let t := Pkt.addr ws
    match s1.importWin (Pkt.src ws) 59 (some t) 0 0 with
    | none => .next (s1.deny.ack d ws St.partViolation)
    | some w =>
      let (st, s2) := s1.signal w.ctx t (Pkt.payload ws 0)
      .next (s2.ack d ws st)

def execRwinDenyRead (s : State) : Host.Outcome State Fault Refusal := .next (s.readClear (Pg.rwin + 0x100) (BitVec.allOnes 64))

/-! ## Replies and timeouts of porter operations (R325, R347) -/

/-- A piece of an operation is answered: the first failure decides, and the operation sends no more. -/
def State.answered (s : State) (num off len : Nat) (ws : List W64) : State :=
  match s.net.ops.find? fun o => decide (o.num = num) with
  | none => s
  | some o =>
    let st := if Pkt.op ws = Op.data && decide (Pkt.status ws = St.poisoned) then St.ok else Pkt.status ws
    let chk := s.memCheckW o.ctx (o.lopAddr + off) len
    let lands := decide (st = St.ok ∧ o.kind = 2 ∧ chk = St.ok)
    let mst := if decide (st = St.ok ∧ o.kind = 2) then (if chk ≠ St.ok then chk else s.wrote (o.lopAddr + off) len) else st
    let s1 := if lands then
        ((s.storeMarked (o.lopAddr + off) (Pkt.bytes ws len) fun _ => decide (Pkt.status ws = St.poisoned)).charge o.die (s.partOf o.ctx) (o.lopAddr + off) len true).wakeRange (o.lopAddr + off) len
      else s
    let old := if o.kind = 4 then Pkt.payload ws 0 else 0
    let keep := fun (m : KMap Byte) => if lands && s.inWindow o.lopAddr then (Pkt.bytes ws len).zipIdx.foldl (fun m b => KMap.insert (KMap.erase m (off + b.2)) (off + b.2) b.1) m else m
    let s2 := s1.mapOp num fun x => { x with win := keep x.win, flying := x.flying - 1, bytes := (if mst = St.ok then x.bytes + len else x.bytes), old := old, status := (if x.status = St.ok then mst else x.status), rest := (if mst = St.ok then x.rest else []) }
    if o.kind = 4 && decide (mst = St.poisoned) then s2.consume o.die o.ctx 0 (wd o.words 1) else s2

/-- A piece times out (R325): the first failure decides the operation's status, and RTE.TMO counts the operation once (R330). -/
def State.timedOut (s : State) (num : Nat) : State :=
  let s1 := if s.net.ops.any fun o => decide (o.num = num ∧ o.status = St.ok) then s.addFld Pg.rte F.rteTmoCount 1 else s
  s1.mapOp num fun x => { x with flying := x.flying - 1, status := (if x.status = St.ok then St.remoteTimeout else x.status), rest := [] }

end Sys2Proof.Machine
end

