-- ==== Sys2Proof/Machine/UpdMath.lean ====
section
/-! DEFINITION. Update programs (R227 to R233): element operations, loaded programs, the shipped programs, and what one lane
leaves in its streams. -/

namespace Sys2Proof.Machine

/-- An FP32 code in a 64-bit element or general register. -/
def reg32 (c : Nat) : W64 := Config.fp32High (BitVec.ofNat 32 c) ++ BitVec.ofNat 32 c
def lo32 (w : W64) : Nat := w.toNat % 2 ^ 32

/-! ## Element operations (R228) -/

inductive UBin where
  | add | sub | mul | div | max | min
  deriving DecidableEq, Repr

inductive UUn where
  | sqrt | abs | neg | sgn
  deriving DecidableEq, Repr

/-- An operation of the element section; dbl: FP64. -/
inductive UOp where
  | uld (rd stream : Nat)
  | ust (stream rs : Nat)
  | bin (f : UBin) (dbl : Bool) (rd a b : Nat)
  | fma (dbl : Bool) (rd a b : Nat)
  | un (f : UUn) (dbl : Bool) (rd a : Nat)
  | cvt (toDbl : Bool) (rd a : Nat)
  | wadd (rd a b : Nat)
  deriving DecidableEq, Repr

/-- What an operation does to a lane: a register written, a stream stored, whether an FP32 result saturated, and for uwadd the
FP32 addend and the saturation and flush of the W40 result. -/
structure LaneRes where
  reg : Option (Nat × W64)
  store : Option (Nat × W64)
  sat : Bool
  addend : Option Nat
  wSat : Bool
  wFlush : Bool

def LaneRes.none : LaneRes := ⟨.none, .none, false, .none, false, false⟩
def LaneRes.wr (rd : Nat) (v : W64) (sat : Bool) : LaneRes := { LaneRes.none with reg := some (rd, v), sat := sat }

def UBin.code (f : UBin) (w : WideFmt) (a b : Nat) : FpR :=
  match f with
  | .add => fpAdd w a b
  | .sub => fpSub w a b
  | .mul => fpMul w a b
  | .div => fpDiv w a b
  | .max => ⟨fpMax w a b, false⟩
  | .min => ⟨fpMin w a b, false⟩

def UUn.code (f : UUn) (w : WideFmt) (a : Nat) : FpR :=
  match f with
  | .sqrt => fpSqrt w a
  | .abs => ⟨fpAbs w a, false⟩
  | .neg => ⟨fpNeg w a, false⟩
  | .sgn =>
    let v := w.value a
    if v.isNan then ⟨w.nanCode, false⟩ else if v.isZero then ⟨0, false⟩ else ⟨(w.round (if v.isNeg then Fl.one.neg else .one)).code, false⟩

/-- A result of a wide format in a register. -/
def LaneRes.fp (dbl : Bool) (rd : Nat) (r : FpR) : LaneRes := if dbl then .wr rd (BitVec.ofNat 64 r.code) false else .wr rd (reg32 r.code) r.sat

def fpW (dbl : Bool) : WideFmt := if dbl then fp64F else fp32F
def fpIn (dbl : Bool) (w : W64) : Nat := if dbl then w.toNat else lo32 w

/-- The FP64 code of a value that FP64 holds exactly. -/
def to64 (v : Fl) : Nat := (fp64F.round v).code

/-- An operation on the registers and streams of a lane (R228, R229); a lane whose GRAD is not finite stores what it loaded (R230). -/
def UOp.run (op : UOp) (e inp : Nat → W64) : LaneRes :=
  match op with
  | .uld rd st => .wr rd (inp st) false
  | .ust st rs => { LaneRes.none with store := some (st, if (fp32v (lo32 (inp 0))).isFin then e rs else if st = 4 then inp 1 else inp st) }
  | .bin f dbl rd a b => .fp dbl rd (f.code (fpW dbl) (fpIn dbl (e a)) (fpIn dbl (e b)))
  | .fma dbl rd a b => .fp dbl rd (fpFma (fpW dbl) (fpIn dbl (e a)) (fpIn dbl (e b)) (fpIn dbl (e rd)))
  | .un f dbl rd a => .fp dbl rd (f.code (fpW dbl) (fpIn dbl (e a)))
  | .cvt true rd a => .wr rd (BitVec.ofNat 64 (to64 (fp32v (lo32 (e a))))) false
  | .cvt false rd a => .fp false rd (.of fp32F (fp64v (e a).toNat))
  | .wadd rd a b =>
    let r := w40F.round (.add (fp64v (e a).toNat) (fp32v (lo32 (e b))))
    { LaneRes.wr rd (BitVec.ofNat 64 (to64 (w40F.value r.code))) false with addend := some (lo32 (e b)), wSat := r.sat, wFlush := r.flush }

/-! ## Loaded programs (R222, R227) -/

/-- An instruction of a program as the check sees it. -/
inductive UInsn where
  | element (op : UOp)
  | ukset
  | uloop
  | uend
  | base (w : W32)
  | illegal
  deriving DecidableEq, Repr

def uDecode (w : W32) : UInsn :=
  let n := w.toNat
  let opc := n / 2 ^ 25 % 128; let rd := n / 2 ^ 20 % 32; let a := n / 2 ^ 15 % 32; let b := n / 2 ^ 10 % 32
  let dbl := n.testBit 9
  if opc ≤ 6 ∨ opc = 9 then .base w
  else if opc ≠ 0x13 then .illegal
  else match n % 512 with
    | 0x001 => .element (.uld rd a)
    | 0x002 => .element (.ust a b)
    | 0x004 => .ukset
    | 0x010 => .element (.bin .add dbl rd a b)
    | 0x011 => .element (.bin .sub dbl rd a b)
    | 0x012 => .element (.bin .mul dbl rd a b)
    | 0x013 => .element (.bin .div dbl rd a b)
    | 0x014 => .element (.fma dbl rd a b)
    | 0x015 => .element (.un .sqrt dbl rd a)
    | 0x016 => .element (.bin .max dbl rd a b)
    | 0x017 => .element (.bin .min dbl rd a b)
    | 0x018 => .element (.un .abs dbl rd a)
    | 0x019 => .element (.un .neg dbl rd a)
    | 0x01A => .element (.un .sgn dbl rd a)
    | 0x01B => .element (.cvt dbl rd a)
    | 0x020 => .element (.wadd rd a b)
    | 0x030 => .uloop
    | 0x031 => .uend
    | _ => .illegal

/-- The instructions of the element section: what stands between uloop and uend. -/
def sectionOf (p : List W32) : List UInsn := (((p.map uDecode).dropWhile (· ≠ .uloop)).drop 1).takeWhile (· ≠ .uend)

def sectionOps (p : List W32) : List UOp := (sectionOf p).filterMap fun i => match i with | .element op => some op | _ => none

/-- Base instructions of the element section: each runs once per lane group, on the unit's core (R227). -/
def sectionBase (p : List W32) : List W32 := (sectionOf p).filterMap fun i => match i with | .base w => some w | _ => none

/-- Whether a program uses the second moment (log 30). -/
def usesMom2 (p : List W32) : Bool := (sectionOps p).any fun op => match op with | .uld _ 3 => true | .ust 3 _ => true | _ => false

/-- The check of a loaded program: OK, UPD_PROG, or ILLEGAL_INSN (R223, R227). -/
def progCheck (p : List W32) : Nat :=
  let is := p.map uDecode
  let sec := sectionOf p
  let ops := sectionOps p
  let loads := fun n => ops.countP fun op => match op with | .uld _ st => decide (st = n) | _ => false
  let stores := fun n => ops.countP fun op => match op with | .ust st _ => decide (st = n) | _ => false
  let badStream := ops.any fun op => match op with | .uld _ st => decide (3 < st) | .ust st _ => decide (st = 0 ∨ 4 < st) | _ => false
  let pro := is.takeWhile (· ≠ .uloop)
  if is.contains .illegal then St.illegalInsn
  else if 256 < p.length ∨ 96 < sec.length ∨ badStream then St.updProg
  else if is.countP (· == .uloop) ≠ 1 ∨ is.countP (· == .uend) ≠ 1 ∨ is.getLast? ≠ some .uend then St.updProg
  else if (pro.any fun i => match i with | .element _ => true | _ => false) then St.updProg
  else if sec.any fun i => match i with | .base w => decide (w.toNat / 2 ^ 25 = 4 ∨ w.toNat / 2 ^ 25 = 5 ∨ w.toNat / 2 ^ 25 = 9) | .ukset => true | _ => false then St.updProg
  else if (List.range 4).any fun n => decide (1 < loads n) then St.updProg
  else if stores 1 ≠ 1 ∨ stores 2 ≠ 1 ∨ stores 4 ≠ 1 ∨ (usesMom2 p = true ∧ stores 3 ≠ 1) then St.updProg
  else St.ok

/-! ## One lane -/

/-- A lane in a pass: registers, stored streams, and its marks. -/
structure Lane where
  e : KMap W64
  out : KMap W64
  ev : LaneEv

/-- What a lane reads of a stream: the value, and whether it saturated on widening (R72). -/
abbrev LaneIn := Nat → W64 × Bool

/-- The marks after an operation. -/
def LaneEv.after (v : LaneEv) (op : UOp) (r : LaneRes) (inp : LaneIn) : LaneEv :=
  { d := r.addend.getD v.d, inSat := v.inSat || (match op with | .uld _ st => (inp st).2 | _ => false), sat := v.sat || r.sat, wSat := v.wSat || r.wSat, wFlush := v.wFlush || r.wFlush }

/-- One operation in a lane. Registers E16 to E31 hold constants, which the section does not write (R227). -/
def Lane.step (inp : LaneIn) (l : Lane) (op : UOp) : Lane :=
  let r := op.run (fun n => KMap.get 0 l.e n) fun st => (inp st).1
  { e := match r.reg with | some (rd, v) => if rd < 16 then KMap.set 0 l.e rd v else l.e | none => l.e
    out := match r.store with | some (st, v) => KMap.set 0 l.out st v | none => l.out
    ev := l.ev.after op r inp }

/-- A lane under a loaded program. -/
def laneLoaded (ops : List UOp) (inp : LaneIn) (e : KMap W64) : Lane := ops.foldl (Lane.step inp) ⟨e, [], .none⟩

/-- A lane under a shipped program (R233); k: the constants. -/
def laneShipped (prog : Nat) (k : Nat → Nat) (rd : LaneIn) (e : KMap W64) : Lane :=
  let inp := fun n => (rd n).1
  let v := fun n => V.of (lo32 (inp n))
  let kv := fun n => V.of (k n)
  let fma := fun (a b c : V) => (let r := fpFma fp32F a.code b.code c.code; ⟨r.code, a.sat || b.sat || c.sat || r.sat⟩ : V)
  let w := fp64v (inp 1).toNat
  let w32 := r32 w
  let g := V.mul (v 0) (kv 0)
  let neg := fun (x : V) => (⟨fpNeg fp32F x.code, x.sat⟩ : V)
  let sgn := fun (x : V) => (⟨(UUn.sgn.code fp32F x.code).code, x.sat⟩ : V)
  let (m, s, d) : V × V × V :=
    match prog with
    | 1 =>
      let m := fma (kv 1) (v 2) (V.mul (kv 2) g)
      let q := fma (kv 3) (V.mul (v 3) (v 3)) (V.mul (kv 4) (V.mul g g))
      let s := V.lift1 Fl.sqrt q
      let u := fma (kv 8) w32 (V.div (V.mul m (kv 5)) (fma s (kv 6) (kv 7)))
      (m, s, neg (V.mul (kv 9) u))
    | 2 =>
      let m := fma (kv 1) (v 2) g
      (m, .zero, neg (V.mul (kv 9) (fma (kv 8) w32 m)))
    | _ =>
      let m := fma (kv 1) (v 2) (V.mul (kv 2) g)
      (m, .zero, neg (V.mul (kv 9) (fma (kv 8) w32 (sgn m))))
  let r := w40F.round (.add w (fp32v d.code))
  let new := BitVec.ofNat 64 (to64 (w40F.value r.code))
  let fin := (v 0).code |> fp32v |>.isFin
  let out := [(1, if fin then new else inp 1), (2, if fin then BitVec.ofNat 64 m.code else inp 2), (3, if fin then BitVec.ofNat 64 s.code else inp 3), (4, if fin then new else inp 1)]
  ⟨e, out.foldl (fun o x => KMap.set 0 o x.1 x.2) [], ⟨d.code, (rd 0).2 || (rd 2).2 || (decide (prog = 1) && (rd 3).2), m.sat || s.sat || d.sat || w32.sat, r.sat, r.flush⟩⟩

end Sys2Proof.Machine
end

