-- ==== Sys2Proof/Machine/Update.lean ====
section
/-! DEFINITION. The update dispatcher and the update units (08): commands, chunks, journals, commits, and the commands of the
element datapath. -/

namespace Sys2Proof.Machine

/-! ## The command (R221, R222, R224) -/

namespace UpdCmd
def ctx (k : UpdCmd) : Nat := wf k.words 0 55 48
def progNo (k : UpdCmd) : Nat := wf k.words 0 47 40
def gzero (k : UpdCmd) : Bool := (wd k.words 0).getLsbD 39
def apply (k : UpdCmd) : Nat := wf k.words 0 38 37
def omode (k : UpdCmd) : Nat := wf k.words 0 36 35
def layer (k : UpdCmd) : Nat := wf k.words 0 15 0
def step (k : UpdCmd) : W64 := wd k.words 1
def rows (k : UpdCmd) : Nat := wf k.words 2 63 32
def vte (k : UpdCmd) : Nat := wf k.words 3 63 32
def basever (k : UpdCmd) : Nat := wf k.words 3 31 0
def newver (k : UpdCmd) : Nat := (k.basever + 1) % 2 ^ 32
def fmtM1 (k : UpdCmd) : Fmt := .ofWord (wf k.words 4 47 32)
def fmtM2 (k : UpdCmd) : Fmt := .ofWord (wf k.words 4 31 16)
def fmtG (k : UpdCmd) : Fmt := .ofWord (wf k.words 4 15 0)
def thresh (k : UpdCmd) : Nat := wf k.words 5 63 32
def lscale (k : UpdCmd) : Nat := wf k.words 5 31 0
def addr (k : UpdCmd) (w : Nat) : Nat := wf k.words w 47 0
def rmap (k : UpdCmd) : Nat := k.addr 13
def crec (k : UpdCmd) : Nat := k.addr 15
def groups (k : UpdCmd) : Nat := (k.cols + 1023) / 1024
def chunks (k : UpdCmd) : Nat := (k.rows + 7) / 8 * k.groups
/-- First row and column of a chunk, and its columns (R224). -/
def origin (k : UpdCmd) (c : Nat) : Nat × Nat := (8 * (c / k.groups), 1024 * (c % k.groups))
def width (k : UpdCmd) (c : Nat) : Nat := min 1024 (k.cols - 1024 * (c % k.groups))
/-- Constant Ki (R222). -/
def konst (k : UpdCmd) (i : Nat) : Nat := if i % 2 = 0 then wf k.pblk (i / 2) 31 0 else wf k.pblk (i / 2) 63 32
def paddr (k : UpdCmd) : Nat := wf k.pblk 8 47 0
def ltab (k : UpdCmd) : Nat := wf k.pblk 9 47 0
def plen (k : UpdCmd) : Nat := wf k.pblk 10 15 0
/-- Two moments: ADAMW, or a loaded program that uses MOM2. -/
def two (k : UpdCmd) : Bool := if k.progNo = 0 then usesMom2 k.prog else decide (k.progNo = 1)
end UpdCmd

/-- Row stride of a dense tensor (R61, R91). -/
def denseStride (f : Fmt) (cols : Nat) : Nat := if f.square then cols / f.blkW * f.blkBytes else cols * f.bits / 8

def w40Fmt : Fmt := ⟨true, 0, 0, false, 0, fmtW40⟩
def gradRef (k : UpdCmd) : TRef := ⟨k.fmtG, k.addr 6, 0, 0, denseStride k.fmtG k.cols⟩
def masterRef (k : UpdCmd) : TRef := ⟨w40Fmt, k.addr 7, k.addr 8, 0, 4 * k.cols⟩
def mom1Ref (k : UpdCmd) : TRef := ⟨k.fmtM1, k.addr 9, k.addr 10, 0, denseStride k.fmtM1 k.cols⟩
def mom2Ref (k : UpdCmd) : TRef := ⟨k.fmtM2, k.addr 11, k.addr 12, 0, denseStride k.fmtM2 k.cols⟩
/-- The working weight's planes of a slot (R258). -/
def State.workRef (s : State) (k : UpdCmd) (slot : Nat) : TRef :=
  let a := s.vsElem k.vte slot
  ⟨k.fmtW, a, a + Bits.get (s.vtWord k.vte 4) 31 0, a + Bits.get (s.vtWord k.vte 4) 63 32, denseStride k.fmtW k.cols⟩

/-- The part of a tensor that begins at an element on a block boundary. -/
def TRef.sub (t : TRef) (i j : Nat) : TRef :=
  let bit := t.bitAddr i j
  if t.fmt.fmt = fmtW40 then { t with elem := bit / 8, scale := t.scale + i * (t.stride / 4) + j }
  else { t with elem := bit / 8, scale := if t.fmt.scaled then t.scaleAddr i j else t.scale, side := if t.fmt.slots = 0 then t.side else t.runAddr bit }

/-! ## Units (R226, R236) -/

def State.homeOf (s : State) (k : UpdCmd) (c : Nat) : Nat :=
  let (i, j) := k.origin c
  match s.place (k.addr 7 + 4 * (i * k.cols + j)) with | some p => p.homeUnit | none => 0

/-- The unit that takes a home unit's chunks (R226). -/
def State.unitFor (s : State) (home : Nat) : Nat :=
  if s.uuUp home then home
  else match (List.range 36).find? fun u => s.uuUp u && decide (uuDie u = uuDie home) with
    | some u => u
    | none => ((List.range 36).find? s.uuUp).getD home

/-- The die across the BH or BV bridge (R21). -/
def acrossH (d : Nat) : Nat := match d with | 0 => 1 | 1 => 0 | 2 => 3 | _ => 2
def acrossV (d : Nat) : Nat := match d with | 0 => 2 | 2 => 0 | 1 => 3 | _ => 1

def sameOn (u d : Nat) : Nat := if u < 20 then 5 * d + u % 5 else 20 + 4 * d + (u - 20) % 4

/-- The partner of a unit, 0xFF if none is in service (R236). -/
def State.partnerOf (s : State) (u : Nat) : Nat :=
  let h := sameOn u (acrossH (uuDie u)); let v := sameOn u (acrossV (uuDie u))
  if s.uuUp h then h else if s.uuUp v then v else 0xFF

/-! ## Start (R222, R223, R240, R241, R259, R261, R266) -/

/-- A range of region space as a context reaches it: ADDR_UNMAPPED, PART_VIOLATION or OK (R223, R257). -/
def State.spanCheck : Nat → State → Nat → Nat → Nat → Nat
  | 0, _, _, _, _ => St.ok
  | fuel + 1, s, ctx, a, n =>
    if n = 0 then St.ok else
    match s.regionAt a with
    | none => St.addrUnmapped
    | some r =>
      let g := s.region r
      let m := min n (g.lbase + g.size - a)
      if ctx ≠ 0 && (decide (g.part ≠ s.partOf ctx) || s.vtableMeets a m) then St.partViolation
      else State.spanCheck fuel s ctx (a + m) (n - m)

def State.spans (s : State) (ctx : Nat) (l : List (Nat × Nat)) : Nat :=
  let sts := l.map fun x => if 0xF00000000000 < x.1 + x.2 then St.addrUnmapped else State.spanCheck 65 s ctx x.1 x.2
  if sts.contains St.partViolation then St.partViolation else if sts.contains St.addrUnmapped then St.addrUnmapped else St.ok

def scaleBytes (f : Fmt) (rows cols : Nat) : Nat := if f.scaled then rows * cols / f.blkElems else 0

/-- Planes, table and records that a command names. -/
def State.updSpans (s : State) (k : UpdCmd) : List (Nat × Nat) :=
  let n := k.rows * k.cols
  let mom := fun (f : Fmt) (a : Nat) => [(k.addr a, n * f.bits / 8), (k.addr (a + 1), scaleBytes f k.rows k.cols)]
  [(k.addr 6, n * k.fmtG.bits / 8), (k.addr 7, 4 * n), (k.addr 8, n)] ++ mom k.fmtM1 9 ++ (if k.two then mom k.fmtM2 11 else []) ++
  [(k.rmap, 64 * k.chunks), (k.crec, 64)] ++ (List.range (s.vtSlots k.vte)).map fun i => (s.vsElem k.vte i, Bits.get (s.vtWord k.vte 3) 47 0)

def momOk (f : Fmt) : Bool := decide (f.fmt = fmtF8 ∨ f.fmt = fmtF8W ∨ f.fmt = fmtBF16 ∨ f.fmt = fmtFP32)

/-- The refusals of R223 that the descriptor alone decides. -/
def UpdCmd.check (k : UpdCmd) : Nat :=
  let resv := (List.range 10).any fun i => decide (wf k.words (6 + i) 63 48 ≠ 0)
  let first := fun (l : List Fmt) => l.foldl (fun st f => if st = St.ok then f.check else st) St.ok
  let fmts := [k.fmtW, k.fmtM1] ++ (if k.progNo = 1 then [k.fmtM2] else []) ++ [k.fmtG]
  if wf k.words 0 63 56 ≠ 0x10 ∨ 3 < k.progNo ∨ wf k.words 0 34 16 ≠ 0 ∨ k.apply = 3 ∨ k.step = 0 ∨ k.omode = 3 ∨ resv = true then St.protocolErr
  else if k.addr 14 % 256 ≠ 0 ∨ k.crec % 64 ≠ 0 then St.protocolErr
  else if k.rows % 8 ≠ 0 ∨ k.rows = 0 ∨ k.cols % 128 ≠ 0 ∨ k.cols = 0 ∨ 65536 < k.cols then St.updShape
  else if first fmts ≠ St.ok then first fmts
  else if fmtF8W < k.fmtW.fmt ∨ k.fmtW.role = false ∨ momOk k.fmtM1 = false ∨ (k.progNo = 1 ∧ momOk k.fmtM2 = false) ∨ ¬ (k.fmtG.fmt = fmtBF16 ∨ k.fmtG.fmt = fmtFP32) then St.fmtUnsupported
  else St.ok

/-- The commit record of a command's CREC: valid, of its RMAP, with its STEP (R238, R239). -/
def State.commitRec (s : State) (k : UpdCmd) : Option Nat :=
  let ws := s.loadWords k.crec 8
  if (wd ws 0).getLsbD 63 && decide (wd ws 7 = crcWords (ws.take 7) ∧ wd ws 3 = BitVec.ofNat 64 k.rmap) then some (wd ws 2).toNat else none

/-- A command ends: its prologue stops, its journals are written back, each once its mirror is acknowledged, and its outcome waits for its
record (R382). -/
def State.endUpd (s : State) (k : UpdCmd) (st : Nat) (result : W64) : State :=
  let mine := s.journals.filter fun j => decide (j.sq = k.sq ∧ j.seq = k.seq)
  let s0 := (List.range 36).foldl (fun s u => if (s.unitCmd u).any fun x => decide (x.sq = k.sq ∧ x.seq = k.seq) then s.unwait (340 + u) else s) s
  let s1 := mine.foldl (fun s j => s.writeBack j) s0
  let s2 := s1.withUpd (s1.upd.filter fun x => decide (¬ (x.sq = k.sq ∧ x.seq = k.seq)))
  let p := Pg.upd s.hub
  let s3 := if st = St.stepStale then s2.setErr p F.updErrStatStepStale k.ctx else if st = St.versionBase then s2.setErr p F.updErrStatVersionBase k.ctx else s2
  (s3.finCmd k.sq k.seq st result).pumpAll

def State.putUpd (s : State) (k : UpdCmd) : State :=
  s.withUpd (s.upd.map fun x => if x.sq = k.sq && x.seq = k.seq then k else x)

/-- What the dispatcher reads when a command starts (R222). -/
def State.readUpd (s : State) (k : UpdCmd) : UpdCmd :=
  let k1 := { k with pblk := s.loadWords (k.addr 14) 32 }
  { k1 with
    prog := if k1.progNo = 0 then (List.range (min 257 k1.plen)).map fun i => BitVec.ofNat 32 (s.loadNat (k1.paddr + 4 * i) 4) else []
    table := if k1.apply = 2 then (List.range k1.cols).map fun i => BitVec.ofNat 32 (s.loadNat (k1.ltab + 4 * i) 4) else [] }

/-- Whether a chunk record of the tensor stands at an earlier step that was not committed (R240): valid, not zero, below the command's step and
above the last one that CREC or LSTEP shows. -/
def State.stepOpen (s : State) (k : UpdCmd) : Bool :=
  let done := max ((s.commitRec k).getD 0) (s.vtWord k.vte 5).toNat
  (List.range k.chunks).any fun c =>
    let rc := s.loadWords (k.rmap + 64 * c) 8
    decide (wd rc 7 = crcWords (rc.take 7) ∧ done < (wd rc 0).toNat ∧ (wd rc 0).toNat < k.step.toNat)

/-- The status a command ends with when it starts, or none when it runs; k has been read. -/
def State.updCheck (s : State) (k : UpdCmd) : Option Nat :=
  let cur := match s.currentVs k.vte with | some i => s.vsVersion k.vte i | none => 0
  let w0 := s.vtWord k.vte 0; let w1 := s.vtWord k.vte 1
  let pre := s.spans k.ctx ([(k.addr 14, 256)] ++ (if k.progNo = 0 then [(k.paddr, 4 * k.plen)] else []) ++ (if k.apply = 2 then [(k.ltab, 4 * k.cols)] else []))
  let pz := s.loadPoison (k.addr 14) 256 || (k.progNo = 0 && s.loadPoison k.paddr (4 * min 257 k.plen)) || (decide (k.apply = 2) && s.loadPoison k.ltab (4 * k.cols))
  if k.check ≠ St.ok then some k.check
  else if s.stepTainted k.ctx k.step then some St.tainted
  else if pre ≠ St.ok then some pre
  else if pz then some St.poisoned
  else if (List.range 22).any fun i => decide ((if i = 0 then wf k.pblk 10 63 16 else wf k.pblk (10 + i) 63 0) ≠ 0) then some St.protocolErr
  else if k.progNo = 0 ∧ progCheck k.prog ≠ St.ok then some (progCheck k.prog)
  else if k.progNo = 0 ∧ k.two = true ∧ (k.fmtM2.check ≠ St.ok ∨ momOk k.fmtM2 = false) then some (if k.fmtM2.check ≠ St.ok then k.fmtM2.check else St.fmtUnsupported)
  else if !s.vtValid k.vte ∨ s.vtCtx k.vte ≠ k.ctx then some St.protocolErr
  else if Bits.get w0 15 0 ≠ wf k.words 4 63 48 ∨ Bits.get w1 63 32 ≠ k.rows ∨ Bits.get w1 31 0 ≠ k.cols then some St.verMismatch
  else if s.spans k.ctx (s.updSpans k) ≠ St.ok then some (s.spans k.ctx (s.updSpans k))
  else if cur = k.newver ∧ s.commitRec k = some k.step.toNat then some St.ok
  else if cur ≠ k.basever then some St.versionBase
  else match s.commitRec k with
    | some t => if k.step.toNat < t then some St.stepStale else if s.stepOpen k then some St.versionBase else none
    | none => if s.stepOpen k then some St.versionBase else none

/-- The slot a start takes: the one PENDING at BASEVER + 1, else the lowest FREE one (R259). -/
def State.startSlot (s : State) (k : UpdCmd) : Option Nat :=
  match s.findVs k.vte fun i => decide (s.vsState k.vte i = Vs.pending ∧ s.vsVersion k.vte i = k.newver) with
  | some i => some i
  | none => s.findVs k.vte fun i => decide (s.vsState k.vte i = Vs.free)

/-- Whether an earlier command holds a command back (R241). -/
def State.updBlocked (s : State) (k : UpdCmd) : Bool :=
  (s.upd.takeWhile fun x => decide (¬ (x.sq = k.sq ∧ x.seq = k.seq))).any fun x => decide (x.rmap = k.rmap ∨ x.vte = k.vte)

/-- Starts a command, or ends it; none while it waits for a version slot. -/
def State.startUpd (s : State) (k : UpdCmd) : Option State :=
  let s0 := s.vtNote
  let k1 := s0.readUpd k
  match s0.updCheck k1 with
  | some st =>
    let s1 := s0.endUpd k1 st (if st = St.ok then BitVec.ofNat 64 k1.newver else 0)
    let s2 := if st = St.illegalInsn then s1.setErr (Pg.uu (s1.unitFor (s1.homeOf k1 0))) F.uuErrStatIllegalInsn k1.ctx else s1
    some (if st = St.poisoned then s2.consume s2.hub k1.ctx 0 (BitVec.ofNat 64 (k1.addr 14)) else s2)
  | none => match s0.startSlot k1 with
    | none => none
    | some i =>
      let s1 := if s0.vsState k1.vte i = Vs.free then s0.setVs k1.vte i Vs.pending 0 k1.newver else s0
      let todo := (List.range k1.chunks).map fun c => (c, s1.unitFor (s1.homeOf k1 c))
      some (s1.putUpd { k1 with running := true, slot := i, todo := todo })

def execUpdateStart (s0 : State) : Host.Outcome State Fault Refusal :=
  let s := s0.replayCommit
  if 16 ≤ s.upd.countP (·.running) then .next s else
  match (s.upd.filter fun k => !k.running && !s.updBlocked k).findSome? fun k => s.startUpd k with
  | some s1 => .next s1
  | none => .next s

/-! ## A chunk (R229, R230, R235) -/

/-- Streams as the lanes load them, with the mark of a widening that saturated: GRAD, MOM1, MOM2 as FP32, MASTER as FP64 (R72, R228, R229). -/
def State.laneIn (s : State) (k : UpdCmd) (i j : Nat) : LaneIn :=
  let wide := fun (t : TRef) => (let v := widenV t s.byteAt i j; (reg32 v.code, v.sat))
  fun st => match st with
  | 0 => wide (gradRef k)
  | 1 => (BitVec.ofNat 64 (to64 ((masterRef k).read s.byteAt i j).val), false)
  | 2 => wide (mom1Ref k)
  | 3 => if k.two then wide (mom2Ref k) else (0, false)
  | _ => (0, false)

/-- E16 to E31 on a unit: K0 to K15, or what ukset put there (R227). -/
def UpdCmd.constsOn (k : UpdCmd) (u : Nat) : KMap W64 :=
  (List.range 16).foldl (fun m i => KMap.set 0 m (16 + i) (reg32 (match KMap.find k.consts (16 * u + i) with | some v => v.toNat | none => k.konst i))) []

/-- The registers of a lane: E0 to E15 as the pass before left them, then the constants. -/
def State.laneRegs (s : State) (k : UpdCmd) (u lane : Nat) : KMap W64 :=
  (List.range 16).foldl (fun m r => KMap.set 0 m r (KMap.get 0 (s.uu u).e (32 * r + lane))) (k.constsOn u)

/-- An element of a chunk after its pass: its place, its GRAD as FP32, the streams stored, and its marks. -/
structure UpdEl where
  i : Nat
  j : Nat
  grad : Nat
  out : KMap W64
  ev : LaneEv

/-- The places of a chunk in chunk order (R224). -/
def UpdCmd.placesOf (k : UpdCmd) (c : Nat) : List (Nat × Nat) :=
  let (i0, j0) := k.origin c
  (List.range 8).flatMap fun i => (List.range (k.width c)).map fun j => (i0 + i, j0 + j)

def State.updEl (s : State) (k : UpdCmd) (p : Nat × Nat) (out : KMap W64) (ev : LaneEv) : UpdEl := ⟨p.1, p.2, lo32 (s.laneIn k p.1 p.2 0).1, out, ev⟩

/-- The element section over a chunk, lane group by lane group (R227): the elements, and the lanes' last registers. -/
def State.runSection (s : State) (k : UpdCmd) (u c : Nat) : List UpdEl × KMap (KMap W64) :=
  let ops := sectionOps k.prog
  let init := if k.progNo = 0 then (List.range 32).foldl (fun m l => KMap.set [] m l (s.laneRegs k u l)) [] else []
  let r := (k.placesOf c).zipIdx.foldl (fun (acc : List UpdEl × KMap (KMap W64)) p =>
    let inp := s.laneIn k p.1.1 p.1.2
    let e := KMap.get [] acc.2 (p.2 % 32)
    let l := if k.progNo = 0 then laneLoaded ops inp e else laneShipped k.progNo k.konst inp e
    (s.updEl k p.1 l.out l.ev :: acc.1, if k.progNo = 0 then KMap.set [] acc.2 (p.2 % 32) l.e else acc.2)) ([], init)
  (r.1.reverse, r.2)

/-- A base instruction of the element section on the unit's core, once per lane group (R227): an ALU or floating-point result, a load, or a
store, of the registers that its format names; the manual gives the base opcodes no function codes (log 127). -/
def State.baseInsn (s : State) (u ctx : Nat) (w : W32) : State :=
  let c := 340 + u
  let opc := w.toNat / 2 ^ 25; let rd := w.toNat / 2 ^ 20 % 32; let a := w.toNat / 2 ^ 15 % 32; let b := w.toNat / 2 ^ 10 % 32
  let at_ := s.g c a + (w.setWidth 15).signExtend 64
  let l := at_.toNat % 2 ^ 48; let n := 2 ^ (Config.baseWidth w % 4)
  let here := decide (at_.toNat / 2 ^ 48 = s.dev)
  let part := s.partOf ctx
  match opc with
  | 2 =>
    if Config.baseScratch w then s.setG c rd (BitVec.ofNat 64 (s.scratchNat c at_.toNat n))
    else if here && decide (s.memCheck ctx l n = St.ok) then (s.charge (uuDie u) part l n false).setG c rd (BitVec.ofNat 64 (s.loadNat l n)) else s
  | 3 =>
    if Config.baseScratch w then s.setScratchBytes c at_.toNat (natBytes n (s.g c rd).toNat)
    else if here && decide (s.memCheckW ctx l n = St.ok) then (s.charge (uuDie u) part l n true).storeNat l n (s.g c rd).toNat else s
  | _ => s.setG c rd (Config.baseResult w (s.g c a) (s.g c b))

/-- The base instructions of one lane group. -/
def State.baseGroup (s : State) (k : UpdCmd) (u : Nat) : State := if k.progNo = 0 then (sectionBase k.prog).foldl (fun s w => s.baseInsn u k.ctx w) s else s

def UpdEl.fin (x : UpdEl) : Bool := (fp32v x.grad).isFin
def UpdEl.stored (x : UpdEl) (st : Nat) : W64 := KMap.get 0 x.out st

/-- A sum s := round_fp64(s + x × x) (R183). -/
def sumSq (s : Nat) (x : Fl) : Nat := (fp64F.round (.add (.mul x x) (fp64v s))).code

/-- Words 1 to 4 of the chunk record (R183, R230, R234). -/
def chunkSums (els : List UpdEl) : List W64 :=
  let w := els.foldl (fun s x => sumSq s (fp64v (x.stored 1).toNat)) 0
  let g := els.foldl (fun s x => if x.fin then sumSq s (fp32v x.grad) else s) 0
  let d := els.foldl (fun s x => if x.fin then sumSq s (fp32v x.ev.d) else s) 0
  [Bits.make [(63, 32, els.countP fun x => !x.fin), (31, 0, els.length)], BitVec.ofNat 64 w, BitVec.ofNat 64 g, BitVec.ofNat 64 d]

/-- v′ of a value written to WORK: the learned scale of the command (R221, R229). -/
def UpdCmd.scaled (k : UpdCmd) (v : Fl) (j : Nat) : Fl × Bool :=
  let by_ := fun c => let r := fp32F.round (.mul v (fp32v c)); (fp32v r.code, r.sat)
  match k.apply with
  | 1 => by_ k.lscale
  | 2 => by_ (k.table.getD j 0).toNat
  | _ => (v, false)

/-- A write of WORK values at places of the tensor t (steps 2, 4 and 5 of R166): bit fields and events. Whether the learned scale
saturates an element is what `scaled` answers of it. -/
def UpdCmd.workOut (k : UpdCmd) (t : TRef) (rows cols j0 : Nat) (val : Nat → Nat → Fl) : WOut :=
  let v := fun i j => k.scaled (val i j) (j0 + j)
  let ps := (List.range rows).flatMap fun i => (List.range cols).map fun j => (i, j)
  let marks := markGroups k.omode k.thresh (ps.map fun p => (p, t.bitAddr p.1 p.2 / (32 * t.fmt.bits), (v p.1 p.2).1))
  t.write rows cols (fun i j => (v i j).1) (fun i j => marks.contains (i, j)) fun _ _ => true

/-- Addresses that a chunk reads. -/
def State.chunkReads (s : State) (k : UpdCmd) (c : Nat) (full : Bool) : List Nat :=
  let (i0, j0) := k.origin c
  let refs := [masterRef k] ++ (if full then [gradRef k, mom1Ref k] ++ (if k.two then [mom2Ref k] else []) else [])
  (List.range 8).flatMap fun i => (List.range (k.width c)).flatMap fun j => refs.flatMap fun t => t.readAddrs s.byteAt (i0 + i) (j0 + j)

/-- Tollgate charges of what a chunk reads: its planes with their scales and runs (R245). -/
def State.chargeReads (s : State) (k : UpdCmd) (u c : Nat) (full : Bool) : State := s.chargeRuns u k.ctx ((s.chunkReads k c full).mergeSort fun a b => a ≤ b) false

/-- Events of a chunk, on the die of the unit (R229). -/
def State.countUpd (s : State) (u : Nat) (k : UpdCmd) (l : List (Nat × Events)) : State := l.foldl (fun s x => s.countEvents (uuDie u) k.ctx x.1 x.2) s

/-- The next command of a unit, in turn after the one it served last, in acceptance order (R241), and its lowest chunk there. -/
def State.nextChunk (s : State) (u : Nat) : Option (UpdCmd × Nat) :=
  let mine := s.upd.filter fun k => k.running && s.mayRun (5, u) k.ctx && (decide (k.progNo ≠ 0) || k.ready.contains u) && k.todo.any fun t => decide (t.2 = u)
  let rest := match (s.uu u).last with
    | some n => mine.filter fun k => decide (n < k.num)
    | none => []
  (rest ++ mine).head?.bind fun k => (k.todo.find? fun t => decide (t.2 = u)).map fun t => (k, t.1)

def UpdCmd.without (k : UpdCmd) (c : Nat) : UpdCmd := { k with todo := k.todo.filter fun t => decide (t.1 ≠ c) }
def UpdCmd.finished (k : UpdCmd) (c u : Nat) (sums : List W64) (poison : Bool) : UpdCmd :=
  { k.without c with done := k.done ++ [(c, u, sums)], poisoned := k.poisoned || poison }

/-- A chunk found applied (R235): WORK is written again from the master, and its record's sums stand. A poisoned master sets the record's
POISON bit (R244). -/
def State.redoWork (s : State) (k : UpdCmd) (u c : Nat) (rec : List W64) : State :=
  let (i0, j0) := k.origin c
  let s0 := s.addFld (Pg.uu u) F.uuPerfSkipped 1
  let sums := [wd rec 1, wd rec 2, wd rec 3, wd rec 4]
  let was := (wd rec 5).getLsbD 0
  if k.segMode then s0.putUpd (k.finished c u sums was)
  else
    let bad := (s.chunkReads k c false).any s.poisonedAt
    let val := fun i j => ((masterRef k).read s.byteAt (i0 + i) (j0 + j)).val
    let w := k.workOut ((s.workRef k k.slot).sub i0 j0) 8 (k.width c) j0 val
    let sats := ((k.placesOf c).countP fun p => (k.scaled (val (p.1 - i0) (p.2 - j0)) p.2).2)
    let bytes := s0.overlay w.fields
    let s1 := ((s0.chargeReads k u c false).chargeRuns u k.ctx (bytes.map (·.1)) true).storeBytes bytes bad
    let s2 := s1.countUpd u k [(k.fmtW.fmt, w.ev), (fmtFP32, { Events.none with sat := sats })]
    let s3 := if bad then (s2.setErr (Pg.uu u) F.uuErrStatPoisoned k.ctx).putRecord u k.ctx k.rmap c k.step sums true else s2
    s3.putUpd (k.finished c u sums (was || bad))

/-- The planes of a chunk after the element section: bit fields and events by format. An FP32 saturation counts once for an element, wherever
in its pass it was (R74); a lane that R230 leaves unchanged has only those of its loads and of the learned scale. -/
def State.chunkOut (s : State) (k : UpdCmd) (c : Nat) (els : List UpdEl) : List (Nat × Nat × Nat) × List (Nat × Events) :=
  let (i0, j0) := k.origin c
  let w := k.width c
  let at_ := fun i j => els[i * w + j]?
  let get := fun (dbl : Bool) (st i j : Nat) => match at_ i j with
    | some x => if dbl then fp64v (x.stored st).toNat else fp32v (lo32 (x.stored st))
    | none => Fl.zero
  let no := fun (_ _ : Nat) => false
  let yes := fun (_ _ : Nat) => true
  let m := ((masterRef k).sub i0 j0).write 8 w (get true 1) no yes
  let a := ((mom1Ref k).sub i0 j0).write 8 w (get false 2) no yes
  let b := if k.two then ((mom2Ref k).sub i0 j0).write 8 w (get false 3) no yes else ⟨[], .none⟩
  let z := if k.gzero then ((gradRef k).sub i0 j0).write 8 w (fun _ _ => .zero) no yes else ⟨[], .none⟩
  let o := if k.segMode then ⟨[], .none⟩ else k.workOut ((s.workRef k k.slot).sub i0 j0) 8 w j0 (get true 4)
  let fin := els.filter UpdEl.fin
  let sat := fun (x : UpdEl) => x.ev.inSat || (x.fin && x.ev.sat) || (!k.segMode && (k.scaled (fp64v (x.stored 4).toNat) x.j).2)
  (m.fields ++ a.fields ++ b.fields ++ z.fields ++ o.fields,
   [(fmtW40, m.ev.add { Events.none with sat := fin.countP fun x => x.ev.wSat, flush := fin.countP fun x => x.ev.wFlush }), (k.fmtM1.fmt, a.ev), (k.fmtM2.fmt, b.ev),
    (k.fmtW.fmt, o.ev), (fmtFP32, { Events.none with sat := els.countP sat })])

/-- Writes a journal back with its record, and the chunk is done (R235, R236). -/
def State.settleChunk (s : State) (j : Journal) : State :=
  let s1 := s.writeBack j
  match s1.upd.find? fun k => decide (k.sq = j.sq ∧ k.seq = j.seq) with
  | some k => s1.putUpd (k.finished j.chunk j.unit j.sums j.poison)
  | none => s1

/-- The elements of a chunk are complete: the journal is written and mirrored; with no partner it is written back at once (R236). Whether the
mirror is whole before the partner acknowledges it is an open bit (log 128). bad: the chunk consumed poison. -/
def State.finishChunk (s : State) (k : UpdCmd) (u c : Nat) (els : List UpdEl) (bad : Bool) : State :=
  let (fields, evs) := s.chunkOut k c els
  let partner := s.partnerOf u
  let (whole, s0) := s.draw
  let j : Journal := { rmap := k.rmap, chunk := c, step := k.step, sq := k.sq, seq := k.seq, ctx := k.ctx, unit := u, partner := partner, writes := s.overlay fields, poison := bad, sums := chunkSums els,
                       complete := decide (partner = 0xFF) || whole.getLsbD 0 }
  let s1 := ((s0.chargeReads k u c true).countUpd u k evs).addFld (Pg.uu u) F.uuPerfChunks 1
  let s2 := if bad then s1.setErr (Pg.uu u) F.uuErrStatPoisoned k.ctx else s1
  let s3 := (s2.withJournals (s2.journals ++ [j])).putUpd (k.without c)
  if partner = 0xFF then s3.settleChunk j else s3

/-- Whether a chunk consumes poison of its planes. -/
def State.chunkBad (s : State) (k : UpdCmd) (c : Nat) : Bool := (s.chunkReads k c true).any s.poisonedAt

/-- The element section runs over a whole chunk. -/
def State.computeChunk (s : State) (k : UpdCmd) (u c : Nat) (recBad : Bool) : State :=
  let (els, regs) := s.runSection k u c
  let e := if k.progNo = 0 then regs.foldl (fun m l => l.2.foldl (fun m r => KMap.set 0 m (32 * r.1 + l.1) r.2) m) (s.uu u).e else (s.uu u).e
  let s1 := (List.range (els.length / 32)).foldl (fun s _ => s.baseGroup k u) (s.finishChunk k u c els (recBad || s.chunkBad k c))
  s1.setUu u { s1.uu u with e := e }

def uuKey (u : Nat) : Nat := unitKey (Pg.uu u) 0

/-- The command of a journal. -/
def State.cmdOf (s : State) (j : Journal) : Option UpdCmd := s.upd.find? fun k => decide (k.sq = j.sq ∧ k.seq = j.seq)

/-- A journal is lost with both of its copies, or never was whole: its chunk runs again on a unit. -/
def State.dropJournal (s : State) (u : Nat) (j : Journal) : State :=
  let s1 := s.withJournals (s.journals.filter fun x => decide (x ≠ j))
  match s1.cmdOf j with
  | some k => s1.putUpd { k with todo := (k.todo.takeWhile fun t => decide (t.1 < j.chunk)) ++ [(j.chunk, u)] ++ k.todo.dropWhile fun t => decide (t.1 < j.chunk) }
  | none => s1

/-- A journal of a unit that leaves service: the unit that takes its chunks completes it from the copy of a partner in service, if it is
whole there, and else runs the chunk again (R226, R236, R244). -/
def State.handOver (s : State) (u : Nat) (j : Journal) : State :=
  if j.complete && s.uuUp j.partner then
    let v := match s.cmdOf j with | some k => s.unitFor (s.homeOf k j.chunk) | none => s.unitFor u
    (s.setErr (Pg.uu v) F.uuErrStatReplay j.ctx).settleChunk j
  else s.dropJournal u j

/-- A journal whose mirror is lost with its partner is mirrored to the next one, or is written back where none is in service (R236). -/
def State.remirror (s : State) (j : Journal) : State :=
  let p := s.partnerOf j.unit
  if p = 0xFF then s.settleChunk j
  else s.withJournals (s.journals.map fun x => if x = j then { x with partner := p, complete := false } else x)

/-- A unit leaves service: its chunks and segments move (R225, R226, R244), and barriers of its slot break (R292). -/
def State.moveUnit (s : State) (u : Nat) : State :=
  let s0 := (s.journals.filter fun j => decide (j.unit = u)).foldl (fun s j => s.handOver u j) s
  let s1 := (s0.journals.filter fun j => decide (j.partner = u)).foldl (fun s j => s.remirror j) s0
  let dest := fun (k : UpdCmd) c => s1.unitFor (s1.homeOf k c)
  let move := fun (k : UpdCmd) => ({ k with
    todo := k.todo.map fun (t : Nat × Nat) => if t.2 = u then (t.1, dest k t.1) else t
    done := k.done.map fun (t : Nat × Nat × List W64) => if t.2.1 = u then (t.1, dest k t.1, t.2.2) else t
    passed := k.passed.filter fun x => decide (x ≠ u) && !(k.done.any fun t => decide (t.2.1 = u ∧ dest k t.1 = x)) } : UpdCmd)
  ((s1.withUpd (s1.upd.map fun (k : UpdCmd) => if k.running then move k else k)).unwait (340 + u)).agentFenced (340 + u)

def State.fenceUu (s : State) (u cause : Nat) : State :=
  if outOfSvc (s.fld (Pg.uu u) F.uuStatState) then s
  else (s.fenceEngine (uuDie u) (Pg.uu u) F.uuStatState (uuKey u) cause).moveUnit u

def State.strikeUu (s : State) (u ctx : Nat) : State :=
  let (s1, third) := s.strikeRec (uuDie u) (uuKey u) ctx 0
  if third then s1.fenceUu u 1 else s1

/-- A parity error on the element datapath: the chunk is abandoned, the command ends CHECK_FAIL (R246, R397). -/
def State.parityChunk (s : State) (k : UpdCmd) (u : Nat) : State :=
  let s1 := ((s.setErr (Pg.uu u) F.uuErrStatParity k.ctx).endUpd k St.checkFail 0).event (uuDie u) Ev.parity k.ctx (unitOf (Pg.uu u)) 0 0
  s1.strikeUu u k.ctx

/-- A complete journal of a chunk that a unit or its partner holds (R235). -/
def State.heldJournal (s : State) (k : UpdCmd) (u c : Nat) : Option Journal :=
  s.journals.find? fun j => decide (j.rmap = k.rmap ∧ j.chunk = c ∧ j.step = k.step) && j.complete && [j.unit, j.partner].any fun x => decide (x = u ∨ x = s.partnerOf u)

/-- One chunk on a unit, as R235 orders it. A poisoned record is consumed: its step tells nothing, and the chunk runs with its outputs poisoned
(R244; DESIGN CHOICE, log 128). -/
def State.runChunk (s : State) (k : UpdCmd) (u c : Nat) (parity : Bool) : State :=
  let a := k.rmap + 64 * c
  let rc := s.loadWords a 8
  let never := rc.all (· == 0)
  let s0 := (s.setUu u { s.uu u with last := some k.num }).charge (uuDie u) (s.partOf k.ctx) a 64 false
  if s.loadPoison a 64 then (if parity then s0.parityChunk k u else s0.computeChunk k u c true)
  else if !never && decide (wd rc 7 ≠ crcWords (rc.take 7)) then s0.endUpd k St.protocolErr 0
  else if k.step.toNat < (wd rc 0).toNat then s0.endUpd k St.stepStale 0
  else if wd rc 0 = k.step then s0.redoWork k u c rc
  else match s0.heldJournal k u c with
    | some j => (s0.setErr (Pg.uu u) F.uuErrStatReplay k.ctx).settleChunk j
    | none => if parity then s0.parityChunk k u else s0.computeChunk k u c false

/-- A unit has two journal slots of its own, and two for the mirrors of its partner (R236). -/
def State.journalRoom (s : State) (u : Nat) : Bool :=
  decide (s.journals.countP (fun j => decide (j.unit = u)) < 2) &&
  (decide (s.partnerOf u = 0xFF) || decide (s.journals.countP (fun j => decide (j.partner = s.partnerOf u)) < 2))

/-- Whether a chunk waits behind a request that a tollgate holds: its record and what it reads (R206, R245; log 19). -/
def State.chunkShut (s : State) (k : UpdCmd) (u c : Nat) : Bool :=
  s.gateShut (uuDie u) (s.partOf k.ctx) (k.rmap + 64 * c) 64 false || s.gateShuts (uuDie u) (s.partOf k.ctx) (s.chunkReads k c true) false

def execUuChunkRun (u : Met (Fin 36)) (parity : Bool) (s0 : State) : Host.Outcome State Fault Refusal :=
  let s := s0.meet u.hits
  if !s.uuUp u.arg || s.inReset [(5, u.arg)] || !s.journalRoom u.arg then .next s0 else
  match s.nextChunk u.arg with
  | some (k, c) => .next (if s.chunkShut k u.arg c then s0 else s.runChunk k u.arg c parity)
  | none => .next s0

/-- The partner acknowledges the oldest mirror of a unit (R236). -/
def execJournalMirrorAck (u : Fin 36) (s : State) : Host.Outcome State Fault Refusal :=
  match s.journals.find? fun j => decide (j.unit = u.val) with
  | some j => .next (s.settleChunk j)
  | none => .next s

/-! ## Segment passes (R225) -/

/-- The chunk of an element. -/
def UpdCmd.chunkAt (k : UpdCmd) (i j : Nat) : Nat := i / 8 * k.groups + j / 1024

/-- Every chunk carries a record of the step without poison. -/
def State.chunksIn (s : State) (k : UpdCmd) : Bool :=
  k.running && k.todo.isEmpty && !s.journals.any fun j => decide (j.sq = k.sq ∧ j.seq = k.seq)

/-- The segments of a working weight whose first element lies in a chunk that a unit ran. -/
def State.segmentPass (s : State) (k : UpdCmd) (u : Nat) : State :=
  let t := s.workRef k k.slot
  let rd := s.byteAt
  let val := fun i j => k.scaled ((masterRef k).read rd i j).val j
  let ps := (List.range k.rows).flatMap fun i => (List.range k.cols).map fun j => (i, j)
  let marks := markGroups k.omode k.thresh (ps.map fun p => (p, t.bitAddr p.1 p.2 / (32 * t.fmt.bits), (val p.1 p.2).1))
  let els := (t.elements k.rows k.cols (fun i j => (val i j).1) fun i j => marks.contains (i, j)).zip (t.places k.rows k.cols)
  let seg := fun (x : WElt) => x.bit / (8 * t.fmt.segBytes)
  let firsts := els.foldl (fun (m : List (Nat × Nat × Nat)) x => if m.any fun y => decide (y.1 = seg x.1) then m else m ++ [(seg x.1, x.2)]) []
  let mine := (firsts.filter fun f => k.done.any fun t => decide (t.1 = k.chunkAt f.2.1 f.2.2 ∧ t.2.1 = u)).map (·.1)
  let mineEls := els.filter fun x => mine.contains (seg x.1)
  let w := writeNarrow t.fmt (mineEls.map (·.1))
  let badEl := fun (x : WElt × Nat × Nat) => ((masterRef k).readAddrs rd x.2.1 x.2.2).any s.poisonedAt
  let bad := mineEls.any badEl
  let badChunks := ((mineEls.filter badEl).map fun x => k.chunkAt x.2.1 x.2.2).eraseDups
  let sats := mineEls.countP fun x => (val x.2.1 x.2.2).2
  let bytes := s.overlay w.fields
  let reads := (mineEls.flatMap fun x => (masterRef k).readAddrs rd x.2.1 x.2.2).mergeSort fun a b => a ≤ b
  let s1 := ((s.chargeRuns u k.ctx reads false).chargeRuns u k.ctx (bytes.map (·.1)) true).storeBytes bytes bad
  let s2 := s1.countUpd u k [(k.fmtW.fmt, w.ev), (fmtFP32, { Events.none with sat := sats })]
  let s3 := if bad then s2.setErr (Pg.uu u) F.uuErrStatPoisoned k.ctx else s2
  let s4 := (k.done.filter fun t => badChunks.contains t.1).foldl (fun s t => s.putRecord u k.ctx k.rmap t.1 k.step t.2.2 true) s3
  s4.putUpd { k with passed := k.passed ++ [u], poisoned := k.poisoned || bad }

def execUuSegmentPass (u : Met (Fin 36)) (s0 : State) : Host.Outcome State Fault Refusal :=
  let s := s0.meet u.hits
  if !s.uuUp u.arg then .next s0 else
  match s.upd.find? fun k => k.segMode && s.chunksIn k && !k.poisoned && k.owed.contains u.arg.val with
  | some k => .next (s.segmentPass k u.arg)
  | none => .next s0

/-! ## Commit (R182 to R185, R238, R239, R259, R266) -/

/-- Whether a unit accumulates norms of the command's layer: by the norm table that its die's page gives (R185). -/
def State.normOn (s : State) (k : UpdCmd) (u : Nat) : Bool :=
  let p := bank k.ctx (Pg.ctr (uuDie u))
  s.bitF p F.ctrNormValid && decide (k.layer < s.fld p F.ctrNormLayers)

/-- The norm slot of a layer and home unit after the sums of the home's chunks, in ascending order, whose units accumulate (R182 to R185):
its address and words. -/
def State.normSlot (s : State) (k : UpdCmd) (home : Nat) : Nat × List W64 :=
  let mine := (k.done.filter fun t => decide (s.homeOf k t.1 = home) && s.normOn k t.2.1).mergeSort fun x y => x.1 ≤ y.1
  let p := bank k.ctx (Pg.ctr (uuDie ((mine.head?.map fun t => t.2.1).getD home)))
  let a := s.fld p F.ctrNormBase * 4096 + (36 * k.layer + home) * 64
  let old := s.loadWords a 8
  let base := if wd old 0 = k.step then old else [k.step, 0, 0, 0, 0, 0, 0, 0]
  let addW := fun (a b : W64) => BitVec.ofNat 64 (fpAdd fp64F a.toNat b.toNat).code
  (a, mine.foldl (fun ws t => let r := t.2.2
    [wd ws 0, wd ws 1 + BitVec.ofNat 64 (wf r 0 31 0), addW (wd ws 2) (wd r 1), addW (wd ws 3) (wd r 2), addW (wd ws 4) (wd r 3), wd ws 5 + BitVec.ofNat 64 (wf r 0 63 32), 0, 0]) base)

/-- The commit record (R239). -/
def State.commitWords (s : State) (k : UpdCmd) : List W64 :=
  let ws := [Bits.make [(63, 63, 1), (55, 48, k.ctx), (47, 40, k.progNo), (31, 0, k.newver)], k.seq, k.step, BitVec.ofNat 64 k.rmap, BitVec.ofNat 64 (s.now s.hub), BitVec.ofNat 64 k.chunks, 0]
  ws ++ [crcWords ws]

/-- Words of the version table after the commit, in both copies (R257, R259). -/
def State.versionWrites (s : State) (k : UpdCmd) : List (Nat × W64) :=
  let cur := s.currentVs k.vte
  let slotW := fun i st refs ver => (8 + i, Bits.make [(50, 48, st), (47, 32, refs), (31, 0, ver)])
  let olds := match cur with
    | some i => [slotW i (if s.vsRefs k.vte i = 0 then Vs.free else Vs.stashed) (s.vsRefs k.vte i) (s.vsVersion k.vte i)]
    | none => []
  (olds ++ [slotW k.slot Vs.current (s.vsRefs k.vte k.slot) k.newver, (5, k.step)]).flatMap fun w => [(s.vtA k.vte + 8 * w.1, w.2), (s.vtB k.vte + 8 * w.1, w.2)]

/-- The commit of a command is staged in the commit buffer (R238): norm slots, version words, commit record. A unit that accumulates nothing
shows it on its die (R185). -/
def State.stageCommit (s : State) (k : UpdCmd) : State :=
  let on := ((k.done.filter fun t => s.normOn k t.2.1).map fun t => s.homeOf k t.1).eraseDups
  let off := ((k.done.map fun t => t.2.1).eraseDups).filter fun u => !s.normOn k u
  let s0 := off.foldl (fun s u => s.setErr (Pg.ctr (uuDie u)) F.ctrErrStatNormRange k.ctx) s.vtNote
  let lines := on.flatMap fun h => let (a, ws) := s0.normSlot k h; addrBytes a (wordsBytes ws)
  let vers := (s0.versionWrites k).flatMap fun w => addrBytes w.1 (wordBytes w.2)
  (s0.withCommit (lines ++ vers ++ addrBytes k.crec (wordsBytes (s0.commitWords k)))).putUpd { k with staged := true }

/-- A command commits: the staged values are written, then it completes (R238). -/
def State.commitUpd (s : State) (k : UpdCmd) : State :=
  (((s.stageCommit k).applyCommit).addFld (Pg.upd s.hub) F.updPerfCommits 1).endUpd k St.ok (BitVec.ofNat 64 k.newver)

/-- A fault of the dispatcher: whether it falls into the commit of a command whose chunks are all applied, after that has been staged, is an open
bit; the staged commit is replayed (R238; log 93). -/
def State.cutCommit (s : State) : State :=
  match s.upd.find? fun k => s.chunksIn k && k.owed.isEmpty && !k.poisoned && !s.stepTainted k.ctx k.step with
  | some k => if s.draw.1.getLsbD 0 then s.draw.2.stageCommit k else s.draw.2
  | none => s

/-- The dispatcher commits a command whose chunks are all applied; a commit that a fault left staged is replayed first (R238). -/
def execUpdateCommit (s : State) : Host.Outcome State Fault Refusal :=
  if s.upd.any (·.staged) then .next (s.replayCommit.pumpAll) else
  match s.upd.find? fun k => s.chunksIn k && (k.poisoned || k.owed.isEmpty) with
  | none => .next s
  | some k =>
    if k.poisoned then .next ((s.endUpd k St.poisoned 0).consume s.hub k.ctx 0 (BitVec.ofNat 64 k.rmap))
    else if s.stepTainted k.ctx k.step then .next (s.endUpd k St.tainted 0)
    else .next (s.commitUpd k)

/-! ## The element datapath, instruction by instruction (R227, R228) -/

/-- One element operation in every lane of the group in hand. -/
def State.lanes (s : State) (u : Nat) (op : UOp) : State :=
  if !s.uuUp u || !(s.uu u).section_ then s else
  (List.range 32).foldl (fun s l =>
    let x := s.uu u
    let inp : LaneIn := fun st => (KMap.get 0 x.inp (32 * st + l), KMap.get false x.inSat (32 * st + l))
    let r := op.run (fun n => KMap.get 0 x.e (32 * n + l)) fun st => (inp st).1
    s.setUu u { x with
      e := match r.reg with | some (rd, v) => if rd < 16 then KMap.set 0 x.e (32 * rd + l) v else x.e | none => x.e
      out := match r.store with | some (st, v) => KMap.set 0 x.out (32 * st + l) v | none => x.out
      evs := KMap.set LaneEv.none x.evs l ((KMap.get LaneEv.none x.evs l).after op r inp) }) s

/-- The streams of a lane group stand ready on a unit, and its base instructions run. -/
def State.takeLanes (s : State) (k : UpdCmd) (u : Nat) (h : UuHand) : State :=
  let ps := ((k.placesOf h.chunk).drop (32 * h.group)).take 32
  let cells := ps.zipIdx.flatMap fun p => (List.range 4).map fun st => (32 * st + p.2, s.laneIn k p.1.1 p.1.2 st)
  let s1 := s.baseGroup k u
  s1.setUu u { s1.uu u with
    section_ := true, hand := some h, out := [], evs := []
    inp := cells.foldl (fun m x => KMap.set 0 m x.1 x.2.1) [], inSat := cells.foldl (fun m x => KMap.set false m x.1 x.2.2) [] }

/-- Whether a chunk of a command is one that R235 computes. -/
def State.computes (s : State) (k : UpdCmd) (u c : Nat) : Bool :=
  let rc := s.loadWords (k.rmap + 64 * c) 8
  s.loadPoison (k.rmap + 64 * c) 64 || ((rc.all (· == 0) || decide (wd rc 7 = crcWords (rc.take 7))) && decide ((wd rc 0).toNat < k.step.toNat) && (s.heldJournal k u c).isNone)

/-- The next chunk of a command that a unit computes comes in hand, its first lane group ready; without one the section ends. -/
def State.takeHand (s : State) (k : UpdCmd) (u : Nat) : State :=
  match k.todo.find? fun t => decide (t.2 = u) with
  | some t => if s.computes k u t.1 then s.takeLanes k u ⟨k.sq, k.seq, t.1, 0, []⟩ else s.setUu u { s.uu u with section_ := false, hand := none }
  | none => s.setUu u { s.uu u with section_ := false, hand := none }

/-- The elements of a whole chunk from what its lane groups left. -/
def State.handEls (s : State) (k : UpdCmd) (c : Nat) (l : List (KMap W64 × LaneEv)) : List UpdEl :=
  ((k.placesOf c).zip l).map fun x => s.updEl k x.1 x.2.1 x.2.2

/-- What the lanes of the group in hand have stored. -/
def Uu.lanesOut (x : Uu) : List (KMap W64 × LaneEv) :=
  (List.range 32).map fun l => ((List.range 5).foldl (fun m st => KMap.set 0 m st (KMap.get 0 x.out (32 * st + l))) [], KMap.get LaneEv.none x.evs l)

/-- MASTER, MOM1, MOM2 and GRAD are read (R229); another stream number loads nothing. -/
def execUld (u : Fin 36) (rd : Gpr) (stream : Fin 32) (s : State) : Host.Outcome State Fault Refusal := .next (if stream.val ≤ 3 then s.lanes u (.uld rd stream) else s)

def execUst (u : Fin 36) (stream : Fin 32) (rs2 : Gpr) (s : State) : Host.Outcome State Fault Refusal :=
  .next (if 1 ≤ stream.val ∧ stream.val ≤ 4 then s.lanes u (.ust stream rs2) else s)

/-- ukset in the prologue: E[16 + RD] := G[RS1][31:0] in every lane. -/
def execUkset (u : Fin 36) (rd : Fin 16) (rs1 : Gpr) (s : State) : Host.Outcome State Fault Refusal :=
  let c := 340 + u.val
  if !s.coreRuns c then .next s else
  match s.unitCmd u with
  | none => .next s
  | some k =>
    let v := lo32 (s.g c rs1)
    let s1 := s.putUpd { k with consts := KMap.insert (KMap.erase k.consts (16 * u.val + rd.val)) (16 * u.val + rd.val) (BitVec.ofNat 32 v) }
    let x := s1.uu u
    .next ((s1.setUu u { x with e := (List.range 32).foldl (fun m l => KMap.set 0 m (32 * (16 + rd.val) + l) (reg32 v)) x.e }).nextPc c)

def execUadd (u : Fin 36) (dbl : Bool) (rd rs1 rs2 : Gpr) (s : State) : Host.Outcome State Fault Refusal := .next (s.lanes u (.bin .add dbl rd rs1 rs2))
def execUsub (u : Fin 36) (dbl : Bool) (rd rs1 rs2 : Gpr) (s : State) : Host.Outcome State Fault Refusal := .next (s.lanes u (.bin .sub dbl rd rs1 rs2))
def execUmul (u : Fin 36) (dbl : Bool) (rd rs1 rs2 : Gpr) (s : State) : Host.Outcome State Fault Refusal := .next (s.lanes u (.bin .mul dbl rd rs1 rs2))
def execUdiv (u : Fin 36) (dbl : Bool) (rd rs1 rs2 : Gpr) (s : State) : Host.Outcome State Fault Refusal := .next (s.lanes u (.bin .div dbl rd rs1 rs2))
def execUfma (u : Fin 36) (dbl : Bool) (rd rs1 rs2 : Gpr) (s : State) : Host.Outcome State Fault Refusal := .next (s.lanes u (.fma dbl rd rs1 rs2))
def execUsqrt (u : Fin 36) (dbl : Bool) (rd rs1 : Gpr) (s : State) : Host.Outcome State Fault Refusal := .next (s.lanes u (.un .sqrt dbl rd rs1))
def execUmax (u : Fin 36) (dbl : Bool) (rd rs1 rs2 : Gpr) (s : State) : Host.Outcome State Fault Refusal := .next (s.lanes u (.bin .max dbl rd rs1 rs2))
def execUmin (u : Fin 36) (dbl : Bool) (rd rs1 rs2 : Gpr) (s : State) : Host.Outcome State Fault Refusal := .next (s.lanes u (.bin .min dbl rd rs1 rs2))
def execUabs (u : Fin 36) (dbl : Bool) (rd rs1 : Gpr) (s : State) : Host.Outcome State Fault Refusal := .next (s.lanes u (.un .abs dbl rd rs1))
def execUneg (u : Fin 36) (dbl : Bool) (rd rs1 : Gpr) (s : State) : Host.Outcome State Fault Refusal := .next (s.lanes u (.un .neg dbl rd rs1))
def execUsgn (u : Fin 36) (dbl : Bool) (rd rs1 : Gpr) (s : State) : Host.Outcome State Fault Refusal := .next (s.lanes u (.un .sgn dbl rd rs1))
def execUcvt (u : Fin 36) (toDbl : Bool) (rd rs1 : Gpr) (s : State) : Host.Outcome State Fault Refusal := .next (s.lanes u (.cvt toDbl rd rs1))
def execUwadd (u : Fin 36) (rd rs1 rs2 : Gpr) (s : State) : Host.Outcome State Fault Refusal := .next (s.lanes u (.wadd rd rs1 rs2))

/-- uloop ends the prologue of the command on this unit and begins the element section; the streams of the first lane group of
its next chunk stand ready (R227; log 31). -/
def execUloop (u : Fin 36) (s : State) : Host.Outcome State Fault Refusal :=
  let c := 340 + u.val
  if !s.coreRuns c then .next s else
  match s.unitCmd u with
  | none => .next s
  | some k =>
    let e := (k.constsOn u).foldl (fun m r => (List.range 32).foldl (fun m l => KMap.set 0 m (32 * r.1 + l) r.2) m) (s.uu u).e
    let k1 := { k with ready := k.ready ++ [u.val] }
    let s1 := (s.putUpd k1).setUu u { s.uu u with e := e }
    .next ((s1.takeHand k1 u).nextPc c)

/-- uend ends a pass: the next lane group of the chunk comes in hand; after its last, the streams stored are narrowed, journalled and mirrored
(R229, R235), and the next chunk of the command comes in hand. Without room for the journal the unit waits. -/
def execUend (u : Fin 36) (s : State) : Host.Outcome State Fault Refusal :=
  if !s.uuUp u then .next s else
  let x := s.uu u
  let out := s.setUu u { x with section_ := false, hand := none }
  match x.hand with
  | none => .next out
  | some h => match s.upd.find? fun k => decide (k.sq = h.sq ∧ k.seq = h.seq) && k.todo.contains (h.chunk, u.val) with
    | none => .next out
    | some k =>
      let els := h.els ++ x.lanesOut
      if (h.group + 1) * 32 < 8 * k.width h.chunk then .next (s.takeLanes k u { h with group := h.group + 1, els := els })
      else if !s.journalRoom u then .next s
      else
        let s1 := (s.setUu u { x with last := some k.num }).finishChunk k u h.chunk (s.handEls k h.chunk els) (s.loadPoison (k.rmap + 64 * h.chunk) 64 || s.chunkBad k h.chunk)
        .next (match s1.upd.find? fun y => decide (y.sq = k.sq ∧ y.seq = k.seq) with | some y => s1.takeHand y u | none => s1)

/-! ## Fence, self-test, counters (R244, R246, R247) -/

def execUuFence (u : Fin 36) (s : State) : Host.Outcome State Fault Refusal := .next (s.fenceUu u 7)

def execUuSelftest (u : Fin 36) (s : State) : Host.Outcome State Fault Refusal := .next (s.startSelftest (Pg.uu u) F.uuStatState)

def execUuSelftestDone (u : Fin 36) (pass : Bool) (s : State) : Host.Outcome State Fault Refusal := .next (s.endSelftest (Pg.uu u) F.uuStatState pass)

def execUuReadmit (u : Fin 36) (s : State) : Host.Outcome State Fault Refusal := .next (s.readmit (Pg.uu u) F.uuStatState (uuKey u))

def execUuPerfRead (u : Fin 36) (s : State) : Host.Outcome State Fault Refusal := .next (s.readClear (Pg.uu u + 0x100) (BitVec.allOnes 64))

/-- Only the page of the die that holds the dispatcher counts (R247). -/
def execUpdPerfRead (d : Die) (s : State) : Host.Outcome State Fault Refusal :=
  .next (if d.val = s.hub then s.readClear (Pg.upd d + 0x100) (BitVec.allOnes 64) else s.out 0)

end Sys2Proof.Machine
end

