-- ==== Sys2Proof/Machine/Stages.lean ====
section
/-! DEFINITION. Pipeline stages (09): the steward core's stage instructions, the messages of stage links, the flight table, the
version table's commands, and the registers of the STG and SLQ pages. -/

namespace Sys2Proof.Machine

/-! ## Links (R249 to R255) -/

def slqPage (n : Nat) : Nat := Pg.slq (n / 64)
def State.olDev (s : State) (ol : Nat) : Nat := s.fld (inPg ol) F.slqOutdstDev
def State.olQn (s : State) (ol : Nat) : Nat := s.fld (inPg ol) F.slqOutdstQn
/-- A link within this package. -/
def State.olLocal (s : State) (ol : Nat) : Bool := decide (s.olDev ol = s.dev)
/-- Buffer of a SEQ of an in-queue (R250). -/
def State.inBuf (s : State) (qn seq : Nat) : Nat :=
  s.fld (inPg qn) F.slqInbufBase * 4096 + seq % max 1 (s.fld (inPg qn) F.slqIncfgDepth) * (s.fld (inPg qn) F.slqIncfgStride * 4096)
def State.inConsumed (s : State) (qn : Nat) : Nat := s.fld (inSeqPg qn) F.slqInseqConsumed
def State.inExpected (s : State) (qn : Nat) : Nat := s.fld (inSeqPg qn) F.slqInseqExpected

/-- Whether a free credit is left: DEPTH − (SENT − CONSUMED), modulo 2^32 (R255). -/
def State.hasCredit (s : State) (ol : Nat) : Bool :=
  decide ((2 ^ 32 + s.fld (inSeqPg ol) F.slqOutseqSent - s.fld (inSeqPg ol) F.slqOutseqConsumed) % 2 ^ 32 < s.fld (inPg ol) F.slqOutcfgDepth)

/-- Descriptor fields (R251). -/
def descBytes (ws : List W64) : Nat := wf ws 6 31 0
def descAddr (ws : List W64) : Nat := wf ws 5 47 0
def descMb (ws : List W64) : W32 := BitVec.ofNat 32 (wf ws 1 31 0)

/-- Whether a descriptor matches a taint of a context (R265, R267). -/
def State.descTainted (s : State) (ctx : Nat) (ws : List W64) : Bool := s.tainted ctx (wd ws 2) (descMb ws)
def markBit (b : Bool) (ws : List W64) : List W64 := if b then ws.set 0 (Bits.putBit (wd ws 0) 46 true) else ws

/-- What refuses a push block (R251, R263, R253): reserved bits, OPCODE, TAINTED, KIND, BYTES; EARLY; the payload's range. The
in-queue's EARLY_OK and STRIDE are seen on a link within the package only (log 32). -/
def State.pushCheck (s : State) (ctx ol : Nat) (ws : List W64) : Nat :=
  let qn := s.olQn ol
  let here := s.olLocal ol
  if wf ws 0 63 56 ≠ 0x20 ∨ wf ws 0 46 46 ≠ 0 ∨ wf ws 0 45 44 = 3 ∨ wf ws 0 43 8 ≠ 0 ∨ wf ws 5 63 48 ≠ 0 ∨ wf ws 7 63 48 ≠ 0 ∨ descBytes ws = 0 ∨
      (here = true ∧ s.fld (inPg qn) F.slqIncfgStride * 4096 < descBytes ws) then St.protocolErr
  else if wf ws 0 47 47 = 1 ∧ (s.bitF (inPg ol) F.slqOutcfgEarly = false ∨ (here = true ∧ s.bitF (inPg qn) F.slqIncfgEarlyOk = false)) then St.earlyDenied
  else s.memCheck ctx (descAddr ws) (descBytes ws)

/-- A descriptor as it travels: SEQ, TAINTED (R265), and no DONEW. -/
def State.wireDesc (s : State) (ol : Nat) (m : OutMsg) : List W64 :=
  let ctx := s.stageCtx (s.outStage ol)
  markBit (s.descTainted ctx m.words) ((m.words.set 1 (Bits.put (wd m.words 1) 63 32 m.seq.toNat)).set 7 0)

/-- Posts a message of an out-link. -/
def State.slPost (s : State) (ol : Nat) (m : OutMsg) : State :=
  if m.taint then s.slSend ⟨6, ol, BitVec.ofNat 64 m.seq.toNat :: m.words⟩ else s.slSend ⟨3, ol, s.wireDesc ol m⟩

/-- Whether n bytes may lie in a buffer: in a region, or in die-shared SRAM, that the receiving stage's partition may use (R250). -/
def State.bufferOk (s : State) (qn a n : Nat) : Bool :=
  decide (s.memCheckW (s.stageCtx (s.inStage qn)) a n = St.ok) &&
    (checkPoints a n).all fun x => match s.place x with | some (.cluster _) => false | some .window => false | some _ => true | none => false

/-- Whether the copy of a payload waits behind a request that a tollgate holds (R206). -/
def State.copyShut (s : State) (ol : Nat) (m : OutMsg) : Bool :=
  s.gateShut (ol / 64) (s.partOf (s.stageCtx (s.outStage ol))) (descAddr m.words) (descBytes m.words) false ||
  s.gateShut (ol / 64) (s.partOf (s.stageCtx (s.inStage (s.olQn ol)))) (s.inBuf (s.olQn ol) m.seq.toNat) (descBytes m.words) true

/-- The porter copies a payload into the receiver's buffer in this package, where that may lie there; poison travels with it (R250, R253). -/
def State.copyPayload (s : State) (ol : Nat) (m : OutMsg) : State :=
  let qn := s.olQn ol
  let d := ol / 64
  let dst := s.inBuf qn m.seq.toNat
  let n := descBytes m.words
  let s1 := s.charge d (s.partOf (s.stageCtx (s.outStage ol))) (descAddr m.words) n false
  if s.bufferOk qn dst n then ((s1.charge d (s.partOf (s.stageCtx (s.inStage qn))) dst n true).moveBytes (descAddr m.words) dst n).wakeRange dst n else s1

/-- What marks the put of a payload: its out-link and SEQ. -/
def payloadMark (ol : Nat) (seq : W32) : W64 := Bits.make [(39, 32, ol), (31, 0, seq.toNat)]

/-- The put of a payload to another package (R253). The manual does not say how the sender knows the buffer's address: a free value
(DESIGN CHOICE, log 129). -/
def State.putPayload (s : State) (ol : Nat) (m : OutMsg) : State :=
  let (a, s1) := s.draw
  (s1.submitOp (12 + ol / 64) (s.stageCtx (s.outStage ol)) [Bits.make [(63, 60, 1)], Bits.make [(63, 48, s.olDev ol), (47, 0, a.toNat)],
    Bits.make [(63, 32, descBytes m.words)], BitVec.ofNat 64 (descAddr m.words), 0, payloadMark ol m.seq]).2

/-- The put of a payload, once every reply has come or it has failed. -/
def State.payloadPut (s : State) (ol : Nat) (seq : W32) : Option PortOp :=
  s.net.ops.find? fun o => decide (o.group = 12 + ol / 64 ∧ wd o.words 5 = payloadMark ol seq) && s.finished o

/-- A credited push: the next SEQ, and the copy begins (R253). -/
def State.pushLink (s : State) (ol : Nat) (ws : List W64) : State :=
  let m : OutMsg := ⟨BitVec.ofNat 32 (s.fld (inSeqPg ol) F.slqOutseqSent), ws, wf ws 7 47 0, true, 0, false⟩
  let s1 := (s.wrapFld (inSeqPg ol) F.slqOutseqSent 1).setOutq ol (s.outq ol ++ [m])
  if s.olLocal ol then s1 else s1.putPayload ol m

/-- Whether an entry of an in-queue is the place of a TAINT message, which holds no descriptor. -/
def isMark (d : List W64 × Bool) : Bool := d.1.isEmpty

/-- Drops the places of TAINT messages at the head; each counts as consumed (log 22). -/
def State.dropMarks (s : State) (qn : Nat) : State :=
  let l := (s.inq qn).descs
  (s.wrapFld (inSeqPg qn) F.slqInseqConsumed (l.takeWhile isMark).length).setInq qn ⟨l.dropWhile isMark⟩

/-- The next descriptor to pop and the queue with it marked popped. -/
def popDesc : List (List W64 × Bool) → Option (List W64 × List (List W64 × Bool))
  | [] => none
  | d :: t => if d.2 then (popDesc t).map fun x => (x.1, d :: x.2) else some (d.1, (d.1, true) :: t)

/-- A link instruction of a steward core: none while it waits (R253, R255, R268). -/
def State.linkStep (s : State) (c rd : Nat) (why : Why) : Option State :=
  match why with
  | .qpush ol ws =>
    if s.outState ol ≠ Sl.outOpen then some (s.retSt c rd St.linkDown)
    else if s.hasCredit ol then some ((s.pushLink ol ws).retSt c rd St.ok) else none
  | .qpop qn dest =>
    if s.inState qn ≠ Sl.open_ then some (s.retSt c rd St.linkDown)
    else match popDesc (s.inq qn).descs with
      | some (ws, l) => some (((s.setInq qn ⟨l⟩).setScratchWords c dest ws).retSt c rd (if s.descTainted (wf ws 0 55 48) ws then St.tainted else St.ok))
      | none => none
  | _ => none

/-- Waiting link instructions go on, in the order they came, after a change of a link. -/
def State.wakeLinks (s : State) : State :=
  s.sync.waiters.foldl (fun s w => match (s.unwait w.slot).linkStep w.slot w.rd w.why with | some s1 => s1 | none => s) s

/-- Runs a link instruction, waits, or answers the status of the non-blocking form. -/
def State.linkRun (s : State) (c rd : Nat) (nb : Bool) (st : Nat) (why : Why) : State :=
  match s.linkStep c rd why with
  | some s1 => s1
  | none => if nb then s.retSt c rd st else s.wait c rd why

/-- The stage of a steward core's instruction on a link of a stage: PROTOCOL_ERR for a cluster in no valid stage or another
stage's link (R249). -/
def State.ownsLink (s : State) (c n linkStage : Nat) : Bool := decide (n < 256 ∧ s.stageOf c = some linkStage)

def execQpush (c : ClusterNo) (nb : Bool) (rd rs1 rs2 : Gpr) (s : State) : Host.Outcome State Fault Refusal :=
  let p := stewardOf c
  if !s.coreRuns p then .next s else
  let ol := (s.g p rs1).toNat
  let ws := s.scratchWords p (s.g p rs2).toNat 8
  if !s.ownsLink c ol (s.outStage ol) then .next (s.retSt p rd St.protocolErr)
  else if s.outState ol ≠ Sl.outOpen then .next (s.retSt p rd St.linkDown)
  else if s.pushCheck (s.coreCtx p) ol ws ≠ St.ok then .next (s.retSt p rd (s.pushCheck (s.coreCtx p) ol ws))
  else .next (s.newWork p rd (s.linkRun p rd nb St.noCredit (.qpush ol ws)))

def execQpop (c : ClusterNo) (nb : Bool) (rd rs1 rs2 : Gpr) (s : State) : Host.Outcome State Fault Refusal :=
  let p := stewardOf c
  if !s.coreRuns p then .next s else
  let qn := (s.g p rs1).toNat
  if !s.ownsLink c qn (s.inStage qn) then .next (s.retSt p rd St.protocolErr)
  else .next (s.linkRun p rd nb St.queueEmpty (.qpop qn (s.g p rs2).toNat))

/-- qdone (R255, R265): the oldest entry that has been popped is the head of the queue. -/
def execQdone (c : ClusterNo) (rd rs1 : Gpr) (s : State) : Host.Outcome State Fault Refusal :=
  let p := stewardOf c
  if !s.coreRuns p then .next s else
  let qn := (s.g p rs1).toNat
  if !s.ownsLink c qn (s.inStage qn) then .next (s.retSt p rd St.protocolErr)
  else if s.inState qn ≠ Sl.open_ then .next (s.retSt p rd St.linkDown)
  else match (s.inq qn).descs with
    | (ws, true) :: rest =>
      let st := if s.descTainted (wf ws 0 55 48) ws then St.tainted else St.ok
      .next ((((s.wrapFld (inSeqPg qn) F.slqInseqConsumed 1).setInq qn ⟨rest⟩).dropMarks qn).retSt p rd st)
    | _ => .next (s.retSt p rd St.protocolErr)

/-! ## Versions (R257 to R261) -/

/-- The slot that holds a version, CURRENT or STASHED. -/
def State.heldVs (s : State) (e v : Nat) : Option Nat :=
  s.findVs e fun i => decide ((s.vsState e i = Vs.current ∨ s.vsState e i = Vs.stashed) ∧ s.vsVersion e i = v)

/-- What vacq answers (R260): the status, and on OK the slot. v is all ones for the current version. -/
def State.vacqCheck (s : State) (ctx e v : Nat) : Nat × Nat :=
  if 65536 ≤ e ∨ !s.vtValid e ∨ s.vtCtx e ≠ ctx then (St.protocolErr, 0) else
  match s.currentVs e with
  | none => (St.protocolErr, 0)
  | some k =>
    let cur := s.vsVersion e k
    match (if v = 2 ^ 32 - 1 then some k else s.heldVs e v) with
    | none => (if v < cur then St.versionGone else St.versionAhead, 0)
    | some i => if s.vsRefs e i = 65535 then (St.protocolErr, 0) else (St.ok, i)

/-- Every operation on the table notes a read of copy B (R257, R271). -/
def execVacq (c : ClusterNo) (rd rs1 rs2 : Gpr) (s : State) : Host.Outcome State Fault Refusal :=
  let p := stewardOf c
  if !s.coreRuns p then .next s else
  let e := (s.g p rs1).toNat
  let blk := (s.g p rs2).toNat
  if (s.stageOf c).isNone then .next (s.retSt p rd St.protocolErr) else
  let s0 := s.vtNote
  let (st, i) := s0.vacqCheck (s.coreCtx p) e (Bits.get (s.scratchWord p blk) 31 0)
  if st ≠ St.ok then .next (s0.retSt p rd st)
  else
    let v := s0.vsVersion e i
    let s1 := s0.setVs e i (s0.vsState e i) (s0.vsRefs e i + 1) v
    .next (s.newWork p rd ((s1.setScratchWords p blk [Bits.make [(34, 32, i), (31, 0, v)], BitVec.ofNat 64 (s0.vsElem e i)]).retSt p rd St.ok))

/-- vrel (R260): an entry that is not valid or not the caller's is PROTOCOL_ERR, as for vacq (log 33). -/
def execVrel (c : ClusterNo) (rd rs1 rs2 : Gpr) (s : State) : Host.Outcome State Fault Refusal :=
  let p := stewardOf c
  if !s.coreRuns p then .next s else
  let e := (s.g p rs1).toNat
  let v := Bits.get (s.g p rs2) 31 0
  if (s.stageOf c).isNone then .next (s.retSt p rd St.protocolErr) else
  let s0 := s.vtNote
  if 65536 ≤ e ∨ !s0.vtValid e ∨ s0.vtCtx e ≠ s.coreCtx p then .next (s0.retSt p rd St.protocolErr)
  else
    let under := (s0.setErr Pg.stg F.stgErrStatRefUnderflow (s.coreCtx p)).retSt p rd St.refUnderflow
    match s0.heldVs e v with
    | none => .next under
    | some i =>
      let n := s0.vsRefs e i
      if n = 0 then .next under
      else
        let st := if s0.vsState e i = Vs.stashed ∧ n = 1 then Vs.free else s0.vsState e i
        .next ((s0.setVs e i st (n - 1) v).retSt p rd St.ok)

/-! ## Flight table (R256) -/

def State.setFlight (s : State) (l : List Flight) : State := s.withStg { s.stg with flight := l }

def State.fbeg (s : State) (ctx : Nat) (id : W32) : Nat × State :=
  match s.stg.flight.find? fun f => decide (f.ctx = ctx ∧ f.seqid = id) with
  | some f =>
    if f.count = 65535 then (St.protocolErr, s)
    else (St.ok, s.setFlight (s.stg.flight.map fun x => if x = f then { x with count := x.count + 1 } else x))
  | none =>
    let part := s.partOf ctx
    if 96 ≤ s.stg.flight.length ∨ s.fld (Pg.stg + 8 * part) F.stgFcapCap ≤ s.stg.flight.countP fun f => decide (s.partOf f.ctx = part) then (St.flightFull, s)
    else (St.ok, s.setFlight (s.stg.flight ++ [⟨ctx, id, 1⟩]))

def State.fend (s : State) (ctx : Nat) (id : W32) : Nat × State :=
  match s.stg.flight.find? fun f => decide (f.ctx = ctx ∧ f.seqid = id) with
  | none => (St.refUnderflow, s)
  | some f =>
    (St.ok, s.setFlight (if f.count ≤ 1 then s.stg.flight.filter fun x => decide (x ≠ f) else s.stg.flight.map fun x => if x = f then { x with count := x.count - 1 } else x))

def execFbeg (c : ClusterNo) (rd rs1 : Gpr) (s : State) : Host.Outcome State Fault Refusal :=
  let p := stewardOf c
  if !s.coreRuns p then .next s
  else if (s.stageOf c).isNone then .next (s.retSt p rd St.protocolErr)
  else let (st, s1) := s.fbeg (s.coreCtx p) ((s.g p rs1).setWidth 32); .next (s.newWork p rd (s1.retSt p rd st))

def execFend (c : ClusterNo) (rd rs1 : Gpr) (s : State) : Host.Outcome State Fault Refusal :=
  let p := stewardOf c
  if !s.coreRuns p then .next s
  else if (s.stageOf c).isNone then .next (s.retSt p rd St.protocolErr)
  else let (st, s1) := s.fend (s.coreCtx p) ((s.g p rs1).setWidth 32); .next (s1.retSt p rd st)

/-! ## Taint (R264, R267) -/

/-- The watch for a CHECK_LATE record ends with a taint that its cluster executes for the context (R402). -/
def State.lateAnswered (s : State) (c ctx : Nat) : State := s.withRcv { s.rcv with late := s.rcv.late.filter fun x => decide (x ≠ (c, ctx)) }

def execTaint (c : ClusterNo) (rd rs1 rs2 : Gpr) (s : State) : Host.Outcome State Fault Refusal :=
  let p := stewardOf c
  if !s.coreRuns p then .next s
  else
    let ctx := s.coreCtx p
    .next (((s.recordTaint ⟨ctx, s.g p rs1, (s.g p rs2).setWidth 32⟩).lateAnswered c ctx).retSt p rd St.ok)

/-! ## Messages of stage links (R252 to R255, R264) -/

/-- Posts the messages that a finished copy lets go, in SEQ order (R253). -/
def State.postReady (s : State) (ol : Nat) (before : List OutMsg) : State :=
  (((s.outq ol).takeWhile fun m => !m.copying).drop (before.takeWhile fun m => !m.copying).length).foldl (fun s m => s.slPost ol m) s

/-- The copy of a SEQ is complete: it is posted once those before it are. -/
def State.copyEnds (s : State) (n : Nat) (seq : W32) : State :=
  (s.setOutq n ((s.outq n).map fun x => if x.seq = seq then { x with copying := false } else x)).postReady n (s.outq n)

/-- A porter completes a copy: in this package the bytes move; to another one every put has been acknowledged, or the copy begins again where
a put failed (R253; log 129). -/
def execSlCopyDone (ol : Met Byte) (seq : W32) (s0 : State) : Host.Outcome State Fault Refusal :=
  let s := s0.meet ol.hits
  let n := ol.arg.toNat
  let msg := (s.outq n).find? fun m => decide (m.seq = seq) && m.copying
  if s.olLocal n then .next (match msg with | none => s0 | some m => if s.copyShut n m then s0 else (s.copyPayload n m).copyEnds n seq) else
  match s.payloadPut n seq with
  | none => .next s0
  | some o =>
    let s1 := s.withNet { s.net with ops := s.net.ops.filter fun x => decide (x.num ≠ o.num) }
    .next (match msg with | none => s1 | some m => if o.status = St.ok then s1.copyEnds n seq else s1.putPayload n m)

/-- The receiver checks an OPEN (R252). -/
def execSlOpenRecv (m : SlOpen) (s : State) : Host.Outcome State Fault Refusal :=
  let qn := m.qn.toNat
  let p := inPg qn
  let reply := fun (s : State) kind => s.slSend ⟨kind, m.srcOl.toNat, [BitVec.ofNat 64 m.srcDev.toNat]⟩
  if s.bitF p F.slqIncfgValid && decide (s.inState qn ≠ Sl.open_ ∧ s.fld p F.slqIncfgSrcdev = m.srcDev.toNat ∧ s.fld p F.slqIncfgSrcout = m.srcOl.toNat ∧ s.fld p F.slqIncfgDepth = m.depth) then
    .next (reply (((s.setFld p F.slqIncfgState Sl.open_).setReg (inSeqPg qn + 0x900) 0).setInq qn ⟨[]⟩) 1)
  else .next (reply s 2)

def execSlAcceptRecv (ol : Byte) (s : State) : Host.Outcome State Fault Refusal :=
  let n := ol.toNat
  if s.outState n = Sl.outOpening then .next (((s.setFld (inPg n) F.slqOutcfgState Sl.outOpen).setReg (inSeqPg n + 0xB00) 0).setOutq n [])
  else .next s

def execSlRefuseRecv (ol : Byte) (s : State) : Host.Outcome State Fault Refusal :=
  let n := ol.toNat
  if s.outState n = Sl.outOpening then .next ((s.setFld (inPg n) F.slqOutcfgState Sl.outRefused).setErr (slqPage n) F.slqErrStatRefused (s.stageCtx (s.outStage n)))
  else .next s

/-- An acknowledgement of a SEQ, with CONSUMED (R254, R255). -/
def State.slAck (s : State) (qn : Nat) (seq : W32) : State := s.slSend ⟨4, qn, [BitVec.ofNat 64 seq.toNat, BitVec.ofNat 64 (s.inConsumed qn)]⟩

/-- The sequence rule of R254: take runs for the expected SEQ, after which SEQ is acknowledged. -/
def State.slTake (s : State) (qn : Nat) (seq : W32) (take : State → State) : State :=
  let ctx := s.stageCtx (s.inStage qn)
  let exp := BitVec.ofNat 32 (s.inExpected qn)
  if s.inState qn ≠ Sl.open_ then s
  else if seq = exp then ((take (s.wrapFld (inSeqPg qn) F.slqInseqExpected 1)).slAck qn seq).wakeLinks
  else if (seq - exp).msb then (s.setErr (slqPage qn) F.slqErrStatDup ctx).slAck qn seq
  else s.setErr (slqPage qn) F.slqErrStatGap ctx

/-- A descriptor as the in-queue holds it (R251, R265). -/
def State.landed (s : State) (m : SlDesc) (seq : W32) : List W64 :=
  let qn := m.qn.toNat
  let ctx := s.stageCtx (s.inStage qn)
  let ws := ((((m.words.set 0 (Bits.put (Bits.put (wd m.words 0) 55 48 ctx) 7 0 qn)).set 1 (Bits.put (wd m.words 1) 63 32 seq.toNat)).set 5
    (BitVec.ofNat 64 (s.inBuf qn seq.toNat))).set 7 0)
  markBit (s.descTainted ctx ws) ws

/-- A descriptor arrives (R254). An in-queue without EARLY_OK accepts none with EARLY = 1 (R263, R272): such a one is dropped, and not
acknowledged (DESIGN CHOICE, log 130). -/
def execSlDescRecv (m : SlDesc) (s : State) : Host.Outcome State Fault Refusal :=
  let qn := m.qn.toNat
  let ctx := s.stageCtx (s.inStage qn)
  if (wd m.words 0).getLsbD 47 && !s.bitF (inPg qn) F.slqIncfgEarlyOk then .next s else
  .next (s.slTake qn m.seq fun s =>
    let s1 := s.setInq qn ⟨(s.inq qn).descs ++ [(s.landed m m.seq, false)]⟩
    if (wd m.words 0).getLsbD 46 then s1.recordTaint ⟨ctx, wd m.words 2, descMb m.words⟩ else s1)

/-- An acknowledgement: DONEW the first time, CONSUMED, and what waited for a credit goes on (R254, R255). -/
def execSlAckRecv (ol : Byte) (seq consumed : W32) (s : State) : Host.Outcome State Fault Refusal :=
  let n := ol.toNat
  if s.outState n ≠ Sl.outOpen then .next s else
  let s1 := s.setFld (inSeqPg n) F.slqOutseqConsumed consumed.toNat
  match (s1.outq n).find? fun m => decide (m.seq = seq) && !m.copying with
  | none => .next s1.wakeLinks
  | some m =>
    let ctx := s.stageCtx (s.outStage n)
    let s2 := s1.setOutq n ((s1.outq n).filter fun x => decide (x.seq ≠ seq))
    let s3 := if m.donew = 0 then s2 else (s2.act ctx (376 + 2 * (n / 64)) (Bits.make [(63, 60, 2), (47, 0, m.donew)]) 1).2
    .next s3.wakeLinks

def execSlConsumedSend (qn : Byte) (s : State) : Host.Outcome State Fault Refusal :=
  if s.inState qn.toNat = Sl.open_ then .next (s.slSend ⟨5, qn.toNat, [BitVec.ofNat 64 (s.inConsumed qn.toNat)]⟩) else .next s

def execSlCreditRecv (ol : Byte) (consumed : W32) (s : State) : Host.Outcome State Fault Refusal :=
  if s.outState ol.toNat = Sl.outOpen then .next (s.setFld (inSeqPg ol.toNat) F.slqOutseqConsumed consumed.toNat).wakeLinks else .next s

def State.slOpen (s : State) (ol : Nat) : State :=
  s.slSend ⟨0, ol, [BitVec.ofNat 64 s.dev, BitVec.ofNat 64 (s.fld (inPg ol) F.slqOutcfgDepth)]⟩

/-- Sends again what is posted and not acknowledged, in SEQ order; after eight re-sends the link is STALLED, and the context is
aborted with cause REMOTE (R254, R413). -/
def State.slResend (s : State) (n : Nat) : State :=
  let posted := (s.outq n).takeWhile fun m => !m.copying
  if posted.any fun m => decide (8 ≤ m.resends) then
    let ctx := s.stageCtx (s.outStage n)
    ((((s.setFld (inPg n) F.slqOutcfgState Sl.outStalled).setErr (slqPage n) F.slqErrStatStall ctx).wakeLinks).abortFor ctx Cause.remote)
  else
    let s1 := posted.foldl (fun s m => (if m.taint then s else if s.olLocal n then s.copyPayload n m else s.putPayload n m).slPost n m) s
    s1.setOutq n ((s.outq n).map fun m => if posted.any fun x => decide (x.seq = m.seq) then { m with resends := m.resends + 1 } else m)

def execSlResend (ol : Byte) (s : State) : Host.Outcome State Fault Refusal :=
  let n := ol.toNat
  if s.outState n = Sl.outOpening then .next (s.slOpen n)
  else if s.outState n = Sl.outOpen then .next (s.slResend n)
  else .next s

/-- A TAINT message takes its place in the queue, which is consumed in order (R264; log 22). -/
def execSlTaintRecv (qn : Byte) (t : TaintId) (s : State) : Host.Outcome State Fault Refusal :=
  let n := qn.toNat
  let ctx := s.stageCtx (s.inStage n)
  .next (s.slTake n t.seq fun s =>
    ((s.setInq n ⟨(s.inq n).descs ++ [([], true)]⟩).dropMarks n).recordTaint ⟨ctx, t.step, t.mb⟩)

/-! ## Registers (R250, R252, R271, R272) -/

/-- DEPTH of the valid in-queues of a die but one (R250). -/
def State.poolUsed (s : State) (d but : Nat) : Nat :=
  (List.range 64).foldl (fun n q => if q ≠ but && s.bitF (inPg (64 * d + q)) F.slqIncfgValid then n + s.fld (inPg (64 * d + q)) F.slqIncfgDepth else n) 0

/-- A write of INCFG (R250, R252). One with VALID = 1 is a validation, of a valid queue too: over the store's size it leaves VALID at 0, and the
queue closed (DESIGN CHOICE, log 130). -/
def execSlqIncfgWrite (d : Die) (q : Fin 64) (data : W64) (s : State) : Host.Outcome State Fault Refusal :=
  let n := 64 * d.val + q.val
  let k := inPg n + 0x100
  let was := s.bitF (inPg n) F.slqIncfgValid
  let s1 := s.plainWrite k data
  let close := fun (s : State) => ((s.setFld (inPg n) F.slqIncfgState Sl.closed).setInq n ⟨[]⟩).wakeLinks
  if !data.getLsbD 63 then .next (close s1)
  else if 1024 < s.poolUsed d q + F.slqIncfgDepth.of data then
    .next (close ((s1.setBitF (inPg n) F.slqIncfgValid false).setErr (slqPage n) F.slqErrStatPool (s.stageCtx (F.slqIncfgStage.of data))))
  else .next (if was then s1 else s1.setFld (inPg n) F.slqIncfgState Sl.closed)

def execSlqOutcfgWrite (d : Die) (j : Fin 64) (data : W64) (s : State) : Host.Outcome State Fault Refusal :=
  let n := 64 * d.val + j.val
  let k := inPg n + 0x500
  let was := s.bitF (inPg n) F.slqOutcfgValid
  let s0 := s.plainWrite k data
  let s1 := if s0.fld (inPg n) F.slqOutcfgResend = 0 then s0.setFld (inPg n) F.slqOutcfgResend 1 else s0
  if !data.getLsbD 63 then .next (((s1.setFld (inPg n) F.slqOutcfgState Sl.closed).setOutq n []).wakeLinks)
  else if was then .next s1
  else .next ((s1.setFld (inPg n) F.slqOutcfgState Sl.outOpening).slOpen n)

/-- The checks of R248 on a stage's context and clusters. -/
def State.stageOk (s : State) (i : Nat) (data : W64) : Bool :=
  (List.range 48).all fun c => !data.getLsbD c ||
    (decide (s.cluCtx c = some (F.stgStageCtx.of data)) &&
      (List.range 16).all fun j => j = i || !(s.stageValid j && (s.fld (Pg.stg + 8 * j) F.stgStageClusters).testBit c))

def execStgStageWrite (i : Fin 16) (data : W64) (s : State) : Host.Outcome State Fault Refusal :=
  let k := Pg.stg + 0x100 + 8 * i.val
  if s.stageValid i then
    if data.getLsbD 63 then .next (s.lockedWrite k (BitVec.allOnes 64) data)
    else .next ((s.stopStage i).setBitF (Pg.stg + 8 * i.val) F.stgStageValid false).wakeLinks
  else
    let s1 := s.plainWrite k data
    if data.getLsbD 63 && !s.stageOk i data then .next ((s1.setBitF (Pg.stg + 8 * i.val) F.stgStageValid false).setErr Pg.stg F.stgErrStatBadSeq 0)
    else .next s1

/-! ## STG.VCMD (R262) -/

def State.vcmdStart (s : State) (op vte : Nat) : State :=
  if s.bitF Pg.stg F.stgVstatBusy then s.setErr Pg.stg F.stgErrStatBadSeq 0
  else ((s.withStg { s.stg with vcmd := some ⟨op, vte⟩ })).setReg (Pg.stg + 0x198) (Bits.make [(63, 63, 1), (15, 0, vte)])

def execVcmdActivate (vte : W16) (s : State) : Host.Outcome State Fault Refusal := .next (s.vcmdStart 1 vte.toNat)
def execVcmdRetire (vte : W16) (s : State) : Host.Outcome State Fault Refusal := .next (s.vcmdStart 2 vte.toNat)

/-- What ACTIVATE checks of an entry (R258, R262). -/
def State.entryOk (s : State) (e : Nat) : Bool :=
  let f := Fmt.ofWord (Bits.get (s.vtWord e 0) 15 0)
  let n := s.vtSlots e
  !(s.vtWord e 0).getLsbD 63 && decide (2 ≤ n ∧ n ≤ 8 ∧ f.check = St.ok) && f.role && decide (Bits.get (s.vtWord e 2) 47 0 % 256 = 0 ∧ Bits.get (s.vtWord e 3) 47 0 % 256 = 0) &&
    ((List.range n).countP fun i => decide (s.vsState e i = Vs.current)) == 1 &&
    (List.range n).all fun i => decide ((s.vsState e i = Vs.current ∨ s.vsState e i = Vs.free) ∧ s.vsRefs e i = 0)

/-- Whether an accepted update command without an outcome names an entry (R262). -/
def State.updNames (s : State) (e : Nat) : Bool :=
  (s.upd.any fun u => decide (u.vte = e)) ||
    s.host.sqs.any fun q => q.2.any fun k => k.echoed && k.fin.isNone && decide (wf k.words 0 63 56 = 0x10 ∧ wf k.words 3 63 32 = e)

/-- RESULT of a command of STG.VCMD: 0 OK, 1 BAD_ENTRY, 2 IN_USE, 3 NOT_VALID (log 33). -/
def State.vcmdResult (s : State) (k : VCmd) : Nat :=
  if k.op = 1 then
    if !(s.bitF Pg.stg F.stgVtblAValid && s.bitF Pg.stg F.stgVtblBValid) then 3 else if s.vtExists k.vte && s.entryOk k.vte then 0 else 1
  else if !s.vtValid k.vte then 3
  else if ((List.range (s.vtSlots k.vte)).any fun i => decide (s.vsRefs k.vte i ≠ 0 ∨ s.vsState k.vte i = Vs.pending)) || s.updNames k.vte then 2
  else 0

/-- The command in progress ends: an activated entry is copied into both copies with VALID set (R262). -/
def execVcmdDone (s : State) : Host.Outcome State Fault Refusal :=
  match s.stg.vcmd with
  | none => .next s
  | some k =>
    let s0 := ((s.withStg { s.stg with vcmd := none })).vtNote
    let r := s0.vcmdResult k
    let w0 := Bits.putBit (s0.vtWord k.vte 0) 63 (decide (k.op = 1))
    let s1 := if r ≠ 0 then s0
      else if k.op = 1 then
        let ws := w0 :: (List.range 15).map fun i => s0.vtWord k.vte (i + 1)
        (s0.storeWords (s0.vtA k.vte) ws).storeWords (s0.vtB k.vte) ws
      else s0.setVt k.vte 0 w0
    .next (s1.setReg (Pg.stg + 0x198) (Bits.make [(23, 16, r), (15, 0, k.vte)]))

def execStgTclr (ctx : Byte) (s : State) : Host.Outcome State Fault Refusal :=
  .next (s.withStg { s.stg with taints := s.stg.taints.filter fun t => decide (t.ctx ≠ ctx.toNat), taintAll := KMap.set false s.stg.taintAll ctx.toNat false })

end Sys2Proof.Machine
end

