-- ==== Sys2Proof/Machine/Collective.lean ====
section
/-! DEFINITION. The couriers (R348 to R363): groups, collectives as sequences of chunk puts, credit and duplicates, re-sends, layout
epochs; replies and timeouts of the reply slots; and the job-admission command (R340, R341). -/

namespace Sys2Proof.Machine

/-! ## Groups and descriptors (R348, R349) -/

namespace Coll
def op (k : Coll) : Nat := wf k.words 0 47 44
def red (k : Coll) : Nat := wf k.words 0 43 42
def narrow (k : Coll) : Bool := (wd k.words 0).getLsbD 41
def gid (k : Coll) : Nat := wf k.words 0 31 16
def lepoch (k : Coll) : Nat := wf k.words 1 63 48
def fmtIn (k : Coll) : Nat := wf k.words 1 47 32
def fmtOut (k : Coll) : Nat := wf k.words 1 31 16
def root (k : Coll) : Nat := wf k.words 1 15 0
def count (k : Coll) : Nat := (wd k.words 2).toNat
def src (k : Coll) : Nat := wf k.words 3 47 0
def dst (k : Coll) : Nat := wf k.words 4 47 0
def cols (k : Coll) : Nat := wf k.words 6 63 32
def ptab (k : Coll) : Nat := wf k.words 7 47 0
/-- Word format of a wide code: 0 BF16, 1 FP32. -/
def wideOut (k : Coll) : Nat := if (Fmt.ofWord k.fmtOut).fmt = fmtBF16 then 0 else 1
def wideIn (k : Coll) : Nat := if (Fmt.ofWord k.fmtIn).fmt = fmtBF16 then 0 else 1
def reduces (k : Coll) : Bool := decide (k.op = 2 ∨ k.op = 3)
end Coll

namespace CollOp
abbrev open_ := 0
abbrev close := 1
abbrev allreduce := 2
abbrev reduceScatter := 3
abbrev allgather := 4
abbrev broadcast := 5
abbrev permute := 6
abbrev alltoall := 7
end CollOp

def State.group (s : State) (d gid : Nat) : Option Group := s.cr.groups.find? fun g => decide (g.die = d ∧ g.gid = gid)

def State.mapGroup (s : State) (d gid : Nat) (f : Group → Group) : State :=
  s.withCr { s.cr with groups := s.cr.groups.map fun g => if g.die = d ∧ g.gid = gid then f g else g }

def State.mapColl (s : State) (num : Nat) (f : Coll → Coll) : State :=
  s.withCr { s.cr with colls := s.cr.colls.map fun k => if k.num = num then f k else k }

def Group.size (g : Group) : Nat := max 1 g.members.length
def Group.intakeBytes (g : Group) : Nat := g.window * g.chunk * (if g.hier then 2 else 1)

/-- Intake that a courier has reserved (R348). -/
def State.intakeKept (s : State) (d : Nat) : Nat := (s.cr.groups.filter fun g => decide (g.die = d)).foldl (fun n g => n + g.intakeBytes) 0

def State.crrState (s : State) (d : Nat) : Nat := s.fld (Pg.crr d) F.crrStatState

/-! ## Streams (R351) -/

/-- The four counts of the stream with a rank, in the STATE area: SENT, CONSUMED heard, EXPECTED, CONSUMED (log 41). -/
def Group.countAt (g : Group) (rank k : Nat) : Nat := g.state + 16 * rank + 4 * k
def State.streamCount (s : State) (g : Group) (rank k : Nat) : Nat := s.loadNat (g.countAt rank k) 4
def State.setStreamCount (s : State) (g : Group) (rank k v : Nat) : State := s.storeNat (g.countAt rank k) 4 (v % 2 ^ 32)

/-- Sends a CREDIT to a rank: the absolute CONSUMED of its stream. -/
def State.sendCredit (s : State) (g : Group) (rank : Nat) : State :=
  s.post g.die (mkPkt { s.head (g.members.getD rank 0) 2 Op.credit with addr := g.gid * 2 ^ 32, seq := s.streamCount g rank 3 } [])

/-! ## The plan of a collective (R350, R354 to R356) -/

/-- A step that sends: the rank, and what it sends as (place, bytes, offset at the receiver). -/
structure SendStep where
  rank : Nat
  pieces : List (Nat × Nat × Nat)
  deriving DecidableEq, Repr

/-- What a step does with the bytes it receives: a reduction into block b (the last one there or not); a gather, whose offset o
lies at base + o / blk × stride + o mod blk; a placement in DST from base on. -/
inductive RecvAct where
  | reduce (b : Nat) (last : Bool)
  | gather (base blk stride : Nat)
  | place (base : Nat)
  deriving DecidableEq, Repr

structure RecvStep where
  rank : Nat
  act : RecvAct
  deriving DecidableEq, Repr

/-- Elements of a block. -/
def Coll.per (k : Coll) (g : Group) : Nat := k.count / g.size

/-- Bytes that n elements of a moved buffer take in SRC and in chunks (R350, R355). -/
def Coll.moved (k : Coll) (n : Nat) : Nat :=
  let f := Fmt.ofWord k.fmtIn
  if k.narrow then n / 1024 * f.packed else n * f.bits / 8

/-- Bytes of a gathered or broadcast block; places of the all-gather half of an ALLREDUCE start at 2^40. -/
def Coll.blkBytes (k : Coll) (g : Group) : Nat := if k.op = CollOp.broadcast then k.moved k.count else k.moved (k.per g)
def gatherPlace : Nat := 2 ^ 40
def Coll.outBlk (k : Coll) (g : Group) : Nat := k.per g * wideBytes k.wideOut

/-- The entries of a PTAB for a rank, in table order (R350). -/
def State.ptabFor (s : State) (k : Coll) (rank : Nat) : List (Nat × Nat × Nat) :=
  ((List.range (s.loadNat k.ptab 8)).map fun i =>
    let a := k.ptab + 8 + 24 * i
    (s.load64 a, s.loadNat (a + 8) 4, s.loadNat (a + 16) 4)).filterMap fun e =>
      if Bits.get e.1 63 48 = rank then some (Bits.get e.1 47 0, e.2.2, e.2.1) else none

/-- Steps that send, in order, by level: a flat operation has one, HIER two, which go on side by side (R356). -/
def State.sends (s : State) (g : Group) (k : Coll) : List (List SendStep) :=
  let n := g.size; let r := g.rank; let up := (r + 1) % n
  let scatter := (List.range (n - 1)).map fun t => (⟨up, [((r + 2 * n - 1 - t) % n * (4 * k.per g), 4 * k.per g, 0)]⟩ : SendStep)
  match k.op with
  | 2 => [scatter ++ (List.range (n - 1)).map fun t => ⟨up, [(gatherPlace + (r + n - t) % n * k.outBlk g, k.outBlk g, 0)]⟩]
  | 3 => [scatter]
  | 4 =>
    let w := k.blkBytes g
    if !g.hier then [(List.range (n - 1)).map fun t => ⟨up, [((r + n - t) % n * w, w, 0)]⟩]
    else
      let q := g.node; let m := n / max 1 q; let i := r % max 1 q; let c := r / max 1 q
      [(List.range (m - 1)).map fun t => ⟨(c + 1) % m * q + i, [(((c + m - t) % m * q + i) * w, w, 0)]⟩,
       (List.range (q - 1)).map fun t => ⟨c * q + (i + 1) % q, (List.range m).map fun y => let x := (c + m - y) % m; ((x * q + (i + q - t) % q) * w, w, x * w)⟩]
  | 5 =>
    let w := k.blkBytes g
    if !g.hier then [if (r + n - k.root) % n + 1 < n then [⟨up, [(0, w, 0)]⟩] else []]
    else
      let q := g.node; let m := n / max 1 q; let i := r % max 1 q; let c := r / max 1 q; let i0 := k.root % max 1 q; let c0 := k.root / max 1 q
      [if i = i0 && decide ((c + m - c0) % m + 1 < m) then [⟨(c + 1) % m * q + i, [(0, w, 0)]⟩] else [],
       if (i + q - i0) % q + 1 < q then [⟨c * q + (i + 1) % q, [(0, w, 0)]⟩] else []]
  | 6 => [(List.range (n - 1)).map fun t => let dst := (r + t + 1) % n; ⟨dst, s.ptabFor k dst⟩]
  | _ => [(List.range (n - 1)).map fun t => let dst := (r + t + 1) % n; ⟨dst, [(k.src + dst * k.blkBytes g, k.blkBytes g, 0)]⟩]

/-- Steps that receive, in order, by level: each level has its own intake stream (R356). -/
def Coll.recvs (k : Coll) (g : Group) : List (List RecvStep) :=
  let n := g.size; let r := g.rank; let dn := (r + n - 1) % n
  let scatter := (List.range (n - 1)).map fun t => (⟨dn, .reduce ((r + 2 * n - 2 - t) % n) (decide (t + 2 = n))⟩ : RecvStep)
  match k.op with
  | 2 => [scatter ++ (List.range (n - 1)).map fun t => ⟨dn, .gather (gatherPlace + (r + n - 1 - t) % n * k.outBlk g) (max 1 (k.outBlk g)) (k.outBlk g)⟩]
  | 3 => [scatter]
  | 4 =>
    let w := k.blkBytes g
    if !g.hier then [(List.range (n - 1)).map fun t => ⟨dn, .gather ((r + n - 1 - t) % n * w) (max 1 w) w⟩]
    else
      let q := g.node; let m := n / max 1 q; let i := r % max 1 q; let c := r / max 1 q
      [(List.range (m - 1)).map fun t => ⟨(c + m - 1) % m * q + i, .gather (((c + m - 1 - t) % m * q + i) * w) (max 1 w) w⟩,
       (List.range (q - 1)).map fun t => ⟨c * q + (i + q - 1) % q, .gather ((i + q - 1 - t) % q * w) (max 1 w) (q * w)⟩]
  | 5 =>
    let w := k.blkBytes g
    if !g.hier then [if r ≠ k.root then [⟨dn, .gather 0 (max 1 w) w⟩] else []]
    else
      let q := g.node; let m := n / max 1 q; let i := r % max 1 q; let c := r / max 1 q; let i0 := k.root % max 1 q; let c0 := k.root / max 1 q
      [if i = i0 && decide (c ≠ c0) then [⟨(c + m - 1) % m * q + i, .gather 0 (max 1 w) w⟩] else [],
       if i ≠ i0 then [⟨c * q + (i + q - 1) % q, .gather 0 (max 1 w) w⟩] else []]
  | 6 => [(List.range (n - 1)).map fun t => ⟨(r + n - 1 - t) % n, .place 0⟩]
  | _ => [(List.range (n - 1)).map fun t => let p := (r + n - 1 - t) % n; ⟨p, .place (p * k.blkBytes g)⟩]

/-- The step in which a level receives. -/
def Coll.recvNow (k : Coll) (g : Group) (lane : Nat) : Option RecvStep := ((k.recvs g)[lane]?).bind fun l => l[k.recvAt.getD lane 0]?

/-! ## Contributions and values (R354) -/

/-- Element i of the own contribution, as FP32, and whether it is poisoned. -/
def State.ownElem (s : State) (k : Coll) (i : Nat) : Nat × Bool :=
  let w := wideBytes k.wideIn
  let c := s.loadNat (k.src + i * w) w
  ((if k.wideIn = 0 then c * 2 ^ 16 else c), s.loadPoison (k.src + i * w) w)

/-- red of R354: a sum rounded once, or the larger or smaller value. -/
def redOp (red a b : Nat) : Nat × Bool :=
  match red with
  | 0 => let r := fpAdd fp32F a b; (r.code, r.sat)
  | 1 => (fpMax fp32F a b, false)
  | _ => (fpMin fp32F a b, false)

/-- The byte at a place that a step sends: none while the value has not come. -/
def State.collByte (s : State) (g : Group) (k : Coll) (pos : Nat) : Option (Byte × Bool) :=
  let kept := (KMap.find k.fwd pos).map fun b => (b, KMap.get false k.bad pos)
  match k.op with
  | 4 => if pos / max 1 (k.blkBytes g) = g.rank then let a := k.src + pos % max 1 (k.blkBytes g); some (s.byteAt a, s.poisonedAt a) else kept
  | 5 => if g.rank = k.root then some (s.byteAt (k.src + pos), s.poisonedAt (k.src + pos)) else kept
  | 6 => some (s.byteAt pos, s.poisonedAt pos)
  | 7 => some (s.byteAt pos, s.poisonedAt pos)
  | _ =>
    if pos < gatherPlace && decide (pos / max 1 (4 * k.per g) = (g.rank + g.size - 1) % g.size) then
      let (c, p) := s.ownElem k (pos / 4); some (BitVec.ofNat 8 (c / 256 ^ (pos % 4) % 256), p)
    else kept

/-- Where in memory the bytes at a place that a step sends are read from; values that came with chunks the courier holds. -/
def Coll.source (k : Coll) (g : Group) (pos : Nat) : Option Nat :=
  match k.op with
  | 4 => if pos / max 1 (k.blkBytes g) = g.rank then some (k.src + pos % max 1 (k.blkBytes g)) else none
  | 5 => if g.rank = k.root then some (k.src + pos) else none
  | 6 => some pos
  | 7 => some pos
  | _ => if pos < gatherPlace && decide (pos / max 1 (4 * k.per g) = (g.rank + g.size - 1) % g.size) then some (k.src + pos / 4 * wideBytes k.wideIn) else none

/-- A collective's read of its context's memory at the tollgates (R205). -/
def State.collRead (s : State) (k : Coll) (a n : Nat) : State := s.charge k.die (s.partOf k.ctx) a n false

def Coll.keep (k : Coll) (pos : Nat) (bs : List Byte) (bad : Bool) : Coll :=
  bs.zipIdx.foldl (fun k b => { k with fwd := KMap.insert (KMap.erase k.fwd (pos + b.2)) (pos + b.2) b.1, bad := KMap.set false k.bad (pos + b.2) bad }) k

/-! ## Receiving (R352, R354, R355) -/

/-- The first status other than OK is the collective's. -/
def State.collStatus (s : State) (num st : Nat) : State := s.mapColl num fun x => { x with status := if x.status = St.ok then st else x.status }

/-- A collective's write into its context's memory; one that may not be made is not, and its status is the collective's. -/
def State.collWrite (s : State) (k : Coll) (a : Nat) (bs : List Byte) (bad : Bool) : State :=
  let st := s.memCheckW k.ctx a bs.length
  if bs.isEmpty then s
  else if st ≠ St.ok then s.collStatus k.num st
  else (((s.storeMarked a bs fun _ => bad).charge k.die (s.partOf k.ctx) a bs.length true).wakeRange a bs.length).collStatus k.num (s.wrote a bs.length)

/-- Values of a gathered place that software sees in DST: as they are, or widened segment by segment (R355). -/
def State.collShow (s : State) (k : Coll) (pos : Nat) (bs : List Byte) (bad : Bool) : State :=
  if gatherPlace ≤ pos then s.collWrite k (k.dst + (pos - gatherPlace)) bs bad
  else if !k.narrow then s.collWrite k (k.dst + pos) bs bad
  else
    let f := Fmt.ofWord k.fmtIn
    let (g0, gn) := segSpan f pos bs.length
    (List.range gn).foldl (fun s i =>
      let sg := g0 + i
      match s.cr.colls.find? fun x => decide (x.num = k.num) with
      | none => s
      | some x =>
        if (List.range f.packed).all fun j => (KMap.find x.fwd (sg * f.packed + j)).isSome then
          let (codes, ev) := widenSeg f (wideOf k.wideOut) fun j => (KMap.find x.fwd (sg * f.packed + j)).getD 0
          let poison := (List.range f.packed).any fun j => KMap.get false x.bad (sg * f.packed + j)
          ((s.storeWide k.dst k.wideOut (f.rowMajor k.cols) (1024 * sg) codes poison).charge k.die (s.partOf k.ctx) k.dst (1024 * wideBytes k.wideOut) true).countWide k.die k.ctx k.fmtIn k.wideOut ev
        else s) s

/-- One element of a reduction: the FP32 sum so far and the own contribution. -/
def State.redElem (s : State) (k : Coll) (g : Group) (b i : Nat) (acc : Nat) : Nat × Bool × Bool :=
  let (x, p) := s.ownElem k (b * k.per g + i)
  let (v, sat) := redOp k.red acc x
  (v, sat, p)

/-- The bytes of a step at an offset, consumed. -/
def State.collApply (s : State) (g : Group) (k : Coll) (act : RecvAct) (off : Nat) (bs : List Byte) (bad : Bool) : State :=
  match act with
  | .place base => s.collWrite k (k.dst + base + off) bs bad
  | .gather base blk stride =>
    let pos := base + off / blk * stride + off % blk
    (s.mapColl k.num fun x => x.keep pos bs bad).collShow k pos bs bad
  | .reduce b last =>
    let w0 := wideBytes k.wideIn
    let s0 := s.collRead k (k.src + (b * k.per g + off / 4) * w0) (bs.length / 4 * w0)
    (List.range (bs.length / 4)).foldl (fun s j =>
      let acc := bytesNat ((bs.drop (4 * j)).take 4)
      let i := off / 4 + j
      let (v, sat, p) := s.redElem k g b i acc
      if !last then
        (s.countEvents k.die k.ctx fmtFP32 { Events.none with sat := if sat then 1 else 0 }).mapColl k.num fun x => x.keep (4 * (b * k.per g + i)) (natBytes 4 v) (bad || p)
      else
        let w := wideBytes k.wideOut
        let r := (wideOf k.wideOut).round (fp32v v)
        let s1 := s.countEvents k.die k.ctx (wideCode k.wideOut)
          { Events.none with sat := if sat || r.sat then 1 else 0, flush := if r.flush then 1 else 0, nanOut := if r.nan then 1 else 0 }
        let out := natBytes w r.code
        if k.op = CollOp.allreduce then
          let pos := gatherPlace + b * k.outBlk g + i * w
          (s1.mapColl k.num fun x => x.keep pos out (bad || p)).collShow k pos out (bad || p)
        else s1.collWrite k (k.dst + i * w) out (bad || p)) s0

/-- A running collective with its group. -/
def State.collOf (s : State) (num : Nat) : Option (Coll × Group) :=
  match s.cr.colls.find? fun k => decide (k.num = num) with
  | none => none
  | some k => (s.group k.die k.gid).map fun g => (k, g)

/-- Consumes the next landed chunk of the step in which a level receives: the state, and the rank whose stream moved (R352). -/
def State.consumeLane (s : State) (k : Coll) (g : Group) (lane : Nat) : Option (State × Nat) :=
  match k.recvNow g lane with
  | none => none
  | some st =>
    let e := s.streamCount g st.rank 2
    match KMap.find g.intake (st.rank * 2 ^ 32 + e) with
    | none => none
    | some ws =>
      let s1 := s.collApply g k st.act (Bits.get (wd ws 1) 31 0) (Pkt.bytes ws (wf ws 2 10 0)) (decide (Pkt.status ws = St.poisoned))
      let s2 := (s1.setStreamCount g st.rank 2 (e + 1)).setStreamCount g st.rank 3 (s1.streamCount g st.rank 3 + 1)
      let s3 := s2.mapGroup k.die k.gid fun x => { x with intake := KMap.erase x.intake (st.rank * 2 ^ 32 + e) }
      some (if (wd ws 2).getLsbD 15 then s3.mapColl k.num fun x => { x with recvAt := x.recvAt.modify lane (· + 1) } else s3, st.rank)

/-- Consumes the next landed chunk of either level. -/
def State.consumeChunk (s : State) (num : Nat) : Option (State × Nat) :=
  (s.collOf num).bind fun (k, g) => [0, 1].findSome? fun lane => s.consumeLane k g lane

/-- Consumes while it can: the ranks whose CONSUMED moved. -/
def State.consumeMany : Nat → State → Nat → List Nat → State × List Nat
  | 0, s, _, l => (s, l)
  | n + 1, s, num, l => match s.consumeChunk num with
    | none => (s, l)
    | some (s1, r) => State.consumeMany n s1 num (l ++ [r])

/-- The ranks that a collective receives from now, by level. -/
def State.recvRanks (s : State) (num : Nat) : List (Option Nat) :=
  match s.collOf num with
  | none => []
  | some (k, g) => [0, 1].map fun lane => (k.recvNow g lane).map (·.rank)

/-- Consumption of a collective, with one CREDIT to each stream that moved, and one to the sender of a step that starts (R351). -/
def State.consumeColl (s : State) (num : Nat) : State :=
  match s.collOf num with
  | none => s
  | some (_, g) =>
    let (s1, l) := State.consumeMany (g.intake.length + 1) s num []
    let next := ((s1.recvRanks num).zip (s.recvRanks num)).filterMap fun p => if p.1 = p.2 then none else p.1
    ((l ++ next).eraseDups).foldl (fun s r => s.sendCredit g r) s1

/-! ## Acceptance (R342, R348, R349, R359) -/

/-- A descriptor with an outcome: its record. -/
def State.collRecord (s : State) (d ctx : Nat) (ws : List W64) (st : Nat) : State :=
  s.portRecord d ctx (wf ws 5 47 0) st 0 (BitVec.ofNat 64 (wf ws 0 15 0))

/-- The members of a group to be opened, by rank. -/
def State.openMembers (s : State) (ctx : Nat) (ws : List W64) : Option (List Nat) :=
  let n := wf ws 1 47 32; let axis := wf ws 0 39 36
  if axis = 15 then some ((List.range n).map fun i => s.loadNat (wf ws 2 47 0 + 2 * i) 2)
  else match s.job ctx with
    | none => none
    | some j => if axis < j.sizes.length ∧ j.sizes.getD axis 0 = n then some ((List.range n).map fun i => s.mapDev j (j.coords.set axis i)) else none

/-- Reserved fields of OPEN. -/
def openReserved (ws : List W64) : Bool :=
  decide (wf ws 0 43 41 ≠ 0 ∨ wf ws 2 63 48 ≠ 0 ∨ wf ws 3 63 48 ≠ 0 ∨ wd ws 4 ≠ 0 ∨ wf ws 5 63 48 ≠ 0 ∨ wd ws 6 ≠ 0 ∨ wd ws 7 ≠ 0)

/-- The outcome of OPEN (R348), and the state. -/
def State.openGroup (s : State) (d ctx : Nat) (ws : List W64) : Nat × State :=
  let n := wf ws 1 47 32; let rank := wf ws 1 31 16; let node := wf ws 1 15 8; let window := wf ws 1 7 0
  let axis := wf ws 0 39 36; let ch := wf ws 0 35 32; let hier := (wd ws 0).getLsbD 40; let gid := wf ws 0 31 16
  let stateA := wf ws 3 47 0
  if openReserved ws || decide (n < 2 ∨ 4096 < n ∨ n ≤ rank ∨ window = 0 ∨ 64 < window ∨ 3 < ch) || !(decide (axis < 4 ∨ axis = 15)) ||
     (if hier then decide (node = 0 ∨ n % max 1 node ≠ 0) else decide (node ≠ 1)) || (s.group d gid).isSome ||
     decide (64 ≤ (s.cr.groups.filter fun g => decide (g.die = d)).length) then (St.protocolErr, s)
  else
    let ms := if axis = 15 then s.memCheck ctx (wf ws 2 47 0) (2 * n) else St.ok
    if ms ≠ St.ok then (ms, s) else
    match s.openMembers ctx ws with
    | none => (St.protocolErr, s)
    | some mem =>
      if mem.getD rank 0 ≠ s.self then (St.protocolErr, s)
      else if ch ≠ 0 && (mem.any fun m => decide (m ≠ s.self) && routeV2 (s.route s.inj m)) then (St.versionLimit, s)
      else
        let chk := s.memCheckW ctx stateA (16 * n)
        let st := if chk ≠ St.ok then chk else s.wrote stateA (16 * n)
        if st ≠ St.ok then (st, s) else
        let g : Group := { die := d, gid := gid, ctx := ctx, members := mem, rank := rank, node := node, window := window, chunk := 128 * 2 ^ ch, state := stateA, hier := hier, lepoch := wf ws 1 63 48, failed := false, heard := [], intake := [] }
        if 2 ^ 22 < s.intakeKept d + g.intakeBytes then (St.collNobuf, s.setErr (Pg.crr d) F.crrErrStatNobuf ctx)
        else (St.ok, ((s.storeNat stateA (16 * n) 0).withCr { s.cr with groups := s.cr.groups ++ [g] }))

/-- Reserved fields of a collective. -/
def collReserved (ws : List W64) : Bool :=
  decide (wf ws 0 40 32 ≠ 0 ∨ wf ws 3 63 48 ≠ 0 ∨ wf ws 4 63 48 ≠ 0 ∨ wf ws 5 63 48 ≠ 0 ∨ wf ws 6 31 0 ≠ 0 ∨ wf ws 7 63 48 ≠ 0)

/-- Bytes that n elements take in DST. -/
def Coll.outBytes (k : Coll) (n : Nat) : Nat :=
  if k.op = CollOp.permute then n else if k.reduces || k.narrow then n * wideBytes k.wideOut else k.moved n

/-- Reserved fields of the words that CLOSE uses (R349). -/
def closeReserved (ws : List W64) : Bool := decide (wf ws 0 43 41 ≠ 0 ∨ wf ws 5 63 48 ≠ 0)

def wideFmt (w : Nat) : Bool := let f := Fmt.ofWord w; decide (f.check = St.ok ∧ (f.fmt = fmtBF16 ∨ f.fmt = fmtFP32))

/-- The status of a collective at acceptance (R349, R350, R355, R356, R359): OK if it may run. -/
def State.collCheck (s : State) (k : Coll) : Nat :=
  let f := Fmt.ofWord k.fmtIn
  if outOfSvc (s.crrState k.die) then St.engineFenced else
  match s.group k.die k.gid with
  | none => St.protocolErr
  | some g =>
    let n := g.size
    if g.ctx ≠ k.ctx || g.failed || collReserved k.words || decide (k.op < 2 ∨ 7 < k.op) || decide (k.count = 0 ∨ k.count % n ≠ 0 ∨ n ≤ k.root) then St.protocolErr
    else if (if k.reduces then decide (k.red = 3) else decide (k.red ≠ 0)) || ((k.narrow || g.hier) && decide (k.op ≠ 4 ∧ k.op ≠ 5)) then St.protocolErr
    else if k.reduces && !(wideFmt k.fmtIn && wideFmt k.fmtOut) then St.fmtUnsupported
    else if k.narrow && decide (f.check ≠ St.ok) then f.check
    else if k.narrow && (decide (fmtF8W < f.fmt) || !wideFmt k.fmtOut || decide (k.count % (n * 1024) ≠ 0 ∨ k.cols = 0 ∨ k.cols % f.blkW ≠ 0) ||
        (f.square && decide (k.count % k.cols ≠ 0 ∨ k.count / max 1 k.cols % f.blkH ≠ 0))) then St.protocolErr
    else if !k.reduces && k.op ≠ CollOp.permute && decide (f.check ≠ St.ok) then f.check
    else if 2 ^ 32 < k.outBytes k.count ∨ (k.op ≠ CollOp.permute ∧ 2 ^ 32 < k.moved k.count) then St.protocolErr
    else if k.lepoch < KMap.get 0 s.cr.layout k.ctx ∨ k.lepoch < g.lepoch then St.layoutStale
    else St.ok

/-- The look-up of a collective at issue (R319): the first of the members it sends to that has no route, or none that carries a NARROW
payload, decides. A chunk formed later under a table without the route is dropped on its way, and timed out. -/
def State.collLookup (s : State) (k : Coll) : Nat × State :=
  match s.group k.die k.gid with
  | none => (St.ok, s)
  | some g => (((s.sends g k).flatMap fun l => l.map (·.rank)).eraseDups).foldl (fun r rank =>
      if r.1 ≠ St.ok ∨ g.members.getD rank 0 = s.self then r else r.2.lookup (g.members.getD rank 0) k.narrow) (St.ok, s)

/-- CLOSE takes effect once no collective of its group is left (R348). -/
def State.closeDue (s : State) (d : Nat) : State :=
  (s.cr.colls.filter fun k => decide (k.die = d ∧ k.op = CollOp.close)).foldl (fun s k =>
    if s.cr.colls.any fun x => decide (x.die = d ∧ x.gid = k.gid ∧ x.op ≠ CollOp.close) then s
    else (s.dropGroups fun g => decide (g.die = d ∧ g.gid = k.gid)).endColl k St.ok 0) s

/-- rcoll (R342): the descriptor at RS2 goes to the courier of the core's die. -/
def State.rcoll (s : State) (c rd rs2 : Nat) : State :=
  if !s.coreRuns c then s
  else if 340 ≤ c then s.illegal c
  else s.newWork c rd <|
    let d := slotDie c; let ctx := s.coreCtx c
    if 32 ≤ (s.cr.colls.filter fun k => decide (k.die = d ∧ k.running = false)).length then s.retSt c rd St.queueFull
    else
      let ws0 := s.scratchWords c (s.g c rs2).toNat 8
      let ws := ws0.set 0 (Bits.put (wd ws0 0) 55 48 ctx)
      let k : Coll := { num := s.cr.next, die := d, ctx := ctx, words := ws, running := false, sendAt := [(0, 0), (0, 0)], recvAt := [0, 0], fwd := [], bad := [], flown := [], status := St.ok }
      let s1 := (s.retSt c rd St.ok).withCr { s.cr with next := s.cr.next + 1 }
      if wf ws 0 63 56 ≠ 0x40 then s1.collRecord d ctx ws St.protocolErr
      else if k.op = CollOp.open_ then
        if outOfSvc (s1.crrState d) then s1.collRecord d ctx ws St.engineFenced
        else let (st, s2) := s1.openGroup d ctx ws; s2.collRecord d ctx ws st
      else if k.op = CollOp.close then
        match s1.group d k.gid with
        | none => s1.collRecord d ctx ws St.protocolErr
        | some g => if g.ctx ≠ ctx || closeReserved ws then s1.collRecord d ctx ws St.protocolErr
          else (s1.withCr { s1.cr with colls := s1.cr.colls ++ [k] }).closeDue d
      else
        let chk := s1.collCheck k
        let (st, sl) := if chk ≠ St.ok then (chk, s1) else s1.collLookup k
        if st ≠ St.ok then sl.collRecord d ctx ws st
        else
          let s2 := sl.withCr { sl.cr with colls := sl.cr.colls ++ [k] }
          if k.op = CollOp.permute && decide (KMap.get 0 s2.cr.layout ctx < k.lepoch) then (s2.withCr { s2.cr with layout := KMap.set 0 s2.cr.layout ctx k.lepoch }) else s2

def execCollOpen (c : CoreNo) (rd rs2 : Gpr) (s : State) : Host.Outcome State Fault Refusal := .next (s.rcoll c rd rs2)

def execCollClose (c : CoreNo) (rd rs2 : Gpr) (s : State) : Host.Outcome State Fault Refusal := .next (s.rcoll c rd rs2)

def execAllreduce (c : CoreNo) (rd rs2 : Gpr) (s : State) : Host.Outcome State Fault Refusal := .next (s.rcoll c rd rs2)

def execReduceScatter (c : CoreNo) (rd rs2 : Gpr) (s : State) : Host.Outcome State Fault Refusal := .next (s.rcoll c rd rs2)

def execAllgather (c : CoreNo) (rd rs2 : Gpr) (s : State) : Host.Outcome State Fault Refusal := .next (s.rcoll c rd rs2)

def execBroadcast (c : CoreNo) (rd rs2 : Gpr) (s : State) : Host.Outcome State Fault Refusal := .next (s.rcoll c rd rs2)

def execPermute (c : CoreNo) (rd rs2 : Gpr) (s : State) : Host.Outcome State Fault Refusal := .next (s.rcoll c rd rs2)

def execAlltoall (c : CoreNo) (rd rs2 : Gpr) (s : State) : Host.Outcome State Fault Refusal := .next (s.rcoll c rd rs2)

/-! ## Start (R349, R359) -/

/-- Whether a queued collective may start: alone in its group, a courier runs at most 8, and a PERMUTE waits for every collective of its
context with a lower LEPOCH. -/
def State.mayStart (s : State) (k : Coll) : Bool :=
  !k.running && decide (k.op ≠ CollOp.close) && decide ((s.cr.colls.filter fun x => decide (x.die = k.die ∧ x.running = true)).length < 8) &&
  !(s.cr.colls.any fun x => decide (x.die = k.die ∧ x.gid = k.gid ∧ x.num < k.num ∧ x.op ≠ CollOp.close)) &&
  !(decide (k.op = CollOp.permute) && s.cr.colls.any fun x => decide (x.ctx = k.ctx ∧ x.op ≠ CollOp.close ∧ x.lepoch < k.lepoch))

/-- What a collective reads and writes of its context's memory: address, bytes, whether it writes. -/
def State.collRanges (s : State) (g : Group) (k : Coll) : List (Nat × Nat × Bool) :=
  let full := k.moved k.count; let inB := k.count * wideBytes k.wideIn
  match k.op with
  | 2 => [(k.src, inB, false), (k.dst, k.outBytes k.count, true)]
  | 3 => [(k.src, inB, false), (k.dst, k.outBytes (k.per g), true)]
  | 4 => [(k.src, k.moved (k.per g), false), (k.dst, k.outBytes k.count, true)]
  | 5 => (if g.rank = k.root then [(k.src, full, false)] else []) ++ [(k.dst, k.outBytes k.count, true)]
  | 6 => [(k.ptab, 8 + 24 * s.loadNat k.ptab 8, false), (k.dst, k.count, true)] ++ ((List.range g.size).flatMap fun r => (s.ptabFor k r).map fun e => (e.1, e.2.1, false))
  | _ => [(k.src, full, false), (k.dst, full, true)]

def State.collMemCheck (s : State) (g : Group) (k : Coll) : Nat :=
  (s.collRanges g k).foldl (fun st r => if st ≠ St.ok ∨ r.2.1 = 0 then st else if r.2.2 then s.memCheckW k.ctx r.1 r.2.1 else s.memCheck k.ctx r.1 r.2.1) St.ok

/-- Own bytes that go from memory to memory, in parts of a chunk: each is read, and handed on with its poison. -/
def State.collCopy (s : State) (g : Group) (k : Coll) (src n : Nat) (put : State → Nat → List Byte → Bool → State) : State :=
  (cuts g.chunk n 0 n).foldl (fun (s : State) c =>
    put (s.collRead k (src + c.1) c.2) c.1 ((List.range c.2).map fun i => s.byteAt (src + c.1 + i)) (s.loadPoison (src + c.1) c.2)) s

/-- The own part of a result, which no chunk brings: the own block of a gather, SRC at the root, the own entries of a PERMUTE. -/
def State.collOwn (s : State) (g : Group) (k : Coll) : State :=
  let gathered := fun base => s.collCopy g k k.src (k.blkBytes g) fun s o bs bad => (s.mapColl k.num fun x => x.keep (base + o) bs bad).collShow k (base + o) bs bad
  match k.op with
  | 4 => gathered (g.rank * k.blkBytes g)
  | 5 => if g.rank = k.root then gathered 0 else s
  | 6 => (s.ptabFor k g.rank).foldl (fun s e => s.collCopy g k e.1 e.2.1 fun s o bs bad => s.collWrite k (k.dst + e.2.2 + o) bs bad) s
  | 7 =>
    let at_ := g.rank * k.blkBytes g
    s.collCopy g k (k.src + at_) (k.blkBytes g) fun s o bs bad => s.collWrite k (k.dst + at_ + o) bs bad
  | _ => s

def execCollStart (d : Met Die) (s0 : State) : Host.Outcome State Fault Refusal :=
  let s := s0.meet d.hits
  match s.cr.colls.find? fun k => decide (k.die = d.arg.val) && s.mayStart k && !outOfSvc (s.crrState d.arg) && !s.inReset [(6, d.arg)] && s.mayRun (6, d.arg) k.ctx with
  | none => .next s0
  | some k => match s.group d.arg k.gid with
    | none => .next s
    | some g =>
      let st := s.collMemCheck g k
      if st ≠ St.ok then .next ((s.endColl k st 0).closeDue d.arg)
      else
        let s1 := s.mapColl k.num fun x => { x with running := true }
        let s2 := (if k.op = CollOp.permute then s1.collRead k k.ptab (8 + 24 * s1.loadNat k.ptab 8) else s1).collOwn g { k with running := true }
        let s3 := (s2.recvRanks k.num).foldl (fun s r => match r with | some r => s.sendCredit g r | none => s) s2
        .next (s3.consumeColl k.num)

/-! ## Sending (R351) -/

/-- The piece that holds offset o of a step: its place there, what is left of it, and the offset at the receiver. -/
def pieceAt : List (Nat × Nat × Nat) → Nat → Option (Nat × Nat × Nat)
  | [], _ => none
  | (pos, len, off) :: t, o => if o < len then some (pos + o, len - o, off + o) else pieceAt t (o - len)

/-- A chunk that may be sent next: level, rank, offset at the receiver, bytes with poison, where in memory they are read, and whether it
is the last of its step. -/
structure ChunkDue where
  lane : Nat
  rank : Nat
  off : Nat
  bytes : List (Byte × Bool)
  source : Option Nat
  last : Bool
  deriving DecidableEq, Repr

/-- The next chunk of a level of a collective: none while its values have not come. -/
def State.chunkDue (s : State) (g : Group) (k : Coll) (lane : Nat) : Option ChunkDue :=
  let now := k.sendAt.getD lane (0, 0)
  match ((s.sends g k)[lane]?).bind fun l => l[now.1]? with
  | none => none
  | some st =>
    let total := st.pieces.foldl (fun n p => n + p.2.1) 0
    match pieceAt st.pieces now.2 with
    | none => some ⟨lane, st.rank, 0, [], none, true⟩
    | some (pos, left, off) =>
      let n := min g.chunk left
      let bs := (List.range n).map fun i => s.collByte g k (pos + i)
      if bs.all (·.isSome) then some ⟨lane, st.rank, off, bs.filterMap id, k.source g pos, decide (now.2 + n = total)⟩ else none

/-- Bytes of memory that n bytes of a chunk were read from: a reduction sends its contribution widened to FP32. -/
def Coll.sourceBytes (k : Coll) (n : Nat) : Nat := if k.reduces then n / 4 * wideBytes k.wideIn else n

/-- Sends the next chunk of a level, where the window, a CREDIT heard and a reply slot allow. -/
def State.sendLane (s : State) (g : Group) (k : Coll) (lane : Nat) : Option State :=
  match s.chunkDue g k lane with
  | none => none
  | some c =>
    let sent := s.streamCount g c.rank 0; let heard := s.streamCount g c.rank 1
    if !(g.heard.contains c.rank && decide ((2 ^ 32 + sent - heard) % 2 ^ 32 < g.window)) then none else
    match s.claimSlot k.die k.ctx (.chunk g.gid c.rank sent) with
    | none => none
    | some (slot, s1) =>
      let dev := g.members.getD c.rank 0; let n := c.bytes.length
      let ws := mkPkt { s1.head dev 3 Op.chunk with
        unord := s1.unordTo dev true, slot := slot % 4096, gen := (s1.slot slot).gen, addr := g.gid * 2 ^ 32 + c.off % 2 ^ 32, seq := sent
        len := n + (if c.last then 2 ^ 15 else 0), status := (if c.bytes.any (·.2) then St.poisoned else St.ok) } (bytesWords (c.bytes.map (·.1)))
      let s2 := s1.mapColl k.num fun x => { x with
        flown := x.flown ++ [⟨c.rank, sent, ws, 0⟩], sendAt := x.sendAt.modify lane fun a => if c.last then (a.1 + 1, 0) else (a.1, a.2 + n) }
      let s3 := s2.setStreamCount g c.rank 0 (sent + 1)
      some ((match c.source with | some a => s3.collRead k a (k.sourceBytes n) | none => s3).post k.die ws)

/-- Sends the next chunk of a collective. -/
def State.sendChunk (s : State) (k : Coll) : Option State :=
  (s.group k.die k.gid).bind fun g => [0, 1].findSome? fun lane => s.sendLane g k lane

/-- The first running collective of the courier that can send a chunk sends it. -/
def execCollChunkSend (d : Met Die) (s0 : State) : Host.Outcome State Fault Refusal :=
  let s := s0.meet d.hits
  if outOfSvc (s.crrState d.arg) || s.inReset [(6, d.arg)] then .next s0 else
  .next (((s.cr.colls.filter fun k => decide (k.die = d.arg.val) && k.running && s.mayRun (6, d.arg) k.ctx).findSome? fun k => s.sendChunk k).getD s)

/-! ## Chunks and credits that arrive (R351, R352) -/

/-- A packet of a group belongs to a die whose courier has a group of that GID with the sender; one of no group to any die. -/
def State.groupOf (s : State) (d : Nat) (ws : List W64) : Option Group :=
  s.cr.groups.find? fun g => decide (g.die = d ∧ g.gid = Bits.get (wd ws 1) 47 32) && g.members.contains (Pkt.src ws)

def State.forDie (s : State) (d : Nat) (ws : List W64) : Bool := (s.groupOf d ws).isSome || ((List.range 4).all fun x => (s.groupOf x ws).isNone)

def State.takeGroup (s : State) (d op : Nat) : Option (List W64 × State) :=
  match s.net.sunk.find? fun h => decide (Pkt.op h.words = op) && s.forDie d h.words with
  | some h => some (h.words, (s.withNet { s.net with sunk := s.net.sunk.erase h }))
  | none => none

/-- A difference of 32-bit counts, signed. -/
def seqDiff (a b : Nat) : Int := Bits.signed 32 ((2 ^ 32 + a - b % 2 ^ 32) % 2 ^ 32)

/-- The running collective of a group. -/
def State.runningOf (s : State) (d gid : Nat) : Option Coll := s.cr.colls.find? fun k => decide (k.die = d ∧ k.gid = gid) && k.running

def execChunkRecv (d : Met Die) (s0 : State) : Host.Outcome State Fault Refusal :=
  let s := s0.meet d.hits
  match s.takeGroup d.arg Op.chunk with
  | none => .next s0
  | some (ws, s1) => match s1.groupOf d.arg ws with
    | none => .next (s1.setErr (Pg.crr d.arg) F.crrErrStatNogroup 0)
    | some g =>
      let rank := g.members.idxOf (Pkt.src ws)
      let e := s1.streamCount g rank 2
      let diff := seqDiff (Pkt.seq ws) e
      let key := rank * 2 ^ 32 + Pkt.seq ws
      if decide (diff < 0) || (KMap.find g.intake key).isSome then .next ((s1.addFld (Pg.crr d.arg) F.crrCntDup 1).ack d.arg ws St.ok)
      else if (g.window : Int) ≤ diff then .next (s1.setErr (Pg.crr d.arg) F.crrErrStatGap g.ctx)
      else
        let s2 := (s1.mapGroup d.arg g.gid fun x => { x with intake := KMap.insert x.intake key ws }).ack d.arg ws St.ok
        .next (match s2.runningOf d.arg g.gid with | some k => s2.consumeColl k.num | none => s2)

def execCollCreditRecv (d : Die) (s : State) : Host.Outcome State Fault Refusal :=
  match s.takeGroup d Op.credit with
  | none => .next s
  | some (ws, s1) => match s1.groupOf d ws with
    | none => .next s1
    | some g =>
      let rank := g.members.idxOf (Pkt.src ws)
      let s2 := s1.mapGroup d g.gid fun x => { x with heard := if x.heard.contains rank then x.heard else x.heard ++ [rank] }
      .next (if 0 ≤ seqDiff (Pkt.seq ws) (s2.streamCount g rank 1) then s2.setStreamCount g rank 1 (Pkt.seq ws) else s2)

/-! ## The end of a collective (R349) -/

def State.collDone (s : State) (k : Coll) : Bool :=
  match s.group k.die k.gid with
  | none => false
  | some g => 
    k.running && ((s.sends g k).zipIdx.all fun l => decide (l.1.length ≤ (k.sendAt.getD l.2 (0, 0)).1)) &&
    ((k.recvs g).zipIdx.all fun l => decide (l.1.length ≤ k.recvAt.getD l.2 0)) && k.flown.isEmpty

def execCollComplete (d : Die) (s : State) : Host.Outcome State Fault Refusal :=
  match s.cr.colls.find? fun k => decide (k.die = d.val) && s.collDone k with
  | none => .next s
  | some k =>
    let n := match s.group d k.gid with | some g => if k.op = CollOp.reduceScatter then k.outBytes (k.per g) else k.outBytes k.count | none => 0
    .next ((s.endColl k k.status (if k.status = St.ok then n else 0)).closeDue d)

/-! ## Replies and timeouts (R325, R347, R353) -/

/-- The device an owner of a slot expects its reply from. -/
def State.ownerDev (s : State) (d : Nat) (o : Owner) : Option Nat :=
  match o with
  | .porter num _ _ => (s.net.ops.find? fun x => decide (x.num = num)).map (·.answerer)
  | .chunk gid rank _ => (s.group d gid).map fun g => g.members.getD rank 0

/-- Whether a reply meets a slot in use on a die, of its GEN (R325); the device tells equal slots of different dies apart (log 39). -/
def State.replyMeets (s : State) (d : Nat) (ws : List W64) : Bool :=
  let x := s.slot (4096 * d + Pkt.slot ws)
  decide (x.gen = Pkt.gen ws) && (match x.use with
    | some u => (match s.ownerDev d u.2 with | some dev => decide (dev = Pkt.src ws) || decide (Pkt.status ws ≠ St.ok) | none => true)
    | none => false)

def isReply (ws : List W64) : Bool := decide (Pkt.op ws = Op.ack ∨ Pkt.op ws = Op.data)

/-- The first reply for a slot of the die; one that no die's slot meets is discarded and counted. -/
def execReplyRecv (d : Met Die) (s0 : State) : Host.Outcome State Fault Refusal :=
  let s := s0.meet d.hits
  match s.net.sunk.find? fun h => isReply h.words && (s.replyMeets d.arg h.words || ((List.range 4).all fun x => !s.replyMeets x h.words)) with
  | none => .next s0
  | some h =>
    let s1 := s.withNet { s.net with sunk := s.net.sunk.erase h }
    if !s.replyMeets d.arg h.words then .next (s1.addFld Pg.rte F.rteDropbRpl 1) else
    let k := 4096 * d.arg.val + Pkt.slot h.words
    let s2 := s1.setSlot k ⟨(s.slot k).gen, none⟩
    match (s.slot k).use with
    | some (_, .porter num off len) => .next ((s2.answered num off len h.words).formAll d.arg)
    | some (_, .chunk gid rank seq) =>
      .next ((s2.withCr { s2.cr with colls := s2.cr.colls.map fun (x : Coll) => if x.die = d.arg.val ∧ x.gid = gid then { x with flown := x.flown.filter fun f => decide (f.rank ≠ rank ∨ f.seq ≠ seq) } else x }).formAll d.arg)
    | none => .next s2

/-- A chunk is sent again, the same but for slot and epoch (R353). -/
def State.resendChunk (s : State) (k : Coll) (f : Flown) : State :=
  match s.claimSlot k.die k.ctx (.chunk k.gid f.rank f.seq) with
  | none => s
  | some (slot, s1) =>
    let ws := mkPkt { s1.head (Pkt.dst f.words) 3 Op.chunk with
      unord := s1.unordTo (Pkt.dst f.words) true, slot := slot % 4096, gen := (s1.slot slot).gen, addr := Pkt.addr f.words, seq := f.seq, len := Pkt.len f.words, status := Pkt.status f.words } (f.words.drop 4)
    (s1.mapColl k.num fun x => { x with flown := x.flown.map fun y => if y.rank = f.rank ∧ y.seq = f.seq then { y with words := ws, timeouts := y.timeouts + 1 } else y }).addFld (Pg.crr k.die) F.crrCntReissue 1 |>.post k.die ws

/-- A chunk exhausts RETRY: the collective ends, the group accepts only CLOSE, the context is aborted with cause REMOTE (R353, R413). -/
def State.retryFail (s : State) (k : Coll) : State :=
  let s1 := (s.setErr (Pg.crr k.die) F.crrErrStatRetryFail k.ctx).endColl k St.remoteTimeout 0
  ((s1.mapGroup k.die k.gid fun g => { g with failed := true }).abortFor k.ctx Cause.remote).closeDue k.die

/-- REQ_TMO of a slot in use expires (R325): GEN advances, the slot is free, the loss is counted. -/
def execRemoteTimeout (d : Die) (slot : Fin 4096) (s : State) : Host.Outcome State Fault Refusal :=
  let k := 4096 * d.val + slot.val
  match (s.slot k).use with
  | none => .next s
  | some (_, .porter num _ _) => .next (((s.expireSlot k).timedOut num).formAll d)
  | some (_, .chunk gid rank seq) =>
    let s1 := (s.expireSlot k).addFld Pg.rte F.rteTmoCount 1
    match s1.cr.colls.find? fun x => decide (x.die = d.val ∧ x.gid = gid) && x.flown.any fun f => decide (f.rank = rank ∧ f.seq = seq) with
    | none => .next s1
    | some c => match c.flown.find? fun f => decide (f.rank = rank ∧ f.seq = seq) with
      | none => .next s1
      | some f => .next (if f.timeouts + 1 < s1.fld (Pg.crr d) F.crrCfgRetry then s1.resendChunk c f else s1.retryFail c)

/-! ## The courier's page (R357, R363) -/

def crrKey (d : Nat) : Nat := unitKey (Pg.crr d) 0

/-- A fenced courier closes its groups and ends every collective with ENGINE_FENCED (R357). -/
def State.fenceCrr (s : State) (d cause : Nat) : State :=
  if outOfSvc (s.crrState d) then s else
  let s1 := s.fenceEngine d (Pg.crr d) F.crrStatState (crrKey d) cause
  let s2 := (s1.cr.colls.filter fun k => decide (k.die = d)).foldl (fun s k => s.endColl k St.engineFenced 0) s1
  (s2.dropGroups fun g => decide (g.die = d)).agentFenced (336 + d)

def execCrrFence (d : Die) (s : State) : Host.Outcome State Fault Refusal := .next (s.fenceCrr d 7)

def execCrrSelftest (d : Die) (s : State) : Host.Outcome State Fault Refusal := .next (s.startSelftest (Pg.crr d) F.crrStatState)

def execCrrSelftestDone (d : Die) (pass : Bool) (s : State) : Host.Outcome State Fault Refusal := .next (s.endSelftest (Pg.crr d) F.crrStatState pass)

def execCrrReadmit (d : Die) (s : State) : Host.Outcome State Fault Refusal := .next (s.readmit (Pg.crr d) F.crrStatState (crrKey d))

def execCrrCntRead (d : Die) (s : State) : Host.Outcome State Fault Refusal := .next (s.readClear (Pg.crr d + 0x108) (BitVec.allOnes 64))

/-! ## Job admission (R340, R341) -/

namespace JobCmd
def naxes (ws : List W64) : Nat := wf ws 0 47 44
def sizes (ws : List W64) : List Nat := (List.range (naxes ws)).map fun a => wf ws 1 (16 * a + 15) (16 * a)
def coords (ws : List W64) : List Nat := (List.range (naxes ws)).map fun a => wf ws 2 (16 * a + 15) (16 * a)
def cuts (ws : List W64) : List Nat := (List.range (naxes ws)).map fun a => wf ws 5 (4 * a + 3) (4 * a)
def wrap (ws : List W64) : List Bool := (List.range (naxes ws)).map fun a => (wd ws 0).getLsbD (40 + a)
def map (ws : List W64) : Nat := wf ws 3 47 0
def result (ws : List W64) : Nat := wf ws 4 47 0
def job (ws : List W64) : Job := ⟨wrap ws, sizes ws, coords ws, cuts ws, map ws⟩
def points (ws : List W64) : Nat := (sizes ws).foldl (· * ·) 1
def reserved (ws : List W64) : Bool :=
  decide (wf ws 0 39 0 ≠ 0 ∨ wf ws 3 63 48 ≠ 0 ∨ wf ws 4 63 48 ≠ 0 ∨ wf ws 5 63 16 ≠ 0) || (ws.drop 6).any fun w => decide (w ≠ 0)
end JobCmd

/-- The version whose entries count as active (R340): the one that packets are formed in. -/
def State.present (s : State) (dev : Nat) : Bool :=
  decide (dev = s.self) ||
  (let e := s.route s.inj dev
   routeValid e && decide (s.verState s.inj = Ver.active) &&
     (decide (routePrim e < 24 ∧ s.lnk (routePrim e) = Lk.routed) || (List.range 24).any fun p => (routeMask e).testBit p && decide (s.lnk p = Lk.routed)))

/-- The neighbours that are missing. -/
def State.missing (s : State) (ws : List W64) : List (Nat × Nat × Nat) := (s.neighbours (JobCmd.job ws)).filter fun n => !s.present n.2.2

/-- The outcome of job admission. -/
def State.jobCheck (s : State) (ctx : Nat) (ws : List W64) : Nat :=
  let j := JobCmd.job ws
  if JobCmd.reserved ws || decide (JobCmd.naxes ws < 1 ∨ 4 < JobCmd.naxes ws) || (j.sizes.any fun n => decide (n < 1 ∨ 4096 < n)) || (j.cuts.any fun c => decide (3 < c)) ||
     decide (j.cuts.eraseDups.length ≠ j.cuts.length) || decide (65536 < JobCmd.points ws) || ((j.sizes.zip j.coords).any fun p => decide (p.1 ≤ p.2)) ||
     decide (s.mapDev j j.coords ≠ s.self) then St.protocolErr
  else if s.memCheck ctx (JobCmd.map ws) (2 * JobCmd.points ws) ≠ St.ok ∨ s.memCheckW ctx (JobCmd.result ws) 512 ≠ St.ok then St.partViolation
  else if !(s.missing ws).isEmpty then St.topoShort
  else St.ok

/-- Word 0 counts the missing neighbours; 63 more words list them (R341). -/
def State.shortBlock (s : State) (ws : List W64) : List W64 :=
  let l := s.missing ws
  BitVec.ofNat 64 l.length :: (List.range 63).map fun i => match l[i]? with | some (a, dir, dev) => Bits.make [(63, 48, dev), (7, 4, a), (0, 0, dir)] | none => 0

def execJobAdmission (q : Fin 256) (s : State) : Host.Outcome State Fault Refusal :=
  match s.nextCmd q with
  | none => .next s
  | some k =>
    if !k.echoed || decide (wf k.words 0 63 56 ≠ 0x30) then .next s else
    let s0 := s.markDispatched q k.seq
    let st := s0.jobCheck k.ctx k.words
    let s1 := if st = St.topoShort then s0.storeWords (JobCmd.result k.words) (s0.shortBlock k.words)
      else if st = St.ok then (s0.withNet { s0.net with jobs := KMap.set none s0.net.jobs k.ctx (some (JobCmd.job k.words)) }) else s0
    .next ((s1.finCmd q k.seq st 0).pump q)

end Sys2Proof.Machine
end

