-- ==== Sys2Proof/Machine/Ledger.lean ====
section
/-! DEFINITION. The ledger and checkpoints (R430 to R444): seals, the mirror, the generator's step, the cost and interval of
checkpoints. -/

namespace Sys2Proof.Machine

/-! ## The page (R453) -/

/-- The registers of a context on the LDG page. -/
def ldgPg (ctx : Nat) : Nat := bank ctx Pg.ldg
def State.lsel (s : State) : Nat := s.fld Pg.ldg F.ldgLselCtx
def noStep : Nat := 2 ^ 64 - 1

def State.ldgValid (s : State) (ctx : Nat) : Bool := s.bitF (ldgPg ctx) F.ldgGeomValid
def State.ldgSlotBytes (s : State) (ctx : Nat) : Nat := s.fld (ldgPg ctx) F.ldgGeomSlotsz * 4096
def State.ldgNrec (s : State) (ctx : Nat) : Nat := max 1 (s.fld (ldgPg ctx) F.ldgGeomNrec)
def State.ldgBase (s : State) (ctx : Nat) : Nat := s.fld (ldgPg ctx) F.ldgBaseBase * 4096
def State.ldgSlot (s : State) (ctx step : Nat) : Nat := s.ldgBase ctx + step % s.ldgNrec ctx * s.ldgSlotBytes ctx
def State.ldgMirrorOn (s : State) (ctx : Nat) : Bool := s.bitF (ldgPg ctx) F.ldgMirrorMen
def State.ldgLast (s : State) (ctx : Nat) : Nat := s.fld (ldgPg ctx) F.ldgLastStep

/-- A ring that lies in stack or LPDDR memory of its context's partition (R433, R453). -/
def State.ringOk (s : State) (ctx : Nat) : Bool :=
  let n := s.ldgNrec ctx * s.ldgSlotBytes ctx
  decide (0 < n ∧ s.ldgBase ctx + n ≤ 0xF00000000000 ∧ s.memCheck ctx (s.ldgBase ctx) n = St.ok)

/-- A write of LDG.GEOM (R453, R500): closing keeps the other fields; opening checks the ring. SECURED of a validated ring is none until
a seal is acknowledged; LAST stays what it is (log 43). -/
def State.writeGeom (s : State) (ctx : Nat) (data : W64) : State :=
  let k := ldgPg ctx + 0x110
  let was := s.ldgValid ctx
  if was && !data.getLsbD 63 then s.setReg k (Bits.putBit (s.reg k) 63 false)
  else if was then (if s.changes k (Bits.mask 62 0 &&& Bits.mask 47 0) (Bits.put data 31 16 0) then s.badSeq Pg.ldg else s)
  else
    let s1 := s.setReg k (Bits.make [(47, 32, Bits.get data 47 32), (15, 0, max 1 (Bits.get data 15 0))])
    if !data.getLsbD 63 then s1
    else if s1.ringOk ctx then
      (((s1.setBitF (ldgPg ctx) F.ldgGeomValid true).setFld (ldgPg ctx) F.ldgSecuredStep noStep).withLdg { s1.ldg with unsecured := KMap.set [] s1.ldg.unsecured ctx [] })
    else s1.badSeq Pg.ldg

def execLdgGeomWrite (data : W64) (s : State) : Host.Outcome State Fault Refusal := .next (s.writeGeom s.lsel data)

/-- A write of BASE, MIRROR or LAST, which GEOM.VALID locks (R433, R500). -/
def State.writeRing (s : State) (off : Nat) (data : W64) : State :=
  let ctx := s.lsel
  if s.ldgValid ctx then s.lockedWrite (ldgPg ctx + off) (match rowOf (Pg.ldg + off) with | some r => BitVec.ofNat 64 r.rw | none => 0) data
  else s.plainWrite (ldgPg ctx + off) data

/-! ## Seals (R434 to R439) -/

/-- lseal (R436), a steward's instruction: the seal joins the queue, or QUEUE_FULL with 64 in progress. -/
def execLseal (c : ClusterNo) (rd rs1 rs2 : Gpr) (s : State) : Host.Outcome State Fault Refusal :=
  let p := stewardOf c
  if !s.coreRuns p then .next s
  else .next <| s.newWork p rd <|
    if 64 ≤ s.ldg.seals.length then s.retSt p rd St.queueFull else
    let ctx := s.coreCtx p
    let b := (s.g p rs2).toNat % 2 ^ 48
    let st := s.memCheck ctx b 32
    let block := if st = St.ok then s.loadWords b 4 else [0, 0, 0, 0]
    let x : Seal := ⟨s.ldg.next, ctx, (s.g p rs1).toNat % 2 ^ 48, block, false, 0, none, st⟩
    (s.retSt p rd St.ok).withLdg { s.ldg with seals := s.ldg.seals ++ [x], next := s.ldg.next + 1 }

/-- Reserved fields of a record's header, and of the headers of its sections within LEN (R434, R435). -/
def State.sectionsBad : Nat → State → Nat → Nat → Nat → Bool
  | 0, _, _, _, _ => false
  | n + 1, s, a, left, sec =>
    if sec = 0 ∨ left < 16 then false else
    let w0 := s.load64 a
    let len := 16 + Bits.get w0 31 0
    decide (s.load64 (a + 8) ≠ 0 ∨ Bits.get w0 55 48 ≠ 0) || State.sectionsBad n s (a + len) (left - len) (sec - 1)

def State.sealReserved (s : State) (a : Nat) (block : List W64) : Bool :=
  let ws := s.loadWords a 8
  decide (wf ws 0 63 56 ≠ 0 ∨ wf ws 3 63 48 ≠ 0 ∨ wf ws 3 31 0 ≠ 0 ∨ wd ws 5 ≠ 0 ∨ wd ws 6 ≠ 0 ∨ wd block 1 ≠ 0 ∨ wf block 0 63 48 ≠ 0) ||
  State.sectionsBad (wf ws 0 47 32) s (a + 64) (wf ws 0 31 0 - 64) (wf ws 0 47 32)

/-- CRC of the record at an address, its word 7 read as zero. -/
def State.recordCrc (s : State) (a len : Nat) : W64 :=
  crc64 ((List.range len).map fun i => if 56 ≤ i ∧ i < 64 then 0 else s.byteAt (a + i))

/-- The steps that wait to be secured, with a step added. -/
def addStep (step : Nat) (acked : Bool) : List (Nat × Bool) → List (Nat × Bool)
  | [] => [(step, acked)]
  | x :: t => if x.1 = step then (step, acked || x.2) :: t else if step < x.1 then (step, acked) :: x :: t else x :: addStep step acked t

/-- SECURED moves over the acknowledged steps in front (R438). -/
def State.advance (s : State) (ctx : Nat) (l : List (Nat × Bool)) : State :=
  let ok := l.takeWhile (·.2)
  let s1 := match ok.getLast? with | some x => s.setFld (ldgPg ctx) F.ldgSecuredStep x.1 | none => s
  s1.withLdg { s1.ldg with unsecured := KMap.set [] s1.ldg.unsecured ctx (l.dropWhile (·.2)) }

def State.noteStep (s : State) (ctx step : Nat) (acked : Bool) : State := s.advance ctx (addStep step acked (KMap.get [] s.ldg.unsecured ctx))

def State.mapSeal (s : State) (num : Nat) (f : Seal → Seal) : State :=
  s.withLdg { s.ldg with seals := s.ldg.seals.map fun x => if x.num = num then f x else x }

/-- Puts a slot to the mirror: a put of the sealing engine, from the hub die (R433, R437). -/
def State.putMirror (s : State) (x : Seal) (step : Nat) : State :=
  let p := ldgPg x.ctx
  let slot := s.ldgSlot x.ctx step
  let addr := s.fld p F.ldgMirrorMaddr * 4096 + step % s.ldgNrec x.ctx * s.ldgSlotBytes x.ctx
  let words := [Bits.make [(63, 60, 1)], Bits.make [(63, 48, s.fld p F.ldgMirrorMdev), (47, 0, addr)], Bits.make [(63, 32, wf (s.loadWords slot 1) 0 31 0)],
                BitVec.ofNat 64 slot, 0, 0]
  let (num, s1) := s.submitOp (8 + s.hub) x.ctx words
  s1.mapSeal x.num fun y => { y with put := some num }

/-- The outcome of a seal when it is applied (R437). -/
def State.applySeal (s : State) (x : Seal) : State :=
  let done := fun (s : State) st => s.mapSeal x.num fun y => { y with applied := true, status := st }
  if x.status ≠ St.ok then done s x.status else
  let ws := s.loadWords x.addr 8
  let len := wf ws 0 31 0
  let step := (wd ws 1).toNat
  let last := s.ldgLast x.ctx
  let mark := fun (s : State) => s.mapSeal x.num fun y => { y with applied := true, step := step }
  if !s.ldgValid x.ctx || decide (x.addr ≠ s.ldgSlot x.ctx step ∨ s.ldgSlotBytes x.ctx < len ∨ len < 64 ∨ len % 8 ≠ 0) || s.sealReserved x.addr x.block then done s St.protocolErr
  else if last = noStep ∨ step = last + 1 then
    let s1 := (s.storeWords x.addr [Bits.put (wd ws 0) 55 48 x.ctx]).storeWords (x.addr + 32) [BitVec.ofNat 64 (s.now s.hub)]
    let s2 := s1.storeWords (x.addr + 56) [s1.recordCrc x.addr len]
    let s3 := mark (s2.setFld (ldgPg x.ctx) F.ldgLastStep step)
    if s3.ldgMirrorOn x.ctx then (s3.noteStep x.ctx step false).putMirror x step else s3.noteStep x.ctx step true
  else if step ≤ last then
    if wd ws 7 = s.recordCrc x.addr len then
      let sec := s.fld (ldgPg x.ctx) F.ldgSecuredStep
      if s.ldgMirrorOn x.ctx && decide (sec = noStep ∨ sec < step) then ((mark s).noteStep x.ctx step false).putMirror x step else mark s
    else done (s.setErr Pg.ldg F.ldgErrStatStepStale x.ctx) St.stepStale
  else done s St.protocolErr

/-- Whether an applied seal can complete: no mirror put of its own still runs; its status, with the put's. -/
def State.sealStatus (s : State) (x : Seal) : Option Nat :=
  if x.status ≠ St.ok then some x.status
  else if !x.applied then none
  else match x.put with
    | none => some St.ok
    | some n => match s.net.ops.find? fun o => decide (o.num = n) with
      | none => some St.ok
      | some o => if o.status ≠ St.ok then some o.status else if s.isLocal o || (o.rest.isEmpty && decide (o.flying = 0)) then some St.ok else none

/-- The first seal in arrival order is applied; then the first that can complete does: the mirror's answer, the completion action, the record
(R437, R293 to R295). -/
def execSealDone (s : State) : Host.Outcome State Fault Refusal :=
  let s1 := match s.ldg.seals.find? fun x => !x.applied with | some x => s.applySeal x | none => s
  match s1.ldg.seals.find? fun x => (s1.sealStatus x).isSome && (s1.ldg.seals.takeWhile fun y => decide (y.num ≠ x.num)).all fun y => decide (y.ctx ≠ x.ctx ∨ wd y.block 2 = 0) with
  | none => .next s1
  | some x =>
    let st0 := (s1.sealStatus x).getD St.ok
    let op := match x.put with | some n => s1.net.ops.find? fun o => decide (o.num = n) | none => none
    let (st, s2) := match op with
      | some o => if st0 = St.ok && s1.isLocal o then let (a, _, _, t) := s1.runLocal o; (a, t) else (st0, s1)
      | none => (st0, s1)
    let s3 := (s2.withNet { s2.net with ops := s2.net.ops.filter fun o => decide (some o.num ≠ x.put) }).withLdg { s2.ldg with seals := s2.ldg.seals.filter fun y => decide (y.num ≠ x.num) }
    let s4 := if op.isSome && decide (st ≠ St.ok ∧ st ≠ St.aborted) then s3.setErr Pg.ldg F.ldgErrStatMirrorFail x.ctx else if op.isSome && decide (st = St.ok) then s3.noteStep x.ctx x.step true else s3
    let (st2, s5) := if st = St.ok then s4.act x.ctx (376 + 2 * s4.hub) (wd x.block 2) (wd x.block 3) else (st, s4)
    .next (s5.portRecord s5.hub x.ctx (wf x.block 0 47 0) st2 (if st = St.ok then wf (s5.loadWords x.addr 1) 0 31 0 else 0) 0)

/-! ## The generator's step (R430) -/

def genStepKey (c : Nat) : Nat := Pg.gen (c / 12) + 0x200 + 8 * (c % 12)

def execGstepWrite (c : ClusterNo) (rs1 : Gpr) (s : State) : Host.Outcome State Fault Refusal :=
  let p := stewardOf c
  if s.coreRuns p then .next ((s.setReg (genStepKey c) (s.g p rs1)).nextPc p) else .next s

/-! ## Checkpoints (R441 to R443) -/

def fp64Of (n : Nat) : Nat := (fp64F.round (.ofNat n)).code

/-- A value rounded to a whole number (R70). -/
def wholeOf (c : Nat) : Nat := match fp64F.value c with | .fin _ m e => if 0 ≤ e then m * 2 ^ e.toNat else roundShift m (-e).toNat | _ => 2 ^ 64

/-- C: the mean of the history rounded to whole ms, or the prior. -/
def State.ckCost (s : State) (ctx : Nat) : Nat :=
  let l := KMap.get [] s.ldg.costs ctx
  if l.isEmpty then s.fld (ldgPg ctx) F.ldgCkcfgCostprior else (2 * l.foldl (· + ·) 0 + l.length) / (2 * l.length)

/-- m of R442, as an FP64 code. -/
def State.ckMtbf (s : State) (ctx : Nat) : Nat :=
  let p := ldgPg ctx
  let pn := fp64Of (s.fld p F.ldgCkcfgPriorN)
  let num := (fpAdd fp64F (fpMul fp64F (fp64Of (s.fld p F.ldgCkcfgPriorMtbf)) pn).code (fp64Of (s.fld p F.ldgCkobsTrun))).code
  (fpDiv fp64F num (fpAdd fp64F pn (fp64Of (s.fld p F.ldgCkobsF))).code).code

/-- I of R443, as an FP64 code before the rounding to whole ms. -/
def State.ckInt (s : State) (ctx : Nat) : Nat :=
  let a := (fpMul fp64F (fp64Of 2) (fp64Of (s.ckCost ctx))).code
  (fpSqrt fp64F (fpMul fp64F (fpMul fp64F a (fp64Of 1000)).code (s.ckMtbf ctx)).code).code

/-- m and I are computed again and shown, with C and the number of costs. -/
def State.ckShow (s : State) (ctx : Nat) : State :=
  let p := ldgPg ctx
  let cap := 2 ^ 32 - 1
  (((s.setFld p F.ldgCkintMtbf (min cap (wholeOf (s.ckMtbf ctx)))).setFld p F.ldgCkintInterval (min cap (wholeOf (s.ckInt ctx)))).setFld p F.ldgCkcostN
    (KMap.get [] s.ldg.costs ctx).length).setFld p F.ldgCkcostC (s.ckCost ctx)

def execCkRecompute (ctx : Byte) (s : State) : Host.Outcome State Fault Refusal := .next (s.ckShow ctx.toNat)

/-- A start stamp in ms; a second one replaces an open one. -/
def execCkmarkStart (s : State) : Host.Outcome State Fault Refusal :=
  .next (s.withLdg { s.ldg with start := KMap.set none s.ldg.start s.lsel (some (s.now s.hub / 10 ^ 6)) })

/-- The cost of the open start enters the history of 8. -/
def execCkmarkEnd (s : State) : Host.Outcome State Fault Refusal :=
  let ctx := s.lsel
  match KMap.get none s.ldg.start ctx with
  | none => .next (s.badSeq Pg.ldg)
  | some t =>
    let l := ((s.now s.hub / 10 ^ 6 - t) :: KMap.get [] s.ldg.costs ctx).take 8
    .next ((s.withLdg { s.ldg with start := KMap.set none s.ldg.start ctx none, costs := KMap.set [] s.ldg.costs ctx l }).ckShow ctx)

def execCkmarkEmpty (s : State) : Host.Outcome State Fault Refusal :=
  let s1 := s.withLdg { s.ldg with costs := KMap.set [] s.ldg.costs s.lsel [] }
  .next ((s1.setFld (ldgPg s.lsel) F.ldgCkcostN 0).setFld (ldgPg s.lsel) F.ldgCkcostC (s1.ckCost s.lsel))

/-- A write of LDG.CKOBS, or of LDG.CKCFG with PRIOR_N = 0 stored as 1; m and I follow. -/
def execLdgCkWrite (obs : Bool) (data : W64) (s : State) : Host.Outcome State Fault Refusal :=
  let ctx := s.lsel
  let d := if !obs && decide (Bits.get data 31 24 = 0) then Bits.put data 31 24 1 else data
  .next ((s.setReg (ldgPg ctx + (if obs then 0x148 else 0x130)) d).ckShow ctx)

end Sys2Proof.Machine
end

