-- ==== Sys2Proof/Machine/Sync.lean ====
section
/-! DEFINITION. Synchronisation (10): the full/empty instructions, signals, claims, barriers, their time limits, and the registers of
the SYN and BAR pages. -/

namespace Sys2Proof.Machine

/-! ## Full/empty instructions (R274 to R278) -/

/-- The update profile does not include OPC 0x07 (R275). -/
def hasSync (c : Nat) : Bool := decide (c < 340)

/-- A full/empty instruction: pair forms need an even RD (R275); the checks of R274; the table of R276; the wait, or NOT_READY;
then a pass over the word's queue (R277). -/
def State.wordInsn (s : State) (c rd : Nat) (nb pair : Bool) (a : W64) (op : WordOp) (why : Why) (err : ArrayErr) : State :=
  if !s.coreRuns c then s
  else if !hasSync c || (pair && decide (rd % 2 = 1)) then s.illegal c
  else
    let ctx := s.coreCtx c
    let st := s.wordCheck ctx a
    let l := a.toNat % 2 ^ 48
    if st ≠ St.ok then s.retWord c rd op st none
    else if s.atomicShut (slotDie c) (s.partOf ctx) l then s
    else
      let s0 := (s.chargeAtomic (slotDie c) (s.partOf ctx) l).arrayErr l err
      match s0.wordOp l op with
      | none => if nb then s0.retWord c rd op St.notReady none else s0.wait c rd why
      | some (st, v, s1) =>
        let s2 := if st = St.syncUnderflow then s1.underflow ctx l else s1
        let s3 := (s2.retWord c rd op st v).wake l
        if st = St.poisoned then s3.consume (slotDie c) ctx 0 (BitVec.ofNat 64 l) else s3

def wordL (a : W64) : Nat := a.toNat % 2 ^ 48

def execLdfe (c : CoreErr) (nb : Bool) (rd rs1 : Gpr) (s : State) : Host.Outcome State Fault Refusal :=
  .next (s.wordInsn c.core rd nb true (s.g c.core rs1) .ldfe (.ldfe (wordL (s.g c.core rs1))) c.err)

def execLdfn (c : CoreErr) (nb : Bool) (rd rs1 : Gpr) (s : State) : Host.Outcome State Fault Refusal :=
  .next (s.wordInsn c.core rd nb true (s.g c.core rs1) .ldfn (.ldfn (wordL (s.g c.core rs1))) c.err)

def execStef (c : CoreNo) (nb : Bool) (rd rs1 rs2 : Gpr) (s : State) : Host.Outcome State Fault Refusal :=
  .next (s.wordInsn c rd nb false (s.g c rs1) (.stef (s.g c rs2)) (.stef (wordL (s.g c rs1)) (s.g c rs2)) .none)

def execFinc (c : CoreErr) (rd rs1 rs2 : Gpr) (s : State) : Host.Outcome State Fault Refusal :=
  .next (s.wordInsn c.core rd false true (s.g c.core rs1) (.finc (s.g c.core rs2)) (.signal 0) c.err)

def execFdec (c : CoreErr) (rd rs1 rs2 : Gpr) (s : State) : Host.Outcome State Fault Refusal :=
  .next (s.wordInsn c.core rd false true (s.g c.core rs1) (.fdec (s.g c.core rs2)) (.signal 0) c.err)

def execFini (c : CoreNo) (full : Bool) (rd rs1 rs2 : Gpr) (s : State) : Host.Outcome State Fault Refusal :=
  .next (s.wordInsn c rd false false (s.g c rs1) (.fini full (s.g c rs2)) (.signal 0) .none)

/-! ## Signals (R286, R287) -/

def execFsig (c : CoreNo) (rd rs1 rs2 : Gpr) (s : State) : Host.Outcome State Fault Refusal :=
  if !s.coreRuns c then .next s
  else if !hasSync c then .next (s.illegal c)
  else
    let (st, s1) := s.signal (s.coreCtx c) ((s.g c rs1).toNat % 512) (s.g c rs2)
    .next (s1.retSt c rd st)

/-- swait is OPC 0x09, in the base of every profile (R287). -/
def execSwait (c : CoreNo) (nb : Bool) (rd rs1 : Gpr) (s : State) : Host.Outcome State Fault Refusal :=
  if !s.coreRuns c then .next s
  else if rd.val % 2 = 1 then .next (s.illegal c)
  else match s.takeSignals c (s.g c rs1) with
    | some (b, s1) => .next (s1.retPair c rd St.ok b)
    | none => .next (if nb then s.retNone c rd St.notReady else s.wait c rd (.signal (s.g c rs1)))

/-! ## Barriers (R289 to R292) -/

/-- The context an arrival is made for: a core's, or for a courier the barrier's where it runs a collective of it (R290). -/
def State.arriveCtx (s : State) (c b : Nat) : Nat :=
  if 336 ≤ c ∧ c < 340 ∧ (s.courierCtxs (c - 336)).contains (s.barCtx b) = true then s.barCtx b else s.coreCtx c

/-- barr of a core slot (R291). -/
def State.coreArrive (s : State) (c rd b : Nat) (nb : Bool) : State :=
  let e := s.barEpisode b + 1
  if s.hasArrived b c then (if nb then s.retNone c rd St.notReady else s.wait c rd (.arriveNext b))
  else if nb then ((s.setArrived b c).retPair c rd St.ok (e.setWidth 64)).barAdvance b
  else ((s.setArrived b c).wait c rd (.arrived b e)).barAdvance b

/-- barr of a courier: a second arrival counts for the next episode, a third is dropped and counted (R291; log 35). -/
def State.courierArrive (s : State) (c rd b ctx : Nat) (nb : Bool) : State :=
  let e := s.barEpisode b + (if s.hasArrived b c then 2 else 1)
  if nb then ((s.agentArrive b c ctx).2).retPair c rd St.ok (e.setWidth 64)
  else ((s.wait c rd (.arrived b e)).agentArrive b c ctx).2

def execBarr (c : CoreNo) (nb : Bool) (rd rs1 : Gpr) (s : State) : Host.Outcome State Fault Refusal :=
  let b := (s.g c rs1).toNat % 64
  if !s.coreRuns c then .next s
  else if !hasSync c || decide (rd.val % 2 = 1) then .next (s.illegal c)
  else
    let ctx := s.arriveCtx c b
    let st := s.arriveCheck b c ctx
    if st ≠ St.ok then .next (s.retNone c rd st)
    else .next (if agentSlot c then s.courierArrive c rd b ctx nb else s.coreArrive c rd b nb)

def execBwait (c : CoreNo) (nb : Bool) (rd rs1 rs2 : Gpr) (s : State) : Host.Outcome State Fault Refusal :=
  let b := (s.g c rs1).toNat % 64
  let e : W32 := (s.g c rs2).setWidth 32
  if !s.coreRuns c then .next s
  else if !hasSync c then .next (s.illegal c)
  else if s.barState b = Bar.idle ∨ s.barCtx b ≠ s.arriveCtx c b then .next (s.retSt c rd St.protocolErr)
  else if s.barState b = Bar.broken then .next (s.retSt c rd St.barrierBroken)
  else if episodeDone (s.barEpisode b) e then .next (s.retSt c rd St.ok)
  else .next (if nb then s.retSt c rd St.notReady else s.wait c rd (.episode b e))

/-- A prologue core writes a barrier number to BARRIVE for a context it has work in progress of (R290). -/
def execBarrive (u : Fin 36) (ctx : Byte) (data : W64) (s : State) : Host.Outcome State Fault Refusal :=
  let p := 340 + u.val
  if !s.coreRuns p || !s.slotRuns p ctx.toNat then .next s
  else .next (((s.agentArrive (data.toNat % 64) p ctx.toNat).2).nextPc p)

/-- A wait of a core ends with SYNC_TIMEOUT (R279); a barr keeps its arrival and returns its episode (R291). -/
def State.timeOut (s : State) (w : Waiter) : State :=
  let s1 := s.unwait w.slot
  match w.why with
  | .ldfe _ | .ldfn _ | .signal _ => s1.retNone w.slot w.rd St.syncTimeout
  | .stef _ _ | .episode _ _ => s1.retSt w.slot w.rd St.syncTimeout
  | .arrived _ e => s1.retPair w.slot w.rd St.syncTimeout (e.setWidth 64)
  | .arriveNext b => s1.retPair w.slot w.rd St.syncTimeout ((s.barEpisode b + 1).setWidth 64)
  | _ => s

/-- With SYNCTMO = 0 there is no limit (R279). -/
def execSyncTimeout (c : CoreNo) (s : State) : Host.Outcome State Fault Refusal :=
  match s.sync.waiters.find? fun w => decide (w.slot = c.val) with
  | some w => .next (if (s.core c).tmo = 0 then s else s.timeOut w)
  | none => .next s

/-! ## Claims (R281 to R284) -/

def State.claims (s : State) : List Claim := s.sync.claims.filterMap (·.2)
def State.setClaims (s : State) (m : KMap (Option Claim)) : State := s.withSync { s.sync with claims := m }

/-- Whether a range lies wholly in the die-shared SRAM of one die, or in one sync region (R281). -/
def State.oneHome (s : State) (l n : Nat) : Bool :=
  match s.place l, s.place (l + n - 8) with
  | some (.shared d _), some (.shared d' _) => decide (d = d')
  | some (.unit r _ _), some (.unit r' _ _) => decide (r = r') && (s.region r).sync
  | _, _ => false

/-- The status of a claim (R281). -/
def State.claimCheck (s : State) (ctx : Nat) (a : W64) (len : Nat) : Nat :=
  let l := wordL a
  if l % 8 ≠ 0 ∨ len % 8 ≠ 0 ∨ len = 0 ∨ 2 ^ 20 < len ∨ a.toNat / 2 ^ 48 ≠ s.dev ∨ s.oneHome l len = false ∨ s.memCheck ctx l len ≠ St.ok then St.protocolErr
  else if s.claims.any fun k => decide (l < k.base + k.len ∧ k.base < l + len) then St.claimOverlap
  else if 256 ≤ s.claims.length then St.claimFull
  else St.ok

def execFclaim (c : CoreNo) (rd rs1 rs2 : Gpr) (s : State) : Host.Outcome State Fault Refusal :=
  if !s.coreRuns c then .next s
  else if !hasSync c then .next (s.illegal c)
  else
    let ctx := s.coreCtx c
    let st := s.claimCheck ctx (s.g c rs1) (s.g c rs2).toNat
    if st = St.ok then
      let i := ((List.range 256).find? fun i => (KMap.find s.sync.claims i).isNone).getD 0
      .next ((s.setClaims (KMap.set none s.sync.claims i (some ⟨wordL (s.g c rs1), (s.g c rs2).toNat, ctx, false⟩))).retSt c rd St.ok)
    else if st = St.claimFull then .next ((s.setErr Pg.syn F.synErrStatClaimFull ctx).retSt c rd st)
    else .next (s.retSt c rd st)

def execFrel (c : CoreNo) (rd rs1 : Gpr) (s : State) : Host.Outcome State Fault Refusal :=
  if !s.coreRuns c then .next s
  else if !hasSync c then .next (s.illegal c)
  else
    let ctx := s.coreCtx c
    let a := s.g c rs1
    match s.sync.claims.find? fun e => decide (a.toNat / 2 ^ 48 = s.dev) && (e.2.map fun k => decide (k.ctx = ctx ∧ k.base = wordL a) && !k.lost).getD false with
    | some e => .next ((s.setClaims (KMap.set none s.sync.claims e.1 none)).retSt c rd St.ok)
    | none => .next (s.retSt c rd St.protocolErr)

/-- A write of SYN.LOSE: refused while the homes mark; with GO = 1 the context is lost (R282, R284). -/
def State.synLose (s : State) (go : Bool) (ctx : Nat) : State :=
  if s.bitF Pg.syn F.synStatMarking then s.setErr Pg.syn F.synErrStatBadSeq 0 else if go then s.lose ctx else s

/-- A write of SYN.LOSE with GO = 1. -/
def execSynLose (ctx : Byte) (s : State) : Host.Outcome State Fault Refusal := .next (s.synLose true ctx.toNat)

/-- The homes mark every word of the LOST claims and free their entries (R283). -/
def State.markLost (s : State) : State :=
  let s1 := (s.claims.filter (·.lost)).foldl (fun s k =>
    (List.range (k.len / 8)).foldl (fun s i => let a := s.keyOf (k.base + 8 * i); (s.setFull a false).setPoison a true) s) s
  (s1.setClaims (s1.sync.claims.filter fun e => !(e.2.map (·.lost)).getD false)).setBitF Pg.syn F.synStatMarking false

def execClaimMarkDone (s : State) : Host.Outcome State Fault Refusal :=
  .next (if s.bitF Pg.syn F.synStatMarking then s.markLost else s)

/-! ## Registers of a barrier (R289, R297) -/

def State.maskEmpty (s : State) (b : Nat) : Bool := (List.range 6).all fun i => s.reg (Pg.bar b + 0x108 + 8 * i) = 0

/-- A write of BAR.CFG with VALID = 1: arms, or is refused (R289). -/
def execBarArm (b : Fin 64) (data : W64) (s : State) : Host.Outcome State Fault Refusal :=
  let p := Pg.bar b
  let k := p + 0x100
  let d := Bits.putBit data 63 true
  if s.bitF p F.barCfgValid then .next (s.lockedWrite k (Bits.mask 55 48) d)
  else if s.maskEmpty b then .next (((s.plainWrite k d).setBitF p F.barCfgValid false).setErr p F.barErrStatBadSeq 0)
  else
    let s1 := (((s.plainWrite k d).setFld p F.barStatState Bar.armed).setFld p F.barStatEpisode 0).clearArrived b
    .next (s1.withSync { s1.sync with heldArr := s1.sync.heldArr.filter fun e => decide (e.1 / 384 ≠ b.val) })

/-- A write of BAR.CFG with VALID = 0 (R289). -/
def execBarDisarm (b : Fin 64) (s : State) : Host.Outcome State Fault Refusal :=
  let p := Pg.bar b
  .next (((s.setBitF p F.barCfgValid false).setFld p F.barStatState Bar.idle).releaseBroken b)

def execBarStatRead (b : Fin 64) (s : State) : Host.Outcome State Fault Refusal := .next (s.readClear (Pg.bar b + 0x18) (Bits.mask 23 16))

end Sys2Proof.Machine
end

