-- ==== Sys2Proof/Machine/Links.lean ====
section
/-! DEFINITION. The link ports (11): training, credits, resyncs, packets received, forwarded and discarded, port control, and the
routing tables' loads and flips. -/

namespace Sys2Proof.Machine

/-! ## Ports (R299, R305, R311) -/

def lnkKey (p : Nat) : Nat := unitKey (Pg.lnk p) 0
def portDie (p : Nat) : Nat := p / 6
def State.portVer (s : State) (p : Nat) : Nat := s.fld (Pg.lnk p) F.lnkStatVersion
/-- The link layer runs: PARKED or ROUTED. -/
def State.portUp (s : State) (p : Nat) : Bool := decide (s.lnk p = Lk.parked ∨ s.lnk p = Lk.routed)
def State.portTraining (s : State) (p : Nat) : Bool := decide (1 ≤ s.lnk p ∧ s.lnk p ≤ 5) && s.dieUp (portDie p)
/-- RTE.CFG.MODE = 1. -/
def State.escapeMode (s : State) : Bool := s.bitF Pg.rte F.rteCfgMode

/-- The allocation that LNK.VCALLOC gives a VC; VC2 and VC3 of a version-2 port hold none (R302, R311). -/
def State.vcAlloc (s : State) (p vc : Nat) : Nat :=
  if s.portVer p = 2 ∧ (vc = 2 ∨ vc = 3) then 0
  else Bits.get (s.reg (Pg.lnk p + 0x108 + 8 * (vc / 4))) (16 * (vc % 4) + 15) (16 * (vc % 4))

def State.takeAlloc (s : State) (p : Nat) : KMap Nat := (List.range 8).foldl (fun m vc => KMap.set 0 m vc (s.vcAlloc p vc)) []

def vcMap (l : List W16) : KMap Nat := (List.range 8).foldl (fun m vc => KMap.set 0 m vc (l.getD vc 0).toNat) []

/-- A modular count of flits. -/
def addFlits (m : KMap Nat) (vc n : Nat) : KMap Nat := KMap.set 0 m vc ((KMap.get 0 m vc + n) % 65536)

/-- The sender's credits of a VC: ALLOC − ((SENT − FREED) mod 65,536) (R305). -/
def Port.credit (x : Port) (vc : Nat) : Int := ((KMap.get 0 x.alloc vc : Nat) : Int) - ((65536 + KMap.get 0 x.sent vc - KMap.get 0 x.heard vc) % 65536 : Nat)

/-- A control flit with counts of the eight VCs (R304). -/
def ctlFlit (type : Nat) (m : KMap Nat) : List W64 :=
  let half := fun i => Bits.make ((List.range 4).map fun j => (16 * j + 15, 16 * j, KMap.get 0 m (4 * i + j)))
  [BitVec.ofNat 64 type, 0, half 0, half 1]

/-- A control flit leaves on a port; it counts as a flit sent (R303, R329). -/
def State.sendCtl (s : State) (p : Nat) (flit : List W64) : State := (s.setPort p { s.port p with lastTx := flit }).addWork (Pg.lnk p) 1

/-- A control flit arrives on a port (R329). -/
def State.hearCtl (s : State) (p : Nat) : State := s.addWork (Pg.lnk p + 1) 1

/-- Releases flits of a port's receive buffer; CRD is then due (R305). -/
def State.freeFlits (s : State) (p vc n : Nat) : State :=
  if 24 ≤ p then s else let x := s.port p; s.setPort p { x with freed := addFlits x.freed vc n, crdDue := true }

/-! ## Routes (R313, R319) -/

/-- The port that the header chooses: by hash, or PRIM. -/
def State.detPort (s : State) (ws : List W64) : Nat :=
  let e := s.route (Pkt.epoch ws) (Pkt.dst ws)
  let ports := Bits.setBits 24 (routeMask e)
  let j := (Pkt.src ws ^^^ Pkt.dst ws ^^^ wf ws 1 27 12) % max 1 ports.length
  if !s.escapeMode && routeHash e then ports.getD j (routePrim e) else routePrim e

/-- What becomes of a held packet now; enters: in SEPARATE mode it would enter a ring (R312). -/
inductive Fwd where
  | wait (p vc : Nat) (enters : Bool)
  | drop (f : Fld)
  | send (p vc : Nat) (enters : Bool)
  deriving DecidableEq, Repr

/-- A port has the credits for a packet that a die holds, and the bridges lead to it (R305, R312, R315). -/
def State.fits (s : State) (d p vc need : Nat) : Bool :=
  !(s.port p).stopped && decide ((need : Int) ≤ (s.port p).credit vc) && (s.packetWay d (portDie p)).isSome

/-- The adaptive choice of R313: the ROUTED port of MASK with the most credits that can take the packet, the lower on ties. -/
def State.adaptive (s : State) (d : Nat) (ws : List W64) (vc need : Nat) : Option Nat :=
  ((Bits.setBits 24 (routeMask (s.route (Pkt.epoch ws) (Pkt.dst ws)))).filter fun p =>
    decide (s.lnk p = Lk.routed) && !(decide (Pkt.cls ws = 1 ∧ s.portVer p = 2)) && s.fits d p vc need).foldl
    (fun best p => match best with | none => some p | some b => if (s.port b).credit vc < (s.port p).credit vc then some p else best) none

/-- The rules of a hop, in order: epoch (R320), entry, TTL (R319, R323), output and its state (R321), version (R302), credits
(R305, R312, R313). -/
def State.fwd (s : State) (h : Held) : Fwd :=
  let ws := h.words
  let e := s.route (Pkt.epoch ws) (Pkt.dst ws)
  let cls := Pkt.cls ws
  let len := 1 + Pkt.plen ws
  let p := s.detPort ws
  if !s.verUsable (Pkt.epoch ws) then .drop F.rteDropbEpoch
  else if !routeValid e then .drop F.rteDropaNoroute
  else if h.port < 24 ∧ Pkt.ttl ws = 0 then .drop F.rteDropaTtl
  else if s.escapeMode then
    let free := Pkt.unord ws && decide (h.port = 24 ∨ Pkt.vc ws % 2 = 0)
    match (if free then s.adaptive h.die ws (2 * cls) len else none) with
    | some q => .send q (2 * cls) false
    | none =>
      if s.lnk p ≠ Lk.routed then
        (if free && (Bits.setBits 24 (routeMask e)).any fun q => decide (s.lnk q = Lk.routed) then .wait p (2 * cls + 1) false else .drop F.rteDropaPort)
      else if cls = 1 ∧ s.portVer p = 2 then .drop F.rteDropbVer
      else if s.fits h.die p (2 * cls + 1) len then .send p (2 * cls + 1) false else .wait p (2 * cls + 1) false
  else
    let vc := 2 * cls + Pkt.epoch ws
    let enters := !decide (h.port < 24 ∧ s.fld (Pg.lnk h.port) F.lnkCfgRingpeer = p)
    let need := if enters then 33 + len else len
    if s.lnk p ≠ Lk.routed then .drop F.rteDropaPort
    else if cls = 1 ∧ s.portVer p = 2 then .drop F.rteDropbVer
    else if s.fits h.die p vc need then .send p vc enters else .wait p vc enters

/-! ## DOWN, fences, training (R299, R307, R327) -/

/-- A held packet is gone: its buffer flits are released. -/
def State.unhold (s : State) (h : Held) : State :=
  (s.withNet { s.net with held := s.net.held.erase h }).freeFlits h.port (Pkt.vc h.words) (1 + Pkt.plen h.words)

/-- Packets that a port holds, and those queued for it, are discarded (R307); the latter leave other ports' buffers (R305) and count as
PORT (R323). -/
def State.dropPackets (s : State) (p : Nat) : State :=
  let s1 := s.withNet { s.net with held := s.net.held.filter fun h => decide (h.port ≠ p) }
  (s1.net.held.filter fun h => !s.escapeMode && decide (s.detPort h.words = p)).foldl (fun s h => (s.unhold h).addFld Pg.rte F.rteDropaPort 1) s1

/-- A port leaves PARKED or ROUTED: its packets, its pending change and its resync are gone. -/
def State.portOff (s : State) (p st : Nat) : State :=
  let s1 := (s.dropPackets p).setReg (Pg.lnk p + 0x18) (BitVec.ofNat 64 st)
  s1.setPort p { s1.port p with waitMark := false, stopped := false, crdDue := false, helloDue := false, wasRouted := false, wasUp := false }

def State.fencePort (s : State) (p cause : Nat) : State :=
  (((s.portOff p Lk.fenced).setErr (Pg.lnk p) F.lnkErrStatFenced 0).setBitF (Pg.lnk p) F.lnkCtrlFence true).fenceUnit (portDie p) (Pg.lnk p) (lnkKey p) cause

/-- A DOWN event with its time stamp; the fourth within 86,400 s of the first fences the port (R307, R327). -/
def State.portDown (s : State) (p : Nat) : State :=
  let d := portDie p
  let now := s.now d
  let u := s.unitRec (lnkKey p)
  let n := (within now dayNs u.downs).length + 1
  let s1 := ((s.portOff p Lk.down).setErr (Pg.lnk p) F.lnkErrStatDown 0).putUnit (lnkKey p) { u with downs := (now :: u.downs).take 3 }
  let s2 := (s1.setFld (Pg.lnk p) F.lnkDownsCount n).event d Ev.lkDown 0 (unitOf (Pg.lnk p)) 0 0
  if 4 ≤ n then s2.fencePort p 3 else s2

/-- An enabled port that is not FENCED begins to train (R299); the ports of a die that is out of service do not (R26). -/
def State.trainPort (s : State) (p : Nat) : State :=
  if !s.bitF (Pg.lnk p) F.lnkCtrlEn || decide (s.lnk p = Lk.fenced) || !s.dieUp (portDie p) then s
  else s.portOff p Lk.detect

/-- A failed training: DOWN with the bit; of a port that a warm recovery found up it counts as a DOWN event (R299, R327). -/
def State.trainFailed (s : State) (p : Nat) (f : Fld) : State :=
  let was := (s.port p).wasUp
  let s1 := s.setErr (Pg.lnk p) f 0
  if was then s1.portDown p else s1.portOff p Lk.down

/-- A pending ADMIT of the port can be carried out: it is PARKED, its version fits the mode (R302), and its peer has not become EXTRA or
WRONG since (R339). -/
def State.mayRoute (s : State) (p : Nat) : Bool :=
  let r := s.fld (Pg.dsc + 8 * p) F.dscPeerResult
  decide (s.lnk p = Lk.parked) && !(decide (s.portVer p = 2) && s.escapeMode) && decide (r ≠ 2 ∧ r ≠ 3)

/-- The port joins the routes: ROUTED, with the peer's UID as it was admitted (R321, R339). -/
def State.routePort (s : State) (p : Nat) : State :=
  if !s.mayRoute p then s.setFld (Pg.lnk p) F.lnkStatPend 0 else
  let s1 := (s.setLnk p Lk.routed).setFld (Pg.lnk p) F.lnkStatPend 0
  s1.setPort p { s1.port p with admitUid := s1.reg (Pg.dsc + 0x300 + 8 * p) }

/-- The VER flit of a port whose lanes aligned so: versions 2 and 3, or 3 alone at width 4; both deadlock modes; the lanes (R300, R304). -/
def verFlit (lanes : Byte) : List W64 := [Bits.make [(7, 0, 0xF5), (15, 8, if lanes = 0xFF then 0x0C else 0x08), (23, 16, 3), (31, 24, lanes.toNat)], 0, 0, 0]

/-- What a port sends as time passes: training goes on from DETECT through EQUALISE, ALIGN and NEGOTIATE to CREDIT, where its end is waited
for (R299; log 112); a port whose link layer runs and that has nothing to send sends IDLE (R304), and its receiver corrects an open
number of codewords, for which the table has no row (R329; log 7). -/
def State.portTick (s : State) (p : Nat) : State :=
  if s.portTraining p then s.setLnk p (min 5 (s.lnk p + 1))
  else if s.portUp p then ((s.draw.2).sendCtl p (ctlFlit 0xF0 [])).addFld (Pg.lnk p) F.lnkErrcntFecCorr (s.draw.1.toNat % 2 ^ 32) else s

/-- Training completes (R299 to R302, R322): width by the lanes that align, then the VER flit and the version by what both ends
support, initial credits. -/
def execLinkTrainDone (p : Fin 24) (lanes : Byte) (vers : Byte) (s : State) : Host.Outcome State Fault Refusal :=
  if !s.portTraining p then .next s else
  let width := if lanes = 0xFF then 8 else if lanes = 0x0F ∨ lanes = 0xF0 then 4 else 0
  let ver := if vers.getLsbD 3 then 3 else if vers.getLsbD 2 && width = 8 then 2 else 0
  if width = 0 then .next (s.trainFailed p F.lnkErrStatTrainFail) else
  let s0 := (s.hearCtl p).sendCtl p (verFlit lanes)
  if ver = 0 then .next (s0.trainFailed p F.lnkErrStatVerFail)
  else
    let was := (s0.port p).wasRouted
    let s1 := s0.setReg (Pg.lnk p + 0x18) (Bits.make [(11, 8, width), (7, 4, ver), (3, 0, Lk.parked)])
    let x := s1.port p
    let s2 := s1.setPort p { x with sent := [], heard := [], accepted := [], freed := [], alloc := s1.takeAlloc p, waitMark := false, stopped := false, resyncs := [], crdDue := false, helloDue := true, wasRouted := false, wasUp := false }
    .next (if was && !(ver = 2 && s2.escapeMode) then s2.setLnk p Lk.routed else s2)

def execLinkTrainFail (p : Fin 24) (s : State) : Host.Outcome State Fault Refusal :=
  if s.portTraining p then .next (s.trainFailed p F.lnkErrStatTrainFail) else .next s

/-! ## Credits and resyncs (R304 to R307) -/

/-- A resync begins with RSREQ; the 17th within 1 ms takes the port DOWN with STORM (R306, R307). -/
def State.startResync (s : State) (p : Nat) : State :=
  let x := s.port p
  let now := s.now (portDie p)
  let s1 := s.addFld (Pg.lnk p) F.lnkErrcntResync 1
  let recent := now :: within now (10 ^ 6) x.resyncs
  if 17 ≤ recent.length then (s1.setErr (Pg.lnk p) F.lnkErrStatStorm 0).portDown p
  else (s1.setPort p { x with waitMark := true, resyncs := recent }).sendCtl p (ctlFlit 0xF2 [])

/-- An uncorrectable codeword, or a framing loss, both counted (R323). What comes while a resync runs is discarded (R306). -/
def execLinkFecUncorr (p : Fin 24) (_codeword : Bool) (s : State) : Host.Outcome State Fault Refusal :=
  if !s.portUp p then .next s else
  let s1 := s.addFld (Pg.lnk p) F.lnkErrcntFecUnc 1
  if (s.port p).waitMark then .next s1 else .next (s1.startResync p)

/-- The sender stops and answers MARK with its SENT counts. -/
def execRsreqRecv (p : Fin 24) (s : State) : Host.Outcome State Fault Refusal :=
  if !s.portUp p then .next s else .next (((s.hearCtl p).setPort p { s.port p with stopped := true }).sendCtl p (ctlFlit 0xF3 (s.port p).sent))

/-- Per VC the flits sent and never accepted are freed and counted lost; RSACK carries FREED, and the allocation that a write of VCALLOC
set applies from it on (R306). -/
def execMarkRecv (p : Fin 24) (sent : List W16) (s : State) : Host.Outcome State Fault Refusal :=
  let x := s.port p
  if !s.portUp p || !x.waitMark then .next s else
  let m := vcMap sent
  let lost := fun vc => (65536 + KMap.get 0 m vc - KMap.get 0 x.accepted vc) % 65536
  let freed := (List.range 8).foldl (fun f vc => addFlits f vc (lost vc)) x.freed
  let n := (List.range 8).foldl (fun n vc => n + lost vc) 0
  .next ((((s.hearCtl p).addFld (Pg.lnk p) F.lnkDropFlitsLost n).setPort p { x with accepted := m, freed := freed, alloc := s.takeAlloc p, waitMark := false }).sendCtl p (ctlFlit 0xF4 freed))

/-- The sender adopts FREED and goes on (R306). -/
def execRsackRecv (p : Fin 24) (freed : List W16) (s : State) : Host.Outcome State Fault Refusal :=
  let x := s.port p
  if !s.portUp p || !x.stopped then .next s else .next ((s.hearCtl p).setPort p { x with heard := vcMap freed, stopped := false })

def execCrdRecv (p : Fin 24) (freed : List W16) (s : State) : Host.Outcome State Fault Refusal :=
  if s.portUp p then .next ((s.hearCtl p).setPort p { s.port p with heard := vcMap freed }) else .next s

def execCrdSend (p : Fin 24) (s : State) : Host.Outcome State Fault Refusal :=
  if s.portUp p then .next ((s.setPort p { s.port p with crdDue := false }).sendCtl p (ctlFlit 0xF1 (s.port p).freed)) else .next s

def execLinkFlitGapTimeout (p : Fin 24) (s : State) : Host.Outcome State Fault Refusal :=
  if s.portUp p then .next (s.portDown p) else .next s

def execLinkResyncTimeout (p : Fin 24) (s : State) : Host.Outcome State Fault Refusal :=
  if s.portUp p && ((s.port p).waitMark || (s.port p).stopped) then .next (s.portDown p) else .next s

/-! ## Abort relays that sink (R415) -/

/-- Whether a context's admitted map names a device. -/
def State.mapHolds (s : State) (j : Job) (dev : Nat) : Bool :=
  (List.range (j.sizes.foldl (· * ·) 1)).any fun i => decide (s.loadNat (j.addr + 2 * i) 2 = dev)

/-- The context a relay names: its JOBID, and a map that contains the sender. -/
def State.relayCtx (s : State) (ws : List W64) : Option Nat :=
  (List.range 256).find? fun c => decide (s.jobId c = Pkt.payload ws 0) && match s.job c with | some j => s.mapHolds j (Pkt.src ws) | none => false

/-- A relay is dropped and counted, or aborts its context and goes on to every neighbour but the sender. -/
def State.sinkRelay (s : State) (p : Nat) (ws : List W64) : State :=
  let gen := wf ws 5 63 32
  match s.relayCtx ws with
  | none => s.addFld Pg.rcv F.rcvAbstatDropped 1
  | some ctx =>
    if gen ≤ s.jobGen ctx ∨ s.lnk p ≠ Lk.routed then s.addFld Pg.rcv F.rcvAbstatDropped 1
    else
      let s1 := (s.setFld (bank ctx Pg.rcv) F.rcvJobgenGen gen).abort ctx Cause.fabric false 0 []
      let s2 := s1.event s1.hub Ev.fabricAbortIn ctx (unitOf (Pg.lnk p)) (Pkt.src ws) (BitVec.ofNat 64 (wf ws 6 3 0))
      s2.startRelay ctx (wf ws 6 3 0) (wf ws 5 15 0) gen (some (Pkt.src ws))

/-! ## Packets (R303, R308 to R313, R319 to R324) -/

def opInClass (cls op : Nat) : Bool :=
  match cls with
  | 0 => decide (1 ≤ op ∧ op ≤ 0x3F) | 1 => decide (0x40 ≤ op ∧ op ≤ 0x7F) | 2 => decide (0x80 ≤ op ∧ op ≤ 0xBF) | _ => decide (0xC0 ≤ op ∧ op ≤ 0xEF)

def knownOp (op : Nat) : Bool := [Op.put, Op.get, Op.get3, Op.atomic, Op.signal, Op.sl, Op.data3, Op.relay, Op.ack, Op.data, Op.credit, Op.chunk].contains op

/-- A packet that every port discards as FORMAT (R308, R310, R311). -/
def State.badFormat (s : State) (p : Nat) (ws : List W64) : Bool :=
  let v2 := decide (s.portVer p = 2)
  let vcOk := if s.escapeMode then decide (Pkt.vc ws / 2 = Pkt.cls ws) else decide (Pkt.vc ws = 2 * Pkt.cls ws + Pkt.epoch ws)
  decide (wf ws 0 13 10 ≠ 0 ∨ wf ws 3 55 32 ≠ 0) || (v2 && decide (wf ws 0 9 8 ≠ 0 ∨ Pkt.fmt ws ≠ 0 ∨ Pkt.cls ws = 1)) ||
  decide ((if v2 then 4 else 32) < Pkt.plen ws ∨ ws.length ≠ 4 + 4 * Pkt.plen ws) || !opInClass (Pkt.cls ws) (Pkt.op ws) || !vcOk || decide (wf ws 3 31 0 ≠ pcrc ws)

/-- Discarded as FORMAT. -/
def State.dropFormat (s : State) (p : Nat) : State := (s.addFld (Pg.lnk p) F.lnkDropFormat 1).setErr (Pg.lnk p) F.lnkErrStatFormat 0

/-- A packet for this package sinks; stage-link messages come by their own commands (log 36). -/
def State.sink (s : State) (p : Nat) (ws : List W64) : State :=
  if !knownOp (Pkt.op ws) then s.dropFormat p
  else if Pkt.op ws = Op.relay then s.sinkRelay p ws
  else if Pkt.op ws = Op.sl then s
  else s.withNet { s.net with sunk := s.net.sunk ++ [⟨ws, portDie p, p⟩] }

/-- Whether a port receives packets (R321). -/
def State.portReceives (s : State) (p : Nat) : Bool :=
  (decide (s.lnk p = Lk.routed) || (decide (s.lnk p = Lk.parked) && decide (s.fld (Pg.lnk p) F.lnkStatPend = 1))) && !(s.port p).waitMark

/-- A whole packet arrives: it takes buffer flits, is checked, and sinks or waits to be forwarded. -/
def State.receive (s : State) (p : Nat) (ws : List W64) : State :=
  let n := 1 + Pkt.plen ws
  let x := s.port p
  let s1 := (s.setPort p { x with accepted := addFlits x.accepted (Pkt.vc ws) n }).addWork (Pg.lnk p + 1) n
  if s.badFormat p ws then (s1.dropFormat p).freeFlits p (Pkt.vc ws) n
  else if Pkt.dst ws = s.self then (s1.freeFlits p (Pkt.vc ws) n).sink p ws
  else s1.withNet { s1.net with held := s1.net.held ++ [⟨ws, portDie p, p⟩] }

def execPktRecv (p : Fin 24) (words : List W64) (s : State) : Host.Outcome State Fault Refusal :=
  if s.portReceives p then .next (s.receive p words) else .next s

/-- A relay as it sinks (R415): received as any packet is. -/
def execRelayRecv (p : Fin 24) (words : List W64) (s : State) : Host.Outcome State Fault Refusal :=
  if s.portReceives p && decide (Pkt.op words = Op.relay) then .next (s.receive p words) else .next s

/-- A packet leaves on a port and VC; its TTL counts down when this package forwards it (R308, R319). -/
def State.sendOn (s : State) (h : Held) (p vc : Nat) : State :=
  let ttl := if h.port < 24 then Pkt.ttl h.words - 1 else Pkt.ttl h.words
  let ws := h.words.set 0 (Bits.put (Bits.put (wd h.words 0) 30 28 vc) 25 20 ttl)
  let n := 1 + Pkt.plen ws
  let s1 := (s.unhold h).addWork (Pg.lnk p) n
  let x := s1.port p
  s1.setPort p { x with sent := addFlits x.sent vc n, lastTx := ws }

/-- The first held packet of a list that can leave or is discarded; one that waits keeps those behind it on its port and VC
waiting, but one that waits to enter a ring does not keep a packet that continues it (R312, R317). -/
def State.nextHeld (s : State) : List Held → List (Nat × Nat × Bool) → Option (Held × Fwd)
  | [], _ => none
  | h :: t, bl => match s.fwd h with
    | .wait p vc e => s.nextHeld t ((p, vc, e) :: bl)
    | .send p vc e => if bl.contains (p, vc, false) || (e && bl.contains (p, vc, true)) then s.nextHeld t bl else some (h, .send p vc e)
    | .drop f => some (h, .drop f)

def execPktForward (d : Die) (s : State) : Host.Outcome State Fault Refusal :=
  match s.nextHeld (s.net.held.filter fun h => decide (h.die = d.val)) [] with
  | some (h, .send p vc _) => .next (s.sendOn h p vc)
  | some (h, .drop f) => .next ((s.unhold h).addFld Pg.rte f 1)
  | _ => .next s

/-- The oldest packet that the die holds exceeds its residence limit. -/
def execPktStaleDiscard (d : Die) (s : State) : Host.Outcome State Fault Refusal :=
  match s.net.held.find? fun h => decide (h.die = d.val) with
  | some h => .next ((s.unhold h).addFld Pg.rte F.rteDropaStale 1)
  | none => .next s

/-! ## Port control (R311, R327, R328, R334) -/

def vcFields (w : W64) : List Nat := (List.range 4).map fun i => Bits.get w (16 * i + 15) (16 * i)

/-- Whether allocations are within bounds (R311): 8,192 in all, each at least 66 but for VC2 and VC3 of a version-2 port. -/
def State.allocOk (s : State) (p : Nat) (hi : Bool) (data : W64) : Bool :=
  let lo := if hi then s.reg (Pg.lnk p + 0x108) else data
  let up := if hi then data else s.reg (Pg.lnk p + 0x110)
  let l := vcFields lo ++ vcFields up
  decide (l.foldl (· + ·) 0 ≤ 8192) && (l.zipIdx.all fun x => decide (66 ≤ x.1) || (decide (s.portVer p = 2) && decide (x.2 = 2 ∨ x.2 = 3)))

def execLnkVcallocWrite (p : Fin 24) (hi : Bool) (data : W64) (s : State) : Host.Outcome State Fault Refusal :=
  if !s.allocOk p hi data then .next (s.setErr (Pg.lnk p) F.lnkErrStatBadSeq 0)
  else
    let s1 := s.plainWrite (Pg.lnk p + (if hi then 0x110 else 0x108)) data
    if s.portUp p && !(s.port p).waitMark then .next (s1.startResync p) else .next s1

def execLnkFence (p : Fin 24) (s : State) : Host.Outcome State Fault Refusal :=
  if s.lnk p = Lk.fenced then .next s else .next (s.fencePort p 7)

def execLnkReadmit (p : Fin 24) (s : State) : Host.Outcome State Fault Refusal :=
  if s.lnk p ≠ Lk.fenced then .next (s.setErr (Pg.lnk p) F.lnkErrStatBadSeq 0)
  else
    let u := s.unitRec (lnkKey p)
    .next ((((s.setLnk p Lk.down).setBitF (Pg.lnk p) F.lnkCtrlFence false).setFld (Pg.lnk p) F.lnkDownsCount 0).putUnit (lnkKey p) { u with fenced := false, cause := 0, downs := [] })

def execLnkRetrain (p : Fin 24) (s : State) : Host.Outcome State Fault Refusal :=
  if s.lnk p = Lk.down ∧ s.dieUp (portDie p) = true then .next (s.trainPort p) else .next (s.setErr (Pg.lnk p) F.lnkErrStatBadSeq 0)

/-- DSC.PEER.RESULT of a port. -/
def State.peerResult (s : State) (p : Nat) : Nat := s.fld (Pg.dsc + 8 * p) F.dscPeerResult

/-- ADMIT (R302, R328, R339): only on a port whose discovery result is MATCH. -/
def execLnkAdmit (p : Fin 24) (s : State) : Host.Outcome State Fault Refusal :=
  if s.lnk p ≠ Lk.parked ∨ s.peerResult p ≠ 1 then
    let s1 := s.setErr (Pg.lnk p) F.lnkErrStatBadSeq 0
    .next (if s.lnk p = Lk.parked ∧ s.peerResult p = 3 then s1.setErr Pg.dsc F.dscErrStatWrong 0 else s1)
  else if s.portVer p = 2 ∧ s.escapeMode = true then .next s
  else .next (s.setFld (Pg.lnk p) F.lnkStatPend 1)

def execLnkPark (p : Fin 24) (s : State) : Host.Outcome State Fault Refusal :=
  if s.lnk p = Lk.routed then .next (s.setFld (Pg.lnk p) F.lnkStatPend 2) else .next (s.setErr (Pg.lnk p) F.lnkErrStatBadSeq 0)

/-- EN = 0 holds the port OFF with no DOWN event, EN = 1 takes it from OFF to DOWN (R334); a FENCED port stays fenced. -/
def execLnkEnWrite (p : Fin 24) (en : Bool) (s : State) : Host.Outcome State Fault Refusal :=
  let s1 := s.setBitF (Pg.lnk p) F.lnkCtrlEn en
  if s.lnk p = Lk.fenced then .next s1
  else if !en then .next (if s.lnk p = Lk.off then s1 else s1.portOff p Lk.off)
  else .next (if s.lnk p = Lk.off then s1.setLnk p Lk.down else s1)

/-- 0 ERRCNT, 1 DROP, 2 TRAFFIC (R329). -/
def execLnkCounterRead (p : Fin 24) (reg : Fin 3) (s : State) : Host.Outcome State Fault Refusal :=
  let k := Pg.lnk p
  if reg.val < 2 then .next (s.readClear (k + 0x128 + 8 * reg.val) (BitVec.allOnes 64))
  else
    let s1 := s.out (Bits.make [(63, 32, s.workUnits k 20), (31, 0, s.workUnits (k + 1) 20)])
    .next (s1.withWork (KMap.set 0 (KMap.set 0 s1.work k 0) (k + 1) 0))

/-! ## Routing versions (R320 to R324, R330) -/

/-- Time since the last flip in ns (R330). -/
def State.since (s : State) : Nat := match s.net.flipAt with | some t => s.now s.hub - t | none => 0

/-- TTL × STALE in ns (R320, R324). -/
def State.packetLife (s : State) : Nat := s.fld Pg.rte F.rteCfgTtl * s.fld Pg.rte F.rteTimersStale * 1000

def State.loadAllowed (s : State) (v : Nat) : Bool :=
  let st := s.verState v
  decide (st = Ver.empty ∨ st = Ver.ready) || (decide (st = Ver.draining) && decide (s.packetLife ≤ s.since))

/-- A write of RTE.LOAD (R320). -/
def execRteLoad (data : W64) (s : State) : Host.Outcome State Fault Refusal :=
  if !data.getLsbD 0 then .next s else
  let v := F.rteLoadVer.of data
  if s.loadAllowed v then
    let both := decide (s.verState 0 = Ver.empty ∧ s.verState 1 = Ver.empty)
    let s1 := s.setVerState v Ver.loading
    .next (s1.withNet { s1.net with loads := s1.net.loads ++ [(v, F.rteLoadAddr.of data * 65536, both)] })
  else .next (s.setErr Pg.rte F.rteErrStatBadSeq 0)

/-- Ports with an ADMIT pending become ROUTED, with a PARK pending PARKED, which makes a HELLO due (R337). -/
def State.applyPending (s : State) (parks : Bool) : State :=
  (List.range 24).foldl (fun s p =>
    let e := s.fld (Pg.lnk p) F.lnkStatPend
    if e = 1 then s.routePort p else if e = 2 && parks then ((s.setLnk p Lk.parked).setFld (Pg.lnk p) F.lnkStatPend 0).setPort p { s.port p with helloDue := true } else s) s

/-- The image of a load: 65,536 entries and their CRC-64. -/
def State.loadImage (s : State) (v a : Nat) (both : Bool) : State :=
  let es := s.loadWords a 65536
  if s.load64 (a + 524288) ≠ crcWords es ∨ s.loadPoison a 524296 = true then (s.setVerState v Ver.empty).setErr Pg.rte F.rteErrStatLoadDigest 0
  else
    let mine : KMap W64 := (es.zipIdx.filter fun (e : W64 × Nat) => e.1 != 0).map fun e => (65536 * v + e.2, e.1)
    let old : KMap W64 := s.net.routes.filter fun e => decide (e.1 / 65536 ≠ v)
    let s1 := s.withNet { s.net with routes := if v = 0 then mine ++ old else old ++ mine }
    if v = 0 && both then (s1.setVerState 0 Ver.active).applyPending false else s1.setVerState v Ver.ready

def execRteLoadDone (s : State) : Host.Outcome State Fault Refusal :=
  match s.net.loads with
  | (v, a, both) :: rest => .next (((s.withNet { s.net with loads := rest })).loadImage v a both)
  | [] => .next s

/-- A write of RTE.FLIP with GO = 1 (R321). -/
def execRteFlip (s : State) : Host.Outcome State Fault Refusal :=
  let old := s.inj
  let new := 1 - old
  if s.verState new ≠ Ver.ready then .next (s.setErr Pg.rte F.rteErrStatBadSeq 0)
  else
    let s1 := ((s.setFld Pg.rte F.rteStatInj new).setVerState new Ver.active).setVerState old Ver.draining
    .next (((s1.withNet { s1.net with flipAt := some (s.now s.hub) })).applyPending true)

/-- REQ_TMO is at least TTL × STALE / 8, rounded up (R324). -/
def State.boundTmo (s : State) : State :=
  let b := (s.fld Pg.rte F.rteCfgTtl * s.fld Pg.rte F.rteTimersStale + 7) / 8
  s.setFld Pg.rte F.rteTimersReqTmo (max b (s.fld Pg.rte F.rteTimersReqTmo))

/-- MODE and SELF only while both versions are EMPTY (R322); a TTL below 2 stores 2. -/
def execRteCfgWrite (data : W64) (s : State) : Host.Outcome State Fault Refusal :=
  let k := Pg.rte + 0x100
  if !(decide (s.verState 0 = Ver.empty ∧ s.verState 1 = Ver.empty)) && s.changes k (Bits.mask 63 48 ||| Bits.mask 40 40) data then
    .next (s.setErr Pg.rte F.rteErrStatBadSeq 0)
  else
    let s1 := s.plainWrite k data
    .next (s1.setFld Pg.rte F.rteCfgTtl (max 2 (s1.fld Pg.rte F.rteCfgTtl))).boundTmo

def execRteTimersWrite (data : W64) (s : State) : Host.Outcome State Fault Refusal :=
  let s1 := s.plainWrite (Pg.rte + 0x108) data
  .next (s1.setFld Pg.rte F.rteTimersStale (min 65000 (max 10 (F.rteTimersStale.of data)))).boundTmo

/-- 0 DROPA, 1 DROPB, 2 TMO (R330). -/
def execRteCounterRead (reg : Fin 3) (s : State) : Host.Outcome State Fault Refusal := .next (s.readClear (Pg.rte + 0x128 + 8 * reg.val) (BitVec.allOnes 64))

/-- DOWN stamps older than 86,400 s no longer count (R327); for the host link, those of its lane sets (R367). -/
def State.downWindow (s : State) (key d : Nat) : Nat := (within (s.now d) dayNs (s.unitRec key).downs).length

end Sys2Proof.Machine
end

