-- ==== Sys2Proof/Machine/StoreOps.lean ====
section
/-! DEFINITION. Reading the survival store (R446 to R450): the records that count, and the winning record of a type and key. -/

namespace Sys2Proof.Machine

/-- The readable log of a bank: up to the first record whose CRC fails; a bank without a valid SEAL holds nothing (R448). -/
def readableBank (l : List SstRec) : List SstRec :=
  let r := l.takeWhile SstRec.valid
  if r.any fun x => decide (x.typ = 1) then r else []

def Flash.records (f : Flash) : List SstRec := if f.ok then readableBank f.bank0 ++ readableBank f.bank1 else []

/-- Every record that counts on both devices. -/
def Sst.records (t : Sst) : List SstRec := t.a.records ++ t.b.records

/-- The record of the highest SEQ. -/
def newest (l : List SstRec) : Option SstRec :=
  l.foldl (fun best r => match best with | none => some r | some b => if b.seq < r.seq then some r else best) none

/-- The winning record of a type and key (R447). -/
def Sst.winner (t : Sst) (typ key : Nat) : Option SstRec := newest (t.records.filter fun r => decide (r.typ = typ ∧ r.key = key))

/-- Keys of a type that have a record. -/
def Sst.keys (t : Sst) (typ : Nat) : List Nat := ((t.records.filter fun r => decide (r.typ = typ)).map (·.key)).eraseDups

end Sys2Proof.Machine
end

