-- ==== Sys2Proof/Machine/Store.lean ====
section
/-! DEFINITION. The survival store's commands (R445 to R451): records becoming durable, the background erase, the copy into the other
bank, reading. -/

namespace Sys2Proof.Machine

def bankBytes : Nat := 64 * 2 ^ 20

def SstRec.size (r : SstRec) : Nat := 40 + 8 * r.payload.length

def Flash.bank (f : Flash) (b : Nat) : List SstRec := if b = 0 then f.bank0 else f.bank1
def Flash.setBank (f : Flash) (b : Nat) (l : List SstRec) : Flash := if b = 0 then { f with bank0 := l } else { f with bank1 := l }

def State.activeBank (s : State) : Nat := s.fld Pg.sst F.sstStatActive

/-- The devices that records go to: in service, FP-A while CD0 works and FP-B while CD3 works (R26, R36, R445). -/
def State.onDevs (s : State) (f : Flash → Flash) : State :=
  let t := s.sst
  s.withSst { t with a := if t.a.ok && s.dieUp 0 then f t.a else t.a, b := if t.b.ok && s.dieUp 3 then f t.b else t.b }

/-- Whether the next record does not fit into the active bank. -/
def State.bankFull (s : State) : Bool :=
  match s.sst.wait with
  | r :: _ => decide (bankBytes < s.fld Pg.sst F.sstUsedWritten + r.size)
  | [] => false

/-- The oldest record that waits is programmed on the devices and durable; a half-full bank starts the erase of the other (R449,
R451). -/
def execSstRecordWrite (s : State) : Host.Outcome State Fault Refusal :=
  match s.sst.wait with
  | [] => .next s
  | r :: rest =>
    if s.bankFull then .next s else
    let b := s.activeBank
    let s1 := (s.onDevs fun f => f.setBank b (f.bank b ++ [r])).addFld Pg.sst F.sstUsedWritten r.size
    let half := decide (bankBytes / 2 ≤ s1.fld Pg.sst F.sstUsedWritten) && !s1.sst.erased && !s1.sst.erasing
    .next (s1.withSst { s1.sst with wait := rest, erasing := s1.sst.erasing || half })

/-- The background erase of the bank that is not active ends. -/
def execSstBankErase (s : State) : Host.Outcome State Fault Refusal :=
  if !s.sst.erasing then .next s else
  let b := 1 - s.activeBank
  let s1 := s.onDevs fun f => f.setBank b []
  .next (s1.withSst { s1.sst with erased := true, erasing := false })

/-- The winning record of every key, in SEQ order; of the error log the newest 16,384 (R449). -/
def sstInsert (r : SstRec) : List SstRec → List SstRec
  | [] => [r]
  | x :: t => if r.seq < x.seq then r :: x :: t else x :: sstInsert r t

def Sst.live (t : Sst) : List SstRec :=
  let all := (((List.range 256).filter fun typ => decide (typ ≠ 1)).flatMap fun typ => (t.keys typ).filterMap fun k => t.winner typ k).foldr sstInsert []
  let errs := all.filter fun r => decide (r.typ = 4)
  let old := errs.take (errs.length - 16384)
  all.filter fun r => !old.contains r

/-- A SEAL record (R447). -/
def sealRec (seq time : Nat) (free : Bool) (b n : Nat) : SstRec :=
  let r : SstRec := ⟨1, 0, seq, time, free, [BitVec.ofNat 64 b, BitVec.ofNat 64 n], 0⟩
  { r with crc := crcWords r.head }

/-- The copy into the erased bank, its SEAL, and the switch (R449). -/
def execSstCompact (s : State) : Host.Outcome State Fault Refusal :=
  if !(s.bankFull && s.sst.erased) then .next s else
  let b := 1 - s.activeBank
  let l := s.sst.live
  let seq := s.fld Pg.sst F.sstSeqNext
  let recs := l ++ [sealRec seq (s.now s.hub) (s.tb s.hub).free b l.length]
  let s1 := (s.onDevs fun f => f.setBank b recs).setFld Pg.sst F.sstSeqNext (seq + 1)
  let s2 := ((s1.setFld Pg.sst F.sstStatActive b).wrapFld Pg.sst F.sstStatCompacts 1).setFld Pg.sst F.sstUsedWritten (recs.foldl (fun n r => n + r.size) 0)
  .next (s2.withSst { s2.sst with erased := false })

def execSstRselWrite (data : W64) (s : State) : Host.Outcome State Fault Refusal :=
  let s1 := s.plainWrite (Pg.sst + 0x110) data
  .next (s1.withSst { s1.sst with rdWord := 0 })

def natInsert (n : Nat) : List Nat → List Nat
  | [] => [n]
  | x :: t => if n ≤ x then n :: x :: t else x :: natInsert n t

/-- The record that SST.RSEL names: the N-th winning record of the type in ascending KEY (R454). -/
def State.selected (s : State) : Option SstRec :=
  let typ := s.fld Pg.sst F.sstRselType
  match ((s.sst.keys typ).foldr natInsert [])[s.fld Pg.sst F.sstRselN]? with
  | some k => s.sst.winner typ k
  | none => none

def State.sstWord (s : State) : W64 := match s.selected with | some r => wd r.words s.sst.rdWord | none => 0

def execSstRdataRead (s : State) : Host.Outcome State Fault Refusal :=
  .next ((s.out s.sstWord).withSst { s.sst with rdWord := s.sst.rdWord + 1 })

/-- Whether every record asked for so far is durable. -/
def State.allDurable (s : State) : Bool := s.sst.wait.isEmpty

end Sys2Proof.Machine
end

