-- ==== Sys2Proof/Machine/Power.lean ====
section
/-! DEFINITION. Power, heat and droop (16): the estimator and the power cap, the junction ceiling, the board limit, the droop
warnings of the islands. Estimates are exact, in units of 1/25,600,000 W: a count of a class of weight w (in 1/16 pJ) is w of
them (R455). -/

namespace Sys2Proof.Machine

def pwrUnit : Nat := 25600000

/-! ## Estimator and cap (R455 to R460) -/

def State.weight (s : State) (i : Nat) : Nat := if i < 8 then s.fld (Pg.pwr + 8 * i) F.pwrWPj else 0

def staticFld (d : Nat) : Fld := [F.pwrStaticD0, F.pwrStaticD1, F.pwrStaticD2, F.pwrStaticD3].getD d F.pwrStaticD0

/-- The static power of the dies that are not fenced, in W. -/
def State.staticW (s : State) : Nat := (List.range 4).foldl (fun n d => if s.plat.dieFenced.getLsbD d then n else n + s.fld Pg.pwr (staticFld d)) 0

/-- The estimate of a tick with these counts of the classes (R455). -/
def State.estimate (s : State) (counts : List Nat) : Nat :=
  s.staticW * pwrUnit + (List.range 8).foldl (fun n i => n + s.weight i * counts.getD i 0) 0

/-- PEAK_EFF (R458). -/
def State.peakEff (s : State) : Nat :=
  let b := s.fld Pg.pwr F.pwrBmlimLimit
  if b = 0 then s.fld Pg.pwr F.pwrLimitPeak else min (s.fld Pg.pwr F.pwrLimitPeak) b

/-- The sum of the last n estimates; missing ones count as fill (R462). -/
def estSum (ests : List Nat) (n fill : Nat) : Nat := (ests.take n).foldl (· + ·) 0 + (n - min n ests.length) * fill

def State.nmxe (s : State) : Nat := ((List.range 192).filter s.mxeUp).length

/-- The largest c of 1 to n with 32 × base + full × c at most 32 × allow; 1 if there is none (R459). -/
def capBelow (base full : Nat) (allow : Int) : Nat → Nat
  | 0 => 1
  | n + 1 => if (32 * base + full * (n + 1) : Nat) ≤ 32 * allow then n + 1 else capBelow base full allow n

/-- R459 at the end of a tick with estimate p, the newest of ests. -/
def State.nextCap (s : State) (ests : List Nat) (p count0 : Nat) : Nat :=
  let room : Nat := (s.peakEff - s.fld Pg.pwr F.pwrLimitGuard) * pwrUnit
  let sust := s.fld Pg.pwr F.pwrLimitSust * pwrUnit
  let full := s.weight 0 * s.nmxe * 1504
  let base := p - s.weight 0 * count0
  let allow1 : Int := (625 * room : Nat) - (estSum ests 624 room : Nat)
  let allows : Int := (625000 * sust : Nat) - (estSum ests 624999 sust : Nat)
  min (capBelow base full (min allow1 allows) 32) (min (s.fld Pg.pwr F.pwrStatTjcap) (s.fld Pg.pwr F.pwrStatCap + 2))

/-- The mean of the estimates that exist of the last n, in whole W (log 44). -/
def estMean (ests : List Nat) (n : Nat) : Nat :=
  let l := ests.take n
  min 65535 (l.foldl (· + ·) 0 / (max 1 l.length * pwrUnit))

/-- Ticks of 1.6 µs in whole µs. -/
def tickUs (n : Nat) : Nat := 8 * n / 5

/-- The tick that ends belongs to the episode while the cap is below 32; the episode ends as the cap returns to 32 (R468, R469). -/
def State.episode (s : State) (old new : Nat) : State :=
  if 32 ≤ old then s else
  let n := s.pwr.epTicks
  let low := min s.pwr.epLow old
  let s1 := (s.addFld Pg.pwr F.pwrCaplogLimitedUs (tickUs (n + 1) - tickUs n))
  if new < 32 then s1.withPwr { s1.pwr with epTicks := n + 1, epLow := low }
  else
    let s2 := s1.withPwr { s1.pwr with epTicks := 0, epLow := 32 }
    ((s2.addFld Pg.pwr F.pwrCaplogEpisodes 1).setErr Pg.pwr F.pwrErrStatLimited 0).event s2.hub Ev.pwrLimit 0 (unitOf Pg.pwr) (min (2 ^ 32 - 1) (tickUs (n + 1))) (BitVec.ofNat 64 low)

/-- A tick of the controller. -/
def execPwrTick (counts : List Nat) (s : State) : Host.Outcome State Fault Refusal :=
  if !s.plat.pwrOk then .next s else
  let p := s.estimate counts
  let ests := (p :: s.pwr.ests).take 625000
  let old := s.fld Pg.pwr F.pwrStatCap
  let new := if ests.length < 625 then old else s.nextCap ests p (counts.getD 0 0)
  let s1 := s.withPwr { s.pwr with ests := ests }
  let s2 := ((s1.setFld Pg.pwr F.pwrEstP (min 65535 (p / pwrUnit))).setFld Pg.pwr F.pwrEstA1 (estMean ests 625)).setFld Pg.pwr F.pwrEstAs (estMean ests 625000)
  .next ((s2.setFld Pg.pwr F.pwrStatCap new).episode old new)

/-- The controller starts without history (R462). -/
def State.pwrStart (s : State) : State :=
  let s1 := s.withPwr { s.pwr with ests := [], epTicks := 0, epLow := 32, hot := false }
  (s1.setFld Pg.pwr F.pwrStatCap 16).setFld Pg.pwr F.pwrStatTjcap 32

def execPwrCaplogRead (s : State) : Host.Outcome State Fault Refusal := .next (s.readClear (Pg.pwr + 0x300) (BitVec.allOnes 64))

/-! ## Limits (R458) -/

def clampNat (lo hi v : Nat) : Nat := max lo (min hi v)

/-- BMLIM is zero, or 1,000 to 2,000 W; the event names the new and the old limit. No die answers the bus while neither CD0 nor CD3
works (R25). -/
def execBmBmlimWrite (v : W16) (s : State) : Host.Outcome State Fault Refusal :=
  if !s.hubUp then .next s else
  let new := if v = 0 then 0 else clampNat 1000 2000 v.toNat
  let old := s.fld Pg.pwr F.pwrBmlimLimit
  if new = old then .next s
  else .next (((s.setFld Pg.pwr F.pwrBmlimLimit new).setErr Pg.pwr F.pwrErrStatBmLimit 0).event s.hub Ev.bmLimit 0 (unitOf Pg.pwr) new (BitVec.ofNat 64 old))

/-! ## Heat (R43, R461) -/

/-- An island's sensor is read. -/
def State.islTemp (s : State) (d k : Nat) (temp : W16) : State := s.setFld (Pg.isl d k) F.islTempTemp temp.toNat

/-- A step of the junction ceiling, with the hottest sensor of the compute dies. -/
def execTjcapStep (hot : Bool) (d : Die) (k : Fin 35) (temp : W16) (s : State) : Host.Outcome State Fault Refusal :=
  if !s.plat.pwrOk then .next s else
  let thr : Int := (BitVec.ofNat 16 (s.fld Pg.pwr F.pwrTjThr)).toInt
  let cap := s.fld Pg.pwr F.pwrStatTjcap
  if hot then
    if temp.toInt < thr then .next s else
    let s1 := (s.islTemp d k temp).setFld Pg.pwr F.pwrStatTjcap (max 1 (cap - 1))
    if s.pwr.hot then .next s1
    else .next (((s1.withPwr { s1.pwr with hot := true }).setErr Pg.pwr F.pwrErrStatTjHot 0).event s.hub Ev.tjHot 0 (unitOf (Pg.isl d k)) 0 (BitVec.ofNat 64 temp.toNat))
  else
    if thr ≤ temp.toInt then .next s else
    let s1 := (s.islTemp d k temp).withPwr { s.pwr with hot := false }
    if temp.toInt ≤ thr - 32 then .next (s1.setFld Pg.pwr F.pwrStatTjcap (min 32 (cap + 1))) else .next s1

/-- A compute-die sensor at 115 °C or a stack at 110 °C: THERMTRIP_N falls and stays until PWR_OK falls (R43). -/
def execThermtrip (sn : Sensor) (temp : W16) (s : State) : Host.Outcome State Fault Refusal :=
  if !s.plat.pwrOk then .next s else
  match sn with
  | .island d k => if temp.toInt < 1840 then .next s else .next ((s.islTemp d k temp).trip d (unitOf (Pg.isl d k)) temp)
  | .stack k => if temp.toInt < 1760 then .next s else .next ((s.setFld (Pg.msc k) F.mscTempTemp temp.toNat).trip (k / 5) (unitOf (Pg.msc k)) temp)

/-! ## Droop (R463 to R466) -/

def State.warn (s : State) (d k : Nat) : Option Warn := KMap.get none s.plat.warns (64 * d + k)
def State.setWarn (s : State) (d k : Nat) (w : Option Warn) : State :=
  let s1 := s.withPlat { s.plat with warns := KMap.set none s.plat.warns (64 * d + k) w }
  let r := Pg.drp d + 0x18
  s1.setReg r (Bits.putBit (s1.reg r) k w.isSome)

/-- ISL.STRETCH counts a running episode up to now (R38, R41). -/
def State.countStretch (s : State) (d k : Nat) : State :=
  match s.warn d k with
  | some w => (s.addFld (Pg.isl d k) F.islStretchStretchNs (s.now d - w.counted)).setWarn d k (some { w with counted := s.now d })
  | none => s

def execIslStretchRead (d : Die) (k : Fin 35) (s : State) : Host.Outcome State Fault Refusal :=
  .next ((s.countStretch d k).readClear (Pg.isl d k + 0x108) (BitVec.allOnes 64))

/-- The droop cap acts at once on every matrix engine of a die; the other caps, and its end, wait for a window boundary (R96, R463). -/
def State.capDroop (s : State) (d : Nat) : State :=
  (List.range 48).foldl (fun s e => s.setFld (Pg.mxe (48 * d + e)) F.mxeStatCapEff (min 8 (s.fld (Pg.mxe (48 * d + e)) F.mxeStatCapEff))) s

/-- The supply of an island falls below 0.7125 V, and not below 0.66 V; a lower sample of the episode counts for its lowest. -/
def execDroopWarnAssert (d : Die) (k : Fin 35) (mv : W16) (s : State) : Host.Outcome State Fault Refusal :=
  if !s.dieUp d || decide (mv.toNat < 660 ∨ 713 ≤ mv.toNat) then .next s else
  match s.warn d k with
  | some w => .next (s.setWarn d k (some { w with low := min w.low mv.toNat }))
  | none => .next (((s.setWarn d k (some ⟨s.now d, mv.toNat, s.now d⟩)).addFld (Pg.isl d k) F.islStretchEvents 1).capDroop d)

/-- A warning ends and is logged as its island's episode (R464, R466). -/
def State.endWarn (s : State) (d k mv : Nat) : State :=
  match s.warn d k with
  | none => s
  | some w =>
    let ns := s.now d - w.start
    let low := min w.low mv
    let p := Pg.drp d
    let s1 := (((s.countStretch d k).setWarn d k none).addFld p F.drpCntWarns 1).addFld p F.drpCntWarnNs ns
    let s2 := s1.setReg (p + 0x108) (Bits.make [(55, 48, k), (47, 32, low), (31, 0, min (2 ^ 32 - 1) ns)])
    (s2.setErr p F.drpErrStatWarn 0).event d Ev.droopWarn 0 (unitOf (Pg.isl d k)) (min (2 ^ 32 - 1) ns) (BitVec.ofNat 64 low)

def execDroopWarnEnd (d : Die) (k : Fin 35) (mv : W16) (s : State) : Host.Outcome State Fault Refusal :=
  if mv.toNat < 660 then .next s else .next (s.endWarn d k mv.toNat)

/-- Warnings of islands that are reset for another cause end and are logged (R466). -/
def State.endWarns (s : State) (d : Nat) (ks : List Nat) : State := ks.foldl (fun s k => s.endWarn d k 65535) s

def execDrpCntRead (d : Die) (s : State) : Host.Outcome State Fault Refusal := .next (s.readClear (Pg.drp d + 0x100) (BitVec.allOnes 64))

end Sys2Proof.Machine
end

