-- ==== Sys2Proof/Machine/Directory.lean ====
section
/-! DEFINITION. The page directory (R390 to R392, R479): which pages answer, at which window addresses, the common header's
identities, and the attention that pages raise (R375, R376, R396, R425). A page that moves keeps its registers at its CD0 address in
the state, wherever it answers. -/

namespace Sys2Proof.Machine

/-! ## Pages -/

/-- Blocks with one page that moves between CD0 and CD3 (R391, R401). -/
def movesBlk (b : Nat) : Bool := [0x06, 0x10, 0x16, 0x18, 0x19, 0x1B, 0x1C, 0x1D, 0x21, 0x22, 0x23, 0x25, 0x26].contains b
/-- HLK and ATN lie on the die of the ACTIVE lane set (R392). -/
def linkBlk (b : Nat) : Bool := decide (b = 0x01 ∨ b = 0x05)
/-- Fast pages: DIR, HLK, ATN, SQ (R373). -/
def fastBlk (b : Nat) : Bool := decide (b = 0x00 ∨ b = 0x01 ∨ b = 0x04 ∨ b = 0x05)

/-- Pages of a block on a die, or, of a block that moves, in all. -/
def pagesOf (b : Nat) : Nat :=
  match b with
  | 0x00 => 4 | 0x02 => 35 | 0x04 => 64 | 0x08 => 48 | 0x0A => 24 | 0x0B => 12 | 0x0C => 12 | 0x12 => 5 | 0x13 => 4 | 0x14 => 9 | 0x19 => 64
  | 0x1A => 6
  | 0x03 => 0 | 0x0F => 0 | 0x1F => 0
  | b => if b ≤ 0x27 then 1 else 0

/-- Blocks of the boot-time list (R479). -/
def bootBlk (b : Nat) : Bool := [0x00, 0x01, 0x05, 0x23, 0x25, 0x26, 0x27].contains b

namespace Ph
abbrev boot := 0
abbrev waitImage := 1
abbrev verify := 2
abbrev firmware := 3
abbrev ready := 4
abbrev test := 5
end Ph

def State.phase (s : State) : Nat := s.fld Pg.boot F.bootStatPhase

namespace Hl
abbrev off := 0
abbrev train := 1
abbrev standby := 2
abbrev active := 3
abbrev down := 4
abbrev fenced := 5
end Hl

/-- The state of a lane set, HL-A or HL-B (R365). -/
def laneFld (b : Bool) : Fld := if b then F.hlkStatStateB else F.hlkStatStateA
def State.lane (s : State) (b : Bool) : Nat := s.fld Pg.hlk (laneFld b)
def State.anyActive (s : State) : Bool := decide (s.lane false = Hl.active ∨ s.lane true = Hl.active)

/-- The die of the ACTIVE lane set; the hub die while there is none. -/
def State.linkDie (s : State) : Nat := if s.lane true = Hl.active then 3 else if s.lane false = Hl.active then 0 else s.hub

/-- Whether the directory lists block b on die d. -/
def State.lists (s : State) (d b : Nat) : Bool :=
  (decide (s.phase = Ph.ready) || bootBlk b) &&
  (if b = 0x00 then decide (d = 0)
   else if linkBlk b then decide (d = s.linkDie)
   else if movesBlk b then decide (d = s.hub)
   else if b = 0x04 then true
   else !s.plat.dieFenced.getLsbD d)

/-- The pages in force in ascending window address (R391). -/
def State.directory (s : State) : List Nat :=
  (List.range 4).flatMap fun d => (List.range 0x28).flatMap fun b => if s.lists d b then (List.range (pagesOf b)).map (pg d b) else []

/-- The page of the state that answers at a listed window page. -/
def canonPage (p : Nat) : Nat := if movesBlk (pgBlk p) || linkBlk (pgBlk p) then pg 0 (pgBlk p) (pgInst p) else p

/-- The address in the state of a listed page's register, or none (R372). -/
def State.canon (s : State) (a : Nat) : Option Nat :=
  let p := pageOf a
  if s.lists (pgDie p) (pgBlk p) && decide (pgInst p < pagesOf (pgBlk p)) then some (canonPage p + pgOff a) else none

/-- PAGE_ID of the page at a window address (R390; log 45). -/
def pageId (p : Nat) : W64 := Bits.make [(57, 56, pgDie p), (53, 48, pgBlk p), (45, 40, pgInst p), (31, 24, 3)]

def pageCaps (p : Nat) : W64 :=
  let b := pgBlk p
  Bits.make [(63, 63, if fastBlk b then 1 else 0), (62, 62, if movesBlk b || linkBlk b || decide (b = 0) then 1 else 0)]

def dirEntry (p : Nat) : W64 := Bits.putBit (Bits.putBit (pageId p) 63 true) 62 (fastBlk (pgBlk p))

/-- A change of the list advances GEN and sets DIR_CHANGE (R391). -/
def State.noteDir (s old : State) : State :=
  if s.directory = old.directory then s
  else (s.wrapFld Pg.dir F.dirStatGen 1).setErr Pg.hlk F.hlkErrStatDirChange 0

/-! ## Attention (R375, R376, R425) -/

/-- The class of a block's ERR_STAT bits: 3 error, 1 thermal/power, 0 fabric/security (status bits [15], [13], [12]). -/
def errClass (b : Nat) : Nat :=
  if b = 0x02 ∨ b = 0x06 ∨ b = 0x07 then 1
  else if b = 0x1A ∨ b = 0x1B ∨ b = 0x1C ∨ b = 0x1D ∨ b = 0x1E ∨ b = 0x25 ∨ b = 0x26 ∨ b = 0x27 then 0
  else 3

/-- A contribution: class bit, severity, context, and its order among equals of one page. -/
structure Contrib where
  cls : Nat
  sev : Nat
  ctx : Nat
  deriving DecidableEq, Repr

/-- Contributions of unread event records: for each class the highest severity, the lower SEQ on ties (R425). -/
def State.evContribs (s : State) (d : Nat) : List Contrib :=
  let rd := s.fld (Pg.evl d) F.evlPtrRd
  let n := (2 ^ 32 + s.fld (Pg.evl d) F.evlPtrWr - rd) % 2 ^ 32
  let recs := (List.range (min n 1024)).map fun i => wd (KMap.get [] s.events (d * 1024 + (rd + i) % 1024)) 0
  [(0, 3), (1, 1), (2, 0)].filterMap fun c =>
    (recs.filter fun w => decide (Bits.get w 39 38 = c.1)).foldl (fun best w =>
      let x : Contrib := ⟨c.2, Bits.get w 37 35, Bits.get w 47 40⟩
      match best with | none => some x | some b => if b.sev < x.sev then some x else best) none

/-- Credit at the host's completion ring (R384). -/
def State.ringCredit (s : State) : Bool := decide (((s.reg (Pg.hlk + 0x110)) - s.host.ccons).toNat < s.fld Pg.hlk F.hlkCfgCring)

/-- Queues with a record to be sent again, a range record owed, or an oldest accepted command that has finished (R382, R388). -/
def State.recordDue (s : State) : List Nat :=
  s.host.again.map (fun r => wf r 1 7 0) ++ s.host.ranges.map (·.1) ++ (s.host.sqs.filter fun e => match e.2 with | k :: _ => k.fin.isSome | [] => false).map (·.1)

/-- Everything a page contributes whose class its ATN.EN enables. page is the page of the state. -/
def State.contribs (s : State) (page : Nat) : List Contrib :=
  let b := pgBlk page
  let errs := (Bits.setBits 64 (s.reg (page + 0x20) &&& ~~~s.reg (page + 0x28)).toNat).map fun i => (⟨errClass b, 2, KMap.get 0 s.errCtx (page / 2 ^ 12 * 64 + i)⟩ : Contrib)
  let evs := if b = 0x20 then s.evContribs (pgDie page) else []
  let compl : List Contrib := if b = 0x01 && (!s.host.held.isEmpty || (!s.ringCredit && !s.recordDue.isEmpty)) then [⟨2, 0, 0⟩] else []
  (errs ++ evs ++ compl).filter fun c => (s.fld page F.comAtnEn).testBit c.cls

/-- The highest severity, and of equals the lower context. -/
def topContrib (l : List Contrib) : Option Contrib :=
  l.foldl (fun best c => match best with | none => some c | some b => if b.sev < c.sev ∨ (b.sev = c.sev ∧ c.ctx < b.ctx) then some c else best) none

def classMask (l : List Contrib) : Nat := (List.range 4).foldl (fun n i => if l.any (fun c => decide (c.cls = i)) then n + 2 ^ i else n) 0

/-- ATN of a page: EN as stored, the rest from what it raises (R390). -/
def State.atnView (s : State) (page : Nat) : W64 :=
  let l := s.contribs page
  let (sev, ctx) := match topContrib l with | some c => (c.sev, c.ctx) | none => (0, 0)
  Bits.make [(23, 16, ctx), (10, 8, sev), (7, 4, classMask l), (3, 0, s.fld page F.comAtnEn)]

/-- What every listed page raises, by directory index. -/
def State.raised (s : State) : List (Nat × List Contrib) := (s.directory.zipIdx.map fun x => (x.2, s.contribs (canonPage x.1))).filter fun x => !x.2.isEmpty

/-- The highest contribution of the package with its index; ties go to the lower index, then the lower context (R376). -/
def State.topRaised (s : State) : Option (Nat × Contrib) :=
  s.raised.foldl (fun best x => match topContrib x.2 with
    | none => best
    | some c => match best with | none => some (x.1, c) | some b => if b.2.sev < c.sev then some (x.1, c) else best) none

def State.raisedClasses (s : State) : Nat := classMask (s.raised.flatMap (·.2))

/-- ATN.TOP (R396). -/
def State.atnTop (s : State) : W64 :=
  match s.topRaised with
  | some (i, c) => Bits.make [(63, 56, c.ctx), (50, 48, c.sev), (47, 44, s.raisedClasses), (10, 0, i)]
  | none => Bits.make [(10, 0, 0x7FF)]

/-- ATN.CTXk (R396). -/
def State.atnCtx (s : State) (k : Nat) : W64 :=
  Bits.make ((List.range 64).map fun i => (i, i, if s.raised.any (fun x => x.2.any fun c => decide (c.ctx = 64 * k + i)) then 1 else 0))

/-- ATN.RAISEDk (R396). -/
def State.atnRaised (s : State) (k : Nat) : W64 :=
  Bits.make ((List.range 64).map fun i => (i, i, if s.raised.any (fun x => decide (x.1 = 64 * k + i)) then 1 else 0))

/-- The status field of a reply frame (R376). -/
def State.statusField (s : State) (tag : Byte) : Nat :=
  let ctx := match s.topRaised with | some (_, c) => c.ctx % 16 | none => 0
  s.raisedClasses * 4096 + ctx * 256 + tag.toNat

end Sys2Proof.Machine
end

