-- ==== Sys2Proof/Machine/HostOps.lean ====
section
/-! DEFINITION. The host link's lane sets (R364 to R367), the binding of submission queues (R378), the watermark (R387), and the common
header's error registers (R390). -/

namespace Sys2Proof.Machine

/-! ## Lane sets (R365 to R367, R394) -/

def laneDie (b : Bool) : Nat := if b then 3 else 0
def laneKey (b : Bool) : Nat := unitKey Pg.hlk (if b then 1 else 0)
def State.setLane (s : State) (b : Bool) (st : Nat) : State := s.setFld Pg.hlk (laneFld b) st
def laneFence (b : Bool) : Fld := if b then F.hlkCtrlFenceB else F.hlkCtrlFenceA

def State.laneDowns (s : State) (b : Bool) : Nat := (within (s.now (laneDie b)) dayNs (s.unitRec (laneKey b)).downs).length
def State.showLaneDowns (s : State) : State := s.setFld Pg.hlk F.hlkStatDowns (s.laneDowns false + s.laneDowns true)

/-- A set becomes ACTIVE. -/
def State.activate (s : State) (b : Bool) : State := (s.setLane b Hl.active).setBitF Pg.hlk F.hlkStatActive b

/-- A training of a set is over: the package's own retraining of it, if it was that, is forgotten. -/
def State.endTick (s : State) (b : Bool) : State := s.withHost { s.host with ticks := s.host.ticks.filter fun x => decide (x ≠ b) }

/-- A set leaves service: every record sent and not consumed is sent again on the set that follows (R385); the other set takes over if it
is STANDBY (R366). -/
def State.laneOff (s : State) (b : Bool) (st : Nat) : State :=
  let was := decide (s.lane b = Hl.active)
  let s1 := (s.setLane b st).endTick b
  if !was then s1 else
  let s2 := s1.withHost { s1.host with held := s1.host.sent, fast := [], rqOk := false, tag := 0 }
  if s2.lane (!b) = Hl.standby then (s2.activate (!b)).setErr Pg.hlk F.hlkErrStatFailover 0 else s2

/-- Both sets are FENCED: the fence of HL-A is lifted, or of HL-B while CD0 is fenced, and the set is DOWN (R367). -/
def State.liftLanes (s : State) : State :=
  if s.lane false = Hl.fenced ∧ s.lane true = Hl.fenced then
    let b := s.plat.dieFenced.getLsbD 0
    ((s.setLane b Hl.down).setBitF Pg.hlk (laneFence b) false).liftFence (laneKey b)
  else s

def State.fenceLane (s : State) (b : Bool) (cause : Nat) : State :=
  (((((s.laneOff b Hl.fenced).setErr Pg.hlk F.hlkErrStatFenced 0).setBitF Pg.hlk (laneFence b) true).fenceUnit (laneDie b) Pg.hlk (laneKey b) cause).liftLanes).noteDir s

/-- A DOWN event; the fourth within 86,400 s of the first fences the set (R366, R367). -/
def State.laneDown (s : State) (b counted : Bool) (f : Fld) : State :=
  let s1 := (s.setErr Pg.hlk f 0).laneOff b Hl.down
  if !counted then s1.noteDir s else
  let now := s.now (laneDie b)
  let u := s1.unitRec (laneKey b)
  let n := (within now dayNs u.downs).length + 1
  let s2 := (s1.putUnit (laneKey b) { u with downs := (now :: u.downs).take 3 }).setFld Pg.hlk F.hlkStatDowns (n + s1.laneDowns (!b))
  if 4 ≤ n then s2.fenceLane b 3 else s2.noteDir s

/-- A set in service goes DOWN (R366). -/
def State.laneFails (s : State) (b : Bool) : State :=
  if s.lane b = Hl.active ∨ s.lane b = Hl.standby then s.laneDown b true (if b then F.hlkErrStatDownB else F.hlkErrStatDownA) else s

def execHlFrameGapTimeout (laneB : Bool) (s : State) : Host.Outcome State Fault Refusal := .next (s.laneFails laneB)

/-- At a start from power the package waits for an image once no set trains (R481). -/
def State.bootWait (s : State) : State :=
  if s.phase = Ph.boot ∧ s.lane false ≠ Hl.train ∧ s.lane true ≠ Hl.train then s.setFld Pg.boot F.bootStatPhase Ph.waitImage else s

/-- A set that fails to train is DOWN; the DOWN events of the attempts that the package began while no set was ACTIVE count toward no fence
(R365, R367, R393). -/
def State.laneTrainFail (s : State) (b noVersion : Bool) : State :=
  let s1 := s.laneDown b (!s.host.ticks.contains b) (if noVersion then F.hlkErrStatVerFail else F.hlkErrStatTrainFail)
  (if s1.lane (!b) = Hl.standby && !s1.anyActive then (s1.activate (!b)).noteDir s1 else s1).bootWait

def execHlTrainFail (laneB : Bool) (noVersion : Bool) (s : State) : Host.Outcome State Fault Refusal :=
  if s.lane laneB = Hl.train ∧ s.tap.hold = false ∧ s.dieUp (laneDie laneB) = true then .next (s.laneTrainFail laneB noVersion) else .next s

/-- A trained set is STANDBY beside an ACTIVE one, else ACTIVE; at a start from power HL-B leaves that to an HL-A that still trains
(R365). Sets train after t0, so COLD_RST_N is high (R472); while a boundary instruction is in effect nothing trains (R491). -/
def execHlTrainDone (laneB : Bool) (versions : Byte) (s : State) : Host.Outcome State Fault Refusal :=
  if s.lane laneB ≠ Hl.train ∨ s.tap.hold ∨ s.dieUp (laneDie laneB) = false then .next s
  else if !versions.getLsbD 3 then .next (s.laneTrainFail laneB true)
  else
    let s1 := ((s.endTick laneB).setFld Pg.hlk F.hlkStatVersion 3).withPlat { s.plat with coldRstN := true }
    let waits := s.anyActive || (laneB && decide (s.phase = Ph.boot ∧ s.lane false = Hl.train))
    .next (((if waits then s1.setLane laneB Hl.standby else s1.activate laneB).bootWait).noteDir s)

/-- Every DOWN set of a die in service trains while no set is ACTIVE (R367). -/
def execHlRetrainTick (s : State) : Host.Outcome State Fault Refusal :=
  if s.anyActive || !s.plat.pwrOk then .next s
  else .next ([false, true].foldl (fun s b =>
    if s.lane b = Hl.down && s.dieUp (laneDie b) then (s.setLane b Hl.train).withHost { s.host with ticks := b :: s.host.ticks } else s) s)

def execHlkSwap (s : State) : Host.Outcome State Fault Refusal :=
  let go := fun b => (((s.setLane b Hl.standby).activate (!b)).noteDir s)
  if s.lane false = Hl.active ∧ s.lane true = Hl.standby then .next (go false)
  else if s.lane true = Hl.active ∧ s.lane false = Hl.standby then .next (go true)
  else .next (s.badSeq Pg.hlk)

/-- RETRAIN clears a fence first (R394); the lane set of a die that is out of service stays as it is (R26). -/
def execHlkRetrain (laneB : Bool) (s : State) : Host.Outcome State Fault Refusal :=
  if !s.dieUp (laneDie laneB) then .next (s.badSeq Pg.hlk)
  else if s.lane laneB = Hl.fenced then .next (((s.setBitF Pg.hlk (laneFence laneB) false).liftFence (laneKey laneB)).setLane laneB Hl.train)
  else if s.lane laneB = Hl.down then .next (s.setLane laneB Hl.train)
  else .next (s.badSeq Pg.hlk)

def execHlkFence (laneB : Bool) (s : State) : Host.Outcome State Fault Refusal :=
  if s.lane laneB = Hl.fenced then .next s else .next (s.fenceLane laneB 7)

def execHlkCntRead (s : State) : Host.Outcome State Fault Refusal := .next (s.readClear (Pg.hlk + 0x108) (BitVec.allOnes 64))

/-! ## Queues (R378, R395) -/

def State.outstanding (s : State) (q : Nat) : Nat := (s.sqCmds q).length
def State.sqValid (s : State) (q : Nat) : Bool := s.bitF (Pg.sq q) F.sqCfgValid
def State.depthSum (s : State) : Nat := ((List.range 256).filter s.sqValid).foldl (fun n q => n + s.fld (Pg.sq q) F.sqCfgDepth) 0

def sqLock : W64 := Bits.mask 55 48 ||| Bits.mask 12 0

/-- Binding and unbinding; a refused write is ignored as a whole (R378, R500; log 46). -/
def execSqCfgWrite (q : Fin 256) (data : W64) (s : State) : Host.Outcome State Fault Refusal :=
  let p := Pg.sq q
  let depth := F.sqCfgDepth.of data
  if s.sqValid q then
    if data.getLsbD 63 then .next (s.lockedWrite (p + 0x100) sqLock data)
    else if s.outstanding q = 0 then .next (s.setBitF p F.sqCfgValid false)
    else .next (s.badSeq p)
  else if data.getLsbD 63 && decide (F.sqCfgCtx.of data = 0 ∨ depth = 0 ∨ 4096 < depth ∨ 65536 < s.depthSum + depth) then .next (s.badSeq p)
  else .next (s.plainWrite (p + 0x100) data)

/-! ## Watermark (R387) -/

def execWmarkWrite (s : State) : Host.Outcome State Fault Refusal :=
  if s.plat.pwrOk && (List.range 256).any fun q => decide (KMap.get (0 : W64) s.host.consumed q ≠ s.reg (Pg.sq q + 0x118)) then .next s.storeWmark else .next s

/-! ## The common header (R390) -/

/-- The bits that a page's ERR_STAT has. -/
def errBits (page : Nat) : W64 := match rowOf (page + 0x20) with | some r => BitVec.ofNat 64 r.w1c | none => 0

/-- Injected settings of ERR_STAT bits: context 0, counted by EVT_SEL. -/
def State.injectErr (s : State) (page : Nat) (data : W64) : State :=
  (Bits.setBits 64 (data &&& errBits page).toNat).foldl (fun s b => s.setErrBit page b 0) s

def execErrInject (page : BitVec 14) (data : W64) (s : State) : Host.Outcome State Fault Refusal :=
  match s.canon (page.toNat * 4096) with | some p => .next (s.injectErr p data) | none => .next s

/-- A change of SEL restarts COUNT. -/
def State.writeEvtSel (s : State) (page : Nat) (data : W64) : State :=
  let sel := F.comEvtSelSel.of data
  if sel = s.fld page F.comEvtSelSel then s else s.setReg (page + 0x38) (BitVec.ofNat 64 sel)

def execEvtSelWrite (page : BitVec 14) (data : W64) (s : State) : Host.Outcome State Fault Refusal :=
  match s.canon (page.toNat * 4096) with | some p => .next (s.writeEvtSel p data) | none => .next s

def execEvtSelRead (page : BitVec 14) (s : State) : Host.Outcome State Fault Refusal :=
  match s.canon (page.toNat * 4096) with | some p => .next (s.readClear (p + 0x38) (Bits.mask 63 32)) | none => .next s

end Sys2Proof.Machine
end

