-- ==== Sys2Proof/Machine/Keccak.lean ====
section
/-! DEFINITION. SHAKE256 with a 32-byte output (R474, R476, R483), as FIPS 202 defines it: the sponge over the permutation of 1,600
bits (log 13). The rotations and the round constants are computed by the rules of that standard and not listed. -/

namespace Sys2Proof.Machine

/-! The 25 words of the permutation's state stand at 5y + x. -/

/-- A state whose words a function of x and y gives. -/
def words25 (f : Nat → Nat → W64) : List W64 := (List.range 25).map fun i => f (i % 5) (i / 5)

def word25 (st : List W64) (x y : Nat) : W64 := st.getD (5 * (y % 5) + x % 5) 0

/-- The walk over the words other than that of (0, 0), with the step of each: its rotation is the step's triangular number. -/
def rhoWalk : Nat → Nat → Nat → Nat → List (Nat × Nat)
  | 0, _, _, _ => []
  | n + 1, step, x, y => (5 * y + x, step * (step + 1) / 2 % 64) :: rhoWalk n (step + 1) y ((2 * x + 3 * y) % 5)

def rhoOf (i : Nat) : Nat := ((rhoWalk 24 1 1 0).find? fun p => decide (p.1 = i)).elim 0 (·.2)

/-- The feedback register behind the round constants: x^8 + x^6 + x^5 + x^4 + 1. -/
def iotaNext (r : Nat) : Nat := if 128 ≤ r then (2 * r) ^^^ 0x171 else 2 * r

/-- A round's constant from the register: its seven next bits stand at the places 2^j − 1. -/
def iotaWord (r : Nat) : Nat × W64 :=
  (List.range 7).foldl (fun acc j => (iotaNext acc.1, if acc.1 % 2 = 1 then acc.2 ||| BitVec.ofNat 64 (2 ^ (2 ^ j - 1)) else acc.2)) (r, 0)

/-- The five steps of a round, without its constant: column parities, rotations and places, and the rows' products. -/
def mixColumns (st : List W64) : List W64 :=
  let par := (List.range 5).map fun x => (List.range 5).foldl (fun p y => p ^^^ word25 st x y) 0
  words25 fun x y => word25 st x y ^^^ par.getD ((x + 4) % 5) 0 ^^^ (par.getD ((x + 1) % 5) 0).rotateLeft 1

def movePlaces (st : List W64) : List W64 :=
  words25 fun x y => let from_ := (x + 3 * y) % 5; (word25 st from_ x).rotateLeft (rhoOf (5 * x + from_))

def mixRows (st : List W64) : List W64 :=
  words25 fun x y => word25 st x y ^^^ (word25 st (x + 2) y &&& ~~~word25 st (x + 1) y)

/-- The 24 rounds, with the register that makes their constants. -/
def rounds : Nat → Nat → List W64 → List W64
  | 0, _, st => st
  | n + 1, r, st =>
    let (r1, k) := iotaWord r
    let st1 := mixRows (movePlaces (mixColumns st))
    rounds n r1 (words25 fun x y => if x = 0 ∧ y = 0 then word25 st1 0 0 ^^^ k else word25 st1 x y)

def permute1600 (st : List W64) : List W64 := rounds 24 1 st

/-- A block of 136 bytes enters the first 17 words of the state. -/
def enterBlock (st : List W64) (blk : List Byte) : List W64 :=
  permute1600 (words25 fun x y => let i := 5 * y + x
    if i < 17 then word25 st x y ^^^ BitVec.ofNat 64 (bytesNat ((blk.drop (8 * i)).take 8)) else word25 st x y)

/-- The message's bytes with the domain bits 1111 and the padding 10*1, to whole blocks. -/
def shakePad (m : List Byte) : List Byte :=
  let short := 135 - m.length % 136
  let body := m ++ [0x1F] ++ List.replicate short 0
  body.set (body.length - 1) (body.getD (body.length - 1) 0 ||| 0x80)

/-- SHAKE256 with 32 bytes of output, as four little-endian words. -/
def shake256 (m : List Byte) : List W64 :=
  let p := shakePad m
  ((List.range (p.length / 136)).foldl (fun st i => enterBlock st ((p.drop (136 * i)).take 136)) (List.replicate 25 0)).take 4

end Sys2Proof.Machine
end

