-- ==== Sys2Proof/Machine/Boot.lean ====
section
/-! DEFINITION. Firmware images, fuses, identity and attestation, test mode (R474 to R489, R493 to R495). -/

namespace Sys2Proof.Machine

/-! ## Firmware images (R476, R477) -/

/-- Bytes i to j − 1 of words that hold bytes little-endian. -/
def bytesOf (ws : List W64) (i j : Nat) : List Byte := ((wordsBytes ((ws.take ((j + 7) / 8)).drop (i / 8))).drop (i % 8)).take (j - i)

def natOf (ws : List W64) (i j : Nat) : Nat := bytesNat (bytesOf ws i j)

namespace Img
def imgLen (ws : List W64) : Nat := natOf ws 4 8
def svn (ws : List W64) : Nat := natOf ws 8 9
def slot (ws : List W64) : Nat := natOf ws 9 10
def header (ws : List W64) : List Byte := bytesOf ws 0 128
def pub (ws : List W64) : List Byte := bytesOf ws 48 116
end Img

def zeroBytes (ws : List W64) (i j : Nat) : Bool := (bytesOf ws i j).all fun b => decide (b = 0)

/-- Whether SHAKE256 of a vendor public key is the fused hash of a slot. -/
def keyOfSlot (pub : List Byte) (slot : Nat) : Bool := decide (shake256 pub = (List.range 4).map fun i => Config.vkh slot i)

/-- The checks of R477 in order: 1 when all pass. Bytes not received read zero. -/
def imageResult (svn : Nat) (vkrev : BitVec 2) (got : List W64) : Nat :=
  let ws := got ++ List.replicate (512 - got.length) 0
  let n := Img.imgLen ws
  if natOf ws 0 2 ≠ 1 ∨ natOf ws 2 4 ≠ 4096 ∨ n % 8 ≠ 0 ∨ n < 8 ∨ 16773120 < n ∨ 64 < Img.svn ws ∨ 1 < Img.slot ws ∨
      BitVec.ofNat 32 (natOf ws 48 52) ≠ Config.xmssOid ∨ !(zeroBytes ws 10 16 && zeroBytes ws 116 128 && zeroBytes ws 2948 4096) then 2
  else if vkrev.getLsbD (Img.slot ws) || !keyOfSlot (Img.pub ws) (Img.slot ws) then 3
  else if Img.svn ws < svn then 4
  else if !Config.xmssVerify (Img.pub ws) (Img.header ws) (bytesOf ws 128 2948) then 5
  else if bytesOf ws 16 48 ≠ wordsBytes (shake256 (wordsBytes (ws.drop 512))) then 6
  else 1

def State.setPhase (s : State) (p : Nat) : State := s.setFld Pg.boot F.bootStatPhase p

/-- A failing image: RESULT, event and error bit (R477). -/
def State.authFail (s : State) (ws : List W64) (r : Nat) : State :=
  ((s.setFld Pg.boot F.bootStatResult r).setErr Pg.boot F.bootErrStatAuthFail 0).event s.hub Ev.secAuthFail 0 (unitOf Pg.boot) r (BitVec.ofNat 64 (Img.svn ws))

/-- Firmware starts: its measurement, and, with weights not calibrated yet and fuses that hold calibration, the weights (R456, R462,
R476, R481). -/
def State.startFirmware (s : State) (ws : List W64) (source : Nat) : State :=
  let s1 := s.withBoot { s.boot with running := ws.take 512 }
  let s2 := (((s1.setFld Pg.boot F.bootStatSvnImg (Img.svn ws)).setFld Pg.boot F.bootStatResult 1).setFld Pg.boot F.bootStatSource source).setPhase Ph.firmware
  let s3 := (shake256 (Img.header ws)).zipIdx.foldl (fun s x => s.setReg (Pg.boot + 0x120 + 8 * x.2) x.1) s2
  if Config.calBlank || s3.bitF Pg.pwr F.pwrWcfgCal then s3 else
  let s4 := (List.range 8).foldl (fun s i => s.setFld (Pg.pwr + 8 * i) F.pwrWPj (Config.calWeight i).toNat) s3
  ((List.range 4).foldl (fun s d => s.setFld Pg.pwr (staticFld d) (Config.calStatic d).toNat) s4).setBitF Pg.pwr F.pwrWcfgCal true

/-- The kept copies at a recovery: the first that passes runs, else the package waits for an image; a copy that fails its check is a
failing image (R477, R480; log 57). -/
def State.bootKept (s : State) : State :=
  let r0 := imageResult s.boot.svn s.boot.vkrev s.boot.kept0
  let r1 := imageResult s.boot.svn s.boot.vkrev s.boot.kept1
  let s0 := if r0 = 1 then s else (s.authFail s.boot.kept0 r0).setErr Pg.boot F.bootErrStatKeptBad 0
  if r0 = 1 then s0.startFirmware s.boot.kept0 2
  else if r1 = 1 then s0.startFirmware s.boot.kept1 2
  else ((s0.authFail s.boot.kept1 r1).event s.hub Ev.keptCopyBad 0 (unitOf Pg.boot) r0 (BitVec.ofNat 64 r1)).setPhase Ph.waitImage

/-! ## Delivery (R479, R480) -/

def execBootLoadBegin (s : State) : Host.Outcome State Fault Refusal :=
  .next ((s.withBoot { s.boot with load := [] }).setReg (Pg.boot + 0x110) 0)

def execBootLoaddata (data : W64) (s : State) : Host.Outcome State Fault Refusal :=
  .next ((s.withBoot { s.boot with load := s.boot.load ++ [data] }).wrapFld Pg.boot F.bootLoadptrBytes 8)

/-- END while PHASE is neither WAIT_IMAGE nor READY is refused. -/
def execBootLoadEnd (s : State) : Host.Outcome State Fault Refusal :=
  let s1 := s.withBoot { s.boot with check := some s.boot.load }
  if s.phase = Ph.waitImage then .next (s1.setPhase Ph.verify)
  else if s.phase = Ph.ready then .next s1
  else .next (s.setErr Pg.boot F.bootErrStatBadSeq 0)

/-- The check ends (R477): firmware starts and its copies are kept; in READY a passing image only replaces the copies (R480). -/
def execImageVerifyDone (s : State) : Host.Outcome State Fault Refusal :=
  match s.boot.check with
  | none => .next s
  | some ws =>
    let s0 := s.withBoot { s.boot with check := none }
    let r := imageResult s.boot.svn s.boot.vkrev ws
    let kept := fun (s : State) => s.withBoot { s.boot with kept0 := ws, kept1 := ws }
    if s.phase = Ph.verify then
      if r = 1 then .next (kept (s0.startFirmware ws 1)) else .next ((s0.authFail ws r).setPhase Ph.waitImage)
    else if r = 1 then .next (kept (s0.setFld Pg.boot F.bootStatResult 1)) else .next (s0.authFail ws r)

/-! ## Fuses (R474, R478) -/

/-- Slot of the running image's key. -/
def State.runSlot (s : State) : Nat := Img.slot s.boot.running
def State.runSvn (s : State) : Nat := Img.svn s.boot.running

def State.startBurn (s : State) (op target : Nat) (ok : Bool) : State :=
  if ok && s.boot.fuseOp.isNone then (s.withBoot { s.boot with fuseOp := some (op, target) }) else s.setErr Pg.sec F.secErrStatBadSeq 0

def execFuseRaiseSvn (target : Byte) (s : State) : Host.Outcome State Fault Refusal :=
  .next (s.startBurn 1 target.toNat (decide (s.boot.svn < target.toNat ∧ target.toNat ≤ s.runSvn)))

def execFuseRevoke (slot : Byte) (s : State) : Host.Outcome State Fault Refusal :=
  let k := slot.toNat
  .next (s.startBurn 2 k (decide (k ≤ 1 ∧ s.boot.running ≠ [] ∧ s.runSlot = 1 - k) && !s.boot.vkrev.getLsbD (1 - k)))

/-- A burn is read back; a failing one leaves the field as it senses at the next start. -/
def execFuseBurnDone (readBackOk : Bool) (s : State) : Host.Outcome State Fault Refusal :=
  match s.boot.fuseOp with
  | none => .next s
  | some (op, t) =>
    let s0 := s.withBoot { s.boot with fuseOp := none }
    if !readBackOk then .next ((s0.withBoot { s0.boot with fuseBad := true }).setErr Pg.sec F.secErrStatFuseFail 0)
    else if op = 1 then .next ((s0.withBoot { s0.boot with svn := t }).event s.hub Ev.svnRaised 0 (unitOf Pg.sec) t (BitVec.ofNat 64 s.boot.svn))
    else .next ((s0.withBoot { s0.boot with vkrev := s0.boot.vkrev ||| BitVec.ofNat 2 (2 ^ t) }).event s.hub Ev.keyRevoked 0 (unitOf Pg.sec) t 0)

/-! ## Identity and attestation (R483 to R486) -/

def State.idReady (s : State) : Bool := s.bitF Pg.sec F.secStatIdready
def State.leafNext (s : State) : Nat := s.fld Pg.sec F.secStatLeafnext
def leafEnd : Nat := 2 ^ 20

/-- A report that cannot be made ends at once, or when the tree has failed (R486). -/
def State.endAttest (s : State) (result : Nat) : State :=
  let s1 := (s.setBitF Pg.sec F.secAstatBusy false).setFld Pg.sec F.secAstatResult result
  s1.withBoot { s1.boot with waitGo := false, secWord := 0 }

/-- The value that DSECRET and a label byte give (R483). -/
def secretOf (label : Byte) : List Byte := wordsBytes (shake256 ((List.range 32).map Config.dsecret ++ [label]))
def skSeed : List Byte := secretOf 1
def skPrf : List Byte := secretOf 2
def pubSeed : List Byte := secretOf 3

/-- Words 0 to 7 of SEC.IDPK: root and PUB_SEED (R483, R494). -/
def idpk (k : Nat) : W64 := if k < 4 then Config.xmssRoot skSeed pubSeed k else BitVec.ofNat 64 (bytesNat ((pubSeed.drop (8 * (k - 4))).take 8))

/-- The identity public key: OID, root, PUB_SEED. -/
def idPublic : List Byte := natBytes 4 Config.xmssOid.toNat ++ wordsBytes ((List.range 8).map idpk)

/-- The words of the signature of a message under the identity key, with a leaf (R485). -/
def signWords (leaf : Nat) (msg : List Byte) : List W64 := (List.range 353).map (Config.xmssSign skSeed skPrf pubSeed leaf msg)

/-- The tree is built and compared with IDPKH (R483); a GO that waited for it goes on or ends (R486). -/
def execIdtreeDone (s : State) : Host.Outcome State Fault Refusal :=
  if s.idReady || s.boot.idFail || s.boot.secretOff || !s.plat.pwrOk then .next s
  else if shake256 idPublic = (List.range 4).map Config.idpkh then
    .next ((List.range 8).foldl (fun s k => s.setReg (Pg.sec + 0x180 + 8 * k) (idpk k)) (s.setBitF Pg.sec F.secStatIdready true))
  else
    let s1 := ((s.withBoot { s.boot with idFail := true }).setErr Pg.sec F.secErrStatIdtreeFail 0).event s.hub Ev.idtreeFail 0 (unitOf Pg.sec) 0 0
    .next (if s1.boot.waitGo then s1.endAttest 1 else s1)

/-- Leaves are reserved in blocks of 64 by a record before the first of them is used (R451, R484). -/
def State.reserveLeaf (s : State) : State :=
  if s.leafNext < s.boot.leafRes then s
  else (s.sstAdd 0x02 0 [BitVec.ofNat 64 (s.boot.leafRes + 64)]).withBoot { s.boot with leafRes := s.boot.leafRes + 64 }

def execAttestGo (s : State) : Host.Outcome State Fault Refusal :=
  if s.bitF Pg.sec F.secAstatBusy then .next (s.setErr Pg.sec F.secErrStatBadSeq 0)
  else if s.phase = Ph.test then .next (s.endAttest 3)
  else if s.boot.lifecycle = 2 ∨ s.boot.idFail then .next (s.endAttest 1)
  else if leafEnd ≤ s.leafNext then .next (s.endAttest 2)
  else
    let s1 := s.setBitF Pg.sec F.secAstatBusy true
    .next (s1.reserveLeaf.withBoot { s1.reserveLeaf.boot with waitGo := !s.idReady })

/-- The report body (R485). -/
def State.reportBody (s : State) (leaf : Nat) : List W64 :=
  let dies := (List.range 4).foldl (fun n d => if s.dieUp d then n + 2 ^ d else n) 0
  let sec := fun o k => s.reg (Pg.sec + o + 8 * k)
  [Bits.make [(63, 48, 1), (47, 32, 256)], Config.uid,
   Bits.make [(63, 48, s.fld Pg.dsc F.dscStatDev), (47, 47, s.fld Pg.dsc F.dscStatIdv), (46, 44, s.fld Pg.dsc F.dscStatSource)],
   s.reg (Pg.dsc + 0x108), BitVec.ofNat 64 (s.now s.hub), BitVec.ofNat 64 leaf,
   Bits.make [(63, 56, s.runSvn), (55, 48, s.boot.svn), (47, 46, s.boot.lifecycle), (45, 44, s.boot.vkrev.toNat), (43, 43, s.runSlot), (39, 36, dies)], 0]
  ++ (List.range 4).map (sec 0x100) ++ (List.range 4).map (sec 0x120) ++ (List.range 4).map (fun k => s.reg (Pg.boot + 0x120 + 8 * k))
  ++ (List.range 8).map (sec 0x180) ++ (List.range 4).map (fun i => Config.vkh s.runSlot i)

/-- A LEAF record still waits. -/
def State.leafWaits (s : State) : Bool := s.sst.wait.any fun r => decide (r.typ = 2)

/-- A leaf is used: LEAF_LOW as fewer than 65,536 remain, LEAF_EXHAUSTED with the last (R484). -/
def State.useLeaf (s : State) (leaf : Nat) : State :=
  let left := leafEnd - (leaf + 1)
  let s1 := (s.setFld Pg.sec F.secStatLeafnext (leaf + 1)).setFld Pg.sec F.secAstatLeaf leaf
  let s2 := if left = 65535 then (s1.setErr Pg.sec F.secErrStatLeafLow 0).event s1.hub Ev.leafLow 0 (unitOf Pg.sec) left 0 else s1
  if left = 0 then s2.event s2.hub Ev.leafExhausted 0 (unitOf Pg.sec) 0 0 else s2

/-- The report is signed, once its leaf is reserved by a durable record and the tree is built (R451, R486). -/
def execAttestDone (s : State) : Host.Outcome State Fault Refusal :=
  if !s.bitF Pg.sec F.secAstatBusy || !s.idReady || s.leafWaits || decide (s.boot.leafRes ≤ s.leafNext) then .next s else
  let leaf := s.leafNext
  let body := s.reportBody leaf
  let sig := signWords leaf (wordsBytes body)
  let s1 := (s.useLeaf leaf).endAttest 0
  .next (s1.withBoot { s1.boot with report := body ++ sig })

/-- A reset of the boot die during signing consumes the leaf and loses the report (R486); RESULT stays. -/
def State.loseReport (s : State) : State :=
  if !s.bitF Pg.sec F.secAstatBusy then s else
  let s1 := if s.leafNext < leafEnd then s.useLeaf s.leafNext else s
  (s1.setBitF Pg.sec F.secAstatBusy false).withBoot { s1.boot with waitGo := false }

def execSecRselWrite (s : State) : Host.Outcome State Fault Refusal := .next (s.withBoot { s.boot with secWord := 0 })

def State.secWord (s : State) : W64 := if s.boot.secWord < 385 then wd s.boot.report s.boot.secWord else 0

def execSecRdataRead (s : State) : Host.Outcome State Fault Refusal :=
  .next ((s.out s.secWord).withBoot { s.boot with secWord := s.boot.secWord + 1 })

/-! ## Test mode (R487 to R489) -/

/-- A fresh challenge, the same in the page of every die. -/
def State.newChal (s : State) : State :=
  (List.range 4).foldl (fun s k => let (v, s1) := s.draw; (List.range 4).foldl (fun s d => s.setReg (Pg.tst d + 0x110 + 8 * k) v) s1) s

/-- Whether the 2,944 bytes of a token are valid (R487). -/
def State.tokenValid (s : State) (t : List Byte) : Bool :=
  let at_ := fun i j => (t.drop i).take (j - i)
  decide (at_ 8 16 = wordBytes Config.uid ∧ at_ 16 48 = wordsBytes ((List.range 4).map fun k => s.reg (Pg.tst 0 + 0x110 + 8 * k))) &&
  ((List.range 2).any fun k => !s.boot.vkrev.getLsbD k && keyOfSlot (at_ 48 116) k) && Config.xmssVerify (at_ 48 116) (at_ 0 124) (at_ 124 2944)

/-- Token bytes arrive at a die's page; the last completes the token and checks it. -/
def State.tokenBytes (s : State) (d : Nat) (bs : List Byte) : State :=
  let t := s.boot.token ++ bs
  if t.length < 2944 then (s.withBoot { s.boot with token := t }) else
  let s1 := s.withBoot { s.boot with token := t.drop 2944 }
  if s.tokenValid (t.take 2944) then s1.withBoot { s1.boot with tokenOk := some ((t.getD 2 0).toNat % 16) }
  else (s1.setErr (Pg.tst d) F.tstErrStatToken 0).newChal

def execTstTokenWrite (data : W64) (s : State) : Host.Outcome State Fault Refusal := .next (s.tokenBytes s.hub (wordBytes data))

/-- The die mask that GO may enter with, if it may (R487). -/
def State.testMask (s : State) (dies : Nat) : Option Nat :=
  if s.phase ≠ Ph.boot ∧ s.phase ≠ Ph.waitImage then none
  else if s.boot.lifecycle = 1 then s.boot.tokenOk.map fun m => m &&& dies
  else some dies

/-- Entry into test mode: dies outside the mask are held in reset (R488, R489). -/
def execTestEnter (d : Die) (dies : BitVec 4) (s : State) : Host.Outcome State Fault Refusal :=
  let s0 := s.setFld (Pg.tst d) F.tstModeDies dies.toNat
  match s.testMask dies.toNat with
  | none => .next (s0.setErr (Pg.tst d) F.tstErrStatBadSeq 0)
  | some m =>
    let mask := BitVec.ofNat 4 m
    let s1 := ((s0.setPhase Ph.test).withBoot { s0.boot with secretOff := true, report := [], check := none, waitGo := false }).withPlat { s0.plat with dieTest := mask, dieReset := s0.plat.dieReset ||| ~~~mask }
    let s2 := (List.range 8).foldl (fun s k => s.setReg (Pg.sec + 0x180 + 8 * k) 0) ((s1.setBitF Pg.sec F.secStatIdready false).setBitF Pg.sec F.secAstatBusy false)
    let s3 := [false, true].foldl (fun s b => if mask.getLsbD (laneDie b) then s else s.laneOff b Hl.down) s2
    .next ((s3.event s3.hub Ev.testEntry 0 (unitOf (Pg.tst d)) m (BitVec.ofNat 64 s.boot.lifecycle)).noteDir s)

def tstRes1Mask : W64 := 0x8F3F031F

/-- The results of a die's tests are posted. -/
def execTestDone (d : Die) (res0 : BitVec 35) (res1 : W32) (s : State) : Host.Outcome State Fault Refusal :=
  if s.phase ≠ Ph.test ∨ !s.plat.dieTest.getLsbD d then .next s
  else .next ((s.setReg (Pg.tst d + 0x138) (Bits.make [(63, 63, 1), (34, 0, res0.toNat)])).setReg (Pg.tst d + 0x140) (res1.setWidth 64 &&& tstRes1Mask))

end Sys2Proof.Machine
end

