-- ==== Sys2Proof/Machine/Discovery.lean ====
section
/-! DEFINITION. Discovery (R331 to R339): port roles, HELLO and LOC, the package's device number, and the result of each port. -/

namespace Sys2Proof.Machine

/-! ## Roles (R331, R332) -/

/-- First and second port of the offsets 1 to 7. -/
def firstPorts : List Nat := [0, 6, 1, 7, 3, 9, 10]
def secondPorts : List Nat := [18, 12, 13, 19, 15, 21, 16]

/-- The board offset of a port. -/
def boardOffset (p : Nat) : Option Nat :=
  ((List.range 7).find? fun i => decide (firstPorts.getD i 24 = p ∨ secondPorts.getD i 24 = p)).map (· + 1)

/-- Rack ports R0 to R5 and pod ports P0 to P3. -/
def rackPorts : List Nat := [4, 5, 11, 17, 22, 23]
def podPorts : List Nat := [2, 8, 14, 20]
def portRole (p : Nat) : Nat := if rackPorts.contains p then 1 else if podPorts.contains p then 2 else 0

def State.fabricId (s : State) : W64 := s.reg (Pg.dsc + 0x108)
def State.idValid (s : State) : Bool := s.bitF Pg.dsc F.dscStatIdv

/-- HELLO becomes due on every port whose link layer runs (R337). -/
def State.helloAll (s : State) : State :=
  (List.range 24).foldl (fun s p => if s.portUp p then s.setPort p { s.port p with helloDue := true } else s) s

/-! ## Results (R339) -/

/-- A peer whose number contradicts the wiring of a board port. -/
def State.contradicts (s : State) (p : Nat) (h : Hello) : Bool :=
  match boardOffset p with
  | some d => h.idv && s.idValid && decide (h.dev.toNat ≠ s.dev / 8 * 8 + (s.dev % 8 + d) % 8)
  | none => false

/-- Whether a HELLO agrees with DSC.EXP: device and port, or for a switch its index and the pod and rack of its LOC. -/
def State.agrees (s : State) (p : Nat) (h : Hello) : Bool :=
  let e := Pg.dsc + 8 * p
  if s.bitF e F.dscExpSwitch then
    h.isSwitch && match (s.port p).loc with
      | some l => decide (l.swIndex.toNat = s.fld e F.dscExpPort ∧ l.pod.toNat = s.dev / 4096 ∧ l.rack.toNat = s.dev / 64 % 64)
      | none => false
  else !h.isSwitch && decide (h.dev.toNat = s.fld e F.dscExpDev ∧ h.port.toNat = s.fld e F.dscExpPort)

/-- The result of a port (R339): 0 SILENT, 1 MATCH, 2 EXTRA, 3 WRONG, 4 MISSING. A peer that agrees while one FABRIC is zero and the
other is not is shown as EXTRA (log 38). -/
def State.resultOf (s : State) (p : Nat) : Nat :=
  let exp := s.bitF (Pg.dsc + 8 * p) F.dscExpValid
  match (s.port p).hello with
  | none => if exp then 4 else 0
  | some h =>
    let foreign := decide (h.fabric ≠ 0 ∧ s.fabricId ≠ 0 ∧ h.fabric ≠ s.fabricId)
    if (exp && !s.agrees p h) || s.contradicts p h || foreign then 3
    else if !exp then 2
    else if h.fabric = s.fabricId then 1 else 2

/-- Decides a port's result again; a change raises DISC_CHANGE, and WRONG sets its bit. EXTRA and WRONG hold a port PARKED: an ADMIT
that is pending is gone. -/
def State.redecide (s : State) (p : Nat) : State :=
  let r := s.resultOf p
  if r = s.peerResult p then s else
  let s1 := (s.setFld (Pg.dsc + 8 * p) F.dscPeerResult r).event s.hub Ev.discChange 0 (unitOf (Pg.lnk p)) r 0
  let s2 := if (r = 2 ∨ r = 3) ∧ s1.lnk p = Lk.parked then s1.setFld (Pg.lnk p) F.lnkStatPend 0 else s1
  if r = 3 then s2.setErr Pg.dsc F.dscErrStatWrong 0 else s2

def State.redecideAll (s : State) : State := (List.range 24).foldl State.redecide s

/-! ## Device number (R335, R338) -/

/-- The identity goes to the survival store (R338, R447; log 38). -/
def State.storeIdentity (s : State) : State :=
  s.sstAdd 0x06 0 [s.reg (Pg.dsc + 0x18) &&& (Bits.mask 63 48 ||| Bits.mask 46 44), s.fabricId, Config.uid]

/-- The first number found after power-up is compared with the stored one. -/
def State.compareIdentity (s : State) : State :=
  match s.sst.winner 0x06 0 with
  | some r => if wf r.payload 0 63 48 ≠ s.dev then (s.setErr Pg.dsc F.dscErrStatFabricMoved 0).storeIdentity else s
  | none => s.storeIdentity

/-- RTE.CFG.SELF follows the number while both versions are EMPTY; later a different number is reported. -/
def State.setSelf (s : State) (dev : Nat) : State :=
  if s.verState 0 = Ver.empty ∧ s.verState 1 = Ver.empty then s.setFld Pg.rte F.rteCfgSelf dev
  else if dev ≠ s.self then (s.setErr Pg.dsc F.dscErrStatIdChange 0).event s.hub Ev.fabricId 0 (unitOf Pg.dsc) dev 0
  else s

/-- The package takes a number from a source: 1 LOC, 2 ELECT, 3 FORCE. -/
def State.takeNumber (s : State) (dev src : Nat) : State :=
  let w := Bits.make [(63, 48, dev), (47, 47, 1), (46, 44, src), (2, 0, dev % 8)]
  if s.reg (Pg.dsc + 0x18) = w then s else
  let first := !s.idValid
  let s1 := ((s.setReg (Pg.dsc + 0x18) w).setSelf dev).helloAll
  (if first then s1.compareIdentity else s1.storeIdentity).redecideAll

/-- The LOC that governs: of the lowest-numbered rack port that has one. -/
def State.govLoc (s : State) : Option Loc := rackPorts.findSome? fun p => (s.port p).loc

def Loc.number (l : Loc) : Nat := l.pod.toNat * 4096 + l.rack.toNat * 64 + l.sport.toNat % 64

/-- The first source of R338 that applies. -/
def State.identify (s : State) : State :=
  if s.bitF Pg.dsc F.dscIdForce then s.takeNumber (s.fld Pg.dsc F.dscIdDev) 3
  else match s.govLoc with
    | some l => s.takeNumber (Loc.number l) 1
    | none => match s.net.elect with
      | some d => s.takeNumber d 2
      | none => s

/-! ## Discovery flits (R336, R337) -/

/-- The PEER record of a port: the last HELLO, and for a switch its LOC, with which its DEV is valid. -/
def State.showPeer (s : State) (p : Nat) (h : Hello) : State :=
  let k := Pg.dsc + 8 * p
  let s1 := (s.setBitF k F.dscPeerSwitch h.isSwitch).setReg (Pg.dsc + 0x300 + 8 * p) h.uid
  if h.isSwitch then s1.setBitF k F.dscPeerIdv (s.port p).loc.isSome else ((s1.setFld k F.dscPeerPort h.port.toNat).setFld k F.dscPeerDev h.dev.toNat).setBitF k F.dscPeerIdv h.idv

def execHelloRecv (p : Fin 24) (h : Hello) (s0 : State) : Host.Outcome State Fault Refusal :=
  let s := s0.hearCtl p
  if !s0.portUp p then .next s0 else if !h.crcOk then .next s else
  let s1 := (s.setPort p { s.port p with hello := some h, helloAt := some (s.now (portDie p)) }).showPeer p h
  if s.lnk p = Lk.routed ∧ h.uid ≠ (s.port p).admitUid then .next (((s1.redecide p).portDown p).setErr Pg.dsc F.dscErrStatWrong 0)
  else .next (s1.redecide p)

/-- LOCs of rack ports that disagree. -/
def State.locConflict (s : State) : Bool :=
  let ls := rackPorts.filterMap fun p => (s.port p).loc
  ls.any fun a => ls.any fun b => decide (Loc.number a ≠ Loc.number b)

def execLocRecv (p : Fin 24) (l : Loc) (s0 : State) : Host.Outcome State Fault Refusal :=
  let s := s0.hearCtl p
  if !s0.portUp p then .next s0 else if !l.crcOk then .next s else
  let k := Pg.dsc + 8 * p.val
  let s1 := s.setPort p { s.port p with loc := some l }
  let s2 := ((s1.setFld k F.dscPeerPort l.sport.toNat).setFld k F.dscPeerDev (Loc.number l)).setBitF k F.dscPeerIdv true
  let s3 := if s2.locConflict then s2.setErr Pg.dsc F.dscErrStatLocConflict 0 else s2
  .next (s3.identify.redecide p)

def execProbeRecv (p : Fin 24) (crcOk : Bool) (s0 : State) : Host.Outcome State Fault Refusal :=
  let s := s0.hearCtl p
  if !s0.portUp p then .next s0 else if crcOk then .next (s.setPort p { s.port p with helloDue := true }) else .next s

/-- The HELLO flit of a port (R336), with its CRC in bytes 28 to 31. -/
def State.helloFlit (s : State) (p : Nat) : List W64 :=
  let w0 := Bits.make [(7, 0, 0xF8), (15, 8, 1), (23, 23, if s.idValid then 1 else 0), (31, 24, p), (47, 32, s.dev), (55, 48, portRole p), (63, 56, if s.idValid then s.dev % 8 else 0xFF)]
  let ws := [w0, Config.uid, s.fabricId, 0]
  [w0, Config.uid, s.fabricId, Bits.make [(63, 32, crc32c ((wordsBytes ws).take 28))]]

def execHelloSend (p : Fin 24) (s : State) : Host.Outcome State Fault Refusal :=
  if s.portUp p then .next ((s.setPort p { s.port p with helloDue := false }).sendCtl p (s.helloFlit p)) else .next s

/-- UIDs heard on board ports, with their offset. -/
def State.boardUids (s : State) : List (W64 × Nat) :=
  (List.range 24).filterMap fun p => match boardOffset p, (s.port p).hello with | some d, some h => some (h.uid, d) | _, _ => none

/-- ELECT (R338): the anchor is the lowest UID; another package stands at position (8 − d) mod 8. -/
def State.elected (s : State) : Nat :=
  let own := Config.uid
  let best := s.boardUids.foldl (fun (b : W64 × Nat) x => if x.1.toNat < b.1.toNat then x else b) (own, 0)
  s.fld Pg.dsc F.dscBaseDev / 8 * 8 + (8 - best.2) % 8

/-- 200 ms after the first board port reached PARKED, with no LOC. -/
def execDiscElect (s : State) : Host.Outcome State Fault Refusal :=
  if s.govLoc.isSome || !((List.range 24).any fun p => (boardOffset p).isSome && s.portUp p) then .next s
  else .next ((s.withNet { s.net with elect := some s.elected })).identify

/-- No valid HELLO for 300 ms. -/
def execDiscPeerTimeout (p : Fin 24) (s : State) : Host.Outcome State Fault Refusal := .next ((s.setPort p { s.port p with hello := none }).redecide p)

/-! ## Registers (R337 to R339, R361) -/

def execDscExpWrite (p : Fin 24) (data : W64) (s : State) : Host.Outcome State Fault Refusal := .next ((s.plainWrite (Pg.dsc + 0x400 + 8 * p.val) data).redecide p)

def execDscFabricWrite (data : W64) (s : State) : Host.Outcome State Fault Refusal :=
  let s1 := s.plainWrite (Pg.dsc + 0x108) data
  if s1.fabricId = s.fabricId then .next s1 else .next (s1.helloAll.storeIdentity).redecideAll

def execDscIdWrite (data : W64) (s : State) : Host.Outcome State Fault Refusal := .next (s.plainWrite (Pg.dsc + 0x110) data).identify

/-- AGE of a port in ms since the last valid HELLO (R361). -/
def State.peerAge (s : State) (p : Nat) : Nat := match (s.port p).helloAt with | some t => min 0xFFFF ((s.now (portDie p) - t) / 10 ^ 6) | none => 0xFFFF

/-- The FABRIC value of the stored identity, unless the host has set one (R338, R481; log 38). -/
def State.loadIdentity (s : State) : State :=
  match s.sst.winner 0x06 0 with
  | some r => if s.fabricId = 0 ∧ wd r.payload 1 ≠ 0 then ((s.setReg (Pg.dsc + 0x108) (wd r.payload 1)).helloAll).redecideAll else s
  | none => s

end Sys2Proof.Machine
end

