-- ==== Sys2Proof/Machine/RecoveryOps.lean ====
section
/-! DEFINITION. What resets and recoveries share (R416 to R423): what each keeps and clears, units' histories shown in their registers, counted
resets and the out-of-service latch, crash dumps, the resets of an engine, a cluster and a die, and fenced dies. -/

namespace Sys2Proof.Machine

/-! ## What registers keep (R17, R422) -/

/-- Fields that hold what the hardware determines or the survival store keeps: every recovery keeps them. DESIGN CHOICE (log 133):
RCV.STAT.LASTDOM is among them, so that it reads the domain of the last reset after a cold recovery too, as its description says, where the
Reset column of R428 gives 0. -/
def keptAlways (k : Nat) : Bool :=
  let o := pgOff k
  match pgBlk k with
  | 0x00 => decide (o = 0x18)
  | 0x02 => decide (o = 0x110)
  | 0x04 => decide (o = 0x118)
  | 0x08 => decide (0x110 ≤ o ∧ o < 0x140)
  | 0x12 | 0x13 => decide (o = 0x118)
  | 0x1A => decide (o = 0x140)
  | 0x21 => decide (o = 0x18 ∨ o = 0x100 ∨ o = 0x120)
  | 0x23 => decide (o = 0x18 ∨ o = 0x100 ∨ o = 0x108)
  | 0x27 => decide (0x110 ≤ o ∧ o < 0x130)
  | _ => false

/-- What a warm recovery keeps beside: queue bindings and NEXT, weights, the region table, the stage table and the version tables'
addresses, link configurations, barriers, routing versions, checkpoint state and keys (R270, R285, R322, R422, R443, R452, R462). -/
def keptWarm (k : Nat) : Bool :=
  let o := pgOff k
  keptAlways k || match pgBlk k with
  | 0x04 => decide (o = 0x100 ∨ o = 0x108)
  | 0x06 => decide (o = 0x118 ∨ (0x200 ≤ o ∧ o ≤ 0x280))
  | 0x10 => decide (0x200 ≤ o ∧ o < 0xA00)
  | 0x16 => decide (0x100 ≤ o ∧ o < 0x190)
  | 0x17 => decide (0x100 ≤ o)
  | 0x19 => decide (o = 0x18 ∨ (0x100 ≤ o ∧ o < 0x140) ∨ o = 0x170)
  | 0x1A => decide (o = 0x10 ∨ (0x100 ≤ o ∧ o < 0x118))
  | 0x1B => decide (o = 0x18 ∨ o = 0x100 ∨ o = 0x120)
  | 0x22 => decide (o = 0x130 ∨ (0x140 ≤ o ∧ o ≤ 0x158))
  | 0x24 => decide (o = 0x108 ∨ o = 0x110)
  | _ => false

/-- What the die-function reset of a die keeps of its pages: also the queues' pages, link configurations and the pages of services. -/
def keptDie (d k : Nat) : Bool :=
  decide (pgDie k ≠ d) || keptAlways k || movesBlk (pgBlk k) || linkBlk (pgBlk k) || decide (pgBlk k = 0x04 ∨ pgBlk k = 0x00) ||
  (decide (pgBlk k = 0x17 ∨ pgBlk k = 0x1A) && keptWarm k) || decide (pgBlk k = 0x1A ∧ pgOff k = 0x18)

/-- The registers that a predicate does not keep return to their Reset column. -/
def State.keepRegs (s : State) (keep : Nat → Bool) : State :=
  (s.withRegs (s.regs.filter fun e => keep e.1)).withErrCtx (s.errCtx.filter fun e => keep (e.1 / 64 * 4096 + 0x20))

/-- The registers of a page, in every bank. -/
def onPage (page k : Nat) : Bool := decide (pageOf (k % 2 ^ 26) = page)

/-- A list without the entries of some keys. -/
def dropKeys {α : Type} (m : KMap α) (gone : Nat → Bool) : KMap α := m.filter fun e => !gone e.1

/-! ## Histories shown in registers (R106, R327, R367, R447) -/

/-- An engine's page shows its fence. -/
def State.showFence (s : State) (page : Nat) (state : Fld) (key : Nat) : State :=
  if s.unitFenced key then (s.setFld page state Eng.fenced).setBitF page F.mxeCtrlFence true else s

def crrUnitKey (d : Nat) : Nat := unitKey (Pg.crr d) 0
def uuUnitKey (u : Nat) : Nat := unitKey (Pg.uu u) 0

/-- The signature of a strike in the error log of the survival store, by its time stamp. -/
def State.strikeSig (s : State) (unit t : Nat) : W64 :=
  match (s.sst.records ++ s.sst.wait).find? fun r => decide (r.typ = 4 ∧ wf r.payload 0 63 48 = Ev.strike ∧ (wd r.payload 1).toNat = t ∧ wf r.payload 2 63 32 = unit) with
  | some r => wd r.payload 3
  | none => 0

/-- Strikes of a matrix engine in its page: STRIKES, and the log as the histories hold it. -/
def State.showStrikeLog (s : State) (e : Nat) : State :=
  let p := Pg.mxe e
  ((s.unitRec (mxeKey e)).strikes.zipIdx.foldl (fun s x => (s.setReg (p + 0x110 + 16 * x.2) (BitVec.ofNat 64 x.1)).setReg (p + 0x118 + 16 * x.2)
    (s.strikeSig (unitOf p) x.1)) s).showStrikes e

/-- Every engine and link that its record holds fenced shows so; DOWNS and STRIKES follow the records. -/
def State.showHistory (s : State) : State :=
  let s1 := (List.range 192).foldl (fun s e => (s.showFence (Pg.mxe e) F.mxeStatState (mxeKey e)).showStrikeLog e) s
  let s2 := (List.range 96).foldl (fun s v => s.showFence (Pg.vxe v) F.vxeStatState (vxeKey v)) s1
  let s3 := (List.range 36).foldl (fun s u => s.showFence (Pg.uu u) F.uuStatState (uuUnitKey u)) s2
  let s4 := (List.range 4).foldl (fun s d => s.showFence (Pg.crr d) F.crrStatState (crrUnitKey d)) s3
  let s5 := (List.range 24).foldl (fun s p =>
    let u := s.unitRec (lnkKey p)
    let s1 := s.setFld (Pg.lnk p) F.lnkDownsCount (within (s.now (portDie p)) dayNs u.downs).length
    if u.fenced then (s1.setLnk p Lk.fenced).setBitF (Pg.lnk p) F.lnkCtrlFence true else s1) s4
  ([false, true].foldl (fun s b => if s.unitFenced (laneKey b) then (s.setLane b Hl.fenced).setBitF Pg.hlk (laneFence b) true else s) s5).showLaneDowns

/-- The fences of channels and LPDDR packages as the records hold them (R218, R219). -/
def State.showMemFences (s : State) : State :=
  let s1 := (List.range 20).foldl (fun s k => s.setFld (Pg.msc k) F.mscFenceChan ((List.range 32).foldl (fun n ch => if s.unitFenced (chanKey k ch) then n + 2 ^ ch else n) 0)) s
  (List.range 32).foldl (fun s k => let r := Pg.lpc (k / 2) + 0x118; s.setReg r (Bits.putBit (s.reg r) (k % 2) (s.unitFenced (lpKey k)))) s1

/-! ## Units and counted resets (R408, R418, R419, R498) -/

def dieKey (d : Nat) : Nat := unitKey (Pg.isl d 34) 0
def bridgeKey (d : Nat) (v : Bool) : Nat := unitKey (Pg.isl d 34) (if v then 3 else 2)

/-- Die, page and record of a unit of R404. -/
def wdPlace (u : WdUnit) : Nat × Nat × Nat :=
  match u with
  | .mxe e => (e / 48, Pg.mxe e, mxeKey e)
  | .vxe v => (v / 24, Pg.vxe v, vxeKey v)
  | .core c => let cl := clusterOfSlot c; (cl / 12, Pg.clu cl, coreKey cl (coreIndex c))
  | .porter d p => (d, Pg.isl d 34, porterKey d p)
  | .gather c => (c / 12, Pg.clu c, gatherKey c)
  | .update u => (uuDie u, Pg.uu u, uuUnitKey u)
  | .courier d => (d, Pg.crr d, crrUnitKey d)
  | .service d => (d, Pg.isl d 34, dieKey d)
  | .queue q => (q / 64, Pg.sq q, 0)

def targetPlace (t : ResetTarget) : Nat × Nat × Nat :=
  match t with
  | .engine u => wdPlace u
  | .cluster c => (c / 12, Pg.clu c, clusterKey c)
  | .dieFunction d => (d, Pg.isl d 34, dieKey d)
  | .warm => (0, Pg.rcv, unitKey Pg.rcv 4)
  | .cold => (0, Pg.rcv, unitKey Pg.rcv 5)

def targetDom (t : ResetTarget) : Nat := match t with | .engine _ => 1 | .cluster _ => 2 | .dieFunction _ => 3 | .warm => 4 | .cold => 5

/-! ## Crash dumps (R423) -/

/-- The lowest-numbered stack in service of a die. -/
def State.firstStack (s : State) (d : Nat) : Option Nat := ((List.range 5).map (5 * d + ·)).find? s.unitUp

/-- Two stacks on different dies: of CD1 and CD2, or else of any two dies (R423, R480; log 47). -/
def State.dumpStacks (s : State) : List Nat := (([1, 2, 0, 3].filterMap s.firstStack)).take 2

def State.pageWords (s : State) (page : Nat) : List W64 := (List.range 512).map fun i => s.reg (page + 8 * i)

/-- Stages a dump, unless one is held that the host has not read within 24 h. -/
def State.stageDump (s : State) (evseq dom page : Nat) : State :=
  let now := s.now s.hub
  let held := match s.rcv.dump with | some d => !d.read && decide (now - d.time < dayNs) | none => false
  if held then s else
  let mask := (List.range 4).foldl (fun n d => if s.dieUp d then n + 2 ^ d else n) 0
  let ring := fun d => (List.range 1024).flatMap fun i => (KMap.get [] s.events (d * 1024 + i) ++ List.replicate 4 0).take 4
  let words := [BitVec.ofNat 64 evseq, BitVec.ofNat 64 now, BitVec.ofNat 64 dom, BitVec.ofNat 64 mask, 0, 0, 0, 0] ++ (List.range 4).flatMap ring ++
    s.pageWords page ++ [Pg.map, Pg.stg, Pg.syn, Pg.rte].flatMap s.pageWords
  let st := s.dumpStacks
  let d : Dump := { evseq := BitVec.ofNat 32 evseq, time := now, free := (s.tb s.hub).free, stackA := st.getD 0 0, stackB := st.getD 1 0, read := false, words := words }
  (s.withRcv { s.rcv with dump := some d }).sstAdd 0x05 0 [BitVec.ofNat 64 evseq, BitVec.ofNat 64 now, BitVec.ofNat 64 (8 * words.length),
    Bits.make [(12, 8, d.stackB), (4, 0, d.stackA)]]

/-- The SEQ that the next event of a die takes. -/
def State.nextEv (s : State) (d : Nat) : Nat := s.fld (Pg.evl (s.recDie d)) F.evlPtrWr

/-! ## Out of service (R386, R418, R419) -/

def State.abortAll (s : State) (cause : Nat) : State := ((List.range 255).map (· + 1)).foldl (fun s c => s.abort c cause true 0 []) s

/-- The watermark's W of a queue, as its register shows it (R387). -/
def State.wmark (s : State) (q : Nat) : W64 := s.reg (Pg.sq q + 0x118)

/-- Whether a queue has accepted commands above w: without a record sent, or with one not consumed or not counted (R388). -/
def State.owes (s : State) (q : Nat) (w : W64) : Bool :=
  !(s.sqCmds q).isEmpty || (s.host.sent ++ s.host.again).any (fun r => decide (wf r 1 7 0 = q ∧ w < wd r 0)) || s.host.ranges.any (fun x => decide (x.1 = q)) ||
    decide (w < KMap.get (0 : W64) s.host.consumed q)

/-- The report of a recovery in the range form: one record of each queue with accepted commands above W, which are unfinished (R388, R389). -/
def State.rangeForm (s : State) : State :=
  s.withHost { s.host with sqs := [], fresh := [], again := [], mirrorLost := false, ranges := ((List.range 256).filter fun q => s.owes q (s.wmark q)).map fun q => (q, s.wmark q + 1) }

/-- Accepted commands without an outcome are UNFINISHED (R386); the report has the range form where the mirror copies were lost (R389). -/
def State.unfinished (s : State) : State :=
  if s.host.mirrorLost then s.rangeForm else
  (s.host.sqs.map (·.1)).foldl (fun s q => (s.sqCmds q).foldl (fun s k => s.finCmd q k.seq St.unfinished 0) s) s

def State.oosLatched (s : State) : Bool := s.bitF Pg.rcv F.rcvOosLatched

/-- The latch and its record (R447). -/
def State.setOos (s : State) (w : W64) : State := (s.setReg (Pg.rcv + 0x120) w).sstAdd 0x08 0 [w]

def State.goOut (s : State) (page : Nat) : State :=
  if s.oosLatched then s else
  let seq := s.nextEv s.hub
  let s1 := ((s.event s.hub Ev.outOfService 0 (unitOf page) 0 0).setErr Pg.rcv F.rcvErrStatEscalated 0).setFld Pg.rcv F.rcvStatPhase 2
  let s2 := ((s1.abortAll Cause.reset).unfinished).stageDump seq (s1.fld Pg.rcv F.rcvStatLastdom) page
  let s3 := (List.range 24).foldl (fun s p => s.portOff p Lk.off) s2
  let s4 := s3.setOos (Bits.make [(63, 63, 1), (31, 0, seq)])
  s4.withRcv { s4.rcv with coldSince := false }

/-- A counted reset: its stamp; the fourth within 600 s takes the package out of service (R418). -/
def State.countReset (s : State) (t : ResetTarget) : State :=
  let (d, page, key) := targetPlace t
  let u := s.unitRec key
  let now := s.now d
  let out := match u.resets[2]? with | some x => decide (now - x ≤ 600 * 10 ^ 9) | none => false
  let s1 := s.putUnit key { u with resets := (now :: u.resets).take 3 }
  if out then s1.goOut page else s1

/-- A reset begins: LASTDOM, the event, and what runs until RESET_DONE. -/
def State.beginReset (s : State) (t : ResetTarget) (tr : Option TrainIn) : State :=
  let (d, page, _) := targetPlace t
  let s1 := (s.setFld Pg.rcv F.rcvStatLastdom (targetDom t)).event d Ev.reset 0 (unitOf page) 0 0
  s1.withRcv { s1.rcv with resets := (s1.rcv.resets.filter fun j => decide (j.target ≠ t)) ++ [⟨targetDom t, t, tr⟩] }

/-! ## Engine and cluster (R416, R422) -/

/-- The registers of an engine's page return to reset, but for its history; a fenced engine stays fenced. -/
def State.resetPage (s : State) (page : Nat) (state : Fld) (key : Nat) : State :=
  ((s.keepRegs fun k => !onPage page k || keptAlways k)).showFence page state key

def State.resetMxe (s : State) (e : Nat) : State :=
  let s1 := ((s.setMxe e .reset).withBanks (dropKeys s.banks fun k => decide (k / 131072 = e))).withWork (dropKeys s.work fun k => decide (k = Pg.mxe e))
  let s2 := (s1.resetPage (Pg.mxe e) F.mxeStatState (mxeKey e)).showStrikes e
  let s3 := s2.setFld (Pg.mxe e) F.mxeStatCapEff (s2.effCap e)
  match (s.mxe e).fenceDue with | some k => s3.fenceMxeNow e k | none => s3

def State.resetVxe (s : State) (v : Nat) : State :=
  let s1 := ((s.setVxe v none).withWork (dropKeys s.work fun k => decide (k = Pg.vxe v))).resetPage (Pg.vxe v) F.vxeStatState (vxeKey v)
  match (s.vxe v).bind (·.fenceDue) with | some k => s1.fenceVxe v k | none => s1

/-- A core loses its registers, scratch and pending signals, and stops (R163, R287, R292). -/
def State.resetCore (s : State) (c k : Nat) : State :=
  let s1 := ((s.haltCore c k 1).setSignals (coreSlot c k) 0).setCore (coreSlot c k) .reset
  s1.withScratch (dropKeys s1.scratch fun a => decide (a / 131072 = coreSlot c k))

/-- The operation a porter carries: the one of its group at the porter's place (log 48). -/
def State.porterOp (s : State) (d p : Nat) : Option PortOp := (s.net.ops.filter fun o => decide (o.group = 2 * d + p / 8))[p % 8]?

/-- The context that runs on a unit of the engine domain, if one is named (R404, R406, R416). -/
def State.runningCtx (s : State) (u : WdUnit) : Option Nat :=
  match u with
  | .mxe e => match (s.mxe e).runs with | r :: _ => some r.cmd.ctx | [] => none
  | .vxe v => (s.vxe v).map fun r => r.cmd.ctx
  | .core c => if (s.fld (Pg.clu (clusterOfSlot c)) F.cluCoreRun).testBit (coreIndex c) then s.cluCtx (clusterOfSlot c) else none
  | .porter d p => (s.porterOp d p).map fun o => o.ctx
  | .gather c => if (s.clu c).gathers.isEmpty then none else s.cluCtx c
  | _ => none

/-- An agent's slot is reset: its core's registers, scratch, wait and pending signals are lost (R287). -/
def State.resetSlot (s : State) (p : Nat) : State :=
  let s1 := ((s.unwait p).setSignals p 0).setCore p .reset
  s1.withScratch (dropKeys s1.scratch fun a => decide (a / 131072 = p))

/-- The journals that a reset unit loses: its own are completed from the partner's copy where that is whole, and else their chunks run
again; the mirrors it held are written again (R236, R416). -/
def State.resetJournals (s : State) (u : Nat) : State :=
  let s1 := (s.journals.filter fun j => decide (j.unit = u)).foldl (fun s j => s.handOver u j) s
  s1.withJournals (s1.journals.map fun j => if j.partner = u then { j with complete := false } else j)

/-- Mirrors held on a die that leaves service are written to the next partner (R236). -/
def State.remirrorDie (s : State) (d : Nat) : State :=
  (s.journals.filter fun j => decide (j.partner < 36 ∧ uuDie j.partner = d)).foldl (fun s j => s.remirror j) s

/-- The reset of one unit of the engine domain. The work of an update unit or a courier re-runs from records or resumes from STATE. -/
def State.resetUnit (s : State) (u : WdUnit) : State :=
  match u with
  | .mxe e => ((s.resetMxe e).releaseLate (e / 4)).showMxes (e / 4)
  | .vxe v => s.resetVxe v
  | .core c => s.resetCore (clusterOfSlot c) (coreIndex c)
  | .gather c => s.setClu c { s.clu c with gathers := [] }
  | .update u => ((((s.resetJournals u).setUu u { Uu.reset with last := (s.uu u).last }).resetSlot (340 + u)).resetPage (Pg.uu u) F.uuStatState (uuUnitKey u))
  | .courier d => (s.resetSlot (336 + d)).resetPage (Pg.crr d) F.crrStatState (crrUnitKey d)
  | _ => s

def clusterIslands (c : Nat) : List Nat := [c % 12, 12 + c % 12]

/-- Everything of a cluster: SRAM EMPTY and zero, engines, cores, gather unit, ring, scalars, its pages (R416, R422). -/
def State.clearCluster (s : State) (c : Nat) : State :=
  let s1 := (List.range 4).foldl (fun s k => s.resetMxe (4 * c + k)) s
  let s2 := (List.range 2).foldl (fun s k => s.resetVxe (2 * c + k)) s1
  let s3 := (List.range 7).foldl (fun s k => s.resetCore c k) s2
  let s4 := (s3.setClu c .reset).clearSram (clusterBase c) (clusterBase c + 0x2000000)
  (s4.keepRegs (fun k => !(onPage (Pg.clu c) k || onPage (Pg.scl c) k))).withRcv { s4.rcv with late := s4.rcv.late.filter fun x => decide (x.1 ≠ c) }

/-- The cluster reset begins (R416). -/
def State.startCluster (s : State) (c : Nat) (counted : Bool) : State :=
  if h : c < 48 then
    let t : ResetTarget := .cluster ⟨c, h⟩
    let ctx := s.cluCtx c
    let s1 := s.beginReset t none
    let s2 := match ctx with | some x => s1.abortFor x Cause.reset | none => s1
    let s3 := ((s2.endWarns (c / 12) (clusterIslands c))).clearCluster c
    if counted then s3.countReset t else s3
  else s

/-! ## Die function (R26, R237, R401, R416) -/

/-- Contexts with clusters, stages or work on a die. -/
def State.dieCtxs (s : State) (d : Nat) : List Nat :=
  let cl := ((List.range 12).map (12 * d + ·)).filterMap s.cluCtx
  let stg := ((List.range 16).filter fun i => s.stageValid i && ((List.range 12).any fun m => (s.fld (Pg.stg + 8 * i) F.stgStageClusters).testBit (12 * d + m))).map s.stageCtx
  let upd := (s.upd.filter fun k => k.running && (k.todo.any (fun t => decide (uuDie t.2 = d)) || (k.done.any fun t => decide (uuDie t.2.1 = d)) ||
    s.journals.any fun j => decide (uuDie j.unit = d ∧ j.sq = k.sq ∧ j.seq = k.seq))).map fun k => wf k.words 0 55 48
  let col := (s.cr.colls.filter fun k => decide (k.die = d)).map (·.ctx) ++ (s.cr.groups.filter fun g => decide (g.die = d)).map (·.ctx)
  let ops := (s.net.ops.filter fun o => decide (o.die = d)).map (·.ctx)
  ((cl ++ stg ++ upd ++ col ++ ops).eraseDups).filter fun c => decide (c ≠ 0)

def State.abortDie (s : State) (d cause : Nat) : State := (s.dieCtxs d).foldl (fun s c => s.abortFor c cause) s

/-- Complete journals of a die's units are written back before its islands reset (R237). -/
def State.settleDie (s : State) (d : Nat) : State := s.settleJournals fun j => decide (uuDie j.unit = d)

/-- A die's link ports and lane set leave service; the packets it holds are discarded. -/
def State.diePortsOff (s : State) (d : Nat) : State :=
  let s1 := (List.range 6).foldl (fun s i => let p := 6 * d + i; if s.lnk p = Lk.fenced ∨ s.lnk p = Lk.off then s else s.portOff p Lk.down) s
  s1.withNet { s1.net with held := s1.net.held.filter fun h => decide (h.die ≠ d), sunk := s1.net.sunk.filter fun h => decide (h.die ≠ d), slots := dropKeys s1.net.slots fun k => decide (k / 4096 = d) }

/-- The agents of a die (R4): its courier, its update units and its porter groups. -/
def dieAgents (d : Nat) : List Nat := (336 + d) :: ((List.range 36).filter fun u => decide (uuDie u = d)).map (340 + ·) ++ [376 + 2 * d, 377 + 2 * d]

/-- Everything that the islands of a die hold (R422). -/
def State.clearDie (s : State) (d : Nat) : State :=
  let s1 := (List.range 12).foldl (fun s m => s.clearCluster (12 * d + m)) s
  let s2 := s1.clearSram (sharedBase d) (sharedBase d + 0x4000000)
  let s3 := (s2.withBins (dropKeys s2.bins fun k => decide (k / 64 / 256 = d))).withHstOp (dropKeys s2.hstOp fun k => decide (k = d))
  let s4 := (s3.withEvents (dropKeys s2.events fun k => decide (k / 1024 = d))).withUus (dropKeys s2.uus fun u => decide (uuDie u = d))
  let s5 := s4.withMs { s2.ms with held := dropKeys s2.ms.held fun k => decide (k / 64 = d), heldSince := dropKeys s2.ms.heldSince fun k => decide (k / 64 = d),
                                   thr := dropKeys s2.ms.thr fun k => decide (k / 5 = d), lpHot := dropKeys s2.ms.lpHot fun k => decide (k / 8 = d) }
  (((dieAgents d).foldl State.resetSlot s5).keepRegs (keptDie d)).showHistory

/-- The die-function reset begins (R416). -/
def State.startDie (s : State) (d : Nat) (tr : Option TrainIn) (counted : Bool) : State :=
  if h : d < 4 then
    let t : ResetTarget := .dieFunction ⟨d, h⟩
    let seq := s.nextEv d
    let s1 := ((if s.hub = d then s.cutCommit else s).beginReset t tr).abortDie d Cause.reset
    let s2 := (((if s1.hub = d then s1.replayCommit.loseReport else s1).settleDie d).stageDump seq 3 (Pg.isl d 34)).endWarns d (List.range 35)
    let s3 := [false, true].foldl (fun s b => if laneDie b = d ∧ (s.lane b = Hl.active ∨ s.lane b = Hl.standby ∨ s.lane b = Hl.train) then s.laneDown b false (if b then F.hlkErrStatDownB else F.hlkErrStatDownA) else s) s2
    let s4 := (s3.diePortsOff d).clearDie d
    let s5 := ((s4.withPlat { s4.plat with dieReset := s4.plat.dieReset ||| BitVec.ofNat 4 (2 ^ d) }).remirrorDie d).noteDir s
    if counted then s5.countReset t else s5
  else s

/-- A die is fenced (R26, R400, R401): its contexts are aborted, services move, and what lies on its edge is gone. -/
def State.fenceDie (s : State) (d cause : Nat) : State :=
  if s.plat.dieFenced.getLsbD d then s else
  let s0 := ((if s.hub = d then s.cutCommit else s).abortDie d Cause.fence).mirrorFault (fun x => decide (x / 5 = d)) (decide (s.hub = d))
  let s1 := (if s0.hub = d then s0.replayCommit else s0).settleDie d
  let s2 := ((s1.fenceUnit d (Pg.isl d 34) (dieKey d) cause).event d Ev.dieFenced 0 (unitOf (Pg.isl d 34)) 0 (BitVec.ofNat 64 cause)).diePortsOff d
  let s3 := (s2.withPlat { s2.plat with dieFenced := s2.plat.dieFenced ||| BitVec.ofNat 4 (2 ^ d), dieReset := s2.plat.dieReset &&& ~~~BitVec.ofNat 4 (2 ^ d) }).withRcv { s2.rcv with resets := s2.rcv.resets.filter fun j => decide ((targetPlace j.target).1 ≠ d ∨ 4 ≤ j.dom) }
  let s4 := [false, true].foldl (fun s b => if laneDie b ≠ d then s else if s.lane b = Hl.train then s.laneOff b Hl.down else s.laneFails b) s3
  ((((dieAgents d).foldl State.agentFenced s4).remirrorDie d).noteDir s)

/-! ## What a recovery does to the whole package (R285, R416, R420 to R422) -/

/-- Every context is lost to synchronisation, the marking of its claims is over, and the barriers' arrivals are cleared (R285). -/
def State.loseAll (s : State) : State :=
  let s1 := ((List.range 256).foldl (fun s c => s.lose c) s).markLost
  let s2 := s1.withSync { s1.sync with waiters := [], signals := [], heldArr := [] }
  (List.range 64).foldl (fun s b => (s.clearArrived b).setFld (Pg.bar b) F.barStatDropped 0) s2

/-- Volatile state of units, of SRAM and of the links that both recoveries clear. -/
def State.clearVolatile (s : State) : State :=
  let s1 := s.clearSram 0xF00000000000 0xFF0000000000
  let s2 := ((((s1.withEvents []).withCores []).withScratch []).withClusters []).withBanks []
  let s3 := ((((((s2.withMxes []).withVxes []).withBins []).withWork []).withHstOp []).withUpd []).withUus []
  let s4 := (s3.withJournals []).withMs { s1.ms with thr := [], held := [], heldSince := [], lpHot := [], sramCe := [] }
  let s5 := s4.withNet { s1.net with held := [], sunk := [], slots := [], ops := [], jobs := [], narrow := [], elect := none, loads := [] }
  let s6 := (s5.withCr ⟨[], [], s1.cr.next, []⟩).withStg { s1.stg with outbox := [], vcmd := none }
  let s7 := (s6.withRcv { s1.rcv with aborts := [], relays := [], trials := [], late := [] }).withLdg { s1.ldg with seals := [], unsecured := [], start := [], runNs := [] }
  (s7.withPlat { s1.plat with warns := [] }).withBoot
    { s1.boot with load := [], check := none, idFail := false, waitGo := false, report := [], secWord := 0, token := [], tokenOk := none }

/-- What only a cold recovery clears: region space, links, routes, queues, ledgers; queues with accepted commands above W owe a record
of range form (R270, R322, R388, R422, R443). -/
def State.clearCold (s : State) : State :=
  let s0 := s.rangeForm
  let s1 := (((s0.withMem ⟨[], [], [], []⟩).withCommit []).withMs { s.ms with chans := [] }).withStg ⟨[], [], [], [], [], [], none⟩
  let s2 := ((s1.withSync ⟨[], [], [], []⟩).withNet { s.net with routes := [], flipAt := none }).withLdg ⟨[], s.ldg.next, [], [], [], []⟩
  s2.withHost { s0.host with echoes := [], sent := [], held := [], consumed := (List.range 256).foldl (fun m q => KMap.set 0 m q (s.wmark q)) [] }

/-- Link ports train again: those that a warm recovery found ROUTED or up remember it, and the peer they admitted (R299, R322, R327,
R339). -/
def State.trainPorts (s : State) (was up : List Nat) : State :=
  (List.range 24).foldl (fun s p =>
    let uid := (s.port p).admitUid
    let s1 := (s.setPort p .reset).trainPort p
    if up.contains p then s1.setPort p { s1.port p with wasRouted := was.contains p, wasUp := true, admitUid := uid } else s1) s

/-- Both lane sets train, unless fenced (R365). -/
def State.trainLanes (s : State) : State :=
  [false, true].foldl (fun s b => if s.unitFenced (laneKey b) then s else (s.setLane b (if s.dieUp (laneDie b) then Hl.train else Hl.down)).endTick b) s

/-- A warm (cold = false) or cold recovery begins (R420, R421). -/
def State.startRecovery (s : State) (cold : Bool) (tr : TrainIn) (counted : Bool) : State :=
  let t : ResetTarget := if cold then .cold else .warm
  let seq := s.nextEv s.hub
  let s1 := (s.cutCommit.beginReset t (some tr)).setFld Pg.rcv F.rcvStatPhase 1
  let s2 := if counted then s1.countReset t else s1
  let s3 := ((((s2.setFld Pg.rcv F.rcvStatPhase 1).abortAll Cause.reset).settleJournals fun _ => true).replayCommit).loseAll
  let s4 := (List.range 256).foldl (fun s c => s.abortStages c) s3
  let s5 := ((s4.storeWmark).stageDump seq (targetDom t) Pg.rcv)
  let s6 := (List.range 4).foldl (fun s d => s.endWarns d (List.range 35)) s5
  let was := if cold then [] else (List.range 24).filter fun p => decide (s6.lnk p = Lk.routed)
  let up := if cold then [] else (List.range 24).filter s6.portUp
  let s7 := ((s6.withRcv { s6.rcv with resets := s6.rcv.resets.filter fun j => decide (j.target = t), coldSince := s6.rcv.coldSince || cold }).withPlat { s6.plat with dieReset := 0 }).withHost { s6.host with deferred := [], results := [], fast := [], again := s6.host.again ++ s6.host.sent, sent := [], held := [], ccons := 0, rqOk := false, tag := 0 }
  let s8 := if cold then (s7.clearCold).clearVolatile.keepRegs keptAlways else s7.clearVolatile.keepRegs keptWarm
  let s9 := (((s8.showMemFences).showHistory).pwrStart).setFld Pg.sec F.secStatLeafnext s8.boot.leafRes
  ((((s9.trainPorts was up).trainLanes).setFld Pg.rcv F.rcvStatPhase 1).bootKept).noteDir s

end Sys2Proof.Machine
end

