-- ==== Sys2Proof/Machine/Recovery.lean ====
section
/-! DEFINITION. Watchdogs and hangs, the taint backstop, aborts, reset domains, recoveries and the event log's commands (R402 to R429,
R465). -/

namespace Sys2Proof.Machine

/-! ## Watchdogs and hangs (R404 to R408) -/

/-- A strike on a unit of the engine domain; the third within 86,400 s fences it (R399). -/
def State.fenceAny (s : State) (u : WdUnit) (cause : Nat) : State :=
  match u with
  | .mxe e => s.fenceMxe e cause
  | .vxe v => s.fenceVxe v cause
  | .core c =>
    let cl := clusterOfSlot c
    let k := coreIndex c
    let s1 := (s.fenceUnit (cl / 12) (Pg.clu cl) (coreKey cl k) cause).haltCore cl k 1
    if k = 0 then s1.fenceCluster cl cause else s1
  | .porter d p => s.fenceUnit d (Pg.isl d 34) (porterKey d p) cause
  | .gather c => s.fenceUnit (c / 12) (Pg.clu c) (gatherKey c) cause
  | .update u => s.fenceUu u cause
  | .courier d => s.fenceCrr d cause
  | _ => s

def State.strikeAny (s : State) (u : WdUnit) (ctx : Nat) : State :=
  if let .mxe e := u then s.strikeMxe e ctx 0 else
  let (d, _, key) := wdPlace u
  let (s1, third) := s.strikeRec d key ctx 0
  if third then s1.fenceAny u 1 else s1

/-- The reset of a unit in the engine domain begins. -/
def State.startEngine (s : State) (u : WdUnit) (counted : Bool) : State :=
  let s1 := (s.beginReset (.engine u) none).resetUnit u
  if counted then s1.countReset (.engine u) else s1

/-- A hang with a named suspect (R406, R408). -/
def State.hang (s : State) (u : WdUnit) (ctx : Nat) : State :=
  let (d, page, key) := wdPlace u
  ((s.abortFor ctx Cause.hang).startEngine u false).event d Ev.hang ctx (unitOf page) (key / 2 ^ 18) (BitVec.ofNat 64 Cause.hang)

def sortNats (l : List Nat) : List Nat := l.eraseDups.foldr natInsert []

/-- Suspects of an update unit or a courier, ascending (R404). -/
def State.suspects (s : State) (u : WdUnit) : List Nat :=
  match u with
  | .update x => sortNats ((s.upd.filter fun k => s.unitHas k x).map fun k => wf k.words 0 55 48)
  | .courier d => sortNats ((s.cr.colls.filter fun k => decide (k.die = d.val) && k.running).map (·.ctx))
  | _ => []

def State.setTrials (s : State) (l : List Trial) : State := s.withRcv { s.rcv with trials := l }
def State.dropTrial (s : State) (u : WdUnit) : State := s.setTrials (s.rcv.trials.filter fun t => decide (t.unit ≠ u))

/-- A trial ends (R407): a failing one names the culprit; when every one passes the unit gains the strike and its reset counts. -/
def State.trialDone (s : State) (t : Trial) (pass : Bool) : State :=
  let (d, page, _) := wdPlace t.unit
  match t.suspects, pass with
  | c :: _, false => (s.dropTrial t.unit).hang t.unit c
  | _ :: c :: r, true => s.setTrials (s.rcv.trials.map fun x => if x.unit = t.unit then { x with suspects := c :: r } else x)
  | _, _ => (((s.dropTrial t.unit).strikeAny t.unit 0).event d Ev.hangUnattributed 0 (unitOf page) 0 0).countReset (.engine t.unit)

/-- A unit waits only for what R405 excludes, as far as the state shows it: a core in a full/empty, signal, barrier or queue wait; an engine whose
runs wait for a finished-tile entry; a chain that waits for one; a record that the ring cannot take; a porter without reply slot or intake; a
courier that waits for peers or CREDIT. -/
def State.excludedWait (s : State) (u : WdUnit) : Bool :=
  match u with
  | .core c => s.waits c
  | .mxe e => s.unitBlocked (e / 4) (Pg.mxe e) || (s.mxe e).runs.all fun r => decide (r.phase = 2 ∧ r.entry = 0 ∧ 8 ≤ (s.mxe e).ftq.length) && r.cmd.emit
  | .vxe v => s.unitBlocked (v / 2) (Pg.vxe v) || (match s.vxe v with
    | some r => decide (r.seen < r.cmd.needs) && (match s.mxeOfSlot (v / 2) r.cmd.mslot with
      | some e => !(s.visible e).any fun x => !x.claimed
      | none => true)
    | none => false)
  | .gather c => s.unitBlocked c (Pg.clu c)
  | .porter d p => match s.porterOp d p with
    | some o => !o.rest.isEmpty && decide (o.flying = 0) && !s.isLocal o && (s.formOne o).isNone
    | none => false
  | .courier d => (s.cr.colls.filter fun k => decide (k.die = d.val) && k.running).all fun k => (s.sendChunk k).isNone
  | _ => false

/-- A watchdog expires (R404), in no excluded wait (R405). A hang with a named suspect strikes the unit as well (R399; log 80). -/
def State.watchdog (s : State) (u : WdUnit) : State :=
  match u with
  | .queue q => if s.outstanding q = 0 then s else s.event (q / 64) Ev.qStall (s.fld (Pg.sq q) F.sqCfgCtx) (unitOf (Pg.sq q)) 0 0
  | .service d => if d.val = s.hub && s.dieUp d then s.startDie d none true else s
  | .update _ | .courier _ =>
    match s.rcv.trials.find? fun t => decide (t.unit = u) with
    | some t => s.trialDone t false
    | none => if (s.suspects u).isEmpty then s else (s.startEngine u false).setTrials (s.rcv.trials ++ [⟨u, s.suspects u⟩])
  | _ => match s.runningCtx u with | some c => (s.hang u c).strikeAny u c | none => s

def execWatchdogExpire (u : WdUnit) (s : State) : Host.Outcome State Fault Refusal := if s.plat.pwrOk && !s.excludedWait u then .next (s.watchdog u) else .next s

def execHangTrialDone (u : WdUnit) (pass : Bool) (s : State) : Host.Outcome State Fault Refusal :=
  match s.rcv.trials.find? fun t => decide (t.unit = u) with
  | some t => .next (s.trialDone t pass)
  | none => .next s

/-- The limit that governs a unit, in µs. -/
def State.wdLimit (s : State) (u : WdUnit) : Nat :=
  match u with
  | .mxe _ => s.fld Pg.rcv F.rcvWdlim0Mxe
  | .vxe _ => s.fld Pg.rcv F.rcvWdlim0Vxe
  | .core _ => s.fld Pg.rcv F.rcvWdlim0Core
  | .porter _ _ | .gather _ => s.fld Pg.rcv F.rcvWdlim0Porter
  | .update _ => s.fld Pg.rcv F.rcvWdlim1Uu
  | .courier _ => s.fld Pg.rcv F.rcvWdlim1Courier
  | .service _ => s.fld Pg.rcv F.rcvWdlim1Service
  | .queue _ => s.fld Pg.rcv F.rcvWdlim1Qstall * 10 ^ 6

/-- A write of WDLIM0 or WDLIM1 with the floors of R429; a running watchdog whose time exceeds its limit expires (R404). -/
def execRcvWdlimWrite (hi : Bool) (data : W64) (elapsed : List (WdUnit × Nat)) (s : State) : Host.Outcome State Fault Refusal :=
  let f := fun h l floor => (h, l, max floor (Bits.get data h l))
  let v := Bits.make [f 63 48 (if hi then 1 else 100), f 47 32 100, f 31 16 100, f 15 0 100]
  let s1 := s.setReg (Pg.rcv + (if hi then 0x150 else 0x148)) v
  .next (elapsed.foldl (fun s e => if s.wdLimit e.1 < e.2 && !s.excludedWait e.1 then s.watchdog e.1 else s) s1)

/-! ## Taint backstop (R402) -/

/-- 100 µs after the oldest CHECK_LATE record that no taint answered. -/
def execTaintBackstop (s : State) : Host.Outcome State Fault Refusal :=
  match s.rcv.late with
  | [] => .next s
  | (c, ctx) :: rest =>
    let s1 := ((s.withRcv { s.rcv with late := rest }).taintWhole ctx).setErr Pg.rcv F.rcvErrStatTaintBackstop ctx
    .next (s1.event (c / 12) Ev.taintBackstop ctx (unitOf (Pg.clu c)) 0 0)

/-! ## Aborts (R409 to R414) -/

/-- The queue form aborts its own context (R409); FABRIC originates a relay (R413). -/
def execContextAbort (q : Fin 256) (s : State) : Host.Outcome State Fault Refusal :=
  match s.nextCmd q with
  | none => .next s
  | some k =>
    if !k.echoed || decide (wf k.words 0 63 56 ≠ 0x50) then .next s else
    let s1 := s.markDispatched q k.seq
    if wf k.words 0 7 0 ≠ k.ctx then .next ((s1.finCmd q k.seq St.protocolErr 0).pump q)
    else .next ((s1.abort k.ctx Cause.host ((wd k.words 0).getLsbD 8) (wd k.words 1) [(q.val, k.seq)]).pump q)

def execRcvAbort (ctx : Byte) (fabric : Bool) (s : State) : Host.Outcome State Fault Refusal :=
  if ctx = 0 then .next (s.badSeq Pg.rcv) else .next (s.abort ctx.toNat Cause.host fabric 0 [])

/-- A unit that has not confirmed the abort is reset; if that reset fails it is fenced, and RESET_FAIL escalates (R410). -/
def execAbortWedgeCheck (wedged : List (WdUnit × Bool)) (s : State) : Host.Outcome State Fault Refusal :=
  if s.rcv.aborts.isEmpty then .next s else
  .next (wedged.foldl (fun s w => if w.2 then (s.resetUnit w.1).countReset (.engine w.1) else (s.startEngine w.1 true).fenceAny w.1 5) s)

def execAbortComplete (s : State) : Host.Outcome State Fault Refusal :=
  match s.rcv.aborts with
  | j :: _ => .next (s.finishAbort j)
  | [] => .next s

/-- The oldest relay is sent again; three times in all (R414). -/
def execAbortRelayResend (s : State) : Host.Outcome State Fault Refusal :=
  match s.rcv.relays with
  | [] => .next s
  | r :: rest => .next ((s.sendRelay r).withRcv { s.rcv with relays := if r.left ≤ 1 then rest else rest ++ [{ r with left := r.left - 1 }] })

/-! ## RCV.RESET (R400, R416, R417, R429) -/

/-- A reset is refused while PHASE is not RUN. -/
def State.ifRun (s : State) (t : State) : State := if s.fld Pg.rcv F.rcvStatPhase = 0 then t else s.badSeq Pg.rcv

/-- The register form reaches MXE, VXE, UU and CRR pages; another target does not exist. -/
def execResetEngine (u : WdUnit) (s : State) : Host.Outcome State Fault Refusal :=
  match u with
  | .mxe _ | .vxe _ | .update _ | .courier _ =>
    let s1 := match s.runningCtx u with | some c => s.abortFor c Cause.reset | none => s
    .next (s.ifRun (s1.startEngine u true))
  | _ => .next (s.badSeq Pg.rcv)

def execResetCluster (c : ClusterNo) (s : State) : Host.Outcome State Fault Refusal := .next (s.ifRun (s.startCluster c true))

def execResetDieFunction (d : Die) (tr : TrainIn) (s : State) : Host.Outcome State Fault Refusal :=
  .next (if s.plat.dieFenced.getLsbD d then s.badSeq Pg.rcv else s.ifRun (s.startDie d (some tr) true))

/-- A warm trigger runs a cold recovery with SCOPE = 1 (R420). -/
def execResetWarm (tr : TrainIn) (s : State) : Host.Outcome State Fault Refusal := .next (s.ifRun (s.startRecovery (s.bitF Pg.rcv F.rcvCfgScope) tr true))

def execResetCold (tr : TrainIn) (s : State) : Host.Outcome State Fault Refusal := .next (s.ifRun (s.startRecovery true tr true))

def execDieFence (d : Die) (s : State) : Host.Outcome State Fault Refusal := .next (s.ifRun (s.fenceDie d 7))

/-- COLD_RST_N falls while PWR_OK is high (R472); test mode ends with PWR_OK only (R488). -/
def execColdReset (tr : TrainIn) (s : State) : Host.Outcome State Fault Refusal :=
  if !s.plat.pwrOk || decide (s.phase = Ph.test) then .next s
  else .next ((s.withPlat { s.plat with coldRstN := false }).startRecovery true tr true)

/-! ## The end of a reset (R400, R416, R417) -/

def State.dropReset (s : State) (t : ResetTarget) : State := s.withRcv { s.rcv with resets := s.rcv.resets.filter fun j => decide (j.target ≠ t) }
def State.findReset (s : State) (t : ResetTarget) : Option ResetJob := s.rcv.resets.find? fun j => decide (j.target = t)

/-- Lifts the fences of a cluster and of its units that have no re-admission of their own (R400; log 49). -/
def State.readmitCluster (s : State) (c : Nat) : State :=
  ((List.range 7).map (coreKey c) ++ [gatherKey c, clusterKey c]).foldl (fun s k => if s.unitFenced k then s.liftFence k else s) s

/-- A bridge retrains: one that fails stays down, fenced (R23). -/
def State.trainBridge (s : State) (b : Nat) (fails : Bool) : State :=
  if fails then
    let s1 := s.setBridge b ⟨0, 0, true, []⟩
    (bridgeEnds b).foldl (fun s e => s.fenceUnit e.1 (Pg.isl e.1 34) (bridgeKey e.1 e.2) 4) s1
  else (bridgeEnds b).foldl (fun s e => if s.unitFenced (bridgeKey e.1 e.2) then s.liftFence (bridgeKey e.1 e.2) else s) (s.setBridge b Bridge.reset)

/-- What retraining finds of the memory units that a predicate names (R34, R213): LPDDR packages and stack channels that fail, stacks
whose controller fails. -/
def State.trainMemory (s : State) (tr : TrainIn) (mine : Nat → Bool) : State :=
  let s1 := ((List.range 32).filter fun k => tr.lpFail.getLsbD k && mine (20 + k) && !s.lpFenced k).foldl (fun s k => s.fenceLp k 4) s
  let s2 := (tr.chFail.filter fun c => mine c.1).foldl (fun s c => if s.chanFenced c.1 c.2 then s else s.fenceChan c.1 c.2 4) s1
  ((List.range 20).filter fun k => tr.msFail.getLsbD k && mine k).foldl (fun s k => if s.stackFenced k then s else s.fenceStack k 6) s2

/-- A die leaves its reset: ports and bridges retrain, and its memory returns from self-refresh (R23, R213, R299, R416). -/
def State.endDie (s : State) (d : Nat) (tr : Option TrainIn) : State :=
  let s1 := s.withPlat { s.plat with dieReset := s.plat.dieReset &&& ~~~BitVec.ofNat 4 (2 ^ d) }
  let s2 := ((List.range 4).filter fun b => (bridgeEnds b).any fun e => decide (e.1 = d)).foldl (fun s b => s.trainBridge b ((tr.map fun t => t.bridgeFail.getLsbD b).getD false)) s1
  let s3 := match tr with | some t => s2.trainMemory t fun u => decide (unitDie u = d) | none => s2
  ((List.range 6).foldl (fun s i => s.trainPort (6 * d + i)) s3).noteDir s

/-- A reset is over within its bound. Warm and cold recoveries end by RECOVERY_DONE. -/
def execResetDone (t : ResetTarget) (selfTestsPass : Bool) (s : State) : Host.Outcome State Fault Refusal :=
  match s.findReset t with
  | none => .next s
  | some j =>
    match t with
    | .engine _ => .next (s.dropReset t)
    | .cluster c => if selfTestsPass then .next ((s.dropReset t).readmitCluster c) else .next ((s.dropReset t).fenceCluster c 5)
    | .dieFunction d => .next ((s.dropReset t).endDie d j.train)
    | .warm | .cold => .next s

/-- The cluster of a unit, if it lies in one. -/
def wdCluster (u : WdUnit) : Option Nat :=
  match u with
  | .mxe e => some (e / 4) | .vxe v => some (v / 2) | .core c => some (clusterOfSlot c) | .gather c => some c
  | _ => none

/-- A reset beyond its bound escalates (R417). -/
def execResetFail (t : ResetTarget) (s : State) : Host.Outcome State Fault Refusal :=
  match s.findReset t with
  | none => .next s
  | some j =>
    let (d, page, _) := targetPlace t
    let s1 := ((s.dropReset t).setErr Pg.rcv F.rcvErrStatResetFail 0).event d Ev.resetFail 0 (unitOf page) 0 0
    match t with
    | .engine u => match wdCluster u with | some c => .next (s1.startCluster c true) | none => .next (s1.startDie d none true)
    | .cluster c => .next ((s1.fenceCluster c 5).startDie d none true)
    | .dieFunction d => .next (s1.fenceDie d 5)
    | .warm => .next (s1.startRecovery true (j.train.getD ⟨0, [], 0, 0, 0⟩) true)
    | .cold => .next s1

/-! ## The end of a recovery (R34, R213, R365, R386, R401, R421) -/

/-- What retraining found: dies, LPDDR packages, channels, bridges; a fenced die that passes returns with its edge. -/
def State.applyTraining (s : State) (tr : TrainIn) : State :=
  let s1 := (List.range 4).foldl (fun s d =>
    if tr.dieFail.getLsbD d then s.fenceDie d 4
    else if s.plat.dieFenced.getLsbD d then
      let s1 := s.withPlat { s.plat with dieFenced := s.plat.dieFenced &&& ~~~BitVec.ofNat 4 (2 ^ d) }
      let s2 := (List.range 6).foldl (fun s i => s.trainPort (6 * d + i)) (s1.liftFence (dieKey d))
      [false, true].foldl (fun s b => if laneDie b = d ∧ s.lane b = Hl.down then s.setLane b Hl.train else s) s2
    else s) s
  (List.range 4).foldl (fun s b => s.trainBridge b (tr.bridgeFail.getLsbD b)) (s1.trainMemory tr fun _ => true)

/-- RUN, or OUT_OF_SERVICE while the latch stands (R419). -/
def State.enterRun (s : State) : State := (s.setPhase Ph.ready).setFld Pg.rcv F.rcvStatPhase (if s.oosLatched then 2 else 0)

/-- A recovery is complete: firmware runs and no TAP holds the package (R421, R491). -/
def execRecoveryDone (s : State) : Host.Outcome State Fault Refusal :=
  match s.rcv.resets.find? fun j => decide (4 ≤ j.dom) with
  | none => .next s
  | some j =>
    if s.phase ≠ Ph.firmware ∨ s.tap.hold then .next s else
    let s1 := (s.withRcv { s.rcv with resets := [] }).withPlat { s.plat with coldRstN := true }
    let s2 := (((s1.applyTraining (j.train.getD ⟨0, [], 0, 0, 0⟩)).loadIdentity).unfinished).enterRun
    .next ((s2.event s2.hub Ev.recoveryDone 0 (unitOf Pg.rcv) 0 0).noteDir s)

/-! ## Droop resets (R417, R465, R466) -/

/-- The domain that an island resets: its cluster, or its die function. -/
def execDroopReset (d : Die) (k : Fin 35) (s : State) : Host.Outcome State Fault Refusal :=
  if !s.dieUp d then .next s else
  let dom := if k.val < 24 then 2 else 3
  let s1 := ((s.countStretch d k).setWarn d k none).setErr (Pg.drp d) F.drpErrStatReset 0
  let s2 := s1.event d Ev.droopReset 0 (unitOf (Pg.isl d k)) 0 (BitVec.ofNat 64 dom)
  .next (if k.val < 24 then s2.startCluster (12 * d + k % 12) true else s2.startDie d none true)

/-! ## The pages RCV and EVL (R418, R419, R423, R428, R429) -/

def execRcvOosack (evseq : W32) (s : State) : Host.Outcome State Fault Refusal :=
  if s.oosLatched && s.rcv.coldSince && decide (s.fld Pg.rcv F.rcvOosEvseq = evseq.toNat) then
    let s1 := s.setOos 0
    .next (if s1.fld Pg.rcv F.rcvStatPhase = 2 then s1.setFld Pg.rcv F.rcvStatPhase 0 else s1)
  else .next (s.badSeq Pg.rcv)

def State.jobSel (s : State) : Nat := s.fld Pg.rcv F.rcvJobselCtx

def execRcvJobidWrite (jobid : W64) (s : State) : Host.Outcome State Fault Refusal :=
  let p := bank s.jobSel Pg.rcv
  .next ((s.setReg (p + 0x138) jobid).setReg (p + 0x140) 0)

def execRcvAbstatRead (s : State) : Host.Outcome State Fault Refusal := .next (s.readClear (Pg.rcv + 0x110) (Bits.mask 39 32))

def State.dumpWord (s : State) : W64 := match s.rcv.dump with | some d => wd d.words (s.fld Pg.rcv F.rcvDumpptrOffset / 8) | none => 0

/-- A read advances OFFSET; the last word marks the dump read, in its index too. -/
def execDumpRead (s : State) : Host.Outcome State Fault Refusal :=
  let o := s.fld Pg.rcv F.rcvDumpptrOffset
  let s1 := (s.out s.dumpWord).setFld Pg.rcv F.rcvDumpptrOffset ((o + 8) % 2 ^ 32)
  match s.rcv.dump with
  | some d =>
    if o / 8 + 1 = d.words.length && !d.read then
      .next ((s1.withRcv { s1.rcv with dump := some { d with read := true } }).sstAdd 0x05 0 [d.evseq.setWidth 64, BitVec.ofNat 64 d.time,
        BitVec.ofNat 64 (8 * d.words.length), Bits.make [(63, 63, 1), (12, 8, d.stackB), (4, 0, d.stackA)]])
    else .next s1
  | none => .next s1

def execEvlLostRead (d : Die) (s : State) : Host.Outcome State Fault Refusal := .next (s.readClear (Pg.evl d + 0x128) (BitVec.allOnes 64))

/-- A DOWN event ages out of the window (R327, R394). -/
def execDownWindowExpire (p : Option (Fin 24)) (s : State) : Host.Outcome State Fault Refusal :=
  match p with
  | some p => .next (s.setFld (Pg.lnk p) F.lnkDownsCount (within (s.now (portDie p)) dayNs (s.unitRec (lnkKey p)).downs).length)
  | none => .next s.showLaneDowns

end Sys2Proof.Machine
end

