-- ==== Sys2Proof/Machine/Platform.lean ====
section
/-! DEFINITION. Power, reference clocks and bridges (R23, R31, R32, R467, R471 to R475, R481, R482), and the board controller's shutdown
(R473). -/

namespace Sys2Proof.Machine

/-! ## Loss of power (R388, R467) -/

/-- The durable watermark of a queue (R447), if a record of it exists. -/
def State.durableW (s : State) (q : Nat) : Option W64 := (s.sst.winner 0x07 0).map fun r => wd r.payload q

/-- Queues with accepted commands above the durable watermark, as (queue, W + 1) (R388, R482). -/
def State.owedRanges (s : State) : List (Nat × W64) :=
  (List.range 256).filterMap fun q => match s.durableW q with
    | none => none
    | some w =>
      if s.owes q w then some (q, w + 1) else none

/-- What outlives power: the survival store and the fuses, with the records of range form that the store's watermark makes due.
Records not durable are lost with the rest (R467). -/
def State.unpowered (s : State) (ranges : List (Nat × W64)) : State :=
  let z := State.reset
  let s1 := ((((z.withPending s.pending).withFree s.free).withRdData s.rdData).withRegStatus s.regStatus).withPlat { z.plat with pwrOk := false }
  let s2 := s1.withSst { s.sst with wait := [], erased := false, erasing := false, units := [] }
  let s3 := s2.withBoot { z.boot with vkrev := s.boot.vkrev, svn := s.boot.svn, lifecycle := s.boot.lifecycle, fuseBad := s.boot.fuseBad }
  s3.withHost { z.host with ranges := ranges }

/-- PWR_OK falls: all is lost but what outlives power. -/
def execPowerLoss (s : State) : Host.Outcome State Fault Refusal :=
  if !s.plat.pwrOk then .next s else .next (s.unpowered s.owedRanges)

/-! ## The survival store at a start (R447, R448, R450) -/

def bankSize (l : List SstRec) : Nat := l.foldl (fun n r => n + r.size) 0

/-- A bank that counts holds a record whose CRC fails. -/
def bankTorn (l : List SstRec) : Bool := !(readableBank l).isEmpty && l.any fun r => !r.valid

/-- No bank of either device holds a SEAL: bank 0 of both is erased and sealed. -/
def State.formatStore (s : State) : State :=
  let f : Flash → Flash := fun d => if d.ok then { d with bank0 := [sealAtReset], bank1 := [] } else d
  (s.withSst { s.sst with a := f s.sst.a, b := f s.sst.b }).setErr Pg.sst F.sstErrStatFormatted 0

/-- The devices are read: the active bank, the next SEQ, what is written, and whether the other bank is erased. -/
def State.readStore (s : State) (devA devB : Bool) : State :=
  let s1 := s.withSst { s.sst with a := { s.sst.a with ok := devA }, b := { s.sst.b with ok := devB }, units := [], rdWord := 0 }
  let s2 := if devA then s1 else s1.setErr Pg.sst F.sstErrStatDevaFail 0
  let s3 := if devB then s2 else s2.setErr Pg.sst F.sstErrStatDevbFail 0
  let devs := [s3.sst.a, s3.sst.b].filter (·.ok)
  let s4 := if devs.any fun f => bankTorn f.bank0 || bankTorn f.bank1 then s3.setErr Pg.sst F.sstErrStatCrcSkip 0 else s3
  let s5 := if (s4.sst.records.isEmpty) then s4.formatStore else s4
  let recs := s5.sst.records
  let act := match newest (recs.filter fun r => decide (r.typ = 1)) with | some r => wf r.payload 0 0 0 | none => 0
  let live := [s5.sst.a, s5.sst.b].filter (·.ok)
  let s6 := (s5.setFld Pg.sst F.sstSeqNext (recs.foldl (fun n r => max n (r.seq + 1)) 0)).setFld Pg.sst F.sstStatActive act
  let s7 := s6.setFld Pg.sst F.sstUsedWritten (live.foldl (fun n f => max n (bankSize (readableBank (f.bank act)))) 0)
  s7.withSst { s7.sst with erased := live.all fun f => (f.bank (1 - act)).isEmpty }

/-- Whether a key of a UNIT record holds time stamps of uncorrectable memory errors: a stack channel or an LPDDR package (R498). -/
def memUnit (key : Nat) : Bool := decide (key / 2 ^ 8 % 2 ^ 8 = 0x12 ∨ key / 2 ^ 8 % 2 ^ 8 = 0x13)

/-- Fences that end with the power cycle or are found again by training: dies and bridge ports (R23, R401). -/
def cycleUnit (key : Nat) : Bool :=
  decide (key / 2 ^ 8 % 2 ^ 8 = 0x02) && (decide (key / 2 ^ 18 % 64 = 0) || decide (key / 2 ^ 18 % 64 = 2) || decide (key / 2 ^ 18 % 64 = 3))

/-- What PWR_OK's rise clears of a record (R213, R401, R418, R447). -/
def UnitRec.atStart (u : UnitRec) (key : Nat) : UnitRec :=
  let u1 := { u with resets := [], strikes := if memUnit key then [] else u.strikes }
  if cycleUnit key then { u1 with fenced := false, cause := 0 } else u1

def State.loadUnits (s : State) : State :=
  (s.sst.keys 0x03).foldl (fun s k =>
    match s.sst.winner 0x03 k with
    | none => s
    | some r =>
      let u := UnitRec.ofWords r.payload
      if u.atStart k = u then (s.withSst { s.sst with units := KMap.set UnitRec.reset s.sst.units k u }) else s.putUnit k (u.atStart k)) s

/-! ## The rise of PWR_OK (R31, R34, R475, R481, R482) -/

/-- A field whose burn failed senses as an open value (R478; log 7). -/
def State.senseFuses (s : State) : State :=
  if !s.boot.fuseBad then s else
  let (v, s1) := s.draw
  s1.withBoot { s1.boot with vkrev := v.setWidth 2, svn := v.toNat / 4 % 65, fuseBad := false }

/-- Self-checks choose the boot die; a die that fails is fenced; without CD0 and CD3 the package stays silent. -/
def State.selfChecks (s : State) (ok : BitVec 4) : State :=
  let s1 := ((List.range 4).filter fun d => !ok.getLsbD d).foldl (fun s d => s.fenceDie d 5) s
  let s1 := [false, true].foldl (fun s b => s.setLane b (if s.dieUp (laneDie b) then Hl.train else Hl.down)) s1
  let s2 := if ok.getLsbD 0 then s1 else s1.event s1.hub Ev.bootDieAlt 0 (unitOf (Pg.isl 0 34)) 0 0
  if ok.getLsbD 0 || ok.getLsbD 3 then s2
  else
    let s3 := (List.range 24).foldl (fun s p => s.portOff p Lk.off) s2
    ((s3.setLane false Hl.down).setLane true Hl.down).withPlat { s3.plat with silent := true }

/-- PWR_OK and COLD_RST_N are high: the start from power begins. Nothing that was commanded while no island was powered is left. -/
def execPowerUp (i : PowerUpIn) (s : State) : Host.Outcome State Fault Refusal :=
  if s.plat.pwrOk then .next s else
  let s0 := s.unpowered s.host.ranges
  let s1 := ((s0.withPlat { s0.plat with pwrOk := true, coldRstN := true }).senseFuses).readStore i.devA i.devB
  let s2 := ((s1.loadUnits).newChal).pwrStart
  let s3 := s2.selfChecks i.selfOk
  let s4 := ((List.range 32).filter fun k => !i.lpOk.getLsbD k && !s3.unitFenced (lpKey k)).foldl (fun s k => s.fenceLp k 4) s3
  .next ((s4.setFld Pg.dir F.dirStatGen 0).setReg (Pg.hlk + 0x20) 0)

/-! ## READY (R388, R479, R481, R482) -/

/-- The index of a dump whose contents went with the power (R423, R482). -/
def State.loadDump (s : State) : State :=
  match s.rcv.dump, s.sst.winner 0x05 0 with
  | none, some r =>
    let n := (wd r.payload 2).toNat / 8
    let words := (List.range n).map fun i => Config.freeValue (s.free + i)
    let d : Dump := { evseq := (wd r.payload 0).setWidth 32, time := (wd r.payload 1).toNat, free := r.free, stackA := wf r.payload 3 4 0, stackB := wf r.payload 3 12 8,
                      read := (wd r.payload 3).getLsbD 63, words := words }
    (s.withFree (s.free + n)).withRcv { s.rcv with dump := some d }
  | _, _ => s

/-- The watermark shows in SQ.WMARK. -/
def State.loadWmark (s : State) : State :=
  match s.sst.winner 0x07 0 with
  | none => s
  | some r =>
    let s1 := (List.range 256).foldl (fun s q => s.setReg (Pg.sq q + 0x118) (wd r.payload q)) s
    s1.withHost { s1.host with consumed := (List.range 256).foldl (fun m q => KMap.set 0 m q (wd r.payload q)) [] }

/-- The next leaf is the lowest one not reserved (R484). -/
def State.loadLeaf (s : State) : State :=
  let n := match s.sst.winner 0x02 0 with | some r => (wd r.payload 0).toNat | none => 0
  let s1 := (s.setFld Pg.sec F.secStatLeafnext n).withBoot { s.boot with leafRes := n }
  if leafEnd - n < 65536 then (s1.setErr Pg.sec F.secErrStatLeafLow 0).event s1.hub Ev.leafLow 0 (unitOf Pg.sec) (leafEnd - n) 0 else s1

/-- The out-of-service latch (R419, R447). -/
def State.loadOos (s : State) : State :=
  match s.sst.winner 0x08 0 with | some r => s.setReg (Pg.rcv + 0x120) (wd r.payload 0) | none => s

/-- Ports and lane sets that their records hold fenced leave service. -/
def State.dropFenced (s : State) : State :=
  let s1 := ((List.range 24).filter fun p => s.unitFenced (lnkKey p)).foldl (fun s p => s.portOff p Lk.fenced) s
  (([false, true].filter fun b => s1.unitFenced (laneKey b)).foldl (fun s b => s.laneOff b Hl.fenced) s1)

/-- The start from power is over once firmware runs: history in its registers, READY and RUN, the full directory. -/
def execPhaseReady (s : State) : Host.Outcome State Fault Refusal :=
  if !s.plat.pwrOk || decide (s.phase ≠ Ph.firmware) || decide (s.fld Pg.rcv F.rcvStatPhase ≠ 1) || (s.rcv.resets.any fun j => decide (4 ≤ j.dom)) then .next s else
  let s1 := (((s.dropFenced).showMemFences).showHistory).liftLanes
  let s2 := ((((s1.loadDump).loadWmark).loadLeaf).loadOos).loadIdentity
  .next ((s2.enterRun).noteDir s)

/-! ## Bridges (R23) -/

/-- A flit's CRC fails and it is replayed: replays of one flit count up, a new flit starts at one. The sender holds the flit; those
before a new one have been acknowledged. -/
def execBridgeFlitReplay (b : Fin 4) (flit : Nat) (s : State) : Host.Outcome State Fault Refusal :=
  if !s.bridgeUp b then .next s else
  let x := s.bridge b
  .next (s.setBridge b (if x.flit = flit ∧ 0 < x.replays then { x with replays := min 16 (x.replays + 1) } else ⟨flit, 1, false, [flit]⟩))

/-- The 16th replay of one flit fails: the bridge is down, and its traffic takes the other way round the ring (wayOver), over which
its unacknowledged flits are replayed: the sender of each bridge of that way holds them, after its own. The first end in R21's table
records the event, with its IS34 page for UNIT and 2 (BH) or 3 (BV) for DETAIL0: DESIGN CHOICE, log 111. -/
def execBridgeDown (b : Fin 4) (s : State) : Host.Outcome State Fault Refusal :=
  if !s.bridgeUp b || decide ((s.bridge b).replays < 16) then .next s else
  let e := (bridgeEnds b).getD 0 (0, false)
  let flits := (s.bridge b).held
  let s1 := s.setBridge b ⟨0, 0, true, flits⟩
  let other := ((List.range 3).map fun i => (b.val + 1 + i) % 4)
  let s2 := if other.all s1.bridgeUp then
      other.foldl (fun s c => s.setBridge c { s.bridge c with held := (s.bridge c).held ++ flits }) (s1.setBridge b ⟨0, 0, true, []⟩)
    else s1
  .next (s2.event e.1 Ev.bridgeDown 0 (unitOf (Pg.isl e.1 34)) (if e.2 then 3 else 2) 0)

/-! ## Reference clocks (R32) -/

def dieLanes (d : Nat) : List Bool := [false, true].filter fun b => decide (laneDie b = d)

def execRefclkLost (d : Die) (s : State) : Host.Outcome State Fault Refusal :=
  if !s.dieUp d || (s.tb d).free then .next s else
  let s1 := s.setTb d { s.tb d with free := true }
  let s2 := ((List.range 6).map (6 * d.val + ·)).foldl (fun s p => if s.lnk p = Lk.off ∨ s.lnk p = Lk.down ∨ s.lnk p = Lk.fenced then s else s.portDown p) s1
  let s3 := (dieLanes d).foldl (fun s b => if s.lane b = Hl.train then s.laneDown b false (if b then F.hlkErrStatDownB else F.hlkErrStatDownA) else s.laneFails b) s2
  .next (s3.event d Ev.refclkLost 0 (unitOf (Pg.isl d 34)) 0 0)

/-- The neighbour whose counter a die realigns to: along BH, or along BV when that die is out, runs free itself or is not reached
over its bridge; none: no neighbour serves, and the die keeps its own count (log 18). -/
def State.timeNeighbour (s : State) (d : Nat) : Option Nat :=
  [if d % 2 = 0 then d + 1 else d - 1, (d + 2) % 4].find? fun n => s.dieUp n && !(s.tb n).free && (ringWay d n (accessClockwise d n 0)).all s.bridgeUp

def execRefclkReturn (d : Die) (s : State) : Host.Outcome State Fault Refusal :=
  if !s.dieUp d || !(s.tb d).free then .next s else
  let s1 := s.setTb d { ns := (s.tb ((s.timeNeighbour d).getD d)).ns, free := false }
  .next (((List.range 6).map (6 * d.val + ·)).foldl (fun s p => if s.lnk p = Lk.down then s.trainPort p else s) s1)

/-! ## Shutdown (R473) -/

/-- BMSHUT = 1: no more submissions; the watermark is to become durable. -/
def execBmShutdown (v : W16) (s : State) : Host.Outcome State Fault Refusal :=
  if !s.hubUp || decide (v ≠ 1) || s.host.stopped then .next s
  else .next (s.storeWmark.withHost { s.host with stopped := true })

def execBmShutdownDone (s : State) : Host.Outcome State Fault Refusal :=
  if s.host.stopped && s.allDurable then .next (s.withHost { s.host with shutDone := true }) else .next s

/-- BMSTAT (R473). -/
def State.bmstat (s : State) : W16 :=
  BitVec.ofNat 16 (s.phase + (if s.plat.thermtrip then 16 else 0) + (if s.oosLatched then 32 else 0) + (if s.host.shutDone then 64 else 0))

/-- The hottest compute-die sensor, in 1/16 °C: BMTEMP (R473). -/
def State.bmtemp (s : State) : Int :=
  let l := (List.range 4).flatMap fun d => if s.dieUp d then (List.range 35).map fun k => (BitVec.ofNat 16 (s.fld (Pg.isl d k) F.islTempTemp)).toInt else []
  l.tail.foldl max (l.headD 0)

/-- BMPWR (R473). -/
def State.bmpwr (s : State) : W16 := BitVec.ofNat 16 (s.fld Pg.pwr F.pwrEstA1)

end Sys2Proof.Machine
end

