-- ==== Sys2Proof/Machine/RegAccess.lean ====
section
/-! DEFINITION. Reads and writes of registers at their window addresses (R12 to R18, R372, R390, R500): what each register shows, and
which effect a write has. A register with a command of its own is read or written by that command's meaning. -/

namespace Sys2Proof.Machine

/-! ## Which register -/

/-- The state after a meaning. -/
def State.via (s : State) (o : Host.Outcome State Fault Refusal) : State := match o with | .next t => t | _ => s

/-- The state after the meaning of unit i of n. -/
def State.onUnit (s : State) (n i : Nat) (f : Fin n → State → Host.Outcome State Fault Refusal) : State :=
  if h : i < n then s.via (f ⟨i, h⟩ s) else s

/-- The unit of an instance on a die, with n of them a die; update units as R182 numbers them. -/
def unitNo (n k : Nat) : Nat := n * pgDie k + pgInst k
def uuNo (k : Nat) : Nat := if pgInst k < 5 then 5 * pgDie k + pgInst k else 20 + 4 * pgDie k + (pgInst k - 5)

/-- Where a register of one context lies that CTR.SEL, LDG.LSEL, GEN.KSEL or RCV.JOBSEL shows. -/
def State.storeKey (s : State) (k : Nat) : Nat :=
  let p := pageOf k
  let o := pgOff k
  match pgBlk k with
  | 0x0E => if o = 0x110 ∨ 0x200 ≤ o then bank (s.fld p F.ctrSelCtx) k else k
  | 0x21 => if o = 0x138 ∨ o = 0x140 then bank s.jobSel k else k
  | 0x22 => if 0x108 ≤ o then bank s.lsel k else k
  | 0x24 => if o = 0x108 ∨ o = 0x110 then bank (s.fld p F.genKselCtx) k else k
  | _ => k

/-! ## Reads -/

/-- Nominal clock of an island in MHz (R37). -/
def nominal (k : Nat) : Nat := if k < 12 then 940 else if k < 24 then 1250 else if k < 29 then 800 else if k < 33 then 900 else 1000

/-- ISL.CLK (R39, R41): under a warning the mean frequency is an open value from half of nominal up (log 7). -/
def State.islClk (s : State) (d k : Nat) : W64 :=
  let n := nominal k
  let f := if (s.warn d k).isSome then n - (Config.droopClock d k (s.now d)).toNat % (n / 2 + 1) else n
  Bits.make [(31, 16, f), (15, 0, n)]

/-- Commands with chunks on a unit (R246): to run, or in a journal that is not written back. -/
def State.unitCmds (s : State) (u : Nat) : Nat := (s.upd.filter fun k => s.unitHas k u).length

/-- Entry CLSEL of the claim table. -/
def State.shownClaim (s : State) : Option Claim := KMap.get none s.sync.claims (s.fld Pg.syn F.synClselIdx)

def maskOf (n : Nat) (f : Nat → Bool) : Nat := (List.range n).foldl (fun m i => if f i then m + 2 ^ i else m) 0

/-- Unfinished collectives of a context on a courier (R359). -/
def State.openColls (s : State) (d ctx : Nat) : List Coll := s.cr.colls.filter fun k => decide (k.die = d ∧ k.ctx = ctx ∧ wf k.words 0 47 44 ≠ 1)

def State.crrLep (s : State) (d : Nat) : W64 :=
  let l := s.openColls d (s.fld (Pg.crr d) F.crrLselCtx)
  Bits.make [(63, 48, (l.map fun k => wf k.words 1 63 48).foldl (fun n e => match n with | none => some e | some m => some (min m e)) none |>.getD 0), (15, 0, l.length)]

def creditWord (x : Port) (lo : Nat) : W64 := Bits.make ((List.range 4).map fun i => (16 * i + 15, 16 * i, ((x.credit (lo + i)) % 65536).toNat))

/-- What a block's register shows that follows from other state; v is what the register itself holds. -/
def State.viewBlk (s : State) (k : Nat) (v : W64) : W64 :=
  let d := pgDie k
  let i := pgInst k
  let o := pgOff k
  match pgBlk k with
  | 0x00 => if o = 0x18 then Bits.put v 42 32 s.directory.length
    else if 0x100 ≤ o then (match s.directory[(o - 0x100) / 8]? with | some p => dirEntry p | none => 0) else v
  | 0x02 => if o = 0x100 then s.islClk d i else if o = 0x118 then (if i = 34 then BitVec.ofNat 64 (s.now d) else 0) else v
  | 0x04 => if o = 0x18 then BitVec.ofNat 64 (s.outstanding (unitNo 64 k)) else v
  | 0x05 => if o = 0x100 then s.atnTop else if 0x300 ≤ o then s.atnRaised ((o - 0x300) / 8) else if 0x200 ≤ o then s.atnCtx ((o - 0x200) / 8) else v
  | 0x06 => if o = 0x18 then Bits.putBit v 16 (s.bitF Pg.pwr F.pwrWcfgCal) else v
  | 0x0A => if o = 0x18 then Bits.put v 12 8 (min 16 (s.vxeQueue (unitNo 24 k)).length) else v
  | 0x0B => if o = 0x18 then Bits.make [(16, 16, if s.cluIdle (unitNo 12 k) then 1 else 0), (8, 0, (s.clu (unitNo 12 k)).ring.length)] else v
  | 0x0E => if o = 0x128 then s.ctrDigest d else v
  | 0x10 => if o = 0x100 then Bits.make [(63, 32, maskOf 32 fun j => s.unitUp (20 + j)), (19, 0, maskOf 20 s.unitUp)]
    else if 0x200 ≤ o ∧ o < 0xA00 ∧ o % 32 = 16 then Bits.putBit v 49 (v.getLsbD 63 && s.degraded ((o - 0x210) / 32)) else v
  | 0x14 => if o = 0x18 then Bits.put (Bits.put (if Bits.get v 3 0 = 0 && decide (s.unitCmds (uuNo k) ≠ 0) then Bits.put v 3 0 1 else v) 39 32 (s.partnerOf (uuNo k))) 15 8 (s.unitCmds (uuNo k)) else v
  | 0x15 => if d ≠ s.hub then 0 else if o = 0x18 then
      Bits.make [(23, 16, (s.upd.filter (·.running)).length), (8, 0, (s.upd.filter fun x => !x.running).length)] else v
  | 0x16 => if o = 0x1A0 then Bits.make [(14, 8, s.stg.taints.length), (6, 0, s.stg.flight.length)] else v
  | 0x18 => if o = 0x18 then Bits.put v 8 0 s.claims.length
    else if o = 0x118 then (match s.shownClaim with
      | some c => Bits.make [(63, 63, 1), (62, 62, if c.lost then 1 else 0), (55, 48, c.ctx), (47, 0, c.base)] | none => 0)
    else if o = 0x120 then (match s.shownClaim with | some c => BitVec.ofNat 64 c.len | none => 0) else v
  | 0x1A => if o = 0x118 then creditWord (s.port (unitNo 6 k)) 0 else if o = 0x120 then creditWord (s.port (unitNo 6 k)) 4 else v
  | 0x1B => if o = 0x120 then BitVec.ofNat 64 s.since
    else if o = 0x148 then s.entry (s.fld Pg.rte F.rteTselVer) (s.fld Pg.rte F.rteTselDst) else v
  | 0x1C => if o = 0x100 then Config.uid else if 0x200 ≤ o ∧ o < 0x300 then Bits.put v 15 0 (s.peerAge ((o - 0x200) / 8)) else v
  | 0x1E => if o = 0x18 then
      let busy := s.cr.colls.any fun c => decide (c.die = d) && c.running
      Bits.put (Bits.put (Bits.put (if Bits.get v 3 0 = 0 && busy then Bits.put v 3 0 1 else v) 47 32 (s.intakeKept d / 1024)) 23 16 (s.cr.groups.filter fun g => decide (g.die = d)).length) 11 8
        (s.cr.colls.filter fun c => decide (c.die = d) && c.running).length
    else if o = 0x118 then s.crrLep d else v
  | 0x20 => if 0x108 ≤ o ∧ o < 0x128 then
      (if s.fld (Pg.evl d) F.evlPtrRd = s.fld (Pg.evl d) F.evlPtrWr then 0 else wd (KMap.get [] s.events (d * 1024 + s.fld (Pg.evl d) F.evlPtrRd % 1024)) ((o - 0x108) / 8))
    else v
  | 0x21 => if o = 0x158 then Bits.put v 63 32 (match s.rcv.dump with | some x => 8 * x.words.length | none => 0) else v
  | 0x22 => if o = 0x18 then BitVec.ofNat 64 s.ldg.seals.length else if o = 0x128 && !s.ldgMirrorOn s.lsel then BitVec.ofNat 64 (s.ldgLast s.lsel) else v
  | 0x23 => if o = 0x18 then Bits.putBit (Bits.putBit v 1 (s.sst.b.ok && s.dieUp 3)) 0 (s.sst.a.ok && s.dieUp 0)
    else if o = 0x108 then Bits.put v 63 32 (s.sst.live.foldl (fun n r => n + r.size) 0) else v
  | 0x26 => if o = 0x18 then Bits.put (Bits.put (Bits.put v 47 40 s.boot.svn) 39 38 s.boot.lifecycle) 37 36 s.boot.vkrev.toNat else v
  | _ => v

/-- What a register of a page shows; wp is the window page that answers. -/
def State.view (s : State) (wp k : Nat) : W64 :=
  let o := pgOff k
  if o = 0x00 then pageId wp else if o = 0x08 then pageCaps wp else if o = 0x40 then s.atnView (pageOf k)
  else s.viewBlk k (s.reg (s.storeKey k))

/-- Whether a row has counts that a read clears. -/
def rcOf (k : Nat) : W64 := match rowOf k with | some r => BitVec.ofNat 64 r.rc | none => 0

/-- A read with an effect of its own: through the command that reads the register. -/
def State.readSpecial (s : State) (k : Nat) : Option State :=
  let d := pgDie k
  let o := pgOff k
  match pgBlk k with
  | 0x02 => if o = 0x108 then some (s.onUnit 4 d fun d s => .next (s.onUnit 35 (pgInst k) fun i => execIslStretchRead d i)) else none
  | 0x08 => if o = 0x108 then some (s.onUnit 192 (unitNo 48 k) execMxePerfRead) else none
  | 0x0A => if o = 0x100 then some (s.onUnit 96 (unitNo 24 k) execVxePerfRead) else none
  | 0x0E => if 0x200 ≤ o then some (s.onUnit 4 d fun d s => .next (s.onUnit 48 ((o - 0x200) / 8) fun i => execCtrEvtRead d i)) else none
  | 0x11 => if 0x500 ≤ o then some (s.onUnit 4 d fun d s => .next (s.onUnit 64 ((o - 0x500) / 8) fun i => execTollHeldRead d i)) else none
  | 0x1A => if o = 0x138 then some (s.onUnit 24 (unitNo 6 k) fun p => execLnkCounterRead p 2) else none
  | 0x21 => if o = 0x160 then some (s.via (execDumpRead s)) else none
  | 0x23 => if o = 0x118 then some (s.via (execSstRdataRead s)) else none
  | 0x26 => if o = 0x158 then some (s.via (execSecRdataRead s)) else none
  | _ => none

/-- A read of a register: the value, and the state with its read counts cleared (R15, R18). -/
def State.readReg (s : State) (wp k : Nat) : W64 × State :=
  match (if (rowOf k).isNone then none else s.readSpecial k) with
  | some t => (t.rdData, t)
  | none =>
    let v := s.view wp k
    let kk := s.storeKey k
    let s1 := if rcOf k = 0 then s else s.setReg kk (s.reg kk &&& ~~~rcOf k)
    let s2 := if pgBlk k = 0x02 ∧ pgOff k = 0x100 ∧ (s.warn (pgDie k) (pgInst k)).isSome then (s1.withFree (s1.free + 1)) else s1
    (v, s2.out v)

/-! ## Writes -/

/-- A field of data as it is stored after a clamp. -/
def clampFld (data : W64) (f : Fld) (lo hi : Nat) : W64 := Bits.put data f.hi f.lo (clampNat lo hi (f.of data))

/-- A temperature in 1/16 °C, clamped as a signed number. -/
def clampTemp (data : W64) (f : Fld) (lo hi : Int) : W64 :=
  Bits.put data f.hi f.lo (BitVec.ofInt 16 (max lo (min hi (BitVec.ofNat 16 (f.of data)).toInt))).toNat

/-- A write that VALID of the object locks (R500). -/
def State.writeWhile (s : State) (valid : Bool) (k : Nat) (data : W64) : State :=
  if valid then s.lockedWrite k (BitVec.allOnes 64 &&& (match rowOf k with | some r => BitVec.ofNat 64 r.rw | none => 0)) data else s.plainWrite k data

/-- The meaning of an action bit that is written 1; bits of one write act from the lowest up (log 50). -/
def State.ifBit (s : State) (data : W64) (n : Nat) (f : State → Host.Outcome State Fault Refusal) : State := if data.getLsbD n then s.via (f s) else s

/-- CTRL of an engine with FENCE, READMIT and SELFTEST in [15:13]. -/
def State.writeEngine (s : State) (n i : Nat) (data : W64) (test readmit fence : Fin n → State → Host.Outcome State Fault Refusal) : State :=
  if h : i < n then ((s.ifBit data 13 (test ⟨i, h⟩)).ifBit data 14 (readmit ⟨i, h⟩)).ifBit data 15 (fence ⟨i, h⟩) else s

/-- A cap in [5:0], in 32nds: 0 stores 1, above 32 stores 32. -/
def State.writeCap (s : State) (page : Nat) (data : W64) : State := s.setFld page F.mxeCtrlIssueCap (clampNat 1 32 (Bits.get data 5 0))

/-- The resets of RCV.RESET (R429). -/
def State.writeReset (s : State) (data : W64) : State :=
  let d := Bits.get data 57 56
  let b := Bits.get data 53 48
  let i := Bits.get data 45 40
  let bad := s.badSeq Pg.rcv
  let eng : State := match b with
    | 0x08 => if i < 48 then s.onUnit 192 (48 * d + i) (fun e => execResetEngine (.mxe e)) else bad
    | 0x0A => if i < 24 then s.onUnit 96 (24 * d + i) (fun v => execResetEngine (.vxe v)) else bad
    | 0x14 => if i < 9 then s.onUnit 36 (uuNo (pg d 0x14 i)) (fun u => execResetEngine (.update u)) else bad
    | 0x1E => if i = 0 then s.onUnit 4 d (fun c => execResetEngine (.courier c)) else bad
    | _ => bad
  if !data.getLsbD 0 then s else
  match Bits.get data 63 61 with
  | 1 => eng
  | 2 => if b = 0x0B ∧ i < 12 then s.onUnit 48 (12 * d + i) execResetCluster else bad
  | 3 => s.onUnit 4 d fun x => execResetDieFunction x ⟨0, [], 0, 0, 0⟩
  | 4 => s.via (execResetWarm ⟨0, [], 0, 0, 0⟩ s)
  | 5 => s.via (execResetCold ⟨0, [], 0, 0, 0⟩ s)
  | 6 => s.onUnit 4 d execDieFence
  | _ => bad

/-- A write of EVL.PTR.RD: above WR, or below WR − 1,024, the nearer bound (R428). -/
def State.writeEvlRd (s : State) (d : Nat) (data : W64) : State :=
  let wr := s.fld (Pg.evl d) F.evlPtrWr
  let back := (2 ^ 32 + wr - Bits.get data 31 0) % 2 ^ 32
  let b := if back ≤ 1024 then back else if back < 2 ^ 31 then 1024 else 0
  s.setFld (Pg.evl d) F.evlPtrRd ((2 ^ 32 + wr - b) % 2 ^ 32)

/-- A write of CLU.CORE: each bit of RUN starts or stops its core (R163). -/
def State.writeCore (s : State) (c : Nat) (data : W64) : State :=
  (List.range 7).foldl (fun s k => s.onUnit 48 c fun c s => .next (s.onUnit 7 k fun k => if data.getLsbD k then execCoreRun c k else execCoreStop c k)) s

/-- A write of a block's register at offset o ≥ 0x100, or of CTRL. -/
def State.writeBlk (s : State) (k : Nat) (data : W64) : State :=
  let d := pgDie k
  let i := pgInst k
  let o := pgOff k
  let p := pageOf k
  let plain := s.plainWrite (s.storeKey k) data
  match pgBlk k with
  | 0x01 =>
    if o = 0x10 then ((((s.ifBit data 1 (execHlkRetrain false)).ifBit data 2 (execHlkRetrain true)).ifBit data 3 execHlkSwap).ifBit data 4 (execHlkFence false)).ifBit data 5 (execHlkFence true)
    else if o = 0x100 then s.plainWrite k (clampFld data F.hlkCfgCring 1 65536) else plain
  | 0x04 =>
    let q := unitNo 64 k
    if o = 0x100 then s.onUnit 256 q fun q => execSqCfgWrite q data else if o = 0x108 then s.writeWhile (s.sqValid q) k data else plain
  | 0x06 =>
    if o = 0x100 then s.plainWrite k (clampFld (clampFld (clampFld data F.pwrLimitPeak 1000 2000) F.pwrLimitSust 500 1600) F.pwrLimitGuard 10 200)
    else if 0x240 ≤ o ∧ o < 0x280 then s
    else if o = 0x308 then s.plainWrite k (clampTemp data F.pwrTjThr 1360 1680) else plain
  | 0x07 => if o = 0x110 then s.plainWrite k (clampFld data F.drpCfgHold 100 10000) else plain
  | 0x08 => if o = 0x10 then (s.writeCap p data).writeEngine 192 (unitNo 48 k) data execMxeSelftest execMxeReadmit execMxeFence else plain
  | 0x0A => if o = 0x10 then s.writeEngine 96 (unitNo 24 k) data execVxeSelftest execVxeReadmit execVxeFence else plain
  | 0x0B =>
    if o = 0x100 then s.onUnit 48 (unitNo 12 k) fun c => execCluCtxWrite c data else if o = 0x108 then s.writeCore (unitNo 12 k) data else plain
  | 0x0C => if o = 0x100 then s.plainWrite k (data &&& ~~~Bits.mask 7 0) else plain
  | 0x0D =>
    if o = 0x100 then s.histOp d (Bits.get data 7 0) (Bits.get data 9 8) (64 * Bits.get data 63 22)
    else if 0x200 ≤ o then s.onUnit 4 d fun d => execHstOwnWrite d (BitVec.ofNat 8 ((o - 0x200) / 8)) data else plain
  | 0x0E =>
    if o = 0x108 then s.ifBit data 0 (fun s => .next (s.onUnit 4 d execCtrClear)) else if o = 0x120 then s.onUnit 4 d fun d => execCtrAdd d data else plain
  | 0x10 =>
    if 0x200 ≤ o ∧ o < 0xA00 then
      (let r := (o - 0x200) / 32
       if o % 32 = 16 then s.rgnWrite r data else s.writeWhile (s.bitF (Pg.map + 32 * r) F.mapRgnCfgValid) k data)
    else plain
  | 0x11 => if 0x100 ≤ o ∧ o < 0x300 then s.onUnit 4 d fun d s => .next (s.onUnit 64 ((o - 0x100) / 8) fun b => execTollBktWrite d b data) else plain
  | 0x12 =>
    if o = 0x108 then s.plainWrite k (clampTemp data F.mscThrThresh 1280 1680)
    else if o = 0x118 then s.onUnit 20 (unitNo 5 k) fun m => execMscFenceWrite m (data.setWidth 32) else plain
  | 0x13 => if o = 0x118 then s.onUnit 16 (unitNo 4 k) fun m => execLpcFenceWrite m (data.setWidth 2) else plain
  | 0x14 => if o = 0x10 then (s.writeCap p data).writeEngine 36 (uuNo k) data execUuSelftest execUuReadmit execUuFence else plain
  | 0x16 =>
    if 0x100 ≤ o ∧ o < 0x180 then s.onUnit 16 ((o - 0x100) / 8) fun i => execStgStageWrite i data
    else if o = 0x190 then
      (match Bits.get data 17 16 with
       | 1 => s.via (execVcmdActivate (data.setWidth 16) s) | 2 => s.via (execVcmdRetire (data.setWidth 16) s)
       | _ => if s.bitF Pg.stg F.stgVstatBusy then s.badSeq Pg.stg else s)
    else if o = 0x1A8 then s.via (execStgTclr (data.setWidth 8) s)
    else if 0x200 ≤ o then s.plainWrite k (clampFld data ⟨0, 6, 0⟩ 0 96) else plain
  | 0x17 =>
    if 0x100 ≤ o ∧ o < 0x500 ∧ o % 16 = 0 then s.onUnit 4 d fun d s => .next (s.onUnit 64 ((o - 0x100) / 16) fun q => execSlqIncfgWrite d q data)
    else if 0x500 ≤ o ∧ o < 0x900 ∧ o % 16 = 0 then s.onUnit 4 d fun d s => .next (s.onUnit 64 ((o - 0x500) / 16) fun j => execSlqOutcfgWrite d j data)
    else plain
  | 0x18 => if o = 0x100 then s.synLose (data.getLsbD 8) (Bits.get data 7 0) else plain
  | 0x19 =>
    if o = 0x100 then
      (if data.getLsbD 63 then s.onUnit 64 i fun b => execBarArm b data
       else if s.bitF p F.barCfgValid then s.onUnit 64 i execBarDisarm else plain)
    else if 0x108 ≤ o ∧ o < 0x138 then s.writeWhile (s.bitF p F.barCfgValid) k data else plain
  | 0x1A =>
    let n := unitNo 6 k
    if h : n < 24 then
      if o = 0x10 then
        let s1 := s.via (execLnkEnWrite ⟨n, h⟩ (data.getLsbD 0) s)
        ((((s1.ifBit data 11 (execLnkPark ⟨n, h⟩)).ifBit data 12 (execLnkAdmit ⟨n, h⟩)).ifBit data 13 (execLnkRetrain ⟨n, h⟩)).ifBit data 14 (execLnkReadmit ⟨n, h⟩)).ifBit data 15 (execLnkFence ⟨n, h⟩)
      else if o = 0x108 ∨ o = 0x110 then s.via (execLnkVcallocWrite ⟨n, h⟩ (decide (o = 0x110)) data s)
      else plain
    else s
  | 0x1B =>
    if o = 0x100 then s.via (execRteCfgWrite data s) else if o = 0x108 then s.via (execRteTimersWrite data s)
    else if o = 0x110 then s.ifBit data 0 (execRteLoad data) else if o = 0x118 then s.ifBit data 0 execRteFlip else plain
  | 0x1C =>
    if o = 0x108 then s.via (execDscFabricWrite data s) else if o = 0x110 then s.via (execDscIdWrite data s)
    else if 0x400 ≤ o then s.onUnit 24 ((o - 0x400) / 8) fun p => execDscExpWrite p data else plain
  | 0x1D =>
    if 0x200 ≤ o then
      (let r := (o - 0x200) / 32
       let valid := (s.reg (p + 0x200 + 32 * r)).getLsbD 63
       if o % 32 = 0 && valid && !data.getLsbD 63 then s.setReg k (Bits.putBit (s.reg k) 63 false) else s.writeWhile valid k data)
    else plain
  | 0x1E =>
    if o = 0x10 then s.writeEngine 4 d data execCrrSelftest execCrrReadmit execCrrFence
    else if o = 0x100 then s.plainWrite k (clampFld data F.crrCfgRetry 1 255) else plain
  | 0x20 => if o = 0x100 then s.writeEvlRd d data else plain
  | 0x21 =>
    if o = 0x108 then s.ifBit data 8 (execRcvAbort (data.setWidth 8) (data.getLsbD 9))
    else if o = 0x118 then s.writeReset data
    else if o = 0x128 then s.via (execRcvOosack (data.setWidth 32) s)
    else if o = 0x138 then s.via (execRcvJobidWrite data s)
    else if o = 0x148 ∨ o = 0x150 then s.via (execRcvWdlimWrite (decide (o = 0x150)) data [] s)
    else if o = 0x158 then s.plainWrite k (data &&& ~~~Bits.mask 2 0) else plain
  | 0x22 =>
    if o = 0x108 ∨ o = 0x118 ∨ o = 0x120 then s.writeRing o data
    else if o = 0x110 then s.via (execLdgGeomWrite data s)
    else if o = 0x130 ∨ o = 0x148 then s.via (execLdgCkWrite (decide (o = 0x148)) data s)
    else if o = 0x138 then
      (match Bits.get data 1 0 with
       | 1 => s.via (execCkmarkStart s) | 2 => s.via (execCkmarkEnd s) | 3 => s.via (execCkmarkEmpty s) | _ => s)
    else plain
  | 0x23 => if o = 0x110 then s.via (execSstRselWrite data s) else plain
  | 0x25 =>
    if o = 0x100 then (s.ifBit data 0 execBootLoadBegin).ifBit data 1 execBootLoadEnd else if o = 0x108 then s.via (execBootLoaddata data s) else plain
  | 0x26 =>
    if 0x100 ≤ o ∧ o < 0x140 then s.writeWhile (s.bitF Pg.sec F.secAstatBusy) k data
    else if o = 0x140 then s.ifBit data 0 execAttestGo
    else if o = 0x150 then s.via (execSecRselWrite s)
    else if o = 0x160 then
      (match Bits.get data 63 62 with
       | 1 => s.via (execFuseRaiseSvn (data.setWidth 8) s) | 2 => s.via (execFuseRevoke (data.setWidth 8) s) | _ => s.badSeq Pg.sec)
    else plain
  | 0x27 =>
    if o = 0x100 then (if data.getLsbD 63 then s.onUnit 4 d fun d => execTestEnter d (data.setWidth 4) else plain)
    else if o = 0x108 then s.plainWrite k (clampFld data F.tstCfgBrMs 1 1000)
    else if o = 0x130 then s.tokenBytes d (wordBytes data) else plain
  | _ => plain

/-- A write of a register (R15, R16, R390): the common header, or the block's register. -/
def State.writeReg (s : State) (k : Nat) (data : W64) : State :=
  if (rowOf k).isNone then s else
  match pgOff k with
  | 0x20 => s.plainWrite k data
  | 0x28 => s.plainWrite k data
  | 0x30 => s.injectErr (pageOf k) data
  | 0x38 => s.writeEvtSel (pageOf k) data
  | 0x40 => s.plainWrite k data
  | _ => s.writeBlk k data

/-- Whether the page's die answers a register access of a die now: it is not in a die-function reset, and the access reaches it over the
bridges; pages of the fast blocks always answer (R22, R392, R416; log 111). -/
def State.pageUp (s : State) (src k : Nat) : Bool :=
  fastBlk (pgBlk k) || movesBlk (pgBlk k) || !s.plat.dieReset.getLsbD (pgDie k) && (s.accessWay src (pgDie k) k).isSome

/-- The die of the host's lane set, from which its register accesses go: the ACTIVE set's. -/
def State.hostDie (s : State) : Nat := if s.lane false = Hl.active then 0 else if s.lane true = Hl.active then 3 else s.hub

/-- One register access of 2^size bytes at an address, of a die (R13, R372): the refused sizes, alignments and addresses have no effect
and a status; one whose page's die does not answer ends without effect by REG_TIMEOUT (R373). -/
def State.access (s : State) (src addr size : Nat) (f : Nat → State → State) : State :=
  if size ≠ 3 ∨ addr % 8 ≠ 0 then s.withRegStatus St.regSize
  else match s.canon addr with
    | none => s.withRegStatus St.addrUnmapped
    | some k => if s.pageUp src k then (f k s).withRegStatus St.ok else s.withRegStatus St.regTimeout

/-- REG_WRITE: one write of the host. -/
def execRegWrite (addr : BitVec 26) (size : BitVec 2) (data : W64) (s : State) : Host.Outcome State Fault Refusal :=
  if !s.plat.pwrOk then .next s else .next (s.access s.hostDie addr.toNat size.toNat fun k s => s.writeReg k data)

end Sys2Proof.Machine
end

