-- ==== Sys2Proof/Machine/Cores.lean ====
section
/-! DEFINITION. The base instructions of the Sceirauri core ISA (R156 to R158): integer ALU, load, store, branch, jump, floating point
and system instructions. Stewards and ostlers, couriers and update-unit prologue cores execute them. -/

namespace Sys2Proof.Machine

/-! ## Integer ALU (R156) -/

/-- The result of an ALU function and the state; a shift by 64 or more is an open value (log 7). -/
def State.alu (s : State) (fn : AluFn) (a b : W64) : W64 × State :=
  match fn with
  | .add => (a + b, s)
  | .sub => (a - b, s)
  | .mul => (a * b, s)
  | .and => (a &&& b, s)
  | .or => (a ||| b, s)
  | .xor => (a ^^^ b, s)
  | .shl => if b.toNat < 64 then (a <<< b.toNat, s) else s.draw
  | .shr => if b.toNat < 64 then (a >>> b.toNat, s) else s.draw
  | .other f => (Config.aluOther f a b, s)

def execIntAlu (c : Issued) (fn : AluFn) (rd rs1 : Gpr) (src : AluSrc) (s : State) : Host.Outcome State Fault Refusal :=
  if !s.coreRuns c.core then .next s
  else if badOpc c.core c.opc then .next (s.illegal c.core) else
  let r := s.alu fn (s.g c.core rs1) (s.src2 c.core src)
  .next (r.2.ret c.core rd r.1)

/-! ## Loads and stores (R158, R189, R209, R214) -/

/-- A package address of this package as a local address; another device's memory is reached by remote operations only (log 24). -/
def State.localOf (s : State) (a : W64) : Option Nat := if a.toNat / 2 ^ 48 = s.dev then some (a.toNat % 2 ^ 48) else none

/-- Whether an access of a core waits: the die that holds the address is in a reset (R416), or no bridge leads to it (R22, R23; log 111). -/
def State.dieAway (s : State) (c l : Nat) : Bool :=
  match s.place l with
  | some p => decide (p ≠ .window) && (s.plat.dieReset.getLsbD p.die || !s.plat.dieFenced.getLsbD p.die && (s.accessWay (slotDie c) p.die l).isNone)
  | none => false

/-- A load of 2^width bytes from a local address; a failed access returns nothing (log 24); a held bucket keeps the core waiting (R206). -/
def State.loadInsn (s : State) (c rd l n : Nat) (err : ArrayErr) : State :=
  let ctx := s.coreCtx c
  if s.memCheck ctx l n ≠ St.ok then s.nextPc c
  else if s.place l = some .window then
    let w := l - 0xFF0000000000
    match s.canon w with
    | some k => if n = 8 ∧ w % 8 = 0 ∧ s.pageUp (slotDie c) k = true then let r := s.readReg (pageOf w) k; (r.2.withRdData s.rdData).ret c rd r.1 else s.nextPc c
    | none => s.nextPc c
  else if s.gateShut (slotDie c) (s.partOf ctx) l n false then s
  else
    let s1 := (s.charge (slotDie c) (s.partOf ctx) l n false).arrayErr l err
    let s2 := s1.ret c rd (BitVec.ofNat 64 (s1.loadNat l n))
    if s1.loadPoison l n then s2.consume (slotDie c) ctx 0 (BitVec.ofNat 64 l) else s2

def execLoad (c : Issued) (sp : Space) (width : Fin 4) (rd rs1 : Gpr) (imm : BitVec 15) (err : ArrayErr) (s : State) : Host.Outcome State Fault Refusal :=
  if !s.coreRuns c.core then .next s
  else if badOpc c.core c.opc then .next (s.illegal c.core) else
  let a := s.g c.core rs1 + imm.signExtend 64
  let n := 2 ^ width.val
  match sp with
  | .scratch => .next (s.ret c.core rd (BitVec.ofNat 64 (s.scratchNat c.core a.toNat n)))
  | .addr =>
    match s.localOf a with
    | none => .next (s.nextPc c.core)
    | some l => if s.dieAway c.core l then .next s else .next (s.loadInsn c.core rd l n err)

/-- A store of the low 2^width bytes of a register. A store that does not cover its SRAM word, or its line of stack or LPDDR memory, reads
it first, and meets an error of the array as a read would (R199, R209, R398). -/
def State.storeInsn (s : State) (c l n : Nat) (v : W64) (err : ArrayErr) : State :=
  let ctx := s.coreCtx c
  if s.memCheckW ctx l n ≠ St.ok then s.nextPc c
  else if s.place l = some .window then
    let w := l - 0xFF0000000000
    match s.canon w with
    | some k => if n = 8 ∧ w % 8 = 0 ∧ s.pageUp (slotDie c) k = true then ((s.writeReg k v).withRdData s.rdData).nextPc c else s.nextPc c
    | none => s.nextPc c
  else if s.gateShut (slotDie c) (s.partOf ctx) l n true then s
  else
    let s1 := (s.charge (slotDie c) (s.partOf ctx) l n true).arrayErr l (match s.place l, n with | some (.unit _ _ _), _ => err | _, 8 => .none | _, _ => err)
    ((s1.storeNat l n v.toNat).wakeRange l n).nextPc c

def execStore (c : Issued) (sp : Space) (width : Fin 4) (rs rs1 : Gpr) (imm : BitVec 15) (err : ArrayErr) (s : State) : Host.Outcome State Fault Refusal :=
  if !s.coreRuns c.core then .next s
  else if badOpc c.core c.opc then .next (s.illegal c.core) else
  let a := s.g c.core rs1 + imm.signExtend 64
  let n := 2 ^ width.val
  match sp with
  | .scratch => .next ((s.setScratchBytes c.core a.toNat (natBytes n (s.g c.core rs).toNat)).nextPc c.core)
  | .addr =>
    match s.localOf a with
    | none => .next (s.nextPc c.core)
    | some l => if s.dieAway c.core l then .next s else .next (s.storeInsn c.core l n (s.g c.core rs) err)

/-! ## Branches and jumps (R156, R157; log 16) -/

/-- Whether a compare holds: where the signs differ the manual does not say which reading of the operands lt and ge take, so the
answer is an open bit (log 7). -/
def State.compare (s : State) (cond : Cond) (a b : W64) : Bool × State :=
  match cond with
  | .eq => (decide (a = b), s)
  | .ne => (decide (a ≠ b), s)
  | .lt => if a.getLsbD 63 = b.getLsbD 63 then (decide (a.toNat < b.toNat), s) else (s.draw.1.getLsbD 0, s.draw.2)
  | .ge => if a.getLsbD 63 = b.getLsbD 63 then (decide (b.toNat ≤ a.toNat), s) else (s.draw.1.getLsbD 0, s.draw.2)

def execCompareBranch (c : Issued) (cond : Cond) (rs1 rs2 : Gpr) (off : BitVec 15) (s : State) : Host.Outcome State Fault Refusal :=
  if !s.coreRuns c.core then .next s
  else if badOpc c.core c.opc then .next (s.illegal c.core) else
  let r := s.compare cond (s.g c.core rs1) (s.g c.core rs2)
  if r.1 then .next (r.2.setPc c.core ((r.2.core c.core).pc + Config.branchBase + 4 * off.signExtend 64)) else .next (r.2.nextPc c.core)

/-- RD holds the address of the next instruction; the jump goes to RS1 + IMM (PRESUMED, log 52). -/
def execJumpAndLink (c : Issued) (rd rs1 : Gpr) (imm : BitVec 15) (s : State) : Host.Outcome State Fault Refusal :=
  if !s.coreRuns c.core then .next s
  else if badOpc c.core c.opc then .next (s.illegal c.core) else
  let t := s.g c.core rs1 + imm.signExtend 64
  .next ((s.setG c.core rd ((s.core c.core).pc + 4)).setPc c.core t)

/-! ## Floating point (R56, R70, R156) -/

/-- The result of a function; FP32 codes lie in the low half of a register (log 7). -/
def fpResult (fn : FpFn) (dbl : Bool) (a b : W64) : W64 :=
  let out := fun (r : FpR) => if dbl then BitVec.ofNat 64 r.code else reg32 r.code
  let x := fpIn dbl a
  let y := fpIn dbl b
  match fn with
  | .add => out (fpAdd (fpW dbl) x y)
  | .sub => out (fpSub (fpW dbl) x y)
  | .mul => out (fpMul (fpW dbl) x y)
  | .div => out (fpDiv (fpW dbl) x y)
  | .sqrt => out (fpSqrt (fpW dbl) x)
  | .toFp64 => BitVec.ofNat 64 (to64 (fp32v (lo32 a)))
  | .toFp32 => reg32 (FpR.of fp32F (fp64v a.toNat)).code
  | .other f => Config.fpOther f dbl a b

/-- OPC 0x06 lies outside the profile of couriers (R158). -/
def execFpOp (c : CoreNo) (fn : FpFn) (dbl : Bool) (rd rs1 rs2 : Gpr) (s : State) : Host.Outcome State Fault Refusal :=
  if !s.coreRuns c then .next s
  else if 336 ≤ c.val ∧ c.val < 340 then .next (s.illegal c)
  else .next (s.ret c rd (fpResult fn dbl (s.g c rs1) (s.g c rs2)))

/-! ## System instructions (R157, R163, R177, R279, R290, R430) -/

/-- A read of a system register; a number the manual does not name, or one that the core does not have, reads an open value (log 7). -/
def State.csrRead (s : State) (c : Nat) (r : Csr) : W64 × State :=
  match r with
  | .slotNo => (BitVec.ofNat 64 c, s)
  | .synctmo => ((s.core c).tmo.setWidth 64, s)
  | .gstep => if c < 48 then (s.reg (genStepKey c), s) else s.draw
  | .hsnap => if 48 ≤ c ∧ c < 336 then (0, s) else s.draw
  | .barrive => s.draw
  | .other _ => s.draw

/-- A write of a system register; a number that the core does not have takes none. -/
def State.csrWrite (s : State) (c : Nat) (r : Csr) (v : W64) : State :=
  match r with
  | .synctmo => s.setCore c { s.core c with tmo := v.setWidth 32 }
  | .gstep => if c < 48 then s.setReg (genStepKey c) v else s
  | .hsnap => if 48 ≤ c ∧ c < 336 then s.hsnap c v else s
  | .barrive => if 340 ≤ c then (s.agentArrive (v.toNat % 64) c (s.coreCtx c)).2 else s
  | _ => s

/-- A fence orders accesses, which take effect in order in this model: only the pc moves (R191). -/
def execSystemOp (c : Issued) (fn : SysFn) (s : State) : Host.Outcome State Fault Refusal :=
  if !s.coreRuns c.core then .next s
  else if badOpc c.core c.opc then .next (s.illegal c.core) else
  match fn with
  | .read rd r => let x := s.csrRead c.core r; .next (x.2.ret c.core rd x.1)
  | .write r rs1 => .next ((s.csrWrite c.core r (s.g c.core rs1)).nextPc c.core)
  | .fence => .next (s.nextPc c.core)

end Sys2Proof.Machine
end

