-- ==== Sys2Proof/Machine/HostLink.lean ====
section
/-! DEFINITION. Request and reply frames (R368 to R377), register operations of the host (R372 to R374), submission, acceptance, and
completion records (R379 to R388). -/

namespace Sys2Proof.Machine

/-! ## Completion credit (R384, R387) -/

def State.setHost (s : State) (h : HostLink) : State := s.withHost h
def State.csent (s : State) : W64 := s.reg (Pg.hlk + 0x110)

/-- The watermark's W of a queue as its records are consumed; a record of range form leaves it. -/
def consumeRec (m : KMap W64) (r : List W64) : KMap W64 :=
  if (wd r 1).getLsbD 62 then m else let q := wf r 1 7 0; if KMap.get 0 m q < wd r 0 then KMap.set 0 m q (wd r 0) else m

/-- CCONS of a request frame: beyond CSENT it is ignored; a count below the last one frees nothing (log 54). -/
def State.takeCcons (s : State) (n : W64) : State :=
  if s.csent < n then s.setErr Pg.hlk F.hlkErrStatCredit 0
  else if n ≤ s.host.ccons then s
  else
    let k := (n - s.host.ccons).toNat
    s.setHost { s.host with ccons := n, sent := s.host.sent.drop k, consumed := (s.host.sent.take k).foldl consumeRec s.host.consumed }

/-! ## Submission (R379, R380) -/

/-- The queue does not take the command now: no echo follows (R419, R421, R473, R479). -/
def State.noSubmit (s : State) : Bool := decide (s.phase ≠ Ph.ready ∨ s.fld Pg.rcv F.rcvStatPhase ≠ 0) || s.host.stopped

def State.sqCtx (s : State) (q : Nat) : Nat := s.fld (Pg.sq q) F.sqCfgCtx

/-- The command joins its queue; its CTX field is the queue's (R381). -/
def State.accept (s : State) (q : Nat) (seq : W64) (ws : List W64) : State :=
  let ctx := s.sqCtx q
  let k : SqCmd := { seq := seq, ctx := ctx, words := ws.set 0 (Bits.put (wd ws 0) 55 48 ctx), echoed := false, dispatched := false, fin := none, free := false }
  let s1 := (s.setSqCmds q (s.sqCmds q ++ [k])).setReg (Pg.sq q + 0x108) (seq + 1)
  s1.setHost { s1.host with fresh := s1.host.fresh ++ [(q, seq)] }

/-- A SUBMIT item (R379). -/
def State.submit (s : State) (q : Nat) (seq : W64) (ws : List W64) : State :=
  let p := Pg.sq q
  let next := s.reg (p + 0x108)
  if s.noSubmit then (if s.fld Pg.rcv F.rcvStatPhase = 2 then s.setErr Pg.rcv F.rcvErrStatOosSubmit 0 else s)
  else if !s.sqValid q then s.setErr p F.sqErrStatUnbound 0
  else if seq < next then
    let s1 := s.addFld Pg.hlk F.hlkCntDupSubmit 1
    if s1.host.fresh.contains (q, seq) then s1 else s1.setHost { s1.host with echoes := s1.host.echoes ++ [(q, seq)] }
  else if next < seq then s.setErr p F.sqErrStatGap (s.sqCtx q)
  else if s.outstanding q < s.fld p F.sqCfgDepth then s.accept q seq ws
  else s.setErr p F.sqErrStatFull (s.sqCtx q)

/-! ## Register operations (R372 to R374) -/

def regOpOf (w0 w1 : W64) : RegOp := ⟨BitVec.ofNat 16 (Bits.get w0 47 32), BitVec.ofNat 2 (Bits.get w0 63 62), BitVec.ofNat 26 (Bits.get w0 25 0), Bits.get w0 61 59, w1⟩

def RegOp.res (o : RegOp) (st : Nat) (data : W64) : RegRes := ⟨o.opid, o.op, o.addr, st, data⟩

def RegRes.answers (r : RegRes) (o : RegOp) : Bool := decide (r.opid = o.opid ∧ r.op = o.op ∧ r.addr = o.addr)

/-- A result is kept among the last 4,096. -/
def State.keep (s : State) (r : RegRes) : State := s.setHost { s.host with kept := (r :: s.host.kept).take 4096 }

/-- The operation takes effect: status, read data, state. none: its page's die is in a reset, and it waits. The reserved OP codes have no
effect and an open status (log 7). -/
def State.regEffect (s : State) (o : RegOp) : Option (RegRes × State) :=
  if o.size ≠ 3 ∨ o.addr.toNat % 8 ≠ 0 then some (o.res St.regSize 0, s)
  else match s.canon o.addr.toNat with
    | none => some (o.res St.addrUnmapped 0, s)
    | some k =>
      if 2 ≤ o.op.toNat then (let (v, s1) := s.draw; some (o.res (v.toNat % 2048) 0, s1))
      else if !s.pageUp s.hostDie k then none
      else if o.op = 1 then some (o.res St.ok 0, s.writeReg k o.data)
      else let r := s.readReg (pageOf o.addr.toNat) k; some (o.res St.ok r.1, (r.2.withRdData s.rdData))

/-- Whether the operation is answered in the reply frame of its request frame. -/
def State.fastOp (s : State) (o : RegOp) : Bool := match s.canon (o.addr.toNat / 8 * 8) with | some k => fastBlk (pgBlk k) | none => false

def State.answerFast (s : State) (item : Nat) (r : RegRes) : State :=
  s.setHost { s.host with fast := if s.host.fast.any fun x => decide (x.1 = item) then s.host.fast.map fun x => if x.1 = item then (x.1, x.2 ++ [r]) else x
                                  else s.host.fast ++ [(item, [r])] }

def State.answer (s : State) (item : Nat) (o : RegOp) (fast : Bool) (r : RegRes) : State :=
  if fast then s.answerFast item r else s.setHost { s.host with deferred := s.host.deferred ++ [(o, some r)] }

/-- Whether a deferred operation of a kind goes to the same page as an operation. -/
def State.pageBusy (s : State) (o : RegOp) (p : Option RegRes → Bool) : Bool :=
  s.host.deferred.any fun d => p d.2 && decide (d.1.addr.toNat / 4096 = o.addr.toNat / 4096)

/-- An operation waits for its page. -/
def State.defer (s : State) (o : RegOp) : State := s.setHost { s.host with deferred := s.host.deferred ++ [(o, none)] }

/-- One operation of an item: a repeated one is answered from its kept result; one that follows a deferred operation to its page is
deferred, and waits while that one waits (R374; log 58). -/
def State.regOp (s : State) (item : Nat) (w0 w1 : W64) : State :=
  let o := regOpOf w0 w1
  let fast := s.fastOp o && !s.pageBusy o fun _ => true
  match s.host.kept.find? fun r => r.answers o with
    | some r => (s.addFld Pg.hlk F.hlkCntOpidReplay 1).answer item o fast r
    | none =>
      if s.host.deferred.any fun d => d.2.isNone && (d.1.res 0 0).answers o then s
      else if s.pageBusy o Option.isNone then s.defer o
      else match s.regEffect o with
        | some (r, s1) => (s1.keep r).answer item o fast r
        | none => s.defer o

/-! ## Request frames (R366, R368, R370, R371) -/

namespace Fr
def word (ws : List W64) (i : Nat) : W64 := ws.getD i 0
def tag (ws : List W64) : Byte := BitVec.ofNat 8 (Bits.get (word ws 0) 7 0)
def hver (ws : List W64) : Nat := Bits.get (word ws 0) 15 8
def map (ws : List W64) : Nat := Bits.get (word ws 0) 39 16
def ccons (ws : List W64) : W64 := word ws 1
def fcrc (ws : List W64) : Nat := Bits.get (word ws 7) 63 32
/-- CRC-32C over the whole frame, with FCRC read as zero. -/
def crc (ws : List W64) : Nat := crc32c (wordsBytes ((List.range 512).map fun i => if i = 7 then Bits.put (word ws 7) 63 32 0 else word ws i))
def ok (ws : List W64) : Bool := decide (fcrc ws = crc ws)
/-- First word of an item. -/
def item (i : Nat) : Nat := 32 + 20 * i
end Fr

/-- A present item. -/
def State.takeItem (s : State) (ws : List W64) (i : Nat) : State :=
  let b := Fr.item i
  let h := Fr.word ws b
  let n := Bits.get h 23 16
  if Bits.get h 7 0 = 1 then s.submit (Bits.get h 15 8) (Fr.word ws (b + 1)) ((List.range 16).map fun j => Fr.word ws (b + 4 + j))
  else if Bits.get h 7 0 = 2 ∧ 1 ≤ n ∧ n ≤ 8 then (List.range n).foldl (fun s j => s.regOp i (Fr.word ws (b + 4 + 2 * j)) (Fr.word ws (b + 5 + 2 * j))) s
  else s.addFld Pg.hlk F.hlkCntBaditem 1

def laneNo (b : Bool) : Nat := if b then 1 else 0

/-- A frame is discarded whole: reply frame k of the ACTIVE set says so (R371, R393). -/
def State.dropFrame (s : State) (b : Bool) : State :=
  if s.lane b = Hl.active then s.setHost { s.host with rqOk := false, tag := 0, fast := [] } else s

/-- A frame that fails its FCRC is discarded and counted; the 16th within 1 ms takes the set DOWN (R366). -/
def State.badFrame (s0 : State) (b : Bool) : State :=
  let s := s0.dropFrame b
  let now := s.now (laneDie b)
  let l := now :: within now (10 ^ 6) (KMap.get [] s.host.fails (laneNo b))
  let s1 := (s.addFld Pg.hlk F.hlkCntFcrcBad 1).setHost { s.host with fails := KMap.set [] s.host.fails (laneNo b) (l.take 16) }
  if 16 ≤ l.length then (s1.setHost { s1.host with fails := KMap.set [] s1.host.fails (laneNo b) [] }).laneFails b else s1

/-- A whole request frame: its CCONS, then its items in order. A STANDBY set discards what it receives. -/
def execHostFrameRecv (laneB : Bool) (words : List W64) (s : State) : Host.Outcome State Fault Refusal :=
  if s.lane laneB ≠ Hl.active ∧ s.lane laneB ≠ Hl.standby then .next s
  else if !Fr.ok words then .next (s.badFrame laneB)
  else if Fr.hver words ≠ 3 then .next (s.dropFrame laneB)
  else if s.lane laneB = Hl.standby then .next s
  else
    let s1 := s.setHost { s.host with tag := Fr.tag words, rqOk := true, fast := [] }
    .next ((Bits.setBits 24 (Fr.map words)).foldl (fun s i => s.takeItem words i) (s1.takeCcons (Fr.ccons words)))

/-! ## Reply frames (R369, R370, R373, R376) -/

def RegRes.words (r : RegRes) : List W64 := [Bits.make [(58, 48, r.status), (47, 32, r.opid.toNat), (25, 0, r.addr.toNat)], r.data]

def echoWords (e : Nat × W64) : List W64 := [e.2, Bits.make [(63, 63, 1), (7, 0, e.1)]]

/-- An item of 20 words: KIND, COUNT, byte 3, body. -/
def frameItem (kind count b3 : Nat) (body : List W64) : List W64 := (([Bits.make [(7, 0, kind), (23, 16, count), (31, 24, b3)], 0, 0, 0] ++ body) ++ List.replicate 20 0).take 20

/-- Lists cut into groups of at most n. -/
def groups {α : Type} (n : Nat) : Nat → List α → List (List α)
  | 0, _ => []
  | fuel + 1, l => if l.isEmpty then [] else l.take n :: groups n fuel (l.drop n)

/-- Items beside the fast results, in the order in which they take free places: echoes, completion records, deferred results. -/
def HostLink.moreItems (h : HostLink) : List (List W64) :=
  ((groups 8 24 (h.echoes.drop 12)).map fun g => frameItem 3 g.length 0 (g.flatMap echoWords)) ++
  ((groups 4 24 h.held).map fun g => frameItem 4 g.length 0 (g.flatMap (·.take 4))) ++
  ((groups 8 24 h.results).map fun g => frameItem 5 g.length 1 (g.flatMap RegRes.words))

/-- Items by their place: the fast results at the places of their requests, then the others in free places. -/
def HostLink.place (h : HostLink) : List (Nat × List W64) :=
  let fast := h.fast.map fun x => (x.1, frameItem 5 x.2.length 0 (x.2.flatMap RegRes.words))
  let freePlaces := (List.range 24).filter fun i => !h.fast.any fun x => decide (x.1 = i)
  fast ++ freePlaces.zip h.moreItems

/-- How many items of each of the three kinds find a place. -/
def HostLink.carried (h : HostLink) : Nat × Nat × Nat :=
  let room := 24 - h.fast.length
  let ne := min room ((h.echoes.length - 12 + 7) / 8)
  let nc := min (room - ne) ((h.held.length + 3) / 4)
  (ne, nc, min (room - ne - nc) ((h.results.length + 7) / 8))

/-- The frame without its FCRC. -/
def State.replyBody (s : State) : List W64 :=
  let h := s.host
  let items := h.place
  let flags := (if h.rqOk then 1 else 0) + (if s.lane true = Hl.active then 2 else 0)
  let n := min 12 h.echoes.length
  let w0 := Bits.make [(15, 0, s.statusField (if h.rqOk then h.tag else 0)), (23, 16, flags), (31, 24, 3), (55, 32, items.foldl (fun m x => m + 2 ^ x.1) 0), (63, 56, n)]
  let head := (([w0, s.csent, 0, 0, 0, 0, 0, 0] ++ (h.echoes.take 12).flatMap echoWords) ++ List.replicate 32 0).take 32
  head ++ (List.range 24).flatMap fun i => match items.find? fun x => decide (x.1 = i) with | some x => x.2 | none => List.replicate 20 0

/-- A frame with its FCRC. -/
def sealFrame (body : List W64) : List W64 := body.set 7 (BitVec.ofNat 64 (Fr.crc body * 2 ^ 32))

/-- The idle frame of a STANDBY set: the status block, with its own LANESET, without items and echoes (R365; log 132). -/
def State.idleFrame (s : State) (b : Bool) : List W64 :=
  sealFrame ([Bits.make [(15, 0, s.statusField 0), (23, 16, if b then 2 else 0), (31, 24, 3)], s.csent] ++ List.replicate 510 0)

/-- The STANDBY set sends an idle frame (R365). -/
def State.sendIdle (s : State) : State :=
  match [false, true].find? fun b => decide (s.lane b = Hl.standby) with
  | some b => s.setHost { s.host with idle := s.idleFrame b }
  | none => s

/-- A reply frame leaves on the ACTIVE set: what it carried is gone from the lists; and an idle one on the STANDBY set. -/
def execHostReplyFrame (s0 : State) : Host.Outcome State Fault Refusal :=
  let s := s0.sendIdle
  if !s.anyActive then .next s else
  let body := s.replyBody
  let frame := sealFrame body
  let c := s.host.carried
  .next (s.setHost { s.host with reply := frame, echoes := s.host.echoes.drop (12 + 8 * c.1), held := s.host.held.drop (4 * c.2.1), results := s.host.results.drop (8 * c.2.2)
                                 fast := [], rqOk := false, tag := 0 })

/-! ## Deferred operations (R373) -/

/-- Takes out the first deferred operation that a test picks. -/
def takeDeferred (p : RegOp × Option RegRes → Bool) : List (RegOp × Option RegRes) → Option ((RegOp × Option RegRes) × List (RegOp × Option RegRes))
  | [] => none
  | x :: t => if p x then some (x, t) else (takeDeferred p t).map fun r => (r.1, x :: r.2)

/-- The oldest deferred operation that has, or can have, its effect returns its result. -/
def execRegDeferredResult (s : State) : Host.Outcome State Fault Refusal :=
  match takeDeferred (fun x => x.2.isSome || (s.regEffect x.1).isSome) s.host.deferred with
  | none => .next s
  | some ((_, some r), rest) => .next (s.setHost { s.host with deferred := rest, results := s.host.results ++ [r] })
  | some ((o, none), rest) =>
    match s.regEffect o with
    | none => .next s
    | some (r, s1) => .next ((s1.setHost { s1.host with deferred := rest, results := s1.host.results ++ [r] }).keep r)

/-- The oldest operation that still waits completes with REG_TIMEOUT, without effect. -/
def execRegOpTimeout (s : State) : Host.Outcome State Fault Refusal :=
  match takeDeferred (fun x => x.2.isNone) s.host.deferred with
  | none => .next s
  | some ((o, _), rest) => .next ((s.setHost { s.host with deferred := rest, results := s.host.results ++ [o.res St.regTimeout 0] }).keep (o.res St.regTimeout 0))

/-! ## Acceptance and dispatch (R380 to R382) -/

/-- A command accepted for a context that is being aborted ends ABORTED, but for another abort, which joins (R409, R410). -/
def State.refuseAborting (s : State) (q : Nat) (seq : W64) : State :=
  match (s.sqCmds q).find? fun k => decide (k.seq = seq) with
  | some k => if s.aborting k.ctx && decide (wf k.words 0 63 56 ≠ 0x50) then s.finAborted q seq else s
  | none => s

/-- Both copies are written, on stacks of CD1 and CD2 while both serve, otherwise of two dies in service, and with a new copy all that it holds
(R380): the oldest command is echoed, and goes to its unit in its turn. -/
def execSubmitEcho (s : State) : Host.Outcome State Fault Refusal :=
  match s.host.fresh with
  | [] => .next s
  | (q, seq) :: rest =>
    let m := if s.host.mirrors.length = 2 ∧ s.host.mirrors.all s.unitUp = true then s.host.mirrors else s.dumpStacks
    if m.length < 2 then .next s else
    let s1 := s.setSqCmds q ((s.sqCmds q).map fun k => if k.seq = seq then { k with echoed := true } else k)
    .next ((s1.setHost { s1.host with fresh := rest, echoes := s1.host.echoes ++ [(q, seq)], mirrors := m, mirrorLost := false }).refuseAborting q seq |>.pump q)

/-- The next command of a queue, if it has been echoed and carries an opcode. -/
def State.readyCmd (s : State) (q : Nat) (op : Nat → Bool) : Option SqCmd :=
  match s.nextCmd q with
  | some k => if k.echoed && op (wf k.words 0 63 56) then some k else none
  | none => none

def State.finNow (s : State) (q : Nat) (k : SqCmd) (st : Nat) (result : W64) : State := ((s.markDispatched q k.seq).finCmd q k.seq st result).pump q

def execNop (q : Fin 256) (s : State) : Host.Outcome State Fault Refusal :=
  match s.readyCmd q (fun o => decide (o = 0x60)) with
  | some k => .next (s.finNow q k St.ok (wd k.words 1))
  | none => .next s

/-- QWAIT waits until every earlier command of its queue has its record. -/
def execQwait (q : Fin 256) (s : State) : Host.Outcome State Fault Refusal :=
  match s.readyCmd q (fun o => decide (o = 0x61)) with
  | some k => if (s.sqCmds q).head?.map (·.seq) = some k.seq then .next (s.finNow q k St.ok 0) else .next s
  | none => .next s

def execHostCmdBadOpcode (q : Fin 256) (s : State) : Host.Outcome State Fault Refusal :=
  match s.readyCmd q (fun o => !([0x10, 0x30, 0x50, 0x60, 0x61].contains o)) with
  | some k => .next (s.finNow q k St.protocolErr 0)
  | none => .next s

/-! ## Completion records (R382 to R388) -/

/-- A record, and the mark of its time stamp (R32; log 110). -/
def complRec (seq : W64) (range : Bool) (ctx st q : Nat) (result time : W64) (mark : List W64) : List W64 :=
  [seq, Bits.make [(63, 63, 1), (62, 62, if range then 1 else 0), (55, 48, ctx), (47, 32, st), (7, 0, q)], result, time] ++ mark

/-- A record goes out: CSENT and the queue's DONE follow. -/
def State.sendRec (s : State) (q : Nat) (r : List W64) : State :=
  let s1 := (s.setReg (Pg.hlk + 0x110) (s.csent + 1)).setHost { s.host with sent := s.host.sent ++ [r], held := s.host.held ++ [r] }
  if (wd r 1).getLsbD 62 then s1 else s1.setReg (Pg.sq q + 0x110) (wd r 0)

/-- The record that a queue sends next: one sent before a warm recovery, the range form, or that of its oldest command. -/
def State.sendNext (s : State) (q : Nat) : State :=
  match s.host.again.find? fun r => decide (wf r 1 7 0 = q) with
  | some r => (s.setHost { s.host with again := s.host.again.erase r }).sendRec q r
  | none => match s.host.ranges.find? fun x => decide (x.1 = q) with
    | some x => (s.setHost { s.host with ranges := s.host.ranges.filter fun y => decide (y.1 ≠ q) }).sendRec q (complRec x.2 true 0 St.unfinished q 0 (BitVec.ofNat 64 (s.now s.hub)) (s.freeMark s.hub))
    | none => match s.sqCmds q with
      | k :: rest => match k.fin with
        | some (st, v, t) => (s.setSqCmds q rest).sendRec q (complRec k.seq false k.ctx st q v t (if k.free then [1] else []))
        | none => s
      | [] => s

/-- With a lane set ACTIVE and credit, one queue sends its next record; which queue goes first is open (log 7). -/
def execComplRecordSend (s : State) : Host.Outcome State Fault Refusal :=
  let l := s.recordDue.eraseDups
  if !s.anyActive || !s.ringCredit || l.isEmpty then .next s else
  let (v, s1) := s.draw
  .next (s1.sendNext (l.getD (v.toNat % l.length) 0))

end Sys2Proof.Machine
end

