-- ==== Sys2Proof/Machine/Jtag.lean ====
section
/-! DEFINITION. The JTAG port (R490, R491): the TAPs' instructions, boundary scan, TSTTOKEN and TSTACC. -/

namespace Sys2Proof.Machine

namespace Ir
def extest : Byte := 0x00
def samplePreload : Byte := 0x01
def idcode : Byte := 0x02
def clamp : Byte := 0x03
def highz : Byte := 0x04
def extestPulse : Byte := 0x05
def extestTrain : Byte := 0x06
def tsttoken : Byte := 0x10
def tstacc : Byte := 0x11
def bypass : Byte := 0xFF
/-- The instructions that take the lands (R491). -/
def boundary (c : Byte) : Bool := decide (c = extest ∨ c = clamp ∨ c = highz ∨ c = extestPulse ∨ c = extestTrain)
end Ir

/-- Instruction of a die's TAP; Test-Logic-Reset selects IDCODE. -/
def State.ir (s : State) (d : Nat) : Byte := KMap.get Ir.idcode s.tap.ir d

/-- A TAP takes an instruction. The TAPs work whenever PWR_OK is high. A boundary instruction that is no longer selected lets the
package go. -/
def State.selectIr (s : State) (d : Nat) (c : Byte) : State :=
  if !s.plat.pwrOk then s else
  let s1 := s.withTap { s.tap with ir := KMap.set Ir.idcode s.tap.ir d c }
  s1.withTap { s1.tap with hold := s1.tap.hold && (List.range 4).any fun d => Ir.boundary (s1.ir d) }

/-- LPDDR memory without self-refresh: its contents are lost (R491; log 55). -/
def State.lpLost (s : State) : State :=
  let s1 := s.clearMem (20 * 2 ^ 38) (52 * 2 ^ 38)
  s1.withMem { s1.mem with lines := s1.mem.lines.filter fun e => decide (e.1 < 20 * 2 ^ 32 ∨ 52 * 2 ^ 32 ≤ e.1) }

/-- A boundary instruction: with COLD_RST_N low it takes the lands and holds the package in reset; else it acts as BYPASS. -/
def State.boundary (s : State) (d : Nat) (c : Byte) : State :=
  if !s.plat.pwrOk then s
  else if s.plat.coldRstN then s.selectIr d Ir.bypass
  else let s1 := (s.selectIr d c).lpLost; (s1.withTap { s1.tap with hold := true })

def execJtagTapReset (d : Die) (s : State) : Host.Outcome State Fault Refusal := .next (s.selectIr d Ir.idcode)
def execExtest (d : Die) (s : State) : Host.Outcome State Fault Refusal := .next (s.boundary d Ir.extest)
def execClamp (d : Die) (s : State) : Host.Outcome State Fault Refusal := .next (s.boundary d Ir.clamp)
def execHighz (d : Die) (s : State) : Host.Outcome State Fault Refusal := .next (s.boundary d Ir.highz)
def execExtestPulse (d : Die) (s : State) : Host.Outcome State Fault Refusal := .next (s.boundary d Ir.extestPulse)
def execExtestTrain (d : Die) (s : State) : Host.Outcome State Fault Refusal := .next (s.boundary d Ir.extestTrain)

/-- SAMPLE/PRELOAD never affects operation; the boundary register's order and lengths are the BSDL file's (log 55). -/
def execSamplePreload (d : Die) (s : State) : Host.Outcome State Fault Refusal := .next (s.selectIr d Ir.samplePreload)

/-- The identity of a die (R490). -/
def idcodeOf (d : Nat) : W64 := Bits.make [(31, 28, (Config.dieStep d).toNat), (27, 12, 0x5C40 + d), (11, 1, Config.jep106.toNat), (0, 0, 1)]

def execIdcode (d : Die) (s : State) : Host.Outcome State Fault Refusal :=
  .next (if !s.plat.pwrOk then s else (s.selectIr d Ir.idcode).out (idcodeOf d))

/-- TSTTOKEN: bytes in order to the die's TST.TOKEN (R487). -/
def execTsttoken (d : Die) (bytes : List Byte) (s : State) : Host.Outcome State Fault Refusal :=
  .next (if !s.plat.pwrOk then s else (s.selectIr d Ir.tsttoken).tokenBytes d bytes)

/-- TSTACC: OP 0 reads and 1 writes a window register, in PHASE TEST only (R490); an access of 64 bits, under R13. -/
def execTstacc (d : Die) (op : BitVec 2) (addr : BitVec 26) (data : W64) (s : State) : Host.Outcome State Fault Refusal :=
  if !s.plat.pwrOk then .next s else
  let s1 := s.selectIr d Ir.tstacc
  if s1.phase ≠ Ph.test ∨ 2 ≤ op.toNat then .next s1
  else .next (s1.access d addr.toNat 3 fun k s => if op = 0 then (s.readReg (pageOf addr.toNat) k).2 else s.writeReg k data)

/-- Codes of the other instructions. -/
def Ir.other (c : Byte) : Bool := decide (c ≤ 0x06 ∨ c = tsttoken ∨ c = tstacc)

/-- BYPASS: 0xFF and every code that is no other instruction's. -/
def execBypass (d : Die) (code : Byte) (s : State) : Host.Outcome State Fault Refusal :=
  .next (s.selectIr d (if Ir.other code then Ir.bypass else code))

end Sys2Proof.Machine
end

