-- ==== Sys2Proof/Machine/Porter.lean ====
section
/-! DEFINITION. The porters' commands (R342 to R347): issue, and the end of a transfer; and their accesses to the register window, which
only CX000 reaches (R189). -/

namespace Sys2Proof.Machine

/-! ## The register window (R13, R189, R190)

A porter reaches a register as the host does: by aligned 64-bit accesses, in ascending order, of a range that is whole registers. DESIGN
CHOICE, log 126: the manual gives no order, and no meaning to a NARROW operation or to poison there. -/

/-- The status of an access of a die to n bytes of the window: none has an effect unless every register of the range answers. -/
def State.windowCheck (s : State) (d a n : Nat) : Nat :=
  if a % 8 ≠ 0 ∨ n % 8 ≠ 0 then St.regSize
  else (List.range (n / 8)).foldl (fun st i =>
    if st ≠ St.ok then st else match s.canon (a - 0xFF0000000000 + 8 * i) with
      | none => St.addrUnmapped
      | some k => if s.pageUp d k then St.ok else St.regTimeout) St.ok

/-- The bytes of n / 8 registers; what a host read answers stays as it was. -/
def State.windowRead (s : State) (a n : Nat) : List Byte × State :=
  (List.range (n / 8)).foldl (fun (acc : List Byte × State) i =>
    let w := a - 0xFF0000000000 + 8 * i
    match acc.2.canon w with
    | some k => let r := acc.2.readReg (pageOf w) k; (acc.1 ++ natBytes 8 r.1.toNat, r.2.withRdData s.rdData)
    | none => acc) ([], s)

/-- Writes n / 8 registers with bytes given by their offset. -/
def State.windowWrite (s : State) (a n : Nat) (rd : Nat → Byte) : State :=
  (List.range (n / 8)).foldl (fun t i =>
    match t.canon (a - 0xFF0000000000 + 8 * i) with
    | some k => (t.writeReg k (BitVec.ofNat 64 (bytesNat ((List.range 8).map fun j => rd (8 * i + j))))).withRdData s.rdData
    | none => t) s

/-- A remote operation at issue: the registers that a PUT sends are read, and those that a GET fills are checked. -/
def State.windowIssue (s : State) (o : PortOp) : Nat × KMap Byte × State :=
  if !(decide (o.kind = 1 ∨ o.kind = 2) && s.inWindow o.lopAddr) then (St.ok, [], s)
  else
    let st := if o.narrow then St.regSize else s.windowCheck o.die o.lopAddr o.len
    if st ≠ St.ok ∨ o.kind = 2 then (st, [], s)
    else let (bs, s1) := s.windowRead o.lopAddr o.len; (St.ok, bs.zipIdx.map fun b => (b.2, b.1), s1)

/-- The end of a remote GET into the window: the registers are written. -/
def State.windowEnd (s : State) (o : PortOp) : Nat × State :=
  if o.kind = 2 && s.inWindow o.lopAddr then
    let st := s.windowCheck o.die o.lopAddr o.len
    (st, if st = St.ok then s.windowWrite o.lopAddr o.len fun i => (KMap.find o.win i).getD 0 else s)
  else (St.ok, s)

/-- Moves n bytes within this package where source or destination is the window: status, state. -/
def State.windowMove (s : State) (o : PortOp) (src dst : Nat) : Nat × State :=
  let d := o.die; let n := o.len; let part := s.partOf o.ctx
  let chk := [s.memCheck o.ctx src n, s.memCheckW o.ctx dst n, if o.narrow then St.regSize else St.ok,
    if s.inWindow src then s.windowCheck d src n else St.ok, if s.inWindow dst then s.windowCheck d dst n else s.wrote dst n]
  match chk.find? fun st => decide (st ≠ St.ok) with
  | some st => (st, s)
  | none =>
    let (bs, s1) := if s.inWindow src then s.windowRead src n else ((List.range n).map fun i => s.byteAt (src + i), s.charge d part src n false)
    (St.ok, if s.inWindow dst then s1.windowWrite dst n fun i => bs.getD i 0 else ((s1.storeMarked dst bs fun _ => false).charge d part dst n true).wakeRange dst n)

/-- What an operation on this package does: in the register window, or in memory. An atomic reads and writes its register; a full/empty
form finds no word there (R274). -/
def State.runHere (s : State) (o : PortOp) : Nat × Nat × W64 × State :=
  let moved := fun (r : Nat × State) => (r.1, if r.1 = St.ok then o.len else 0, (0 : W64), r.2)
  if o.kind = 1 && (s.inWindow o.lopAddr || s.inWindow o.raddr) then moved (s.windowMove o o.lopAddr o.raddr)
  else if o.kind = 2 && (s.inWindow o.lopAddr || s.inWindow o.raddr) then moved (s.windowMove o o.raddr o.lopAddr)
  else if o.kind = 4 && s.inWindow o.raddr && decide (o.aop < 4) then
    let chk := s.memCheck o.ctx o.raddr 8
    let st := if chk ≠ St.ok then chk else s.windowCheck o.die o.raddr 8
    if st ≠ St.ok then (st, 0, 0, s) else
    let (bs, s1) := s.windowRead o.raddr 8
    let v := BitVec.ofNat 64 (bytesNat bs)
    (St.ok, 8, v, s1.windowWrite o.raddr 8 fun i => (wordBytes (atomicValue o.aop v o.lop o.cmp)).getD i 0)
  else s.runLocal o

/-! ## Issue (R342, R343) -/

/-- rop (R342): the block at RS2 joins the queue of group RS1[0] of the core's die. -/
def State.rop (s : State) (c rd rs1 rs2 : Nat) : State :=
  if !s.coreRuns c then s
  else if 340 ≤ c then s.illegal c
  else s.newWork c rd <|
    let g := 2 * slotDie c + Bits.get (s.g c rs1) 0 0
    if 64 ≤ (s.net.ops.filter fun o => decide (o.group = g)).length then s.retSt c rd St.queueFull
    else
      let ws := s.scratchWords c (s.g c rs2).toNat 6
      let o : PortOp := { num := s.net.nextOp, group := g, ctx := s.coreCtx c, words := ws, rest := [], flying := 0, epoch := none, bytes := 0, status := St.ok, old := 0, win := [] }
      let (chk, s0) := s.opCheck o
      let (st, win, s1) := if chk = St.ok && !s.isLocal o then s0.windowIssue o else (chk, [], s0)
      let o1 := { o with status := st, win := win, rest := if st ≠ St.ok then [] else if o.moves then [(0, o.len)] else if o.kind = 4 then [(0, 8)] else [(0, 0)] }
      let s2 := s1.withNet { s1.net with ops := s1.net.ops ++ [o1], nextOp := s1.net.nextOp + 1 }
      (s2.retSt c rd St.ok).formAll (slotDie c)

def execRopPut (c : Met CoreNo) (rd rs1 rs2 : Gpr) (s : State) : Host.Outcome State Fault Refusal := .next ((s.meet c.hits).rop c.arg rd rs1 rs2)

def execRopGet (c : CoreNo) (rd rs1 rs2 : Gpr) (s : State) : Host.Outcome State Fault Refusal := .next (s.rop c rd rs1 rs2)

def execRopGet3 (c : CoreNo) (rd rs1 rs2 : Gpr) (s : State) : Host.Outcome State Fault Refusal := .next (s.rop c rd rs1 rs2)

def execRopAtomic (c : CoreNo) (rd rs1 rs2 : Gpr) (s : State) : Host.Outcome State Fault Refusal := .next (s.rop c rd rs1 rs2)

def execRopSignal (c : CoreNo) (rd rs1 rs2 : Gpr) (s : State) : Host.Outcome State Fault Refusal := .next (s.rop c rd rs1 rs2)

/-! ## The end of a transfer (R293 to R295, R347) -/

/-- A transfer carried by porter p of a group ends: the first of the group that may. parity: the receiver of a path from the porter
found bad parity (R397); hits: what its reads of memory here met. -/
def execPorterTransferDone (d : Die) (g : Fin 2) (p : Fin 8) (parity : Bool) (hits : Hits) (s : State) : Host.Outcome State Fault Refusal :=
  if !s.dieUp d || s.unitFenced (porterKey d (8 * g + p)) || s.inReset [(3, 16 * d.val + 8 * g.val + p.val)] then .next s else
  match s.net.ops.find? fun o => decide (o.group = 2 * d.val + g.val) && s.mayEnd o with
  | none => .next s
  | some o =>
    if o.status ≠ St.ok then .next (s.endOp o o.status o.bytes o.old)
    else if parity then
      let key := porterKey d (8 * g + p)
      let s1 := (s.endOp o St.checkFail 0 0).event d Ev.parity o.ctx (unitOf (Pg.isl d 34)) (16 + 8 * g.val + p.val) 0
      let (s2, third) := s1.strikeRec d key o.ctx 0
      .next (if third then s2.fenceUnit d (Pg.isl d 34) key 1 else s2)
    else if s.isLocal o then
      let (st, n, v, s1) := (s.meet hits).runHere o
      .next (s1.endOp o st n v)
    else let (st, s1) := s.windowEnd o; .next (s1.endOp o st o.bytes o.old)

end Sys2Proof.Machine
end

