-- ==== Sys2Proof/Machine/Dispatch.lean ====
section
/-! DEFINITION. The meaning of each command, one arm per constructor of Instr. -/

namespace Sys2Proof.Machine

def exec (i : Instr) (s : State) : Host.Outcome State Fault Refusal :=
  match i with
  | .regWrite addr size data => Sys2Proof.Machine.execRegWrite addr size data s
  | .powerUp ix => Sys2Proof.Machine.execPowerUp ix s
  | .powerLoss => Sys2Proof.Machine.execPowerLoss s
  | .coldReset tr => Sys2Proof.Machine.execColdReset tr s
  | .bridgeFlitReplay b flit => Sys2Proof.Machine.execBridgeFlitReplay b flit s
  | .bridgeDown b => Sys2Proof.Machine.execBridgeDown b s
  | .refclkLost d => Sys2Proof.Machine.execRefclkLost d s
  | .refclkReturn d => Sys2Proof.Machine.execRefclkReturn d s
  | .thermtrip sn temp => Sys2Proof.Machine.execThermtrip sn temp s
  | .islStretchRead d k => Sys2Proof.Machine.execIslStretchRead d k s
  | .tissue c rd rs1 rs2 => Sys2Proof.Machine.execTissue c rd rs1 rs2 s
  | .tpair c rd rs1 rs2 => Sys2Proof.Machine.execTpair c rd rs1 rs2 s
  | .tileExecute c slot faults => Sys2Proof.Machine.execTileExecute c slot faults s
  | .tileCheckDone e => Sys2Proof.Machine.execTileCheckDone e s
  | .tileRerun e faults => Sys2Proof.Machine.execTileRerun e faults s
  | .tileDrainStart e => Sys2Proof.Machine.execTileDrainStart e s
  | .tileDrainEnd e => Sys2Proof.Machine.execTileDrainEnd e s
  | .issueCapWindow e => Sys2Proof.Machine.execIssueCapWindow e s
  | .strikeWindowExpire e => Sys2Proof.Machine.execStrikeWindowExpire e s
  | .mxeFence e => Sys2Proof.Machine.execMxeFence e s
  | .mxeSelftest e => Sys2Proof.Machine.execMxeSelftest e s
  | .mxeSelftestDone e pass => Sys2Proof.Machine.execMxeSelftestDone e pass s
  | .mxeReadmit e => Sys2Proof.Machine.execMxeReadmit e s
  | .mxeChkRead e => Sys2Proof.Machine.execMxeChkRead e s
  | .mxePerfRead e => Sys2Proof.Machine.execMxePerfRead e s
  | .cissue c rd rs1 rs2 => Sys2Proof.Machine.execCissue c rd rs1 rs2 s
  | .chainStart v => Sys2Proof.Machine.execChainStart v s
  | .chainEntryClaim v => Sys2Proof.Machine.execChainEntryClaim v s
  | .chainComplete v parity => Sys2Proof.Machine.execChainComplete v parity s
  | .vxeFence v => Sys2Proof.Machine.execVxeFence v s
  | .vxeSelftest v => Sys2Proof.Machine.execVxeSelftest v s
  | .vxeSelftestDone v pass => Sys2Proof.Machine.execVxeSelftestDone v pass s
  | .vxeReadmit v => Sys2Proof.Machine.execVxeReadmit v s
  | .vxePerfRead v => Sys2Proof.Machine.execVxePerfRead v s
  | .cpop c rd => Sys2Proof.Machine.execCpop c rd s
  | .cpeek c rd => Sys2Proof.Machine.execCpeek c rd s
  | .smovS c sd rs1 => Sys2Proof.Machine.execSmovS c sd rs1 s
  | .smovG c rd ss => Sys2Proof.Machine.execSmovG c rd ss s
  | .bs c cond uns s1 s2 off => Sys2Proof.Machine.execBs c cond uns s1 s2 off s
  | .ringRecordRelease c => Sys2Proof.Machine.execRingRecordRelease c s
  | .gather c oc rd rs1 => Sys2Proof.Machine.execGather c oc rd rs1 s
  | .scatter c oc rd rs1 => Sys2Proof.Machine.execScatter c oc rd rs1 s
  | .gatherComplete c => Sys2Proof.Machine.execGatherComplete c s
  | .intAlu c fn rd rs1 src => Sys2Proof.Machine.execIntAlu c fn rd rs1 src s
  | .load c sp width rd rs1 imm err => Sys2Proof.Machine.execLoad c sp width rd rs1 imm err s
  | .store c sp width rs rs1 imm err => Sys2Proof.Machine.execStore c sp width rs rs1 imm err s
  | .compareBranch c cond rs1 rs2 off => Sys2Proof.Machine.execCompareBranch c cond rs1 rs2 off s
  | .jumpAndLink c rd rs1 imm => Sys2Proof.Machine.execJumpAndLink c rd rs1 imm s
  | .fpOp c fn dbl rd rs1 rs2 => Sys2Proof.Machine.execFpOp c fn dbl rd rs1 rs2 s
  | .systemOp c fn => Sys2Proof.Machine.execSystemOp c fn s
  | .cluCtxWrite c data => Sys2Proof.Machine.execCluCtxWrite c data s
  | .coreRun c k => Sys2Proof.Machine.execCoreRun c k s
  | .coreStop c k => Sys2Proof.Machine.execCoreStop c k s
  | .hstSnapshot d stream addr => Sys2Proof.Machine.execHstSnapshot d stream addr s
  | .hstSnapshotClear d stream addr => Sys2Proof.Machine.execHstSnapshotClear d stream addr s
  | .hstLoad d stream addr => Sys2Proof.Machine.execHstLoad d stream addr s
  | .hstOpDone d => Sys2Proof.Machine.execHstOpDone d s
  | .hsnapWrite c oc data => Sys2Proof.Machine.execHsnapWrite c oc data s
  | .hstOwnWrite d stream data => Sys2Proof.Machine.execHstOwnWrite d stream data s
  | .ctrClear d => Sys2Proof.Machine.execCtrClear d s
  | .ctrAdd d value => Sys2Proof.Machine.execCtrAdd d value s
  | .ctrEvtRead d ix => Sys2Proof.Machine.execCtrEvtRead d ix s
  | .mapRgnValidate r data => Sys2Proof.Machine.execMapRgnValidate r data s
  | .mapRgnClose r => Sys2Proof.Machine.execMapRgnClose r s
  | .mapQuiesceDone => Sys2Proof.Machine.execMapQuiesceDone s
  | .tollRefill d => Sys2Proof.Machine.execTollRefill d s
  | .tollBktWrite d b data => Sys2Proof.Machine.execTollBktWrite d b data s
  | .tollHeldRead d b => Sys2Proof.Machine.execTollHeldRead d b s
  | .stackTempReport k temp => Sys2Proof.Machine.execStackTempReport k temp s
  | .throttleFallStep k => Sys2Proof.Machine.execThrottleFallStep k s
  | .msTempLost k => Sys2Proof.Machine.execMsTempLost k s
  | .lpTempReport k temp => Sys2Proof.Machine.execLpTempReport k temp s
  | .scrubPass m errs => Sys2Proof.Machine.execScrubPass m errs s
  | .mscFenceWrite k chan => Sys2Proof.Machine.execMscFenceWrite k chan s
  | .lpcFenceWrite k lp => Sys2Proof.Machine.execLpcFenceWrite k lp s
  | .mscEccRead m => Sys2Proof.Machine.execMscEccRead m s
  | .updateStart => Sys2Proof.Machine.execUpdateStart s
  | .uuChunkRun u parity => Sys2Proof.Machine.execUuChunkRun u parity s
  | .journalMirrorAck u => Sys2Proof.Machine.execJournalMirrorAck u s
  | .uuSegmentPass u => Sys2Proof.Machine.execUuSegmentPass u s
  | .updateCommit => Sys2Proof.Machine.execUpdateCommit s
  | .uld u rd stream => Sys2Proof.Machine.execUld u rd stream s
  | .ust u stream rs2 => Sys2Proof.Machine.execUst u stream rs2 s
  | .ukset u rd rs1 => Sys2Proof.Machine.execUkset u rd rs1 s
  | .uadd u dbl rd rs1 rs2 => Sys2Proof.Machine.execUadd u dbl rd rs1 rs2 s
  | .usub u dbl rd rs1 rs2 => Sys2Proof.Machine.execUsub u dbl rd rs1 rs2 s
  | .umul u dbl rd rs1 rs2 => Sys2Proof.Machine.execUmul u dbl rd rs1 rs2 s
  | .udiv u dbl rd rs1 rs2 => Sys2Proof.Machine.execUdiv u dbl rd rs1 rs2 s
  | .ufma u dbl rd rs1 rs2 => Sys2Proof.Machine.execUfma u dbl rd rs1 rs2 s
  | .usqrt u dbl rd rs1 => Sys2Proof.Machine.execUsqrt u dbl rd rs1 s
  | .umax u dbl rd rs1 rs2 => Sys2Proof.Machine.execUmax u dbl rd rs1 rs2 s
  | .umin u dbl rd rs1 rs2 => Sys2Proof.Machine.execUmin u dbl rd rs1 rs2 s
  | .uabs u dbl rd rs1 => Sys2Proof.Machine.execUabs u dbl rd rs1 s
  | .uneg u dbl rd rs1 => Sys2Proof.Machine.execUneg u dbl rd rs1 s
  | .usgn u dbl rd rs1 => Sys2Proof.Machine.execUsgn u dbl rd rs1 s
  | .ucvt u toDbl rd rs1 => Sys2Proof.Machine.execUcvt u toDbl rd rs1 s
  | .uwadd u rd rs1 rs2 => Sys2Proof.Machine.execUwadd u rd rs1 rs2 s
  | .uloop u => Sys2Proof.Machine.execUloop u s
  | .uend u => Sys2Proof.Machine.execUend u s
  | .uuFence u => Sys2Proof.Machine.execUuFence u s
  | .uuSelftest u => Sys2Proof.Machine.execUuSelftest u s
  | .uuSelftestDone u pass => Sys2Proof.Machine.execUuSelftestDone u pass s
  | .uuReadmit u => Sys2Proof.Machine.execUuReadmit u s
  | .uuPerfRead u => Sys2Proof.Machine.execUuPerfRead u s
  | .updPerfRead d => Sys2Proof.Machine.execUpdPerfRead d s
  | .qpush c nb rd rs1 rs2 => Sys2Proof.Machine.execQpush c nb rd rs1 rs2 s
  | .qpop c nb rd rs1 rs2 => Sys2Proof.Machine.execQpop c nb rd rs1 rs2 s
  | .qdone c rd rs1 => Sys2Proof.Machine.execQdone c rd rs1 s
  | .vacq c rd rs1 rs2 => Sys2Proof.Machine.execVacq c rd rs1 rs2 s
  | .vrel c rd rs1 rs2 => Sys2Proof.Machine.execVrel c rd rs1 rs2 s
  | .fbeg c rd rs1 => Sys2Proof.Machine.execFbeg c rd rs1 s
  | .fend c rd rs1 => Sys2Proof.Machine.execFend c rd rs1 s
  | .taint c rd rs1 rs2 => Sys2Proof.Machine.execTaint c rd rs1 rs2 s
  | .slCopyDone ol seq => Sys2Proof.Machine.execSlCopyDone ol seq s
  | .slOpenRecv m => Sys2Proof.Machine.execSlOpenRecv m s
  | .slAcceptRecv ol => Sys2Proof.Machine.execSlAcceptRecv ol s
  | .slRefuseRecv ol => Sys2Proof.Machine.execSlRefuseRecv ol s
  | .slDescRecv m => Sys2Proof.Machine.execSlDescRecv m s
  | .slAckRecv ol seq consumed => Sys2Proof.Machine.execSlAckRecv ol seq consumed s
  | .slConsumedSend qn => Sys2Proof.Machine.execSlConsumedSend qn s
  | .slCreditRecv ol consumed => Sys2Proof.Machine.execSlCreditRecv ol consumed s
  | .slResend ol => Sys2Proof.Machine.execSlResend ol s
  | .slTaintRecv qn t => Sys2Proof.Machine.execSlTaintRecv qn t s
  | .slqIncfgWrite d q data => Sys2Proof.Machine.execSlqIncfgWrite d q data s
  | .slqOutcfgWrite d j data => Sys2Proof.Machine.execSlqOutcfgWrite d j data s
  | .stgStageWrite ix data => Sys2Proof.Machine.execStgStageWrite ix data s
  | .vcmdActivate vte => Sys2Proof.Machine.execVcmdActivate vte s
  | .vcmdRetire vte => Sys2Proof.Machine.execVcmdRetire vte s
  | .stgTclr ctx => Sys2Proof.Machine.execStgTclr ctx s
  | .ldfe c nb rd rs1 => Sys2Proof.Machine.execLdfe c nb rd rs1 s
  | .ldfn c nb rd rs1 => Sys2Proof.Machine.execLdfn c nb rd rs1 s
  | .stef c nb rd rs1 rs2 => Sys2Proof.Machine.execStef c nb rd rs1 rs2 s
  | .finc c rd rs1 rs2 => Sys2Proof.Machine.execFinc c rd rs1 rs2 s
  | .fdec c rd rs1 rs2 => Sys2Proof.Machine.execFdec c rd rs1 rs2 s
  | .fini c full rd rs1 rs2 => Sys2Proof.Machine.execFini c full rd rs1 rs2 s
  | .fsig c rd rs1 rs2 => Sys2Proof.Machine.execFsig c rd rs1 rs2 s
  | .swait c nb rd rs1 => Sys2Proof.Machine.execSwait c nb rd rs1 s
  | .barr c nb rd rs1 => Sys2Proof.Machine.execBarr c nb rd rs1 s
  | .bwait c nb rd rs1 rs2 => Sys2Proof.Machine.execBwait c nb rd rs1 rs2 s
  | .fclaim c rd rs1 rs2 => Sys2Proof.Machine.execFclaim c rd rs1 rs2 s
  | .frel c rd rs1 => Sys2Proof.Machine.execFrel c rd rs1 s
  | .barrive u ctx data => Sys2Proof.Machine.execBarrive u ctx data s
  | .syncTimeout c => Sys2Proof.Machine.execSyncTimeout c s
  | .synLose ctx => Sys2Proof.Machine.execSynLose ctx s
  | .claimMarkDone => Sys2Proof.Machine.execClaimMarkDone s
  | .barArm b data => Sys2Proof.Machine.execBarArm b data s
  | .barDisarm b => Sys2Proof.Machine.execBarDisarm b s
  | .barStatRead b => Sys2Proof.Machine.execBarStatRead b s
  | .porterTransferDone d g p parity hits => Sys2Proof.Machine.execPorterTransferDone d g p parity hits s
  | .ropPut c rd rs1 rs2 => Sys2Proof.Machine.execRopPut c rd rs1 rs2 s
  | .ropGet c rd rs1 rs2 => Sys2Proof.Machine.execRopGet c rd rs1 rs2 s
  | .ropGet3 c rd rs1 rs2 => Sys2Proof.Machine.execRopGet3 c rd rs1 rs2 s
  | .ropAtomic c rd rs1 rs2 => Sys2Proof.Machine.execRopAtomic c rd rs1 rs2 s
  | .ropSignal c rd rs1 rs2 => Sys2Proof.Machine.execRopSignal c rd rs1 rs2 s
  | .putRecv d => Sys2Proof.Machine.execPutRecv d s
  | .getRecv d => Sys2Proof.Machine.execGetRecv d s
  | .get3Recv d => Sys2Proof.Machine.execGet3Recv d s
  | .data3Recv d => Sys2Proof.Machine.execData3Recv d s
  | .atomicRecv d => Sys2Proof.Machine.execAtomicRecv d s
  | .signalRecv d => Sys2Proof.Machine.execSignalRecv d s
  | .replyRecv d => Sys2Proof.Machine.execReplyRecv d s
  | .remoteTimeout d slot => Sys2Proof.Machine.execRemoteTimeout d slot s
  | .rwinDenyRead => Sys2Proof.Machine.execRwinDenyRead s
  | .linkTrainDone p lanes vers => Sys2Proof.Machine.execLinkTrainDone p lanes vers s
  | .linkTrainFail p => Sys2Proof.Machine.execLinkTrainFail p s
  | .linkFecUncorr p codeword => Sys2Proof.Machine.execLinkFecUncorr p codeword s
  | .rsreqRecv p => Sys2Proof.Machine.execRsreqRecv p s
  | .markRecv p sent => Sys2Proof.Machine.execMarkRecv p sent s
  | .rsackRecv p freed => Sys2Proof.Machine.execRsackRecv p freed s
  | .crdRecv p freed => Sys2Proof.Machine.execCrdRecv p freed s
  | .crdSend p => Sys2Proof.Machine.execCrdSend p s
  | .linkFlitGapTimeout p => Sys2Proof.Machine.execLinkFlitGapTimeout p s
  | .linkResyncTimeout p => Sys2Proof.Machine.execLinkResyncTimeout p s
  | .pktRecv p words => Sys2Proof.Machine.execPktRecv p words s
  | .pktForward d => Sys2Proof.Machine.execPktForward d s
  | .pktStaleDiscard d => Sys2Proof.Machine.execPktStaleDiscard d s
  | .lnkVcallocWrite p hi data => Sys2Proof.Machine.execLnkVcallocWrite p hi data s
  | .lnkFence p => Sys2Proof.Machine.execLnkFence p s
  | .lnkReadmit p => Sys2Proof.Machine.execLnkReadmit p s
  | .lnkRetrain p => Sys2Proof.Machine.execLnkRetrain p s
  | .lnkAdmit p => Sys2Proof.Machine.execLnkAdmit p s
  | .lnkPark p => Sys2Proof.Machine.execLnkPark p s
  | .lnkEnWrite p en => Sys2Proof.Machine.execLnkEnWrite p en s
  | .lnkCounterRead p reg => Sys2Proof.Machine.execLnkCounterRead p reg s
  | .rteLoad data => Sys2Proof.Machine.execRteLoad data s
  | .rteLoadDone => Sys2Proof.Machine.execRteLoadDone s
  | .rteFlip => Sys2Proof.Machine.execRteFlip s
  | .rteCfgWrite data => Sys2Proof.Machine.execRteCfgWrite data s
  | .rteTimersWrite data => Sys2Proof.Machine.execRteTimersWrite data s
  | .rteCounterRead reg => Sys2Proof.Machine.execRteCounterRead reg s
  | .helloRecv p h => Sys2Proof.Machine.execHelloRecv p h s
  | .locRecv p l => Sys2Proof.Machine.execLocRecv p l s
  | .probeRecv p crcOk => Sys2Proof.Machine.execProbeRecv p crcOk s
  | .helloSend p => Sys2Proof.Machine.execHelloSend p s
  | .discElect => Sys2Proof.Machine.execDiscElect s
  | .discPeerTimeout p => Sys2Proof.Machine.execDiscPeerTimeout p s
  | .dscExpWrite p data => Sys2Proof.Machine.execDscExpWrite p data s
  | .dscFabricWrite data => Sys2Proof.Machine.execDscFabricWrite data s
  | .dscIdWrite data => Sys2Proof.Machine.execDscIdWrite data s
  | .jobAdmission q => Sys2Proof.Machine.execJobAdmission q s
  | .collOpen c rd rs2 => Sys2Proof.Machine.execCollOpen c rd rs2 s
  | .collClose c rd rs2 => Sys2Proof.Machine.execCollClose c rd rs2 s
  | .allreduce c rd rs2 => Sys2Proof.Machine.execAllreduce c rd rs2 s
  | .reduceScatter c rd rs2 => Sys2Proof.Machine.execReduceScatter c rd rs2 s
  | .allgather c rd rs2 => Sys2Proof.Machine.execAllgather c rd rs2 s
  | .broadcast c rd rs2 => Sys2Proof.Machine.execBroadcast c rd rs2 s
  | .permute c rd rs2 => Sys2Proof.Machine.execPermute c rd rs2 s
  | .alltoall c rd rs2 => Sys2Proof.Machine.execAlltoall c rd rs2 s
  | .collStart d => Sys2Proof.Machine.execCollStart d s
  | .collChunkSend d => Sys2Proof.Machine.execCollChunkSend d s
  | .chunkRecv d => Sys2Proof.Machine.execChunkRecv d s
  | .collCreditRecv d => Sys2Proof.Machine.execCollCreditRecv d s
  | .collComplete d => Sys2Proof.Machine.execCollComplete d s
  | .crrFence d => Sys2Proof.Machine.execCrrFence d s
  | .crrSelftest d => Sys2Proof.Machine.execCrrSelftest d s
  | .crrSelftestDone d pass => Sys2Proof.Machine.execCrrSelftestDone d pass s
  | .crrReadmit d => Sys2Proof.Machine.execCrrReadmit d s
  | .crrCntRead d => Sys2Proof.Machine.execCrrCntRead d s
  | .hostFrameRecv laneB words => Sys2Proof.Machine.execHostFrameRecv laneB words s
  | .hostReplyFrame => Sys2Proof.Machine.execHostReplyFrame s
  | .submitEcho => Sys2Proof.Machine.execSubmitEcho s
  | .regDeferredResult => Sys2Proof.Machine.execRegDeferredResult s
  | .regOpTimeout => Sys2Proof.Machine.execRegOpTimeout s
  | .nop q => Sys2Proof.Machine.execNop q s
  | .qwait q => Sys2Proof.Machine.execQwait q s
  | .hostCmdBadOpcode q => Sys2Proof.Machine.execHostCmdBadOpcode q s
  | .complRecordSend => Sys2Proof.Machine.execComplRecordSend s
  | .hlFrameGapTimeout laneB => Sys2Proof.Machine.execHlFrameGapTimeout laneB s
  | .hlTrainDone laneB versions => Sys2Proof.Machine.execHlTrainDone laneB versions s
  | .hlRetrainTick => Sys2Proof.Machine.execHlRetrainTick s
  | .hlkSwap => Sys2Proof.Machine.execHlkSwap s
  | .hlkRetrain laneB => Sys2Proof.Machine.execHlkRetrain laneB s
  | .hlkFence laneB => Sys2Proof.Machine.execHlkFence laneB s
  | .hlkCntRead => Sys2Proof.Machine.execHlkCntRead s
  | .sqCfgWrite q data => Sys2Proof.Machine.execSqCfgWrite q data s
  | .wmarkWrite => Sys2Proof.Machine.execWmarkWrite s
  | .errInject page data => Sys2Proof.Machine.execErrInject page data s
  | .evtSelWrite page data => Sys2Proof.Machine.execEvtSelWrite page data s
  | .evtSelRead page => Sys2Proof.Machine.execEvtSelRead page s
  | .watchdogExpire u => Sys2Proof.Machine.execWatchdogExpire u s
  | .hangTrialDone u pass => Sys2Proof.Machine.execHangTrialDone u pass s
  | .taintBackstop => Sys2Proof.Machine.execTaintBackstop s
  | .contextAbort q => Sys2Proof.Machine.execContextAbort q s
  | .rcvAbort ctx fabric => Sys2Proof.Machine.execRcvAbort ctx fabric s
  | .abortWedgeCheck wedged => Sys2Proof.Machine.execAbortWedgeCheck wedged s
  | .abortComplete => Sys2Proof.Machine.execAbortComplete s
  | .abortRelayResend => Sys2Proof.Machine.execAbortRelayResend s
  | .relayRecv p words => Sys2Proof.Machine.execRelayRecv p words s
  | .resetEngine u => Sys2Proof.Machine.execResetEngine u s
  | .resetCluster c => Sys2Proof.Machine.execResetCluster c s
  | .resetDieFunction d tr => Sys2Proof.Machine.execResetDieFunction d tr s
  | .resetWarm tr => Sys2Proof.Machine.execResetWarm tr s
  | .resetCold tr => Sys2Proof.Machine.execResetCold tr s
  | .dieFence d => Sys2Proof.Machine.execDieFence d s
  | .resetDone t selfTestsPass => Sys2Proof.Machine.execResetDone t selfTestsPass s
  | .resetFail t => Sys2Proof.Machine.execResetFail t s
  | .recoveryDone => Sys2Proof.Machine.execRecoveryDone s
  | .rcvOosack evseq => Sys2Proof.Machine.execRcvOosack evseq s
  | .rcvJobidWrite jobid => Sys2Proof.Machine.execRcvJobidWrite jobid s
  | .rcvWdlimWrite hi data elapsed => Sys2Proof.Machine.execRcvWdlimWrite hi data elapsed s
  | .rcvAbstatRead => Sys2Proof.Machine.execRcvAbstatRead s
  | .dumpRead => Sys2Proof.Machine.execDumpRead s
  | .evlLostRead d => Sys2Proof.Machine.execEvlLostRead d s
  | .lseal c rd rs1 rs2 => Sys2Proof.Machine.execLseal c rd rs1 rs2 s
  | .sealDone => Sys2Proof.Machine.execSealDone s
  | .gstepWrite c rs1 => Sys2Proof.Machine.execGstepWrite c rs1 s
  | .ldgGeomWrite data => Sys2Proof.Machine.execLdgGeomWrite data s
  | .ckmarkStart => Sys2Proof.Machine.execCkmarkStart s
  | .ckmarkEnd => Sys2Proof.Machine.execCkmarkEnd s
  | .ckmarkEmpty => Sys2Proof.Machine.execCkmarkEmpty s
  | .ldgCkWrite obs data => Sys2Proof.Machine.execLdgCkWrite obs data s
  | .ckRecompute ctx => Sys2Proof.Machine.execCkRecompute ctx s
  | .sstRecordWrite => Sys2Proof.Machine.execSstRecordWrite s
  | .sstBankErase => Sys2Proof.Machine.execSstBankErase s
  | .sstCompact => Sys2Proof.Machine.execSstCompact s
  | .sstRselWrite data => Sys2Proof.Machine.execSstRselWrite data s
  | .sstRdataRead => Sys2Proof.Machine.execSstRdataRead s
  | .pwrTick counts => Sys2Proof.Machine.execPwrTick counts s
  | .tjcapStep hot d k temp => Sys2Proof.Machine.execTjcapStep hot d k temp s
  | .bmBmlimWrite v => Sys2Proof.Machine.execBmBmlimWrite v s
  | .pwrCaplogRead => Sys2Proof.Machine.execPwrCaplogRead s
  | .droopWarnAssert d k mv => Sys2Proof.Machine.execDroopWarnAssert d k mv s
  | .droopWarnEnd d k mv => Sys2Proof.Machine.execDroopWarnEnd d k mv s
  | .droopReset d k => Sys2Proof.Machine.execDroopReset d k s
  | .drpCntRead d => Sys2Proof.Machine.execDrpCntRead d s
  | .bmShutdown v => Sys2Proof.Machine.execBmShutdown v s
  | .bmShutdownDone => Sys2Proof.Machine.execBmShutdownDone s
  | .bootLoadBegin => Sys2Proof.Machine.execBootLoadBegin s
  | .bootLoaddata data => Sys2Proof.Machine.execBootLoaddata data s
  | .bootLoadEnd => Sys2Proof.Machine.execBootLoadEnd s
  | .imageVerifyDone => Sys2Proof.Machine.execImageVerifyDone s
  | .fuseRaiseSvn target => Sys2Proof.Machine.execFuseRaiseSvn target s
  | .fuseRevoke slot => Sys2Proof.Machine.execFuseRevoke slot s
  | .fuseBurnDone readBackOk => Sys2Proof.Machine.execFuseBurnDone readBackOk s
  | .idtreeDone => Sys2Proof.Machine.execIdtreeDone s
  | .attestGo => Sys2Proof.Machine.execAttestGo s
  | .attestDone => Sys2Proof.Machine.execAttestDone s
  | .secRselWrite => Sys2Proof.Machine.execSecRselWrite s
  | .secRdataRead => Sys2Proof.Machine.execSecRdataRead s
  | .testEnter d dies => Sys2Proof.Machine.execTestEnter d dies s
  | .tstTokenWrite data => Sys2Proof.Machine.execTstTokenWrite data s
  | .testDone d res0 res1 => Sys2Proof.Machine.execTestDone d res0 res1 s
  | .jtagTapReset d => Sys2Proof.Machine.execJtagTapReset d s
  | .extest d => Sys2Proof.Machine.execExtest d s
  | .samplePreload d => Sys2Proof.Machine.execSamplePreload d s
  | .idcode d => Sys2Proof.Machine.execIdcode d s
  | .clamp d => Sys2Proof.Machine.execClamp d s
  | .highz d => Sys2Proof.Machine.execHighz d s
  | .extestPulse d => Sys2Proof.Machine.execExtestPulse d s
  | .extestTrain d => Sys2Proof.Machine.execExtestTrain d s
  | .tsttoken d bytes => Sys2Proof.Machine.execTsttoken d bytes s
  | .tstacc d op addr data => Sys2Proof.Machine.execTstacc d op addr data s
  | .bypass d code => Sys2Proof.Machine.execBypass d code s
  | .hlTrainFail laneB noVersion => Sys2Proof.Machine.execHlTrainFail laneB noVersion s
  | .phaseReady => Sys2Proof.Machine.execPhaseReady s
  | .vcmdDone => Sys2Proof.Machine.execVcmdDone s
  | .downWindowExpire p => Sys2Proof.Machine.execDownWindowExpire p s

end Sys2Proof.Machine
end

