-- ==== Sys2Proof/Machine/Tick.lean ====
section
/-! DEFINITION. What the reference clock does by itself, when no command waits (log 1). -/

namespace Sys2Proof.Machine

/-- Contexts whose checkpoint run time counts (R442). -/
def State.ckRunning (s : State) : List Nat :=
  s.regs.filterMap fun e => if e.1 % 2 ^ 26 = Pg.ldg + 0x140 ∧ e.2.getLsbD 0 = true then some (e.1 / 2 ^ 26) else none

/-- 10 ns of run time of a context; TRUN counts whole seconds. -/
def State.countRun (s : State) (ctx : Nat) : State :=
  let n := KMap.get 0 s.ldg.runNs ctx + 10
  let put := fun (s : State) (n : Nat) => s.withLdg { s.ldg with runNs := KMap.set 0 s.ldg.runNs ctx n }
  if n < 10 ^ 9 then put s n else (put s 0).addFld (bank ctx Pg.ldg) F.ldgCkobsTrun 1

/-- One edge of the 100 MHz reference clock: the time base of each die counts 10 ns, from the hub oscillator while the
reference is lost (R31, R32), the run time of checkpoints passes (R442), and the link ports train or send IDLE (R299, R304). -/
def tick (s : State) : State :=
  if !s.plat.pwrOk then s else
  let s1 := (List.range 4).foldl (fun s d => s.setTb d { s.tb d with ns := (s.now d + 10) % 2 ^ 64 }) s
  (List.range 24).foldl State.portTick (s1.ckRunning.foldl State.countRun s1)

end Sys2Proof.Machine
end

