-- ==== Sys2Proof/WellFormed.lean ====
section
/-! DEFINITION. Which commands are well formed: the lists and numbers of a command have the lengths and ranges the manual gives. The
other operands are bounded by their types. -/

namespace Sys2Proof

/-- A cell of the 256 × 256 array (R81). -/
def CellFault.wf (f : CellFault) : Bool := decide (f.row < 256 ∧ f.col < 256)

/-- A line of a controller's own unit, below the 256 GB of a member offset, in one of its channels: 32 of a stack, one half of an
LPDDR controller (R3, R212). -/
def LineError.wf (m : MemCtl) (e : LineError) : Bool :=
  match m with
  | .stack k => decide (e.unit = k.val ∧ e.moff < 2 ^ 38 ∧ e.channel < 32)
  | .lpddr k => decide ((e.unit = 20 + 2 * k.val ∨ e.unit = 21 + 2 * k.val) ∧ e.moff < 2 ^ 38 ∧ e.channel < 2)

/-- A packet is a header flit and whole payload flits, of four words each (R303). -/
def wholeFlits (ws : List W64) : Bool := decide (ws.length % 4 = 0 ∧ 4 ≤ ws.length)

/-- Well-formed commands: a descriptor has eight words (R251), counts stand for eight virtual channels (R305), a request frame has
4,096 bytes (R368), a tick counts eight classes (R456), a token has 2,944 bytes (R487), and BYPASS takes no code of another
instruction (R490). -/
def WellFormed (i : Instr) : Bool :=
  match i with
  | .tileExecute _ _ faults => faults.all CellFault.wf
  | .tileRerun _ faults => faults.all CellFault.wf
  | .scrubPass m errs => errs.lines.all (LineError.wf m)
  | .slOpenRecv m => decide (m.depth < 128)
  | .slDescRecv m => decide (m.words.length = 8)
  | .markRecv _ sent => decide (sent.length = 8)
  | .rsackRecv _ freed => decide (freed.length = 8)
  | .crdRecv _ freed => decide (freed.length = 8)
  | .pktRecv _ words => wholeFlits words
  | .hostFrameRecv _ words => decide (words.length = 512)
  | .relayRecv _ words => wholeFlits words
  | .pwrTick counts => decide (counts.length = 8)
  | .tsttoken _ bytes => decide (bytes.length ≤ 2944)
  | .bypass _ code => decide (0x06 < code ∧ code ≠ 0x10 ∧ code ≠ 0x11)
  | .regWrite _ _ _ | .powerUp _ | .powerLoss | .coldReset _ | .bridgeFlitReplay _ _ | .bridgeDown _ | .refclkLost _ | .refclkReturn _
  | .thermtrip _ _ | .islStretchRead _ _ | .tissue _ _ _ _ | .tpair _ _ _ _ | .tileCheckDone _ | .tileDrainStart _ | .tileDrainEnd _
  | .issueCapWindow _ | .strikeWindowExpire _ | .mxeFence _ | .mxeSelftest _ | .mxeSelftestDone _ _ | .mxeReadmit _ | .mxeChkRead _
  | .mxePerfRead _ | .cissue _ _ _ _ | .chainStart _ | .chainEntryClaim _ | .chainComplete _ _ | .vxeFence _ | .vxeSelftest _
  | .vxeSelftestDone _ _ | .vxeReadmit _ | .vxePerfRead _ | .cpop _ _ | .cpeek _ _ | .smovS _ _ _ | .smovG _ _ _ | .bs _ _ _ _ _ _
  | .ringRecordRelease _ | .gather _ _ _ _ | .scatter _ _ _ _ | .gatherComplete _ | .intAlu _ _ _ _ _ | .load _ _ _ _ _ _ _
  | .store _ _ _ _ _ _ _ | .compareBranch _ _ _ _ _ | .jumpAndLink _ _ _ _ | .fpOp _ _ _ _ _ _ | .systemOp _ _ | .cluCtxWrite _ _
  | .coreRun _ _ | .coreStop _ _ | .hstSnapshot _ _ _ | .hstSnapshotClear _ _ _ | .hstLoad _ _ _ | .hstOpDone _ | .hsnapWrite _ _ _
  | .hstOwnWrite _ _ _ | .ctrClear _ | .ctrAdd _ _ | .ctrEvtRead _ _ | .mapRgnValidate _ _ | .mapRgnClose _ | .mapQuiesceDone
  | .tollRefill _ | .tollBktWrite _ _ _ | .tollHeldRead _ _ | .stackTempReport _ _ | .throttleFallStep _ | .msTempLost _
  | .lpTempReport _ _ | .mscFenceWrite _ _ | .lpcFenceWrite _ _ | .mscEccRead _ | .updateStart | .uuChunkRun _ _ | .journalMirrorAck _
  | .uuSegmentPass _ | .updateCommit | .uld _ _ _ | .ust _ _ _ | .ukset _ _ _ | .uadd _ _ _ _ _ | .usub _ _ _ _ _ | .umul _ _ _ _ _
  | .udiv _ _ _ _ _ | .ufma _ _ _ _ _ | .usqrt _ _ _ _ | .umax _ _ _ _ _ | .umin _ _ _ _ _ | .uabs _ _ _ _ | .uneg _ _ _ _ | .usgn _ _ _ _
  | .ucvt _ _ _ _ | .uwadd _ _ _ _ | .uloop _ | .uend _ | .uuFence _ | .uuSelftest _ | .uuSelftestDone _ _ | .uuReadmit _ | .uuPerfRead _
  | .updPerfRead _ | .qpush _ _ _ _ _ | .qpop _ _ _ _ _ | .qdone _ _ _ | .vacq _ _ _ _ | .vrel _ _ _ _ | .fbeg _ _ _ | .fend _ _ _
  | .taint _ _ _ _ | .slCopyDone _ _ | .slAcceptRecv _ | .slRefuseRecv _ | .slAckRecv _ _ _ | .slConsumedSend _ | .slCreditRecv _ _
  | .slResend _ | .slTaintRecv _ _ | .slqIncfgWrite _ _ _ | .slqOutcfgWrite _ _ _ | .stgStageWrite _ _ | .vcmdActivate _ | .vcmdRetire _
  | .stgTclr _ | .ldfe _ _ _ _ | .ldfn _ _ _ _ | .stef _ _ _ _ _ | .finc _ _ _ _ | .fdec _ _ _ _ | .fini _ _ _ _ _ | .fsig _ _ _ _
  | .swait _ _ _ _ | .barr _ _ _ _ | .bwait _ _ _ _ _ | .fclaim _ _ _ _ | .frel _ _ _ | .barrive _ _ _ | .syncTimeout _ | .synLose _
  | .claimMarkDone | .barArm _ _ | .barDisarm _ | .barStatRead _ | .porterTransferDone _ _ _ _ _ | .ropPut _ _ _ _ | .ropGet _ _ _ _
  | .ropGet3 _ _ _ _ | .ropAtomic _ _ _ _ | .ropSignal _ _ _ _ | .putRecv _ | .getRecv _ | .get3Recv _ | .data3Recv _ | .atomicRecv _
  | .signalRecv _ | .replyRecv _ | .remoteTimeout _ _ | .rwinDenyRead | .linkTrainDone _ _ _ | .linkTrainFail _ | .linkFecUncorr _ _
  | .rsreqRecv _ | .crdSend _ | .linkFlitGapTimeout _ | .linkResyncTimeout _ | .pktForward _ | .pktStaleDiscard _ | .lnkVcallocWrite _ _ _
  | .lnkFence _ | .lnkReadmit _ | .lnkRetrain _ | .lnkAdmit _ | .lnkPark _ | .lnkEnWrite _ _ | .lnkCounterRead _ _ | .rteLoad _
  | .rteLoadDone | .rteFlip | .rteCfgWrite _ | .rteTimersWrite _ | .rteCounterRead _ | .helloRecv _ _ | .locRecv _ _ | .probeRecv _ _
  | .helloSend _ | .discElect | .discPeerTimeout _ | .dscExpWrite _ _ | .dscFabricWrite _ | .dscIdWrite _ | .jobAdmission _
  | .collOpen _ _ _ | .collClose _ _ _ | .allreduce _ _ _ | .reduceScatter _ _ _ | .allgather _ _ _ | .broadcast _ _ _ | .permute _ _ _
  | .alltoall _ _ _ | .collStart _ | .collChunkSend _ | .chunkRecv _ | .collCreditRecv _ | .collComplete _ | .crrFence _ | .crrSelftest _
  | .crrSelftestDone _ _ | .crrReadmit _ | .crrCntRead _ | .hostReplyFrame | .submitEcho | .regDeferredResult | .regOpTimeout | .nop _
  | .qwait _ | .hostCmdBadOpcode _ | .complRecordSend | .hlFrameGapTimeout _ | .hlTrainDone _ _ | .hlRetrainTick | .hlkSwap | .hlkRetrain _
  | .hlkFence _ | .hlkCntRead | .sqCfgWrite _ _ | .wmarkWrite | .errInject _ _ | .evtSelWrite _ _ | .evtSelRead _ | .watchdogExpire _
  | .hangTrialDone _ _ | .taintBackstop | .contextAbort _ | .rcvAbort _ _ | .abortWedgeCheck _ | .abortComplete | .abortRelayResend
  | .resetEngine _ | .resetCluster _ | .resetDieFunction _ _ | .resetWarm _ | .resetCold _ | .dieFence _ | .resetDone _ _ | .resetFail _
  | .recoveryDone | .rcvOosack _ | .rcvJobidWrite _ | .rcvWdlimWrite _ _ _ | .rcvAbstatRead | .dumpRead | .evlLostRead _ | .lseal _ _ _ _
  | .sealDone | .gstepWrite _ _ | .ldgGeomWrite _ | .ckmarkStart | .ckmarkEnd | .ckmarkEmpty | .ldgCkWrite _ _ | .ckRecompute _
  | .sstRecordWrite | .sstBankErase | .sstCompact | .sstRselWrite _ | .sstRdataRead | .tjcapStep _ _ _ _ | .bmBmlimWrite _ | .pwrCaplogRead
  | .droopWarnAssert _ _ _ | .droopWarnEnd _ _ _ | .droopReset _ _ | .drpCntRead _ | .bmShutdown _ | .bmShutdownDone | .bootLoadBegin
  | .bootLoaddata _ | .bootLoadEnd | .imageVerifyDone | .fuseRaiseSvn _ | .fuseRevoke _ | .fuseBurnDone _ | .idtreeDone | .attestGo
  | .attestDone | .secRselWrite | .secRdataRead | .testEnter _ _ | .tstTokenWrite _ | .testDone _ _ _ | .jtagTapReset _ | .extest _
  | .samplePreload _ | .idcode _ | .clamp _ | .highz _ | .extestPulse _ | .extestTrain _ | .tstacc _ _ _ _ | .hlTrainFail _ _ | .phaseReady
  | .vcmdDone | .downWindowExpire _ => true

end Sys2Proof
end

