-- ==== Sys2Proof/Safety.lean ====
section
/-! DEFINITION. What a safe step is, in the terms the statements use. -/

namespace Sys2Proof.Machine

/-- The state that a step answers with, if it answers one. -/
def nextOf : Host.Outcome State Fault Refusal → Option State
  | .next t => some t
  | _ => none

/-- A step that neither faults nor is refused. -/
def Completes (i : Instr) (s : State) : Prop := ∃ t, exec i s = .next t

/-- Memory is in its canonical form: in each of its sparse maps keys rise strictly and no entry equals what an unlisted key reads as. -/
def Memory.wf (m : Mem) : Bool :=
  KMap.wf (fun _ => unlisted) m.bytes && KMap.wf (fun _ => false) m.full && KMap.wf (fun _ => false) m.poison &&
    KMap.wf (fun _ => false) m.lines

/-- Memory and the register map are in canonical form: what holds its reset value is not listed. -/
def Canonical (s : State) : Prop := Memory.wf s.mem = true ∧ KMap.wf resetOf s.regs = true

/-- The package is held in reset by the test port only while some TAP holds a boundary instruction (R491). -/
def TapOk (s : State) : Prop := s.tap.hold = true → ((List.range 4).any fun d => Ir.boundary (s.ir d)) = true

/-- What every step keeps: the canonical forms, TapOk, and that the waiting commands are well formed. -/
def Inv (s : State) : Prop := Canonical s ∧ TapOk s ∧ ∀ c ∈ s.pending, WellFormed c = true

/-! ## What a command may change -/

/-- The parts of State, one per field. -/
inductive Part where
  | pending | free | rdData | regStatus | regs | errCtx | events | plat | sst | cores | scratch | clusters | banks | mxes | vxes | bins | work
  | hstOp | mem | ms | upd | commit | uus | journals | stg | sync | net | cr | host | rcv | ldg | pwr | boot | tap
  deriving DecidableEq, Repr

/-- Two states have the same contents of a part. -/
def Part.same : Part → State → State → Prop
  | .pending, s, t => t.pending = s.pending
  | .free, s, t => t.free = s.free
  | .rdData, s, t => t.rdData = s.rdData
  | .regStatus, s, t => t.regStatus = s.regStatus
  | .regs, s, t => t.regs = s.regs
  | .errCtx, s, t => t.errCtx = s.errCtx
  | .events, s, t => t.events = s.events
  | .plat, s, t => t.plat = s.plat
  | .sst, s, t => t.sst = s.sst
  | .cores, s, t => t.cores = s.cores
  | .scratch, s, t => t.scratch = s.scratch
  | .clusters, s, t => t.clusters = s.clusters
  | .banks, s, t => t.banks = s.banks
  | .mxes, s, t => t.mxes = s.mxes
  | .vxes, s, t => t.vxes = s.vxes
  | .bins, s, t => t.bins = s.bins
  | .work, s, t => t.work = s.work
  | .hstOp, s, t => t.hstOp = s.hstOp
  | .mem, s, t => t.mem = s.mem
  | .ms, s, t => t.ms = s.ms
  | .upd, s, t => t.upd = s.upd
  | .commit, s, t => t.commit = s.commit
  | .uus, s, t => t.uus = s.uus
  | .journals, s, t => t.journals = s.journals
  | .stg, s, t => t.stg = s.stg
  | .sync, s, t => t.sync = s.sync
  | .net, s, t => t.net = s.net
  | .cr, s, t => t.cr = s.cr
  | .host, s, t => t.host = s.host
  | .rcv, s, t => t.rcv = s.rcv
  | .ldg, s, t => t.ldg = s.ldg
  | .pwr, s, t => t.pwr = s.pwr
  | .boot, s, t => t.boot = s.boot
  | .tap, s, t => t.tap = s.tap

/-- Every part but the queue: what a command may change that can start a cascade (a ladder's recovery, a reset, the loss of
power, a register write that starts another command). -/
def Part.most : List Part :=
  [.free, .rdData, .regStatus, .regs, .errCtx, .events, .plat, .sst, .cores, .scratch, .clusters, .banks, .mxes, .vxes, .bins, .work, .hstOp,
   .mem, .ms, .upd, .commit, .uus, .journals, .stg, .sync, .net, .cr, .host, .rcv, .ldg, .pwr, .boot, .tap]

/-- The parts of the state that a command may change. -/
def touched : Instr → List Part
  | .regWrite _ _ _ | .powerUp _ | .powerLoss | .coldReset _ | .tileExecute _ _ _ | .tileCheckDone _ | .tileRerun _ _
    | .tileDrainEnd _ | .chainStart _ | .chainEntryClaim _ | .chainComplete _ _ | .gatherComplete _
    | .load _ _ _ _ _ _ _ | .store _ _ _ _ _ _ _ | .updateStart | .uuChunkRun _ _ | .journalMirrorAck _
    | .uuSegmentPass _ | .updateCommit | .uend _ | .uuFence _ | .taint _ _ _ _ | .slCopyDone _ _ | .slDescRecv _
    | .slAckRecv _ _ _ | .slResend _ | .slTaintRecv _ _ | .ldfe _ _ _ _ | .ldfn _ _ _ _ | .stef _ _ _ _ _
    | .finc _ _ _ _ | .fdec _ _ _ _ | .fini _ _ _ _ _ | .porterTransferDone _ _ _ _ _ | .ropPut _ _ _ _ | .putRecv _
    | .getRecv _ | .get3Recv _ | .data3Recv _ | .atomicRecv _ | .replyRecv _ | .remoteTimeout _ _ | .pktRecv _ _
    | .collStart _ | .collChunkSend _ | .chunkRecv _ | .hostFrameRecv _ _ | .regDeferredResult | .watchdogExpire _
    | .hangTrialDone _ _ | .contextAbort _ | .rcvAbort _ _ | .abortWedgeCheck _ | .relayRecv _ _ | .resetEngine _
    | .resetCluster _ | .resetDieFunction _ _ | .resetWarm _ | .resetCold _ | .dieFence _ | .resetDone _ _
    | .resetFail _ | .recoveryDone | .rcvWdlimWrite _ _ _ | .sealDone | .droopReset _ _ | .tstacc _ _ _ _ => Part.most
  | .bridgeFlitReplay _ _ => [.plat]
  | .bridgeDown _ | .thermtrip _ _ | .droopWarnEnd _ _ _ => [.regs, .errCtx, .events, .plat, .sst, .sync]
  | .refclkLost _ => [.regs, .errCtx, .events, .plat, .sst, .sync, .net, .host]
  | .refclkReturn _ => [.regs, .plat, .net]
  | .islStretchRead _ _ => [.rdData, .regs, .plat]
  | .tissue _ _ _ _ | .tpair _ _ _ _ | .gather _ _ _ _ | .scatter _ _ _ _ => [.cores, .clusters]
  | .tileDrainStart _ => [.regs, .mxes]
  | .issueCapWindow _ | .strikeWindowExpire _ | .mxeSelftestDone _ _ | .vxeSelftestDone _ _ | .ctrClear _
    | .mapQuiesceDone | .uuSelftestDone _ _ | .rteTimersWrite _ | .crrSelftestDone _ _ | .evtSelWrite _ _
    | .rcvJobidWrite _ | .ldgCkWrite _ _ | .ckRecompute _ | .testDone _ _ _ | .downWindowExpire _ => [.regs]
  | .mxeFence _ => [.regs, .errCtx, .events, .sst, .clusters, .mxes, .sync]
  | .mxeSelftest _ | .vxeSelftest _ | .ctrAdd _ _ | .uuSelftest _ | .slRefuseRecv _ | .lnkAdmit _ | .lnkPark _
    | .rteCfgWrite _ | .crrSelftest _ | .hlkSwap | .sqCfgWrite _ _ | .errInject _ _ => [.regs, .errCtx]
  | .mxeReadmit _ | .vxeReadmit _ | .uuReadmit _ | .lnkReadmit _ | .crrReadmit _ | .hlkRetrain _ | .rcvOosack _ => [.regs, .errCtx, .sst, .sync]
  | .mxeChkRead _ | .ctrEvtRead _ _ | .mscEccRead _ | .uuPerfRead _ | .updPerfRead _ | .barStatRead _ | .rwinDenyRead
    | .rteCounterRead _ | .crrCntRead _ | .hlkCntRead | .evtSelRead _ | .rcvAbstatRead | .evlLostRead _ | .pwrCaplogRead
    | .drpCntRead _ => [.rdData, .regs]
  | .mxePerfRead _ | .vxePerfRead _ | .lnkCounterRead _ _ => [.rdData, .regs, .work]
  | .cissue _ _ _ _ | .smovS _ _ _ | .smovG _ _ _ | .bs _ _ _ _ _ _ => [.cores, .clusters, .sync]
  | .vxeFence _ => [.regs, .errCtx, .events, .sst, .clusters, .vxes, .sync]
  | .cpop _ _ => [.regs, .errCtx, .cores, .clusters, .sync]
  | .cpeek _ _ => [.regs, .errCtx, .cores, .clusters]
  | .ringRecordRelease _ => [.cores, .clusters, .sync, .rcv]
  | .intAlu _ _ _ _ _ | .compareBranch _ _ _ _ _ => [.free, .regs, .errCtx, .cores]
  | .jumpAndLink _ _ _ _ | .fpOp _ _ _ _ _ _ => [.regs, .errCtx, .cores]
  | .systemOp _ _ => [.free, .regs, .errCtx, .events, .sst, .cores, .bins, .hstOp, .mem, .sync, .pwr]
  | .cluCtxWrite _ _ | .coreStop _ _ | .barr _ _ _ _ | .syncTimeout _ | .synLose _ | .barDisarm _ => [.free, .regs, .errCtx, .events, .sst, .cores, .sync, .pwr]
  | .coreRun _ _ | .gstepWrite _ _ => [.regs, .cores]
  | .hstSnapshot _ _ _ | .hstSnapshotClear _ _ _ | .hstLoad _ _ _ => [.regs, .errCtx, .bins, .hstOp, .mem]
  | .hstOpDone _ => [.regs, .hstOp]
  | .hsnapWrite _ _ _ => [.regs, .errCtx, .cores, .bins, .hstOp, .mem]
  | .hstOwnWrite _ _ _ => [.regs, .bins]
  | .mapRgnValidate _ _ | .mapRgnClose _ => [.regs, .errCtx, .mem, .ms]
  | .tollRefill _ | .tollBktWrite _ _ _ | .throttleFallStep _ => [.regs, .ms]
  | .tollHeldRead _ _ => [.rdData, .regs, .ms]
  | .stackTempReport _ _ => [.regs, .errCtx, .events, .plat, .sst, .ms, .sync]
  | .msTempLost _ | .lpTempReport _ _ => [.regs, .errCtx, .events, .sst, .ms, .sync]
  | .scrubPass _ _ => [.regs, .errCtx, .events, .sst, .mem, .sync, .host]
  | .mscFenceWrite _ _ | .hlFrameGapTimeout _ | .hlkFence _ | .hlTrainFail _ _ => [.regs, .errCtx, .events, .sst, .sync, .host]
  | .lpcFenceWrite _ _ | .dscExpWrite _ _ | .bmBmlimWrite _ => [.regs, .errCtx, .events, .sst, .sync]
  | .uld _ _ _ | .ust _ _ _ | .uadd _ _ _ _ _ | .usub _ _ _ _ _ | .umul _ _ _ _ _ | .udiv _ _ _ _ _ | .ufma _ _ _ _ _
    | .usqrt _ _ _ _ | .umax _ _ _ _ _ | .umin _ _ _ _ _ | .uabs _ _ _ _ | .uneg _ _ _ _ | .usgn _ _ _ _ | .ucvt _ _ _ _
    | .uwadd _ _ _ _ => [.rdData, .uus]
  | .ukset _ _ _ => [.cores, .upd, .uus]
  | .uloop _ => [.rdData, .regs, .cores, .scratch, .mem, .ms, .upd, .uus]
  | .qpush _ _ _ _ _ | .qpop _ _ _ _ _ | .slCreditRecv _ _ | .slqIncfgWrite _ _ _ | .slqOutcfgWrite _ _ _
    | .stgStageWrite _ _ => [.free, .regs, .errCtx, .cores, .scratch, .ms, .stg, .sync, .net]
  | .qdone _ _ _ => [.regs, .cores, .stg]
  | .vacq _ _ _ _ => [.regs, .errCtx, .cores, .scratch, .mem]
  | .vrel _ _ _ _ => [.regs, .errCtx, .cores, .mem]
  | .fbeg _ _ _ | .fend _ _ _ => [.cores, .stg]
  | .slOpenRecv _ => [.regs, .stg, .net]
  | .slAcceptRecv _ => [.regs, .stg]
  | .slConsumedSend _ | .stgTclr _ => [.stg]
  | .vcmdActivate _ | .vcmdRetire _ => [.regs, .errCtx, .stg]
  | .fsig _ _ _ _ | .fclaim _ _ _ _ | .frel _ _ _ => [.regs, .errCtx, .cores, .sync]
  | .swait _ _ _ _ => [.free, .regs, .errCtx, .cores, .sync]
  | .bwait _ _ _ _ _ | .barrive _ _ _ => [.regs, .errCtx, .events, .sst, .cores, .sync, .pwr]
  | .claimMarkDone => [.regs, .mem, .sync]
  | .barArm _ _ => [.regs, .errCtx, .sync]
  | .ropGet _ _ _ _ | .ropGet3 _ _ _ _ | .ropAtomic _ _ _ _ | .ropSignal _ _ _ _ => [.free, .rdData, .regs, .errCtx, .plat, .sst, .cores, .work, .ms, .sync, .net, .rcv, .boot]
  | .signalRecv _ => [.regs, .cores, .sync, .net]
  | .linkTrainDone _ _ _ => [.rdData, .regs, .errCtx, .events, .sst, .work, .uus, .sync, .net]
  | .linkTrainFail _ | .linkFlitGapTimeout _ | .linkResyncTimeout _ | .lnkFence _ | .discElect | .discPeerTimeout _
    | .dscFabricWrite _ | .dscIdWrite _ => [.regs, .errCtx, .events, .sst, .sync, .net]
  | .linkFecUncorr _ _ | .lnkVcallocWrite _ _ _ | .helloRecv _ _ | .locRecv _ _ => [.regs, .errCtx, .events, .sst, .work, .sync, .net]
  | .rsreqRecv _ | .rsackRecv _ _ | .crdRecv _ _ | .crdSend _ | .probeRecv _ _ | .helloSend _ => [.work, .net]
  | .markRecv _ _ | .pktForward _ => [.regs, .work, .net]
  | .pktStaleDiscard _ | .lnkEnWrite _ _ => [.regs, .net]
  | .lnkRetrain _ | .rteLoad _ | .rteLoadDone | .rteFlip => [.regs, .errCtx, .net]
  | .jobAdmission _ => [.regs, .mem, .upd, .net, .host]
  | .collOpen _ _ _ | .collClose _ _ _ | .allreduce _ _ _ | .reduceScatter _ _ _ | .allgather _ _ _ | .broadcast _ _ _
    | .permute _ _ _ | .alltoall _ _ _ => [.regs, .errCtx, .cores, .mem, .ms, .cr]
  | .collCreditRecv _ => [.regs, .mem, .net, .cr]
  | .collComplete _ => [.regs, .mem, .ms, .cr]
  | .crrFence _ => [.free, .regs, .errCtx, .events, .sst, .cores, .mem, .ms, .sync, .cr, .pwr]
  | .hostReplyFrame => [.net, .host]
  | .submitEcho | .nop _ | .qwait _ | .hostCmdBadOpcode _ => [.upd, .host]
  | .regOpTimeout | .bmShutdownDone => [.host]
  | .complRecordSend => [.free, .regs, .host]
  | .hlTrainDone _ _ => [.regs, .errCtx, .events, .plat, .sst, .sync, .host]
  | .hlRetrainTick => [.regs, .host]
  | .wmarkWrite => [.regs, .sst, .sync]
  | .taintBackstop => [.regs, .errCtx, .events, .sst, .stg, .sync, .rcv]
  | .abortComplete => [.regs, .errCtx, .events, .sst, .sync, .host, .rcv]
  | .abortRelayResend => [.net, .rcv]
  | .dumpRead => [.rdData, .regs, .sst, .sync, .rcv]
  | .lseal _ _ _ _ => [.cores, .ldg]
  | .ldgGeomWrite _ | .ckmarkEnd => [.regs, .errCtx, .ldg]
  | .ckmarkStart => [.ldg]
  | .ckmarkEmpty => [.regs, .ldg]
  | .sstRecordWrite => [.regs, .sst, .banks, .sync]
  | .sstBankErase => [.sst, .banks]
  | .sstCompact => [.regs, .sst, .banks]
  | .sstRselWrite _ => [.regs, .sst]
  | .sstRdataRead => [.rdData, .sst]
  | .pwrTick _ | .tjcapStep _ _ _ _ => [.regs, .errCtx, .events, .sst, .sync, .pwr]
  | .droopWarnAssert _ _ _ => [.regs, .plat]
  | .bmShutdown _ => [.regs, .sst, .sync, .host]
  | .bootLoadBegin | .bootLoaddata _ => [.regs, .boot]
  | .bootLoadEnd | .fuseRaiseSvn _ | .fuseRevoke _ => [.regs, .errCtx, .boot]
  | .imageVerifyDone | .fuseBurnDone _ | .idtreeDone | .attestDone => [.regs, .errCtx, .events, .sst, .sync, .boot]
  | .attestGo => [.regs, .errCtx, .sst, .sync, .boot]
  | .secRselWrite => [.boot]
  | .secRdataRead => [.rdData, .boot]
  | .testEnter _ _ => [.regs, .errCtx, .events, .plat, .sst, .sync, .host, .boot]
  | .tstTokenWrite _ => [.free, .regs, .errCtx, .boot]
  | .jtagTapReset _ | .extest _ | .samplePreload _ | .clamp _ | .highz _ | .extestPulse _ | .extestTrain _ | .bypass _ _ => [.mem, .tap]
  | .idcode _ => [.rdData, .mem, .tap]
  | .tsttoken _ _ => [.free, .regs, .errCtx, .mem, .boot, .tap]
  | .phaseReady => [.free, .regs, .errCtx, .events, .sst, .sync, .net, .host, .rcv, .boot]
  | .vcmdDone => [.regs, .errCtx, .mem, .stg]

end Sys2Proof.Machine
end

