-- ==== Sys2Proof/Certificates/Slice0/Obligations.lean ====
section
/-! DEFINITION. The statements about the model: first what holds of every command, then the rules that say what the commands and
the machine do, family by family. A statement of the form "exec answers the next state that an operation gives" says under
which conditions on the state and the operands a command completes, and by which of the model's operations. -/

open Sys2Proof Sys2Proof.Machine

/-- One step: the command at the front of the queue runs on the state with the queue's rest, and its outcome is the step's; on an empty queue one reference-clock
edge passes (the model's choice, log 1). -/
def Obligations.StepTakesFront : Prop := (∀ (c : Instr) (rest : List Instr) (s : State), s.pending = c :: rest → step s = exec c (s.withPending rest)) ∧
  (∀ s : State, s.pending = [] → step s = .next (tick s) ∧ (tick s).pending = [])

/-- No command is refused or stopped: in every state each of the 317 commands answers a next state (an event whose condition does not hold changes nothing: the
model's choice, log 5). -/
def Obligations.EveryCommandCompletes : Prop := ∀ (c : Instr) (s : State), ∃ t, exec c s = .next t

/-- A command's effect leaves the queue of waiting commands as it is. -/
def Obligations.QueueUntouched : Prop := ∀ (c : Instr) (s t : State), exec c s = .next t → t.pending = s.pending

/-- The frame of every command: a part of the state that the table `touched` does not list for the command is as it was after it. -/
def Obligations.CommandsTouchOnlyTheirParts : Prop := ∀ (c : Instr) (s t : State) (p : Part), exec c s = .next t → p ∉ touched c → p.same s t

/-- An invariant that every step keeps: memory and the register map are in canonical form, the package is held in reset by a test port only while some port holds
a boundary instruction (R491), and the waiting commands are well formed. -/
def Obligations.InvariantKept : Prop := ∀ s t : State, Inv s → step s = .next t → Inv t

/-- The state after reset meets the invariant; its queue is empty, every register holds its Reset column (R17) but for the few whose column is a dash and that
`regsAtReset` lists (the model's choice, logs 4 and 11), no memory, poison or full bit is listed, no claim is held, no core of a cluster runs and no command,
collective or packet is in hand. -/
def Obligations.AfterReset : Prop := Inv State.reset ∧ State.reset.pending = [] ∧ (∀ k, k ∉ regsAtReset.map (·.1) → State.reset.reg k = resetOf k) ∧ (∀ k, State.reset.byteKey k = unlisted) ∧
  (∀ k, State.reset.fullAt k = false) ∧ (∀ k, State.reset.poisonAt k = false) ∧ (∀ i, KMap.get none State.reset.sync.claims i = none) ∧
  (∀ c : CoreNo, c.val < 336 → State.reset.coreRuns c = false) ∧ State.reset.upd = [] ∧ State.reset.cr.colls = [] ∧ State.reset.net.held = [] ∧ State.reset.net.ops = [] ∧
  State.reset.sync.waiters = [] ∧ State.reset.stg.flight = [] ∧ State.reset.stg.taints = [] ∧ State.reset.ldg.seals = []

/-- Register accesses of another size or alignment (R13): a write of the host to a powered package completes with REG_SIZE, shown in regStatus, and a register
operation of a request frame completes with REG_SIZE; neither has an effect beside. It says under which conditions this command completes: regWrite. -/
def Obligations.RegisterSizes : Prop := (∀ (addr : BitVec 26) (size : BitVec 2) (data : W64) (s : State), s.plat.pwrOk = true → (size ≠ 3 ∨ addr.toNat % 8 ≠ 0) →
    exec (.regWrite addr size data) s = .next (s.withRegStatus St.regSize)) ∧
  (∀ (o : RegOp) (s : State), (o.size ≠ 3 ∨ o.addr.toNat % 8 ≠ 0) → s.regEffect o = some (o.res St.regSize 0, s))

/-- Access codes of a register's bits (R15, R16): a written bit of access RW is stored, a 1 clears a W1C bit and sets a W1S bit, a 0 leaves either, and every
other bit, reserved ones included, ignores the write. -/
def Obligations.AccessCodes : Prop := ∀ (k : Nat) (r : RegRow) (data : W64) (s : State) (i : Nat), rowOf k = some r → i < 64 →
    (r.rw.testBit i = true → ((s.plainWrite k data).reg k).getLsbD i = data.getLsbD i) ∧
    (r.w1c.testBit i = true → ((s.plainWrite k data).reg k).getLsbD i = ((s.reg k).getLsbD i && !data.getLsbD i)) ∧
    (r.w1s.testBit i = true → ((s.plainWrite k data).reg k).getLsbD i = ((s.reg k).getLsbD i || data.getLsbD i)) ∧
    (r.rw.testBit i = false → r.w1c.testBit i = false → r.w1s.testBit i = false → ((s.plainWrite k data).reg k).getLsbD i = (s.reg k).getLsbD i)

/-- Memory of a cluster reads as it was written last (R156, R189): a store of n bytes, little-endian, is what a load of the same bytes gives, every other byte of
the memory is as it was, and the canonical form is kept. -/
def Obligations.StoredBytesReadBack : Prop := ∀ (s : State) (l n v c : Nat), (∀ i, i < n → s.place (l + i) = some (.cluster c)) → s.placeFenced (.cluster c) = false →
    (s.storeNat l n v).loadNat l n = v % 2 ^ (8 * n) ∧ (∀ k, (k < l ∨ l + n ≤ k) → (s.storeNat l n v).byteKey k = s.byteKey k) ∧
    (Memory.wf s.mem = true → Memory.wf (s.storeNat l n v).mem = true)

/-- The bins of a histogram stream (R173): zero, the finite values by floor(log2 |v|), infinities and NaN; signs are not kept, and a bin stays at 2⁶⁴ − 1. -/
def Obligations.HistogramBins : Prop := (∀ (n : Bool) (e : Int), histBin (.fin n 0 e) = 0) ∧ (∀ n : Bool, histBin (.inf n) = 63) ∧ histBin .nan = 63 ∧
  (∀ (n : Bool) (m a : Nat) (e : Int), 2 ^ a ≤ m → m < 2 ^ (a + 1) →
    (a + e ≤ -40 → histBin (.fin n m e) = 1) ∧ (-39 ≤ a + e → a + e ≤ 20 → (histBin (.fin n m e) : Int) = a + e + 41) ∧
    (21 ≤ a + e → histBin (.fin n m e) = 62)) ∧
  (∀ (d st b k : Nat) (s : State), (s.addBin d st b k).bin d st b = min (2 ^ 64 - 1) (s.bin d st b + k) ∧
    (∀ d' st' b', b < 64 → b' < 64 → st < 256 → st' < 256 → (d', st', b') ≠ (d, st, b) → (s.addBin d st b k).bin d' st' b' = s.bin d' st' b'))

/-- The bucket of a tollgate (R206, R207, R217): a request of up to 256 bytes costs one token per 64 bytes; it is admitted when the bucket is off, or when none
waits before it and the level covers it; else it is held. A refill adds RATE up to DEPTH and admits held requests in issue order as far as the level goes.
Other buckets are not touched. A refill of a die serves its 64 buckets, and a write of a bucket keeps DEPTH at least 4. It says under which conditions these
commands complete: tollRefill, tollBktWrite. -/
def Obligations.TollgateBuckets : Prop := (∀ n, 0 < n → n ≤ 256 → tollCosts n = [(n + 63) / 64]) ∧
  (∀ (s : State) (d b c : Nat), s.bitF (Pg.toll d + 8 * b) F.tollBktEn = false → s.tollRequest d b c = s ∧ s.refill d b = s) ∧
  (∀ (s : State) (d b c : Nat), s.bitF (Pg.toll d + 8 * b) F.tollBktEn = true →
    (s.heldQ d b = [] → c ≤ s.fld (Pg.toll d + 8 * b) F.tollLevelLevel →
      (s.tollRequest d b c).fld (Pg.toll d + 8 * b) F.tollLevelLevel = s.fld (Pg.toll d + 8 * b) F.tollLevelLevel - c ∧ (s.tollRequest d b c).heldQ d b = []) ∧
    ((s.heldQ d b ≠ [] ∨ s.fld (Pg.toll d + 8 * b) F.tollLevelLevel < c) →
      (s.tollRequest d b c).heldQ d b = s.heldQ d b ++ [c] ∧ (s.tollRequest d b c).fld (Pg.toll d + 8 * b) F.tollLevelLevel = s.fld (Pg.toll d + 8 * b) F.tollLevelLevel) ∧
    (∀ b', b' ≠ b → b' < 64 → b < 64 → (s.tollRequest d b c).heldQ d b' = s.heldQ d b' ∧ (s.refill d b).heldQ d b' = s.heldQ d b' ∧
      (s.tollRequest d b c).fld (Pg.toll d + 8 * b') F.tollLevelLevel = s.fld (Pg.toll d + 8 * b') F.tollLevelLevel ∧
      (s.refill d b).fld (Pg.toll d + 8 * b') F.tollLevelLevel = s.fld (Pg.toll d + 8 * b') F.tollLevelLevel) ∧
    (∃ served, s.heldQ d b = served ++ (s.refill d b).heldQ d b ∧
      (s.refill d b).fld (Pg.toll d + 8 * b) F.tollLevelLevel + served.sum =
        min (min (s.fld (Pg.toll d + 8 * b) F.tollLevelLevel) (s.fld (Pg.toll d + 8 * b) F.tollBktDepth) + s.fld (Pg.toll d + 8 * b) F.tollBktRate) (s.fld (Pg.toll d + 8 * b) F.tollBktDepth) ∧
      (∀ c rest, (s.refill d b).heldQ d b = c :: rest → (s.refill d b).fld (Pg.toll d + 8 * b) F.tollLevelLevel < c))) ∧
  (∀ (d : Die) (s : State), exec (.tollRefill d) s = .next ((List.range 64).foldl (fun s b => s.refill d b) s)) ∧
  (∀ (d : Die) (b : Fin 64) (data : W64) (s : State), ∃ t, exec (.tollBktWrite d b data) s = .next t ∧ 4 ≤ t.fld (Pg.toll d + 8 * b) F.tollBktDepth ∧
    (t.bitF (Pg.toll d + 8 * b) F.tollBktEn = true → 1 ≤ t.fld (Pg.toll d + 8 * b) F.tollBktRate))

/-- The flight table (R256): fbeg adds one to the context's entry of the sequence, or allocates an entry of count one if fewer than 96 are held and the
partition's contexts hold fewer than FCAP; else FLIGHT_FULL and nothing changes; a count at 65,535 gives PROTOCOL_ERR. fend takes one off, frees the entry at
zero, and without an entry gives REF_UNDERFLOW with nothing changed. -/
def Obligations.FlightTable : Prop := ∀ (ctx : Nat) (id : W32) (s : State),
    (∀ (l r : List Flight) (n : Nat), s.stg.flight = l ++ ⟨ctx, id, n⟩ :: r → (∀ f ∈ l ++ r, ¬ (f.ctx = ctx ∧ f.seqid = id)) →
      (n ≠ 65535 → (s.fbeg ctx id).1 = St.ok ∧ (s.fbeg ctx id).2 = s.setFlight (l ++ ⟨ctx, id, n + 1⟩ :: r)) ∧
      (n = 65535 → s.fbeg ctx id = (St.protocolErr, s)) ∧
      (1 < n → (s.fend ctx id).1 = St.ok ∧ (s.fend ctx id).2 = s.setFlight (l ++ ⟨ctx, id, n - 1⟩ :: r)) ∧
      (n = 1 → (s.fend ctx id).1 = St.ok ∧ (s.fend ctx id).2 = s.setFlight (l ++ r))) ∧
    ((∀ f ∈ s.stg.flight, ¬ (f.ctx = ctx ∧ f.seqid = id)) →
      s.fend ctx id = (St.refUnderflow, s) ∧
      (s.stg.flight.length < 96 → s.stg.flight.countP (fun f => decide (s.partOf f.ctx = s.partOf ctx)) < s.fld (Pg.stg + 8 * s.partOf ctx) F.stgFcapCap →
        s.fbeg ctx id = (St.ok, s.setFlight (s.stg.flight ++ [⟨ctx, id, 1⟩]))) ∧
      ((96 ≤ s.stg.flight.length ∨ s.fld (Pg.stg + 8 * s.partOf ctx) F.stgFcapCap ≤ s.stg.flight.countP (fun f => decide (s.partOf f.ctx = s.partOf ctx))) →
        s.fbeg ctx id = (St.flightFull, s)))

/-- Checkpoint cost of the selected context (R441): OP 1 stamps a start and replaces an open one, OP 2 closes it and enters the time since, in ms, into a history
of the eight most recent costs, OP 3 empties the history, OP 2 with no open start is ignored and sets BAD_SEQ. C is the mean of the history rounded to whole
ms, and COSTPRIOR while the history is empty. It says under which conditions these commands complete: ckmarkStart, ckmarkEnd, ckmarkEmpty. -/
def Obligations.CheckpointCost : Prop := (∀ s : State, ∃ t, exec .ckmarkStart s = .next t ∧ KMap.get none t.ldg.start s.lsel = some (s.now s.hub / 10 ^ 6) ∧ t.ldg.costs = s.ldg.costs) ∧
  (∀ (s : State) (t0 : Nat), KMap.get none s.ldg.start s.lsel = some t0 → ∃ t, exec .ckmarkEnd s = .next t ∧ KMap.get none t.ldg.start s.lsel = none ∧
    KMap.get [] t.ldg.costs s.lsel = ((s.now s.hub / 10 ^ 6 - t0) :: KMap.get [] s.ldg.costs s.lsel).take 8 ∧ t.fld (ldgPg s.lsel) F.ldgCkcostC = t.ckCost s.lsel % 2 ^ 32) ∧
  (∀ s : State, ∃ t, exec .ckmarkEmpty s = .next t ∧ KMap.get [] t.ldg.costs s.lsel = [] ∧ t.fld (ldgPg s.lsel) F.ldgCkcostN = 0 ∧
    t.fld (ldgPg s.lsel) F.ldgCkcostC = t.ckCost s.lsel % 2 ^ 32) ∧
  (∀ s : State, KMap.get none s.ldg.start s.lsel = none → ∃ t, exec .ckmarkEnd s = .next t ∧ t.bitF Pg.ldg F.ldgErrStatBadSeq = true ∧ t.ldg = s.ldg) ∧
  (∀ (s : State) (ctx : Nat), KMap.get [] s.ldg.costs ctx = [] → s.ckCost ctx = s.fld (ldgPg ctx) F.ldgCkcfgCostprior) ∧
  (∀ (s : State) (ctx : Nat) (l : List Nat), KMap.get [] s.ldg.costs ctx = l → l ≠ [] →
    2 * l.length * s.ckCost ctx ≤ 2 * l.sum + l.length ∧ 2 * l.sum + l.length < 2 * l.length * (s.ckCost ctx + 1))

/-- The layout of a record of the survival store (R446): type, length of the payload, key, sequence number, time, payload, and last the CRC of all words before
it; reserved bits are zero. A record requested takes the next sequence number, the time now, marked when it runs free (R32), and a CRC that is right. -/
def Obligations.RecordLayout : Prop := (∀ r : SstRec, r.typ < 256 → r.payload.length ≤ 508 →
    r.words.length = 5 + r.payload.length ∧
    Bits.get (r.words.getD 0 0) 63 56 = r.typ ∧ Bits.get (r.words.getD 0 0) 55 48 = 0 ∧ Bits.get (r.words.getD 0 0) 47 32 = 8 * r.payload.length ∧
    Bits.get (r.words.getD 0 0) 31 0 = 0 ∧ r.words.getD 1 0 = BitVec.ofNat 64 r.key ∧ r.words.getD 2 0 = BitVec.ofNat 64 r.seq ∧
    r.words.getD 3 0 = BitVec.ofNat 64 r.time ∧ (∀ i, i < r.payload.length → r.words.getD (4 + i) 0 = r.payload.getD i 0) ∧
    r.words.getD (4 + r.payload.length) 0 = r.crc ∧ (r.valid = true ↔ r.crc = crcWords (r.words.take (4 + r.payload.length)))) ∧
  (∀ (typ key : Nat) (payload : List W64) (s : State), ∃ r : SstRec, (s.sstAdd typ key payload).sst.wait = s.sst.wait ++ [r] ∧ r.typ = typ ∧ r.key = key ∧
    r.payload = payload ∧ r.seq = s.fld Pg.sst F.sstSeqNext ∧ r.time = s.now s.hub ∧ r.free = (s.tb s.hub).free ∧ r.valid = true)

/-- Lost readouts of a stack (R203): after five in a row the event MS_TEMP_LOST is raised, the stack is at level 7 and stays there until a report arrives; the
report sets the level to its target at once; THERMTRIP_N is not asserted. It says under which conditions these commands complete: stackTempReport,
throttleFallStep, msTempLost. -/
def Obligations.LostReadouts : Prop := ∀ (k : Fin 20) (s : State), ∃ s1, s1 = (s.setFld (Pg.msc k) F.mscTempLevel 7).setThrottle k ⟨false, 5⟩ ∧ s1.fld (Pg.msc k) F.mscTempLevel = 7 ∧
    exec (.msTempLost k) s = .next (s1.event (k / 5 : Nat) Ev.msTempLost 0 (unitOf (Pg.msc k)) 0 0) ∧
    (s1.event (k / 5 : Nat) Ev.msTempLost 0 (unitOf (Pg.msc k)) 0 0).plat = s.plat ∧ exec (.throttleFallStep k) s1 = .next s1 ∧
    (∀ (temp : W16) (u : State), (u.throttle k).missed = 5 → temp.toInt < 1760 → ∃ t, exec (.stackTempReport k temp) u = .next t ∧
      t.fld (Pg.msc k) F.mscTempLevel = heatTarget (BitVec.ofNat 16 (u.fld (Pg.msc k) F.mscThrThresh)) temp ∧ (t.throttle k).missed = 0)

/-- The event ring of a die in service (R32, R424, R425): a record has the code, context, class, severity, die and the die's event count, the time, the unit and
two details, and the mark of a free-running time stamp (log 110); it enters the ring at the count modulo 1,024 and the count moves on; in a full ring it
replaces the oldest, which RD passes, and LOST and OVERFLOW say so. Which die records an event is the model's choice (log 18). -/
def Obligations.EventRing : Prop := ∀ (d code ctx unit d0 : Nat) (d1 : W64) (s t : State) (wr rd : Nat), s.dieUp d = true → wr = s.fld (Pg.evl d) F.evlPtrWr → rd = s.fld (Pg.evl d) F.evlPtrRd →
    t = s.event d code ctx unit d0 d1 →
    KMap.get [] t.events (d * 1024 + wr % 1024) =
      [Bits.make [(63, 48, code), (47, 40, ctx), (39, 38, (evInfo code).1), (37, 35, (evInfo code).2), (33, 32, d), (31, 0, wr)],
       BitVec.ofNat 64 (s.now d), Bits.make [(63, 32, unit), (31, 0, d0)], d1] ++ s.freeMark d ∧
    (∀ k, k ≠ d * 1024 + wr % 1024 → KMap.get [] t.events k = KMap.get [] s.events k) ∧
    t.fld (Pg.evl d) F.evlPtrWr = (wr + 1) % 2 ^ 32 ∧
    (wr = (rd + 1024) % 2 ^ 32 → t.fld (Pg.evl d) F.evlPtrRd = (rd + 1) % 2 ^ 32 ∧ t.bitF (Pg.evl d) F.evlErrStatOverflow = true ∧
      t.fld (Pg.evl d) F.evlLostCount = min (2 ^ 32 - 1) (s.fld (Pg.evl d) F.evlLostCount + 1)) ∧
    (wr ≠ (rd + 1024) % 2 ^ 32 → t.fld (Pg.evl d) F.evlPtrRd = rd ∧ t.fld (Pg.evl d) F.evlLostCount = s.fld (Pg.evl d) F.evlLostCount) ∧
    (4 ≤ (evInfo code).2 → t.sst.wait.length = s.sst.wait.length + 1)

/-- Frame of the instructions that write one general register (R156): integer, floating point and jump instructions and loads from scratch change no other general
register, no other core, and of the other parts of the state only what `touched` lists; a branch changes no general register at all. -/
def Obligations.CoreRegistersFrame : Prop := ∀ (c : CoreNo) (rd rs1 rs2 : Gpr) (s t : State) (i : Instr),
    ((∃ opc fn src, i = .intAlu ⟨c, opc⟩ fn rd rs1 src) ∨ (∃ fn dbl, i = .fpOp c fn dbl rd rs1 rs2) ∨ (∃ opc imm, i = .jumpAndLink ⟨c, opc⟩ rd rs1 imm) ∨
      (∃ opc w imm err, i = .load ⟨c, opc⟩ .scratch w rd rs1 imm err) → exec i s = .next t →
      (∀ (d q : Nat), (d ≠ c ∨ q ≠ rd) → t.g d q = s.g d q) ∧ (∀ d : Nat, d ≠ c → t.core d = s.core d) ∧ (t.core c).tmo = (s.core c).tmo ∧
      t.scratch = s.scratch ∧ t.mem = s.mem ∧ t.clusters = s.clusters ∧ t.sync = s.sync ∧ t.net = s.net) ∧
    ((∃ cond off, i = .compareBranch ⟨c, .own⟩ cond rs1 rs2 off) → exec i s = .next t →
      (∀ (d q : Nat), t.g d q = s.g d q) ∧ (∀ d : Nat, d ≠ c → t.core d = s.core d) ∧ (t.core c).tmo = (s.core c).tmo ∧
      t.scratch = s.scratch ∧ t.mem = s.mem ∧ t.regs = s.regs ∧ t.clusters = s.clusters ∧ t.sync = s.sync ∧ t.net = s.net)

/-- Frame of the stores (R156, R158): a store to scratch writes its bytes of the core's own scratch and no other, and no memory; a store to cluster SRAM, while no
core waits for a word, writes its n bytes at the local address of RS1 + IMM and no other byte of the memory. No general register changes. It says under which
conditions this command completes: store. -/
def Obligations.CoreStoreFrame : Prop := (∀ (c : CoreNo) (w : Fin 4) (rs rs1 : Gpr) (imm : BitVec 15) (err : ArrayErr) (s : State) (a : Nat), s.coreRuns c = true →
    a = (s.g c rs1 + imm.signExtend 64).toNat → a + 2 ^ w.val ≤ 2 ^ 17 → ∃ t, exec (.store ⟨c, .own⟩ .scratch w rs rs1 imm err) s = .next t ∧
      t.scratchNat c a (2 ^ w.val) = (s.g c rs).toNat % 2 ^ (8 * 2 ^ w.val) ∧
      (∀ (d x : Nat), x < 2 ^ 17 → (d ≠ c ∨ x < a ∨ a + 2 ^ w.val ≤ x) → t.scratchNat d x 1 = s.scratchNat d x 1) ∧
      (∀ d q : Nat, t.g d q = s.g d q) ∧ t.mem = s.mem ∧ t.regs = s.regs) ∧
  (∀ (c : CoreNo) (w : Fin 4) (rs rs1 : Gpr) (imm : BitVec 15) (s : State) (l k : Nat), s.coreRuns c = true → s.sync.waiters = [] →
    s.localOf (s.g c rs1 + imm.signExtend 64) = some l → s.dieAway c l = false →
    (∀ i, i < 2 ^ w.val → s.place (l + i) = some (.cluster k)) → s.memCheckW (s.coreCtx c) l (2 ^ w.val) = St.ok → s.placeFenced (.cluster k) = false →
    ∃ t, exec (.store ⟨c, .own⟩ .addr w rs rs1 imm .none) s = .next t ∧ t.loadNat l (2 ^ w.val) = (s.g c rs).toNat % 2 ^ (8 * 2 ^ w.val) ∧
      (∀ x, (x < l ∨ l + 2 ^ w.val ≤ x) → t.byteKey x = s.byteKey x) ∧ (∀ d q : Nat, t.g d q = s.g d q) ∧ (t.core c).pc = (s.core c).pc + 4 ∧
      t.regs = s.regs ∧ t.sync = s.sync ∧ t.scratch = s.scratch ∧ t.clusters = s.clusters)

/-- The header of a packet (R308, R310): a packet formed from a header whose fields fit reads back with every field as given, reserved bits zero, PLEN the
payload's whole flits, the payload's words in order and zeros behind them; its PCRC is right, and stays so whatever VC and TTL a hop sets. -/
def Obligations.PacketHeader : Prop := ∀ (h : PktHead) (payload ws : List W64), h.dst < 2 ^ 16 → h.src < 2 ^ 16 → h.epoch < 2 → h.cls < 4 → h.ttl < 64 → h.op < 256 → h.slot < 4096 → h.gen < 16 →
    h.addr < 2 ^ 48 → h.seq < 2 ^ 32 → h.fmt < 2 ^ 16 → h.len < 2 ^ 16 → h.status < 256 → payload.length ≤ 128 → ws = mkPkt h payload →
    (Pkt.dst ws = h.dst ∧ Pkt.src ws = h.src ∧ Pkt.epoch ws = h.epoch ∧ Pkt.vc ws = 0 ∧ Pkt.cls ws = h.cls ∧ Pkt.ttl ws = h.ttl ∧ Pkt.narrow ws = h.narrow ∧
      Pkt.unord ws = h.unord ∧ Pkt.op ws = h.op ∧ Pkt.slot ws = h.slot ∧ Pkt.gen ws = h.gen ∧ Pkt.addr ws = h.addr ∧ Pkt.seq ws = h.seq ∧ Pkt.fmt ws = h.fmt ∧
      Pkt.len ws = h.len ∧ Pkt.status ws = h.status) ∧
    wf ws 0 13 10 = 0 ∧ wf ws 3 55 32 = 0 ∧ Pkt.plen ws = (payload.length + 3) / 4 ∧ ws.length = 4 + 4 * Pkt.plen ws ∧
    (∀ i, i < payload.length → Pkt.payload ws i = payload.getD i 0) ∧ (∀ i, payload.length ≤ i → Pkt.payload ws i = 0) ∧
    wf ws 3 31 0 = pcrc ws ∧ (∀ vc ttl : Nat, pcrc (ws.set 0 (Bits.put (Bits.put (wd ws 0) 30 28 vc) 25 20 ttl)) = pcrc ws)

/-- Tile issue (R95, R113, R120, R121, R410): the command joins the slot's queue and RD receives OK; a pair joins as two commands; a full queue answers QUEUE_FULL
and takes nothing; while an abort of the context runs, the answer is ABORTED. The life of a tile (R96, R97, R101 to R108, R122): the head of a slot's queue
starts on its engine when the engine may take it, a pair's first tile with its second kept for the same engine; check, re-run and drain act on the tile in
hand. Where the specification leaves a point open it follows the choice of the model in log entries 5 and 6. It says under which conditions these commands
complete: tissue, tpair, tileExecute, tileCheckDone, tileRerun, tileDrainStart, tileDrainEnd. -/
def Obligations.TileCommands : Prop :=
  ((∀ (c : ClusterNo) (rd rs1 rs2 : Gpr) (s : State), s.coreRuns (stewardOf c) = true → s.aborting (s.coreCtx (stewardOf c)) = false →
    ((s.clu c).tileQ ((s.g (stewardOf c) rs1).toNat % 4)).length < 16 →
    ∃ t, exec (.tissue c rd rs1 rs2) s = .next t ∧
      (t.clu c).tileQ ((s.g (stewardOf c) rs1).toNat % 4) = (s.clu c).tileQ ((s.g (stewardOf c) rs1).toNat % 4) ++ [s.tileOf c (s.g (stewardOf c) rs2).toNat 0] ∧
      t.g (stewardOf c) rd = if rd.val = 0 then 0 else BitVec.ofNat 64 St.ok) ∧
  (∀ (c : ClusterNo) (rd rs1 rs2 : Gpr) (s : State), s.coreRuns (stewardOf c) = true → s.aborting (s.coreCtx (stewardOf c)) = false →
    ((s.clu c).tileQ ((s.g (stewardOf c) rs1).toNat % 4)).length < 15 →
    ∃ t, exec (.tpair c rd rs1 rs2) s = .next t ∧
      (t.clu c).tileQ ((s.g (stewardOf c) rs1).toNat % 4) = (s.clu c).tileQ ((s.g (stewardOf c) rs1).toNat % 4) ++
        [s.tileOf c (s.g (stewardOf c) rs2).toNat 1, s.tileOf c ((s.g (stewardOf c) rs2).toNat + 64) 2] ∧
      t.g (stewardOf c) rd = if rd.val = 0 then 0 else BitVec.ofNat 64 St.ok) ∧
  (∀ (c : ClusterNo) (rd rs1 rs2 : Gpr) (s : State), s.coreRuns (stewardOf c) = true → s.aborting (s.coreCtx (stewardOf c)) = false →
    16 ≤ ((s.clu c).tileQ ((s.g (stewardOf c) rs1).toNat % 4)).length →
    exec (.tissue c rd rs1 rs2) s = .next (s.retSt (stewardOf c) rd St.queueFull) ∧
    exec (.tpair c rd rs1 rs2) s = .next (s.retSt (stewardOf c) rd St.queueFull)) ∧
  (∀ (c : ClusterNo) (rd rs1 rs2 : Gpr) (s : State), s.coreRuns (stewardOf c) = true → s.aborting (s.coreCtx (stewardOf c)) = true →
    exec (.tissue c rd rs1 rs2) s = .next (s.retSt (stewardOf c) rd St.aborted) ∧
    exec (.tpair c rd rs1 rs2) s = .next (s.retSt (stewardOf c) rd St.aborted))) ∧
  ((∀ (c : ClusterNo) (slot : Fin 4) (faults : List CellFault) (hits : Hits) (s : State) (t : TileCmd) (rest : List TileCmd) (e : Nat),
    (s.clu c).tileQ slot = t :: rest → t.pair = 0 → s.plat.thermtrip = false → s.mxeFor c slot t = some e →
    tileCheck (s.sramSize c) t = St.ok → s.mayStartTile c slot e t = true →
    exec (.tileExecute ⟨c, hits⟩ slot faults) s = .next (((s.meet hits).setTileQ c slot rest).startTile c slot e t faults)) ∧
  (∀ (c : ClusterNo) (slot : Fin 4) (faults : List CellFault) (hits : Hits) (s : State) (t q : TileCmd) (rest : List TileCmd) (e : Nat),
    (s.clu c).tileQ slot = t :: q :: rest → t.pair = 1 → s.plat.thermtrip = false → s.mxeFor c slot t = some e →
    tileCheck (s.sramSize c) t = St.ok → tileCheck (s.sramSize c) q = St.ok → pairOk t q = true → s.mayStartTile c slot e t = true →
    exec (.tileExecute ⟨c, hits⟩ slot faults) s = .next (((s.meet hits).setTileQ c slot ({ q with engines := [e] } :: rest)).startTile c slot e t faults)) ∧
  (∀ (c : ClusterNo) (slot : Fin 4) (faults : List CellFault) (hits : Hits) (s : State) (t : TileCmd) (rest : List TileCmd),
    (s.clu c).tileQ slot = t :: rest → t.pair ≠ 1 → s.mxeFor c slot t = none →
    exec (.tileExecute ⟨c, hits⟩ slot faults) s = .next ((s.setTileQ c slot rest).refuseTile c slot 0 t St.engineFenced)) ∧
  (∀ (e : MxeNo) (s : State) (a : Nat) (r : TileRun), (s.findRun (e / 4) fun r => decide (r.phase = 0 ∧ r.last = e)) = some (a, r) →
    exec (.tileCheckDone e) s = .next (s.checkTile r)) ∧
  (∀ (e : MxeNo) (faults : List CellFault) (hits : Hits) (s : State) (a : Nat) (r : TileRun), s.plat.thermtrip = false → s.inReset [(0, e), (9, e / 4)] = false →
    s.pairDue e = false → (s.findRun (e / 4) fun r => decide (r.phase = 1 ∧ r.last = e)) = some (a, r) →
    exec (.tileRerun ⟨e, hits⟩ faults) s = .next ((s.meet hits).rerunTile r faults)) ∧
  (∀ (e : MxeNo) (s : State) (a : Nat) (r : TileRun),
    (s.findRun (e / 4) fun r => decide (r.last = e ∧ r.phase ≠ 1) && r.cmd.emit && !r.draining && (decide (r.entry ≠ 0) || s.entryDue r)) = some (a, r) → r.entry ≠ 0 →
    exec (.tileDrainStart e) s = .next (s.replaceRun r { r with draining := true })) ∧
  (∀ (e : MxeNo) (s : State) (a : Nat) (r : TileRun),
    (s.findRun (e / 4) fun r => decide (r.last = e ∧ r.phase ≠ 1) && r.cmd.emit && !r.draining && (decide (r.entry ≠ 0) || s.entryDue r)) = some (a, r) → r.entry = 0 →
    exec (.tileDrainStart e) s = .next (s.takeEntry r)) ∧
  (∀ (e : MxeNo) (s : State) (a : Nat) (r : TileRun),
    (s.findRun (e / 4) fun r => r.draining && !r.drained && (decide (r.last = e) || (r.cmd.egress && decide (r.first = e)))) = some (a, r) →
    exec (.tileDrainEnd e) s = .next (((s.mapFte r.first r.entry fun x => { x with data := r.result, droop := r.droop, poisoned := r.poisoned }).replaceRun
      r { r with drained := true }).settleTile { r with drained := true })))

/-- Fence, self-test and re-admission of the matrix, vector and update units and couriers (R111, R112, R152, R241, R357): FENCED starts a self-test, its end shows
the outcome, and SELFTEST_PASS re-admits to IDLE; a self-test or re-admission asked for in another state sets BAD_SEQ of the page. A fence by software (R111,
R152, R241, R357, R399): an engine, port, die, memory channel or LPDDR package in service leaves it with cause 7, a matrix engine with a pair in hand and a
vector engine with a chain in hand at the command boundary, and a fence of what is out of service changes nothing. Where the specification leaves a point open
it follows the choice of the model in log entry 50. It says under which conditions these commands complete: mxeFence, mxeSelftest, mxeSelftestDone,
mxeReadmit, vxeFence, vxeSelftest, vxeSelftestDone, vxeReadmit, mscFenceWrite, lpcFenceWrite, uuFence, uuSelftest, uuSelftestDone, uuReadmit, lnkFence,
crrFence, crrSelftest, crrSelftestDone, crrReadmit, dieFence. -/
def Obligations.EngineService : Prop :=
  ((∀ (e : MxeNo) (s : State), s.fld (Pg.mxe e) F.mxeStatState = Eng.fenced →
    ∃ t, exec (.mxeSelftest e) s = .next t ∧ t.fld (Pg.mxe e) F.mxeStatState = Eng.selftest) ∧
  (∀ (v : VxeNo) (s : State), s.fld (Pg.vxe v) F.vxeStatState = Eng.fenced →
    ∃ t, exec (.vxeSelftest v) s = .next t ∧ t.fld (Pg.vxe v) F.vxeStatState = Eng.selftest) ∧
  (∀ (u : Fin 36) (s : State), s.fld (Pg.uu u) F.uuStatState = Eng.fenced →
    ∃ t, exec (.uuSelftest u) s = .next t ∧ t.fld (Pg.uu u) F.uuStatState = Eng.selftest) ∧
  (∀ (d : Die) (s : State), s.fld (Pg.crr d) F.crrStatState = Eng.fenced →
    ∃ t, exec (.crrSelftest d) s = .next t ∧ t.fld (Pg.crr d) F.crrStatState = Eng.selftest) ∧
  (∀ (e : MxeNo) (pass : Bool) (s : State), s.fld (Pg.mxe e) F.mxeStatState = Eng.selftest →
    ∃ t, exec (.mxeSelftestDone e pass) s = .next t ∧ t.fld (Pg.mxe e) F.mxeStatState = if pass then Eng.selftestPass else Eng.selftestFail) ∧
  (∀ (v : VxeNo) (pass : Bool) (s : State), s.fld (Pg.vxe v) F.vxeStatState = Eng.selftest →
    ∃ t, exec (.vxeSelftestDone v pass) s = .next t ∧ t.fld (Pg.vxe v) F.vxeStatState = if pass then Eng.selftestPass else Eng.selftestFail) ∧
  (∀ (u : Fin 36) (pass : Bool) (s : State), s.fld (Pg.uu u) F.uuStatState = Eng.selftest →
    ∃ t, exec (.uuSelftestDone u pass) s = .next t ∧ t.fld (Pg.uu u) F.uuStatState = if pass then Eng.selftestPass else Eng.selftestFail) ∧
  (∀ (d : Die) (pass : Bool) (s : State), s.fld (Pg.crr d) F.crrStatState = Eng.selftest →
    ∃ t, exec (.crrSelftestDone d pass) s = .next t ∧ t.fld (Pg.crr d) F.crrStatState = if pass then Eng.selftestPass else Eng.selftestFail) ∧
  (∀ (v : VxeNo) (s : State), s.fld (Pg.vxe v) F.vxeStatState = Eng.selftestPass →
    ∃ t, exec (.vxeReadmit v) s = .next t ∧ t = ((s.setFld (Pg.vxe v) F.vxeStatState Eng.idle).setBitF (Pg.vxe v) F.vxeCtrlFence false).putUnit (vxeKey v)
      { s.unitRec (vxeKey v) with fenced := false, cause := 0, strikes := [] }) ∧
  (∀ (u : Fin 36) (s : State), s.fld (Pg.uu u) F.uuStatState = Eng.selftestPass →
    ∃ t, exec (.uuReadmit u) s = .next t ∧ t = ((s.setFld (Pg.uu u) F.uuStatState Eng.idle).setBitF (Pg.uu u) F.uuCtrlFence false).putUnit (uuKey u)
      { s.unitRec (uuKey u) with fenced := false, cause := 0, strikes := [] }) ∧
  (∀ (d : Die) (s : State), s.fld (Pg.crr d) F.crrStatState = Eng.selftestPass →
    ∃ t, exec (.crrReadmit d) s = .next t ∧ t = ((s.setFld (Pg.crr d) F.crrStatState Eng.idle).setBitF (Pg.crr d) F.crrCtrlFence false).putUnit (crrKey d)
      { s.unitRec (crrKey d) with fenced := false, cause := 0, strikes := [] }) ∧
  (∀ (e : MxeNo) (s : State), s.fld (Pg.mxe e) F.mxeStatState = Eng.selftestPass →
    ∃ t, exec (.mxeReadmit e) s = .next t ∧ t = ((((s.setFld (Pg.mxe e) F.mxeStatState Eng.idle).setBitF (Pg.mxe e) F.mxeCtrlFence false).putUnit (mxeKey e)
      { s.unitRec (mxeKey e) with fenced := false, cause := 0, strikes := [] }).showStrikes e).showMxe e) ∧
  (∀ (e : MxeNo) (s : State), (s.fld (Pg.mxe e) F.mxeStatState ≠ Eng.fenced → exec (.mxeSelftest e) s = .next (s.badSeq (Pg.mxe e))) ∧
    (s.fld (Pg.mxe e) F.mxeStatState ≠ Eng.selftestPass → exec (.mxeReadmit e) s = .next (((s.badSeq (Pg.mxe e)).showStrikes e).showMxe e))) ∧
  (∀ (v : VxeNo) (s : State), (s.fld (Pg.vxe v) F.vxeStatState ≠ Eng.fenced → exec (.vxeSelftest v) s = .next (s.badSeq (Pg.vxe v))) ∧
    (s.fld (Pg.vxe v) F.vxeStatState ≠ Eng.selftestPass → exec (.vxeReadmit v) s = .next (s.badSeq (Pg.vxe v)))) ∧
  (∀ (u : Fin 36) (s : State), (s.fld (Pg.uu u) F.uuStatState ≠ Eng.fenced → exec (.uuSelftest u) s = .next (s.badSeq (Pg.uu u))) ∧
    (s.fld (Pg.uu u) F.uuStatState ≠ Eng.selftestPass → exec (.uuReadmit u) s = .next (s.badSeq (Pg.uu u)))) ∧
  (∀ (d : Die) (s : State), (s.fld (Pg.crr d) F.crrStatState ≠ Eng.fenced → exec (.crrSelftest d) s = .next (s.badSeq (Pg.crr d))) ∧
    (s.fld (Pg.crr d) F.crrStatState ≠ Eng.selftestPass → exec (.crrReadmit d) s = .next (s.badSeq (Pg.crr d))))) ∧
  ((∀ (e : MxeNo) (s : State), outOfSvc (s.fld (Pg.mxe e) F.mxeStatState) = false → s.pairOpen e = false →
    exec (.mxeFence e) s = .next (s.fenceMxeNow e 7)) ∧
  (∀ (e : MxeNo) (s : State), outOfSvc (s.fld (Pg.mxe e) F.mxeStatState) = false → s.pairOpen e = true →
    ∃ t, exec (.mxeFence e) s = .next t ∧ (t.mxe e).fenceDue = some 7 ∧ t.regs = s.regs) ∧
  (∀ (v : VxeNo) (s : State), outOfSvc (s.fld (Pg.vxe v) F.vxeStatState) = false → s.vxe v = none → exec (.vxeFence v) s = .next (s.fenceVxeNow v 7)) ∧
  (∀ (v : VxeNo) (s : State) (r : ChainRun), outOfSvc (s.fld (Pg.vxe v) F.vxeStatState) = false → s.vxe v = some r → r.fenceDue = none →
    exec (.vxeFence v) s = .next (s.setVxe v (some { r with fenceDue := some 7 }))) ∧
  (∀ (v : VxeNo) (s : State), outOfSvc (s.fld (Pg.vxe v) F.vxeStatState) = true → exec (.vxeFence v) s = .next s) ∧
  (∀ (e : MxeNo) (s : State), outOfSvc (s.fld (Pg.mxe e) F.mxeStatState) = true → exec (.mxeFence e) s = .next s) ∧
  (∀ (u : Fin 36) (s : State), outOfSvc (s.fld (Pg.uu u) F.uuStatState) = true → exec (.uuFence u) s = .next s) ∧
  (∀ (d : Die) (s : State), outOfSvc (s.fld (Pg.crr d) F.crrStatState) = true → exec (.crrFence d) s = .next s) ∧
  (∀ (p : Fin 24) (s : State), s.lnk p = Lk.fenced → exec (.lnkFence p) s = .next s) ∧
  (∀ (u : Fin 36) (s : State), outOfSvc (s.fld (Pg.uu u) F.uuStatState) = false → exec (.uuFence u) s = .next (s.fenceUu u 7)) ∧
  (∀ (d : Die) (s : State), outOfSvc (s.fld (Pg.crr d) F.crrStatState) = false → exec (.crrFence d) s = .next (s.fenceCrr d 7)) ∧
  (∀ (p : Fin 24) (s : State), s.lnk p ≠ Lk.fenced → exec (.lnkFence p) s = .next (s.fencePort p 7)) ∧
  (∀ (d : Die) (s : State), s.fld Pg.rcv F.rcvStatPhase = 0 → exec (.dieFence d) s = .next (s.fenceDie d 7)) ∧
  (∀ (d : Die) (s : State), s.fld Pg.rcv F.rcvStatPhase ≠ 0 → exec (.dieFence d) s = .next (s.badSeq Pg.rcv)) ∧
  (∀ (k : Fin 20) (chan : W32) (s : State), exec (.mscFenceWrite k chan) s =
    .next (((Bits.setBits 32 chan.toNat).filter fun ch => !s.chanFenced k ch).foldl (fun s ch => s.fenceChan k ch 7) s)) ∧
  (∀ (k : Fin 16) (lp : BitVec 2) (s : State), exec (.lpcFenceWrite k lp) s =
    .next (((Bits.setBits 2 lp.toNat).filter fun i => !s.lpFenced (2 * k + i)).foldl (fun s i => s.fenceLp (2 * k + i) 7) s)))

/-- Registers of access code RC (R15): a read answers the count and clears it; the work counters show the work of the unit since the last read, and the page of a
dispatcher that moved away reads zero. It says under which conditions these commands complete: mxeChkRead, mxePerfRead, vxePerfRead, ctrEvtRead, tollHeldRead,
mscEccRead, uuPerfRead, updPerfRead, rwinDenyRead, lnkCounterRead, rteCounterRead, crrCntRead, hlkCntRead. -/
def Obligations.CountersClearOnRead : Prop := (∀ (e : MxeNo) (s : State), ∃ t, exec (.mxeChkRead e) s = .next t ∧ t.rdData = s.reg (Pg.mxe e + 0x100) ∧ t.reg (Pg.mxe e + 0x100) = 0) ∧
  (∀ (e : MxeNo) (s : State), ∃ t, exec (.mxePerfRead e) s = .next t ∧ t.rdData = Bits.put (s.reg (Pg.mxe e + 0x108)) 63 32 (s.workUnits (Pg.mxe e) 10) ∧ t.reg (Pg.mxe e + 0x108) = 0 ∧ KMap.get 0 t.work (Pg.mxe e) = 0) ∧
  (∀ (v : VxeNo) (s : State), ∃ t, exec (.vxePerfRead v) s = .next t ∧ t.rdData = Bits.put (s.reg (Pg.vxe v + 0x100)) 63 32 (s.workUnits (Pg.vxe v) 10) ∧ t.reg (Pg.vxe v + 0x100) = 0 ∧ KMap.get 0 t.work (Pg.vxe v) = 0) ∧
  (∀ (u : Fin 36) (s : State), ∃ t, exec (.uuPerfRead u) s = .next t ∧ t.rdData = s.reg (Pg.uu u + 0x100) ∧ t.reg (Pg.uu u + 0x100) = 0) ∧
  (∀ (d : Die) (s : State), d.val = s.hub → ∃ t, exec (.updPerfRead d) s = .next t ∧ t.rdData = s.reg (Pg.upd d + 0x100) ∧ t.reg (Pg.upd d + 0x100) = 0) ∧
  (∀ (d : Die) (s : State), d.val ≠ s.hub → ∃ t, exec (.updPerfRead d) s = .next t ∧ t.rdData = 0 ∧ t.regs = s.regs) ∧
  (∀ (d : Die) (i : Fin 48) (s : State), ∃ t, exec (.ctrEvtRead d i) s = .next t ∧ t.rdData = s.reg (ctrKey d (s.ctrSel d) i) ∧ t.reg (ctrKey d (s.ctrSel d) i) = 0) ∧
  (∀ (m : MemCtl) (s : State), ∃ t, exec (.mscEccRead m) s = .next t ∧ t.rdData = s.reg (ctlPage m + 0x110) ∧ t.reg (ctlPage m + 0x110) = 0) ∧
  (∀ (d : Die) (b : Fin 64) (s : State), ∃ t, exec (.tollHeldRead d b) s = .next t ∧ t.rdData = (s.countHeld d b).reg (Pg.toll d + 8 * b + 0x500) ∧ t.reg (Pg.toll d + 8 * b + 0x500) = 0) ∧
  (∀ (p : Fin 24) (r : Fin 3) (s : State), r.val < 2 →
    ∃ t, exec (.lnkCounterRead p r) s = .next t ∧ t.rdData = s.reg (Pg.lnk p + 0x128 + 8 * r.val) ∧ t.reg (Pg.lnk p + 0x128 + 8 * r.val) = 0) ∧
  (∀ (p : Fin 24) (s : State), ∃ t, exec (.lnkCounterRead p 2) s = .next t ∧ t.rdData = Bits.make [(63, 32, s.workUnits (Pg.lnk p) 20), (31, 0, s.workUnits (Pg.lnk p + 1) 20)] ∧
    KMap.get 0 t.work (Pg.lnk p) = 0 ∧ KMap.get 0 t.work (Pg.lnk p + 1) = 0) ∧
  (∀ (r : Fin 3) (s : State), ∃ t, exec (.rteCounterRead r) s = .next t ∧ t.rdData = s.reg (Pg.rte + 0x128 + 8 * r.val) ∧ t.reg (Pg.rte + 0x128 + 8 * r.val) = 0) ∧
  (∀ (s : State), ∃ t, exec .rwinDenyRead s = .next t ∧ t.rdData = s.reg (Pg.rwin + 0x100) ∧ t.reg (Pg.rwin + 0x100) = 0) ∧
  (∀ (d : Die) (s : State), ∃ t, exec (.crrCntRead d) s = .next t ∧ t.rdData = s.reg (Pg.crr d + 0x108) ∧ t.reg (Pg.crr d + 0x108) = 0) ∧
  (∀ (s : State), ∃ t, exec .hlkCntRead s = .next t ∧ t.rdData = s.reg (Pg.hlk + 0x108) ∧ t.reg (Pg.hlk + 0x108) = 0)

/-- Chains (R137, R143, R150, R151, R159, R161): issue of a chain and the scalar moves of a running steward core, start, claims and the end of a chain. Where the
specification leaves a point open it follows the choice of the model in log entries 6 and 26. It says under which conditions these commands complete: cissue,
chainStart, chainEntryClaim, chainComplete, smovS, smovG, bs. -/
def Obligations.ChainLife : Prop := (∀ (c : ClusterNo) (rd rs1 rs2 : Gpr) (s : State), s.coreRuns (stewardOf c) = true → s.aborting (s.coreCtx (stewardOf c)) = false →
    exec (.cissue c rd rs1 rs2) s = .next (s.scalarRun c rd (.cissue ((s.g (stewardOf c) rs1).toNat % 2) (s.scratchWords (stewardOf c) (s.g (stewardOf c) rs2).toNat 24)))) ∧
  (∀ (c : ClusterNo) (sd : Fin 64) (rs1 : Gpr) (s : State), s.coreRuns (stewardOf c) = true →
    exec (.smovS c sd rs1) s = .next (s.scalarRun c 0 (.smovS sd ((s.g (stewardOf c) rs1).setWidth 32)))) ∧
  (∀ (c : ClusterNo) (rd : Gpr) (ss : Fin 64) (s : State), s.coreRuns (stewardOf c) = true → exec (.smovG c rd ss) s = .next (s.scalarRun c rd (.smovG ss))) ∧
  (∀ (c : ClusterNo) (cond : Cond) (uns : Bool) (i j : Fin 64) (off : BitVec 9) (s : State), s.coreRuns (stewardOf c) = true →
    exec (.bs c cond uns i j off) s = .next (s.scalarRun c 0 (.branchS cond uns i j off))) ∧
  (∀ (v : VxeNo) (hits : Hits) (s : State) (k : ChainCmd), s.lostChain v = none → s.vxe v = none → s.inReset [(1, v), (9, v / 2)] = false →
    s.unitBlocked (v / 2) (Pg.vxe v) = false → s.nextChain v = some k → exec (.chainStart ⟨v, hits⟩) s = .next (((s.meet hits).takeChain (v / 2) k).startChain v k)) ∧
  (∀ (v : VxeNo) (hits : Hits) (s : State) (k : ChainCmd), s.lostChain v = some k →
    exec (.chainStart ⟨v, hits⟩) s = .next ((s.takeChain (v / 2) k).finChain (v / 2) 0 k false St.engineFenced .bad)) ∧
  (∀ (v : VxeNo) (hits : Hits) (s : State) (r : ChainRun), s.vxe v = some r → r.cmd.needs ≤ r.seen → exec (.chainComplete ⟨v, hits⟩ false) s = .next ((s.meet hits).runChain v r) ∧
    exec (.chainComplete ⟨v, hits⟩ true) s = .next ((s.meet hits).parityChain v r)) ∧
  (∀ (v : VxeNo) (s : State) (r : ChainRun) (e : Nat) (x : Fte), s.vxe v = some r → r.seen < r.cmd.needs → s.mxeOfSlot (v / 2) r.cmd.mslot = some e →
    (s.visible e).find? (fun x => !x.claimed) = some x → x.tag = r.nextTag → x.ctx = r.cmd.ctx → r.cmd.stages = false →
    ∃ t, exec (.chainEntryClaim v) s = .next t ∧ t.vxe v = some { r with seen := r.seen + 1, droop := r.droop || x.droop, poisoned := r.poisoned || x.poisoned, taken := r.taken ++ [(e, x.id)] } ∧ t.mem = s.mem) ∧
  (∀ (v : VxeNo) (s : State) (r : ChainRun) (e : Nat) (x : Fte), s.vxe v = some r → r.seen < r.cmd.needs → s.mxeOfSlot (v / 2) r.cmd.mslot = some e →
    (s.visible e).find? (fun x => !x.claimed) = some x → x.tag ≠ r.nextTag → exec (.chainEntryClaim v) s = .next (s.endRun v r St.tagSkew .bad))

/-- The completion ring (R159, R160): cpop takes the oldest record into RD and RD + 1, cpop on an empty ring waits, cpeek on an empty ring answers zero, and a
held record enters a ring with room. Gather and scatter (R162): a descriptor of a running ostler core joins the unit's queue of eight and RD receives OK, a
ninth is answered QUEUE_FULL, and the oldest descriptor is carried out first. Where the specification leaves a point open it follows the choice of the model
in log entry 27. It says under which conditions these commands complete: cpop, cpeek, ringRecordRelease, gather, scatter, gatherComplete. -/
def Obligations.RingAndGather : Prop :=
  ((∀ (c : ClusterNo) (rd : Gpr) (s : State) (r : RingRec) (rest : List RingRec), s.coreRuns (stewardOf c) = true → rd.val % 2 = 0 → (s.clu c).ring = r :: rest →
    (∃ t, exec (.cpop c rd) s = .next t ∧ (t.clu c).ring = rest ∧ t.g (stewardOf c) rd = (if rd.val = 0 then 0 else r.w0) ∧ t.g (stewardOf c) (rd + 1 : Nat) = r.w1) ∧
    (∃ t, exec (.cpeek c rd) s = .next t ∧ (t.clu c).ring = rest ∧ t.g (stewardOf c) rd = (if rd.val = 0 then 0 else r.w0) ∧ t.g (stewardOf c) (rd + 1 : Nat) = r.w1)) ∧
  (∀ (c : ClusterNo) (rd : Gpr) (s : State), s.coreRuns (stewardOf c) = true → rd.val % 2 = 0 → (s.clu c).ring = [] →
    (∃ t, exec (.cpop c rd) s = .next t ∧ t.sync.waiters = s.sync.waiters ++ [⟨stewardOf c, rd, .ring⟩] ∧ t.cores = s.cores) ∧
    (∃ t, exec (.cpeek c rd) s = .next t ∧ t.g (stewardOf c) rd = 0 ∧ t.sync = s.sync)) ∧
  (∀ (c : ClusterNo) (s : State) (r : Nat × RingRec) (rest : List (Nat × RingRec)), (s.clu c).held = r :: rest → (s.clu c).ring.length < 256 →
    exec (.ringRecordRelease c) s = .next (((s.setClu c { s.clu c with held := rest }).ringPut c r.2).wakeRing c))) ∧
  ((∀ (c : ClusterNo) (oc : Fin 6) (rd rs1 : Gpr) (s : State), s.coreRuns (ostlerOf c oc) = true → s.aborting (s.coreCtx (ostlerOf c oc)) = false → (s.clu c).gathers.length < 8 →
    (∃ t, exec (.gather c oc rd rs1) s = .next t ∧
      (t.clu c).gathers = (s.clu c).gathers ++ [⟨s.scratchWords (ostlerOf c oc) (s.g (ostlerOf c oc) rs1).toNat 4, false, oc⟩] ∧
      t.g (ostlerOf c oc) rd = if rd.val = 0 then 0 else BitVec.ofNat 64 St.ok) ∧
    (∃ t, exec (.scatter c oc rd rs1) s = .next t ∧
      (t.clu c).gathers = (s.clu c).gathers ++ [⟨s.scratchWords (ostlerOf c oc) (s.g (ostlerOf c oc) rs1).toNat 4, true, oc⟩] ∧
      t.g (ostlerOf c oc) rd = if rd.val = 0 then 0 else BitVec.ofNat 64 St.ok)) ∧
  (∀ (c : ClusterNo) (oc : Fin 6) (rd rs1 : Gpr) (s : State), s.coreRuns (ostlerOf c oc) = true → s.aborting (s.coreCtx (ostlerOf c oc)) = false → 8 ≤ (s.clu c).gathers.length →
    exec (.gather c oc rd rs1) s = .next (s.retSt (ostlerOf c oc) rd St.queueFull) ∧ exec (.scatter c oc rd rs1) s = .next (s.retSt (ostlerOf c oc) rd St.queueFull)) ∧
  (∀ (c : ClusterNo) (hits : Hits) (s : State) (g : GatherCmd) (rest : List GatherCmd), (s.clu c).gathers = g :: rest → s.unitBlocked c (Pg.clu c) = false →
    s.inReset [(4, c), (9, c)] = false →
    exec (.gatherComplete ⟨c, hits⟩) s = .next (((s.meet hits).setClu c { (s.meet hits).clu c with gathers := rest }).runGather c g)))

/-- Integer ALU and floating point instructions of a running core (R156): RD receives the result, G0 stays zero, the pc moves past the instruction; a courier
takes ILLEGAL_INSN for OPC 0x06, and every unit for an opcode outside its profile (R157, R158). A shift by 64 or more writes an open value, of which nothing
is said. Where the specification leaves a point open it follows the choice of the model in log entries 7 and 21. It says under which conditions these commands
complete: intAlu, fpOp. -/
def Obligations.CoreArithmetic : Prop := (∀ (c : CoreNo) (rd rs1 : Gpr) (src : AluSrc) (s : State), s.coreRuns c = true →
    (∃ t, exec (.intAlu ⟨c, .own⟩ .add rd rs1 src) s = .next t ∧ t.g c rd = (if rd.val = 0 then 0 else s.g c rs1 + s.src2 c src) ∧ (t.core c).pc = (s.core c).pc + 4) ∧
    (∃ t, exec (.intAlu ⟨c, .own⟩ .sub rd rs1 src) s = .next t ∧ t.g c rd = (if rd.val = 0 then 0 else s.g c rs1 - s.src2 c src) ∧ (t.core c).pc = (s.core c).pc + 4) ∧
    (∃ t, exec (.intAlu ⟨c, .own⟩ .mul rd rs1 src) s = .next t ∧ t.g c rd = (if rd.val = 0 then 0 else s.g c rs1 * s.src2 c src) ∧ (t.core c).pc = (s.core c).pc + 4) ∧
    (∃ t, exec (.intAlu ⟨c, .own⟩ .and rd rs1 src) s = .next t ∧ t.g c rd = (if rd.val = 0 then 0 else s.g c rs1 &&& s.src2 c src) ∧ (t.core c).pc = (s.core c).pc + 4) ∧
    (∃ t, exec (.intAlu ⟨c, .own⟩ .or rd rs1 src) s = .next t ∧ t.g c rd = (if rd.val = 0 then 0 else s.g c rs1 ||| s.src2 c src) ∧ (t.core c).pc = (s.core c).pc + 4) ∧
    (∃ t, exec (.intAlu ⟨c, .own⟩ .xor rd rs1 src) s = .next t ∧ t.g c rd = (if rd.val = 0 then 0 else s.g c rs1 ^^^ s.src2 c src) ∧ (t.core c).pc = (s.core c).pc + 4) ∧
    ((s.src2 c src).toNat < 64 →
      (∃ t, exec (.intAlu ⟨c, .own⟩ .shl rd rs1 src) s = .next t ∧ t.g c rd = (if rd.val = 0 then 0 else s.g c rs1 <<< (s.src2 c src).toNat) ∧ (t.core c).pc = (s.core c).pc + 4) ∧
      (∃ t, exec (.intAlu ⟨c, .own⟩ .shr rd rs1 src) s = .next t ∧ t.g c rd = (if rd.val = 0 then 0 else s.g c rs1 >>> (s.src2 c src).toNat) ∧ (t.core c).pc = (s.core c).pc + 4)) ∧
    (64 ≤ (s.src2 c src).toNat →
      (∃ t, exec (.intAlu ⟨c, .own⟩ .shl rd rs1 src) s = .next t ∧ (t.core c).pc = (s.core c).pc + 4) ∧
      (∃ t, exec (.intAlu ⟨c, .own⟩ .shr rd rs1 src) s = .next t ∧ (t.core c).pc = (s.core c).pc + 4)) ∧
    (∀ f, ∃ t, exec (.intAlu ⟨c, .own⟩ (.other f) rd rs1 src) s = .next t ∧ (t.core c).pc = (s.core c).pc + 4)) ∧
  (∀ (c : CoreNo) (fn : FpFn) (dbl : Bool) (rd rs1 rs2 : Gpr) (s : State), s.coreRuns c = true → (c.val < 336 ∨ 340 ≤ c.val) →
    ∃ t, exec (.fpOp c fn dbl rd rs1 rs2) s = .next t ∧ t.g c rd = (if rd.val = 0 then 0 else fpResult fn dbl (s.g c rs1) (s.g c rs2)) ∧
      (t.core c).pc = (s.core c).pc + 4) ∧
  (∀ (c : CoreNo) (fn : FpFn) (dbl : Bool) (rd rs1 rs2 : Gpr) (s : State), s.coreRuns c = true → 336 ≤ c.val → c.val < 340 →
    ∃ t, exec (.fpOp c fn dbl rd rs1 rs2) s = .next t ∧ (∀ q, t.g c q = s.g c q) ∧ (t.core c).pc = (s.core c).pc + 4) ∧
  (∀ (c : CoreNo) (x : BitVec 7) (fn : AluFn) (src : AluSrc) (sp : Space) (w : Fin 4) (cond : Cond) (f : SysFn) (rd rs1 : Gpr) (imm : BitVec 15) (err : ArrayErr) (s : State),
    s.coreRuns c = true → (profile c).contains x.toNat = false →
    exec (.intAlu ⟨c, (.other x)⟩ fn rd rs1 src) s = .next (s.illegal c) ∧ exec (.load ⟨c, (.other x)⟩ sp w rd rs1 imm err) s = .next (s.illegal c) ∧
    exec (.store ⟨c, (.other x)⟩ sp w rd rs1 imm err) s = .next (s.illegal c) ∧ exec (.compareBranch ⟨c, (.other x)⟩ cond rd rs1 imm) s = .next (s.illegal c) ∧
    exec (.jumpAndLink ⟨c, (.other x)⟩ rd rs1 imm) s = .next (s.illegal c) ∧ exec (.systemOp ⟨c, (.other x)⟩ f) s = .next (s.illegal c))

/-- Loads and stores of 1, 2, 4 or 8 bytes, little-endian (R156, R158): private scratch, cluster SRAM, stacks and LPDDR packages behind their tollgate, and any
local address by the shared operations loadInsn and storeInsn. Where the specification leaves a point open it follows the choice of the model in log entry 24.
It says under which conditions these commands complete: load, store. -/
def Obligations.CoreMemory : Prop := (∀ (c : CoreNo) (w : Fin 4) (rd rs1 : Gpr) (imm : BitVec 15) (err : ArrayErr) (s : State), s.coreRuns c = true →
    ∃ t, exec (.load ⟨c, .own⟩ .scratch w rd rs1 imm err) s = .next t ∧
      t.g c rd = (if rd.val = 0 then 0 else BitVec.ofNat 64 (s.scratchNat c (s.g c rs1 + imm.signExtend 64).toNat (2 ^ w.val))) ∧ (t.core c).pc = (s.core c).pc + 4) ∧
  (∀ (c : CoreNo) (w : Fin 4) (rs rs1 : Gpr) (imm : BitVec 15) (err : ArrayErr) (s : State), s.coreRuns c = true →
    exec (.store ⟨c, .own⟩ .scratch w rs rs1 imm err) s =
      .next ((s.setScratchBytes c (s.g c rs1 + imm.signExtend 64).toNat (natBytes (2 ^ w.val) (s.g c rs).toNat)).nextPc c)) ∧
  (∀ (c : CoreNo) (w : Fin 4) (rd rs1 : Gpr) (imm : BitVec 15) (s : State) (l k : Nat), s.coreRuns c = true →
    s.localOf (s.g c rs1 + imm.signExtend 64) = some l → s.place l = some (.cluster k) → l % 65536 + 2 ^ w.val ≤ 65536 → s.dieAway c l = false →
    s.memCheck (s.coreCtx c) l (2 ^ w.val) = St.ok → s.loadPoison l (2 ^ w.val) = false →
    ∃ t, exec (.load ⟨c, .own⟩ .addr w rd rs1 imm .none) s = .next t ∧ t.g c rd = (if rd.val = 0 then 0 else BitVec.ofNat 64 (s.loadNat l (2 ^ w.val))) ∧
      (t.core c).pc = (s.core c).pc + 4) ∧
  (∀ (c : CoreNo) (w : Fin 4) (rs rs1 : Gpr) (imm : BitVec 15) (s : State) (l k : Nat), s.coreRuns c = true →
    s.localOf (s.g c rs1 + imm.signExtend 64) = some l → s.place l = some (.cluster k) → l % 65536 + 2 ^ w.val ≤ 65536 → s.dieAway c l = false →
    s.memCheckW (s.coreCtx c) l (2 ^ w.val) = St.ok →
    exec (.store ⟨c, .own⟩ .addr w rs rs1 imm .none) s = .next (((s.storeNat l (2 ^ w.val) (s.g c rs).toNat).wakeRange l (2 ^ w.val)).nextPc c)) ∧
  (∀ (c : CoreNo) (w : Fin 4) (rd rs1 : Gpr) (imm : BitVec 15) (s : State) (l r u m : Nat), s.coreRuns c = true →
    s.localOf (s.g c rs1 + imm.signExtend 64) = some l → s.place l = some (.unit r u m) → s.dieAway c l = false →
    s.memCheck (s.coreCtx c) l (2 ^ w.val) = St.ok → s.gateShut (slotDie c) (s.partOf (s.coreCtx c)) l (2 ^ w.val) false = false →
    (s.charge (slotDie c) (s.partOf (s.coreCtx c)) l (2 ^ w.val) false).loadPoison l (2 ^ w.val) = false →
    ∃ t, exec (.load ⟨c, .own⟩ .addr w rd rs1 imm .none) s = .next t ∧ t.g c rd = (if rd.val = 0 then 0 else
      BitVec.ofNat 64 ((s.charge (slotDie c) (s.partOf (s.coreCtx c)) l (2 ^ w.val) false).loadNat l (2 ^ w.val)))) ∧
  (∀ (c : CoreNo) (w : Fin 4) (rs rs1 : Gpr) (imm : BitVec 15) (s : State) (l r u m : Nat), s.coreRuns c = true →
    s.localOf (s.g c rs1 + imm.signExtend 64) = some l → s.place l = some (.unit r u m) → s.dieAway c l = false →
    s.memCheckW (s.coreCtx c) l (2 ^ w.val) = St.ok → s.gateShut (slotDie c) (s.partOf (s.coreCtx c)) l (2 ^ w.val) true = false →
    exec (.store ⟨c, .own⟩ .addr w rs rs1 imm .none) s =
      .next ((((s.charge (slotDie c) (s.partOf (s.coreCtx c)) l (2 ^ w.val) true).storeNat l (2 ^ w.val) (s.g c rs).toNat).wakeRange l (2 ^ w.val)).nextPc c)) ∧
  (∀ (c : CoreNo) (w : Fin 4) (r rs1 : Gpr) (imm : BitVec 15) (err : ArrayErr) (s : State) (l : Nat), s.coreRuns c = true →
    s.localOf (s.g c rs1 + imm.signExtend 64) = some l → s.dieAway c l = false →
    exec (.load ⟨c, .own⟩ .addr w r rs1 imm err) s = .next (s.loadInsn c r l (2 ^ w.val) err) ∧
    exec (.store ⟨c, .own⟩ .addr w r rs1 imm err) s = .next (s.storeInsn c l (2 ^ w.val) (s.g c r) err))

/-- Branches and jumps, system registers, and the start and stop of cores (R4, R156, R163, R279): the jump's link and target are the model's choice of log entry
52; the base of a branch is the free constant branchBase of log entry 16. It says under which conditions these commands complete: compareBranch, jumpAndLink,
systemOp, cluCtxWrite, coreRun, coreStop. -/
def Obligations.CoreControl : Prop := (∀ (c : CoreNo) (rs1 rs2 : Gpr) (off : BitVec 15) (s : State), s.coreRuns c = true →
    (∃ t, exec (.compareBranch ⟨c, .own⟩ .eq rs1 rs2 off) s = .next t ∧
      (t.core c).pc = if s.g c rs1 = s.g c rs2 then (s.core c).pc + Config.branchBase + 4 * off.signExtend 64 else (s.core c).pc + 4) ∧
    (∃ t, exec (.compareBranch ⟨c, .own⟩ .ne rs1 rs2 off) s = .next t ∧
      (t.core c).pc = if s.g c rs1 ≠ s.g c rs2 then (s.core c).pc + Config.branchBase + 4 * off.signExtend 64 else (s.core c).pc + 4) ∧
    ((s.g c rs1).getLsbD 63 = (s.g c rs2).getLsbD 63 →
      (∃ t, exec (.compareBranch ⟨c, .own⟩ .lt rs1 rs2 off) s = .next t ∧
        (t.core c).pc = if (s.g c rs1).toNat < (s.g c rs2).toNat then (s.core c).pc + Config.branchBase + 4 * off.signExtend 64 else (s.core c).pc + 4) ∧
      (∃ t, exec (.compareBranch ⟨c, .own⟩ .ge rs1 rs2 off) s = .next t ∧
        (t.core c).pc = if (s.g c rs2).toNat ≤ (s.g c rs1).toNat then (s.core c).pc + Config.branchBase + 4 * off.signExtend 64 else (s.core c).pc + 4))) ∧
  (∀ (c : CoreNo) (rd rs1 : Gpr) (imm : BitVec 15) (s : State), s.coreRuns c = true →
    ∃ t, exec (.jumpAndLink ⟨c, .own⟩ rd rs1 imm) s = .next t ∧ t.g c rd = (if rd.val = 0 then 0 else (s.core c).pc + 4) ∧
      (t.core c).pc = s.g c rs1 + imm.signExtend 64) ∧
  (∀ (c : CoreNo) (rd rs1 : Gpr) (s : State), s.coreRuns c = true →
    (∃ t, exec (.systemOp ⟨c, .own⟩ (.read rd .slotNo)) s = .next t ∧ t.g c rd = if rd.val = 0 then 0 else BitVec.ofNat 64 c) ∧
    (∃ t, exec (.systemOp ⟨c, .own⟩ (.read rd .synctmo)) s = .next t ∧ t.g c rd = if rd.val = 0 then 0 else (s.core c).tmo.setWidth 64) ∧
    (∃ t, exec (.systemOp ⟨c, .own⟩ (.write .synctmo rs1)) s = .next t ∧ (t.core c).tmo = (s.g c rs1).setWidth 32) ∧
    (∃ t, exec (.systemOp ⟨c, .own⟩ .fence) s = .next t ∧ (t.core c).pc = (s.core c).pc + 4 ∧ t.mem = s.mem ∧ t.regs = s.regs)) ∧
  (∀ (c : ClusterNo) (k : Fin 7) (s : State), (s.fld (Pg.clu c) F.cluCoreRun).testBit k = false → s.unitFenced (coreKey c k) = false →
    s.clusterFenced c = false →
    ∃ t, exec (.coreRun c k) s = .next t ∧ (t.core (coreSlot c k)).pc = BitVec.ofNat 64 (s.fld (Pg.clu c) F.cluEntryAddr)) ∧
  (∀ (c : ClusterNo) (k : Fin 7) (s : State), (s.fld (Pg.clu c) F.cluCoreRun).testBit k = true → exec (.coreStop c k) s = .next (s.haltCore c k 1)) ∧
  (∀ (c : ClusterNo) (data : W64) (s : State), s.changes (Pg.clu c + 0x100) 0x1FF data = true → s.cluIdle c = true → s.clusterFenced c = false →
    (s.plainWrite (Pg.clu c + 0x100) data).reg (Pg.clu c + 0x100) ≠ s.reg (Pg.clu c + 0x100) →
    exec (.cluCtxWrite c data) s = .next ((s.plainWrite (Pg.clu c + 0x100) data).changeCtx c)) ∧
  (∀ (c : ClusterNo) (data : W64) (s : State), s.changes (Pg.clu c + 0x100) 0x1FF data = true → s.cluIdle c = false →
    exec (.cluCtxWrite c data) s = .next (s.setErr (Pg.clu c) F.cluErrStatBadSeq 0)) ∧
  (∀ (c : ClusterNo) (data : W64) (s : State), s.changes (Pg.clu c + 0x100) 0x1FF data = false → exec (.cluCtxWrite c data) s = .next s)

/-- Histograms (R174, R176, R177): a snapshot writes the record to its address, snapshot and clear also clears the bins, a load adds the record's bins, the end of
an operation adds one to DONE, a write of OWN clears the stream's bins, and HSNAP on a stream that is not the context's raises PROTOCOL_ERR. Event counters
(R178, R180): clear of the selected context's 48 counters, and an addition that saturates; a counter whose event cannot arise takes none and BAD_SEQ is set.
It says under which conditions these commands complete: hstSnapshot, hstSnapshotClear, hstLoad, hstOpDone, hsnapWrite, hstOwnWrite, ctrClear, ctrAdd. -/
def Obligations.Telemetry : Prop :=
  ((∀ (d : Die) (st : Byte) (a : BitVec 42) (s : State), s.bitF (Pg.hst d) F.hstStatBusy = false →
    (s.histRange d st.toNat 0 (64 * a.toNat) = true → ∃ s1, s1 = (s.setBitF (Pg.hst d) F.hstStatBusy true).withHstOp (KMap.set none s.hstOp d (some ⟨st.toNat, 0, 64 * a.toNat⟩)) ∧
      exec (.hstSnapshot d st a) s = .next (s1.storeWords (64 * a.toNat) (s1.histRecord d st.toNat))) ∧
    (s.histRange d st.toNat 1 (64 * a.toNat) = true → ∃ t, exec (.hstSnapshotClear d st a) s = .next t ∧ ∀ n, n < 64 → t.bin d st.toNat n = 0) ∧
    (s.histRange d st.toNat 2 (64 * a.toNat) = true → exec (.hstLoad d st a) s = .next (((s.setBitF (Pg.hst d) F.hstStatBusy true).withHstOp (KMap.set none s.hstOp d (some ⟨st.toNat, 2, 64 * a.toNat⟩))).histLoad
      d st.toNat (64 * a.toNat)))) ∧
  (∀ (d : Die) (s : State), s.bitF (Pg.hst d) F.hstStatBusy = true →
    ∃ t, exec (.hstOpDone d) s = .next t ∧ t.fld (Pg.hst d) F.hstStatDone = (s.fld (Pg.hst d) F.hstStatDone + 1) % 2 ^ 16 ∧ t.bitF (Pg.hst d) F.hstStatBusy = false) ∧
  (∀ (c : ClusterNo) (oc : Fin 6) (data : W64) (s : State), s.coreRuns (ostlerOf c oc) = true →
    s.bitF (Pg.hst (c.val / 12) + 8 * F.hstSnapStream.of data) F.hstOwnValid = true → some (s.fld (Pg.hst (c.val / 12) + 8 * F.hstSnapStream.of data) F.hstOwnCtx) = s.cluCtx c →
    exec (.hsnapWrite c oc data) s = .next ((s.histOp (c.val / 12) (F.hstSnapStream.of data) (F.hstSnapOp.of data) (64 * F.hstSnapAddr.of data)).nextPc (ostlerOf c oc))) ∧
  (∀ (c : ClusterNo) (oc : Fin 6) (data : W64) (s : State), s.coreRuns (ostlerOf c oc) = true →
    s.bitF (Pg.hst (c.val / 12) + 8 * F.hstSnapStream.of data) F.hstOwnValid = false →
    exec (.hsnapWrite c oc data) s = .next ((s.raise (ostlerOf c oc) St.protocolErr).nextPc (ostlerOf c oc))) ∧
  (∀ (d : Die) (st : Byte) (data : W64) (s : State), ∃ t, exec (.hstOwnWrite d st data) s = .next t ∧ ∀ n, n < 64 → t.bin d st.toNat n = 0)) ∧
  ((∀ (d : Die) (s : State), ∃ t, exec (.ctrClear d) s = .next t ∧ ∀ i, i < 48 → t.reg (ctrKey d (s.ctrSel d) i) = 0) ∧
  (∀ (d : Die) (v : W64) (s : State), evtLive (s.fld (Pg.ctr d) F.ctrAddidxIdx) = true →
    ∃ t, exec (.ctrAdd d v) s = .next t ∧ (t.reg (ctrKey d (s.ctrSel d) (s.fld (Pg.ctr d) F.ctrAddidxIdx))).toNat =
      min (2 ^ 64 - 1) ((s.reg (ctrKey d (s.ctrSel d) (s.fld (Pg.ctr d) F.ctrAddidxIdx))).toNat + v.toNat)) ∧
  (∀ (d : Die) (v : W64) (s : State), evtLive (s.fld (Pg.ctr d) F.ctrAddidxIdx) = false → exec (.ctrAdd d v) s = .next (s.setErr (Pg.ctr d) F.ctrErrStatBadSeq 0)))

/-- The region table (R193, R194, R210): a region that passes all checks becomes valid with its members in service; one that fails stays invalid with the check's
code in LAST_ERR; closing starts quiescing, whose end clears QUIESCING. It says under which conditions these commands complete: mapRgnValidate, mapRgnClose,
mapQuiesceDone. -/
def Obligations.RegionTable : Prop := (∀ (r : Fin 64) (data : W64) (s s1 : State), s.bitF (Pg.map + 32 * r) F.mapRgnCfgValid = false →
    s1 = s.setReg (Pg.map + 32 * r + 0x210) ((s.reg (Pg.map + 32 * r + 0x210) &&& ~~~rgnMask) ||| (Bits.putBit data 63 true &&& rgnMask)) →
    (s1.rgnCheck r = 0 → exec (.mapRgnValidate r data) s = .next (s1.rgnOpen r)) ∧
    (s1.rgnCheck r ≠ 0 → exec (.mapRgnValidate r data) s = .next ((s1.setFld Pg.map F.mapStatLastErr (s1.rgnCheck r)).setErr Pg.map F.mapErrStatRefused 0))) ∧
  (∀ (r : Fin 64) (s : State), s.bitF (Pg.map + 32 * r) F.mapRgnCfgValid = true →
    ∃ t, exec (.mapRgnClose r) s = .next t ∧ t.bitF (Pg.map + 32 * r) F.mapRgnCfgValid = false ∧ t.bitF Pg.map F.mapStatQuiescing = true ∧ t.mem = s.mem) ∧
  (∀ s : State, ∃ t, exec .mapQuiesceDone s = .next t ∧ t.bitF Pg.map F.mapStatQuiescing = false ∧ t.mem = s.mem)

/-- Errors of the arrays (R212, R214): an uncorrectable error that a scrub pass meets is handled as one of a read, a correctable one is counted; a stack whose
controller fails is fenced. It says under which conditions this command completes: scrubPass. -/
def Obligations.Scrub : Prop := (∀ (m : MemCtl) (e : LineError) (s : State), ctlOf m e.unit = true → e.correctable = true → exec (.scrubPass m ⟨[e], false⟩) s = .next (s.addFld (unitPage e.unit) F.mscEccCe 1)) ∧
  (∀ (m : MemCtl) (e : LineError) (s : State), ctlOf m e.unit = true → e.correctable = false →
    exec (.scrubPass m ⟨[e], false⟩) s = .next (s.lineUe e.unit e.moff e.channel (BitVec.ofNat 64 e.moff))) ∧
  (∀ (m : MemCtl) (s : State), exec (.scrubPass m ⟨[], false⟩) s = .next s ∧ exec (.scrubPass m ⟨[], true⟩) s = .next (s.ctlFails m))

/-- Heat (R43, R200, R204): a stack's readout sets the level at once when its target is higher; a fall step takes one off; an LPDDR readout of at most 85 °C lifts
the doubled refresh and shows the temperature; a sensor at 115 °C or more asserts THERMTRIP. It says under which conditions these commands complete:
thermtrip, stackTempReport, throttleFallStep, lpTempReport. -/
def Obligations.Heat : Prop :=
  (∀ (k : Fin 20) (temp : W16) (s : State), temp.toInt < 1760 → s.bitF (Pg.msc k) F.mscTempValid = true → (s.throttle k).missed < 5 →
    s.fld (Pg.msc k) F.mscTempLevel < heatTarget (BitVec.ofNat 16 (s.fld (Pg.msc k) F.mscThrThresh)) temp →
    ∃ t, exec (.stackTempReport k temp) s = .next t ∧ t.throttle k = ⟨false, 0⟩ ∧
      t.fld (Pg.msc k) F.mscTempLevel = heatTarget (BitVec.ofNat 16 (s.fld (Pg.msc k) F.mscThrThresh)) temp) ∧
  (∀ (k : Fin 20) (s : State), (s.throttle k).falling = true → s.fld (Pg.msc k) F.mscTempLevel ≠ 0 →
    ∃ t, exec (.throttleFallStep k) s = .next t ∧ t.fld (Pg.msc k) F.mscTempLevel = s.fld (Pg.msc k) F.mscTempLevel - 1) ∧
  (∀ (k : Fin 32) (temp : W16) (s : State), temp.toInt ≤ 1360 →
    ∃ t, exec (.lpTempReport k temp) s = .next t ∧ KMap.get false t.ms.lpHot k = false ∧
      t.fld (Pg.lpc (k / 2 : Nat)) (if k.val % 2 = 0 then F.lpcTempTemp0 else F.lpcTempTemp1) = temp.toNat) ∧
  (∀ (sn : Sensor) (temp : W16) (s : State), s.plat.pwrOk = true → 1840 ≤ temp.toInt → ∃ t, exec (.thermtrip sn temp) s = .next t ∧ t.plat.thermtrip = true)

/-- The update dispatcher (R221, R222, R225, R226, R236, R238): a command starts, chunks run on their units, journals settle, the segment pass of a unit runs, a
poisoned or tainted command ends without a commit, and a commit that a fault interrupts is staged and replayed. It says under which conditions these commands
complete: updateStart, uuChunkRun, journalMirrorAck, uuSegmentPass, updateCommit. -/
def Obligations.UpdateDispatch : Prop := (∀ (s s1 : State), s.upd.any (·.staged) = false → s.upd.countP (·.running) < 16 →
    ((s.upd.filter fun k => !k.running && !s.updBlocked k).findSome? fun k => s.startUpd k) = some s1 → exec .updateStart s = .next s1) ∧
  (∀ (u : Fin 36) (p : Bool) (hits : Hits) (s : State) (k : UpdCmd) (c : Nat), (s.meet hits).uuUp u = true → (s.meet hits).inReset [(5, u)] = false →
    (s.meet hits).journalRoom u = true → (s.meet hits).nextChunk u = some (k, c) → (s.meet hits).chunkShut k u c = false →
    exec (.uuChunkRun ⟨u, hits⟩ p) s = .next ((s.meet hits).runChunk k u c p)) ∧
  (∀ (u : Fin 36) (s : State) (j : Journal), s.journals.find? (fun j => decide (j.unit = u.val)) = some j →
    exec (.journalMirrorAck u) s = .next (s.settleChunk j)) ∧
  (∀ (u : Fin 36) (hits : Hits) (s : State) (k : UpdCmd), (s.meet hits).uuUp u = true →
    ((s.meet hits).upd.find? fun k => k.segMode && (s.meet hits).chunksIn k && !k.poisoned && k.owed.contains u.val) = some k →
    exec (.uuSegmentPass ⟨u, hits⟩) s = .next ((s.meet hits).segmentPass k u)) ∧
  (∀ (s : State) (k : UpdCmd), s.upd.any (·.staged) = false → (s.upd.find? fun k => s.chunksIn k && (k.poisoned || k.owed.isEmpty)) = some k →
    (k.poisoned = true → exec .updateCommit s = .next ((s.endUpd k St.poisoned 0).consume s.hub k.ctx 0 (BitVec.ofNat 64 k.rmap))) ∧
    (k.poisoned = false → s.stepTainted k.ctx k.step = true → exec .updateCommit s = .next (s.endUpd k St.tainted 0)) ∧
    (k.poisoned = false → s.stepTainted k.ctx k.step = false → exec .updateCommit s = .next (s.commitUpd k))) ∧
  (∀ s : State, s.upd.any (·.staged) = true → exec .updateCommit s = .next s.replayCommit.pumpAll) ∧
  (∀ (s : State) (k : UpdCmd), (s.upd.find? fun k => s.chunksIn k && k.owed.isEmpty && !k.poisoned && !s.stepTainted k.ctx k.step) = some k →
    s.cutCommit = if (Config.freeValue s.free).getLsbD 0 then (s.withFree (s.free + 1)).stageCommit k else s.withFree (s.free + 1))

/-- Each lane computes on its own values (R227, R228): after an element operation that writes register n of a lane, that register of every lane holds the
operation's result on that lane's registers and streams before it, and every other register of every lane is as it was. -/
def Obligations.LanesAreIndependent : Prop := ∀ (u : Fin 36) (op : UOp) (s : State), s.uuUp u = true → (s.uu u).section_ = true →
    (∀ (l n : Nat) (v : W64), l < 32 → n < 16 →
      (op.run (fun n => KMap.get 0 (s.uu u).e (32 * n + l)) (fun st => KMap.get 0 (s.uu u).inp (32 * st + l))).reg = some (n, v) →
      KMap.get 0 ((s.lanes u op).uu u).e (32 * n + l) = v) ∧
    (∀ (l n : Nat), l < 32 →
      (∀ v, (op.run (fun n => KMap.get 0 (s.uu u).e (32 * n + l)) (fun st => KMap.get 0 (s.uu u).inp (32 * st + l))).reg ≠ some (n, v)) →
      KMap.get 0 ((s.lanes u op).uu u).e (32 * n + l) = KMap.get 0 (s.uu u).e (32 * n + l))

/-- The element operations of an update unit in its element section (R227, R228): each instruction runs in all 32 lanes of the group in hand, on the lane's own
registers and streams. The prologue and the bounds of the element section (R227): ukset gives a constant to every lane, uloop begins the section with the
unit's first group, uend takes the chunk's next group, or ends the section when no chunk is in hand. Where the specification leaves a point open it follows
the choice of the model in log entry 31. It says under which conditions these commands complete: uld, ust, ukset, uadd, usub, umul, udiv, ufma, usqrt, umax,
umin, uabs, uneg, usgn, ucvt, uwadd, uloop, uend. -/
def Obligations.UnitInstructions : Prop :=
  ((∀ (u : Fin 36) (rd : Gpr) (st : Fin 32) (s : State), st.val ≤ 3 → exec (.uld u rd st) s = .next (s.lanes u (.uld rd st))) ∧
  (∀ (u : Fin 36) (rs2 : Gpr) (st : Fin 32) (s : State), 1 ≤ st.val → st.val ≤ 4 → exec (.ust u st rs2) s = .next (s.lanes u (.ust st rs2))) ∧
  (∀ (u : Fin 36) (dbl : Bool) (rd a b : Gpr) (s : State),
    exec (.uadd u dbl rd a b) s = .next (s.lanes u (.bin .add dbl rd a b)) ∧ exec (.usub u dbl rd a b) s = .next (s.lanes u (.bin .sub dbl rd a b)) ∧
    exec (.umul u dbl rd a b) s = .next (s.lanes u (.bin .mul dbl rd a b)) ∧ exec (.udiv u dbl rd a b) s = .next (s.lanes u (.bin .div dbl rd a b)) ∧
    exec (.umax u dbl rd a b) s = .next (s.lanes u (.bin .max dbl rd a b)) ∧ exec (.umin u dbl rd a b) s = .next (s.lanes u (.bin .min dbl rd a b)) ∧
    exec (.ufma u dbl rd a b) s = .next (s.lanes u (.fma dbl rd a b)) ∧ exec (.usqrt u dbl rd a) s = .next (s.lanes u (.un .sqrt dbl rd a)) ∧
    exec (.uabs u dbl rd a) s = .next (s.lanes u (.un .abs dbl rd a)) ∧ exec (.uneg u dbl rd a) s = .next (s.lanes u (.un .neg dbl rd a)) ∧
    exec (.usgn u dbl rd a) s = .next (s.lanes u (.un .sgn dbl rd a)) ∧ exec (.ucvt u dbl rd a) s = .next (s.lanes u (.cvt dbl rd a)) ∧
    exec (.uwadd u rd a b) s = .next (s.lanes u (.wadd rd a b)))) ∧
  ((∀ (u : Fin 36) (rd : Fin 16) (rs1 : Gpr) (s : State) (k : UpdCmd), s.coreRuns (340 + u.val) = true → s.unitCmd u = some k →
    ∃ t, exec (.ukset u rd rs1) s = .next t ∧ ∀ l, l < 32 → KMap.get 0 (t.uu u).e (32 * (16 + rd.val) + l) = reg32 (lo32 (s.g (340 + u.val) rs1))) ∧
  (∀ (u : Fin 36) (s : State) (k : UpdCmd), s.coreRuns (340 + u.val) = true → s.unitCmd u = some k →
    exec (.uloop u) s = .next ((((s.putUpd { k with ready := k.ready ++ [u.val] }).setUu u { s.uu u with
      e := (k.constsOn u).foldl (fun m r => (List.range 32).foldl (fun m l => KMap.set 0 m (32 * r.1 + l) r.2) m) (s.uu u).e }).takeHand
        { k with ready := k.ready ++ [u.val] } u).nextPc (340 + u.val))) ∧
  (∀ (u : Fin 36) (s : State) (k : UpdCmd) (h : UuHand), s.uuUp u = true → (s.uu u).hand = some h →
    (s.upd.find? fun k => decide (k.sq = h.sq ∧ k.seq = h.seq) && k.todo.contains (h.chunk, u.val)) = some k → (h.group + 1) * 32 < 8 * k.width h.chunk →
    exec (.uend u) s = .next (s.takeLanes k u { h with group := h.group + 1, els := h.els ++ (s.uu u).lanesOut })) ∧
  (∀ (u : Fin 36) (s : State), s.uuUp u = true → (s.uu u).hand = none → ∃ t, exec (.uend u) s = .next t ∧ (t.uu u).section_ = false ∧ (t.uu u).e = (s.uu u).e))

/-- Stage-link instructions of a running steward core (R253, R255, R268): a push with a credit takes the next SEQ, a pop takes the oldest descriptor not popped,
qdone releases the popped head; without a credit or descriptor the core waits, or the non-blocking form answers at once. It says under which conditions these
commands complete: qpush, qpop, qdone. -/
def Obligations.StageQueues : Prop := (∀ (c : ClusterNo) (nb : Bool) (rd rs1 rs2 : Gpr) (s : State) (ol : Nat) (ws : List W64), s.coreRuns (stewardOf c) = true →
    (s.g (stewardOf c) rs1).toNat = ol → s.scratchWords (stewardOf c) (s.g (stewardOf c) rs2).toNat 8 = ws → s.ownsLink c ol (s.outStage ol) = true →
    s.aborting (s.coreCtx (stewardOf c)) = false → s.outState ol = Sl.outOpen → s.pushCheck (s.coreCtx (stewardOf c)) ol ws = St.ok →
    (s.hasCredit ol = true → exec (.qpush c nb rd rs1 rs2) s = .next ((s.pushLink ol ws).retSt (stewardOf c) rd St.ok)) ∧
    (s.hasCredit ol = false → exec (.qpush c nb rd rs1 rs2) s =
      .next (if nb then s.retSt (stewardOf c) rd St.noCredit else s.wait (stewardOf c) rd (.qpush ol ws)))) ∧
  (∀ (c : ClusterNo) (nb : Bool) (rd rs1 rs2 : Gpr) (s : State) (qn : Nat), s.coreRuns (stewardOf c) = true →
    (s.g (stewardOf c) rs1).toNat = qn → s.ownsLink c qn (s.inStage qn) = true → s.inState qn = Sl.open_ →
    (∀ ws l, popDesc (s.inq qn).descs = some (ws, l) → exec (.qpop c nb rd rs1 rs2) s =
      .next (((s.setInq qn ⟨l⟩).setScratchWords (stewardOf c) (s.g (stewardOf c) rs2).toNat ws).retSt (stewardOf c) rd
        (if s.descTainted (wf ws 0 55 48) ws then St.tainted else St.ok))) ∧
    (popDesc (s.inq qn).descs = none → exec (.qpop c nb rd rs1 rs2) s =
      .next (if nb then s.retSt (stewardOf c) rd St.queueEmpty else s.wait (stewardOf c) rd (.qpop qn (s.g (stewardOf c) rs2).toNat)))) ∧
  (∀ (c : ClusterNo) (rd rs1 : Gpr) (s : State) (qn : Nat) (ws : List W64) (rest : List (List W64 × Bool)), s.coreRuns (stewardOf c) = true →
    (s.g (stewardOf c) rs1).toNat = qn → s.ownsLink c qn (s.inStage qn) = true → s.inState qn = Sl.open_ → (s.inq qn).descs = (ws, true) :: rest →
    exec (.qdone c rd rs1) s = .next ((((s.wrapFld (inSeqPg qn) F.slqInseqConsumed 1).setInq qn ⟨rest⟩).dropMarks qn).retSt (stewardOf c) rd
      (if s.descTainted (wf ws 0 55 48) ws then St.tainted else St.ok)))

/-- Weight versions, flight entries and taints by instruction (R256, R258, R263, R264): vacq adds a reference and writes version and address, vrel takes one off
and frees a stashed slot with the last, fbeg and fend count flight entries, taint records and relays. Where the specification leaves a point open it follows
the choice of the model in log entry 33. It says under which conditions these commands complete: vacq, vrel, fbeg, fend, taint. -/
def Obligations.StageVersions : Prop := (∀ (c : ClusterNo) (rd rs1 rs2 : Gpr) (s s0 : State) (i : Nat), s.coreRuns (stewardOf c) = true → s.aborting (s.coreCtx (stewardOf c)) = false →
    (s.stageOf c).isNone = false → s0 = s.vtNote → s0.vacqCheck (s.coreCtx (stewardOf c)) (s.g (stewardOf c) rs1).toNat (Bits.get (s.scratchWord (stewardOf c) (s.g (stewardOf c) rs2).toNat) 31 0) = (St.ok, i) →
    ∃ t, exec (.vacq c rd rs1 rs2) s = .next t ∧ t.g (stewardOf c) rd = (if rd.val = 0 then 0 else BitVec.ofNat 64 St.ok)) ∧
  (∀ (c : ClusterNo) (rd rs1 rs2 : Gpr) (s s0 : State) (i : Nat), s.coreRuns (stewardOf c) = true → (s.stageOf c).isNone = false → s0 = s.vtNote →
    (s.g (stewardOf c) rs1).toNat < 65536 → s0.vtValid (s.g (stewardOf c) rs1).toNat = true → s0.vtCtx (s.g (stewardOf c) rs1).toNat = s.coreCtx (stewardOf c) →
    s0.heldVs (s.g (stewardOf c) rs1).toNat (Bits.get (s.g (stewardOf c) rs2) 31 0) = some i → s0.vsRefs (s.g (stewardOf c) rs1).toNat i ≠ 0 →
    exec (.vrel c rd rs1 rs2) s = .next ((s0.setVs (s.g (stewardOf c) rs1).toNat i
      (if s0.vsState (s.g (stewardOf c) rs1).toNat i = Vs.stashed ∧ s0.vsRefs (s.g (stewardOf c) rs1).toNat i = 1 then Vs.free else s0.vsState (s.g (stewardOf c) rs1).toNat i)
      (s0.vsRefs (s.g (stewardOf c) rs1).toNat i - 1) (Bits.get (s.g (stewardOf c) rs2) 31 0)).retSt (stewardOf c) rd St.ok)) ∧
  (∀ (c : ClusterNo) (rd rs1 : Gpr) (s : State), s.coreRuns (stewardOf c) = true → (s.stageOf c).isNone = false →
    (s.aborting (s.coreCtx (stewardOf c)) = false → ∃ t, exec (.fbeg c rd rs1) s = .next t ∧ t.stg.flight = (s.fbeg (s.coreCtx (stewardOf c)) ((s.g (stewardOf c) rs1).setWidth 32)).2.stg.flight ∧
      t.g (stewardOf c) rd = if rd.val = 0 then 0 else BitVec.ofNat 64 (s.fbeg (s.coreCtx (stewardOf c)) ((s.g (stewardOf c) rs1).setWidth 32)).1) ∧
    (∃ t, exec (.fend c rd rs1) s = .next t ∧ t.stg.flight = (s.fend (s.coreCtx (stewardOf c)) ((s.g (stewardOf c) rs1).setWidth 32)).2.stg.flight ∧
      t.g (stewardOf c) rd = if rd.val = 0 then 0 else BitVec.ofNat 64 (s.fend (s.coreCtx (stewardOf c)) ((s.g (stewardOf c) rs1).setWidth 32)).1)) ∧
  (∀ (c : ClusterNo) (rd rs1 rs2 : Gpr) (s : State), s.coreRuns (stewardOf c) = true →
    exec (.taint c rd rs1 rs2) s = .next (((s.recordTaint ⟨s.coreCtx (stewardOf c), s.g (stewardOf c) rs1, (s.g (stewardOf c) rs2).setWidth 32⟩).lateAnswered c
      (s.coreCtx (stewardOf c))).retSt (stewardOf c) rd St.ok))

/-- Messages of stage links (R252 to R255, R263, R264): the end of a payload copy, OPEN, ACCEPT, REFUSE, descriptors and TAINT by the sequence rule,
acknowledgement, credit, and the resend timer. Stage and link configuration, and the version table's commands (R249, R250, R262, R266): VALID closes or opens
a link, a stage is refused when it breaks the rules, one version-table command runs at a time and its end writes the result, TCLR drops a context's taints.
Where the specification leaves a point open it follows the choice of the model in log entries 17, 22 and 32. It says under which conditions these commands
complete: slCopyDone, slOpenRecv, slAcceptRecv, slRefuseRecv, slDescRecv, slAckRecv, slConsumedSend, slCreditRecv, slResend, slTaintRecv, slqIncfgWrite,
slqOutcfgWrite, stgStageWrite, vcmdActivate, vcmdRetire, stgTclr, vcmdDone. -/
def Obligations.StageLinks : Prop :=
  ((∀ (ol : Byte) (seq : W32) (hits : Hits) (s : State) (m : OutMsg), ((s.meet hits).outq ol.toNat).find? (fun m => decide (m.seq = seq) && m.copying) = some m →
    ((s.meet hits).olLocal ol.toNat = true → (s.meet hits).copyShut ol.toNat m = false →
      exec (.slCopyDone ⟨ol, hits⟩ seq) s = .next (((s.meet hits).copyPayload ol.toNat m).copyEnds ol.toNat seq)) ∧
    (∀ o s1, (s.meet hits).olLocal ol.toNat = false → (s.meet hits).payloadPut ol.toNat seq = some o →
      s1 = (s.meet hits).withNet { (s.meet hits).net with ops := (s.meet hits).net.ops.filter fun x => decide (x.num ≠ o.num) } →
      (o.status = St.ok → exec (.slCopyDone ⟨ol, hits⟩ seq) s = .next (s1.copyEnds ol.toNat seq)) ∧
      (o.status ≠ St.ok → exec (.slCopyDone ⟨ol, hits⟩ seq) s = .next (s1.putPayload ol.toNat m)))) ∧
  (∀ (m : SlOpen) (s : State), s.bitF (inPg m.qn.toNat) F.slqIncfgValid = true → s.inState m.qn.toNat ≠ Sl.open_ → s.fld (inPg m.qn.toNat) F.slqIncfgSrcdev = m.srcDev.toNat →
    s.fld (inPg m.qn.toNat) F.slqIncfgSrcout = m.srcOl.toNat → s.fld (inPg m.qn.toNat) F.slqIncfgDepth = m.depth →
    ∃ t, exec (.slOpenRecv m) s = .next t ∧ t.inState m.qn.toNat = Sl.open_ ∧ (t.inq m.qn.toNat).descs = [] ∧
      t.stg.outbox = s.stg.outbox ++ [⟨1, m.srcOl.toNat, [BitVec.ofNat 64 m.srcDev.toNat]⟩]) ∧
  (∀ (m : SlOpen) (s : State), s.bitF (inPg m.qn.toNat) F.slqIncfgValid = false →
    exec (.slOpenRecv m) s = .next (s.slSend ⟨2, m.srcOl.toNat, [BitVec.ofNat 64 m.srcDev.toNat]⟩)) ∧
  (∀ (ol : Byte) (s : State), s.outState ol.toNat = Sl.outOpening →
    (∃ t, exec (.slAcceptRecv ol) s = .next t ∧ t.outState ol.toNat = Sl.outOpen ∧ t.outq ol.toNat = []) ∧
    exec (.slRefuseRecv ol) s = .next ((s.setFld (inPg ol.toNat) F.slqOutcfgState Sl.outRefused).setErr (slqPage ol.toNat) F.slqErrStatRefused (s.stageCtx (s.outStage ol.toNat))) ∧
    exec (.slResend ol) s = .next (s.slOpen ol.toNat)) ∧
  (∀ (ol : Byte) (s : State), s.outState ol.toNat = Sl.outOpen → exec (.slResend ol) s = .next (s.slResend ol.toNat)) ∧
  (∀ (m : SlDesc) (s : State), s.inState m.qn.toNat = Sl.open_ → m.seq = BitVec.ofNat 32 (s.inExpected m.qn.toNat) → (wd m.words 0).getLsbD 46 = false →
    ((wd m.words 0).getLsbD 47 = true → s.bitF (inPg m.qn.toNat) F.slqIncfgEarlyOk = true) →
    ∃ s1, s1 = s.wrapFld (inSeqPg m.qn.toNat) F.slqInseqExpected 1 ∧
      exec (.slDescRecv m) s = .next (((s1.setInq m.qn.toNat ⟨(s1.inq m.qn.toNat).descs ++ [(s1.landed m m.seq, false)]⟩).slAck m.qn.toNat m.seq).wakeLinks)) ∧
  (∀ (m : SlDesc) (s : State), s.inState m.qn.toNat = Sl.open_ → m.seq ≠ BitVec.ofNat 32 (s.inExpected m.qn.toNat) →
    ((wd m.words 0).getLsbD 47 = true → s.bitF (inPg m.qn.toNat) F.slqIncfgEarlyOk = true) →
    (m.seq - BitVec.ofNat 32 (s.inExpected m.qn.toNat)).msb = false →
    exec (.slDescRecv m) s = .next (s.setErr (slqPage m.qn.toNat) F.slqErrStatGap (s.stageCtx (s.inStage m.qn.toNat)))) ∧
  (∀ (qn : Byte) (t : TaintId) (s : State), s.inState qn.toNat = Sl.open_ → t.seq = BitVec.ofNat 32 (s.inExpected qn.toNat) →
    ∃ s1, s1 = s.wrapFld (inSeqPg qn.toNat) F.slqInseqExpected 1 ∧
      exec (.slTaintRecv qn t) s = .next (((((s1.setInq qn.toNat ⟨(s1.inq qn.toNat).descs ++ [([], true)]⟩).dropMarks qn.toNat).recordTaint
        ⟨s.stageCtx (s.inStage qn.toNat), t.step, t.mb⟩).slAck qn.toNat t.seq).wakeLinks)) ∧
  (∀ (ol : Byte) (seq consumed : W32) (s s1 : State), s.outState ol.toNat = Sl.outOpen → s1 = s.setFld (inSeqPg ol.toNat) F.slqOutseqConsumed consumed.toNat →
    (((s1.outq ol.toNat).find? fun m => decide (m.seq = seq) && !m.copying) = none → exec (.slAckRecv ol seq consumed) s = .next s1.wakeLinks) ∧
    (∀ m, ((s1.outq ol.toNat).find? fun m => decide (m.seq = seq) && !m.copying) = some m → m.donew = 0 →
      exec (.slAckRecv ol seq consumed) s = .next (s1.setOutq ol.toNat ((s1.outq ol.toNat).filter fun x => decide (x.seq ≠ seq))).wakeLinks) ∧
    exec (.slCreditRecv ol consumed) s = .next s1.wakeLinks) ∧
  (∀ (qn : Byte) (s : State), s.inState qn.toNat = Sl.open_ → exec (.slConsumedSend qn) s = .next (s.slSend ⟨5, qn.toNat, [BitVec.ofNat 64 (s.inConsumed qn.toNat)]⟩))) ∧
  ((∀ (d : Die) (q : Fin 64) (data : W64) (s : State), data.getLsbD 63 = true → s.bitF (inPg (64 * d.val + q.val)) F.slqIncfgValid = false →
    s.poolUsed d q + F.slqIncfgDepth.of data ≤ 1024 →
    exec (.slqIncfgWrite d q data) s = .next ((s.plainWrite (inPg (64 * d.val + q.val) + 0x100) data).setFld (inPg (64 * d.val + q.val)) F.slqIncfgState Sl.closed)) ∧
  (∀ (d : Die) (q : Fin 64) (data : W64) (s : State), data.getLsbD 63 = true → s.bitF (inPg (64 * d.val + q.val)) F.slqIncfgValid = true →
    s.poolUsed d q + F.slqIncfgDepth.of data ≤ 1024 → exec (.slqIncfgWrite d q data) s = .next (s.plainWrite (inPg (64 * d.val + q.val) + 0x100) data)) ∧
  (∀ (d : Die) (q : Fin 64) (data : W64) (s : State), data.getLsbD 63 = false → ∃ s1, s1 = ((s.plainWrite (inPg (64 * d.val + q.val) + 0x100) data).setFld (inPg (64 * d.val + q.val)) F.slqIncfgState Sl.closed).setInq
    (64 * d.val + q.val) ⟨[]⟩ ∧ exec (.slqIncfgWrite d q data) s = .next s1.wakeLinks) ∧
  (∀ (d : Die) (j : Fin 64) (data : W64) (s s0 : State), data.getLsbD 63 = true → s.bitF (inPg (64 * d.val + j.val)) F.slqOutcfgValid = false →
    s0 = s.plainWrite (inPg (64 * d.val + j.val) + 0x500) data → s0.fld (inPg (64 * d.val + j.val)) F.slqOutcfgResend ≠ 0 →
    exec (.slqOutcfgWrite d j data) s = .next ((s0.setFld (inPg (64 * d.val + j.val)) F.slqOutcfgState Sl.outOpening).slOpen (64 * d.val + j.val))) ∧
  (∀ (i : Fin 16) (data : W64) (s : State), s.stageValid i = false → data.getLsbD 63 = true →
    (s.stageOk i data = true → exec (.stgStageWrite i data) s = .next (s.plainWrite (Pg.stg + 0x100 + 8 * i.val) data)) ∧
    (s.stageOk i data = false → exec (.stgStageWrite i data) s =
      .next (((s.plainWrite (Pg.stg + 0x100 + 8 * i.val) data).setBitF (Pg.stg + 8 * i.val) F.stgStageValid false).setErr Pg.stg F.stgErrStatBadSeq 0))) ∧
  (∀ (v : W16) (s : State), s.bitF Pg.stg F.stgVstatBusy = false →
    (∃ t, exec (.vcmdActivate v) s = .next t ∧ t.stg.vcmd = some ⟨1, v.toNat⟩) ∧ (∃ t, exec (.vcmdRetire v) s = .next t ∧ t.stg.vcmd = some ⟨2, v.toNat⟩)) ∧
  (∀ (s : State) (k : VCmd), s.stg.vcmd = some k → ∃ t, exec .vcmdDone s = .next t ∧ t.stg.vcmd = none ∧
    t.reg (Pg.stg + 0x198) = Bits.make [(23, 16, ((s.withStg { s.stg with vcmd := none }).vtNote).vcmdResult k), (15, 0, k.vte)]) ∧
  (∀ (ctx : Byte) (s : State), ∃ t, exec (.stgTclr ctx) s = .next t ∧ t.taintAll ctx.toNat = false ∧ (∀ x ∈ t.stg.taints, x.ctx ≠ ctx.toNat) ∧
    (∀ x ∈ s.stg.taints, x.ctx ≠ ctx.toNat → x ∈ t.stg.taints)))

/-- Full/empty instructions (R274 to R277): where the word's checks pass and its state allows the operation, it ends with its status and data and the word's
waiters are tried; where it must wait, the core joins the waiters, or the non-blocking form answers NOT_READY; a failed check is the status. Where the
specification leaves a point open it follows the choice of the model in log entry 25. It says under which conditions these commands complete: ldfe, ldfn,
stef, finc, fdec, fini. -/
def Obligations.FullEmptyInstructions : Prop := (∀ (c : CoreNo) (nb : Bool) (rd rs1 rs2 : Gpr) (err : ArrayErr) (s s0 s2 : State) (l : Nat), s.coreRuns c = true → c.val < 340 → s.wordCheck (s.coreCtx c) (s.g c rs1) = St.ok →
    (s.g c rs1).toNat % 2 ^ 48 = l → s.atomicShut (slotDie c) (s.partOf (s.coreCtx c)) l = false →
    s2 = s.chargeAtomic (slotDie c) (s.partOf (s.coreCtx c)) l → s0 = s2.arrayErr l err →
    (∀ v s1, rd.val % 2 = 0 → s0.wordOp l .ldfe = some (St.ok, v, s1) → exec (.ldfe ⟨c, err⟩ nb rd rs1) s = .next ((s1.retWord c rd .ldfe St.ok v).wake l)) ∧
    (rd.val % 2 = 0 → s0.wordOp l .ldfe = none → exec (.ldfe ⟨c, err⟩ nb rd rs1) s = .next (if nb then s0.retWord c rd .ldfe St.notReady none else s0.wait c rd (.ldfe l))) ∧
    (∀ v s1, rd.val % 2 = 0 → s0.wordOp l .ldfn = some (St.ok, v, s1) → exec (.ldfn ⟨c, err⟩ nb rd rs1) s = .next ((s1.retWord c rd .ldfn St.ok v).wake l)) ∧
    (rd.val % 2 = 0 → s0.wordOp l .ldfn = none → exec (.ldfn ⟨c, err⟩ nb rd rs1) s = .next (if nb then s0.retWord c rd .ldfn St.notReady none else s0.wait c rd (.ldfn l))) ∧
    (∀ v s1, s2.wordOp l (.stef (s.g c rs2)) = some (St.ok, v, s1) → exec (.stef c nb rd rs1 rs2) s = .next ((s1.retWord c rd (.stef (s.g c rs2)) St.ok v).wake l)) ∧
    (s2.wordOp l (.stef (s.g c rs2)) = none → exec (.stef c nb rd rs1 rs2) s =
      .next (if nb then s2.retWord c rd (.stef (s.g c rs2)) St.notReady none else s2.wait c rd (.stef l (s.g c rs2)))) ∧
    (∀ v s1, rd.val % 2 = 0 → s0.wordOp l (.finc (s.g c rs2)) = some (St.ok, v, s1) → exec (.finc ⟨c, err⟩ rd rs1 rs2) s = .next ((s1.retWord c rd (.finc (s.g c rs2)) St.ok v).wake l)) ∧
    (∀ v s1, rd.val % 2 = 0 → s0.wordOp l (.fdec (s.g c rs2)) = some (St.ok, v, s1) → exec (.fdec ⟨c, err⟩ rd rs1 rs2) s = .next ((s1.retWord c rd (.fdec (s.g c rs2)) St.ok v).wake l)) ∧
    (∀ f v s1, s2.wordOp l (.fini f (s.g c rs2)) = some (St.ok, v, s1) → exec (.fini c f rd rs1 rs2) s = .next ((s1.retWord c rd (.fini f (s.g c rs2)) St.ok v).wake l))) ∧
  (∀ (c : CoreNo) (nb : Bool) (rd rs1 rs2 : Gpr) (err : ArrayErr) (s : State), s.coreRuns c = true → c.val < 340 → rd.val % 2 = 0 → s.wordCheck (s.coreCtx c) (s.g c rs1) ≠ St.ok →
    exec (.ldfe ⟨c, err⟩ nb rd rs1) s = .next (s.retWord c rd .ldfe (s.wordCheck (s.coreCtx c) (s.g c rs1)) none) ∧
    exec (.stef c nb rd rs1 rs2) s = .next (s.retWord c rd (.stef (s.g c rs2)) (s.wordCheck (s.coreCtx c) (s.g c rs1)) none)) ∧
  (∀ (c : CoreNo) (nb : Bool) (rd rs1 : Gpr) (err : ArrayErr) (s : State), s.coreRuns c = true → rd.val % 2 = 1 →
    exec (.ldfe ⟨c, err⟩ nb rd rs1) s = .next (s.illegal c) ∧ exec (.ldfn ⟨c, err⟩ nb rd rs1) s = .next (s.illegal c))

/-- The table of the full/empty operations on a word that no lost claim covers (R276, R278): its state before, its status and data, and its full bit and data
after. -/
def Obligations.FullEmptyTable : Prop := ∀ (l : Nat) (v : W64) (s : State), s.lostAt l = false → (∀ i, i < 8 → ∃ p, s.place (l + i) = some p ∧ p.key (l + i) = s.keyOf l + i) →
    (s.wordState l = (true, false) →
      (∃ t, s.wordOp l .ldfe = some (St.ok, some (s.load64 l), t) ∧ t.fullAt (s.keyOf l) = false ∧ t.poisonAt (s.keyOf l) = false ∧ (∀ i, i < 8 → t.byteKey (s.keyOf l + i) = s.byteKey (s.keyOf l + i))) ∧
      s.wordOp l .ldfn = some (St.ok, some (s.load64 l), s) ∧ s.wordOp l (.stef v) = none ∧
      (v ≠ 0 → (s.load64 l).toNat + v.toNat < 2 ^ 64 → ∃ t, s.wordOp l (.finc v) = some (St.ok, some (s.load64 l), t) ∧ t.fullAt (s.keyOf l) = true ∧
        (∀ i, i < 8 → t.byteKey (s.keyOf l + i) = (s.load64 l + v).extractLsb' (8 * i) 8)) ∧
      (v ≠ 0 → 2 ^ 64 ≤ (s.load64 l).toNat + v.toNat → s.wordOp l (.finc v) = some (St.syncOverflow, some (s.load64 l), s)) ∧
      (v ≠ 0 → (s.load64 l).toNat < v.toNat → s.wordOp l (.fdec v) = some (St.syncUnderflow, some (s.load64 l), s))) ∧
    (s.wordState l = (false, false) →
      s.wordOp l .ldfe = none ∧ s.wordOp l .ldfn = none ∧
      (∃ t, s.wordOp l (.stef v) = some (St.ok, none, t) ∧ t.fullAt (s.keyOf l) = true ∧ (∀ i, i < 8 → t.byteKey (s.keyOf l + i) = v.extractLsb' (8 * i) 8))) ∧
    (s.wordState l = (true, true) → (∃ t, s.wordOp l .ldfe = some (St.poisoned, some (s.load64 l), t) ∧ t.fullAt (s.keyOf l) = false) ∧ s.wordOp l .ldfn = some (St.poisoned, some (s.load64 l), s)) ∧
    (s.wordState l = (false, true) → s.wordOp l .ldfe = some (St.ownerLost, none, s) ∧ s.wordOp l (.stef v) = some (St.ownerLost, none, s)) ∧
    (∃ t, s.wordOp l (.fini true v) = some (St.ok, none, t) ∧ t.fullAt (s.keyOf l) = true ∧ t.poisonAt (s.keyOf l) = false)

/-- Barriers (R289 to R292): arming, an arrival by instruction or by an update unit, waiting for an episode, the read of STAT, disarming. Where the specification
leaves a point open it follows the choice of the model in log entry 35. It says under which conditions these commands complete: barr, bwait, barrive, barArm,
barDisarm, barStatRead. -/
def Obligations.Barriers : Prop := (∀ (b : Fin 64) (data : W64) (s : State), s.bitF (Pg.bar b) F.barCfgValid = false → s.maskEmpty b = false →
    ∃ t, exec (.barArm b data) s = .next t ∧ t.sync.waiters = s.sync.waiters ∧ t.barState b = Bar.armed ∧ t.barEpisode b = 0) ∧
  (∀ (b : Fin 64) (data : W64) (s : State), s.bitF (Pg.bar b) F.barCfgValid = false → s.maskEmpty b = true →
    exec (.barArm b data) s = .next (((s.plainWrite (Pg.bar b + 0x100) (Bits.putBit data 63 true)).setBitF (Pg.bar b) F.barCfgValid false).setErr (Pg.bar b) F.barErrStatBadSeq 0)) ∧
  (∀ (b : Fin 64) (s : State), exec (.barDisarm b) s = .next (((s.setBitF (Pg.bar b) F.barCfgValid false).setFld (Pg.bar b) F.barStatState Bar.idle).releaseBroken b)) ∧
  (∀ (b : Fin 64) (s : State), ∃ t, exec (.barStatRead b) s = .next t ∧ t.rdData = s.reg (Pg.bar b + 0x18) ∧ t.fld (Pg.bar b) F.barStatDropped = 0 ∧ t.barState b = s.barState b) ∧
  (∀ (c : CoreNo) (nb : Bool) (rd rs1 : Gpr) (s : State) (b : Nat), s.coreRuns c = true → c.val < 340 → rd.val % 2 = 0 → (s.g c rs1).toNat % 64 = b →
    (s.arriveCheck b c (s.arriveCtx c b) = St.ok → exec (.barr c nb rd rs1) s =
      .next (if agentSlot c then s.courierArrive c rd b (s.arriveCtx c b) nb else s.coreArrive c rd b nb)) ∧
    (s.arriveCheck b c (s.arriveCtx c b) ≠ St.ok → exec (.barr c nb rd rs1) s = .next (s.retNone c rd (s.arriveCheck b c (s.arriveCtx c b))))) ∧
  (∀ (c : CoreNo) (nb : Bool) (rd rs1 rs2 : Gpr) (s : State) (b : Nat), s.coreRuns c = true → c.val < 340 → (s.g c rs1).toNat % 64 = b →
    s.barState b = Bar.armed → s.barCtx b = s.arriveCtx c b →
    (episodeDone (s.barEpisode b) ((s.g c rs2).setWidth 32) = true → exec (.bwait c nb rd rs1 rs2) s = .next (s.retSt c rd St.ok)) ∧
    (episodeDone (s.barEpisode b) ((s.g c rs2).setWidth 32) = false → exec (.bwait c nb rd rs1 rs2) s =
      .next (if nb then s.retSt c rd St.notReady else s.wait c rd (.episode b ((s.g c rs2).setWidth 32))))) ∧
  (∀ (u : Fin 36) (ctx : Byte) (data : W64) (s : State), s.coreRuns (340 + u.val) = true → s.slotRuns (340 + u.val) ctx.toNat = true →
    exec (.barrive u ctx data) s = .next (((s.agentArrive (data.toNat % 64) (340 + u.val) ctx.toNat).2).nextPc (340 + u.val)))

/-- Signals (R286, R287): fsig sets the pending bits of a slot of its context and wakes it; swait takes the pending bits of its mask, waits, or the non-blocking
form answers NOT_READY. Claims, lost owners and time limits (R279, R281 to R283): a claim that passes enters the lowest free entry, frel frees it, a lost
context's claims are marked, and a wait ends with SYNC_TIMEOUT. It says under which conditions these commands complete: fsig, swait, fclaim, frel,
syncTimeout, synLose, claimMarkDone. -/
def Obligations.SignalsAndClaims : Prop :=
  ((∀ (c : CoreNo) (rd rs1 rs2 : Gpr) (s : State), s.coreRuns c = true → c.val < 340 →
    exec (.fsig c rd rs1 rs2) s = .next ((s.signal (s.coreCtx c) ((s.g c rs1).toNat % 512) (s.g c rs2)).2.retSt c rd (s.signal (s.coreCtx c) ((s.g c rs1).toNat % 512) (s.g c rs2)).1)) ∧
  (∀ (ctx p : Nat) (m : W64) (s : State), p < 376 → m ≠ 0 → (ctx = 0 ∨ s.slotRuns p ctx = true) → s.waits p = false →
    (s.signal ctx p m).1 = St.ok ∧ (s.signal ctx p m).2.signals p = s.signals p ||| m) ∧
  (∀ (c : CoreNo) (nb : Bool) (rd rs1 : Gpr) (s : State), s.coreRuns c = true → rd.val % 2 = 0 → s.signals c &&& s.g c rs1 ≠ 0 →
    ∃ t, exec (.swait c nb rd rs1) s = .next t ∧ t.signals c = s.signals c &&& ~~~(s.g c rs1) ∧ t.g c (rd + 1 : Nat) = s.signals c &&& s.g c rs1) ∧
  (∀ (c : CoreNo) (rd rs1 : Gpr) (s : State), s.coreRuns c = true → rd.val % 2 = 0 → s.signals c &&& s.g c rs1 = 0 →
    exec (.swait c false rd rs1) s = .next (s.wait c rd (.signal (s.g c rs1))) ∧ exec (.swait c true rd rs1) s = .next (s.retNone c rd St.notReady))) ∧
  ((∀ (c : CoreNo) (rd rs1 rs2 : Gpr) (s : State), s.coreRuns c = true → c.val < 340 → s.claimCheck (s.coreCtx c) (s.g c rs1) (s.g c rs2).toNat = St.ok →
    ∃ t i, exec (.fclaim c rd rs1 rs2) s = .next t ∧ i = ((List.range 256).find? fun i => (KMap.find s.sync.claims i).isNone).getD 0 ∧
      KMap.get none t.sync.claims i = some ⟨wordL (s.g c rs1), (s.g c rs2).toNat, s.coreCtx c, false⟩ ∧ t.g c rd = if rd.val = 0 then 0 else BitVec.ofNat 64 St.ok) ∧
  (∀ (c : CoreNo) (rd rs1 : Gpr) (s : State) (e : Nat × Option Claim), s.coreRuns c = true → c.val < 340 →
    (s.sync.claims.find? fun e => decide ((s.g c rs1).toNat / 2 ^ 48 = s.dev) && (e.2.map fun k => decide (k.ctx = s.coreCtx c ∧ k.base = wordL (s.g c rs1)) && !k.lost).getD false) = some e →
    ∃ t, exec (.frel c rd rs1) s = .next t ∧ KMap.get none t.sync.claims e.1 = none) ∧
  (∀ (c : CoreNo) (s : State) (w : Waiter), (s.sync.waiters.find? fun w => decide (w.slot = c.val)) = some w → (s.core c).tmo ≠ 0 →
    exec (.syncTimeout c) s = .next (s.timeOut w)) ∧
  (∀ (ctx : Byte) (s : State), s.bitF Pg.syn F.synStatMarking = false → exec (.synLose ctx) s = .next (s.lose ctx.toNat)) ∧
  (∀ (ctx : Byte) (s : State), s.bitF Pg.syn F.synStatMarking = true → exec (.synLose ctx) s = .next (s.setErr Pg.syn F.synErrStatBadSeq 0)) ∧
  (∀ s : State, s.bitF Pg.syn F.synStatMarking = true → exec .claimMarkDone s = .next s.markLost))

/-- Training and errors of link ports (R299 to R307, R321): training gives width and version and parks the port, or fails it; an uncorrectable error starts a
resync, which RSREQ, MARK and RSACK carry out; credits are heard and sent; the port goes DOWN after its time limits. Where the specification leaves a point
open it follows the choice of the model in log entry 37. It says under which conditions these commands complete: linkTrainDone, linkTrainFail, linkFecUncorr,
rsreqRecv, markRecv, rsackRecv, crdRecv, crdSend, linkFlitGapTimeout, linkResyncTimeout. -/
def Obligations.LinkTraining : Prop := (∀ (p : Fin 24) (vers : Byte) (s : State), s.portTraining p = true → vers.getLsbD 3 = true → (s.port p).wasRouted = false →
    ∃ t, exec (.linkTrainDone p 0xFF vers) s = .next t ∧ t.reg (Pg.lnk p + 0x18) = Bits.make [(11, 8, 8), (7, 4, 3), (3, 0, Lk.parked)] ∧
      (t.port p).helloDue = true ∧ (t.port p).sent = [] ∧ (t.port p).accepted = []) ∧
  (∀ (p : Fin 24) (s : State), s.portTraining p = true → exec (.linkTrainFail p) s = .next (s.trainFailed p F.lnkErrStatTrainFail)) ∧
  (∀ (p : Fin 24) (s : State), s.portUp p = true → (s.port p).waitMark = false →
    ∀ cw, exec (.linkFecUncorr p cw) s = .next ((s.addFld (Pg.lnk p) F.lnkErrcntFecUnc 1).startResync p)) ∧
  (∀ (p : Fin 24) (s : State), s.portUp p = true →
    ∃ t, exec (.rsreqRecv p) s = .next t ∧ (t.port p).stopped = true ∧ (t.port p).lastTx = ctlFlit 0xF3 (s.port p).sent) ∧
  (∀ (p : Fin 24) (sent : List W16) (s : State), s.portUp p = true → (s.port p).waitMark = true →
    ∃ t, exec (.markRecv p sent) s = .next t ∧ (t.port p).accepted = vcMap sent ∧ (t.port p).waitMark = false ∧ (t.port p).alloc = s.takeAlloc p) ∧
  (∀ (p : Fin 24) (freed : List W16) (s : State), s.portUp p = true →
    ((s.port p).stopped = true → ∃ t, exec (.rsackRecv p freed) s = .next t ∧ (t.port p).heard = vcMap freed ∧ (t.port p).stopped = false) ∧
    (∃ t, exec (.crdRecv p freed) s = .next t ∧ (t.port p).heard = vcMap freed ∧ (t.port p).freed = (s.port p).freed) ∧
    (∃ t, exec (.crdSend p) s = .next t ∧ (t.port p).crdDue = false ∧ (t.port p).lastTx = ctlFlit 0xF1 (s.port p).freed) ∧
    exec (.linkFlitGapTimeout p) s = .next (s.portDown p) ∧
    ((s.port p).waitMark = true → exec (.linkResyncTimeout p) s = .next (s.portDown p)) ∧
    ((s.port p).stopped = true → exec (.linkResyncTimeout p) s = .next (s.portDown p)))

/-- The registers of a link port (R321, R322, R327, R328): the allocation of virtual channels, readmission, retraining, admission, parking, EN. Where the
specification leaves a point open it follows the choice of the model in log entry 37. It says under which conditions these commands complete: lnkVcallocWrite,
lnkReadmit, lnkRetrain, lnkAdmit, lnkPark, lnkEnWrite, lnkCounterRead. -/
def Obligations.LinkCommands : Prop := (∀ (p : Fin 24) (hi : Bool) (data : W64) (s : State), s.allocOk p hi data = false → exec (.lnkVcallocWrite p hi data) s = .next (s.setErr (Pg.lnk p) F.lnkErrStatBadSeq 0)) ∧
  (∀ (p : Fin 24) (hi : Bool) (data : W64) (s : State), s.allocOk p hi data = true →
    (s.portUp p = false → exec (.lnkVcallocWrite p hi data) s = .next (s.plainWrite (Pg.lnk p + (if hi then 0x110 else 0x108)) data)) ∧
    (s.portUp p = true → (s.port p).waitMark = false →
      exec (.lnkVcallocWrite p hi data) s = .next ((s.plainWrite (Pg.lnk p + (if hi then 0x110 else 0x108)) data).startResync p))) ∧
  (∀ (p : Fin 24) (s : State), s.lnk p = Lk.fenced → ∃ t, exec (.lnkReadmit p) s = .next t ∧ t.lnk p = Lk.down ∧ t.unitFenced (lnkKey p) = false) ∧
  (∀ (p : Fin 24) (s : State), s.lnk p = Lk.down → s.dieUp (portDie p) = true → exec (.lnkRetrain p) s = .next (s.trainPort p)) ∧
  (∀ (p : Fin 24) (s : State), s.lnk p = Lk.parked → s.peerResult p = 1 → s.portVer p = 3 → ∃ t, exec (.lnkAdmit p) s = .next t ∧ t.fld (Pg.lnk p) F.lnkStatPend = 1 ∧ t.lnk p = Lk.parked) ∧
  (∀ (p : Fin 24) (s : State), s.lnk p = Lk.routed → ∃ t, exec (.lnkPark p) s = .next t ∧ t.fld (Pg.lnk p) F.lnkStatPend = 2) ∧
  (∀ (p : Fin 24) (s : State), s.lnk p = Lk.off → ∃ t, exec (.lnkEnWrite p true) s = .next t ∧ t.lnk p = Lk.down ∧ t.bitF (Pg.lnk p) F.lnkCtrlEn = true) ∧
  (∀ (p : Fin 24) (s : State), s.lnk p ≠ Lk.off → s.lnk p ≠ Lk.fenced → exec (.lnkEnWrite p false) s = .next ((s.setBitF (Pg.lnk p) F.lnkCtrlEn false).portOff p Lk.off)) ∧
  (∀ (p : Fin 24) (s : State), s.lnk p ≠ Lk.fenced →
    exec (.lnkReadmit p) s = .next (s.setErr (Pg.lnk p) F.lnkErrStatBadSeq 0)) ∧
  (∀ (p : Fin 24) (s : State), ∃ t, exec (.lnkCounterRead p 2) s = .next t ∧ t.rdData = Bits.make [(63, 32, s.workUnits (Pg.lnk p) 20), (31, 0, s.workUnits (Pg.lnk p + 1) 20)] ∧
    KMap.get 0 t.work (Pg.lnk p) = 0 ∧ KMap.get 0 t.work (Pg.lnk p + 1) = 0)

/-- Packets (R303, R312 to R317, R440): a packet that arrives is received, the next packet of a die that can move is sent on or dropped, and a stale packet is
discarded and counted. Routing (R308 to R310, R318, R325): a load into an allowed version begins and its end loads the image; a flip makes the READY version
active and the old one DRAINING; TTL and the time limits keep their bounds. It says under which conditions these commands complete: pktRecv, pktForward,
pktStaleDiscard, rteLoad, rteLoadDone, rteFlip, rteCfgWrite, rteTimersWrite, relayRecv. -/
def Obligations.PacketsAndRouting : Prop :=
  ((∀ (p : Fin 24) (words : List W64) (s : State), s.portReceives p = true →
    exec (.pktRecv p words) s = .next (s.receive p words) ∧ (Pkt.op words = Op.relay → exec (.relayRecv p words) s = .next (s.receive p words))) ∧
  (∀ (d : Die) (s : State) (h : Held) (p vc : Nat) (e : Bool), s.nextHeld (s.net.held.filter fun h => decide (h.die = d.val)) [] = some (h, .send p vc e) →
    exec (.pktForward d) s = .next (s.sendOn h p vc)) ∧
  (∀ (d : Die) (s : State) (h : Held) (f : Fld), s.nextHeld (s.net.held.filter fun h => decide (h.die = d.val)) [] = some (h, .drop f) →
    exec (.pktForward d) s = .next ((s.unhold h).addFld Pg.rte f 1)) ∧
  (∀ (d : Die) (s : State) (h : Held), (s.net.held.find? fun h => decide (h.die = d.val)) = some h →
    exec (.pktStaleDiscard d) s = .next ((s.unhold h).addFld Pg.rte F.rteDropaStale 1))) ∧
  ((∀ (data : W64) (s : State), data.getLsbD 0 = true → s.loadAllowed (F.rteLoadVer.of data) = true →
    ∃ t, exec (.rteLoad data) s = .next t ∧ t.net.loads = s.net.loads ++ [(F.rteLoadVer.of data, F.rteLoadAddr.of data * 65536, decide (s.verState 0 = Ver.empty ∧ s.verState 1 = Ver.empty))]) ∧
  (∀ (data : W64) (s : State), data.getLsbD 0 = true → s.loadAllowed (F.rteLoadVer.of data) = false → exec (.rteLoad data) s = .next (s.setErr Pg.rte F.rteErrStatBadSeq 0)) ∧
  (∀ (s : State) (v a : Nat) (both : Bool) (rest : List (Nat × Nat × Bool)), s.net.loads = (v, a, both) :: rest →
    exec .rteLoadDone s = .next ((s.withNet { s.net with loads := rest }).loadImage v a both)) ∧
  (∀ s : State, s.verState (1 - s.inj) ≠ Ver.ready → exec .rteFlip s = .next (s.setErr Pg.rte F.rteErrStatBadSeq 0)) ∧
  (∀ s : State, s.verState (1 - s.inj) = Ver.ready → ∃ s1, s1 = ((s.setFld Pg.rte F.rteStatInj (1 - s.inj)).setVerState (1 - s.inj) Ver.active).setVerState s.inj Ver.draining ∧
    exec .rteFlip s = .next ((s1.withNet { s1.net with flipAt := some (s.now s.hub) }).applyPending true)) ∧
  (∀ (data : W64) (s s1 : State), s.verState 0 = Ver.empty → s.verState 1 = Ver.empty → s1 = s.plainWrite (Pg.rte + 0x100) data →
    exec (.rteCfgWrite data) s = .next (s1.setFld Pg.rte F.rteCfgTtl (max 2 (s1.fld Pg.rte F.rteCfgTtl))).boundTmo) ∧
  (∀ (data : W64) (s : State), exec (.rteTimersWrite data) s =
    .next ((s.plainWrite (Pg.rte + 0x108) data).setFld Pg.rte F.rteTimersStale (min 65000 (max 10 (F.rteTimersStale.of data)))).boundTmo))

/-- Discovery (R336 to R340): HELLO, LOC and PROBE of a port that is up, HELLO sent, the election, the time limit of a peer, and the expectation, fabric and
identity registers. Where the specification leaves a point open it follows the choice of the model in log entry 38. It says under which conditions these
commands complete: helloRecv, locRecv, probeRecv, helloSend, discElect, discPeerTimeout, dscExpWrite, dscFabricWrite, dscIdWrite. -/
def Obligations.Discovery : Prop := (∀ (p : Fin 24) (h : Hello) (s : State), s.portUp p = true → h.crcOk = true → s.lnk p ≠ Lk.routed →
    exec (.helloRecv p h) s = .next ((((s.hearCtl p).setPort p { s.port p with hello := some h, helloAt := some (s.now (portDie p)) }).showPeer p h).redecide p)) ∧
  (∀ (p : Fin 24) (h : Hello) (s : State), s.portUp p = true → h.crcOk = false → exec (.helloRecv p h) s = .next (s.hearCtl p)) ∧
  (∀ (p : Fin 24) (l : Loc) (s s2 : State), s.portUp p = true → l.crcOk = true →
    s2 = ((((s.hearCtl p).setPort p { s.port p with loc := some l }).setFld (Pg.dsc + 8 * p.val) F.dscPeerPort l.sport.toNat).setFld (Pg.dsc + 8 * p.val)
      F.dscPeerDev (Loc.number l)).setBitF (Pg.dsc + 8 * p.val) F.dscPeerIdv true →
    s2.locConflict = false → exec (.locRecv p l) s = .next (s2.identify.redecide p)) ∧
  (∀ (p : Fin 24) (s : State), s.portUp p = true →
    (∃ t, exec (.probeRecv p true) s = .next t ∧ (t.port p).helloDue = true) ∧
    (∃ t, exec (.helloSend p) s = .next t ∧ (t.port p).helloDue = false ∧ (t.port p).lastTx = s.helloFlit p)) ∧
  (∀ (s : State), s.govLoc = none → ((List.range 24).any fun p => (boardOffset p).isSome && s.portUp p) = true →
    exec .discElect s = .next ((s.withNet { s.net with elect := some s.elected })).identify) ∧
  (∀ (p : Fin 24) (s : State), exec (.discPeerTimeout p) s = .next ((s.setPort p { s.port p with hello := none }).redecide p)) ∧
  (∀ (p : Fin 24) (data : W64) (s : State), exec (.dscExpWrite p data) s = .next ((s.plainWrite (Pg.dsc + 0x400 + 8 * p.val) data).redecide p)) ∧
  (∀ (data : W64) (s : State), (s.plainWrite (Pg.dsc + 0x108) data).fabricId ≠ s.fabricId →
    exec (.dscFabricWrite data) s = .next ((s.plainWrite (Pg.dsc + 0x108) data).helloAll.storeIdentity).redecideAll) ∧
  (∀ (data : W64) (s : State), exec (.dscIdWrite data) s = .next (s.plainWrite (Pg.dsc + 0x110) data).identify)

/-- Remote operations of a core (R342, R343, R410): a block joins its porter group's queue of 64 with what the checks of its kind find, RD receives OK, and
packets are formed; a 65th is answered QUEUE_FULL; while an abort of the context runs, the answer is ABORTED. Put, get, get3, atomic and signal are told apart
by the block's KIND; array errors that a put's read meets come first. Porters (R189, R343, R347, R399): a porter that may end the next operation of its group
ends it: a failed one with its status, a remote one with the status of its window, one within the package by moving the data; a parity error ends it with
CHECK_FAIL and a strike. Where the specification leaves a point open it follows the choice of the model in log entry 48. It says under which conditions these
commands complete: porterTransferDone, ropPut, ropGet, ropGet3, ropAtomic, ropSignal. -/
def Obligations.PorterOperations : Prop :=
  ((∀ (c : CoreNo) (rd rs1 rs2 : Gpr) (s s1 s2 : State) (g chk st : Nat) (win : KMap Byte) (o : PortOp), s.coreRuns c = true → c.val < 340 →
    s.aborting (s.coreCtx c) = false → g = 2 * slotDie c + Bits.get (s.g c rs1) 0 0 →
    (s.net.ops.filter fun o => decide (o.group = g)).length < 64 →
    o = ⟨s.net.nextOp, g, s.coreCtx c, s.scratchWords c (s.g c rs2).toNat 6, [], 0, none, 0, St.ok, 0, []⟩ → s.opCheck o = (chk, s1) →
    (if chk = St.ok && !s.isLocal o then s1.windowIssue o else (chk, [], s1)) = (st, win, s2) →
    ∃ t, t = ((s2.withNet { s2.net with ops := s2.net.ops ++ [{ o with status := st, win := win, rest := if st ≠ St.ok then [] else if o.moves then [(0, o.len)] else if o.kind = 4 then [(0, 8)] else [(0, 0)] }], nextOp := s2.net.nextOp + 1 }).retSt
        c rd St.ok).formAll (slotDie c) ∧
      exec (.ropPut ⟨c, []⟩ rd rs1 rs2) s = .next t ∧ exec (.ropGet c rd rs1 rs2) s = .next t ∧ exec (.ropGet3 c rd rs1 rs2) s = .next t ∧
      exec (.ropAtomic c rd rs1 rs2) s = .next t ∧ exec (.ropSignal c rd rs1 rs2) s = .next t) ∧
  (∀ (c : CoreNo) (rd rs1 rs2 : Gpr) (hits : Hits) (s : State), exec (.ropPut ⟨c, hits⟩ rd rs1 rs2) s = exec (.ropPut ⟨c, []⟩ rd rs1 rs2) (s.meet hits)) ∧
  (∀ (c : CoreNo) (rd rs1 rs2 : Gpr) (s : State) (st : Nat), s.coreRuns c = true → c.val < 340 →
    ((s.aborting (s.coreCtx c) = true ∧ st = St.aborted) ∨
      (s.aborting (s.coreCtx c) = false ∧ 64 ≤ (s.net.ops.filter fun o => decide (o.group = 2 * slotDie c + Bits.get (s.g c rs1) 0 0)).length ∧ st = St.queueFull)) →
    exec (.ropPut ⟨c, []⟩ rd rs1 rs2) s = .next (s.retSt c rd st) ∧ exec (.ropGet c rd rs1 rs2) s = .next (s.retSt c rd st) ∧
    exec (.ropGet3 c rd rs1 rs2) s = .next (s.retSt c rd st) ∧ exec (.ropAtomic c rd rs1 rs2) s = .next (s.retSt c rd st) ∧
    exec (.ropSignal c rd rs1 rs2) s = .next (s.retSt c rd st))) ∧
  ((∀ (d : Die) (g : Fin 2) (p : Fin 8) (par : Bool) (hits : Hits) (s : State) (o : PortOp), s.dieUp d = true → s.unitFenced (porterKey d (8 * g + p)) = false →
    s.inReset [(3, 16 * d.val + 8 * g.val + p.val)] = false → (s.net.ops.find? fun o => decide (o.group = 2 * d.val + g.val) && s.mayEnd o) = some o →
    (o.status ≠ St.ok → exec (.porterTransferDone d g p par hits) s = .next (s.endOp o o.status o.bytes o.old)) ∧
    (o.status = St.ok → s.isLocal o = false → exec (.porterTransferDone d g p false hits) s = .next ((s.windowEnd o).2.endOp o (s.windowEnd o).1 o.bytes o.old)) ∧
    (o.status = St.ok → s.isLocal o = true → exec (.porterTransferDone d g p false hits) s =
      .next (((s.meet hits).runHere o).2.2.2.endOp o ((s.meet hits).runHere o).1 ((s.meet hits).runHere o).2.1 ((s.meet hits).runHere o).2.2.1))))

/-- Requests that arrive (R206, R344, R345): each takes the oldest of its kind that reached the die and stands in order; without an import window that covers it,
it is denied and answered PART_VIOLATION; with one whose checks pass and an open tollgate, it has its effect and is answered. Replies and time limits (R325,
R353): a reply that meets its reservation frees the slot and is handed to its owner, another is dropped and counted; an expired slot is freed and its
generation moves on, and its operation learns of it. Where the specification leaves a point open it follows the choice of the model in log entry 39. It says
under which conditions these commands complete: putRecv, getRecv, get3Recv, data3Recv, atomicRecv, signalRecv, replyRecv, remoteTimeout. -/
def Obligations.RemoteArrivals : Prop :=
  ((∀ (d : Die) (hits : Hits) (s s1 : State) (ws : List W64), ((s.meet hits).takeSunk d fun ws => decide (Pkt.op ws = Op.put)) = some (ws, s1) →
    (Pkt.narrow ws = false →
      (∀ w, s1.importWin (Pkt.src ws) 62 none (Pkt.addr ws) (lenOf ws) = some w → s1.gateShut d w.part (Pkt.addr ws) (lenOf ws) true = false →
        s1.importCheckW w (Pkt.addr ws) (lenOf ws) = St.ok →
        exec (.putRecv ⟨d, hits⟩) s = .next ((((s1.storeMarked (Pkt.addr ws) (Pkt.bytes ws (lenOf ws)) fun _ => decide (Pkt.status ws = St.poisoned)).charge d w.part (Pkt.addr ws) (lenOf ws) true).wakeRange
          (Pkt.addr ws) (lenOf ws)).ack d ws (s1.wrote (Pkt.addr ws) (lenOf ws)))) ∧
      (s1.importWin (Pkt.src ws) 62 none (Pkt.addr ws) (lenOf ws) = none → exec (.putRecv ⟨d, hits⟩) s = .next (s1.deny.ack d ws St.partViolation))) ∧
    (Pkt.narrow ws = true → narrowCheck (Pkt.fmt ws) = St.ok → ∀ a n w,
      a = Pkt.addr ws + 1024 * wideBytes (wf ws 2 15 15) * (segSpan (Fmt.ofWord (Pkt.fmt ws)) (Pkt.seq ws) (lenOf ws)).1 →
      n = 1024 * wideBytes (wf ws 2 15 15) * (segSpan (Fmt.ofWord (Pkt.fmt ws)) (Pkt.seq ws) (lenOf ws)).2 →
      s1.importWin (Pkt.src ws) 62 none a n = some w → s1.gateShut d w.part a n true = false → s1.importCheckW w a n = St.ok →
      exec (.putRecv ⟨d, hits⟩) s = .next ((((s1.landNarrow d w ws).charge d w.part a n true).wakeRange a n).ack d ws (s1.wrote a n)))) ∧
  (∀ (d : Die) (hits : Hits) (s s1 : State) (ws : List W64), ((s.meet hits).takeSunk d fun ws => decide (Pkt.op ws = Op.get)) = some (ws, s1) →
    (∀ w, s1.importWin (Pkt.src ws) 61 none (Pkt.addr ws) (Pkt.len ws) = some w → s1.gateShut d w.part (Pkt.addr ws) (Pkt.len ws) false = false →
      s1.importCheck w (Pkt.addr ws) (Pkt.len ws) = St.ok →
      exec (.getRecv ⟨d, hits⟩) s = .next ((s1.charge d w.part (Pkt.addr ws) (Pkt.len ws) false).reply d (Pkt.src ws) ws Op.data
        (if s1.loadPoison (Pkt.addr ws) (Pkt.len ws) then St.poisoned else St.ok) (Pkt.len ws) (s1.readPayload (Pkt.addr ws) (Pkt.len ws)))) ∧
    (s1.importWin (Pkt.src ws) 61 none (Pkt.addr ws) (Pkt.len ws) = none → exec (.getRecv ⟨d, hits⟩) s = .next (s1.deny.reply d (Pkt.src ws) ws Op.data St.partViolation 0 []))) ∧
  (∀ (d : Die) (hits : Hits) (s s1 : State) (ws : List W64), ((s.meet hits).takeSunk d fun ws => decide (Pkt.op ws = Op.get3)) = some (ws, s1) →
    (∀ w, s1.importWin (Pkt.src ws) 61 none (Pkt.addr ws) (Pkt.len ws) = some w → s1.gateShut d w.part (Pkt.addr ws) (Pkt.len ws) false = false →
      s1.importCheck w (Pkt.addr ws) (Pkt.len ws) = St.ok → Bits.get (Pkt.payload ws 0) 63 48 = s1.self →
      exec (.get3Recv ⟨d, hits⟩) s = .next ((s1.charge d w.part (Pkt.addr ws) (Pkt.len ws) false).post d (mkPkt { s1.head s1.self 1 Op.data3 with
        slot := Pkt.slot ws, gen := Pkt.gen ws, addr := Bits.get (Pkt.payload ws 0) 47 0, seq := Pkt.src ws, len := Pkt.len ws, unord := s1.unordTo s1.self (Pkt.unord ws)
        status := if s1.loadPoison (Pkt.addr ws) (Pkt.len ws) then St.poisoned else St.ok } (s1.readPayload (Pkt.addr ws) (Pkt.len ws))))) ∧
    (s1.importWin (Pkt.src ws) 61 none (Pkt.addr ws) (Pkt.len ws) = none → exec (.get3Recv ⟨d, hits⟩) s = .next (s1.deny.ack d ws St.partViolation))) ∧
  (∀ (d : Die) (hits : Hits) (s s1 : State) (ws : List W64), ((s.meet hits).takeSunk d fun ws => decide (Pkt.op ws = Op.data3)) = some (ws, s1) →
    (∀ w, s1.importWin (Pkt.seq ws) 61 none (Pkt.addr ws) (Pkt.len ws) = some w → s1.gateShut d w.part (Pkt.addr ws) (Pkt.len ws) true = false →
      s1.importCheckW w (Pkt.addr ws) (Pkt.len ws) = St.ok →
      exec (.data3Recv ⟨d, hits⟩) s = .next ((((s1.storeMarked (Pkt.addr ws) (Pkt.bytes ws (Pkt.len ws)) fun _ => decide (Pkt.status ws = St.poisoned)).charge d w.part (Pkt.addr ws) (Pkt.len ws) true).wakeRange
        (Pkt.addr ws) (Pkt.len ws)).reply d (Pkt.seq ws) ws Op.ack (s1.wrote (Pkt.addr ws) (Pkt.len ws)) 0 []))) ∧
  (∀ (d : Die) (hits : Hits) (s s1 : State) (ws : List W64), ((s.meet hits).takeSunk d fun ws => decide (Pkt.op ws = Op.atomic)) = some (ws, s1) →
    (∀ w s2 s3 st v, s1.importWin (Pkt.src ws) 60 none (Pkt.addr ws) 8 = some w → s1.atomicShut d w.part (Pkt.addr ws) = false → Pkt.addr ws % 8 = 0 →
      s1.importCheckW w (Pkt.addr ws) 8 = St.ok → s1.wrote (Pkt.addr ws) 8 = St.ok →
      s2 = (s1.charge d w.part (Pkt.addr ws) 8 false).charge d w.part (Pkt.addr ws) 8 true →
      s2.atomicOp (Pkt.addr ws) (Pkt.len ws) (Pkt.payload ws 0) (Pkt.payload ws 1) = (st, some v, s3) → st ≠ St.syncUnderflow →
      exec (.atomicRecv ⟨d, hits⟩) s = .next (s3.reply d (Pkt.src ws) ws Op.ack st 0 [v])) ∧
    (s1.importWin (Pkt.src ws) 60 none (Pkt.addr ws) 8 = none → exec (.atomicRecv ⟨d, hits⟩) s = .next (s1.deny.ack d ws St.partViolation))) ∧
  (∀ (d : Die) (s s1 : State) (ws : List W64), (s.takeSunk d fun ws => decide (Pkt.op ws = Op.signal)) = some (ws, s1) →
    (∀ w, s1.importWin (Pkt.src ws) 59 (some (Pkt.addr ws)) 0 0 = some w →
      exec (.signalRecv d) s = .next ((s1.signal w.ctx (Pkt.addr ws) (Pkt.payload ws 0)).2.ack d ws (s1.signal w.ctx (Pkt.addr ws) (Pkt.payload ws 0)).1)) ∧
    (s1.importWin (Pkt.src ws) 59 (some (Pkt.addr ws)) 0 0 = none → exec (.signalRecv d) s = .next (s1.deny.ack d ws St.partViolation)))) ∧
  ((∀ (d : Die) (hits : Hits) (s m s1 : State) (h : Held), m = s.meet hits →
    (m.net.sunk.find? fun h => isReply h.words && (m.replyMeets d h.words || ((List.range 4).all fun x => !m.replyMeets x h.words))) = some h → m.replyMeets d h.words = true →
    s1 = (m.withNet { m.net with sunk := m.net.sunk.erase h }).setSlot (4096 * d.val + Pkt.slot h.words) ⟨(m.slot (4096 * d.val + Pkt.slot h.words)).gen, none⟩ →
    (∀ ctx num off len, (m.slot (4096 * d.val + Pkt.slot h.words)).use = some (ctx, .porter num off len) →
      exec (.replyRecv ⟨d, hits⟩) s = .next ((s1.answered num off len h.words).formAll d)) ∧
    (∀ ctx gid rank seq, (m.slot (4096 * d.val + Pkt.slot h.words)).use = some (ctx, .chunk gid rank seq) →
      exec (.replyRecv ⟨d, hits⟩) s = .next ((s1.withCr { s1.cr with colls := s1.cr.colls.map fun (x : Coll) => if x.die = d.val ∧ x.gid = gid then
        { x with flown := x.flown.filter fun f => decide (f.rank ≠ rank ∨ f.seq ≠ seq) } else x }).formAll d))) ∧
  (∀ (d : Die) (hits : Hits) (s m : State) (h : Held), m = s.meet hits →
    (m.net.sunk.find? fun h => isReply h.words && (m.replyMeets d h.words || ((List.range 4).all fun x => !m.replyMeets x h.words))) = some h → m.replyMeets d h.words = false →
    exec (.replyRecv ⟨d, hits⟩) s = .next ((m.withNet { m.net with sunk := m.net.sunk.erase h }).addFld Pg.rte F.rteDropbRpl 1)) ∧
  (∀ (d : Die) (sl : Fin 4096) (s : State) (ctx num off len : Nat), (s.slot (4096 * d.val + sl.val)).use = some (ctx, .porter num off len) →
    exec (.remoteTimeout d sl) s = .next (((s.expireSlot (4096 * d.val + sl.val)).timedOut num).formAll d)) ∧
  (∀ (d : Die) (sl : Fin 4096) (s : State), (s.slot (4096 * d.val + sl.val)).use = none → exec (.remoteTimeout d sl) s = .next s))

/-- Collectives of a core (R342, R350, R351): OPEN forms a group and records its outcome, CLOSE of an open group of the context waits its turn, another collective
that passes its checks is accepted, one that fails is recorded with its status; a 33rd is answered QUEUE_FULL. It says under which conditions these commands
complete: collOpen, collClose, allreduce, reduceScatter, allgather, broadcast, permute, alltoall. -/
def Obligations.CollectiveIssue : Prop := (∀ (c : CoreNo) (rd rs2 : Gpr) (s s1 : State) (ws : List W64) (k : Coll), s.coreRuns c = true → c.val < 340 → s.aborting (s.coreCtx c) = false →
    (s.cr.colls.filter fun k => decide (k.die = slotDie c ∧ k.running = false)).length < 32 →
    ws = (s.scratchWords c (s.g c rs2).toNat 8).set 0 (Bits.put (wd (s.scratchWords c (s.g c rs2).toNat 8) 0) 55 48 (s.coreCtx c)) → wf ws 0 63 56 = 0x40 →
    k = ⟨s.cr.next, slotDie c, s.coreCtx c, ws, false, [(0, 0), (0, 0)], [0, 0], [], [], [], St.ok⟩ → s1 = (s.retSt c rd St.ok).withCr { s.cr with next := s.cr.next + 1 } →
    (k.op = CollOp.open_ → outOfSvc (s1.crrState (slotDie c)) = false →
      exec (.collOpen c rd rs2) s = .next ((s1.openGroup (slotDie c) (s.coreCtx c) ws).2.collRecord (slotDie c) (s.coreCtx c) ws (s1.openGroup (slotDie c) (s.coreCtx c) ws).1)) ∧
    (∀ g, k.op = CollOp.close → s1.group (slotDie c) k.gid = some g → g.ctx = s.coreCtx c → closeReserved ws = false →
      exec (.collClose c rd rs2) s = .next ((s1.withCr { s1.cr with colls := s1.cr.colls ++ [k] }).closeDue (slotDie c))) ∧
    (∀ s2, k.op ≠ CollOp.open_ → k.op ≠ CollOp.close → k.op ≠ CollOp.permute → s1.collCheck k = St.ok → s1.collLookup k = (St.ok, s2) →
      exec (.allreduce c rd rs2) s = .next (s2.withCr { s2.cr with colls := s2.cr.colls ++ [k] }) ∧
      exec (.reduceScatter c rd rs2) s = .next (s2.withCr { s2.cr with colls := s2.cr.colls ++ [k] }) ∧
      exec (.allgather c rd rs2) s = .next (s2.withCr { s2.cr with colls := s2.cr.colls ++ [k] }) ∧
      exec (.broadcast c rd rs2) s = .next (s2.withCr { s2.cr with colls := s2.cr.colls ++ [k] }) ∧
      exec (.alltoall c rd rs2) s = .next (s2.withCr { s2.cr with colls := s2.cr.colls ++ [k] })) ∧
    (∀ s2, k.op = CollOp.permute → s1.collCheck k = St.ok → s1.collLookup k = (St.ok, s2) →
      ∃ t, exec (.permute c rd rs2) s = .next t ∧ t.cr.colls = s2.cr.colls ++ [k] ∧ k.lepoch ≤ KMap.get 0 t.cr.layout (s.coreCtx c)) ∧
    (k.op ≠ CollOp.open_ → k.op ≠ CollOp.close → s1.collCheck k ≠ St.ok → exec (.allreduce c rd rs2) s = .next (s1.collRecord (slotDie c) (s.coreCtx c) ws (s1.collCheck k)))) ∧
  (∀ (c : CoreNo) (rd rs2 : Gpr) (s : State), s.coreRuns c = true → c.val < 340 → s.aborting (s.coreCtx c) = false → 32 ≤ (s.cr.colls.filter fun k => decide (k.die = slotDie c ∧ k.running = false)).length →
    exec (.collOpen c rd rs2) s = .next (s.retSt c rd St.queueFull) ∧ exec (.allreduce c rd rs2) s = .next (s.retSt c rd St.queueFull))

/-- The course of a collective (R350 to R355): start, chunks sent and received, credits, completion. Admission of a job (R341): an admitted map is kept for its
context, a machine too small gets the result block of TOPO_SHORT, and the host command ends. It says under which conditions these commands complete:
jobAdmission, collStart, collChunkSend, chunkRecv, collCreditRecv, collComplete. -/
def Obligations.CollectivesAndJobs : Prop :=
  ((∀ (d : Die) (hits : Hits) (s m : State) (k : Coll) (g : Group), m = s.meet hits →
    (m.cr.colls.find? fun k => decide (k.die = d.val) && m.mayStart k && !outOfSvc (m.crrState d) && !m.inReset [(6, d)] && m.mayRun (6, d) k.ctx) = some k → m.group d k.gid = some g →
    (m.collMemCheck g k ≠ St.ok → exec (.collStart ⟨d, hits⟩) s = .next ((m.endColl k (m.collMemCheck g k) 0).closeDue d)) ∧
    (∀ s1 s2, m.collMemCheck g k = St.ok → s1 = m.mapColl k.num (fun x => { x with running := true }) →
      s2 = (if k.op = CollOp.permute then s1.collRead k k.ptab (8 + 24 * s1.loadNat k.ptab 8) else s1).collOwn g { k with running := true } →
      exec (.collStart ⟨d, hits⟩) s = .next (((s2.recvRanks k.num).foldl (fun s r => match r with | some r => s.sendCredit g r | none => s) s2).consumeColl k.num))) ∧
  (∀ (d : Die) (hits : Hits) (s m s1 : State), m = s.meet hits → outOfSvc (m.crrState d) = false → m.inReset [(6, d)] = false →
    ((m.cr.colls.filter fun k => decide (k.die = d.val) && k.running && m.mayRun (6, d) k.ctx).findSome? fun k => m.sendChunk k) = some s1 → exec (.collChunkSend ⟨d, hits⟩) s = .next s1) ∧
  (∀ (d : Die) (hits : Hits) (s s1 : State) (ws : List W64) (g : Group), (s.meet hits).takeGroup d Op.chunk = some (ws, s1) → s1.groupOf d ws = some g →
    (seqDiff (Pkt.seq ws) (s1.streamCount g (g.members.idxOf (Pkt.src ws)) 2) < 0 → exec (.chunkRecv ⟨d, hits⟩) s = .next ((s1.addFld (Pg.crr d) F.crrCntDup 1).ack d ws St.ok)) ∧
    (∀ s2, 0 ≤ seqDiff (Pkt.seq ws) (s1.streamCount g (g.members.idxOf (Pkt.src ws)) 2) → seqDiff (Pkt.seq ws) (s1.streamCount g (g.members.idxOf (Pkt.src ws)) 2) < g.window →
      (KMap.find g.intake (g.members.idxOf (Pkt.src ws) * 2 ^ 32 + Pkt.seq ws)).isSome = false →
      s2 = (s1.mapGroup d g.gid fun x => { x with intake := KMap.insert x.intake (g.members.idxOf (Pkt.src ws) * 2 ^ 32 + Pkt.seq ws) ws }).ack d ws St.ok →
      (∀ k, s2.runningOf d g.gid = some k → exec (.chunkRecv ⟨d, hits⟩) s = .next (s2.consumeColl k.num)) ∧ (s2.runningOf d g.gid = none → exec (.chunkRecv ⟨d, hits⟩) s = .next s2))) ∧
  (∀ (d : Die) (hits : Hits) (s s1 : State) (ws : List W64), (s.meet hits).takeGroup d Op.chunk = some (ws, s1) → s1.groupOf d ws = none →
    exec (.chunkRecv ⟨d, hits⟩) s = .next (s1.setErr (Pg.crr d) F.crrErrStatNogroup 0)) ∧
  (∀ (d : Die) (s s1 s2 : State) (ws : List W64) (g : Group), s.takeGroup d Op.credit = some (ws, s1) → s1.groupOf d ws = some g →
    s2 = (s1.mapGroup d g.gid fun x => { x with heard := if x.heard.contains (g.members.idxOf (Pkt.src ws)) then x.heard else x.heard ++ [g.members.idxOf (Pkt.src ws)] }) →
    0 ≤ seqDiff (Pkt.seq ws) (s2.streamCount g (g.members.idxOf (Pkt.src ws)) 1) →
    exec (.collCreditRecv d) s = .next (s2.setStreamCount g (g.members.idxOf (Pkt.src ws)) 1 (Pkt.seq ws))) ∧
  (∀ (d : Die) (s : State) (k : Coll), (s.cr.colls.find? fun k => decide (k.die = d.val) && s.collDone k) = some k → k.status ≠ St.ok →
    exec (.collComplete d) s = .next ((s.endColl k k.status 0).closeDue d)) ∧
  (∀ (d : Die) (s : State) (k : Coll) (g : Group), (s.cr.colls.find? fun k => decide (k.die = d.val) && s.collDone k) = some k → k.status = St.ok → s.group d k.gid = some g →
    exec (.collComplete d) s = .next ((s.endColl k St.ok (if k.op = CollOp.reduceScatter then k.outBytes (k.per g) else k.outBytes k.count)).closeDue d))) ∧
  (∀ (q : Fin 256) (s s0 : State) (k : SqCmd), s.nextCmd q = some k → k.echoed = true → wf k.words 0 63 56 = 0x30 → s0 = s.markDispatched q k.seq →
    (s0.jobCheck k.ctx k.words = St.ok →
      exec (.jobAdmission q) s = .next (((s0.withNet { s0.net with jobs := KMap.set none s0.net.jobs k.ctx (some (JobCmd.job k.words)) }).finCmd q k.seq St.ok 0).pump q)) ∧
    (s0.jobCheck k.ctx k.words = St.topoShort →
      exec (.jobAdmission q) s = .next (((s0.storeWords (JobCmd.result k.words) (s0.shortBlock k.words)).finCmd q k.seq St.topoShort 0).pump q)) ∧
    (s0.jobCheck k.ctx k.words ≠ St.ok → s0.jobCheck k.ctx k.words ≠ St.topoShort →
      exec (.jobAdmission q) s = .next ((s0.finCmd q k.seq (s0.jobCheck k.ctx k.words) 0).pump q)))

/-- Sealing and the ledger (R430, R432 to R437, R442 to R444): lseal queues a request of 64 and answers OK or QUEUE_FULL, the oldest request not yet applied is
applied, one whose status is known ends with it, GSTEP, geometry and the checkpoint settings of the selected context are written. The survival store (R445,
R446, R449 to R451): the oldest record requested enters the active bank of both devices, the other bank is erased, and compaction moves the live records and a
seal into it; reads step through the selected record. Where the specification leaves a point open it follows the choice of the model in log entries 12 and 42.
It says under which conditions these commands complete: lseal, sealDone, gstepWrite, ldgGeomWrite, ldgCkWrite, ckRecompute, sstRecordWrite, sstBankErase,
sstCompact, sstRselWrite, sstRdataRead. -/
def Obligations.LedgerAndStore : Prop :=
  ((∀ (c : ClusterNo) (rd rs1 rs2 : Gpr) (s : State), s.coreRuns (stewardOf c) = true → s.aborting (s.coreCtx (stewardOf c)) = false → s.ldg.seals.length < 64 →
    ∃ t x, exec (.lseal c rd rs1 rs2) s = .next t ∧ t.ldg.seals = s.ldg.seals ++ [x] ∧ x.num = s.ldg.next ∧ x.ctx = s.coreCtx (stewardOf c) ∧ x.applied = false ∧
      x.addr = (s.g (stewardOf c) rs1).toNat % 2 ^ 48 ∧ t.ldg.next = s.ldg.next + 1 ∧ t.g (stewardOf c) rd = if rd.val = 0 then 0 else BitVec.ofNat 64 St.ok) ∧
  (∀ (c : ClusterNo) (rd rs1 rs2 : Gpr) (s : State), s.coreRuns (stewardOf c) = true → s.aborting (s.coreCtx (stewardOf c)) = false → 64 ≤ s.ldg.seals.length → exec (.lseal c rd rs1 rs2) s = .next (s.retSt (stewardOf c) rd St.queueFull)) ∧
  (∀ (s : State) (x : Seal), (s.ldg.seals.find? fun x => !x.applied) = some x →
    ((s.applySeal x).ldg.seals.find? fun y => ((s.applySeal x).sealStatus y).isSome && (((s.applySeal x).ldg.seals.takeWhile fun z => decide (z.num ≠ y.num)).all fun z => decide (z.ctx ≠ y.ctx ∨ wd z.block 2 = 0))) = none →
    exec .sealDone s = .next (s.applySeal x)) ∧
  (∀ (s s3 s5 : State) (x : Seal) (st : Nat), (s.ldg.seals.find? fun x => !x.applied) = none →
    (s.ldg.seals.find? fun y => (s.sealStatus y).isSome && ((s.ldg.seals.takeWhile fun z => decide (z.num ≠ y.num)).all fun z => decide (z.ctx ≠ y.ctx ∨ wd z.block 2 = 0))) = some x → x.put = none →
    s.sealStatus x = some St.ok →
    s3 = (s.withNet { s.net with ops := s.net.ops.filter fun o => decide (some o.num ≠ x.put) }).withLdg { s.ldg with seals := s.ldg.seals.filter fun y => decide (y.num ≠ x.num) } →
    s3.act x.ctx (376 + 2 * s3.hub) (wd x.block 2) (wd x.block 3) = (st, s5) →
    exec .sealDone s = .next (s5.portRecord s5.hub x.ctx (wf x.block 0 47 0) st (wf (s5.loadWords x.addr 1) 0 31 0) 0)) ∧
  (∀ (c : ClusterNo) (rs1 : Gpr) (s : State), s.coreRuns (stewardOf c) = true → ∃ t, exec (.gstepWrite c rs1) s = .next t ∧ t.reg (genStepKey c) = s.g (stewardOf c) rs1) ∧
  (∀ (data : W64) (s : State), exec (.ldgGeomWrite data) s = .next (s.writeGeom s.lsel data)) ∧
  (∀ (obs : Bool) (data : W64) (s : State), Bits.get data 31 24 ≠ 0 → exec (.ldgCkWrite obs data) s = .next ((s.setReg (ldgPg s.lsel + (if obs then 0x148 else 0x130)) data).ckShow s.lsel)) ∧
  (∀ (ctx : Byte) (s : State), exec (.ckRecompute ctx) s = .next (s.ckShow ctx.toNat))) ∧
  ((∀ (s s1 : State) (r : SstRec) (rest : List SstRec), s.sst.wait = r :: rest → s.bankFull = false →
    s1 = (s.onDevs fun f => f.setBank s.activeBank (f.bank s.activeBank ++ [r])).addFld Pg.sst F.sstUsedWritten r.size →
    ∃ t, exec .sstRecordWrite s = .next t ∧ t.sst.wait = rest ∧ t.sst.a = s1.sst.a ∧ t.sst.b = s1.sst.b ∧ t.regs = s1.regs) ∧
  (∀ s : State, s.sst.erasing = true → ∃ t, exec .sstBankErase s = .next t ∧ t.sst.erased = true ∧ t.sst.erasing = false ∧ t.sst.wait = s.sst.wait) ∧
  (∀ s : State, s.bankFull = true → s.sst.erased = true → ∃ t, exec .sstCompact s = .next t ∧ t.sst.erased = false ∧ t.sst.wait = s.sst.wait ∧
    t.fld Pg.sst F.sstStatActive = (1 - s.activeBank) % 2) ∧
  (∀ (data : W64) (s : State), ∃ t, exec (.sstRselWrite data) s = .next t ∧ t.sst.rdWord = 0) ∧
  (∀ s : State, ∃ t, exec .sstRdataRead s = .next t ∧ t.rdData = s.sstWord ∧ t.sst.rdWord = s.sst.rdWord + 1))

/-- Power and droop (R38 to R42, R454 to R461, R463 to R466): one estimate a tick, limits, the TJ cap, droop warnings, counters. Where the specification leaves a
point open it follows the choice of the model in log entry 44. It says under which conditions these commands complete: islStretchRead, issueCapWindow,
strikeWindowExpire, pwrTick, tjcapStep, bmBmlimWrite, pwrCaplogRead, droopWarnAssert, droopWarnEnd, droopReset, drpCntRead. -/
def Obligations.PowerCommands : Prop := (∀ (counts : List Nat) (s : State), s.plat.pwrOk = true →
    ∃ t, exec (.pwrTick counts) s = .next t ∧ t.pwr.ests = (s.estimate counts :: s.pwr.ests).take 625000) ∧
  (∀ (v : W16) (s : State), s.hubUp = true → (if v = 0 then 0 else clampNat 1000 2000 v.toNat) ≠ s.fld Pg.pwr F.pwrBmlimLimit →
    exec (.bmBmlimWrite v) s = .next (((s.setFld Pg.pwr F.pwrBmlimLimit (if v = 0 then 0 else clampNat 1000 2000 v.toNat)).setErr Pg.pwr F.pwrErrStatBmLimit 0).event s.hub Ev.bmLimit 0
      (unitOf Pg.pwr) (if v = 0 then 0 else clampNat 1000 2000 v.toNat) (BitVec.ofNat 64 (s.fld Pg.pwr F.pwrBmlimLimit)))) ∧
  (∀ s : State, ∃ t, exec .pwrCaplogRead s = .next t ∧ t.rdData = s.reg (Pg.pwr + 0x300) ∧ t.reg (Pg.pwr + 0x300) = 0) ∧
  (∀ (d : Die) (k : Fin 35) (temp : W16) (s : State), s.plat.pwrOk = true → (BitVec.ofNat 16 (s.fld Pg.pwr F.pwrTjThr)).toInt ≤ temp.toInt → s.pwr.hot = true →
    exec (.tjcapStep true d k temp) s = .next ((s.islTemp d k temp).setFld Pg.pwr F.pwrStatTjcap (max 1 (s.fld Pg.pwr F.pwrStatTjcap - 1)))) ∧
  (∀ (d : Die) (k : Fin 35) (temp : W16) (s : State), s.plat.pwrOk = true → temp.toInt < (BitVec.ofNat 16 (s.fld Pg.pwr F.pwrTjThr)).toInt →
    ∃ t, exec (.tjcapStep false d k temp) s = .next t ∧ t.pwr.hot = false) ∧
  (∀ (d : Die) (k : Fin 35) (mv : W16) (s : State), s.dieUp d = true → 660 ≤ mv.toNat → mv.toNat < 713 →
    (s.warn d k = none → ∃ t, exec (.droopWarnAssert d k mv) s = .next t ∧ t.warn d k = some ⟨s.now d, mv.toNat, s.now d⟩) ∧
    (∀ w, s.warn d k = some w → ∃ t, exec (.droopWarnAssert d k mv) s = .next t ∧ t.warn d k = some { w with low := min w.low mv.toNat })) ∧
  (∀ (d : Die) (k : Fin 35) (mv : W16) (s : State), 660 ≤ mv.toNat → exec (.droopWarnEnd d k mv) s = .next (s.endWarn d k mv.toNat)) ∧
  (∀ (d : Die) (k : Fin 35) (s : State), s.dieUp d = true → k.val < 24 →
    exec (.droopReset d k) s = .next (((((s.countStretch d k).setWarn d k none).setErr (Pg.drp d) F.drpErrStatReset 0).event d Ev.droopReset 0 (unitOf (Pg.isl d k)) 0 2).startCluster (12 * d + k % 12 : Nat) true)) ∧
  (∀ (d : Die) (s : State), ∃ t, exec (.drpCntRead d) s = .next t ∧ t.rdData = s.reg (Pg.drp d + 0x100) ∧ t.reg (Pg.drp d + 0x100) = 0) ∧
  (∀ (d : Die) (k : Fin 35) (s : State), ∃ t, exec (.islStretchRead d k) s = .next t ∧ t.rdData = (s.countStretch d k).reg (Pg.isl d k + 0x108) ∧ t.reg (Pg.isl d k + 0x108) = 0) ∧
  (∀ (e : MxeNo) (s : State), ∃ t, exec (.issueCapWindow e) s = .next t ∧ t.fld (Pg.mxe e) F.mxeStatCapEff = s.effCap e % 64 ∧ t.mem = s.mem) ∧
  (∀ (e : MxeNo) (s : State), exec (.strikeWindowExpire e) s = .next (s.showStrikes e))

/-- The host link's frames (R366 to R372, R380, R386): a valid frame on the ACTIVE lane set takes its credit and its items in order, an invalid one counts as bad,
one of another HVER is dropped, and the reply carries echoes, completions and results. The lane sets of the host link (R365 to R367): training, failure, the
ten-second retry, SWAP, RETRAIN, FENCE. Where the specification leaves a point open it follows the choice of the model in log entries 53 and 54. It says under
which conditions these commands complete: hostFrameRecv, hostReplyFrame, submitEcho, regDeferredResult, regOpTimeout, complRecordSend, hlFrameGapTimeout,
hlTrainDone, hlRetrainTick, hlkSwap, hlkRetrain, hlkFence, hlTrainFail. -/
def Obligations.HostLinkCommands : Prop :=
  ((∀ (b : Bool) (words : List W64) (s : State), s.lane b = Hl.active → Fr.ok words = true → Fr.hver words = 3 →
    exec (.hostFrameRecv b words) s = .next ((Bits.setBits 24 (Fr.map words)).foldl (fun s i => s.takeItem words i)
      ((s.setHost { s.host with tag := Fr.tag words, rqOk := true, fast := [] }).takeCcons (Fr.ccons words)))) ∧
  (∀ (b : Bool) (words : List W64) (s : State), s.lane b = Hl.standby → Fr.ok words = true → exec (.hostFrameRecv b words) s = .next s) ∧
  (∀ (b : Bool) (words : List W64) (s : State), s.lane b = Hl.active → Fr.ok words = true → Fr.hver words ≠ 3 → exec (.hostFrameRecv b words) s = .next (s.dropFrame b)) ∧
  (∀ (b : Bool) (words : List W64) (s : State), s.lane b = Hl.active → Fr.ok words = false → exec (.hostFrameRecv b words) s = .next (s.badFrame b)) ∧
  (∀ s s1 : State, s1 = s.sendIdle → s1.anyActive = true → ∃ t, exec .hostReplyFrame s = .next t ∧
    t.host.reply = s1.replyBody.set 7 (BitVec.ofNat 64 (Fr.crc s1.replyBody * 2 ^ 32)) ∧ t.host.fast = [] ∧ t.host.rqOk = false) ∧
  (∀ (s s1 : State) (q : Nat) (seq : W64) (rest : List (Nat × W64)), s.host.fresh = (q, seq) :: rest → s.host.mirrors.length = 2 → s.host.mirrors.all s.unitUp = true →
    s1 = s.setSqCmds q ((s.sqCmds q).map fun k => if k.seq = seq then { k with echoed := true } else k) →
    exec .submitEcho s = .next (((s1.setHost { s1.host with fresh := rest, echoes := s1.host.echoes ++ [(q, seq)], mirrors := s.host.mirrors, mirrorLost := false }).refuseAborting q seq).pump q)) ∧
  (∀ (s : State) (o : RegOp) (r : RegRes) (rest : List (RegOp × Option RegRes)), takeDeferred (fun x => x.2.isSome || (s.regEffect x.1).isSome) s.host.deferred = some ((o, some r), rest) →
    ∃ t, exec .regDeferredResult s = .next t ∧ t.host.deferred = rest ∧ t.host.results = s.host.results ++ [r]) ∧
  (∀ (s : State) (o : RegOp) (x : Option RegRes) (rest : List (RegOp × Option RegRes)), takeDeferred (fun x => x.2.isNone) s.host.deferred = some ((o, x), rest) →
    exec .regOpTimeout s = .next ((s.setHost { s.host with deferred := rest, results := s.host.results ++ [o.res St.regTimeout 0] }).keep (o.res St.regTimeout 0))) ∧
  (∀ s : State, s.anyActive = true → s.ringCredit = true → s.recordDue ≠ [] → ∃ q ∈ s.recordDue, exec .complRecordSend s = .next (s.draw.2.sendNext q))) ∧
  ((∀ (b : Bool) (s : State), exec (.hlFrameGapTimeout b) s = .next (s.laneFails b)) ∧
  (∀ (b nv : Bool) (s : State), s.lane b = Hl.train → s.tap.hold = false → s.dieUp (laneDie b) = true → exec (.hlTrainFail b nv) s = .next (s.laneTrainFail b nv)) ∧
  (∀ (b : Bool) (v : Byte) (s s1 : State), s.lane b = Hl.train → s.tap.hold = false → s.dieUp (laneDie b) = true → v.getLsbD 3 = true →
    s1 = ((s.endTick b).setFld Pg.hlk F.hlkStatVersion 3).withPlat { s.plat with coldRstN := true } →
    (s.anyActive = true → exec (.hlTrainDone b v) s = .next ((s1.setLane b Hl.standby).bootWait.noteDir s)) ∧
    (s.anyActive = false → (b && decide (s.phase = Ph.boot ∧ s.lane false = Hl.train)) = false → exec (.hlTrainDone b v) s = .next ((s1.activate b).bootWait.noteDir s))) ∧
  (∀ s : State, s.anyActive = false → s.plat.pwrOk = true → exec .hlRetrainTick s =
    .next ([false, true].foldl (fun s b => if s.lane b = Hl.down && s.dieUp (laneDie b) then (s.setLane b Hl.train).withHost { s.host with ticks := b :: s.host.ticks } else s) s)) ∧
  (∀ s : State, s.lane false = Hl.active → s.lane true = Hl.standby → exec .hlkSwap s = .next (((s.setLane false Hl.standby).activate true).noteDir s)) ∧
  (∀ s : State, s.lane true = Hl.active → s.lane false = Hl.standby → exec .hlkSwap s = .next (((s.setLane true Hl.standby).activate false).noteDir s)) ∧
  (∀ (b : Bool) (s : State), s.dieUp (laneDie b) = true → s.lane b = Hl.down → exec (.hlkRetrain b) s = .next (s.setLane b Hl.train)) ∧
  (∀ (b : Bool) (s : State), s.dieUp (laneDie b) = true → s.lane b = Hl.fenced → exec (.hlkRetrain b) s = .next (((s.setBitF Pg.hlk (laneFence b) false).liftFence (laneKey b)).setLane b Hl.train) ∧ exec (.hlkFence b) s = .next s) ∧
  (∀ (b : Bool) (s : State), s.lane b ≠ Hl.fenced → exec (.hlkFence b) s = .next (s.fenceLane b 7)))

/-- Boot and images (R469 to R479): a load begins with an empty buffer, takes its data in order and ends in verification; a good image starts the firmware at boot
or is kept in RUN, a bad one is refused. Fuses and attestation (R480 to R486): a burn starts when its rules hold and none runs, its end raises SVN or revokes
a key or sets FUSE_FAIL; the identity tree; GO and the report. Where the specification leaves a point open it follows the choice of the model in log entries 9
and 30. It says under which conditions these commands complete: bootLoadBegin, bootLoaddata, bootLoadEnd, imageVerifyDone, fuseRaiseSvn, fuseRevoke,
fuseBurnDone, idtreeDone, attestGo, attestDone, secRselWrite, secRdataRead, phaseReady. -/
def Obligations.SecurityCommands : Prop :=
  ((∀ s : State, ∃ t, exec .bootLoadBegin s = .next t ∧ t.boot.load = [] ∧ t.reg (Pg.boot + 0x110) = 0) ∧
  (∀ (data : W64) (s : State), ∃ t, exec (.bootLoaddata data) s = .next t ∧ t.boot.load = s.boot.load ++ [data]) ∧
  (∀ s : State, s.phase = Ph.waitImage → ∃ t, exec .bootLoadEnd s = .next t ∧ t.boot.check = some s.boot.load ∧ t.phase = Ph.verify) ∧
  (∀ s : State, s.phase = Ph.ready → ∃ t, exec .bootLoadEnd s = .next t ∧ t.boot.check = some s.boot.load ∧ t.regs = s.regs) ∧
  (∀ (s s0 : State) (ws : List W64), s.boot.check = some ws → s.phase = Ph.verify → s0 = s.withBoot { s.boot with check := none } →
    (imageResult s.boot.svn s.boot.vkrev ws = 1 → ∃ t, exec .imageVerifyDone s = .next t ∧ t.boot.kept0 = ws ∧ t.boot.kept1 = ws) ∧
    (imageResult s.boot.svn s.boot.vkrev ws ≠ 1 → exec .imageVerifyDone s = .next ((s0.authFail ws (imageResult s.boot.svn s.boot.vkrev ws)).setPhase Ph.waitImage))) ∧
  (∀ s : State, s.plat.pwrOk = true → s.phase = Ph.firmware → s.fld Pg.rcv F.rcvStatPhase = 1 → (s.rcv.resets.any fun j => decide (4 ≤ j.dom)) = false →
    exec .phaseReady s = .next (((((((((s.dropFenced).showMemFences).showHistory).liftLanes).loadDump).loadWmark).loadLeaf).loadOos).loadIdentity.enterRun.noteDir s))) ∧
  ((∀ (x : Byte) (s : State), s.boot.svn < x.toNat → x.toNat ≤ s.runSvn → s.boot.fuseOp = none → ∃ t, exec (.fuseRaiseSvn x) s = .next t ∧ t.boot.fuseOp = some (1, x.toNat) ∧ t.boot.svn = s.boot.svn) ∧
  (∀ (x : Byte) (s : State), s.runSvn < x.toNat → exec (.fuseRaiseSvn x) s = .next (s.setErr Pg.sec F.secErrStatBadSeq 0)) ∧
  (∀ (x : Byte) (s : State), x.toNat ≤ 1 → s.boot.running ≠ [] → s.runSlot = 1 - x.toNat → s.boot.vkrev.getLsbD (1 - x.toNat) = false → s.boot.fuseOp = none →
    ∃ t, exec (.fuseRevoke x) s = .next t ∧ t.boot.fuseOp = some (2, x.toNat)) ∧
  (∀ (s : State) (x : Nat), s.boot.fuseOp = some (1, x) → ∃ t, exec (.fuseBurnDone true) s = .next t ∧ t.boot.svn = x ∧ t.boot.fuseOp = none) ∧
  (∀ (s : State) (x : Nat), s.boot.fuseOp = some (2, x) → ∃ t, exec (.fuseBurnDone true) s = .next t ∧ t.boot.vkrev = s.boot.vkrev ||| BitVec.ofNat 2 (2 ^ x) ∧ t.boot.fuseOp = none) ∧
  (∀ (s : State) (op x : Nat), s.boot.fuseOp = some (op, x) → ∃ t, exec (.fuseBurnDone false) s = .next t ∧ t.boot.fuseBad = true ∧ t.boot.svn = s.boot.svn ∧ t.boot.vkrev = s.boot.vkrev) ∧
  (∀ s : State, s.idReady = false → s.boot.idFail = false → s.boot.secretOff = false → s.plat.pwrOk = true →
    (shake256 idPublic = (List.range 4).map Config.idpkh → exec .idtreeDone s = .next ((List.range 8).foldl (fun s k => s.setReg (Pg.sec + 0x180 + 8 * k) (idpk k)) (s.setBitF Pg.sec F.secStatIdready true))) ∧
    (shake256 idPublic ≠ (List.range 4).map Config.idpkh → ∃ t, exec .idtreeDone s = .next t ∧ t.boot.idFail = true)) ∧
  (∀ s : State, s.bitF Pg.sec F.secAstatBusy = false → s.phase ≠ Ph.test → s.boot.lifecycle ≠ 2 → s.boot.idFail = false → s.leafNext < leafEnd →
    ∃ s1, s1 = (s.setBitF Pg.sec F.secAstatBusy true).reserveLeaf ∧ exec .attestGo s = .next (s1.withBoot { s1.boot with waitGo := !s.idReady })) ∧
  (∀ s : State, s.bitF Pg.sec F.secAstatBusy = false → s.phase = Ph.test → exec .attestGo s = .next (s.endAttest 3)) ∧
  (∀ s : State, s.bitF Pg.sec F.secAstatBusy = true → s.idReady = true → s.leafWaits = false → s.leafNext < s.boot.leafRes →
    ∃ t, exec .attestDone s = .next t ∧ t.boot.report = s.reportBody s.leafNext ++ signWords s.leafNext (wordsBytes (s.reportBody s.leafNext)) ∧ t.boot.secWord = 0) ∧
  (∀ s : State, (∃ t, exec .secRselWrite s = .next t ∧ t.boot.secWord = 0) ∧ (∃ t, exec .secRdataRead s = .next t ∧ t.rdData = s.secWord ∧ t.boot.secWord = s.boot.secWord + 1)))

/-- Test mode and the JTAG ports (R487 to R491): the token's bytes collect and are checked when complete; entry by the rules of the life cycle; results; and each
instruction of a port selects itself. Where the specification leaves a point open it follows the choice of the model in log entry 55. It says under which
conditions these commands complete: testEnter, tstTokenWrite, testDone, jtagTapReset, extest, samplePreload, idcode, clamp, highz, extestPulse, extestTrain,
tsttoken, tstacc, bypass. -/
def Obligations.TestPorts : Prop := (∀ (d : Die) (bs : List Byte) (s : State), s.boot.token.length + bs.length < 2944 → s.plat.pwrOk = true →
    ∃ t, exec (.tsttoken d bs) s = .next t ∧ t.boot.token = s.boot.token ++ bs ∧ t.ir d = Ir.tsttoken) ∧
  (∀ (data : W64) (s : State), exec (.tstTokenWrite data) s = .next (s.tokenBytes s.hub (wordBytes data))) ∧
  (∀ (d : Die) (dies : BitVec 4) (s : State) (m : Nat), s.testMask dies.toNat = some m →
    ∃ t, exec (.testEnter d dies) s = .next t ∧ t.plat.dieTest = BitVec.ofNat 4 m ∧ t.boot.secretOff = true ∧ t.boot.report = [] ∧ t.boot.check = none) ∧
  (∀ (d : Die) (dies : BitVec 4) (s : State), s.phase = Ph.ready → exec (.testEnter d dies) s = .next ((s.setFld (Pg.tst d) F.tstModeDies dies.toNat).setErr (Pg.tst d) F.tstErrStatBadSeq 0)) ∧
  (∀ (d : Die) (r0 : BitVec 35) (r1 : W32) (s : State), s.phase = Ph.test → s.plat.dieTest.getLsbD d = true →
    ∃ t, exec (.testDone d r0 r1) s = .next t ∧ t.reg (Pg.tst d + 0x138) = Bits.make [(63, 63, 1), (34, 0, r0.toNat)] ∧ t.reg (Pg.tst d + 0x140) = r1.setWidth 64 &&& tstRes1Mask) ∧
  (∀ (d : Die) (s : State), s.plat.pwrOk = true →
    (∃ t, exec (.jtagTapReset d) s = .next t ∧ t.ir d = Ir.idcode ∧ t.mem = s.mem) ∧ (∃ t, exec (.samplePreload d) s = .next t ∧ t.ir d = Ir.samplePreload ∧ t.mem = s.mem) ∧
    (∃ t, exec (.idcode d) s = .next t ∧ t.ir d = Ir.idcode ∧ t.rdData = idcodeOf d) ∧
    (∀ code : Byte, Ir.other code = true → ∃ t, exec (.bypass d code) s = .next t ∧ t.ir d = Ir.bypass ∧ t.mem = s.mem)) ∧
  (∀ (d : Die) (s : State), s.plat.pwrOk = true → s.plat.coldRstN = false →
    (∃ t, exec (.extest d) s = .next t ∧ t.ir d = Ir.extest ∧ t.tap.hold = true) ∧ (∃ t, exec (.clamp d) s = .next t ∧ t.ir d = Ir.clamp ∧ t.tap.hold = true) ∧
    (∃ t, exec (.highz d) s = .next t ∧ t.ir d = Ir.highz ∧ t.tap.hold = true) ∧ (∃ t, exec (.extestPulse d) s = .next t ∧ t.ir d = Ir.extestPulse ∧ t.tap.hold = true) ∧
    (∃ t, exec (.extestTrain d) s = .next t ∧ t.ir d = Ir.extestTrain ∧ t.tap.hold = true)) ∧
  (∀ (d : Die) (addr : BitVec 26) (data : W64) (s s1 : State) (k : Nat), s.plat.pwrOk = true → s1 = s.selectIr d Ir.tstacc → s1.phase = Ph.test → addr.toNat % 8 = 0 → s1.canon addr.toNat = some k → s1.pageUp d k = true →
    exec (.tstacc d 0 addr data) s = .next ((s1.readReg (pageOf addr.toNat) k).2.withRegStatus St.ok) ∧ exec (.tstacc d 1 addr data) s = .next ((s1.writeReg k data).withRegStatus St.ok)) ∧
  (∀ (d : Die) (op : BitVec 2) (addr : BitVec 26) (data : W64) (s s1 : State), s.plat.pwrOk = true → s1 = s.selectIr d Ir.tstacc → s1.phase = Ph.test → op.toNat < 2 → addr.toNat % 8 ≠ 0 →
    exec (.tstacc d op addr data) s = .next (s1.withRegStatus St.regSize))

/-- Host commands and queues (R373, R378 to R388): NOP answers with its word, QWAIT when it is the oldest of its queue, an unknown opcode with PROTOCOL_ERR; queue
configuration, watermark, injected errors and event selection. A write of 64 bits to a register of a page in service (R12, R15, R390) is carried out by the
operation that every register write of the model uses. Where the specification leaves a point open it follows the choice of the model in log entry 46. It says
under which conditions these commands complete: regWrite, nop, qwait, hostCmdBadOpcode, sqCfgWrite, wmarkWrite, errInject, evtSelWrite, evtSelRead. -/
def Obligations.HostCommands : Prop :=
  ((∀ (q : Fin 256) (s : State) (k : SqCmd), s.readyCmd q (fun o => decide (o = 0x60)) = some k → exec (.nop q) s = .next (s.finNow q k St.ok (wd k.words 1))) ∧
  (∀ (q : Fin 256) (s : State) (k : SqCmd), s.readyCmd q (fun o => decide (o = 0x61)) = some k → (s.sqCmds q).head?.map (·.seq) = some k.seq → exec (.qwait q) s = .next (s.finNow q k St.ok 0)) ∧
  (∀ (q : Fin 256) (s : State) (k : SqCmd), s.readyCmd q (fun o => !([0x10, 0x30, 0x50, 0x60, 0x61].contains o)) = some k → exec (.hostCmdBadOpcode q) s = .next (s.finNow q k St.protocolErr 0)) ∧
  (∀ (q : Fin 256) (data : W64) (s : State), s.sqValid q = false → data.getLsbD 63 = true → F.sqCfgCtx.of data ≠ 0 → 0 < F.sqCfgDepth.of data → F.sqCfgDepth.of data ≤ 4096 →
    s.depthSum + F.sqCfgDepth.of data ≤ 65536 → exec (.sqCfgWrite q data) s = .next (s.plainWrite (Pg.sq q + 0x100) data)) ∧
  (∀ (q : Fin 256) (data : W64) (s : State), s.sqValid q = true → data.getLsbD 63 = false → s.outstanding q ≠ 0 → exec (.sqCfgWrite q data) s = .next (s.badSeq (Pg.sq q))) ∧
  (∀ s : State, s.plat.pwrOk = true → ((List.range 256).any fun q => decide (KMap.get (0 : W64) s.host.consumed q ≠ s.reg (Pg.sq q + 0x118))) = true → exec .wmarkWrite s = .next s.storeWmark) ∧
  (∀ (page : BitVec 14) (data : W64) (p : Nat) (s : State), s.canon (page.toNat * 4096) = some p →
    exec (.errInject page data) s = .next (s.injectErr p data) ∧ exec (.evtSelWrite page data) s = .next (s.writeEvtSel p data) ∧
    (∃ t, exec (.evtSelRead page) s = .next t ∧ t.rdData = s.reg (p + 0x38) ∧ t.reg (p + 0x38) = s.reg (p + 0x38) &&& ~~~Bits.mask 63 32))) ∧
  ((∀ (addr : BitVec 26) (data : W64) (k : Nat) (s : State), addr.toNat % 8 = 0 → s.plat.pwrOk = true → s.canon addr.toNat = some k → s.pageUp s.hostDie k = true →
    exec (.regWrite addr 3 data) s = .next ((s.writeReg k data).withRegStatus St.ok)))

/-- Watchdogs, aborts and relays (R402 to R412, R438 to R441): an expired limit, the trial's outcome, aborts from host and RCV, their completion, the backstop and
the relay's resends. The recovery service's registers and the dump (R416, R418, R421, R426, R447). Where the specification leaves a point open it follows the
choice of the model in log entry 47. It says under which conditions these commands complete: watchdogExpire, hangTrialDone, taintBackstop, contextAbort,
rcvAbort, abortWedgeCheck, abortComplete, abortRelayResend, rcvOosack, rcvJobidWrite, rcvWdlimWrite, rcvAbstatRead, dumpRead, evlLostRead, downWindowExpire. -/
def Obligations.AbortsAndRecovery : Prop :=
  ((∀ (u : WdUnit) (s : State), s.plat.pwrOk = true → s.excludedWait u = false → exec (.watchdogExpire u) s = .next (s.watchdog u)) ∧
  (∀ (u : WdUnit) (p : Bool) (s : State) (t : Trial), (s.rcv.trials.find? fun t => decide (t.unit = u)) = some t → exec (.hangTrialDone u p) s = .next (s.trialDone t p)) ∧
  (∀ (data : W64) (s : State), ∃ t, exec (.rcvWdlimWrite true data []) s = .next t ∧ t.reg (Pg.rcv + 0x150) =
    Bits.make [(63, 48, max 1 (Bits.get data 63 48)), (47, 32, max 100 (Bits.get data 47 32)), (31, 16, max 100 (Bits.get data 31 16)), (15, 0, max 100 (Bits.get data 15 0))]) ∧
  (∀ (s : State) (c ctx : Nat) (rest : List (Nat × Nat)), s.rcv.late = (c, ctx) :: rest →
    exec .taintBackstop s = .next ((((s.withRcv { s.rcv with late := rest }).taintWhole ctx).setErr Pg.rcv F.rcvErrStatTaintBackstop ctx).event (c / 12) Ev.taintBackstop ctx (unitOf (Pg.clu c)) 0 0)) ∧
  (∀ (q : Fin 256) (s : State) (k : SqCmd), s.nextCmd q = some k → k.echoed = true → wf k.words 0 63 56 = 0x50 →
    (wf k.words 0 7 0 = k.ctx → exec (.contextAbort q) s =
      .next (((s.markDispatched q k.seq).abort k.ctx Cause.host ((wd k.words 0).getLsbD 8) (wd k.words 1) [(q.val, k.seq)]).pump q)) ∧
    (wf k.words 0 7 0 ≠ k.ctx → exec (.contextAbort q) s = .next (((s.markDispatched q k.seq).finCmd q k.seq St.protocolErr 0).pump q))) ∧
  (∀ (ctx : Byte) (f : Bool) (s : State), ctx ≠ 0 → exec (.rcvAbort ctx f) s = .next (s.abort ctx.toNat Cause.host f 0 [])) ∧
  (∀ (f : Bool) (s : State), exec (.rcvAbort 0 f) s = .next (s.badSeq Pg.rcv)) ∧
  (∀ (u : WdUnit) (s : State), s.rcv.aborts ≠ [] → exec (.abortWedgeCheck [(u, true)]) s = .next ((s.resetUnit u).countReset (.engine u)) ∧
    exec (.abortWedgeCheck [(u, false)]) s = .next ((s.startEngine u true).fenceAny u 5)) ∧
  (∀ (s : State) (j : AbortJob) (rest : List AbortJob), s.rcv.aborts = j :: rest → exec .abortComplete s = .next (s.finishAbort j)) ∧
  (∀ (s : State) (r : Relay) (rest : List Relay), s.rcv.relays = r :: rest →
    exec .abortRelayResend s = .next ((s.sendRelay r).withRcv { s.rcv with relays := if r.left ≤ 1 then rest else rest ++ [{ r with left := r.left - 1 }] }))) ∧
  ((∀ (e : W32) (s : State), s.oosLatched = true → s.rcv.coldSince = true → s.fld Pg.rcv F.rcvOosEvseq = e.toNat → (s.setOos 0).fld Pg.rcv F.rcvStatPhase = 2 →
    exec (.rcvOosack e) s = .next ((s.setOos 0).setFld Pg.rcv F.rcvStatPhase 0)) ∧
  (∀ (e : W32) (s : State), s.oosLatched = false → exec (.rcvOosack e) s = .next (s.badSeq Pg.rcv)) ∧
  (∀ (j : W64) (s : State), ∃ t, exec (.rcvJobidWrite j) s = .next t ∧ t.reg (bank s.jobSel Pg.rcv + 0x138) = j ∧ t.reg (bank s.jobSel Pg.rcv + 0x140) = 0) ∧
  (∀ s : State, ∃ t, exec .rcvAbstatRead s = .next t ∧ t.rdData = s.reg (Pg.rcv + 0x110) ∧ t.reg (Pg.rcv + 0x110) = s.reg (Pg.rcv + 0x110) &&& ~~~Bits.mask 39 32) ∧
  (∀ s : State, s.rcv.dump = none → ∃ t, exec .dumpRead s = .next t ∧ t.rdData = s.dumpWord ∧ t.fld Pg.rcv F.rcvDumpptrOffset = (s.fld Pg.rcv F.rcvDumpptrOffset + 8) % 2 ^ 32) ∧
  (∀ (d : Die) (s : State), ∃ t, exec (.evlLostRead d) s = .next t ∧ t.rdData = s.reg (Pg.evl d + 0x128) ∧ t.reg (Pg.evl d + 0x128) = 0) ∧
  (∀ (p : Fin 24) (s : State), ∃ t, exec (.downWindowExpire (some p)) s = .next t ∧
    t.fld (Pg.lnk p) F.lnkDownsCount = (within (s.now (portDie p)) dayNs (s.unitRec (lnkKey p)).downs).length % 2 ^ (F.lnkDownsCount.hi + 1 - F.lnkDownsCount.lo)) ∧
  (∀ s : State, exec (.downWindowExpire none) s = .next s.showLaneDowns))

/-- Resets (R413 to R422, R446): each domain starts while RCV is in RUN, ends in its own way, and escalates when it fails: an engine to its cluster or die, a
cluster to its die, a die is fenced, a warm recovery to a cold one; a recovery ends in RUN. Where the specification leaves a point open it follows the choice
of the model in log entry 49. It says under which conditions these commands complete: coldReset, resetEngine, resetCluster, resetDieFunction, resetWarm,
resetCold, resetDone, resetFail, recoveryDone. -/
def Obligations.Resets : Prop := (∀ (u : WdUnit) (s : State), s.fld Pg.rcv F.rcvStatPhase = 0 → (∃ e, u = .mxe e) ∨ (∃ v, u = .vxe v) ∨ (∃ x, u = .update x) ∨ (∃ d, u = .courier d) →
    (s.runningCtx u = none → exec (.resetEngine u) s = .next (s.startEngine u true)) ∧
    (∀ c, s.runningCtx u = some c → exec (.resetEngine u) s = .next ((s.abortFor c Cause.reset).startEngine u true))) ∧
  (∀ (c : ClusterNo) (s : State), s.fld Pg.rcv F.rcvStatPhase = 0 → exec (.resetCluster c) s = .next (s.startCluster c true)) ∧
  (∀ (d : Die) (tr : TrainIn) (s : State), s.fld Pg.rcv F.rcvStatPhase = 0 → s.plat.dieFenced.getLsbD d = false → exec (.resetDieFunction d tr) s = .next (s.startDie d (some tr) true)) ∧
  (∀ (tr : TrainIn) (s : State), s.fld Pg.rcv F.rcvStatPhase = 0 →
    exec (.resetWarm tr) s = .next (s.startRecovery (s.bitF Pg.rcv F.rcvCfgScope) tr true) ∧ exec (.resetCold tr) s = .next (s.startRecovery true tr true)) ∧
  (∀ (c : ClusterNo) (s : State), s.fld Pg.rcv F.rcvStatPhase ≠ 0 → exec (.resetCluster c) s = .next (s.badSeq Pg.rcv)) ∧
  (∀ (tr : TrainIn) (s : State), s.plat.pwrOk = true → s.phase ≠ Ph.test → exec (.coldReset tr) s = .next ((s.withPlat { s.plat with coldRstN := false }).startRecovery true tr true)) ∧
  (∀ (u : WdUnit) (p : Bool) (s : State) (j : ResetJob), s.findReset (.engine u) = some j → ∃ t, exec (.resetDone (.engine u) p) s = .next t ∧ t.findReset (.engine u) = none ∧ t.regs = s.regs) ∧
  (∀ (c : ClusterNo) (s : State) (j : ResetJob), s.findReset (.cluster c) = some j →
    exec (.resetDone (.cluster c) true) s = .next ((s.dropReset (.cluster c)).readmitCluster c) ∧ exec (.resetDone (.cluster c) false) s = .next ((s.dropReset (.cluster c)).fenceCluster c 5)) ∧
  (∀ (d : Die) (p : Bool) (s : State) (j : ResetJob), s.findReset (.dieFunction d) = some j →
    exec (.resetDone (.dieFunction d) p) s = .next ((s.dropReset (.dieFunction d)).endDie d j.train) ∧
    exec (.resetFail (.dieFunction d)) s = .next ((((s.dropReset (.dieFunction d)).setErr Pg.rcv F.rcvErrStatResetFail 0).event (targetPlace (.dieFunction d)).1 Ev.resetFail 0 (unitOf (targetPlace (.dieFunction d)).2.1) 0 0).fenceDie d 5)) ∧
  (∀ (tg : ResetTarget) (s s1 : State) (j : ResetJob), s.findReset tg = some j →
    s1 = ((s.dropReset tg).setErr Pg.rcv F.rcvErrStatResetFail 0).event (targetPlace tg).1 Ev.resetFail 0 (unitOf (targetPlace tg).2.1) 0 0 →
    (∀ u c, tg = .engine u → wdCluster u = some c → exec (.resetFail tg) s = .next (s1.startCluster c true)) ∧
    (∀ u, tg = .engine u → wdCluster u = none → exec (.resetFail tg) s = .next (s1.startDie (targetPlace tg).1 none true)) ∧
    (∀ c, tg = .cluster c → exec (.resetFail tg) s = .next ((s1.fenceCluster c 5).startDie (targetPlace tg).1 none true)) ∧
    (tg = .warm → exec (.resetFail tg) s = .next (s1.startRecovery true (j.train.getD ⟨0, [], 0, 0, 0⟩) true))) ∧
  (∀ (s s1 : State) (j : ResetJob), (s.rcv.resets.find? fun j => decide (4 ≤ j.dom)) = some j → s.phase = Ph.firmware → s.tap.hold = false →
    s1 = (s.withRcv { s.rcv with resets := [] }).withPlat { s.plat with coldRstN := true } →
    exec .recoveryDone s = .next ((((((s1.applyTraining (j.train.getD ⟨0, [], 0, 0, 0⟩)).loadIdentity).unfinished).enterRun).event
      ((((s1.applyTraining (j.train.getD ⟨0, [], 0, 0, 0⟩)).loadIdentity).unfinished).enterRun).hub Ev.recoveryDone 0 (unitOf Pg.rcv) 0 0).noteDir s))

/-- Power, bridges, clocks and the board (R20 to R34, R49, R50): power loss empties the package but for what is durable, power-up reads the store and checks the
dies, a bridge counts replays of one flit and goes down at sixteen, a die's clock runs free without its reference. Where the specification leaves a point open
it follows the choice of the model in log entry 12. It says under which conditions these commands complete: powerUp, powerLoss, bridgeFlitReplay, bridgeDown,
refclkLost, refclkReturn, bmShutdown, bmShutdownDone. -/
def Obligations.PlatformCommands : Prop := (∀ s : State, s.plat.pwrOk = true → ∃ t, exec .powerLoss s = .next t ∧ t.plat.pwrOk = false ∧ t.mem = State.reset.mem ∧ t.regs = State.reset.regs ∧ t.boot.svn = s.boot.svn ∧ t.sst.a = s.sst.a ∧ t.sst.b = s.sst.b ∧ t.sst.wait = []) ∧
  (∀ (i : PowerUpIn) (s s0 s3 : State), s.plat.pwrOk = false → s0 = s.unpowered s.host.ranges →
    s3 = ((((((s0.withPlat { s0.plat with pwrOk := true, coldRstN := true }).senseFuses).readStore i.devA i.devB).loadUnits).newChal).pwrStart).selfChecks i.selfOk →
    exec (.powerUp i) s = .next (((((List.range 32).filter fun k => !i.lpOk.getLsbD k && !s3.unitFenced (lpKey k)).foldl (fun s k => s.fenceLp k 4) s3).setFld Pg.dir F.dirStatGen 0).setReg (Pg.hlk + 0x20) 0)) ∧
  (∀ (b : Fin 4) (f : Nat) (s : State), s.bridgeUp b = true →
    ((s.bridge b).flit = f → 0 < (s.bridge b).replays → ∃ t, exec (.bridgeFlitReplay b f) s = .next t ∧ (t.bridge b).replays = min 16 ((s.bridge b).replays + 1)) ∧
    ((s.bridge b).flit ≠ f → ∃ t, exec (.bridgeFlitReplay b f) s = .next t ∧ t.bridge b = ⟨f, 1, false, [f]⟩)) ∧
  (∀ (b : Fin 4) (s : State), s.bridgeUp b = true → 16 ≤ (s.bridge b).replays → ∃ t, exec (.bridgeDown b) s = .next t ∧ (t.bridge b).down = true) ∧
  (∀ (d : Die) (s : State), s.dieUp d = true → (s.tb d).free = false → ∃ t, exec (.refclkLost d) s = .next t ∧ (t.tb d).free = true) ∧
  (∀ (d : Die) (s : State), s.dieUp d = true → (s.tb d).free = true → ∃ s1, s1 = s.setTb d ⟨(s.tb ((s.timeNeighbour d).getD d)).ns, false⟩ ∧
    exec (.refclkReturn d) s = .next (((List.range 6).map (6 * d.val + ·)).foldl (fun s p => if s.lnk p = Lk.down then s.trainPort p else s) s1)) ∧
  (∀ s : State, s.hubUp = true → s.host.stopped = false → exec (.bmShutdown 1) s = .next (s.storeWmark.withHost { s.host with stopped := true })) ∧
  (∀ s : State, s.host.stopped = true → s.allDurable = true → ∃ t, exec .bmShutdownDone s = .next t ∧ t.host.shutDone = true ∧ t.sst = s.sst)
end

