-- ==== Sys2Proof/Laws/Exec.lean ====
section
/-! SUPPORT. Two equations per command: exec answers with the command's own meaning, and what the command may change. -/

namespace Sys2Proof.Machine

theorem exec_regWrite (x0 : BitVec 26) (x1 : BitVec 2) (x2 : W64) (s : State) : exec (.regWrite x0 x1 x2) s = execRegWrite x0 x1 x2 s := rfl
theorem exec_powerUp (x0 : PowerUpIn) (s : State) : exec (.powerUp x0) s = execPowerUp x0 s := rfl
theorem exec_powerLoss (s : State) : exec (.powerLoss) s = execPowerLoss s := rfl
theorem exec_coldReset (x0 : TrainIn) (s : State) : exec (.coldReset x0) s = execColdReset x0 s := rfl
theorem exec_bridgeFlitReplay (x0 : Fin 4) (x1 : Nat) (s : State) : exec (.bridgeFlitReplay x0 x1) s = execBridgeFlitReplay x0 x1 s := rfl
theorem exec_bridgeDown (x0 : Fin 4) (s : State) : exec (.bridgeDown x0) s = execBridgeDown x0 s := rfl
theorem exec_refclkLost (x0 : Die) (s : State) : exec (.refclkLost x0) s = execRefclkLost x0 s := rfl
theorem exec_refclkReturn (x0 : Die) (s : State) : exec (.refclkReturn x0) s = execRefclkReturn x0 s := rfl
theorem exec_thermtrip (x0 : Sensor) (x1 : W16) (s : State) : exec (.thermtrip x0 x1) s = execThermtrip x0 x1 s := rfl
theorem exec_islStretchRead (x0 : Die) (x1 : Fin 35) (s : State) : exec (.islStretchRead x0 x1) s = execIslStretchRead x0 x1 s := rfl
theorem exec_tissue (x0 : ClusterNo) (x1 : Gpr) (x2 : Gpr) (x3 : Gpr) (s : State) : exec (.tissue x0 x1 x2 x3) s = execTissue x0 x1 x2 x3 s := rfl
theorem exec_tpair (x0 : ClusterNo) (x1 : Gpr) (x2 : Gpr) (x3 : Gpr) (s : State) : exec (.tpair x0 x1 x2 x3) s = execTpair x0 x1 x2 x3 s := rfl
theorem exec_tileExecute (x0 : Met ClusterNo) (x1 : Fin 4) (x2 : List CellFault) (s : State) : exec (.tileExecute x0 x1 x2) s = execTileExecute x0 x1 x2 s := rfl
theorem exec_tileCheckDone (x0 : MxeNo) (s : State) : exec (.tileCheckDone x0) s = execTileCheckDone x0 s := rfl
theorem exec_tileRerun (x0 : Met MxeNo) (x1 : List CellFault) (s : State) : exec (.tileRerun x0 x1) s = execTileRerun x0 x1 s := rfl
theorem exec_tileDrainStart (x0 : MxeNo) (s : State) : exec (.tileDrainStart x0) s = execTileDrainStart x0 s := rfl
theorem exec_tileDrainEnd (x0 : MxeNo) (s : State) : exec (.tileDrainEnd x0) s = execTileDrainEnd x0 s := rfl
theorem exec_issueCapWindow (x0 : MxeNo) (s : State) : exec (.issueCapWindow x0) s = execIssueCapWindow x0 s := rfl
theorem exec_strikeWindowExpire (x0 : MxeNo) (s : State) : exec (.strikeWindowExpire x0) s = execStrikeWindowExpire x0 s := rfl
theorem exec_mxeFence (x0 : MxeNo) (s : State) : exec (.mxeFence x0) s = execMxeFence x0 s := rfl
theorem exec_mxeSelftest (x0 : MxeNo) (s : State) : exec (.mxeSelftest x0) s = execMxeSelftest x0 s := rfl
theorem exec_mxeSelftestDone (x0 : MxeNo) (x1 : Bool) (s : State) : exec (.mxeSelftestDone x0 x1) s = execMxeSelftestDone x0 x1 s := rfl
theorem exec_mxeReadmit (x0 : MxeNo) (s : State) : exec (.mxeReadmit x0) s = execMxeReadmit x0 s := rfl
theorem exec_mxeChkRead (x0 : MxeNo) (s : State) : exec (.mxeChkRead x0) s = execMxeChkRead x0 s := rfl
theorem exec_mxePerfRead (x0 : MxeNo) (s : State) : exec (.mxePerfRead x0) s = execMxePerfRead x0 s := rfl
theorem exec_cissue (x0 : ClusterNo) (x1 : Gpr) (x2 : Gpr) (x3 : Gpr) (s : State) : exec (.cissue x0 x1 x2 x3) s = execCissue x0 x1 x2 x3 s := rfl
theorem exec_chainStart (x0 : Met VxeNo) (s : State) : exec (.chainStart x0) s = execChainStart x0 s := rfl
theorem exec_chainEntryClaim (x0 : VxeNo) (s : State) : exec (.chainEntryClaim x0) s = execChainEntryClaim x0 s := rfl
theorem exec_chainComplete (x0 : Met VxeNo) (x1 : Bool) (s : State) : exec (.chainComplete x0 x1) s = execChainComplete x0 x1 s := rfl
theorem exec_vxeFence (x0 : VxeNo) (s : State) : exec (.vxeFence x0) s = execVxeFence x0 s := rfl
theorem exec_vxeSelftest (x0 : VxeNo) (s : State) : exec (.vxeSelftest x0) s = execVxeSelftest x0 s := rfl
theorem exec_vxeSelftestDone (x0 : VxeNo) (x1 : Bool) (s : State) : exec (.vxeSelftestDone x0 x1) s = execVxeSelftestDone x0 x1 s := rfl
theorem exec_vxeReadmit (x0 : VxeNo) (s : State) : exec (.vxeReadmit x0) s = execVxeReadmit x0 s := rfl
theorem exec_vxePerfRead (x0 : VxeNo) (s : State) : exec (.vxePerfRead x0) s = execVxePerfRead x0 s := rfl
theorem exec_cpop (x0 : ClusterNo) (x1 : Gpr) (s : State) : exec (.cpop x0 x1) s = execCpop x0 x1 s := rfl
theorem exec_cpeek (x0 : ClusterNo) (x1 : Gpr) (s : State) : exec (.cpeek x0 x1) s = execCpeek x0 x1 s := rfl
theorem exec_smovS (x0 : ClusterNo) (x1 : Fin 64) (x2 : Gpr) (s : State) : exec (.smovS x0 x1 x2) s = execSmovS x0 x1 x2 s := rfl
theorem exec_smovG (x0 : ClusterNo) (x1 : Gpr) (x2 : Fin 64) (s : State) : exec (.smovG x0 x1 x2) s = execSmovG x0 x1 x2 s := rfl
theorem exec_bs (x0 : ClusterNo) (x1 : Cond) (x2 : Bool) (x3 : Fin 64) (x4 : Fin 64) (x5 : BitVec 9) (s : State) : exec (.bs x0 x1 x2 x3 x4 x5) s = execBs x0 x1 x2 x3 x4 x5 s := rfl
theorem exec_ringRecordRelease (x0 : ClusterNo) (s : State) : exec (.ringRecordRelease x0) s = execRingRecordRelease x0 s := rfl
theorem exec_gather (x0 : ClusterNo) (x1 : Fin 6) (x2 : Gpr) (x3 : Gpr) (s : State) : exec (.gather x0 x1 x2 x3) s = execGather x0 x1 x2 x3 s := rfl
theorem exec_scatter (x0 : ClusterNo) (x1 : Fin 6) (x2 : Gpr) (x3 : Gpr) (s : State) : exec (.scatter x0 x1 x2 x3) s = execScatter x0 x1 x2 x3 s := rfl
theorem exec_gatherComplete (x0 : Met ClusterNo) (s : State) : exec (.gatherComplete x0) s = execGatherComplete x0 s := rfl
theorem exec_intAlu (x0 : Issued) (x1 : AluFn) (x2 : Gpr) (x3 : Gpr) (x4 : AluSrc) (s : State) : exec (.intAlu x0 x1 x2 x3 x4) s = execIntAlu x0 x1 x2 x3 x4 s := rfl
theorem exec_load (x0 : Issued) (x1 : Space) (x2 : Fin 4) (x3 : Gpr) (x4 : Gpr) (x5 : BitVec 15) (x6 : ArrayErr) (s : State) : exec (.load x0 x1 x2 x3 x4 x5 x6) s = execLoad x0 x1 x2 x3 x4 x5 x6 s := rfl
theorem exec_store (x0 : Issued) (x1 : Space) (x2 : Fin 4) (x3 : Gpr) (x4 : Gpr) (x5 : BitVec 15) (x6 : ArrayErr) (s : State) : exec (.store x0 x1 x2 x3 x4 x5 x6) s = execStore x0 x1 x2 x3 x4 x5 x6 s := rfl
theorem exec_compareBranch (x0 : Issued) (x1 : Cond) (x2 : Gpr) (x3 : Gpr) (x4 : BitVec 15) (s : State) : exec (.compareBranch x0 x1 x2 x3 x4) s = execCompareBranch x0 x1 x2 x3 x4 s := rfl
theorem exec_jumpAndLink (x0 : Issued) (x1 : Gpr) (x2 : Gpr) (x3 : BitVec 15) (s : State) : exec (.jumpAndLink x0 x1 x2 x3) s = execJumpAndLink x0 x1 x2 x3 s := rfl
theorem exec_fpOp (x0 : CoreNo) (x1 : FpFn) (x2 : Bool) (x3 : Gpr) (x4 : Gpr) (x5 : Gpr) (s : State) : exec (.fpOp x0 x1 x2 x3 x4 x5) s = execFpOp x0 x1 x2 x3 x4 x5 s := rfl
theorem exec_systemOp (x0 : Issued) (x1 : SysFn) (s : State) : exec (.systemOp x0 x1) s = execSystemOp x0 x1 s := rfl
theorem exec_cluCtxWrite (x0 : ClusterNo) (x1 : W64) (s : State) : exec (.cluCtxWrite x0 x1) s = execCluCtxWrite x0 x1 s := rfl
theorem exec_coreRun (x0 : ClusterNo) (x1 : Fin 7) (s : State) : exec (.coreRun x0 x1) s = execCoreRun x0 x1 s := rfl
theorem exec_coreStop (x0 : ClusterNo) (x1 : Fin 7) (s : State) : exec (.coreStop x0 x1) s = execCoreStop x0 x1 s := rfl
theorem exec_hstSnapshot (x0 : Die) (x1 : Byte) (x2 : BitVec 42) (s : State) : exec (.hstSnapshot x0 x1 x2) s = execHstSnapshot x0 x1 x2 s := rfl
theorem exec_hstSnapshotClear (x0 : Die) (x1 : Byte) (x2 : BitVec 42) (s : State) : exec (.hstSnapshotClear x0 x1 x2) s = execHstSnapshotClear x0 x1 x2 s := rfl
theorem exec_hstLoad (x0 : Die) (x1 : Byte) (x2 : BitVec 42) (s : State) : exec (.hstLoad x0 x1 x2) s = execHstLoad x0 x1 x2 s := rfl
theorem exec_hstOpDone (x0 : Die) (s : State) : exec (.hstOpDone x0) s = execHstOpDone x0 s := rfl
theorem exec_hsnapWrite (x0 : ClusterNo) (x1 : Fin 6) (x2 : W64) (s : State) : exec (.hsnapWrite x0 x1 x2) s = execHsnapWrite x0 x1 x2 s := rfl
theorem exec_hstOwnWrite (x0 : Die) (x1 : Byte) (x2 : W64) (s : State) : exec (.hstOwnWrite x0 x1 x2) s = execHstOwnWrite x0 x1 x2 s := rfl
theorem exec_ctrClear (x0 : Die) (s : State) : exec (.ctrClear x0) s = execCtrClear x0 s := rfl
theorem exec_ctrAdd (x0 : Die) (x1 : W64) (s : State) : exec (.ctrAdd x0 x1) s = execCtrAdd x0 x1 s := rfl
theorem exec_ctrEvtRead (x0 : Die) (x1 : Fin 48) (s : State) : exec (.ctrEvtRead x0 x1) s = execCtrEvtRead x0 x1 s := rfl
theorem exec_mapRgnValidate (x0 : Fin 64) (x1 : W64) (s : State) : exec (.mapRgnValidate x0 x1) s = execMapRgnValidate x0 x1 s := rfl
theorem exec_mapRgnClose (x0 : Fin 64) (s : State) : exec (.mapRgnClose x0) s = execMapRgnClose x0 s := rfl
theorem exec_mapQuiesceDone (s : State) : exec (.mapQuiesceDone) s = execMapQuiesceDone s := rfl
theorem exec_tollRefill (x0 : Die) (s : State) : exec (.tollRefill x0) s = execTollRefill x0 s := rfl
theorem exec_tollBktWrite (x0 : Die) (x1 : Fin 64) (x2 : W64) (s : State) : exec (.tollBktWrite x0 x1 x2) s = execTollBktWrite x0 x1 x2 s := rfl
theorem exec_tollHeldRead (x0 : Die) (x1 : Fin 64) (s : State) : exec (.tollHeldRead x0 x1) s = execTollHeldRead x0 x1 s := rfl
theorem exec_stackTempReport (x0 : Fin 20) (x1 : W16) (s : State) : exec (.stackTempReport x0 x1) s = execStackTempReport x0 x1 s := rfl
theorem exec_throttleFallStep (x0 : Fin 20) (s : State) : exec (.throttleFallStep x0) s = execThrottleFallStep x0 s := rfl
theorem exec_msTempLost (x0 : Fin 20) (s : State) : exec (.msTempLost x0) s = execMsTempLost x0 s := rfl
theorem exec_lpTempReport (x0 : Fin 32) (x1 : W16) (s : State) : exec (.lpTempReport x0 x1) s = execLpTempReport x0 x1 s := rfl
theorem exec_scrubPass (x0 : MemCtl) (x1 : ScrubErrs) (s : State) : exec (.scrubPass x0 x1) s = execScrubPass x0 x1 s := rfl
theorem exec_mscFenceWrite (x0 : Fin 20) (x1 : W32) (s : State) : exec (.mscFenceWrite x0 x1) s = execMscFenceWrite x0 x1 s := rfl
theorem exec_lpcFenceWrite (x0 : Fin 16) (x1 : BitVec 2) (s : State) : exec (.lpcFenceWrite x0 x1) s = execLpcFenceWrite x0 x1 s := rfl
theorem exec_mscEccRead (x0 : MemCtl) (s : State) : exec (.mscEccRead x0) s = execMscEccRead x0 s := rfl
theorem exec_updateStart (s : State) : exec (.updateStart) s = execUpdateStart s := rfl
theorem exec_uuChunkRun (x0 : Met (Fin 36)) (x1 : Bool) (s : State) : exec (.uuChunkRun x0 x1) s = execUuChunkRun x0 x1 s := rfl
theorem exec_journalMirrorAck (x0 : Fin 36) (s : State) : exec (.journalMirrorAck x0) s = execJournalMirrorAck x0 s := rfl
theorem exec_uuSegmentPass (x0 : Met (Fin 36)) (s : State) : exec (.uuSegmentPass x0) s = execUuSegmentPass x0 s := rfl
theorem exec_updateCommit (s : State) : exec (.updateCommit) s = execUpdateCommit s := rfl
theorem exec_uld (x0 : Fin 36) (x1 : Gpr) (x2 : Fin 32) (s : State) : exec (.uld x0 x1 x2) s = execUld x0 x1 x2 s := rfl
theorem exec_ust (x0 : Fin 36) (x1 : Fin 32) (x2 : Gpr) (s : State) : exec (.ust x0 x1 x2) s = execUst x0 x1 x2 s := rfl
theorem exec_ukset (x0 : Fin 36) (x1 : Fin 16) (x2 : Gpr) (s : State) : exec (.ukset x0 x1 x2) s = execUkset x0 x1 x2 s := rfl
theorem exec_uadd (x0 : Fin 36) (x1 : Bool) (x2 : Gpr) (x3 : Gpr) (x4 : Gpr) (s : State) : exec (.uadd x0 x1 x2 x3 x4) s = execUadd x0 x1 x2 x3 x4 s := rfl
theorem exec_usub (x0 : Fin 36) (x1 : Bool) (x2 : Gpr) (x3 : Gpr) (x4 : Gpr) (s : State) : exec (.usub x0 x1 x2 x3 x4) s = execUsub x0 x1 x2 x3 x4 s := rfl
theorem exec_umul (x0 : Fin 36) (x1 : Bool) (x2 : Gpr) (x3 : Gpr) (x4 : Gpr) (s : State) : exec (.umul x0 x1 x2 x3 x4) s = execUmul x0 x1 x2 x3 x4 s := rfl
theorem exec_udiv (x0 : Fin 36) (x1 : Bool) (x2 : Gpr) (x3 : Gpr) (x4 : Gpr) (s : State) : exec (.udiv x0 x1 x2 x3 x4) s = execUdiv x0 x1 x2 x3 x4 s := rfl
theorem exec_ufma (x0 : Fin 36) (x1 : Bool) (x2 : Gpr) (x3 : Gpr) (x4 : Gpr) (s : State) : exec (.ufma x0 x1 x2 x3 x4) s = execUfma x0 x1 x2 x3 x4 s := rfl
theorem exec_usqrt (x0 : Fin 36) (x1 : Bool) (x2 : Gpr) (x3 : Gpr) (s : State) : exec (.usqrt x0 x1 x2 x3) s = execUsqrt x0 x1 x2 x3 s := rfl
theorem exec_umax (x0 : Fin 36) (x1 : Bool) (x2 : Gpr) (x3 : Gpr) (x4 : Gpr) (s : State) : exec (.umax x0 x1 x2 x3 x4) s = execUmax x0 x1 x2 x3 x4 s := rfl
theorem exec_umin (x0 : Fin 36) (x1 : Bool) (x2 : Gpr) (x3 : Gpr) (x4 : Gpr) (s : State) : exec (.umin x0 x1 x2 x3 x4) s = execUmin x0 x1 x2 x3 x4 s := rfl
theorem exec_uabs (x0 : Fin 36) (x1 : Bool) (x2 : Gpr) (x3 : Gpr) (s : State) : exec (.uabs x0 x1 x2 x3) s = execUabs x0 x1 x2 x3 s := rfl
theorem exec_uneg (x0 : Fin 36) (x1 : Bool) (x2 : Gpr) (x3 : Gpr) (s : State) : exec (.uneg x0 x1 x2 x3) s = execUneg x0 x1 x2 x3 s := rfl
theorem exec_usgn (x0 : Fin 36) (x1 : Bool) (x2 : Gpr) (x3 : Gpr) (s : State) : exec (.usgn x0 x1 x2 x3) s = execUsgn x0 x1 x2 x3 s := rfl
theorem exec_ucvt (x0 : Fin 36) (x1 : Bool) (x2 : Gpr) (x3 : Gpr) (s : State) : exec (.ucvt x0 x1 x2 x3) s = execUcvt x0 x1 x2 x3 s := rfl
theorem exec_uwadd (x0 : Fin 36) (x1 : Gpr) (x2 : Gpr) (x3 : Gpr) (s : State) : exec (.uwadd x0 x1 x2 x3) s = execUwadd x0 x1 x2 x3 s := rfl
theorem exec_uloop (x0 : Fin 36) (s : State) : exec (.uloop x0) s = execUloop x0 s := rfl
theorem exec_uend (x0 : Fin 36) (s : State) : exec (.uend x0) s = execUend x0 s := rfl
theorem exec_uuFence (x0 : Fin 36) (s : State) : exec (.uuFence x0) s = execUuFence x0 s := rfl
theorem exec_uuSelftest (x0 : Fin 36) (s : State) : exec (.uuSelftest x0) s = execUuSelftest x0 s := rfl
theorem exec_uuSelftestDone (x0 : Fin 36) (x1 : Bool) (s : State) : exec (.uuSelftestDone x0 x1) s = execUuSelftestDone x0 x1 s := rfl
theorem exec_uuReadmit (x0 : Fin 36) (s : State) : exec (.uuReadmit x0) s = execUuReadmit x0 s := rfl
theorem exec_uuPerfRead (x0 : Fin 36) (s : State) : exec (.uuPerfRead x0) s = execUuPerfRead x0 s := rfl
theorem exec_updPerfRead (x0 : Die) (s : State) : exec (.updPerfRead x0) s = execUpdPerfRead x0 s := rfl
theorem exec_qpush (x0 : ClusterNo) (x1 : Bool) (x2 : Gpr) (x3 : Gpr) (x4 : Gpr) (s : State) : exec (.qpush x0 x1 x2 x3 x4) s = execQpush x0 x1 x2 x3 x4 s := rfl
theorem exec_qpop (x0 : ClusterNo) (x1 : Bool) (x2 : Gpr) (x3 : Gpr) (x4 : Gpr) (s : State) : exec (.qpop x0 x1 x2 x3 x4) s = execQpop x0 x1 x2 x3 x4 s := rfl
theorem exec_qdone (x0 : ClusterNo) (x1 : Gpr) (x2 : Gpr) (s : State) : exec (.qdone x0 x1 x2) s = execQdone x0 x1 x2 s := rfl
theorem exec_vacq (x0 : ClusterNo) (x1 : Gpr) (x2 : Gpr) (x3 : Gpr) (s : State) : exec (.vacq x0 x1 x2 x3) s = execVacq x0 x1 x2 x3 s := rfl
theorem exec_vrel (x0 : ClusterNo) (x1 : Gpr) (x2 : Gpr) (x3 : Gpr) (s : State) : exec (.vrel x0 x1 x2 x3) s = execVrel x0 x1 x2 x3 s := rfl
theorem exec_fbeg (x0 : ClusterNo) (x1 : Gpr) (x2 : Gpr) (s : State) : exec (.fbeg x0 x1 x2) s = execFbeg x0 x1 x2 s := rfl
theorem exec_fend (x0 : ClusterNo) (x1 : Gpr) (x2 : Gpr) (s : State) : exec (.fend x0 x1 x2) s = execFend x0 x1 x2 s := rfl
theorem exec_taint (x0 : ClusterNo) (x1 : Gpr) (x2 : Gpr) (x3 : Gpr) (s : State) : exec (.taint x0 x1 x2 x3) s = execTaint x0 x1 x2 x3 s := rfl
theorem exec_slCopyDone (x0 : Met Byte) (x1 : W32) (s : State) : exec (.slCopyDone x0 x1) s = execSlCopyDone x0 x1 s := rfl
theorem exec_slOpenRecv (x0 : SlOpen) (s : State) : exec (.slOpenRecv x0) s = execSlOpenRecv x0 s := rfl
theorem exec_slAcceptRecv (x0 : Byte) (s : State) : exec (.slAcceptRecv x0) s = execSlAcceptRecv x0 s := rfl
theorem exec_slRefuseRecv (x0 : Byte) (s : State) : exec (.slRefuseRecv x0) s = execSlRefuseRecv x0 s := rfl
theorem exec_slDescRecv (x0 : SlDesc) (s : State) : exec (.slDescRecv x0) s = execSlDescRecv x0 s := rfl
theorem exec_slAckRecv (x0 : Byte) (x1 : W32) (x2 : W32) (s : State) : exec (.slAckRecv x0 x1 x2) s = execSlAckRecv x0 x1 x2 s := rfl
theorem exec_slConsumedSend (x0 : Byte) (s : State) : exec (.slConsumedSend x0) s = execSlConsumedSend x0 s := rfl
theorem exec_slCreditRecv (x0 : Byte) (x1 : W32) (s : State) : exec (.slCreditRecv x0 x1) s = execSlCreditRecv x0 x1 s := rfl
theorem exec_slResend (x0 : Byte) (s : State) : exec (.slResend x0) s = execSlResend x0 s := rfl
theorem exec_slTaintRecv (x0 : Byte) (x1 : TaintId) (s : State) : exec (.slTaintRecv x0 x1) s = execSlTaintRecv x0 x1 s := rfl
theorem exec_slqIncfgWrite (x0 : Die) (x1 : Fin 64) (x2 : W64) (s : State) : exec (.slqIncfgWrite x0 x1 x2) s = execSlqIncfgWrite x0 x1 x2 s := rfl
theorem exec_slqOutcfgWrite (x0 : Die) (x1 : Fin 64) (x2 : W64) (s : State) : exec (.slqOutcfgWrite x0 x1 x2) s = execSlqOutcfgWrite x0 x1 x2 s := rfl
theorem exec_stgStageWrite (x0 : Fin 16) (x1 : W64) (s : State) : exec (.stgStageWrite x0 x1) s = execStgStageWrite x0 x1 s := rfl
theorem exec_vcmdActivate (x0 : W16) (s : State) : exec (.vcmdActivate x0) s = execVcmdActivate x0 s := rfl
theorem exec_vcmdRetire (x0 : W16) (s : State) : exec (.vcmdRetire x0) s = execVcmdRetire x0 s := rfl
theorem exec_stgTclr (x0 : Byte) (s : State) : exec (.stgTclr x0) s = execStgTclr x0 s := rfl
theorem exec_ldfe (x0 : CoreErr) (x1 : Bool) (x2 : Gpr) (x3 : Gpr) (s : State) : exec (.ldfe x0 x1 x2 x3) s = execLdfe x0 x1 x2 x3 s := rfl
theorem exec_ldfn (x0 : CoreErr) (x1 : Bool) (x2 : Gpr) (x3 : Gpr) (s : State) : exec (.ldfn x0 x1 x2 x3) s = execLdfn x0 x1 x2 x3 s := rfl
theorem exec_stef (x0 : CoreNo) (x1 : Bool) (x2 : Gpr) (x3 : Gpr) (x4 : Gpr) (s : State) : exec (.stef x0 x1 x2 x3 x4) s = execStef x0 x1 x2 x3 x4 s := rfl
theorem exec_finc (x0 : CoreErr) (x1 : Gpr) (x2 : Gpr) (x3 : Gpr) (s : State) : exec (.finc x0 x1 x2 x3) s = execFinc x0 x1 x2 x3 s := rfl
theorem exec_fdec (x0 : CoreErr) (x1 : Gpr) (x2 : Gpr) (x3 : Gpr) (s : State) : exec (.fdec x0 x1 x2 x3) s = execFdec x0 x1 x2 x3 s := rfl
theorem exec_fini (x0 : CoreNo) (x1 : Bool) (x2 : Gpr) (x3 : Gpr) (x4 : Gpr) (s : State) : exec (.fini x0 x1 x2 x3 x4) s = execFini x0 x1 x2 x3 x4 s := rfl
theorem exec_fsig (x0 : CoreNo) (x1 : Gpr) (x2 : Gpr) (x3 : Gpr) (s : State) : exec (.fsig x0 x1 x2 x3) s = execFsig x0 x1 x2 x3 s := rfl
theorem exec_swait (x0 : CoreNo) (x1 : Bool) (x2 : Gpr) (x3 : Gpr) (s : State) : exec (.swait x0 x1 x2 x3) s = execSwait x0 x1 x2 x3 s := rfl
theorem exec_barr (x0 : CoreNo) (x1 : Bool) (x2 : Gpr) (x3 : Gpr) (s : State) : exec (.barr x0 x1 x2 x3) s = execBarr x0 x1 x2 x3 s := rfl
theorem exec_bwait (x0 : CoreNo) (x1 : Bool) (x2 : Gpr) (x3 : Gpr) (x4 : Gpr) (s : State) : exec (.bwait x0 x1 x2 x3 x4) s = execBwait x0 x1 x2 x3 x4 s := rfl
theorem exec_fclaim (x0 : CoreNo) (x1 : Gpr) (x2 : Gpr) (x3 : Gpr) (s : State) : exec (.fclaim x0 x1 x2 x3) s = execFclaim x0 x1 x2 x3 s := rfl
theorem exec_frel (x0 : CoreNo) (x1 : Gpr) (x2 : Gpr) (s : State) : exec (.frel x0 x1 x2) s = execFrel x0 x1 x2 s := rfl
theorem exec_barrive (x0 : Fin 36) (x1 : Byte) (x2 : W64) (s : State) : exec (.barrive x0 x1 x2) s = execBarrive x0 x1 x2 s := rfl
theorem exec_syncTimeout (x0 : CoreNo) (s : State) : exec (.syncTimeout x0) s = execSyncTimeout x0 s := rfl
theorem exec_synLose (x0 : Byte) (s : State) : exec (.synLose x0) s = execSynLose x0 s := rfl
theorem exec_claimMarkDone (s : State) : exec (.claimMarkDone) s = execClaimMarkDone s := rfl
theorem exec_barArm (x0 : Fin 64) (x1 : W64) (s : State) : exec (.barArm x0 x1) s = execBarArm x0 x1 s := rfl
theorem exec_barDisarm (x0 : Fin 64) (s : State) : exec (.barDisarm x0) s = execBarDisarm x0 s := rfl
theorem exec_barStatRead (x0 : Fin 64) (s : State) : exec (.barStatRead x0) s = execBarStatRead x0 s := rfl
theorem exec_porterTransferDone (x0 : Die) (x1 : Fin 2) (x2 : Fin 8) (x3 : Bool) (x4 : Hits) (s : State) : exec (.porterTransferDone x0 x1 x2 x3 x4) s = execPorterTransferDone x0 x1 x2 x3 x4 s := rfl
theorem exec_ropPut (x0 : Met CoreNo) (x1 : Gpr) (x2 : Gpr) (x3 : Gpr) (s : State) : exec (.ropPut x0 x1 x2 x3) s = execRopPut x0 x1 x2 x3 s := rfl
theorem exec_ropGet (x0 : CoreNo) (x1 : Gpr) (x2 : Gpr) (x3 : Gpr) (s : State) : exec (.ropGet x0 x1 x2 x3) s = execRopGet x0 x1 x2 x3 s := rfl
theorem exec_ropGet3 (x0 : CoreNo) (x1 : Gpr) (x2 : Gpr) (x3 : Gpr) (s : State) : exec (.ropGet3 x0 x1 x2 x3) s = execRopGet3 x0 x1 x2 x3 s := rfl
theorem exec_ropAtomic (x0 : CoreNo) (x1 : Gpr) (x2 : Gpr) (x3 : Gpr) (s : State) : exec (.ropAtomic x0 x1 x2 x3) s = execRopAtomic x0 x1 x2 x3 s := rfl
theorem exec_ropSignal (x0 : CoreNo) (x1 : Gpr) (x2 : Gpr) (x3 : Gpr) (s : State) : exec (.ropSignal x0 x1 x2 x3) s = execRopSignal x0 x1 x2 x3 s := rfl
theorem exec_putRecv (x0 : Met Die) (s : State) : exec (.putRecv x0) s = execPutRecv x0 s := rfl
theorem exec_getRecv (x0 : Met Die) (s : State) : exec (.getRecv x0) s = execGetRecv x0 s := rfl
theorem exec_get3Recv (x0 : Met Die) (s : State) : exec (.get3Recv x0) s = execGet3Recv x0 s := rfl
theorem exec_data3Recv (x0 : Met Die) (s : State) : exec (.data3Recv x0) s = execData3Recv x0 s := rfl
theorem exec_atomicRecv (x0 : Met Die) (s : State) : exec (.atomicRecv x0) s = execAtomicRecv x0 s := rfl
theorem exec_signalRecv (x0 : Die) (s : State) : exec (.signalRecv x0) s = execSignalRecv x0 s := rfl
theorem exec_replyRecv (x0 : Met Die) (s : State) : exec (.replyRecv x0) s = execReplyRecv x0 s := rfl
theorem exec_remoteTimeout (x0 : Die) (x1 : Fin 4096) (s : State) : exec (.remoteTimeout x0 x1) s = execRemoteTimeout x0 x1 s := rfl
theorem exec_rwinDenyRead (s : State) : exec (.rwinDenyRead) s = execRwinDenyRead s := rfl
theorem exec_linkTrainDone (x0 : Fin 24) (x1 : Byte) (x2 : Byte) (s : State) : exec (.linkTrainDone x0 x1 x2) s = execLinkTrainDone x0 x1 x2 s := rfl
theorem exec_linkTrainFail (x0 : Fin 24) (s : State) : exec (.linkTrainFail x0) s = execLinkTrainFail x0 s := rfl
theorem exec_linkFecUncorr (x0 : Fin 24) (x1 : Bool) (s : State) : exec (.linkFecUncorr x0 x1) s = execLinkFecUncorr x0 x1 s := rfl
theorem exec_rsreqRecv (x0 : Fin 24) (s : State) : exec (.rsreqRecv x0) s = execRsreqRecv x0 s := rfl
theorem exec_markRecv (x0 : Fin 24) (x1 : List W16) (s : State) : exec (.markRecv x0 x1) s = execMarkRecv x0 x1 s := rfl
theorem exec_rsackRecv (x0 : Fin 24) (x1 : List W16) (s : State) : exec (.rsackRecv x0 x1) s = execRsackRecv x0 x1 s := rfl
theorem exec_crdRecv (x0 : Fin 24) (x1 : List W16) (s : State) : exec (.crdRecv x0 x1) s = execCrdRecv x0 x1 s := rfl
theorem exec_crdSend (x0 : Fin 24) (s : State) : exec (.crdSend x0) s = execCrdSend x0 s := rfl
theorem exec_linkFlitGapTimeout (x0 : Fin 24) (s : State) : exec (.linkFlitGapTimeout x0) s = execLinkFlitGapTimeout x0 s := rfl
theorem exec_linkResyncTimeout (x0 : Fin 24) (s : State) : exec (.linkResyncTimeout x0) s = execLinkResyncTimeout x0 s := rfl
theorem exec_pktRecv (x0 : Fin 24) (x1 : List W64) (s : State) : exec (.pktRecv x0 x1) s = execPktRecv x0 x1 s := rfl
theorem exec_pktForward (x0 : Die) (s : State) : exec (.pktForward x0) s = execPktForward x0 s := rfl
theorem exec_pktStaleDiscard (x0 : Die) (s : State) : exec (.pktStaleDiscard x0) s = execPktStaleDiscard x0 s := rfl
theorem exec_lnkVcallocWrite (x0 : Fin 24) (x1 : Bool) (x2 : W64) (s : State) : exec (.lnkVcallocWrite x0 x1 x2) s = execLnkVcallocWrite x0 x1 x2 s := rfl
theorem exec_lnkFence (x0 : Fin 24) (s : State) : exec (.lnkFence x0) s = execLnkFence x0 s := rfl
theorem exec_lnkReadmit (x0 : Fin 24) (s : State) : exec (.lnkReadmit x0) s = execLnkReadmit x0 s := rfl
theorem exec_lnkRetrain (x0 : Fin 24) (s : State) : exec (.lnkRetrain x0) s = execLnkRetrain x0 s := rfl
theorem exec_lnkAdmit (x0 : Fin 24) (s : State) : exec (.lnkAdmit x0) s = execLnkAdmit x0 s := rfl
theorem exec_lnkPark (x0 : Fin 24) (s : State) : exec (.lnkPark x0) s = execLnkPark x0 s := rfl
theorem exec_lnkEnWrite (x0 : Fin 24) (x1 : Bool) (s : State) : exec (.lnkEnWrite x0 x1) s = execLnkEnWrite x0 x1 s := rfl
theorem exec_lnkCounterRead (x0 : Fin 24) (x1 : Fin 3) (s : State) : exec (.lnkCounterRead x0 x1) s = execLnkCounterRead x0 x1 s := rfl
theorem exec_rteLoad (x0 : W64) (s : State) : exec (.rteLoad x0) s = execRteLoad x0 s := rfl
theorem exec_rteLoadDone (s : State) : exec (.rteLoadDone) s = execRteLoadDone s := rfl
theorem exec_rteFlip (s : State) : exec (.rteFlip) s = execRteFlip s := rfl
theorem exec_rteCfgWrite (x0 : W64) (s : State) : exec (.rteCfgWrite x0) s = execRteCfgWrite x0 s := rfl
theorem exec_rteTimersWrite (x0 : W64) (s : State) : exec (.rteTimersWrite x0) s = execRteTimersWrite x0 s := rfl
theorem exec_rteCounterRead (x0 : Fin 3) (s : State) : exec (.rteCounterRead x0) s = execRteCounterRead x0 s := rfl
theorem exec_helloRecv (x0 : Fin 24) (x1 : Hello) (s : State) : exec (.helloRecv x0 x1) s = execHelloRecv x0 x1 s := rfl
theorem exec_locRecv (x0 : Fin 24) (x1 : Loc) (s : State) : exec (.locRecv x0 x1) s = execLocRecv x0 x1 s := rfl
theorem exec_probeRecv (x0 : Fin 24) (x1 : Bool) (s : State) : exec (.probeRecv x0 x1) s = execProbeRecv x0 x1 s := rfl
theorem exec_helloSend (x0 : Fin 24) (s : State) : exec (.helloSend x0) s = execHelloSend x0 s := rfl
theorem exec_discElect (s : State) : exec (.discElect) s = execDiscElect s := rfl
theorem exec_discPeerTimeout (x0 : Fin 24) (s : State) : exec (.discPeerTimeout x0) s = execDiscPeerTimeout x0 s := rfl
theorem exec_dscExpWrite (x0 : Fin 24) (x1 : W64) (s : State) : exec (.dscExpWrite x0 x1) s = execDscExpWrite x0 x1 s := rfl
theorem exec_dscFabricWrite (x0 : W64) (s : State) : exec (.dscFabricWrite x0) s = execDscFabricWrite x0 s := rfl
theorem exec_dscIdWrite (x0 : W64) (s : State) : exec (.dscIdWrite x0) s = execDscIdWrite x0 s := rfl
theorem exec_jobAdmission (x0 : Fin 256) (s : State) : exec (.jobAdmission x0) s = execJobAdmission x0 s := rfl
theorem exec_collOpen (x0 : CoreNo) (x1 : Gpr) (x2 : Gpr) (s : State) : exec (.collOpen x0 x1 x2) s = execCollOpen x0 x1 x2 s := rfl
theorem exec_collClose (x0 : CoreNo) (x1 : Gpr) (x2 : Gpr) (s : State) : exec (.collClose x0 x1 x2) s = execCollClose x0 x1 x2 s := rfl
theorem exec_allreduce (x0 : CoreNo) (x1 : Gpr) (x2 : Gpr) (s : State) : exec (.allreduce x0 x1 x2) s = execAllreduce x0 x1 x2 s := rfl
theorem exec_reduceScatter (x0 : CoreNo) (x1 : Gpr) (x2 : Gpr) (s : State) : exec (.reduceScatter x0 x1 x2) s = execReduceScatter x0 x1 x2 s := rfl
theorem exec_allgather (x0 : CoreNo) (x1 : Gpr) (x2 : Gpr) (s : State) : exec (.allgather x0 x1 x2) s = execAllgather x0 x1 x2 s := rfl
theorem exec_broadcast (x0 : CoreNo) (x1 : Gpr) (x2 : Gpr) (s : State) : exec (.broadcast x0 x1 x2) s = execBroadcast x0 x1 x2 s := rfl
theorem exec_permute (x0 : CoreNo) (x1 : Gpr) (x2 : Gpr) (s : State) : exec (.permute x0 x1 x2) s = execPermute x0 x1 x2 s := rfl
theorem exec_alltoall (x0 : CoreNo) (x1 : Gpr) (x2 : Gpr) (s : State) : exec (.alltoall x0 x1 x2) s = execAlltoall x0 x1 x2 s := rfl
theorem exec_collStart (x0 : Met Die) (s : State) : exec (.collStart x0) s = execCollStart x0 s := rfl
theorem exec_collChunkSend (x0 : Met Die) (s : State) : exec (.collChunkSend x0) s = execCollChunkSend x0 s := rfl
theorem exec_chunkRecv (x0 : Met Die) (s : State) : exec (.chunkRecv x0) s = execChunkRecv x0 s := rfl
theorem exec_collCreditRecv (x0 : Die) (s : State) : exec (.collCreditRecv x0) s = execCollCreditRecv x0 s := rfl
theorem exec_collComplete (x0 : Die) (s : State) : exec (.collComplete x0) s = execCollComplete x0 s := rfl
theorem exec_crrFence (x0 : Die) (s : State) : exec (.crrFence x0) s = execCrrFence x0 s := rfl
theorem exec_crrSelftest (x0 : Die) (s : State) : exec (.crrSelftest x0) s = execCrrSelftest x0 s := rfl
theorem exec_crrSelftestDone (x0 : Die) (x1 : Bool) (s : State) : exec (.crrSelftestDone x0 x1) s = execCrrSelftestDone x0 x1 s := rfl
theorem exec_crrReadmit (x0 : Die) (s : State) : exec (.crrReadmit x0) s = execCrrReadmit x0 s := rfl
theorem exec_crrCntRead (x0 : Die) (s : State) : exec (.crrCntRead x0) s = execCrrCntRead x0 s := rfl
theorem exec_hostFrameRecv (x0 : Bool) (x1 : List W64) (s : State) : exec (.hostFrameRecv x0 x1) s = execHostFrameRecv x0 x1 s := rfl
theorem exec_hostReplyFrame (s : State) : exec (.hostReplyFrame) s = execHostReplyFrame s := rfl
theorem exec_submitEcho (s : State) : exec (.submitEcho) s = execSubmitEcho s := rfl
theorem exec_regDeferredResult (s : State) : exec (.regDeferredResult) s = execRegDeferredResult s := rfl
theorem exec_regOpTimeout (s : State) : exec (.regOpTimeout) s = execRegOpTimeout s := rfl
theorem exec_nop (x0 : Fin 256) (s : State) : exec (.nop x0) s = execNop x0 s := rfl
theorem exec_qwait (x0 : Fin 256) (s : State) : exec (.qwait x0) s = execQwait x0 s := rfl
theorem exec_hostCmdBadOpcode (x0 : Fin 256) (s : State) : exec (.hostCmdBadOpcode x0) s = execHostCmdBadOpcode x0 s := rfl
theorem exec_complRecordSend (s : State) : exec (.complRecordSend) s = execComplRecordSend s := rfl
theorem exec_hlFrameGapTimeout (x0 : Bool) (s : State) : exec (.hlFrameGapTimeout x0) s = execHlFrameGapTimeout x0 s := rfl
theorem exec_hlTrainDone (x0 : Bool) (x1 : Byte) (s : State) : exec (.hlTrainDone x0 x1) s = execHlTrainDone x0 x1 s := rfl
theorem exec_hlRetrainTick (s : State) : exec (.hlRetrainTick) s = execHlRetrainTick s := rfl
theorem exec_hlkSwap (s : State) : exec (.hlkSwap) s = execHlkSwap s := rfl
theorem exec_hlkRetrain (x0 : Bool) (s : State) : exec (.hlkRetrain x0) s = execHlkRetrain x0 s := rfl
theorem exec_hlkFence (x0 : Bool) (s : State) : exec (.hlkFence x0) s = execHlkFence x0 s := rfl
theorem exec_hlkCntRead (s : State) : exec (.hlkCntRead) s = execHlkCntRead s := rfl
theorem exec_sqCfgWrite (x0 : Fin 256) (x1 : W64) (s : State) : exec (.sqCfgWrite x0 x1) s = execSqCfgWrite x0 x1 s := rfl
theorem exec_wmarkWrite (s : State) : exec (.wmarkWrite) s = execWmarkWrite s := rfl
theorem exec_errInject (x0 : BitVec 14) (x1 : W64) (s : State) : exec (.errInject x0 x1) s = execErrInject x0 x1 s := rfl
theorem exec_evtSelWrite (x0 : BitVec 14) (x1 : W64) (s : State) : exec (.evtSelWrite x0 x1) s = execEvtSelWrite x0 x1 s := rfl
theorem exec_evtSelRead (x0 : BitVec 14) (s : State) : exec (.evtSelRead x0) s = execEvtSelRead x0 s := rfl
theorem exec_watchdogExpire (x0 : WdUnit) (s : State) : exec (.watchdogExpire x0) s = execWatchdogExpire x0 s := rfl
theorem exec_hangTrialDone (x0 : WdUnit) (x1 : Bool) (s : State) : exec (.hangTrialDone x0 x1) s = execHangTrialDone x0 x1 s := rfl
theorem exec_taintBackstop (s : State) : exec (.taintBackstop) s = execTaintBackstop s := rfl
theorem exec_contextAbort (x0 : Fin 256) (s : State) : exec (.contextAbort x0) s = execContextAbort x0 s := rfl
theorem exec_rcvAbort (x0 : Byte) (x1 : Bool) (s : State) : exec (.rcvAbort x0 x1) s = execRcvAbort x0 x1 s := rfl
theorem exec_abortWedgeCheck (x0 : List (WdUnit × Bool)) (s : State) : exec (.abortWedgeCheck x0) s = execAbortWedgeCheck x0 s := rfl
theorem exec_abortComplete (s : State) : exec (.abortComplete) s = execAbortComplete s := rfl
theorem exec_abortRelayResend (s : State) : exec (.abortRelayResend) s = execAbortRelayResend s := rfl
theorem exec_relayRecv (x0 : Fin 24) (x1 : List W64) (s : State) : exec (.relayRecv x0 x1) s = execRelayRecv x0 x1 s := rfl
theorem exec_resetEngine (x0 : WdUnit) (s : State) : exec (.resetEngine x0) s = execResetEngine x0 s := rfl
theorem exec_resetCluster (x0 : ClusterNo) (s : State) : exec (.resetCluster x0) s = execResetCluster x0 s := rfl
theorem exec_resetDieFunction (x0 : Die) (x1 : TrainIn) (s : State) : exec (.resetDieFunction x0 x1) s = execResetDieFunction x0 x1 s := rfl
theorem exec_resetWarm (x0 : TrainIn) (s : State) : exec (.resetWarm x0) s = execResetWarm x0 s := rfl
theorem exec_resetCold (x0 : TrainIn) (s : State) : exec (.resetCold x0) s = execResetCold x0 s := rfl
theorem exec_dieFence (x0 : Die) (s : State) : exec (.dieFence x0) s = execDieFence x0 s := rfl
theorem exec_resetDone (x0 : ResetTarget) (x1 : Bool) (s : State) : exec (.resetDone x0 x1) s = execResetDone x0 x1 s := rfl
theorem exec_resetFail (x0 : ResetTarget) (s : State) : exec (.resetFail x0) s = execResetFail x0 s := rfl
theorem exec_recoveryDone (s : State) : exec (.recoveryDone) s = execRecoveryDone s := rfl
theorem exec_rcvOosack (x0 : W32) (s : State) : exec (.rcvOosack x0) s = execRcvOosack x0 s := rfl
theorem exec_rcvJobidWrite (x0 : W64) (s : State) : exec (.rcvJobidWrite x0) s = execRcvJobidWrite x0 s := rfl
theorem exec_rcvWdlimWrite (x0 : Bool) (x1 : W64) (x2 : List (WdUnit × Nat)) (s : State) : exec (.rcvWdlimWrite x0 x1 x2) s = execRcvWdlimWrite x0 x1 x2 s := rfl
theorem exec_rcvAbstatRead (s : State) : exec (.rcvAbstatRead) s = execRcvAbstatRead s := rfl
theorem exec_dumpRead (s : State) : exec (.dumpRead) s = execDumpRead s := rfl
theorem exec_evlLostRead (x0 : Die) (s : State) : exec (.evlLostRead x0) s = execEvlLostRead x0 s := rfl
theorem exec_lseal (x0 : ClusterNo) (x1 : Gpr) (x2 : Gpr) (x3 : Gpr) (s : State) : exec (.lseal x0 x1 x2 x3) s = execLseal x0 x1 x2 x3 s := rfl
theorem exec_sealDone (s : State) : exec (.sealDone) s = execSealDone s := rfl
theorem exec_gstepWrite (x0 : ClusterNo) (x1 : Gpr) (s : State) : exec (.gstepWrite x0 x1) s = execGstepWrite x0 x1 s := rfl
theorem exec_ldgGeomWrite (x0 : W64) (s : State) : exec (.ldgGeomWrite x0) s = execLdgGeomWrite x0 s := rfl
theorem exec_ckmarkStart (s : State) : exec (.ckmarkStart) s = execCkmarkStart s := rfl
theorem exec_ckmarkEnd (s : State) : exec (.ckmarkEnd) s = execCkmarkEnd s := rfl
theorem exec_ckmarkEmpty (s : State) : exec (.ckmarkEmpty) s = execCkmarkEmpty s := rfl
theorem exec_ldgCkWrite (x0 : Bool) (x1 : W64) (s : State) : exec (.ldgCkWrite x0 x1) s = execLdgCkWrite x0 x1 s := rfl
theorem exec_ckRecompute (x0 : Byte) (s : State) : exec (.ckRecompute x0) s = execCkRecompute x0 s := rfl
theorem exec_sstRecordWrite (s : State) : exec (.sstRecordWrite) s = execSstRecordWrite s := rfl
theorem exec_sstBankErase (s : State) : exec (.sstBankErase) s = execSstBankErase s := rfl
theorem exec_sstCompact (s : State) : exec (.sstCompact) s = execSstCompact s := rfl
theorem exec_sstRselWrite (x0 : W64) (s : State) : exec (.sstRselWrite x0) s = execSstRselWrite x0 s := rfl
theorem exec_sstRdataRead (s : State) : exec (.sstRdataRead) s = execSstRdataRead s := rfl
theorem exec_pwrTick (x0 : List Nat) (s : State) : exec (.pwrTick x0) s = execPwrTick x0 s := rfl
theorem exec_tjcapStep (x0 : Bool) (x1 : Die) (x2 : Fin 35) (x3 : W16) (s : State) : exec (.tjcapStep x0 x1 x2 x3) s = execTjcapStep x0 x1 x2 x3 s := rfl
theorem exec_bmBmlimWrite (x0 : W16) (s : State) : exec (.bmBmlimWrite x0) s = execBmBmlimWrite x0 s := rfl
theorem exec_pwrCaplogRead (s : State) : exec (.pwrCaplogRead) s = execPwrCaplogRead s := rfl
theorem exec_droopWarnAssert (x0 : Die) (x1 : Fin 35) (x2 : W16) (s : State) : exec (.droopWarnAssert x0 x1 x2) s = execDroopWarnAssert x0 x1 x2 s := rfl
theorem exec_droopWarnEnd (x0 : Die) (x1 : Fin 35) (x2 : W16) (s : State) : exec (.droopWarnEnd x0 x1 x2) s = execDroopWarnEnd x0 x1 x2 s := rfl
theorem exec_droopReset (x0 : Die) (x1 : Fin 35) (s : State) : exec (.droopReset x0 x1) s = execDroopReset x0 x1 s := rfl
theorem exec_drpCntRead (x0 : Die) (s : State) : exec (.drpCntRead x0) s = execDrpCntRead x0 s := rfl
theorem exec_bmShutdown (x0 : W16) (s : State) : exec (.bmShutdown x0) s = execBmShutdown x0 s := rfl
theorem exec_bmShutdownDone (s : State) : exec (.bmShutdownDone) s = execBmShutdownDone s := rfl
theorem exec_bootLoadBegin (s : State) : exec (.bootLoadBegin) s = execBootLoadBegin s := rfl
theorem exec_bootLoaddata (x0 : W64) (s : State) : exec (.bootLoaddata x0) s = execBootLoaddata x0 s := rfl
theorem exec_bootLoadEnd (s : State) : exec (.bootLoadEnd) s = execBootLoadEnd s := rfl
theorem exec_imageVerifyDone (s : State) : exec (.imageVerifyDone) s = execImageVerifyDone s := rfl
theorem exec_fuseRaiseSvn (x0 : Byte) (s : State) : exec (.fuseRaiseSvn x0) s = execFuseRaiseSvn x0 s := rfl
theorem exec_fuseRevoke (x0 : Byte) (s : State) : exec (.fuseRevoke x0) s = execFuseRevoke x0 s := rfl
theorem exec_fuseBurnDone (x0 : Bool) (s : State) : exec (.fuseBurnDone x0) s = execFuseBurnDone x0 s := rfl
theorem exec_idtreeDone (s : State) : exec (.idtreeDone) s = execIdtreeDone s := rfl
theorem exec_attestGo (s : State) : exec (.attestGo) s = execAttestGo s := rfl
theorem exec_attestDone (s : State) : exec (.attestDone) s = execAttestDone s := rfl
theorem exec_secRselWrite (s : State) : exec (.secRselWrite) s = execSecRselWrite s := rfl
theorem exec_secRdataRead (s : State) : exec (.secRdataRead) s = execSecRdataRead s := rfl
theorem exec_testEnter (x0 : Die) (x1 : BitVec 4) (s : State) : exec (.testEnter x0 x1) s = execTestEnter x0 x1 s := rfl
theorem exec_tstTokenWrite (x0 : W64) (s : State) : exec (.tstTokenWrite x0) s = execTstTokenWrite x0 s := rfl
theorem exec_testDone (x0 : Die) (x1 : BitVec 35) (x2 : W32) (s : State) : exec (.testDone x0 x1 x2) s = execTestDone x0 x1 x2 s := rfl
theorem exec_jtagTapReset (x0 : Die) (s : State) : exec (.jtagTapReset x0) s = execJtagTapReset x0 s := rfl
theorem exec_extest (x0 : Die) (s : State) : exec (.extest x0) s = execExtest x0 s := rfl
theorem exec_samplePreload (x0 : Die) (s : State) : exec (.samplePreload x0) s = execSamplePreload x0 s := rfl
theorem exec_idcode (x0 : Die) (s : State) : exec (.idcode x0) s = execIdcode x0 s := rfl
theorem exec_clamp (x0 : Die) (s : State) : exec (.clamp x0) s = execClamp x0 s := rfl
theorem exec_highz (x0 : Die) (s : State) : exec (.highz x0) s = execHighz x0 s := rfl
theorem exec_extestPulse (x0 : Die) (s : State) : exec (.extestPulse x0) s = execExtestPulse x0 s := rfl
theorem exec_extestTrain (x0 : Die) (s : State) : exec (.extestTrain x0) s = execExtestTrain x0 s := rfl
theorem exec_tsttoken (x0 : Die) (x1 : List Byte) (s : State) : exec (.tsttoken x0 x1) s = execTsttoken x0 x1 s := rfl
theorem exec_tstacc (x0 : Die) (x1 : BitVec 2) (x2 : BitVec 26) (x3 : W64) (s : State) : exec (.tstacc x0 x1 x2 x3) s = execTstacc x0 x1 x2 x3 s := rfl
theorem exec_bypass (x0 : Die) (x1 : Byte) (s : State) : exec (.bypass x0 x1) s = execBypass x0 x1 s := rfl
theorem exec_hlTrainFail (x0 : Bool) (x1 : Bool) (s : State) : exec (.hlTrainFail x0 x1) s = execHlTrainFail x0 x1 s := rfl
theorem exec_phaseReady (s : State) : exec (.phaseReady) s = execPhaseReady s := rfl
theorem exec_vcmdDone (s : State) : exec (.vcmdDone) s = execVcmdDone s := rfl
theorem exec_downWindowExpire (x0 : Option (Fin 24)) (s : State) : exec (.downWindowExpire x0) s = execDownWindowExpire x0 s := rfl

theorem touched_regWrite (x0 : BitVec 26) (x1 : BitVec 2) (x2 : W64) : touched (.regWrite x0 x1 x2) = Part.most := rfl
theorem touched_powerUp (x0 : PowerUpIn) : touched (.powerUp x0) = Part.most := rfl
theorem touched_powerLoss : touched (.powerLoss) = Part.most := rfl
theorem touched_coldReset (x0 : TrainIn) : touched (.coldReset x0) = Part.most := rfl
theorem touched_bridgeFlitReplay (x0 : Fin 4) (x1 : Nat) : touched (.bridgeFlitReplay x0 x1) = [.plat] := rfl
theorem touched_bridgeDown (x0 : Fin 4) : touched (.bridgeDown x0) = [.regs, .errCtx, .events, .plat, .sst, .sync] := rfl
theorem touched_refclkLost (x0 : Die) : touched (.refclkLost x0) = [.regs, .errCtx, .events, .plat, .sst, .sync, .net, .host] := rfl
theorem touched_refclkReturn (x0 : Die) : touched (.refclkReturn x0) = [.regs, .plat, .net] := rfl
theorem touched_thermtrip (x0 : Sensor) (x1 : W16) : touched (.thermtrip x0 x1) = [.regs, .errCtx, .events, .plat, .sst, .sync] := rfl
theorem touched_islStretchRead (x0 : Die) (x1 : Fin 35) : touched (.islStretchRead x0 x1) = [.rdData, .regs, .plat] := rfl
theorem touched_tissue (x0 : ClusterNo) (x1 : Gpr) (x2 : Gpr) (x3 : Gpr) : touched (.tissue x0 x1 x2 x3) = [.cores, .clusters] := rfl
theorem touched_tpair (x0 : ClusterNo) (x1 : Gpr) (x2 : Gpr) (x3 : Gpr) : touched (.tpair x0 x1 x2 x3) = [.cores, .clusters] := rfl
theorem touched_tileExecute (x0 : Met ClusterNo) (x1 : Fin 4) (x2 : List CellFault) : touched (.tileExecute x0 x1 x2) = Part.most := rfl
theorem touched_tileCheckDone (x0 : MxeNo) : touched (.tileCheckDone x0) = Part.most := rfl
theorem touched_tileRerun (x0 : Met MxeNo) (x1 : List CellFault) : touched (.tileRerun x0 x1) = Part.most := rfl
theorem touched_tileDrainStart (x0 : MxeNo) : touched (.tileDrainStart x0) = [.regs, .mxes] := rfl
theorem touched_tileDrainEnd (x0 : MxeNo) : touched (.tileDrainEnd x0) = Part.most := rfl
theorem touched_issueCapWindow (x0 : MxeNo) : touched (.issueCapWindow x0) = [.regs] := rfl
theorem touched_strikeWindowExpire (x0 : MxeNo) : touched (.strikeWindowExpire x0) = [.regs] := rfl
theorem touched_mxeFence (x0 : MxeNo) : touched (.mxeFence x0) = [.regs, .errCtx, .events, .sst, .clusters, .mxes, .sync] := rfl
theorem touched_mxeSelftest (x0 : MxeNo) : touched (.mxeSelftest x0) = [.regs, .errCtx] := rfl
theorem touched_mxeSelftestDone (x0 : MxeNo) (x1 : Bool) : touched (.mxeSelftestDone x0 x1) = [.regs] := rfl
theorem touched_mxeReadmit (x0 : MxeNo) : touched (.mxeReadmit x0) = [.regs, .errCtx, .sst, .sync] := rfl
theorem touched_mxeChkRead (x0 : MxeNo) : touched (.mxeChkRead x0) = [.rdData, .regs] := rfl
theorem touched_mxePerfRead (x0 : MxeNo) : touched (.mxePerfRead x0) = [.rdData, .regs, .work] := rfl
theorem touched_cissue (x0 : ClusterNo) (x1 : Gpr) (x2 : Gpr) (x3 : Gpr) : touched (.cissue x0 x1 x2 x3) = [.cores, .clusters, .sync] := rfl
theorem touched_chainStart (x0 : Met VxeNo) : touched (.chainStart x0) = Part.most := rfl
theorem touched_chainEntryClaim (x0 : VxeNo) : touched (.chainEntryClaim x0) = Part.most := rfl
theorem touched_chainComplete (x0 : Met VxeNo) (x1 : Bool) : touched (.chainComplete x0 x1) = Part.most := rfl
theorem touched_vxeFence (x0 : VxeNo) : touched (.vxeFence x0) = [.regs, .errCtx, .events, .sst, .clusters, .vxes, .sync] := rfl
theorem touched_vxeSelftest (x0 : VxeNo) : touched (.vxeSelftest x0) = [.regs, .errCtx] := rfl
theorem touched_vxeSelftestDone (x0 : VxeNo) (x1 : Bool) : touched (.vxeSelftestDone x0 x1) = [.regs] := rfl
theorem touched_vxeReadmit (x0 : VxeNo) : touched (.vxeReadmit x0) = [.regs, .errCtx, .sst, .sync] := rfl
theorem touched_vxePerfRead (x0 : VxeNo) : touched (.vxePerfRead x0) = [.rdData, .regs, .work] := rfl
theorem touched_cpop (x0 : ClusterNo) (x1 : Gpr) : touched (.cpop x0 x1) = [.regs, .errCtx, .cores, .clusters, .sync] := rfl
theorem touched_cpeek (x0 : ClusterNo) (x1 : Gpr) : touched (.cpeek x0 x1) = [.regs, .errCtx, .cores, .clusters] := rfl
theorem touched_smovS (x0 : ClusterNo) (x1 : Fin 64) (x2 : Gpr) : touched (.smovS x0 x1 x2) = [.cores, .clusters, .sync] := rfl
theorem touched_smovG (x0 : ClusterNo) (x1 : Gpr) (x2 : Fin 64) : touched (.smovG x0 x1 x2) = [.cores, .clusters, .sync] := rfl
theorem touched_bs (x0 : ClusterNo) (x1 : Cond) (x2 : Bool) (x3 : Fin 64) (x4 : Fin 64) (x5 : BitVec 9) : touched (.bs x0 x1 x2 x3 x4 x5) = [.cores, .clusters, .sync] := rfl
theorem touched_ringRecordRelease (x0 : ClusterNo) : touched (.ringRecordRelease x0) = [.cores, .clusters, .sync, .rcv] := rfl
theorem touched_gather (x0 : ClusterNo) (x1 : Fin 6) (x2 : Gpr) (x3 : Gpr) : touched (.gather x0 x1 x2 x3) = [.cores, .clusters] := rfl
theorem touched_scatter (x0 : ClusterNo) (x1 : Fin 6) (x2 : Gpr) (x3 : Gpr) : touched (.scatter x0 x1 x2 x3) = [.cores, .clusters] := rfl
theorem touched_gatherComplete (x0 : Met ClusterNo) : touched (.gatherComplete x0) = Part.most := rfl
theorem touched_intAlu (x0 : Issued) (x1 : AluFn) (x2 : Gpr) (x3 : Gpr) (x4 : AluSrc) : touched (.intAlu x0 x1 x2 x3 x4) = [.free, .regs, .errCtx, .cores] := rfl
theorem touched_load (x0 : Issued) (x1 : Space) (x2 : Fin 4) (x3 : Gpr) (x4 : Gpr) (x5 : BitVec 15) (x6 : ArrayErr) : touched (.load x0 x1 x2 x3 x4 x5 x6) = Part.most := rfl
theorem touched_store (x0 : Issued) (x1 : Space) (x2 : Fin 4) (x3 : Gpr) (x4 : Gpr) (x5 : BitVec 15) (x6 : ArrayErr) : touched (.store x0 x1 x2 x3 x4 x5 x6) = Part.most := rfl
theorem touched_compareBranch (x0 : Issued) (x1 : Cond) (x2 : Gpr) (x3 : Gpr) (x4 : BitVec 15) : touched (.compareBranch x0 x1 x2 x3 x4) = [.free, .regs, .errCtx, .cores] := rfl
theorem touched_jumpAndLink (x0 : Issued) (x1 : Gpr) (x2 : Gpr) (x3 : BitVec 15) : touched (.jumpAndLink x0 x1 x2 x3) = [.regs, .errCtx, .cores] := rfl
theorem touched_fpOp (x0 : CoreNo) (x1 : FpFn) (x2 : Bool) (x3 : Gpr) (x4 : Gpr) (x5 : Gpr) : touched (.fpOp x0 x1 x2 x3 x4 x5) = [.regs, .errCtx, .cores] := rfl
theorem touched_systemOp (x0 : Issued) (x1 : SysFn) : touched (.systemOp x0 x1) = [.free, .regs, .errCtx, .events, .sst, .cores, .bins, .hstOp, .mem, .sync, .pwr] := rfl
theorem touched_cluCtxWrite (x0 : ClusterNo) (x1 : W64) : touched (.cluCtxWrite x0 x1) = [.free, .regs, .errCtx, .events, .sst, .cores, .sync, .pwr] := rfl
theorem touched_coreRun (x0 : ClusterNo) (x1 : Fin 7) : touched (.coreRun x0 x1) = [.regs, .cores] := rfl
theorem touched_coreStop (x0 : ClusterNo) (x1 : Fin 7) : touched (.coreStop x0 x1) = [.free, .regs, .errCtx, .events, .sst, .cores, .sync, .pwr] := rfl
theorem touched_hstSnapshot (x0 : Die) (x1 : Byte) (x2 : BitVec 42) : touched (.hstSnapshot x0 x1 x2) = [.regs, .errCtx, .bins, .hstOp, .mem] := rfl
theorem touched_hstSnapshotClear (x0 : Die) (x1 : Byte) (x2 : BitVec 42) : touched (.hstSnapshotClear x0 x1 x2) = [.regs, .errCtx, .bins, .hstOp, .mem] := rfl
theorem touched_hstLoad (x0 : Die) (x1 : Byte) (x2 : BitVec 42) : touched (.hstLoad x0 x1 x2) = [.regs, .errCtx, .bins, .hstOp, .mem] := rfl
theorem touched_hstOpDone (x0 : Die) : touched (.hstOpDone x0) = [.regs, .hstOp] := rfl
theorem touched_hsnapWrite (x0 : ClusterNo) (x1 : Fin 6) (x2 : W64) : touched (.hsnapWrite x0 x1 x2) = [.regs, .errCtx, .cores, .bins, .hstOp, .mem] := rfl
theorem touched_hstOwnWrite (x0 : Die) (x1 : Byte) (x2 : W64) : touched (.hstOwnWrite x0 x1 x2) = [.regs, .bins] := rfl
theorem touched_ctrClear (x0 : Die) : touched (.ctrClear x0) = [.regs] := rfl
theorem touched_ctrAdd (x0 : Die) (x1 : W64) : touched (.ctrAdd x0 x1) = [.regs, .errCtx] := rfl
theorem touched_ctrEvtRead (x0 : Die) (x1 : Fin 48) : touched (.ctrEvtRead x0 x1) = [.rdData, .regs] := rfl
theorem touched_mapRgnValidate (x0 : Fin 64) (x1 : W64) : touched (.mapRgnValidate x0 x1) = [.regs, .errCtx, .mem, .ms] := rfl
theorem touched_mapRgnClose (x0 : Fin 64) : touched (.mapRgnClose x0) = [.regs, .errCtx, .mem, .ms] := rfl
theorem touched_mapQuiesceDone : touched (.mapQuiesceDone) = [.regs] := rfl
theorem touched_tollRefill (x0 : Die) : touched (.tollRefill x0) = [.regs, .ms] := rfl
theorem touched_tollBktWrite (x0 : Die) (x1 : Fin 64) (x2 : W64) : touched (.tollBktWrite x0 x1 x2) = [.regs, .ms] := rfl
theorem touched_tollHeldRead (x0 : Die) (x1 : Fin 64) : touched (.tollHeldRead x0 x1) = [.rdData, .regs, .ms] := rfl
theorem touched_stackTempReport (x0 : Fin 20) (x1 : W16) : touched (.stackTempReport x0 x1) = [.regs, .errCtx, .events, .plat, .sst, .ms, .sync] := rfl
theorem touched_throttleFallStep (x0 : Fin 20) : touched (.throttleFallStep x0) = [.regs, .ms] := rfl
theorem touched_msTempLost (x0 : Fin 20) : touched (.msTempLost x0) = [.regs, .errCtx, .events, .sst, .ms, .sync] := rfl
theorem touched_lpTempReport (x0 : Fin 32) (x1 : W16) : touched (.lpTempReport x0 x1) = [.regs, .errCtx, .events, .sst, .ms, .sync] := rfl
theorem touched_scrubPass (x0 : MemCtl) (x1 : ScrubErrs) : touched (.scrubPass x0 x1) = [.regs, .errCtx, .events, .sst, .mem, .sync, .host] := rfl
theorem touched_mscFenceWrite (x0 : Fin 20) (x1 : W32) : touched (.mscFenceWrite x0 x1) = [.regs, .errCtx, .events, .sst, .sync, .host] := rfl
theorem touched_lpcFenceWrite (x0 : Fin 16) (x1 : BitVec 2) : touched (.lpcFenceWrite x0 x1) = [.regs, .errCtx, .events, .sst, .sync] := rfl
theorem touched_mscEccRead (x0 : MemCtl) : touched (.mscEccRead x0) = [.rdData, .regs] := rfl
theorem touched_updateStart : touched (.updateStart) = Part.most := rfl
theorem touched_uuChunkRun (x0 : Met (Fin 36)) (x1 : Bool) : touched (.uuChunkRun x0 x1) = Part.most := rfl
theorem touched_journalMirrorAck (x0 : Fin 36) : touched (.journalMirrorAck x0) = Part.most := rfl
theorem touched_uuSegmentPass (x0 : Met (Fin 36)) : touched (.uuSegmentPass x0) = Part.most := rfl
theorem touched_updateCommit : touched (.updateCommit) = Part.most := rfl
theorem touched_uld (x0 : Fin 36) (x1 : Gpr) (x2 : Fin 32) : touched (.uld x0 x1 x2) = [.rdData, .uus] := rfl
theorem touched_ust (x0 : Fin 36) (x1 : Fin 32) (x2 : Gpr) : touched (.ust x0 x1 x2) = [.rdData, .uus] := rfl
theorem touched_ukset (x0 : Fin 36) (x1 : Fin 16) (x2 : Gpr) : touched (.ukset x0 x1 x2) = [.cores, .upd, .uus] := rfl
theorem touched_uadd (x0 : Fin 36) (x1 : Bool) (x2 : Gpr) (x3 : Gpr) (x4 : Gpr) : touched (.uadd x0 x1 x2 x3 x4) = [.rdData, .uus] := rfl
theorem touched_usub (x0 : Fin 36) (x1 : Bool) (x2 : Gpr) (x3 : Gpr) (x4 : Gpr) : touched (.usub x0 x1 x2 x3 x4) = [.rdData, .uus] := rfl
theorem touched_umul (x0 : Fin 36) (x1 : Bool) (x2 : Gpr) (x3 : Gpr) (x4 : Gpr) : touched (.umul x0 x1 x2 x3 x4) = [.rdData, .uus] := rfl
theorem touched_udiv (x0 : Fin 36) (x1 : Bool) (x2 : Gpr) (x3 : Gpr) (x4 : Gpr) : touched (.udiv x0 x1 x2 x3 x4) = [.rdData, .uus] := rfl
theorem touched_ufma (x0 : Fin 36) (x1 : Bool) (x2 : Gpr) (x3 : Gpr) (x4 : Gpr) : touched (.ufma x0 x1 x2 x3 x4) = [.rdData, .uus] := rfl
theorem touched_usqrt (x0 : Fin 36) (x1 : Bool) (x2 : Gpr) (x3 : Gpr) : touched (.usqrt x0 x1 x2 x3) = [.rdData, .uus] := rfl
theorem touched_umax (x0 : Fin 36) (x1 : Bool) (x2 : Gpr) (x3 : Gpr) (x4 : Gpr) : touched (.umax x0 x1 x2 x3 x4) = [.rdData, .uus] := rfl
theorem touched_umin (x0 : Fin 36) (x1 : Bool) (x2 : Gpr) (x3 : Gpr) (x4 : Gpr) : touched (.umin x0 x1 x2 x3 x4) = [.rdData, .uus] := rfl
theorem touched_uabs (x0 : Fin 36) (x1 : Bool) (x2 : Gpr) (x3 : Gpr) : touched (.uabs x0 x1 x2 x3) = [.rdData, .uus] := rfl
theorem touched_uneg (x0 : Fin 36) (x1 : Bool) (x2 : Gpr) (x3 : Gpr) : touched (.uneg x0 x1 x2 x3) = [.rdData, .uus] := rfl
theorem touched_usgn (x0 : Fin 36) (x1 : Bool) (x2 : Gpr) (x3 : Gpr) : touched (.usgn x0 x1 x2 x3) = [.rdData, .uus] := rfl
theorem touched_ucvt (x0 : Fin 36) (x1 : Bool) (x2 : Gpr) (x3 : Gpr) : touched (.ucvt x0 x1 x2 x3) = [.rdData, .uus] := rfl
theorem touched_uwadd (x0 : Fin 36) (x1 : Gpr) (x2 : Gpr) (x3 : Gpr) : touched (.uwadd x0 x1 x2 x3) = [.rdData, .uus] := rfl
theorem touched_uloop (x0 : Fin 36) : touched (.uloop x0) = [.rdData, .regs, .cores, .scratch, .mem, .ms, .upd, .uus] := rfl
theorem touched_uend (x0 : Fin 36) : touched (.uend x0) = Part.most := rfl
theorem touched_uuFence (x0 : Fin 36) : touched (.uuFence x0) = Part.most := rfl
theorem touched_uuSelftest (x0 : Fin 36) : touched (.uuSelftest x0) = [.regs, .errCtx] := rfl
theorem touched_uuSelftestDone (x0 : Fin 36) (x1 : Bool) : touched (.uuSelftestDone x0 x1) = [.regs] := rfl
theorem touched_uuReadmit (x0 : Fin 36) : touched (.uuReadmit x0) = [.regs, .errCtx, .sst, .sync] := rfl
theorem touched_uuPerfRead (x0 : Fin 36) : touched (.uuPerfRead x0) = [.rdData, .regs] := rfl
theorem touched_updPerfRead (x0 : Die) : touched (.updPerfRead x0) = [.rdData, .regs] := rfl
theorem touched_qpush (x0 : ClusterNo) (x1 : Bool) (x2 : Gpr) (x3 : Gpr) (x4 : Gpr) : touched (.qpush x0 x1 x2 x3 x4) = [.free, .regs, .errCtx, .cores, .scratch, .ms, .stg, .sync, .net] := rfl
theorem touched_qpop (x0 : ClusterNo) (x1 : Bool) (x2 : Gpr) (x3 : Gpr) (x4 : Gpr) : touched (.qpop x0 x1 x2 x3 x4) = [.free, .regs, .errCtx, .cores, .scratch, .ms, .stg, .sync, .net] := rfl
theorem touched_qdone (x0 : ClusterNo) (x1 : Gpr) (x2 : Gpr) : touched (.qdone x0 x1 x2) = [.regs, .cores, .stg] := rfl
theorem touched_vacq (x0 : ClusterNo) (x1 : Gpr) (x2 : Gpr) (x3 : Gpr) : touched (.vacq x0 x1 x2 x3) = [.regs, .errCtx, .cores, .scratch, .mem] := rfl
theorem touched_vrel (x0 : ClusterNo) (x1 : Gpr) (x2 : Gpr) (x3 : Gpr) : touched (.vrel x0 x1 x2 x3) = [.regs, .errCtx, .cores, .mem] := rfl
theorem touched_fbeg (x0 : ClusterNo) (x1 : Gpr) (x2 : Gpr) : touched (.fbeg x0 x1 x2) = [.cores, .stg] := rfl
theorem touched_fend (x0 : ClusterNo) (x1 : Gpr) (x2 : Gpr) : touched (.fend x0 x1 x2) = [.cores, .stg] := rfl
theorem touched_taint (x0 : ClusterNo) (x1 : Gpr) (x2 : Gpr) (x3 : Gpr) : touched (.taint x0 x1 x2 x3) = Part.most := rfl
theorem touched_slCopyDone (x0 : Met Byte) (x1 : W32) : touched (.slCopyDone x0 x1) = Part.most := rfl
theorem touched_slOpenRecv (x0 : SlOpen) : touched (.slOpenRecv x0) = [.regs, .stg, .net] := rfl
theorem touched_slAcceptRecv (x0 : Byte) : touched (.slAcceptRecv x0) = [.regs, .stg] := rfl
theorem touched_slRefuseRecv (x0 : Byte) : touched (.slRefuseRecv x0) = [.regs, .errCtx] := rfl
theorem touched_slDescRecv (x0 : SlDesc) : touched (.slDescRecv x0) = Part.most := rfl
theorem touched_slAckRecv (x0 : Byte) (x1 : W32) (x2 : W32) : touched (.slAckRecv x0 x1 x2) = Part.most := rfl
theorem touched_slConsumedSend (x0 : Byte) : touched (.slConsumedSend x0) = [.stg] := rfl
theorem touched_slCreditRecv (x0 : Byte) (x1 : W32) : touched (.slCreditRecv x0 x1) = [.free, .regs, .errCtx, .cores, .scratch, .ms, .stg, .sync, .net] := rfl
theorem touched_slResend (x0 : Byte) : touched (.slResend x0) = Part.most := rfl
theorem touched_slTaintRecv (x0 : Byte) (x1 : TaintId) : touched (.slTaintRecv x0 x1) = Part.most := rfl
theorem touched_slqIncfgWrite (x0 : Die) (x1 : Fin 64) (x2 : W64) : touched (.slqIncfgWrite x0 x1 x2) = [.free, .regs, .errCtx, .cores, .scratch, .ms, .stg, .sync, .net] := rfl
theorem touched_slqOutcfgWrite (x0 : Die) (x1 : Fin 64) (x2 : W64) : touched (.slqOutcfgWrite x0 x1 x2) = [.free, .regs, .errCtx, .cores, .scratch, .ms, .stg, .sync, .net] := rfl
theorem touched_stgStageWrite (x0 : Fin 16) (x1 : W64) : touched (.stgStageWrite x0 x1) = [.free, .regs, .errCtx, .cores, .scratch, .ms, .stg, .sync, .net] := rfl
theorem touched_vcmdActivate (x0 : W16) : touched (.vcmdActivate x0) = [.regs, .errCtx, .stg] := rfl
theorem touched_vcmdRetire (x0 : W16) : touched (.vcmdRetire x0) = [.regs, .errCtx, .stg] := rfl
theorem touched_stgTclr (x0 : Byte) : touched (.stgTclr x0) = [.stg] := rfl
theorem touched_ldfe (x0 : CoreErr) (x1 : Bool) (x2 : Gpr) (x3 : Gpr) : touched (.ldfe x0 x1 x2 x3) = Part.most := rfl
theorem touched_ldfn (x0 : CoreErr) (x1 : Bool) (x2 : Gpr) (x3 : Gpr) : touched (.ldfn x0 x1 x2 x3) = Part.most := rfl
theorem touched_stef (x0 : CoreNo) (x1 : Bool) (x2 : Gpr) (x3 : Gpr) (x4 : Gpr) : touched (.stef x0 x1 x2 x3 x4) = Part.most := rfl
theorem touched_finc (x0 : CoreErr) (x1 : Gpr) (x2 : Gpr) (x3 : Gpr) : touched (.finc x0 x1 x2 x3) = Part.most := rfl
theorem touched_fdec (x0 : CoreErr) (x1 : Gpr) (x2 : Gpr) (x3 : Gpr) : touched (.fdec x0 x1 x2 x3) = Part.most := rfl
theorem touched_fini (x0 : CoreNo) (x1 : Bool) (x2 : Gpr) (x3 : Gpr) (x4 : Gpr) : touched (.fini x0 x1 x2 x3 x4) = Part.most := rfl
theorem touched_fsig (x0 : CoreNo) (x1 : Gpr) (x2 : Gpr) (x3 : Gpr) : touched (.fsig x0 x1 x2 x3) = [.regs, .errCtx, .cores, .sync] := rfl
theorem touched_swait (x0 : CoreNo) (x1 : Bool) (x2 : Gpr) (x3 : Gpr) : touched (.swait x0 x1 x2 x3) = [.free, .regs, .errCtx, .cores, .sync] := rfl
theorem touched_barr (x0 : CoreNo) (x1 : Bool) (x2 : Gpr) (x3 : Gpr) : touched (.barr x0 x1 x2 x3) = [.free, .regs, .errCtx, .events, .sst, .cores, .sync, .pwr] := rfl
theorem touched_bwait (x0 : CoreNo) (x1 : Bool) (x2 : Gpr) (x3 : Gpr) (x4 : Gpr) : touched (.bwait x0 x1 x2 x3 x4) = [.regs, .errCtx, .events, .sst, .cores, .sync, .pwr] := rfl
theorem touched_fclaim (x0 : CoreNo) (x1 : Gpr) (x2 : Gpr) (x3 : Gpr) : touched (.fclaim x0 x1 x2 x3) = [.regs, .errCtx, .cores, .sync] := rfl
theorem touched_frel (x0 : CoreNo) (x1 : Gpr) (x2 : Gpr) : touched (.frel x0 x1 x2) = [.regs, .errCtx, .cores, .sync] := rfl
theorem touched_barrive (x0 : Fin 36) (x1 : Byte) (x2 : W64) : touched (.barrive x0 x1 x2) = [.regs, .errCtx, .events, .sst, .cores, .sync, .pwr] := rfl
theorem touched_syncTimeout (x0 : CoreNo) : touched (.syncTimeout x0) = [.free, .regs, .errCtx, .events, .sst, .cores, .sync, .pwr] := rfl
theorem touched_synLose (x0 : Byte) : touched (.synLose x0) = [.free, .regs, .errCtx, .events, .sst, .cores, .sync, .pwr] := rfl
theorem touched_claimMarkDone : touched (.claimMarkDone) = [.regs, .mem, .sync] := rfl
theorem touched_barArm (x0 : Fin 64) (x1 : W64) : touched (.barArm x0 x1) = [.regs, .errCtx, .sync] := rfl
theorem touched_barDisarm (x0 : Fin 64) : touched (.barDisarm x0) = [.free, .regs, .errCtx, .events, .sst, .cores, .sync, .pwr] := rfl
theorem touched_barStatRead (x0 : Fin 64) : touched (.barStatRead x0) = [.rdData, .regs] := rfl
theorem touched_porterTransferDone (x0 : Die) (x1 : Fin 2) (x2 : Fin 8) (x3 : Bool) (x4 : Hits) : touched (.porterTransferDone x0 x1 x2 x3 x4) = Part.most := rfl
theorem touched_ropPut (x0 : Met CoreNo) (x1 : Gpr) (x2 : Gpr) (x3 : Gpr) : touched (.ropPut x0 x1 x2 x3) = Part.most := rfl
theorem touched_ropGet (x0 : CoreNo) (x1 : Gpr) (x2 : Gpr) (x3 : Gpr) : touched (.ropGet x0 x1 x2 x3) = [.free, .rdData, .regs, .errCtx, .plat, .sst, .cores, .work, .ms, .sync, .net, .rcv, .boot] := rfl
theorem touched_ropGet3 (x0 : CoreNo) (x1 : Gpr) (x2 : Gpr) (x3 : Gpr) : touched (.ropGet3 x0 x1 x2 x3) = [.free, .rdData, .regs, .errCtx, .plat, .sst, .cores, .work, .ms, .sync, .net, .rcv, .boot] := rfl
theorem touched_ropAtomic (x0 : CoreNo) (x1 : Gpr) (x2 : Gpr) (x3 : Gpr) : touched (.ropAtomic x0 x1 x2 x3) = [.free, .rdData, .regs, .errCtx, .plat, .sst, .cores, .work, .ms, .sync, .net, .rcv, .boot] := rfl
theorem touched_ropSignal (x0 : CoreNo) (x1 : Gpr) (x2 : Gpr) (x3 : Gpr) : touched (.ropSignal x0 x1 x2 x3) = [.free, .rdData, .regs, .errCtx, .plat, .sst, .cores, .work, .ms, .sync, .net, .rcv, .boot] := rfl
theorem touched_putRecv (x0 : Met Die) : touched (.putRecv x0) = Part.most := rfl
theorem touched_getRecv (x0 : Met Die) : touched (.getRecv x0) = Part.most := rfl
theorem touched_get3Recv (x0 : Met Die) : touched (.get3Recv x0) = Part.most := rfl
theorem touched_data3Recv (x0 : Met Die) : touched (.data3Recv x0) = Part.most := rfl
theorem touched_atomicRecv (x0 : Met Die) : touched (.atomicRecv x0) = Part.most := rfl
theorem touched_signalRecv (x0 : Die) : touched (.signalRecv x0) = [.regs, .cores, .sync, .net] := rfl
theorem touched_replyRecv (x0 : Met Die) : touched (.replyRecv x0) = Part.most := rfl
theorem touched_remoteTimeout (x0 : Die) (x1 : Fin 4096) : touched (.remoteTimeout x0 x1) = Part.most := rfl
theorem touched_rwinDenyRead : touched (.rwinDenyRead) = [.rdData, .regs] := rfl
theorem touched_linkTrainDone (x0 : Fin 24) (x1 : Byte) (x2 : Byte) : touched (.linkTrainDone x0 x1 x2) = [.rdData, .regs, .errCtx, .events, .sst, .work, .uus, .sync, .net] := rfl
theorem touched_linkTrainFail (x0 : Fin 24) : touched (.linkTrainFail x0) = [.regs, .errCtx, .events, .sst, .sync, .net] := rfl
theorem touched_linkFecUncorr (x0 : Fin 24) (x1 : Bool) : touched (.linkFecUncorr x0 x1) = [.regs, .errCtx, .events, .sst, .work, .sync, .net] := rfl
theorem touched_rsreqRecv (x0 : Fin 24) : touched (.rsreqRecv x0) = [.work, .net] := rfl
theorem touched_markRecv (x0 : Fin 24) (x1 : List W16) : touched (.markRecv x0 x1) = [.regs, .work, .net] := rfl
theorem touched_rsackRecv (x0 : Fin 24) (x1 : List W16) : touched (.rsackRecv x0 x1) = [.work, .net] := rfl
theorem touched_crdRecv (x0 : Fin 24) (x1 : List W16) : touched (.crdRecv x0 x1) = [.work, .net] := rfl
theorem touched_crdSend (x0 : Fin 24) : touched (.crdSend x0) = [.work, .net] := rfl
theorem touched_linkFlitGapTimeout (x0 : Fin 24) : touched (.linkFlitGapTimeout x0) = [.regs, .errCtx, .events, .sst, .sync, .net] := rfl
theorem touched_linkResyncTimeout (x0 : Fin 24) : touched (.linkResyncTimeout x0) = [.regs, .errCtx, .events, .sst, .sync, .net] := rfl
theorem touched_pktRecv (x0 : Fin 24) (x1 : List W64) : touched (.pktRecv x0 x1) = Part.most := rfl
theorem touched_pktForward (x0 : Die) : touched (.pktForward x0) = [.regs, .work, .net] := rfl
theorem touched_pktStaleDiscard (x0 : Die) : touched (.pktStaleDiscard x0) = [.regs, .net] := rfl
theorem touched_lnkVcallocWrite (x0 : Fin 24) (x1 : Bool) (x2 : W64) : touched (.lnkVcallocWrite x0 x1 x2) = [.regs, .errCtx, .events, .sst, .work, .sync, .net] := rfl
theorem touched_lnkFence (x0 : Fin 24) : touched (.lnkFence x0) = [.regs, .errCtx, .events, .sst, .sync, .net] := rfl
theorem touched_lnkReadmit (x0 : Fin 24) : touched (.lnkReadmit x0) = [.regs, .errCtx, .sst, .sync] := rfl
theorem touched_lnkRetrain (x0 : Fin 24) : touched (.lnkRetrain x0) = [.regs, .errCtx, .net] := rfl
theorem touched_lnkAdmit (x0 : Fin 24) : touched (.lnkAdmit x0) = [.regs, .errCtx] := rfl
theorem touched_lnkPark (x0 : Fin 24) : touched (.lnkPark x0) = [.regs, .errCtx] := rfl
theorem touched_lnkEnWrite (x0 : Fin 24) (x1 : Bool) : touched (.lnkEnWrite x0 x1) = [.regs, .net] := rfl
theorem touched_lnkCounterRead (x0 : Fin 24) (x1 : Fin 3) : touched (.lnkCounterRead x0 x1) = [.rdData, .regs, .work] := rfl
theorem touched_rteLoad (x0 : W64) : touched (.rteLoad x0) = [.regs, .errCtx, .net] := rfl
theorem touched_rteLoadDone : touched (.rteLoadDone) = [.regs, .errCtx, .net] := rfl
theorem touched_rteFlip : touched (.rteFlip) = [.regs, .errCtx, .net] := rfl
theorem touched_rteCfgWrite (x0 : W64) : touched (.rteCfgWrite x0) = [.regs, .errCtx] := rfl
theorem touched_rteTimersWrite (x0 : W64) : touched (.rteTimersWrite x0) = [.regs] := rfl
theorem touched_rteCounterRead (x0 : Fin 3) : touched (.rteCounterRead x0) = [.rdData, .regs] := rfl
theorem touched_helloRecv (x0 : Fin 24) (x1 : Hello) : touched (.helloRecv x0 x1) = [.regs, .errCtx, .events, .sst, .work, .sync, .net] := rfl
theorem touched_locRecv (x0 : Fin 24) (x1 : Loc) : touched (.locRecv x0 x1) = [.regs, .errCtx, .events, .sst, .work, .sync, .net] := rfl
theorem touched_probeRecv (x0 : Fin 24) (x1 : Bool) : touched (.probeRecv x0 x1) = [.work, .net] := rfl
theorem touched_helloSend (x0 : Fin 24) : touched (.helloSend x0) = [.work, .net] := rfl
theorem touched_discElect : touched (.discElect) = [.regs, .errCtx, .events, .sst, .sync, .net] := rfl
theorem touched_discPeerTimeout (x0 : Fin 24) : touched (.discPeerTimeout x0) = [.regs, .errCtx, .events, .sst, .sync, .net] := rfl
theorem touched_dscExpWrite (x0 : Fin 24) (x1 : W64) : touched (.dscExpWrite x0 x1) = [.regs, .errCtx, .events, .sst, .sync] := rfl
theorem touched_dscFabricWrite (x0 : W64) : touched (.dscFabricWrite x0) = [.regs, .errCtx, .events, .sst, .sync, .net] := rfl
theorem touched_dscIdWrite (x0 : W64) : touched (.dscIdWrite x0) = [.regs, .errCtx, .events, .sst, .sync, .net] := rfl
theorem touched_jobAdmission (x0 : Fin 256) : touched (.jobAdmission x0) = [.regs, .mem, .upd, .net, .host] := rfl
theorem touched_collOpen (x0 : CoreNo) (x1 : Gpr) (x2 : Gpr) : touched (.collOpen x0 x1 x2) = [.regs, .errCtx, .cores, .mem, .ms, .cr] := rfl
theorem touched_collClose (x0 : CoreNo) (x1 : Gpr) (x2 : Gpr) : touched (.collClose x0 x1 x2) = [.regs, .errCtx, .cores, .mem, .ms, .cr] := rfl
theorem touched_allreduce (x0 : CoreNo) (x1 : Gpr) (x2 : Gpr) : touched (.allreduce x0 x1 x2) = [.regs, .errCtx, .cores, .mem, .ms, .cr] := rfl
theorem touched_reduceScatter (x0 : CoreNo) (x1 : Gpr) (x2 : Gpr) : touched (.reduceScatter x0 x1 x2) = [.regs, .errCtx, .cores, .mem, .ms, .cr] := rfl
theorem touched_allgather (x0 : CoreNo) (x1 : Gpr) (x2 : Gpr) : touched (.allgather x0 x1 x2) = [.regs, .errCtx, .cores, .mem, .ms, .cr] := rfl
theorem touched_broadcast (x0 : CoreNo) (x1 : Gpr) (x2 : Gpr) : touched (.broadcast x0 x1 x2) = [.regs, .errCtx, .cores, .mem, .ms, .cr] := rfl
theorem touched_permute (x0 : CoreNo) (x1 : Gpr) (x2 : Gpr) : touched (.permute x0 x1 x2) = [.regs, .errCtx, .cores, .mem, .ms, .cr] := rfl
theorem touched_alltoall (x0 : CoreNo) (x1 : Gpr) (x2 : Gpr) : touched (.alltoall x0 x1 x2) = [.regs, .errCtx, .cores, .mem, .ms, .cr] := rfl
theorem touched_collStart (x0 : Met Die) : touched (.collStart x0) = Part.most := rfl
theorem touched_collChunkSend (x0 : Met Die) : touched (.collChunkSend x0) = Part.most := rfl
theorem touched_chunkRecv (x0 : Met Die) : touched (.chunkRecv x0) = Part.most := rfl
theorem touched_collCreditRecv (x0 : Die) : touched (.collCreditRecv x0) = [.regs, .mem, .net, .cr] := rfl
theorem touched_collComplete (x0 : Die) : touched (.collComplete x0) = [.regs, .mem, .ms, .cr] := rfl
theorem touched_crrFence (x0 : Die) : touched (.crrFence x0) = [.free, .regs, .errCtx, .events, .sst, .cores, .mem, .ms, .sync, .cr, .pwr] := rfl
theorem touched_crrSelftest (x0 : Die) : touched (.crrSelftest x0) = [.regs, .errCtx] := rfl
theorem touched_crrSelftestDone (x0 : Die) (x1 : Bool) : touched (.crrSelftestDone x0 x1) = [.regs] := rfl
theorem touched_crrReadmit (x0 : Die) : touched (.crrReadmit x0) = [.regs, .errCtx, .sst, .sync] := rfl
theorem touched_crrCntRead (x0 : Die) : touched (.crrCntRead x0) = [.rdData, .regs] := rfl
theorem touched_hostFrameRecv (x0 : Bool) (x1 : List W64) : touched (.hostFrameRecv x0 x1) = Part.most := rfl
theorem touched_hostReplyFrame : touched (.hostReplyFrame) = [.net, .host] := rfl
theorem touched_submitEcho : touched (.submitEcho) = [.upd, .host] := rfl
theorem touched_regDeferredResult : touched (.regDeferredResult) = Part.most := rfl
theorem touched_regOpTimeout : touched (.regOpTimeout) = [.host] := rfl
theorem touched_nop (x0 : Fin 256) : touched (.nop x0) = [.upd, .host] := rfl
theorem touched_qwait (x0 : Fin 256) : touched (.qwait x0) = [.upd, .host] := rfl
theorem touched_hostCmdBadOpcode (x0 : Fin 256) : touched (.hostCmdBadOpcode x0) = [.upd, .host] := rfl
theorem touched_complRecordSend : touched (.complRecordSend) = [.free, .regs, .host] := rfl
theorem touched_hlFrameGapTimeout (x0 : Bool) : touched (.hlFrameGapTimeout x0) = [.regs, .errCtx, .events, .sst, .sync, .host] := rfl
theorem touched_hlTrainDone (x0 : Bool) (x1 : Byte) : touched (.hlTrainDone x0 x1) = [.regs, .errCtx, .events, .plat, .sst, .sync, .host] := rfl
theorem touched_hlRetrainTick : touched (.hlRetrainTick) = [.regs, .host] := rfl
theorem touched_hlkSwap : touched (.hlkSwap) = [.regs, .errCtx] := rfl
theorem touched_hlkRetrain (x0 : Bool) : touched (.hlkRetrain x0) = [.regs, .errCtx, .sst, .sync] := rfl
theorem touched_hlkFence (x0 : Bool) : touched (.hlkFence x0) = [.regs, .errCtx, .events, .sst, .sync, .host] := rfl
theorem touched_hlkCntRead : touched (.hlkCntRead) = [.rdData, .regs] := rfl
theorem touched_sqCfgWrite (x0 : Fin 256) (x1 : W64) : touched (.sqCfgWrite x0 x1) = [.regs, .errCtx] := rfl
theorem touched_wmarkWrite : touched (.wmarkWrite) = [.regs, .sst, .sync] := rfl
theorem touched_errInject (x0 : BitVec 14) (x1 : W64) : touched (.errInject x0 x1) = [.regs, .errCtx] := rfl
theorem touched_evtSelWrite (x0 : BitVec 14) (x1 : W64) : touched (.evtSelWrite x0 x1) = [.regs] := rfl
theorem touched_evtSelRead (x0 : BitVec 14) : touched (.evtSelRead x0) = [.rdData, .regs] := rfl
theorem touched_watchdogExpire (x0 : WdUnit) : touched (.watchdogExpire x0) = Part.most := rfl
theorem touched_hangTrialDone (x0 : WdUnit) (x1 : Bool) : touched (.hangTrialDone x0 x1) = Part.most := rfl
theorem touched_taintBackstop : touched (.taintBackstop) = [.regs, .errCtx, .events, .sst, .stg, .sync, .rcv] := rfl
theorem touched_contextAbort (x0 : Fin 256) : touched (.contextAbort x0) = Part.most := rfl
theorem touched_rcvAbort (x0 : Byte) (x1 : Bool) : touched (.rcvAbort x0 x1) = Part.most := rfl
theorem touched_abortWedgeCheck (x0 : List (WdUnit × Bool)) : touched (.abortWedgeCheck x0) = Part.most := rfl
theorem touched_abortComplete : touched (.abortComplete) = [.regs, .errCtx, .events, .sst, .sync, .host, .rcv] := rfl
theorem touched_abortRelayResend : touched (.abortRelayResend) = [.net, .rcv] := rfl
theorem touched_relayRecv (x0 : Fin 24) (x1 : List W64) : touched (.relayRecv x0 x1) = Part.most := rfl
theorem touched_resetEngine (x0 : WdUnit) : touched (.resetEngine x0) = Part.most := rfl
theorem touched_resetCluster (x0 : ClusterNo) : touched (.resetCluster x0) = Part.most := rfl
theorem touched_resetDieFunction (x0 : Die) (x1 : TrainIn) : touched (.resetDieFunction x0 x1) = Part.most := rfl
theorem touched_resetWarm (x0 : TrainIn) : touched (.resetWarm x0) = Part.most := rfl
theorem touched_resetCold (x0 : TrainIn) : touched (.resetCold x0) = Part.most := rfl
theorem touched_dieFence (x0 : Die) : touched (.dieFence x0) = Part.most := rfl
theorem touched_resetDone (x0 : ResetTarget) (x1 : Bool) : touched (.resetDone x0 x1) = Part.most := rfl
theorem touched_resetFail (x0 : ResetTarget) : touched (.resetFail x0) = Part.most := rfl
theorem touched_recoveryDone : touched (.recoveryDone) = Part.most := rfl
theorem touched_rcvOosack (x0 : W32) : touched (.rcvOosack x0) = [.regs, .errCtx, .sst, .sync] := rfl
theorem touched_rcvJobidWrite (x0 : W64) : touched (.rcvJobidWrite x0) = [.regs] := rfl
theorem touched_rcvWdlimWrite (x0 : Bool) (x1 : W64) (x2 : List (WdUnit × Nat)) : touched (.rcvWdlimWrite x0 x1 x2) = Part.most := rfl
theorem touched_rcvAbstatRead : touched (.rcvAbstatRead) = [.rdData, .regs] := rfl
theorem touched_dumpRead : touched (.dumpRead) = [.rdData, .regs, .sst, .sync, .rcv] := rfl
theorem touched_evlLostRead (x0 : Die) : touched (.evlLostRead x0) = [.rdData, .regs] := rfl
theorem touched_lseal (x0 : ClusterNo) (x1 : Gpr) (x2 : Gpr) (x3 : Gpr) : touched (.lseal x0 x1 x2 x3) = [.cores, .ldg] := rfl
theorem touched_sealDone : touched (.sealDone) = Part.most := rfl
theorem touched_gstepWrite (x0 : ClusterNo) (x1 : Gpr) : touched (.gstepWrite x0 x1) = [.regs, .cores] := rfl
theorem touched_ldgGeomWrite (x0 : W64) : touched (.ldgGeomWrite x0) = [.regs, .errCtx, .ldg] := rfl
theorem touched_ckmarkStart : touched (.ckmarkStart) = [.ldg] := rfl
theorem touched_ckmarkEnd : touched (.ckmarkEnd) = [.regs, .errCtx, .ldg] := rfl
theorem touched_ckmarkEmpty : touched (.ckmarkEmpty) = [.regs, .ldg] := rfl
theorem touched_ldgCkWrite (x0 : Bool) (x1 : W64) : touched (.ldgCkWrite x0 x1) = [.regs] := rfl
theorem touched_ckRecompute (x0 : Byte) : touched (.ckRecompute x0) = [.regs] := rfl
theorem touched_sstRecordWrite : touched (.sstRecordWrite) = [.regs, .sst, .banks, .sync] := rfl
theorem touched_sstBankErase : touched (.sstBankErase) = [.sst, .banks] := rfl
theorem touched_sstCompact : touched (.sstCompact) = [.regs, .sst, .banks] := rfl
theorem touched_sstRselWrite (x0 : W64) : touched (.sstRselWrite x0) = [.regs, .sst] := rfl
theorem touched_sstRdataRead : touched (.sstRdataRead) = [.rdData, .sst] := rfl
theorem touched_pwrTick (x0 : List Nat) : touched (.pwrTick x0) = [.regs, .errCtx, .events, .sst, .sync, .pwr] := rfl
theorem touched_tjcapStep (x0 : Bool) (x1 : Die) (x2 : Fin 35) (x3 : W16) : touched (.tjcapStep x0 x1 x2 x3) = [.regs, .errCtx, .events, .sst, .sync, .pwr] := rfl
theorem touched_bmBmlimWrite (x0 : W16) : touched (.bmBmlimWrite x0) = [.regs, .errCtx, .events, .sst, .sync] := rfl
theorem touched_pwrCaplogRead : touched (.pwrCaplogRead) = [.rdData, .regs] := rfl
theorem touched_droopWarnAssert (x0 : Die) (x1 : Fin 35) (x2 : W16) : touched (.droopWarnAssert x0 x1 x2) = [.regs, .plat] := rfl
theorem touched_droopWarnEnd (x0 : Die) (x1 : Fin 35) (x2 : W16) : touched (.droopWarnEnd x0 x1 x2) = [.regs, .errCtx, .events, .plat, .sst, .sync] := rfl
theorem touched_droopReset (x0 : Die) (x1 : Fin 35) : touched (.droopReset x0 x1) = Part.most := rfl
theorem touched_drpCntRead (x0 : Die) : touched (.drpCntRead x0) = [.rdData, .regs] := rfl
theorem touched_bmShutdown (x0 : W16) : touched (.bmShutdown x0) = [.regs, .sst, .sync, .host] := rfl
theorem touched_bmShutdownDone : touched (.bmShutdownDone) = [.host] := rfl
theorem touched_bootLoadBegin : touched (.bootLoadBegin) = [.regs, .boot] := rfl
theorem touched_bootLoaddata (x0 : W64) : touched (.bootLoaddata x0) = [.regs, .boot] := rfl
theorem touched_bootLoadEnd : touched (.bootLoadEnd) = [.regs, .errCtx, .boot] := rfl
theorem touched_imageVerifyDone : touched (.imageVerifyDone) = [.regs, .errCtx, .events, .sst, .sync, .boot] := rfl
theorem touched_fuseRaiseSvn (x0 : Byte) : touched (.fuseRaiseSvn x0) = [.regs, .errCtx, .boot] := rfl
theorem touched_fuseRevoke (x0 : Byte) : touched (.fuseRevoke x0) = [.regs, .errCtx, .boot] := rfl
theorem touched_fuseBurnDone (x0 : Bool) : touched (.fuseBurnDone x0) = [.regs, .errCtx, .events, .sst, .sync, .boot] := rfl
theorem touched_idtreeDone : touched (.idtreeDone) = [.regs, .errCtx, .events, .sst, .sync, .boot] := rfl
theorem touched_attestGo : touched (.attestGo) = [.regs, .errCtx, .sst, .sync, .boot] := rfl
theorem touched_attestDone : touched (.attestDone) = [.regs, .errCtx, .events, .sst, .sync, .boot] := rfl
theorem touched_secRselWrite : touched (.secRselWrite) = [.boot] := rfl
theorem touched_secRdataRead : touched (.secRdataRead) = [.rdData, .boot] := rfl
theorem touched_testEnter (x0 : Die) (x1 : BitVec 4) : touched (.testEnter x0 x1) = [.regs, .errCtx, .events, .plat, .sst, .sync, .host, .boot] := rfl
theorem touched_tstTokenWrite (x0 : W64) : touched (.tstTokenWrite x0) = [.free, .regs, .errCtx, .boot] := rfl
theorem touched_testDone (x0 : Die) (x1 : BitVec 35) (x2 : W32) : touched (.testDone x0 x1 x2) = [.regs] := rfl
theorem touched_jtagTapReset (x0 : Die) : touched (.jtagTapReset x0) = [.mem, .tap] := rfl
theorem touched_extest (x0 : Die) : touched (.extest x0) = [.mem, .tap] := rfl
theorem touched_samplePreload (x0 : Die) : touched (.samplePreload x0) = [.mem, .tap] := rfl
theorem touched_idcode (x0 : Die) : touched (.idcode x0) = [.rdData, .mem, .tap] := rfl
theorem touched_clamp (x0 : Die) : touched (.clamp x0) = [.mem, .tap] := rfl
theorem touched_highz (x0 : Die) : touched (.highz x0) = [.mem, .tap] := rfl
theorem touched_extestPulse (x0 : Die) : touched (.extestPulse x0) = [.mem, .tap] := rfl
theorem touched_extestTrain (x0 : Die) : touched (.extestTrain x0) = [.mem, .tap] := rfl
theorem touched_tsttoken (x0 : Die) (x1 : List Byte) : touched (.tsttoken x0 x1) = [.free, .regs, .errCtx, .mem, .boot, .tap] := rfl
theorem touched_tstacc (x0 : Die) (x1 : BitVec 2) (x2 : BitVec 26) (x3 : W64) : touched (.tstacc x0 x1 x2 x3) = Part.most := rfl
theorem touched_bypass (x0 : Die) (x1 : Byte) : touched (.bypass x0 x1) = [.mem, .tap] := rfl
theorem touched_hlTrainFail (x0 : Bool) (x1 : Bool) : touched (.hlTrainFail x0 x1) = [.regs, .errCtx, .events, .sst, .sync, .host] := rfl
theorem touched_phaseReady : touched (.phaseReady) = [.free, .regs, .errCtx, .events, .sst, .sync, .net, .host, .rcv, .boot] := rfl
theorem touched_vcmdDone : touched (.vcmdDone) = [.regs, .errCtx, .mem, .stg] := rfl
theorem touched_downWindowExpire (x0 : Option (Fin 24)) : touched (.downWindowExpire x0) = [.regs] := rfl

end Sys2Proof.Machine
end

