-- ==== Sys2Proof/Laws/KMap.lean ====
section
/-! SUPPORT. Laws of sparse maps: reading after a write, and that every operation keeps the canonical form. -/

namespace Sys2Proof.Machine

variable {α : Type}

theorem KMap.find_erase_same (m : KMap α) (k : Nat) : (KMap.erase m k).find k = none := by
  induction m with
  | nil => rfl
  | cons e t ih => obtain ⟨a, v⟩ := e; by_cases h : a = k <;> simp [KMap.erase, KMap.find, h, ih]

theorem KMap.find_erase_other (m : KMap α) {k j : Nat} (h : j ≠ k) : (KMap.erase m k).find j = KMap.find m j := by
  induction m with
  | nil => rfl
  | cons e t ih =>
    obtain ⟨a, v⟩ := e
    by_cases ha : a = k
    · have : ¬ k = j := fun x => h x.symm
      simp [KMap.erase, KMap.find, ha, ih, this]
    · by_cases hj : a = j
      · subst hj; simp [KMap.erase, KMap.find, ha]
      · simp [KMap.erase, KMap.find, ha, hj, ih]

theorem KMap.find_insert_same (m : KMap α) (k : Nat) (v : α) (h : KMap.find m k = none) : (KMap.insert m k v).find k = some v := by
  induction m with
  | nil => simp [KMap.insert, KMap.find]
  | cons e t ih =>
    obtain ⟨a, w⟩ := e
    by_cases ha : a = k
    · simp [KMap.find, ha] at h
    · by_cases hl : k < a
      · simp [KMap.insert, KMap.find, hl]
      · simp only [KMap.find, ha, if_false] at h
        simp [KMap.insert, KMap.find, hl, ha, ih h]

theorem KMap.find_insert_other (m : KMap α) {k j : Nat} (v : α) (h : j ≠ k) : (KMap.insert m k v).find j = KMap.find m j := by
  have hk : ¬ k = j := fun x => h x.symm
  induction m with
  | nil => simp [KMap.insert, KMap.find, hk]
  | cons e t ih =>
    obtain ⟨a, w⟩ := e
    by_cases hl : k < a
    · simp [KMap.insert, KMap.find, hl, hk]
    · by_cases hj : a = j
      · subst hj; simp [KMap.insert, KMap.find, hl]
      · simp [KMap.insert, KMap.find, hl, hj, ih]

/-- A key reads as what was set there last. -/
@[simp] theorem KMap.get_set_same [DecidableEq α] (d : α) (m : KMap α) (k : Nat) (v : α) : KMap.get d (KMap.set d m k v) k = v := by
  unfold KMap.get KMap.set
  by_cases h : v = d
  · simp [h, KMap.find_erase_same]
  · simp [h, KMap.find_insert_same _ _ _ (KMap.find_erase_same m k)]

/-- Every other key reads as before. -/
theorem KMap.get_set_other [DecidableEq α] (d e : α) (m : KMap α) {k j : Nat} (v : α) (h : j ≠ k) : KMap.get e (KMap.set d m k v) j = KMap.get e m j := by
  unfold KMap.get KMap.set
  by_cases hv : v = d
  · simp [hv, KMap.find_erase_other m h]
  · simp [hv, KMap.find_insert_other _ v h, KMap.find_erase_other m h]

/-! ## The canonical form -/

theorem KMap.wfFrom_weaken [DecidableEq α] (d : Nat → α) {b c : Option Nat} {m : KMap α} (hbc : ∀ x, c = some x → ∃ y, b = some y ∧ x ≤ y)
    (h : KMap.wfFrom d b m = true) : KMap.wfFrom d c m = true := by
  cases m with
  | nil => rfl
  | cons e t =>
    obtain ⟨a, v⟩ := e
    cases c with
    | none => cases b <;> simp_all [KMap.wfFrom]
    | some x =>
      obtain ⟨y, rfl, hy⟩ := hbc x rfl
      simp only [KMap.wfFrom, Bool.and_eq_true, decide_eq_true_eq] at h ⊢
      exact ⟨⟨by omega, h.1.2⟩, h.2⟩

theorem KMap.wfFrom_filter [DecidableEq α] (d : Nat → α) (p : Nat × α → Bool) {b : Option Nat} {m : KMap α}
    (h : KMap.wfFrom d b m = true) : KMap.wfFrom d b (m.filter p) = true := by
  induction m generalizing b with
  | nil => rfl
  | cons e t ih =>
    obtain ⟨a, v⟩ := e
    simp only [KMap.wfFrom, Bool.and_eq_true] at h
    by_cases hp : p (a, v)
    · simp only [List.filter_cons_of_pos hp, KMap.wfFrom, Bool.and_eq_true]
      exact ⟨h.1, ih h.2⟩
    · rw [List.filter_cons_of_neg hp]
      refine KMap.wfFrom_weaken d ?_ (ih h.2)
      rintro x rfl
      exact ⟨a, rfl, by have := h.1.1; simp at this; omega⟩

theorem KMap.erase_eq_filter (m : KMap α) (k : Nat) : KMap.erase m k = m.filter fun e => decide (e.1 ≠ k) := by
  induction m with
  | nil => rfl
  | cons e t ih => obtain ⟨a, v⟩ := e; by_cases h : a = k <;> simp [KMap.erase, h, ih]

theorem KMap.wfFrom_insert [DecidableEq α] (d : Nat → α) (k : Nat) (v : α) (hv : v ≠ d k) {b : Option Nat} {m : KMap α}
    (hb : ∀ x, b = some x → x < k) (hk : KMap.find m k = none) (h : KMap.wfFrom d b m = true) : KMap.wfFrom d b (KMap.insert m k v) = true := by
  induction m generalizing b with
  | nil =>
    cases b with
    | none => simp [KMap.insert, KMap.wfFrom, hv]
    | some x => simp [KMap.insert, KMap.wfFrom, hv, hb x rfl]
  | cons e t ih =>
    obtain ⟨a, w⟩ := e
    have hak : ¬ a = k := by intro ha; simp [KMap.find, ha] at hk
    simp only [KMap.find, hak, if_false] at hk
    by_cases hl : k < a
    · simp only [KMap.insert, hl, if_true, KMap.wfFrom, Bool.and_eq_true, Bool.not_eq_true', decide_eq_false_iff_not] at h ⊢
      refine ⟨⟨?_, hv⟩, ⟨by simp, h.1.2⟩, h.2⟩
      cases b with
      | none => rfl
      | some x => simpa using hb x rfl
    · simp only [KMap.insert, hl, if_false, KMap.wfFrom, Bool.and_eq_true] at h ⊢
      exact ⟨h.1, ih (fun x hx => by cases hx; omega) hk h.2⟩

/-- A write keeps the canonical form: setting a key to what an unlisted key reads as removes its entry. -/
theorem KMap.wf_set [DecidableEq α] (d : Nat → α) (m : KMap α) (k : Nat) (v : α) (h : KMap.wf d m = true) :
    KMap.wf d (KMap.set (d k) m k v) = true := by
  have he : KMap.wfFrom d none (KMap.erase m k) = true := by rw [KMap.erase_eq_filter]; exact KMap.wfFrom_filter _ _ h
  unfold KMap.set KMap.wf
  by_cases hv : v = d k
  · simpa [hv] using he
  · simp only [hv, if_false]
    exact KMap.wfFrom_insert _ k v hv (by simp) (KMap.find_erase_same m k) he

/-- So does taking entries out. -/
theorem KMap.wf_filter [DecidableEq α] (d : Nat → α) (p : Nat × α → Bool) {m : KMap α} (h : KMap.wf d m = true) : KMap.wf d (m.filter p) = true :=
  KMap.wfFrom_filter d p h

theorem KMap.wf_nil [DecidableEq α] (d : Nat → α) : KMap.wf d ([] : KMap α) = true := rfl

end Sys2Proof.Machine
end

