-- ==== Sys2Proof/Laws/State.lean ====
section
/-! SUPPORT. What each named update of the state leaves as it was: one lemma per field and update, true by rfl. -/

namespace Sys2Proof.Machine

/-! ## State.addWork -/

@[simp] theorem State.addWork_pending (s : State) (page n : Nat) : (s.addWork page n).pending = s.pending := (rfl)
@[simp] theorem State.addWork_free (s : State) (page n : Nat) : (s.addWork page n).free = s.free := (rfl)
@[simp] theorem State.addWork_rdData (s : State) (page n : Nat) : (s.addWork page n).rdData = s.rdData := (rfl)
@[simp] theorem State.addWork_regStatus (s : State) (page n : Nat) : (s.addWork page n).regStatus = s.regStatus := (rfl)
@[simp] theorem State.addWork_regs (s : State) (page n : Nat) : (s.addWork page n).regs = s.regs := (rfl)
@[simp] theorem State.addWork_errCtx (s : State) (page n : Nat) : (s.addWork page n).errCtx = s.errCtx := (rfl)
@[simp] theorem State.addWork_events (s : State) (page n : Nat) : (s.addWork page n).events = s.events := (rfl)
@[simp] theorem State.addWork_plat (s : State) (page n : Nat) : (s.addWork page n).plat = s.plat := (rfl)
@[simp] theorem State.addWork_sst (s : State) (page n : Nat) : (s.addWork page n).sst = s.sst := (rfl)
@[simp] theorem State.addWork_cores (s : State) (page n : Nat) : (s.addWork page n).cores = s.cores := (rfl)
@[simp] theorem State.addWork_scratch (s : State) (page n : Nat) : (s.addWork page n).scratch = s.scratch := (rfl)
@[simp] theorem State.addWork_clusters (s : State) (page n : Nat) : (s.addWork page n).clusters = s.clusters := (rfl)
@[simp] theorem State.addWork_banks (s : State) (page n : Nat) : (s.addWork page n).banks = s.banks := (rfl)
@[simp] theorem State.addWork_mxes (s : State) (page n : Nat) : (s.addWork page n).mxes = s.mxes := (rfl)
@[simp] theorem State.addWork_vxes (s : State) (page n : Nat) : (s.addWork page n).vxes = s.vxes := (rfl)
@[simp] theorem State.addWork_bins (s : State) (page n : Nat) : (s.addWork page n).bins = s.bins := (rfl)
@[simp] theorem State.addWork_hstOp (s : State) (page n : Nat) : (s.addWork page n).hstOp = s.hstOp := (rfl)
@[simp] theorem State.addWork_mem (s : State) (page n : Nat) : (s.addWork page n).mem = s.mem := (rfl)
@[simp] theorem State.addWork_ms (s : State) (page n : Nat) : (s.addWork page n).ms = s.ms := (rfl)
@[simp] theorem State.addWork_upd (s : State) (page n : Nat) : (s.addWork page n).upd = s.upd := (rfl)
@[simp] theorem State.addWork_commit (s : State) (page n : Nat) : (s.addWork page n).commit = s.commit := (rfl)
@[simp] theorem State.addWork_uus (s : State) (page n : Nat) : (s.addWork page n).uus = s.uus := (rfl)
@[simp] theorem State.addWork_journals (s : State) (page n : Nat) : (s.addWork page n).journals = s.journals := (rfl)
@[simp] theorem State.addWork_stg (s : State) (page n : Nat) : (s.addWork page n).stg = s.stg := (rfl)
@[simp] theorem State.addWork_sync (s : State) (page n : Nat) : (s.addWork page n).sync = s.sync := (rfl)
@[simp] theorem State.addWork_net (s : State) (page n : Nat) : (s.addWork page n).net = s.net := (rfl)
@[simp] theorem State.addWork_cr (s : State) (page n : Nat) : (s.addWork page n).cr = s.cr := (rfl)
@[simp] theorem State.addWork_host (s : State) (page n : Nat) : (s.addWork page n).host = s.host := (rfl)
@[simp] theorem State.addWork_rcv (s : State) (page n : Nat) : (s.addWork page n).rcv = s.rcv := (rfl)
@[simp] theorem State.addWork_ldg (s : State) (page n : Nat) : (s.addWork page n).ldg = s.ldg := (rfl)
@[simp] theorem State.addWork_pwr (s : State) (page n : Nat) : (s.addWork page n).pwr = s.pwr := (rfl)
@[simp] theorem State.addWork_boot (s : State) (page n : Nat) : (s.addWork page n).boot = s.boot := (rfl)
@[simp] theorem State.addWork_tap (s : State) (page n : Nat) : (s.addWork page n).tap = s.tap := (rfl)

/-! ## State.setHost -/

@[simp] theorem State.setHost_pending (s : State) (h : HostLink) : (s.setHost h).pending = s.pending := (rfl)
@[simp] theorem State.setHost_free (s : State) (h : HostLink) : (s.setHost h).free = s.free := (rfl)
@[simp] theorem State.setHost_rdData (s : State) (h : HostLink) : (s.setHost h).rdData = s.rdData := (rfl)
@[simp] theorem State.setHost_regStatus (s : State) (h : HostLink) : (s.setHost h).regStatus = s.regStatus := (rfl)
@[simp] theorem State.setHost_regs (s : State) (h : HostLink) : (s.setHost h).regs = s.regs := (rfl)
@[simp] theorem State.setHost_errCtx (s : State) (h : HostLink) : (s.setHost h).errCtx = s.errCtx := (rfl)
@[simp] theorem State.setHost_events (s : State) (h : HostLink) : (s.setHost h).events = s.events := (rfl)
@[simp] theorem State.setHost_plat (s : State) (h : HostLink) : (s.setHost h).plat = s.plat := (rfl)
@[simp] theorem State.setHost_sst (s : State) (h : HostLink) : (s.setHost h).sst = s.sst := (rfl)
@[simp] theorem State.setHost_cores (s : State) (h : HostLink) : (s.setHost h).cores = s.cores := (rfl)
@[simp] theorem State.setHost_scratch (s : State) (h : HostLink) : (s.setHost h).scratch = s.scratch := (rfl)
@[simp] theorem State.setHost_clusters (s : State) (h : HostLink) : (s.setHost h).clusters = s.clusters := (rfl)
@[simp] theorem State.setHost_banks (s : State) (h : HostLink) : (s.setHost h).banks = s.banks := (rfl)
@[simp] theorem State.setHost_mxes (s : State) (h : HostLink) : (s.setHost h).mxes = s.mxes := (rfl)
@[simp] theorem State.setHost_vxes (s : State) (h : HostLink) : (s.setHost h).vxes = s.vxes := (rfl)
@[simp] theorem State.setHost_bins (s : State) (h : HostLink) : (s.setHost h).bins = s.bins := (rfl)
@[simp] theorem State.setHost_work (s : State) (h : HostLink) : (s.setHost h).work = s.work := (rfl)
@[simp] theorem State.setHost_hstOp (s : State) (h : HostLink) : (s.setHost h).hstOp = s.hstOp := (rfl)
@[simp] theorem State.setHost_mem (s : State) (h : HostLink) : (s.setHost h).mem = s.mem := (rfl)
@[simp] theorem State.setHost_ms (s : State) (h : HostLink) : (s.setHost h).ms = s.ms := (rfl)
@[simp] theorem State.setHost_upd (s : State) (h : HostLink) : (s.setHost h).upd = s.upd := (rfl)
@[simp] theorem State.setHost_commit (s : State) (h : HostLink) : (s.setHost h).commit = s.commit := (rfl)
@[simp] theorem State.setHost_uus (s : State) (h : HostLink) : (s.setHost h).uus = s.uus := (rfl)
@[simp] theorem State.setHost_journals (s : State) (h : HostLink) : (s.setHost h).journals = s.journals := (rfl)
@[simp] theorem State.setHost_stg (s : State) (h : HostLink) : (s.setHost h).stg = s.stg := (rfl)
@[simp] theorem State.setHost_sync (s : State) (h : HostLink) : (s.setHost h).sync = s.sync := (rfl)
@[simp] theorem State.setHost_net (s : State) (h : HostLink) : (s.setHost h).net = s.net := (rfl)
@[simp] theorem State.setHost_cr (s : State) (h : HostLink) : (s.setHost h).cr = s.cr := (rfl)
@[simp] theorem State.setHost_rcv (s : State) (h : HostLink) : (s.setHost h).rcv = s.rcv := (rfl)
@[simp] theorem State.setHost_ldg (s : State) (h : HostLink) : (s.setHost h).ldg = s.ldg := (rfl)
@[simp] theorem State.setHost_pwr (s : State) (h : HostLink) : (s.setHost h).pwr = s.pwr := (rfl)
@[simp] theorem State.setHost_boot (s : State) (h : HostLink) : (s.setHost h).boot = s.boot := (rfl)
@[simp] theorem State.setHost_tap (s : State) (h : HostLink) : (s.setHost h).tap = s.tap := (rfl)

/-! ## State.setFull -/

@[simp] theorem State.setFull_pending (s : State) (key : Nat) (b : Bool) : (s.setFull key b).pending = s.pending := (rfl)
@[simp] theorem State.setFull_free (s : State) (key : Nat) (b : Bool) : (s.setFull key b).free = s.free := (rfl)
@[simp] theorem State.setFull_rdData (s : State) (key : Nat) (b : Bool) : (s.setFull key b).rdData = s.rdData := (rfl)
@[simp] theorem State.setFull_regStatus (s : State) (key : Nat) (b : Bool) : (s.setFull key b).regStatus = s.regStatus := (rfl)
@[simp] theorem State.setFull_regs (s : State) (key : Nat) (b : Bool) : (s.setFull key b).regs = s.regs := (rfl)
@[simp] theorem State.setFull_errCtx (s : State) (key : Nat) (b : Bool) : (s.setFull key b).errCtx = s.errCtx := (rfl)
@[simp] theorem State.setFull_events (s : State) (key : Nat) (b : Bool) : (s.setFull key b).events = s.events := (rfl)
@[simp] theorem State.setFull_plat (s : State) (key : Nat) (b : Bool) : (s.setFull key b).plat = s.plat := (rfl)
@[simp] theorem State.setFull_sst (s : State) (key : Nat) (b : Bool) : (s.setFull key b).sst = s.sst := (rfl)
@[simp] theorem State.setFull_cores (s : State) (key : Nat) (b : Bool) : (s.setFull key b).cores = s.cores := (rfl)
@[simp] theorem State.setFull_scratch (s : State) (key : Nat) (b : Bool) : (s.setFull key b).scratch = s.scratch := (rfl)
@[simp] theorem State.setFull_clusters (s : State) (key : Nat) (b : Bool) : (s.setFull key b).clusters = s.clusters := (rfl)
@[simp] theorem State.setFull_banks (s : State) (key : Nat) (b : Bool) : (s.setFull key b).banks = s.banks := (rfl)
@[simp] theorem State.setFull_mxes (s : State) (key : Nat) (b : Bool) : (s.setFull key b).mxes = s.mxes := (rfl)
@[simp] theorem State.setFull_vxes (s : State) (key : Nat) (b : Bool) : (s.setFull key b).vxes = s.vxes := (rfl)
@[simp] theorem State.setFull_bins (s : State) (key : Nat) (b : Bool) : (s.setFull key b).bins = s.bins := (rfl)
@[simp] theorem State.setFull_work (s : State) (key : Nat) (b : Bool) : (s.setFull key b).work = s.work := (rfl)
@[simp] theorem State.setFull_hstOp (s : State) (key : Nat) (b : Bool) : (s.setFull key b).hstOp = s.hstOp := (rfl)
@[simp] theorem State.setFull_ms (s : State) (key : Nat) (b : Bool) : (s.setFull key b).ms = s.ms := (rfl)
@[simp] theorem State.setFull_upd (s : State) (key : Nat) (b : Bool) : (s.setFull key b).upd = s.upd := (rfl)
@[simp] theorem State.setFull_commit (s : State) (key : Nat) (b : Bool) : (s.setFull key b).commit = s.commit := (rfl)
@[simp] theorem State.setFull_uus (s : State) (key : Nat) (b : Bool) : (s.setFull key b).uus = s.uus := (rfl)
@[simp] theorem State.setFull_journals (s : State) (key : Nat) (b : Bool) : (s.setFull key b).journals = s.journals := (rfl)
@[simp] theorem State.setFull_stg (s : State) (key : Nat) (b : Bool) : (s.setFull key b).stg = s.stg := (rfl)
@[simp] theorem State.setFull_sync (s : State) (key : Nat) (b : Bool) : (s.setFull key b).sync = s.sync := (rfl)
@[simp] theorem State.setFull_net (s : State) (key : Nat) (b : Bool) : (s.setFull key b).net = s.net := (rfl)
@[simp] theorem State.setFull_cr (s : State) (key : Nat) (b : Bool) : (s.setFull key b).cr = s.cr := (rfl)
@[simp] theorem State.setFull_host (s : State) (key : Nat) (b : Bool) : (s.setFull key b).host = s.host := (rfl)
@[simp] theorem State.setFull_rcv (s : State) (key : Nat) (b : Bool) : (s.setFull key b).rcv = s.rcv := (rfl)
@[simp] theorem State.setFull_ldg (s : State) (key : Nat) (b : Bool) : (s.setFull key b).ldg = s.ldg := (rfl)
@[simp] theorem State.setFull_pwr (s : State) (key : Nat) (b : Bool) : (s.setFull key b).pwr = s.pwr := (rfl)
@[simp] theorem State.setFull_boot (s : State) (key : Nat) (b : Bool) : (s.setFull key b).boot = s.boot := (rfl)
@[simp] theorem State.setFull_tap (s : State) (key : Nat) (b : Bool) : (s.setFull key b).tap = s.tap := (rfl)

/-! ## State.setPoison -/

@[simp] theorem State.setPoison_pending (s : State) (key : Nat) (b : Bool) : (s.setPoison key b).pending = s.pending := (rfl)
@[simp] theorem State.setPoison_free (s : State) (key : Nat) (b : Bool) : (s.setPoison key b).free = s.free := (rfl)
@[simp] theorem State.setPoison_rdData (s : State) (key : Nat) (b : Bool) : (s.setPoison key b).rdData = s.rdData := (rfl)
@[simp] theorem State.setPoison_regStatus (s : State) (key : Nat) (b : Bool) : (s.setPoison key b).regStatus = s.regStatus := (rfl)
@[simp] theorem State.setPoison_regs (s : State) (key : Nat) (b : Bool) : (s.setPoison key b).regs = s.regs := (rfl)
@[simp] theorem State.setPoison_errCtx (s : State) (key : Nat) (b : Bool) : (s.setPoison key b).errCtx = s.errCtx := (rfl)
@[simp] theorem State.setPoison_events (s : State) (key : Nat) (b : Bool) : (s.setPoison key b).events = s.events := (rfl)
@[simp] theorem State.setPoison_plat (s : State) (key : Nat) (b : Bool) : (s.setPoison key b).plat = s.plat := (rfl)
@[simp] theorem State.setPoison_sst (s : State) (key : Nat) (b : Bool) : (s.setPoison key b).sst = s.sst := (rfl)
@[simp] theorem State.setPoison_cores (s : State) (key : Nat) (b : Bool) : (s.setPoison key b).cores = s.cores := (rfl)
@[simp] theorem State.setPoison_scratch (s : State) (key : Nat) (b : Bool) : (s.setPoison key b).scratch = s.scratch := (rfl)
@[simp] theorem State.setPoison_clusters (s : State) (key : Nat) (b : Bool) : (s.setPoison key b).clusters = s.clusters := (rfl)
@[simp] theorem State.setPoison_banks (s : State) (key : Nat) (b : Bool) : (s.setPoison key b).banks = s.banks := (rfl)
@[simp] theorem State.setPoison_mxes (s : State) (key : Nat) (b : Bool) : (s.setPoison key b).mxes = s.mxes := (rfl)
@[simp] theorem State.setPoison_vxes (s : State) (key : Nat) (b : Bool) : (s.setPoison key b).vxes = s.vxes := (rfl)
@[simp] theorem State.setPoison_bins (s : State) (key : Nat) (b : Bool) : (s.setPoison key b).bins = s.bins := (rfl)
@[simp] theorem State.setPoison_work (s : State) (key : Nat) (b : Bool) : (s.setPoison key b).work = s.work := (rfl)
@[simp] theorem State.setPoison_hstOp (s : State) (key : Nat) (b : Bool) : (s.setPoison key b).hstOp = s.hstOp := (rfl)
@[simp] theorem State.setPoison_ms (s : State) (key : Nat) (b : Bool) : (s.setPoison key b).ms = s.ms := (rfl)
@[simp] theorem State.setPoison_upd (s : State) (key : Nat) (b : Bool) : (s.setPoison key b).upd = s.upd := (rfl)
@[simp] theorem State.setPoison_commit (s : State) (key : Nat) (b : Bool) : (s.setPoison key b).commit = s.commit := (rfl)
@[simp] theorem State.setPoison_uus (s : State) (key : Nat) (b : Bool) : (s.setPoison key b).uus = s.uus := (rfl)
@[simp] theorem State.setPoison_journals (s : State) (key : Nat) (b : Bool) : (s.setPoison key b).journals = s.journals := (rfl)
@[simp] theorem State.setPoison_stg (s : State) (key : Nat) (b : Bool) : (s.setPoison key b).stg = s.stg := (rfl)
@[simp] theorem State.setPoison_sync (s : State) (key : Nat) (b : Bool) : (s.setPoison key b).sync = s.sync := (rfl)
@[simp] theorem State.setPoison_net (s : State) (key : Nat) (b : Bool) : (s.setPoison key b).net = s.net := (rfl)
@[simp] theorem State.setPoison_cr (s : State) (key : Nat) (b : Bool) : (s.setPoison key b).cr = s.cr := (rfl)
@[simp] theorem State.setPoison_host (s : State) (key : Nat) (b : Bool) : (s.setPoison key b).host = s.host := (rfl)
@[simp] theorem State.setPoison_rcv (s : State) (key : Nat) (b : Bool) : (s.setPoison key b).rcv = s.rcv := (rfl)
@[simp] theorem State.setPoison_ldg (s : State) (key : Nat) (b : Bool) : (s.setPoison key b).ldg = s.ldg := (rfl)
@[simp] theorem State.setPoison_pwr (s : State) (key : Nat) (b : Bool) : (s.setPoison key b).pwr = s.pwr := (rfl)
@[simp] theorem State.setPoison_boot (s : State) (key : Nat) (b : Bool) : (s.setPoison key b).boot = s.boot := (rfl)
@[simp] theorem State.setPoison_tap (s : State) (key : Nat) (b : Bool) : (s.setPoison key b).tap = s.tap := (rfl)

/-! ## State.setLine -/

@[simp] theorem State.setLine_pending (s : State) (key : Nat) (b : Bool) : (s.setLine key b).pending = s.pending := (rfl)
@[simp] theorem State.setLine_free (s : State) (key : Nat) (b : Bool) : (s.setLine key b).free = s.free := (rfl)
@[simp] theorem State.setLine_rdData (s : State) (key : Nat) (b : Bool) : (s.setLine key b).rdData = s.rdData := (rfl)
@[simp] theorem State.setLine_regStatus (s : State) (key : Nat) (b : Bool) : (s.setLine key b).regStatus = s.regStatus := (rfl)
@[simp] theorem State.setLine_regs (s : State) (key : Nat) (b : Bool) : (s.setLine key b).regs = s.regs := (rfl)
@[simp] theorem State.setLine_errCtx (s : State) (key : Nat) (b : Bool) : (s.setLine key b).errCtx = s.errCtx := (rfl)
@[simp] theorem State.setLine_events (s : State) (key : Nat) (b : Bool) : (s.setLine key b).events = s.events := (rfl)
@[simp] theorem State.setLine_plat (s : State) (key : Nat) (b : Bool) : (s.setLine key b).plat = s.plat := (rfl)
@[simp] theorem State.setLine_sst (s : State) (key : Nat) (b : Bool) : (s.setLine key b).sst = s.sst := (rfl)
@[simp] theorem State.setLine_cores (s : State) (key : Nat) (b : Bool) : (s.setLine key b).cores = s.cores := (rfl)
@[simp] theorem State.setLine_scratch (s : State) (key : Nat) (b : Bool) : (s.setLine key b).scratch = s.scratch := (rfl)
@[simp] theorem State.setLine_clusters (s : State) (key : Nat) (b : Bool) : (s.setLine key b).clusters = s.clusters := (rfl)
@[simp] theorem State.setLine_banks (s : State) (key : Nat) (b : Bool) : (s.setLine key b).banks = s.banks := (rfl)
@[simp] theorem State.setLine_mxes (s : State) (key : Nat) (b : Bool) : (s.setLine key b).mxes = s.mxes := (rfl)
@[simp] theorem State.setLine_vxes (s : State) (key : Nat) (b : Bool) : (s.setLine key b).vxes = s.vxes := (rfl)
@[simp] theorem State.setLine_bins (s : State) (key : Nat) (b : Bool) : (s.setLine key b).bins = s.bins := (rfl)
@[simp] theorem State.setLine_work (s : State) (key : Nat) (b : Bool) : (s.setLine key b).work = s.work := (rfl)
@[simp] theorem State.setLine_hstOp (s : State) (key : Nat) (b : Bool) : (s.setLine key b).hstOp = s.hstOp := (rfl)
@[simp] theorem State.setLine_ms (s : State) (key : Nat) (b : Bool) : (s.setLine key b).ms = s.ms := (rfl)
@[simp] theorem State.setLine_upd (s : State) (key : Nat) (b : Bool) : (s.setLine key b).upd = s.upd := (rfl)
@[simp] theorem State.setLine_commit (s : State) (key : Nat) (b : Bool) : (s.setLine key b).commit = s.commit := (rfl)
@[simp] theorem State.setLine_uus (s : State) (key : Nat) (b : Bool) : (s.setLine key b).uus = s.uus := (rfl)
@[simp] theorem State.setLine_journals (s : State) (key : Nat) (b : Bool) : (s.setLine key b).journals = s.journals := (rfl)
@[simp] theorem State.setLine_stg (s : State) (key : Nat) (b : Bool) : (s.setLine key b).stg = s.stg := (rfl)
@[simp] theorem State.setLine_sync (s : State) (key : Nat) (b : Bool) : (s.setLine key b).sync = s.sync := (rfl)
@[simp] theorem State.setLine_net (s : State) (key : Nat) (b : Bool) : (s.setLine key b).net = s.net := (rfl)
@[simp] theorem State.setLine_cr (s : State) (key : Nat) (b : Bool) : (s.setLine key b).cr = s.cr := (rfl)
@[simp] theorem State.setLine_host (s : State) (key : Nat) (b : Bool) : (s.setLine key b).host = s.host := (rfl)
@[simp] theorem State.setLine_rcv (s : State) (key : Nat) (b : Bool) : (s.setLine key b).rcv = s.rcv := (rfl)
@[simp] theorem State.setLine_ldg (s : State) (key : Nat) (b : Bool) : (s.setLine key b).ldg = s.ldg := (rfl)
@[simp] theorem State.setLine_pwr (s : State) (key : Nat) (b : Bool) : (s.setLine key b).pwr = s.pwr := (rfl)
@[simp] theorem State.setLine_boot (s : State) (key : Nat) (b : Bool) : (s.setLine key b).boot = s.boot := (rfl)
@[simp] theorem State.setLine_tap (s : State) (key : Nat) (b : Bool) : (s.setLine key b).tap = s.tap := (rfl)

/-! ## State.putByte -/

@[simp] theorem State.putByte_pending (s : State) (key : Nat) (b : Byte) : (s.putByte key b).pending = s.pending := (rfl)
@[simp] theorem State.putByte_free (s : State) (key : Nat) (b : Byte) : (s.putByte key b).free = s.free := (rfl)
@[simp] theorem State.putByte_rdData (s : State) (key : Nat) (b : Byte) : (s.putByte key b).rdData = s.rdData := (rfl)
@[simp] theorem State.putByte_regStatus (s : State) (key : Nat) (b : Byte) : (s.putByte key b).regStatus = s.regStatus := (rfl)
@[simp] theorem State.putByte_regs (s : State) (key : Nat) (b : Byte) : (s.putByte key b).regs = s.regs := (rfl)
@[simp] theorem State.putByte_errCtx (s : State) (key : Nat) (b : Byte) : (s.putByte key b).errCtx = s.errCtx := (rfl)
@[simp] theorem State.putByte_events (s : State) (key : Nat) (b : Byte) : (s.putByte key b).events = s.events := (rfl)
@[simp] theorem State.putByte_plat (s : State) (key : Nat) (b : Byte) : (s.putByte key b).plat = s.plat := (rfl)
@[simp] theorem State.putByte_sst (s : State) (key : Nat) (b : Byte) : (s.putByte key b).sst = s.sst := (rfl)
@[simp] theorem State.putByte_cores (s : State) (key : Nat) (b : Byte) : (s.putByte key b).cores = s.cores := (rfl)
@[simp] theorem State.putByte_scratch (s : State) (key : Nat) (b : Byte) : (s.putByte key b).scratch = s.scratch := (rfl)
@[simp] theorem State.putByte_clusters (s : State) (key : Nat) (b : Byte) : (s.putByte key b).clusters = s.clusters := (rfl)
@[simp] theorem State.putByte_banks (s : State) (key : Nat) (b : Byte) : (s.putByte key b).banks = s.banks := (rfl)
@[simp] theorem State.putByte_mxes (s : State) (key : Nat) (b : Byte) : (s.putByte key b).mxes = s.mxes := (rfl)
@[simp] theorem State.putByte_vxes (s : State) (key : Nat) (b : Byte) : (s.putByte key b).vxes = s.vxes := (rfl)
@[simp] theorem State.putByte_bins (s : State) (key : Nat) (b : Byte) : (s.putByte key b).bins = s.bins := (rfl)
@[simp] theorem State.putByte_work (s : State) (key : Nat) (b : Byte) : (s.putByte key b).work = s.work := (rfl)
@[simp] theorem State.putByte_hstOp (s : State) (key : Nat) (b : Byte) : (s.putByte key b).hstOp = s.hstOp := (rfl)
@[simp] theorem State.putByte_ms (s : State) (key : Nat) (b : Byte) : (s.putByte key b).ms = s.ms := (rfl)
@[simp] theorem State.putByte_upd (s : State) (key : Nat) (b : Byte) : (s.putByte key b).upd = s.upd := (rfl)
@[simp] theorem State.putByte_commit (s : State) (key : Nat) (b : Byte) : (s.putByte key b).commit = s.commit := (rfl)
@[simp] theorem State.putByte_uus (s : State) (key : Nat) (b : Byte) : (s.putByte key b).uus = s.uus := (rfl)
@[simp] theorem State.putByte_journals (s : State) (key : Nat) (b : Byte) : (s.putByte key b).journals = s.journals := (rfl)
@[simp] theorem State.putByte_stg (s : State) (key : Nat) (b : Byte) : (s.putByte key b).stg = s.stg := (rfl)
@[simp] theorem State.putByte_sync (s : State) (key : Nat) (b : Byte) : (s.putByte key b).sync = s.sync := (rfl)
@[simp] theorem State.putByte_net (s : State) (key : Nat) (b : Byte) : (s.putByte key b).net = s.net := (rfl)
@[simp] theorem State.putByte_cr (s : State) (key : Nat) (b : Byte) : (s.putByte key b).cr = s.cr := (rfl)
@[simp] theorem State.putByte_host (s : State) (key : Nat) (b : Byte) : (s.putByte key b).host = s.host := (rfl)
@[simp] theorem State.putByte_rcv (s : State) (key : Nat) (b : Byte) : (s.putByte key b).rcv = s.rcv := (rfl)
@[simp] theorem State.putByte_ldg (s : State) (key : Nat) (b : Byte) : (s.putByte key b).ldg = s.ldg := (rfl)
@[simp] theorem State.putByte_pwr (s : State) (key : Nat) (b : Byte) : (s.putByte key b).pwr = s.pwr := (rfl)
@[simp] theorem State.putByte_boot (s : State) (key : Nat) (b : Byte) : (s.putByte key b).boot = s.boot := (rfl)
@[simp] theorem State.putByte_tap (s : State) (key : Nat) (b : Byte) : (s.putByte key b).tap = s.tap := (rfl)

/-! ## State.setBank -/

@[simp] theorem State.setBank_pending (s : State) (e b : Nat) (m : KMap W32) : (s.setBank e b m).pending = s.pending := (rfl)
@[simp] theorem State.setBank_free (s : State) (e b : Nat) (m : KMap W32) : (s.setBank e b m).free = s.free := (rfl)
@[simp] theorem State.setBank_rdData (s : State) (e b : Nat) (m : KMap W32) : (s.setBank e b m).rdData = s.rdData := (rfl)
@[simp] theorem State.setBank_regStatus (s : State) (e b : Nat) (m : KMap W32) : (s.setBank e b m).regStatus = s.regStatus := (rfl)
@[simp] theorem State.setBank_regs (s : State) (e b : Nat) (m : KMap W32) : (s.setBank e b m).regs = s.regs := (rfl)
@[simp] theorem State.setBank_errCtx (s : State) (e b : Nat) (m : KMap W32) : (s.setBank e b m).errCtx = s.errCtx := (rfl)
@[simp] theorem State.setBank_events (s : State) (e b : Nat) (m : KMap W32) : (s.setBank e b m).events = s.events := (rfl)
@[simp] theorem State.setBank_plat (s : State) (e b : Nat) (m : KMap W32) : (s.setBank e b m).plat = s.plat := (rfl)
@[simp] theorem State.setBank_sst (s : State) (e b : Nat) (m : KMap W32) : (s.setBank e b m).sst = s.sst := (rfl)
@[simp] theorem State.setBank_cores (s : State) (e b : Nat) (m : KMap W32) : (s.setBank e b m).cores = s.cores := (rfl)
@[simp] theorem State.setBank_scratch (s : State) (e b : Nat) (m : KMap W32) : (s.setBank e b m).scratch = s.scratch := (rfl)
@[simp] theorem State.setBank_clusters (s : State) (e b : Nat) (m : KMap W32) : (s.setBank e b m).clusters = s.clusters := (rfl)
@[simp] theorem State.setBank_mxes (s : State) (e b : Nat) (m : KMap W32) : (s.setBank e b m).mxes = s.mxes := (rfl)
@[simp] theorem State.setBank_vxes (s : State) (e b : Nat) (m : KMap W32) : (s.setBank e b m).vxes = s.vxes := (rfl)
@[simp] theorem State.setBank_bins (s : State) (e b : Nat) (m : KMap W32) : (s.setBank e b m).bins = s.bins := (rfl)
@[simp] theorem State.setBank_work (s : State) (e b : Nat) (m : KMap W32) : (s.setBank e b m).work = s.work := (rfl)
@[simp] theorem State.setBank_hstOp (s : State) (e b : Nat) (m : KMap W32) : (s.setBank e b m).hstOp = s.hstOp := (rfl)
@[simp] theorem State.setBank_mem (s : State) (e b : Nat) (m : KMap W32) : (s.setBank e b m).mem = s.mem := (rfl)
@[simp] theorem State.setBank_ms (s : State) (e b : Nat) (m : KMap W32) : (s.setBank e b m).ms = s.ms := (rfl)
@[simp] theorem State.setBank_upd (s : State) (e b : Nat) (m : KMap W32) : (s.setBank e b m).upd = s.upd := (rfl)
@[simp] theorem State.setBank_commit (s : State) (e b : Nat) (m : KMap W32) : (s.setBank e b m).commit = s.commit := (rfl)
@[simp] theorem State.setBank_uus (s : State) (e b : Nat) (m : KMap W32) : (s.setBank e b m).uus = s.uus := (rfl)
@[simp] theorem State.setBank_journals (s : State) (e b : Nat) (m : KMap W32) : (s.setBank e b m).journals = s.journals := (rfl)
@[simp] theorem State.setBank_stg (s : State) (e b : Nat) (m : KMap W32) : (s.setBank e b m).stg = s.stg := (rfl)
@[simp] theorem State.setBank_sync (s : State) (e b : Nat) (m : KMap W32) : (s.setBank e b m).sync = s.sync := (rfl)
@[simp] theorem State.setBank_net (s : State) (e b : Nat) (m : KMap W32) : (s.setBank e b m).net = s.net := (rfl)
@[simp] theorem State.setBank_cr (s : State) (e b : Nat) (m : KMap W32) : (s.setBank e b m).cr = s.cr := (rfl)
@[simp] theorem State.setBank_host (s : State) (e b : Nat) (m : KMap W32) : (s.setBank e b m).host = s.host := (rfl)
@[simp] theorem State.setBank_rcv (s : State) (e b : Nat) (m : KMap W32) : (s.setBank e b m).rcv = s.rcv := (rfl)
@[simp] theorem State.setBank_ldg (s : State) (e b : Nat) (m : KMap W32) : (s.setBank e b m).ldg = s.ldg := (rfl)
@[simp] theorem State.setBank_pwr (s : State) (e b : Nat) (m : KMap W32) : (s.setBank e b m).pwr = s.pwr := (rfl)
@[simp] theorem State.setBank_boot (s : State) (e b : Nat) (m : KMap W32) : (s.setBank e b m).boot = s.boot := (rfl)
@[simp] theorem State.setBank_tap (s : State) (e b : Nat) (m : KMap W32) : (s.setBank e b m).tap = s.tap := (rfl)

/-! ## State.setPort -/

@[simp] theorem State.setPort_pending (s : State) (p : Nat) (x : Port) : (s.setPort p x).pending = s.pending := (rfl)
@[simp] theorem State.setPort_free (s : State) (p : Nat) (x : Port) : (s.setPort p x).free = s.free := (rfl)
@[simp] theorem State.setPort_rdData (s : State) (p : Nat) (x : Port) : (s.setPort p x).rdData = s.rdData := (rfl)
@[simp] theorem State.setPort_regStatus (s : State) (p : Nat) (x : Port) : (s.setPort p x).regStatus = s.regStatus := (rfl)
@[simp] theorem State.setPort_regs (s : State) (p : Nat) (x : Port) : (s.setPort p x).regs = s.regs := (rfl)
@[simp] theorem State.setPort_errCtx (s : State) (p : Nat) (x : Port) : (s.setPort p x).errCtx = s.errCtx := (rfl)
@[simp] theorem State.setPort_events (s : State) (p : Nat) (x : Port) : (s.setPort p x).events = s.events := (rfl)
@[simp] theorem State.setPort_plat (s : State) (p : Nat) (x : Port) : (s.setPort p x).plat = s.plat := (rfl)
@[simp] theorem State.setPort_sst (s : State) (p : Nat) (x : Port) : (s.setPort p x).sst = s.sst := (rfl)
@[simp] theorem State.setPort_cores (s : State) (p : Nat) (x : Port) : (s.setPort p x).cores = s.cores := (rfl)
@[simp] theorem State.setPort_scratch (s : State) (p : Nat) (x : Port) : (s.setPort p x).scratch = s.scratch := (rfl)
@[simp] theorem State.setPort_clusters (s : State) (p : Nat) (x : Port) : (s.setPort p x).clusters = s.clusters := (rfl)
@[simp] theorem State.setPort_banks (s : State) (p : Nat) (x : Port) : (s.setPort p x).banks = s.banks := (rfl)
@[simp] theorem State.setPort_mxes (s : State) (p : Nat) (x : Port) : (s.setPort p x).mxes = s.mxes := (rfl)
@[simp] theorem State.setPort_vxes (s : State) (p : Nat) (x : Port) : (s.setPort p x).vxes = s.vxes := (rfl)
@[simp] theorem State.setPort_bins (s : State) (p : Nat) (x : Port) : (s.setPort p x).bins = s.bins := (rfl)
@[simp] theorem State.setPort_work (s : State) (p : Nat) (x : Port) : (s.setPort p x).work = s.work := (rfl)
@[simp] theorem State.setPort_hstOp (s : State) (p : Nat) (x : Port) : (s.setPort p x).hstOp = s.hstOp := (rfl)
@[simp] theorem State.setPort_mem (s : State) (p : Nat) (x : Port) : (s.setPort p x).mem = s.mem := (rfl)
@[simp] theorem State.setPort_ms (s : State) (p : Nat) (x : Port) : (s.setPort p x).ms = s.ms := (rfl)
@[simp] theorem State.setPort_upd (s : State) (p : Nat) (x : Port) : (s.setPort p x).upd = s.upd := (rfl)
@[simp] theorem State.setPort_commit (s : State) (p : Nat) (x : Port) : (s.setPort p x).commit = s.commit := (rfl)
@[simp] theorem State.setPort_uus (s : State) (p : Nat) (x : Port) : (s.setPort p x).uus = s.uus := (rfl)
@[simp] theorem State.setPort_journals (s : State) (p : Nat) (x : Port) : (s.setPort p x).journals = s.journals := (rfl)
@[simp] theorem State.setPort_stg (s : State) (p : Nat) (x : Port) : (s.setPort p x).stg = s.stg := (rfl)
@[simp] theorem State.setPort_sync (s : State) (p : Nat) (x : Port) : (s.setPort p x).sync = s.sync := (rfl)
@[simp] theorem State.setPort_cr (s : State) (p : Nat) (x : Port) : (s.setPort p x).cr = s.cr := (rfl)
@[simp] theorem State.setPort_host (s : State) (p : Nat) (x : Port) : (s.setPort p x).host = s.host := (rfl)
@[simp] theorem State.setPort_rcv (s : State) (p : Nat) (x : Port) : (s.setPort p x).rcv = s.rcv := (rfl)
@[simp] theorem State.setPort_ldg (s : State) (p : Nat) (x : Port) : (s.setPort p x).ldg = s.ldg := (rfl)
@[simp] theorem State.setPort_pwr (s : State) (p : Nat) (x : Port) : (s.setPort p x).pwr = s.pwr := (rfl)
@[simp] theorem State.setPort_boot (s : State) (p : Nat) (x : Port) : (s.setPort p x).boot = s.boot := (rfl)
@[simp] theorem State.setPort_tap (s : State) (p : Nat) (x : Port) : (s.setPort p x).tap = s.tap := (rfl)

/-! ## State.setSlot -/

@[simp] theorem State.setSlot_pending (s : State) (k : Nat) (x : Slot) : (s.setSlot k x).pending = s.pending := (rfl)
@[simp] theorem State.setSlot_free (s : State) (k : Nat) (x : Slot) : (s.setSlot k x).free = s.free := (rfl)
@[simp] theorem State.setSlot_rdData (s : State) (k : Nat) (x : Slot) : (s.setSlot k x).rdData = s.rdData := (rfl)
@[simp] theorem State.setSlot_regStatus (s : State) (k : Nat) (x : Slot) : (s.setSlot k x).regStatus = s.regStatus := (rfl)
@[simp] theorem State.setSlot_regs (s : State) (k : Nat) (x : Slot) : (s.setSlot k x).regs = s.regs := (rfl)
@[simp] theorem State.setSlot_errCtx (s : State) (k : Nat) (x : Slot) : (s.setSlot k x).errCtx = s.errCtx := (rfl)
@[simp] theorem State.setSlot_events (s : State) (k : Nat) (x : Slot) : (s.setSlot k x).events = s.events := (rfl)
@[simp] theorem State.setSlot_plat (s : State) (k : Nat) (x : Slot) : (s.setSlot k x).plat = s.plat := (rfl)
@[simp] theorem State.setSlot_sst (s : State) (k : Nat) (x : Slot) : (s.setSlot k x).sst = s.sst := (rfl)
@[simp] theorem State.setSlot_cores (s : State) (k : Nat) (x : Slot) : (s.setSlot k x).cores = s.cores := (rfl)
@[simp] theorem State.setSlot_scratch (s : State) (k : Nat) (x : Slot) : (s.setSlot k x).scratch = s.scratch := (rfl)
@[simp] theorem State.setSlot_clusters (s : State) (k : Nat) (x : Slot) : (s.setSlot k x).clusters = s.clusters := (rfl)
@[simp] theorem State.setSlot_banks (s : State) (k : Nat) (x : Slot) : (s.setSlot k x).banks = s.banks := (rfl)
@[simp] theorem State.setSlot_mxes (s : State) (k : Nat) (x : Slot) : (s.setSlot k x).mxes = s.mxes := (rfl)
@[simp] theorem State.setSlot_vxes (s : State) (k : Nat) (x : Slot) : (s.setSlot k x).vxes = s.vxes := (rfl)
@[simp] theorem State.setSlot_bins (s : State) (k : Nat) (x : Slot) : (s.setSlot k x).bins = s.bins := (rfl)
@[simp] theorem State.setSlot_work (s : State) (k : Nat) (x : Slot) : (s.setSlot k x).work = s.work := (rfl)
@[simp] theorem State.setSlot_hstOp (s : State) (k : Nat) (x : Slot) : (s.setSlot k x).hstOp = s.hstOp := (rfl)
@[simp] theorem State.setSlot_mem (s : State) (k : Nat) (x : Slot) : (s.setSlot k x).mem = s.mem := (rfl)
@[simp] theorem State.setSlot_ms (s : State) (k : Nat) (x : Slot) : (s.setSlot k x).ms = s.ms := (rfl)
@[simp] theorem State.setSlot_upd (s : State) (k : Nat) (x : Slot) : (s.setSlot k x).upd = s.upd := (rfl)
@[simp] theorem State.setSlot_commit (s : State) (k : Nat) (x : Slot) : (s.setSlot k x).commit = s.commit := (rfl)
@[simp] theorem State.setSlot_uus (s : State) (k : Nat) (x : Slot) : (s.setSlot k x).uus = s.uus := (rfl)
@[simp] theorem State.setSlot_journals (s : State) (k : Nat) (x : Slot) : (s.setSlot k x).journals = s.journals := (rfl)
@[simp] theorem State.setSlot_stg (s : State) (k : Nat) (x : Slot) : (s.setSlot k x).stg = s.stg := (rfl)
@[simp] theorem State.setSlot_sync (s : State) (k : Nat) (x : Slot) : (s.setSlot k x).sync = s.sync := (rfl)
@[simp] theorem State.setSlot_cr (s : State) (k : Nat) (x : Slot) : (s.setSlot k x).cr = s.cr := (rfl)
@[simp] theorem State.setSlot_host (s : State) (k : Nat) (x : Slot) : (s.setSlot k x).host = s.host := (rfl)
@[simp] theorem State.setSlot_rcv (s : State) (k : Nat) (x : Slot) : (s.setSlot k x).rcv = s.rcv := (rfl)
@[simp] theorem State.setSlot_ldg (s : State) (k : Nat) (x : Slot) : (s.setSlot k x).ldg = s.ldg := (rfl)
@[simp] theorem State.setSlot_pwr (s : State) (k : Nat) (x : Slot) : (s.setSlot k x).pwr = s.pwr := (rfl)
@[simp] theorem State.setSlot_boot (s : State) (k : Nat) (x : Slot) : (s.setSlot k x).boot = s.boot := (rfl)
@[simp] theorem State.setSlot_tap (s : State) (k : Nat) (x : Slot) : (s.setSlot k x).tap = s.tap := (rfl)

/-! ## State.wait -/

@[simp] theorem State.wait_pending (s : State) (c rd : Nat) (why : Why) : (s.wait c rd why).pending = s.pending := (rfl)
@[simp] theorem State.wait_free (s : State) (c rd : Nat) (why : Why) : (s.wait c rd why).free = s.free := (rfl)
@[simp] theorem State.wait_rdData (s : State) (c rd : Nat) (why : Why) : (s.wait c rd why).rdData = s.rdData := (rfl)
@[simp] theorem State.wait_regStatus (s : State) (c rd : Nat) (why : Why) : (s.wait c rd why).regStatus = s.regStatus := (rfl)
@[simp] theorem State.wait_regs (s : State) (c rd : Nat) (why : Why) : (s.wait c rd why).regs = s.regs := (rfl)
@[simp] theorem State.wait_errCtx (s : State) (c rd : Nat) (why : Why) : (s.wait c rd why).errCtx = s.errCtx := (rfl)
@[simp] theorem State.wait_events (s : State) (c rd : Nat) (why : Why) : (s.wait c rd why).events = s.events := (rfl)
@[simp] theorem State.wait_plat (s : State) (c rd : Nat) (why : Why) : (s.wait c rd why).plat = s.plat := (rfl)
@[simp] theorem State.wait_sst (s : State) (c rd : Nat) (why : Why) : (s.wait c rd why).sst = s.sst := (rfl)
@[simp] theorem State.wait_cores (s : State) (c rd : Nat) (why : Why) : (s.wait c rd why).cores = s.cores := (rfl)
@[simp] theorem State.wait_scratch (s : State) (c rd : Nat) (why : Why) : (s.wait c rd why).scratch = s.scratch := (rfl)
@[simp] theorem State.wait_clusters (s : State) (c rd : Nat) (why : Why) : (s.wait c rd why).clusters = s.clusters := (rfl)
@[simp] theorem State.wait_banks (s : State) (c rd : Nat) (why : Why) : (s.wait c rd why).banks = s.banks := (rfl)
@[simp] theorem State.wait_mxes (s : State) (c rd : Nat) (why : Why) : (s.wait c rd why).mxes = s.mxes := (rfl)
@[simp] theorem State.wait_vxes (s : State) (c rd : Nat) (why : Why) : (s.wait c rd why).vxes = s.vxes := (rfl)
@[simp] theorem State.wait_bins (s : State) (c rd : Nat) (why : Why) : (s.wait c rd why).bins = s.bins := (rfl)
@[simp] theorem State.wait_work (s : State) (c rd : Nat) (why : Why) : (s.wait c rd why).work = s.work := (rfl)
@[simp] theorem State.wait_hstOp (s : State) (c rd : Nat) (why : Why) : (s.wait c rd why).hstOp = s.hstOp := (rfl)
@[simp] theorem State.wait_mem (s : State) (c rd : Nat) (why : Why) : (s.wait c rd why).mem = s.mem := (rfl)
@[simp] theorem State.wait_ms (s : State) (c rd : Nat) (why : Why) : (s.wait c rd why).ms = s.ms := (rfl)
@[simp] theorem State.wait_upd (s : State) (c rd : Nat) (why : Why) : (s.wait c rd why).upd = s.upd := (rfl)
@[simp] theorem State.wait_commit (s : State) (c rd : Nat) (why : Why) : (s.wait c rd why).commit = s.commit := (rfl)
@[simp] theorem State.wait_uus (s : State) (c rd : Nat) (why : Why) : (s.wait c rd why).uus = s.uus := (rfl)
@[simp] theorem State.wait_journals (s : State) (c rd : Nat) (why : Why) : (s.wait c rd why).journals = s.journals := (rfl)
@[simp] theorem State.wait_stg (s : State) (c rd : Nat) (why : Why) : (s.wait c rd why).stg = s.stg := (rfl)
@[simp] theorem State.wait_net (s : State) (c rd : Nat) (why : Why) : (s.wait c rd why).net = s.net := (rfl)
@[simp] theorem State.wait_cr (s : State) (c rd : Nat) (why : Why) : (s.wait c rd why).cr = s.cr := (rfl)
@[simp] theorem State.wait_host (s : State) (c rd : Nat) (why : Why) : (s.wait c rd why).host = s.host := (rfl)
@[simp] theorem State.wait_rcv (s : State) (c rd : Nat) (why : Why) : (s.wait c rd why).rcv = s.rcv := (rfl)
@[simp] theorem State.wait_ldg (s : State) (c rd : Nat) (why : Why) : (s.wait c rd why).ldg = s.ldg := (rfl)
@[simp] theorem State.wait_pwr (s : State) (c rd : Nat) (why : Why) : (s.wait c rd why).pwr = s.pwr := (rfl)
@[simp] theorem State.wait_boot (s : State) (c rd : Nat) (why : Why) : (s.wait c rd why).boot = s.boot := (rfl)
@[simp] theorem State.wait_tap (s : State) (c rd : Nat) (why : Why) : (s.wait c rd why).tap = s.tap := (rfl)

/-! ## State.setScratchByte -/

@[simp] theorem State.setScratchByte_pending (s : State) (c a : Nat) (b : Byte) : (s.setScratchByte c a b).pending = s.pending := (rfl)
@[simp] theorem State.setScratchByte_free (s : State) (c a : Nat) (b : Byte) : (s.setScratchByte c a b).free = s.free := (rfl)
@[simp] theorem State.setScratchByte_rdData (s : State) (c a : Nat) (b : Byte) : (s.setScratchByte c a b).rdData = s.rdData := (rfl)
@[simp] theorem State.setScratchByte_regStatus (s : State) (c a : Nat) (b : Byte) : (s.setScratchByte c a b).regStatus = s.regStatus := (rfl)
@[simp] theorem State.setScratchByte_regs (s : State) (c a : Nat) (b : Byte) : (s.setScratchByte c a b).regs = s.regs := (rfl)
@[simp] theorem State.setScratchByte_errCtx (s : State) (c a : Nat) (b : Byte) : (s.setScratchByte c a b).errCtx = s.errCtx := (rfl)
@[simp] theorem State.setScratchByte_events (s : State) (c a : Nat) (b : Byte) : (s.setScratchByte c a b).events = s.events := (rfl)
@[simp] theorem State.setScratchByte_plat (s : State) (c a : Nat) (b : Byte) : (s.setScratchByte c a b).plat = s.plat := (rfl)
@[simp] theorem State.setScratchByte_sst (s : State) (c a : Nat) (b : Byte) : (s.setScratchByte c a b).sst = s.sst := (rfl)
@[simp] theorem State.setScratchByte_cores (s : State) (c a : Nat) (b : Byte) : (s.setScratchByte c a b).cores = s.cores := (rfl)
@[simp] theorem State.setScratchByte_clusters (s : State) (c a : Nat) (b : Byte) : (s.setScratchByte c a b).clusters = s.clusters := (rfl)
@[simp] theorem State.setScratchByte_banks (s : State) (c a : Nat) (b : Byte) : (s.setScratchByte c a b).banks = s.banks := (rfl)
@[simp] theorem State.setScratchByte_mxes (s : State) (c a : Nat) (b : Byte) : (s.setScratchByte c a b).mxes = s.mxes := (rfl)
@[simp] theorem State.setScratchByte_vxes (s : State) (c a : Nat) (b : Byte) : (s.setScratchByte c a b).vxes = s.vxes := (rfl)
@[simp] theorem State.setScratchByte_bins (s : State) (c a : Nat) (b : Byte) : (s.setScratchByte c a b).bins = s.bins := (rfl)
@[simp] theorem State.setScratchByte_work (s : State) (c a : Nat) (b : Byte) : (s.setScratchByte c a b).work = s.work := (rfl)
@[simp] theorem State.setScratchByte_hstOp (s : State) (c a : Nat) (b : Byte) : (s.setScratchByte c a b).hstOp = s.hstOp := (rfl)
@[simp] theorem State.setScratchByte_mem (s : State) (c a : Nat) (b : Byte) : (s.setScratchByte c a b).mem = s.mem := (rfl)
@[simp] theorem State.setScratchByte_ms (s : State) (c a : Nat) (b : Byte) : (s.setScratchByte c a b).ms = s.ms := (rfl)
@[simp] theorem State.setScratchByte_upd (s : State) (c a : Nat) (b : Byte) : (s.setScratchByte c a b).upd = s.upd := (rfl)
@[simp] theorem State.setScratchByte_commit (s : State) (c a : Nat) (b : Byte) : (s.setScratchByte c a b).commit = s.commit := (rfl)
@[simp] theorem State.setScratchByte_uus (s : State) (c a : Nat) (b : Byte) : (s.setScratchByte c a b).uus = s.uus := (rfl)
@[simp] theorem State.setScratchByte_journals (s : State) (c a : Nat) (b : Byte) : (s.setScratchByte c a b).journals = s.journals := (rfl)
@[simp] theorem State.setScratchByte_stg (s : State) (c a : Nat) (b : Byte) : (s.setScratchByte c a b).stg = s.stg := (rfl)
@[simp] theorem State.setScratchByte_sync (s : State) (c a : Nat) (b : Byte) : (s.setScratchByte c a b).sync = s.sync := (rfl)
@[simp] theorem State.setScratchByte_net (s : State) (c a : Nat) (b : Byte) : (s.setScratchByte c a b).net = s.net := (rfl)
@[simp] theorem State.setScratchByte_cr (s : State) (c a : Nat) (b : Byte) : (s.setScratchByte c a b).cr = s.cr := (rfl)
@[simp] theorem State.setScratchByte_host (s : State) (c a : Nat) (b : Byte) : (s.setScratchByte c a b).host = s.host := (rfl)
@[simp] theorem State.setScratchByte_rcv (s : State) (c a : Nat) (b : Byte) : (s.setScratchByte c a b).rcv = s.rcv := (rfl)
@[simp] theorem State.setScratchByte_ldg (s : State) (c a : Nat) (b : Byte) : (s.setScratchByte c a b).ldg = s.ldg := (rfl)
@[simp] theorem State.setScratchByte_pwr (s : State) (c a : Nat) (b : Byte) : (s.setScratchByte c a b).pwr = s.pwr := (rfl)
@[simp] theorem State.setScratchByte_boot (s : State) (c a : Nat) (b : Byte) : (s.setScratchByte c a b).boot = s.boot := (rfl)
@[simp] theorem State.setScratchByte_tap (s : State) (c a : Nat) (b : Byte) : (s.setScratchByte c a b).tap = s.tap := (rfl)

/-! ## State.withPending -/

@[simp] theorem State.withPending_pending (s : State) (x : List Instr) : (s.withPending x).pending = x := (rfl)
@[simp] theorem State.withPending_free (s : State) (x : List Instr) : (s.withPending x).free = s.free := (rfl)
@[simp] theorem State.withPending_rdData (s : State) (x : List Instr) : (s.withPending x).rdData = s.rdData := (rfl)
@[simp] theorem State.withPending_regStatus (s : State) (x : List Instr) : (s.withPending x).regStatus = s.regStatus := (rfl)
@[simp] theorem State.withPending_regs (s : State) (x : List Instr) : (s.withPending x).regs = s.regs := (rfl)
@[simp] theorem State.withPending_errCtx (s : State) (x : List Instr) : (s.withPending x).errCtx = s.errCtx := (rfl)
@[simp] theorem State.withPending_events (s : State) (x : List Instr) : (s.withPending x).events = s.events := (rfl)
@[simp] theorem State.withPending_plat (s : State) (x : List Instr) : (s.withPending x).plat = s.plat := (rfl)
@[simp] theorem State.withPending_sst (s : State) (x : List Instr) : (s.withPending x).sst = s.sst := (rfl)
@[simp] theorem State.withPending_cores (s : State) (x : List Instr) : (s.withPending x).cores = s.cores := (rfl)
@[simp] theorem State.withPending_scratch (s : State) (x : List Instr) : (s.withPending x).scratch = s.scratch := (rfl)
@[simp] theorem State.withPending_clusters (s : State) (x : List Instr) : (s.withPending x).clusters = s.clusters := (rfl)
@[simp] theorem State.withPending_banks (s : State) (x : List Instr) : (s.withPending x).banks = s.banks := (rfl)
@[simp] theorem State.withPending_mxes (s : State) (x : List Instr) : (s.withPending x).mxes = s.mxes := (rfl)
@[simp] theorem State.withPending_vxes (s : State) (x : List Instr) : (s.withPending x).vxes = s.vxes := (rfl)
@[simp] theorem State.withPending_bins (s : State) (x : List Instr) : (s.withPending x).bins = s.bins := (rfl)
@[simp] theorem State.withPending_work (s : State) (x : List Instr) : (s.withPending x).work = s.work := (rfl)
@[simp] theorem State.withPending_hstOp (s : State) (x : List Instr) : (s.withPending x).hstOp = s.hstOp := (rfl)
@[simp] theorem State.withPending_mem (s : State) (x : List Instr) : (s.withPending x).mem = s.mem := (rfl)
@[simp] theorem State.withPending_ms (s : State) (x : List Instr) : (s.withPending x).ms = s.ms := (rfl)
@[simp] theorem State.withPending_upd (s : State) (x : List Instr) : (s.withPending x).upd = s.upd := (rfl)
@[simp] theorem State.withPending_commit (s : State) (x : List Instr) : (s.withPending x).commit = s.commit := (rfl)
@[simp] theorem State.withPending_uus (s : State) (x : List Instr) : (s.withPending x).uus = s.uus := (rfl)
@[simp] theorem State.withPending_journals (s : State) (x : List Instr) : (s.withPending x).journals = s.journals := (rfl)
@[simp] theorem State.withPending_stg (s : State) (x : List Instr) : (s.withPending x).stg = s.stg := (rfl)
@[simp] theorem State.withPending_sync (s : State) (x : List Instr) : (s.withPending x).sync = s.sync := (rfl)
@[simp] theorem State.withPending_net (s : State) (x : List Instr) : (s.withPending x).net = s.net := (rfl)
@[simp] theorem State.withPending_cr (s : State) (x : List Instr) : (s.withPending x).cr = s.cr := (rfl)
@[simp] theorem State.withPending_host (s : State) (x : List Instr) : (s.withPending x).host = s.host := (rfl)
@[simp] theorem State.withPending_rcv (s : State) (x : List Instr) : (s.withPending x).rcv = s.rcv := (rfl)
@[simp] theorem State.withPending_ldg (s : State) (x : List Instr) : (s.withPending x).ldg = s.ldg := (rfl)
@[simp] theorem State.withPending_pwr (s : State) (x : List Instr) : (s.withPending x).pwr = s.pwr := (rfl)
@[simp] theorem State.withPending_boot (s : State) (x : List Instr) : (s.withPending x).boot = s.boot := (rfl)
@[simp] theorem State.withPending_tap (s : State) (x : List Instr) : (s.withPending x).tap = s.tap := (rfl)

/-! ## State.withFree -/

@[simp] theorem State.withFree_free (s : State) (x : Nat) : (s.withFree x).free = x := (rfl)
@[simp] theorem State.withFree_pending (s : State) (x : Nat) : (s.withFree x).pending = s.pending := (rfl)
@[simp] theorem State.withFree_rdData (s : State) (x : Nat) : (s.withFree x).rdData = s.rdData := (rfl)
@[simp] theorem State.withFree_regStatus (s : State) (x : Nat) : (s.withFree x).regStatus = s.regStatus := (rfl)
@[simp] theorem State.withFree_regs (s : State) (x : Nat) : (s.withFree x).regs = s.regs := (rfl)
@[simp] theorem State.withFree_errCtx (s : State) (x : Nat) : (s.withFree x).errCtx = s.errCtx := (rfl)
@[simp] theorem State.withFree_events (s : State) (x : Nat) : (s.withFree x).events = s.events := (rfl)
@[simp] theorem State.withFree_plat (s : State) (x : Nat) : (s.withFree x).plat = s.plat := (rfl)
@[simp] theorem State.withFree_sst (s : State) (x : Nat) : (s.withFree x).sst = s.sst := (rfl)
@[simp] theorem State.withFree_cores (s : State) (x : Nat) : (s.withFree x).cores = s.cores := (rfl)
@[simp] theorem State.withFree_scratch (s : State) (x : Nat) : (s.withFree x).scratch = s.scratch := (rfl)
@[simp] theorem State.withFree_clusters (s : State) (x : Nat) : (s.withFree x).clusters = s.clusters := (rfl)
@[simp] theorem State.withFree_banks (s : State) (x : Nat) : (s.withFree x).banks = s.banks := (rfl)
@[simp] theorem State.withFree_mxes (s : State) (x : Nat) : (s.withFree x).mxes = s.mxes := (rfl)
@[simp] theorem State.withFree_vxes (s : State) (x : Nat) : (s.withFree x).vxes = s.vxes := (rfl)
@[simp] theorem State.withFree_bins (s : State) (x : Nat) : (s.withFree x).bins = s.bins := (rfl)
@[simp] theorem State.withFree_work (s : State) (x : Nat) : (s.withFree x).work = s.work := (rfl)
@[simp] theorem State.withFree_hstOp (s : State) (x : Nat) : (s.withFree x).hstOp = s.hstOp := (rfl)
@[simp] theorem State.withFree_mem (s : State) (x : Nat) : (s.withFree x).mem = s.mem := (rfl)
@[simp] theorem State.withFree_ms (s : State) (x : Nat) : (s.withFree x).ms = s.ms := (rfl)
@[simp] theorem State.withFree_upd (s : State) (x : Nat) : (s.withFree x).upd = s.upd := (rfl)
@[simp] theorem State.withFree_commit (s : State) (x : Nat) : (s.withFree x).commit = s.commit := (rfl)
@[simp] theorem State.withFree_uus (s : State) (x : Nat) : (s.withFree x).uus = s.uus := (rfl)
@[simp] theorem State.withFree_journals (s : State) (x : Nat) : (s.withFree x).journals = s.journals := (rfl)
@[simp] theorem State.withFree_stg (s : State) (x : Nat) : (s.withFree x).stg = s.stg := (rfl)
@[simp] theorem State.withFree_sync (s : State) (x : Nat) : (s.withFree x).sync = s.sync := (rfl)
@[simp] theorem State.withFree_net (s : State) (x : Nat) : (s.withFree x).net = s.net := (rfl)
@[simp] theorem State.withFree_cr (s : State) (x : Nat) : (s.withFree x).cr = s.cr := (rfl)
@[simp] theorem State.withFree_host (s : State) (x : Nat) : (s.withFree x).host = s.host := (rfl)
@[simp] theorem State.withFree_rcv (s : State) (x : Nat) : (s.withFree x).rcv = s.rcv := (rfl)
@[simp] theorem State.withFree_ldg (s : State) (x : Nat) : (s.withFree x).ldg = s.ldg := (rfl)
@[simp] theorem State.withFree_pwr (s : State) (x : Nat) : (s.withFree x).pwr = s.pwr := (rfl)
@[simp] theorem State.withFree_boot (s : State) (x : Nat) : (s.withFree x).boot = s.boot := (rfl)
@[simp] theorem State.withFree_tap (s : State) (x : Nat) : (s.withFree x).tap = s.tap := (rfl)

/-! ## State.withRdData -/

@[simp] theorem State.withRdData_rdData (s : State) (x : W64) : (s.withRdData x).rdData = x := (rfl)
@[simp] theorem State.withRdData_pending (s : State) (x : W64) : (s.withRdData x).pending = s.pending := (rfl)
@[simp] theorem State.withRdData_free (s : State) (x : W64) : (s.withRdData x).free = s.free := (rfl)
@[simp] theorem State.withRdData_regStatus (s : State) (x : W64) : (s.withRdData x).regStatus = s.regStatus := (rfl)
@[simp] theorem State.withRdData_regs (s : State) (x : W64) : (s.withRdData x).regs = s.regs := (rfl)
@[simp] theorem State.withRdData_errCtx (s : State) (x : W64) : (s.withRdData x).errCtx = s.errCtx := (rfl)
@[simp] theorem State.withRdData_events (s : State) (x : W64) : (s.withRdData x).events = s.events := (rfl)
@[simp] theorem State.withRdData_plat (s : State) (x : W64) : (s.withRdData x).plat = s.plat := (rfl)
@[simp] theorem State.withRdData_sst (s : State) (x : W64) : (s.withRdData x).sst = s.sst := (rfl)
@[simp] theorem State.withRdData_cores (s : State) (x : W64) : (s.withRdData x).cores = s.cores := (rfl)
@[simp] theorem State.withRdData_scratch (s : State) (x : W64) : (s.withRdData x).scratch = s.scratch := (rfl)
@[simp] theorem State.withRdData_clusters (s : State) (x : W64) : (s.withRdData x).clusters = s.clusters := (rfl)
@[simp] theorem State.withRdData_banks (s : State) (x : W64) : (s.withRdData x).banks = s.banks := (rfl)
@[simp] theorem State.withRdData_mxes (s : State) (x : W64) : (s.withRdData x).mxes = s.mxes := (rfl)
@[simp] theorem State.withRdData_vxes (s : State) (x : W64) : (s.withRdData x).vxes = s.vxes := (rfl)
@[simp] theorem State.withRdData_bins (s : State) (x : W64) : (s.withRdData x).bins = s.bins := (rfl)
@[simp] theorem State.withRdData_work (s : State) (x : W64) : (s.withRdData x).work = s.work := (rfl)
@[simp] theorem State.withRdData_hstOp (s : State) (x : W64) : (s.withRdData x).hstOp = s.hstOp := (rfl)
@[simp] theorem State.withRdData_mem (s : State) (x : W64) : (s.withRdData x).mem = s.mem := (rfl)
@[simp] theorem State.withRdData_ms (s : State) (x : W64) : (s.withRdData x).ms = s.ms := (rfl)
@[simp] theorem State.withRdData_upd (s : State) (x : W64) : (s.withRdData x).upd = s.upd := (rfl)
@[simp] theorem State.withRdData_commit (s : State) (x : W64) : (s.withRdData x).commit = s.commit := (rfl)
@[simp] theorem State.withRdData_uus (s : State) (x : W64) : (s.withRdData x).uus = s.uus := (rfl)
@[simp] theorem State.withRdData_journals (s : State) (x : W64) : (s.withRdData x).journals = s.journals := (rfl)
@[simp] theorem State.withRdData_stg (s : State) (x : W64) : (s.withRdData x).stg = s.stg := (rfl)
@[simp] theorem State.withRdData_sync (s : State) (x : W64) : (s.withRdData x).sync = s.sync := (rfl)
@[simp] theorem State.withRdData_net (s : State) (x : W64) : (s.withRdData x).net = s.net := (rfl)
@[simp] theorem State.withRdData_cr (s : State) (x : W64) : (s.withRdData x).cr = s.cr := (rfl)
@[simp] theorem State.withRdData_host (s : State) (x : W64) : (s.withRdData x).host = s.host := (rfl)
@[simp] theorem State.withRdData_rcv (s : State) (x : W64) : (s.withRdData x).rcv = s.rcv := (rfl)
@[simp] theorem State.withRdData_ldg (s : State) (x : W64) : (s.withRdData x).ldg = s.ldg := (rfl)
@[simp] theorem State.withRdData_pwr (s : State) (x : W64) : (s.withRdData x).pwr = s.pwr := (rfl)
@[simp] theorem State.withRdData_boot (s : State) (x : W64) : (s.withRdData x).boot = s.boot := (rfl)
@[simp] theorem State.withRdData_tap (s : State) (x : W64) : (s.withRdData x).tap = s.tap := (rfl)

/-! ## State.withRegStatus -/

@[simp] theorem State.withRegStatus_regStatus (s : State) (x : Nat) : (s.withRegStatus x).regStatus = x := (rfl)
@[simp] theorem State.withRegStatus_pending (s : State) (x : Nat) : (s.withRegStatus x).pending = s.pending := (rfl)
@[simp] theorem State.withRegStatus_free (s : State) (x : Nat) : (s.withRegStatus x).free = s.free := (rfl)
@[simp] theorem State.withRegStatus_rdData (s : State) (x : Nat) : (s.withRegStatus x).rdData = s.rdData := (rfl)
@[simp] theorem State.withRegStatus_regs (s : State) (x : Nat) : (s.withRegStatus x).regs = s.regs := (rfl)
@[simp] theorem State.withRegStatus_errCtx (s : State) (x : Nat) : (s.withRegStatus x).errCtx = s.errCtx := (rfl)
@[simp] theorem State.withRegStatus_events (s : State) (x : Nat) : (s.withRegStatus x).events = s.events := (rfl)
@[simp] theorem State.withRegStatus_plat (s : State) (x : Nat) : (s.withRegStatus x).plat = s.plat := (rfl)
@[simp] theorem State.withRegStatus_sst (s : State) (x : Nat) : (s.withRegStatus x).sst = s.sst := (rfl)
@[simp] theorem State.withRegStatus_cores (s : State) (x : Nat) : (s.withRegStatus x).cores = s.cores := (rfl)
@[simp] theorem State.withRegStatus_scratch (s : State) (x : Nat) : (s.withRegStatus x).scratch = s.scratch := (rfl)
@[simp] theorem State.withRegStatus_clusters (s : State) (x : Nat) : (s.withRegStatus x).clusters = s.clusters := (rfl)
@[simp] theorem State.withRegStatus_banks (s : State) (x : Nat) : (s.withRegStatus x).banks = s.banks := (rfl)
@[simp] theorem State.withRegStatus_mxes (s : State) (x : Nat) : (s.withRegStatus x).mxes = s.mxes := (rfl)
@[simp] theorem State.withRegStatus_vxes (s : State) (x : Nat) : (s.withRegStatus x).vxes = s.vxes := (rfl)
@[simp] theorem State.withRegStatus_bins (s : State) (x : Nat) : (s.withRegStatus x).bins = s.bins := (rfl)
@[simp] theorem State.withRegStatus_work (s : State) (x : Nat) : (s.withRegStatus x).work = s.work := (rfl)
@[simp] theorem State.withRegStatus_hstOp (s : State) (x : Nat) : (s.withRegStatus x).hstOp = s.hstOp := (rfl)
@[simp] theorem State.withRegStatus_mem (s : State) (x : Nat) : (s.withRegStatus x).mem = s.mem := (rfl)
@[simp] theorem State.withRegStatus_ms (s : State) (x : Nat) : (s.withRegStatus x).ms = s.ms := (rfl)
@[simp] theorem State.withRegStatus_upd (s : State) (x : Nat) : (s.withRegStatus x).upd = s.upd := (rfl)
@[simp] theorem State.withRegStatus_commit (s : State) (x : Nat) : (s.withRegStatus x).commit = s.commit := (rfl)
@[simp] theorem State.withRegStatus_uus (s : State) (x : Nat) : (s.withRegStatus x).uus = s.uus := (rfl)
@[simp] theorem State.withRegStatus_journals (s : State) (x : Nat) : (s.withRegStatus x).journals = s.journals := (rfl)
@[simp] theorem State.withRegStatus_stg (s : State) (x : Nat) : (s.withRegStatus x).stg = s.stg := (rfl)
@[simp] theorem State.withRegStatus_sync (s : State) (x : Nat) : (s.withRegStatus x).sync = s.sync := (rfl)
@[simp] theorem State.withRegStatus_net (s : State) (x : Nat) : (s.withRegStatus x).net = s.net := (rfl)
@[simp] theorem State.withRegStatus_cr (s : State) (x : Nat) : (s.withRegStatus x).cr = s.cr := (rfl)
@[simp] theorem State.withRegStatus_host (s : State) (x : Nat) : (s.withRegStatus x).host = s.host := (rfl)
@[simp] theorem State.withRegStatus_rcv (s : State) (x : Nat) : (s.withRegStatus x).rcv = s.rcv := (rfl)
@[simp] theorem State.withRegStatus_ldg (s : State) (x : Nat) : (s.withRegStatus x).ldg = s.ldg := (rfl)
@[simp] theorem State.withRegStatus_pwr (s : State) (x : Nat) : (s.withRegStatus x).pwr = s.pwr := (rfl)
@[simp] theorem State.withRegStatus_boot (s : State) (x : Nat) : (s.withRegStatus x).boot = s.boot := (rfl)
@[simp] theorem State.withRegStatus_tap (s : State) (x : Nat) : (s.withRegStatus x).tap = s.tap := (rfl)

/-! ## State.withRegs -/

@[simp] theorem State.withRegs_regs (s : State) (x : KMap W64) : (s.withRegs x).regs = x := (rfl)
@[simp] theorem State.withRegs_pending (s : State) (x : KMap W64) : (s.withRegs x).pending = s.pending := (rfl)
@[simp] theorem State.withRegs_free (s : State) (x : KMap W64) : (s.withRegs x).free = s.free := (rfl)
@[simp] theorem State.withRegs_rdData (s : State) (x : KMap W64) : (s.withRegs x).rdData = s.rdData := (rfl)
@[simp] theorem State.withRegs_regStatus (s : State) (x : KMap W64) : (s.withRegs x).regStatus = s.regStatus := (rfl)
@[simp] theorem State.withRegs_errCtx (s : State) (x : KMap W64) : (s.withRegs x).errCtx = s.errCtx := (rfl)
@[simp] theorem State.withRegs_events (s : State) (x : KMap W64) : (s.withRegs x).events = s.events := (rfl)
@[simp] theorem State.withRegs_plat (s : State) (x : KMap W64) : (s.withRegs x).plat = s.plat := (rfl)
@[simp] theorem State.withRegs_sst (s : State) (x : KMap W64) : (s.withRegs x).sst = s.sst := (rfl)
@[simp] theorem State.withRegs_cores (s : State) (x : KMap W64) : (s.withRegs x).cores = s.cores := (rfl)
@[simp] theorem State.withRegs_scratch (s : State) (x : KMap W64) : (s.withRegs x).scratch = s.scratch := (rfl)
@[simp] theorem State.withRegs_clusters (s : State) (x : KMap W64) : (s.withRegs x).clusters = s.clusters := (rfl)
@[simp] theorem State.withRegs_banks (s : State) (x : KMap W64) : (s.withRegs x).banks = s.banks := (rfl)
@[simp] theorem State.withRegs_mxes (s : State) (x : KMap W64) : (s.withRegs x).mxes = s.mxes := (rfl)
@[simp] theorem State.withRegs_vxes (s : State) (x : KMap W64) : (s.withRegs x).vxes = s.vxes := (rfl)
@[simp] theorem State.withRegs_bins (s : State) (x : KMap W64) : (s.withRegs x).bins = s.bins := (rfl)
@[simp] theorem State.withRegs_work (s : State) (x : KMap W64) : (s.withRegs x).work = s.work := (rfl)
@[simp] theorem State.withRegs_hstOp (s : State) (x : KMap W64) : (s.withRegs x).hstOp = s.hstOp := (rfl)
@[simp] theorem State.withRegs_mem (s : State) (x : KMap W64) : (s.withRegs x).mem = s.mem := (rfl)
@[simp] theorem State.withRegs_ms (s : State) (x : KMap W64) : (s.withRegs x).ms = s.ms := (rfl)
@[simp] theorem State.withRegs_upd (s : State) (x : KMap W64) : (s.withRegs x).upd = s.upd := (rfl)
@[simp] theorem State.withRegs_commit (s : State) (x : KMap W64) : (s.withRegs x).commit = s.commit := (rfl)
@[simp] theorem State.withRegs_uus (s : State) (x : KMap W64) : (s.withRegs x).uus = s.uus := (rfl)
@[simp] theorem State.withRegs_journals (s : State) (x : KMap W64) : (s.withRegs x).journals = s.journals := (rfl)
@[simp] theorem State.withRegs_stg (s : State) (x : KMap W64) : (s.withRegs x).stg = s.stg := (rfl)
@[simp] theorem State.withRegs_sync (s : State) (x : KMap W64) : (s.withRegs x).sync = s.sync := (rfl)
@[simp] theorem State.withRegs_net (s : State) (x : KMap W64) : (s.withRegs x).net = s.net := (rfl)
@[simp] theorem State.withRegs_cr (s : State) (x : KMap W64) : (s.withRegs x).cr = s.cr := (rfl)
@[simp] theorem State.withRegs_host (s : State) (x : KMap W64) : (s.withRegs x).host = s.host := (rfl)
@[simp] theorem State.withRegs_rcv (s : State) (x : KMap W64) : (s.withRegs x).rcv = s.rcv := (rfl)
@[simp] theorem State.withRegs_ldg (s : State) (x : KMap W64) : (s.withRegs x).ldg = s.ldg := (rfl)
@[simp] theorem State.withRegs_pwr (s : State) (x : KMap W64) : (s.withRegs x).pwr = s.pwr := (rfl)
@[simp] theorem State.withRegs_boot (s : State) (x : KMap W64) : (s.withRegs x).boot = s.boot := (rfl)
@[simp] theorem State.withRegs_tap (s : State) (x : KMap W64) : (s.withRegs x).tap = s.tap := (rfl)

/-! ## State.withErrCtx -/

@[simp] theorem State.withErrCtx_errCtx (s : State) (x : KMap Nat) : (s.withErrCtx x).errCtx = x := (rfl)
@[simp] theorem State.withErrCtx_pending (s : State) (x : KMap Nat) : (s.withErrCtx x).pending = s.pending := (rfl)
@[simp] theorem State.withErrCtx_free (s : State) (x : KMap Nat) : (s.withErrCtx x).free = s.free := (rfl)
@[simp] theorem State.withErrCtx_rdData (s : State) (x : KMap Nat) : (s.withErrCtx x).rdData = s.rdData := (rfl)
@[simp] theorem State.withErrCtx_regStatus (s : State) (x : KMap Nat) : (s.withErrCtx x).regStatus = s.regStatus := (rfl)
@[simp] theorem State.withErrCtx_regs (s : State) (x : KMap Nat) : (s.withErrCtx x).regs = s.regs := (rfl)
@[simp] theorem State.withErrCtx_events (s : State) (x : KMap Nat) : (s.withErrCtx x).events = s.events := (rfl)
@[simp] theorem State.withErrCtx_plat (s : State) (x : KMap Nat) : (s.withErrCtx x).plat = s.plat := (rfl)
@[simp] theorem State.withErrCtx_sst (s : State) (x : KMap Nat) : (s.withErrCtx x).sst = s.sst := (rfl)
@[simp] theorem State.withErrCtx_cores (s : State) (x : KMap Nat) : (s.withErrCtx x).cores = s.cores := (rfl)
@[simp] theorem State.withErrCtx_scratch (s : State) (x : KMap Nat) : (s.withErrCtx x).scratch = s.scratch := (rfl)
@[simp] theorem State.withErrCtx_clusters (s : State) (x : KMap Nat) : (s.withErrCtx x).clusters = s.clusters := (rfl)
@[simp] theorem State.withErrCtx_banks (s : State) (x : KMap Nat) : (s.withErrCtx x).banks = s.banks := (rfl)
@[simp] theorem State.withErrCtx_mxes (s : State) (x : KMap Nat) : (s.withErrCtx x).mxes = s.mxes := (rfl)
@[simp] theorem State.withErrCtx_vxes (s : State) (x : KMap Nat) : (s.withErrCtx x).vxes = s.vxes := (rfl)
@[simp] theorem State.withErrCtx_bins (s : State) (x : KMap Nat) : (s.withErrCtx x).bins = s.bins := (rfl)
@[simp] theorem State.withErrCtx_work (s : State) (x : KMap Nat) : (s.withErrCtx x).work = s.work := (rfl)
@[simp] theorem State.withErrCtx_hstOp (s : State) (x : KMap Nat) : (s.withErrCtx x).hstOp = s.hstOp := (rfl)
@[simp] theorem State.withErrCtx_mem (s : State) (x : KMap Nat) : (s.withErrCtx x).mem = s.mem := (rfl)
@[simp] theorem State.withErrCtx_ms (s : State) (x : KMap Nat) : (s.withErrCtx x).ms = s.ms := (rfl)
@[simp] theorem State.withErrCtx_upd (s : State) (x : KMap Nat) : (s.withErrCtx x).upd = s.upd := (rfl)
@[simp] theorem State.withErrCtx_commit (s : State) (x : KMap Nat) : (s.withErrCtx x).commit = s.commit := (rfl)
@[simp] theorem State.withErrCtx_uus (s : State) (x : KMap Nat) : (s.withErrCtx x).uus = s.uus := (rfl)
@[simp] theorem State.withErrCtx_journals (s : State) (x : KMap Nat) : (s.withErrCtx x).journals = s.journals := (rfl)
@[simp] theorem State.withErrCtx_stg (s : State) (x : KMap Nat) : (s.withErrCtx x).stg = s.stg := (rfl)
@[simp] theorem State.withErrCtx_sync (s : State) (x : KMap Nat) : (s.withErrCtx x).sync = s.sync := (rfl)
@[simp] theorem State.withErrCtx_net (s : State) (x : KMap Nat) : (s.withErrCtx x).net = s.net := (rfl)
@[simp] theorem State.withErrCtx_cr (s : State) (x : KMap Nat) : (s.withErrCtx x).cr = s.cr := (rfl)
@[simp] theorem State.withErrCtx_host (s : State) (x : KMap Nat) : (s.withErrCtx x).host = s.host := (rfl)
@[simp] theorem State.withErrCtx_rcv (s : State) (x : KMap Nat) : (s.withErrCtx x).rcv = s.rcv := (rfl)
@[simp] theorem State.withErrCtx_ldg (s : State) (x : KMap Nat) : (s.withErrCtx x).ldg = s.ldg := (rfl)
@[simp] theorem State.withErrCtx_pwr (s : State) (x : KMap Nat) : (s.withErrCtx x).pwr = s.pwr := (rfl)
@[simp] theorem State.withErrCtx_boot (s : State) (x : KMap Nat) : (s.withErrCtx x).boot = s.boot := (rfl)
@[simp] theorem State.withErrCtx_tap (s : State) (x : KMap Nat) : (s.withErrCtx x).tap = s.tap := (rfl)

/-! ## State.withEvents -/

@[simp] theorem State.withEvents_events (s : State) (x : KMap (List W64)) : (s.withEvents x).events = x := (rfl)
@[simp] theorem State.withEvents_pending (s : State) (x : KMap (List W64)) : (s.withEvents x).pending = s.pending := (rfl)
@[simp] theorem State.withEvents_free (s : State) (x : KMap (List W64)) : (s.withEvents x).free = s.free := (rfl)
@[simp] theorem State.withEvents_rdData (s : State) (x : KMap (List W64)) : (s.withEvents x).rdData = s.rdData := (rfl)
@[simp] theorem State.withEvents_regStatus (s : State) (x : KMap (List W64)) : (s.withEvents x).regStatus = s.regStatus := (rfl)
@[simp] theorem State.withEvents_regs (s : State) (x : KMap (List W64)) : (s.withEvents x).regs = s.regs := (rfl)
@[simp] theorem State.withEvents_errCtx (s : State) (x : KMap (List W64)) : (s.withEvents x).errCtx = s.errCtx := (rfl)
@[simp] theorem State.withEvents_plat (s : State) (x : KMap (List W64)) : (s.withEvents x).plat = s.plat := (rfl)
@[simp] theorem State.withEvents_sst (s : State) (x : KMap (List W64)) : (s.withEvents x).sst = s.sst := (rfl)
@[simp] theorem State.withEvents_cores (s : State) (x : KMap (List W64)) : (s.withEvents x).cores = s.cores := (rfl)
@[simp] theorem State.withEvents_scratch (s : State) (x : KMap (List W64)) : (s.withEvents x).scratch = s.scratch := (rfl)
@[simp] theorem State.withEvents_clusters (s : State) (x : KMap (List W64)) : (s.withEvents x).clusters = s.clusters := (rfl)
@[simp] theorem State.withEvents_banks (s : State) (x : KMap (List W64)) : (s.withEvents x).banks = s.banks := (rfl)
@[simp] theorem State.withEvents_mxes (s : State) (x : KMap (List W64)) : (s.withEvents x).mxes = s.mxes := (rfl)
@[simp] theorem State.withEvents_vxes (s : State) (x : KMap (List W64)) : (s.withEvents x).vxes = s.vxes := (rfl)
@[simp] theorem State.withEvents_bins (s : State) (x : KMap (List W64)) : (s.withEvents x).bins = s.bins := (rfl)
@[simp] theorem State.withEvents_work (s : State) (x : KMap (List W64)) : (s.withEvents x).work = s.work := (rfl)
@[simp] theorem State.withEvents_hstOp (s : State) (x : KMap (List W64)) : (s.withEvents x).hstOp = s.hstOp := (rfl)
@[simp] theorem State.withEvents_mem (s : State) (x : KMap (List W64)) : (s.withEvents x).mem = s.mem := (rfl)
@[simp] theorem State.withEvents_ms (s : State) (x : KMap (List W64)) : (s.withEvents x).ms = s.ms := (rfl)
@[simp] theorem State.withEvents_upd (s : State) (x : KMap (List W64)) : (s.withEvents x).upd = s.upd := (rfl)
@[simp] theorem State.withEvents_commit (s : State) (x : KMap (List W64)) : (s.withEvents x).commit = s.commit := (rfl)
@[simp] theorem State.withEvents_uus (s : State) (x : KMap (List W64)) : (s.withEvents x).uus = s.uus := (rfl)
@[simp] theorem State.withEvents_journals (s : State) (x : KMap (List W64)) : (s.withEvents x).journals = s.journals := (rfl)
@[simp] theorem State.withEvents_stg (s : State) (x : KMap (List W64)) : (s.withEvents x).stg = s.stg := (rfl)
@[simp] theorem State.withEvents_sync (s : State) (x : KMap (List W64)) : (s.withEvents x).sync = s.sync := (rfl)
@[simp] theorem State.withEvents_net (s : State) (x : KMap (List W64)) : (s.withEvents x).net = s.net := (rfl)
@[simp] theorem State.withEvents_cr (s : State) (x : KMap (List W64)) : (s.withEvents x).cr = s.cr := (rfl)
@[simp] theorem State.withEvents_host (s : State) (x : KMap (List W64)) : (s.withEvents x).host = s.host := (rfl)
@[simp] theorem State.withEvents_rcv (s : State) (x : KMap (List W64)) : (s.withEvents x).rcv = s.rcv := (rfl)
@[simp] theorem State.withEvents_ldg (s : State) (x : KMap (List W64)) : (s.withEvents x).ldg = s.ldg := (rfl)
@[simp] theorem State.withEvents_pwr (s : State) (x : KMap (List W64)) : (s.withEvents x).pwr = s.pwr := (rfl)
@[simp] theorem State.withEvents_boot (s : State) (x : KMap (List W64)) : (s.withEvents x).boot = s.boot := (rfl)
@[simp] theorem State.withEvents_tap (s : State) (x : KMap (List W64)) : (s.withEvents x).tap = s.tap := (rfl)

/-! ## State.withPlat -/

@[simp] theorem State.withPlat_plat (s : State) (x : Plat) : (s.withPlat x).plat = x := (rfl)
@[simp] theorem State.withPlat_pending (s : State) (x : Plat) : (s.withPlat x).pending = s.pending := (rfl)
@[simp] theorem State.withPlat_free (s : State) (x : Plat) : (s.withPlat x).free = s.free := (rfl)
@[simp] theorem State.withPlat_rdData (s : State) (x : Plat) : (s.withPlat x).rdData = s.rdData := (rfl)
@[simp] theorem State.withPlat_regStatus (s : State) (x : Plat) : (s.withPlat x).regStatus = s.regStatus := (rfl)
@[simp] theorem State.withPlat_regs (s : State) (x : Plat) : (s.withPlat x).regs = s.regs := (rfl)
@[simp] theorem State.withPlat_errCtx (s : State) (x : Plat) : (s.withPlat x).errCtx = s.errCtx := (rfl)
@[simp] theorem State.withPlat_events (s : State) (x : Plat) : (s.withPlat x).events = s.events := (rfl)
@[simp] theorem State.withPlat_sst (s : State) (x : Plat) : (s.withPlat x).sst = s.sst := (rfl)
@[simp] theorem State.withPlat_cores (s : State) (x : Plat) : (s.withPlat x).cores = s.cores := (rfl)
@[simp] theorem State.withPlat_scratch (s : State) (x : Plat) : (s.withPlat x).scratch = s.scratch := (rfl)
@[simp] theorem State.withPlat_clusters (s : State) (x : Plat) : (s.withPlat x).clusters = s.clusters := (rfl)
@[simp] theorem State.withPlat_banks (s : State) (x : Plat) : (s.withPlat x).banks = s.banks := (rfl)
@[simp] theorem State.withPlat_mxes (s : State) (x : Plat) : (s.withPlat x).mxes = s.mxes := (rfl)
@[simp] theorem State.withPlat_vxes (s : State) (x : Plat) : (s.withPlat x).vxes = s.vxes := (rfl)
@[simp] theorem State.withPlat_bins (s : State) (x : Plat) : (s.withPlat x).bins = s.bins := (rfl)
@[simp] theorem State.withPlat_work (s : State) (x : Plat) : (s.withPlat x).work = s.work := (rfl)
@[simp] theorem State.withPlat_hstOp (s : State) (x : Plat) : (s.withPlat x).hstOp = s.hstOp := (rfl)
@[simp] theorem State.withPlat_mem (s : State) (x : Plat) : (s.withPlat x).mem = s.mem := (rfl)
@[simp] theorem State.withPlat_ms (s : State) (x : Plat) : (s.withPlat x).ms = s.ms := (rfl)
@[simp] theorem State.withPlat_upd (s : State) (x : Plat) : (s.withPlat x).upd = s.upd := (rfl)
@[simp] theorem State.withPlat_commit (s : State) (x : Plat) : (s.withPlat x).commit = s.commit := (rfl)
@[simp] theorem State.withPlat_uus (s : State) (x : Plat) : (s.withPlat x).uus = s.uus := (rfl)
@[simp] theorem State.withPlat_journals (s : State) (x : Plat) : (s.withPlat x).journals = s.journals := (rfl)
@[simp] theorem State.withPlat_stg (s : State) (x : Plat) : (s.withPlat x).stg = s.stg := (rfl)
@[simp] theorem State.withPlat_sync (s : State) (x : Plat) : (s.withPlat x).sync = s.sync := (rfl)
@[simp] theorem State.withPlat_net (s : State) (x : Plat) : (s.withPlat x).net = s.net := (rfl)
@[simp] theorem State.withPlat_cr (s : State) (x : Plat) : (s.withPlat x).cr = s.cr := (rfl)
@[simp] theorem State.withPlat_host (s : State) (x : Plat) : (s.withPlat x).host = s.host := (rfl)
@[simp] theorem State.withPlat_rcv (s : State) (x : Plat) : (s.withPlat x).rcv = s.rcv := (rfl)
@[simp] theorem State.withPlat_ldg (s : State) (x : Plat) : (s.withPlat x).ldg = s.ldg := (rfl)
@[simp] theorem State.withPlat_pwr (s : State) (x : Plat) : (s.withPlat x).pwr = s.pwr := (rfl)
@[simp] theorem State.withPlat_boot (s : State) (x : Plat) : (s.withPlat x).boot = s.boot := (rfl)
@[simp] theorem State.withPlat_tap (s : State) (x : Plat) : (s.withPlat x).tap = s.tap := (rfl)

/-! ## State.withSst -/

@[simp] theorem State.withSst_sst (s : State) (x : Sst) : (s.withSst x).sst = x := (rfl)
@[simp] theorem State.withSst_pending (s : State) (x : Sst) : (s.withSst x).pending = s.pending := (rfl)
@[simp] theorem State.withSst_free (s : State) (x : Sst) : (s.withSst x).free = s.free := (rfl)
@[simp] theorem State.withSst_rdData (s : State) (x : Sst) : (s.withSst x).rdData = s.rdData := (rfl)
@[simp] theorem State.withSst_regStatus (s : State) (x : Sst) : (s.withSst x).regStatus = s.regStatus := (rfl)
@[simp] theorem State.withSst_regs (s : State) (x : Sst) : (s.withSst x).regs = s.regs := (rfl)
@[simp] theorem State.withSst_errCtx (s : State) (x : Sst) : (s.withSst x).errCtx = s.errCtx := (rfl)
@[simp] theorem State.withSst_events (s : State) (x : Sst) : (s.withSst x).events = s.events := (rfl)
@[simp] theorem State.withSst_plat (s : State) (x : Sst) : (s.withSst x).plat = s.plat := (rfl)
@[simp] theorem State.withSst_cores (s : State) (x : Sst) : (s.withSst x).cores = s.cores := (rfl)
@[simp] theorem State.withSst_scratch (s : State) (x : Sst) : (s.withSst x).scratch = s.scratch := (rfl)
@[simp] theorem State.withSst_clusters (s : State) (x : Sst) : (s.withSst x).clusters = s.clusters := (rfl)
@[simp] theorem State.withSst_banks (s : State) (x : Sst) : (s.withSst x).banks = s.banks := (rfl)
@[simp] theorem State.withSst_mxes (s : State) (x : Sst) : (s.withSst x).mxes = s.mxes := (rfl)
@[simp] theorem State.withSst_vxes (s : State) (x : Sst) : (s.withSst x).vxes = s.vxes := (rfl)
@[simp] theorem State.withSst_bins (s : State) (x : Sst) : (s.withSst x).bins = s.bins := (rfl)
@[simp] theorem State.withSst_work (s : State) (x : Sst) : (s.withSst x).work = s.work := (rfl)
@[simp] theorem State.withSst_hstOp (s : State) (x : Sst) : (s.withSst x).hstOp = s.hstOp := (rfl)
@[simp] theorem State.withSst_mem (s : State) (x : Sst) : (s.withSst x).mem = s.mem := (rfl)
@[simp] theorem State.withSst_ms (s : State) (x : Sst) : (s.withSst x).ms = s.ms := (rfl)
@[simp] theorem State.withSst_upd (s : State) (x : Sst) : (s.withSst x).upd = s.upd := (rfl)
@[simp] theorem State.withSst_commit (s : State) (x : Sst) : (s.withSst x).commit = s.commit := (rfl)
@[simp] theorem State.withSst_uus (s : State) (x : Sst) : (s.withSst x).uus = s.uus := (rfl)
@[simp] theorem State.withSst_journals (s : State) (x : Sst) : (s.withSst x).journals = s.journals := (rfl)
@[simp] theorem State.withSst_stg (s : State) (x : Sst) : (s.withSst x).stg = s.stg := (rfl)
@[simp] theorem State.withSst_sync (s : State) (x : Sst) : (s.withSst x).sync = s.sync := (rfl)
@[simp] theorem State.withSst_net (s : State) (x : Sst) : (s.withSst x).net = s.net := (rfl)
@[simp] theorem State.withSst_cr (s : State) (x : Sst) : (s.withSst x).cr = s.cr := (rfl)
@[simp] theorem State.withSst_host (s : State) (x : Sst) : (s.withSst x).host = s.host := (rfl)
@[simp] theorem State.withSst_rcv (s : State) (x : Sst) : (s.withSst x).rcv = s.rcv := (rfl)
@[simp] theorem State.withSst_ldg (s : State) (x : Sst) : (s.withSst x).ldg = s.ldg := (rfl)
@[simp] theorem State.withSst_pwr (s : State) (x : Sst) : (s.withSst x).pwr = s.pwr := (rfl)
@[simp] theorem State.withSst_boot (s : State) (x : Sst) : (s.withSst x).boot = s.boot := (rfl)
@[simp] theorem State.withSst_tap (s : State) (x : Sst) : (s.withSst x).tap = s.tap := (rfl)

/-! ## State.withCores -/

@[simp] theorem State.withCores_cores (s : State) (x : KMap Core) : (s.withCores x).cores = x := (rfl)
@[simp] theorem State.withCores_pending (s : State) (x : KMap Core) : (s.withCores x).pending = s.pending := (rfl)
@[simp] theorem State.withCores_free (s : State) (x : KMap Core) : (s.withCores x).free = s.free := (rfl)
@[simp] theorem State.withCores_rdData (s : State) (x : KMap Core) : (s.withCores x).rdData = s.rdData := (rfl)
@[simp] theorem State.withCores_regStatus (s : State) (x : KMap Core) : (s.withCores x).regStatus = s.regStatus := (rfl)
@[simp] theorem State.withCores_regs (s : State) (x : KMap Core) : (s.withCores x).regs = s.regs := (rfl)
@[simp] theorem State.withCores_errCtx (s : State) (x : KMap Core) : (s.withCores x).errCtx = s.errCtx := (rfl)
@[simp] theorem State.withCores_events (s : State) (x : KMap Core) : (s.withCores x).events = s.events := (rfl)
@[simp] theorem State.withCores_plat (s : State) (x : KMap Core) : (s.withCores x).plat = s.plat := (rfl)
@[simp] theorem State.withCores_sst (s : State) (x : KMap Core) : (s.withCores x).sst = s.sst := (rfl)
@[simp] theorem State.withCores_scratch (s : State) (x : KMap Core) : (s.withCores x).scratch = s.scratch := (rfl)
@[simp] theorem State.withCores_clusters (s : State) (x : KMap Core) : (s.withCores x).clusters = s.clusters := (rfl)
@[simp] theorem State.withCores_banks (s : State) (x : KMap Core) : (s.withCores x).banks = s.banks := (rfl)
@[simp] theorem State.withCores_mxes (s : State) (x : KMap Core) : (s.withCores x).mxes = s.mxes := (rfl)
@[simp] theorem State.withCores_vxes (s : State) (x : KMap Core) : (s.withCores x).vxes = s.vxes := (rfl)
@[simp] theorem State.withCores_bins (s : State) (x : KMap Core) : (s.withCores x).bins = s.bins := (rfl)
@[simp] theorem State.withCores_work (s : State) (x : KMap Core) : (s.withCores x).work = s.work := (rfl)
@[simp] theorem State.withCores_hstOp (s : State) (x : KMap Core) : (s.withCores x).hstOp = s.hstOp := (rfl)
@[simp] theorem State.withCores_mem (s : State) (x : KMap Core) : (s.withCores x).mem = s.mem := (rfl)
@[simp] theorem State.withCores_ms (s : State) (x : KMap Core) : (s.withCores x).ms = s.ms := (rfl)
@[simp] theorem State.withCores_upd (s : State) (x : KMap Core) : (s.withCores x).upd = s.upd := (rfl)
@[simp] theorem State.withCores_commit (s : State) (x : KMap Core) : (s.withCores x).commit = s.commit := (rfl)
@[simp] theorem State.withCores_uus (s : State) (x : KMap Core) : (s.withCores x).uus = s.uus := (rfl)
@[simp] theorem State.withCores_journals (s : State) (x : KMap Core) : (s.withCores x).journals = s.journals := (rfl)
@[simp] theorem State.withCores_stg (s : State) (x : KMap Core) : (s.withCores x).stg = s.stg := (rfl)
@[simp] theorem State.withCores_sync (s : State) (x : KMap Core) : (s.withCores x).sync = s.sync := (rfl)
@[simp] theorem State.withCores_net (s : State) (x : KMap Core) : (s.withCores x).net = s.net := (rfl)
@[simp] theorem State.withCores_cr (s : State) (x : KMap Core) : (s.withCores x).cr = s.cr := (rfl)
@[simp] theorem State.withCores_host (s : State) (x : KMap Core) : (s.withCores x).host = s.host := (rfl)
@[simp] theorem State.withCores_rcv (s : State) (x : KMap Core) : (s.withCores x).rcv = s.rcv := (rfl)
@[simp] theorem State.withCores_ldg (s : State) (x : KMap Core) : (s.withCores x).ldg = s.ldg := (rfl)
@[simp] theorem State.withCores_pwr (s : State) (x : KMap Core) : (s.withCores x).pwr = s.pwr := (rfl)
@[simp] theorem State.withCores_boot (s : State) (x : KMap Core) : (s.withCores x).boot = s.boot := (rfl)
@[simp] theorem State.withCores_tap (s : State) (x : KMap Core) : (s.withCores x).tap = s.tap := (rfl)

/-! ## State.withScratch -/

@[simp] theorem State.withScratch_scratch (s : State) (x : KMap Byte) : (s.withScratch x).scratch = x := (rfl)
@[simp] theorem State.withScratch_pending (s : State) (x : KMap Byte) : (s.withScratch x).pending = s.pending := (rfl)
@[simp] theorem State.withScratch_free (s : State) (x : KMap Byte) : (s.withScratch x).free = s.free := (rfl)
@[simp] theorem State.withScratch_rdData (s : State) (x : KMap Byte) : (s.withScratch x).rdData = s.rdData := (rfl)
@[simp] theorem State.withScratch_regStatus (s : State) (x : KMap Byte) : (s.withScratch x).regStatus = s.regStatus := (rfl)
@[simp] theorem State.withScratch_regs (s : State) (x : KMap Byte) : (s.withScratch x).regs = s.regs := (rfl)
@[simp] theorem State.withScratch_errCtx (s : State) (x : KMap Byte) : (s.withScratch x).errCtx = s.errCtx := (rfl)
@[simp] theorem State.withScratch_events (s : State) (x : KMap Byte) : (s.withScratch x).events = s.events := (rfl)
@[simp] theorem State.withScratch_plat (s : State) (x : KMap Byte) : (s.withScratch x).plat = s.plat := (rfl)
@[simp] theorem State.withScratch_sst (s : State) (x : KMap Byte) : (s.withScratch x).sst = s.sst := (rfl)
@[simp] theorem State.withScratch_cores (s : State) (x : KMap Byte) : (s.withScratch x).cores = s.cores := (rfl)
@[simp] theorem State.withScratch_clusters (s : State) (x : KMap Byte) : (s.withScratch x).clusters = s.clusters := (rfl)
@[simp] theorem State.withScratch_banks (s : State) (x : KMap Byte) : (s.withScratch x).banks = s.banks := (rfl)
@[simp] theorem State.withScratch_mxes (s : State) (x : KMap Byte) : (s.withScratch x).mxes = s.mxes := (rfl)
@[simp] theorem State.withScratch_vxes (s : State) (x : KMap Byte) : (s.withScratch x).vxes = s.vxes := (rfl)
@[simp] theorem State.withScratch_bins (s : State) (x : KMap Byte) : (s.withScratch x).bins = s.bins := (rfl)
@[simp] theorem State.withScratch_work (s : State) (x : KMap Byte) : (s.withScratch x).work = s.work := (rfl)
@[simp] theorem State.withScratch_hstOp (s : State) (x : KMap Byte) : (s.withScratch x).hstOp = s.hstOp := (rfl)
@[simp] theorem State.withScratch_mem (s : State) (x : KMap Byte) : (s.withScratch x).mem = s.mem := (rfl)
@[simp] theorem State.withScratch_ms (s : State) (x : KMap Byte) : (s.withScratch x).ms = s.ms := (rfl)
@[simp] theorem State.withScratch_upd (s : State) (x : KMap Byte) : (s.withScratch x).upd = s.upd := (rfl)
@[simp] theorem State.withScratch_commit (s : State) (x : KMap Byte) : (s.withScratch x).commit = s.commit := (rfl)
@[simp] theorem State.withScratch_uus (s : State) (x : KMap Byte) : (s.withScratch x).uus = s.uus := (rfl)
@[simp] theorem State.withScratch_journals (s : State) (x : KMap Byte) : (s.withScratch x).journals = s.journals := (rfl)
@[simp] theorem State.withScratch_stg (s : State) (x : KMap Byte) : (s.withScratch x).stg = s.stg := (rfl)
@[simp] theorem State.withScratch_sync (s : State) (x : KMap Byte) : (s.withScratch x).sync = s.sync := (rfl)
@[simp] theorem State.withScratch_net (s : State) (x : KMap Byte) : (s.withScratch x).net = s.net := (rfl)
@[simp] theorem State.withScratch_cr (s : State) (x : KMap Byte) : (s.withScratch x).cr = s.cr := (rfl)
@[simp] theorem State.withScratch_host (s : State) (x : KMap Byte) : (s.withScratch x).host = s.host := (rfl)
@[simp] theorem State.withScratch_rcv (s : State) (x : KMap Byte) : (s.withScratch x).rcv = s.rcv := (rfl)
@[simp] theorem State.withScratch_ldg (s : State) (x : KMap Byte) : (s.withScratch x).ldg = s.ldg := (rfl)
@[simp] theorem State.withScratch_pwr (s : State) (x : KMap Byte) : (s.withScratch x).pwr = s.pwr := (rfl)
@[simp] theorem State.withScratch_boot (s : State) (x : KMap Byte) : (s.withScratch x).boot = s.boot := (rfl)
@[simp] theorem State.withScratch_tap (s : State) (x : KMap Byte) : (s.withScratch x).tap = s.tap := (rfl)

/-! ## State.withClusters -/

@[simp] theorem State.withClusters_clusters (s : State) (x : KMap Cluster) : (s.withClusters x).clusters = x := (rfl)
@[simp] theorem State.withClusters_pending (s : State) (x : KMap Cluster) : (s.withClusters x).pending = s.pending := (rfl)
@[simp] theorem State.withClusters_free (s : State) (x : KMap Cluster) : (s.withClusters x).free = s.free := (rfl)
@[simp] theorem State.withClusters_rdData (s : State) (x : KMap Cluster) : (s.withClusters x).rdData = s.rdData := (rfl)
@[simp] theorem State.withClusters_regStatus (s : State) (x : KMap Cluster) : (s.withClusters x).regStatus = s.regStatus := (rfl)
@[simp] theorem State.withClusters_regs (s : State) (x : KMap Cluster) : (s.withClusters x).regs = s.regs := (rfl)
@[simp] theorem State.withClusters_errCtx (s : State) (x : KMap Cluster) : (s.withClusters x).errCtx = s.errCtx := (rfl)
@[simp] theorem State.withClusters_events (s : State) (x : KMap Cluster) : (s.withClusters x).events = s.events := (rfl)
@[simp] theorem State.withClusters_plat (s : State) (x : KMap Cluster) : (s.withClusters x).plat = s.plat := (rfl)
@[simp] theorem State.withClusters_sst (s : State) (x : KMap Cluster) : (s.withClusters x).sst = s.sst := (rfl)
@[simp] theorem State.withClusters_cores (s : State) (x : KMap Cluster) : (s.withClusters x).cores = s.cores := (rfl)
@[simp] theorem State.withClusters_scratch (s : State) (x : KMap Cluster) : (s.withClusters x).scratch = s.scratch := (rfl)
@[simp] theorem State.withClusters_banks (s : State) (x : KMap Cluster) : (s.withClusters x).banks = s.banks := (rfl)
@[simp] theorem State.withClusters_mxes (s : State) (x : KMap Cluster) : (s.withClusters x).mxes = s.mxes := (rfl)
@[simp] theorem State.withClusters_vxes (s : State) (x : KMap Cluster) : (s.withClusters x).vxes = s.vxes := (rfl)
@[simp] theorem State.withClusters_bins (s : State) (x : KMap Cluster) : (s.withClusters x).bins = s.bins := (rfl)
@[simp] theorem State.withClusters_work (s : State) (x : KMap Cluster) : (s.withClusters x).work = s.work := (rfl)
@[simp] theorem State.withClusters_hstOp (s : State) (x : KMap Cluster) : (s.withClusters x).hstOp = s.hstOp := (rfl)
@[simp] theorem State.withClusters_mem (s : State) (x : KMap Cluster) : (s.withClusters x).mem = s.mem := (rfl)
@[simp] theorem State.withClusters_ms (s : State) (x : KMap Cluster) : (s.withClusters x).ms = s.ms := (rfl)
@[simp] theorem State.withClusters_upd (s : State) (x : KMap Cluster) : (s.withClusters x).upd = s.upd := (rfl)
@[simp] theorem State.withClusters_commit (s : State) (x : KMap Cluster) : (s.withClusters x).commit = s.commit := (rfl)
@[simp] theorem State.withClusters_uus (s : State) (x : KMap Cluster) : (s.withClusters x).uus = s.uus := (rfl)
@[simp] theorem State.withClusters_journals (s : State) (x : KMap Cluster) : (s.withClusters x).journals = s.journals := (rfl)
@[simp] theorem State.withClusters_stg (s : State) (x : KMap Cluster) : (s.withClusters x).stg = s.stg := (rfl)
@[simp] theorem State.withClusters_sync (s : State) (x : KMap Cluster) : (s.withClusters x).sync = s.sync := (rfl)
@[simp] theorem State.withClusters_net (s : State) (x : KMap Cluster) : (s.withClusters x).net = s.net := (rfl)
@[simp] theorem State.withClusters_cr (s : State) (x : KMap Cluster) : (s.withClusters x).cr = s.cr := (rfl)
@[simp] theorem State.withClusters_host (s : State) (x : KMap Cluster) : (s.withClusters x).host = s.host := (rfl)
@[simp] theorem State.withClusters_rcv (s : State) (x : KMap Cluster) : (s.withClusters x).rcv = s.rcv := (rfl)
@[simp] theorem State.withClusters_ldg (s : State) (x : KMap Cluster) : (s.withClusters x).ldg = s.ldg := (rfl)
@[simp] theorem State.withClusters_pwr (s : State) (x : KMap Cluster) : (s.withClusters x).pwr = s.pwr := (rfl)
@[simp] theorem State.withClusters_boot (s : State) (x : KMap Cluster) : (s.withClusters x).boot = s.boot := (rfl)
@[simp] theorem State.withClusters_tap (s : State) (x : KMap Cluster) : (s.withClusters x).tap = s.tap := (rfl)

/-! ## State.withBanks -/

@[simp] theorem State.withBanks_banks (s : State) (x : KMap W32) : (s.withBanks x).banks = x := (rfl)
@[simp] theorem State.withBanks_pending (s : State) (x : KMap W32) : (s.withBanks x).pending = s.pending := (rfl)
@[simp] theorem State.withBanks_free (s : State) (x : KMap W32) : (s.withBanks x).free = s.free := (rfl)
@[simp] theorem State.withBanks_rdData (s : State) (x : KMap W32) : (s.withBanks x).rdData = s.rdData := (rfl)
@[simp] theorem State.withBanks_regStatus (s : State) (x : KMap W32) : (s.withBanks x).regStatus = s.regStatus := (rfl)
@[simp] theorem State.withBanks_regs (s : State) (x : KMap W32) : (s.withBanks x).regs = s.regs := (rfl)
@[simp] theorem State.withBanks_errCtx (s : State) (x : KMap W32) : (s.withBanks x).errCtx = s.errCtx := (rfl)
@[simp] theorem State.withBanks_events (s : State) (x : KMap W32) : (s.withBanks x).events = s.events := (rfl)
@[simp] theorem State.withBanks_plat (s : State) (x : KMap W32) : (s.withBanks x).plat = s.plat := (rfl)
@[simp] theorem State.withBanks_sst (s : State) (x : KMap W32) : (s.withBanks x).sst = s.sst := (rfl)
@[simp] theorem State.withBanks_cores (s : State) (x : KMap W32) : (s.withBanks x).cores = s.cores := (rfl)
@[simp] theorem State.withBanks_scratch (s : State) (x : KMap W32) : (s.withBanks x).scratch = s.scratch := (rfl)
@[simp] theorem State.withBanks_clusters (s : State) (x : KMap W32) : (s.withBanks x).clusters = s.clusters := (rfl)
@[simp] theorem State.withBanks_mxes (s : State) (x : KMap W32) : (s.withBanks x).mxes = s.mxes := (rfl)
@[simp] theorem State.withBanks_vxes (s : State) (x : KMap W32) : (s.withBanks x).vxes = s.vxes := (rfl)
@[simp] theorem State.withBanks_bins (s : State) (x : KMap W32) : (s.withBanks x).bins = s.bins := (rfl)
@[simp] theorem State.withBanks_work (s : State) (x : KMap W32) : (s.withBanks x).work = s.work := (rfl)
@[simp] theorem State.withBanks_hstOp (s : State) (x : KMap W32) : (s.withBanks x).hstOp = s.hstOp := (rfl)
@[simp] theorem State.withBanks_mem (s : State) (x : KMap W32) : (s.withBanks x).mem = s.mem := (rfl)
@[simp] theorem State.withBanks_ms (s : State) (x : KMap W32) : (s.withBanks x).ms = s.ms := (rfl)
@[simp] theorem State.withBanks_upd (s : State) (x : KMap W32) : (s.withBanks x).upd = s.upd := (rfl)
@[simp] theorem State.withBanks_commit (s : State) (x : KMap W32) : (s.withBanks x).commit = s.commit := (rfl)
@[simp] theorem State.withBanks_uus (s : State) (x : KMap W32) : (s.withBanks x).uus = s.uus := (rfl)
@[simp] theorem State.withBanks_journals (s : State) (x : KMap W32) : (s.withBanks x).journals = s.journals := (rfl)
@[simp] theorem State.withBanks_stg (s : State) (x : KMap W32) : (s.withBanks x).stg = s.stg := (rfl)
@[simp] theorem State.withBanks_sync (s : State) (x : KMap W32) : (s.withBanks x).sync = s.sync := (rfl)
@[simp] theorem State.withBanks_net (s : State) (x : KMap W32) : (s.withBanks x).net = s.net := (rfl)
@[simp] theorem State.withBanks_cr (s : State) (x : KMap W32) : (s.withBanks x).cr = s.cr := (rfl)
@[simp] theorem State.withBanks_host (s : State) (x : KMap W32) : (s.withBanks x).host = s.host := (rfl)
@[simp] theorem State.withBanks_rcv (s : State) (x : KMap W32) : (s.withBanks x).rcv = s.rcv := (rfl)
@[simp] theorem State.withBanks_ldg (s : State) (x : KMap W32) : (s.withBanks x).ldg = s.ldg := (rfl)
@[simp] theorem State.withBanks_pwr (s : State) (x : KMap W32) : (s.withBanks x).pwr = s.pwr := (rfl)
@[simp] theorem State.withBanks_boot (s : State) (x : KMap W32) : (s.withBanks x).boot = s.boot := (rfl)
@[simp] theorem State.withBanks_tap (s : State) (x : KMap W32) : (s.withBanks x).tap = s.tap := (rfl)

/-! ## State.withMxes -/

@[simp] theorem State.withMxes_mxes (s : State) (x : KMap Mxe) : (s.withMxes x).mxes = x := (rfl)
@[simp] theorem State.withMxes_pending (s : State) (x : KMap Mxe) : (s.withMxes x).pending = s.pending := (rfl)
@[simp] theorem State.withMxes_free (s : State) (x : KMap Mxe) : (s.withMxes x).free = s.free := (rfl)
@[simp] theorem State.withMxes_rdData (s : State) (x : KMap Mxe) : (s.withMxes x).rdData = s.rdData := (rfl)
@[simp] theorem State.withMxes_regStatus (s : State) (x : KMap Mxe) : (s.withMxes x).regStatus = s.regStatus := (rfl)
@[simp] theorem State.withMxes_regs (s : State) (x : KMap Mxe) : (s.withMxes x).regs = s.regs := (rfl)
@[simp] theorem State.withMxes_errCtx (s : State) (x : KMap Mxe) : (s.withMxes x).errCtx = s.errCtx := (rfl)
@[simp] theorem State.withMxes_events (s : State) (x : KMap Mxe) : (s.withMxes x).events = s.events := (rfl)
@[simp] theorem State.withMxes_plat (s : State) (x : KMap Mxe) : (s.withMxes x).plat = s.plat := (rfl)
@[simp] theorem State.withMxes_sst (s : State) (x : KMap Mxe) : (s.withMxes x).sst = s.sst := (rfl)
@[simp] theorem State.withMxes_cores (s : State) (x : KMap Mxe) : (s.withMxes x).cores = s.cores := (rfl)
@[simp] theorem State.withMxes_scratch (s : State) (x : KMap Mxe) : (s.withMxes x).scratch = s.scratch := (rfl)
@[simp] theorem State.withMxes_clusters (s : State) (x : KMap Mxe) : (s.withMxes x).clusters = s.clusters := (rfl)
@[simp] theorem State.withMxes_banks (s : State) (x : KMap Mxe) : (s.withMxes x).banks = s.banks := (rfl)
@[simp] theorem State.withMxes_vxes (s : State) (x : KMap Mxe) : (s.withMxes x).vxes = s.vxes := (rfl)
@[simp] theorem State.withMxes_bins (s : State) (x : KMap Mxe) : (s.withMxes x).bins = s.bins := (rfl)
@[simp] theorem State.withMxes_work (s : State) (x : KMap Mxe) : (s.withMxes x).work = s.work := (rfl)
@[simp] theorem State.withMxes_hstOp (s : State) (x : KMap Mxe) : (s.withMxes x).hstOp = s.hstOp := (rfl)
@[simp] theorem State.withMxes_mem (s : State) (x : KMap Mxe) : (s.withMxes x).mem = s.mem := (rfl)
@[simp] theorem State.withMxes_ms (s : State) (x : KMap Mxe) : (s.withMxes x).ms = s.ms := (rfl)
@[simp] theorem State.withMxes_upd (s : State) (x : KMap Mxe) : (s.withMxes x).upd = s.upd := (rfl)
@[simp] theorem State.withMxes_commit (s : State) (x : KMap Mxe) : (s.withMxes x).commit = s.commit := (rfl)
@[simp] theorem State.withMxes_uus (s : State) (x : KMap Mxe) : (s.withMxes x).uus = s.uus := (rfl)
@[simp] theorem State.withMxes_journals (s : State) (x : KMap Mxe) : (s.withMxes x).journals = s.journals := (rfl)
@[simp] theorem State.withMxes_stg (s : State) (x : KMap Mxe) : (s.withMxes x).stg = s.stg := (rfl)
@[simp] theorem State.withMxes_sync (s : State) (x : KMap Mxe) : (s.withMxes x).sync = s.sync := (rfl)
@[simp] theorem State.withMxes_net (s : State) (x : KMap Mxe) : (s.withMxes x).net = s.net := (rfl)
@[simp] theorem State.withMxes_cr (s : State) (x : KMap Mxe) : (s.withMxes x).cr = s.cr := (rfl)
@[simp] theorem State.withMxes_host (s : State) (x : KMap Mxe) : (s.withMxes x).host = s.host := (rfl)
@[simp] theorem State.withMxes_rcv (s : State) (x : KMap Mxe) : (s.withMxes x).rcv = s.rcv := (rfl)
@[simp] theorem State.withMxes_ldg (s : State) (x : KMap Mxe) : (s.withMxes x).ldg = s.ldg := (rfl)
@[simp] theorem State.withMxes_pwr (s : State) (x : KMap Mxe) : (s.withMxes x).pwr = s.pwr := (rfl)
@[simp] theorem State.withMxes_boot (s : State) (x : KMap Mxe) : (s.withMxes x).boot = s.boot := (rfl)
@[simp] theorem State.withMxes_tap (s : State) (x : KMap Mxe) : (s.withMxes x).tap = s.tap := (rfl)

/-! ## State.withVxes -/

@[simp] theorem State.withVxes_vxes (s : State) (x : KMap (Option ChainRun)) : (s.withVxes x).vxes = x := (rfl)
@[simp] theorem State.withVxes_pending (s : State) (x : KMap (Option ChainRun)) : (s.withVxes x).pending = s.pending := (rfl)
@[simp] theorem State.withVxes_free (s : State) (x : KMap (Option ChainRun)) : (s.withVxes x).free = s.free := (rfl)
@[simp] theorem State.withVxes_rdData (s : State) (x : KMap (Option ChainRun)) : (s.withVxes x).rdData = s.rdData := (rfl)
@[simp] theorem State.withVxes_regStatus (s : State) (x : KMap (Option ChainRun)) : (s.withVxes x).regStatus = s.regStatus := (rfl)
@[simp] theorem State.withVxes_regs (s : State) (x : KMap (Option ChainRun)) : (s.withVxes x).regs = s.regs := (rfl)
@[simp] theorem State.withVxes_errCtx (s : State) (x : KMap (Option ChainRun)) : (s.withVxes x).errCtx = s.errCtx := (rfl)
@[simp] theorem State.withVxes_events (s : State) (x : KMap (Option ChainRun)) : (s.withVxes x).events = s.events := (rfl)
@[simp] theorem State.withVxes_plat (s : State) (x : KMap (Option ChainRun)) : (s.withVxes x).plat = s.plat := (rfl)
@[simp] theorem State.withVxes_sst (s : State) (x : KMap (Option ChainRun)) : (s.withVxes x).sst = s.sst := (rfl)
@[simp] theorem State.withVxes_cores (s : State) (x : KMap (Option ChainRun)) : (s.withVxes x).cores = s.cores := (rfl)
@[simp] theorem State.withVxes_scratch (s : State) (x : KMap (Option ChainRun)) : (s.withVxes x).scratch = s.scratch := (rfl)
@[simp] theorem State.withVxes_clusters (s : State) (x : KMap (Option ChainRun)) : (s.withVxes x).clusters = s.clusters := (rfl)
@[simp] theorem State.withVxes_banks (s : State) (x : KMap (Option ChainRun)) : (s.withVxes x).banks = s.banks := (rfl)
@[simp] theorem State.withVxes_mxes (s : State) (x : KMap (Option ChainRun)) : (s.withVxes x).mxes = s.mxes := (rfl)
@[simp] theorem State.withVxes_bins (s : State) (x : KMap (Option ChainRun)) : (s.withVxes x).bins = s.bins := (rfl)
@[simp] theorem State.withVxes_work (s : State) (x : KMap (Option ChainRun)) : (s.withVxes x).work = s.work := (rfl)
@[simp] theorem State.withVxes_hstOp (s : State) (x : KMap (Option ChainRun)) : (s.withVxes x).hstOp = s.hstOp := (rfl)
@[simp] theorem State.withVxes_mem (s : State) (x : KMap (Option ChainRun)) : (s.withVxes x).mem = s.mem := (rfl)
@[simp] theorem State.withVxes_ms (s : State) (x : KMap (Option ChainRun)) : (s.withVxes x).ms = s.ms := (rfl)
@[simp] theorem State.withVxes_upd (s : State) (x : KMap (Option ChainRun)) : (s.withVxes x).upd = s.upd := (rfl)
@[simp] theorem State.withVxes_commit (s : State) (x : KMap (Option ChainRun)) : (s.withVxes x).commit = s.commit := (rfl)
@[simp] theorem State.withVxes_uus (s : State) (x : KMap (Option ChainRun)) : (s.withVxes x).uus = s.uus := (rfl)
@[simp] theorem State.withVxes_journals (s : State) (x : KMap (Option ChainRun)) : (s.withVxes x).journals = s.journals := (rfl)
@[simp] theorem State.withVxes_stg (s : State) (x : KMap (Option ChainRun)) : (s.withVxes x).stg = s.stg := (rfl)
@[simp] theorem State.withVxes_sync (s : State) (x : KMap (Option ChainRun)) : (s.withVxes x).sync = s.sync := (rfl)
@[simp] theorem State.withVxes_net (s : State) (x : KMap (Option ChainRun)) : (s.withVxes x).net = s.net := (rfl)
@[simp] theorem State.withVxes_cr (s : State) (x : KMap (Option ChainRun)) : (s.withVxes x).cr = s.cr := (rfl)
@[simp] theorem State.withVxes_host (s : State) (x : KMap (Option ChainRun)) : (s.withVxes x).host = s.host := (rfl)
@[simp] theorem State.withVxes_rcv (s : State) (x : KMap (Option ChainRun)) : (s.withVxes x).rcv = s.rcv := (rfl)
@[simp] theorem State.withVxes_ldg (s : State) (x : KMap (Option ChainRun)) : (s.withVxes x).ldg = s.ldg := (rfl)
@[simp] theorem State.withVxes_pwr (s : State) (x : KMap (Option ChainRun)) : (s.withVxes x).pwr = s.pwr := (rfl)
@[simp] theorem State.withVxes_boot (s : State) (x : KMap (Option ChainRun)) : (s.withVxes x).boot = s.boot := (rfl)
@[simp] theorem State.withVxes_tap (s : State) (x : KMap (Option ChainRun)) : (s.withVxes x).tap = s.tap := (rfl)

/-! ## State.withBins -/

@[simp] theorem State.withBins_bins (s : State) (x : KMap Nat) : (s.withBins x).bins = x := (rfl)
@[simp] theorem State.withBins_pending (s : State) (x : KMap Nat) : (s.withBins x).pending = s.pending := (rfl)
@[simp] theorem State.withBins_free (s : State) (x : KMap Nat) : (s.withBins x).free = s.free := (rfl)
@[simp] theorem State.withBins_rdData (s : State) (x : KMap Nat) : (s.withBins x).rdData = s.rdData := (rfl)
@[simp] theorem State.withBins_regStatus (s : State) (x : KMap Nat) : (s.withBins x).regStatus = s.regStatus := (rfl)
@[simp] theorem State.withBins_regs (s : State) (x : KMap Nat) : (s.withBins x).regs = s.regs := (rfl)
@[simp] theorem State.withBins_errCtx (s : State) (x : KMap Nat) : (s.withBins x).errCtx = s.errCtx := (rfl)
@[simp] theorem State.withBins_events (s : State) (x : KMap Nat) : (s.withBins x).events = s.events := (rfl)
@[simp] theorem State.withBins_plat (s : State) (x : KMap Nat) : (s.withBins x).plat = s.plat := (rfl)
@[simp] theorem State.withBins_sst (s : State) (x : KMap Nat) : (s.withBins x).sst = s.sst := (rfl)
@[simp] theorem State.withBins_cores (s : State) (x : KMap Nat) : (s.withBins x).cores = s.cores := (rfl)
@[simp] theorem State.withBins_scratch (s : State) (x : KMap Nat) : (s.withBins x).scratch = s.scratch := (rfl)
@[simp] theorem State.withBins_clusters (s : State) (x : KMap Nat) : (s.withBins x).clusters = s.clusters := (rfl)
@[simp] theorem State.withBins_banks (s : State) (x : KMap Nat) : (s.withBins x).banks = s.banks := (rfl)
@[simp] theorem State.withBins_mxes (s : State) (x : KMap Nat) : (s.withBins x).mxes = s.mxes := (rfl)
@[simp] theorem State.withBins_vxes (s : State) (x : KMap Nat) : (s.withBins x).vxes = s.vxes := (rfl)
@[simp] theorem State.withBins_work (s : State) (x : KMap Nat) : (s.withBins x).work = s.work := (rfl)
@[simp] theorem State.withBins_hstOp (s : State) (x : KMap Nat) : (s.withBins x).hstOp = s.hstOp := (rfl)
@[simp] theorem State.withBins_mem (s : State) (x : KMap Nat) : (s.withBins x).mem = s.mem := (rfl)
@[simp] theorem State.withBins_ms (s : State) (x : KMap Nat) : (s.withBins x).ms = s.ms := (rfl)
@[simp] theorem State.withBins_upd (s : State) (x : KMap Nat) : (s.withBins x).upd = s.upd := (rfl)
@[simp] theorem State.withBins_commit (s : State) (x : KMap Nat) : (s.withBins x).commit = s.commit := (rfl)
@[simp] theorem State.withBins_uus (s : State) (x : KMap Nat) : (s.withBins x).uus = s.uus := (rfl)
@[simp] theorem State.withBins_journals (s : State) (x : KMap Nat) : (s.withBins x).journals = s.journals := (rfl)
@[simp] theorem State.withBins_stg (s : State) (x : KMap Nat) : (s.withBins x).stg = s.stg := (rfl)
@[simp] theorem State.withBins_sync (s : State) (x : KMap Nat) : (s.withBins x).sync = s.sync := (rfl)
@[simp] theorem State.withBins_net (s : State) (x : KMap Nat) : (s.withBins x).net = s.net := (rfl)
@[simp] theorem State.withBins_cr (s : State) (x : KMap Nat) : (s.withBins x).cr = s.cr := (rfl)
@[simp] theorem State.withBins_host (s : State) (x : KMap Nat) : (s.withBins x).host = s.host := (rfl)
@[simp] theorem State.withBins_rcv (s : State) (x : KMap Nat) : (s.withBins x).rcv = s.rcv := (rfl)
@[simp] theorem State.withBins_ldg (s : State) (x : KMap Nat) : (s.withBins x).ldg = s.ldg := (rfl)
@[simp] theorem State.withBins_pwr (s : State) (x : KMap Nat) : (s.withBins x).pwr = s.pwr := (rfl)
@[simp] theorem State.withBins_boot (s : State) (x : KMap Nat) : (s.withBins x).boot = s.boot := (rfl)
@[simp] theorem State.withBins_tap (s : State) (x : KMap Nat) : (s.withBins x).tap = s.tap := (rfl)

/-! ## State.withWork -/

@[simp] theorem State.withWork_work (s : State) (x : KMap Nat) : (s.withWork x).work = x := (rfl)
@[simp] theorem State.withWork_pending (s : State) (x : KMap Nat) : (s.withWork x).pending = s.pending := (rfl)
@[simp] theorem State.withWork_free (s : State) (x : KMap Nat) : (s.withWork x).free = s.free := (rfl)
@[simp] theorem State.withWork_rdData (s : State) (x : KMap Nat) : (s.withWork x).rdData = s.rdData := (rfl)
@[simp] theorem State.withWork_regStatus (s : State) (x : KMap Nat) : (s.withWork x).regStatus = s.regStatus := (rfl)
@[simp] theorem State.withWork_regs (s : State) (x : KMap Nat) : (s.withWork x).regs = s.regs := (rfl)
@[simp] theorem State.withWork_errCtx (s : State) (x : KMap Nat) : (s.withWork x).errCtx = s.errCtx := (rfl)
@[simp] theorem State.withWork_events (s : State) (x : KMap Nat) : (s.withWork x).events = s.events := (rfl)
@[simp] theorem State.withWork_plat (s : State) (x : KMap Nat) : (s.withWork x).plat = s.plat := (rfl)
@[simp] theorem State.withWork_sst (s : State) (x : KMap Nat) : (s.withWork x).sst = s.sst := (rfl)
@[simp] theorem State.withWork_cores (s : State) (x : KMap Nat) : (s.withWork x).cores = s.cores := (rfl)
@[simp] theorem State.withWork_scratch (s : State) (x : KMap Nat) : (s.withWork x).scratch = s.scratch := (rfl)
@[simp] theorem State.withWork_clusters (s : State) (x : KMap Nat) : (s.withWork x).clusters = s.clusters := (rfl)
@[simp] theorem State.withWork_banks (s : State) (x : KMap Nat) : (s.withWork x).banks = s.banks := (rfl)
@[simp] theorem State.withWork_mxes (s : State) (x : KMap Nat) : (s.withWork x).mxes = s.mxes := (rfl)
@[simp] theorem State.withWork_vxes (s : State) (x : KMap Nat) : (s.withWork x).vxes = s.vxes := (rfl)
@[simp] theorem State.withWork_bins (s : State) (x : KMap Nat) : (s.withWork x).bins = s.bins := (rfl)
@[simp] theorem State.withWork_hstOp (s : State) (x : KMap Nat) : (s.withWork x).hstOp = s.hstOp := (rfl)
@[simp] theorem State.withWork_mem (s : State) (x : KMap Nat) : (s.withWork x).mem = s.mem := (rfl)
@[simp] theorem State.withWork_ms (s : State) (x : KMap Nat) : (s.withWork x).ms = s.ms := (rfl)
@[simp] theorem State.withWork_upd (s : State) (x : KMap Nat) : (s.withWork x).upd = s.upd := (rfl)
@[simp] theorem State.withWork_commit (s : State) (x : KMap Nat) : (s.withWork x).commit = s.commit := (rfl)
@[simp] theorem State.withWork_uus (s : State) (x : KMap Nat) : (s.withWork x).uus = s.uus := (rfl)
@[simp] theorem State.withWork_journals (s : State) (x : KMap Nat) : (s.withWork x).journals = s.journals := (rfl)
@[simp] theorem State.withWork_stg (s : State) (x : KMap Nat) : (s.withWork x).stg = s.stg := (rfl)
@[simp] theorem State.withWork_sync (s : State) (x : KMap Nat) : (s.withWork x).sync = s.sync := (rfl)
@[simp] theorem State.withWork_net (s : State) (x : KMap Nat) : (s.withWork x).net = s.net := (rfl)
@[simp] theorem State.withWork_cr (s : State) (x : KMap Nat) : (s.withWork x).cr = s.cr := (rfl)
@[simp] theorem State.withWork_host (s : State) (x : KMap Nat) : (s.withWork x).host = s.host := (rfl)
@[simp] theorem State.withWork_rcv (s : State) (x : KMap Nat) : (s.withWork x).rcv = s.rcv := (rfl)
@[simp] theorem State.withWork_ldg (s : State) (x : KMap Nat) : (s.withWork x).ldg = s.ldg := (rfl)
@[simp] theorem State.withWork_pwr (s : State) (x : KMap Nat) : (s.withWork x).pwr = s.pwr := (rfl)
@[simp] theorem State.withWork_boot (s : State) (x : KMap Nat) : (s.withWork x).boot = s.boot := (rfl)
@[simp] theorem State.withWork_tap (s : State) (x : KMap Nat) : (s.withWork x).tap = s.tap := (rfl)

/-! ## State.withHstOp -/

@[simp] theorem State.withHstOp_hstOp (s : State) (x : KMap (Option HstOp)) : (s.withHstOp x).hstOp = x := (rfl)
@[simp] theorem State.withHstOp_pending (s : State) (x : KMap (Option HstOp)) : (s.withHstOp x).pending = s.pending := (rfl)
@[simp] theorem State.withHstOp_free (s : State) (x : KMap (Option HstOp)) : (s.withHstOp x).free = s.free := (rfl)
@[simp] theorem State.withHstOp_rdData (s : State) (x : KMap (Option HstOp)) : (s.withHstOp x).rdData = s.rdData := (rfl)
@[simp] theorem State.withHstOp_regStatus (s : State) (x : KMap (Option HstOp)) : (s.withHstOp x).regStatus = s.regStatus := (rfl)
@[simp] theorem State.withHstOp_regs (s : State) (x : KMap (Option HstOp)) : (s.withHstOp x).regs = s.regs := (rfl)
@[simp] theorem State.withHstOp_errCtx (s : State) (x : KMap (Option HstOp)) : (s.withHstOp x).errCtx = s.errCtx := (rfl)
@[simp] theorem State.withHstOp_events (s : State) (x : KMap (Option HstOp)) : (s.withHstOp x).events = s.events := (rfl)
@[simp] theorem State.withHstOp_plat (s : State) (x : KMap (Option HstOp)) : (s.withHstOp x).plat = s.plat := (rfl)
@[simp] theorem State.withHstOp_sst (s : State) (x : KMap (Option HstOp)) : (s.withHstOp x).sst = s.sst := (rfl)
@[simp] theorem State.withHstOp_cores (s : State) (x : KMap (Option HstOp)) : (s.withHstOp x).cores = s.cores := (rfl)
@[simp] theorem State.withHstOp_scratch (s : State) (x : KMap (Option HstOp)) : (s.withHstOp x).scratch = s.scratch := (rfl)
@[simp] theorem State.withHstOp_clusters (s : State) (x : KMap (Option HstOp)) : (s.withHstOp x).clusters = s.clusters := (rfl)
@[simp] theorem State.withHstOp_banks (s : State) (x : KMap (Option HstOp)) : (s.withHstOp x).banks = s.banks := (rfl)
@[simp] theorem State.withHstOp_mxes (s : State) (x : KMap (Option HstOp)) : (s.withHstOp x).mxes = s.mxes := (rfl)
@[simp] theorem State.withHstOp_vxes (s : State) (x : KMap (Option HstOp)) : (s.withHstOp x).vxes = s.vxes := (rfl)
@[simp] theorem State.withHstOp_bins (s : State) (x : KMap (Option HstOp)) : (s.withHstOp x).bins = s.bins := (rfl)
@[simp] theorem State.withHstOp_work (s : State) (x : KMap (Option HstOp)) : (s.withHstOp x).work = s.work := (rfl)
@[simp] theorem State.withHstOp_mem (s : State) (x : KMap (Option HstOp)) : (s.withHstOp x).mem = s.mem := (rfl)
@[simp] theorem State.withHstOp_ms (s : State) (x : KMap (Option HstOp)) : (s.withHstOp x).ms = s.ms := (rfl)
@[simp] theorem State.withHstOp_upd (s : State) (x : KMap (Option HstOp)) : (s.withHstOp x).upd = s.upd := (rfl)
@[simp] theorem State.withHstOp_commit (s : State) (x : KMap (Option HstOp)) : (s.withHstOp x).commit = s.commit := (rfl)
@[simp] theorem State.withHstOp_uus (s : State) (x : KMap (Option HstOp)) : (s.withHstOp x).uus = s.uus := (rfl)
@[simp] theorem State.withHstOp_journals (s : State) (x : KMap (Option HstOp)) : (s.withHstOp x).journals = s.journals := (rfl)
@[simp] theorem State.withHstOp_stg (s : State) (x : KMap (Option HstOp)) : (s.withHstOp x).stg = s.stg := (rfl)
@[simp] theorem State.withHstOp_sync (s : State) (x : KMap (Option HstOp)) : (s.withHstOp x).sync = s.sync := (rfl)
@[simp] theorem State.withHstOp_net (s : State) (x : KMap (Option HstOp)) : (s.withHstOp x).net = s.net := (rfl)
@[simp] theorem State.withHstOp_cr (s : State) (x : KMap (Option HstOp)) : (s.withHstOp x).cr = s.cr := (rfl)
@[simp] theorem State.withHstOp_host (s : State) (x : KMap (Option HstOp)) : (s.withHstOp x).host = s.host := (rfl)
@[simp] theorem State.withHstOp_rcv (s : State) (x : KMap (Option HstOp)) : (s.withHstOp x).rcv = s.rcv := (rfl)
@[simp] theorem State.withHstOp_ldg (s : State) (x : KMap (Option HstOp)) : (s.withHstOp x).ldg = s.ldg := (rfl)
@[simp] theorem State.withHstOp_pwr (s : State) (x : KMap (Option HstOp)) : (s.withHstOp x).pwr = s.pwr := (rfl)
@[simp] theorem State.withHstOp_boot (s : State) (x : KMap (Option HstOp)) : (s.withHstOp x).boot = s.boot := (rfl)
@[simp] theorem State.withHstOp_tap (s : State) (x : KMap (Option HstOp)) : (s.withHstOp x).tap = s.tap := (rfl)

/-! ## State.withMem -/

@[simp] theorem State.withMem_mem (s : State) (x : Mem) : (s.withMem x).mem = x := (rfl)
@[simp] theorem State.withMem_pending (s : State) (x : Mem) : (s.withMem x).pending = s.pending := (rfl)
@[simp] theorem State.withMem_free (s : State) (x : Mem) : (s.withMem x).free = s.free := (rfl)
@[simp] theorem State.withMem_rdData (s : State) (x : Mem) : (s.withMem x).rdData = s.rdData := (rfl)
@[simp] theorem State.withMem_regStatus (s : State) (x : Mem) : (s.withMem x).regStatus = s.regStatus := (rfl)
@[simp] theorem State.withMem_regs (s : State) (x : Mem) : (s.withMem x).regs = s.regs := (rfl)
@[simp] theorem State.withMem_errCtx (s : State) (x : Mem) : (s.withMem x).errCtx = s.errCtx := (rfl)
@[simp] theorem State.withMem_events (s : State) (x : Mem) : (s.withMem x).events = s.events := (rfl)
@[simp] theorem State.withMem_plat (s : State) (x : Mem) : (s.withMem x).plat = s.plat := (rfl)
@[simp] theorem State.withMem_sst (s : State) (x : Mem) : (s.withMem x).sst = s.sst := (rfl)
@[simp] theorem State.withMem_cores (s : State) (x : Mem) : (s.withMem x).cores = s.cores := (rfl)
@[simp] theorem State.withMem_scratch (s : State) (x : Mem) : (s.withMem x).scratch = s.scratch := (rfl)
@[simp] theorem State.withMem_clusters (s : State) (x : Mem) : (s.withMem x).clusters = s.clusters := (rfl)
@[simp] theorem State.withMem_banks (s : State) (x : Mem) : (s.withMem x).banks = s.banks := (rfl)
@[simp] theorem State.withMem_mxes (s : State) (x : Mem) : (s.withMem x).mxes = s.mxes := (rfl)
@[simp] theorem State.withMem_vxes (s : State) (x : Mem) : (s.withMem x).vxes = s.vxes := (rfl)
@[simp] theorem State.withMem_bins (s : State) (x : Mem) : (s.withMem x).bins = s.bins := (rfl)
@[simp] theorem State.withMem_work (s : State) (x : Mem) : (s.withMem x).work = s.work := (rfl)
@[simp] theorem State.withMem_hstOp (s : State) (x : Mem) : (s.withMem x).hstOp = s.hstOp := (rfl)
@[simp] theorem State.withMem_ms (s : State) (x : Mem) : (s.withMem x).ms = s.ms := (rfl)
@[simp] theorem State.withMem_upd (s : State) (x : Mem) : (s.withMem x).upd = s.upd := (rfl)
@[simp] theorem State.withMem_commit (s : State) (x : Mem) : (s.withMem x).commit = s.commit := (rfl)
@[simp] theorem State.withMem_uus (s : State) (x : Mem) : (s.withMem x).uus = s.uus := (rfl)
@[simp] theorem State.withMem_journals (s : State) (x : Mem) : (s.withMem x).journals = s.journals := (rfl)
@[simp] theorem State.withMem_stg (s : State) (x : Mem) : (s.withMem x).stg = s.stg := (rfl)
@[simp] theorem State.withMem_sync (s : State) (x : Mem) : (s.withMem x).sync = s.sync := (rfl)
@[simp] theorem State.withMem_net (s : State) (x : Mem) : (s.withMem x).net = s.net := (rfl)
@[simp] theorem State.withMem_cr (s : State) (x : Mem) : (s.withMem x).cr = s.cr := (rfl)
@[simp] theorem State.withMem_host (s : State) (x : Mem) : (s.withMem x).host = s.host := (rfl)
@[simp] theorem State.withMem_rcv (s : State) (x : Mem) : (s.withMem x).rcv = s.rcv := (rfl)
@[simp] theorem State.withMem_ldg (s : State) (x : Mem) : (s.withMem x).ldg = s.ldg := (rfl)
@[simp] theorem State.withMem_pwr (s : State) (x : Mem) : (s.withMem x).pwr = s.pwr := (rfl)
@[simp] theorem State.withMem_boot (s : State) (x : Mem) : (s.withMem x).boot = s.boot := (rfl)
@[simp] theorem State.withMem_tap (s : State) (x : Mem) : (s.withMem x).tap = s.tap := (rfl)

/-! ## State.withMs -/

@[simp] theorem State.withMs_ms (s : State) (x : MemSys) : (s.withMs x).ms = x := (rfl)
@[simp] theorem State.withMs_pending (s : State) (x : MemSys) : (s.withMs x).pending = s.pending := (rfl)
@[simp] theorem State.withMs_free (s : State) (x : MemSys) : (s.withMs x).free = s.free := (rfl)
@[simp] theorem State.withMs_rdData (s : State) (x : MemSys) : (s.withMs x).rdData = s.rdData := (rfl)
@[simp] theorem State.withMs_regStatus (s : State) (x : MemSys) : (s.withMs x).regStatus = s.regStatus := (rfl)
@[simp] theorem State.withMs_regs (s : State) (x : MemSys) : (s.withMs x).regs = s.regs := (rfl)
@[simp] theorem State.withMs_errCtx (s : State) (x : MemSys) : (s.withMs x).errCtx = s.errCtx := (rfl)
@[simp] theorem State.withMs_events (s : State) (x : MemSys) : (s.withMs x).events = s.events := (rfl)
@[simp] theorem State.withMs_plat (s : State) (x : MemSys) : (s.withMs x).plat = s.plat := (rfl)
@[simp] theorem State.withMs_sst (s : State) (x : MemSys) : (s.withMs x).sst = s.sst := (rfl)
@[simp] theorem State.withMs_cores (s : State) (x : MemSys) : (s.withMs x).cores = s.cores := (rfl)
@[simp] theorem State.withMs_scratch (s : State) (x : MemSys) : (s.withMs x).scratch = s.scratch := (rfl)
@[simp] theorem State.withMs_clusters (s : State) (x : MemSys) : (s.withMs x).clusters = s.clusters := (rfl)
@[simp] theorem State.withMs_banks (s : State) (x : MemSys) : (s.withMs x).banks = s.banks := (rfl)
@[simp] theorem State.withMs_mxes (s : State) (x : MemSys) : (s.withMs x).mxes = s.mxes := (rfl)
@[simp] theorem State.withMs_vxes (s : State) (x : MemSys) : (s.withMs x).vxes = s.vxes := (rfl)
@[simp] theorem State.withMs_bins (s : State) (x : MemSys) : (s.withMs x).bins = s.bins := (rfl)
@[simp] theorem State.withMs_work (s : State) (x : MemSys) : (s.withMs x).work = s.work := (rfl)
@[simp] theorem State.withMs_hstOp (s : State) (x : MemSys) : (s.withMs x).hstOp = s.hstOp := (rfl)
@[simp] theorem State.withMs_mem (s : State) (x : MemSys) : (s.withMs x).mem = s.mem := (rfl)
@[simp] theorem State.withMs_upd (s : State) (x : MemSys) : (s.withMs x).upd = s.upd := (rfl)
@[simp] theorem State.withMs_commit (s : State) (x : MemSys) : (s.withMs x).commit = s.commit := (rfl)
@[simp] theorem State.withMs_uus (s : State) (x : MemSys) : (s.withMs x).uus = s.uus := (rfl)
@[simp] theorem State.withMs_journals (s : State) (x : MemSys) : (s.withMs x).journals = s.journals := (rfl)
@[simp] theorem State.withMs_stg (s : State) (x : MemSys) : (s.withMs x).stg = s.stg := (rfl)
@[simp] theorem State.withMs_sync (s : State) (x : MemSys) : (s.withMs x).sync = s.sync := (rfl)
@[simp] theorem State.withMs_net (s : State) (x : MemSys) : (s.withMs x).net = s.net := (rfl)
@[simp] theorem State.withMs_cr (s : State) (x : MemSys) : (s.withMs x).cr = s.cr := (rfl)
@[simp] theorem State.withMs_host (s : State) (x : MemSys) : (s.withMs x).host = s.host := (rfl)
@[simp] theorem State.withMs_rcv (s : State) (x : MemSys) : (s.withMs x).rcv = s.rcv := (rfl)
@[simp] theorem State.withMs_ldg (s : State) (x : MemSys) : (s.withMs x).ldg = s.ldg := (rfl)
@[simp] theorem State.withMs_pwr (s : State) (x : MemSys) : (s.withMs x).pwr = s.pwr := (rfl)
@[simp] theorem State.withMs_boot (s : State) (x : MemSys) : (s.withMs x).boot = s.boot := (rfl)
@[simp] theorem State.withMs_tap (s : State) (x : MemSys) : (s.withMs x).tap = s.tap := (rfl)

/-! ## State.withUpd -/

@[simp] theorem State.withUpd_upd (s : State) (x : List UpdCmd) : (s.withUpd x).upd = x := (rfl)
@[simp] theorem State.withUpd_pending (s : State) (x : List UpdCmd) : (s.withUpd x).pending = s.pending := (rfl)
@[simp] theorem State.withUpd_free (s : State) (x : List UpdCmd) : (s.withUpd x).free = s.free := (rfl)
@[simp] theorem State.withUpd_rdData (s : State) (x : List UpdCmd) : (s.withUpd x).rdData = s.rdData := (rfl)
@[simp] theorem State.withUpd_regStatus (s : State) (x : List UpdCmd) : (s.withUpd x).regStatus = s.regStatus := (rfl)
@[simp] theorem State.withUpd_regs (s : State) (x : List UpdCmd) : (s.withUpd x).regs = s.regs := (rfl)
@[simp] theorem State.withUpd_errCtx (s : State) (x : List UpdCmd) : (s.withUpd x).errCtx = s.errCtx := (rfl)
@[simp] theorem State.withUpd_events (s : State) (x : List UpdCmd) : (s.withUpd x).events = s.events := (rfl)
@[simp] theorem State.withUpd_plat (s : State) (x : List UpdCmd) : (s.withUpd x).plat = s.plat := (rfl)
@[simp] theorem State.withUpd_sst (s : State) (x : List UpdCmd) : (s.withUpd x).sst = s.sst := (rfl)
@[simp] theorem State.withUpd_cores (s : State) (x : List UpdCmd) : (s.withUpd x).cores = s.cores := (rfl)
@[simp] theorem State.withUpd_scratch (s : State) (x : List UpdCmd) : (s.withUpd x).scratch = s.scratch := (rfl)
@[simp] theorem State.withUpd_clusters (s : State) (x : List UpdCmd) : (s.withUpd x).clusters = s.clusters := (rfl)
@[simp] theorem State.withUpd_banks (s : State) (x : List UpdCmd) : (s.withUpd x).banks = s.banks := (rfl)
@[simp] theorem State.withUpd_mxes (s : State) (x : List UpdCmd) : (s.withUpd x).mxes = s.mxes := (rfl)
@[simp] theorem State.withUpd_vxes (s : State) (x : List UpdCmd) : (s.withUpd x).vxes = s.vxes := (rfl)
@[simp] theorem State.withUpd_bins (s : State) (x : List UpdCmd) : (s.withUpd x).bins = s.bins := (rfl)
@[simp] theorem State.withUpd_work (s : State) (x : List UpdCmd) : (s.withUpd x).work = s.work := (rfl)
@[simp] theorem State.withUpd_hstOp (s : State) (x : List UpdCmd) : (s.withUpd x).hstOp = s.hstOp := (rfl)
@[simp] theorem State.withUpd_mem (s : State) (x : List UpdCmd) : (s.withUpd x).mem = s.mem := (rfl)
@[simp] theorem State.withUpd_ms (s : State) (x : List UpdCmd) : (s.withUpd x).ms = s.ms := (rfl)
@[simp] theorem State.withUpd_commit (s : State) (x : List UpdCmd) : (s.withUpd x).commit = s.commit := (rfl)
@[simp] theorem State.withUpd_uus (s : State) (x : List UpdCmd) : (s.withUpd x).uus = s.uus := (rfl)
@[simp] theorem State.withUpd_journals (s : State) (x : List UpdCmd) : (s.withUpd x).journals = s.journals := (rfl)
@[simp] theorem State.withUpd_stg (s : State) (x : List UpdCmd) : (s.withUpd x).stg = s.stg := (rfl)
@[simp] theorem State.withUpd_sync (s : State) (x : List UpdCmd) : (s.withUpd x).sync = s.sync := (rfl)
@[simp] theorem State.withUpd_net (s : State) (x : List UpdCmd) : (s.withUpd x).net = s.net := (rfl)
@[simp] theorem State.withUpd_cr (s : State) (x : List UpdCmd) : (s.withUpd x).cr = s.cr := (rfl)
@[simp] theorem State.withUpd_host (s : State) (x : List UpdCmd) : (s.withUpd x).host = s.host := (rfl)
@[simp] theorem State.withUpd_rcv (s : State) (x : List UpdCmd) : (s.withUpd x).rcv = s.rcv := (rfl)
@[simp] theorem State.withUpd_ldg (s : State) (x : List UpdCmd) : (s.withUpd x).ldg = s.ldg := (rfl)
@[simp] theorem State.withUpd_pwr (s : State) (x : List UpdCmd) : (s.withUpd x).pwr = s.pwr := (rfl)
@[simp] theorem State.withUpd_boot (s : State) (x : List UpdCmd) : (s.withUpd x).boot = s.boot := (rfl)
@[simp] theorem State.withUpd_tap (s : State) (x : List UpdCmd) : (s.withUpd x).tap = s.tap := (rfl)

/-! ## State.withCommit -/

@[simp] theorem State.withCommit_commit (s : State) (x : List (Nat × Byte)) : (s.withCommit x).commit = x := (rfl)
@[simp] theorem State.withCommit_pending (s : State) (x : List (Nat × Byte)) : (s.withCommit x).pending = s.pending := (rfl)
@[simp] theorem State.withCommit_free (s : State) (x : List (Nat × Byte)) : (s.withCommit x).free = s.free := (rfl)
@[simp] theorem State.withCommit_rdData (s : State) (x : List (Nat × Byte)) : (s.withCommit x).rdData = s.rdData := (rfl)
@[simp] theorem State.withCommit_regStatus (s : State) (x : List (Nat × Byte)) : (s.withCommit x).regStatus = s.regStatus := (rfl)
@[simp] theorem State.withCommit_regs (s : State) (x : List (Nat × Byte)) : (s.withCommit x).regs = s.regs := (rfl)
@[simp] theorem State.withCommit_errCtx (s : State) (x : List (Nat × Byte)) : (s.withCommit x).errCtx = s.errCtx := (rfl)
@[simp] theorem State.withCommit_events (s : State) (x : List (Nat × Byte)) : (s.withCommit x).events = s.events := (rfl)
@[simp] theorem State.withCommit_plat (s : State) (x : List (Nat × Byte)) : (s.withCommit x).plat = s.plat := (rfl)
@[simp] theorem State.withCommit_sst (s : State) (x : List (Nat × Byte)) : (s.withCommit x).sst = s.sst := (rfl)
@[simp] theorem State.withCommit_cores (s : State) (x : List (Nat × Byte)) : (s.withCommit x).cores = s.cores := (rfl)
@[simp] theorem State.withCommit_scratch (s : State) (x : List (Nat × Byte)) : (s.withCommit x).scratch = s.scratch := (rfl)
@[simp] theorem State.withCommit_clusters (s : State) (x : List (Nat × Byte)) : (s.withCommit x).clusters = s.clusters := (rfl)
@[simp] theorem State.withCommit_banks (s : State) (x : List (Nat × Byte)) : (s.withCommit x).banks = s.banks := (rfl)
@[simp] theorem State.withCommit_mxes (s : State) (x : List (Nat × Byte)) : (s.withCommit x).mxes = s.mxes := (rfl)
@[simp] theorem State.withCommit_vxes (s : State) (x : List (Nat × Byte)) : (s.withCommit x).vxes = s.vxes := (rfl)
@[simp] theorem State.withCommit_bins (s : State) (x : List (Nat × Byte)) : (s.withCommit x).bins = s.bins := (rfl)
@[simp] theorem State.withCommit_work (s : State) (x : List (Nat × Byte)) : (s.withCommit x).work = s.work := (rfl)
@[simp] theorem State.withCommit_hstOp (s : State) (x : List (Nat × Byte)) : (s.withCommit x).hstOp = s.hstOp := (rfl)
@[simp] theorem State.withCommit_mem (s : State) (x : List (Nat × Byte)) : (s.withCommit x).mem = s.mem := (rfl)
@[simp] theorem State.withCommit_ms (s : State) (x : List (Nat × Byte)) : (s.withCommit x).ms = s.ms := (rfl)
@[simp] theorem State.withCommit_upd (s : State) (x : List (Nat × Byte)) : (s.withCommit x).upd = s.upd := (rfl)
@[simp] theorem State.withCommit_uus (s : State) (x : List (Nat × Byte)) : (s.withCommit x).uus = s.uus := (rfl)
@[simp] theorem State.withCommit_journals (s : State) (x : List (Nat × Byte)) : (s.withCommit x).journals = s.journals := (rfl)
@[simp] theorem State.withCommit_stg (s : State) (x : List (Nat × Byte)) : (s.withCommit x).stg = s.stg := (rfl)
@[simp] theorem State.withCommit_sync (s : State) (x : List (Nat × Byte)) : (s.withCommit x).sync = s.sync := (rfl)
@[simp] theorem State.withCommit_net (s : State) (x : List (Nat × Byte)) : (s.withCommit x).net = s.net := (rfl)
@[simp] theorem State.withCommit_cr (s : State) (x : List (Nat × Byte)) : (s.withCommit x).cr = s.cr := (rfl)
@[simp] theorem State.withCommit_host (s : State) (x : List (Nat × Byte)) : (s.withCommit x).host = s.host := (rfl)
@[simp] theorem State.withCommit_rcv (s : State) (x : List (Nat × Byte)) : (s.withCommit x).rcv = s.rcv := (rfl)
@[simp] theorem State.withCommit_ldg (s : State) (x : List (Nat × Byte)) : (s.withCommit x).ldg = s.ldg := (rfl)
@[simp] theorem State.withCommit_pwr (s : State) (x : List (Nat × Byte)) : (s.withCommit x).pwr = s.pwr := (rfl)
@[simp] theorem State.withCommit_boot (s : State) (x : List (Nat × Byte)) : (s.withCommit x).boot = s.boot := (rfl)
@[simp] theorem State.withCommit_tap (s : State) (x : List (Nat × Byte)) : (s.withCommit x).tap = s.tap := (rfl)

/-! ## State.withUus -/

@[simp] theorem State.withUus_uus (s : State) (x : KMap Uu) : (s.withUus x).uus = x := (rfl)
@[simp] theorem State.withUus_pending (s : State) (x : KMap Uu) : (s.withUus x).pending = s.pending := (rfl)
@[simp] theorem State.withUus_free (s : State) (x : KMap Uu) : (s.withUus x).free = s.free := (rfl)
@[simp] theorem State.withUus_rdData (s : State) (x : KMap Uu) : (s.withUus x).rdData = s.rdData := (rfl)
@[simp] theorem State.withUus_regStatus (s : State) (x : KMap Uu) : (s.withUus x).regStatus = s.regStatus := (rfl)
@[simp] theorem State.withUus_regs (s : State) (x : KMap Uu) : (s.withUus x).regs = s.regs := (rfl)
@[simp] theorem State.withUus_errCtx (s : State) (x : KMap Uu) : (s.withUus x).errCtx = s.errCtx := (rfl)
@[simp] theorem State.withUus_events (s : State) (x : KMap Uu) : (s.withUus x).events = s.events := (rfl)
@[simp] theorem State.withUus_plat (s : State) (x : KMap Uu) : (s.withUus x).plat = s.plat := (rfl)
@[simp] theorem State.withUus_sst (s : State) (x : KMap Uu) : (s.withUus x).sst = s.sst := (rfl)
@[simp] theorem State.withUus_cores (s : State) (x : KMap Uu) : (s.withUus x).cores = s.cores := (rfl)
@[simp] theorem State.withUus_scratch (s : State) (x : KMap Uu) : (s.withUus x).scratch = s.scratch := (rfl)
@[simp] theorem State.withUus_clusters (s : State) (x : KMap Uu) : (s.withUus x).clusters = s.clusters := (rfl)
@[simp] theorem State.withUus_banks (s : State) (x : KMap Uu) : (s.withUus x).banks = s.banks := (rfl)
@[simp] theorem State.withUus_mxes (s : State) (x : KMap Uu) : (s.withUus x).mxes = s.mxes := (rfl)
@[simp] theorem State.withUus_vxes (s : State) (x : KMap Uu) : (s.withUus x).vxes = s.vxes := (rfl)
@[simp] theorem State.withUus_bins (s : State) (x : KMap Uu) : (s.withUus x).bins = s.bins := (rfl)
@[simp] theorem State.withUus_work (s : State) (x : KMap Uu) : (s.withUus x).work = s.work := (rfl)
@[simp] theorem State.withUus_hstOp (s : State) (x : KMap Uu) : (s.withUus x).hstOp = s.hstOp := (rfl)
@[simp] theorem State.withUus_mem (s : State) (x : KMap Uu) : (s.withUus x).mem = s.mem := (rfl)
@[simp] theorem State.withUus_ms (s : State) (x : KMap Uu) : (s.withUus x).ms = s.ms := (rfl)
@[simp] theorem State.withUus_upd (s : State) (x : KMap Uu) : (s.withUus x).upd = s.upd := (rfl)
@[simp] theorem State.withUus_commit (s : State) (x : KMap Uu) : (s.withUus x).commit = s.commit := (rfl)
@[simp] theorem State.withUus_journals (s : State) (x : KMap Uu) : (s.withUus x).journals = s.journals := (rfl)
@[simp] theorem State.withUus_stg (s : State) (x : KMap Uu) : (s.withUus x).stg = s.stg := (rfl)
@[simp] theorem State.withUus_sync (s : State) (x : KMap Uu) : (s.withUus x).sync = s.sync := (rfl)
@[simp] theorem State.withUus_net (s : State) (x : KMap Uu) : (s.withUus x).net = s.net := (rfl)
@[simp] theorem State.withUus_cr (s : State) (x : KMap Uu) : (s.withUus x).cr = s.cr := (rfl)
@[simp] theorem State.withUus_host (s : State) (x : KMap Uu) : (s.withUus x).host = s.host := (rfl)
@[simp] theorem State.withUus_rcv (s : State) (x : KMap Uu) : (s.withUus x).rcv = s.rcv := (rfl)
@[simp] theorem State.withUus_ldg (s : State) (x : KMap Uu) : (s.withUus x).ldg = s.ldg := (rfl)
@[simp] theorem State.withUus_pwr (s : State) (x : KMap Uu) : (s.withUus x).pwr = s.pwr := (rfl)
@[simp] theorem State.withUus_boot (s : State) (x : KMap Uu) : (s.withUus x).boot = s.boot := (rfl)
@[simp] theorem State.withUus_tap (s : State) (x : KMap Uu) : (s.withUus x).tap = s.tap := (rfl)

/-! ## State.withJournals -/

@[simp] theorem State.withJournals_journals (s : State) (x : List Journal) : (s.withJournals x).journals = x := (rfl)
@[simp] theorem State.withJournals_pending (s : State) (x : List Journal) : (s.withJournals x).pending = s.pending := (rfl)
@[simp] theorem State.withJournals_free (s : State) (x : List Journal) : (s.withJournals x).free = s.free := (rfl)
@[simp] theorem State.withJournals_rdData (s : State) (x : List Journal) : (s.withJournals x).rdData = s.rdData := (rfl)
@[simp] theorem State.withJournals_regStatus (s : State) (x : List Journal) : (s.withJournals x).regStatus = s.regStatus := (rfl)
@[simp] theorem State.withJournals_regs (s : State) (x : List Journal) : (s.withJournals x).regs = s.regs := (rfl)
@[simp] theorem State.withJournals_errCtx (s : State) (x : List Journal) : (s.withJournals x).errCtx = s.errCtx := (rfl)
@[simp] theorem State.withJournals_events (s : State) (x : List Journal) : (s.withJournals x).events = s.events := (rfl)
@[simp] theorem State.withJournals_plat (s : State) (x : List Journal) : (s.withJournals x).plat = s.plat := (rfl)
@[simp] theorem State.withJournals_sst (s : State) (x : List Journal) : (s.withJournals x).sst = s.sst := (rfl)
@[simp] theorem State.withJournals_cores (s : State) (x : List Journal) : (s.withJournals x).cores = s.cores := (rfl)
@[simp] theorem State.withJournals_scratch (s : State) (x : List Journal) : (s.withJournals x).scratch = s.scratch := (rfl)
@[simp] theorem State.withJournals_clusters (s : State) (x : List Journal) : (s.withJournals x).clusters = s.clusters := (rfl)
@[simp] theorem State.withJournals_banks (s : State) (x : List Journal) : (s.withJournals x).banks = s.banks := (rfl)
@[simp] theorem State.withJournals_mxes (s : State) (x : List Journal) : (s.withJournals x).mxes = s.mxes := (rfl)
@[simp] theorem State.withJournals_vxes (s : State) (x : List Journal) : (s.withJournals x).vxes = s.vxes := (rfl)
@[simp] theorem State.withJournals_bins (s : State) (x : List Journal) : (s.withJournals x).bins = s.bins := (rfl)
@[simp] theorem State.withJournals_work (s : State) (x : List Journal) : (s.withJournals x).work = s.work := (rfl)
@[simp] theorem State.withJournals_hstOp (s : State) (x : List Journal) : (s.withJournals x).hstOp = s.hstOp := (rfl)
@[simp] theorem State.withJournals_mem (s : State) (x : List Journal) : (s.withJournals x).mem = s.mem := (rfl)
@[simp] theorem State.withJournals_ms (s : State) (x : List Journal) : (s.withJournals x).ms = s.ms := (rfl)
@[simp] theorem State.withJournals_upd (s : State) (x : List Journal) : (s.withJournals x).upd = s.upd := (rfl)
@[simp] theorem State.withJournals_commit (s : State) (x : List Journal) : (s.withJournals x).commit = s.commit := (rfl)
@[simp] theorem State.withJournals_uus (s : State) (x : List Journal) : (s.withJournals x).uus = s.uus := (rfl)
@[simp] theorem State.withJournals_stg (s : State) (x : List Journal) : (s.withJournals x).stg = s.stg := (rfl)
@[simp] theorem State.withJournals_sync (s : State) (x : List Journal) : (s.withJournals x).sync = s.sync := (rfl)
@[simp] theorem State.withJournals_net (s : State) (x : List Journal) : (s.withJournals x).net = s.net := (rfl)
@[simp] theorem State.withJournals_cr (s : State) (x : List Journal) : (s.withJournals x).cr = s.cr := (rfl)
@[simp] theorem State.withJournals_host (s : State) (x : List Journal) : (s.withJournals x).host = s.host := (rfl)
@[simp] theorem State.withJournals_rcv (s : State) (x : List Journal) : (s.withJournals x).rcv = s.rcv := (rfl)
@[simp] theorem State.withJournals_ldg (s : State) (x : List Journal) : (s.withJournals x).ldg = s.ldg := (rfl)
@[simp] theorem State.withJournals_pwr (s : State) (x : List Journal) : (s.withJournals x).pwr = s.pwr := (rfl)
@[simp] theorem State.withJournals_boot (s : State) (x : List Journal) : (s.withJournals x).boot = s.boot := (rfl)
@[simp] theorem State.withJournals_tap (s : State) (x : List Journal) : (s.withJournals x).tap = s.tap := (rfl)

/-! ## State.withStg -/

@[simp] theorem State.withStg_stg (s : State) (x : Stages) : (s.withStg x).stg = x := (rfl)
@[simp] theorem State.withStg_pending (s : State) (x : Stages) : (s.withStg x).pending = s.pending := (rfl)
@[simp] theorem State.withStg_free (s : State) (x : Stages) : (s.withStg x).free = s.free := (rfl)
@[simp] theorem State.withStg_rdData (s : State) (x : Stages) : (s.withStg x).rdData = s.rdData := (rfl)
@[simp] theorem State.withStg_regStatus (s : State) (x : Stages) : (s.withStg x).regStatus = s.regStatus := (rfl)
@[simp] theorem State.withStg_regs (s : State) (x : Stages) : (s.withStg x).regs = s.regs := (rfl)
@[simp] theorem State.withStg_errCtx (s : State) (x : Stages) : (s.withStg x).errCtx = s.errCtx := (rfl)
@[simp] theorem State.withStg_events (s : State) (x : Stages) : (s.withStg x).events = s.events := (rfl)
@[simp] theorem State.withStg_plat (s : State) (x : Stages) : (s.withStg x).plat = s.plat := (rfl)
@[simp] theorem State.withStg_sst (s : State) (x : Stages) : (s.withStg x).sst = s.sst := (rfl)
@[simp] theorem State.withStg_cores (s : State) (x : Stages) : (s.withStg x).cores = s.cores := (rfl)
@[simp] theorem State.withStg_scratch (s : State) (x : Stages) : (s.withStg x).scratch = s.scratch := (rfl)
@[simp] theorem State.withStg_clusters (s : State) (x : Stages) : (s.withStg x).clusters = s.clusters := (rfl)
@[simp] theorem State.withStg_banks (s : State) (x : Stages) : (s.withStg x).banks = s.banks := (rfl)
@[simp] theorem State.withStg_mxes (s : State) (x : Stages) : (s.withStg x).mxes = s.mxes := (rfl)
@[simp] theorem State.withStg_vxes (s : State) (x : Stages) : (s.withStg x).vxes = s.vxes := (rfl)
@[simp] theorem State.withStg_bins (s : State) (x : Stages) : (s.withStg x).bins = s.bins := (rfl)
@[simp] theorem State.withStg_work (s : State) (x : Stages) : (s.withStg x).work = s.work := (rfl)
@[simp] theorem State.withStg_hstOp (s : State) (x : Stages) : (s.withStg x).hstOp = s.hstOp := (rfl)
@[simp] theorem State.withStg_mem (s : State) (x : Stages) : (s.withStg x).mem = s.mem := (rfl)
@[simp] theorem State.withStg_ms (s : State) (x : Stages) : (s.withStg x).ms = s.ms := (rfl)
@[simp] theorem State.withStg_upd (s : State) (x : Stages) : (s.withStg x).upd = s.upd := (rfl)
@[simp] theorem State.withStg_commit (s : State) (x : Stages) : (s.withStg x).commit = s.commit := (rfl)
@[simp] theorem State.withStg_uus (s : State) (x : Stages) : (s.withStg x).uus = s.uus := (rfl)
@[simp] theorem State.withStg_journals (s : State) (x : Stages) : (s.withStg x).journals = s.journals := (rfl)
@[simp] theorem State.withStg_sync (s : State) (x : Stages) : (s.withStg x).sync = s.sync := (rfl)
@[simp] theorem State.withStg_net (s : State) (x : Stages) : (s.withStg x).net = s.net := (rfl)
@[simp] theorem State.withStg_cr (s : State) (x : Stages) : (s.withStg x).cr = s.cr := (rfl)
@[simp] theorem State.withStg_host (s : State) (x : Stages) : (s.withStg x).host = s.host := (rfl)
@[simp] theorem State.withStg_rcv (s : State) (x : Stages) : (s.withStg x).rcv = s.rcv := (rfl)
@[simp] theorem State.withStg_ldg (s : State) (x : Stages) : (s.withStg x).ldg = s.ldg := (rfl)
@[simp] theorem State.withStg_pwr (s : State) (x : Stages) : (s.withStg x).pwr = s.pwr := (rfl)
@[simp] theorem State.withStg_boot (s : State) (x : Stages) : (s.withStg x).boot = s.boot := (rfl)
@[simp] theorem State.withStg_tap (s : State) (x : Stages) : (s.withStg x).tap = s.tap := (rfl)

/-! ## State.withSync -/

@[simp] theorem State.withSync_sync (s : State) (x : Sync) : (s.withSync x).sync = x := (rfl)
@[simp] theorem State.withSync_pending (s : State) (x : Sync) : (s.withSync x).pending = s.pending := (rfl)
@[simp] theorem State.withSync_free (s : State) (x : Sync) : (s.withSync x).free = s.free := (rfl)
@[simp] theorem State.withSync_rdData (s : State) (x : Sync) : (s.withSync x).rdData = s.rdData := (rfl)
@[simp] theorem State.withSync_regStatus (s : State) (x : Sync) : (s.withSync x).regStatus = s.regStatus := (rfl)
@[simp] theorem State.withSync_regs (s : State) (x : Sync) : (s.withSync x).regs = s.regs := (rfl)
@[simp] theorem State.withSync_errCtx (s : State) (x : Sync) : (s.withSync x).errCtx = s.errCtx := (rfl)
@[simp] theorem State.withSync_events (s : State) (x : Sync) : (s.withSync x).events = s.events := (rfl)
@[simp] theorem State.withSync_plat (s : State) (x : Sync) : (s.withSync x).plat = s.plat := (rfl)
@[simp] theorem State.withSync_sst (s : State) (x : Sync) : (s.withSync x).sst = s.sst := (rfl)
@[simp] theorem State.withSync_cores (s : State) (x : Sync) : (s.withSync x).cores = s.cores := (rfl)
@[simp] theorem State.withSync_scratch (s : State) (x : Sync) : (s.withSync x).scratch = s.scratch := (rfl)
@[simp] theorem State.withSync_clusters (s : State) (x : Sync) : (s.withSync x).clusters = s.clusters := (rfl)
@[simp] theorem State.withSync_banks (s : State) (x : Sync) : (s.withSync x).banks = s.banks := (rfl)
@[simp] theorem State.withSync_mxes (s : State) (x : Sync) : (s.withSync x).mxes = s.mxes := (rfl)
@[simp] theorem State.withSync_vxes (s : State) (x : Sync) : (s.withSync x).vxes = s.vxes := (rfl)
@[simp] theorem State.withSync_bins (s : State) (x : Sync) : (s.withSync x).bins = s.bins := (rfl)
@[simp] theorem State.withSync_work (s : State) (x : Sync) : (s.withSync x).work = s.work := (rfl)
@[simp] theorem State.withSync_hstOp (s : State) (x : Sync) : (s.withSync x).hstOp = s.hstOp := (rfl)
@[simp] theorem State.withSync_mem (s : State) (x : Sync) : (s.withSync x).mem = s.mem := (rfl)
@[simp] theorem State.withSync_ms (s : State) (x : Sync) : (s.withSync x).ms = s.ms := (rfl)
@[simp] theorem State.withSync_upd (s : State) (x : Sync) : (s.withSync x).upd = s.upd := (rfl)
@[simp] theorem State.withSync_commit (s : State) (x : Sync) : (s.withSync x).commit = s.commit := (rfl)
@[simp] theorem State.withSync_uus (s : State) (x : Sync) : (s.withSync x).uus = s.uus := (rfl)
@[simp] theorem State.withSync_journals (s : State) (x : Sync) : (s.withSync x).journals = s.journals := (rfl)
@[simp] theorem State.withSync_stg (s : State) (x : Sync) : (s.withSync x).stg = s.stg := (rfl)
@[simp] theorem State.withSync_net (s : State) (x : Sync) : (s.withSync x).net = s.net := (rfl)
@[simp] theorem State.withSync_cr (s : State) (x : Sync) : (s.withSync x).cr = s.cr := (rfl)
@[simp] theorem State.withSync_host (s : State) (x : Sync) : (s.withSync x).host = s.host := (rfl)
@[simp] theorem State.withSync_rcv (s : State) (x : Sync) : (s.withSync x).rcv = s.rcv := (rfl)
@[simp] theorem State.withSync_ldg (s : State) (x : Sync) : (s.withSync x).ldg = s.ldg := (rfl)
@[simp] theorem State.withSync_pwr (s : State) (x : Sync) : (s.withSync x).pwr = s.pwr := (rfl)
@[simp] theorem State.withSync_boot (s : State) (x : Sync) : (s.withSync x).boot = s.boot := (rfl)
@[simp] theorem State.withSync_tap (s : State) (x : Sync) : (s.withSync x).tap = s.tap := (rfl)

/-! ## State.withNet -/

@[simp] theorem State.withNet_net (s : State) (x : Net) : (s.withNet x).net = x := (rfl)
@[simp] theorem State.withNet_pending (s : State) (x : Net) : (s.withNet x).pending = s.pending := (rfl)
@[simp] theorem State.withNet_free (s : State) (x : Net) : (s.withNet x).free = s.free := (rfl)
@[simp] theorem State.withNet_rdData (s : State) (x : Net) : (s.withNet x).rdData = s.rdData := (rfl)
@[simp] theorem State.withNet_regStatus (s : State) (x : Net) : (s.withNet x).regStatus = s.regStatus := (rfl)
@[simp] theorem State.withNet_regs (s : State) (x : Net) : (s.withNet x).regs = s.regs := (rfl)
@[simp] theorem State.withNet_errCtx (s : State) (x : Net) : (s.withNet x).errCtx = s.errCtx := (rfl)
@[simp] theorem State.withNet_events (s : State) (x : Net) : (s.withNet x).events = s.events := (rfl)
@[simp] theorem State.withNet_plat (s : State) (x : Net) : (s.withNet x).plat = s.plat := (rfl)
@[simp] theorem State.withNet_sst (s : State) (x : Net) : (s.withNet x).sst = s.sst := (rfl)
@[simp] theorem State.withNet_cores (s : State) (x : Net) : (s.withNet x).cores = s.cores := (rfl)
@[simp] theorem State.withNet_scratch (s : State) (x : Net) : (s.withNet x).scratch = s.scratch := (rfl)
@[simp] theorem State.withNet_clusters (s : State) (x : Net) : (s.withNet x).clusters = s.clusters := (rfl)
@[simp] theorem State.withNet_banks (s : State) (x : Net) : (s.withNet x).banks = s.banks := (rfl)
@[simp] theorem State.withNet_mxes (s : State) (x : Net) : (s.withNet x).mxes = s.mxes := (rfl)
@[simp] theorem State.withNet_vxes (s : State) (x : Net) : (s.withNet x).vxes = s.vxes := (rfl)
@[simp] theorem State.withNet_bins (s : State) (x : Net) : (s.withNet x).bins = s.bins := (rfl)
@[simp] theorem State.withNet_work (s : State) (x : Net) : (s.withNet x).work = s.work := (rfl)
@[simp] theorem State.withNet_hstOp (s : State) (x : Net) : (s.withNet x).hstOp = s.hstOp := (rfl)
@[simp] theorem State.withNet_mem (s : State) (x : Net) : (s.withNet x).mem = s.mem := (rfl)
@[simp] theorem State.withNet_ms (s : State) (x : Net) : (s.withNet x).ms = s.ms := (rfl)
@[simp] theorem State.withNet_upd (s : State) (x : Net) : (s.withNet x).upd = s.upd := (rfl)
@[simp] theorem State.withNet_commit (s : State) (x : Net) : (s.withNet x).commit = s.commit := (rfl)
@[simp] theorem State.withNet_uus (s : State) (x : Net) : (s.withNet x).uus = s.uus := (rfl)
@[simp] theorem State.withNet_journals (s : State) (x : Net) : (s.withNet x).journals = s.journals := (rfl)
@[simp] theorem State.withNet_stg (s : State) (x : Net) : (s.withNet x).stg = s.stg := (rfl)
@[simp] theorem State.withNet_sync (s : State) (x : Net) : (s.withNet x).sync = s.sync := (rfl)
@[simp] theorem State.withNet_cr (s : State) (x : Net) : (s.withNet x).cr = s.cr := (rfl)
@[simp] theorem State.withNet_host (s : State) (x : Net) : (s.withNet x).host = s.host := (rfl)
@[simp] theorem State.withNet_rcv (s : State) (x : Net) : (s.withNet x).rcv = s.rcv := (rfl)
@[simp] theorem State.withNet_ldg (s : State) (x : Net) : (s.withNet x).ldg = s.ldg := (rfl)
@[simp] theorem State.withNet_pwr (s : State) (x : Net) : (s.withNet x).pwr = s.pwr := (rfl)
@[simp] theorem State.withNet_boot (s : State) (x : Net) : (s.withNet x).boot = s.boot := (rfl)
@[simp] theorem State.withNet_tap (s : State) (x : Net) : (s.withNet x).tap = s.tap := (rfl)

/-! ## State.withCr -/

@[simp] theorem State.withCr_cr (s : State) (x : Courier) : (s.withCr x).cr = x := (rfl)
@[simp] theorem State.withCr_pending (s : State) (x : Courier) : (s.withCr x).pending = s.pending := (rfl)
@[simp] theorem State.withCr_free (s : State) (x : Courier) : (s.withCr x).free = s.free := (rfl)
@[simp] theorem State.withCr_rdData (s : State) (x : Courier) : (s.withCr x).rdData = s.rdData := (rfl)
@[simp] theorem State.withCr_regStatus (s : State) (x : Courier) : (s.withCr x).regStatus = s.regStatus := (rfl)
@[simp] theorem State.withCr_regs (s : State) (x : Courier) : (s.withCr x).regs = s.regs := (rfl)
@[simp] theorem State.withCr_errCtx (s : State) (x : Courier) : (s.withCr x).errCtx = s.errCtx := (rfl)
@[simp] theorem State.withCr_events (s : State) (x : Courier) : (s.withCr x).events = s.events := (rfl)
@[simp] theorem State.withCr_plat (s : State) (x : Courier) : (s.withCr x).plat = s.plat := (rfl)
@[simp] theorem State.withCr_sst (s : State) (x : Courier) : (s.withCr x).sst = s.sst := (rfl)
@[simp] theorem State.withCr_cores (s : State) (x : Courier) : (s.withCr x).cores = s.cores := (rfl)
@[simp] theorem State.withCr_scratch (s : State) (x : Courier) : (s.withCr x).scratch = s.scratch := (rfl)
@[simp] theorem State.withCr_clusters (s : State) (x : Courier) : (s.withCr x).clusters = s.clusters := (rfl)
@[simp] theorem State.withCr_banks (s : State) (x : Courier) : (s.withCr x).banks = s.banks := (rfl)
@[simp] theorem State.withCr_mxes (s : State) (x : Courier) : (s.withCr x).mxes = s.mxes := (rfl)
@[simp] theorem State.withCr_vxes (s : State) (x : Courier) : (s.withCr x).vxes = s.vxes := (rfl)
@[simp] theorem State.withCr_bins (s : State) (x : Courier) : (s.withCr x).bins = s.bins := (rfl)
@[simp] theorem State.withCr_work (s : State) (x : Courier) : (s.withCr x).work = s.work := (rfl)
@[simp] theorem State.withCr_hstOp (s : State) (x : Courier) : (s.withCr x).hstOp = s.hstOp := (rfl)
@[simp] theorem State.withCr_mem (s : State) (x : Courier) : (s.withCr x).mem = s.mem := (rfl)
@[simp] theorem State.withCr_ms (s : State) (x : Courier) : (s.withCr x).ms = s.ms := (rfl)
@[simp] theorem State.withCr_upd (s : State) (x : Courier) : (s.withCr x).upd = s.upd := (rfl)
@[simp] theorem State.withCr_commit (s : State) (x : Courier) : (s.withCr x).commit = s.commit := (rfl)
@[simp] theorem State.withCr_uus (s : State) (x : Courier) : (s.withCr x).uus = s.uus := (rfl)
@[simp] theorem State.withCr_journals (s : State) (x : Courier) : (s.withCr x).journals = s.journals := (rfl)
@[simp] theorem State.withCr_stg (s : State) (x : Courier) : (s.withCr x).stg = s.stg := (rfl)
@[simp] theorem State.withCr_sync (s : State) (x : Courier) : (s.withCr x).sync = s.sync := (rfl)
@[simp] theorem State.withCr_net (s : State) (x : Courier) : (s.withCr x).net = s.net := (rfl)
@[simp] theorem State.withCr_host (s : State) (x : Courier) : (s.withCr x).host = s.host := (rfl)
@[simp] theorem State.withCr_rcv (s : State) (x : Courier) : (s.withCr x).rcv = s.rcv := (rfl)
@[simp] theorem State.withCr_ldg (s : State) (x : Courier) : (s.withCr x).ldg = s.ldg := (rfl)
@[simp] theorem State.withCr_pwr (s : State) (x : Courier) : (s.withCr x).pwr = s.pwr := (rfl)
@[simp] theorem State.withCr_boot (s : State) (x : Courier) : (s.withCr x).boot = s.boot := (rfl)
@[simp] theorem State.withCr_tap (s : State) (x : Courier) : (s.withCr x).tap = s.tap := (rfl)

/-! ## State.withHost -/

@[simp] theorem State.withHost_host (s : State) (x : HostLink) : (s.withHost x).host = x := (rfl)
@[simp] theorem State.withHost_pending (s : State) (x : HostLink) : (s.withHost x).pending = s.pending := (rfl)
@[simp] theorem State.withHost_free (s : State) (x : HostLink) : (s.withHost x).free = s.free := (rfl)
@[simp] theorem State.withHost_rdData (s : State) (x : HostLink) : (s.withHost x).rdData = s.rdData := (rfl)
@[simp] theorem State.withHost_regStatus (s : State) (x : HostLink) : (s.withHost x).regStatus = s.regStatus := (rfl)
@[simp] theorem State.withHost_regs (s : State) (x : HostLink) : (s.withHost x).regs = s.regs := (rfl)
@[simp] theorem State.withHost_errCtx (s : State) (x : HostLink) : (s.withHost x).errCtx = s.errCtx := (rfl)
@[simp] theorem State.withHost_events (s : State) (x : HostLink) : (s.withHost x).events = s.events := (rfl)
@[simp] theorem State.withHost_plat (s : State) (x : HostLink) : (s.withHost x).plat = s.plat := (rfl)
@[simp] theorem State.withHost_sst (s : State) (x : HostLink) : (s.withHost x).sst = s.sst := (rfl)
@[simp] theorem State.withHost_cores (s : State) (x : HostLink) : (s.withHost x).cores = s.cores := (rfl)
@[simp] theorem State.withHost_scratch (s : State) (x : HostLink) : (s.withHost x).scratch = s.scratch := (rfl)
@[simp] theorem State.withHost_clusters (s : State) (x : HostLink) : (s.withHost x).clusters = s.clusters := (rfl)
@[simp] theorem State.withHost_banks (s : State) (x : HostLink) : (s.withHost x).banks = s.banks := (rfl)
@[simp] theorem State.withHost_mxes (s : State) (x : HostLink) : (s.withHost x).mxes = s.mxes := (rfl)
@[simp] theorem State.withHost_vxes (s : State) (x : HostLink) : (s.withHost x).vxes = s.vxes := (rfl)
@[simp] theorem State.withHost_bins (s : State) (x : HostLink) : (s.withHost x).bins = s.bins := (rfl)
@[simp] theorem State.withHost_work (s : State) (x : HostLink) : (s.withHost x).work = s.work := (rfl)
@[simp] theorem State.withHost_hstOp (s : State) (x : HostLink) : (s.withHost x).hstOp = s.hstOp := (rfl)
@[simp] theorem State.withHost_mem (s : State) (x : HostLink) : (s.withHost x).mem = s.mem := (rfl)
@[simp] theorem State.withHost_ms (s : State) (x : HostLink) : (s.withHost x).ms = s.ms := (rfl)
@[simp] theorem State.withHost_upd (s : State) (x : HostLink) : (s.withHost x).upd = s.upd := (rfl)
@[simp] theorem State.withHost_commit (s : State) (x : HostLink) : (s.withHost x).commit = s.commit := (rfl)
@[simp] theorem State.withHost_uus (s : State) (x : HostLink) : (s.withHost x).uus = s.uus := (rfl)
@[simp] theorem State.withHost_journals (s : State) (x : HostLink) : (s.withHost x).journals = s.journals := (rfl)
@[simp] theorem State.withHost_stg (s : State) (x : HostLink) : (s.withHost x).stg = s.stg := (rfl)
@[simp] theorem State.withHost_sync (s : State) (x : HostLink) : (s.withHost x).sync = s.sync := (rfl)
@[simp] theorem State.withHost_net (s : State) (x : HostLink) : (s.withHost x).net = s.net := (rfl)
@[simp] theorem State.withHost_cr (s : State) (x : HostLink) : (s.withHost x).cr = s.cr := (rfl)
@[simp] theorem State.withHost_rcv (s : State) (x : HostLink) : (s.withHost x).rcv = s.rcv := (rfl)
@[simp] theorem State.withHost_ldg (s : State) (x : HostLink) : (s.withHost x).ldg = s.ldg := (rfl)
@[simp] theorem State.withHost_pwr (s : State) (x : HostLink) : (s.withHost x).pwr = s.pwr := (rfl)
@[simp] theorem State.withHost_boot (s : State) (x : HostLink) : (s.withHost x).boot = s.boot := (rfl)
@[simp] theorem State.withHost_tap (s : State) (x : HostLink) : (s.withHost x).tap = s.tap := (rfl)

/-! ## State.withRcv -/

@[simp] theorem State.withRcv_rcv (s : State) (x : Recovery) : (s.withRcv x).rcv = x := (rfl)
@[simp] theorem State.withRcv_pending (s : State) (x : Recovery) : (s.withRcv x).pending = s.pending := (rfl)
@[simp] theorem State.withRcv_free (s : State) (x : Recovery) : (s.withRcv x).free = s.free := (rfl)
@[simp] theorem State.withRcv_rdData (s : State) (x : Recovery) : (s.withRcv x).rdData = s.rdData := (rfl)
@[simp] theorem State.withRcv_regStatus (s : State) (x : Recovery) : (s.withRcv x).regStatus = s.regStatus := (rfl)
@[simp] theorem State.withRcv_regs (s : State) (x : Recovery) : (s.withRcv x).regs = s.regs := (rfl)
@[simp] theorem State.withRcv_errCtx (s : State) (x : Recovery) : (s.withRcv x).errCtx = s.errCtx := (rfl)
@[simp] theorem State.withRcv_events (s : State) (x : Recovery) : (s.withRcv x).events = s.events := (rfl)
@[simp] theorem State.withRcv_plat (s : State) (x : Recovery) : (s.withRcv x).plat = s.plat := (rfl)
@[simp] theorem State.withRcv_sst (s : State) (x : Recovery) : (s.withRcv x).sst = s.sst := (rfl)
@[simp] theorem State.withRcv_cores (s : State) (x : Recovery) : (s.withRcv x).cores = s.cores := (rfl)
@[simp] theorem State.withRcv_scratch (s : State) (x : Recovery) : (s.withRcv x).scratch = s.scratch := (rfl)
@[simp] theorem State.withRcv_clusters (s : State) (x : Recovery) : (s.withRcv x).clusters = s.clusters := (rfl)
@[simp] theorem State.withRcv_banks (s : State) (x : Recovery) : (s.withRcv x).banks = s.banks := (rfl)
@[simp] theorem State.withRcv_mxes (s : State) (x : Recovery) : (s.withRcv x).mxes = s.mxes := (rfl)
@[simp] theorem State.withRcv_vxes (s : State) (x : Recovery) : (s.withRcv x).vxes = s.vxes := (rfl)
@[simp] theorem State.withRcv_bins (s : State) (x : Recovery) : (s.withRcv x).bins = s.bins := (rfl)
@[simp] theorem State.withRcv_work (s : State) (x : Recovery) : (s.withRcv x).work = s.work := (rfl)
@[simp] theorem State.withRcv_hstOp (s : State) (x : Recovery) : (s.withRcv x).hstOp = s.hstOp := (rfl)
@[simp] theorem State.withRcv_mem (s : State) (x : Recovery) : (s.withRcv x).mem = s.mem := (rfl)
@[simp] theorem State.withRcv_ms (s : State) (x : Recovery) : (s.withRcv x).ms = s.ms := (rfl)
@[simp] theorem State.withRcv_upd (s : State) (x : Recovery) : (s.withRcv x).upd = s.upd := (rfl)
@[simp] theorem State.withRcv_commit (s : State) (x : Recovery) : (s.withRcv x).commit = s.commit := (rfl)
@[simp] theorem State.withRcv_uus (s : State) (x : Recovery) : (s.withRcv x).uus = s.uus := (rfl)
@[simp] theorem State.withRcv_journals (s : State) (x : Recovery) : (s.withRcv x).journals = s.journals := (rfl)
@[simp] theorem State.withRcv_stg (s : State) (x : Recovery) : (s.withRcv x).stg = s.stg := (rfl)
@[simp] theorem State.withRcv_sync (s : State) (x : Recovery) : (s.withRcv x).sync = s.sync := (rfl)
@[simp] theorem State.withRcv_net (s : State) (x : Recovery) : (s.withRcv x).net = s.net := (rfl)
@[simp] theorem State.withRcv_cr (s : State) (x : Recovery) : (s.withRcv x).cr = s.cr := (rfl)
@[simp] theorem State.withRcv_host (s : State) (x : Recovery) : (s.withRcv x).host = s.host := (rfl)
@[simp] theorem State.withRcv_ldg (s : State) (x : Recovery) : (s.withRcv x).ldg = s.ldg := (rfl)
@[simp] theorem State.withRcv_pwr (s : State) (x : Recovery) : (s.withRcv x).pwr = s.pwr := (rfl)
@[simp] theorem State.withRcv_boot (s : State) (x : Recovery) : (s.withRcv x).boot = s.boot := (rfl)
@[simp] theorem State.withRcv_tap (s : State) (x : Recovery) : (s.withRcv x).tap = s.tap := (rfl)

/-! ## State.withLdg -/

@[simp] theorem State.withLdg_ldg (s : State) (x : Ledger) : (s.withLdg x).ldg = x := (rfl)
@[simp] theorem State.withLdg_pending (s : State) (x : Ledger) : (s.withLdg x).pending = s.pending := (rfl)
@[simp] theorem State.withLdg_free (s : State) (x : Ledger) : (s.withLdg x).free = s.free := (rfl)
@[simp] theorem State.withLdg_rdData (s : State) (x : Ledger) : (s.withLdg x).rdData = s.rdData := (rfl)
@[simp] theorem State.withLdg_regStatus (s : State) (x : Ledger) : (s.withLdg x).regStatus = s.regStatus := (rfl)
@[simp] theorem State.withLdg_regs (s : State) (x : Ledger) : (s.withLdg x).regs = s.regs := (rfl)
@[simp] theorem State.withLdg_errCtx (s : State) (x : Ledger) : (s.withLdg x).errCtx = s.errCtx := (rfl)
@[simp] theorem State.withLdg_events (s : State) (x : Ledger) : (s.withLdg x).events = s.events := (rfl)
@[simp] theorem State.withLdg_plat (s : State) (x : Ledger) : (s.withLdg x).plat = s.plat := (rfl)
@[simp] theorem State.withLdg_sst (s : State) (x : Ledger) : (s.withLdg x).sst = s.sst := (rfl)
@[simp] theorem State.withLdg_cores (s : State) (x : Ledger) : (s.withLdg x).cores = s.cores := (rfl)
@[simp] theorem State.withLdg_scratch (s : State) (x : Ledger) : (s.withLdg x).scratch = s.scratch := (rfl)
@[simp] theorem State.withLdg_clusters (s : State) (x : Ledger) : (s.withLdg x).clusters = s.clusters := (rfl)
@[simp] theorem State.withLdg_banks (s : State) (x : Ledger) : (s.withLdg x).banks = s.banks := (rfl)
@[simp] theorem State.withLdg_mxes (s : State) (x : Ledger) : (s.withLdg x).mxes = s.mxes := (rfl)
@[simp] theorem State.withLdg_vxes (s : State) (x : Ledger) : (s.withLdg x).vxes = s.vxes := (rfl)
@[simp] theorem State.withLdg_bins (s : State) (x : Ledger) : (s.withLdg x).bins = s.bins := (rfl)
@[simp] theorem State.withLdg_work (s : State) (x : Ledger) : (s.withLdg x).work = s.work := (rfl)
@[simp] theorem State.withLdg_hstOp (s : State) (x : Ledger) : (s.withLdg x).hstOp = s.hstOp := (rfl)
@[simp] theorem State.withLdg_mem (s : State) (x : Ledger) : (s.withLdg x).mem = s.mem := (rfl)
@[simp] theorem State.withLdg_ms (s : State) (x : Ledger) : (s.withLdg x).ms = s.ms := (rfl)
@[simp] theorem State.withLdg_upd (s : State) (x : Ledger) : (s.withLdg x).upd = s.upd := (rfl)
@[simp] theorem State.withLdg_commit (s : State) (x : Ledger) : (s.withLdg x).commit = s.commit := (rfl)
@[simp] theorem State.withLdg_uus (s : State) (x : Ledger) : (s.withLdg x).uus = s.uus := (rfl)
@[simp] theorem State.withLdg_journals (s : State) (x : Ledger) : (s.withLdg x).journals = s.journals := (rfl)
@[simp] theorem State.withLdg_stg (s : State) (x : Ledger) : (s.withLdg x).stg = s.stg := (rfl)
@[simp] theorem State.withLdg_sync (s : State) (x : Ledger) : (s.withLdg x).sync = s.sync := (rfl)
@[simp] theorem State.withLdg_net (s : State) (x : Ledger) : (s.withLdg x).net = s.net := (rfl)
@[simp] theorem State.withLdg_cr (s : State) (x : Ledger) : (s.withLdg x).cr = s.cr := (rfl)
@[simp] theorem State.withLdg_host (s : State) (x : Ledger) : (s.withLdg x).host = s.host := (rfl)
@[simp] theorem State.withLdg_rcv (s : State) (x : Ledger) : (s.withLdg x).rcv = s.rcv := (rfl)
@[simp] theorem State.withLdg_pwr (s : State) (x : Ledger) : (s.withLdg x).pwr = s.pwr := (rfl)
@[simp] theorem State.withLdg_boot (s : State) (x : Ledger) : (s.withLdg x).boot = s.boot := (rfl)
@[simp] theorem State.withLdg_tap (s : State) (x : Ledger) : (s.withLdg x).tap = s.tap := (rfl)

/-! ## State.withPwr -/

@[simp] theorem State.withPwr_pwr (s : State) (x : Power) : (s.withPwr x).pwr = x := (rfl)
@[simp] theorem State.withPwr_pending (s : State) (x : Power) : (s.withPwr x).pending = s.pending := (rfl)
@[simp] theorem State.withPwr_free (s : State) (x : Power) : (s.withPwr x).free = s.free := (rfl)
@[simp] theorem State.withPwr_rdData (s : State) (x : Power) : (s.withPwr x).rdData = s.rdData := (rfl)
@[simp] theorem State.withPwr_regStatus (s : State) (x : Power) : (s.withPwr x).regStatus = s.regStatus := (rfl)
@[simp] theorem State.withPwr_regs (s : State) (x : Power) : (s.withPwr x).regs = s.regs := (rfl)
@[simp] theorem State.withPwr_errCtx (s : State) (x : Power) : (s.withPwr x).errCtx = s.errCtx := (rfl)
@[simp] theorem State.withPwr_events (s : State) (x : Power) : (s.withPwr x).events = s.events := (rfl)
@[simp] theorem State.withPwr_plat (s : State) (x : Power) : (s.withPwr x).plat = s.plat := (rfl)
@[simp] theorem State.withPwr_sst (s : State) (x : Power) : (s.withPwr x).sst = s.sst := (rfl)
@[simp] theorem State.withPwr_cores (s : State) (x : Power) : (s.withPwr x).cores = s.cores := (rfl)
@[simp] theorem State.withPwr_scratch (s : State) (x : Power) : (s.withPwr x).scratch = s.scratch := (rfl)
@[simp] theorem State.withPwr_clusters (s : State) (x : Power) : (s.withPwr x).clusters = s.clusters := (rfl)
@[simp] theorem State.withPwr_banks (s : State) (x : Power) : (s.withPwr x).banks = s.banks := (rfl)
@[simp] theorem State.withPwr_mxes (s : State) (x : Power) : (s.withPwr x).mxes = s.mxes := (rfl)
@[simp] theorem State.withPwr_vxes (s : State) (x : Power) : (s.withPwr x).vxes = s.vxes := (rfl)
@[simp] theorem State.withPwr_bins (s : State) (x : Power) : (s.withPwr x).bins = s.bins := (rfl)
@[simp] theorem State.withPwr_work (s : State) (x : Power) : (s.withPwr x).work = s.work := (rfl)
@[simp] theorem State.withPwr_hstOp (s : State) (x : Power) : (s.withPwr x).hstOp = s.hstOp := (rfl)
@[simp] theorem State.withPwr_mem (s : State) (x : Power) : (s.withPwr x).mem = s.mem := (rfl)
@[simp] theorem State.withPwr_ms (s : State) (x : Power) : (s.withPwr x).ms = s.ms := (rfl)
@[simp] theorem State.withPwr_upd (s : State) (x : Power) : (s.withPwr x).upd = s.upd := (rfl)
@[simp] theorem State.withPwr_commit (s : State) (x : Power) : (s.withPwr x).commit = s.commit := (rfl)
@[simp] theorem State.withPwr_uus (s : State) (x : Power) : (s.withPwr x).uus = s.uus := (rfl)
@[simp] theorem State.withPwr_journals (s : State) (x : Power) : (s.withPwr x).journals = s.journals := (rfl)
@[simp] theorem State.withPwr_stg (s : State) (x : Power) : (s.withPwr x).stg = s.stg := (rfl)
@[simp] theorem State.withPwr_sync (s : State) (x : Power) : (s.withPwr x).sync = s.sync := (rfl)
@[simp] theorem State.withPwr_net (s : State) (x : Power) : (s.withPwr x).net = s.net := (rfl)
@[simp] theorem State.withPwr_cr (s : State) (x : Power) : (s.withPwr x).cr = s.cr := (rfl)
@[simp] theorem State.withPwr_host (s : State) (x : Power) : (s.withPwr x).host = s.host := (rfl)
@[simp] theorem State.withPwr_rcv (s : State) (x : Power) : (s.withPwr x).rcv = s.rcv := (rfl)
@[simp] theorem State.withPwr_ldg (s : State) (x : Power) : (s.withPwr x).ldg = s.ldg := (rfl)
@[simp] theorem State.withPwr_boot (s : State) (x : Power) : (s.withPwr x).boot = s.boot := (rfl)
@[simp] theorem State.withPwr_tap (s : State) (x : Power) : (s.withPwr x).tap = s.tap := (rfl)

/-! ## State.withBoot -/

@[simp] theorem State.withBoot_boot (s : State) (x : Boot) : (s.withBoot x).boot = x := (rfl)
@[simp] theorem State.withBoot_pending (s : State) (x : Boot) : (s.withBoot x).pending = s.pending := (rfl)
@[simp] theorem State.withBoot_free (s : State) (x : Boot) : (s.withBoot x).free = s.free := (rfl)
@[simp] theorem State.withBoot_rdData (s : State) (x : Boot) : (s.withBoot x).rdData = s.rdData := (rfl)
@[simp] theorem State.withBoot_regStatus (s : State) (x : Boot) : (s.withBoot x).regStatus = s.regStatus := (rfl)
@[simp] theorem State.withBoot_regs (s : State) (x : Boot) : (s.withBoot x).regs = s.regs := (rfl)
@[simp] theorem State.withBoot_errCtx (s : State) (x : Boot) : (s.withBoot x).errCtx = s.errCtx := (rfl)
@[simp] theorem State.withBoot_events (s : State) (x : Boot) : (s.withBoot x).events = s.events := (rfl)
@[simp] theorem State.withBoot_plat (s : State) (x : Boot) : (s.withBoot x).plat = s.plat := (rfl)
@[simp] theorem State.withBoot_sst (s : State) (x : Boot) : (s.withBoot x).sst = s.sst := (rfl)
@[simp] theorem State.withBoot_cores (s : State) (x : Boot) : (s.withBoot x).cores = s.cores := (rfl)
@[simp] theorem State.withBoot_scratch (s : State) (x : Boot) : (s.withBoot x).scratch = s.scratch := (rfl)
@[simp] theorem State.withBoot_clusters (s : State) (x : Boot) : (s.withBoot x).clusters = s.clusters := (rfl)
@[simp] theorem State.withBoot_banks (s : State) (x : Boot) : (s.withBoot x).banks = s.banks := (rfl)
@[simp] theorem State.withBoot_mxes (s : State) (x : Boot) : (s.withBoot x).mxes = s.mxes := (rfl)
@[simp] theorem State.withBoot_vxes (s : State) (x : Boot) : (s.withBoot x).vxes = s.vxes := (rfl)
@[simp] theorem State.withBoot_bins (s : State) (x : Boot) : (s.withBoot x).bins = s.bins := (rfl)
@[simp] theorem State.withBoot_work (s : State) (x : Boot) : (s.withBoot x).work = s.work := (rfl)
@[simp] theorem State.withBoot_hstOp (s : State) (x : Boot) : (s.withBoot x).hstOp = s.hstOp := (rfl)
@[simp] theorem State.withBoot_mem (s : State) (x : Boot) : (s.withBoot x).mem = s.mem := (rfl)
@[simp] theorem State.withBoot_ms (s : State) (x : Boot) : (s.withBoot x).ms = s.ms := (rfl)
@[simp] theorem State.withBoot_upd (s : State) (x : Boot) : (s.withBoot x).upd = s.upd := (rfl)
@[simp] theorem State.withBoot_commit (s : State) (x : Boot) : (s.withBoot x).commit = s.commit := (rfl)
@[simp] theorem State.withBoot_uus (s : State) (x : Boot) : (s.withBoot x).uus = s.uus := (rfl)
@[simp] theorem State.withBoot_journals (s : State) (x : Boot) : (s.withBoot x).journals = s.journals := (rfl)
@[simp] theorem State.withBoot_stg (s : State) (x : Boot) : (s.withBoot x).stg = s.stg := (rfl)
@[simp] theorem State.withBoot_sync (s : State) (x : Boot) : (s.withBoot x).sync = s.sync := (rfl)
@[simp] theorem State.withBoot_net (s : State) (x : Boot) : (s.withBoot x).net = s.net := (rfl)
@[simp] theorem State.withBoot_cr (s : State) (x : Boot) : (s.withBoot x).cr = s.cr := (rfl)
@[simp] theorem State.withBoot_host (s : State) (x : Boot) : (s.withBoot x).host = s.host := (rfl)
@[simp] theorem State.withBoot_rcv (s : State) (x : Boot) : (s.withBoot x).rcv = s.rcv := (rfl)
@[simp] theorem State.withBoot_ldg (s : State) (x : Boot) : (s.withBoot x).ldg = s.ldg := (rfl)
@[simp] theorem State.withBoot_pwr (s : State) (x : Boot) : (s.withBoot x).pwr = s.pwr := (rfl)
@[simp] theorem State.withBoot_tap (s : State) (x : Boot) : (s.withBoot x).tap = s.tap := (rfl)

/-! ## State.withTap -/

@[simp] theorem State.withTap_tap (s : State) (x : Tap) : (s.withTap x).tap = x := (rfl)
@[simp] theorem State.withTap_pending (s : State) (x : Tap) : (s.withTap x).pending = s.pending := (rfl)
@[simp] theorem State.withTap_free (s : State) (x : Tap) : (s.withTap x).free = s.free := (rfl)
@[simp] theorem State.withTap_rdData (s : State) (x : Tap) : (s.withTap x).rdData = s.rdData := (rfl)
@[simp] theorem State.withTap_regStatus (s : State) (x : Tap) : (s.withTap x).regStatus = s.regStatus := (rfl)
@[simp] theorem State.withTap_regs (s : State) (x : Tap) : (s.withTap x).regs = s.regs := (rfl)
@[simp] theorem State.withTap_errCtx (s : State) (x : Tap) : (s.withTap x).errCtx = s.errCtx := (rfl)
@[simp] theorem State.withTap_events (s : State) (x : Tap) : (s.withTap x).events = s.events := (rfl)
@[simp] theorem State.withTap_plat (s : State) (x : Tap) : (s.withTap x).plat = s.plat := (rfl)
@[simp] theorem State.withTap_sst (s : State) (x : Tap) : (s.withTap x).sst = s.sst := (rfl)
@[simp] theorem State.withTap_cores (s : State) (x : Tap) : (s.withTap x).cores = s.cores := (rfl)
@[simp] theorem State.withTap_scratch (s : State) (x : Tap) : (s.withTap x).scratch = s.scratch := (rfl)
@[simp] theorem State.withTap_clusters (s : State) (x : Tap) : (s.withTap x).clusters = s.clusters := (rfl)
@[simp] theorem State.withTap_banks (s : State) (x : Tap) : (s.withTap x).banks = s.banks := (rfl)
@[simp] theorem State.withTap_mxes (s : State) (x : Tap) : (s.withTap x).mxes = s.mxes := (rfl)
@[simp] theorem State.withTap_vxes (s : State) (x : Tap) : (s.withTap x).vxes = s.vxes := (rfl)
@[simp] theorem State.withTap_bins (s : State) (x : Tap) : (s.withTap x).bins = s.bins := (rfl)
@[simp] theorem State.withTap_work (s : State) (x : Tap) : (s.withTap x).work = s.work := (rfl)
@[simp] theorem State.withTap_hstOp (s : State) (x : Tap) : (s.withTap x).hstOp = s.hstOp := (rfl)
@[simp] theorem State.withTap_mem (s : State) (x : Tap) : (s.withTap x).mem = s.mem := (rfl)
@[simp] theorem State.withTap_ms (s : State) (x : Tap) : (s.withTap x).ms = s.ms := (rfl)
@[simp] theorem State.withTap_upd (s : State) (x : Tap) : (s.withTap x).upd = s.upd := (rfl)
@[simp] theorem State.withTap_commit (s : State) (x : Tap) : (s.withTap x).commit = s.commit := (rfl)
@[simp] theorem State.withTap_uus (s : State) (x : Tap) : (s.withTap x).uus = s.uus := (rfl)
@[simp] theorem State.withTap_journals (s : State) (x : Tap) : (s.withTap x).journals = s.journals := (rfl)
@[simp] theorem State.withTap_stg (s : State) (x : Tap) : (s.withTap x).stg = s.stg := (rfl)
@[simp] theorem State.withTap_sync (s : State) (x : Tap) : (s.withTap x).sync = s.sync := (rfl)
@[simp] theorem State.withTap_net (s : State) (x : Tap) : (s.withTap x).net = s.net := (rfl)
@[simp] theorem State.withTap_cr (s : State) (x : Tap) : (s.withTap x).cr = s.cr := (rfl)
@[simp] theorem State.withTap_host (s : State) (x : Tap) : (s.withTap x).host = s.host := (rfl)
@[simp] theorem State.withTap_rcv (s : State) (x : Tap) : (s.withTap x).rcv = s.rcv := (rfl)
@[simp] theorem State.withTap_ldg (s : State) (x : Tap) : (s.withTap x).ldg = s.ldg := (rfl)
@[simp] theorem State.withTap_pwr (s : State) (x : Tap) : (s.withTap x).pwr = s.pwr := (rfl)
@[simp] theorem State.withTap_boot (s : State) (x : Tap) : (s.withTap x).boot = s.boot := (rfl)

/-! ## State.setReg -/

@[simp] theorem State.setReg_pending (s : State) (k : Nat) (v : W64) : (s.setReg k v).pending = s.pending := (rfl)
@[simp] theorem State.setReg_free (s : State) (k : Nat) (v : W64) : (s.setReg k v).free = s.free := (rfl)
@[simp] theorem State.setReg_rdData (s : State) (k : Nat) (v : W64) : (s.setReg k v).rdData = s.rdData := (rfl)
@[simp] theorem State.setReg_regStatus (s : State) (k : Nat) (v : W64) : (s.setReg k v).regStatus = s.regStatus := (rfl)
@[simp] theorem State.setReg_errCtx (s : State) (k : Nat) (v : W64) : (s.setReg k v).errCtx = s.errCtx := (rfl)
@[simp] theorem State.setReg_events (s : State) (k : Nat) (v : W64) : (s.setReg k v).events = s.events := (rfl)
@[simp] theorem State.setReg_plat (s : State) (k : Nat) (v : W64) : (s.setReg k v).plat = s.plat := (rfl)
@[simp] theorem State.setReg_sst (s : State) (k : Nat) (v : W64) : (s.setReg k v).sst = s.sst := (rfl)
@[simp] theorem State.setReg_cores (s : State) (k : Nat) (v : W64) : (s.setReg k v).cores = s.cores := (rfl)
@[simp] theorem State.setReg_scratch (s : State) (k : Nat) (v : W64) : (s.setReg k v).scratch = s.scratch := (rfl)
@[simp] theorem State.setReg_clusters (s : State) (k : Nat) (v : W64) : (s.setReg k v).clusters = s.clusters := (rfl)
@[simp] theorem State.setReg_banks (s : State) (k : Nat) (v : W64) : (s.setReg k v).banks = s.banks := (rfl)
@[simp] theorem State.setReg_mxes (s : State) (k : Nat) (v : W64) : (s.setReg k v).mxes = s.mxes := (rfl)
@[simp] theorem State.setReg_vxes (s : State) (k : Nat) (v : W64) : (s.setReg k v).vxes = s.vxes := (rfl)
@[simp] theorem State.setReg_bins (s : State) (k : Nat) (v : W64) : (s.setReg k v).bins = s.bins := (rfl)
@[simp] theorem State.setReg_work (s : State) (k : Nat) (v : W64) : (s.setReg k v).work = s.work := (rfl)
@[simp] theorem State.setReg_hstOp (s : State) (k : Nat) (v : W64) : (s.setReg k v).hstOp = s.hstOp := (rfl)
@[simp] theorem State.setReg_mem (s : State) (k : Nat) (v : W64) : (s.setReg k v).mem = s.mem := (rfl)
@[simp] theorem State.setReg_ms (s : State) (k : Nat) (v : W64) : (s.setReg k v).ms = s.ms := (rfl)
@[simp] theorem State.setReg_upd (s : State) (k : Nat) (v : W64) : (s.setReg k v).upd = s.upd := (rfl)
@[simp] theorem State.setReg_commit (s : State) (k : Nat) (v : W64) : (s.setReg k v).commit = s.commit := (rfl)
@[simp] theorem State.setReg_uus (s : State) (k : Nat) (v : W64) : (s.setReg k v).uus = s.uus := (rfl)
@[simp] theorem State.setReg_journals (s : State) (k : Nat) (v : W64) : (s.setReg k v).journals = s.journals := (rfl)
@[simp] theorem State.setReg_stg (s : State) (k : Nat) (v : W64) : (s.setReg k v).stg = s.stg := (rfl)
@[simp] theorem State.setReg_sync (s : State) (k : Nat) (v : W64) : (s.setReg k v).sync = s.sync := (rfl)
@[simp] theorem State.setReg_net (s : State) (k : Nat) (v : W64) : (s.setReg k v).net = s.net := (rfl)
@[simp] theorem State.setReg_cr (s : State) (k : Nat) (v : W64) : (s.setReg k v).cr = s.cr := (rfl)
@[simp] theorem State.setReg_host (s : State) (k : Nat) (v : W64) : (s.setReg k v).host = s.host := (rfl)
@[simp] theorem State.setReg_rcv (s : State) (k : Nat) (v : W64) : (s.setReg k v).rcv = s.rcv := (rfl)
@[simp] theorem State.setReg_ldg (s : State) (k : Nat) (v : W64) : (s.setReg k v).ldg = s.ldg := (rfl)
@[simp] theorem State.setReg_pwr (s : State) (k : Nat) (v : W64) : (s.setReg k v).pwr = s.pwr := (rfl)
@[simp] theorem State.setReg_boot (s : State) (k : Nat) (v : W64) : (s.setReg k v).boot = s.boot := (rfl)
@[simp] theorem State.setReg_tap (s : State) (k : Nat) (v : W64) : (s.setReg k v).tap = s.tap := (rfl)

/-! ## State.out -/

@[simp] theorem State.out_pending (s : State) (v : W64) : (s.out v).pending = s.pending := (rfl)
@[simp] theorem State.out_free (s : State) (v : W64) : (s.out v).free = s.free := (rfl)
@[simp] theorem State.out_regStatus (s : State) (v : W64) : (s.out v).regStatus = s.regStatus := (rfl)
@[simp] theorem State.out_regs (s : State) (v : W64) : (s.out v).regs = s.regs := (rfl)
@[simp] theorem State.out_errCtx (s : State) (v : W64) : (s.out v).errCtx = s.errCtx := (rfl)
@[simp] theorem State.out_events (s : State) (v : W64) : (s.out v).events = s.events := (rfl)
@[simp] theorem State.out_plat (s : State) (v : W64) : (s.out v).plat = s.plat := (rfl)
@[simp] theorem State.out_sst (s : State) (v : W64) : (s.out v).sst = s.sst := (rfl)
@[simp] theorem State.out_cores (s : State) (v : W64) : (s.out v).cores = s.cores := (rfl)
@[simp] theorem State.out_scratch (s : State) (v : W64) : (s.out v).scratch = s.scratch := (rfl)
@[simp] theorem State.out_clusters (s : State) (v : W64) : (s.out v).clusters = s.clusters := (rfl)
@[simp] theorem State.out_banks (s : State) (v : W64) : (s.out v).banks = s.banks := (rfl)
@[simp] theorem State.out_mxes (s : State) (v : W64) : (s.out v).mxes = s.mxes := (rfl)
@[simp] theorem State.out_vxes (s : State) (v : W64) : (s.out v).vxes = s.vxes := (rfl)
@[simp] theorem State.out_bins (s : State) (v : W64) : (s.out v).bins = s.bins := (rfl)
@[simp] theorem State.out_work (s : State) (v : W64) : (s.out v).work = s.work := (rfl)
@[simp] theorem State.out_hstOp (s : State) (v : W64) : (s.out v).hstOp = s.hstOp := (rfl)
@[simp] theorem State.out_mem (s : State) (v : W64) : (s.out v).mem = s.mem := (rfl)
@[simp] theorem State.out_ms (s : State) (v : W64) : (s.out v).ms = s.ms := (rfl)
@[simp] theorem State.out_upd (s : State) (v : W64) : (s.out v).upd = s.upd := (rfl)
@[simp] theorem State.out_commit (s : State) (v : W64) : (s.out v).commit = s.commit := (rfl)
@[simp] theorem State.out_uus (s : State) (v : W64) : (s.out v).uus = s.uus := (rfl)
@[simp] theorem State.out_journals (s : State) (v : W64) : (s.out v).journals = s.journals := (rfl)
@[simp] theorem State.out_stg (s : State) (v : W64) : (s.out v).stg = s.stg := (rfl)
@[simp] theorem State.out_sync (s : State) (v : W64) : (s.out v).sync = s.sync := (rfl)
@[simp] theorem State.out_net (s : State) (v : W64) : (s.out v).net = s.net := (rfl)
@[simp] theorem State.out_cr (s : State) (v : W64) : (s.out v).cr = s.cr := (rfl)
@[simp] theorem State.out_host (s : State) (v : W64) : (s.out v).host = s.host := (rfl)
@[simp] theorem State.out_rcv (s : State) (v : W64) : (s.out v).rcv = s.rcv := (rfl)
@[simp] theorem State.out_ldg (s : State) (v : W64) : (s.out v).ldg = s.ldg := (rfl)
@[simp] theorem State.out_pwr (s : State) (v : W64) : (s.out v).pwr = s.pwr := (rfl)
@[simp] theorem State.out_boot (s : State) (v : W64) : (s.out v).boot = s.boot := (rfl)
@[simp] theorem State.out_tap (s : State) (v : W64) : (s.out v).tap = s.tap := (rfl)

/-! ## State.setTb -/

@[simp] theorem State.setTb_pending (s : State) (d : Nat) (t : TimeBase) : (s.setTb d t).pending = s.pending := (rfl)
@[simp] theorem State.setTb_free (s : State) (d : Nat) (t : TimeBase) : (s.setTb d t).free = s.free := (rfl)
@[simp] theorem State.setTb_rdData (s : State) (d : Nat) (t : TimeBase) : (s.setTb d t).rdData = s.rdData := (rfl)
@[simp] theorem State.setTb_regStatus (s : State) (d : Nat) (t : TimeBase) : (s.setTb d t).regStatus = s.regStatus := (rfl)
@[simp] theorem State.setTb_regs (s : State) (d : Nat) (t : TimeBase) : (s.setTb d t).regs = s.regs := (rfl)
@[simp] theorem State.setTb_errCtx (s : State) (d : Nat) (t : TimeBase) : (s.setTb d t).errCtx = s.errCtx := (rfl)
@[simp] theorem State.setTb_events (s : State) (d : Nat) (t : TimeBase) : (s.setTb d t).events = s.events := (rfl)
@[simp] theorem State.setTb_sst (s : State) (d : Nat) (t : TimeBase) : (s.setTb d t).sst = s.sst := (rfl)
@[simp] theorem State.setTb_cores (s : State) (d : Nat) (t : TimeBase) : (s.setTb d t).cores = s.cores := (rfl)
@[simp] theorem State.setTb_scratch (s : State) (d : Nat) (t : TimeBase) : (s.setTb d t).scratch = s.scratch := (rfl)
@[simp] theorem State.setTb_clusters (s : State) (d : Nat) (t : TimeBase) : (s.setTb d t).clusters = s.clusters := (rfl)
@[simp] theorem State.setTb_banks (s : State) (d : Nat) (t : TimeBase) : (s.setTb d t).banks = s.banks := (rfl)
@[simp] theorem State.setTb_mxes (s : State) (d : Nat) (t : TimeBase) : (s.setTb d t).mxes = s.mxes := (rfl)
@[simp] theorem State.setTb_vxes (s : State) (d : Nat) (t : TimeBase) : (s.setTb d t).vxes = s.vxes := (rfl)
@[simp] theorem State.setTb_bins (s : State) (d : Nat) (t : TimeBase) : (s.setTb d t).bins = s.bins := (rfl)
@[simp] theorem State.setTb_work (s : State) (d : Nat) (t : TimeBase) : (s.setTb d t).work = s.work := (rfl)
@[simp] theorem State.setTb_hstOp (s : State) (d : Nat) (t : TimeBase) : (s.setTb d t).hstOp = s.hstOp := (rfl)
@[simp] theorem State.setTb_mem (s : State) (d : Nat) (t : TimeBase) : (s.setTb d t).mem = s.mem := (rfl)
@[simp] theorem State.setTb_ms (s : State) (d : Nat) (t : TimeBase) : (s.setTb d t).ms = s.ms := (rfl)
@[simp] theorem State.setTb_upd (s : State) (d : Nat) (t : TimeBase) : (s.setTb d t).upd = s.upd := (rfl)
@[simp] theorem State.setTb_commit (s : State) (d : Nat) (t : TimeBase) : (s.setTb d t).commit = s.commit := (rfl)
@[simp] theorem State.setTb_uus (s : State) (d : Nat) (t : TimeBase) : (s.setTb d t).uus = s.uus := (rfl)
@[simp] theorem State.setTb_journals (s : State) (d : Nat) (t : TimeBase) : (s.setTb d t).journals = s.journals := (rfl)
@[simp] theorem State.setTb_stg (s : State) (d : Nat) (t : TimeBase) : (s.setTb d t).stg = s.stg := (rfl)
@[simp] theorem State.setTb_sync (s : State) (d : Nat) (t : TimeBase) : (s.setTb d t).sync = s.sync := (rfl)
@[simp] theorem State.setTb_net (s : State) (d : Nat) (t : TimeBase) : (s.setTb d t).net = s.net := (rfl)
@[simp] theorem State.setTb_cr (s : State) (d : Nat) (t : TimeBase) : (s.setTb d t).cr = s.cr := (rfl)
@[simp] theorem State.setTb_host (s : State) (d : Nat) (t : TimeBase) : (s.setTb d t).host = s.host := (rfl)
@[simp] theorem State.setTb_rcv (s : State) (d : Nat) (t : TimeBase) : (s.setTb d t).rcv = s.rcv := (rfl)
@[simp] theorem State.setTb_ldg (s : State) (d : Nat) (t : TimeBase) : (s.setTb d t).ldg = s.ldg := (rfl)
@[simp] theorem State.setTb_pwr (s : State) (d : Nat) (t : TimeBase) : (s.setTb d t).pwr = s.pwr := (rfl)
@[simp] theorem State.setTb_boot (s : State) (d : Nat) (t : TimeBase) : (s.setTb d t).boot = s.boot := (rfl)
@[simp] theorem State.setTb_tap (s : State) (d : Nat) (t : TimeBase) : (s.setTb d t).tap = s.tap := (rfl)

/-! ## State.setMxe -/

@[simp] theorem State.setMxe_pending (s : State) (e : Nat) (m : Mxe) : (s.setMxe e m).pending = s.pending := (rfl)
@[simp] theorem State.setMxe_free (s : State) (e : Nat) (m : Mxe) : (s.setMxe e m).free = s.free := (rfl)
@[simp] theorem State.setMxe_rdData (s : State) (e : Nat) (m : Mxe) : (s.setMxe e m).rdData = s.rdData := (rfl)
@[simp] theorem State.setMxe_regStatus (s : State) (e : Nat) (m : Mxe) : (s.setMxe e m).regStatus = s.regStatus := (rfl)
@[simp] theorem State.setMxe_regs (s : State) (e : Nat) (m : Mxe) : (s.setMxe e m).regs = s.regs := (rfl)
@[simp] theorem State.setMxe_errCtx (s : State) (e : Nat) (m : Mxe) : (s.setMxe e m).errCtx = s.errCtx := (rfl)
@[simp] theorem State.setMxe_events (s : State) (e : Nat) (m : Mxe) : (s.setMxe e m).events = s.events := (rfl)
@[simp] theorem State.setMxe_plat (s : State) (e : Nat) (m : Mxe) : (s.setMxe e m).plat = s.plat := (rfl)
@[simp] theorem State.setMxe_sst (s : State) (e : Nat) (m : Mxe) : (s.setMxe e m).sst = s.sst := (rfl)
@[simp] theorem State.setMxe_cores (s : State) (e : Nat) (m : Mxe) : (s.setMxe e m).cores = s.cores := (rfl)
@[simp] theorem State.setMxe_scratch (s : State) (e : Nat) (m : Mxe) : (s.setMxe e m).scratch = s.scratch := (rfl)
@[simp] theorem State.setMxe_clusters (s : State) (e : Nat) (m : Mxe) : (s.setMxe e m).clusters = s.clusters := (rfl)
@[simp] theorem State.setMxe_banks (s : State) (e : Nat) (m : Mxe) : (s.setMxe e m).banks = s.banks := (rfl)
@[simp] theorem State.setMxe_vxes (s : State) (e : Nat) (m : Mxe) : (s.setMxe e m).vxes = s.vxes := (rfl)
@[simp] theorem State.setMxe_bins (s : State) (e : Nat) (m : Mxe) : (s.setMxe e m).bins = s.bins := (rfl)
@[simp] theorem State.setMxe_work (s : State) (e : Nat) (m : Mxe) : (s.setMxe e m).work = s.work := (rfl)
@[simp] theorem State.setMxe_hstOp (s : State) (e : Nat) (m : Mxe) : (s.setMxe e m).hstOp = s.hstOp := (rfl)
@[simp] theorem State.setMxe_mem (s : State) (e : Nat) (m : Mxe) : (s.setMxe e m).mem = s.mem := (rfl)
@[simp] theorem State.setMxe_ms (s : State) (e : Nat) (m : Mxe) : (s.setMxe e m).ms = s.ms := (rfl)
@[simp] theorem State.setMxe_upd (s : State) (e : Nat) (m : Mxe) : (s.setMxe e m).upd = s.upd := (rfl)
@[simp] theorem State.setMxe_commit (s : State) (e : Nat) (m : Mxe) : (s.setMxe e m).commit = s.commit := (rfl)
@[simp] theorem State.setMxe_uus (s : State) (e : Nat) (m : Mxe) : (s.setMxe e m).uus = s.uus := (rfl)
@[simp] theorem State.setMxe_journals (s : State) (e : Nat) (m : Mxe) : (s.setMxe e m).journals = s.journals := (rfl)
@[simp] theorem State.setMxe_stg (s : State) (e : Nat) (m : Mxe) : (s.setMxe e m).stg = s.stg := (rfl)
@[simp] theorem State.setMxe_sync (s : State) (e : Nat) (m : Mxe) : (s.setMxe e m).sync = s.sync := (rfl)
@[simp] theorem State.setMxe_net (s : State) (e : Nat) (m : Mxe) : (s.setMxe e m).net = s.net := (rfl)
@[simp] theorem State.setMxe_cr (s : State) (e : Nat) (m : Mxe) : (s.setMxe e m).cr = s.cr := (rfl)
@[simp] theorem State.setMxe_host (s : State) (e : Nat) (m : Mxe) : (s.setMxe e m).host = s.host := (rfl)
@[simp] theorem State.setMxe_rcv (s : State) (e : Nat) (m : Mxe) : (s.setMxe e m).rcv = s.rcv := (rfl)
@[simp] theorem State.setMxe_ldg (s : State) (e : Nat) (m : Mxe) : (s.setMxe e m).ldg = s.ldg := (rfl)
@[simp] theorem State.setMxe_pwr (s : State) (e : Nat) (m : Mxe) : (s.setMxe e m).pwr = s.pwr := (rfl)
@[simp] theorem State.setMxe_boot (s : State) (e : Nat) (m : Mxe) : (s.setMxe e m).boot = s.boot := (rfl)
@[simp] theorem State.setMxe_tap (s : State) (e : Nat) (m : Mxe) : (s.setMxe e m).tap = s.tap := (rfl)

/-! ## State.setVxe -/

@[simp] theorem State.setVxe_pending (s : State) (v : Nat) (r : Option ChainRun) : (s.setVxe v r).pending = s.pending := (rfl)
@[simp] theorem State.setVxe_free (s : State) (v : Nat) (r : Option ChainRun) : (s.setVxe v r).free = s.free := (rfl)
@[simp] theorem State.setVxe_rdData (s : State) (v : Nat) (r : Option ChainRun) : (s.setVxe v r).rdData = s.rdData := (rfl)
@[simp] theorem State.setVxe_regStatus (s : State) (v : Nat) (r : Option ChainRun) : (s.setVxe v r).regStatus = s.regStatus := (rfl)
@[simp] theorem State.setVxe_regs (s : State) (v : Nat) (r : Option ChainRun) : (s.setVxe v r).regs = s.regs := (rfl)
@[simp] theorem State.setVxe_errCtx (s : State) (v : Nat) (r : Option ChainRun) : (s.setVxe v r).errCtx = s.errCtx := (rfl)
@[simp] theorem State.setVxe_events (s : State) (v : Nat) (r : Option ChainRun) : (s.setVxe v r).events = s.events := (rfl)
@[simp] theorem State.setVxe_plat (s : State) (v : Nat) (r : Option ChainRun) : (s.setVxe v r).plat = s.plat := (rfl)
@[simp] theorem State.setVxe_sst (s : State) (v : Nat) (r : Option ChainRun) : (s.setVxe v r).sst = s.sst := (rfl)
@[simp] theorem State.setVxe_cores (s : State) (v : Nat) (r : Option ChainRun) : (s.setVxe v r).cores = s.cores := (rfl)
@[simp] theorem State.setVxe_scratch (s : State) (v : Nat) (r : Option ChainRun) : (s.setVxe v r).scratch = s.scratch := (rfl)
@[simp] theorem State.setVxe_clusters (s : State) (v : Nat) (r : Option ChainRun) : (s.setVxe v r).clusters = s.clusters := (rfl)
@[simp] theorem State.setVxe_banks (s : State) (v : Nat) (r : Option ChainRun) : (s.setVxe v r).banks = s.banks := (rfl)
@[simp] theorem State.setVxe_mxes (s : State) (v : Nat) (r : Option ChainRun) : (s.setVxe v r).mxes = s.mxes := (rfl)
@[simp] theorem State.setVxe_bins (s : State) (v : Nat) (r : Option ChainRun) : (s.setVxe v r).bins = s.bins := (rfl)
@[simp] theorem State.setVxe_work (s : State) (v : Nat) (r : Option ChainRun) : (s.setVxe v r).work = s.work := (rfl)
@[simp] theorem State.setVxe_hstOp (s : State) (v : Nat) (r : Option ChainRun) : (s.setVxe v r).hstOp = s.hstOp := (rfl)
@[simp] theorem State.setVxe_mem (s : State) (v : Nat) (r : Option ChainRun) : (s.setVxe v r).mem = s.mem := (rfl)
@[simp] theorem State.setVxe_ms (s : State) (v : Nat) (r : Option ChainRun) : (s.setVxe v r).ms = s.ms := (rfl)
@[simp] theorem State.setVxe_upd (s : State) (v : Nat) (r : Option ChainRun) : (s.setVxe v r).upd = s.upd := (rfl)
@[simp] theorem State.setVxe_commit (s : State) (v : Nat) (r : Option ChainRun) : (s.setVxe v r).commit = s.commit := (rfl)
@[simp] theorem State.setVxe_uus (s : State) (v : Nat) (r : Option ChainRun) : (s.setVxe v r).uus = s.uus := (rfl)
@[simp] theorem State.setVxe_journals (s : State) (v : Nat) (r : Option ChainRun) : (s.setVxe v r).journals = s.journals := (rfl)
@[simp] theorem State.setVxe_stg (s : State) (v : Nat) (r : Option ChainRun) : (s.setVxe v r).stg = s.stg := (rfl)
@[simp] theorem State.setVxe_sync (s : State) (v : Nat) (r : Option ChainRun) : (s.setVxe v r).sync = s.sync := (rfl)
@[simp] theorem State.setVxe_net (s : State) (v : Nat) (r : Option ChainRun) : (s.setVxe v r).net = s.net := (rfl)
@[simp] theorem State.setVxe_cr (s : State) (v : Nat) (r : Option ChainRun) : (s.setVxe v r).cr = s.cr := (rfl)
@[simp] theorem State.setVxe_host (s : State) (v : Nat) (r : Option ChainRun) : (s.setVxe v r).host = s.host := (rfl)
@[simp] theorem State.setVxe_rcv (s : State) (v : Nat) (r : Option ChainRun) : (s.setVxe v r).rcv = s.rcv := (rfl)
@[simp] theorem State.setVxe_ldg (s : State) (v : Nat) (r : Option ChainRun) : (s.setVxe v r).ldg = s.ldg := (rfl)
@[simp] theorem State.setVxe_pwr (s : State) (v : Nat) (r : Option ChainRun) : (s.setVxe v r).pwr = s.pwr := (rfl)
@[simp] theorem State.setVxe_boot (s : State) (v : Nat) (r : Option ChainRun) : (s.setVxe v r).boot = s.boot := (rfl)
@[simp] theorem State.setVxe_tap (s : State) (v : Nat) (r : Option ChainRun) : (s.setVxe v r).tap = s.tap := (rfl)

/-! ## State.setUu -/

@[simp] theorem State.setUu_pending (s : State) (u : Nat) (x : Uu) : (s.setUu u x).pending = s.pending := (rfl)
@[simp] theorem State.setUu_free (s : State) (u : Nat) (x : Uu) : (s.setUu u x).free = s.free := (rfl)
@[simp] theorem State.setUu_rdData (s : State) (u : Nat) (x : Uu) : (s.setUu u x).rdData = s.rdData := (rfl)
@[simp] theorem State.setUu_regStatus (s : State) (u : Nat) (x : Uu) : (s.setUu u x).regStatus = s.regStatus := (rfl)
@[simp] theorem State.setUu_regs (s : State) (u : Nat) (x : Uu) : (s.setUu u x).regs = s.regs := (rfl)
@[simp] theorem State.setUu_errCtx (s : State) (u : Nat) (x : Uu) : (s.setUu u x).errCtx = s.errCtx := (rfl)
@[simp] theorem State.setUu_events (s : State) (u : Nat) (x : Uu) : (s.setUu u x).events = s.events := (rfl)
@[simp] theorem State.setUu_plat (s : State) (u : Nat) (x : Uu) : (s.setUu u x).plat = s.plat := (rfl)
@[simp] theorem State.setUu_sst (s : State) (u : Nat) (x : Uu) : (s.setUu u x).sst = s.sst := (rfl)
@[simp] theorem State.setUu_cores (s : State) (u : Nat) (x : Uu) : (s.setUu u x).cores = s.cores := (rfl)
@[simp] theorem State.setUu_scratch (s : State) (u : Nat) (x : Uu) : (s.setUu u x).scratch = s.scratch := (rfl)
@[simp] theorem State.setUu_clusters (s : State) (u : Nat) (x : Uu) : (s.setUu u x).clusters = s.clusters := (rfl)
@[simp] theorem State.setUu_banks (s : State) (u : Nat) (x : Uu) : (s.setUu u x).banks = s.banks := (rfl)
@[simp] theorem State.setUu_mxes (s : State) (u : Nat) (x : Uu) : (s.setUu u x).mxes = s.mxes := (rfl)
@[simp] theorem State.setUu_vxes (s : State) (u : Nat) (x : Uu) : (s.setUu u x).vxes = s.vxes := (rfl)
@[simp] theorem State.setUu_bins (s : State) (u : Nat) (x : Uu) : (s.setUu u x).bins = s.bins := (rfl)
@[simp] theorem State.setUu_work (s : State) (u : Nat) (x : Uu) : (s.setUu u x).work = s.work := (rfl)
@[simp] theorem State.setUu_hstOp (s : State) (u : Nat) (x : Uu) : (s.setUu u x).hstOp = s.hstOp := (rfl)
@[simp] theorem State.setUu_mem (s : State) (u : Nat) (x : Uu) : (s.setUu u x).mem = s.mem := (rfl)
@[simp] theorem State.setUu_ms (s : State) (u : Nat) (x : Uu) : (s.setUu u x).ms = s.ms := (rfl)
@[simp] theorem State.setUu_upd (s : State) (u : Nat) (x : Uu) : (s.setUu u x).upd = s.upd := (rfl)
@[simp] theorem State.setUu_commit (s : State) (u : Nat) (x : Uu) : (s.setUu u x).commit = s.commit := (rfl)
@[simp] theorem State.setUu_journals (s : State) (u : Nat) (x : Uu) : (s.setUu u x).journals = s.journals := (rfl)
@[simp] theorem State.setUu_stg (s : State) (u : Nat) (x : Uu) : (s.setUu u x).stg = s.stg := (rfl)
@[simp] theorem State.setUu_sync (s : State) (u : Nat) (x : Uu) : (s.setUu u x).sync = s.sync := (rfl)
@[simp] theorem State.setUu_net (s : State) (u : Nat) (x : Uu) : (s.setUu u x).net = s.net := (rfl)
@[simp] theorem State.setUu_cr (s : State) (u : Nat) (x : Uu) : (s.setUu u x).cr = s.cr := (rfl)
@[simp] theorem State.setUu_host (s : State) (u : Nat) (x : Uu) : (s.setUu u x).host = s.host := (rfl)
@[simp] theorem State.setUu_rcv (s : State) (u : Nat) (x : Uu) : (s.setUu u x).rcv = s.rcv := (rfl)
@[simp] theorem State.setUu_ldg (s : State) (u : Nat) (x : Uu) : (s.setUu u x).ldg = s.ldg := (rfl)
@[simp] theorem State.setUu_pwr (s : State) (u : Nat) (x : Uu) : (s.setUu u x).pwr = s.pwr := (rfl)
@[simp] theorem State.setUu_boot (s : State) (u : Nat) (x : Uu) : (s.setUu u x).boot = s.boot := (rfl)
@[simp] theorem State.setUu_tap (s : State) (u : Nat) (x : Uu) : (s.setUu u x).tap = s.tap := (rfl)

/-! ## State.setClu -/

@[simp] theorem State.setClu_pending (s : State) (c : Nat) (x : Cluster) : (s.setClu c x).pending = s.pending := (rfl)
@[simp] theorem State.setClu_free (s : State) (c : Nat) (x : Cluster) : (s.setClu c x).free = s.free := (rfl)
@[simp] theorem State.setClu_rdData (s : State) (c : Nat) (x : Cluster) : (s.setClu c x).rdData = s.rdData := (rfl)
@[simp] theorem State.setClu_regStatus (s : State) (c : Nat) (x : Cluster) : (s.setClu c x).regStatus = s.regStatus := (rfl)
@[simp] theorem State.setClu_regs (s : State) (c : Nat) (x : Cluster) : (s.setClu c x).regs = s.regs := (rfl)
@[simp] theorem State.setClu_errCtx (s : State) (c : Nat) (x : Cluster) : (s.setClu c x).errCtx = s.errCtx := (rfl)
@[simp] theorem State.setClu_events (s : State) (c : Nat) (x : Cluster) : (s.setClu c x).events = s.events := (rfl)
@[simp] theorem State.setClu_plat (s : State) (c : Nat) (x : Cluster) : (s.setClu c x).plat = s.plat := (rfl)
@[simp] theorem State.setClu_sst (s : State) (c : Nat) (x : Cluster) : (s.setClu c x).sst = s.sst := (rfl)
@[simp] theorem State.setClu_cores (s : State) (c : Nat) (x : Cluster) : (s.setClu c x).cores = s.cores := (rfl)
@[simp] theorem State.setClu_scratch (s : State) (c : Nat) (x : Cluster) : (s.setClu c x).scratch = s.scratch := (rfl)
@[simp] theorem State.setClu_banks (s : State) (c : Nat) (x : Cluster) : (s.setClu c x).banks = s.banks := (rfl)
@[simp] theorem State.setClu_mxes (s : State) (c : Nat) (x : Cluster) : (s.setClu c x).mxes = s.mxes := (rfl)
@[simp] theorem State.setClu_vxes (s : State) (c : Nat) (x : Cluster) : (s.setClu c x).vxes = s.vxes := (rfl)
@[simp] theorem State.setClu_bins (s : State) (c : Nat) (x : Cluster) : (s.setClu c x).bins = s.bins := (rfl)
@[simp] theorem State.setClu_work (s : State) (c : Nat) (x : Cluster) : (s.setClu c x).work = s.work := (rfl)
@[simp] theorem State.setClu_hstOp (s : State) (c : Nat) (x : Cluster) : (s.setClu c x).hstOp = s.hstOp := (rfl)
@[simp] theorem State.setClu_mem (s : State) (c : Nat) (x : Cluster) : (s.setClu c x).mem = s.mem := (rfl)
@[simp] theorem State.setClu_ms (s : State) (c : Nat) (x : Cluster) : (s.setClu c x).ms = s.ms := (rfl)
@[simp] theorem State.setClu_upd (s : State) (c : Nat) (x : Cluster) : (s.setClu c x).upd = s.upd := (rfl)
@[simp] theorem State.setClu_commit (s : State) (c : Nat) (x : Cluster) : (s.setClu c x).commit = s.commit := (rfl)
@[simp] theorem State.setClu_uus (s : State) (c : Nat) (x : Cluster) : (s.setClu c x).uus = s.uus := (rfl)
@[simp] theorem State.setClu_journals (s : State) (c : Nat) (x : Cluster) : (s.setClu c x).journals = s.journals := (rfl)
@[simp] theorem State.setClu_stg (s : State) (c : Nat) (x : Cluster) : (s.setClu c x).stg = s.stg := (rfl)
@[simp] theorem State.setClu_sync (s : State) (c : Nat) (x : Cluster) : (s.setClu c x).sync = s.sync := (rfl)
@[simp] theorem State.setClu_net (s : State) (c : Nat) (x : Cluster) : (s.setClu c x).net = s.net := (rfl)
@[simp] theorem State.setClu_cr (s : State) (c : Nat) (x : Cluster) : (s.setClu c x).cr = s.cr := (rfl)
@[simp] theorem State.setClu_host (s : State) (c : Nat) (x : Cluster) : (s.setClu c x).host = s.host := (rfl)
@[simp] theorem State.setClu_rcv (s : State) (c : Nat) (x : Cluster) : (s.setClu c x).rcv = s.rcv := (rfl)
@[simp] theorem State.setClu_ldg (s : State) (c : Nat) (x : Cluster) : (s.setClu c x).ldg = s.ldg := (rfl)
@[simp] theorem State.setClu_pwr (s : State) (c : Nat) (x : Cluster) : (s.setClu c x).pwr = s.pwr := (rfl)
@[simp] theorem State.setClu_boot (s : State) (c : Nat) (x : Cluster) : (s.setClu c x).boot = s.boot := (rfl)
@[simp] theorem State.setClu_tap (s : State) (c : Nat) (x : Cluster) : (s.setClu c x).tap = s.tap := (rfl)

/-! ## State.setCore -/

@[simp] theorem State.setCore_pending (s : State) (c : Nat) (x : Core) : (s.setCore c x).pending = s.pending := (rfl)
@[simp] theorem State.setCore_free (s : State) (c : Nat) (x : Core) : (s.setCore c x).free = s.free := (rfl)
@[simp] theorem State.setCore_rdData (s : State) (c : Nat) (x : Core) : (s.setCore c x).rdData = s.rdData := (rfl)
@[simp] theorem State.setCore_regStatus (s : State) (c : Nat) (x : Core) : (s.setCore c x).regStatus = s.regStatus := (rfl)
@[simp] theorem State.setCore_regs (s : State) (c : Nat) (x : Core) : (s.setCore c x).regs = s.regs := (rfl)
@[simp] theorem State.setCore_errCtx (s : State) (c : Nat) (x : Core) : (s.setCore c x).errCtx = s.errCtx := (rfl)
@[simp] theorem State.setCore_events (s : State) (c : Nat) (x : Core) : (s.setCore c x).events = s.events := (rfl)
@[simp] theorem State.setCore_plat (s : State) (c : Nat) (x : Core) : (s.setCore c x).plat = s.plat := (rfl)
@[simp] theorem State.setCore_sst (s : State) (c : Nat) (x : Core) : (s.setCore c x).sst = s.sst := (rfl)
@[simp] theorem State.setCore_scratch (s : State) (c : Nat) (x : Core) : (s.setCore c x).scratch = s.scratch := (rfl)
@[simp] theorem State.setCore_clusters (s : State) (c : Nat) (x : Core) : (s.setCore c x).clusters = s.clusters := (rfl)
@[simp] theorem State.setCore_banks (s : State) (c : Nat) (x : Core) : (s.setCore c x).banks = s.banks := (rfl)
@[simp] theorem State.setCore_mxes (s : State) (c : Nat) (x : Core) : (s.setCore c x).mxes = s.mxes := (rfl)
@[simp] theorem State.setCore_vxes (s : State) (c : Nat) (x : Core) : (s.setCore c x).vxes = s.vxes := (rfl)
@[simp] theorem State.setCore_bins (s : State) (c : Nat) (x : Core) : (s.setCore c x).bins = s.bins := (rfl)
@[simp] theorem State.setCore_work (s : State) (c : Nat) (x : Core) : (s.setCore c x).work = s.work := (rfl)
@[simp] theorem State.setCore_hstOp (s : State) (c : Nat) (x : Core) : (s.setCore c x).hstOp = s.hstOp := (rfl)
@[simp] theorem State.setCore_mem (s : State) (c : Nat) (x : Core) : (s.setCore c x).mem = s.mem := (rfl)
@[simp] theorem State.setCore_ms (s : State) (c : Nat) (x : Core) : (s.setCore c x).ms = s.ms := (rfl)
@[simp] theorem State.setCore_upd (s : State) (c : Nat) (x : Core) : (s.setCore c x).upd = s.upd := (rfl)
@[simp] theorem State.setCore_commit (s : State) (c : Nat) (x : Core) : (s.setCore c x).commit = s.commit := (rfl)
@[simp] theorem State.setCore_uus (s : State) (c : Nat) (x : Core) : (s.setCore c x).uus = s.uus := (rfl)
@[simp] theorem State.setCore_journals (s : State) (c : Nat) (x : Core) : (s.setCore c x).journals = s.journals := (rfl)
@[simp] theorem State.setCore_stg (s : State) (c : Nat) (x : Core) : (s.setCore c x).stg = s.stg := (rfl)
@[simp] theorem State.setCore_sync (s : State) (c : Nat) (x : Core) : (s.setCore c x).sync = s.sync := (rfl)
@[simp] theorem State.setCore_net (s : State) (c : Nat) (x : Core) : (s.setCore c x).net = s.net := (rfl)
@[simp] theorem State.setCore_cr (s : State) (c : Nat) (x : Core) : (s.setCore c x).cr = s.cr := (rfl)
@[simp] theorem State.setCore_host (s : State) (c : Nat) (x : Core) : (s.setCore c x).host = s.host := (rfl)
@[simp] theorem State.setCore_rcv (s : State) (c : Nat) (x : Core) : (s.setCore c x).rcv = s.rcv := (rfl)
@[simp] theorem State.setCore_ldg (s : State) (c : Nat) (x : Core) : (s.setCore c x).ldg = s.ldg := (rfl)
@[simp] theorem State.setCore_pwr (s : State) (c : Nat) (x : Core) : (s.setCore c x).pwr = s.pwr := (rfl)
@[simp] theorem State.setCore_boot (s : State) (c : Nat) (x : Core) : (s.setCore c x).boot = s.boot := (rfl)
@[simp] theorem State.setCore_tap (s : State) (c : Nat) (x : Core) : (s.setCore c x).tap = s.tap := (rfl)

/-! ## State.setBin -/

@[simp] theorem State.setBin_pending (s : State) (d stream n v : Nat) : (s.setBin d stream n v).pending = s.pending := (rfl)
@[simp] theorem State.setBin_free (s : State) (d stream n v : Nat) : (s.setBin d stream n v).free = s.free := (rfl)
@[simp] theorem State.setBin_rdData (s : State) (d stream n v : Nat) : (s.setBin d stream n v).rdData = s.rdData := (rfl)
@[simp] theorem State.setBin_regStatus (s : State) (d stream n v : Nat) : (s.setBin d stream n v).regStatus = s.regStatus := (rfl)
@[simp] theorem State.setBin_regs (s : State) (d stream n v : Nat) : (s.setBin d stream n v).regs = s.regs := (rfl)
@[simp] theorem State.setBin_errCtx (s : State) (d stream n v : Nat) : (s.setBin d stream n v).errCtx = s.errCtx := (rfl)
@[simp] theorem State.setBin_events (s : State) (d stream n v : Nat) : (s.setBin d stream n v).events = s.events := (rfl)
@[simp] theorem State.setBin_plat (s : State) (d stream n v : Nat) : (s.setBin d stream n v).plat = s.plat := (rfl)
@[simp] theorem State.setBin_sst (s : State) (d stream n v : Nat) : (s.setBin d stream n v).sst = s.sst := (rfl)
@[simp] theorem State.setBin_cores (s : State) (d stream n v : Nat) : (s.setBin d stream n v).cores = s.cores := (rfl)
@[simp] theorem State.setBin_scratch (s : State) (d stream n v : Nat) : (s.setBin d stream n v).scratch = s.scratch := (rfl)
@[simp] theorem State.setBin_clusters (s : State) (d stream n v : Nat) : (s.setBin d stream n v).clusters = s.clusters := (rfl)
@[simp] theorem State.setBin_banks (s : State) (d stream n v : Nat) : (s.setBin d stream n v).banks = s.banks := (rfl)
@[simp] theorem State.setBin_mxes (s : State) (d stream n v : Nat) : (s.setBin d stream n v).mxes = s.mxes := (rfl)
@[simp] theorem State.setBin_vxes (s : State) (d stream n v : Nat) : (s.setBin d stream n v).vxes = s.vxes := (rfl)
@[simp] theorem State.setBin_work (s : State) (d stream n v : Nat) : (s.setBin d stream n v).work = s.work := (rfl)
@[simp] theorem State.setBin_hstOp (s : State) (d stream n v : Nat) : (s.setBin d stream n v).hstOp = s.hstOp := (rfl)
@[simp] theorem State.setBin_mem (s : State) (d stream n v : Nat) : (s.setBin d stream n v).mem = s.mem := (rfl)
@[simp] theorem State.setBin_ms (s : State) (d stream n v : Nat) : (s.setBin d stream n v).ms = s.ms := (rfl)
@[simp] theorem State.setBin_upd (s : State) (d stream n v : Nat) : (s.setBin d stream n v).upd = s.upd := (rfl)
@[simp] theorem State.setBin_commit (s : State) (d stream n v : Nat) : (s.setBin d stream n v).commit = s.commit := (rfl)
@[simp] theorem State.setBin_uus (s : State) (d stream n v : Nat) : (s.setBin d stream n v).uus = s.uus := (rfl)
@[simp] theorem State.setBin_journals (s : State) (d stream n v : Nat) : (s.setBin d stream n v).journals = s.journals := (rfl)
@[simp] theorem State.setBin_stg (s : State) (d stream n v : Nat) : (s.setBin d stream n v).stg = s.stg := (rfl)
@[simp] theorem State.setBin_sync (s : State) (d stream n v : Nat) : (s.setBin d stream n v).sync = s.sync := (rfl)
@[simp] theorem State.setBin_net (s : State) (d stream n v : Nat) : (s.setBin d stream n v).net = s.net := (rfl)
@[simp] theorem State.setBin_cr (s : State) (d stream n v : Nat) : (s.setBin d stream n v).cr = s.cr := (rfl)
@[simp] theorem State.setBin_host (s : State) (d stream n v : Nat) : (s.setBin d stream n v).host = s.host := (rfl)
@[simp] theorem State.setBin_rcv (s : State) (d stream n v : Nat) : (s.setBin d stream n v).rcv = s.rcv := (rfl)
@[simp] theorem State.setBin_ldg (s : State) (d stream n v : Nat) : (s.setBin d stream n v).ldg = s.ldg := (rfl)
@[simp] theorem State.setBin_pwr (s : State) (d stream n v : Nat) : (s.setBin d stream n v).pwr = s.pwr := (rfl)
@[simp] theorem State.setBin_boot (s : State) (d stream n v : Nat) : (s.setBin d stream n v).boot = s.boot := (rfl)
@[simp] theorem State.setBin_tap (s : State) (d stream n v : Nat) : (s.setBin d stream n v).tap = s.tap := (rfl)

end Sys2Proof.Machine
end

