-- ==== Sys2Proof/Laws/GoodOps.lean ====
section
/-! SUPPORT. One predicate that every operation keeps (the queue as it was; and, where a given condition holds, memory and registers
in canonical form and a TAP behind a held package), and that the shared operations keep it. -/

namespace Sys2Proof.Machine
-- The tactic scripts here have one shape for every operation, so some of their steps do nothing for some operations.
set_option linter.unusedTactic false
set_option linter.unreachableTactic false

/-- What the meanings of all commands keep: the queue, and, given pq's second part, the canonical form and TapOk. -/
def Good (pq : List Instr × Prop) (s : State) : Prop := s.pending = pq.1 ∧ (pq.2 → Canonical s ∧ TapOk s)

def GoodOut (pq : List Instr × Prop) (o : Host.Outcome State Fault Refusal) : Prop := ∀ t, o = .next t → Good pq t

theorem goodOut_next {pq : List Instr × Prop} {t : State} (h : Good pq t) : GoodOut pq (.next t) := by
  intro u hu; cases hu; exact h
theorem ite_good {pq : List Instr × Prop} {c : Prop} [Decidable c] {a b : State} (ha : c → Good pq a) (hb : ¬c → Good pq b) : Good pq (if c then a else b) := by
  split
  · exact ha ‹_›
  · exact hb ‹_›
theorem iteOut_good {pq : List Instr × Prop} {c : Prop} [Decidable c] {a b : Host.Outcome State Fault Refusal} (ha : c → GoodOut pq a) (hb : ¬c → GoodOut pq b) : GoodOut pq (if c then a else b) := by
  split
  · exact ha ‹_›
  · exact hb ‹_›
theorem foldl_good {pq : List Instr × Prop} {β : Type} {g : State → β → State} {l : List β} {s : State} (h : ∀ s x, Good pq s → Good pq (g s x)) (hs : Good pq s) : Good pq (l.foldl g s) := by
  induction l generalizing s with
  | nil => exact hs
  | cons a t ih => exact ih (h s a hs)
theorem foldl_fst {pq : List Instr × Prop} {β γ : Type} {g : State × γ → β → State × γ} {l : List β} {a : State × γ} (h : ∀ a x, Good pq a.1 → Good pq (g a x).1) (hs : Good pq a.1) : Good pq (l.foldl g a).1 := by
  induction l generalizing a with
  | nil => exact hs
  | cons b t ih => exact ih (h a b hs)
theorem foldl_snd {pq : List Instr × Prop} {β γ : Type} {g : γ × State → β → γ × State} {l : List β} {a : γ × State} (h : ∀ a x, Good pq a.2 → Good pq (g a x).2) (hs : Good pq a.2) : Good pq (l.foldl g a).2 := by
  induction l generalizing a with
  | nil => exact hs
  | cons b t ih => exact ih (h a b hs)

def GoodOpt {α : Type} (pq : List Instr × Prop) (f : α → State) (o : Option α) : Prop := ∀ r, o = some r → Good pq (f r)
theorem goodOpt_some {α : Type} {pq : List Instr × Prop} {f : α → State} {r : α} (h : Good pq (f r)) : GoodOpt pq f (some r) := by
  intro u hu; cases hu; exact h
theorem goodOpt_none {α : Type} {pq : List Instr × Prop} {f : α → State} : GoodOpt pq f none := by
  intro u hu; cases hu
theorem iteOpt_good {α : Type} {pq : List Instr × Prop} {f : α → State} {c : Prop} [Decidable c] {a b : Option α} (ha : c → GoodOpt pq f a) (hb : ¬c → GoodOpt pq f b) : GoodOpt pq f (if c then a else b) := by
  split
  · exact ha ‹_›
  · exact hb ‹_›
theorem findSome_good {α : Type} {pq : List Instr × Prop} {f : α → Option State} (h : ∀ x t, f x = some t → Good pq t) {l : List α} {t : State} (ht : l.findSome? f = some t) : Good pq t := by
  obtain ⟨x, _, hx⟩ := List.exists_of_findSome?_eq_some ht
  exact h x t hx
theorem withMem_good {pq : List Instr × Prop} {s : State} {m : Mem} (h : Good pq s) (hm : Memory.wf s.mem = true → Memory.wf m = true) : Good pq (s.withMem m) :=
  ⟨h.1, fun hk => ⟨⟨hm (h.2 hk).1.1, (h.2 hk).1.2⟩, (h.2 hk).2⟩⟩
theorem canonical_reset : Canonical State.reset := by
  refine ⟨rfl, ?_⟩
  decide
theorem tapOk_reset : TapOk State.reset := by
  intro h; cases h

theorem State.withFree_good {pq : List Instr × Prop} {s : State} (x) (h : Good pq s) : Good pq (s.withFree x) := h
theorem State.withRdData_good {pq : List Instr × Prop} {s : State} (x) (h : Good pq s) : Good pq (s.withRdData x) := h
theorem State.withRegStatus_good {pq : List Instr × Prop} {s : State} (x) (h : Good pq s) : Good pq (s.withRegStatus x) := h
theorem State.withErrCtx_good {pq : List Instr × Prop} {s : State} (x) (h : Good pq s) : Good pq (s.withErrCtx x) := h
theorem State.withEvents_good {pq : List Instr × Prop} {s : State} (x) (h : Good pq s) : Good pq (s.withEvents x) := h
theorem State.withPlat_good {pq : List Instr × Prop} {s : State} (x) (h : Good pq s) : Good pq (s.withPlat x) := h
theorem State.withSst_good {pq : List Instr × Prop} {s : State} (x) (h : Good pq s) : Good pq (s.withSst x) := h
theorem State.withCores_good {pq : List Instr × Prop} {s : State} (x) (h : Good pq s) : Good pq (s.withCores x) := h
theorem State.withScratch_good {pq : List Instr × Prop} {s : State} (x) (h : Good pq s) : Good pq (s.withScratch x) := h
theorem State.withClusters_good {pq : List Instr × Prop} {s : State} (x) (h : Good pq s) : Good pq (s.withClusters x) := h
theorem State.withBanks_good {pq : List Instr × Prop} {s : State} (x) (h : Good pq s) : Good pq (s.withBanks x) := h
theorem State.withMxes_good {pq : List Instr × Prop} {s : State} (x) (h : Good pq s) : Good pq (s.withMxes x) := h
theorem State.withVxes_good {pq : List Instr × Prop} {s : State} (x) (h : Good pq s) : Good pq (s.withVxes x) := h
theorem State.withBins_good {pq : List Instr × Prop} {s : State} (x) (h : Good pq s) : Good pq (s.withBins x) := h
theorem State.withWork_good {pq : List Instr × Prop} {s : State} (x) (h : Good pq s) : Good pq (s.withWork x) := h
theorem State.withHstOp_good {pq : List Instr × Prop} {s : State} (x) (h : Good pq s) : Good pq (s.withHstOp x) := h
theorem State.withMs_good {pq : List Instr × Prop} {s : State} (x) (h : Good pq s) : Good pq (s.withMs x) := h
theorem State.withUpd_good {pq : List Instr × Prop} {s : State} (x) (h : Good pq s) : Good pq (s.withUpd x) := h
theorem State.withCommit_good {pq : List Instr × Prop} {s : State} (x) (h : Good pq s) : Good pq (s.withCommit x) := h
theorem State.withUus_good {pq : List Instr × Prop} {s : State} (x) (h : Good pq s) : Good pq (s.withUus x) := h
theorem State.withJournals_good {pq : List Instr × Prop} {s : State} (x) (h : Good pq s) : Good pq (s.withJournals x) := h
theorem State.withStg_good {pq : List Instr × Prop} {s : State} (x) (h : Good pq s) : Good pq (s.withStg x) := h
theorem State.withSync_good {pq : List Instr × Prop} {s : State} (x) (h : Good pq s) : Good pq (s.withSync x) := h
theorem State.withNet_good {pq : List Instr × Prop} {s : State} (x) (h : Good pq s) : Good pq (s.withNet x) := h
theorem State.withCr_good {pq : List Instr × Prop} {s : State} (x) (h : Good pq s) : Good pq (s.withCr x) := h
theorem State.withHost_good {pq : List Instr × Prop} {s : State} (x) (h : Good pq s) : Good pq (s.withHost x) := h
theorem State.withRcv_good {pq : List Instr × Prop} {s : State} (x) (h : Good pq s) : Good pq (s.withRcv x) := h
theorem State.withLdg_good {pq : List Instr × Prop} {s : State} (x) (h : Good pq s) : Good pq (s.withLdg x) := h
theorem State.withPwr_good {pq : List Instr × Prop} {s : State} (x) (h : Good pq s) : Good pq (s.withPwr x) := h
theorem State.withBoot_good {pq : List Instr × Prop} {s : State} (x) (h : Good pq s) : Good pq (s.withBoot x) := h
-- FOR State.withPending

-- FOR State.withRegs

-- FOR State.withMem
-- HAVE dummymem X

-- FOR State.withTap

-- FOR State.setReg
-- HAVE setReg State.setReg_good
theorem State.setReg_good {pq : List Instr × Prop} {s : State} {k : Nat} {v : W64} (h : Good pq s) : Good pq (s.setReg k v) :=
  ⟨h.1, fun hk => ⟨⟨(h.2 hk).1.1, KMap.wf_set resetOf _ _ _ (h.2 hk).1.2⟩, (h.2 hk).2⟩⟩

theorem State.setFld_good {pq : List Instr × Prop} {s : State} {page : Nat} {f : Fld} {v : Nat} (hs : Good pq s) : Good pq (State.setFld s page f v) := by
  unfold State.setFld
  repeat' first
    | with_reducible assumption
    | with_reducible refine goodOut_next ?_
    | (lift_lets; intro x; refine (fun (hx : Good pq x) => ?_) ?_; clear_value x)
    | (intro x; subst x)
    | with_reducible refine State.setReg_good ?_
    | with_reducible refine ite_good (fun _ => ?_) (fun _ => ?_)
    | with_reducible refine iteOut_good (fun _ => ?_) (fun _ => ?_)
    | with_reducible refine foldl_good (fun _ _ _ => ?_) ?_
    | with_reducible refine foldl_fst (fun _ _ _ => ?_) ?_
    | with_reducible refine foldl_snd (fun _ _ _ => ?_) ?_
    | subst x
    | with_reducible split
    | dsimp only

theorem State.setBitF_good {pq : List Instr × Prop} {s : State} {page : Nat} {f : Fld} {b : Bool} (hs : Good pq s) : Good pq (State.setBitF s page f b) := by
  unfold State.setBitF
  repeat' first
    | with_reducible assumption
    | with_reducible refine goodOut_next ?_
    | (lift_lets; intro x; refine (fun (hx : Good pq x) => ?_) ?_; clear_value x)
    | (intro x; subst x)
    | with_reducible refine State.setFld_good ?_
    | with_reducible refine ite_good (fun _ => ?_) (fun _ => ?_)
    | with_reducible refine iteOut_good (fun _ => ?_) (fun _ => ?_)
    | with_reducible refine foldl_good (fun _ _ _ => ?_) ?_
    | with_reducible refine foldl_fst (fun _ _ _ => ?_) ?_
    | with_reducible refine foldl_snd (fun _ _ _ => ?_) ?_
    | subst x
    | with_reducible split
    | dsimp only

theorem State.addFld_good {pq : List Instr × Prop} {s : State} {page : Nat} {f : Fld} {n : Nat} (hs : Good pq s) : Good pq (State.addFld s page f n) := by
  unfold State.addFld
  repeat' first
    | with_reducible assumption
    | with_reducible refine goodOut_next ?_
    | (lift_lets; intro x; refine (fun (hx : Good pq x) => ?_) ?_; clear_value x)
    | (intro x; subst x)
    | with_reducible refine State.setFld_good ?_
    | with_reducible refine ite_good (fun _ => ?_) (fun _ => ?_)
    | with_reducible refine iteOut_good (fun _ => ?_) (fun _ => ?_)
    | with_reducible refine foldl_good (fun _ _ _ => ?_) ?_
    | with_reducible refine foldl_fst (fun _ _ _ => ?_) ?_
    | with_reducible refine foldl_snd (fun _ _ _ => ?_) ?_
    | subst x
    | with_reducible split
    | dsimp only

theorem State.wrapFld_good {pq : List Instr × Prop} {s : State} {page : Nat} {f : Fld} {n : Nat} (hs : Good pq s) : Good pq (State.wrapFld s page f n) := by
  unfold State.wrapFld
  repeat' first
    | with_reducible assumption
    | with_reducible refine goodOut_next ?_
    | (lift_lets; intro x; refine (fun (hx : Good pq x) => ?_) ?_; clear_value x)
    | (intro x; subst x)
    | with_reducible refine State.setFld_good ?_
    | with_reducible refine ite_good (fun _ => ?_) (fun _ => ?_)
    | with_reducible refine iteOut_good (fun _ => ?_) (fun _ => ?_)
    | with_reducible refine foldl_good (fun _ _ _ => ?_) ?_
    | with_reducible refine foldl_fst (fun _ _ _ => ?_) ?_
    | with_reducible refine foldl_snd (fun _ _ _ => ?_) ?_
    | subst x
    | with_reducible split
    | dsimp only

theorem State.setErrBit_good {pq : List Instr × Prop} {s : State} {page : Nat} {b : Nat} {ctx : Nat} (hs : Good pq s) : Good pq (State.setErrBit s page b ctx) := by
  unfold State.setErrBit
  repeat' first
    | with_reducible assumption
    | with_reducible refine goodOut_next ?_
    | (lift_lets; intro x; refine (fun (hx : Good pq x) => ?_) ?_; clear_value x)
    | (intro x; subst x)
    | with_reducible refine State.addFld_good ?_
    | with_reducible refine State.setReg_good ?_
    | with_reducible refine State.withErrCtx_good _ ?_
    | with_reducible refine ite_good (fun _ => ?_) (fun _ => ?_)
    | with_reducible refine iteOut_good (fun _ => ?_) (fun _ => ?_)
    | with_reducible refine foldl_good (fun _ _ _ => ?_) ?_
    | with_reducible refine foldl_fst (fun _ _ _ => ?_) ?_
    | with_reducible refine foldl_snd (fun _ _ _ => ?_) ?_
    | subst x
    | with_reducible split
    | dsimp only

theorem State.setErr_good {pq : List Instr × Prop} {s : State} {page : Nat} {f : Fld} {ctx : Nat} (hs : Good pq s) : Good pq (State.setErr s page f ctx) := by
  unfold State.setErr
  repeat' first
    | with_reducible assumption
    | with_reducible refine goodOut_next ?_
    | (lift_lets; intro x; refine (fun (hx : Good pq x) => ?_) ?_; clear_value x)
    | (intro x; subst x)
    | with_reducible refine State.setErrBit_good ?_
    | with_reducible refine ite_good (fun _ => ?_) (fun _ => ?_)
    | with_reducible refine iteOut_good (fun _ => ?_) (fun _ => ?_)
    | with_reducible refine foldl_good (fun _ _ _ => ?_) ?_
    | with_reducible refine foldl_fst (fun _ _ _ => ?_) ?_
    | with_reducible refine foldl_snd (fun _ _ _ => ?_) ?_
    | subst x
    | with_reducible split
    | dsimp only

theorem State.badSeq_good {pq : List Instr × Prop} {s : State} {page : Nat} (hs : Good pq s) : Good pq (State.badSeq s page) := by
  unfold State.badSeq
  repeat' first
    | with_reducible assumption
    | with_reducible refine goodOut_next ?_
    | (lift_lets; intro x; refine (fun (hx : Good pq x) => ?_) ?_; clear_value x)
    | (intro x; subst x)
    | with_reducible refine State.setErrBit_good ?_
    | with_reducible refine ite_good (fun _ => ?_) (fun _ => ?_)
    | with_reducible refine iteOut_good (fun _ => ?_) (fun _ => ?_)
    | with_reducible refine foldl_good (fun _ _ _ => ?_) ?_
    | with_reducible refine foldl_fst (fun _ _ _ => ?_) ?_
    | with_reducible refine foldl_snd (fun _ _ _ => ?_) ?_
    | subst x
    | with_reducible split
    | dsimp only

theorem State.plainWrite_good {pq : List Instr × Prop} {s : State} {k : Nat} {data : W64} (hs : Good pq s) : Good pq (State.plainWrite s k data) := by
  unfold State.plainWrite
  repeat' first
    | with_reducible assumption
    | with_reducible refine goodOut_next ?_
    | (lift_lets; intro x; refine (fun (hx : Good pq x) => ?_) ?_; clear_value x)
    | (intro x; subst x)
    | with_reducible refine State.setReg_good ?_
    | with_reducible refine ite_good (fun _ => ?_) (fun _ => ?_)
    | with_reducible refine iteOut_good (fun _ => ?_) (fun _ => ?_)
    | with_reducible refine foldl_good (fun _ _ _ => ?_) ?_
    | with_reducible refine foldl_fst (fun _ _ _ => ?_) ?_
    | with_reducible refine foldl_snd (fun _ _ _ => ?_) ?_
    | subst x
    | with_reducible split
    | dsimp only

theorem State.lockedWrite_good {pq : List Instr × Prop} {s : State} {k : Nat} {m : W64} {data : W64} (hs : Good pq s) : Good pq (State.lockedWrite s k m data) := by
  unfold State.lockedWrite
  repeat' first
    | with_reducible assumption
    | with_reducible refine goodOut_next ?_
    | (lift_lets; intro x; refine (fun (hx : Good pq x) => ?_) ?_; clear_value x)
    | (intro x; subst x)
    | with_reducible refine State.badSeq_good ?_
    | with_reducible refine State.plainWrite_good ?_
    | with_reducible refine ite_good (fun _ => ?_) (fun _ => ?_)
    | with_reducible refine iteOut_good (fun _ => ?_) (fun _ => ?_)
    | with_reducible refine foldl_good (fun _ _ _ => ?_) ?_
    | with_reducible refine foldl_fst (fun _ _ _ => ?_) ?_
    | with_reducible refine foldl_snd (fun _ _ _ => ?_) ?_
    | subst x
    | with_reducible split
    | dsimp only

theorem State.draw_good {pq : List Instr × Prop} {s : State} (hs : Good pq s) : Good pq (State.draw s).2 := by
  unfold State.draw
  repeat' first
    | with_reducible assumption
    | with_reducible refine goodOut_next ?_
    | (lift_lets; intro x; refine (fun (hx : Good pq x) => ?_) ?_; clear_value x)
    | (intro x; subst x)
    | with_reducible refine State.withFree_good _ ?_
    | with_reducible refine ite_good (fun _ => ?_) (fun _ => ?_)
    | with_reducible refine iteOut_good (fun _ => ?_) (fun _ => ?_)
    | with_reducible refine foldl_good (fun _ _ _ => ?_) ?_
    | with_reducible refine foldl_fst (fun _ _ _ => ?_) ?_
    | with_reducible refine foldl_snd (fun _ _ _ => ?_) ?_
    | subst x
    | with_reducible split
    | dsimp only

theorem State.draw_good_eq {pq : List Instr × Prop} {s : State} {rr} (he : State.draw s = rr) (hs : Good pq s) : Good pq rr.2 := he ▸ State.draw_good hs

theorem State.out_good {pq : List Instr × Prop} {s : State} {v : W64} (hs : Good pq s) : Good pq (State.out s v) := by
  unfold State.out
  repeat' first
    | with_reducible assumption
    | with_reducible refine goodOut_next ?_
    | (lift_lets; intro x; refine (fun (hx : Good pq x) => ?_) ?_; clear_value x)
    | (intro x; subst x)
    | with_reducible refine State.withRdData_good _ ?_
    | with_reducible refine ite_good (fun _ => ?_) (fun _ => ?_)
    | with_reducible refine iteOut_good (fun _ => ?_) (fun _ => ?_)
    | with_reducible refine foldl_good (fun _ _ _ => ?_) ?_
    | with_reducible refine foldl_fst (fun _ _ _ => ?_) ?_
    | with_reducible refine foldl_snd (fun _ _ _ => ?_) ?_
    | subst x
    | with_reducible split
    | dsimp only

theorem State.setTb_good {pq : List Instr × Prop} {s : State} {d : Nat} {t : TimeBase} (hs : Good pq s) : Good pq (State.setTb s d t) := by
  unfold State.setTb
  repeat' first
    | with_reducible assumption
    | with_reducible refine goodOut_next ?_
    | (lift_lets; intro x; refine (fun (hx : Good pq x) => ?_) ?_; clear_value x)
    | (intro x; subst x)
    | with_reducible refine State.withPlat_good _ ?_
    | with_reducible refine ite_good (fun _ => ?_) (fun _ => ?_)
    | with_reducible refine iteOut_good (fun _ => ?_) (fun _ => ?_)
    | with_reducible refine foldl_good (fun _ _ _ => ?_) ?_
    | with_reducible refine foldl_fst (fun _ _ _ => ?_) ?_
    | with_reducible refine foldl_snd (fun _ _ _ => ?_) ?_
    | subst x
    | with_reducible split
    | dsimp only

theorem State.setBridge_good {pq : List Instr × Prop} {s : State} {b : Nat} {x : Bridge} (hs : Good pq s) : Good pq (State.setBridge s b x) := by
  unfold State.setBridge
  repeat' first
    | with_reducible assumption
    | with_reducible refine goodOut_next ?_
    | (lift_lets; intro x; refine (fun (hx : Good pq x) => ?_) ?_; clear_value x)
    | (intro x; subst x)
    | with_reducible refine State.withPlat_good _ ?_
    | with_reducible refine ite_good (fun _ => ?_) (fun _ => ?_)
    | with_reducible refine iteOut_good (fun _ => ?_) (fun _ => ?_)
    | with_reducible refine foldl_good (fun _ _ _ => ?_) ?_
    | with_reducible refine foldl_fst (fun _ _ _ => ?_) ?_
    | with_reducible refine foldl_snd (fun _ _ _ => ?_) ?_
    | subst x
    | with_reducible split
    | dsimp only

theorem State.sstAdd_good {pq : List Instr × Prop} {s : State} {typ : Nat} {key : Nat} {payload : List W64} (hs : Good pq s) : Good pq (State.sstAdd s typ key payload) := by
  unfold State.sstAdd
  repeat' first
    | with_reducible assumption
    | with_reducible refine goodOut_next ?_
    | (lift_lets; intro x; refine (fun (hx : Good pq x) => ?_) ?_; clear_value x)
    | (intro x; subst x)
    | with_reducible refine State.setFld_good ?_
    | with_reducible refine State.withSst_good _ ?_
    | with_reducible refine ite_good (fun _ => ?_) (fun _ => ?_)
    | with_reducible refine iteOut_good (fun _ => ?_) (fun _ => ?_)
    | with_reducible refine foldl_good (fun _ _ _ => ?_) ?_
    | with_reducible refine foldl_fst (fun _ _ _ => ?_) ?_
    | with_reducible refine foldl_snd (fun _ _ _ => ?_) ?_
    | subst x
    | with_reducible split
    | dsimp only

theorem State.event_good {pq : List Instr × Prop} {s : State} {d : Nat} {code : Nat} {ctx : Nat} {unit : Nat} {d0 : Nat} {d1 : W64} (hs : Good pq s) : Good pq (State.event s d code ctx unit d0 d1) := by
  unfold State.event
  repeat' first
    | with_reducible assumption
    | with_reducible refine goodOut_next ?_
    | (lift_lets; intro x; refine (fun (hx : Good pq x) => ?_) ?_; clear_value x)
    | (intro x; subst x)
    | with_reducible refine State.addFld_good ?_
    | with_reducible refine State.setErr_good ?_
    | with_reducible refine State.setFld_good ?_
    | with_reducible refine State.sstAdd_good ?_
    | with_reducible refine State.withEvents_good _ ?_
    | with_reducible refine ite_good (fun _ => ?_) (fun _ => ?_)
    | with_reducible refine iteOut_good (fun _ => ?_) (fun _ => ?_)
    | with_reducible refine foldl_good (fun _ _ _ => ?_) ?_
    | with_reducible refine foldl_fst (fun _ _ _ => ?_) ?_
    | with_reducible refine foldl_snd (fun _ _ _ => ?_) ?_
    | subst x
    | with_reducible split
    | dsimp only

theorem State.putUnit_good {pq : List Instr × Prop} {s : State} {key : Nat} {u : UnitRec} (hs : Good pq s) : Good pq (State.putUnit s key u) := by
  unfold State.putUnit
  repeat' first
    | with_reducible assumption
    | with_reducible refine goodOut_next ?_
    | (lift_lets; intro x; refine (fun (hx : Good pq x) => ?_) ?_; clear_value x)
    | (intro x; subst x)
    | with_reducible refine State.sstAdd_good ?_
    | with_reducible refine State.withSst_good _ ?_
    | with_reducible refine ite_good (fun _ => ?_) (fun _ => ?_)
    | with_reducible refine iteOut_good (fun _ => ?_) (fun _ => ?_)
    | with_reducible refine foldl_good (fun _ _ _ => ?_) ?_
    | with_reducible refine foldl_fst (fun _ _ _ => ?_) ?_
    | with_reducible refine foldl_snd (fun _ _ _ => ?_) ?_
    | subst x
    | with_reducible split
    | dsimp only

theorem State.markFenced_good {pq : List Instr × Prop} {s : State} {key : Nat} {cause : Nat} (hs : Good pq s) : Good pq (State.markFenced s key cause) := by
  unfold State.markFenced
  repeat' first
    | with_reducible assumption
    | with_reducible refine goodOut_next ?_
    | (lift_lets; intro x; refine (fun (hx : Good pq x) => ?_) ?_; clear_value x)
    | (intro x; subst x)
    | with_reducible refine State.putUnit_good ?_
    | with_reducible refine ite_good (fun _ => ?_) (fun _ => ?_)
    | with_reducible refine iteOut_good (fun _ => ?_) (fun _ => ?_)
    | with_reducible refine foldl_good (fun _ _ _ => ?_) ?_
    | with_reducible refine foldl_fst (fun _ _ _ => ?_) ?_
    | with_reducible refine foldl_snd (fun _ _ _ => ?_) ?_
    | subst x
    | with_reducible split
    | dsimp only

theorem State.liftFence_good {pq : List Instr × Prop} {s : State} {key : Nat} (hs : Good pq s) : Good pq (State.liftFence s key) := by
  unfold State.liftFence
  repeat' first
    | with_reducible assumption
    | with_reducible refine goodOut_next ?_
    | (lift_lets; intro x; refine (fun (hx : Good pq x) => ?_) ?_; clear_value x)
    | (intro x; subst x)
    | with_reducible refine State.putUnit_good ?_
    | with_reducible refine ite_good (fun _ => ?_) (fun _ => ?_)
    | with_reducible refine iteOut_good (fun _ => ?_) (fun _ => ?_)
    | with_reducible refine foldl_good (fun _ _ _ => ?_) ?_
    | with_reducible refine foldl_fst (fun _ _ _ => ?_) ?_
    | with_reducible refine foldl_snd (fun _ _ _ => ?_) ?_
    | subst x
    | with_reducible split
    | dsimp only

theorem State.setMxe_good {pq : List Instr × Prop} {s : State} {e : Nat} {m : Mxe} (hs : Good pq s) : Good pq (State.setMxe s e m) := by
  unfold State.setMxe
  repeat' first
    | with_reducible assumption
    | with_reducible refine goodOut_next ?_
    | (lift_lets; intro x; refine (fun (hx : Good pq x) => ?_) ?_; clear_value x)
    | (intro x; subst x)
    | with_reducible refine State.withMxes_good _ ?_
    | with_reducible refine ite_good (fun _ => ?_) (fun _ => ?_)
    | with_reducible refine iteOut_good (fun _ => ?_) (fun _ => ?_)
    | with_reducible refine foldl_good (fun _ _ _ => ?_) ?_
    | with_reducible refine foldl_fst (fun _ _ _ => ?_) ?_
    | with_reducible refine foldl_snd (fun _ _ _ => ?_) ?_
    | subst x
    | with_reducible split
    | dsimp only

theorem State.setVxe_good {pq : List Instr × Prop} {s : State} {v : Nat} {r : Option ChainRun} (hs : Good pq s) : Good pq (State.setVxe s v r) := by
  unfold State.setVxe
  repeat' first
    | with_reducible assumption
    | with_reducible refine goodOut_next ?_
    | (lift_lets; intro x; refine (fun (hx : Good pq x) => ?_) ?_; clear_value x)
    | (intro x; subst x)
    | with_reducible refine State.withVxes_good _ ?_
    | with_reducible refine ite_good (fun _ => ?_) (fun _ => ?_)
    | with_reducible refine iteOut_good (fun _ => ?_) (fun _ => ?_)
    | with_reducible refine foldl_good (fun _ _ _ => ?_) ?_
    | with_reducible refine foldl_fst (fun _ _ _ => ?_) ?_
    | with_reducible refine foldl_snd (fun _ _ _ => ?_) ?_
    | subst x
    | with_reducible split
    | dsimp only

theorem State.setUu_good {pq : List Instr × Prop} {s : State} {u : Nat} {x : Uu} (hs : Good pq s) : Good pq (State.setUu s u x) := by
  unfold State.setUu
  repeat' first
    | with_reducible assumption
    | with_reducible refine goodOut_next ?_
    | (lift_lets; intro x; refine (fun (hx : Good pq x) => ?_) ?_; clear_value x)
    | (intro x; subst x)
    | with_reducible refine State.withUus_good _ ?_
    | with_reducible refine ite_good (fun _ => ?_) (fun _ => ?_)
    | with_reducible refine iteOut_good (fun _ => ?_) (fun _ => ?_)
    | with_reducible refine foldl_good (fun _ _ _ => ?_) ?_
    | with_reducible refine foldl_fst (fun _ _ _ => ?_) ?_
    | with_reducible refine foldl_snd (fun _ _ _ => ?_) ?_
    | subst x
    | with_reducible split
    | dsimp only

theorem State.setClu_good {pq : List Instr × Prop} {s : State} {c : Nat} {x : Cluster} (hs : Good pq s) : Good pq (State.setClu s c x) := by
  unfold State.setClu
  repeat' first
    | with_reducible assumption
    | with_reducible refine goodOut_next ?_
    | (lift_lets; intro x; refine (fun (hx : Good pq x) => ?_) ?_; clear_value x)
    | (intro x; subst x)
    | with_reducible refine State.withClusters_good _ ?_
    | with_reducible refine ite_good (fun _ => ?_) (fun _ => ?_)
    | with_reducible refine iteOut_good (fun _ => ?_) (fun _ => ?_)
    | with_reducible refine foldl_good (fun _ _ _ => ?_) ?_
    | with_reducible refine foldl_fst (fun _ _ _ => ?_) ?_
    | with_reducible refine foldl_snd (fun _ _ _ => ?_) ?_
    | subst x
    | with_reducible split
    | dsimp only

theorem State.setCore_good {pq : List Instr × Prop} {s : State} {c : Nat} {x : Core} (hs : Good pq s) : Good pq (State.setCore s c x) := by
  unfold State.setCore
  repeat' first
    | with_reducible assumption
    | with_reducible refine goodOut_next ?_
    | (lift_lets; intro x; refine (fun (hx : Good pq x) => ?_) ?_; clear_value x)
    | (intro x; subst x)
    | with_reducible refine State.withCores_good _ ?_
    | with_reducible refine ite_good (fun _ => ?_) (fun _ => ?_)
    | with_reducible refine iteOut_good (fun _ => ?_) (fun _ => ?_)
    | with_reducible refine foldl_good (fun _ _ _ => ?_) ?_
    | with_reducible refine foldl_fst (fun _ _ _ => ?_) ?_
    | with_reducible refine foldl_snd (fun _ _ _ => ?_) ?_
    | subst x
    | with_reducible split
    | dsimp only

-- FOR State.setFull
-- HAVE setFull State.setFull_good
theorem State.setFull_good {pq : List Instr × Prop} {s : State} {k : Nat} {v : Bool} (h : Good pq s) : Good pq (s.setFull k v) := by
  obtain ⟨h1, h5⟩ := h
  refine ⟨h1, fun hk => ?_⟩
  obtain ⟨⟨h2, h3⟩, h4⟩ := h5 hk
  simp only [Memory.wf, Bool.and_eq_true] at h2
  exact ⟨⟨by simp only [Memory.wf, Bool.and_eq_true]; exact ⟨⟨⟨h2.1.1.1, KMap.wf_set (fun _ => false) _ _ _ h2.1.1.2⟩, h2.1.2⟩, h2.2⟩, h3⟩, h4⟩

-- FOR State.setPoison
-- HAVE setPoison State.setPoison_good
theorem State.setPoison_good {pq : List Instr × Prop} {s : State} {k : Nat} {v : Bool} (h : Good pq s) : Good pq (s.setPoison k v) := by
  obtain ⟨h1, h5⟩ := h
  refine ⟨h1, fun hk => ?_⟩
  obtain ⟨⟨h2, h3⟩, h4⟩ := h5 hk
  simp only [Memory.wf, Bool.and_eq_true] at h2
  exact ⟨⟨by simp only [Memory.wf, Bool.and_eq_true]; exact ⟨⟨⟨h2.1.1.1, h2.1.1.2⟩, KMap.wf_set (fun _ => false) _ _ _ h2.1.2⟩, h2.2⟩, h3⟩, h4⟩

-- FOR State.setLine
-- HAVE setLine State.setLine_good
theorem State.setLine_good {pq : List Instr × Prop} {s : State} {k : Nat} {v : Bool} (h : Good pq s) : Good pq (s.setLine k v) := by
  obtain ⟨h1, h5⟩ := h
  refine ⟨h1, fun hk => ?_⟩
  obtain ⟨⟨h2, h3⟩, h4⟩ := h5 hk
  simp only [Memory.wf, Bool.and_eq_true] at h2
  exact ⟨⟨by simp only [Memory.wf, Bool.and_eq_true]; exact ⟨h2.1, KMap.wf_set (fun _ => false) _ _ _ h2.2⟩, h3⟩, h4⟩

-- FOR State.putByte
-- HAVE putByte State.putByte_good
theorem State.putByte_good {pq : List Instr × Prop} {s : State} {k : Nat} {v : Byte} (h : Good pq s) : Good pq (s.putByte k v) := by
  obtain ⟨h1, h5⟩ := h
  refine ⟨h1, fun hk => ?_⟩
  obtain ⟨⟨h2, h3⟩, h4⟩ := h5 hk
  simp only [Memory.wf, Bool.and_eq_true] at h2
  exact ⟨⟨by simp only [Memory.wf, Bool.and_eq_true]; exact ⟨⟨⟨KMap.wf_set (fun _ => unlisted) _ _ _ h2.1.1.1, h2.1.1.2⟩, h2.1.2⟩, h2.2⟩, h3⟩, h4⟩

theorem State.markStore_good {pq : List Instr × Prop} {s : State} {p : Place} {a : Nat} {touched : List Nat} {poison : Bool} (hs : Good pq s) : Good pq (State.markStore s p a touched poison) := by
  unfold State.markStore
  repeat' first
    | with_reducible assumption
    | with_reducible refine goodOut_next ?_
    | (lift_lets; intro x; refine (fun (hx : Good pq x) => ?_) ?_; clear_value x)
    | (intro x; subst x)
    | with_reducible refine State.setLine_good ?_
    | with_reducible refine State.setPoison_good ?_
    | with_reducible refine ite_good (fun _ => ?_) (fun _ => ?_)
    | with_reducible refine iteOut_good (fun _ => ?_) (fun _ => ?_)
    | with_reducible refine foldl_good (fun _ _ _ => ?_) ?_
    | with_reducible refine foldl_fst (fun _ _ _ => ?_) ?_
    | with_reducible refine foldl_snd (fun _ _ _ => ?_) ?_
    | subst x
    | with_reducible split
    | dsimp only

theorem State.countPoisonWr_good {pq : List Instr × Prop} {s : State} {ls : List (Nat × Nat)} (hs : Good pq s) : Good pq (State.countPoisonWr s ls) := by
  unfold State.countPoisonWr
  repeat' first
    | with_reducible assumption
    | with_reducible refine goodOut_next ?_
    | (lift_lets; intro x; refine (fun (hx : Good pq x) => ?_) ?_; clear_value x)
    | (intro x; subst x)
    | with_reducible refine State.addFld_good ?_
    | with_reducible refine ite_good (fun _ => ?_) (fun _ => ?_)
    | with_reducible refine iteOut_good (fun _ => ?_) (fun _ => ?_)
    | with_reducible refine foldl_good (fun _ _ _ => ?_) ?_
    | with_reducible refine foldl_fst (fun _ _ _ => ?_) ?_
    | with_reducible refine foldl_snd (fun _ _ _ => ?_) ?_
    | subst x
    | with_reducible split
    | dsimp only

theorem State.storeBytes_good {pq : List Instr × Prop} {s : State} {bs : List (Nat × Byte)} {poison : Bool} (hs : Good pq s) : Good pq (State.storeBytes s bs poison) := by
  unfold State.storeBytes
  repeat' first
    | with_reducible assumption
    | with_reducible refine goodOut_next ?_
    | (lift_lets; intro x; refine (fun (hx : Good pq x) => ?_) ?_; clear_value x)
    | (intro x; subst x)
    | with_reducible refine State.countPoisonWr_good ?_
    | with_reducible refine State.markStore_good ?_
    | with_reducible refine State.putByte_good ?_
    | with_reducible refine ite_good (fun _ => ?_) (fun _ => ?_)
    | with_reducible refine iteOut_good (fun _ => ?_) (fun _ => ?_)
    | with_reducible refine foldl_good (fun _ _ _ => ?_) ?_
    | with_reducible refine foldl_fst (fun _ _ _ => ?_) ?_
    | with_reducible refine foldl_snd (fun _ _ _ => ?_) ?_
    | subst x
    | with_reducible split
    | dsimp only

theorem State.storeNat_good {pq : List Instr × Prop} {s : State} {a : Nat} {n : Nat} {v : Nat} (hs : Good pq s) : Good pq (State.storeNat s a n v) := by
  unfold State.storeNat
  repeat' first
    | with_reducible assumption
    | with_reducible refine goodOut_next ?_
    | (lift_lets; intro x; refine (fun (hx : Good pq x) => ?_) ?_; clear_value x)
    | (intro x; subst x)
    | with_reducible refine State.storeBytes_good ?_
    | with_reducible refine ite_good (fun _ => ?_) (fun _ => ?_)
    | with_reducible refine iteOut_good (fun _ => ?_) (fun _ => ?_)
    | with_reducible refine foldl_good (fun _ _ _ => ?_) ?_
    | with_reducible refine foldl_fst (fun _ _ _ => ?_) ?_
    | with_reducible refine foldl_snd (fun _ _ _ => ?_) ?_
    | subst x
    | with_reducible split
    | dsimp only

theorem State.storeWords_good {pq : List Instr × Prop} {s : State} {a : Nat} {ws : List W64} (hs : Good pq s) : Good pq (State.storeWords s a ws) := by
  unfold State.storeWords
  repeat' first
    | with_reducible assumption
    | with_reducible refine goodOut_next ?_
    | (lift_lets; intro x; refine (fun (hx : Good pq x) => ?_) ?_; clear_value x)
    | (intro x; subst x)
    | with_reducible refine State.storeBytes_good ?_
    | with_reducible refine ite_good (fun _ => ?_) (fun _ => ?_)
    | with_reducible refine iteOut_good (fun _ => ?_) (fun _ => ?_)
    | with_reducible refine foldl_good (fun _ _ _ => ?_) ?_
    | with_reducible refine foldl_fst (fun _ _ _ => ?_) ?_
    | with_reducible refine foldl_snd (fun _ _ _ => ?_) ?_
    | subst x
    | with_reducible split
    | dsimp only

theorem State.storeMarked_good {pq : List Instr × Prop} {s : State} {a : Nat} {bs : List Byte} {bad : Nat → Bool} (hs : Good pq s) : Good pq (State.storeMarked s a bs bad) := by
  unfold State.storeMarked
  repeat' first
    | with_reducible assumption
    | with_reducible refine goodOut_next ?_
    | (lift_lets; intro x; refine (fun (hx : Good pq x) => ?_) ?_; clear_value x)
    | (intro x; subst x)
    | with_reducible refine State.storeBytes_good ?_
    | with_reducible refine ite_good (fun _ => ?_) (fun _ => ?_)
    | with_reducible refine iteOut_good (fun _ => ?_) (fun _ => ?_)
    | with_reducible refine foldl_good (fun _ _ _ => ?_) ?_
    | with_reducible refine foldl_fst (fun _ _ _ => ?_) ?_
    | with_reducible refine foldl_snd (fun _ _ _ => ?_) ?_
    | subst x
    | with_reducible split
    | dsimp only

theorem State.moveBytes_good {pq : List Instr × Prop} {s : State} {src : Nat} {dst : Nat} {n : Nat} (hs : Good pq s) : Good pq (State.moveBytes s src dst n) := by
  unfold State.moveBytes
  repeat' first
    | with_reducible assumption
    | with_reducible refine goodOut_next ?_
    | (lift_lets; intro x; refine (fun (hx : Good pq x) => ?_) ?_; clear_value x)
    | (intro x; subst x)
    | with_reducible refine State.storeMarked_good ?_
    | with_reducible refine ite_good (fun _ => ?_) (fun _ => ?_)
    | with_reducible refine iteOut_good (fun _ => ?_) (fun _ => ?_)
    | with_reducible refine foldl_good (fun _ _ _ => ?_) ?_
    | with_reducible refine foldl_fst (fun _ _ _ => ?_) ?_
    | with_reducible refine foldl_snd (fun _ _ _ => ?_) ?_
    | subst x
    | with_reducible split
    | dsimp only

theorem State.storeFields_good {pq : List Instr × Prop} {s : State} {fields : List (Nat × Nat × Nat)} {poison : Bool} (hs : Good pq s) : Good pq (State.storeFields s fields poison) := by
  unfold State.storeFields
  repeat' first
    | with_reducible assumption
    | with_reducible refine goodOut_next ?_
    | (lift_lets; intro x; refine (fun (hx : Good pq x) => ?_) ?_; clear_value x)
    | (intro x; subst x)
    | with_reducible refine State.storeBytes_good ?_
    | with_reducible refine ite_good (fun _ => ?_) (fun _ => ?_)
    | with_reducible refine iteOut_good (fun _ => ?_) (fun _ => ?_)
    | with_reducible refine foldl_good (fun _ _ _ => ?_) ?_
    | with_reducible refine foldl_fst (fun _ _ _ => ?_) ?_
    | with_reducible refine foldl_snd (fun _ _ _ => ?_) ?_
    | subst x
    | with_reducible split
    | dsimp only

theorem State.tollRequest_good {pq : List Instr × Prop} {s : State} {d : Nat} {b : Nat} {c : Nat} (hs : Good pq s) : Good pq (State.tollRequest s d b c) := by
  unfold State.tollRequest
  repeat' first
    | with_reducible assumption
    | with_reducible refine goodOut_next ?_
    | (lift_lets; intro x; refine (fun (hx : Good pq x) => ?_) ?_; clear_value x)
    | (intro x; subst x)
    | with_reducible refine State.setFld_good ?_
    | with_reducible refine State.withMs_good _ ?_
    | with_reducible refine ite_good (fun _ => ?_) (fun _ => ?_)
    | with_reducible refine iteOut_good (fun _ => ?_) (fun _ => ?_)
    | with_reducible refine foldl_good (fun _ _ _ => ?_) ?_
    | with_reducible refine foldl_fst (fun _ _ _ => ?_) ?_
    | with_reducible refine foldl_snd (fun _ _ _ => ?_) ?_
    | subst x
    | with_reducible split
    | dsimp only

theorem State.charge_good {pq : List Instr × Prop} {s : State} {d : Nat} {part : Nat} {a : Nat} {n : Nat} {wr : Bool} (hs : Good pq s) : Good pq (State.charge s d part a n wr) := by
  unfold State.charge
  repeat' first
    | with_reducible assumption
    | with_reducible refine goodOut_next ?_
    | (lift_lets; intro x; refine (fun (hx : Good pq x) => ?_) ?_; clear_value x)
    | (intro x; subst x)
    | with_reducible refine State.tollRequest_good ?_
    | with_reducible refine ite_good (fun _ => ?_) (fun _ => ?_)
    | with_reducible refine iteOut_good (fun _ => ?_) (fun _ => ?_)
    | with_reducible refine foldl_good (fun _ _ _ => ?_) ?_
    | with_reducible refine foldl_fst (fun _ _ _ => ?_) ?_
    | with_reducible refine foldl_snd (fun _ _ _ => ?_) ?_
    | subst x
    | with_reducible split
    | dsimp only

theorem State.setG_good {pq : List Instr × Prop} {s : State} {c : Nat} {r : Nat} {v : W64} (hs : Good pq s) : Good pq (State.setG s c r v) := by
  unfold State.setG
  repeat' first
    | with_reducible assumption
    | with_reducible refine goodOut_next ?_
    | (lift_lets; intro x; refine (fun (hx : Good pq x) => ?_) ?_; clear_value x)
    | (intro x; subst x)
    | with_reducible refine State.setCore_good ?_
    | with_reducible refine ite_good (fun _ => ?_) (fun _ => ?_)
    | with_reducible refine iteOut_good (fun _ => ?_) (fun _ => ?_)
    | with_reducible refine foldl_good (fun _ _ _ => ?_) ?_
    | with_reducible refine foldl_fst (fun _ _ _ => ?_) ?_
    | with_reducible refine foldl_snd (fun _ _ _ => ?_) ?_
    | subst x
    | with_reducible split
    | dsimp only

theorem State.setPc_good {pq : List Instr × Prop} {s : State} {c : Nat} {v : W64} (hs : Good pq s) : Good pq (State.setPc s c v) := by
  unfold State.setPc
  repeat' first
    | with_reducible assumption
    | with_reducible refine goodOut_next ?_
    | (lift_lets; intro x; refine (fun (hx : Good pq x) => ?_) ?_; clear_value x)
    | (intro x; subst x)
    | with_reducible refine State.setCore_good ?_
    | with_reducible refine ite_good (fun _ => ?_) (fun _ => ?_)
    | with_reducible refine iteOut_good (fun _ => ?_) (fun _ => ?_)
    | with_reducible refine foldl_good (fun _ _ _ => ?_) ?_
    | with_reducible refine foldl_fst (fun _ _ _ => ?_) ?_
    | with_reducible refine foldl_snd (fun _ _ _ => ?_) ?_
    | subst x
    | with_reducible split
    | dsimp only

theorem State.nextPc_good {pq : List Instr × Prop} {s : State} {c : Nat} (hs : Good pq s) : Good pq (State.nextPc s c) := by
  unfold State.nextPc
  repeat' first
    | with_reducible assumption
    | with_reducible refine goodOut_next ?_
    | (lift_lets; intro x; refine (fun (hx : Good pq x) => ?_) ?_; clear_value x)
    | (intro x; subst x)
    | with_reducible refine State.setPc_good ?_
    | with_reducible refine ite_good (fun _ => ?_) (fun _ => ?_)
    | with_reducible refine iteOut_good (fun _ => ?_) (fun _ => ?_)
    | with_reducible refine foldl_good (fun _ _ _ => ?_) ?_
    | with_reducible refine foldl_fst (fun _ _ _ => ?_) ?_
    | with_reducible refine foldl_snd (fun _ _ _ => ?_) ?_
    | subst x
    | with_reducible split
    | dsimp only

theorem State.ret_good {pq : List Instr × Prop} {s : State} {c : Nat} {rd : Nat} {v : W64} (hs : Good pq s) : Good pq (State.ret s c rd v) := by
  unfold State.ret
  repeat' first
    | with_reducible assumption
    | with_reducible refine goodOut_next ?_
    | (lift_lets; intro x; refine (fun (hx : Good pq x) => ?_) ?_; clear_value x)
    | (intro x; subst x)
    | with_reducible refine State.nextPc_good ?_
    | with_reducible refine State.setG_good ?_
    | with_reducible refine ite_good (fun _ => ?_) (fun _ => ?_)
    | with_reducible refine iteOut_good (fun _ => ?_) (fun _ => ?_)
    | with_reducible refine foldl_good (fun _ _ _ => ?_) ?_
    | with_reducible refine foldl_fst (fun _ _ _ => ?_) ?_
    | with_reducible refine foldl_snd (fun _ _ _ => ?_) ?_
    | subst x
    | with_reducible split
    | dsimp only

theorem State.retSt_good {pq : List Instr × Prop} {s : State} {c : Nat} {rd : Nat} {st : Nat} (hs : Good pq s) : Good pq (State.retSt s c rd st) := by
  unfold State.retSt
  repeat' first
    | with_reducible assumption
    | with_reducible refine goodOut_next ?_
    | (lift_lets; intro x; refine (fun (hx : Good pq x) => ?_) ?_; clear_value x)
    | (intro x; subst x)
    | with_reducible refine State.ret_good ?_
    | with_reducible refine ite_good (fun _ => ?_) (fun _ => ?_)
    | with_reducible refine iteOut_good (fun _ => ?_) (fun _ => ?_)
    | with_reducible refine foldl_good (fun _ _ _ => ?_) ?_
    | with_reducible refine foldl_fst (fun _ _ _ => ?_) ?_
    | with_reducible refine foldl_snd (fun _ _ _ => ?_) ?_
    | subst x
    | with_reducible split
    | dsimp only

theorem State.retPair_good {pq : List Instr × Prop} {s : State} {c : Nat} {rd : Nat} {st : Nat} {v : W64} (hs : Good pq s) : Good pq (State.retPair s c rd st v) := by
  unfold State.retPair
  repeat' first
    | with_reducible assumption
    | with_reducible refine goodOut_next ?_
    | (lift_lets; intro x; refine (fun (hx : Good pq x) => ?_) ?_; clear_value x)
    | (intro x; subst x)
    | with_reducible refine State.nextPc_good ?_
    | with_reducible refine State.setG_good ?_
    | with_reducible refine ite_good (fun _ => ?_) (fun _ => ?_)
    | with_reducible refine iteOut_good (fun _ => ?_) (fun _ => ?_)
    | with_reducible refine foldl_good (fun _ _ _ => ?_) ?_
    | with_reducible refine foldl_fst (fun _ _ _ => ?_) ?_
    | with_reducible refine foldl_snd (fun _ _ _ => ?_) ?_
    | subst x
    | with_reducible split
    | dsimp only

theorem State.retNone_good {pq : List Instr × Prop} {s : State} {c : Nat} {rd : Nat} {st : Nat} (hs : Good pq s) : Good pq (State.retNone s c rd st) := by
  unfold State.retNone
  repeat' first
    | with_reducible assumption
    | with_reducible refine goodOut_next ?_
    | (lift_lets; intro x; refine (fun (hx : Good pq x) => ?_) ?_; clear_value x)
    | (intro x; subst x)
    | with_reducible refine State.draw_good ?_
    | with_reducible refine State.retPair_good ?_
    | with_reducible refine State.draw_good_eq (by with_reducible assumption) ?_
    | with_reducible refine ite_good (fun _ => ?_) (fun _ => ?_)
    | with_reducible refine iteOut_good (fun _ => ?_) (fun _ => ?_)
    | with_reducible refine foldl_good (fun _ _ _ => ?_) ?_
    | with_reducible refine foldl_fst (fun _ _ _ => ?_) ?_
    | with_reducible refine foldl_snd (fun _ _ _ => ?_) ?_
    | subst x
    | with_reducible split
    | dsimp only

theorem State.wait_good {pq : List Instr × Prop} {s : State} {c : Nat} {rd : Nat} {why : Why} (hs : Good pq s) : Good pq (State.wait s c rd why) := by
  unfold State.wait
  repeat' first
    | with_reducible assumption
    | with_reducible refine goodOut_next ?_
    | (lift_lets; intro x; refine (fun (hx : Good pq x) => ?_) ?_; clear_value x)
    | (intro x; subst x)
    | with_reducible refine State.withSync_good _ ?_
    | with_reducible refine ite_good (fun _ => ?_) (fun _ => ?_)
    | with_reducible refine iteOut_good (fun _ => ?_) (fun _ => ?_)
    | with_reducible refine foldl_good (fun _ _ _ => ?_) ?_
    | with_reducible refine foldl_fst (fun _ _ _ => ?_) ?_
    | with_reducible refine foldl_snd (fun _ _ _ => ?_) ?_
    | subst x
    | with_reducible split
    | dsimp only

theorem State.unwait_good {pq : List Instr × Prop} {s : State} {c : Nat} (hs : Good pq s) : Good pq (State.unwait s c) := by
  unfold State.unwait
  repeat' first
    | with_reducible assumption
    | with_reducible refine goodOut_next ?_
    | (lift_lets; intro x; refine (fun (hx : Good pq x) => ?_) ?_; clear_value x)
    | (intro x; subst x)
    | with_reducible refine State.withSync_good _ ?_
    | with_reducible refine ite_good (fun _ => ?_) (fun _ => ?_)
    | with_reducible refine iteOut_good (fun _ => ?_) (fun _ => ?_)
    | with_reducible refine foldl_good (fun _ _ _ => ?_) ?_
    | with_reducible refine foldl_fst (fun _ _ _ => ?_) ?_
    | with_reducible refine foldl_snd (fun _ _ _ => ?_) ?_
    | subst x
    | with_reducible split
    | dsimp only

theorem State.raise_good {pq : List Instr × Prop} {s : State} {c : Nat} {st : Nat} (hs : Good pq s) : Good pq (State.raise s c st) := by
  unfold State.raise
  repeat' first
    | with_reducible assumption
    | with_reducible refine goodOut_next ?_
    | (lift_lets; intro x; refine (fun (hx : Good pq x) => ?_) ?_; clear_value x)
    | (intro x; subst x)
    | with_reducible refine State.setCore_good ?_
    | with_reducible refine ite_good (fun _ => ?_) (fun _ => ?_)
    | with_reducible refine iteOut_good (fun _ => ?_) (fun _ => ?_)
    | with_reducible refine foldl_good (fun _ _ _ => ?_) ?_
    | with_reducible refine foldl_fst (fun _ _ _ => ?_) ?_
    | with_reducible refine foldl_snd (fun _ _ _ => ?_) ?_
    | subst x
    | with_reducible split
    | dsimp only

theorem State.illegal_good {pq : List Instr × Prop} {s0 : State} {c : Nat} (hs : Good pq s0) : Good pq (State.illegal s0 c) := by
  unfold State.illegal
  repeat' first
    | with_reducible assumption
    | with_reducible refine goodOut_next ?_
    | (lift_lets; intro x; refine (fun (hx : Good pq x) => ?_) ?_; clear_value x)
    | (intro x; subst x)
    | with_reducible refine State.nextPc_good ?_
    | with_reducible refine State.raise_good ?_
    | with_reducible refine State.setErr_good ?_
    | with_reducible refine ite_good (fun _ => ?_) (fun _ => ?_)
    | with_reducible refine iteOut_good (fun _ => ?_) (fun _ => ?_)
    | with_reducible refine foldl_good (fun _ _ _ => ?_) ?_
    | with_reducible refine foldl_fst (fun _ _ _ => ?_) ?_
    | with_reducible refine foldl_snd (fun _ _ _ => ?_) ?_
    | subst x
    | with_reducible split
    | dsimp only

theorem State.setScratchByte_good {pq : List Instr × Prop} {s : State} {c : Nat} {a : Nat} {b : Byte} (hs : Good pq s) : Good pq (State.setScratchByte s c a b) := by
  unfold State.setScratchByte
  repeat' first
    | with_reducible assumption
    | with_reducible refine goodOut_next ?_
    | (lift_lets; intro x; refine (fun (hx : Good pq x) => ?_) ?_; clear_value x)
    | (intro x; subst x)
    | with_reducible refine State.withScratch_good _ ?_
    | with_reducible refine ite_good (fun _ => ?_) (fun _ => ?_)
    | with_reducible refine iteOut_good (fun _ => ?_) (fun _ => ?_)
    | with_reducible refine foldl_good (fun _ _ _ => ?_) ?_
    | with_reducible refine foldl_fst (fun _ _ _ => ?_) ?_
    | with_reducible refine foldl_snd (fun _ _ _ => ?_) ?_
    | subst x
    | with_reducible split
    | dsimp only

theorem State.setScratchBytes_good {pq : List Instr × Prop} {s : State} {c : Nat} {a : Nat} {bs : List Byte} (hs : Good pq s) : Good pq (State.setScratchBytes s c a bs) := by
  unfold State.setScratchBytes
  repeat' first
    | with_reducible assumption
    | with_reducible refine goodOut_next ?_
    | (lift_lets; intro x; refine (fun (hx : Good pq x) => ?_) ?_; clear_value x)
    | (intro x; subst x)
    | with_reducible refine State.setScratchByte_good ?_
    | with_reducible refine ite_good (fun _ => ?_) (fun _ => ?_)
    | with_reducible refine iteOut_good (fun _ => ?_) (fun _ => ?_)
    | with_reducible refine foldl_good (fun _ _ _ => ?_) ?_
    | with_reducible refine foldl_fst (fun _ _ _ => ?_) ?_
    | with_reducible refine foldl_snd (fun _ _ _ => ?_) ?_
    | subst x
    | with_reducible split
    | dsimp only

theorem State.setScratchWords_good {pq : List Instr × Prop} {s : State} {c : Nat} {a : Nat} {ws : List W64} (hs : Good pq s) : Good pq (State.setScratchWords s c a ws) := by
  unfold State.setScratchWords
  repeat' first
    | with_reducible assumption
    | with_reducible refine goodOut_next ?_
    | (lift_lets; intro x; refine (fun (hx : Good pq x) => ?_) ?_; clear_value x)
    | (intro x; subst x)
    | with_reducible refine State.setScratchBytes_good ?_
    | with_reducible refine ite_good (fun _ => ?_) (fun _ => ?_)
    | with_reducible refine iteOut_good (fun _ => ?_) (fun _ => ?_)
    | with_reducible refine foldl_good (fun _ _ _ => ?_) ?_
    | with_reducible refine foldl_fst (fun _ _ _ => ?_) ?_
    | with_reducible refine foldl_snd (fun _ _ _ => ?_) ?_
    | subst x
    | with_reducible split
    | dsimp only

theorem State.setWord_good {pq : List Instr × Prop} {s : State} {l : Nat} {v : W64} {full : Bool} {poison : Bool} (hs : Good pq s) : Good pq (State.setWord s l v full poison) := by
  unfold State.setWord
  repeat' first
    | with_reducible assumption
    | with_reducible refine goodOut_next ?_
    | (lift_lets; intro x; refine (fun (hx : Good pq x) => ?_) ?_; clear_value x)
    | (intro x; subst x)
    | with_reducible refine State.putByte_good ?_
    | with_reducible refine State.setFull_good ?_
    | with_reducible refine State.setPoison_good ?_
    | with_reducible refine ite_good (fun _ => ?_) (fun _ => ?_)
    | with_reducible refine iteOut_good (fun _ => ?_) (fun _ => ?_)
    | with_reducible refine foldl_good (fun _ _ _ => ?_) ?_
    | with_reducible refine foldl_fst (fun _ _ _ => ?_) ?_
    | with_reducible refine foldl_snd (fun _ _ _ => ?_) ?_
    | subst x
    | with_reducible split
    | dsimp only

theorem State.wordOp_good {pq : List Instr × Prop} (s : State) (l : Nat) (op : WordOp) (hs : Good pq s) : GoodOpt pq (fun r => r.2.2) (State.wordOp s l op) := by
  unfold State.wordOp
  repeat' first
    | with_reducible assumption
    | with_reducible refine goodOpt_some ?_
    | with_reducible refine goodOpt_none
    | with_reducible refine goodOut_next ?_
    | (lift_lets; intro x; refine (fun (hx : Good pq x) => ?_) ?_; clear_value x)
    | (intro x; subst x)
    | with_reducible refine State.setWord_good ?_
    | with_reducible refine iteOpt_good (fun _ => ?_) (fun _ => ?_)
    | with_reducible refine ite_good (fun _ => ?_) (fun _ => ?_)
    | with_reducible refine iteOut_good (fun _ => ?_) (fun _ => ?_)
    | with_reducible refine foldl_good (fun _ _ _ => ?_) ?_
    | with_reducible refine foldl_fst (fun _ _ _ => ?_) ?_
    | with_reducible refine foldl_snd (fun _ _ _ => ?_) ?_
    | subst x
    | with_reducible split
    | dsimp only

theorem State.wordOp_good_eq {pq : List Instr × Prop} {s : State} {l : Nat} {op : WordOp} {rr} (he : State.wordOp s l op = some rr) (hs : Good pq s) : Good pq rr.2.2 := State.wordOp_good s l op hs rr he

theorem State.underflow_good {pq : List Instr × Prop} {s : State} {issuer : Nat} {l : Nat} (hs : Good pq s) : Good pq (State.underflow s issuer l) := by
  unfold State.underflow
  repeat' first
    | with_reducible assumption
    | with_reducible refine goodOut_next ?_
    | (lift_lets; intro x; refine (fun (hx : Good pq x) => ?_) ?_; clear_value x)
    | (intro x; subst x)
    | with_reducible refine State.event_good ?_
    | with_reducible refine State.setErr_good ?_
    | with_reducible refine State.setReg_good ?_
    | with_reducible refine ite_good (fun _ => ?_) (fun _ => ?_)
    | with_reducible refine iteOut_good (fun _ => ?_) (fun _ => ?_)
    | with_reducible refine foldl_good (fun _ _ _ => ?_) ?_
    | with_reducible refine foldl_fst (fun _ _ _ => ?_) ?_
    | with_reducible refine foldl_snd (fun _ _ _ => ?_) ?_
    | subst x
    | with_reducible split
    | dsimp only

theorem State.retWord_good {pq : List Instr × Prop} {s : State} {c : Nat} {rd : Nat} {op : WordOp} {st : Nat} {v : Option W64} (hs : Good pq s) : Good pq (State.retWord s c rd op st v) := by
  unfold State.retWord
  repeat' first
    | with_reducible assumption
    | with_reducible refine goodOut_next ?_
    | (lift_lets; intro x; refine (fun (hx : Good pq x) => ?_) ?_; clear_value x)
    | (intro x; subst x)
    | with_reducible refine State.retNone_good ?_
    | with_reducible refine State.retPair_good ?_
    | with_reducible refine State.retSt_good ?_
    | with_reducible refine ite_good (fun _ => ?_) (fun _ => ?_)
    | with_reducible refine iteOut_good (fun _ => ?_) (fun _ => ?_)
    | with_reducible refine foldl_good (fun _ _ _ => ?_) ?_
    | with_reducible refine foldl_fst (fun _ _ _ => ?_) ?_
    | with_reducible refine foldl_snd (fun _ _ _ => ?_) ?_
    | subst x
    | with_reducible split
    | dsimp only

theorem State.wakePass_good {pq : List Instr × Prop} {s : State} {l : Nat} (hs : Good pq s) : Good pq (State.wakePass s l).1 := by
  unfold State.wakePass
  repeat' first
    | with_reducible assumption
    | with_reducible refine goodOut_next ?_
    | (lift_lets; intro x; refine (fun (hx : Good pq x) => ?_) ?_; clear_value x)
    | (intro x; subst x)
    | with_reducible refine State.retWord_good ?_
    | with_reducible refine State.unwait_good ?_
    | with_reducible refine State.wordOp_good_eq (by with_reducible assumption) ?_
    | with_reducible refine ite_good (fun _ => ?_) (fun _ => ?_)
    | with_reducible refine iteOut_good (fun _ => ?_) (fun _ => ?_)
    | with_reducible refine foldl_good (fun _ _ _ => ?_) ?_
    | with_reducible refine foldl_fst (fun _ _ _ => ?_) ?_
    | with_reducible refine foldl_snd (fun _ _ _ => ?_) ?_
    | subst x
    | with_reducible split
    | dsimp only

theorem State.wakePass_good_eq {pq : List Instr × Prop} {s : State} {l : Nat} {rr} (he : State.wakePass s l = rr) (hs : Good pq s) : Good pq rr.1 := he ▸ State.wakePass_good hs

-- FOR State.wakeLoop
-- HAVE wakeLoop State.wakeLoop_good
theorem State.wakeLoop_good {pq : List Instr × Prop} : ∀ {n : Nat} {s : State} {l : Nat} {ps : List Nat}, Good pq s → Good pq (State.wakeLoop n s l ps).1 := by
  intro n
  induction n with
  | zero => intro s l ps hs; exact hs
  | succ n ih =>
    intro s l ps hs
    have h := State.wakePass_good (l := l) hs
    unfold State.wakeLoop
    dsimp only
    split
    · exact h
    · exact ih h

theorem State.wakeWord_good {pq : List Instr × Prop} {s : State} {l : Nat} (hs : Good pq s) : Good pq (State.wakeWord s l).1 := by
  unfold State.wakeWord
  repeat' first
    | with_reducible assumption
    | with_reducible refine goodOut_next ?_
    | (lift_lets; intro x; refine (fun (hx : Good pq x) => ?_) ?_; clear_value x)
    | (intro x; subst x)
    | with_reducible refine State.wakeLoop_good ?_
    | with_reducible refine ite_good (fun _ => ?_) (fun _ => ?_)
    | with_reducible refine iteOut_good (fun _ => ?_) (fun _ => ?_)
    | with_reducible refine foldl_good (fun _ _ _ => ?_) ?_
    | with_reducible refine foldl_fst (fun _ _ _ => ?_) ?_
    | with_reducible refine foldl_snd (fun _ _ _ => ?_) ?_
    | subst x
    | with_reducible split
    | dsimp only

theorem State.wakeWord_good_eq {pq : List Instr × Prop} {s : State} {l : Nat} {rr} (he : State.wakeWord s l = rr) (hs : Good pq s) : Good pq rr.1 := he ▸ State.wakeWord_good hs

theorem State.setSignals_good {pq : List Instr × Prop} {s : State} {p : Nat} {v : W64} (hs : Good pq s) : Good pq (State.setSignals s p v) := by
  unfold State.setSignals
  repeat' first
    | with_reducible assumption
    | with_reducible refine goodOut_next ?_
    | (lift_lets; intro x; refine (fun (hx : Good pq x) => ?_) ?_; clear_value x)
    | (intro x; subst x)
    | with_reducible refine State.withSync_good _ ?_
    | with_reducible refine ite_good (fun _ => ?_) (fun _ => ?_)
    | with_reducible refine iteOut_good (fun _ => ?_) (fun _ => ?_)
    | with_reducible refine foldl_good (fun _ _ _ => ?_) ?_
    | with_reducible refine foldl_fst (fun _ _ _ => ?_) ?_
    | with_reducible refine foldl_snd (fun _ _ _ => ?_) ?_
    | subst x
    | with_reducible split
    | dsimp only

theorem State.takeSignals_good {pq : List Instr × Prop} (s : State) (p : Nat) (mask : W64) (hs : Good pq s) : GoodOpt pq (fun r => r.2) (State.takeSignals s p mask) := by
  unfold State.takeSignals
  repeat' first
    | with_reducible assumption
    | with_reducible refine goodOpt_some ?_
    | with_reducible refine goodOpt_none
    | with_reducible refine goodOut_next ?_
    | (lift_lets; intro x; refine (fun (hx : Good pq x) => ?_) ?_; clear_value x)
    | (intro x; subst x)
    | with_reducible refine State.setSignals_good ?_
    | with_reducible refine iteOpt_good (fun _ => ?_) (fun _ => ?_)
    | with_reducible refine ite_good (fun _ => ?_) (fun _ => ?_)
    | with_reducible refine iteOut_good (fun _ => ?_) (fun _ => ?_)
    | with_reducible refine foldl_good (fun _ _ _ => ?_) ?_
    | with_reducible refine foldl_fst (fun _ _ _ => ?_) ?_
    | with_reducible refine foldl_snd (fun _ _ _ => ?_) ?_
    | subst x
    | with_reducible split
    | dsimp only

theorem State.takeSignals_good_eq {pq : List Instr × Prop} {s : State} {p : Nat} {mask : W64} {rr} (he : State.takeSignals s p mask = some rr) (hs : Good pq s) : Good pq rr.2 := State.takeSignals_good s p mask hs rr he

theorem State.wakeSignal_good {pq : List Instr × Prop} {s : State} {p : Nat} (hs : Good pq s) : Good pq (State.wakeSignal s p) := by
  unfold State.wakeSignal
  repeat' first
    | with_reducible assumption
    | with_reducible refine goodOut_next ?_
    | (lift_lets; intro x; refine (fun (hx : Good pq x) => ?_) ?_; clear_value x)
    | (intro x; subst x)
    | with_reducible refine State.retPair_good ?_
    | with_reducible refine State.unwait_good ?_
    | with_reducible refine State.takeSignals_good_eq (by with_reducible assumption) ?_
    | with_reducible refine ite_good (fun _ => ?_) (fun _ => ?_)
    | with_reducible refine iteOut_good (fun _ => ?_) (fun _ => ?_)
    | with_reducible refine foldl_good (fun _ _ _ => ?_) ?_
    | with_reducible refine foldl_fst (fun _ _ _ => ?_) ?_
    | with_reducible refine foldl_snd (fun _ _ _ => ?_) ?_
    | subst x
    | with_reducible split
    | dsimp only

theorem State.signal_good {pq : List Instr × Prop} {s : State} {ctx : Nat} {p : Nat} {mask : W64} (hs : Good pq s) : Good pq (State.signal s ctx p mask).2 := by
  unfold State.signal
  repeat' first
    | with_reducible assumption
    | with_reducible refine goodOut_next ?_
    | (lift_lets; intro x; refine (fun (hx : Good pq x) => ?_) ?_; clear_value x)
    | (intro x; subst x)
    | with_reducible refine State.setSignals_good ?_
    | with_reducible refine State.wakeSignal_good ?_
    | with_reducible refine ite_good (fun _ => ?_) (fun _ => ?_)
    | with_reducible refine iteOut_good (fun _ => ?_) (fun _ => ?_)
    | with_reducible refine foldl_good (fun _ _ _ => ?_) ?_
    | with_reducible refine foldl_fst (fun _ _ _ => ?_) ?_
    | with_reducible refine foldl_snd (fun _ _ _ => ?_) ?_
    | subst x
    | with_reducible split
    | dsimp only

theorem State.signal_good_eq {pq : List Instr × Prop} {s : State} {ctx : Nat} {p : Nat} {mask : W64} {rr} (he : State.signal s ctx p mask = rr) (hs : Good pq s) : Good pq rr.2 := he ▸ State.signal_good hs

theorem State.setArrived_good {pq : List Instr × Prop} {s : State} {b : Nat} {p : Nat} (hs : Good pq s) : Good pq (State.setArrived s b p) := by
  unfold State.setArrived
  repeat' first
    | with_reducible assumption
    | with_reducible refine goodOut_next ?_
    | (lift_lets; intro x; refine (fun (hx : Good pq x) => ?_) ?_; clear_value x)
    | (intro x; subst x)
    | with_reducible refine State.setFld_good ?_
    | with_reducible refine State.setReg_good ?_
    | with_reducible refine ite_good (fun _ => ?_) (fun _ => ?_)
    | with_reducible refine iteOut_good (fun _ => ?_) (fun _ => ?_)
    | with_reducible refine foldl_good (fun _ _ _ => ?_) ?_
    | with_reducible refine foldl_fst (fun _ _ _ => ?_) ?_
    | with_reducible refine foldl_snd (fun _ _ _ => ?_) ?_
    | subst x
    | with_reducible split
    | dsimp only

theorem State.clearArrived_good {pq : List Instr × Prop} {s : State} {b : Nat} (hs : Good pq s) : Good pq (State.clearArrived s b) := by
  unfold State.clearArrived
  repeat' first
    | with_reducible assumption
    | with_reducible refine goodOut_next ?_
    | (lift_lets; intro x; refine (fun (hx : Good pq x) => ?_) ?_; clear_value x)
    | (intro x; subst x)
    | with_reducible refine State.setFld_good ?_
    | with_reducible refine State.setReg_good ?_
    | with_reducible refine ite_good (fun _ => ?_) (fun _ => ?_)
    | with_reducible refine iteOut_good (fun _ => ?_) (fun _ => ?_)
    | with_reducible refine foldl_good (fun _ _ _ => ?_) ?_
    | with_reducible refine foldl_fst (fun _ _ _ => ?_) ?_
    | with_reducible refine foldl_snd (fun _ _ _ => ?_) ?_
    | subst x
    | with_reducible split
    | dsimp only

theorem State.setHeldArr_good {pq : List Instr × Prop} {s : State} {b : Nat} {p : Nat} {v : Bool} (hs : Good pq s) : Good pq (State.setHeldArr s b p v) := by
  unfold State.setHeldArr
  repeat' first
    | with_reducible assumption
    | with_reducible refine goodOut_next ?_
    | (lift_lets; intro x; refine (fun (hx : Good pq x) => ?_) ?_; clear_value x)
    | (intro x; subst x)
    | with_reducible refine State.withSync_good _ ?_
    | with_reducible refine ite_good (fun _ => ?_) (fun _ => ?_)
    | with_reducible refine iteOut_good (fun _ => ?_) (fun _ => ?_)
    | with_reducible refine foldl_good (fun _ _ _ => ?_) ?_
    | with_reducible refine foldl_fst (fun _ _ _ => ?_) ?_
    | with_reducible refine foldl_snd (fun _ _ _ => ?_) ?_
    | subst x
    | with_reducible split
    | dsimp only

theorem State.wakeBarrier_good {pq : List Instr × Prop} {s : State} {b : Nat} (hs : Good pq s) : Good pq (State.wakeBarrier s b) := by
  unfold State.wakeBarrier
  repeat' first
    | with_reducible assumption
    | with_reducible refine goodOut_next ?_
    | (lift_lets; intro x; refine (fun (hx : Good pq x) => ?_) ?_; clear_value x)
    | (intro x; subst x)
    | with_reducible refine State.retPair_good ?_
    | with_reducible refine State.retSt_good ?_
    | with_reducible refine State.setArrived_good ?_
    | with_reducible refine State.unwait_good ?_
    | with_reducible refine State.wait_good ?_
    | with_reducible refine ite_good (fun _ => ?_) (fun _ => ?_)
    | with_reducible refine iteOut_good (fun _ => ?_) (fun _ => ?_)
    | with_reducible refine foldl_good (fun _ _ _ => ?_) ?_
    | with_reducible refine foldl_fst (fun _ _ _ => ?_) ?_
    | with_reducible refine foldl_snd (fun _ _ _ => ?_) ?_
    | subst x
    | with_reducible split
    | dsimp only

theorem State.takeHeld_good {pq : List Instr × Prop} {s : State} {b : Nat} (hs : Good pq s) : Good pq (State.takeHeld s b) := by
  unfold State.takeHeld
  repeat' first
    | with_reducible assumption
    | with_reducible refine goodOut_next ?_
    | (lift_lets; intro x; refine (fun (hx : Good pq x) => ?_) ?_; clear_value x)
    | (intro x; subst x)
    | with_reducible refine State.setArrived_good ?_
    | with_reducible refine State.setHeldArr_good ?_
    | with_reducible refine ite_good (fun _ => ?_) (fun _ => ?_)
    | with_reducible refine iteOut_good (fun _ => ?_) (fun _ => ?_)
    | with_reducible refine foldl_good (fun _ _ _ => ?_) ?_
    | with_reducible refine foldl_fst (fun _ _ _ => ?_) ?_
    | with_reducible refine foldl_snd (fun _ _ _ => ?_) ?_
    | subst x
    | with_reducible split
    | dsimp only

-- FOR State.barProgress
-- HAVE barProgress State.barProgress_good
theorem State.barProgress_good {pq : List Instr × Prop} : ∀ {n : Nat} {s : State} {b : Nat}, Good pq s → Good pq (State.barProgress n s b) := by
  intro n
  induction n with
  | zero => intro s b hs; exact hs
  | succ n ih =>
    intro s b hs
    unfold State.barProgress
    split
    · exact ih (State.wakeBarrier_good (State.takeHeld_good (State.clearArrived_good (State.setFld_good hs))))
    · exact hs

theorem State.barAdvance_good {pq : List Instr × Prop} {s : State} {b : Nat} (hs : Good pq s) : Good pq (State.barAdvance s b) := by
  unfold State.barAdvance
  repeat' first
    | with_reducible assumption
    | with_reducible refine goodOut_next ?_
    | (lift_lets; intro x; refine (fun (hx : Good pq x) => ?_) ?_; clear_value x)
    | (intro x; subst x)
    | with_reducible refine State.barProgress_good ?_
    | with_reducible refine ite_good (fun _ => ?_) (fun _ => ?_)
    | with_reducible refine iteOut_good (fun _ => ?_) (fun _ => ?_)
    | with_reducible refine foldl_good (fun _ _ _ => ?_) ?_
    | with_reducible refine foldl_fst (fun _ _ _ => ?_) ?_
    | with_reducible refine foldl_snd (fun _ _ _ => ?_) ?_
    | subst x
    | with_reducible split
    | dsimp only

theorem State.agentArrive_good {pq : List Instr × Prop} {s : State} {b : Nat} {p : Nat} {ctx : Nat} (hs : Good pq s) : Good pq (State.agentArrive s b p ctx).2 := by
  unfold State.agentArrive
  repeat' first
    | with_reducible assumption
    | with_reducible refine goodOut_next ?_
    | (lift_lets; intro x; refine (fun (hx : Good pq x) => ?_) ?_; clear_value x)
    | (intro x; subst x)
    | with_reducible refine State.addFld_good ?_
    | with_reducible refine State.barAdvance_good ?_
    | with_reducible refine State.setArrived_good ?_
    | with_reducible refine State.setHeldArr_good ?_
    | with_reducible refine ite_good (fun _ => ?_) (fun _ => ?_)
    | with_reducible refine iteOut_good (fun _ => ?_) (fun _ => ?_)
    | with_reducible refine foldl_good (fun _ _ _ => ?_) ?_
    | with_reducible refine foldl_fst (fun _ _ _ => ?_) ?_
    | with_reducible refine foldl_snd (fun _ _ _ => ?_) ?_
    | subst x
    | with_reducible split
    | dsimp only

theorem State.agentArrive_good_eq {pq : List Instr × Prop} {s : State} {b : Nat} {p : Nat} {ctx : Nat} {rr} (he : State.agentArrive s b p ctx = rr) (hs : Good pq s) : Good pq rr.2 := he ▸ State.agentArrive_good hs

theorem State.releaseBroken_good {pq : List Instr × Prop} {s : State} {b : Nat} (hs : Good pq s) : Good pq (State.releaseBroken s b) := by
  unfold State.releaseBroken
  repeat' first
    | with_reducible assumption
    | with_reducible refine goodOut_next ?_
    | (lift_lets; intro x; refine (fun (hx : Good pq x) => ?_) ?_; clear_value x)
    | (intro x; subst x)
    | with_reducible refine State.retNone_good ?_
    | with_reducible refine State.retPair_good ?_
    | with_reducible refine State.retSt_good ?_
    | with_reducible refine State.unwait_good ?_
    | with_reducible refine ite_good (fun _ => ?_) (fun _ => ?_)
    | with_reducible refine iteOut_good (fun _ => ?_) (fun _ => ?_)
    | with_reducible refine foldl_good (fun _ _ _ => ?_) ?_
    | with_reducible refine foldl_fst (fun _ _ _ => ?_) ?_
    | with_reducible refine foldl_snd (fun _ _ _ => ?_) ?_
    | subst x
    | with_reducible split
    | dsimp only

theorem State.breakBarrier_good {pq : List Instr × Prop} {s : State} {b : Nat} {reason : Nat} {slot : Nat} (hs : Good pq s) : Good pq (State.breakBarrier s b reason slot) := by
  unfold State.breakBarrier
  repeat' first
    | with_reducible assumption
    | with_reducible refine goodOut_next ?_
    | (lift_lets; intro x; refine (fun (hx : Good pq x) => ?_) ?_; clear_value x)
    | (intro x; subst x)
    | with_reducible refine State.releaseBroken_good ?_
    | with_reducible refine State.setErr_good ?_
    | with_reducible refine State.setFld_good ?_
    | with_reducible refine State.setReg_good ?_
    | with_reducible refine ite_good (fun _ => ?_) (fun _ => ?_)
    | with_reducible refine iteOut_good (fun _ => ?_) (fun _ => ?_)
    | with_reducible refine foldl_good (fun _ _ _ => ?_) ?_
    | with_reducible refine foldl_fst (fun _ _ _ => ?_) ?_
    | with_reducible refine foldl_snd (fun _ _ _ => ?_) ?_
    | subst x
    | with_reducible split
    | dsimp only

theorem State.breakSlot_good {pq : List Instr × Prop} {s : State} {p : Nat} {reason : Nat} (hs : Good pq s) : Good pq (State.breakSlot s p reason) := by
  unfold State.breakSlot
  repeat' first
    | with_reducible assumption
    | with_reducible refine goodOut_next ?_
    | (lift_lets; intro x; refine (fun (hx : Good pq x) => ?_) ?_; clear_value x)
    | (intro x; subst x)
    | with_reducible refine State.breakBarrier_good ?_
    | with_reducible refine ite_good (fun _ => ?_) (fun _ => ?_)
    | with_reducible refine iteOut_good (fun _ => ?_) (fun _ => ?_)
    | with_reducible refine foldl_good (fun _ _ _ => ?_) ?_
    | with_reducible refine foldl_fst (fun _ _ _ => ?_) ?_
    | with_reducible refine foldl_snd (fun _ _ _ => ?_) ?_
    | subst x
    | with_reducible split
    | dsimp only

theorem State.chargeAtomic_good {pq : List Instr × Prop} {s : State} {d : Nat} {part : Nat} {l : Nat} (hs : Good pq s) : Good pq (State.chargeAtomic s d part l) := by
  unfold State.chargeAtomic
  repeat' first
    | with_reducible assumption
    | with_reducible refine goodOut_next ?_
    | (lift_lets; intro x; refine (fun (hx : Good pq x) => ?_) ?_; clear_value x)
    | (intro x; subst x)
    | with_reducible refine State.charge_good ?_
    | with_reducible refine ite_good (fun _ => ?_) (fun _ => ?_)
    | with_reducible refine iteOut_good (fun _ => ?_) (fun _ => ?_)
    | with_reducible refine foldl_good (fun _ _ _ => ?_) ?_
    | with_reducible refine foldl_fst (fun _ _ _ => ?_) ?_
    | with_reducible refine foldl_snd (fun _ _ _ => ?_) ?_
    | subst x
    | with_reducible split
    | dsimp only

theorem State.action_good {pq : List Instr × Prop} {s : State} {ctx : Nat} {slot : Nat} {w0 : W64} {v : W64} (hs : Good pq s) : Good pq (State.action s ctx slot w0 v).2.1 := by
  unfold State.action
  repeat' first
    | with_reducible assumption
    | with_reducible refine goodOut_next ?_
    | (lift_lets; intro x; refine (fun (hx : Good pq x) => ?_) ?_; clear_value x)
    | (intro x; subst x)
    | with_reducible refine State.agentArrive_good ?_
    | with_reducible refine State.chargeAtomic_good ?_
    | with_reducible refine State.signal_good ?_
    | with_reducible refine State.underflow_good ?_
    | with_reducible refine State.wakeWord_good ?_
    | with_reducible refine State.agentArrive_good_eq (by with_reducible assumption) ?_
    | with_reducible refine State.signal_good_eq (by with_reducible assumption) ?_
    | with_reducible refine State.wakeWord_good_eq (by with_reducible assumption) ?_
    | with_reducible refine State.wordOp_good_eq (by with_reducible assumption) ?_
    | with_reducible refine ite_good (fun _ => ?_) (fun _ => ?_)
    | with_reducible refine iteOut_good (fun _ => ?_) (fun _ => ?_)
    | with_reducible refine foldl_good (fun _ _ _ => ?_) ?_
    | with_reducible refine foldl_fst (fun _ _ _ => ?_) ?_
    | with_reducible refine foldl_snd (fun _ _ _ => ?_) ?_
    | subst x
    | with_reducible split
    | dsimp only

theorem State.action_good_eq {pq : List Instr × Prop} {s : State} {ctx : Nat} {slot : Nat} {w0 : W64} {v : W64} {rr} (he : State.action s ctx slot w0 v = rr) (hs : Good pq s) : Good pq rr.2.1 := he ▸ State.action_good hs

theorem State.lose_good {pq : List Instr × Prop} {s : State} {ctx : Nat} (hs : Good pq s) : Good pq (State.lose s ctx) := by
  unfold State.lose
  repeat' first
    | with_reducible assumption
    | with_reducible refine goodOut_next ?_
    | (lift_lets; intro x; refine (fun (hx : Good pq x) => ?_) ?_; clear_value x)
    | (intro x; subst x)
    | with_reducible refine State.breakBarrier_good ?_
    | with_reducible refine State.retWord_good ?_
    | with_reducible refine State.setBitF_good ?_
    | with_reducible refine State.unwait_good ?_
    | with_reducible refine State.withSync_good _ ?_
    | with_reducible refine ite_good (fun _ => ?_) (fun _ => ?_)
    | with_reducible refine iteOut_good (fun _ => ?_) (fun _ => ?_)
    | with_reducible refine foldl_good (fun _ _ _ => ?_) ?_
    | with_reducible refine foldl_fst (fun _ _ _ => ?_) ?_
    | with_reducible refine foldl_snd (fun _ _ _ => ?_) ?_
    | subst x
    | with_reducible split
    | dsimp only

theorem State.ringPut_good {pq : List Instr × Prop} {s : State} {c : Nat} {r : RingRec} (hs : Good pq s) : Good pq (State.ringPut s c r) := by
  unfold State.ringPut
  repeat' first
    | with_reducible assumption
    | with_reducible refine goodOut_next ?_
    | (lift_lets; intro x; refine (fun (hx : Good pq x) => ?_) ?_; clear_value x)
    | (intro x; subst x)
    | with_reducible refine State.setClu_good ?_
    | with_reducible refine State.withRcv_good _ ?_
    | with_reducible refine ite_good (fun _ => ?_) (fun _ => ?_)
    | with_reducible refine iteOut_good (fun _ => ?_) (fun _ => ?_)
    | with_reducible refine foldl_good (fun _ _ _ => ?_) ?_
    | with_reducible refine foldl_fst (fun _ _ _ => ?_) ?_
    | with_reducible refine foldl_snd (fun _ _ _ => ?_) ?_
    | subst x
    | with_reducible split
    | dsimp only

theorem State.wakeRing_good {pq : List Instr × Prop} {s : State} {c : Nat} (hs : Good pq s) : Good pq (State.wakeRing s c) := by
  unfold State.wakeRing
  repeat' first
    | with_reducible assumption
    | with_reducible refine goodOut_next ?_
    | (lift_lets; intro x; refine (fun (hx : Good pq x) => ?_) ?_; clear_value x)
    | (intro x; subst x)
    | with_reducible refine State.nextPc_good ?_
    | with_reducible refine State.setClu_good ?_
    | with_reducible refine State.setG_good ?_
    | with_reducible refine State.unwait_good ?_
    | with_reducible refine ite_good (fun _ => ?_) (fun _ => ?_)
    | with_reducible refine iteOut_good (fun _ => ?_) (fun _ => ?_)
    | with_reducible refine foldl_good (fun _ _ _ => ?_) ?_
    | with_reducible refine foldl_fst (fun _ _ _ => ?_) ?_
    | with_reducible refine foldl_snd (fun _ _ _ => ?_) ?_
    | subst x
    | with_reducible split
    | dsimp only

theorem State.putRec_good {pq : List Instr × Prop} {s : State} {c : Nat} {unit : Nat} {r : RingRec} (hs : Good pq s) : Good pq (State.putRec s c unit r) := by
  unfold State.putRec
  repeat' first
    | with_reducible assumption
    | with_reducible refine goodOut_next ?_
    | (lift_lets; intro x; refine (fun (hx : Good pq x) => ?_) ?_; clear_value x)
    | (intro x; subst x)
    | with_reducible refine State.ringPut_good ?_
    | with_reducible refine State.setClu_good ?_
    | with_reducible refine State.wakeRing_good ?_
    | with_reducible refine ite_good (fun _ => ?_) (fun _ => ?_)
    | with_reducible refine iteOut_good (fun _ => ?_) (fun _ => ?_)
    | with_reducible refine foldl_good (fun _ _ _ => ?_) ?_
    | with_reducible refine foldl_fst (fun _ _ _ => ?_) ?_
    | with_reducible refine foldl_snd (fun _ _ _ => ?_) ?_
    | subst x
    | with_reducible split
    | dsimp only

theorem State.recOf_good {pq : List Instr × Prop} {s : State} {c : Nat} {src : Nat} {droop : Bool} {pair : Bool} {rql : Bool} {ctx : Nat} {st : Nat} {tag : Nat} (hs : Good pq s) : Good pq (State.recOf s c src droop pair rql ctx st tag).2 := by
  unfold State.recOf
  repeat' first
    | with_reducible assumption
    | with_reducible refine goodOut_next ?_
    | (lift_lets; intro x; refine (fun (hx : Good pq x) => ?_) ?_; clear_value x)
    | (intro x; subst x)
    | with_reducible refine State.draw_good ?_
    | with_reducible refine State.draw_good_eq (by with_reducible assumption) ?_
    | with_reducible refine ite_good (fun _ => ?_) (fun _ => ?_)
    | with_reducible refine iteOut_good (fun _ => ?_) (fun _ => ?_)
    | with_reducible refine foldl_good (fun _ _ _ => ?_) ?_
    | with_reducible refine foldl_fst (fun _ _ _ => ?_) ?_
    | with_reducible refine foldl_snd (fun _ _ _ => ?_) ?_
    | subst x
    | with_reducible split
    | dsimp only

theorem State.recOf_good_eq {pq : List Instr × Prop} {s : State} {c : Nat} {src : Nat} {droop : Bool} {pair : Bool} {rql : Bool} {ctx : Nat} {st : Nat} {tag : Nat} {rr} (he : State.recOf s c src droop pair rql ctx st tag = rr) (hs : Good pq s) : Good pq rr.2 := he ▸ State.recOf_good hs

theorem State.record_good {pq : List Instr × Prop} {s : State} {c : Nat} {src : Nat} {unit : Nat} {droop : Bool} {ctx : Nat} {st : Nat} {tag : Nat} (hs : Good pq s) : Good pq (State.record s c src unit droop ctx st tag) := by
  unfold State.record
  repeat' first
    | with_reducible assumption
    | with_reducible refine goodOut_next ?_
    | (lift_lets; intro x; refine (fun (hx : Good pq x) => ?_) ?_; clear_value x)
    | (intro x; subst x)
    | with_reducible refine State.putRec_good ?_
    | with_reducible refine State.recOf_good ?_
    | with_reducible refine State.recOf_good_eq (by with_reducible assumption) ?_
    | with_reducible refine ite_good (fun _ => ?_) (fun _ => ?_)
    | with_reducible refine iteOut_good (fun _ => ?_) (fun _ => ?_)
    | with_reducible refine foldl_good (fun _ _ _ => ?_) ?_
    | with_reducible refine foldl_fst (fun _ _ _ => ?_) ?_
    | with_reducible refine foldl_snd (fun _ _ _ => ?_) ?_
    | subst x
    | with_reducible split
    | dsimp only

theorem State.releaseRec_good {pq : List Instr × Prop} {s : State} {c : Nat} (hs : Good pq s) : Good pq (State.releaseRec s c) := by
  unfold State.releaseRec
  repeat' first
    | with_reducible assumption
    | with_reducible refine goodOut_next ?_
    | (lift_lets; intro x; refine (fun (hx : Good pq x) => ?_) ?_; clear_value x)
    | (intro x; subst x)
    | with_reducible refine State.ringPut_good ?_
    | with_reducible refine State.setClu_good ?_
    | with_reducible refine State.wakeRing_good ?_
    | with_reducible refine ite_good (fun _ => ?_) (fun _ => ?_)
    | with_reducible refine iteOut_good (fun _ => ?_) (fun _ => ?_)
    | with_reducible refine foldl_good (fun _ _ _ => ?_) ?_
    | with_reducible refine foldl_fst (fun _ _ _ => ?_) ?_
    | with_reducible refine foldl_snd (fun _ _ _ => ?_) ?_
    | subst x
    | with_reducible split
    | dsimp only

theorem State.setTileQ_good {pq : List Instr × Prop} {s : State} {c : Nat} {slot : Nat} {q : List TileCmd} (hs : Good pq s) : Good pq (State.setTileQ s c slot q) := by
  unfold State.setTileQ
  repeat' first
    | with_reducible assumption
    | with_reducible refine goodOut_next ?_
    | (lift_lets; intro x; refine (fun (hx : Good pq x) => ?_) ?_; clear_value x)
    | (intro x; subst x)
    | with_reducible refine State.setClu_good ?_
    | with_reducible refine ite_good (fun _ => ?_) (fun _ => ?_)
    | with_reducible refine iteOut_good (fun _ => ?_) (fun _ => ?_)
    | with_reducible refine foldl_good (fun _ _ _ => ?_) ?_
    | with_reducible refine foldl_fst (fun _ _ _ => ?_) ?_
    | with_reducible refine foldl_snd (fun _ _ _ => ?_) ?_
    | subst x
    | with_reducible split
    | dsimp only

theorem State.setChains_good {pq : List Instr × Prop} {s : State} {c : Nat} {l : List ChainCmd} (hs : Good pq s) : Good pq (State.setChains s c l) := by
  unfold State.setChains
  repeat' first
    | with_reducible assumption
    | with_reducible refine goodOut_next ?_
    | (lift_lets; intro x; refine (fun (hx : Good pq x) => ?_) ?_; clear_value x)
    | (intro x; subst x)
    | with_reducible refine State.setClu_good ?_
    | with_reducible refine ite_good (fun _ => ?_) (fun _ => ?_)
    | with_reducible refine iteOut_good (fun _ => ?_) (fun _ => ?_)
    | with_reducible refine foldl_good (fun _ _ _ => ?_) ?_
    | with_reducible refine foldl_fst (fun _ _ _ => ?_) ?_
    | with_reducible refine foldl_snd (fun _ _ _ => ?_) ?_
    | subst x
    | with_reducible split
    | dsimp only

theorem State.setScalar_good {pq : List Instr × Prop} {s : State} {c : Nat} {i : Nat} {v : W32} (hs : Good pq s) : Good pq (State.setScalar s c i v) := by
  unfold State.setScalar
  repeat' first
    | with_reducible assumption
    | with_reducible refine goodOut_next ?_
    | (lift_lets; intro x; refine (fun (hx : Good pq x) => ?_) ?_; clear_value x)
    | (intro x; subst x)
    | with_reducible refine State.setClu_good ?_
    | with_reducible refine ite_good (fun _ => ?_) (fun _ => ?_)
    | with_reducible refine iteOut_good (fun _ => ?_) (fun _ => ?_)
    | with_reducible refine foldl_good (fun _ _ _ => ?_) ?_
    | with_reducible refine foldl_fst (fun _ _ _ => ?_) ?_
    | with_reducible refine foldl_snd (fun _ _ _ => ?_) ?_
    | subst x
    | with_reducible split
    | dsimp only

theorem State.unreserve_good {pq : List Instr × Prop} {s : State} {c : Nat} {r : Nat} (hs : Good pq s) : Good pq (State.unreserve s c r) := by
  unfold State.unreserve
  repeat' first
    | with_reducible assumption
    | with_reducible refine goodOut_next ?_
    | (lift_lets; intro x; refine (fun (hx : Good pq x) => ?_) ?_; clear_value x)
    | (intro x; subst x)
    | with_reducible refine State.setClu_good ?_
    | with_reducible refine ite_good (fun _ => ?_) (fun _ => ?_)
    | with_reducible refine iteOut_good (fun _ => ?_) (fun _ => ?_)
    | with_reducible refine foldl_good (fun _ _ _ => ?_) ?_
    | with_reducible refine foldl_fst (fun _ _ _ => ?_) ?_
    | with_reducible refine foldl_snd (fun _ _ _ => ?_) ?_
    | subst x
    | with_reducible split
    | dsimp only

theorem State.haltCore_good {pq : List Instr × Prop} {s : State} {c : Nat} {k : Nat} {reason : Nat} (hs : Good pq s) : Good pq (State.haltCore s c k reason) := by
  unfold State.haltCore
  repeat' first
    | with_reducible assumption
    | with_reducible refine goodOut_next ?_
    | (lift_lets; intro x; refine (fun (hx : Good pq x) => ?_) ?_; clear_value x)
    | (intro x; subst x)
    | with_reducible refine State.breakSlot_good ?_
    | with_reducible refine State.setFld_good ?_
    | with_reducible refine State.unwait_good ?_
    | with_reducible refine ite_good (fun _ => ?_) (fun _ => ?_)
    | with_reducible refine iteOut_good (fun _ => ?_) (fun _ => ?_)
    | with_reducible refine foldl_good (fun _ _ _ => ?_) ?_
    | with_reducible refine foldl_fst (fun _ _ _ => ?_) ?_
    | with_reducible refine foldl_snd (fun _ _ _ => ?_) ?_
    | subst x
    | with_reducible split
    | dsimp only

theorem State.haltCores_good {pq : List Instr × Prop} {s : State} {c : Nat} {reason : Nat} (hs : Good pq s) : Good pq (State.haltCores s c reason) := by
  unfold State.haltCores
  repeat' first
    | with_reducible assumption
    | with_reducible refine goodOut_next ?_
    | (lift_lets; intro x; refine (fun (hx : Good pq x) => ?_) ?_; clear_value x)
    | (intro x; subst x)
    | with_reducible refine State.haltCore_good ?_
    | with_reducible refine ite_good (fun _ => ?_) (fun _ => ?_)
    | with_reducible refine iteOut_good (fun _ => ?_) (fun _ => ?_)
    | with_reducible refine foldl_good (fun _ _ _ => ?_) ?_
    | with_reducible refine foldl_fst (fun _ _ _ => ?_) ?_
    | with_reducible refine foldl_snd (fun _ _ _ => ?_) ?_
    | subst x
    | with_reducible split
    | dsimp only

-- FOR State.clearMem
-- HAVE clearMem State.clearMem_good
theorem State.clearMem_good {pq : List Instr × Prop} {s : State} {lo hi : Nat} (h : Good pq s) : Good pq (s.clearMem lo hi) := by
  obtain ⟨h1, h5⟩ := h
  refine ⟨h1, fun hk => ?_⟩
  obtain ⟨⟨h2, h3⟩, h4⟩ := h5 hk
  simp only [Memory.wf, Bool.and_eq_true] at h2
  exact ⟨⟨by simp only [Memory.wf, Bool.and_eq_true]; exact ⟨⟨⟨KMap.wf_filter _ _ h2.1.1.1, KMap.wf_filter _ _ h2.1.1.2⟩, KMap.wf_filter _ _ h2.1.2⟩, h2.2⟩, h3⟩, h4⟩

theorem State.clearSram_good {pq : List Instr × Prop} {s : State} {lo : Nat} {hi : Nat} (hs : Good pq s) : Good pq (State.clearSram s lo hi) := by
  unfold State.clearSram
  repeat' first
    | with_reducible assumption
    | with_reducible refine goodOut_next ?_
    | (lift_lets; intro x; refine (fun (hx : Good pq x) => ?_) ?_; clear_value x)
    | (intro x; subst x)
    | with_reducible refine State.clearMem_good ?_
    | with_reducible refine State.wakeWord_good ?_
    | with_reducible refine State.wakeWord_good_eq (by with_reducible assumption) ?_
    | with_reducible refine ite_good (fun _ => ?_) (fun _ => ?_)
    | with_reducible refine iteOut_good (fun _ => ?_) (fun _ => ?_)
    | with_reducible refine foldl_good (fun _ _ _ => ?_) ?_
    | with_reducible refine foldl_fst (fun _ _ _ => ?_) ?_
    | with_reducible refine foldl_snd (fun _ _ _ => ?_) ?_
    | subst x
    | with_reducible split
    | dsimp only

theorem State.mapFte_good {pq : List Instr × Prop} {s : State} {e : Nat} {id : Nat} {f : Fte → Fte} (hs : Good pq s) : Good pq (State.mapFte s e id f) := by
  unfold State.mapFte
  repeat' first
    | with_reducible assumption
    | with_reducible refine goodOut_next ?_
    | (lift_lets; intro x; refine (fun (hx : Good pq x) => ?_) ?_; clear_value x)
    | (intro x; subst x)
    | with_reducible refine State.setMxe_good ?_
    | with_reducible refine ite_good (fun _ => ?_) (fun _ => ?_)
    | with_reducible refine iteOut_good (fun _ => ?_) (fun _ => ?_)
    | with_reducible refine foldl_good (fun _ _ _ => ?_) ?_
    | with_reducible refine foldl_fst (fun _ _ _ => ?_) ?_
    | with_reducible refine foldl_snd (fun _ _ _ => ?_) ?_
    | subst x
    | with_reducible split
    | dsimp only

theorem State.freeFte_good {pq : List Instr × Prop} {s : State} {e : Nat} {id : Nat} (hs : Good pq s) : Good pq (State.freeFte s e id) := by
  unfold State.freeFte
  repeat' first
    | with_reducible assumption
    | with_reducible refine goodOut_next ?_
    | (lift_lets; intro x; refine (fun (hx : Good pq x) => ?_) ?_; clear_value x)
    | (intro x; subst x)
    | with_reducible refine State.setMxe_good ?_
    | with_reducible refine ite_good (fun _ => ?_) (fun _ => ?_)
    | with_reducible refine iteOut_good (fun _ => ?_) (fun _ => ?_)
    | with_reducible refine foldl_good (fun _ _ _ => ?_) ?_
    | with_reducible refine foldl_fst (fun _ _ _ => ?_) ?_
    | with_reducible refine foldl_snd (fun _ _ _ => ?_) ?_
    | subst x
    | with_reducible split
    | dsimp only

theorem State.strikeRec_good {pq : List Instr × Prop} {s : State} {d : Nat} {key : Nat} {ctx : Nat} {sig : W64} (hs : Good pq s) : Good pq (State.strikeRec s d key ctx sig).1 := by
  unfold State.strikeRec
  repeat' first
    | with_reducible assumption
    | with_reducible refine goodOut_next ?_
    | (lift_lets; intro x; refine (fun (hx : Good pq x) => ?_) ?_; clear_value x)
    | (intro x; subst x)
    | with_reducible refine State.event_good ?_
    | with_reducible refine State.putUnit_good ?_
    | with_reducible refine ite_good (fun _ => ?_) (fun _ => ?_)
    | with_reducible refine iteOut_good (fun _ => ?_) (fun _ => ?_)
    | with_reducible refine foldl_good (fun _ _ _ => ?_) ?_
    | with_reducible refine foldl_fst (fun _ _ _ => ?_) ?_
    | with_reducible refine foldl_snd (fun _ _ _ => ?_) ?_
    | subst x
    | with_reducible split
    | dsimp only

theorem State.strikeRec_good_eq {pq : List Instr × Prop} {s : State} {d : Nat} {key : Nat} {ctx : Nat} {sig : W64} {rr} (he : State.strikeRec s d key ctx sig = rr) (hs : Good pq s) : Good pq rr.1 := he ▸ State.strikeRec_good hs

theorem State.releaseLate_good {pq : List Instr × Prop} {s : State} {c : Nat} (hs : Good pq s) : Good pq (State.releaseLate s c) := by
  unfold State.releaseLate
  repeat' first
    | with_reducible assumption
    | with_reducible refine goodOut_next ?_
    | (lift_lets; intro x; refine (fun (hx : Good pq x) => ?_) ?_; clear_value x)
    | (intro x; subst x)
    | with_reducible refine State.putRec_good ?_
    | with_reducible refine State.setClu_good ?_
    | with_reducible refine ite_good (fun _ => ?_) (fun _ => ?_)
    | with_reducible refine iteOut_good (fun _ => ?_) (fun _ => ?_)
    | with_reducible refine foldl_good (fun _ _ _ => ?_) ?_
    | with_reducible refine foldl_fst (fun _ _ _ => ?_) ?_
    | with_reducible refine foldl_snd (fun _ _ _ => ?_) ?_
    | subst x
    | with_reducible split
    | dsimp only

theorem State.lateRec_good {pq : List Instr × Prop} {s : State} {c : Nat} {slot : Nat} {unit : Nat} {t : TileCmd} {droop : Bool} {rql : Bool} {st : Nat} (hs : Good pq s) : Good pq (State.lateRec s c slot unit t droop rql st) := by
  unfold State.lateRec
  repeat' first
    | with_reducible assumption
    | with_reducible refine goodOut_next ?_
    | (lift_lets; intro x; refine (fun (hx : Good pq x) => ?_) ?_; clear_value x)
    | (intro x; subst x)
    | with_reducible refine State.recOf_good ?_
    | with_reducible refine State.setClu_good ?_
    | with_reducible refine State.recOf_good_eq (by with_reducible assumption) ?_
    | with_reducible refine ite_good (fun _ => ?_) (fun _ => ?_)
    | with_reducible refine iteOut_good (fun _ => ?_) (fun _ => ?_)
    | with_reducible refine foldl_good (fun _ _ _ => ?_) ?_
    | with_reducible refine foldl_fst (fun _ _ _ => ?_) ?_
    | with_reducible refine foldl_snd (fun _ _ _ => ?_) ?_
    | subst x
    | with_reducible split
    | dsimp only

theorem State.fenceUnit_good {pq : List Instr × Prop} {s : State} {d : Nat} {page : Nat} {key : Nat} {cause : Nat} (hs : Good pq s) : Good pq (State.fenceUnit s d page key cause) := by
  unfold State.fenceUnit
  repeat' first
    | with_reducible assumption
    | with_reducible refine goodOut_next ?_
    | (lift_lets; intro x; refine (fun (hx : Good pq x) => ?_) ?_; clear_value x)
    | (intro x; subst x)
    | with_reducible refine State.event_good ?_
    | with_reducible refine State.markFenced_good ?_
    | with_reducible refine ite_good (fun _ => ?_) (fun _ => ?_)
    | with_reducible refine iteOut_good (fun _ => ?_) (fun _ => ?_)
    | with_reducible refine foldl_good (fun _ _ _ => ?_) ?_
    | with_reducible refine foldl_fst (fun _ _ _ => ?_) ?_
    | with_reducible refine foldl_snd (fun _ _ _ => ?_) ?_
    | subst x
    | with_reducible split
    | dsimp only

theorem State.fenceEngine_good {pq : List Instr × Prop} {s : State} {d : Nat} {page : Nat} {state : Fld} {key : Nat} {cause : Nat} (hs : Good pq s) : Good pq (State.fenceEngine s d page state key cause) := by
  unfold State.fenceEngine
  repeat' first
    | with_reducible assumption
    | with_reducible refine goodOut_next ?_
    | (lift_lets; intro x; refine (fun (hx : Good pq x) => ?_) ?_; clear_value x)
    | (intro x; subst x)
    | with_reducible refine State.fenceUnit_good ?_
    | with_reducible refine State.setBitF_good ?_
    | with_reducible refine State.setFld_good ?_
    | with_reducible refine ite_good (fun _ => ?_) (fun _ => ?_)
    | with_reducible refine iteOut_good (fun _ => ?_) (fun _ => ?_)
    | with_reducible refine foldl_good (fun _ _ _ => ?_) ?_
    | with_reducible refine foldl_fst (fun _ _ _ => ?_) ?_
    | with_reducible refine foldl_snd (fun _ _ _ => ?_) ?_
    | subst x
    | with_reducible split
    | dsimp only

theorem State.showMxe_good {pq : List Instr × Prop} {s : State} {e : Nat} (hs : Good pq s) : Good pq (State.showMxe s e) := by
  unfold State.showMxe
  repeat' first
    | with_reducible assumption
    | with_reducible refine goodOut_next ?_
    | (lift_lets; intro x; refine (fun (hx : Good pq x) => ?_) ?_; clear_value x)
    | (intro x; subst x)
    | with_reducible refine State.setFld_good ?_
    | with_reducible refine ite_good (fun _ => ?_) (fun _ => ?_)
    | with_reducible refine iteOut_good (fun _ => ?_) (fun _ => ?_)
    | with_reducible refine foldl_good (fun _ _ _ => ?_) ?_
    | with_reducible refine foldl_fst (fun _ _ _ => ?_) ?_
    | with_reducible refine foldl_snd (fun _ _ _ => ?_) ?_
    | subst x
    | with_reducible split
    | dsimp only

theorem State.showMxes_good {pq : List Instr × Prop} {s : State} {c : Nat} (hs : Good pq s) : Good pq (State.showMxes s c) := by
  unfold State.showMxes
  repeat' first
    | with_reducible assumption
    | with_reducible refine goodOut_next ?_
    | (lift_lets; intro x; refine (fun (hx : Good pq x) => ?_) ?_; clear_value x)
    | (intro x; subst x)
    | with_reducible refine State.showMxe_good ?_
    | with_reducible refine ite_good (fun _ => ?_) (fun _ => ?_)
    | with_reducible refine iteOut_good (fun _ => ?_) (fun _ => ?_)
    | with_reducible refine foldl_good (fun _ _ _ => ?_) ?_
    | with_reducible refine foldl_fst (fun _ _ _ => ?_) ?_
    | with_reducible refine foldl_snd (fun _ _ _ => ?_) ?_
    | subst x
    | with_reducible split
    | dsimp only

theorem State.showVxe_good {pq : List Instr × Prop} {s : State} {v : Nat} {state : Nat} (hs : Good pq s) : Good pq (State.showVxe s v state) := by
  unfold State.showVxe
  repeat' first
    | with_reducible assumption
    | with_reducible refine goodOut_next ?_
    | (lift_lets; intro x; refine (fun (hx : Good pq x) => ?_) ?_; clear_value x)
    | (intro x; subst x)
    | with_reducible refine State.setFld_good ?_
    | with_reducible refine ite_good (fun _ => ?_) (fun _ => ?_)
    | with_reducible refine iteOut_good (fun _ => ?_) (fun _ => ?_)
    | with_reducible refine foldl_good (fun _ _ _ => ?_) ?_
    | with_reducible refine foldl_fst (fun _ _ _ => ?_) ?_
    | with_reducible refine foldl_snd (fun _ _ _ => ?_) ?_
    | subst x
    | with_reducible split
    | dsimp only

theorem State.fenceMxeNow_good {pq : List Instr × Prop} {s : State} {e : Nat} {cause : Nat} (hs : Good pq s) : Good pq (State.fenceMxeNow s e cause) := by
  unfold State.fenceMxeNow
  repeat' first
    | with_reducible assumption
    | with_reducible refine goodOut_next ?_
    | (lift_lets; intro x; refine (fun (hx : Good pq x) => ?_) ?_; clear_value x)
    | (intro x; subst x)
    | with_reducible refine State.fenceEngine_good ?_
    | with_reducible refine State.setClu_good ?_
    | with_reducible refine ite_good (fun _ => ?_) (fun _ => ?_)
    | with_reducible refine iteOut_good (fun _ => ?_) (fun _ => ?_)
    | with_reducible refine foldl_good (fun _ _ _ => ?_) ?_
    | with_reducible refine foldl_fst (fun _ _ _ => ?_) ?_
    | with_reducible refine foldl_snd (fun _ _ _ => ?_) ?_
    | subst x
    | with_reducible split
    | dsimp only

theorem State.fenceMxe_good {pq : List Instr × Prop} {s : State} {e : Nat} {cause : Nat} (hs : Good pq s) : Good pq (State.fenceMxe s e cause) := by
  unfold State.fenceMxe
  repeat' first
    | with_reducible assumption
    | with_reducible refine goodOut_next ?_
    | (lift_lets; intro x; refine (fun (hx : Good pq x) => ?_) ?_; clear_value x)
    | (intro x; subst x)
    | with_reducible refine State.fenceMxeNow_good ?_
    | with_reducible refine State.setMxe_good ?_
    | with_reducible refine ite_good (fun _ => ?_) (fun _ => ?_)
    | with_reducible refine iteOut_good (fun _ => ?_) (fun _ => ?_)
    | with_reducible refine foldl_good (fun _ _ _ => ?_) ?_
    | with_reducible refine foldl_fst (fun _ _ _ => ?_) ?_
    | with_reducible refine foldl_snd (fun _ _ _ => ?_) ?_
    | subst x
    | with_reducible split
    | dsimp only

theorem State.fenceWaited_good {pq : List Instr × Prop} {s : State} {e : Nat} (hs : Good pq s) : Good pq (State.fenceWaited s e) := by
  unfold State.fenceWaited
  repeat' first
    | with_reducible assumption
    | with_reducible refine goodOut_next ?_
    | (lift_lets; intro x; refine (fun (hx : Good pq x) => ?_) ?_; clear_value x)
    | (intro x; subst x)
    | with_reducible refine State.fenceMxe_good ?_
    | with_reducible refine State.setMxe_good ?_
    | with_reducible refine ite_good (fun _ => ?_) (fun _ => ?_)
    | with_reducible refine iteOut_good (fun _ => ?_) (fun _ => ?_)
    | with_reducible refine foldl_good (fun _ _ _ => ?_) ?_
    | with_reducible refine foldl_fst (fun _ _ _ => ?_) ?_
    | with_reducible refine foldl_snd (fun _ _ _ => ?_) ?_
    | subst x
    | with_reducible split
    | dsimp only

theorem State.fenceVxeNow_good {pq : List Instr × Prop} {s : State} {v : Nat} {cause : Nat} (hs : Good pq s) : Good pq (State.fenceVxeNow s v cause) := by
  unfold State.fenceVxeNow
  repeat' first
    | with_reducible assumption
    | with_reducible refine goodOut_next ?_
    | (lift_lets; intro x; refine (fun (hx : Good pq x) => ?_) ?_; clear_value x)
    | (intro x; subst x)
    | with_reducible refine State.fenceEngine_good ?_
    | with_reducible refine State.setChains_good ?_
    | with_reducible refine ite_good (fun _ => ?_) (fun _ => ?_)
    | with_reducible refine iteOut_good (fun _ => ?_) (fun _ => ?_)
    | with_reducible refine foldl_good (fun _ _ _ => ?_) ?_
    | with_reducible refine foldl_fst (fun _ _ _ => ?_) ?_
    | with_reducible refine foldl_snd (fun _ _ _ => ?_) ?_
    | subst x
    | with_reducible split
    | dsimp only

theorem State.fenceVxe_good {pq : List Instr × Prop} {s : State} {v : Nat} {cause : Nat} (hs : Good pq s) : Good pq (State.fenceVxe s v cause) := by
  unfold State.fenceVxe
  repeat' first
    | with_reducible assumption
    | with_reducible refine goodOut_next ?_
    | (lift_lets; intro x; refine (fun (hx : Good pq x) => ?_) ?_; clear_value x)
    | (intro x; subst x)
    | with_reducible refine State.fenceVxeNow_good ?_
    | with_reducible refine State.setVxe_good ?_
    | with_reducible refine ite_good (fun _ => ?_) (fun _ => ?_)
    | with_reducible refine iteOut_good (fun _ => ?_) (fun _ => ?_)
    | with_reducible refine foldl_good (fun _ _ _ => ?_) ?_
    | with_reducible refine foldl_fst (fun _ _ _ => ?_) ?_
    | with_reducible refine foldl_snd (fun _ _ _ => ?_) ?_
    | subst x
    | with_reducible split
    | dsimp only

theorem State.leaveVxe_good {pq : List Instr × Prop} {s : State} {v : Nat} {r : ChainRun} (hs : Good pq s) : Good pq (State.leaveVxe s v r) := by
  unfold State.leaveVxe
  repeat' first
    | with_reducible assumption
    | with_reducible refine goodOut_next ?_
    | (lift_lets; intro x; refine (fun (hx : Good pq x) => ?_) ?_; clear_value x)
    | (intro x; subst x)
    | with_reducible refine State.fenceVxe_good ?_
    | with_reducible refine State.setVxe_good ?_
    | with_reducible refine State.showVxe_good ?_
    | with_reducible refine ite_good (fun _ => ?_) (fun _ => ?_)
    | with_reducible refine iteOut_good (fun _ => ?_) (fun _ => ?_)
    | with_reducible refine foldl_good (fun _ _ _ => ?_) ?_
    | with_reducible refine foldl_fst (fun _ _ _ => ?_) ?_
    | with_reducible refine foldl_snd (fun _ _ _ => ?_) ?_
    | subst x
    | with_reducible split
    | dsimp only

theorem State.setVerState_good {pq : List Instr × Prop} {s : State} {v : Nat} {n : Nat} (hs : Good pq s) : Good pq (State.setVerState s v n) := by
  unfold State.setVerState
  repeat' first
    | with_reducible assumption
    | with_reducible refine goodOut_next ?_
    | (lift_lets; intro x; refine (fun (hx : Good pq x) => ?_) ?_; clear_value x)
    | (intro x; subst x)
    | with_reducible refine State.setFld_good ?_
    | with_reducible refine ite_good (fun _ => ?_) (fun _ => ?_)
    | with_reducible refine iteOut_good (fun _ => ?_) (fun _ => ?_)
    | with_reducible refine foldl_good (fun _ _ _ => ?_) ?_
    | with_reducible refine foldl_fst (fun _ _ _ => ?_) ?_
    | with_reducible refine foldl_snd (fun _ _ _ => ?_) ?_
    | subst x
    | with_reducible split
    | dsimp only

theorem State.lookup_good {pq : List Instr × Prop} {s : State} {dst : Nat} {needV3 : Bool} (hs : Good pq s) : Good pq (State.lookup s dst needV3).2 := by
  unfold State.lookup
  repeat' first
    | with_reducible assumption
    | with_reducible refine goodOut_next ?_
    | (lift_lets; intro x; refine (fun (hx : Good pq x) => ?_) ?_; clear_value x)
    | (intro x; subst x)
    | with_reducible refine State.setErr_good ?_
    | with_reducible refine ite_good (fun _ => ?_) (fun _ => ?_)
    | with_reducible refine iteOut_good (fun _ => ?_) (fun _ => ?_)
    | with_reducible refine foldl_good (fun _ _ _ => ?_) ?_
    | with_reducible refine foldl_fst (fun _ _ _ => ?_) ?_
    | with_reducible refine foldl_snd (fun _ _ _ => ?_) ?_
    | subst x
    | with_reducible split
    | dsimp only

theorem State.lookup_good_eq {pq : List Instr × Prop} {s : State} {dst : Nat} {needV3 : Bool} {rr} (he : State.lookup s dst needV3 = rr) (hs : Good pq s) : Good pq rr.2 := he ▸ State.lookup_good hs

theorem State.setPort_good {pq : List Instr × Prop} {s : State} {p : Nat} {x : Port} (hs : Good pq s) : Good pq (State.setPort s p x) := by
  unfold State.setPort
  repeat' first
    | with_reducible assumption
    | with_reducible refine goodOut_next ?_
    | (lift_lets; intro x; refine (fun (hx : Good pq x) => ?_) ?_; clear_value x)
    | (intro x; subst x)
    | with_reducible refine State.withNet_good _ ?_
    | with_reducible refine ite_good (fun _ => ?_) (fun _ => ?_)
    | with_reducible refine iteOut_good (fun _ => ?_) (fun _ => ?_)
    | with_reducible refine foldl_good (fun _ _ _ => ?_) ?_
    | with_reducible refine foldl_fst (fun _ _ _ => ?_) ?_
    | with_reducible refine foldl_snd (fun _ _ _ => ?_) ?_
    | subst x
    | with_reducible split
    | dsimp only

theorem State.setLnk_good {pq : List Instr × Prop} {s : State} {p : Nat} {st : Nat} (hs : Good pq s) : Good pq (State.setLnk s p st) := by
  unfold State.setLnk
  repeat' first
    | with_reducible assumption
    | with_reducible refine goodOut_next ?_
    | (lift_lets; intro x; refine (fun (hx : Good pq x) => ?_) ?_; clear_value x)
    | (intro x; subst x)
    | with_reducible refine State.setFld_good ?_
    | with_reducible refine ite_good (fun _ => ?_) (fun _ => ?_)
    | with_reducible refine iteOut_good (fun _ => ?_) (fun _ => ?_)
    | with_reducible refine foldl_good (fun _ _ _ => ?_) ?_
    | with_reducible refine foldl_fst (fun _ _ _ => ?_) ?_
    | with_reducible refine foldl_snd (fun _ _ _ => ?_) ?_
    | subst x
    | with_reducible split
    | dsimp only

theorem State.inject_good {pq : List Instr × Prop} {s : State} {d : Nat} {ws : List W64} (hs : Good pq s) : Good pq (State.inject s d ws) := by
  unfold State.inject
  repeat' first
    | with_reducible assumption
    | with_reducible refine goodOut_next ?_
    | (lift_lets; intro x; refine (fun (hx : Good pq x) => ?_) ?_; clear_value x)
    | (intro x; subst x)
    | with_reducible refine State.withNet_good _ ?_
    | with_reducible refine ite_good (fun _ => ?_) (fun _ => ?_)
    | with_reducible refine iteOut_good (fun _ => ?_) (fun _ => ?_)
    | with_reducible refine foldl_good (fun _ _ _ => ?_) ?_
    | with_reducible refine foldl_fst (fun _ _ _ => ?_) ?_
    | with_reducible refine foldl_snd (fun _ _ _ => ?_) ?_
    | subst x
    | with_reducible split
    | dsimp only

theorem State.setSlot_good {pq : List Instr × Prop} {s : State} {k : Nat} {x : Slot} (hs : Good pq s) : Good pq (State.setSlot s k x) := by
  unfold State.setSlot
  repeat' first
    | with_reducible assumption
    | with_reducible refine goodOut_next ?_
    | (lift_lets; intro x; refine (fun (hx : Good pq x) => ?_) ?_; clear_value x)
    | (intro x; subst x)
    | with_reducible refine State.withNet_good _ ?_
    | with_reducible refine ite_good (fun _ => ?_) (fun _ => ?_)
    | with_reducible refine iteOut_good (fun _ => ?_) (fun _ => ?_)
    | with_reducible refine foldl_good (fun _ _ _ => ?_) ?_
    | with_reducible refine foldl_fst (fun _ _ _ => ?_) ?_
    | with_reducible refine foldl_snd (fun _ _ _ => ?_) ?_
    | subst x
    | with_reducible split
    | dsimp only

theorem State.expireSlot_good {pq : List Instr × Prop} {s : State} {k : Nat} (hs : Good pq s) : Good pq (State.expireSlot s k) := by
  unfold State.expireSlot
  repeat' first
    | with_reducible assumption
    | with_reducible refine goodOut_next ?_
    | (lift_lets; intro x; refine (fun (hx : Good pq x) => ?_) ?_; clear_value x)
    | (intro x; subst x)
    | with_reducible refine State.setSlot_good ?_
    | with_reducible refine ite_good (fun _ => ?_) (fun _ => ?_)
    | with_reducible refine iteOut_good (fun _ => ?_) (fun _ => ?_)
    | with_reducible refine foldl_good (fun _ _ _ => ?_) ?_
    | with_reducible refine foldl_fst (fun _ _ _ => ?_) ?_
    | with_reducible refine foldl_snd (fun _ _ _ => ?_) ?_
    | subst x
    | with_reducible split
    | dsimp only

theorem State.portRecord_good {pq : List Instr × Prop} {s : State} {d : Nat} {ctx : Nat} {addr : Nat} {st : Nat} {bytes : Nat} {w1 : W64} (hs : Good pq s) : Good pq (State.portRecord s d ctx addr st bytes w1) := by
  unfold State.portRecord
  repeat' first
    | with_reducible assumption
    | with_reducible refine goodOut_next ?_
    | (lift_lets; intro x; refine (fun (hx : Good pq x) => ?_) ?_; clear_value x)
    | (intro x; subst x)
    | with_reducible refine State.charge_good ?_
    | with_reducible refine State.storeWords_good ?_
    | with_reducible refine ite_good (fun _ => ?_) (fun _ => ?_)
    | with_reducible refine iteOut_good (fun _ => ?_) (fun _ => ?_)
    | with_reducible refine foldl_good (fun _ _ _ => ?_) ?_
    | with_reducible refine foldl_fst (fun _ _ _ => ?_) ?_
    | with_reducible refine foldl_snd (fun _ _ _ => ?_) ?_
    | subst x
    | with_reducible split
    | dsimp only

theorem State.setSqCmds_good {pq : List Instr × Prop} {s : State} {q : Nat} {l : List SqCmd} (hs : Good pq s) : Good pq (State.setSqCmds s q l) := by
  unfold State.setSqCmds
  repeat' first
    | with_reducible assumption
    | with_reducible refine goodOut_next ?_
    | (lift_lets; intro x; refine (fun (hx : Good pq x) => ?_) ?_; clear_value x)
    | (intro x; subst x)
    | with_reducible refine State.withHost_good _ ?_
    | with_reducible refine ite_good (fun _ => ?_) (fun _ => ?_)
    | with_reducible refine iteOut_good (fun _ => ?_) (fun _ => ?_)
    | with_reducible refine foldl_good (fun _ _ _ => ?_) ?_
    | with_reducible refine foldl_fst (fun _ _ _ => ?_) ?_
    | with_reducible refine foldl_snd (fun _ _ _ => ?_) ?_
    | subst x
    | with_reducible split
    | dsimp only

theorem State.finCmd_good {pq : List Instr × Prop} {s : State} {q : Nat} {seq : W64} {st : Nat} {result : W64} (hs : Good pq s) : Good pq (State.finCmd s q seq st result) := by
  unfold State.finCmd
  repeat' first
    | with_reducible assumption
    | with_reducible refine goodOut_next ?_
    | (lift_lets; intro x; refine (fun (hx : Good pq x) => ?_) ?_; clear_value x)
    | (intro x; subst x)
    | with_reducible refine State.setSqCmds_good ?_
    | with_reducible refine ite_good (fun _ => ?_) (fun _ => ?_)
    | with_reducible refine iteOut_good (fun _ => ?_) (fun _ => ?_)
    | with_reducible refine foldl_good (fun _ _ _ => ?_) ?_
    | with_reducible refine foldl_fst (fun _ _ _ => ?_) ?_
    | with_reducible refine foldl_snd (fun _ _ _ => ?_) ?_
    | subst x
    | with_reducible split
    | dsimp only

theorem State.finAborted_good {pq : List Instr × Prop} {s : State} {q : Nat} {seq : W64} (hs : Good pq s) : Good pq (State.finAborted s q seq) := by
  unfold State.finAborted
  repeat' first
    | with_reducible assumption
    | with_reducible refine goodOut_next ?_
    | (lift_lets; intro x; refine (fun (hx : Good pq x) => ?_) ?_; clear_value x)
    | (intro x; subst x)
    | with_reducible refine State.finCmd_good ?_
    | with_reducible refine ite_good (fun _ => ?_) (fun _ => ?_)
    | with_reducible refine iteOut_good (fun _ => ?_) (fun _ => ?_)
    | with_reducible refine foldl_good (fun _ _ _ => ?_) ?_
    | with_reducible refine foldl_fst (fun _ _ _ => ?_) ?_
    | with_reducible refine foldl_snd (fun _ _ _ => ?_) ?_
    | subst x
    | with_reducible split
    | dsimp only

theorem State.markDispatched_good {pq : List Instr × Prop} {s : State} {q : Nat} {seq : W64} (hs : Good pq s) : Good pq (State.markDispatched s q seq) := by
  unfold State.markDispatched
  repeat' first
    | with_reducible assumption
    | with_reducible refine goodOut_next ?_
    | (lift_lets; intro x; refine (fun (hx : Good pq x) => ?_) ?_; clear_value x)
    | (intro x; subst x)
    | with_reducible refine State.setSqCmds_good ?_
    | with_reducible refine ite_good (fun _ => ?_) (fun _ => ?_)
    | with_reducible refine iteOut_good (fun _ => ?_) (fun _ => ?_)
    | with_reducible refine foldl_good (fun _ _ _ => ?_) ?_
    | with_reducible refine foldl_fst (fun _ _ _ => ?_) ?_
    | with_reducible refine foldl_snd (fun _ _ _ => ?_) ?_
    | subst x
    | with_reducible split
    | dsimp only

-- FOR State.pumpQueue
-- HAVE pumpQueue State.pumpQueue_good
theorem State.pumpQueue_good {pq : List Instr × Prop} : ∀ {n : Nat} {s : State} {q : Nat}, Good pq s → Good pq (State.pumpQueue n s q) := by
  intro n
  induction n with
  | zero => intro s q hs; exact hs
  | succ n ih =>
    intro s q hs
    unfold State.pumpQueue
    split
    · split
      · exact ih (State.markDispatched_good (State.withHost_good _ (State.withUpd_good _ hs)))
      · exact hs
    · exact hs

theorem State.pump_good {pq : List Instr × Prop} {s : State} {q : Nat} (hs : Good pq s) : Good pq (State.pump s q) := by
  unfold State.pump
  repeat' first
    | with_reducible assumption
    | with_reducible refine goodOut_next ?_
    | (lift_lets; intro x; refine (fun (hx : Good pq x) => ?_) ?_; clear_value x)
    | (intro x; subst x)
    | with_reducible refine State.pumpQueue_good ?_
    | with_reducible refine ite_good (fun _ => ?_) (fun _ => ?_)
    | with_reducible refine iteOut_good (fun _ => ?_) (fun _ => ?_)
    | with_reducible refine foldl_good (fun _ _ _ => ?_) ?_
    | with_reducible refine foldl_fst (fun _ _ _ => ?_) ?_
    | with_reducible refine foldl_snd (fun _ _ _ => ?_) ?_
    | subst x
    | with_reducible split
    | dsimp only

theorem State.pumpAll_good {pq : List Instr × Prop} {s : State} (hs : Good pq s) : Good pq (State.pumpAll s) := by
  unfold State.pumpAll
  repeat' first
    | with_reducible assumption
    | with_reducible refine goodOut_next ?_
    | (lift_lets; intro x; refine (fun (hx : Good pq x) => ?_) ?_; clear_value x)
    | (intro x; subst x)
    | with_reducible refine State.pump_good ?_
    | with_reducible refine ite_good (fun _ => ?_) (fun _ => ?_)
    | with_reducible refine iteOut_good (fun _ => ?_) (fun _ => ?_)
    | with_reducible refine foldl_good (fun _ _ _ => ?_) ?_
    | with_reducible refine foldl_fst (fun _ _ _ => ?_) ?_
    | with_reducible refine foldl_snd (fun _ _ _ => ?_) ?_
    | subst x
    | with_reducible split
    | dsimp only

theorem State.chargeRuns_good {pq : List Instr × Prop} {s : State} {u : Nat} {ctx : Nat} {l : List Nat} {wr : Bool} (hs : Good pq s) : Good pq (State.chargeRuns s u ctx l wr) := by
  unfold State.chargeRuns
  repeat' first
    | with_reducible assumption
    | with_reducible refine goodOut_next ?_
    | (lift_lets; intro x; refine (fun (hx : Good pq x) => ?_) ?_; clear_value x)
    | (intro x; subst x)
    | with_reducible refine State.charge_good ?_
    | with_reducible refine ite_good (fun _ => ?_) (fun _ => ?_)
    | with_reducible refine iteOut_good (fun _ => ?_) (fun _ => ?_)
    | with_reducible refine foldl_good (fun _ _ _ => ?_) ?_
    | with_reducible refine foldl_fst (fun _ _ _ => ?_) ?_
    | with_reducible refine foldl_snd (fun _ _ _ => ?_) ?_
    | subst x
    | with_reducible split
    | dsimp only

theorem State.putRecord_good {pq : List Instr × Prop} {s : State} {u : Nat} {ctx : Nat} {rmap : Nat} {c : Nat} {step : W64} {sums : List W64} {poison : Bool} (hs : Good pq s) : Good pq (State.putRecord s u ctx rmap c step sums poison) := by
  unfold State.putRecord
  repeat' first
    | with_reducible assumption
    | with_reducible refine goodOut_next ?_
    | (lift_lets; intro x; refine (fun (hx : Good pq x) => ?_) ?_; clear_value x)
    | (intro x; subst x)
    | with_reducible refine State.charge_good ?_
    | with_reducible refine State.storeWords_good ?_
    | with_reducible refine ite_good (fun _ => ?_) (fun _ => ?_)
    | with_reducible refine iteOut_good (fun _ => ?_) (fun _ => ?_)
    | with_reducible refine foldl_good (fun _ _ _ => ?_) ?_
    | with_reducible refine foldl_fst (fun _ _ _ => ?_) ?_
    | with_reducible refine foldl_snd (fun _ _ _ => ?_) ?_
    | subst x
    | with_reducible split
    | dsimp only

theorem State.writeBack_good {pq : List Instr × Prop} {s : State} {j : Journal} (hs : Good pq s) : Good pq (State.writeBack s j) := by
  unfold State.writeBack
  repeat' first
    | with_reducible assumption
    | with_reducible refine goodOut_next ?_
    | (lift_lets; intro x; refine (fun (hx : Good pq x) => ?_) ?_; clear_value x)
    | (intro x; subst x)
    | with_reducible refine State.chargeRuns_good ?_
    | with_reducible refine State.putRecord_good ?_
    | with_reducible refine State.storeBytes_good ?_
    | with_reducible refine State.withJournals_good _ ?_
    | with_reducible refine ite_good (fun _ => ?_) (fun _ => ?_)
    | with_reducible refine iteOut_good (fun _ => ?_) (fun _ => ?_)
    | with_reducible refine foldl_good (fun _ _ _ => ?_) ?_
    | with_reducible refine foldl_fst (fun _ _ _ => ?_) ?_
    | with_reducible refine foldl_snd (fun _ _ _ => ?_) ?_
    | subst x
    | with_reducible split
    | dsimp only

theorem State.replayJournal_good {pq : List Instr × Prop} {s : State} {j : Journal} (hs : Good pq s) : Good pq (State.replayJournal s j) := by
  unfold State.replayJournal
  repeat' first
    | with_reducible assumption
    | with_reducible refine goodOut_next ?_
    | (lift_lets; intro x; refine (fun (hx : Good pq x) => ?_) ?_; clear_value x)
    | (intro x; subst x)
    | with_reducible refine State.setErr_good ?_
    | with_reducible refine State.writeBack_good ?_
    | with_reducible refine ite_good (fun _ => ?_) (fun _ => ?_)
    | with_reducible refine iteOut_good (fun _ => ?_) (fun _ => ?_)
    | with_reducible refine foldl_good (fun _ _ _ => ?_) ?_
    | with_reducible refine foldl_fst (fun _ _ _ => ?_) ?_
    | with_reducible refine foldl_snd (fun _ _ _ => ?_) ?_
    | subst x
    | with_reducible split
    | dsimp only

theorem State.settleJournals_good {pq : List Instr × Prop} {s : State} {mine : Journal → Bool} (hs : Good pq s) : Good pq (State.settleJournals s mine) := by
  unfold State.settleJournals
  repeat' first
    | with_reducible assumption
    | with_reducible refine goodOut_next ?_
    | (lift_lets; intro x; refine (fun (hx : Good pq x) => ?_) ?_; clear_value x)
    | (intro x; subst x)
    | with_reducible refine State.replayJournal_good ?_
    | with_reducible refine State.withJournals_good _ ?_
    | with_reducible refine ite_good (fun _ => ?_) (fun _ => ?_)
    | with_reducible refine iteOut_good (fun _ => ?_) (fun _ => ?_)
    | with_reducible refine foldl_good (fun _ _ _ => ?_) ?_
    | with_reducible refine foldl_fst (fun _ _ _ => ?_) ?_
    | with_reducible refine foldl_snd (fun _ _ _ => ?_) ?_
    | subst x
    | with_reducible split
    | dsimp only

theorem State.applyCommit_good {pq : List Instr × Prop} {s : State} (hs : Good pq s) : Good pq (State.applyCommit s) := by
  unfold State.applyCommit
  repeat' first
    | with_reducible assumption
    | with_reducible refine goodOut_next ?_
    | (lift_lets; intro x; refine (fun (hx : Good pq x) => ?_) ?_; clear_value x)
    | (intro x; subst x)
    | with_reducible refine State.storeBytes_good ?_
    | with_reducible refine State.withCommit_good _ ?_
    | with_reducible refine ite_good (fun _ => ?_) (fun _ => ?_)
    | with_reducible refine iteOut_good (fun _ => ?_) (fun _ => ?_)
    | with_reducible refine foldl_good (fun _ _ _ => ?_) ?_
    | with_reducible refine foldl_fst (fun _ _ _ => ?_) ?_
    | with_reducible refine foldl_snd (fun _ _ _ => ?_) ?_
    | subst x
    | with_reducible split
    | dsimp only

theorem State.replayCommit_good {pq : List Instr × Prop} {s : State} (hs : Good pq s) : Good pq (State.replayCommit s) := by
  unfold State.replayCommit
  repeat' first
    | with_reducible assumption
    | with_reducible refine goodOut_next ?_
    | (lift_lets; intro x; refine (fun (hx : Good pq x) => ?_) ?_; clear_value x)
    | (intro x; subst x)
    | with_reducible refine State.addFld_good ?_
    | with_reducible refine State.applyCommit_good ?_
    | with_reducible refine State.finCmd_good ?_
    | with_reducible refine State.setErr_good ?_
    | with_reducible refine State.withUpd_good _ ?_
    | with_reducible refine ite_good (fun _ => ?_) (fun _ => ?_)
    | with_reducible refine iteOut_good (fun _ => ?_) (fun _ => ?_)
    | with_reducible refine foldl_good (fun _ _ _ => ?_) ?_
    | with_reducible refine foldl_fst (fun _ _ _ => ?_) ?_
    | with_reducible refine foldl_snd (fun _ _ _ => ?_) ?_
    | subst x
    | with_reducible split
    | dsimp only

theorem State.vtNote_good {pq : List Instr × Prop} {s : State} (hs : Good pq s) : Good pq (State.vtNote s) := by
  unfold State.vtNote
  repeat' first
    | with_reducible assumption
    | with_reducible refine goodOut_next ?_
    | (lift_lets; intro x; refine (fun (hx : Good pq x) => ?_) ?_; clear_value x)
    | (intro x; subst x)
    | with_reducible refine State.setErr_good ?_
    | with_reducible refine ite_good (fun _ => ?_) (fun _ => ?_)
    | with_reducible refine iteOut_good (fun _ => ?_) (fun _ => ?_)
    | with_reducible refine foldl_good (fun _ _ _ => ?_) ?_
    | with_reducible refine foldl_fst (fun _ _ _ => ?_) ?_
    | with_reducible refine foldl_snd (fun _ _ _ => ?_) ?_
    | subst x
    | with_reducible split
    | dsimp only

theorem State.setVt_good {pq : List Instr × Prop} {s : State} {e : Nat} {k : Nat} {v : W64} (hs : Good pq s) : Good pq (State.setVt s e k v) := by
  unfold State.setVt
  repeat' first
    | with_reducible assumption
    | with_reducible refine goodOut_next ?_
    | (lift_lets; intro x; refine (fun (hx : Good pq x) => ?_) ?_; clear_value x)
    | (intro x; subst x)
    | with_reducible refine State.storeWords_good ?_
    | with_reducible refine ite_good (fun _ => ?_) (fun _ => ?_)
    | with_reducible refine iteOut_good (fun _ => ?_) (fun _ => ?_)
    | with_reducible refine foldl_good (fun _ _ _ => ?_) ?_
    | with_reducible refine foldl_fst (fun _ _ _ => ?_) ?_
    | with_reducible refine foldl_snd (fun _ _ _ => ?_) ?_
    | subst x
    | with_reducible split
    | dsimp only

theorem State.setVs_good {pq : List Instr × Prop} {s : State} {e : Nat} {i : Nat} {st : Nat} {refs : Nat} {ver : Nat} (hs : Good pq s) : Good pq (State.setVs s e i st refs ver) := by
  unfold State.setVs
  repeat' first
    | with_reducible assumption
    | with_reducible refine goodOut_next ?_
    | (lift_lets; intro x; refine (fun (hx : Good pq x) => ?_) ?_; clear_value x)
    | (intro x; subst x)
    | with_reducible refine State.setVt_good ?_
    | with_reducible refine ite_good (fun _ => ?_) (fun _ => ?_)
    | with_reducible refine iteOut_good (fun _ => ?_) (fun _ => ?_)
    | with_reducible refine foldl_good (fun _ _ _ => ?_) ?_
    | with_reducible refine foldl_fst (fun _ _ _ => ?_) ?_
    | with_reducible refine foldl_snd (fun _ _ _ => ?_) ?_
    | subst x
    | with_reducible split
    | dsimp only

theorem State.abortEntry_good {pq : List Instr × Prop} {s : State} {e : Nat} (hs : Good pq s) : Good pq (State.abortEntry s e) := by
  unfold State.abortEntry
  repeat' first
    | with_reducible assumption
    | with_reducible refine goodOut_next ?_
    | (lift_lets; intro x; refine (fun (hx : Good pq x) => ?_) ?_; clear_value x)
    | (intro x; subst x)
    | with_reducible refine State.setVs_good ?_
    | with_reducible refine ite_good (fun _ => ?_) (fun _ => ?_)
    | with_reducible refine iteOut_good (fun _ => ?_) (fun _ => ?_)
    | with_reducible refine foldl_good (fun _ _ _ => ?_) ?_
    | with_reducible refine foldl_fst (fun _ _ _ => ?_) ?_
    | with_reducible refine foldl_snd (fun _ _ _ => ?_) ?_
    | subst x
    | with_reducible split
    | dsimp only

theorem State.abortEntries_good {pq : List Instr × Prop} {s : State} {mine : Nat → Bool} (hs : Good pq s) : Good pq (State.abortEntries s mine) := by
  unfold State.abortEntries
  repeat' first
    | with_reducible assumption
    | with_reducible refine goodOut_next ?_
    | (lift_lets; intro x; refine (fun (hx : Good pq x) => ?_) ?_; clear_value x)
    | (intro x; subst x)
    | with_reducible refine State.abortEntry_good ?_
    | with_reducible refine ite_good (fun _ => ?_) (fun _ => ?_)
    | with_reducible refine iteOut_good (fun _ => ?_) (fun _ => ?_)
    | with_reducible refine foldl_good (fun _ _ _ => ?_) ?_
    | with_reducible refine foldl_fst (fun _ _ _ => ?_) ?_
    | with_reducible refine foldl_snd (fun _ _ _ => ?_) ?_
    | subst x
    | with_reducible split
    | dsimp only

theorem State.setInq_good {pq : List Instr × Prop} {s : State} {qn : Nat} {q : InQueue} (hs : Good pq s) : Good pq (State.setInq s qn q) := by
  unfold State.setInq
  repeat' first
    | with_reducible assumption
    | with_reducible refine goodOut_next ?_
    | (lift_lets; intro x; refine (fun (hx : Good pq x) => ?_) ?_; clear_value x)
    | (intro x; subst x)
    | with_reducible refine State.withStg_good _ ?_
    | with_reducible refine ite_good (fun _ => ?_) (fun _ => ?_)
    | with_reducible refine iteOut_good (fun _ => ?_) (fun _ => ?_)
    | with_reducible refine foldl_good (fun _ _ _ => ?_) ?_
    | with_reducible refine foldl_fst (fun _ _ _ => ?_) ?_
    | with_reducible refine foldl_snd (fun _ _ _ => ?_) ?_
    | subst x
    | with_reducible split
    | dsimp only

theorem State.setOutq_good {pq : List Instr × Prop} {s : State} {ol : Nat} {q : List OutMsg} (hs : Good pq s) : Good pq (State.setOutq s ol q) := by
  unfold State.setOutq
  repeat' first
    | with_reducible assumption
    | with_reducible refine goodOut_next ?_
    | (lift_lets; intro x; refine (fun (hx : Good pq x) => ?_) ?_; clear_value x)
    | (intro x; subst x)
    | with_reducible refine State.withStg_good _ ?_
    | with_reducible refine ite_good (fun _ => ?_) (fun _ => ?_)
    | with_reducible refine iteOut_good (fun _ => ?_) (fun _ => ?_)
    | with_reducible refine foldl_good (fun _ _ _ => ?_) ?_
    | with_reducible refine foldl_fst (fun _ _ _ => ?_) ?_
    | with_reducible refine foldl_snd (fun _ _ _ => ?_) ?_
    | subst x
    | with_reducible split
    | dsimp only

theorem State.slSend_good {pq : List Instr × Prop} {s : State} {m : SlMsg} (hs : Good pq s) : Good pq (State.slSend s m) := by
  unfold State.slSend
  repeat' first
    | with_reducible assumption
    | with_reducible refine goodOut_next ?_
    | (lift_lets; intro x; refine (fun (hx : Good pq x) => ?_) ?_; clear_value x)
    | (intro x; subst x)
    | with_reducible refine State.withStg_good _ ?_
    | with_reducible refine ite_good (fun _ => ?_) (fun _ => ?_)
    | with_reducible refine iteOut_good (fun _ => ?_) (fun _ => ?_)
    | with_reducible refine foldl_good (fun _ _ _ => ?_) ?_
    | with_reducible refine foldl_fst (fun _ _ _ => ?_) ?_
    | with_reducible refine foldl_snd (fun _ _ _ => ?_) ?_
    | subst x
    | with_reducible split
    | dsimp only

theorem State.stopStage_good {pq : List Instr × Prop} {s : State} {i : Nat} (hs : Good pq s) : Good pq (State.stopStage s i) := by
  unfold State.stopStage
  repeat' first
    | with_reducible assumption
    | with_reducible refine goodOut_next ?_
    | (lift_lets; intro x; refine (fun (hx : Good pq x) => ?_) ?_; clear_value x)
    | (intro x; subst x)
    | with_reducible refine State.setFld_good ?_
    | with_reducible refine State.setInq_good ?_
    | with_reducible refine State.setOutq_good ?_
    | with_reducible refine ite_good (fun _ => ?_) (fun _ => ?_)
    | with_reducible refine iteOut_good (fun _ => ?_) (fun _ => ?_)
    | with_reducible refine foldl_good (fun _ _ _ => ?_) ?_
    | with_reducible refine foldl_fst (fun _ _ _ => ?_) ?_
    | with_reducible refine foldl_snd (fun _ _ _ => ?_) ?_
    | subst x
    | with_reducible split
    | dsimp only

theorem State.markTainted_good {pq : List Instr × Prop} {s : State} (hs : Good pq s) : Good pq (State.markTainted s) := by
  unfold State.markTainted
  repeat' first
    | with_reducible assumption
    | with_reducible refine goodOut_next ?_
    | (lift_lets; intro x; refine (fun (hx : Good pq x) => ?_) ?_; clear_value x)
    | (intro x; subst x)
    | with_reducible refine State.withStg_good _ ?_
    | with_reducible refine ite_good (fun _ => ?_) (fun _ => ?_)
    | with_reducible refine iteOut_good (fun _ => ?_) (fun _ => ?_)
    | with_reducible refine foldl_good (fun _ _ _ => ?_) ?_
    | with_reducible refine foldl_fst (fun _ _ _ => ?_) ?_
    | with_reducible refine foldl_snd (fun _ _ _ => ?_) ?_
    | subst x
    | with_reducible split
    | dsimp only

theorem State.sendTaint_good {pq : List Instr × Prop} {s : State} {ol : Nat} {t : Taint} (hs : Good pq s) : Good pq (State.sendTaint s ol t) := by
  unfold State.sendTaint
  repeat' first
    | with_reducible assumption
    | with_reducible refine goodOut_next ?_
    | (lift_lets; intro x; refine (fun (hx : Good pq x) => ?_) ?_; clear_value x)
    | (intro x; subst x)
    | with_reducible refine State.setOutq_good ?_
    | with_reducible refine State.slSend_good ?_
    | with_reducible refine State.wrapFld_good ?_
    | with_reducible refine ite_good (fun _ => ?_) (fun _ => ?_)
    | with_reducible refine iteOut_good (fun _ => ?_) (fun _ => ?_)
    | with_reducible refine foldl_good (fun _ _ _ => ?_) ?_
    | with_reducible refine foldl_fst (fun _ _ _ => ?_) ?_
    | with_reducible refine foldl_snd (fun _ _ _ => ?_) ?_
    | subst x
    | with_reducible split
    | dsimp only

theorem State.recordTaint_good {pq : List Instr × Prop} {s : State} {t : Taint} (hs : Good pq s) : Good pq (State.recordTaint s t) := by
  unfold State.recordTaint
  repeat' first
    | with_reducible assumption
    | with_reducible refine goodOut_next ?_
    | (lift_lets; intro x; refine (fun (hx : Good pq x) => ?_) ?_; clear_value x)
    | (intro x; subst x)
    | with_reducible refine State.markTainted_good ?_
    | with_reducible refine State.sendTaint_good ?_
    | with_reducible refine State.setErr_good ?_
    | with_reducible refine State.withStg_good _ ?_
    | with_reducible refine ite_good (fun _ => ?_) (fun _ => ?_)
    | with_reducible refine iteOut_good (fun _ => ?_) (fun _ => ?_)
    | with_reducible refine foldl_good (fun _ _ _ => ?_) ?_
    | with_reducible refine foldl_fst (fun _ _ _ => ?_) ?_
    | with_reducible refine foldl_snd (fun _ _ _ => ?_) ?_
    | subst x
    | with_reducible split
    | dsimp only

theorem State.taintWhole_good {pq : List Instr × Prop} {s : State} {ctx : Nat} (hs : Good pq s) : Good pq (State.taintWhole s ctx) := by
  unfold State.taintWhole
  repeat' first
    | with_reducible assumption
    | with_reducible refine goodOut_next ?_
    | (lift_lets; intro x; refine (fun (hx : Good pq x) => ?_) ?_; clear_value x)
    | (intro x; subst x)
    | with_reducible refine State.markTainted_good ?_
    | with_reducible refine State.withStg_good _ ?_
    | with_reducible refine ite_good (fun _ => ?_) (fun _ => ?_)
    | with_reducible refine iteOut_good (fun _ => ?_) (fun _ => ?_)
    | with_reducible refine foldl_good (fun _ _ _ => ?_) ?_
    | with_reducible refine foldl_fst (fun _ _ _ => ?_) ?_
    | with_reducible refine foldl_snd (fun _ _ _ => ?_) ?_
    | subst x
    | with_reducible split
    | dsimp only

-- FOR State.newWork
-- HAVE newWork State.newWork_good ?_
theorem State.newWork_good {pq : List Instr × Prop} {s t : State} {c rd : Nat} (hs : Good pq s) (ht : Good pq t) : Good pq (s.newWork c rd t) := by
  unfold State.newWork
  exact ite_good (fun _ => State.retSt_good hs) (fun _ => ht)

theorem State.abortTiles_good {pq : List Instr × Prop} {s : State} {c : Nat} {ctx : Nat} (hs : Good pq s) : Good pq (State.abortTiles s c ctx) := by
  unfold State.abortTiles
  repeat' first
    | with_reducible assumption
    | with_reducible refine goodOut_next ?_
    | (lift_lets; intro x; refine (fun (hx : Good pq x) => ?_) ?_; clear_value x)
    | (intro x; subst x)
    | with_reducible refine State.fenceWaited_good ?_
    | with_reducible refine State.lateRec_good ?_
    | with_reducible refine State.releaseLate_good ?_
    | with_reducible refine State.setMxe_good ?_
    | with_reducible refine State.setTileQ_good ?_
    | with_reducible refine State.showMxes_good ?_
    | with_reducible refine State.withBanks_good _ ?_
    | with_reducible refine ite_good (fun _ => ?_) (fun _ => ?_)
    | with_reducible refine iteOut_good (fun _ => ?_) (fun _ => ?_)
    | with_reducible refine foldl_good (fun _ _ _ => ?_) ?_
    | with_reducible refine foldl_fst (fun _ _ _ => ?_) ?_
    | with_reducible refine foldl_snd (fun _ _ _ => ?_) ?_
    | subst x
    | with_reducible split
    | dsimp only

theorem State.freeSummary_good {pq : List Instr × Prop} {s : State} {c : Nat} {k : ChainCmd} (hs : Good pq s) : Good pq (State.freeSummary s c k) := by
  unfold State.freeSummary
  repeat' first
    | with_reducible assumption
    | with_reducible refine goodOut_next ?_
    | (lift_lets; intro x; refine (fun (hx : Good pq x) => ?_) ?_; clear_value x)
    | (intro x; subst x)
    | with_reducible refine State.unreserve_good ?_
    | with_reducible refine ite_good (fun _ => ?_) (fun _ => ?_)
    | with_reducible refine iteOut_good (fun _ => ?_) (fun _ => ?_)
    | with_reducible refine foldl_good (fun _ _ _ => ?_) ?_
    | with_reducible refine foldl_fst (fun _ _ _ => ?_) ?_
    | with_reducible refine foldl_snd (fun _ _ _ => ?_) ?_
    | subst x
    | with_reducible split
    | dsimp only

theorem State.abortChains_good {pq : List Instr × Prop} {s : State} {c : Nat} {ctx : Nat} (hs : Good pq s) : Good pq (State.abortChains s c ctx) := by
  unfold State.abortChains
  repeat' first
    | with_reducible assumption
    | with_reducible refine goodOut_next ?_
    | (lift_lets; intro x; refine (fun (hx : Good pq x) => ?_) ?_; clear_value x)
    | (intro x; subst x)
    | with_reducible refine State.freeFte_good ?_
    | with_reducible refine State.freeSummary_good ?_
    | with_reducible refine State.leaveVxe_good ?_
    | with_reducible refine State.record_good ?_
    | with_reducible refine State.setChains_good ?_
    | with_reducible refine State.showMxes_good ?_
    | with_reducible refine ite_good (fun _ => ?_) (fun _ => ?_)
    | with_reducible refine iteOut_good (fun _ => ?_) (fun _ => ?_)
    | with_reducible refine foldl_good (fun _ _ _ => ?_) ?_
    | with_reducible refine foldl_fst (fun _ _ _ => ?_) ?_
    | with_reducible refine foldl_snd (fun _ _ _ => ?_) ?_
    | subst x
    | with_reducible split
    | dsimp only

theorem State.abortGathers_good {pq : List Instr × Prop} {s : State} {c : Nat} {ctx : Nat} (hs : Good pq s) : Good pq (State.abortGathers s c ctx) := by
  unfold State.abortGathers
  repeat' first
    | with_reducible assumption
    | with_reducible refine goodOut_next ?_
    | (lift_lets; intro x; refine (fun (hx : Good pq x) => ?_) ?_; clear_value x)
    | (intro x; subst x)
    | with_reducible refine State.record_good ?_
    | with_reducible refine State.setClu_good ?_
    | with_reducible refine ite_good (fun _ => ?_) (fun _ => ?_)
    | with_reducible refine iteOut_good (fun _ => ?_) (fun _ => ?_)
    | with_reducible refine foldl_good (fun _ _ _ => ?_) ?_
    | with_reducible refine foldl_fst (fun _ _ _ => ?_) ?_
    | with_reducible refine foldl_snd (fun _ _ _ => ?_) ?_
    | subst x
    | with_reducible split
    | dsimp only

theorem State.abortCores_good {pq : List Instr × Prop} {s : State} {ctx : Nat} (hs : Good pq s) : Good pq (State.abortCores s ctx) := by
  unfold State.abortCores
  repeat' first
    | with_reducible assumption
    | with_reducible refine goodOut_next ?_
    | (lift_lets; intro x; refine (fun (hx : Good pq x) => ?_) ?_; clear_value x)
    | (intro x; subst x)
    | with_reducible refine State.haltCores_good ?_
    | with_reducible refine ite_good (fun _ => ?_) (fun _ => ?_)
    | with_reducible refine iteOut_good (fun _ => ?_) (fun _ => ?_)
    | with_reducible refine foldl_good (fun _ _ _ => ?_) ?_
    | with_reducible refine foldl_fst (fun _ _ _ => ?_) ?_
    | with_reducible refine foldl_snd (fun _ _ _ => ?_) ?_
    | subst x
    | with_reducible split
    | dsimp only

theorem State.abortUpdates_good {pq : List Instr × Prop} {s0 : State} {ctx : Nat} (hs : Good pq s0) : Good pq (State.abortUpdates s0 ctx) := by
  unfold State.abortUpdates
  repeat' first
    | with_reducible assumption
    | with_reducible refine goodOut_next ?_
    | (lift_lets; intro x; refine (fun (hx : Good pq x) => ?_) ?_; clear_value x)
    | (intro x; subst x)
    | with_reducible refine State.addFld_good ?_
    | with_reducible refine State.finAborted_good ?_
    | with_reducible refine State.replayCommit_good ?_
    | with_reducible refine State.settleJournals_good ?_
    | with_reducible refine State.withUpd_good _ ?_
    | with_reducible refine ite_good (fun _ => ?_) (fun _ => ?_)
    | with_reducible refine iteOut_good (fun _ => ?_) (fun _ => ?_)
    | with_reducible refine foldl_good (fun _ _ _ => ?_) ?_
    | with_reducible refine foldl_fst (fun _ _ _ => ?_) ?_
    | with_reducible refine foldl_snd (fun _ _ _ => ?_) ?_
    | subst x
    | with_reducible split
    | dsimp only

theorem State.abortStages_good {pq : List Instr × Prop} {s : State} {ctx : Nat} (hs : Good pq s) : Good pq (State.abortStages s ctx) := by
  unfold State.abortStages
  repeat' first
    | with_reducible assumption
    | with_reducible refine goodOut_next ?_
    | (lift_lets; intro x; refine (fun (hx : Good pq x) => ?_) ?_; clear_value x)
    | (intro x; subst x)
    | with_reducible refine State.abortEntries_good ?_
    | with_reducible refine State.stopStage_good ?_
    | with_reducible refine State.withStg_good _ ?_
    | with_reducible refine ite_good (fun _ => ?_) (fun _ => ?_)
    | with_reducible refine iteOut_good (fun _ => ?_) (fun _ => ?_)
    | with_reducible refine foldl_good (fun _ _ _ => ?_) ?_
    | with_reducible refine foldl_fst (fun _ _ _ => ?_) ?_
    | with_reducible refine foldl_snd (fun _ _ _ => ?_) ?_
    | subst x
    | with_reducible split
    | dsimp only

theorem State.dropGroups_good {pq : List Instr × Prop} {s : State} {gone : Group → Bool} (hs : Good pq s) : Good pq (State.dropGroups s gone) := by
  unfold State.dropGroups
  repeat' first
    | with_reducible assumption
    | with_reducible refine goodOut_next ?_
    | (lift_lets; intro x; refine (fun (hx : Good pq x) => ?_) ?_; clear_value x)
    | (intro x; subst x)
    | with_reducible refine State.withCr_good _ ?_
    | with_reducible refine ite_good (fun _ => ?_) (fun _ => ?_)
    | with_reducible refine iteOut_good (fun _ => ?_) (fun _ => ?_)
    | with_reducible refine foldl_good (fun _ _ _ => ?_) ?_
    | with_reducible refine foldl_fst (fun _ _ _ => ?_) ?_
    | with_reducible refine foldl_snd (fun _ _ _ => ?_) ?_
    | subst x
    | with_reducible split
    | dsimp only

theorem State.endColl_good {pq : List Instr × Prop} {s : State} {k : Coll} {st : Nat} {bytes : Nat} (hs : Good pq s) : Good pq (State.endColl s k st bytes) := by
  unfold State.endColl
  repeat' first
    | with_reducible assumption
    | with_reducible refine goodOut_next ?_
    | (lift_lets; intro x; refine (fun (hx : Good pq x) => ?_) ?_; clear_value x)
    | (intro x; subst x)
    | with_reducible refine State.portRecord_good ?_
    | with_reducible refine State.withCr_good _ ?_
    | with_reducible refine ite_good (fun _ => ?_) (fun _ => ?_)
    | with_reducible refine iteOut_good (fun _ => ?_) (fun _ => ?_)
    | with_reducible refine foldl_good (fun _ _ _ => ?_) ?_
    | with_reducible refine foldl_fst (fun _ _ _ => ?_) ?_
    | with_reducible refine foldl_snd (fun _ _ _ => ?_) ?_
    | subst x
    | with_reducible split
    | dsimp only

theorem State.abortColls_good {pq : List Instr × Prop} {s : State} {ctx : Nat} (hs : Good pq s) : Good pq (State.abortColls s ctx) := by
  unfold State.abortColls
  repeat' first
    | with_reducible assumption
    | with_reducible refine goodOut_next ?_
    | (lift_lets; intro x; refine (fun (hx : Good pq x) => ?_) ?_; clear_value x)
    | (intro x; subst x)
    | with_reducible refine State.dropGroups_good ?_
    | with_reducible refine State.endColl_good ?_
    | with_reducible refine ite_good (fun _ => ?_) (fun _ => ?_)
    | with_reducible refine iteOut_good (fun _ => ?_) (fun _ => ?_)
    | with_reducible refine foldl_good (fun _ _ _ => ?_) ?_
    | with_reducible refine foldl_fst (fun _ _ _ => ?_) ?_
    | with_reducible refine foldl_snd (fun _ _ _ => ?_) ?_
    | subst x
    | with_reducible split
    | dsimp only

theorem State.abortPorters_good {pq : List Instr × Prop} {s : State} {ctx : Nat} (hs : Good pq s) : Good pq (State.abortPorters s ctx) := by
  unfold State.abortPorters
  repeat' first
    | with_reducible assumption
    | with_reducible refine goodOut_next ?_
    | (lift_lets; intro x; refine (fun (hx : Good pq x) => ?_) ?_; clear_value x)
    | (intro x; subst x)
    | with_reducible refine State.portRecord_good ?_
    | with_reducible refine State.withNet_good _ ?_
    | with_reducible refine ite_good (fun _ => ?_) (fun _ => ?_)
    | with_reducible refine iteOut_good (fun _ => ?_) (fun _ => ?_)
    | with_reducible refine foldl_good (fun _ _ _ => ?_) ?_
    | with_reducible refine foldl_fst (fun _ _ _ => ?_) ?_
    | with_reducible refine foldl_snd (fun _ _ _ => ?_) ?_
    | subst x
    | with_reducible split
    | dsimp only

theorem State.abortHostCmds_good {pq : List Instr × Prop} {s : State} {ctx : Nat} {but : List (Nat × W64)} (hs : Good pq s) : Good pq (State.abortHostCmds s ctx but) := by
  unfold State.abortHostCmds
  repeat' first
    | with_reducible assumption
    | with_reducible refine goodOut_next ?_
    | (lift_lets; intro x; refine (fun (hx : Good pq x) => ?_) ?_; clear_value x)
    | (intro x; subst x)
    | with_reducible refine State.finAborted_good ?_
    | with_reducible refine ite_good (fun _ => ?_) (fun _ => ?_)
    | with_reducible refine iteOut_good (fun _ => ?_) (fun _ => ?_)
    | with_reducible refine foldl_good (fun _ _ _ => ?_) ?_
    | with_reducible refine foldl_fst (fun _ _ _ => ?_) ?_
    | with_reducible refine foldl_snd (fun _ _ _ => ?_) ?_
    | subst x
    | with_reducible split
    | dsimp only

theorem State.abortSeals_good {pq : List Instr × Prop} {s : State} {ctx : Nat} (hs : Good pq s) : Good pq (State.abortSeals s ctx) := by
  unfold State.abortSeals
  repeat' first
    | with_reducible assumption
    | with_reducible refine goodOut_next ?_
    | (lift_lets; intro x; refine (fun (hx : Good pq x) => ?_) ?_; clear_value x)
    | (intro x; subst x)
    | with_reducible refine State.withLdg_good _ ?_
    | with_reducible refine ite_good (fun _ => ?_) (fun _ => ?_)
    | with_reducible refine iteOut_good (fun _ => ?_) (fun _ => ?_)
    | with_reducible refine foldl_good (fun _ _ _ => ?_) ?_
    | with_reducible refine foldl_fst (fun _ _ _ => ?_) ?_
    | with_reducible refine foldl_snd (fun _ _ _ => ?_) ?_
    | subst x
    | with_reducible split
    | dsimp only

theorem State.sendRelay_good {pq : List Instr × Prop} {s : State} {r : Relay} (hs : Good pq s) : Good pq (State.sendRelay s r) := by
  unfold State.sendRelay
  repeat' first
    | with_reducible assumption
    | with_reducible refine goodOut_next ?_
    | (lift_lets; intro x; refine (fun (hx : Good pq x) => ?_) ?_; clear_value x)
    | (intro x; subst x)
    | with_reducible refine State.inject_good ?_
    | with_reducible refine ite_good (fun _ => ?_) (fun _ => ?_)
    | with_reducible refine iteOut_good (fun _ => ?_) (fun _ => ?_)
    | with_reducible refine foldl_good (fun _ _ _ => ?_) ?_
    | with_reducible refine foldl_fst (fun _ _ _ => ?_) ?_
    | with_reducible refine foldl_snd (fun _ _ _ => ?_) ?_
    | subst x
    | with_reducible split
    | dsimp only

theorem State.startRelay_good {pq : List Instr × Prop} {s : State} {ctx : Nat} {cause : Nat} {origin : Nat} {gen : Nat} {but : Option Nat} (hs : Good pq s) : Good pq (State.startRelay s ctx cause origin gen but) := by
  unfold State.startRelay
  repeat' first
    | with_reducible assumption
    | with_reducible refine goodOut_next ?_
    | (lift_lets; intro x; refine (fun (hx : Good pq x) => ?_) ?_; clear_value x)
    | (intro x; subst x)
    | with_reducible refine State.event_good ?_
    | with_reducible refine State.lookup_good ?_
    | with_reducible refine State.sendRelay_good ?_
    | with_reducible refine State.withRcv_good _ ?_
    | with_reducible refine State.lookup_good_eq (by with_reducible assumption) ?_
    | with_reducible refine ite_good (fun _ => ?_) (fun _ => ?_)
    | with_reducible refine iteOut_good (fun _ => ?_) (fun _ => ?_)
    | with_reducible refine foldl_good (fun _ _ _ => ?_) ?_
    | with_reducible refine foldl_fst (fun _ _ _ => ?_) ?_
    | with_reducible refine foldl_snd (fun _ _ _ => ?_) ?_
    | subst x
    | with_reducible split
    | dsimp only

theorem State.originate_good {pq : List Instr × Prop} {s : State} {ctx : Nat} {cause : Nat} (hs : Good pq s) : Good pq (State.originate s ctx cause) := by
  unfold State.originate
  repeat' first
    | with_reducible assumption
    | with_reducible refine goodOut_next ?_
    | (lift_lets; intro x; refine (fun (hx : Good pq x) => ?_) ?_; clear_value x)
    | (intro x; subst x)
    | with_reducible refine State.startRelay_good ?_
    | with_reducible refine State.wrapFld_good ?_
    | with_reducible refine ite_good (fun _ => ?_) (fun _ => ?_)
    | with_reducible refine iteOut_good (fun _ => ?_) (fun _ => ?_)
    | with_reducible refine foldl_good (fun _ _ _ => ?_) ?_
    | with_reducible refine foldl_fst (fun _ _ _ => ?_) ?_
    | with_reducible refine foldl_snd (fun _ _ _ => ?_) ?_
    | subst x
    | with_reducible split
    | dsimp only

theorem State.abort_good {pq : List Instr × Prop} {s : State} {ctx : Nat} {cause : Nat} {relay : Bool} {reason : W64} {q : List (Nat × W64)} (hs : Good pq s) : Good pq (State.abort s ctx cause relay reason q) := by
  unfold State.abort
  repeat' first
    | with_reducible assumption
    | with_reducible refine goodOut_next ?_
    | (lift_lets; intro x; refine (fun (hx : Good pq x) => ?_) ?_; clear_value x)
    | (intro x; subst x)
    | with_reducible refine State.abortChains_good ?_
    | with_reducible refine State.abortColls_good ?_
    | with_reducible refine State.abortCores_good ?_
    | with_reducible refine State.abortGathers_good ?_
    | with_reducible refine State.abortHostCmds_good ?_
    | with_reducible refine State.abortPorters_good ?_
    | with_reducible refine State.abortSeals_good ?_
    | with_reducible refine State.abortStages_good ?_
    | with_reducible refine State.abortTiles_good ?_
    | with_reducible refine State.abortUpdates_good ?_
    | with_reducible refine State.addFld_good ?_
    | with_reducible refine State.finCmd_good ?_
    | with_reducible refine State.lose_good ?_
    | with_reducible refine State.originate_good ?_
    | with_reducible refine State.setBitF_good ?_
    | with_reducible refine State.withRcv_good _ ?_
    | with_reducible refine ite_good (fun _ => ?_) (fun _ => ?_)
    | with_reducible refine iteOut_good (fun _ => ?_) (fun _ => ?_)
    | with_reducible refine foldl_good (fun _ _ _ => ?_) ?_
    | with_reducible refine foldl_fst (fun _ _ _ => ?_) ?_
    | with_reducible refine foldl_snd (fun _ _ _ => ?_) ?_
    | subst x
    | with_reducible split
    | dsimp only

theorem State.abortFor_good {pq : List Instr × Prop} {s : State} {ctx : Nat} {cause : Nat} (hs : Good pq s) : Good pq (State.abortFor s ctx cause) := by
  unfold State.abortFor
  repeat' first
    | with_reducible assumption
    | with_reducible refine goodOut_next ?_
    | (lift_lets; intro x; refine (fun (hx : Good pq x) => ?_) ?_; clear_value x)
    | (intro x; subst x)
    | with_reducible refine State.abort_good ?_
    | with_reducible refine ite_good (fun _ => ?_) (fun _ => ?_)
    | with_reducible refine iteOut_good (fun _ => ?_) (fun _ => ?_)
    | with_reducible refine foldl_good (fun _ _ _ => ?_) ?_
    | with_reducible refine foldl_fst (fun _ _ _ => ?_) ?_
    | with_reducible refine foldl_snd (fun _ _ _ => ?_) ?_
    | subst x
    | with_reducible split
    | dsimp only

theorem State.finishAbort_good {pq : List Instr × Prop} {s : State} {j : AbortJob} (hs : Good pq s) : Good pq (State.finishAbort s j) := by
  unfold State.finishAbort
  repeat' first
    | with_reducible assumption
    | with_reducible refine goodOut_next ?_
    | (lift_lets; intro x; refine (fun (hx : Good pq x) => ?_) ?_; clear_value x)
    | (intro x; subst x)
    | with_reducible refine State.event_good ?_
    | with_reducible refine State.finCmd_good ?_
    | with_reducible refine State.setBitF_good ?_
    | with_reducible refine State.setFld_good ?_
    | with_reducible refine State.withRcv_good _ ?_
    | with_reducible refine State.wrapFld_good ?_
    | with_reducible refine ite_good (fun _ => ?_) (fun _ => ?_)
    | with_reducible refine iteOut_good (fun _ => ?_) (fun _ => ?_)
    | with_reducible refine foldl_good (fun _ _ _ => ?_) ?_
    | with_reducible refine foldl_fst (fun _ _ _ => ?_) ?_
    | with_reducible refine foldl_snd (fun _ _ _ => ?_) ?_
    | subst x
    | with_reducible split
    | dsimp only

theorem State.consume_good {pq : List Instr × Prop} {s : State} {d : Nat} {ctx : Nat} {unit : Nat} {addr : W64} (hs : Good pq s) : Good pq (State.consume s d ctx unit addr) := by
  unfold State.consume
  repeat' first
    | with_reducible assumption
    | with_reducible refine goodOut_next ?_
    | (lift_lets; intro x; refine (fun (hx : Good pq x) => ?_) ?_; clear_value x)
    | (intro x; subst x)
    | with_reducible refine State.abortFor_good ?_
    | with_reducible refine State.event_good ?_
    | with_reducible refine ite_good (fun _ => ?_) (fun _ => ?_)
    | with_reducible refine iteOut_good (fun _ => ?_) (fun _ => ?_)
    | with_reducible refine foldl_good (fun _ _ _ => ?_) ?_
    | with_reducible refine foldl_fst (fun _ _ _ => ?_) ?_
    | with_reducible refine foldl_snd (fun _ _ _ => ?_) ?_
    | subst x
    | with_reducible split
    | dsimp only

theorem State.consumeAll_good {pq : List Instr × Prop} {s : State} {cs : List Nat} {addr : W64} (hs : Good pq s) : Good pq (State.consumeAll s cs addr) := by
  unfold State.consumeAll
  repeat' first
    | with_reducible assumption
    | with_reducible refine goodOut_next ?_
    | (lift_lets; intro x; refine (fun (hx : Good pq x) => ?_) ?_; clear_value x)
    | (intro x; subst x)
    | with_reducible refine State.consume_good ?_
    | with_reducible refine ite_good (fun _ => ?_) (fun _ => ?_)
    | with_reducible refine iteOut_good (fun _ => ?_) (fun _ => ?_)
    | with_reducible refine foldl_good (fun _ _ _ => ?_) ?_
    | with_reducible refine foldl_fst (fun _ _ _ => ?_) ?_
    | with_reducible refine foldl_snd (fun _ _ _ => ?_) ?_
    | subst x
    | with_reducible split
    | dsimp only

theorem State.wake_good {pq : List Instr × Prop} {s : State} {l : Nat} (hs : Good pq s) : Good pq (State.wake s l) := by
  unfold State.wake
  repeat' first
    | with_reducible assumption
    | with_reducible refine goodOut_next ?_
    | (lift_lets; intro x; refine (fun (hx : Good pq x) => ?_) ?_; clear_value x)
    | (intro x; subst x)
    | with_reducible refine State.consumeAll_good ?_
    | with_reducible refine State.wakeWord_good ?_
    | with_reducible refine State.wakeWord_good_eq (by with_reducible assumption) ?_
    | with_reducible refine ite_good (fun _ => ?_) (fun _ => ?_)
    | with_reducible refine iteOut_good (fun _ => ?_) (fun _ => ?_)
    | with_reducible refine foldl_good (fun _ _ _ => ?_) ?_
    | with_reducible refine foldl_fst (fun _ _ _ => ?_) ?_
    | with_reducible refine foldl_snd (fun _ _ _ => ?_) ?_
    | subst x
    | with_reducible split
    | dsimp only

theorem State.act_good {pq : List Instr × Prop} {s : State} {ctx : Nat} {slot : Nat} {w0 : W64} {v : W64} (hs : Good pq s) : Good pq (State.act s ctx slot w0 v).2 := by
  unfold State.act
  repeat' first
    | with_reducible assumption
    | with_reducible refine goodOut_next ?_
    | (lift_lets; intro x; refine (fun (hx : Good pq x) => ?_) ?_; clear_value x)
    | (intro x; subst x)
    | with_reducible refine State.action_good ?_
    | with_reducible refine State.consume_good ?_
    | with_reducible refine State.action_good_eq (by with_reducible assumption) ?_
    | with_reducible refine ite_good (fun _ => ?_) (fun _ => ?_)
    | with_reducible refine iteOut_good (fun _ => ?_) (fun _ => ?_)
    | with_reducible refine foldl_good (fun _ _ _ => ?_) ?_
    | with_reducible refine foldl_fst (fun _ _ _ => ?_) ?_
    | with_reducible refine foldl_snd (fun _ _ _ => ?_) ?_
    | subst x
    | with_reducible split
    | dsimp only

theorem State.act_good_eq {pq : List Instr × Prop} {s : State} {ctx : Nat} {slot : Nat} {w0 : W64} {v : W64} {rr} (he : State.act s ctx slot w0 v = rr) (hs : Good pq s) : Good pq rr.2 := he ▸ State.act_good hs

theorem State.fenceCluster_good {pq : List Instr × Prop} {s : State} {c : Nat} {cause : Nat} (hs : Good pq s) : Good pq (State.fenceCluster s c cause) := by
  unfold State.fenceCluster
  repeat' first
    | with_reducible assumption
    | with_reducible refine goodOut_next ?_
    | (lift_lets; intro x; refine (fun (hx : Good pq x) => ?_) ?_; clear_value x)
    | (intro x; subst x)
    | with_reducible refine State.abortFor_good ?_
    | with_reducible refine State.fenceUnit_good ?_
    | with_reducible refine State.haltCores_good ?_
    | with_reducible refine State.setBitF_good ?_
    | with_reducible refine ite_good (fun _ => ?_) (fun _ => ?_)
    | with_reducible refine iteOut_good (fun _ => ?_) (fun _ => ?_)
    | with_reducible refine foldl_good (fun _ _ _ => ?_) ?_
    | with_reducible refine foldl_fst (fun _ _ _ => ?_) ?_
    | with_reducible refine foldl_snd (fun _ _ _ => ?_) ?_
    | subst x
    | with_reducible split
    | dsimp only

-- FOR State.strikeCore
-- HAVE strikeCore State.strikeCore_good
theorem State.strikeCore_good {pq : List Instr × Prop} {s : State} {c : Nat} {k : Nat} {ctx : Nat} (hs : Good pq s) : Good pq (State.strikeCore s c k ctx) := by
  unfold State.strikeCore
  have h1 := State.strikeRec_good (d := c / 12) (key := coreKey c k) (ctx := ctx) (sig := 0) hs
  generalize s.strikeRec (c / 12) (coreKey c k) ctx 0 = r at h1
  obtain ⟨s1, third⟩ := r
  dsimp only at h1 ⊢
  refine ite_good (fun _ => h1) (fun _ => ite_good (fun _ => State.fenceCluster_good (State.fenceUnit_good h1)) (fun _ => State.haltCore_good ?_))
  split
  · exact State.abortFor_good (State.fenceUnit_good h1)
  · exact State.fenceUnit_good h1

theorem State.agentFenced_good {pq : List Instr × Prop} {s : State} {slot : Nat} (hs : Good pq s) : Good pq (State.agentFenced s slot) := by
  unfold State.agentFenced
  repeat' first
    | with_reducible assumption
    | with_reducible refine goodOut_next ?_
    | (lift_lets; intro x; refine (fun (hx : Good pq x) => ?_) ?_; clear_value x)
    | (intro x; subst x)
    | with_reducible refine State.breakSlot_good ?_
    | with_reducible refine ite_good (fun _ => ?_) (fun _ => ?_)
    | with_reducible refine iteOut_good (fun _ => ?_) (fun _ => ?_)
    | with_reducible refine foldl_good (fun _ _ _ => ?_) ?_
    | with_reducible refine foldl_fst (fun _ _ _ => ?_) ?_
    | with_reducible refine foldl_snd (fun _ _ _ => ?_) ?_
    | subst x
    | with_reducible split
    | dsimp only

theorem State.startSelftest_good {pq : List Instr × Prop} {s : State} {page : Nat} {state : Fld} (hs : Good pq s) : Good pq (State.startSelftest s page state) := by
  unfold State.startSelftest
  repeat' first
    | with_reducible assumption
    | with_reducible refine goodOut_next ?_
    | (lift_lets; intro x; refine (fun (hx : Good pq x) => ?_) ?_; clear_value x)
    | (intro x; subst x)
    | with_reducible refine State.badSeq_good ?_
    | with_reducible refine State.setFld_good ?_
    | with_reducible refine ite_good (fun _ => ?_) (fun _ => ?_)
    | with_reducible refine iteOut_good (fun _ => ?_) (fun _ => ?_)
    | with_reducible refine foldl_good (fun _ _ _ => ?_) ?_
    | with_reducible refine foldl_fst (fun _ _ _ => ?_) ?_
    | with_reducible refine foldl_snd (fun _ _ _ => ?_) ?_
    | subst x
    | with_reducible split
    | dsimp only

theorem State.endSelftest_good {pq : List Instr × Prop} {s : State} {page : Nat} {state : Fld} {pass : Bool} (hs : Good pq s) : Good pq (State.endSelftest s page state pass) := by
  unfold State.endSelftest
  repeat' first
    | with_reducible assumption
    | with_reducible refine goodOut_next ?_
    | (lift_lets; intro x; refine (fun (hx : Good pq x) => ?_) ?_; clear_value x)
    | (intro x; subst x)
    | with_reducible refine State.setFld_good ?_
    | with_reducible refine ite_good (fun _ => ?_) (fun _ => ?_)
    | with_reducible refine iteOut_good (fun _ => ?_) (fun _ => ?_)
    | with_reducible refine foldl_good (fun _ _ _ => ?_) ?_
    | with_reducible refine foldl_fst (fun _ _ _ => ?_) ?_
    | with_reducible refine foldl_snd (fun _ _ _ => ?_) ?_
    | subst x
    | with_reducible split
    | dsimp only

theorem State.readmit_good {pq : List Instr × Prop} {s : State} {page : Nat} {state : Fld} {key : Nat} (hs : Good pq s) : Good pq (State.readmit s page state key) := by
  unfold State.readmit
  repeat' first
    | with_reducible assumption
    | with_reducible refine goodOut_next ?_
    | (lift_lets; intro x; refine (fun (hx : Good pq x) => ?_) ?_; clear_value x)
    | (intro x; subst x)
    | with_reducible refine State.badSeq_good ?_
    | with_reducible refine State.putUnit_good ?_
    | with_reducible refine State.setBitF_good ?_
    | with_reducible refine State.setFld_good ?_
    | with_reducible refine ite_good (fun _ => ?_) (fun _ => ?_)
    | with_reducible refine iteOut_good (fun _ => ?_) (fun _ => ?_)
    | with_reducible refine foldl_good (fun _ _ _ => ?_) ?_
    | with_reducible refine foldl_fst (fun _ _ _ => ?_) ?_
    | with_reducible refine foldl_snd (fun _ _ _ => ?_) ?_
    | subst x
    | with_reducible split
    | dsimp only

end Sys2Proof.Machine
end

