-- ==== Sys2Proof/Laws/GoodEngines.lean ====
section
/-! SUPPORT. Good is kept by the matrix and vector engines, cores and telemetry. -/

namespace Sys2Proof.Machine
-- The tactic scripts here have one shape for every operation, so some of their steps do nothing for some operations.
set_option linter.unusedTactic false
set_option linter.unreachableTactic false

theorem State.addCount_good {pq : List Instr × Prop} {s : State} {k : Nat} {n : Nat} (hs : Good pq s) : Good pq (State.addCount s k n) := by
  unfold State.addCount
  repeat' first
    | with_reducible assumption
    | with_reducible refine goodOut_next ?_
    | (lift_lets; intro x; refine (fun (hx : Good pq x) => ?_) ?_; clear_value x)
    | (intro x; subst x)
    | with_reducible refine State.setReg_good ?_
    | with_reducible refine ite_good (fun _ => ?_) (fun _ => ?_)
    | with_reducible refine iteOut_good (fun _ => ?_) (fun _ => ?_)
    | with_reducible refine foldl_good (fun _ _ _ => ?_) ?_
    | with_reducible refine foldl_fst (fun _ _ _ => ?_) ?_
    | with_reducible refine foldl_snd (fun _ _ _ => ?_) ?_
    | subst x
    | with_reducible split
    | dsimp only

theorem State.countEvents_good {pq : List Instr × Prop} {s : State} {d : Nat} {ctx : Nat} {fmt : Nat} {e : Events} (hs : Good pq s) : Good pq (State.countEvents s d ctx fmt e) := by
  unfold State.countEvents
  repeat' first
    | with_reducible assumption
    | with_reducible refine goodOut_next ?_
    | (lift_lets; intro x; refine (fun (hx : Good pq x) => ?_) ?_; clear_value x)
    | (intro x; subst x)
    | with_reducible refine State.addCount_good ?_
    | with_reducible refine ite_good (fun _ => ?_) (fun _ => ?_)
    | with_reducible refine iteOut_good (fun _ => ?_) (fun _ => ?_)
    | with_reducible refine foldl_good (fun _ _ _ => ?_) ?_
    | with_reducible refine foldl_fst (fun _ _ _ => ?_) ?_
    | with_reducible refine foldl_snd (fun _ _ _ => ?_) ?_
    | subst x
    | with_reducible split
    | dsimp only

theorem State.addBin_good {pq : List Instr × Prop} {s : State} {d : Nat} {stream : Nat} {bin : Nat} {n : Nat} (hs : Good pq s) : Good pq (State.addBin s d stream bin n) := by
  unfold State.addBin
  repeat' first
    | with_reducible assumption
    | with_reducible refine goodOut_next ?_
    | (lift_lets; intro x; refine (fun (hx : Good pq x) => ?_) ?_; clear_value x)
    | (intro x; subst x)
    | with_reducible refine State.withBins_good _ ?_
    | with_reducible refine ite_good (fun _ => ?_) (fun _ => ?_)
    | with_reducible refine iteOut_good (fun _ => ?_) (fun _ => ?_)
    | with_reducible refine foldl_good (fun _ _ _ => ?_) ?_
    | with_reducible refine foldl_fst (fun _ _ _ => ?_) ?_
    | with_reducible refine foldl_snd (fun _ _ _ => ?_) ?_
    | subst x
    | with_reducible split
    | dsimp only

theorem State.addWork_good {pq : List Instr × Prop} {s : State} {page : Nat} {n : Nat} (hs : Good pq s) : Good pq (State.addWork s page n) := by
  unfold State.addWork
  repeat' first
    | with_reducible assumption
    | with_reducible refine goodOut_next ?_
    | (lift_lets; intro x; refine (fun (hx : Good pq x) => ?_) ?_; clear_value x)
    | (intro x; subst x)
    | with_reducible refine State.withWork_good _ ?_
    | with_reducible refine ite_good (fun _ => ?_) (fun _ => ?_)
    | with_reducible refine iteOut_good (fun _ => ?_) (fun _ => ?_)
    | with_reducible refine foldl_good (fun _ _ _ => ?_) ?_
    | with_reducible refine foldl_fst (fun _ _ _ => ?_) ?_
    | with_reducible refine foldl_snd (fun _ _ _ => ?_) ?_
    | subst x
    | with_reducible split
    | dsimp only

theorem State.showStrikes_good {pq : List Instr × Prop} {s : State} {e : Nat} (hs : Good pq s) : Good pq (State.showStrikes s e) := by
  unfold State.showStrikes
  repeat' first
    | with_reducible assumption
    | with_reducible refine goodOut_next ?_
    | (lift_lets; intro x; refine (fun (hx : Good pq x) => ?_) ?_; clear_value x)
    | (intro x; subst x)
    | with_reducible refine State.setFld_good ?_
    | with_reducible refine ite_good (fun _ => ?_) (fun _ => ?_)
    | with_reducible refine iteOut_good (fun _ => ?_) (fun _ => ?_)
    | with_reducible refine foldl_good (fun _ _ _ => ?_) ?_
    | with_reducible refine foldl_fst (fun _ _ _ => ?_) ?_
    | with_reducible refine foldl_snd (fun _ _ _ => ?_) ?_
    | subst x
    | with_reducible split
    | dsimp only

theorem State.logStrike_good {pq : List Instr × Prop} {s : State} {e : Nat} {t : W64} {sig : W64} (hs : Good pq s) : Good pq (State.logStrike s e t sig) := by
  unfold State.logStrike
  repeat' first
    | with_reducible assumption
    | with_reducible refine goodOut_next ?_
    | (lift_lets; intro x; refine (fun (hx : Good pq x) => ?_) ?_; clear_value x)
    | (intro x; subst x)
    | with_reducible refine State.setReg_good ?_
    | with_reducible refine ite_good (fun _ => ?_) (fun _ => ?_)
    | with_reducible refine iteOut_good (fun _ => ?_) (fun _ => ?_)
    | with_reducible refine foldl_good (fun _ _ _ => ?_) ?_
    | with_reducible refine foldl_fst (fun _ _ _ => ?_) ?_
    | with_reducible refine foldl_snd (fun _ _ _ => ?_) ?_
    | subst x
    | with_reducible split
    | dsimp only

theorem State.strikeMxe_good {pq : List Instr × Prop} {s : State} {e : Nat} {ctx : Nat} {sig : W64} (hs : Good pq s) : Good pq (State.strikeMxe s e ctx sig) := by
  unfold State.strikeMxe
  repeat' first
    | with_reducible assumption
    | with_reducible refine goodOut_next ?_
    | (lift_lets; intro x; refine (fun (hx : Good pq x) => ?_) ?_; clear_value x)
    | (intro x; subst x)
    | with_reducible refine State.fenceMxe_good ?_
    | with_reducible refine State.logStrike_good ?_
    | with_reducible refine State.setErr_good ?_
    | with_reducible refine State.showStrikes_good ?_
    | with_reducible refine State.strikeRec_good ?_
    | with_reducible refine State.strikeRec_good_eq (by with_reducible assumption) ?_
    | with_reducible refine ite_good (fun _ => ?_) (fun _ => ?_)
    | with_reducible refine iteOut_good (fun _ => ?_) (fun _ => ?_)
    | with_reducible refine foldl_good (fun _ _ _ => ?_) ?_
    | with_reducible refine foldl_fst (fun _ _ _ => ?_) ?_
    | with_reducible refine foldl_snd (fun _ _ _ => ?_) ?_
    | subst x
    | with_reducible split
    | dsimp only

theorem State.mirrorFault_good {pq : List Instr × Prop} {s : State} {gone : Nat → Bool} {engine : Bool} (hs : Good pq s) : Good pq (State.mirrorFault s gone engine) := by
  unfold State.mirrorFault
  repeat' first
    | with_reducible assumption
    | with_reducible refine goodOut_next ?_
    | (lift_lets; intro x; refine (fun (hx : Good pq x) => ?_) ?_; clear_value x)
    | (intro x; subst x)
    | with_reducible refine State.withHost_good _ ?_
    | with_reducible refine ite_good (fun _ => ?_) (fun _ => ?_)
    | with_reducible refine iteOut_good (fun _ => ?_) (fun _ => ?_)
    | with_reducible refine foldl_good (fun _ _ _ => ?_) ?_
    | with_reducible refine foldl_fst (fun _ _ _ => ?_) ?_
    | with_reducible refine foldl_snd (fun _ _ _ => ?_) ?_
    | subst x
    | with_reducible split
    | dsimp only

theorem State.fenceStack_good {pq : List Instr × Prop} {s : State} {k : Nat} {cause : Nat} (hs : Good pq s) : Good pq (State.fenceStack s k cause) := by
  unfold State.fenceStack
  repeat' first
    | with_reducible assumption
    | with_reducible refine goodOut_next ?_
    | (lift_lets; intro x; refine (fun (hx : Good pq x) => ?_) ?_; clear_value x)
    | (intro x; subst x)
    | with_reducible refine State.fenceUnit_good ?_
    | with_reducible refine State.mirrorFault_good ?_
    | with_reducible refine ite_good (fun _ => ?_) (fun _ => ?_)
    | with_reducible refine iteOut_good (fun _ => ?_) (fun _ => ?_)
    | with_reducible refine foldl_good (fun _ _ _ => ?_) ?_
    | with_reducible refine foldl_fst (fun _ _ _ => ?_) ?_
    | with_reducible refine foldl_snd (fun _ _ _ => ?_) ?_
    | subst x
    | with_reducible split
    | dsimp only

theorem State.fenceChan_good {pq : List Instr × Prop} {s : State} {k : Nat} {ch : Nat} {cause : Nat} (hs : Good pq s) : Good pq (State.fenceChan s k ch cause) := by
  unfold State.fenceChan
  repeat' first
    | with_reducible assumption
    | with_reducible refine goodOut_next ?_
    | (lift_lets; intro x; refine (fun (hx : Good pq x) => ?_) ?_; clear_value x)
    | (intro x; subst x)
    | with_reducible refine State.fenceStack_good ?_
    | with_reducible refine State.fenceUnit_good ?_
    | with_reducible refine State.setFld_good ?_
    | with_reducible refine ite_good (fun _ => ?_) (fun _ => ?_)
    | with_reducible refine iteOut_good (fun _ => ?_) (fun _ => ?_)
    | with_reducible refine foldl_good (fun _ _ _ => ?_) ?_
    | with_reducible refine foldl_fst (fun _ _ _ => ?_) ?_
    | with_reducible refine foldl_snd (fun _ _ _ => ?_) ?_
    | subst x
    | with_reducible split
    | dsimp only

theorem State.fenceLp_good {pq : List Instr × Prop} {s : State} {k : Nat} {cause : Nat} (hs : Good pq s) : Good pq (State.fenceLp s k cause) := by
  unfold State.fenceLp
  repeat' first
    | with_reducible assumption
    | with_reducible refine goodOut_next ?_
    | (lift_lets; intro x; refine (fun (hx : Good pq x) => ?_) ?_; clear_value x)
    | (intro x; subst x)
    | with_reducible refine State.fenceUnit_good ?_
    | with_reducible refine State.setReg_good ?_
    | with_reducible refine ite_good (fun _ => ?_) (fun _ => ?_)
    | with_reducible refine iteOut_good (fun _ => ?_) (fun _ => ?_)
    | with_reducible refine foldl_good (fun _ _ _ => ?_) ?_
    | with_reducible refine foldl_fst (fun _ _ _ => ?_) ?_
    | with_reducible refine foldl_snd (fun _ _ _ => ?_) ?_
    | subst x
    | with_reducible split
    | dsimp only

theorem State.ueStamp_good {pq : List Instr × Prop} {s : State} {d : Nat} {key : Nat} (hs : Good pq s) : Good pq (State.ueStamp s d key).1 := by
  unfold State.ueStamp
  repeat' first
    | with_reducible assumption
    | with_reducible refine goodOut_next ?_
    | (lift_lets; intro x; refine (fun (hx : Good pq x) => ?_) ?_; clear_value x)
    | (intro x; subst x)
    | with_reducible refine State.putUnit_good ?_
    | with_reducible refine ite_good (fun _ => ?_) (fun _ => ?_)
    | with_reducible refine iteOut_good (fun _ => ?_) (fun _ => ?_)
    | with_reducible refine foldl_good (fun _ _ _ => ?_) ?_
    | with_reducible refine foldl_fst (fun _ _ _ => ?_) ?_
    | with_reducible refine foldl_snd (fun _ _ _ => ?_) ?_
    | subst x
    | with_reducible split
    | dsimp only

theorem State.ueStamp_good_eq {pq : List Instr × Prop} {s : State} {d : Nat} {key : Nat} {rr} (he : State.ueStamp s d key = rr) (hs : Good pq s) : Good pq rr.1 := he ▸ State.ueStamp_good hs

theorem State.lineUe_good {pq : List Instr × Prop} {s : State} {u : Nat} {moff : Nat} {ch : Nat} {addr : W64} (hs : Good pq s) : Good pq (State.lineUe s u moff ch addr) := by
  unfold State.lineUe
  repeat' first
    | with_reducible assumption
    | with_reducible refine goodOut_next ?_
    | (lift_lets; intro x; refine (fun (hx : Good pq x) => ?_) ?_; clear_value x)
    | (intro x; subst x)
    | with_reducible refine State.addFld_good ?_
    | with_reducible refine State.event_good ?_
    | with_reducible refine State.fenceChan_good ?_
    | with_reducible refine State.fenceLp_good ?_
    | with_reducible refine State.setLine_good ?_
    | with_reducible refine State.setPoison_good ?_
    | with_reducible refine State.ueStamp_good ?_
    | with_reducible refine State.ueStamp_good_eq (by with_reducible assumption) ?_
    | with_reducible refine ite_good (fun _ => ?_) (fun _ => ?_)
    | with_reducible refine iteOut_good (fun _ => ?_) (fun _ => ?_)
    | with_reducible refine foldl_good (fun _ _ _ => ?_) ?_
    | with_reducible refine foldl_fst (fun _ _ _ => ?_) ?_
    | with_reducible refine foldl_snd (fun _ _ _ => ?_) ?_
    | subst x
    | with_reducible split
    | dsimp only

theorem State.lineCe_good {pq : List Instr × Prop} {s : State} {u : Nat} (hs : Good pq s) : Good pq (State.lineCe s u) := by
  unfold State.lineCe
  repeat' first
    | with_reducible assumption
    | with_reducible refine goodOut_next ?_
    | (lift_lets; intro x; refine (fun (hx : Good pq x) => ?_) ?_; clear_value x)
    | (intro x; subst x)
    | with_reducible refine State.addFld_good ?_
    | with_reducible refine ite_good (fun _ => ?_) (fun _ => ?_)
    | with_reducible refine iteOut_good (fun _ => ?_) (fun _ => ?_)
    | with_reducible refine foldl_good (fun _ _ _ => ?_) ?_
    | with_reducible refine foldl_fst (fun _ _ _ => ?_) ?_
    | with_reducible refine foldl_snd (fun _ _ _ => ?_) ?_
    | subst x
    | with_reducible split
    | dsimp only

theorem State.sramErr_good {pq : List Instr × Prop} {s : State} {p : Place} {a : Nat} {ue : Bool} (hs : Good pq s) : Good pq (State.sramErr s p a ue) := by
  unfold State.sramErr
  repeat' first
    | with_reducible assumption
    | with_reducible refine goodOut_next ?_
    | (lift_lets; intro x; refine (fun (hx : Good pq x) => ?_) ?_; clear_value x)
    | (intro x; subst x)
    | with_reducible refine State.event_good ?_
    | with_reducible refine State.fenceCluster_good ?_
    | with_reducible refine State.fenceUnit_good ?_
    | with_reducible refine State.setPoison_good ?_
    | with_reducible refine State.ueStamp_good ?_
    | with_reducible refine State.withMs_good _ ?_
    | with_reducible refine State.ueStamp_good_eq (by with_reducible assumption) ?_
    | with_reducible refine ite_good (fun _ => ?_) (fun _ => ?_)
    | with_reducible refine iteOut_good (fun _ => ?_) (fun _ => ?_)
    | with_reducible refine foldl_good (fun _ _ _ => ?_) ?_
    | with_reducible refine foldl_fst (fun _ _ _ => ?_) ?_
    | with_reducible refine foldl_snd (fun _ _ _ => ?_) ?_
    | subst x
    | with_reducible split
    | dsimp only

theorem State.arrayErr_good {pq : List Instr × Prop} {s : State} {a : Nat} {e : ArrayErr} (hs : Good pq s) : Good pq (State.arrayErr s a e) := by
  unfold State.arrayErr
  repeat' first
    | with_reducible assumption
    | with_reducible refine goodOut_next ?_
    | (lift_lets; intro x; refine (fun (hx : Good pq x) => ?_) ?_; clear_value x)
    | (intro x; subst x)
    | with_reducible refine State.lineCe_good ?_
    | with_reducible refine State.lineUe_good ?_
    | with_reducible refine State.sramErr_good ?_
    | with_reducible refine ite_good (fun _ => ?_) (fun _ => ?_)
    | with_reducible refine iteOut_good (fun _ => ?_) (fun _ => ?_)
    | with_reducible refine foldl_good (fun _ _ _ => ?_) ?_
    | with_reducible refine foldl_fst (fun _ _ _ => ?_) ?_
    | with_reducible refine foldl_snd (fun _ _ _ => ?_) ?_
    | subst x
    | with_reducible split
    | dsimp only

theorem State.meet_good {pq : List Instr × Prop} {s : State} {hits : Hits} (hs : Good pq s) : Good pq (State.meet s hits) := by
  unfold State.meet
  repeat' first
    | with_reducible assumption
    | with_reducible refine goodOut_next ?_
    | (lift_lets; intro x; refine (fun (hx : Good pq x) => ?_) ?_; clear_value x)
    | (intro x; subst x)
    | with_reducible refine State.arrayErr_good ?_
    | with_reducible refine ite_good (fun _ => ?_) (fun _ => ?_)
    | with_reducible refine iteOut_good (fun _ => ?_) (fun _ => ?_)
    | with_reducible refine foldl_good (fun _ _ _ => ?_) ?_
    | with_reducible refine foldl_fst (fun _ _ _ => ?_) ?_
    | with_reducible refine foldl_snd (fun _ _ _ => ?_) ?_
    | subst x
    | with_reducible split
    | dsimp only

theorem State.pushTiles_good {pq : List Instr × Prop} {s : State} {c : Nat} {slot : Nat} {l : List TileCmd} (hs : Good pq s) : Good pq (State.pushTiles s c slot l) := by
  unfold State.pushTiles
  repeat' first
    | with_reducible assumption
    | with_reducible refine goodOut_next ?_
    | (lift_lets; intro x; refine (fun (hx : Good pq x) => ?_) ?_; clear_value x)
    | (intro x; subst x)
    | with_reducible refine State.setClu_good ?_
    | with_reducible refine ite_good (fun _ => ?_) (fun _ => ?_)
    | with_reducible refine iteOut_good (fun _ => ?_) (fun _ => ?_)
    | with_reducible refine foldl_good (fun _ _ _ => ?_) ?_
    | with_reducible refine foldl_fst (fun _ _ _ => ?_) ?_
    | with_reducible refine foldl_snd (fun _ _ _ => ?_) ?_
    | subst x
    | with_reducible split
    | dsimp only

theorem execTissue_good {pq : List Instr × Prop} {c : ClusterNo} {rd : Gpr} {rs1 : Gpr} {rs2 : Gpr} {s : State} (hs : Good pq s) : GoodOut pq (execTissue c rd rs1 rs2 s) := by
  unfold execTissue
  repeat' first
    | with_reducible assumption
    | with_reducible refine goodOut_next ?_
    | (lift_lets; intro x; refine (fun (hx : Good pq x) => ?_) ?_; clear_value x)
    | (intro x; subst x)
    | with_reducible refine State.newWork_good ?_ ?_
    | with_reducible refine State.pushTiles_good ?_
    | with_reducible refine State.retSt_good ?_
    | with_reducible refine ite_good (fun _ => ?_) (fun _ => ?_)
    | with_reducible refine iteOut_good (fun _ => ?_) (fun _ => ?_)
    | with_reducible refine foldl_good (fun _ _ _ => ?_) ?_
    | with_reducible refine foldl_fst (fun _ _ _ => ?_) ?_
    | with_reducible refine foldl_snd (fun _ _ _ => ?_) ?_
    | subst x
    | with_reducible split
    | dsimp only

theorem execTpair_good {pq : List Instr × Prop} {c : ClusterNo} {rd : Gpr} {rs1 : Gpr} {rs2 : Gpr} {s : State} (hs : Good pq s) : GoodOut pq (execTpair c rd rs1 rs2 s) := by
  unfold execTpair
  repeat' first
    | with_reducible assumption
    | with_reducible refine goodOut_next ?_
    | (lift_lets; intro x; refine (fun (hx : Good pq x) => ?_) ?_; clear_value x)
    | (intro x; subst x)
    | with_reducible refine State.newWork_good ?_ ?_
    | with_reducible refine State.pushTiles_good ?_
    | with_reducible refine State.retSt_good ?_
    | with_reducible refine ite_good (fun _ => ?_) (fun _ => ?_)
    | with_reducible refine iteOut_good (fun _ => ?_) (fun _ => ?_)
    | with_reducible refine foldl_good (fun _ _ _ => ?_) ?_
    | with_reducible refine foldl_fst (fun _ _ _ => ?_) ?_
    | with_reducible refine foldl_snd (fun _ _ _ => ?_) ?_
    | subst x
    | with_reducible split
    | dsimp only

theorem State.runOn_good {pq : List Instr × Prop} {s : State} {c : Nat} {t : TileCmd} {shared : Option SharedTile} {start : Nat → Nat} {faults : List CellFault} (hs : Good pq s) : Good pq (State.runOn s c t shared start faults).2.2.2 := by
  unfold State.runOn
  repeat' first
    | with_reducible assumption
    | with_reducible refine goodOut_next ?_
    | (lift_lets; intro x; refine (fun (hx : Good pq x) => ?_) ?_; clear_value x)
    | (intro x; subst x)
    | with_reducible refine State.countEvents_good ?_
    | with_reducible refine ite_good (fun _ => ?_) (fun _ => ?_)
    | with_reducible refine iteOut_good (fun _ => ?_) (fun _ => ?_)
    | with_reducible refine foldl_good (fun _ _ _ => ?_) ?_
    | with_reducible refine foldl_fst (fun _ _ _ => ?_) ?_
    | with_reducible refine foldl_snd (fun _ _ _ => ?_) ?_
    | subst x
    | with_reducible split
    | dsimp only

theorem State.runOn_good_eq {pq : List Instr × Prop} {s : State} {c : Nat} {t : TileCmd} {shared : Option SharedTile} {start : Nat → Nat} {faults : List CellFault} {rr} (he : State.runOn s c t shared start faults = rr) (hs : Good pq s) : Good pq rr.2.2.2 := he ▸ State.runOn_good hs

theorem State.setBank_good {pq : List Instr × Prop} {s : State} {e : Nat} {b : Nat} {m : KMap W32} (hs : Good pq s) : Good pq (State.setBank s e b m) := by
  unfold State.setBank
  repeat' first
    | with_reducible assumption
    | with_reducible refine goodOut_next ?_
    | (lift_lets; intro x; refine (fun (hx : Good pq x) => ?_) ?_; clear_value x)
    | (intro x; subst x)
    | with_reducible refine State.withBanks_good _ ?_
    | with_reducible refine ite_good (fun _ => ?_) (fun _ => ?_)
    | with_reducible refine iteOut_good (fun _ => ?_) (fun _ => ?_)
    | with_reducible refine foldl_good (fun _ _ _ => ?_) ?_
    | with_reducible refine foldl_fst (fun _ _ _ => ?_) ?_
    | with_reducible refine foldl_snd (fun _ _ _ => ?_) ?_
    | subst x
    | with_reducible split
    | dsimp only

theorem State.putRuns_good {pq : List Instr × Prop} {s : State} {e : Nat} {l : List TileRun} (hs : Good pq s) : Good pq (State.putRuns s e l) := by
  unfold State.putRuns
  repeat' first
    | with_reducible assumption
    | with_reducible refine goodOut_next ?_
    | (lift_lets; intro x; refine (fun (hx : Good pq x) => ?_) ?_; clear_value x)
    | (intro x; subst x)
    | with_reducible refine State.setMxe_good ?_
    | with_reducible refine ite_good (fun _ => ?_) (fun _ => ?_)
    | with_reducible refine iteOut_good (fun _ => ?_) (fun _ => ?_)
    | with_reducible refine foldl_good (fun _ _ _ => ?_) ?_
    | with_reducible refine foldl_fst (fun _ _ _ => ?_) ?_
    | with_reducible refine foldl_snd (fun _ _ _ => ?_) ?_
    | subst x
    | with_reducible split
    | dsimp only

theorem State.replaceRun_good {pq : List Instr × Prop} {s : State} {r : TileRun} {r1 : TileRun} (hs : Good pq s) : Good pq (State.replaceRun s r r1) := by
  unfold State.replaceRun
  repeat' first
    | with_reducible assumption
    | with_reducible refine goodOut_next ?_
    | (lift_lets; intro x; refine (fun (hx : Good pq x) => ?_) ?_; clear_value x)
    | (intro x; subst x)
    | with_reducible refine State.putRuns_good ?_
    | with_reducible refine ite_good (fun _ => ?_) (fun _ => ?_)
    | with_reducible refine iteOut_good (fun _ => ?_) (fun _ => ?_)
    | with_reducible refine foldl_good (fun _ _ _ => ?_) ?_
    | with_reducible refine foldl_fst (fun _ _ _ => ?_) ?_
    | with_reducible refine foldl_snd (fun _ _ _ => ?_) ?_
    | subst x
    | with_reducible split
    | dsimp only

theorem State.tileRecord_good {pq : List Instr × Prop} {s : State} {c : Nat} {slot : Nat} {unit : Nat} {t : TileCmd} {droop : Bool} {rql : Bool} {st : Nat} (hs : Good pq s) : Good pq (State.tileRecord s c slot unit t droop rql st) := by
  unfold State.tileRecord
  repeat' first
    | with_reducible assumption
    | with_reducible refine goodOut_next ?_
    | (lift_lets; intro x; refine (fun (hx : Good pq x) => ?_) ?_; clear_value x)
    | (intro x; subst x)
    | with_reducible refine State.lateRec_good ?_
    | with_reducible refine State.releaseLate_good ?_
    | with_reducible refine ite_good (fun _ => ?_) (fun _ => ?_)
    | with_reducible refine iteOut_good (fun _ => ?_) (fun _ => ?_)
    | with_reducible refine foldl_good (fun _ _ _ => ?_) ?_
    | with_reducible refine foldl_fst (fun _ _ _ => ?_) ?_
    | with_reducible refine foldl_snd (fun _ _ _ => ?_) ?_
    | subst x
    | with_reducible split
    | dsimp only

theorem State.settleTile_good {pq : List Instr × Prop} {s : State} {r : TileRun} (hs : Good pq s) : Good pq (State.settleTile s r) := by
  unfold State.settleTile
  repeat' first
    | with_reducible assumption
    | with_reducible refine goodOut_next ?_
    | (lift_lets; intro x; refine (fun (hx : Good pq x) => ?_) ?_; clear_value x)
    | (intro x; subst x)
    | with_reducible refine State.consume_good ?_
    | with_reducible refine State.event_good ?_
    | with_reducible refine State.fenceWaited_good ?_
    | with_reducible refine State.freeFte_good ?_
    | with_reducible refine State.mapFte_good ?_
    | with_reducible refine State.putRuns_good ?_
    | with_reducible refine State.setBank_good ?_
    | with_reducible refine State.setErr_good ?_
    | with_reducible refine State.showMxes_good ?_
    | with_reducible refine State.tileRecord_good ?_
    | with_reducible refine ite_good (fun _ => ?_) (fun _ => ?_)
    | with_reducible refine iteOut_good (fun _ => ?_) (fun _ => ?_)
    | with_reducible refine foldl_good (fun _ _ _ => ?_) ?_
    | with_reducible refine foldl_fst (fun _ _ _ => ?_) ?_
    | with_reducible refine foldl_snd (fun _ _ _ => ?_) ?_
    | subst x
    | with_reducible split
    | dsimp only

theorem State.refuseTile_good {pq : List Instr × Prop} {s : State} {c : Nat} {slot : Nat} {unit : Nat} {t : TileCmd} {st : Nat} (hs : Good pq s) : Good pq (State.refuseTile s c slot unit t st) := by
  unfold State.refuseTile
  repeat' first
    | with_reducible assumption
    | with_reducible refine goodOut_next ?_
    | (lift_lets; intro x; refine (fun (hx : Good pq x) => ?_) ?_; clear_value x)
    | (intro x; subst x)
    | with_reducible refine State.tileRecord_good ?_
    | with_reducible refine ite_good (fun _ => ?_) (fun _ => ?_)
    | with_reducible refine iteOut_good (fun _ => ?_) (fun _ => ?_)
    | with_reducible refine foldl_good (fun _ _ _ => ?_) ?_
    | with_reducible refine foldl_fst (fun _ _ _ => ?_) ?_
    | with_reducible refine foldl_snd (fun _ _ _ => ?_) ?_
    | subst x
    | with_reducible split
    | dsimp only

theorem State.startTile_good {pq : List Instr × Prop} {s : State} {c : Nat} {slot : Nat} {e : Nat} {t : TileCmd} {faults : List CellFault} (hs : Good pq s) : Good pq (State.startTile s c slot e t faults) := by
  unfold State.startTile
  repeat' first
    | with_reducible assumption
    | with_reducible refine goodOut_next ?_
    | (lift_lets; intro x; refine (fun (hx : Good pq x) => ?_) ?_; clear_value x)
    | (intro x; subst x)
    | with_reducible refine State.addFld_good ?_
    | with_reducible refine State.addWork_good ?_
    | with_reducible refine State.runOn_good ?_
    | with_reducible refine State.setBank_good ?_
    | with_reducible refine State.setMxe_good ?_
    | with_reducible refine State.settleTile_good ?_
    | with_reducible refine State.runOn_good_eq (by with_reducible assumption) ?_
    | with_reducible refine ite_good (fun _ => ?_) (fun _ => ?_)
    | with_reducible refine iteOut_good (fun _ => ?_) (fun _ => ?_)
    | with_reducible refine foldl_good (fun _ _ _ => ?_) ?_
    | with_reducible refine foldl_fst (fun _ _ _ => ?_) ?_
    | with_reducible refine foldl_snd (fun _ _ _ => ?_) ?_
    | subst x
    | with_reducible split
    | dsimp only

theorem State.refusePair_good {pq : List Instr × Prop} {s : State} {c : Nat} {slot : Nat} {unit : Nat} {p : TileCmd} {q : TileCmd} {stp : Nat} {stq : Nat} (hs : Good pq s) : Good pq (State.refusePair s c slot unit p q stp stq) := by
  unfold State.refusePair
  repeat' first
    | with_reducible assumption
    | with_reducible refine goodOut_next ?_
    | (lift_lets; intro x; refine (fun (hx : Good pq x) => ?_) ?_; clear_value x)
    | (intro x; subst x)
    | with_reducible refine State.refuseTile_good ?_
    | with_reducible refine ite_good (fun _ => ?_) (fun _ => ?_)
    | with_reducible refine iteOut_good (fun _ => ?_) (fun _ => ?_)
    | with_reducible refine foldl_good (fun _ _ _ => ?_) ?_
    | with_reducible refine foldl_fst (fun _ _ _ => ?_) ?_
    | with_reducible refine foldl_snd (fun _ _ _ => ?_) ?_
    | subst x
    | with_reducible split
    | dsimp only

theorem execTileExecute_good {pq : List Instr × Prop} {c : Met ClusterNo} {slot : Fin 4} {faults : List CellFault} {s : State} (hs : Good pq s) : GoodOut pq (execTileExecute c slot faults s) := by
  unfold execTileExecute
  repeat' first
    | with_reducible assumption
    | with_reducible refine goodOut_next ?_
    | (lift_lets; intro x; refine (fun (hx : Good pq x) => ?_) ?_; clear_value x)
    | (intro x; subst x)
    | with_reducible refine State.meet_good ?_
    | with_reducible refine State.refusePair_good ?_
    | with_reducible refine State.refuseTile_good ?_
    | with_reducible refine State.setTileQ_good ?_
    | with_reducible refine State.startTile_good ?_
    | with_reducible refine ite_good (fun _ => ?_) (fun _ => ?_)
    | with_reducible refine iteOut_good (fun _ => ?_) (fun _ => ?_)
    | with_reducible refine foldl_good (fun _ _ _ => ?_) ?_
    | with_reducible refine foldl_fst (fun _ _ _ => ?_) ?_
    | with_reducible refine foldl_snd (fun _ _ _ => ?_) ?_
    | subst x
    | with_reducible split
    | dsimp only

theorem State.checkTile_good {pq : List Instr × Prop} {s : State} {r : TileRun} (hs : Good pq s) : Good pq (State.checkTile s r) := by
  unfold State.checkTile
  repeat' first
    | with_reducible assumption
    | with_reducible refine goodOut_next ?_
    | (lift_lets; intro x; refine (fun (hx : Good pq x) => ?_) ?_; clear_value x)
    | (intro x; subst x)
    | with_reducible refine State.addFld_good ?_
    | with_reducible refine State.replaceRun_good ?_
    | with_reducible refine State.setBank_good ?_
    | with_reducible refine State.setErr_good ?_
    | with_reducible refine State.settleTile_good ?_
    | with_reducible refine State.showMxes_good ?_
    | with_reducible refine State.strikeMxe_good ?_
    | with_reducible refine ite_good (fun _ => ?_) (fun _ => ?_)
    | with_reducible refine iteOut_good (fun _ => ?_) (fun _ => ?_)
    | with_reducible refine foldl_good (fun _ _ _ => ?_) ?_
    | with_reducible refine foldl_fst (fun _ _ _ => ?_) ?_
    | with_reducible refine foldl_snd (fun _ _ _ => ?_) ?_
    | subst x
    | with_reducible split
    | dsimp only

theorem execTileCheckDone_good {pq : List Instr × Prop} {e : MxeNo} {s : State} (hs : Good pq s) : GoodOut pq (execTileCheckDone e s) := by
  unfold execTileCheckDone
  repeat' first
    | with_reducible assumption
    | with_reducible refine goodOut_next ?_
    | (lift_lets; intro x; refine (fun (hx : Good pq x) => ?_) ?_; clear_value x)
    | (intro x; subst x)
    | with_reducible refine State.checkTile_good ?_
    | with_reducible refine ite_good (fun _ => ?_) (fun _ => ?_)
    | with_reducible refine iteOut_good (fun _ => ?_) (fun _ => ?_)
    | with_reducible refine foldl_good (fun _ _ _ => ?_) ?_
    | with_reducible refine foldl_fst (fun _ _ _ => ?_) ?_
    | with_reducible refine foldl_snd (fun _ _ _ => ?_) ?_
    | subst x
    | with_reducible split
    | dsimp only

theorem State.rerunTile_good {pq : List Instr × Prop} {s : State} {r : TileRun} {faults : List CellFault} (hs : Good pq s) : Good pq (State.rerunTile s r faults) := by
  unfold State.rerunTile
  repeat' first
    | with_reducible assumption
    | with_reducible refine goodOut_next ?_
    | (lift_lets; intro x; refine (fun (hx : Good pq x) => ?_) ?_; clear_value x)
    | (intro x; subst x)
    | with_reducible refine State.addFld_good ?_
    | with_reducible refine State.addWork_good ?_
    | with_reducible refine State.replaceRun_good ?_
    | with_reducible refine State.runOn_good ?_
    | with_reducible refine State.setBank_good ?_
    | with_reducible refine State.settleTile_good ?_
    | with_reducible refine State.runOn_good_eq (by with_reducible assumption) ?_
    | with_reducible refine ite_good (fun _ => ?_) (fun _ => ?_)
    | with_reducible refine iteOut_good (fun _ => ?_) (fun _ => ?_)
    | with_reducible refine foldl_good (fun _ _ _ => ?_) ?_
    | with_reducible refine foldl_fst (fun _ _ _ => ?_) ?_
    | with_reducible refine foldl_snd (fun _ _ _ => ?_) ?_
    | subst x
    | with_reducible split
    | dsimp only

theorem execTileRerun_good {pq : List Instr × Prop} {e : Met MxeNo} {faults : List CellFault} {s : State} (hs : Good pq s) : GoodOut pq (execTileRerun e faults s) := by
  unfold execTileRerun
  repeat' first
    | with_reducible assumption
    | with_reducible refine goodOut_next ?_
    | (lift_lets; intro x; refine (fun (hx : Good pq x) => ?_) ?_; clear_value x)
    | (intro x; subst x)
    | with_reducible refine State.meet_good ?_
    | with_reducible refine State.rerunTile_good ?_
    | with_reducible refine ite_good (fun _ => ?_) (fun _ => ?_)
    | with_reducible refine iteOut_good (fun _ => ?_) (fun _ => ?_)
    | with_reducible refine foldl_good (fun _ _ _ => ?_) ?_
    | with_reducible refine foldl_fst (fun _ _ _ => ?_) ?_
    | with_reducible refine foldl_snd (fun _ _ _ => ?_) ?_
    | subst x
    | with_reducible split
    | dsimp only

theorem State.takeEntry_good {pq : List Instr × Prop} {s : State} {r : TileRun} (hs : Good pq s) : Good pq (State.takeEntry s r) := by
  unfold State.takeEntry
  repeat' first
    | with_reducible assumption
    | with_reducible refine goodOut_next ?_
    | (lift_lets; intro x; refine (fun (hx : Good pq x) => ?_) ?_; clear_value x)
    | (intro x; subst x)
    | with_reducible refine State.replaceRun_good ?_
    | with_reducible refine State.setMxe_good ?_
    | with_reducible refine State.showMxe_good ?_
    | with_reducible refine ite_good (fun _ => ?_) (fun _ => ?_)
    | with_reducible refine iteOut_good (fun _ => ?_) (fun _ => ?_)
    | with_reducible refine foldl_good (fun _ _ _ => ?_) ?_
    | with_reducible refine foldl_fst (fun _ _ _ => ?_) ?_
    | with_reducible refine foldl_snd (fun _ _ _ => ?_) ?_
    | subst x
    | with_reducible split
    | dsimp only

theorem execTileDrainStart_good {pq : List Instr × Prop} {e : MxeNo} {s : State} (hs : Good pq s) : GoodOut pq (execTileDrainStart e s) := by
  unfold execTileDrainStart
  repeat' first
    | with_reducible assumption
    | with_reducible refine goodOut_next ?_
    | (lift_lets; intro x; refine (fun (hx : Good pq x) => ?_) ?_; clear_value x)
    | (intro x; subst x)
    | with_reducible refine State.replaceRun_good ?_
    | with_reducible refine State.takeEntry_good ?_
    | with_reducible refine ite_good (fun _ => ?_) (fun _ => ?_)
    | with_reducible refine iteOut_good (fun _ => ?_) (fun _ => ?_)
    | with_reducible refine foldl_good (fun _ _ _ => ?_) ?_
    | with_reducible refine foldl_fst (fun _ _ _ => ?_) ?_
    | with_reducible refine foldl_snd (fun _ _ _ => ?_) ?_
    | subst x
    | with_reducible split
    | dsimp only

theorem execTileDrainEnd_good {pq : List Instr × Prop} {e : MxeNo} {s : State} (hs : Good pq s) : GoodOut pq (execTileDrainEnd e s) := by
  unfold execTileDrainEnd
  repeat' first
    | with_reducible assumption
    | with_reducible refine goodOut_next ?_
    | (lift_lets; intro x; refine (fun (hx : Good pq x) => ?_) ?_; clear_value x)
    | (intro x; subst x)
    | with_reducible refine State.mapFte_good ?_
    | with_reducible refine State.replaceRun_good ?_
    | with_reducible refine State.settleTile_good ?_
    | with_reducible refine ite_good (fun _ => ?_) (fun _ => ?_)
    | with_reducible refine iteOut_good (fun _ => ?_) (fun _ => ?_)
    | with_reducible refine foldl_good (fun _ _ _ => ?_) ?_
    | with_reducible refine foldl_fst (fun _ _ _ => ?_) ?_
    | with_reducible refine foldl_snd (fun _ _ _ => ?_) ?_
    | subst x
    | with_reducible split
    | dsimp only

theorem execIssueCapWindow_good {pq : List Instr × Prop} {e : MxeNo} {s : State} (hs : Good pq s) : GoodOut pq (execIssueCapWindow e s) := by
  unfold execIssueCapWindow
  repeat' first
    | with_reducible assumption
    | with_reducible refine goodOut_next ?_
    | (lift_lets; intro x; refine (fun (hx : Good pq x) => ?_) ?_; clear_value x)
    | (intro x; subst x)
    | with_reducible refine State.setFld_good ?_
    | with_reducible refine ite_good (fun _ => ?_) (fun _ => ?_)
    | with_reducible refine iteOut_good (fun _ => ?_) (fun _ => ?_)
    | with_reducible refine foldl_good (fun _ _ _ => ?_) ?_
    | with_reducible refine foldl_fst (fun _ _ _ => ?_) ?_
    | with_reducible refine foldl_snd (fun _ _ _ => ?_) ?_
    | subst x
    | with_reducible split
    | dsimp only

theorem execStrikeWindowExpire_good {pq : List Instr × Prop} {e : MxeNo} {s : State} (hs : Good pq s) : GoodOut pq (execStrikeWindowExpire e s) := by
  unfold execStrikeWindowExpire
  repeat' first
    | with_reducible assumption
    | with_reducible refine goodOut_next ?_
    | (lift_lets; intro x; refine (fun (hx : Good pq x) => ?_) ?_; clear_value x)
    | (intro x; subst x)
    | with_reducible refine State.showStrikes_good ?_
    | with_reducible refine ite_good (fun _ => ?_) (fun _ => ?_)
    | with_reducible refine iteOut_good (fun _ => ?_) (fun _ => ?_)
    | with_reducible refine foldl_good (fun _ _ _ => ?_) ?_
    | with_reducible refine foldl_fst (fun _ _ _ => ?_) ?_
    | with_reducible refine foldl_snd (fun _ _ _ => ?_) ?_
    | subst x
    | with_reducible split
    | dsimp only

theorem execMxeFence_good {pq : List Instr × Prop} {e : MxeNo} {s : State} (hs : Good pq s) : GoodOut pq (execMxeFence e s) := by
  unfold execMxeFence
  repeat' first
    | with_reducible assumption
    | with_reducible refine goodOut_next ?_
    | (lift_lets; intro x; refine (fun (hx : Good pq x) => ?_) ?_; clear_value x)
    | (intro x; subst x)
    | with_reducible refine State.fenceMxe_good ?_
    | with_reducible refine ite_good (fun _ => ?_) (fun _ => ?_)
    | with_reducible refine iteOut_good (fun _ => ?_) (fun _ => ?_)
    | with_reducible refine foldl_good (fun _ _ _ => ?_) ?_
    | with_reducible refine foldl_fst (fun _ _ _ => ?_) ?_
    | with_reducible refine foldl_snd (fun _ _ _ => ?_) ?_
    | subst x
    | with_reducible split
    | dsimp only

theorem execMxeSelftest_good {pq : List Instr × Prop} {e : MxeNo} {s : State} (hs : Good pq s) : GoodOut pq (execMxeSelftest e s) := by
  unfold execMxeSelftest
  repeat' first
    | with_reducible assumption
    | with_reducible refine goodOut_next ?_
    | (lift_lets; intro x; refine (fun (hx : Good pq x) => ?_) ?_; clear_value x)
    | (intro x; subst x)
    | with_reducible refine State.startSelftest_good ?_
    | with_reducible refine ite_good (fun _ => ?_) (fun _ => ?_)
    | with_reducible refine iteOut_good (fun _ => ?_) (fun _ => ?_)
    | with_reducible refine foldl_good (fun _ _ _ => ?_) ?_
    | with_reducible refine foldl_fst (fun _ _ _ => ?_) ?_
    | with_reducible refine foldl_snd (fun _ _ _ => ?_) ?_
    | subst x
    | with_reducible split
    | dsimp only

theorem execMxeSelftestDone_good {pq : List Instr × Prop} {e : MxeNo} {pass : Bool} {s : State} (hs : Good pq s) : GoodOut pq (execMxeSelftestDone e pass s) := by
  unfold execMxeSelftestDone
  repeat' first
    | with_reducible assumption
    | with_reducible refine goodOut_next ?_
    | (lift_lets; intro x; refine (fun (hx : Good pq x) => ?_) ?_; clear_value x)
    | (intro x; subst x)
    | with_reducible refine State.endSelftest_good ?_
    | with_reducible refine ite_good (fun _ => ?_) (fun _ => ?_)
    | with_reducible refine iteOut_good (fun _ => ?_) (fun _ => ?_)
    | with_reducible refine foldl_good (fun _ _ _ => ?_) ?_
    | with_reducible refine foldl_fst (fun _ _ _ => ?_) ?_
    | with_reducible refine foldl_snd (fun _ _ _ => ?_) ?_
    | subst x
    | with_reducible split
    | dsimp only

theorem execMxeReadmit_good {pq : List Instr × Prop} {e : MxeNo} {s : State} (hs : Good pq s) : GoodOut pq (execMxeReadmit e s) := by
  unfold execMxeReadmit
  repeat' first
    | with_reducible assumption
    | with_reducible refine goodOut_next ?_
    | (lift_lets; intro x; refine (fun (hx : Good pq x) => ?_) ?_; clear_value x)
    | (intro x; subst x)
    | with_reducible refine State.readmit_good ?_
    | with_reducible refine State.showMxe_good ?_
    | with_reducible refine State.showStrikes_good ?_
    | with_reducible refine ite_good (fun _ => ?_) (fun _ => ?_)
    | with_reducible refine iteOut_good (fun _ => ?_) (fun _ => ?_)
    | with_reducible refine foldl_good (fun _ _ _ => ?_) ?_
    | with_reducible refine foldl_fst (fun _ _ _ => ?_) ?_
    | with_reducible refine foldl_snd (fun _ _ _ => ?_) ?_
    | subst x
    | with_reducible split
    | dsimp only

theorem State.readClear_good {pq : List Instr × Prop} {s : State} {k : Nat} {m : W64} (hs : Good pq s) : Good pq (State.readClear s k m) := by
  unfold State.readClear
  repeat' first
    | with_reducible assumption
    | with_reducible refine goodOut_next ?_
    | (lift_lets; intro x; refine (fun (hx : Good pq x) => ?_) ?_; clear_value x)
    | (intro x; subst x)
    | with_reducible refine State.out_good ?_
    | with_reducible refine State.setReg_good ?_
    | with_reducible refine ite_good (fun _ => ?_) (fun _ => ?_)
    | with_reducible refine iteOut_good (fun _ => ?_) (fun _ => ?_)
    | with_reducible refine foldl_good (fun _ _ _ => ?_) ?_
    | with_reducible refine foldl_fst (fun _ _ _ => ?_) ?_
    | with_reducible refine foldl_snd (fun _ _ _ => ?_) ?_
    | subst x
    | with_reducible split
    | dsimp only

theorem execMxeChkRead_good {pq : List Instr × Prop} {e : MxeNo} {s : State} (hs : Good pq s) : GoodOut pq (execMxeChkRead e s) := by
  unfold execMxeChkRead
  repeat' first
    | with_reducible assumption
    | with_reducible refine goodOut_next ?_
    | (lift_lets; intro x; refine (fun (hx : Good pq x) => ?_) ?_; clear_value x)
    | (intro x; subst x)
    | with_reducible refine State.readClear_good ?_
    | with_reducible refine ite_good (fun _ => ?_) (fun _ => ?_)
    | with_reducible refine iteOut_good (fun _ => ?_) (fun _ => ?_)
    | with_reducible refine foldl_good (fun _ _ _ => ?_) ?_
    | with_reducible refine foldl_fst (fun _ _ _ => ?_) ?_
    | with_reducible refine foldl_snd (fun _ _ _ => ?_) ?_
    | subst x
    | with_reducible split
    | dsimp only

theorem execMxePerfRead_good {pq : List Instr × Prop} {e : MxeNo} {s : State} (hs : Good pq s) : GoodOut pq (execMxePerfRead e s) := by
  unfold execMxePerfRead
  repeat' first
    | with_reducible assumption
    | with_reducible refine goodOut_next ?_
    | (lift_lets; intro x; refine (fun (hx : Good pq x) => ?_) ?_; clear_value x)
    | (intro x; subst x)
    | with_reducible refine State.out_good ?_
    | with_reducible refine State.setReg_good ?_
    | with_reducible refine State.withWork_good _ ?_
    | with_reducible refine ite_good (fun _ => ?_) (fun _ => ?_)
    | with_reducible refine iteOut_good (fun _ => ?_) (fun _ => ?_)
    | with_reducible refine foldl_good (fun _ _ _ => ?_) ?_
    | with_reducible refine foldl_fst (fun _ _ _ => ?_) ?_
    | with_reducible refine foldl_snd (fun _ _ _ => ?_) ?_
    | subst x
    | with_reducible split
    | dsimp only

theorem State.branchTo_good {pq : List Instr × Prop} {s : State} {c : Nat} {off : W64} (hs : Good pq s) : Good pq (State.branchTo s c off) := by
  unfold State.branchTo
  repeat' first
    | with_reducible assumption
    | with_reducible refine goodOut_next ?_
    | (lift_lets; intro x; refine (fun (hx : Good pq x) => ?_) ?_; clear_value x)
    | (intro x; subst x)
    | with_reducible refine State.setPc_good ?_
    | with_reducible refine ite_good (fun _ => ?_) (fun _ => ?_)
    | with_reducible refine iteOut_good (fun _ => ?_) (fun _ => ?_)
    | with_reducible refine foldl_good (fun _ _ _ => ?_) ?_
    | with_reducible refine foldl_fst (fun _ _ _ => ?_) ?_
    | with_reducible refine foldl_snd (fun _ _ _ => ?_) ?_
    | subst x
    | with_reducible split
    | dsimp only

theorem State.scalarStep_good {pq : List Instr × Prop} (s : State) (c : Nat) (rd : Nat) (why : Why) (hs : Good pq s) : GoodOpt pq (fun r => r) (State.scalarStep s c rd why) := by
  unfold State.scalarStep
  repeat' first
    | with_reducible assumption
    | with_reducible refine goodOpt_some ?_
    | with_reducible refine goodOpt_none
    | with_reducible refine goodOut_next ?_
    | (lift_lets; intro x; refine (fun (hx : Good pq x) => ?_) ?_; clear_value x)
    | (intro x; subst x)
    | with_reducible refine State.branchTo_good ?_
    | with_reducible refine State.nextPc_good ?_
    | with_reducible refine State.ret_good ?_
    | with_reducible refine State.retSt_good ?_
    | with_reducible refine State.setChains_good ?_
    | with_reducible refine State.setClu_good ?_
    | with_reducible refine State.setScalar_good ?_
    | with_reducible refine iteOpt_good (fun _ => ?_) (fun _ => ?_)
    | with_reducible refine ite_good (fun _ => ?_) (fun _ => ?_)
    | with_reducible refine iteOut_good (fun _ => ?_) (fun _ => ?_)
    | with_reducible refine foldl_good (fun _ _ _ => ?_) ?_
    | with_reducible refine foldl_fst (fun _ _ _ => ?_) ?_
    | with_reducible refine foldl_snd (fun _ _ _ => ?_) ?_
    | subst x
    | with_reducible split
    | dsimp only

theorem State.scalarStep_good_eq {pq : List Instr × Prop} {s : State} {c : Nat} {rd : Nat} {why : Why} {rr} (he : State.scalarStep s c rd why = some rr) (hs : Good pq s) : Good pq rr := State.scalarStep_good s c rd why hs rr he

theorem State.scalarRun_good {pq : List Instr × Prop} {s : State} {c : Nat} {rd : Nat} {why : Why} (hs : Good pq s) : Good pq (State.scalarRun s c rd why) := by
  unfold State.scalarRun
  repeat' first
    | with_reducible assumption
    | with_reducible refine goodOut_next ?_
    | (lift_lets; intro x; refine (fun (hx : Good pq x) => ?_) ?_; clear_value x)
    | (intro x; subst x)
    | with_reducible refine State.wait_good ?_
    | with_reducible refine State.scalarStep_good_eq (by with_reducible assumption) ?_
    | with_reducible refine ite_good (fun _ => ?_) (fun _ => ?_)
    | with_reducible refine iteOut_good (fun _ => ?_) (fun _ => ?_)
    | with_reducible refine foldl_good (fun _ _ _ => ?_) ?_
    | with_reducible refine foldl_fst (fun _ _ _ => ?_) ?_
    | with_reducible refine foldl_snd (fun _ _ _ => ?_) ?_
    | subst x
    | with_reducible split
    | dsimp only

theorem State.wakeScalar_good {pq : List Instr × Prop} {s : State} {c : Nat} (hs : Good pq s) : Good pq (State.wakeScalar s c) := by
  unfold State.wakeScalar
  repeat' first
    | with_reducible assumption
    | with_reducible refine goodOut_next ?_
    | (lift_lets; intro x; refine (fun (hx : Good pq x) => ?_) ?_; clear_value x)
    | (intro x; subst x)
    | with_reducible refine State.unwait_good ?_
    | with_reducible refine State.scalarStep_good_eq (by with_reducible assumption) ?_
    | with_reducible refine ite_good (fun _ => ?_) (fun _ => ?_)
    | with_reducible refine iteOut_good (fun _ => ?_) (fun _ => ?_)
    | with_reducible refine foldl_good (fun _ _ _ => ?_) ?_
    | with_reducible refine foldl_fst (fun _ _ _ => ?_) ?_
    | with_reducible refine foldl_snd (fun _ _ _ => ?_) ?_
    | subst x
    | with_reducible split
    | dsimp only

theorem execCissue_good {pq : List Instr × Prop} {c : ClusterNo} {rd : Gpr} {rs1 : Gpr} {rs2 : Gpr} {s : State} (hs : Good pq s) : GoodOut pq (execCissue c rd rs1 rs2 s) := by
  unfold execCissue
  repeat' first
    | with_reducible assumption
    | with_reducible refine goodOut_next ?_
    | (lift_lets; intro x; refine (fun (hx : Good pq x) => ?_) ?_; clear_value x)
    | (intro x; subst x)
    | with_reducible refine State.newWork_good ?_ ?_
    | with_reducible refine State.scalarRun_good ?_
    | with_reducible refine ite_good (fun _ => ?_) (fun _ => ?_)
    | with_reducible refine iteOut_good (fun _ => ?_) (fun _ => ?_)
    | with_reducible refine foldl_good (fun _ _ _ => ?_) ?_
    | with_reducible refine foldl_fst (fun _ _ _ => ?_) ?_
    | with_reducible refine foldl_snd (fun _ _ _ => ?_) ?_
    | subst x
    | with_reducible split
    | dsimp only

theorem execSmovS_good {pq : List Instr × Prop} {c : ClusterNo} {sd : Fin 64} {rs1 : Gpr} {s : State} (hs : Good pq s) : GoodOut pq (execSmovS c sd rs1 s) := by
  unfold execSmovS
  repeat' first
    | with_reducible assumption
    | with_reducible refine goodOut_next ?_
    | (lift_lets; intro x; refine (fun (hx : Good pq x) => ?_) ?_; clear_value x)
    | (intro x; subst x)
    | with_reducible refine State.scalarRun_good ?_
    | with_reducible refine ite_good (fun _ => ?_) (fun _ => ?_)
    | with_reducible refine iteOut_good (fun _ => ?_) (fun _ => ?_)
    | with_reducible refine foldl_good (fun _ _ _ => ?_) ?_
    | with_reducible refine foldl_fst (fun _ _ _ => ?_) ?_
    | with_reducible refine foldl_snd (fun _ _ _ => ?_) ?_
    | subst x
    | with_reducible split
    | dsimp only

theorem execSmovG_good {pq : List Instr × Prop} {c : ClusterNo} {rd : Gpr} {ss : Fin 64} {s : State} (hs : Good pq s) : GoodOut pq (execSmovG c rd ss s) := by
  unfold execSmovG
  repeat' first
    | with_reducible assumption
    | with_reducible refine goodOut_next ?_
    | (lift_lets; intro x; refine (fun (hx : Good pq x) => ?_) ?_; clear_value x)
    | (intro x; subst x)
    | with_reducible refine State.scalarRun_good ?_
    | with_reducible refine ite_good (fun _ => ?_) (fun _ => ?_)
    | with_reducible refine iteOut_good (fun _ => ?_) (fun _ => ?_)
    | with_reducible refine foldl_good (fun _ _ _ => ?_) ?_
    | with_reducible refine foldl_fst (fun _ _ _ => ?_) ?_
    | with_reducible refine foldl_snd (fun _ _ _ => ?_) ?_
    | subst x
    | with_reducible split
    | dsimp only

theorem execBs_good {pq : List Instr × Prop} {c : ClusterNo} {cond : Cond} {uns : Bool} {s1 : Fin 64} {s2 : Fin 64} {off : BitVec 9} {s : State} (hs : Good pq s) : GoodOut pq (execBs c cond uns s1 s2 off s) := by
  unfold execBs
  repeat' first
    | with_reducible assumption
    | with_reducible refine goodOut_next ?_
    | (lift_lets; intro x; refine (fun (hx : Good pq x) => ?_) ?_; clear_value x)
    | (intro x; subst x)
    | with_reducible refine State.scalarRun_good ?_
    | with_reducible refine ite_good (fun _ => ?_) (fun _ => ?_)
    | with_reducible refine iteOut_good (fun _ => ?_) (fun _ => ?_)
    | with_reducible refine foldl_good (fun _ _ _ => ?_) ?_
    | with_reducible refine foldl_fst (fun _ _ _ => ?_) ?_
    | with_reducible refine foldl_snd (fun _ _ _ => ?_) ?_
    | subst x
    | with_reducible split
    | dsimp only

theorem State.popRing_good {pq : List Instr × Prop} {s : State} {c : Nat} {rd : Nat} {r : RingRec} {rest : List RingRec} (hs : Good pq s) : Good pq (State.popRing s c rd r rest) := by
  unfold State.popRing
  repeat' first
    | with_reducible assumption
    | with_reducible refine goodOut_next ?_
    | (lift_lets; intro x; refine (fun (hx : Good pq x) => ?_) ?_; clear_value x)
    | (intro x; subst x)
    | with_reducible refine State.nextPc_good ?_
    | with_reducible refine State.setClu_good ?_
    | with_reducible refine State.setG_good ?_
    | with_reducible refine ite_good (fun _ => ?_) (fun _ => ?_)
    | with_reducible refine iteOut_good (fun _ => ?_) (fun _ => ?_)
    | with_reducible refine foldl_good (fun _ _ _ => ?_) ?_
    | with_reducible refine foldl_fst (fun _ _ _ => ?_) ?_
    | with_reducible refine foldl_snd (fun _ _ _ => ?_) ?_
    | subst x
    | with_reducible split
    | dsimp only

theorem execCpop_good {pq : List Instr × Prop} {c : ClusterNo} {rd : Gpr} {s : State} (hs : Good pq s) : GoodOut pq (execCpop c rd s) := by
  unfold execCpop
  repeat' first
    | with_reducible assumption
    | with_reducible refine goodOut_next ?_
    | (lift_lets; intro x; refine (fun (hx : Good pq x) => ?_) ?_; clear_value x)
    | (intro x; subst x)
    | with_reducible refine State.illegal_good ?_
    | with_reducible refine State.popRing_good ?_
    | with_reducible refine State.wait_good ?_
    | with_reducible refine ite_good (fun _ => ?_) (fun _ => ?_)
    | with_reducible refine iteOut_good (fun _ => ?_) (fun _ => ?_)
    | with_reducible refine foldl_good (fun _ _ _ => ?_) ?_
    | with_reducible refine foldl_fst (fun _ _ _ => ?_) ?_
    | with_reducible refine foldl_snd (fun _ _ _ => ?_) ?_
    | subst x
    | with_reducible split
    | dsimp only

theorem execCpeek_good {pq : List Instr × Prop} {c : ClusterNo} {rd : Gpr} {s : State} (hs : Good pq s) : GoodOut pq (execCpeek c rd s) := by
  unfold execCpeek
  repeat' first
    | with_reducible assumption
    | with_reducible refine goodOut_next ?_
    | (lift_lets; intro x; refine (fun (hx : Good pq x) => ?_) ?_; clear_value x)
    | (intro x; subst x)
    | with_reducible refine State.illegal_good ?_
    | with_reducible refine State.popRing_good ?_
    | with_reducible refine State.ret_good ?_
    | with_reducible refine ite_good (fun _ => ?_) (fun _ => ?_)
    | with_reducible refine iteOut_good (fun _ => ?_) (fun _ => ?_)
    | with_reducible refine foldl_good (fun _ _ _ => ?_) ?_
    | with_reducible refine foldl_fst (fun _ _ _ => ?_) ?_
    | with_reducible refine foldl_snd (fun _ _ _ => ?_) ?_
    | subst x
    | with_reducible split
    | dsimp only

theorem execRingRecordRelease_good {pq : List Instr × Prop} {c : ClusterNo} {s : State} (hs : Good pq s) : GoodOut pq (execRingRecordRelease c s) := by
  unfold execRingRecordRelease
  repeat' first
    | with_reducible assumption
    | with_reducible refine goodOut_next ?_
    | (lift_lets; intro x; refine (fun (hx : Good pq x) => ?_) ?_; clear_value x)
    | (intro x; subst x)
    | with_reducible refine State.releaseRec_good ?_
    | with_reducible refine ite_good (fun _ => ?_) (fun _ => ?_)
    | with_reducible refine iteOut_good (fun _ => ?_) (fun _ => ?_)
    | with_reducible refine foldl_good (fun _ _ _ => ?_) ?_
    | with_reducible refine foldl_fst (fun _ _ _ => ?_) ?_
    | with_reducible refine foldl_snd (fun _ _ _ => ?_) ?_
    | subst x
    | with_reducible split
    | dsimp only

theorem State.deliver_good {pq : List Instr × Prop} {s : State} {c : Nat} {r : Nat} {x : Summary} (hs : Good pq s) : Good pq (State.deliver s c r x) := by
  unfold State.deliver
  repeat' first
    | with_reducible assumption
    | with_reducible refine goodOut_next ?_
    | (lift_lets; intro x; refine (fun (hx : Good pq x) => ?_) ?_; clear_value x)
    | (intro x; subst x)
    | with_reducible refine State.setScalar_good ?_
    | with_reducible refine ite_good (fun _ => ?_) (fun _ => ?_)
    | with_reducible refine iteOut_good (fun _ => ?_) (fun _ => ?_)
    | with_reducible refine foldl_good (fun _ _ _ => ?_) ?_
    | with_reducible refine foldl_fst (fun _ _ _ => ?_) ?_
    | with_reducible refine foldl_snd (fun _ _ _ => ?_) ?_
    | subst x
    | with_reducible split
    | dsimp only

theorem State.finChain_good {pq : List Instr × Prop} {s : State} {c : Nat} {unit : Nat} {k : ChainCmd} {droop : Bool} {st : Nat} {x : Summary} (hs : Good pq s) : Good pq (State.finChain s c unit k droop st x) := by
  unfold State.finChain
  repeat' first
    | with_reducible assumption
    | with_reducible refine goodOut_next ?_
    | (lift_lets; intro x; refine (fun (hx : Good pq x) => ?_) ?_; clear_value x)
    | (intro x; subst x)
    | with_reducible refine State.deliver_good ?_
    | with_reducible refine State.record_good ?_
    | with_reducible refine State.unreserve_good ?_
    | with_reducible refine State.wakeScalar_good ?_
    | with_reducible refine ite_good (fun _ => ?_) (fun _ => ?_)
    | with_reducible refine iteOut_good (fun _ => ?_) (fun _ => ?_)
    | with_reducible refine foldl_good (fun _ _ _ => ?_) ?_
    | with_reducible refine foldl_fst (fun _ _ _ => ?_) ?_
    | with_reducible refine foldl_snd (fun _ _ _ => ?_) ?_
    | subst x
    | with_reducible split
    | dsimp only

theorem State.dropChain_good {pq : List Instr × Prop} {s : State} {v : Nat} {r : ChainRun} (hs : Good pq s) : Good pq (State.dropChain s v r) := by
  unfold State.dropChain
  repeat' first
    | with_reducible assumption
    | with_reducible refine goodOut_next ?_
    | (lift_lets; intro x; refine (fun (hx : Good pq x) => ?_) ?_; clear_value x)
    | (intro x; subst x)
    | with_reducible refine State.freeFte_good ?_
    | with_reducible refine State.leaveVxe_good ?_
    | with_reducible refine State.mapFte_good ?_
    | with_reducible refine State.showMxes_good ?_
    | with_reducible refine ite_good (fun _ => ?_) (fun _ => ?_)
    | with_reducible refine iteOut_good (fun _ => ?_) (fun _ => ?_)
    | with_reducible refine foldl_good (fun _ _ _ => ?_) ?_
    | with_reducible refine foldl_fst (fun _ _ _ => ?_) ?_
    | with_reducible refine foldl_snd (fun _ _ _ => ?_) ?_
    | subst x
    | with_reducible split
    | dsimp only

theorem State.endRun_good {pq : List Instr × Prop} {s : State} {v : Nat} {r : ChainRun} {st : Nat} {x : Summary} (hs : Good pq s) : Good pq (State.endRun s v r st x) := by
  unfold State.endRun
  repeat' first
    | with_reducible assumption
    | with_reducible refine goodOut_next ?_
    | (lift_lets; intro x; refine (fun (hx : Good pq x) => ?_) ?_; clear_value x)
    | (intro x; subst x)
    | with_reducible refine State.addFld_good ?_
    | with_reducible refine State.consume_good ?_
    | with_reducible refine State.dropChain_good ?_
    | with_reducible refine State.finChain_good ?_
    | with_reducible refine State.setErr_good ?_
    | with_reducible refine ite_good (fun _ => ?_) (fun _ => ?_)
    | with_reducible refine iteOut_good (fun _ => ?_) (fun _ => ?_)
    | with_reducible refine foldl_good (fun _ _ _ => ?_) ?_
    | with_reducible refine foldl_fst (fun _ _ _ => ?_) ?_
    | with_reducible refine foldl_snd (fun _ _ _ => ?_) ?_
    | subst x
    | with_reducible split
    | dsimp only

theorem State.takeChain_good {pq : List Instr × Prop} {s : State} {c : Nat} {k : ChainCmd} (hs : Good pq s) : Good pq (State.takeChain s c k) := by
  unfold State.takeChain
  repeat' first
    | with_reducible assumption
    | with_reducible refine goodOut_next ?_
    | (lift_lets; intro x; refine (fun (hx : Good pq x) => ?_) ?_; clear_value x)
    | (intro x; subst x)
    | with_reducible refine State.setChains_good ?_
    | with_reducible refine ite_good (fun _ => ?_) (fun _ => ?_)
    | with_reducible refine iteOut_good (fun _ => ?_) (fun _ => ?_)
    | with_reducible refine foldl_good (fun _ _ _ => ?_) ?_
    | with_reducible refine foldl_fst (fun _ _ _ => ?_) ?_
    | with_reducible refine foldl_snd (fun _ _ _ => ?_) ?_
    | subst x
    | with_reducible split
    | dsimp only

theorem State.startChain_good {pq : List Instr × Prop} {s : State} {v : Nat} {k : ChainCmd} (hs : Good pq s) : Good pq (State.startChain s v k) := by
  unfold State.startChain
  repeat' first
    | with_reducible assumption
    | with_reducible refine goodOut_next ?_
    | (lift_lets; intro x; refine (fun (hx : Good pq x) => ?_) ?_; clear_value x)
    | (intro x; subst x)
    | with_reducible refine State.consume_good ?_
    | with_reducible refine State.finChain_good ?_
    | with_reducible refine State.setErr_good ?_
    | with_reducible refine State.setVxe_good ?_
    | with_reducible refine State.showVxe_good ?_
    | with_reducible refine ite_good (fun _ => ?_) (fun _ => ?_)
    | with_reducible refine iteOut_good (fun _ => ?_) (fun _ => ?_)
    | with_reducible refine foldl_good (fun _ _ _ => ?_) ?_
    | with_reducible refine foldl_fst (fun _ _ _ => ?_) ?_
    | with_reducible refine foldl_snd (fun _ _ _ => ?_) ?_
    | subst x
    | with_reducible split
    | dsimp only

theorem execChainStart_good {pq : List Instr × Prop} {v : Met VxeNo} {s : State} (hs : Good pq s) : GoodOut pq (execChainStart v s) := by
  unfold execChainStart
  repeat' first
    | with_reducible assumption
    | with_reducible refine goodOut_next ?_
    | (lift_lets; intro x; refine (fun (hx : Good pq x) => ?_) ?_; clear_value x)
    | (intro x; subst x)
    | with_reducible refine State.finChain_good ?_
    | with_reducible refine State.meet_good ?_
    | with_reducible refine State.startChain_good ?_
    | with_reducible refine State.takeChain_good ?_
    | with_reducible refine ite_good (fun _ => ?_) (fun _ => ?_)
    | with_reducible refine iteOut_good (fun _ => ?_) (fun _ => ?_)
    | with_reducible refine foldl_good (fun _ _ _ => ?_) ?_
    | with_reducible refine foldl_fst (fun _ _ _ => ?_) ?_
    | with_reducible refine foldl_snd (fun _ _ _ => ?_) ?_
    | subst x
    | with_reducible split
    | dsimp only

theorem State.stageEntry_good {pq : List Instr × Prop} {s : State} {c : Nat} {k : ChainCmd} {t : Nat} {x : Fte} (hs : Good pq s) : Good pq (State.stageEntry s c k t x) := by
  unfold State.stageEntry
  repeat' first
    | with_reducible assumption
    | with_reducible refine goodOut_next ?_
    | (lift_lets; intro x; refine (fun (hx : Good pq x) => ?_) ?_; clear_value x)
    | (intro x; subst x)
    | with_reducible refine State.storeBytes_good ?_
    | with_reducible refine ite_good (fun _ => ?_) (fun _ => ?_)
    | with_reducible refine iteOut_good (fun _ => ?_) (fun _ => ?_)
    | with_reducible refine foldl_good (fun _ _ _ => ?_) ?_
    | with_reducible refine foldl_fst (fun _ _ _ => ?_) ?_
    | with_reducible refine foldl_snd (fun _ _ _ => ?_) ?_
    | subst x
    | with_reducible split
    | dsimp only

theorem execChainEntryClaim_good {pq : List Instr × Prop} {v : VxeNo} {s : State} (hs : Good pq s) : GoodOut pq (execChainEntryClaim v s) := by
  unfold execChainEntryClaim
  repeat' first
    | with_reducible assumption
    | with_reducible refine goodOut_next ?_
    | (lift_lets; intro x; refine (fun (hx : Good pq x) => ?_) ?_; clear_value x)
    | (intro x; subst x)
    | with_reducible refine State.endRun_good ?_
    | with_reducible refine State.freeFte_good ?_
    | with_reducible refine State.mapFte_good ?_
    | with_reducible refine State.setVxe_good ?_
    | with_reducible refine State.showMxes_good ?_
    | with_reducible refine State.showVxe_good ?_
    | with_reducible refine State.stageEntry_good ?_
    | with_reducible refine ite_good (fun _ => ?_) (fun _ => ?_)
    | with_reducible refine iteOut_good (fun _ => ?_) (fun _ => ?_)
    | with_reducible refine foldl_good (fun _ _ _ => ?_) ?_
    | with_reducible refine foldl_fst (fun _ _ _ => ?_) ?_
    | with_reducible refine foldl_snd (fun _ _ _ => ?_) ?_
    | subst x
    | with_reducible split
    | dsimp only

theorem State.keepSums_good {pq : List Instr × Prop} {s : State} {c : Nat} {r : ChainRun} {sums : List (V × V)} {poison : Bool} (hs : Good pq s) : Good pq (State.keepSums s c r sums poison) := by
  unfold State.keepSums
  repeat' first
    | with_reducible assumption
    | with_reducible refine goodOut_next ?_
    | (lift_lets; intro x; refine (fun (hx : Good pq x) => ?_) ?_; clear_value x)
    | (intro x; subst x)
    | with_reducible refine State.setClu_good ?_
    | with_reducible refine ite_good (fun _ => ?_) (fun _ => ?_)
    | with_reducible refine iteOut_good (fun _ => ?_) (fun _ => ?_)
    | with_reducible refine foldl_good (fun _ _ _ => ?_) ?_
    | with_reducible refine foldl_fst (fun _ _ _ => ?_) ?_
    | with_reducible refine foldl_snd (fun _ _ _ => ?_) ?_
    | subst x
    | with_reducible split
    | dsimp only

theorem State.chainWrite_good {pq : List Instr × Prop} {s : State} {c : Nat} {r : ChainRun} {o : PassOut} (hs : Good pq s) : Good pq (State.chainWrite s c r o).1 := by
  unfold State.chainWrite
  repeat' first
    | with_reducible assumption
    | with_reducible refine goodOut_next ?_
    | (lift_lets; intro x; refine (fun (hx : Good pq x) => ?_) ?_; clear_value x)
    | (intro x; subst x)
    | with_reducible refine State.keepSums_good ?_
    | with_reducible refine State.storeFields_good ?_
    | with_reducible refine ite_good (fun _ => ?_) (fun _ => ?_)
    | with_reducible refine iteOut_good (fun _ => ?_) (fun _ => ?_)
    | with_reducible refine foldl_good (fun _ _ _ => ?_) ?_
    | with_reducible refine foldl_fst (fun _ _ _ => ?_) ?_
    | with_reducible refine foldl_snd (fun _ _ _ => ?_) ?_
    | subst x
    | with_reducible split
    | dsimp only

theorem State.chainWrite_good_eq {pq : List Instr × Prop} {s : State} {c : Nat} {r : ChainRun} {o : PassOut} {rr} (he : State.chainWrite s c r o = rr) (hs : Good pq s) : Good pq rr.1 := he ▸ State.chainWrite_good hs

theorem State.chainCount_good {pq : List Instr × Prop} {s : State} {v : Nat} {r : ChainRun} {o : PassOut} {ev : Events} (hs : Good pq s) : Good pq (State.chainCount s v r o ev) := by
  unfold State.chainCount
  repeat' first
    | with_reducible assumption
    | with_reducible refine goodOut_next ?_
    | (lift_lets; intro x; refine (fun (hx : Good pq x) => ?_) ?_; clear_value x)
    | (intro x; subst x)
    | with_reducible refine State.addBin_good ?_
    | with_reducible refine State.addWork_good ?_
    | with_reducible refine State.countEvents_good ?_
    | with_reducible refine State.setErr_good ?_
    | with_reducible refine ite_good (fun _ => ?_) (fun _ => ?_)
    | with_reducible refine iteOut_good (fun _ => ?_) (fun _ => ?_)
    | with_reducible refine foldl_good (fun _ _ _ => ?_) ?_
    | with_reducible refine foldl_fst (fun _ _ _ => ?_) ?_
    | with_reducible refine foldl_snd (fun _ _ _ => ?_) ?_
    | subst x
    | with_reducible split
    | dsimp only

theorem State.runChain_good {pq : List Instr × Prop} {s : State} {v : Nat} {r : ChainRun} (hs : Good pq s) : Good pq (State.runChain s v r) := by
  unfold State.runChain
  repeat' first
    | with_reducible assumption
    | with_reducible refine goodOut_next ?_
    | (lift_lets; intro x; refine (fun (hx : Good pq x) => ?_) ?_; clear_value x)
    | (intro x; subst x)
    | with_reducible refine State.chainCount_good ?_
    | with_reducible refine State.chainWrite_good ?_
    | with_reducible refine State.endRun_good ?_
    | with_reducible refine State.chainWrite_good_eq (by with_reducible assumption) ?_
    | with_reducible refine ite_good (fun _ => ?_) (fun _ => ?_)
    | with_reducible refine iteOut_good (fun _ => ?_) (fun _ => ?_)
    | with_reducible refine foldl_good (fun _ _ _ => ?_) ?_
    | with_reducible refine foldl_fst (fun _ _ _ => ?_) ?_
    | with_reducible refine foldl_snd (fun _ _ _ => ?_) ?_
    | subst x
    | with_reducible split
    | dsimp only

theorem State.strikeVxe_good {pq : List Instr × Prop} {s : State} {v : Nat} {ctx : Nat} (hs : Good pq s) : Good pq (State.strikeVxe s v ctx) := by
  unfold State.strikeVxe
  repeat' first
    | with_reducible assumption
    | with_reducible refine goodOut_next ?_
    | (lift_lets; intro x; refine (fun (hx : Good pq x) => ?_) ?_; clear_value x)
    | (intro x; subst x)
    | with_reducible refine State.fenceVxe_good ?_
    | with_reducible refine State.strikeRec_good ?_
    | with_reducible refine State.strikeRec_good_eq (by with_reducible assumption) ?_
    | with_reducible refine ite_good (fun _ => ?_) (fun _ => ?_)
    | with_reducible refine iteOut_good (fun _ => ?_) (fun _ => ?_)
    | with_reducible refine foldl_good (fun _ _ _ => ?_) ?_
    | with_reducible refine foldl_fst (fun _ _ _ => ?_) ?_
    | with_reducible refine foldl_snd (fun _ _ _ => ?_) ?_
    | subst x
    | with_reducible split
    | dsimp only

theorem State.parityChain_good {pq : List Instr × Prop} {s : State} {v : Nat} {r : ChainRun} (hs : Good pq s) : Good pq (State.parityChain s v r) := by
  unfold State.parityChain
  repeat' first
    | with_reducible assumption
    | with_reducible refine goodOut_next ?_
    | (lift_lets; intro x; refine (fun (hx : Good pq x) => ?_) ?_; clear_value x)
    | (intro x; subst x)
    | with_reducible refine State.endRun_good ?_
    | with_reducible refine State.event_good ?_
    | with_reducible refine State.setErr_good ?_
    | with_reducible refine State.strikeVxe_good ?_
    | with_reducible refine ite_good (fun _ => ?_) (fun _ => ?_)
    | with_reducible refine iteOut_good (fun _ => ?_) (fun _ => ?_)
    | with_reducible refine foldl_good (fun _ _ _ => ?_) ?_
    | with_reducible refine foldl_fst (fun _ _ _ => ?_) ?_
    | with_reducible refine foldl_snd (fun _ _ _ => ?_) ?_
    | subst x
    | with_reducible split
    | dsimp only

theorem execChainComplete_good {pq : List Instr × Prop} {v : Met VxeNo} {parity : Bool} {s : State} (hs : Good pq s) : GoodOut pq (execChainComplete v parity s) := by
  unfold execChainComplete
  repeat' first
    | with_reducible assumption
    | with_reducible refine goodOut_next ?_
    | (lift_lets; intro x; refine (fun (hx : Good pq x) => ?_) ?_; clear_value x)
    | (intro x; subst x)
    | with_reducible refine State.meet_good ?_
    | with_reducible refine State.parityChain_good ?_
    | with_reducible refine State.runChain_good ?_
    | with_reducible refine ite_good (fun _ => ?_) (fun _ => ?_)
    | with_reducible refine iteOut_good (fun _ => ?_) (fun _ => ?_)
    | with_reducible refine foldl_good (fun _ _ _ => ?_) ?_
    | with_reducible refine foldl_fst (fun _ _ _ => ?_) ?_
    | with_reducible refine foldl_snd (fun _ _ _ => ?_) ?_
    | subst x
    | with_reducible split
    | dsimp only

theorem execVxeFence_good {pq : List Instr × Prop} {v : VxeNo} {s : State} (hs : Good pq s) : GoodOut pq (execVxeFence v s) := by
  unfold execVxeFence
  repeat' first
    | with_reducible assumption
    | with_reducible refine goodOut_next ?_
    | (lift_lets; intro x; refine (fun (hx : Good pq x) => ?_) ?_; clear_value x)
    | (intro x; subst x)
    | with_reducible refine State.fenceVxe_good ?_
    | with_reducible refine ite_good (fun _ => ?_) (fun _ => ?_)
    | with_reducible refine iteOut_good (fun _ => ?_) (fun _ => ?_)
    | with_reducible refine foldl_good (fun _ _ _ => ?_) ?_
    | with_reducible refine foldl_fst (fun _ _ _ => ?_) ?_
    | with_reducible refine foldl_snd (fun _ _ _ => ?_) ?_
    | subst x
    | with_reducible split
    | dsimp only

theorem execVxeSelftest_good {pq : List Instr × Prop} {v : VxeNo} {s : State} (hs : Good pq s) : GoodOut pq (execVxeSelftest v s) := by
  unfold execVxeSelftest
  repeat' first
    | with_reducible assumption
    | with_reducible refine goodOut_next ?_
    | (lift_lets; intro x; refine (fun (hx : Good pq x) => ?_) ?_; clear_value x)
    | (intro x; subst x)
    | with_reducible refine State.startSelftest_good ?_
    | with_reducible refine ite_good (fun _ => ?_) (fun _ => ?_)
    | with_reducible refine iteOut_good (fun _ => ?_) (fun _ => ?_)
    | with_reducible refine foldl_good (fun _ _ _ => ?_) ?_
    | with_reducible refine foldl_fst (fun _ _ _ => ?_) ?_
    | with_reducible refine foldl_snd (fun _ _ _ => ?_) ?_
    | subst x
    | with_reducible split
    | dsimp only

theorem execVxeSelftestDone_good {pq : List Instr × Prop} {v : VxeNo} {pass : Bool} {s : State} (hs : Good pq s) : GoodOut pq (execVxeSelftestDone v pass s) := by
  unfold execVxeSelftestDone
  repeat' first
    | with_reducible assumption
    | with_reducible refine goodOut_next ?_
    | (lift_lets; intro x; refine (fun (hx : Good pq x) => ?_) ?_; clear_value x)
    | (intro x; subst x)
    | with_reducible refine State.endSelftest_good ?_
    | with_reducible refine ite_good (fun _ => ?_) (fun _ => ?_)
    | with_reducible refine iteOut_good (fun _ => ?_) (fun _ => ?_)
    | with_reducible refine foldl_good (fun _ _ _ => ?_) ?_
    | with_reducible refine foldl_fst (fun _ _ _ => ?_) ?_
    | with_reducible refine foldl_snd (fun _ _ _ => ?_) ?_
    | subst x
    | with_reducible split
    | dsimp only

theorem execVxeReadmit_good {pq : List Instr × Prop} {v : VxeNo} {s : State} (hs : Good pq s) : GoodOut pq (execVxeReadmit v s) := by
  unfold execVxeReadmit
  repeat' first
    | with_reducible assumption
    | with_reducible refine goodOut_next ?_
    | (lift_lets; intro x; refine (fun (hx : Good pq x) => ?_) ?_; clear_value x)
    | (intro x; subst x)
    | with_reducible refine State.readmit_good ?_
    | with_reducible refine ite_good (fun _ => ?_) (fun _ => ?_)
    | with_reducible refine iteOut_good (fun _ => ?_) (fun _ => ?_)
    | with_reducible refine foldl_good (fun _ _ _ => ?_) ?_
    | with_reducible refine foldl_fst (fun _ _ _ => ?_) ?_
    | with_reducible refine foldl_snd (fun _ _ _ => ?_) ?_
    | subst x
    | with_reducible split
    | dsimp only

theorem execVxePerfRead_good {pq : List Instr × Prop} {v : VxeNo} {s : State} (hs : Good pq s) : GoodOut pq (execVxePerfRead v s) := by
  unfold execVxePerfRead
  repeat' first
    | with_reducible assumption
    | with_reducible refine goodOut_next ?_
    | (lift_lets; intro x; refine (fun (hx : Good pq x) => ?_) ?_; clear_value x)
    | (intro x; subst x)
    | with_reducible refine State.out_good ?_
    | with_reducible refine State.setReg_good ?_
    | with_reducible refine State.withWork_good _ ?_
    | with_reducible refine ite_good (fun _ => ?_) (fun _ => ?_)
    | with_reducible refine iteOut_good (fun _ => ?_) (fun _ => ?_)
    | with_reducible refine foldl_good (fun _ _ _ => ?_) ?_
    | with_reducible refine foldl_fst (fun _ _ _ => ?_) ?_
    | with_reducible refine foldl_snd (fun _ _ _ => ?_) ?_
    | subst x
    | with_reducible split
    | dsimp only

theorem State.queueGather_good {pq : List Instr × Prop} {s : State} {c : Nat} {oc : Nat} {rd : Nat} {rs1 : Nat} {scatter : Bool} (hs : Good pq s) : Good pq (State.queueGather s c oc rd rs1 scatter) := by
  unfold State.queueGather
  repeat' first
    | with_reducible assumption
    | with_reducible refine goodOut_next ?_
    | (lift_lets; intro x; refine (fun (hx : Good pq x) => ?_) ?_; clear_value x)
    | (intro x; subst x)
    | with_reducible refine State.newWork_good ?_ ?_
    | with_reducible refine State.retSt_good ?_
    | with_reducible refine State.setClu_good ?_
    | with_reducible refine ite_good (fun _ => ?_) (fun _ => ?_)
    | with_reducible refine iteOut_good (fun _ => ?_) (fun _ => ?_)
    | with_reducible refine foldl_good (fun _ _ _ => ?_) ?_
    | with_reducible refine foldl_fst (fun _ _ _ => ?_) ?_
    | with_reducible refine foldl_snd (fun _ _ _ => ?_) ?_
    | subst x
    | with_reducible split
    | dsimp only

theorem execGather_good {pq : List Instr × Prop} {c : ClusterNo} {oc : Fin 6} {rd : Gpr} {rs1 : Gpr} {s : State} (hs : Good pq s) : GoodOut pq (execGather c oc rd rs1 s) := by
  unfold execGather
  repeat' first
    | with_reducible assumption
    | with_reducible refine goodOut_next ?_
    | (lift_lets; intro x; refine (fun (hx : Good pq x) => ?_) ?_; clear_value x)
    | (intro x; subst x)
    | with_reducible refine State.queueGather_good ?_
    | with_reducible refine ite_good (fun _ => ?_) (fun _ => ?_)
    | with_reducible refine iteOut_good (fun _ => ?_) (fun _ => ?_)
    | with_reducible refine foldl_good (fun _ _ _ => ?_) ?_
    | with_reducible refine foldl_fst (fun _ _ _ => ?_) ?_
    | with_reducible refine foldl_snd (fun _ _ _ => ?_) ?_
    | subst x
    | with_reducible split
    | dsimp only

theorem execScatter_good {pq : List Instr × Prop} {c : ClusterNo} {oc : Fin 6} {rd : Gpr} {rs1 : Gpr} {s : State} (hs : Good pq s) : GoodOut pq (execScatter c oc rd rs1 s) := by
  unfold execScatter
  repeat' first
    | with_reducible assumption
    | with_reducible refine goodOut_next ?_
    | (lift_lets; intro x; refine (fun (hx : Good pq x) => ?_) ?_; clear_value x)
    | (intro x; subst x)
    | with_reducible refine State.queueGather_good ?_
    | with_reducible refine ite_good (fun _ => ?_) (fun _ => ?_)
    | with_reducible refine iteOut_good (fun _ => ?_) (fun _ => ?_)
    | with_reducible refine foldl_good (fun _ _ _ => ?_) ?_
    | with_reducible refine foldl_fst (fun _ _ _ => ?_) ?_
    | with_reducible refine foldl_snd (fun _ _ _ => ?_) ?_
    | subst x
    | with_reducible split
    | dsimp only

theorem State.moveRow_good {pq : List Instr × Prop} {s : State} {c : Nat} {g : GatherCmd} {k : Nat} (hs : Good pq s) : Good pq (State.moveRow s c g k) := by
  unfold State.moveRow
  repeat' first
    | with_reducible assumption
    | with_reducible refine goodOut_next ?_
    | (lift_lets; intro x; refine (fun (hx : Good pq x) => ?_) ?_; clear_value x)
    | (intro x; subst x)
    | with_reducible refine State.storeBytes_good ?_
    | with_reducible refine ite_good (fun _ => ?_) (fun _ => ?_)
    | with_reducible refine iteOut_good (fun _ => ?_) (fun _ => ?_)
    | with_reducible refine foldl_good (fun _ _ _ => ?_) ?_
    | with_reducible refine foldl_fst (fun _ _ _ => ?_) ?_
    | with_reducible refine foldl_snd (fun _ _ _ => ?_) ?_
    | subst x
    | with_reducible split
    | dsimp only

theorem State.runGather_good {pq : List Instr × Prop} {s : State} {c : Nat} {g : GatherCmd} (hs : Good pq s) : Good pq (State.runGather s c g) := by
  unfold State.runGather
  repeat' first
    | with_reducible assumption
    | with_reducible refine goodOut_next ?_
    | (lift_lets; intro x; refine (fun (hx : Good pq x) => ?_) ?_; clear_value x)
    | (intro x; subst x)
    | with_reducible refine State.consume_good ?_
    | with_reducible refine State.moveRow_good ?_
    | with_reducible refine State.record_good ?_
    | with_reducible refine ite_good (fun _ => ?_) (fun _ => ?_)
    | with_reducible refine iteOut_good (fun _ => ?_) (fun _ => ?_)
    | with_reducible refine foldl_good (fun _ _ _ => ?_) ?_
    | with_reducible refine foldl_fst (fun _ _ _ => ?_) ?_
    | with_reducible refine foldl_snd (fun _ _ _ => ?_) ?_
    | subst x
    | with_reducible split
    | dsimp only

theorem execGatherComplete_good {pq : List Instr × Prop} {c : Met ClusterNo} {s : State} (hs : Good pq s) : GoodOut pq (execGatherComplete c s) := by
  unfold execGatherComplete
  repeat' first
    | with_reducible assumption
    | with_reducible refine goodOut_next ?_
    | (lift_lets; intro x; refine (fun (hx : Good pq x) => ?_) ?_; clear_value x)
    | (intro x; subst x)
    | with_reducible refine State.meet_good ?_
    | with_reducible refine State.runGather_good ?_
    | with_reducible refine State.setClu_good ?_
    | with_reducible refine ite_good (fun _ => ?_) (fun _ => ?_)
    | with_reducible refine iteOut_good (fun _ => ?_) (fun _ => ?_)
    | with_reducible refine foldl_good (fun _ _ _ => ?_) ?_
    | with_reducible refine foldl_fst (fun _ _ _ => ?_) ?_
    | with_reducible refine foldl_snd (fun _ _ _ => ?_) ?_
    | subst x
    | with_reducible split
    | dsimp only

theorem State.changeCtx_good {pq : List Instr × Prop} {s : State} {c : Nat} (hs : Good pq s) : Good pq (State.changeCtx s c) := by
  unfold State.changeCtx
  repeat' first
    | with_reducible assumption
    | with_reducible refine goodOut_next ?_
    | (lift_lets; intro x; refine (fun (hx : Good pq x) => ?_) ?_; clear_value x)
    | (intro x; subst x)
    | with_reducible refine State.breakSlot_good ?_
    | with_reducible refine State.setSignals_good ?_
    | with_reducible refine ite_good (fun _ => ?_) (fun _ => ?_)
    | with_reducible refine iteOut_good (fun _ => ?_) (fun _ => ?_)
    | with_reducible refine foldl_good (fun _ _ _ => ?_) ?_
    | with_reducible refine foldl_fst (fun _ _ _ => ?_) ?_
    | with_reducible refine foldl_snd (fun _ _ _ => ?_) ?_
    | subst x
    | with_reducible split
    | dsimp only

theorem execCluCtxWrite_good {pq : List Instr × Prop} {c : ClusterNo} {data : W64} {s : State} (hs : Good pq s) : GoodOut pq (execCluCtxWrite c data s) := by
  unfold execCluCtxWrite
  repeat' first
    | with_reducible assumption
    | with_reducible refine goodOut_next ?_
    | (lift_lets; intro x; refine (fun (hx : Good pq x) => ?_) ?_; clear_value x)
    | (intro x; subst x)
    | with_reducible refine State.changeCtx_good ?_
    | with_reducible refine State.plainWrite_good ?_
    | with_reducible refine State.setErr_good ?_
    | with_reducible refine ite_good (fun _ => ?_) (fun _ => ?_)
    | with_reducible refine iteOut_good (fun _ => ?_) (fun _ => ?_)
    | with_reducible refine foldl_good (fun _ _ _ => ?_) ?_
    | with_reducible refine foldl_fst (fun _ _ _ => ?_) ?_
    | with_reducible refine foldl_snd (fun _ _ _ => ?_) ?_
    | subst x
    | with_reducible split
    | dsimp only

theorem execCoreRun_good {pq : List Instr × Prop} {c : ClusterNo} {k : Fin 7} {s : State} (hs : Good pq s) : GoodOut pq (execCoreRun c k s) := by
  unfold execCoreRun
  repeat' first
    | with_reducible assumption
    | with_reducible refine goodOut_next ?_
    | (lift_lets; intro x; refine (fun (hx : Good pq x) => ?_) ?_; clear_value x)
    | (intro x; subst x)
    | with_reducible refine State.setFld_good ?_
    | with_reducible refine State.setPc_good ?_
    | with_reducible refine ite_good (fun _ => ?_) (fun _ => ?_)
    | with_reducible refine iteOut_good (fun _ => ?_) (fun _ => ?_)
    | with_reducible refine foldl_good (fun _ _ _ => ?_) ?_
    | with_reducible refine foldl_fst (fun _ _ _ => ?_) ?_
    | with_reducible refine foldl_snd (fun _ _ _ => ?_) ?_
    | subst x
    | with_reducible split
    | dsimp only

theorem execCoreStop_good {pq : List Instr × Prop} {c : ClusterNo} {k : Fin 7} {s : State} (hs : Good pq s) : GoodOut pq (execCoreStop c k s) := by
  unfold execCoreStop
  repeat' first
    | with_reducible assumption
    | with_reducible refine goodOut_next ?_
    | (lift_lets; intro x; refine (fun (hx : Good pq x) => ?_) ?_; clear_value x)
    | (intro x; subst x)
    | with_reducible refine State.haltCore_good ?_
    | with_reducible refine ite_good (fun _ => ?_) (fun _ => ?_)
    | with_reducible refine iteOut_good (fun _ => ?_) (fun _ => ?_)
    | with_reducible refine foldl_good (fun _ _ _ => ?_) ?_
    | with_reducible refine foldl_fst (fun _ _ _ => ?_) ?_
    | with_reducible refine foldl_snd (fun _ _ _ => ?_) ?_
    | subst x
    | with_reducible split
    | dsimp only

theorem State.setBin_good {pq : List Instr × Prop} {s : State} {d : Nat} {stream : Nat} {n : Nat} {v : Nat} (hs : Good pq s) : Good pq (State.setBin s d stream n v) := by
  unfold State.setBin
  repeat' first
    | with_reducible assumption
    | with_reducible refine goodOut_next ?_
    | (lift_lets; intro x; refine (fun (hx : Good pq x) => ?_) ?_; clear_value x)
    | (intro x; subst x)
    | with_reducible refine State.withBins_good _ ?_
    | with_reducible refine ite_good (fun _ => ?_) (fun _ => ?_)
    | with_reducible refine iteOut_good (fun _ => ?_) (fun _ => ?_)
    | with_reducible refine foldl_good (fun _ _ _ => ?_) ?_
    | with_reducible refine foldl_fst (fun _ _ _ => ?_) ?_
    | with_reducible refine foldl_snd (fun _ _ _ => ?_) ?_
    | subst x
    | with_reducible split
    | dsimp only

theorem State.clearBins_good {pq : List Instr × Prop} {s : State} {d : Nat} {stream : Nat} (hs : Good pq s) : Good pq (State.clearBins s d stream) := by
  unfold State.clearBins
  repeat' first
    | with_reducible assumption
    | with_reducible refine goodOut_next ?_
    | (lift_lets; intro x; refine (fun (hx : Good pq x) => ?_) ?_; clear_value x)
    | (intro x; subst x)
    | with_reducible refine State.setBin_good ?_
    | with_reducible refine ite_good (fun _ => ?_) (fun _ => ?_)
    | with_reducible refine iteOut_good (fun _ => ?_) (fun _ => ?_)
    | with_reducible refine foldl_good (fun _ _ _ => ?_) ?_
    | with_reducible refine foldl_fst (fun _ _ _ => ?_) ?_
    | with_reducible refine foldl_snd (fun _ _ _ => ?_) ?_
    | subst x
    | with_reducible split
    | dsimp only

theorem State.histLoad_good {pq : List Instr × Prop} {s : State} {d : Nat} {stream : Nat} {a : Nat} (hs : Good pq s) : Good pq (State.histLoad s d stream a) := by
  unfold State.histLoad
  repeat' first
    | with_reducible assumption
    | with_reducible refine goodOut_next ?_
    | (lift_lets; intro x; refine (fun (hx : Good pq x) => ?_) ?_; clear_value x)
    | (intro x; subst x)
    | with_reducible refine State.setBin_good ?_
    | with_reducible refine State.setErr_good ?_
    | with_reducible refine ite_good (fun _ => ?_) (fun _ => ?_)
    | with_reducible refine iteOut_good (fun _ => ?_) (fun _ => ?_)
    | with_reducible refine foldl_good (fun _ _ _ => ?_) ?_
    | with_reducible refine foldl_fst (fun _ _ _ => ?_) ?_
    | with_reducible refine foldl_snd (fun _ _ _ => ?_) ?_
    | subst x
    | with_reducible split
    | dsimp only

theorem State.histOp_good {pq : List Instr × Prop} {s : State} {d : Nat} {stream : Nat} {op : Nat} {a : Nat} (hs : Good pq s) : Good pq (State.histOp s d stream op a) := by
  unfold State.histOp
  repeat' first
    | with_reducible assumption
    | with_reducible refine goodOut_next ?_
    | (lift_lets; intro x; refine (fun (hx : Good pq x) => ?_) ?_; clear_value x)
    | (intro x; subst x)
    | with_reducible refine State.clearBins_good ?_
    | with_reducible refine State.histLoad_good ?_
    | with_reducible refine State.setBitF_good ?_
    | with_reducible refine State.setErr_good ?_
    | with_reducible refine State.storeWords_good ?_
    | with_reducible refine State.withHstOp_good _ ?_
    | with_reducible refine ite_good (fun _ => ?_) (fun _ => ?_)
    | with_reducible refine iteOut_good (fun _ => ?_) (fun _ => ?_)
    | with_reducible refine foldl_good (fun _ _ _ => ?_) ?_
    | with_reducible refine foldl_fst (fun _ _ _ => ?_) ?_
    | with_reducible refine foldl_snd (fun _ _ _ => ?_) ?_
    | subst x
    | with_reducible split
    | dsimp only

theorem execHstSnapshot_good {pq : List Instr × Prop} {d : Die} {stream : Byte} {addr : BitVec 42} {s : State} (hs : Good pq s) : GoodOut pq (execHstSnapshot d stream addr s) := by
  unfold execHstSnapshot
  repeat' first
    | with_reducible assumption
    | with_reducible refine goodOut_next ?_
    | (lift_lets; intro x; refine (fun (hx : Good pq x) => ?_) ?_; clear_value x)
    | (intro x; subst x)
    | with_reducible refine State.histOp_good ?_
    | with_reducible refine ite_good (fun _ => ?_) (fun _ => ?_)
    | with_reducible refine iteOut_good (fun _ => ?_) (fun _ => ?_)
    | with_reducible refine foldl_good (fun _ _ _ => ?_) ?_
    | with_reducible refine foldl_fst (fun _ _ _ => ?_) ?_
    | with_reducible refine foldl_snd (fun _ _ _ => ?_) ?_
    | subst x
    | with_reducible split
    | dsimp only

theorem execHstSnapshotClear_good {pq : List Instr × Prop} {d : Die} {stream : Byte} {addr : BitVec 42} {s : State} (hs : Good pq s) : GoodOut pq (execHstSnapshotClear d stream addr s) := by
  unfold execHstSnapshotClear
  repeat' first
    | with_reducible assumption
    | with_reducible refine goodOut_next ?_
    | (lift_lets; intro x; refine (fun (hx : Good pq x) => ?_) ?_; clear_value x)
    | (intro x; subst x)
    | with_reducible refine State.histOp_good ?_
    | with_reducible refine ite_good (fun _ => ?_) (fun _ => ?_)
    | with_reducible refine iteOut_good (fun _ => ?_) (fun _ => ?_)
    | with_reducible refine foldl_good (fun _ _ _ => ?_) ?_
    | with_reducible refine foldl_fst (fun _ _ _ => ?_) ?_
    | with_reducible refine foldl_snd (fun _ _ _ => ?_) ?_
    | subst x
    | with_reducible split
    | dsimp only

theorem execHstLoad_good {pq : List Instr × Prop} {d : Die} {stream : Byte} {addr : BitVec 42} {s : State} (hs : Good pq s) : GoodOut pq (execHstLoad d stream addr s) := by
  unfold execHstLoad
  repeat' first
    | with_reducible assumption
    | with_reducible refine goodOut_next ?_
    | (lift_lets; intro x; refine (fun (hx : Good pq x) => ?_) ?_; clear_value x)
    | (intro x; subst x)
    | with_reducible refine State.histOp_good ?_
    | with_reducible refine ite_good (fun _ => ?_) (fun _ => ?_)
    | with_reducible refine iteOut_good (fun _ => ?_) (fun _ => ?_)
    | with_reducible refine foldl_good (fun _ _ _ => ?_) ?_
    | with_reducible refine foldl_fst (fun _ _ _ => ?_) ?_
    | with_reducible refine foldl_snd (fun _ _ _ => ?_) ?_
    | subst x
    | with_reducible split
    | dsimp only

theorem execHstOpDone_good {pq : List Instr × Prop} {d : Die} {s : State} (hs : Good pq s) : GoodOut pq (execHstOpDone d s) := by
  unfold execHstOpDone
  repeat' first
    | with_reducible assumption
    | with_reducible refine goodOut_next ?_
    | (lift_lets; intro x; refine (fun (hx : Good pq x) => ?_) ?_; clear_value x)
    | (intro x; subst x)
    | with_reducible refine State.setBitF_good ?_
    | with_reducible refine State.withHstOp_good _ ?_
    | with_reducible refine State.wrapFld_good ?_
    | with_reducible refine ite_good (fun _ => ?_) (fun _ => ?_)
    | with_reducible refine iteOut_good (fun _ => ?_) (fun _ => ?_)
    | with_reducible refine foldl_good (fun _ _ _ => ?_) ?_
    | with_reducible refine foldl_fst (fun _ _ _ => ?_) ?_
    | with_reducible refine foldl_snd (fun _ _ _ => ?_) ?_
    | subst x
    | with_reducible split
    | dsimp only

theorem State.hsnap_good {pq : List Instr × Prop} {s : State} {p : Nat} {data : W64} (hs : Good pq s) : Good pq (State.hsnap s p data) := by
  unfold State.hsnap
  repeat' first
    | with_reducible assumption
    | with_reducible refine goodOut_next ?_
    | (lift_lets; intro x; refine (fun (hx : Good pq x) => ?_) ?_; clear_value x)
    | (intro x; subst x)
    | with_reducible refine State.histOp_good ?_
    | with_reducible refine State.raise_good ?_
    | with_reducible refine ite_good (fun _ => ?_) (fun _ => ?_)
    | with_reducible refine iteOut_good (fun _ => ?_) (fun _ => ?_)
    | with_reducible refine foldl_good (fun _ _ _ => ?_) ?_
    | with_reducible refine foldl_fst (fun _ _ _ => ?_) ?_
    | with_reducible refine foldl_snd (fun _ _ _ => ?_) ?_
    | subst x
    | with_reducible split
    | dsimp only

theorem execHsnapWrite_good {pq : List Instr × Prop} {c : ClusterNo} {oc : Fin 6} {data : W64} {s : State} (hs : Good pq s) : GoodOut pq (execHsnapWrite c oc data s) := by
  unfold execHsnapWrite
  repeat' first
    | with_reducible assumption
    | with_reducible refine goodOut_next ?_
    | (lift_lets; intro x; refine (fun (hx : Good pq x) => ?_) ?_; clear_value x)
    | (intro x; subst x)
    | with_reducible refine State.hsnap_good ?_
    | with_reducible refine State.nextPc_good ?_
    | with_reducible refine ite_good (fun _ => ?_) (fun _ => ?_)
    | with_reducible refine iteOut_good (fun _ => ?_) (fun _ => ?_)
    | with_reducible refine foldl_good (fun _ _ _ => ?_) ?_
    | with_reducible refine foldl_fst (fun _ _ _ => ?_) ?_
    | with_reducible refine foldl_snd (fun _ _ _ => ?_) ?_
    | subst x
    | with_reducible split
    | dsimp only

theorem execHstOwnWrite_good {pq : List Instr × Prop} {d : Die} {stream : Byte} {data : W64} {s : State} (hs : Good pq s) : GoodOut pq (execHstOwnWrite d stream data s) := by
  unfold execHstOwnWrite
  repeat' first
    | with_reducible assumption
    | with_reducible refine goodOut_next ?_
    | (lift_lets; intro x; refine (fun (hx : Good pq x) => ?_) ?_; clear_value x)
    | (intro x; subst x)
    | with_reducible refine State.clearBins_good ?_
    | with_reducible refine State.plainWrite_good ?_
    | with_reducible refine ite_good (fun _ => ?_) (fun _ => ?_)
    | with_reducible refine iteOut_good (fun _ => ?_) (fun _ => ?_)
    | with_reducible refine foldl_good (fun _ _ _ => ?_) ?_
    | with_reducible refine foldl_fst (fun _ _ _ => ?_) ?_
    | with_reducible refine foldl_snd (fun _ _ _ => ?_) ?_
    | subst x
    | with_reducible split
    | dsimp only

theorem execCtrClear_good {pq : List Instr × Prop} {d : Die} {s : State} (hs : Good pq s) : GoodOut pq (execCtrClear d s) := by
  unfold execCtrClear
  repeat' first
    | with_reducible assumption
    | with_reducible refine goodOut_next ?_
    | (lift_lets; intro x; refine (fun (hx : Good pq x) => ?_) ?_; clear_value x)
    | (intro x; subst x)
    | with_reducible refine State.setReg_good ?_
    | with_reducible refine ite_good (fun _ => ?_) (fun _ => ?_)
    | with_reducible refine iteOut_good (fun _ => ?_) (fun _ => ?_)
    | with_reducible refine foldl_good (fun _ _ _ => ?_) ?_
    | with_reducible refine foldl_fst (fun _ _ _ => ?_) ?_
    | with_reducible refine foldl_snd (fun _ _ _ => ?_) ?_
    | subst x
    | with_reducible split
    | dsimp only

theorem execCtrAdd_good {pq : List Instr × Prop} {d : Die} {value : W64} {s : State} (hs : Good pq s) : GoodOut pq (execCtrAdd d value s) := by
  unfold execCtrAdd
  repeat' first
    | with_reducible assumption
    | with_reducible refine goodOut_next ?_
    | (lift_lets; intro x; refine (fun (hx : Good pq x) => ?_) ?_; clear_value x)
    | (intro x; subst x)
    | with_reducible refine State.addCount_good ?_
    | with_reducible refine State.setErr_good ?_
    | with_reducible refine ite_good (fun _ => ?_) (fun _ => ?_)
    | with_reducible refine iteOut_good (fun _ => ?_) (fun _ => ?_)
    | with_reducible refine foldl_good (fun _ _ _ => ?_) ?_
    | with_reducible refine foldl_fst (fun _ _ _ => ?_) ?_
    | with_reducible refine foldl_snd (fun _ _ _ => ?_) ?_
    | subst x
    | with_reducible split
    | dsimp only

theorem execCtrEvtRead_good {pq : List Instr × Prop} {d : Die} {i : Fin 48} {s : State} (hs : Good pq s) : GoodOut pq (execCtrEvtRead d i s) := by
  unfold execCtrEvtRead
  repeat' first
    | with_reducible assumption
    | with_reducible refine goodOut_next ?_
    | (lift_lets; intro x; refine (fun (hx : Good pq x) => ?_) ?_; clear_value x)
    | (intro x; subst x)
    | with_reducible refine State.readClear_good ?_
    | with_reducible refine ite_good (fun _ => ?_) (fun _ => ?_)
    | with_reducible refine iteOut_good (fun _ => ?_) (fun _ => ?_)
    | with_reducible refine foldl_good (fun _ _ _ => ?_) ?_
    | with_reducible refine foldl_fst (fun _ _ _ => ?_) ?_
    | with_reducible refine foldl_snd (fun _ _ _ => ?_) ?_
    | subst x
    | with_reducible split
    | dsimp only

end Sys2Proof.Machine
end

