-- ==== Sys2Proof/Laws/GoodUpdate.lean ====
section
/-! SUPPORT. Good is kept by memory, update units, stages and synchronisation. -/

namespace Sys2Proof.Machine
-- The tactic scripts here have one shape for every operation, so some of their steps do nothing for some operations.
set_option linter.unusedTactic false
set_option linter.unreachableTactic false

-- FOR State.clearSync
-- HAVE clearSync State.clearSync_good
theorem State.clearSync_good {pq : List Instr × Prop} {s : State} {r : Nat} (hs : Good pq s) : Good pq (s.clearSync r) := by
  unfold State.clearSync
  refine withMem_good hs (fun h => ?_)
  simp only [Memory.wf, Bool.and_eq_true] at h ⊢
  exact ⟨⟨⟨h.1.1.1, KMap.wf_filter _ _ h.1.1.2⟩, KMap.wf_filter _ _ h.1.2⟩, h.2⟩

theorem State.rgnOpen_good {pq : List Instr × Prop} {s : State} {r : Nat} (hs : Good pq s) : Good pq (State.rgnOpen s r) := by
  unfold State.rgnOpen
  repeat' first
    | with_reducible assumption
    | with_reducible refine goodOut_next ?_
    | (lift_lets; intro x; refine (fun (hx : Good pq x) => ?_) ?_; clear_value x)
    | (intro x; subst x)
    | with_reducible refine State.clearSync_good ?_
    | with_reducible refine State.setBitF_good ?_
    | with_reducible refine State.setFld_good ?_
    | with_reducible refine State.withMs_good _ ?_
    | with_reducible refine ite_good (fun _ => ?_) (fun _ => ?_)
    | with_reducible refine iteOut_good (fun _ => ?_) (fun _ => ?_)
    | with_reducible refine foldl_good (fun _ _ _ => ?_) ?_
    | with_reducible refine foldl_fst (fun _ _ _ => ?_) ?_
    | with_reducible refine foldl_snd (fun _ _ _ => ?_) ?_
    | subst x
    | with_reducible split
    | dsimp only

theorem State.rgnWrite_good {pq : List Instr × Prop} {s : State} {r : Nat} {data : W64} (hs : Good pq s) : Good pq (State.rgnWrite s r data) := by
  unfold State.rgnWrite
  repeat' first
    | with_reducible assumption
    | with_reducible refine goodOut_next ?_
    | (lift_lets; intro x; refine (fun (hx : Good pq x) => ?_) ?_; clear_value x)
    | (intro x; subst x)
    | with_reducible refine State.badSeq_good ?_
    | with_reducible refine State.rgnOpen_good ?_
    | with_reducible refine State.setBitF_good ?_
    | with_reducible refine State.setErr_good ?_
    | with_reducible refine State.setFld_good ?_
    | with_reducible refine State.setReg_good ?_
    | with_reducible refine ite_good (fun _ => ?_) (fun _ => ?_)
    | with_reducible refine iteOut_good (fun _ => ?_) (fun _ => ?_)
    | with_reducible refine foldl_good (fun _ _ _ => ?_) ?_
    | with_reducible refine foldl_fst (fun _ _ _ => ?_) ?_
    | with_reducible refine foldl_snd (fun _ _ _ => ?_) ?_
    | subst x
    | with_reducible split
    | dsimp only

theorem execMapRgnValidate_good {pq : List Instr × Prop} {r : Fin 64} {data : W64} {s : State} (hs : Good pq s) : GoodOut pq (execMapRgnValidate r data s) := by
  unfold execMapRgnValidate
  repeat' first
    | with_reducible assumption
    | with_reducible refine goodOut_next ?_
    | (lift_lets; intro x; refine (fun (hx : Good pq x) => ?_) ?_; clear_value x)
    | (intro x; subst x)
    | with_reducible refine State.rgnWrite_good ?_
    | with_reducible refine ite_good (fun _ => ?_) (fun _ => ?_)
    | with_reducible refine iteOut_good (fun _ => ?_) (fun _ => ?_)
    | with_reducible refine foldl_good (fun _ _ _ => ?_) ?_
    | with_reducible refine foldl_fst (fun _ _ _ => ?_) ?_
    | with_reducible refine foldl_snd (fun _ _ _ => ?_) ?_
    | subst x
    | with_reducible split
    | dsimp only

theorem execMapRgnClose_good {pq : List Instr × Prop} {r : Fin 64} {s : State} (hs : Good pq s) : GoodOut pq (execMapRgnClose r s) := by
  unfold execMapRgnClose
  repeat' first
    | with_reducible assumption
    | with_reducible refine goodOut_next ?_
    | (lift_lets; intro x; refine (fun (hx : Good pq x) => ?_) ?_; clear_value x)
    | (intro x; subst x)
    | with_reducible refine State.rgnWrite_good ?_
    | with_reducible refine ite_good (fun _ => ?_) (fun _ => ?_)
    | with_reducible refine iteOut_good (fun _ => ?_) (fun _ => ?_)
    | with_reducible refine foldl_good (fun _ _ _ => ?_) ?_
    | with_reducible refine foldl_fst (fun _ _ _ => ?_) ?_
    | with_reducible refine foldl_snd (fun _ _ _ => ?_) ?_
    | subst x
    | with_reducible split
    | dsimp only

theorem execMapQuiesceDone_good {pq : List Instr × Prop} {s : State} (hs : Good pq s) : GoodOut pq (execMapQuiesceDone s) := by
  unfold execMapQuiesceDone
  repeat' first
    | with_reducible assumption
    | with_reducible refine goodOut_next ?_
    | (lift_lets; intro x; refine (fun (hx : Good pq x) => ?_) ?_; clear_value x)
    | (intro x; subst x)
    | with_reducible refine State.setBitF_good ?_
    | with_reducible refine ite_good (fun _ => ?_) (fun _ => ?_)
    | with_reducible refine iteOut_good (fun _ => ?_) (fun _ => ?_)
    | with_reducible refine foldl_good (fun _ _ _ => ?_) ?_
    | with_reducible refine foldl_fst (fun _ _ _ => ?_) ?_
    | with_reducible refine foldl_snd (fun _ _ _ => ?_) ?_
    | subst x
    | with_reducible split
    | dsimp only

theorem State.setHeldQ_good {pq : List Instr × Prop} {s : State} {d : Nat} {b : Nat} {l : List Nat} (hs : Good pq s) : Good pq (State.setHeldQ s d b l) := by
  unfold State.setHeldQ
  repeat' first
    | with_reducible assumption
    | with_reducible refine goodOut_next ?_
    | (lift_lets; intro x; refine (fun (hx : Good pq x) => ?_) ?_; clear_value x)
    | (intro x; subst x)
    | with_reducible refine State.withMs_good _ ?_
    | with_reducible refine ite_good (fun _ => ?_) (fun _ => ?_)
    | with_reducible refine iteOut_good (fun _ => ?_) (fun _ => ?_)
    | with_reducible refine foldl_good (fun _ _ _ => ?_) ?_
    | with_reducible refine foldl_fst (fun _ _ _ => ?_) ?_
    | with_reducible refine foldl_snd (fun _ _ _ => ?_) ?_
    | subst x
    | with_reducible split
    | dsimp only

theorem State.setHeldSince_good {pq : List Instr × Prop} {s : State} {d : Nat} {b : Nat} {t : Nat} (hs : Good pq s) : Good pq (State.setHeldSince s d b t) := by
  unfold State.setHeldSince
  repeat' first
    | with_reducible assumption
    | with_reducible refine goodOut_next ?_
    | (lift_lets; intro x; refine (fun (hx : Good pq x) => ?_) ?_; clear_value x)
    | (intro x; subst x)
    | with_reducible refine State.withMs_good _ ?_
    | with_reducible refine ite_good (fun _ => ?_) (fun _ => ?_)
    | with_reducible refine iteOut_good (fun _ => ?_) (fun _ => ?_)
    | with_reducible refine foldl_good (fun _ _ _ => ?_) ?_
    | with_reducible refine foldl_fst (fun _ _ _ => ?_) ?_
    | with_reducible refine foldl_snd (fun _ _ _ => ?_) ?_
    | subst x
    | with_reducible split
    | dsimp only

theorem State.countHeld_good {pq : List Instr × Prop} {s : State} {d : Nat} {b : Nat} (hs : Good pq s) : Good pq (State.countHeld s d b) := by
  unfold State.countHeld
  repeat' first
    | with_reducible assumption
    | with_reducible refine goodOut_next ?_
    | (lift_lets; intro x; refine (fun (hx : Good pq x) => ?_) ?_; clear_value x)
    | (intro x; subst x)
    | with_reducible refine State.addFld_good ?_
    | with_reducible refine State.setHeldSince_good ?_
    | with_reducible refine ite_good (fun _ => ?_) (fun _ => ?_)
    | with_reducible refine iteOut_good (fun _ => ?_) (fun _ => ?_)
    | with_reducible refine foldl_good (fun _ _ _ => ?_) ?_
    | with_reducible refine foldl_fst (fun _ _ _ => ?_) ?_
    | with_reducible refine foldl_snd (fun _ _ _ => ?_) ?_
    | subst x
    | with_reducible split
    | dsimp only

theorem State.refill_good {pq : List Instr × Prop} {s : State} {d : Nat} {b : Nat} (hs : Good pq s) : Good pq (State.refill s d b) := by
  unfold State.refill
  repeat' first
    | with_reducible assumption
    | with_reducible refine goodOut_next ?_
    | (lift_lets; intro x; refine (fun (hx : Good pq x) => ?_) ?_; clear_value x)
    | (intro x; subst x)
    | with_reducible refine State.countHeld_good ?_
    | with_reducible refine State.setFld_good ?_
    | with_reducible refine State.setHeldQ_good ?_
    | with_reducible refine ite_good (fun _ => ?_) (fun _ => ?_)
    | with_reducible refine iteOut_good (fun _ => ?_) (fun _ => ?_)
    | with_reducible refine foldl_good (fun _ _ _ => ?_) ?_
    | with_reducible refine foldl_fst (fun _ _ _ => ?_) ?_
    | with_reducible refine foldl_snd (fun _ _ _ => ?_) ?_
    | subst x
    | with_reducible split
    | dsimp only

theorem execTollRefill_good {pq : List Instr × Prop} {d : Die} {s : State} (hs : Good pq s) : GoodOut pq (execTollRefill d s) := by
  unfold execTollRefill
  repeat' first
    | with_reducible assumption
    | with_reducible refine goodOut_next ?_
    | (lift_lets; intro x; refine (fun (hx : Good pq x) => ?_) ?_; clear_value x)
    | (intro x; subst x)
    | with_reducible refine State.refill_good ?_
    | with_reducible refine ite_good (fun _ => ?_) (fun _ => ?_)
    | with_reducible refine iteOut_good (fun _ => ?_) (fun _ => ?_)
    | with_reducible refine foldl_good (fun _ _ _ => ?_) ?_
    | with_reducible refine foldl_fst (fun _ _ _ => ?_) ?_
    | with_reducible refine foldl_snd (fun _ _ _ => ?_) ?_
    | subst x
    | with_reducible split
    | dsimp only

theorem execTollBktWrite_good {pq : List Instr × Prop} {d : Die} {b : Fin 64} {data : W64} {s : State} (hs : Good pq s) : GoodOut pq (execTollBktWrite d b data s) := by
  unfold execTollBktWrite
  repeat' first
    | with_reducible assumption
    | with_reducible refine goodOut_next ?_
    | (lift_lets; intro x; refine (fun (hx : Good pq x) => ?_) ?_; clear_value x)
    | (intro x; subst x)
    | with_reducible refine State.countHeld_good ?_
    | with_reducible refine State.plainWrite_good ?_
    | with_reducible refine State.setFld_good ?_
    | with_reducible refine State.setHeldQ_good ?_
    | with_reducible refine ite_good (fun _ => ?_) (fun _ => ?_)
    | with_reducible refine iteOut_good (fun _ => ?_) (fun _ => ?_)
    | with_reducible refine foldl_good (fun _ _ _ => ?_) ?_
    | with_reducible refine foldl_fst (fun _ _ _ => ?_) ?_
    | with_reducible refine foldl_snd (fun _ _ _ => ?_) ?_
    | subst x
    | with_reducible split
    | dsimp only

theorem execTollHeldRead_good {pq : List Instr × Prop} {d : Die} {b : Fin 64} {s : State} (hs : Good pq s) : GoodOut pq (execTollHeldRead d b s) := by
  unfold execTollHeldRead
  repeat' first
    | with_reducible assumption
    | with_reducible refine goodOut_next ?_
    | (lift_lets; intro x; refine (fun (hx : Good pq x) => ?_) ?_; clear_value x)
    | (intro x; subst x)
    | with_reducible refine State.countHeld_good ?_
    | with_reducible refine State.readClear_good ?_
    | with_reducible refine ite_good (fun _ => ?_) (fun _ => ?_)
    | with_reducible refine iteOut_good (fun _ => ?_) (fun _ => ?_)
    | with_reducible refine foldl_good (fun _ _ _ => ?_) ?_
    | with_reducible refine foldl_fst (fun _ _ _ => ?_) ?_
    | with_reducible refine foldl_snd (fun _ _ _ => ?_) ?_
    | subst x
    | with_reducible split
    | dsimp only

theorem State.storeWmark_good {pq : List Instr × Prop} {s : State} (hs : Good pq s) : Good pq (State.storeWmark s) := by
  unfold State.storeWmark
  repeat' first
    | with_reducible assumption
    | with_reducible refine goodOut_next ?_
    | (lift_lets; intro x; refine (fun (hx : Good pq x) => ?_) ?_; clear_value x)
    | (intro x; subst x)
    | with_reducible refine State.setReg_good ?_
    | with_reducible refine State.sstAdd_good ?_
    | with_reducible refine ite_good (fun _ => ?_) (fun _ => ?_)
    | with_reducible refine iteOut_good (fun _ => ?_) (fun _ => ?_)
    | with_reducible refine foldl_good (fun _ _ _ => ?_) ?_
    | with_reducible refine foldl_fst (fun _ _ _ => ?_) ?_
    | with_reducible refine foldl_snd (fun _ _ _ => ?_) ?_
    | subst x
    | with_reducible split
    | dsimp only

theorem State.trip_good {pq : List Instr × Prop} {s : State} {d : Nat} {unit : Nat} {temp : W16} (hs : Good pq s) : Good pq (State.trip s d unit temp) := by
  unfold State.trip
  repeat' first
    | with_reducible assumption
    | with_reducible refine goodOut_next ?_
    | (lift_lets; intro x; refine (fun (hx : Good pq x) => ?_) ?_; clear_value x)
    | (intro x; subst x)
    | with_reducible refine State.event_good ?_
    | with_reducible refine State.storeWmark_good ?_
    | with_reducible refine State.withPlat_good _ ?_
    | with_reducible refine ite_good (fun _ => ?_) (fun _ => ?_)
    | with_reducible refine iteOut_good (fun _ => ?_) (fun _ => ?_)
    | with_reducible refine foldl_good (fun _ _ _ => ?_) ?_
    | with_reducible refine foldl_fst (fun _ _ _ => ?_) ?_
    | with_reducible refine foldl_snd (fun _ _ _ => ?_) ?_
    | subst x
    | with_reducible split
    | dsimp only

theorem State.setThrottle_good {pq : List Instr × Prop} {s : State} {k : Nat} {t : Throttle} (hs : Good pq s) : Good pq (State.setThrottle s k t) := by
  unfold State.setThrottle
  repeat' first
    | with_reducible assumption
    | with_reducible refine goodOut_next ?_
    | (lift_lets; intro x; refine (fun (hx : Good pq x) => ?_) ?_; clear_value x)
    | (intro x; subst x)
    | with_reducible refine State.withMs_good _ ?_
    | with_reducible refine ite_good (fun _ => ?_) (fun _ => ?_)
    | with_reducible refine iteOut_good (fun _ => ?_) (fun _ => ?_)
    | with_reducible refine foldl_good (fun _ _ _ => ?_) ?_
    | with_reducible refine foldl_fst (fun _ _ _ => ?_) ?_
    | with_reducible refine foldl_snd (fun _ _ _ => ?_) ?_
    | subst x
    | with_reducible split
    | dsimp only

theorem execStackTempReport_good {pq : List Instr × Prop} {k : Fin 20} {temp : W16} {s : State} (hs : Good pq s) : GoodOut pq (execStackTempReport k temp s) := by
  unfold execStackTempReport
  repeat' first
    | with_reducible assumption
    | with_reducible refine goodOut_next ?_
    | (lift_lets; intro x; refine (fun (hx : Good pq x) => ?_) ?_; clear_value x)
    | (intro x; subst x)
    | with_reducible refine State.setBitF_good ?_
    | with_reducible refine State.setFld_good ?_
    | with_reducible refine State.setThrottle_good ?_
    | with_reducible refine State.trip_good ?_
    | with_reducible refine ite_good (fun _ => ?_) (fun _ => ?_)
    | with_reducible refine iteOut_good (fun _ => ?_) (fun _ => ?_)
    | with_reducible refine foldl_good (fun _ _ _ => ?_) ?_
    | with_reducible refine foldl_fst (fun _ _ _ => ?_) ?_
    | with_reducible refine foldl_snd (fun _ _ _ => ?_) ?_
    | subst x
    | with_reducible split
    | dsimp only

theorem execThrottleFallStep_good {pq : List Instr × Prop} {k : Fin 20} {s : State} (hs : Good pq s) : GoodOut pq (execThrottleFallStep k s) := by
  unfold execThrottleFallStep
  repeat' first
    | with_reducible assumption
    | with_reducible refine goodOut_next ?_
    | (lift_lets; intro x; refine (fun (hx : Good pq x) => ?_) ?_; clear_value x)
    | (intro x; subst x)
    | with_reducible refine State.setFld_good ?_
    | with_reducible refine State.setThrottle_good ?_
    | with_reducible refine ite_good (fun _ => ?_) (fun _ => ?_)
    | with_reducible refine iteOut_good (fun _ => ?_) (fun _ => ?_)
    | with_reducible refine foldl_good (fun _ _ _ => ?_) ?_
    | with_reducible refine foldl_fst (fun _ _ _ => ?_) ?_
    | with_reducible refine foldl_snd (fun _ _ _ => ?_) ?_
    | subst x
    | with_reducible split
    | dsimp only

theorem execMsTempLost_good {pq : List Instr × Prop} {k : Fin 20} {s : State} (hs : Good pq s) : GoodOut pq (execMsTempLost k s) := by
  unfold execMsTempLost
  repeat' first
    | with_reducible assumption
    | with_reducible refine goodOut_next ?_
    | (lift_lets; intro x; refine (fun (hx : Good pq x) => ?_) ?_; clear_value x)
    | (intro x; subst x)
    | with_reducible refine State.event_good ?_
    | with_reducible refine State.setFld_good ?_
    | with_reducible refine State.setThrottle_good ?_
    | with_reducible refine ite_good (fun _ => ?_) (fun _ => ?_)
    | with_reducible refine iteOut_good (fun _ => ?_) (fun _ => ?_)
    | with_reducible refine foldl_good (fun _ _ _ => ?_) ?_
    | with_reducible refine foldl_fst (fun _ _ _ => ?_) ?_
    | with_reducible refine foldl_snd (fun _ _ _ => ?_) ?_
    | subst x
    | with_reducible split
    | dsimp only

theorem execLpTempReport_good {pq : List Instr × Prop} {k : Fin 32} {temp : W16} {s : State} (hs : Good pq s) : GoodOut pq (execLpTempReport k temp s) := by
  unfold execLpTempReport
  repeat' first
    | with_reducible assumption
    | with_reducible refine goodOut_next ?_
    | (lift_lets; intro x; refine (fun (hx : Good pq x) => ?_) ?_; clear_value x)
    | (intro x; subst x)
    | with_reducible refine State.event_good ?_
    | with_reducible refine State.setFld_good ?_
    | with_reducible refine State.withMs_good _ ?_
    | with_reducible refine ite_good (fun _ => ?_) (fun _ => ?_)
    | with_reducible refine iteOut_good (fun _ => ?_) (fun _ => ?_)
    | with_reducible refine foldl_good (fun _ _ _ => ?_) ?_
    | with_reducible refine foldl_fst (fun _ _ _ => ?_) ?_
    | with_reducible refine foldl_snd (fun _ _ _ => ?_) ?_
    | subst x
    | with_reducible split
    | dsimp only

theorem execMscFenceWrite_good {pq : List Instr × Prop} {k : Fin 20} {chan : W32} {s : State} (hs : Good pq s) : GoodOut pq (execMscFenceWrite k chan s) := by
  unfold execMscFenceWrite
  repeat' first
    | with_reducible assumption
    | with_reducible refine goodOut_next ?_
    | (lift_lets; intro x; refine (fun (hx : Good pq x) => ?_) ?_; clear_value x)
    | (intro x; subst x)
    | with_reducible refine State.fenceChan_good ?_
    | with_reducible refine ite_good (fun _ => ?_) (fun _ => ?_)
    | with_reducible refine iteOut_good (fun _ => ?_) (fun _ => ?_)
    | with_reducible refine foldl_good (fun _ _ _ => ?_) ?_
    | with_reducible refine foldl_fst (fun _ _ _ => ?_) ?_
    | with_reducible refine foldl_snd (fun _ _ _ => ?_) ?_
    | subst x
    | with_reducible split
    | dsimp only

theorem execLpcFenceWrite_good {pq : List Instr × Prop} {k : Fin 16} {lp : BitVec 2} {s : State} (hs : Good pq s) : GoodOut pq (execLpcFenceWrite k lp s) := by
  unfold execLpcFenceWrite
  repeat' first
    | with_reducible assumption
    | with_reducible refine goodOut_next ?_
    | (lift_lets; intro x; refine (fun (hx : Good pq x) => ?_) ?_; clear_value x)
    | (intro x; subst x)
    | with_reducible refine State.fenceLp_good ?_
    | with_reducible refine ite_good (fun _ => ?_) (fun _ => ?_)
    | with_reducible refine iteOut_good (fun _ => ?_) (fun _ => ?_)
    | with_reducible refine foldl_good (fun _ _ _ => ?_) ?_
    | with_reducible refine foldl_fst (fun _ _ _ => ?_) ?_
    | with_reducible refine foldl_snd (fun _ _ _ => ?_) ?_
    | subst x
    | with_reducible split
    | dsimp only

theorem State.ctlFails_good {pq : List Instr × Prop} {s : State} {m : MemCtl} (hs : Good pq s) : Good pq (State.ctlFails s m) := by
  unfold State.ctlFails
  repeat' first
    | with_reducible assumption
    | with_reducible refine goodOut_next ?_
    | (lift_lets; intro x; refine (fun (hx : Good pq x) => ?_) ?_; clear_value x)
    | (intro x; subst x)
    | with_reducible refine State.fenceStack_good ?_
    | with_reducible refine ite_good (fun _ => ?_) (fun _ => ?_)
    | with_reducible refine iteOut_good (fun _ => ?_) (fun _ => ?_)
    | with_reducible refine foldl_good (fun _ _ _ => ?_) ?_
    | with_reducible refine foldl_fst (fun _ _ _ => ?_) ?_
    | with_reducible refine foldl_snd (fun _ _ _ => ?_) ?_
    | subst x
    | with_reducible split
    | dsimp only

theorem execScrubPass_good {pq : List Instr × Prop} {m : MemCtl} {errs : ScrubErrs} {s : State} (hs : Good pq s) : GoodOut pq (execScrubPass m errs s) := by
  unfold execScrubPass
  repeat' first
    | with_reducible assumption
    | with_reducible refine goodOut_next ?_
    | (lift_lets; intro x; refine (fun (hx : Good pq x) => ?_) ?_; clear_value x)
    | (intro x; subst x)
    | with_reducible refine State.ctlFails_good ?_
    | with_reducible refine State.lineCe_good ?_
    | with_reducible refine State.lineUe_good ?_
    | with_reducible refine ite_good (fun _ => ?_) (fun _ => ?_)
    | with_reducible refine iteOut_good (fun _ => ?_) (fun _ => ?_)
    | with_reducible refine foldl_good (fun _ _ _ => ?_) ?_
    | with_reducible refine foldl_fst (fun _ _ _ => ?_) ?_
    | with_reducible refine foldl_snd (fun _ _ _ => ?_) ?_
    | subst x
    | with_reducible split
    | dsimp only

theorem execMscEccRead_good {pq : List Instr × Prop} {m : MemCtl} {s : State} (hs : Good pq s) : GoodOut pq (execMscEccRead m s) := by
  unfold execMscEccRead
  repeat' first
    | with_reducible assumption
    | with_reducible refine goodOut_next ?_
    | (lift_lets; intro x; refine (fun (hx : Good pq x) => ?_) ?_; clear_value x)
    | (intro x; subst x)
    | with_reducible refine State.readClear_good ?_
    | with_reducible refine ite_good (fun _ => ?_) (fun _ => ?_)
    | with_reducible refine iteOut_good (fun _ => ?_) (fun _ => ?_)
    | with_reducible refine foldl_good (fun _ _ _ => ?_) ?_
    | with_reducible refine foldl_fst (fun _ _ _ => ?_) ?_
    | with_reducible refine foldl_snd (fun _ _ _ => ?_) ?_
    | subst x
    | with_reducible split
    | dsimp only

theorem State.endUpd_good {pq : List Instr × Prop} {s : State} {k : UpdCmd} {st : Nat} {result : W64} (hs : Good pq s) : Good pq (State.endUpd s k st result) := by
  unfold State.endUpd
  repeat' first
    | with_reducible assumption
    | with_reducible refine goodOut_next ?_
    | (lift_lets; intro x; refine (fun (hx : Good pq x) => ?_) ?_; clear_value x)
    | (intro x; subst x)
    | with_reducible refine State.finCmd_good ?_
    | with_reducible refine State.pumpAll_good ?_
    | with_reducible refine State.setErr_good ?_
    | with_reducible refine State.unwait_good ?_
    | with_reducible refine State.withUpd_good _ ?_
    | with_reducible refine State.writeBack_good ?_
    | with_reducible refine ite_good (fun _ => ?_) (fun _ => ?_)
    | with_reducible refine iteOut_good (fun _ => ?_) (fun _ => ?_)
    | with_reducible refine foldl_good (fun _ _ _ => ?_) ?_
    | with_reducible refine foldl_fst (fun _ _ _ => ?_) ?_
    | with_reducible refine foldl_snd (fun _ _ _ => ?_) ?_
    | subst x
    | with_reducible split
    | dsimp only

theorem State.putUpd_good {pq : List Instr × Prop} {s : State} {k : UpdCmd} (hs : Good pq s) : Good pq (State.putUpd s k) := by
  unfold State.putUpd
  repeat' first
    | with_reducible assumption
    | with_reducible refine goodOut_next ?_
    | (lift_lets; intro x; refine (fun (hx : Good pq x) => ?_) ?_; clear_value x)
    | (intro x; subst x)
    | with_reducible refine State.withUpd_good _ ?_
    | with_reducible refine ite_good (fun _ => ?_) (fun _ => ?_)
    | with_reducible refine iteOut_good (fun _ => ?_) (fun _ => ?_)
    | with_reducible refine foldl_good (fun _ _ _ => ?_) ?_
    | with_reducible refine foldl_fst (fun _ _ _ => ?_) ?_
    | with_reducible refine foldl_snd (fun _ _ _ => ?_) ?_
    | subst x
    | with_reducible split
    | dsimp only

theorem State.startUpd_good {pq : List Instr × Prop} (s : State) (k : UpdCmd) (hs : Good pq s) : GoodOpt pq (fun r => r) (State.startUpd s k) := by
  unfold State.startUpd
  repeat' first
    | with_reducible assumption
    | with_reducible refine goodOpt_some ?_
    | with_reducible refine goodOpt_none
    | with_reducible refine goodOut_next ?_
    | (lift_lets; intro x; refine (fun (hx : Good pq x) => ?_) ?_; clear_value x)
    | (intro x; subst x)
    | with_reducible refine State.consume_good ?_
    | with_reducible refine State.endUpd_good ?_
    | with_reducible refine State.putUpd_good ?_
    | with_reducible refine State.setErr_good ?_
    | with_reducible refine State.setVs_good ?_
    | with_reducible refine State.vtNote_good ?_
    | with_reducible refine iteOpt_good (fun _ => ?_) (fun _ => ?_)
    | with_reducible refine ite_good (fun _ => ?_) (fun _ => ?_)
    | with_reducible refine iteOut_good (fun _ => ?_) (fun _ => ?_)
    | with_reducible refine foldl_good (fun _ _ _ => ?_) ?_
    | with_reducible refine foldl_fst (fun _ _ _ => ?_) ?_
    | with_reducible refine foldl_snd (fun _ _ _ => ?_) ?_
    | subst x
    | with_reducible split
    | dsimp only

theorem State.startUpd_good_eq {pq : List Instr × Prop} {s : State} {k : UpdCmd} {rr} (he : State.startUpd s k = some rr) (hs : Good pq s) : Good pq rr := State.startUpd_good s k hs rr he

-- FOR execUpdateStart
-- HAVE execUpdateStart execUpdateStart_good
theorem execUpdateStart_good {pq : List Instr × Prop} {s0 : State} (hs : Good pq s0) : GoodOut pq (execUpdateStart s0) := by
  have hs1 := State.replayCommit_good hs
  unfold execUpdateStart
  dsimp only
  generalize s0.replayCommit = s at hs1
  split
  · exact goodOut_next hs1
  · split
    · rename_i h
      exact goodOut_next (findSome_good (fun x t h => State.startUpd_good_eq h hs1) h)
    · exact goodOut_next hs1

theorem State.baseInsn_good {pq : List Instr × Prop} {s : State} {u : Nat} {ctx : Nat} {w : W32} (hs : Good pq s) : Good pq (State.baseInsn s u ctx w) := by
  unfold State.baseInsn
  repeat' first
    | with_reducible assumption
    | with_reducible refine goodOut_next ?_
    | (lift_lets; intro x; refine (fun (hx : Good pq x) => ?_) ?_; clear_value x)
    | (intro x; subst x)
    | with_reducible refine State.charge_good ?_
    | with_reducible refine State.setG_good ?_
    | with_reducible refine State.setScratchBytes_good ?_
    | with_reducible refine State.storeNat_good ?_
    | with_reducible refine ite_good (fun _ => ?_) (fun _ => ?_)
    | with_reducible refine iteOut_good (fun _ => ?_) (fun _ => ?_)
    | with_reducible refine foldl_good (fun _ _ _ => ?_) ?_
    | with_reducible refine foldl_fst (fun _ _ _ => ?_) ?_
    | with_reducible refine foldl_snd (fun _ _ _ => ?_) ?_
    | subst x
    | with_reducible split
    | dsimp only

theorem State.baseGroup_good {pq : List Instr × Prop} {s : State} {k : UpdCmd} {u : Nat} (hs : Good pq s) : Good pq (State.baseGroup s k u) := by
  unfold State.baseGroup
  repeat' first
    | with_reducible assumption
    | with_reducible refine goodOut_next ?_
    | (lift_lets; intro x; refine (fun (hx : Good pq x) => ?_) ?_; clear_value x)
    | (intro x; subst x)
    | with_reducible refine State.baseInsn_good ?_
    | with_reducible refine ite_good (fun _ => ?_) (fun _ => ?_)
    | with_reducible refine iteOut_good (fun _ => ?_) (fun _ => ?_)
    | with_reducible refine foldl_good (fun _ _ _ => ?_) ?_
    | with_reducible refine foldl_fst (fun _ _ _ => ?_) ?_
    | with_reducible refine foldl_snd (fun _ _ _ => ?_) ?_
    | subst x
    | with_reducible split
    | dsimp only

theorem State.chargeReads_good {pq : List Instr × Prop} {s : State} {k : UpdCmd} {u : Nat} {c : Nat} {full : Bool} (hs : Good pq s) : Good pq (State.chargeReads s k u c full) := by
  unfold State.chargeReads
  repeat' first
    | with_reducible assumption
    | with_reducible refine goodOut_next ?_
    | (lift_lets; intro x; refine (fun (hx : Good pq x) => ?_) ?_; clear_value x)
    | (intro x; subst x)
    | with_reducible refine State.chargeRuns_good ?_
    | with_reducible refine ite_good (fun _ => ?_) (fun _ => ?_)
    | with_reducible refine iteOut_good (fun _ => ?_) (fun _ => ?_)
    | with_reducible refine foldl_good (fun _ _ _ => ?_) ?_
    | with_reducible refine foldl_fst (fun _ _ _ => ?_) ?_
    | with_reducible refine foldl_snd (fun _ _ _ => ?_) ?_
    | subst x
    | with_reducible split
    | dsimp only

theorem State.countUpd_good {pq : List Instr × Prop} {s : State} {u : Nat} {k : UpdCmd} {l : List (Nat × Events)} (hs : Good pq s) : Good pq (State.countUpd s u k l) := by
  unfold State.countUpd
  repeat' first
    | with_reducible assumption
    | with_reducible refine goodOut_next ?_
    | (lift_lets; intro x; refine (fun (hx : Good pq x) => ?_) ?_; clear_value x)
    | (intro x; subst x)
    | with_reducible refine State.countEvents_good ?_
    | with_reducible refine ite_good (fun _ => ?_) (fun _ => ?_)
    | with_reducible refine iteOut_good (fun _ => ?_) (fun _ => ?_)
    | with_reducible refine foldl_good (fun _ _ _ => ?_) ?_
    | with_reducible refine foldl_fst (fun _ _ _ => ?_) ?_
    | with_reducible refine foldl_snd (fun _ _ _ => ?_) ?_
    | subst x
    | with_reducible split
    | dsimp only

theorem State.redoWork_good {pq : List Instr × Prop} {s : State} {k : UpdCmd} {u : Nat} {c : Nat} {rec : List W64} (hs : Good pq s) : Good pq (State.redoWork s k u c rec) := by
  unfold State.redoWork
  repeat' first
    | with_reducible assumption
    | with_reducible refine goodOut_next ?_
    | (lift_lets; intro x; refine (fun (hx : Good pq x) => ?_) ?_; clear_value x)
    | (intro x; subst x)
    | with_reducible refine State.addFld_good ?_
    | with_reducible refine State.chargeReads_good ?_
    | with_reducible refine State.chargeRuns_good ?_
    | with_reducible refine State.countUpd_good ?_
    | with_reducible refine State.putRecord_good ?_
    | with_reducible refine State.putUpd_good ?_
    | with_reducible refine State.setErr_good ?_
    | with_reducible refine State.storeBytes_good ?_
    | with_reducible refine ite_good (fun _ => ?_) (fun _ => ?_)
    | with_reducible refine iteOut_good (fun _ => ?_) (fun _ => ?_)
    | with_reducible refine foldl_good (fun _ _ _ => ?_) ?_
    | with_reducible refine foldl_fst (fun _ _ _ => ?_) ?_
    | with_reducible refine foldl_snd (fun _ _ _ => ?_) ?_
    | subst x
    | with_reducible split
    | dsimp only

theorem State.settleChunk_good {pq : List Instr × Prop} {s : State} {j : Journal} (hs : Good pq s) : Good pq (State.settleChunk s j) := by
  unfold State.settleChunk
  repeat' first
    | with_reducible assumption
    | with_reducible refine goodOut_next ?_
    | (lift_lets; intro x; refine (fun (hx : Good pq x) => ?_) ?_; clear_value x)
    | (intro x; subst x)
    | with_reducible refine State.putUpd_good ?_
    | with_reducible refine State.writeBack_good ?_
    | with_reducible refine ite_good (fun _ => ?_) (fun _ => ?_)
    | with_reducible refine iteOut_good (fun _ => ?_) (fun _ => ?_)
    | with_reducible refine foldl_good (fun _ _ _ => ?_) ?_
    | with_reducible refine foldl_fst (fun _ _ _ => ?_) ?_
    | with_reducible refine foldl_snd (fun _ _ _ => ?_) ?_
    | subst x
    | with_reducible split
    | dsimp only

theorem State.finishChunk_good {pq : List Instr × Prop} {s : State} {k : UpdCmd} {u : Nat} {c : Nat} {els : List UpdEl} {bad : Bool} (hs : Good pq s) : Good pq (State.finishChunk s k u c els bad) := by
  unfold State.finishChunk
  repeat' first
    | with_reducible assumption
    | with_reducible refine goodOut_next ?_
    | (lift_lets; intro x; refine (fun (hx : Good pq x) => ?_) ?_; clear_value x)
    | (intro x; subst x)
    | with_reducible refine State.addFld_good ?_
    | with_reducible refine State.chargeReads_good ?_
    | with_reducible refine State.countUpd_good ?_
    | with_reducible refine State.draw_good ?_
    | with_reducible refine State.putUpd_good ?_
    | with_reducible refine State.setErr_good ?_
    | with_reducible refine State.settleChunk_good ?_
    | with_reducible refine State.withJournals_good _ ?_
    | with_reducible refine State.draw_good_eq (by with_reducible assumption) ?_
    | with_reducible refine ite_good (fun _ => ?_) (fun _ => ?_)
    | with_reducible refine iteOut_good (fun _ => ?_) (fun _ => ?_)
    | with_reducible refine foldl_good (fun _ _ _ => ?_) ?_
    | with_reducible refine foldl_fst (fun _ _ _ => ?_) ?_
    | with_reducible refine foldl_snd (fun _ _ _ => ?_) ?_
    | subst x
    | with_reducible split
    | dsimp only

theorem State.computeChunk_good {pq : List Instr × Prop} {s : State} {k : UpdCmd} {u : Nat} {c : Nat} {recBad : Bool} (hs : Good pq s) : Good pq (State.computeChunk s k u c recBad) := by
  unfold State.computeChunk
  repeat' first
    | with_reducible assumption
    | with_reducible refine goodOut_next ?_
    | (lift_lets; intro x; refine (fun (hx : Good pq x) => ?_) ?_; clear_value x)
    | (intro x; subst x)
    | with_reducible refine State.baseGroup_good ?_
    | with_reducible refine State.finishChunk_good ?_
    | with_reducible refine State.setUu_good ?_
    | with_reducible refine ite_good (fun _ => ?_) (fun _ => ?_)
    | with_reducible refine iteOut_good (fun _ => ?_) (fun _ => ?_)
    | with_reducible refine foldl_good (fun _ _ _ => ?_) ?_
    | with_reducible refine foldl_fst (fun _ _ _ => ?_) ?_
    | with_reducible refine foldl_snd (fun _ _ _ => ?_) ?_
    | subst x
    | with_reducible split
    | dsimp only

theorem State.dropJournal_good {pq : List Instr × Prop} {s : State} {u : Nat} {j : Journal} (hs : Good pq s) : Good pq (State.dropJournal s u j) := by
  unfold State.dropJournal
  repeat' first
    | with_reducible assumption
    | with_reducible refine goodOut_next ?_
    | (lift_lets; intro x; refine (fun (hx : Good pq x) => ?_) ?_; clear_value x)
    | (intro x; subst x)
    | with_reducible refine State.putUpd_good ?_
    | with_reducible refine State.withJournals_good _ ?_
    | with_reducible refine ite_good (fun _ => ?_) (fun _ => ?_)
    | with_reducible refine iteOut_good (fun _ => ?_) (fun _ => ?_)
    | with_reducible refine foldl_good (fun _ _ _ => ?_) ?_
    | with_reducible refine foldl_fst (fun _ _ _ => ?_) ?_
    | with_reducible refine foldl_snd (fun _ _ _ => ?_) ?_
    | subst x
    | with_reducible split
    | dsimp only

theorem State.handOver_good {pq : List Instr × Prop} {s : State} {u : Nat} {j : Journal} (hs : Good pq s) : Good pq (State.handOver s u j) := by
  unfold State.handOver
  repeat' first
    | with_reducible assumption
    | with_reducible refine goodOut_next ?_
    | (lift_lets; intro x; refine (fun (hx : Good pq x) => ?_) ?_; clear_value x)
    | (intro x; subst x)
    | with_reducible refine State.dropJournal_good ?_
    | with_reducible refine State.setErr_good ?_
    | with_reducible refine State.settleChunk_good ?_
    | with_reducible refine ite_good (fun _ => ?_) (fun _ => ?_)
    | with_reducible refine iteOut_good (fun _ => ?_) (fun _ => ?_)
    | with_reducible refine foldl_good (fun _ _ _ => ?_) ?_
    | with_reducible refine foldl_fst (fun _ _ _ => ?_) ?_
    | with_reducible refine foldl_snd (fun _ _ _ => ?_) ?_
    | subst x
    | with_reducible split
    | dsimp only

theorem State.remirror_good {pq : List Instr × Prop} {s : State} {j : Journal} (hs : Good pq s) : Good pq (State.remirror s j) := by
  unfold State.remirror
  repeat' first
    | with_reducible assumption
    | with_reducible refine goodOut_next ?_
    | (lift_lets; intro x; refine (fun (hx : Good pq x) => ?_) ?_; clear_value x)
    | (intro x; subst x)
    | with_reducible refine State.settleChunk_good ?_
    | with_reducible refine State.withJournals_good _ ?_
    | with_reducible refine ite_good (fun _ => ?_) (fun _ => ?_)
    | with_reducible refine iteOut_good (fun _ => ?_) (fun _ => ?_)
    | with_reducible refine foldl_good (fun _ _ _ => ?_) ?_
    | with_reducible refine foldl_fst (fun _ _ _ => ?_) ?_
    | with_reducible refine foldl_snd (fun _ _ _ => ?_) ?_
    | subst x
    | with_reducible split
    | dsimp only

theorem State.moveUnit_good {pq : List Instr × Prop} {s : State} {u : Nat} (hs : Good pq s) : Good pq (State.moveUnit s u) := by
  unfold State.moveUnit
  repeat' first
    | with_reducible assumption
    | with_reducible refine goodOut_next ?_
    | (lift_lets; intro x; refine (fun (hx : Good pq x) => ?_) ?_; clear_value x)
    | (intro x; subst x)
    | with_reducible refine State.agentFenced_good ?_
    | with_reducible refine State.handOver_good ?_
    | with_reducible refine State.remirror_good ?_
    | with_reducible refine State.unwait_good ?_
    | with_reducible refine State.withUpd_good _ ?_
    | with_reducible refine ite_good (fun _ => ?_) (fun _ => ?_)
    | with_reducible refine iteOut_good (fun _ => ?_) (fun _ => ?_)
    | with_reducible refine foldl_good (fun _ _ _ => ?_) ?_
    | with_reducible refine foldl_fst (fun _ _ _ => ?_) ?_
    | with_reducible refine foldl_snd (fun _ _ _ => ?_) ?_
    | subst x
    | with_reducible split
    | dsimp only

theorem State.fenceUu_good {pq : List Instr × Prop} {s : State} {u : Nat} {cause : Nat} (hs : Good pq s) : Good pq (State.fenceUu s u cause) := by
  unfold State.fenceUu
  repeat' first
    | with_reducible assumption
    | with_reducible refine goodOut_next ?_
    | (lift_lets; intro x; refine (fun (hx : Good pq x) => ?_) ?_; clear_value x)
    | (intro x; subst x)
    | with_reducible refine State.fenceEngine_good ?_
    | with_reducible refine State.moveUnit_good ?_
    | with_reducible refine ite_good (fun _ => ?_) (fun _ => ?_)
    | with_reducible refine iteOut_good (fun _ => ?_) (fun _ => ?_)
    | with_reducible refine foldl_good (fun _ _ _ => ?_) ?_
    | with_reducible refine foldl_fst (fun _ _ _ => ?_) ?_
    | with_reducible refine foldl_snd (fun _ _ _ => ?_) ?_
    | subst x
    | with_reducible split
    | dsimp only

theorem State.strikeUu_good {pq : List Instr × Prop} {s : State} {u : Nat} {ctx : Nat} (hs : Good pq s) : Good pq (State.strikeUu s u ctx) := by
  unfold State.strikeUu
  repeat' first
    | with_reducible assumption
    | with_reducible refine goodOut_next ?_
    | (lift_lets; intro x; refine (fun (hx : Good pq x) => ?_) ?_; clear_value x)
    | (intro x; subst x)
    | with_reducible refine State.fenceUu_good ?_
    | with_reducible refine State.strikeRec_good ?_
    | with_reducible refine State.strikeRec_good_eq (by with_reducible assumption) ?_
    | with_reducible refine ite_good (fun _ => ?_) (fun _ => ?_)
    | with_reducible refine iteOut_good (fun _ => ?_) (fun _ => ?_)
    | with_reducible refine foldl_good (fun _ _ _ => ?_) ?_
    | with_reducible refine foldl_fst (fun _ _ _ => ?_) ?_
    | with_reducible refine foldl_snd (fun _ _ _ => ?_) ?_
    | subst x
    | with_reducible split
    | dsimp only

theorem State.parityChunk_good {pq : List Instr × Prop} {s : State} {k : UpdCmd} {u : Nat} (hs : Good pq s) : Good pq (State.parityChunk s k u) := by
  unfold State.parityChunk
  repeat' first
    | with_reducible assumption
    | with_reducible refine goodOut_next ?_
    | (lift_lets; intro x; refine (fun (hx : Good pq x) => ?_) ?_; clear_value x)
    | (intro x; subst x)
    | with_reducible refine State.endUpd_good ?_
    | with_reducible refine State.event_good ?_
    | with_reducible refine State.setErr_good ?_
    | with_reducible refine State.strikeUu_good ?_
    | with_reducible refine ite_good (fun _ => ?_) (fun _ => ?_)
    | with_reducible refine iteOut_good (fun _ => ?_) (fun _ => ?_)
    | with_reducible refine foldl_good (fun _ _ _ => ?_) ?_
    | with_reducible refine foldl_fst (fun _ _ _ => ?_) ?_
    | with_reducible refine foldl_snd (fun _ _ _ => ?_) ?_
    | subst x
    | with_reducible split
    | dsimp only

theorem State.runChunk_good {pq : List Instr × Prop} {s : State} {k : UpdCmd} {u : Nat} {c : Nat} {parity : Bool} (hs : Good pq s) : Good pq (State.runChunk s k u c parity) := by
  unfold State.runChunk
  repeat' first
    | with_reducible assumption
    | with_reducible refine goodOut_next ?_
    | (lift_lets; intro x; refine (fun (hx : Good pq x) => ?_) ?_; clear_value x)
    | (intro x; subst x)
    | with_reducible refine State.charge_good ?_
    | with_reducible refine State.computeChunk_good ?_
    | with_reducible refine State.endUpd_good ?_
    | with_reducible refine State.parityChunk_good ?_
    | with_reducible refine State.redoWork_good ?_
    | with_reducible refine State.setErr_good ?_
    | with_reducible refine State.setUu_good ?_
    | with_reducible refine State.settleChunk_good ?_
    | with_reducible refine ite_good (fun _ => ?_) (fun _ => ?_)
    | with_reducible refine iteOut_good (fun _ => ?_) (fun _ => ?_)
    | with_reducible refine foldl_good (fun _ _ _ => ?_) ?_
    | with_reducible refine foldl_fst (fun _ _ _ => ?_) ?_
    | with_reducible refine foldl_snd (fun _ _ _ => ?_) ?_
    | subst x
    | with_reducible split
    | dsimp only

theorem execUuChunkRun_good {pq : List Instr × Prop} {u : Met (Fin 36)} {parity : Bool} {s0 : State} (hs : Good pq s0) : GoodOut pq (execUuChunkRun u parity s0) := by
  unfold execUuChunkRun
  repeat' first
    | with_reducible assumption
    | with_reducible refine goodOut_next ?_
    | (lift_lets; intro x; refine (fun (hx : Good pq x) => ?_) ?_; clear_value x)
    | (intro x; subst x)
    | with_reducible refine State.meet_good ?_
    | with_reducible refine State.runChunk_good ?_
    | with_reducible refine ite_good (fun _ => ?_) (fun _ => ?_)
    | with_reducible refine iteOut_good (fun _ => ?_) (fun _ => ?_)
    | with_reducible refine foldl_good (fun _ _ _ => ?_) ?_
    | with_reducible refine foldl_fst (fun _ _ _ => ?_) ?_
    | with_reducible refine foldl_snd (fun _ _ _ => ?_) ?_
    | subst x
    | with_reducible split
    | dsimp only

theorem execJournalMirrorAck_good {pq : List Instr × Prop} {u : Fin 36} {s : State} (hs : Good pq s) : GoodOut pq (execJournalMirrorAck u s) := by
  unfold execJournalMirrorAck
  repeat' first
    | with_reducible assumption
    | with_reducible refine goodOut_next ?_
    | (lift_lets; intro x; refine (fun (hx : Good pq x) => ?_) ?_; clear_value x)
    | (intro x; subst x)
    | with_reducible refine State.settleChunk_good ?_
    | with_reducible refine ite_good (fun _ => ?_) (fun _ => ?_)
    | with_reducible refine iteOut_good (fun _ => ?_) (fun _ => ?_)
    | with_reducible refine foldl_good (fun _ _ _ => ?_) ?_
    | with_reducible refine foldl_fst (fun _ _ _ => ?_) ?_
    | with_reducible refine foldl_snd (fun _ _ _ => ?_) ?_
    | subst x
    | with_reducible split
    | dsimp only

theorem State.segmentPass_good {pq : List Instr × Prop} {s : State} {k : UpdCmd} {u : Nat} (hs : Good pq s) : Good pq (State.segmentPass s k u) := by
  unfold State.segmentPass
  repeat' first
    | with_reducible assumption
    | with_reducible refine goodOut_next ?_
    | (lift_lets; intro x; refine (fun (hx : Good pq x) => ?_) ?_; clear_value x)
    | (intro x; subst x)
    | with_reducible refine State.chargeRuns_good ?_
    | with_reducible refine State.countUpd_good ?_
    | with_reducible refine State.putRecord_good ?_
    | with_reducible refine State.putUpd_good ?_
    | with_reducible refine State.setErr_good ?_
    | with_reducible refine State.storeBytes_good ?_
    | with_reducible refine ite_good (fun _ => ?_) (fun _ => ?_)
    | with_reducible refine iteOut_good (fun _ => ?_) (fun _ => ?_)
    | with_reducible refine foldl_good (fun _ _ _ => ?_) ?_
    | with_reducible refine foldl_fst (fun _ _ _ => ?_) ?_
    | with_reducible refine foldl_snd (fun _ _ _ => ?_) ?_
    | subst x
    | with_reducible split
    | dsimp only

theorem execUuSegmentPass_good {pq : List Instr × Prop} {u : Met (Fin 36)} {s0 : State} (hs : Good pq s0) : GoodOut pq (execUuSegmentPass u s0) := by
  unfold execUuSegmentPass
  repeat' first
    | with_reducible assumption
    | with_reducible refine goodOut_next ?_
    | (lift_lets; intro x; refine (fun (hx : Good pq x) => ?_) ?_; clear_value x)
    | (intro x; subst x)
    | with_reducible refine State.meet_good ?_
    | with_reducible refine State.segmentPass_good ?_
    | with_reducible refine ite_good (fun _ => ?_) (fun _ => ?_)
    | with_reducible refine iteOut_good (fun _ => ?_) (fun _ => ?_)
    | with_reducible refine foldl_good (fun _ _ _ => ?_) ?_
    | with_reducible refine foldl_fst (fun _ _ _ => ?_) ?_
    | with_reducible refine foldl_snd (fun _ _ _ => ?_) ?_
    | subst x
    | with_reducible split
    | dsimp only

theorem State.stageCommit_good {pq : List Instr × Prop} {s : State} {k : UpdCmd} (hs : Good pq s) : Good pq (State.stageCommit s k) := by
  unfold State.stageCommit
  repeat' first
    | with_reducible assumption
    | with_reducible refine goodOut_next ?_
    | (lift_lets; intro x; refine (fun (hx : Good pq x) => ?_) ?_; clear_value x)
    | (intro x; subst x)
    | with_reducible refine State.putUpd_good ?_
    | with_reducible refine State.setErr_good ?_
    | with_reducible refine State.vtNote_good ?_
    | with_reducible refine State.withCommit_good _ ?_
    | with_reducible refine ite_good (fun _ => ?_) (fun _ => ?_)
    | with_reducible refine iteOut_good (fun _ => ?_) (fun _ => ?_)
    | with_reducible refine foldl_good (fun _ _ _ => ?_) ?_
    | with_reducible refine foldl_fst (fun _ _ _ => ?_) ?_
    | with_reducible refine foldl_snd (fun _ _ _ => ?_) ?_
    | subst x
    | with_reducible split
    | dsimp only

theorem State.commitUpd_good {pq : List Instr × Prop} {s : State} {k : UpdCmd} (hs : Good pq s) : Good pq (State.commitUpd s k) := by
  unfold State.commitUpd
  repeat' first
    | with_reducible assumption
    | with_reducible refine goodOut_next ?_
    | (lift_lets; intro x; refine (fun (hx : Good pq x) => ?_) ?_; clear_value x)
    | (intro x; subst x)
    | with_reducible refine State.addFld_good ?_
    | with_reducible refine State.applyCommit_good ?_
    | with_reducible refine State.endUpd_good ?_
    | with_reducible refine State.stageCommit_good ?_
    | with_reducible refine ite_good (fun _ => ?_) (fun _ => ?_)
    | with_reducible refine iteOut_good (fun _ => ?_) (fun _ => ?_)
    | with_reducible refine foldl_good (fun _ _ _ => ?_) ?_
    | with_reducible refine foldl_fst (fun _ _ _ => ?_) ?_
    | with_reducible refine foldl_snd (fun _ _ _ => ?_) ?_
    | subst x
    | with_reducible split
    | dsimp only

theorem State.cutCommit_good {pq : List Instr × Prop} {s : State} (hs : Good pq s) : Good pq (State.cutCommit s) := by
  unfold State.cutCommit
  repeat' first
    | with_reducible assumption
    | with_reducible refine goodOut_next ?_
    | (lift_lets; intro x; refine (fun (hx : Good pq x) => ?_) ?_; clear_value x)
    | (intro x; subst x)
    | with_reducible refine State.draw_good ?_
    | with_reducible refine State.stageCommit_good ?_
    | with_reducible refine State.draw_good_eq (by with_reducible assumption) ?_
    | with_reducible refine ite_good (fun _ => ?_) (fun _ => ?_)
    | with_reducible refine iteOut_good (fun _ => ?_) (fun _ => ?_)
    | with_reducible refine foldl_good (fun _ _ _ => ?_) ?_
    | with_reducible refine foldl_fst (fun _ _ _ => ?_) ?_
    | with_reducible refine foldl_snd (fun _ _ _ => ?_) ?_
    | subst x
    | with_reducible split
    | dsimp only

theorem execUpdateCommit_good {pq : List Instr × Prop} {s : State} (hs : Good pq s) : GoodOut pq (execUpdateCommit s) := by
  unfold execUpdateCommit
  repeat' first
    | with_reducible assumption
    | with_reducible refine goodOut_next ?_
    | (lift_lets; intro x; refine (fun (hx : Good pq x) => ?_) ?_; clear_value x)
    | (intro x; subst x)
    | with_reducible refine State.commitUpd_good ?_
    | with_reducible refine State.consume_good ?_
    | with_reducible refine State.endUpd_good ?_
    | with_reducible refine State.pumpAll_good ?_
    | with_reducible refine State.replayCommit_good ?_
    | with_reducible refine ite_good (fun _ => ?_) (fun _ => ?_)
    | with_reducible refine iteOut_good (fun _ => ?_) (fun _ => ?_)
    | with_reducible refine foldl_good (fun _ _ _ => ?_) ?_
    | with_reducible refine foldl_fst (fun _ _ _ => ?_) ?_
    | with_reducible refine foldl_snd (fun _ _ _ => ?_) ?_
    | subst x
    | with_reducible split
    | dsimp only

theorem State.lanes_good {pq : List Instr × Prop} {s : State} {u : Nat} {op : UOp} (hs : Good pq s) : Good pq (State.lanes s u op) := by
  unfold State.lanes
  repeat' first
    | with_reducible assumption
    | with_reducible refine goodOut_next ?_
    | (lift_lets; intro x; refine (fun (hx : Good pq x) => ?_) ?_; clear_value x)
    | (intro x; subst x)
    | with_reducible refine State.out_good ?_
    | with_reducible refine State.setUu_good ?_
    | with_reducible refine ite_good (fun _ => ?_) (fun _ => ?_)
    | with_reducible refine iteOut_good (fun _ => ?_) (fun _ => ?_)
    | with_reducible refine foldl_good (fun _ _ _ => ?_) ?_
    | with_reducible refine foldl_fst (fun _ _ _ => ?_) ?_
    | with_reducible refine foldl_snd (fun _ _ _ => ?_) ?_
    | subst x
    | with_reducible split
    | dsimp only

theorem State.takeLanes_good {pq : List Instr × Prop} {s : State} {k : UpdCmd} {u : Nat} {h : UuHand} (hs : Good pq s) : Good pq (State.takeLanes s k u h) := by
  unfold State.takeLanes
  repeat' first
    | with_reducible assumption
    | with_reducible refine goodOut_next ?_
    | (lift_lets; intro x; refine (fun (hx : Good pq x) => ?_) ?_; clear_value x)
    | (intro x; subst x)
    | with_reducible refine State.baseGroup_good ?_
    | with_reducible refine State.out_good ?_
    | with_reducible refine State.setUu_good ?_
    | with_reducible refine ite_good (fun _ => ?_) (fun _ => ?_)
    | with_reducible refine iteOut_good (fun _ => ?_) (fun _ => ?_)
    | with_reducible refine foldl_good (fun _ _ _ => ?_) ?_
    | with_reducible refine foldl_fst (fun _ _ _ => ?_) ?_
    | with_reducible refine foldl_snd (fun _ _ _ => ?_) ?_
    | subst x
    | with_reducible split
    | dsimp only

theorem State.takeHand_good {pq : List Instr × Prop} {s : State} {k : UpdCmd} {u : Nat} (hs : Good pq s) : Good pq (State.takeHand s k u) := by
  unfold State.takeHand
  repeat' first
    | with_reducible assumption
    | with_reducible refine goodOut_next ?_
    | (lift_lets; intro x; refine (fun (hx : Good pq x) => ?_) ?_; clear_value x)
    | (intro x; subst x)
    | with_reducible refine State.setUu_good ?_
    | with_reducible refine State.takeLanes_good ?_
    | with_reducible refine ite_good (fun _ => ?_) (fun _ => ?_)
    | with_reducible refine iteOut_good (fun _ => ?_) (fun _ => ?_)
    | with_reducible refine foldl_good (fun _ _ _ => ?_) ?_
    | with_reducible refine foldl_fst (fun _ _ _ => ?_) ?_
    | with_reducible refine foldl_snd (fun _ _ _ => ?_) ?_
    | subst x
    | with_reducible split
    | dsimp only

theorem execUld_good {pq : List Instr × Prop} {u : Fin 36} {rd : Gpr} {stream : Fin 32} {s : State} (hs : Good pq s) : GoodOut pq (execUld u rd stream s) := by
  unfold execUld
  repeat' first
    | with_reducible assumption
    | with_reducible refine goodOut_next ?_
    | (lift_lets; intro x; refine (fun (hx : Good pq x) => ?_) ?_; clear_value x)
    | (intro x; subst x)
    | with_reducible refine State.lanes_good ?_
    | with_reducible refine ite_good (fun _ => ?_) (fun _ => ?_)
    | with_reducible refine iteOut_good (fun _ => ?_) (fun _ => ?_)
    | with_reducible refine foldl_good (fun _ _ _ => ?_) ?_
    | with_reducible refine foldl_fst (fun _ _ _ => ?_) ?_
    | with_reducible refine foldl_snd (fun _ _ _ => ?_) ?_
    | subst x
    | with_reducible split
    | dsimp only

theorem execUst_good {pq : List Instr × Prop} {u : Fin 36} {stream : Fin 32} {rs2 : Gpr} {s : State} (hs : Good pq s) : GoodOut pq (execUst u stream rs2 s) := by
  unfold execUst
  repeat' first
    | with_reducible assumption
    | with_reducible refine goodOut_next ?_
    | (lift_lets; intro x; refine (fun (hx : Good pq x) => ?_) ?_; clear_value x)
    | (intro x; subst x)
    | with_reducible refine State.lanes_good ?_
    | with_reducible refine ite_good (fun _ => ?_) (fun _ => ?_)
    | with_reducible refine iteOut_good (fun _ => ?_) (fun _ => ?_)
    | with_reducible refine foldl_good (fun _ _ _ => ?_) ?_
    | with_reducible refine foldl_fst (fun _ _ _ => ?_) ?_
    | with_reducible refine foldl_snd (fun _ _ _ => ?_) ?_
    | subst x
    | with_reducible split
    | dsimp only

theorem execUkset_good {pq : List Instr × Prop} {u : Fin 36} {rd : Fin 16} {rs1 : Gpr} {s : State} (hs : Good pq s) : GoodOut pq (execUkset u rd rs1 s) := by
  unfold execUkset
  repeat' first
    | with_reducible assumption
    | with_reducible refine goodOut_next ?_
    | (lift_lets; intro x; refine (fun (hx : Good pq x) => ?_) ?_; clear_value x)
    | (intro x; subst x)
    | with_reducible refine State.nextPc_good ?_
    | with_reducible refine State.putUpd_good ?_
    | with_reducible refine State.setUu_good ?_
    | with_reducible refine ite_good (fun _ => ?_) (fun _ => ?_)
    | with_reducible refine iteOut_good (fun _ => ?_) (fun _ => ?_)
    | with_reducible refine foldl_good (fun _ _ _ => ?_) ?_
    | with_reducible refine foldl_fst (fun _ _ _ => ?_) ?_
    | with_reducible refine foldl_snd (fun _ _ _ => ?_) ?_
    | subst x
    | with_reducible split
    | dsimp only

theorem execUadd_good {pq : List Instr × Prop} {u : Fin 36} {dbl : Bool} {rd : Gpr} {rs1 : Gpr} {rs2 : Gpr} {s : State} (hs : Good pq s) : GoodOut pq (execUadd u dbl rd rs1 rs2 s) := by
  unfold execUadd
  repeat' first
    | with_reducible assumption
    | with_reducible refine goodOut_next ?_
    | (lift_lets; intro x; refine (fun (hx : Good pq x) => ?_) ?_; clear_value x)
    | (intro x; subst x)
    | with_reducible refine State.lanes_good ?_
    | with_reducible refine ite_good (fun _ => ?_) (fun _ => ?_)
    | with_reducible refine iteOut_good (fun _ => ?_) (fun _ => ?_)
    | with_reducible refine foldl_good (fun _ _ _ => ?_) ?_
    | with_reducible refine foldl_fst (fun _ _ _ => ?_) ?_
    | with_reducible refine foldl_snd (fun _ _ _ => ?_) ?_
    | subst x
    | with_reducible split
    | dsimp only

theorem execUsub_good {pq : List Instr × Prop} {u : Fin 36} {dbl : Bool} {rd : Gpr} {rs1 : Gpr} {rs2 : Gpr} {s : State} (hs : Good pq s) : GoodOut pq (execUsub u dbl rd rs1 rs2 s) := by
  unfold execUsub
  repeat' first
    | with_reducible assumption
    | with_reducible refine goodOut_next ?_
    | (lift_lets; intro x; refine (fun (hx : Good pq x) => ?_) ?_; clear_value x)
    | (intro x; subst x)
    | with_reducible refine State.lanes_good ?_
    | with_reducible refine ite_good (fun _ => ?_) (fun _ => ?_)
    | with_reducible refine iteOut_good (fun _ => ?_) (fun _ => ?_)
    | with_reducible refine foldl_good (fun _ _ _ => ?_) ?_
    | with_reducible refine foldl_fst (fun _ _ _ => ?_) ?_
    | with_reducible refine foldl_snd (fun _ _ _ => ?_) ?_
    | subst x
    | with_reducible split
    | dsimp only

theorem execUmul_good {pq : List Instr × Prop} {u : Fin 36} {dbl : Bool} {rd : Gpr} {rs1 : Gpr} {rs2 : Gpr} {s : State} (hs : Good pq s) : GoodOut pq (execUmul u dbl rd rs1 rs2 s) := by
  unfold execUmul
  repeat' first
    | with_reducible assumption
    | with_reducible refine goodOut_next ?_
    | (lift_lets; intro x; refine (fun (hx : Good pq x) => ?_) ?_; clear_value x)
    | (intro x; subst x)
    | with_reducible refine State.lanes_good ?_
    | with_reducible refine ite_good (fun _ => ?_) (fun _ => ?_)
    | with_reducible refine iteOut_good (fun _ => ?_) (fun _ => ?_)
    | with_reducible refine foldl_good (fun _ _ _ => ?_) ?_
    | with_reducible refine foldl_fst (fun _ _ _ => ?_) ?_
    | with_reducible refine foldl_snd (fun _ _ _ => ?_) ?_
    | subst x
    | with_reducible split
    | dsimp only

theorem execUdiv_good {pq : List Instr × Prop} {u : Fin 36} {dbl : Bool} {rd : Gpr} {rs1 : Gpr} {rs2 : Gpr} {s : State} (hs : Good pq s) : GoodOut pq (execUdiv u dbl rd rs1 rs2 s) := by
  unfold execUdiv
  repeat' first
    | with_reducible assumption
    | with_reducible refine goodOut_next ?_
    | (lift_lets; intro x; refine (fun (hx : Good pq x) => ?_) ?_; clear_value x)
    | (intro x; subst x)
    | with_reducible refine State.lanes_good ?_
    | with_reducible refine ite_good (fun _ => ?_) (fun _ => ?_)
    | with_reducible refine iteOut_good (fun _ => ?_) (fun _ => ?_)
    | with_reducible refine foldl_good (fun _ _ _ => ?_) ?_
    | with_reducible refine foldl_fst (fun _ _ _ => ?_) ?_
    | with_reducible refine foldl_snd (fun _ _ _ => ?_) ?_
    | subst x
    | with_reducible split
    | dsimp only

theorem execUfma_good {pq : List Instr × Prop} {u : Fin 36} {dbl : Bool} {rd : Gpr} {rs1 : Gpr} {rs2 : Gpr} {s : State} (hs : Good pq s) : GoodOut pq (execUfma u dbl rd rs1 rs2 s) := by
  unfold execUfma
  repeat' first
    | with_reducible assumption
    | with_reducible refine goodOut_next ?_
    | (lift_lets; intro x; refine (fun (hx : Good pq x) => ?_) ?_; clear_value x)
    | (intro x; subst x)
    | with_reducible refine State.lanes_good ?_
    | with_reducible refine ite_good (fun _ => ?_) (fun _ => ?_)
    | with_reducible refine iteOut_good (fun _ => ?_) (fun _ => ?_)
    | with_reducible refine foldl_good (fun _ _ _ => ?_) ?_
    | with_reducible refine foldl_fst (fun _ _ _ => ?_) ?_
    | with_reducible refine foldl_snd (fun _ _ _ => ?_) ?_
    | subst x
    | with_reducible split
    | dsimp only

theorem execUsqrt_good {pq : List Instr × Prop} {u : Fin 36} {dbl : Bool} {rd : Gpr} {rs1 : Gpr} {s : State} (hs : Good pq s) : GoodOut pq (execUsqrt u dbl rd rs1 s) := by
  unfold execUsqrt
  repeat' first
    | with_reducible assumption
    | with_reducible refine goodOut_next ?_
    | (lift_lets; intro x; refine (fun (hx : Good pq x) => ?_) ?_; clear_value x)
    | (intro x; subst x)
    | with_reducible refine State.lanes_good ?_
    | with_reducible refine ite_good (fun _ => ?_) (fun _ => ?_)
    | with_reducible refine iteOut_good (fun _ => ?_) (fun _ => ?_)
    | with_reducible refine foldl_good (fun _ _ _ => ?_) ?_
    | with_reducible refine foldl_fst (fun _ _ _ => ?_) ?_
    | with_reducible refine foldl_snd (fun _ _ _ => ?_) ?_
    | subst x
    | with_reducible split
    | dsimp only

theorem execUmax_good {pq : List Instr × Prop} {u : Fin 36} {dbl : Bool} {rd : Gpr} {rs1 : Gpr} {rs2 : Gpr} {s : State} (hs : Good pq s) : GoodOut pq (execUmax u dbl rd rs1 rs2 s) := by
  unfold execUmax
  repeat' first
    | with_reducible assumption
    | with_reducible refine goodOut_next ?_
    | (lift_lets; intro x; refine (fun (hx : Good pq x) => ?_) ?_; clear_value x)
    | (intro x; subst x)
    | with_reducible refine State.lanes_good ?_
    | with_reducible refine ite_good (fun _ => ?_) (fun _ => ?_)
    | with_reducible refine iteOut_good (fun _ => ?_) (fun _ => ?_)
    | with_reducible refine foldl_good (fun _ _ _ => ?_) ?_
    | with_reducible refine foldl_fst (fun _ _ _ => ?_) ?_
    | with_reducible refine foldl_snd (fun _ _ _ => ?_) ?_
    | subst x
    | with_reducible split
    | dsimp only

theorem execUmin_good {pq : List Instr × Prop} {u : Fin 36} {dbl : Bool} {rd : Gpr} {rs1 : Gpr} {rs2 : Gpr} {s : State} (hs : Good pq s) : GoodOut pq (execUmin u dbl rd rs1 rs2 s) := by
  unfold execUmin
  repeat' first
    | with_reducible assumption
    | with_reducible refine goodOut_next ?_
    | (lift_lets; intro x; refine (fun (hx : Good pq x) => ?_) ?_; clear_value x)
    | (intro x; subst x)
    | with_reducible refine State.lanes_good ?_
    | with_reducible refine ite_good (fun _ => ?_) (fun _ => ?_)
    | with_reducible refine iteOut_good (fun _ => ?_) (fun _ => ?_)
    | with_reducible refine foldl_good (fun _ _ _ => ?_) ?_
    | with_reducible refine foldl_fst (fun _ _ _ => ?_) ?_
    | with_reducible refine foldl_snd (fun _ _ _ => ?_) ?_
    | subst x
    | with_reducible split
    | dsimp only

theorem execUabs_good {pq : List Instr × Prop} {u : Fin 36} {dbl : Bool} {rd : Gpr} {rs1 : Gpr} {s : State} (hs : Good pq s) : GoodOut pq (execUabs u dbl rd rs1 s) := by
  unfold execUabs
  repeat' first
    | with_reducible assumption
    | with_reducible refine goodOut_next ?_
    | (lift_lets; intro x; refine (fun (hx : Good pq x) => ?_) ?_; clear_value x)
    | (intro x; subst x)
    | with_reducible refine State.lanes_good ?_
    | with_reducible refine ite_good (fun _ => ?_) (fun _ => ?_)
    | with_reducible refine iteOut_good (fun _ => ?_) (fun _ => ?_)
    | with_reducible refine foldl_good (fun _ _ _ => ?_) ?_
    | with_reducible refine foldl_fst (fun _ _ _ => ?_) ?_
    | with_reducible refine foldl_snd (fun _ _ _ => ?_) ?_
    | subst x
    | with_reducible split
    | dsimp only

theorem execUneg_good {pq : List Instr × Prop} {u : Fin 36} {dbl : Bool} {rd : Gpr} {rs1 : Gpr} {s : State} (hs : Good pq s) : GoodOut pq (execUneg u dbl rd rs1 s) := by
  unfold execUneg
  repeat' first
    | with_reducible assumption
    | with_reducible refine goodOut_next ?_
    | (lift_lets; intro x; refine (fun (hx : Good pq x) => ?_) ?_; clear_value x)
    | (intro x; subst x)
    | with_reducible refine State.lanes_good ?_
    | with_reducible refine ite_good (fun _ => ?_) (fun _ => ?_)
    | with_reducible refine iteOut_good (fun _ => ?_) (fun _ => ?_)
    | with_reducible refine foldl_good (fun _ _ _ => ?_) ?_
    | with_reducible refine foldl_fst (fun _ _ _ => ?_) ?_
    | with_reducible refine foldl_snd (fun _ _ _ => ?_) ?_
    | subst x
    | with_reducible split
    | dsimp only

theorem execUsgn_good {pq : List Instr × Prop} {u : Fin 36} {dbl : Bool} {rd : Gpr} {rs1 : Gpr} {s : State} (hs : Good pq s) : GoodOut pq (execUsgn u dbl rd rs1 s) := by
  unfold execUsgn
  repeat' first
    | with_reducible assumption
    | with_reducible refine goodOut_next ?_
    | (lift_lets; intro x; refine (fun (hx : Good pq x) => ?_) ?_; clear_value x)
    | (intro x; subst x)
    | with_reducible refine State.lanes_good ?_
    | with_reducible refine ite_good (fun _ => ?_) (fun _ => ?_)
    | with_reducible refine iteOut_good (fun _ => ?_) (fun _ => ?_)
    | with_reducible refine foldl_good (fun _ _ _ => ?_) ?_
    | with_reducible refine foldl_fst (fun _ _ _ => ?_) ?_
    | with_reducible refine foldl_snd (fun _ _ _ => ?_) ?_
    | subst x
    | with_reducible split
    | dsimp only

theorem execUcvt_good {pq : List Instr × Prop} {u : Fin 36} {toDbl : Bool} {rd : Gpr} {rs1 : Gpr} {s : State} (hs : Good pq s) : GoodOut pq (execUcvt u toDbl rd rs1 s) := by
  unfold execUcvt
  repeat' first
    | with_reducible assumption
    | with_reducible refine goodOut_next ?_
    | (lift_lets; intro x; refine (fun (hx : Good pq x) => ?_) ?_; clear_value x)
    | (intro x; subst x)
    | with_reducible refine State.lanes_good ?_
    | with_reducible refine ite_good (fun _ => ?_) (fun _ => ?_)
    | with_reducible refine iteOut_good (fun _ => ?_) (fun _ => ?_)
    | with_reducible refine foldl_good (fun _ _ _ => ?_) ?_
    | with_reducible refine foldl_fst (fun _ _ _ => ?_) ?_
    | with_reducible refine foldl_snd (fun _ _ _ => ?_) ?_
    | subst x
    | with_reducible split
    | dsimp only

theorem execUwadd_good {pq : List Instr × Prop} {u : Fin 36} {rd : Gpr} {rs1 : Gpr} {rs2 : Gpr} {s : State} (hs : Good pq s) : GoodOut pq (execUwadd u rd rs1 rs2 s) := by
  unfold execUwadd
  repeat' first
    | with_reducible assumption
    | with_reducible refine goodOut_next ?_
    | (lift_lets; intro x; refine (fun (hx : Good pq x) => ?_) ?_; clear_value x)
    | (intro x; subst x)
    | with_reducible refine State.lanes_good ?_
    | with_reducible refine ite_good (fun _ => ?_) (fun _ => ?_)
    | with_reducible refine iteOut_good (fun _ => ?_) (fun _ => ?_)
    | with_reducible refine foldl_good (fun _ _ _ => ?_) ?_
    | with_reducible refine foldl_fst (fun _ _ _ => ?_) ?_
    | with_reducible refine foldl_snd (fun _ _ _ => ?_) ?_
    | subst x
    | with_reducible split
    | dsimp only

theorem execUloop_good {pq : List Instr × Prop} {u : Fin 36} {s : State} (hs : Good pq s) : GoodOut pq (execUloop u s) := by
  unfold execUloop
  repeat' first
    | with_reducible assumption
    | with_reducible refine goodOut_next ?_
    | (lift_lets; intro x; refine (fun (hx : Good pq x) => ?_) ?_; clear_value x)
    | (intro x; subst x)
    | with_reducible refine State.nextPc_good ?_
    | with_reducible refine State.putUpd_good ?_
    | with_reducible refine State.setUu_good ?_
    | with_reducible refine State.takeHand_good ?_
    | with_reducible refine ite_good (fun _ => ?_) (fun _ => ?_)
    | with_reducible refine iteOut_good (fun _ => ?_) (fun _ => ?_)
    | with_reducible refine foldl_good (fun _ _ _ => ?_) ?_
    | with_reducible refine foldl_fst (fun _ _ _ => ?_) ?_
    | with_reducible refine foldl_snd (fun _ _ _ => ?_) ?_
    | subst x
    | with_reducible split
    | dsimp only

theorem execUend_good {pq : List Instr × Prop} {u : Fin 36} {s : State} (hs : Good pq s) : GoodOut pq (execUend u s) := by
  unfold execUend
  repeat' first
    | with_reducible assumption
    | with_reducible refine goodOut_next ?_
    | (lift_lets; intro x; refine (fun (hx : Good pq x) => ?_) ?_; clear_value x)
    | (intro x; subst x)
    | with_reducible refine State.finishChunk_good ?_
    | with_reducible refine State.out_good ?_
    | with_reducible refine State.setUu_good ?_
    | with_reducible refine State.takeHand_good ?_
    | with_reducible refine State.takeLanes_good ?_
    | with_reducible refine ite_good (fun _ => ?_) (fun _ => ?_)
    | with_reducible refine iteOut_good (fun _ => ?_) (fun _ => ?_)
    | with_reducible refine foldl_good (fun _ _ _ => ?_) ?_
    | with_reducible refine foldl_fst (fun _ _ _ => ?_) ?_
    | with_reducible refine foldl_snd (fun _ _ _ => ?_) ?_
    | subst x
    | with_reducible split
    | dsimp only

theorem execUuFence_good {pq : List Instr × Prop} {u : Fin 36} {s : State} (hs : Good pq s) : GoodOut pq (execUuFence u s) := by
  unfold execUuFence
  repeat' first
    | with_reducible assumption
    | with_reducible refine goodOut_next ?_
    | (lift_lets; intro x; refine (fun (hx : Good pq x) => ?_) ?_; clear_value x)
    | (intro x; subst x)
    | with_reducible refine State.fenceUu_good ?_
    | with_reducible refine ite_good (fun _ => ?_) (fun _ => ?_)
    | with_reducible refine iteOut_good (fun _ => ?_) (fun _ => ?_)
    | with_reducible refine foldl_good (fun _ _ _ => ?_) ?_
    | with_reducible refine foldl_fst (fun _ _ _ => ?_) ?_
    | with_reducible refine foldl_snd (fun _ _ _ => ?_) ?_
    | subst x
    | with_reducible split
    | dsimp only

theorem execUuSelftest_good {pq : List Instr × Prop} {u : Fin 36} {s : State} (hs : Good pq s) : GoodOut pq (execUuSelftest u s) := by
  unfold execUuSelftest
  repeat' first
    | with_reducible assumption
    | with_reducible refine goodOut_next ?_
    | (lift_lets; intro x; refine (fun (hx : Good pq x) => ?_) ?_; clear_value x)
    | (intro x; subst x)
    | with_reducible refine State.startSelftest_good ?_
    | with_reducible refine ite_good (fun _ => ?_) (fun _ => ?_)
    | with_reducible refine iteOut_good (fun _ => ?_) (fun _ => ?_)
    | with_reducible refine foldl_good (fun _ _ _ => ?_) ?_
    | with_reducible refine foldl_fst (fun _ _ _ => ?_) ?_
    | with_reducible refine foldl_snd (fun _ _ _ => ?_) ?_
    | subst x
    | with_reducible split
    | dsimp only

theorem execUuSelftestDone_good {pq : List Instr × Prop} {u : Fin 36} {pass : Bool} {s : State} (hs : Good pq s) : GoodOut pq (execUuSelftestDone u pass s) := by
  unfold execUuSelftestDone
  repeat' first
    | with_reducible assumption
    | with_reducible refine goodOut_next ?_
    | (lift_lets; intro x; refine (fun (hx : Good pq x) => ?_) ?_; clear_value x)
    | (intro x; subst x)
    | with_reducible refine State.endSelftest_good ?_
    | with_reducible refine ite_good (fun _ => ?_) (fun _ => ?_)
    | with_reducible refine iteOut_good (fun _ => ?_) (fun _ => ?_)
    | with_reducible refine foldl_good (fun _ _ _ => ?_) ?_
    | with_reducible refine foldl_fst (fun _ _ _ => ?_) ?_
    | with_reducible refine foldl_snd (fun _ _ _ => ?_) ?_
    | subst x
    | with_reducible split
    | dsimp only

theorem execUuReadmit_good {pq : List Instr × Prop} {u : Fin 36} {s : State} (hs : Good pq s) : GoodOut pq (execUuReadmit u s) := by
  unfold execUuReadmit
  repeat' first
    | with_reducible assumption
    | with_reducible refine goodOut_next ?_
    | (lift_lets; intro x; refine (fun (hx : Good pq x) => ?_) ?_; clear_value x)
    | (intro x; subst x)
    | with_reducible refine State.readmit_good ?_
    | with_reducible refine ite_good (fun _ => ?_) (fun _ => ?_)
    | with_reducible refine iteOut_good (fun _ => ?_) (fun _ => ?_)
    | with_reducible refine foldl_good (fun _ _ _ => ?_) ?_
    | with_reducible refine foldl_fst (fun _ _ _ => ?_) ?_
    | with_reducible refine foldl_snd (fun _ _ _ => ?_) ?_
    | subst x
    | with_reducible split
    | dsimp only

theorem execUuPerfRead_good {pq : List Instr × Prop} {u : Fin 36} {s : State} (hs : Good pq s) : GoodOut pq (execUuPerfRead u s) := by
  unfold execUuPerfRead
  repeat' first
    | with_reducible assumption
    | with_reducible refine goodOut_next ?_
    | (lift_lets; intro x; refine (fun (hx : Good pq x) => ?_) ?_; clear_value x)
    | (intro x; subst x)
    | with_reducible refine State.readClear_good ?_
    | with_reducible refine ite_good (fun _ => ?_) (fun _ => ?_)
    | with_reducible refine iteOut_good (fun _ => ?_) (fun _ => ?_)
    | with_reducible refine foldl_good (fun _ _ _ => ?_) ?_
    | with_reducible refine foldl_fst (fun _ _ _ => ?_) ?_
    | with_reducible refine foldl_snd (fun _ _ _ => ?_) ?_
    | subst x
    | with_reducible split
    | dsimp only

theorem execUpdPerfRead_good {pq : List Instr × Prop} {d : Die} {s : State} (hs : Good pq s) : GoodOut pq (execUpdPerfRead d s) := by
  unfold execUpdPerfRead
  repeat' first
    | with_reducible assumption
    | with_reducible refine goodOut_next ?_
    | (lift_lets; intro x; refine (fun (hx : Good pq x) => ?_) ?_; clear_value x)
    | (intro x; subst x)
    | with_reducible refine State.out_good ?_
    | with_reducible refine State.readClear_good ?_
    | with_reducible refine ite_good (fun _ => ?_) (fun _ => ?_)
    | with_reducible refine iteOut_good (fun _ => ?_) (fun _ => ?_)
    | with_reducible refine foldl_good (fun _ _ _ => ?_) ?_
    | with_reducible refine foldl_fst (fun _ _ _ => ?_) ?_
    | with_reducible refine foldl_snd (fun _ _ _ => ?_) ?_
    | subst x
    | with_reducible split
    | dsimp only

theorem State.wordInsn_good {pq : List Instr × Prop} {s : State} {c : Nat} {rd : Nat} {nb : Bool} {pair : Bool} {a : W64} {op : WordOp} {why : Why} {err : ArrayErr} (hs : Good pq s) : Good pq (State.wordInsn s c rd nb pair a op why err) := by
  unfold State.wordInsn
  repeat' first
    | with_reducible assumption
    | with_reducible refine goodOut_next ?_
    | (lift_lets; intro x; refine (fun (hx : Good pq x) => ?_) ?_; clear_value x)
    | (intro x; subst x)
    | with_reducible refine State.arrayErr_good ?_
    | with_reducible refine State.chargeAtomic_good ?_
    | with_reducible refine State.consume_good ?_
    | with_reducible refine State.illegal_good ?_
    | with_reducible refine State.retWord_good ?_
    | with_reducible refine State.underflow_good ?_
    | with_reducible refine State.wait_good ?_
    | with_reducible refine State.wake_good ?_
    | with_reducible refine State.wordOp_good_eq (by with_reducible assumption) ?_
    | with_reducible refine ite_good (fun _ => ?_) (fun _ => ?_)
    | with_reducible refine iteOut_good (fun _ => ?_) (fun _ => ?_)
    | with_reducible refine foldl_good (fun _ _ _ => ?_) ?_
    | with_reducible refine foldl_fst (fun _ _ _ => ?_) ?_
    | with_reducible refine foldl_snd (fun _ _ _ => ?_) ?_
    | subst x
    | with_reducible split
    | dsimp only

theorem execLdfe_good {pq : List Instr × Prop} {c : CoreErr} {nb : Bool} {rd : Gpr} {rs1 : Gpr} {s : State} (hs : Good pq s) : GoodOut pq (execLdfe c nb rd rs1 s) := by
  unfold execLdfe
  repeat' first
    | with_reducible assumption
    | with_reducible refine goodOut_next ?_
    | (lift_lets; intro x; refine (fun (hx : Good pq x) => ?_) ?_; clear_value x)
    | (intro x; subst x)
    | with_reducible refine State.wordInsn_good ?_
    | with_reducible refine ite_good (fun _ => ?_) (fun _ => ?_)
    | with_reducible refine iteOut_good (fun _ => ?_) (fun _ => ?_)
    | with_reducible refine foldl_good (fun _ _ _ => ?_) ?_
    | with_reducible refine foldl_fst (fun _ _ _ => ?_) ?_
    | with_reducible refine foldl_snd (fun _ _ _ => ?_) ?_
    | subst x
    | with_reducible split
    | dsimp only

theorem execLdfn_good {pq : List Instr × Prop} {c : CoreErr} {nb : Bool} {rd : Gpr} {rs1 : Gpr} {s : State} (hs : Good pq s) : GoodOut pq (execLdfn c nb rd rs1 s) := by
  unfold execLdfn
  repeat' first
    | with_reducible assumption
    | with_reducible refine goodOut_next ?_
    | (lift_lets; intro x; refine (fun (hx : Good pq x) => ?_) ?_; clear_value x)
    | (intro x; subst x)
    | with_reducible refine State.wordInsn_good ?_
    | with_reducible refine ite_good (fun _ => ?_) (fun _ => ?_)
    | with_reducible refine iteOut_good (fun _ => ?_) (fun _ => ?_)
    | with_reducible refine foldl_good (fun _ _ _ => ?_) ?_
    | with_reducible refine foldl_fst (fun _ _ _ => ?_) ?_
    | with_reducible refine foldl_snd (fun _ _ _ => ?_) ?_
    | subst x
    | with_reducible split
    | dsimp only

theorem execStef_good {pq : List Instr × Prop} {c : CoreNo} {nb : Bool} {rd : Gpr} {rs1 : Gpr} {rs2 : Gpr} {s : State} (hs : Good pq s) : GoodOut pq (execStef c nb rd rs1 rs2 s) := by
  unfold execStef
  repeat' first
    | with_reducible assumption
    | with_reducible refine goodOut_next ?_
    | (lift_lets; intro x; refine (fun (hx : Good pq x) => ?_) ?_; clear_value x)
    | (intro x; subst x)
    | with_reducible refine State.wordInsn_good ?_
    | with_reducible refine ite_good (fun _ => ?_) (fun _ => ?_)
    | with_reducible refine iteOut_good (fun _ => ?_) (fun _ => ?_)
    | with_reducible refine foldl_good (fun _ _ _ => ?_) ?_
    | with_reducible refine foldl_fst (fun _ _ _ => ?_) ?_
    | with_reducible refine foldl_snd (fun _ _ _ => ?_) ?_
    | subst x
    | with_reducible split
    | dsimp only

theorem execFinc_good {pq : List Instr × Prop} {c : CoreErr} {rd : Gpr} {rs1 : Gpr} {rs2 : Gpr} {s : State} (hs : Good pq s) : GoodOut pq (execFinc c rd rs1 rs2 s) := by
  unfold execFinc
  repeat' first
    | with_reducible assumption
    | with_reducible refine goodOut_next ?_
    | (lift_lets; intro x; refine (fun (hx : Good pq x) => ?_) ?_; clear_value x)
    | (intro x; subst x)
    | with_reducible refine State.signal_good ?_
    | with_reducible refine State.wordInsn_good ?_
    | with_reducible refine State.signal_good_eq (by with_reducible assumption) ?_
    | with_reducible refine ite_good (fun _ => ?_) (fun _ => ?_)
    | with_reducible refine iteOut_good (fun _ => ?_) (fun _ => ?_)
    | with_reducible refine foldl_good (fun _ _ _ => ?_) ?_
    | with_reducible refine foldl_fst (fun _ _ _ => ?_) ?_
    | with_reducible refine foldl_snd (fun _ _ _ => ?_) ?_
    | subst x
    | with_reducible split
    | dsimp only

theorem execFdec_good {pq : List Instr × Prop} {c : CoreErr} {rd : Gpr} {rs1 : Gpr} {rs2 : Gpr} {s : State} (hs : Good pq s) : GoodOut pq (execFdec c rd rs1 rs2 s) := by
  unfold execFdec
  repeat' first
    | with_reducible assumption
    | with_reducible refine goodOut_next ?_
    | (lift_lets; intro x; refine (fun (hx : Good pq x) => ?_) ?_; clear_value x)
    | (intro x; subst x)
    | with_reducible refine State.signal_good ?_
    | with_reducible refine State.wordInsn_good ?_
    | with_reducible refine State.signal_good_eq (by with_reducible assumption) ?_
    | with_reducible refine ite_good (fun _ => ?_) (fun _ => ?_)
    | with_reducible refine iteOut_good (fun _ => ?_) (fun _ => ?_)
    | with_reducible refine foldl_good (fun _ _ _ => ?_) ?_
    | with_reducible refine foldl_fst (fun _ _ _ => ?_) ?_
    | with_reducible refine foldl_snd (fun _ _ _ => ?_) ?_
    | subst x
    | with_reducible split
    | dsimp only

theorem execFini_good {pq : List Instr × Prop} {c : CoreNo} {full : Bool} {rd : Gpr} {rs1 : Gpr} {rs2 : Gpr} {s : State} (hs : Good pq s) : GoodOut pq (execFini c full rd rs1 rs2 s) := by
  unfold execFini
  repeat' first
    | with_reducible assumption
    | with_reducible refine goodOut_next ?_
    | (lift_lets; intro x; refine (fun (hx : Good pq x) => ?_) ?_; clear_value x)
    | (intro x; subst x)
    | with_reducible refine State.signal_good ?_
    | with_reducible refine State.wordInsn_good ?_
    | with_reducible refine State.signal_good_eq (by with_reducible assumption) ?_
    | with_reducible refine ite_good (fun _ => ?_) (fun _ => ?_)
    | with_reducible refine iteOut_good (fun _ => ?_) (fun _ => ?_)
    | with_reducible refine foldl_good (fun _ _ _ => ?_) ?_
    | with_reducible refine foldl_fst (fun _ _ _ => ?_) ?_
    | with_reducible refine foldl_snd (fun _ _ _ => ?_) ?_
    | subst x
    | with_reducible split
    | dsimp only

theorem execFsig_good {pq : List Instr × Prop} {c : CoreNo} {rd : Gpr} {rs1 : Gpr} {rs2 : Gpr} {s : State} (hs : Good pq s) : GoodOut pq (execFsig c rd rs1 rs2 s) := by
  unfold execFsig
  repeat' first
    | with_reducible assumption
    | with_reducible refine goodOut_next ?_
    | (lift_lets; intro x; refine (fun (hx : Good pq x) => ?_) ?_; clear_value x)
    | (intro x; subst x)
    | with_reducible refine State.illegal_good ?_
    | with_reducible refine State.retSt_good ?_
    | with_reducible refine State.signal_good ?_
    | with_reducible refine State.signal_good_eq (by with_reducible assumption) ?_
    | with_reducible refine ite_good (fun _ => ?_) (fun _ => ?_)
    | with_reducible refine iteOut_good (fun _ => ?_) (fun _ => ?_)
    | with_reducible refine foldl_good (fun _ _ _ => ?_) ?_
    | with_reducible refine foldl_fst (fun _ _ _ => ?_) ?_
    | with_reducible refine foldl_snd (fun _ _ _ => ?_) ?_
    | subst x
    | with_reducible split
    | dsimp only

theorem execSwait_good {pq : List Instr × Prop} {c : CoreNo} {nb : Bool} {rd : Gpr} {rs1 : Gpr} {s : State} (hs : Good pq s) : GoodOut pq (execSwait c nb rd rs1 s) := by
  unfold execSwait
  repeat' first
    | with_reducible assumption
    | with_reducible refine goodOut_next ?_
    | (lift_lets; intro x; refine (fun (hx : Good pq x) => ?_) ?_; clear_value x)
    | (intro x; subst x)
    | with_reducible refine State.illegal_good ?_
    | with_reducible refine State.retNone_good ?_
    | with_reducible refine State.retPair_good ?_
    | with_reducible refine State.signal_good ?_
    | with_reducible refine State.wait_good ?_
    | with_reducible refine State.signal_good_eq (by with_reducible assumption) ?_
    | with_reducible refine State.takeSignals_good_eq (by with_reducible assumption) ?_
    | with_reducible refine ite_good (fun _ => ?_) (fun _ => ?_)
    | with_reducible refine iteOut_good (fun _ => ?_) (fun _ => ?_)
    | with_reducible refine foldl_good (fun _ _ _ => ?_) ?_
    | with_reducible refine foldl_fst (fun _ _ _ => ?_) ?_
    | with_reducible refine foldl_snd (fun _ _ _ => ?_) ?_
    | subst x
    | with_reducible split
    | dsimp only

theorem State.coreArrive_good {pq : List Instr × Prop} {s : State} {c : Nat} {rd : Nat} {b : Nat} {nb : Bool} (hs : Good pq s) : Good pq (State.coreArrive s c rd b nb) := by
  unfold State.coreArrive
  repeat' first
    | with_reducible assumption
    | with_reducible refine goodOut_next ?_
    | (lift_lets; intro x; refine (fun (hx : Good pq x) => ?_) ?_; clear_value x)
    | (intro x; subst x)
    | with_reducible refine State.barAdvance_good ?_
    | with_reducible refine State.retNone_good ?_
    | with_reducible refine State.retPair_good ?_
    | with_reducible refine State.setArrived_good ?_
    | with_reducible refine State.wait_good ?_
    | with_reducible refine ite_good (fun _ => ?_) (fun _ => ?_)
    | with_reducible refine iteOut_good (fun _ => ?_) (fun _ => ?_)
    | with_reducible refine foldl_good (fun _ _ _ => ?_) ?_
    | with_reducible refine foldl_fst (fun _ _ _ => ?_) ?_
    | with_reducible refine foldl_snd (fun _ _ _ => ?_) ?_
    | subst x
    | with_reducible split
    | dsimp only

theorem State.courierArrive_good {pq : List Instr × Prop} {s : State} {c : Nat} {rd : Nat} {b : Nat} {ctx : Nat} {nb : Bool} (hs : Good pq s) : Good pq (State.courierArrive s c rd b ctx nb) := by
  unfold State.courierArrive
  repeat' first
    | with_reducible assumption
    | with_reducible refine goodOut_next ?_
    | (lift_lets; intro x; refine (fun (hx : Good pq x) => ?_) ?_; clear_value x)
    | (intro x; subst x)
    | with_reducible refine State.agentArrive_good ?_
    | with_reducible refine State.retPair_good ?_
    | with_reducible refine State.wait_good ?_
    | with_reducible refine State.agentArrive_good_eq (by with_reducible assumption) ?_
    | with_reducible refine ite_good (fun _ => ?_) (fun _ => ?_)
    | with_reducible refine iteOut_good (fun _ => ?_) (fun _ => ?_)
    | with_reducible refine foldl_good (fun _ _ _ => ?_) ?_
    | with_reducible refine foldl_fst (fun _ _ _ => ?_) ?_
    | with_reducible refine foldl_snd (fun _ _ _ => ?_) ?_
    | subst x
    | with_reducible split
    | dsimp only

theorem execBarr_good {pq : List Instr × Prop} {c : CoreNo} {nb : Bool} {rd : Gpr} {rs1 : Gpr} {s : State} (hs : Good pq s) : GoodOut pq (execBarr c nb rd rs1 s) := by
  unfold execBarr
  repeat' first
    | with_reducible assumption
    | with_reducible refine goodOut_next ?_
    | (lift_lets; intro x; refine (fun (hx : Good pq x) => ?_) ?_; clear_value x)
    | (intro x; subst x)
    | with_reducible refine State.coreArrive_good ?_
    | with_reducible refine State.courierArrive_good ?_
    | with_reducible refine State.illegal_good ?_
    | with_reducible refine State.retNone_good ?_
    | with_reducible refine ite_good (fun _ => ?_) (fun _ => ?_)
    | with_reducible refine iteOut_good (fun _ => ?_) (fun _ => ?_)
    | with_reducible refine foldl_good (fun _ _ _ => ?_) ?_
    | with_reducible refine foldl_fst (fun _ _ _ => ?_) ?_
    | with_reducible refine foldl_snd (fun _ _ _ => ?_) ?_
    | subst x
    | with_reducible split
    | dsimp only

theorem execBwait_good {pq : List Instr × Prop} {c : CoreNo} {nb : Bool} {rd : Gpr} {rs1 : Gpr} {rs2 : Gpr} {s : State} (hs : Good pq s) : GoodOut pq (execBwait c nb rd rs1 rs2 s) := by
  unfold execBwait
  repeat' first
    | with_reducible assumption
    | with_reducible refine goodOut_next ?_
    | (lift_lets; intro x; refine (fun (hx : Good pq x) => ?_) ?_; clear_value x)
    | (intro x; subst x)
    | with_reducible refine State.illegal_good ?_
    | with_reducible refine State.retSt_good ?_
    | with_reducible refine State.wait_good ?_
    | with_reducible refine ite_good (fun _ => ?_) (fun _ => ?_)
    | with_reducible refine iteOut_good (fun _ => ?_) (fun _ => ?_)
    | with_reducible refine foldl_good (fun _ _ _ => ?_) ?_
    | with_reducible refine foldl_fst (fun _ _ _ => ?_) ?_
    | with_reducible refine foldl_snd (fun _ _ _ => ?_) ?_
    | subst x
    | with_reducible split
    | dsimp only

theorem execBarrive_good {pq : List Instr × Prop} {u : Fin 36} {ctx : Byte} {data : W64} {s : State} (hs : Good pq s) : GoodOut pq (execBarrive u ctx data s) := by
  unfold execBarrive
  repeat' first
    | with_reducible assumption
    | with_reducible refine goodOut_next ?_
    | (lift_lets; intro x; refine (fun (hx : Good pq x) => ?_) ?_; clear_value x)
    | (intro x; subst x)
    | with_reducible refine State.agentArrive_good ?_
    | with_reducible refine State.nextPc_good ?_
    | with_reducible refine State.agentArrive_good_eq (by with_reducible assumption) ?_
    | with_reducible refine ite_good (fun _ => ?_) (fun _ => ?_)
    | with_reducible refine iteOut_good (fun _ => ?_) (fun _ => ?_)
    | with_reducible refine foldl_good (fun _ _ _ => ?_) ?_
    | with_reducible refine foldl_fst (fun _ _ _ => ?_) ?_
    | with_reducible refine foldl_snd (fun _ _ _ => ?_) ?_
    | subst x
    | with_reducible split
    | dsimp only

theorem State.timeOut_good {pq : List Instr × Prop} {s : State} {w : Waiter} (hs : Good pq s) : Good pq (State.timeOut s w) := by
  unfold State.timeOut
  repeat' first
    | with_reducible assumption
    | with_reducible refine goodOut_next ?_
    | (lift_lets; intro x; refine (fun (hx : Good pq x) => ?_) ?_; clear_value x)
    | (intro x; subst x)
    | with_reducible refine State.retNone_good ?_
    | with_reducible refine State.retPair_good ?_
    | with_reducible refine State.retSt_good ?_
    | with_reducible refine State.signal_good ?_
    | with_reducible refine State.unwait_good ?_
    | with_reducible refine State.signal_good_eq (by with_reducible assumption) ?_
    | with_reducible refine ite_good (fun _ => ?_) (fun _ => ?_)
    | with_reducible refine iteOut_good (fun _ => ?_) (fun _ => ?_)
    | with_reducible refine foldl_good (fun _ _ _ => ?_) ?_
    | with_reducible refine foldl_fst (fun _ _ _ => ?_) ?_
    | with_reducible refine foldl_snd (fun _ _ _ => ?_) ?_
    | subst x
    | with_reducible split
    | dsimp only

theorem execSyncTimeout_good {pq : List Instr × Prop} {c : CoreNo} {s : State} (hs : Good pq s) : GoodOut pq (execSyncTimeout c s) := by
  unfold execSyncTimeout
  repeat' first
    | with_reducible assumption
    | with_reducible refine goodOut_next ?_
    | (lift_lets; intro x; refine (fun (hx : Good pq x) => ?_) ?_; clear_value x)
    | (intro x; subst x)
    | with_reducible refine State.timeOut_good ?_
    | with_reducible refine ite_good (fun _ => ?_) (fun _ => ?_)
    | with_reducible refine iteOut_good (fun _ => ?_) (fun _ => ?_)
    | with_reducible refine foldl_good (fun _ _ _ => ?_) ?_
    | with_reducible refine foldl_fst (fun _ _ _ => ?_) ?_
    | with_reducible refine foldl_snd (fun _ _ _ => ?_) ?_
    | subst x
    | with_reducible split
    | dsimp only

theorem State.setClaims_good {pq : List Instr × Prop} {s : State} {m : KMap (Option Claim)} (hs : Good pq s) : Good pq (State.setClaims s m) := by
  unfold State.setClaims
  repeat' first
    | with_reducible assumption
    | with_reducible refine goodOut_next ?_
    | (lift_lets; intro x; refine (fun (hx : Good pq x) => ?_) ?_; clear_value x)
    | (intro x; subst x)
    | with_reducible refine State.withSync_good _ ?_
    | with_reducible refine ite_good (fun _ => ?_) (fun _ => ?_)
    | with_reducible refine iteOut_good (fun _ => ?_) (fun _ => ?_)
    | with_reducible refine foldl_good (fun _ _ _ => ?_) ?_
    | with_reducible refine foldl_fst (fun _ _ _ => ?_) ?_
    | with_reducible refine foldl_snd (fun _ _ _ => ?_) ?_
    | subst x
    | with_reducible split
    | dsimp only

theorem execFclaim_good {pq : List Instr × Prop} {c : CoreNo} {rd : Gpr} {rs1 : Gpr} {rs2 : Gpr} {s : State} (hs : Good pq s) : GoodOut pq (execFclaim c rd rs1 rs2 s) := by
  unfold execFclaim
  repeat' first
    | with_reducible assumption
    | with_reducible refine goodOut_next ?_
    | (lift_lets; intro x; refine (fun (hx : Good pq x) => ?_) ?_; clear_value x)
    | (intro x; subst x)
    | with_reducible refine State.illegal_good ?_
    | with_reducible refine State.retSt_good ?_
    | with_reducible refine State.setClaims_good ?_
    | with_reducible refine State.setErr_good ?_
    | with_reducible refine ite_good (fun _ => ?_) (fun _ => ?_)
    | with_reducible refine iteOut_good (fun _ => ?_) (fun _ => ?_)
    | with_reducible refine foldl_good (fun _ _ _ => ?_) ?_
    | with_reducible refine foldl_fst (fun _ _ _ => ?_) ?_
    | with_reducible refine foldl_snd (fun _ _ _ => ?_) ?_
    | subst x
    | with_reducible split
    | dsimp only

theorem execFrel_good {pq : List Instr × Prop} {c : CoreNo} {rd : Gpr} {rs1 : Gpr} {s : State} (hs : Good pq s) : GoodOut pq (execFrel c rd rs1 s) := by
  unfold execFrel
  repeat' first
    | with_reducible assumption
    | with_reducible refine goodOut_next ?_
    | (lift_lets; intro x; refine (fun (hx : Good pq x) => ?_) ?_; clear_value x)
    | (intro x; subst x)
    | with_reducible refine State.illegal_good ?_
    | with_reducible refine State.retSt_good ?_
    | with_reducible refine State.setClaims_good ?_
    | with_reducible refine ite_good (fun _ => ?_) (fun _ => ?_)
    | with_reducible refine iteOut_good (fun _ => ?_) (fun _ => ?_)
    | with_reducible refine foldl_good (fun _ _ _ => ?_) ?_
    | with_reducible refine foldl_fst (fun _ _ _ => ?_) ?_
    | with_reducible refine foldl_snd (fun _ _ _ => ?_) ?_
    | subst x
    | with_reducible split
    | dsimp only

theorem State.synLose_good {pq : List Instr × Prop} {s : State} {go : Bool} {ctx : Nat} (hs : Good pq s) : Good pq (State.synLose s go ctx) := by
  unfold State.synLose
  repeat' first
    | with_reducible assumption
    | with_reducible refine goodOut_next ?_
    | (lift_lets; intro x; refine (fun (hx : Good pq x) => ?_) ?_; clear_value x)
    | (intro x; subst x)
    | with_reducible refine State.lose_good ?_
    | with_reducible refine State.setErr_good ?_
    | with_reducible refine ite_good (fun _ => ?_) (fun _ => ?_)
    | with_reducible refine iteOut_good (fun _ => ?_) (fun _ => ?_)
    | with_reducible refine foldl_good (fun _ _ _ => ?_) ?_
    | with_reducible refine foldl_fst (fun _ _ _ => ?_) ?_
    | with_reducible refine foldl_snd (fun _ _ _ => ?_) ?_
    | subst x
    | with_reducible split
    | dsimp only

theorem execSynLose_good {pq : List Instr × Prop} {ctx : Byte} {s : State} (hs : Good pq s) : GoodOut pq (execSynLose ctx s) := by
  unfold execSynLose
  repeat' first
    | with_reducible assumption
    | with_reducible refine goodOut_next ?_
    | (lift_lets; intro x; refine (fun (hx : Good pq x) => ?_) ?_; clear_value x)
    | (intro x; subst x)
    | with_reducible refine State.synLose_good ?_
    | with_reducible refine ite_good (fun _ => ?_) (fun _ => ?_)
    | with_reducible refine iteOut_good (fun _ => ?_) (fun _ => ?_)
    | with_reducible refine foldl_good (fun _ _ _ => ?_) ?_
    | with_reducible refine foldl_fst (fun _ _ _ => ?_) ?_
    | with_reducible refine foldl_snd (fun _ _ _ => ?_) ?_
    | subst x
    | with_reducible split
    | dsimp only

theorem State.markLost_good {pq : List Instr × Prop} {s : State} (hs : Good pq s) : Good pq (State.markLost s) := by
  unfold State.markLost
  repeat' first
    | with_reducible assumption
    | with_reducible refine goodOut_next ?_
    | (lift_lets; intro x; refine (fun (hx : Good pq x) => ?_) ?_; clear_value x)
    | (intro x; subst x)
    | with_reducible refine State.setBitF_good ?_
    | with_reducible refine State.setClaims_good ?_
    | with_reducible refine State.setFull_good ?_
    | with_reducible refine State.setPoison_good ?_
    | with_reducible refine ite_good (fun _ => ?_) (fun _ => ?_)
    | with_reducible refine iteOut_good (fun _ => ?_) (fun _ => ?_)
    | with_reducible refine foldl_good (fun _ _ _ => ?_) ?_
    | with_reducible refine foldl_fst (fun _ _ _ => ?_) ?_
    | with_reducible refine foldl_snd (fun _ _ _ => ?_) ?_
    | subst x
    | with_reducible split
    | dsimp only

theorem execClaimMarkDone_good {pq : List Instr × Prop} {s : State} (hs : Good pq s) : GoodOut pq (execClaimMarkDone s) := by
  unfold execClaimMarkDone
  repeat' first
    | with_reducible assumption
    | with_reducible refine goodOut_next ?_
    | (lift_lets; intro x; refine (fun (hx : Good pq x) => ?_) ?_; clear_value x)
    | (intro x; subst x)
    | with_reducible refine State.markLost_good ?_
    | with_reducible refine ite_good (fun _ => ?_) (fun _ => ?_)
    | with_reducible refine iteOut_good (fun _ => ?_) (fun _ => ?_)
    | with_reducible refine foldl_good (fun _ _ _ => ?_) ?_
    | with_reducible refine foldl_fst (fun _ _ _ => ?_) ?_
    | with_reducible refine foldl_snd (fun _ _ _ => ?_) ?_
    | subst x
    | with_reducible split
    | dsimp only

theorem execBarArm_good {pq : List Instr × Prop} {b : Fin 64} {data : W64} {s : State} (hs : Good pq s) : GoodOut pq (execBarArm b data s) := by
  unfold execBarArm
  repeat' first
    | with_reducible assumption
    | with_reducible refine goodOut_next ?_
    | (lift_lets; intro x; refine (fun (hx : Good pq x) => ?_) ?_; clear_value x)
    | (intro x; subst x)
    | with_reducible refine State.clearArrived_good ?_
    | with_reducible refine State.lockedWrite_good ?_
    | with_reducible refine State.plainWrite_good ?_
    | with_reducible refine State.setBitF_good ?_
    | with_reducible refine State.setErr_good ?_
    | with_reducible refine State.setFld_good ?_
    | with_reducible refine State.withSync_good _ ?_
    | with_reducible refine ite_good (fun _ => ?_) (fun _ => ?_)
    | with_reducible refine iteOut_good (fun _ => ?_) (fun _ => ?_)
    | with_reducible refine foldl_good (fun _ _ _ => ?_) ?_
    | with_reducible refine foldl_fst (fun _ _ _ => ?_) ?_
    | with_reducible refine foldl_snd (fun _ _ _ => ?_) ?_
    | subst x
    | with_reducible split
    | dsimp only

theorem execBarDisarm_good {pq : List Instr × Prop} {b : Fin 64} {s : State} (hs : Good pq s) : GoodOut pq (execBarDisarm b s) := by
  unfold execBarDisarm
  repeat' first
    | with_reducible assumption
    | with_reducible refine goodOut_next ?_
    | (lift_lets; intro x; refine (fun (hx : Good pq x) => ?_) ?_; clear_value x)
    | (intro x; subst x)
    | with_reducible refine State.releaseBroken_good ?_
    | with_reducible refine State.setBitF_good ?_
    | with_reducible refine State.setFld_good ?_
    | with_reducible refine ite_good (fun _ => ?_) (fun _ => ?_)
    | with_reducible refine iteOut_good (fun _ => ?_) (fun _ => ?_)
    | with_reducible refine foldl_good (fun _ _ _ => ?_) ?_
    | with_reducible refine foldl_fst (fun _ _ _ => ?_) ?_
    | with_reducible refine foldl_snd (fun _ _ _ => ?_) ?_
    | subst x
    | with_reducible split
    | dsimp only

theorem execBarStatRead_good {pq : List Instr × Prop} {b : Fin 64} {s : State} (hs : Good pq s) : GoodOut pq (execBarStatRead b s) := by
  unfold execBarStatRead
  repeat' first
    | with_reducible assumption
    | with_reducible refine goodOut_next ?_
    | (lift_lets; intro x; refine (fun (hx : Good pq x) => ?_) ?_; clear_value x)
    | (intro x; subst x)
    | with_reducible refine State.readClear_good ?_
    | with_reducible refine ite_good (fun _ => ?_) (fun _ => ?_)
    | with_reducible refine iteOut_good (fun _ => ?_) (fun _ => ?_)
    | with_reducible refine foldl_good (fun _ _ _ => ?_) ?_
    | with_reducible refine foldl_fst (fun _ _ _ => ?_) ?_
    | with_reducible refine foldl_snd (fun _ _ _ => ?_) ?_
    | subst x
    | with_reducible split
    | dsimp only

end Sys2Proof.Machine
end

