-- ==== Sys2Proof/Laws/GoodFabric.lean ====
section
/-! SUPPORT. Good is kept by the fabric, remote operations, collectives and the ledger. -/

namespace Sys2Proof.Machine
-- The tactic scripts here have one shape for every operation, so some of their steps do nothing for some operations.
set_option linter.unusedTactic false
set_option linter.unreachableTactic false

theorem State.sendCtl_good {pq : List Instr × Prop} {s : State} {p : Nat} {flit : List W64} (hs : Good pq s) : Good pq (State.sendCtl s p flit) := by
  unfold State.sendCtl
  repeat' first
    | with_reducible assumption
    | with_reducible refine goodOut_next ?_
    | (lift_lets; intro x; refine (fun (hx : Good pq x) => ?_) ?_; clear_value x)
    | (intro x; subst x)
    | with_reducible refine State.addWork_good ?_
    | with_reducible refine State.setPort_good ?_
    | with_reducible refine ite_good (fun _ => ?_) (fun _ => ?_)
    | with_reducible refine iteOut_good (fun _ => ?_) (fun _ => ?_)
    | with_reducible refine foldl_good (fun _ _ _ => ?_) ?_
    | with_reducible refine foldl_fst (fun _ _ _ => ?_) ?_
    | with_reducible refine foldl_snd (fun _ _ _ => ?_) ?_
    | subst x
    | with_reducible split
    | dsimp only

theorem State.hearCtl_good {pq : List Instr × Prop} {s : State} {p : Nat} (hs : Good pq s) : Good pq (State.hearCtl s p) := by
  unfold State.hearCtl
  repeat' first
    | with_reducible assumption
    | with_reducible refine goodOut_next ?_
    | (lift_lets; intro x; refine (fun (hx : Good pq x) => ?_) ?_; clear_value x)
    | (intro x; subst x)
    | with_reducible refine State.addWork_good ?_
    | with_reducible refine ite_good (fun _ => ?_) (fun _ => ?_)
    | with_reducible refine iteOut_good (fun _ => ?_) (fun _ => ?_)
    | with_reducible refine foldl_good (fun _ _ _ => ?_) ?_
    | with_reducible refine foldl_fst (fun _ _ _ => ?_) ?_
    | with_reducible refine foldl_snd (fun _ _ _ => ?_) ?_
    | subst x
    | with_reducible split
    | dsimp only

theorem State.freeFlits_good {pq : List Instr × Prop} {s : State} {p : Nat} {vc : Nat} {n : Nat} (hs : Good pq s) : Good pq (State.freeFlits s p vc n) := by
  unfold State.freeFlits
  repeat' first
    | with_reducible assumption
    | with_reducible refine goodOut_next ?_
    | (lift_lets; intro x; refine (fun (hx : Good pq x) => ?_) ?_; clear_value x)
    | (intro x; subst x)
    | with_reducible refine State.setPort_good ?_
    | with_reducible refine ite_good (fun _ => ?_) (fun _ => ?_)
    | with_reducible refine iteOut_good (fun _ => ?_) (fun _ => ?_)
    | with_reducible refine foldl_good (fun _ _ _ => ?_) ?_
    | with_reducible refine foldl_fst (fun _ _ _ => ?_) ?_
    | with_reducible refine foldl_snd (fun _ _ _ => ?_) ?_
    | subst x
    | with_reducible split
    | dsimp only

theorem State.unhold_good {pq : List Instr × Prop} {s : State} {h : Held} (hs : Good pq s) : Good pq (State.unhold s h) := by
  unfold State.unhold
  repeat' first
    | with_reducible assumption
    | with_reducible refine goodOut_next ?_
    | (lift_lets; intro x; refine (fun (hx : Good pq x) => ?_) ?_; clear_value x)
    | (intro x; subst x)
    | with_reducible refine State.freeFlits_good ?_
    | with_reducible refine State.withNet_good _ ?_
    | with_reducible refine ite_good (fun _ => ?_) (fun _ => ?_)
    | with_reducible refine iteOut_good (fun _ => ?_) (fun _ => ?_)
    | with_reducible refine foldl_good (fun _ _ _ => ?_) ?_
    | with_reducible refine foldl_fst (fun _ _ _ => ?_) ?_
    | with_reducible refine foldl_snd (fun _ _ _ => ?_) ?_
    | subst x
    | with_reducible split
    | dsimp only

theorem State.dropPackets_good {pq : List Instr × Prop} {s : State} {p : Nat} (hs : Good pq s) : Good pq (State.dropPackets s p) := by
  unfold State.dropPackets
  repeat' first
    | with_reducible assumption
    | with_reducible refine goodOut_next ?_
    | (lift_lets; intro x; refine (fun (hx : Good pq x) => ?_) ?_; clear_value x)
    | (intro x; subst x)
    | with_reducible refine State.addFld_good ?_
    | with_reducible refine State.unhold_good ?_
    | with_reducible refine State.withNet_good _ ?_
    | with_reducible refine ite_good (fun _ => ?_) (fun _ => ?_)
    | with_reducible refine iteOut_good (fun _ => ?_) (fun _ => ?_)
    | with_reducible refine foldl_good (fun _ _ _ => ?_) ?_
    | with_reducible refine foldl_fst (fun _ _ _ => ?_) ?_
    | with_reducible refine foldl_snd (fun _ _ _ => ?_) ?_
    | subst x
    | with_reducible split
    | dsimp only

theorem State.portOff_good {pq : List Instr × Prop} {s : State} {p : Nat} {st : Nat} (hs : Good pq s) : Good pq (State.portOff s p st) := by
  unfold State.portOff
  repeat' first
    | with_reducible assumption
    | with_reducible refine goodOut_next ?_
    | (lift_lets; intro x; refine (fun (hx : Good pq x) => ?_) ?_; clear_value x)
    | (intro x; subst x)
    | with_reducible refine State.dropPackets_good ?_
    | with_reducible refine State.setPort_good ?_
    | with_reducible refine State.setReg_good ?_
    | with_reducible refine ite_good (fun _ => ?_) (fun _ => ?_)
    | with_reducible refine iteOut_good (fun _ => ?_) (fun _ => ?_)
    | with_reducible refine foldl_good (fun _ _ _ => ?_) ?_
    | with_reducible refine foldl_fst (fun _ _ _ => ?_) ?_
    | with_reducible refine foldl_snd (fun _ _ _ => ?_) ?_
    | subst x
    | with_reducible split
    | dsimp only

theorem State.fencePort_good {pq : List Instr × Prop} {s : State} {p : Nat} {cause : Nat} (hs : Good pq s) : Good pq (State.fencePort s p cause) := by
  unfold State.fencePort
  repeat' first
    | with_reducible assumption
    | with_reducible refine goodOut_next ?_
    | (lift_lets; intro x; refine (fun (hx : Good pq x) => ?_) ?_; clear_value x)
    | (intro x; subst x)
    | with_reducible refine State.fenceUnit_good ?_
    | with_reducible refine State.portOff_good ?_
    | with_reducible refine State.setBitF_good ?_
    | with_reducible refine State.setErr_good ?_
    | with_reducible refine ite_good (fun _ => ?_) (fun _ => ?_)
    | with_reducible refine iteOut_good (fun _ => ?_) (fun _ => ?_)
    | with_reducible refine foldl_good (fun _ _ _ => ?_) ?_
    | with_reducible refine foldl_fst (fun _ _ _ => ?_) ?_
    | with_reducible refine foldl_snd (fun _ _ _ => ?_) ?_
    | subst x
    | with_reducible split
    | dsimp only

theorem State.portDown_good {pq : List Instr × Prop} {s : State} {p : Nat} (hs : Good pq s) : Good pq (State.portDown s p) := by
  unfold State.portDown
  repeat' first
    | with_reducible assumption
    | with_reducible refine goodOut_next ?_
    | (lift_lets; intro x; refine (fun (hx : Good pq x) => ?_) ?_; clear_value x)
    | (intro x; subst x)
    | with_reducible refine State.event_good ?_
    | with_reducible refine State.fencePort_good ?_
    | with_reducible refine State.portOff_good ?_
    | with_reducible refine State.putUnit_good ?_
    | with_reducible refine State.setErr_good ?_
    | with_reducible refine State.setFld_good ?_
    | with_reducible refine ite_good (fun _ => ?_) (fun _ => ?_)
    | with_reducible refine iteOut_good (fun _ => ?_) (fun _ => ?_)
    | with_reducible refine foldl_good (fun _ _ _ => ?_) ?_
    | with_reducible refine foldl_fst (fun _ _ _ => ?_) ?_
    | with_reducible refine foldl_snd (fun _ _ _ => ?_) ?_
    | subst x
    | with_reducible split
    | dsimp only

theorem State.trainPort_good {pq : List Instr × Prop} {s : State} {p : Nat} (hs : Good pq s) : Good pq (State.trainPort s p) := by
  unfold State.trainPort
  repeat' first
    | with_reducible assumption
    | with_reducible refine goodOut_next ?_
    | (lift_lets; intro x; refine (fun (hx : Good pq x) => ?_) ?_; clear_value x)
    | (intro x; subst x)
    | with_reducible refine State.portOff_good ?_
    | with_reducible refine ite_good (fun _ => ?_) (fun _ => ?_)
    | with_reducible refine iteOut_good (fun _ => ?_) (fun _ => ?_)
    | with_reducible refine foldl_good (fun _ _ _ => ?_) ?_
    | with_reducible refine foldl_fst (fun _ _ _ => ?_) ?_
    | with_reducible refine foldl_snd (fun _ _ _ => ?_) ?_
    | subst x
    | with_reducible split
    | dsimp only

theorem State.trainFailed_good {pq : List Instr × Prop} {s : State} {p : Nat} {f : Fld} (hs : Good pq s) : Good pq (State.trainFailed s p f) := by
  unfold State.trainFailed
  repeat' first
    | with_reducible assumption
    | with_reducible refine goodOut_next ?_
    | (lift_lets; intro x; refine (fun (hx : Good pq x) => ?_) ?_; clear_value x)
    | (intro x; subst x)
    | with_reducible refine State.portDown_good ?_
    | with_reducible refine State.portOff_good ?_
    | with_reducible refine State.setErr_good ?_
    | with_reducible refine ite_good (fun _ => ?_) (fun _ => ?_)
    | with_reducible refine iteOut_good (fun _ => ?_) (fun _ => ?_)
    | with_reducible refine foldl_good (fun _ _ _ => ?_) ?_
    | with_reducible refine foldl_fst (fun _ _ _ => ?_) ?_
    | with_reducible refine foldl_snd (fun _ _ _ => ?_) ?_
    | subst x
    | with_reducible split
    | dsimp only

theorem State.routePort_good {pq : List Instr × Prop} {s : State} {p : Nat} (hs : Good pq s) : Good pq (State.routePort s p) := by
  unfold State.routePort
  repeat' first
    | with_reducible assumption
    | with_reducible refine goodOut_next ?_
    | (lift_lets; intro x; refine (fun (hx : Good pq x) => ?_) ?_; clear_value x)
    | (intro x; subst x)
    | with_reducible refine State.setFld_good ?_
    | with_reducible refine State.setLnk_good ?_
    | with_reducible refine State.setPort_good ?_
    | with_reducible refine ite_good (fun _ => ?_) (fun _ => ?_)
    | with_reducible refine iteOut_good (fun _ => ?_) (fun _ => ?_)
    | with_reducible refine foldl_good (fun _ _ _ => ?_) ?_
    | with_reducible refine foldl_fst (fun _ _ _ => ?_) ?_
    | with_reducible refine foldl_snd (fun _ _ _ => ?_) ?_
    | subst x
    | with_reducible split
    | dsimp only

theorem State.portTick_good {pq : List Instr × Prop} {s : State} {p : Nat} (hs : Good pq s) : Good pq (State.portTick s p) := by
  unfold State.portTick
  repeat' first
    | with_reducible assumption
    | with_reducible refine goodOut_next ?_
    | (lift_lets; intro x; refine (fun (hx : Good pq x) => ?_) ?_; clear_value x)
    | (intro x; subst x)
    | with_reducible refine State.addFld_good ?_
    | with_reducible refine State.draw_good ?_
    | with_reducible refine State.sendCtl_good ?_
    | with_reducible refine State.setLnk_good ?_
    | with_reducible refine State.draw_good_eq (by with_reducible assumption) ?_
    | with_reducible refine ite_good (fun _ => ?_) (fun _ => ?_)
    | with_reducible refine iteOut_good (fun _ => ?_) (fun _ => ?_)
    | with_reducible refine foldl_good (fun _ _ _ => ?_) ?_
    | with_reducible refine foldl_fst (fun _ _ _ => ?_) ?_
    | with_reducible refine foldl_snd (fun _ _ _ => ?_) ?_
    | subst x
    | with_reducible split
    | dsimp only

theorem execLinkTrainDone_good {pq : List Instr × Prop} {p : Fin 24} {lanes : Byte} {vers : Byte} {s : State} (hs : Good pq s) : GoodOut pq (execLinkTrainDone p lanes vers s) := by
  unfold execLinkTrainDone
  repeat' first
    | with_reducible assumption
    | with_reducible refine goodOut_next ?_
    | (lift_lets; intro x; refine (fun (hx : Good pq x) => ?_) ?_; clear_value x)
    | (intro x; subst x)
    | with_reducible refine State.hearCtl_good ?_
    | with_reducible refine State.lanes_good ?_
    | with_reducible refine State.sendCtl_good ?_
    | with_reducible refine State.setLnk_good ?_
    | with_reducible refine State.setPort_good ?_
    | with_reducible refine State.setReg_good ?_
    | with_reducible refine State.trainFailed_good ?_
    | with_reducible refine ite_good (fun _ => ?_) (fun _ => ?_)
    | with_reducible refine iteOut_good (fun _ => ?_) (fun _ => ?_)
    | with_reducible refine foldl_good (fun _ _ _ => ?_) ?_
    | with_reducible refine foldl_fst (fun _ _ _ => ?_) ?_
    | with_reducible refine foldl_snd (fun _ _ _ => ?_) ?_
    | subst x
    | with_reducible split
    | dsimp only

theorem execLinkTrainFail_good {pq : List Instr × Prop} {p : Fin 24} {s : State} (hs : Good pq s) : GoodOut pq (execLinkTrainFail p s) := by
  unfold execLinkTrainFail
  repeat' first
    | with_reducible assumption
    | with_reducible refine goodOut_next ?_
    | (lift_lets; intro x; refine (fun (hx : Good pq x) => ?_) ?_; clear_value x)
    | (intro x; subst x)
    | with_reducible refine State.trainFailed_good ?_
    | with_reducible refine ite_good (fun _ => ?_) (fun _ => ?_)
    | with_reducible refine iteOut_good (fun _ => ?_) (fun _ => ?_)
    | with_reducible refine foldl_good (fun _ _ _ => ?_) ?_
    | with_reducible refine foldl_fst (fun _ _ _ => ?_) ?_
    | with_reducible refine foldl_snd (fun _ _ _ => ?_) ?_
    | subst x
    | with_reducible split
    | dsimp only

theorem State.startResync_good {pq : List Instr × Prop} {s : State} {p : Nat} (hs : Good pq s) : Good pq (State.startResync s p) := by
  unfold State.startResync
  repeat' first
    | with_reducible assumption
    | with_reducible refine goodOut_next ?_
    | (lift_lets; intro x; refine (fun (hx : Good pq x) => ?_) ?_; clear_value x)
    | (intro x; subst x)
    | with_reducible refine State.addFld_good ?_
    | with_reducible refine State.portDown_good ?_
    | with_reducible refine State.sendCtl_good ?_
    | with_reducible refine State.setErr_good ?_
    | with_reducible refine State.setPort_good ?_
    | with_reducible refine ite_good (fun _ => ?_) (fun _ => ?_)
    | with_reducible refine iteOut_good (fun _ => ?_) (fun _ => ?_)
    | with_reducible refine foldl_good (fun _ _ _ => ?_) ?_
    | with_reducible refine foldl_fst (fun _ _ _ => ?_) ?_
    | with_reducible refine foldl_snd (fun _ _ _ => ?_) ?_
    | subst x
    | with_reducible split
    | dsimp only

theorem execLinkFecUncorr_good {pq : List Instr × Prop} {p : Fin 24} {_codeword : Bool} {s : State} (hs : Good pq s) : GoodOut pq (execLinkFecUncorr p _codeword s) := by
  unfold execLinkFecUncorr
  repeat' first
    | with_reducible assumption
    | with_reducible refine goodOut_next ?_
    | (lift_lets; intro x; refine (fun (hx : Good pq x) => ?_) ?_; clear_value x)
    | (intro x; subst x)
    | with_reducible refine State.addFld_good ?_
    | with_reducible refine State.startResync_good ?_
    | with_reducible refine ite_good (fun _ => ?_) (fun _ => ?_)
    | with_reducible refine iteOut_good (fun _ => ?_) (fun _ => ?_)
    | with_reducible refine foldl_good (fun _ _ _ => ?_) ?_
    | with_reducible refine foldl_fst (fun _ _ _ => ?_) ?_
    | with_reducible refine foldl_snd (fun _ _ _ => ?_) ?_
    | subst x
    | with_reducible split
    | dsimp only

theorem execRsreqRecv_good {pq : List Instr × Prop} {p : Fin 24} {s : State} (hs : Good pq s) : GoodOut pq (execRsreqRecv p s) := by
  unfold execRsreqRecv
  repeat' first
    | with_reducible assumption
    | with_reducible refine goodOut_next ?_
    | (lift_lets; intro x; refine (fun (hx : Good pq x) => ?_) ?_; clear_value x)
    | (intro x; subst x)
    | with_reducible refine State.hearCtl_good ?_
    | with_reducible refine State.sendCtl_good ?_
    | with_reducible refine State.setPort_good ?_
    | with_reducible refine ite_good (fun _ => ?_) (fun _ => ?_)
    | with_reducible refine iteOut_good (fun _ => ?_) (fun _ => ?_)
    | with_reducible refine foldl_good (fun _ _ _ => ?_) ?_
    | with_reducible refine foldl_fst (fun _ _ _ => ?_) ?_
    | with_reducible refine foldl_snd (fun _ _ _ => ?_) ?_
    | subst x
    | with_reducible split
    | dsimp only

theorem execMarkRecv_good {pq : List Instr × Prop} {p : Fin 24} {sent : List W16} {s : State} (hs : Good pq s) : GoodOut pq (execMarkRecv p sent s) := by
  unfold execMarkRecv
  repeat' first
    | with_reducible assumption
    | with_reducible refine goodOut_next ?_
    | (lift_lets; intro x; refine (fun (hx : Good pq x) => ?_) ?_; clear_value x)
    | (intro x; subst x)
    | with_reducible refine State.addFld_good ?_
    | with_reducible refine State.hearCtl_good ?_
    | with_reducible refine State.sendCtl_good ?_
    | with_reducible refine State.setPort_good ?_
    | with_reducible refine ite_good (fun _ => ?_) (fun _ => ?_)
    | with_reducible refine iteOut_good (fun _ => ?_) (fun _ => ?_)
    | with_reducible refine foldl_good (fun _ _ _ => ?_) ?_
    | with_reducible refine foldl_fst (fun _ _ _ => ?_) ?_
    | with_reducible refine foldl_snd (fun _ _ _ => ?_) ?_
    | subst x
    | with_reducible split
    | dsimp only

theorem execRsackRecv_good {pq : List Instr × Prop} {p : Fin 24} {freed : List W16} {s : State} (hs : Good pq s) : GoodOut pq (execRsackRecv p freed s) := by
  unfold execRsackRecv
  repeat' first
    | with_reducible assumption
    | with_reducible refine goodOut_next ?_
    | (lift_lets; intro x; refine (fun (hx : Good pq x) => ?_) ?_; clear_value x)
    | (intro x; subst x)
    | with_reducible refine State.hearCtl_good ?_
    | with_reducible refine State.setPort_good ?_
    | with_reducible refine ite_good (fun _ => ?_) (fun _ => ?_)
    | with_reducible refine iteOut_good (fun _ => ?_) (fun _ => ?_)
    | with_reducible refine foldl_good (fun _ _ _ => ?_) ?_
    | with_reducible refine foldl_fst (fun _ _ _ => ?_) ?_
    | with_reducible refine foldl_snd (fun _ _ _ => ?_) ?_
    | subst x
    | with_reducible split
    | dsimp only

theorem execCrdRecv_good {pq : List Instr × Prop} {p : Fin 24} {freed : List W16} {s : State} (hs : Good pq s) : GoodOut pq (execCrdRecv p freed s) := by
  unfold execCrdRecv
  repeat' first
    | with_reducible assumption
    | with_reducible refine goodOut_next ?_
    | (lift_lets; intro x; refine (fun (hx : Good pq x) => ?_) ?_; clear_value x)
    | (intro x; subst x)
    | with_reducible refine State.hearCtl_good ?_
    | with_reducible refine State.setPort_good ?_
    | with_reducible refine ite_good (fun _ => ?_) (fun _ => ?_)
    | with_reducible refine iteOut_good (fun _ => ?_) (fun _ => ?_)
    | with_reducible refine foldl_good (fun _ _ _ => ?_) ?_
    | with_reducible refine foldl_fst (fun _ _ _ => ?_) ?_
    | with_reducible refine foldl_snd (fun _ _ _ => ?_) ?_
    | subst x
    | with_reducible split
    | dsimp only

theorem execCrdSend_good {pq : List Instr × Prop} {p : Fin 24} {s : State} (hs : Good pq s) : GoodOut pq (execCrdSend p s) := by
  unfold execCrdSend
  repeat' first
    | with_reducible assumption
    | with_reducible refine goodOut_next ?_
    | (lift_lets; intro x; refine (fun (hx : Good pq x) => ?_) ?_; clear_value x)
    | (intro x; subst x)
    | with_reducible refine State.sendCtl_good ?_
    | with_reducible refine State.setPort_good ?_
    | with_reducible refine ite_good (fun _ => ?_) (fun _ => ?_)
    | with_reducible refine iteOut_good (fun _ => ?_) (fun _ => ?_)
    | with_reducible refine foldl_good (fun _ _ _ => ?_) ?_
    | with_reducible refine foldl_fst (fun _ _ _ => ?_) ?_
    | with_reducible refine foldl_snd (fun _ _ _ => ?_) ?_
    | subst x
    | with_reducible split
    | dsimp only

theorem execLinkFlitGapTimeout_good {pq : List Instr × Prop} {p : Fin 24} {s : State} (hs : Good pq s) : GoodOut pq (execLinkFlitGapTimeout p s) := by
  unfold execLinkFlitGapTimeout
  repeat' first
    | with_reducible assumption
    | with_reducible refine goodOut_next ?_
    | (lift_lets; intro x; refine (fun (hx : Good pq x) => ?_) ?_; clear_value x)
    | (intro x; subst x)
    | with_reducible refine State.portDown_good ?_
    | with_reducible refine ite_good (fun _ => ?_) (fun _ => ?_)
    | with_reducible refine iteOut_good (fun _ => ?_) (fun _ => ?_)
    | with_reducible refine foldl_good (fun _ _ _ => ?_) ?_
    | with_reducible refine foldl_fst (fun _ _ _ => ?_) ?_
    | with_reducible refine foldl_snd (fun _ _ _ => ?_) ?_
    | subst x
    | with_reducible split
    | dsimp only

theorem execLinkResyncTimeout_good {pq : List Instr × Prop} {p : Fin 24} {s : State} (hs : Good pq s) : GoodOut pq (execLinkResyncTimeout p s) := by
  unfold execLinkResyncTimeout
  repeat' first
    | with_reducible assumption
    | with_reducible refine goodOut_next ?_
    | (lift_lets; intro x; refine (fun (hx : Good pq x) => ?_) ?_; clear_value x)
    | (intro x; subst x)
    | with_reducible refine State.portDown_good ?_
    | with_reducible refine ite_good (fun _ => ?_) (fun _ => ?_)
    | with_reducible refine iteOut_good (fun _ => ?_) (fun _ => ?_)
    | with_reducible refine foldl_good (fun _ _ _ => ?_) ?_
    | with_reducible refine foldl_fst (fun _ _ _ => ?_) ?_
    | with_reducible refine foldl_snd (fun _ _ _ => ?_) ?_
    | subst x
    | with_reducible split
    | dsimp only

theorem State.sinkRelay_good {pq : List Instr × Prop} {s : State} {p : Nat} {ws : List W64} (hs : Good pq s) : Good pq (State.sinkRelay s p ws) := by
  unfold State.sinkRelay
  repeat' first
    | with_reducible assumption
    | with_reducible refine goodOut_next ?_
    | (lift_lets; intro x; refine (fun (hx : Good pq x) => ?_) ?_; clear_value x)
    | (intro x; subst x)
    | with_reducible refine State.abort_good ?_
    | with_reducible refine State.addFld_good ?_
    | with_reducible refine State.event_good ?_
    | with_reducible refine State.setFld_good ?_
    | with_reducible refine State.startRelay_good ?_
    | with_reducible refine ite_good (fun _ => ?_) (fun _ => ?_)
    | with_reducible refine iteOut_good (fun _ => ?_) (fun _ => ?_)
    | with_reducible refine foldl_good (fun _ _ _ => ?_) ?_
    | with_reducible refine foldl_fst (fun _ _ _ => ?_) ?_
    | with_reducible refine foldl_snd (fun _ _ _ => ?_) ?_
    | subst x
    | with_reducible split
    | dsimp only

theorem State.dropFormat_good {pq : List Instr × Prop} {s : State} {p : Nat} (hs : Good pq s) : Good pq (State.dropFormat s p) := by
  unfold State.dropFormat
  repeat' first
    | with_reducible assumption
    | with_reducible refine goodOut_next ?_
    | (lift_lets; intro x; refine (fun (hx : Good pq x) => ?_) ?_; clear_value x)
    | (intro x; subst x)
    | with_reducible refine State.addFld_good ?_
    | with_reducible refine State.setErr_good ?_
    | with_reducible refine ite_good (fun _ => ?_) (fun _ => ?_)
    | with_reducible refine iteOut_good (fun _ => ?_) (fun _ => ?_)
    | with_reducible refine foldl_good (fun _ _ _ => ?_) ?_
    | with_reducible refine foldl_fst (fun _ _ _ => ?_) ?_
    | with_reducible refine foldl_snd (fun _ _ _ => ?_) ?_
    | subst x
    | with_reducible split
    | dsimp only

theorem State.sink_good {pq : List Instr × Prop} {s : State} {p : Nat} {ws : List W64} (hs : Good pq s) : Good pq (State.sink s p ws) := by
  unfold State.sink
  repeat' first
    | with_reducible assumption
    | with_reducible refine goodOut_next ?_
    | (lift_lets; intro x; refine (fun (hx : Good pq x) => ?_) ?_; clear_value x)
    | (intro x; subst x)
    | with_reducible refine State.dropFormat_good ?_
    | with_reducible refine State.sinkRelay_good ?_
    | with_reducible refine State.withNet_good _ ?_
    | with_reducible refine ite_good (fun _ => ?_) (fun _ => ?_)
    | with_reducible refine iteOut_good (fun _ => ?_) (fun _ => ?_)
    | with_reducible refine foldl_good (fun _ _ _ => ?_) ?_
    | with_reducible refine foldl_fst (fun _ _ _ => ?_) ?_
    | with_reducible refine foldl_snd (fun _ _ _ => ?_) ?_
    | subst x
    | with_reducible split
    | dsimp only

theorem State.receive_good {pq : List Instr × Prop} {s : State} {p : Nat} {ws : List W64} (hs : Good pq s) : Good pq (State.receive s p ws) := by
  unfold State.receive
  repeat' first
    | with_reducible assumption
    | with_reducible refine goodOut_next ?_
    | (lift_lets; intro x; refine (fun (hx : Good pq x) => ?_) ?_; clear_value x)
    | (intro x; subst x)
    | with_reducible refine State.addWork_good ?_
    | with_reducible refine State.dropFormat_good ?_
    | with_reducible refine State.freeFlits_good ?_
    | with_reducible refine State.setPort_good ?_
    | with_reducible refine State.sink_good ?_
    | with_reducible refine State.withNet_good _ ?_
    | with_reducible refine ite_good (fun _ => ?_) (fun _ => ?_)
    | with_reducible refine iteOut_good (fun _ => ?_) (fun _ => ?_)
    | with_reducible refine foldl_good (fun _ _ _ => ?_) ?_
    | with_reducible refine foldl_fst (fun _ _ _ => ?_) ?_
    | with_reducible refine foldl_snd (fun _ _ _ => ?_) ?_
    | subst x
    | with_reducible split
    | dsimp only

theorem execPktRecv_good {pq : List Instr × Prop} {p : Fin 24} {words : List W64} {s : State} (hs : Good pq s) : GoodOut pq (execPktRecv p words s) := by
  unfold execPktRecv
  repeat' first
    | with_reducible assumption
    | with_reducible refine goodOut_next ?_
    | (lift_lets; intro x; refine (fun (hx : Good pq x) => ?_) ?_; clear_value x)
    | (intro x; subst x)
    | with_reducible refine State.receive_good ?_
    | with_reducible refine ite_good (fun _ => ?_) (fun _ => ?_)
    | with_reducible refine iteOut_good (fun _ => ?_) (fun _ => ?_)
    | with_reducible refine foldl_good (fun _ _ _ => ?_) ?_
    | with_reducible refine foldl_fst (fun _ _ _ => ?_) ?_
    | with_reducible refine foldl_snd (fun _ _ _ => ?_) ?_
    | subst x
    | with_reducible split
    | dsimp only

theorem execRelayRecv_good {pq : List Instr × Prop} {p : Fin 24} {words : List W64} {s : State} (hs : Good pq s) : GoodOut pq (execRelayRecv p words s) := by
  unfold execRelayRecv
  repeat' first
    | with_reducible assumption
    | with_reducible refine goodOut_next ?_
    | (lift_lets; intro x; refine (fun (hx : Good pq x) => ?_) ?_; clear_value x)
    | (intro x; subst x)
    | with_reducible refine State.receive_good ?_
    | with_reducible refine ite_good (fun _ => ?_) (fun _ => ?_)
    | with_reducible refine iteOut_good (fun _ => ?_) (fun _ => ?_)
    | with_reducible refine foldl_good (fun _ _ _ => ?_) ?_
    | with_reducible refine foldl_fst (fun _ _ _ => ?_) ?_
    | with_reducible refine foldl_snd (fun _ _ _ => ?_) ?_
    | subst x
    | with_reducible split
    | dsimp only

theorem State.sendOn_good {pq : List Instr × Prop} {s : State} {h : Held} {p : Nat} {vc : Nat} (hs : Good pq s) : Good pq (State.sendOn s h p vc) := by
  unfold State.sendOn
  repeat' first
    | with_reducible assumption
    | with_reducible refine goodOut_next ?_
    | (lift_lets; intro x; refine (fun (hx : Good pq x) => ?_) ?_; clear_value x)
    | (intro x; subst x)
    | with_reducible refine State.addWork_good ?_
    | with_reducible refine State.setPort_good ?_
    | with_reducible refine State.unhold_good ?_
    | with_reducible refine ite_good (fun _ => ?_) (fun _ => ?_)
    | with_reducible refine iteOut_good (fun _ => ?_) (fun _ => ?_)
    | with_reducible refine foldl_good (fun _ _ _ => ?_) ?_
    | with_reducible refine foldl_fst (fun _ _ _ => ?_) ?_
    | with_reducible refine foldl_snd (fun _ _ _ => ?_) ?_
    | subst x
    | with_reducible split
    | dsimp only

theorem execPktForward_good {pq : List Instr × Prop} {d : Die} {s : State} (hs : Good pq s) : GoodOut pq (execPktForward d s) := by
  unfold execPktForward
  repeat' first
    | with_reducible assumption
    | with_reducible refine goodOut_next ?_
    | (lift_lets; intro x; refine (fun (hx : Good pq x) => ?_) ?_; clear_value x)
    | (intro x; subst x)
    | with_reducible refine State.addFld_good ?_
    | with_reducible refine State.sendOn_good ?_
    | with_reducible refine State.unhold_good ?_
    | with_reducible refine ite_good (fun _ => ?_) (fun _ => ?_)
    | with_reducible refine iteOut_good (fun _ => ?_) (fun _ => ?_)
    | with_reducible refine foldl_good (fun _ _ _ => ?_) ?_
    | with_reducible refine foldl_fst (fun _ _ _ => ?_) ?_
    | with_reducible refine foldl_snd (fun _ _ _ => ?_) ?_
    | subst x
    | with_reducible split
    | dsimp only

theorem execPktStaleDiscard_good {pq : List Instr × Prop} {d : Die} {s : State} (hs : Good pq s) : GoodOut pq (execPktStaleDiscard d s) := by
  unfold execPktStaleDiscard
  repeat' first
    | with_reducible assumption
    | with_reducible refine goodOut_next ?_
    | (lift_lets; intro x; refine (fun (hx : Good pq x) => ?_) ?_; clear_value x)
    | (intro x; subst x)
    | with_reducible refine State.addFld_good ?_
    | with_reducible refine State.unhold_good ?_
    | with_reducible refine ite_good (fun _ => ?_) (fun _ => ?_)
    | with_reducible refine iteOut_good (fun _ => ?_) (fun _ => ?_)
    | with_reducible refine foldl_good (fun _ _ _ => ?_) ?_
    | with_reducible refine foldl_fst (fun _ _ _ => ?_) ?_
    | with_reducible refine foldl_snd (fun _ _ _ => ?_) ?_
    | subst x
    | with_reducible split
    | dsimp only

theorem execLnkVcallocWrite_good {pq : List Instr × Prop} {p : Fin 24} {hi : Bool} {data : W64} {s : State} (hs : Good pq s) : GoodOut pq (execLnkVcallocWrite p hi data s) := by
  unfold execLnkVcallocWrite
  repeat' first
    | with_reducible assumption
    | with_reducible refine goodOut_next ?_
    | (lift_lets; intro x; refine (fun (hx : Good pq x) => ?_) ?_; clear_value x)
    | (intro x; subst x)
    | with_reducible refine State.plainWrite_good ?_
    | with_reducible refine State.setErr_good ?_
    | with_reducible refine State.startResync_good ?_
    | with_reducible refine ite_good (fun _ => ?_) (fun _ => ?_)
    | with_reducible refine iteOut_good (fun _ => ?_) (fun _ => ?_)
    | with_reducible refine foldl_good (fun _ _ _ => ?_) ?_
    | with_reducible refine foldl_fst (fun _ _ _ => ?_) ?_
    | with_reducible refine foldl_snd (fun _ _ _ => ?_) ?_
    | subst x
    | with_reducible split
    | dsimp only

theorem execLnkFence_good {pq : List Instr × Prop} {p : Fin 24} {s : State} (hs : Good pq s) : GoodOut pq (execLnkFence p s) := by
  unfold execLnkFence
  repeat' first
    | with_reducible assumption
    | with_reducible refine goodOut_next ?_
    | (lift_lets; intro x; refine (fun (hx : Good pq x) => ?_) ?_; clear_value x)
    | (intro x; subst x)
    | with_reducible refine State.fencePort_good ?_
    | with_reducible refine ite_good (fun _ => ?_) (fun _ => ?_)
    | with_reducible refine iteOut_good (fun _ => ?_) (fun _ => ?_)
    | with_reducible refine foldl_good (fun _ _ _ => ?_) ?_
    | with_reducible refine foldl_fst (fun _ _ _ => ?_) ?_
    | with_reducible refine foldl_snd (fun _ _ _ => ?_) ?_
    | subst x
    | with_reducible split
    | dsimp only

theorem execLnkReadmit_good {pq : List Instr × Prop} {p : Fin 24} {s : State} (hs : Good pq s) : GoodOut pq (execLnkReadmit p s) := by
  unfold execLnkReadmit
  repeat' first
    | with_reducible assumption
    | with_reducible refine goodOut_next ?_
    | (lift_lets; intro x; refine (fun (hx : Good pq x) => ?_) ?_; clear_value x)
    | (intro x; subst x)
    | with_reducible refine State.putUnit_good ?_
    | with_reducible refine State.setBitF_good ?_
    | with_reducible refine State.setErr_good ?_
    | with_reducible refine State.setFld_good ?_
    | with_reducible refine State.setLnk_good ?_
    | with_reducible refine ite_good (fun _ => ?_) (fun _ => ?_)
    | with_reducible refine iteOut_good (fun _ => ?_) (fun _ => ?_)
    | with_reducible refine foldl_good (fun _ _ _ => ?_) ?_
    | with_reducible refine foldl_fst (fun _ _ _ => ?_) ?_
    | with_reducible refine foldl_snd (fun _ _ _ => ?_) ?_
    | subst x
    | with_reducible split
    | dsimp only

theorem execLnkRetrain_good {pq : List Instr × Prop} {p : Fin 24} {s : State} (hs : Good pq s) : GoodOut pq (execLnkRetrain p s) := by
  unfold execLnkRetrain
  repeat' first
    | with_reducible assumption
    | with_reducible refine goodOut_next ?_
    | (lift_lets; intro x; refine (fun (hx : Good pq x) => ?_) ?_; clear_value x)
    | (intro x; subst x)
    | with_reducible refine State.setErr_good ?_
    | with_reducible refine State.trainPort_good ?_
    | with_reducible refine ite_good (fun _ => ?_) (fun _ => ?_)
    | with_reducible refine iteOut_good (fun _ => ?_) (fun _ => ?_)
    | with_reducible refine foldl_good (fun _ _ _ => ?_) ?_
    | with_reducible refine foldl_fst (fun _ _ _ => ?_) ?_
    | with_reducible refine foldl_snd (fun _ _ _ => ?_) ?_
    | subst x
    | with_reducible split
    | dsimp only

theorem execLnkAdmit_good {pq : List Instr × Prop} {p : Fin 24} {s : State} (hs : Good pq s) : GoodOut pq (execLnkAdmit p s) := by
  unfold execLnkAdmit
  repeat' first
    | with_reducible assumption
    | with_reducible refine goodOut_next ?_
    | (lift_lets; intro x; refine (fun (hx : Good pq x) => ?_) ?_; clear_value x)
    | (intro x; subst x)
    | with_reducible refine State.setErr_good ?_
    | with_reducible refine State.setFld_good ?_
    | with_reducible refine ite_good (fun _ => ?_) (fun _ => ?_)
    | with_reducible refine iteOut_good (fun _ => ?_) (fun _ => ?_)
    | with_reducible refine foldl_good (fun _ _ _ => ?_) ?_
    | with_reducible refine foldl_fst (fun _ _ _ => ?_) ?_
    | with_reducible refine foldl_snd (fun _ _ _ => ?_) ?_
    | subst x
    | with_reducible split
    | dsimp only

theorem execLnkPark_good {pq : List Instr × Prop} {p : Fin 24} {s : State} (hs : Good pq s) : GoodOut pq (execLnkPark p s) := by
  unfold execLnkPark
  repeat' first
    | with_reducible assumption
    | with_reducible refine goodOut_next ?_
    | (lift_lets; intro x; refine (fun (hx : Good pq x) => ?_) ?_; clear_value x)
    | (intro x; subst x)
    | with_reducible refine State.setErr_good ?_
    | with_reducible refine State.setFld_good ?_
    | with_reducible refine ite_good (fun _ => ?_) (fun _ => ?_)
    | with_reducible refine iteOut_good (fun _ => ?_) (fun _ => ?_)
    | with_reducible refine foldl_good (fun _ _ _ => ?_) ?_
    | with_reducible refine foldl_fst (fun _ _ _ => ?_) ?_
    | with_reducible refine foldl_snd (fun _ _ _ => ?_) ?_
    | subst x
    | with_reducible split
    | dsimp only

theorem execLnkEnWrite_good {pq : List Instr × Prop} {p : Fin 24} {en : Bool} {s : State} (hs : Good pq s) : GoodOut pq (execLnkEnWrite p en s) := by
  unfold execLnkEnWrite
  repeat' first
    | with_reducible assumption
    | with_reducible refine goodOut_next ?_
    | (lift_lets; intro x; refine (fun (hx : Good pq x) => ?_) ?_; clear_value x)
    | (intro x; subst x)
    | with_reducible refine State.portOff_good ?_
    | with_reducible refine State.setBitF_good ?_
    | with_reducible refine State.setLnk_good ?_
    | with_reducible refine ite_good (fun _ => ?_) (fun _ => ?_)
    | with_reducible refine iteOut_good (fun _ => ?_) (fun _ => ?_)
    | with_reducible refine foldl_good (fun _ _ _ => ?_) ?_
    | with_reducible refine foldl_fst (fun _ _ _ => ?_) ?_
    | with_reducible refine foldl_snd (fun _ _ _ => ?_) ?_
    | subst x
    | with_reducible split
    | dsimp only

theorem execLnkCounterRead_good {pq : List Instr × Prop} {p : Fin 24} {reg : Fin 3} {s : State} (hs : Good pq s) : GoodOut pq (execLnkCounterRead p reg s) := by
  unfold execLnkCounterRead
  repeat' first
    | with_reducible assumption
    | with_reducible refine goodOut_next ?_
    | (lift_lets; intro x; refine (fun (hx : Good pq x) => ?_) ?_; clear_value x)
    | (intro x; subst x)
    | with_reducible refine State.out_good ?_
    | with_reducible refine State.readClear_good ?_
    | with_reducible refine State.withWork_good _ ?_
    | with_reducible refine ite_good (fun _ => ?_) (fun _ => ?_)
    | with_reducible refine iteOut_good (fun _ => ?_) (fun _ => ?_)
    | with_reducible refine foldl_good (fun _ _ _ => ?_) ?_
    | with_reducible refine foldl_fst (fun _ _ _ => ?_) ?_
    | with_reducible refine foldl_snd (fun _ _ _ => ?_) ?_
    | subst x
    | with_reducible split
    | dsimp only

theorem execRteLoad_good {pq : List Instr × Prop} {data : W64} {s : State} (hs : Good pq s) : GoodOut pq (execRteLoad data s) := by
  unfold execRteLoad
  repeat' first
    | with_reducible assumption
    | with_reducible refine goodOut_next ?_
    | (lift_lets; intro x; refine (fun (hx : Good pq x) => ?_) ?_; clear_value x)
    | (intro x; subst x)
    | with_reducible refine State.setErr_good ?_
    | with_reducible refine State.setVerState_good ?_
    | with_reducible refine State.withNet_good _ ?_
    | with_reducible refine ite_good (fun _ => ?_) (fun _ => ?_)
    | with_reducible refine iteOut_good (fun _ => ?_) (fun _ => ?_)
    | with_reducible refine foldl_good (fun _ _ _ => ?_) ?_
    | with_reducible refine foldl_fst (fun _ _ _ => ?_) ?_
    | with_reducible refine foldl_snd (fun _ _ _ => ?_) ?_
    | subst x
    | with_reducible split
    | dsimp only

theorem State.applyPending_good {pq : List Instr × Prop} {s : State} {parks : Bool} (hs : Good pq s) : Good pq (State.applyPending s parks) := by
  unfold State.applyPending
  repeat' first
    | with_reducible assumption
    | with_reducible refine goodOut_next ?_
    | (lift_lets; intro x; refine (fun (hx : Good pq x) => ?_) ?_; clear_value x)
    | (intro x; subst x)
    | with_reducible refine State.routePort_good ?_
    | with_reducible refine State.setFld_good ?_
    | with_reducible refine State.setLnk_good ?_
    | with_reducible refine State.setPort_good ?_
    | with_reducible refine ite_good (fun _ => ?_) (fun _ => ?_)
    | with_reducible refine iteOut_good (fun _ => ?_) (fun _ => ?_)
    | with_reducible refine foldl_good (fun _ _ _ => ?_) ?_
    | with_reducible refine foldl_fst (fun _ _ _ => ?_) ?_
    | with_reducible refine foldl_snd (fun _ _ _ => ?_) ?_
    | subst x
    | with_reducible split
    | dsimp only

theorem State.loadImage_good {pq : List Instr × Prop} {s : State} {v : Nat} {a : Nat} {both : Bool} (hs : Good pq s) : Good pq (State.loadImage s v a both) := by
  unfold State.loadImage
  repeat' first
    | with_reducible assumption
    | with_reducible refine goodOut_next ?_
    | (lift_lets; intro x; refine (fun (hx : Good pq x) => ?_) ?_; clear_value x)
    | (intro x; subst x)
    | with_reducible refine State.applyPending_good ?_
    | with_reducible refine State.setErr_good ?_
    | with_reducible refine State.setVerState_good ?_
    | with_reducible refine State.withNet_good _ ?_
    | with_reducible refine ite_good (fun _ => ?_) (fun _ => ?_)
    | with_reducible refine iteOut_good (fun _ => ?_) (fun _ => ?_)
    | with_reducible refine foldl_good (fun _ _ _ => ?_) ?_
    | with_reducible refine foldl_fst (fun _ _ _ => ?_) ?_
    | with_reducible refine foldl_snd (fun _ _ _ => ?_) ?_
    | subst x
    | with_reducible split
    | dsimp only

theorem execRteLoadDone_good {pq : List Instr × Prop} {s : State} (hs : Good pq s) : GoodOut pq (execRteLoadDone s) := by
  unfold execRteLoadDone
  repeat' first
    | with_reducible assumption
    | with_reducible refine goodOut_next ?_
    | (lift_lets; intro x; refine (fun (hx : Good pq x) => ?_) ?_; clear_value x)
    | (intro x; subst x)
    | with_reducible refine State.loadImage_good ?_
    | with_reducible refine State.withNet_good _ ?_
    | with_reducible refine ite_good (fun _ => ?_) (fun _ => ?_)
    | with_reducible refine iteOut_good (fun _ => ?_) (fun _ => ?_)
    | with_reducible refine foldl_good (fun _ _ _ => ?_) ?_
    | with_reducible refine foldl_fst (fun _ _ _ => ?_) ?_
    | with_reducible refine foldl_snd (fun _ _ _ => ?_) ?_
    | subst x
    | with_reducible split
    | dsimp only

theorem execRteFlip_good {pq : List Instr × Prop} {s : State} (hs : Good pq s) : GoodOut pq (execRteFlip s) := by
  unfold execRteFlip
  repeat' first
    | with_reducible assumption
    | with_reducible refine goodOut_next ?_
    | (lift_lets; intro x; refine (fun (hx : Good pq x) => ?_) ?_; clear_value x)
    | (intro x; subst x)
    | with_reducible refine State.applyPending_good ?_
    | with_reducible refine State.setErr_good ?_
    | with_reducible refine State.setFld_good ?_
    | with_reducible refine State.setVerState_good ?_
    | with_reducible refine State.withNet_good _ ?_
    | with_reducible refine ite_good (fun _ => ?_) (fun _ => ?_)
    | with_reducible refine iteOut_good (fun _ => ?_) (fun _ => ?_)
    | with_reducible refine foldl_good (fun _ _ _ => ?_) ?_
    | with_reducible refine foldl_fst (fun _ _ _ => ?_) ?_
    | with_reducible refine foldl_snd (fun _ _ _ => ?_) ?_
    | subst x
    | with_reducible split
    | dsimp only

theorem State.boundTmo_good {pq : List Instr × Prop} {s : State} (hs : Good pq s) : Good pq (State.boundTmo s) := by
  unfold State.boundTmo
  repeat' first
    | with_reducible assumption
    | with_reducible refine goodOut_next ?_
    | (lift_lets; intro x; refine (fun (hx : Good pq x) => ?_) ?_; clear_value x)
    | (intro x; subst x)
    | with_reducible refine State.setFld_good ?_
    | with_reducible refine ite_good (fun _ => ?_) (fun _ => ?_)
    | with_reducible refine iteOut_good (fun _ => ?_) (fun _ => ?_)
    | with_reducible refine foldl_good (fun _ _ _ => ?_) ?_
    | with_reducible refine foldl_fst (fun _ _ _ => ?_) ?_
    | with_reducible refine foldl_snd (fun _ _ _ => ?_) ?_
    | subst x
    | with_reducible split
    | dsimp only

theorem execRteCfgWrite_good {pq : List Instr × Prop} {data : W64} {s : State} (hs : Good pq s) : GoodOut pq (execRteCfgWrite data s) := by
  unfold execRteCfgWrite
  repeat' first
    | with_reducible assumption
    | with_reducible refine goodOut_next ?_
    | (lift_lets; intro x; refine (fun (hx : Good pq x) => ?_) ?_; clear_value x)
    | (intro x; subst x)
    | with_reducible refine State.boundTmo_good ?_
    | with_reducible refine State.plainWrite_good ?_
    | with_reducible refine State.setErr_good ?_
    | with_reducible refine State.setFld_good ?_
    | with_reducible refine ite_good (fun _ => ?_) (fun _ => ?_)
    | with_reducible refine iteOut_good (fun _ => ?_) (fun _ => ?_)
    | with_reducible refine foldl_good (fun _ _ _ => ?_) ?_
    | with_reducible refine foldl_fst (fun _ _ _ => ?_) ?_
    | with_reducible refine foldl_snd (fun _ _ _ => ?_) ?_
    | subst x
    | with_reducible split
    | dsimp only

theorem execRteTimersWrite_good {pq : List Instr × Prop} {data : W64} {s : State} (hs : Good pq s) : GoodOut pq (execRteTimersWrite data s) := by
  unfold execRteTimersWrite
  repeat' first
    | with_reducible assumption
    | with_reducible refine goodOut_next ?_
    | (lift_lets; intro x; refine (fun (hx : Good pq x) => ?_) ?_; clear_value x)
    | (intro x; subst x)
    | with_reducible refine State.boundTmo_good ?_
    | with_reducible refine State.plainWrite_good ?_
    | with_reducible refine State.setFld_good ?_
    | with_reducible refine ite_good (fun _ => ?_) (fun _ => ?_)
    | with_reducible refine iteOut_good (fun _ => ?_) (fun _ => ?_)
    | with_reducible refine foldl_good (fun _ _ _ => ?_) ?_
    | with_reducible refine foldl_fst (fun _ _ _ => ?_) ?_
    | with_reducible refine foldl_snd (fun _ _ _ => ?_) ?_
    | subst x
    | with_reducible split
    | dsimp only

theorem execRteCounterRead_good {pq : List Instr × Prop} {reg : Fin 3} {s : State} (hs : Good pq s) : GoodOut pq (execRteCounterRead reg s) := by
  unfold execRteCounterRead
  repeat' first
    | with_reducible assumption
    | with_reducible refine goodOut_next ?_
    | (lift_lets; intro x; refine (fun (hx : Good pq x) => ?_) ?_; clear_value x)
    | (intro x; subst x)
    | with_reducible refine State.readClear_good ?_
    | with_reducible refine ite_good (fun _ => ?_) (fun _ => ?_)
    | with_reducible refine iteOut_good (fun _ => ?_) (fun _ => ?_)
    | with_reducible refine foldl_good (fun _ _ _ => ?_) ?_
    | with_reducible refine foldl_fst (fun _ _ _ => ?_) ?_
    | with_reducible refine foldl_snd (fun _ _ _ => ?_) ?_
    | subst x
    | with_reducible split
    | dsimp only

theorem State.helloAll_good {pq : List Instr × Prop} {s : State} (hs : Good pq s) : Good pq (State.helloAll s) := by
  unfold State.helloAll
  repeat' first
    | with_reducible assumption
    | with_reducible refine goodOut_next ?_
    | (lift_lets; intro x; refine (fun (hx : Good pq x) => ?_) ?_; clear_value x)
    | (intro x; subst x)
    | with_reducible refine State.setPort_good ?_
    | with_reducible refine ite_good (fun _ => ?_) (fun _ => ?_)
    | with_reducible refine iteOut_good (fun _ => ?_) (fun _ => ?_)
    | with_reducible refine foldl_good (fun _ _ _ => ?_) ?_
    | with_reducible refine foldl_fst (fun _ _ _ => ?_) ?_
    | with_reducible refine foldl_snd (fun _ _ _ => ?_) ?_
    | subst x
    | with_reducible split
    | dsimp only

theorem State.redecide_good {pq : List Instr × Prop} {s : State} {p : Nat} (hs : Good pq s) : Good pq (State.redecide s p) := by
  unfold State.redecide
  repeat' first
    | with_reducible assumption
    | with_reducible refine goodOut_next ?_
    | (lift_lets; intro x; refine (fun (hx : Good pq x) => ?_) ?_; clear_value x)
    | (intro x; subst x)
    | with_reducible refine State.event_good ?_
    | with_reducible refine State.setErr_good ?_
    | with_reducible refine State.setFld_good ?_
    | with_reducible refine ite_good (fun _ => ?_) (fun _ => ?_)
    | with_reducible refine iteOut_good (fun _ => ?_) (fun _ => ?_)
    | with_reducible refine foldl_good (fun _ _ _ => ?_) ?_
    | with_reducible refine foldl_fst (fun _ _ _ => ?_) ?_
    | with_reducible refine foldl_snd (fun _ _ _ => ?_) ?_
    | subst x
    | with_reducible split
    | dsimp only

theorem State.redecideAll_good {pq : List Instr × Prop} {s : State} (hs : Good pq s) : Good pq (State.redecideAll s) := by
  unfold State.redecideAll
  repeat' first
    | with_reducible assumption
    | with_reducible refine goodOut_next ?_
    | (lift_lets; intro x; refine (fun (hx : Good pq x) => ?_) ?_; clear_value x)
    | (intro x; subst x)
    | with_reducible refine State.redecide_good ?_
    | with_reducible refine ite_good (fun _ => ?_) (fun _ => ?_)
    | with_reducible refine iteOut_good (fun _ => ?_) (fun _ => ?_)
    | with_reducible refine foldl_good (fun _ _ _ => ?_) ?_
    | with_reducible refine foldl_fst (fun _ _ _ => ?_) ?_
    | with_reducible refine foldl_snd (fun _ _ _ => ?_) ?_
    | subst x
    | with_reducible split
    | dsimp only

theorem State.storeIdentity_good {pq : List Instr × Prop} {s : State} (hs : Good pq s) : Good pq (State.storeIdentity s) := by
  unfold State.storeIdentity
  repeat' first
    | with_reducible assumption
    | with_reducible refine goodOut_next ?_
    | (lift_lets; intro x; refine (fun (hx : Good pq x) => ?_) ?_; clear_value x)
    | (intro x; subst x)
    | with_reducible refine State.sstAdd_good ?_
    | with_reducible refine ite_good (fun _ => ?_) (fun _ => ?_)
    | with_reducible refine iteOut_good (fun _ => ?_) (fun _ => ?_)
    | with_reducible refine foldl_good (fun _ _ _ => ?_) ?_
    | with_reducible refine foldl_fst (fun _ _ _ => ?_) ?_
    | with_reducible refine foldl_snd (fun _ _ _ => ?_) ?_
    | subst x
    | with_reducible split
    | dsimp only

theorem State.compareIdentity_good {pq : List Instr × Prop} {s : State} (hs : Good pq s) : Good pq (State.compareIdentity s) := by
  unfold State.compareIdentity
  repeat' first
    | with_reducible assumption
    | with_reducible refine goodOut_next ?_
    | (lift_lets; intro x; refine (fun (hx : Good pq x) => ?_) ?_; clear_value x)
    | (intro x; subst x)
    | with_reducible refine State.setErr_good ?_
    | with_reducible refine State.storeIdentity_good ?_
    | with_reducible refine ite_good (fun _ => ?_) (fun _ => ?_)
    | with_reducible refine iteOut_good (fun _ => ?_) (fun _ => ?_)
    | with_reducible refine foldl_good (fun _ _ _ => ?_) ?_
    | with_reducible refine foldl_fst (fun _ _ _ => ?_) ?_
    | with_reducible refine foldl_snd (fun _ _ _ => ?_) ?_
    | subst x
    | with_reducible split
    | dsimp only

theorem State.setSelf_good {pq : List Instr × Prop} {s : State} {dev : Nat} (hs : Good pq s) : Good pq (State.setSelf s dev) := by
  unfold State.setSelf
  repeat' first
    | with_reducible assumption
    | with_reducible refine goodOut_next ?_
    | (lift_lets; intro x; refine (fun (hx : Good pq x) => ?_) ?_; clear_value x)
    | (intro x; subst x)
    | with_reducible refine State.event_good ?_
    | with_reducible refine State.setErr_good ?_
    | with_reducible refine State.setFld_good ?_
    | with_reducible refine ite_good (fun _ => ?_) (fun _ => ?_)
    | with_reducible refine iteOut_good (fun _ => ?_) (fun _ => ?_)
    | with_reducible refine foldl_good (fun _ _ _ => ?_) ?_
    | with_reducible refine foldl_fst (fun _ _ _ => ?_) ?_
    | with_reducible refine foldl_snd (fun _ _ _ => ?_) ?_
    | subst x
    | with_reducible split
    | dsimp only

theorem State.takeNumber_good {pq : List Instr × Prop} {s : State} {dev : Nat} {src : Nat} (hs : Good pq s) : Good pq (State.takeNumber s dev src) := by
  unfold State.takeNumber
  repeat' first
    | with_reducible assumption
    | with_reducible refine goodOut_next ?_
    | (lift_lets; intro x; refine (fun (hx : Good pq x) => ?_) ?_; clear_value x)
    | (intro x; subst x)
    | with_reducible refine State.compareIdentity_good ?_
    | with_reducible refine State.helloAll_good ?_
    | with_reducible refine State.redecideAll_good ?_
    | with_reducible refine State.setReg_good ?_
    | with_reducible refine State.setSelf_good ?_
    | with_reducible refine State.storeIdentity_good ?_
    | with_reducible refine ite_good (fun _ => ?_) (fun _ => ?_)
    | with_reducible refine iteOut_good (fun _ => ?_) (fun _ => ?_)
    | with_reducible refine foldl_good (fun _ _ _ => ?_) ?_
    | with_reducible refine foldl_fst (fun _ _ _ => ?_) ?_
    | with_reducible refine foldl_snd (fun _ _ _ => ?_) ?_
    | subst x
    | with_reducible split
    | dsimp only

theorem State.identify_good {pq : List Instr × Prop} {s : State} (hs : Good pq s) : Good pq (State.identify s) := by
  unfold State.identify
  repeat' first
    | with_reducible assumption
    | with_reducible refine goodOut_next ?_
    | (lift_lets; intro x; refine (fun (hx : Good pq x) => ?_) ?_; clear_value x)
    | (intro x; subst x)
    | with_reducible refine State.takeNumber_good ?_
    | with_reducible refine ite_good (fun _ => ?_) (fun _ => ?_)
    | with_reducible refine iteOut_good (fun _ => ?_) (fun _ => ?_)
    | with_reducible refine foldl_good (fun _ _ _ => ?_) ?_
    | with_reducible refine foldl_fst (fun _ _ _ => ?_) ?_
    | with_reducible refine foldl_snd (fun _ _ _ => ?_) ?_
    | subst x
    | with_reducible split
    | dsimp only

theorem State.showPeer_good {pq : List Instr × Prop} {s : State} {p : Nat} {h : Hello} (hs : Good pq s) : Good pq (State.showPeer s p h) := by
  unfold State.showPeer
  repeat' first
    | with_reducible assumption
    | with_reducible refine goodOut_next ?_
    | (lift_lets; intro x; refine (fun (hx : Good pq x) => ?_) ?_; clear_value x)
    | (intro x; subst x)
    | with_reducible refine State.setBitF_good ?_
    | with_reducible refine State.setFld_good ?_
    | with_reducible refine State.setReg_good ?_
    | with_reducible refine ite_good (fun _ => ?_) (fun _ => ?_)
    | with_reducible refine iteOut_good (fun _ => ?_) (fun _ => ?_)
    | with_reducible refine foldl_good (fun _ _ _ => ?_) ?_
    | with_reducible refine foldl_fst (fun _ _ _ => ?_) ?_
    | with_reducible refine foldl_snd (fun _ _ _ => ?_) ?_
    | subst x
    | with_reducible split
    | dsimp only

theorem execHelloRecv_good {pq : List Instr × Prop} {p : Fin 24} {h : Hello} {s0 : State} (hs : Good pq s0) : GoodOut pq (execHelloRecv p h s0) := by
  unfold execHelloRecv
  repeat' first
    | with_reducible assumption
    | with_reducible refine goodOut_next ?_
    | (lift_lets; intro x; refine (fun (hx : Good pq x) => ?_) ?_; clear_value x)
    | (intro x; subst x)
    | with_reducible refine State.hearCtl_good ?_
    | with_reducible refine State.portDown_good ?_
    | with_reducible refine State.redecide_good ?_
    | with_reducible refine State.setErr_good ?_
    | with_reducible refine State.setPort_good ?_
    | with_reducible refine State.showPeer_good ?_
    | with_reducible refine ite_good (fun _ => ?_) (fun _ => ?_)
    | with_reducible refine iteOut_good (fun _ => ?_) (fun _ => ?_)
    | with_reducible refine foldl_good (fun _ _ _ => ?_) ?_
    | with_reducible refine foldl_fst (fun _ _ _ => ?_) ?_
    | with_reducible refine foldl_snd (fun _ _ _ => ?_) ?_
    | subst x
    | with_reducible split
    | dsimp only

theorem execLocRecv_good {pq : List Instr × Prop} {p : Fin 24} {l : Loc} {s0 : State} (hs : Good pq s0) : GoodOut pq (execLocRecv p l s0) := by
  unfold execLocRecv
  repeat' first
    | with_reducible assumption
    | with_reducible refine goodOut_next ?_
    | (lift_lets; intro x; refine (fun (hx : Good pq x) => ?_) ?_; clear_value x)
    | (intro x; subst x)
    | with_reducible refine State.hearCtl_good ?_
    | with_reducible refine State.identify_good ?_
    | with_reducible refine State.redecide_good ?_
    | with_reducible refine State.setBitF_good ?_
    | with_reducible refine State.setErr_good ?_
    | with_reducible refine State.setFld_good ?_
    | with_reducible refine State.setPort_good ?_
    | with_reducible refine ite_good (fun _ => ?_) (fun _ => ?_)
    | with_reducible refine iteOut_good (fun _ => ?_) (fun _ => ?_)
    | with_reducible refine foldl_good (fun _ _ _ => ?_) ?_
    | with_reducible refine foldl_fst (fun _ _ _ => ?_) ?_
    | with_reducible refine foldl_snd (fun _ _ _ => ?_) ?_
    | subst x
    | with_reducible split
    | dsimp only

theorem execProbeRecv_good {pq : List Instr × Prop} {p : Fin 24} {crcOk : Bool} {s0 : State} (hs : Good pq s0) : GoodOut pq (execProbeRecv p crcOk s0) := by
  unfold execProbeRecv
  repeat' first
    | with_reducible assumption
    | with_reducible refine goodOut_next ?_
    | (lift_lets; intro x; refine (fun (hx : Good pq x) => ?_) ?_; clear_value x)
    | (intro x; subst x)
    | with_reducible refine State.hearCtl_good ?_
    | with_reducible refine State.setPort_good ?_
    | with_reducible refine ite_good (fun _ => ?_) (fun _ => ?_)
    | with_reducible refine iteOut_good (fun _ => ?_) (fun _ => ?_)
    | with_reducible refine foldl_good (fun _ _ _ => ?_) ?_
    | with_reducible refine foldl_fst (fun _ _ _ => ?_) ?_
    | with_reducible refine foldl_snd (fun _ _ _ => ?_) ?_
    | subst x
    | with_reducible split
    | dsimp only

theorem execHelloSend_good {pq : List Instr × Prop} {p : Fin 24} {s : State} (hs : Good pq s) : GoodOut pq (execHelloSend p s) := by
  unfold execHelloSend
  repeat' first
    | with_reducible assumption
    | with_reducible refine goodOut_next ?_
    | (lift_lets; intro x; refine (fun (hx : Good pq x) => ?_) ?_; clear_value x)
    | (intro x; subst x)
    | with_reducible refine State.sendCtl_good ?_
    | with_reducible refine State.setPort_good ?_
    | with_reducible refine ite_good (fun _ => ?_) (fun _ => ?_)
    | with_reducible refine iteOut_good (fun _ => ?_) (fun _ => ?_)
    | with_reducible refine foldl_good (fun _ _ _ => ?_) ?_
    | with_reducible refine foldl_fst (fun _ _ _ => ?_) ?_
    | with_reducible refine foldl_snd (fun _ _ _ => ?_) ?_
    | subst x
    | with_reducible split
    | dsimp only

theorem execDiscElect_good {pq : List Instr × Prop} {s : State} (hs : Good pq s) : GoodOut pq (execDiscElect s) := by
  unfold execDiscElect
  repeat' first
    | with_reducible assumption
    | with_reducible refine goodOut_next ?_
    | (lift_lets; intro x; refine (fun (hx : Good pq x) => ?_) ?_; clear_value x)
    | (intro x; subst x)
    | with_reducible refine State.identify_good ?_
    | with_reducible refine State.withNet_good _ ?_
    | with_reducible refine ite_good (fun _ => ?_) (fun _ => ?_)
    | with_reducible refine iteOut_good (fun _ => ?_) (fun _ => ?_)
    | with_reducible refine foldl_good (fun _ _ _ => ?_) ?_
    | with_reducible refine foldl_fst (fun _ _ _ => ?_) ?_
    | with_reducible refine foldl_snd (fun _ _ _ => ?_) ?_
    | subst x
    | with_reducible split
    | dsimp only

theorem execDiscPeerTimeout_good {pq : List Instr × Prop} {p : Fin 24} {s : State} (hs : Good pq s) : GoodOut pq (execDiscPeerTimeout p s) := by
  unfold execDiscPeerTimeout
  repeat' first
    | with_reducible assumption
    | with_reducible refine goodOut_next ?_
    | (lift_lets; intro x; refine (fun (hx : Good pq x) => ?_) ?_; clear_value x)
    | (intro x; subst x)
    | with_reducible refine State.redecide_good ?_
    | with_reducible refine State.setPort_good ?_
    | with_reducible refine ite_good (fun _ => ?_) (fun _ => ?_)
    | with_reducible refine iteOut_good (fun _ => ?_) (fun _ => ?_)
    | with_reducible refine foldl_good (fun _ _ _ => ?_) ?_
    | with_reducible refine foldl_fst (fun _ _ _ => ?_) ?_
    | with_reducible refine foldl_snd (fun _ _ _ => ?_) ?_
    | subst x
    | with_reducible split
    | dsimp only

theorem execDscExpWrite_good {pq : List Instr × Prop} {p : Fin 24} {data : W64} {s : State} (hs : Good pq s) : GoodOut pq (execDscExpWrite p data s) := by
  unfold execDscExpWrite
  repeat' first
    | with_reducible assumption
    | with_reducible refine goodOut_next ?_
    | (lift_lets; intro x; refine (fun (hx : Good pq x) => ?_) ?_; clear_value x)
    | (intro x; subst x)
    | with_reducible refine State.plainWrite_good ?_
    | with_reducible refine State.redecide_good ?_
    | with_reducible refine ite_good (fun _ => ?_) (fun _ => ?_)
    | with_reducible refine iteOut_good (fun _ => ?_) (fun _ => ?_)
    | with_reducible refine foldl_good (fun _ _ _ => ?_) ?_
    | with_reducible refine foldl_fst (fun _ _ _ => ?_) ?_
    | with_reducible refine foldl_snd (fun _ _ _ => ?_) ?_
    | subst x
    | with_reducible split
    | dsimp only

theorem execDscFabricWrite_good {pq : List Instr × Prop} {data : W64} {s : State} (hs : Good pq s) : GoodOut pq (execDscFabricWrite data s) := by
  unfold execDscFabricWrite
  repeat' first
    | with_reducible assumption
    | with_reducible refine goodOut_next ?_
    | (lift_lets; intro x; refine (fun (hx : Good pq x) => ?_) ?_; clear_value x)
    | (intro x; subst x)
    | with_reducible refine State.helloAll_good ?_
    | with_reducible refine State.plainWrite_good ?_
    | with_reducible refine State.redecideAll_good ?_
    | with_reducible refine State.storeIdentity_good ?_
    | with_reducible refine ite_good (fun _ => ?_) (fun _ => ?_)
    | with_reducible refine iteOut_good (fun _ => ?_) (fun _ => ?_)
    | with_reducible refine foldl_good (fun _ _ _ => ?_) ?_
    | with_reducible refine foldl_fst (fun _ _ _ => ?_) ?_
    | with_reducible refine foldl_snd (fun _ _ _ => ?_) ?_
    | subst x
    | with_reducible split
    | dsimp only

theorem execDscIdWrite_good {pq : List Instr × Prop} {data : W64} {s : State} (hs : Good pq s) : GoodOut pq (execDscIdWrite data s) := by
  unfold execDscIdWrite
  repeat' first
    | with_reducible assumption
    | with_reducible refine goodOut_next ?_
    | (lift_lets; intro x; refine (fun (hx : Good pq x) => ?_) ?_; clear_value x)
    | (intro x; subst x)
    | with_reducible refine State.identify_good ?_
    | with_reducible refine State.plainWrite_good ?_
    | with_reducible refine ite_good (fun _ => ?_) (fun _ => ?_)
    | with_reducible refine iteOut_good (fun _ => ?_) (fun _ => ?_)
    | with_reducible refine foldl_good (fun _ _ _ => ?_) ?_
    | with_reducible refine foldl_fst (fun _ _ _ => ?_) ?_
    | with_reducible refine foldl_snd (fun _ _ _ => ?_) ?_
    | subst x
    | with_reducible split
    | dsimp only

theorem State.loadIdentity_good {pq : List Instr × Prop} {s : State} (hs : Good pq s) : Good pq (State.loadIdentity s) := by
  unfold State.loadIdentity
  repeat' first
    | with_reducible assumption
    | with_reducible refine goodOut_next ?_
    | (lift_lets; intro x; refine (fun (hx : Good pq x) => ?_) ?_; clear_value x)
    | (intro x; subst x)
    | with_reducible refine State.helloAll_good ?_
    | with_reducible refine State.redecideAll_good ?_
    | with_reducible refine State.setReg_good ?_
    | with_reducible refine ite_good (fun _ => ?_) (fun _ => ?_)
    | with_reducible refine iteOut_good (fun _ => ?_) (fun _ => ?_)
    | with_reducible refine foldl_good (fun _ _ _ => ?_) ?_
    | with_reducible refine foldl_fst (fun _ _ _ => ?_) ?_
    | with_reducible refine foldl_snd (fun _ _ _ => ?_) ?_
    | subst x
    | with_reducible split
    | dsimp only

theorem State.countWide_good {pq : List Instr × Prop} {s : State} {d : Nat} {ctx : Nat} {fmt : Nat} {wide : Nat} {ev : Events} (hs : Good pq s) : Good pq (State.countWide s d ctx fmt wide ev) := by
  unfold State.countWide
  repeat' first
    | with_reducible assumption
    | with_reducible refine goodOut_next ?_
    | (lift_lets; intro x; refine (fun (hx : Good pq x) => ?_) ?_; clear_value x)
    | (intro x; subst x)
    | with_reducible refine State.countEvents_good ?_
    | with_reducible refine ite_good (fun _ => ?_) (fun _ => ?_)
    | with_reducible refine iteOut_good (fun _ => ?_) (fun _ => ?_)
    | with_reducible refine foldl_good (fun _ _ _ => ?_) ?_
    | with_reducible refine foldl_fst (fun _ _ _ => ?_) ?_
    | with_reducible refine foldl_snd (fun _ _ _ => ?_) ?_
    | subst x
    | with_reducible split
    | dsimp only

theorem State.storeWide_good {pq : List Instr × Prop} {s : State} {base : Nat} {wide : Nat} {place : Nat → Nat} {q : Nat} {codes : List Nat} {poison : Bool} (hs : Good pq s) : Good pq (State.storeWide s base wide place q codes poison) := by
  unfold State.storeWide
  repeat' first
    | with_reducible assumption
    | with_reducible refine goodOut_next ?_
    | (lift_lets; intro x; refine (fun (hx : Good pq x) => ?_) ?_; clear_value x)
    | (intro x; subst x)
    | with_reducible refine State.storeBytes_good ?_
    | with_reducible refine ite_good (fun _ => ?_) (fun _ => ?_)
    | with_reducible refine iteOut_good (fun _ => ?_) (fun _ => ?_)
    | with_reducible refine foldl_good (fun _ _ _ => ?_) ?_
    | with_reducible refine foldl_fst (fun _ _ _ => ?_) ?_
    | with_reducible refine foldl_snd (fun _ _ _ => ?_) ?_
    | subst x
    | with_reducible split
    | dsimp only

-- FOR State.opCheck
-- HAVE opCheck State.opCheck_good
-- HAVE =opCheck State.opCheck_good_eq
theorem State.opCheck_good {pq : List Instr × Prop} {s : State} {o : PortOp} (hs : Good pq s) : Good pq (State.opCheck s o).2 := by
  have h1 : Good pq (if o.rdev = s.self then (St.ok, s) else s.lookup o.rdev (decide (o.kind = 3) || o.narrow)).2 := by
    split
    · exact hs
    · exact State.lookup_good hs
  unfold State.opCheck
  generalize (if o.rdev = s.self then (St.ok, s) else s.lookup o.rdev (decide (o.kind = 3) || o.narrow)) = r at h1
  obtain ⟨st, s1⟩ := r
  dsimp only at h1 ⊢
  repeat' split
  all_goals first | exact hs | exact h1
theorem State.opCheck_good_eq {pq : List Instr × Prop} {s : State} {o : PortOp} {rr} (he : State.opCheck s o = rr) (hs : Good pq s) : Good pq rr.2 := he ▸ State.opCheck_good hs

theorem State.post_good {pq : List Instr × Prop} {s : State} {d : Nat} {ws : List W64} (hs : Good pq s) : Good pq (State.post s d ws) := by
  unfold State.post
  repeat' first
    | with_reducible assumption
    | with_reducible refine goodOut_next ?_
    | (lift_lets; intro x; refine (fun (hx : Good pq x) => ?_) ?_; clear_value x)
    | (intro x; subst x)
    | with_reducible refine State.inject_good ?_
    | with_reducible refine State.withNet_good _ ?_
    | with_reducible refine ite_good (fun _ => ?_) (fun _ => ?_)
    | with_reducible refine iteOut_good (fun _ => ?_) (fun _ => ?_)
    | with_reducible refine foldl_good (fun _ _ _ => ?_) ?_
    | with_reducible refine foldl_fst (fun _ _ _ => ?_) ?_
    | with_reducible refine foldl_snd (fun _ _ _ => ?_) ?_
    | subst x
    | with_reducible split
    | dsimp only

theorem State.claimSlot_good {pq : List Instr × Prop} (s : State) (d : Nat) (ctx : Nat) (o : Owner) (hs : Good pq s) : GoodOpt pq (fun r => r.2) (State.claimSlot s d ctx o) := by
  unfold State.claimSlot
  repeat' first
    | with_reducible assumption
    | with_reducible refine goodOpt_some ?_
    | with_reducible refine goodOpt_none
    | with_reducible refine goodOut_next ?_
    | (lift_lets; intro x; refine (fun (hx : Good pq x) => ?_) ?_; clear_value x)
    | (intro x; subst x)
    | with_reducible refine State.setSlot_good ?_
    | with_reducible refine iteOpt_good (fun _ => ?_) (fun _ => ?_)
    | with_reducible refine ite_good (fun _ => ?_) (fun _ => ?_)
    | with_reducible refine iteOut_good (fun _ => ?_) (fun _ => ?_)
    | with_reducible refine foldl_good (fun _ _ _ => ?_) ?_
    | with_reducible refine foldl_fst (fun _ _ _ => ?_) ?_
    | with_reducible refine foldl_snd (fun _ _ _ => ?_) ?_
    | subst x
    | with_reducible split
    | dsimp only

theorem State.claimSlot_good_eq {pq : List Instr × Prop} {s : State} {d : Nat} {ctx : Nat} {o : Owner} {rr} (he : State.claimSlot s d ctx o = some rr) (hs : Good pq s) : Good pq rr.2 := State.claimSlot_good s d ctx o hs rr he

theorem State.mapOp_good {pq : List Instr × Prop} {s : State} {num : Nat} {f : PortOp → PortOp} (hs : Good pq s) : Good pq (State.mapOp s num f) := by
  unfold State.mapOp
  repeat' first
    | with_reducible assumption
    | with_reducible refine goodOut_next ?_
    | (lift_lets; intro x; refine (fun (hx : Good pq x) => ?_) ?_; clear_value x)
    | (intro x; subst x)
    | with_reducible refine State.withNet_good _ ?_
    | with_reducible refine ite_good (fun _ => ?_) (fun _ => ?_)
    | with_reducible refine iteOut_good (fun _ => ?_) (fun _ => ?_)
    | with_reducible refine foldl_good (fun _ _ _ => ?_) ?_
    | with_reducible refine foldl_fst (fun _ _ _ => ?_) ?_
    | with_reducible refine foldl_snd (fun _ _ _ => ?_) ?_
    | subst x
    | with_reducible split
    | dsimp only

theorem State.formOne_good {pq : List Instr × Prop} (s : State) (o : PortOp) (hs : Good pq s) : GoodOpt pq (fun r => r) (State.formOne s o) := by
  unfold State.formOne
  repeat' first
    | with_reducible assumption
    | with_reducible refine goodOpt_some ?_
    | with_reducible refine goodOpt_none
    | with_reducible refine goodOut_next ?_
    | (lift_lets; intro x; refine (fun (hx : Good pq x) => ?_) ?_; clear_value x)
    | (intro x; subst x)
    | with_reducible refine State.charge_good ?_
    | with_reducible refine State.mapOp_good ?_
    | with_reducible refine State.post_good ?_
    | with_reducible refine State.claimSlot_good_eq (by with_reducible assumption) ?_
    | with_reducible refine iteOpt_good (fun _ => ?_) (fun _ => ?_)
    | with_reducible refine ite_good (fun _ => ?_) (fun _ => ?_)
    | with_reducible refine iteOut_good (fun _ => ?_) (fun _ => ?_)
    | with_reducible refine foldl_good (fun _ _ _ => ?_) ?_
    | with_reducible refine foldl_fst (fun _ _ _ => ?_) ?_
    | with_reducible refine foldl_snd (fun _ _ _ => ?_) ?_
    | subst x
    | with_reducible split
    | dsimp only

theorem State.formOne_good_eq {pq : List Instr × Prop} {s : State} {o : PortOp} {rr} (he : State.formOne s o = some rr) (hs : Good pq s) : Good pq rr := State.formOne_good s o hs rr he

-- FOR State.formMany
-- HAVE formMany State.formMany_good
theorem State.formMany_good {pq : List Instr × Prop} : ∀ {n : Nat} {s : State} {d : Nat}, Good pq s → Good pq (State.formMany n s d) := by
  intro n
  induction n with
  | zero => intro s d hs; exact hs
  | succ n ih =>
    intro s d hs
    unfold State.formMany
    split
    · split
      · exact ih (State.formOne_good_eq ‹_› hs)
      · exact hs
    · exact hs

theorem State.formAll_good {pq : List Instr × Prop} {s : State} {d : Nat} (hs : Good pq s) : Good pq (State.formAll s d) := by
  unfold State.formAll
  repeat' first
    | with_reducible assumption
    | with_reducible refine goodOut_next ?_
    | (lift_lets; intro x; refine (fun (hx : Good pq x) => ?_) ?_; clear_value x)
    | (intro x; subst x)
    | with_reducible refine State.formMany_good ?_
    | with_reducible refine ite_good (fun _ => ?_) (fun _ => ?_)
    | with_reducible refine iteOut_good (fun _ => ?_) (fun _ => ?_)
    | with_reducible refine foldl_good (fun _ _ _ => ?_) ?_
    | with_reducible refine foldl_fst (fun _ _ _ => ?_) ?_
    | with_reducible refine foldl_snd (fun _ _ _ => ?_) ?_
    | subst x
    | with_reducible split
    | dsimp only

theorem State.submitOp_good {pq : List Instr × Prop} {s : State} {group : Nat} {ctx : Nat} {words : List W64} (hs : Good pq s) : Good pq (State.submitOp s group ctx words).2 := by
  unfold State.submitOp
  repeat' first
    | with_reducible assumption
    | with_reducible refine goodOut_next ?_
    | (lift_lets; intro x; refine (fun (hx : Good pq x) => ?_) ?_; clear_value x)
    | (intro x; subst x)
    | with_reducible refine State.formAll_good ?_
    | with_reducible refine State.opCheck_good ?_
    | with_reducible refine State.withNet_good _ ?_
    | with_reducible refine State.opCheck_good_eq (by with_reducible assumption) ?_
    | with_reducible refine ite_good (fun _ => ?_) (fun _ => ?_)
    | with_reducible refine iteOut_good (fun _ => ?_) (fun _ => ?_)
    | with_reducible refine foldl_good (fun _ _ _ => ?_) ?_
    | with_reducible refine foldl_fst (fun _ _ _ => ?_) ?_
    | with_reducible refine foldl_snd (fun _ _ _ => ?_) ?_
    | subst x
    | with_reducible split
    | dsimp only

theorem State.submitOp_good_eq {pq : List Instr × Prop} {s : State} {group : Nat} {ctx : Nat} {words : List W64} {rr} (he : State.submitOp s group ctx words = rr) (hs : Good pq s) : Good pq rr.2 := he ▸ State.submitOp_good hs

theorem State.wakeRange_good {pq : List Instr × Prop} {s : State} {a : Nat} {n : Nat} (hs : Good pq s) : Good pq (State.wakeRange s a n) := by
  unfold State.wakeRange
  repeat' first
    | with_reducible assumption
    | with_reducible refine goodOut_next ?_
    | (lift_lets; intro x; refine (fun (hx : Good pq x) => ?_) ?_; clear_value x)
    | (intro x; subst x)
    | with_reducible refine State.wake_good ?_
    | with_reducible refine ite_good (fun _ => ?_) (fun _ => ?_)
    | with_reducible refine iteOut_good (fun _ => ?_) (fun _ => ?_)
    | with_reducible refine foldl_good (fun _ _ _ => ?_) ?_
    | with_reducible refine foldl_fst (fun _ _ _ => ?_) ?_
    | with_reducible refine foldl_snd (fun _ _ _ => ?_) ?_
    | subst x
    | with_reducible split
    | dsimp only

theorem State.atomicOp_good {pq : List Instr × Prop} {s : State} {l : Nat} {aop : Nat} {x : W64} {cmp : W64} (hs : Good pq s) : Good pq (State.atomicOp s l aop x cmp).2.2 := by
  unfold State.atomicOp
  repeat' first
    | with_reducible assumption
    | with_reducible refine goodOut_next ?_
    | (lift_lets; intro x; refine (fun (hx : Good pq x) => ?_) ?_; clear_value x)
    | (intro x; subst x)
    | with_reducible refine State.storeWords_good ?_
    | with_reducible refine State.wake_good ?_
    | with_reducible refine State.wakeRange_good ?_
    | with_reducible refine State.wordOp_good_eq (by with_reducible assumption) ?_
    | with_reducible refine ite_good (fun _ => ?_) (fun _ => ?_)
    | with_reducible refine iteOut_good (fun _ => ?_) (fun _ => ?_)
    | with_reducible refine foldl_good (fun _ _ _ => ?_) ?_
    | with_reducible refine foldl_fst (fun _ _ _ => ?_) ?_
    | with_reducible refine foldl_snd (fun _ _ _ => ?_) ?_
    | subst x
    | with_reducible split
    | dsimp only

theorem State.atomicOp_good_eq {pq : List Instr × Prop} {s : State} {l : Nat} {aop : Nat} {x : W64} {cmp : W64} {rr} (he : State.atomicOp s l aop x cmp = rr) (hs : Good pq s) : Good pq rr.2.2 := he ▸ State.atomicOp_good hs

theorem State.oldValue_good {pq : List Instr × Prop} {s : State} {v : Option W64} (hs : Good pq s) : Good pq (State.oldValue s v).2 := by
  unfold State.oldValue
  repeat' first
    | with_reducible assumption
    | with_reducible refine goodOut_next ?_
    | (lift_lets; intro x; refine (fun (hx : Good pq x) => ?_) ?_; clear_value x)
    | (intro x; subst x)
    | with_reducible refine State.draw_good ?_
    | with_reducible refine State.draw_good_eq (by with_reducible assumption) ?_
    | with_reducible refine ite_good (fun _ => ?_) (fun _ => ?_)
    | with_reducible refine iteOut_good (fun _ => ?_) (fun _ => ?_)
    | with_reducible refine foldl_good (fun _ _ _ => ?_) ?_
    | with_reducible refine foldl_fst (fun _ _ _ => ?_) ?_
    | with_reducible refine foldl_snd (fun _ _ _ => ?_) ?_
    | subst x
    | with_reducible split
    | dsimp only

theorem State.oldValue_good_eq {pq : List Instr × Prop} {s : State} {v : Option W64} {rr} (he : State.oldValue s v = rr) (hs : Good pq s) : Good pq rr.2 := he ▸ State.oldValue_good hs

theorem State.widenAll_good {pq : List Instr × Prop} {s : State} {d : Nat} {ctx : Nat} {base : Nat} {fmt : Nat} {wide : Nat} {n : Nat} {rd : Nat → Byte} {poison : Nat → Nat → Bool} (hs : Good pq s) : Good pq (State.widenAll s d ctx base fmt wide n rd poison) := by
  unfold State.widenAll
  repeat' first
    | with_reducible assumption
    | with_reducible refine goodOut_next ?_
    | (lift_lets; intro x; refine (fun (hx : Good pq x) => ?_) ?_; clear_value x)
    | (intro x; subst x)
    | with_reducible refine State.countWide_good ?_
    | with_reducible refine State.storeWide_good ?_
    | with_reducible refine ite_good (fun _ => ?_) (fun _ => ?_)
    | with_reducible refine iteOut_good (fun _ => ?_) (fun _ => ?_)
    | with_reducible refine foldl_good (fun _ _ _ => ?_) ?_
    | with_reducible refine foldl_fst (fun _ _ _ => ?_) ?_
    | with_reducible refine foldl_snd (fun _ _ _ => ?_) ?_
    | subst x
    | with_reducible split
    | dsimp only

theorem State.runLocal_good {pq : List Instr × Prop} {s : State} {o : PortOp} (hs : Good pq s) : Good pq (State.runLocal s o).2.2.2 := by
  unfold State.runLocal
  repeat' first
    | with_reducible assumption
    | with_reducible refine goodOut_next ?_
    | (lift_lets; intro x; refine (fun (hx : Good pq x) => ?_) ?_; clear_value x)
    | (intro x; subst x)
    | with_reducible refine State.atomicOp_good ?_
    | with_reducible refine State.charge_good ?_
    | with_reducible refine State.consume_good ?_
    | with_reducible refine State.moveBytes_good ?_
    | with_reducible refine State.oldValue_good ?_
    | with_reducible refine State.signal_good ?_
    | with_reducible refine State.underflow_good ?_
    | with_reducible refine State.wakeRange_good ?_
    | with_reducible refine State.widenAll_good ?_
    | with_reducible refine State.atomicOp_good_eq (by with_reducible assumption) ?_
    | with_reducible refine State.oldValue_good_eq (by with_reducible assumption) ?_
    | with_reducible refine State.signal_good_eq (by with_reducible assumption) ?_
    | with_reducible refine ite_good (fun _ => ?_) (fun _ => ?_)
    | with_reducible refine iteOut_good (fun _ => ?_) (fun _ => ?_)
    | with_reducible refine foldl_good (fun _ _ _ => ?_) ?_
    | with_reducible refine foldl_fst (fun _ _ _ => ?_) ?_
    | with_reducible refine foldl_snd (fun _ _ _ => ?_) ?_
    | subst x
    | with_reducible split
    | dsimp only

theorem State.runLocal_good_eq {pq : List Instr × Prop} {s : State} {o : PortOp} {rr} (he : State.runLocal s o = rr) (hs : Good pq s) : Good pq rr.2.2.2 := he ▸ State.runLocal_good hs

theorem State.endOp_good {pq : List Instr × Prop} {s : State} {o : PortOp} {st : Nat} {bytes : Nat} {old : W64} (hs : Good pq s) : Good pq (State.endOp s o st bytes old) := by
  unfold State.endOp
  repeat' first
    | with_reducible assumption
    | with_reducible refine goodOut_next ?_
    | (lift_lets; intro x; refine (fun (hx : Good pq x) => ?_) ?_; clear_value x)
    | (intro x; subst x)
    | with_reducible refine State.act_good ?_
    | with_reducible refine State.formAll_good ?_
    | with_reducible refine State.portRecord_good ?_
    | with_reducible refine State.record_good ?_
    | with_reducible refine State.withNet_good _ ?_
    | with_reducible refine State.act_good_eq (by with_reducible assumption) ?_
    | with_reducible refine ite_good (fun _ => ?_) (fun _ => ?_)
    | with_reducible refine iteOut_good (fun _ => ?_) (fun _ => ?_)
    | with_reducible refine foldl_good (fun _ _ _ => ?_) ?_
    | with_reducible refine foldl_fst (fun _ _ _ => ?_) ?_
    | with_reducible refine foldl_snd (fun _ _ _ => ?_) ?_
    | subst x
    | with_reducible split
    | dsimp only

theorem State.deny_good {pq : List Instr × Prop} {s : State} (hs : Good pq s) : Good pq (State.deny s) := by
  unfold State.deny
  repeat' first
    | with_reducible assumption
    | with_reducible refine goodOut_next ?_
    | (lift_lets; intro x; refine (fun (hx : Good pq x) => ?_) ?_; clear_value x)
    | (intro x; subst x)
    | with_reducible refine State.addFld_good ?_
    | with_reducible refine ite_good (fun _ => ?_) (fun _ => ?_)
    | with_reducible refine iteOut_good (fun _ => ?_) (fun _ => ?_)
    | with_reducible refine foldl_good (fun _ _ _ => ?_) ?_
    | with_reducible refine foldl_fst (fun _ _ _ => ?_) ?_
    | with_reducible refine foldl_snd (fun _ _ _ => ?_) ?_
    | subst x
    | with_reducible split
    | dsimp only

theorem State.takeSunk_good {pq : List Instr × Prop} (s : State) (d : Nat) (p : List W64 → Bool) (hs : Good pq s) : GoodOpt pq (fun r => r.2) (State.takeSunk s d p) := by
  unfold State.takeSunk
  repeat' first
    | with_reducible assumption
    | with_reducible refine goodOpt_some ?_
    | with_reducible refine goodOpt_none
    | with_reducible refine goodOut_next ?_
    | (lift_lets; intro x; refine (fun (hx : Good pq x) => ?_) ?_; clear_value x)
    | (intro x; subst x)
    | with_reducible refine State.withNet_good _ ?_
    | with_reducible refine iteOpt_good (fun _ => ?_) (fun _ => ?_)
    | with_reducible refine ite_good (fun _ => ?_) (fun _ => ?_)
    | with_reducible refine iteOut_good (fun _ => ?_) (fun _ => ?_)
    | with_reducible refine foldl_good (fun _ _ _ => ?_) ?_
    | with_reducible refine foldl_fst (fun _ _ _ => ?_) ?_
    | with_reducible refine foldl_snd (fun _ _ _ => ?_) ?_
    | subst x
    | with_reducible split
    | dsimp only

theorem State.takeSunk_good_eq {pq : List Instr × Prop} {s : State} {d : Nat} {p : List W64 → Bool} {rr} (he : State.takeSunk s d p = some rr) (hs : Good pq s) : Good pq rr.2 := State.takeSunk_good s d p hs rr he

theorem State.reply_good {pq : List Instr × Prop} {s : State} {d : Nat} {dst : Nat} {req : List W64} {op : Nat} {st : Nat} {len : Nat} {payload : List W64} (hs : Good pq s) : Good pq (State.reply s d dst req op st len payload) := by
  unfold State.reply
  repeat' first
    | with_reducible assumption
    | with_reducible refine goodOut_next ?_
    | (lift_lets; intro x; refine (fun (hx : Good pq x) => ?_) ?_; clear_value x)
    | (intro x; subst x)
    | with_reducible refine State.post_good ?_
    | with_reducible refine ite_good (fun _ => ?_) (fun _ => ?_)
    | with_reducible refine iteOut_good (fun _ => ?_) (fun _ => ?_)
    | with_reducible refine foldl_good (fun _ _ _ => ?_) ?_
    | with_reducible refine foldl_fst (fun _ _ _ => ?_) ?_
    | with_reducible refine foldl_snd (fun _ _ _ => ?_) ?_
    | subst x
    | with_reducible split
    | dsimp only

theorem State.ack_good {pq : List Instr × Prop} {s : State} {d : Nat} {req : List W64} {st : Nat} (hs : Good pq s) : Good pq (State.ack s d req st) := by
  unfold State.ack
  repeat' first
    | with_reducible assumption
    | with_reducible refine goodOut_next ?_
    | (lift_lets; intro x; refine (fun (hx : Good pq x) => ?_) ?_; clear_value x)
    | (intro x; subst x)
    | with_reducible refine State.reply_good ?_
    | with_reducible refine ite_good (fun _ => ?_) (fun _ => ?_)
    | with_reducible refine iteOut_good (fun _ => ?_) (fun _ => ?_)
    | with_reducible refine foldl_good (fun _ _ _ => ?_) ?_
    | with_reducible refine foldl_fst (fun _ _ _ => ?_) ?_
    | with_reducible refine foldl_snd (fun _ _ _ => ?_) ?_
    | subst x
    | with_reducible split
    | dsimp only

theorem State.setNarrow_good {pq : List Instr × Prop} {s : State} {src : Nat} {base : Nat} {fmt : Nat} {wide : Nat} {m : KMap Byte} (hs : Good pq s) : Good pq (State.setNarrow s src base fmt wide m) := by
  unfold State.setNarrow
  repeat' first
    | with_reducible assumption
    | with_reducible refine goodOut_next ?_
    | (lift_lets; intro x; refine (fun (hx : Good pq x) => ?_) ?_; clear_value x)
    | (intro x; subst x)
    | with_reducible refine State.withNet_good _ ?_
    | with_reducible refine ite_good (fun _ => ?_) (fun _ => ?_)
    | with_reducible refine iteOut_good (fun _ => ?_) (fun _ => ?_)
    | with_reducible refine foldl_good (fun _ _ _ => ?_) ?_
    | with_reducible refine foldl_fst (fun _ _ _ => ?_) ?_
    | with_reducible refine foldl_snd (fun _ _ _ => ?_) ?_
    | subst x
    | with_reducible split
    | dsimp only

theorem State.landNarrow_good {pq : List Instr × Prop} {s : State} {d : Nat} {w : Import} {ws : List W64} (hs : Good pq s) : Good pq (State.landNarrow s d w ws) := by
  unfold State.landNarrow
  repeat' first
    | with_reducible assumption
    | with_reducible refine goodOut_next ?_
    | (lift_lets; intro x; refine (fun (hx : Good pq x) => ?_) ?_; clear_value x)
    | (intro x; subst x)
    | with_reducible refine State.countWide_good ?_
    | with_reducible refine State.setNarrow_good ?_
    | with_reducible refine State.storeWide_good ?_
    | with_reducible refine ite_good (fun _ => ?_) (fun _ => ?_)
    | with_reducible refine iteOut_good (fun _ => ?_) (fun _ => ?_)
    | with_reducible refine foldl_good (fun _ _ _ => ?_) ?_
    | with_reducible refine foldl_fst (fun _ _ _ => ?_) ?_
    | with_reducible refine foldl_snd (fun _ _ _ => ?_) ?_
    | subst x
    | with_reducible split
    | dsimp only

theorem execPutRecv_good {pq : List Instr × Prop} {d : Met Die} {s0 : State} (hs : Good pq s0) : GoodOut pq (execPutRecv d s0) := by
  unfold execPutRecv
  repeat' first
    | with_reducible assumption
    | with_reducible refine goodOut_next ?_
    | (lift_lets; intro x; refine (fun (hx : Good pq x) => ?_) ?_; clear_value x)
    | (intro x; subst x)
    | with_reducible refine State.ack_good ?_
    | with_reducible refine State.charge_good ?_
    | with_reducible refine State.deny_good ?_
    | with_reducible refine State.landNarrow_good ?_
    | with_reducible refine State.meet_good ?_
    | with_reducible refine State.storeMarked_good ?_
    | with_reducible refine State.wakeRange_good ?_
    | with_reducible refine State.takeSunk_good_eq (by with_reducible assumption) ?_
    | with_reducible refine ite_good (fun _ => ?_) (fun _ => ?_)
    | with_reducible refine iteOut_good (fun _ => ?_) (fun _ => ?_)
    | with_reducible refine foldl_good (fun _ _ _ => ?_) ?_
    | with_reducible refine foldl_fst (fun _ _ _ => ?_) ?_
    | with_reducible refine foldl_snd (fun _ _ _ => ?_) ?_
    | subst x
    | with_reducible split
    | dsimp only

theorem execGetRecv_good {pq : List Instr × Prop} {d : Met Die} {s0 : State} (hs : Good pq s0) : GoodOut pq (execGetRecv d s0) := by
  unfold execGetRecv
  repeat' first
    | with_reducible assumption
    | with_reducible refine goodOut_next ?_
    | (lift_lets; intro x; refine (fun (hx : Good pq x) => ?_) ?_; clear_value x)
    | (intro x; subst x)
    | with_reducible refine State.charge_good ?_
    | with_reducible refine State.deny_good ?_
    | with_reducible refine State.meet_good ?_
    | with_reducible refine State.reply_good ?_
    | with_reducible refine State.takeSunk_good_eq (by with_reducible assumption) ?_
    | with_reducible refine ite_good (fun _ => ?_) (fun _ => ?_)
    | with_reducible refine iteOut_good (fun _ => ?_) (fun _ => ?_)
    | with_reducible refine foldl_good (fun _ _ _ => ?_) ?_
    | with_reducible refine foldl_fst (fun _ _ _ => ?_) ?_
    | with_reducible refine foldl_snd (fun _ _ _ => ?_) ?_
    | subst x
    | with_reducible split
    | dsimp only

theorem execGet3Recv_good {pq : List Instr × Prop} {d : Met Die} {s0 : State} (hs : Good pq s0) : GoodOut pq (execGet3Recv d s0) := by
  unfold execGet3Recv
  repeat' first
    | with_reducible assumption
    | with_reducible refine goodOut_next ?_
    | (lift_lets; intro x; refine (fun (hx : Good pq x) => ?_) ?_; clear_value x)
    | (intro x; subst x)
    | with_reducible refine State.ack_good ?_
    | with_reducible refine State.charge_good ?_
    | with_reducible refine State.deny_good ?_
    | with_reducible refine State.lookup_good ?_
    | with_reducible refine State.meet_good ?_
    | with_reducible refine State.post_good ?_
    | with_reducible refine State.lookup_good_eq (by with_reducible assumption) ?_
    | with_reducible refine State.takeSunk_good_eq (by with_reducible assumption) ?_
    | with_reducible refine ite_good (fun _ => ?_) (fun _ => ?_)
    | with_reducible refine iteOut_good (fun _ => ?_) (fun _ => ?_)
    | with_reducible refine foldl_good (fun _ _ _ => ?_) ?_
    | with_reducible refine foldl_fst (fun _ _ _ => ?_) ?_
    | with_reducible refine foldl_snd (fun _ _ _ => ?_) ?_
    | subst x
    | with_reducible split
    | dsimp only

theorem execData3Recv_good {pq : List Instr × Prop} {d : Met Die} {s0 : State} (hs : Good pq s0) : GoodOut pq (execData3Recv d s0) := by
  unfold execData3Recv
  repeat' first
    | with_reducible assumption
    | with_reducible refine goodOut_next ?_
    | (lift_lets; intro x; refine (fun (hx : Good pq x) => ?_) ?_; clear_value x)
    | (intro x; subst x)
    | with_reducible refine State.ack_good ?_
    | with_reducible refine State.charge_good ?_
    | with_reducible refine State.deny_good ?_
    | with_reducible refine State.meet_good ?_
    | with_reducible refine State.reply_good ?_
    | with_reducible refine State.storeMarked_good ?_
    | with_reducible refine State.wakeRange_good ?_
    | with_reducible refine State.takeSunk_good_eq (by with_reducible assumption) ?_
    | with_reducible refine ite_good (fun _ => ?_) (fun _ => ?_)
    | with_reducible refine iteOut_good (fun _ => ?_) (fun _ => ?_)
    | with_reducible refine foldl_good (fun _ _ _ => ?_) ?_
    | with_reducible refine foldl_fst (fun _ _ _ => ?_) ?_
    | with_reducible refine foldl_snd (fun _ _ _ => ?_) ?_
    | subst x
    | with_reducible split
    | dsimp only

theorem execAtomicRecv_good {pq : List Instr × Prop} {d : Met Die} {s0 : State} (hs : Good pq s0) : GoodOut pq (execAtomicRecv d s0) := by
  unfold execAtomicRecv
  repeat' first
    | with_reducible assumption
    | with_reducible refine goodOut_next ?_
    | (lift_lets; intro x; refine (fun (hx : Good pq x) => ?_) ?_; clear_value x)
    | (intro x; subst x)
    | with_reducible refine State.ack_good ?_
    | with_reducible refine State.atomicOp_good ?_
    | with_reducible refine State.charge_good ?_
    | with_reducible refine State.deny_good ?_
    | with_reducible refine State.meet_good ?_
    | with_reducible refine State.oldValue_good ?_
    | with_reducible refine State.reply_good ?_
    | with_reducible refine State.underflow_good ?_
    | with_reducible refine State.atomicOp_good_eq (by with_reducible assumption) ?_
    | with_reducible refine State.oldValue_good_eq (by with_reducible assumption) ?_
    | with_reducible refine State.takeSunk_good_eq (by with_reducible assumption) ?_
    | with_reducible refine ite_good (fun _ => ?_) (fun _ => ?_)
    | with_reducible refine iteOut_good (fun _ => ?_) (fun _ => ?_)
    | with_reducible refine foldl_good (fun _ _ _ => ?_) ?_
    | with_reducible refine foldl_fst (fun _ _ _ => ?_) ?_
    | with_reducible refine foldl_snd (fun _ _ _ => ?_) ?_
    | subst x
    | with_reducible split
    | dsimp only

theorem execSignalRecv_good {pq : List Instr × Prop} {d : Die} {s : State} (hs : Good pq s) : GoodOut pq (execSignalRecv d s) := by
  unfold execSignalRecv
  repeat' first
    | with_reducible assumption
    | with_reducible refine goodOut_next ?_
    | (lift_lets; intro x; refine (fun (hx : Good pq x) => ?_) ?_; clear_value x)
    | (intro x; subst x)
    | with_reducible refine State.ack_good ?_
    | with_reducible refine State.deny_good ?_
    | with_reducible refine State.signal_good ?_
    | with_reducible refine State.signal_good_eq (by with_reducible assumption) ?_
    | with_reducible refine State.takeSunk_good_eq (by with_reducible assumption) ?_
    | with_reducible refine ite_good (fun _ => ?_) (fun _ => ?_)
    | with_reducible refine iteOut_good (fun _ => ?_) (fun _ => ?_)
    | with_reducible refine foldl_good (fun _ _ _ => ?_) ?_
    | with_reducible refine foldl_fst (fun _ _ _ => ?_) ?_
    | with_reducible refine foldl_snd (fun _ _ _ => ?_) ?_
    | subst x
    | with_reducible split
    | dsimp only

theorem execRwinDenyRead_good {pq : List Instr × Prop} {s : State} (hs : Good pq s) : GoodOut pq (execRwinDenyRead s) := by
  unfold execRwinDenyRead
  repeat' first
    | with_reducible assumption
    | with_reducible refine goodOut_next ?_
    | (lift_lets; intro x; refine (fun (hx : Good pq x) => ?_) ?_; clear_value x)
    | (intro x; subst x)
    | with_reducible refine State.readClear_good ?_
    | with_reducible refine ite_good (fun _ => ?_) (fun _ => ?_)
    | with_reducible refine iteOut_good (fun _ => ?_) (fun _ => ?_)
    | with_reducible refine foldl_good (fun _ _ _ => ?_) ?_
    | with_reducible refine foldl_fst (fun _ _ _ => ?_) ?_
    | with_reducible refine foldl_snd (fun _ _ _ => ?_) ?_
    | subst x
    | with_reducible split
    | dsimp only

theorem State.answered_good {pq : List Instr × Prop} {s : State} {num : Nat} {off : Nat} {len : Nat} {ws : List W64} (hs : Good pq s) : Good pq (State.answered s num off len ws) := by
  unfold State.answered
  repeat' first
    | with_reducible assumption
    | with_reducible refine goodOut_next ?_
    | (lift_lets; intro x; refine (fun (hx : Good pq x) => ?_) ?_; clear_value x)
    | (intro x; subst x)
    | with_reducible refine State.charge_good ?_
    | with_reducible refine State.consume_good ?_
    | with_reducible refine State.mapOp_good ?_
    | with_reducible refine State.storeMarked_good ?_
    | with_reducible refine State.wakeRange_good ?_
    | with_reducible refine ite_good (fun _ => ?_) (fun _ => ?_)
    | with_reducible refine iteOut_good (fun _ => ?_) (fun _ => ?_)
    | with_reducible refine foldl_good (fun _ _ _ => ?_) ?_
    | with_reducible refine foldl_fst (fun _ _ _ => ?_) ?_
    | with_reducible refine foldl_snd (fun _ _ _ => ?_) ?_
    | subst x
    | with_reducible split
    | dsimp only

theorem State.timedOut_good {pq : List Instr × Prop} {s : State} {num : Nat} (hs : Good pq s) : Good pq (State.timedOut s num) := by
  unfold State.timedOut
  repeat' first
    | with_reducible assumption
    | with_reducible refine goodOut_next ?_
    | (lift_lets; intro x; refine (fun (hx : Good pq x) => ?_) ?_; clear_value x)
    | (intro x; subst x)
    | with_reducible refine State.addFld_good ?_
    | with_reducible refine State.mapOp_good ?_
    | with_reducible refine ite_good (fun _ => ?_) (fun _ => ?_)
    | with_reducible refine iteOut_good (fun _ => ?_) (fun _ => ?_)
    | with_reducible refine foldl_good (fun _ _ _ => ?_) ?_
    | with_reducible refine foldl_fst (fun _ _ _ => ?_) ?_
    | with_reducible refine foldl_snd (fun _ _ _ => ?_) ?_
    | subst x
    | with_reducible split
    | dsimp only

theorem State.slPost_good {pq : List Instr × Prop} {s : State} {ol : Nat} {m : OutMsg} (hs : Good pq s) : Good pq (State.slPost s ol m) := by
  unfold State.slPost
  repeat' first
    | with_reducible assumption
    | with_reducible refine goodOut_next ?_
    | (lift_lets; intro x; refine (fun (hx : Good pq x) => ?_) ?_; clear_value x)
    | (intro x; subst x)
    | with_reducible refine State.slSend_good ?_
    | with_reducible refine ite_good (fun _ => ?_) (fun _ => ?_)
    | with_reducible refine iteOut_good (fun _ => ?_) (fun _ => ?_)
    | with_reducible refine foldl_good (fun _ _ _ => ?_) ?_
    | with_reducible refine foldl_fst (fun _ _ _ => ?_) ?_
    | with_reducible refine foldl_snd (fun _ _ _ => ?_) ?_
    | subst x
    | with_reducible split
    | dsimp only

theorem State.copyPayload_good {pq : List Instr × Prop} {s : State} {ol : Nat} {m : OutMsg} (hs : Good pq s) : Good pq (State.copyPayload s ol m) := by
  unfold State.copyPayload
  repeat' first
    | with_reducible assumption
    | with_reducible refine goodOut_next ?_
    | (lift_lets; intro x; refine (fun (hx : Good pq x) => ?_) ?_; clear_value x)
    | (intro x; subst x)
    | with_reducible refine State.charge_good ?_
    | with_reducible refine State.moveBytes_good ?_
    | with_reducible refine State.wakeRange_good ?_
    | with_reducible refine ite_good (fun _ => ?_) (fun _ => ?_)
    | with_reducible refine iteOut_good (fun _ => ?_) (fun _ => ?_)
    | with_reducible refine foldl_good (fun _ _ _ => ?_) ?_
    | with_reducible refine foldl_fst (fun _ _ _ => ?_) ?_
    | with_reducible refine foldl_snd (fun _ _ _ => ?_) ?_
    | subst x
    | with_reducible split
    | dsimp only

theorem State.putPayload_good {pq : List Instr × Prop} {s : State} {ol : Nat} {m : OutMsg} (hs : Good pq s) : Good pq (State.putPayload s ol m) := by
  unfold State.putPayload
  repeat' first
    | with_reducible assumption
    | with_reducible refine goodOut_next ?_
    | (lift_lets; intro x; refine (fun (hx : Good pq x) => ?_) ?_; clear_value x)
    | (intro x; subst x)
    | with_reducible refine State.draw_good ?_
    | with_reducible refine State.submitOp_good ?_
    | with_reducible refine State.draw_good_eq (by with_reducible assumption) ?_
    | with_reducible refine State.submitOp_good_eq (by with_reducible assumption) ?_
    | with_reducible refine ite_good (fun _ => ?_) (fun _ => ?_)
    | with_reducible refine iteOut_good (fun _ => ?_) (fun _ => ?_)
    | with_reducible refine foldl_good (fun _ _ _ => ?_) ?_
    | with_reducible refine foldl_fst (fun _ _ _ => ?_) ?_
    | with_reducible refine foldl_snd (fun _ _ _ => ?_) ?_
    | subst x
    | with_reducible split
    | dsimp only

theorem State.pushLink_good {pq : List Instr × Prop} {s : State} {ol : Nat} {ws : List W64} (hs : Good pq s) : Good pq (State.pushLink s ol ws) := by
  unfold State.pushLink
  repeat' first
    | with_reducible assumption
    | with_reducible refine goodOut_next ?_
    | (lift_lets; intro x; refine (fun (hx : Good pq x) => ?_) ?_; clear_value x)
    | (intro x; subst x)
    | with_reducible refine State.putPayload_good ?_
    | with_reducible refine State.setOutq_good ?_
    | with_reducible refine State.wrapFld_good ?_
    | with_reducible refine ite_good (fun _ => ?_) (fun _ => ?_)
    | with_reducible refine iteOut_good (fun _ => ?_) (fun _ => ?_)
    | with_reducible refine foldl_good (fun _ _ _ => ?_) ?_
    | with_reducible refine foldl_fst (fun _ _ _ => ?_) ?_
    | with_reducible refine foldl_snd (fun _ _ _ => ?_) ?_
    | subst x
    | with_reducible split
    | dsimp only

theorem State.dropMarks_good {pq : List Instr × Prop} {s : State} {qn : Nat} (hs : Good pq s) : Good pq (State.dropMarks s qn) := by
  unfold State.dropMarks
  repeat' first
    | with_reducible assumption
    | with_reducible refine goodOut_next ?_
    | (lift_lets; intro x; refine (fun (hx : Good pq x) => ?_) ?_; clear_value x)
    | (intro x; subst x)
    | with_reducible refine State.setInq_good ?_
    | with_reducible refine State.wrapFld_good ?_
    | with_reducible refine ite_good (fun _ => ?_) (fun _ => ?_)
    | with_reducible refine iteOut_good (fun _ => ?_) (fun _ => ?_)
    | with_reducible refine foldl_good (fun _ _ _ => ?_) ?_
    | with_reducible refine foldl_fst (fun _ _ _ => ?_) ?_
    | with_reducible refine foldl_snd (fun _ _ _ => ?_) ?_
    | subst x
    | with_reducible split
    | dsimp only

theorem State.linkStep_good {pq : List Instr × Prop} (s : State) (c : Nat) (rd : Nat) (why : Why) (hs : Good pq s) : GoodOpt pq (fun r => r) (State.linkStep s c rd why) := by
  unfold State.linkStep
  repeat' first
    | with_reducible assumption
    | with_reducible refine goodOpt_some ?_
    | with_reducible refine goodOpt_none
    | with_reducible refine goodOut_next ?_
    | (lift_lets; intro x; refine (fun (hx : Good pq x) => ?_) ?_; clear_value x)
    | (intro x; subst x)
    | with_reducible refine State.pushLink_good ?_
    | with_reducible refine State.retSt_good ?_
    | with_reducible refine State.setInq_good ?_
    | with_reducible refine State.setScratchWords_good ?_
    | with_reducible refine iteOpt_good (fun _ => ?_) (fun _ => ?_)
    | with_reducible refine ite_good (fun _ => ?_) (fun _ => ?_)
    | with_reducible refine iteOut_good (fun _ => ?_) (fun _ => ?_)
    | with_reducible refine foldl_good (fun _ _ _ => ?_) ?_
    | with_reducible refine foldl_fst (fun _ _ _ => ?_) ?_
    | with_reducible refine foldl_snd (fun _ _ _ => ?_) ?_
    | subst x
    | with_reducible split
    | dsimp only

theorem State.linkStep_good_eq {pq : List Instr × Prop} {s : State} {c : Nat} {rd : Nat} {why : Why} {rr} (he : State.linkStep s c rd why = some rr) (hs : Good pq s) : Good pq rr := State.linkStep_good s c rd why hs rr he

theorem State.wakeLinks_good {pq : List Instr × Prop} {s : State} (hs : Good pq s) : Good pq (State.wakeLinks s) := by
  unfold State.wakeLinks
  repeat' first
    | with_reducible assumption
    | with_reducible refine goodOut_next ?_
    | (lift_lets; intro x; refine (fun (hx : Good pq x) => ?_) ?_; clear_value x)
    | (intro x; subst x)
    | with_reducible refine State.unwait_good ?_
    | with_reducible refine State.linkStep_good_eq (by with_reducible assumption) ?_
    | with_reducible refine ite_good (fun _ => ?_) (fun _ => ?_)
    | with_reducible refine iteOut_good (fun _ => ?_) (fun _ => ?_)
    | with_reducible refine foldl_good (fun _ _ _ => ?_) ?_
    | with_reducible refine foldl_fst (fun _ _ _ => ?_) ?_
    | with_reducible refine foldl_snd (fun _ _ _ => ?_) ?_
    | subst x
    | with_reducible split
    | dsimp only

theorem State.linkRun_good {pq : List Instr × Prop} {s : State} {c : Nat} {rd : Nat} {nb : Bool} {st : Nat} {why : Why} (hs : Good pq s) : Good pq (State.linkRun s c rd nb st why) := by
  unfold State.linkRun
  repeat' first
    | with_reducible assumption
    | with_reducible refine goodOut_next ?_
    | (lift_lets; intro x; refine (fun (hx : Good pq x) => ?_) ?_; clear_value x)
    | (intro x; subst x)
    | with_reducible refine State.retSt_good ?_
    | with_reducible refine State.wait_good ?_
    | with_reducible refine State.linkStep_good_eq (by with_reducible assumption) ?_
    | with_reducible refine ite_good (fun _ => ?_) (fun _ => ?_)
    | with_reducible refine iteOut_good (fun _ => ?_) (fun _ => ?_)
    | with_reducible refine foldl_good (fun _ _ _ => ?_) ?_
    | with_reducible refine foldl_fst (fun _ _ _ => ?_) ?_
    | with_reducible refine foldl_snd (fun _ _ _ => ?_) ?_
    | subst x
    | with_reducible split
    | dsimp only

theorem execQpush_good {pq : List Instr × Prop} {c : ClusterNo} {nb : Bool} {rd : Gpr} {rs1 : Gpr} {rs2 : Gpr} {s : State} (hs : Good pq s) : GoodOut pq (execQpush c nb rd rs1 rs2 s) := by
  unfold execQpush
  repeat' first
    | with_reducible assumption
    | with_reducible refine goodOut_next ?_
    | (lift_lets; intro x; refine (fun (hx : Good pq x) => ?_) ?_; clear_value x)
    | (intro x; subst x)
    | with_reducible refine State.linkRun_good ?_
    | with_reducible refine State.newWork_good ?_ ?_
    | with_reducible refine State.retSt_good ?_
    | with_reducible refine ite_good (fun _ => ?_) (fun _ => ?_)
    | with_reducible refine iteOut_good (fun _ => ?_) (fun _ => ?_)
    | with_reducible refine foldl_good (fun _ _ _ => ?_) ?_
    | with_reducible refine foldl_fst (fun _ _ _ => ?_) ?_
    | with_reducible refine foldl_snd (fun _ _ _ => ?_) ?_
    | subst x
    | with_reducible split
    | dsimp only

theorem execQpop_good {pq : List Instr × Prop} {c : ClusterNo} {nb : Bool} {rd : Gpr} {rs1 : Gpr} {rs2 : Gpr} {s : State} (hs : Good pq s) : GoodOut pq (execQpop c nb rd rs1 rs2 s) := by
  unfold execQpop
  repeat' first
    | with_reducible assumption
    | with_reducible refine goodOut_next ?_
    | (lift_lets; intro x; refine (fun (hx : Good pq x) => ?_) ?_; clear_value x)
    | (intro x; subst x)
    | with_reducible refine State.linkRun_good ?_
    | with_reducible refine State.retSt_good ?_
    | with_reducible refine ite_good (fun _ => ?_) (fun _ => ?_)
    | with_reducible refine iteOut_good (fun _ => ?_) (fun _ => ?_)
    | with_reducible refine foldl_good (fun _ _ _ => ?_) ?_
    | with_reducible refine foldl_fst (fun _ _ _ => ?_) ?_
    | with_reducible refine foldl_snd (fun _ _ _ => ?_) ?_
    | subst x
    | with_reducible split
    | dsimp only

theorem execQdone_good {pq : List Instr × Prop} {c : ClusterNo} {rd : Gpr} {rs1 : Gpr} {s : State} (hs : Good pq s) : GoodOut pq (execQdone c rd rs1 s) := by
  unfold execQdone
  repeat' first
    | with_reducible assumption
    | with_reducible refine goodOut_next ?_
    | (lift_lets; intro x; refine (fun (hx : Good pq x) => ?_) ?_; clear_value x)
    | (intro x; subst x)
    | with_reducible refine State.dropMarks_good ?_
    | with_reducible refine State.retSt_good ?_
    | with_reducible refine State.setInq_good ?_
    | with_reducible refine State.wrapFld_good ?_
    | with_reducible refine ite_good (fun _ => ?_) (fun _ => ?_)
    | with_reducible refine iteOut_good (fun _ => ?_) (fun _ => ?_)
    | with_reducible refine foldl_good (fun _ _ _ => ?_) ?_
    | with_reducible refine foldl_fst (fun _ _ _ => ?_) ?_
    | with_reducible refine foldl_snd (fun _ _ _ => ?_) ?_
    | subst x
    | with_reducible split
    | dsimp only

theorem execVacq_good {pq : List Instr × Prop} {c : ClusterNo} {rd : Gpr} {rs1 : Gpr} {rs2 : Gpr} {s : State} (hs : Good pq s) : GoodOut pq (execVacq c rd rs1 rs2 s) := by
  unfold execVacq
  repeat' first
    | with_reducible assumption
    | with_reducible refine goodOut_next ?_
    | (lift_lets; intro x; refine (fun (hx : Good pq x) => ?_) ?_; clear_value x)
    | (intro x; subst x)
    | with_reducible refine State.newWork_good ?_ ?_
    | with_reducible refine State.retSt_good ?_
    | with_reducible refine State.setScratchWords_good ?_
    | with_reducible refine State.setVs_good ?_
    | with_reducible refine State.vtNote_good ?_
    | with_reducible refine ite_good (fun _ => ?_) (fun _ => ?_)
    | with_reducible refine iteOut_good (fun _ => ?_) (fun _ => ?_)
    | with_reducible refine foldl_good (fun _ _ _ => ?_) ?_
    | with_reducible refine foldl_fst (fun _ _ _ => ?_) ?_
    | with_reducible refine foldl_snd (fun _ _ _ => ?_) ?_
    | subst x
    | with_reducible split
    | dsimp only

theorem execVrel_good {pq : List Instr × Prop} {c : ClusterNo} {rd : Gpr} {rs1 : Gpr} {rs2 : Gpr} {s : State} (hs : Good pq s) : GoodOut pq (execVrel c rd rs1 rs2 s) := by
  unfold execVrel
  repeat' first
    | with_reducible assumption
    | with_reducible refine goodOut_next ?_
    | (lift_lets; intro x; refine (fun (hx : Good pq x) => ?_) ?_; clear_value x)
    | (intro x; subst x)
    | with_reducible refine State.retSt_good ?_
    | with_reducible refine State.setErr_good ?_
    | with_reducible refine State.setVs_good ?_
    | with_reducible refine State.vtNote_good ?_
    | with_reducible refine ite_good (fun _ => ?_) (fun _ => ?_)
    | with_reducible refine iteOut_good (fun _ => ?_) (fun _ => ?_)
    | with_reducible refine foldl_good (fun _ _ _ => ?_) ?_
    | with_reducible refine foldl_fst (fun _ _ _ => ?_) ?_
    | with_reducible refine foldl_snd (fun _ _ _ => ?_) ?_
    | subst x
    | with_reducible split
    | dsimp only

theorem State.setFlight_good {pq : List Instr × Prop} {s : State} {l : List Flight} (hs : Good pq s) : Good pq (State.setFlight s l) := by
  unfold State.setFlight
  repeat' first
    | with_reducible assumption
    | with_reducible refine goodOut_next ?_
    | (lift_lets; intro x; refine (fun (hx : Good pq x) => ?_) ?_; clear_value x)
    | (intro x; subst x)
    | with_reducible refine State.withStg_good _ ?_
    | with_reducible refine ite_good (fun _ => ?_) (fun _ => ?_)
    | with_reducible refine iteOut_good (fun _ => ?_) (fun _ => ?_)
    | with_reducible refine foldl_good (fun _ _ _ => ?_) ?_
    | with_reducible refine foldl_fst (fun _ _ _ => ?_) ?_
    | with_reducible refine foldl_snd (fun _ _ _ => ?_) ?_
    | subst x
    | with_reducible split
    | dsimp only

theorem State.fbeg_good {pq : List Instr × Prop} {s : State} {ctx : Nat} {id : W32} (hs : Good pq s) : Good pq (State.fbeg s ctx id).2 := by
  unfold State.fbeg
  repeat' first
    | with_reducible assumption
    | with_reducible refine goodOut_next ?_
    | (lift_lets; intro x; refine (fun (hx : Good pq x) => ?_) ?_; clear_value x)
    | (intro x; subst x)
    | with_reducible refine State.setFlight_good ?_
    | with_reducible refine ite_good (fun _ => ?_) (fun _ => ?_)
    | with_reducible refine iteOut_good (fun _ => ?_) (fun _ => ?_)
    | with_reducible refine foldl_good (fun _ _ _ => ?_) ?_
    | with_reducible refine foldl_fst (fun _ _ _ => ?_) ?_
    | with_reducible refine foldl_snd (fun _ _ _ => ?_) ?_
    | subst x
    | with_reducible split
    | dsimp only

theorem State.fbeg_good_eq {pq : List Instr × Prop} {s : State} {ctx : Nat} {id : W32} {rr} (he : State.fbeg s ctx id = rr) (hs : Good pq s) : Good pq rr.2 := he ▸ State.fbeg_good hs

theorem State.fend_good {pq : List Instr × Prop} {s : State} {ctx : Nat} {id : W32} (hs : Good pq s) : Good pq (State.fend s ctx id).2 := by
  unfold State.fend
  repeat' first
    | with_reducible assumption
    | with_reducible refine goodOut_next ?_
    | (lift_lets; intro x; refine (fun (hx : Good pq x) => ?_) ?_; clear_value x)
    | (intro x; subst x)
    | with_reducible refine State.setFlight_good ?_
    | with_reducible refine ite_good (fun _ => ?_) (fun _ => ?_)
    | with_reducible refine iteOut_good (fun _ => ?_) (fun _ => ?_)
    | with_reducible refine foldl_good (fun _ _ _ => ?_) ?_
    | with_reducible refine foldl_fst (fun _ _ _ => ?_) ?_
    | with_reducible refine foldl_snd (fun _ _ _ => ?_) ?_
    | subst x
    | with_reducible split
    | dsimp only

theorem State.fend_good_eq {pq : List Instr × Prop} {s : State} {ctx : Nat} {id : W32} {rr} (he : State.fend s ctx id = rr) (hs : Good pq s) : Good pq rr.2 := he ▸ State.fend_good hs

theorem execFbeg_good {pq : List Instr × Prop} {c : ClusterNo} {rd : Gpr} {rs1 : Gpr} {s : State} (hs : Good pq s) : GoodOut pq (execFbeg c rd rs1 s) := by
  unfold execFbeg
  repeat' first
    | with_reducible assumption
    | with_reducible refine goodOut_next ?_
    | (lift_lets; intro x; refine (fun (hx : Good pq x) => ?_) ?_; clear_value x)
    | (intro x; subst x)
    | with_reducible refine State.fbeg_good ?_
    | with_reducible refine State.newWork_good ?_ ?_
    | with_reducible refine State.retSt_good ?_
    | with_reducible refine State.fbeg_good_eq (by with_reducible assumption) ?_
    | with_reducible refine ite_good (fun _ => ?_) (fun _ => ?_)
    | with_reducible refine iteOut_good (fun _ => ?_) (fun _ => ?_)
    | with_reducible refine foldl_good (fun _ _ _ => ?_) ?_
    | with_reducible refine foldl_fst (fun _ _ _ => ?_) ?_
    | with_reducible refine foldl_snd (fun _ _ _ => ?_) ?_
    | subst x
    | with_reducible split
    | dsimp only

theorem execFend_good {pq : List Instr × Prop} {c : ClusterNo} {rd : Gpr} {rs1 : Gpr} {s : State} (hs : Good pq s) : GoodOut pq (execFend c rd rs1 s) := by
  unfold execFend
  repeat' first
    | with_reducible assumption
    | with_reducible refine goodOut_next ?_
    | (lift_lets; intro x; refine (fun (hx : Good pq x) => ?_) ?_; clear_value x)
    | (intro x; subst x)
    | with_reducible refine State.fend_good ?_
    | with_reducible refine State.retSt_good ?_
    | with_reducible refine State.fend_good_eq (by with_reducible assumption) ?_
    | with_reducible refine ite_good (fun _ => ?_) (fun _ => ?_)
    | with_reducible refine iteOut_good (fun _ => ?_) (fun _ => ?_)
    | with_reducible refine foldl_good (fun _ _ _ => ?_) ?_
    | with_reducible refine foldl_fst (fun _ _ _ => ?_) ?_
    | with_reducible refine foldl_snd (fun _ _ _ => ?_) ?_
    | subst x
    | with_reducible split
    | dsimp only

theorem State.lateAnswered_good {pq : List Instr × Prop} {s : State} {c : Nat} {ctx : Nat} (hs : Good pq s) : Good pq (State.lateAnswered s c ctx) := by
  unfold State.lateAnswered
  repeat' first
    | with_reducible assumption
    | with_reducible refine goodOut_next ?_
    | (lift_lets; intro x; refine (fun (hx : Good pq x) => ?_) ?_; clear_value x)
    | (intro x; subst x)
    | with_reducible refine State.withRcv_good _ ?_
    | with_reducible refine ite_good (fun _ => ?_) (fun _ => ?_)
    | with_reducible refine iteOut_good (fun _ => ?_) (fun _ => ?_)
    | with_reducible refine foldl_good (fun _ _ _ => ?_) ?_
    | with_reducible refine foldl_fst (fun _ _ _ => ?_) ?_
    | with_reducible refine foldl_snd (fun _ _ _ => ?_) ?_
    | subst x
    | with_reducible split
    | dsimp only

theorem execTaint_good {pq : List Instr × Prop} {c : ClusterNo} {rd : Gpr} {rs1 : Gpr} {rs2 : Gpr} {s : State} (hs : Good pq s) : GoodOut pq (execTaint c rd rs1 rs2 s) := by
  unfold execTaint
  repeat' first
    | with_reducible assumption
    | with_reducible refine goodOut_next ?_
    | (lift_lets; intro x; refine (fun (hx : Good pq x) => ?_) ?_; clear_value x)
    | (intro x; subst x)
    | with_reducible refine State.lateAnswered_good ?_
    | with_reducible refine State.recordTaint_good ?_
    | with_reducible refine State.retSt_good ?_
    | with_reducible refine ite_good (fun _ => ?_) (fun _ => ?_)
    | with_reducible refine iteOut_good (fun _ => ?_) (fun _ => ?_)
    | with_reducible refine foldl_good (fun _ _ _ => ?_) ?_
    | with_reducible refine foldl_fst (fun _ _ _ => ?_) ?_
    | with_reducible refine foldl_snd (fun _ _ _ => ?_) ?_
    | subst x
    | with_reducible split
    | dsimp only

theorem State.postReady_good {pq : List Instr × Prop} {s : State} {ol : Nat} {before : List OutMsg} (hs : Good pq s) : Good pq (State.postReady s ol before) := by
  unfold State.postReady
  repeat' first
    | with_reducible assumption
    | with_reducible refine goodOut_next ?_
    | (lift_lets; intro x; refine (fun (hx : Good pq x) => ?_) ?_; clear_value x)
    | (intro x; subst x)
    | with_reducible refine State.slPost_good ?_
    | with_reducible refine ite_good (fun _ => ?_) (fun _ => ?_)
    | with_reducible refine iteOut_good (fun _ => ?_) (fun _ => ?_)
    | with_reducible refine foldl_good (fun _ _ _ => ?_) ?_
    | with_reducible refine foldl_fst (fun _ _ _ => ?_) ?_
    | with_reducible refine foldl_snd (fun _ _ _ => ?_) ?_
    | subst x
    | with_reducible split
    | dsimp only

theorem State.copyEnds_good {pq : List Instr × Prop} {s : State} {n : Nat} {seq : W32} (hs : Good pq s) : Good pq (State.copyEnds s n seq) := by
  unfold State.copyEnds
  repeat' first
    | with_reducible assumption
    | with_reducible refine goodOut_next ?_
    | (lift_lets; intro x; refine (fun (hx : Good pq x) => ?_) ?_; clear_value x)
    | (intro x; subst x)
    | with_reducible refine State.postReady_good ?_
    | with_reducible refine State.setOutq_good ?_
    | with_reducible refine ite_good (fun _ => ?_) (fun _ => ?_)
    | with_reducible refine iteOut_good (fun _ => ?_) (fun _ => ?_)
    | with_reducible refine foldl_good (fun _ _ _ => ?_) ?_
    | with_reducible refine foldl_fst (fun _ _ _ => ?_) ?_
    | with_reducible refine foldl_snd (fun _ _ _ => ?_) ?_
    | subst x
    | with_reducible split
    | dsimp only

theorem execSlCopyDone_good {pq : List Instr × Prop} {ol : Met Byte} {seq : W32} {s0 : State} (hs : Good pq s0) : GoodOut pq (execSlCopyDone ol seq s0) := by
  unfold execSlCopyDone
  repeat' first
    | with_reducible assumption
    | with_reducible refine goodOut_next ?_
    | (lift_lets; intro x; refine (fun (hx : Good pq x) => ?_) ?_; clear_value x)
    | (intro x; subst x)
    | with_reducible refine State.copyEnds_good ?_
    | with_reducible refine State.copyPayload_good ?_
    | with_reducible refine State.meet_good ?_
    | with_reducible refine State.putPayload_good ?_
    | with_reducible refine State.withNet_good _ ?_
    | with_reducible refine ite_good (fun _ => ?_) (fun _ => ?_)
    | with_reducible refine iteOut_good (fun _ => ?_) (fun _ => ?_)
    | with_reducible refine foldl_good (fun _ _ _ => ?_) ?_
    | with_reducible refine foldl_fst (fun _ _ _ => ?_) ?_
    | with_reducible refine foldl_snd (fun _ _ _ => ?_) ?_
    | subst x
    | with_reducible split
    | dsimp only

theorem execSlOpenRecv_good {pq : List Instr × Prop} {m : SlOpen} {s : State} (hs : Good pq s) : GoodOut pq (execSlOpenRecv m s) := by
  unfold execSlOpenRecv
  repeat' first
    | with_reducible assumption
    | with_reducible refine goodOut_next ?_
    | (lift_lets; intro x; refine (fun (hx : Good pq x) => ?_) ?_; clear_value x)
    | (intro x; subst x)
    | with_reducible refine State.reply_good ?_
    | with_reducible refine State.setFld_good ?_
    | with_reducible refine State.setInq_good ?_
    | with_reducible refine State.setReg_good ?_
    | with_reducible refine State.slSend_good ?_
    | with_reducible refine ite_good (fun _ => ?_) (fun _ => ?_)
    | with_reducible refine iteOut_good (fun _ => ?_) (fun _ => ?_)
    | with_reducible refine foldl_good (fun _ _ _ => ?_) ?_
    | with_reducible refine foldl_fst (fun _ _ _ => ?_) ?_
    | with_reducible refine foldl_snd (fun _ _ _ => ?_) ?_
    | subst x
    | with_reducible split
    | dsimp only

theorem execSlAcceptRecv_good {pq : List Instr × Prop} {ol : Byte} {s : State} (hs : Good pq s) : GoodOut pq (execSlAcceptRecv ol s) := by
  unfold execSlAcceptRecv
  repeat' first
    | with_reducible assumption
    | with_reducible refine goodOut_next ?_
    | (lift_lets; intro x; refine (fun (hx : Good pq x) => ?_) ?_; clear_value x)
    | (intro x; subst x)
    | with_reducible refine State.setFld_good ?_
    | with_reducible refine State.setOutq_good ?_
    | with_reducible refine State.setReg_good ?_
    | with_reducible refine ite_good (fun _ => ?_) (fun _ => ?_)
    | with_reducible refine iteOut_good (fun _ => ?_) (fun _ => ?_)
    | with_reducible refine foldl_good (fun _ _ _ => ?_) ?_
    | with_reducible refine foldl_fst (fun _ _ _ => ?_) ?_
    | with_reducible refine foldl_snd (fun _ _ _ => ?_) ?_
    | subst x
    | with_reducible split
    | dsimp only

theorem execSlRefuseRecv_good {pq : List Instr × Prop} {ol : Byte} {s : State} (hs : Good pq s) : GoodOut pq (execSlRefuseRecv ol s) := by
  unfold execSlRefuseRecv
  repeat' first
    | with_reducible assumption
    | with_reducible refine goodOut_next ?_
    | (lift_lets; intro x; refine (fun (hx : Good pq x) => ?_) ?_; clear_value x)
    | (intro x; subst x)
    | with_reducible refine State.setErr_good ?_
    | with_reducible refine State.setFld_good ?_
    | with_reducible refine ite_good (fun _ => ?_) (fun _ => ?_)
    | with_reducible refine iteOut_good (fun _ => ?_) (fun _ => ?_)
    | with_reducible refine foldl_good (fun _ _ _ => ?_) ?_
    | with_reducible refine foldl_fst (fun _ _ _ => ?_) ?_
    | with_reducible refine foldl_snd (fun _ _ _ => ?_) ?_
    | subst x
    | with_reducible split
    | dsimp only

theorem State.slAck_good {pq : List Instr × Prop} {s : State} {qn : Nat} {seq : W32} (hs : Good pq s) : Good pq (State.slAck s qn seq) := by
  unfold State.slAck
  repeat' first
    | with_reducible assumption
    | with_reducible refine goodOut_next ?_
    | (lift_lets; intro x; refine (fun (hx : Good pq x) => ?_) ?_; clear_value x)
    | (intro x; subst x)
    | with_reducible refine State.slSend_good ?_
    | with_reducible refine ite_good (fun _ => ?_) (fun _ => ?_)
    | with_reducible refine iteOut_good (fun _ => ?_) (fun _ => ?_)
    | with_reducible refine foldl_good (fun _ _ _ => ?_) ?_
    | with_reducible refine foldl_fst (fun _ _ _ => ?_) ?_
    | with_reducible refine foldl_snd (fun _ _ _ => ?_) ?_
    | subst x
    | with_reducible split
    | dsimp only

-- FOR State.slTake
-- HAVE slTake State.slTake_good (fun _ _ => ?_)
theorem State.slTake_good {pq : List Instr × Prop} {s : State} {qn : Nat} {seq : W32} {take : State → State} (ht : ∀ s, Good pq s → Good pq (take s)) (hs : Good pq s) :
    Good pq (State.slTake s qn seq take) := by
  unfold State.slTake
  refine ite_good (fun _ => hs) (fun _ => ite_good (fun _ => ?_) (fun _ => ite_good (fun _ => ?_) (fun _ => ?_)))
  · exact State.wakeLinks_good (State.slAck_good (ht _ (State.wrapFld_good hs)))
  · exact State.slAck_good (State.setErr_good hs)
  · exact State.setErr_good hs

theorem execSlDescRecv_good {pq : List Instr × Prop} {m : SlDesc} {s : State} (hs : Good pq s) : GoodOut pq (execSlDescRecv m s) := by
  unfold execSlDescRecv
  repeat' first
    | with_reducible assumption
    | with_reducible refine goodOut_next ?_
    | (lift_lets; intro x; refine (fun (hx : Good pq x) => ?_) ?_; clear_value x)
    | (intro x; subst x)
    | with_reducible refine State.recordTaint_good ?_
    | with_reducible refine State.setInq_good ?_
    | with_reducible refine State.slTake_good (fun _ _ => ?_) ?_
    | with_reducible refine ite_good (fun _ => ?_) (fun _ => ?_)
    | with_reducible refine iteOut_good (fun _ => ?_) (fun _ => ?_)
    | with_reducible refine foldl_good (fun _ _ _ => ?_) ?_
    | with_reducible refine foldl_fst (fun _ _ _ => ?_) ?_
    | with_reducible refine foldl_snd (fun _ _ _ => ?_) ?_
    | subst x
    | with_reducible split
    | dsimp only

theorem execSlAckRecv_good {pq : List Instr × Prop} {ol : Byte} {seq : W32} {consumed : W32} {s : State} (hs : Good pq s) : GoodOut pq (execSlAckRecv ol seq consumed s) := by
  unfold execSlAckRecv
  repeat' first
    | with_reducible assumption
    | with_reducible refine goodOut_next ?_
    | (lift_lets; intro x; refine (fun (hx : Good pq x) => ?_) ?_; clear_value x)
    | (intro x; subst x)
    | with_reducible refine State.act_good ?_
    | with_reducible refine State.setFld_good ?_
    | with_reducible refine State.setOutq_good ?_
    | with_reducible refine State.wakeLinks_good ?_
    | with_reducible refine State.act_good_eq (by with_reducible assumption) ?_
    | with_reducible refine ite_good (fun _ => ?_) (fun _ => ?_)
    | with_reducible refine iteOut_good (fun _ => ?_) (fun _ => ?_)
    | with_reducible refine foldl_good (fun _ _ _ => ?_) ?_
    | with_reducible refine foldl_fst (fun _ _ _ => ?_) ?_
    | with_reducible refine foldl_snd (fun _ _ _ => ?_) ?_
    | subst x
    | with_reducible split
    | dsimp only

theorem execSlConsumedSend_good {pq : List Instr × Prop} {qn : Byte} {s : State} (hs : Good pq s) : GoodOut pq (execSlConsumedSend qn s) := by
  unfold execSlConsumedSend
  repeat' first
    | with_reducible assumption
    | with_reducible refine goodOut_next ?_
    | (lift_lets; intro x; refine (fun (hx : Good pq x) => ?_) ?_; clear_value x)
    | (intro x; subst x)
    | with_reducible refine State.slSend_good ?_
    | with_reducible refine ite_good (fun _ => ?_) (fun _ => ?_)
    | with_reducible refine iteOut_good (fun _ => ?_) (fun _ => ?_)
    | with_reducible refine foldl_good (fun _ _ _ => ?_) ?_
    | with_reducible refine foldl_fst (fun _ _ _ => ?_) ?_
    | with_reducible refine foldl_snd (fun _ _ _ => ?_) ?_
    | subst x
    | with_reducible split
    | dsimp only

theorem execSlCreditRecv_good {pq : List Instr × Prop} {ol : Byte} {consumed : W32} {s : State} (hs : Good pq s) : GoodOut pq (execSlCreditRecv ol consumed s) := by
  unfold execSlCreditRecv
  repeat' first
    | with_reducible assumption
    | with_reducible refine goodOut_next ?_
    | (lift_lets; intro x; refine (fun (hx : Good pq x) => ?_) ?_; clear_value x)
    | (intro x; subst x)
    | with_reducible refine State.setFld_good ?_
    | with_reducible refine State.wakeLinks_good ?_
    | with_reducible refine ite_good (fun _ => ?_) (fun _ => ?_)
    | with_reducible refine iteOut_good (fun _ => ?_) (fun _ => ?_)
    | with_reducible refine foldl_good (fun _ _ _ => ?_) ?_
    | with_reducible refine foldl_fst (fun _ _ _ => ?_) ?_
    | with_reducible refine foldl_snd (fun _ _ _ => ?_) ?_
    | subst x
    | with_reducible split
    | dsimp only

theorem State.slOpen_good {pq : List Instr × Prop} {s : State} {ol : Nat} (hs : Good pq s) : Good pq (State.slOpen s ol) := by
  unfold State.slOpen
  repeat' first
    | with_reducible assumption
    | with_reducible refine goodOut_next ?_
    | (lift_lets; intro x; refine (fun (hx : Good pq x) => ?_) ?_; clear_value x)
    | (intro x; subst x)
    | with_reducible refine State.slSend_good ?_
    | with_reducible refine ite_good (fun _ => ?_) (fun _ => ?_)
    | with_reducible refine iteOut_good (fun _ => ?_) (fun _ => ?_)
    | with_reducible refine foldl_good (fun _ _ _ => ?_) ?_
    | with_reducible refine foldl_fst (fun _ _ _ => ?_) ?_
    | with_reducible refine foldl_snd (fun _ _ _ => ?_) ?_
    | subst x
    | with_reducible split
    | dsimp only

theorem State.slResend_good {pq : List Instr × Prop} {s : State} {n : Nat} (hs : Good pq s) : Good pq (State.slResend s n) := by
  unfold State.slResend
  repeat' first
    | with_reducible assumption
    | with_reducible refine goodOut_next ?_
    | (lift_lets; intro x; refine (fun (hx : Good pq x) => ?_) ?_; clear_value x)
    | (intro x; subst x)
    | with_reducible refine State.abortFor_good ?_
    | with_reducible refine State.copyPayload_good ?_
    | with_reducible refine State.putPayload_good ?_
    | with_reducible refine State.setErr_good ?_
    | with_reducible refine State.setFld_good ?_
    | with_reducible refine State.setOutq_good ?_
    | with_reducible refine State.slPost_good ?_
    | with_reducible refine State.wakeLinks_good ?_
    | with_reducible refine ite_good (fun _ => ?_) (fun _ => ?_)
    | with_reducible refine iteOut_good (fun _ => ?_) (fun _ => ?_)
    | with_reducible refine foldl_good (fun _ _ _ => ?_) ?_
    | with_reducible refine foldl_fst (fun _ _ _ => ?_) ?_
    | with_reducible refine foldl_snd (fun _ _ _ => ?_) ?_
    | subst x
    | with_reducible split
    | dsimp only

theorem execSlResend_good {pq : List Instr × Prop} {ol : Byte} {s : State} (hs : Good pq s) : GoodOut pq (execSlResend ol s) := by
  unfold execSlResend
  repeat' first
    | with_reducible assumption
    | with_reducible refine goodOut_next ?_
    | (lift_lets; intro x; refine (fun (hx : Good pq x) => ?_) ?_; clear_value x)
    | (intro x; subst x)
    | with_reducible refine State.slOpen_good ?_
    | with_reducible refine State.slResend_good ?_
    | with_reducible refine ite_good (fun _ => ?_) (fun _ => ?_)
    | with_reducible refine iteOut_good (fun _ => ?_) (fun _ => ?_)
    | with_reducible refine foldl_good (fun _ _ _ => ?_) ?_
    | with_reducible refine foldl_fst (fun _ _ _ => ?_) ?_
    | with_reducible refine foldl_snd (fun _ _ _ => ?_) ?_
    | subst x
    | with_reducible split
    | dsimp only

theorem execSlTaintRecv_good {pq : List Instr × Prop} {qn : Byte} {t : TaintId} {s : State} (hs : Good pq s) : GoodOut pq (execSlTaintRecv qn t s) := by
  unfold execSlTaintRecv
  repeat' first
    | with_reducible assumption
    | with_reducible refine goodOut_next ?_
    | (lift_lets; intro x; refine (fun (hx : Good pq x) => ?_) ?_; clear_value x)
    | (intro x; subst x)
    | with_reducible refine State.dropMarks_good ?_
    | with_reducible refine State.recordTaint_good ?_
    | with_reducible refine State.setInq_good ?_
    | with_reducible refine State.slTake_good (fun _ _ => ?_) ?_
    | with_reducible refine ite_good (fun _ => ?_) (fun _ => ?_)
    | with_reducible refine iteOut_good (fun _ => ?_) (fun _ => ?_)
    | with_reducible refine foldl_good (fun _ _ _ => ?_) ?_
    | with_reducible refine foldl_fst (fun _ _ _ => ?_) ?_
    | with_reducible refine foldl_snd (fun _ _ _ => ?_) ?_
    | subst x
    | with_reducible split
    | dsimp only

theorem execSlqIncfgWrite_good {pq : List Instr × Prop} {d : Die} {q : Fin 64} {data : W64} {s : State} (hs : Good pq s) : GoodOut pq (execSlqIncfgWrite d q data s) := by
  unfold execSlqIncfgWrite
  repeat' first
    | with_reducible assumption
    | with_reducible refine goodOut_next ?_
    | (lift_lets; intro x; refine (fun (hx : Good pq x) => ?_) ?_; clear_value x)
    | (intro x; subst x)
    | with_reducible refine State.plainWrite_good ?_
    | with_reducible refine State.setBitF_good ?_
    | with_reducible refine State.setErr_good ?_
    | with_reducible refine State.setFld_good ?_
    | with_reducible refine State.setInq_good ?_
    | with_reducible refine State.wakeLinks_good ?_
    | with_reducible refine ite_good (fun _ => ?_) (fun _ => ?_)
    | with_reducible refine iteOut_good (fun _ => ?_) (fun _ => ?_)
    | with_reducible refine foldl_good (fun _ _ _ => ?_) ?_
    | with_reducible refine foldl_fst (fun _ _ _ => ?_) ?_
    | with_reducible refine foldl_snd (fun _ _ _ => ?_) ?_
    | subst x
    | with_reducible split
    | dsimp only

theorem execSlqOutcfgWrite_good {pq : List Instr × Prop} {d : Die} {j : Fin 64} {data : W64} {s : State} (hs : Good pq s) : GoodOut pq (execSlqOutcfgWrite d j data s) := by
  unfold execSlqOutcfgWrite
  repeat' first
    | with_reducible assumption
    | with_reducible refine goodOut_next ?_
    | (lift_lets; intro x; refine (fun (hx : Good pq x) => ?_) ?_; clear_value x)
    | (intro x; subst x)
    | with_reducible refine State.plainWrite_good ?_
    | with_reducible refine State.setFld_good ?_
    | with_reducible refine State.setOutq_good ?_
    | with_reducible refine State.slOpen_good ?_
    | with_reducible refine State.wakeLinks_good ?_
    | with_reducible refine ite_good (fun _ => ?_) (fun _ => ?_)
    | with_reducible refine iteOut_good (fun _ => ?_) (fun _ => ?_)
    | with_reducible refine foldl_good (fun _ _ _ => ?_) ?_
    | with_reducible refine foldl_fst (fun _ _ _ => ?_) ?_
    | with_reducible refine foldl_snd (fun _ _ _ => ?_) ?_
    | subst x
    | with_reducible split
    | dsimp only

theorem execStgStageWrite_good {pq : List Instr × Prop} {i : Fin 16} {data : W64} {s : State} (hs : Good pq s) : GoodOut pq (execStgStageWrite i data s) := by
  unfold execStgStageWrite
  repeat' first
    | with_reducible assumption
    | with_reducible refine goodOut_next ?_
    | (lift_lets; intro x; refine (fun (hx : Good pq x) => ?_) ?_; clear_value x)
    | (intro x; subst x)
    | with_reducible refine State.lockedWrite_good ?_
    | with_reducible refine State.plainWrite_good ?_
    | with_reducible refine State.setBitF_good ?_
    | with_reducible refine State.setErr_good ?_
    | with_reducible refine State.stopStage_good ?_
    | with_reducible refine State.wakeLinks_good ?_
    | with_reducible refine ite_good (fun _ => ?_) (fun _ => ?_)
    | with_reducible refine iteOut_good (fun _ => ?_) (fun _ => ?_)
    | with_reducible refine foldl_good (fun _ _ _ => ?_) ?_
    | with_reducible refine foldl_fst (fun _ _ _ => ?_) ?_
    | with_reducible refine foldl_snd (fun _ _ _ => ?_) ?_
    | subst x
    | with_reducible split
    | dsimp only

theorem State.vcmdStart_good {pq : List Instr × Prop} {s : State} {op : Nat} {vte : Nat} (hs : Good pq s) : Good pq (State.vcmdStart s op vte) := by
  unfold State.vcmdStart
  repeat' first
    | with_reducible assumption
    | with_reducible refine goodOut_next ?_
    | (lift_lets; intro x; refine (fun (hx : Good pq x) => ?_) ?_; clear_value x)
    | (intro x; subst x)
    | with_reducible refine State.setErr_good ?_
    | with_reducible refine State.setReg_good ?_
    | with_reducible refine State.withStg_good _ ?_
    | with_reducible refine ite_good (fun _ => ?_) (fun _ => ?_)
    | with_reducible refine iteOut_good (fun _ => ?_) (fun _ => ?_)
    | with_reducible refine foldl_good (fun _ _ _ => ?_) ?_
    | with_reducible refine foldl_fst (fun _ _ _ => ?_) ?_
    | with_reducible refine foldl_snd (fun _ _ _ => ?_) ?_
    | subst x
    | with_reducible split
    | dsimp only

theorem execVcmdActivate_good {pq : List Instr × Prop} {vte : W16} {s : State} (hs : Good pq s) : GoodOut pq (execVcmdActivate vte s) := by
  unfold execVcmdActivate
  repeat' first
    | with_reducible assumption
    | with_reducible refine goodOut_next ?_
    | (lift_lets; intro x; refine (fun (hx : Good pq x) => ?_) ?_; clear_value x)
    | (intro x; subst x)
    | with_reducible refine State.vcmdStart_good ?_
    | with_reducible refine ite_good (fun _ => ?_) (fun _ => ?_)
    | with_reducible refine iteOut_good (fun _ => ?_) (fun _ => ?_)
    | with_reducible refine foldl_good (fun _ _ _ => ?_) ?_
    | with_reducible refine foldl_fst (fun _ _ _ => ?_) ?_
    | with_reducible refine foldl_snd (fun _ _ _ => ?_) ?_
    | subst x
    | with_reducible split
    | dsimp only

theorem execVcmdRetire_good {pq : List Instr × Prop} {vte : W16} {s : State} (hs : Good pq s) : GoodOut pq (execVcmdRetire vte s) := by
  unfold execVcmdRetire
  repeat' first
    | with_reducible assumption
    | with_reducible refine goodOut_next ?_
    | (lift_lets; intro x; refine (fun (hx : Good pq x) => ?_) ?_; clear_value x)
    | (intro x; subst x)
    | with_reducible refine State.vcmdStart_good ?_
    | with_reducible refine ite_good (fun _ => ?_) (fun _ => ?_)
    | with_reducible refine iteOut_good (fun _ => ?_) (fun _ => ?_)
    | with_reducible refine foldl_good (fun _ _ _ => ?_) ?_
    | with_reducible refine foldl_fst (fun _ _ _ => ?_) ?_
    | with_reducible refine foldl_snd (fun _ _ _ => ?_) ?_
    | subst x
    | with_reducible split
    | dsimp only

theorem execVcmdDone_good {pq : List Instr × Prop} {s : State} (hs : Good pq s) : GoodOut pq (execVcmdDone s) := by
  unfold execVcmdDone
  repeat' first
    | with_reducible assumption
    | with_reducible refine goodOut_next ?_
    | (lift_lets; intro x; refine (fun (hx : Good pq x) => ?_) ?_; clear_value x)
    | (intro x; subst x)
    | with_reducible refine State.setReg_good ?_
    | with_reducible refine State.setVt_good ?_
    | with_reducible refine State.storeWords_good ?_
    | with_reducible refine State.vtNote_good ?_
    | with_reducible refine State.withStg_good _ ?_
    | with_reducible refine ite_good (fun _ => ?_) (fun _ => ?_)
    | with_reducible refine iteOut_good (fun _ => ?_) (fun _ => ?_)
    | with_reducible refine foldl_good (fun _ _ _ => ?_) ?_
    | with_reducible refine foldl_fst (fun _ _ _ => ?_) ?_
    | with_reducible refine foldl_snd (fun _ _ _ => ?_) ?_
    | subst x
    | with_reducible split
    | dsimp only

theorem execStgTclr_good {pq : List Instr × Prop} {ctx : Byte} {s : State} (hs : Good pq s) : GoodOut pq (execStgTclr ctx s) := by
  unfold execStgTclr
  repeat' first
    | with_reducible assumption
    | with_reducible refine goodOut_next ?_
    | (lift_lets; intro x; refine (fun (hx : Good pq x) => ?_) ?_; clear_value x)
    | (intro x; subst x)
    | with_reducible refine State.withStg_good _ ?_
    | with_reducible refine ite_good (fun _ => ?_) (fun _ => ?_)
    | with_reducible refine iteOut_good (fun _ => ?_) (fun _ => ?_)
    | with_reducible refine foldl_good (fun _ _ _ => ?_) ?_
    | with_reducible refine foldl_fst (fun _ _ _ => ?_) ?_
    | with_reducible refine foldl_snd (fun _ _ _ => ?_) ?_
    | subst x
    | with_reducible split
    | dsimp only

theorem State.mapGroup_good {pq : List Instr × Prop} {s : State} {d : Nat} {gid : Nat} {f : Group → Group} (hs : Good pq s) : Good pq (State.mapGroup s d gid f) := by
  unfold State.mapGroup
  repeat' first
    | with_reducible assumption
    | with_reducible refine goodOut_next ?_
    | (lift_lets; intro x; refine (fun (hx : Good pq x) => ?_) ?_; clear_value x)
    | (intro x; subst x)
    | with_reducible refine State.withCr_good _ ?_
    | with_reducible refine ite_good (fun _ => ?_) (fun _ => ?_)
    | with_reducible refine iteOut_good (fun _ => ?_) (fun _ => ?_)
    | with_reducible refine foldl_good (fun _ _ _ => ?_) ?_
    | with_reducible refine foldl_fst (fun _ _ _ => ?_) ?_
    | with_reducible refine foldl_snd (fun _ _ _ => ?_) ?_
    | subst x
    | with_reducible split
    | dsimp only

theorem State.mapColl_good {pq : List Instr × Prop} {s : State} {num : Nat} {f : Coll → Coll} (hs : Good pq s) : Good pq (State.mapColl s num f) := by
  unfold State.mapColl
  repeat' first
    | with_reducible assumption
    | with_reducible refine goodOut_next ?_
    | (lift_lets; intro x; refine (fun (hx : Good pq x) => ?_) ?_; clear_value x)
    | (intro x; subst x)
    | with_reducible refine State.withCr_good _ ?_
    | with_reducible refine ite_good (fun _ => ?_) (fun _ => ?_)
    | with_reducible refine iteOut_good (fun _ => ?_) (fun _ => ?_)
    | with_reducible refine foldl_good (fun _ _ _ => ?_) ?_
    | with_reducible refine foldl_fst (fun _ _ _ => ?_) ?_
    | with_reducible refine foldl_snd (fun _ _ _ => ?_) ?_
    | subst x
    | with_reducible split
    | dsimp only

theorem State.setStreamCount_good {pq : List Instr × Prop} {s : State} {g : Group} {rank : Nat} {k : Nat} {v : Nat} (hs : Good pq s) : Good pq (State.setStreamCount s g rank k v) := by
  unfold State.setStreamCount
  repeat' first
    | with_reducible assumption
    | with_reducible refine goodOut_next ?_
    | (lift_lets; intro x; refine (fun (hx : Good pq x) => ?_) ?_; clear_value x)
    | (intro x; subst x)
    | with_reducible refine State.storeNat_good ?_
    | with_reducible refine ite_good (fun _ => ?_) (fun _ => ?_)
    | with_reducible refine iteOut_good (fun _ => ?_) (fun _ => ?_)
    | with_reducible refine foldl_good (fun _ _ _ => ?_) ?_
    | with_reducible refine foldl_fst (fun _ _ _ => ?_) ?_
    | with_reducible refine foldl_snd (fun _ _ _ => ?_) ?_
    | subst x
    | with_reducible split
    | dsimp only

theorem State.sendCredit_good {pq : List Instr × Prop} {s : State} {g : Group} {rank : Nat} (hs : Good pq s) : Good pq (State.sendCredit s g rank) := by
  unfold State.sendCredit
  repeat' first
    | with_reducible assumption
    | with_reducible refine goodOut_next ?_
    | (lift_lets; intro x; refine (fun (hx : Good pq x) => ?_) ?_; clear_value x)
    | (intro x; subst x)
    | with_reducible refine State.post_good ?_
    | with_reducible refine ite_good (fun _ => ?_) (fun _ => ?_)
    | with_reducible refine iteOut_good (fun _ => ?_) (fun _ => ?_)
    | with_reducible refine foldl_good (fun _ _ _ => ?_) ?_
    | with_reducible refine foldl_fst (fun _ _ _ => ?_) ?_
    | with_reducible refine foldl_snd (fun _ _ _ => ?_) ?_
    | subst x
    | with_reducible split
    | dsimp only

theorem State.collRead_good {pq : List Instr × Prop} {s : State} {k : Coll} {a : Nat} {n : Nat} (hs : Good pq s) : Good pq (State.collRead s k a n) := by
  unfold State.collRead
  repeat' first
    | with_reducible assumption
    | with_reducible refine goodOut_next ?_
    | (lift_lets; intro x; refine (fun (hx : Good pq x) => ?_) ?_; clear_value x)
    | (intro x; subst x)
    | with_reducible refine State.charge_good ?_
    | with_reducible refine ite_good (fun _ => ?_) (fun _ => ?_)
    | with_reducible refine iteOut_good (fun _ => ?_) (fun _ => ?_)
    | with_reducible refine foldl_good (fun _ _ _ => ?_) ?_
    | with_reducible refine foldl_fst (fun _ _ _ => ?_) ?_
    | with_reducible refine foldl_snd (fun _ _ _ => ?_) ?_
    | subst x
    | with_reducible split
    | dsimp only

theorem State.collStatus_good {pq : List Instr × Prop} {s : State} {num : Nat} {st : Nat} (hs : Good pq s) : Good pq (State.collStatus s num st) := by
  unfold State.collStatus
  repeat' first
    | with_reducible assumption
    | with_reducible refine goodOut_next ?_
    | (lift_lets; intro x; refine (fun (hx : Good pq x) => ?_) ?_; clear_value x)
    | (intro x; subst x)
    | with_reducible refine State.mapColl_good ?_
    | with_reducible refine ite_good (fun _ => ?_) (fun _ => ?_)
    | with_reducible refine iteOut_good (fun _ => ?_) (fun _ => ?_)
    | with_reducible refine foldl_good (fun _ _ _ => ?_) ?_
    | with_reducible refine foldl_fst (fun _ _ _ => ?_) ?_
    | with_reducible refine foldl_snd (fun _ _ _ => ?_) ?_
    | subst x
    | with_reducible split
    | dsimp only

theorem State.collWrite_good {pq : List Instr × Prop} {s : State} {k : Coll} {a : Nat} {bs : List Byte} {bad : Bool} (hs : Good pq s) : Good pq (State.collWrite s k a bs bad) := by
  unfold State.collWrite
  repeat' first
    | with_reducible assumption
    | with_reducible refine goodOut_next ?_
    | (lift_lets; intro x; refine (fun (hx : Good pq x) => ?_) ?_; clear_value x)
    | (intro x; subst x)
    | with_reducible refine State.charge_good ?_
    | with_reducible refine State.collStatus_good ?_
    | with_reducible refine State.storeMarked_good ?_
    | with_reducible refine State.wakeRange_good ?_
    | with_reducible refine ite_good (fun _ => ?_) (fun _ => ?_)
    | with_reducible refine iteOut_good (fun _ => ?_) (fun _ => ?_)
    | with_reducible refine foldl_good (fun _ _ _ => ?_) ?_
    | with_reducible refine foldl_fst (fun _ _ _ => ?_) ?_
    | with_reducible refine foldl_snd (fun _ _ _ => ?_) ?_
    | subst x
    | with_reducible split
    | dsimp only

theorem State.collShow_good {pq : List Instr × Prop} {s : State} {k : Coll} {pos : Nat} {bs : List Byte} {bad : Bool} (hs : Good pq s) : Good pq (State.collShow s k pos bs bad) := by
  unfold State.collShow
  repeat' first
    | with_reducible assumption
    | with_reducible refine goodOut_next ?_
    | (lift_lets; intro x; refine (fun (hx : Good pq x) => ?_) ?_; clear_value x)
    | (intro x; subst x)
    | with_reducible refine State.charge_good ?_
    | with_reducible refine State.collWrite_good ?_
    | with_reducible refine State.countWide_good ?_
    | with_reducible refine State.storeWide_good ?_
    | with_reducible refine ite_good (fun _ => ?_) (fun _ => ?_)
    | with_reducible refine iteOut_good (fun _ => ?_) (fun _ => ?_)
    | with_reducible refine foldl_good (fun _ _ _ => ?_) ?_
    | with_reducible refine foldl_fst (fun _ _ _ => ?_) ?_
    | with_reducible refine foldl_snd (fun _ _ _ => ?_) ?_
    | subst x
    | with_reducible split
    | dsimp only

theorem State.collApply_good {pq : List Instr × Prop} {s : State} {g : Group} {k : Coll} {act : RecvAct} {off : Nat} {bs : List Byte} {bad : Bool} (hs : Good pq s) : Good pq (State.collApply s g k act off bs bad) := by
  unfold State.collApply
  repeat' first
    | with_reducible assumption
    | with_reducible refine goodOut_next ?_
    | (lift_lets; intro x; refine (fun (hx : Good pq x) => ?_) ?_; clear_value x)
    | (intro x; subst x)
    | with_reducible refine State.act_good ?_
    | with_reducible refine State.collRead_good ?_
    | with_reducible refine State.collShow_good ?_
    | with_reducible refine State.collWrite_good ?_
    | with_reducible refine State.countEvents_good ?_
    | with_reducible refine State.mapColl_good ?_
    | with_reducible refine State.out_good ?_
    | with_reducible refine State.act_good_eq (by with_reducible assumption) ?_
    | with_reducible refine ite_good (fun _ => ?_) (fun _ => ?_)
    | with_reducible refine iteOut_good (fun _ => ?_) (fun _ => ?_)
    | with_reducible refine foldl_good (fun _ _ _ => ?_) ?_
    | with_reducible refine foldl_fst (fun _ _ _ => ?_) ?_
    | with_reducible refine foldl_snd (fun _ _ _ => ?_) ?_
    | subst x
    | with_reducible split
    | dsimp only

theorem State.consumeLane_good {pq : List Instr × Prop} (s : State) (k : Coll) (g : Group) (lane : Nat) (hs : Good pq s) : GoodOpt pq (fun r => r.1) (State.consumeLane s k g lane) := by
  unfold State.consumeLane
  repeat' first
    | with_reducible assumption
    | with_reducible refine goodOpt_some ?_
    | with_reducible refine goodOpt_none
    | with_reducible refine goodOut_next ?_
    | (lift_lets; intro x; refine (fun (hx : Good pq x) => ?_) ?_; clear_value x)
    | (intro x; subst x)
    | with_reducible refine State.act_good ?_
    | with_reducible refine State.collApply_good ?_
    | with_reducible refine State.mapColl_good ?_
    | with_reducible refine State.mapGroup_good ?_
    | with_reducible refine State.setStreamCount_good ?_
    | with_reducible refine State.act_good_eq (by with_reducible assumption) ?_
    | with_reducible refine iteOpt_good (fun _ => ?_) (fun _ => ?_)
    | with_reducible refine ite_good (fun _ => ?_) (fun _ => ?_)
    | with_reducible refine iteOut_good (fun _ => ?_) (fun _ => ?_)
    | with_reducible refine foldl_good (fun _ _ _ => ?_) ?_
    | with_reducible refine foldl_fst (fun _ _ _ => ?_) ?_
    | with_reducible refine foldl_snd (fun _ _ _ => ?_) ?_
    | subst x
    | with_reducible split
    | dsimp only

theorem State.consumeLane_good_eq {pq : List Instr × Prop} {s : State} {k : Coll} {g : Group} {lane : Nat} {rr} (he : State.consumeLane s k g lane = some rr) (hs : Good pq s) : Good pq rr.1 := State.consumeLane_good s k g lane hs rr he

-- FOR State.consumeChunk
-- HAVE =consumeChunk State.consumeChunk_good_eq
theorem State.consumeChunk_good_eq {pq : List Instr × Prop} {s : State} {num : Nat} {rr} (he : s.consumeChunk num = some rr) (hs : Good pq s) : Good pq rr.1 := by
  simp only [State.consumeChunk, Option.bind_eq_some_iff] at he
  obtain ⟨x, -, hx⟩ := he
  obtain ⟨lane, -, hl⟩ := List.exists_of_findSome?_eq_some hx
  exact State.consumeLane_good_eq hl hs

-- FOR State.consumeMany
-- HAVE consumeMany State.consumeMany_good
theorem State.consumeMany_good {pq : List Instr × Prop} : ∀ {n : Nat} {s : State} {num : Nat} {l : List Nat}, Good pq s → Good pq (State.consumeMany n s num l).1 := by
  intro n
  induction n with
  | zero => intro s num l hs; exact hs
  | succ n ih =>
    intro s num l hs
    unfold State.consumeMany
    split
    · exact hs
    · exact ih (State.consumeChunk_good_eq ‹_› hs)

theorem State.consumeColl_good {pq : List Instr × Prop} {s : State} {num : Nat} (hs : Good pq s) : Good pq (State.consumeColl s num) := by
  unfold State.consumeColl
  repeat' first
    | with_reducible assumption
    | with_reducible refine goodOut_next ?_
    | (lift_lets; intro x; refine (fun (hx : Good pq x) => ?_) ?_; clear_value x)
    | (intro x; subst x)
    | with_reducible refine State.consumeMany_good ?_
    | with_reducible refine State.sendCredit_good ?_
    | with_reducible refine ite_good (fun _ => ?_) (fun _ => ?_)
    | with_reducible refine iteOut_good (fun _ => ?_) (fun _ => ?_)
    | with_reducible refine foldl_good (fun _ _ _ => ?_) ?_
    | with_reducible refine foldl_fst (fun _ _ _ => ?_) ?_
    | with_reducible refine foldl_snd (fun _ _ _ => ?_) ?_
    | subst x
    | with_reducible split
    | dsimp only

theorem State.collRecord_good {pq : List Instr × Prop} {s : State} {d : Nat} {ctx : Nat} {ws : List W64} {st : Nat} (hs : Good pq s) : Good pq (State.collRecord s d ctx ws st) := by
  unfold State.collRecord
  repeat' first
    | with_reducible assumption
    | with_reducible refine goodOut_next ?_
    | (lift_lets; intro x; refine (fun (hx : Good pq x) => ?_) ?_; clear_value x)
    | (intro x; subst x)
    | with_reducible refine State.portRecord_good ?_
    | with_reducible refine ite_good (fun _ => ?_) (fun _ => ?_)
    | with_reducible refine iteOut_good (fun _ => ?_) (fun _ => ?_)
    | with_reducible refine foldl_good (fun _ _ _ => ?_) ?_
    | with_reducible refine foldl_fst (fun _ _ _ => ?_) ?_
    | with_reducible refine foldl_snd (fun _ _ _ => ?_) ?_
    | subst x
    | with_reducible split
    | dsimp only

theorem State.openGroup_good {pq : List Instr × Prop} {s : State} {d : Nat} {ctx : Nat} {ws : List W64} (hs : Good pq s) : Good pq (State.openGroup s d ctx ws).2 := by
  unfold State.openGroup
  repeat' first
    | with_reducible assumption
    | with_reducible refine goodOut_next ?_
    | (lift_lets; intro x; refine (fun (hx : Good pq x) => ?_) ?_; clear_value x)
    | (intro x; subst x)
    | with_reducible refine State.setErr_good ?_
    | with_reducible refine State.storeNat_good ?_
    | with_reducible refine State.withCr_good _ ?_
    | with_reducible refine ite_good (fun _ => ?_) (fun _ => ?_)
    | with_reducible refine iteOut_good (fun _ => ?_) (fun _ => ?_)
    | with_reducible refine foldl_good (fun _ _ _ => ?_) ?_
    | with_reducible refine foldl_fst (fun _ _ _ => ?_) ?_
    | with_reducible refine foldl_snd (fun _ _ _ => ?_) ?_
    | subst x
    | with_reducible split
    | dsimp only

theorem State.openGroup_good_eq {pq : List Instr × Prop} {s : State} {d : Nat} {ctx : Nat} {ws : List W64} {rr} (he : State.openGroup s d ctx ws = rr) (hs : Good pq s) : Good pq rr.2 := he ▸ State.openGroup_good hs

theorem State.collLookup_good {pq : List Instr × Prop} {s : State} {k : Coll} (hs : Good pq s) : Good pq (State.collLookup s k).2 := by
  unfold State.collLookup
  repeat' first
    | with_reducible assumption
    | with_reducible refine goodOut_next ?_
    | (lift_lets; intro x; refine (fun (hx : Good pq x) => ?_) ?_; clear_value x)
    | (intro x; subst x)
    | with_reducible refine State.lookup_good ?_
    | with_reducible refine State.lookup_good_eq (by with_reducible assumption) ?_
    | with_reducible refine ite_good (fun _ => ?_) (fun _ => ?_)
    | with_reducible refine iteOut_good (fun _ => ?_) (fun _ => ?_)
    | with_reducible refine foldl_good (fun _ _ _ => ?_) ?_
    | with_reducible refine foldl_fst (fun _ _ _ => ?_) ?_
    | with_reducible refine foldl_snd (fun _ _ _ => ?_) ?_
    | subst x
    | with_reducible split
    | dsimp only

theorem State.collLookup_good_eq {pq : List Instr × Prop} {s : State} {k : Coll} {rr} (he : State.collLookup s k = rr) (hs : Good pq s) : Good pq rr.2 := he ▸ State.collLookup_good hs

theorem State.closeDue_good {pq : List Instr × Prop} {s : State} {d : Nat} (hs : Good pq s) : Good pq (State.closeDue s d) := by
  unfold State.closeDue
  repeat' first
    | with_reducible assumption
    | with_reducible refine goodOut_next ?_
    | (lift_lets; intro x; refine (fun (hx : Good pq x) => ?_) ?_; clear_value x)
    | (intro x; subst x)
    | with_reducible refine State.dropGroups_good ?_
    | with_reducible refine State.endColl_good ?_
    | with_reducible refine ite_good (fun _ => ?_) (fun _ => ?_)
    | with_reducible refine iteOut_good (fun _ => ?_) (fun _ => ?_)
    | with_reducible refine foldl_good (fun _ _ _ => ?_) ?_
    | with_reducible refine foldl_fst (fun _ _ _ => ?_) ?_
    | with_reducible refine foldl_snd (fun _ _ _ => ?_) ?_
    | subst x
    | with_reducible split
    | dsimp only

theorem State.rcoll_good {pq : List Instr × Prop} {s : State} {c : Nat} {rd : Nat} {rs2 : Nat} (hs : Good pq s) : Good pq (State.rcoll s c rd rs2) := by
  unfold State.rcoll
  repeat' first
    | with_reducible assumption
    | with_reducible refine goodOut_next ?_
    | (lift_lets; intro x; refine (fun (hx : Good pq x) => ?_) ?_; clear_value x)
    | (intro x; subst x)
    | with_reducible refine State.closeDue_good ?_
    | with_reducible refine State.collLookup_good ?_
    | with_reducible refine State.collRecord_good ?_
    | with_reducible refine State.illegal_good ?_
    | with_reducible refine State.newWork_good ?_ ?_
    | with_reducible refine State.openGroup_good ?_
    | with_reducible refine State.retSt_good ?_
    | with_reducible refine State.withCr_good _ ?_
    | with_reducible refine State.collLookup_good_eq (by with_reducible assumption) ?_
    | with_reducible refine State.openGroup_good_eq (by with_reducible assumption) ?_
    | with_reducible refine ite_good (fun _ => ?_) (fun _ => ?_)
    | with_reducible refine iteOut_good (fun _ => ?_) (fun _ => ?_)
    | with_reducible refine foldl_good (fun _ _ _ => ?_) ?_
    | with_reducible refine foldl_fst (fun _ _ _ => ?_) ?_
    | with_reducible refine foldl_snd (fun _ _ _ => ?_) ?_
    | subst x
    | with_reducible split
    | dsimp only

theorem execCollOpen_good {pq : List Instr × Prop} {c : CoreNo} {rd : Gpr} {rs2 : Gpr} {s : State} (hs : Good pq s) : GoodOut pq (execCollOpen c rd rs2 s) := by
  unfold execCollOpen
  repeat' first
    | with_reducible assumption
    | with_reducible refine goodOut_next ?_
    | (lift_lets; intro x; refine (fun (hx : Good pq x) => ?_) ?_; clear_value x)
    | (intro x; subst x)
    | with_reducible refine State.rcoll_good ?_
    | with_reducible refine ite_good (fun _ => ?_) (fun _ => ?_)
    | with_reducible refine iteOut_good (fun _ => ?_) (fun _ => ?_)
    | with_reducible refine foldl_good (fun _ _ _ => ?_) ?_
    | with_reducible refine foldl_fst (fun _ _ _ => ?_) ?_
    | with_reducible refine foldl_snd (fun _ _ _ => ?_) ?_
    | subst x
    | with_reducible split
    | dsimp only

theorem execCollClose_good {pq : List Instr × Prop} {c : CoreNo} {rd : Gpr} {rs2 : Gpr} {s : State} (hs : Good pq s) : GoodOut pq (execCollClose c rd rs2 s) := by
  unfold execCollClose
  repeat' first
    | with_reducible assumption
    | with_reducible refine goodOut_next ?_
    | (lift_lets; intro x; refine (fun (hx : Good pq x) => ?_) ?_; clear_value x)
    | (intro x; subst x)
    | with_reducible refine State.rcoll_good ?_
    | with_reducible refine ite_good (fun _ => ?_) (fun _ => ?_)
    | with_reducible refine iteOut_good (fun _ => ?_) (fun _ => ?_)
    | with_reducible refine foldl_good (fun _ _ _ => ?_) ?_
    | with_reducible refine foldl_fst (fun _ _ _ => ?_) ?_
    | with_reducible refine foldl_snd (fun _ _ _ => ?_) ?_
    | subst x
    | with_reducible split
    | dsimp only

theorem execAllreduce_good {pq : List Instr × Prop} {c : CoreNo} {rd : Gpr} {rs2 : Gpr} {s : State} (hs : Good pq s) : GoodOut pq (execAllreduce c rd rs2 s) := by
  unfold execAllreduce
  repeat' first
    | with_reducible assumption
    | with_reducible refine goodOut_next ?_
    | (lift_lets; intro x; refine (fun (hx : Good pq x) => ?_) ?_; clear_value x)
    | (intro x; subst x)
    | with_reducible refine State.rcoll_good ?_
    | with_reducible refine ite_good (fun _ => ?_) (fun _ => ?_)
    | with_reducible refine iteOut_good (fun _ => ?_) (fun _ => ?_)
    | with_reducible refine foldl_good (fun _ _ _ => ?_) ?_
    | with_reducible refine foldl_fst (fun _ _ _ => ?_) ?_
    | with_reducible refine foldl_snd (fun _ _ _ => ?_) ?_
    | subst x
    | with_reducible split
    | dsimp only

theorem execReduceScatter_good {pq : List Instr × Prop} {c : CoreNo} {rd : Gpr} {rs2 : Gpr} {s : State} (hs : Good pq s) : GoodOut pq (execReduceScatter c rd rs2 s) := by
  unfold execReduceScatter
  repeat' first
    | with_reducible assumption
    | with_reducible refine goodOut_next ?_
    | (lift_lets; intro x; refine (fun (hx : Good pq x) => ?_) ?_; clear_value x)
    | (intro x; subst x)
    | with_reducible refine State.rcoll_good ?_
    | with_reducible refine ite_good (fun _ => ?_) (fun _ => ?_)
    | with_reducible refine iteOut_good (fun _ => ?_) (fun _ => ?_)
    | with_reducible refine foldl_good (fun _ _ _ => ?_) ?_
    | with_reducible refine foldl_fst (fun _ _ _ => ?_) ?_
    | with_reducible refine foldl_snd (fun _ _ _ => ?_) ?_
    | subst x
    | with_reducible split
    | dsimp only

theorem execAllgather_good {pq : List Instr × Prop} {c : CoreNo} {rd : Gpr} {rs2 : Gpr} {s : State} (hs : Good pq s) : GoodOut pq (execAllgather c rd rs2 s) := by
  unfold execAllgather
  repeat' first
    | with_reducible assumption
    | with_reducible refine goodOut_next ?_
    | (lift_lets; intro x; refine (fun (hx : Good pq x) => ?_) ?_; clear_value x)
    | (intro x; subst x)
    | with_reducible refine State.rcoll_good ?_
    | with_reducible refine ite_good (fun _ => ?_) (fun _ => ?_)
    | with_reducible refine iteOut_good (fun _ => ?_) (fun _ => ?_)
    | with_reducible refine foldl_good (fun _ _ _ => ?_) ?_
    | with_reducible refine foldl_fst (fun _ _ _ => ?_) ?_
    | with_reducible refine foldl_snd (fun _ _ _ => ?_) ?_
    | subst x
    | with_reducible split
    | dsimp only

theorem execBroadcast_good {pq : List Instr × Prop} {c : CoreNo} {rd : Gpr} {rs2 : Gpr} {s : State} (hs : Good pq s) : GoodOut pq (execBroadcast c rd rs2 s) := by
  unfold execBroadcast
  repeat' first
    | with_reducible assumption
    | with_reducible refine goodOut_next ?_
    | (lift_lets; intro x; refine (fun (hx : Good pq x) => ?_) ?_; clear_value x)
    | (intro x; subst x)
    | with_reducible refine State.rcoll_good ?_
    | with_reducible refine ite_good (fun _ => ?_) (fun _ => ?_)
    | with_reducible refine iteOut_good (fun _ => ?_) (fun _ => ?_)
    | with_reducible refine foldl_good (fun _ _ _ => ?_) ?_
    | with_reducible refine foldl_fst (fun _ _ _ => ?_) ?_
    | with_reducible refine foldl_snd (fun _ _ _ => ?_) ?_
    | subst x
    | with_reducible split
    | dsimp only

theorem execPermute_good {pq : List Instr × Prop} {c : CoreNo} {rd : Gpr} {rs2 : Gpr} {s : State} (hs : Good pq s) : GoodOut pq (execPermute c rd rs2 s) := by
  unfold execPermute
  repeat' first
    | with_reducible assumption
    | with_reducible refine goodOut_next ?_
    | (lift_lets; intro x; refine (fun (hx : Good pq x) => ?_) ?_; clear_value x)
    | (intro x; subst x)
    | with_reducible refine State.rcoll_good ?_
    | with_reducible refine ite_good (fun _ => ?_) (fun _ => ?_)
    | with_reducible refine iteOut_good (fun _ => ?_) (fun _ => ?_)
    | with_reducible refine foldl_good (fun _ _ _ => ?_) ?_
    | with_reducible refine foldl_fst (fun _ _ _ => ?_) ?_
    | with_reducible refine foldl_snd (fun _ _ _ => ?_) ?_
    | subst x
    | with_reducible split
    | dsimp only

theorem execAlltoall_good {pq : List Instr × Prop} {c : CoreNo} {rd : Gpr} {rs2 : Gpr} {s : State} (hs : Good pq s) : GoodOut pq (execAlltoall c rd rs2 s) := by
  unfold execAlltoall
  repeat' first
    | with_reducible assumption
    | with_reducible refine goodOut_next ?_
    | (lift_lets; intro x; refine (fun (hx : Good pq x) => ?_) ?_; clear_value x)
    | (intro x; subst x)
    | with_reducible refine State.rcoll_good ?_
    | with_reducible refine ite_good (fun _ => ?_) (fun _ => ?_)
    | with_reducible refine iteOut_good (fun _ => ?_) (fun _ => ?_)
    | with_reducible refine foldl_good (fun _ _ _ => ?_) ?_
    | with_reducible refine foldl_fst (fun _ _ _ => ?_) ?_
    | with_reducible refine foldl_snd (fun _ _ _ => ?_) ?_
    | subst x
    | with_reducible split
    | dsimp only

-- FOR State.collCopy
-- HAVE collCopy State.collCopy_good (fun _ _ _ _ _ => ?_)
theorem State.collCopy_good {pq : List Instr × Prop} {s : State} {g : Group} {k : Coll} {src n : Nat} {put : State → Nat → List Byte → Bool → State}
    (hp : ∀ s o bs bad, Good pq s → Good pq (put s o bs bad)) (hs : Good pq s) : Good pq (s.collCopy g k src n put) := by
  unfold State.collCopy
  exact foldl_good (fun _ _ h => hp _ _ _ _ (State.collRead_good h)) hs

theorem State.collOwn_good {pq : List Instr × Prop} {s : State} {g : Group} {k : Coll} (hs : Good pq s) : Good pq (State.collOwn s g k) := by
  unfold State.collOwn
  repeat' first
    | with_reducible assumption
    | with_reducible refine goodOut_next ?_
    | (lift_lets; intro x; refine (fun (hx : Good pq x) => ?_) ?_; clear_value x)
    | (intro x; subst x)
    | with_reducible refine State.collCopy_good (fun _ _ _ _ _ => ?_) ?_
    | with_reducible refine State.collShow_good ?_
    | with_reducible refine State.collWrite_good ?_
    | with_reducible refine State.mapColl_good ?_
    | with_reducible refine ite_good (fun _ => ?_) (fun _ => ?_)
    | with_reducible refine iteOut_good (fun _ => ?_) (fun _ => ?_)
    | with_reducible refine foldl_good (fun _ _ _ => ?_) ?_
    | with_reducible refine foldl_fst (fun _ _ _ => ?_) ?_
    | with_reducible refine foldl_snd (fun _ _ _ => ?_) ?_
    | subst x
    | with_reducible split
    | dsimp only

theorem execCollStart_good {pq : List Instr × Prop} {d : Met Die} {s0 : State} (hs : Good pq s0) : GoodOut pq (execCollStart d s0) := by
  unfold execCollStart
  repeat' first
    | with_reducible assumption
    | with_reducible refine goodOut_next ?_
    | (lift_lets; intro x; refine (fun (hx : Good pq x) => ?_) ?_; clear_value x)
    | (intro x; subst x)
    | with_reducible refine State.closeDue_good ?_
    | with_reducible refine State.collOwn_good ?_
    | with_reducible refine State.collRead_good ?_
    | with_reducible refine State.consumeColl_good ?_
    | with_reducible refine State.endColl_good ?_
    | with_reducible refine State.mapColl_good ?_
    | with_reducible refine State.meet_good ?_
    | with_reducible refine State.sendCredit_good ?_
    | with_reducible refine ite_good (fun _ => ?_) (fun _ => ?_)
    | with_reducible refine iteOut_good (fun _ => ?_) (fun _ => ?_)
    | with_reducible refine foldl_good (fun _ _ _ => ?_) ?_
    | with_reducible refine foldl_fst (fun _ _ _ => ?_) ?_
    | with_reducible refine foldl_snd (fun _ _ _ => ?_) ?_
    | subst x
    | with_reducible split
    | dsimp only

theorem State.sendLane_good {pq : List Instr × Prop} (s : State) (g : Group) (k : Coll) (lane : Nat) (hs : Good pq s) : GoodOpt pq (fun r => r) (State.sendLane s g k lane) := by
  unfold State.sendLane
  repeat' first
    | with_reducible assumption
    | with_reducible refine goodOpt_some ?_
    | with_reducible refine goodOpt_none
    | with_reducible refine goodOut_next ?_
    | (lift_lets; intro x; refine (fun (hx : Good pq x) => ?_) ?_; clear_value x)
    | (intro x; subst x)
    | with_reducible refine State.collRead_good ?_
    | with_reducible refine State.mapColl_good ?_
    | with_reducible refine State.post_good ?_
    | with_reducible refine State.setStreamCount_good ?_
    | with_reducible refine State.claimSlot_good_eq (by with_reducible assumption) ?_
    | with_reducible refine iteOpt_good (fun _ => ?_) (fun _ => ?_)
    | with_reducible refine ite_good (fun _ => ?_) (fun _ => ?_)
    | with_reducible refine iteOut_good (fun _ => ?_) (fun _ => ?_)
    | with_reducible refine foldl_good (fun _ _ _ => ?_) ?_
    | with_reducible refine foldl_fst (fun _ _ _ => ?_) ?_
    | with_reducible refine foldl_snd (fun _ _ _ => ?_) ?_
    | subst x
    | with_reducible split
    | dsimp only

theorem State.sendLane_good_eq {pq : List Instr × Prop} {s : State} {g : Group} {k : Coll} {lane : Nat} {rr} (he : State.sendLane s g k lane = some rr) (hs : Good pq s) : Good pq rr := State.sendLane_good s g k lane hs rr he

-- FOR State.sendChunk
-- HAVE =sendChunk State.sendChunk_good_eq
theorem State.sendChunk_good_eq {pq : List Instr × Prop} {s : State} {k : Coll} {rr} (he : s.sendChunk k = some rr) (hs : Good pq s) : Good pq rr := by
  simp only [State.sendChunk, Option.bind_eq_some_iff] at he
  obtain ⟨x, -, hx⟩ := he
  obtain ⟨lane, -, hl⟩ := List.exists_of_findSome?_eq_some hx
  exact State.sendLane_good_eq hl hs

-- FOR execCollChunkSend
-- HAVE execCollChunkSend execCollChunkSend_good
theorem execCollChunkSend_good {pq : List Instr × Prop} {d : Met Die} {s0 : State} (hs0 : Good pq s0) : GoodOut pq (execCollChunkSend d s0) := by
  have hs := State.meet_good (hits := d.hits) hs0
  unfold execCollChunkSend
  dsimp only
  generalize s0.meet d.hits = s at hs
  refine iteOut_good (fun _ => goodOut_next hs0) (fun _ => goodOut_next ?_)
  generalize h : List.findSome? _ _ = o
  cases o with
  | none => exact hs
  | some t => exact findSome_good (fun k t h => State.sendChunk_good_eq h hs) h

theorem State.takeGroup_good {pq : List Instr × Prop} (s : State) (d : Nat) (op : Nat) (hs : Good pq s) : GoodOpt pq (fun r => r.2) (State.takeGroup s d op) := by
  unfold State.takeGroup
  repeat' first
    | with_reducible assumption
    | with_reducible refine goodOpt_some ?_
    | with_reducible refine goodOpt_none
    | with_reducible refine goodOut_next ?_
    | (lift_lets; intro x; refine (fun (hx : Good pq x) => ?_) ?_; clear_value x)
    | (intro x; subst x)
    | with_reducible refine State.withNet_good _ ?_
    | with_reducible refine iteOpt_good (fun _ => ?_) (fun _ => ?_)
    | with_reducible refine ite_good (fun _ => ?_) (fun _ => ?_)
    | with_reducible refine iteOut_good (fun _ => ?_) (fun _ => ?_)
    | with_reducible refine foldl_good (fun _ _ _ => ?_) ?_
    | with_reducible refine foldl_fst (fun _ _ _ => ?_) ?_
    | with_reducible refine foldl_snd (fun _ _ _ => ?_) ?_
    | subst x
    | with_reducible split
    | dsimp only

theorem State.takeGroup_good_eq {pq : List Instr × Prop} {s : State} {d : Nat} {op : Nat} {rr} (he : State.takeGroup s d op = some rr) (hs : Good pq s) : Good pq rr.2 := State.takeGroup_good s d op hs rr he

theorem execChunkRecv_good {pq : List Instr × Prop} {d : Met Die} {s0 : State} (hs : Good pq s0) : GoodOut pq (execChunkRecv d s0) := by
  unfold execChunkRecv
  repeat' first
    | with_reducible assumption
    | with_reducible refine goodOut_next ?_
    | (lift_lets; intro x; refine (fun (hx : Good pq x) => ?_) ?_; clear_value x)
    | (intro x; subst x)
    | with_reducible refine State.ack_good ?_
    | with_reducible refine State.addFld_good ?_
    | with_reducible refine State.consumeColl_good ?_
    | with_reducible refine State.mapGroup_good ?_
    | with_reducible refine State.meet_good ?_
    | with_reducible refine State.setErr_good ?_
    | with_reducible refine State.takeGroup_good_eq (by with_reducible assumption) ?_
    | with_reducible refine ite_good (fun _ => ?_) (fun _ => ?_)
    | with_reducible refine iteOut_good (fun _ => ?_) (fun _ => ?_)
    | with_reducible refine foldl_good (fun _ _ _ => ?_) ?_
    | with_reducible refine foldl_fst (fun _ _ _ => ?_) ?_
    | with_reducible refine foldl_snd (fun _ _ _ => ?_) ?_
    | subst x
    | with_reducible split
    | dsimp only

theorem execCollCreditRecv_good {pq : List Instr × Prop} {d : Die} {s : State} (hs : Good pq s) : GoodOut pq (execCollCreditRecv d s) := by
  unfold execCollCreditRecv
  repeat' first
    | with_reducible assumption
    | with_reducible refine goodOut_next ?_
    | (lift_lets; intro x; refine (fun (hx : Good pq x) => ?_) ?_; clear_value x)
    | (intro x; subst x)
    | with_reducible refine State.mapGroup_good ?_
    | with_reducible refine State.setStreamCount_good ?_
    | with_reducible refine State.takeGroup_good_eq (by with_reducible assumption) ?_
    | with_reducible refine ite_good (fun _ => ?_) (fun _ => ?_)
    | with_reducible refine iteOut_good (fun _ => ?_) (fun _ => ?_)
    | with_reducible refine foldl_good (fun _ _ _ => ?_) ?_
    | with_reducible refine foldl_fst (fun _ _ _ => ?_) ?_
    | with_reducible refine foldl_snd (fun _ _ _ => ?_) ?_
    | subst x
    | with_reducible split
    | dsimp only

theorem execCollComplete_good {pq : List Instr × Prop} {d : Die} {s : State} (hs : Good pq s) : GoodOut pq (execCollComplete d s) := by
  unfold execCollComplete
  repeat' first
    | with_reducible assumption
    | with_reducible refine goodOut_next ?_
    | (lift_lets; intro x; refine (fun (hx : Good pq x) => ?_) ?_; clear_value x)
    | (intro x; subst x)
    | with_reducible refine State.closeDue_good ?_
    | with_reducible refine State.endColl_good ?_
    | with_reducible refine ite_good (fun _ => ?_) (fun _ => ?_)
    | with_reducible refine iteOut_good (fun _ => ?_) (fun _ => ?_)
    | with_reducible refine foldl_good (fun _ _ _ => ?_) ?_
    | with_reducible refine foldl_fst (fun _ _ _ => ?_) ?_
    | with_reducible refine foldl_snd (fun _ _ _ => ?_) ?_
    | subst x
    | with_reducible split
    | dsimp only

theorem execReplyRecv_good {pq : List Instr × Prop} {d : Met Die} {s0 : State} (hs : Good pq s0) : GoodOut pq (execReplyRecv d s0) := by
  unfold execReplyRecv
  repeat' first
    | with_reducible assumption
    | with_reducible refine goodOut_next ?_
    | (lift_lets; intro x; refine (fun (hx : Good pq x) => ?_) ?_; clear_value x)
    | (intro x; subst x)
    | with_reducible refine State.addFld_good ?_
    | with_reducible refine State.answered_good ?_
    | with_reducible refine State.formAll_good ?_
    | with_reducible refine State.meet_good ?_
    | with_reducible refine State.setSlot_good ?_
    | with_reducible refine State.withCr_good _ ?_
    | with_reducible refine State.withNet_good _ ?_
    | with_reducible refine ite_good (fun _ => ?_) (fun _ => ?_)
    | with_reducible refine iteOut_good (fun _ => ?_) (fun _ => ?_)
    | with_reducible refine foldl_good (fun _ _ _ => ?_) ?_
    | with_reducible refine foldl_fst (fun _ _ _ => ?_) ?_
    | with_reducible refine foldl_snd (fun _ _ _ => ?_) ?_
    | subst x
    | with_reducible split
    | dsimp only

theorem State.resendChunk_good {pq : List Instr × Prop} {s : State} {k : Coll} {f : Flown} (hs : Good pq s) : Good pq (State.resendChunk s k f) := by
  unfold State.resendChunk
  repeat' first
    | with_reducible assumption
    | with_reducible refine goodOut_next ?_
    | (lift_lets; intro x; refine (fun (hx : Good pq x) => ?_) ?_; clear_value x)
    | (intro x; subst x)
    | with_reducible refine State.addFld_good ?_
    | with_reducible refine State.mapColl_good ?_
    | with_reducible refine State.post_good ?_
    | with_reducible refine State.claimSlot_good_eq (by with_reducible assumption) ?_
    | with_reducible refine ite_good (fun _ => ?_) (fun _ => ?_)
    | with_reducible refine iteOut_good (fun _ => ?_) (fun _ => ?_)
    | with_reducible refine foldl_good (fun _ _ _ => ?_) ?_
    | with_reducible refine foldl_fst (fun _ _ _ => ?_) ?_
    | with_reducible refine foldl_snd (fun _ _ _ => ?_) ?_
    | subst x
    | with_reducible split
    | dsimp only

theorem State.retryFail_good {pq : List Instr × Prop} {s : State} {k : Coll} (hs : Good pq s) : Good pq (State.retryFail s k) := by
  unfold State.retryFail
  repeat' first
    | with_reducible assumption
    | with_reducible refine goodOut_next ?_
    | (lift_lets; intro x; refine (fun (hx : Good pq x) => ?_) ?_; clear_value x)
    | (intro x; subst x)
    | with_reducible refine State.abortFor_good ?_
    | with_reducible refine State.closeDue_good ?_
    | with_reducible refine State.endColl_good ?_
    | with_reducible refine State.mapGroup_good ?_
    | with_reducible refine State.setErr_good ?_
    | with_reducible refine ite_good (fun _ => ?_) (fun _ => ?_)
    | with_reducible refine iteOut_good (fun _ => ?_) (fun _ => ?_)
    | with_reducible refine foldl_good (fun _ _ _ => ?_) ?_
    | with_reducible refine foldl_fst (fun _ _ _ => ?_) ?_
    | with_reducible refine foldl_snd (fun _ _ _ => ?_) ?_
    | subst x
    | with_reducible split
    | dsimp only

theorem execRemoteTimeout_good {pq : List Instr × Prop} {d : Die} {slot : Fin 4096} {s : State} (hs : Good pq s) : GoodOut pq (execRemoteTimeout d slot s) := by
  unfold execRemoteTimeout
  repeat' first
    | with_reducible assumption
    | with_reducible refine goodOut_next ?_
    | (lift_lets; intro x; refine (fun (hx : Good pq x) => ?_) ?_; clear_value x)
    | (intro x; subst x)
    | with_reducible refine State.addFld_good ?_
    | with_reducible refine State.expireSlot_good ?_
    | with_reducible refine State.formAll_good ?_
    | with_reducible refine State.resendChunk_good ?_
    | with_reducible refine State.retryFail_good ?_
    | with_reducible refine State.timedOut_good ?_
    | with_reducible refine ite_good (fun _ => ?_) (fun _ => ?_)
    | with_reducible refine iteOut_good (fun _ => ?_) (fun _ => ?_)
    | with_reducible refine foldl_good (fun _ _ _ => ?_) ?_
    | with_reducible refine foldl_fst (fun _ _ _ => ?_) ?_
    | with_reducible refine foldl_snd (fun _ _ _ => ?_) ?_
    | subst x
    | with_reducible split
    | dsimp only

theorem State.fenceCrr_good {pq : List Instr × Prop} {s : State} {d : Nat} {cause : Nat} (hs : Good pq s) : Good pq (State.fenceCrr s d cause) := by
  unfold State.fenceCrr
  repeat' first
    | with_reducible assumption
    | with_reducible refine goodOut_next ?_
    | (lift_lets; intro x; refine (fun (hx : Good pq x) => ?_) ?_; clear_value x)
    | (intro x; subst x)
    | with_reducible refine State.agentFenced_good ?_
    | with_reducible refine State.dropGroups_good ?_
    | with_reducible refine State.endColl_good ?_
    | with_reducible refine State.fenceEngine_good ?_
    | with_reducible refine ite_good (fun _ => ?_) (fun _ => ?_)
    | with_reducible refine iteOut_good (fun _ => ?_) (fun _ => ?_)
    | with_reducible refine foldl_good (fun _ _ _ => ?_) ?_
    | with_reducible refine foldl_fst (fun _ _ _ => ?_) ?_
    | with_reducible refine foldl_snd (fun _ _ _ => ?_) ?_
    | subst x
    | with_reducible split
    | dsimp only

theorem execCrrFence_good {pq : List Instr × Prop} {d : Die} {s : State} (hs : Good pq s) : GoodOut pq (execCrrFence d s) := by
  unfold execCrrFence
  repeat' first
    | with_reducible assumption
    | with_reducible refine goodOut_next ?_
    | (lift_lets; intro x; refine (fun (hx : Good pq x) => ?_) ?_; clear_value x)
    | (intro x; subst x)
    | with_reducible refine State.fenceCrr_good ?_
    | with_reducible refine ite_good (fun _ => ?_) (fun _ => ?_)
    | with_reducible refine iteOut_good (fun _ => ?_) (fun _ => ?_)
    | with_reducible refine foldl_good (fun _ _ _ => ?_) ?_
    | with_reducible refine foldl_fst (fun _ _ _ => ?_) ?_
    | with_reducible refine foldl_snd (fun _ _ _ => ?_) ?_
    | subst x
    | with_reducible split
    | dsimp only

theorem execCrrSelftest_good {pq : List Instr × Prop} {d : Die} {s : State} (hs : Good pq s) : GoodOut pq (execCrrSelftest d s) := by
  unfold execCrrSelftest
  repeat' first
    | with_reducible assumption
    | with_reducible refine goodOut_next ?_
    | (lift_lets; intro x; refine (fun (hx : Good pq x) => ?_) ?_; clear_value x)
    | (intro x; subst x)
    | with_reducible refine State.startSelftest_good ?_
    | with_reducible refine ite_good (fun _ => ?_) (fun _ => ?_)
    | with_reducible refine iteOut_good (fun _ => ?_) (fun _ => ?_)
    | with_reducible refine foldl_good (fun _ _ _ => ?_) ?_
    | with_reducible refine foldl_fst (fun _ _ _ => ?_) ?_
    | with_reducible refine foldl_snd (fun _ _ _ => ?_) ?_
    | subst x
    | with_reducible split
    | dsimp only

theorem execCrrSelftestDone_good {pq : List Instr × Prop} {d : Die} {pass : Bool} {s : State} (hs : Good pq s) : GoodOut pq (execCrrSelftestDone d pass s) := by
  unfold execCrrSelftestDone
  repeat' first
    | with_reducible assumption
    | with_reducible refine goodOut_next ?_
    | (lift_lets; intro x; refine (fun (hx : Good pq x) => ?_) ?_; clear_value x)
    | (intro x; subst x)
    | with_reducible refine State.endSelftest_good ?_
    | with_reducible refine ite_good (fun _ => ?_) (fun _ => ?_)
    | with_reducible refine iteOut_good (fun _ => ?_) (fun _ => ?_)
    | with_reducible refine foldl_good (fun _ _ _ => ?_) ?_
    | with_reducible refine foldl_fst (fun _ _ _ => ?_) ?_
    | with_reducible refine foldl_snd (fun _ _ _ => ?_) ?_
    | subst x
    | with_reducible split
    | dsimp only

theorem execCrrReadmit_good {pq : List Instr × Prop} {d : Die} {s : State} (hs : Good pq s) : GoodOut pq (execCrrReadmit d s) := by
  unfold execCrrReadmit
  repeat' first
    | with_reducible assumption
    | with_reducible refine goodOut_next ?_
    | (lift_lets; intro x; refine (fun (hx : Good pq x) => ?_) ?_; clear_value x)
    | (intro x; subst x)
    | with_reducible refine State.readmit_good ?_
    | with_reducible refine ite_good (fun _ => ?_) (fun _ => ?_)
    | with_reducible refine iteOut_good (fun _ => ?_) (fun _ => ?_)
    | with_reducible refine foldl_good (fun _ _ _ => ?_) ?_
    | with_reducible refine foldl_fst (fun _ _ _ => ?_) ?_
    | with_reducible refine foldl_snd (fun _ _ _ => ?_) ?_
    | subst x
    | with_reducible split
    | dsimp only

theorem execCrrCntRead_good {pq : List Instr × Prop} {d : Die} {s : State} (hs : Good pq s) : GoodOut pq (execCrrCntRead d s) := by
  unfold execCrrCntRead
  repeat' first
    | with_reducible assumption
    | with_reducible refine goodOut_next ?_
    | (lift_lets; intro x; refine (fun (hx : Good pq x) => ?_) ?_; clear_value x)
    | (intro x; subst x)
    | with_reducible refine State.readClear_good ?_
    | with_reducible refine ite_good (fun _ => ?_) (fun _ => ?_)
    | with_reducible refine iteOut_good (fun _ => ?_) (fun _ => ?_)
    | with_reducible refine foldl_good (fun _ _ _ => ?_) ?_
    | with_reducible refine foldl_fst (fun _ _ _ => ?_) ?_
    | with_reducible refine foldl_snd (fun _ _ _ => ?_) ?_
    | subst x
    | with_reducible split
    | dsimp only

theorem execJobAdmission_good {pq : List Instr × Prop} {q : Fin 256} {s : State} (hs : Good pq s) : GoodOut pq (execJobAdmission q s) := by
  unfold execJobAdmission
  repeat' first
    | with_reducible assumption
    | with_reducible refine goodOut_next ?_
    | (lift_lets; intro x; refine (fun (hx : Good pq x) => ?_) ?_; clear_value x)
    | (intro x; subst x)
    | with_reducible refine State.finCmd_good ?_
    | with_reducible refine State.markDispatched_good ?_
    | with_reducible refine State.pump_good ?_
    | with_reducible refine State.storeWords_good ?_
    | with_reducible refine State.withNet_good _ ?_
    | with_reducible refine ite_good (fun _ => ?_) (fun _ => ?_)
    | with_reducible refine iteOut_good (fun _ => ?_) (fun _ => ?_)
    | with_reducible refine foldl_good (fun _ _ _ => ?_) ?_
    | with_reducible refine foldl_fst (fun _ _ _ => ?_) ?_
    | with_reducible refine foldl_snd (fun _ _ _ => ?_) ?_
    | subst x
    | with_reducible split
    | dsimp only

theorem State.writeGeom_good {pq : List Instr × Prop} {s : State} {ctx : Nat} {data : W64} (hs : Good pq s) : Good pq (State.writeGeom s ctx data) := by
  unfold State.writeGeom
  repeat' first
    | with_reducible assumption
    | with_reducible refine goodOut_next ?_
    | (lift_lets; intro x; refine (fun (hx : Good pq x) => ?_) ?_; clear_value x)
    | (intro x; subst x)
    | with_reducible refine State.badSeq_good ?_
    | with_reducible refine State.setBitF_good ?_
    | with_reducible refine State.setFld_good ?_
    | with_reducible refine State.setReg_good ?_
    | with_reducible refine State.withLdg_good _ ?_
    | with_reducible refine ite_good (fun _ => ?_) (fun _ => ?_)
    | with_reducible refine iteOut_good (fun _ => ?_) (fun _ => ?_)
    | with_reducible refine foldl_good (fun _ _ _ => ?_) ?_
    | with_reducible refine foldl_fst (fun _ _ _ => ?_) ?_
    | with_reducible refine foldl_snd (fun _ _ _ => ?_) ?_
    | subst x
    | with_reducible split
    | dsimp only

theorem execLdgGeomWrite_good {pq : List Instr × Prop} {data : W64} {s : State} (hs : Good pq s) : GoodOut pq (execLdgGeomWrite data s) := by
  unfold execLdgGeomWrite
  repeat' first
    | with_reducible assumption
    | with_reducible refine goodOut_next ?_
    | (lift_lets; intro x; refine (fun (hx : Good pq x) => ?_) ?_; clear_value x)
    | (intro x; subst x)
    | with_reducible refine State.writeGeom_good ?_
    | with_reducible refine ite_good (fun _ => ?_) (fun _ => ?_)
    | with_reducible refine iteOut_good (fun _ => ?_) (fun _ => ?_)
    | with_reducible refine foldl_good (fun _ _ _ => ?_) ?_
    | with_reducible refine foldl_fst (fun _ _ _ => ?_) ?_
    | with_reducible refine foldl_snd (fun _ _ _ => ?_) ?_
    | subst x
    | with_reducible split
    | dsimp only

theorem State.writeRing_good {pq : List Instr × Prop} {s : State} {off : Nat} {data : W64} (hs : Good pq s) : Good pq (State.writeRing s off data) := by
  unfold State.writeRing
  repeat' first
    | with_reducible assumption
    | with_reducible refine goodOut_next ?_
    | (lift_lets; intro x; refine (fun (hx : Good pq x) => ?_) ?_; clear_value x)
    | (intro x; subst x)
    | with_reducible refine State.lockedWrite_good ?_
    | with_reducible refine State.plainWrite_good ?_
    | with_reducible refine ite_good (fun _ => ?_) (fun _ => ?_)
    | with_reducible refine iteOut_good (fun _ => ?_) (fun _ => ?_)
    | with_reducible refine foldl_good (fun _ _ _ => ?_) ?_
    | with_reducible refine foldl_fst (fun _ _ _ => ?_) ?_
    | with_reducible refine foldl_snd (fun _ _ _ => ?_) ?_
    | subst x
    | with_reducible split
    | dsimp only

theorem execLseal_good {pq : List Instr × Prop} {c : ClusterNo} {rd : Gpr} {rs1 : Gpr} {rs2 : Gpr} {s : State} (hs : Good pq s) : GoodOut pq (execLseal c rd rs1 rs2 s) := by
  unfold execLseal
  repeat' first
    | with_reducible assumption
    | with_reducible refine goodOut_next ?_
    | (lift_lets; intro x; refine (fun (hx : Good pq x) => ?_) ?_; clear_value x)
    | (intro x; subst x)
    | with_reducible refine State.newWork_good ?_ ?_
    | with_reducible refine State.retSt_good ?_
    | with_reducible refine State.withLdg_good _ ?_
    | with_reducible refine ite_good (fun _ => ?_) (fun _ => ?_)
    | with_reducible refine iteOut_good (fun _ => ?_) (fun _ => ?_)
    | with_reducible refine foldl_good (fun _ _ _ => ?_) ?_
    | with_reducible refine foldl_fst (fun _ _ _ => ?_) ?_
    | with_reducible refine foldl_snd (fun _ _ _ => ?_) ?_
    | subst x
    | with_reducible split
    | dsimp only

theorem State.advance_good {pq : List Instr × Prop} {s : State} {ctx : Nat} {l : List (Nat × Bool)} (hs : Good pq s) : Good pq (State.advance s ctx l) := by
  unfold State.advance
  repeat' first
    | with_reducible assumption
    | with_reducible refine goodOut_next ?_
    | (lift_lets; intro x; refine (fun (hx : Good pq x) => ?_) ?_; clear_value x)
    | (intro x; subst x)
    | with_reducible refine State.setFld_good ?_
    | with_reducible refine State.withLdg_good _ ?_
    | with_reducible refine ite_good (fun _ => ?_) (fun _ => ?_)
    | with_reducible refine iteOut_good (fun _ => ?_) (fun _ => ?_)
    | with_reducible refine foldl_good (fun _ _ _ => ?_) ?_
    | with_reducible refine foldl_fst (fun _ _ _ => ?_) ?_
    | with_reducible refine foldl_snd (fun _ _ _ => ?_) ?_
    | subst x
    | with_reducible split
    | dsimp only

theorem State.noteStep_good {pq : List Instr × Prop} {s : State} {ctx : Nat} {step : Nat} {acked : Bool} (hs : Good pq s) : Good pq (State.noteStep s ctx step acked) := by
  unfold State.noteStep
  repeat' first
    | with_reducible assumption
    | with_reducible refine goodOut_next ?_
    | (lift_lets; intro x; refine (fun (hx : Good pq x) => ?_) ?_; clear_value x)
    | (intro x; subst x)
    | with_reducible refine State.advance_good ?_
    | with_reducible refine ite_good (fun _ => ?_) (fun _ => ?_)
    | with_reducible refine iteOut_good (fun _ => ?_) (fun _ => ?_)
    | with_reducible refine foldl_good (fun _ _ _ => ?_) ?_
    | with_reducible refine foldl_fst (fun _ _ _ => ?_) ?_
    | with_reducible refine foldl_snd (fun _ _ _ => ?_) ?_
    | subst x
    | with_reducible split
    | dsimp only

theorem State.mapSeal_good {pq : List Instr × Prop} {s : State} {num : Nat} {f : Seal → Seal} (hs : Good pq s) : Good pq (State.mapSeal s num f) := by
  unfold State.mapSeal
  repeat' first
    | with_reducible assumption
    | with_reducible refine goodOut_next ?_
    | (lift_lets; intro x; refine (fun (hx : Good pq x) => ?_) ?_; clear_value x)
    | (intro x; subst x)
    | with_reducible refine State.withLdg_good _ ?_
    | with_reducible refine ite_good (fun _ => ?_) (fun _ => ?_)
    | with_reducible refine iteOut_good (fun _ => ?_) (fun _ => ?_)
    | with_reducible refine foldl_good (fun _ _ _ => ?_) ?_
    | with_reducible refine foldl_fst (fun _ _ _ => ?_) ?_
    | with_reducible refine foldl_snd (fun _ _ _ => ?_) ?_
    | subst x
    | with_reducible split
    | dsimp only

theorem State.putMirror_good {pq : List Instr × Prop} {s : State} {x : Seal} {step : Nat} (hs : Good pq s) : Good pq (State.putMirror s x step) := by
  unfold State.putMirror
  repeat' first
    | with_reducible assumption
    | with_reducible refine goodOut_next ?_
    | (lift_lets; intro x; refine (fun (hx : Good pq x) => ?_) ?_; clear_value x)
    | (intro x; subst x)
    | with_reducible refine State.mapSeal_good ?_
    | with_reducible refine State.submitOp_good ?_
    | with_reducible refine State.submitOp_good_eq (by with_reducible assumption) ?_
    | with_reducible refine ite_good (fun _ => ?_) (fun _ => ?_)
    | with_reducible refine iteOut_good (fun _ => ?_) (fun _ => ?_)
    | with_reducible refine foldl_good (fun _ _ _ => ?_) ?_
    | with_reducible refine foldl_fst (fun _ _ _ => ?_) ?_
    | with_reducible refine foldl_snd (fun _ _ _ => ?_) ?_
    | subst x
    | with_reducible split
    | dsimp only

theorem State.applySeal_good {pq : List Instr × Prop} {s : State} {x : Seal} (hs : Good pq s) : Good pq (State.applySeal s x) := by
  unfold State.applySeal
  repeat' first
    | with_reducible assumption
    | with_reducible refine goodOut_next ?_
    | (lift_lets; intro x; refine (fun (hx : Good pq x) => ?_) ?_; clear_value x)
    | (intro x; subst x)
    | with_reducible refine State.mapSeal_good ?_
    | with_reducible refine State.noteStep_good ?_
    | with_reducible refine State.putMirror_good ?_
    | with_reducible refine State.setErr_good ?_
    | with_reducible refine State.setFld_good ?_
    | with_reducible refine State.storeWords_good ?_
    | with_reducible refine ite_good (fun _ => ?_) (fun _ => ?_)
    | with_reducible refine iteOut_good (fun _ => ?_) (fun _ => ?_)
    | with_reducible refine foldl_good (fun _ _ _ => ?_) ?_
    | with_reducible refine foldl_fst (fun _ _ _ => ?_) ?_
    | with_reducible refine foldl_snd (fun _ _ _ => ?_) ?_
    | subst x
    | with_reducible split
    | dsimp only

theorem execSealDone_good {pq : List Instr × Prop} {s : State} (hs : Good pq s) : GoodOut pq (execSealDone s) := by
  unfold execSealDone
  repeat' first
    | with_reducible assumption
    | with_reducible refine goodOut_next ?_
    | (lift_lets; intro x; refine (fun (hx : Good pq x) => ?_) ?_; clear_value x)
    | (intro x; subst x)
    | with_reducible refine State.act_good ?_
    | with_reducible refine State.applySeal_good ?_
    | with_reducible refine State.noteStep_good ?_
    | with_reducible refine State.portRecord_good ?_
    | with_reducible refine State.runLocal_good ?_
    | with_reducible refine State.setErr_good ?_
    | with_reducible refine State.withLdg_good _ ?_
    | with_reducible refine State.withNet_good _ ?_
    | with_reducible refine State.act_good_eq (by with_reducible assumption) ?_
    | with_reducible refine State.runLocal_good_eq (by with_reducible assumption) ?_
    | with_reducible refine ite_good (fun _ => ?_) (fun _ => ?_)
    | with_reducible refine iteOut_good (fun _ => ?_) (fun _ => ?_)
    | with_reducible refine foldl_good (fun _ _ _ => ?_) ?_
    | with_reducible refine foldl_fst (fun _ _ _ => ?_) ?_
    | with_reducible refine foldl_snd (fun _ _ _ => ?_) ?_
    | subst x
    | with_reducible split
    | dsimp only

theorem execGstepWrite_good {pq : List Instr × Prop} {c : ClusterNo} {rs1 : Gpr} {s : State} (hs : Good pq s) : GoodOut pq (execGstepWrite c rs1 s) := by
  unfold execGstepWrite
  repeat' first
    | with_reducible assumption
    | with_reducible refine goodOut_next ?_
    | (lift_lets; intro x; refine (fun (hx : Good pq x) => ?_) ?_; clear_value x)
    | (intro x; subst x)
    | with_reducible refine State.nextPc_good ?_
    | with_reducible refine State.setReg_good ?_
    | with_reducible refine ite_good (fun _ => ?_) (fun _ => ?_)
    | with_reducible refine iteOut_good (fun _ => ?_) (fun _ => ?_)
    | with_reducible refine foldl_good (fun _ _ _ => ?_) ?_
    | with_reducible refine foldl_fst (fun _ _ _ => ?_) ?_
    | with_reducible refine foldl_snd (fun _ _ _ => ?_) ?_
    | subst x
    | with_reducible split
    | dsimp only

theorem State.ckShow_good {pq : List Instr × Prop} {s : State} {ctx : Nat} (hs : Good pq s) : Good pq (State.ckShow s ctx) := by
  unfold State.ckShow
  repeat' first
    | with_reducible assumption
    | with_reducible refine goodOut_next ?_
    | (lift_lets; intro x; refine (fun (hx : Good pq x) => ?_) ?_; clear_value x)
    | (intro x; subst x)
    | with_reducible refine State.setFld_good ?_
    | with_reducible refine ite_good (fun _ => ?_) (fun _ => ?_)
    | with_reducible refine iteOut_good (fun _ => ?_) (fun _ => ?_)
    | with_reducible refine foldl_good (fun _ _ _ => ?_) ?_
    | with_reducible refine foldl_fst (fun _ _ _ => ?_) ?_
    | with_reducible refine foldl_snd (fun _ _ _ => ?_) ?_
    | subst x
    | with_reducible split
    | dsimp only

theorem execCkRecompute_good {pq : List Instr × Prop} {ctx : Byte} {s : State} (hs : Good pq s) : GoodOut pq (execCkRecompute ctx s) := by
  unfold execCkRecompute
  repeat' first
    | with_reducible assumption
    | with_reducible refine goodOut_next ?_
    | (lift_lets; intro x; refine (fun (hx : Good pq x) => ?_) ?_; clear_value x)
    | (intro x; subst x)
    | with_reducible refine State.ckShow_good ?_
    | with_reducible refine ite_good (fun _ => ?_) (fun _ => ?_)
    | with_reducible refine iteOut_good (fun _ => ?_) (fun _ => ?_)
    | with_reducible refine foldl_good (fun _ _ _ => ?_) ?_
    | with_reducible refine foldl_fst (fun _ _ _ => ?_) ?_
    | with_reducible refine foldl_snd (fun _ _ _ => ?_) ?_
    | subst x
    | with_reducible split
    | dsimp only

theorem execCkmarkStart_good {pq : List Instr × Prop} {s : State} (hs : Good pq s) : GoodOut pq (execCkmarkStart s) := by
  unfold execCkmarkStart
  repeat' first
    | with_reducible assumption
    | with_reducible refine goodOut_next ?_
    | (lift_lets; intro x; refine (fun (hx : Good pq x) => ?_) ?_; clear_value x)
    | (intro x; subst x)
    | with_reducible refine State.withLdg_good _ ?_
    | with_reducible refine ite_good (fun _ => ?_) (fun _ => ?_)
    | with_reducible refine iteOut_good (fun _ => ?_) (fun _ => ?_)
    | with_reducible refine foldl_good (fun _ _ _ => ?_) ?_
    | with_reducible refine foldl_fst (fun _ _ _ => ?_) ?_
    | with_reducible refine foldl_snd (fun _ _ _ => ?_) ?_
    | subst x
    | with_reducible split
    | dsimp only

theorem execCkmarkEnd_good {pq : List Instr × Prop} {s : State} (hs : Good pq s) : GoodOut pq (execCkmarkEnd s) := by
  unfold execCkmarkEnd
  repeat' first
    | with_reducible assumption
    | with_reducible refine goodOut_next ?_
    | (lift_lets; intro x; refine (fun (hx : Good pq x) => ?_) ?_; clear_value x)
    | (intro x; subst x)
    | with_reducible refine State.badSeq_good ?_
    | with_reducible refine State.ckShow_good ?_
    | with_reducible refine State.withLdg_good _ ?_
    | with_reducible refine ite_good (fun _ => ?_) (fun _ => ?_)
    | with_reducible refine iteOut_good (fun _ => ?_) (fun _ => ?_)
    | with_reducible refine foldl_good (fun _ _ _ => ?_) ?_
    | with_reducible refine foldl_fst (fun _ _ _ => ?_) ?_
    | with_reducible refine foldl_snd (fun _ _ _ => ?_) ?_
    | subst x
    | with_reducible split
    | dsimp only

theorem execCkmarkEmpty_good {pq : List Instr × Prop} {s : State} (hs : Good pq s) : GoodOut pq (execCkmarkEmpty s) := by
  unfold execCkmarkEmpty
  repeat' first
    | with_reducible assumption
    | with_reducible refine goodOut_next ?_
    | (lift_lets; intro x; refine (fun (hx : Good pq x) => ?_) ?_; clear_value x)
    | (intro x; subst x)
    | with_reducible refine State.setFld_good ?_
    | with_reducible refine State.withLdg_good _ ?_
    | with_reducible refine ite_good (fun _ => ?_) (fun _ => ?_)
    | with_reducible refine iteOut_good (fun _ => ?_) (fun _ => ?_)
    | with_reducible refine foldl_good (fun _ _ _ => ?_) ?_
    | with_reducible refine foldl_fst (fun _ _ _ => ?_) ?_
    | with_reducible refine foldl_snd (fun _ _ _ => ?_) ?_
    | subst x
    | with_reducible split
    | dsimp only

theorem execLdgCkWrite_good {pq : List Instr × Prop} {obs : Bool} {data : W64} {s : State} (hs : Good pq s) : GoodOut pq (execLdgCkWrite obs data s) := by
  unfold execLdgCkWrite
  repeat' first
    | with_reducible assumption
    | with_reducible refine goodOut_next ?_
    | (lift_lets; intro x; refine (fun (hx : Good pq x) => ?_) ?_; clear_value x)
    | (intro x; subst x)
    | with_reducible refine State.ckShow_good ?_
    | with_reducible refine State.setReg_good ?_
    | with_reducible refine ite_good (fun _ => ?_) (fun _ => ?_)
    | with_reducible refine iteOut_good (fun _ => ?_) (fun _ => ?_)
    | with_reducible refine foldl_good (fun _ _ _ => ?_) ?_
    | with_reducible refine foldl_fst (fun _ _ _ => ?_) ?_
    | with_reducible refine foldl_snd (fun _ _ _ => ?_) ?_
    | subst x
    | with_reducible split
    | dsimp only

end Sys2Proof.Machine
end

