-- ==== Sys2Proof/Laws/GoodHost.lean ====
section
/-! SUPPORT. Good is kept by power, the directory, the host link and boot. -/

namespace Sys2Proof.Machine
-- The tactic scripts here have one shape for every operation, so some of their steps do nothing for some operations.
set_option linter.unusedTactic false
set_option linter.unreachableTactic false

theorem State.onDevs_good {pq : List Instr × Prop} {s : State} {f : Flash → Flash} (hs : Good pq s) : Good pq (State.onDevs s f) := by
  unfold State.onDevs
  repeat' first
    | with_reducible assumption
    | with_reducible refine goodOut_next ?_
    | (lift_lets; intro x; refine (fun (hx : Good pq x) => ?_) ?_; clear_value x)
    | (intro x; subst x)
    | with_reducible refine State.withSst_good _ ?_
    | with_reducible refine ite_good (fun _ => ?_) (fun _ => ?_)
    | with_reducible refine iteOut_good (fun _ => ?_) (fun _ => ?_)
    | with_reducible refine foldl_good (fun _ _ _ => ?_) ?_
    | with_reducible refine foldl_fst (fun _ _ _ => ?_) ?_
    | with_reducible refine foldl_snd (fun _ _ _ => ?_) ?_
    | subst x
    | with_reducible split
    | dsimp only

theorem execSstRecordWrite_good {pq : List Instr × Prop} {s : State} (hs : Good pq s) : GoodOut pq (execSstRecordWrite s) := by
  unfold execSstRecordWrite
  repeat' first
    | with_reducible assumption
    | with_reducible refine goodOut_next ?_
    | (lift_lets; intro x; refine (fun (hx : Good pq x) => ?_) ?_; clear_value x)
    | (intro x; subst x)
    | with_reducible refine State.addFld_good ?_
    | with_reducible refine State.onDevs_good ?_
    | with_reducible refine State.setBank_good ?_
    | with_reducible refine State.wait_good ?_
    | with_reducible refine State.withSst_good _ ?_
    | with_reducible refine ite_good (fun _ => ?_) (fun _ => ?_)
    | with_reducible refine iteOut_good (fun _ => ?_) (fun _ => ?_)
    | with_reducible refine foldl_good (fun _ _ _ => ?_) ?_
    | with_reducible refine foldl_fst (fun _ _ _ => ?_) ?_
    | with_reducible refine foldl_snd (fun _ _ _ => ?_) ?_
    | subst x
    | with_reducible split
    | dsimp only

theorem execSstBankErase_good {pq : List Instr × Prop} {s : State} (hs : Good pq s) : GoodOut pq (execSstBankErase s) := by
  unfold execSstBankErase
  repeat' first
    | with_reducible assumption
    | with_reducible refine goodOut_next ?_
    | (lift_lets; intro x; refine (fun (hx : Good pq x) => ?_) ?_; clear_value x)
    | (intro x; subst x)
    | with_reducible refine State.onDevs_good ?_
    | with_reducible refine State.setBank_good ?_
    | with_reducible refine State.withSst_good _ ?_
    | with_reducible refine ite_good (fun _ => ?_) (fun _ => ?_)
    | with_reducible refine iteOut_good (fun _ => ?_) (fun _ => ?_)
    | with_reducible refine foldl_good (fun _ _ _ => ?_) ?_
    | with_reducible refine foldl_fst (fun _ _ _ => ?_) ?_
    | with_reducible refine foldl_snd (fun _ _ _ => ?_) ?_
    | subst x
    | with_reducible split
    | dsimp only

theorem execSstCompact_good {pq : List Instr × Prop} {s : State} (hs : Good pq s) : GoodOut pq (execSstCompact s) := by
  unfold execSstCompact
  repeat' first
    | with_reducible assumption
    | with_reducible refine goodOut_next ?_
    | (lift_lets; intro x; refine (fun (hx : Good pq x) => ?_) ?_; clear_value x)
    | (intro x; subst x)
    | with_reducible refine State.onDevs_good ?_
    | with_reducible refine State.setBank_good ?_
    | with_reducible refine State.setFld_good ?_
    | with_reducible refine State.withSst_good _ ?_
    | with_reducible refine State.wrapFld_good ?_
    | with_reducible refine ite_good (fun _ => ?_) (fun _ => ?_)
    | with_reducible refine iteOut_good (fun _ => ?_) (fun _ => ?_)
    | with_reducible refine foldl_good (fun _ _ _ => ?_) ?_
    | with_reducible refine foldl_fst (fun _ _ _ => ?_) ?_
    | with_reducible refine foldl_snd (fun _ _ _ => ?_) ?_
    | subst x
    | with_reducible split
    | dsimp only

theorem execSstRselWrite_good {pq : List Instr × Prop} {data : W64} {s : State} (hs : Good pq s) : GoodOut pq (execSstRselWrite data s) := by
  unfold execSstRselWrite
  repeat' first
    | with_reducible assumption
    | with_reducible refine goodOut_next ?_
    | (lift_lets; intro x; refine (fun (hx : Good pq x) => ?_) ?_; clear_value x)
    | (intro x; subst x)
    | with_reducible refine State.plainWrite_good ?_
    | with_reducible refine State.withSst_good _ ?_
    | with_reducible refine ite_good (fun _ => ?_) (fun _ => ?_)
    | with_reducible refine iteOut_good (fun _ => ?_) (fun _ => ?_)
    | with_reducible refine foldl_good (fun _ _ _ => ?_) ?_
    | with_reducible refine foldl_fst (fun _ _ _ => ?_) ?_
    | with_reducible refine foldl_snd (fun _ _ _ => ?_) ?_
    | subst x
    | with_reducible split
    | dsimp only

theorem execSstRdataRead_good {pq : List Instr × Prop} {s : State} (hs : Good pq s) : GoodOut pq (execSstRdataRead s) := by
  unfold execSstRdataRead
  repeat' first
    | with_reducible assumption
    | with_reducible refine goodOut_next ?_
    | (lift_lets; intro x; refine (fun (hx : Good pq x) => ?_) ?_; clear_value x)
    | (intro x; subst x)
    | with_reducible refine State.out_good ?_
    | with_reducible refine State.withSst_good _ ?_
    | with_reducible refine ite_good (fun _ => ?_) (fun _ => ?_)
    | with_reducible refine iteOut_good (fun _ => ?_) (fun _ => ?_)
    | with_reducible refine foldl_good (fun _ _ _ => ?_) ?_
    | with_reducible refine foldl_fst (fun _ _ _ => ?_) ?_
    | with_reducible refine foldl_snd (fun _ _ _ => ?_) ?_
    | subst x
    | with_reducible split
    | dsimp only

theorem State.episode_good {pq : List Instr × Prop} {s : State} {old : Nat} {new : Nat} (hs : Good pq s) : Good pq (State.episode s old new) := by
  unfold State.episode
  repeat' first
    | with_reducible assumption
    | with_reducible refine goodOut_next ?_
    | (lift_lets; intro x; refine (fun (hx : Good pq x) => ?_) ?_; clear_value x)
    | (intro x; subst x)
    | with_reducible refine State.addFld_good ?_
    | with_reducible refine State.event_good ?_
    | with_reducible refine State.setErr_good ?_
    | with_reducible refine State.withPwr_good _ ?_
    | with_reducible refine ite_good (fun _ => ?_) (fun _ => ?_)
    | with_reducible refine iteOut_good (fun _ => ?_) (fun _ => ?_)
    | with_reducible refine foldl_good (fun _ _ _ => ?_) ?_
    | with_reducible refine foldl_fst (fun _ _ _ => ?_) ?_
    | with_reducible refine foldl_snd (fun _ _ _ => ?_) ?_
    | subst x
    | with_reducible split
    | dsimp only

theorem execPwrTick_good {pq : List Instr × Prop} {counts : List Nat} {s : State} (hs : Good pq s) : GoodOut pq (execPwrTick counts s) := by
  unfold execPwrTick
  repeat' first
    | with_reducible assumption
    | with_reducible refine goodOut_next ?_
    | (lift_lets; intro x; refine (fun (hx : Good pq x) => ?_) ?_; clear_value x)
    | (intro x; subst x)
    | with_reducible refine State.episode_good ?_
    | with_reducible refine State.setFld_good ?_
    | with_reducible refine State.withPwr_good _ ?_
    | with_reducible refine ite_good (fun _ => ?_) (fun _ => ?_)
    | with_reducible refine iteOut_good (fun _ => ?_) (fun _ => ?_)
    | with_reducible refine foldl_good (fun _ _ _ => ?_) ?_
    | with_reducible refine foldl_fst (fun _ _ _ => ?_) ?_
    | with_reducible refine foldl_snd (fun _ _ _ => ?_) ?_
    | subst x
    | with_reducible split
    | dsimp only

theorem State.pwrStart_good {pq : List Instr × Prop} {s : State} (hs : Good pq s) : Good pq (State.pwrStart s) := by
  unfold State.pwrStart
  repeat' first
    | with_reducible assumption
    | with_reducible refine goodOut_next ?_
    | (lift_lets; intro x; refine (fun (hx : Good pq x) => ?_) ?_; clear_value x)
    | (intro x; subst x)
    | with_reducible refine State.setFld_good ?_
    | with_reducible refine State.withPwr_good _ ?_
    | with_reducible refine ite_good (fun _ => ?_) (fun _ => ?_)
    | with_reducible refine iteOut_good (fun _ => ?_) (fun _ => ?_)
    | with_reducible refine foldl_good (fun _ _ _ => ?_) ?_
    | with_reducible refine foldl_fst (fun _ _ _ => ?_) ?_
    | with_reducible refine foldl_snd (fun _ _ _ => ?_) ?_
    | subst x
    | with_reducible split
    | dsimp only

theorem execPwrCaplogRead_good {pq : List Instr × Prop} {s : State} (hs : Good pq s) : GoodOut pq (execPwrCaplogRead s) := by
  unfold execPwrCaplogRead
  repeat' first
    | with_reducible assumption
    | with_reducible refine goodOut_next ?_
    | (lift_lets; intro x; refine (fun (hx : Good pq x) => ?_) ?_; clear_value x)
    | (intro x; subst x)
    | with_reducible refine State.readClear_good ?_
    | with_reducible refine ite_good (fun _ => ?_) (fun _ => ?_)
    | with_reducible refine iteOut_good (fun _ => ?_) (fun _ => ?_)
    | with_reducible refine foldl_good (fun _ _ _ => ?_) ?_
    | with_reducible refine foldl_fst (fun _ _ _ => ?_) ?_
    | with_reducible refine foldl_snd (fun _ _ _ => ?_) ?_
    | subst x
    | with_reducible split
    | dsimp only

theorem execBmBmlimWrite_good {pq : List Instr × Prop} {v : W16} {s : State} (hs : Good pq s) : GoodOut pq (execBmBmlimWrite v s) := by
  unfold execBmBmlimWrite
  repeat' first
    | with_reducible assumption
    | with_reducible refine goodOut_next ?_
    | (lift_lets; intro x; refine (fun (hx : Good pq x) => ?_) ?_; clear_value x)
    | (intro x; subst x)
    | with_reducible refine State.event_good ?_
    | with_reducible refine State.setErr_good ?_
    | with_reducible refine State.setFld_good ?_
    | with_reducible refine ite_good (fun _ => ?_) (fun _ => ?_)
    | with_reducible refine iteOut_good (fun _ => ?_) (fun _ => ?_)
    | with_reducible refine foldl_good (fun _ _ _ => ?_) ?_
    | with_reducible refine foldl_fst (fun _ _ _ => ?_) ?_
    | with_reducible refine foldl_snd (fun _ _ _ => ?_) ?_
    | subst x
    | with_reducible split
    | dsimp only

theorem State.islTemp_good {pq : List Instr × Prop} {s : State} {d : Nat} {k : Nat} {temp : W16} (hs : Good pq s) : Good pq (State.islTemp s d k temp) := by
  unfold State.islTemp
  repeat' first
    | with_reducible assumption
    | with_reducible refine goodOut_next ?_
    | (lift_lets; intro x; refine (fun (hx : Good pq x) => ?_) ?_; clear_value x)
    | (intro x; subst x)
    | with_reducible refine State.setFld_good ?_
    | with_reducible refine ite_good (fun _ => ?_) (fun _ => ?_)
    | with_reducible refine iteOut_good (fun _ => ?_) (fun _ => ?_)
    | with_reducible refine foldl_good (fun _ _ _ => ?_) ?_
    | with_reducible refine foldl_fst (fun _ _ _ => ?_) ?_
    | with_reducible refine foldl_snd (fun _ _ _ => ?_) ?_
    | subst x
    | with_reducible split
    | dsimp only

theorem execTjcapStep_good {pq : List Instr × Prop} {hot : Bool} {d : Die} {k : Fin 35} {temp : W16} {s : State} (hs : Good pq s) : GoodOut pq (execTjcapStep hot d k temp s) := by
  unfold execTjcapStep
  repeat' first
    | with_reducible assumption
    | with_reducible refine goodOut_next ?_
    | (lift_lets; intro x; refine (fun (hx : Good pq x) => ?_) ?_; clear_value x)
    | (intro x; subst x)
    | with_reducible refine State.event_good ?_
    | with_reducible refine State.islTemp_good ?_
    | with_reducible refine State.setErr_good ?_
    | with_reducible refine State.setFld_good ?_
    | with_reducible refine State.withPwr_good _ ?_
    | with_reducible refine ite_good (fun _ => ?_) (fun _ => ?_)
    | with_reducible refine iteOut_good (fun _ => ?_) (fun _ => ?_)
    | with_reducible refine foldl_good (fun _ _ _ => ?_) ?_
    | with_reducible refine foldl_fst (fun _ _ _ => ?_) ?_
    | with_reducible refine foldl_snd (fun _ _ _ => ?_) ?_
    | subst x
    | with_reducible split
    | dsimp only

theorem execThermtrip_good {pq : List Instr × Prop} {sn : Sensor} {temp : W16} {s : State} (hs : Good pq s) : GoodOut pq (execThermtrip sn temp s) := by
  unfold execThermtrip
  repeat' first
    | with_reducible assumption
    | with_reducible refine goodOut_next ?_
    | (lift_lets; intro x; refine (fun (hx : Good pq x) => ?_) ?_; clear_value x)
    | (intro x; subst x)
    | with_reducible refine State.islTemp_good ?_
    | with_reducible refine State.setFld_good ?_
    | with_reducible refine State.trip_good ?_
    | with_reducible refine ite_good (fun _ => ?_) (fun _ => ?_)
    | with_reducible refine iteOut_good (fun _ => ?_) (fun _ => ?_)
    | with_reducible refine foldl_good (fun _ _ _ => ?_) ?_
    | with_reducible refine foldl_fst (fun _ _ _ => ?_) ?_
    | with_reducible refine foldl_snd (fun _ _ _ => ?_) ?_
    | subst x
    | with_reducible split
    | dsimp only

theorem State.setWarn_good {pq : List Instr × Prop} {s : State} {d : Nat} {k : Nat} {w : Option Warn} (hs : Good pq s) : Good pq (State.setWarn s d k w) := by
  unfold State.setWarn
  repeat' first
    | with_reducible assumption
    | with_reducible refine goodOut_next ?_
    | (lift_lets; intro x; refine (fun (hx : Good pq x) => ?_) ?_; clear_value x)
    | (intro x; subst x)
    | with_reducible refine State.setReg_good ?_
    | with_reducible refine State.withPlat_good _ ?_
    | with_reducible refine ite_good (fun _ => ?_) (fun _ => ?_)
    | with_reducible refine iteOut_good (fun _ => ?_) (fun _ => ?_)
    | with_reducible refine foldl_good (fun _ _ _ => ?_) ?_
    | with_reducible refine foldl_fst (fun _ _ _ => ?_) ?_
    | with_reducible refine foldl_snd (fun _ _ _ => ?_) ?_
    | subst x
    | with_reducible split
    | dsimp only

theorem State.countStretch_good {pq : List Instr × Prop} {s : State} {d : Nat} {k : Nat} (hs : Good pq s) : Good pq (State.countStretch s d k) := by
  unfold State.countStretch
  repeat' first
    | with_reducible assumption
    | with_reducible refine goodOut_next ?_
    | (lift_lets; intro x; refine (fun (hx : Good pq x) => ?_) ?_; clear_value x)
    | (intro x; subst x)
    | with_reducible refine State.addFld_good ?_
    | with_reducible refine State.setWarn_good ?_
    | with_reducible refine ite_good (fun _ => ?_) (fun _ => ?_)
    | with_reducible refine iteOut_good (fun _ => ?_) (fun _ => ?_)
    | with_reducible refine foldl_good (fun _ _ _ => ?_) ?_
    | with_reducible refine foldl_fst (fun _ _ _ => ?_) ?_
    | with_reducible refine foldl_snd (fun _ _ _ => ?_) ?_
    | subst x
    | with_reducible split
    | dsimp only

theorem execIslStretchRead_good {pq : List Instr × Prop} {d : Die} {k : Fin 35} {s : State} (hs : Good pq s) : GoodOut pq (execIslStretchRead d k s) := by
  unfold execIslStretchRead
  repeat' first
    | with_reducible assumption
    | with_reducible refine goodOut_next ?_
    | (lift_lets; intro x; refine (fun (hx : Good pq x) => ?_) ?_; clear_value x)
    | (intro x; subst x)
    | with_reducible refine State.countStretch_good ?_
    | with_reducible refine State.readClear_good ?_
    | with_reducible refine ite_good (fun _ => ?_) (fun _ => ?_)
    | with_reducible refine iteOut_good (fun _ => ?_) (fun _ => ?_)
    | with_reducible refine foldl_good (fun _ _ _ => ?_) ?_
    | with_reducible refine foldl_fst (fun _ _ _ => ?_) ?_
    | with_reducible refine foldl_snd (fun _ _ _ => ?_) ?_
    | subst x
    | with_reducible split
    | dsimp only

theorem State.capDroop_good {pq : List Instr × Prop} {s : State} {d : Nat} (hs : Good pq s) : Good pq (State.capDroop s d) := by
  unfold State.capDroop
  repeat' first
    | with_reducible assumption
    | with_reducible refine goodOut_next ?_
    | (lift_lets; intro x; refine (fun (hx : Good pq x) => ?_) ?_; clear_value x)
    | (intro x; subst x)
    | with_reducible refine State.setFld_good ?_
    | with_reducible refine ite_good (fun _ => ?_) (fun _ => ?_)
    | with_reducible refine iteOut_good (fun _ => ?_) (fun _ => ?_)
    | with_reducible refine foldl_good (fun _ _ _ => ?_) ?_
    | with_reducible refine foldl_fst (fun _ _ _ => ?_) ?_
    | with_reducible refine foldl_snd (fun _ _ _ => ?_) ?_
    | subst x
    | with_reducible split
    | dsimp only

theorem execDroopWarnAssert_good {pq : List Instr × Prop} {d : Die} {k : Fin 35} {mv : W16} {s : State} (hs : Good pq s) : GoodOut pq (execDroopWarnAssert d k mv s) := by
  unfold execDroopWarnAssert
  repeat' first
    | with_reducible assumption
    | with_reducible refine goodOut_next ?_
    | (lift_lets; intro x; refine (fun (hx : Good pq x) => ?_) ?_; clear_value x)
    | (intro x; subst x)
    | with_reducible refine State.addFld_good ?_
    | with_reducible refine State.capDroop_good ?_
    | with_reducible refine State.setWarn_good ?_
    | with_reducible refine ite_good (fun _ => ?_) (fun _ => ?_)
    | with_reducible refine iteOut_good (fun _ => ?_) (fun _ => ?_)
    | with_reducible refine foldl_good (fun _ _ _ => ?_) ?_
    | with_reducible refine foldl_fst (fun _ _ _ => ?_) ?_
    | with_reducible refine foldl_snd (fun _ _ _ => ?_) ?_
    | subst x
    | with_reducible split
    | dsimp only

theorem State.endWarn_good {pq : List Instr × Prop} {s : State} {d : Nat} {k : Nat} {mv : Nat} (hs : Good pq s) : Good pq (State.endWarn s d k mv) := by
  unfold State.endWarn
  repeat' first
    | with_reducible assumption
    | with_reducible refine goodOut_next ?_
    | (lift_lets; intro x; refine (fun (hx : Good pq x) => ?_) ?_; clear_value x)
    | (intro x; subst x)
    | with_reducible refine State.addFld_good ?_
    | with_reducible refine State.countStretch_good ?_
    | with_reducible refine State.event_good ?_
    | with_reducible refine State.setErr_good ?_
    | with_reducible refine State.setReg_good ?_
    | with_reducible refine State.setWarn_good ?_
    | with_reducible refine ite_good (fun _ => ?_) (fun _ => ?_)
    | with_reducible refine iteOut_good (fun _ => ?_) (fun _ => ?_)
    | with_reducible refine foldl_good (fun _ _ _ => ?_) ?_
    | with_reducible refine foldl_fst (fun _ _ _ => ?_) ?_
    | with_reducible refine foldl_snd (fun _ _ _ => ?_) ?_
    | subst x
    | with_reducible split
    | dsimp only

theorem execDroopWarnEnd_good {pq : List Instr × Prop} {d : Die} {k : Fin 35} {mv : W16} {s : State} (hs : Good pq s) : GoodOut pq (execDroopWarnEnd d k mv s) := by
  unfold execDroopWarnEnd
  repeat' first
    | with_reducible assumption
    | with_reducible refine goodOut_next ?_
    | (lift_lets; intro x; refine (fun (hx : Good pq x) => ?_) ?_; clear_value x)
    | (intro x; subst x)
    | with_reducible refine State.endWarn_good ?_
    | with_reducible refine ite_good (fun _ => ?_) (fun _ => ?_)
    | with_reducible refine iteOut_good (fun _ => ?_) (fun _ => ?_)
    | with_reducible refine foldl_good (fun _ _ _ => ?_) ?_
    | with_reducible refine foldl_fst (fun _ _ _ => ?_) ?_
    | with_reducible refine foldl_snd (fun _ _ _ => ?_) ?_
    | subst x
    | with_reducible split
    | dsimp only

theorem State.endWarns_good {pq : List Instr × Prop} {s : State} {d : Nat} {ks : List Nat} (hs : Good pq s) : Good pq (State.endWarns s d ks) := by
  unfold State.endWarns
  repeat' first
    | with_reducible assumption
    | with_reducible refine goodOut_next ?_
    | (lift_lets; intro x; refine (fun (hx : Good pq x) => ?_) ?_; clear_value x)
    | (intro x; subst x)
    | with_reducible refine State.endWarn_good ?_
    | with_reducible refine ite_good (fun _ => ?_) (fun _ => ?_)
    | with_reducible refine iteOut_good (fun _ => ?_) (fun _ => ?_)
    | with_reducible refine foldl_good (fun _ _ _ => ?_) ?_
    | with_reducible refine foldl_fst (fun _ _ _ => ?_) ?_
    | with_reducible refine foldl_snd (fun _ _ _ => ?_) ?_
    | subst x
    | with_reducible split
    | dsimp only

theorem execDrpCntRead_good {pq : List Instr × Prop} {d : Die} {s : State} (hs : Good pq s) : GoodOut pq (execDrpCntRead d s) := by
  unfold execDrpCntRead
  repeat' first
    | with_reducible assumption
    | with_reducible refine goodOut_next ?_
    | (lift_lets; intro x; refine (fun (hx : Good pq x) => ?_) ?_; clear_value x)
    | (intro x; subst x)
    | with_reducible refine State.readClear_good ?_
    | with_reducible refine ite_good (fun _ => ?_) (fun _ => ?_)
    | with_reducible refine iteOut_good (fun _ => ?_) (fun _ => ?_)
    | with_reducible refine foldl_good (fun _ _ _ => ?_) ?_
    | with_reducible refine foldl_fst (fun _ _ _ => ?_) ?_
    | with_reducible refine foldl_snd (fun _ _ _ => ?_) ?_
    | subst x
    | with_reducible split
    | dsimp only

theorem State.noteDir_good {pq : List Instr × Prop} {s : State} {old : State} (hs : Good pq s) : Good pq (State.noteDir s old) := by
  unfold State.noteDir
  repeat' first
    | with_reducible assumption
    | with_reducible refine goodOut_next ?_
    | (lift_lets; intro x; refine (fun (hx : Good pq x) => ?_) ?_; clear_value x)
    | (intro x; subst x)
    | with_reducible refine State.setErr_good ?_
    | with_reducible refine State.wrapFld_good ?_
    | with_reducible refine ite_good (fun _ => ?_) (fun _ => ?_)
    | with_reducible refine iteOut_good (fun _ => ?_) (fun _ => ?_)
    | with_reducible refine foldl_good (fun _ _ _ => ?_) ?_
    | with_reducible refine foldl_fst (fun _ _ _ => ?_) ?_
    | with_reducible refine foldl_snd (fun _ _ _ => ?_) ?_
    | subst x
    | with_reducible split
    | dsimp only

theorem State.setLane_good {pq : List Instr × Prop} {s : State} {b : Bool} {st : Nat} (hs : Good pq s) : Good pq (State.setLane s b st) := by
  unfold State.setLane
  repeat' first
    | with_reducible assumption
    | with_reducible refine goodOut_next ?_
    | (lift_lets; intro x; refine (fun (hx : Good pq x) => ?_) ?_; clear_value x)
    | (intro x; subst x)
    | with_reducible refine State.setFld_good ?_
    | with_reducible refine ite_good (fun _ => ?_) (fun _ => ?_)
    | with_reducible refine iteOut_good (fun _ => ?_) (fun _ => ?_)
    | with_reducible refine foldl_good (fun _ _ _ => ?_) ?_
    | with_reducible refine foldl_fst (fun _ _ _ => ?_) ?_
    | with_reducible refine foldl_snd (fun _ _ _ => ?_) ?_
    | subst x
    | with_reducible split
    | dsimp only

theorem State.showLaneDowns_good {pq : List Instr × Prop} {s : State} (hs : Good pq s) : Good pq (State.showLaneDowns s) := by
  unfold State.showLaneDowns
  repeat' first
    | with_reducible assumption
    | with_reducible refine goodOut_next ?_
    | (lift_lets; intro x; refine (fun (hx : Good pq x) => ?_) ?_; clear_value x)
    | (intro x; subst x)
    | with_reducible refine State.setFld_good ?_
    | with_reducible refine ite_good (fun _ => ?_) (fun _ => ?_)
    | with_reducible refine iteOut_good (fun _ => ?_) (fun _ => ?_)
    | with_reducible refine foldl_good (fun _ _ _ => ?_) ?_
    | with_reducible refine foldl_fst (fun _ _ _ => ?_) ?_
    | with_reducible refine foldl_snd (fun _ _ _ => ?_) ?_
    | subst x
    | with_reducible split
    | dsimp only

theorem State.activate_good {pq : List Instr × Prop} {s : State} {b : Bool} (hs : Good pq s) : Good pq (State.activate s b) := by
  unfold State.activate
  repeat' first
    | with_reducible assumption
    | with_reducible refine goodOut_next ?_
    | (lift_lets; intro x; refine (fun (hx : Good pq x) => ?_) ?_; clear_value x)
    | (intro x; subst x)
    | with_reducible refine State.setBitF_good ?_
    | with_reducible refine State.setLane_good ?_
    | with_reducible refine ite_good (fun _ => ?_) (fun _ => ?_)
    | with_reducible refine iteOut_good (fun _ => ?_) (fun _ => ?_)
    | with_reducible refine foldl_good (fun _ _ _ => ?_) ?_
    | with_reducible refine foldl_fst (fun _ _ _ => ?_) ?_
    | with_reducible refine foldl_snd (fun _ _ _ => ?_) ?_
    | subst x
    | with_reducible split
    | dsimp only

theorem State.endTick_good {pq : List Instr × Prop} {s : State} {b : Bool} (hs : Good pq s) : Good pq (State.endTick s b) := by
  unfold State.endTick
  repeat' first
    | with_reducible assumption
    | with_reducible refine goodOut_next ?_
    | (lift_lets; intro x; refine (fun (hx : Good pq x) => ?_) ?_; clear_value x)
    | (intro x; subst x)
    | with_reducible refine State.withHost_good _ ?_
    | with_reducible refine ite_good (fun _ => ?_) (fun _ => ?_)
    | with_reducible refine iteOut_good (fun _ => ?_) (fun _ => ?_)
    | with_reducible refine foldl_good (fun _ _ _ => ?_) ?_
    | with_reducible refine foldl_fst (fun _ _ _ => ?_) ?_
    | with_reducible refine foldl_snd (fun _ _ _ => ?_) ?_
    | subst x
    | with_reducible split
    | dsimp only

theorem State.laneOff_good {pq : List Instr × Prop} {s : State} {b : Bool} {st : Nat} (hs : Good pq s) : Good pq (State.laneOff s b st) := by
  unfold State.laneOff
  repeat' first
    | with_reducible assumption
    | with_reducible refine goodOut_next ?_
    | (lift_lets; intro x; refine (fun (hx : Good pq x) => ?_) ?_; clear_value x)
    | (intro x; subst x)
    | with_reducible refine State.activate_good ?_
    | with_reducible refine State.endTick_good ?_
    | with_reducible refine State.setErr_good ?_
    | with_reducible refine State.setLane_good ?_
    | with_reducible refine State.withHost_good _ ?_
    | with_reducible refine ite_good (fun _ => ?_) (fun _ => ?_)
    | with_reducible refine iteOut_good (fun _ => ?_) (fun _ => ?_)
    | with_reducible refine foldl_good (fun _ _ _ => ?_) ?_
    | with_reducible refine foldl_fst (fun _ _ _ => ?_) ?_
    | with_reducible refine foldl_snd (fun _ _ _ => ?_) ?_
    | subst x
    | with_reducible split
    | dsimp only

theorem State.liftLanes_good {pq : List Instr × Prop} {s : State} (hs : Good pq s) : Good pq (State.liftLanes s) := by
  unfold State.liftLanes
  repeat' first
    | with_reducible assumption
    | with_reducible refine goodOut_next ?_
    | (lift_lets; intro x; refine (fun (hx : Good pq x) => ?_) ?_; clear_value x)
    | (intro x; subst x)
    | with_reducible refine State.liftFence_good ?_
    | with_reducible refine State.setBitF_good ?_
    | with_reducible refine State.setLane_good ?_
    | with_reducible refine ite_good (fun _ => ?_) (fun _ => ?_)
    | with_reducible refine iteOut_good (fun _ => ?_) (fun _ => ?_)
    | with_reducible refine foldl_good (fun _ _ _ => ?_) ?_
    | with_reducible refine foldl_fst (fun _ _ _ => ?_) ?_
    | with_reducible refine foldl_snd (fun _ _ _ => ?_) ?_
    | subst x
    | with_reducible split
    | dsimp only

theorem State.fenceLane_good {pq : List Instr × Prop} {s : State} {b : Bool} {cause : Nat} (hs : Good pq s) : Good pq (State.fenceLane s b cause) := by
  unfold State.fenceLane
  repeat' first
    | with_reducible assumption
    | with_reducible refine goodOut_next ?_
    | (lift_lets; intro x; refine (fun (hx : Good pq x) => ?_) ?_; clear_value x)
    | (intro x; subst x)
    | with_reducible refine State.fenceUnit_good ?_
    | with_reducible refine State.laneOff_good ?_
    | with_reducible refine State.liftLanes_good ?_
    | with_reducible refine State.noteDir_good ?_
    | with_reducible refine State.setBitF_good ?_
    | with_reducible refine State.setErr_good ?_
    | with_reducible refine ite_good (fun _ => ?_) (fun _ => ?_)
    | with_reducible refine iteOut_good (fun _ => ?_) (fun _ => ?_)
    | with_reducible refine foldl_good (fun _ _ _ => ?_) ?_
    | with_reducible refine foldl_fst (fun _ _ _ => ?_) ?_
    | with_reducible refine foldl_snd (fun _ _ _ => ?_) ?_
    | subst x
    | with_reducible split
    | dsimp only

theorem State.laneDown_good {pq : List Instr × Prop} {s : State} {b : Bool} {counted : Bool} {f : Fld} (hs : Good pq s) : Good pq (State.laneDown s b counted f) := by
  unfold State.laneDown
  repeat' first
    | with_reducible assumption
    | with_reducible refine goodOut_next ?_
    | (lift_lets; intro x; refine (fun (hx : Good pq x) => ?_) ?_; clear_value x)
    | (intro x; subst x)
    | with_reducible refine State.fenceLane_good ?_
    | with_reducible refine State.laneOff_good ?_
    | with_reducible refine State.noteDir_good ?_
    | with_reducible refine State.putUnit_good ?_
    | with_reducible refine State.setErr_good ?_
    | with_reducible refine State.setFld_good ?_
    | with_reducible refine ite_good (fun _ => ?_) (fun _ => ?_)
    | with_reducible refine iteOut_good (fun _ => ?_) (fun _ => ?_)
    | with_reducible refine foldl_good (fun _ _ _ => ?_) ?_
    | with_reducible refine foldl_fst (fun _ _ _ => ?_) ?_
    | with_reducible refine foldl_snd (fun _ _ _ => ?_) ?_
    | subst x
    | with_reducible split
    | dsimp only

theorem State.laneFails_good {pq : List Instr × Prop} {s : State} {b : Bool} (hs : Good pq s) : Good pq (State.laneFails s b) := by
  unfold State.laneFails
  repeat' first
    | with_reducible assumption
    | with_reducible refine goodOut_next ?_
    | (lift_lets; intro x; refine (fun (hx : Good pq x) => ?_) ?_; clear_value x)
    | (intro x; subst x)
    | with_reducible refine State.laneDown_good ?_
    | with_reducible refine ite_good (fun _ => ?_) (fun _ => ?_)
    | with_reducible refine iteOut_good (fun _ => ?_) (fun _ => ?_)
    | with_reducible refine foldl_good (fun _ _ _ => ?_) ?_
    | with_reducible refine foldl_fst (fun _ _ _ => ?_) ?_
    | with_reducible refine foldl_snd (fun _ _ _ => ?_) ?_
    | subst x
    | with_reducible split
    | dsimp only

theorem execHlFrameGapTimeout_good {pq : List Instr × Prop} {laneB : Bool} {s : State} (hs : Good pq s) : GoodOut pq (execHlFrameGapTimeout laneB s) := by
  unfold execHlFrameGapTimeout
  repeat' first
    | with_reducible assumption
    | with_reducible refine goodOut_next ?_
    | (lift_lets; intro x; refine (fun (hx : Good pq x) => ?_) ?_; clear_value x)
    | (intro x; subst x)
    | with_reducible refine State.laneFails_good ?_
    | with_reducible refine ite_good (fun _ => ?_) (fun _ => ?_)
    | with_reducible refine iteOut_good (fun _ => ?_) (fun _ => ?_)
    | with_reducible refine foldl_good (fun _ _ _ => ?_) ?_
    | with_reducible refine foldl_fst (fun _ _ _ => ?_) ?_
    | with_reducible refine foldl_snd (fun _ _ _ => ?_) ?_
    | subst x
    | with_reducible split
    | dsimp only

theorem State.bootWait_good {pq : List Instr × Prop} {s : State} (hs : Good pq s) : Good pq (State.bootWait s) := by
  unfold State.bootWait
  repeat' first
    | with_reducible assumption
    | with_reducible refine goodOut_next ?_
    | (lift_lets; intro x; refine (fun (hx : Good pq x) => ?_) ?_; clear_value x)
    | (intro x; subst x)
    | with_reducible refine State.setFld_good ?_
    | with_reducible refine ite_good (fun _ => ?_) (fun _ => ?_)
    | with_reducible refine iteOut_good (fun _ => ?_) (fun _ => ?_)
    | with_reducible refine foldl_good (fun _ _ _ => ?_) ?_
    | with_reducible refine foldl_fst (fun _ _ _ => ?_) ?_
    | with_reducible refine foldl_snd (fun _ _ _ => ?_) ?_
    | subst x
    | with_reducible split
    | dsimp only

theorem State.laneTrainFail_good {pq : List Instr × Prop} {s : State} {b : Bool} {noVersion : Bool} (hs : Good pq s) : Good pq (State.laneTrainFail s b noVersion) := by
  unfold State.laneTrainFail
  repeat' first
    | with_reducible assumption
    | with_reducible refine goodOut_next ?_
    | (lift_lets; intro x; refine (fun (hx : Good pq x) => ?_) ?_; clear_value x)
    | (intro x; subst x)
    | with_reducible refine State.activate_good ?_
    | with_reducible refine State.bootWait_good ?_
    | with_reducible refine State.laneDown_good ?_
    | with_reducible refine State.noteDir_good ?_
    | with_reducible refine ite_good (fun _ => ?_) (fun _ => ?_)
    | with_reducible refine iteOut_good (fun _ => ?_) (fun _ => ?_)
    | with_reducible refine foldl_good (fun _ _ _ => ?_) ?_
    | with_reducible refine foldl_fst (fun _ _ _ => ?_) ?_
    | with_reducible refine foldl_snd (fun _ _ _ => ?_) ?_
    | subst x
    | with_reducible split
    | dsimp only

theorem execHlTrainFail_good {pq : List Instr × Prop} {laneB : Bool} {noVersion : Bool} {s : State} (hs : Good pq s) : GoodOut pq (execHlTrainFail laneB noVersion s) := by
  unfold execHlTrainFail
  repeat' first
    | with_reducible assumption
    | with_reducible refine goodOut_next ?_
    | (lift_lets; intro x; refine (fun (hx : Good pq x) => ?_) ?_; clear_value x)
    | (intro x; subst x)
    | with_reducible refine State.laneTrainFail_good ?_
    | with_reducible refine ite_good (fun _ => ?_) (fun _ => ?_)
    | with_reducible refine iteOut_good (fun _ => ?_) (fun _ => ?_)
    | with_reducible refine foldl_good (fun _ _ _ => ?_) ?_
    | with_reducible refine foldl_fst (fun _ _ _ => ?_) ?_
    | with_reducible refine foldl_snd (fun _ _ _ => ?_) ?_
    | subst x
    | with_reducible split
    | dsimp only

theorem execHlTrainDone_good {pq : List Instr × Prop} {laneB : Bool} {versions : Byte} {s : State} (hs : Good pq s) : GoodOut pq (execHlTrainDone laneB versions s) := by
  unfold execHlTrainDone
  repeat' first
    | with_reducible assumption
    | with_reducible refine goodOut_next ?_
    | (lift_lets; intro x; refine (fun (hx : Good pq x) => ?_) ?_; clear_value x)
    | (intro x; subst x)
    | with_reducible refine State.activate_good ?_
    | with_reducible refine State.bootWait_good ?_
    | with_reducible refine State.endTick_good ?_
    | with_reducible refine State.laneTrainFail_good ?_
    | with_reducible refine State.noteDir_good ?_
    | with_reducible refine State.setFld_good ?_
    | with_reducible refine State.setLane_good ?_
    | with_reducible refine State.withPlat_good _ ?_
    | with_reducible refine ite_good (fun _ => ?_) (fun _ => ?_)
    | with_reducible refine iteOut_good (fun _ => ?_) (fun _ => ?_)
    | with_reducible refine foldl_good (fun _ _ _ => ?_) ?_
    | with_reducible refine foldl_fst (fun _ _ _ => ?_) ?_
    | with_reducible refine foldl_snd (fun _ _ _ => ?_) ?_
    | subst x
    | with_reducible split
    | dsimp only

theorem execHlRetrainTick_good {pq : List Instr × Prop} {s : State} (hs : Good pq s) : GoodOut pq (execHlRetrainTick s) := by
  unfold execHlRetrainTick
  repeat' first
    | with_reducible assumption
    | with_reducible refine goodOut_next ?_
    | (lift_lets; intro x; refine (fun (hx : Good pq x) => ?_) ?_; clear_value x)
    | (intro x; subst x)
    | with_reducible refine State.setLane_good ?_
    | with_reducible refine State.withHost_good _ ?_
    | with_reducible refine ite_good (fun _ => ?_) (fun _ => ?_)
    | with_reducible refine iteOut_good (fun _ => ?_) (fun _ => ?_)
    | with_reducible refine foldl_good (fun _ _ _ => ?_) ?_
    | with_reducible refine foldl_fst (fun _ _ _ => ?_) ?_
    | with_reducible refine foldl_snd (fun _ _ _ => ?_) ?_
    | subst x
    | with_reducible split
    | dsimp only

theorem execHlkSwap_good {pq : List Instr × Prop} {s : State} (hs : Good pq s) : GoodOut pq (execHlkSwap s) := by
  unfold execHlkSwap
  repeat' first
    | with_reducible assumption
    | with_reducible refine goodOut_next ?_
    | (lift_lets; intro x; refine (fun (hx : Good pq x) => ?_) ?_; clear_value x)
    | (intro x; subst x)
    | with_reducible refine State.activate_good ?_
    | with_reducible refine State.badSeq_good ?_
    | with_reducible refine State.noteDir_good ?_
    | with_reducible refine State.setLane_good ?_
    | with_reducible refine ite_good (fun _ => ?_) (fun _ => ?_)
    | with_reducible refine iteOut_good (fun _ => ?_) (fun _ => ?_)
    | with_reducible refine foldl_good (fun _ _ _ => ?_) ?_
    | with_reducible refine foldl_fst (fun _ _ _ => ?_) ?_
    | with_reducible refine foldl_snd (fun _ _ _ => ?_) ?_
    | subst x
    | with_reducible split
    | dsimp only

theorem execHlkRetrain_good {pq : List Instr × Prop} {laneB : Bool} {s : State} (hs : Good pq s) : GoodOut pq (execHlkRetrain laneB s) := by
  unfold execHlkRetrain
  repeat' first
    | with_reducible assumption
    | with_reducible refine goodOut_next ?_
    | (lift_lets; intro x; refine (fun (hx : Good pq x) => ?_) ?_; clear_value x)
    | (intro x; subst x)
    | with_reducible refine State.badSeq_good ?_
    | with_reducible refine State.liftFence_good ?_
    | with_reducible refine State.setBitF_good ?_
    | with_reducible refine State.setLane_good ?_
    | with_reducible refine ite_good (fun _ => ?_) (fun _ => ?_)
    | with_reducible refine iteOut_good (fun _ => ?_) (fun _ => ?_)
    | with_reducible refine foldl_good (fun _ _ _ => ?_) ?_
    | with_reducible refine foldl_fst (fun _ _ _ => ?_) ?_
    | with_reducible refine foldl_snd (fun _ _ _ => ?_) ?_
    | subst x
    | with_reducible split
    | dsimp only

theorem execHlkFence_good {pq : List Instr × Prop} {laneB : Bool} {s : State} (hs : Good pq s) : GoodOut pq (execHlkFence laneB s) := by
  unfold execHlkFence
  repeat' first
    | with_reducible assumption
    | with_reducible refine goodOut_next ?_
    | (lift_lets; intro x; refine (fun (hx : Good pq x) => ?_) ?_; clear_value x)
    | (intro x; subst x)
    | with_reducible refine State.fenceLane_good ?_
    | with_reducible refine ite_good (fun _ => ?_) (fun _ => ?_)
    | with_reducible refine iteOut_good (fun _ => ?_) (fun _ => ?_)
    | with_reducible refine foldl_good (fun _ _ _ => ?_) ?_
    | with_reducible refine foldl_fst (fun _ _ _ => ?_) ?_
    | with_reducible refine foldl_snd (fun _ _ _ => ?_) ?_
    | subst x
    | with_reducible split
    | dsimp only

theorem execHlkCntRead_good {pq : List Instr × Prop} {s : State} (hs : Good pq s) : GoodOut pq (execHlkCntRead s) := by
  unfold execHlkCntRead
  repeat' first
    | with_reducible assumption
    | with_reducible refine goodOut_next ?_
    | (lift_lets; intro x; refine (fun (hx : Good pq x) => ?_) ?_; clear_value x)
    | (intro x; subst x)
    | with_reducible refine State.readClear_good ?_
    | with_reducible refine ite_good (fun _ => ?_) (fun _ => ?_)
    | with_reducible refine iteOut_good (fun _ => ?_) (fun _ => ?_)
    | with_reducible refine foldl_good (fun _ _ _ => ?_) ?_
    | with_reducible refine foldl_fst (fun _ _ _ => ?_) ?_
    | with_reducible refine foldl_snd (fun _ _ _ => ?_) ?_
    | subst x
    | with_reducible split
    | dsimp only

theorem execSqCfgWrite_good {pq : List Instr × Prop} {q : Fin 256} {data : W64} {s : State} (hs : Good pq s) : GoodOut pq (execSqCfgWrite q data s) := by
  unfold execSqCfgWrite
  repeat' first
    | with_reducible assumption
    | with_reducible refine goodOut_next ?_
    | (lift_lets; intro x; refine (fun (hx : Good pq x) => ?_) ?_; clear_value x)
    | (intro x; subst x)
    | with_reducible refine State.badSeq_good ?_
    | with_reducible refine State.lockedWrite_good ?_
    | with_reducible refine State.plainWrite_good ?_
    | with_reducible refine State.setBitF_good ?_
    | with_reducible refine ite_good (fun _ => ?_) (fun _ => ?_)
    | with_reducible refine iteOut_good (fun _ => ?_) (fun _ => ?_)
    | with_reducible refine foldl_good (fun _ _ _ => ?_) ?_
    | with_reducible refine foldl_fst (fun _ _ _ => ?_) ?_
    | with_reducible refine foldl_snd (fun _ _ _ => ?_) ?_
    | subst x
    | with_reducible split
    | dsimp only

theorem execWmarkWrite_good {pq : List Instr × Prop} {s : State} (hs : Good pq s) : GoodOut pq (execWmarkWrite s) := by
  unfold execWmarkWrite
  repeat' first
    | with_reducible assumption
    | with_reducible refine goodOut_next ?_
    | (lift_lets; intro x; refine (fun (hx : Good pq x) => ?_) ?_; clear_value x)
    | (intro x; subst x)
    | with_reducible refine State.storeWmark_good ?_
    | with_reducible refine ite_good (fun _ => ?_) (fun _ => ?_)
    | with_reducible refine iteOut_good (fun _ => ?_) (fun _ => ?_)
    | with_reducible refine foldl_good (fun _ _ _ => ?_) ?_
    | with_reducible refine foldl_fst (fun _ _ _ => ?_) ?_
    | with_reducible refine foldl_snd (fun _ _ _ => ?_) ?_
    | subst x
    | with_reducible split
    | dsimp only

theorem State.injectErr_good {pq : List Instr × Prop} {s : State} {page : Nat} {data : W64} (hs : Good pq s) : Good pq (State.injectErr s page data) := by
  unfold State.injectErr
  repeat' first
    | with_reducible assumption
    | with_reducible refine goodOut_next ?_
    | (lift_lets; intro x; refine (fun (hx : Good pq x) => ?_) ?_; clear_value x)
    | (intro x; subst x)
    | with_reducible refine State.setErrBit_good ?_
    | with_reducible refine ite_good (fun _ => ?_) (fun _ => ?_)
    | with_reducible refine iteOut_good (fun _ => ?_) (fun _ => ?_)
    | with_reducible refine foldl_good (fun _ _ _ => ?_) ?_
    | with_reducible refine foldl_fst (fun _ _ _ => ?_) ?_
    | with_reducible refine foldl_snd (fun _ _ _ => ?_) ?_
    | subst x
    | with_reducible split
    | dsimp only

theorem execErrInject_good {pq : List Instr × Prop} {page : BitVec 14} {data : W64} {s : State} (hs : Good pq s) : GoodOut pq (execErrInject page data s) := by
  unfold execErrInject
  repeat' first
    | with_reducible assumption
    | with_reducible refine goodOut_next ?_
    | (lift_lets; intro x; refine (fun (hx : Good pq x) => ?_) ?_; clear_value x)
    | (intro x; subst x)
    | with_reducible refine State.injectErr_good ?_
    | with_reducible refine ite_good (fun _ => ?_) (fun _ => ?_)
    | with_reducible refine iteOut_good (fun _ => ?_) (fun _ => ?_)
    | with_reducible refine foldl_good (fun _ _ _ => ?_) ?_
    | with_reducible refine foldl_fst (fun _ _ _ => ?_) ?_
    | with_reducible refine foldl_snd (fun _ _ _ => ?_) ?_
    | subst x
    | with_reducible split
    | dsimp only

theorem State.writeEvtSel_good {pq : List Instr × Prop} {s : State} {page : Nat} {data : W64} (hs : Good pq s) : Good pq (State.writeEvtSel s page data) := by
  unfold State.writeEvtSel
  repeat' first
    | with_reducible assumption
    | with_reducible refine goodOut_next ?_
    | (lift_lets; intro x; refine (fun (hx : Good pq x) => ?_) ?_; clear_value x)
    | (intro x; subst x)
    | with_reducible refine State.setReg_good ?_
    | with_reducible refine ite_good (fun _ => ?_) (fun _ => ?_)
    | with_reducible refine iteOut_good (fun _ => ?_) (fun _ => ?_)
    | with_reducible refine foldl_good (fun _ _ _ => ?_) ?_
    | with_reducible refine foldl_fst (fun _ _ _ => ?_) ?_
    | with_reducible refine foldl_snd (fun _ _ _ => ?_) ?_
    | subst x
    | with_reducible split
    | dsimp only

theorem execEvtSelWrite_good {pq : List Instr × Prop} {page : BitVec 14} {data : W64} {s : State} (hs : Good pq s) : GoodOut pq (execEvtSelWrite page data s) := by
  unfold execEvtSelWrite
  repeat' first
    | with_reducible assumption
    | with_reducible refine goodOut_next ?_
    | (lift_lets; intro x; refine (fun (hx : Good pq x) => ?_) ?_; clear_value x)
    | (intro x; subst x)
    | with_reducible refine State.writeEvtSel_good ?_
    | with_reducible refine ite_good (fun _ => ?_) (fun _ => ?_)
    | with_reducible refine iteOut_good (fun _ => ?_) (fun _ => ?_)
    | with_reducible refine foldl_good (fun _ _ _ => ?_) ?_
    | with_reducible refine foldl_fst (fun _ _ _ => ?_) ?_
    | with_reducible refine foldl_snd (fun _ _ _ => ?_) ?_
    | subst x
    | with_reducible split
    | dsimp only

theorem execEvtSelRead_good {pq : List Instr × Prop} {page : BitVec 14} {s : State} (hs : Good pq s) : GoodOut pq (execEvtSelRead page s) := by
  unfold execEvtSelRead
  repeat' first
    | with_reducible assumption
    | with_reducible refine goodOut_next ?_
    | (lift_lets; intro x; refine (fun (hx : Good pq x) => ?_) ?_; clear_value x)
    | (intro x; subst x)
    | with_reducible refine State.readClear_good ?_
    | with_reducible refine ite_good (fun _ => ?_) (fun _ => ?_)
    | with_reducible refine iteOut_good (fun _ => ?_) (fun _ => ?_)
    | with_reducible refine foldl_good (fun _ _ _ => ?_) ?_
    | with_reducible refine foldl_fst (fun _ _ _ => ?_) ?_
    | with_reducible refine foldl_snd (fun _ _ _ => ?_) ?_
    | subst x
    | with_reducible split
    | dsimp only

theorem State.setPhase_good {pq : List Instr × Prop} {s : State} {p : Nat} (hs : Good pq s) : Good pq (State.setPhase s p) := by
  unfold State.setPhase
  repeat' first
    | with_reducible assumption
    | with_reducible refine goodOut_next ?_
    | (lift_lets; intro x; refine (fun (hx : Good pq x) => ?_) ?_; clear_value x)
    | (intro x; subst x)
    | with_reducible refine State.setFld_good ?_
    | with_reducible refine ite_good (fun _ => ?_) (fun _ => ?_)
    | with_reducible refine iteOut_good (fun _ => ?_) (fun _ => ?_)
    | with_reducible refine foldl_good (fun _ _ _ => ?_) ?_
    | with_reducible refine foldl_fst (fun _ _ _ => ?_) ?_
    | with_reducible refine foldl_snd (fun _ _ _ => ?_) ?_
    | subst x
    | with_reducible split
    | dsimp only

theorem State.authFail_good {pq : List Instr × Prop} {s : State} {ws : List W64} {r : Nat} (hs : Good pq s) : Good pq (State.authFail s ws r) := by
  unfold State.authFail
  repeat' first
    | with_reducible assumption
    | with_reducible refine goodOut_next ?_
    | (lift_lets; intro x; refine (fun (hx : Good pq x) => ?_) ?_; clear_value x)
    | (intro x; subst x)
    | with_reducible refine State.event_good ?_
    | with_reducible refine State.setErr_good ?_
    | with_reducible refine State.setFld_good ?_
    | with_reducible refine ite_good (fun _ => ?_) (fun _ => ?_)
    | with_reducible refine iteOut_good (fun _ => ?_) (fun _ => ?_)
    | with_reducible refine foldl_good (fun _ _ _ => ?_) ?_
    | with_reducible refine foldl_fst (fun _ _ _ => ?_) ?_
    | with_reducible refine foldl_snd (fun _ _ _ => ?_) ?_
    | subst x
    | with_reducible split
    | dsimp only

theorem State.startFirmware_good {pq : List Instr × Prop} {s : State} {ws : List W64} {source : Nat} (hs : Good pq s) : Good pq (State.startFirmware s ws source) := by
  unfold State.startFirmware
  repeat' first
    | with_reducible assumption
    | with_reducible refine goodOut_next ?_
    | (lift_lets; intro x; refine (fun (hx : Good pq x) => ?_) ?_; clear_value x)
    | (intro x; subst x)
    | with_reducible refine State.setBitF_good ?_
    | with_reducible refine State.setFld_good ?_
    | with_reducible refine State.setPhase_good ?_
    | with_reducible refine State.setReg_good ?_
    | with_reducible refine State.withBoot_good _ ?_
    | with_reducible refine ite_good (fun _ => ?_) (fun _ => ?_)
    | with_reducible refine iteOut_good (fun _ => ?_) (fun _ => ?_)
    | with_reducible refine foldl_good (fun _ _ _ => ?_) ?_
    | with_reducible refine foldl_fst (fun _ _ _ => ?_) ?_
    | with_reducible refine foldl_snd (fun _ _ _ => ?_) ?_
    | subst x
    | with_reducible split
    | dsimp only

theorem State.bootKept_good {pq : List Instr × Prop} {s : State} (hs : Good pq s) : Good pq (State.bootKept s) := by
  unfold State.bootKept
  repeat' first
    | with_reducible assumption
    | with_reducible refine goodOut_next ?_
    | (lift_lets; intro x; refine (fun (hx : Good pq x) => ?_) ?_; clear_value x)
    | (intro x; subst x)
    | with_reducible refine State.authFail_good ?_
    | with_reducible refine State.event_good ?_
    | with_reducible refine State.setErr_good ?_
    | with_reducible refine State.setPhase_good ?_
    | with_reducible refine State.startFirmware_good ?_
    | with_reducible refine ite_good (fun _ => ?_) (fun _ => ?_)
    | with_reducible refine iteOut_good (fun _ => ?_) (fun _ => ?_)
    | with_reducible refine foldl_good (fun _ _ _ => ?_) ?_
    | with_reducible refine foldl_fst (fun _ _ _ => ?_) ?_
    | with_reducible refine foldl_snd (fun _ _ _ => ?_) ?_
    | subst x
    | with_reducible split
    | dsimp only

theorem execBootLoadBegin_good {pq : List Instr × Prop} {s : State} (hs : Good pq s) : GoodOut pq (execBootLoadBegin s) := by
  unfold execBootLoadBegin
  repeat' first
    | with_reducible assumption
    | with_reducible refine goodOut_next ?_
    | (lift_lets; intro x; refine (fun (hx : Good pq x) => ?_) ?_; clear_value x)
    | (intro x; subst x)
    | with_reducible refine State.setReg_good ?_
    | with_reducible refine State.withBoot_good _ ?_
    | with_reducible refine ite_good (fun _ => ?_) (fun _ => ?_)
    | with_reducible refine iteOut_good (fun _ => ?_) (fun _ => ?_)
    | with_reducible refine foldl_good (fun _ _ _ => ?_) ?_
    | with_reducible refine foldl_fst (fun _ _ _ => ?_) ?_
    | with_reducible refine foldl_snd (fun _ _ _ => ?_) ?_
    | subst x
    | with_reducible split
    | dsimp only

theorem execBootLoaddata_good {pq : List Instr × Prop} {data : W64} {s : State} (hs : Good pq s) : GoodOut pq (execBootLoaddata data s) := by
  unfold execBootLoaddata
  repeat' first
    | with_reducible assumption
    | with_reducible refine goodOut_next ?_
    | (lift_lets; intro x; refine (fun (hx : Good pq x) => ?_) ?_; clear_value x)
    | (intro x; subst x)
    | with_reducible refine State.withBoot_good _ ?_
    | with_reducible refine State.wrapFld_good ?_
    | with_reducible refine ite_good (fun _ => ?_) (fun _ => ?_)
    | with_reducible refine iteOut_good (fun _ => ?_) (fun _ => ?_)
    | with_reducible refine foldl_good (fun _ _ _ => ?_) ?_
    | with_reducible refine foldl_fst (fun _ _ _ => ?_) ?_
    | with_reducible refine foldl_snd (fun _ _ _ => ?_) ?_
    | subst x
    | with_reducible split
    | dsimp only

theorem execBootLoadEnd_good {pq : List Instr × Prop} {s : State} (hs : Good pq s) : GoodOut pq (execBootLoadEnd s) := by
  unfold execBootLoadEnd
  repeat' first
    | with_reducible assumption
    | with_reducible refine goodOut_next ?_
    | (lift_lets; intro x; refine (fun (hx : Good pq x) => ?_) ?_; clear_value x)
    | (intro x; subst x)
    | with_reducible refine State.setErr_good ?_
    | with_reducible refine State.setPhase_good ?_
    | with_reducible refine State.withBoot_good _ ?_
    | with_reducible refine ite_good (fun _ => ?_) (fun _ => ?_)
    | with_reducible refine iteOut_good (fun _ => ?_) (fun _ => ?_)
    | with_reducible refine foldl_good (fun _ _ _ => ?_) ?_
    | with_reducible refine foldl_fst (fun _ _ _ => ?_) ?_
    | with_reducible refine foldl_snd (fun _ _ _ => ?_) ?_
    | subst x
    | with_reducible split
    | dsimp only

theorem execImageVerifyDone_good {pq : List Instr × Prop} {s : State} (hs : Good pq s) : GoodOut pq (execImageVerifyDone s) := by
  unfold execImageVerifyDone
  repeat' first
    | with_reducible assumption
    | with_reducible refine goodOut_next ?_
    | (lift_lets; intro x; refine (fun (hx : Good pq x) => ?_) ?_; clear_value x)
    | (intro x; subst x)
    | with_reducible refine State.authFail_good ?_
    | with_reducible refine State.setFld_good ?_
    | with_reducible refine State.setPhase_good ?_
    | with_reducible refine State.startFirmware_good ?_
    | with_reducible refine State.withBoot_good _ ?_
    | with_reducible refine ite_good (fun _ => ?_) (fun _ => ?_)
    | with_reducible refine iteOut_good (fun _ => ?_) (fun _ => ?_)
    | with_reducible refine foldl_good (fun _ _ _ => ?_) ?_
    | with_reducible refine foldl_fst (fun _ _ _ => ?_) ?_
    | with_reducible refine foldl_snd (fun _ _ _ => ?_) ?_
    | subst x
    | with_reducible split
    | dsimp only

theorem State.startBurn_good {pq : List Instr × Prop} {s : State} {op : Nat} {target : Nat} {ok : Bool} (hs : Good pq s) : Good pq (State.startBurn s op target ok) := by
  unfold State.startBurn
  repeat' first
    | with_reducible assumption
    | with_reducible refine goodOut_next ?_
    | (lift_lets; intro x; refine (fun (hx : Good pq x) => ?_) ?_; clear_value x)
    | (intro x; subst x)
    | with_reducible refine State.setErr_good ?_
    | with_reducible refine State.withBoot_good _ ?_
    | with_reducible refine ite_good (fun _ => ?_) (fun _ => ?_)
    | with_reducible refine iteOut_good (fun _ => ?_) (fun _ => ?_)
    | with_reducible refine foldl_good (fun _ _ _ => ?_) ?_
    | with_reducible refine foldl_fst (fun _ _ _ => ?_) ?_
    | with_reducible refine foldl_snd (fun _ _ _ => ?_) ?_
    | subst x
    | with_reducible split
    | dsimp only

theorem execFuseRaiseSvn_good {pq : List Instr × Prop} {target : Byte} {s : State} (hs : Good pq s) : GoodOut pq (execFuseRaiseSvn target s) := by
  unfold execFuseRaiseSvn
  repeat' first
    | with_reducible assumption
    | with_reducible refine goodOut_next ?_
    | (lift_lets; intro x; refine (fun (hx : Good pq x) => ?_) ?_; clear_value x)
    | (intro x; subst x)
    | with_reducible refine State.startBurn_good ?_
    | with_reducible refine ite_good (fun _ => ?_) (fun _ => ?_)
    | with_reducible refine iteOut_good (fun _ => ?_) (fun _ => ?_)
    | with_reducible refine foldl_good (fun _ _ _ => ?_) ?_
    | with_reducible refine foldl_fst (fun _ _ _ => ?_) ?_
    | with_reducible refine foldl_snd (fun _ _ _ => ?_) ?_
    | subst x
    | with_reducible split
    | dsimp only

theorem execFuseRevoke_good {pq : List Instr × Prop} {slot : Byte} {s : State} (hs : Good pq s) : GoodOut pq (execFuseRevoke slot s) := by
  unfold execFuseRevoke
  repeat' first
    | with_reducible assumption
    | with_reducible refine goodOut_next ?_
    | (lift_lets; intro x; refine (fun (hx : Good pq x) => ?_) ?_; clear_value x)
    | (intro x; subst x)
    | with_reducible refine State.startBurn_good ?_
    | with_reducible refine ite_good (fun _ => ?_) (fun _ => ?_)
    | with_reducible refine iteOut_good (fun _ => ?_) (fun _ => ?_)
    | with_reducible refine foldl_good (fun _ _ _ => ?_) ?_
    | with_reducible refine foldl_fst (fun _ _ _ => ?_) ?_
    | with_reducible refine foldl_snd (fun _ _ _ => ?_) ?_
    | subst x
    | with_reducible split
    | dsimp only

theorem execFuseBurnDone_good {pq : List Instr × Prop} {readBackOk : Bool} {s : State} (hs : Good pq s) : GoodOut pq (execFuseBurnDone readBackOk s) := by
  unfold execFuseBurnDone
  repeat' first
    | with_reducible assumption
    | with_reducible refine goodOut_next ?_
    | (lift_lets; intro x; refine (fun (hx : Good pq x) => ?_) ?_; clear_value x)
    | (intro x; subst x)
    | with_reducible refine State.event_good ?_
    | with_reducible refine State.setErr_good ?_
    | with_reducible refine State.withBoot_good _ ?_
    | with_reducible refine ite_good (fun _ => ?_) (fun _ => ?_)
    | with_reducible refine iteOut_good (fun _ => ?_) (fun _ => ?_)
    | with_reducible refine foldl_good (fun _ _ _ => ?_) ?_
    | with_reducible refine foldl_fst (fun _ _ _ => ?_) ?_
    | with_reducible refine foldl_snd (fun _ _ _ => ?_) ?_
    | subst x
    | with_reducible split
    | dsimp only

theorem State.endAttest_good {pq : List Instr × Prop} {s : State} {result : Nat} (hs : Good pq s) : Good pq (State.endAttest s result) := by
  unfold State.endAttest
  repeat' first
    | with_reducible assumption
    | with_reducible refine goodOut_next ?_
    | (lift_lets; intro x; refine (fun (hx : Good pq x) => ?_) ?_; clear_value x)
    | (intro x; subst x)
    | with_reducible refine State.setBitF_good ?_
    | with_reducible refine State.setFld_good ?_
    | with_reducible refine State.withBoot_good _ ?_
    | with_reducible refine ite_good (fun _ => ?_) (fun _ => ?_)
    | with_reducible refine iteOut_good (fun _ => ?_) (fun _ => ?_)
    | with_reducible refine foldl_good (fun _ _ _ => ?_) ?_
    | with_reducible refine foldl_fst (fun _ _ _ => ?_) ?_
    | with_reducible refine foldl_snd (fun _ _ _ => ?_) ?_
    | subst x
    | with_reducible split
    | dsimp only

theorem execIdtreeDone_good {pq : List Instr × Prop} {s : State} (hs : Good pq s) : GoodOut pq (execIdtreeDone s) := by
  unfold execIdtreeDone
  repeat' first
    | with_reducible assumption
    | with_reducible refine goodOut_next ?_
    | (lift_lets; intro x; refine (fun (hx : Good pq x) => ?_) ?_; clear_value x)
    | (intro x; subst x)
    | with_reducible refine State.endAttest_good ?_
    | with_reducible refine State.event_good ?_
    | with_reducible refine State.setBitF_good ?_
    | with_reducible refine State.setErr_good ?_
    | with_reducible refine State.setReg_good ?_
    | with_reducible refine State.withBoot_good _ ?_
    | with_reducible refine ite_good (fun _ => ?_) (fun _ => ?_)
    | with_reducible refine iteOut_good (fun _ => ?_) (fun _ => ?_)
    | with_reducible refine foldl_good (fun _ _ _ => ?_) ?_
    | with_reducible refine foldl_fst (fun _ _ _ => ?_) ?_
    | with_reducible refine foldl_snd (fun _ _ _ => ?_) ?_
    | subst x
    | with_reducible split
    | dsimp only

theorem State.reserveLeaf_good {pq : List Instr × Prop} {s : State} (hs : Good pq s) : Good pq (State.reserveLeaf s) := by
  unfold State.reserveLeaf
  repeat' first
    | with_reducible assumption
    | with_reducible refine goodOut_next ?_
    | (lift_lets; intro x; refine (fun (hx : Good pq x) => ?_) ?_; clear_value x)
    | (intro x; subst x)
    | with_reducible refine State.sstAdd_good ?_
    | with_reducible refine State.withBoot_good _ ?_
    | with_reducible refine ite_good (fun _ => ?_) (fun _ => ?_)
    | with_reducible refine iteOut_good (fun _ => ?_) (fun _ => ?_)
    | with_reducible refine foldl_good (fun _ _ _ => ?_) ?_
    | with_reducible refine foldl_fst (fun _ _ _ => ?_) ?_
    | with_reducible refine foldl_snd (fun _ _ _ => ?_) ?_
    | subst x
    | with_reducible split
    | dsimp only

theorem execAttestGo_good {pq : List Instr × Prop} {s : State} (hs : Good pq s) : GoodOut pq (execAttestGo s) := by
  unfold execAttestGo
  repeat' first
    | with_reducible assumption
    | with_reducible refine goodOut_next ?_
    | (lift_lets; intro x; refine (fun (hx : Good pq x) => ?_) ?_; clear_value x)
    | (intro x; subst x)
    | with_reducible refine State.endAttest_good ?_
    | with_reducible refine State.reserveLeaf_good ?_
    | with_reducible refine State.setBitF_good ?_
    | with_reducible refine State.setErr_good ?_
    | with_reducible refine State.withBoot_good _ ?_
    | with_reducible refine ite_good (fun _ => ?_) (fun _ => ?_)
    | with_reducible refine iteOut_good (fun _ => ?_) (fun _ => ?_)
    | with_reducible refine foldl_good (fun _ _ _ => ?_) ?_
    | with_reducible refine foldl_fst (fun _ _ _ => ?_) ?_
    | with_reducible refine foldl_snd (fun _ _ _ => ?_) ?_
    | subst x
    | with_reducible split
    | dsimp only

theorem State.useLeaf_good {pq : List Instr × Prop} {s : State} {leaf : Nat} (hs : Good pq s) : Good pq (State.useLeaf s leaf) := by
  unfold State.useLeaf
  repeat' first
    | with_reducible assumption
    | with_reducible refine goodOut_next ?_
    | (lift_lets; intro x; refine (fun (hx : Good pq x) => ?_) ?_; clear_value x)
    | (intro x; subst x)
    | with_reducible refine State.event_good ?_
    | with_reducible refine State.setErr_good ?_
    | with_reducible refine State.setFld_good ?_
    | with_reducible refine ite_good (fun _ => ?_) (fun _ => ?_)
    | with_reducible refine iteOut_good (fun _ => ?_) (fun _ => ?_)
    | with_reducible refine foldl_good (fun _ _ _ => ?_) ?_
    | with_reducible refine foldl_fst (fun _ _ _ => ?_) ?_
    | with_reducible refine foldl_snd (fun _ _ _ => ?_) ?_
    | subst x
    | with_reducible split
    | dsimp only

theorem execAttestDone_good {pq : List Instr × Prop} {s : State} (hs : Good pq s) : GoodOut pq (execAttestDone s) := by
  unfold execAttestDone
  repeat' first
    | with_reducible assumption
    | with_reducible refine goodOut_next ?_
    | (lift_lets; intro x; refine (fun (hx : Good pq x) => ?_) ?_; clear_value x)
    | (intro x; subst x)
    | with_reducible refine State.endAttest_good ?_
    | with_reducible refine State.useLeaf_good ?_
    | with_reducible refine State.withBoot_good _ ?_
    | with_reducible refine ite_good (fun _ => ?_) (fun _ => ?_)
    | with_reducible refine iteOut_good (fun _ => ?_) (fun _ => ?_)
    | with_reducible refine foldl_good (fun _ _ _ => ?_) ?_
    | with_reducible refine foldl_fst (fun _ _ _ => ?_) ?_
    | with_reducible refine foldl_snd (fun _ _ _ => ?_) ?_
    | subst x
    | with_reducible split
    | dsimp only

theorem State.loseReport_good {pq : List Instr × Prop} {s : State} (hs : Good pq s) : Good pq (State.loseReport s) := by
  unfold State.loseReport
  repeat' first
    | with_reducible assumption
    | with_reducible refine goodOut_next ?_
    | (lift_lets; intro x; refine (fun (hx : Good pq x) => ?_) ?_; clear_value x)
    | (intro x; subst x)
    | with_reducible refine State.setBitF_good ?_
    | with_reducible refine State.useLeaf_good ?_
    | with_reducible refine State.withBoot_good _ ?_
    | with_reducible refine ite_good (fun _ => ?_) (fun _ => ?_)
    | with_reducible refine iteOut_good (fun _ => ?_) (fun _ => ?_)
    | with_reducible refine foldl_good (fun _ _ _ => ?_) ?_
    | with_reducible refine foldl_fst (fun _ _ _ => ?_) ?_
    | with_reducible refine foldl_snd (fun _ _ _ => ?_) ?_
    | subst x
    | with_reducible split
    | dsimp only

theorem execSecRselWrite_good {pq : List Instr × Prop} {s : State} (hs : Good pq s) : GoodOut pq (execSecRselWrite s) := by
  unfold execSecRselWrite
  repeat' first
    | with_reducible assumption
    | with_reducible refine goodOut_next ?_
    | (lift_lets; intro x; refine (fun (hx : Good pq x) => ?_) ?_; clear_value x)
    | (intro x; subst x)
    | with_reducible refine State.withBoot_good _ ?_
    | with_reducible refine ite_good (fun _ => ?_) (fun _ => ?_)
    | with_reducible refine iteOut_good (fun _ => ?_) (fun _ => ?_)
    | with_reducible refine foldl_good (fun _ _ _ => ?_) ?_
    | with_reducible refine foldl_fst (fun _ _ _ => ?_) ?_
    | with_reducible refine foldl_snd (fun _ _ _ => ?_) ?_
    | subst x
    | with_reducible split
    | dsimp only

theorem execSecRdataRead_good {pq : List Instr × Prop} {s : State} (hs : Good pq s) : GoodOut pq (execSecRdataRead s) := by
  unfold execSecRdataRead
  repeat' first
    | with_reducible assumption
    | with_reducible refine goodOut_next ?_
    | (lift_lets; intro x; refine (fun (hx : Good pq x) => ?_) ?_; clear_value x)
    | (intro x; subst x)
    | with_reducible refine State.out_good ?_
    | with_reducible refine State.withBoot_good _ ?_
    | with_reducible refine ite_good (fun _ => ?_) (fun _ => ?_)
    | with_reducible refine iteOut_good (fun _ => ?_) (fun _ => ?_)
    | with_reducible refine foldl_good (fun _ _ _ => ?_) ?_
    | with_reducible refine foldl_fst (fun _ _ _ => ?_) ?_
    | with_reducible refine foldl_snd (fun _ _ _ => ?_) ?_
    | subst x
    | with_reducible split
    | dsimp only

theorem State.newChal_good {pq : List Instr × Prop} {s : State} (hs : Good pq s) : Good pq (State.newChal s) := by
  unfold State.newChal
  repeat' first
    | with_reducible assumption
    | with_reducible refine goodOut_next ?_
    | (lift_lets; intro x; refine (fun (hx : Good pq x) => ?_) ?_; clear_value x)
    | (intro x; subst x)
    | with_reducible refine State.draw_good ?_
    | with_reducible refine State.setReg_good ?_
    | with_reducible refine State.draw_good_eq (by with_reducible assumption) ?_
    | with_reducible refine ite_good (fun _ => ?_) (fun _ => ?_)
    | with_reducible refine iteOut_good (fun _ => ?_) (fun _ => ?_)
    | with_reducible refine foldl_good (fun _ _ _ => ?_) ?_
    | with_reducible refine foldl_fst (fun _ _ _ => ?_) ?_
    | with_reducible refine foldl_snd (fun _ _ _ => ?_) ?_
    | subst x
    | with_reducible split
    | dsimp only

theorem State.tokenBytes_good {pq : List Instr × Prop} {s : State} {d : Nat} {bs : List Byte} (hs : Good pq s) : Good pq (State.tokenBytes s d bs) := by
  unfold State.tokenBytes
  repeat' first
    | with_reducible assumption
    | with_reducible refine goodOut_next ?_
    | (lift_lets; intro x; refine (fun (hx : Good pq x) => ?_) ?_; clear_value x)
    | (intro x; subst x)
    | with_reducible refine State.newChal_good ?_
    | with_reducible refine State.setErr_good ?_
    | with_reducible refine State.withBoot_good _ ?_
    | with_reducible refine ite_good (fun _ => ?_) (fun _ => ?_)
    | with_reducible refine iteOut_good (fun _ => ?_) (fun _ => ?_)
    | with_reducible refine foldl_good (fun _ _ _ => ?_) ?_
    | with_reducible refine foldl_fst (fun _ _ _ => ?_) ?_
    | with_reducible refine foldl_snd (fun _ _ _ => ?_) ?_
    | subst x
    | with_reducible split
    | dsimp only

theorem execTstTokenWrite_good {pq : List Instr × Prop} {data : W64} {s : State} (hs : Good pq s) : GoodOut pq (execTstTokenWrite data s) := by
  unfold execTstTokenWrite
  repeat' first
    | with_reducible assumption
    | with_reducible refine goodOut_next ?_
    | (lift_lets; intro x; refine (fun (hx : Good pq x) => ?_) ?_; clear_value x)
    | (intro x; subst x)
    | with_reducible refine State.tokenBytes_good ?_
    | with_reducible refine ite_good (fun _ => ?_) (fun _ => ?_)
    | with_reducible refine iteOut_good (fun _ => ?_) (fun _ => ?_)
    | with_reducible refine foldl_good (fun _ _ _ => ?_) ?_
    | with_reducible refine foldl_fst (fun _ _ _ => ?_) ?_
    | with_reducible refine foldl_snd (fun _ _ _ => ?_) ?_
    | subst x
    | with_reducible split
    | dsimp only

theorem execTestEnter_good {pq : List Instr × Prop} {d : Die} {dies : BitVec 4} {s : State} (hs : Good pq s) : GoodOut pq (execTestEnter d dies s) := by
  unfold execTestEnter
  repeat' first
    | with_reducible assumption
    | with_reducible refine goodOut_next ?_
    | (lift_lets; intro x; refine (fun (hx : Good pq x) => ?_) ?_; clear_value x)
    | (intro x; subst x)
    | with_reducible refine State.event_good ?_
    | with_reducible refine State.laneOff_good ?_
    | with_reducible refine State.noteDir_good ?_
    | with_reducible refine State.setBitF_good ?_
    | with_reducible refine State.setErr_good ?_
    | with_reducible refine State.setFld_good ?_
    | with_reducible refine State.setPhase_good ?_
    | with_reducible refine State.setReg_good ?_
    | with_reducible refine State.withBoot_good _ ?_
    | with_reducible refine State.withPlat_good _ ?_
    | with_reducible refine ite_good (fun _ => ?_) (fun _ => ?_)
    | with_reducible refine iteOut_good (fun _ => ?_) (fun _ => ?_)
    | with_reducible refine foldl_good (fun _ _ _ => ?_) ?_
    | with_reducible refine foldl_fst (fun _ _ _ => ?_) ?_
    | with_reducible refine foldl_snd (fun _ _ _ => ?_) ?_
    | subst x
    | with_reducible split
    | dsimp only

theorem execTestDone_good {pq : List Instr × Prop} {d : Die} {res0 : BitVec 35} {res1 : W32} {s : State} (hs : Good pq s) : GoodOut pq (execTestDone d res0 res1 s) := by
  unfold execTestDone
  repeat' first
    | with_reducible assumption
    | with_reducible refine goodOut_next ?_
    | (lift_lets; intro x; refine (fun (hx : Good pq x) => ?_) ?_; clear_value x)
    | (intro x; subst x)
    | with_reducible refine State.setReg_good ?_
    | with_reducible refine ite_good (fun _ => ?_) (fun _ => ?_)
    | with_reducible refine iteOut_good (fun _ => ?_) (fun _ => ?_)
    | with_reducible refine foldl_good (fun _ _ _ => ?_) ?_
    | with_reducible refine foldl_fst (fun _ _ _ => ?_) ?_
    | with_reducible refine foldl_snd (fun _ _ _ => ?_) ?_
    | subst x
    | with_reducible split
    | dsimp only

end Sys2Proof.Machine
end

