-- ==== Sys2Proof/Laws/GoodRecovery.lean ====
section
/-! SUPPORT. Good is kept by recovery, the platform, register access, cores, frames, JTAG and the whole step. -/

namespace Sys2Proof.Machine
-- The tactic scripts here have one shape for every operation, so some of their steps do nothing for some operations.
set_option linter.unusedTactic false
set_option linter.unreachableTactic false

-- FOR State.keepRegs
-- HAVE keepRegs State.keepRegs_good
theorem State.keepRegs_good {pq : List Instr × Prop} {s : State} {keep : Nat → Bool} (hs : Good pq s) : Good pq (s.keepRegs keep) :=
  State.withErrCtx_good _ ⟨hs.1, fun hk => ⟨⟨(hs.2 hk).1.1, KMap.wf_filter _ _ (hs.2 hk).1.2⟩, (hs.2 hk).2⟩⟩

theorem State.showFence_good {pq : List Instr × Prop} {s : State} {page : Nat} {state : Fld} {key : Nat} (hs : Good pq s) : Good pq (State.showFence s page state key) := by
  unfold State.showFence
  repeat' first
    | with_reducible assumption
    | with_reducible refine goodOut_next ?_
    | (lift_lets; intro x; refine (fun (hx : Good pq x) => ?_) ?_; clear_value x)
    | (intro x; subst x)
    | with_reducible refine State.setBitF_good ?_
    | with_reducible refine State.setFld_good ?_
    | with_reducible refine ite_good (fun _ => ?_) (fun _ => ?_)
    | with_reducible refine iteOut_good (fun _ => ?_) (fun _ => ?_)
    | with_reducible refine foldl_good (fun _ _ _ => ?_) ?_
    | with_reducible refine foldl_fst (fun _ _ _ => ?_) ?_
    | with_reducible refine foldl_snd (fun _ _ _ => ?_) ?_
    | subst x
    | with_reducible split
    | dsimp only

theorem State.showStrikeLog_good {pq : List Instr × Prop} {s : State} {e : Nat} (hs : Good pq s) : Good pq (State.showStrikeLog s e) := by
  unfold State.showStrikeLog
  repeat' first
    | with_reducible assumption
    | with_reducible refine goodOut_next ?_
    | (lift_lets; intro x; refine (fun (hx : Good pq x) => ?_) ?_; clear_value x)
    | (intro x; subst x)
    | with_reducible refine State.setReg_good ?_
    | with_reducible refine State.showStrikes_good ?_
    | with_reducible refine ite_good (fun _ => ?_) (fun _ => ?_)
    | with_reducible refine iteOut_good (fun _ => ?_) (fun _ => ?_)
    | with_reducible refine foldl_good (fun _ _ _ => ?_) ?_
    | with_reducible refine foldl_fst (fun _ _ _ => ?_) ?_
    | with_reducible refine foldl_snd (fun _ _ _ => ?_) ?_
    | subst x
    | with_reducible split
    | dsimp only

theorem State.showHistory_good {pq : List Instr × Prop} {s : State} (hs : Good pq s) : Good pq (State.showHistory s) := by
  unfold State.showHistory
  repeat' first
    | with_reducible assumption
    | with_reducible refine goodOut_next ?_
    | (lift_lets; intro x; refine (fun (hx : Good pq x) => ?_) ?_; clear_value x)
    | (intro x; subst x)
    | with_reducible refine State.setBitF_good ?_
    | with_reducible refine State.setFld_good ?_
    | with_reducible refine State.setLane_good ?_
    | with_reducible refine State.setLnk_good ?_
    | with_reducible refine State.showFence_good ?_
    | with_reducible refine State.showLaneDowns_good ?_
    | with_reducible refine State.showStrikeLog_good ?_
    | with_reducible refine ite_good (fun _ => ?_) (fun _ => ?_)
    | with_reducible refine iteOut_good (fun _ => ?_) (fun _ => ?_)
    | with_reducible refine foldl_good (fun _ _ _ => ?_) ?_
    | with_reducible refine foldl_fst (fun _ _ _ => ?_) ?_
    | with_reducible refine foldl_snd (fun _ _ _ => ?_) ?_
    | subst x
    | with_reducible split
    | dsimp only

theorem State.showMemFences_good {pq : List Instr × Prop} {s : State} (hs : Good pq s) : Good pq (State.showMemFences s) := by
  unfold State.showMemFences
  repeat' first
    | with_reducible assumption
    | with_reducible refine goodOut_next ?_
    | (lift_lets; intro x; refine (fun (hx : Good pq x) => ?_) ?_; clear_value x)
    | (intro x; subst x)
    | with_reducible refine State.setFld_good ?_
    | with_reducible refine State.setReg_good ?_
    | with_reducible refine ite_good (fun _ => ?_) (fun _ => ?_)
    | with_reducible refine iteOut_good (fun _ => ?_) (fun _ => ?_)
    | with_reducible refine foldl_good (fun _ _ _ => ?_) ?_
    | with_reducible refine foldl_fst (fun _ _ _ => ?_) ?_
    | with_reducible refine foldl_snd (fun _ _ _ => ?_) ?_
    | subst x
    | with_reducible split
    | dsimp only

theorem State.stageDump_good {pq : List Instr × Prop} {s : State} {evseq : Nat} {dom : Nat} {page : Nat} (hs : Good pq s) : Good pq (State.stageDump s evseq dom page) := by
  unfold State.stageDump
  repeat' first
    | with_reducible assumption
    | with_reducible refine goodOut_next ?_
    | (lift_lets; intro x; refine (fun (hx : Good pq x) => ?_) ?_; clear_value x)
    | (intro x; subst x)
    | with_reducible refine State.sstAdd_good ?_
    | with_reducible refine State.withRcv_good _ ?_
    | with_reducible refine ite_good (fun _ => ?_) (fun _ => ?_)
    | with_reducible refine iteOut_good (fun _ => ?_) (fun _ => ?_)
    | with_reducible refine foldl_good (fun _ _ _ => ?_) ?_
    | with_reducible refine foldl_fst (fun _ _ _ => ?_) ?_
    | with_reducible refine foldl_snd (fun _ _ _ => ?_) ?_
    | subst x
    | with_reducible split
    | dsimp only

theorem State.abortAll_good {pq : List Instr × Prop} {s : State} {cause : Nat} (hs : Good pq s) : Good pq (State.abortAll s cause) := by
  unfold State.abortAll
  repeat' first
    | with_reducible assumption
    | with_reducible refine goodOut_next ?_
    | (lift_lets; intro x; refine (fun (hx : Good pq x) => ?_) ?_; clear_value x)
    | (intro x; subst x)
    | with_reducible refine State.abort_good ?_
    | with_reducible refine ite_good (fun _ => ?_) (fun _ => ?_)
    | with_reducible refine iteOut_good (fun _ => ?_) (fun _ => ?_)
    | with_reducible refine foldl_good (fun _ _ _ => ?_) ?_
    | with_reducible refine foldl_fst (fun _ _ _ => ?_) ?_
    | with_reducible refine foldl_snd (fun _ _ _ => ?_) ?_
    | subst x
    | with_reducible split
    | dsimp only

theorem State.rangeForm_good {pq : List Instr × Prop} {s : State} (hs : Good pq s) : Good pq (State.rangeForm s) := by
  unfold State.rangeForm
  repeat' first
    | with_reducible assumption
    | with_reducible refine goodOut_next ?_
    | (lift_lets; intro x; refine (fun (hx : Good pq x) => ?_) ?_; clear_value x)
    | (intro x; subst x)
    | with_reducible refine State.withHost_good _ ?_
    | with_reducible refine ite_good (fun _ => ?_) (fun _ => ?_)
    | with_reducible refine iteOut_good (fun _ => ?_) (fun _ => ?_)
    | with_reducible refine foldl_good (fun _ _ _ => ?_) ?_
    | with_reducible refine foldl_fst (fun _ _ _ => ?_) ?_
    | with_reducible refine foldl_snd (fun _ _ _ => ?_) ?_
    | subst x
    | with_reducible split
    | dsimp only

theorem State.unfinished_good {pq : List Instr × Prop} {s : State} (hs : Good pq s) : Good pq (State.unfinished s) := by
  unfold State.unfinished
  repeat' first
    | with_reducible assumption
    | with_reducible refine goodOut_next ?_
    | (lift_lets; intro x; refine (fun (hx : Good pq x) => ?_) ?_; clear_value x)
    | (intro x; subst x)
    | with_reducible refine State.finCmd_good ?_
    | with_reducible refine State.rangeForm_good ?_
    | with_reducible refine ite_good (fun _ => ?_) (fun _ => ?_)
    | with_reducible refine iteOut_good (fun _ => ?_) (fun _ => ?_)
    | with_reducible refine foldl_good (fun _ _ _ => ?_) ?_
    | with_reducible refine foldl_fst (fun _ _ _ => ?_) ?_
    | with_reducible refine foldl_snd (fun _ _ _ => ?_) ?_
    | subst x
    | with_reducible split
    | dsimp only

theorem State.setOos_good {pq : List Instr × Prop} {s : State} {w : W64} (hs : Good pq s) : Good pq (State.setOos s w) := by
  unfold State.setOos
  repeat' first
    | with_reducible assumption
    | with_reducible refine goodOut_next ?_
    | (lift_lets; intro x; refine (fun (hx : Good pq x) => ?_) ?_; clear_value x)
    | (intro x; subst x)
    | with_reducible refine State.setReg_good ?_
    | with_reducible refine State.sstAdd_good ?_
    | with_reducible refine ite_good (fun _ => ?_) (fun _ => ?_)
    | with_reducible refine iteOut_good (fun _ => ?_) (fun _ => ?_)
    | with_reducible refine foldl_good (fun _ _ _ => ?_) ?_
    | with_reducible refine foldl_fst (fun _ _ _ => ?_) ?_
    | with_reducible refine foldl_snd (fun _ _ _ => ?_) ?_
    | subst x
    | with_reducible split
    | dsimp only

theorem State.goOut_good {pq : List Instr × Prop} {s : State} {page : Nat} (hs : Good pq s) : Good pq (State.goOut s page) := by
  unfold State.goOut
  repeat' first
    | with_reducible assumption
    | with_reducible refine goodOut_next ?_
    | (lift_lets; intro x; refine (fun (hx : Good pq x) => ?_) ?_; clear_value x)
    | (intro x; subst x)
    | with_reducible refine State.abortAll_good ?_
    | with_reducible refine State.event_good ?_
    | with_reducible refine State.portOff_good ?_
    | with_reducible refine State.setErr_good ?_
    | with_reducible refine State.setFld_good ?_
    | with_reducible refine State.setOos_good ?_
    | with_reducible refine State.stageDump_good ?_
    | with_reducible refine State.unfinished_good ?_
    | with_reducible refine State.withRcv_good _ ?_
    | with_reducible refine ite_good (fun _ => ?_) (fun _ => ?_)
    | with_reducible refine iteOut_good (fun _ => ?_) (fun _ => ?_)
    | with_reducible refine foldl_good (fun _ _ _ => ?_) ?_
    | with_reducible refine foldl_fst (fun _ _ _ => ?_) ?_
    | with_reducible refine foldl_snd (fun _ _ _ => ?_) ?_
    | subst x
    | with_reducible split
    | dsimp only

theorem State.countReset_good {pq : List Instr × Prop} {s : State} {t : ResetTarget} (hs : Good pq s) : Good pq (State.countReset s t) := by
  unfold State.countReset
  repeat' first
    | with_reducible assumption
    | with_reducible refine goodOut_next ?_
    | (lift_lets; intro x; refine (fun (hx : Good pq x) => ?_) ?_; clear_value x)
    | (intro x; subst x)
    | with_reducible refine State.goOut_good ?_
    | with_reducible refine State.out_good ?_
    | with_reducible refine State.putUnit_good ?_
    | with_reducible refine ite_good (fun _ => ?_) (fun _ => ?_)
    | with_reducible refine iteOut_good (fun _ => ?_) (fun _ => ?_)
    | with_reducible refine foldl_good (fun _ _ _ => ?_) ?_
    | with_reducible refine foldl_fst (fun _ _ _ => ?_) ?_
    | with_reducible refine foldl_snd (fun _ _ _ => ?_) ?_
    | subst x
    | with_reducible split
    | dsimp only

theorem State.beginReset_good {pq : List Instr × Prop} {s : State} {t : ResetTarget} {tr : Option TrainIn} (hs : Good pq s) : Good pq (State.beginReset s t tr) := by
  unfold State.beginReset
  repeat' first
    | with_reducible assumption
    | with_reducible refine goodOut_next ?_
    | (lift_lets; intro x; refine (fun (hx : Good pq x) => ?_) ?_; clear_value x)
    | (intro x; subst x)
    | with_reducible refine State.event_good ?_
    | with_reducible refine State.setFld_good ?_
    | with_reducible refine State.withRcv_good _ ?_
    | with_reducible refine ite_good (fun _ => ?_) (fun _ => ?_)
    | with_reducible refine iteOut_good (fun _ => ?_) (fun _ => ?_)
    | with_reducible refine foldl_good (fun _ _ _ => ?_) ?_
    | with_reducible refine foldl_fst (fun _ _ _ => ?_) ?_
    | with_reducible refine foldl_snd (fun _ _ _ => ?_) ?_
    | subst x
    | with_reducible split
    | dsimp only

theorem State.resetPage_good {pq : List Instr × Prop} {s : State} {page : Nat} {state : Fld} {key : Nat} (hs : Good pq s) : Good pq (State.resetPage s page state key) := by
  unfold State.resetPage
  repeat' first
    | with_reducible assumption
    | with_reducible refine goodOut_next ?_
    | (lift_lets; intro x; refine (fun (hx : Good pq x) => ?_) ?_; clear_value x)
    | (intro x; subst x)
    | with_reducible refine State.keepRegs_good ?_
    | with_reducible refine State.showFence_good ?_
    | with_reducible refine ite_good (fun _ => ?_) (fun _ => ?_)
    | with_reducible refine iteOut_good (fun _ => ?_) (fun _ => ?_)
    | with_reducible refine foldl_good (fun _ _ _ => ?_) ?_
    | with_reducible refine foldl_fst (fun _ _ _ => ?_) ?_
    | with_reducible refine foldl_snd (fun _ _ _ => ?_) ?_
    | subst x
    | with_reducible split
    | dsimp only

theorem State.resetMxe_good {pq : List Instr × Prop} {s : State} {e : Nat} (hs : Good pq s) : Good pq (State.resetMxe s e) := by
  unfold State.resetMxe
  repeat' first
    | with_reducible assumption
    | with_reducible refine goodOut_next ?_
    | (lift_lets; intro x; refine (fun (hx : Good pq x) => ?_) ?_; clear_value x)
    | (intro x; subst x)
    | with_reducible refine State.fenceMxeNow_good ?_
    | with_reducible refine State.resetPage_good ?_
    | with_reducible refine State.setFld_good ?_
    | with_reducible refine State.setMxe_good ?_
    | with_reducible refine State.showStrikes_good ?_
    | with_reducible refine State.withBanks_good _ ?_
    | with_reducible refine State.withWork_good _ ?_
    | with_reducible refine ite_good (fun _ => ?_) (fun _ => ?_)
    | with_reducible refine iteOut_good (fun _ => ?_) (fun _ => ?_)
    | with_reducible refine foldl_good (fun _ _ _ => ?_) ?_
    | with_reducible refine foldl_fst (fun _ _ _ => ?_) ?_
    | with_reducible refine foldl_snd (fun _ _ _ => ?_) ?_
    | subst x
    | with_reducible split
    | dsimp only

theorem State.resetVxe_good {pq : List Instr × Prop} {s : State} {v : Nat} (hs : Good pq s) : Good pq (State.resetVxe s v) := by
  unfold State.resetVxe
  repeat' first
    | with_reducible assumption
    | with_reducible refine goodOut_next ?_
    | (lift_lets; intro x; refine (fun (hx : Good pq x) => ?_) ?_; clear_value x)
    | (intro x; subst x)
    | with_reducible refine State.fenceVxe_good ?_
    | with_reducible refine State.resetPage_good ?_
    | with_reducible refine State.setVxe_good ?_
    | with_reducible refine State.withWork_good _ ?_
    | with_reducible refine ite_good (fun _ => ?_) (fun _ => ?_)
    | with_reducible refine iteOut_good (fun _ => ?_) (fun _ => ?_)
    | with_reducible refine foldl_good (fun _ _ _ => ?_) ?_
    | with_reducible refine foldl_fst (fun _ _ _ => ?_) ?_
    | with_reducible refine foldl_snd (fun _ _ _ => ?_) ?_
    | subst x
    | with_reducible split
    | dsimp only

theorem State.resetCore_good {pq : List Instr × Prop} {s : State} {c : Nat} {k : Nat} (hs : Good pq s) : Good pq (State.resetCore s c k) := by
  unfold State.resetCore
  repeat' first
    | with_reducible assumption
    | with_reducible refine goodOut_next ?_
    | (lift_lets; intro x; refine (fun (hx : Good pq x) => ?_) ?_; clear_value x)
    | (intro x; subst x)
    | with_reducible refine State.haltCore_good ?_
    | with_reducible refine State.setCore_good ?_
    | with_reducible refine State.setSignals_good ?_
    | with_reducible refine State.withScratch_good _ ?_
    | with_reducible refine ite_good (fun _ => ?_) (fun _ => ?_)
    | with_reducible refine iteOut_good (fun _ => ?_) (fun _ => ?_)
    | with_reducible refine foldl_good (fun _ _ _ => ?_) ?_
    | with_reducible refine foldl_fst (fun _ _ _ => ?_) ?_
    | with_reducible refine foldl_snd (fun _ _ _ => ?_) ?_
    | subst x
    | with_reducible split
    | dsimp only

theorem State.resetSlot_good {pq : List Instr × Prop} {s : State} {p : Nat} (hs : Good pq s) : Good pq (State.resetSlot s p) := by
  unfold State.resetSlot
  repeat' first
    | with_reducible assumption
    | with_reducible refine goodOut_next ?_
    | (lift_lets; intro x; refine (fun (hx : Good pq x) => ?_) ?_; clear_value x)
    | (intro x; subst x)
    | with_reducible refine State.setCore_good ?_
    | with_reducible refine State.setSignals_good ?_
    | with_reducible refine State.unwait_good ?_
    | with_reducible refine State.withScratch_good _ ?_
    | with_reducible refine ite_good (fun _ => ?_) (fun _ => ?_)
    | with_reducible refine iteOut_good (fun _ => ?_) (fun _ => ?_)
    | with_reducible refine foldl_good (fun _ _ _ => ?_) ?_
    | with_reducible refine foldl_fst (fun _ _ _ => ?_) ?_
    | with_reducible refine foldl_snd (fun _ _ _ => ?_) ?_
    | subst x
    | with_reducible split
    | dsimp only

theorem State.resetJournals_good {pq : List Instr × Prop} {s : State} {u : Nat} (hs : Good pq s) : Good pq (State.resetJournals s u) := by
  unfold State.resetJournals
  repeat' first
    | with_reducible assumption
    | with_reducible refine goodOut_next ?_
    | (lift_lets; intro x; refine (fun (hx : Good pq x) => ?_) ?_; clear_value x)
    | (intro x; subst x)
    | with_reducible refine State.handOver_good ?_
    | with_reducible refine State.withJournals_good _ ?_
    | with_reducible refine ite_good (fun _ => ?_) (fun _ => ?_)
    | with_reducible refine iteOut_good (fun _ => ?_) (fun _ => ?_)
    | with_reducible refine foldl_good (fun _ _ _ => ?_) ?_
    | with_reducible refine foldl_fst (fun _ _ _ => ?_) ?_
    | with_reducible refine foldl_snd (fun _ _ _ => ?_) ?_
    | subst x
    | with_reducible split
    | dsimp only

theorem State.remirrorDie_good {pq : List Instr × Prop} {s : State} {d : Nat} (hs : Good pq s) : Good pq (State.remirrorDie s d) := by
  unfold State.remirrorDie
  repeat' first
    | with_reducible assumption
    | with_reducible refine goodOut_next ?_
    | (lift_lets; intro x; refine (fun (hx : Good pq x) => ?_) ?_; clear_value x)
    | (intro x; subst x)
    | with_reducible refine State.remirror_good ?_
    | with_reducible refine ite_good (fun _ => ?_) (fun _ => ?_)
    | with_reducible refine iteOut_good (fun _ => ?_) (fun _ => ?_)
    | with_reducible refine foldl_good (fun _ _ _ => ?_) ?_
    | with_reducible refine foldl_fst (fun _ _ _ => ?_) ?_
    | with_reducible refine foldl_snd (fun _ _ _ => ?_) ?_
    | subst x
    | with_reducible split
    | dsimp only

theorem State.resetUnit_good {pq : List Instr × Prop} {s : State} {u : WdUnit} (hs : Good pq s) : Good pq (State.resetUnit s u) := by
  unfold State.resetUnit
  repeat' first
    | with_reducible assumption
    | with_reducible refine goodOut_next ?_
    | (lift_lets; intro x; refine (fun (hx : Good pq x) => ?_) ?_; clear_value x)
    | (intro x; subst x)
    | with_reducible refine State.releaseLate_good ?_
    | with_reducible refine State.resetCore_good ?_
    | with_reducible refine State.resetJournals_good ?_
    | with_reducible refine State.resetMxe_good ?_
    | with_reducible refine State.resetPage_good ?_
    | with_reducible refine State.resetSlot_good ?_
    | with_reducible refine State.resetVxe_good ?_
    | with_reducible refine State.setClu_good ?_
    | with_reducible refine State.setUu_good ?_
    | with_reducible refine State.showMxes_good ?_
    | with_reducible refine ite_good (fun _ => ?_) (fun _ => ?_)
    | with_reducible refine iteOut_good (fun _ => ?_) (fun _ => ?_)
    | with_reducible refine foldl_good (fun _ _ _ => ?_) ?_
    | with_reducible refine foldl_fst (fun _ _ _ => ?_) ?_
    | with_reducible refine foldl_snd (fun _ _ _ => ?_) ?_
    | subst x
    | with_reducible split
    | dsimp only

theorem State.clearCluster_good {pq : List Instr × Prop} {s : State} {c : Nat} (hs : Good pq s) : Good pq (State.clearCluster s c) := by
  unfold State.clearCluster
  repeat' first
    | with_reducible assumption
    | with_reducible refine goodOut_next ?_
    | (lift_lets; intro x; refine (fun (hx : Good pq x) => ?_) ?_; clear_value x)
    | (intro x; subst x)
    | with_reducible refine State.clearSram_good ?_
    | with_reducible refine State.keepRegs_good ?_
    | with_reducible refine State.resetCore_good ?_
    | with_reducible refine State.resetMxe_good ?_
    | with_reducible refine State.resetVxe_good ?_
    | with_reducible refine State.setClu_good ?_
    | with_reducible refine State.withRcv_good _ ?_
    | with_reducible refine ite_good (fun _ => ?_) (fun _ => ?_)
    | with_reducible refine iteOut_good (fun _ => ?_) (fun _ => ?_)
    | with_reducible refine foldl_good (fun _ _ _ => ?_) ?_
    | with_reducible refine foldl_fst (fun _ _ _ => ?_) ?_
    | with_reducible refine foldl_snd (fun _ _ _ => ?_) ?_
    | subst x
    | with_reducible split
    | dsimp only

theorem State.startCluster_good {pq : List Instr × Prop} {s : State} {c : Nat} {counted : Bool} (hs : Good pq s) : Good pq (State.startCluster s c counted) := by
  unfold State.startCluster
  repeat' first
    | with_reducible assumption
    | with_reducible refine goodOut_next ?_
    | (lift_lets; intro x; refine (fun (hx : Good pq x) => ?_) ?_; clear_value x)
    | (intro x; subst x)
    | with_reducible refine State.abortFor_good ?_
    | with_reducible refine State.beginReset_good ?_
    | with_reducible refine State.clearCluster_good ?_
    | with_reducible refine State.countReset_good ?_
    | with_reducible refine State.endWarns_good ?_
    | with_reducible refine ite_good (fun _ => ?_) (fun _ => ?_)
    | with_reducible refine iteOut_good (fun _ => ?_) (fun _ => ?_)
    | with_reducible refine foldl_good (fun _ _ _ => ?_) ?_
    | with_reducible refine foldl_fst (fun _ _ _ => ?_) ?_
    | with_reducible refine foldl_snd (fun _ _ _ => ?_) ?_
    | subst x
    | with_reducible split
    | dsimp only

theorem State.abortDie_good {pq : List Instr × Prop} {s : State} {d : Nat} {cause : Nat} (hs : Good pq s) : Good pq (State.abortDie s d cause) := by
  unfold State.abortDie
  repeat' first
    | with_reducible assumption
    | with_reducible refine goodOut_next ?_
    | (lift_lets; intro x; refine (fun (hx : Good pq x) => ?_) ?_; clear_value x)
    | (intro x; subst x)
    | with_reducible refine State.abortFor_good ?_
    | with_reducible refine ite_good (fun _ => ?_) (fun _ => ?_)
    | with_reducible refine iteOut_good (fun _ => ?_) (fun _ => ?_)
    | with_reducible refine foldl_good (fun _ _ _ => ?_) ?_
    | with_reducible refine foldl_fst (fun _ _ _ => ?_) ?_
    | with_reducible refine foldl_snd (fun _ _ _ => ?_) ?_
    | subst x
    | with_reducible split
    | dsimp only

theorem State.settleDie_good {pq : List Instr × Prop} {s : State} {d : Nat} (hs : Good pq s) : Good pq (State.settleDie s d) := by
  unfold State.settleDie
  repeat' first
    | with_reducible assumption
    | with_reducible refine goodOut_next ?_
    | (lift_lets; intro x; refine (fun (hx : Good pq x) => ?_) ?_; clear_value x)
    | (intro x; subst x)
    | with_reducible refine State.settleJournals_good ?_
    | with_reducible refine ite_good (fun _ => ?_) (fun _ => ?_)
    | with_reducible refine iteOut_good (fun _ => ?_) (fun _ => ?_)
    | with_reducible refine foldl_good (fun _ _ _ => ?_) ?_
    | with_reducible refine foldl_fst (fun _ _ _ => ?_) ?_
    | with_reducible refine foldl_snd (fun _ _ _ => ?_) ?_
    | subst x
    | with_reducible split
    | dsimp only

theorem State.diePortsOff_good {pq : List Instr × Prop} {s : State} {d : Nat} (hs : Good pq s) : Good pq (State.diePortsOff s d) := by
  unfold State.diePortsOff
  repeat' first
    | with_reducible assumption
    | with_reducible refine goodOut_next ?_
    | (lift_lets; intro x; refine (fun (hx : Good pq x) => ?_) ?_; clear_value x)
    | (intro x; subst x)
    | with_reducible refine State.portOff_good ?_
    | with_reducible refine State.withNet_good _ ?_
    | with_reducible refine ite_good (fun _ => ?_) (fun _ => ?_)
    | with_reducible refine iteOut_good (fun _ => ?_) (fun _ => ?_)
    | with_reducible refine foldl_good (fun _ _ _ => ?_) ?_
    | with_reducible refine foldl_fst (fun _ _ _ => ?_) ?_
    | with_reducible refine foldl_snd (fun _ _ _ => ?_) ?_
    | subst x
    | with_reducible split
    | dsimp only

theorem State.clearDie_good {pq : List Instr × Prop} {s : State} {d : Nat} (hs : Good pq s) : Good pq (State.clearDie s d) := by
  unfold State.clearDie
  repeat' first
    | with_reducible assumption
    | with_reducible refine goodOut_next ?_
    | (lift_lets; intro x; refine (fun (hx : Good pq x) => ?_) ?_; clear_value x)
    | (intro x; subst x)
    | with_reducible refine State.clearCluster_good ?_
    | with_reducible refine State.clearSram_good ?_
    | with_reducible refine State.keepRegs_good ?_
    | with_reducible refine State.resetSlot_good ?_
    | with_reducible refine State.showHistory_good ?_
    | with_reducible refine State.withBins_good _ ?_
    | with_reducible refine State.withEvents_good _ ?_
    | with_reducible refine State.withHstOp_good _ ?_
    | with_reducible refine State.withMs_good _ ?_
    | with_reducible refine State.withUus_good _ ?_
    | with_reducible refine ite_good (fun _ => ?_) (fun _ => ?_)
    | with_reducible refine iteOut_good (fun _ => ?_) (fun _ => ?_)
    | with_reducible refine foldl_good (fun _ _ _ => ?_) ?_
    | with_reducible refine foldl_fst (fun _ _ _ => ?_) ?_
    | with_reducible refine foldl_snd (fun _ _ _ => ?_) ?_
    | subst x
    | with_reducible split
    | dsimp only

theorem State.startDie_good {pq : List Instr × Prop} {s : State} {d : Nat} {tr : Option TrainIn} {counted : Bool} (hs : Good pq s) : Good pq (State.startDie s d tr counted) := by
  unfold State.startDie
  repeat' first
    | with_reducible assumption
    | with_reducible refine goodOut_next ?_
    | (lift_lets; intro x; refine (fun (hx : Good pq x) => ?_) ?_; clear_value x)
    | (intro x; subst x)
    | with_reducible refine State.abortDie_good ?_
    | with_reducible refine State.beginReset_good ?_
    | with_reducible refine State.clearDie_good ?_
    | with_reducible refine State.countReset_good ?_
    | with_reducible refine State.cutCommit_good ?_
    | with_reducible refine State.diePortsOff_good ?_
    | with_reducible refine State.endWarns_good ?_
    | with_reducible refine State.laneDown_good ?_
    | with_reducible refine State.loseReport_good ?_
    | with_reducible refine State.noteDir_good ?_
    | with_reducible refine State.remirrorDie_good ?_
    | with_reducible refine State.replayCommit_good ?_
    | with_reducible refine State.settleDie_good ?_
    | with_reducible refine State.stageDump_good ?_
    | with_reducible refine State.withPlat_good _ ?_
    | with_reducible refine ite_good (fun _ => ?_) (fun _ => ?_)
    | with_reducible refine iteOut_good (fun _ => ?_) (fun _ => ?_)
    | with_reducible refine foldl_good (fun _ _ _ => ?_) ?_
    | with_reducible refine foldl_fst (fun _ _ _ => ?_) ?_
    | with_reducible refine foldl_snd (fun _ _ _ => ?_) ?_
    | subst x
    | with_reducible split
    | dsimp only

theorem State.fenceDie_good {pq : List Instr × Prop} {s : State} {d : Nat} {cause : Nat} (hs : Good pq s) : Good pq (State.fenceDie s d cause) := by
  unfold State.fenceDie
  repeat' first
    | with_reducible assumption
    | with_reducible refine goodOut_next ?_
    | (lift_lets; intro x; refine (fun (hx : Good pq x) => ?_) ?_; clear_value x)
    | (intro x; subst x)
    | with_reducible refine State.abortDie_good ?_
    | with_reducible refine State.agentFenced_good ?_
    | with_reducible refine State.cutCommit_good ?_
    | with_reducible refine State.diePortsOff_good ?_
    | with_reducible refine State.event_good ?_
    | with_reducible refine State.fenceUnit_good ?_
    | with_reducible refine State.laneFails_good ?_
    | with_reducible refine State.laneOff_good ?_
    | with_reducible refine State.mirrorFault_good ?_
    | with_reducible refine State.noteDir_good ?_
    | with_reducible refine State.remirrorDie_good ?_
    | with_reducible refine State.replayCommit_good ?_
    | with_reducible refine State.settleDie_good ?_
    | with_reducible refine State.withPlat_good _ ?_
    | with_reducible refine State.withRcv_good _ ?_
    | with_reducible refine ite_good (fun _ => ?_) (fun _ => ?_)
    | with_reducible refine iteOut_good (fun _ => ?_) (fun _ => ?_)
    | with_reducible refine foldl_good (fun _ _ _ => ?_) ?_
    | with_reducible refine foldl_fst (fun _ _ _ => ?_) ?_
    | with_reducible refine foldl_snd (fun _ _ _ => ?_) ?_
    | subst x
    | with_reducible split
    | dsimp only

theorem State.loseAll_good {pq : List Instr × Prop} {s : State} (hs : Good pq s) : Good pq (State.loseAll s) := by
  unfold State.loseAll
  repeat' first
    | with_reducible assumption
    | with_reducible refine goodOut_next ?_
    | (lift_lets; intro x; refine (fun (hx : Good pq x) => ?_) ?_; clear_value x)
    | (intro x; subst x)
    | with_reducible refine State.clearArrived_good ?_
    | with_reducible refine State.lose_good ?_
    | with_reducible refine State.markLost_good ?_
    | with_reducible refine State.setFld_good ?_
    | with_reducible refine State.withSync_good _ ?_
    | with_reducible refine ite_good (fun _ => ?_) (fun _ => ?_)
    | with_reducible refine iteOut_good (fun _ => ?_) (fun _ => ?_)
    | with_reducible refine foldl_good (fun _ _ _ => ?_) ?_
    | with_reducible refine foldl_fst (fun _ _ _ => ?_) ?_
    | with_reducible refine foldl_snd (fun _ _ _ => ?_) ?_
    | subst x
    | with_reducible split
    | dsimp only

theorem State.clearVolatile_good {pq : List Instr × Prop} {s : State} (hs : Good pq s) : Good pq (State.clearVolatile s) := by
  unfold State.clearVolatile
  repeat' first
    | with_reducible assumption
    | with_reducible refine goodOut_next ?_
    | (lift_lets; intro x; refine (fun (hx : Good pq x) => ?_) ?_; clear_value x)
    | (intro x; subst x)
    | with_reducible refine State.clearSram_good ?_
    | with_reducible refine State.withBanks_good _ ?_
    | with_reducible refine State.withBins_good _ ?_
    | with_reducible refine State.withBoot_good _ ?_
    | with_reducible refine State.withClusters_good _ ?_
    | with_reducible refine State.withCores_good _ ?_
    | with_reducible refine State.withCr_good _ ?_
    | with_reducible refine State.withEvents_good _ ?_
    | with_reducible refine State.withHstOp_good _ ?_
    | with_reducible refine State.withJournals_good _ ?_
    | with_reducible refine State.withLdg_good _ ?_
    | with_reducible refine State.withMs_good _ ?_
    | with_reducible refine State.withMxes_good _ ?_
    | with_reducible refine State.withNet_good _ ?_
    | with_reducible refine State.withPlat_good _ ?_
    | with_reducible refine State.withRcv_good _ ?_
    | with_reducible refine State.withScratch_good _ ?_
    | with_reducible refine State.withStg_good _ ?_
    | with_reducible refine State.withUpd_good _ ?_
    | with_reducible refine State.withUus_good _ ?_
    | with_reducible refine State.withVxes_good _ ?_
    | with_reducible refine State.withWork_good _ ?_
    | with_reducible refine ite_good (fun _ => ?_) (fun _ => ?_)
    | with_reducible refine iteOut_good (fun _ => ?_) (fun _ => ?_)
    | with_reducible refine foldl_good (fun _ _ _ => ?_) ?_
    | with_reducible refine foldl_fst (fun _ _ _ => ?_) ?_
    | with_reducible refine foldl_snd (fun _ _ _ => ?_) ?_
    | subst x
    | with_reducible split
    | dsimp only

-- FOR State.clearCold
-- HAVE clearCold State.clearCold_good
theorem State.clearCold_good {pq : List Instr × Prop} {s : State} (hs : Good pq s) : Good pq s.clearCold := by
  unfold State.clearCold
  exact State.withHost_good _ (State.withLdg_good _ (State.withNet_good _ (State.withSync_good _ (State.withStg_good _ (State.withMs_good _
    (State.withCommit_good _ (withMem_good hs (fun _ => rfl))))))))

theorem State.trainPorts_good {pq : List Instr × Prop} {s : State} {was : List Nat} {up : List Nat} (hs : Good pq s) : Good pq (State.trainPorts s was up) := by
  unfold State.trainPorts
  repeat' first
    | with_reducible assumption
    | with_reducible refine goodOut_next ?_
    | (lift_lets; intro x; refine (fun (hx : Good pq x) => ?_) ?_; clear_value x)
    | (intro x; subst x)
    | with_reducible refine State.setPort_good ?_
    | with_reducible refine State.trainPort_good ?_
    | with_reducible refine ite_good (fun _ => ?_) (fun _ => ?_)
    | with_reducible refine iteOut_good (fun _ => ?_) (fun _ => ?_)
    | with_reducible refine foldl_good (fun _ _ _ => ?_) ?_
    | with_reducible refine foldl_fst (fun _ _ _ => ?_) ?_
    | with_reducible refine foldl_snd (fun _ _ _ => ?_) ?_
    | subst x
    | with_reducible split
    | dsimp only

theorem State.trainLanes_good {pq : List Instr × Prop} {s : State} (hs : Good pq s) : Good pq (State.trainLanes s) := by
  unfold State.trainLanes
  repeat' first
    | with_reducible assumption
    | with_reducible refine goodOut_next ?_
    | (lift_lets; intro x; refine (fun (hx : Good pq x) => ?_) ?_; clear_value x)
    | (intro x; subst x)
    | with_reducible refine State.endTick_good ?_
    | with_reducible refine State.setLane_good ?_
    | with_reducible refine ite_good (fun _ => ?_) (fun _ => ?_)
    | with_reducible refine iteOut_good (fun _ => ?_) (fun _ => ?_)
    | with_reducible refine foldl_good (fun _ _ _ => ?_) ?_
    | with_reducible refine foldl_fst (fun _ _ _ => ?_) ?_
    | with_reducible refine foldl_snd (fun _ _ _ => ?_) ?_
    | subst x
    | with_reducible split
    | dsimp only

theorem State.startRecovery_good {pq : List Instr × Prop} {s : State} {cold : Bool} {tr : TrainIn} {counted : Bool} (hs : Good pq s) : Good pq (State.startRecovery s cold tr counted) := by
  unfold State.startRecovery
  repeat' first
    | with_reducible assumption
    | with_reducible refine goodOut_next ?_
    | (lift_lets; intro x; refine (fun (hx : Good pq x) => ?_) ?_; clear_value x)
    | (intro x; subst x)
    | with_reducible refine State.abortAll_good ?_
    | with_reducible refine State.abortStages_good ?_
    | with_reducible refine State.beginReset_good ?_
    | with_reducible refine State.bootKept_good ?_
    | with_reducible refine State.clearCold_good ?_
    | with_reducible refine State.clearVolatile_good ?_
    | with_reducible refine State.countReset_good ?_
    | with_reducible refine State.cutCommit_good ?_
    | with_reducible refine State.endWarns_good ?_
    | with_reducible refine State.keepRegs_good ?_
    | with_reducible refine State.loseAll_good ?_
    | with_reducible refine State.noteDir_good ?_
    | with_reducible refine State.pwrStart_good ?_
    | with_reducible refine State.replayCommit_good ?_
    | with_reducible refine State.setFld_good ?_
    | with_reducible refine State.settleJournals_good ?_
    | with_reducible refine State.showHistory_good ?_
    | with_reducible refine State.showMemFences_good ?_
    | with_reducible refine State.stageDump_good ?_
    | with_reducible refine State.storeWmark_good ?_
    | with_reducible refine State.trainLanes_good ?_
    | with_reducible refine State.trainPorts_good ?_
    | with_reducible refine State.withHost_good _ ?_
    | with_reducible refine State.withPlat_good _ ?_
    | with_reducible refine State.withRcv_good _ ?_
    | with_reducible refine ite_good (fun _ => ?_) (fun _ => ?_)
    | with_reducible refine iteOut_good (fun _ => ?_) (fun _ => ?_)
    | with_reducible refine foldl_good (fun _ _ _ => ?_) ?_
    | with_reducible refine foldl_fst (fun _ _ _ => ?_) ?_
    | with_reducible refine foldl_snd (fun _ _ _ => ?_) ?_
    | subst x
    | with_reducible split
    | dsimp only

theorem State.fenceAny_good {pq : List Instr × Prop} {s : State} {u : WdUnit} {cause : Nat} (hs : Good pq s) : Good pq (State.fenceAny s u cause) := by
  unfold State.fenceAny
  repeat' first
    | with_reducible assumption
    | with_reducible refine goodOut_next ?_
    | (lift_lets; intro x; refine (fun (hx : Good pq x) => ?_) ?_; clear_value x)
    | (intro x; subst x)
    | with_reducible refine State.fenceCluster_good ?_
    | with_reducible refine State.fenceCrr_good ?_
    | with_reducible refine State.fenceMxe_good ?_
    | with_reducible refine State.fenceUnit_good ?_
    | with_reducible refine State.fenceUu_good ?_
    | with_reducible refine State.fenceVxe_good ?_
    | with_reducible refine State.haltCore_good ?_
    | with_reducible refine ite_good (fun _ => ?_) (fun _ => ?_)
    | with_reducible refine iteOut_good (fun _ => ?_) (fun _ => ?_)
    | with_reducible refine foldl_good (fun _ _ _ => ?_) ?_
    | with_reducible refine foldl_fst (fun _ _ _ => ?_) ?_
    | with_reducible refine foldl_snd (fun _ _ _ => ?_) ?_
    | subst x
    | with_reducible split
    | dsimp only

theorem State.strikeAny_good {pq : List Instr × Prop} {s : State} {u : WdUnit} {ctx : Nat} (hs : Good pq s) : Good pq (State.strikeAny s u ctx) := by
  unfold State.strikeAny
  repeat' first
    | with_reducible assumption
    | with_reducible refine goodOut_next ?_
    | (lift_lets; intro x; refine (fun (hx : Good pq x) => ?_) ?_; clear_value x)
    | (intro x; subst x)
    | with_reducible refine State.fenceAny_good ?_
    | with_reducible refine State.strikeMxe_good ?_
    | with_reducible refine State.strikeRec_good ?_
    | with_reducible refine State.strikeRec_good_eq (by with_reducible assumption) ?_
    | with_reducible refine ite_good (fun _ => ?_) (fun _ => ?_)
    | with_reducible refine iteOut_good (fun _ => ?_) (fun _ => ?_)
    | with_reducible refine foldl_good (fun _ _ _ => ?_) ?_
    | with_reducible refine foldl_fst (fun _ _ _ => ?_) ?_
    | with_reducible refine foldl_snd (fun _ _ _ => ?_) ?_
    | subst x
    | with_reducible split
    | dsimp only

theorem State.startEngine_good {pq : List Instr × Prop} {s : State} {u : WdUnit} {counted : Bool} (hs : Good pq s) : Good pq (State.startEngine s u counted) := by
  unfold State.startEngine
  repeat' first
    | with_reducible assumption
    | with_reducible refine goodOut_next ?_
    | (lift_lets; intro x; refine (fun (hx : Good pq x) => ?_) ?_; clear_value x)
    | (intro x; subst x)
    | with_reducible refine State.beginReset_good ?_
    | with_reducible refine State.countReset_good ?_
    | with_reducible refine State.resetUnit_good ?_
    | with_reducible refine ite_good (fun _ => ?_) (fun _ => ?_)
    | with_reducible refine iteOut_good (fun _ => ?_) (fun _ => ?_)
    | with_reducible refine foldl_good (fun _ _ _ => ?_) ?_
    | with_reducible refine foldl_fst (fun _ _ _ => ?_) ?_
    | with_reducible refine foldl_snd (fun _ _ _ => ?_) ?_
    | subst x
    | with_reducible split
    | dsimp only

theorem State.hang_good {pq : List Instr × Prop} {s : State} {u : WdUnit} {ctx : Nat} (hs : Good pq s) : Good pq (State.hang s u ctx) := by
  unfold State.hang
  repeat' first
    | with_reducible assumption
    | with_reducible refine goodOut_next ?_
    | (lift_lets; intro x; refine (fun (hx : Good pq x) => ?_) ?_; clear_value x)
    | (intro x; subst x)
    | with_reducible refine State.abortFor_good ?_
    | with_reducible refine State.event_good ?_
    | with_reducible refine State.startEngine_good ?_
    | with_reducible refine ite_good (fun _ => ?_) (fun _ => ?_)
    | with_reducible refine iteOut_good (fun _ => ?_) (fun _ => ?_)
    | with_reducible refine foldl_good (fun _ _ _ => ?_) ?_
    | with_reducible refine foldl_fst (fun _ _ _ => ?_) ?_
    | with_reducible refine foldl_snd (fun _ _ _ => ?_) ?_
    | subst x
    | with_reducible split
    | dsimp only

theorem State.setTrials_good {pq : List Instr × Prop} {s : State} {l : List Trial} (hs : Good pq s) : Good pq (State.setTrials s l) := by
  unfold State.setTrials
  repeat' first
    | with_reducible assumption
    | with_reducible refine goodOut_next ?_
    | (lift_lets; intro x; refine (fun (hx : Good pq x) => ?_) ?_; clear_value x)
    | (intro x; subst x)
    | with_reducible refine State.withRcv_good _ ?_
    | with_reducible refine ite_good (fun _ => ?_) (fun _ => ?_)
    | with_reducible refine iteOut_good (fun _ => ?_) (fun _ => ?_)
    | with_reducible refine foldl_good (fun _ _ _ => ?_) ?_
    | with_reducible refine foldl_fst (fun _ _ _ => ?_) ?_
    | with_reducible refine foldl_snd (fun _ _ _ => ?_) ?_
    | subst x
    | with_reducible split
    | dsimp only

theorem State.dropTrial_good {pq : List Instr × Prop} {s : State} {u : WdUnit} (hs : Good pq s) : Good pq (State.dropTrial s u) := by
  unfold State.dropTrial
  repeat' first
    | with_reducible assumption
    | with_reducible refine goodOut_next ?_
    | (lift_lets; intro x; refine (fun (hx : Good pq x) => ?_) ?_; clear_value x)
    | (intro x; subst x)
    | with_reducible refine State.setTrials_good ?_
    | with_reducible refine ite_good (fun _ => ?_) (fun _ => ?_)
    | with_reducible refine iteOut_good (fun _ => ?_) (fun _ => ?_)
    | with_reducible refine foldl_good (fun _ _ _ => ?_) ?_
    | with_reducible refine foldl_fst (fun _ _ _ => ?_) ?_
    | with_reducible refine foldl_snd (fun _ _ _ => ?_) ?_
    | subst x
    | with_reducible split
    | dsimp only

theorem State.trialDone_good {pq : List Instr × Prop} {s : State} {t : Trial} {pass : Bool} (hs : Good pq s) : Good pq (State.trialDone s t pass) := by
  unfold State.trialDone
  repeat' first
    | with_reducible assumption
    | with_reducible refine goodOut_next ?_
    | (lift_lets; intro x; refine (fun (hx : Good pq x) => ?_) ?_; clear_value x)
    | (intro x; subst x)
    | with_reducible refine State.countReset_good ?_
    | with_reducible refine State.dropTrial_good ?_
    | with_reducible refine State.event_good ?_
    | with_reducible refine State.hang_good ?_
    | with_reducible refine State.setTrials_good ?_
    | with_reducible refine State.strikeAny_good ?_
    | with_reducible refine ite_good (fun _ => ?_) (fun _ => ?_)
    | with_reducible refine iteOut_good (fun _ => ?_) (fun _ => ?_)
    | with_reducible refine foldl_good (fun _ _ _ => ?_) ?_
    | with_reducible refine foldl_fst (fun _ _ _ => ?_) ?_
    | with_reducible refine foldl_snd (fun _ _ _ => ?_) ?_
    | subst x
    | with_reducible split
    | dsimp only

theorem State.watchdog_good {pq : List Instr × Prop} {s : State} {u : WdUnit} (hs : Good pq s) : Good pq (State.watchdog s u) := by
  unfold State.watchdog
  repeat' first
    | with_reducible assumption
    | with_reducible refine goodOut_next ?_
    | (lift_lets; intro x; refine (fun (hx : Good pq x) => ?_) ?_; clear_value x)
    | (intro x; subst x)
    | with_reducible refine State.event_good ?_
    | with_reducible refine State.hang_good ?_
    | with_reducible refine State.setTrials_good ?_
    | with_reducible refine State.startDie_good ?_
    | with_reducible refine State.startEngine_good ?_
    | with_reducible refine State.strikeAny_good ?_
    | with_reducible refine State.trialDone_good ?_
    | with_reducible refine ite_good (fun _ => ?_) (fun _ => ?_)
    | with_reducible refine iteOut_good (fun _ => ?_) (fun _ => ?_)
    | with_reducible refine foldl_good (fun _ _ _ => ?_) ?_
    | with_reducible refine foldl_fst (fun _ _ _ => ?_) ?_
    | with_reducible refine foldl_snd (fun _ _ _ => ?_) ?_
    | subst x
    | with_reducible split
    | dsimp only

theorem execWatchdogExpire_good {pq : List Instr × Prop} {u : WdUnit} {s : State} (hs : Good pq s) : GoodOut pq (execWatchdogExpire u s) := by
  unfold execWatchdogExpire
  repeat' first
    | with_reducible assumption
    | with_reducible refine goodOut_next ?_
    | (lift_lets; intro x; refine (fun (hx : Good pq x) => ?_) ?_; clear_value x)
    | (intro x; subst x)
    | with_reducible refine State.watchdog_good ?_
    | with_reducible refine ite_good (fun _ => ?_) (fun _ => ?_)
    | with_reducible refine iteOut_good (fun _ => ?_) (fun _ => ?_)
    | with_reducible refine foldl_good (fun _ _ _ => ?_) ?_
    | with_reducible refine foldl_fst (fun _ _ _ => ?_) ?_
    | with_reducible refine foldl_snd (fun _ _ _ => ?_) ?_
    | subst x
    | with_reducible split
    | dsimp only

theorem execHangTrialDone_good {pq : List Instr × Prop} {u : WdUnit} {pass : Bool} {s : State} (hs : Good pq s) : GoodOut pq (execHangTrialDone u pass s) := by
  unfold execHangTrialDone
  repeat' first
    | with_reducible assumption
    | with_reducible refine goodOut_next ?_
    | (lift_lets; intro x; refine (fun (hx : Good pq x) => ?_) ?_; clear_value x)
    | (intro x; subst x)
    | with_reducible refine State.trialDone_good ?_
    | with_reducible refine ite_good (fun _ => ?_) (fun _ => ?_)
    | with_reducible refine iteOut_good (fun _ => ?_) (fun _ => ?_)
    | with_reducible refine foldl_good (fun _ _ _ => ?_) ?_
    | with_reducible refine foldl_fst (fun _ _ _ => ?_) ?_
    | with_reducible refine foldl_snd (fun _ _ _ => ?_) ?_
    | subst x
    | with_reducible split
    | dsimp only

theorem execRcvWdlimWrite_good {pq : List Instr × Prop} {hi : Bool} {data : W64} {elapsed : List (WdUnit × Nat)} {s : State} (hs : Good pq s) : GoodOut pq (execRcvWdlimWrite hi data elapsed s) := by
  unfold execRcvWdlimWrite
  repeat' first
    | with_reducible assumption
    | with_reducible refine goodOut_next ?_
    | (lift_lets; intro x; refine (fun (hx : Good pq x) => ?_) ?_; clear_value x)
    | (intro x; subst x)
    | with_reducible refine State.setReg_good ?_
    | with_reducible refine State.watchdog_good ?_
    | with_reducible refine ite_good (fun _ => ?_) (fun _ => ?_)
    | with_reducible refine iteOut_good (fun _ => ?_) (fun _ => ?_)
    | with_reducible refine foldl_good (fun _ _ _ => ?_) ?_
    | with_reducible refine foldl_fst (fun _ _ _ => ?_) ?_
    | with_reducible refine foldl_snd (fun _ _ _ => ?_) ?_
    | subst x
    | with_reducible split
    | dsimp only

theorem execTaintBackstop_good {pq : List Instr × Prop} {s : State} (hs : Good pq s) : GoodOut pq (execTaintBackstop s) := by
  unfold execTaintBackstop
  repeat' first
    | with_reducible assumption
    | with_reducible refine goodOut_next ?_
    | (lift_lets; intro x; refine (fun (hx : Good pq x) => ?_) ?_; clear_value x)
    | (intro x; subst x)
    | with_reducible refine State.event_good ?_
    | with_reducible refine State.setErr_good ?_
    | with_reducible refine State.taintWhole_good ?_
    | with_reducible refine State.withRcv_good _ ?_
    | with_reducible refine ite_good (fun _ => ?_) (fun _ => ?_)
    | with_reducible refine iteOut_good (fun _ => ?_) (fun _ => ?_)
    | with_reducible refine foldl_good (fun _ _ _ => ?_) ?_
    | with_reducible refine foldl_fst (fun _ _ _ => ?_) ?_
    | with_reducible refine foldl_snd (fun _ _ _ => ?_) ?_
    | subst x
    | with_reducible split
    | dsimp only

theorem execContextAbort_good {pq : List Instr × Prop} {q : Fin 256} {s : State} (hs : Good pq s) : GoodOut pq (execContextAbort q s) := by
  unfold execContextAbort
  repeat' first
    | with_reducible assumption
    | with_reducible refine goodOut_next ?_
    | (lift_lets; intro x; refine (fun (hx : Good pq x) => ?_) ?_; clear_value x)
    | (intro x; subst x)
    | with_reducible refine State.abort_good ?_
    | with_reducible refine State.finCmd_good ?_
    | with_reducible refine State.markDispatched_good ?_
    | with_reducible refine State.pump_good ?_
    | with_reducible refine ite_good (fun _ => ?_) (fun _ => ?_)
    | with_reducible refine iteOut_good (fun _ => ?_) (fun _ => ?_)
    | with_reducible refine foldl_good (fun _ _ _ => ?_) ?_
    | with_reducible refine foldl_fst (fun _ _ _ => ?_) ?_
    | with_reducible refine foldl_snd (fun _ _ _ => ?_) ?_
    | subst x
    | with_reducible split
    | dsimp only

theorem execRcvAbort_good {pq : List Instr × Prop} {ctx : Byte} {fabric : Bool} {s : State} (hs : Good pq s) : GoodOut pq (execRcvAbort ctx fabric s) := by
  unfold execRcvAbort
  repeat' first
    | with_reducible assumption
    | with_reducible refine goodOut_next ?_
    | (lift_lets; intro x; refine (fun (hx : Good pq x) => ?_) ?_; clear_value x)
    | (intro x; subst x)
    | with_reducible refine State.abort_good ?_
    | with_reducible refine State.badSeq_good ?_
    | with_reducible refine ite_good (fun _ => ?_) (fun _ => ?_)
    | with_reducible refine iteOut_good (fun _ => ?_) (fun _ => ?_)
    | with_reducible refine foldl_good (fun _ _ _ => ?_) ?_
    | with_reducible refine foldl_fst (fun _ _ _ => ?_) ?_
    | with_reducible refine foldl_snd (fun _ _ _ => ?_) ?_
    | subst x
    | with_reducible split
    | dsimp only

theorem execAbortWedgeCheck_good {pq : List Instr × Prop} {wedged : List (WdUnit × Bool)} {s : State} (hs : Good pq s) : GoodOut pq (execAbortWedgeCheck wedged s) := by
  unfold execAbortWedgeCheck
  repeat' first
    | with_reducible assumption
    | with_reducible refine goodOut_next ?_
    | (lift_lets; intro x; refine (fun (hx : Good pq x) => ?_) ?_; clear_value x)
    | (intro x; subst x)
    | with_reducible refine State.countReset_good ?_
    | with_reducible refine State.fenceAny_good ?_
    | with_reducible refine State.resetUnit_good ?_
    | with_reducible refine State.startEngine_good ?_
    | with_reducible refine ite_good (fun _ => ?_) (fun _ => ?_)
    | with_reducible refine iteOut_good (fun _ => ?_) (fun _ => ?_)
    | with_reducible refine foldl_good (fun _ _ _ => ?_) ?_
    | with_reducible refine foldl_fst (fun _ _ _ => ?_) ?_
    | with_reducible refine foldl_snd (fun _ _ _ => ?_) ?_
    | subst x
    | with_reducible split
    | dsimp only

theorem execAbortComplete_good {pq : List Instr × Prop} {s : State} (hs : Good pq s) : GoodOut pq (execAbortComplete s) := by
  unfold execAbortComplete
  repeat' first
    | with_reducible assumption
    | with_reducible refine goodOut_next ?_
    | (lift_lets; intro x; refine (fun (hx : Good pq x) => ?_) ?_; clear_value x)
    | (intro x; subst x)
    | with_reducible refine State.finishAbort_good ?_
    | with_reducible refine ite_good (fun _ => ?_) (fun _ => ?_)
    | with_reducible refine iteOut_good (fun _ => ?_) (fun _ => ?_)
    | with_reducible refine foldl_good (fun _ _ _ => ?_) ?_
    | with_reducible refine foldl_fst (fun _ _ _ => ?_) ?_
    | with_reducible refine foldl_snd (fun _ _ _ => ?_) ?_
    | subst x
    | with_reducible split
    | dsimp only

theorem execAbortRelayResend_good {pq : List Instr × Prop} {s : State} (hs : Good pq s) : GoodOut pq (execAbortRelayResend s) := by
  unfold execAbortRelayResend
  repeat' first
    | with_reducible assumption
    | with_reducible refine goodOut_next ?_
    | (lift_lets; intro x; refine (fun (hx : Good pq x) => ?_) ?_; clear_value x)
    | (intro x; subst x)
    | with_reducible refine State.sendRelay_good ?_
    | with_reducible refine State.withRcv_good _ ?_
    | with_reducible refine ite_good (fun _ => ?_) (fun _ => ?_)
    | with_reducible refine iteOut_good (fun _ => ?_) (fun _ => ?_)
    | with_reducible refine foldl_good (fun _ _ _ => ?_) ?_
    | with_reducible refine foldl_fst (fun _ _ _ => ?_) ?_
    | with_reducible refine foldl_snd (fun _ _ _ => ?_) ?_
    | subst x
    | with_reducible split
    | dsimp only

-- FOR State.ifRun
-- HAVE ifRun State.ifRun_good ?_
theorem State.ifRun_good {pq : List Instr × Prop} {s t : State} (ht : Good pq t) (hs : Good pq s) : Good pq (s.ifRun t) :=
  ite_good (fun _ => ht) (fun _ => State.badSeq_good hs)

theorem execResetEngine_good {pq : List Instr × Prop} {u : WdUnit} {s : State} (hs : Good pq s) : GoodOut pq (execResetEngine u s) := by
  unfold execResetEngine
  repeat' first
    | with_reducible assumption
    | with_reducible refine goodOut_next ?_
    | (lift_lets; intro x; refine (fun (hx : Good pq x) => ?_) ?_; clear_value x)
    | (intro x; subst x)
    | with_reducible refine State.abortFor_good ?_
    | with_reducible refine State.badSeq_good ?_
    | with_reducible refine State.ifRun_good ?_ ?_
    | with_reducible refine State.startEngine_good ?_
    | with_reducible refine ite_good (fun _ => ?_) (fun _ => ?_)
    | with_reducible refine iteOut_good (fun _ => ?_) (fun _ => ?_)
    | with_reducible refine foldl_good (fun _ _ _ => ?_) ?_
    | with_reducible refine foldl_fst (fun _ _ _ => ?_) ?_
    | with_reducible refine foldl_snd (fun _ _ _ => ?_) ?_
    | subst x
    | with_reducible split
    | dsimp only

theorem execResetCluster_good {pq : List Instr × Prop} {c : ClusterNo} {s : State} (hs : Good pq s) : GoodOut pq (execResetCluster c s) := by
  unfold execResetCluster
  repeat' first
    | with_reducible assumption
    | with_reducible refine goodOut_next ?_
    | (lift_lets; intro x; refine (fun (hx : Good pq x) => ?_) ?_; clear_value x)
    | (intro x; subst x)
    | with_reducible refine State.ifRun_good ?_ ?_
    | with_reducible refine State.startCluster_good ?_
    | with_reducible refine ite_good (fun _ => ?_) (fun _ => ?_)
    | with_reducible refine iteOut_good (fun _ => ?_) (fun _ => ?_)
    | with_reducible refine foldl_good (fun _ _ _ => ?_) ?_
    | with_reducible refine foldl_fst (fun _ _ _ => ?_) ?_
    | with_reducible refine foldl_snd (fun _ _ _ => ?_) ?_
    | subst x
    | with_reducible split
    | dsimp only

theorem execResetDieFunction_good {pq : List Instr × Prop} {d : Die} {tr : TrainIn} {s : State} (hs : Good pq s) : GoodOut pq (execResetDieFunction d tr s) := by
  unfold execResetDieFunction
  repeat' first
    | with_reducible assumption
    | with_reducible refine goodOut_next ?_
    | (lift_lets; intro x; refine (fun (hx : Good pq x) => ?_) ?_; clear_value x)
    | (intro x; subst x)
    | with_reducible refine State.badSeq_good ?_
    | with_reducible refine State.ifRun_good ?_ ?_
    | with_reducible refine State.startDie_good ?_
    | with_reducible refine ite_good (fun _ => ?_) (fun _ => ?_)
    | with_reducible refine iteOut_good (fun _ => ?_) (fun _ => ?_)
    | with_reducible refine foldl_good (fun _ _ _ => ?_) ?_
    | with_reducible refine foldl_fst (fun _ _ _ => ?_) ?_
    | with_reducible refine foldl_snd (fun _ _ _ => ?_) ?_
    | subst x
    | with_reducible split
    | dsimp only

theorem execResetWarm_good {pq : List Instr × Prop} {tr : TrainIn} {s : State} (hs : Good pq s) : GoodOut pq (execResetWarm tr s) := by
  unfold execResetWarm
  repeat' first
    | with_reducible assumption
    | with_reducible refine goodOut_next ?_
    | (lift_lets; intro x; refine (fun (hx : Good pq x) => ?_) ?_; clear_value x)
    | (intro x; subst x)
    | with_reducible refine State.ifRun_good ?_ ?_
    | with_reducible refine State.startRecovery_good ?_
    | with_reducible refine ite_good (fun _ => ?_) (fun _ => ?_)
    | with_reducible refine iteOut_good (fun _ => ?_) (fun _ => ?_)
    | with_reducible refine foldl_good (fun _ _ _ => ?_) ?_
    | with_reducible refine foldl_fst (fun _ _ _ => ?_) ?_
    | with_reducible refine foldl_snd (fun _ _ _ => ?_) ?_
    | subst x
    | with_reducible split
    | dsimp only

theorem execResetCold_good {pq : List Instr × Prop} {tr : TrainIn} {s : State} (hs : Good pq s) : GoodOut pq (execResetCold tr s) := by
  unfold execResetCold
  repeat' first
    | with_reducible assumption
    | with_reducible refine goodOut_next ?_
    | (lift_lets; intro x; refine (fun (hx : Good pq x) => ?_) ?_; clear_value x)
    | (intro x; subst x)
    | with_reducible refine State.ifRun_good ?_ ?_
    | with_reducible refine State.startRecovery_good ?_
    | with_reducible refine ite_good (fun _ => ?_) (fun _ => ?_)
    | with_reducible refine iteOut_good (fun _ => ?_) (fun _ => ?_)
    | with_reducible refine foldl_good (fun _ _ _ => ?_) ?_
    | with_reducible refine foldl_fst (fun _ _ _ => ?_) ?_
    | with_reducible refine foldl_snd (fun _ _ _ => ?_) ?_
    | subst x
    | with_reducible split
    | dsimp only

theorem execDieFence_good {pq : List Instr × Prop} {d : Die} {s : State} (hs : Good pq s) : GoodOut pq (execDieFence d s) := by
  unfold execDieFence
  repeat' first
    | with_reducible assumption
    | with_reducible refine goodOut_next ?_
    | (lift_lets; intro x; refine (fun (hx : Good pq x) => ?_) ?_; clear_value x)
    | (intro x; subst x)
    | with_reducible refine State.fenceDie_good ?_
    | with_reducible refine State.ifRun_good ?_ ?_
    | with_reducible refine ite_good (fun _ => ?_) (fun _ => ?_)
    | with_reducible refine iteOut_good (fun _ => ?_) (fun _ => ?_)
    | with_reducible refine foldl_good (fun _ _ _ => ?_) ?_
    | with_reducible refine foldl_fst (fun _ _ _ => ?_) ?_
    | with_reducible refine foldl_snd (fun _ _ _ => ?_) ?_
    | subst x
    | with_reducible split
    | dsimp only

theorem execColdReset_good {pq : List Instr × Prop} {tr : TrainIn} {s : State} (hs : Good pq s) : GoodOut pq (execColdReset tr s) := by
  unfold execColdReset
  repeat' first
    | with_reducible assumption
    | with_reducible refine goodOut_next ?_
    | (lift_lets; intro x; refine (fun (hx : Good pq x) => ?_) ?_; clear_value x)
    | (intro x; subst x)
    | with_reducible refine State.startRecovery_good ?_
    | with_reducible refine State.withPlat_good _ ?_
    | with_reducible refine ite_good (fun _ => ?_) (fun _ => ?_)
    | with_reducible refine iteOut_good (fun _ => ?_) (fun _ => ?_)
    | with_reducible refine foldl_good (fun _ _ _ => ?_) ?_
    | with_reducible refine foldl_fst (fun _ _ _ => ?_) ?_
    | with_reducible refine foldl_snd (fun _ _ _ => ?_) ?_
    | subst x
    | with_reducible split
    | dsimp only

theorem State.dropReset_good {pq : List Instr × Prop} {s : State} {t : ResetTarget} (hs : Good pq s) : Good pq (State.dropReset s t) := by
  unfold State.dropReset
  repeat' first
    | with_reducible assumption
    | with_reducible refine goodOut_next ?_
    | (lift_lets; intro x; refine (fun (hx : Good pq x) => ?_) ?_; clear_value x)
    | (intro x; subst x)
    | with_reducible refine State.withRcv_good _ ?_
    | with_reducible refine ite_good (fun _ => ?_) (fun _ => ?_)
    | with_reducible refine iteOut_good (fun _ => ?_) (fun _ => ?_)
    | with_reducible refine foldl_good (fun _ _ _ => ?_) ?_
    | with_reducible refine foldl_fst (fun _ _ _ => ?_) ?_
    | with_reducible refine foldl_snd (fun _ _ _ => ?_) ?_
    | subst x
    | with_reducible split
    | dsimp only

theorem State.readmitCluster_good {pq : List Instr × Prop} {s : State} {c : Nat} (hs : Good pq s) : Good pq (State.readmitCluster s c) := by
  unfold State.readmitCluster
  repeat' first
    | with_reducible assumption
    | with_reducible refine goodOut_next ?_
    | (lift_lets; intro x; refine (fun (hx : Good pq x) => ?_) ?_; clear_value x)
    | (intro x; subst x)
    | with_reducible refine State.liftFence_good ?_
    | with_reducible refine ite_good (fun _ => ?_) (fun _ => ?_)
    | with_reducible refine iteOut_good (fun _ => ?_) (fun _ => ?_)
    | with_reducible refine foldl_good (fun _ _ _ => ?_) ?_
    | with_reducible refine foldl_fst (fun _ _ _ => ?_) ?_
    | with_reducible refine foldl_snd (fun _ _ _ => ?_) ?_
    | subst x
    | with_reducible split
    | dsimp only

theorem State.trainBridge_good {pq : List Instr × Prop} {s : State} {b : Nat} {fails : Bool} (hs : Good pq s) : Good pq (State.trainBridge s b fails) := by
  unfold State.trainBridge
  repeat' first
    | with_reducible assumption
    | with_reducible refine goodOut_next ?_
    | (lift_lets; intro x; refine (fun (hx : Good pq x) => ?_) ?_; clear_value x)
    | (intro x; subst x)
    | with_reducible refine State.fenceUnit_good ?_
    | with_reducible refine State.liftFence_good ?_
    | with_reducible refine State.setBridge_good ?_
    | with_reducible refine ite_good (fun _ => ?_) (fun _ => ?_)
    | with_reducible refine iteOut_good (fun _ => ?_) (fun _ => ?_)
    | with_reducible refine foldl_good (fun _ _ _ => ?_) ?_
    | with_reducible refine foldl_fst (fun _ _ _ => ?_) ?_
    | with_reducible refine foldl_snd (fun _ _ _ => ?_) ?_
    | subst x
    | with_reducible split
    | dsimp only

theorem State.trainMemory_good {pq : List Instr × Prop} {s : State} {tr : TrainIn} {mine : Nat → Bool} (hs : Good pq s) : Good pq (State.trainMemory s tr mine) := by
  unfold State.trainMemory
  repeat' first
    | with_reducible assumption
    | with_reducible refine goodOut_next ?_
    | (lift_lets; intro x; refine (fun (hx : Good pq x) => ?_) ?_; clear_value x)
    | (intro x; subst x)
    | with_reducible refine State.fenceChan_good ?_
    | with_reducible refine State.fenceLp_good ?_
    | with_reducible refine State.fenceStack_good ?_
    | with_reducible refine ite_good (fun _ => ?_) (fun _ => ?_)
    | with_reducible refine iteOut_good (fun _ => ?_) (fun _ => ?_)
    | with_reducible refine foldl_good (fun _ _ _ => ?_) ?_
    | with_reducible refine foldl_fst (fun _ _ _ => ?_) ?_
    | with_reducible refine foldl_snd (fun _ _ _ => ?_) ?_
    | subst x
    | with_reducible split
    | dsimp only

theorem State.endDie_good {pq : List Instr × Prop} {s : State} {d : Nat} {tr : Option TrainIn} (hs : Good pq s) : Good pq (State.endDie s d tr) := by
  unfold State.endDie
  repeat' first
    | with_reducible assumption
    | with_reducible refine goodOut_next ?_
    | (lift_lets; intro x; refine (fun (hx : Good pq x) => ?_) ?_; clear_value x)
    | (intro x; subst x)
    | with_reducible refine State.noteDir_good ?_
    | with_reducible refine State.trainBridge_good ?_
    | with_reducible refine State.trainMemory_good ?_
    | with_reducible refine State.trainPort_good ?_
    | with_reducible refine State.withPlat_good _ ?_
    | with_reducible refine ite_good (fun _ => ?_) (fun _ => ?_)
    | with_reducible refine iteOut_good (fun _ => ?_) (fun _ => ?_)
    | with_reducible refine foldl_good (fun _ _ _ => ?_) ?_
    | with_reducible refine foldl_fst (fun _ _ _ => ?_) ?_
    | with_reducible refine foldl_snd (fun _ _ _ => ?_) ?_
    | subst x
    | with_reducible split
    | dsimp only

theorem execResetDone_good {pq : List Instr × Prop} {t : ResetTarget} {selfTestsPass : Bool} {s : State} (hs : Good pq s) : GoodOut pq (execResetDone t selfTestsPass s) := by
  unfold execResetDone
  repeat' first
    | with_reducible assumption
    | with_reducible refine goodOut_next ?_
    | (lift_lets; intro x; refine (fun (hx : Good pq x) => ?_) ?_; clear_value x)
    | (intro x; subst x)
    | with_reducible refine State.dropReset_good ?_
    | with_reducible refine State.endDie_good ?_
    | with_reducible refine State.fenceCluster_good ?_
    | with_reducible refine State.readmitCluster_good ?_
    | with_reducible refine ite_good (fun _ => ?_) (fun _ => ?_)
    | with_reducible refine iteOut_good (fun _ => ?_) (fun _ => ?_)
    | with_reducible refine foldl_good (fun _ _ _ => ?_) ?_
    | with_reducible refine foldl_fst (fun _ _ _ => ?_) ?_
    | with_reducible refine foldl_snd (fun _ _ _ => ?_) ?_
    | subst x
    | with_reducible split
    | dsimp only

theorem execResetFail_good {pq : List Instr × Prop} {t : ResetTarget} {s : State} (hs : Good pq s) : GoodOut pq (execResetFail t s) := by
  unfold execResetFail
  repeat' first
    | with_reducible assumption
    | with_reducible refine goodOut_next ?_
    | (lift_lets; intro x; refine (fun (hx : Good pq x) => ?_) ?_; clear_value x)
    | (intro x; subst x)
    | with_reducible refine State.dropReset_good ?_
    | with_reducible refine State.event_good ?_
    | with_reducible refine State.fenceCluster_good ?_
    | with_reducible refine State.fenceDie_good ?_
    | with_reducible refine State.setErr_good ?_
    | with_reducible refine State.startCluster_good ?_
    | with_reducible refine State.startDie_good ?_
    | with_reducible refine State.startRecovery_good ?_
    | with_reducible refine ite_good (fun _ => ?_) (fun _ => ?_)
    | with_reducible refine iteOut_good (fun _ => ?_) (fun _ => ?_)
    | with_reducible refine foldl_good (fun _ _ _ => ?_) ?_
    | with_reducible refine foldl_fst (fun _ _ _ => ?_) ?_
    | with_reducible refine foldl_snd (fun _ _ _ => ?_) ?_
    | subst x
    | with_reducible split
    | dsimp only

theorem State.applyTraining_good {pq : List Instr × Prop} {s : State} {tr : TrainIn} (hs : Good pq s) : Good pq (State.applyTraining s tr) := by
  unfold State.applyTraining
  repeat' first
    | with_reducible assumption
    | with_reducible refine goodOut_next ?_
    | (lift_lets; intro x; refine (fun (hx : Good pq x) => ?_) ?_; clear_value x)
    | (intro x; subst x)
    | with_reducible refine State.fenceDie_good ?_
    | with_reducible refine State.liftFence_good ?_
    | with_reducible refine State.setLane_good ?_
    | with_reducible refine State.trainBridge_good ?_
    | with_reducible refine State.trainMemory_good ?_
    | with_reducible refine State.trainPort_good ?_
    | with_reducible refine State.withPlat_good _ ?_
    | with_reducible refine ite_good (fun _ => ?_) (fun _ => ?_)
    | with_reducible refine iteOut_good (fun _ => ?_) (fun _ => ?_)
    | with_reducible refine foldl_good (fun _ _ _ => ?_) ?_
    | with_reducible refine foldl_fst (fun _ _ _ => ?_) ?_
    | with_reducible refine foldl_snd (fun _ _ _ => ?_) ?_
    | subst x
    | with_reducible split
    | dsimp only

theorem State.enterRun_good {pq : List Instr × Prop} {s : State} (hs : Good pq s) : Good pq (State.enterRun s) := by
  unfold State.enterRun
  repeat' first
    | with_reducible assumption
    | with_reducible refine goodOut_next ?_
    | (lift_lets; intro x; refine (fun (hx : Good pq x) => ?_) ?_; clear_value x)
    | (intro x; subst x)
    | with_reducible refine State.setFld_good ?_
    | with_reducible refine State.setPhase_good ?_
    | with_reducible refine ite_good (fun _ => ?_) (fun _ => ?_)
    | with_reducible refine iteOut_good (fun _ => ?_) (fun _ => ?_)
    | with_reducible refine foldl_good (fun _ _ _ => ?_) ?_
    | with_reducible refine foldl_fst (fun _ _ _ => ?_) ?_
    | with_reducible refine foldl_snd (fun _ _ _ => ?_) ?_
    | subst x
    | with_reducible split
    | dsimp only

theorem execRecoveryDone_good {pq : List Instr × Prop} {s : State} (hs : Good pq s) : GoodOut pq (execRecoveryDone s) := by
  unfold execRecoveryDone
  repeat' first
    | with_reducible assumption
    | with_reducible refine goodOut_next ?_
    | (lift_lets; intro x; refine (fun (hx : Good pq x) => ?_) ?_; clear_value x)
    | (intro x; subst x)
    | with_reducible refine State.applyTraining_good ?_
    | with_reducible refine State.enterRun_good ?_
    | with_reducible refine State.event_good ?_
    | with_reducible refine State.loadIdentity_good ?_
    | with_reducible refine State.noteDir_good ?_
    | with_reducible refine State.unfinished_good ?_
    | with_reducible refine State.withPlat_good _ ?_
    | with_reducible refine State.withRcv_good _ ?_
    | with_reducible refine ite_good (fun _ => ?_) (fun _ => ?_)
    | with_reducible refine iteOut_good (fun _ => ?_) (fun _ => ?_)
    | with_reducible refine foldl_good (fun _ _ _ => ?_) ?_
    | with_reducible refine foldl_fst (fun _ _ _ => ?_) ?_
    | with_reducible refine foldl_snd (fun _ _ _ => ?_) ?_
    | subst x
    | with_reducible split
    | dsimp only

theorem execDroopReset_good {pq : List Instr × Prop} {d : Die} {k : Fin 35} {s : State} (hs : Good pq s) : GoodOut pq (execDroopReset d k s) := by
  unfold execDroopReset
  repeat' first
    | with_reducible assumption
    | with_reducible refine goodOut_next ?_
    | (lift_lets; intro x; refine (fun (hx : Good pq x) => ?_) ?_; clear_value x)
    | (intro x; subst x)
    | with_reducible refine State.countStretch_good ?_
    | with_reducible refine State.event_good ?_
    | with_reducible refine State.setErr_good ?_
    | with_reducible refine State.setWarn_good ?_
    | with_reducible refine State.startCluster_good ?_
    | with_reducible refine State.startDie_good ?_
    | with_reducible refine ite_good (fun _ => ?_) (fun _ => ?_)
    | with_reducible refine iteOut_good (fun _ => ?_) (fun _ => ?_)
    | with_reducible refine foldl_good (fun _ _ _ => ?_) ?_
    | with_reducible refine foldl_fst (fun _ _ _ => ?_) ?_
    | with_reducible refine foldl_snd (fun _ _ _ => ?_) ?_
    | subst x
    | with_reducible split
    | dsimp only

theorem execRcvOosack_good {pq : List Instr × Prop} {evseq : W32} {s : State} (hs : Good pq s) : GoodOut pq (execRcvOosack evseq s) := by
  unfold execRcvOosack
  repeat' first
    | with_reducible assumption
    | with_reducible refine goodOut_next ?_
    | (lift_lets; intro x; refine (fun (hx : Good pq x) => ?_) ?_; clear_value x)
    | (intro x; subst x)
    | with_reducible refine State.badSeq_good ?_
    | with_reducible refine State.setFld_good ?_
    | with_reducible refine State.setOos_good ?_
    | with_reducible refine ite_good (fun _ => ?_) (fun _ => ?_)
    | with_reducible refine iteOut_good (fun _ => ?_) (fun _ => ?_)
    | with_reducible refine foldl_good (fun _ _ _ => ?_) ?_
    | with_reducible refine foldl_fst (fun _ _ _ => ?_) ?_
    | with_reducible refine foldl_snd (fun _ _ _ => ?_) ?_
    | subst x
    | with_reducible split
    | dsimp only

theorem execRcvJobidWrite_good {pq : List Instr × Prop} {jobid : W64} {s : State} (hs : Good pq s) : GoodOut pq (execRcvJobidWrite jobid s) := by
  unfold execRcvJobidWrite
  repeat' first
    | with_reducible assumption
    | with_reducible refine goodOut_next ?_
    | (lift_lets; intro x; refine (fun (hx : Good pq x) => ?_) ?_; clear_value x)
    | (intro x; subst x)
    | with_reducible refine State.setReg_good ?_
    | with_reducible refine ite_good (fun _ => ?_) (fun _ => ?_)
    | with_reducible refine iteOut_good (fun _ => ?_) (fun _ => ?_)
    | with_reducible refine foldl_good (fun _ _ _ => ?_) ?_
    | with_reducible refine foldl_fst (fun _ _ _ => ?_) ?_
    | with_reducible refine foldl_snd (fun _ _ _ => ?_) ?_
    | subst x
    | with_reducible split
    | dsimp only

theorem execRcvAbstatRead_good {pq : List Instr × Prop} {s : State} (hs : Good pq s) : GoodOut pq (execRcvAbstatRead s) := by
  unfold execRcvAbstatRead
  repeat' first
    | with_reducible assumption
    | with_reducible refine goodOut_next ?_
    | (lift_lets; intro x; refine (fun (hx : Good pq x) => ?_) ?_; clear_value x)
    | (intro x; subst x)
    | with_reducible refine State.readClear_good ?_
    | with_reducible refine ite_good (fun _ => ?_) (fun _ => ?_)
    | with_reducible refine iteOut_good (fun _ => ?_) (fun _ => ?_)
    | with_reducible refine foldl_good (fun _ _ _ => ?_) ?_
    | with_reducible refine foldl_fst (fun _ _ _ => ?_) ?_
    | with_reducible refine foldl_snd (fun _ _ _ => ?_) ?_
    | subst x
    | with_reducible split
    | dsimp only

theorem execDumpRead_good {pq : List Instr × Prop} {s : State} (hs : Good pq s) : GoodOut pq (execDumpRead s) := by
  unfold execDumpRead
  repeat' first
    | with_reducible assumption
    | with_reducible refine goodOut_next ?_
    | (lift_lets; intro x; refine (fun (hx : Good pq x) => ?_) ?_; clear_value x)
    | (intro x; subst x)
    | with_reducible refine State.out_good ?_
    | with_reducible refine State.setFld_good ?_
    | with_reducible refine State.sstAdd_good ?_
    | with_reducible refine State.withRcv_good _ ?_
    | with_reducible refine ite_good (fun _ => ?_) (fun _ => ?_)
    | with_reducible refine iteOut_good (fun _ => ?_) (fun _ => ?_)
    | with_reducible refine foldl_good (fun _ _ _ => ?_) ?_
    | with_reducible refine foldl_fst (fun _ _ _ => ?_) ?_
    | with_reducible refine foldl_snd (fun _ _ _ => ?_) ?_
    | subst x
    | with_reducible split
    | dsimp only

theorem execEvlLostRead_good {pq : List Instr × Prop} {d : Die} {s : State} (hs : Good pq s) : GoodOut pq (execEvlLostRead d s) := by
  unfold execEvlLostRead
  repeat' first
    | with_reducible assumption
    | with_reducible refine goodOut_next ?_
    | (lift_lets; intro x; refine (fun (hx : Good pq x) => ?_) ?_; clear_value x)
    | (intro x; subst x)
    | with_reducible refine State.readClear_good ?_
    | with_reducible refine ite_good (fun _ => ?_) (fun _ => ?_)
    | with_reducible refine iteOut_good (fun _ => ?_) (fun _ => ?_)
    | with_reducible refine foldl_good (fun _ _ _ => ?_) ?_
    | with_reducible refine foldl_fst (fun _ _ _ => ?_) ?_
    | with_reducible refine foldl_snd (fun _ _ _ => ?_) ?_
    | subst x
    | with_reducible split
    | dsimp only

theorem execDownWindowExpire_good {pq : List Instr × Prop} {p : Option (Fin 24)} {s : State} (hs : Good pq s) : GoodOut pq (execDownWindowExpire p s) := by
  unfold execDownWindowExpire
  repeat' first
    | with_reducible assumption
    | with_reducible refine goodOut_next ?_
    | (lift_lets; intro x; refine (fun (hx : Good pq x) => ?_) ?_; clear_value x)
    | (intro x; subst x)
    | with_reducible refine State.setFld_good ?_
    | with_reducible refine State.showLaneDowns_good ?_
    | with_reducible refine ite_good (fun _ => ?_) (fun _ => ?_)
    | with_reducible refine iteOut_good (fun _ => ?_) (fun _ => ?_)
    | with_reducible refine foldl_good (fun _ _ _ => ?_) ?_
    | with_reducible refine foldl_fst (fun _ _ _ => ?_) ?_
    | with_reducible refine foldl_snd (fun _ _ _ => ?_) ?_
    | subst x
    | with_reducible split
    | dsimp only

-- FOR State.unpowered
-- HAVE unpowered State.unpowered_good
theorem State.unpowered_good {pq : List Instr × Prop} {s : State} {ranges : List (Nat × W64)} (hs : Good pq s) : Good pq (State.unpowered s ranges) := by
  unfold State.unpowered
  exact State.withHost_good _ (State.withBoot_good _ (State.withSst_good _ (State.withPlat_good _ (State.withRegStatus_good _ (State.withRdData_good _ (State.withFree_good _
    ⟨hs.1, fun _ => ⟨canonical_reset, tapOk_reset⟩⟩))))))

theorem execPowerLoss_good {pq : List Instr × Prop} {s : State} (hs : Good pq s) : GoodOut pq (execPowerLoss s) := by
  unfold execPowerLoss
  repeat' first
    | with_reducible assumption
    | with_reducible refine goodOut_next ?_
    | (lift_lets; intro x; refine (fun (hx : Good pq x) => ?_) ?_; clear_value x)
    | (intro x; subst x)
    | with_reducible refine State.unpowered_good ?_
    | with_reducible refine ite_good (fun _ => ?_) (fun _ => ?_)
    | with_reducible refine iteOut_good (fun _ => ?_) (fun _ => ?_)
    | with_reducible refine foldl_good (fun _ _ _ => ?_) ?_
    | with_reducible refine foldl_fst (fun _ _ _ => ?_) ?_
    | with_reducible refine foldl_snd (fun _ _ _ => ?_) ?_
    | subst x
    | with_reducible split
    | dsimp only

theorem State.formatStore_good {pq : List Instr × Prop} {s : State} (hs : Good pq s) : Good pq (State.formatStore s) := by
  unfold State.formatStore
  repeat' first
    | with_reducible assumption
    | with_reducible refine goodOut_next ?_
    | (lift_lets; intro x; refine (fun (hx : Good pq x) => ?_) ?_; clear_value x)
    | (intro x; subst x)
    | with_reducible refine State.setErr_good ?_
    | with_reducible refine State.withSst_good _ ?_
    | with_reducible refine ite_good (fun _ => ?_) (fun _ => ?_)
    | with_reducible refine iteOut_good (fun _ => ?_) (fun _ => ?_)
    | with_reducible refine foldl_good (fun _ _ _ => ?_) ?_
    | with_reducible refine foldl_fst (fun _ _ _ => ?_) ?_
    | with_reducible refine foldl_snd (fun _ _ _ => ?_) ?_
    | subst x
    | with_reducible split
    | dsimp only

theorem State.readStore_good {pq : List Instr × Prop} {s : State} {devA : Bool} {devB : Bool} (hs : Good pq s) : Good pq (State.readStore s devA devB) := by
  unfold State.readStore
  repeat' first
    | with_reducible assumption
    | with_reducible refine goodOut_next ?_
    | (lift_lets; intro x; refine (fun (hx : Good pq x) => ?_) ?_; clear_value x)
    | (intro x; subst x)
    | with_reducible refine State.act_good ?_
    | with_reducible refine State.formatStore_good ?_
    | with_reducible refine State.setErr_good ?_
    | with_reducible refine State.setFld_good ?_
    | with_reducible refine State.withSst_good _ ?_
    | with_reducible refine State.act_good_eq (by with_reducible assumption) ?_
    | with_reducible refine ite_good (fun _ => ?_) (fun _ => ?_)
    | with_reducible refine iteOut_good (fun _ => ?_) (fun _ => ?_)
    | with_reducible refine foldl_good (fun _ _ _ => ?_) ?_
    | with_reducible refine foldl_fst (fun _ _ _ => ?_) ?_
    | with_reducible refine foldl_snd (fun _ _ _ => ?_) ?_
    | subst x
    | with_reducible split
    | dsimp only

theorem State.loadUnits_good {pq : List Instr × Prop} {s : State} (hs : Good pq s) : Good pq (State.loadUnits s) := by
  unfold State.loadUnits
  repeat' first
    | with_reducible assumption
    | with_reducible refine goodOut_next ?_
    | (lift_lets; intro x; refine (fun (hx : Good pq x) => ?_) ?_; clear_value x)
    | (intro x; subst x)
    | with_reducible refine State.putUnit_good ?_
    | with_reducible refine State.withSst_good _ ?_
    | with_reducible refine ite_good (fun _ => ?_) (fun _ => ?_)
    | with_reducible refine iteOut_good (fun _ => ?_) (fun _ => ?_)
    | with_reducible refine foldl_good (fun _ _ _ => ?_) ?_
    | with_reducible refine foldl_fst (fun _ _ _ => ?_) ?_
    | with_reducible refine foldl_snd (fun _ _ _ => ?_) ?_
    | subst x
    | with_reducible split
    | dsimp only

theorem State.senseFuses_good {pq : List Instr × Prop} {s : State} (hs : Good pq s) : Good pq (State.senseFuses s) := by
  unfold State.senseFuses
  repeat' first
    | with_reducible assumption
    | with_reducible refine goodOut_next ?_
    | (lift_lets; intro x; refine (fun (hx : Good pq x) => ?_) ?_; clear_value x)
    | (intro x; subst x)
    | with_reducible refine State.draw_good ?_
    | with_reducible refine State.withBoot_good _ ?_
    | with_reducible refine State.draw_good_eq (by with_reducible assumption) ?_
    | with_reducible refine ite_good (fun _ => ?_) (fun _ => ?_)
    | with_reducible refine iteOut_good (fun _ => ?_) (fun _ => ?_)
    | with_reducible refine foldl_good (fun _ _ _ => ?_) ?_
    | with_reducible refine foldl_fst (fun _ _ _ => ?_) ?_
    | with_reducible refine foldl_snd (fun _ _ _ => ?_) ?_
    | subst x
    | with_reducible split
    | dsimp only

theorem State.selfChecks_good {pq : List Instr × Prop} {s : State} {ok : BitVec 4} (hs : Good pq s) : Good pq (State.selfChecks s ok) := by
  unfold State.selfChecks
  repeat' first
    | with_reducible assumption
    | with_reducible refine goodOut_next ?_
    | (lift_lets; intro x; refine (fun (hx : Good pq x) => ?_) ?_; clear_value x)
    | (intro x; subst x)
    | with_reducible refine State.event_good ?_
    | with_reducible refine State.fenceDie_good ?_
    | with_reducible refine State.portOff_good ?_
    | with_reducible refine State.setLane_good ?_
    | with_reducible refine State.withPlat_good _ ?_
    | with_reducible refine ite_good (fun _ => ?_) (fun _ => ?_)
    | with_reducible refine iteOut_good (fun _ => ?_) (fun _ => ?_)
    | with_reducible refine foldl_good (fun _ _ _ => ?_) ?_
    | with_reducible refine foldl_fst (fun _ _ _ => ?_) ?_
    | with_reducible refine foldl_snd (fun _ _ _ => ?_) ?_
    | subst x
    | with_reducible split
    | dsimp only

theorem execPowerUp_good {pq : List Instr × Prop} {i : PowerUpIn} {s : State} (hs : Good pq s) : GoodOut pq (execPowerUp i s) := by
  unfold execPowerUp
  repeat' first
    | with_reducible assumption
    | with_reducible refine goodOut_next ?_
    | (lift_lets; intro x; refine (fun (hx : Good pq x) => ?_) ?_; clear_value x)
    | (intro x; subst x)
    | with_reducible refine State.fenceLp_good ?_
    | with_reducible refine State.loadUnits_good ?_
    | with_reducible refine State.newChal_good ?_
    | with_reducible refine State.pwrStart_good ?_
    | with_reducible refine State.readStore_good ?_
    | with_reducible refine State.selfChecks_good ?_
    | with_reducible refine State.senseFuses_good ?_
    | with_reducible refine State.setFld_good ?_
    | with_reducible refine State.setReg_good ?_
    | with_reducible refine State.unpowered_good ?_
    | with_reducible refine State.withPlat_good _ ?_
    | with_reducible refine ite_good (fun _ => ?_) (fun _ => ?_)
    | with_reducible refine iteOut_good (fun _ => ?_) (fun _ => ?_)
    | with_reducible refine foldl_good (fun _ _ _ => ?_) ?_
    | with_reducible refine foldl_fst (fun _ _ _ => ?_) ?_
    | with_reducible refine foldl_snd (fun _ _ _ => ?_) ?_
    | subst x
    | with_reducible split
    | dsimp only

theorem State.loadDump_good {pq : List Instr × Prop} {s : State} (hs : Good pq s) : Good pq (State.loadDump s) := by
  unfold State.loadDump
  repeat' first
    | with_reducible assumption
    | with_reducible refine goodOut_next ?_
    | (lift_lets; intro x; refine (fun (hx : Good pq x) => ?_) ?_; clear_value x)
    | (intro x; subst x)
    | with_reducible refine State.withFree_good _ ?_
    | with_reducible refine State.withRcv_good _ ?_
    | with_reducible refine ite_good (fun _ => ?_) (fun _ => ?_)
    | with_reducible refine iteOut_good (fun _ => ?_) (fun _ => ?_)
    | with_reducible refine foldl_good (fun _ _ _ => ?_) ?_
    | with_reducible refine foldl_fst (fun _ _ _ => ?_) ?_
    | with_reducible refine foldl_snd (fun _ _ _ => ?_) ?_
    | subst x
    | with_reducible split
    | dsimp only

theorem State.loadWmark_good {pq : List Instr × Prop} {s : State} (hs : Good pq s) : Good pq (State.loadWmark s) := by
  unfold State.loadWmark
  repeat' first
    | with_reducible assumption
    | with_reducible refine goodOut_next ?_
    | (lift_lets; intro x; refine (fun (hx : Good pq x) => ?_) ?_; clear_value x)
    | (intro x; subst x)
    | with_reducible refine State.setReg_good ?_
    | with_reducible refine State.withHost_good _ ?_
    | with_reducible refine ite_good (fun _ => ?_) (fun _ => ?_)
    | with_reducible refine iteOut_good (fun _ => ?_) (fun _ => ?_)
    | with_reducible refine foldl_good (fun _ _ _ => ?_) ?_
    | with_reducible refine foldl_fst (fun _ _ _ => ?_) ?_
    | with_reducible refine foldl_snd (fun _ _ _ => ?_) ?_
    | subst x
    | with_reducible split
    | dsimp only

theorem State.loadLeaf_good {pq : List Instr × Prop} {s : State} (hs : Good pq s) : Good pq (State.loadLeaf s) := by
  unfold State.loadLeaf
  repeat' first
    | with_reducible assumption
    | with_reducible refine goodOut_next ?_
    | (lift_lets; intro x; refine (fun (hx : Good pq x) => ?_) ?_; clear_value x)
    | (intro x; subst x)
    | with_reducible refine State.event_good ?_
    | with_reducible refine State.setErr_good ?_
    | with_reducible refine State.setFld_good ?_
    | with_reducible refine State.withBoot_good _ ?_
    | with_reducible refine ite_good (fun _ => ?_) (fun _ => ?_)
    | with_reducible refine iteOut_good (fun _ => ?_) (fun _ => ?_)
    | with_reducible refine foldl_good (fun _ _ _ => ?_) ?_
    | with_reducible refine foldl_fst (fun _ _ _ => ?_) ?_
    | with_reducible refine foldl_snd (fun _ _ _ => ?_) ?_
    | subst x
    | with_reducible split
    | dsimp only

theorem State.loadOos_good {pq : List Instr × Prop} {s : State} (hs : Good pq s) : Good pq (State.loadOos s) := by
  unfold State.loadOos
  repeat' first
    | with_reducible assumption
    | with_reducible refine goodOut_next ?_
    | (lift_lets; intro x; refine (fun (hx : Good pq x) => ?_) ?_; clear_value x)
    | (intro x; subst x)
    | with_reducible refine State.setReg_good ?_
    | with_reducible refine ite_good (fun _ => ?_) (fun _ => ?_)
    | with_reducible refine iteOut_good (fun _ => ?_) (fun _ => ?_)
    | with_reducible refine foldl_good (fun _ _ _ => ?_) ?_
    | with_reducible refine foldl_fst (fun _ _ _ => ?_) ?_
    | with_reducible refine foldl_snd (fun _ _ _ => ?_) ?_
    | subst x
    | with_reducible split
    | dsimp only

theorem State.dropFenced_good {pq : List Instr × Prop} {s : State} (hs : Good pq s) : Good pq (State.dropFenced s) := by
  unfold State.dropFenced
  repeat' first
    | with_reducible assumption
    | with_reducible refine goodOut_next ?_
    | (lift_lets; intro x; refine (fun (hx : Good pq x) => ?_) ?_; clear_value x)
    | (intro x; subst x)
    | with_reducible refine State.laneOff_good ?_
    | with_reducible refine State.portOff_good ?_
    | with_reducible refine ite_good (fun _ => ?_) (fun _ => ?_)
    | with_reducible refine iteOut_good (fun _ => ?_) (fun _ => ?_)
    | with_reducible refine foldl_good (fun _ _ _ => ?_) ?_
    | with_reducible refine foldl_fst (fun _ _ _ => ?_) ?_
    | with_reducible refine foldl_snd (fun _ _ _ => ?_) ?_
    | subst x
    | with_reducible split
    | dsimp only

theorem execPhaseReady_good {pq : List Instr × Prop} {s : State} (hs : Good pq s) : GoodOut pq (execPhaseReady s) := by
  unfold execPhaseReady
  repeat' first
    | with_reducible assumption
    | with_reducible refine goodOut_next ?_
    | (lift_lets; intro x; refine (fun (hx : Good pq x) => ?_) ?_; clear_value x)
    | (intro x; subst x)
    | with_reducible refine State.dropFenced_good ?_
    | with_reducible refine State.enterRun_good ?_
    | with_reducible refine State.liftLanes_good ?_
    | with_reducible refine State.loadDump_good ?_
    | with_reducible refine State.loadIdentity_good ?_
    | with_reducible refine State.loadLeaf_good ?_
    | with_reducible refine State.loadOos_good ?_
    | with_reducible refine State.loadWmark_good ?_
    | with_reducible refine State.noteDir_good ?_
    | with_reducible refine State.showHistory_good ?_
    | with_reducible refine State.showMemFences_good ?_
    | with_reducible refine ite_good (fun _ => ?_) (fun _ => ?_)
    | with_reducible refine iteOut_good (fun _ => ?_) (fun _ => ?_)
    | with_reducible refine foldl_good (fun _ _ _ => ?_) ?_
    | with_reducible refine foldl_fst (fun _ _ _ => ?_) ?_
    | with_reducible refine foldl_snd (fun _ _ _ => ?_) ?_
    | subst x
    | with_reducible split
    | dsimp only

theorem execBridgeFlitReplay_good {pq : List Instr × Prop} {b : Fin 4} {flit : Nat} {s : State} (hs : Good pq s) : GoodOut pq (execBridgeFlitReplay b flit s) := by
  unfold execBridgeFlitReplay
  repeat' first
    | with_reducible assumption
    | with_reducible refine goodOut_next ?_
    | (lift_lets; intro x; refine (fun (hx : Good pq x) => ?_) ?_; clear_value x)
    | (intro x; subst x)
    | with_reducible refine State.setBridge_good ?_
    | with_reducible refine ite_good (fun _ => ?_) (fun _ => ?_)
    | with_reducible refine iteOut_good (fun _ => ?_) (fun _ => ?_)
    | with_reducible refine foldl_good (fun _ _ _ => ?_) ?_
    | with_reducible refine foldl_fst (fun _ _ _ => ?_) ?_
    | with_reducible refine foldl_snd (fun _ _ _ => ?_) ?_
    | subst x
    | with_reducible split
    | dsimp only

theorem execBridgeDown_good {pq : List Instr × Prop} {b : Fin 4} {s : State} (hs : Good pq s) : GoodOut pq (execBridgeDown b s) := by
  unfold execBridgeDown
  repeat' first
    | with_reducible assumption
    | with_reducible refine goodOut_next ?_
    | (lift_lets; intro x; refine (fun (hx : Good pq x) => ?_) ?_; clear_value x)
    | (intro x; subst x)
    | with_reducible refine State.event_good ?_
    | with_reducible refine State.setBridge_good ?_
    | with_reducible refine ite_good (fun _ => ?_) (fun _ => ?_)
    | with_reducible refine iteOut_good (fun _ => ?_) (fun _ => ?_)
    | with_reducible refine foldl_good (fun _ _ _ => ?_) ?_
    | with_reducible refine foldl_fst (fun _ _ _ => ?_) ?_
    | with_reducible refine foldl_snd (fun _ _ _ => ?_) ?_
    | subst x
    | with_reducible split
    | dsimp only

theorem execRefclkLost_good {pq : List Instr × Prop} {d : Die} {s : State} (hs : Good pq s) : GoodOut pq (execRefclkLost d s) := by
  unfold execRefclkLost
  repeat' first
    | with_reducible assumption
    | with_reducible refine goodOut_next ?_
    | (lift_lets; intro x; refine (fun (hx : Good pq x) => ?_) ?_; clear_value x)
    | (intro x; subst x)
    | with_reducible refine State.event_good ?_
    | with_reducible refine State.laneDown_good ?_
    | with_reducible refine State.laneFails_good ?_
    | with_reducible refine State.portDown_good ?_
    | with_reducible refine State.setTb_good ?_
    | with_reducible refine ite_good (fun _ => ?_) (fun _ => ?_)
    | with_reducible refine iteOut_good (fun _ => ?_) (fun _ => ?_)
    | with_reducible refine foldl_good (fun _ _ _ => ?_) ?_
    | with_reducible refine foldl_fst (fun _ _ _ => ?_) ?_
    | with_reducible refine foldl_snd (fun _ _ _ => ?_) ?_
    | subst x
    | with_reducible split
    | dsimp only

theorem execRefclkReturn_good {pq : List Instr × Prop} {d : Die} {s : State} (hs : Good pq s) : GoodOut pq (execRefclkReturn d s) := by
  unfold execRefclkReturn
  repeat' first
    | with_reducible assumption
    | with_reducible refine goodOut_next ?_
    | (lift_lets; intro x; refine (fun (hx : Good pq x) => ?_) ?_; clear_value x)
    | (intro x; subst x)
    | with_reducible refine State.setTb_good ?_
    | with_reducible refine State.trainPort_good ?_
    | with_reducible refine ite_good (fun _ => ?_) (fun _ => ?_)
    | with_reducible refine iteOut_good (fun _ => ?_) (fun _ => ?_)
    | with_reducible refine foldl_good (fun _ _ _ => ?_) ?_
    | with_reducible refine foldl_fst (fun _ _ _ => ?_) ?_
    | with_reducible refine foldl_snd (fun _ _ _ => ?_) ?_
    | subst x
    | with_reducible split
    | dsimp only

theorem execBmShutdown_good {pq : List Instr × Prop} {v : W16} {s : State} (hs : Good pq s) : GoodOut pq (execBmShutdown v s) := by
  unfold execBmShutdown
  repeat' first
    | with_reducible assumption
    | with_reducible refine goodOut_next ?_
    | (lift_lets; intro x; refine (fun (hx : Good pq x) => ?_) ?_; clear_value x)
    | (intro x; subst x)
    | with_reducible refine State.storeWmark_good ?_
    | with_reducible refine State.withHost_good _ ?_
    | with_reducible refine ite_good (fun _ => ?_) (fun _ => ?_)
    | with_reducible refine iteOut_good (fun _ => ?_) (fun _ => ?_)
    | with_reducible refine foldl_good (fun _ _ _ => ?_) ?_
    | with_reducible refine foldl_fst (fun _ _ _ => ?_) ?_
    | with_reducible refine foldl_snd (fun _ _ _ => ?_) ?_
    | subst x
    | with_reducible split
    | dsimp only

theorem execBmShutdownDone_good {pq : List Instr × Prop} {s : State} (hs : Good pq s) : GoodOut pq (execBmShutdownDone s) := by
  unfold execBmShutdownDone
  repeat' first
    | with_reducible assumption
    | with_reducible refine goodOut_next ?_
    | (lift_lets; intro x; refine (fun (hx : Good pq x) => ?_) ?_; clear_value x)
    | (intro x; subst x)
    | with_reducible refine State.withHost_good _ ?_
    | with_reducible refine ite_good (fun _ => ?_) (fun _ => ?_)
    | with_reducible refine iteOut_good (fun _ => ?_) (fun _ => ?_)
    | with_reducible refine foldl_good (fun _ _ _ => ?_) ?_
    | with_reducible refine foldl_fst (fun _ _ _ => ?_) ?_
    | with_reducible refine foldl_snd (fun _ _ _ => ?_) ?_
    | subst x
    | with_reducible split
    | dsimp only

-- FOR State.via
-- HAVE via State.via_good ?_
theorem State.via_good {pq : List Instr × Prop} {s : State} {o : Host.Outcome State Fault Refusal} (ho : GoodOut pq o) (hs : Good pq s) : Good pq (s.via o) := by
  unfold State.via
  split
  · exact ho _ rfl
  · exact hs

-- FOR State.onUnit
-- HAVE onUnit State.onUnit_good (fun _ _ _ => ?_)
theorem State.onUnit_good {pq : List Instr × Prop} {s : State} {n i : Nat} {f : Fin n → State → Host.Outcome State Fault Refusal}
    (hf : ∀ i s, Good pq s → GoodOut pq (f i s)) (hs : Good pq s) : Good pq (s.onUnit n i f) := by
  unfold State.onUnit
  split
  · exact State.via_good (hf _ _ hs) hs
  · exact hs

theorem State.readSpecial_good {pq : List Instr × Prop} (s : State) (k : Nat) (hs : Good pq s) : GoodOpt pq (fun r => r) (State.readSpecial s k) := by
  unfold State.readSpecial
  repeat' first
    | with_reducible assumption
    | with_reducible refine goodOpt_some ?_
    | with_reducible refine goodOpt_none
    | with_reducible refine goodOut_next ?_
    | (lift_lets; intro x; refine (fun (hx : Good pq x) => ?_) ?_; clear_value x)
    | (intro x; subst x)
    | with_reducible refine execCtrEvtRead_good ?_
    | with_reducible refine execDumpRead_good ?_
    | with_reducible refine execIslStretchRead_good ?_
    | with_reducible refine execLnkCounterRead_good ?_
    | with_reducible refine execMxePerfRead_good ?_
    | with_reducible refine execSecRdataRead_good ?_
    | with_reducible refine execSstRdataRead_good ?_
    | with_reducible refine execTollHeldRead_good ?_
    | with_reducible refine execVxePerfRead_good ?_
    | with_reducible refine State.onUnit_good (fun _ _ _ => ?_) ?_
    | with_reducible refine State.via_good ?_ ?_
    | with_reducible refine iteOpt_good (fun _ => ?_) (fun _ => ?_)
    | with_reducible refine ite_good (fun _ => ?_) (fun _ => ?_)
    | with_reducible refine iteOut_good (fun _ => ?_) (fun _ => ?_)
    | with_reducible refine foldl_good (fun _ _ _ => ?_) ?_
    | with_reducible refine foldl_fst (fun _ _ _ => ?_) ?_
    | with_reducible refine foldl_snd (fun _ _ _ => ?_) ?_
    | subst x
    | with_reducible split
    | dsimp only

theorem State.readSpecial_good_eq {pq : List Instr × Prop} {s : State} {k : Nat} {rr} (he : State.readSpecial s k = some rr) (hs : Good pq s) : Good pq rr := State.readSpecial_good s k hs rr he

-- FOR State.readReg
-- HAVE readReg State.readReg_good
-- HAVE =readReg State.readReg_good_eq
theorem State.readReg_good {pq : List Instr × Prop} {s : State} {wp k : Nat} (hs : Good pq s) : Good pq (s.readReg wp k).2 := by
  unfold State.readReg
  split
  · rename_i t h
    split at h
    · cases h
    · exact State.readSpecial_good_eq h hs
  · dsimp only
    refine State.out_good (ite_good (fun _ => State.withFree_good _ ?_) (fun _ => ?_)) <;> exact ite_good (fun _ => hs) (fun _ => State.setReg_good hs)
theorem State.readReg_good_eq {pq : List Instr × Prop} {s : State} {wp k : Nat} {rr} (he : s.readReg wp k = rr) (hs : Good pq s) : Good pq rr.2 := he ▸ State.readReg_good hs

theorem State.writeWhile_good {pq : List Instr × Prop} {s : State} {valid : Bool} {k : Nat} {data : W64} (hs : Good pq s) : Good pq (State.writeWhile s valid k data) := by
  unfold State.writeWhile
  repeat' first
    | with_reducible assumption
    | with_reducible refine goodOut_next ?_
    | (lift_lets; intro x; refine (fun (hx : Good pq x) => ?_) ?_; clear_value x)
    | (intro x; subst x)
    | with_reducible refine State.lockedWrite_good ?_
    | with_reducible refine State.plainWrite_good ?_
    | with_reducible refine ite_good (fun _ => ?_) (fun _ => ?_)
    | with_reducible refine iteOut_good (fun _ => ?_) (fun _ => ?_)
    | with_reducible refine foldl_good (fun _ _ _ => ?_) ?_
    | with_reducible refine foldl_fst (fun _ _ _ => ?_) ?_
    | with_reducible refine foldl_snd (fun _ _ _ => ?_) ?_
    | subst x
    | with_reducible split
    | dsimp only

-- FOR State.ifBit
-- HAVE ifBit State.ifBit_good (fun _ _ => ?_)
theorem State.ifBit_good {pq : List Instr × Prop} {s : State} {data : W64} {n : Nat} {f : State → Host.Outcome State Fault Refusal}
    (hf : ∀ s, Good pq s → GoodOut pq (f s)) (hs : Good pq s) : Good pq (s.ifBit data n f) :=
  ite_good (fun _ => State.via_good (hf _ hs) hs) (fun _ => hs)

-- FOR State.writeEngine
-- HAVE writeEngine State.writeEngine_good (fun _ _ _ => ?_) (fun _ _ _ => ?_) (fun _ _ _ => ?_)
theorem State.writeEngine_good {pq : List Instr × Prop} {s : State} {n i : Nat} {data : W64} {f g h : Fin n → State → Host.Outcome State Fault Refusal}
    (hf : ∀ i s, Good pq s → GoodOut pq (f i s)) (hg : ∀ i s, Good pq s → GoodOut pq (g i s)) (hh : ∀ i s, Good pq s → GoodOut pq (h i s))
    (hs : Good pq s) : Good pq (s.writeEngine n i data f g h) := by
  unfold State.writeEngine
  split
  · exact State.ifBit_good (hh _) (State.ifBit_good (hg _) (State.ifBit_good (hf _) hs))
  · exact hs

theorem State.writeCap_good {pq : List Instr × Prop} {s : State} {page : Nat} {data : W64} (hs : Good pq s) : Good pq (State.writeCap s page data) := by
  unfold State.writeCap
  repeat' first
    | with_reducible assumption
    | with_reducible refine goodOut_next ?_
    | (lift_lets; intro x; refine (fun (hx : Good pq x) => ?_) ?_; clear_value x)
    | (intro x; subst x)
    | with_reducible refine State.setFld_good ?_
    | with_reducible refine ite_good (fun _ => ?_) (fun _ => ?_)
    | with_reducible refine iteOut_good (fun _ => ?_) (fun _ => ?_)
    | with_reducible refine foldl_good (fun _ _ _ => ?_) ?_
    | with_reducible refine foldl_fst (fun _ _ _ => ?_) ?_
    | with_reducible refine foldl_snd (fun _ _ _ => ?_) ?_
    | subst x
    | with_reducible split
    | dsimp only

theorem State.writeReset_good {pq : List Instr × Prop} {s : State} {data : W64} (hs : Good pq s) : Good pq (State.writeReset s data) := by
  unfold State.writeReset
  repeat' first
    | with_reducible assumption
    | with_reducible refine goodOut_next ?_
    | (lift_lets; intro x; refine (fun (hx : Good pq x) => ?_) ?_; clear_value x)
    | (intro x; subst x)
    | with_reducible refine State.badSeq_good ?_
    | with_reducible refine execDieFence_good ?_
    | with_reducible refine execResetCluster_good ?_
    | with_reducible refine execResetCold_good ?_
    | with_reducible refine execResetDieFunction_good ?_
    | with_reducible refine execResetEngine_good ?_
    | with_reducible refine execResetWarm_good ?_
    | with_reducible refine State.onUnit_good (fun _ _ _ => ?_) ?_
    | with_reducible refine State.via_good ?_ ?_
    | with_reducible refine ite_good (fun _ => ?_) (fun _ => ?_)
    | with_reducible refine iteOut_good (fun _ => ?_) (fun _ => ?_)
    | with_reducible refine foldl_good (fun _ _ _ => ?_) ?_
    | with_reducible refine foldl_fst (fun _ _ _ => ?_) ?_
    | with_reducible refine foldl_snd (fun _ _ _ => ?_) ?_
    | subst x
    | with_reducible split
    | dsimp only

theorem State.writeEvlRd_good {pq : List Instr × Prop} {s : State} {d : Nat} {data : W64} (hs : Good pq s) : Good pq (State.writeEvlRd s d data) := by
  unfold State.writeEvlRd
  repeat' first
    | with_reducible assumption
    | with_reducible refine goodOut_next ?_
    | (lift_lets; intro x; refine (fun (hx : Good pq x) => ?_) ?_; clear_value x)
    | (intro x; subst x)
    | with_reducible refine State.setFld_good ?_
    | with_reducible refine ite_good (fun _ => ?_) (fun _ => ?_)
    | with_reducible refine iteOut_good (fun _ => ?_) (fun _ => ?_)
    | with_reducible refine foldl_good (fun _ _ _ => ?_) ?_
    | with_reducible refine foldl_fst (fun _ _ _ => ?_) ?_
    | with_reducible refine foldl_snd (fun _ _ _ => ?_) ?_
    | subst x
    | with_reducible split
    | dsimp only

theorem State.writeCore_good {pq : List Instr × Prop} {s : State} {c : Nat} {data : W64} (hs : Good pq s) : Good pq (State.writeCore s c data) := by
  unfold State.writeCore
  repeat' first
    | with_reducible assumption
    | with_reducible refine goodOut_next ?_
    | (lift_lets; intro x; refine (fun (hx : Good pq x) => ?_) ?_; clear_value x)
    | (intro x; subst x)
    | with_reducible refine execCoreRun_good ?_
    | with_reducible refine execCoreStop_good ?_
    | with_reducible refine State.onUnit_good (fun _ _ _ => ?_) ?_
    | with_reducible refine ite_good (fun _ => ?_) (fun _ => ?_)
    | with_reducible refine iteOut_good (fun _ => ?_) (fun _ => ?_)
    | with_reducible refine foldl_good (fun _ _ _ => ?_) ?_
    | with_reducible refine foldl_fst (fun _ _ _ => ?_) ?_
    | with_reducible refine foldl_snd (fun _ _ _ => ?_) ?_
    | subst x
    | with_reducible split
    | dsimp only

theorem State.writeBlk_good {pq : List Instr × Prop} {s : State} {k : Nat} {data : W64} (hs : Good pq s) : Good pq (State.writeBlk s k data) := by
  unfold State.writeBlk
  repeat' first
    | with_reducible assumption
    | with_reducible refine goodOut_next ?_
    | (lift_lets; intro x; refine (fun (hx : Good pq x) => ?_) ?_; clear_value x)
    | (intro x; subst x)
    | with_reducible refine State.badSeq_good ?_
    | with_reducible refine execAttestGo_good ?_
    | with_reducible refine execBarArm_good ?_
    | with_reducible refine execBarDisarm_good ?_
    | with_reducible refine execBootLoadBegin_good ?_
    | with_reducible refine execBootLoadEnd_good ?_
    | with_reducible refine execBootLoaddata_good ?_
    | with_reducible refine execCkmarkEmpty_good ?_
    | with_reducible refine execCkmarkEnd_good ?_
    | with_reducible refine execCkmarkStart_good ?_
    | with_reducible refine execCluCtxWrite_good ?_
    | with_reducible refine execCrrFence_good ?_
    | with_reducible refine execCrrReadmit_good ?_
    | with_reducible refine execCrrSelftest_good ?_
    | with_reducible refine execCtrAdd_good ?_
    | with_reducible refine execCtrClear_good ?_
    | with_reducible refine execDscExpWrite_good ?_
    | with_reducible refine execDscFabricWrite_good ?_
    | with_reducible refine execDscIdWrite_good ?_
    | with_reducible refine execFuseRaiseSvn_good ?_
    | with_reducible refine execFuseRevoke_good ?_
    | with_reducible refine execHlkFence_good ?_
    | with_reducible refine execHlkRetrain_good ?_
    | with_reducible refine execHlkSwap_good ?_
    | with_reducible refine execHstOwnWrite_good ?_
    | with_reducible refine execLdgCkWrite_good ?_
    | with_reducible refine execLdgGeomWrite_good ?_
    | with_reducible refine execLnkAdmit_good ?_
    | with_reducible refine execLnkEnWrite_good ?_
    | with_reducible refine execLnkFence_good ?_
    | with_reducible refine execLnkPark_good ?_
    | with_reducible refine execLnkReadmit_good ?_
    | with_reducible refine execLnkRetrain_good ?_
    | with_reducible refine execLnkVcallocWrite_good ?_
    | with_reducible refine execLpcFenceWrite_good ?_
    | with_reducible refine execMscFenceWrite_good ?_
    | with_reducible refine execMxeFence_good ?_
    | with_reducible refine execMxeReadmit_good ?_
    | with_reducible refine execMxeSelftest_good ?_
    | with_reducible refine execRcvAbort_good ?_
    | with_reducible refine execRcvJobidWrite_good ?_
    | with_reducible refine execRcvOosack_good ?_
    | with_reducible refine execRcvWdlimWrite_good ?_
    | with_reducible refine execRteCfgWrite_good ?_
    | with_reducible refine execRteFlip_good ?_
    | with_reducible refine execRteLoad_good ?_
    | with_reducible refine execRteTimersWrite_good ?_
    | with_reducible refine execSecRselWrite_good ?_
    | with_reducible refine execSlqIncfgWrite_good ?_
    | with_reducible refine execSlqOutcfgWrite_good ?_
    | with_reducible refine execSqCfgWrite_good ?_
    | with_reducible refine execSstRselWrite_good ?_
    | with_reducible refine execStgStageWrite_good ?_
    | with_reducible refine execStgTclr_good ?_
    | with_reducible refine execTestEnter_good ?_
    | with_reducible refine execTollBktWrite_good ?_
    | with_reducible refine execUuFence_good ?_
    | with_reducible refine execUuReadmit_good ?_
    | with_reducible refine execUuSelftest_good ?_
    | with_reducible refine execVcmdActivate_good ?_
    | with_reducible refine execVcmdRetire_good ?_
    | with_reducible refine execVxeFence_good ?_
    | with_reducible refine execVxeReadmit_good ?_
    | with_reducible refine execVxeSelftest_good ?_
    | with_reducible refine State.histOp_good ?_
    | with_reducible refine State.ifBit_good (fun _ _ => ?_) ?_
    | with_reducible refine State.onUnit_good (fun _ _ _ => ?_) ?_
    | with_reducible refine State.plainWrite_good ?_
    | with_reducible refine State.rgnWrite_good ?_
    | with_reducible refine State.setReg_good ?_
    | with_reducible refine State.synLose_good ?_
    | with_reducible refine State.tokenBytes_good ?_
    | with_reducible refine State.via_good ?_ ?_
    | with_reducible refine State.writeCap_good ?_
    | with_reducible refine State.writeCore_good ?_
    | with_reducible refine State.writeEngine_good (fun _ _ _ => ?_) (fun _ _ _ => ?_) (fun _ _ _ => ?_) ?_
    | with_reducible refine State.writeEvlRd_good ?_
    | with_reducible refine State.writeReset_good ?_
    | with_reducible refine State.writeRing_good ?_
    | with_reducible refine State.writeWhile_good ?_
    | with_reducible refine ite_good (fun _ => ?_) (fun _ => ?_)
    | with_reducible refine iteOut_good (fun _ => ?_) (fun _ => ?_)
    | with_reducible refine foldl_good (fun _ _ _ => ?_) ?_
    | with_reducible refine foldl_fst (fun _ _ _ => ?_) ?_
    | with_reducible refine foldl_snd (fun _ _ _ => ?_) ?_
    | subst x
    | with_reducible split
    | dsimp only

theorem State.writeReg_good {pq : List Instr × Prop} {s : State} {k : Nat} {data : W64} (hs : Good pq s) : Good pq (State.writeReg s k data) := by
  unfold State.writeReg
  repeat' first
    | with_reducible assumption
    | with_reducible refine goodOut_next ?_
    | (lift_lets; intro x; refine (fun (hx : Good pq x) => ?_) ?_; clear_value x)
    | (intro x; subst x)
    | with_reducible refine State.injectErr_good ?_
    | with_reducible refine State.plainWrite_good ?_
    | with_reducible refine State.writeBlk_good ?_
    | with_reducible refine State.writeEvtSel_good ?_
    | with_reducible refine ite_good (fun _ => ?_) (fun _ => ?_)
    | with_reducible refine iteOut_good (fun _ => ?_) (fun _ => ?_)
    | with_reducible refine foldl_good (fun _ _ _ => ?_) ?_
    | with_reducible refine foldl_fst (fun _ _ _ => ?_) ?_
    | with_reducible refine foldl_snd (fun _ _ _ => ?_) ?_
    | subst x
    | with_reducible split
    | dsimp only

-- FOR State.access
-- HAVE access State.access_good (fun _ _ _ => ?_)
theorem State.access_good {pq : List Instr × Prop} {s : State} {src addr size : Nat} {f : Nat → State → State} (hf : ∀ k s, Good pq s → Good pq (f k s)) (hs : Good pq s) :
    Good pq (s.access src addr size f) := by
  unfold State.access
  repeat' first
    | with_reducible assumption
    | with_reducible refine State.withRegStatus_good _ ?_
    | with_reducible refine ite_good (fun _ => ?_) (fun _ => ?_)
    | with_reducible split
    | dsimp only
    | with_reducible exact hf _ _ hs

theorem execRegWrite_good {pq : List Instr × Prop} {addr : BitVec 26} {size : BitVec 2} {data : W64} {s : State} (hs : Good pq s) : GoodOut pq (execRegWrite addr size data s) := by
  unfold execRegWrite
  repeat' first
    | with_reducible assumption
    | with_reducible refine goodOut_next ?_
    | (lift_lets; intro x; refine (fun (hx : Good pq x) => ?_) ?_; clear_value x)
    | (intro x; subst x)
    | with_reducible refine State.access_good (fun _ _ _ => ?_) ?_
    | with_reducible refine State.writeReg_good ?_
    | with_reducible refine ite_good (fun _ => ?_) (fun _ => ?_)
    | with_reducible refine iteOut_good (fun _ => ?_) (fun _ => ?_)
    | with_reducible refine foldl_good (fun _ _ _ => ?_) ?_
    | with_reducible refine foldl_fst (fun _ _ _ => ?_) ?_
    | with_reducible refine foldl_snd (fun _ _ _ => ?_) ?_
    | subst x
    | with_reducible split
    | dsimp only

theorem State.windowRead_good {pq : List Instr × Prop} {s : State} {a : Nat} {n : Nat} (hs : Good pq s) : Good pq (State.windowRead s a n).2 := by
  unfold State.windowRead
  repeat' first
    | with_reducible assumption
    | with_reducible refine goodOut_next ?_
    | (lift_lets; intro x; refine (fun (hx : Good pq x) => ?_) ?_; clear_value x)
    | (intro x; subst x)
    | with_reducible refine State.readReg_good ?_
    | with_reducible refine State.withRdData_good _ ?_
    | with_reducible refine State.readReg_good_eq (by with_reducible assumption) ?_
    | with_reducible refine ite_good (fun _ => ?_) (fun _ => ?_)
    | with_reducible refine iteOut_good (fun _ => ?_) (fun _ => ?_)
    | with_reducible refine foldl_good (fun _ _ _ => ?_) ?_
    | with_reducible refine foldl_fst (fun _ _ _ => ?_) ?_
    | with_reducible refine foldl_snd (fun _ _ _ => ?_) ?_
    | subst x
    | with_reducible split
    | dsimp only

theorem State.windowRead_good_eq {pq : List Instr × Prop} {s : State} {a : Nat} {n : Nat} {rr} (he : State.windowRead s a n = rr) (hs : Good pq s) : Good pq rr.2 := he ▸ State.windowRead_good hs

theorem State.windowWrite_good {pq : List Instr × Prop} {s : State} {a : Nat} {n : Nat} {rd : Nat → Byte} (hs : Good pq s) : Good pq (State.windowWrite s a n rd) := by
  unfold State.windowWrite
  repeat' first
    | with_reducible assumption
    | with_reducible refine goodOut_next ?_
    | (lift_lets; intro x; refine (fun (hx : Good pq x) => ?_) ?_; clear_value x)
    | (intro x; subst x)
    | with_reducible refine State.withRdData_good _ ?_
    | with_reducible refine State.writeReg_good ?_
    | with_reducible refine ite_good (fun _ => ?_) (fun _ => ?_)
    | with_reducible refine iteOut_good (fun _ => ?_) (fun _ => ?_)
    | with_reducible refine foldl_good (fun _ _ _ => ?_) ?_
    | with_reducible refine foldl_fst (fun _ _ _ => ?_) ?_
    | with_reducible refine foldl_snd (fun _ _ _ => ?_) ?_
    | subst x
    | with_reducible split
    | dsimp only

theorem State.windowIssue_good {pq : List Instr × Prop} {s : State} {o : PortOp} (hs : Good pq s) : Good pq (State.windowIssue s o).2.2 := by
  unfold State.windowIssue
  repeat' first
    | with_reducible assumption
    | with_reducible refine goodOut_next ?_
    | (lift_lets; intro x; refine (fun (hx : Good pq x) => ?_) ?_; clear_value x)
    | (intro x; subst x)
    | with_reducible refine State.windowRead_good ?_
    | with_reducible refine State.windowRead_good_eq (by with_reducible assumption) ?_
    | with_reducible refine ite_good (fun _ => ?_) (fun _ => ?_)
    | with_reducible refine iteOut_good (fun _ => ?_) (fun _ => ?_)
    | with_reducible refine foldl_good (fun _ _ _ => ?_) ?_
    | with_reducible refine foldl_fst (fun _ _ _ => ?_) ?_
    | with_reducible refine foldl_snd (fun _ _ _ => ?_) ?_
    | subst x
    | with_reducible split
    | dsimp only

theorem State.windowIssue_good_eq {pq : List Instr × Prop} {s : State} {o : PortOp} {rr} (he : State.windowIssue s o = rr) (hs : Good pq s) : Good pq rr.2.2 := he ▸ State.windowIssue_good hs

theorem State.windowEnd_good {pq : List Instr × Prop} {s : State} {o : PortOp} (hs : Good pq s) : Good pq (State.windowEnd s o).2 := by
  unfold State.windowEnd
  repeat' first
    | with_reducible assumption
    | with_reducible refine goodOut_next ?_
    | (lift_lets; intro x; refine (fun (hx : Good pq x) => ?_) ?_; clear_value x)
    | (intro x; subst x)
    | with_reducible refine State.windowWrite_good ?_
    | with_reducible refine ite_good (fun _ => ?_) (fun _ => ?_)
    | with_reducible refine iteOut_good (fun _ => ?_) (fun _ => ?_)
    | with_reducible refine foldl_good (fun _ _ _ => ?_) ?_
    | with_reducible refine foldl_fst (fun _ _ _ => ?_) ?_
    | with_reducible refine foldl_snd (fun _ _ _ => ?_) ?_
    | subst x
    | with_reducible split
    | dsimp only

theorem State.windowEnd_good_eq {pq : List Instr × Prop} {s : State} {o : PortOp} {rr} (he : State.windowEnd s o = rr) (hs : Good pq s) : Good pq rr.2 := he ▸ State.windowEnd_good hs

theorem State.windowMove_good {pq : List Instr × Prop} {s : State} {o : PortOp} {src : Nat} {dst : Nat} (hs : Good pq s) : Good pq (State.windowMove s o src dst).2 := by
  unfold State.windowMove
  repeat' first
    | with_reducible assumption
    | with_reducible refine goodOut_next ?_
    | (lift_lets; intro x; refine (fun (hx : Good pq x) => ?_) ?_; clear_value x)
    | (intro x; subst x)
    | with_reducible refine State.charge_good ?_
    | with_reducible refine State.storeMarked_good ?_
    | with_reducible refine State.wakeRange_good ?_
    | with_reducible refine State.windowRead_good ?_
    | with_reducible refine State.windowWrite_good ?_
    | with_reducible refine State.windowRead_good_eq (by with_reducible assumption) ?_
    | with_reducible refine ite_good (fun _ => ?_) (fun _ => ?_)
    | with_reducible refine iteOut_good (fun _ => ?_) (fun _ => ?_)
    | with_reducible refine foldl_good (fun _ _ _ => ?_) ?_
    | with_reducible refine foldl_fst (fun _ _ _ => ?_) ?_
    | with_reducible refine foldl_snd (fun _ _ _ => ?_) ?_
    | subst x
    | with_reducible split
    | dsimp only

theorem State.windowMove_good_eq {pq : List Instr × Prop} {s : State} {o : PortOp} {src : Nat} {dst : Nat} {rr} (he : State.windowMove s o src dst = rr) (hs : Good pq s) : Good pq rr.2 := he ▸ State.windowMove_good hs

theorem State.runHere_good {pq : List Instr × Prop} {s : State} {o : PortOp} (hs : Good pq s) : Good pq (State.runHere s o).2.2.2 := by
  unfold State.runHere
  repeat' first
    | with_reducible assumption
    | with_reducible refine goodOut_next ?_
    | (lift_lets; intro x; refine (fun (hx : Good pq x) => ?_) ?_; clear_value x)
    | (intro x; subst x)
    | with_reducible refine State.runLocal_good ?_
    | with_reducible refine State.windowMove_good ?_
    | with_reducible refine State.windowRead_good ?_
    | with_reducible refine State.windowWrite_good ?_
    | with_reducible refine State.runLocal_good_eq (by with_reducible assumption) ?_
    | with_reducible refine State.windowMove_good_eq (by with_reducible assumption) ?_
    | with_reducible refine State.windowRead_good_eq (by with_reducible assumption) ?_
    | with_reducible refine ite_good (fun _ => ?_) (fun _ => ?_)
    | with_reducible refine iteOut_good (fun _ => ?_) (fun _ => ?_)
    | with_reducible refine foldl_good (fun _ _ _ => ?_) ?_
    | with_reducible refine foldl_fst (fun _ _ _ => ?_) ?_
    | with_reducible refine foldl_snd (fun _ _ _ => ?_) ?_
    | subst x
    | with_reducible split
    | dsimp only

theorem State.runHere_good_eq {pq : List Instr × Prop} {s : State} {o : PortOp} {rr} (he : State.runHere s o = rr) (hs : Good pq s) : Good pq rr.2.2.2 := he ▸ State.runHere_good hs

theorem State.rop_good {pq : List Instr × Prop} {s : State} {c : Nat} {rd : Nat} {rs1 : Nat} {rs2 : Nat} (hs : Good pq s) : Good pq (State.rop s c rd rs1 rs2) := by
  unfold State.rop
  repeat' first
    | with_reducible assumption
    | with_reducible refine goodOut_next ?_
    | (lift_lets; intro x; refine (fun (hx : Good pq x) => ?_) ?_; clear_value x)
    | (intro x; subst x)
    | with_reducible refine State.formAll_good ?_
    | with_reducible refine State.illegal_good ?_
    | with_reducible refine State.newWork_good ?_ ?_
    | with_reducible refine State.opCheck_good ?_
    | with_reducible refine State.retSt_good ?_
    | with_reducible refine State.windowIssue_good ?_
    | with_reducible refine State.withNet_good _ ?_
    | with_reducible refine State.opCheck_good_eq (by with_reducible assumption) ?_
    | with_reducible refine State.windowIssue_good_eq (by with_reducible assumption) ?_
    | with_reducible refine ite_good (fun _ => ?_) (fun _ => ?_)
    | with_reducible refine iteOut_good (fun _ => ?_) (fun _ => ?_)
    | with_reducible refine foldl_good (fun _ _ _ => ?_) ?_
    | with_reducible refine foldl_fst (fun _ _ _ => ?_) ?_
    | with_reducible refine foldl_snd (fun _ _ _ => ?_) ?_
    | subst x
    | with_reducible split
    | dsimp only

theorem execRopPut_good {pq : List Instr × Prop} {c : Met CoreNo} {rd : Gpr} {rs1 : Gpr} {rs2 : Gpr} {s : State} (hs : Good pq s) : GoodOut pq (execRopPut c rd rs1 rs2 s) := by
  unfold execRopPut
  repeat' first
    | with_reducible assumption
    | with_reducible refine goodOut_next ?_
    | (lift_lets; intro x; refine (fun (hx : Good pq x) => ?_) ?_; clear_value x)
    | (intro x; subst x)
    | with_reducible refine State.meet_good ?_
    | with_reducible refine State.rop_good ?_
    | with_reducible refine ite_good (fun _ => ?_) (fun _ => ?_)
    | with_reducible refine iteOut_good (fun _ => ?_) (fun _ => ?_)
    | with_reducible refine foldl_good (fun _ _ _ => ?_) ?_
    | with_reducible refine foldl_fst (fun _ _ _ => ?_) ?_
    | with_reducible refine foldl_snd (fun _ _ _ => ?_) ?_
    | subst x
    | with_reducible split
    | dsimp only

theorem execRopGet_good {pq : List Instr × Prop} {c : CoreNo} {rd : Gpr} {rs1 : Gpr} {rs2 : Gpr} {s : State} (hs : Good pq s) : GoodOut pq (execRopGet c rd rs1 rs2 s) := by
  unfold execRopGet
  repeat' first
    | with_reducible assumption
    | with_reducible refine goodOut_next ?_
    | (lift_lets; intro x; refine (fun (hx : Good pq x) => ?_) ?_; clear_value x)
    | (intro x; subst x)
    | with_reducible refine State.rop_good ?_
    | with_reducible refine ite_good (fun _ => ?_) (fun _ => ?_)
    | with_reducible refine iteOut_good (fun _ => ?_) (fun _ => ?_)
    | with_reducible refine foldl_good (fun _ _ _ => ?_) ?_
    | with_reducible refine foldl_fst (fun _ _ _ => ?_) ?_
    | with_reducible refine foldl_snd (fun _ _ _ => ?_) ?_
    | subst x
    | with_reducible split
    | dsimp only

theorem execRopGet3_good {pq : List Instr × Prop} {c : CoreNo} {rd : Gpr} {rs1 : Gpr} {rs2 : Gpr} {s : State} (hs : Good pq s) : GoodOut pq (execRopGet3 c rd rs1 rs2 s) := by
  unfold execRopGet3
  repeat' first
    | with_reducible assumption
    | with_reducible refine goodOut_next ?_
    | (lift_lets; intro x; refine (fun (hx : Good pq x) => ?_) ?_; clear_value x)
    | (intro x; subst x)
    | with_reducible refine State.rop_good ?_
    | with_reducible refine ite_good (fun _ => ?_) (fun _ => ?_)
    | with_reducible refine iteOut_good (fun _ => ?_) (fun _ => ?_)
    | with_reducible refine foldl_good (fun _ _ _ => ?_) ?_
    | with_reducible refine foldl_fst (fun _ _ _ => ?_) ?_
    | with_reducible refine foldl_snd (fun _ _ _ => ?_) ?_
    | subst x
    | with_reducible split
    | dsimp only

theorem execRopAtomic_good {pq : List Instr × Prop} {c : CoreNo} {rd : Gpr} {rs1 : Gpr} {rs2 : Gpr} {s : State} (hs : Good pq s) : GoodOut pq (execRopAtomic c rd rs1 rs2 s) := by
  unfold execRopAtomic
  repeat' first
    | with_reducible assumption
    | with_reducible refine goodOut_next ?_
    | (lift_lets; intro x; refine (fun (hx : Good pq x) => ?_) ?_; clear_value x)
    | (intro x; subst x)
    | with_reducible refine State.rop_good ?_
    | with_reducible refine ite_good (fun _ => ?_) (fun _ => ?_)
    | with_reducible refine iteOut_good (fun _ => ?_) (fun _ => ?_)
    | with_reducible refine foldl_good (fun _ _ _ => ?_) ?_
    | with_reducible refine foldl_fst (fun _ _ _ => ?_) ?_
    | with_reducible refine foldl_snd (fun _ _ _ => ?_) ?_
    | subst x
    | with_reducible split
    | dsimp only

theorem execRopSignal_good {pq : List Instr × Prop} {c : CoreNo} {rd : Gpr} {rs1 : Gpr} {rs2 : Gpr} {s : State} (hs : Good pq s) : GoodOut pq (execRopSignal c rd rs1 rs2 s) := by
  unfold execRopSignal
  repeat' first
    | with_reducible assumption
    | with_reducible refine goodOut_next ?_
    | (lift_lets; intro x; refine (fun (hx : Good pq x) => ?_) ?_; clear_value x)
    | (intro x; subst x)
    | with_reducible refine State.rop_good ?_
    | with_reducible refine ite_good (fun _ => ?_) (fun _ => ?_)
    | with_reducible refine iteOut_good (fun _ => ?_) (fun _ => ?_)
    | with_reducible refine foldl_good (fun _ _ _ => ?_) ?_
    | with_reducible refine foldl_fst (fun _ _ _ => ?_) ?_
    | with_reducible refine foldl_snd (fun _ _ _ => ?_) ?_
    | subst x
    | with_reducible split
    | dsimp only

theorem execPorterTransferDone_good {pq : List Instr × Prop} {d : Die} {g : Fin 2} {p : Fin 8} {parity : Bool} {hits : Hits} {s : State} (hs : Good pq s) : GoodOut pq (execPorterTransferDone d g p parity hits s) := by
  unfold execPorterTransferDone
  repeat' first
    | with_reducible assumption
    | with_reducible refine goodOut_next ?_
    | (lift_lets; intro x; refine (fun (hx : Good pq x) => ?_) ?_; clear_value x)
    | (intro x; subst x)
    | with_reducible refine State.endOp_good ?_
    | with_reducible refine State.event_good ?_
    | with_reducible refine State.fenceUnit_good ?_
    | with_reducible refine State.meet_good ?_
    | with_reducible refine State.runHere_good ?_
    | with_reducible refine State.strikeRec_good ?_
    | with_reducible refine State.windowEnd_good ?_
    | with_reducible refine State.runHere_good_eq (by with_reducible assumption) ?_
    | with_reducible refine State.strikeRec_good_eq (by with_reducible assumption) ?_
    | with_reducible refine State.windowEnd_good_eq (by with_reducible assumption) ?_
    | with_reducible refine ite_good (fun _ => ?_) (fun _ => ?_)
    | with_reducible refine iteOut_good (fun _ => ?_) (fun _ => ?_)
    | with_reducible refine foldl_good (fun _ _ _ => ?_) ?_
    | with_reducible refine foldl_fst (fun _ _ _ => ?_) ?_
    | with_reducible refine foldl_snd (fun _ _ _ => ?_) ?_
    | subst x
    | with_reducible split
    | dsimp only

theorem State.alu_good {pq : List Instr × Prop} {s : State} {fn : AluFn} {a : W64} {b : W64} (hs : Good pq s) : Good pq (State.alu s fn a b).2 := by
  unfold State.alu
  repeat' first
    | with_reducible assumption
    | with_reducible refine goodOut_next ?_
    | (lift_lets; intro x; refine (fun (hx : Good pq x) => ?_) ?_; clear_value x)
    | (intro x; subst x)
    | with_reducible refine State.draw_good ?_
    | with_reducible refine State.draw_good_eq (by with_reducible assumption) ?_
    | with_reducible refine ite_good (fun _ => ?_) (fun _ => ?_)
    | with_reducible refine iteOut_good (fun _ => ?_) (fun _ => ?_)
    | with_reducible refine foldl_good (fun _ _ _ => ?_) ?_
    | with_reducible refine foldl_fst (fun _ _ _ => ?_) ?_
    | with_reducible refine foldl_snd (fun _ _ _ => ?_) ?_
    | subst x
    | with_reducible split
    | dsimp only

theorem State.alu_good_eq {pq : List Instr × Prop} {s : State} {fn : AluFn} {a : W64} {b : W64} {rr} (he : State.alu s fn a b = rr) (hs : Good pq s) : Good pq rr.2 := he ▸ State.alu_good hs

theorem execIntAlu_good {pq : List Instr × Prop} {c : Issued} {fn : AluFn} {rd : Gpr} {rs1 : Gpr} {src : AluSrc} {s : State} (hs : Good pq s) : GoodOut pq (execIntAlu c fn rd rs1 src s) := by
  unfold execIntAlu
  repeat' first
    | with_reducible assumption
    | with_reducible refine goodOut_next ?_
    | (lift_lets; intro x; refine (fun (hx : Good pq x) => ?_) ?_; clear_value x)
    | (intro x; subst x)
    | with_reducible refine State.alu_good ?_
    | with_reducible refine State.illegal_good ?_
    | with_reducible refine State.ret_good ?_
    | with_reducible refine State.alu_good_eq (by with_reducible assumption) ?_
    | with_reducible refine ite_good (fun _ => ?_) (fun _ => ?_)
    | with_reducible refine iteOut_good (fun _ => ?_) (fun _ => ?_)
    | with_reducible refine foldl_good (fun _ _ _ => ?_) ?_
    | with_reducible refine foldl_fst (fun _ _ _ => ?_) ?_
    | with_reducible refine foldl_snd (fun _ _ _ => ?_) ?_
    | subst x
    | with_reducible split
    | dsimp only

theorem State.loadInsn_good {pq : List Instr × Prop} {s : State} {c : Nat} {rd : Nat} {l : Nat} {n : Nat} {err : ArrayErr} (hs : Good pq s) : Good pq (State.loadInsn s c rd l n err) := by
  unfold State.loadInsn
  repeat' first
    | with_reducible assumption
    | with_reducible refine goodOut_next ?_
    | (lift_lets; intro x; refine (fun (hx : Good pq x) => ?_) ?_; clear_value x)
    | (intro x; subst x)
    | with_reducible refine State.arrayErr_good ?_
    | with_reducible refine State.charge_good ?_
    | with_reducible refine State.consume_good ?_
    | with_reducible refine State.nextPc_good ?_
    | with_reducible refine State.readReg_good ?_
    | with_reducible refine State.ret_good ?_
    | with_reducible refine State.withRdData_good _ ?_
    | with_reducible refine State.readReg_good_eq (by with_reducible assumption) ?_
    | with_reducible refine ite_good (fun _ => ?_) (fun _ => ?_)
    | with_reducible refine iteOut_good (fun _ => ?_) (fun _ => ?_)
    | with_reducible refine foldl_good (fun _ _ _ => ?_) ?_
    | with_reducible refine foldl_fst (fun _ _ _ => ?_) ?_
    | with_reducible refine foldl_snd (fun _ _ _ => ?_) ?_
    | subst x
    | with_reducible split
    | dsimp only

theorem execLoad_good {pq : List Instr × Prop} {c : Issued} {sp : Space} {width : Fin 4} {rd : Gpr} {rs1 : Gpr} {imm : BitVec 15} {err : ArrayErr} {s : State} (hs : Good pq s) : GoodOut pq (execLoad c sp width rd rs1 imm err s) := by
  unfold execLoad
  repeat' first
    | with_reducible assumption
    | with_reducible refine goodOut_next ?_
    | (lift_lets; intro x; refine (fun (hx : Good pq x) => ?_) ?_; clear_value x)
    | (intro x; subst x)
    | with_reducible refine State.illegal_good ?_
    | with_reducible refine State.loadInsn_good ?_
    | with_reducible refine State.nextPc_good ?_
    | with_reducible refine State.ret_good ?_
    | with_reducible refine ite_good (fun _ => ?_) (fun _ => ?_)
    | with_reducible refine iteOut_good (fun _ => ?_) (fun _ => ?_)
    | with_reducible refine foldl_good (fun _ _ _ => ?_) ?_
    | with_reducible refine foldl_fst (fun _ _ _ => ?_) ?_
    | with_reducible refine foldl_snd (fun _ _ _ => ?_) ?_
    | subst x
    | with_reducible split
    | dsimp only

theorem State.storeInsn_good {pq : List Instr × Prop} {s : State} {c : Nat} {l : Nat} {n : Nat} {v : W64} {err : ArrayErr} (hs : Good pq s) : Good pq (State.storeInsn s c l n v err) := by
  unfold State.storeInsn
  repeat' first
    | with_reducible assumption
    | with_reducible refine goodOut_next ?_
    | (lift_lets; intro x; refine (fun (hx : Good pq x) => ?_) ?_; clear_value x)
    | (intro x; subst x)
    | with_reducible refine State.arrayErr_good ?_
    | with_reducible refine State.charge_good ?_
    | with_reducible refine State.nextPc_good ?_
    | with_reducible refine State.storeNat_good ?_
    | with_reducible refine State.wakeRange_good ?_
    | with_reducible refine State.withRdData_good _ ?_
    | with_reducible refine State.writeReg_good ?_
    | with_reducible refine ite_good (fun _ => ?_) (fun _ => ?_)
    | with_reducible refine iteOut_good (fun _ => ?_) (fun _ => ?_)
    | with_reducible refine foldl_good (fun _ _ _ => ?_) ?_
    | with_reducible refine foldl_fst (fun _ _ _ => ?_) ?_
    | with_reducible refine foldl_snd (fun _ _ _ => ?_) ?_
    | subst x
    | with_reducible split
    | dsimp only

theorem execStore_good {pq : List Instr × Prop} {c : Issued} {sp : Space} {width : Fin 4} {rs : Gpr} {rs1 : Gpr} {imm : BitVec 15} {err : ArrayErr} {s : State} (hs : Good pq s) : GoodOut pq (execStore c sp width rs rs1 imm err s) := by
  unfold execStore
  repeat' first
    | with_reducible assumption
    | with_reducible refine goodOut_next ?_
    | (lift_lets; intro x; refine (fun (hx : Good pq x) => ?_) ?_; clear_value x)
    | (intro x; subst x)
    | with_reducible refine State.illegal_good ?_
    | with_reducible refine State.nextPc_good ?_
    | with_reducible refine State.setScratchBytes_good ?_
    | with_reducible refine State.storeInsn_good ?_
    | with_reducible refine ite_good (fun _ => ?_) (fun _ => ?_)
    | with_reducible refine iteOut_good (fun _ => ?_) (fun _ => ?_)
    | with_reducible refine foldl_good (fun _ _ _ => ?_) ?_
    | with_reducible refine foldl_fst (fun _ _ _ => ?_) ?_
    | with_reducible refine foldl_snd (fun _ _ _ => ?_) ?_
    | subst x
    | with_reducible split
    | dsimp only

theorem State.compare_good {pq : List Instr × Prop} {s : State} {cond : Cond} {a : W64} {b : W64} (hs : Good pq s) : Good pq (State.compare s cond a b).2 := by
  unfold State.compare
  repeat' first
    | with_reducible assumption
    | with_reducible refine goodOut_next ?_
    | (lift_lets; intro x; refine (fun (hx : Good pq x) => ?_) ?_; clear_value x)
    | (intro x; subst x)
    | with_reducible refine State.draw_good ?_
    | with_reducible refine State.draw_good_eq (by with_reducible assumption) ?_
    | with_reducible refine ite_good (fun _ => ?_) (fun _ => ?_)
    | with_reducible refine iteOut_good (fun _ => ?_) (fun _ => ?_)
    | with_reducible refine foldl_good (fun _ _ _ => ?_) ?_
    | with_reducible refine foldl_fst (fun _ _ _ => ?_) ?_
    | with_reducible refine foldl_snd (fun _ _ _ => ?_) ?_
    | subst x
    | with_reducible split
    | dsimp only

theorem State.compare_good_eq {pq : List Instr × Prop} {s : State} {cond : Cond} {a : W64} {b : W64} {rr} (he : State.compare s cond a b = rr) (hs : Good pq s) : Good pq rr.2 := he ▸ State.compare_good hs

theorem execCompareBranch_good {pq : List Instr × Prop} {c : Issued} {cond : Cond} {rs1 : Gpr} {rs2 : Gpr} {off : BitVec 15} {s : State} (hs : Good pq s) : GoodOut pq (execCompareBranch c cond rs1 rs2 off s) := by
  unfold execCompareBranch
  repeat' first
    | with_reducible assumption
    | with_reducible refine goodOut_next ?_
    | (lift_lets; intro x; refine (fun (hx : Good pq x) => ?_) ?_; clear_value x)
    | (intro x; subst x)
    | with_reducible refine State.compare_good ?_
    | with_reducible refine State.illegal_good ?_
    | with_reducible refine State.nextPc_good ?_
    | with_reducible refine State.setPc_good ?_
    | with_reducible refine State.compare_good_eq (by with_reducible assumption) ?_
    | with_reducible refine ite_good (fun _ => ?_) (fun _ => ?_)
    | with_reducible refine iteOut_good (fun _ => ?_) (fun _ => ?_)
    | with_reducible refine foldl_good (fun _ _ _ => ?_) ?_
    | with_reducible refine foldl_fst (fun _ _ _ => ?_) ?_
    | with_reducible refine foldl_snd (fun _ _ _ => ?_) ?_
    | subst x
    | with_reducible split
    | dsimp only

theorem execJumpAndLink_good {pq : List Instr × Prop} {c : Issued} {rd : Gpr} {rs1 : Gpr} {imm : BitVec 15} {s : State} (hs : Good pq s) : GoodOut pq (execJumpAndLink c rd rs1 imm s) := by
  unfold execJumpAndLink
  repeat' first
    | with_reducible assumption
    | with_reducible refine goodOut_next ?_
    | (lift_lets; intro x; refine (fun (hx : Good pq x) => ?_) ?_; clear_value x)
    | (intro x; subst x)
    | with_reducible refine State.illegal_good ?_
    | with_reducible refine State.setG_good ?_
    | with_reducible refine State.setPc_good ?_
    | with_reducible refine ite_good (fun _ => ?_) (fun _ => ?_)
    | with_reducible refine iteOut_good (fun _ => ?_) (fun _ => ?_)
    | with_reducible refine foldl_good (fun _ _ _ => ?_) ?_
    | with_reducible refine foldl_fst (fun _ _ _ => ?_) ?_
    | with_reducible refine foldl_snd (fun _ _ _ => ?_) ?_
    | subst x
    | with_reducible split
    | dsimp only

theorem execFpOp_good {pq : List Instr × Prop} {c : CoreNo} {fn : FpFn} {dbl : Bool} {rd : Gpr} {rs1 : Gpr} {rs2 : Gpr} {s : State} (hs : Good pq s) : GoodOut pq (execFpOp c fn dbl rd rs1 rs2 s) := by
  unfold execFpOp
  repeat' first
    | with_reducible assumption
    | with_reducible refine goodOut_next ?_
    | (lift_lets; intro x; refine (fun (hx : Good pq x) => ?_) ?_; clear_value x)
    | (intro x; subst x)
    | with_reducible refine State.illegal_good ?_
    | with_reducible refine State.ret_good ?_
    | with_reducible refine ite_good (fun _ => ?_) (fun _ => ?_)
    | with_reducible refine iteOut_good (fun _ => ?_) (fun _ => ?_)
    | with_reducible refine foldl_good (fun _ _ _ => ?_) ?_
    | with_reducible refine foldl_fst (fun _ _ _ => ?_) ?_
    | with_reducible refine foldl_snd (fun _ _ _ => ?_) ?_
    | subst x
    | with_reducible split
    | dsimp only

theorem State.csrRead_good {pq : List Instr × Prop} {s : State} {c : Nat} {r : Csr} (hs : Good pq s) : Good pq (State.csrRead s c r).2 := by
  unfold State.csrRead
  repeat' first
    | with_reducible assumption
    | with_reducible refine goodOut_next ?_
    | (lift_lets; intro x; refine (fun (hx : Good pq x) => ?_) ?_; clear_value x)
    | (intro x; subst x)
    | with_reducible refine State.draw_good ?_
    | with_reducible refine State.hsnap_good ?_
    | with_reducible refine State.draw_good_eq (by with_reducible assumption) ?_
    | with_reducible refine ite_good (fun _ => ?_) (fun _ => ?_)
    | with_reducible refine iteOut_good (fun _ => ?_) (fun _ => ?_)
    | with_reducible refine foldl_good (fun _ _ _ => ?_) ?_
    | with_reducible refine foldl_fst (fun _ _ _ => ?_) ?_
    | with_reducible refine foldl_snd (fun _ _ _ => ?_) ?_
    | subst x
    | with_reducible split
    | dsimp only

theorem State.csrRead_good_eq {pq : List Instr × Prop} {s : State} {c : Nat} {r : Csr} {rr} (he : State.csrRead s c r = rr) (hs : Good pq s) : Good pq rr.2 := he ▸ State.csrRead_good hs

theorem State.csrWrite_good {pq : List Instr × Prop} {s : State} {c : Nat} {r : Csr} {v : W64} (hs : Good pq s) : Good pq (State.csrWrite s c r v) := by
  unfold State.csrWrite
  repeat' first
    | with_reducible assumption
    | with_reducible refine goodOut_next ?_
    | (lift_lets; intro x; refine (fun (hx : Good pq x) => ?_) ?_; clear_value x)
    | (intro x; subst x)
    | with_reducible refine State.agentArrive_good ?_
    | with_reducible refine State.hsnap_good ?_
    | with_reducible refine State.setCore_good ?_
    | with_reducible refine State.setReg_good ?_
    | with_reducible refine State.agentArrive_good_eq (by with_reducible assumption) ?_
    | with_reducible refine ite_good (fun _ => ?_) (fun _ => ?_)
    | with_reducible refine iteOut_good (fun _ => ?_) (fun _ => ?_)
    | with_reducible refine foldl_good (fun _ _ _ => ?_) ?_
    | with_reducible refine foldl_fst (fun _ _ _ => ?_) ?_
    | with_reducible refine foldl_snd (fun _ _ _ => ?_) ?_
    | subst x
    | with_reducible split
    | dsimp only

theorem execSystemOp_good {pq : List Instr × Prop} {c : Issued} {fn : SysFn} {s : State} (hs : Good pq s) : GoodOut pq (execSystemOp c fn s) := by
  unfold execSystemOp
  repeat' first
    | with_reducible assumption
    | with_reducible refine goodOut_next ?_
    | (lift_lets; intro x; refine (fun (hx : Good pq x) => ?_) ?_; clear_value x)
    | (intro x; subst x)
    | with_reducible refine State.csrRead_good ?_
    | with_reducible refine State.csrWrite_good ?_
    | with_reducible refine State.illegal_good ?_
    | with_reducible refine State.nextPc_good ?_
    | with_reducible refine State.ret_good ?_
    | with_reducible refine State.csrRead_good_eq (by with_reducible assumption) ?_
    | with_reducible refine ite_good (fun _ => ?_) (fun _ => ?_)
    | with_reducible refine iteOut_good (fun _ => ?_) (fun _ => ?_)
    | with_reducible refine foldl_good (fun _ _ _ => ?_) ?_
    | with_reducible refine foldl_fst (fun _ _ _ => ?_) ?_
    | with_reducible refine foldl_snd (fun _ _ _ => ?_) ?_
    | subst x
    | with_reducible split
    | dsimp only

theorem State.setHost_good {pq : List Instr × Prop} {s : State} {h : HostLink} (hs : Good pq s) : Good pq (State.setHost s h) := by
  unfold State.setHost
  repeat' first
    | with_reducible assumption
    | with_reducible refine goodOut_next ?_
    | (lift_lets; intro x; refine (fun (hx : Good pq x) => ?_) ?_; clear_value x)
    | (intro x; subst x)
    | with_reducible refine State.withHost_good _ ?_
    | with_reducible refine ite_good (fun _ => ?_) (fun _ => ?_)
    | with_reducible refine iteOut_good (fun _ => ?_) (fun _ => ?_)
    | with_reducible refine foldl_good (fun _ _ _ => ?_) ?_
    | with_reducible refine foldl_fst (fun _ _ _ => ?_) ?_
    | with_reducible refine foldl_snd (fun _ _ _ => ?_) ?_
    | subst x
    | with_reducible split
    | dsimp only

theorem State.takeCcons_good {pq : List Instr × Prop} {s : State} {n : W64} (hs : Good pq s) : Good pq (State.takeCcons s n) := by
  unfold State.takeCcons
  repeat' first
    | with_reducible assumption
    | with_reducible refine goodOut_next ?_
    | (lift_lets; intro x; refine (fun (hx : Good pq x) => ?_) ?_; clear_value x)
    | (intro x; subst x)
    | with_reducible refine State.setErr_good ?_
    | with_reducible refine State.setHost_good ?_
    | with_reducible refine ite_good (fun _ => ?_) (fun _ => ?_)
    | with_reducible refine iteOut_good (fun _ => ?_) (fun _ => ?_)
    | with_reducible refine foldl_good (fun _ _ _ => ?_) ?_
    | with_reducible refine foldl_fst (fun _ _ _ => ?_) ?_
    | with_reducible refine foldl_snd (fun _ _ _ => ?_) ?_
    | subst x
    | with_reducible split
    | dsimp only

theorem State.accept_good {pq : List Instr × Prop} {s : State} {q : Nat} {seq : W64} {ws : List W64} (hs : Good pq s) : Good pq (State.accept s q seq ws) := by
  unfold State.accept
  repeat' first
    | with_reducible assumption
    | with_reducible refine goodOut_next ?_
    | (lift_lets; intro x; refine (fun (hx : Good pq x) => ?_) ?_; clear_value x)
    | (intro x; subst x)
    | with_reducible refine State.setHost_good ?_
    | with_reducible refine State.setReg_good ?_
    | with_reducible refine State.setSqCmds_good ?_
    | with_reducible refine ite_good (fun _ => ?_) (fun _ => ?_)
    | with_reducible refine iteOut_good (fun _ => ?_) (fun _ => ?_)
    | with_reducible refine foldl_good (fun _ _ _ => ?_) ?_
    | with_reducible refine foldl_fst (fun _ _ _ => ?_) ?_
    | with_reducible refine foldl_snd (fun _ _ _ => ?_) ?_
    | subst x
    | with_reducible split
    | dsimp only

theorem State.submit_good {pq : List Instr × Prop} {s : State} {q : Nat} {seq : W64} {ws : List W64} (hs : Good pq s) : Good pq (State.submit s q seq ws) := by
  unfold State.submit
  repeat' first
    | with_reducible assumption
    | with_reducible refine goodOut_next ?_
    | (lift_lets; intro x; refine (fun (hx : Good pq x) => ?_) ?_; clear_value x)
    | (intro x; subst x)
    | with_reducible refine State.accept_good ?_
    | with_reducible refine State.addFld_good ?_
    | with_reducible refine State.setErr_good ?_
    | with_reducible refine State.setHost_good ?_
    | with_reducible refine ite_good (fun _ => ?_) (fun _ => ?_)
    | with_reducible refine iteOut_good (fun _ => ?_) (fun _ => ?_)
    | with_reducible refine foldl_good (fun _ _ _ => ?_) ?_
    | with_reducible refine foldl_fst (fun _ _ _ => ?_) ?_
    | with_reducible refine foldl_snd (fun _ _ _ => ?_) ?_
    | subst x
    | with_reducible split
    | dsimp only

theorem State.keep_good {pq : List Instr × Prop} {s : State} {r : RegRes} (hs : Good pq s) : Good pq (State.keep s r) := by
  unfold State.keep
  repeat' first
    | with_reducible assumption
    | with_reducible refine goodOut_next ?_
    | (lift_lets; intro x; refine (fun (hx : Good pq x) => ?_) ?_; clear_value x)
    | (intro x; subst x)
    | with_reducible refine State.setHost_good ?_
    | with_reducible refine ite_good (fun _ => ?_) (fun _ => ?_)
    | with_reducible refine iteOut_good (fun _ => ?_) (fun _ => ?_)
    | with_reducible refine foldl_good (fun _ _ _ => ?_) ?_
    | with_reducible refine foldl_fst (fun _ _ _ => ?_) ?_
    | with_reducible refine foldl_snd (fun _ _ _ => ?_) ?_
    | subst x
    | with_reducible split
    | dsimp only

theorem State.regEffect_good {pq : List Instr × Prop} (s : State) (o : RegOp) (hs : Good pq s) : GoodOpt pq (fun r => r.2) (State.regEffect s o) := by
  unfold State.regEffect
  repeat' first
    | with_reducible assumption
    | with_reducible refine goodOpt_some ?_
    | with_reducible refine goodOpt_none
    | with_reducible refine goodOut_next ?_
    | (lift_lets; intro x; refine (fun (hx : Good pq x) => ?_) ?_; clear_value x)
    | (intro x; subst x)
    | with_reducible refine State.draw_good ?_
    | with_reducible refine State.readReg_good ?_
    | with_reducible refine State.withRdData_good _ ?_
    | with_reducible refine State.writeReg_good ?_
    | with_reducible refine State.draw_good_eq (by with_reducible assumption) ?_
    | with_reducible refine State.readReg_good_eq (by with_reducible assumption) ?_
    | with_reducible refine iteOpt_good (fun _ => ?_) (fun _ => ?_)
    | with_reducible refine ite_good (fun _ => ?_) (fun _ => ?_)
    | with_reducible refine iteOut_good (fun _ => ?_) (fun _ => ?_)
    | with_reducible refine foldl_good (fun _ _ _ => ?_) ?_
    | with_reducible refine foldl_fst (fun _ _ _ => ?_) ?_
    | with_reducible refine foldl_snd (fun _ _ _ => ?_) ?_
    | subst x
    | with_reducible split
    | dsimp only

theorem State.regEffect_good_eq {pq : List Instr × Prop} {s : State} {o : RegOp} {rr} (he : State.regEffect s o = some rr) (hs : Good pq s) : Good pq rr.2 := State.regEffect_good s o hs rr he

theorem State.answerFast_good {pq : List Instr × Prop} {s : State} {item : Nat} {r : RegRes} (hs : Good pq s) : Good pq (State.answerFast s item r) := by
  unfold State.answerFast
  repeat' first
    | with_reducible assumption
    | with_reducible refine goodOut_next ?_
    | (lift_lets; intro x; refine (fun (hx : Good pq x) => ?_) ?_; clear_value x)
    | (intro x; subst x)
    | with_reducible refine State.setHost_good ?_
    | with_reducible refine ite_good (fun _ => ?_) (fun _ => ?_)
    | with_reducible refine iteOut_good (fun _ => ?_) (fun _ => ?_)
    | with_reducible refine foldl_good (fun _ _ _ => ?_) ?_
    | with_reducible refine foldl_fst (fun _ _ _ => ?_) ?_
    | with_reducible refine foldl_snd (fun _ _ _ => ?_) ?_
    | subst x
    | with_reducible split
    | dsimp only

theorem State.answer_good {pq : List Instr × Prop} {s : State} {item : Nat} {o : RegOp} {fast : Bool} {r : RegRes} (hs : Good pq s) : Good pq (State.answer s item o fast r) := by
  unfold State.answer
  repeat' first
    | with_reducible assumption
    | with_reducible refine goodOut_next ?_
    | (lift_lets; intro x; refine (fun (hx : Good pq x) => ?_) ?_; clear_value x)
    | (intro x; subst x)
    | with_reducible refine State.answerFast_good ?_
    | with_reducible refine State.setHost_good ?_
    | with_reducible refine ite_good (fun _ => ?_) (fun _ => ?_)
    | with_reducible refine iteOut_good (fun _ => ?_) (fun _ => ?_)
    | with_reducible refine foldl_good (fun _ _ _ => ?_) ?_
    | with_reducible refine foldl_fst (fun _ _ _ => ?_) ?_
    | with_reducible refine foldl_snd (fun _ _ _ => ?_) ?_
    | subst x
    | with_reducible split
    | dsimp only

theorem State.defer_good {pq : List Instr × Prop} {s : State} {o : RegOp} (hs : Good pq s) : Good pq (State.defer s o) := by
  unfold State.defer
  repeat' first
    | with_reducible assumption
    | with_reducible refine goodOut_next ?_
    | (lift_lets; intro x; refine (fun (hx : Good pq x) => ?_) ?_; clear_value x)
    | (intro x; subst x)
    | with_reducible refine State.setHost_good ?_
    | with_reducible refine ite_good (fun _ => ?_) (fun _ => ?_)
    | with_reducible refine iteOut_good (fun _ => ?_) (fun _ => ?_)
    | with_reducible refine foldl_good (fun _ _ _ => ?_) ?_
    | with_reducible refine foldl_fst (fun _ _ _ => ?_) ?_
    | with_reducible refine foldl_snd (fun _ _ _ => ?_) ?_
    | subst x
    | with_reducible split
    | dsimp only

theorem State.regOp_good {pq : List Instr × Prop} {s : State} {item : Nat} {w0 : W64} {w1 : W64} (hs : Good pq s) : Good pq (State.regOp s item w0 w1) := by
  unfold State.regOp
  repeat' first
    | with_reducible assumption
    | with_reducible refine goodOut_next ?_
    | (lift_lets; intro x; refine (fun (hx : Good pq x) => ?_) ?_; clear_value x)
    | (intro x; subst x)
    | with_reducible refine State.addFld_good ?_
    | with_reducible refine State.answer_good ?_
    | with_reducible refine State.defer_good ?_
    | with_reducible refine State.keep_good ?_
    | with_reducible refine State.regEffect_good_eq (by with_reducible assumption) ?_
    | with_reducible refine ite_good (fun _ => ?_) (fun _ => ?_)
    | with_reducible refine iteOut_good (fun _ => ?_) (fun _ => ?_)
    | with_reducible refine foldl_good (fun _ _ _ => ?_) ?_
    | with_reducible refine foldl_fst (fun _ _ _ => ?_) ?_
    | with_reducible refine foldl_snd (fun _ _ _ => ?_) ?_
    | subst x
    | with_reducible split
    | dsimp only

theorem State.takeItem_good {pq : List Instr × Prop} {s : State} {ws : List W64} {i : Nat} (hs : Good pq s) : Good pq (State.takeItem s ws i) := by
  unfold State.takeItem
  repeat' first
    | with_reducible assumption
    | with_reducible refine goodOut_next ?_
    | (lift_lets; intro x; refine (fun (hx : Good pq x) => ?_) ?_; clear_value x)
    | (intro x; subst x)
    | with_reducible refine State.addFld_good ?_
    | with_reducible refine State.regOp_good ?_
    | with_reducible refine State.submit_good ?_
    | with_reducible refine ite_good (fun _ => ?_) (fun _ => ?_)
    | with_reducible refine iteOut_good (fun _ => ?_) (fun _ => ?_)
    | with_reducible refine foldl_good (fun _ _ _ => ?_) ?_
    | with_reducible refine foldl_fst (fun _ _ _ => ?_) ?_
    | with_reducible refine foldl_snd (fun _ _ _ => ?_) ?_
    | subst x
    | with_reducible split
    | dsimp only

theorem State.dropFrame_good {pq : List Instr × Prop} {s : State} {b : Bool} (hs : Good pq s) : Good pq (State.dropFrame s b) := by
  unfold State.dropFrame
  repeat' first
    | with_reducible assumption
    | with_reducible refine goodOut_next ?_
    | (lift_lets; intro x; refine (fun (hx : Good pq x) => ?_) ?_; clear_value x)
    | (intro x; subst x)
    | with_reducible refine State.setHost_good ?_
    | with_reducible refine ite_good (fun _ => ?_) (fun _ => ?_)
    | with_reducible refine iteOut_good (fun _ => ?_) (fun _ => ?_)
    | with_reducible refine foldl_good (fun _ _ _ => ?_) ?_
    | with_reducible refine foldl_fst (fun _ _ _ => ?_) ?_
    | with_reducible refine foldl_snd (fun _ _ _ => ?_) ?_
    | subst x
    | with_reducible split
    | dsimp only

theorem State.badFrame_good {pq : List Instr × Prop} {s0 : State} {b : Bool} (hs : Good pq s0) : Good pq (State.badFrame s0 b) := by
  unfold State.badFrame
  repeat' first
    | with_reducible assumption
    | with_reducible refine goodOut_next ?_
    | (lift_lets; intro x; refine (fun (hx : Good pq x) => ?_) ?_; clear_value x)
    | (intro x; subst x)
    | with_reducible refine State.addFld_good ?_
    | with_reducible refine State.dropFrame_good ?_
    | with_reducible refine State.laneFails_good ?_
    | with_reducible refine State.setHost_good ?_
    | with_reducible refine ite_good (fun _ => ?_) (fun _ => ?_)
    | with_reducible refine iteOut_good (fun _ => ?_) (fun _ => ?_)
    | with_reducible refine foldl_good (fun _ _ _ => ?_) ?_
    | with_reducible refine foldl_fst (fun _ _ _ => ?_) ?_
    | with_reducible refine foldl_snd (fun _ _ _ => ?_) ?_
    | subst x
    | with_reducible split
    | dsimp only

theorem execHostFrameRecv_good {pq : List Instr × Prop} {laneB : Bool} {words : List W64} {s : State} (hs : Good pq s) : GoodOut pq (execHostFrameRecv laneB words s) := by
  unfold execHostFrameRecv
  repeat' first
    | with_reducible assumption
    | with_reducible refine goodOut_next ?_
    | (lift_lets; intro x; refine (fun (hx : Good pq x) => ?_) ?_; clear_value x)
    | (intro x; subst x)
    | with_reducible refine State.badFrame_good ?_
    | with_reducible refine State.dropFrame_good ?_
    | with_reducible refine State.setHost_good ?_
    | with_reducible refine State.takeCcons_good ?_
    | with_reducible refine State.takeItem_good ?_
    | with_reducible refine ite_good (fun _ => ?_) (fun _ => ?_)
    | with_reducible refine iteOut_good (fun _ => ?_) (fun _ => ?_)
    | with_reducible refine foldl_good (fun _ _ _ => ?_) ?_
    | with_reducible refine foldl_fst (fun _ _ _ => ?_) ?_
    | with_reducible refine foldl_snd (fun _ _ _ => ?_) ?_
    | subst x
    | with_reducible split
    | dsimp only

theorem State.sendIdle_good {pq : List Instr × Prop} {s : State} (hs : Good pq s) : Good pq (State.sendIdle s) := by
  unfold State.sendIdle
  repeat' first
    | with_reducible assumption
    | with_reducible refine goodOut_next ?_
    | (lift_lets; intro x; refine (fun (hx : Good pq x) => ?_) ?_; clear_value x)
    | (intro x; subst x)
    | with_reducible refine State.setHost_good ?_
    | with_reducible refine ite_good (fun _ => ?_) (fun _ => ?_)
    | with_reducible refine iteOut_good (fun _ => ?_) (fun _ => ?_)
    | with_reducible refine foldl_good (fun _ _ _ => ?_) ?_
    | with_reducible refine foldl_fst (fun _ _ _ => ?_) ?_
    | with_reducible refine foldl_snd (fun _ _ _ => ?_) ?_
    | subst x
    | with_reducible split
    | dsimp only

theorem execHostReplyFrame_good {pq : List Instr × Prop} {s0 : State} (hs : Good pq s0) : GoodOut pq (execHostReplyFrame s0) := by
  unfold execHostReplyFrame
  repeat' first
    | with_reducible assumption
    | with_reducible refine goodOut_next ?_
    | (lift_lets; intro x; refine (fun (hx : Good pq x) => ?_) ?_; clear_value x)
    | (intro x; subst x)
    | with_reducible refine State.reply_good ?_
    | with_reducible refine State.sendIdle_good ?_
    | with_reducible refine State.setHost_good ?_
    | with_reducible refine ite_good (fun _ => ?_) (fun _ => ?_)
    | with_reducible refine iteOut_good (fun _ => ?_) (fun _ => ?_)
    | with_reducible refine foldl_good (fun _ _ _ => ?_) ?_
    | with_reducible refine foldl_fst (fun _ _ _ => ?_) ?_
    | with_reducible refine foldl_snd (fun _ _ _ => ?_) ?_
    | subst x
    | with_reducible split
    | dsimp only

theorem execRegDeferredResult_good {pq : List Instr × Prop} {s : State} (hs : Good pq s) : GoodOut pq (execRegDeferredResult s) := by
  unfold execRegDeferredResult
  repeat' first
    | with_reducible assumption
    | with_reducible refine goodOut_next ?_
    | (lift_lets; intro x; refine (fun (hx : Good pq x) => ?_) ?_; clear_value x)
    | (intro x; subst x)
    | with_reducible refine State.keep_good ?_
    | with_reducible refine State.setHost_good ?_
    | with_reducible refine State.regEffect_good_eq (by with_reducible assumption) ?_
    | with_reducible refine ite_good (fun _ => ?_) (fun _ => ?_)
    | with_reducible refine iteOut_good (fun _ => ?_) (fun _ => ?_)
    | with_reducible refine foldl_good (fun _ _ _ => ?_) ?_
    | with_reducible refine foldl_fst (fun _ _ _ => ?_) ?_
    | with_reducible refine foldl_snd (fun _ _ _ => ?_) ?_
    | subst x
    | with_reducible split
    | dsimp only

theorem execRegOpTimeout_good {pq : List Instr × Prop} {s : State} (hs : Good pq s) : GoodOut pq (execRegOpTimeout s) := by
  unfold execRegOpTimeout
  repeat' first
    | with_reducible assumption
    | with_reducible refine goodOut_next ?_
    | (lift_lets; intro x; refine (fun (hx : Good pq x) => ?_) ?_; clear_value x)
    | (intro x; subst x)
    | with_reducible refine State.keep_good ?_
    | with_reducible refine State.setHost_good ?_
    | with_reducible refine ite_good (fun _ => ?_) (fun _ => ?_)
    | with_reducible refine iteOut_good (fun _ => ?_) (fun _ => ?_)
    | with_reducible refine foldl_good (fun _ _ _ => ?_) ?_
    | with_reducible refine foldl_fst (fun _ _ _ => ?_) ?_
    | with_reducible refine foldl_snd (fun _ _ _ => ?_) ?_
    | subst x
    | with_reducible split
    | dsimp only

theorem State.refuseAborting_good {pq : List Instr × Prop} {s : State} {q : Nat} {seq : W64} (hs : Good pq s) : Good pq (State.refuseAborting s q seq) := by
  unfold State.refuseAborting
  repeat' first
    | with_reducible assumption
    | with_reducible refine goodOut_next ?_
    | (lift_lets; intro x; refine (fun (hx : Good pq x) => ?_) ?_; clear_value x)
    | (intro x; subst x)
    | with_reducible refine State.finAborted_good ?_
    | with_reducible refine ite_good (fun _ => ?_) (fun _ => ?_)
    | with_reducible refine iteOut_good (fun _ => ?_) (fun _ => ?_)
    | with_reducible refine foldl_good (fun _ _ _ => ?_) ?_
    | with_reducible refine foldl_fst (fun _ _ _ => ?_) ?_
    | with_reducible refine foldl_snd (fun _ _ _ => ?_) ?_
    | subst x
    | with_reducible split
    | dsimp only

theorem execSubmitEcho_good {pq : List Instr × Prop} {s : State} (hs : Good pq s) : GoodOut pq (execSubmitEcho s) := by
  unfold execSubmitEcho
  repeat' first
    | with_reducible assumption
    | with_reducible refine goodOut_next ?_
    | (lift_lets; intro x; refine (fun (hx : Good pq x) => ?_) ?_; clear_value x)
    | (intro x; subst x)
    | with_reducible refine State.pump_good ?_
    | with_reducible refine State.refuseAborting_good ?_
    | with_reducible refine State.setHost_good ?_
    | with_reducible refine State.setSqCmds_good ?_
    | with_reducible refine ite_good (fun _ => ?_) (fun _ => ?_)
    | with_reducible refine iteOut_good (fun _ => ?_) (fun _ => ?_)
    | with_reducible refine foldl_good (fun _ _ _ => ?_) ?_
    | with_reducible refine foldl_fst (fun _ _ _ => ?_) ?_
    | with_reducible refine foldl_snd (fun _ _ _ => ?_) ?_
    | subst x
    | with_reducible split
    | dsimp only

theorem State.finNow_good {pq : List Instr × Prop} {s : State} {q : Nat} {k : SqCmd} {st : Nat} {result : W64} (hs : Good pq s) : Good pq (State.finNow s q k st result) := by
  unfold State.finNow
  repeat' first
    | with_reducible assumption
    | with_reducible refine goodOut_next ?_
    | (lift_lets; intro x; refine (fun (hx : Good pq x) => ?_) ?_; clear_value x)
    | (intro x; subst x)
    | with_reducible refine State.finCmd_good ?_
    | with_reducible refine State.markDispatched_good ?_
    | with_reducible refine State.pump_good ?_
    | with_reducible refine ite_good (fun _ => ?_) (fun _ => ?_)
    | with_reducible refine iteOut_good (fun _ => ?_) (fun _ => ?_)
    | with_reducible refine foldl_good (fun _ _ _ => ?_) ?_
    | with_reducible refine foldl_fst (fun _ _ _ => ?_) ?_
    | with_reducible refine foldl_snd (fun _ _ _ => ?_) ?_
    | subst x
    | with_reducible split
    | dsimp only

theorem execNop_good {pq : List Instr × Prop} {q : Fin 256} {s : State} (hs : Good pq s) : GoodOut pq (execNop q s) := by
  unfold execNop
  repeat' first
    | with_reducible assumption
    | with_reducible refine goodOut_next ?_
    | (lift_lets; intro x; refine (fun (hx : Good pq x) => ?_) ?_; clear_value x)
    | (intro x; subst x)
    | with_reducible refine State.finNow_good ?_
    | with_reducible refine ite_good (fun _ => ?_) (fun _ => ?_)
    | with_reducible refine iteOut_good (fun _ => ?_) (fun _ => ?_)
    | with_reducible refine foldl_good (fun _ _ _ => ?_) ?_
    | with_reducible refine foldl_fst (fun _ _ _ => ?_) ?_
    | with_reducible refine foldl_snd (fun _ _ _ => ?_) ?_
    | subst x
    | with_reducible split
    | dsimp only

theorem execQwait_good {pq : List Instr × Prop} {q : Fin 256} {s : State} (hs : Good pq s) : GoodOut pq (execQwait q s) := by
  unfold execQwait
  repeat' first
    | with_reducible assumption
    | with_reducible refine goodOut_next ?_
    | (lift_lets; intro x; refine (fun (hx : Good pq x) => ?_) ?_; clear_value x)
    | (intro x; subst x)
    | with_reducible refine State.finNow_good ?_
    | with_reducible refine ite_good (fun _ => ?_) (fun _ => ?_)
    | with_reducible refine iteOut_good (fun _ => ?_) (fun _ => ?_)
    | with_reducible refine foldl_good (fun _ _ _ => ?_) ?_
    | with_reducible refine foldl_fst (fun _ _ _ => ?_) ?_
    | with_reducible refine foldl_snd (fun _ _ _ => ?_) ?_
    | subst x
    | with_reducible split
    | dsimp only

theorem execHostCmdBadOpcode_good {pq : List Instr × Prop} {q : Fin 256} {s : State} (hs : Good pq s) : GoodOut pq (execHostCmdBadOpcode q s) := by
  unfold execHostCmdBadOpcode
  repeat' first
    | with_reducible assumption
    | with_reducible refine goodOut_next ?_
    | (lift_lets; intro x; refine (fun (hx : Good pq x) => ?_) ?_; clear_value x)
    | (intro x; subst x)
    | with_reducible refine State.finNow_good ?_
    | with_reducible refine ite_good (fun _ => ?_) (fun _ => ?_)
    | with_reducible refine iteOut_good (fun _ => ?_) (fun _ => ?_)
    | with_reducible refine foldl_good (fun _ _ _ => ?_) ?_
    | with_reducible refine foldl_fst (fun _ _ _ => ?_) ?_
    | with_reducible refine foldl_snd (fun _ _ _ => ?_) ?_
    | subst x
    | with_reducible split
    | dsimp only

theorem State.sendRec_good {pq : List Instr × Prop} {s : State} {q : Nat} {r : List W64} (hs : Good pq s) : Good pq (State.sendRec s q r) := by
  unfold State.sendRec
  repeat' first
    | with_reducible assumption
    | with_reducible refine goodOut_next ?_
    | (lift_lets; intro x; refine (fun (hx : Good pq x) => ?_) ?_; clear_value x)
    | (intro x; subst x)
    | with_reducible refine State.setHost_good ?_
    | with_reducible refine State.setReg_good ?_
    | with_reducible refine ite_good (fun _ => ?_) (fun _ => ?_)
    | with_reducible refine iteOut_good (fun _ => ?_) (fun _ => ?_)
    | with_reducible refine foldl_good (fun _ _ _ => ?_) ?_
    | with_reducible refine foldl_fst (fun _ _ _ => ?_) ?_
    | with_reducible refine foldl_snd (fun _ _ _ => ?_) ?_
    | subst x
    | with_reducible split
    | dsimp only

theorem State.sendNext_good {pq : List Instr × Prop} {s : State} {q : Nat} (hs : Good pq s) : Good pq (State.sendNext s q) := by
  unfold State.sendNext
  repeat' first
    | with_reducible assumption
    | with_reducible refine goodOut_next ?_
    | (lift_lets; intro x; refine (fun (hx : Good pq x) => ?_) ?_; clear_value x)
    | (intro x; subst x)
    | with_reducible refine State.sendRec_good ?_
    | with_reducible refine State.setHost_good ?_
    | with_reducible refine State.setSqCmds_good ?_
    | with_reducible refine State.unfinished_good ?_
    | with_reducible refine ite_good (fun _ => ?_) (fun _ => ?_)
    | with_reducible refine iteOut_good (fun _ => ?_) (fun _ => ?_)
    | with_reducible refine foldl_good (fun _ _ _ => ?_) ?_
    | with_reducible refine foldl_fst (fun _ _ _ => ?_) ?_
    | with_reducible refine foldl_snd (fun _ _ _ => ?_) ?_
    | subst x
    | with_reducible split
    | dsimp only

theorem execComplRecordSend_good {pq : List Instr × Prop} {s : State} (hs : Good pq s) : GoodOut pq (execComplRecordSend s) := by
  unfold execComplRecordSend
  repeat' first
    | with_reducible assumption
    | with_reducible refine goodOut_next ?_
    | (lift_lets; intro x; refine (fun (hx : Good pq x) => ?_) ?_; clear_value x)
    | (intro x; subst x)
    | with_reducible refine State.draw_good ?_
    | with_reducible refine State.sendNext_good ?_
    | with_reducible refine State.draw_good_eq (by with_reducible assumption) ?_
    | with_reducible refine ite_good (fun _ => ?_) (fun _ => ?_)
    | with_reducible refine iteOut_good (fun _ => ?_) (fun _ => ?_)
    | with_reducible refine foldl_good (fun _ _ _ => ?_) ?_
    | with_reducible refine foldl_fst (fun _ _ _ => ?_) ?_
    | with_reducible refine foldl_snd (fun _ _ _ => ?_) ?_
    | subst x
    | with_reducible split
    | dsimp only

-- FOR State.selectIr
-- HAVE selectIr State.selectIr_good
theorem State.selectIr_good {pq : List Instr × Prop} {s : State} {d : Nat} {c : Byte} (hs : Good pq s) : Good pq (s.selectIr d c) := by
  unfold State.selectIr
  refine ite_good (fun _ => hs) (fun _ => ⟨hs.1, fun hk => ⟨(hs.2 hk).1, ?_⟩⟩)
  intro h
  simp only [State.withTap_tap, Bool.and_eq_true] at h
  exact h.2

-- FOR State.lpLost
-- HAVE lpLost State.lpLost_good
theorem State.lpLost_good {pq : List Instr × Prop} {s : State} (hs : Good pq s) : Good pq s.lpLost := by
  unfold State.lpLost
  refine withMem_good (State.clearMem_good hs) (fun h => ?_)
  simp only [Memory.wf, Bool.and_eq_true] at h ⊢
  exact ⟨h.1, KMap.wf_filter _ _ h.2⟩

-- FOR State.boundary
-- HAVE boundary State.boundary_good ?_
theorem State.boundary_good {pq : List Instr × Prop} {s : State} {d : Nat} {c : Byte} (hb : d < 4 ∧ Ir.boundary c = true) (hs : Good pq s) : Good pq (s.boundary d c) := by
  unfold State.boundary
  refine ite_good (fun _ => hs) (fun hp => ite_good (fun _ => State.selectIr_good hs) (fun _ => ?_))
  have h := State.lpLost_good (State.selectIr_good (d := d) (c := c) hs)
  refine ⟨h.1, fun hk => ⟨(h.2 hk).1, fun _ => List.any_eq_true.mpr ⟨d, List.mem_range.mpr hb.1, ?_⟩⟩⟩
  have e : State.ir ((s.selectIr d c).lpLost.withTap { (s.selectIr d c).lpLost.tap with hold := true }) d = c := by
    simp [State.ir, State.lpLost, State.clearMem, State.selectIr, hp, KMap.get_set_same]
  rw [e]; exact hb.2

theorem execJtagTapReset_good {pq : List Instr × Prop} {d : Die} {s : State} (hs : Good pq s) : GoodOut pq (execJtagTapReset d s) := by
  unfold execJtagTapReset
  repeat' first
    | with_reducible assumption
    | with_reducible refine goodOut_next ?_
    | (lift_lets; intro x; refine (fun (hx : Good pq x) => ?_) ?_; clear_value x)
    | (intro x; subst x)
    | with_reducible refine State.selectIr_good ?_
    | with_reducible refine ite_good (fun _ => ?_) (fun _ => ?_)
    | with_reducible refine iteOut_good (fun _ => ?_) (fun _ => ?_)
    | with_reducible refine foldl_good (fun _ _ _ => ?_) ?_
    | with_reducible refine foldl_fst (fun _ _ _ => ?_) ?_
    | with_reducible refine foldl_snd (fun _ _ _ => ?_) ?_
    | subst x
    | with_reducible split
    | dsimp only

-- FOR execExtest
-- HAVE execExtest execExtest_good
theorem execExtest_good {pq : List Instr × Prop} {d : Die} {s : State} (hs : Good pq s) : GoodOut pq (execExtest d s) :=
  goodOut_next (State.boundary_good ⟨d.isLt, rfl⟩ hs)

-- FOR execClamp
-- HAVE execClamp execClamp_good
theorem execClamp_good {pq : List Instr × Prop} {d : Die} {s : State} (hs : Good pq s) : GoodOut pq (execClamp d s) :=
  goodOut_next (State.boundary_good ⟨d.isLt, rfl⟩ hs)

-- FOR execHighz
-- HAVE execHighz execHighz_good
theorem execHighz_good {pq : List Instr × Prop} {d : Die} {s : State} (hs : Good pq s) : GoodOut pq (execHighz d s) :=
  goodOut_next (State.boundary_good ⟨d.isLt, rfl⟩ hs)

-- FOR execExtestPulse
-- HAVE execExtestPulse execExtestPulse_good
theorem execExtestPulse_good {pq : List Instr × Prop} {d : Die} {s : State} (hs : Good pq s) : GoodOut pq (execExtestPulse d s) :=
  goodOut_next (State.boundary_good ⟨d.isLt, rfl⟩ hs)

-- FOR execExtestTrain
-- HAVE execExtestTrain execExtestTrain_good
theorem execExtestTrain_good {pq : List Instr × Prop} {d : Die} {s : State} (hs : Good pq s) : GoodOut pq (execExtestTrain d s) :=
  goodOut_next (State.boundary_good ⟨d.isLt, rfl⟩ hs)

theorem execSamplePreload_good {pq : List Instr × Prop} {d : Die} {s : State} (hs : Good pq s) : GoodOut pq (execSamplePreload d s) := by
  unfold execSamplePreload
  repeat' first
    | with_reducible assumption
    | with_reducible refine goodOut_next ?_
    | (lift_lets; intro x; refine (fun (hx : Good pq x) => ?_) ?_; clear_value x)
    | (intro x; subst x)
    | with_reducible refine State.selectIr_good ?_
    | with_reducible refine ite_good (fun _ => ?_) (fun _ => ?_)
    | with_reducible refine iteOut_good (fun _ => ?_) (fun _ => ?_)
    | with_reducible refine foldl_good (fun _ _ _ => ?_) ?_
    | with_reducible refine foldl_fst (fun _ _ _ => ?_) ?_
    | with_reducible refine foldl_snd (fun _ _ _ => ?_) ?_
    | subst x
    | with_reducible split
    | dsimp only

theorem execIdcode_good {pq : List Instr × Prop} {d : Die} {s : State} (hs : Good pq s) : GoodOut pq (execIdcode d s) := by
  unfold execIdcode
  repeat' first
    | with_reducible assumption
    | with_reducible refine goodOut_next ?_
    | (lift_lets; intro x; refine (fun (hx : Good pq x) => ?_) ?_; clear_value x)
    | (intro x; subst x)
    | with_reducible refine State.out_good ?_
    | with_reducible refine State.selectIr_good ?_
    | with_reducible refine ite_good (fun _ => ?_) (fun _ => ?_)
    | with_reducible refine iteOut_good (fun _ => ?_) (fun _ => ?_)
    | with_reducible refine foldl_good (fun _ _ _ => ?_) ?_
    | with_reducible refine foldl_fst (fun _ _ _ => ?_) ?_
    | with_reducible refine foldl_snd (fun _ _ _ => ?_) ?_
    | subst x
    | with_reducible split
    | dsimp only

theorem execTsttoken_good {pq : List Instr × Prop} {d : Die} {bytes : List Byte} {s : State} (hs : Good pq s) : GoodOut pq (execTsttoken d bytes s) := by
  unfold execTsttoken
  repeat' first
    | with_reducible assumption
    | with_reducible refine goodOut_next ?_
    | (lift_lets; intro x; refine (fun (hx : Good pq x) => ?_) ?_; clear_value x)
    | (intro x; subst x)
    | with_reducible refine State.selectIr_good ?_
    | with_reducible refine State.tokenBytes_good ?_
    | with_reducible refine ite_good (fun _ => ?_) (fun _ => ?_)
    | with_reducible refine iteOut_good (fun _ => ?_) (fun _ => ?_)
    | with_reducible refine foldl_good (fun _ _ _ => ?_) ?_
    | with_reducible refine foldl_fst (fun _ _ _ => ?_) ?_
    | with_reducible refine foldl_snd (fun _ _ _ => ?_) ?_
    | subst x
    | with_reducible split
    | dsimp only

theorem execTstacc_good {pq : List Instr × Prop} {d : Die} {op : BitVec 2} {addr : BitVec 26} {data : W64} {s : State} (hs : Good pq s) : GoodOut pq (execTstacc d op addr data s) := by
  unfold execTstacc
  repeat' first
    | with_reducible assumption
    | with_reducible refine goodOut_next ?_
    | (lift_lets; intro x; refine (fun (hx : Good pq x) => ?_) ?_; clear_value x)
    | (intro x; subst x)
    | with_reducible refine State.access_good (fun _ _ _ => ?_) ?_
    | with_reducible refine State.readReg_good ?_
    | with_reducible refine State.selectIr_good ?_
    | with_reducible refine State.writeReg_good ?_
    | with_reducible refine State.readReg_good_eq (by with_reducible assumption) ?_
    | with_reducible refine ite_good (fun _ => ?_) (fun _ => ?_)
    | with_reducible refine iteOut_good (fun _ => ?_) (fun _ => ?_)
    | with_reducible refine foldl_good (fun _ _ _ => ?_) ?_
    | with_reducible refine foldl_fst (fun _ _ _ => ?_) ?_
    | with_reducible refine foldl_snd (fun _ _ _ => ?_) ?_
    | subst x
    | with_reducible split
    | dsimp only

theorem execBypass_good {pq : List Instr × Prop} {d : Die} {code : Byte} {s : State} (hs : Good pq s) : GoodOut pq (execBypass d code s) := by
  unfold execBypass
  repeat' first
    | with_reducible assumption
    | with_reducible refine goodOut_next ?_
    | (lift_lets; intro x; refine (fun (hx : Good pq x) => ?_) ?_; clear_value x)
    | (intro x; subst x)
    | with_reducible refine State.selectIr_good ?_
    | with_reducible refine ite_good (fun _ => ?_) (fun _ => ?_)
    | with_reducible refine iteOut_good (fun _ => ?_) (fun _ => ?_)
    | with_reducible refine foldl_good (fun _ _ _ => ?_) ?_
    | with_reducible refine foldl_fst (fun _ _ _ => ?_) ?_
    | with_reducible refine foldl_snd (fun _ _ _ => ?_) ?_
    | subst x
    | with_reducible split
    | dsimp only

theorem State.countRun_good {pq : List Instr × Prop} {s : State} {ctx : Nat} (hs : Good pq s) : Good pq (State.countRun s ctx) := by
  unfold State.countRun
  repeat' first
    | with_reducible assumption
    | with_reducible refine goodOut_next ?_
    | (lift_lets; intro x; refine (fun (hx : Good pq x) => ?_) ?_; clear_value x)
    | (intro x; subst x)
    | with_reducible refine State.addFld_good ?_
    | with_reducible refine State.withLdg_good _ ?_
    | with_reducible refine ite_good (fun _ => ?_) (fun _ => ?_)
    | with_reducible refine iteOut_good (fun _ => ?_) (fun _ => ?_)
    | with_reducible refine foldl_good (fun _ _ _ => ?_) ?_
    | with_reducible refine foldl_fst (fun _ _ _ => ?_) ?_
    | with_reducible refine foldl_snd (fun _ _ _ => ?_) ?_
    | subst x
    | with_reducible split
    | dsimp only

theorem tick_good {pq : List Instr × Prop} {s : State} (hs : Good pq s) : Good pq (tick s) := by
  unfold tick
  repeat' first
    | with_reducible assumption
    | with_reducible refine goodOut_next ?_
    | (lift_lets; intro x; refine (fun (hx : Good pq x) => ?_) ?_; clear_value x)
    | (intro x; subst x)
    | with_reducible refine State.countRun_good ?_
    | with_reducible refine State.portTick_good ?_
    | with_reducible refine State.setTb_good ?_
    | with_reducible refine ite_good (fun _ => ?_) (fun _ => ?_)
    | with_reducible refine iteOut_good (fun _ => ?_) (fun _ => ?_)
    | with_reducible refine foldl_good (fun _ _ _ => ?_) ?_
    | with_reducible refine foldl_fst (fun _ _ _ => ?_) ?_
    | with_reducible refine foldl_snd (fun _ _ _ => ?_) ?_
    | subst x
    | with_reducible split
    | dsimp only

end Sys2Proof.Machine
end

