-- ==== Sys2Proof/Laws/KeepOps.lean ====
section
/-! SUPPORT. What each operation may change, part by part of the state: the shared operations. A set of parts is a numeral, one bit per part. -/

namespace Sys2Proof.Machine
-- The tactic scripts here have one shape for every operation, so some of their steps do nothing for some operations.
set_option linter.unusedTactic false
set_option linter.unreachableTactic false

/-- The state s has the parts outside the set a as s₀ has them. -/
def Keeps (a : Nat) (s₀ s : State) : Prop := ∀ p : Part, a.testBit p.ctorIdx = false → p.same s₀ s

/-- The set m lies in the set a. -/
def Sub (m a : Nat) : Prop := m &&& a = m

theorem Sub.of {m a : Nat} (h : m &&& a = m) : Sub m a := h

theorem sub_of {m n a : Nat} (h : Sub n a) (e : m &&& n = m) : Sub m a := by
  unfold Sub at h ⊢
  rw [← e, Nat.and_assoc, h]
theorem Sub.testBit {m a i : Nat} (h : Sub m a) (hm : m.testBit i = true) : a.testBit i = true := by
  have e := Nat.testBit_and m a i
  rw [h, hm] at e
  simpa using e.symm
theorem keeps_step {a m : Nat} {s₀ s t : State} (ha : Sub m a) (h : Keeps a s₀ s) (k : ∀ p : Part, m.testBit p.ctorIdx = false → p.same s t) :
    Keeps a s₀ t := by
  intro p hp
  have h1 := h p hp
  have h2 := k p (by
    cases e : m.testBit p.ctorIdx with
    | false => rfl
    | true => rw [ha.testBit e] at hp; cases hp)
  revert h1 h2
  cases p <;> exact fun h1 h2 => Eq.trans h2 h1
theorem keeps_refl (a : Nat) (s : State) : Keeps a s s := by
  intro p _; cases p <;> rfl

def KeepsOut (a : Nat) (s₀ : State) (o : Host.Outcome State Fault Refusal) : Prop := ∀ t, o = .next t → Keeps a s₀ t

theorem keepsOut_next {a : Nat} {s₀ t : State} (h : Keeps a s₀ t) : KeepsOut a s₀ (.next t) := by
  intro u hu; cases hu; exact h
theorem ite_keeps {a : Nat} {s₀ : State} {c : Prop} [Decidable c] {x y : State} (hx : c → Keeps a s₀ x) (hy : ¬c → Keeps a s₀ y) :
    Keeps a s₀ (if c then x else y) := by
  split
  · exact hx ‹_›
  · exact hy ‹_›
theorem iteOut_keeps {a : Nat} {s₀ : State} {c : Prop} [Decidable c] {x y : Host.Outcome State Fault Refusal} (hx : c → KeepsOut a s₀ x)
    (hy : ¬c → KeepsOut a s₀ y) : KeepsOut a s₀ (if c then x else y) := by
  split
  · exact hx ‹_›
  · exact hy ‹_›
theorem foldl_keeps {a : Nat} {s₀ : State} {β : Type} {g : State → β → State} {l : List β} {s : State}
    (h : ∀ s x, Keeps a s₀ s → Keeps a s₀ (g s x)) (hs : Keeps a s₀ s) : Keeps a s₀ (l.foldl g s) := by
  induction l generalizing s with
  | nil => exact hs
  | cons b t ih => exact ih (h s b hs)
theorem foldl_kfst {a : Nat} {s₀ : State} {β γ : Type} {g : State × γ → β → State × γ} {l : List β} {r : State × γ}
    (h : ∀ r x, Keeps a s₀ r.1 → Keeps a s₀ (g r x).1) (hs : Keeps a s₀ r.1) : Keeps a s₀ (l.foldl g r).1 := by
  induction l generalizing r with
  | nil => exact hs
  | cons b t ih => exact ih (h r b hs)
theorem foldl_ksnd {a : Nat} {s₀ : State} {β γ : Type} {g : γ × State → β → γ × State} {l : List β} {r : γ × State}
    (h : ∀ r x, Keeps a s₀ r.2 → Keeps a s₀ (g r x).2) (hs : Keeps a s₀ r.2) : Keeps a s₀ (l.foldl g r).2 := by
  induction l generalizing r with
  | nil => exact hs
  | cons b t ih => exact ih (h r b hs)

def KeepsOpt {α : Type} (a : Nat) (s₀ : State) (f : α → State) (o : Option α) : Prop := ∀ r, o = some r → Keeps a s₀ (f r)
theorem keepsOpt_some {α : Type} {a : Nat} {s₀ : State} {f : α → State} {r : α} (h : Keeps a s₀ (f r)) : KeepsOpt a s₀ f (some r) := by
  intro u hu; cases hu; exact h
theorem keepsOpt_none {α : Type} {a : Nat} {s₀ : State} {f : α → State} : KeepsOpt a s₀ f none := by
  intro u hu; cases hu
theorem iteOpt_keeps {α : Type} {a : Nat} {s₀ : State} {f : α → State} {c : Prop} [Decidable c] {x y : Option α} (hx : c → KeepsOpt a s₀ f x)
    (hy : ¬c → KeepsOpt a s₀ f y) : KeepsOpt a s₀ f (if c then x else y) := by
  split
  · exact hx ‹_›
  · exact hy ‹_›
theorem findSome_keeps {α : Type} {a : Nat} {s₀ : State} {f : α → Option State} (h : ∀ x t, f x = some t → Keeps a s₀ t) {l : List α} {t : State}
    (ht : l.findSome? f = some t) : Keeps a s₀ t := by
  obtain ⟨x, _, hx⟩ := List.exists_of_findSome?_eq_some ht
  exact h x t hx

/-- The set of the parts of a list. -/
def partMask : List Part → Nat
  | [] => 0
  | p :: ps => 2 ^ p.ctorIdx ||| partMask ps

theorem testBit_partMask {p : Part} {ps : List Part} (hp : p ∉ ps) : (partMask ps).testBit p.ctorIdx = false := by
  induction ps with
  | nil => exact Nat.zero_testBit _
  | cons q qs ih =>
    have hq : p ≠ q := fun e => hp (e ▸ List.mem_cons_self)
    have hn : q.ctorIdx ≠ p.ctorIdx := by
      intro e; apply hq; revert e; cases p <;> cases q <;> first | (intro _; rfl) | (intro e; cases e)
    simp only [partMask, Nat.testBit_or, ih (fun h => hp (List.mem_cons_of_mem _ h)), Bool.or_false]
    exact Nat.testBit_two_pow_of_ne hn
/-- What a command keeps, from what its operation keeps. -/
theorem KeepsOut.same {ps : List Part} {s t : State} {o : Host.Outcome State Fault Refusal} (h : KeepsOut (partMask ps) s o) (ht : o = .next t)
    {p : Part} (hp : p ∉ ps) : p.same s t := h t ht p (testBit_partMask hp)

theorem State.withPending_keeps {am : Nat} {s₀ s : State} {x} (ha : Sub 1 am) (h : Keeps am s₀ s) : Keeps am s₀ (s.withPending x) := keeps_step ha h fun p hp => by cases p <;> first | rfl | cases hp
theorem State.withFree_keeps {am : Nat} {s₀ s : State} {x} (ha : Sub 2 am) (h : Keeps am s₀ s) : Keeps am s₀ (s.withFree x) := keeps_step ha h fun p hp => by cases p <;> first | rfl | cases hp
theorem State.withRdData_keeps {am : Nat} {s₀ s : State} {x} (ha : Sub 4 am) (h : Keeps am s₀ s) : Keeps am s₀ (s.withRdData x) := keeps_step ha h fun p hp => by cases p <;> first | rfl | cases hp
theorem State.withRegStatus_keeps {am : Nat} {s₀ s : State} {x} (ha : Sub 8 am) (h : Keeps am s₀ s) : Keeps am s₀ (s.withRegStatus x) := keeps_step ha h fun p hp => by cases p <;> first | rfl | cases hp
theorem State.withRegs_keeps {am : Nat} {s₀ s : State} {x} (ha : Sub 16 am) (h : Keeps am s₀ s) : Keeps am s₀ (s.withRegs x) := keeps_step ha h fun p hp => by cases p <;> first | rfl | cases hp
theorem State.withErrCtx_keeps {am : Nat} {s₀ s : State} {x} (ha : Sub 32 am) (h : Keeps am s₀ s) : Keeps am s₀ (s.withErrCtx x) := keeps_step ha h fun p hp => by cases p <;> first | rfl | cases hp
theorem State.withEvents_keeps {am : Nat} {s₀ s : State} {x} (ha : Sub 64 am) (h : Keeps am s₀ s) : Keeps am s₀ (s.withEvents x) := keeps_step ha h fun p hp => by cases p <;> first | rfl | cases hp
theorem State.withPlat_keeps {am : Nat} {s₀ s : State} {x} (ha : Sub 128 am) (h : Keeps am s₀ s) : Keeps am s₀ (s.withPlat x) := keeps_step ha h fun p hp => by cases p <;> first | rfl | cases hp
theorem State.withSst_keeps {am : Nat} {s₀ s : State} {x} (ha : Sub 256 am) (h : Keeps am s₀ s) : Keeps am s₀ (s.withSst x) := keeps_step ha h fun p hp => by cases p <;> first | rfl | cases hp
theorem State.withCores_keeps {am : Nat} {s₀ s : State} {x} (ha : Sub 512 am) (h : Keeps am s₀ s) : Keeps am s₀ (s.withCores x) := keeps_step ha h fun p hp => by cases p <;> first | rfl | cases hp
theorem State.withScratch_keeps {am : Nat} {s₀ s : State} {x} (ha : Sub 1024 am) (h : Keeps am s₀ s) : Keeps am s₀ (s.withScratch x) := keeps_step ha h fun p hp => by cases p <;> first | rfl | cases hp
theorem State.withClusters_keeps {am : Nat} {s₀ s : State} {x} (ha : Sub 2048 am) (h : Keeps am s₀ s) : Keeps am s₀ (s.withClusters x) := keeps_step ha h fun p hp => by cases p <;> first | rfl | cases hp
theorem State.withBanks_keeps {am : Nat} {s₀ s : State} {x} (ha : Sub 4096 am) (h : Keeps am s₀ s) : Keeps am s₀ (s.withBanks x) := keeps_step ha h fun p hp => by cases p <;> first | rfl | cases hp
theorem State.withMxes_keeps {am : Nat} {s₀ s : State} {x} (ha : Sub 8192 am) (h : Keeps am s₀ s) : Keeps am s₀ (s.withMxes x) := keeps_step ha h fun p hp => by cases p <;> first | rfl | cases hp
theorem State.withVxes_keeps {am : Nat} {s₀ s : State} {x} (ha : Sub 16384 am) (h : Keeps am s₀ s) : Keeps am s₀ (s.withVxes x) := keeps_step ha h fun p hp => by cases p <;> first | rfl | cases hp
theorem State.withBins_keeps {am : Nat} {s₀ s : State} {x} (ha : Sub 32768 am) (h : Keeps am s₀ s) : Keeps am s₀ (s.withBins x) := keeps_step ha h fun p hp => by cases p <;> first | rfl | cases hp
theorem State.withWork_keeps {am : Nat} {s₀ s : State} {x} (ha : Sub 65536 am) (h : Keeps am s₀ s) : Keeps am s₀ (s.withWork x) := keeps_step ha h fun p hp => by cases p <;> first | rfl | cases hp
theorem State.withHstOp_keeps {am : Nat} {s₀ s : State} {x} (ha : Sub 131072 am) (h : Keeps am s₀ s) : Keeps am s₀ (s.withHstOp x) := keeps_step ha h fun p hp => by cases p <;> first | rfl | cases hp
theorem State.withMem_keeps {am : Nat} {s₀ s : State} {x} (ha : Sub 262144 am) (h : Keeps am s₀ s) : Keeps am s₀ (s.withMem x) := keeps_step ha h fun p hp => by cases p <;> first | rfl | cases hp
theorem State.withMs_keeps {am : Nat} {s₀ s : State} {x} (ha : Sub 524288 am) (h : Keeps am s₀ s) : Keeps am s₀ (s.withMs x) := keeps_step ha h fun p hp => by cases p <;> first | rfl | cases hp
theorem State.withUpd_keeps {am : Nat} {s₀ s : State} {x} (ha : Sub 1048576 am) (h : Keeps am s₀ s) : Keeps am s₀ (s.withUpd x) := keeps_step ha h fun p hp => by cases p <;> first | rfl | cases hp
theorem State.withCommit_keeps {am : Nat} {s₀ s : State} {x} (ha : Sub 2097152 am) (h : Keeps am s₀ s) : Keeps am s₀ (s.withCommit x) := keeps_step ha h fun p hp => by cases p <;> first | rfl | cases hp
theorem State.withUus_keeps {am : Nat} {s₀ s : State} {x} (ha : Sub 4194304 am) (h : Keeps am s₀ s) : Keeps am s₀ (s.withUus x) := keeps_step ha h fun p hp => by cases p <;> first | rfl | cases hp
theorem State.withJournals_keeps {am : Nat} {s₀ s : State} {x} (ha : Sub 8388608 am) (h : Keeps am s₀ s) : Keeps am s₀ (s.withJournals x) := keeps_step ha h fun p hp => by cases p <;> first | rfl | cases hp
theorem State.withStg_keeps {am : Nat} {s₀ s : State} {x} (ha : Sub 16777216 am) (h : Keeps am s₀ s) : Keeps am s₀ (s.withStg x) := keeps_step ha h fun p hp => by cases p <;> first | rfl | cases hp
theorem State.withSync_keeps {am : Nat} {s₀ s : State} {x} (ha : Sub 33554432 am) (h : Keeps am s₀ s) : Keeps am s₀ (s.withSync x) := keeps_step ha h fun p hp => by cases p <;> first | rfl | cases hp
theorem State.withNet_keeps {am : Nat} {s₀ s : State} {x} (ha : Sub 67108864 am) (h : Keeps am s₀ s) : Keeps am s₀ (s.withNet x) := keeps_step ha h fun p hp => by cases p <;> first | rfl | cases hp
theorem State.withCr_keeps {am : Nat} {s₀ s : State} {x} (ha : Sub 134217728 am) (h : Keeps am s₀ s) : Keeps am s₀ (s.withCr x) := keeps_step ha h fun p hp => by cases p <;> first | rfl | cases hp
theorem State.withHost_keeps {am : Nat} {s₀ s : State} {x} (ha : Sub 268435456 am) (h : Keeps am s₀ s) : Keeps am s₀ (s.withHost x) := keeps_step ha h fun p hp => by cases p <;> first | rfl | cases hp
theorem State.withRcv_keeps {am : Nat} {s₀ s : State} {x} (ha : Sub 536870912 am) (h : Keeps am s₀ s) : Keeps am s₀ (s.withRcv x) := keeps_step ha h fun p hp => by cases p <;> first | rfl | cases hp
theorem State.withLdg_keeps {am : Nat} {s₀ s : State} {x} (ha : Sub 1073741824 am) (h : Keeps am s₀ s) : Keeps am s₀ (s.withLdg x) := keeps_step ha h fun p hp => by cases p <;> first | rfl | cases hp
theorem State.withPwr_keeps {am : Nat} {s₀ s : State} {x} (ha : Sub 2147483648 am) (h : Keeps am s₀ s) : Keeps am s₀ (s.withPwr x) := keeps_step ha h fun p hp => by cases p <;> first | rfl | cases hp
theorem State.withBoot_keeps {am : Nat} {s₀ s : State} {x} (ha : Sub 4294967296 am) (h : Keeps am s₀ s) : Keeps am s₀ (s.withBoot x) := keeps_step ha h fun p hp => by cases p <;> first | rfl | cases hp
theorem State.withTap_keeps {am : Nat} {s₀ s : State} {x} (ha : Sub 8589934592 am) (h : Keeps am s₀ s) : Keeps am s₀ (s.withTap x) := keeps_step ha h fun p hp => by cases p <;> first | rfl | cases hp
theorem State.setReg_keeps {am : Nat} {s₀ : State} {s : State} {k : Nat} {v : W64} (ha : Sub 16 am) (hs : Keeps am s₀ s) : Keeps am s₀ (State.setReg s k v) := by
  unfold State.setReg
  repeat' first
    | with_reducible assumption
    | exact sub_of ha rfl
    | with_reducible refine keepsOut_next ?_
    | (lift_lets; intro x; refine (fun (hx : Keeps am s₀ x) => ?_) ?_; clear_value x)
    | (intro x; subst x)
    | with_reducible refine State.withRegs_keeps ?_ ?_
    | with_reducible refine ite_keeps (fun _ => ?_) (fun _ => ?_)
    | with_reducible refine iteOut_keeps (fun _ => ?_) (fun _ => ?_)
    | with_reducible refine foldl_keeps (fun _ _ _ => ?_) ?_
    | with_reducible refine foldl_kfst (fun _ _ _ => ?_) ?_
    | with_reducible refine foldl_ksnd (fun _ _ _ => ?_) ?_
    | subst x
    | with_reducible split
    | dsimp only

theorem State.setFld_keeps {am : Nat} {s₀ : State} {s : State} {page : Nat} {f : Fld} {v : Nat} (ha : Sub 16 am) (hs : Keeps am s₀ s) : Keeps am s₀ (State.setFld s page f v) := by
  unfold State.setFld
  repeat' first
    | with_reducible assumption
    | exact sub_of ha rfl
    | with_reducible refine keepsOut_next ?_
    | (lift_lets; intro x; refine (fun (hx : Keeps am s₀ x) => ?_) ?_; clear_value x)
    | (intro x; subst x)
    | with_reducible refine State.setReg_keeps ?_ ?_
    | with_reducible refine ite_keeps (fun _ => ?_) (fun _ => ?_)
    | with_reducible refine iteOut_keeps (fun _ => ?_) (fun _ => ?_)
    | with_reducible refine foldl_keeps (fun _ _ _ => ?_) ?_
    | with_reducible refine foldl_kfst (fun _ _ _ => ?_) ?_
    | with_reducible refine foldl_ksnd (fun _ _ _ => ?_) ?_
    | subst x
    | with_reducible split
    | dsimp only

theorem State.setBitF_keeps {am : Nat} {s₀ : State} {s : State} {page : Nat} {f : Fld} {b : Bool} (ha : Sub 16 am) (hs : Keeps am s₀ s) : Keeps am s₀ (State.setBitF s page f b) := by
  unfold State.setBitF
  repeat' first
    | with_reducible assumption
    | exact sub_of ha rfl
    | with_reducible refine keepsOut_next ?_
    | (lift_lets; intro x; refine (fun (hx : Keeps am s₀ x) => ?_) ?_; clear_value x)
    | (intro x; subst x)
    | with_reducible refine State.setFld_keeps ?_ ?_
    | with_reducible refine ite_keeps (fun _ => ?_) (fun _ => ?_)
    | with_reducible refine iteOut_keeps (fun _ => ?_) (fun _ => ?_)
    | with_reducible refine foldl_keeps (fun _ _ _ => ?_) ?_
    | with_reducible refine foldl_kfst (fun _ _ _ => ?_) ?_
    | with_reducible refine foldl_ksnd (fun _ _ _ => ?_) ?_
    | subst x
    | with_reducible split
    | dsimp only

theorem State.addFld_keeps {am : Nat} {s₀ : State} {s : State} {page : Nat} {f : Fld} {n : Nat} (ha : Sub 16 am) (hs : Keeps am s₀ s) : Keeps am s₀ (State.addFld s page f n) := by
  unfold State.addFld
  repeat' first
    | with_reducible assumption
    | exact sub_of ha rfl
    | with_reducible refine keepsOut_next ?_
    | (lift_lets; intro x; refine (fun (hx : Keeps am s₀ x) => ?_) ?_; clear_value x)
    | (intro x; subst x)
    | with_reducible refine State.setFld_keeps ?_ ?_
    | with_reducible refine ite_keeps (fun _ => ?_) (fun _ => ?_)
    | with_reducible refine iteOut_keeps (fun _ => ?_) (fun _ => ?_)
    | with_reducible refine foldl_keeps (fun _ _ _ => ?_) ?_
    | with_reducible refine foldl_kfst (fun _ _ _ => ?_) ?_
    | with_reducible refine foldl_ksnd (fun _ _ _ => ?_) ?_
    | subst x
    | with_reducible split
    | dsimp only

theorem State.wrapFld_keeps {am : Nat} {s₀ : State} {s : State} {page : Nat} {f : Fld} {n : Nat} (ha : Sub 16 am) (hs : Keeps am s₀ s) : Keeps am s₀ (State.wrapFld s page f n) := by
  unfold State.wrapFld
  repeat' first
    | with_reducible assumption
    | exact sub_of ha rfl
    | with_reducible refine keepsOut_next ?_
    | (lift_lets; intro x; refine (fun (hx : Keeps am s₀ x) => ?_) ?_; clear_value x)
    | (intro x; subst x)
    | with_reducible refine State.setFld_keeps ?_ ?_
    | with_reducible refine ite_keeps (fun _ => ?_) (fun _ => ?_)
    | with_reducible refine iteOut_keeps (fun _ => ?_) (fun _ => ?_)
    | with_reducible refine foldl_keeps (fun _ _ _ => ?_) ?_
    | with_reducible refine foldl_kfst (fun _ _ _ => ?_) ?_
    | with_reducible refine foldl_ksnd (fun _ _ _ => ?_) ?_
    | subst x
    | with_reducible split
    | dsimp only

theorem State.setErrBit_keeps {am : Nat} {s₀ : State} {s : State} {page : Nat} {b : Nat} {ctx : Nat} (ha : Sub 48 am) (hs : Keeps am s₀ s) : Keeps am s₀ (State.setErrBit s page b ctx) := by
  unfold State.setErrBit
  repeat' first
    | with_reducible assumption
    | exact sub_of ha rfl
    | with_reducible refine keepsOut_next ?_
    | (lift_lets; intro x; refine (fun (hx : Keeps am s₀ x) => ?_) ?_; clear_value x)
    | (intro x; subst x)
    | with_reducible refine State.addFld_keeps ?_ ?_
    | with_reducible refine State.setReg_keeps ?_ ?_
    | with_reducible refine State.withErrCtx_keeps ?_ ?_
    | with_reducible refine ite_keeps (fun _ => ?_) (fun _ => ?_)
    | with_reducible refine iteOut_keeps (fun _ => ?_) (fun _ => ?_)
    | with_reducible refine foldl_keeps (fun _ _ _ => ?_) ?_
    | with_reducible refine foldl_kfst (fun _ _ _ => ?_) ?_
    | with_reducible refine foldl_ksnd (fun _ _ _ => ?_) ?_
    | subst x
    | with_reducible split
    | dsimp only

theorem State.setErr_keeps {am : Nat} {s₀ : State} {s : State} {page : Nat} {f : Fld} {ctx : Nat} (ha : Sub 48 am) (hs : Keeps am s₀ s) : Keeps am s₀ (State.setErr s page f ctx) := by
  unfold State.setErr
  repeat' first
    | with_reducible assumption
    | exact sub_of ha rfl
    | with_reducible refine keepsOut_next ?_
    | (lift_lets; intro x; refine (fun (hx : Keeps am s₀ x) => ?_) ?_; clear_value x)
    | (intro x; subst x)
    | with_reducible refine State.setErrBit_keeps ?_ ?_
    | with_reducible refine ite_keeps (fun _ => ?_) (fun _ => ?_)
    | with_reducible refine iteOut_keeps (fun _ => ?_) (fun _ => ?_)
    | with_reducible refine foldl_keeps (fun _ _ _ => ?_) ?_
    | with_reducible refine foldl_kfst (fun _ _ _ => ?_) ?_
    | with_reducible refine foldl_ksnd (fun _ _ _ => ?_) ?_
    | subst x
    | with_reducible split
    | dsimp only

theorem State.badSeq_keeps {am : Nat} {s₀ : State} {s : State} {page : Nat} (ha : Sub 48 am) (hs : Keeps am s₀ s) : Keeps am s₀ (State.badSeq s page) := by
  unfold State.badSeq
  repeat' first
    | with_reducible assumption
    | exact sub_of ha rfl
    | with_reducible refine keepsOut_next ?_
    | (lift_lets; intro x; refine (fun (hx : Keeps am s₀ x) => ?_) ?_; clear_value x)
    | (intro x; subst x)
    | with_reducible refine State.setErrBit_keeps ?_ ?_
    | with_reducible refine ite_keeps (fun _ => ?_) (fun _ => ?_)
    | with_reducible refine iteOut_keeps (fun _ => ?_) (fun _ => ?_)
    | with_reducible refine foldl_keeps (fun _ _ _ => ?_) ?_
    | with_reducible refine foldl_kfst (fun _ _ _ => ?_) ?_
    | with_reducible refine foldl_ksnd (fun _ _ _ => ?_) ?_
    | subst x
    | with_reducible split
    | dsimp only

theorem State.plainWrite_keeps {am : Nat} {s₀ : State} {s : State} {k : Nat} {data : W64} (ha : Sub 16 am) (hs : Keeps am s₀ s) : Keeps am s₀ (State.plainWrite s k data) := by
  unfold State.plainWrite
  repeat' first
    | with_reducible assumption
    | exact sub_of ha rfl
    | with_reducible refine keepsOut_next ?_
    | (lift_lets; intro x; refine (fun (hx : Keeps am s₀ x) => ?_) ?_; clear_value x)
    | (intro x; subst x)
    | with_reducible refine State.setReg_keeps ?_ ?_
    | with_reducible refine ite_keeps (fun _ => ?_) (fun _ => ?_)
    | with_reducible refine iteOut_keeps (fun _ => ?_) (fun _ => ?_)
    | with_reducible refine foldl_keeps (fun _ _ _ => ?_) ?_
    | with_reducible refine foldl_kfst (fun _ _ _ => ?_) ?_
    | with_reducible refine foldl_ksnd (fun _ _ _ => ?_) ?_
    | subst x
    | with_reducible split
    | dsimp only

theorem State.lockedWrite_keeps {am : Nat} {s₀ : State} {s : State} {k : Nat} {m : W64} {data : W64} (ha : Sub 48 am) (hs : Keeps am s₀ s) : Keeps am s₀ (State.lockedWrite s k m data) := by
  unfold State.lockedWrite
  repeat' first
    | with_reducible assumption
    | exact sub_of ha rfl
    | with_reducible refine keepsOut_next ?_
    | (lift_lets; intro x; refine (fun (hx : Keeps am s₀ x) => ?_) ?_; clear_value x)
    | (intro x; subst x)
    | with_reducible refine State.badSeq_keeps ?_ ?_
    | with_reducible refine State.plainWrite_keeps ?_ ?_
    | with_reducible refine ite_keeps (fun _ => ?_) (fun _ => ?_)
    | with_reducible refine iteOut_keeps (fun _ => ?_) (fun _ => ?_)
    | with_reducible refine foldl_keeps (fun _ _ _ => ?_) ?_
    | with_reducible refine foldl_kfst (fun _ _ _ => ?_) ?_
    | with_reducible refine foldl_ksnd (fun _ _ _ => ?_) ?_
    | subst x
    | with_reducible split
    | dsimp only

theorem State.draw_keeps {am : Nat} {s₀ : State} {s : State} (ha : Sub 2 am) (hs : Keeps am s₀ s) : Keeps am s₀ (State.draw s).2 := by
  unfold State.draw
  repeat' first
    | with_reducible assumption
    | exact sub_of ha rfl
    | with_reducible refine keepsOut_next ?_
    | (lift_lets; intro x; refine (fun (hx : Keeps am s₀ x) => ?_) ?_; clear_value x)
    | (intro x; subst x)
    | with_reducible refine State.withFree_keeps ?_ ?_
    | with_reducible refine ite_keeps (fun _ => ?_) (fun _ => ?_)
    | with_reducible refine iteOut_keeps (fun _ => ?_) (fun _ => ?_)
    | with_reducible refine foldl_keeps (fun _ _ _ => ?_) ?_
    | with_reducible refine foldl_kfst (fun _ _ _ => ?_) ?_
    | with_reducible refine foldl_ksnd (fun _ _ _ => ?_) ?_
    | subst x
    | with_reducible split
    | dsimp only

theorem State.draw_keeps_eq {am : Nat} {s₀ : State} {s : State} {rr} (ha : Sub 2 am) (he : State.draw s = rr) (hs : Keeps am s₀ s) : Keeps am s₀ rr.2 := he ▸ State.draw_keeps ha hs

theorem State.out_keeps {am : Nat} {s₀ : State} {s : State} {v : W64} (ha : Sub 4 am) (hs : Keeps am s₀ s) : Keeps am s₀ (State.out s v) := by
  unfold State.out
  repeat' first
    | with_reducible assumption
    | exact sub_of ha rfl
    | with_reducible refine keepsOut_next ?_
    | (lift_lets; intro x; refine (fun (hx : Keeps am s₀ x) => ?_) ?_; clear_value x)
    | (intro x; subst x)
    | with_reducible refine State.withRdData_keeps ?_ ?_
    | with_reducible refine ite_keeps (fun _ => ?_) (fun _ => ?_)
    | with_reducible refine iteOut_keeps (fun _ => ?_) (fun _ => ?_)
    | with_reducible refine foldl_keeps (fun _ _ _ => ?_) ?_
    | with_reducible refine foldl_kfst (fun _ _ _ => ?_) ?_
    | with_reducible refine foldl_ksnd (fun _ _ _ => ?_) ?_
    | subst x
    | with_reducible split
    | dsimp only

theorem State.setTb_keeps {am : Nat} {s₀ : State} {s : State} {d : Nat} {t : TimeBase} (ha : Sub 128 am) (hs : Keeps am s₀ s) : Keeps am s₀ (State.setTb s d t) := by
  unfold State.setTb
  repeat' first
    | with_reducible assumption
    | exact sub_of ha rfl
    | with_reducible refine keepsOut_next ?_
    | (lift_lets; intro x; refine (fun (hx : Keeps am s₀ x) => ?_) ?_; clear_value x)
    | (intro x; subst x)
    | with_reducible refine State.withPlat_keeps ?_ ?_
    | with_reducible refine ite_keeps (fun _ => ?_) (fun _ => ?_)
    | with_reducible refine iteOut_keeps (fun _ => ?_) (fun _ => ?_)
    | with_reducible refine foldl_keeps (fun _ _ _ => ?_) ?_
    | with_reducible refine foldl_kfst (fun _ _ _ => ?_) ?_
    | with_reducible refine foldl_ksnd (fun _ _ _ => ?_) ?_
    | subst x
    | with_reducible split
    | dsimp only

theorem State.setBridge_keeps {am : Nat} {s₀ : State} {s : State} {b : Nat} {x : Bridge} (ha : Sub 128 am) (hs : Keeps am s₀ s) : Keeps am s₀ (State.setBridge s b x) := by
  unfold State.setBridge
  repeat' first
    | with_reducible assumption
    | exact sub_of ha rfl
    | with_reducible refine keepsOut_next ?_
    | (lift_lets; intro x; refine (fun (hx : Keeps am s₀ x) => ?_) ?_; clear_value x)
    | (intro x; subst x)
    | with_reducible refine State.withPlat_keeps ?_ ?_
    | with_reducible refine ite_keeps (fun _ => ?_) (fun _ => ?_)
    | with_reducible refine iteOut_keeps (fun _ => ?_) (fun _ => ?_)
    | with_reducible refine foldl_keeps (fun _ _ _ => ?_) ?_
    | with_reducible refine foldl_kfst (fun _ _ _ => ?_) ?_
    | with_reducible refine foldl_ksnd (fun _ _ _ => ?_) ?_
    | subst x
    | with_reducible split
    | dsimp only

theorem State.sstAdd_keeps {am : Nat} {s₀ : State} {s : State} {typ : Nat} {key : Nat} {payload : List W64} (ha : Sub 33554704 am) (hs : Keeps am s₀ s) : Keeps am s₀ (State.sstAdd s typ key payload) := by
  unfold State.sstAdd
  repeat' first
    | with_reducible assumption
    | exact sub_of ha rfl
    | with_reducible refine keepsOut_next ?_
    | (lift_lets; intro x; refine (fun (hx : Keeps am s₀ x) => ?_) ?_; clear_value x)
    | (intro x; subst x)
    | with_reducible refine State.setFld_keeps ?_ ?_
    | with_reducible refine State.withSst_keeps ?_ ?_
    | with_reducible refine ite_keeps (fun _ => ?_) (fun _ => ?_)
    | with_reducible refine iteOut_keeps (fun _ => ?_) (fun _ => ?_)
    | with_reducible refine foldl_keeps (fun _ _ _ => ?_) ?_
    | with_reducible refine foldl_kfst (fun _ _ _ => ?_) ?_
    | with_reducible refine foldl_ksnd (fun _ _ _ => ?_) ?_
    | subst x
    | with_reducible split
    | dsimp only

theorem State.event_keeps {am : Nat} {s₀ : State} {s : State} {d : Nat} {code : Nat} {ctx : Nat} {unit : Nat} {d0 : Nat} {d1 : W64} (ha : Sub 33554800 am) (hs : Keeps am s₀ s) : Keeps am s₀ (State.event s d code ctx unit d0 d1) := by
  unfold State.event
  repeat' first
    | with_reducible assumption
    | exact sub_of ha rfl
    | with_reducible refine keepsOut_next ?_
    | (lift_lets; intro x; refine (fun (hx : Keeps am s₀ x) => ?_) ?_; clear_value x)
    | (intro x; subst x)
    | with_reducible refine State.addFld_keeps ?_ ?_
    | with_reducible refine State.setErr_keeps ?_ ?_
    | with_reducible refine State.setFld_keeps ?_ ?_
    | with_reducible refine State.sstAdd_keeps ?_ ?_
    | with_reducible refine State.withEvents_keeps ?_ ?_
    | with_reducible refine ite_keeps (fun _ => ?_) (fun _ => ?_)
    | with_reducible refine iteOut_keeps (fun _ => ?_) (fun _ => ?_)
    | with_reducible refine foldl_keeps (fun _ _ _ => ?_) ?_
    | with_reducible refine foldl_kfst (fun _ _ _ => ?_) ?_
    | with_reducible refine foldl_ksnd (fun _ _ _ => ?_) ?_
    | subst x
    | with_reducible split
    | dsimp only

theorem State.putUnit_keeps {am : Nat} {s₀ : State} {s : State} {key : Nat} {u : UnitRec} (ha : Sub 33554704 am) (hs : Keeps am s₀ s) : Keeps am s₀ (State.putUnit s key u) := by
  unfold State.putUnit
  repeat' first
    | with_reducible assumption
    | exact sub_of ha rfl
    | with_reducible refine keepsOut_next ?_
    | (lift_lets; intro x; refine (fun (hx : Keeps am s₀ x) => ?_) ?_; clear_value x)
    | (intro x; subst x)
    | with_reducible refine State.sstAdd_keeps ?_ ?_
    | with_reducible refine State.withSst_keeps ?_ ?_
    | with_reducible refine ite_keeps (fun _ => ?_) (fun _ => ?_)
    | with_reducible refine iteOut_keeps (fun _ => ?_) (fun _ => ?_)
    | with_reducible refine foldl_keeps (fun _ _ _ => ?_) ?_
    | with_reducible refine foldl_kfst (fun _ _ _ => ?_) ?_
    | with_reducible refine foldl_ksnd (fun _ _ _ => ?_) ?_
    | subst x
    | with_reducible split
    | dsimp only

theorem State.markFenced_keeps {am : Nat} {s₀ : State} {s : State} {key : Nat} {cause : Nat} (ha : Sub 33554704 am) (hs : Keeps am s₀ s) : Keeps am s₀ (State.markFenced s key cause) := by
  unfold State.markFenced
  repeat' first
    | with_reducible assumption
    | exact sub_of ha rfl
    | with_reducible refine keepsOut_next ?_
    | (lift_lets; intro x; refine (fun (hx : Keeps am s₀ x) => ?_) ?_; clear_value x)
    | (intro x; subst x)
    | with_reducible refine State.putUnit_keeps ?_ ?_
    | with_reducible refine ite_keeps (fun _ => ?_) (fun _ => ?_)
    | with_reducible refine iteOut_keeps (fun _ => ?_) (fun _ => ?_)
    | with_reducible refine foldl_keeps (fun _ _ _ => ?_) ?_
    | with_reducible refine foldl_kfst (fun _ _ _ => ?_) ?_
    | with_reducible refine foldl_ksnd (fun _ _ _ => ?_) ?_
    | subst x
    | with_reducible split
    | dsimp only

theorem State.liftFence_keeps {am : Nat} {s₀ : State} {s : State} {key : Nat} (ha : Sub 33554704 am) (hs : Keeps am s₀ s) : Keeps am s₀ (State.liftFence s key) := by
  unfold State.liftFence
  repeat' first
    | with_reducible assumption
    | exact sub_of ha rfl
    | with_reducible refine keepsOut_next ?_
    | (lift_lets; intro x; refine (fun (hx : Keeps am s₀ x) => ?_) ?_; clear_value x)
    | (intro x; subst x)
    | with_reducible refine State.putUnit_keeps ?_ ?_
    | with_reducible refine ite_keeps (fun _ => ?_) (fun _ => ?_)
    | with_reducible refine iteOut_keeps (fun _ => ?_) (fun _ => ?_)
    | with_reducible refine foldl_keeps (fun _ _ _ => ?_) ?_
    | with_reducible refine foldl_kfst (fun _ _ _ => ?_) ?_
    | with_reducible refine foldl_ksnd (fun _ _ _ => ?_) ?_
    | subst x
    | with_reducible split
    | dsimp only

theorem State.setMxe_keeps {am : Nat} {s₀ : State} {s : State} {e : Nat} {m : Mxe} (ha : Sub 8192 am) (hs : Keeps am s₀ s) : Keeps am s₀ (State.setMxe s e m) := by
  unfold State.setMxe
  repeat' first
    | with_reducible assumption
    | exact sub_of ha rfl
    | with_reducible refine keepsOut_next ?_
    | (lift_lets; intro x; refine (fun (hx : Keeps am s₀ x) => ?_) ?_; clear_value x)
    | (intro x; subst x)
    | with_reducible refine State.withMxes_keeps ?_ ?_
    | with_reducible refine ite_keeps (fun _ => ?_) (fun _ => ?_)
    | with_reducible refine iteOut_keeps (fun _ => ?_) (fun _ => ?_)
    | with_reducible refine foldl_keeps (fun _ _ _ => ?_) ?_
    | with_reducible refine foldl_kfst (fun _ _ _ => ?_) ?_
    | with_reducible refine foldl_ksnd (fun _ _ _ => ?_) ?_
    | subst x
    | with_reducible split
    | dsimp only

theorem State.setVxe_keeps {am : Nat} {s₀ : State} {s : State} {v : Nat} {r : Option ChainRun} (ha : Sub 16384 am) (hs : Keeps am s₀ s) : Keeps am s₀ (State.setVxe s v r) := by
  unfold State.setVxe
  repeat' first
    | with_reducible assumption
    | exact sub_of ha rfl
    | with_reducible refine keepsOut_next ?_
    | (lift_lets; intro x; refine (fun (hx : Keeps am s₀ x) => ?_) ?_; clear_value x)
    | (intro x; subst x)
    | with_reducible refine State.withVxes_keeps ?_ ?_
    | with_reducible refine ite_keeps (fun _ => ?_) (fun _ => ?_)
    | with_reducible refine iteOut_keeps (fun _ => ?_) (fun _ => ?_)
    | with_reducible refine foldl_keeps (fun _ _ _ => ?_) ?_
    | with_reducible refine foldl_kfst (fun _ _ _ => ?_) ?_
    | with_reducible refine foldl_ksnd (fun _ _ _ => ?_) ?_
    | subst x
    | with_reducible split
    | dsimp only

theorem State.setUu_keeps {am : Nat} {s₀ : State} {s : State} {u : Nat} {x : Uu} (ha : Sub 4194304 am) (hs : Keeps am s₀ s) : Keeps am s₀ (State.setUu s u x) := by
  unfold State.setUu
  repeat' first
    | with_reducible assumption
    | exact sub_of ha rfl
    | with_reducible refine keepsOut_next ?_
    | (lift_lets; intro x; refine (fun (hx : Keeps am s₀ x) => ?_) ?_; clear_value x)
    | (intro x; subst x)
    | with_reducible refine State.withUus_keeps ?_ ?_
    | with_reducible refine ite_keeps (fun _ => ?_) (fun _ => ?_)
    | with_reducible refine iteOut_keeps (fun _ => ?_) (fun _ => ?_)
    | with_reducible refine foldl_keeps (fun _ _ _ => ?_) ?_
    | with_reducible refine foldl_kfst (fun _ _ _ => ?_) ?_
    | with_reducible refine foldl_ksnd (fun _ _ _ => ?_) ?_
    | subst x
    | with_reducible split
    | dsimp only

theorem State.setClu_keeps {am : Nat} {s₀ : State} {s : State} {c : Nat} {x : Cluster} (ha : Sub 2048 am) (hs : Keeps am s₀ s) : Keeps am s₀ (State.setClu s c x) := by
  unfold State.setClu
  repeat' first
    | with_reducible assumption
    | exact sub_of ha rfl
    | with_reducible refine keepsOut_next ?_
    | (lift_lets; intro x; refine (fun (hx : Keeps am s₀ x) => ?_) ?_; clear_value x)
    | (intro x; subst x)
    | with_reducible refine State.withClusters_keeps ?_ ?_
    | with_reducible refine ite_keeps (fun _ => ?_) (fun _ => ?_)
    | with_reducible refine iteOut_keeps (fun _ => ?_) (fun _ => ?_)
    | with_reducible refine foldl_keeps (fun _ _ _ => ?_) ?_
    | with_reducible refine foldl_kfst (fun _ _ _ => ?_) ?_
    | with_reducible refine foldl_ksnd (fun _ _ _ => ?_) ?_
    | subst x
    | with_reducible split
    | dsimp only

theorem State.setCore_keeps {am : Nat} {s₀ : State} {s : State} {c : Nat} {x : Core} (ha : Sub 512 am) (hs : Keeps am s₀ s) : Keeps am s₀ (State.setCore s c x) := by
  unfold State.setCore
  repeat' first
    | with_reducible assumption
    | exact sub_of ha rfl
    | with_reducible refine keepsOut_next ?_
    | (lift_lets; intro x; refine (fun (hx : Keeps am s₀ x) => ?_) ?_; clear_value x)
    | (intro x; subst x)
    | with_reducible refine State.withCores_keeps ?_ ?_
    | with_reducible refine ite_keeps (fun _ => ?_) (fun _ => ?_)
    | with_reducible refine iteOut_keeps (fun _ => ?_) (fun _ => ?_)
    | with_reducible refine foldl_keeps (fun _ _ _ => ?_) ?_
    | with_reducible refine foldl_kfst (fun _ _ _ => ?_) ?_
    | with_reducible refine foldl_ksnd (fun _ _ _ => ?_) ?_
    | subst x
    | with_reducible split
    | dsimp only

theorem State.setFull_keeps {am : Nat} {s₀ : State} {s : State} {key : Nat} {b : Bool} (ha : Sub 262144 am) (hs : Keeps am s₀ s) : Keeps am s₀ (State.setFull s key b) := by
  unfold State.setFull
  repeat' first
    | with_reducible assumption
    | exact sub_of ha rfl
    | with_reducible refine keepsOut_next ?_
    | (lift_lets; intro x; refine (fun (hx : Keeps am s₀ x) => ?_) ?_; clear_value x)
    | (intro x; subst x)
    | with_reducible refine State.withMem_keeps ?_ ?_
    | with_reducible refine ite_keeps (fun _ => ?_) (fun _ => ?_)
    | with_reducible refine iteOut_keeps (fun _ => ?_) (fun _ => ?_)
    | with_reducible refine foldl_keeps (fun _ _ _ => ?_) ?_
    | with_reducible refine foldl_kfst (fun _ _ _ => ?_) ?_
    | with_reducible refine foldl_ksnd (fun _ _ _ => ?_) ?_
    | subst x
    | with_reducible split
    | dsimp only

theorem State.setPoison_keeps {am : Nat} {s₀ : State} {s : State} {key : Nat} {b : Bool} (ha : Sub 262144 am) (hs : Keeps am s₀ s) : Keeps am s₀ (State.setPoison s key b) := by
  unfold State.setPoison
  repeat' first
    | with_reducible assumption
    | exact sub_of ha rfl
    | with_reducible refine keepsOut_next ?_
    | (lift_lets; intro x; refine (fun (hx : Keeps am s₀ x) => ?_) ?_; clear_value x)
    | (intro x; subst x)
    | with_reducible refine State.withMem_keeps ?_ ?_
    | with_reducible refine ite_keeps (fun _ => ?_) (fun _ => ?_)
    | with_reducible refine iteOut_keeps (fun _ => ?_) (fun _ => ?_)
    | with_reducible refine foldl_keeps (fun _ _ _ => ?_) ?_
    | with_reducible refine foldl_kfst (fun _ _ _ => ?_) ?_
    | with_reducible refine foldl_ksnd (fun _ _ _ => ?_) ?_
    | subst x
    | with_reducible split
    | dsimp only

theorem State.setLine_keeps {am : Nat} {s₀ : State} {s : State} {key : Nat} {b : Bool} (ha : Sub 262144 am) (hs : Keeps am s₀ s) : Keeps am s₀ (State.setLine s key b) := by
  unfold State.setLine
  repeat' first
    | with_reducible assumption
    | exact sub_of ha rfl
    | with_reducible refine keepsOut_next ?_
    | (lift_lets; intro x; refine (fun (hx : Keeps am s₀ x) => ?_) ?_; clear_value x)
    | (intro x; subst x)
    | with_reducible refine State.withMem_keeps ?_ ?_
    | with_reducible refine ite_keeps (fun _ => ?_) (fun _ => ?_)
    | with_reducible refine iteOut_keeps (fun _ => ?_) (fun _ => ?_)
    | with_reducible refine foldl_keeps (fun _ _ _ => ?_) ?_
    | with_reducible refine foldl_kfst (fun _ _ _ => ?_) ?_
    | with_reducible refine foldl_ksnd (fun _ _ _ => ?_) ?_
    | subst x
    | with_reducible split
    | dsimp only

theorem State.putByte_keeps {am : Nat} {s₀ : State} {s : State} {key : Nat} {b : Byte} (ha : Sub 262144 am) (hs : Keeps am s₀ s) : Keeps am s₀ (State.putByte s key b) := by
  unfold State.putByte
  repeat' first
    | with_reducible assumption
    | exact sub_of ha rfl
    | with_reducible refine keepsOut_next ?_
    | (lift_lets; intro x; refine (fun (hx : Keeps am s₀ x) => ?_) ?_; clear_value x)
    | (intro x; subst x)
    | with_reducible refine State.withMem_keeps ?_ ?_
    | with_reducible refine ite_keeps (fun _ => ?_) (fun _ => ?_)
    | with_reducible refine iteOut_keeps (fun _ => ?_) (fun _ => ?_)
    | with_reducible refine foldl_keeps (fun _ _ _ => ?_) ?_
    | with_reducible refine foldl_kfst (fun _ _ _ => ?_) ?_
    | with_reducible refine foldl_ksnd (fun _ _ _ => ?_) ?_
    | subst x
    | with_reducible split
    | dsimp only

theorem State.markStore_keeps {am : Nat} {s₀ : State} {s : State} {p : Place} {a : Nat} {touched : List Nat} {poison : Bool} (ha : Sub 262144 am) (hs : Keeps am s₀ s) : Keeps am s₀ (State.markStore s p a touched poison) := by
  unfold State.markStore
  repeat' first
    | with_reducible assumption
    | exact sub_of ha rfl
    | with_reducible refine keepsOut_next ?_
    | (lift_lets; intro x; refine (fun (hx : Keeps am s₀ x) => ?_) ?_; clear_value x)
    | (intro x; subst x)
    | with_reducible refine State.setLine_keeps ?_ ?_
    | with_reducible refine State.setPoison_keeps ?_ ?_
    | with_reducible refine ite_keeps (fun _ => ?_) (fun _ => ?_)
    | with_reducible refine iteOut_keeps (fun _ => ?_) (fun _ => ?_)
    | with_reducible refine foldl_keeps (fun _ _ _ => ?_) ?_
    | with_reducible refine foldl_kfst (fun _ _ _ => ?_) ?_
    | with_reducible refine foldl_ksnd (fun _ _ _ => ?_) ?_
    | subst x
    | with_reducible split
    | dsimp only

theorem State.countPoisonWr_keeps {am : Nat} {s₀ : State} {s : State} {ls : List (Nat × Nat)} (ha : Sub 16 am) (hs : Keeps am s₀ s) : Keeps am s₀ (State.countPoisonWr s ls) := by
  unfold State.countPoisonWr
  repeat' first
    | with_reducible assumption
    | exact sub_of ha rfl
    | with_reducible refine keepsOut_next ?_
    | (lift_lets; intro x; refine (fun (hx : Keeps am s₀ x) => ?_) ?_; clear_value x)
    | (intro x; subst x)
    | with_reducible refine State.addFld_keeps ?_ ?_
    | with_reducible refine ite_keeps (fun _ => ?_) (fun _ => ?_)
    | with_reducible refine iteOut_keeps (fun _ => ?_) (fun _ => ?_)
    | with_reducible refine foldl_keeps (fun _ _ _ => ?_) ?_
    | with_reducible refine foldl_kfst (fun _ _ _ => ?_) ?_
    | with_reducible refine foldl_ksnd (fun _ _ _ => ?_) ?_
    | subst x
    | with_reducible split
    | dsimp only

theorem State.storeBytes_keeps {am : Nat} {s₀ : State} {s : State} {bs : List (Nat × Byte)} {poison : Bool} (ha : Sub 262160 am) (hs : Keeps am s₀ s) : Keeps am s₀ (State.storeBytes s bs poison) := by
  unfold State.storeBytes
  repeat' first
    | with_reducible assumption
    | exact sub_of ha rfl
    | with_reducible refine keepsOut_next ?_
    | (lift_lets; intro x; refine (fun (hx : Keeps am s₀ x) => ?_) ?_; clear_value x)
    | (intro x; subst x)
    | with_reducible refine State.countPoisonWr_keeps ?_ ?_
    | with_reducible refine State.markStore_keeps ?_ ?_
    | with_reducible refine State.putByte_keeps ?_ ?_
    | with_reducible refine ite_keeps (fun _ => ?_) (fun _ => ?_)
    | with_reducible refine iteOut_keeps (fun _ => ?_) (fun _ => ?_)
    | with_reducible refine foldl_keeps (fun _ _ _ => ?_) ?_
    | with_reducible refine foldl_kfst (fun _ _ _ => ?_) ?_
    | with_reducible refine foldl_ksnd (fun _ _ _ => ?_) ?_
    | subst x
    | with_reducible split
    | dsimp only

theorem State.storeNat_keeps {am : Nat} {s₀ : State} {s : State} {a : Nat} {n : Nat} {v : Nat} (ha : Sub 262160 am) (hs : Keeps am s₀ s) : Keeps am s₀ (State.storeNat s a n v) := by
  unfold State.storeNat
  repeat' first
    | with_reducible assumption
    | exact sub_of ha rfl
    | with_reducible refine keepsOut_next ?_
    | (lift_lets; intro x; refine (fun (hx : Keeps am s₀ x) => ?_) ?_; clear_value x)
    | (intro x; subst x)
    | with_reducible refine State.storeBytes_keeps ?_ ?_
    | with_reducible refine ite_keeps (fun _ => ?_) (fun _ => ?_)
    | with_reducible refine iteOut_keeps (fun _ => ?_) (fun _ => ?_)
    | with_reducible refine foldl_keeps (fun _ _ _ => ?_) ?_
    | with_reducible refine foldl_kfst (fun _ _ _ => ?_) ?_
    | with_reducible refine foldl_ksnd (fun _ _ _ => ?_) ?_
    | subst x
    | with_reducible split
    | dsimp only

theorem State.storeWords_keeps {am : Nat} {s₀ : State} {s : State} {a : Nat} {ws : List W64} (ha : Sub 262160 am) (hs : Keeps am s₀ s) : Keeps am s₀ (State.storeWords s a ws) := by
  unfold State.storeWords
  repeat' first
    | with_reducible assumption
    | exact sub_of ha rfl
    | with_reducible refine keepsOut_next ?_
    | (lift_lets; intro x; refine (fun (hx : Keeps am s₀ x) => ?_) ?_; clear_value x)
    | (intro x; subst x)
    | with_reducible refine State.storeBytes_keeps ?_ ?_
    | with_reducible refine ite_keeps (fun _ => ?_) (fun _ => ?_)
    | with_reducible refine iteOut_keeps (fun _ => ?_) (fun _ => ?_)
    | with_reducible refine foldl_keeps (fun _ _ _ => ?_) ?_
    | with_reducible refine foldl_kfst (fun _ _ _ => ?_) ?_
    | with_reducible refine foldl_ksnd (fun _ _ _ => ?_) ?_
    | subst x
    | with_reducible split
    | dsimp only

theorem State.tollRequest_keeps {am : Nat} {s₀ : State} {s : State} {d : Nat} {b : Nat} {c : Nat} (ha : Sub 524304 am) (hs : Keeps am s₀ s) : Keeps am s₀ (State.tollRequest s d b c) := by
  unfold State.tollRequest
  repeat' first
    | with_reducible assumption
    | exact sub_of ha rfl
    | with_reducible refine keepsOut_next ?_
    | (lift_lets; intro x; refine (fun (hx : Keeps am s₀ x) => ?_) ?_; clear_value x)
    | (intro x; subst x)
    | with_reducible refine State.setFld_keeps ?_ ?_
    | with_reducible refine State.withMs_keeps ?_ ?_
    | with_reducible refine ite_keeps (fun _ => ?_) (fun _ => ?_)
    | with_reducible refine iteOut_keeps (fun _ => ?_) (fun _ => ?_)
    | with_reducible refine foldl_keeps (fun _ _ _ => ?_) ?_
    | with_reducible refine foldl_kfst (fun _ _ _ => ?_) ?_
    | with_reducible refine foldl_ksnd (fun _ _ _ => ?_) ?_
    | subst x
    | with_reducible split
    | dsimp only

theorem State.charge_keeps {am : Nat} {s₀ : State} {s : State} {d : Nat} {part : Nat} {a : Nat} {n : Nat} {wr : Bool} (ha : Sub 524304 am) (hs : Keeps am s₀ s) : Keeps am s₀ (State.charge s d part a n wr) := by
  unfold State.charge
  repeat' first
    | with_reducible assumption
    | exact sub_of ha rfl
    | with_reducible refine keepsOut_next ?_
    | (lift_lets; intro x; refine (fun (hx : Keeps am s₀ x) => ?_) ?_; clear_value x)
    | (intro x; subst x)
    | with_reducible refine State.tollRequest_keeps ?_ ?_
    | with_reducible refine ite_keeps (fun _ => ?_) (fun _ => ?_)
    | with_reducible refine iteOut_keeps (fun _ => ?_) (fun _ => ?_)
    | with_reducible refine foldl_keeps (fun _ _ _ => ?_) ?_
    | with_reducible refine foldl_kfst (fun _ _ _ => ?_) ?_
    | with_reducible refine foldl_ksnd (fun _ _ _ => ?_) ?_
    | subst x
    | with_reducible split
    | dsimp only

theorem State.setG_keeps {am : Nat} {s₀ : State} {s : State} {c : Nat} {r : Nat} {v : W64} (ha : Sub 512 am) (hs : Keeps am s₀ s) : Keeps am s₀ (State.setG s c r v) := by
  unfold State.setG
  repeat' first
    | with_reducible assumption
    | exact sub_of ha rfl
    | with_reducible refine keepsOut_next ?_
    | (lift_lets; intro x; refine (fun (hx : Keeps am s₀ x) => ?_) ?_; clear_value x)
    | (intro x; subst x)
    | with_reducible refine State.setCore_keeps ?_ ?_
    | with_reducible refine ite_keeps (fun _ => ?_) (fun _ => ?_)
    | with_reducible refine iteOut_keeps (fun _ => ?_) (fun _ => ?_)
    | with_reducible refine foldl_keeps (fun _ _ _ => ?_) ?_
    | with_reducible refine foldl_kfst (fun _ _ _ => ?_) ?_
    | with_reducible refine foldl_ksnd (fun _ _ _ => ?_) ?_
    | subst x
    | with_reducible split
    | dsimp only

theorem State.setPc_keeps {am : Nat} {s₀ : State} {s : State} {c : Nat} {v : W64} (ha : Sub 512 am) (hs : Keeps am s₀ s) : Keeps am s₀ (State.setPc s c v) := by
  unfold State.setPc
  repeat' first
    | with_reducible assumption
    | exact sub_of ha rfl
    | with_reducible refine keepsOut_next ?_
    | (lift_lets; intro x; refine (fun (hx : Keeps am s₀ x) => ?_) ?_; clear_value x)
    | (intro x; subst x)
    | with_reducible refine State.setCore_keeps ?_ ?_
    | with_reducible refine ite_keeps (fun _ => ?_) (fun _ => ?_)
    | with_reducible refine iteOut_keeps (fun _ => ?_) (fun _ => ?_)
    | with_reducible refine foldl_keeps (fun _ _ _ => ?_) ?_
    | with_reducible refine foldl_kfst (fun _ _ _ => ?_) ?_
    | with_reducible refine foldl_ksnd (fun _ _ _ => ?_) ?_
    | subst x
    | with_reducible split
    | dsimp only

theorem State.nextPc_keeps {am : Nat} {s₀ : State} {s : State} {c : Nat} (ha : Sub 512 am) (hs : Keeps am s₀ s) : Keeps am s₀ (State.nextPc s c) := by
  unfold State.nextPc
  repeat' first
    | with_reducible assumption
    | exact sub_of ha rfl
    | with_reducible refine keepsOut_next ?_
    | (lift_lets; intro x; refine (fun (hx : Keeps am s₀ x) => ?_) ?_; clear_value x)
    | (intro x; subst x)
    | with_reducible refine State.setPc_keeps ?_ ?_
    | with_reducible refine ite_keeps (fun _ => ?_) (fun _ => ?_)
    | with_reducible refine iteOut_keeps (fun _ => ?_) (fun _ => ?_)
    | with_reducible refine foldl_keeps (fun _ _ _ => ?_) ?_
    | with_reducible refine foldl_kfst (fun _ _ _ => ?_) ?_
    | with_reducible refine foldl_ksnd (fun _ _ _ => ?_) ?_
    | subst x
    | with_reducible split
    | dsimp only

theorem State.ret_keeps {am : Nat} {s₀ : State} {s : State} {c : Nat} {rd : Nat} {v : W64} (ha : Sub 512 am) (hs : Keeps am s₀ s) : Keeps am s₀ (State.ret s c rd v) := by
  unfold State.ret
  repeat' first
    | with_reducible assumption
    | exact sub_of ha rfl
    | with_reducible refine keepsOut_next ?_
    | (lift_lets; intro x; refine (fun (hx : Keeps am s₀ x) => ?_) ?_; clear_value x)
    | (intro x; subst x)
    | with_reducible refine State.nextPc_keeps ?_ ?_
    | with_reducible refine State.setG_keeps ?_ ?_
    | with_reducible refine ite_keeps (fun _ => ?_) (fun _ => ?_)
    | with_reducible refine iteOut_keeps (fun _ => ?_) (fun _ => ?_)
    | with_reducible refine foldl_keeps (fun _ _ _ => ?_) ?_
    | with_reducible refine foldl_kfst (fun _ _ _ => ?_) ?_
    | with_reducible refine foldl_ksnd (fun _ _ _ => ?_) ?_
    | subst x
    | with_reducible split
    | dsimp only

theorem State.retSt_keeps {am : Nat} {s₀ : State} {s : State} {c : Nat} {rd : Nat} {st : Nat} (ha : Sub 512 am) (hs : Keeps am s₀ s) : Keeps am s₀ (State.retSt s c rd st) := by
  unfold State.retSt
  repeat' first
    | with_reducible assumption
    | exact sub_of ha rfl
    | with_reducible refine keepsOut_next ?_
    | (lift_lets; intro x; refine (fun (hx : Keeps am s₀ x) => ?_) ?_; clear_value x)
    | (intro x; subst x)
    | with_reducible refine State.ret_keeps ?_ ?_
    | with_reducible refine ite_keeps (fun _ => ?_) (fun _ => ?_)
    | with_reducible refine iteOut_keeps (fun _ => ?_) (fun _ => ?_)
    | with_reducible refine foldl_keeps (fun _ _ _ => ?_) ?_
    | with_reducible refine foldl_kfst (fun _ _ _ => ?_) ?_
    | with_reducible refine foldl_ksnd (fun _ _ _ => ?_) ?_
    | subst x
    | with_reducible split
    | dsimp only

theorem State.retPair_keeps {am : Nat} {s₀ : State} {s : State} {c : Nat} {rd : Nat} {st : Nat} {v : W64} (ha : Sub 512 am) (hs : Keeps am s₀ s) : Keeps am s₀ (State.retPair s c rd st v) := by
  unfold State.retPair
  repeat' first
    | with_reducible assumption
    | exact sub_of ha rfl
    | with_reducible refine keepsOut_next ?_
    | (lift_lets; intro x; refine (fun (hx : Keeps am s₀ x) => ?_) ?_; clear_value x)
    | (intro x; subst x)
    | with_reducible refine State.nextPc_keeps ?_ ?_
    | with_reducible refine State.setG_keeps ?_ ?_
    | with_reducible refine ite_keeps (fun _ => ?_) (fun _ => ?_)
    | with_reducible refine iteOut_keeps (fun _ => ?_) (fun _ => ?_)
    | with_reducible refine foldl_keeps (fun _ _ _ => ?_) ?_
    | with_reducible refine foldl_kfst (fun _ _ _ => ?_) ?_
    | with_reducible refine foldl_ksnd (fun _ _ _ => ?_) ?_
    | subst x
    | with_reducible split
    | dsimp only

theorem State.retNone_keeps {am : Nat} {s₀ : State} {s : State} {c : Nat} {rd : Nat} {st : Nat} (ha : Sub 514 am) (hs : Keeps am s₀ s) : Keeps am s₀ (State.retNone s c rd st) := by
  unfold State.retNone
  repeat' first
    | with_reducible assumption
    | exact sub_of ha rfl
    | with_reducible refine keepsOut_next ?_
    | (lift_lets; intro x; refine (fun (hx : Keeps am s₀ x) => ?_) ?_; clear_value x)
    | (intro x; subst x)
    | with_reducible refine State.draw_keeps ?_ ?_
    | with_reducible refine State.retPair_keeps ?_ ?_
    | with_reducible refine State.draw_keeps_eq ?_ (by with_reducible assumption) ?_
    | with_reducible refine ite_keeps (fun _ => ?_) (fun _ => ?_)
    | with_reducible refine iteOut_keeps (fun _ => ?_) (fun _ => ?_)
    | with_reducible refine foldl_keeps (fun _ _ _ => ?_) ?_
    | with_reducible refine foldl_kfst (fun _ _ _ => ?_) ?_
    | with_reducible refine foldl_ksnd (fun _ _ _ => ?_) ?_
    | subst x
    | with_reducible split
    | dsimp only

theorem State.wait_keeps {am : Nat} {s₀ : State} {s : State} {c : Nat} {rd : Nat} {why : Why} (ha : Sub 33554432 am) (hs : Keeps am s₀ s) : Keeps am s₀ (State.wait s c rd why) := by
  unfold State.wait
  repeat' first
    | with_reducible assumption
    | exact sub_of ha rfl
    | with_reducible refine keepsOut_next ?_
    | (lift_lets; intro x; refine (fun (hx : Keeps am s₀ x) => ?_) ?_; clear_value x)
    | (intro x; subst x)
    | with_reducible refine State.withSync_keeps ?_ ?_
    | with_reducible refine ite_keeps (fun _ => ?_) (fun _ => ?_)
    | with_reducible refine iteOut_keeps (fun _ => ?_) (fun _ => ?_)
    | with_reducible refine foldl_keeps (fun _ _ _ => ?_) ?_
    | with_reducible refine foldl_kfst (fun _ _ _ => ?_) ?_
    | with_reducible refine foldl_ksnd (fun _ _ _ => ?_) ?_
    | subst x
    | with_reducible split
    | dsimp only

theorem State.unwait_keeps {am : Nat} {s₀ : State} {s : State} {c : Nat} (ha : Sub 33554432 am) (hs : Keeps am s₀ s) : Keeps am s₀ (State.unwait s c) := by
  unfold State.unwait
  repeat' first
    | with_reducible assumption
    | exact sub_of ha rfl
    | with_reducible refine keepsOut_next ?_
    | (lift_lets; intro x; refine (fun (hx : Keeps am s₀ x) => ?_) ?_; clear_value x)
    | (intro x; subst x)
    | with_reducible refine State.withSync_keeps ?_ ?_
    | with_reducible refine ite_keeps (fun _ => ?_) (fun _ => ?_)
    | with_reducible refine iteOut_keeps (fun _ => ?_) (fun _ => ?_)
    | with_reducible refine foldl_keeps (fun _ _ _ => ?_) ?_
    | with_reducible refine foldl_kfst (fun _ _ _ => ?_) ?_
    | with_reducible refine foldl_ksnd (fun _ _ _ => ?_) ?_
    | subst x
    | with_reducible split
    | dsimp only

theorem State.raise_keeps {am : Nat} {s₀ : State} {s : State} {c : Nat} {st : Nat} (ha : Sub 512 am) (hs : Keeps am s₀ s) : Keeps am s₀ (State.raise s c st) := by
  unfold State.raise
  repeat' first
    | with_reducible assumption
    | exact sub_of ha rfl
    | with_reducible refine keepsOut_next ?_
    | (lift_lets; intro x; refine (fun (hx : Keeps am s₀ x) => ?_) ?_; clear_value x)
    | (intro x; subst x)
    | with_reducible refine State.setCore_keeps ?_ ?_
    | with_reducible refine ite_keeps (fun _ => ?_) (fun _ => ?_)
    | with_reducible refine iteOut_keeps (fun _ => ?_) (fun _ => ?_)
    | with_reducible refine foldl_keeps (fun _ _ _ => ?_) ?_
    | with_reducible refine foldl_kfst (fun _ _ _ => ?_) ?_
    | with_reducible refine foldl_ksnd (fun _ _ _ => ?_) ?_
    | subst x
    | with_reducible split
    | dsimp only

theorem State.illegal_keeps {am : Nat} {s₀ : State} {s0 : State} {c : Nat} (ha : Sub 560 am) (hs : Keeps am s₀ s0) : Keeps am s₀ (State.illegal s0 c) := by
  unfold State.illegal
  repeat' first
    | with_reducible assumption
    | exact sub_of ha rfl
    | with_reducible refine keepsOut_next ?_
    | (lift_lets; intro x; refine (fun (hx : Keeps am s₀ x) => ?_) ?_; clear_value x)
    | (intro x; subst x)
    | with_reducible refine State.nextPc_keeps ?_ ?_
    | with_reducible refine State.raise_keeps ?_ ?_
    | with_reducible refine State.setErr_keeps ?_ ?_
    | with_reducible refine ite_keeps (fun _ => ?_) (fun _ => ?_)
    | with_reducible refine iteOut_keeps (fun _ => ?_) (fun _ => ?_)
    | with_reducible refine foldl_keeps (fun _ _ _ => ?_) ?_
    | with_reducible refine foldl_kfst (fun _ _ _ => ?_) ?_
    | with_reducible refine foldl_ksnd (fun _ _ _ => ?_) ?_
    | subst x
    | with_reducible split
    | dsimp only

theorem State.setScratchByte_keeps {am : Nat} {s₀ : State} {s : State} {c : Nat} {a : Nat} {b : Byte} (ha : Sub 1024 am) (hs : Keeps am s₀ s) : Keeps am s₀ (State.setScratchByte s c a b) := by
  unfold State.setScratchByte
  repeat' first
    | with_reducible assumption
    | exact sub_of ha rfl
    | with_reducible refine keepsOut_next ?_
    | (lift_lets; intro x; refine (fun (hx : Keeps am s₀ x) => ?_) ?_; clear_value x)
    | (intro x; subst x)
    | with_reducible refine State.withScratch_keeps ?_ ?_
    | with_reducible refine ite_keeps (fun _ => ?_) (fun _ => ?_)
    | with_reducible refine iteOut_keeps (fun _ => ?_) (fun _ => ?_)
    | with_reducible refine foldl_keeps (fun _ _ _ => ?_) ?_
    | with_reducible refine foldl_kfst (fun _ _ _ => ?_) ?_
    | with_reducible refine foldl_ksnd (fun _ _ _ => ?_) ?_
    | subst x
    | with_reducible split
    | dsimp only

theorem State.setScratchBytes_keeps {am : Nat} {s₀ : State} {s : State} {c : Nat} {a : Nat} {bs : List Byte} (ha : Sub 1024 am) (hs : Keeps am s₀ s) : Keeps am s₀ (State.setScratchBytes s c a bs) := by
  unfold State.setScratchBytes
  repeat' first
    | with_reducible assumption
    | exact sub_of ha rfl
    | with_reducible refine keepsOut_next ?_
    | (lift_lets; intro x; refine (fun (hx : Keeps am s₀ x) => ?_) ?_; clear_value x)
    | (intro x; subst x)
    | with_reducible refine State.setScratchByte_keeps ?_ ?_
    | with_reducible refine ite_keeps (fun _ => ?_) (fun _ => ?_)
    | with_reducible refine iteOut_keeps (fun _ => ?_) (fun _ => ?_)
    | with_reducible refine foldl_keeps (fun _ _ _ => ?_) ?_
    | with_reducible refine foldl_kfst (fun _ _ _ => ?_) ?_
    | with_reducible refine foldl_ksnd (fun _ _ _ => ?_) ?_
    | subst x
    | with_reducible split
    | dsimp only

theorem State.setScratchWords_keeps {am : Nat} {s₀ : State} {s : State} {c : Nat} {a : Nat} {ws : List W64} (ha : Sub 1024 am) (hs : Keeps am s₀ s) : Keeps am s₀ (State.setScratchWords s c a ws) := by
  unfold State.setScratchWords
  repeat' first
    | with_reducible assumption
    | exact sub_of ha rfl
    | with_reducible refine keepsOut_next ?_
    | (lift_lets; intro x; refine (fun (hx : Keeps am s₀ x) => ?_) ?_; clear_value x)
    | (intro x; subst x)
    | with_reducible refine State.setScratchBytes_keeps ?_ ?_
    | with_reducible refine ite_keeps (fun _ => ?_) (fun _ => ?_)
    | with_reducible refine iteOut_keeps (fun _ => ?_) (fun _ => ?_)
    | with_reducible refine foldl_keeps (fun _ _ _ => ?_) ?_
    | with_reducible refine foldl_kfst (fun _ _ _ => ?_) ?_
    | with_reducible refine foldl_ksnd (fun _ _ _ => ?_) ?_
    | subst x
    | with_reducible split
    | dsimp only

theorem State.retWord_keeps {am : Nat} {s₀ : State} {s : State} {c : Nat} {rd : Nat} {op : WordOp} {st : Nat} {v : Option W64} (ha : Sub 514 am) (hs : Keeps am s₀ s) : Keeps am s₀ (State.retWord s c rd op st v) := by
  unfold State.retWord
  repeat' first
    | with_reducible assumption
    | exact sub_of ha rfl
    | with_reducible refine keepsOut_next ?_
    | (lift_lets; intro x; refine (fun (hx : Keeps am s₀ x) => ?_) ?_; clear_value x)
    | (intro x; subst x)
    | with_reducible refine State.retNone_keeps ?_ ?_
    | with_reducible refine State.retPair_keeps ?_ ?_
    | with_reducible refine State.retSt_keeps ?_ ?_
    | with_reducible refine ite_keeps (fun _ => ?_) (fun _ => ?_)
    | with_reducible refine iteOut_keeps (fun _ => ?_) (fun _ => ?_)
    | with_reducible refine foldl_keeps (fun _ _ _ => ?_) ?_
    | with_reducible refine foldl_kfst (fun _ _ _ => ?_) ?_
    | with_reducible refine foldl_ksnd (fun _ _ _ => ?_) ?_
    | subst x
    | with_reducible split
    | dsimp only

theorem State.setSignals_keeps {am : Nat} {s₀ : State} {s : State} {p : Nat} {v : W64} (ha : Sub 33554432 am) (hs : Keeps am s₀ s) : Keeps am s₀ (State.setSignals s p v) := by
  unfold State.setSignals
  repeat' first
    | with_reducible assumption
    | exact sub_of ha rfl
    | with_reducible refine keepsOut_next ?_
    | (lift_lets; intro x; refine (fun (hx : Keeps am s₀ x) => ?_) ?_; clear_value x)
    | (intro x; subst x)
    | with_reducible refine State.withSync_keeps ?_ ?_
    | with_reducible refine ite_keeps (fun _ => ?_) (fun _ => ?_)
    | with_reducible refine iteOut_keeps (fun _ => ?_) (fun _ => ?_)
    | with_reducible refine foldl_keeps (fun _ _ _ => ?_) ?_
    | with_reducible refine foldl_kfst (fun _ _ _ => ?_) ?_
    | with_reducible refine foldl_ksnd (fun _ _ _ => ?_) ?_
    | subst x
    | with_reducible split
    | dsimp only

theorem State.takeSignals_keeps {am : Nat} {s₀ : State} (s : State) (p : Nat) (mask : W64) (ha : Sub 33554432 am) (hs : Keeps am s₀ s) : KeepsOpt am s₀ (fun r => r.2) (State.takeSignals s p mask) := by
  unfold State.takeSignals
  repeat' first
    | with_reducible assumption
    | with_reducible refine keepsOpt_some ?_
    | with_reducible refine keepsOpt_none
    | exact sub_of ha rfl
    | with_reducible refine keepsOut_next ?_
    | (lift_lets; intro x; refine (fun (hx : Keeps am s₀ x) => ?_) ?_; clear_value x)
    | (intro x; subst x)
    | with_reducible refine State.setSignals_keeps ?_ ?_
    | with_reducible refine iteOpt_keeps (fun _ => ?_) (fun _ => ?_)
    | with_reducible refine ite_keeps (fun _ => ?_) (fun _ => ?_)
    | with_reducible refine iteOut_keeps (fun _ => ?_) (fun _ => ?_)
    | with_reducible refine foldl_keeps (fun _ _ _ => ?_) ?_
    | with_reducible refine foldl_kfst (fun _ _ _ => ?_) ?_
    | with_reducible refine foldl_ksnd (fun _ _ _ => ?_) ?_
    | subst x
    | with_reducible split
    | dsimp only

theorem State.takeSignals_keeps_eq {am : Nat} {s₀ : State} {s : State} {p : Nat} {mask : W64} {rr} (ha : Sub 33554432 am) (he : State.takeSignals s p mask = some rr) (hs : Keeps am s₀ s) : Keeps am s₀ rr.2 := State.takeSignals_keeps s p mask ha hs rr he

theorem State.wakeSignal_keeps {am : Nat} {s₀ : State} {s : State} {p : Nat} (ha : Sub 33554944 am) (hs : Keeps am s₀ s) : Keeps am s₀ (State.wakeSignal s p) := by
  unfold State.wakeSignal
  repeat' first
    | with_reducible assumption
    | exact sub_of ha rfl
    | with_reducible refine keepsOut_next ?_
    | (lift_lets; intro x; refine (fun (hx : Keeps am s₀ x) => ?_) ?_; clear_value x)
    | (intro x; subst x)
    | with_reducible refine State.retPair_keeps ?_ ?_
    | with_reducible refine State.unwait_keeps ?_ ?_
    | with_reducible refine State.takeSignals_keeps_eq ?_ (by with_reducible assumption) ?_
    | with_reducible refine ite_keeps (fun _ => ?_) (fun _ => ?_)
    | with_reducible refine iteOut_keeps (fun _ => ?_) (fun _ => ?_)
    | with_reducible refine foldl_keeps (fun _ _ _ => ?_) ?_
    | with_reducible refine foldl_kfst (fun _ _ _ => ?_) ?_
    | with_reducible refine foldl_ksnd (fun _ _ _ => ?_) ?_
    | subst x
    | with_reducible split
    | dsimp only

theorem State.signal_keeps {am : Nat} {s₀ : State} {s : State} {ctx : Nat} {p : Nat} {mask : W64} (ha : Sub 33554944 am) (hs : Keeps am s₀ s) : Keeps am s₀ (State.signal s ctx p mask).2 := by
  unfold State.signal
  repeat' first
    | with_reducible assumption
    | exact sub_of ha rfl
    | with_reducible refine keepsOut_next ?_
    | (lift_lets; intro x; refine (fun (hx : Keeps am s₀ x) => ?_) ?_; clear_value x)
    | (intro x; subst x)
    | with_reducible refine State.setSignals_keeps ?_ ?_
    | with_reducible refine State.wakeSignal_keeps ?_ ?_
    | with_reducible refine ite_keeps (fun _ => ?_) (fun _ => ?_)
    | with_reducible refine iteOut_keeps (fun _ => ?_) (fun _ => ?_)
    | with_reducible refine foldl_keeps (fun _ _ _ => ?_) ?_
    | with_reducible refine foldl_kfst (fun _ _ _ => ?_) ?_
    | with_reducible refine foldl_ksnd (fun _ _ _ => ?_) ?_
    | subst x
    | with_reducible split
    | dsimp only

theorem State.signal_keeps_eq {am : Nat} {s₀ : State} {s : State} {ctx : Nat} {p : Nat} {mask : W64} {rr} (ha : Sub 33554944 am) (he : State.signal s ctx p mask = rr) (hs : Keeps am s₀ s) : Keeps am s₀ rr.2 := he ▸ State.signal_keeps ha hs

theorem State.setArrived_keeps {am : Nat} {s₀ : State} {s : State} {b : Nat} {p : Nat} (ha : Sub 16 am) (hs : Keeps am s₀ s) : Keeps am s₀ (State.setArrived s b p) := by
  unfold State.setArrived
  repeat' first
    | with_reducible assumption
    | exact sub_of ha rfl
    | with_reducible refine keepsOut_next ?_
    | (lift_lets; intro x; refine (fun (hx : Keeps am s₀ x) => ?_) ?_; clear_value x)
    | (intro x; subst x)
    | with_reducible refine State.setFld_keeps ?_ ?_
    | with_reducible refine State.setReg_keeps ?_ ?_
    | with_reducible refine ite_keeps (fun _ => ?_) (fun _ => ?_)
    | with_reducible refine iteOut_keeps (fun _ => ?_) (fun _ => ?_)
    | with_reducible refine foldl_keeps (fun _ _ _ => ?_) ?_
    | with_reducible refine foldl_kfst (fun _ _ _ => ?_) ?_
    | with_reducible refine foldl_ksnd (fun _ _ _ => ?_) ?_
    | subst x
    | with_reducible split
    | dsimp only

theorem State.clearArrived_keeps {am : Nat} {s₀ : State} {s : State} {b : Nat} (ha : Sub 16 am) (hs : Keeps am s₀ s) : Keeps am s₀ (State.clearArrived s b) := by
  unfold State.clearArrived
  repeat' first
    | with_reducible assumption
    | exact sub_of ha rfl
    | with_reducible refine keepsOut_next ?_
    | (lift_lets; intro x; refine (fun (hx : Keeps am s₀ x) => ?_) ?_; clear_value x)
    | (intro x; subst x)
    | with_reducible refine State.setFld_keeps ?_ ?_
    | with_reducible refine State.setReg_keeps ?_ ?_
    | with_reducible refine ite_keeps (fun _ => ?_) (fun _ => ?_)
    | with_reducible refine iteOut_keeps (fun _ => ?_) (fun _ => ?_)
    | with_reducible refine foldl_keeps (fun _ _ _ => ?_) ?_
    | with_reducible refine foldl_kfst (fun _ _ _ => ?_) ?_
    | with_reducible refine foldl_ksnd (fun _ _ _ => ?_) ?_
    | subst x
    | with_reducible split
    | dsimp only

theorem State.setHeldArr_keeps {am : Nat} {s₀ : State} {s : State} {b : Nat} {p : Nat} {v : Bool} (ha : Sub 33554432 am) (hs : Keeps am s₀ s) : Keeps am s₀ (State.setHeldArr s b p v) := by
  unfold State.setHeldArr
  repeat' first
    | with_reducible assumption
    | exact sub_of ha rfl
    | with_reducible refine keepsOut_next ?_
    | (lift_lets; intro x; refine (fun (hx : Keeps am s₀ x) => ?_) ?_; clear_value x)
    | (intro x; subst x)
    | with_reducible refine State.withSync_keeps ?_ ?_
    | with_reducible refine ite_keeps (fun _ => ?_) (fun _ => ?_)
    | with_reducible refine iteOut_keeps (fun _ => ?_) (fun _ => ?_)
    | with_reducible refine foldl_keeps (fun _ _ _ => ?_) ?_
    | with_reducible refine foldl_kfst (fun _ _ _ => ?_) ?_
    | with_reducible refine foldl_ksnd (fun _ _ _ => ?_) ?_
    | subst x
    | with_reducible split
    | dsimp only

theorem State.wakeBarrier_keeps {am : Nat} {s₀ : State} {s : State} {b : Nat} (ha : Sub 2181038960 am) (hs : Keeps am s₀ s) : Keeps am s₀ (State.wakeBarrier s b) := by
  unfold State.wakeBarrier
  repeat' first
    | with_reducible assumption
    | exact sub_of ha rfl
    | with_reducible refine keepsOut_next ?_
    | (lift_lets; intro x; refine (fun (hx : Keeps am s₀ x) => ?_) ?_; clear_value x)
    | (intro x; subst x)
    | with_reducible refine State.retPair_keeps ?_ ?_
    | with_reducible refine State.retSt_keeps ?_ ?_
    | with_reducible refine State.setArrived_keeps ?_ ?_
    | with_reducible refine State.unwait_keeps ?_ ?_
    | with_reducible refine State.wait_keeps ?_ ?_
    | with_reducible refine ite_keeps (fun _ => ?_) (fun _ => ?_)
    | with_reducible refine iteOut_keeps (fun _ => ?_) (fun _ => ?_)
    | with_reducible refine foldl_keeps (fun _ _ _ => ?_) ?_
    | with_reducible refine foldl_kfst (fun _ _ _ => ?_) ?_
    | with_reducible refine foldl_ksnd (fun _ _ _ => ?_) ?_
    | subst x
    | with_reducible split
    | dsimp only

theorem State.takeHeld_keeps {am : Nat} {s₀ : State} {s : State} {b : Nat} (ha : Sub 33554448 am) (hs : Keeps am s₀ s) : Keeps am s₀ (State.takeHeld s b) := by
  unfold State.takeHeld
  repeat' first
    | with_reducible assumption
    | exact sub_of ha rfl
    | with_reducible refine keepsOut_next ?_
    | (lift_lets; intro x; refine (fun (hx : Keeps am s₀ x) => ?_) ?_; clear_value x)
    | (intro x; subst x)
    | with_reducible refine State.setArrived_keeps ?_ ?_
    | with_reducible refine State.setHeldArr_keeps ?_ ?_
    | with_reducible refine ite_keeps (fun _ => ?_) (fun _ => ?_)
    | with_reducible refine iteOut_keeps (fun _ => ?_) (fun _ => ?_)
    | with_reducible refine foldl_keeps (fun _ _ _ => ?_) ?_
    | with_reducible refine foldl_kfst (fun _ _ _ => ?_) ?_
    | with_reducible refine foldl_ksnd (fun _ _ _ => ?_) ?_
    | subst x
    | with_reducible split
    | dsimp only

-- FOR State.barProgress
-- HAVE barProgress State.barProgress_keeps ?_ ?_
theorem State.barProgress_keeps {am : Nat} {s₀ : State} : ∀ {n : Nat} {s : State} {b : Nat}, Sub 2181038960 am → Keeps am s₀ s → Keeps am s₀ (State.barProgress n s b) := by
  intro n
  induction n with
  | zero => intro s b ha hs; exact hs
  | succ n ih =>
    intro s b ha hs
    unfold State.barProgress
    split
    · exact ih ha (State.wakeBarrier_keeps (sub_of ha rfl) (State.takeHeld_keeps (sub_of ha rfl) (State.clearArrived_keeps (sub_of ha rfl) (State.setFld_keeps (sub_of ha rfl) hs))))
    · exact hs

theorem State.barAdvance_keeps {am : Nat} {s₀ : State} {s : State} {b : Nat} (ha : Sub 2181038960 am) (hs : Keeps am s₀ s) : Keeps am s₀ (State.barAdvance s b) := by
  unfold State.barAdvance
  repeat' first
    | with_reducible assumption
    | exact sub_of ha rfl
    | with_reducible refine keepsOut_next ?_
    | (lift_lets; intro x; refine (fun (hx : Keeps am s₀ x) => ?_) ?_; clear_value x)
    | (intro x; subst x)
    | with_reducible refine State.barProgress_keeps ?_ ?_
    | with_reducible refine ite_keeps (fun _ => ?_) (fun _ => ?_)
    | with_reducible refine iteOut_keeps (fun _ => ?_) (fun _ => ?_)
    | with_reducible refine foldl_keeps (fun _ _ _ => ?_) ?_
    | with_reducible refine foldl_kfst (fun _ _ _ => ?_) ?_
    | with_reducible refine foldl_ksnd (fun _ _ _ => ?_) ?_
    | subst x
    | with_reducible split
    | dsimp only

theorem State.agentArrive_keeps {am : Nat} {s₀ : State} {s : State} {b : Nat} {p : Nat} {ctx : Nat} (ha : Sub 2181038960 am) (hs : Keeps am s₀ s) : Keeps am s₀ (State.agentArrive s b p ctx).2 := by
  unfold State.agentArrive
  repeat' first
    | with_reducible assumption
    | exact sub_of ha rfl
    | with_reducible refine keepsOut_next ?_
    | (lift_lets; intro x; refine (fun (hx : Keeps am s₀ x) => ?_) ?_; clear_value x)
    | (intro x; subst x)
    | with_reducible refine State.addFld_keeps ?_ ?_
    | with_reducible refine State.barAdvance_keeps ?_ ?_
    | with_reducible refine State.setArrived_keeps ?_ ?_
    | with_reducible refine State.setHeldArr_keeps ?_ ?_
    | with_reducible refine ite_keeps (fun _ => ?_) (fun _ => ?_)
    | with_reducible refine iteOut_keeps (fun _ => ?_) (fun _ => ?_)
    | with_reducible refine foldl_keeps (fun _ _ _ => ?_) ?_
    | with_reducible refine foldl_kfst (fun _ _ _ => ?_) ?_
    | with_reducible refine foldl_ksnd (fun _ _ _ => ?_) ?_
    | subst x
    | with_reducible split
    | dsimp only

theorem State.agentArrive_keeps_eq {am : Nat} {s₀ : State} {s : State} {b : Nat} {p : Nat} {ctx : Nat} {rr} (ha : Sub 2181038960 am) (he : State.agentArrive s b p ctx = rr) (hs : Keeps am s₀ s) : Keeps am s₀ rr.2 := he ▸ State.agentArrive_keeps ha hs

theorem State.releaseBroken_keeps {am : Nat} {s₀ : State} {s : State} {b : Nat} (ha : Sub 2181038962 am) (hs : Keeps am s₀ s) : Keeps am s₀ (State.releaseBroken s b) := by
  unfold State.releaseBroken
  repeat' first
    | with_reducible assumption
    | exact sub_of ha rfl
    | with_reducible refine keepsOut_next ?_
    | (lift_lets; intro x; refine (fun (hx : Keeps am s₀ x) => ?_) ?_; clear_value x)
    | (intro x; subst x)
    | with_reducible refine State.retNone_keeps ?_ ?_
    | with_reducible refine State.retPair_keeps ?_ ?_
    | with_reducible refine State.retSt_keeps ?_ ?_
    | with_reducible refine State.unwait_keeps ?_ ?_
    | with_reducible refine ite_keeps (fun _ => ?_) (fun _ => ?_)
    | with_reducible refine iteOut_keeps (fun _ => ?_) (fun _ => ?_)
    | with_reducible refine foldl_keeps (fun _ _ _ => ?_) ?_
    | with_reducible refine foldl_kfst (fun _ _ _ => ?_) ?_
    | with_reducible refine foldl_ksnd (fun _ _ _ => ?_) ?_
    | subst x
    | with_reducible split
    | dsimp only

theorem State.breakBarrier_keeps {am : Nat} {s₀ : State} {s : State} {b : Nat} {reason : Nat} {slot : Nat} (ha : Sub 2181038962 am) (hs : Keeps am s₀ s) : Keeps am s₀ (State.breakBarrier s b reason slot) := by
  unfold State.breakBarrier
  repeat' first
    | with_reducible assumption
    | exact sub_of ha rfl
    | with_reducible refine keepsOut_next ?_
    | (lift_lets; intro x; refine (fun (hx : Keeps am s₀ x) => ?_) ?_; clear_value x)
    | (intro x; subst x)
    | with_reducible refine State.releaseBroken_keeps ?_ ?_
    | with_reducible refine State.setErr_keeps ?_ ?_
    | with_reducible refine State.setFld_keeps ?_ ?_
    | with_reducible refine State.setReg_keeps ?_ ?_
    | with_reducible refine ite_keeps (fun _ => ?_) (fun _ => ?_)
    | with_reducible refine iteOut_keeps (fun _ => ?_) (fun _ => ?_)
    | with_reducible refine foldl_keeps (fun _ _ _ => ?_) ?_
    | with_reducible refine foldl_kfst (fun _ _ _ => ?_) ?_
    | with_reducible refine foldl_ksnd (fun _ _ _ => ?_) ?_
    | subst x
    | with_reducible split
    | dsimp only

theorem State.breakSlot_keeps {am : Nat} {s₀ : State} {s : State} {p : Nat} {reason : Nat} (ha : Sub 2181038962 am) (hs : Keeps am s₀ s) : Keeps am s₀ (State.breakSlot s p reason) := by
  unfold State.breakSlot
  repeat' first
    | with_reducible assumption
    | exact sub_of ha rfl
    | with_reducible refine keepsOut_next ?_
    | (lift_lets; intro x; refine (fun (hx : Keeps am s₀ x) => ?_) ?_; clear_value x)
    | (intro x; subst x)
    | with_reducible refine State.breakBarrier_keeps ?_ ?_
    | with_reducible refine ite_keeps (fun _ => ?_) (fun _ => ?_)
    | with_reducible refine iteOut_keeps (fun _ => ?_) (fun _ => ?_)
    | with_reducible refine foldl_keeps (fun _ _ _ => ?_) ?_
    | with_reducible refine foldl_kfst (fun _ _ _ => ?_) ?_
    | with_reducible refine foldl_ksnd (fun _ _ _ => ?_) ?_
    | subst x
    | with_reducible split
    | dsimp only

theorem State.lose_keeps {am : Nat} {s₀ : State} {s : State} {ctx : Nat} (ha : Sub 2181038962 am) (hs : Keeps am s₀ s) : Keeps am s₀ (State.lose s ctx) := by
  unfold State.lose
  repeat' first
    | with_reducible assumption
    | exact sub_of ha rfl
    | with_reducible refine keepsOut_next ?_
    | (lift_lets; intro x; refine (fun (hx : Keeps am s₀ x) => ?_) ?_; clear_value x)
    | (intro x; subst x)
    | with_reducible refine State.breakBarrier_keeps ?_ ?_
    | with_reducible refine State.retWord_keeps ?_ ?_
    | with_reducible refine State.setBitF_keeps ?_ ?_
    | with_reducible refine State.unwait_keeps ?_ ?_
    | with_reducible refine State.withSync_keeps ?_ ?_
    | with_reducible refine ite_keeps (fun _ => ?_) (fun _ => ?_)
    | with_reducible refine iteOut_keeps (fun _ => ?_) (fun _ => ?_)
    | with_reducible refine foldl_keeps (fun _ _ _ => ?_) ?_
    | with_reducible refine foldl_kfst (fun _ _ _ => ?_) ?_
    | with_reducible refine foldl_ksnd (fun _ _ _ => ?_) ?_
    | subst x
    | with_reducible split
    | dsimp only

theorem State.ringPut_keeps {am : Nat} {s₀ : State} {s : State} {c : Nat} {r : RingRec} (ha : Sub 536872960 am) (hs : Keeps am s₀ s) : Keeps am s₀ (State.ringPut s c r) := by
  unfold State.ringPut
  repeat' first
    | with_reducible assumption
    | exact sub_of ha rfl
    | with_reducible refine keepsOut_next ?_
    | (lift_lets; intro x; refine (fun (hx : Keeps am s₀ x) => ?_) ?_; clear_value x)
    | (intro x; subst x)
    | with_reducible refine State.setClu_keeps ?_ ?_
    | with_reducible refine State.withRcv_keeps ?_ ?_
    | with_reducible refine ite_keeps (fun _ => ?_) (fun _ => ?_)
    | with_reducible refine iteOut_keeps (fun _ => ?_) (fun _ => ?_)
    | with_reducible refine foldl_keeps (fun _ _ _ => ?_) ?_
    | with_reducible refine foldl_kfst (fun _ _ _ => ?_) ?_
    | with_reducible refine foldl_ksnd (fun _ _ _ => ?_) ?_
    | subst x
    | with_reducible split
    | dsimp only

theorem State.wakeRing_keeps {am : Nat} {s₀ : State} {s : State} {c : Nat} (ha : Sub 33556992 am) (hs : Keeps am s₀ s) : Keeps am s₀ (State.wakeRing s c) := by
  unfold State.wakeRing
  repeat' first
    | with_reducible assumption
    | exact sub_of ha rfl
    | with_reducible refine keepsOut_next ?_
    | (lift_lets; intro x; refine (fun (hx : Keeps am s₀ x) => ?_) ?_; clear_value x)
    | (intro x; subst x)
    | with_reducible refine State.nextPc_keeps ?_ ?_
    | with_reducible refine State.setClu_keeps ?_ ?_
    | with_reducible refine State.setG_keeps ?_ ?_
    | with_reducible refine State.unwait_keeps ?_ ?_
    | with_reducible refine ite_keeps (fun _ => ?_) (fun _ => ?_)
    | with_reducible refine iteOut_keeps (fun _ => ?_) (fun _ => ?_)
    | with_reducible refine foldl_keeps (fun _ _ _ => ?_) ?_
    | with_reducible refine foldl_kfst (fun _ _ _ => ?_) ?_
    | with_reducible refine foldl_ksnd (fun _ _ _ => ?_) ?_
    | subst x
    | with_reducible split
    | dsimp only

theorem State.releaseRec_keeps {am : Nat} {s₀ : State} {s : State} {c : Nat} (ha : Sub 570427904 am) (hs : Keeps am s₀ s) : Keeps am s₀ (State.releaseRec s c) := by
  unfold State.releaseRec
  repeat' first
    | with_reducible assumption
    | exact sub_of ha rfl
    | with_reducible refine keepsOut_next ?_
    | (lift_lets; intro x; refine (fun (hx : Keeps am s₀ x) => ?_) ?_; clear_value x)
    | (intro x; subst x)
    | with_reducible refine State.ringPut_keeps ?_ ?_
    | with_reducible refine State.setClu_keeps ?_ ?_
    | with_reducible refine State.wakeRing_keeps ?_ ?_
    | with_reducible refine ite_keeps (fun _ => ?_) (fun _ => ?_)
    | with_reducible refine iteOut_keeps (fun _ => ?_) (fun _ => ?_)
    | with_reducible refine foldl_keeps (fun _ _ _ => ?_) ?_
    | with_reducible refine foldl_kfst (fun _ _ _ => ?_) ?_
    | with_reducible refine foldl_ksnd (fun _ _ _ => ?_) ?_
    | subst x
    | with_reducible split
    | dsimp only

theorem State.setChains_keeps {am : Nat} {s₀ : State} {s : State} {c : Nat} {l : List ChainCmd} (ha : Sub 2048 am) (hs : Keeps am s₀ s) : Keeps am s₀ (State.setChains s c l) := by
  unfold State.setChains
  repeat' first
    | with_reducible assumption
    | exact sub_of ha rfl
    | with_reducible refine keepsOut_next ?_
    | (lift_lets; intro x; refine (fun (hx : Keeps am s₀ x) => ?_) ?_; clear_value x)
    | (intro x; subst x)
    | with_reducible refine State.setClu_keeps ?_ ?_
    | with_reducible refine ite_keeps (fun _ => ?_) (fun _ => ?_)
    | with_reducible refine iteOut_keeps (fun _ => ?_) (fun _ => ?_)
    | with_reducible refine foldl_keeps (fun _ _ _ => ?_) ?_
    | with_reducible refine foldl_kfst (fun _ _ _ => ?_) ?_
    | with_reducible refine foldl_ksnd (fun _ _ _ => ?_) ?_
    | subst x
    | with_reducible split
    | dsimp only

theorem State.setScalar_keeps {am : Nat} {s₀ : State} {s : State} {c : Nat} {i : Nat} {v : W32} (ha : Sub 2048 am) (hs : Keeps am s₀ s) : Keeps am s₀ (State.setScalar s c i v) := by
  unfold State.setScalar
  repeat' first
    | with_reducible assumption
    | exact sub_of ha rfl
    | with_reducible refine keepsOut_next ?_
    | (lift_lets; intro x; refine (fun (hx : Keeps am s₀ x) => ?_) ?_; clear_value x)
    | (intro x; subst x)
    | with_reducible refine State.setClu_keeps ?_ ?_
    | with_reducible refine ite_keeps (fun _ => ?_) (fun _ => ?_)
    | with_reducible refine iteOut_keeps (fun _ => ?_) (fun _ => ?_)
    | with_reducible refine foldl_keeps (fun _ _ _ => ?_) ?_
    | with_reducible refine foldl_kfst (fun _ _ _ => ?_) ?_
    | with_reducible refine foldl_ksnd (fun _ _ _ => ?_) ?_
    | subst x
    | with_reducible split
    | dsimp only

theorem State.haltCore_keeps {am : Nat} {s₀ : State} {s : State} {c : Nat} {k : Nat} {reason : Nat} (ha : Sub 2181038962 am) (hs : Keeps am s₀ s) : Keeps am s₀ (State.haltCore s c k reason) := by
  unfold State.haltCore
  repeat' first
    | with_reducible assumption
    | exact sub_of ha rfl
    | with_reducible refine keepsOut_next ?_
    | (lift_lets; intro x; refine (fun (hx : Keeps am s₀ x) => ?_) ?_; clear_value x)
    | (intro x; subst x)
    | with_reducible refine State.breakSlot_keeps ?_ ?_
    | with_reducible refine State.setFld_keeps ?_ ?_
    | with_reducible refine State.unwait_keeps ?_ ?_
    | with_reducible refine ite_keeps (fun _ => ?_) (fun _ => ?_)
    | with_reducible refine iteOut_keeps (fun _ => ?_) (fun _ => ?_)
    | with_reducible refine foldl_keeps (fun _ _ _ => ?_) ?_
    | with_reducible refine foldl_kfst (fun _ _ _ => ?_) ?_
    | with_reducible refine foldl_ksnd (fun _ _ _ => ?_) ?_
    | subst x
    | with_reducible split
    | dsimp only

theorem State.clearMem_keeps {am : Nat} {s₀ : State} {s : State} {lo : Nat} {hi : Nat} (ha : Sub 262144 am) (hs : Keeps am s₀ s) : Keeps am s₀ (State.clearMem s lo hi) := by
  unfold State.clearMem
  repeat' first
    | with_reducible assumption
    | exact sub_of ha rfl
    | with_reducible refine keepsOut_next ?_
    | (lift_lets; intro x; refine (fun (hx : Keeps am s₀ x) => ?_) ?_; clear_value x)
    | (intro x; subst x)
    | with_reducible refine State.withMem_keeps ?_ ?_
    | with_reducible refine ite_keeps (fun _ => ?_) (fun _ => ?_)
    | with_reducible refine iteOut_keeps (fun _ => ?_) (fun _ => ?_)
    | with_reducible refine foldl_keeps (fun _ _ _ => ?_) ?_
    | with_reducible refine foldl_kfst (fun _ _ _ => ?_) ?_
    | with_reducible refine foldl_ksnd (fun _ _ _ => ?_) ?_
    | subst x
    | with_reducible split
    | dsimp only

theorem State.fenceUnit_keeps {am : Nat} {s₀ : State} {s : State} {d : Nat} {page : Nat} {key : Nat} {cause : Nat} (ha : Sub 33554800 am) (hs : Keeps am s₀ s) : Keeps am s₀ (State.fenceUnit s d page key cause) := by
  unfold State.fenceUnit
  repeat' first
    | with_reducible assumption
    | exact sub_of ha rfl
    | with_reducible refine keepsOut_next ?_
    | (lift_lets; intro x; refine (fun (hx : Keeps am s₀ x) => ?_) ?_; clear_value x)
    | (intro x; subst x)
    | with_reducible refine State.event_keeps ?_ ?_
    | with_reducible refine State.markFenced_keeps ?_ ?_
    | with_reducible refine ite_keeps (fun _ => ?_) (fun _ => ?_)
    | with_reducible refine iteOut_keeps (fun _ => ?_) (fun _ => ?_)
    | with_reducible refine foldl_keeps (fun _ _ _ => ?_) ?_
    | with_reducible refine foldl_kfst (fun _ _ _ => ?_) ?_
    | with_reducible refine foldl_ksnd (fun _ _ _ => ?_) ?_
    | subst x
    | with_reducible split
    | dsimp only

theorem State.fenceEngine_keeps {am : Nat} {s₀ : State} {s : State} {d : Nat} {page : Nat} {state : Fld} {key : Nat} {cause : Nat} (ha : Sub 33554800 am) (hs : Keeps am s₀ s) : Keeps am s₀ (State.fenceEngine s d page state key cause) := by
  unfold State.fenceEngine
  repeat' first
    | with_reducible assumption
    | exact sub_of ha rfl
    | with_reducible refine keepsOut_next ?_
    | (lift_lets; intro x; refine (fun (hx : Keeps am s₀ x) => ?_) ?_; clear_value x)
    | (intro x; subst x)
    | with_reducible refine State.fenceUnit_keeps ?_ ?_
    | with_reducible refine State.setBitF_keeps ?_ ?_
    | with_reducible refine State.setFld_keeps ?_ ?_
    | with_reducible refine ite_keeps (fun _ => ?_) (fun _ => ?_)
    | with_reducible refine iteOut_keeps (fun _ => ?_) (fun _ => ?_)
    | with_reducible refine foldl_keeps (fun _ _ _ => ?_) ?_
    | with_reducible refine foldl_kfst (fun _ _ _ => ?_) ?_
    | with_reducible refine foldl_ksnd (fun _ _ _ => ?_) ?_
    | subst x
    | with_reducible split
    | dsimp only

theorem State.showMxe_keeps {am : Nat} {s₀ : State} {s : State} {e : Nat} (ha : Sub 16 am) (hs : Keeps am s₀ s) : Keeps am s₀ (State.showMxe s e) := by
  unfold State.showMxe
  repeat' first
    | with_reducible assumption
    | exact sub_of ha rfl
    | with_reducible refine keepsOut_next ?_
    | (lift_lets; intro x; refine (fun (hx : Keeps am s₀ x) => ?_) ?_; clear_value x)
    | (intro x; subst x)
    | with_reducible refine State.setFld_keeps ?_ ?_
    | with_reducible refine ite_keeps (fun _ => ?_) (fun _ => ?_)
    | with_reducible refine iteOut_keeps (fun _ => ?_) (fun _ => ?_)
    | with_reducible refine foldl_keeps (fun _ _ _ => ?_) ?_
    | with_reducible refine foldl_kfst (fun _ _ _ => ?_) ?_
    | with_reducible refine foldl_ksnd (fun _ _ _ => ?_) ?_
    | subst x
    | with_reducible split
    | dsimp only

theorem State.fenceMxeNow_keeps {am : Nat} {s₀ : State} {s : State} {e : Nat} {cause : Nat} (ha : Sub 33556848 am) (hs : Keeps am s₀ s) : Keeps am s₀ (State.fenceMxeNow s e cause) := by
  unfold State.fenceMxeNow
  repeat' first
    | with_reducible assumption
    | exact sub_of ha rfl
    | with_reducible refine keepsOut_next ?_
    | (lift_lets; intro x; refine (fun (hx : Keeps am s₀ x) => ?_) ?_; clear_value x)
    | (intro x; subst x)
    | with_reducible refine State.fenceEngine_keeps ?_ ?_
    | with_reducible refine State.setClu_keeps ?_ ?_
    | with_reducible refine ite_keeps (fun _ => ?_) (fun _ => ?_)
    | with_reducible refine iteOut_keeps (fun _ => ?_) (fun _ => ?_)
    | with_reducible refine foldl_keeps (fun _ _ _ => ?_) ?_
    | with_reducible refine foldl_kfst (fun _ _ _ => ?_) ?_
    | with_reducible refine foldl_ksnd (fun _ _ _ => ?_) ?_
    | subst x
    | with_reducible split
    | dsimp only

theorem State.fenceMxe_keeps {am : Nat} {s₀ : State} {s : State} {e : Nat} {cause : Nat} (ha : Sub 33565040 am) (hs : Keeps am s₀ s) : Keeps am s₀ (State.fenceMxe s e cause) := by
  unfold State.fenceMxe
  repeat' first
    | with_reducible assumption
    | exact sub_of ha rfl
    | with_reducible refine keepsOut_next ?_
    | (lift_lets; intro x; refine (fun (hx : Keeps am s₀ x) => ?_) ?_; clear_value x)
    | (intro x; subst x)
    | with_reducible refine State.fenceMxeNow_keeps ?_ ?_
    | with_reducible refine State.setMxe_keeps ?_ ?_
    | with_reducible refine ite_keeps (fun _ => ?_) (fun _ => ?_)
    | with_reducible refine iteOut_keeps (fun _ => ?_) (fun _ => ?_)
    | with_reducible refine foldl_keeps (fun _ _ _ => ?_) ?_
    | with_reducible refine foldl_kfst (fun _ _ _ => ?_) ?_
    | with_reducible refine foldl_ksnd (fun _ _ _ => ?_) ?_
    | subst x
    | with_reducible split
    | dsimp only

theorem State.fenceVxeNow_keeps {am : Nat} {s₀ : State} {s : State} {v : Nat} {cause : Nat} (ha : Sub 33556848 am) (hs : Keeps am s₀ s) : Keeps am s₀ (State.fenceVxeNow s v cause) := by
  unfold State.fenceVxeNow
  repeat' first
    | with_reducible assumption
    | exact sub_of ha rfl
    | with_reducible refine keepsOut_next ?_
    | (lift_lets; intro x; refine (fun (hx : Keeps am s₀ x) => ?_) ?_; clear_value x)
    | (intro x; subst x)
    | with_reducible refine State.fenceEngine_keeps ?_ ?_
    | with_reducible refine State.setChains_keeps ?_ ?_
    | with_reducible refine ite_keeps (fun _ => ?_) (fun _ => ?_)
    | with_reducible refine iteOut_keeps (fun _ => ?_) (fun _ => ?_)
    | with_reducible refine foldl_keeps (fun _ _ _ => ?_) ?_
    | with_reducible refine foldl_kfst (fun _ _ _ => ?_) ?_
    | with_reducible refine foldl_ksnd (fun _ _ _ => ?_) ?_
    | subst x
    | with_reducible split
    | dsimp only

theorem State.fenceVxe_keeps {am : Nat} {s₀ : State} {s : State} {v : Nat} {cause : Nat} (ha : Sub 33573232 am) (hs : Keeps am s₀ s) : Keeps am s₀ (State.fenceVxe s v cause) := by
  unfold State.fenceVxe
  repeat' first
    | with_reducible assumption
    | exact sub_of ha rfl
    | with_reducible refine keepsOut_next ?_
    | (lift_lets; intro x; refine (fun (hx : Keeps am s₀ x) => ?_) ?_; clear_value x)
    | (intro x; subst x)
    | with_reducible refine State.fenceVxeNow_keeps ?_ ?_
    | with_reducible refine State.setVxe_keeps ?_ ?_
    | with_reducible refine ite_keeps (fun _ => ?_) (fun _ => ?_)
    | with_reducible refine iteOut_keeps (fun _ => ?_) (fun _ => ?_)
    | with_reducible refine foldl_keeps (fun _ _ _ => ?_) ?_
    | with_reducible refine foldl_kfst (fun _ _ _ => ?_) ?_
    | with_reducible refine foldl_ksnd (fun _ _ _ => ?_) ?_
    | subst x
    | with_reducible split
    | dsimp only

theorem State.setVerState_keeps {am : Nat} {s₀ : State} {s : State} {v : Nat} {n : Nat} (ha : Sub 16 am) (hs : Keeps am s₀ s) : Keeps am s₀ (State.setVerState s v n) := by
  unfold State.setVerState
  repeat' first
    | with_reducible assumption
    | exact sub_of ha rfl
    | with_reducible refine keepsOut_next ?_
    | (lift_lets; intro x; refine (fun (hx : Keeps am s₀ x) => ?_) ?_; clear_value x)
    | (intro x; subst x)
    | with_reducible refine State.setFld_keeps ?_ ?_
    | with_reducible refine ite_keeps (fun _ => ?_) (fun _ => ?_)
    | with_reducible refine iteOut_keeps (fun _ => ?_) (fun _ => ?_)
    | with_reducible refine foldl_keeps (fun _ _ _ => ?_) ?_
    | with_reducible refine foldl_kfst (fun _ _ _ => ?_) ?_
    | with_reducible refine foldl_ksnd (fun _ _ _ => ?_) ?_
    | subst x
    | with_reducible split
    | dsimp only

theorem State.lookup_keeps {am : Nat} {s₀ : State} {s : State} {dst : Nat} {needV3 : Bool} (ha : Sub 48 am) (hs : Keeps am s₀ s) : Keeps am s₀ (State.lookup s dst needV3).2 := by
  unfold State.lookup
  repeat' first
    | with_reducible assumption
    | exact sub_of ha rfl
    | with_reducible refine keepsOut_next ?_
    | (lift_lets; intro x; refine (fun (hx : Keeps am s₀ x) => ?_) ?_; clear_value x)
    | (intro x; subst x)
    | with_reducible refine State.setErr_keeps ?_ ?_
    | with_reducible refine ite_keeps (fun _ => ?_) (fun _ => ?_)
    | with_reducible refine iteOut_keeps (fun _ => ?_) (fun _ => ?_)
    | with_reducible refine foldl_keeps (fun _ _ _ => ?_) ?_
    | with_reducible refine foldl_kfst (fun _ _ _ => ?_) ?_
    | with_reducible refine foldl_ksnd (fun _ _ _ => ?_) ?_
    | subst x
    | with_reducible split
    | dsimp only

theorem State.lookup_keeps_eq {am : Nat} {s₀ : State} {s : State} {dst : Nat} {needV3 : Bool} {rr} (ha : Sub 48 am) (he : State.lookup s dst needV3 = rr) (hs : Keeps am s₀ s) : Keeps am s₀ rr.2 := he ▸ State.lookup_keeps ha hs

theorem State.setPort_keeps {am : Nat} {s₀ : State} {s : State} {p : Nat} {x : Port} (ha : Sub 67108864 am) (hs : Keeps am s₀ s) : Keeps am s₀ (State.setPort s p x) := by
  unfold State.setPort
  repeat' first
    | with_reducible assumption
    | exact sub_of ha rfl
    | with_reducible refine keepsOut_next ?_
    | (lift_lets; intro x; refine (fun (hx : Keeps am s₀ x) => ?_) ?_; clear_value x)
    | (intro x; subst x)
    | with_reducible refine State.withNet_keeps ?_ ?_
    | with_reducible refine ite_keeps (fun _ => ?_) (fun _ => ?_)
    | with_reducible refine iteOut_keeps (fun _ => ?_) (fun _ => ?_)
    | with_reducible refine foldl_keeps (fun _ _ _ => ?_) ?_
    | with_reducible refine foldl_kfst (fun _ _ _ => ?_) ?_
    | with_reducible refine foldl_ksnd (fun _ _ _ => ?_) ?_
    | subst x
    | with_reducible split
    | dsimp only

theorem State.setLnk_keeps {am : Nat} {s₀ : State} {s : State} {p : Nat} {st : Nat} (ha : Sub 16 am) (hs : Keeps am s₀ s) : Keeps am s₀ (State.setLnk s p st) := by
  unfold State.setLnk
  repeat' first
    | with_reducible assumption
    | exact sub_of ha rfl
    | with_reducible refine keepsOut_next ?_
    | (lift_lets; intro x; refine (fun (hx : Keeps am s₀ x) => ?_) ?_; clear_value x)
    | (intro x; subst x)
    | with_reducible refine State.setFld_keeps ?_ ?_
    | with_reducible refine ite_keeps (fun _ => ?_) (fun _ => ?_)
    | with_reducible refine iteOut_keeps (fun _ => ?_) (fun _ => ?_)
    | with_reducible refine foldl_keeps (fun _ _ _ => ?_) ?_
    | with_reducible refine foldl_kfst (fun _ _ _ => ?_) ?_
    | with_reducible refine foldl_ksnd (fun _ _ _ => ?_) ?_
    | subst x
    | with_reducible split
    | dsimp only

theorem State.inject_keeps {am : Nat} {s₀ : State} {s : State} {d : Nat} {ws : List W64} (ha : Sub 67108864 am) (hs : Keeps am s₀ s) : Keeps am s₀ (State.inject s d ws) := by
  unfold State.inject
  repeat' first
    | with_reducible assumption
    | exact sub_of ha rfl
    | with_reducible refine keepsOut_next ?_
    | (lift_lets; intro x; refine (fun (hx : Keeps am s₀ x) => ?_) ?_; clear_value x)
    | (intro x; subst x)
    | with_reducible refine State.withNet_keeps ?_ ?_
    | with_reducible refine ite_keeps (fun _ => ?_) (fun _ => ?_)
    | with_reducible refine iteOut_keeps (fun _ => ?_) (fun _ => ?_)
    | with_reducible refine foldl_keeps (fun _ _ _ => ?_) ?_
    | with_reducible refine foldl_kfst (fun _ _ _ => ?_) ?_
    | with_reducible refine foldl_ksnd (fun _ _ _ => ?_) ?_
    | subst x
    | with_reducible split
    | dsimp only

theorem State.setSlot_keeps {am : Nat} {s₀ : State} {s : State} {k : Nat} {x : Slot} (ha : Sub 67108864 am) (hs : Keeps am s₀ s) : Keeps am s₀ (State.setSlot s k x) := by
  unfold State.setSlot
  repeat' first
    | with_reducible assumption
    | exact sub_of ha rfl
    | with_reducible refine keepsOut_next ?_
    | (lift_lets; intro x; refine (fun (hx : Keeps am s₀ x) => ?_) ?_; clear_value x)
    | (intro x; subst x)
    | with_reducible refine State.withNet_keeps ?_ ?_
    | with_reducible refine ite_keeps (fun _ => ?_) (fun _ => ?_)
    | with_reducible refine iteOut_keeps (fun _ => ?_) (fun _ => ?_)
    | with_reducible refine foldl_keeps (fun _ _ _ => ?_) ?_
    | with_reducible refine foldl_kfst (fun _ _ _ => ?_) ?_
    | with_reducible refine foldl_ksnd (fun _ _ _ => ?_) ?_
    | subst x
    | with_reducible split
    | dsimp only

theorem State.portRecord_keeps {am : Nat} {s₀ : State} {s : State} {d : Nat} {ctx : Nat} {addr : Nat} {st : Nat} {bytes : Nat} {w1 : W64} (ha : Sub 786448 am) (hs : Keeps am s₀ s) : Keeps am s₀ (State.portRecord s d ctx addr st bytes w1) := by
  unfold State.portRecord
  repeat' first
    | with_reducible assumption
    | exact sub_of ha rfl
    | with_reducible refine keepsOut_next ?_
    | (lift_lets; intro x; refine (fun (hx : Keeps am s₀ x) => ?_) ?_; clear_value x)
    | (intro x; subst x)
    | with_reducible refine State.charge_keeps ?_ ?_
    | with_reducible refine State.storeWords_keeps ?_ ?_
    | with_reducible refine ite_keeps (fun _ => ?_) (fun _ => ?_)
    | with_reducible refine iteOut_keeps (fun _ => ?_) (fun _ => ?_)
    | with_reducible refine foldl_keeps (fun _ _ _ => ?_) ?_
    | with_reducible refine foldl_kfst (fun _ _ _ => ?_) ?_
    | with_reducible refine foldl_ksnd (fun _ _ _ => ?_) ?_
    | subst x
    | with_reducible split
    | dsimp only

theorem State.setSqCmds_keeps {am : Nat} {s₀ : State} {s : State} {q : Nat} {l : List SqCmd} (ha : Sub 268435456 am) (hs : Keeps am s₀ s) : Keeps am s₀ (State.setSqCmds s q l) := by
  unfold State.setSqCmds
  repeat' first
    | with_reducible assumption
    | exact sub_of ha rfl
    | with_reducible refine keepsOut_next ?_
    | (lift_lets; intro x; refine (fun (hx : Keeps am s₀ x) => ?_) ?_; clear_value x)
    | (intro x; subst x)
    | with_reducible refine State.withHost_keeps ?_ ?_
    | with_reducible refine ite_keeps (fun _ => ?_) (fun _ => ?_)
    | with_reducible refine iteOut_keeps (fun _ => ?_) (fun _ => ?_)
    | with_reducible refine foldl_keeps (fun _ _ _ => ?_) ?_
    | with_reducible refine foldl_kfst (fun _ _ _ => ?_) ?_
    | with_reducible refine foldl_ksnd (fun _ _ _ => ?_) ?_
    | subst x
    | with_reducible split
    | dsimp only

theorem State.finCmd_keeps {am : Nat} {s₀ : State} {s : State} {q : Nat} {seq : W64} {st : Nat} {result : W64} (ha : Sub 268435456 am) (hs : Keeps am s₀ s) : Keeps am s₀ (State.finCmd s q seq st result) := by
  unfold State.finCmd
  repeat' first
    | with_reducible assumption
    | exact sub_of ha rfl
    | with_reducible refine keepsOut_next ?_
    | (lift_lets; intro x; refine (fun (hx : Keeps am s₀ x) => ?_) ?_; clear_value x)
    | (intro x; subst x)
    | with_reducible refine State.setSqCmds_keeps ?_ ?_
    | with_reducible refine ite_keeps (fun _ => ?_) (fun _ => ?_)
    | with_reducible refine iteOut_keeps (fun _ => ?_) (fun _ => ?_)
    | with_reducible refine foldl_keeps (fun _ _ _ => ?_) ?_
    | with_reducible refine foldl_kfst (fun _ _ _ => ?_) ?_
    | with_reducible refine foldl_ksnd (fun _ _ _ => ?_) ?_
    | subst x
    | with_reducible split
    | dsimp only

theorem State.finAborted_keeps {am : Nat} {s₀ : State} {s : State} {q : Nat} {seq : W64} (ha : Sub 268435456 am) (hs : Keeps am s₀ s) : Keeps am s₀ (State.finAborted s q seq) := by
  unfold State.finAborted
  repeat' first
    | with_reducible assumption
    | exact sub_of ha rfl
    | with_reducible refine keepsOut_next ?_
    | (lift_lets; intro x; refine (fun (hx : Keeps am s₀ x) => ?_) ?_; clear_value x)
    | (intro x; subst x)
    | with_reducible refine State.finCmd_keeps ?_ ?_
    | with_reducible refine ite_keeps (fun _ => ?_) (fun _ => ?_)
    | with_reducible refine iteOut_keeps (fun _ => ?_) (fun _ => ?_)
    | with_reducible refine foldl_keeps (fun _ _ _ => ?_) ?_
    | with_reducible refine foldl_kfst (fun _ _ _ => ?_) ?_
    | with_reducible refine foldl_ksnd (fun _ _ _ => ?_) ?_
    | subst x
    | with_reducible split
    | dsimp only

theorem State.markDispatched_keeps {am : Nat} {s₀ : State} {s : State} {q : Nat} {seq : W64} (ha : Sub 268435456 am) (hs : Keeps am s₀ s) : Keeps am s₀ (State.markDispatched s q seq) := by
  unfold State.markDispatched
  repeat' first
    | with_reducible assumption
    | exact sub_of ha rfl
    | with_reducible refine keepsOut_next ?_
    | (lift_lets; intro x; refine (fun (hx : Keeps am s₀ x) => ?_) ?_; clear_value x)
    | (intro x; subst x)
    | with_reducible refine State.setSqCmds_keeps ?_ ?_
    | with_reducible refine ite_keeps (fun _ => ?_) (fun _ => ?_)
    | with_reducible refine iteOut_keeps (fun _ => ?_) (fun _ => ?_)
    | with_reducible refine foldl_keeps (fun _ _ _ => ?_) ?_
    | with_reducible refine foldl_kfst (fun _ _ _ => ?_) ?_
    | with_reducible refine foldl_ksnd (fun _ _ _ => ?_) ?_
    | subst x
    | with_reducible split
    | dsimp only

-- FOR State.pumpQueue
-- HAVE pumpQueue State.pumpQueue_keeps ?_ ?_
theorem State.pumpQueue_keeps {am : Nat} {s₀ : State} : ∀ {n : Nat} {s : State} {q : Nat}, Sub 269484032 am → Keeps am s₀ s → Keeps am s₀ (State.pumpQueue n s q) := by
  intro n
  induction n with
  | zero => intro s q ha hs; exact hs
  | succ n ih =>
    intro s q ha hs
    unfold State.pumpQueue
    split
    · split
      · exact ih ha (State.markDispatched_keeps (sub_of ha rfl) (State.withHost_keeps (sub_of ha rfl) (State.withUpd_keeps (sub_of ha rfl) hs)))
      · exact hs
    · exact hs

theorem State.pump_keeps {am : Nat} {s₀ : State} {s : State} {q : Nat} (ha : Sub 269484032 am) (hs : Keeps am s₀ s) : Keeps am s₀ (State.pump s q) := by
  unfold State.pump
  repeat' first
    | with_reducible assumption
    | exact sub_of ha rfl
    | with_reducible refine keepsOut_next ?_
    | (lift_lets; intro x; refine (fun (hx : Keeps am s₀ x) => ?_) ?_; clear_value x)
    | (intro x; subst x)
    | with_reducible refine State.pumpQueue_keeps ?_ ?_
    | with_reducible refine ite_keeps (fun _ => ?_) (fun _ => ?_)
    | with_reducible refine iteOut_keeps (fun _ => ?_) (fun _ => ?_)
    | with_reducible refine foldl_keeps (fun _ _ _ => ?_) ?_
    | with_reducible refine foldl_kfst (fun _ _ _ => ?_) ?_
    | with_reducible refine foldl_ksnd (fun _ _ _ => ?_) ?_
    | subst x
    | with_reducible split
    | dsimp only

theorem State.vtNote_keeps {am : Nat} {s₀ : State} {s : State} (ha : Sub 48 am) (hs : Keeps am s₀ s) : Keeps am s₀ (State.vtNote s) := by
  unfold State.vtNote
  repeat' first
    | with_reducible assumption
    | exact sub_of ha rfl
    | with_reducible refine keepsOut_next ?_
    | (lift_lets; intro x; refine (fun (hx : Keeps am s₀ x) => ?_) ?_; clear_value x)
    | (intro x; subst x)
    | with_reducible refine State.setErr_keeps ?_ ?_
    | with_reducible refine ite_keeps (fun _ => ?_) (fun _ => ?_)
    | with_reducible refine iteOut_keeps (fun _ => ?_) (fun _ => ?_)
    | with_reducible refine foldl_keeps (fun _ _ _ => ?_) ?_
    | with_reducible refine foldl_kfst (fun _ _ _ => ?_) ?_
    | with_reducible refine foldl_ksnd (fun _ _ _ => ?_) ?_
    | subst x
    | with_reducible split
    | dsimp only

theorem State.setVt_keeps {am : Nat} {s₀ : State} {s : State} {e : Nat} {k : Nat} {v : W64} (ha : Sub 262160 am) (hs : Keeps am s₀ s) : Keeps am s₀ (State.setVt s e k v) := by
  unfold State.setVt
  repeat' first
    | with_reducible assumption
    | exact sub_of ha rfl
    | with_reducible refine keepsOut_next ?_
    | (lift_lets; intro x; refine (fun (hx : Keeps am s₀ x) => ?_) ?_; clear_value x)
    | (intro x; subst x)
    | with_reducible refine State.storeWords_keeps ?_ ?_
    | with_reducible refine ite_keeps (fun _ => ?_) (fun _ => ?_)
    | with_reducible refine iteOut_keeps (fun _ => ?_) (fun _ => ?_)
    | with_reducible refine foldl_keeps (fun _ _ _ => ?_) ?_
    | with_reducible refine foldl_kfst (fun _ _ _ => ?_) ?_
    | with_reducible refine foldl_ksnd (fun _ _ _ => ?_) ?_
    | subst x
    | with_reducible split
    | dsimp only

theorem State.setVs_keeps {am : Nat} {s₀ : State} {s : State} {e : Nat} {i : Nat} {st : Nat} {refs : Nat} {ver : Nat} (ha : Sub 262160 am) (hs : Keeps am s₀ s) : Keeps am s₀ (State.setVs s e i st refs ver) := by
  unfold State.setVs
  repeat' first
    | with_reducible assumption
    | exact sub_of ha rfl
    | with_reducible refine keepsOut_next ?_
    | (lift_lets; intro x; refine (fun (hx : Keeps am s₀ x) => ?_) ?_; clear_value x)
    | (intro x; subst x)
    | with_reducible refine State.setVt_keeps ?_ ?_
    | with_reducible refine ite_keeps (fun _ => ?_) (fun _ => ?_)
    | with_reducible refine iteOut_keeps (fun _ => ?_) (fun _ => ?_)
    | with_reducible refine foldl_keeps (fun _ _ _ => ?_) ?_
    | with_reducible refine foldl_kfst (fun _ _ _ => ?_) ?_
    | with_reducible refine foldl_ksnd (fun _ _ _ => ?_) ?_
    | subst x
    | with_reducible split
    | dsimp only

theorem State.setInq_keeps {am : Nat} {s₀ : State} {s : State} {qn : Nat} {q : InQueue} (ha : Sub 16777216 am) (hs : Keeps am s₀ s) : Keeps am s₀ (State.setInq s qn q) := by
  unfold State.setInq
  repeat' first
    | with_reducible assumption
    | exact sub_of ha rfl
    | with_reducible refine keepsOut_next ?_
    | (lift_lets; intro x; refine (fun (hx : Keeps am s₀ x) => ?_) ?_; clear_value x)
    | (intro x; subst x)
    | with_reducible refine State.withStg_keeps ?_ ?_
    | with_reducible refine ite_keeps (fun _ => ?_) (fun _ => ?_)
    | with_reducible refine iteOut_keeps (fun _ => ?_) (fun _ => ?_)
    | with_reducible refine foldl_keeps (fun _ _ _ => ?_) ?_
    | with_reducible refine foldl_kfst (fun _ _ _ => ?_) ?_
    | with_reducible refine foldl_ksnd (fun _ _ _ => ?_) ?_
    | subst x
    | with_reducible split
    | dsimp only

theorem State.setOutq_keeps {am : Nat} {s₀ : State} {s : State} {ol : Nat} {q : List OutMsg} (ha : Sub 16777216 am) (hs : Keeps am s₀ s) : Keeps am s₀ (State.setOutq s ol q) := by
  unfold State.setOutq
  repeat' first
    | with_reducible assumption
    | exact sub_of ha rfl
    | with_reducible refine keepsOut_next ?_
    | (lift_lets; intro x; refine (fun (hx : Keeps am s₀ x) => ?_) ?_; clear_value x)
    | (intro x; subst x)
    | with_reducible refine State.withStg_keeps ?_ ?_
    | with_reducible refine ite_keeps (fun _ => ?_) (fun _ => ?_)
    | with_reducible refine iteOut_keeps (fun _ => ?_) (fun _ => ?_)
    | with_reducible refine foldl_keeps (fun _ _ _ => ?_) ?_
    | with_reducible refine foldl_kfst (fun _ _ _ => ?_) ?_
    | with_reducible refine foldl_ksnd (fun _ _ _ => ?_) ?_
    | subst x
    | with_reducible split
    | dsimp only

theorem State.slSend_keeps {am : Nat} {s₀ : State} {s : State} {m : SlMsg} (ha : Sub 16777216 am) (hs : Keeps am s₀ s) : Keeps am s₀ (State.slSend s m) := by
  unfold State.slSend
  repeat' first
    | with_reducible assumption
    | exact sub_of ha rfl
    | with_reducible refine keepsOut_next ?_
    | (lift_lets; intro x; refine (fun (hx : Keeps am s₀ x) => ?_) ?_; clear_value x)
    | (intro x; subst x)
    | with_reducible refine State.withStg_keeps ?_ ?_
    | with_reducible refine ite_keeps (fun _ => ?_) (fun _ => ?_)
    | with_reducible refine iteOut_keeps (fun _ => ?_) (fun _ => ?_)
    | with_reducible refine foldl_keeps (fun _ _ _ => ?_) ?_
    | with_reducible refine foldl_kfst (fun _ _ _ => ?_) ?_
    | with_reducible refine foldl_ksnd (fun _ _ _ => ?_) ?_
    | subst x
    | with_reducible split
    | dsimp only

theorem State.stopStage_keeps {am : Nat} {s₀ : State} {s : State} {i : Nat} (ha : Sub 16777232 am) (hs : Keeps am s₀ s) : Keeps am s₀ (State.stopStage s i) := by
  unfold State.stopStage
  repeat' first
    | with_reducible assumption
    | exact sub_of ha rfl
    | with_reducible refine keepsOut_next ?_
    | (lift_lets; intro x; refine (fun (hx : Keeps am s₀ x) => ?_) ?_; clear_value x)
    | (intro x; subst x)
    | with_reducible refine State.setFld_keeps ?_ ?_
    | with_reducible refine State.setInq_keeps ?_ ?_
    | with_reducible refine State.setOutq_keeps ?_ ?_
    | with_reducible refine ite_keeps (fun _ => ?_) (fun _ => ?_)
    | with_reducible refine iteOut_keeps (fun _ => ?_) (fun _ => ?_)
    | with_reducible refine foldl_keeps (fun _ _ _ => ?_) ?_
    | with_reducible refine foldl_kfst (fun _ _ _ => ?_) ?_
    | with_reducible refine foldl_ksnd (fun _ _ _ => ?_) ?_
    | subst x
    | with_reducible split
    | dsimp only

theorem State.markTainted_keeps {am : Nat} {s₀ : State} {s : State} (ha : Sub 16777216 am) (hs : Keeps am s₀ s) : Keeps am s₀ (State.markTainted s) := by
  unfold State.markTainted
  repeat' first
    | with_reducible assumption
    | exact sub_of ha rfl
    | with_reducible refine keepsOut_next ?_
    | (lift_lets; intro x; refine (fun (hx : Keeps am s₀ x) => ?_) ?_; clear_value x)
    | (intro x; subst x)
    | with_reducible refine State.withStg_keeps ?_ ?_
    | with_reducible refine ite_keeps (fun _ => ?_) (fun _ => ?_)
    | with_reducible refine iteOut_keeps (fun _ => ?_) (fun _ => ?_)
    | with_reducible refine foldl_keeps (fun _ _ _ => ?_) ?_
    | with_reducible refine foldl_kfst (fun _ _ _ => ?_) ?_
    | with_reducible refine foldl_ksnd (fun _ _ _ => ?_) ?_
    | subst x
    | with_reducible split
    | dsimp only

theorem State.taintWhole_keeps {am : Nat} {s₀ : State} {s : State} {ctx : Nat} (ha : Sub 16777216 am) (hs : Keeps am s₀ s) : Keeps am s₀ (State.taintWhole s ctx) := by
  unfold State.taintWhole
  repeat' first
    | with_reducible assumption
    | exact sub_of ha rfl
    | with_reducible refine keepsOut_next ?_
    | (lift_lets; intro x; refine (fun (hx : Keeps am s₀ x) => ?_) ?_; clear_value x)
    | (intro x; subst x)
    | with_reducible refine State.markTainted_keeps ?_ ?_
    | with_reducible refine State.withStg_keeps ?_ ?_
    | with_reducible refine ite_keeps (fun _ => ?_) (fun _ => ?_)
    | with_reducible refine iteOut_keeps (fun _ => ?_) (fun _ => ?_)
    | with_reducible refine foldl_keeps (fun _ _ _ => ?_) ?_
    | with_reducible refine foldl_kfst (fun _ _ _ => ?_) ?_
    | with_reducible refine foldl_ksnd (fun _ _ _ => ?_) ?_
    | subst x
    | with_reducible split
    | dsimp only

-- FOR State.newWork
-- HAVE newWork State.newWork_keeps ?_ ?_ ?_
theorem State.newWork_keeps {am : Nat} {s₀ s t : State} {c rd : Nat} (ha : Sub 512 am) (hs : Keeps am s₀ s) (ht : Keeps am s₀ t) : Keeps am s₀ (s.newWork c rd t) := by
  unfold State.newWork
  exact ite_keeps (fun _ => State.retSt_keeps (sub_of ha rfl) hs) (fun _ => ht)

theorem State.dropGroups_keeps {am : Nat} {s₀ : State} {s : State} {gone : Group → Bool} (ha : Sub 134217728 am) (hs : Keeps am s₀ s) : Keeps am s₀ (State.dropGroups s gone) := by
  unfold State.dropGroups
  repeat' first
    | with_reducible assumption
    | exact sub_of ha rfl
    | with_reducible refine keepsOut_next ?_
    | (lift_lets; intro x; refine (fun (hx : Keeps am s₀ x) => ?_) ?_; clear_value x)
    | (intro x; subst x)
    | with_reducible refine State.withCr_keeps ?_ ?_
    | with_reducible refine ite_keeps (fun _ => ?_) (fun _ => ?_)
    | with_reducible refine iteOut_keeps (fun _ => ?_) (fun _ => ?_)
    | with_reducible refine foldl_keeps (fun _ _ _ => ?_) ?_
    | with_reducible refine foldl_kfst (fun _ _ _ => ?_) ?_
    | with_reducible refine foldl_ksnd (fun _ _ _ => ?_) ?_
    | subst x
    | with_reducible split
    | dsimp only

theorem State.endColl_keeps {am : Nat} {s₀ : State} {s : State} {k : Coll} {st : Nat} {bytes : Nat} (ha : Sub 135004176 am) (hs : Keeps am s₀ s) : Keeps am s₀ (State.endColl s k st bytes) := by
  unfold State.endColl
  repeat' first
    | with_reducible assumption
    | exact sub_of ha rfl
    | with_reducible refine keepsOut_next ?_
    | (lift_lets; intro x; refine (fun (hx : Keeps am s₀ x) => ?_) ?_; clear_value x)
    | (intro x; subst x)
    | with_reducible refine State.portRecord_keeps ?_ ?_
    | with_reducible refine State.withCr_keeps ?_ ?_
    | with_reducible refine ite_keeps (fun _ => ?_) (fun _ => ?_)
    | with_reducible refine iteOut_keeps (fun _ => ?_) (fun _ => ?_)
    | with_reducible refine foldl_keeps (fun _ _ _ => ?_) ?_
    | with_reducible refine foldl_kfst (fun _ _ _ => ?_) ?_
    | with_reducible refine foldl_ksnd (fun _ _ _ => ?_) ?_
    | subst x
    | with_reducible split
    | dsimp only

theorem State.sendRelay_keeps {am : Nat} {s₀ : State} {s : State} {r : Relay} (ha : Sub 67108864 am) (hs : Keeps am s₀ s) : Keeps am s₀ (State.sendRelay s r) := by
  unfold State.sendRelay
  repeat' first
    | with_reducible assumption
    | exact sub_of ha rfl
    | with_reducible refine keepsOut_next ?_
    | (lift_lets; intro x; refine (fun (hx : Keeps am s₀ x) => ?_) ?_; clear_value x)
    | (intro x; subst x)
    | with_reducible refine State.inject_keeps ?_ ?_
    | with_reducible refine ite_keeps (fun _ => ?_) (fun _ => ?_)
    | with_reducible refine iteOut_keeps (fun _ => ?_) (fun _ => ?_)
    | with_reducible refine foldl_keeps (fun _ _ _ => ?_) ?_
    | with_reducible refine foldl_kfst (fun _ _ _ => ?_) ?_
    | with_reducible refine foldl_ksnd (fun _ _ _ => ?_) ?_
    | subst x
    | with_reducible split
    | dsimp only

theorem State.finishAbort_keeps {am : Nat} {s₀ : State} {s : State} {j : AbortJob} (ha : Sub 838861168 am) (hs : Keeps am s₀ s) : Keeps am s₀ (State.finishAbort s j) := by
  unfold State.finishAbort
  repeat' first
    | with_reducible assumption
    | exact sub_of ha rfl
    | with_reducible refine keepsOut_next ?_
    | (lift_lets; intro x; refine (fun (hx : Keeps am s₀ x) => ?_) ?_; clear_value x)
    | (intro x; subst x)
    | with_reducible refine State.event_keeps ?_ ?_
    | with_reducible refine State.finCmd_keeps ?_ ?_
    | with_reducible refine State.setBitF_keeps ?_ ?_
    | with_reducible refine State.setFld_keeps ?_ ?_
    | with_reducible refine State.withRcv_keeps ?_ ?_
    | with_reducible refine State.wrapFld_keeps ?_ ?_
    | with_reducible refine ite_keeps (fun _ => ?_) (fun _ => ?_)
    | with_reducible refine iteOut_keeps (fun _ => ?_) (fun _ => ?_)
    | with_reducible refine foldl_keeps (fun _ _ _ => ?_) ?_
    | with_reducible refine foldl_kfst (fun _ _ _ => ?_) ?_
    | with_reducible refine foldl_ksnd (fun _ _ _ => ?_) ?_
    | subst x
    | with_reducible split
    | dsimp only

theorem State.agentFenced_keeps {am : Nat} {s₀ : State} {s : State} {slot : Nat} (ha : Sub 2181038962 am) (hs : Keeps am s₀ s) : Keeps am s₀ (State.agentFenced s slot) := by
  unfold State.agentFenced
  repeat' first
    | with_reducible assumption
    | exact sub_of ha rfl
    | with_reducible refine keepsOut_next ?_
    | (lift_lets; intro x; refine (fun (hx : Keeps am s₀ x) => ?_) ?_; clear_value x)
    | (intro x; subst x)
    | with_reducible refine State.breakSlot_keeps ?_ ?_
    | with_reducible refine ite_keeps (fun _ => ?_) (fun _ => ?_)
    | with_reducible refine iteOut_keeps (fun _ => ?_) (fun _ => ?_)
    | with_reducible refine foldl_keeps (fun _ _ _ => ?_) ?_
    | with_reducible refine foldl_kfst (fun _ _ _ => ?_) ?_
    | with_reducible refine foldl_ksnd (fun _ _ _ => ?_) ?_
    | subst x
    | with_reducible split
    | dsimp only

theorem State.startSelftest_keeps {am : Nat} {s₀ : State} {s : State} {page : Nat} {state : Fld} (ha : Sub 48 am) (hs : Keeps am s₀ s) : Keeps am s₀ (State.startSelftest s page state) := by
  unfold State.startSelftest
  repeat' first
    | with_reducible assumption
    | exact sub_of ha rfl
    | with_reducible refine keepsOut_next ?_
    | (lift_lets; intro x; refine (fun (hx : Keeps am s₀ x) => ?_) ?_; clear_value x)
    | (intro x; subst x)
    | with_reducible refine State.badSeq_keeps ?_ ?_
    | with_reducible refine State.setFld_keeps ?_ ?_
    | with_reducible refine ite_keeps (fun _ => ?_) (fun _ => ?_)
    | with_reducible refine iteOut_keeps (fun _ => ?_) (fun _ => ?_)
    | with_reducible refine foldl_keeps (fun _ _ _ => ?_) ?_
    | with_reducible refine foldl_kfst (fun _ _ _ => ?_) ?_
    | with_reducible refine foldl_ksnd (fun _ _ _ => ?_) ?_
    | subst x
    | with_reducible split
    | dsimp only

theorem State.endSelftest_keeps {am : Nat} {s₀ : State} {s : State} {page : Nat} {state : Fld} {pass : Bool} (ha : Sub 16 am) (hs : Keeps am s₀ s) : Keeps am s₀ (State.endSelftest s page state pass) := by
  unfold State.endSelftest
  repeat' first
    | with_reducible assumption
    | exact sub_of ha rfl
    | with_reducible refine keepsOut_next ?_
    | (lift_lets; intro x; refine (fun (hx : Keeps am s₀ x) => ?_) ?_; clear_value x)
    | (intro x; subst x)
    | with_reducible refine State.setFld_keeps ?_ ?_
    | with_reducible refine ite_keeps (fun _ => ?_) (fun _ => ?_)
    | with_reducible refine iteOut_keeps (fun _ => ?_) (fun _ => ?_)
    | with_reducible refine foldl_keeps (fun _ _ _ => ?_) ?_
    | with_reducible refine foldl_kfst (fun _ _ _ => ?_) ?_
    | with_reducible refine foldl_ksnd (fun _ _ _ => ?_) ?_
    | subst x
    | with_reducible split
    | dsimp only

theorem State.readmit_keeps {am : Nat} {s₀ : State} {s : State} {page : Nat} {state : Fld} {key : Nat} (ha : Sub 33554736 am) (hs : Keeps am s₀ s) : Keeps am s₀ (State.readmit s page state key) := by
  unfold State.readmit
  repeat' first
    | with_reducible assumption
    | exact sub_of ha rfl
    | with_reducible refine keepsOut_next ?_
    | (lift_lets; intro x; refine (fun (hx : Keeps am s₀ x) => ?_) ?_; clear_value x)
    | (intro x; subst x)
    | with_reducible refine State.badSeq_keeps ?_ ?_
    | with_reducible refine State.putUnit_keeps ?_ ?_
    | with_reducible refine State.setBitF_keeps ?_ ?_
    | with_reducible refine State.setFld_keeps ?_ ?_
    | with_reducible refine ite_keeps (fun _ => ?_) (fun _ => ?_)
    | with_reducible refine iteOut_keeps (fun _ => ?_) (fun _ => ?_)
    | with_reducible refine foldl_keeps (fun _ _ _ => ?_) ?_
    | with_reducible refine foldl_kfst (fun _ _ _ => ?_) ?_
    | with_reducible refine foldl_ksnd (fun _ _ _ => ?_) ?_
    | subst x
    | with_reducible split
    | dsimp only

end Sys2Proof.Machine
end

