-- ==== Sys2Proof/Laws/KeepEngines.lean ====
section
/-! SUPPORT. What each operation may change, part by part of the state: the engines, memory, update units, stages and synchronisation. -/

namespace Sys2Proof.Machine
-- The tactic scripts here have one shape for every operation, so some of their steps do nothing for some operations.
set_option linter.unusedTactic false
set_option linter.unreachableTactic false

theorem State.addCount_keeps {am : Nat} {s₀ : State} {s : State} {k : Nat} {n : Nat} (ha : Sub 16 am) (hs : Keeps am s₀ s) : Keeps am s₀ (State.addCount s k n) := by
  unfold State.addCount
  repeat' first
    | with_reducible assumption
    | exact sub_of ha rfl
    | with_reducible refine keepsOut_next ?_
    | (lift_lets; intro x; refine (fun (hx : Keeps am s₀ x) => ?_) ?_; clear_value x)
    | (intro x; subst x)
    | with_reducible refine State.setReg_keeps ?_ ?_
    | with_reducible refine ite_keeps (fun _ => ?_) (fun _ => ?_)
    | with_reducible refine iteOut_keeps (fun _ => ?_) (fun _ => ?_)
    | with_reducible refine foldl_keeps (fun _ _ _ => ?_) ?_
    | with_reducible refine foldl_kfst (fun _ _ _ => ?_) ?_
    | with_reducible refine foldl_ksnd (fun _ _ _ => ?_) ?_
    | subst x
    | with_reducible split
    | dsimp only

theorem State.addWork_keeps {am : Nat} {s₀ : State} {s : State} {page : Nat} {n : Nat} (ha : Sub 65536 am) (hs : Keeps am s₀ s) : Keeps am s₀ (State.addWork s page n) := by
  unfold State.addWork
  repeat' first
    | with_reducible assumption
    | exact sub_of ha rfl
    | with_reducible refine keepsOut_next ?_
    | (lift_lets; intro x; refine (fun (hx : Keeps am s₀ x) => ?_) ?_; clear_value x)
    | (intro x; subst x)
    | with_reducible refine State.withWork_keeps ?_ ?_
    | with_reducible refine ite_keeps (fun _ => ?_) (fun _ => ?_)
    | with_reducible refine iteOut_keeps (fun _ => ?_) (fun _ => ?_)
    | with_reducible refine foldl_keeps (fun _ _ _ => ?_) ?_
    | with_reducible refine foldl_kfst (fun _ _ _ => ?_) ?_
    | with_reducible refine foldl_ksnd (fun _ _ _ => ?_) ?_
    | subst x
    | with_reducible split
    | dsimp only

theorem State.showStrikes_keeps {am : Nat} {s₀ : State} {s : State} {e : Nat} (ha : Sub 16 am) (hs : Keeps am s₀ s) : Keeps am s₀ (State.showStrikes s e) := by
  unfold State.showStrikes
  repeat' first
    | with_reducible assumption
    | exact sub_of ha rfl
    | with_reducible refine keepsOut_next ?_
    | (lift_lets; intro x; refine (fun (hx : Keeps am s₀ x) => ?_) ?_; clear_value x)
    | (intro x; subst x)
    | with_reducible refine State.setFld_keeps ?_ ?_
    | with_reducible refine ite_keeps (fun _ => ?_) (fun _ => ?_)
    | with_reducible refine iteOut_keeps (fun _ => ?_) (fun _ => ?_)
    | with_reducible refine foldl_keeps (fun _ _ _ => ?_) ?_
    | with_reducible refine foldl_kfst (fun _ _ _ => ?_) ?_
    | with_reducible refine foldl_ksnd (fun _ _ _ => ?_) ?_
    | subst x
    | with_reducible split
    | dsimp only

theorem State.mirrorFault_keeps {am : Nat} {s₀ : State} {s : State} {gone : Nat → Bool} {engine : Bool} (ha : Sub 268435456 am) (hs : Keeps am s₀ s) : Keeps am s₀ (State.mirrorFault s gone engine) := by
  unfold State.mirrorFault
  repeat' first
    | with_reducible assumption
    | exact sub_of ha rfl
    | with_reducible refine keepsOut_next ?_
    | (lift_lets; intro x; refine (fun (hx : Keeps am s₀ x) => ?_) ?_; clear_value x)
    | (intro x; subst x)
    | with_reducible refine State.withHost_keeps ?_ ?_
    | with_reducible refine ite_keeps (fun _ => ?_) (fun _ => ?_)
    | with_reducible refine iteOut_keeps (fun _ => ?_) (fun _ => ?_)
    | with_reducible refine foldl_keeps (fun _ _ _ => ?_) ?_
    | with_reducible refine foldl_kfst (fun _ _ _ => ?_) ?_
    | with_reducible refine foldl_ksnd (fun _ _ _ => ?_) ?_
    | subst x
    | with_reducible split
    | dsimp only

theorem State.fenceStack_keeps {am : Nat} {s₀ : State} {s : State} {k : Nat} {cause : Nat} (ha : Sub 301990256 am) (hs : Keeps am s₀ s) : Keeps am s₀ (State.fenceStack s k cause) := by
  unfold State.fenceStack
  repeat' first
    | with_reducible assumption
    | exact sub_of ha rfl
    | with_reducible refine keepsOut_next ?_
    | (lift_lets; intro x; refine (fun (hx : Keeps am s₀ x) => ?_) ?_; clear_value x)
    | (intro x; subst x)
    | with_reducible refine State.fenceUnit_keeps ?_ ?_
    | with_reducible refine State.mirrorFault_keeps ?_ ?_
    | with_reducible refine ite_keeps (fun _ => ?_) (fun _ => ?_)
    | with_reducible refine iteOut_keeps (fun _ => ?_) (fun _ => ?_)
    | with_reducible refine foldl_keeps (fun _ _ _ => ?_) ?_
    | with_reducible refine foldl_kfst (fun _ _ _ => ?_) ?_
    | with_reducible refine foldl_ksnd (fun _ _ _ => ?_) ?_
    | subst x
    | with_reducible split
    | dsimp only

theorem State.fenceChan_keeps {am : Nat} {s₀ : State} {s : State} {k : Nat} {ch : Nat} {cause : Nat} (ha : Sub 301990256 am) (hs : Keeps am s₀ s) : Keeps am s₀ (State.fenceChan s k ch cause) := by
  unfold State.fenceChan
  repeat' first
    | with_reducible assumption
    | exact sub_of ha rfl
    | with_reducible refine keepsOut_next ?_
    | (lift_lets; intro x; refine (fun (hx : Keeps am s₀ x) => ?_) ?_; clear_value x)
    | (intro x; subst x)
    | with_reducible refine State.fenceStack_keeps ?_ ?_
    | with_reducible refine State.fenceUnit_keeps ?_ ?_
    | with_reducible refine State.setFld_keeps ?_ ?_
    | with_reducible refine ite_keeps (fun _ => ?_) (fun _ => ?_)
    | with_reducible refine iteOut_keeps (fun _ => ?_) (fun _ => ?_)
    | with_reducible refine foldl_keeps (fun _ _ _ => ?_) ?_
    | with_reducible refine foldl_kfst (fun _ _ _ => ?_) ?_
    | with_reducible refine foldl_ksnd (fun _ _ _ => ?_) ?_
    | subst x
    | with_reducible split
    | dsimp only

theorem State.fenceLp_keeps {am : Nat} {s₀ : State} {s : State} {k : Nat} {cause : Nat} (ha : Sub 33554800 am) (hs : Keeps am s₀ s) : Keeps am s₀ (State.fenceLp s k cause) := by
  unfold State.fenceLp
  repeat' first
    | with_reducible assumption
    | exact sub_of ha rfl
    | with_reducible refine keepsOut_next ?_
    | (lift_lets; intro x; refine (fun (hx : Keeps am s₀ x) => ?_) ?_; clear_value x)
    | (intro x; subst x)
    | with_reducible refine State.fenceUnit_keeps ?_ ?_
    | with_reducible refine State.setReg_keeps ?_ ?_
    | with_reducible refine ite_keeps (fun _ => ?_) (fun _ => ?_)
    | with_reducible refine iteOut_keeps (fun _ => ?_) (fun _ => ?_)
    | with_reducible refine foldl_keeps (fun _ _ _ => ?_) ?_
    | with_reducible refine foldl_kfst (fun _ _ _ => ?_) ?_
    | with_reducible refine foldl_ksnd (fun _ _ _ => ?_) ?_
    | subst x
    | with_reducible split
    | dsimp only

theorem State.ueStamp_keeps {am : Nat} {s₀ : State} {s : State} {d : Nat} {key : Nat} (ha : Sub 33554704 am) (hs : Keeps am s₀ s) : Keeps am s₀ (State.ueStamp s d key).1 := by
  unfold State.ueStamp
  repeat' first
    | with_reducible assumption
    | exact sub_of ha rfl
    | with_reducible refine keepsOut_next ?_
    | (lift_lets; intro x; refine (fun (hx : Keeps am s₀ x) => ?_) ?_; clear_value x)
    | (intro x; subst x)
    | with_reducible refine State.putUnit_keeps ?_ ?_
    | with_reducible refine ite_keeps (fun _ => ?_) (fun _ => ?_)
    | with_reducible refine iteOut_keeps (fun _ => ?_) (fun _ => ?_)
    | with_reducible refine foldl_keeps (fun _ _ _ => ?_) ?_
    | with_reducible refine foldl_kfst (fun _ _ _ => ?_) ?_
    | with_reducible refine foldl_ksnd (fun _ _ _ => ?_) ?_
    | subst x
    | with_reducible split
    | dsimp only

theorem State.ueStamp_keeps_eq {am : Nat} {s₀ : State} {s : State} {d : Nat} {key : Nat} {rr} (ha : Sub 33554704 am) (he : State.ueStamp s d key = rr) (hs : Keeps am s₀ s) : Keeps am s₀ rr.1 := he ▸ State.ueStamp_keeps ha hs

theorem State.lineUe_keeps {am : Nat} {s₀ : State} {s : State} {u : Nat} {moff : Nat} {ch : Nat} {addr : W64} (ha : Sub 302252400 am) (hs : Keeps am s₀ s) : Keeps am s₀ (State.lineUe s u moff ch addr) := by
  unfold State.lineUe
  repeat' first
    | with_reducible assumption
    | exact sub_of ha rfl
    | with_reducible refine keepsOut_next ?_
    | (lift_lets; intro x; refine (fun (hx : Keeps am s₀ x) => ?_) ?_; clear_value x)
    | (intro x; subst x)
    | with_reducible refine State.addFld_keeps ?_ ?_
    | with_reducible refine State.event_keeps ?_ ?_
    | with_reducible refine State.fenceChan_keeps ?_ ?_
    | with_reducible refine State.fenceLp_keeps ?_ ?_
    | with_reducible refine State.setLine_keeps ?_ ?_
    | with_reducible refine State.setPoison_keeps ?_ ?_
    | with_reducible refine State.ueStamp_keeps ?_ ?_
    | with_reducible refine State.ueStamp_keeps_eq ?_ (by with_reducible assumption) ?_
    | with_reducible refine ite_keeps (fun _ => ?_) (fun _ => ?_)
    | with_reducible refine iteOut_keeps (fun _ => ?_) (fun _ => ?_)
    | with_reducible refine foldl_keeps (fun _ _ _ => ?_) ?_
    | with_reducible refine foldl_kfst (fun _ _ _ => ?_) ?_
    | with_reducible refine foldl_ksnd (fun _ _ _ => ?_) ?_
    | subst x
    | with_reducible split
    | dsimp only

theorem State.lineCe_keeps {am : Nat} {s₀ : State} {s : State} {u : Nat} (ha : Sub 16 am) (hs : Keeps am s₀ s) : Keeps am s₀ (State.lineCe s u) := by
  unfold State.lineCe
  repeat' first
    | with_reducible assumption
    | exact sub_of ha rfl
    | with_reducible refine keepsOut_next ?_
    | (lift_lets; intro x; refine (fun (hx : Keeps am s₀ x) => ?_) ?_; clear_value x)
    | (intro x; subst x)
    | with_reducible refine State.addFld_keeps ?_ ?_
    | with_reducible refine ite_keeps (fun _ => ?_) (fun _ => ?_)
    | with_reducible refine iteOut_keeps (fun _ => ?_) (fun _ => ?_)
    | with_reducible refine foldl_keeps (fun _ _ _ => ?_) ?_
    | with_reducible refine foldl_kfst (fun _ _ _ => ?_) ?_
    | with_reducible refine foldl_ksnd (fun _ _ _ => ?_) ?_
    | subst x
    | with_reducible split
    | dsimp only

theorem State.pushTiles_keeps {am : Nat} {s₀ : State} {s : State} {c : Nat} {slot : Nat} {l : List TileCmd} (ha : Sub 2048 am) (hs : Keeps am s₀ s) : Keeps am s₀ (State.pushTiles s c slot l) := by
  unfold State.pushTiles
  repeat' first
    | with_reducible assumption
    | exact sub_of ha rfl
    | with_reducible refine keepsOut_next ?_
    | (lift_lets; intro x; refine (fun (hx : Keeps am s₀ x) => ?_) ?_; clear_value x)
    | (intro x; subst x)
    | with_reducible refine State.setClu_keeps ?_ ?_
    | with_reducible refine ite_keeps (fun _ => ?_) (fun _ => ?_)
    | with_reducible refine iteOut_keeps (fun _ => ?_) (fun _ => ?_)
    | with_reducible refine foldl_keeps (fun _ _ _ => ?_) ?_
    | with_reducible refine foldl_kfst (fun _ _ _ => ?_) ?_
    | with_reducible refine foldl_ksnd (fun _ _ _ => ?_) ?_
    | subst x
    | with_reducible split
    | dsimp only

theorem execTissue_keeps {am : Nat} {s₀ : State} {c : ClusterNo} {rd : Gpr} {rs1 : Gpr} {rs2 : Gpr} {s : State} (ha : Sub 2560 am) (hs : Keeps am s₀ s) : KeepsOut am s₀ (execTissue c rd rs1 rs2 s) := by
  unfold execTissue
  repeat' first
    | with_reducible assumption
    | exact sub_of ha rfl
    | with_reducible refine keepsOut_next ?_
    | (lift_lets; intro x; refine (fun (hx : Keeps am s₀ x) => ?_) ?_; clear_value x)
    | (intro x; subst x)
    | with_reducible refine State.newWork_keeps ?_ ?_ ?_
    | with_reducible refine State.pushTiles_keeps ?_ ?_
    | with_reducible refine State.retSt_keeps ?_ ?_
    | with_reducible refine ite_keeps (fun _ => ?_) (fun _ => ?_)
    | with_reducible refine iteOut_keeps (fun _ => ?_) (fun _ => ?_)
    | with_reducible refine foldl_keeps (fun _ _ _ => ?_) ?_
    | with_reducible refine foldl_kfst (fun _ _ _ => ?_) ?_
    | with_reducible refine foldl_ksnd (fun _ _ _ => ?_) ?_
    | subst x
    | with_reducible split
    | dsimp only

theorem execTpair_keeps {am : Nat} {s₀ : State} {c : ClusterNo} {rd : Gpr} {rs1 : Gpr} {rs2 : Gpr} {s : State} (ha : Sub 2560 am) (hs : Keeps am s₀ s) : KeepsOut am s₀ (execTpair c rd rs1 rs2 s) := by
  unfold execTpair
  repeat' first
    | with_reducible assumption
    | exact sub_of ha rfl
    | with_reducible refine keepsOut_next ?_
    | (lift_lets; intro x; refine (fun (hx : Keeps am s₀ x) => ?_) ?_; clear_value x)
    | (intro x; subst x)
    | with_reducible refine State.newWork_keeps ?_ ?_ ?_
    | with_reducible refine State.pushTiles_keeps ?_ ?_
    | with_reducible refine State.retSt_keeps ?_ ?_
    | with_reducible refine ite_keeps (fun _ => ?_) (fun _ => ?_)
    | with_reducible refine iteOut_keeps (fun _ => ?_) (fun _ => ?_)
    | with_reducible refine foldl_keeps (fun _ _ _ => ?_) ?_
    | with_reducible refine foldl_kfst (fun _ _ _ => ?_) ?_
    | with_reducible refine foldl_ksnd (fun _ _ _ => ?_) ?_
    | subst x
    | with_reducible split
    | dsimp only

theorem State.setBank_keeps {am : Nat} {s₀ : State} {s : State} {e : Nat} {b : Nat} {m : KMap W32} (ha : Sub 4096 am) (hs : Keeps am s₀ s) : Keeps am s₀ (State.setBank s e b m) := by
  unfold State.setBank
  repeat' first
    | with_reducible assumption
    | exact sub_of ha rfl
    | with_reducible refine keepsOut_next ?_
    | (lift_lets; intro x; refine (fun (hx : Keeps am s₀ x) => ?_) ?_; clear_value x)
    | (intro x; subst x)
    | with_reducible refine State.withBanks_keeps ?_ ?_
    | with_reducible refine ite_keeps (fun _ => ?_) (fun _ => ?_)
    | with_reducible refine iteOut_keeps (fun _ => ?_) (fun _ => ?_)
    | with_reducible refine foldl_keeps (fun _ _ _ => ?_) ?_
    | with_reducible refine foldl_kfst (fun _ _ _ => ?_) ?_
    | with_reducible refine foldl_ksnd (fun _ _ _ => ?_) ?_
    | subst x
    | with_reducible split
    | dsimp only

theorem State.putRuns_keeps {am : Nat} {s₀ : State} {s : State} {e : Nat} {l : List TileRun} (ha : Sub 8192 am) (hs : Keeps am s₀ s) : Keeps am s₀ (State.putRuns s e l) := by
  unfold State.putRuns
  repeat' first
    | with_reducible assumption
    | exact sub_of ha rfl
    | with_reducible refine keepsOut_next ?_
    | (lift_lets; intro x; refine (fun (hx : Keeps am s₀ x) => ?_) ?_; clear_value x)
    | (intro x; subst x)
    | with_reducible refine State.setMxe_keeps ?_ ?_
    | with_reducible refine ite_keeps (fun _ => ?_) (fun _ => ?_)
    | with_reducible refine iteOut_keeps (fun _ => ?_) (fun _ => ?_)
    | with_reducible refine foldl_keeps (fun _ _ _ => ?_) ?_
    | with_reducible refine foldl_kfst (fun _ _ _ => ?_) ?_
    | with_reducible refine foldl_ksnd (fun _ _ _ => ?_) ?_
    | subst x
    | with_reducible split
    | dsimp only

theorem State.replaceRun_keeps {am : Nat} {s₀ : State} {s : State} {r : TileRun} {r1 : TileRun} (ha : Sub 8192 am) (hs : Keeps am s₀ s) : Keeps am s₀ (State.replaceRun s r r1) := by
  unfold State.replaceRun
  repeat' first
    | with_reducible assumption
    | exact sub_of ha rfl
    | with_reducible refine keepsOut_next ?_
    | (lift_lets; intro x; refine (fun (hx : Keeps am s₀ x) => ?_) ?_; clear_value x)
    | (intro x; subst x)
    | with_reducible refine State.putRuns_keeps ?_ ?_
    | with_reducible refine ite_keeps (fun _ => ?_) (fun _ => ?_)
    | with_reducible refine iteOut_keeps (fun _ => ?_) (fun _ => ?_)
    | with_reducible refine foldl_keeps (fun _ _ _ => ?_) ?_
    | with_reducible refine foldl_kfst (fun _ _ _ => ?_) ?_
    | with_reducible refine foldl_ksnd (fun _ _ _ => ?_) ?_
    | subst x
    | with_reducible split
    | dsimp only

theorem State.takeEntry_keeps {am : Nat} {s₀ : State} {s : State} {r : TileRun} (ha : Sub 8208 am) (hs : Keeps am s₀ s) : Keeps am s₀ (State.takeEntry s r) := by
  unfold State.takeEntry
  repeat' first
    | with_reducible assumption
    | exact sub_of ha rfl
    | with_reducible refine keepsOut_next ?_
    | (lift_lets; intro x; refine (fun (hx : Keeps am s₀ x) => ?_) ?_; clear_value x)
    | (intro x; subst x)
    | with_reducible refine State.replaceRun_keeps ?_ ?_
    | with_reducible refine State.setMxe_keeps ?_ ?_
    | with_reducible refine State.showMxe_keeps ?_ ?_
    | with_reducible refine ite_keeps (fun _ => ?_) (fun _ => ?_)
    | with_reducible refine iteOut_keeps (fun _ => ?_) (fun _ => ?_)
    | with_reducible refine foldl_keeps (fun _ _ _ => ?_) ?_
    | with_reducible refine foldl_kfst (fun _ _ _ => ?_) ?_
    | with_reducible refine foldl_ksnd (fun _ _ _ => ?_) ?_
    | subst x
    | with_reducible split
    | dsimp only

theorem execTileDrainStart_keeps {am : Nat} {s₀ : State} {e : MxeNo} {s : State} (ha : Sub 8208 am) (hs : Keeps am s₀ s) : KeepsOut am s₀ (execTileDrainStart e s) := by
  unfold execTileDrainStart
  repeat' first
    | with_reducible assumption
    | exact sub_of ha rfl
    | with_reducible refine keepsOut_next ?_
    | (lift_lets; intro x; refine (fun (hx : Keeps am s₀ x) => ?_) ?_; clear_value x)
    | (intro x; subst x)
    | with_reducible refine State.replaceRun_keeps ?_ ?_
    | with_reducible refine State.takeEntry_keeps ?_ ?_
    | with_reducible refine ite_keeps (fun _ => ?_) (fun _ => ?_)
    | with_reducible refine iteOut_keeps (fun _ => ?_) (fun _ => ?_)
    | with_reducible refine foldl_keeps (fun _ _ _ => ?_) ?_
    | with_reducible refine foldl_kfst (fun _ _ _ => ?_) ?_
    | with_reducible refine foldl_ksnd (fun _ _ _ => ?_) ?_
    | subst x
    | with_reducible split
    | dsimp only

theorem execIssueCapWindow_keeps {am : Nat} {s₀ : State} {e : MxeNo} {s : State} (ha : Sub 16 am) (hs : Keeps am s₀ s) : KeepsOut am s₀ (execIssueCapWindow e s) := by
  unfold execIssueCapWindow
  repeat' first
    | with_reducible assumption
    | exact sub_of ha rfl
    | with_reducible refine keepsOut_next ?_
    | (lift_lets; intro x; refine (fun (hx : Keeps am s₀ x) => ?_) ?_; clear_value x)
    | (intro x; subst x)
    | with_reducible refine State.setFld_keeps ?_ ?_
    | with_reducible refine ite_keeps (fun _ => ?_) (fun _ => ?_)
    | with_reducible refine iteOut_keeps (fun _ => ?_) (fun _ => ?_)
    | with_reducible refine foldl_keeps (fun _ _ _ => ?_) ?_
    | with_reducible refine foldl_kfst (fun _ _ _ => ?_) ?_
    | with_reducible refine foldl_ksnd (fun _ _ _ => ?_) ?_
    | subst x
    | with_reducible split
    | dsimp only

theorem execStrikeWindowExpire_keeps {am : Nat} {s₀ : State} {e : MxeNo} {s : State} (ha : Sub 16 am) (hs : Keeps am s₀ s) : KeepsOut am s₀ (execStrikeWindowExpire e s) := by
  unfold execStrikeWindowExpire
  repeat' first
    | with_reducible assumption
    | exact sub_of ha rfl
    | with_reducible refine keepsOut_next ?_
    | (lift_lets; intro x; refine (fun (hx : Keeps am s₀ x) => ?_) ?_; clear_value x)
    | (intro x; subst x)
    | with_reducible refine State.showStrikes_keeps ?_ ?_
    | with_reducible refine ite_keeps (fun _ => ?_) (fun _ => ?_)
    | with_reducible refine iteOut_keeps (fun _ => ?_) (fun _ => ?_)
    | with_reducible refine foldl_keeps (fun _ _ _ => ?_) ?_
    | with_reducible refine foldl_kfst (fun _ _ _ => ?_) ?_
    | with_reducible refine foldl_ksnd (fun _ _ _ => ?_) ?_
    | subst x
    | with_reducible split
    | dsimp only

theorem execMxeFence_keeps {am : Nat} {s₀ : State} {e : MxeNo} {s : State} (ha : Sub 33565040 am) (hs : Keeps am s₀ s) : KeepsOut am s₀ (execMxeFence e s) := by
  unfold execMxeFence
  repeat' first
    | with_reducible assumption
    | exact sub_of ha rfl
    | with_reducible refine keepsOut_next ?_
    | (lift_lets; intro x; refine (fun (hx : Keeps am s₀ x) => ?_) ?_; clear_value x)
    | (intro x; subst x)
    | with_reducible refine State.fenceMxe_keeps ?_ ?_
    | with_reducible refine ite_keeps (fun _ => ?_) (fun _ => ?_)
    | with_reducible refine iteOut_keeps (fun _ => ?_) (fun _ => ?_)
    | with_reducible refine foldl_keeps (fun _ _ _ => ?_) ?_
    | with_reducible refine foldl_kfst (fun _ _ _ => ?_) ?_
    | with_reducible refine foldl_ksnd (fun _ _ _ => ?_) ?_
    | subst x
    | with_reducible split
    | dsimp only

theorem execMxeSelftest_keeps {am : Nat} {s₀ : State} {e : MxeNo} {s : State} (ha : Sub 48 am) (hs : Keeps am s₀ s) : KeepsOut am s₀ (execMxeSelftest e s) := by
  unfold execMxeSelftest
  repeat' first
    | with_reducible assumption
    | exact sub_of ha rfl
    | with_reducible refine keepsOut_next ?_
    | (lift_lets; intro x; refine (fun (hx : Keeps am s₀ x) => ?_) ?_; clear_value x)
    | (intro x; subst x)
    | with_reducible refine State.startSelftest_keeps ?_ ?_
    | with_reducible refine ite_keeps (fun _ => ?_) (fun _ => ?_)
    | with_reducible refine iteOut_keeps (fun _ => ?_) (fun _ => ?_)
    | with_reducible refine foldl_keeps (fun _ _ _ => ?_) ?_
    | with_reducible refine foldl_kfst (fun _ _ _ => ?_) ?_
    | with_reducible refine foldl_ksnd (fun _ _ _ => ?_) ?_
    | subst x
    | with_reducible split
    | dsimp only

theorem execMxeSelftestDone_keeps {am : Nat} {s₀ : State} {e : MxeNo} {pass : Bool} {s : State} (ha : Sub 16 am) (hs : Keeps am s₀ s) : KeepsOut am s₀ (execMxeSelftestDone e pass s) := by
  unfold execMxeSelftestDone
  repeat' first
    | with_reducible assumption
    | exact sub_of ha rfl
    | with_reducible refine keepsOut_next ?_
    | (lift_lets; intro x; refine (fun (hx : Keeps am s₀ x) => ?_) ?_; clear_value x)
    | (intro x; subst x)
    | with_reducible refine State.endSelftest_keeps ?_ ?_
    | with_reducible refine ite_keeps (fun _ => ?_) (fun _ => ?_)
    | with_reducible refine iteOut_keeps (fun _ => ?_) (fun _ => ?_)
    | with_reducible refine foldl_keeps (fun _ _ _ => ?_) ?_
    | with_reducible refine foldl_kfst (fun _ _ _ => ?_) ?_
    | with_reducible refine foldl_ksnd (fun _ _ _ => ?_) ?_
    | subst x
    | with_reducible split
    | dsimp only

theorem execMxeReadmit_keeps {am : Nat} {s₀ : State} {e : MxeNo} {s : State} (ha : Sub 33554736 am) (hs : Keeps am s₀ s) : KeepsOut am s₀ (execMxeReadmit e s) := by
  unfold execMxeReadmit
  repeat' first
    | with_reducible assumption
    | exact sub_of ha rfl
    | with_reducible refine keepsOut_next ?_
    | (lift_lets; intro x; refine (fun (hx : Keeps am s₀ x) => ?_) ?_; clear_value x)
    | (intro x; subst x)
    | with_reducible refine State.readmit_keeps ?_ ?_
    | with_reducible refine State.showMxe_keeps ?_ ?_
    | with_reducible refine State.showStrikes_keeps ?_ ?_
    | with_reducible refine ite_keeps (fun _ => ?_) (fun _ => ?_)
    | with_reducible refine iteOut_keeps (fun _ => ?_) (fun _ => ?_)
    | with_reducible refine foldl_keeps (fun _ _ _ => ?_) ?_
    | with_reducible refine foldl_kfst (fun _ _ _ => ?_) ?_
    | with_reducible refine foldl_ksnd (fun _ _ _ => ?_) ?_
    | subst x
    | with_reducible split
    | dsimp only

theorem State.readClear_keeps {am : Nat} {s₀ : State} {s : State} {k : Nat} {m : W64} (ha : Sub 20 am) (hs : Keeps am s₀ s) : Keeps am s₀ (State.readClear s k m) := by
  unfold State.readClear
  repeat' first
    | with_reducible assumption
    | exact sub_of ha rfl
    | with_reducible refine keepsOut_next ?_
    | (lift_lets; intro x; refine (fun (hx : Keeps am s₀ x) => ?_) ?_; clear_value x)
    | (intro x; subst x)
    | with_reducible refine State.out_keeps ?_ ?_
    | with_reducible refine State.setReg_keeps ?_ ?_
    | with_reducible refine ite_keeps (fun _ => ?_) (fun _ => ?_)
    | with_reducible refine iteOut_keeps (fun _ => ?_) (fun _ => ?_)
    | with_reducible refine foldl_keeps (fun _ _ _ => ?_) ?_
    | with_reducible refine foldl_kfst (fun _ _ _ => ?_) ?_
    | with_reducible refine foldl_ksnd (fun _ _ _ => ?_) ?_
    | subst x
    | with_reducible split
    | dsimp only

theorem execMxeChkRead_keeps {am : Nat} {s₀ : State} {e : MxeNo} {s : State} (ha : Sub 20 am) (hs : Keeps am s₀ s) : KeepsOut am s₀ (execMxeChkRead e s) := by
  unfold execMxeChkRead
  repeat' first
    | with_reducible assumption
    | exact sub_of ha rfl
    | with_reducible refine keepsOut_next ?_
    | (lift_lets; intro x; refine (fun (hx : Keeps am s₀ x) => ?_) ?_; clear_value x)
    | (intro x; subst x)
    | with_reducible refine State.readClear_keeps ?_ ?_
    | with_reducible refine ite_keeps (fun _ => ?_) (fun _ => ?_)
    | with_reducible refine iteOut_keeps (fun _ => ?_) (fun _ => ?_)
    | with_reducible refine foldl_keeps (fun _ _ _ => ?_) ?_
    | with_reducible refine foldl_kfst (fun _ _ _ => ?_) ?_
    | with_reducible refine foldl_ksnd (fun _ _ _ => ?_) ?_
    | subst x
    | with_reducible split
    | dsimp only

theorem execMxePerfRead_keeps {am : Nat} {s₀ : State} {e : MxeNo} {s : State} (ha : Sub 65556 am) (hs : Keeps am s₀ s) : KeepsOut am s₀ (execMxePerfRead e s) := by
  unfold execMxePerfRead
  repeat' first
    | with_reducible assumption
    | exact sub_of ha rfl
    | with_reducible refine keepsOut_next ?_
    | (lift_lets; intro x; refine (fun (hx : Keeps am s₀ x) => ?_) ?_; clear_value x)
    | (intro x; subst x)
    | with_reducible refine State.out_keeps ?_ ?_
    | with_reducible refine State.setReg_keeps ?_ ?_
    | with_reducible refine State.withWork_keeps ?_ ?_
    | with_reducible refine ite_keeps (fun _ => ?_) (fun _ => ?_)
    | with_reducible refine iteOut_keeps (fun _ => ?_) (fun _ => ?_)
    | with_reducible refine foldl_keeps (fun _ _ _ => ?_) ?_
    | with_reducible refine foldl_kfst (fun _ _ _ => ?_) ?_
    | with_reducible refine foldl_ksnd (fun _ _ _ => ?_) ?_
    | subst x
    | with_reducible split
    | dsimp only

theorem State.branchTo_keeps {am : Nat} {s₀ : State} {s : State} {c : Nat} {off : W64} (ha : Sub 512 am) (hs : Keeps am s₀ s) : Keeps am s₀ (State.branchTo s c off) := by
  unfold State.branchTo
  repeat' first
    | with_reducible assumption
    | exact sub_of ha rfl
    | with_reducible refine keepsOut_next ?_
    | (lift_lets; intro x; refine (fun (hx : Keeps am s₀ x) => ?_) ?_; clear_value x)
    | (intro x; subst x)
    | with_reducible refine State.setPc_keeps ?_ ?_
    | with_reducible refine ite_keeps (fun _ => ?_) (fun _ => ?_)
    | with_reducible refine iteOut_keeps (fun _ => ?_) (fun _ => ?_)
    | with_reducible refine foldl_keeps (fun _ _ _ => ?_) ?_
    | with_reducible refine foldl_kfst (fun _ _ _ => ?_) ?_
    | with_reducible refine foldl_ksnd (fun _ _ _ => ?_) ?_
    | subst x
    | with_reducible split
    | dsimp only

theorem State.scalarStep_keeps {am : Nat} {s₀ : State} (s : State) (c : Nat) (rd : Nat) (why : Why) (ha : Sub 2560 am) (hs : Keeps am s₀ s) : KeepsOpt am s₀ (fun r => r) (State.scalarStep s c rd why) := by
  unfold State.scalarStep
  repeat' first
    | with_reducible assumption
    | with_reducible refine keepsOpt_some ?_
    | with_reducible refine keepsOpt_none
    | exact sub_of ha rfl
    | with_reducible refine keepsOut_next ?_
    | (lift_lets; intro x; refine (fun (hx : Keeps am s₀ x) => ?_) ?_; clear_value x)
    | (intro x; subst x)
    | with_reducible refine State.branchTo_keeps ?_ ?_
    | with_reducible refine State.nextPc_keeps ?_ ?_
    | with_reducible refine State.ret_keeps ?_ ?_
    | with_reducible refine State.retSt_keeps ?_ ?_
    | with_reducible refine State.setChains_keeps ?_ ?_
    | with_reducible refine State.setClu_keeps ?_ ?_
    | with_reducible refine State.setScalar_keeps ?_ ?_
    | with_reducible refine iteOpt_keeps (fun _ => ?_) (fun _ => ?_)
    | with_reducible refine ite_keeps (fun _ => ?_) (fun _ => ?_)
    | with_reducible refine iteOut_keeps (fun _ => ?_) (fun _ => ?_)
    | with_reducible refine foldl_keeps (fun _ _ _ => ?_) ?_
    | with_reducible refine foldl_kfst (fun _ _ _ => ?_) ?_
    | with_reducible refine foldl_ksnd (fun _ _ _ => ?_) ?_
    | subst x
    | with_reducible split
    | dsimp only

theorem State.scalarStep_keeps_eq {am : Nat} {s₀ : State} {s : State} {c : Nat} {rd : Nat} {why : Why} {rr} (ha : Sub 2560 am) (he : State.scalarStep s c rd why = some rr) (hs : Keeps am s₀ s) : Keeps am s₀ rr := State.scalarStep_keeps s c rd why ha hs rr he

theorem State.scalarRun_keeps {am : Nat} {s₀ : State} {s : State} {c : Nat} {rd : Nat} {why : Why} (ha : Sub 33556992 am) (hs : Keeps am s₀ s) : Keeps am s₀ (State.scalarRun s c rd why) := by
  unfold State.scalarRun
  repeat' first
    | with_reducible assumption
    | exact sub_of ha rfl
    | with_reducible refine keepsOut_next ?_
    | (lift_lets; intro x; refine (fun (hx : Keeps am s₀ x) => ?_) ?_; clear_value x)
    | (intro x; subst x)
    | with_reducible refine State.wait_keeps ?_ ?_
    | with_reducible refine State.scalarStep_keeps_eq ?_ (by with_reducible assumption) ?_
    | with_reducible refine ite_keeps (fun _ => ?_) (fun _ => ?_)
    | with_reducible refine iteOut_keeps (fun _ => ?_) (fun _ => ?_)
    | with_reducible refine foldl_keeps (fun _ _ _ => ?_) ?_
    | with_reducible refine foldl_kfst (fun _ _ _ => ?_) ?_
    | with_reducible refine foldl_ksnd (fun _ _ _ => ?_) ?_
    | subst x
    | with_reducible split
    | dsimp only

theorem execCissue_keeps {am : Nat} {s₀ : State} {c : ClusterNo} {rd : Gpr} {rs1 : Gpr} {rs2 : Gpr} {s : State} (ha : Sub 33556992 am) (hs : Keeps am s₀ s) : KeepsOut am s₀ (execCissue c rd rs1 rs2 s) := by
  unfold execCissue
  repeat' first
    | with_reducible assumption
    | exact sub_of ha rfl
    | with_reducible refine keepsOut_next ?_
    | (lift_lets; intro x; refine (fun (hx : Keeps am s₀ x) => ?_) ?_; clear_value x)
    | (intro x; subst x)
    | with_reducible refine State.newWork_keeps ?_ ?_ ?_
    | with_reducible refine State.scalarRun_keeps ?_ ?_
    | with_reducible refine ite_keeps (fun _ => ?_) (fun _ => ?_)
    | with_reducible refine iteOut_keeps (fun _ => ?_) (fun _ => ?_)
    | with_reducible refine foldl_keeps (fun _ _ _ => ?_) ?_
    | with_reducible refine foldl_kfst (fun _ _ _ => ?_) ?_
    | with_reducible refine foldl_ksnd (fun _ _ _ => ?_) ?_
    | subst x
    | with_reducible split
    | dsimp only

theorem execSmovS_keeps {am : Nat} {s₀ : State} {c : ClusterNo} {sd : Fin 64} {rs1 : Gpr} {s : State} (ha : Sub 33556992 am) (hs : Keeps am s₀ s) : KeepsOut am s₀ (execSmovS c sd rs1 s) := by
  unfold execSmovS
  repeat' first
    | with_reducible assumption
    | exact sub_of ha rfl
    | with_reducible refine keepsOut_next ?_
    | (lift_lets; intro x; refine (fun (hx : Keeps am s₀ x) => ?_) ?_; clear_value x)
    | (intro x; subst x)
    | with_reducible refine State.scalarRun_keeps ?_ ?_
    | with_reducible refine ite_keeps (fun _ => ?_) (fun _ => ?_)
    | with_reducible refine iteOut_keeps (fun _ => ?_) (fun _ => ?_)
    | with_reducible refine foldl_keeps (fun _ _ _ => ?_) ?_
    | with_reducible refine foldl_kfst (fun _ _ _ => ?_) ?_
    | with_reducible refine foldl_ksnd (fun _ _ _ => ?_) ?_
    | subst x
    | with_reducible split
    | dsimp only

theorem execSmovG_keeps {am : Nat} {s₀ : State} {c : ClusterNo} {rd : Gpr} {ss : Fin 64} {s : State} (ha : Sub 33556992 am) (hs : Keeps am s₀ s) : KeepsOut am s₀ (execSmovG c rd ss s) := by
  unfold execSmovG
  repeat' first
    | with_reducible assumption
    | exact sub_of ha rfl
    | with_reducible refine keepsOut_next ?_
    | (lift_lets; intro x; refine (fun (hx : Keeps am s₀ x) => ?_) ?_; clear_value x)
    | (intro x; subst x)
    | with_reducible refine State.scalarRun_keeps ?_ ?_
    | with_reducible refine ite_keeps (fun _ => ?_) (fun _ => ?_)
    | with_reducible refine iteOut_keeps (fun _ => ?_) (fun _ => ?_)
    | with_reducible refine foldl_keeps (fun _ _ _ => ?_) ?_
    | with_reducible refine foldl_kfst (fun _ _ _ => ?_) ?_
    | with_reducible refine foldl_ksnd (fun _ _ _ => ?_) ?_
    | subst x
    | with_reducible split
    | dsimp only

theorem execBs_keeps {am : Nat} {s₀ : State} {c : ClusterNo} {cond : Cond} {uns : Bool} {s1 : Fin 64} {s2 : Fin 64} {off : BitVec 9} {s : State} (ha : Sub 33556992 am) (hs : Keeps am s₀ s) : KeepsOut am s₀ (execBs c cond uns s1 s2 off s) := by
  unfold execBs
  repeat' first
    | with_reducible assumption
    | exact sub_of ha rfl
    | with_reducible refine keepsOut_next ?_
    | (lift_lets; intro x; refine (fun (hx : Keeps am s₀ x) => ?_) ?_; clear_value x)
    | (intro x; subst x)
    | with_reducible refine State.scalarRun_keeps ?_ ?_
    | with_reducible refine ite_keeps (fun _ => ?_) (fun _ => ?_)
    | with_reducible refine iteOut_keeps (fun _ => ?_) (fun _ => ?_)
    | with_reducible refine foldl_keeps (fun _ _ _ => ?_) ?_
    | with_reducible refine foldl_kfst (fun _ _ _ => ?_) ?_
    | with_reducible refine foldl_ksnd (fun _ _ _ => ?_) ?_
    | subst x
    | with_reducible split
    | dsimp only

theorem State.popRing_keeps {am : Nat} {s₀ : State} {s : State} {c : Nat} {rd : Nat} {r : RingRec} {rest : List RingRec} (ha : Sub 2560 am) (hs : Keeps am s₀ s) : Keeps am s₀ (State.popRing s c rd r rest) := by
  unfold State.popRing
  repeat' first
    | with_reducible assumption
    | exact sub_of ha rfl
    | with_reducible refine keepsOut_next ?_
    | (lift_lets; intro x; refine (fun (hx : Keeps am s₀ x) => ?_) ?_; clear_value x)
    | (intro x; subst x)
    | with_reducible refine State.nextPc_keeps ?_ ?_
    | with_reducible refine State.setClu_keeps ?_ ?_
    | with_reducible refine State.setG_keeps ?_ ?_
    | with_reducible refine ite_keeps (fun _ => ?_) (fun _ => ?_)
    | with_reducible refine iteOut_keeps (fun _ => ?_) (fun _ => ?_)
    | with_reducible refine foldl_keeps (fun _ _ _ => ?_) ?_
    | with_reducible refine foldl_kfst (fun _ _ _ => ?_) ?_
    | with_reducible refine foldl_ksnd (fun _ _ _ => ?_) ?_
    | subst x
    | with_reducible split
    | dsimp only

theorem execCpop_keeps {am : Nat} {s₀ : State} {c : ClusterNo} {rd : Gpr} {s : State} (ha : Sub 33557040 am) (hs : Keeps am s₀ s) : KeepsOut am s₀ (execCpop c rd s) := by
  unfold execCpop
  repeat' first
    | with_reducible assumption
    | exact sub_of ha rfl
    | with_reducible refine keepsOut_next ?_
    | (lift_lets; intro x; refine (fun (hx : Keeps am s₀ x) => ?_) ?_; clear_value x)
    | (intro x; subst x)
    | with_reducible refine State.illegal_keeps ?_ ?_
    | with_reducible refine State.popRing_keeps ?_ ?_
    | with_reducible refine State.wait_keeps ?_ ?_
    | with_reducible refine ite_keeps (fun _ => ?_) (fun _ => ?_)
    | with_reducible refine iteOut_keeps (fun _ => ?_) (fun _ => ?_)
    | with_reducible refine foldl_keeps (fun _ _ _ => ?_) ?_
    | with_reducible refine foldl_kfst (fun _ _ _ => ?_) ?_
    | with_reducible refine foldl_ksnd (fun _ _ _ => ?_) ?_
    | subst x
    | with_reducible split
    | dsimp only

theorem execCpeek_keeps {am : Nat} {s₀ : State} {c : ClusterNo} {rd : Gpr} {s : State} (ha : Sub 2608 am) (hs : Keeps am s₀ s) : KeepsOut am s₀ (execCpeek c rd s) := by
  unfold execCpeek
  repeat' first
    | with_reducible assumption
    | exact sub_of ha rfl
    | with_reducible refine keepsOut_next ?_
    | (lift_lets; intro x; refine (fun (hx : Keeps am s₀ x) => ?_) ?_; clear_value x)
    | (intro x; subst x)
    | with_reducible refine State.illegal_keeps ?_ ?_
    | with_reducible refine State.popRing_keeps ?_ ?_
    | with_reducible refine State.ret_keeps ?_ ?_
    | with_reducible refine ite_keeps (fun _ => ?_) (fun _ => ?_)
    | with_reducible refine iteOut_keeps (fun _ => ?_) (fun _ => ?_)
    | with_reducible refine foldl_keeps (fun _ _ _ => ?_) ?_
    | with_reducible refine foldl_kfst (fun _ _ _ => ?_) ?_
    | with_reducible refine foldl_ksnd (fun _ _ _ => ?_) ?_
    | subst x
    | with_reducible split
    | dsimp only

theorem execRingRecordRelease_keeps {am : Nat} {s₀ : State} {c : ClusterNo} {s : State} (ha : Sub 570427904 am) (hs : Keeps am s₀ s) : KeepsOut am s₀ (execRingRecordRelease c s) := by
  unfold execRingRecordRelease
  repeat' first
    | with_reducible assumption
    | exact sub_of ha rfl
    | with_reducible refine keepsOut_next ?_
    | (lift_lets; intro x; refine (fun (hx : Keeps am s₀ x) => ?_) ?_; clear_value x)
    | (intro x; subst x)
    | with_reducible refine State.releaseRec_keeps ?_ ?_
    | with_reducible refine ite_keeps (fun _ => ?_) (fun _ => ?_)
    | with_reducible refine iteOut_keeps (fun _ => ?_) (fun _ => ?_)
    | with_reducible refine foldl_keeps (fun _ _ _ => ?_) ?_
    | with_reducible refine foldl_kfst (fun _ _ _ => ?_) ?_
    | with_reducible refine foldl_ksnd (fun _ _ _ => ?_) ?_
    | subst x
    | with_reducible split
    | dsimp only

theorem execVxeFence_keeps {am : Nat} {s₀ : State} {v : VxeNo} {s : State} (ha : Sub 33573232 am) (hs : Keeps am s₀ s) : KeepsOut am s₀ (execVxeFence v s) := by
  unfold execVxeFence
  repeat' first
    | with_reducible assumption
    | exact sub_of ha rfl
    | with_reducible refine keepsOut_next ?_
    | (lift_lets; intro x; refine (fun (hx : Keeps am s₀ x) => ?_) ?_; clear_value x)
    | (intro x; subst x)
    | with_reducible refine State.fenceVxe_keeps ?_ ?_
    | with_reducible refine ite_keeps (fun _ => ?_) (fun _ => ?_)
    | with_reducible refine iteOut_keeps (fun _ => ?_) (fun _ => ?_)
    | with_reducible refine foldl_keeps (fun _ _ _ => ?_) ?_
    | with_reducible refine foldl_kfst (fun _ _ _ => ?_) ?_
    | with_reducible refine foldl_ksnd (fun _ _ _ => ?_) ?_
    | subst x
    | with_reducible split
    | dsimp only

theorem execVxeSelftest_keeps {am : Nat} {s₀ : State} {v : VxeNo} {s : State} (ha : Sub 48 am) (hs : Keeps am s₀ s) : KeepsOut am s₀ (execVxeSelftest v s) := by
  unfold execVxeSelftest
  repeat' first
    | with_reducible assumption
    | exact sub_of ha rfl
    | with_reducible refine keepsOut_next ?_
    | (lift_lets; intro x; refine (fun (hx : Keeps am s₀ x) => ?_) ?_; clear_value x)
    | (intro x; subst x)
    | with_reducible refine State.startSelftest_keeps ?_ ?_
    | with_reducible refine ite_keeps (fun _ => ?_) (fun _ => ?_)
    | with_reducible refine iteOut_keeps (fun _ => ?_) (fun _ => ?_)
    | with_reducible refine foldl_keeps (fun _ _ _ => ?_) ?_
    | with_reducible refine foldl_kfst (fun _ _ _ => ?_) ?_
    | with_reducible refine foldl_ksnd (fun _ _ _ => ?_) ?_
    | subst x
    | with_reducible split
    | dsimp only

theorem execVxeSelftestDone_keeps {am : Nat} {s₀ : State} {v : VxeNo} {pass : Bool} {s : State} (ha : Sub 16 am) (hs : Keeps am s₀ s) : KeepsOut am s₀ (execVxeSelftestDone v pass s) := by
  unfold execVxeSelftestDone
  repeat' first
    | with_reducible assumption
    | exact sub_of ha rfl
    | with_reducible refine keepsOut_next ?_
    | (lift_lets; intro x; refine (fun (hx : Keeps am s₀ x) => ?_) ?_; clear_value x)
    | (intro x; subst x)
    | with_reducible refine State.endSelftest_keeps ?_ ?_
    | with_reducible refine ite_keeps (fun _ => ?_) (fun _ => ?_)
    | with_reducible refine iteOut_keeps (fun _ => ?_) (fun _ => ?_)
    | with_reducible refine foldl_keeps (fun _ _ _ => ?_) ?_
    | with_reducible refine foldl_kfst (fun _ _ _ => ?_) ?_
    | with_reducible refine foldl_ksnd (fun _ _ _ => ?_) ?_
    | subst x
    | with_reducible split
    | dsimp only

theorem execVxeReadmit_keeps {am : Nat} {s₀ : State} {v : VxeNo} {s : State} (ha : Sub 33554736 am) (hs : Keeps am s₀ s) : KeepsOut am s₀ (execVxeReadmit v s) := by
  unfold execVxeReadmit
  repeat' first
    | with_reducible assumption
    | exact sub_of ha rfl
    | with_reducible refine keepsOut_next ?_
    | (lift_lets; intro x; refine (fun (hx : Keeps am s₀ x) => ?_) ?_; clear_value x)
    | (intro x; subst x)
    | with_reducible refine State.readmit_keeps ?_ ?_
    | with_reducible refine ite_keeps (fun _ => ?_) (fun _ => ?_)
    | with_reducible refine iteOut_keeps (fun _ => ?_) (fun _ => ?_)
    | with_reducible refine foldl_keeps (fun _ _ _ => ?_) ?_
    | with_reducible refine foldl_kfst (fun _ _ _ => ?_) ?_
    | with_reducible refine foldl_ksnd (fun _ _ _ => ?_) ?_
    | subst x
    | with_reducible split
    | dsimp only

theorem execVxePerfRead_keeps {am : Nat} {s₀ : State} {v : VxeNo} {s : State} (ha : Sub 65556 am) (hs : Keeps am s₀ s) : KeepsOut am s₀ (execVxePerfRead v s) := by
  unfold execVxePerfRead
  repeat' first
    | with_reducible assumption
    | exact sub_of ha rfl
    | with_reducible refine keepsOut_next ?_
    | (lift_lets; intro x; refine (fun (hx : Keeps am s₀ x) => ?_) ?_; clear_value x)
    | (intro x; subst x)
    | with_reducible refine State.out_keeps ?_ ?_
    | with_reducible refine State.setReg_keeps ?_ ?_
    | with_reducible refine State.withWork_keeps ?_ ?_
    | with_reducible refine ite_keeps (fun _ => ?_) (fun _ => ?_)
    | with_reducible refine iteOut_keeps (fun _ => ?_) (fun _ => ?_)
    | with_reducible refine foldl_keeps (fun _ _ _ => ?_) ?_
    | with_reducible refine foldl_kfst (fun _ _ _ => ?_) ?_
    | with_reducible refine foldl_ksnd (fun _ _ _ => ?_) ?_
    | subst x
    | with_reducible split
    | dsimp only

theorem State.queueGather_keeps {am : Nat} {s₀ : State} {s : State} {c : Nat} {oc : Nat} {rd : Nat} {rs1 : Nat} {scatter : Bool} (ha : Sub 2560 am) (hs : Keeps am s₀ s) : Keeps am s₀ (State.queueGather s c oc rd rs1 scatter) := by
  unfold State.queueGather
  repeat' first
    | with_reducible assumption
    | exact sub_of ha rfl
    | with_reducible refine keepsOut_next ?_
    | (lift_lets; intro x; refine (fun (hx : Keeps am s₀ x) => ?_) ?_; clear_value x)
    | (intro x; subst x)
    | with_reducible refine State.newWork_keeps ?_ ?_ ?_
    | with_reducible refine State.retSt_keeps ?_ ?_
    | with_reducible refine State.setClu_keeps ?_ ?_
    | with_reducible refine ite_keeps (fun _ => ?_) (fun _ => ?_)
    | with_reducible refine iteOut_keeps (fun _ => ?_) (fun _ => ?_)
    | with_reducible refine foldl_keeps (fun _ _ _ => ?_) ?_
    | with_reducible refine foldl_kfst (fun _ _ _ => ?_) ?_
    | with_reducible refine foldl_ksnd (fun _ _ _ => ?_) ?_
    | subst x
    | with_reducible split
    | dsimp only

theorem execGather_keeps {am : Nat} {s₀ : State} {c : ClusterNo} {oc : Fin 6} {rd : Gpr} {rs1 : Gpr} {s : State} (ha : Sub 2560 am) (hs : Keeps am s₀ s) : KeepsOut am s₀ (execGather c oc rd rs1 s) := by
  unfold execGather
  repeat' first
    | with_reducible assumption
    | exact sub_of ha rfl
    | with_reducible refine keepsOut_next ?_
    | (lift_lets; intro x; refine (fun (hx : Keeps am s₀ x) => ?_) ?_; clear_value x)
    | (intro x; subst x)
    | with_reducible refine State.queueGather_keeps ?_ ?_
    | with_reducible refine ite_keeps (fun _ => ?_) (fun _ => ?_)
    | with_reducible refine iteOut_keeps (fun _ => ?_) (fun _ => ?_)
    | with_reducible refine foldl_keeps (fun _ _ _ => ?_) ?_
    | with_reducible refine foldl_kfst (fun _ _ _ => ?_) ?_
    | with_reducible refine foldl_ksnd (fun _ _ _ => ?_) ?_
    | subst x
    | with_reducible split
    | dsimp only

theorem execScatter_keeps {am : Nat} {s₀ : State} {c : ClusterNo} {oc : Fin 6} {rd : Gpr} {rs1 : Gpr} {s : State} (ha : Sub 2560 am) (hs : Keeps am s₀ s) : KeepsOut am s₀ (execScatter c oc rd rs1 s) := by
  unfold execScatter
  repeat' first
    | with_reducible assumption
    | exact sub_of ha rfl
    | with_reducible refine keepsOut_next ?_
    | (lift_lets; intro x; refine (fun (hx : Keeps am s₀ x) => ?_) ?_; clear_value x)
    | (intro x; subst x)
    | with_reducible refine State.queueGather_keeps ?_ ?_
    | with_reducible refine ite_keeps (fun _ => ?_) (fun _ => ?_)
    | with_reducible refine iteOut_keeps (fun _ => ?_) (fun _ => ?_)
    | with_reducible refine foldl_keeps (fun _ _ _ => ?_) ?_
    | with_reducible refine foldl_kfst (fun _ _ _ => ?_) ?_
    | with_reducible refine foldl_ksnd (fun _ _ _ => ?_) ?_
    | subst x
    | with_reducible split
    | dsimp only

theorem State.changeCtx_keeps {am : Nat} {s₀ : State} {s : State} {c : Nat} (ha : Sub 2181038962 am) (hs : Keeps am s₀ s) : Keeps am s₀ (State.changeCtx s c) := by
  unfold State.changeCtx
  repeat' first
    | with_reducible assumption
    | exact sub_of ha rfl
    | with_reducible refine keepsOut_next ?_
    | (lift_lets; intro x; refine (fun (hx : Keeps am s₀ x) => ?_) ?_; clear_value x)
    | (intro x; subst x)
    | with_reducible refine State.breakSlot_keeps ?_ ?_
    | with_reducible refine State.setSignals_keeps ?_ ?_
    | with_reducible refine ite_keeps (fun _ => ?_) (fun _ => ?_)
    | with_reducible refine iteOut_keeps (fun _ => ?_) (fun _ => ?_)
    | with_reducible refine foldl_keeps (fun _ _ _ => ?_) ?_
    | with_reducible refine foldl_kfst (fun _ _ _ => ?_) ?_
    | with_reducible refine foldl_ksnd (fun _ _ _ => ?_) ?_
    | subst x
    | with_reducible split
    | dsimp only

theorem execCluCtxWrite_keeps {am : Nat} {s₀ : State} {c : ClusterNo} {data : W64} {s : State} (ha : Sub 2181038962 am) (hs : Keeps am s₀ s) : KeepsOut am s₀ (execCluCtxWrite c data s) := by
  unfold execCluCtxWrite
  repeat' first
    | with_reducible assumption
    | exact sub_of ha rfl
    | with_reducible refine keepsOut_next ?_
    | (lift_lets; intro x; refine (fun (hx : Keeps am s₀ x) => ?_) ?_; clear_value x)
    | (intro x; subst x)
    | with_reducible refine State.changeCtx_keeps ?_ ?_
    | with_reducible refine State.plainWrite_keeps ?_ ?_
    | with_reducible refine State.setErr_keeps ?_ ?_
    | with_reducible refine ite_keeps (fun _ => ?_) (fun _ => ?_)
    | with_reducible refine iteOut_keeps (fun _ => ?_) (fun _ => ?_)
    | with_reducible refine foldl_keeps (fun _ _ _ => ?_) ?_
    | with_reducible refine foldl_kfst (fun _ _ _ => ?_) ?_
    | with_reducible refine foldl_ksnd (fun _ _ _ => ?_) ?_
    | subst x
    | with_reducible split
    | dsimp only

theorem execCoreRun_keeps {am : Nat} {s₀ : State} {c : ClusterNo} {k : Fin 7} {s : State} (ha : Sub 528 am) (hs : Keeps am s₀ s) : KeepsOut am s₀ (execCoreRun c k s) := by
  unfold execCoreRun
  repeat' first
    | with_reducible assumption
    | exact sub_of ha rfl
    | with_reducible refine keepsOut_next ?_
    | (lift_lets; intro x; refine (fun (hx : Keeps am s₀ x) => ?_) ?_; clear_value x)
    | (intro x; subst x)
    | with_reducible refine State.setFld_keeps ?_ ?_
    | with_reducible refine State.setPc_keeps ?_ ?_
    | with_reducible refine ite_keeps (fun _ => ?_) (fun _ => ?_)
    | with_reducible refine iteOut_keeps (fun _ => ?_) (fun _ => ?_)
    | with_reducible refine foldl_keeps (fun _ _ _ => ?_) ?_
    | with_reducible refine foldl_kfst (fun _ _ _ => ?_) ?_
    | with_reducible refine foldl_ksnd (fun _ _ _ => ?_) ?_
    | subst x
    | with_reducible split
    | dsimp only

theorem execCoreStop_keeps {am : Nat} {s₀ : State} {c : ClusterNo} {k : Fin 7} {s : State} (ha : Sub 2181038962 am) (hs : Keeps am s₀ s) : KeepsOut am s₀ (execCoreStop c k s) := by
  unfold execCoreStop
  repeat' first
    | with_reducible assumption
    | exact sub_of ha rfl
    | with_reducible refine keepsOut_next ?_
    | (lift_lets; intro x; refine (fun (hx : Keeps am s₀ x) => ?_) ?_; clear_value x)
    | (intro x; subst x)
    | with_reducible refine State.haltCore_keeps ?_ ?_
    | with_reducible refine ite_keeps (fun _ => ?_) (fun _ => ?_)
    | with_reducible refine iteOut_keeps (fun _ => ?_) (fun _ => ?_)
    | with_reducible refine foldl_keeps (fun _ _ _ => ?_) ?_
    | with_reducible refine foldl_kfst (fun _ _ _ => ?_) ?_
    | with_reducible refine foldl_ksnd (fun _ _ _ => ?_) ?_
    | subst x
    | with_reducible split
    | dsimp only

theorem State.setBin_keeps {am : Nat} {s₀ : State} {s : State} {d : Nat} {stream : Nat} {n : Nat} {v : Nat} (ha : Sub 32768 am) (hs : Keeps am s₀ s) : Keeps am s₀ (State.setBin s d stream n v) := by
  unfold State.setBin
  repeat' first
    | with_reducible assumption
    | exact sub_of ha rfl
    | with_reducible refine keepsOut_next ?_
    | (lift_lets; intro x; refine (fun (hx : Keeps am s₀ x) => ?_) ?_; clear_value x)
    | (intro x; subst x)
    | with_reducible refine State.withBins_keeps ?_ ?_
    | with_reducible refine ite_keeps (fun _ => ?_) (fun _ => ?_)
    | with_reducible refine iteOut_keeps (fun _ => ?_) (fun _ => ?_)
    | with_reducible refine foldl_keeps (fun _ _ _ => ?_) ?_
    | with_reducible refine foldl_kfst (fun _ _ _ => ?_) ?_
    | with_reducible refine foldl_ksnd (fun _ _ _ => ?_) ?_
    | subst x
    | with_reducible split
    | dsimp only

theorem State.clearBins_keeps {am : Nat} {s₀ : State} {s : State} {d : Nat} {stream : Nat} (ha : Sub 32768 am) (hs : Keeps am s₀ s) : Keeps am s₀ (State.clearBins s d stream) := by
  unfold State.clearBins
  repeat' first
    | with_reducible assumption
    | exact sub_of ha rfl
    | with_reducible refine keepsOut_next ?_
    | (lift_lets; intro x; refine (fun (hx : Keeps am s₀ x) => ?_) ?_; clear_value x)
    | (intro x; subst x)
    | with_reducible refine State.setBin_keeps ?_ ?_
    | with_reducible refine ite_keeps (fun _ => ?_) (fun _ => ?_)
    | with_reducible refine iteOut_keeps (fun _ => ?_) (fun _ => ?_)
    | with_reducible refine foldl_keeps (fun _ _ _ => ?_) ?_
    | with_reducible refine foldl_kfst (fun _ _ _ => ?_) ?_
    | with_reducible refine foldl_ksnd (fun _ _ _ => ?_) ?_
    | subst x
    | with_reducible split
    | dsimp only

theorem State.histLoad_keeps {am : Nat} {s₀ : State} {s : State} {d : Nat} {stream : Nat} {a : Nat} (ha : Sub 32816 am) (hs : Keeps am s₀ s) : Keeps am s₀ (State.histLoad s d stream a) := by
  unfold State.histLoad
  repeat' first
    | with_reducible assumption
    | exact sub_of ha rfl
    | with_reducible refine keepsOut_next ?_
    | (lift_lets; intro x; refine (fun (hx : Keeps am s₀ x) => ?_) ?_; clear_value x)
    | (intro x; subst x)
    | with_reducible refine State.setBin_keeps ?_ ?_
    | with_reducible refine State.setErr_keeps ?_ ?_
    | with_reducible refine ite_keeps (fun _ => ?_) (fun _ => ?_)
    | with_reducible refine iteOut_keeps (fun _ => ?_) (fun _ => ?_)
    | with_reducible refine foldl_keeps (fun _ _ _ => ?_) ?_
    | with_reducible refine foldl_kfst (fun _ _ _ => ?_) ?_
    | with_reducible refine foldl_ksnd (fun _ _ _ => ?_) ?_
    | subst x
    | with_reducible split
    | dsimp only

theorem State.histOp_keeps {am : Nat} {s₀ : State} {s : State} {d : Nat} {stream : Nat} {op : Nat} {a : Nat} (ha : Sub 426032 am) (hs : Keeps am s₀ s) : Keeps am s₀ (State.histOp s d stream op a) := by
  unfold State.histOp
  repeat' first
    | with_reducible assumption
    | exact sub_of ha rfl
    | with_reducible refine keepsOut_next ?_
    | (lift_lets; intro x; refine (fun (hx : Keeps am s₀ x) => ?_) ?_; clear_value x)
    | (intro x; subst x)
    | with_reducible refine State.clearBins_keeps ?_ ?_
    | with_reducible refine State.histLoad_keeps ?_ ?_
    | with_reducible refine State.setBitF_keeps ?_ ?_
    | with_reducible refine State.setErr_keeps ?_ ?_
    | with_reducible refine State.storeWords_keeps ?_ ?_
    | with_reducible refine State.withHstOp_keeps ?_ ?_
    | with_reducible refine ite_keeps (fun _ => ?_) (fun _ => ?_)
    | with_reducible refine iteOut_keeps (fun _ => ?_) (fun _ => ?_)
    | with_reducible refine foldl_keeps (fun _ _ _ => ?_) ?_
    | with_reducible refine foldl_kfst (fun _ _ _ => ?_) ?_
    | with_reducible refine foldl_ksnd (fun _ _ _ => ?_) ?_
    | subst x
    | with_reducible split
    | dsimp only

theorem execHstSnapshot_keeps {am : Nat} {s₀ : State} {d : Die} {stream : Byte} {addr : BitVec 42} {s : State} (ha : Sub 426032 am) (hs : Keeps am s₀ s) : KeepsOut am s₀ (execHstSnapshot d stream addr s) := by
  unfold execHstSnapshot
  repeat' first
    | with_reducible assumption
    | exact sub_of ha rfl
    | with_reducible refine keepsOut_next ?_
    | (lift_lets; intro x; refine (fun (hx : Keeps am s₀ x) => ?_) ?_; clear_value x)
    | (intro x; subst x)
    | with_reducible refine State.histOp_keeps ?_ ?_
    | with_reducible refine ite_keeps (fun _ => ?_) (fun _ => ?_)
    | with_reducible refine iteOut_keeps (fun _ => ?_) (fun _ => ?_)
    | with_reducible refine foldl_keeps (fun _ _ _ => ?_) ?_
    | with_reducible refine foldl_kfst (fun _ _ _ => ?_) ?_
    | with_reducible refine foldl_ksnd (fun _ _ _ => ?_) ?_
    | subst x
    | with_reducible split
    | dsimp only

theorem execHstSnapshotClear_keeps {am : Nat} {s₀ : State} {d : Die} {stream : Byte} {addr : BitVec 42} {s : State} (ha : Sub 426032 am) (hs : Keeps am s₀ s) : KeepsOut am s₀ (execHstSnapshotClear d stream addr s) := by
  unfold execHstSnapshotClear
  repeat' first
    | with_reducible assumption
    | exact sub_of ha rfl
    | with_reducible refine keepsOut_next ?_
    | (lift_lets; intro x; refine (fun (hx : Keeps am s₀ x) => ?_) ?_; clear_value x)
    | (intro x; subst x)
    | with_reducible refine State.histOp_keeps ?_ ?_
    | with_reducible refine ite_keeps (fun _ => ?_) (fun _ => ?_)
    | with_reducible refine iteOut_keeps (fun _ => ?_) (fun _ => ?_)
    | with_reducible refine foldl_keeps (fun _ _ _ => ?_) ?_
    | with_reducible refine foldl_kfst (fun _ _ _ => ?_) ?_
    | with_reducible refine foldl_ksnd (fun _ _ _ => ?_) ?_
    | subst x
    | with_reducible split
    | dsimp only

theorem execHstLoad_keeps {am : Nat} {s₀ : State} {d : Die} {stream : Byte} {addr : BitVec 42} {s : State} (ha : Sub 426032 am) (hs : Keeps am s₀ s) : KeepsOut am s₀ (execHstLoad d stream addr s) := by
  unfold execHstLoad
  repeat' first
    | with_reducible assumption
    | exact sub_of ha rfl
    | with_reducible refine keepsOut_next ?_
    | (lift_lets; intro x; refine (fun (hx : Keeps am s₀ x) => ?_) ?_; clear_value x)
    | (intro x; subst x)
    | with_reducible refine State.histOp_keeps ?_ ?_
    | with_reducible refine ite_keeps (fun _ => ?_) (fun _ => ?_)
    | with_reducible refine iteOut_keeps (fun _ => ?_) (fun _ => ?_)
    | with_reducible refine foldl_keeps (fun _ _ _ => ?_) ?_
    | with_reducible refine foldl_kfst (fun _ _ _ => ?_) ?_
    | with_reducible refine foldl_ksnd (fun _ _ _ => ?_) ?_
    | subst x
    | with_reducible split
    | dsimp only

theorem execHstOpDone_keeps {am : Nat} {s₀ : State} {d : Die} {s : State} (ha : Sub 131088 am) (hs : Keeps am s₀ s) : KeepsOut am s₀ (execHstOpDone d s) := by
  unfold execHstOpDone
  repeat' first
    | with_reducible assumption
    | exact sub_of ha rfl
    | with_reducible refine keepsOut_next ?_
    | (lift_lets; intro x; refine (fun (hx : Keeps am s₀ x) => ?_) ?_; clear_value x)
    | (intro x; subst x)
    | with_reducible refine State.setBitF_keeps ?_ ?_
    | with_reducible refine State.withHstOp_keeps ?_ ?_
    | with_reducible refine State.wrapFld_keeps ?_ ?_
    | with_reducible refine ite_keeps (fun _ => ?_) (fun _ => ?_)
    | with_reducible refine iteOut_keeps (fun _ => ?_) (fun _ => ?_)
    | with_reducible refine foldl_keeps (fun _ _ _ => ?_) ?_
    | with_reducible refine foldl_kfst (fun _ _ _ => ?_) ?_
    | with_reducible refine foldl_ksnd (fun _ _ _ => ?_) ?_
    | subst x
    | with_reducible split
    | dsimp only

theorem State.hsnap_keeps {am : Nat} {s₀ : State} {s : State} {p : Nat} {data : W64} (ha : Sub 426544 am) (hs : Keeps am s₀ s) : Keeps am s₀ (State.hsnap s p data) := by
  unfold State.hsnap
  repeat' first
    | with_reducible assumption
    | exact sub_of ha rfl
    | with_reducible refine keepsOut_next ?_
    | (lift_lets; intro x; refine (fun (hx : Keeps am s₀ x) => ?_) ?_; clear_value x)
    | (intro x; subst x)
    | with_reducible refine State.histOp_keeps ?_ ?_
    | with_reducible refine State.raise_keeps ?_ ?_
    | with_reducible refine ite_keeps (fun _ => ?_) (fun _ => ?_)
    | with_reducible refine iteOut_keeps (fun _ => ?_) (fun _ => ?_)
    | with_reducible refine foldl_keeps (fun _ _ _ => ?_) ?_
    | with_reducible refine foldl_kfst (fun _ _ _ => ?_) ?_
    | with_reducible refine foldl_ksnd (fun _ _ _ => ?_) ?_
    | subst x
    | with_reducible split
    | dsimp only

theorem execHsnapWrite_keeps {am : Nat} {s₀ : State} {c : ClusterNo} {oc : Fin 6} {data : W64} {s : State} (ha : Sub 426544 am) (hs : Keeps am s₀ s) : KeepsOut am s₀ (execHsnapWrite c oc data s) := by
  unfold execHsnapWrite
  repeat' first
    | with_reducible assumption
    | exact sub_of ha rfl
    | with_reducible refine keepsOut_next ?_
    | (lift_lets; intro x; refine (fun (hx : Keeps am s₀ x) => ?_) ?_; clear_value x)
    | (intro x; subst x)
    | with_reducible refine State.hsnap_keeps ?_ ?_
    | with_reducible refine State.nextPc_keeps ?_ ?_
    | with_reducible refine ite_keeps (fun _ => ?_) (fun _ => ?_)
    | with_reducible refine iteOut_keeps (fun _ => ?_) (fun _ => ?_)
    | with_reducible refine foldl_keeps (fun _ _ _ => ?_) ?_
    | with_reducible refine foldl_kfst (fun _ _ _ => ?_) ?_
    | with_reducible refine foldl_ksnd (fun _ _ _ => ?_) ?_
    | subst x
    | with_reducible split
    | dsimp only

theorem execHstOwnWrite_keeps {am : Nat} {s₀ : State} {d : Die} {stream : Byte} {data : W64} {s : State} (ha : Sub 32784 am) (hs : Keeps am s₀ s) : KeepsOut am s₀ (execHstOwnWrite d stream data s) := by
  unfold execHstOwnWrite
  repeat' first
    | with_reducible assumption
    | exact sub_of ha rfl
    | with_reducible refine keepsOut_next ?_
    | (lift_lets; intro x; refine (fun (hx : Keeps am s₀ x) => ?_) ?_; clear_value x)
    | (intro x; subst x)
    | with_reducible refine State.clearBins_keeps ?_ ?_
    | with_reducible refine State.plainWrite_keeps ?_ ?_
    | with_reducible refine ite_keeps (fun _ => ?_) (fun _ => ?_)
    | with_reducible refine iteOut_keeps (fun _ => ?_) (fun _ => ?_)
    | with_reducible refine foldl_keeps (fun _ _ _ => ?_) ?_
    | with_reducible refine foldl_kfst (fun _ _ _ => ?_) ?_
    | with_reducible refine foldl_ksnd (fun _ _ _ => ?_) ?_
    | subst x
    | with_reducible split
    | dsimp only

theorem execCtrClear_keeps {am : Nat} {s₀ : State} {d : Die} {s : State} (ha : Sub 16 am) (hs : Keeps am s₀ s) : KeepsOut am s₀ (execCtrClear d s) := by
  unfold execCtrClear
  repeat' first
    | with_reducible assumption
    | exact sub_of ha rfl
    | with_reducible refine keepsOut_next ?_
    | (lift_lets; intro x; refine (fun (hx : Keeps am s₀ x) => ?_) ?_; clear_value x)
    | (intro x; subst x)
    | with_reducible refine State.setReg_keeps ?_ ?_
    | with_reducible refine ite_keeps (fun _ => ?_) (fun _ => ?_)
    | with_reducible refine iteOut_keeps (fun _ => ?_) (fun _ => ?_)
    | with_reducible refine foldl_keeps (fun _ _ _ => ?_) ?_
    | with_reducible refine foldl_kfst (fun _ _ _ => ?_) ?_
    | with_reducible refine foldl_ksnd (fun _ _ _ => ?_) ?_
    | subst x
    | with_reducible split
    | dsimp only

theorem execCtrAdd_keeps {am : Nat} {s₀ : State} {d : Die} {value : W64} {s : State} (ha : Sub 48 am) (hs : Keeps am s₀ s) : KeepsOut am s₀ (execCtrAdd d value s) := by
  unfold execCtrAdd
  repeat' first
    | with_reducible assumption
    | exact sub_of ha rfl
    | with_reducible refine keepsOut_next ?_
    | (lift_lets; intro x; refine (fun (hx : Keeps am s₀ x) => ?_) ?_; clear_value x)
    | (intro x; subst x)
    | with_reducible refine State.addCount_keeps ?_ ?_
    | with_reducible refine State.setErr_keeps ?_ ?_
    | with_reducible refine ite_keeps (fun _ => ?_) (fun _ => ?_)
    | with_reducible refine iteOut_keeps (fun _ => ?_) (fun _ => ?_)
    | with_reducible refine foldl_keeps (fun _ _ _ => ?_) ?_
    | with_reducible refine foldl_kfst (fun _ _ _ => ?_) ?_
    | with_reducible refine foldl_ksnd (fun _ _ _ => ?_) ?_
    | subst x
    | with_reducible split
    | dsimp only

theorem execCtrEvtRead_keeps {am : Nat} {s₀ : State} {d : Die} {i : Fin 48} {s : State} (ha : Sub 20 am) (hs : Keeps am s₀ s) : KeepsOut am s₀ (execCtrEvtRead d i s) := by
  unfold execCtrEvtRead
  repeat' first
    | with_reducible assumption
    | exact sub_of ha rfl
    | with_reducible refine keepsOut_next ?_
    | (lift_lets; intro x; refine (fun (hx : Keeps am s₀ x) => ?_) ?_; clear_value x)
    | (intro x; subst x)
    | with_reducible refine State.readClear_keeps ?_ ?_
    | with_reducible refine ite_keeps (fun _ => ?_) (fun _ => ?_)
    | with_reducible refine iteOut_keeps (fun _ => ?_) (fun _ => ?_)
    | with_reducible refine foldl_keeps (fun _ _ _ => ?_) ?_
    | with_reducible refine foldl_kfst (fun _ _ _ => ?_) ?_
    | with_reducible refine foldl_ksnd (fun _ _ _ => ?_) ?_
    | subst x
    | with_reducible split
    | dsimp only

theorem State.clearSync_keeps {am : Nat} {s₀ : State} {s : State} {r : Nat} (ha : Sub 262144 am) (hs : Keeps am s₀ s) : Keeps am s₀ (State.clearSync s r) := by
  unfold State.clearSync
  repeat' first
    | with_reducible assumption
    | exact sub_of ha rfl
    | with_reducible refine keepsOut_next ?_
    | (lift_lets; intro x; refine (fun (hx : Keeps am s₀ x) => ?_) ?_; clear_value x)
    | (intro x; subst x)
    | with_reducible refine State.withMem_keeps ?_ ?_
    | with_reducible refine ite_keeps (fun _ => ?_) (fun _ => ?_)
    | with_reducible refine iteOut_keeps (fun _ => ?_) (fun _ => ?_)
    | with_reducible refine foldl_keeps (fun _ _ _ => ?_) ?_
    | with_reducible refine foldl_kfst (fun _ _ _ => ?_) ?_
    | with_reducible refine foldl_ksnd (fun _ _ _ => ?_) ?_
    | subst x
    | with_reducible split
    | dsimp only

theorem State.rgnOpen_keeps {am : Nat} {s₀ : State} {s : State} {r : Nat} (ha : Sub 786448 am) (hs : Keeps am s₀ s) : Keeps am s₀ (State.rgnOpen s r) := by
  unfold State.rgnOpen
  repeat' first
    | with_reducible assumption
    | exact sub_of ha rfl
    | with_reducible refine keepsOut_next ?_
    | (lift_lets; intro x; refine (fun (hx : Keeps am s₀ x) => ?_) ?_; clear_value x)
    | (intro x; subst x)
    | with_reducible refine State.clearSync_keeps ?_ ?_
    | with_reducible refine State.setBitF_keeps ?_ ?_
    | with_reducible refine State.setFld_keeps ?_ ?_
    | with_reducible refine State.withMs_keeps ?_ ?_
    | with_reducible refine ite_keeps (fun _ => ?_) (fun _ => ?_)
    | with_reducible refine iteOut_keeps (fun _ => ?_) (fun _ => ?_)
    | with_reducible refine foldl_keeps (fun _ _ _ => ?_) ?_
    | with_reducible refine foldl_kfst (fun _ _ _ => ?_) ?_
    | with_reducible refine foldl_ksnd (fun _ _ _ => ?_) ?_
    | subst x
    | with_reducible split
    | dsimp only

theorem State.rgnWrite_keeps {am : Nat} {s₀ : State} {s : State} {r : Nat} {data : W64} (ha : Sub 786480 am) (hs : Keeps am s₀ s) : Keeps am s₀ (State.rgnWrite s r data) := by
  unfold State.rgnWrite
  repeat' first
    | with_reducible assumption
    | exact sub_of ha rfl
    | with_reducible refine keepsOut_next ?_
    | (lift_lets; intro x; refine (fun (hx : Keeps am s₀ x) => ?_) ?_; clear_value x)
    | (intro x; subst x)
    | with_reducible refine State.badSeq_keeps ?_ ?_
    | with_reducible refine State.rgnOpen_keeps ?_ ?_
    | with_reducible refine State.setBitF_keeps ?_ ?_
    | with_reducible refine State.setErr_keeps ?_ ?_
    | with_reducible refine State.setFld_keeps ?_ ?_
    | with_reducible refine State.setReg_keeps ?_ ?_
    | with_reducible refine ite_keeps (fun _ => ?_) (fun _ => ?_)
    | with_reducible refine iteOut_keeps (fun _ => ?_) (fun _ => ?_)
    | with_reducible refine foldl_keeps (fun _ _ _ => ?_) ?_
    | with_reducible refine foldl_kfst (fun _ _ _ => ?_) ?_
    | with_reducible refine foldl_ksnd (fun _ _ _ => ?_) ?_
    | subst x
    | with_reducible split
    | dsimp only

theorem execMapRgnValidate_keeps {am : Nat} {s₀ : State} {r : Fin 64} {data : W64} {s : State} (ha : Sub 786480 am) (hs : Keeps am s₀ s) : KeepsOut am s₀ (execMapRgnValidate r data s) := by
  unfold execMapRgnValidate
  repeat' first
    | with_reducible assumption
    | exact sub_of ha rfl
    | with_reducible refine keepsOut_next ?_
    | (lift_lets; intro x; refine (fun (hx : Keeps am s₀ x) => ?_) ?_; clear_value x)
    | (intro x; subst x)
    | with_reducible refine State.rgnWrite_keeps ?_ ?_
    | with_reducible refine ite_keeps (fun _ => ?_) (fun _ => ?_)
    | with_reducible refine iteOut_keeps (fun _ => ?_) (fun _ => ?_)
    | with_reducible refine foldl_keeps (fun _ _ _ => ?_) ?_
    | with_reducible refine foldl_kfst (fun _ _ _ => ?_) ?_
    | with_reducible refine foldl_ksnd (fun _ _ _ => ?_) ?_
    | subst x
    | with_reducible split
    | dsimp only

theorem execMapRgnClose_keeps {am : Nat} {s₀ : State} {r : Fin 64} {s : State} (ha : Sub 786480 am) (hs : Keeps am s₀ s) : KeepsOut am s₀ (execMapRgnClose r s) := by
  unfold execMapRgnClose
  repeat' first
    | with_reducible assumption
    | exact sub_of ha rfl
    | with_reducible refine keepsOut_next ?_
    | (lift_lets; intro x; refine (fun (hx : Keeps am s₀ x) => ?_) ?_; clear_value x)
    | (intro x; subst x)
    | with_reducible refine State.rgnWrite_keeps ?_ ?_
    | with_reducible refine ite_keeps (fun _ => ?_) (fun _ => ?_)
    | with_reducible refine iteOut_keeps (fun _ => ?_) (fun _ => ?_)
    | with_reducible refine foldl_keeps (fun _ _ _ => ?_) ?_
    | with_reducible refine foldl_kfst (fun _ _ _ => ?_) ?_
    | with_reducible refine foldl_ksnd (fun _ _ _ => ?_) ?_
    | subst x
    | with_reducible split
    | dsimp only

theorem execMapQuiesceDone_keeps {am : Nat} {s₀ : State} {s : State} (ha : Sub 16 am) (hs : Keeps am s₀ s) : KeepsOut am s₀ (execMapQuiesceDone s) := by
  unfold execMapQuiesceDone
  repeat' first
    | with_reducible assumption
    | exact sub_of ha rfl
    | with_reducible refine keepsOut_next ?_
    | (lift_lets; intro x; refine (fun (hx : Keeps am s₀ x) => ?_) ?_; clear_value x)
    | (intro x; subst x)
    | with_reducible refine State.setBitF_keeps ?_ ?_
    | with_reducible refine ite_keeps (fun _ => ?_) (fun _ => ?_)
    | with_reducible refine iteOut_keeps (fun _ => ?_) (fun _ => ?_)
    | with_reducible refine foldl_keeps (fun _ _ _ => ?_) ?_
    | with_reducible refine foldl_kfst (fun _ _ _ => ?_) ?_
    | with_reducible refine foldl_ksnd (fun _ _ _ => ?_) ?_
    | subst x
    | with_reducible split
    | dsimp only

theorem State.setHeldQ_keeps {am : Nat} {s₀ : State} {s : State} {d : Nat} {b : Nat} {l : List Nat} (ha : Sub 524288 am) (hs : Keeps am s₀ s) : Keeps am s₀ (State.setHeldQ s d b l) := by
  unfold State.setHeldQ
  repeat' first
    | with_reducible assumption
    | exact sub_of ha rfl
    | with_reducible refine keepsOut_next ?_
    | (lift_lets; intro x; refine (fun (hx : Keeps am s₀ x) => ?_) ?_; clear_value x)
    | (intro x; subst x)
    | with_reducible refine State.withMs_keeps ?_ ?_
    | with_reducible refine ite_keeps (fun _ => ?_) (fun _ => ?_)
    | with_reducible refine iteOut_keeps (fun _ => ?_) (fun _ => ?_)
    | with_reducible refine foldl_keeps (fun _ _ _ => ?_) ?_
    | with_reducible refine foldl_kfst (fun _ _ _ => ?_) ?_
    | with_reducible refine foldl_ksnd (fun _ _ _ => ?_) ?_
    | subst x
    | with_reducible split
    | dsimp only

theorem State.setHeldSince_keeps {am : Nat} {s₀ : State} {s : State} {d : Nat} {b : Nat} {t : Nat} (ha : Sub 524288 am) (hs : Keeps am s₀ s) : Keeps am s₀ (State.setHeldSince s d b t) := by
  unfold State.setHeldSince
  repeat' first
    | with_reducible assumption
    | exact sub_of ha rfl
    | with_reducible refine keepsOut_next ?_
    | (lift_lets; intro x; refine (fun (hx : Keeps am s₀ x) => ?_) ?_; clear_value x)
    | (intro x; subst x)
    | with_reducible refine State.withMs_keeps ?_ ?_
    | with_reducible refine ite_keeps (fun _ => ?_) (fun _ => ?_)
    | with_reducible refine iteOut_keeps (fun _ => ?_) (fun _ => ?_)
    | with_reducible refine foldl_keeps (fun _ _ _ => ?_) ?_
    | with_reducible refine foldl_kfst (fun _ _ _ => ?_) ?_
    | with_reducible refine foldl_ksnd (fun _ _ _ => ?_) ?_
    | subst x
    | with_reducible split
    | dsimp only

theorem State.countHeld_keeps {am : Nat} {s₀ : State} {s : State} {d : Nat} {b : Nat} (ha : Sub 524304 am) (hs : Keeps am s₀ s) : Keeps am s₀ (State.countHeld s d b) := by
  unfold State.countHeld
  repeat' first
    | with_reducible assumption
    | exact sub_of ha rfl
    | with_reducible refine keepsOut_next ?_
    | (lift_lets; intro x; refine (fun (hx : Keeps am s₀ x) => ?_) ?_; clear_value x)
    | (intro x; subst x)
    | with_reducible refine State.addFld_keeps ?_ ?_
    | with_reducible refine State.setHeldSince_keeps ?_ ?_
    | with_reducible refine ite_keeps (fun _ => ?_) (fun _ => ?_)
    | with_reducible refine iteOut_keeps (fun _ => ?_) (fun _ => ?_)
    | with_reducible refine foldl_keeps (fun _ _ _ => ?_) ?_
    | with_reducible refine foldl_kfst (fun _ _ _ => ?_) ?_
    | with_reducible refine foldl_ksnd (fun _ _ _ => ?_) ?_
    | subst x
    | with_reducible split
    | dsimp only

theorem State.refill_keeps {am : Nat} {s₀ : State} {s : State} {d : Nat} {b : Nat} (ha : Sub 524304 am) (hs : Keeps am s₀ s) : Keeps am s₀ (State.refill s d b) := by
  unfold State.refill
  repeat' first
    | with_reducible assumption
    | exact sub_of ha rfl
    | with_reducible refine keepsOut_next ?_
    | (lift_lets; intro x; refine (fun (hx : Keeps am s₀ x) => ?_) ?_; clear_value x)
    | (intro x; subst x)
    | with_reducible refine State.countHeld_keeps ?_ ?_
    | with_reducible refine State.setFld_keeps ?_ ?_
    | with_reducible refine State.setHeldQ_keeps ?_ ?_
    | with_reducible refine ite_keeps (fun _ => ?_) (fun _ => ?_)
    | with_reducible refine iteOut_keeps (fun _ => ?_) (fun _ => ?_)
    | with_reducible refine foldl_keeps (fun _ _ _ => ?_) ?_
    | with_reducible refine foldl_kfst (fun _ _ _ => ?_) ?_
    | with_reducible refine foldl_ksnd (fun _ _ _ => ?_) ?_
    | subst x
    | with_reducible split
    | dsimp only

theorem execTollRefill_keeps {am : Nat} {s₀ : State} {d : Die} {s : State} (ha : Sub 524304 am) (hs : Keeps am s₀ s) : KeepsOut am s₀ (execTollRefill d s) := by
  unfold execTollRefill
  repeat' first
    | with_reducible assumption
    | exact sub_of ha rfl
    | with_reducible refine keepsOut_next ?_
    | (lift_lets; intro x; refine (fun (hx : Keeps am s₀ x) => ?_) ?_; clear_value x)
    | (intro x; subst x)
    | with_reducible refine State.refill_keeps ?_ ?_
    | with_reducible refine ite_keeps (fun _ => ?_) (fun _ => ?_)
    | with_reducible refine iteOut_keeps (fun _ => ?_) (fun _ => ?_)
    | with_reducible refine foldl_keeps (fun _ _ _ => ?_) ?_
    | with_reducible refine foldl_kfst (fun _ _ _ => ?_) ?_
    | with_reducible refine foldl_ksnd (fun _ _ _ => ?_) ?_
    | subst x
    | with_reducible split
    | dsimp only

theorem execTollBktWrite_keeps {am : Nat} {s₀ : State} {d : Die} {b : Fin 64} {data : W64} {s : State} (ha : Sub 524304 am) (hs : Keeps am s₀ s) : KeepsOut am s₀ (execTollBktWrite d b data s) := by
  unfold execTollBktWrite
  repeat' first
    | with_reducible assumption
    | exact sub_of ha rfl
    | with_reducible refine keepsOut_next ?_
    | (lift_lets; intro x; refine (fun (hx : Keeps am s₀ x) => ?_) ?_; clear_value x)
    | (intro x; subst x)
    | with_reducible refine State.countHeld_keeps ?_ ?_
    | with_reducible refine State.plainWrite_keeps ?_ ?_
    | with_reducible refine State.setFld_keeps ?_ ?_
    | with_reducible refine State.setHeldQ_keeps ?_ ?_
    | with_reducible refine ite_keeps (fun _ => ?_) (fun _ => ?_)
    | with_reducible refine iteOut_keeps (fun _ => ?_) (fun _ => ?_)
    | with_reducible refine foldl_keeps (fun _ _ _ => ?_) ?_
    | with_reducible refine foldl_kfst (fun _ _ _ => ?_) ?_
    | with_reducible refine foldl_ksnd (fun _ _ _ => ?_) ?_
    | subst x
    | with_reducible split
    | dsimp only

theorem execTollHeldRead_keeps {am : Nat} {s₀ : State} {d : Die} {b : Fin 64} {s : State} (ha : Sub 524308 am) (hs : Keeps am s₀ s) : KeepsOut am s₀ (execTollHeldRead d b s) := by
  unfold execTollHeldRead
  repeat' first
    | with_reducible assumption
    | exact sub_of ha rfl
    | with_reducible refine keepsOut_next ?_
    | (lift_lets; intro x; refine (fun (hx : Keeps am s₀ x) => ?_) ?_; clear_value x)
    | (intro x; subst x)
    | with_reducible refine State.countHeld_keeps ?_ ?_
    | with_reducible refine State.readClear_keeps ?_ ?_
    | with_reducible refine ite_keeps (fun _ => ?_) (fun _ => ?_)
    | with_reducible refine iteOut_keeps (fun _ => ?_) (fun _ => ?_)
    | with_reducible refine foldl_keeps (fun _ _ _ => ?_) ?_
    | with_reducible refine foldl_kfst (fun _ _ _ => ?_) ?_
    | with_reducible refine foldl_ksnd (fun _ _ _ => ?_) ?_
    | subst x
    | with_reducible split
    | dsimp only

theorem State.storeWmark_keeps {am : Nat} {s₀ : State} {s : State} (ha : Sub 33554704 am) (hs : Keeps am s₀ s) : Keeps am s₀ (State.storeWmark s) := by
  unfold State.storeWmark
  repeat' first
    | with_reducible assumption
    | exact sub_of ha rfl
    | with_reducible refine keepsOut_next ?_
    | (lift_lets; intro x; refine (fun (hx : Keeps am s₀ x) => ?_) ?_; clear_value x)
    | (intro x; subst x)
    | with_reducible refine State.setReg_keeps ?_ ?_
    | with_reducible refine State.sstAdd_keeps ?_ ?_
    | with_reducible refine ite_keeps (fun _ => ?_) (fun _ => ?_)
    | with_reducible refine iteOut_keeps (fun _ => ?_) (fun _ => ?_)
    | with_reducible refine foldl_keeps (fun _ _ _ => ?_) ?_
    | with_reducible refine foldl_kfst (fun _ _ _ => ?_) ?_
    | with_reducible refine foldl_ksnd (fun _ _ _ => ?_) ?_
    | subst x
    | with_reducible split
    | dsimp only

theorem State.trip_keeps {am : Nat} {s₀ : State} {s : State} {d : Nat} {unit : Nat} {temp : W16} (ha : Sub 33554928 am) (hs : Keeps am s₀ s) : Keeps am s₀ (State.trip s d unit temp) := by
  unfold State.trip
  repeat' first
    | with_reducible assumption
    | exact sub_of ha rfl
    | with_reducible refine keepsOut_next ?_
    | (lift_lets; intro x; refine (fun (hx : Keeps am s₀ x) => ?_) ?_; clear_value x)
    | (intro x; subst x)
    | with_reducible refine State.event_keeps ?_ ?_
    | with_reducible refine State.storeWmark_keeps ?_ ?_
    | with_reducible refine State.withPlat_keeps ?_ ?_
    | with_reducible refine ite_keeps (fun _ => ?_) (fun _ => ?_)
    | with_reducible refine iteOut_keeps (fun _ => ?_) (fun _ => ?_)
    | with_reducible refine foldl_keeps (fun _ _ _ => ?_) ?_
    | with_reducible refine foldl_kfst (fun _ _ _ => ?_) ?_
    | with_reducible refine foldl_ksnd (fun _ _ _ => ?_) ?_
    | subst x
    | with_reducible split
    | dsimp only

theorem State.setThrottle_keeps {am : Nat} {s₀ : State} {s : State} {k : Nat} {t : Throttle} (ha : Sub 524288 am) (hs : Keeps am s₀ s) : Keeps am s₀ (State.setThrottle s k t) := by
  unfold State.setThrottle
  repeat' first
    | with_reducible assumption
    | exact sub_of ha rfl
    | with_reducible refine keepsOut_next ?_
    | (lift_lets; intro x; refine (fun (hx : Keeps am s₀ x) => ?_) ?_; clear_value x)
    | (intro x; subst x)
    | with_reducible refine State.withMs_keeps ?_ ?_
    | with_reducible refine ite_keeps (fun _ => ?_) (fun _ => ?_)
    | with_reducible refine iteOut_keeps (fun _ => ?_) (fun _ => ?_)
    | with_reducible refine foldl_keeps (fun _ _ _ => ?_) ?_
    | with_reducible refine foldl_kfst (fun _ _ _ => ?_) ?_
    | with_reducible refine foldl_ksnd (fun _ _ _ => ?_) ?_
    | subst x
    | with_reducible split
    | dsimp only

theorem execStackTempReport_keeps {am : Nat} {s₀ : State} {k : Fin 20} {temp : W16} {s : State} (ha : Sub 34079216 am) (hs : Keeps am s₀ s) : KeepsOut am s₀ (execStackTempReport k temp s) := by
  unfold execStackTempReport
  repeat' first
    | with_reducible assumption
    | exact sub_of ha rfl
    | with_reducible refine keepsOut_next ?_
    | (lift_lets; intro x; refine (fun (hx : Keeps am s₀ x) => ?_) ?_; clear_value x)
    | (intro x; subst x)
    | with_reducible refine State.setBitF_keeps ?_ ?_
    | with_reducible refine State.setFld_keeps ?_ ?_
    | with_reducible refine State.setThrottle_keeps ?_ ?_
    | with_reducible refine State.trip_keeps ?_ ?_
    | with_reducible refine ite_keeps (fun _ => ?_) (fun _ => ?_)
    | with_reducible refine iteOut_keeps (fun _ => ?_) (fun _ => ?_)
    | with_reducible refine foldl_keeps (fun _ _ _ => ?_) ?_
    | with_reducible refine foldl_kfst (fun _ _ _ => ?_) ?_
    | with_reducible refine foldl_ksnd (fun _ _ _ => ?_) ?_
    | subst x
    | with_reducible split
    | dsimp only

theorem execThrottleFallStep_keeps {am : Nat} {s₀ : State} {k : Fin 20} {s : State} (ha : Sub 524304 am) (hs : Keeps am s₀ s) : KeepsOut am s₀ (execThrottleFallStep k s) := by
  unfold execThrottleFallStep
  repeat' first
    | with_reducible assumption
    | exact sub_of ha rfl
    | with_reducible refine keepsOut_next ?_
    | (lift_lets; intro x; refine (fun (hx : Keeps am s₀ x) => ?_) ?_; clear_value x)
    | (intro x; subst x)
    | with_reducible refine State.setFld_keeps ?_ ?_
    | with_reducible refine State.setThrottle_keeps ?_ ?_
    | with_reducible refine ite_keeps (fun _ => ?_) (fun _ => ?_)
    | with_reducible refine iteOut_keeps (fun _ => ?_) (fun _ => ?_)
    | with_reducible refine foldl_keeps (fun _ _ _ => ?_) ?_
    | with_reducible refine foldl_kfst (fun _ _ _ => ?_) ?_
    | with_reducible refine foldl_ksnd (fun _ _ _ => ?_) ?_
    | subst x
    | with_reducible split
    | dsimp only

theorem execMsTempLost_keeps {am : Nat} {s₀ : State} {k : Fin 20} {s : State} (ha : Sub 34079088 am) (hs : Keeps am s₀ s) : KeepsOut am s₀ (execMsTempLost k s) := by
  unfold execMsTempLost
  repeat' first
    | with_reducible assumption
    | exact sub_of ha rfl
    | with_reducible refine keepsOut_next ?_
    | (lift_lets; intro x; refine (fun (hx : Keeps am s₀ x) => ?_) ?_; clear_value x)
    | (intro x; subst x)
    | with_reducible refine State.event_keeps ?_ ?_
    | with_reducible refine State.setFld_keeps ?_ ?_
    | with_reducible refine State.setThrottle_keeps ?_ ?_
    | with_reducible refine ite_keeps (fun _ => ?_) (fun _ => ?_)
    | with_reducible refine iteOut_keeps (fun _ => ?_) (fun _ => ?_)
    | with_reducible refine foldl_keeps (fun _ _ _ => ?_) ?_
    | with_reducible refine foldl_kfst (fun _ _ _ => ?_) ?_
    | with_reducible refine foldl_ksnd (fun _ _ _ => ?_) ?_
    | subst x
    | with_reducible split
    | dsimp only

theorem execLpTempReport_keeps {am : Nat} {s₀ : State} {k : Fin 32} {temp : W16} {s : State} (ha : Sub 34079088 am) (hs : Keeps am s₀ s) : KeepsOut am s₀ (execLpTempReport k temp s) := by
  unfold execLpTempReport
  repeat' first
    | with_reducible assumption
    | exact sub_of ha rfl
    | with_reducible refine keepsOut_next ?_
    | (lift_lets; intro x; refine (fun (hx : Keeps am s₀ x) => ?_) ?_; clear_value x)
    | (intro x; subst x)
    | with_reducible refine State.event_keeps ?_ ?_
    | with_reducible refine State.setFld_keeps ?_ ?_
    | with_reducible refine State.withMs_keeps ?_ ?_
    | with_reducible refine ite_keeps (fun _ => ?_) (fun _ => ?_)
    | with_reducible refine iteOut_keeps (fun _ => ?_) (fun _ => ?_)
    | with_reducible refine foldl_keeps (fun _ _ _ => ?_) ?_
    | with_reducible refine foldl_kfst (fun _ _ _ => ?_) ?_
    | with_reducible refine foldl_ksnd (fun _ _ _ => ?_) ?_
    | subst x
    | with_reducible split
    | dsimp only

theorem execMscFenceWrite_keeps {am : Nat} {s₀ : State} {k : Fin 20} {chan : W32} {s : State} (ha : Sub 301990256 am) (hs : Keeps am s₀ s) : KeepsOut am s₀ (execMscFenceWrite k chan s) := by
  unfold execMscFenceWrite
  repeat' first
    | with_reducible assumption
    | exact sub_of ha rfl
    | with_reducible refine keepsOut_next ?_
    | (lift_lets; intro x; refine (fun (hx : Keeps am s₀ x) => ?_) ?_; clear_value x)
    | (intro x; subst x)
    | with_reducible refine State.fenceChan_keeps ?_ ?_
    | with_reducible refine ite_keeps (fun _ => ?_) (fun _ => ?_)
    | with_reducible refine iteOut_keeps (fun _ => ?_) (fun _ => ?_)
    | with_reducible refine foldl_keeps (fun _ _ _ => ?_) ?_
    | with_reducible refine foldl_kfst (fun _ _ _ => ?_) ?_
    | with_reducible refine foldl_ksnd (fun _ _ _ => ?_) ?_
    | subst x
    | with_reducible split
    | dsimp only

theorem execLpcFenceWrite_keeps {am : Nat} {s₀ : State} {k : Fin 16} {lp : BitVec 2} {s : State} (ha : Sub 33554800 am) (hs : Keeps am s₀ s) : KeepsOut am s₀ (execLpcFenceWrite k lp s) := by
  unfold execLpcFenceWrite
  repeat' first
    | with_reducible assumption
    | exact sub_of ha rfl
    | with_reducible refine keepsOut_next ?_
    | (lift_lets; intro x; refine (fun (hx : Keeps am s₀ x) => ?_) ?_; clear_value x)
    | (intro x; subst x)
    | with_reducible refine State.fenceLp_keeps ?_ ?_
    | with_reducible refine ite_keeps (fun _ => ?_) (fun _ => ?_)
    | with_reducible refine iteOut_keeps (fun _ => ?_) (fun _ => ?_)
    | with_reducible refine foldl_keeps (fun _ _ _ => ?_) ?_
    | with_reducible refine foldl_kfst (fun _ _ _ => ?_) ?_
    | with_reducible refine foldl_ksnd (fun _ _ _ => ?_) ?_
    | subst x
    | with_reducible split
    | dsimp only

theorem State.ctlFails_keeps {am : Nat} {s₀ : State} {s : State} {m : MemCtl} (ha : Sub 301990256 am) (hs : Keeps am s₀ s) : Keeps am s₀ (State.ctlFails s m) := by
  unfold State.ctlFails
  repeat' first
    | with_reducible assumption
    | exact sub_of ha rfl
    | with_reducible refine keepsOut_next ?_
    | (lift_lets; intro x; refine (fun (hx : Keeps am s₀ x) => ?_) ?_; clear_value x)
    | (intro x; subst x)
    | with_reducible refine State.fenceStack_keeps ?_ ?_
    | with_reducible refine ite_keeps (fun _ => ?_) (fun _ => ?_)
    | with_reducible refine iteOut_keeps (fun _ => ?_) (fun _ => ?_)
    | with_reducible refine foldl_keeps (fun _ _ _ => ?_) ?_
    | with_reducible refine foldl_kfst (fun _ _ _ => ?_) ?_
    | with_reducible refine foldl_ksnd (fun _ _ _ => ?_) ?_
    | subst x
    | with_reducible split
    | dsimp only

theorem execScrubPass_keeps {am : Nat} {s₀ : State} {m : MemCtl} {errs : ScrubErrs} {s : State} (ha : Sub 302252400 am) (hs : Keeps am s₀ s) : KeepsOut am s₀ (execScrubPass m errs s) := by
  unfold execScrubPass
  repeat' first
    | with_reducible assumption
    | exact sub_of ha rfl
    | with_reducible refine keepsOut_next ?_
    | (lift_lets; intro x; refine (fun (hx : Keeps am s₀ x) => ?_) ?_; clear_value x)
    | (intro x; subst x)
    | with_reducible refine State.ctlFails_keeps ?_ ?_
    | with_reducible refine State.lineCe_keeps ?_ ?_
    | with_reducible refine State.lineUe_keeps ?_ ?_
    | with_reducible refine ite_keeps (fun _ => ?_) (fun _ => ?_)
    | with_reducible refine iteOut_keeps (fun _ => ?_) (fun _ => ?_)
    | with_reducible refine foldl_keeps (fun _ _ _ => ?_) ?_
    | with_reducible refine foldl_kfst (fun _ _ _ => ?_) ?_
    | with_reducible refine foldl_ksnd (fun _ _ _ => ?_) ?_
    | subst x
    | with_reducible split
    | dsimp only

theorem execMscEccRead_keeps {am : Nat} {s₀ : State} {m : MemCtl} {s : State} (ha : Sub 20 am) (hs : Keeps am s₀ s) : KeepsOut am s₀ (execMscEccRead m s) := by
  unfold execMscEccRead
  repeat' first
    | with_reducible assumption
    | exact sub_of ha rfl
    | with_reducible refine keepsOut_next ?_
    | (lift_lets; intro x; refine (fun (hx : Keeps am s₀ x) => ?_) ?_; clear_value x)
    | (intro x; subst x)
    | with_reducible refine State.readClear_keeps ?_ ?_
    | with_reducible refine ite_keeps (fun _ => ?_) (fun _ => ?_)
    | with_reducible refine iteOut_keeps (fun _ => ?_) (fun _ => ?_)
    | with_reducible refine foldl_keeps (fun _ _ _ => ?_) ?_
    | with_reducible refine foldl_kfst (fun _ _ _ => ?_) ?_
    | with_reducible refine foldl_ksnd (fun _ _ _ => ?_) ?_
    | subst x
    | with_reducible split
    | dsimp only

theorem State.putUpd_keeps {am : Nat} {s₀ : State} {s : State} {k : UpdCmd} (ha : Sub 1048576 am) (hs : Keeps am s₀ s) : Keeps am s₀ (State.putUpd s k) := by
  unfold State.putUpd
  repeat' first
    | with_reducible assumption
    | exact sub_of ha rfl
    | with_reducible refine keepsOut_next ?_
    | (lift_lets; intro x; refine (fun (hx : Keeps am s₀ x) => ?_) ?_; clear_value x)
    | (intro x; subst x)
    | with_reducible refine State.withUpd_keeps ?_ ?_
    | with_reducible refine ite_keeps (fun _ => ?_) (fun _ => ?_)
    | with_reducible refine iteOut_keeps (fun _ => ?_) (fun _ => ?_)
    | with_reducible refine foldl_keeps (fun _ _ _ => ?_) ?_
    | with_reducible refine foldl_kfst (fun _ _ _ => ?_) ?_
    | with_reducible refine foldl_ksnd (fun _ _ _ => ?_) ?_
    | subst x
    | with_reducible split
    | dsimp only

theorem State.baseInsn_keeps {am : Nat} {s₀ : State} {s : State} {u : Nat} {ctx : Nat} {w : W32} (ha : Sub 787984 am) (hs : Keeps am s₀ s) : Keeps am s₀ (State.baseInsn s u ctx w) := by
  unfold State.baseInsn
  repeat' first
    | with_reducible assumption
    | exact sub_of ha rfl
    | with_reducible refine keepsOut_next ?_
    | (lift_lets; intro x; refine (fun (hx : Keeps am s₀ x) => ?_) ?_; clear_value x)
    | (intro x; subst x)
    | with_reducible refine State.charge_keeps ?_ ?_
    | with_reducible refine State.setG_keeps ?_ ?_
    | with_reducible refine State.setScratchBytes_keeps ?_ ?_
    | with_reducible refine State.storeNat_keeps ?_ ?_
    | with_reducible refine ite_keeps (fun _ => ?_) (fun _ => ?_)
    | with_reducible refine iteOut_keeps (fun _ => ?_) (fun _ => ?_)
    | with_reducible refine foldl_keeps (fun _ _ _ => ?_) ?_
    | with_reducible refine foldl_kfst (fun _ _ _ => ?_) ?_
    | with_reducible refine foldl_ksnd (fun _ _ _ => ?_) ?_
    | subst x
    | with_reducible split
    | dsimp only

theorem State.baseGroup_keeps {am : Nat} {s₀ : State} {s : State} {k : UpdCmd} {u : Nat} (ha : Sub 787984 am) (hs : Keeps am s₀ s) : Keeps am s₀ (State.baseGroup s k u) := by
  unfold State.baseGroup
  repeat' first
    | with_reducible assumption
    | exact sub_of ha rfl
    | with_reducible refine keepsOut_next ?_
    | (lift_lets; intro x; refine (fun (hx : Keeps am s₀ x) => ?_) ?_; clear_value x)
    | (intro x; subst x)
    | with_reducible refine State.baseInsn_keeps ?_ ?_
    | with_reducible refine ite_keeps (fun _ => ?_) (fun _ => ?_)
    | with_reducible refine iteOut_keeps (fun _ => ?_) (fun _ => ?_)
    | with_reducible refine foldl_keeps (fun _ _ _ => ?_) ?_
    | with_reducible refine foldl_kfst (fun _ _ _ => ?_) ?_
    | with_reducible refine foldl_ksnd (fun _ _ _ => ?_) ?_
    | subst x
    | with_reducible split
    | dsimp only

theorem State.lanes_keeps {am : Nat} {s₀ : State} {s : State} {u : Nat} {op : UOp} (ha : Sub 4194308 am) (hs : Keeps am s₀ s) : Keeps am s₀ (State.lanes s u op) := by
  unfold State.lanes
  repeat' first
    | with_reducible assumption
    | exact sub_of ha rfl
    | with_reducible refine keepsOut_next ?_
    | (lift_lets; intro x; refine (fun (hx : Keeps am s₀ x) => ?_) ?_; clear_value x)
    | (intro x; subst x)
    | with_reducible refine State.out_keeps ?_ ?_
    | with_reducible refine State.setUu_keeps ?_ ?_
    | with_reducible refine ite_keeps (fun _ => ?_) (fun _ => ?_)
    | with_reducible refine iteOut_keeps (fun _ => ?_) (fun _ => ?_)
    | with_reducible refine foldl_keeps (fun _ _ _ => ?_) ?_
    | with_reducible refine foldl_kfst (fun _ _ _ => ?_) ?_
    | with_reducible refine foldl_ksnd (fun _ _ _ => ?_) ?_
    | subst x
    | with_reducible split
    | dsimp only

theorem State.takeLanes_keeps {am : Nat} {s₀ : State} {s : State} {k : UpdCmd} {u : Nat} {h : UuHand} (ha : Sub 4982292 am) (hs : Keeps am s₀ s) : Keeps am s₀ (State.takeLanes s k u h) := by
  unfold State.takeLanes
  repeat' first
    | with_reducible assumption
    | exact sub_of ha rfl
    | with_reducible refine keepsOut_next ?_
    | (lift_lets; intro x; refine (fun (hx : Keeps am s₀ x) => ?_) ?_; clear_value x)
    | (intro x; subst x)
    | with_reducible refine State.baseGroup_keeps ?_ ?_
    | with_reducible refine State.out_keeps ?_ ?_
    | with_reducible refine State.setUu_keeps ?_ ?_
    | with_reducible refine ite_keeps (fun _ => ?_) (fun _ => ?_)
    | with_reducible refine iteOut_keeps (fun _ => ?_) (fun _ => ?_)
    | with_reducible refine foldl_keeps (fun _ _ _ => ?_) ?_
    | with_reducible refine foldl_kfst (fun _ _ _ => ?_) ?_
    | with_reducible refine foldl_ksnd (fun _ _ _ => ?_) ?_
    | subst x
    | with_reducible split
    | dsimp only

theorem State.takeHand_keeps {am : Nat} {s₀ : State} {s : State} {k : UpdCmd} {u : Nat} (ha : Sub 4982292 am) (hs : Keeps am s₀ s) : Keeps am s₀ (State.takeHand s k u) := by
  unfold State.takeHand
  repeat' first
    | with_reducible assumption
    | exact sub_of ha rfl
    | with_reducible refine keepsOut_next ?_
    | (lift_lets; intro x; refine (fun (hx : Keeps am s₀ x) => ?_) ?_; clear_value x)
    | (intro x; subst x)
    | with_reducible refine State.setUu_keeps ?_ ?_
    | with_reducible refine State.takeLanes_keeps ?_ ?_
    | with_reducible refine ite_keeps (fun _ => ?_) (fun _ => ?_)
    | with_reducible refine iteOut_keeps (fun _ => ?_) (fun _ => ?_)
    | with_reducible refine foldl_keeps (fun _ _ _ => ?_) ?_
    | with_reducible refine foldl_kfst (fun _ _ _ => ?_) ?_
    | with_reducible refine foldl_ksnd (fun _ _ _ => ?_) ?_
    | subst x
    | with_reducible split
    | dsimp only

theorem execUld_keeps {am : Nat} {s₀ : State} {u : Fin 36} {rd : Gpr} {stream : Fin 32} {s : State} (ha : Sub 4194308 am) (hs : Keeps am s₀ s) : KeepsOut am s₀ (execUld u rd stream s) := by
  unfold execUld
  repeat' first
    | with_reducible assumption
    | exact sub_of ha rfl
    | with_reducible refine keepsOut_next ?_
    | (lift_lets; intro x; refine (fun (hx : Keeps am s₀ x) => ?_) ?_; clear_value x)
    | (intro x; subst x)
    | with_reducible refine State.lanes_keeps ?_ ?_
    | with_reducible refine ite_keeps (fun _ => ?_) (fun _ => ?_)
    | with_reducible refine iteOut_keeps (fun _ => ?_) (fun _ => ?_)
    | with_reducible refine foldl_keeps (fun _ _ _ => ?_) ?_
    | with_reducible refine foldl_kfst (fun _ _ _ => ?_) ?_
    | with_reducible refine foldl_ksnd (fun _ _ _ => ?_) ?_
    | subst x
    | with_reducible split
    | dsimp only

theorem execUst_keeps {am : Nat} {s₀ : State} {u : Fin 36} {stream : Fin 32} {rs2 : Gpr} {s : State} (ha : Sub 4194308 am) (hs : Keeps am s₀ s) : KeepsOut am s₀ (execUst u stream rs2 s) := by
  unfold execUst
  repeat' first
    | with_reducible assumption
    | exact sub_of ha rfl
    | with_reducible refine keepsOut_next ?_
    | (lift_lets; intro x; refine (fun (hx : Keeps am s₀ x) => ?_) ?_; clear_value x)
    | (intro x; subst x)
    | with_reducible refine State.lanes_keeps ?_ ?_
    | with_reducible refine ite_keeps (fun _ => ?_) (fun _ => ?_)
    | with_reducible refine iteOut_keeps (fun _ => ?_) (fun _ => ?_)
    | with_reducible refine foldl_keeps (fun _ _ _ => ?_) ?_
    | with_reducible refine foldl_kfst (fun _ _ _ => ?_) ?_
    | with_reducible refine foldl_ksnd (fun _ _ _ => ?_) ?_
    | subst x
    | with_reducible split
    | dsimp only

theorem execUkset_keeps {am : Nat} {s₀ : State} {u : Fin 36} {rd : Fin 16} {rs1 : Gpr} {s : State} (ha : Sub 5243392 am) (hs : Keeps am s₀ s) : KeepsOut am s₀ (execUkset u rd rs1 s) := by
  unfold execUkset
  repeat' first
    | with_reducible assumption
    | exact sub_of ha rfl
    | with_reducible refine keepsOut_next ?_
    | (lift_lets; intro x; refine (fun (hx : Keeps am s₀ x) => ?_) ?_; clear_value x)
    | (intro x; subst x)
    | with_reducible refine State.nextPc_keeps ?_ ?_
    | with_reducible refine State.putUpd_keeps ?_ ?_
    | with_reducible refine State.setUu_keeps ?_ ?_
    | with_reducible refine ite_keeps (fun _ => ?_) (fun _ => ?_)
    | with_reducible refine iteOut_keeps (fun _ => ?_) (fun _ => ?_)
    | with_reducible refine foldl_keeps (fun _ _ _ => ?_) ?_
    | with_reducible refine foldl_kfst (fun _ _ _ => ?_) ?_
    | with_reducible refine foldl_ksnd (fun _ _ _ => ?_) ?_
    | subst x
    | with_reducible split
    | dsimp only

theorem execUadd_keeps {am : Nat} {s₀ : State} {u : Fin 36} {dbl : Bool} {rd : Gpr} {rs1 : Gpr} {rs2 : Gpr} {s : State} (ha : Sub 4194308 am) (hs : Keeps am s₀ s) : KeepsOut am s₀ (execUadd u dbl rd rs1 rs2 s) := by
  unfold execUadd
  repeat' first
    | with_reducible assumption
    | exact sub_of ha rfl
    | with_reducible refine keepsOut_next ?_
    | (lift_lets; intro x; refine (fun (hx : Keeps am s₀ x) => ?_) ?_; clear_value x)
    | (intro x; subst x)
    | with_reducible refine State.lanes_keeps ?_ ?_
    | with_reducible refine ite_keeps (fun _ => ?_) (fun _ => ?_)
    | with_reducible refine iteOut_keeps (fun _ => ?_) (fun _ => ?_)
    | with_reducible refine foldl_keeps (fun _ _ _ => ?_) ?_
    | with_reducible refine foldl_kfst (fun _ _ _ => ?_) ?_
    | with_reducible refine foldl_ksnd (fun _ _ _ => ?_) ?_
    | subst x
    | with_reducible split
    | dsimp only

theorem execUsub_keeps {am : Nat} {s₀ : State} {u : Fin 36} {dbl : Bool} {rd : Gpr} {rs1 : Gpr} {rs2 : Gpr} {s : State} (ha : Sub 4194308 am) (hs : Keeps am s₀ s) : KeepsOut am s₀ (execUsub u dbl rd rs1 rs2 s) := by
  unfold execUsub
  repeat' first
    | with_reducible assumption
    | exact sub_of ha rfl
    | with_reducible refine keepsOut_next ?_
    | (lift_lets; intro x; refine (fun (hx : Keeps am s₀ x) => ?_) ?_; clear_value x)
    | (intro x; subst x)
    | with_reducible refine State.lanes_keeps ?_ ?_
    | with_reducible refine ite_keeps (fun _ => ?_) (fun _ => ?_)
    | with_reducible refine iteOut_keeps (fun _ => ?_) (fun _ => ?_)
    | with_reducible refine foldl_keeps (fun _ _ _ => ?_) ?_
    | with_reducible refine foldl_kfst (fun _ _ _ => ?_) ?_
    | with_reducible refine foldl_ksnd (fun _ _ _ => ?_) ?_
    | subst x
    | with_reducible split
    | dsimp only

theorem execUmul_keeps {am : Nat} {s₀ : State} {u : Fin 36} {dbl : Bool} {rd : Gpr} {rs1 : Gpr} {rs2 : Gpr} {s : State} (ha : Sub 4194308 am) (hs : Keeps am s₀ s) : KeepsOut am s₀ (execUmul u dbl rd rs1 rs2 s) := by
  unfold execUmul
  repeat' first
    | with_reducible assumption
    | exact sub_of ha rfl
    | with_reducible refine keepsOut_next ?_
    | (lift_lets; intro x; refine (fun (hx : Keeps am s₀ x) => ?_) ?_; clear_value x)
    | (intro x; subst x)
    | with_reducible refine State.lanes_keeps ?_ ?_
    | with_reducible refine ite_keeps (fun _ => ?_) (fun _ => ?_)
    | with_reducible refine iteOut_keeps (fun _ => ?_) (fun _ => ?_)
    | with_reducible refine foldl_keeps (fun _ _ _ => ?_) ?_
    | with_reducible refine foldl_kfst (fun _ _ _ => ?_) ?_
    | with_reducible refine foldl_ksnd (fun _ _ _ => ?_) ?_
    | subst x
    | with_reducible split
    | dsimp only

theorem execUdiv_keeps {am : Nat} {s₀ : State} {u : Fin 36} {dbl : Bool} {rd : Gpr} {rs1 : Gpr} {rs2 : Gpr} {s : State} (ha : Sub 4194308 am) (hs : Keeps am s₀ s) : KeepsOut am s₀ (execUdiv u dbl rd rs1 rs2 s) := by
  unfold execUdiv
  repeat' first
    | with_reducible assumption
    | exact sub_of ha rfl
    | with_reducible refine keepsOut_next ?_
    | (lift_lets; intro x; refine (fun (hx : Keeps am s₀ x) => ?_) ?_; clear_value x)
    | (intro x; subst x)
    | with_reducible refine State.lanes_keeps ?_ ?_
    | with_reducible refine ite_keeps (fun _ => ?_) (fun _ => ?_)
    | with_reducible refine iteOut_keeps (fun _ => ?_) (fun _ => ?_)
    | with_reducible refine foldl_keeps (fun _ _ _ => ?_) ?_
    | with_reducible refine foldl_kfst (fun _ _ _ => ?_) ?_
    | with_reducible refine foldl_ksnd (fun _ _ _ => ?_) ?_
    | subst x
    | with_reducible split
    | dsimp only

theorem execUfma_keeps {am : Nat} {s₀ : State} {u : Fin 36} {dbl : Bool} {rd : Gpr} {rs1 : Gpr} {rs2 : Gpr} {s : State} (ha : Sub 4194308 am) (hs : Keeps am s₀ s) : KeepsOut am s₀ (execUfma u dbl rd rs1 rs2 s) := by
  unfold execUfma
  repeat' first
    | with_reducible assumption
    | exact sub_of ha rfl
    | with_reducible refine keepsOut_next ?_
    | (lift_lets; intro x; refine (fun (hx : Keeps am s₀ x) => ?_) ?_; clear_value x)
    | (intro x; subst x)
    | with_reducible refine State.lanes_keeps ?_ ?_
    | with_reducible refine ite_keeps (fun _ => ?_) (fun _ => ?_)
    | with_reducible refine iteOut_keeps (fun _ => ?_) (fun _ => ?_)
    | with_reducible refine foldl_keeps (fun _ _ _ => ?_) ?_
    | with_reducible refine foldl_kfst (fun _ _ _ => ?_) ?_
    | with_reducible refine foldl_ksnd (fun _ _ _ => ?_) ?_
    | subst x
    | with_reducible split
    | dsimp only

theorem execUsqrt_keeps {am : Nat} {s₀ : State} {u : Fin 36} {dbl : Bool} {rd : Gpr} {rs1 : Gpr} {s : State} (ha : Sub 4194308 am) (hs : Keeps am s₀ s) : KeepsOut am s₀ (execUsqrt u dbl rd rs1 s) := by
  unfold execUsqrt
  repeat' first
    | with_reducible assumption
    | exact sub_of ha rfl
    | with_reducible refine keepsOut_next ?_
    | (lift_lets; intro x; refine (fun (hx : Keeps am s₀ x) => ?_) ?_; clear_value x)
    | (intro x; subst x)
    | with_reducible refine State.lanes_keeps ?_ ?_
    | with_reducible refine ite_keeps (fun _ => ?_) (fun _ => ?_)
    | with_reducible refine iteOut_keeps (fun _ => ?_) (fun _ => ?_)
    | with_reducible refine foldl_keeps (fun _ _ _ => ?_) ?_
    | with_reducible refine foldl_kfst (fun _ _ _ => ?_) ?_
    | with_reducible refine foldl_ksnd (fun _ _ _ => ?_) ?_
    | subst x
    | with_reducible split
    | dsimp only

theorem execUmax_keeps {am : Nat} {s₀ : State} {u : Fin 36} {dbl : Bool} {rd : Gpr} {rs1 : Gpr} {rs2 : Gpr} {s : State} (ha : Sub 4194308 am) (hs : Keeps am s₀ s) : KeepsOut am s₀ (execUmax u dbl rd rs1 rs2 s) := by
  unfold execUmax
  repeat' first
    | with_reducible assumption
    | exact sub_of ha rfl
    | with_reducible refine keepsOut_next ?_
    | (lift_lets; intro x; refine (fun (hx : Keeps am s₀ x) => ?_) ?_; clear_value x)
    | (intro x; subst x)
    | with_reducible refine State.lanes_keeps ?_ ?_
    | with_reducible refine ite_keeps (fun _ => ?_) (fun _ => ?_)
    | with_reducible refine iteOut_keeps (fun _ => ?_) (fun _ => ?_)
    | with_reducible refine foldl_keeps (fun _ _ _ => ?_) ?_
    | with_reducible refine foldl_kfst (fun _ _ _ => ?_) ?_
    | with_reducible refine foldl_ksnd (fun _ _ _ => ?_) ?_
    | subst x
    | with_reducible split
    | dsimp only

theorem execUmin_keeps {am : Nat} {s₀ : State} {u : Fin 36} {dbl : Bool} {rd : Gpr} {rs1 : Gpr} {rs2 : Gpr} {s : State} (ha : Sub 4194308 am) (hs : Keeps am s₀ s) : KeepsOut am s₀ (execUmin u dbl rd rs1 rs2 s) := by
  unfold execUmin
  repeat' first
    | with_reducible assumption
    | exact sub_of ha rfl
    | with_reducible refine keepsOut_next ?_
    | (lift_lets; intro x; refine (fun (hx : Keeps am s₀ x) => ?_) ?_; clear_value x)
    | (intro x; subst x)
    | with_reducible refine State.lanes_keeps ?_ ?_
    | with_reducible refine ite_keeps (fun _ => ?_) (fun _ => ?_)
    | with_reducible refine iteOut_keeps (fun _ => ?_) (fun _ => ?_)
    | with_reducible refine foldl_keeps (fun _ _ _ => ?_) ?_
    | with_reducible refine foldl_kfst (fun _ _ _ => ?_) ?_
    | with_reducible refine foldl_ksnd (fun _ _ _ => ?_) ?_
    | subst x
    | with_reducible split
    | dsimp only

theorem execUabs_keeps {am : Nat} {s₀ : State} {u : Fin 36} {dbl : Bool} {rd : Gpr} {rs1 : Gpr} {s : State} (ha : Sub 4194308 am) (hs : Keeps am s₀ s) : KeepsOut am s₀ (execUabs u dbl rd rs1 s) := by
  unfold execUabs
  repeat' first
    | with_reducible assumption
    | exact sub_of ha rfl
    | with_reducible refine keepsOut_next ?_
    | (lift_lets; intro x; refine (fun (hx : Keeps am s₀ x) => ?_) ?_; clear_value x)
    | (intro x; subst x)
    | with_reducible refine State.lanes_keeps ?_ ?_
    | with_reducible refine ite_keeps (fun _ => ?_) (fun _ => ?_)
    | with_reducible refine iteOut_keeps (fun _ => ?_) (fun _ => ?_)
    | with_reducible refine foldl_keeps (fun _ _ _ => ?_) ?_
    | with_reducible refine foldl_kfst (fun _ _ _ => ?_) ?_
    | with_reducible refine foldl_ksnd (fun _ _ _ => ?_) ?_
    | subst x
    | with_reducible split
    | dsimp only

theorem execUneg_keeps {am : Nat} {s₀ : State} {u : Fin 36} {dbl : Bool} {rd : Gpr} {rs1 : Gpr} {s : State} (ha : Sub 4194308 am) (hs : Keeps am s₀ s) : KeepsOut am s₀ (execUneg u dbl rd rs1 s) := by
  unfold execUneg
  repeat' first
    | with_reducible assumption
    | exact sub_of ha rfl
    | with_reducible refine keepsOut_next ?_
    | (lift_lets; intro x; refine (fun (hx : Keeps am s₀ x) => ?_) ?_; clear_value x)
    | (intro x; subst x)
    | with_reducible refine State.lanes_keeps ?_ ?_
    | with_reducible refine ite_keeps (fun _ => ?_) (fun _ => ?_)
    | with_reducible refine iteOut_keeps (fun _ => ?_) (fun _ => ?_)
    | with_reducible refine foldl_keeps (fun _ _ _ => ?_) ?_
    | with_reducible refine foldl_kfst (fun _ _ _ => ?_) ?_
    | with_reducible refine foldl_ksnd (fun _ _ _ => ?_) ?_
    | subst x
    | with_reducible split
    | dsimp only

theorem execUsgn_keeps {am : Nat} {s₀ : State} {u : Fin 36} {dbl : Bool} {rd : Gpr} {rs1 : Gpr} {s : State} (ha : Sub 4194308 am) (hs : Keeps am s₀ s) : KeepsOut am s₀ (execUsgn u dbl rd rs1 s) := by
  unfold execUsgn
  repeat' first
    | with_reducible assumption
    | exact sub_of ha rfl
    | with_reducible refine keepsOut_next ?_
    | (lift_lets; intro x; refine (fun (hx : Keeps am s₀ x) => ?_) ?_; clear_value x)
    | (intro x; subst x)
    | with_reducible refine State.lanes_keeps ?_ ?_
    | with_reducible refine ite_keeps (fun _ => ?_) (fun _ => ?_)
    | with_reducible refine iteOut_keeps (fun _ => ?_) (fun _ => ?_)
    | with_reducible refine foldl_keeps (fun _ _ _ => ?_) ?_
    | with_reducible refine foldl_kfst (fun _ _ _ => ?_) ?_
    | with_reducible refine foldl_ksnd (fun _ _ _ => ?_) ?_
    | subst x
    | with_reducible split
    | dsimp only

theorem execUcvt_keeps {am : Nat} {s₀ : State} {u : Fin 36} {toDbl : Bool} {rd : Gpr} {rs1 : Gpr} {s : State} (ha : Sub 4194308 am) (hs : Keeps am s₀ s) : KeepsOut am s₀ (execUcvt u toDbl rd rs1 s) := by
  unfold execUcvt
  repeat' first
    | with_reducible assumption
    | exact sub_of ha rfl
    | with_reducible refine keepsOut_next ?_
    | (lift_lets; intro x; refine (fun (hx : Keeps am s₀ x) => ?_) ?_; clear_value x)
    | (intro x; subst x)
    | with_reducible refine State.lanes_keeps ?_ ?_
    | with_reducible refine ite_keeps (fun _ => ?_) (fun _ => ?_)
    | with_reducible refine iteOut_keeps (fun _ => ?_) (fun _ => ?_)
    | with_reducible refine foldl_keeps (fun _ _ _ => ?_) ?_
    | with_reducible refine foldl_kfst (fun _ _ _ => ?_) ?_
    | with_reducible refine foldl_ksnd (fun _ _ _ => ?_) ?_
    | subst x
    | with_reducible split
    | dsimp only

theorem execUwadd_keeps {am : Nat} {s₀ : State} {u : Fin 36} {rd : Gpr} {rs1 : Gpr} {rs2 : Gpr} {s : State} (ha : Sub 4194308 am) (hs : Keeps am s₀ s) : KeepsOut am s₀ (execUwadd u rd rs1 rs2 s) := by
  unfold execUwadd
  repeat' first
    | with_reducible assumption
    | exact sub_of ha rfl
    | with_reducible refine keepsOut_next ?_
    | (lift_lets; intro x; refine (fun (hx : Keeps am s₀ x) => ?_) ?_; clear_value x)
    | (intro x; subst x)
    | with_reducible refine State.lanes_keeps ?_ ?_
    | with_reducible refine ite_keeps (fun _ => ?_) (fun _ => ?_)
    | with_reducible refine iteOut_keeps (fun _ => ?_) (fun _ => ?_)
    | with_reducible refine foldl_keeps (fun _ _ _ => ?_) ?_
    | with_reducible refine foldl_kfst (fun _ _ _ => ?_) ?_
    | with_reducible refine foldl_ksnd (fun _ _ _ => ?_) ?_
    | subst x
    | with_reducible split
    | dsimp only

theorem execUloop_keeps {am : Nat} {s₀ : State} {u : Fin 36} {s : State} (ha : Sub 6030868 am) (hs : Keeps am s₀ s) : KeepsOut am s₀ (execUloop u s) := by
  unfold execUloop
  repeat' first
    | with_reducible assumption
    | exact sub_of ha rfl
    | with_reducible refine keepsOut_next ?_
    | (lift_lets; intro x; refine (fun (hx : Keeps am s₀ x) => ?_) ?_; clear_value x)
    | (intro x; subst x)
    | with_reducible refine State.nextPc_keeps ?_ ?_
    | with_reducible refine State.putUpd_keeps ?_ ?_
    | with_reducible refine State.setUu_keeps ?_ ?_
    | with_reducible refine State.takeHand_keeps ?_ ?_
    | with_reducible refine ite_keeps (fun _ => ?_) (fun _ => ?_)
    | with_reducible refine iteOut_keeps (fun _ => ?_) (fun _ => ?_)
    | with_reducible refine foldl_keeps (fun _ _ _ => ?_) ?_
    | with_reducible refine foldl_kfst (fun _ _ _ => ?_) ?_
    | with_reducible refine foldl_ksnd (fun _ _ _ => ?_) ?_
    | subst x
    | with_reducible split
    | dsimp only

theorem execUuSelftest_keeps {am : Nat} {s₀ : State} {u : Fin 36} {s : State} (ha : Sub 48 am) (hs : Keeps am s₀ s) : KeepsOut am s₀ (execUuSelftest u s) := by
  unfold execUuSelftest
  repeat' first
    | with_reducible assumption
    | exact sub_of ha rfl
    | with_reducible refine keepsOut_next ?_
    | (lift_lets; intro x; refine (fun (hx : Keeps am s₀ x) => ?_) ?_; clear_value x)
    | (intro x; subst x)
    | with_reducible refine State.startSelftest_keeps ?_ ?_
    | with_reducible refine ite_keeps (fun _ => ?_) (fun _ => ?_)
    | with_reducible refine iteOut_keeps (fun _ => ?_) (fun _ => ?_)
    | with_reducible refine foldl_keeps (fun _ _ _ => ?_) ?_
    | with_reducible refine foldl_kfst (fun _ _ _ => ?_) ?_
    | with_reducible refine foldl_ksnd (fun _ _ _ => ?_) ?_
    | subst x
    | with_reducible split
    | dsimp only

theorem execUuSelftestDone_keeps {am : Nat} {s₀ : State} {u : Fin 36} {pass : Bool} {s : State} (ha : Sub 16 am) (hs : Keeps am s₀ s) : KeepsOut am s₀ (execUuSelftestDone u pass s) := by
  unfold execUuSelftestDone
  repeat' first
    | with_reducible assumption
    | exact sub_of ha rfl
    | with_reducible refine keepsOut_next ?_
    | (lift_lets; intro x; refine (fun (hx : Keeps am s₀ x) => ?_) ?_; clear_value x)
    | (intro x; subst x)
    | with_reducible refine State.endSelftest_keeps ?_ ?_
    | with_reducible refine ite_keeps (fun _ => ?_) (fun _ => ?_)
    | with_reducible refine iteOut_keeps (fun _ => ?_) (fun _ => ?_)
    | with_reducible refine foldl_keeps (fun _ _ _ => ?_) ?_
    | with_reducible refine foldl_kfst (fun _ _ _ => ?_) ?_
    | with_reducible refine foldl_ksnd (fun _ _ _ => ?_) ?_
    | subst x
    | with_reducible split
    | dsimp only

theorem execUuReadmit_keeps {am : Nat} {s₀ : State} {u : Fin 36} {s : State} (ha : Sub 33554736 am) (hs : Keeps am s₀ s) : KeepsOut am s₀ (execUuReadmit u s) := by
  unfold execUuReadmit
  repeat' first
    | with_reducible assumption
    | exact sub_of ha rfl
    | with_reducible refine keepsOut_next ?_
    | (lift_lets; intro x; refine (fun (hx : Keeps am s₀ x) => ?_) ?_; clear_value x)
    | (intro x; subst x)
    | with_reducible refine State.readmit_keeps ?_ ?_
    | with_reducible refine ite_keeps (fun _ => ?_) (fun _ => ?_)
    | with_reducible refine iteOut_keeps (fun _ => ?_) (fun _ => ?_)
    | with_reducible refine foldl_keeps (fun _ _ _ => ?_) ?_
    | with_reducible refine foldl_kfst (fun _ _ _ => ?_) ?_
    | with_reducible refine foldl_ksnd (fun _ _ _ => ?_) ?_
    | subst x
    | with_reducible split
    | dsimp only

theorem execUuPerfRead_keeps {am : Nat} {s₀ : State} {u : Fin 36} {s : State} (ha : Sub 20 am) (hs : Keeps am s₀ s) : KeepsOut am s₀ (execUuPerfRead u s) := by
  unfold execUuPerfRead
  repeat' first
    | with_reducible assumption
    | exact sub_of ha rfl
    | with_reducible refine keepsOut_next ?_
    | (lift_lets; intro x; refine (fun (hx : Keeps am s₀ x) => ?_) ?_; clear_value x)
    | (intro x; subst x)
    | with_reducible refine State.readClear_keeps ?_ ?_
    | with_reducible refine ite_keeps (fun _ => ?_) (fun _ => ?_)
    | with_reducible refine iteOut_keeps (fun _ => ?_) (fun _ => ?_)
    | with_reducible refine foldl_keeps (fun _ _ _ => ?_) ?_
    | with_reducible refine foldl_kfst (fun _ _ _ => ?_) ?_
    | with_reducible refine foldl_ksnd (fun _ _ _ => ?_) ?_
    | subst x
    | with_reducible split
    | dsimp only

theorem execUpdPerfRead_keeps {am : Nat} {s₀ : State} {d : Die} {s : State} (ha : Sub 20 am) (hs : Keeps am s₀ s) : KeepsOut am s₀ (execUpdPerfRead d s) := by
  unfold execUpdPerfRead
  repeat' first
    | with_reducible assumption
    | exact sub_of ha rfl
    | with_reducible refine keepsOut_next ?_
    | (lift_lets; intro x; refine (fun (hx : Keeps am s₀ x) => ?_) ?_; clear_value x)
    | (intro x; subst x)
    | with_reducible refine State.out_keeps ?_ ?_
    | with_reducible refine State.readClear_keeps ?_ ?_
    | with_reducible refine ite_keeps (fun _ => ?_) (fun _ => ?_)
    | with_reducible refine iteOut_keeps (fun _ => ?_) (fun _ => ?_)
    | with_reducible refine foldl_keeps (fun _ _ _ => ?_) ?_
    | with_reducible refine foldl_kfst (fun _ _ _ => ?_) ?_
    | with_reducible refine foldl_ksnd (fun _ _ _ => ?_) ?_
    | subst x
    | with_reducible split
    | dsimp only

theorem execFsig_keeps {am : Nat} {s₀ : State} {c : CoreNo} {rd : Gpr} {rs1 : Gpr} {rs2 : Gpr} {s : State} (ha : Sub 33554992 am) (hs : Keeps am s₀ s) : KeepsOut am s₀ (execFsig c rd rs1 rs2 s) := by
  unfold execFsig
  repeat' first
    | with_reducible assumption
    | exact sub_of ha rfl
    | with_reducible refine keepsOut_next ?_
    | (lift_lets; intro x; refine (fun (hx : Keeps am s₀ x) => ?_) ?_; clear_value x)
    | (intro x; subst x)
    | with_reducible refine State.illegal_keeps ?_ ?_
    | with_reducible refine State.retSt_keeps ?_ ?_
    | with_reducible refine State.signal_keeps ?_ ?_
    | with_reducible refine State.signal_keeps_eq ?_ (by with_reducible assumption) ?_
    | with_reducible refine ite_keeps (fun _ => ?_) (fun _ => ?_)
    | with_reducible refine iteOut_keeps (fun _ => ?_) (fun _ => ?_)
    | with_reducible refine foldl_keeps (fun _ _ _ => ?_) ?_
    | with_reducible refine foldl_kfst (fun _ _ _ => ?_) ?_
    | with_reducible refine foldl_ksnd (fun _ _ _ => ?_) ?_
    | subst x
    | with_reducible split
    | dsimp only

theorem execSwait_keeps {am : Nat} {s₀ : State} {c : CoreNo} {nb : Bool} {rd : Gpr} {rs1 : Gpr} {s : State} (ha : Sub 33554994 am) (hs : Keeps am s₀ s) : KeepsOut am s₀ (execSwait c nb rd rs1 s) := by
  unfold execSwait
  repeat' first
    | with_reducible assumption
    | exact sub_of ha rfl
    | with_reducible refine keepsOut_next ?_
    | (lift_lets; intro x; refine (fun (hx : Keeps am s₀ x) => ?_) ?_; clear_value x)
    | (intro x; subst x)
    | with_reducible refine State.illegal_keeps ?_ ?_
    | with_reducible refine State.retNone_keeps ?_ ?_
    | with_reducible refine State.retPair_keeps ?_ ?_
    | with_reducible refine State.signal_keeps ?_ ?_
    | with_reducible refine State.wait_keeps ?_ ?_
    | with_reducible refine State.signal_keeps_eq ?_ (by with_reducible assumption) ?_
    | with_reducible refine State.takeSignals_keeps_eq ?_ (by with_reducible assumption) ?_
    | with_reducible refine ite_keeps (fun _ => ?_) (fun _ => ?_)
    | with_reducible refine iteOut_keeps (fun _ => ?_) (fun _ => ?_)
    | with_reducible refine foldl_keeps (fun _ _ _ => ?_) ?_
    | with_reducible refine foldl_kfst (fun _ _ _ => ?_) ?_
    | with_reducible refine foldl_ksnd (fun _ _ _ => ?_) ?_
    | subst x
    | with_reducible split
    | dsimp only

theorem State.coreArrive_keeps {am : Nat} {s₀ : State} {s : State} {c : Nat} {rd : Nat} {b : Nat} {nb : Bool} (ha : Sub 2181038962 am) (hs : Keeps am s₀ s) : Keeps am s₀ (State.coreArrive s c rd b nb) := by
  unfold State.coreArrive
  repeat' first
    | with_reducible assumption
    | exact sub_of ha rfl
    | with_reducible refine keepsOut_next ?_
    | (lift_lets; intro x; refine (fun (hx : Keeps am s₀ x) => ?_) ?_; clear_value x)
    | (intro x; subst x)
    | with_reducible refine State.barAdvance_keeps ?_ ?_
    | with_reducible refine State.retNone_keeps ?_ ?_
    | with_reducible refine State.retPair_keeps ?_ ?_
    | with_reducible refine State.setArrived_keeps ?_ ?_
    | with_reducible refine State.wait_keeps ?_ ?_
    | with_reducible refine ite_keeps (fun _ => ?_) (fun _ => ?_)
    | with_reducible refine iteOut_keeps (fun _ => ?_) (fun _ => ?_)
    | with_reducible refine foldl_keeps (fun _ _ _ => ?_) ?_
    | with_reducible refine foldl_kfst (fun _ _ _ => ?_) ?_
    | with_reducible refine foldl_ksnd (fun _ _ _ => ?_) ?_
    | subst x
    | with_reducible split
    | dsimp only

theorem State.courierArrive_keeps {am : Nat} {s₀ : State} {s : State} {c : Nat} {rd : Nat} {b : Nat} {ctx : Nat} {nb : Bool} (ha : Sub 2181038960 am) (hs : Keeps am s₀ s) : Keeps am s₀ (State.courierArrive s c rd b ctx nb) := by
  unfold State.courierArrive
  repeat' first
    | with_reducible assumption
    | exact sub_of ha rfl
    | with_reducible refine keepsOut_next ?_
    | (lift_lets; intro x; refine (fun (hx : Keeps am s₀ x) => ?_) ?_; clear_value x)
    | (intro x; subst x)
    | with_reducible refine State.agentArrive_keeps ?_ ?_
    | with_reducible refine State.retPair_keeps ?_ ?_
    | with_reducible refine State.wait_keeps ?_ ?_
    | with_reducible refine State.agentArrive_keeps_eq ?_ (by with_reducible assumption) ?_
    | with_reducible refine ite_keeps (fun _ => ?_) (fun _ => ?_)
    | with_reducible refine iteOut_keeps (fun _ => ?_) (fun _ => ?_)
    | with_reducible refine foldl_keeps (fun _ _ _ => ?_) ?_
    | with_reducible refine foldl_kfst (fun _ _ _ => ?_) ?_
    | with_reducible refine foldl_ksnd (fun _ _ _ => ?_) ?_
    | subst x
    | with_reducible split
    | dsimp only

theorem execBarr_keeps {am : Nat} {s₀ : State} {c : CoreNo} {nb : Bool} {rd : Gpr} {rs1 : Gpr} {s : State} (ha : Sub 2181038962 am) (hs : Keeps am s₀ s) : KeepsOut am s₀ (execBarr c nb rd rs1 s) := by
  unfold execBarr
  repeat' first
    | with_reducible assumption
    | exact sub_of ha rfl
    | with_reducible refine keepsOut_next ?_
    | (lift_lets; intro x; refine (fun (hx : Keeps am s₀ x) => ?_) ?_; clear_value x)
    | (intro x; subst x)
    | with_reducible refine State.coreArrive_keeps ?_ ?_
    | with_reducible refine State.courierArrive_keeps ?_ ?_
    | with_reducible refine State.illegal_keeps ?_ ?_
    | with_reducible refine State.retNone_keeps ?_ ?_
    | with_reducible refine ite_keeps (fun _ => ?_) (fun _ => ?_)
    | with_reducible refine iteOut_keeps (fun _ => ?_) (fun _ => ?_)
    | with_reducible refine foldl_keeps (fun _ _ _ => ?_) ?_
    | with_reducible refine foldl_kfst (fun _ _ _ => ?_) ?_
    | with_reducible refine foldl_ksnd (fun _ _ _ => ?_) ?_
    | subst x
    | with_reducible split
    | dsimp only

theorem execBwait_keeps {am : Nat} {s₀ : State} {c : CoreNo} {nb : Bool} {rd : Gpr} {rs1 : Gpr} {rs2 : Gpr} {s : State} (ha : Sub 2181038960 am) (hs : Keeps am s₀ s) : KeepsOut am s₀ (execBwait c nb rd rs1 rs2 s) := by
  unfold execBwait
  repeat' first
    | with_reducible assumption
    | exact sub_of ha rfl
    | with_reducible refine keepsOut_next ?_
    | (lift_lets; intro x; refine (fun (hx : Keeps am s₀ x) => ?_) ?_; clear_value x)
    | (intro x; subst x)
    | with_reducible refine State.illegal_keeps ?_ ?_
    | with_reducible refine State.retSt_keeps ?_ ?_
    | with_reducible refine State.wait_keeps ?_ ?_
    | with_reducible refine ite_keeps (fun _ => ?_) (fun _ => ?_)
    | with_reducible refine iteOut_keeps (fun _ => ?_) (fun _ => ?_)
    | with_reducible refine foldl_keeps (fun _ _ _ => ?_) ?_
    | with_reducible refine foldl_kfst (fun _ _ _ => ?_) ?_
    | with_reducible refine foldl_ksnd (fun _ _ _ => ?_) ?_
    | subst x
    | with_reducible split
    | dsimp only

theorem execBarrive_keeps {am : Nat} {s₀ : State} {u : Fin 36} {ctx : Byte} {data : W64} {s : State} (ha : Sub 2181038960 am) (hs : Keeps am s₀ s) : KeepsOut am s₀ (execBarrive u ctx data s) := by
  unfold execBarrive
  repeat' first
    | with_reducible assumption
    | exact sub_of ha rfl
    | with_reducible refine keepsOut_next ?_
    | (lift_lets; intro x; refine (fun (hx : Keeps am s₀ x) => ?_) ?_; clear_value x)
    | (intro x; subst x)
    | with_reducible refine State.agentArrive_keeps ?_ ?_
    | with_reducible refine State.nextPc_keeps ?_ ?_
    | with_reducible refine State.agentArrive_keeps_eq ?_ (by with_reducible assumption) ?_
    | with_reducible refine ite_keeps (fun _ => ?_) (fun _ => ?_)
    | with_reducible refine iteOut_keeps (fun _ => ?_) (fun _ => ?_)
    | with_reducible refine foldl_keeps (fun _ _ _ => ?_) ?_
    | with_reducible refine foldl_kfst (fun _ _ _ => ?_) ?_
    | with_reducible refine foldl_ksnd (fun _ _ _ => ?_) ?_
    | subst x
    | with_reducible split
    | dsimp only

theorem State.timeOut_keeps {am : Nat} {s₀ : State} {s : State} {w : Waiter} (ha : Sub 2181038962 am) (hs : Keeps am s₀ s) : Keeps am s₀ (State.timeOut s w) := by
  unfold State.timeOut
  repeat' first
    | with_reducible assumption
    | exact sub_of ha rfl
    | with_reducible refine keepsOut_next ?_
    | (lift_lets; intro x; refine (fun (hx : Keeps am s₀ x) => ?_) ?_; clear_value x)
    | (intro x; subst x)
    | with_reducible refine State.retNone_keeps ?_ ?_
    | with_reducible refine State.retPair_keeps ?_ ?_
    | with_reducible refine State.retSt_keeps ?_ ?_
    | with_reducible refine State.signal_keeps ?_ ?_
    | with_reducible refine State.unwait_keeps ?_ ?_
    | with_reducible refine State.signal_keeps_eq ?_ (by with_reducible assumption) ?_
    | with_reducible refine ite_keeps (fun _ => ?_) (fun _ => ?_)
    | with_reducible refine iteOut_keeps (fun _ => ?_) (fun _ => ?_)
    | with_reducible refine foldl_keeps (fun _ _ _ => ?_) ?_
    | with_reducible refine foldl_kfst (fun _ _ _ => ?_) ?_
    | with_reducible refine foldl_ksnd (fun _ _ _ => ?_) ?_
    | subst x
    | with_reducible split
    | dsimp only

theorem execSyncTimeout_keeps {am : Nat} {s₀ : State} {c : CoreNo} {s : State} (ha : Sub 2181038962 am) (hs : Keeps am s₀ s) : KeepsOut am s₀ (execSyncTimeout c s) := by
  unfold execSyncTimeout
  repeat' first
    | with_reducible assumption
    | exact sub_of ha rfl
    | with_reducible refine keepsOut_next ?_
    | (lift_lets; intro x; refine (fun (hx : Keeps am s₀ x) => ?_) ?_; clear_value x)
    | (intro x; subst x)
    | with_reducible refine State.timeOut_keeps ?_ ?_
    | with_reducible refine ite_keeps (fun _ => ?_) (fun _ => ?_)
    | with_reducible refine iteOut_keeps (fun _ => ?_) (fun _ => ?_)
    | with_reducible refine foldl_keeps (fun _ _ _ => ?_) ?_
    | with_reducible refine foldl_kfst (fun _ _ _ => ?_) ?_
    | with_reducible refine foldl_ksnd (fun _ _ _ => ?_) ?_
    | subst x
    | with_reducible split
    | dsimp only

theorem State.setClaims_keeps {am : Nat} {s₀ : State} {s : State} {m : KMap (Option Claim)} (ha : Sub 33554432 am) (hs : Keeps am s₀ s) : Keeps am s₀ (State.setClaims s m) := by
  unfold State.setClaims
  repeat' first
    | with_reducible assumption
    | exact sub_of ha rfl
    | with_reducible refine keepsOut_next ?_
    | (lift_lets; intro x; refine (fun (hx : Keeps am s₀ x) => ?_) ?_; clear_value x)
    | (intro x; subst x)
    | with_reducible refine State.withSync_keeps ?_ ?_
    | with_reducible refine ite_keeps (fun _ => ?_) (fun _ => ?_)
    | with_reducible refine iteOut_keeps (fun _ => ?_) (fun _ => ?_)
    | with_reducible refine foldl_keeps (fun _ _ _ => ?_) ?_
    | with_reducible refine foldl_kfst (fun _ _ _ => ?_) ?_
    | with_reducible refine foldl_ksnd (fun _ _ _ => ?_) ?_
    | subst x
    | with_reducible split
    | dsimp only

theorem execFclaim_keeps {am : Nat} {s₀ : State} {c : CoreNo} {rd : Gpr} {rs1 : Gpr} {rs2 : Gpr} {s : State} (ha : Sub 33554992 am) (hs : Keeps am s₀ s) : KeepsOut am s₀ (execFclaim c rd rs1 rs2 s) := by
  unfold execFclaim
  repeat' first
    | with_reducible assumption
    | exact sub_of ha rfl
    | with_reducible refine keepsOut_next ?_
    | (lift_lets; intro x; refine (fun (hx : Keeps am s₀ x) => ?_) ?_; clear_value x)
    | (intro x; subst x)
    | with_reducible refine State.illegal_keeps ?_ ?_
    | with_reducible refine State.retSt_keeps ?_ ?_
    | with_reducible refine State.setClaims_keeps ?_ ?_
    | with_reducible refine State.setErr_keeps ?_ ?_
    | with_reducible refine ite_keeps (fun _ => ?_) (fun _ => ?_)
    | with_reducible refine iteOut_keeps (fun _ => ?_) (fun _ => ?_)
    | with_reducible refine foldl_keeps (fun _ _ _ => ?_) ?_
    | with_reducible refine foldl_kfst (fun _ _ _ => ?_) ?_
    | with_reducible refine foldl_ksnd (fun _ _ _ => ?_) ?_
    | subst x
    | with_reducible split
    | dsimp only

theorem execFrel_keeps {am : Nat} {s₀ : State} {c : CoreNo} {rd : Gpr} {rs1 : Gpr} {s : State} (ha : Sub 33554992 am) (hs : Keeps am s₀ s) : KeepsOut am s₀ (execFrel c rd rs1 s) := by
  unfold execFrel
  repeat' first
    | with_reducible assumption
    | exact sub_of ha rfl
    | with_reducible refine keepsOut_next ?_
    | (lift_lets; intro x; refine (fun (hx : Keeps am s₀ x) => ?_) ?_; clear_value x)
    | (intro x; subst x)
    | with_reducible refine State.illegal_keeps ?_ ?_
    | with_reducible refine State.retSt_keeps ?_ ?_
    | with_reducible refine State.setClaims_keeps ?_ ?_
    | with_reducible refine ite_keeps (fun _ => ?_) (fun _ => ?_)
    | with_reducible refine iteOut_keeps (fun _ => ?_) (fun _ => ?_)
    | with_reducible refine foldl_keeps (fun _ _ _ => ?_) ?_
    | with_reducible refine foldl_kfst (fun _ _ _ => ?_) ?_
    | with_reducible refine foldl_ksnd (fun _ _ _ => ?_) ?_
    | subst x
    | with_reducible split
    | dsimp only

theorem State.synLose_keeps {am : Nat} {s₀ : State} {s : State} {go : Bool} {ctx : Nat} (ha : Sub 2181038962 am) (hs : Keeps am s₀ s) : Keeps am s₀ (State.synLose s go ctx) := by
  unfold State.synLose
  repeat' first
    | with_reducible assumption
    | exact sub_of ha rfl
    | with_reducible refine keepsOut_next ?_
    | (lift_lets; intro x; refine (fun (hx : Keeps am s₀ x) => ?_) ?_; clear_value x)
    | (intro x; subst x)
    | with_reducible refine State.lose_keeps ?_ ?_
    | with_reducible refine State.setErr_keeps ?_ ?_
    | with_reducible refine ite_keeps (fun _ => ?_) (fun _ => ?_)
    | with_reducible refine iteOut_keeps (fun _ => ?_) (fun _ => ?_)
    | with_reducible refine foldl_keeps (fun _ _ _ => ?_) ?_
    | with_reducible refine foldl_kfst (fun _ _ _ => ?_) ?_
    | with_reducible refine foldl_ksnd (fun _ _ _ => ?_) ?_
    | subst x
    | with_reducible split
    | dsimp only

theorem execSynLose_keeps {am : Nat} {s₀ : State} {ctx : Byte} {s : State} (ha : Sub 2181038962 am) (hs : Keeps am s₀ s) : KeepsOut am s₀ (execSynLose ctx s) := by
  unfold execSynLose
  repeat' first
    | with_reducible assumption
    | exact sub_of ha rfl
    | with_reducible refine keepsOut_next ?_
    | (lift_lets; intro x; refine (fun (hx : Keeps am s₀ x) => ?_) ?_; clear_value x)
    | (intro x; subst x)
    | with_reducible refine State.synLose_keeps ?_ ?_
    | with_reducible refine ite_keeps (fun _ => ?_) (fun _ => ?_)
    | with_reducible refine iteOut_keeps (fun _ => ?_) (fun _ => ?_)
    | with_reducible refine foldl_keeps (fun _ _ _ => ?_) ?_
    | with_reducible refine foldl_kfst (fun _ _ _ => ?_) ?_
    | with_reducible refine foldl_ksnd (fun _ _ _ => ?_) ?_
    | subst x
    | with_reducible split
    | dsimp only

theorem State.markLost_keeps {am : Nat} {s₀ : State} {s : State} (ha : Sub 33816592 am) (hs : Keeps am s₀ s) : Keeps am s₀ (State.markLost s) := by
  unfold State.markLost
  repeat' first
    | with_reducible assumption
    | exact sub_of ha rfl
    | with_reducible refine keepsOut_next ?_
    | (lift_lets; intro x; refine (fun (hx : Keeps am s₀ x) => ?_) ?_; clear_value x)
    | (intro x; subst x)
    | with_reducible refine State.setBitF_keeps ?_ ?_
    | with_reducible refine State.setClaims_keeps ?_ ?_
    | with_reducible refine State.setFull_keeps ?_ ?_
    | with_reducible refine State.setPoison_keeps ?_ ?_
    | with_reducible refine ite_keeps (fun _ => ?_) (fun _ => ?_)
    | with_reducible refine iteOut_keeps (fun _ => ?_) (fun _ => ?_)
    | with_reducible refine foldl_keeps (fun _ _ _ => ?_) ?_
    | with_reducible refine foldl_kfst (fun _ _ _ => ?_) ?_
    | with_reducible refine foldl_ksnd (fun _ _ _ => ?_) ?_
    | subst x
    | with_reducible split
    | dsimp only

theorem execClaimMarkDone_keeps {am : Nat} {s₀ : State} {s : State} (ha : Sub 33816592 am) (hs : Keeps am s₀ s) : KeepsOut am s₀ (execClaimMarkDone s) := by
  unfold execClaimMarkDone
  repeat' first
    | with_reducible assumption
    | exact sub_of ha rfl
    | with_reducible refine keepsOut_next ?_
    | (lift_lets; intro x; refine (fun (hx : Keeps am s₀ x) => ?_) ?_; clear_value x)
    | (intro x; subst x)
    | with_reducible refine State.markLost_keeps ?_ ?_
    | with_reducible refine ite_keeps (fun _ => ?_) (fun _ => ?_)
    | with_reducible refine iteOut_keeps (fun _ => ?_) (fun _ => ?_)
    | with_reducible refine foldl_keeps (fun _ _ _ => ?_) ?_
    | with_reducible refine foldl_kfst (fun _ _ _ => ?_) ?_
    | with_reducible refine foldl_ksnd (fun _ _ _ => ?_) ?_
    | subst x
    | with_reducible split
    | dsimp only

theorem execBarArm_keeps {am : Nat} {s₀ : State} {b : Fin 64} {data : W64} {s : State} (ha : Sub 33554480 am) (hs : Keeps am s₀ s) : KeepsOut am s₀ (execBarArm b data s) := by
  unfold execBarArm
  repeat' first
    | with_reducible assumption
    | exact sub_of ha rfl
    | with_reducible refine keepsOut_next ?_
    | (lift_lets; intro x; refine (fun (hx : Keeps am s₀ x) => ?_) ?_; clear_value x)
    | (intro x; subst x)
    | with_reducible refine State.clearArrived_keeps ?_ ?_
    | with_reducible refine State.lockedWrite_keeps ?_ ?_
    | with_reducible refine State.plainWrite_keeps ?_ ?_
    | with_reducible refine State.setBitF_keeps ?_ ?_
    | with_reducible refine State.setErr_keeps ?_ ?_
    | with_reducible refine State.setFld_keeps ?_ ?_
    | with_reducible refine State.withSync_keeps ?_ ?_
    | with_reducible refine ite_keeps (fun _ => ?_) (fun _ => ?_)
    | with_reducible refine iteOut_keeps (fun _ => ?_) (fun _ => ?_)
    | with_reducible refine foldl_keeps (fun _ _ _ => ?_) ?_
    | with_reducible refine foldl_kfst (fun _ _ _ => ?_) ?_
    | with_reducible refine foldl_ksnd (fun _ _ _ => ?_) ?_
    | subst x
    | with_reducible split
    | dsimp only

theorem execBarDisarm_keeps {am : Nat} {s₀ : State} {b : Fin 64} {s : State} (ha : Sub 2181038962 am) (hs : Keeps am s₀ s) : KeepsOut am s₀ (execBarDisarm b s) := by
  unfold execBarDisarm
  repeat' first
    | with_reducible assumption
    | exact sub_of ha rfl
    | with_reducible refine keepsOut_next ?_
    | (lift_lets; intro x; refine (fun (hx : Keeps am s₀ x) => ?_) ?_; clear_value x)
    | (intro x; subst x)
    | with_reducible refine State.releaseBroken_keeps ?_ ?_
    | with_reducible refine State.setBitF_keeps ?_ ?_
    | with_reducible refine State.setFld_keeps ?_ ?_
    | with_reducible refine ite_keeps (fun _ => ?_) (fun _ => ?_)
    | with_reducible refine iteOut_keeps (fun _ => ?_) (fun _ => ?_)
    | with_reducible refine foldl_keeps (fun _ _ _ => ?_) ?_
    | with_reducible refine foldl_kfst (fun _ _ _ => ?_) ?_
    | with_reducible refine foldl_ksnd (fun _ _ _ => ?_) ?_
    | subst x
    | with_reducible split
    | dsimp only

theorem execBarStatRead_keeps {am : Nat} {s₀ : State} {b : Fin 64} {s : State} (ha : Sub 20 am) (hs : Keeps am s₀ s) : KeepsOut am s₀ (execBarStatRead b s) := by
  unfold execBarStatRead
  repeat' first
    | with_reducible assumption
    | exact sub_of ha rfl
    | with_reducible refine keepsOut_next ?_
    | (lift_lets; intro x; refine (fun (hx : Keeps am s₀ x) => ?_) ?_; clear_value x)
    | (intro x; subst x)
    | with_reducible refine State.readClear_keeps ?_ ?_
    | with_reducible refine ite_keeps (fun _ => ?_) (fun _ => ?_)
    | with_reducible refine iteOut_keeps (fun _ => ?_) (fun _ => ?_)
    | with_reducible refine foldl_keeps (fun _ _ _ => ?_) ?_
    | with_reducible refine foldl_kfst (fun _ _ _ => ?_) ?_
    | with_reducible refine foldl_ksnd (fun _ _ _ => ?_) ?_
    | subst x
    | with_reducible split
    | dsimp only

end Sys2Proof.Machine
end

