-- ==== Sys2Proof/Laws/KeepFabric.lean ====
section
/-! SUPPORT. What each operation may change, part by part of the state: the fabric, the ledger, the host link, boot, recovery, the platform and the cores. -/

namespace Sys2Proof.Machine
-- The tactic scripts here have one shape for every operation, so some of their steps do nothing for some operations.
set_option linter.unusedTactic false
set_option linter.unreachableTactic false

theorem State.sendCtl_keeps {am : Nat} {s₀ : State} {s : State} {p : Nat} {flit : List W64} (ha : Sub 67174400 am) (hs : Keeps am s₀ s) : Keeps am s₀ (State.sendCtl s p flit) := by
  unfold State.sendCtl
  repeat' first
    | with_reducible assumption
    | exact sub_of ha rfl
    | with_reducible refine keepsOut_next ?_
    | (lift_lets; intro x; refine (fun (hx : Keeps am s₀ x) => ?_) ?_; clear_value x)
    | (intro x; subst x)
    | with_reducible refine State.addWork_keeps ?_ ?_
    | with_reducible refine State.setPort_keeps ?_ ?_
    | with_reducible refine ite_keeps (fun _ => ?_) (fun _ => ?_)
    | with_reducible refine iteOut_keeps (fun _ => ?_) (fun _ => ?_)
    | with_reducible refine foldl_keeps (fun _ _ _ => ?_) ?_
    | with_reducible refine foldl_kfst (fun _ _ _ => ?_) ?_
    | with_reducible refine foldl_ksnd (fun _ _ _ => ?_) ?_
    | subst x
    | with_reducible split
    | dsimp only

theorem State.hearCtl_keeps {am : Nat} {s₀ : State} {s : State} {p : Nat} (ha : Sub 65536 am) (hs : Keeps am s₀ s) : Keeps am s₀ (State.hearCtl s p) := by
  unfold State.hearCtl
  repeat' first
    | with_reducible assumption
    | exact sub_of ha rfl
    | with_reducible refine keepsOut_next ?_
    | (lift_lets; intro x; refine (fun (hx : Keeps am s₀ x) => ?_) ?_; clear_value x)
    | (intro x; subst x)
    | with_reducible refine State.addWork_keeps ?_ ?_
    | with_reducible refine ite_keeps (fun _ => ?_) (fun _ => ?_)
    | with_reducible refine iteOut_keeps (fun _ => ?_) (fun _ => ?_)
    | with_reducible refine foldl_keeps (fun _ _ _ => ?_) ?_
    | with_reducible refine foldl_kfst (fun _ _ _ => ?_) ?_
    | with_reducible refine foldl_ksnd (fun _ _ _ => ?_) ?_
    | subst x
    | with_reducible split
    | dsimp only

theorem State.freeFlits_keeps {am : Nat} {s₀ : State} {s : State} {p : Nat} {vc : Nat} {n : Nat} (ha : Sub 67108864 am) (hs : Keeps am s₀ s) : Keeps am s₀ (State.freeFlits s p vc n) := by
  unfold State.freeFlits
  repeat' first
    | with_reducible assumption
    | exact sub_of ha rfl
    | with_reducible refine keepsOut_next ?_
    | (lift_lets; intro x; refine (fun (hx : Keeps am s₀ x) => ?_) ?_; clear_value x)
    | (intro x; subst x)
    | with_reducible refine State.setPort_keeps ?_ ?_
    | with_reducible refine ite_keeps (fun _ => ?_) (fun _ => ?_)
    | with_reducible refine iteOut_keeps (fun _ => ?_) (fun _ => ?_)
    | with_reducible refine foldl_keeps (fun _ _ _ => ?_) ?_
    | with_reducible refine foldl_kfst (fun _ _ _ => ?_) ?_
    | with_reducible refine foldl_ksnd (fun _ _ _ => ?_) ?_
    | subst x
    | with_reducible split
    | dsimp only

theorem State.unhold_keeps {am : Nat} {s₀ : State} {s : State} {h : Held} (ha : Sub 67108864 am) (hs : Keeps am s₀ s) : Keeps am s₀ (State.unhold s h) := by
  unfold State.unhold
  repeat' first
    | with_reducible assumption
    | exact sub_of ha rfl
    | with_reducible refine keepsOut_next ?_
    | (lift_lets; intro x; refine (fun (hx : Keeps am s₀ x) => ?_) ?_; clear_value x)
    | (intro x; subst x)
    | with_reducible refine State.freeFlits_keeps ?_ ?_
    | with_reducible refine State.withNet_keeps ?_ ?_
    | with_reducible refine ite_keeps (fun _ => ?_) (fun _ => ?_)
    | with_reducible refine iteOut_keeps (fun _ => ?_) (fun _ => ?_)
    | with_reducible refine foldl_keeps (fun _ _ _ => ?_) ?_
    | with_reducible refine foldl_kfst (fun _ _ _ => ?_) ?_
    | with_reducible refine foldl_ksnd (fun _ _ _ => ?_) ?_
    | subst x
    | with_reducible split
    | dsimp only

theorem State.dropPackets_keeps {am : Nat} {s₀ : State} {s : State} {p : Nat} (ha : Sub 67108880 am) (hs : Keeps am s₀ s) : Keeps am s₀ (State.dropPackets s p) := by
  unfold State.dropPackets
  repeat' first
    | with_reducible assumption
    | exact sub_of ha rfl
    | with_reducible refine keepsOut_next ?_
    | (lift_lets; intro x; refine (fun (hx : Keeps am s₀ x) => ?_) ?_; clear_value x)
    | (intro x; subst x)
    | with_reducible refine State.addFld_keeps ?_ ?_
    | with_reducible refine State.unhold_keeps ?_ ?_
    | with_reducible refine State.withNet_keeps ?_ ?_
    | with_reducible refine ite_keeps (fun _ => ?_) (fun _ => ?_)
    | with_reducible refine iteOut_keeps (fun _ => ?_) (fun _ => ?_)
    | with_reducible refine foldl_keeps (fun _ _ _ => ?_) ?_
    | with_reducible refine foldl_kfst (fun _ _ _ => ?_) ?_
    | with_reducible refine foldl_ksnd (fun _ _ _ => ?_) ?_
    | subst x
    | with_reducible split
    | dsimp only

theorem State.portOff_keeps {am : Nat} {s₀ : State} {s : State} {p : Nat} {st : Nat} (ha : Sub 67108880 am) (hs : Keeps am s₀ s) : Keeps am s₀ (State.portOff s p st) := by
  unfold State.portOff
  repeat' first
    | with_reducible assumption
    | exact sub_of ha rfl
    | with_reducible refine keepsOut_next ?_
    | (lift_lets; intro x; refine (fun (hx : Keeps am s₀ x) => ?_) ?_; clear_value x)
    | (intro x; subst x)
    | with_reducible refine State.dropPackets_keeps ?_ ?_
    | with_reducible refine State.setPort_keeps ?_ ?_
    | with_reducible refine State.setReg_keeps ?_ ?_
    | with_reducible refine ite_keeps (fun _ => ?_) (fun _ => ?_)
    | with_reducible refine iteOut_keeps (fun _ => ?_) (fun _ => ?_)
    | with_reducible refine foldl_keeps (fun _ _ _ => ?_) ?_
    | with_reducible refine foldl_kfst (fun _ _ _ => ?_) ?_
    | with_reducible refine foldl_ksnd (fun _ _ _ => ?_) ?_
    | subst x
    | with_reducible split
    | dsimp only

theorem State.fencePort_keeps {am : Nat} {s₀ : State} {s : State} {p : Nat} {cause : Nat} (ha : Sub 100663664 am) (hs : Keeps am s₀ s) : Keeps am s₀ (State.fencePort s p cause) := by
  unfold State.fencePort
  repeat' first
    | with_reducible assumption
    | exact sub_of ha rfl
    | with_reducible refine keepsOut_next ?_
    | (lift_lets; intro x; refine (fun (hx : Keeps am s₀ x) => ?_) ?_; clear_value x)
    | (intro x; subst x)
    | with_reducible refine State.fenceUnit_keeps ?_ ?_
    | with_reducible refine State.portOff_keeps ?_ ?_
    | with_reducible refine State.setBitF_keeps ?_ ?_
    | with_reducible refine State.setErr_keeps ?_ ?_
    | with_reducible refine ite_keeps (fun _ => ?_) (fun _ => ?_)
    | with_reducible refine iteOut_keeps (fun _ => ?_) (fun _ => ?_)
    | with_reducible refine foldl_keeps (fun _ _ _ => ?_) ?_
    | with_reducible refine foldl_kfst (fun _ _ _ => ?_) ?_
    | with_reducible refine foldl_ksnd (fun _ _ _ => ?_) ?_
    | subst x
    | with_reducible split
    | dsimp only

theorem State.portDown_keeps {am : Nat} {s₀ : State} {s : State} {p : Nat} (ha : Sub 100663664 am) (hs : Keeps am s₀ s) : Keeps am s₀ (State.portDown s p) := by
  unfold State.portDown
  repeat' first
    | with_reducible assumption
    | exact sub_of ha rfl
    | with_reducible refine keepsOut_next ?_
    | (lift_lets; intro x; refine (fun (hx : Keeps am s₀ x) => ?_) ?_; clear_value x)
    | (intro x; subst x)
    | with_reducible refine State.event_keeps ?_ ?_
    | with_reducible refine State.fencePort_keeps ?_ ?_
    | with_reducible refine State.portOff_keeps ?_ ?_
    | with_reducible refine State.putUnit_keeps ?_ ?_
    | with_reducible refine State.setErr_keeps ?_ ?_
    | with_reducible refine State.setFld_keeps ?_ ?_
    | with_reducible refine ite_keeps (fun _ => ?_) (fun _ => ?_)
    | with_reducible refine iteOut_keeps (fun _ => ?_) (fun _ => ?_)
    | with_reducible refine foldl_keeps (fun _ _ _ => ?_) ?_
    | with_reducible refine foldl_kfst (fun _ _ _ => ?_) ?_
    | with_reducible refine foldl_ksnd (fun _ _ _ => ?_) ?_
    | subst x
    | with_reducible split
    | dsimp only

theorem State.trainPort_keeps {am : Nat} {s₀ : State} {s : State} {p : Nat} (ha : Sub 67108880 am) (hs : Keeps am s₀ s) : Keeps am s₀ (State.trainPort s p) := by
  unfold State.trainPort
  repeat' first
    | with_reducible assumption
    | exact sub_of ha rfl
    | with_reducible refine keepsOut_next ?_
    | (lift_lets; intro x; refine (fun (hx : Keeps am s₀ x) => ?_) ?_; clear_value x)
    | (intro x; subst x)
    | with_reducible refine State.portOff_keeps ?_ ?_
    | with_reducible refine ite_keeps (fun _ => ?_) (fun _ => ?_)
    | with_reducible refine iteOut_keeps (fun _ => ?_) (fun _ => ?_)
    | with_reducible refine foldl_keeps (fun _ _ _ => ?_) ?_
    | with_reducible refine foldl_kfst (fun _ _ _ => ?_) ?_
    | with_reducible refine foldl_ksnd (fun _ _ _ => ?_) ?_
    | subst x
    | with_reducible split
    | dsimp only

theorem State.trainFailed_keeps {am : Nat} {s₀ : State} {s : State} {p : Nat} {f : Fld} (ha : Sub 100663664 am) (hs : Keeps am s₀ s) : Keeps am s₀ (State.trainFailed s p f) := by
  unfold State.trainFailed
  repeat' first
    | with_reducible assumption
    | exact sub_of ha rfl
    | with_reducible refine keepsOut_next ?_
    | (lift_lets; intro x; refine (fun (hx : Keeps am s₀ x) => ?_) ?_; clear_value x)
    | (intro x; subst x)
    | with_reducible refine State.portDown_keeps ?_ ?_
    | with_reducible refine State.portOff_keeps ?_ ?_
    | with_reducible refine State.setErr_keeps ?_ ?_
    | with_reducible refine ite_keeps (fun _ => ?_) (fun _ => ?_)
    | with_reducible refine iteOut_keeps (fun _ => ?_) (fun _ => ?_)
    | with_reducible refine foldl_keeps (fun _ _ _ => ?_) ?_
    | with_reducible refine foldl_kfst (fun _ _ _ => ?_) ?_
    | with_reducible refine foldl_ksnd (fun _ _ _ => ?_) ?_
    | subst x
    | with_reducible split
    | dsimp only

theorem State.routePort_keeps {am : Nat} {s₀ : State} {s : State} {p : Nat} (ha : Sub 67108880 am) (hs : Keeps am s₀ s) : Keeps am s₀ (State.routePort s p) := by
  unfold State.routePort
  repeat' first
    | with_reducible assumption
    | exact sub_of ha rfl
    | with_reducible refine keepsOut_next ?_
    | (lift_lets; intro x; refine (fun (hx : Keeps am s₀ x) => ?_) ?_; clear_value x)
    | (intro x; subst x)
    | with_reducible refine State.setFld_keeps ?_ ?_
    | with_reducible refine State.setLnk_keeps ?_ ?_
    | with_reducible refine State.setPort_keeps ?_ ?_
    | with_reducible refine ite_keeps (fun _ => ?_) (fun _ => ?_)
    | with_reducible refine iteOut_keeps (fun _ => ?_) (fun _ => ?_)
    | with_reducible refine foldl_keeps (fun _ _ _ => ?_) ?_
    | with_reducible refine foldl_kfst (fun _ _ _ => ?_) ?_
    | with_reducible refine foldl_ksnd (fun _ _ _ => ?_) ?_
    | subst x
    | with_reducible split
    | dsimp only

theorem execLinkTrainDone_keeps {am : Nat} {s₀ : State} {p : Fin 24} {lanes : Byte} {vers : Byte} {s : State} (ha : Sub 104923508 am) (hs : Keeps am s₀ s) : KeepsOut am s₀ (execLinkTrainDone p lanes vers s) := by
  unfold execLinkTrainDone
  repeat' first
    | with_reducible assumption
    | exact sub_of ha rfl
    | with_reducible refine keepsOut_next ?_
    | (lift_lets; intro x; refine (fun (hx : Keeps am s₀ x) => ?_) ?_; clear_value x)
    | (intro x; subst x)
    | with_reducible refine State.hearCtl_keeps ?_ ?_
    | with_reducible refine State.lanes_keeps ?_ ?_
    | with_reducible refine State.sendCtl_keeps ?_ ?_
    | with_reducible refine State.setLnk_keeps ?_ ?_
    | with_reducible refine State.setPort_keeps ?_ ?_
    | with_reducible refine State.setReg_keeps ?_ ?_
    | with_reducible refine State.trainFailed_keeps ?_ ?_
    | with_reducible refine ite_keeps (fun _ => ?_) (fun _ => ?_)
    | with_reducible refine iteOut_keeps (fun _ => ?_) (fun _ => ?_)
    | with_reducible refine foldl_keeps (fun _ _ _ => ?_) ?_
    | with_reducible refine foldl_kfst (fun _ _ _ => ?_) ?_
    | with_reducible refine foldl_ksnd (fun _ _ _ => ?_) ?_
    | subst x
    | with_reducible split
    | dsimp only

theorem execLinkTrainFail_keeps {am : Nat} {s₀ : State} {p : Fin 24} {s : State} (ha : Sub 100663664 am) (hs : Keeps am s₀ s) : KeepsOut am s₀ (execLinkTrainFail p s) := by
  unfold execLinkTrainFail
  repeat' first
    | with_reducible assumption
    | exact sub_of ha rfl
    | with_reducible refine keepsOut_next ?_
    | (lift_lets; intro x; refine (fun (hx : Keeps am s₀ x) => ?_) ?_; clear_value x)
    | (intro x; subst x)
    | with_reducible refine State.trainFailed_keeps ?_ ?_
    | with_reducible refine ite_keeps (fun _ => ?_) (fun _ => ?_)
    | with_reducible refine iteOut_keeps (fun _ => ?_) (fun _ => ?_)
    | with_reducible refine foldl_keeps (fun _ _ _ => ?_) ?_
    | with_reducible refine foldl_kfst (fun _ _ _ => ?_) ?_
    | with_reducible refine foldl_ksnd (fun _ _ _ => ?_) ?_
    | subst x
    | with_reducible split
    | dsimp only

theorem State.startResync_keeps {am : Nat} {s₀ : State} {s : State} {p : Nat} (ha : Sub 100729200 am) (hs : Keeps am s₀ s) : Keeps am s₀ (State.startResync s p) := by
  unfold State.startResync
  repeat' first
    | with_reducible assumption
    | exact sub_of ha rfl
    | with_reducible refine keepsOut_next ?_
    | (lift_lets; intro x; refine (fun (hx : Keeps am s₀ x) => ?_) ?_; clear_value x)
    | (intro x; subst x)
    | with_reducible refine State.addFld_keeps ?_ ?_
    | with_reducible refine State.portDown_keeps ?_ ?_
    | with_reducible refine State.sendCtl_keeps ?_ ?_
    | with_reducible refine State.setErr_keeps ?_ ?_
    | with_reducible refine State.setPort_keeps ?_ ?_
    | with_reducible refine ite_keeps (fun _ => ?_) (fun _ => ?_)
    | with_reducible refine iteOut_keeps (fun _ => ?_) (fun _ => ?_)
    | with_reducible refine foldl_keeps (fun _ _ _ => ?_) ?_
    | with_reducible refine foldl_kfst (fun _ _ _ => ?_) ?_
    | with_reducible refine foldl_ksnd (fun _ _ _ => ?_) ?_
    | subst x
    | with_reducible split
    | dsimp only

theorem execLinkFecUncorr_keeps {am : Nat} {s₀ : State} {p : Fin 24} {_codeword : Bool} {s : State} (ha : Sub 100729200 am) (hs : Keeps am s₀ s) : KeepsOut am s₀ (execLinkFecUncorr p _codeword s) := by
  unfold execLinkFecUncorr
  repeat' first
    | with_reducible assumption
    | exact sub_of ha rfl
    | with_reducible refine keepsOut_next ?_
    | (lift_lets; intro x; refine (fun (hx : Keeps am s₀ x) => ?_) ?_; clear_value x)
    | (intro x; subst x)
    | with_reducible refine State.addFld_keeps ?_ ?_
    | with_reducible refine State.startResync_keeps ?_ ?_
    | with_reducible refine ite_keeps (fun _ => ?_) (fun _ => ?_)
    | with_reducible refine iteOut_keeps (fun _ => ?_) (fun _ => ?_)
    | with_reducible refine foldl_keeps (fun _ _ _ => ?_) ?_
    | with_reducible refine foldl_kfst (fun _ _ _ => ?_) ?_
    | with_reducible refine foldl_ksnd (fun _ _ _ => ?_) ?_
    | subst x
    | with_reducible split
    | dsimp only

theorem execRsreqRecv_keeps {am : Nat} {s₀ : State} {p : Fin 24} {s : State} (ha : Sub 67174400 am) (hs : Keeps am s₀ s) : KeepsOut am s₀ (execRsreqRecv p s) := by
  unfold execRsreqRecv
  repeat' first
    | with_reducible assumption
    | exact sub_of ha rfl
    | with_reducible refine keepsOut_next ?_
    | (lift_lets; intro x; refine (fun (hx : Keeps am s₀ x) => ?_) ?_; clear_value x)
    | (intro x; subst x)
    | with_reducible refine State.hearCtl_keeps ?_ ?_
    | with_reducible refine State.sendCtl_keeps ?_ ?_
    | with_reducible refine State.setPort_keeps ?_ ?_
    | with_reducible refine ite_keeps (fun _ => ?_) (fun _ => ?_)
    | with_reducible refine iteOut_keeps (fun _ => ?_) (fun _ => ?_)
    | with_reducible refine foldl_keeps (fun _ _ _ => ?_) ?_
    | with_reducible refine foldl_kfst (fun _ _ _ => ?_) ?_
    | with_reducible refine foldl_ksnd (fun _ _ _ => ?_) ?_
    | subst x
    | with_reducible split
    | dsimp only

theorem execMarkRecv_keeps {am : Nat} {s₀ : State} {p : Fin 24} {sent : List W16} {s : State} (ha : Sub 67174416 am) (hs : Keeps am s₀ s) : KeepsOut am s₀ (execMarkRecv p sent s) := by
  unfold execMarkRecv
  repeat' first
    | with_reducible assumption
    | exact sub_of ha rfl
    | with_reducible refine keepsOut_next ?_
    | (lift_lets; intro x; refine (fun (hx : Keeps am s₀ x) => ?_) ?_; clear_value x)
    | (intro x; subst x)
    | with_reducible refine State.addFld_keeps ?_ ?_
    | with_reducible refine State.hearCtl_keeps ?_ ?_
    | with_reducible refine State.sendCtl_keeps ?_ ?_
    | with_reducible refine State.setPort_keeps ?_ ?_
    | with_reducible refine ite_keeps (fun _ => ?_) (fun _ => ?_)
    | with_reducible refine iteOut_keeps (fun _ => ?_) (fun _ => ?_)
    | with_reducible refine foldl_keeps (fun _ _ _ => ?_) ?_
    | with_reducible refine foldl_kfst (fun _ _ _ => ?_) ?_
    | with_reducible refine foldl_ksnd (fun _ _ _ => ?_) ?_
    | subst x
    | with_reducible split
    | dsimp only

theorem execRsackRecv_keeps {am : Nat} {s₀ : State} {p : Fin 24} {freed : List W16} {s : State} (ha : Sub 67174400 am) (hs : Keeps am s₀ s) : KeepsOut am s₀ (execRsackRecv p freed s) := by
  unfold execRsackRecv
  repeat' first
    | with_reducible assumption
    | exact sub_of ha rfl
    | with_reducible refine keepsOut_next ?_
    | (lift_lets; intro x; refine (fun (hx : Keeps am s₀ x) => ?_) ?_; clear_value x)
    | (intro x; subst x)
    | with_reducible refine State.hearCtl_keeps ?_ ?_
    | with_reducible refine State.setPort_keeps ?_ ?_
    | with_reducible refine ite_keeps (fun _ => ?_) (fun _ => ?_)
    | with_reducible refine iteOut_keeps (fun _ => ?_) (fun _ => ?_)
    | with_reducible refine foldl_keeps (fun _ _ _ => ?_) ?_
    | with_reducible refine foldl_kfst (fun _ _ _ => ?_) ?_
    | with_reducible refine foldl_ksnd (fun _ _ _ => ?_) ?_
    | subst x
    | with_reducible split
    | dsimp only

theorem execCrdRecv_keeps {am : Nat} {s₀ : State} {p : Fin 24} {freed : List W16} {s : State} (ha : Sub 67174400 am) (hs : Keeps am s₀ s) : KeepsOut am s₀ (execCrdRecv p freed s) := by
  unfold execCrdRecv
  repeat' first
    | with_reducible assumption
    | exact sub_of ha rfl
    | with_reducible refine keepsOut_next ?_
    | (lift_lets; intro x; refine (fun (hx : Keeps am s₀ x) => ?_) ?_; clear_value x)
    | (intro x; subst x)
    | with_reducible refine State.hearCtl_keeps ?_ ?_
    | with_reducible refine State.setPort_keeps ?_ ?_
    | with_reducible refine ite_keeps (fun _ => ?_) (fun _ => ?_)
    | with_reducible refine iteOut_keeps (fun _ => ?_) (fun _ => ?_)
    | with_reducible refine foldl_keeps (fun _ _ _ => ?_) ?_
    | with_reducible refine foldl_kfst (fun _ _ _ => ?_) ?_
    | with_reducible refine foldl_ksnd (fun _ _ _ => ?_) ?_
    | subst x
    | with_reducible split
    | dsimp only

theorem execCrdSend_keeps {am : Nat} {s₀ : State} {p : Fin 24} {s : State} (ha : Sub 67174400 am) (hs : Keeps am s₀ s) : KeepsOut am s₀ (execCrdSend p s) := by
  unfold execCrdSend
  repeat' first
    | with_reducible assumption
    | exact sub_of ha rfl
    | with_reducible refine keepsOut_next ?_
    | (lift_lets; intro x; refine (fun (hx : Keeps am s₀ x) => ?_) ?_; clear_value x)
    | (intro x; subst x)
    | with_reducible refine State.sendCtl_keeps ?_ ?_
    | with_reducible refine State.setPort_keeps ?_ ?_
    | with_reducible refine ite_keeps (fun _ => ?_) (fun _ => ?_)
    | with_reducible refine iteOut_keeps (fun _ => ?_) (fun _ => ?_)
    | with_reducible refine foldl_keeps (fun _ _ _ => ?_) ?_
    | with_reducible refine foldl_kfst (fun _ _ _ => ?_) ?_
    | with_reducible refine foldl_ksnd (fun _ _ _ => ?_) ?_
    | subst x
    | with_reducible split
    | dsimp only

theorem execLinkFlitGapTimeout_keeps {am : Nat} {s₀ : State} {p : Fin 24} {s : State} (ha : Sub 100663664 am) (hs : Keeps am s₀ s) : KeepsOut am s₀ (execLinkFlitGapTimeout p s) := by
  unfold execLinkFlitGapTimeout
  repeat' first
    | with_reducible assumption
    | exact sub_of ha rfl
    | with_reducible refine keepsOut_next ?_
    | (lift_lets; intro x; refine (fun (hx : Keeps am s₀ x) => ?_) ?_; clear_value x)
    | (intro x; subst x)
    | with_reducible refine State.portDown_keeps ?_ ?_
    | with_reducible refine ite_keeps (fun _ => ?_) (fun _ => ?_)
    | with_reducible refine iteOut_keeps (fun _ => ?_) (fun _ => ?_)
    | with_reducible refine foldl_keeps (fun _ _ _ => ?_) ?_
    | with_reducible refine foldl_kfst (fun _ _ _ => ?_) ?_
    | with_reducible refine foldl_ksnd (fun _ _ _ => ?_) ?_
    | subst x
    | with_reducible split
    | dsimp only

theorem execLinkResyncTimeout_keeps {am : Nat} {s₀ : State} {p : Fin 24} {s : State} (ha : Sub 100663664 am) (hs : Keeps am s₀ s) : KeepsOut am s₀ (execLinkResyncTimeout p s) := by
  unfold execLinkResyncTimeout
  repeat' first
    | with_reducible assumption
    | exact sub_of ha rfl
    | with_reducible refine keepsOut_next ?_
    | (lift_lets; intro x; refine (fun (hx : Keeps am s₀ x) => ?_) ?_; clear_value x)
    | (intro x; subst x)
    | with_reducible refine State.portDown_keeps ?_ ?_
    | with_reducible refine ite_keeps (fun _ => ?_) (fun _ => ?_)
    | with_reducible refine iteOut_keeps (fun _ => ?_) (fun _ => ?_)
    | with_reducible refine foldl_keeps (fun _ _ _ => ?_) ?_
    | with_reducible refine foldl_kfst (fun _ _ _ => ?_) ?_
    | with_reducible refine foldl_ksnd (fun _ _ _ => ?_) ?_
    | subst x
    | with_reducible split
    | dsimp only

theorem State.sendOn_keeps {am : Nat} {s₀ : State} {s : State} {h : Held} {p : Nat} {vc : Nat} (ha : Sub 67174400 am) (hs : Keeps am s₀ s) : Keeps am s₀ (State.sendOn s h p vc) := by
  unfold State.sendOn
  repeat' first
    | with_reducible assumption
    | exact sub_of ha rfl
    | with_reducible refine keepsOut_next ?_
    | (lift_lets; intro x; refine (fun (hx : Keeps am s₀ x) => ?_) ?_; clear_value x)
    | (intro x; subst x)
    | with_reducible refine State.addWork_keeps ?_ ?_
    | with_reducible refine State.setPort_keeps ?_ ?_
    | with_reducible refine State.unhold_keeps ?_ ?_
    | with_reducible refine ite_keeps (fun _ => ?_) (fun _ => ?_)
    | with_reducible refine iteOut_keeps (fun _ => ?_) (fun _ => ?_)
    | with_reducible refine foldl_keeps (fun _ _ _ => ?_) ?_
    | with_reducible refine foldl_kfst (fun _ _ _ => ?_) ?_
    | with_reducible refine foldl_ksnd (fun _ _ _ => ?_) ?_
    | subst x
    | with_reducible split
    | dsimp only

theorem execPktForward_keeps {am : Nat} {s₀ : State} {d : Die} {s : State} (ha : Sub 67174416 am) (hs : Keeps am s₀ s) : KeepsOut am s₀ (execPktForward d s) := by
  unfold execPktForward
  repeat' first
    | with_reducible assumption
    | exact sub_of ha rfl
    | with_reducible refine keepsOut_next ?_
    | (lift_lets; intro x; refine (fun (hx : Keeps am s₀ x) => ?_) ?_; clear_value x)
    | (intro x; subst x)
    | with_reducible refine State.addFld_keeps ?_ ?_
    | with_reducible refine State.sendOn_keeps ?_ ?_
    | with_reducible refine State.unhold_keeps ?_ ?_
    | with_reducible refine ite_keeps (fun _ => ?_) (fun _ => ?_)
    | with_reducible refine iteOut_keeps (fun _ => ?_) (fun _ => ?_)
    | with_reducible refine foldl_keeps (fun _ _ _ => ?_) ?_
    | with_reducible refine foldl_kfst (fun _ _ _ => ?_) ?_
    | with_reducible refine foldl_ksnd (fun _ _ _ => ?_) ?_
    | subst x
    | with_reducible split
    | dsimp only

theorem execPktStaleDiscard_keeps {am : Nat} {s₀ : State} {d : Die} {s : State} (ha : Sub 67108880 am) (hs : Keeps am s₀ s) : KeepsOut am s₀ (execPktStaleDiscard d s) := by
  unfold execPktStaleDiscard
  repeat' first
    | with_reducible assumption
    | exact sub_of ha rfl
    | with_reducible refine keepsOut_next ?_
    | (lift_lets; intro x; refine (fun (hx : Keeps am s₀ x) => ?_) ?_; clear_value x)
    | (intro x; subst x)
    | with_reducible refine State.addFld_keeps ?_ ?_
    | with_reducible refine State.unhold_keeps ?_ ?_
    | with_reducible refine ite_keeps (fun _ => ?_) (fun _ => ?_)
    | with_reducible refine iteOut_keeps (fun _ => ?_) (fun _ => ?_)
    | with_reducible refine foldl_keeps (fun _ _ _ => ?_) ?_
    | with_reducible refine foldl_kfst (fun _ _ _ => ?_) ?_
    | with_reducible refine foldl_ksnd (fun _ _ _ => ?_) ?_
    | subst x
    | with_reducible split
    | dsimp only

theorem execLnkVcallocWrite_keeps {am : Nat} {s₀ : State} {p : Fin 24} {hi : Bool} {data : W64} {s : State} (ha : Sub 100729200 am) (hs : Keeps am s₀ s) : KeepsOut am s₀ (execLnkVcallocWrite p hi data s) := by
  unfold execLnkVcallocWrite
  repeat' first
    | with_reducible assumption
    | exact sub_of ha rfl
    | with_reducible refine keepsOut_next ?_
    | (lift_lets; intro x; refine (fun (hx : Keeps am s₀ x) => ?_) ?_; clear_value x)
    | (intro x; subst x)
    | with_reducible refine State.plainWrite_keeps ?_ ?_
    | with_reducible refine State.setErr_keeps ?_ ?_
    | with_reducible refine State.startResync_keeps ?_ ?_
    | with_reducible refine ite_keeps (fun _ => ?_) (fun _ => ?_)
    | with_reducible refine iteOut_keeps (fun _ => ?_) (fun _ => ?_)
    | with_reducible refine foldl_keeps (fun _ _ _ => ?_) ?_
    | with_reducible refine foldl_kfst (fun _ _ _ => ?_) ?_
    | with_reducible refine foldl_ksnd (fun _ _ _ => ?_) ?_
    | subst x
    | with_reducible split
    | dsimp only

theorem execLnkFence_keeps {am : Nat} {s₀ : State} {p : Fin 24} {s : State} (ha : Sub 100663664 am) (hs : Keeps am s₀ s) : KeepsOut am s₀ (execLnkFence p s) := by
  unfold execLnkFence
  repeat' first
    | with_reducible assumption
    | exact sub_of ha rfl
    | with_reducible refine keepsOut_next ?_
    | (lift_lets; intro x; refine (fun (hx : Keeps am s₀ x) => ?_) ?_; clear_value x)
    | (intro x; subst x)
    | with_reducible refine State.fencePort_keeps ?_ ?_
    | with_reducible refine ite_keeps (fun _ => ?_) (fun _ => ?_)
    | with_reducible refine iteOut_keeps (fun _ => ?_) (fun _ => ?_)
    | with_reducible refine foldl_keeps (fun _ _ _ => ?_) ?_
    | with_reducible refine foldl_kfst (fun _ _ _ => ?_) ?_
    | with_reducible refine foldl_ksnd (fun _ _ _ => ?_) ?_
    | subst x
    | with_reducible split
    | dsimp only

theorem execLnkReadmit_keeps {am : Nat} {s₀ : State} {p : Fin 24} {s : State} (ha : Sub 33554736 am) (hs : Keeps am s₀ s) : KeepsOut am s₀ (execLnkReadmit p s) := by
  unfold execLnkReadmit
  repeat' first
    | with_reducible assumption
    | exact sub_of ha rfl
    | with_reducible refine keepsOut_next ?_
    | (lift_lets; intro x; refine (fun (hx : Keeps am s₀ x) => ?_) ?_; clear_value x)
    | (intro x; subst x)
    | with_reducible refine State.putUnit_keeps ?_ ?_
    | with_reducible refine State.setBitF_keeps ?_ ?_
    | with_reducible refine State.setErr_keeps ?_ ?_
    | with_reducible refine State.setFld_keeps ?_ ?_
    | with_reducible refine State.setLnk_keeps ?_ ?_
    | with_reducible refine ite_keeps (fun _ => ?_) (fun _ => ?_)
    | with_reducible refine iteOut_keeps (fun _ => ?_) (fun _ => ?_)
    | with_reducible refine foldl_keeps (fun _ _ _ => ?_) ?_
    | with_reducible refine foldl_kfst (fun _ _ _ => ?_) ?_
    | with_reducible refine foldl_ksnd (fun _ _ _ => ?_) ?_
    | subst x
    | with_reducible split
    | dsimp only

theorem execLnkRetrain_keeps {am : Nat} {s₀ : State} {p : Fin 24} {s : State} (ha : Sub 67108912 am) (hs : Keeps am s₀ s) : KeepsOut am s₀ (execLnkRetrain p s) := by
  unfold execLnkRetrain
  repeat' first
    | with_reducible assumption
    | exact sub_of ha rfl
    | with_reducible refine keepsOut_next ?_
    | (lift_lets; intro x; refine (fun (hx : Keeps am s₀ x) => ?_) ?_; clear_value x)
    | (intro x; subst x)
    | with_reducible refine State.setErr_keeps ?_ ?_
    | with_reducible refine State.trainPort_keeps ?_ ?_
    | with_reducible refine ite_keeps (fun _ => ?_) (fun _ => ?_)
    | with_reducible refine iteOut_keeps (fun _ => ?_) (fun _ => ?_)
    | with_reducible refine foldl_keeps (fun _ _ _ => ?_) ?_
    | with_reducible refine foldl_kfst (fun _ _ _ => ?_) ?_
    | with_reducible refine foldl_ksnd (fun _ _ _ => ?_) ?_
    | subst x
    | with_reducible split
    | dsimp only

theorem execLnkAdmit_keeps {am : Nat} {s₀ : State} {p : Fin 24} {s : State} (ha : Sub 48 am) (hs : Keeps am s₀ s) : KeepsOut am s₀ (execLnkAdmit p s) := by
  unfold execLnkAdmit
  repeat' first
    | with_reducible assumption
    | exact sub_of ha rfl
    | with_reducible refine keepsOut_next ?_
    | (lift_lets; intro x; refine (fun (hx : Keeps am s₀ x) => ?_) ?_; clear_value x)
    | (intro x; subst x)
    | with_reducible refine State.setErr_keeps ?_ ?_
    | with_reducible refine State.setFld_keeps ?_ ?_
    | with_reducible refine ite_keeps (fun _ => ?_) (fun _ => ?_)
    | with_reducible refine iteOut_keeps (fun _ => ?_) (fun _ => ?_)
    | with_reducible refine foldl_keeps (fun _ _ _ => ?_) ?_
    | with_reducible refine foldl_kfst (fun _ _ _ => ?_) ?_
    | with_reducible refine foldl_ksnd (fun _ _ _ => ?_) ?_
    | subst x
    | with_reducible split
    | dsimp only

theorem execLnkPark_keeps {am : Nat} {s₀ : State} {p : Fin 24} {s : State} (ha : Sub 48 am) (hs : Keeps am s₀ s) : KeepsOut am s₀ (execLnkPark p s) := by
  unfold execLnkPark
  repeat' first
    | with_reducible assumption
    | exact sub_of ha rfl
    | with_reducible refine keepsOut_next ?_
    | (lift_lets; intro x; refine (fun (hx : Keeps am s₀ x) => ?_) ?_; clear_value x)
    | (intro x; subst x)
    | with_reducible refine State.setErr_keeps ?_ ?_
    | with_reducible refine State.setFld_keeps ?_ ?_
    | with_reducible refine ite_keeps (fun _ => ?_) (fun _ => ?_)
    | with_reducible refine iteOut_keeps (fun _ => ?_) (fun _ => ?_)
    | with_reducible refine foldl_keeps (fun _ _ _ => ?_) ?_
    | with_reducible refine foldl_kfst (fun _ _ _ => ?_) ?_
    | with_reducible refine foldl_ksnd (fun _ _ _ => ?_) ?_
    | subst x
    | with_reducible split
    | dsimp only

theorem execLnkEnWrite_keeps {am : Nat} {s₀ : State} {p : Fin 24} {en : Bool} {s : State} (ha : Sub 67108880 am) (hs : Keeps am s₀ s) : KeepsOut am s₀ (execLnkEnWrite p en s) := by
  unfold execLnkEnWrite
  repeat' first
    | with_reducible assumption
    | exact sub_of ha rfl
    | with_reducible refine keepsOut_next ?_
    | (lift_lets; intro x; refine (fun (hx : Keeps am s₀ x) => ?_) ?_; clear_value x)
    | (intro x; subst x)
    | with_reducible refine State.portOff_keeps ?_ ?_
    | with_reducible refine State.setBitF_keeps ?_ ?_
    | with_reducible refine State.setLnk_keeps ?_ ?_
    | with_reducible refine ite_keeps (fun _ => ?_) (fun _ => ?_)
    | with_reducible refine iteOut_keeps (fun _ => ?_) (fun _ => ?_)
    | with_reducible refine foldl_keeps (fun _ _ _ => ?_) ?_
    | with_reducible refine foldl_kfst (fun _ _ _ => ?_) ?_
    | with_reducible refine foldl_ksnd (fun _ _ _ => ?_) ?_
    | subst x
    | with_reducible split
    | dsimp only

theorem execLnkCounterRead_keeps {am : Nat} {s₀ : State} {p : Fin 24} {reg : Fin 3} {s : State} (ha : Sub 65556 am) (hs : Keeps am s₀ s) : KeepsOut am s₀ (execLnkCounterRead p reg s) := by
  unfold execLnkCounterRead
  repeat' first
    | with_reducible assumption
    | exact sub_of ha rfl
    | with_reducible refine keepsOut_next ?_
    | (lift_lets; intro x; refine (fun (hx : Keeps am s₀ x) => ?_) ?_; clear_value x)
    | (intro x; subst x)
    | with_reducible refine State.out_keeps ?_ ?_
    | with_reducible refine State.readClear_keeps ?_ ?_
    | with_reducible refine State.withWork_keeps ?_ ?_
    | with_reducible refine ite_keeps (fun _ => ?_) (fun _ => ?_)
    | with_reducible refine iteOut_keeps (fun _ => ?_) (fun _ => ?_)
    | with_reducible refine foldl_keeps (fun _ _ _ => ?_) ?_
    | with_reducible refine foldl_kfst (fun _ _ _ => ?_) ?_
    | with_reducible refine foldl_ksnd (fun _ _ _ => ?_) ?_
    | subst x
    | with_reducible split
    | dsimp only

theorem execRteLoad_keeps {am : Nat} {s₀ : State} {data : W64} {s : State} (ha : Sub 67108912 am) (hs : Keeps am s₀ s) : KeepsOut am s₀ (execRteLoad data s) := by
  unfold execRteLoad
  repeat' first
    | with_reducible assumption
    | exact sub_of ha rfl
    | with_reducible refine keepsOut_next ?_
    | (lift_lets; intro x; refine (fun (hx : Keeps am s₀ x) => ?_) ?_; clear_value x)
    | (intro x; subst x)
    | with_reducible refine State.setErr_keeps ?_ ?_
    | with_reducible refine State.setVerState_keeps ?_ ?_
    | with_reducible refine State.withNet_keeps ?_ ?_
    | with_reducible refine ite_keeps (fun _ => ?_) (fun _ => ?_)
    | with_reducible refine iteOut_keeps (fun _ => ?_) (fun _ => ?_)
    | with_reducible refine foldl_keeps (fun _ _ _ => ?_) ?_
    | with_reducible refine foldl_kfst (fun _ _ _ => ?_) ?_
    | with_reducible refine foldl_ksnd (fun _ _ _ => ?_) ?_
    | subst x
    | with_reducible split
    | dsimp only

theorem State.applyPending_keeps {am : Nat} {s₀ : State} {s : State} {parks : Bool} (ha : Sub 67108880 am) (hs : Keeps am s₀ s) : Keeps am s₀ (State.applyPending s parks) := by
  unfold State.applyPending
  repeat' first
    | with_reducible assumption
    | exact sub_of ha rfl
    | with_reducible refine keepsOut_next ?_
    | (lift_lets; intro x; refine (fun (hx : Keeps am s₀ x) => ?_) ?_; clear_value x)
    | (intro x; subst x)
    | with_reducible refine State.routePort_keeps ?_ ?_
    | with_reducible refine State.setFld_keeps ?_ ?_
    | with_reducible refine State.setLnk_keeps ?_ ?_
    | with_reducible refine State.setPort_keeps ?_ ?_
    | with_reducible refine ite_keeps (fun _ => ?_) (fun _ => ?_)
    | with_reducible refine iteOut_keeps (fun _ => ?_) (fun _ => ?_)
    | with_reducible refine foldl_keeps (fun _ _ _ => ?_) ?_
    | with_reducible refine foldl_kfst (fun _ _ _ => ?_) ?_
    | with_reducible refine foldl_ksnd (fun _ _ _ => ?_) ?_
    | subst x
    | with_reducible split
    | dsimp only

theorem State.loadImage_keeps {am : Nat} {s₀ : State} {s : State} {v : Nat} {a : Nat} {both : Bool} (ha : Sub 67108912 am) (hs : Keeps am s₀ s) : Keeps am s₀ (State.loadImage s v a both) := by
  unfold State.loadImage
  repeat' first
    | with_reducible assumption
    | exact sub_of ha rfl
    | with_reducible refine keepsOut_next ?_
    | (lift_lets; intro x; refine (fun (hx : Keeps am s₀ x) => ?_) ?_; clear_value x)
    | (intro x; subst x)
    | with_reducible refine State.applyPending_keeps ?_ ?_
    | with_reducible refine State.setErr_keeps ?_ ?_
    | with_reducible refine State.setVerState_keeps ?_ ?_
    | with_reducible refine State.withNet_keeps ?_ ?_
    | with_reducible refine ite_keeps (fun _ => ?_) (fun _ => ?_)
    | with_reducible refine iteOut_keeps (fun _ => ?_) (fun _ => ?_)
    | with_reducible refine foldl_keeps (fun _ _ _ => ?_) ?_
    | with_reducible refine foldl_kfst (fun _ _ _ => ?_) ?_
    | with_reducible refine foldl_ksnd (fun _ _ _ => ?_) ?_
    | subst x
    | with_reducible split
    | dsimp only

theorem execRteLoadDone_keeps {am : Nat} {s₀ : State} {s : State} (ha : Sub 67108912 am) (hs : Keeps am s₀ s) : KeepsOut am s₀ (execRteLoadDone s) := by
  unfold execRteLoadDone
  repeat' first
    | with_reducible assumption
    | exact sub_of ha rfl
    | with_reducible refine keepsOut_next ?_
    | (lift_lets; intro x; refine (fun (hx : Keeps am s₀ x) => ?_) ?_; clear_value x)
    | (intro x; subst x)
    | with_reducible refine State.loadImage_keeps ?_ ?_
    | with_reducible refine State.withNet_keeps ?_ ?_
    | with_reducible refine ite_keeps (fun _ => ?_) (fun _ => ?_)
    | with_reducible refine iteOut_keeps (fun _ => ?_) (fun _ => ?_)
    | with_reducible refine foldl_keeps (fun _ _ _ => ?_) ?_
    | with_reducible refine foldl_kfst (fun _ _ _ => ?_) ?_
    | with_reducible refine foldl_ksnd (fun _ _ _ => ?_) ?_
    | subst x
    | with_reducible split
    | dsimp only

theorem execRteFlip_keeps {am : Nat} {s₀ : State} {s : State} (ha : Sub 67108912 am) (hs : Keeps am s₀ s) : KeepsOut am s₀ (execRteFlip s) := by
  unfold execRteFlip
  repeat' first
    | with_reducible assumption
    | exact sub_of ha rfl
    | with_reducible refine keepsOut_next ?_
    | (lift_lets; intro x; refine (fun (hx : Keeps am s₀ x) => ?_) ?_; clear_value x)
    | (intro x; subst x)
    | with_reducible refine State.applyPending_keeps ?_ ?_
    | with_reducible refine State.setErr_keeps ?_ ?_
    | with_reducible refine State.setFld_keeps ?_ ?_
    | with_reducible refine State.setVerState_keeps ?_ ?_
    | with_reducible refine State.withNet_keeps ?_ ?_
    | with_reducible refine ite_keeps (fun _ => ?_) (fun _ => ?_)
    | with_reducible refine iteOut_keeps (fun _ => ?_) (fun _ => ?_)
    | with_reducible refine foldl_keeps (fun _ _ _ => ?_) ?_
    | with_reducible refine foldl_kfst (fun _ _ _ => ?_) ?_
    | with_reducible refine foldl_ksnd (fun _ _ _ => ?_) ?_
    | subst x
    | with_reducible split
    | dsimp only

theorem State.boundTmo_keeps {am : Nat} {s₀ : State} {s : State} (ha : Sub 16 am) (hs : Keeps am s₀ s) : Keeps am s₀ (State.boundTmo s) := by
  unfold State.boundTmo
  repeat' first
    | with_reducible assumption
    | exact sub_of ha rfl
    | with_reducible refine keepsOut_next ?_
    | (lift_lets; intro x; refine (fun (hx : Keeps am s₀ x) => ?_) ?_; clear_value x)
    | (intro x; subst x)
    | with_reducible refine State.setFld_keeps ?_ ?_
    | with_reducible refine ite_keeps (fun _ => ?_) (fun _ => ?_)
    | with_reducible refine iteOut_keeps (fun _ => ?_) (fun _ => ?_)
    | with_reducible refine foldl_keeps (fun _ _ _ => ?_) ?_
    | with_reducible refine foldl_kfst (fun _ _ _ => ?_) ?_
    | with_reducible refine foldl_ksnd (fun _ _ _ => ?_) ?_
    | subst x
    | with_reducible split
    | dsimp only

theorem execRteCfgWrite_keeps {am : Nat} {s₀ : State} {data : W64} {s : State} (ha : Sub 48 am) (hs : Keeps am s₀ s) : KeepsOut am s₀ (execRteCfgWrite data s) := by
  unfold execRteCfgWrite
  repeat' first
    | with_reducible assumption
    | exact sub_of ha rfl
    | with_reducible refine keepsOut_next ?_
    | (lift_lets; intro x; refine (fun (hx : Keeps am s₀ x) => ?_) ?_; clear_value x)
    | (intro x; subst x)
    | with_reducible refine State.boundTmo_keeps ?_ ?_
    | with_reducible refine State.plainWrite_keeps ?_ ?_
    | with_reducible refine State.setErr_keeps ?_ ?_
    | with_reducible refine State.setFld_keeps ?_ ?_
    | with_reducible refine ite_keeps (fun _ => ?_) (fun _ => ?_)
    | with_reducible refine iteOut_keeps (fun _ => ?_) (fun _ => ?_)
    | with_reducible refine foldl_keeps (fun _ _ _ => ?_) ?_
    | with_reducible refine foldl_kfst (fun _ _ _ => ?_) ?_
    | with_reducible refine foldl_ksnd (fun _ _ _ => ?_) ?_
    | subst x
    | with_reducible split
    | dsimp only

theorem execRteTimersWrite_keeps {am : Nat} {s₀ : State} {data : W64} {s : State} (ha : Sub 16 am) (hs : Keeps am s₀ s) : KeepsOut am s₀ (execRteTimersWrite data s) := by
  unfold execRteTimersWrite
  repeat' first
    | with_reducible assumption
    | exact sub_of ha rfl
    | with_reducible refine keepsOut_next ?_
    | (lift_lets; intro x; refine (fun (hx : Keeps am s₀ x) => ?_) ?_; clear_value x)
    | (intro x; subst x)
    | with_reducible refine State.boundTmo_keeps ?_ ?_
    | with_reducible refine State.plainWrite_keeps ?_ ?_
    | with_reducible refine State.setFld_keeps ?_ ?_
    | with_reducible refine ite_keeps (fun _ => ?_) (fun _ => ?_)
    | with_reducible refine iteOut_keeps (fun _ => ?_) (fun _ => ?_)
    | with_reducible refine foldl_keeps (fun _ _ _ => ?_) ?_
    | with_reducible refine foldl_kfst (fun _ _ _ => ?_) ?_
    | with_reducible refine foldl_ksnd (fun _ _ _ => ?_) ?_
    | subst x
    | with_reducible split
    | dsimp only

theorem execRteCounterRead_keeps {am : Nat} {s₀ : State} {reg : Fin 3} {s : State} (ha : Sub 20 am) (hs : Keeps am s₀ s) : KeepsOut am s₀ (execRteCounterRead reg s) := by
  unfold execRteCounterRead
  repeat' first
    | with_reducible assumption
    | exact sub_of ha rfl
    | with_reducible refine keepsOut_next ?_
    | (lift_lets; intro x; refine (fun (hx : Keeps am s₀ x) => ?_) ?_; clear_value x)
    | (intro x; subst x)
    | with_reducible refine State.readClear_keeps ?_ ?_
    | with_reducible refine ite_keeps (fun _ => ?_) (fun _ => ?_)
    | with_reducible refine iteOut_keeps (fun _ => ?_) (fun _ => ?_)
    | with_reducible refine foldl_keeps (fun _ _ _ => ?_) ?_
    | with_reducible refine foldl_kfst (fun _ _ _ => ?_) ?_
    | with_reducible refine foldl_ksnd (fun _ _ _ => ?_) ?_
    | subst x
    | with_reducible split
    | dsimp only

theorem State.helloAll_keeps {am : Nat} {s₀ : State} {s : State} (ha : Sub 67108864 am) (hs : Keeps am s₀ s) : Keeps am s₀ (State.helloAll s) := by
  unfold State.helloAll
  repeat' first
    | with_reducible assumption
    | exact sub_of ha rfl
    | with_reducible refine keepsOut_next ?_
    | (lift_lets; intro x; refine (fun (hx : Keeps am s₀ x) => ?_) ?_; clear_value x)
    | (intro x; subst x)
    | with_reducible refine State.setPort_keeps ?_ ?_
    | with_reducible refine ite_keeps (fun _ => ?_) (fun _ => ?_)
    | with_reducible refine iteOut_keeps (fun _ => ?_) (fun _ => ?_)
    | with_reducible refine foldl_keeps (fun _ _ _ => ?_) ?_
    | with_reducible refine foldl_kfst (fun _ _ _ => ?_) ?_
    | with_reducible refine foldl_ksnd (fun _ _ _ => ?_) ?_
    | subst x
    | with_reducible split
    | dsimp only

theorem State.redecide_keeps {am : Nat} {s₀ : State} {s : State} {p : Nat} (ha : Sub 33554800 am) (hs : Keeps am s₀ s) : Keeps am s₀ (State.redecide s p) := by
  unfold State.redecide
  repeat' first
    | with_reducible assumption
    | exact sub_of ha rfl
    | with_reducible refine keepsOut_next ?_
    | (lift_lets; intro x; refine (fun (hx : Keeps am s₀ x) => ?_) ?_; clear_value x)
    | (intro x; subst x)
    | with_reducible refine State.event_keeps ?_ ?_
    | with_reducible refine State.setErr_keeps ?_ ?_
    | with_reducible refine State.setFld_keeps ?_ ?_
    | with_reducible refine ite_keeps (fun _ => ?_) (fun _ => ?_)
    | with_reducible refine iteOut_keeps (fun _ => ?_) (fun _ => ?_)
    | with_reducible refine foldl_keeps (fun _ _ _ => ?_) ?_
    | with_reducible refine foldl_kfst (fun _ _ _ => ?_) ?_
    | with_reducible refine foldl_ksnd (fun _ _ _ => ?_) ?_
    | subst x
    | with_reducible split
    | dsimp only

theorem State.redecideAll_keeps {am : Nat} {s₀ : State} {s : State} (ha : Sub 33554800 am) (hs : Keeps am s₀ s) : Keeps am s₀ (State.redecideAll s) := by
  unfold State.redecideAll
  repeat' first
    | with_reducible assumption
    | exact sub_of ha rfl
    | with_reducible refine keepsOut_next ?_
    | (lift_lets; intro x; refine (fun (hx : Keeps am s₀ x) => ?_) ?_; clear_value x)
    | (intro x; subst x)
    | with_reducible refine State.redecide_keeps ?_ ?_
    | with_reducible refine ite_keeps (fun _ => ?_) (fun _ => ?_)
    | with_reducible refine iteOut_keeps (fun _ => ?_) (fun _ => ?_)
    | with_reducible refine foldl_keeps (fun _ _ _ => ?_) ?_
    | with_reducible refine foldl_kfst (fun _ _ _ => ?_) ?_
    | with_reducible refine foldl_ksnd (fun _ _ _ => ?_) ?_
    | subst x
    | with_reducible split
    | dsimp only

theorem State.storeIdentity_keeps {am : Nat} {s₀ : State} {s : State} (ha : Sub 33554704 am) (hs : Keeps am s₀ s) : Keeps am s₀ (State.storeIdentity s) := by
  unfold State.storeIdentity
  repeat' first
    | with_reducible assumption
    | exact sub_of ha rfl
    | with_reducible refine keepsOut_next ?_
    | (lift_lets; intro x; refine (fun (hx : Keeps am s₀ x) => ?_) ?_; clear_value x)
    | (intro x; subst x)
    | with_reducible refine State.sstAdd_keeps ?_ ?_
    | with_reducible refine ite_keeps (fun _ => ?_) (fun _ => ?_)
    | with_reducible refine iteOut_keeps (fun _ => ?_) (fun _ => ?_)
    | with_reducible refine foldl_keeps (fun _ _ _ => ?_) ?_
    | with_reducible refine foldl_kfst (fun _ _ _ => ?_) ?_
    | with_reducible refine foldl_ksnd (fun _ _ _ => ?_) ?_
    | subst x
    | with_reducible split
    | dsimp only

theorem State.compareIdentity_keeps {am : Nat} {s₀ : State} {s : State} (ha : Sub 33554736 am) (hs : Keeps am s₀ s) : Keeps am s₀ (State.compareIdentity s) := by
  unfold State.compareIdentity
  repeat' first
    | with_reducible assumption
    | exact sub_of ha rfl
    | with_reducible refine keepsOut_next ?_
    | (lift_lets; intro x; refine (fun (hx : Keeps am s₀ x) => ?_) ?_; clear_value x)
    | (intro x; subst x)
    | with_reducible refine State.setErr_keeps ?_ ?_
    | with_reducible refine State.storeIdentity_keeps ?_ ?_
    | with_reducible refine ite_keeps (fun _ => ?_) (fun _ => ?_)
    | with_reducible refine iteOut_keeps (fun _ => ?_) (fun _ => ?_)
    | with_reducible refine foldl_keeps (fun _ _ _ => ?_) ?_
    | with_reducible refine foldl_kfst (fun _ _ _ => ?_) ?_
    | with_reducible refine foldl_ksnd (fun _ _ _ => ?_) ?_
    | subst x
    | with_reducible split
    | dsimp only

theorem State.setSelf_keeps {am : Nat} {s₀ : State} {s : State} {dev : Nat} (ha : Sub 33554800 am) (hs : Keeps am s₀ s) : Keeps am s₀ (State.setSelf s dev) := by
  unfold State.setSelf
  repeat' first
    | with_reducible assumption
    | exact sub_of ha rfl
    | with_reducible refine keepsOut_next ?_
    | (lift_lets; intro x; refine (fun (hx : Keeps am s₀ x) => ?_) ?_; clear_value x)
    | (intro x; subst x)
    | with_reducible refine State.event_keeps ?_ ?_
    | with_reducible refine State.setErr_keeps ?_ ?_
    | with_reducible refine State.setFld_keeps ?_ ?_
    | with_reducible refine ite_keeps (fun _ => ?_) (fun _ => ?_)
    | with_reducible refine iteOut_keeps (fun _ => ?_) (fun _ => ?_)
    | with_reducible refine foldl_keeps (fun _ _ _ => ?_) ?_
    | with_reducible refine foldl_kfst (fun _ _ _ => ?_) ?_
    | with_reducible refine foldl_ksnd (fun _ _ _ => ?_) ?_
    | subst x
    | with_reducible split
    | dsimp only

theorem State.takeNumber_keeps {am : Nat} {s₀ : State} {s : State} {dev : Nat} {src : Nat} (ha : Sub 100663664 am) (hs : Keeps am s₀ s) : Keeps am s₀ (State.takeNumber s dev src) := by
  unfold State.takeNumber
  repeat' first
    | with_reducible assumption
    | exact sub_of ha rfl
    | with_reducible refine keepsOut_next ?_
    | (lift_lets; intro x; refine (fun (hx : Keeps am s₀ x) => ?_) ?_; clear_value x)
    | (intro x; subst x)
    | with_reducible refine State.compareIdentity_keeps ?_ ?_
    | with_reducible refine State.helloAll_keeps ?_ ?_
    | with_reducible refine State.redecideAll_keeps ?_ ?_
    | with_reducible refine State.setReg_keeps ?_ ?_
    | with_reducible refine State.setSelf_keeps ?_ ?_
    | with_reducible refine State.storeIdentity_keeps ?_ ?_
    | with_reducible refine ite_keeps (fun _ => ?_) (fun _ => ?_)
    | with_reducible refine iteOut_keeps (fun _ => ?_) (fun _ => ?_)
    | with_reducible refine foldl_keeps (fun _ _ _ => ?_) ?_
    | with_reducible refine foldl_kfst (fun _ _ _ => ?_) ?_
    | with_reducible refine foldl_ksnd (fun _ _ _ => ?_) ?_
    | subst x
    | with_reducible split
    | dsimp only

theorem State.identify_keeps {am : Nat} {s₀ : State} {s : State} (ha : Sub 100663664 am) (hs : Keeps am s₀ s) : Keeps am s₀ (State.identify s) := by
  unfold State.identify
  repeat' first
    | with_reducible assumption
    | exact sub_of ha rfl
    | with_reducible refine keepsOut_next ?_
    | (lift_lets; intro x; refine (fun (hx : Keeps am s₀ x) => ?_) ?_; clear_value x)
    | (intro x; subst x)
    | with_reducible refine State.takeNumber_keeps ?_ ?_
    | with_reducible refine ite_keeps (fun _ => ?_) (fun _ => ?_)
    | with_reducible refine iteOut_keeps (fun _ => ?_) (fun _ => ?_)
    | with_reducible refine foldl_keeps (fun _ _ _ => ?_) ?_
    | with_reducible refine foldl_kfst (fun _ _ _ => ?_) ?_
    | with_reducible refine foldl_ksnd (fun _ _ _ => ?_) ?_
    | subst x
    | with_reducible split
    | dsimp only

theorem State.showPeer_keeps {am : Nat} {s₀ : State} {s : State} {p : Nat} {h : Hello} (ha : Sub 16 am) (hs : Keeps am s₀ s) : Keeps am s₀ (State.showPeer s p h) := by
  unfold State.showPeer
  repeat' first
    | with_reducible assumption
    | exact sub_of ha rfl
    | with_reducible refine keepsOut_next ?_
    | (lift_lets; intro x; refine (fun (hx : Keeps am s₀ x) => ?_) ?_; clear_value x)
    | (intro x; subst x)
    | with_reducible refine State.setBitF_keeps ?_ ?_
    | with_reducible refine State.setFld_keeps ?_ ?_
    | with_reducible refine State.setReg_keeps ?_ ?_
    | with_reducible refine ite_keeps (fun _ => ?_) (fun _ => ?_)
    | with_reducible refine iteOut_keeps (fun _ => ?_) (fun _ => ?_)
    | with_reducible refine foldl_keeps (fun _ _ _ => ?_) ?_
    | with_reducible refine foldl_kfst (fun _ _ _ => ?_) ?_
    | with_reducible refine foldl_ksnd (fun _ _ _ => ?_) ?_
    | subst x
    | with_reducible split
    | dsimp only

theorem execHelloRecv_keeps {am : Nat} {s₀ : State} {p : Fin 24} {h : Hello} {s0 : State} (ha : Sub 100729200 am) (hs : Keeps am s₀ s0) : KeepsOut am s₀ (execHelloRecv p h s0) := by
  unfold execHelloRecv
  repeat' first
    | with_reducible assumption
    | exact sub_of ha rfl
    | with_reducible refine keepsOut_next ?_
    | (lift_lets; intro x; refine (fun (hx : Keeps am s₀ x) => ?_) ?_; clear_value x)
    | (intro x; subst x)
    | with_reducible refine State.hearCtl_keeps ?_ ?_
    | with_reducible refine State.portDown_keeps ?_ ?_
    | with_reducible refine State.redecide_keeps ?_ ?_
    | with_reducible refine State.setErr_keeps ?_ ?_
    | with_reducible refine State.setPort_keeps ?_ ?_
    | with_reducible refine State.showPeer_keeps ?_ ?_
    | with_reducible refine ite_keeps (fun _ => ?_) (fun _ => ?_)
    | with_reducible refine iteOut_keeps (fun _ => ?_) (fun _ => ?_)
    | with_reducible refine foldl_keeps (fun _ _ _ => ?_) ?_
    | with_reducible refine foldl_kfst (fun _ _ _ => ?_) ?_
    | with_reducible refine foldl_ksnd (fun _ _ _ => ?_) ?_
    | subst x
    | with_reducible split
    | dsimp only

theorem execLocRecv_keeps {am : Nat} {s₀ : State} {p : Fin 24} {l : Loc} {s0 : State} (ha : Sub 100729200 am) (hs : Keeps am s₀ s0) : KeepsOut am s₀ (execLocRecv p l s0) := by
  unfold execLocRecv
  repeat' first
    | with_reducible assumption
    | exact sub_of ha rfl
    | with_reducible refine keepsOut_next ?_
    | (lift_lets; intro x; refine (fun (hx : Keeps am s₀ x) => ?_) ?_; clear_value x)
    | (intro x; subst x)
    | with_reducible refine State.hearCtl_keeps ?_ ?_
    | with_reducible refine State.identify_keeps ?_ ?_
    | with_reducible refine State.redecide_keeps ?_ ?_
    | with_reducible refine State.setBitF_keeps ?_ ?_
    | with_reducible refine State.setErr_keeps ?_ ?_
    | with_reducible refine State.setFld_keeps ?_ ?_
    | with_reducible refine State.setPort_keeps ?_ ?_
    | with_reducible refine ite_keeps (fun _ => ?_) (fun _ => ?_)
    | with_reducible refine iteOut_keeps (fun _ => ?_) (fun _ => ?_)
    | with_reducible refine foldl_keeps (fun _ _ _ => ?_) ?_
    | with_reducible refine foldl_kfst (fun _ _ _ => ?_) ?_
    | with_reducible refine foldl_ksnd (fun _ _ _ => ?_) ?_
    | subst x
    | with_reducible split
    | dsimp only

theorem execProbeRecv_keeps {am : Nat} {s₀ : State} {p : Fin 24} {crcOk : Bool} {s0 : State} (ha : Sub 67174400 am) (hs : Keeps am s₀ s0) : KeepsOut am s₀ (execProbeRecv p crcOk s0) := by
  unfold execProbeRecv
  repeat' first
    | with_reducible assumption
    | exact sub_of ha rfl
    | with_reducible refine keepsOut_next ?_
    | (lift_lets; intro x; refine (fun (hx : Keeps am s₀ x) => ?_) ?_; clear_value x)
    | (intro x; subst x)
    | with_reducible refine State.hearCtl_keeps ?_ ?_
    | with_reducible refine State.setPort_keeps ?_ ?_
    | with_reducible refine ite_keeps (fun _ => ?_) (fun _ => ?_)
    | with_reducible refine iteOut_keeps (fun _ => ?_) (fun _ => ?_)
    | with_reducible refine foldl_keeps (fun _ _ _ => ?_) ?_
    | with_reducible refine foldl_kfst (fun _ _ _ => ?_) ?_
    | with_reducible refine foldl_ksnd (fun _ _ _ => ?_) ?_
    | subst x
    | with_reducible split
    | dsimp only

theorem execHelloSend_keeps {am : Nat} {s₀ : State} {p : Fin 24} {s : State} (ha : Sub 67174400 am) (hs : Keeps am s₀ s) : KeepsOut am s₀ (execHelloSend p s) := by
  unfold execHelloSend
  repeat' first
    | with_reducible assumption
    | exact sub_of ha rfl
    | with_reducible refine keepsOut_next ?_
    | (lift_lets; intro x; refine (fun (hx : Keeps am s₀ x) => ?_) ?_; clear_value x)
    | (intro x; subst x)
    | with_reducible refine State.sendCtl_keeps ?_ ?_
    | with_reducible refine State.setPort_keeps ?_ ?_
    | with_reducible refine ite_keeps (fun _ => ?_) (fun _ => ?_)
    | with_reducible refine iteOut_keeps (fun _ => ?_) (fun _ => ?_)
    | with_reducible refine foldl_keeps (fun _ _ _ => ?_) ?_
    | with_reducible refine foldl_kfst (fun _ _ _ => ?_) ?_
    | with_reducible refine foldl_ksnd (fun _ _ _ => ?_) ?_
    | subst x
    | with_reducible split
    | dsimp only

theorem execDiscElect_keeps {am : Nat} {s₀ : State} {s : State} (ha : Sub 100663664 am) (hs : Keeps am s₀ s) : KeepsOut am s₀ (execDiscElect s) := by
  unfold execDiscElect
  repeat' first
    | with_reducible assumption
    | exact sub_of ha rfl
    | with_reducible refine keepsOut_next ?_
    | (lift_lets; intro x; refine (fun (hx : Keeps am s₀ x) => ?_) ?_; clear_value x)
    | (intro x; subst x)
    | with_reducible refine State.identify_keeps ?_ ?_
    | with_reducible refine State.withNet_keeps ?_ ?_
    | with_reducible refine ite_keeps (fun _ => ?_) (fun _ => ?_)
    | with_reducible refine iteOut_keeps (fun _ => ?_) (fun _ => ?_)
    | with_reducible refine foldl_keeps (fun _ _ _ => ?_) ?_
    | with_reducible refine foldl_kfst (fun _ _ _ => ?_) ?_
    | with_reducible refine foldl_ksnd (fun _ _ _ => ?_) ?_
    | subst x
    | with_reducible split
    | dsimp only

theorem execDiscPeerTimeout_keeps {am : Nat} {s₀ : State} {p : Fin 24} {s : State} (ha : Sub 100663664 am) (hs : Keeps am s₀ s) : KeepsOut am s₀ (execDiscPeerTimeout p s) := by
  unfold execDiscPeerTimeout
  repeat' first
    | with_reducible assumption
    | exact sub_of ha rfl
    | with_reducible refine keepsOut_next ?_
    | (lift_lets; intro x; refine (fun (hx : Keeps am s₀ x) => ?_) ?_; clear_value x)
    | (intro x; subst x)
    | with_reducible refine State.redecide_keeps ?_ ?_
    | with_reducible refine State.setPort_keeps ?_ ?_
    | with_reducible refine ite_keeps (fun _ => ?_) (fun _ => ?_)
    | with_reducible refine iteOut_keeps (fun _ => ?_) (fun _ => ?_)
    | with_reducible refine foldl_keeps (fun _ _ _ => ?_) ?_
    | with_reducible refine foldl_kfst (fun _ _ _ => ?_) ?_
    | with_reducible refine foldl_ksnd (fun _ _ _ => ?_) ?_
    | subst x
    | with_reducible split
    | dsimp only

theorem execDscExpWrite_keeps {am : Nat} {s₀ : State} {p : Fin 24} {data : W64} {s : State} (ha : Sub 33554800 am) (hs : Keeps am s₀ s) : KeepsOut am s₀ (execDscExpWrite p data s) := by
  unfold execDscExpWrite
  repeat' first
    | with_reducible assumption
    | exact sub_of ha rfl
    | with_reducible refine keepsOut_next ?_
    | (lift_lets; intro x; refine (fun (hx : Keeps am s₀ x) => ?_) ?_; clear_value x)
    | (intro x; subst x)
    | with_reducible refine State.plainWrite_keeps ?_ ?_
    | with_reducible refine State.redecide_keeps ?_ ?_
    | with_reducible refine ite_keeps (fun _ => ?_) (fun _ => ?_)
    | with_reducible refine iteOut_keeps (fun _ => ?_) (fun _ => ?_)
    | with_reducible refine foldl_keeps (fun _ _ _ => ?_) ?_
    | with_reducible refine foldl_kfst (fun _ _ _ => ?_) ?_
    | with_reducible refine foldl_ksnd (fun _ _ _ => ?_) ?_
    | subst x
    | with_reducible split
    | dsimp only

theorem execDscFabricWrite_keeps {am : Nat} {s₀ : State} {data : W64} {s : State} (ha : Sub 100663664 am) (hs : Keeps am s₀ s) : KeepsOut am s₀ (execDscFabricWrite data s) := by
  unfold execDscFabricWrite
  repeat' first
    | with_reducible assumption
    | exact sub_of ha rfl
    | with_reducible refine keepsOut_next ?_
    | (lift_lets; intro x; refine (fun (hx : Keeps am s₀ x) => ?_) ?_; clear_value x)
    | (intro x; subst x)
    | with_reducible refine State.helloAll_keeps ?_ ?_
    | with_reducible refine State.plainWrite_keeps ?_ ?_
    | with_reducible refine State.redecideAll_keeps ?_ ?_
    | with_reducible refine State.storeIdentity_keeps ?_ ?_
    | with_reducible refine ite_keeps (fun _ => ?_) (fun _ => ?_)
    | with_reducible refine iteOut_keeps (fun _ => ?_) (fun _ => ?_)
    | with_reducible refine foldl_keeps (fun _ _ _ => ?_) ?_
    | with_reducible refine foldl_kfst (fun _ _ _ => ?_) ?_
    | with_reducible refine foldl_ksnd (fun _ _ _ => ?_) ?_
    | subst x
    | with_reducible split
    | dsimp only

theorem execDscIdWrite_keeps {am : Nat} {s₀ : State} {data : W64} {s : State} (ha : Sub 100663664 am) (hs : Keeps am s₀ s) : KeepsOut am s₀ (execDscIdWrite data s) := by
  unfold execDscIdWrite
  repeat' first
    | with_reducible assumption
    | exact sub_of ha rfl
    | with_reducible refine keepsOut_next ?_
    | (lift_lets; intro x; refine (fun (hx : Keeps am s₀ x) => ?_) ?_; clear_value x)
    | (intro x; subst x)
    | with_reducible refine State.identify_keeps ?_ ?_
    | with_reducible refine State.plainWrite_keeps ?_ ?_
    | with_reducible refine ite_keeps (fun _ => ?_) (fun _ => ?_)
    | with_reducible refine iteOut_keeps (fun _ => ?_) (fun _ => ?_)
    | with_reducible refine foldl_keeps (fun _ _ _ => ?_) ?_
    | with_reducible refine foldl_kfst (fun _ _ _ => ?_) ?_
    | with_reducible refine foldl_ksnd (fun _ _ _ => ?_) ?_
    | subst x
    | with_reducible split
    | dsimp only

theorem State.loadIdentity_keeps {am : Nat} {s₀ : State} {s : State} (ha : Sub 100663664 am) (hs : Keeps am s₀ s) : Keeps am s₀ (State.loadIdentity s) := by
  unfold State.loadIdentity
  repeat' first
    | with_reducible assumption
    | exact sub_of ha rfl
    | with_reducible refine keepsOut_next ?_
    | (lift_lets; intro x; refine (fun (hx : Keeps am s₀ x) => ?_) ?_; clear_value x)
    | (intro x; subst x)
    | with_reducible refine State.helloAll_keeps ?_ ?_
    | with_reducible refine State.redecideAll_keeps ?_ ?_
    | with_reducible refine State.setReg_keeps ?_ ?_
    | with_reducible refine ite_keeps (fun _ => ?_) (fun _ => ?_)
    | with_reducible refine iteOut_keeps (fun _ => ?_) (fun _ => ?_)
    | with_reducible refine foldl_keeps (fun _ _ _ => ?_) ?_
    | with_reducible refine foldl_kfst (fun _ _ _ => ?_) ?_
    | with_reducible refine foldl_ksnd (fun _ _ _ => ?_) ?_
    | subst x
    | with_reducible split
    | dsimp only

-- FOR State.opCheck
-- HAVE opCheck State.opCheck_keeps ?_ ?_
-- HAVE =opCheck State.opCheck_keeps_eq
theorem State.opCheck_keeps {am : Nat} {s₀ s : State} {o : PortOp} (ha : Sub 48 am) (hs : Keeps am s₀ s) : Keeps am s₀ (State.opCheck s o).2 := by
  have h1 : Keeps am s₀ (if o.rdev = s.self then (St.ok, s) else s.lookup o.rdev (decide (o.kind = 3) || o.narrow)).2 := by
    split
    · exact hs
    · exact State.lookup_keeps (sub_of ha rfl) hs
  unfold State.opCheck
  generalize (if o.rdev = s.self then (St.ok, s) else s.lookup o.rdev (decide (o.kind = 3) || o.narrow)) = r at h1
  obtain ⟨st, s1⟩ := r
  dsimp only at h1 ⊢
  repeat' split
  all_goals first | exact hs | exact h1
theorem State.opCheck_keeps_eq {am : Nat} {s₀ s : State} {o : PortOp} {rr} (ha : Sub 48 am) (he : State.opCheck s o = rr) (hs : Keeps am s₀ s) :
    Keeps am s₀ rr.2 := he ▸ State.opCheck_keeps ha hs

theorem State.post_keeps {am : Nat} {s₀ : State} {s : State} {d : Nat} {ws : List W64} (ha : Sub 67108864 am) (hs : Keeps am s₀ s) : Keeps am s₀ (State.post s d ws) := by
  unfold State.post
  repeat' first
    | with_reducible assumption
    | exact sub_of ha rfl
    | with_reducible refine keepsOut_next ?_
    | (lift_lets; intro x; refine (fun (hx : Keeps am s₀ x) => ?_) ?_; clear_value x)
    | (intro x; subst x)
    | with_reducible refine State.inject_keeps ?_ ?_
    | with_reducible refine State.withNet_keeps ?_ ?_
    | with_reducible refine ite_keeps (fun _ => ?_) (fun _ => ?_)
    | with_reducible refine iteOut_keeps (fun _ => ?_) (fun _ => ?_)
    | with_reducible refine foldl_keeps (fun _ _ _ => ?_) ?_
    | with_reducible refine foldl_kfst (fun _ _ _ => ?_) ?_
    | with_reducible refine foldl_ksnd (fun _ _ _ => ?_) ?_
    | subst x
    | with_reducible split
    | dsimp only

theorem State.claimSlot_keeps {am : Nat} {s₀ : State} (s : State) (d : Nat) (ctx : Nat) (o : Owner) (ha : Sub 67108864 am) (hs : Keeps am s₀ s) : KeepsOpt am s₀ (fun r => r.2) (State.claimSlot s d ctx o) := by
  unfold State.claimSlot
  repeat' first
    | with_reducible assumption
    | with_reducible refine keepsOpt_some ?_
    | with_reducible refine keepsOpt_none
    | exact sub_of ha rfl
    | with_reducible refine keepsOut_next ?_
    | (lift_lets; intro x; refine (fun (hx : Keeps am s₀ x) => ?_) ?_; clear_value x)
    | (intro x; subst x)
    | with_reducible refine State.setSlot_keeps ?_ ?_
    | with_reducible refine iteOpt_keeps (fun _ => ?_) (fun _ => ?_)
    | with_reducible refine ite_keeps (fun _ => ?_) (fun _ => ?_)
    | with_reducible refine iteOut_keeps (fun _ => ?_) (fun _ => ?_)
    | with_reducible refine foldl_keeps (fun _ _ _ => ?_) ?_
    | with_reducible refine foldl_kfst (fun _ _ _ => ?_) ?_
    | with_reducible refine foldl_ksnd (fun _ _ _ => ?_) ?_
    | subst x
    | with_reducible split
    | dsimp only

theorem State.claimSlot_keeps_eq {am : Nat} {s₀ : State} {s : State} {d : Nat} {ctx : Nat} {o : Owner} {rr} (ha : Sub 67108864 am) (he : State.claimSlot s d ctx o = some rr) (hs : Keeps am s₀ s) : Keeps am s₀ rr.2 := State.claimSlot_keeps s d ctx o ha hs rr he

theorem State.mapOp_keeps {am : Nat} {s₀ : State} {s : State} {num : Nat} {f : PortOp → PortOp} (ha : Sub 67108864 am) (hs : Keeps am s₀ s) : Keeps am s₀ (State.mapOp s num f) := by
  unfold State.mapOp
  repeat' first
    | with_reducible assumption
    | exact sub_of ha rfl
    | with_reducible refine keepsOut_next ?_
    | (lift_lets; intro x; refine (fun (hx : Keeps am s₀ x) => ?_) ?_; clear_value x)
    | (intro x; subst x)
    | with_reducible refine State.withNet_keeps ?_ ?_
    | with_reducible refine ite_keeps (fun _ => ?_) (fun _ => ?_)
    | with_reducible refine iteOut_keeps (fun _ => ?_) (fun _ => ?_)
    | with_reducible refine foldl_keeps (fun _ _ _ => ?_) ?_
    | with_reducible refine foldl_kfst (fun _ _ _ => ?_) ?_
    | with_reducible refine foldl_ksnd (fun _ _ _ => ?_) ?_
    | subst x
    | with_reducible split
    | dsimp only

theorem State.formOne_keeps {am : Nat} {s₀ : State} (s : State) (o : PortOp) (ha : Sub 67633168 am) (hs : Keeps am s₀ s) : KeepsOpt am s₀ (fun r => r) (State.formOne s o) := by
  unfold State.formOne
  repeat' first
    | with_reducible assumption
    | with_reducible refine keepsOpt_some ?_
    | with_reducible refine keepsOpt_none
    | exact sub_of ha rfl
    | with_reducible refine keepsOut_next ?_
    | (lift_lets; intro x; refine (fun (hx : Keeps am s₀ x) => ?_) ?_; clear_value x)
    | (intro x; subst x)
    | with_reducible refine State.charge_keeps ?_ ?_
    | with_reducible refine State.mapOp_keeps ?_ ?_
    | with_reducible refine State.post_keeps ?_ ?_
    | with_reducible refine State.claimSlot_keeps_eq ?_ (by with_reducible assumption) ?_
    | with_reducible refine iteOpt_keeps (fun _ => ?_) (fun _ => ?_)
    | with_reducible refine ite_keeps (fun _ => ?_) (fun _ => ?_)
    | with_reducible refine iteOut_keeps (fun _ => ?_) (fun _ => ?_)
    | with_reducible refine foldl_keeps (fun _ _ _ => ?_) ?_
    | with_reducible refine foldl_kfst (fun _ _ _ => ?_) ?_
    | with_reducible refine foldl_ksnd (fun _ _ _ => ?_) ?_
    | subst x
    | with_reducible split
    | dsimp only

theorem State.formOne_keeps_eq {am : Nat} {s₀ : State} {s : State} {o : PortOp} {rr} (ha : Sub 67633168 am) (he : State.formOne s o = some rr) (hs : Keeps am s₀ s) : Keeps am s₀ rr := State.formOne_keeps s o ha hs rr he

-- FOR State.formMany
-- HAVE formMany State.formMany_keeps ?_ ?_
theorem State.formMany_keeps {am : Nat} {s₀ : State} : ∀ {n : Nat} {s : State} {d : Nat}, Sub 67633168 am → Keeps am s₀ s → Keeps am s₀ (State.formMany n s d) := by
  intro n
  induction n with
  | zero => intro s d ha hs; exact hs
  | succ n ih =>
    intro s d ha hs
    unfold State.formMany
    split
    · split
      · exact ih ha (State.formOne_keeps_eq (sub_of ha rfl) ‹_› hs)
      · exact hs
    · exact hs

theorem State.formAll_keeps {am : Nat} {s₀ : State} {s : State} {d : Nat} (ha : Sub 67633168 am) (hs : Keeps am s₀ s) : Keeps am s₀ (State.formAll s d) := by
  unfold State.formAll
  repeat' first
    | with_reducible assumption
    | exact sub_of ha rfl
    | with_reducible refine keepsOut_next ?_
    | (lift_lets; intro x; refine (fun (hx : Keeps am s₀ x) => ?_) ?_; clear_value x)
    | (intro x; subst x)
    | with_reducible refine State.formMany_keeps ?_ ?_
    | with_reducible refine ite_keeps (fun _ => ?_) (fun _ => ?_)
    | with_reducible refine iteOut_keeps (fun _ => ?_) (fun _ => ?_)
    | with_reducible refine foldl_keeps (fun _ _ _ => ?_) ?_
    | with_reducible refine foldl_kfst (fun _ _ _ => ?_) ?_
    | with_reducible refine foldl_ksnd (fun _ _ _ => ?_) ?_
    | subst x
    | with_reducible split
    | dsimp only

theorem State.submitOp_keeps {am : Nat} {s₀ : State} {s : State} {group : Nat} {ctx : Nat} {words : List W64} (ha : Sub 67633200 am) (hs : Keeps am s₀ s) : Keeps am s₀ (State.submitOp s group ctx words).2 := by
  unfold State.submitOp
  repeat' first
    | with_reducible assumption
    | exact sub_of ha rfl
    | with_reducible refine keepsOut_next ?_
    | (lift_lets; intro x; refine (fun (hx : Keeps am s₀ x) => ?_) ?_; clear_value x)
    | (intro x; subst x)
    | with_reducible refine State.formAll_keeps ?_ ?_
    | with_reducible refine State.opCheck_keeps ?_ ?_
    | with_reducible refine State.withNet_keeps ?_ ?_
    | with_reducible refine State.opCheck_keeps_eq ?_ (by with_reducible assumption) ?_
    | with_reducible refine ite_keeps (fun _ => ?_) (fun _ => ?_)
    | with_reducible refine iteOut_keeps (fun _ => ?_) (fun _ => ?_)
    | with_reducible refine foldl_keeps (fun _ _ _ => ?_) ?_
    | with_reducible refine foldl_kfst (fun _ _ _ => ?_) ?_
    | with_reducible refine foldl_ksnd (fun _ _ _ => ?_) ?_
    | subst x
    | with_reducible split
    | dsimp only

theorem State.submitOp_keeps_eq {am : Nat} {s₀ : State} {s : State} {group : Nat} {ctx : Nat} {words : List W64} {rr} (ha : Sub 67633200 am) (he : State.submitOp s group ctx words = rr) (hs : Keeps am s₀ s) : Keeps am s₀ rr.2 := he ▸ State.submitOp_keeps ha hs

theorem State.deny_keeps {am : Nat} {s₀ : State} {s : State} (ha : Sub 16 am) (hs : Keeps am s₀ s) : Keeps am s₀ (State.deny s) := by
  unfold State.deny
  repeat' first
    | with_reducible assumption
    | exact sub_of ha rfl
    | with_reducible refine keepsOut_next ?_
    | (lift_lets; intro x; refine (fun (hx : Keeps am s₀ x) => ?_) ?_; clear_value x)
    | (intro x; subst x)
    | with_reducible refine State.addFld_keeps ?_ ?_
    | with_reducible refine ite_keeps (fun _ => ?_) (fun _ => ?_)
    | with_reducible refine iteOut_keeps (fun _ => ?_) (fun _ => ?_)
    | with_reducible refine foldl_keeps (fun _ _ _ => ?_) ?_
    | with_reducible refine foldl_kfst (fun _ _ _ => ?_) ?_
    | with_reducible refine foldl_ksnd (fun _ _ _ => ?_) ?_
    | subst x
    | with_reducible split
    | dsimp only

theorem State.takeSunk_keeps {am : Nat} {s₀ : State} (s : State) (d : Nat) (p : List W64 → Bool) (ha : Sub 67108864 am) (hs : Keeps am s₀ s) : KeepsOpt am s₀ (fun r => r.2) (State.takeSunk s d p) := by
  unfold State.takeSunk
  repeat' first
    | with_reducible assumption
    | with_reducible refine keepsOpt_some ?_
    | with_reducible refine keepsOpt_none
    | exact sub_of ha rfl
    | with_reducible refine keepsOut_next ?_
    | (lift_lets; intro x; refine (fun (hx : Keeps am s₀ x) => ?_) ?_; clear_value x)
    | (intro x; subst x)
    | with_reducible refine State.withNet_keeps ?_ ?_
    | with_reducible refine iteOpt_keeps (fun _ => ?_) (fun _ => ?_)
    | with_reducible refine ite_keeps (fun _ => ?_) (fun _ => ?_)
    | with_reducible refine iteOut_keeps (fun _ => ?_) (fun _ => ?_)
    | with_reducible refine foldl_keeps (fun _ _ _ => ?_) ?_
    | with_reducible refine foldl_kfst (fun _ _ _ => ?_) ?_
    | with_reducible refine foldl_ksnd (fun _ _ _ => ?_) ?_
    | subst x
    | with_reducible split
    | dsimp only

theorem State.takeSunk_keeps_eq {am : Nat} {s₀ : State} {s : State} {d : Nat} {p : List W64 → Bool} {rr} (ha : Sub 67108864 am) (he : State.takeSunk s d p = some rr) (hs : Keeps am s₀ s) : Keeps am s₀ rr.2 := State.takeSunk_keeps s d p ha hs rr he

theorem State.reply_keeps {am : Nat} {s₀ : State} {s : State} {d : Nat} {dst : Nat} {req : List W64} {op : Nat} {st : Nat} {len : Nat} {payload : List W64} (ha : Sub 67108864 am) (hs : Keeps am s₀ s) : Keeps am s₀ (State.reply s d dst req op st len payload) := by
  unfold State.reply
  repeat' first
    | with_reducible assumption
    | exact sub_of ha rfl
    | with_reducible refine keepsOut_next ?_
    | (lift_lets; intro x; refine (fun (hx : Keeps am s₀ x) => ?_) ?_; clear_value x)
    | (intro x; subst x)
    | with_reducible refine State.post_keeps ?_ ?_
    | with_reducible refine ite_keeps (fun _ => ?_) (fun _ => ?_)
    | with_reducible refine iteOut_keeps (fun _ => ?_) (fun _ => ?_)
    | with_reducible refine foldl_keeps (fun _ _ _ => ?_) ?_
    | with_reducible refine foldl_kfst (fun _ _ _ => ?_) ?_
    | with_reducible refine foldl_ksnd (fun _ _ _ => ?_) ?_
    | subst x
    | with_reducible split
    | dsimp only

theorem State.ack_keeps {am : Nat} {s₀ : State} {s : State} {d : Nat} {req : List W64} {st : Nat} (ha : Sub 67108864 am) (hs : Keeps am s₀ s) : Keeps am s₀ (State.ack s d req st) := by
  unfold State.ack
  repeat' first
    | with_reducible assumption
    | exact sub_of ha rfl
    | with_reducible refine keepsOut_next ?_
    | (lift_lets; intro x; refine (fun (hx : Keeps am s₀ x) => ?_) ?_; clear_value x)
    | (intro x; subst x)
    | with_reducible refine State.reply_keeps ?_ ?_
    | with_reducible refine ite_keeps (fun _ => ?_) (fun _ => ?_)
    | with_reducible refine iteOut_keeps (fun _ => ?_) (fun _ => ?_)
    | with_reducible refine foldl_keeps (fun _ _ _ => ?_) ?_
    | with_reducible refine foldl_kfst (fun _ _ _ => ?_) ?_
    | with_reducible refine foldl_ksnd (fun _ _ _ => ?_) ?_
    | subst x
    | with_reducible split
    | dsimp only

theorem execSignalRecv_keeps {am : Nat} {s₀ : State} {d : Die} {s : State} (ha : Sub 100663824 am) (hs : Keeps am s₀ s) : KeepsOut am s₀ (execSignalRecv d s) := by
  unfold execSignalRecv
  repeat' first
    | with_reducible assumption
    | exact sub_of ha rfl
    | with_reducible refine keepsOut_next ?_
    | (lift_lets; intro x; refine (fun (hx : Keeps am s₀ x) => ?_) ?_; clear_value x)
    | (intro x; subst x)
    | with_reducible refine State.ack_keeps ?_ ?_
    | with_reducible refine State.deny_keeps ?_ ?_
    | with_reducible refine State.signal_keeps ?_ ?_
    | with_reducible refine State.signal_keeps_eq ?_ (by with_reducible assumption) ?_
    | with_reducible refine State.takeSunk_keeps_eq ?_ (by with_reducible assumption) ?_
    | with_reducible refine ite_keeps (fun _ => ?_) (fun _ => ?_)
    | with_reducible refine iteOut_keeps (fun _ => ?_) (fun _ => ?_)
    | with_reducible refine foldl_keeps (fun _ _ _ => ?_) ?_
    | with_reducible refine foldl_kfst (fun _ _ _ => ?_) ?_
    | with_reducible refine foldl_ksnd (fun _ _ _ => ?_) ?_
    | subst x
    | with_reducible split
    | dsimp only

theorem execRwinDenyRead_keeps {am : Nat} {s₀ : State} {s : State} (ha : Sub 20 am) (hs : Keeps am s₀ s) : KeepsOut am s₀ (execRwinDenyRead s) := by
  unfold execRwinDenyRead
  repeat' first
    | with_reducible assumption
    | exact sub_of ha rfl
    | with_reducible refine keepsOut_next ?_
    | (lift_lets; intro x; refine (fun (hx : Keeps am s₀ x) => ?_) ?_; clear_value x)
    | (intro x; subst x)
    | with_reducible refine State.readClear_keeps ?_ ?_
    | with_reducible refine ite_keeps (fun _ => ?_) (fun _ => ?_)
    | with_reducible refine iteOut_keeps (fun _ => ?_) (fun _ => ?_)
    | with_reducible refine foldl_keeps (fun _ _ _ => ?_) ?_
    | with_reducible refine foldl_kfst (fun _ _ _ => ?_) ?_
    | with_reducible refine foldl_ksnd (fun _ _ _ => ?_) ?_
    | subst x
    | with_reducible split
    | dsimp only

theorem State.putPayload_keeps {am : Nat} {s₀ : State} {s : State} {ol : Nat} {m : OutMsg} (ha : Sub 67633202 am) (hs : Keeps am s₀ s) : Keeps am s₀ (State.putPayload s ol m) := by
  unfold State.putPayload
  repeat' first
    | with_reducible assumption
    | exact sub_of ha rfl
    | with_reducible refine keepsOut_next ?_
    | (lift_lets; intro x; refine (fun (hx : Keeps am s₀ x) => ?_) ?_; clear_value x)
    | (intro x; subst x)
    | with_reducible refine State.draw_keeps ?_ ?_
    | with_reducible refine State.submitOp_keeps ?_ ?_
    | with_reducible refine State.draw_keeps_eq ?_ (by with_reducible assumption) ?_
    | with_reducible refine State.submitOp_keeps_eq ?_ (by with_reducible assumption) ?_
    | with_reducible refine ite_keeps (fun _ => ?_) (fun _ => ?_)
    | with_reducible refine iteOut_keeps (fun _ => ?_) (fun _ => ?_)
    | with_reducible refine foldl_keeps (fun _ _ _ => ?_) ?_
    | with_reducible refine foldl_kfst (fun _ _ _ => ?_) ?_
    | with_reducible refine foldl_ksnd (fun _ _ _ => ?_) ?_
    | subst x
    | with_reducible split
    | dsimp only

theorem State.pushLink_keeps {am : Nat} {s₀ : State} {s : State} {ol : Nat} {ws : List W64} (ha : Sub 84410418 am) (hs : Keeps am s₀ s) : Keeps am s₀ (State.pushLink s ol ws) := by
  unfold State.pushLink
  repeat' first
    | with_reducible assumption
    | exact sub_of ha rfl
    | with_reducible refine keepsOut_next ?_
    | (lift_lets; intro x; refine (fun (hx : Keeps am s₀ x) => ?_) ?_; clear_value x)
    | (intro x; subst x)
    | with_reducible refine State.putPayload_keeps ?_ ?_
    | with_reducible refine State.setOutq_keeps ?_ ?_
    | with_reducible refine State.wrapFld_keeps ?_ ?_
    | with_reducible refine ite_keeps (fun _ => ?_) (fun _ => ?_)
    | with_reducible refine iteOut_keeps (fun _ => ?_) (fun _ => ?_)
    | with_reducible refine foldl_keeps (fun _ _ _ => ?_) ?_
    | with_reducible refine foldl_kfst (fun _ _ _ => ?_) ?_
    | with_reducible refine foldl_ksnd (fun _ _ _ => ?_) ?_
    | subst x
    | with_reducible split
    | dsimp only

theorem State.dropMarks_keeps {am : Nat} {s₀ : State} {s : State} {qn : Nat} (ha : Sub 16777232 am) (hs : Keeps am s₀ s) : Keeps am s₀ (State.dropMarks s qn) := by
  unfold State.dropMarks
  repeat' first
    | with_reducible assumption
    | exact sub_of ha rfl
    | with_reducible refine keepsOut_next ?_
    | (lift_lets; intro x; refine (fun (hx : Keeps am s₀ x) => ?_) ?_; clear_value x)
    | (intro x; subst x)
    | with_reducible refine State.setInq_keeps ?_ ?_
    | with_reducible refine State.wrapFld_keeps ?_ ?_
    | with_reducible refine ite_keeps (fun _ => ?_) (fun _ => ?_)
    | with_reducible refine iteOut_keeps (fun _ => ?_) (fun _ => ?_)
    | with_reducible refine foldl_keeps (fun _ _ _ => ?_) ?_
    | with_reducible refine foldl_kfst (fun _ _ _ => ?_) ?_
    | with_reducible refine foldl_ksnd (fun _ _ _ => ?_) ?_
    | subst x
    | with_reducible split
    | dsimp only

theorem State.linkStep_keeps {am : Nat} {s₀ : State} (s : State) (c : Nat) (rd : Nat) (why : Why) (ha : Sub 84411954 am) (hs : Keeps am s₀ s) : KeepsOpt am s₀ (fun r => r) (State.linkStep s c rd why) := by
  unfold State.linkStep
  repeat' first
    | with_reducible assumption
    | with_reducible refine keepsOpt_some ?_
    | with_reducible refine keepsOpt_none
    | exact sub_of ha rfl
    | with_reducible refine keepsOut_next ?_
    | (lift_lets; intro x; refine (fun (hx : Keeps am s₀ x) => ?_) ?_; clear_value x)
    | (intro x; subst x)
    | with_reducible refine State.pushLink_keeps ?_ ?_
    | with_reducible refine State.retSt_keeps ?_ ?_
    | with_reducible refine State.setInq_keeps ?_ ?_
    | with_reducible refine State.setScratchWords_keeps ?_ ?_
    | with_reducible refine iteOpt_keeps (fun _ => ?_) (fun _ => ?_)
    | with_reducible refine ite_keeps (fun _ => ?_) (fun _ => ?_)
    | with_reducible refine iteOut_keeps (fun _ => ?_) (fun _ => ?_)
    | with_reducible refine foldl_keeps (fun _ _ _ => ?_) ?_
    | with_reducible refine foldl_kfst (fun _ _ _ => ?_) ?_
    | with_reducible refine foldl_ksnd (fun _ _ _ => ?_) ?_
    | subst x
    | with_reducible split
    | dsimp only

theorem State.linkStep_keeps_eq {am : Nat} {s₀ : State} {s : State} {c : Nat} {rd : Nat} {why : Why} {rr} (ha : Sub 84411954 am) (he : State.linkStep s c rd why = some rr) (hs : Keeps am s₀ s) : Keeps am s₀ rr := State.linkStep_keeps s c rd why ha hs rr he

theorem State.wakeLinks_keeps {am : Nat} {s₀ : State} {s : State} (ha : Sub 117966386 am) (hs : Keeps am s₀ s) : Keeps am s₀ (State.wakeLinks s) := by
  unfold State.wakeLinks
  repeat' first
    | with_reducible assumption
    | exact sub_of ha rfl
    | with_reducible refine keepsOut_next ?_
    | (lift_lets; intro x; refine (fun (hx : Keeps am s₀ x) => ?_) ?_; clear_value x)
    | (intro x; subst x)
    | with_reducible refine State.unwait_keeps ?_ ?_
    | with_reducible refine State.linkStep_keeps_eq ?_ (by with_reducible assumption) ?_
    | with_reducible refine ite_keeps (fun _ => ?_) (fun _ => ?_)
    | with_reducible refine iteOut_keeps (fun _ => ?_) (fun _ => ?_)
    | with_reducible refine foldl_keeps (fun _ _ _ => ?_) ?_
    | with_reducible refine foldl_kfst (fun _ _ _ => ?_) ?_
    | with_reducible refine foldl_ksnd (fun _ _ _ => ?_) ?_
    | subst x
    | with_reducible split
    | dsimp only

theorem State.linkRun_keeps {am : Nat} {s₀ : State} {s : State} {c : Nat} {rd : Nat} {nb : Bool} {st : Nat} {why : Why} (ha : Sub 117966386 am) (hs : Keeps am s₀ s) : Keeps am s₀ (State.linkRun s c rd nb st why) := by
  unfold State.linkRun
  repeat' first
    | with_reducible assumption
    | exact sub_of ha rfl
    | with_reducible refine keepsOut_next ?_
    | (lift_lets; intro x; refine (fun (hx : Keeps am s₀ x) => ?_) ?_; clear_value x)
    | (intro x; subst x)
    | with_reducible refine State.retSt_keeps ?_ ?_
    | with_reducible refine State.wait_keeps ?_ ?_
    | with_reducible refine State.linkStep_keeps_eq ?_ (by with_reducible assumption) ?_
    | with_reducible refine ite_keeps (fun _ => ?_) (fun _ => ?_)
    | with_reducible refine iteOut_keeps (fun _ => ?_) (fun _ => ?_)
    | with_reducible refine foldl_keeps (fun _ _ _ => ?_) ?_
    | with_reducible refine foldl_kfst (fun _ _ _ => ?_) ?_
    | with_reducible refine foldl_ksnd (fun _ _ _ => ?_) ?_
    | subst x
    | with_reducible split
    | dsimp only

theorem execQpush_keeps {am : Nat} {s₀ : State} {c : ClusterNo} {nb : Bool} {rd : Gpr} {rs1 : Gpr} {rs2 : Gpr} {s : State} (ha : Sub 117966386 am) (hs : Keeps am s₀ s) : KeepsOut am s₀ (execQpush c nb rd rs1 rs2 s) := by
  unfold execQpush
  repeat' first
    | with_reducible assumption
    | exact sub_of ha rfl
    | with_reducible refine keepsOut_next ?_
    | (lift_lets; intro x; refine (fun (hx : Keeps am s₀ x) => ?_) ?_; clear_value x)
    | (intro x; subst x)
    | with_reducible refine State.linkRun_keeps ?_ ?_
    | with_reducible refine State.newWork_keeps ?_ ?_ ?_
    | with_reducible refine State.retSt_keeps ?_ ?_
    | with_reducible refine ite_keeps (fun _ => ?_) (fun _ => ?_)
    | with_reducible refine iteOut_keeps (fun _ => ?_) (fun _ => ?_)
    | with_reducible refine foldl_keeps (fun _ _ _ => ?_) ?_
    | with_reducible refine foldl_kfst (fun _ _ _ => ?_) ?_
    | with_reducible refine foldl_ksnd (fun _ _ _ => ?_) ?_
    | subst x
    | with_reducible split
    | dsimp only

theorem execQpop_keeps {am : Nat} {s₀ : State} {c : ClusterNo} {nb : Bool} {rd : Gpr} {rs1 : Gpr} {rs2 : Gpr} {s : State} (ha : Sub 117966386 am) (hs : Keeps am s₀ s) : KeepsOut am s₀ (execQpop c nb rd rs1 rs2 s) := by
  unfold execQpop
  repeat' first
    | with_reducible assumption
    | exact sub_of ha rfl
    | with_reducible refine keepsOut_next ?_
    | (lift_lets; intro x; refine (fun (hx : Keeps am s₀ x) => ?_) ?_; clear_value x)
    | (intro x; subst x)
    | with_reducible refine State.linkRun_keeps ?_ ?_
    | with_reducible refine State.retSt_keeps ?_ ?_
    | with_reducible refine ite_keeps (fun _ => ?_) (fun _ => ?_)
    | with_reducible refine iteOut_keeps (fun _ => ?_) (fun _ => ?_)
    | with_reducible refine foldl_keeps (fun _ _ _ => ?_) ?_
    | with_reducible refine foldl_kfst (fun _ _ _ => ?_) ?_
    | with_reducible refine foldl_ksnd (fun _ _ _ => ?_) ?_
    | subst x
    | with_reducible split
    | dsimp only

theorem execQdone_keeps {am : Nat} {s₀ : State} {c : ClusterNo} {rd : Gpr} {rs1 : Gpr} {s : State} (ha : Sub 16777744 am) (hs : Keeps am s₀ s) : KeepsOut am s₀ (execQdone c rd rs1 s) := by
  unfold execQdone
  repeat' first
    | with_reducible assumption
    | exact sub_of ha rfl
    | with_reducible refine keepsOut_next ?_
    | (lift_lets; intro x; refine (fun (hx : Keeps am s₀ x) => ?_) ?_; clear_value x)
    | (intro x; subst x)
    | with_reducible refine State.dropMarks_keeps ?_ ?_
    | with_reducible refine State.retSt_keeps ?_ ?_
    | with_reducible refine State.setInq_keeps ?_ ?_
    | with_reducible refine State.wrapFld_keeps ?_ ?_
    | with_reducible refine ite_keeps (fun _ => ?_) (fun _ => ?_)
    | with_reducible refine iteOut_keeps (fun _ => ?_) (fun _ => ?_)
    | with_reducible refine foldl_keeps (fun _ _ _ => ?_) ?_
    | with_reducible refine foldl_kfst (fun _ _ _ => ?_) ?_
    | with_reducible refine foldl_ksnd (fun _ _ _ => ?_) ?_
    | subst x
    | with_reducible split
    | dsimp only

theorem execVacq_keeps {am : Nat} {s₀ : State} {c : ClusterNo} {rd : Gpr} {rs1 : Gpr} {rs2 : Gpr} {s : State} (ha : Sub 263728 am) (hs : Keeps am s₀ s) : KeepsOut am s₀ (execVacq c rd rs1 rs2 s) := by
  unfold execVacq
  repeat' first
    | with_reducible assumption
    | exact sub_of ha rfl
    | with_reducible refine keepsOut_next ?_
    | (lift_lets; intro x; refine (fun (hx : Keeps am s₀ x) => ?_) ?_; clear_value x)
    | (intro x; subst x)
    | with_reducible refine State.newWork_keeps ?_ ?_ ?_
    | with_reducible refine State.retSt_keeps ?_ ?_
    | with_reducible refine State.setScratchWords_keeps ?_ ?_
    | with_reducible refine State.setVs_keeps ?_ ?_
    | with_reducible refine State.vtNote_keeps ?_ ?_
    | with_reducible refine ite_keeps (fun _ => ?_) (fun _ => ?_)
    | with_reducible refine iteOut_keeps (fun _ => ?_) (fun _ => ?_)
    | with_reducible refine foldl_keeps (fun _ _ _ => ?_) ?_
    | with_reducible refine foldl_kfst (fun _ _ _ => ?_) ?_
    | with_reducible refine foldl_ksnd (fun _ _ _ => ?_) ?_
    | subst x
    | with_reducible split
    | dsimp only

theorem execVrel_keeps {am : Nat} {s₀ : State} {c : ClusterNo} {rd : Gpr} {rs1 : Gpr} {rs2 : Gpr} {s : State} (ha : Sub 262704 am) (hs : Keeps am s₀ s) : KeepsOut am s₀ (execVrel c rd rs1 rs2 s) := by
  unfold execVrel
  repeat' first
    | with_reducible assumption
    | exact sub_of ha rfl
    | with_reducible refine keepsOut_next ?_
    | (lift_lets; intro x; refine (fun (hx : Keeps am s₀ x) => ?_) ?_; clear_value x)
    | (intro x; subst x)
    | with_reducible refine State.retSt_keeps ?_ ?_
    | with_reducible refine State.setErr_keeps ?_ ?_
    | with_reducible refine State.setVs_keeps ?_ ?_
    | with_reducible refine State.vtNote_keeps ?_ ?_
    | with_reducible refine ite_keeps (fun _ => ?_) (fun _ => ?_)
    | with_reducible refine iteOut_keeps (fun _ => ?_) (fun _ => ?_)
    | with_reducible refine foldl_keeps (fun _ _ _ => ?_) ?_
    | with_reducible refine foldl_kfst (fun _ _ _ => ?_) ?_
    | with_reducible refine foldl_ksnd (fun _ _ _ => ?_) ?_
    | subst x
    | with_reducible split
    | dsimp only

theorem State.setFlight_keeps {am : Nat} {s₀ : State} {s : State} {l : List Flight} (ha : Sub 16777216 am) (hs : Keeps am s₀ s) : Keeps am s₀ (State.setFlight s l) := by
  unfold State.setFlight
  repeat' first
    | with_reducible assumption
    | exact sub_of ha rfl
    | with_reducible refine keepsOut_next ?_
    | (lift_lets; intro x; refine (fun (hx : Keeps am s₀ x) => ?_) ?_; clear_value x)
    | (intro x; subst x)
    | with_reducible refine State.withStg_keeps ?_ ?_
    | with_reducible refine ite_keeps (fun _ => ?_) (fun _ => ?_)
    | with_reducible refine iteOut_keeps (fun _ => ?_) (fun _ => ?_)
    | with_reducible refine foldl_keeps (fun _ _ _ => ?_) ?_
    | with_reducible refine foldl_kfst (fun _ _ _ => ?_) ?_
    | with_reducible refine foldl_ksnd (fun _ _ _ => ?_) ?_
    | subst x
    | with_reducible split
    | dsimp only

theorem State.fbeg_keeps {am : Nat} {s₀ : State} {s : State} {ctx : Nat} {id : W32} (ha : Sub 16777216 am) (hs : Keeps am s₀ s) : Keeps am s₀ (State.fbeg s ctx id).2 := by
  unfold State.fbeg
  repeat' first
    | with_reducible assumption
    | exact sub_of ha rfl
    | with_reducible refine keepsOut_next ?_
    | (lift_lets; intro x; refine (fun (hx : Keeps am s₀ x) => ?_) ?_; clear_value x)
    | (intro x; subst x)
    | with_reducible refine State.setFlight_keeps ?_ ?_
    | with_reducible refine ite_keeps (fun _ => ?_) (fun _ => ?_)
    | with_reducible refine iteOut_keeps (fun _ => ?_) (fun _ => ?_)
    | with_reducible refine foldl_keeps (fun _ _ _ => ?_) ?_
    | with_reducible refine foldl_kfst (fun _ _ _ => ?_) ?_
    | with_reducible refine foldl_ksnd (fun _ _ _ => ?_) ?_
    | subst x
    | with_reducible split
    | dsimp only

theorem State.fbeg_keeps_eq {am : Nat} {s₀ : State} {s : State} {ctx : Nat} {id : W32} {rr} (ha : Sub 16777216 am) (he : State.fbeg s ctx id = rr) (hs : Keeps am s₀ s) : Keeps am s₀ rr.2 := he ▸ State.fbeg_keeps ha hs

theorem State.fend_keeps {am : Nat} {s₀ : State} {s : State} {ctx : Nat} {id : W32} (ha : Sub 16777216 am) (hs : Keeps am s₀ s) : Keeps am s₀ (State.fend s ctx id).2 := by
  unfold State.fend
  repeat' first
    | with_reducible assumption
    | exact sub_of ha rfl
    | with_reducible refine keepsOut_next ?_
    | (lift_lets; intro x; refine (fun (hx : Keeps am s₀ x) => ?_) ?_; clear_value x)
    | (intro x; subst x)
    | with_reducible refine State.setFlight_keeps ?_ ?_
    | with_reducible refine ite_keeps (fun _ => ?_) (fun _ => ?_)
    | with_reducible refine iteOut_keeps (fun _ => ?_) (fun _ => ?_)
    | with_reducible refine foldl_keeps (fun _ _ _ => ?_) ?_
    | with_reducible refine foldl_kfst (fun _ _ _ => ?_) ?_
    | with_reducible refine foldl_ksnd (fun _ _ _ => ?_) ?_
    | subst x
    | with_reducible split
    | dsimp only

theorem State.fend_keeps_eq {am : Nat} {s₀ : State} {s : State} {ctx : Nat} {id : W32} {rr} (ha : Sub 16777216 am) (he : State.fend s ctx id = rr) (hs : Keeps am s₀ s) : Keeps am s₀ rr.2 := he ▸ State.fend_keeps ha hs

theorem execFbeg_keeps {am : Nat} {s₀ : State} {c : ClusterNo} {rd : Gpr} {rs1 : Gpr} {s : State} (ha : Sub 16777728 am) (hs : Keeps am s₀ s) : KeepsOut am s₀ (execFbeg c rd rs1 s) := by
  unfold execFbeg
  repeat' first
    | with_reducible assumption
    | exact sub_of ha rfl
    | with_reducible refine keepsOut_next ?_
    | (lift_lets; intro x; refine (fun (hx : Keeps am s₀ x) => ?_) ?_; clear_value x)
    | (intro x; subst x)
    | with_reducible refine State.fbeg_keeps ?_ ?_
    | with_reducible refine State.newWork_keeps ?_ ?_ ?_
    | with_reducible refine State.retSt_keeps ?_ ?_
    | with_reducible refine State.fbeg_keeps_eq ?_ (by with_reducible assumption) ?_
    | with_reducible refine ite_keeps (fun _ => ?_) (fun _ => ?_)
    | with_reducible refine iteOut_keeps (fun _ => ?_) (fun _ => ?_)
    | with_reducible refine foldl_keeps (fun _ _ _ => ?_) ?_
    | with_reducible refine foldl_kfst (fun _ _ _ => ?_) ?_
    | with_reducible refine foldl_ksnd (fun _ _ _ => ?_) ?_
    | subst x
    | with_reducible split
    | dsimp only

theorem execFend_keeps {am : Nat} {s₀ : State} {c : ClusterNo} {rd : Gpr} {rs1 : Gpr} {s : State} (ha : Sub 16777728 am) (hs : Keeps am s₀ s) : KeepsOut am s₀ (execFend c rd rs1 s) := by
  unfold execFend
  repeat' first
    | with_reducible assumption
    | exact sub_of ha rfl
    | with_reducible refine keepsOut_next ?_
    | (lift_lets; intro x; refine (fun (hx : Keeps am s₀ x) => ?_) ?_; clear_value x)
    | (intro x; subst x)
    | with_reducible refine State.fend_keeps ?_ ?_
    | with_reducible refine State.retSt_keeps ?_ ?_
    | with_reducible refine State.fend_keeps_eq ?_ (by with_reducible assumption) ?_
    | with_reducible refine ite_keeps (fun _ => ?_) (fun _ => ?_)
    | with_reducible refine iteOut_keeps (fun _ => ?_) (fun _ => ?_)
    | with_reducible refine foldl_keeps (fun _ _ _ => ?_) ?_
    | with_reducible refine foldl_kfst (fun _ _ _ => ?_) ?_
    | with_reducible refine foldl_ksnd (fun _ _ _ => ?_) ?_
    | subst x
    | with_reducible split
    | dsimp only

theorem execSlOpenRecv_keeps {am : Nat} {s₀ : State} {m : SlOpen} {s : State} (ha : Sub 83886096 am) (hs : Keeps am s₀ s) : KeepsOut am s₀ (execSlOpenRecv m s) := by
  unfold execSlOpenRecv
  repeat' first
    | with_reducible assumption
    | exact sub_of ha rfl
    | with_reducible refine keepsOut_next ?_
    | (lift_lets; intro x; refine (fun (hx : Keeps am s₀ x) => ?_) ?_; clear_value x)
    | (intro x; subst x)
    | with_reducible refine State.reply_keeps ?_ ?_
    | with_reducible refine State.setFld_keeps ?_ ?_
    | with_reducible refine State.setInq_keeps ?_ ?_
    | with_reducible refine State.setReg_keeps ?_ ?_
    | with_reducible refine State.slSend_keeps ?_ ?_
    | with_reducible refine ite_keeps (fun _ => ?_) (fun _ => ?_)
    | with_reducible refine iteOut_keeps (fun _ => ?_) (fun _ => ?_)
    | with_reducible refine foldl_keeps (fun _ _ _ => ?_) ?_
    | with_reducible refine foldl_kfst (fun _ _ _ => ?_) ?_
    | with_reducible refine foldl_ksnd (fun _ _ _ => ?_) ?_
    | subst x
    | with_reducible split
    | dsimp only

theorem execSlAcceptRecv_keeps {am : Nat} {s₀ : State} {ol : Byte} {s : State} (ha : Sub 16777232 am) (hs : Keeps am s₀ s) : KeepsOut am s₀ (execSlAcceptRecv ol s) := by
  unfold execSlAcceptRecv
  repeat' first
    | with_reducible assumption
    | exact sub_of ha rfl
    | with_reducible refine keepsOut_next ?_
    | (lift_lets; intro x; refine (fun (hx : Keeps am s₀ x) => ?_) ?_; clear_value x)
    | (intro x; subst x)
    | with_reducible refine State.setFld_keeps ?_ ?_
    | with_reducible refine State.setOutq_keeps ?_ ?_
    | with_reducible refine State.setReg_keeps ?_ ?_
    | with_reducible refine ite_keeps (fun _ => ?_) (fun _ => ?_)
    | with_reducible refine iteOut_keeps (fun _ => ?_) (fun _ => ?_)
    | with_reducible refine foldl_keeps (fun _ _ _ => ?_) ?_
    | with_reducible refine foldl_kfst (fun _ _ _ => ?_) ?_
    | with_reducible refine foldl_ksnd (fun _ _ _ => ?_) ?_
    | subst x
    | with_reducible split
    | dsimp only

theorem execSlRefuseRecv_keeps {am : Nat} {s₀ : State} {ol : Byte} {s : State} (ha : Sub 48 am) (hs : Keeps am s₀ s) : KeepsOut am s₀ (execSlRefuseRecv ol s) := by
  unfold execSlRefuseRecv
  repeat' first
    | with_reducible assumption
    | exact sub_of ha rfl
    | with_reducible refine keepsOut_next ?_
    | (lift_lets; intro x; refine (fun (hx : Keeps am s₀ x) => ?_) ?_; clear_value x)
    | (intro x; subst x)
    | with_reducible refine State.setErr_keeps ?_ ?_
    | with_reducible refine State.setFld_keeps ?_ ?_
    | with_reducible refine ite_keeps (fun _ => ?_) (fun _ => ?_)
    | with_reducible refine iteOut_keeps (fun _ => ?_) (fun _ => ?_)
    | with_reducible refine foldl_keeps (fun _ _ _ => ?_) ?_
    | with_reducible refine foldl_kfst (fun _ _ _ => ?_) ?_
    | with_reducible refine foldl_ksnd (fun _ _ _ => ?_) ?_
    | subst x
    | with_reducible split
    | dsimp only

theorem execSlConsumedSend_keeps {am : Nat} {s₀ : State} {qn : Byte} {s : State} (ha : Sub 16777216 am) (hs : Keeps am s₀ s) : KeepsOut am s₀ (execSlConsumedSend qn s) := by
  unfold execSlConsumedSend
  repeat' first
    | with_reducible assumption
    | exact sub_of ha rfl
    | with_reducible refine keepsOut_next ?_
    | (lift_lets; intro x; refine (fun (hx : Keeps am s₀ x) => ?_) ?_; clear_value x)
    | (intro x; subst x)
    | with_reducible refine State.slSend_keeps ?_ ?_
    | with_reducible refine ite_keeps (fun _ => ?_) (fun _ => ?_)
    | with_reducible refine iteOut_keeps (fun _ => ?_) (fun _ => ?_)
    | with_reducible refine foldl_keeps (fun _ _ _ => ?_) ?_
    | with_reducible refine foldl_kfst (fun _ _ _ => ?_) ?_
    | with_reducible refine foldl_ksnd (fun _ _ _ => ?_) ?_
    | subst x
    | with_reducible split
    | dsimp only

theorem execSlCreditRecv_keeps {am : Nat} {s₀ : State} {ol : Byte} {consumed : W32} {s : State} (ha : Sub 117966386 am) (hs : Keeps am s₀ s) : KeepsOut am s₀ (execSlCreditRecv ol consumed s) := by
  unfold execSlCreditRecv
  repeat' first
    | with_reducible assumption
    | exact sub_of ha rfl
    | with_reducible refine keepsOut_next ?_
    | (lift_lets; intro x; refine (fun (hx : Keeps am s₀ x) => ?_) ?_; clear_value x)
    | (intro x; subst x)
    | with_reducible refine State.setFld_keeps ?_ ?_
    | with_reducible refine State.wakeLinks_keeps ?_ ?_
    | with_reducible refine ite_keeps (fun _ => ?_) (fun _ => ?_)
    | with_reducible refine iteOut_keeps (fun _ => ?_) (fun _ => ?_)
    | with_reducible refine foldl_keeps (fun _ _ _ => ?_) ?_
    | with_reducible refine foldl_kfst (fun _ _ _ => ?_) ?_
    | with_reducible refine foldl_ksnd (fun _ _ _ => ?_) ?_
    | subst x
    | with_reducible split
    | dsimp only

theorem State.slOpen_keeps {am : Nat} {s₀ : State} {s : State} {ol : Nat} (ha : Sub 16777216 am) (hs : Keeps am s₀ s) : Keeps am s₀ (State.slOpen s ol) := by
  unfold State.slOpen
  repeat' first
    | with_reducible assumption
    | exact sub_of ha rfl
    | with_reducible refine keepsOut_next ?_
    | (lift_lets; intro x; refine (fun (hx : Keeps am s₀ x) => ?_) ?_; clear_value x)
    | (intro x; subst x)
    | with_reducible refine State.slSend_keeps ?_ ?_
    | with_reducible refine ite_keeps (fun _ => ?_) (fun _ => ?_)
    | with_reducible refine iteOut_keeps (fun _ => ?_) (fun _ => ?_)
    | with_reducible refine foldl_keeps (fun _ _ _ => ?_) ?_
    | with_reducible refine foldl_kfst (fun _ _ _ => ?_) ?_
    | with_reducible refine foldl_ksnd (fun _ _ _ => ?_) ?_
    | subst x
    | with_reducible split
    | dsimp only

theorem execSlqIncfgWrite_keeps {am : Nat} {s₀ : State} {d : Die} {q : Fin 64} {data : W64} {s : State} (ha : Sub 117966386 am) (hs : Keeps am s₀ s) : KeepsOut am s₀ (execSlqIncfgWrite d q data s) := by
  unfold execSlqIncfgWrite
  repeat' first
    | with_reducible assumption
    | exact sub_of ha rfl
    | with_reducible refine keepsOut_next ?_
    | (lift_lets; intro x; refine (fun (hx : Keeps am s₀ x) => ?_) ?_; clear_value x)
    | (intro x; subst x)
    | with_reducible refine State.plainWrite_keeps ?_ ?_
    | with_reducible refine State.setBitF_keeps ?_ ?_
    | with_reducible refine State.setErr_keeps ?_ ?_
    | with_reducible refine State.setFld_keeps ?_ ?_
    | with_reducible refine State.setInq_keeps ?_ ?_
    | with_reducible refine State.wakeLinks_keeps ?_ ?_
    | with_reducible refine ite_keeps (fun _ => ?_) (fun _ => ?_)
    | with_reducible refine iteOut_keeps (fun _ => ?_) (fun _ => ?_)
    | with_reducible refine foldl_keeps (fun _ _ _ => ?_) ?_
    | with_reducible refine foldl_kfst (fun _ _ _ => ?_) ?_
    | with_reducible refine foldl_ksnd (fun _ _ _ => ?_) ?_
    | subst x
    | with_reducible split
    | dsimp only

theorem execSlqOutcfgWrite_keeps {am : Nat} {s₀ : State} {d : Die} {j : Fin 64} {data : W64} {s : State} (ha : Sub 117966386 am) (hs : Keeps am s₀ s) : KeepsOut am s₀ (execSlqOutcfgWrite d j data s) := by
  unfold execSlqOutcfgWrite
  repeat' first
    | with_reducible assumption
    | exact sub_of ha rfl
    | with_reducible refine keepsOut_next ?_
    | (lift_lets; intro x; refine (fun (hx : Keeps am s₀ x) => ?_) ?_; clear_value x)
    | (intro x; subst x)
    | with_reducible refine State.plainWrite_keeps ?_ ?_
    | with_reducible refine State.setFld_keeps ?_ ?_
    | with_reducible refine State.setOutq_keeps ?_ ?_
    | with_reducible refine State.slOpen_keeps ?_ ?_
    | with_reducible refine State.wakeLinks_keeps ?_ ?_
    | with_reducible refine ite_keeps (fun _ => ?_) (fun _ => ?_)
    | with_reducible refine iteOut_keeps (fun _ => ?_) (fun _ => ?_)
    | with_reducible refine foldl_keeps (fun _ _ _ => ?_) ?_
    | with_reducible refine foldl_kfst (fun _ _ _ => ?_) ?_
    | with_reducible refine foldl_ksnd (fun _ _ _ => ?_) ?_
    | subst x
    | with_reducible split
    | dsimp only

theorem execStgStageWrite_keeps {am : Nat} {s₀ : State} {i : Fin 16} {data : W64} {s : State} (ha : Sub 117966386 am) (hs : Keeps am s₀ s) : KeepsOut am s₀ (execStgStageWrite i data s) := by
  unfold execStgStageWrite
  repeat' first
    | with_reducible assumption
    | exact sub_of ha rfl
    | with_reducible refine keepsOut_next ?_
    | (lift_lets; intro x; refine (fun (hx : Keeps am s₀ x) => ?_) ?_; clear_value x)
    | (intro x; subst x)
    | with_reducible refine State.lockedWrite_keeps ?_ ?_
    | with_reducible refine State.plainWrite_keeps ?_ ?_
    | with_reducible refine State.setBitF_keeps ?_ ?_
    | with_reducible refine State.setErr_keeps ?_ ?_
    | with_reducible refine State.stopStage_keeps ?_ ?_
    | with_reducible refine State.wakeLinks_keeps ?_ ?_
    | with_reducible refine ite_keeps (fun _ => ?_) (fun _ => ?_)
    | with_reducible refine iteOut_keeps (fun _ => ?_) (fun _ => ?_)
    | with_reducible refine foldl_keeps (fun _ _ _ => ?_) ?_
    | with_reducible refine foldl_kfst (fun _ _ _ => ?_) ?_
    | with_reducible refine foldl_ksnd (fun _ _ _ => ?_) ?_
    | subst x
    | with_reducible split
    | dsimp only

theorem State.vcmdStart_keeps {am : Nat} {s₀ : State} {s : State} {op : Nat} {vte : Nat} (ha : Sub 16777264 am) (hs : Keeps am s₀ s) : Keeps am s₀ (State.vcmdStart s op vte) := by
  unfold State.vcmdStart
  repeat' first
    | with_reducible assumption
    | exact sub_of ha rfl
    | with_reducible refine keepsOut_next ?_
    | (lift_lets; intro x; refine (fun (hx : Keeps am s₀ x) => ?_) ?_; clear_value x)
    | (intro x; subst x)
    | with_reducible refine State.setErr_keeps ?_ ?_
    | with_reducible refine State.setReg_keeps ?_ ?_
    | with_reducible refine State.withStg_keeps ?_ ?_
    | with_reducible refine ite_keeps (fun _ => ?_) (fun _ => ?_)
    | with_reducible refine iteOut_keeps (fun _ => ?_) (fun _ => ?_)
    | with_reducible refine foldl_keeps (fun _ _ _ => ?_) ?_
    | with_reducible refine foldl_kfst (fun _ _ _ => ?_) ?_
    | with_reducible refine foldl_ksnd (fun _ _ _ => ?_) ?_
    | subst x
    | with_reducible split
    | dsimp only

theorem execVcmdActivate_keeps {am : Nat} {s₀ : State} {vte : W16} {s : State} (ha : Sub 16777264 am) (hs : Keeps am s₀ s) : KeepsOut am s₀ (execVcmdActivate vte s) := by
  unfold execVcmdActivate
  repeat' first
    | with_reducible assumption
    | exact sub_of ha rfl
    | with_reducible refine keepsOut_next ?_
    | (lift_lets; intro x; refine (fun (hx : Keeps am s₀ x) => ?_) ?_; clear_value x)
    | (intro x; subst x)
    | with_reducible refine State.vcmdStart_keeps ?_ ?_
    | with_reducible refine ite_keeps (fun _ => ?_) (fun _ => ?_)
    | with_reducible refine iteOut_keeps (fun _ => ?_) (fun _ => ?_)
    | with_reducible refine foldl_keeps (fun _ _ _ => ?_) ?_
    | with_reducible refine foldl_kfst (fun _ _ _ => ?_) ?_
    | with_reducible refine foldl_ksnd (fun _ _ _ => ?_) ?_
    | subst x
    | with_reducible split
    | dsimp only

theorem execVcmdRetire_keeps {am : Nat} {s₀ : State} {vte : W16} {s : State} (ha : Sub 16777264 am) (hs : Keeps am s₀ s) : KeepsOut am s₀ (execVcmdRetire vte s) := by
  unfold execVcmdRetire
  repeat' first
    | with_reducible assumption
    | exact sub_of ha rfl
    | with_reducible refine keepsOut_next ?_
    | (lift_lets; intro x; refine (fun (hx : Keeps am s₀ x) => ?_) ?_; clear_value x)
    | (intro x; subst x)
    | with_reducible refine State.vcmdStart_keeps ?_ ?_
    | with_reducible refine ite_keeps (fun _ => ?_) (fun _ => ?_)
    | with_reducible refine iteOut_keeps (fun _ => ?_) (fun _ => ?_)
    | with_reducible refine foldl_keeps (fun _ _ _ => ?_) ?_
    | with_reducible refine foldl_kfst (fun _ _ _ => ?_) ?_
    | with_reducible refine foldl_ksnd (fun _ _ _ => ?_) ?_
    | subst x
    | with_reducible split
    | dsimp only

theorem execVcmdDone_keeps {am : Nat} {s₀ : State} {s : State} (ha : Sub 17039408 am) (hs : Keeps am s₀ s) : KeepsOut am s₀ (execVcmdDone s) := by
  unfold execVcmdDone
  repeat' first
    | with_reducible assumption
    | exact sub_of ha rfl
    | with_reducible refine keepsOut_next ?_
    | (lift_lets; intro x; refine (fun (hx : Keeps am s₀ x) => ?_) ?_; clear_value x)
    | (intro x; subst x)
    | with_reducible refine State.setReg_keeps ?_ ?_
    | with_reducible refine State.setVt_keeps ?_ ?_
    | with_reducible refine State.storeWords_keeps ?_ ?_
    | with_reducible refine State.vtNote_keeps ?_ ?_
    | with_reducible refine State.withStg_keeps ?_ ?_
    | with_reducible refine ite_keeps (fun _ => ?_) (fun _ => ?_)
    | with_reducible refine iteOut_keeps (fun _ => ?_) (fun _ => ?_)
    | with_reducible refine foldl_keeps (fun _ _ _ => ?_) ?_
    | with_reducible refine foldl_kfst (fun _ _ _ => ?_) ?_
    | with_reducible refine foldl_ksnd (fun _ _ _ => ?_) ?_
    | subst x
    | with_reducible split
    | dsimp only

theorem execStgTclr_keeps {am : Nat} {s₀ : State} {ctx : Byte} {s : State} (ha : Sub 16777216 am) (hs : Keeps am s₀ s) : KeepsOut am s₀ (execStgTclr ctx s) := by
  unfold execStgTclr
  repeat' first
    | with_reducible assumption
    | exact sub_of ha rfl
    | with_reducible refine keepsOut_next ?_
    | (lift_lets; intro x; refine (fun (hx : Keeps am s₀ x) => ?_) ?_; clear_value x)
    | (intro x; subst x)
    | with_reducible refine State.withStg_keeps ?_ ?_
    | with_reducible refine ite_keeps (fun _ => ?_) (fun _ => ?_)
    | with_reducible refine iteOut_keeps (fun _ => ?_) (fun _ => ?_)
    | with_reducible refine foldl_keeps (fun _ _ _ => ?_) ?_
    | with_reducible refine foldl_kfst (fun _ _ _ => ?_) ?_
    | with_reducible refine foldl_ksnd (fun _ _ _ => ?_) ?_
    | subst x
    | with_reducible split
    | dsimp only

theorem State.mapGroup_keeps {am : Nat} {s₀ : State} {s : State} {d : Nat} {gid : Nat} {f : Group → Group} (ha : Sub 134217728 am) (hs : Keeps am s₀ s) : Keeps am s₀ (State.mapGroup s d gid f) := by
  unfold State.mapGroup
  repeat' first
    | with_reducible assumption
    | exact sub_of ha rfl
    | with_reducible refine keepsOut_next ?_
    | (lift_lets; intro x; refine (fun (hx : Keeps am s₀ x) => ?_) ?_; clear_value x)
    | (intro x; subst x)
    | with_reducible refine State.withCr_keeps ?_ ?_
    | with_reducible refine ite_keeps (fun _ => ?_) (fun _ => ?_)
    | with_reducible refine iteOut_keeps (fun _ => ?_) (fun _ => ?_)
    | with_reducible refine foldl_keeps (fun _ _ _ => ?_) ?_
    | with_reducible refine foldl_kfst (fun _ _ _ => ?_) ?_
    | with_reducible refine foldl_ksnd (fun _ _ _ => ?_) ?_
    | subst x
    | with_reducible split
    | dsimp only

theorem State.setStreamCount_keeps {am : Nat} {s₀ : State} {s : State} {g : Group} {rank : Nat} {k : Nat} {v : Nat} (ha : Sub 262160 am) (hs : Keeps am s₀ s) : Keeps am s₀ (State.setStreamCount s g rank k v) := by
  unfold State.setStreamCount
  repeat' first
    | with_reducible assumption
    | exact sub_of ha rfl
    | with_reducible refine keepsOut_next ?_
    | (lift_lets; intro x; refine (fun (hx : Keeps am s₀ x) => ?_) ?_; clear_value x)
    | (intro x; subst x)
    | with_reducible refine State.storeNat_keeps ?_ ?_
    | with_reducible refine ite_keeps (fun _ => ?_) (fun _ => ?_)
    | with_reducible refine iteOut_keeps (fun _ => ?_) (fun _ => ?_)
    | with_reducible refine foldl_keeps (fun _ _ _ => ?_) ?_
    | with_reducible refine foldl_kfst (fun _ _ _ => ?_) ?_
    | with_reducible refine foldl_ksnd (fun _ _ _ => ?_) ?_
    | subst x
    | with_reducible split
    | dsimp only

theorem State.collRecord_keeps {am : Nat} {s₀ : State} {s : State} {d : Nat} {ctx : Nat} {ws : List W64} {st : Nat} (ha : Sub 786448 am) (hs : Keeps am s₀ s) : Keeps am s₀ (State.collRecord s d ctx ws st) := by
  unfold State.collRecord
  repeat' first
    | with_reducible assumption
    | exact sub_of ha rfl
    | with_reducible refine keepsOut_next ?_
    | (lift_lets; intro x; refine (fun (hx : Keeps am s₀ x) => ?_) ?_; clear_value x)
    | (intro x; subst x)
    | with_reducible refine State.portRecord_keeps ?_ ?_
    | with_reducible refine ite_keeps (fun _ => ?_) (fun _ => ?_)
    | with_reducible refine iteOut_keeps (fun _ => ?_) (fun _ => ?_)
    | with_reducible refine foldl_keeps (fun _ _ _ => ?_) ?_
    | with_reducible refine foldl_kfst (fun _ _ _ => ?_) ?_
    | with_reducible refine foldl_ksnd (fun _ _ _ => ?_) ?_
    | subst x
    | with_reducible split
    | dsimp only

theorem State.openGroup_keeps {am : Nat} {s₀ : State} {s : State} {d : Nat} {ctx : Nat} {ws : List W64} (ha : Sub 134479920 am) (hs : Keeps am s₀ s) : Keeps am s₀ (State.openGroup s d ctx ws).2 := by
  unfold State.openGroup
  repeat' first
    | with_reducible assumption
    | exact sub_of ha rfl
    | with_reducible refine keepsOut_next ?_
    | (lift_lets; intro x; refine (fun (hx : Keeps am s₀ x) => ?_) ?_; clear_value x)
    | (intro x; subst x)
    | with_reducible refine State.setErr_keeps ?_ ?_
    | with_reducible refine State.storeNat_keeps ?_ ?_
    | with_reducible refine State.withCr_keeps ?_ ?_
    | with_reducible refine ite_keeps (fun _ => ?_) (fun _ => ?_)
    | with_reducible refine iteOut_keeps (fun _ => ?_) (fun _ => ?_)
    | with_reducible refine foldl_keeps (fun _ _ _ => ?_) ?_
    | with_reducible refine foldl_kfst (fun _ _ _ => ?_) ?_
    | with_reducible refine foldl_ksnd (fun _ _ _ => ?_) ?_
    | subst x
    | with_reducible split
    | dsimp only

theorem State.openGroup_keeps_eq {am : Nat} {s₀ : State} {s : State} {d : Nat} {ctx : Nat} {ws : List W64} {rr} (ha : Sub 134479920 am) (he : State.openGroup s d ctx ws = rr) (hs : Keeps am s₀ s) : Keeps am s₀ rr.2 := he ▸ State.openGroup_keeps ha hs

theorem State.collLookup_keeps {am : Nat} {s₀ : State} {s : State} {k : Coll} (ha : Sub 48 am) (hs : Keeps am s₀ s) : Keeps am s₀ (State.collLookup s k).2 := by
  unfold State.collLookup
  repeat' first
    | with_reducible assumption
    | exact sub_of ha rfl
    | with_reducible refine keepsOut_next ?_
    | (lift_lets; intro x; refine (fun (hx : Keeps am s₀ x) => ?_) ?_; clear_value x)
    | (intro x; subst x)
    | with_reducible refine State.lookup_keeps ?_ ?_
    | with_reducible refine State.lookup_keeps_eq ?_ (by with_reducible assumption) ?_
    | with_reducible refine ite_keeps (fun _ => ?_) (fun _ => ?_)
    | with_reducible refine iteOut_keeps (fun _ => ?_) (fun _ => ?_)
    | with_reducible refine foldl_keeps (fun _ _ _ => ?_) ?_
    | with_reducible refine foldl_kfst (fun _ _ _ => ?_) ?_
    | with_reducible refine foldl_ksnd (fun _ _ _ => ?_) ?_
    | subst x
    | with_reducible split
    | dsimp only

theorem State.collLookup_keeps_eq {am : Nat} {s₀ : State} {s : State} {k : Coll} {rr} (ha : Sub 48 am) (he : State.collLookup s k = rr) (hs : Keeps am s₀ s) : Keeps am s₀ rr.2 := he ▸ State.collLookup_keeps ha hs

theorem State.closeDue_keeps {am : Nat} {s₀ : State} {s : State} {d : Nat} (ha : Sub 135004176 am) (hs : Keeps am s₀ s) : Keeps am s₀ (State.closeDue s d) := by
  unfold State.closeDue
  repeat' first
    | with_reducible assumption
    | exact sub_of ha rfl
    | with_reducible refine keepsOut_next ?_
    | (lift_lets; intro x; refine (fun (hx : Keeps am s₀ x) => ?_) ?_; clear_value x)
    | (intro x; subst x)
    | with_reducible refine State.dropGroups_keeps ?_ ?_
    | with_reducible refine State.endColl_keeps ?_ ?_
    | with_reducible refine ite_keeps (fun _ => ?_) (fun _ => ?_)
    | with_reducible refine iteOut_keeps (fun _ => ?_) (fun _ => ?_)
    | with_reducible refine foldl_keeps (fun _ _ _ => ?_) ?_
    | with_reducible refine foldl_kfst (fun _ _ _ => ?_) ?_
    | with_reducible refine foldl_ksnd (fun _ _ _ => ?_) ?_
    | subst x
    | with_reducible split
    | dsimp only

theorem State.rcoll_keeps {am : Nat} {s₀ : State} {s : State} {c : Nat} {rd : Nat} {rs2 : Nat} (ha : Sub 135004720 am) (hs : Keeps am s₀ s) : Keeps am s₀ (State.rcoll s c rd rs2) := by
  unfold State.rcoll
  repeat' first
    | with_reducible assumption
    | exact sub_of ha rfl
    | with_reducible refine keepsOut_next ?_
    | (lift_lets; intro x; refine (fun (hx : Keeps am s₀ x) => ?_) ?_; clear_value x)
    | (intro x; subst x)
    | with_reducible refine State.closeDue_keeps ?_ ?_
    | with_reducible refine State.collLookup_keeps ?_ ?_
    | with_reducible refine State.collRecord_keeps ?_ ?_
    | with_reducible refine State.illegal_keeps ?_ ?_
    | with_reducible refine State.newWork_keeps ?_ ?_ ?_
    | with_reducible refine State.openGroup_keeps ?_ ?_
    | with_reducible refine State.retSt_keeps ?_ ?_
    | with_reducible refine State.withCr_keeps ?_ ?_
    | with_reducible refine State.collLookup_keeps_eq ?_ (by with_reducible assumption) ?_
    | with_reducible refine State.openGroup_keeps_eq ?_ (by with_reducible assumption) ?_
    | with_reducible refine ite_keeps (fun _ => ?_) (fun _ => ?_)
    | with_reducible refine iteOut_keeps (fun _ => ?_) (fun _ => ?_)
    | with_reducible refine foldl_keeps (fun _ _ _ => ?_) ?_
    | with_reducible refine foldl_kfst (fun _ _ _ => ?_) ?_
    | with_reducible refine foldl_ksnd (fun _ _ _ => ?_) ?_
    | subst x
    | with_reducible split
    | dsimp only

theorem execCollOpen_keeps {am : Nat} {s₀ : State} {c : CoreNo} {rd : Gpr} {rs2 : Gpr} {s : State} (ha : Sub 135004720 am) (hs : Keeps am s₀ s) : KeepsOut am s₀ (execCollOpen c rd rs2 s) := by
  unfold execCollOpen
  repeat' first
    | with_reducible assumption
    | exact sub_of ha rfl
    | with_reducible refine keepsOut_next ?_
    | (lift_lets; intro x; refine (fun (hx : Keeps am s₀ x) => ?_) ?_; clear_value x)
    | (intro x; subst x)
    | with_reducible refine State.rcoll_keeps ?_ ?_
    | with_reducible refine ite_keeps (fun _ => ?_) (fun _ => ?_)
    | with_reducible refine iteOut_keeps (fun _ => ?_) (fun _ => ?_)
    | with_reducible refine foldl_keeps (fun _ _ _ => ?_) ?_
    | with_reducible refine foldl_kfst (fun _ _ _ => ?_) ?_
    | with_reducible refine foldl_ksnd (fun _ _ _ => ?_) ?_
    | subst x
    | with_reducible split
    | dsimp only

theorem execCollClose_keeps {am : Nat} {s₀ : State} {c : CoreNo} {rd : Gpr} {rs2 : Gpr} {s : State} (ha : Sub 135004720 am) (hs : Keeps am s₀ s) : KeepsOut am s₀ (execCollClose c rd rs2 s) := by
  unfold execCollClose
  repeat' first
    | with_reducible assumption
    | exact sub_of ha rfl
    | with_reducible refine keepsOut_next ?_
    | (lift_lets; intro x; refine (fun (hx : Keeps am s₀ x) => ?_) ?_; clear_value x)
    | (intro x; subst x)
    | with_reducible refine State.rcoll_keeps ?_ ?_
    | with_reducible refine ite_keeps (fun _ => ?_) (fun _ => ?_)
    | with_reducible refine iteOut_keeps (fun _ => ?_) (fun _ => ?_)
    | with_reducible refine foldl_keeps (fun _ _ _ => ?_) ?_
    | with_reducible refine foldl_kfst (fun _ _ _ => ?_) ?_
    | with_reducible refine foldl_ksnd (fun _ _ _ => ?_) ?_
    | subst x
    | with_reducible split
    | dsimp only

theorem execAllreduce_keeps {am : Nat} {s₀ : State} {c : CoreNo} {rd : Gpr} {rs2 : Gpr} {s : State} (ha : Sub 135004720 am) (hs : Keeps am s₀ s) : KeepsOut am s₀ (execAllreduce c rd rs2 s) := by
  unfold execAllreduce
  repeat' first
    | with_reducible assumption
    | exact sub_of ha rfl
    | with_reducible refine keepsOut_next ?_
    | (lift_lets; intro x; refine (fun (hx : Keeps am s₀ x) => ?_) ?_; clear_value x)
    | (intro x; subst x)
    | with_reducible refine State.rcoll_keeps ?_ ?_
    | with_reducible refine ite_keeps (fun _ => ?_) (fun _ => ?_)
    | with_reducible refine iteOut_keeps (fun _ => ?_) (fun _ => ?_)
    | with_reducible refine foldl_keeps (fun _ _ _ => ?_) ?_
    | with_reducible refine foldl_kfst (fun _ _ _ => ?_) ?_
    | with_reducible refine foldl_ksnd (fun _ _ _ => ?_) ?_
    | subst x
    | with_reducible split
    | dsimp only

theorem execReduceScatter_keeps {am : Nat} {s₀ : State} {c : CoreNo} {rd : Gpr} {rs2 : Gpr} {s : State} (ha : Sub 135004720 am) (hs : Keeps am s₀ s) : KeepsOut am s₀ (execReduceScatter c rd rs2 s) := by
  unfold execReduceScatter
  repeat' first
    | with_reducible assumption
    | exact sub_of ha rfl
    | with_reducible refine keepsOut_next ?_
    | (lift_lets; intro x; refine (fun (hx : Keeps am s₀ x) => ?_) ?_; clear_value x)
    | (intro x; subst x)
    | with_reducible refine State.rcoll_keeps ?_ ?_
    | with_reducible refine ite_keeps (fun _ => ?_) (fun _ => ?_)
    | with_reducible refine iteOut_keeps (fun _ => ?_) (fun _ => ?_)
    | with_reducible refine foldl_keeps (fun _ _ _ => ?_) ?_
    | with_reducible refine foldl_kfst (fun _ _ _ => ?_) ?_
    | with_reducible refine foldl_ksnd (fun _ _ _ => ?_) ?_
    | subst x
    | with_reducible split
    | dsimp only

theorem execAllgather_keeps {am : Nat} {s₀ : State} {c : CoreNo} {rd : Gpr} {rs2 : Gpr} {s : State} (ha : Sub 135004720 am) (hs : Keeps am s₀ s) : KeepsOut am s₀ (execAllgather c rd rs2 s) := by
  unfold execAllgather
  repeat' first
    | with_reducible assumption
    | exact sub_of ha rfl
    | with_reducible refine keepsOut_next ?_
    | (lift_lets; intro x; refine (fun (hx : Keeps am s₀ x) => ?_) ?_; clear_value x)
    | (intro x; subst x)
    | with_reducible refine State.rcoll_keeps ?_ ?_
    | with_reducible refine ite_keeps (fun _ => ?_) (fun _ => ?_)
    | with_reducible refine iteOut_keeps (fun _ => ?_) (fun _ => ?_)
    | with_reducible refine foldl_keeps (fun _ _ _ => ?_) ?_
    | with_reducible refine foldl_kfst (fun _ _ _ => ?_) ?_
    | with_reducible refine foldl_ksnd (fun _ _ _ => ?_) ?_
    | subst x
    | with_reducible split
    | dsimp only

theorem execBroadcast_keeps {am : Nat} {s₀ : State} {c : CoreNo} {rd : Gpr} {rs2 : Gpr} {s : State} (ha : Sub 135004720 am) (hs : Keeps am s₀ s) : KeepsOut am s₀ (execBroadcast c rd rs2 s) := by
  unfold execBroadcast
  repeat' first
    | with_reducible assumption
    | exact sub_of ha rfl
    | with_reducible refine keepsOut_next ?_
    | (lift_lets; intro x; refine (fun (hx : Keeps am s₀ x) => ?_) ?_; clear_value x)
    | (intro x; subst x)
    | with_reducible refine State.rcoll_keeps ?_ ?_
    | with_reducible refine ite_keeps (fun _ => ?_) (fun _ => ?_)
    | with_reducible refine iteOut_keeps (fun _ => ?_) (fun _ => ?_)
    | with_reducible refine foldl_keeps (fun _ _ _ => ?_) ?_
    | with_reducible refine foldl_kfst (fun _ _ _ => ?_) ?_
    | with_reducible refine foldl_ksnd (fun _ _ _ => ?_) ?_
    | subst x
    | with_reducible split
    | dsimp only

theorem execPermute_keeps {am : Nat} {s₀ : State} {c : CoreNo} {rd : Gpr} {rs2 : Gpr} {s : State} (ha : Sub 135004720 am) (hs : Keeps am s₀ s) : KeepsOut am s₀ (execPermute c rd rs2 s) := by
  unfold execPermute
  repeat' first
    | with_reducible assumption
    | exact sub_of ha rfl
    | with_reducible refine keepsOut_next ?_
    | (lift_lets; intro x; refine (fun (hx : Keeps am s₀ x) => ?_) ?_; clear_value x)
    | (intro x; subst x)
    | with_reducible refine State.rcoll_keeps ?_ ?_
    | with_reducible refine ite_keeps (fun _ => ?_) (fun _ => ?_)
    | with_reducible refine iteOut_keeps (fun _ => ?_) (fun _ => ?_)
    | with_reducible refine foldl_keeps (fun _ _ _ => ?_) ?_
    | with_reducible refine foldl_kfst (fun _ _ _ => ?_) ?_
    | with_reducible refine foldl_ksnd (fun _ _ _ => ?_) ?_
    | subst x
    | with_reducible split
    | dsimp only

theorem execAlltoall_keeps {am : Nat} {s₀ : State} {c : CoreNo} {rd : Gpr} {rs2 : Gpr} {s : State} (ha : Sub 135004720 am) (hs : Keeps am s₀ s) : KeepsOut am s₀ (execAlltoall c rd rs2 s) := by
  unfold execAlltoall
  repeat' first
    | with_reducible assumption
    | exact sub_of ha rfl
    | with_reducible refine keepsOut_next ?_
    | (lift_lets; intro x; refine (fun (hx : Keeps am s₀ x) => ?_) ?_; clear_value x)
    | (intro x; subst x)
    | with_reducible refine State.rcoll_keeps ?_ ?_
    | with_reducible refine ite_keeps (fun _ => ?_) (fun _ => ?_)
    | with_reducible refine iteOut_keeps (fun _ => ?_) (fun _ => ?_)
    | with_reducible refine foldl_keeps (fun _ _ _ => ?_) ?_
    | with_reducible refine foldl_kfst (fun _ _ _ => ?_) ?_
    | with_reducible refine foldl_ksnd (fun _ _ _ => ?_) ?_
    | subst x
    | with_reducible split
    | dsimp only

theorem State.takeGroup_keeps {am : Nat} {s₀ : State} (s : State) (d : Nat) (op : Nat) (ha : Sub 67108864 am) (hs : Keeps am s₀ s) : KeepsOpt am s₀ (fun r => r.2) (State.takeGroup s d op) := by
  unfold State.takeGroup
  repeat' first
    | with_reducible assumption
    | with_reducible refine keepsOpt_some ?_
    | with_reducible refine keepsOpt_none
    | exact sub_of ha rfl
    | with_reducible refine keepsOut_next ?_
    | (lift_lets; intro x; refine (fun (hx : Keeps am s₀ x) => ?_) ?_; clear_value x)
    | (intro x; subst x)
    | with_reducible refine State.withNet_keeps ?_ ?_
    | with_reducible refine iteOpt_keeps (fun _ => ?_) (fun _ => ?_)
    | with_reducible refine ite_keeps (fun _ => ?_) (fun _ => ?_)
    | with_reducible refine iteOut_keeps (fun _ => ?_) (fun _ => ?_)
    | with_reducible refine foldl_keeps (fun _ _ _ => ?_) ?_
    | with_reducible refine foldl_kfst (fun _ _ _ => ?_) ?_
    | with_reducible refine foldl_ksnd (fun _ _ _ => ?_) ?_
    | subst x
    | with_reducible split
    | dsimp only

theorem State.takeGroup_keeps_eq {am : Nat} {s₀ : State} {s : State} {d : Nat} {op : Nat} {rr} (ha : Sub 67108864 am) (he : State.takeGroup s d op = some rr) (hs : Keeps am s₀ s) : Keeps am s₀ rr.2 := State.takeGroup_keeps s d op ha hs rr he

theorem execCollCreditRecv_keeps {am : Nat} {s₀ : State} {d : Die} {s : State} (ha : Sub 201588752 am) (hs : Keeps am s₀ s) : KeepsOut am s₀ (execCollCreditRecv d s) := by
  unfold execCollCreditRecv
  repeat' first
    | with_reducible assumption
    | exact sub_of ha rfl
    | with_reducible refine keepsOut_next ?_
    | (lift_lets; intro x; refine (fun (hx : Keeps am s₀ x) => ?_) ?_; clear_value x)
    | (intro x; subst x)
    | with_reducible refine State.mapGroup_keeps ?_ ?_
    | with_reducible refine State.setStreamCount_keeps ?_ ?_
    | with_reducible refine State.takeGroup_keeps_eq ?_ (by with_reducible assumption) ?_
    | with_reducible refine ite_keeps (fun _ => ?_) (fun _ => ?_)
    | with_reducible refine iteOut_keeps (fun _ => ?_) (fun _ => ?_)
    | with_reducible refine foldl_keeps (fun _ _ _ => ?_) ?_
    | with_reducible refine foldl_kfst (fun _ _ _ => ?_) ?_
    | with_reducible refine foldl_ksnd (fun _ _ _ => ?_) ?_
    | subst x
    | with_reducible split
    | dsimp only

theorem execCollComplete_keeps {am : Nat} {s₀ : State} {d : Die} {s : State} (ha : Sub 135004176 am) (hs : Keeps am s₀ s) : KeepsOut am s₀ (execCollComplete d s) := by
  unfold execCollComplete
  repeat' first
    | with_reducible assumption
    | exact sub_of ha rfl
    | with_reducible refine keepsOut_next ?_
    | (lift_lets; intro x; refine (fun (hx : Keeps am s₀ x) => ?_) ?_; clear_value x)
    | (intro x; subst x)
    | with_reducible refine State.closeDue_keeps ?_ ?_
    | with_reducible refine State.endColl_keeps ?_ ?_
    | with_reducible refine ite_keeps (fun _ => ?_) (fun _ => ?_)
    | with_reducible refine iteOut_keeps (fun _ => ?_) (fun _ => ?_)
    | with_reducible refine foldl_keeps (fun _ _ _ => ?_) ?_
    | with_reducible refine foldl_kfst (fun _ _ _ => ?_) ?_
    | with_reducible refine foldl_ksnd (fun _ _ _ => ?_) ?_
    | subst x
    | with_reducible split
    | dsimp only

theorem State.fenceCrr_keeps {am : Nat} {s₀ : State} {s : State} {d : Nat} {cause : Nat} (ha : Sub 2316043122 am) (hs : Keeps am s₀ s) : Keeps am s₀ (State.fenceCrr s d cause) := by
  unfold State.fenceCrr
  repeat' first
    | with_reducible assumption
    | exact sub_of ha rfl
    | with_reducible refine keepsOut_next ?_
    | (lift_lets; intro x; refine (fun (hx : Keeps am s₀ x) => ?_) ?_; clear_value x)
    | (intro x; subst x)
    | with_reducible refine State.agentFenced_keeps ?_ ?_
    | with_reducible refine State.dropGroups_keeps ?_ ?_
    | with_reducible refine State.endColl_keeps ?_ ?_
    | with_reducible refine State.fenceEngine_keeps ?_ ?_
    | with_reducible refine ite_keeps (fun _ => ?_) (fun _ => ?_)
    | with_reducible refine iteOut_keeps (fun _ => ?_) (fun _ => ?_)
    | with_reducible refine foldl_keeps (fun _ _ _ => ?_) ?_
    | with_reducible refine foldl_kfst (fun _ _ _ => ?_) ?_
    | with_reducible refine foldl_ksnd (fun _ _ _ => ?_) ?_
    | subst x
    | with_reducible split
    | dsimp only

theorem execCrrFence_keeps {am : Nat} {s₀ : State} {d : Die} {s : State} (ha : Sub 2316043122 am) (hs : Keeps am s₀ s) : KeepsOut am s₀ (execCrrFence d s) := by
  unfold execCrrFence
  repeat' first
    | with_reducible assumption
    | exact sub_of ha rfl
    | with_reducible refine keepsOut_next ?_
    | (lift_lets; intro x; refine (fun (hx : Keeps am s₀ x) => ?_) ?_; clear_value x)
    | (intro x; subst x)
    | with_reducible refine State.fenceCrr_keeps ?_ ?_
    | with_reducible refine ite_keeps (fun _ => ?_) (fun _ => ?_)
    | with_reducible refine iteOut_keeps (fun _ => ?_) (fun _ => ?_)
    | with_reducible refine foldl_keeps (fun _ _ _ => ?_) ?_
    | with_reducible refine foldl_kfst (fun _ _ _ => ?_) ?_
    | with_reducible refine foldl_ksnd (fun _ _ _ => ?_) ?_
    | subst x
    | with_reducible split
    | dsimp only

theorem execCrrSelftest_keeps {am : Nat} {s₀ : State} {d : Die} {s : State} (ha : Sub 48 am) (hs : Keeps am s₀ s) : KeepsOut am s₀ (execCrrSelftest d s) := by
  unfold execCrrSelftest
  repeat' first
    | with_reducible assumption
    | exact sub_of ha rfl
    | with_reducible refine keepsOut_next ?_
    | (lift_lets; intro x; refine (fun (hx : Keeps am s₀ x) => ?_) ?_; clear_value x)
    | (intro x; subst x)
    | with_reducible refine State.startSelftest_keeps ?_ ?_
    | with_reducible refine ite_keeps (fun _ => ?_) (fun _ => ?_)
    | with_reducible refine iteOut_keeps (fun _ => ?_) (fun _ => ?_)
    | with_reducible refine foldl_keeps (fun _ _ _ => ?_) ?_
    | with_reducible refine foldl_kfst (fun _ _ _ => ?_) ?_
    | with_reducible refine foldl_ksnd (fun _ _ _ => ?_) ?_
    | subst x
    | with_reducible split
    | dsimp only

theorem execCrrSelftestDone_keeps {am : Nat} {s₀ : State} {d : Die} {pass : Bool} {s : State} (ha : Sub 16 am) (hs : Keeps am s₀ s) : KeepsOut am s₀ (execCrrSelftestDone d pass s) := by
  unfold execCrrSelftestDone
  repeat' first
    | with_reducible assumption
    | exact sub_of ha rfl
    | with_reducible refine keepsOut_next ?_
    | (lift_lets; intro x; refine (fun (hx : Keeps am s₀ x) => ?_) ?_; clear_value x)
    | (intro x; subst x)
    | with_reducible refine State.endSelftest_keeps ?_ ?_
    | with_reducible refine ite_keeps (fun _ => ?_) (fun _ => ?_)
    | with_reducible refine iteOut_keeps (fun _ => ?_) (fun _ => ?_)
    | with_reducible refine foldl_keeps (fun _ _ _ => ?_) ?_
    | with_reducible refine foldl_kfst (fun _ _ _ => ?_) ?_
    | with_reducible refine foldl_ksnd (fun _ _ _ => ?_) ?_
    | subst x
    | with_reducible split
    | dsimp only

theorem execCrrReadmit_keeps {am : Nat} {s₀ : State} {d : Die} {s : State} (ha : Sub 33554736 am) (hs : Keeps am s₀ s) : KeepsOut am s₀ (execCrrReadmit d s) := by
  unfold execCrrReadmit
  repeat' first
    | with_reducible assumption
    | exact sub_of ha rfl
    | with_reducible refine keepsOut_next ?_
    | (lift_lets; intro x; refine (fun (hx : Keeps am s₀ x) => ?_) ?_; clear_value x)
    | (intro x; subst x)
    | with_reducible refine State.readmit_keeps ?_ ?_
    | with_reducible refine ite_keeps (fun _ => ?_) (fun _ => ?_)
    | with_reducible refine iteOut_keeps (fun _ => ?_) (fun _ => ?_)
    | with_reducible refine foldl_keeps (fun _ _ _ => ?_) ?_
    | with_reducible refine foldl_kfst (fun _ _ _ => ?_) ?_
    | with_reducible refine foldl_ksnd (fun _ _ _ => ?_) ?_
    | subst x
    | with_reducible split
    | dsimp only

theorem execCrrCntRead_keeps {am : Nat} {s₀ : State} {d : Die} {s : State} (ha : Sub 20 am) (hs : Keeps am s₀ s) : KeepsOut am s₀ (execCrrCntRead d s) := by
  unfold execCrrCntRead
  repeat' first
    | with_reducible assumption
    | exact sub_of ha rfl
    | with_reducible refine keepsOut_next ?_
    | (lift_lets; intro x; refine (fun (hx : Keeps am s₀ x) => ?_) ?_; clear_value x)
    | (intro x; subst x)
    | with_reducible refine State.readClear_keeps ?_ ?_
    | with_reducible refine ite_keeps (fun _ => ?_) (fun _ => ?_)
    | with_reducible refine iteOut_keeps (fun _ => ?_) (fun _ => ?_)
    | with_reducible refine foldl_keeps (fun _ _ _ => ?_) ?_
    | with_reducible refine foldl_kfst (fun _ _ _ => ?_) ?_
    | with_reducible refine foldl_ksnd (fun _ _ _ => ?_) ?_
    | subst x
    | with_reducible split
    | dsimp only

theorem execJobAdmission_keeps {am : Nat} {s₀ : State} {q : Fin 256} {s : State} (ha : Sub 336855056 am) (hs : Keeps am s₀ s) : KeepsOut am s₀ (execJobAdmission q s) := by
  unfold execJobAdmission
  repeat' first
    | with_reducible assumption
    | exact sub_of ha rfl
    | with_reducible refine keepsOut_next ?_
    | (lift_lets; intro x; refine (fun (hx : Keeps am s₀ x) => ?_) ?_; clear_value x)
    | (intro x; subst x)
    | with_reducible refine State.finCmd_keeps ?_ ?_
    | with_reducible refine State.markDispatched_keeps ?_ ?_
    | with_reducible refine State.pump_keeps ?_ ?_
    | with_reducible refine State.storeWords_keeps ?_ ?_
    | with_reducible refine State.withNet_keeps ?_ ?_
    | with_reducible refine ite_keeps (fun _ => ?_) (fun _ => ?_)
    | with_reducible refine iteOut_keeps (fun _ => ?_) (fun _ => ?_)
    | with_reducible refine foldl_keeps (fun _ _ _ => ?_) ?_
    | with_reducible refine foldl_kfst (fun _ _ _ => ?_) ?_
    | with_reducible refine foldl_ksnd (fun _ _ _ => ?_) ?_
    | subst x
    | with_reducible split
    | dsimp only

theorem State.writeGeom_keeps {am : Nat} {s₀ : State} {s : State} {ctx : Nat} {data : W64} (ha : Sub 1073741872 am) (hs : Keeps am s₀ s) : Keeps am s₀ (State.writeGeom s ctx data) := by
  unfold State.writeGeom
  repeat' first
    | with_reducible assumption
    | exact sub_of ha rfl
    | with_reducible refine keepsOut_next ?_
    | (lift_lets; intro x; refine (fun (hx : Keeps am s₀ x) => ?_) ?_; clear_value x)
    | (intro x; subst x)
    | with_reducible refine State.badSeq_keeps ?_ ?_
    | with_reducible refine State.setBitF_keeps ?_ ?_
    | with_reducible refine State.setFld_keeps ?_ ?_
    | with_reducible refine State.setReg_keeps ?_ ?_
    | with_reducible refine State.withLdg_keeps ?_ ?_
    | with_reducible refine ite_keeps (fun _ => ?_) (fun _ => ?_)
    | with_reducible refine iteOut_keeps (fun _ => ?_) (fun _ => ?_)
    | with_reducible refine foldl_keeps (fun _ _ _ => ?_) ?_
    | with_reducible refine foldl_kfst (fun _ _ _ => ?_) ?_
    | with_reducible refine foldl_ksnd (fun _ _ _ => ?_) ?_
    | subst x
    | with_reducible split
    | dsimp only

theorem execLdgGeomWrite_keeps {am : Nat} {s₀ : State} {data : W64} {s : State} (ha : Sub 1073741872 am) (hs : Keeps am s₀ s) : KeepsOut am s₀ (execLdgGeomWrite data s) := by
  unfold execLdgGeomWrite
  repeat' first
    | with_reducible assumption
    | exact sub_of ha rfl
    | with_reducible refine keepsOut_next ?_
    | (lift_lets; intro x; refine (fun (hx : Keeps am s₀ x) => ?_) ?_; clear_value x)
    | (intro x; subst x)
    | with_reducible refine State.writeGeom_keeps ?_ ?_
    | with_reducible refine ite_keeps (fun _ => ?_) (fun _ => ?_)
    | with_reducible refine iteOut_keeps (fun _ => ?_) (fun _ => ?_)
    | with_reducible refine foldl_keeps (fun _ _ _ => ?_) ?_
    | with_reducible refine foldl_kfst (fun _ _ _ => ?_) ?_
    | with_reducible refine foldl_ksnd (fun _ _ _ => ?_) ?_
    | subst x
    | with_reducible split
    | dsimp only

theorem execLseal_keeps {am : Nat} {s₀ : State} {c : ClusterNo} {rd : Gpr} {rs1 : Gpr} {rs2 : Gpr} {s : State} (ha : Sub 1073742336 am) (hs : Keeps am s₀ s) : KeepsOut am s₀ (execLseal c rd rs1 rs2 s) := by
  unfold execLseal
  repeat' first
    | with_reducible assumption
    | exact sub_of ha rfl
    | with_reducible refine keepsOut_next ?_
    | (lift_lets; intro x; refine (fun (hx : Keeps am s₀ x) => ?_) ?_; clear_value x)
    | (intro x; subst x)
    | with_reducible refine State.newWork_keeps ?_ ?_ ?_
    | with_reducible refine State.retSt_keeps ?_ ?_
    | with_reducible refine State.withLdg_keeps ?_ ?_
    | with_reducible refine ite_keeps (fun _ => ?_) (fun _ => ?_)
    | with_reducible refine iteOut_keeps (fun _ => ?_) (fun _ => ?_)
    | with_reducible refine foldl_keeps (fun _ _ _ => ?_) ?_
    | with_reducible refine foldl_kfst (fun _ _ _ => ?_) ?_
    | with_reducible refine foldl_ksnd (fun _ _ _ => ?_) ?_
    | subst x
    | with_reducible split
    | dsimp only

theorem execGstepWrite_keeps {am : Nat} {s₀ : State} {c : ClusterNo} {rs1 : Gpr} {s : State} (ha : Sub 528 am) (hs : Keeps am s₀ s) : KeepsOut am s₀ (execGstepWrite c rs1 s) := by
  unfold execGstepWrite
  repeat' first
    | with_reducible assumption
    | exact sub_of ha rfl
    | with_reducible refine keepsOut_next ?_
    | (lift_lets; intro x; refine (fun (hx : Keeps am s₀ x) => ?_) ?_; clear_value x)
    | (intro x; subst x)
    | with_reducible refine State.nextPc_keeps ?_ ?_
    | with_reducible refine State.setReg_keeps ?_ ?_
    | with_reducible refine ite_keeps (fun _ => ?_) (fun _ => ?_)
    | with_reducible refine iteOut_keeps (fun _ => ?_) (fun _ => ?_)
    | with_reducible refine foldl_keeps (fun _ _ _ => ?_) ?_
    | with_reducible refine foldl_kfst (fun _ _ _ => ?_) ?_
    | with_reducible refine foldl_ksnd (fun _ _ _ => ?_) ?_
    | subst x
    | with_reducible split
    | dsimp only

theorem State.ckShow_keeps {am : Nat} {s₀ : State} {s : State} {ctx : Nat} (ha : Sub 16 am) (hs : Keeps am s₀ s) : Keeps am s₀ (State.ckShow s ctx) := by
  unfold State.ckShow
  repeat' first
    | with_reducible assumption
    | exact sub_of ha rfl
    | with_reducible refine keepsOut_next ?_
    | (lift_lets; intro x; refine (fun (hx : Keeps am s₀ x) => ?_) ?_; clear_value x)
    | (intro x; subst x)
    | with_reducible refine State.setFld_keeps ?_ ?_
    | with_reducible refine ite_keeps (fun _ => ?_) (fun _ => ?_)
    | with_reducible refine iteOut_keeps (fun _ => ?_) (fun _ => ?_)
    | with_reducible refine foldl_keeps (fun _ _ _ => ?_) ?_
    | with_reducible refine foldl_kfst (fun _ _ _ => ?_) ?_
    | with_reducible refine foldl_ksnd (fun _ _ _ => ?_) ?_
    | subst x
    | with_reducible split
    | dsimp only

theorem execCkRecompute_keeps {am : Nat} {s₀ : State} {ctx : Byte} {s : State} (ha : Sub 16 am) (hs : Keeps am s₀ s) : KeepsOut am s₀ (execCkRecompute ctx s) := by
  unfold execCkRecompute
  repeat' first
    | with_reducible assumption
    | exact sub_of ha rfl
    | with_reducible refine keepsOut_next ?_
    | (lift_lets; intro x; refine (fun (hx : Keeps am s₀ x) => ?_) ?_; clear_value x)
    | (intro x; subst x)
    | with_reducible refine State.ckShow_keeps ?_ ?_
    | with_reducible refine ite_keeps (fun _ => ?_) (fun _ => ?_)
    | with_reducible refine iteOut_keeps (fun _ => ?_) (fun _ => ?_)
    | with_reducible refine foldl_keeps (fun _ _ _ => ?_) ?_
    | with_reducible refine foldl_kfst (fun _ _ _ => ?_) ?_
    | with_reducible refine foldl_ksnd (fun _ _ _ => ?_) ?_
    | subst x
    | with_reducible split
    | dsimp only

theorem execCkmarkStart_keeps {am : Nat} {s₀ : State} {s : State} (ha : Sub 1073741824 am) (hs : Keeps am s₀ s) : KeepsOut am s₀ (execCkmarkStart s) := by
  unfold execCkmarkStart
  repeat' first
    | with_reducible assumption
    | exact sub_of ha rfl
    | with_reducible refine keepsOut_next ?_
    | (lift_lets; intro x; refine (fun (hx : Keeps am s₀ x) => ?_) ?_; clear_value x)
    | (intro x; subst x)
    | with_reducible refine State.withLdg_keeps ?_ ?_
    | with_reducible refine ite_keeps (fun _ => ?_) (fun _ => ?_)
    | with_reducible refine iteOut_keeps (fun _ => ?_) (fun _ => ?_)
    | with_reducible refine foldl_keeps (fun _ _ _ => ?_) ?_
    | with_reducible refine foldl_kfst (fun _ _ _ => ?_) ?_
    | with_reducible refine foldl_ksnd (fun _ _ _ => ?_) ?_
    | subst x
    | with_reducible split
    | dsimp only

theorem execCkmarkEnd_keeps {am : Nat} {s₀ : State} {s : State} (ha : Sub 1073741872 am) (hs : Keeps am s₀ s) : KeepsOut am s₀ (execCkmarkEnd s) := by
  unfold execCkmarkEnd
  repeat' first
    | with_reducible assumption
    | exact sub_of ha rfl
    | with_reducible refine keepsOut_next ?_
    | (lift_lets; intro x; refine (fun (hx : Keeps am s₀ x) => ?_) ?_; clear_value x)
    | (intro x; subst x)
    | with_reducible refine State.badSeq_keeps ?_ ?_
    | with_reducible refine State.ckShow_keeps ?_ ?_
    | with_reducible refine State.withLdg_keeps ?_ ?_
    | with_reducible refine ite_keeps (fun _ => ?_) (fun _ => ?_)
    | with_reducible refine iteOut_keeps (fun _ => ?_) (fun _ => ?_)
    | with_reducible refine foldl_keeps (fun _ _ _ => ?_) ?_
    | with_reducible refine foldl_kfst (fun _ _ _ => ?_) ?_
    | with_reducible refine foldl_ksnd (fun _ _ _ => ?_) ?_
    | subst x
    | with_reducible split
    | dsimp only

theorem execCkmarkEmpty_keeps {am : Nat} {s₀ : State} {s : State} (ha : Sub 1073741840 am) (hs : Keeps am s₀ s) : KeepsOut am s₀ (execCkmarkEmpty s) := by
  unfold execCkmarkEmpty
  repeat' first
    | with_reducible assumption
    | exact sub_of ha rfl
    | with_reducible refine keepsOut_next ?_
    | (lift_lets; intro x; refine (fun (hx : Keeps am s₀ x) => ?_) ?_; clear_value x)
    | (intro x; subst x)
    | with_reducible refine State.setFld_keeps ?_ ?_
    | with_reducible refine State.withLdg_keeps ?_ ?_
    | with_reducible refine ite_keeps (fun _ => ?_) (fun _ => ?_)
    | with_reducible refine iteOut_keeps (fun _ => ?_) (fun _ => ?_)
    | with_reducible refine foldl_keeps (fun _ _ _ => ?_) ?_
    | with_reducible refine foldl_kfst (fun _ _ _ => ?_) ?_
    | with_reducible refine foldl_ksnd (fun _ _ _ => ?_) ?_
    | subst x
    | with_reducible split
    | dsimp only

theorem execLdgCkWrite_keeps {am : Nat} {s₀ : State} {obs : Bool} {data : W64} {s : State} (ha : Sub 16 am) (hs : Keeps am s₀ s) : KeepsOut am s₀ (execLdgCkWrite obs data s) := by
  unfold execLdgCkWrite
  repeat' first
    | with_reducible assumption
    | exact sub_of ha rfl
    | with_reducible refine keepsOut_next ?_
    | (lift_lets; intro x; refine (fun (hx : Keeps am s₀ x) => ?_) ?_; clear_value x)
    | (intro x; subst x)
    | with_reducible refine State.ckShow_keeps ?_ ?_
    | with_reducible refine State.setReg_keeps ?_ ?_
    | with_reducible refine ite_keeps (fun _ => ?_) (fun _ => ?_)
    | with_reducible refine iteOut_keeps (fun _ => ?_) (fun _ => ?_)
    | with_reducible refine foldl_keeps (fun _ _ _ => ?_) ?_
    | with_reducible refine foldl_kfst (fun _ _ _ => ?_) ?_
    | with_reducible refine foldl_ksnd (fun _ _ _ => ?_) ?_
    | subst x
    | with_reducible split
    | dsimp only

theorem State.onDevs_keeps {am : Nat} {s₀ : State} {s : State} {f : Flash → Flash} (ha : Sub 256 am) (hs : Keeps am s₀ s) : Keeps am s₀ (State.onDevs s f) := by
  unfold State.onDevs
  repeat' first
    | with_reducible assumption
    | exact sub_of ha rfl
    | with_reducible refine keepsOut_next ?_
    | (lift_lets; intro x; refine (fun (hx : Keeps am s₀ x) => ?_) ?_; clear_value x)
    | (intro x; subst x)
    | with_reducible refine State.withSst_keeps ?_ ?_
    | with_reducible refine ite_keeps (fun _ => ?_) (fun _ => ?_)
    | with_reducible refine iteOut_keeps (fun _ => ?_) (fun _ => ?_)
    | with_reducible refine foldl_keeps (fun _ _ _ => ?_) ?_
    | with_reducible refine foldl_kfst (fun _ _ _ => ?_) ?_
    | with_reducible refine foldl_ksnd (fun _ _ _ => ?_) ?_
    | subst x
    | with_reducible split
    | dsimp only

theorem execSstRecordWrite_keeps {am : Nat} {s₀ : State} {s : State} (ha : Sub 33558800 am) (hs : Keeps am s₀ s) : KeepsOut am s₀ (execSstRecordWrite s) := by
  unfold execSstRecordWrite
  repeat' first
    | with_reducible assumption
    | exact sub_of ha rfl
    | with_reducible refine keepsOut_next ?_
    | (lift_lets; intro x; refine (fun (hx : Keeps am s₀ x) => ?_) ?_; clear_value x)
    | (intro x; subst x)
    | with_reducible refine State.addFld_keeps ?_ ?_
    | with_reducible refine State.onDevs_keeps ?_ ?_
    | with_reducible refine State.setBank_keeps ?_ ?_
    | with_reducible refine State.wait_keeps ?_ ?_
    | with_reducible refine State.withSst_keeps ?_ ?_
    | with_reducible refine ite_keeps (fun _ => ?_) (fun _ => ?_)
    | with_reducible refine iteOut_keeps (fun _ => ?_) (fun _ => ?_)
    | with_reducible refine foldl_keeps (fun _ _ _ => ?_) ?_
    | with_reducible refine foldl_kfst (fun _ _ _ => ?_) ?_
    | with_reducible refine foldl_ksnd (fun _ _ _ => ?_) ?_
    | subst x
    | with_reducible split
    | dsimp only

theorem execSstBankErase_keeps {am : Nat} {s₀ : State} {s : State} (ha : Sub 4352 am) (hs : Keeps am s₀ s) : KeepsOut am s₀ (execSstBankErase s) := by
  unfold execSstBankErase
  repeat' first
    | with_reducible assumption
    | exact sub_of ha rfl
    | with_reducible refine keepsOut_next ?_
    | (lift_lets; intro x; refine (fun (hx : Keeps am s₀ x) => ?_) ?_; clear_value x)
    | (intro x; subst x)
    | with_reducible refine State.onDevs_keeps ?_ ?_
    | with_reducible refine State.setBank_keeps ?_ ?_
    | with_reducible refine State.withSst_keeps ?_ ?_
    | with_reducible refine ite_keeps (fun _ => ?_) (fun _ => ?_)
    | with_reducible refine iteOut_keeps (fun _ => ?_) (fun _ => ?_)
    | with_reducible refine foldl_keeps (fun _ _ _ => ?_) ?_
    | with_reducible refine foldl_kfst (fun _ _ _ => ?_) ?_
    | with_reducible refine foldl_ksnd (fun _ _ _ => ?_) ?_
    | subst x
    | with_reducible split
    | dsimp only

theorem execSstCompact_keeps {am : Nat} {s₀ : State} {s : State} (ha : Sub 4368 am) (hs : Keeps am s₀ s) : KeepsOut am s₀ (execSstCompact s) := by
  unfold execSstCompact
  repeat' first
    | with_reducible assumption
    | exact sub_of ha rfl
    | with_reducible refine keepsOut_next ?_
    | (lift_lets; intro x; refine (fun (hx : Keeps am s₀ x) => ?_) ?_; clear_value x)
    | (intro x; subst x)
    | with_reducible refine State.onDevs_keeps ?_ ?_
    | with_reducible refine State.setBank_keeps ?_ ?_
    | with_reducible refine State.setFld_keeps ?_ ?_
    | with_reducible refine State.withSst_keeps ?_ ?_
    | with_reducible refine State.wrapFld_keeps ?_ ?_
    | with_reducible refine ite_keeps (fun _ => ?_) (fun _ => ?_)
    | with_reducible refine iteOut_keeps (fun _ => ?_) (fun _ => ?_)
    | with_reducible refine foldl_keeps (fun _ _ _ => ?_) ?_
    | with_reducible refine foldl_kfst (fun _ _ _ => ?_) ?_
    | with_reducible refine foldl_ksnd (fun _ _ _ => ?_) ?_
    | subst x
    | with_reducible split
    | dsimp only

theorem execSstRselWrite_keeps {am : Nat} {s₀ : State} {data : W64} {s : State} (ha : Sub 272 am) (hs : Keeps am s₀ s) : KeepsOut am s₀ (execSstRselWrite data s) := by
  unfold execSstRselWrite
  repeat' first
    | with_reducible assumption
    | exact sub_of ha rfl
    | with_reducible refine keepsOut_next ?_
    | (lift_lets; intro x; refine (fun (hx : Keeps am s₀ x) => ?_) ?_; clear_value x)
    | (intro x; subst x)
    | with_reducible refine State.plainWrite_keeps ?_ ?_
    | with_reducible refine State.withSst_keeps ?_ ?_
    | with_reducible refine ite_keeps (fun _ => ?_) (fun _ => ?_)
    | with_reducible refine iteOut_keeps (fun _ => ?_) (fun _ => ?_)
    | with_reducible refine foldl_keeps (fun _ _ _ => ?_) ?_
    | with_reducible refine foldl_kfst (fun _ _ _ => ?_) ?_
    | with_reducible refine foldl_ksnd (fun _ _ _ => ?_) ?_
    | subst x
    | with_reducible split
    | dsimp only

theorem execSstRdataRead_keeps {am : Nat} {s₀ : State} {s : State} (ha : Sub 260 am) (hs : Keeps am s₀ s) : KeepsOut am s₀ (execSstRdataRead s) := by
  unfold execSstRdataRead
  repeat' first
    | with_reducible assumption
    | exact sub_of ha rfl
    | with_reducible refine keepsOut_next ?_
    | (lift_lets; intro x; refine (fun (hx : Keeps am s₀ x) => ?_) ?_; clear_value x)
    | (intro x; subst x)
    | with_reducible refine State.out_keeps ?_ ?_
    | with_reducible refine State.withSst_keeps ?_ ?_
    | with_reducible refine ite_keeps (fun _ => ?_) (fun _ => ?_)
    | with_reducible refine iteOut_keeps (fun _ => ?_) (fun _ => ?_)
    | with_reducible refine foldl_keeps (fun _ _ _ => ?_) ?_
    | with_reducible refine foldl_kfst (fun _ _ _ => ?_) ?_
    | with_reducible refine foldl_ksnd (fun _ _ _ => ?_) ?_
    | subst x
    | with_reducible split
    | dsimp only

theorem State.episode_keeps {am : Nat} {s₀ : State} {s : State} {old : Nat} {new : Nat} (ha : Sub 2181038448 am) (hs : Keeps am s₀ s) : Keeps am s₀ (State.episode s old new) := by
  unfold State.episode
  repeat' first
    | with_reducible assumption
    | exact sub_of ha rfl
    | with_reducible refine keepsOut_next ?_
    | (lift_lets; intro x; refine (fun (hx : Keeps am s₀ x) => ?_) ?_; clear_value x)
    | (intro x; subst x)
    | with_reducible refine State.addFld_keeps ?_ ?_
    | with_reducible refine State.event_keeps ?_ ?_
    | with_reducible refine State.setErr_keeps ?_ ?_
    | with_reducible refine State.withPwr_keeps ?_ ?_
    | with_reducible refine ite_keeps (fun _ => ?_) (fun _ => ?_)
    | with_reducible refine iteOut_keeps (fun _ => ?_) (fun _ => ?_)
    | with_reducible refine foldl_keeps (fun _ _ _ => ?_) ?_
    | with_reducible refine foldl_kfst (fun _ _ _ => ?_) ?_
    | with_reducible refine foldl_ksnd (fun _ _ _ => ?_) ?_
    | subst x
    | with_reducible split
    | dsimp only

theorem execPwrTick_keeps {am : Nat} {s₀ : State} {counts : List Nat} {s : State} (ha : Sub 2181038448 am) (hs : Keeps am s₀ s) : KeepsOut am s₀ (execPwrTick counts s) := by
  unfold execPwrTick
  repeat' first
    | with_reducible assumption
    | exact sub_of ha rfl
    | with_reducible refine keepsOut_next ?_
    | (lift_lets; intro x; refine (fun (hx : Keeps am s₀ x) => ?_) ?_; clear_value x)
    | (intro x; subst x)
    | with_reducible refine State.episode_keeps ?_ ?_
    | with_reducible refine State.setFld_keeps ?_ ?_
    | with_reducible refine State.withPwr_keeps ?_ ?_
    | with_reducible refine ite_keeps (fun _ => ?_) (fun _ => ?_)
    | with_reducible refine iteOut_keeps (fun _ => ?_) (fun _ => ?_)
    | with_reducible refine foldl_keeps (fun _ _ _ => ?_) ?_
    | with_reducible refine foldl_kfst (fun _ _ _ => ?_) ?_
    | with_reducible refine foldl_ksnd (fun _ _ _ => ?_) ?_
    | subst x
    | with_reducible split
    | dsimp only

theorem execPwrCaplogRead_keeps {am : Nat} {s₀ : State} {s : State} (ha : Sub 20 am) (hs : Keeps am s₀ s) : KeepsOut am s₀ (execPwrCaplogRead s) := by
  unfold execPwrCaplogRead
  repeat' first
    | with_reducible assumption
    | exact sub_of ha rfl
    | with_reducible refine keepsOut_next ?_
    | (lift_lets; intro x; refine (fun (hx : Keeps am s₀ x) => ?_) ?_; clear_value x)
    | (intro x; subst x)
    | with_reducible refine State.readClear_keeps ?_ ?_
    | with_reducible refine ite_keeps (fun _ => ?_) (fun _ => ?_)
    | with_reducible refine iteOut_keeps (fun _ => ?_) (fun _ => ?_)
    | with_reducible refine foldl_keeps (fun _ _ _ => ?_) ?_
    | with_reducible refine foldl_kfst (fun _ _ _ => ?_) ?_
    | with_reducible refine foldl_ksnd (fun _ _ _ => ?_) ?_
    | subst x
    | with_reducible split
    | dsimp only

theorem execBmBmlimWrite_keeps {am : Nat} {s₀ : State} {v : W16} {s : State} (ha : Sub 33554800 am) (hs : Keeps am s₀ s) : KeepsOut am s₀ (execBmBmlimWrite v s) := by
  unfold execBmBmlimWrite
  repeat' first
    | with_reducible assumption
    | exact sub_of ha rfl
    | with_reducible refine keepsOut_next ?_
    | (lift_lets; intro x; refine (fun (hx : Keeps am s₀ x) => ?_) ?_; clear_value x)
    | (intro x; subst x)
    | with_reducible refine State.event_keeps ?_ ?_
    | with_reducible refine State.setErr_keeps ?_ ?_
    | with_reducible refine State.setFld_keeps ?_ ?_
    | with_reducible refine ite_keeps (fun _ => ?_) (fun _ => ?_)
    | with_reducible refine iteOut_keeps (fun _ => ?_) (fun _ => ?_)
    | with_reducible refine foldl_keeps (fun _ _ _ => ?_) ?_
    | with_reducible refine foldl_kfst (fun _ _ _ => ?_) ?_
    | with_reducible refine foldl_ksnd (fun _ _ _ => ?_) ?_
    | subst x
    | with_reducible split
    | dsimp only

theorem State.islTemp_keeps {am : Nat} {s₀ : State} {s : State} {d : Nat} {k : Nat} {temp : W16} (ha : Sub 16 am) (hs : Keeps am s₀ s) : Keeps am s₀ (State.islTemp s d k temp) := by
  unfold State.islTemp
  repeat' first
    | with_reducible assumption
    | exact sub_of ha rfl
    | with_reducible refine keepsOut_next ?_
    | (lift_lets; intro x; refine (fun (hx : Keeps am s₀ x) => ?_) ?_; clear_value x)
    | (intro x; subst x)
    | with_reducible refine State.setFld_keeps ?_ ?_
    | with_reducible refine ite_keeps (fun _ => ?_) (fun _ => ?_)
    | with_reducible refine iteOut_keeps (fun _ => ?_) (fun _ => ?_)
    | with_reducible refine foldl_keeps (fun _ _ _ => ?_) ?_
    | with_reducible refine foldl_kfst (fun _ _ _ => ?_) ?_
    | with_reducible refine foldl_ksnd (fun _ _ _ => ?_) ?_
    | subst x
    | with_reducible split
    | dsimp only

theorem execTjcapStep_keeps {am : Nat} {s₀ : State} {hot : Bool} {d : Die} {k : Fin 35} {temp : W16} {s : State} (ha : Sub 2181038448 am) (hs : Keeps am s₀ s) : KeepsOut am s₀ (execTjcapStep hot d k temp s) := by
  unfold execTjcapStep
  repeat' first
    | with_reducible assumption
    | exact sub_of ha rfl
    | with_reducible refine keepsOut_next ?_
    | (lift_lets; intro x; refine (fun (hx : Keeps am s₀ x) => ?_) ?_; clear_value x)
    | (intro x; subst x)
    | with_reducible refine State.event_keeps ?_ ?_
    | with_reducible refine State.islTemp_keeps ?_ ?_
    | with_reducible refine State.setErr_keeps ?_ ?_
    | with_reducible refine State.setFld_keeps ?_ ?_
    | with_reducible refine State.withPwr_keeps ?_ ?_
    | with_reducible refine ite_keeps (fun _ => ?_) (fun _ => ?_)
    | with_reducible refine iteOut_keeps (fun _ => ?_) (fun _ => ?_)
    | with_reducible refine foldl_keeps (fun _ _ _ => ?_) ?_
    | with_reducible refine foldl_kfst (fun _ _ _ => ?_) ?_
    | with_reducible refine foldl_ksnd (fun _ _ _ => ?_) ?_
    | subst x
    | with_reducible split
    | dsimp only

theorem execThermtrip_keeps {am : Nat} {s₀ : State} {sn : Sensor} {temp : W16} {s : State} (ha : Sub 33554928 am) (hs : Keeps am s₀ s) : KeepsOut am s₀ (execThermtrip sn temp s) := by
  unfold execThermtrip
  repeat' first
    | with_reducible assumption
    | exact sub_of ha rfl
    | with_reducible refine keepsOut_next ?_
    | (lift_lets; intro x; refine (fun (hx : Keeps am s₀ x) => ?_) ?_; clear_value x)
    | (intro x; subst x)
    | with_reducible refine State.islTemp_keeps ?_ ?_
    | with_reducible refine State.setFld_keeps ?_ ?_
    | with_reducible refine State.trip_keeps ?_ ?_
    | with_reducible refine ite_keeps (fun _ => ?_) (fun _ => ?_)
    | with_reducible refine iteOut_keeps (fun _ => ?_) (fun _ => ?_)
    | with_reducible refine foldl_keeps (fun _ _ _ => ?_) ?_
    | with_reducible refine foldl_kfst (fun _ _ _ => ?_) ?_
    | with_reducible refine foldl_ksnd (fun _ _ _ => ?_) ?_
    | subst x
    | with_reducible split
    | dsimp only

theorem State.setWarn_keeps {am : Nat} {s₀ : State} {s : State} {d : Nat} {k : Nat} {w : Option Warn} (ha : Sub 144 am) (hs : Keeps am s₀ s) : Keeps am s₀ (State.setWarn s d k w) := by
  unfold State.setWarn
  repeat' first
    | with_reducible assumption
    | exact sub_of ha rfl
    | with_reducible refine keepsOut_next ?_
    | (lift_lets; intro x; refine (fun (hx : Keeps am s₀ x) => ?_) ?_; clear_value x)
    | (intro x; subst x)
    | with_reducible refine State.setReg_keeps ?_ ?_
    | with_reducible refine State.withPlat_keeps ?_ ?_
    | with_reducible refine ite_keeps (fun _ => ?_) (fun _ => ?_)
    | with_reducible refine iteOut_keeps (fun _ => ?_) (fun _ => ?_)
    | with_reducible refine foldl_keeps (fun _ _ _ => ?_) ?_
    | with_reducible refine foldl_kfst (fun _ _ _ => ?_) ?_
    | with_reducible refine foldl_ksnd (fun _ _ _ => ?_) ?_
    | subst x
    | with_reducible split
    | dsimp only

theorem State.countStretch_keeps {am : Nat} {s₀ : State} {s : State} {d : Nat} {k : Nat} (ha : Sub 144 am) (hs : Keeps am s₀ s) : Keeps am s₀ (State.countStretch s d k) := by
  unfold State.countStretch
  repeat' first
    | with_reducible assumption
    | exact sub_of ha rfl
    | with_reducible refine keepsOut_next ?_
    | (lift_lets; intro x; refine (fun (hx : Keeps am s₀ x) => ?_) ?_; clear_value x)
    | (intro x; subst x)
    | with_reducible refine State.addFld_keeps ?_ ?_
    | with_reducible refine State.setWarn_keeps ?_ ?_
    | with_reducible refine ite_keeps (fun _ => ?_) (fun _ => ?_)
    | with_reducible refine iteOut_keeps (fun _ => ?_) (fun _ => ?_)
    | with_reducible refine foldl_keeps (fun _ _ _ => ?_) ?_
    | with_reducible refine foldl_kfst (fun _ _ _ => ?_) ?_
    | with_reducible refine foldl_ksnd (fun _ _ _ => ?_) ?_
    | subst x
    | with_reducible split
    | dsimp only

theorem execIslStretchRead_keeps {am : Nat} {s₀ : State} {d : Die} {k : Fin 35} {s : State} (ha : Sub 148 am) (hs : Keeps am s₀ s) : KeepsOut am s₀ (execIslStretchRead d k s) := by
  unfold execIslStretchRead
  repeat' first
    | with_reducible assumption
    | exact sub_of ha rfl
    | with_reducible refine keepsOut_next ?_
    | (lift_lets; intro x; refine (fun (hx : Keeps am s₀ x) => ?_) ?_; clear_value x)
    | (intro x; subst x)
    | with_reducible refine State.countStretch_keeps ?_ ?_
    | with_reducible refine State.readClear_keeps ?_ ?_
    | with_reducible refine ite_keeps (fun _ => ?_) (fun _ => ?_)
    | with_reducible refine iteOut_keeps (fun _ => ?_) (fun _ => ?_)
    | with_reducible refine foldl_keeps (fun _ _ _ => ?_) ?_
    | with_reducible refine foldl_kfst (fun _ _ _ => ?_) ?_
    | with_reducible refine foldl_ksnd (fun _ _ _ => ?_) ?_
    | subst x
    | with_reducible split
    | dsimp only

theorem State.capDroop_keeps {am : Nat} {s₀ : State} {s : State} {d : Nat} (ha : Sub 16 am) (hs : Keeps am s₀ s) : Keeps am s₀ (State.capDroop s d) := by
  unfold State.capDroop
  repeat' first
    | with_reducible assumption
    | exact sub_of ha rfl
    | with_reducible refine keepsOut_next ?_
    | (lift_lets; intro x; refine (fun (hx : Keeps am s₀ x) => ?_) ?_; clear_value x)
    | (intro x; subst x)
    | with_reducible refine State.setFld_keeps ?_ ?_
    | with_reducible refine ite_keeps (fun _ => ?_) (fun _ => ?_)
    | with_reducible refine iteOut_keeps (fun _ => ?_) (fun _ => ?_)
    | with_reducible refine foldl_keeps (fun _ _ _ => ?_) ?_
    | with_reducible refine foldl_kfst (fun _ _ _ => ?_) ?_
    | with_reducible refine foldl_ksnd (fun _ _ _ => ?_) ?_
    | subst x
    | with_reducible split
    | dsimp only

theorem execDroopWarnAssert_keeps {am : Nat} {s₀ : State} {d : Die} {k : Fin 35} {mv : W16} {s : State} (ha : Sub 144 am) (hs : Keeps am s₀ s) : KeepsOut am s₀ (execDroopWarnAssert d k mv s) := by
  unfold execDroopWarnAssert
  repeat' first
    | with_reducible assumption
    | exact sub_of ha rfl
    | with_reducible refine keepsOut_next ?_
    | (lift_lets; intro x; refine (fun (hx : Keeps am s₀ x) => ?_) ?_; clear_value x)
    | (intro x; subst x)
    | with_reducible refine State.addFld_keeps ?_ ?_
    | with_reducible refine State.capDroop_keeps ?_ ?_
    | with_reducible refine State.setWarn_keeps ?_ ?_
    | with_reducible refine ite_keeps (fun _ => ?_) (fun _ => ?_)
    | with_reducible refine iteOut_keeps (fun _ => ?_) (fun _ => ?_)
    | with_reducible refine foldl_keeps (fun _ _ _ => ?_) ?_
    | with_reducible refine foldl_kfst (fun _ _ _ => ?_) ?_
    | with_reducible refine foldl_ksnd (fun _ _ _ => ?_) ?_
    | subst x
    | with_reducible split
    | dsimp only

theorem State.endWarn_keeps {am : Nat} {s₀ : State} {s : State} {d : Nat} {k : Nat} {mv : Nat} (ha : Sub 33554928 am) (hs : Keeps am s₀ s) : Keeps am s₀ (State.endWarn s d k mv) := by
  unfold State.endWarn
  repeat' first
    | with_reducible assumption
    | exact sub_of ha rfl
    | with_reducible refine keepsOut_next ?_
    | (lift_lets; intro x; refine (fun (hx : Keeps am s₀ x) => ?_) ?_; clear_value x)
    | (intro x; subst x)
    | with_reducible refine State.addFld_keeps ?_ ?_
    | with_reducible refine State.countStretch_keeps ?_ ?_
    | with_reducible refine State.event_keeps ?_ ?_
    | with_reducible refine State.setErr_keeps ?_ ?_
    | with_reducible refine State.setReg_keeps ?_ ?_
    | with_reducible refine State.setWarn_keeps ?_ ?_
    | with_reducible refine ite_keeps (fun _ => ?_) (fun _ => ?_)
    | with_reducible refine iteOut_keeps (fun _ => ?_) (fun _ => ?_)
    | with_reducible refine foldl_keeps (fun _ _ _ => ?_) ?_
    | with_reducible refine foldl_kfst (fun _ _ _ => ?_) ?_
    | with_reducible refine foldl_ksnd (fun _ _ _ => ?_) ?_
    | subst x
    | with_reducible split
    | dsimp only

theorem execDroopWarnEnd_keeps {am : Nat} {s₀ : State} {d : Die} {k : Fin 35} {mv : W16} {s : State} (ha : Sub 33554928 am) (hs : Keeps am s₀ s) : KeepsOut am s₀ (execDroopWarnEnd d k mv s) := by
  unfold execDroopWarnEnd
  repeat' first
    | with_reducible assumption
    | exact sub_of ha rfl
    | with_reducible refine keepsOut_next ?_
    | (lift_lets; intro x; refine (fun (hx : Keeps am s₀ x) => ?_) ?_; clear_value x)
    | (intro x; subst x)
    | with_reducible refine State.endWarn_keeps ?_ ?_
    | with_reducible refine ite_keeps (fun _ => ?_) (fun _ => ?_)
    | with_reducible refine iteOut_keeps (fun _ => ?_) (fun _ => ?_)
    | with_reducible refine foldl_keeps (fun _ _ _ => ?_) ?_
    | with_reducible refine foldl_kfst (fun _ _ _ => ?_) ?_
    | with_reducible refine foldl_ksnd (fun _ _ _ => ?_) ?_
    | subst x
    | with_reducible split
    | dsimp only

theorem execDrpCntRead_keeps {am : Nat} {s₀ : State} {d : Die} {s : State} (ha : Sub 20 am) (hs : Keeps am s₀ s) : KeepsOut am s₀ (execDrpCntRead d s) := by
  unfold execDrpCntRead
  repeat' first
    | with_reducible assumption
    | exact sub_of ha rfl
    | with_reducible refine keepsOut_next ?_
    | (lift_lets; intro x; refine (fun (hx : Keeps am s₀ x) => ?_) ?_; clear_value x)
    | (intro x; subst x)
    | with_reducible refine State.readClear_keeps ?_ ?_
    | with_reducible refine ite_keeps (fun _ => ?_) (fun _ => ?_)
    | with_reducible refine iteOut_keeps (fun _ => ?_) (fun _ => ?_)
    | with_reducible refine foldl_keeps (fun _ _ _ => ?_) ?_
    | with_reducible refine foldl_kfst (fun _ _ _ => ?_) ?_
    | with_reducible refine foldl_ksnd (fun _ _ _ => ?_) ?_
    | subst x
    | with_reducible split
    | dsimp only

theorem State.noteDir_keeps {am : Nat} {s₀ : State} {s : State} {old : State} (ha : Sub 48 am) (hs : Keeps am s₀ s) : Keeps am s₀ (State.noteDir s old) := by
  unfold State.noteDir
  repeat' first
    | with_reducible assumption
    | exact sub_of ha rfl
    | with_reducible refine keepsOut_next ?_
    | (lift_lets; intro x; refine (fun (hx : Keeps am s₀ x) => ?_) ?_; clear_value x)
    | (intro x; subst x)
    | with_reducible refine State.setErr_keeps ?_ ?_
    | with_reducible refine State.wrapFld_keeps ?_ ?_
    | with_reducible refine ite_keeps (fun _ => ?_) (fun _ => ?_)
    | with_reducible refine iteOut_keeps (fun _ => ?_) (fun _ => ?_)
    | with_reducible refine foldl_keeps (fun _ _ _ => ?_) ?_
    | with_reducible refine foldl_kfst (fun _ _ _ => ?_) ?_
    | with_reducible refine foldl_ksnd (fun _ _ _ => ?_) ?_
    | subst x
    | with_reducible split
    | dsimp only

theorem State.setLane_keeps {am : Nat} {s₀ : State} {s : State} {b : Bool} {st : Nat} (ha : Sub 16 am) (hs : Keeps am s₀ s) : Keeps am s₀ (State.setLane s b st) := by
  unfold State.setLane
  repeat' first
    | with_reducible assumption
    | exact sub_of ha rfl
    | with_reducible refine keepsOut_next ?_
    | (lift_lets; intro x; refine (fun (hx : Keeps am s₀ x) => ?_) ?_; clear_value x)
    | (intro x; subst x)
    | with_reducible refine State.setFld_keeps ?_ ?_
    | with_reducible refine ite_keeps (fun _ => ?_) (fun _ => ?_)
    | with_reducible refine iteOut_keeps (fun _ => ?_) (fun _ => ?_)
    | with_reducible refine foldl_keeps (fun _ _ _ => ?_) ?_
    | with_reducible refine foldl_kfst (fun _ _ _ => ?_) ?_
    | with_reducible refine foldl_ksnd (fun _ _ _ => ?_) ?_
    | subst x
    | with_reducible split
    | dsimp only

theorem State.showLaneDowns_keeps {am : Nat} {s₀ : State} {s : State} (ha : Sub 16 am) (hs : Keeps am s₀ s) : Keeps am s₀ (State.showLaneDowns s) := by
  unfold State.showLaneDowns
  repeat' first
    | with_reducible assumption
    | exact sub_of ha rfl
    | with_reducible refine keepsOut_next ?_
    | (lift_lets; intro x; refine (fun (hx : Keeps am s₀ x) => ?_) ?_; clear_value x)
    | (intro x; subst x)
    | with_reducible refine State.setFld_keeps ?_ ?_
    | with_reducible refine ite_keeps (fun _ => ?_) (fun _ => ?_)
    | with_reducible refine iteOut_keeps (fun _ => ?_) (fun _ => ?_)
    | with_reducible refine foldl_keeps (fun _ _ _ => ?_) ?_
    | with_reducible refine foldl_kfst (fun _ _ _ => ?_) ?_
    | with_reducible refine foldl_ksnd (fun _ _ _ => ?_) ?_
    | subst x
    | with_reducible split
    | dsimp only

theorem State.activate_keeps {am : Nat} {s₀ : State} {s : State} {b : Bool} (ha : Sub 16 am) (hs : Keeps am s₀ s) : Keeps am s₀ (State.activate s b) := by
  unfold State.activate
  repeat' first
    | with_reducible assumption
    | exact sub_of ha rfl
    | with_reducible refine keepsOut_next ?_
    | (lift_lets; intro x; refine (fun (hx : Keeps am s₀ x) => ?_) ?_; clear_value x)
    | (intro x; subst x)
    | with_reducible refine State.setBitF_keeps ?_ ?_
    | with_reducible refine State.setLane_keeps ?_ ?_
    | with_reducible refine ite_keeps (fun _ => ?_) (fun _ => ?_)
    | with_reducible refine iteOut_keeps (fun _ => ?_) (fun _ => ?_)
    | with_reducible refine foldl_keeps (fun _ _ _ => ?_) ?_
    | with_reducible refine foldl_kfst (fun _ _ _ => ?_) ?_
    | with_reducible refine foldl_ksnd (fun _ _ _ => ?_) ?_
    | subst x
    | with_reducible split
    | dsimp only

theorem State.endTick_keeps {am : Nat} {s₀ : State} {s : State} {b : Bool} (ha : Sub 268435456 am) (hs : Keeps am s₀ s) : Keeps am s₀ (State.endTick s b) := by
  unfold State.endTick
  repeat' first
    | with_reducible assumption
    | exact sub_of ha rfl
    | with_reducible refine keepsOut_next ?_
    | (lift_lets; intro x; refine (fun (hx : Keeps am s₀ x) => ?_) ?_; clear_value x)
    | (intro x; subst x)
    | with_reducible refine State.withHost_keeps ?_ ?_
    | with_reducible refine ite_keeps (fun _ => ?_) (fun _ => ?_)
    | with_reducible refine iteOut_keeps (fun _ => ?_) (fun _ => ?_)
    | with_reducible refine foldl_keeps (fun _ _ _ => ?_) ?_
    | with_reducible refine foldl_kfst (fun _ _ _ => ?_) ?_
    | with_reducible refine foldl_ksnd (fun _ _ _ => ?_) ?_
    | subst x
    | with_reducible split
    | dsimp only

theorem State.laneOff_keeps {am : Nat} {s₀ : State} {s : State} {b : Bool} {st : Nat} (ha : Sub 268435504 am) (hs : Keeps am s₀ s) : Keeps am s₀ (State.laneOff s b st) := by
  unfold State.laneOff
  repeat' first
    | with_reducible assumption
    | exact sub_of ha rfl
    | with_reducible refine keepsOut_next ?_
    | (lift_lets; intro x; refine (fun (hx : Keeps am s₀ x) => ?_) ?_; clear_value x)
    | (intro x; subst x)
    | with_reducible refine State.activate_keeps ?_ ?_
    | with_reducible refine State.endTick_keeps ?_ ?_
    | with_reducible refine State.setErr_keeps ?_ ?_
    | with_reducible refine State.setLane_keeps ?_ ?_
    | with_reducible refine State.withHost_keeps ?_ ?_
    | with_reducible refine ite_keeps (fun _ => ?_) (fun _ => ?_)
    | with_reducible refine iteOut_keeps (fun _ => ?_) (fun _ => ?_)
    | with_reducible refine foldl_keeps (fun _ _ _ => ?_) ?_
    | with_reducible refine foldl_kfst (fun _ _ _ => ?_) ?_
    | with_reducible refine foldl_ksnd (fun _ _ _ => ?_) ?_
    | subst x
    | with_reducible split
    | dsimp only

theorem State.liftLanes_keeps {am : Nat} {s₀ : State} {s : State} (ha : Sub 33554704 am) (hs : Keeps am s₀ s) : Keeps am s₀ (State.liftLanes s) := by
  unfold State.liftLanes
  repeat' first
    | with_reducible assumption
    | exact sub_of ha rfl
    | with_reducible refine keepsOut_next ?_
    | (lift_lets; intro x; refine (fun (hx : Keeps am s₀ x) => ?_) ?_; clear_value x)
    | (intro x; subst x)
    | with_reducible refine State.liftFence_keeps ?_ ?_
    | with_reducible refine State.setBitF_keeps ?_ ?_
    | with_reducible refine State.setLane_keeps ?_ ?_
    | with_reducible refine ite_keeps (fun _ => ?_) (fun _ => ?_)
    | with_reducible refine iteOut_keeps (fun _ => ?_) (fun _ => ?_)
    | with_reducible refine foldl_keeps (fun _ _ _ => ?_) ?_
    | with_reducible refine foldl_kfst (fun _ _ _ => ?_) ?_
    | with_reducible refine foldl_ksnd (fun _ _ _ => ?_) ?_
    | subst x
    | with_reducible split
    | dsimp only

theorem State.fenceLane_keeps {am : Nat} {s₀ : State} {s : State} {b : Bool} {cause : Nat} (ha : Sub 301990256 am) (hs : Keeps am s₀ s) : Keeps am s₀ (State.fenceLane s b cause) := by
  unfold State.fenceLane
  repeat' first
    | with_reducible assumption
    | exact sub_of ha rfl
    | with_reducible refine keepsOut_next ?_
    | (lift_lets; intro x; refine (fun (hx : Keeps am s₀ x) => ?_) ?_; clear_value x)
    | (intro x; subst x)
    | with_reducible refine State.fenceUnit_keeps ?_ ?_
    | with_reducible refine State.laneOff_keeps ?_ ?_
    | with_reducible refine State.liftLanes_keeps ?_ ?_
    | with_reducible refine State.noteDir_keeps ?_ ?_
    | with_reducible refine State.setBitF_keeps ?_ ?_
    | with_reducible refine State.setErr_keeps ?_ ?_
    | with_reducible refine ite_keeps (fun _ => ?_) (fun _ => ?_)
    | with_reducible refine iteOut_keeps (fun _ => ?_) (fun _ => ?_)
    | with_reducible refine foldl_keeps (fun _ _ _ => ?_) ?_
    | with_reducible refine foldl_kfst (fun _ _ _ => ?_) ?_
    | with_reducible refine foldl_ksnd (fun _ _ _ => ?_) ?_
    | subst x
    | with_reducible split
    | dsimp only

theorem State.laneDown_keeps {am : Nat} {s₀ : State} {s : State} {b : Bool} {counted : Bool} {f : Fld} (ha : Sub 301990256 am) (hs : Keeps am s₀ s) : Keeps am s₀ (State.laneDown s b counted f) := by
  unfold State.laneDown
  repeat' first
    | with_reducible assumption
    | exact sub_of ha rfl
    | with_reducible refine keepsOut_next ?_
    | (lift_lets; intro x; refine (fun (hx : Keeps am s₀ x) => ?_) ?_; clear_value x)
    | (intro x; subst x)
    | with_reducible refine State.fenceLane_keeps ?_ ?_
    | with_reducible refine State.laneOff_keeps ?_ ?_
    | with_reducible refine State.noteDir_keeps ?_ ?_
    | with_reducible refine State.putUnit_keeps ?_ ?_
    | with_reducible refine State.setErr_keeps ?_ ?_
    | with_reducible refine State.setFld_keeps ?_ ?_
    | with_reducible refine ite_keeps (fun _ => ?_) (fun _ => ?_)
    | with_reducible refine iteOut_keeps (fun _ => ?_) (fun _ => ?_)
    | with_reducible refine foldl_keeps (fun _ _ _ => ?_) ?_
    | with_reducible refine foldl_kfst (fun _ _ _ => ?_) ?_
    | with_reducible refine foldl_ksnd (fun _ _ _ => ?_) ?_
    | subst x
    | with_reducible split
    | dsimp only

theorem State.laneFails_keeps {am : Nat} {s₀ : State} {s : State} {b : Bool} (ha : Sub 301990256 am) (hs : Keeps am s₀ s) : Keeps am s₀ (State.laneFails s b) := by
  unfold State.laneFails
  repeat' first
    | with_reducible assumption
    | exact sub_of ha rfl
    | with_reducible refine keepsOut_next ?_
    | (lift_lets; intro x; refine (fun (hx : Keeps am s₀ x) => ?_) ?_; clear_value x)
    | (intro x; subst x)
    | with_reducible refine State.laneDown_keeps ?_ ?_
    | with_reducible refine ite_keeps (fun _ => ?_) (fun _ => ?_)
    | with_reducible refine iteOut_keeps (fun _ => ?_) (fun _ => ?_)
    | with_reducible refine foldl_keeps (fun _ _ _ => ?_) ?_
    | with_reducible refine foldl_kfst (fun _ _ _ => ?_) ?_
    | with_reducible refine foldl_ksnd (fun _ _ _ => ?_) ?_
    | subst x
    | with_reducible split
    | dsimp only

theorem execHlFrameGapTimeout_keeps {am : Nat} {s₀ : State} {laneB : Bool} {s : State} (ha : Sub 301990256 am) (hs : Keeps am s₀ s) : KeepsOut am s₀ (execHlFrameGapTimeout laneB s) := by
  unfold execHlFrameGapTimeout
  repeat' first
    | with_reducible assumption
    | exact sub_of ha rfl
    | with_reducible refine keepsOut_next ?_
    | (lift_lets; intro x; refine (fun (hx : Keeps am s₀ x) => ?_) ?_; clear_value x)
    | (intro x; subst x)
    | with_reducible refine State.laneFails_keeps ?_ ?_
    | with_reducible refine ite_keeps (fun _ => ?_) (fun _ => ?_)
    | with_reducible refine iteOut_keeps (fun _ => ?_) (fun _ => ?_)
    | with_reducible refine foldl_keeps (fun _ _ _ => ?_) ?_
    | with_reducible refine foldl_kfst (fun _ _ _ => ?_) ?_
    | with_reducible refine foldl_ksnd (fun _ _ _ => ?_) ?_
    | subst x
    | with_reducible split
    | dsimp only

theorem State.bootWait_keeps {am : Nat} {s₀ : State} {s : State} (ha : Sub 16 am) (hs : Keeps am s₀ s) : Keeps am s₀ (State.bootWait s) := by
  unfold State.bootWait
  repeat' first
    | with_reducible assumption
    | exact sub_of ha rfl
    | with_reducible refine keepsOut_next ?_
    | (lift_lets; intro x; refine (fun (hx : Keeps am s₀ x) => ?_) ?_; clear_value x)
    | (intro x; subst x)
    | with_reducible refine State.setFld_keeps ?_ ?_
    | with_reducible refine ite_keeps (fun _ => ?_) (fun _ => ?_)
    | with_reducible refine iteOut_keeps (fun _ => ?_) (fun _ => ?_)
    | with_reducible refine foldl_keeps (fun _ _ _ => ?_) ?_
    | with_reducible refine foldl_kfst (fun _ _ _ => ?_) ?_
    | with_reducible refine foldl_ksnd (fun _ _ _ => ?_) ?_
    | subst x
    | with_reducible split
    | dsimp only

theorem State.laneTrainFail_keeps {am : Nat} {s₀ : State} {s : State} {b : Bool} {noVersion : Bool} (ha : Sub 301990256 am) (hs : Keeps am s₀ s) : Keeps am s₀ (State.laneTrainFail s b noVersion) := by
  unfold State.laneTrainFail
  repeat' first
    | with_reducible assumption
    | exact sub_of ha rfl
    | with_reducible refine keepsOut_next ?_
    | (lift_lets; intro x; refine (fun (hx : Keeps am s₀ x) => ?_) ?_; clear_value x)
    | (intro x; subst x)
    | with_reducible refine State.activate_keeps ?_ ?_
    | with_reducible refine State.bootWait_keeps ?_ ?_
    | with_reducible refine State.laneDown_keeps ?_ ?_
    | with_reducible refine State.noteDir_keeps ?_ ?_
    | with_reducible refine ite_keeps (fun _ => ?_) (fun _ => ?_)
    | with_reducible refine iteOut_keeps (fun _ => ?_) (fun _ => ?_)
    | with_reducible refine foldl_keeps (fun _ _ _ => ?_) ?_
    | with_reducible refine foldl_kfst (fun _ _ _ => ?_) ?_
    | with_reducible refine foldl_ksnd (fun _ _ _ => ?_) ?_
    | subst x
    | with_reducible split
    | dsimp only

theorem execHlTrainFail_keeps {am : Nat} {s₀ : State} {laneB : Bool} {noVersion : Bool} {s : State} (ha : Sub 301990256 am) (hs : Keeps am s₀ s) : KeepsOut am s₀ (execHlTrainFail laneB noVersion s) := by
  unfold execHlTrainFail
  repeat' first
    | with_reducible assumption
    | exact sub_of ha rfl
    | with_reducible refine keepsOut_next ?_
    | (lift_lets; intro x; refine (fun (hx : Keeps am s₀ x) => ?_) ?_; clear_value x)
    | (intro x; subst x)
    | with_reducible refine State.laneTrainFail_keeps ?_ ?_
    | with_reducible refine ite_keeps (fun _ => ?_) (fun _ => ?_)
    | with_reducible refine iteOut_keeps (fun _ => ?_) (fun _ => ?_)
    | with_reducible refine foldl_keeps (fun _ _ _ => ?_) ?_
    | with_reducible refine foldl_kfst (fun _ _ _ => ?_) ?_
    | with_reducible refine foldl_ksnd (fun _ _ _ => ?_) ?_
    | subst x
    | with_reducible split
    | dsimp only

theorem execHlTrainDone_keeps {am : Nat} {s₀ : State} {laneB : Bool} {versions : Byte} {s : State} (ha : Sub 301990384 am) (hs : Keeps am s₀ s) : KeepsOut am s₀ (execHlTrainDone laneB versions s) := by
  unfold execHlTrainDone
  repeat' first
    | with_reducible assumption
    | exact sub_of ha rfl
    | with_reducible refine keepsOut_next ?_
    | (lift_lets; intro x; refine (fun (hx : Keeps am s₀ x) => ?_) ?_; clear_value x)
    | (intro x; subst x)
    | with_reducible refine State.activate_keeps ?_ ?_
    | with_reducible refine State.bootWait_keeps ?_ ?_
    | with_reducible refine State.endTick_keeps ?_ ?_
    | with_reducible refine State.laneTrainFail_keeps ?_ ?_
    | with_reducible refine State.noteDir_keeps ?_ ?_
    | with_reducible refine State.setFld_keeps ?_ ?_
    | with_reducible refine State.setLane_keeps ?_ ?_
    | with_reducible refine State.withPlat_keeps ?_ ?_
    | with_reducible refine ite_keeps (fun _ => ?_) (fun _ => ?_)
    | with_reducible refine iteOut_keeps (fun _ => ?_) (fun _ => ?_)
    | with_reducible refine foldl_keeps (fun _ _ _ => ?_) ?_
    | with_reducible refine foldl_kfst (fun _ _ _ => ?_) ?_
    | with_reducible refine foldl_ksnd (fun _ _ _ => ?_) ?_
    | subst x
    | with_reducible split
    | dsimp only

theorem execHlRetrainTick_keeps {am : Nat} {s₀ : State} {s : State} (ha : Sub 268435472 am) (hs : Keeps am s₀ s) : KeepsOut am s₀ (execHlRetrainTick s) := by
  unfold execHlRetrainTick
  repeat' first
    | with_reducible assumption
    | exact sub_of ha rfl
    | with_reducible refine keepsOut_next ?_
    | (lift_lets; intro x; refine (fun (hx : Keeps am s₀ x) => ?_) ?_; clear_value x)
    | (intro x; subst x)
    | with_reducible refine State.setLane_keeps ?_ ?_
    | with_reducible refine State.withHost_keeps ?_ ?_
    | with_reducible refine ite_keeps (fun _ => ?_) (fun _ => ?_)
    | with_reducible refine iteOut_keeps (fun _ => ?_) (fun _ => ?_)
    | with_reducible refine foldl_keeps (fun _ _ _ => ?_) ?_
    | with_reducible refine foldl_kfst (fun _ _ _ => ?_) ?_
    | with_reducible refine foldl_ksnd (fun _ _ _ => ?_) ?_
    | subst x
    | with_reducible split
    | dsimp only

theorem execHlkSwap_keeps {am : Nat} {s₀ : State} {s : State} (ha : Sub 48 am) (hs : Keeps am s₀ s) : KeepsOut am s₀ (execHlkSwap s) := by
  unfold execHlkSwap
  repeat' first
    | with_reducible assumption
    | exact sub_of ha rfl
    | with_reducible refine keepsOut_next ?_
    | (lift_lets; intro x; refine (fun (hx : Keeps am s₀ x) => ?_) ?_; clear_value x)
    | (intro x; subst x)
    | with_reducible refine State.activate_keeps ?_ ?_
    | with_reducible refine State.badSeq_keeps ?_ ?_
    | with_reducible refine State.noteDir_keeps ?_ ?_
    | with_reducible refine State.setLane_keeps ?_ ?_
    | with_reducible refine ite_keeps (fun _ => ?_) (fun _ => ?_)
    | with_reducible refine iteOut_keeps (fun _ => ?_) (fun _ => ?_)
    | with_reducible refine foldl_keeps (fun _ _ _ => ?_) ?_
    | with_reducible refine foldl_kfst (fun _ _ _ => ?_) ?_
    | with_reducible refine foldl_ksnd (fun _ _ _ => ?_) ?_
    | subst x
    | with_reducible split
    | dsimp only

theorem execHlkRetrain_keeps {am : Nat} {s₀ : State} {laneB : Bool} {s : State} (ha : Sub 33554736 am) (hs : Keeps am s₀ s) : KeepsOut am s₀ (execHlkRetrain laneB s) := by
  unfold execHlkRetrain
  repeat' first
    | with_reducible assumption
    | exact sub_of ha rfl
    | with_reducible refine keepsOut_next ?_
    | (lift_lets; intro x; refine (fun (hx : Keeps am s₀ x) => ?_) ?_; clear_value x)
    | (intro x; subst x)
    | with_reducible refine State.badSeq_keeps ?_ ?_
    | with_reducible refine State.liftFence_keeps ?_ ?_
    | with_reducible refine State.setBitF_keeps ?_ ?_
    | with_reducible refine State.setLane_keeps ?_ ?_
    | with_reducible refine ite_keeps (fun _ => ?_) (fun _ => ?_)
    | with_reducible refine iteOut_keeps (fun _ => ?_) (fun _ => ?_)
    | with_reducible refine foldl_keeps (fun _ _ _ => ?_) ?_
    | with_reducible refine foldl_kfst (fun _ _ _ => ?_) ?_
    | with_reducible refine foldl_ksnd (fun _ _ _ => ?_) ?_
    | subst x
    | with_reducible split
    | dsimp only

theorem execHlkFence_keeps {am : Nat} {s₀ : State} {laneB : Bool} {s : State} (ha : Sub 301990256 am) (hs : Keeps am s₀ s) : KeepsOut am s₀ (execHlkFence laneB s) := by
  unfold execHlkFence
  repeat' first
    | with_reducible assumption
    | exact sub_of ha rfl
    | with_reducible refine keepsOut_next ?_
    | (lift_lets; intro x; refine (fun (hx : Keeps am s₀ x) => ?_) ?_; clear_value x)
    | (intro x; subst x)
    | with_reducible refine State.fenceLane_keeps ?_ ?_
    | with_reducible refine ite_keeps (fun _ => ?_) (fun _ => ?_)
    | with_reducible refine iteOut_keeps (fun _ => ?_) (fun _ => ?_)
    | with_reducible refine foldl_keeps (fun _ _ _ => ?_) ?_
    | with_reducible refine foldl_kfst (fun _ _ _ => ?_) ?_
    | with_reducible refine foldl_ksnd (fun _ _ _ => ?_) ?_
    | subst x
    | with_reducible split
    | dsimp only

theorem execHlkCntRead_keeps {am : Nat} {s₀ : State} {s : State} (ha : Sub 20 am) (hs : Keeps am s₀ s) : KeepsOut am s₀ (execHlkCntRead s) := by
  unfold execHlkCntRead
  repeat' first
    | with_reducible assumption
    | exact sub_of ha rfl
    | with_reducible refine keepsOut_next ?_
    | (lift_lets; intro x; refine (fun (hx : Keeps am s₀ x) => ?_) ?_; clear_value x)
    | (intro x; subst x)
    | with_reducible refine State.readClear_keeps ?_ ?_
    | with_reducible refine ite_keeps (fun _ => ?_) (fun _ => ?_)
    | with_reducible refine iteOut_keeps (fun _ => ?_) (fun _ => ?_)
    | with_reducible refine foldl_keeps (fun _ _ _ => ?_) ?_
    | with_reducible refine foldl_kfst (fun _ _ _ => ?_) ?_
    | with_reducible refine foldl_ksnd (fun _ _ _ => ?_) ?_
    | subst x
    | with_reducible split
    | dsimp only

theorem execSqCfgWrite_keeps {am : Nat} {s₀ : State} {q : Fin 256} {data : W64} {s : State} (ha : Sub 48 am) (hs : Keeps am s₀ s) : KeepsOut am s₀ (execSqCfgWrite q data s) := by
  unfold execSqCfgWrite
  repeat' first
    | with_reducible assumption
    | exact sub_of ha rfl
    | with_reducible refine keepsOut_next ?_
    | (lift_lets; intro x; refine (fun (hx : Keeps am s₀ x) => ?_) ?_; clear_value x)
    | (intro x; subst x)
    | with_reducible refine State.badSeq_keeps ?_ ?_
    | with_reducible refine State.lockedWrite_keeps ?_ ?_
    | with_reducible refine State.plainWrite_keeps ?_ ?_
    | with_reducible refine State.setBitF_keeps ?_ ?_
    | with_reducible refine ite_keeps (fun _ => ?_) (fun _ => ?_)
    | with_reducible refine iteOut_keeps (fun _ => ?_) (fun _ => ?_)
    | with_reducible refine foldl_keeps (fun _ _ _ => ?_) ?_
    | with_reducible refine foldl_kfst (fun _ _ _ => ?_) ?_
    | with_reducible refine foldl_ksnd (fun _ _ _ => ?_) ?_
    | subst x
    | with_reducible split
    | dsimp only

theorem execWmarkWrite_keeps {am : Nat} {s₀ : State} {s : State} (ha : Sub 33554704 am) (hs : Keeps am s₀ s) : KeepsOut am s₀ (execWmarkWrite s) := by
  unfold execWmarkWrite
  repeat' first
    | with_reducible assumption
    | exact sub_of ha rfl
    | with_reducible refine keepsOut_next ?_
    | (lift_lets; intro x; refine (fun (hx : Keeps am s₀ x) => ?_) ?_; clear_value x)
    | (intro x; subst x)
    | with_reducible refine State.storeWmark_keeps ?_ ?_
    | with_reducible refine ite_keeps (fun _ => ?_) (fun _ => ?_)
    | with_reducible refine iteOut_keeps (fun _ => ?_) (fun _ => ?_)
    | with_reducible refine foldl_keeps (fun _ _ _ => ?_) ?_
    | with_reducible refine foldl_kfst (fun _ _ _ => ?_) ?_
    | with_reducible refine foldl_ksnd (fun _ _ _ => ?_) ?_
    | subst x
    | with_reducible split
    | dsimp only

theorem State.injectErr_keeps {am : Nat} {s₀ : State} {s : State} {page : Nat} {data : W64} (ha : Sub 48 am) (hs : Keeps am s₀ s) : Keeps am s₀ (State.injectErr s page data) := by
  unfold State.injectErr
  repeat' first
    | with_reducible assumption
    | exact sub_of ha rfl
    | with_reducible refine keepsOut_next ?_
    | (lift_lets; intro x; refine (fun (hx : Keeps am s₀ x) => ?_) ?_; clear_value x)
    | (intro x; subst x)
    | with_reducible refine State.setErrBit_keeps ?_ ?_
    | with_reducible refine ite_keeps (fun _ => ?_) (fun _ => ?_)
    | with_reducible refine iteOut_keeps (fun _ => ?_) (fun _ => ?_)
    | with_reducible refine foldl_keeps (fun _ _ _ => ?_) ?_
    | with_reducible refine foldl_kfst (fun _ _ _ => ?_) ?_
    | with_reducible refine foldl_ksnd (fun _ _ _ => ?_) ?_
    | subst x
    | with_reducible split
    | dsimp only

theorem execErrInject_keeps {am : Nat} {s₀ : State} {page : BitVec 14} {data : W64} {s : State} (ha : Sub 48 am) (hs : Keeps am s₀ s) : KeepsOut am s₀ (execErrInject page data s) := by
  unfold execErrInject
  repeat' first
    | with_reducible assumption
    | exact sub_of ha rfl
    | with_reducible refine keepsOut_next ?_
    | (lift_lets; intro x; refine (fun (hx : Keeps am s₀ x) => ?_) ?_; clear_value x)
    | (intro x; subst x)
    | with_reducible refine State.injectErr_keeps ?_ ?_
    | with_reducible refine ite_keeps (fun _ => ?_) (fun _ => ?_)
    | with_reducible refine iteOut_keeps (fun _ => ?_) (fun _ => ?_)
    | with_reducible refine foldl_keeps (fun _ _ _ => ?_) ?_
    | with_reducible refine foldl_kfst (fun _ _ _ => ?_) ?_
    | with_reducible refine foldl_ksnd (fun _ _ _ => ?_) ?_
    | subst x
    | with_reducible split
    | dsimp only

theorem State.writeEvtSel_keeps {am : Nat} {s₀ : State} {s : State} {page : Nat} {data : W64} (ha : Sub 16 am) (hs : Keeps am s₀ s) : Keeps am s₀ (State.writeEvtSel s page data) := by
  unfold State.writeEvtSel
  repeat' first
    | with_reducible assumption
    | exact sub_of ha rfl
    | with_reducible refine keepsOut_next ?_
    | (lift_lets; intro x; refine (fun (hx : Keeps am s₀ x) => ?_) ?_; clear_value x)
    | (intro x; subst x)
    | with_reducible refine State.setReg_keeps ?_ ?_
    | with_reducible refine ite_keeps (fun _ => ?_) (fun _ => ?_)
    | with_reducible refine iteOut_keeps (fun _ => ?_) (fun _ => ?_)
    | with_reducible refine foldl_keeps (fun _ _ _ => ?_) ?_
    | with_reducible refine foldl_kfst (fun _ _ _ => ?_) ?_
    | with_reducible refine foldl_ksnd (fun _ _ _ => ?_) ?_
    | subst x
    | with_reducible split
    | dsimp only

theorem execEvtSelWrite_keeps {am : Nat} {s₀ : State} {page : BitVec 14} {data : W64} {s : State} (ha : Sub 16 am) (hs : Keeps am s₀ s) : KeepsOut am s₀ (execEvtSelWrite page data s) := by
  unfold execEvtSelWrite
  repeat' first
    | with_reducible assumption
    | exact sub_of ha rfl
    | with_reducible refine keepsOut_next ?_
    | (lift_lets; intro x; refine (fun (hx : Keeps am s₀ x) => ?_) ?_; clear_value x)
    | (intro x; subst x)
    | with_reducible refine State.writeEvtSel_keeps ?_ ?_
    | with_reducible refine ite_keeps (fun _ => ?_) (fun _ => ?_)
    | with_reducible refine iteOut_keeps (fun _ => ?_) (fun _ => ?_)
    | with_reducible refine foldl_keeps (fun _ _ _ => ?_) ?_
    | with_reducible refine foldl_kfst (fun _ _ _ => ?_) ?_
    | with_reducible refine foldl_ksnd (fun _ _ _ => ?_) ?_
    | subst x
    | with_reducible split
    | dsimp only

theorem execEvtSelRead_keeps {am : Nat} {s₀ : State} {page : BitVec 14} {s : State} (ha : Sub 20 am) (hs : Keeps am s₀ s) : KeepsOut am s₀ (execEvtSelRead page s) := by
  unfold execEvtSelRead
  repeat' first
    | with_reducible assumption
    | exact sub_of ha rfl
    | with_reducible refine keepsOut_next ?_
    | (lift_lets; intro x; refine (fun (hx : Keeps am s₀ x) => ?_) ?_; clear_value x)
    | (intro x; subst x)
    | with_reducible refine State.readClear_keeps ?_ ?_
    | with_reducible refine ite_keeps (fun _ => ?_) (fun _ => ?_)
    | with_reducible refine iteOut_keeps (fun _ => ?_) (fun _ => ?_)
    | with_reducible refine foldl_keeps (fun _ _ _ => ?_) ?_
    | with_reducible refine foldl_kfst (fun _ _ _ => ?_) ?_
    | with_reducible refine foldl_ksnd (fun _ _ _ => ?_) ?_
    | subst x
    | with_reducible split
    | dsimp only

theorem State.setPhase_keeps {am : Nat} {s₀ : State} {s : State} {p : Nat} (ha : Sub 16 am) (hs : Keeps am s₀ s) : Keeps am s₀ (State.setPhase s p) := by
  unfold State.setPhase
  repeat' first
    | with_reducible assumption
    | exact sub_of ha rfl
    | with_reducible refine keepsOut_next ?_
    | (lift_lets; intro x; refine (fun (hx : Keeps am s₀ x) => ?_) ?_; clear_value x)
    | (intro x; subst x)
    | with_reducible refine State.setFld_keeps ?_ ?_
    | with_reducible refine ite_keeps (fun _ => ?_) (fun _ => ?_)
    | with_reducible refine iteOut_keeps (fun _ => ?_) (fun _ => ?_)
    | with_reducible refine foldl_keeps (fun _ _ _ => ?_) ?_
    | with_reducible refine foldl_kfst (fun _ _ _ => ?_) ?_
    | with_reducible refine foldl_ksnd (fun _ _ _ => ?_) ?_
    | subst x
    | with_reducible split
    | dsimp only

theorem State.authFail_keeps {am : Nat} {s₀ : State} {s : State} {ws : List W64} {r : Nat} (ha : Sub 33554800 am) (hs : Keeps am s₀ s) : Keeps am s₀ (State.authFail s ws r) := by
  unfold State.authFail
  repeat' first
    | with_reducible assumption
    | exact sub_of ha rfl
    | with_reducible refine keepsOut_next ?_
    | (lift_lets; intro x; refine (fun (hx : Keeps am s₀ x) => ?_) ?_; clear_value x)
    | (intro x; subst x)
    | with_reducible refine State.event_keeps ?_ ?_
    | with_reducible refine State.setErr_keeps ?_ ?_
    | with_reducible refine State.setFld_keeps ?_ ?_
    | with_reducible refine ite_keeps (fun _ => ?_) (fun _ => ?_)
    | with_reducible refine iteOut_keeps (fun _ => ?_) (fun _ => ?_)
    | with_reducible refine foldl_keeps (fun _ _ _ => ?_) ?_
    | with_reducible refine foldl_kfst (fun _ _ _ => ?_) ?_
    | with_reducible refine foldl_ksnd (fun _ _ _ => ?_) ?_
    | subst x
    | with_reducible split
    | dsimp only

theorem State.startFirmware_keeps {am : Nat} {s₀ : State} {s : State} {ws : List W64} {source : Nat} (ha : Sub 4294967312 am) (hs : Keeps am s₀ s) : Keeps am s₀ (State.startFirmware s ws source) := by
  unfold State.startFirmware
  repeat' first
    | with_reducible assumption
    | exact sub_of ha rfl
    | with_reducible refine keepsOut_next ?_
    | (lift_lets; intro x; refine (fun (hx : Keeps am s₀ x) => ?_) ?_; clear_value x)
    | (intro x; subst x)
    | with_reducible refine State.setBitF_keeps ?_ ?_
    | with_reducible refine State.setFld_keeps ?_ ?_
    | with_reducible refine State.setPhase_keeps ?_ ?_
    | with_reducible refine State.setReg_keeps ?_ ?_
    | with_reducible refine State.withBoot_keeps ?_ ?_
    | with_reducible refine ite_keeps (fun _ => ?_) (fun _ => ?_)
    | with_reducible refine iteOut_keeps (fun _ => ?_) (fun _ => ?_)
    | with_reducible refine foldl_keeps (fun _ _ _ => ?_) ?_
    | with_reducible refine foldl_kfst (fun _ _ _ => ?_) ?_
    | with_reducible refine foldl_ksnd (fun _ _ _ => ?_) ?_
    | subst x
    | with_reducible split
    | dsimp only

theorem execBootLoadBegin_keeps {am : Nat} {s₀ : State} {s : State} (ha : Sub 4294967312 am) (hs : Keeps am s₀ s) : KeepsOut am s₀ (execBootLoadBegin s) := by
  unfold execBootLoadBegin
  repeat' first
    | with_reducible assumption
    | exact sub_of ha rfl
    | with_reducible refine keepsOut_next ?_
    | (lift_lets; intro x; refine (fun (hx : Keeps am s₀ x) => ?_) ?_; clear_value x)
    | (intro x; subst x)
    | with_reducible refine State.setReg_keeps ?_ ?_
    | with_reducible refine State.withBoot_keeps ?_ ?_
    | with_reducible refine ite_keeps (fun _ => ?_) (fun _ => ?_)
    | with_reducible refine iteOut_keeps (fun _ => ?_) (fun _ => ?_)
    | with_reducible refine foldl_keeps (fun _ _ _ => ?_) ?_
    | with_reducible refine foldl_kfst (fun _ _ _ => ?_) ?_
    | with_reducible refine foldl_ksnd (fun _ _ _ => ?_) ?_
    | subst x
    | with_reducible split
    | dsimp only

theorem execBootLoaddata_keeps {am : Nat} {s₀ : State} {data : W64} {s : State} (ha : Sub 4294967312 am) (hs : Keeps am s₀ s) : KeepsOut am s₀ (execBootLoaddata data s) := by
  unfold execBootLoaddata
  repeat' first
    | with_reducible assumption
    | exact sub_of ha rfl
    | with_reducible refine keepsOut_next ?_
    | (lift_lets; intro x; refine (fun (hx : Keeps am s₀ x) => ?_) ?_; clear_value x)
    | (intro x; subst x)
    | with_reducible refine State.withBoot_keeps ?_ ?_
    | with_reducible refine State.wrapFld_keeps ?_ ?_
    | with_reducible refine ite_keeps (fun _ => ?_) (fun _ => ?_)
    | with_reducible refine iteOut_keeps (fun _ => ?_) (fun _ => ?_)
    | with_reducible refine foldl_keeps (fun _ _ _ => ?_) ?_
    | with_reducible refine foldl_kfst (fun _ _ _ => ?_) ?_
    | with_reducible refine foldl_ksnd (fun _ _ _ => ?_) ?_
    | subst x
    | with_reducible split
    | dsimp only

theorem execBootLoadEnd_keeps {am : Nat} {s₀ : State} {s : State} (ha : Sub 4294967344 am) (hs : Keeps am s₀ s) : KeepsOut am s₀ (execBootLoadEnd s) := by
  unfold execBootLoadEnd
  repeat' first
    | with_reducible assumption
    | exact sub_of ha rfl
    | with_reducible refine keepsOut_next ?_
    | (lift_lets; intro x; refine (fun (hx : Keeps am s₀ x) => ?_) ?_; clear_value x)
    | (intro x; subst x)
    | with_reducible refine State.setErr_keeps ?_ ?_
    | with_reducible refine State.setPhase_keeps ?_ ?_
    | with_reducible refine State.withBoot_keeps ?_ ?_
    | with_reducible refine ite_keeps (fun _ => ?_) (fun _ => ?_)
    | with_reducible refine iteOut_keeps (fun _ => ?_) (fun _ => ?_)
    | with_reducible refine foldl_keeps (fun _ _ _ => ?_) ?_
    | with_reducible refine foldl_kfst (fun _ _ _ => ?_) ?_
    | with_reducible refine foldl_ksnd (fun _ _ _ => ?_) ?_
    | subst x
    | with_reducible split
    | dsimp only

theorem execImageVerifyDone_keeps {am : Nat} {s₀ : State} {s : State} (ha : Sub 4328522096 am) (hs : Keeps am s₀ s) : KeepsOut am s₀ (execImageVerifyDone s) := by
  unfold execImageVerifyDone
  repeat' first
    | with_reducible assumption
    | exact sub_of ha rfl
    | with_reducible refine keepsOut_next ?_
    | (lift_lets; intro x; refine (fun (hx : Keeps am s₀ x) => ?_) ?_; clear_value x)
    | (intro x; subst x)
    | with_reducible refine State.authFail_keeps ?_ ?_
    | with_reducible refine State.setFld_keeps ?_ ?_
    | with_reducible refine State.setPhase_keeps ?_ ?_
    | with_reducible refine State.startFirmware_keeps ?_ ?_
    | with_reducible refine State.withBoot_keeps ?_ ?_
    | with_reducible refine ite_keeps (fun _ => ?_) (fun _ => ?_)
    | with_reducible refine iteOut_keeps (fun _ => ?_) (fun _ => ?_)
    | with_reducible refine foldl_keeps (fun _ _ _ => ?_) ?_
    | with_reducible refine foldl_kfst (fun _ _ _ => ?_) ?_
    | with_reducible refine foldl_ksnd (fun _ _ _ => ?_) ?_
    | subst x
    | with_reducible split
    | dsimp only

theorem State.startBurn_keeps {am : Nat} {s₀ : State} {s : State} {op : Nat} {target : Nat} {ok : Bool} (ha : Sub 4294967344 am) (hs : Keeps am s₀ s) : Keeps am s₀ (State.startBurn s op target ok) := by
  unfold State.startBurn
  repeat' first
    | with_reducible assumption
    | exact sub_of ha rfl
    | with_reducible refine keepsOut_next ?_
    | (lift_lets; intro x; refine (fun (hx : Keeps am s₀ x) => ?_) ?_; clear_value x)
    | (intro x; subst x)
    | with_reducible refine State.setErr_keeps ?_ ?_
    | with_reducible refine State.withBoot_keeps ?_ ?_
    | with_reducible refine ite_keeps (fun _ => ?_) (fun _ => ?_)
    | with_reducible refine iteOut_keeps (fun _ => ?_) (fun _ => ?_)
    | with_reducible refine foldl_keeps (fun _ _ _ => ?_) ?_
    | with_reducible refine foldl_kfst (fun _ _ _ => ?_) ?_
    | with_reducible refine foldl_ksnd (fun _ _ _ => ?_) ?_
    | subst x
    | with_reducible split
    | dsimp only

theorem execFuseRaiseSvn_keeps {am : Nat} {s₀ : State} {target : Byte} {s : State} (ha : Sub 4294967344 am) (hs : Keeps am s₀ s) : KeepsOut am s₀ (execFuseRaiseSvn target s) := by
  unfold execFuseRaiseSvn
  repeat' first
    | with_reducible assumption
    | exact sub_of ha rfl
    | with_reducible refine keepsOut_next ?_
    | (lift_lets; intro x; refine (fun (hx : Keeps am s₀ x) => ?_) ?_; clear_value x)
    | (intro x; subst x)
    | with_reducible refine State.startBurn_keeps ?_ ?_
    | with_reducible refine ite_keeps (fun _ => ?_) (fun _ => ?_)
    | with_reducible refine iteOut_keeps (fun _ => ?_) (fun _ => ?_)
    | with_reducible refine foldl_keeps (fun _ _ _ => ?_) ?_
    | with_reducible refine foldl_kfst (fun _ _ _ => ?_) ?_
    | with_reducible refine foldl_ksnd (fun _ _ _ => ?_) ?_
    | subst x
    | with_reducible split
    | dsimp only

theorem execFuseRevoke_keeps {am : Nat} {s₀ : State} {slot : Byte} {s : State} (ha : Sub 4294967344 am) (hs : Keeps am s₀ s) : KeepsOut am s₀ (execFuseRevoke slot s) := by
  unfold execFuseRevoke
  repeat' first
    | with_reducible assumption
    | exact sub_of ha rfl
    | with_reducible refine keepsOut_next ?_
    | (lift_lets; intro x; refine (fun (hx : Keeps am s₀ x) => ?_) ?_; clear_value x)
    | (intro x; subst x)
    | with_reducible refine State.startBurn_keeps ?_ ?_
    | with_reducible refine ite_keeps (fun _ => ?_) (fun _ => ?_)
    | with_reducible refine iteOut_keeps (fun _ => ?_) (fun _ => ?_)
    | with_reducible refine foldl_keeps (fun _ _ _ => ?_) ?_
    | with_reducible refine foldl_kfst (fun _ _ _ => ?_) ?_
    | with_reducible refine foldl_ksnd (fun _ _ _ => ?_) ?_
    | subst x
    | with_reducible split
    | dsimp only

theorem execFuseBurnDone_keeps {am : Nat} {s₀ : State} {readBackOk : Bool} {s : State} (ha : Sub 4328522096 am) (hs : Keeps am s₀ s) : KeepsOut am s₀ (execFuseBurnDone readBackOk s) := by
  unfold execFuseBurnDone
  repeat' first
    | with_reducible assumption
    | exact sub_of ha rfl
    | with_reducible refine keepsOut_next ?_
    | (lift_lets; intro x; refine (fun (hx : Keeps am s₀ x) => ?_) ?_; clear_value x)
    | (intro x; subst x)
    | with_reducible refine State.event_keeps ?_ ?_
    | with_reducible refine State.setErr_keeps ?_ ?_
    | with_reducible refine State.withBoot_keeps ?_ ?_
    | with_reducible refine ite_keeps (fun _ => ?_) (fun _ => ?_)
    | with_reducible refine iteOut_keeps (fun _ => ?_) (fun _ => ?_)
    | with_reducible refine foldl_keeps (fun _ _ _ => ?_) ?_
    | with_reducible refine foldl_kfst (fun _ _ _ => ?_) ?_
    | with_reducible refine foldl_ksnd (fun _ _ _ => ?_) ?_
    | subst x
    | with_reducible split
    | dsimp only

theorem State.endAttest_keeps {am : Nat} {s₀ : State} {s : State} {result : Nat} (ha : Sub 4294967312 am) (hs : Keeps am s₀ s) : Keeps am s₀ (State.endAttest s result) := by
  unfold State.endAttest
  repeat' first
    | with_reducible assumption
    | exact sub_of ha rfl
    | with_reducible refine keepsOut_next ?_
    | (lift_lets; intro x; refine (fun (hx : Keeps am s₀ x) => ?_) ?_; clear_value x)
    | (intro x; subst x)
    | with_reducible refine State.setBitF_keeps ?_ ?_
    | with_reducible refine State.setFld_keeps ?_ ?_
    | with_reducible refine State.withBoot_keeps ?_ ?_
    | with_reducible refine ite_keeps (fun _ => ?_) (fun _ => ?_)
    | with_reducible refine iteOut_keeps (fun _ => ?_) (fun _ => ?_)
    | with_reducible refine foldl_keeps (fun _ _ _ => ?_) ?_
    | with_reducible refine foldl_kfst (fun _ _ _ => ?_) ?_
    | with_reducible refine foldl_ksnd (fun _ _ _ => ?_) ?_
    | subst x
    | with_reducible split
    | dsimp only

theorem execIdtreeDone_keeps {am : Nat} {s₀ : State} {s : State} (ha : Sub 4328522096 am) (hs : Keeps am s₀ s) : KeepsOut am s₀ (execIdtreeDone s) := by
  unfold execIdtreeDone
  repeat' first
    | with_reducible assumption
    | exact sub_of ha rfl
    | with_reducible refine keepsOut_next ?_
    | (lift_lets; intro x; refine (fun (hx : Keeps am s₀ x) => ?_) ?_; clear_value x)
    | (intro x; subst x)
    | with_reducible refine State.endAttest_keeps ?_ ?_
    | with_reducible refine State.event_keeps ?_ ?_
    | with_reducible refine State.setBitF_keeps ?_ ?_
    | with_reducible refine State.setErr_keeps ?_ ?_
    | with_reducible refine State.setReg_keeps ?_ ?_
    | with_reducible refine State.withBoot_keeps ?_ ?_
    | with_reducible refine ite_keeps (fun _ => ?_) (fun _ => ?_)
    | with_reducible refine iteOut_keeps (fun _ => ?_) (fun _ => ?_)
    | with_reducible refine foldl_keeps (fun _ _ _ => ?_) ?_
    | with_reducible refine foldl_kfst (fun _ _ _ => ?_) ?_
    | with_reducible refine foldl_ksnd (fun _ _ _ => ?_) ?_
    | subst x
    | with_reducible split
    | dsimp only

theorem State.reserveLeaf_keeps {am : Nat} {s₀ : State} {s : State} (ha : Sub 4328522000 am) (hs : Keeps am s₀ s) : Keeps am s₀ (State.reserveLeaf s) := by
  unfold State.reserveLeaf
  repeat' first
    | with_reducible assumption
    | exact sub_of ha rfl
    | with_reducible refine keepsOut_next ?_
    | (lift_lets; intro x; refine (fun (hx : Keeps am s₀ x) => ?_) ?_; clear_value x)
    | (intro x; subst x)
    | with_reducible refine State.sstAdd_keeps ?_ ?_
    | with_reducible refine State.withBoot_keeps ?_ ?_
    | with_reducible refine ite_keeps (fun _ => ?_) (fun _ => ?_)
    | with_reducible refine iteOut_keeps (fun _ => ?_) (fun _ => ?_)
    | with_reducible refine foldl_keeps (fun _ _ _ => ?_) ?_
    | with_reducible refine foldl_kfst (fun _ _ _ => ?_) ?_
    | with_reducible refine foldl_ksnd (fun _ _ _ => ?_) ?_
    | subst x
    | with_reducible split
    | dsimp only

theorem execAttestGo_keeps {am : Nat} {s₀ : State} {s : State} (ha : Sub 4328522032 am) (hs : Keeps am s₀ s) : KeepsOut am s₀ (execAttestGo s) := by
  unfold execAttestGo
  repeat' first
    | with_reducible assumption
    | exact sub_of ha rfl
    | with_reducible refine keepsOut_next ?_
    | (lift_lets; intro x; refine (fun (hx : Keeps am s₀ x) => ?_) ?_; clear_value x)
    | (intro x; subst x)
    | with_reducible refine State.endAttest_keeps ?_ ?_
    | with_reducible refine State.reserveLeaf_keeps ?_ ?_
    | with_reducible refine State.setBitF_keeps ?_ ?_
    | with_reducible refine State.setErr_keeps ?_ ?_
    | with_reducible refine State.withBoot_keeps ?_ ?_
    | with_reducible refine ite_keeps (fun _ => ?_) (fun _ => ?_)
    | with_reducible refine iteOut_keeps (fun _ => ?_) (fun _ => ?_)
    | with_reducible refine foldl_keeps (fun _ _ _ => ?_) ?_
    | with_reducible refine foldl_kfst (fun _ _ _ => ?_) ?_
    | with_reducible refine foldl_ksnd (fun _ _ _ => ?_) ?_
    | subst x
    | with_reducible split
    | dsimp only

theorem State.useLeaf_keeps {am : Nat} {s₀ : State} {s : State} {leaf : Nat} (ha : Sub 33554800 am) (hs : Keeps am s₀ s) : Keeps am s₀ (State.useLeaf s leaf) := by
  unfold State.useLeaf
  repeat' first
    | with_reducible assumption
    | exact sub_of ha rfl
    | with_reducible refine keepsOut_next ?_
    | (lift_lets; intro x; refine (fun (hx : Keeps am s₀ x) => ?_) ?_; clear_value x)
    | (intro x; subst x)
    | with_reducible refine State.event_keeps ?_ ?_
    | with_reducible refine State.setErr_keeps ?_ ?_
    | with_reducible refine State.setFld_keeps ?_ ?_
    | with_reducible refine ite_keeps (fun _ => ?_) (fun _ => ?_)
    | with_reducible refine iteOut_keeps (fun _ => ?_) (fun _ => ?_)
    | with_reducible refine foldl_keeps (fun _ _ _ => ?_) ?_
    | with_reducible refine foldl_kfst (fun _ _ _ => ?_) ?_
    | with_reducible refine foldl_ksnd (fun _ _ _ => ?_) ?_
    | subst x
    | with_reducible split
    | dsimp only

theorem execAttestDone_keeps {am : Nat} {s₀ : State} {s : State} (ha : Sub 4328522096 am) (hs : Keeps am s₀ s) : KeepsOut am s₀ (execAttestDone s) := by
  unfold execAttestDone
  repeat' first
    | with_reducible assumption
    | exact sub_of ha rfl
    | with_reducible refine keepsOut_next ?_
    | (lift_lets; intro x; refine (fun (hx : Keeps am s₀ x) => ?_) ?_; clear_value x)
    | (intro x; subst x)
    | with_reducible refine State.endAttest_keeps ?_ ?_
    | with_reducible refine State.useLeaf_keeps ?_ ?_
    | with_reducible refine State.withBoot_keeps ?_ ?_
    | with_reducible refine ite_keeps (fun _ => ?_) (fun _ => ?_)
    | with_reducible refine iteOut_keeps (fun _ => ?_) (fun _ => ?_)
    | with_reducible refine foldl_keeps (fun _ _ _ => ?_) ?_
    | with_reducible refine foldl_kfst (fun _ _ _ => ?_) ?_
    | with_reducible refine foldl_ksnd (fun _ _ _ => ?_) ?_
    | subst x
    | with_reducible split
    | dsimp only

theorem execSecRselWrite_keeps {am : Nat} {s₀ : State} {s : State} (ha : Sub 4294967296 am) (hs : Keeps am s₀ s) : KeepsOut am s₀ (execSecRselWrite s) := by
  unfold execSecRselWrite
  repeat' first
    | with_reducible assumption
    | exact sub_of ha rfl
    | with_reducible refine keepsOut_next ?_
    | (lift_lets; intro x; refine (fun (hx : Keeps am s₀ x) => ?_) ?_; clear_value x)
    | (intro x; subst x)
    | with_reducible refine State.withBoot_keeps ?_ ?_
    | with_reducible refine ite_keeps (fun _ => ?_) (fun _ => ?_)
    | with_reducible refine iteOut_keeps (fun _ => ?_) (fun _ => ?_)
    | with_reducible refine foldl_keeps (fun _ _ _ => ?_) ?_
    | with_reducible refine foldl_kfst (fun _ _ _ => ?_) ?_
    | with_reducible refine foldl_ksnd (fun _ _ _ => ?_) ?_
    | subst x
    | with_reducible split
    | dsimp only

theorem execSecRdataRead_keeps {am : Nat} {s₀ : State} {s : State} (ha : Sub 4294967300 am) (hs : Keeps am s₀ s) : KeepsOut am s₀ (execSecRdataRead s) := by
  unfold execSecRdataRead
  repeat' first
    | with_reducible assumption
    | exact sub_of ha rfl
    | with_reducible refine keepsOut_next ?_
    | (lift_lets; intro x; refine (fun (hx : Keeps am s₀ x) => ?_) ?_; clear_value x)
    | (intro x; subst x)
    | with_reducible refine State.out_keeps ?_ ?_
    | with_reducible refine State.withBoot_keeps ?_ ?_
    | with_reducible refine ite_keeps (fun _ => ?_) (fun _ => ?_)
    | with_reducible refine iteOut_keeps (fun _ => ?_) (fun _ => ?_)
    | with_reducible refine foldl_keeps (fun _ _ _ => ?_) ?_
    | with_reducible refine foldl_kfst (fun _ _ _ => ?_) ?_
    | with_reducible refine foldl_ksnd (fun _ _ _ => ?_) ?_
    | subst x
    | with_reducible split
    | dsimp only

theorem State.newChal_keeps {am : Nat} {s₀ : State} {s : State} (ha : Sub 18 am) (hs : Keeps am s₀ s) : Keeps am s₀ (State.newChal s) := by
  unfold State.newChal
  repeat' first
    | with_reducible assumption
    | exact sub_of ha rfl
    | with_reducible refine keepsOut_next ?_
    | (lift_lets; intro x; refine (fun (hx : Keeps am s₀ x) => ?_) ?_; clear_value x)
    | (intro x; subst x)
    | with_reducible refine State.draw_keeps ?_ ?_
    | with_reducible refine State.setReg_keeps ?_ ?_
    | with_reducible refine State.draw_keeps_eq ?_ (by with_reducible assumption) ?_
    | with_reducible refine ite_keeps (fun _ => ?_) (fun _ => ?_)
    | with_reducible refine iteOut_keeps (fun _ => ?_) (fun _ => ?_)
    | with_reducible refine foldl_keeps (fun _ _ _ => ?_) ?_
    | with_reducible refine foldl_kfst (fun _ _ _ => ?_) ?_
    | with_reducible refine foldl_ksnd (fun _ _ _ => ?_) ?_
    | subst x
    | with_reducible split
    | dsimp only

theorem State.tokenBytes_keeps {am : Nat} {s₀ : State} {s : State} {d : Nat} {bs : List Byte} (ha : Sub 4294967346 am) (hs : Keeps am s₀ s) : Keeps am s₀ (State.tokenBytes s d bs) := by
  unfold State.tokenBytes
  repeat' first
    | with_reducible assumption
    | exact sub_of ha rfl
    | with_reducible refine keepsOut_next ?_
    | (lift_lets; intro x; refine (fun (hx : Keeps am s₀ x) => ?_) ?_; clear_value x)
    | (intro x; subst x)
    | with_reducible refine State.newChal_keeps ?_ ?_
    | with_reducible refine State.setErr_keeps ?_ ?_
    | with_reducible refine State.withBoot_keeps ?_ ?_
    | with_reducible refine ite_keeps (fun _ => ?_) (fun _ => ?_)
    | with_reducible refine iteOut_keeps (fun _ => ?_) (fun _ => ?_)
    | with_reducible refine foldl_keeps (fun _ _ _ => ?_) ?_
    | with_reducible refine foldl_kfst (fun _ _ _ => ?_) ?_
    | with_reducible refine foldl_ksnd (fun _ _ _ => ?_) ?_
    | subst x
    | with_reducible split
    | dsimp only

theorem execTstTokenWrite_keeps {am : Nat} {s₀ : State} {data : W64} {s : State} (ha : Sub 4294967346 am) (hs : Keeps am s₀ s) : KeepsOut am s₀ (execTstTokenWrite data s) := by
  unfold execTstTokenWrite
  repeat' first
    | with_reducible assumption
    | exact sub_of ha rfl
    | with_reducible refine keepsOut_next ?_
    | (lift_lets; intro x; refine (fun (hx : Keeps am s₀ x) => ?_) ?_; clear_value x)
    | (intro x; subst x)
    | with_reducible refine State.tokenBytes_keeps ?_ ?_
    | with_reducible refine ite_keeps (fun _ => ?_) (fun _ => ?_)
    | with_reducible refine iteOut_keeps (fun _ => ?_) (fun _ => ?_)
    | with_reducible refine foldl_keeps (fun _ _ _ => ?_) ?_
    | with_reducible refine foldl_kfst (fun _ _ _ => ?_) ?_
    | with_reducible refine foldl_ksnd (fun _ _ _ => ?_) ?_
    | subst x
    | with_reducible split
    | dsimp only

theorem execTestEnter_keeps {am : Nat} {s₀ : State} {d : Die} {dies : BitVec 4} {s : State} (ha : Sub 4596957680 am) (hs : Keeps am s₀ s) : KeepsOut am s₀ (execTestEnter d dies s) := by
  unfold execTestEnter
  repeat' first
    | with_reducible assumption
    | exact sub_of ha rfl
    | with_reducible refine keepsOut_next ?_
    | (lift_lets; intro x; refine (fun (hx : Keeps am s₀ x) => ?_) ?_; clear_value x)
    | (intro x; subst x)
    | with_reducible refine State.event_keeps ?_ ?_
    | with_reducible refine State.laneOff_keeps ?_ ?_
    | with_reducible refine State.noteDir_keeps ?_ ?_
    | with_reducible refine State.setBitF_keeps ?_ ?_
    | with_reducible refine State.setErr_keeps ?_ ?_
    | with_reducible refine State.setFld_keeps ?_ ?_
    | with_reducible refine State.setPhase_keeps ?_ ?_
    | with_reducible refine State.setReg_keeps ?_ ?_
    | with_reducible refine State.withBoot_keeps ?_ ?_
    | with_reducible refine State.withPlat_keeps ?_ ?_
    | with_reducible refine ite_keeps (fun _ => ?_) (fun _ => ?_)
    | with_reducible refine iteOut_keeps (fun _ => ?_) (fun _ => ?_)
    | with_reducible refine foldl_keeps (fun _ _ _ => ?_) ?_
    | with_reducible refine foldl_kfst (fun _ _ _ => ?_) ?_
    | with_reducible refine foldl_ksnd (fun _ _ _ => ?_) ?_
    | subst x
    | with_reducible split
    | dsimp only

theorem execTestDone_keeps {am : Nat} {s₀ : State} {d : Die} {res0 : BitVec 35} {res1 : W32} {s : State} (ha : Sub 16 am) (hs : Keeps am s₀ s) : KeepsOut am s₀ (execTestDone d res0 res1 s) := by
  unfold execTestDone
  repeat' first
    | with_reducible assumption
    | exact sub_of ha rfl
    | with_reducible refine keepsOut_next ?_
    | (lift_lets; intro x; refine (fun (hx : Keeps am s₀ x) => ?_) ?_; clear_value x)
    | (intro x; subst x)
    | with_reducible refine State.setReg_keeps ?_ ?_
    | with_reducible refine ite_keeps (fun _ => ?_) (fun _ => ?_)
    | with_reducible refine iteOut_keeps (fun _ => ?_) (fun _ => ?_)
    | with_reducible refine foldl_keeps (fun _ _ _ => ?_) ?_
    | with_reducible refine foldl_kfst (fun _ _ _ => ?_) ?_
    | with_reducible refine foldl_ksnd (fun _ _ _ => ?_) ?_
    | subst x
    | with_reducible split
    | dsimp only

theorem State.showFence_keeps {am : Nat} {s₀ : State} {s : State} {page : Nat} {state : Fld} {key : Nat} (ha : Sub 16 am) (hs : Keeps am s₀ s) : Keeps am s₀ (State.showFence s page state key) := by
  unfold State.showFence
  repeat' first
    | with_reducible assumption
    | exact sub_of ha rfl
    | with_reducible refine keepsOut_next ?_
    | (lift_lets; intro x; refine (fun (hx : Keeps am s₀ x) => ?_) ?_; clear_value x)
    | (intro x; subst x)
    | with_reducible refine State.setBitF_keeps ?_ ?_
    | with_reducible refine State.setFld_keeps ?_ ?_
    | with_reducible refine ite_keeps (fun _ => ?_) (fun _ => ?_)
    | with_reducible refine iteOut_keeps (fun _ => ?_) (fun _ => ?_)
    | with_reducible refine foldl_keeps (fun _ _ _ => ?_) ?_
    | with_reducible refine foldl_kfst (fun _ _ _ => ?_) ?_
    | with_reducible refine foldl_ksnd (fun _ _ _ => ?_) ?_
    | subst x
    | with_reducible split
    | dsimp only

theorem State.showStrikeLog_keeps {am : Nat} {s₀ : State} {s : State} {e : Nat} (ha : Sub 16 am) (hs : Keeps am s₀ s) : Keeps am s₀ (State.showStrikeLog s e) := by
  unfold State.showStrikeLog
  repeat' first
    | with_reducible assumption
    | exact sub_of ha rfl
    | with_reducible refine keepsOut_next ?_
    | (lift_lets; intro x; refine (fun (hx : Keeps am s₀ x) => ?_) ?_; clear_value x)
    | (intro x; subst x)
    | with_reducible refine State.setReg_keeps ?_ ?_
    | with_reducible refine State.showStrikes_keeps ?_ ?_
    | with_reducible refine ite_keeps (fun _ => ?_) (fun _ => ?_)
    | with_reducible refine iteOut_keeps (fun _ => ?_) (fun _ => ?_)
    | with_reducible refine foldl_keeps (fun _ _ _ => ?_) ?_
    | with_reducible refine foldl_kfst (fun _ _ _ => ?_) ?_
    | with_reducible refine foldl_ksnd (fun _ _ _ => ?_) ?_
    | subst x
    | with_reducible split
    | dsimp only

theorem State.showHistory_keeps {am : Nat} {s₀ : State} {s : State} (ha : Sub 16 am) (hs : Keeps am s₀ s) : Keeps am s₀ (State.showHistory s) := by
  unfold State.showHistory
  repeat' first
    | with_reducible assumption
    | exact sub_of ha rfl
    | with_reducible refine keepsOut_next ?_
    | (lift_lets; intro x; refine (fun (hx : Keeps am s₀ x) => ?_) ?_; clear_value x)
    | (intro x; subst x)
    | with_reducible refine State.setBitF_keeps ?_ ?_
    | with_reducible refine State.setFld_keeps ?_ ?_
    | with_reducible refine State.setLane_keeps ?_ ?_
    | with_reducible refine State.setLnk_keeps ?_ ?_
    | with_reducible refine State.showFence_keeps ?_ ?_
    | with_reducible refine State.showLaneDowns_keeps ?_ ?_
    | with_reducible refine State.showStrikeLog_keeps ?_ ?_
    | with_reducible refine ite_keeps (fun _ => ?_) (fun _ => ?_)
    | with_reducible refine iteOut_keeps (fun _ => ?_) (fun _ => ?_)
    | with_reducible refine foldl_keeps (fun _ _ _ => ?_) ?_
    | with_reducible refine foldl_kfst (fun _ _ _ => ?_) ?_
    | with_reducible refine foldl_ksnd (fun _ _ _ => ?_) ?_
    | subst x
    | with_reducible split
    | dsimp only

theorem State.showMemFences_keeps {am : Nat} {s₀ : State} {s : State} (ha : Sub 16 am) (hs : Keeps am s₀ s) : Keeps am s₀ (State.showMemFences s) := by
  unfold State.showMemFences
  repeat' first
    | with_reducible assumption
    | exact sub_of ha rfl
    | with_reducible refine keepsOut_next ?_
    | (lift_lets; intro x; refine (fun (hx : Keeps am s₀ x) => ?_) ?_; clear_value x)
    | (intro x; subst x)
    | with_reducible refine State.setFld_keeps ?_ ?_
    | with_reducible refine State.setReg_keeps ?_ ?_
    | with_reducible refine ite_keeps (fun _ => ?_) (fun _ => ?_)
    | with_reducible refine iteOut_keeps (fun _ => ?_) (fun _ => ?_)
    | with_reducible refine foldl_keeps (fun _ _ _ => ?_) ?_
    | with_reducible refine foldl_kfst (fun _ _ _ => ?_) ?_
    | with_reducible refine foldl_ksnd (fun _ _ _ => ?_) ?_
    | subst x
    | with_reducible split
    | dsimp only

theorem State.rangeForm_keeps {am : Nat} {s₀ : State} {s : State} (ha : Sub 268435456 am) (hs : Keeps am s₀ s) : Keeps am s₀ (State.rangeForm s) := by
  unfold State.rangeForm
  repeat' first
    | with_reducible assumption
    | exact sub_of ha rfl
    | with_reducible refine keepsOut_next ?_
    | (lift_lets; intro x; refine (fun (hx : Keeps am s₀ x) => ?_) ?_; clear_value x)
    | (intro x; subst x)
    | with_reducible refine State.withHost_keeps ?_ ?_
    | with_reducible refine ite_keeps (fun _ => ?_) (fun _ => ?_)
    | with_reducible refine iteOut_keeps (fun _ => ?_) (fun _ => ?_)
    | with_reducible refine foldl_keeps (fun _ _ _ => ?_) ?_
    | with_reducible refine foldl_kfst (fun _ _ _ => ?_) ?_
    | with_reducible refine foldl_ksnd (fun _ _ _ => ?_) ?_
    | subst x
    | with_reducible split
    | dsimp only

theorem State.unfinished_keeps {am : Nat} {s₀ : State} {s : State} (ha : Sub 268435456 am) (hs : Keeps am s₀ s) : Keeps am s₀ (State.unfinished s) := by
  unfold State.unfinished
  repeat' first
    | with_reducible assumption
    | exact sub_of ha rfl
    | with_reducible refine keepsOut_next ?_
    | (lift_lets; intro x; refine (fun (hx : Keeps am s₀ x) => ?_) ?_; clear_value x)
    | (intro x; subst x)
    | with_reducible refine State.finCmd_keeps ?_ ?_
    | with_reducible refine State.rangeForm_keeps ?_ ?_
    | with_reducible refine ite_keeps (fun _ => ?_) (fun _ => ?_)
    | with_reducible refine iteOut_keeps (fun _ => ?_) (fun _ => ?_)
    | with_reducible refine foldl_keeps (fun _ _ _ => ?_) ?_
    | with_reducible refine foldl_kfst (fun _ _ _ => ?_) ?_
    | with_reducible refine foldl_ksnd (fun _ _ _ => ?_) ?_
    | subst x
    | with_reducible split
    | dsimp only

theorem State.setOos_keeps {am : Nat} {s₀ : State} {s : State} {w : W64} (ha : Sub 33554704 am) (hs : Keeps am s₀ s) : Keeps am s₀ (State.setOos s w) := by
  unfold State.setOos
  repeat' first
    | with_reducible assumption
    | exact sub_of ha rfl
    | with_reducible refine keepsOut_next ?_
    | (lift_lets; intro x; refine (fun (hx : Keeps am s₀ x) => ?_) ?_; clear_value x)
    | (intro x; subst x)
    | with_reducible refine State.setReg_keeps ?_ ?_
    | with_reducible refine State.sstAdd_keeps ?_ ?_
    | with_reducible refine ite_keeps (fun _ => ?_) (fun _ => ?_)
    | with_reducible refine iteOut_keeps (fun _ => ?_) (fun _ => ?_)
    | with_reducible refine foldl_keeps (fun _ _ _ => ?_) ?_
    | with_reducible refine foldl_kfst (fun _ _ _ => ?_) ?_
    | with_reducible refine foldl_ksnd (fun _ _ _ => ?_) ?_
    | subst x
    | with_reducible split
    | dsimp only

theorem execTaintBackstop_keeps {am : Nat} {s₀ : State} {s : State} (ha : Sub 587202928 am) (hs : Keeps am s₀ s) : KeepsOut am s₀ (execTaintBackstop s) := by
  unfold execTaintBackstop
  repeat' first
    | with_reducible assumption
    | exact sub_of ha rfl
    | with_reducible refine keepsOut_next ?_
    | (lift_lets; intro x; refine (fun (hx : Keeps am s₀ x) => ?_) ?_; clear_value x)
    | (intro x; subst x)
    | with_reducible refine State.event_keeps ?_ ?_
    | with_reducible refine State.setErr_keeps ?_ ?_
    | with_reducible refine State.taintWhole_keeps ?_ ?_
    | with_reducible refine State.withRcv_keeps ?_ ?_
    | with_reducible refine ite_keeps (fun _ => ?_) (fun _ => ?_)
    | with_reducible refine iteOut_keeps (fun _ => ?_) (fun _ => ?_)
    | with_reducible refine foldl_keeps (fun _ _ _ => ?_) ?_
    | with_reducible refine foldl_kfst (fun _ _ _ => ?_) ?_
    | with_reducible refine foldl_ksnd (fun _ _ _ => ?_) ?_
    | subst x
    | with_reducible split
    | dsimp only

theorem execAbortComplete_keeps {am : Nat} {s₀ : State} {s : State} (ha : Sub 838861168 am) (hs : Keeps am s₀ s) : KeepsOut am s₀ (execAbortComplete s) := by
  unfold execAbortComplete
  repeat' first
    | with_reducible assumption
    | exact sub_of ha rfl
    | with_reducible refine keepsOut_next ?_
    | (lift_lets; intro x; refine (fun (hx : Keeps am s₀ x) => ?_) ?_; clear_value x)
    | (intro x; subst x)
    | with_reducible refine State.finishAbort_keeps ?_ ?_
    | with_reducible refine ite_keeps (fun _ => ?_) (fun _ => ?_)
    | with_reducible refine iteOut_keeps (fun _ => ?_) (fun _ => ?_)
    | with_reducible refine foldl_keeps (fun _ _ _ => ?_) ?_
    | with_reducible refine foldl_kfst (fun _ _ _ => ?_) ?_
    | with_reducible refine foldl_ksnd (fun _ _ _ => ?_) ?_
    | subst x
    | with_reducible split
    | dsimp only

theorem execAbortRelayResend_keeps {am : Nat} {s₀ : State} {s : State} (ha : Sub 603979776 am) (hs : Keeps am s₀ s) : KeepsOut am s₀ (execAbortRelayResend s) := by
  unfold execAbortRelayResend
  repeat' first
    | with_reducible assumption
    | exact sub_of ha rfl
    | with_reducible refine keepsOut_next ?_
    | (lift_lets; intro x; refine (fun (hx : Keeps am s₀ x) => ?_) ?_; clear_value x)
    | (intro x; subst x)
    | with_reducible refine State.sendRelay_keeps ?_ ?_
    | with_reducible refine State.withRcv_keeps ?_ ?_
    | with_reducible refine ite_keeps (fun _ => ?_) (fun _ => ?_)
    | with_reducible refine iteOut_keeps (fun _ => ?_) (fun _ => ?_)
    | with_reducible refine foldl_keeps (fun _ _ _ => ?_) ?_
    | with_reducible refine foldl_kfst (fun _ _ _ => ?_) ?_
    | with_reducible refine foldl_ksnd (fun _ _ _ => ?_) ?_
    | subst x
    | with_reducible split
    | dsimp only

theorem State.enterRun_keeps {am : Nat} {s₀ : State} {s : State} (ha : Sub 16 am) (hs : Keeps am s₀ s) : Keeps am s₀ (State.enterRun s) := by
  unfold State.enterRun
  repeat' first
    | with_reducible assumption
    | exact sub_of ha rfl
    | with_reducible refine keepsOut_next ?_
    | (lift_lets; intro x; refine (fun (hx : Keeps am s₀ x) => ?_) ?_; clear_value x)
    | (intro x; subst x)
    | with_reducible refine State.setFld_keeps ?_ ?_
    | with_reducible refine State.setPhase_keeps ?_ ?_
    | with_reducible refine ite_keeps (fun _ => ?_) (fun _ => ?_)
    | with_reducible refine iteOut_keeps (fun _ => ?_) (fun _ => ?_)
    | with_reducible refine foldl_keeps (fun _ _ _ => ?_) ?_
    | with_reducible refine foldl_kfst (fun _ _ _ => ?_) ?_
    | with_reducible refine foldl_ksnd (fun _ _ _ => ?_) ?_
    | subst x
    | with_reducible split
    | dsimp only

theorem execRcvOosack_keeps {am : Nat} {s₀ : State} {evseq : W32} {s : State} (ha : Sub 33554736 am) (hs : Keeps am s₀ s) : KeepsOut am s₀ (execRcvOosack evseq s) := by
  unfold execRcvOosack
  repeat' first
    | with_reducible assumption
    | exact sub_of ha rfl
    | with_reducible refine keepsOut_next ?_
    | (lift_lets; intro x; refine (fun (hx : Keeps am s₀ x) => ?_) ?_; clear_value x)
    | (intro x; subst x)
    | with_reducible refine State.badSeq_keeps ?_ ?_
    | with_reducible refine State.setFld_keeps ?_ ?_
    | with_reducible refine State.setOos_keeps ?_ ?_
    | with_reducible refine ite_keeps (fun _ => ?_) (fun _ => ?_)
    | with_reducible refine iteOut_keeps (fun _ => ?_) (fun _ => ?_)
    | with_reducible refine foldl_keeps (fun _ _ _ => ?_) ?_
    | with_reducible refine foldl_kfst (fun _ _ _ => ?_) ?_
    | with_reducible refine foldl_ksnd (fun _ _ _ => ?_) ?_
    | subst x
    | with_reducible split
    | dsimp only

theorem execRcvJobidWrite_keeps {am : Nat} {s₀ : State} {jobid : W64} {s : State} (ha : Sub 16 am) (hs : Keeps am s₀ s) : KeepsOut am s₀ (execRcvJobidWrite jobid s) := by
  unfold execRcvJobidWrite
  repeat' first
    | with_reducible assumption
    | exact sub_of ha rfl
    | with_reducible refine keepsOut_next ?_
    | (lift_lets; intro x; refine (fun (hx : Keeps am s₀ x) => ?_) ?_; clear_value x)
    | (intro x; subst x)
    | with_reducible refine State.setReg_keeps ?_ ?_
    | with_reducible refine ite_keeps (fun _ => ?_) (fun _ => ?_)
    | with_reducible refine iteOut_keeps (fun _ => ?_) (fun _ => ?_)
    | with_reducible refine foldl_keeps (fun _ _ _ => ?_) ?_
    | with_reducible refine foldl_kfst (fun _ _ _ => ?_) ?_
    | with_reducible refine foldl_ksnd (fun _ _ _ => ?_) ?_
    | subst x
    | with_reducible split
    | dsimp only

theorem execRcvAbstatRead_keeps {am : Nat} {s₀ : State} {s : State} (ha : Sub 20 am) (hs : Keeps am s₀ s) : KeepsOut am s₀ (execRcvAbstatRead s) := by
  unfold execRcvAbstatRead
  repeat' first
    | with_reducible assumption
    | exact sub_of ha rfl
    | with_reducible refine keepsOut_next ?_
    | (lift_lets; intro x; refine (fun (hx : Keeps am s₀ x) => ?_) ?_; clear_value x)
    | (intro x; subst x)
    | with_reducible refine State.readClear_keeps ?_ ?_
    | with_reducible refine ite_keeps (fun _ => ?_) (fun _ => ?_)
    | with_reducible refine iteOut_keeps (fun _ => ?_) (fun _ => ?_)
    | with_reducible refine foldl_keeps (fun _ _ _ => ?_) ?_
    | with_reducible refine foldl_kfst (fun _ _ _ => ?_) ?_
    | with_reducible refine foldl_ksnd (fun _ _ _ => ?_) ?_
    | subst x
    | with_reducible split
    | dsimp only

theorem execDumpRead_keeps {am : Nat} {s₀ : State} {s : State} (ha : Sub 570425620 am) (hs : Keeps am s₀ s) : KeepsOut am s₀ (execDumpRead s) := by
  unfold execDumpRead
  repeat' first
    | with_reducible assumption
    | exact sub_of ha rfl
    | with_reducible refine keepsOut_next ?_
    | (lift_lets; intro x; refine (fun (hx : Keeps am s₀ x) => ?_) ?_; clear_value x)
    | (intro x; subst x)
    | with_reducible refine State.out_keeps ?_ ?_
    | with_reducible refine State.setFld_keeps ?_ ?_
    | with_reducible refine State.sstAdd_keeps ?_ ?_
    | with_reducible refine State.withRcv_keeps ?_ ?_
    | with_reducible refine ite_keeps (fun _ => ?_) (fun _ => ?_)
    | with_reducible refine iteOut_keeps (fun _ => ?_) (fun _ => ?_)
    | with_reducible refine foldl_keeps (fun _ _ _ => ?_) ?_
    | with_reducible refine foldl_kfst (fun _ _ _ => ?_) ?_
    | with_reducible refine foldl_ksnd (fun _ _ _ => ?_) ?_
    | subst x
    | with_reducible split
    | dsimp only

theorem execEvlLostRead_keeps {am : Nat} {s₀ : State} {d : Die} {s : State} (ha : Sub 20 am) (hs : Keeps am s₀ s) : KeepsOut am s₀ (execEvlLostRead d s) := by
  unfold execEvlLostRead
  repeat' first
    | with_reducible assumption
    | exact sub_of ha rfl
    | with_reducible refine keepsOut_next ?_
    | (lift_lets; intro x; refine (fun (hx : Keeps am s₀ x) => ?_) ?_; clear_value x)
    | (intro x; subst x)
    | with_reducible refine State.readClear_keeps ?_ ?_
    | with_reducible refine ite_keeps (fun _ => ?_) (fun _ => ?_)
    | with_reducible refine iteOut_keeps (fun _ => ?_) (fun _ => ?_)
    | with_reducible refine foldl_keeps (fun _ _ _ => ?_) ?_
    | with_reducible refine foldl_kfst (fun _ _ _ => ?_) ?_
    | with_reducible refine foldl_ksnd (fun _ _ _ => ?_) ?_
    | subst x
    | with_reducible split
    | dsimp only

theorem execDownWindowExpire_keeps {am : Nat} {s₀ : State} {p : Option (Fin 24)} {s : State} (ha : Sub 16 am) (hs : Keeps am s₀ s) : KeepsOut am s₀ (execDownWindowExpire p s) := by
  unfold execDownWindowExpire
  repeat' first
    | with_reducible assumption
    | exact sub_of ha rfl
    | with_reducible refine keepsOut_next ?_
    | (lift_lets; intro x; refine (fun (hx : Keeps am s₀ x) => ?_) ?_; clear_value x)
    | (intro x; subst x)
    | with_reducible refine State.setFld_keeps ?_ ?_
    | with_reducible refine State.showLaneDowns_keeps ?_ ?_
    | with_reducible refine ite_keeps (fun _ => ?_) (fun _ => ?_)
    | with_reducible refine iteOut_keeps (fun _ => ?_) (fun _ => ?_)
    | with_reducible refine foldl_keeps (fun _ _ _ => ?_) ?_
    | with_reducible refine foldl_kfst (fun _ _ _ => ?_) ?_
    | with_reducible refine foldl_ksnd (fun _ _ _ => ?_) ?_
    | subst x
    | with_reducible split
    | dsimp only

theorem State.loadDump_keeps {am : Nat} {s₀ : State} {s : State} (ha : Sub 536870914 am) (hs : Keeps am s₀ s) : Keeps am s₀ (State.loadDump s) := by
  unfold State.loadDump
  repeat' first
    | with_reducible assumption
    | exact sub_of ha rfl
    | with_reducible refine keepsOut_next ?_
    | (lift_lets; intro x; refine (fun (hx : Keeps am s₀ x) => ?_) ?_; clear_value x)
    | (intro x; subst x)
    | with_reducible refine State.withFree_keeps ?_ ?_
    | with_reducible refine State.withRcv_keeps ?_ ?_
    | with_reducible refine ite_keeps (fun _ => ?_) (fun _ => ?_)
    | with_reducible refine iteOut_keeps (fun _ => ?_) (fun _ => ?_)
    | with_reducible refine foldl_keeps (fun _ _ _ => ?_) ?_
    | with_reducible refine foldl_kfst (fun _ _ _ => ?_) ?_
    | with_reducible refine foldl_ksnd (fun _ _ _ => ?_) ?_
    | subst x
    | with_reducible split
    | dsimp only

theorem State.loadWmark_keeps {am : Nat} {s₀ : State} {s : State} (ha : Sub 268435472 am) (hs : Keeps am s₀ s) : Keeps am s₀ (State.loadWmark s) := by
  unfold State.loadWmark
  repeat' first
    | with_reducible assumption
    | exact sub_of ha rfl
    | with_reducible refine keepsOut_next ?_
    | (lift_lets; intro x; refine (fun (hx : Keeps am s₀ x) => ?_) ?_; clear_value x)
    | (intro x; subst x)
    | with_reducible refine State.setReg_keeps ?_ ?_
    | with_reducible refine State.withHost_keeps ?_ ?_
    | with_reducible refine ite_keeps (fun _ => ?_) (fun _ => ?_)
    | with_reducible refine iteOut_keeps (fun _ => ?_) (fun _ => ?_)
    | with_reducible refine foldl_keeps (fun _ _ _ => ?_) ?_
    | with_reducible refine foldl_kfst (fun _ _ _ => ?_) ?_
    | with_reducible refine foldl_ksnd (fun _ _ _ => ?_) ?_
    | subst x
    | with_reducible split
    | dsimp only

theorem State.loadLeaf_keeps {am : Nat} {s₀ : State} {s : State} (ha : Sub 4328522096 am) (hs : Keeps am s₀ s) : Keeps am s₀ (State.loadLeaf s) := by
  unfold State.loadLeaf
  repeat' first
    | with_reducible assumption
    | exact sub_of ha rfl
    | with_reducible refine keepsOut_next ?_
    | (lift_lets; intro x; refine (fun (hx : Keeps am s₀ x) => ?_) ?_; clear_value x)
    | (intro x; subst x)
    | with_reducible refine State.event_keeps ?_ ?_
    | with_reducible refine State.setErr_keeps ?_ ?_
    | with_reducible refine State.setFld_keeps ?_ ?_
    | with_reducible refine State.withBoot_keeps ?_ ?_
    | with_reducible refine ite_keeps (fun _ => ?_) (fun _ => ?_)
    | with_reducible refine iteOut_keeps (fun _ => ?_) (fun _ => ?_)
    | with_reducible refine foldl_keeps (fun _ _ _ => ?_) ?_
    | with_reducible refine foldl_kfst (fun _ _ _ => ?_) ?_
    | with_reducible refine foldl_ksnd (fun _ _ _ => ?_) ?_
    | subst x
    | with_reducible split
    | dsimp only

theorem State.loadOos_keeps {am : Nat} {s₀ : State} {s : State} (ha : Sub 16 am) (hs : Keeps am s₀ s) : Keeps am s₀ (State.loadOos s) := by
  unfold State.loadOos
  repeat' first
    | with_reducible assumption
    | exact sub_of ha rfl
    | with_reducible refine keepsOut_next ?_
    | (lift_lets; intro x; refine (fun (hx : Keeps am s₀ x) => ?_) ?_; clear_value x)
    | (intro x; subst x)
    | with_reducible refine State.setReg_keeps ?_ ?_
    | with_reducible refine ite_keeps (fun _ => ?_) (fun _ => ?_)
    | with_reducible refine iteOut_keeps (fun _ => ?_) (fun _ => ?_)
    | with_reducible refine foldl_keeps (fun _ _ _ => ?_) ?_
    | with_reducible refine foldl_kfst (fun _ _ _ => ?_) ?_
    | with_reducible refine foldl_ksnd (fun _ _ _ => ?_) ?_
    | subst x
    | with_reducible split
    | dsimp only

theorem State.dropFenced_keeps {am : Nat} {s₀ : State} {s : State} (ha : Sub 335544368 am) (hs : Keeps am s₀ s) : Keeps am s₀ (State.dropFenced s) := by
  unfold State.dropFenced
  repeat' first
    | with_reducible assumption
    | exact sub_of ha rfl
    | with_reducible refine keepsOut_next ?_
    | (lift_lets; intro x; refine (fun (hx : Keeps am s₀ x) => ?_) ?_; clear_value x)
    | (intro x; subst x)
    | with_reducible refine State.laneOff_keeps ?_ ?_
    | with_reducible refine State.portOff_keeps ?_ ?_
    | with_reducible refine ite_keeps (fun _ => ?_) (fun _ => ?_)
    | with_reducible refine iteOut_keeps (fun _ => ?_) (fun _ => ?_)
    | with_reducible refine foldl_keeps (fun _ _ _ => ?_) ?_
    | with_reducible refine foldl_kfst (fun _ _ _ => ?_) ?_
    | with_reducible refine foldl_ksnd (fun _ _ _ => ?_) ?_
    | subst x
    | with_reducible split
    | dsimp only

theorem execPhaseReady_keeps {am : Nat} {s₀ : State} {s : State} (ha : Sub 5200937330 am) (hs : Keeps am s₀ s) : KeepsOut am s₀ (execPhaseReady s) := by
  unfold execPhaseReady
  repeat' first
    | with_reducible assumption
    | exact sub_of ha rfl
    | with_reducible refine keepsOut_next ?_
    | (lift_lets; intro x; refine (fun (hx : Keeps am s₀ x) => ?_) ?_; clear_value x)
    | (intro x; subst x)
    | with_reducible refine State.dropFenced_keeps ?_ ?_
    | with_reducible refine State.enterRun_keeps ?_ ?_
    | with_reducible refine State.liftLanes_keeps ?_ ?_
    | with_reducible refine State.loadDump_keeps ?_ ?_
    | with_reducible refine State.loadIdentity_keeps ?_ ?_
    | with_reducible refine State.loadLeaf_keeps ?_ ?_
    | with_reducible refine State.loadOos_keeps ?_ ?_
    | with_reducible refine State.loadWmark_keeps ?_ ?_
    | with_reducible refine State.noteDir_keeps ?_ ?_
    | with_reducible refine State.showHistory_keeps ?_ ?_
    | with_reducible refine State.showMemFences_keeps ?_ ?_
    | with_reducible refine ite_keeps (fun _ => ?_) (fun _ => ?_)
    | with_reducible refine iteOut_keeps (fun _ => ?_) (fun _ => ?_)
    | with_reducible refine foldl_keeps (fun _ _ _ => ?_) ?_
    | with_reducible refine foldl_kfst (fun _ _ _ => ?_) ?_
    | with_reducible refine foldl_ksnd (fun _ _ _ => ?_) ?_
    | subst x
    | with_reducible split
    | dsimp only

theorem execBridgeFlitReplay_keeps {am : Nat} {s₀ : State} {b : Fin 4} {flit : Nat} {s : State} (ha : Sub 128 am) (hs : Keeps am s₀ s) : KeepsOut am s₀ (execBridgeFlitReplay b flit s) := by
  unfold execBridgeFlitReplay
  repeat' first
    | with_reducible assumption
    | exact sub_of ha rfl
    | with_reducible refine keepsOut_next ?_
    | (lift_lets; intro x; refine (fun (hx : Keeps am s₀ x) => ?_) ?_; clear_value x)
    | (intro x; subst x)
    | with_reducible refine State.setBridge_keeps ?_ ?_
    | with_reducible refine ite_keeps (fun _ => ?_) (fun _ => ?_)
    | with_reducible refine iteOut_keeps (fun _ => ?_) (fun _ => ?_)
    | with_reducible refine foldl_keeps (fun _ _ _ => ?_) ?_
    | with_reducible refine foldl_kfst (fun _ _ _ => ?_) ?_
    | with_reducible refine foldl_ksnd (fun _ _ _ => ?_) ?_
    | subst x
    | with_reducible split
    | dsimp only

theorem execBridgeDown_keeps {am : Nat} {s₀ : State} {b : Fin 4} {s : State} (ha : Sub 33554928 am) (hs : Keeps am s₀ s) : KeepsOut am s₀ (execBridgeDown b s) := by
  unfold execBridgeDown
  repeat' first
    | with_reducible assumption
    | exact sub_of ha rfl
    | with_reducible refine keepsOut_next ?_
    | (lift_lets; intro x; refine (fun (hx : Keeps am s₀ x) => ?_) ?_; clear_value x)
    | (intro x; subst x)
    | with_reducible refine State.event_keeps ?_ ?_
    | with_reducible refine State.setBridge_keeps ?_ ?_
    | with_reducible refine ite_keeps (fun _ => ?_) (fun _ => ?_)
    | with_reducible refine iteOut_keeps (fun _ => ?_) (fun _ => ?_)
    | with_reducible refine foldl_keeps (fun _ _ _ => ?_) ?_
    | with_reducible refine foldl_kfst (fun _ _ _ => ?_) ?_
    | with_reducible refine foldl_ksnd (fun _ _ _ => ?_) ?_
    | subst x
    | with_reducible split
    | dsimp only

theorem execRefclkLost_keeps {am : Nat} {s₀ : State} {d : Die} {s : State} (ha : Sub 369099248 am) (hs : Keeps am s₀ s) : KeepsOut am s₀ (execRefclkLost d s) := by
  unfold execRefclkLost
  repeat' first
    | with_reducible assumption
    | exact sub_of ha rfl
    | with_reducible refine keepsOut_next ?_
    | (lift_lets; intro x; refine (fun (hx : Keeps am s₀ x) => ?_) ?_; clear_value x)
    | (intro x; subst x)
    | with_reducible refine State.event_keeps ?_ ?_
    | with_reducible refine State.laneDown_keeps ?_ ?_
    | with_reducible refine State.laneFails_keeps ?_ ?_
    | with_reducible refine State.portDown_keeps ?_ ?_
    | with_reducible refine State.setTb_keeps ?_ ?_
    | with_reducible refine ite_keeps (fun _ => ?_) (fun _ => ?_)
    | with_reducible refine iteOut_keeps (fun _ => ?_) (fun _ => ?_)
    | with_reducible refine foldl_keeps (fun _ _ _ => ?_) ?_
    | with_reducible refine foldl_kfst (fun _ _ _ => ?_) ?_
    | with_reducible refine foldl_ksnd (fun _ _ _ => ?_) ?_
    | subst x
    | with_reducible split
    | dsimp only

theorem execRefclkReturn_keeps {am : Nat} {s₀ : State} {d : Die} {s : State} (ha : Sub 67109008 am) (hs : Keeps am s₀ s) : KeepsOut am s₀ (execRefclkReturn d s) := by
  unfold execRefclkReturn
  repeat' first
    | with_reducible assumption
    | exact sub_of ha rfl
    | with_reducible refine keepsOut_next ?_
    | (lift_lets; intro x; refine (fun (hx : Keeps am s₀ x) => ?_) ?_; clear_value x)
    | (intro x; subst x)
    | with_reducible refine State.setTb_keeps ?_ ?_
    | with_reducible refine State.trainPort_keeps ?_ ?_
    | with_reducible refine ite_keeps (fun _ => ?_) (fun _ => ?_)
    | with_reducible refine iteOut_keeps (fun _ => ?_) (fun _ => ?_)
    | with_reducible refine foldl_keeps (fun _ _ _ => ?_) ?_
    | with_reducible refine foldl_kfst (fun _ _ _ => ?_) ?_
    | with_reducible refine foldl_ksnd (fun _ _ _ => ?_) ?_
    | subst x
    | with_reducible split
    | dsimp only

theorem execBmShutdown_keeps {am : Nat} {s₀ : State} {v : W16} {s : State} (ha : Sub 301990160 am) (hs : Keeps am s₀ s) : KeepsOut am s₀ (execBmShutdown v s) := by
  unfold execBmShutdown
  repeat' first
    | with_reducible assumption
    | exact sub_of ha rfl
    | with_reducible refine keepsOut_next ?_
    | (lift_lets; intro x; refine (fun (hx : Keeps am s₀ x) => ?_) ?_; clear_value x)
    | (intro x; subst x)
    | with_reducible refine State.storeWmark_keeps ?_ ?_
    | with_reducible refine State.withHost_keeps ?_ ?_
    | with_reducible refine ite_keeps (fun _ => ?_) (fun _ => ?_)
    | with_reducible refine iteOut_keeps (fun _ => ?_) (fun _ => ?_)
    | with_reducible refine foldl_keeps (fun _ _ _ => ?_) ?_
    | with_reducible refine foldl_kfst (fun _ _ _ => ?_) ?_
    | with_reducible refine foldl_ksnd (fun _ _ _ => ?_) ?_
    | subst x
    | with_reducible split
    | dsimp only

theorem execBmShutdownDone_keeps {am : Nat} {s₀ : State} {s : State} (ha : Sub 268435456 am) (hs : Keeps am s₀ s) : KeepsOut am s₀ (execBmShutdownDone s) := by
  unfold execBmShutdownDone
  repeat' first
    | with_reducible assumption
    | exact sub_of ha rfl
    | with_reducible refine keepsOut_next ?_
    | (lift_lets; intro x; refine (fun (hx : Keeps am s₀ x) => ?_) ?_; clear_value x)
    | (intro x; subst x)
    | with_reducible refine State.withHost_keeps ?_ ?_
    | with_reducible refine ite_keeps (fun _ => ?_) (fun _ => ?_)
    | with_reducible refine iteOut_keeps (fun _ => ?_) (fun _ => ?_)
    | with_reducible refine foldl_keeps (fun _ _ _ => ?_) ?_
    | with_reducible refine foldl_kfst (fun _ _ _ => ?_) ?_
    | with_reducible refine foldl_ksnd (fun _ _ _ => ?_) ?_
    | subst x
    | with_reducible split
    | dsimp only

-- FOR State.via
-- HAVE via State.via_keeps ?_ ?_
theorem State.via_keeps {am : Nat} {s₀ s : State} {o : Host.Outcome State Fault Refusal} (ho : KeepsOut am s₀ o) (hs : Keeps am s₀ s) : Keeps am s₀ (s.via o) := by
  unfold State.via
  split
  · exact ho _ rfl
  · exact hs

-- FOR State.onUnit
-- HAVE onUnit State.onUnit_keeps (fun _ _ _ => ?_) ?_
theorem State.onUnit_keeps {am : Nat} {s₀ s : State} {n i : Nat} {f : Fin n → State → Host.Outcome State Fault Refusal}
    (hf : ∀ i s, Keeps am s₀ s → KeepsOut am s₀ (f i s)) (hs : Keeps am s₀ s) : Keeps am s₀ (s.onUnit n i f) := by
  unfold State.onUnit
  split
  · exact State.via_keeps (hf _ _ hs) hs
  · exact hs

theorem State.readSpecial_keeps {am : Nat} {s₀ : State} (s : State) (k : Nat) (ha : Sub 4865982868 am) (hs : Keeps am s₀ s) : KeepsOpt am s₀ (fun r => r) (State.readSpecial s k) := by
  unfold State.readSpecial
  repeat' first
    | with_reducible assumption
    | with_reducible refine keepsOpt_some ?_
    | with_reducible refine keepsOpt_none
    | exact sub_of ha rfl
    | with_reducible refine keepsOut_next ?_
    | (lift_lets; intro x; refine (fun (hx : Keeps am s₀ x) => ?_) ?_; clear_value x)
    | (intro x; subst x)
    | with_reducible refine execCtrEvtRead_keeps ?_ ?_
    | with_reducible refine execDumpRead_keeps ?_ ?_
    | with_reducible refine execIslStretchRead_keeps ?_ ?_
    | with_reducible refine execLnkCounterRead_keeps ?_ ?_
    | with_reducible refine execMxePerfRead_keeps ?_ ?_
    | with_reducible refine execSecRdataRead_keeps ?_ ?_
    | with_reducible refine execSstRdataRead_keeps ?_ ?_
    | with_reducible refine execTollHeldRead_keeps ?_ ?_
    | with_reducible refine execVxePerfRead_keeps ?_ ?_
    | with_reducible refine State.onUnit_keeps (fun _ _ _ => ?_) ?_
    | with_reducible refine State.via_keeps ?_ ?_
    | with_reducible refine iteOpt_keeps (fun _ => ?_) (fun _ => ?_)
    | with_reducible refine ite_keeps (fun _ => ?_) (fun _ => ?_)
    | with_reducible refine iteOut_keeps (fun _ => ?_) (fun _ => ?_)
    | with_reducible refine foldl_keeps (fun _ _ _ => ?_) ?_
    | with_reducible refine foldl_kfst (fun _ _ _ => ?_) ?_
    | with_reducible refine foldl_ksnd (fun _ _ _ => ?_) ?_
    | subst x
    | with_reducible split
    | dsimp only

theorem State.readSpecial_keeps_eq {am : Nat} {s₀ : State} {s : State} {k : Nat} {rr} (ha : Sub 4865982868 am) (he : State.readSpecial s k = some rr) (hs : Keeps am s₀ s) : Keeps am s₀ rr := State.readSpecial_keeps s k ha hs rr he

-- FOR State.readReg
-- HAVE readReg State.readReg_keeps ?_ ?_
-- HAVE =readReg State.readReg_keeps_eq
theorem State.readReg_keeps {am : Nat} {s₀ s : State} {wp k : Nat} (ha : Sub 4865982870 am) (hs : Keeps am s₀ s) : Keeps am s₀ (s.readReg wp k).2 := by
  unfold State.readReg
  split
  · rename_i t h
    split at h
    · cases h
    · exact State.readSpecial_keeps_eq (sub_of ha rfl) h hs
  · dsimp only
    refine State.out_keeps (sub_of ha rfl) (ite_keeps (fun _ => State.withFree_keeps (sub_of ha rfl) ?_) (fun _ => ?_)) <;>
      exact ite_keeps (fun _ => hs) (fun _ => State.setReg_keeps (sub_of ha rfl) hs)
theorem State.readReg_keeps_eq {am : Nat} {s₀ s : State} {wp k : Nat} {rr} (ha : Sub 4865982870 am) (he : s.readReg wp k = rr) (hs : Keeps am s₀ s) : Keeps am s₀ rr.2 := he ▸ State.readReg_keeps ha hs

theorem State.windowRead_keeps {am : Nat} {s₀ : State} {s : State} {a : Nat} {n : Nat} (ha : Sub 4865982870 am) (hs : Keeps am s₀ s) : Keeps am s₀ (State.windowRead s a n).2 := by
  unfold State.windowRead
  repeat' first
    | with_reducible assumption
    | exact sub_of ha rfl
    | with_reducible refine keepsOut_next ?_
    | (lift_lets; intro x; refine (fun (hx : Keeps am s₀ x) => ?_) ?_; clear_value x)
    | (intro x; subst x)
    | with_reducible refine State.readReg_keeps ?_ ?_
    | with_reducible refine State.withRdData_keeps ?_ ?_
    | with_reducible refine State.readReg_keeps_eq ?_ (by with_reducible assumption) ?_
    | with_reducible refine ite_keeps (fun _ => ?_) (fun _ => ?_)
    | with_reducible refine iteOut_keeps (fun _ => ?_) (fun _ => ?_)
    | with_reducible refine foldl_keeps (fun _ _ _ => ?_) ?_
    | with_reducible refine foldl_kfst (fun _ _ _ => ?_) ?_
    | with_reducible refine foldl_ksnd (fun _ _ _ => ?_) ?_
    | subst x
    | with_reducible split
    | dsimp only

theorem State.windowRead_keeps_eq {am : Nat} {s₀ : State} {s : State} {a : Nat} {n : Nat} {rr} (ha : Sub 4865982870 am) (he : State.windowRead s a n = rr) (hs : Keeps am s₀ s) : Keeps am s₀ rr.2 := he ▸ State.windowRead_keeps ha hs

theorem State.windowIssue_keeps {am : Nat} {s₀ : State} {s : State} {o : PortOp} (ha : Sub 4865982870 am) (hs : Keeps am s₀ s) : Keeps am s₀ (State.windowIssue s o).2.2 := by
  unfold State.windowIssue
  repeat' first
    | with_reducible assumption
    | exact sub_of ha rfl
    | with_reducible refine keepsOut_next ?_
    | (lift_lets; intro x; refine (fun (hx : Keeps am s₀ x) => ?_) ?_; clear_value x)
    | (intro x; subst x)
    | with_reducible refine State.windowRead_keeps ?_ ?_
    | with_reducible refine State.windowRead_keeps_eq ?_ (by with_reducible assumption) ?_
    | with_reducible refine ite_keeps (fun _ => ?_) (fun _ => ?_)
    | with_reducible refine iteOut_keeps (fun _ => ?_) (fun _ => ?_)
    | with_reducible refine foldl_keeps (fun _ _ _ => ?_) ?_
    | with_reducible refine foldl_kfst (fun _ _ _ => ?_) ?_
    | with_reducible refine foldl_ksnd (fun _ _ _ => ?_) ?_
    | subst x
    | with_reducible split
    | dsimp only

theorem State.windowIssue_keeps_eq {am : Nat} {s₀ : State} {s : State} {o : PortOp} {rr} (ha : Sub 4865982870 am) (he : State.windowIssue s o = rr) (hs : Keeps am s₀ s) : Keeps am s₀ rr.2.2 := he ▸ State.windowIssue_keeps ha hs

theorem State.rop_keeps {am : Nat} {s₀ : State} {s : State} {c : Nat} {rd : Nat} {rs1 : Nat} {rs2 : Nat} (ha : Sub 4933092278 am) (hs : Keeps am s₀ s) : Keeps am s₀ (State.rop s c rd rs1 rs2) := by
  unfold State.rop
  repeat' first
    | with_reducible assumption
    | exact sub_of ha rfl
    | with_reducible refine keepsOut_next ?_
    | (lift_lets; intro x; refine (fun (hx : Keeps am s₀ x) => ?_) ?_; clear_value x)
    | (intro x; subst x)
    | with_reducible refine State.formAll_keeps ?_ ?_
    | with_reducible refine State.illegal_keeps ?_ ?_
    | with_reducible refine State.newWork_keeps ?_ ?_ ?_
    | with_reducible refine State.opCheck_keeps ?_ ?_
    | with_reducible refine State.retSt_keeps ?_ ?_
    | with_reducible refine State.windowIssue_keeps ?_ ?_
    | with_reducible refine State.withNet_keeps ?_ ?_
    | with_reducible refine State.opCheck_keeps_eq ?_ (by with_reducible assumption) ?_
    | with_reducible refine State.windowIssue_keeps_eq ?_ (by with_reducible assumption) ?_
    | with_reducible refine ite_keeps (fun _ => ?_) (fun _ => ?_)
    | with_reducible refine iteOut_keeps (fun _ => ?_) (fun _ => ?_)
    | with_reducible refine foldl_keeps (fun _ _ _ => ?_) ?_
    | with_reducible refine foldl_kfst (fun _ _ _ => ?_) ?_
    | with_reducible refine foldl_ksnd (fun _ _ _ => ?_) ?_
    | subst x
    | with_reducible split
    | dsimp only

theorem execRopGet_keeps {am : Nat} {s₀ : State} {c : CoreNo} {rd : Gpr} {rs1 : Gpr} {rs2 : Gpr} {s : State} (ha : Sub 4933092278 am) (hs : Keeps am s₀ s) : KeepsOut am s₀ (execRopGet c rd rs1 rs2 s) := by
  unfold execRopGet
  repeat' first
    | with_reducible assumption
    | exact sub_of ha rfl
    | with_reducible refine keepsOut_next ?_
    | (lift_lets; intro x; refine (fun (hx : Keeps am s₀ x) => ?_) ?_; clear_value x)
    | (intro x; subst x)
    | with_reducible refine State.rop_keeps ?_ ?_
    | with_reducible refine ite_keeps (fun _ => ?_) (fun _ => ?_)
    | with_reducible refine iteOut_keeps (fun _ => ?_) (fun _ => ?_)
    | with_reducible refine foldl_keeps (fun _ _ _ => ?_) ?_
    | with_reducible refine foldl_kfst (fun _ _ _ => ?_) ?_
    | with_reducible refine foldl_ksnd (fun _ _ _ => ?_) ?_
    | subst x
    | with_reducible split
    | dsimp only

theorem execRopGet3_keeps {am : Nat} {s₀ : State} {c : CoreNo} {rd : Gpr} {rs1 : Gpr} {rs2 : Gpr} {s : State} (ha : Sub 4933092278 am) (hs : Keeps am s₀ s) : KeepsOut am s₀ (execRopGet3 c rd rs1 rs2 s) := by
  unfold execRopGet3
  repeat' first
    | with_reducible assumption
    | exact sub_of ha rfl
    | with_reducible refine keepsOut_next ?_
    | (lift_lets; intro x; refine (fun (hx : Keeps am s₀ x) => ?_) ?_; clear_value x)
    | (intro x; subst x)
    | with_reducible refine State.rop_keeps ?_ ?_
    | with_reducible refine ite_keeps (fun _ => ?_) (fun _ => ?_)
    | with_reducible refine iteOut_keeps (fun _ => ?_) (fun _ => ?_)
    | with_reducible refine foldl_keeps (fun _ _ _ => ?_) ?_
    | with_reducible refine foldl_kfst (fun _ _ _ => ?_) ?_
    | with_reducible refine foldl_ksnd (fun _ _ _ => ?_) ?_
    | subst x
    | with_reducible split
    | dsimp only

theorem execRopAtomic_keeps {am : Nat} {s₀ : State} {c : CoreNo} {rd : Gpr} {rs1 : Gpr} {rs2 : Gpr} {s : State} (ha : Sub 4933092278 am) (hs : Keeps am s₀ s) : KeepsOut am s₀ (execRopAtomic c rd rs1 rs2 s) := by
  unfold execRopAtomic
  repeat' first
    | with_reducible assumption
    | exact sub_of ha rfl
    | with_reducible refine keepsOut_next ?_
    | (lift_lets; intro x; refine (fun (hx : Keeps am s₀ x) => ?_) ?_; clear_value x)
    | (intro x; subst x)
    | with_reducible refine State.rop_keeps ?_ ?_
    | with_reducible refine ite_keeps (fun _ => ?_) (fun _ => ?_)
    | with_reducible refine iteOut_keeps (fun _ => ?_) (fun _ => ?_)
    | with_reducible refine foldl_keeps (fun _ _ _ => ?_) ?_
    | with_reducible refine foldl_kfst (fun _ _ _ => ?_) ?_
    | with_reducible refine foldl_ksnd (fun _ _ _ => ?_) ?_
    | subst x
    | with_reducible split
    | dsimp only

theorem execRopSignal_keeps {am : Nat} {s₀ : State} {c : CoreNo} {rd : Gpr} {rs1 : Gpr} {rs2 : Gpr} {s : State} (ha : Sub 4933092278 am) (hs : Keeps am s₀ s) : KeepsOut am s₀ (execRopSignal c rd rs1 rs2 s) := by
  unfold execRopSignal
  repeat' first
    | with_reducible assumption
    | exact sub_of ha rfl
    | with_reducible refine keepsOut_next ?_
    | (lift_lets; intro x; refine (fun (hx : Keeps am s₀ x) => ?_) ?_; clear_value x)
    | (intro x; subst x)
    | with_reducible refine State.rop_keeps ?_ ?_
    | with_reducible refine ite_keeps (fun _ => ?_) (fun _ => ?_)
    | with_reducible refine iteOut_keeps (fun _ => ?_) (fun _ => ?_)
    | with_reducible refine foldl_keeps (fun _ _ _ => ?_) ?_
    | with_reducible refine foldl_kfst (fun _ _ _ => ?_) ?_
    | with_reducible refine foldl_ksnd (fun _ _ _ => ?_) ?_
    | subst x
    | with_reducible split
    | dsimp only

theorem State.alu_keeps {am : Nat} {s₀ : State} {s : State} {fn : AluFn} {a : W64} {b : W64} (ha : Sub 2 am) (hs : Keeps am s₀ s) : Keeps am s₀ (State.alu s fn a b).2 := by
  unfold State.alu
  repeat' first
    | with_reducible assumption
    | exact sub_of ha rfl
    | with_reducible refine keepsOut_next ?_
    | (lift_lets; intro x; refine (fun (hx : Keeps am s₀ x) => ?_) ?_; clear_value x)
    | (intro x; subst x)
    | with_reducible refine State.draw_keeps ?_ ?_
    | with_reducible refine State.draw_keeps_eq ?_ (by with_reducible assumption) ?_
    | with_reducible refine ite_keeps (fun _ => ?_) (fun _ => ?_)
    | with_reducible refine iteOut_keeps (fun _ => ?_) (fun _ => ?_)
    | with_reducible refine foldl_keeps (fun _ _ _ => ?_) ?_
    | with_reducible refine foldl_kfst (fun _ _ _ => ?_) ?_
    | with_reducible refine foldl_ksnd (fun _ _ _ => ?_) ?_
    | subst x
    | with_reducible split
    | dsimp only

theorem State.alu_keeps_eq {am : Nat} {s₀ : State} {s : State} {fn : AluFn} {a : W64} {b : W64} {rr} (ha : Sub 2 am) (he : State.alu s fn a b = rr) (hs : Keeps am s₀ s) : Keeps am s₀ rr.2 := he ▸ State.alu_keeps ha hs

theorem execIntAlu_keeps {am : Nat} {s₀ : State} {c : Issued} {fn : AluFn} {rd : Gpr} {rs1 : Gpr} {src : AluSrc} {s : State} (ha : Sub 562 am) (hs : Keeps am s₀ s) : KeepsOut am s₀ (execIntAlu c fn rd rs1 src s) := by
  unfold execIntAlu
  repeat' first
    | with_reducible assumption
    | exact sub_of ha rfl
    | with_reducible refine keepsOut_next ?_
    | (lift_lets; intro x; refine (fun (hx : Keeps am s₀ x) => ?_) ?_; clear_value x)
    | (intro x; subst x)
    | with_reducible refine State.alu_keeps ?_ ?_
    | with_reducible refine State.illegal_keeps ?_ ?_
    | with_reducible refine State.ret_keeps ?_ ?_
    | with_reducible refine State.alu_keeps_eq ?_ (by with_reducible assumption) ?_
    | with_reducible refine ite_keeps (fun _ => ?_) (fun _ => ?_)
    | with_reducible refine iteOut_keeps (fun _ => ?_) (fun _ => ?_)
    | with_reducible refine foldl_keeps (fun _ _ _ => ?_) ?_
    | with_reducible refine foldl_kfst (fun _ _ _ => ?_) ?_
    | with_reducible refine foldl_ksnd (fun _ _ _ => ?_) ?_
    | subst x
    | with_reducible split
    | dsimp only

theorem State.compare_keeps {am : Nat} {s₀ : State} {s : State} {cond : Cond} {a : W64} {b : W64} (ha : Sub 2 am) (hs : Keeps am s₀ s) : Keeps am s₀ (State.compare s cond a b).2 := by
  unfold State.compare
  repeat' first
    | with_reducible assumption
    | exact sub_of ha rfl
    | with_reducible refine keepsOut_next ?_
    | (lift_lets; intro x; refine (fun (hx : Keeps am s₀ x) => ?_) ?_; clear_value x)
    | (intro x; subst x)
    | with_reducible refine State.draw_keeps ?_ ?_
    | with_reducible refine State.draw_keeps_eq ?_ (by with_reducible assumption) ?_
    | with_reducible refine ite_keeps (fun _ => ?_) (fun _ => ?_)
    | with_reducible refine iteOut_keeps (fun _ => ?_) (fun _ => ?_)
    | with_reducible refine foldl_keeps (fun _ _ _ => ?_) ?_
    | with_reducible refine foldl_kfst (fun _ _ _ => ?_) ?_
    | with_reducible refine foldl_ksnd (fun _ _ _ => ?_) ?_
    | subst x
    | with_reducible split
    | dsimp only

theorem State.compare_keeps_eq {am : Nat} {s₀ : State} {s : State} {cond : Cond} {a : W64} {b : W64} {rr} (ha : Sub 2 am) (he : State.compare s cond a b = rr) (hs : Keeps am s₀ s) : Keeps am s₀ rr.2 := he ▸ State.compare_keeps ha hs

theorem execCompareBranch_keeps {am : Nat} {s₀ : State} {c : Issued} {cond : Cond} {rs1 : Gpr} {rs2 : Gpr} {off : BitVec 15} {s : State} (ha : Sub 562 am) (hs : Keeps am s₀ s) : KeepsOut am s₀ (execCompareBranch c cond rs1 rs2 off s) := by
  unfold execCompareBranch
  repeat' first
    | with_reducible assumption
    | exact sub_of ha rfl
    | with_reducible refine keepsOut_next ?_
    | (lift_lets; intro x; refine (fun (hx : Keeps am s₀ x) => ?_) ?_; clear_value x)
    | (intro x; subst x)
    | with_reducible refine State.compare_keeps ?_ ?_
    | with_reducible refine State.illegal_keeps ?_ ?_
    | with_reducible refine State.nextPc_keeps ?_ ?_
    | with_reducible refine State.setPc_keeps ?_ ?_
    | with_reducible refine State.compare_keeps_eq ?_ (by with_reducible assumption) ?_
    | with_reducible refine ite_keeps (fun _ => ?_) (fun _ => ?_)
    | with_reducible refine iteOut_keeps (fun _ => ?_) (fun _ => ?_)
    | with_reducible refine foldl_keeps (fun _ _ _ => ?_) ?_
    | with_reducible refine foldl_kfst (fun _ _ _ => ?_) ?_
    | with_reducible refine foldl_ksnd (fun _ _ _ => ?_) ?_
    | subst x
    | with_reducible split
    | dsimp only

theorem execJumpAndLink_keeps {am : Nat} {s₀ : State} {c : Issued} {rd : Gpr} {rs1 : Gpr} {imm : BitVec 15} {s : State} (ha : Sub 560 am) (hs : Keeps am s₀ s) : KeepsOut am s₀ (execJumpAndLink c rd rs1 imm s) := by
  unfold execJumpAndLink
  repeat' first
    | with_reducible assumption
    | exact sub_of ha rfl
    | with_reducible refine keepsOut_next ?_
    | (lift_lets; intro x; refine (fun (hx : Keeps am s₀ x) => ?_) ?_; clear_value x)
    | (intro x; subst x)
    | with_reducible refine State.illegal_keeps ?_ ?_
    | with_reducible refine State.setG_keeps ?_ ?_
    | with_reducible refine State.setPc_keeps ?_ ?_
    | with_reducible refine ite_keeps (fun _ => ?_) (fun _ => ?_)
    | with_reducible refine iteOut_keeps (fun _ => ?_) (fun _ => ?_)
    | with_reducible refine foldl_keeps (fun _ _ _ => ?_) ?_
    | with_reducible refine foldl_kfst (fun _ _ _ => ?_) ?_
    | with_reducible refine foldl_ksnd (fun _ _ _ => ?_) ?_
    | subst x
    | with_reducible split
    | dsimp only

theorem execFpOp_keeps {am : Nat} {s₀ : State} {c : CoreNo} {fn : FpFn} {dbl : Bool} {rd : Gpr} {rs1 : Gpr} {rs2 : Gpr} {s : State} (ha : Sub 560 am) (hs : Keeps am s₀ s) : KeepsOut am s₀ (execFpOp c fn dbl rd rs1 rs2 s) := by
  unfold execFpOp
  repeat' first
    | with_reducible assumption
    | exact sub_of ha rfl
    | with_reducible refine keepsOut_next ?_
    | (lift_lets; intro x; refine (fun (hx : Keeps am s₀ x) => ?_) ?_; clear_value x)
    | (intro x; subst x)
    | with_reducible refine State.illegal_keeps ?_ ?_
    | with_reducible refine State.ret_keeps ?_ ?_
    | with_reducible refine ite_keeps (fun _ => ?_) (fun _ => ?_)
    | with_reducible refine iteOut_keeps (fun _ => ?_) (fun _ => ?_)
    | with_reducible refine foldl_keeps (fun _ _ _ => ?_) ?_
    | with_reducible refine foldl_kfst (fun _ _ _ => ?_) ?_
    | with_reducible refine foldl_ksnd (fun _ _ _ => ?_) ?_
    | subst x
    | with_reducible split
    | dsimp only

theorem State.csrRead_keeps {am : Nat} {s₀ : State} {s : State} {c : Nat} {r : Csr} (ha : Sub 426546 am) (hs : Keeps am s₀ s) : Keeps am s₀ (State.csrRead s c r).2 := by
  unfold State.csrRead
  repeat' first
    | with_reducible assumption
    | exact sub_of ha rfl
    | with_reducible refine keepsOut_next ?_
    | (lift_lets; intro x; refine (fun (hx : Keeps am s₀ x) => ?_) ?_; clear_value x)
    | (intro x; subst x)
    | with_reducible refine State.draw_keeps ?_ ?_
    | with_reducible refine State.hsnap_keeps ?_ ?_
    | with_reducible refine State.draw_keeps_eq ?_ (by with_reducible assumption) ?_
    | with_reducible refine ite_keeps (fun _ => ?_) (fun _ => ?_)
    | with_reducible refine iteOut_keeps (fun _ => ?_) (fun _ => ?_)
    | with_reducible refine foldl_keeps (fun _ _ _ => ?_) ?_
    | with_reducible refine foldl_kfst (fun _ _ _ => ?_) ?_
    | with_reducible refine foldl_ksnd (fun _ _ _ => ?_) ?_
    | subst x
    | with_reducible split
    | dsimp only

theorem State.csrRead_keeps_eq {am : Nat} {s₀ : State} {s : State} {c : Nat} {r : Csr} {rr} (ha : Sub 426546 am) (he : State.csrRead s c r = rr) (hs : Keeps am s₀ s) : Keeps am s₀ rr.2 := he ▸ State.csrRead_keeps ha hs

theorem State.csrWrite_keeps {am : Nat} {s₀ : State} {s : State} {c : Nat} {r : Csr} {v : W64} (ha : Sub 2181464944 am) (hs : Keeps am s₀ s) : Keeps am s₀ (State.csrWrite s c r v) := by
  unfold State.csrWrite
  repeat' first
    | with_reducible assumption
    | exact sub_of ha rfl
    | with_reducible refine keepsOut_next ?_
    | (lift_lets; intro x; refine (fun (hx : Keeps am s₀ x) => ?_) ?_; clear_value x)
    | (intro x; subst x)
    | with_reducible refine State.agentArrive_keeps ?_ ?_
    | with_reducible refine State.hsnap_keeps ?_ ?_
    | with_reducible refine State.setCore_keeps ?_ ?_
    | with_reducible refine State.setReg_keeps ?_ ?_
    | with_reducible refine State.agentArrive_keeps_eq ?_ (by with_reducible assumption) ?_
    | with_reducible refine ite_keeps (fun _ => ?_) (fun _ => ?_)
    | with_reducible refine iteOut_keeps (fun _ => ?_) (fun _ => ?_)
    | with_reducible refine foldl_keeps (fun _ _ _ => ?_) ?_
    | with_reducible refine foldl_kfst (fun _ _ _ => ?_) ?_
    | with_reducible refine foldl_ksnd (fun _ _ _ => ?_) ?_
    | subst x
    | with_reducible split
    | dsimp only

theorem execSystemOp_keeps {am : Nat} {s₀ : State} {c : Issued} {fn : SysFn} {s : State} (ha : Sub 2181464946 am) (hs : Keeps am s₀ s) : KeepsOut am s₀ (execSystemOp c fn s) := by
  unfold execSystemOp
  repeat' first
    | with_reducible assumption
    | exact sub_of ha rfl
    | with_reducible refine keepsOut_next ?_
    | (lift_lets; intro x; refine (fun (hx : Keeps am s₀ x) => ?_) ?_; clear_value x)
    | (intro x; subst x)
    | with_reducible refine State.csrRead_keeps ?_ ?_
    | with_reducible refine State.csrWrite_keeps ?_ ?_
    | with_reducible refine State.illegal_keeps ?_ ?_
    | with_reducible refine State.nextPc_keeps ?_ ?_
    | with_reducible refine State.ret_keeps ?_ ?_
    | with_reducible refine State.csrRead_keeps_eq ?_ (by with_reducible assumption) ?_
    | with_reducible refine ite_keeps (fun _ => ?_) (fun _ => ?_)
    | with_reducible refine iteOut_keeps (fun _ => ?_) (fun _ => ?_)
    | with_reducible refine foldl_keeps (fun _ _ _ => ?_) ?_
    | with_reducible refine foldl_kfst (fun _ _ _ => ?_) ?_
    | with_reducible refine foldl_ksnd (fun _ _ _ => ?_) ?_
    | subst x
    | with_reducible split
    | dsimp only

theorem State.setHost_keeps {am : Nat} {s₀ : State} {s : State} {h : HostLink} (ha : Sub 268435456 am) (hs : Keeps am s₀ s) : Keeps am s₀ (State.setHost s h) := by
  unfold State.setHost
  repeat' first
    | with_reducible assumption
    | exact sub_of ha rfl
    | with_reducible refine keepsOut_next ?_
    | (lift_lets; intro x; refine (fun (hx : Keeps am s₀ x) => ?_) ?_; clear_value x)
    | (intro x; subst x)
    | with_reducible refine State.withHost_keeps ?_ ?_
    | with_reducible refine ite_keeps (fun _ => ?_) (fun _ => ?_)
    | with_reducible refine iteOut_keeps (fun _ => ?_) (fun _ => ?_)
    | with_reducible refine foldl_keeps (fun _ _ _ => ?_) ?_
    | with_reducible refine foldl_kfst (fun _ _ _ => ?_) ?_
    | with_reducible refine foldl_ksnd (fun _ _ _ => ?_) ?_
    | subst x
    | with_reducible split
    | dsimp only

theorem State.keep_keeps {am : Nat} {s₀ : State} {s : State} {r : RegRes} (ha : Sub 268435456 am) (hs : Keeps am s₀ s) : Keeps am s₀ (State.keep s r) := by
  unfold State.keep
  repeat' first
    | with_reducible assumption
    | exact sub_of ha rfl
    | with_reducible refine keepsOut_next ?_
    | (lift_lets; intro x; refine (fun (hx : Keeps am s₀ x) => ?_) ?_; clear_value x)
    | (intro x; subst x)
    | with_reducible refine State.setHost_keeps ?_ ?_
    | with_reducible refine ite_keeps (fun _ => ?_) (fun _ => ?_)
    | with_reducible refine iteOut_keeps (fun _ => ?_) (fun _ => ?_)
    | with_reducible refine foldl_keeps (fun _ _ _ => ?_) ?_
    | with_reducible refine foldl_kfst (fun _ _ _ => ?_) ?_
    | with_reducible refine foldl_ksnd (fun _ _ _ => ?_) ?_
    | subst x
    | with_reducible split
    | dsimp only

theorem State.sendIdle_keeps {am : Nat} {s₀ : State} {s : State} (ha : Sub 268435456 am) (hs : Keeps am s₀ s) : Keeps am s₀ (State.sendIdle s) := by
  unfold State.sendIdle
  repeat' first
    | with_reducible assumption
    | exact sub_of ha rfl
    | with_reducible refine keepsOut_next ?_
    | (lift_lets; intro x; refine (fun (hx : Keeps am s₀ x) => ?_) ?_; clear_value x)
    | (intro x; subst x)
    | with_reducible refine State.setHost_keeps ?_ ?_
    | with_reducible refine ite_keeps (fun _ => ?_) (fun _ => ?_)
    | with_reducible refine iteOut_keeps (fun _ => ?_) (fun _ => ?_)
    | with_reducible refine foldl_keeps (fun _ _ _ => ?_) ?_
    | with_reducible refine foldl_kfst (fun _ _ _ => ?_) ?_
    | with_reducible refine foldl_ksnd (fun _ _ _ => ?_) ?_
    | subst x
    | with_reducible split
    | dsimp only

theorem execHostReplyFrame_keeps {am : Nat} {s₀ : State} {s0 : State} (ha : Sub 335544320 am) (hs : Keeps am s₀ s0) : KeepsOut am s₀ (execHostReplyFrame s0) := by
  unfold execHostReplyFrame
  repeat' first
    | with_reducible assumption
    | exact sub_of ha rfl
    | with_reducible refine keepsOut_next ?_
    | (lift_lets; intro x; refine (fun (hx : Keeps am s₀ x) => ?_) ?_; clear_value x)
    | (intro x; subst x)
    | with_reducible refine State.reply_keeps ?_ ?_
    | with_reducible refine State.sendIdle_keeps ?_ ?_
    | with_reducible refine State.setHost_keeps ?_ ?_
    | with_reducible refine ite_keeps (fun _ => ?_) (fun _ => ?_)
    | with_reducible refine iteOut_keeps (fun _ => ?_) (fun _ => ?_)
    | with_reducible refine foldl_keeps (fun _ _ _ => ?_) ?_
    | with_reducible refine foldl_kfst (fun _ _ _ => ?_) ?_
    | with_reducible refine foldl_ksnd (fun _ _ _ => ?_) ?_
    | subst x
    | with_reducible split
    | dsimp only

theorem execRegOpTimeout_keeps {am : Nat} {s₀ : State} {s : State} (ha : Sub 268435456 am) (hs : Keeps am s₀ s) : KeepsOut am s₀ (execRegOpTimeout s) := by
  unfold execRegOpTimeout
  repeat' first
    | with_reducible assumption
    | exact sub_of ha rfl
    | with_reducible refine keepsOut_next ?_
    | (lift_lets; intro x; refine (fun (hx : Keeps am s₀ x) => ?_) ?_; clear_value x)
    | (intro x; subst x)
    | with_reducible refine State.keep_keeps ?_ ?_
    | with_reducible refine State.setHost_keeps ?_ ?_
    | with_reducible refine ite_keeps (fun _ => ?_) (fun _ => ?_)
    | with_reducible refine iteOut_keeps (fun _ => ?_) (fun _ => ?_)
    | with_reducible refine foldl_keeps (fun _ _ _ => ?_) ?_
    | with_reducible refine foldl_kfst (fun _ _ _ => ?_) ?_
    | with_reducible refine foldl_ksnd (fun _ _ _ => ?_) ?_
    | subst x
    | with_reducible split
    | dsimp only

theorem State.refuseAborting_keeps {am : Nat} {s₀ : State} {s : State} {q : Nat} {seq : W64} (ha : Sub 268435456 am) (hs : Keeps am s₀ s) : Keeps am s₀ (State.refuseAborting s q seq) := by
  unfold State.refuseAborting
  repeat' first
    | with_reducible assumption
    | exact sub_of ha rfl
    | with_reducible refine keepsOut_next ?_
    | (lift_lets; intro x; refine (fun (hx : Keeps am s₀ x) => ?_) ?_; clear_value x)
    | (intro x; subst x)
    | with_reducible refine State.finAborted_keeps ?_ ?_
    | with_reducible refine ite_keeps (fun _ => ?_) (fun _ => ?_)
    | with_reducible refine iteOut_keeps (fun _ => ?_) (fun _ => ?_)
    | with_reducible refine foldl_keeps (fun _ _ _ => ?_) ?_
    | with_reducible refine foldl_kfst (fun _ _ _ => ?_) ?_
    | with_reducible refine foldl_ksnd (fun _ _ _ => ?_) ?_
    | subst x
    | with_reducible split
    | dsimp only

theorem execSubmitEcho_keeps {am : Nat} {s₀ : State} {s : State} (ha : Sub 269484032 am) (hs : Keeps am s₀ s) : KeepsOut am s₀ (execSubmitEcho s) := by
  unfold execSubmitEcho
  repeat' first
    | with_reducible assumption
    | exact sub_of ha rfl
    | with_reducible refine keepsOut_next ?_
    | (lift_lets; intro x; refine (fun (hx : Keeps am s₀ x) => ?_) ?_; clear_value x)
    | (intro x; subst x)
    | with_reducible refine State.pump_keeps ?_ ?_
    | with_reducible refine State.refuseAborting_keeps ?_ ?_
    | with_reducible refine State.setHost_keeps ?_ ?_
    | with_reducible refine State.setSqCmds_keeps ?_ ?_
    | with_reducible refine ite_keeps (fun _ => ?_) (fun _ => ?_)
    | with_reducible refine iteOut_keeps (fun _ => ?_) (fun _ => ?_)
    | with_reducible refine foldl_keeps (fun _ _ _ => ?_) ?_
    | with_reducible refine foldl_kfst (fun _ _ _ => ?_) ?_
    | with_reducible refine foldl_ksnd (fun _ _ _ => ?_) ?_
    | subst x
    | with_reducible split
    | dsimp only

theorem State.finNow_keeps {am : Nat} {s₀ : State} {s : State} {q : Nat} {k : SqCmd} {st : Nat} {result : W64} (ha : Sub 269484032 am) (hs : Keeps am s₀ s) : Keeps am s₀ (State.finNow s q k st result) := by
  unfold State.finNow
  repeat' first
    | with_reducible assumption
    | exact sub_of ha rfl
    | with_reducible refine keepsOut_next ?_
    | (lift_lets; intro x; refine (fun (hx : Keeps am s₀ x) => ?_) ?_; clear_value x)
    | (intro x; subst x)
    | with_reducible refine State.finCmd_keeps ?_ ?_
    | with_reducible refine State.markDispatched_keeps ?_ ?_
    | with_reducible refine State.pump_keeps ?_ ?_
    | with_reducible refine ite_keeps (fun _ => ?_) (fun _ => ?_)
    | with_reducible refine iteOut_keeps (fun _ => ?_) (fun _ => ?_)
    | with_reducible refine foldl_keeps (fun _ _ _ => ?_) ?_
    | with_reducible refine foldl_kfst (fun _ _ _ => ?_) ?_
    | with_reducible refine foldl_ksnd (fun _ _ _ => ?_) ?_
    | subst x
    | with_reducible split
    | dsimp only

theorem execNop_keeps {am : Nat} {s₀ : State} {q : Fin 256} {s : State} (ha : Sub 269484032 am) (hs : Keeps am s₀ s) : KeepsOut am s₀ (execNop q s) := by
  unfold execNop
  repeat' first
    | with_reducible assumption
    | exact sub_of ha rfl
    | with_reducible refine keepsOut_next ?_
    | (lift_lets; intro x; refine (fun (hx : Keeps am s₀ x) => ?_) ?_; clear_value x)
    | (intro x; subst x)
    | with_reducible refine State.finNow_keeps ?_ ?_
    | with_reducible refine ite_keeps (fun _ => ?_) (fun _ => ?_)
    | with_reducible refine iteOut_keeps (fun _ => ?_) (fun _ => ?_)
    | with_reducible refine foldl_keeps (fun _ _ _ => ?_) ?_
    | with_reducible refine foldl_kfst (fun _ _ _ => ?_) ?_
    | with_reducible refine foldl_ksnd (fun _ _ _ => ?_) ?_
    | subst x
    | with_reducible split
    | dsimp only

theorem execQwait_keeps {am : Nat} {s₀ : State} {q : Fin 256} {s : State} (ha : Sub 269484032 am) (hs : Keeps am s₀ s) : KeepsOut am s₀ (execQwait q s) := by
  unfold execQwait
  repeat' first
    | with_reducible assumption
    | exact sub_of ha rfl
    | with_reducible refine keepsOut_next ?_
    | (lift_lets; intro x; refine (fun (hx : Keeps am s₀ x) => ?_) ?_; clear_value x)
    | (intro x; subst x)
    | with_reducible refine State.finNow_keeps ?_ ?_
    | with_reducible refine ite_keeps (fun _ => ?_) (fun _ => ?_)
    | with_reducible refine iteOut_keeps (fun _ => ?_) (fun _ => ?_)
    | with_reducible refine foldl_keeps (fun _ _ _ => ?_) ?_
    | with_reducible refine foldl_kfst (fun _ _ _ => ?_) ?_
    | with_reducible refine foldl_ksnd (fun _ _ _ => ?_) ?_
    | subst x
    | with_reducible split
    | dsimp only

theorem execHostCmdBadOpcode_keeps {am : Nat} {s₀ : State} {q : Fin 256} {s : State} (ha : Sub 269484032 am) (hs : Keeps am s₀ s) : KeepsOut am s₀ (execHostCmdBadOpcode q s) := by
  unfold execHostCmdBadOpcode
  repeat' first
    | with_reducible assumption
    | exact sub_of ha rfl
    | with_reducible refine keepsOut_next ?_
    | (lift_lets; intro x; refine (fun (hx : Keeps am s₀ x) => ?_) ?_; clear_value x)
    | (intro x; subst x)
    | with_reducible refine State.finNow_keeps ?_ ?_
    | with_reducible refine ite_keeps (fun _ => ?_) (fun _ => ?_)
    | with_reducible refine iteOut_keeps (fun _ => ?_) (fun _ => ?_)
    | with_reducible refine foldl_keeps (fun _ _ _ => ?_) ?_
    | with_reducible refine foldl_kfst (fun _ _ _ => ?_) ?_
    | with_reducible refine foldl_ksnd (fun _ _ _ => ?_) ?_
    | subst x
    | with_reducible split
    | dsimp only

theorem State.sendRec_keeps {am : Nat} {s₀ : State} {s : State} {q : Nat} {r : List W64} (ha : Sub 268435472 am) (hs : Keeps am s₀ s) : Keeps am s₀ (State.sendRec s q r) := by
  unfold State.sendRec
  repeat' first
    | with_reducible assumption
    | exact sub_of ha rfl
    | with_reducible refine keepsOut_next ?_
    | (lift_lets; intro x; refine (fun (hx : Keeps am s₀ x) => ?_) ?_; clear_value x)
    | (intro x; subst x)
    | with_reducible refine State.setHost_keeps ?_ ?_
    | with_reducible refine State.setReg_keeps ?_ ?_
    | with_reducible refine ite_keeps (fun _ => ?_) (fun _ => ?_)
    | with_reducible refine iteOut_keeps (fun _ => ?_) (fun _ => ?_)
    | with_reducible refine foldl_keeps (fun _ _ _ => ?_) ?_
    | with_reducible refine foldl_kfst (fun _ _ _ => ?_) ?_
    | with_reducible refine foldl_ksnd (fun _ _ _ => ?_) ?_
    | subst x
    | with_reducible split
    | dsimp only

theorem State.sendNext_keeps {am : Nat} {s₀ : State} {s : State} {q : Nat} (ha : Sub 268435472 am) (hs : Keeps am s₀ s) : Keeps am s₀ (State.sendNext s q) := by
  unfold State.sendNext
  repeat' first
    | with_reducible assumption
    | exact sub_of ha rfl
    | with_reducible refine keepsOut_next ?_
    | (lift_lets; intro x; refine (fun (hx : Keeps am s₀ x) => ?_) ?_; clear_value x)
    | (intro x; subst x)
    | with_reducible refine State.sendRec_keeps ?_ ?_
    | with_reducible refine State.setHost_keeps ?_ ?_
    | with_reducible refine State.setSqCmds_keeps ?_ ?_
    | with_reducible refine State.unfinished_keeps ?_ ?_
    | with_reducible refine ite_keeps (fun _ => ?_) (fun _ => ?_)
    | with_reducible refine iteOut_keeps (fun _ => ?_) (fun _ => ?_)
    | with_reducible refine foldl_keeps (fun _ _ _ => ?_) ?_
    | with_reducible refine foldl_kfst (fun _ _ _ => ?_) ?_
    | with_reducible refine foldl_ksnd (fun _ _ _ => ?_) ?_
    | subst x
    | with_reducible split
    | dsimp only

theorem execComplRecordSend_keeps {am : Nat} {s₀ : State} {s : State} (ha : Sub 268435474 am) (hs : Keeps am s₀ s) : KeepsOut am s₀ (execComplRecordSend s) := by
  unfold execComplRecordSend
  repeat' first
    | with_reducible assumption
    | exact sub_of ha rfl
    | with_reducible refine keepsOut_next ?_
    | (lift_lets; intro x; refine (fun (hx : Keeps am s₀ x) => ?_) ?_; clear_value x)
    | (intro x; subst x)
    | with_reducible refine State.draw_keeps ?_ ?_
    | with_reducible refine State.sendNext_keeps ?_ ?_
    | with_reducible refine State.draw_keeps_eq ?_ (by with_reducible assumption) ?_
    | with_reducible refine ite_keeps (fun _ => ?_) (fun _ => ?_)
    | with_reducible refine iteOut_keeps (fun _ => ?_) (fun _ => ?_)
    | with_reducible refine foldl_keeps (fun _ _ _ => ?_) ?_
    | with_reducible refine foldl_kfst (fun _ _ _ => ?_) ?_
    | with_reducible refine foldl_ksnd (fun _ _ _ => ?_) ?_
    | subst x
    | with_reducible split
    | dsimp only

theorem State.selectIr_keeps {am : Nat} {s₀ : State} {s : State} {d : Nat} {c : Byte} (ha : Sub 8590196736 am) (hs : Keeps am s₀ s) : Keeps am s₀ (State.selectIr s d c) := by
  unfold State.selectIr
  repeat' first
    | with_reducible assumption
    | exact sub_of ha rfl
    | with_reducible refine keepsOut_next ?_
    | (lift_lets; intro x; refine (fun (hx : Keeps am s₀ x) => ?_) ?_; clear_value x)
    | (intro x; subst x)
    | with_reducible refine State.withTap_keeps ?_ ?_
    | with_reducible refine ite_keeps (fun _ => ?_) (fun _ => ?_)
    | with_reducible refine iteOut_keeps (fun _ => ?_) (fun _ => ?_)
    | with_reducible refine foldl_keeps (fun _ _ _ => ?_) ?_
    | with_reducible refine foldl_kfst (fun _ _ _ => ?_) ?_
    | with_reducible refine foldl_ksnd (fun _ _ _ => ?_) ?_
    | subst x
    | with_reducible split
    | dsimp only

theorem State.lpLost_keeps {am : Nat} {s₀ : State} {s : State} (ha : Sub 262144 am) (hs : Keeps am s₀ s) : Keeps am s₀ (State.lpLost s) := by
  unfold State.lpLost
  repeat' first
    | with_reducible assumption
    | exact sub_of ha rfl
    | with_reducible refine keepsOut_next ?_
    | (lift_lets; intro x; refine (fun (hx : Keeps am s₀ x) => ?_) ?_; clear_value x)
    | (intro x; subst x)
    | with_reducible refine State.clearMem_keeps ?_ ?_
    | with_reducible refine State.withMem_keeps ?_ ?_
    | with_reducible refine ite_keeps (fun _ => ?_) (fun _ => ?_)
    | with_reducible refine iteOut_keeps (fun _ => ?_) (fun _ => ?_)
    | with_reducible refine foldl_keeps (fun _ _ _ => ?_) ?_
    | with_reducible refine foldl_kfst (fun _ _ _ => ?_) ?_
    | with_reducible refine foldl_ksnd (fun _ _ _ => ?_) ?_
    | subst x
    | with_reducible split
    | dsimp only

theorem State.boundary_keeps {am : Nat} {s₀ : State} {s : State} {d : Nat} {c : Byte} (ha : Sub 8590196736 am) (hs : Keeps am s₀ s) : Keeps am s₀ (State.boundary s d c) := by
  unfold State.boundary
  repeat' first
    | with_reducible assumption
    | exact sub_of ha rfl
    | with_reducible refine keepsOut_next ?_
    | (lift_lets; intro x; refine (fun (hx : Keeps am s₀ x) => ?_) ?_; clear_value x)
    | (intro x; subst x)
    | with_reducible refine State.lpLost_keeps ?_ ?_
    | with_reducible refine State.selectIr_keeps ?_ ?_
    | with_reducible refine State.withTap_keeps ?_ ?_
    | with_reducible refine ite_keeps (fun _ => ?_) (fun _ => ?_)
    | with_reducible refine iteOut_keeps (fun _ => ?_) (fun _ => ?_)
    | with_reducible refine foldl_keeps (fun _ _ _ => ?_) ?_
    | with_reducible refine foldl_kfst (fun _ _ _ => ?_) ?_
    | with_reducible refine foldl_ksnd (fun _ _ _ => ?_) ?_
    | subst x
    | with_reducible split
    | dsimp only

theorem execJtagTapReset_keeps {am : Nat} {s₀ : State} {d : Die} {s : State} (ha : Sub 8590196736 am) (hs : Keeps am s₀ s) : KeepsOut am s₀ (execJtagTapReset d s) := by
  unfold execJtagTapReset
  repeat' first
    | with_reducible assumption
    | exact sub_of ha rfl
    | with_reducible refine keepsOut_next ?_
    | (lift_lets; intro x; refine (fun (hx : Keeps am s₀ x) => ?_) ?_; clear_value x)
    | (intro x; subst x)
    | with_reducible refine State.selectIr_keeps ?_ ?_
    | with_reducible refine ite_keeps (fun _ => ?_) (fun _ => ?_)
    | with_reducible refine iteOut_keeps (fun _ => ?_) (fun _ => ?_)
    | with_reducible refine foldl_keeps (fun _ _ _ => ?_) ?_
    | with_reducible refine foldl_kfst (fun _ _ _ => ?_) ?_
    | with_reducible refine foldl_ksnd (fun _ _ _ => ?_) ?_
    | subst x
    | with_reducible split
    | dsimp only

theorem execExtest_keeps {am : Nat} {s₀ : State} {d : Die} {s : State} (ha : Sub 8590196736 am) (hs : Keeps am s₀ s) : KeepsOut am s₀ (execExtest d s) := by
  unfold execExtest
  repeat' first
    | with_reducible assumption
    | exact sub_of ha rfl
    | with_reducible refine keepsOut_next ?_
    | (lift_lets; intro x; refine (fun (hx : Keeps am s₀ x) => ?_) ?_; clear_value x)
    | (intro x; subst x)
    | with_reducible refine State.boundary_keeps ?_ ?_
    | with_reducible refine ite_keeps (fun _ => ?_) (fun _ => ?_)
    | with_reducible refine iteOut_keeps (fun _ => ?_) (fun _ => ?_)
    | with_reducible refine foldl_keeps (fun _ _ _ => ?_) ?_
    | with_reducible refine foldl_kfst (fun _ _ _ => ?_) ?_
    | with_reducible refine foldl_ksnd (fun _ _ _ => ?_) ?_
    | subst x
    | with_reducible split
    | dsimp only

theorem execClamp_keeps {am : Nat} {s₀ : State} {d : Die} {s : State} (ha : Sub 8590196736 am) (hs : Keeps am s₀ s) : KeepsOut am s₀ (execClamp d s) := by
  unfold execClamp
  repeat' first
    | with_reducible assumption
    | exact sub_of ha rfl
    | with_reducible refine keepsOut_next ?_
    | (lift_lets; intro x; refine (fun (hx : Keeps am s₀ x) => ?_) ?_; clear_value x)
    | (intro x; subst x)
    | with_reducible refine State.boundary_keeps ?_ ?_
    | with_reducible refine ite_keeps (fun _ => ?_) (fun _ => ?_)
    | with_reducible refine iteOut_keeps (fun _ => ?_) (fun _ => ?_)
    | with_reducible refine foldl_keeps (fun _ _ _ => ?_) ?_
    | with_reducible refine foldl_kfst (fun _ _ _ => ?_) ?_
    | with_reducible refine foldl_ksnd (fun _ _ _ => ?_) ?_
    | subst x
    | with_reducible split
    | dsimp only

theorem execHighz_keeps {am : Nat} {s₀ : State} {d : Die} {s : State} (ha : Sub 8590196736 am) (hs : Keeps am s₀ s) : KeepsOut am s₀ (execHighz d s) := by
  unfold execHighz
  repeat' first
    | with_reducible assumption
    | exact sub_of ha rfl
    | with_reducible refine keepsOut_next ?_
    | (lift_lets; intro x; refine (fun (hx : Keeps am s₀ x) => ?_) ?_; clear_value x)
    | (intro x; subst x)
    | with_reducible refine State.boundary_keeps ?_ ?_
    | with_reducible refine ite_keeps (fun _ => ?_) (fun _ => ?_)
    | with_reducible refine iteOut_keeps (fun _ => ?_) (fun _ => ?_)
    | with_reducible refine foldl_keeps (fun _ _ _ => ?_) ?_
    | with_reducible refine foldl_kfst (fun _ _ _ => ?_) ?_
    | with_reducible refine foldl_ksnd (fun _ _ _ => ?_) ?_
    | subst x
    | with_reducible split
    | dsimp only

theorem execExtestPulse_keeps {am : Nat} {s₀ : State} {d : Die} {s : State} (ha : Sub 8590196736 am) (hs : Keeps am s₀ s) : KeepsOut am s₀ (execExtestPulse d s) := by
  unfold execExtestPulse
  repeat' first
    | with_reducible assumption
    | exact sub_of ha rfl
    | with_reducible refine keepsOut_next ?_
    | (lift_lets; intro x; refine (fun (hx : Keeps am s₀ x) => ?_) ?_; clear_value x)
    | (intro x; subst x)
    | with_reducible refine State.boundary_keeps ?_ ?_
    | with_reducible refine ite_keeps (fun _ => ?_) (fun _ => ?_)
    | with_reducible refine iteOut_keeps (fun _ => ?_) (fun _ => ?_)
    | with_reducible refine foldl_keeps (fun _ _ _ => ?_) ?_
    | with_reducible refine foldl_kfst (fun _ _ _ => ?_) ?_
    | with_reducible refine foldl_ksnd (fun _ _ _ => ?_) ?_
    | subst x
    | with_reducible split
    | dsimp only

theorem execExtestTrain_keeps {am : Nat} {s₀ : State} {d : Die} {s : State} (ha : Sub 8590196736 am) (hs : Keeps am s₀ s) : KeepsOut am s₀ (execExtestTrain d s) := by
  unfold execExtestTrain
  repeat' first
    | with_reducible assumption
    | exact sub_of ha rfl
    | with_reducible refine keepsOut_next ?_
    | (lift_lets; intro x; refine (fun (hx : Keeps am s₀ x) => ?_) ?_; clear_value x)
    | (intro x; subst x)
    | with_reducible refine State.boundary_keeps ?_ ?_
    | with_reducible refine ite_keeps (fun _ => ?_) (fun _ => ?_)
    | with_reducible refine iteOut_keeps (fun _ => ?_) (fun _ => ?_)
    | with_reducible refine foldl_keeps (fun _ _ _ => ?_) ?_
    | with_reducible refine foldl_kfst (fun _ _ _ => ?_) ?_
    | with_reducible refine foldl_ksnd (fun _ _ _ => ?_) ?_
    | subst x
    | with_reducible split
    | dsimp only

theorem execSamplePreload_keeps {am : Nat} {s₀ : State} {d : Die} {s : State} (ha : Sub 8590196736 am) (hs : Keeps am s₀ s) : KeepsOut am s₀ (execSamplePreload d s) := by
  unfold execSamplePreload
  repeat' first
    | with_reducible assumption
    | exact sub_of ha rfl
    | with_reducible refine keepsOut_next ?_
    | (lift_lets; intro x; refine (fun (hx : Keeps am s₀ x) => ?_) ?_; clear_value x)
    | (intro x; subst x)
    | with_reducible refine State.selectIr_keeps ?_ ?_
    | with_reducible refine ite_keeps (fun _ => ?_) (fun _ => ?_)
    | with_reducible refine iteOut_keeps (fun _ => ?_) (fun _ => ?_)
    | with_reducible refine foldl_keeps (fun _ _ _ => ?_) ?_
    | with_reducible refine foldl_kfst (fun _ _ _ => ?_) ?_
    | with_reducible refine foldl_ksnd (fun _ _ _ => ?_) ?_
    | subst x
    | with_reducible split
    | dsimp only

theorem execIdcode_keeps {am : Nat} {s₀ : State} {d : Die} {s : State} (ha : Sub 8590196740 am) (hs : Keeps am s₀ s) : KeepsOut am s₀ (execIdcode d s) := by
  unfold execIdcode
  repeat' first
    | with_reducible assumption
    | exact sub_of ha rfl
    | with_reducible refine keepsOut_next ?_
    | (lift_lets; intro x; refine (fun (hx : Keeps am s₀ x) => ?_) ?_; clear_value x)
    | (intro x; subst x)
    | with_reducible refine State.out_keeps ?_ ?_
    | with_reducible refine State.selectIr_keeps ?_ ?_
    | with_reducible refine ite_keeps (fun _ => ?_) (fun _ => ?_)
    | with_reducible refine iteOut_keeps (fun _ => ?_) (fun _ => ?_)
    | with_reducible refine foldl_keeps (fun _ _ _ => ?_) ?_
    | with_reducible refine foldl_kfst (fun _ _ _ => ?_) ?_
    | with_reducible refine foldl_ksnd (fun _ _ _ => ?_) ?_
    | subst x
    | with_reducible split
    | dsimp only

theorem execTsttoken_keeps {am : Nat} {s₀ : State} {d : Die} {bytes : List Byte} {s : State} (ha : Sub 12885164082 am) (hs : Keeps am s₀ s) : KeepsOut am s₀ (execTsttoken d bytes s) := by
  unfold execTsttoken
  repeat' first
    | with_reducible assumption
    | exact sub_of ha rfl
    | with_reducible refine keepsOut_next ?_
    | (lift_lets; intro x; refine (fun (hx : Keeps am s₀ x) => ?_) ?_; clear_value x)
    | (intro x; subst x)
    | with_reducible refine State.selectIr_keeps ?_ ?_
    | with_reducible refine State.tokenBytes_keeps ?_ ?_
    | with_reducible refine ite_keeps (fun _ => ?_) (fun _ => ?_)
    | with_reducible refine iteOut_keeps (fun _ => ?_) (fun _ => ?_)
    | with_reducible refine foldl_keeps (fun _ _ _ => ?_) ?_
    | with_reducible refine foldl_kfst (fun _ _ _ => ?_) ?_
    | with_reducible refine foldl_ksnd (fun _ _ _ => ?_) ?_
    | subst x
    | with_reducible split
    | dsimp only

theorem execBypass_keeps {am : Nat} {s₀ : State} {d : Die} {code : Byte} {s : State} (ha : Sub 8590196736 am) (hs : Keeps am s₀ s) : KeepsOut am s₀ (execBypass d code s) := by
  unfold execBypass
  repeat' first
    | with_reducible assumption
    | exact sub_of ha rfl
    | with_reducible refine keepsOut_next ?_
    | (lift_lets; intro x; refine (fun (hx : Keeps am s₀ x) => ?_) ?_; clear_value x)
    | (intro x; subst x)
    | with_reducible refine State.selectIr_keeps ?_ ?_
    | with_reducible refine ite_keeps (fun _ => ?_) (fun _ => ?_)
    | with_reducible refine iteOut_keeps (fun _ => ?_) (fun _ => ?_)
    | with_reducible refine foldl_keeps (fun _ _ _ => ?_) ?_
    | with_reducible refine foldl_kfst (fun _ _ _ => ?_) ?_
    | with_reducible refine foldl_ksnd (fun _ _ _ => ?_) ?_
    | subst x
    | with_reducible split
    | dsimp only

end Sys2Proof.Machine
end

