-- ==== Sys2Proof/Laws/Ops.lean ====
section
/-! SUPPORT. What the shared operations read back: registers and their fields, general registers, units. -/

namespace Sys2Proof.Machine

/-! ## Bit fields -/

theorem Bits.get_put_same (w : W64) {hi lo : Nat} (v : Nat) (h1 : lo ≤ hi) (h2 : hi < 64) : Bits.get (Bits.put w hi lo v) hi lo = v % 2 ^ (hi + 1 - lo) := by
  apply Nat.eq_of_testBit_eq
  intro i
  simp only [Bits.get, Bits.put, Bits.mask, Nat.testBit_mod_two_pow, Nat.testBit_shiftRight, BitVec.testBit_toNat,
    BitVec.getLsbD_or, BitVec.getLsbD_and, BitVec.getLsbD_not, BitVec.getLsbD_ofNat, Nat.testBit_shiftLeft, Nat.testBit_two_pow_sub_one]
  by_cases hi' : i < hi + 1 - lo
  · have a : lo + i < 64 := by omega
    have b : lo ≤ lo + i := by omega
    have c : lo + i - lo = i := by omega
    simp [hi', a, c]
  · simp [hi']

/-- Another field of the word is as it was. -/
theorem Bits.get_put_other (w : W64) {hi lo hi' lo' : Nat} (v : Nat) (h : hi' < lo ∨ hi < lo') : Bits.get (Bits.put w hi lo v) hi' lo' = Bits.get w hi' lo' := by
  apply Nat.eq_of_testBit_eq
  intro i
  simp only [Bits.get, Bits.put, Bits.mask, Nat.testBit_mod_two_pow, Nat.testBit_shiftRight, BitVec.testBit_toNat,
    BitVec.getLsbD_or, BitVec.getLsbD_and, BitVec.getLsbD_not, BitVec.getLsbD_ofNat, Nat.testBit_shiftLeft, Nat.testBit_two_pow_sub_one]
  by_cases hi1 : i < hi' + 1 - lo'
  · by_cases a : lo' + i < 64
    · have b : ¬ (lo ≤ lo' + i ∧ lo' + i - lo < hi + 1 - lo) := by omega
      by_cases c : lo ≤ lo' + i
      · have d : ¬ lo' + i - lo < hi + 1 - lo := by omega
        simp [hi1, a, c, d]
      · simp [hi1, a, c]
    · have e : w.getLsbD (lo' + i) = false := BitVec.getLsbD_of_ge w _ (by omega)
      simp [a, e]
  · simp [hi1]

theorem Bits.get_lt (w : W64) (hi lo : Nat) : Bits.get w hi lo < 2 ^ (hi + 1 - lo) := Nat.mod_lt _ (Nat.two_pow_pos _)

/-! ## Registers -/

@[simp] theorem State.reg_setReg_same (s : State) (k : Nat) (v : W64) : (s.setReg k v).reg k = v := KMap.get_set_same _ _ _ _

theorem State.reg_setReg_other (s : State) {k j : Nat} (v : W64) (h : j ≠ k) : (s.setReg k v).reg j = s.reg j := KMap.get_set_other _ _ _ _ h

/-- A field reads as what was written to it last, cut to its width. -/
theorem State.fld_setFld_same (s : State) (p : Nat) (f : Fld) (v : Nat) (h1 : f.lo ≤ f.hi) (h2 : f.hi < 64) :
    (s.setFld p f v).fld p f = v % 2 ^ (f.hi + 1 - f.lo) := by
  simp only [State.setFld, State.fld, State.reg_setReg_same]
  exact Bits.get_put_same _ _ h1 h2

/-- A field at another address, or of other bits, is as it was. -/
theorem State.fld_setFld_other (s : State) {p q : Nat} {f g : Fld} (v : Nat) (h : q + g.off ≠ p + f.off ∨ g.hi < f.lo ∨ f.hi < g.lo) :
    (s.setFld p f v).fld q g = s.fld q g := by
  simp only [State.setFld, State.fld]
  by_cases e : q + g.off = p + f.off
  · rw [e, State.reg_setReg_same]
    exact Bits.get_put_other _ _ (by omega)
  · rw [State.reg_setReg_other _ _ e]

@[simp] theorem State.reg_out (s : State) (v : W64) (k : Nat) : (s.out v).reg k = s.reg k := rfl

/-! ## Registers behind updates of other parts -/

@[simp] theorem State.reg_withPending (s : State) (x) (k : Nat) : (s.withPending x).reg k = s.reg k := rfl
@[simp] theorem State.reg_withFree (s : State) (x) (k : Nat) : (s.withFree x).reg k = s.reg k := rfl
@[simp] theorem State.reg_withRdData (s : State) (x) (k : Nat) : (s.withRdData x).reg k = s.reg k := rfl
@[simp] theorem State.reg_withErrCtx (s : State) (x) (k : Nat) : (s.withErrCtx x).reg k = s.reg k := rfl
@[simp] theorem State.reg_withEvents (s : State) (x) (k : Nat) : (s.withEvents x).reg k = s.reg k := rfl
@[simp] theorem State.reg_withPlat (s : State) (x) (k : Nat) : (s.withPlat x).reg k = s.reg k := rfl
@[simp] theorem State.reg_withSst (s : State) (x) (k : Nat) : (s.withSst x).reg k = s.reg k := rfl
@[simp] theorem State.reg_withCores (s : State) (x) (k : Nat) : (s.withCores x).reg k = s.reg k := rfl
@[simp] theorem State.reg_withScratch (s : State) (x) (k : Nat) : (s.withScratch x).reg k = s.reg k := rfl
@[simp] theorem State.reg_withClusters (s : State) (x) (k : Nat) : (s.withClusters x).reg k = s.reg k := rfl
@[simp] theorem State.reg_withBanks (s : State) (x) (k : Nat) : (s.withBanks x).reg k = s.reg k := rfl
@[simp] theorem State.reg_withMxes (s : State) (x) (k : Nat) : (s.withMxes x).reg k = s.reg k := rfl
@[simp] theorem State.reg_withVxes (s : State) (x) (k : Nat) : (s.withVxes x).reg k = s.reg k := rfl
@[simp] theorem State.reg_withBins (s : State) (x) (k : Nat) : (s.withBins x).reg k = s.reg k := rfl
@[simp] theorem State.reg_withWork (s : State) (x) (k : Nat) : (s.withWork x).reg k = s.reg k := rfl
@[simp] theorem State.reg_withHstOp (s : State) (x) (k : Nat) : (s.withHstOp x).reg k = s.reg k := rfl
@[simp] theorem State.reg_withMem (s : State) (x) (k : Nat) : (s.withMem x).reg k = s.reg k := rfl
@[simp] theorem State.reg_withMs (s : State) (x) (k : Nat) : (s.withMs x).reg k = s.reg k := rfl
@[simp] theorem State.reg_withUpd (s : State) (x) (k : Nat) : (s.withUpd x).reg k = s.reg k := rfl
@[simp] theorem State.reg_withCommit (s : State) (x) (k : Nat) : (s.withCommit x).reg k = s.reg k := rfl
@[simp] theorem State.reg_withUus (s : State) (x) (k : Nat) : (s.withUus x).reg k = s.reg k := rfl
@[simp] theorem State.reg_withJournals (s : State) (x) (k : Nat) : (s.withJournals x).reg k = s.reg k := rfl
@[simp] theorem State.reg_withStg (s : State) (x) (k : Nat) : (s.withStg x).reg k = s.reg k := rfl
@[simp] theorem State.reg_withSync (s : State) (x) (k : Nat) : (s.withSync x).reg k = s.reg k := rfl
@[simp] theorem State.reg_withNet (s : State) (x) (k : Nat) : (s.withNet x).reg k = s.reg k := rfl
@[simp] theorem State.reg_withCr (s : State) (x) (k : Nat) : (s.withCr x).reg k = s.reg k := rfl
@[simp] theorem State.reg_withHost (s : State) (x) (k : Nat) : (s.withHost x).reg k = s.reg k := rfl
@[simp] theorem State.reg_withRcv (s : State) (x) (k : Nat) : (s.withRcv x).reg k = s.reg k := rfl
@[simp] theorem State.reg_withLdg (s : State) (x) (k : Nat) : (s.withLdg x).reg k = s.reg k := rfl
@[simp] theorem State.reg_withPwr (s : State) (x) (k : Nat) : (s.withPwr x).reg k = s.reg k := rfl
@[simp] theorem State.reg_withBoot (s : State) (x) (k : Nat) : (s.withBoot x).reg k = s.reg k := rfl
@[simp] theorem State.reg_withTap (s : State) (x) (k : Nat) : (s.withTap x).reg k = s.reg k := rfl

theorem State.fld_setReg_other (s : State) {k p : Nat} {f : Fld} (v : W64) (h : p + f.off ≠ k) : (s.setReg k v).fld p f = s.fld p f := by
  simp only [State.fld, State.reg_setReg_other _ _ h]

theorem State.bitF_eq (s : State) (p : Nat) (f : Fld) (h : f.hi = f.lo) : s.bitF p f = decide (s.fld p f = 1) := by
  have e : (s.reg (p + f.off)).getLsbD f.lo = (s.reg (p + f.off)).toNat.testBit f.lo := rfl
  simp only [State.bitF, State.fld, Bits.get, h, e, Nat.add_sub_cancel_left, Nat.pow_one, Nat.testBit, Nat.and_comm 1, Nat.and_one_is_mod]
  rcases Nat.mod_two_eq_zero_or_one ((s.reg (p + f.off)).toNat >>> f.lo) with h | h <;> simp [h]

/-- A bit reads as what was written to it last. -/
theorem State.bitF_setBitF_same (s : State) (p : Nat) (f : Fld) (b : Bool) (h1 : f.hi = f.lo) (h2 : f.hi < 64) : (s.setBitF p f b).bitF p f = b := by
  rw [State.bitF_eq _ _ _ h1, State.setBitF, State.fld_setFld_same _ _ _ _ (by omega) h2, h1, Nat.add_sub_cancel_left]
  cases b <;> rfl

theorem State.bitF_setFld_other (s : State) {p q : Nat} {f g : Fld} (v : Nat) (hg : g.hi = g.lo) (h : q + g.off ≠ p + f.off ∨ g.hi < f.lo ∨ f.hi < g.lo) :
    (s.setFld p f v).bitF q g = s.bitF q g := by
  rw [State.bitF_eq _ _ _ hg, State.bitF_eq _ _ _ hg, State.fld_setFld_other _ _ h]

theorem State.bitF_setBitF_other (s : State) {p q : Nat} {f g : Fld} (b : Bool) (hg : g.hi = g.lo) (h : q + g.off ≠ p + f.off ∨ g.hi < f.lo ∨ f.hi < g.lo) :
    (s.setBitF p f b).bitF q g = s.bitF q g := State.bitF_setFld_other _ _ hg h

theorem State.fld_setBitF_other (s : State) {p q : Nat} {f g : Fld} (b : Bool) (h : q + g.off ≠ p + f.off ∨ g.hi < f.lo ∨ f.hi < g.lo) :
    (s.setBitF p f b).fld q g = s.fld q g := State.fld_setFld_other _ _ h

theorem State.fld_addFld_same (s : State) (p : Nat) (f : Fld) (n : Nat) (h1 : f.lo ≤ f.hi) (h2 : f.hi < 64) :
    (s.addFld p f n).fld p f = min (2 ^ (f.hi + 1 - f.lo) - 1) (s.fld p f + n) := by
  rw [State.addFld, State.fld_setFld_same _ _ _ _ h1 h2]
  apply Nat.mod_eq_of_lt
  have := Nat.two_pow_pos (f.hi + 1 - f.lo)
  simp only [satAdd]; omega

/-- Setting an error bit changes ERR_STAT and EVT_SEL of the page, and no other register. -/
theorem State.reg_setErr_other (s : State) {p ctx k : Nat} {f : Fld} (h1 : k ≠ p + 0x20) (h2 : k ≠ p + 0x38) : (s.setErr p f ctx).reg k = s.reg k := by
  simp only [State.setErr, State.setErrBit]
  split
  · simp only [State.addFld, State.setFld]
    rw [State.reg_setReg_other _ _ (by exact h2)]
    exact State.reg_setReg_other _ _ h1
  · exact State.reg_setReg_other _ _ h1

theorem State.fld_setErr_other (s : State) {p q ctx : Nat} {f g : Fld} (h1 : q + g.off ≠ p + 0x20) (h2 : q + g.off ≠ p + 0x38) :
    (s.setErr p f ctx).fld q g = s.fld q g := by
  simp only [State.fld, State.reg_setErr_other _ h1 h2]

theorem State.bitF_setErr_other (s : State) {p q ctx : Nat} {f g : Fld} (h1 : q + g.off ≠ p + 0x20) (h2 : q + g.off ≠ p + 0x38) :
    (s.setErr p f ctx).bitF q g = s.bitF q g := by
  simp only [State.bitF, State.reg_setErr_other _ h1 h2]

/-- The error bit itself ends set (R18). -/
theorem State.bitF_setErr_same (s : State) (p ctx : Nat) (f : Fld) (h0 : f.off = 0x20) (h2 : f.lo < 64) : (s.setErr p f ctx).bitF p f = true := by
  have e : (s.setErr p f ctx).reg (p + 0x20) = Bits.putBit (s.reg (p + 0x20)) f.lo true := by
    simp only [State.setErr, State.setErrBit]
    split
    · simp only [State.addFld, State.setFld]
      rw [State.reg_setReg_other _ _ (by show p + 0x20 ≠ p + 0x38; omega)]
      exact State.reg_setReg_same _ _ _
    · exact State.reg_setReg_same _ _ _
  rw [State.bitF, h0, e]
  have c : (BitVec.ofNat 64 (1 <<< f.lo)).getLsbD f.lo = true := by simp [BitVec.getLsbD_ofNat, h2]
  simp only [Bits.putBit, Bits.put, Bits.mask, Nat.add_sub_cancel_left, Nat.pow_one, if_true]
  simp only [BitVec.getLsbD_or, BitVec.getLsbD_and, c, Bool.and_self, Bool.or_true]

/-! ## Units -/

@[simp] theorem State.core_setCore_same (s : State) (c : Nat) (x : Core) : (s.setCore c x).core c = x := KMap.get_set_same _ _ _ _
theorem State.core_setCore_other (s : State) {c d : Nat} (x : Core) (h : d ≠ c) : (s.setCore c x).core d = s.core d := KMap.get_set_other _ _ _ _ h
@[simp] theorem State.clu_setClu_same (s : State) (c : Nat) (x : Cluster) : (s.setClu c x).clu c = x := KMap.get_set_same _ _ _ _
theorem State.clu_setClu_other (s : State) {c d : Nat} (x : Cluster) (h : d ≠ c) : (s.setClu c x).clu d = s.clu d := KMap.get_set_other _ _ _ _ h
@[simp] theorem State.mxe_setMxe_same (s : State) (e : Nat) (x : Mxe) : (s.setMxe e x).mxe e = x := KMap.get_set_same _ _ _ _
theorem State.mxe_setMxe_other (s : State) {e d : Nat} (x : Mxe) (h : d ≠ e) : (s.setMxe e x).mxe d = s.mxe d := KMap.get_set_other _ _ _ _ h
@[simp] theorem State.vxe_setVxe_same (s : State) (v : Nat) (x : Option ChainRun) : (s.setVxe v x).vxe v = x := KMap.get_set_same _ _ _ _
theorem State.vxe_setVxe_other (s : State) {v d : Nat} (x : Option ChainRun) (h : d ≠ v) : (s.setVxe v x).vxe d = s.vxe d := KMap.get_set_other _ _ _ _ h
@[simp] theorem State.uu_setUu_same (s : State) (u : Nat) (x : Uu) : (s.setUu u x).uu u = x := KMap.get_set_same _ _ _ _
theorem State.uu_setUu_other (s : State) {u d : Nat} (x : Uu) (h : d ≠ u) : (s.setUu u x).uu d = s.uu d := KMap.get_set_other _ _ _ _ h
@[simp] theorem State.tileQ_setTileQ (s : State) (c slot : Nat) (q : List TileCmd) : ((s.setTileQ c slot q).clu c).tileQ slot = q := by
  simp [State.setTileQ, Cluster.tileQ]
@[simp] theorem State.port_setPort_same (s : State) (p : Nat) (x : Port) : (s.setPort p x).port p = x := KMap.get_set_same _ _ _ _

/-! ## General registers (R156) -/

/-- G0 reads as zero, whatever was written. -/
@[simp] theorem State.g_zero (s : State) (c : Nat) : s.g c 0 = 0 := rfl

theorem State.g_setG_same (s : State) (c : Nat) {r : Nat} (v : W64) (h : r ≠ 0) : (s.setG c r v).g c r = v := by
  simp [State.g, State.setG, h, KMap.get_set_same]

theorem State.g_setG_other (s : State) (c : Nat) {r q : Nat} (v : W64) (h : q ≠ r) : (s.setG c r v).g c q = s.g c q := by
  by_cases hr : r = 0
  · simp [State.setG, hr]
  · by_cases hq : q = 0
    · simp [hq]
    · simp [State.g, State.setG, hr, hq, KMap.get_set_other _ _ _ _ h]

theorem State.g_setG_core (s : State) {c d : Nat} (r q : Nat) (v : W64) (h : d ≠ c) : (s.setG c r v).g d q = s.g d q := by
  by_cases hr : r = 0
  · simp [State.setG, hr]
  · simp [State.g, State.setG, hr, State.core_setCore_other _ _ h]

@[simp] theorem State.g_nextPc (s : State) (c d q : Nat) : (s.nextPc c).g d q = s.g d q := by
  by_cases h : d = c
  · subst h; simp [State.g, State.nextPc, State.setPc]
  · simp [State.g, State.nextPc, State.setPc, State.core_setCore_other _ _ h]

/-- An instruction returns its value in RD; G0 stays zero. -/
theorem State.g_ret (s : State) (c rd : Nat) (v : W64) : (s.ret c rd v).g c rd = if rd = 0 then 0 else v := by
  unfold State.ret
  by_cases h : rd = 0
  · simp [h]
  · simp [h, State.g_setG_same]

theorem State.g_ret_other (s : State) (c rd : Nat) (v : W64) {q : Nat} (h : q ≠ rd) : (s.ret c rd v).g c q = s.g c q := by
  simp [State.ret, State.g_setG_other _ _ _ h]

theorem State.g_ret_core (s : State) {c d : Nat} (rd q : Nat) (v : W64) (h : d ≠ c) : (s.ret c rd v).g d q = s.g d q := by
  simp [State.ret, State.g_setG_core _ _ _ _ h]

end Sys2Proof.Machine
end

