-- ==== Sys2Proof/Tests/Slice0.lean ====
section
/-! SUPPORT. Tests of the model by small cases: for every statement of Certificates/Slice0/Obligations.lean that has hypotheses, a state and operands that meet
them together, clause by clause (witness_…); ill-formed commands that WellFormed refuses; and the worked examples of the specification. -/

open Sys2Proof Sys2Proof.Machine

-- One theorem after the other: side by side the evaluations of the kernel hold a thread each, and their stacks fill the memory.
set_option Elab.async false

namespace Sys2Proof.Tests

/-! ## States to start from -/

/-- A package in RUN: recovery at rest, BOOT at READY, the cores of cluster 0 running in context 5. -/
def on : State :=
  ((((State.reset.setFld Pg.rcv F.rcvStatPhase 0).setPhase Ph.ready).setFld (Pg.clu 0) F.cluCoreRun 0x7F).setBitF (Pg.clu 0) F.cluCtxValid true).setFld
    (Pg.clu 0) F.cluCtxCtx 5

/-- An F8 tile of one row, one column and one K-block (R91, R93), and a tile in hand of it. -/
def tile : TileCmd := ⟨[0x0100000040000000, 0x0003000300010001, 64, 0, 0x0000004000000000, 0x1000, 0x0000000800000000, 0], false, 0, [0, 1, 2, 3], 0⟩
/-- A pair of tiles that share the first tile's A (R120, R122): 64 rows, one column and one K-block, and one row, 64 columns and one K-block. -/
def tileP : TileCmd := ⟨[0x0100000040000000, 0x0003000300400001, 64, 0, 0x0000004000000000, 0x1000, 0x0000000800000000, 0], false, 1, [0, 1, 2, 3], 0⟩
def tileQ : TileCmd := ⟨[0x0100000060000000, 0x0003000300010040, 64, 0x1000, 0x0000004000000000, 0, 0x0000004000000000, 0], false, 2, [0, 1, 2, 3], 1⟩
def tileRun (entry phase : Nat) (draining : Bool) : TileRun :=
  ⟨tile, 0, 0, 0, [0], [], none, [], [], false, false, false, false, entry, 1, 0, phase, draining, false⟩
def withRun (r : TileRun) : State := on.setMxe 0 { Mxe.reset with runs := [r] }
/-- A chain of kernel 0 in hand that has not claimed its entry, and an entry of tag 0 of context 5. -/
def chain : ChainRun := ⟨⟨List.replicate 24 0, [], 0, 0, 0, [0, 1], 0⟩, 0, [], [], 0, false, false, none⟩
def lost : ChainCmd := { chain.cmd with engines := [] }
def entry (tag : Nat) : Fte := ⟨[], 0, tag, 1, 1, false, false, false, false, false, 1⟩
def withChain (tag : Nat) : State := (on.setVxe 0 (some chain)).setMxe 0 { Mxe.reset with ftq := [entry tag] }

/-- A region of one stack: 64 KiB of local addresses from 0 on in stack 0. -/
def region : State := ((State.reset.setFld Pg.map F.mapRgnCfgMode 2).setFld Pg.map F.mapRgnSizeSize 1).setFld Pg.map F.mapRgnBaseLbase 0
/-- The same region, valid. -/
def mapped : State := (on.setBitF Pg.map F.mapRgnCfgValid true).setFld Pg.map F.mapRgnSizeSize 1
/-- A running update command of context 5 whose chunk 0 is unit 0's. -/
def upd : UpdCmd := ⟨0, false, 0, 1, List.replicate 16 0, true, [], [], [], 0, [(0, 0)], [], [], [], [], false⟩
def doneUpd : UpdCmd := { upd with todo := [], done := [(0, 0, [])] }
/-- The same with a format of segments and 1,152 columns (R225), whose unit 0 still owes its segment pass. -/
def segUpd : UpdCmd := { doneUpd with words := [0, 0, 1152, 0, 0x1010000000000000] }
def segUpd0 : UpdCmd := { segUpd with todo := [(0, 0)] }
def withUpd (k : UpdCmd) : State := on.withUpd [k]
/-- Unit 0 with the lane groups of chunk 0 in hand. -/
def hand : State := (withUpd segUpd0).setUu 0 { Uu.reset with hand := some ⟨0, 1, 0, 0, []⟩ }
def section0 : State := on.setUu 0 { Uu.reset with section_ := true }
/-- Stage 0 of context 5 on cluster 0, with in-queue 0 and out-link 0 open, both of stage 0, and G1 = 0. -/
def staged : State :=
  ((((((((on.setBitF Pg.stg F.stgStageValid true).setFld Pg.stg F.stgStageCtx 5).setFld Pg.stg F.stgStageClusters 1).setBitF (inPg 0) F.slqIncfgValid true).setFld
    (inPg 0) F.slqIncfgState Sl.open_).setBitF (inPg 0) F.slqOutcfgValid true).setFld (inPg 0) F.slqOutcfgState Sl.outOpen).setFld (inPg 0) F.slqOutcfgDepth 1).setFld
    (inPg 0) F.slqIncfgStride 1
/-- A descriptor of 64 bytes in cluster 0 (R251), as scratch words at 0. -/
def descr : List W64 := [0x2000000000000000, 0, 0, 0, 0, 0xF00000000000, 64, 0]
def pushing : State := staged.setScratchWords 0 0 descr
/-- A version table in cluster 0 whose entry 0 belongs to context 5 and holds the current version 3 in slot 0, referenced once. -/
def versioned : State :=
  (((((staged.setBitF Pg.stg F.stgVtblAValid true).setBitF Pg.stg F.stgVtblBValid true).setFld Pg.stg F.stgVtblABase (0xF00000000000 / 128)).setFld
    Pg.stg F.stgVtblBBase (0xF00000000800 / 128)).setVt 0 0 0x8005010000000000).setVs 0 0 Vs.current 1 3

/-- The first word of cluster 0 with the full bit and poison bit given, and G1 its address, G2 = 1. -/
def word (full poison : Bool) : State :=
  let s := (on.setG 0 1 0xF00000000000).setG 0 2 1
  (s.setFull (s.keyOf 0xF00000000000) full).setPoison (s.keyOf 0xF00000000000) poison
/-- What an operation on that word answers. -/
def wordAfter (s : State) (op : WordOp) : Nat × Option W64 × State := ((s.chargeAtomic 0 (s.partOf (s.coreCtx 0)) 0xF00000000000).wordOp 0xF00000000000 op).getD (0, none, s)
/-- Barrier 0 armed for context 5 and slot 0. -/
def armed : State :=
  (((on.setBitF (Pg.bar 0) F.barCfgValid true).setFld (Pg.bar 0) F.barCfgCtx 5).setReg (Pg.bar 0 + 0x108) 1).setFld (Pg.bar 0) F.barStatState Bar.armed
/-- Entry 255 of the claim table holds the first word of cluster 0 for context 5, and G1 its address. -/
def claimed : State := (on.withSync { State.reset.sync with claims := [(255, some ⟨0xF00000000000, 8, 5, false⟩)] }).setG 0 1 0xF00000000000
/-- Ports 0 and 4 in a state, their protocol version 3. -/
def ports (st : Nat) : State := (((State.reset.setLnk 0 st).setLnk 4 st).setFld (Pg.lnk 0) F.lnkStatVersion 3).setFld (Pg.lnk 4) F.lnkStatVersion 3
def hello : Hello := ⟨true, false, false, 0, 0, 0, 0, 0, 0⟩
/-- A packet to device 1 that die 0 holds, and the package with that device behind port 0 in version 0. -/
def packet : List W64 := mkPkt { State.reset.head 1 0 Op.put with addr := 0, len := 0 } []
def holding : State := ((ports Lk.routed).withNet { State.reset.net with held := [⟨packet, 0, 24⟩] })
def routing : State := ((holding.setVerState 0 Ver.active).withNet { holding.net with routes := [(1, 0x8000000100000000)], ports := [(0, { Port.reset with alloc := [(0, 1280)] })] })

def porterOp (num status dev : Nat) : PortOp := ⟨num, 0, 5, [0x4000000000000000, BitVec.ofNat 64 (dev * 2 ^ 48), 0, 0, 0, 0], [], 0, none, 0, status, 0, []⟩
/-- The put that carries the payload of message 7 of out-link 0, ended with a status. -/
def payloadOp (status : Nat) : PortOp := ⟨0, 12, 5, [0x4000000000000000, 0x0001000000000000, 0, 0, 0, payloadMark 0 7], [], 0, none, 0, status, 0, []⟩
def porters (l : List PortOp) : State := on.withNet { State.reset.net with ops := l }
/-- A packet from device 1 for this package that die 0 has not taken, and import window 0 open in context 5 for that device on the first page of cluster 0. -/
def fromOne (op addr len seq : Nat) (payload : List W64) : List W64 := mkPkt { on.head 0 0 op with src := 1, addr := addr, len := len, seq := seq } payload
def arrivedAt (s : State) (ws : List W64) : State := s.withNet { s.net with sunk := [⟨ws, 0, 0⟩] }
def window : State :=
  (((((on.setReg (Pg.rwin + F.rwinSrcValid.off) 0xFC00000000000000).setFld Pg.rwin F.rwinSrcSrclo 0).setFld Pg.rwin F.rwinSrcSrchi 1).setFld Pg.rwin F.rwinBaseLbase
    0xF00000000).setFld Pg.rwin F.rwinSizeSize 1).setFld Pg.rwin F.rwinSrcCtx 5
/-- An acknowledgement from device 1 whose slot 0 of die 0 is that of operation 0, of the generation given. -/
def replied (gen : Nat) : State := (arrivedAt (porters [porterOp 0 0 1]) (fromOne Op.ack 0 0 0 [])).setSlot 0 ⟨gen, some (5, .porter 0 0 0)⟩
/-- A package in RUN whose port 0 leads to device 1. -/
def linked : State := ((((on.setLnk 0 Lk.routed).setFld (Pg.lnk 0) F.lnkStatVersion 3).setVerState 0 Ver.active).withNet
  { on.net with routes := [(1, 0x8000000100000000)], ports := [(0, { Port.reset with alloc := [(0, 1280)] })] })
/-- Group 0 of devices 0 and 1 in context 5, and a collective of it. -/
def grp : Group := { die := 0, gid := 0, ctx := 5, members := [0, 1], rank := 0, node := 1, window := 4, chunk := 128, state := 0xF00000001000, hier := false, lepoch := 0, failed := false, heard := [1], intake := [] }
def collWords (op src : Nat) : List W64 := [BitVec.ofNat 64 (0x4005000000000000 + op * 2 ^ 44), 0x0000000300000000, 2, BitVec.ofNat 64 src, 0xF00000000000, 0, 0, 0]
def coll (op src : Nat) (run : Bool) (step st : Nat) : Coll := ⟨0, 0, 5, collWords op src, run, [(step, 0)], [step], [], [], [], st⟩
def colls (l : List Coll) : State := linked.withCr ⟨[grp], l, 1, []⟩
def issuing (op src : Nat) : State := (colls []).setScratchWords 0 0 (collWords op src)
/-- An acknowledgement from device 1 of the chunk of slot 0. -/
def chunkReplied : State := (arrivedAt (colls [coll 7 0 true 0 0]) (fromOne Op.ack 0 0 0 [])).setSlot 0 ⟨0, some (5, .chunk 0 1 0)⟩
/-- A host command at the head of queue 0. -/
def hostCmd (words : List W64) : State := on.setSqCmds 0 [⟨1, 5, words, true, false, none, false⟩]
def cmdOf (words : List W64) : SqCmd := ⟨1, 5, words, true, false, none, false⟩
/-- A job of one axis: its size, and the map in cluster 0 at 0x800; device 0 at coordinate 0, and device 1 elsewhere. -/
def jobWords (size : Nat) : List W64 := [0x3005100000000000, BitVec.ofNat 64 size, 0, 0xF00000000800, 0xF00000000000, 0]
def jobState (size : Nat) : State := (hostCmd (jobWords size)).storeNat 0xF00000000802 2 1

/-- CRC-32C has 32 bits (R310). -/
theorem crc32c_lt (bs : List Byte) : crc32c bs < 2 ^ 32 := by
  have step : ∀ (c : Nat) (b : Byte), c < 2 ^ 32 → crcByte 0x82F63B78 c b < 2 ^ 32 := by
    intro c b h
    have hb : b.toNat < 2 ^ 32 := Nat.lt_of_lt_of_le b.isLt (by decide)
    have bits : ∀ (l : List Nat) (c : Nat), c < 2 ^ 32 → l.foldl (fun c _ => if c % 2 = 1 then (c / 2) ^^^ 0x82F63B78 else c / 2) c < 2 ^ 32 := by
      intro l
      induction l with
      | nil => exact fun _ h => h
      | cons x l ih =>
        intro c h
        refine ih _ ?_
        show (if c % 2 = 1 then (c / 2) ^^^ 0x82F63B78 else c / 2) < 2 ^ 32
        split
        · exact Nat.xor_lt_two_pow (by omega) (by decide)
        · omega
    exact bits _ _ (Nat.xor_lt_two_pow h hb)
  have all : ∀ (l : List Byte) (c : Nat), c < 2 ^ 32 → l.foldl (crcByte 0x82F63B78) c < 2 ^ 32 := by
    intro l
    induction l with
    | nil => exact fun _ h => h
    | cons x l ih => exact fun c h => ih _ (step c x h)
  exact Nat.xor_lt_two_pow (all _ _ (by decide)) (by decide)
/-- A request frame without items (R368), of the first word and the FCRC given; one of version 3 whose FCRC is right, one of version 0, and one whose FCRC is
another. -/
def frameOf (v : W64) (c : Nat) : List W64 := [v, 0, 0, 0, 0, 0, 0, BitVec.ofNat 64 (c * 2 ^ 32)]
def frame : List W64 := frameOf 0x300 (Fr.crc [0x300])
def oldFrame : List W64 := frameOf 0 (Fr.crc [0])
def badFrame : List W64 := frameOf 0x300 ((Fr.crc [0x300] + 1) % 2 ^ 32)
theorem frameOf_fcrc (v : W64) (c : Nat) (h : c < 2 ^ 32) : Fr.fcrc (frameOf v c) = c := by
  show ((BitVec.ofNat 64 (c * 2 ^ 32)).toNat >>> 32) % 2 ^ 32 = _
  rw [BitVec.toNat_ofNat, Nat.shiftRight_eq_div_pow]
  omega
theorem frameOf_crc (v : W64) (c : Nat) : Fr.crc (frameOf v c) = Fr.crc [v] := by
  have e : BitVec.ofNat 64 (c * 2 ^ 32) = BitVec.ofNat 64 c <<< 32 := by
    apply BitVec.eq_of_toNat_eq
    simp only [BitVec.toNat_shiftLeft, BitVec.toNat_ofNat, Nat.shiftLeft_eq]
    omega
  have p : Bits.put (BitVec.ofNat 64 (c * 2 ^ 32)) 63 32 0 = 0 := by
    rw [e]
    generalize BitVec.ofNat 64 c = w
    apply BitVec.eq_of_getLsbD_eq
    intro i hi
    have m : ~~~Bits.mask 63 32 = BitVec.ofNat 64 (2 ^ 32 - 1) := by decide
    simp only [Bits.put, m, Nat.zero_shiftLeft, BitVec.getLsbD_or, BitVec.getLsbD_and, BitVec.getLsbD_shiftLeft, BitVec.getLsbD_ofNat, Nat.testBit_two_pow_sub_one]
    by_cases hi32 : i < 32 <;> simp [hi32]
  have w : ∀ j, j ≠ 7 → Fr.word (frameOf v c) j = Fr.word [v] j := by
    intro j hj
    match j with
    | 0 | 1 | 2 | 3 | 4 | 5 | 6 => rfl
    | 7 => exact absurd rfl hj
    | n + 8 => rfl
  have l : (List.range 512).map (fun i => if i = 7 then Bits.put (Fr.word (frameOf v c) 7) 63 32 0 else Fr.word (frameOf v c) i) =
      (List.range 512).map (fun i => if i = 7 then Bits.put (Fr.word [v] 7) 63 32 0 else Fr.word [v] i) := by
    refine List.map_congr_left fun j _ => ?_
    by_cases hj : j = 7
    · simp only [hj, if_true]; exact p.trans (by show (0 : W64) = Bits.put 0 63 32 0; decide)
    · simp only [hj, if_false]; exact w j hj
  unfold Fr.crc
  rw [l]
/-- A frame whose FCRC is right passes, whatever its version, and one of another FCRC does not (R366, R393). -/
theorem test_frame_ok : Fr.ok frame = true :=
  decide_eq_true ((frameOf_fcrc _ _ (crc32c_lt _)).trans (frameOf_crc _ _).symm)
theorem test_frame_old : Fr.ok oldFrame = true :=
  decide_eq_true ((frameOf_fcrc _ _ (crc32c_lt _)).trans (frameOf_crc _ _).symm)
theorem test_frame_bad : Fr.ok badFrame = false := decide_eq_false fun h => by
  have l : Fr.crc [0x300] < 2 ^ 32 := crc32c_lt _
  rw [badFrame, frameOf_fcrc _ _ (Nat.mod_lt _ (by decide)), frameOf_crc] at h
  omega
/-- The two lane sets in the states given. -/
def lanes (a b : Nat) : State := (State.reset.setLane false a).setLane true b
/-- A command of queue 255 that waits for its mirror copies. -/
def fresh : State := on.withHost { State.reset.host with fresh := [(255, 1)] }
def boot (phase : Nat) : State := State.reset.setPhase phase
/-- A seal of context 5 in cluster 0, applied or not. -/
def sealOf (applied : Bool) : Seal := ⟨0, 5, 0xF00000000000, [0, 0, 0, 0], applied, 0, none, 0⟩
def sealing (x : Seal) : State := on.withLdg { State.reset.ldg with seals := [x] }
theorem witness_stepTakesFront :
    (∃ (c : Instr) (rest : List Instr) (s : State), s.pending = c :: rest) ∧
    (∃ (s : State), s.pending = []) :=
  ⟨⟨(.gatherComplete ⟨0, []⟩), [], (State.reset.withPending [.gatherComplete ⟨0, []⟩]), by decide +kernel⟩,
   ⟨State.reset, by decide +kernel⟩⟩

theorem witness_queueUntouched :
    (∃ (c : Instr) (s : State) (t : State), exec c s = .next t) :=
  ⟨(.barDisarm 0), State.reset, (((State.reset.setBitF (Pg.bar 0) F.barCfgValid false).setFld (Pg.bar 0) F.barStatState Bar.idle).releaseBroken 0), rfl⟩

theorem witness_commandsTouchOnlyTheirParts :
    (∃ (c : Instr) (s : State) (t : State) (p : Part), exec c s = .next t ∧ p ∉ touched c) :=
  ⟨(.barDisarm 0), State.reset, (((State.reset.setBitF (Pg.bar 0) F.barCfgValid false).setFld (Pg.bar 0) F.barStatState Bar.idle).releaseBroken 0), .mem, rfl, by decide +kernel⟩

theorem witness_invariantKept :
    (∃ (s : State) (t : State), Inv s ∧ step s = .next t) :=
  ⟨State.reset, (tick State.reset), ⟨⟨by decide +kernel, by decide +kernel⟩, fun h => absurd h (by decide), fun c h => absurd h List.not_mem_nil⟩, by unfold step; rfl⟩

theorem witness_afterReset :
    (∃ (k : _), k ∉ regsAtReset.map (·.1)) ∧
    (∃ (c : CoreNo), c.val < 336) :=
  ⟨⟨0, by decide +kernel⟩,
   ⟨335, by decide +kernel⟩⟩

theorem witness_registerSizes :
    (∃ (addr : BitVec 26) (size : BitVec 2) (s : State), s.plat.pwrOk = true ∧ ((size ≠ 3 ∨ addr.toNat % 8 ≠ 0))) ∧
    (∃ (o : RegOp), ((o.size ≠ 3 ∨ o.addr.toNat % 8 ≠ 0))) :=
  ⟨⟨8, 2, State.reset, by decide +kernel, by decide +kernel⟩,
   ⟨(⟨0, 0, 4, 3, 0⟩), by decide +kernel⟩⟩

theorem witness_accessCodes :
    (∃ (k : Nat) (r : RegRow) (i : Nat), rowOf k = some r ∧ i < 64 ∧ r.rw.testBit i = true) ∧
    (∃ (k : Nat) (r : RegRow) (i : Nat), rowOf k = some r ∧ i < 64 ∧ r.w1c.testBit i = true) ∧
    (∃ (k : Nat) (r : RegRow) (i : Nat), rowOf k = some r ∧ i < 64 ∧ r.w1s.testBit i = true) ∧
    (∃ (k : Nat) (r : RegRow) (i : Nat), rowOf k = some r ∧ i < 64 ∧ r.rw.testBit i = false ∧ r.w1c.testBit i = false ∧ r.w1s.testBit i = false) :=
  ⟨⟨(Pg.rte + 0x100), ((rowOf (Pg.rte + 0x100)).get (by decide +kernel)), 63, by decide +kernel, by decide +kernel, by decide +kernel⟩,
   ⟨(Pg.rte + 0x20), ((rowOf (Pg.rte + 0x20)).get (by decide +kernel)), 0, by decide +kernel, by decide +kernel, by decide +kernel⟩,
   ⟨(Pg.hlk + 0x10), ((rowOf (Pg.hlk + 0x10)).get (by decide +kernel)), 4, by decide +kernel, by decide +kernel, by decide +kernel⟩,
   ⟨(Pg.rte + 0x20), ((rowOf (Pg.rte + 0x20)).get (by decide +kernel)), 63, by decide +kernel, by decide +kernel, by decide +kernel, by decide +kernel, by decide +kernel⟩⟩

theorem witness_storedBytesReadBack :
    (∃ (s : State) (l : Nat) (n : Nat) (c : Nat) (k : _), (∀ i, i < n → s.place (l + i) = some (.cluster c)) ∧ s.placeFenced (.cluster c) = false ∧ ((k < l ∨ l + n ≤ k))) ∧
    (∃ (s : State) (l : Nat) (n : Nat) (c : Nat), (∀ i, i < n → s.place (l + i) = some (.cluster c)) ∧ s.placeFenced (.cluster c) = false ∧ Memory.wf s.mem = true) :=
  ⟨⟨State.reset, 0xF00000000000, 8, 0, 0xF00000000008, by decide +kernel, by decide +kernel, by decide +kernel⟩,
   ⟨State.reset, 0xF00000000000, 8, 0, by decide +kernel, by decide +kernel, by decide +kernel⟩⟩

theorem witness_histogramBins :
    (∃ (m : Nat) (a : Nat) (e : Int), 2 ^ a ≤ m ∧ m < 2 ^ (a + 1) ∧ a + e ≤ -40) ∧
    (∃ (m : Nat) (a : Nat) (e : Int), 2 ^ a ≤ m ∧ m < 2 ^ (a + 1) ∧ -39 ≤ a + e ∧ a + e ≤ 20) ∧
    (∃ (m : Nat) (a : Nat) (e : Int), 2 ^ a ≤ m ∧ m < 2 ^ (a + 1) ∧ 21 ≤ a + e) ∧
    (∃ (d : Nat) (st : Nat) (b : Nat) (d' : _) (st' : _) (b' : _), b < 64 ∧ b' < 64 ∧ st < 256 ∧ st' < 256 ∧ (d', st', b') ≠ (d, st, b)) :=
  ⟨⟨1, 0, -40, by decide +kernel, by decide +kernel, by decide +kernel⟩,
   ⟨3, 1, -40, by decide +kernel, by decide +kernel, by decide +kernel, by decide +kernel⟩,
   ⟨1, 0, 21, by decide +kernel, by decide +kernel, by decide +kernel⟩,
   ⟨0, 255, 0, 0, 255, 63, by decide +kernel, by decide +kernel, by decide +kernel, by decide +kernel, by decide +kernel⟩⟩

theorem witness_tollgateBuckets :
    (∃ (n : _), 0 < n ∧ n ≤ 256) ∧
    (∃ (s : State) (d : Nat) (b : Nat), s.bitF (Pg.toll d + 8 * b) F.tollBktEn = false) ∧
    (∃ (s : State) (d : Nat) (b : Nat) (c : Nat), s.bitF (Pg.toll d + 8 * b) F.tollBktEn = true ∧ s.heldQ d b = [] ∧ c ≤ s.fld (Pg.toll d + 8 * b) F.tollLevelLevel) ∧
    (∃ (s : State) (d : Nat) (b : Nat) (c : Nat), s.bitF (Pg.toll d + 8 * b) F.tollBktEn = true ∧ ((s.heldQ d b ≠ [] ∨ s.fld (Pg.toll d + 8 * b) F.tollLevelLevel < c))) ∧
    (∃ (s : State) (d : Nat) (b : Nat) (b' : _), s.bitF (Pg.toll d + 8 * b) F.tollBktEn = true ∧ b' ≠ b ∧ b' < 64 ∧ b < 64) :=
  ⟨⟨256, by decide +kernel, by decide +kernel⟩,
   ⟨State.reset, 0, 0, by decide +kernel⟩,
   ⟨(State.reset.setBitF (Pg.toll 0) F.tollBktEn true), 0, 0, 0, by decide +kernel, by decide +kernel, by decide +kernel⟩,
   ⟨(State.reset.setBitF (Pg.toll 0) F.tollBktEn true), 0, 0, 1, by decide +kernel, by decide +kernel⟩,
   ⟨(State.reset.setBitF (Pg.toll 0) F.tollBktEn true), 0, 0, 63, by decide +kernel, by decide +kernel, by decide +kernel, by decide +kernel⟩⟩

theorem witness_flightTable :
    (∃ (ctx : Nat) (id : W32) (s : State) (l : List Flight) (r : List Flight) (n : Nat), s.stg.flight = l ++ ⟨ctx, id, n⟩ :: r ∧ (∀ f ∈ l ++ r, ¬ (f.ctx = ctx ∧ f.seqid = id)) ∧ n ≠ 65535) ∧
    (∃ (ctx : Nat) (id : W32) (s : State) (l : List Flight) (r : List Flight) (n : Nat), s.stg.flight = l ++ ⟨ctx, id, n⟩ :: r ∧ (∀ f ∈ l ++ r, ¬ (f.ctx = ctx ∧ f.seqid = id)) ∧ n = 65535) ∧
    (∃ (ctx : Nat) (id : W32) (s : State) (l : List Flight) (r : List Flight) (n : Nat), s.stg.flight = l ++ ⟨ctx, id, n⟩ :: r ∧ (∀ f ∈ l ++ r, ¬ (f.ctx = ctx ∧ f.seqid = id)) ∧ 1 < n) ∧
    (∃ (ctx : Nat) (id : W32) (s : State) (l : List Flight) (r : List Flight) (n : Nat), s.stg.flight = l ++ ⟨ctx, id, n⟩ :: r ∧ (∀ f ∈ l ++ r, ¬ (f.ctx = ctx ∧ f.seqid = id)) ∧ n = 1) ∧
    (∃ (ctx : Nat) (id : W32) (s : State), (∀ f ∈ s.stg.flight, ¬ (f.ctx = ctx ∧ f.seqid = id)) ∧ s.stg.flight.length < 96 ∧ s.stg.flight.countP (fun f => decide (s.partOf f.ctx = s.partOf ctx)) < s.fld (Pg.stg + 8 * s.partOf ctx) F.stgFcapCap) ∧
    (∃ (ctx : Nat) (id : W32) (s : State), (∀ f ∈ s.stg.flight, ¬ (f.ctx = ctx ∧ f.seqid = id)) ∧ ((96 ≤ s.stg.flight.length ∨ s.fld (Pg.stg + 8 * s.partOf ctx) F.stgFcapCap ≤ s.stg.flight.countP (fun f => decide (s.partOf f.ctx = s.partOf ctx))))) :=
  ⟨⟨5, 7, (State.reset.setFlight [⟨5, 7, 1⟩]), [], [], 1, by decide +kernel, by decide +kernel, by decide +kernel⟩,
   ⟨5, 7, (State.reset.setFlight [⟨5, 7, 65535⟩]), [], [], 65535, by decide +kernel, by decide +kernel, by decide +kernel⟩,
   ⟨5, 7, (State.reset.setFlight [⟨5, 7, 2⟩]), [], [], 2, by decide +kernel, by decide +kernel, by decide +kernel⟩,
   ⟨5, 7, (State.reset.setFlight [⟨5, 7, 1⟩]), [], [], 1, by decide +kernel, by decide +kernel, by decide +kernel⟩,
   ⟨5, 0, (State.reset.setFld Pg.stg F.stgFcapCap 1), by decide +kernel, by decide +kernel, by decide +kernel⟩,
   ⟨0, 0, (State.reset.setFld Pg.stg F.stgFcapCap 0), by decide +kernel, by decide +kernel⟩⟩

theorem witness_checkpointCost :
    (∃ (s : State) (t0 : Nat), KMap.get none s.ldg.start s.lsel = some t0) ∧
    (∃ (s : State), KMap.get none s.ldg.start s.lsel = none) ∧
    (∃ (s : State) (ctx : Nat), KMap.get [] s.ldg.costs ctx = []) ∧
    (∃ (s : State) (ctx : Nat) (l : List Nat), KMap.get [] s.ldg.costs ctx = l ∧ l ≠ []) :=
  ⟨⟨(State.reset.withLdg { State.reset.ldg with start := [(0, some 3)] }), 3, by decide +kernel⟩,
   ⟨State.reset, by decide +kernel⟩,
   ⟨State.reset, 0, by decide +kernel⟩,
   ⟨(State.reset.withLdg { State.reset.ldg with costs := [(0, [3, 4])] }), 0, ([3, 4]), by decide +kernel, by decide +kernel⟩⟩

theorem witness_recordLayout :
    (∃ (r : SstRec) (i : _), r.typ < 256 ∧ r.payload.length ≤ 508 ∧ i < r.payload.length) :=
  ⟨(⟨255, 0, 0, 0, false, [0], 0⟩), 0, by decide +kernel, by decide +kernel, by decide +kernel⟩

theorem witness_eventRing :
    (∃ (d : Nat) (code : Nat) (ctx : Nat) (unit : Nat) (d0 : Nat) (d1 : W64) (s : State) (t : State) (wr : Nat) (rd : Nat) (k : _), s.dieUp d = true ∧ wr = s.fld (Pg.evl d) F.evlPtrWr ∧ rd = s.fld (Pg.evl d) F.evlPtrRd ∧ t = s.event d code ctx unit d0 d1 ∧ k ≠ d * 1024 + wr % 1024) ∧
    (∃ (d : Nat) (code : Nat) (ctx : Nat) (unit : Nat) (d0 : Nat) (d1 : W64) (s : State) (t : State) (wr : Nat) (rd : Nat), s.dieUp d = true ∧ wr = s.fld (Pg.evl d) F.evlPtrWr ∧ rd = s.fld (Pg.evl d) F.evlPtrRd ∧ t = s.event d code ctx unit d0 d1 ∧ wr = (rd + 1024) % 2 ^ 32) ∧
    (∃ (d : Nat) (code : Nat) (ctx : Nat) (unit : Nat) (d0 : Nat) (d1 : W64) (s : State) (t : State) (wr : Nat) (rd : Nat), s.dieUp d = true ∧ wr = s.fld (Pg.evl d) F.evlPtrWr ∧ rd = s.fld (Pg.evl d) F.evlPtrRd ∧ t = s.event d code ctx unit d0 d1 ∧ wr ≠ (rd + 1024) % 2 ^ 32) ∧
    (∃ (d : Nat) (code : Nat) (ctx : Nat) (unit : Nat) (d0 : Nat) (d1 : W64) (s : State) (t : State) (wr : Nat) (rd : Nat), s.dieUp d = true ∧ wr = s.fld (Pg.evl d) F.evlPtrWr ∧ rd = s.fld (Pg.evl d) F.evlPtrRd ∧ t = s.event d code ctx unit d0 d1 ∧ 4 ≤ (evInfo code).2) :=
  ⟨⟨0, 1, 0, 0, 0, 0, State.reset, _, _, _, 1, by decide +kernel, rfl, rfl, rfl, by decide +kernel⟩,
   ⟨3, 1, 0, 0, 0, 0, (State.reset.setFld (Pg.evl 3) F.evlPtrWr 1024), _, _, _, by decide +kernel, rfl, rfl, rfl, rfl⟩,
   ⟨0, 1, 0, 0, 0, 0, State.reset, _, _, _, by decide +kernel, rfl, rfl, rfl, by decide +kernel⟩,
   ⟨0, 0x21, 0, 0, 0, 0, State.reset, _, _, _, by decide +kernel, rfl, rfl, rfl, by decide +kernel⟩⟩

theorem witness_coreRegistersFrame :
    (∃ (c : CoreNo) (rd : Gpr) (rs1 : Gpr) (rs2 : Gpr) (s : State) (t : State) (i : Instr) (d : Nat) (q : Nat), ((∃ opc fn src, i = .intAlu ⟨c, opc⟩ fn rd rs1 src) ∨ (∃ fn dbl, i = .fpOp c fn dbl rd rs1 rs2) ∨ (∃ opc imm, i = .jumpAndLink ⟨c, opc⟩ rd rs1 imm) ∨ (∃ opc w imm err, i = .load ⟨c, opc⟩ .scratch w rd rs1 imm err)) ∧ exec i s = .next t ∧ ((d ≠ c ∨ q ≠ rd))) ∧
    (∃ (c : CoreNo) (rd : Gpr) (rs1 : Gpr) (rs2 : Gpr) (s : State) (t : State) (i : Instr) (d : Nat), ((∃ opc fn src, i = .intAlu ⟨c, opc⟩ fn rd rs1 src) ∨ (∃ fn dbl, i = .fpOp c fn dbl rd rs1 rs2) ∨ (∃ opc imm, i = .jumpAndLink ⟨c, opc⟩ rd rs1 imm) ∨ (∃ opc w imm err, i = .load ⟨c, opc⟩ .scratch w rd rs1 imm err)) ∧ exec i s = .next t ∧ d ≠ c) ∧
    (∃ (c : CoreNo) (rs1 : Gpr) (rs2 : Gpr) (s : State) (t : State) (i : Instr), (∃ cond off, i = .compareBranch ⟨c, .own⟩ cond rs1 rs2 off) ∧ exec i s = .next t) ∧
    (∃ (c : CoreNo) (rs1 : Gpr) (rs2 : Gpr) (s : State) (t : State) (i : Instr) (d : Nat), (∃ cond off, i = .compareBranch ⟨c, .own⟩ cond rs1 rs2 off) ∧ exec i s = .next t ∧ d ≠ c) :=
  ⟨⟨0, 1, 0, 0, on, _, (.jumpAndLink ⟨0, .own⟩ 1 0 0), 1, 0, .inr (.inr (.inl ⟨.own, 0, rfl⟩)), rfl, by decide +kernel⟩,
   ⟨0, 1, 0, 0, on, _, (.jumpAndLink ⟨0, .own⟩ 1 0 0), 1, .inr (.inr (.inl ⟨.own, 0, rfl⟩)), rfl, by decide +kernel⟩,
   ⟨0, 0, 0, State.reset, _, (.compareBranch ⟨0, .own⟩ .eq 0 0 0), ⟨.eq, 0, rfl⟩, rfl⟩,
   ⟨0, 0, 0, State.reset, _, (.compareBranch ⟨0, .own⟩ .eq 0 0 0), 1, ⟨.eq, 0, rfl⟩, rfl, by decide +kernel⟩⟩

theorem witness_coreStoreFrame :
    (∃ (c : CoreNo) (w : Fin 4) (rs1 : Gpr) (imm : BitVec 15) (s : State) (a : Nat), s.coreRuns c = true ∧ a = (s.g c rs1 + imm.signExtend 64).toNat ∧ a + 2 ^ w.val ≤ 2 ^ 17) ∧
    (∃ (c : CoreNo) (w : Fin 4) (rs1 : Gpr) (imm : BitVec 15) (s : State) (l : Nat) (k : Nat), s.coreRuns c = true ∧ s.sync.waiters = [] ∧ s.localOf (s.g c rs1 + imm.signExtend 64) = some l ∧ s.dieAway c l = false ∧ (∀ i, i < 2 ^ w.val → s.place (l + i) = some (.cluster k)) ∧ s.memCheckW (s.coreCtx c) l (2 ^ w.val) = St.ok ∧ s.placeFenced (.cluster k) = false) :=
  ⟨⟨0, 3, 1, 0, (on.setG 0 1 0x1FFF8), _, by decide +kernel, rfl, by decide +kernel⟩,
   ⟨0, 3, 1, 0, (on.setG 0 1 0xF00000000000), 0xF00000000000, 0, by decide +kernel, by decide +kernel, by decide +kernel, by decide +kernel, by decide +kernel, by decide +kernel, by decide +kernel⟩⟩

theorem witness_packetHeader :
    (∃ (h : PktHead) (payload : List W64) (ws : List W64) (i : _), h.dst < 2 ^ 16 ∧ h.src < 2 ^ 16 ∧ h.epoch < 2 ∧ h.cls < 4 ∧ h.ttl < 64 ∧ h.op < 256 ∧ h.slot < 4096 ∧ h.gen < 16 ∧ h.addr < 2 ^ 48 ∧ h.seq < 2 ^ 32 ∧ h.fmt < 2 ^ 16 ∧ h.len < 2 ^ 16 ∧ h.status < 256 ∧ payload.length ≤ 128 ∧ ws = mkPkt h payload ∧ i < payload.length) ∧
    (∃ (h : PktHead) (payload : List W64) (ws : List W64) (i : _), h.dst < 2 ^ 16 ∧ h.src < 2 ^ 16 ∧ h.epoch < 2 ∧ h.cls < 4 ∧ h.ttl < 64 ∧ h.op < 256 ∧ h.slot < 4096 ∧ h.gen < 16 ∧ h.addr < 2 ^ 48 ∧ h.seq < 2 ^ 32 ∧ h.fmt < 2 ^ 16 ∧ h.len < 2 ^ 16 ∧ h.status < 256 ∧ payload.length ≤ 128 ∧ ws = mkPkt h payload ∧ payload.length ≤ i) ∧
    (∃ (h : PktHead) (payload : List W64) (ws : List W64), h.dst < 2 ^ 16 ∧ h.src < 2 ^ 16 ∧ h.epoch < 2 ∧ h.cls < 4 ∧ h.ttl < 64 ∧ h.op < 256 ∧ h.slot < 4096 ∧ h.gen < 16 ∧ h.addr < 2 ^ 48 ∧ h.seq < 2 ^ 32 ∧ h.fmt < 2 ^ 16 ∧ h.len < 2 ^ 16 ∧ h.status < 256 ∧ payload.length ≤ 128 ∧ ws = mkPkt h payload) :=
  ⟨⟨(⟨0xFFFF, 0xFFFF, 1, 3, 63, true, true, 255, 4095, 15, 2 ^ 48 - 1, 2 ^ 32 - 1, 0xFFFF, 0xFFFF, 255⟩), (List.replicate 128 1), (mkPkt ⟨0xFFFF, 0xFFFF, 1, 3, 63, true, true, 255, 4095, 15, 2 ^ 48 - 1, 2 ^ 32 - 1, 0xFFFF, 0xFFFF, 255⟩ (List.replicate 128 1)), 127, by decide +kernel, by decide +kernel, by decide +kernel, by decide +kernel, by decide +kernel, by decide +kernel, by decide +kernel, by decide +kernel, by decide +kernel, by decide +kernel, by decide +kernel, by decide +kernel, by decide +kernel, by decide +kernel, rfl, by decide +kernel⟩,
   ⟨(⟨0xFFFF, 0xFFFF, 1, 3, 63, true, true, 255, 4095, 15, 2 ^ 48 - 1, 2 ^ 32 - 1, 0xFFFF, 0xFFFF, 255⟩), (List.replicate 128 1), (mkPkt ⟨0xFFFF, 0xFFFF, 1, 3, 63, true, true, 255, 4095, 15, 2 ^ 48 - 1, 2 ^ 32 - 1, 0xFFFF, 0xFFFF, 255⟩ (List.replicate 128 1)), 128, by decide +kernel, by decide +kernel, by decide +kernel, by decide +kernel, by decide +kernel, by decide +kernel, by decide +kernel, by decide +kernel, by decide +kernel, by decide +kernel, by decide +kernel, by decide +kernel, by decide +kernel, by decide +kernel, rfl, by decide +kernel⟩,
   ⟨(⟨0xFFFF, 0xFFFF, 1, 3, 63, true, true, 255, 4095, 15, 2 ^ 48 - 1, 2 ^ 32 - 1, 0xFFFF, 0xFFFF, 255⟩), (List.replicate 128 1), (mkPkt ⟨0xFFFF, 0xFFFF, 1, 3, 63, true, true, 255, 4095, 15, 2 ^ 48 - 1, 2 ^ 32 - 1, 0xFFFF, 0xFFFF, 255⟩ (List.replicate 128 1)), by decide +kernel, by decide +kernel, by decide +kernel, by decide +kernel, by decide +kernel, by decide +kernel, by decide +kernel, by decide +kernel, by decide +kernel, by decide +kernel, by decide +kernel, by decide +kernel, by decide +kernel, by decide +kernel, rfl⟩⟩

theorem witness_tileCommands :
    (∃ (c : ClusterNo) (rs1 : Gpr) (s : State), s.coreRuns (stewardOf c) = true ∧ s.aborting (s.coreCtx (stewardOf c)) = false ∧ ((s.clu c).tileQ ((s.g (stewardOf c) rs1).toNat % 4)).length < 16) ∧
    (∃ (c : ClusterNo) (rs1 : Gpr) (s : State), s.coreRuns (stewardOf c) = true ∧ s.aborting (s.coreCtx (stewardOf c)) = false ∧ ((s.clu c).tileQ ((s.g (stewardOf c) rs1).toNat % 4)).length < 15) ∧
    (∃ (c : ClusterNo) (rs1 : Gpr) (s : State), s.coreRuns (stewardOf c) = true ∧ s.aborting (s.coreCtx (stewardOf c)) = false ∧ 16 ≤ ((s.clu c).tileQ ((s.g (stewardOf c) rs1).toNat % 4)).length) ∧
    (∃ (c : ClusterNo) (s : State), s.coreRuns (stewardOf c) = true ∧ s.aborting (s.coreCtx (stewardOf c)) = true) ∧
    (∃ (c : ClusterNo) (slot : Fin 4) (s : State) (t : TileCmd) (rest : List TileCmd) (e : Nat), (s.clu c).tileQ slot = t :: rest ∧ t.pair = 0 ∧ s.plat.thermtrip = false ∧ s.mxeFor c slot t = some e ∧ tileCheck (s.sramSize c) t = St.ok ∧ s.mayStartTile c slot e t = true) ∧
    (∃ (c : ClusterNo) (slot : Fin 4) (s : State) (t : TileCmd) (q : TileCmd) (rest : List TileCmd) (e : Nat), (s.clu c).tileQ slot = t :: q :: rest ∧ t.pair = 1 ∧ s.plat.thermtrip = false ∧ s.mxeFor c slot t = some e ∧ tileCheck (s.sramSize c) t = St.ok ∧ tileCheck (s.sramSize c) q = St.ok ∧ pairOk t q = true ∧ s.mayStartTile c slot e t = true) ∧
    (∃ (c : ClusterNo) (slot : Fin 4) (s : State) (t : TileCmd) (rest : List TileCmd), (s.clu c).tileQ slot = t :: rest ∧ t.pair ≠ 1 ∧ s.mxeFor c slot t = none) ∧
    (∃ (e : MxeNo) (s : State) (a : Nat) (r : TileRun), (s.findRun (e / 4) fun r => decide (r.phase = 0 ∧ r.last = e)) = some (a, r)) ∧
    (∃ (e : MxeNo) (s : State) (a : Nat) (r : TileRun), s.plat.thermtrip = false ∧ s.inReset [(0, e), (9, e / 4)] = false ∧ s.pairDue e = false ∧ (s.findRun (e / 4) fun r => decide (r.phase = 1 ∧ r.last = e)) = some (a, r)) ∧
    (∃ (e : MxeNo) (s : State) (a : Nat) (r : TileRun), (s.findRun (e / 4) fun r => decide (r.last = e ∧ r.phase ≠ 1) && r.cmd.emit && !r.draining && (decide (r.entry ≠ 0) || s.entryDue r)) = some (a, r) ∧ r.entry ≠ 0) ∧
    (∃ (e : MxeNo) (s : State) (a : Nat) (r : TileRun), (s.findRun (e / 4) fun r => decide (r.last = e ∧ r.phase ≠ 1) && r.cmd.emit && !r.draining && (decide (r.entry ≠ 0) || s.entryDue r)) = some (a, r) ∧ r.entry = 0) ∧
    (∃ (e : MxeNo) (s : State) (a : Nat) (r : TileRun), (s.findRun (e / 4) fun r => r.draining && !r.drained && (decide (r.last = e) || (r.cmd.egress && decide (r.first = e)))) = some (a, r)) :=
  ⟨⟨0, 0, (on.setTileQ 0 0 (List.replicate 15 tile)), by decide +kernel, by decide +kernel, by decide +kernel⟩,
   ⟨0, 0, (on.setTileQ 0 0 (List.replicate 14 tile)), by decide +kernel, by decide +kernel, by decide +kernel⟩,
   ⟨0, 0, (on.setTileQ 0 0 (List.replicate 16 tile)), by decide +kernel, by decide +kernel, by decide +kernel⟩,
   ⟨0, (on.withRcv { State.reset.rcv with aborts := [⟨5, 0, 0, []⟩] }), by decide +kernel, by decide +kernel⟩,
   ⟨0, 0, (on.setTileQ 0 0 (List.replicate 1 tile)), tile, [], 0, by decide +kernel, by decide +kernel, by decide +kernel, by decide +kernel, by decide +kernel, by decide +kernel⟩,
   ⟨0, 0, (on.setTileQ 0 0 [tileP, tileQ]), tileP, tileQ, [], 0, by decide +kernel, by decide +kernel, by decide +kernel, by decide +kernel, by decide +kernel, by decide +kernel, by decide +kernel, by decide +kernel⟩,
   ⟨0, 0, (((((on.setTileQ 0 0 [tile]).setFld (Pg.mxe 0) F.mxeStatState 2).setFld (Pg.mxe 1) F.mxeStatState 2).setFld (Pg.mxe 2) F.mxeStatState 2).setFld (Pg.mxe 3) F.mxeStatState 2), tile, [], by decide +kernel, by decide +kernel, by decide +kernel⟩,
   ⟨0, (withRun (tileRun 1 0 false)), 0, (tileRun 1 0 false), by decide +kernel⟩,
   ⟨0, (withRun (tileRun 1 1 false)), 0, (tileRun 1 1 false), by decide +kernel, by decide +kernel, by decide +kernel, by decide +kernel⟩,
   ⟨0, (withRun (tileRun 1 2 false)), 0, (tileRun 1 2 false), by decide +kernel, by decide +kernel⟩,
   ⟨0, (withRun (tileRun 0 2 false)), 0, (tileRun 0 2 false), by decide +kernel, by decide +kernel⟩,
   ⟨0, (withRun (tileRun 1 2 true)), 0, (tileRun 1 2 true), by decide +kernel⟩⟩

theorem witness_engineService :
    (∃ (e : MxeNo) (s : State), s.fld (Pg.mxe e) F.mxeStatState = Eng.fenced) ∧
    (∃ (v : VxeNo) (s : State), s.fld (Pg.vxe v) F.vxeStatState = Eng.fenced) ∧
    (∃ (u : Fin 36) (s : State), s.fld (Pg.uu u) F.uuStatState = Eng.fenced) ∧
    (∃ (d : Die) (s : State), s.fld (Pg.crr d) F.crrStatState = Eng.fenced) ∧
    (∃ (e : MxeNo) (s : State), s.fld (Pg.mxe e) F.mxeStatState = Eng.selftest) ∧
    (∃ (v : VxeNo) (s : State), s.fld (Pg.vxe v) F.vxeStatState = Eng.selftest) ∧
    (∃ (u : Fin 36) (s : State), s.fld (Pg.uu u) F.uuStatState = Eng.selftest) ∧
    (∃ (d : Die) (s : State), s.fld (Pg.crr d) F.crrStatState = Eng.selftest) ∧
    (∃ (v : VxeNo) (s : State), s.fld (Pg.vxe v) F.vxeStatState = Eng.selftestPass) ∧
    (∃ (u : Fin 36) (s : State), s.fld (Pg.uu u) F.uuStatState = Eng.selftestPass) ∧
    (∃ (d : Die) (s : State), s.fld (Pg.crr d) F.crrStatState = Eng.selftestPass) ∧
    (∃ (e : MxeNo) (s : State), s.fld (Pg.mxe e) F.mxeStatState = Eng.selftestPass) ∧
    (∃ (e : MxeNo) (s : State), s.fld (Pg.mxe e) F.mxeStatState ≠ Eng.fenced) ∧
    (∃ (e : MxeNo) (s : State), s.fld (Pg.mxe e) F.mxeStatState ≠ Eng.selftestPass) ∧
    (∃ (v : VxeNo) (s : State), s.fld (Pg.vxe v) F.vxeStatState ≠ Eng.fenced) ∧
    (∃ (v : VxeNo) (s : State), s.fld (Pg.vxe v) F.vxeStatState ≠ Eng.selftestPass) ∧
    (∃ (u : Fin 36) (s : State), s.fld (Pg.uu u) F.uuStatState ≠ Eng.fenced) ∧
    (∃ (u : Fin 36) (s : State), s.fld (Pg.uu u) F.uuStatState ≠ Eng.selftestPass) ∧
    (∃ (d : Die) (s : State), s.fld (Pg.crr d) F.crrStatState ≠ Eng.fenced) ∧
    (∃ (d : Die) (s : State), s.fld (Pg.crr d) F.crrStatState ≠ Eng.selftestPass) ∧
    (∃ (e : MxeNo) (s : State), outOfSvc (s.fld (Pg.mxe e) F.mxeStatState) = false ∧ s.pairOpen e = false) ∧
    (∃ (e : MxeNo) (s : State), outOfSvc (s.fld (Pg.mxe e) F.mxeStatState) = false ∧ s.pairOpen e = true) ∧
    (∃ (v : VxeNo) (s : State), outOfSvc (s.fld (Pg.vxe v) F.vxeStatState) = false ∧ s.vxe v = none) ∧
    (∃ (v : VxeNo) (s : State) (r : ChainRun), outOfSvc (s.fld (Pg.vxe v) F.vxeStatState) = false ∧ s.vxe v = some r ∧ r.fenceDue = none) ∧
    (∃ (v : VxeNo) (s : State), outOfSvc (s.fld (Pg.vxe v) F.vxeStatState) = true) ∧
    (∃ (e : MxeNo) (s : State), outOfSvc (s.fld (Pg.mxe e) F.mxeStatState) = true) ∧
    (∃ (u : Fin 36) (s : State), outOfSvc (s.fld (Pg.uu u) F.uuStatState) = true) ∧
    (∃ (d : Die) (s : State), outOfSvc (s.fld (Pg.crr d) F.crrStatState) = true) ∧
    (∃ (p : Fin 24) (s : State), s.lnk p = Lk.fenced) ∧
    (∃ (u : Fin 36) (s : State), outOfSvc (s.fld (Pg.uu u) F.uuStatState) = false) ∧
    (∃ (d : Die) (s : State), outOfSvc (s.fld (Pg.crr d) F.crrStatState) = false) ∧
    (∃ (p : Fin 24) (s : State), s.lnk p ≠ Lk.fenced) ∧
    (∃ (s : State), s.fld Pg.rcv F.rcvStatPhase = 0) ∧
    (∃ (s : State), s.fld Pg.rcv F.rcvStatPhase ≠ 0) :=
  ⟨⟨0, (State.reset.setFld (Pg.mxe 0) F.mxeStatState 2), by decide +kernel⟩,
   ⟨0, (State.reset.setFld (Pg.vxe 0) F.vxeStatState 2), by decide +kernel⟩,
   ⟨0, (State.reset.setFld (Pg.uu 0) F.uuStatState 2), by decide +kernel⟩,
   ⟨0, (State.reset.setFld (Pg.crr 0) F.crrStatState 2), by decide +kernel⟩,
   ⟨0, (State.reset.setFld (Pg.mxe 0) F.mxeStatState 3), by decide +kernel⟩,
   ⟨0, (State.reset.setFld (Pg.vxe 0) F.vxeStatState 3), by decide +kernel⟩,
   ⟨0, (State.reset.setFld (Pg.uu 0) F.uuStatState 3), by decide +kernel⟩,
   ⟨0, (State.reset.setFld (Pg.crr 0) F.crrStatState 3), by decide +kernel⟩,
   ⟨0, (State.reset.setFld (Pg.vxe 0) F.vxeStatState 4), by decide +kernel⟩,
   ⟨0, (State.reset.setFld (Pg.uu 0) F.uuStatState 4), by decide +kernel⟩,
   ⟨0, (State.reset.setFld (Pg.crr 0) F.crrStatState 4), by decide +kernel⟩,
   ⟨0, (State.reset.setFld (Pg.mxe 0) F.mxeStatState 4), by decide +kernel⟩,
   ⟨0, State.reset, by decide +kernel⟩,
   ⟨0, State.reset, by decide +kernel⟩,
   ⟨0, State.reset, by decide +kernel⟩,
   ⟨0, State.reset, by decide +kernel⟩,
   ⟨0, State.reset, by decide +kernel⟩,
   ⟨0, State.reset, by decide +kernel⟩,
   ⟨0, State.reset, by decide +kernel⟩,
   ⟨0, State.reset, by decide +kernel⟩,
   ⟨0, State.reset, by decide +kernel, by decide +kernel⟩,
   ⟨0, (State.reset.setMxe 0 { Mxe.reset with runs := [{ tileRun 0 0 false with cmd := tileQ }] }), by decide +kernel, by decide +kernel⟩,
   ⟨0, State.reset, by decide +kernel, by decide +kernel⟩,
   ⟨0, (State.reset.setVxe 0 (some chain)), chain, by decide +kernel, by decide +kernel, by decide +kernel⟩,
   ⟨0, (State.reset.setFld (Pg.vxe 0) F.vxeStatState 2), by decide +kernel⟩,
   ⟨0, (State.reset.setFld (Pg.mxe 0) F.mxeStatState 2), by decide +kernel⟩,
   ⟨0, (State.reset.setFld (Pg.uu 0) F.uuStatState 2), by decide +kernel⟩,
   ⟨0, (State.reset.setFld (Pg.crr 0) F.crrStatState 2), by decide +kernel⟩,
   ⟨0, (ports Lk.fenced), by decide +kernel⟩,
   ⟨0, State.reset, by decide +kernel⟩,
   ⟨0, State.reset, by decide +kernel⟩,
   ⟨0, State.reset, by decide +kernel⟩,
   ⟨on, by decide +kernel⟩,
   ⟨State.reset, by decide +kernel⟩⟩

theorem witness_countersClearOnRead :
    (∃ (d : Die) (s : State), d.val = s.hub) ∧
    (∃ (d : Die) (s : State), d.val ≠ s.hub) ∧
    (∃ (r : Fin 3), r.val < 2) :=
  ⟨⟨0, State.reset, by decide +kernel⟩,
   ⟨3, State.reset, by decide +kernel⟩,
   ⟨0, by decide +kernel⟩⟩

theorem witness_chainLife :
    (∃ (c : ClusterNo) (s : State), s.coreRuns (stewardOf c) = true ∧ s.aborting (s.coreCtx (stewardOf c)) = false) ∧
    (∃ (c : ClusterNo) (s : State), s.coreRuns (stewardOf c) = true) ∧
    (∃ (c : ClusterNo) (s : State), s.coreRuns (stewardOf c) = true) ∧
    (∃ (c : ClusterNo) (s : State), s.coreRuns (stewardOf c) = true) ∧
    (∃ (v : VxeNo) (s : State) (k : ChainCmd), s.lostChain v = none ∧ s.vxe v = none ∧ s.inReset [(1, v), (9, v / 2)] = false ∧ s.unitBlocked (v / 2) (Pg.vxe v) = false ∧ s.nextChain v = some k) ∧
    (∃ (v : VxeNo) (s : State) (k : ChainCmd), s.lostChain v = some k) ∧
    (∃ (v : VxeNo) (s : State) (r : ChainRun), s.vxe v = some r ∧ r.cmd.needs ≤ r.seen) ∧
    (∃ (v : VxeNo) (s : State) (r : ChainRun) (e : Nat) (x : Fte), s.vxe v = some r ∧ r.seen < r.cmd.needs ∧ s.mxeOfSlot (v / 2) r.cmd.mslot = some e ∧ (s.visible e).find? (fun x => !x.claimed) = some x ∧ x.tag = r.nextTag ∧ x.ctx = r.cmd.ctx ∧ r.cmd.stages = false) ∧
    (∃ (v : VxeNo) (s : State) (r : ChainRun) (e : Nat) (x : Fte), s.vxe v = some r ∧ r.seen < r.cmd.needs ∧ s.mxeOfSlot (v / 2) r.cmd.mslot = some e ∧ (s.visible e).find? (fun x => !x.claimed) = some x ∧ x.tag ≠ r.nextTag) :=
  ⟨⟨0, on, by decide +kernel, by decide +kernel⟩,
   ⟨0, on, by decide +kernel⟩,
   ⟨0, on, by decide +kernel⟩,
   ⟨0, on, by decide +kernel⟩,
   ⟨0, (on.setClu 0 { on.clu 0 with chains := [chain.cmd] }), chain.cmd, by decide +kernel, by decide +kernel, by decide +kernel, by decide +kernel, by decide +kernel⟩,
   ⟨0, (on.setClu 0 { on.clu 0 with chains := [lost] }), lost, by decide +kernel⟩,
   ⟨0, (on.setVxe 0 (some { chain with seen := 1 })), ({ chain with seen := 1 }), by decide +kernel, by decide +kernel⟩,
   ⟨0, (withChain 0), chain, 0, (entry 0), by decide +kernel, by decide +kernel, by decide +kernel, by decide +kernel, by decide +kernel, by decide +kernel, by decide +kernel⟩,
   ⟨0, (withChain 1), chain, 0, (entry 1), by decide +kernel, by decide +kernel, by decide +kernel, by decide +kernel, by decide +kernel⟩⟩

theorem witness_ringAndGather :
    (∃ (c : ClusterNo) (rd : Gpr) (s : State) (r : RingRec) (rest : List RingRec), s.coreRuns (stewardOf c) = true ∧ rd.val % 2 = 0 ∧ (s.clu c).ring = r :: rest) ∧
    (∃ (c : ClusterNo) (rd : Gpr) (s : State), s.coreRuns (stewardOf c) = true ∧ rd.val % 2 = 0 ∧ (s.clu c).ring = []) ∧
    (∃ (c : ClusterNo) (s : State) (r : Nat × RingRec) (rest : List (Nat × RingRec)), (s.clu c).held = r :: rest ∧ (s.clu c).ring.length < 256) ∧
    (∃ (c : ClusterNo) (oc : Fin 6) (s : State), s.coreRuns (ostlerOf c oc) = true ∧ s.aborting (s.coreCtx (ostlerOf c oc)) = false ∧ (s.clu c).gathers.length < 8) ∧
    (∃ (c : ClusterNo) (oc : Fin 6) (s : State), s.coreRuns (ostlerOf c oc) = true ∧ s.aborting (s.coreCtx (ostlerOf c oc)) = false ∧ 8 ≤ (s.clu c).gathers.length) ∧
    (∃ (c : ClusterNo) (s : State) (g : GatherCmd) (rest : List GatherCmd), (s.clu c).gathers = g :: rest ∧ s.unitBlocked c (Pg.clu c) = false ∧ s.inReset [(4, c), (9, c)] = false) :=
  ⟨⟨0, 30, (on.setClu 0 { on.clu 0 with ring := [⟨1, 2⟩] }), (⟨1, 2⟩), [], by decide +kernel, by decide +kernel, by decide +kernel⟩,
   ⟨0, 0, on, by decide +kernel, by decide +kernel, by decide +kernel⟩,
   ⟨0, (on.setClu 0 { on.clu 0 with held := [(0, ⟨1, 2⟩)] }), ((0, ⟨1, 2⟩)), [], by decide +kernel, by decide +kernel⟩,
   ⟨0, 0, (on.setClu 0 { on.clu 0 with gathers := List.replicate 7 ⟨[], false, 0⟩ }), by decide +kernel, by decide +kernel, by decide +kernel⟩,
   ⟨0, 0, (on.setClu 0 { on.clu 0 with gathers := List.replicate 8 ⟨[], false, 0⟩ }), by decide +kernel, by decide +kernel, by decide +kernel⟩,
   ⟨0, (on.setClu 0 { on.clu 0 with gathers := List.replicate 8 ⟨[], false, 0⟩ }), (⟨[], false, 0⟩), (List.replicate 7 ⟨[], false, 0⟩), by decide +kernel, by decide +kernel, by decide +kernel⟩⟩

theorem witness_coreArithmetic :
    (∃ (c : CoreNo) (src : AluSrc) (s : State), s.coreRuns c = true ∧ (s.src2 c src).toNat < 64) ∧
    (∃ (c : CoreNo) (src : AluSrc) (s : State), s.coreRuns c = true ∧ 64 ≤ (s.src2 c src).toNat) ∧
    (∃ (c : CoreNo) (s : State), s.coreRuns c = true) ∧
    (∃ (c : CoreNo) (s : State), s.coreRuns c = true ∧ ((c.val < 336 ∨ 340 ≤ c.val))) ∧
    (∃ (c : CoreNo) (s : State), s.coreRuns c = true ∧ 336 ≤ c.val ∧ c.val < 340) ∧
    (∃ (c : CoreNo) (x : BitVec 7) (s : State), s.coreRuns c = true ∧ (profile c).contains x.toNat = false) :=
  ⟨⟨0, (.imm 63), on, by decide +kernel, by decide +kernel⟩,
   ⟨0, (.imm 64), on, by decide +kernel, by decide +kernel⟩,
   ⟨0, on, by decide +kernel⟩,
   ⟨0, on, by decide +kernel, by decide +kernel⟩,
   ⟨339, on, by decide +kernel, by decide +kernel, by decide +kernel⟩,
   ⟨0, 127, on, by decide +kernel, by decide +kernel⟩⟩

theorem witness_coreMemory :
    (∃ (c : CoreNo) (s : State), s.coreRuns c = true) ∧
    (∃ (c : CoreNo) (s : State), s.coreRuns c = true) ∧
    (∃ (c : CoreNo) (w : Fin 4) (rs1 : Gpr) (imm : BitVec 15) (s : State) (l : Nat) (k : Nat), s.coreRuns c = true ∧ s.localOf (s.g c rs1 + imm.signExtend 64) = some l ∧ s.place l = some (.cluster k) ∧ l % 65536 + 2 ^ w.val ≤ 65536 ∧ s.dieAway c l = false ∧ s.memCheck (s.coreCtx c) l (2 ^ w.val) = St.ok ∧ s.loadPoison l (2 ^ w.val) = false) ∧
    (∃ (c : CoreNo) (w : Fin 4) (rs1 : Gpr) (imm : BitVec 15) (s : State) (l : Nat) (k : Nat), s.coreRuns c = true ∧ s.localOf (s.g c rs1 + imm.signExtend 64) = some l ∧ s.place l = some (.cluster k) ∧ l % 65536 + 2 ^ w.val ≤ 65536 ∧ s.dieAway c l = false ∧ s.memCheckW (s.coreCtx c) l (2 ^ w.val) = St.ok) ∧
    (∃ (c : CoreNo) (w : Fin 4) (rs1 : Gpr) (imm : BitVec 15) (s : State) (l : Nat) (r : Nat) (u : Nat) (m : Nat), s.coreRuns c = true ∧ s.localOf (s.g c rs1 + imm.signExtend 64) = some l ∧ s.place l = some (.unit r u m) ∧ s.dieAway c l = false ∧ s.memCheck (s.coreCtx c) l (2 ^ w.val) = St.ok ∧ s.gateShut (slotDie c) (s.partOf (s.coreCtx c)) l (2 ^ w.val) false = false ∧ (s.charge (slotDie c) (s.partOf (s.coreCtx c)) l (2 ^ w.val) false).loadPoison l (2 ^ w.val) = false) ∧
    (∃ (c : CoreNo) (w : Fin 4) (rs1 : Gpr) (imm : BitVec 15) (s : State) (l : Nat) (r : Nat) (u : Nat) (m : Nat), s.coreRuns c = true ∧ s.localOf (s.g c rs1 + imm.signExtend 64) = some l ∧ s.place l = some (.unit r u m) ∧ s.dieAway c l = false ∧ s.memCheckW (s.coreCtx c) l (2 ^ w.val) = St.ok ∧ s.gateShut (slotDie c) (s.partOf (s.coreCtx c)) l (2 ^ w.val) true = false) ∧
    (∃ (c : CoreNo) (rs1 : Gpr) (imm : BitVec 15) (s : State) (l : Nat), s.coreRuns c = true ∧ s.localOf (s.g c rs1 + imm.signExtend 64) = some l ∧ s.dieAway c l = false) :=
  ⟨⟨0, on, by decide +kernel⟩,
   ⟨0, on, by decide +kernel⟩,
   ⟨0, 3, 1, 0, (on.setG 0 1 0xF00000000000), 0xF00000000000, 0, by decide +kernel, by decide +kernel, by decide +kernel, by decide +kernel, by decide +kernel, by decide +kernel, by decide +kernel⟩,
   ⟨0, 3, 1, 0, (on.setG 0 1 0xF00000000000), 0xF00000000000, 0, by decide +kernel, by decide +kernel, by decide +kernel, by decide +kernel, by decide +kernel, by decide +kernel⟩,
   ⟨0, 3, 1, 0, mapped, 0, 0, 0, 0, by decide +kernel, by decide +kernel, by decide +kernel, by decide +kernel, by decide +kernel, by decide +kernel, by decide +kernel⟩,
   ⟨0, 3, 1, 0, mapped, 0, 0, 0, 0, by decide +kernel, by decide +kernel, by decide +kernel, by decide +kernel, by decide +kernel, by decide +kernel⟩,
   ⟨0, 1, 0, (on.setG 0 1 0xF00000000000), 0xF00000000000, by decide +kernel, by decide +kernel, by decide +kernel⟩⟩

theorem witness_coreControl :
    (∃ (c : CoreNo) (rs1 : Gpr) (rs2 : Gpr) (s : State), s.coreRuns c = true ∧ (s.g c rs1).getLsbD 63 = (s.g c rs2).getLsbD 63) ∧
    (∃ (c : CoreNo) (s : State), s.coreRuns c = true) ∧
    (∃ (c : CoreNo) (s : State), s.coreRuns c = true) ∧
    (∃ (c : ClusterNo) (k : Fin 7) (s : State), (s.fld (Pg.clu c) F.cluCoreRun).testBit k = false ∧ s.unitFenced (coreKey c k) = false ∧ s.clusterFenced c = false) ∧
    (∃ (c : ClusterNo) (k : Fin 7) (s : State), (s.fld (Pg.clu c) F.cluCoreRun).testBit k = true) ∧
    (∃ (c : ClusterNo) (data : W64) (s : State), s.changes (Pg.clu c + 0x100) 0x1FF data = true ∧ s.cluIdle c = true ∧ s.clusterFenced c = false ∧ (s.plainWrite (Pg.clu c + 0x100) data).reg (Pg.clu c + 0x100) ≠ s.reg (Pg.clu c + 0x100)) ∧
    (∃ (c : ClusterNo) (data : W64) (s : State), s.changes (Pg.clu c + 0x100) 0x1FF data = true ∧ s.cluIdle c = false) ∧
    (∃ (c : ClusterNo) (data : W64) (s : State), s.changes (Pg.clu c + 0x100) 0x1FF data = false) :=
  ⟨⟨0, 0, 0, on, by decide +kernel, by decide +kernel⟩,
   ⟨0, on, by decide +kernel⟩,
   ⟨0, on, by decide +kernel⟩,
   ⟨0, 0, State.reset, by decide +kernel, by decide +kernel, by decide +kernel⟩,
   ⟨0, 6, on, by decide +kernel⟩,
   ⟨0, 0x8000000000000005, State.reset, by decide +kernel, by decide +kernel, by decide +kernel, by decide +kernel⟩,
   ⟨0, 0, on, by decide +kernel, by decide +kernel⟩,
   ⟨0, 0, State.reset, by decide +kernel⟩⟩

theorem witness_telemetry :
    (∃ (d : Die) (st : Byte) (a : BitVec 42) (s : State), s.bitF (Pg.hst d) F.hstStatBusy = false ∧ s.histRange d st.toNat 0 (64 * a.toNat) = true) ∧
    (∃ (d : Die) (st : Byte) (a : BitVec 42) (s : State), s.bitF (Pg.hst d) F.hstStatBusy = false ∧ s.histRange d st.toNat 1 (64 * a.toNat) = true) ∧
    (∃ (d : Die) (st : Byte) (a : BitVec 42) (s : State), s.bitF (Pg.hst d) F.hstStatBusy = false ∧ s.histRange d st.toNat 2 (64 * a.toNat) = true) ∧
    (∃ (d : Die) (s : State), s.bitF (Pg.hst d) F.hstStatBusy = true) ∧
    (∃ (c : ClusterNo) (oc : Fin 6) (data : W64) (s : State), s.coreRuns (ostlerOf c oc) = true ∧ s.bitF (Pg.hst (c.val / 12) + 8 * F.hstSnapStream.of data) F.hstOwnValid = true ∧ some (s.fld (Pg.hst (c.val / 12) + 8 * F.hstSnapStream.of data) F.hstOwnCtx) = s.cluCtx c) ∧
    (∃ (c : ClusterNo) (oc : Fin 6) (data : W64) (s : State), s.coreRuns (ostlerOf c oc) = true ∧ s.bitF (Pg.hst (c.val / 12) + 8 * F.hstSnapStream.of data) F.hstOwnValid = false) ∧
    (∃ (d : Die) (s : State), evtLive (s.fld (Pg.ctr d) F.ctrAddidxIdx) = true) ∧
    (∃ (d : Die) (s : State), evtLive (s.fld (Pg.ctr d) F.ctrAddidxIdx) = false) :=
  ⟨⟨0, 0, 0x3C000000000, ((on.setBitF (Pg.hst 0) F.hstOwnValid true).setFld (Pg.hst 0) F.hstOwnCtx 5), by decide +kernel, by decide +kernel⟩,
   ⟨0, 0, 0x3C000000000, ((on.setBitF (Pg.hst 0) F.hstOwnValid true).setFld (Pg.hst 0) F.hstOwnCtx 5), by decide +kernel, by decide +kernel⟩,
   ⟨0, 0, 0x3C000000000, ((on.setBitF (Pg.hst 0) F.hstOwnValid true).setFld (Pg.hst 0) F.hstOwnCtx 5), by decide +kernel, by decide +kernel⟩,
   ⟨0, (on.setBitF (Pg.hst 0) F.hstStatBusy true), by decide +kernel⟩,
   ⟨0, 0, 0, ((on.setBitF (Pg.hst 0) F.hstOwnValid true).setFld (Pg.hst 0) F.hstOwnCtx 5), by decide +kernel, by decide +kernel, by decide +kernel⟩,
   ⟨0, 0, 0, on, by decide +kernel, by decide +kernel⟩,
   ⟨0, (State.reset.setFld (Pg.ctr 0) F.ctrAddidxIdx 46), by decide +kernel⟩,
   ⟨0, (State.reset.setFld (Pg.ctr 0) F.ctrAddidxIdx 47), by decide +kernel⟩⟩

theorem witness_regionTable :
    (∃ (r : Fin 64) (data : W64) (s : State) (s1 : State), s.bitF (Pg.map + 32 * r) F.mapRgnCfgValid = false ∧ s1 = s.setReg (Pg.map + 32 * r + 0x210) ((s.reg (Pg.map + 32 * r + 0x210) &&& ~~~rgnMask) ||| (Bits.putBit data 63 true &&& rgnMask)) ∧ s1.rgnCheck r = 0) ∧
    (∃ (r : Fin 64) (data : W64) (s : State) (s1 : State), s.bitF (Pg.map + 32 * r) F.mapRgnCfgValid = false ∧ s1 = s.setReg (Pg.map + 32 * r + 0x210) ((s.reg (Pg.map + 32 * r + 0x210) &&& ~~~rgnMask) ||| (Bits.putBit data 63 true &&& rgnMask)) ∧ s1.rgnCheck r ≠ 0) ∧
    (∃ (r : Fin 64) (s : State), s.bitF (Pg.map + 32 * r) F.mapRgnCfgValid = true) :=
  ⟨⟨0, (Bits.put 0 F.mapRgnCfgMode.hi F.mapRgnCfgMode.lo 2), region, _, by decide +kernel, rfl, by decide +kernel⟩,
   ⟨0, 0, State.reset, _, by decide +kernel, rfl, by decide +kernel⟩,
   ⟨0, (State.reset.setBitF Pg.map F.mapRgnCfgValid true), by decide +kernel⟩⟩

theorem witness_scrub :
    (∃ (m : MemCtl) (e : LineError), ctlOf m e.unit = true ∧ e.correctable = true) ∧
    (∃ (m : MemCtl) (e : LineError), ctlOf m e.unit = true ∧ e.correctable = false) :=
  ⟨⟨(.stack 0), (⟨0, 0, 0, true⟩), by decide +kernel, by decide +kernel⟩,
   ⟨(.lpddr 15), (⟨51, 0, 0, false⟩), by decide +kernel, by decide +kernel⟩⟩

theorem witness_heat :
    (∃ (k : Fin 20) (temp : W16) (s : State), temp.toInt < 1760 ∧ s.bitF (Pg.msc k) F.mscTempValid = true ∧ (s.throttle k).missed < 5 ∧ s.fld (Pg.msc k) F.mscTempLevel < heatTarget (BitVec.ofNat 16 (s.fld (Pg.msc k) F.mscThrThresh)) temp) ∧
    (∃ (k : Fin 20) (s : State), (s.throttle k).falling = true ∧ s.fld (Pg.msc k) F.mscTempLevel ≠ 0) ∧
    (∃ (temp : W16), temp.toInt ≤ 1360) ∧
    (∃ (temp : W16) (s : State), s.plat.pwrOk = true ∧ 1840 ≤ temp.toInt) :=
  ⟨⟨0, 1759, (State.reset.setBitF (Pg.msc 0) F.mscTempValid true), by decide +kernel, by decide +kernel, by decide +kernel, by decide +kernel⟩,
   ⟨0, ((State.reset.setThrottle 0 ⟨true, 0⟩).setFld (Pg.msc 0) F.mscTempLevel 1), by decide +kernel, by decide +kernel⟩,
   ⟨1360, by decide +kernel⟩,
   ⟨1840, State.reset, by decide +kernel, by decide +kernel⟩⟩

theorem witness_updateDispatch :
    (∃ (s : State) (s1 : State), s.upd.any (·.staged) = false ∧ s.upd.countP (·.running) < 16 ∧ ((s.upd.filter fun k => !k.running && !s.updBlocked k).findSome? fun k => s.startUpd k) = some s1) ∧
    (∃ (u : Fin 36) (hits : Hits) (s : State) (k : UpdCmd) (c : Nat), (s.meet hits).uuUp u = true ∧ (s.meet hits).inReset [(5, u)] = false ∧ (s.meet hits).journalRoom u = true ∧ (s.meet hits).nextChunk u = some (k, c) ∧ (s.meet hits).chunkShut k u c = false) ∧
    (∃ (u : Fin 36) (s : State) (j : Journal), s.journals.find? (fun j => decide (j.unit = u.val)) = some j) ∧
    (∃ (u : Fin 36) (hits : Hits) (s : State) (k : UpdCmd), (s.meet hits).uuUp u = true ∧ ((s.meet hits).upd.find? fun k => k.segMode && (s.meet hits).chunksIn k && !k.poisoned && k.owed.contains u.val) = some k) ∧
    (∃ (s : State) (k : UpdCmd), s.upd.any (·.staged) = false ∧ (s.upd.find? fun k => s.chunksIn k && (k.poisoned || k.owed.isEmpty)) = some k ∧ k.poisoned = true) ∧
    (∃ (s : State) (k : UpdCmd), s.upd.any (·.staged) = false ∧ (s.upd.find? fun k => s.chunksIn k && (k.poisoned || k.owed.isEmpty)) = some k ∧ k.poisoned = false ∧ s.stepTainted k.ctx k.step = true) ∧
    (∃ (s : State) (k : UpdCmd), s.upd.any (·.staged) = false ∧ (s.upd.find? fun k => s.chunksIn k && (k.poisoned || k.owed.isEmpty)) = some k ∧ k.poisoned = false ∧ s.stepTainted k.ctx k.step = false) ∧
    (∃ (s : State), s.upd.any (·.staged) = true) ∧
    (∃ (s : State) (k : UpdCmd), (s.upd.find? fun k => s.chunksIn k && k.owed.isEmpty && !k.poisoned && !s.stepTainted k.ctx k.step) = some k) :=
  ⟨⟨(withUpd { upd with running := false }), (((withUpd { upd with running := false }).startUpd { upd with running := false }).get (by decide +kernel)), by decide +kernel, by decide +kernel, by decide +kernel⟩,
   ⟨0, [], (withUpd { upd with ready := [0] }), ({ upd with ready := [0] }), 0, by decide +kernel, by decide +kernel, by decide +kernel, by decide +kernel, by decide +kernel⟩,
   ⟨0, (on.withJournals [⟨0, 0, 0, 0, 0, 0, 0, 255, [], false, [], true⟩]), (⟨0, 0, 0, 0, 0, 0, 0, 255, [], false, [], true⟩), by decide +kernel⟩,
   ⟨0, [], (withUpd segUpd), segUpd, by decide +kernel, by decide +kernel⟩,
   ⟨(withUpd { doneUpd with poisoned := true }), ({ doneUpd with poisoned := true }), by decide +kernel, by decide +kernel, by decide +kernel⟩,
   ⟨((withUpd doneUpd).withStg { State.reset.stg with taintAll := [(0, true)] }), doneUpd, by decide +kernel, by decide +kernel, by decide +kernel, by decide +kernel⟩,
   ⟨(withUpd doneUpd), doneUpd, by decide +kernel, by decide +kernel, by decide +kernel, by decide +kernel⟩,
   ⟨(withUpd { doneUpd with staged := true }), by decide +kernel⟩,
   ⟨(withUpd doneUpd), doneUpd, by decide +kernel⟩⟩

theorem witness_lanesAreIndependent :
    (∃ (u : Fin 36) (op : UOp) (s : State) (l : Nat) (n : Nat) (v : W64), s.uuUp u = true ∧ (s.uu u).section_ = true ∧ l < 32 ∧ n < 16 ∧ (op.run (fun n => KMap.get 0 (s.uu u).e (32 * n + l)) (fun st => KMap.get 0 (s.uu u).inp (32 * st + l))).reg = some (n, v)) ∧
    (∃ (u : Fin 36) (op : UOp) (s : State) (l : Nat) (n : Nat), s.uuUp u = true ∧ (s.uu u).section_ = true ∧ l < 32 ∧ (∀ v, (op.run (fun n => KMap.get 0 (s.uu u).e (32 * n + l)) (fun st => KMap.get 0 (s.uu u).inp (32 * st + l))).reg ≠ some (n, v))) :=
  ⟨⟨0, (.wadd 15 0 0), section0, 31, 15, (((UOp.wadd 15 0 0).run (fun n => KMap.get 0 (section0.uu 0).e (32 * n + 31)) (fun st => KMap.get 0 (section0.uu 0).inp (32 * st + 31))).reg.get!.2), by decide +kernel, by decide +kernel, by decide +kernel, by decide +kernel, by decide +kernel⟩,
   ⟨0, (.ust 4 0), section0, 0, 0, by decide +kernel, by decide +kernel, by decide +kernel, nofun⟩⟩

theorem witness_unitInstructions :
    (∃ (st : Fin 32), st.val ≤ 3) ∧
    (∃ (st : Fin 32), 1 ≤ st.val ∧ st.val ≤ 4) ∧
    (∃ (u : Fin 36) (s : State) (k : UpdCmd), s.coreRuns (340 + u.val) = true ∧ s.unitCmd u = some k) ∧
    (∃ (u : Fin 36) (s : State) (k : UpdCmd), s.coreRuns (340 + u.val) = true ∧ s.unitCmd u = some k) ∧
    (∃ (u : Fin 36) (s : State) (k : UpdCmd) (h : UuHand), s.uuUp u = true ∧ (s.uu u).hand = some h ∧ (s.upd.find? fun k => decide (k.sq = h.sq ∧ k.seq = h.seq) && k.todo.contains (h.chunk, u.val)) = some k ∧ (h.group + 1) * 32 < 8 * k.width h.chunk) ∧
    (∃ (u : Fin 36) (s : State), s.uuUp u = true ∧ (s.uu u).hand = none) :=
  ⟨⟨3, by decide +kernel⟩,
   ⟨4, by decide +kernel, by decide +kernel⟩,
   ⟨0, (withUpd upd), upd, by decide +kernel, by decide +kernel⟩,
   ⟨0, (withUpd upd), upd, by decide +kernel, by decide +kernel⟩,
   ⟨0, hand, segUpd0, (⟨0, 1, 0, 0, []⟩), by decide +kernel, by decide +kernel, by decide +kernel, by decide +kernel⟩,
   ⟨0, State.reset, by decide +kernel, by decide +kernel⟩⟩

theorem witness_stageQueues :
    (∃ (c : ClusterNo) (rs1 : Gpr) (rs2 : Gpr) (s : State) (ol : Nat) (ws : List W64), s.coreRuns (stewardOf c) = true ∧ (s.g (stewardOf c) rs1).toNat = ol ∧ s.scratchWords (stewardOf c) (s.g (stewardOf c) rs2).toNat 8 = ws ∧ s.ownsLink c ol (s.outStage ol) = true ∧ s.aborting (s.coreCtx (stewardOf c)) = false ∧ s.outState ol = Sl.outOpen ∧ s.pushCheck (s.coreCtx (stewardOf c)) ol ws = St.ok ∧ s.hasCredit ol = true) ∧
    (∃ (c : ClusterNo) (rs1 : Gpr) (rs2 : Gpr) (s : State) (ol : Nat) (ws : List W64), s.coreRuns (stewardOf c) = true ∧ (s.g (stewardOf c) rs1).toNat = ol ∧ s.scratchWords (stewardOf c) (s.g (stewardOf c) rs2).toNat 8 = ws ∧ s.ownsLink c ol (s.outStage ol) = true ∧ s.aborting (s.coreCtx (stewardOf c)) = false ∧ s.outState ol = Sl.outOpen ∧ s.pushCheck (s.coreCtx (stewardOf c)) ol ws = St.ok ∧ s.hasCredit ol = false) ∧
    (∃ (c : ClusterNo) (rs1 : Gpr) (s : State) (qn : Nat) (ws : _) (l : _), s.coreRuns (stewardOf c) = true ∧ (s.g (stewardOf c) rs1).toNat = qn ∧ s.ownsLink c qn (s.inStage qn) = true ∧ s.inState qn = Sl.open_ ∧ popDesc (s.inq qn).descs = some (ws, l)) ∧
    (∃ (c : ClusterNo) (rs1 : Gpr) (s : State) (qn : Nat), s.coreRuns (stewardOf c) = true ∧ (s.g (stewardOf c) rs1).toNat = qn ∧ s.ownsLink c qn (s.inStage qn) = true ∧ s.inState qn = Sl.open_ ∧ popDesc (s.inq qn).descs = none) ∧
    (∃ (c : ClusterNo) (rs1 : Gpr) (s : State) (qn : Nat) (ws : List W64) (rest : List (List W64 × Bool)), s.coreRuns (stewardOf c) = true ∧ (s.g (stewardOf c) rs1).toNat = qn ∧ s.ownsLink c qn (s.inStage qn) = true ∧ s.inState qn = Sl.open_ ∧ (s.inq qn).descs = (ws, true) :: rest) :=
  ⟨⟨0, 0, 0, pushing, 0, descr, by decide +kernel, by decide +kernel, by decide +kernel, by decide +kernel, by decide +kernel, by decide +kernel, by decide +kernel, by decide +kernel⟩,
   ⟨0, 0, 0, (pushing.setFld (inSeqPg 0) F.slqOutseqSent 1), 0, descr, by decide +kernel, by decide +kernel, by decide +kernel, by decide +kernel, by decide +kernel, by decide +kernel, by decide +kernel, by decide +kernel⟩,
   ⟨0, 0, (staged.setInq 0 ⟨[(descr, false)]⟩), 0, descr, ([(descr, true)]), by decide +kernel, by decide +kernel, by decide +kernel, by decide +kernel, by decide +kernel⟩,
   ⟨0, 0, staged, 0, by decide +kernel, by decide +kernel, by decide +kernel, by decide +kernel, by decide +kernel⟩,
   ⟨0, 0, (staged.setInq 0 ⟨[(descr, true)]⟩), 0, descr, [], by decide +kernel, by decide +kernel, by decide +kernel, by decide +kernel, by decide +kernel⟩⟩

theorem witness_stageVersions :
    (∃ (c : ClusterNo) (rs1 : Gpr) (rs2 : Gpr) (s : State) (s0 : State) (i : Nat), s.coreRuns (stewardOf c) = true ∧ s.aborting (s.coreCtx (stewardOf c)) = false ∧ (s.stageOf c).isNone = false ∧ s0 = s.vtNote ∧ s0.vacqCheck (s.coreCtx (stewardOf c)) (s.g (stewardOf c) rs1).toNat (Bits.get (s.scratchWord (stewardOf c) (s.g (stewardOf c) rs2).toNat) 31 0) = (St.ok, i)) ∧
    (∃ (c : ClusterNo) (rs1 : Gpr) (rs2 : Gpr) (s : State) (s0 : State) (i : Nat), s.coreRuns (stewardOf c) = true ∧ (s.stageOf c).isNone = false ∧ s0 = s.vtNote ∧ (s.g (stewardOf c) rs1).toNat < 65536 ∧ s0.vtValid (s.g (stewardOf c) rs1).toNat = true ∧ s0.vtCtx (s.g (stewardOf c) rs1).toNat = s.coreCtx (stewardOf c) ∧ s0.heldVs (s.g (stewardOf c) rs1).toNat (Bits.get (s.g (stewardOf c) rs2) 31 0) = some i ∧ s0.vsRefs (s.g (stewardOf c) rs1).toNat i ≠ 0) ∧
    (∃ (c : ClusterNo) (s : State), s.coreRuns (stewardOf c) = true ∧ (s.stageOf c).isNone = false ∧ s.aborting (s.coreCtx (stewardOf c)) = false) ∧
    (∃ (c : ClusterNo) (s : State), s.coreRuns (stewardOf c) = true) :=
  ⟨⟨0, 0, 0, (versioned.setScratchWords 0 0 [3]), _, 0, by decide +kernel, by decide +kernel, by decide +kernel, rfl, by decide +kernel⟩,
   ⟨0, 0, 2, (versioned.setG 0 2 3), _, 0, by decide +kernel, by decide +kernel, rfl, by decide +kernel, by decide +kernel, by decide +kernel, by decide +kernel, by decide +kernel⟩,
   ⟨0, staged, by decide +kernel, by decide +kernel, by decide +kernel⟩,
   ⟨0, on, by decide +kernel⟩⟩

theorem witness_stageLinks :
    (∃ (ol : Byte) (seq : W32) (hits : Hits) (s : State) (m : OutMsg), ((s.meet hits).outq ol.toNat).find? (fun m => decide (m.seq = seq) && m.copying) = some m ∧ (s.meet hits).olLocal ol.toNat = true ∧ (s.meet hits).copyShut ol.toNat m = false) ∧
    (∃ (ol : Byte) (seq : W32) (hits : Hits) (s : State) (m : OutMsg) (o : _) (s1 : _), ((s.meet hits).outq ol.toNat).find? (fun m => decide (m.seq = seq) && m.copying) = some m ∧ (s.meet hits).olLocal ol.toNat = false ∧ (s.meet hits).payloadPut ol.toNat seq = some o ∧ s1 = (s.meet hits).withNet { (s.meet hits).net with ops := (s.meet hits).net.ops.filter fun x => decide (x.num ≠ o.num) } ∧ o.status = St.ok) ∧
    (∃ (ol : Byte) (seq : W32) (hits : Hits) (s : State) (m : OutMsg) (o : _) (s1 : _), ((s.meet hits).outq ol.toNat).find? (fun m => decide (m.seq = seq) && m.copying) = some m ∧ (s.meet hits).olLocal ol.toNat = false ∧ (s.meet hits).payloadPut ol.toNat seq = some o ∧ s1 = (s.meet hits).withNet { (s.meet hits).net with ops := (s.meet hits).net.ops.filter fun x => decide (x.num ≠ o.num) } ∧ o.status ≠ St.ok) ∧
    (∃ (m : SlOpen) (s : State), s.bitF (inPg m.qn.toNat) F.slqIncfgValid = true ∧ s.inState m.qn.toNat ≠ Sl.open_ ∧ s.fld (inPg m.qn.toNat) F.slqIncfgSrcdev = m.srcDev.toNat ∧ s.fld (inPg m.qn.toNat) F.slqIncfgSrcout = m.srcOl.toNat ∧ s.fld (inPg m.qn.toNat) F.slqIncfgDepth = m.depth) ∧
    (∃ (m : SlOpen) (s : State), s.bitF (inPg m.qn.toNat) F.slqIncfgValid = false) ∧
    (∃ (ol : Byte) (s : State), s.outState ol.toNat = Sl.outOpening) ∧
    (∃ (ol : Byte) (s : State), s.outState ol.toNat = Sl.outOpen) ∧
    (∃ (m : SlDesc) (s : State), s.inState m.qn.toNat = Sl.open_ ∧ m.seq = BitVec.ofNat 32 (s.inExpected m.qn.toNat) ∧ (wd m.words 0).getLsbD 46 = false ∧ ((wd m.words 0).getLsbD 47 = true → s.bitF (inPg m.qn.toNat) F.slqIncfgEarlyOk = true)) ∧
    (∃ (m : SlDesc) (s : State), s.inState m.qn.toNat = Sl.open_ ∧ m.seq ≠ BitVec.ofNat 32 (s.inExpected m.qn.toNat) ∧ ((wd m.words 0).getLsbD 47 = true → s.bitF (inPg m.qn.toNat) F.slqIncfgEarlyOk = true) ∧ (m.seq - BitVec.ofNat 32 (s.inExpected m.qn.toNat)).msb = false) ∧
    (∃ (qn : Byte) (t : TaintId) (s : State), s.inState qn.toNat = Sl.open_ ∧ t.seq = BitVec.ofNat 32 (s.inExpected qn.toNat)) ∧
    (∃ (ol : Byte) (seq : W32) (consumed : W32) (s : State) (s1 : State), s.outState ol.toNat = Sl.outOpen ∧ s1 = s.setFld (inSeqPg ol.toNat) F.slqOutseqConsumed consumed.toNat ∧ ((s1.outq ol.toNat).find? fun m => decide (m.seq = seq) && !m.copying) = none) ∧
    (∃ (ol : Byte) (seq : W32) (consumed : W32) (s : State) (s1 : State) (m : _), s.outState ol.toNat = Sl.outOpen ∧ s1 = s.setFld (inSeqPg ol.toNat) F.slqOutseqConsumed consumed.toNat ∧ ((s1.outq ol.toNat).find? fun m => decide (m.seq = seq) && !m.copying) = some m ∧ m.donew = 0) ∧
    (∃ (qn : Byte) (s : State), s.inState qn.toNat = Sl.open_) ∧
    (∃ (d : Die) (q : Fin 64) (data : W64) (s : State), data.getLsbD 63 = true ∧ s.bitF (inPg (64 * d.val + q.val)) F.slqIncfgValid = false ∧ s.poolUsed d q + F.slqIncfgDepth.of data ≤ 1024) ∧
    (∃ (d : Die) (q : Fin 64) (data : W64) (s : State), data.getLsbD 63 = true ∧ s.bitF (inPg (64 * d.val + q.val)) F.slqIncfgValid = true ∧ s.poolUsed d q + F.slqIncfgDepth.of data ≤ 1024) ∧
    (∃ (data : W64), data.getLsbD 63 = false) ∧
    (∃ (d : Die) (j : Fin 64) (data : W64) (s : State) (s0 : State), data.getLsbD 63 = true ∧ s.bitF (inPg (64 * d.val + j.val)) F.slqOutcfgValid = false ∧ s0 = s.plainWrite (inPg (64 * d.val + j.val) + 0x500) data ∧ s0.fld (inPg (64 * d.val + j.val)) F.slqOutcfgResend ≠ 0) ∧
    (∃ (i : Fin 16) (data : W64) (s : State), s.stageValid i = false ∧ data.getLsbD 63 = true ∧ s.stageOk i data = true) ∧
    (∃ (i : Fin 16) (data : W64) (s : State), s.stageValid i = false ∧ data.getLsbD 63 = true ∧ s.stageOk i data = false) ∧
    (∃ (s : State), s.bitF Pg.stg F.stgVstatBusy = false) ∧
    (∃ (s : State) (k : VCmd), s.stg.vcmd = some k) :=
  ⟨⟨0, 7, [], (staged.setOutq 0 [⟨7, descr, 0, true, 0, false⟩]), (⟨7, descr, 0, true, 0, false⟩), by decide +kernel, by decide +kernel, by decide +kernel⟩,
   ⟨0, 7, [], (((staged.setFld (inPg 0) F.slqOutdstDev 1).setOutq 0 [⟨7, descr, 0, true, 0, false⟩]).withNet { staged.net with ops := [payloadOp 0] }), (⟨7, descr, 0, true, 0, false⟩), (payloadOp 0), _, by decide +kernel, by decide +kernel, by decide +kernel, rfl, by decide +kernel⟩,
   ⟨0, 7, [], (((staged.setFld (inPg 0) F.slqOutdstDev 1).setOutq 0 [⟨7, descr, 0, true, 0, false⟩]).withNet { staged.net with ops := [payloadOp 1] }), (⟨7, descr, 0, true, 0, false⟩), (payloadOp 1), _, by decide +kernel, by decide +kernel, by decide +kernel, rfl, by decide +kernel⟩,
   ⟨(⟨0, 0, 1, 255⟩), (State.reset.setBitF (inPg 255) F.slqIncfgValid true), by decide +kernel, by decide +kernel, by decide +kernel, by decide +kernel, by decide +kernel⟩,
   ⟨(⟨0, 0, 0, 0⟩), State.reset, by decide +kernel⟩,
   ⟨255, (State.reset.setFld (inPg 255) F.slqOutcfgState Sl.outOpening), by decide +kernel⟩,
   ⟨0, staged, by decide +kernel⟩,
   ⟨(⟨0, 0, descr⟩), staged, by decide +kernel, by decide +kernel, by decide +kernel, by decide +kernel⟩,
   ⟨(⟨0, 1, descr⟩), staged, by decide +kernel, by decide +kernel, by decide +kernel, by decide +kernel⟩,
   ⟨0, (⟨0, 0, 0⟩), staged, by decide +kernel, by decide +kernel⟩,
   ⟨0, 0, 0, staged, _, by decide +kernel, rfl, by decide +kernel⟩,
   ⟨0, 7, 0, (staged.setOutq 0 [⟨7, descr, 0, false, 0, false⟩]), _, (⟨7, descr, 0, false, 0, false⟩), by decide +kernel, rfl, by decide +kernel, by decide +kernel⟩,
   ⟨0, staged, by decide +kernel⟩,
   ⟨0, 0, 0x8000000000000000, State.reset, by decide +kernel, by decide +kernel, by decide +kernel⟩,
   ⟨0, 0, 0x8000000000000000, (State.reset.setBitF (inPg 0) F.slqIncfgValid true), by decide +kernel, by decide +kernel, by decide +kernel⟩,
   ⟨0, by decide +kernel⟩,
   ⟨0, 0, 0x8000000000010000, State.reset, _, by decide +kernel, by decide +kernel, rfl, by decide +kernel⟩,
   ⟨0, 0x8000000000000000, State.reset, by decide +kernel, by decide +kernel, by decide +kernel⟩,
   ⟨0, 0x8000000000000001, State.reset, by decide +kernel, by decide +kernel, by decide +kernel⟩,
   ⟨State.reset, by decide +kernel⟩,
   ⟨(State.reset.withStg { State.reset.stg with vcmd := some ⟨2, 0⟩ }), (⟨2, 0⟩), by decide +kernel⟩⟩

theorem witness_fullEmptyInstructions :
    (∃ (c : CoreNo) (rd : Gpr) (rs1 : Gpr) (err : ArrayErr) (s : State) (s0 : State) (s2 : State) (l : Nat) (v : _) (s1 : _), s.coreRuns c = true ∧ c.val < 340 ∧ s.wordCheck (s.coreCtx c) (s.g c rs1) = St.ok ∧ (s.g c rs1).toNat % 2 ^ 48 = l ∧ s.atomicShut (slotDie c) (s.partOf (s.coreCtx c)) l = false ∧ s2 = s.chargeAtomic (slotDie c) (s.partOf (s.coreCtx c)) l ∧ s0 = s2.arrayErr l err ∧ rd.val % 2 = 0 ∧ s0.wordOp l .ldfe = some (St.ok, v, s1)) ∧
    (∃ (c : CoreNo) (rd : Gpr) (rs1 : Gpr) (err : ArrayErr) (s : State) (s0 : State) (s2 : State) (l : Nat), s.coreRuns c = true ∧ c.val < 340 ∧ s.wordCheck (s.coreCtx c) (s.g c rs1) = St.ok ∧ (s.g c rs1).toNat % 2 ^ 48 = l ∧ s.atomicShut (slotDie c) (s.partOf (s.coreCtx c)) l = false ∧ s2 = s.chargeAtomic (slotDie c) (s.partOf (s.coreCtx c)) l ∧ s0 = s2.arrayErr l err ∧ rd.val % 2 = 0 ∧ s0.wordOp l .ldfe = none) ∧
    (∃ (c : CoreNo) (rd : Gpr) (rs1 : Gpr) (err : ArrayErr) (s : State) (s0 : State) (s2 : State) (l : Nat) (v : _) (s1 : _), s.coreRuns c = true ∧ c.val < 340 ∧ s.wordCheck (s.coreCtx c) (s.g c rs1) = St.ok ∧ (s.g c rs1).toNat % 2 ^ 48 = l ∧ s.atomicShut (slotDie c) (s.partOf (s.coreCtx c)) l = false ∧ s2 = s.chargeAtomic (slotDie c) (s.partOf (s.coreCtx c)) l ∧ s0 = s2.arrayErr l err ∧ rd.val % 2 = 0 ∧ s0.wordOp l .ldfn = some (St.ok, v, s1)) ∧
    (∃ (c : CoreNo) (rd : Gpr) (rs1 : Gpr) (err : ArrayErr) (s : State) (s0 : State) (s2 : State) (l : Nat), s.coreRuns c = true ∧ c.val < 340 ∧ s.wordCheck (s.coreCtx c) (s.g c rs1) = St.ok ∧ (s.g c rs1).toNat % 2 ^ 48 = l ∧ s.atomicShut (slotDie c) (s.partOf (s.coreCtx c)) l = false ∧ s2 = s.chargeAtomic (slotDie c) (s.partOf (s.coreCtx c)) l ∧ s0 = s2.arrayErr l err ∧ rd.val % 2 = 0 ∧ s0.wordOp l .ldfn = none) ∧
    (∃ (c : CoreNo) (rs1 : Gpr) (rs2 : Gpr) (err : ArrayErr) (s : State) (s0 : State) (s2 : State) (l : Nat) (v : _) (s1 : _), s.coreRuns c = true ∧ c.val < 340 ∧ s.wordCheck (s.coreCtx c) (s.g c rs1) = St.ok ∧ (s.g c rs1).toNat % 2 ^ 48 = l ∧ s.atomicShut (slotDie c) (s.partOf (s.coreCtx c)) l = false ∧ s2 = s.chargeAtomic (slotDie c) (s.partOf (s.coreCtx c)) l ∧ s0 = s2.arrayErr l err ∧ s2.wordOp l (.stef (s.g c rs2)) = some (St.ok, v, s1)) ∧
    (∃ (c : CoreNo) (rs1 : Gpr) (rs2 : Gpr) (err : ArrayErr) (s : State) (s0 : State) (s2 : State) (l : Nat), s.coreRuns c = true ∧ c.val < 340 ∧ s.wordCheck (s.coreCtx c) (s.g c rs1) = St.ok ∧ (s.g c rs1).toNat % 2 ^ 48 = l ∧ s.atomicShut (slotDie c) (s.partOf (s.coreCtx c)) l = false ∧ s2 = s.chargeAtomic (slotDie c) (s.partOf (s.coreCtx c)) l ∧ s0 = s2.arrayErr l err ∧ s2.wordOp l (.stef (s.g c rs2)) = none) ∧
    (∃ (c : CoreNo) (rd : Gpr) (rs1 : Gpr) (rs2 : Gpr) (err : ArrayErr) (s : State) (s0 : State) (s2 : State) (l : Nat) (v : _) (s1 : _), s.coreRuns c = true ∧ c.val < 340 ∧ s.wordCheck (s.coreCtx c) (s.g c rs1) = St.ok ∧ (s.g c rs1).toNat % 2 ^ 48 = l ∧ s.atomicShut (slotDie c) (s.partOf (s.coreCtx c)) l = false ∧ s2 = s.chargeAtomic (slotDie c) (s.partOf (s.coreCtx c)) l ∧ s0 = s2.arrayErr l err ∧ rd.val % 2 = 0 ∧ s0.wordOp l (.finc (s.g c rs2)) = some (St.ok, v, s1)) ∧
    (∃ (c : CoreNo) (rd : Gpr) (rs1 : Gpr) (rs2 : Gpr) (err : ArrayErr) (s : State) (s0 : State) (s2 : State) (l : Nat) (v : _) (s1 : _), s.coreRuns c = true ∧ c.val < 340 ∧ s.wordCheck (s.coreCtx c) (s.g c rs1) = St.ok ∧ (s.g c rs1).toNat % 2 ^ 48 = l ∧ s.atomicShut (slotDie c) (s.partOf (s.coreCtx c)) l = false ∧ s2 = s.chargeAtomic (slotDie c) (s.partOf (s.coreCtx c)) l ∧ s0 = s2.arrayErr l err ∧ rd.val % 2 = 0 ∧ s0.wordOp l (.fdec (s.g c rs2)) = some (St.ok, v, s1)) ∧
    (∃ (c : CoreNo) (rs1 : Gpr) (rs2 : Gpr) (err : ArrayErr) (s : State) (s0 : State) (s2 : State) (l : Nat) (f : _) (v : _) (s1 : _), s.coreRuns c = true ∧ c.val < 340 ∧ s.wordCheck (s.coreCtx c) (s.g c rs1) = St.ok ∧ (s.g c rs1).toNat % 2 ^ 48 = l ∧ s.atomicShut (slotDie c) (s.partOf (s.coreCtx c)) l = false ∧ s2 = s.chargeAtomic (slotDie c) (s.partOf (s.coreCtx c)) l ∧ s0 = s2.arrayErr l err ∧ s2.wordOp l (.fini f (s.g c rs2)) = some (St.ok, v, s1)) ∧
    (∃ (c : CoreNo) (rd : Gpr) (rs1 : Gpr) (s : State), s.coreRuns c = true ∧ c.val < 340 ∧ rd.val % 2 = 0 ∧ s.wordCheck (s.coreCtx c) (s.g c rs1) ≠ St.ok) ∧
    (∃ (c : CoreNo) (rd : Gpr) (s : State), s.coreRuns c = true ∧ rd.val % 2 = 1) :=
  ⟨⟨0, 0, 1, .none, (word true false), _, _, 0xF00000000000, ((wordAfter (word true false) .ldfe).2.1), ((wordAfter (word true false) .ldfe).2.2), by decide +kernel, by decide +kernel, by decide +kernel, by decide +kernel, by decide +kernel, rfl, rfl, by decide +kernel, by decide +kernel⟩,
   ⟨0, 0, 1, .none, (word false false), _, _, 0xF00000000000, by decide +kernel, by decide +kernel, by decide +kernel, by decide +kernel, by decide +kernel, rfl, rfl, by decide +kernel, by decide +kernel⟩,
   ⟨0, 0, 1, .none, (word true false), _, _, 0xF00000000000, ((wordAfter (word true false) .ldfn).2.1), ((wordAfter (word true false) .ldfn).2.2), by decide +kernel, by decide +kernel, by decide +kernel, by decide +kernel, by decide +kernel, rfl, rfl, by decide +kernel, by decide +kernel⟩,
   ⟨0, 0, 1, .none, (word false false), _, _, 0xF00000000000, by decide +kernel, by decide +kernel, by decide +kernel, by decide +kernel, by decide +kernel, rfl, rfl, by decide +kernel, by decide +kernel⟩,
   ⟨0, 1, 2, .none, (word false false), _, _, 0xF00000000000, ((wordAfter (word false false) (.stef ((word false false).g 0 2))).2.1), ((wordAfter (word false false) (.stef ((word false false).g 0 2))).2.2), by decide +kernel, by decide +kernel, by decide +kernel, by decide +kernel, by decide +kernel, rfl, rfl, by decide +kernel⟩,
   ⟨0, 1, 2, .none, (word true false), _, _, 0xF00000000000, by decide +kernel, by decide +kernel, by decide +kernel, by decide +kernel, by decide +kernel, rfl, rfl, by decide +kernel⟩,
   ⟨0, 0, 1, 2, .none, (word true false), _, _, 0xF00000000000, ((wordAfter (word true false) (.finc ((word true false).g 0 2))).2.1), ((wordAfter (word true false) (.finc ((word true false).g 0 2))).2.2), by decide +kernel, by decide +kernel, by decide +kernel, by decide +kernel, by decide +kernel, rfl, rfl, by decide +kernel, by decide +kernel⟩,
   ⟨0, 0, 1, 2, .none, ((word true false).storeNat 0xF00000000000 8 1), _, _, 0xF00000000000, ((wordAfter ((word true false).storeNat 0xF00000000000 8 1) (.fdec (((word true false).storeNat 0xF00000000000 8 1).g 0 2))).2.1), ((wordAfter ((word true false).storeNat 0xF00000000000 8 1) (.fdec (((word true false).storeNat 0xF00000000000 8 1).g 0 2))).2.2), by decide +kernel, by decide +kernel, by decide +kernel, by decide +kernel, by decide +kernel, rfl, rfl, by decide +kernel, by decide +kernel⟩,
   ⟨0, 1, 2, .none, (word true false), _, _, 0xF00000000000, true, ((wordAfter (word true false) (.fini true ((word true false).g 0 2))).2.1), ((wordAfter (word true false) (.fini true ((word true false).g 0 2))).2.2), by decide +kernel, by decide +kernel, by decide +kernel, by decide +kernel, by decide +kernel, rfl, rfl, by decide +kernel⟩,
   ⟨0, 0, 0, on, by decide +kernel, by decide +kernel, by decide +kernel, by decide +kernel⟩,
   ⟨0, 31, on, by decide +kernel, by decide +kernel⟩⟩

theorem witness_fullEmptyTable :
    (∃ (l : Nat) (v : W64) (s : State), s.lostAt l = false ∧ (∀ i, i < 8 → ∃ p, s.place (l + i) = some p ∧ p.key (l + i) = s.keyOf l + i) ∧ s.wordState l = (true, false) ∧ v ≠ 0 ∧ (s.load64 l).toNat + v.toNat < 2 ^ 64) ∧
    (∃ (l : Nat) (v : W64) (s : State), s.lostAt l = false ∧ (∀ i, i < 8 → ∃ p, s.place (l + i) = some p ∧ p.key (l + i) = s.keyOf l + i) ∧ s.wordState l = (true, false) ∧ v ≠ 0 ∧ 2 ^ 64 ≤ (s.load64 l).toNat + v.toNat) ∧
    (∃ (l : Nat) (v : W64) (s : State), s.lostAt l = false ∧ (∀ i, i < 8 → ∃ p, s.place (l + i) = some p ∧ p.key (l + i) = s.keyOf l + i) ∧ s.wordState l = (true, false) ∧ v ≠ 0 ∧ (s.load64 l).toNat < v.toNat) ∧
    (∃ (l : Nat) (s : State), s.lostAt l = false ∧ (∀ i, i < 8 → ∃ p, s.place (l + i) = some p ∧ p.key (l + i) = s.keyOf l + i) ∧ s.wordState l = (false, false)) ∧
    (∃ (l : Nat) (s : State), s.lostAt l = false ∧ (∀ i, i < 8 → ∃ p, s.place (l + i) = some p ∧ p.key (l + i) = s.keyOf l + i) ∧ s.wordState l = (true, true)) ∧
    (∃ (l : Nat) (s : State), s.lostAt l = false ∧ (∀ i, i < 8 → ∃ p, s.place (l + i) = some p ∧ p.key (l + i) = s.keyOf l + i) ∧ s.wordState l = (false, true)) :=
  ⟨⟨0xF00000000000, 1, (word true false), by decide +kernel, by intro i h; exact ⟨.cluster 0, (by decide +kernel : ∀ i, i < 8 → (word true false).place (0xF00000000000 + i) = some (.cluster 0) ∧ Place.key (.cluster 0) (0xF00000000000 + i) = (word true false).keyOf 0xF00000000000 + i) i h⟩, by decide +kernel, by decide +kernel, by decide +kernel⟩,
   ⟨0xF00000000000, 0xFFFFFFFFFFFFFFFF, ((word true false).storeNat 0xF00000000000 8 1), by decide +kernel, by intro i h; exact ⟨.cluster 0, (by decide +kernel : ∀ i, i < 8 → ((word true false).storeNat 0xF00000000000 8 1).place (0xF00000000000 + i) = some (.cluster 0) ∧ Place.key (.cluster 0) (0xF00000000000 + i) = ((word true false).storeNat 0xF00000000000 8 1).keyOf 0xF00000000000 + i) i h⟩, by decide +kernel, by decide +kernel, by decide +kernel⟩,
   ⟨0xF00000000000, 1, (word true false), by decide +kernel, by intro i h; exact ⟨.cluster 0, (by decide +kernel : ∀ i, i < 8 → (word true false).place (0xF00000000000 + i) = some (.cluster 0) ∧ Place.key (.cluster 0) (0xF00000000000 + i) = (word true false).keyOf 0xF00000000000 + i) i h⟩, by decide +kernel, by decide +kernel, by decide +kernel⟩,
   ⟨0xF00000000000, (word false false), by decide +kernel, by intro i h; exact ⟨.cluster 0, (by decide +kernel : ∀ i, i < 8 → (word false false).place (0xF00000000000 + i) = some (.cluster 0) ∧ Place.key (.cluster 0) (0xF00000000000 + i) = (word false false).keyOf 0xF00000000000 + i) i h⟩, by decide +kernel⟩,
   ⟨0xF00000000000, (word true true), by decide +kernel, by intro i h; exact ⟨.cluster 0, (by decide +kernel : ∀ i, i < 8 → (word true true).place (0xF00000000000 + i) = some (.cluster 0) ∧ Place.key (.cluster 0) (0xF00000000000 + i) = (word true true).keyOf 0xF00000000000 + i) i h⟩, by decide +kernel⟩,
   ⟨0xF00000000000, (word false true), by decide +kernel, by intro i h; exact ⟨.cluster 0, (by decide +kernel : ∀ i, i < 8 → (word false true).place (0xF00000000000 + i) = some (.cluster 0) ∧ Place.key (.cluster 0) (0xF00000000000 + i) = (word false true).keyOf 0xF00000000000 + i) i h⟩, by decide +kernel⟩⟩

theorem witness_barriers :
    (∃ (b : Fin 64) (s : State), s.bitF (Pg.bar b) F.barCfgValid = false ∧ s.maskEmpty b = false) ∧
    (∃ (b : Fin 64) (s : State), s.bitF (Pg.bar b) F.barCfgValid = false ∧ s.maskEmpty b = true) ∧
    (∃ (c : CoreNo) (rd : Gpr) (rs1 : Gpr) (s : State) (b : Nat), s.coreRuns c = true ∧ c.val < 340 ∧ rd.val % 2 = 0 ∧ (s.g c rs1).toNat % 64 = b ∧ s.arriveCheck b c (s.arriveCtx c b) = St.ok) ∧
    (∃ (c : CoreNo) (rd : Gpr) (rs1 : Gpr) (s : State) (b : Nat), s.coreRuns c = true ∧ c.val < 340 ∧ rd.val % 2 = 0 ∧ (s.g c rs1).toNat % 64 = b ∧ s.arriveCheck b c (s.arriveCtx c b) ≠ St.ok) ∧
    (∃ (c : CoreNo) (rs1 : Gpr) (rs2 : Gpr) (s : State) (b : Nat), s.coreRuns c = true ∧ c.val < 340 ∧ (s.g c rs1).toNat % 64 = b ∧ s.barState b = Bar.armed ∧ s.barCtx b = s.arriveCtx c b ∧ episodeDone (s.barEpisode b) ((s.g c rs2).setWidth 32) = true) ∧
    (∃ (c : CoreNo) (rs1 : Gpr) (rs2 : Gpr) (s : State) (b : Nat), s.coreRuns c = true ∧ c.val < 340 ∧ (s.g c rs1).toNat % 64 = b ∧ s.barState b = Bar.armed ∧ s.barCtx b = s.arriveCtx c b ∧ episodeDone (s.barEpisode b) ((s.g c rs2).setWidth 32) = false) ∧
    (∃ (u : Fin 36) (ctx : Byte) (s : State), s.coreRuns (340 + u.val) = true ∧ s.slotRuns (340 + u.val) ctx.toNat = true) :=
  ⟨⟨0, (State.reset.setReg (Pg.bar 0 + 0x108) 1), by decide +kernel, by decide +kernel⟩,
   ⟨0, State.reset, by decide +kernel, by decide +kernel⟩,
   ⟨0, 0, 0, armed, 0, by decide +kernel, by decide +kernel, by decide +kernel, by decide +kernel, by decide +kernel⟩,
   ⟨0, 0, 0, on, 0, by decide +kernel, by decide +kernel, by decide +kernel, by decide +kernel, by decide +kernel⟩,
   ⟨0, 0, 0, armed, 0, by decide +kernel, by decide +kernel, by decide +kernel, by decide +kernel, by decide +kernel, by decide +kernel⟩,
   ⟨0, 0, 2, (armed.setG 0 2 1), 0, by decide +kernel, by decide +kernel, by decide +kernel, by decide +kernel, by decide +kernel, by decide +kernel⟩,
   ⟨0, 0, (withUpd upd), by decide +kernel, by decide +kernel⟩⟩

theorem witness_signalsAndClaims :
    (∃ (ctx : Nat) (p : Nat) (m : W64) (s : State), p < 376 ∧ m ≠ 0 ∧ ((ctx = 0 ∨ s.slotRuns p ctx = true)) ∧ s.waits p = false) ∧
    (∃ (c : CoreNo) (rd : Gpr) (rs1 : Gpr) (s : State), s.coreRuns c = true ∧ rd.val % 2 = 0 ∧ s.signals c &&& s.g c rs1 ≠ 0) ∧
    (∃ (c : CoreNo) (rd : Gpr) (rs1 : Gpr) (s : State), s.coreRuns c = true ∧ rd.val % 2 = 0 ∧ s.signals c &&& s.g c rs1 = 0) ∧
    (∃ (c : CoreNo) (rs1 : Gpr) (rs2 : Gpr) (s : State), s.coreRuns c = true ∧ c.val < 340 ∧ s.claimCheck (s.coreCtx c) (s.g c rs1) (s.g c rs2).toNat = St.ok) ∧
    (∃ (c : CoreNo) (rs1 : Gpr) (s : State) (e : Nat × Option Claim), s.coreRuns c = true ∧ c.val < 340 ∧ (s.sync.claims.find? fun e => decide ((s.g c rs1).toNat / 2 ^ 48 = s.dev) && (e.2.map fun k => decide (k.ctx = s.coreCtx c ∧ k.base = wordL (s.g c rs1)) && !k.lost).getD false) = some e) ∧
    (∃ (c : CoreNo) (s : State) (w : Waiter), (s.sync.waiters.find? fun w => decide (w.slot = c.val)) = some w ∧ (s.core c).tmo ≠ 0) ∧
    (∃ (s : State), s.bitF Pg.syn F.synStatMarking = false) ∧
    (∃ (s : State), s.bitF Pg.syn F.synStatMarking = true) ∧
    (∃ (s : State), s.bitF Pg.syn F.synStatMarking = true) :=
  ⟨⟨0, 375, 1, State.reset, by decide +kernel, by decide +kernel, by decide +kernel, by decide +kernel⟩,
   ⟨0, 0, 1, ((on.setSignals 0 3).setG 0 1 2), by decide +kernel, by decide +kernel, by decide +kernel⟩,
   ⟨0, 0, 0, on, by decide +kernel, by decide +kernel, by decide +kernel⟩,
   ⟨0, 1, 2, ((on.setG 0 1 0xF10000000000).setG 0 2 8), by decide +kernel, by decide +kernel, by decide +kernel⟩,
   ⟨0, 1, claimed, ((255, some ⟨0xF00000000000, 8, 5, false⟩)), by decide +kernel, by decide +kernel, by decide +kernel⟩,
   ⟨0, ((on.wait 0 1 .ring).setCore 0 { on.core 0 with tmo := 1 }), (⟨0, 1, .ring⟩), by decide +kernel, by decide +kernel⟩,
   ⟨State.reset, by decide +kernel⟩,
   ⟨(State.reset.setBitF Pg.syn F.synStatMarking true), by decide +kernel⟩,
   ⟨(State.reset.setBitF Pg.syn F.synStatMarking true), by decide +kernel⟩⟩

theorem witness_linkTraining :
    (∃ (p : Fin 24) (vers : Byte) (s : State), s.portTraining p = true ∧ vers.getLsbD 3 = true ∧ (s.port p).wasRouted = false) ∧
    (∃ (p : Fin 24) (s : State), s.portTraining p = true) ∧
    (∃ (p : Fin 24) (s : State), s.portUp p = true ∧ (s.port p).waitMark = false) ∧
    (∃ (p : Fin 24) (s : State), s.portUp p = true ∧ (s.port p).waitMark = true) ∧
    (∃ (p : Fin 24) (s : State), s.portUp p = true ∧ (s.port p).stopped = true) ∧
    (∃ (p : Fin 24) (s : State), s.portUp p = true ∧ (s.port p).waitMark = true) :=
  ⟨⟨0, 8, State.reset, by decide +kernel, by decide +kernel, by decide +kernel⟩,
   ⟨0, State.reset, by decide +kernel⟩,
   ⟨0, (ports Lk.routed), by decide +kernel, by decide +kernel⟩,
   ⟨0, ((ports Lk.parked).setPort 0 { Port.reset with waitMark := true }), by decide +kernel, by decide +kernel⟩,
   ⟨0, ((ports Lk.parked).setPort 0 { Port.reset with stopped := true }), by decide +kernel, by decide +kernel⟩,
   ⟨0, ((ports Lk.parked).setPort 0 { Port.reset with waitMark := true }), by decide +kernel, by decide +kernel⟩⟩

theorem witness_linkCommands :
    (∃ (p : Fin 24) (hi : Bool) (data : W64) (s : State), s.allocOk p hi data = false) ∧
    (∃ (p : Fin 24) (hi : Bool) (data : W64) (s : State), s.allocOk p hi data = true ∧ s.portUp p = false) ∧
    (∃ (p : Fin 24) (hi : Bool) (data : W64) (s : State), s.allocOk p hi data = true ∧ s.portUp p = true ∧ (s.port p).waitMark = false) ∧
    (∃ (p : Fin 24) (s : State), s.lnk p = Lk.fenced) ∧
    (∃ (p : Fin 24) (s : State), s.lnk p = Lk.down ∧ s.dieUp (portDie p) = true) ∧
    (∃ (p : Fin 24) (s : State), s.lnk p = Lk.parked ∧ s.peerResult p = 1 ∧ s.portVer p = 3) ∧
    (∃ (p : Fin 24) (s : State), s.lnk p = Lk.routed) ∧
    (∃ (p : Fin 24) (s : State), s.lnk p = Lk.off) ∧
    (∃ (p : Fin 24) (s : State), s.lnk p ≠ Lk.off ∧ s.lnk p ≠ Lk.fenced) :=
  ⟨⟨0, false, 0, State.reset, by decide +kernel⟩,
   ⟨0, false, 0x0200020005000500, State.reset, by decide +kernel, by decide +kernel⟩,
   ⟨0, false, 0x0200020005000500, (ports Lk.routed), by decide +kernel, by decide +kernel, by decide +kernel⟩,
   ⟨0, (ports Lk.fenced), by decide +kernel⟩,
   ⟨0, (ports Lk.down), by decide +kernel, by decide +kernel⟩,
   ⟨0, ((ports Lk.parked).setFld Pg.dsc F.dscPeerResult 1), by decide +kernel, by decide +kernel, by decide +kernel⟩,
   ⟨0, (ports Lk.routed), by decide +kernel⟩,
   ⟨0, (ports Lk.off), by decide +kernel⟩,
   ⟨0, (ports Lk.routed), by decide +kernel, by decide +kernel⟩⟩

theorem witness_packetsAndRouting :
    (∃ (p : Fin 24) (words : List W64) (s : State), s.portReceives p = true ∧ Pkt.op words = Op.relay) ∧
    (∃ (d : Die) (s : State) (h : Held) (p : Nat) (vc : Nat) (e : Bool), s.nextHeld (s.net.held.filter fun h => decide (h.die = d.val)) [] = some (h, .send p vc e)) ∧
    (∃ (d : Die) (s : State) (h : Held) (f : Fld), s.nextHeld (s.net.held.filter fun h => decide (h.die = d.val)) [] = some (h, .drop f)) ∧
    (∃ (d : Die) (s : State) (h : Held), (s.net.held.find? fun h => decide (h.die = d.val)) = some h) ∧
    (∃ (data : W64) (s : State), data.getLsbD 0 = true ∧ s.loadAllowed (F.rteLoadVer.of data) = true) ∧
    (∃ (data : W64) (s : State), data.getLsbD 0 = true ∧ s.loadAllowed (F.rteLoadVer.of data) = false) ∧
    (∃ (s : State) (v : Nat) (a : Nat) (both : Bool) (rest : List (Nat × Nat × Bool)), s.net.loads = (v, a, both) :: rest) ∧
    (∃ (s : State), s.verState (1 - s.inj) ≠ Ver.ready) ∧
    (∃ (s : State), s.verState (1 - s.inj) = Ver.ready) ∧
    (∃ (data : W64) (s : State) (s1 : State), s.verState 0 = Ver.empty ∧ s.verState 1 = Ver.empty ∧ s1 = s.plainWrite (Pg.rte + 0x100) data) :=
  ⟨⟨0, [0x42], (ports Lk.routed), by decide +kernel, by decide +kernel⟩,
   ⟨0, routing, (⟨packet, 0, 24⟩), 0, 0, true, by decide +kernel⟩,
   ⟨0, holding, (⟨packet, 0, 24⟩), F.rteDropbEpoch, by decide +kernel⟩,
   ⟨0, holding, (⟨packet, 0, 24⟩), by decide +kernel⟩,
   ⟨1, State.reset, by decide +kernel, by decide +kernel⟩,
   ⟨1, (State.reset.setVerState 0 Ver.active), by decide +kernel, by decide +kernel⟩,
   ⟨(State.reset.withNet { State.reset.net with loads := [(1, 0, true)] }), 1, 0, true, [], by decide +kernel⟩,
   ⟨State.reset, by decide +kernel⟩,
   ⟨(State.reset.setVerState 1 Ver.ready), by decide +kernel⟩,
   ⟨0, State.reset, _, by decide +kernel, by decide +kernel, rfl⟩⟩

theorem witness_discovery :
    (∃ (p : Fin 24) (h : Hello) (s : State), s.portUp p = true ∧ h.crcOk = true ∧ s.lnk p ≠ Lk.routed) ∧
    (∃ (p : Fin 24) (h : Hello) (s : State), s.portUp p = true ∧ h.crcOk = false) ∧
    (∃ (p : Fin 24) (l : Loc) (s : State) (s2 : State), s.portUp p = true ∧ l.crcOk = true ∧ s2 = ((((s.hearCtl p).setPort p { s.port p with loc := some l }).setFld (Pg.dsc + 8 * p.val) F.dscPeerPort l.sport.toNat).setFld (Pg.dsc + 8 * p.val) F.dscPeerDev (Loc.number l)).setBitF (Pg.dsc + 8 * p.val) F.dscPeerIdv true ∧ s2.locConflict = false) ∧
    (∃ (p : Fin 24) (s : State), s.portUp p = true) ∧
    (∃ (s : State), s.govLoc = none ∧ ((List.range 24).any fun p => (boardOffset p).isSome && s.portUp p) = true) ∧
    (∃ (data : W64) (s : State), (s.plainWrite (Pg.dsc + 0x108) data).fabricId ≠ s.fabricId) :=
  ⟨⟨0, hello, (ports Lk.parked), by decide +kernel, by decide +kernel, by decide +kernel⟩,
   ⟨0, ({ hello with crcOk := false }), (ports Lk.parked), by decide +kernel, by decide +kernel⟩,
   ⟨4, (⟨true, 0, 0, 0, 3, 0⟩), (ports Lk.parked), _, by decide +kernel, by decide +kernel, rfl, by decide +kernel⟩,
   ⟨0, (ports Lk.parked), by decide +kernel⟩,
   ⟨(ports Lk.parked), by decide +kernel, by decide +kernel⟩,
   ⟨1, State.reset, by decide +kernel⟩⟩

theorem witness_porterOperations :
    (∃ (c : CoreNo) (rs1 : Gpr) (rs2 : Gpr) (s : State) (s1 : State) (s2 : State) (g : Nat) (chk : Nat) (st : Nat) (win : KMap Byte) (o : PortOp), s.coreRuns c = true ∧ c.val < 340 ∧ s.aborting (s.coreCtx c) = false ∧ g = 2 * slotDie c + Bits.get (s.g c rs1) 0 0 ∧ (s.net.ops.filter fun o => decide (o.group = g)).length < 64 ∧ o = ⟨s.net.nextOp, g, s.coreCtx c, s.scratchWords c (s.g c rs2).toNat 6, [], 0, none, 0, St.ok, 0, []⟩ ∧ s.opCheck o = (chk, s1) ∧ (if chk = St.ok && !s.isLocal o then s1.windowIssue o else (chk, [], s1)) = (st, win, s2)) ∧
    (∃ (c : CoreNo) (rs1 : Gpr) (s : State) (st : Nat), s.coreRuns c = true ∧ c.val < 340 ∧ (((s.aborting (s.coreCtx c) = true ∧ st = St.aborted) ∨ (s.aborting (s.coreCtx c) = false ∧ 64 ≤ (s.net.ops.filter fun o => decide (o.group = 2 * slotDie c + Bits.get (s.g c rs1) 0 0)).length ∧ st = St.queueFull)))) ∧
    (∃ (d : Die) (g : Fin 2) (p : Fin 8) (s : State) (o : PortOp), s.dieUp d = true ∧ s.unitFenced (porterKey d (8 * g + p)) = false ∧ s.inReset [(3, 16 * d.val + 8 * g.val + p.val)] = false ∧ (s.net.ops.find? fun o => decide (o.group = 2 * d.val + g.val) && s.mayEnd o) = some o ∧ o.status ≠ St.ok) ∧
    (∃ (d : Die) (g : Fin 2) (p : Fin 8) (s : State) (o : PortOp), s.dieUp d = true ∧ s.unitFenced (porterKey d (8 * g + p)) = false ∧ s.inReset [(3, 16 * d.val + 8 * g.val + p.val)] = false ∧ (s.net.ops.find? fun o => decide (o.group = 2 * d.val + g.val) && s.mayEnd o) = some o ∧ o.status = St.ok ∧ s.isLocal o = false) ∧
    (∃ (d : Die) (g : Fin 2) (p : Fin 8) (s : State) (o : PortOp), s.dieUp d = true ∧ s.unitFenced (porterKey d (8 * g + p)) = false ∧ s.inReset [(3, 16 * d.val + 8 * g.val + p.val)] = false ∧ (s.net.ops.find? fun o => decide (o.group = 2 * d.val + g.val) && s.mayEnd o) = some o ∧ o.status = St.ok ∧ s.isLocal o = true) :=
  ⟨⟨0, 0, 0, on, _, _, _, _, _, _, _, by decide +kernel, by decide +kernel, by decide +kernel, rfl, by decide +kernel, rfl, rfl, rfl⟩,
   ⟨0, 0, (porters (List.replicate 64 (porterOp 0 0 1))), St.queueFull, by decide +kernel, by decide +kernel, by decide +kernel⟩,
   ⟨0, 0, 0, (porters [porterOp 0 1 1]), (porterOp 0 1 1), by decide +kernel, by decide +kernel, by decide +kernel, by decide +kernel, by decide +kernel⟩,
   ⟨0, 0, 0, (porters [porterOp 0 0 1]), (porterOp 0 0 1), by decide +kernel, by decide +kernel, by decide +kernel, by decide +kernel, by decide +kernel, by decide +kernel⟩,
   ⟨0, 0, 0, (porters [porterOp 0 0 0]), (porterOp 0 0 0), by decide +kernel, by decide +kernel, by decide +kernel, by decide +kernel, by decide +kernel, by decide +kernel⟩⟩

theorem witness_remoteArrivals_1 :
    (∃ (d : Die) (hits : Hits) (s : State) (s1 : State) (ws : List W64) (w : _), ((s.meet hits).takeSunk d fun ws => decide (Pkt.op ws = Op.put)) = some (ws, s1) ∧ Pkt.narrow ws = false ∧ s1.importWin (Pkt.src ws) 62 none (Pkt.addr ws) (lenOf ws) = some w ∧ s1.gateShut d w.part (Pkt.addr ws) (lenOf ws) true = false ∧ s1.importCheckW w (Pkt.addr ws) (lenOf ws) = St.ok) ∧
    (∃ (d : Die) (hits : Hits) (s : State) (s1 : State) (ws : List W64), ((s.meet hits).takeSunk d fun ws => decide (Pkt.op ws = Op.put)) = some (ws, s1) ∧ Pkt.narrow ws = false ∧ s1.importWin (Pkt.src ws) 62 none (Pkt.addr ws) (lenOf ws) = none) ∧
    (∃ (d : Die) (hits : Hits) (s : State) (s1 : State) (ws : List W64) (a : _) (n : _) (w : _), ((s.meet hits).takeSunk d fun ws => decide (Pkt.op ws = Op.put)) = some (ws, s1) ∧ Pkt.narrow ws = true ∧ narrowCheck (Pkt.fmt ws) = St.ok ∧ a = Pkt.addr ws + 1024 * wideBytes (wf ws 2 15 15) * (segSpan (Fmt.ofWord (Pkt.fmt ws)) (Pkt.seq ws) (lenOf ws)).1 ∧ n = 1024 * wideBytes (wf ws 2 15 15) * (segSpan (Fmt.ofWord (Pkt.fmt ws)) (Pkt.seq ws) (lenOf ws)).2 ∧ s1.importWin (Pkt.src ws) 62 none a n = some w ∧ s1.gateShut d w.part a n true = false ∧ s1.importCheckW w a n = St.ok) ∧
    (∃ (d : Die) (hits : Hits) (s : State) (s1 : State) (ws : List W64) (w : _), ((s.meet hits).takeSunk d fun ws => decide (Pkt.op ws = Op.get)) = some (ws, s1) ∧ s1.importWin (Pkt.src ws) 61 none (Pkt.addr ws) (Pkt.len ws) = some w ∧ s1.gateShut d w.part (Pkt.addr ws) (Pkt.len ws) false = false ∧ s1.importCheck w (Pkt.addr ws) (Pkt.len ws) = St.ok) ∧
    (∃ (d : Die) (hits : Hits) (s : State) (s1 : State) (ws : List W64), ((s.meet hits).takeSunk d fun ws => decide (Pkt.op ws = Op.get)) = some (ws, s1) ∧ s1.importWin (Pkt.src ws) 61 none (Pkt.addr ws) (Pkt.len ws) = none) ∧
    (∃ (d : Die) (hits : Hits) (s : State) (s1 : State) (ws : List W64) (w : _), ((s.meet hits).takeSunk d fun ws => decide (Pkt.op ws = Op.get3)) = some (ws, s1) ∧ s1.importWin (Pkt.src ws) 61 none (Pkt.addr ws) (Pkt.len ws) = some w ∧ s1.gateShut d w.part (Pkt.addr ws) (Pkt.len ws) false = false ∧ s1.importCheck w (Pkt.addr ws) (Pkt.len ws) = St.ok ∧ Bits.get (Pkt.payload ws 0) 63 48 = s1.self) :=
  ⟨⟨0, [], (arrivedAt window (fromOne Op.put 0xF00000000000 8 0 [1])), ((arrivedAt window (fromOne Op.put 0xF00000000000 8 0 [1])).withNet { window.net with sunk := [] }), (fromOne Op.put 0xF00000000000 8 0 [1]), (⟨0, 5⟩), by decide +kernel, by decide +kernel, by decide +kernel, by decide +kernel, by decide +kernel⟩,
   ⟨0, [], (arrivedAt on (fromOne Op.put 0xF00000000000 8 0 [1])), ((arrivedAt on (fromOne Op.put 0xF00000000000 8 0 [1])).withNet { on.net with sunk := [] }), (fromOne Op.put 0xF00000000000 8 0 [1]), by decide +kernel, by decide +kernel, by decide +kernel⟩,
   ⟨0, [], (arrivedAt window (mkPkt { on.head 0 0 Op.put with src := 1, addr := 0xF00000000000, len := 1, narrow := true, fmt := 3 } [0, 0])), ((arrivedAt window (mkPkt { on.head 0 0 Op.put with src := 1, addr := 0xF00000000000, len := 1, narrow := true, fmt := 3 } [0, 0])).withNet { window.net with sunk := [] }), (mkPkt { on.head 0 0 Op.put with src := 1, addr := 0xF00000000000, len := 1, narrow := true, fmt := 3 } [0, 0]), _, _, (⟨0, 5⟩), by decide +kernel, by decide +kernel, by decide +kernel, rfl, rfl, by decide +kernel, by decide +kernel, by decide +kernel⟩,
   ⟨0, [], (arrivedAt window (fromOne Op.get 0xF00000000000 8 0 [])), ((arrivedAt window (fromOne Op.get 0xF00000000000 8 0 [])).withNet { window.net with sunk := [] }), (fromOne Op.get 0xF00000000000 8 0 []), (⟨0, 5⟩), by decide +kernel, by decide +kernel, by decide +kernel, by decide +kernel⟩,
   ⟨0, [], (arrivedAt on (fromOne Op.get 0xF00000000000 8 0 [])), ((arrivedAt on (fromOne Op.get 0xF00000000000 8 0 [])).withNet { on.net with sunk := [] }), (fromOne Op.get 0xF00000000000 8 0 []), by decide +kernel, by decide +kernel⟩,
   ⟨0, [], (arrivedAt window (fromOne Op.get3 0xF00000000000 8 0 [0])), ((arrivedAt window (fromOne Op.get3 0xF00000000000 8 0 [0])).withNet { window.net with sunk := [] }), (fromOne Op.get3 0xF00000000000 8 0 [0]), (⟨0, 5⟩), by decide +kernel, by decide +kernel, by decide +kernel, by decide +kernel, by decide +kernel⟩⟩

theorem witness_remoteArrivals_2 :
    (∃ (d : Die) (hits : Hits) (s : State) (s1 : State) (ws : List W64), ((s.meet hits).takeSunk d fun ws => decide (Pkt.op ws = Op.get3)) = some (ws, s1) ∧ s1.importWin (Pkt.src ws) 61 none (Pkt.addr ws) (Pkt.len ws) = none) ∧
    (∃ (d : Die) (hits : Hits) (s : State) (s1 : State) (ws : List W64) (w : _), ((s.meet hits).takeSunk d fun ws => decide (Pkt.op ws = Op.data3)) = some (ws, s1) ∧ s1.importWin (Pkt.seq ws) 61 none (Pkt.addr ws) (Pkt.len ws) = some w ∧ s1.gateShut d w.part (Pkt.addr ws) (Pkt.len ws) true = false ∧ s1.importCheckW w (Pkt.addr ws) (Pkt.len ws) = St.ok) ∧
    (∃ (d : Die) (hits : Hits) (s : State) (s1 : State) (ws : List W64) (w : _) (s2 : _) (s3 : _) (st : _) (v : _), ((s.meet hits).takeSunk d fun ws => decide (Pkt.op ws = Op.atomic)) = some (ws, s1) ∧ s1.importWin (Pkt.src ws) 60 none (Pkt.addr ws) 8 = some w ∧ s1.atomicShut d w.part (Pkt.addr ws) = false ∧ Pkt.addr ws % 8 = 0 ∧ s1.importCheckW w (Pkt.addr ws) 8 = St.ok ∧ s1.wrote (Pkt.addr ws) 8 = St.ok ∧ s2 = (s1.charge d w.part (Pkt.addr ws) 8 false).charge d w.part (Pkt.addr ws) 8 true ∧ s2.atomicOp (Pkt.addr ws) (Pkt.len ws) (Pkt.payload ws 0) (Pkt.payload ws 1) = (st, some v, s3) ∧ st ≠ St.syncUnderflow) ∧
    (∃ (d : Die) (hits : Hits) (s : State) (s1 : State) (ws : List W64), ((s.meet hits).takeSunk d fun ws => decide (Pkt.op ws = Op.atomic)) = some (ws, s1) ∧ s1.importWin (Pkt.src ws) 60 none (Pkt.addr ws) 8 = none) ∧
    (∃ (d : Die) (s : State) (s1 : State) (ws : List W64) (w : _), (s.takeSunk d fun ws => decide (Pkt.op ws = Op.signal)) = some (ws, s1) ∧ s1.importWin (Pkt.src ws) 59 (some (Pkt.addr ws)) 0 0 = some w) ∧
    (∃ (d : Die) (s : State) (s1 : State) (ws : List W64), (s.takeSunk d fun ws => decide (Pkt.op ws = Op.signal)) = some (ws, s1) ∧ s1.importWin (Pkt.src ws) 59 (some (Pkt.addr ws)) 0 0 = none) :=
  ⟨⟨0, [], (arrivedAt on (fromOne Op.get3 0xF00000000000 8 0 [0])), ((arrivedAt on (fromOne Op.get3 0xF00000000000 8 0 [0])).withNet { on.net with sunk := [] }), (fromOne Op.get3 0xF00000000000 8 0 [0]), by decide +kernel, by decide +kernel⟩,
   ⟨0, [], (arrivedAt window (fromOne Op.data3 0xF00000000000 8 1 [1])), ((arrivedAt window (fromOne Op.data3 0xF00000000000 8 1 [1])).withNet { window.net with sunk := [] }), (fromOne Op.data3 0xF00000000000 8 1 [1]), (⟨0, 5⟩), by decide +kernel, by decide +kernel, by decide +kernel, by decide +kernel⟩,
   ⟨0, [], (arrivedAt window (fromOne Op.atomic 0xF00000000000 0 0 [1, 0])), ((arrivedAt window (fromOne Op.atomic 0xF00000000000 0 0 [1, 0])).withNet { window.net with sunk := [] }), (fromOne Op.atomic 0xF00000000000 0 0 [1, 0]), (⟨0, 5⟩), _, _, 0, 0, by decide +kernel, by decide +kernel, by decide +kernel, by decide +kernel, by decide +kernel, by decide +kernel, rfl, rfl, by decide +kernel⟩,
   ⟨0, [], (arrivedAt on (fromOne Op.atomic 0xF00000000000 0 0 [1, 0])), ((arrivedAt on (fromOne Op.atomic 0xF00000000000 0 0 [1, 0])).withNet { on.net with sunk := [] }), (fromOne Op.atomic 0xF00000000000 0 0 [1, 0]), by decide +kernel, by decide +kernel⟩,
   ⟨0, (arrivedAt window (fromOne Op.signal 0 0 0 [1])), ((arrivedAt window (fromOne Op.signal 0 0 0 [1])).withNet { window.net with sunk := [] }), (fromOne Op.signal 0 0 0 [1]), (⟨0, 5⟩), by decide +kernel, by decide +kernel⟩,
   ⟨0, (arrivedAt on (fromOne Op.signal 0 0 0 [1])), ((arrivedAt on (fromOne Op.signal 0 0 0 [1])).withNet { on.net with sunk := [] }), (fromOne Op.signal 0 0 0 [1]), by decide +kernel, by decide +kernel⟩⟩

theorem witness_remoteArrivals_3 :
    (∃ (d : Die) (hits : Hits) (s : State) (m : State) (s1 : State) (h : Held) (ctx : _) (num : _) (off : _) (len : _), m = s.meet hits ∧ (m.net.sunk.find? fun h => isReply h.words && (m.replyMeets d h.words || ((List.range 4).all fun x => !m.replyMeets x h.words))) = some h ∧ m.replyMeets d h.words = true ∧ s1 = (m.withNet { m.net with sunk := m.net.sunk.erase h }).setSlot (4096 * d.val + Pkt.slot h.words) ⟨(m.slot (4096 * d.val + Pkt.slot h.words)).gen, none⟩ ∧ (m.slot (4096 * d.val + Pkt.slot h.words)).use = some (ctx, .porter num off len)) ∧
    (∃ (d : Die) (hits : Hits) (s : State) (m : State) (s1 : State) (h : Held) (ctx : _) (gid : _) (rank : _) (seq : _), m = s.meet hits ∧ (m.net.sunk.find? fun h => isReply h.words && (m.replyMeets d h.words || ((List.range 4).all fun x => !m.replyMeets x h.words))) = some h ∧ m.replyMeets d h.words = true ∧ s1 = (m.withNet { m.net with sunk := m.net.sunk.erase h }).setSlot (4096 * d.val + Pkt.slot h.words) ⟨(m.slot (4096 * d.val + Pkt.slot h.words)).gen, none⟩ ∧ (m.slot (4096 * d.val + Pkt.slot h.words)).use = some (ctx, .chunk gid rank seq)) ∧
    (∃ (d : Die) (hits : Hits) (s : State) (m : State) (h : Held), m = s.meet hits ∧ (m.net.sunk.find? fun h => isReply h.words && (m.replyMeets d h.words || ((List.range 4).all fun x => !m.replyMeets x h.words))) = some h ∧ m.replyMeets d h.words = false) ∧
    (∃ (d : Die) (sl : Fin 4096) (s : State) (ctx : Nat) (num : Nat) (off : Nat) (len : Nat), (s.slot (4096 * d.val + sl.val)).use = some (ctx, .porter num off len)) ∧
    (∃ (d : Die) (sl : Fin 4096) (s : State), (s.slot (4096 * d.val + sl.val)).use = none) :=
  ⟨⟨0, [], (replied 0), _, _, (⟨fromOne Op.ack 0 0 0 [], 0, 0⟩), 5, 0, 0, 0, rfl, by decide +kernel, by decide +kernel, rfl, by decide +kernel⟩,
   ⟨0, [], chunkReplied, _, _, (⟨fromOne Op.ack 0 0 0 [], 0, 0⟩), 5, 0, 1, 0, rfl, by decide +kernel, by decide +kernel, rfl, by decide +kernel⟩,
   ⟨0, [], (replied 1), _, (⟨fromOne Op.ack 0 0 0 [], 0, 0⟩), rfl, by decide +kernel, by decide +kernel⟩,
   ⟨0, 4095, (on.setSlot 4095 ⟨0, some (5, .porter 0 0 8)⟩), 5, 0, 0, 8, by decide +kernel⟩,
   ⟨0, 0, State.reset, by decide +kernel⟩⟩

theorem witness_collectiveIssue_1 :
    (∃ (c : CoreNo) (rd : Gpr) (rs2 : Gpr) (s : State) (s1 : State) (ws : List W64) (k : Coll), s.coreRuns c = true ∧ c.val < 340 ∧ s.aborting (s.coreCtx c) = false ∧ (s.cr.colls.filter fun k => decide (k.die = slotDie c ∧ k.running = false)).length < 32 ∧ ws = (s.scratchWords c (s.g c rs2).toNat 8).set 0 (Bits.put (wd (s.scratchWords c (s.g c rs2).toNat 8) 0) 55 48 (s.coreCtx c)) ∧ wf ws 0 63 56 = 0x40 ∧ k = ⟨s.cr.next, slotDie c, s.coreCtx c, ws, false, [(0, 0), (0, 0)], [0, 0], [], [], [], St.ok⟩ ∧ s1 = (s.retSt c rd St.ok).withCr { s.cr with next := s.cr.next + 1 } ∧ k.op = CollOp.open_ ∧ outOfSvc (s1.crrState (slotDie c)) = false) :=
  ⟨0, 0, 0, (issuing 0 0), _, _, _, by decide +kernel, by decide +kernel, by decide +kernel, by decide +kernel, rfl, by decide +kernel, rfl, rfl, by decide +kernel, by decide +kernel⟩

theorem witness_collectiveIssue_2 :
    (∃ (c : CoreNo) (rd : Gpr) (rs2 : Gpr) (s : State) (s1 : State) (ws : List W64) (k : Coll) (g : _), s.coreRuns c = true ∧ c.val < 340 ∧ s.aborting (s.coreCtx c) = false ∧ (s.cr.colls.filter fun k => decide (k.die = slotDie c ∧ k.running = false)).length < 32 ∧ ws = (s.scratchWords c (s.g c rs2).toNat 8).set 0 (Bits.put (wd (s.scratchWords c (s.g c rs2).toNat 8) 0) 55 48 (s.coreCtx c)) ∧ wf ws 0 63 56 = 0x40 ∧ k = ⟨s.cr.next, slotDie c, s.coreCtx c, ws, false, [(0, 0), (0, 0)], [0, 0], [], [], [], St.ok⟩ ∧ s1 = (s.retSt c rd St.ok).withCr { s.cr with next := s.cr.next + 1 } ∧ k.op = CollOp.close ∧ s1.group (slotDie c) k.gid = some g ∧ g.ctx = s.coreCtx c ∧ closeReserved ws = false) :=
  ⟨0, 0, 0, (issuing 1 0), _, _, _, grp, by decide +kernel, by decide +kernel, by decide +kernel, by decide +kernel, rfl, by decide +kernel, rfl, rfl, by decide +kernel, by decide +kernel, by decide +kernel, by decide +kernel⟩

theorem witness_collectiveIssue_3 :
    (∃ (c : CoreNo) (rd : Gpr) (rs2 : Gpr) (s : State) (s1 : State) (ws : List W64) (k : Coll) (s2 : _), s.coreRuns c = true ∧ c.val < 340 ∧ s.aborting (s.coreCtx c) = false ∧ (s.cr.colls.filter fun k => decide (k.die = slotDie c ∧ k.running = false)).length < 32 ∧ ws = (s.scratchWords c (s.g c rs2).toNat 8).set 0 (Bits.put (wd (s.scratchWords c (s.g c rs2).toNat 8) 0) 55 48 (s.coreCtx c)) ∧ wf ws 0 63 56 = 0x40 ∧ k = ⟨s.cr.next, slotDie c, s.coreCtx c, ws, false, [(0, 0), (0, 0)], [0, 0], [], [], [], St.ok⟩ ∧ s1 = (s.retSt c rd St.ok).withCr { s.cr with next := s.cr.next + 1 } ∧ k.op ≠ CollOp.open_ ∧ k.op ≠ CollOp.close ∧ k.op ≠ CollOp.permute ∧ s1.collCheck k = St.ok ∧ s1.collLookup k = (St.ok, s2)) :=
  ⟨0, 0, 0, (issuing 7 0), _, _, _, _, by decide +kernel, by decide +kernel, by decide +kernel, by decide +kernel, rfl, by decide +kernel, rfl, rfl, by decide +kernel, by decide +kernel, by decide +kernel, by decide +kernel, rfl⟩

theorem witness_collectiveIssue_4 :
    (∃ (c : CoreNo) (rd : Gpr) (rs2 : Gpr) (s : State) (s1 : State) (ws : List W64) (k : Coll) (s2 : _), s.coreRuns c = true ∧ c.val < 340 ∧ s.aborting (s.coreCtx c) = false ∧ (s.cr.colls.filter fun k => decide (k.die = slotDie c ∧ k.running = false)).length < 32 ∧ ws = (s.scratchWords c (s.g c rs2).toNat 8).set 0 (Bits.put (wd (s.scratchWords c (s.g c rs2).toNat 8) 0) 55 48 (s.coreCtx c)) ∧ wf ws 0 63 56 = 0x40 ∧ k = ⟨s.cr.next, slotDie c, s.coreCtx c, ws, false, [(0, 0), (0, 0)], [0, 0], [], [], [], St.ok⟩ ∧ s1 = (s.retSt c rd St.ok).withCr { s.cr with next := s.cr.next + 1 } ∧ k.op = CollOp.permute ∧ s1.collCheck k = St.ok ∧ s1.collLookup k = (St.ok, s2)) :=
  ⟨0, 0, 0, (issuing 6 0), _, _, _, _, by decide +kernel, by decide +kernel, by decide +kernel, by decide +kernel, rfl, by decide +kernel, rfl, rfl, by decide +kernel, by decide +kernel, rfl⟩

theorem witness_collectiveIssue_5 :
    (∃ (c : CoreNo) (rd : Gpr) (rs2 : Gpr) (s : State) (s1 : State) (ws : List W64) (k : Coll), s.coreRuns c = true ∧ c.val < 340 ∧ s.aborting (s.coreCtx c) = false ∧ (s.cr.colls.filter fun k => decide (k.die = slotDie c ∧ k.running = false)).length < 32 ∧ ws = (s.scratchWords c (s.g c rs2).toNat 8).set 0 (Bits.put (wd (s.scratchWords c (s.g c rs2).toNat 8) 0) 55 48 (s.coreCtx c)) ∧ wf ws 0 63 56 = 0x40 ∧ k = ⟨s.cr.next, slotDie c, s.coreCtx c, ws, false, [(0, 0), (0, 0)], [0, 0], [], [], [], St.ok⟩ ∧ s1 = (s.retSt c rd St.ok).withCr { s.cr with next := s.cr.next + 1 } ∧ k.op ≠ CollOp.open_ ∧ k.op ≠ CollOp.close ∧ s1.collCheck k ≠ St.ok) :=
  ⟨0, 0, 0, (issuing 8 0), _, _, _, by decide +kernel, by decide +kernel, by decide +kernel, by decide +kernel, rfl, by decide +kernel, rfl, rfl, by decide +kernel, by decide +kernel, by decide +kernel⟩

theorem witness_collectiveIssue_6 :
    (∃ (c : CoreNo) (s : State), s.coreRuns c = true ∧ c.val < 340 ∧ s.aborting (s.coreCtx c) = false ∧ 32 ≤ (s.cr.colls.filter fun k => decide (k.die = slotDie c ∧ k.running = false)).length) :=
  ⟨0, (colls (List.replicate 32 (coll 7 0 false 0 0))), by decide +kernel, by decide +kernel, by decide +kernel, by decide +kernel⟩

theorem witness_collectivesAndJobs :
    (∃ (d : Die) (hits : Hits) (s : State) (m : State) (k : Coll) (g : Group), m = s.meet hits ∧ (m.cr.colls.find? fun k => decide (k.die = d.val) && m.mayStart k && !outOfSvc (m.crrState d) && !m.inReset [(6, d)] && m.mayRun (6, d) k.ctx) = some k ∧ m.group d k.gid = some g ∧ m.collMemCheck g k ≠ St.ok) ∧
    (∃ (d : Die) (hits : Hits) (s : State) (m : State) (k : Coll) (g : Group) (s1 : _) (s2 : _), m = s.meet hits ∧ (m.cr.colls.find? fun k => decide (k.die = d.val) && m.mayStart k && !outOfSvc (m.crrState d) && !m.inReset [(6, d)] && m.mayRun (6, d) k.ctx) = some k ∧ m.group d k.gid = some g ∧ m.collMemCheck g k = St.ok ∧ s1 = m.mapColl k.num (fun x => { x with running := true }) ∧ s2 = (if k.op = CollOp.permute then s1.collRead k k.ptab (8 + 24 * s1.loadNat k.ptab 8) else s1).collOwn g { k with running := true }) ∧
    (∃ (d : Die) (hits : Hits) (s : State) (m : State) (s1 : State), m = s.meet hits ∧ outOfSvc (m.crrState d) = false ∧ m.inReset [(6, d)] = false ∧ ((m.cr.colls.filter fun k => decide (k.die = d.val) && k.running && m.mayRun (6, d) k.ctx).findSome? fun k => m.sendChunk k) = some s1) ∧
    (∃ (d : Die) (hits : Hits) (s : State) (s1 : State) (ws : List W64) (g : Group), (s.meet hits).takeGroup d Op.chunk = some (ws, s1) ∧ s1.groupOf d ws = some g ∧ seqDiff (Pkt.seq ws) (s1.streamCount g (g.members.idxOf (Pkt.src ws)) 2) < 0) ∧
    (∃ (d : Die) (hits : Hits) (s : State) (s1 : State) (ws : List W64) (g : Group) (s2 : _) (k : _), (s.meet hits).takeGroup d Op.chunk = some (ws, s1) ∧ s1.groupOf d ws = some g ∧ 0 ≤ seqDiff (Pkt.seq ws) (s1.streamCount g (g.members.idxOf (Pkt.src ws)) 2) ∧ seqDiff (Pkt.seq ws) (s1.streamCount g (g.members.idxOf (Pkt.src ws)) 2) < g.window ∧ (KMap.find g.intake (g.members.idxOf (Pkt.src ws) * 2 ^ 32 + Pkt.seq ws)).isSome = false ∧ s2 = (s1.mapGroup d g.gid fun x => { x with intake := KMap.insert x.intake (g.members.idxOf (Pkt.src ws) * 2 ^ 32 + Pkt.seq ws) ws }).ack d ws St.ok ∧ s2.runningOf d g.gid = some k) ∧
    (∃ (d : Die) (hits : Hits) (s : State) (s1 : State) (ws : List W64) (g : Group) (s2 : _), (s.meet hits).takeGroup d Op.chunk = some (ws, s1) ∧ s1.groupOf d ws = some g ∧ 0 ≤ seqDiff (Pkt.seq ws) (s1.streamCount g (g.members.idxOf (Pkt.src ws)) 2) ∧ seqDiff (Pkt.seq ws) (s1.streamCount g (g.members.idxOf (Pkt.src ws)) 2) < g.window ∧ (KMap.find g.intake (g.members.idxOf (Pkt.src ws) * 2 ^ 32 + Pkt.seq ws)).isSome = false ∧ s2 = (s1.mapGroup d g.gid fun x => { x with intake := KMap.insert x.intake (g.members.idxOf (Pkt.src ws) * 2 ^ 32 + Pkt.seq ws) ws }).ack d ws St.ok ∧ s2.runningOf d g.gid = none) ∧
    (∃ (d : Die) (hits : Hits) (s : State) (s1 : State) (ws : List W64), (s.meet hits).takeGroup d Op.chunk = some (ws, s1) ∧ s1.groupOf d ws = none) ∧
    (∃ (d : Die) (s : State) (s1 : State) (s2 : State) (ws : List W64) (g : Group), s.takeGroup d Op.credit = some (ws, s1) ∧ s1.groupOf d ws = some g ∧ s2 = (s1.mapGroup d g.gid fun x => { x with heard := if x.heard.contains (g.members.idxOf (Pkt.src ws)) then x.heard else x.heard ++ [g.members.idxOf (Pkt.src ws)] }) ∧ 0 ≤ seqDiff (Pkt.seq ws) (s2.streamCount g (g.members.idxOf (Pkt.src ws)) 1)) ∧
    (∃ (d : Die) (s : State) (k : Coll), (s.cr.colls.find? fun k => decide (k.die = d.val) && s.collDone k) = some k ∧ k.status ≠ St.ok) ∧
    (∃ (d : Die) (s : State) (k : Coll) (g : Group), (s.cr.colls.find? fun k => decide (k.die = d.val) && s.collDone k) = some k ∧ k.status = St.ok ∧ s.group d k.gid = some g) ∧
    (∃ (q : Fin 256) (s : State) (s0 : State) (k : SqCmd), s.nextCmd q = some k ∧ k.echoed = true ∧ wf k.words 0 63 56 = 0x30 ∧ s0 = s.markDispatched q k.seq ∧ s0.jobCheck k.ctx k.words = St.ok) ∧
    (∃ (q : Fin 256) (s : State) (s0 : State) (k : SqCmd), s.nextCmd q = some k ∧ k.echoed = true ∧ wf k.words 0 63 56 = 0x30 ∧ s0 = s.markDispatched q k.seq ∧ s0.jobCheck k.ctx k.words = St.topoShort) ∧
    (∃ (q : Fin 256) (s : State) (s0 : State) (k : SqCmd), s.nextCmd q = some k ∧ k.echoed = true ∧ wf k.words 0 63 56 = 0x30 ∧ s0 = s.markDispatched q k.seq ∧ s0.jobCheck k.ctx k.words ≠ St.ok ∧ s0.jobCheck k.ctx k.words ≠ St.topoShort) :=
  ⟨⟨0, [], (colls [coll 7 0 false 0 0]), _, (coll 7 0 false 0 0), grp, rfl, by decide +kernel, by decide +kernel, by decide +kernel⟩,
   ⟨0, [], (colls [coll 5 0xF00000000000 false 0 0]), _, (coll 5 0xF00000000000 false 0 0), grp, _, _, rfl, by decide +kernel, by decide +kernel, by decide +kernel, rfl, rfl⟩,
   ⟨0, [], (colls [coll 7 0xF00000000000 true 0 0]), _, (((colls [coll 7 0xF00000000000 true 0 0]).sendChunk (coll 7 0xF00000000000 true 0 0)).get (by decide +kernel)), rfl, by decide +kernel, by decide +kernel, by decide +kernel⟩,
   ⟨0, [], (arrivedAt (colls []) (fromOne Op.chunk 0 0 0xFFFFFFFF [])), ((arrivedAt (colls []) (fromOne Op.chunk 0 0 0xFFFFFFFF [])).withNet { (colls []).net with sunk := [] }), (fromOne Op.chunk 0 0 0xFFFFFFFF []), grp, by decide +kernel, by decide +kernel, by decide +kernel⟩,
   ⟨0, [], (arrivedAt (colls [coll 7 0 true 0 0]) (fromOne Op.chunk 0 0 3 [])), ((arrivedAt (colls [coll 7 0 true 0 0]) (fromOne Op.chunk 0 0 3 [])).withNet { (colls [coll 7 0 true 0 0]).net with sunk := [] }), (fromOne Op.chunk 0 0 3 []), grp, _, (coll 7 0 true 0 0), by decide +kernel, by decide +kernel, by decide +kernel, by decide +kernel, by decide +kernel, rfl, by decide +kernel⟩,
   ⟨0, [], (arrivedAt (colls []) (fromOne Op.chunk 0 0 3 [])), ((arrivedAt (colls []) (fromOne Op.chunk 0 0 3 [])).withNet { (colls []).net with sunk := [] }), (fromOne Op.chunk 0 0 3 []), grp, _, by decide +kernel, by decide +kernel, by decide +kernel, by decide +kernel, by decide +kernel, rfl, by decide +kernel⟩,
   ⟨0, [], (arrivedAt on (fromOne Op.chunk 0 0 0 [])), ((arrivedAt on (fromOne Op.chunk 0 0 0 [])).withNet { on.net with sunk := [] }), (fromOne Op.chunk 0 0 0 []), by decide +kernel, by decide +kernel⟩,
   ⟨0, (arrivedAt (colls []) (fromOne Op.credit 0 0 1 [])), ((arrivedAt (colls []) (fromOne Op.credit 0 0 1 [])).withNet { (colls []).net with sunk := [] }), _, (fromOne Op.credit 0 0 1 []), grp, by decide +kernel, by decide +kernel, rfl, by decide +kernel⟩,
   ⟨0, (colls [coll 7 0 true 9 1]), (coll 7 0 true 9 1), by decide +kernel, by decide +kernel⟩,
   ⟨0, (colls [coll 7 0 true 9 0]), (coll 7 0 true 9 0), grp, by decide +kernel, by decide +kernel, by decide +kernel⟩,
   ⟨0, (jobState 1), _, (cmdOf (jobWords 1)), by decide +kernel, by decide +kernel, by decide +kernel, rfl, by decide +kernel⟩,
   ⟨0, (jobState 2), _, (cmdOf (jobWords 2)), by decide +kernel, by decide +kernel, by decide +kernel, rfl, by decide +kernel⟩,
   ⟨0, (hostCmd [0x3000000000000000]), _, (cmdOf ([0x3000000000000000])), by decide +kernel, by decide +kernel, by decide +kernel, rfl, by decide +kernel, by decide +kernel⟩⟩

theorem witness_ledgerAndStore :
    (∃ (c : ClusterNo) (s : State), s.coreRuns (stewardOf c) = true ∧ s.aborting (s.coreCtx (stewardOf c)) = false ∧ s.ldg.seals.length < 64) ∧
    (∃ (c : ClusterNo) (s : State), s.coreRuns (stewardOf c) = true ∧ s.aborting (s.coreCtx (stewardOf c)) = false ∧ 64 ≤ s.ldg.seals.length) ∧
    (∃ (s : State) (x : Seal), (s.ldg.seals.find? fun x => !x.applied) = some x ∧ (((s.applySeal x).ldg.seals.find? fun y => ((s.applySeal x).sealStatus y).isSome && (((s.applySeal x).ldg.seals.takeWhile fun z => decide (z.num ≠ y.num)).all fun z => decide (z.ctx ≠ y.ctx ∨ wd z.block 2 = 0))) = none)) ∧
    (∃ (s : State) (s3 : State) (s5 : State) (x : Seal) (st : Nat), (s.ldg.seals.find? fun x => !x.applied) = none ∧ ((s.ldg.seals.find? fun y => (s.sealStatus y).isSome && ((s.ldg.seals.takeWhile fun z => decide (z.num ≠ y.num)).all fun z => decide (z.ctx ≠ y.ctx ∨ wd z.block 2 = 0))) = some x) ∧ x.put = none ∧ s.sealStatus x = some St.ok ∧ s3 = (s.withNet { s.net with ops := s.net.ops.filter fun o => decide (some o.num ≠ x.put) }).withLdg { s.ldg with seals := s.ldg.seals.filter fun y => decide (y.num ≠ x.num) } ∧ s3.act x.ctx (376 + 2 * s3.hub) (wd x.block 2) (wd x.block 3) = (st, s5)) ∧
    (∃ (c : ClusterNo) (s : State), s.coreRuns (stewardOf c) = true) ∧
    (∃ (data : W64), Bits.get data 31 24 ≠ 0) ∧
    (∃ (s : State) (s1 : State) (r : SstRec) (rest : List SstRec), s.sst.wait = r :: rest ∧ s.bankFull = false ∧ s1 = (s.onDevs fun f => f.setBank s.activeBank (f.bank s.activeBank ++ [r])).addFld Pg.sst F.sstUsedWritten r.size) ∧
    (∃ (s : State), s.sst.erasing = true) ∧
    (∃ (s : State), s.bankFull = true ∧ s.sst.erased = true) :=
  ⟨⟨0, on, by decide +kernel, by decide +kernel, by decide +kernel⟩,
   ⟨0, (on.withLdg { State.reset.ldg with seals := List.replicate 64 (sealOf true) }), by decide +kernel, by decide +kernel, by decide +kernel⟩,
   ⟨((porters [{ porterOp 0 0 1 with flying := 1 }]).withLdg { State.reset.ldg with seals := [{ sealOf true with num := 1, block := [0, 0, 1, 0], put := some 0 }, sealOf false] }), (sealOf false), by decide +kernel, by decide +kernel⟩,
   ⟨(sealing (sealOf true)), _, _, (sealOf true), _, by decide +kernel, by decide +kernel, by decide +kernel, by decide +kernel, rfl, rfl⟩,
   ⟨0, on, by decide +kernel⟩,
   ⟨0x01000000, by decide +kernel⟩,
   ⟨(State.reset.withSst { State.reset.sst with wait := [sealAtReset] }), _, sealAtReset, [], by decide +kernel, by decide +kernel, rfl⟩,
   ⟨(State.reset.withSst { State.reset.sst with erasing := true }), by decide +kernel⟩,
   ⟨((State.reset.withSst { State.reset.sst with wait := [sealAtReset], erased := true }).setFld Pg.sst F.sstUsedWritten bankBytes), by decide +kernel, by decide +kernel⟩⟩

theorem witness_powerCommands :
    (∃ (s : State), s.plat.pwrOk = true) ∧
    (∃ (v : W16) (s : State), s.hubUp = true ∧ (if v = 0 then 0 else clampNat 1000 2000 v.toNat) ≠ s.fld Pg.pwr F.pwrBmlimLimit) ∧
    (∃ (temp : W16) (s : State), s.plat.pwrOk = true ∧ (BitVec.ofNat 16 (s.fld Pg.pwr F.pwrTjThr)).toInt ≤ temp.toInt ∧ s.pwr.hot = true) ∧
    (∃ (temp : W16) (s : State), s.plat.pwrOk = true ∧ temp.toInt < (BitVec.ofNat 16 (s.fld Pg.pwr F.pwrTjThr)).toInt) ∧
    (∃ (d : Die) (k : Fin 35) (mv : W16) (s : State), s.dieUp d = true ∧ 660 ≤ mv.toNat ∧ mv.toNat < 713 ∧ s.warn d k = none) ∧
    (∃ (d : Die) (k : Fin 35) (mv : W16) (s : State) (w : _), s.dieUp d = true ∧ 660 ≤ mv.toNat ∧ mv.toNat < 713 ∧ s.warn d k = some w) ∧
    (∃ (d : Die) (k : Fin 35) (s : State), s.dieUp d = true ∧ k.val < 24) :=
  ⟨⟨State.reset, by decide +kernel⟩,
   ⟨999, State.reset, by decide +kernel, by decide +kernel⟩,
   ⟨1680, (State.reset.withPwr { State.reset.pwr with hot := true }), by decide +kernel, by decide +kernel, by decide +kernel⟩,
   ⟨0, State.reset, by decide +kernel, by decide +kernel⟩,
   ⟨0, 0, 712, State.reset, by decide +kernel, by decide +kernel, by decide +kernel, by decide +kernel⟩,
   ⟨3, 34, 660, (State.reset.setWarn 3 34 (some ⟨0, 700, 0⟩)), (⟨0, 700, 0⟩), by decide +kernel, by decide +kernel, by decide +kernel, by decide +kernel⟩,
   ⟨0, 23, State.reset, by decide +kernel, by decide +kernel⟩⟩

theorem witness_hostLinkCommands :
    (∃ (b : Bool) (words : List W64) (s : State), s.lane b = Hl.active ∧ Fr.ok words = true ∧ Fr.hver words = 3) ∧
    (∃ (b : Bool) (words : List W64) (s : State), s.lane b = Hl.standby ∧ Fr.ok words = true) ∧
    (∃ (b : Bool) (words : List W64) (s : State), s.lane b = Hl.active ∧ Fr.ok words = true ∧ Fr.hver words ≠ 3) ∧
    (∃ (b : Bool) (words : List W64) (s : State), s.lane b = Hl.active ∧ Fr.ok words = false) ∧
    (∃ (s : State) (s1 : State), s1 = s.sendIdle ∧ s1.anyActive = true) ∧
    (∃ (s : State) (s1 : State) (q : Nat) (seq : W64) (rest : List (Nat × W64)), s.host.fresh = (q, seq) :: rest ∧ s.host.mirrors.length = 2 ∧ s.host.mirrors.all s.unitUp = true ∧ s1 = s.setSqCmds q ((s.sqCmds q).map fun k => if k.seq = seq then { k with echoed := true } else k)) ∧
    (∃ (s : State) (o : RegOp) (r : RegRes) (rest : List (RegOp × Option RegRes)), takeDeferred (fun x => x.2.isSome || (s.regEffect x.1).isSome) s.host.deferred = some ((o, some r), rest)) ∧
    (∃ (s : State) (o : RegOp) (x : Option RegRes) (rest : List (RegOp × Option RegRes)), takeDeferred (fun x => x.2.isNone) s.host.deferred = some ((o, x), rest)) ∧
    (∃ (s : State), s.anyActive = true ∧ s.ringCredit = true ∧ s.recordDue ≠ []) ∧
    (∃ (b : Bool) (s : State), s.lane b = Hl.train ∧ s.tap.hold = false ∧ s.dieUp (laneDie b) = true) ∧
    (∃ (b : Bool) (v : Byte) (s : State) (s1 : State), s.lane b = Hl.train ∧ s.tap.hold = false ∧ s.dieUp (laneDie b) = true ∧ v.getLsbD 3 = true ∧ s1 = ((s.endTick b).setFld Pg.hlk F.hlkStatVersion 3).withPlat { s.plat with coldRstN := true } ∧ s.anyActive = true) ∧
    (∃ (b : Bool) (v : Byte) (s : State) (s1 : State), s.lane b = Hl.train ∧ s.tap.hold = false ∧ s.dieUp (laneDie b) = true ∧ v.getLsbD 3 = true ∧ s1 = ((s.endTick b).setFld Pg.hlk F.hlkStatVersion 3).withPlat { s.plat with coldRstN := true } ∧ s.anyActive = false ∧ (b && decide (s.phase = Ph.boot ∧ s.lane false = Hl.train)) = false) ∧
    (∃ (s : State), s.anyActive = false ∧ s.plat.pwrOk = true) ∧
    (∃ (s : State), s.lane false = Hl.active ∧ s.lane true = Hl.standby) ∧
    (∃ (s : State), s.lane true = Hl.active ∧ s.lane false = Hl.standby) ∧
    (∃ (b : Bool) (s : State), s.dieUp (laneDie b) = true ∧ s.lane b = Hl.down) ∧
    (∃ (b : Bool) (s : State), s.dieUp (laneDie b) = true ∧ s.lane b = Hl.fenced) ∧
    (∃ (b : Bool) (s : State), s.lane b ≠ Hl.fenced) :=
  ⟨⟨false, frame, (lanes 3 1), by decide +kernel, test_frame_ok, by decide +kernel⟩,
   ⟨false, frame, (lanes 2 3), by decide +kernel, test_frame_ok⟩,
   ⟨false, oldFrame, (lanes 3 1), by decide +kernel, test_frame_old, by decide +kernel⟩,
   ⟨false, badFrame, (lanes 3 1), by decide +kernel, test_frame_bad⟩,
   ⟨(lanes 3 1), _, rfl, by decide +kernel⟩,
   ⟨fresh, _, 255, 1, [], by decide +kernel, by decide +kernel, by decide +kernel, rfl⟩,
   ⟨(State.reset.withHost { State.reset.host with deferred := [(⟨0, 0, 0, 3, 0⟩, some ⟨0, 0, 0, 0, 0⟩)] }), (⟨0, 0, 0, 3, 0⟩), (⟨0, 0, 0, 0, 0⟩), [], by decide +kernel⟩,
   ⟨(State.reset.withHost { State.reset.host with deferred := [(⟨0, 0, 0, 3, 0⟩, none)] }), (⟨0, 0, 0, 3, 0⟩), none, [], by decide +kernel⟩,
   ⟨(((lanes 3 1).setSqCmds 7 [⟨1, 5, [], true, true, some (0, 0, 0), false⟩]).setFld Pg.hlk F.hlkCfgCring 1), by decide +kernel, by decide +kernel, by decide +kernel⟩,
   ⟨false, (lanes 1 1), by decide +kernel, by decide +kernel, by decide +kernel⟩,
   ⟨false, 8, (lanes 1 3), _, by decide +kernel, by decide +kernel, by decide +kernel, by decide +kernel, rfl, by decide +kernel⟩,
   ⟨false, 8, State.reset, _, by decide +kernel, by decide +kernel, by decide +kernel, by decide +kernel, rfl, by decide +kernel, by decide +kernel⟩,
   ⟨(lanes 4 4), by decide +kernel, by decide +kernel⟩,
   ⟨(lanes 3 2), by decide +kernel, by decide +kernel⟩,
   ⟨(lanes 2 3), by decide +kernel, by decide +kernel⟩,
   ⟨false, (lanes 4 1), by decide +kernel, by decide +kernel⟩,
   ⟨false, (lanes 5 1), by decide +kernel, by decide +kernel⟩,
   ⟨false, State.reset, by decide +kernel⟩⟩

theorem witness_securityCommands :
    (∃ (s : State), s.phase = Ph.waitImage) ∧
    (∃ (s : State), s.phase = Ph.ready) ∧
    (∃ (s : State) (s0 : State) (ws : List W64), s.boot.check = some ws ∧ s.phase = Ph.verify ∧ s0 = s.withBoot { s.boot with check := none } ∧ imageResult s.boot.svn s.boot.vkrev ws ≠ 1) ∧
    (∃ (s : State), s.plat.pwrOk = true ∧ s.phase = Ph.firmware ∧ s.fld Pg.rcv F.rcvStatPhase = 1 ∧ (s.rcv.resets.any fun j => decide (4 ≤ j.dom)) = false) ∧
    (∃ (x : Byte) (s : State), s.boot.svn < x.toNat ∧ x.toNat ≤ s.runSvn ∧ s.boot.fuseOp = none) ∧
    (∃ (x : Byte) (s : State), s.runSvn < x.toNat) ∧
    (∃ (x : Byte) (s : State), x.toNat ≤ 1 ∧ s.boot.running ≠ [] ∧ s.runSlot = 1 - x.toNat ∧ s.boot.vkrev.getLsbD (1 - x.toNat) = false ∧ s.boot.fuseOp = none) ∧
    (∃ (s : State) (x : Nat), s.boot.fuseOp = some (1, x)) ∧
    (∃ (s : State) (x : Nat), s.boot.fuseOp = some (2, x)) ∧
    (∃ (s : State) (op : Nat) (x : Nat), s.boot.fuseOp = some (op, x)) ∧
    (∃ (s : State), s.bitF Pg.sec F.secAstatBusy = false ∧ s.phase ≠ Ph.test ∧ s.boot.lifecycle ≠ 2 ∧ s.boot.idFail = false ∧ s.leafNext < leafEnd) ∧
    (∃ (s : State), s.bitF Pg.sec F.secAstatBusy = false ∧ s.phase = Ph.test) ∧
    (∃ (s : State), s.bitF Pg.sec F.secAstatBusy = true ∧ s.idReady = true ∧ s.leafWaits = false ∧ s.leafNext < s.boot.leafRes) :=
  ⟨⟨(boot 1), by decide +kernel⟩,
   ⟨(boot 4), by decide +kernel⟩,
   ⟨((boot 2).withBoot { State.reset.boot with check := some [] }), _, [], by decide +kernel, by decide +kernel, rfl, by decide +kernel⟩,
   ⟨(boot 3), by decide +kernel, by decide +kernel, by decide +kernel, by decide +kernel⟩,
   ⟨5, (State.reset.withBoot { State.reset.boot with running := [0, 0x0105] }), by decide +kernel, by decide +kernel, by decide +kernel⟩,
   ⟨1, State.reset, by decide +kernel⟩,
   ⟨0, (State.reset.withBoot { State.reset.boot with running := [0, 0x0105] }), by decide +kernel, by decide +kernel, by decide +kernel, by decide +kernel, by decide +kernel⟩,
   ⟨(State.reset.withBoot { State.reset.boot with fuseOp := some (1, 5) }), 5, by decide +kernel⟩,
   ⟨(State.reset.withBoot { State.reset.boot with fuseOp := some (2, 1) }), 1, by decide +kernel⟩,
   ⟨(State.reset.withBoot { State.reset.boot with fuseOp := some (2, 1) }), 2, 1, by decide +kernel⟩,
   ⟨State.reset, by decide +kernel, by decide +kernel, by decide +kernel, by decide +kernel, by decide +kernel⟩,
   ⟨(boot 5), by decide +kernel, by decide +kernel⟩,
   ⟨(((State.reset.setBitF Pg.sec F.secAstatBusy true).setBitF Pg.sec F.secStatIdready true).withBoot { State.reset.boot with leafRes := 1 }), by decide +kernel, by decide +kernel, by decide +kernel, by decide +kernel⟩⟩

theorem witness_testPorts :
    (∃ (bs : List Byte) (s : State), s.boot.token.length + bs.length < 2944 ∧ s.plat.pwrOk = true) ∧
    (∃ (dies : BitVec 4) (s : State) (m : Nat), s.testMask dies.toNat = some m) ∧
    (∃ (s : State), s.phase = Ph.ready) ∧
    (∃ (d : Die) (s : State), s.phase = Ph.test ∧ s.plat.dieTest.getLsbD d = true) ∧
    (∃ (s : State) (code : Byte), s.plat.pwrOk = true ∧ Ir.other code = true) ∧
    (∃ (s : State), s.plat.pwrOk = true ∧ s.plat.coldRstN = false) ∧
    (∃ (d : Die) (addr : BitVec 26) (s : State) (s1 : State) (k : Nat), s.plat.pwrOk = true ∧ s1 = s.selectIr d Ir.tstacc ∧ s1.phase = Ph.test ∧ addr.toNat % 8 = 0 ∧ s1.canon addr.toNat = some k ∧ s1.pageUp d k = true) ∧
    (∃ (d : Die) (op : BitVec 2) (addr : BitVec 26) (s : State) (s1 : State), s.plat.pwrOk = true ∧ s1 = s.selectIr d Ir.tstacc ∧ s1.phase = Ph.test ∧ op.toNat < 2 ∧ addr.toNat % 8 ≠ 0) :=
  ⟨⟨(List.replicate 2943 0), State.reset, by decide +kernel, by decide +kernel⟩,
   ⟨15, (State.reset.withBoot { State.reset.boot with tokenOk := some 15 }), 15, by decide +kernel⟩,
   ⟨(boot 4), by decide +kernel⟩,
   ⟨3, ((boot 5).withPlat { State.reset.plat with dieTest := 15 }), by decide +kernel, by decide +kernel⟩,
   ⟨State.reset, 6, by decide +kernel, by decide +kernel⟩,
   ⟨(State.reset.withPlat { State.reset.plat with coldRstN := false }), by decide +kernel, by decide +kernel⟩,
   ⟨0, 0x40010, (boot 5), _, 0x40010, by decide +kernel, rfl, by decide +kernel, by decide +kernel, by decide +kernel, by decide +kernel⟩,
   ⟨0, 0, 1, (boot 5), _, by decide +kernel, rfl, by decide +kernel, by decide +kernel, by decide +kernel⟩⟩

theorem witness_hostCommands :
    (∃ (q : Fin 256) (s : State) (k : SqCmd), s.readyCmd q (fun o => decide (o = 0x60)) = some k) ∧
    (∃ (q : Fin 256) (s : State) (k : SqCmd), s.readyCmd q (fun o => decide (o = 0x61)) = some k ∧ (s.sqCmds q).head?.map (·.seq) = some k.seq) ∧
    (∃ (q : Fin 256) (s : State) (k : SqCmd), s.readyCmd q (fun o => !([0x10, 0x30, 0x50, 0x60, 0x61].contains o)) = some k) ∧
    (∃ (q : Fin 256) (data : W64) (s : State), s.sqValid q = false ∧ data.getLsbD 63 = true ∧ F.sqCfgCtx.of data ≠ 0 ∧ 0 < F.sqCfgDepth.of data ∧ F.sqCfgDepth.of data ≤ 4096 ∧ s.depthSum + F.sqCfgDepth.of data ≤ 65536) ∧
    (∃ (q : Fin 256) (data : W64) (s : State), s.sqValid q = true ∧ data.getLsbD 63 = false ∧ s.outstanding q ≠ 0) ∧
    (∃ (s : State), s.plat.pwrOk = true ∧ ((List.range 256).any fun q => decide (KMap.get (0 : W64) s.host.consumed q ≠ s.reg (Pg.sq q + 0x118))) = true) ∧
    (∃ (page : BitVec 14) (p : Nat) (s : State), s.canon (page.toNat * 4096) = some p) ∧
    (∃ (addr : BitVec 26) (k : Nat) (s : State), addr.toNat % 8 = 0 ∧ s.plat.pwrOk = true ∧ s.canon addr.toNat = some k ∧ s.pageUp s.hostDie k = true) :=
  ⟨⟨0, (hostCmd [0x6000000000000000]), (cmdOf [0x6000000000000000]), by decide +kernel⟩,
   ⟨0, (hostCmd [0x6100000000000000]), (cmdOf [0x6100000000000000]), by decide +kernel, by decide +kernel⟩,
   ⟨0, (hostCmd [0]), (cmdOf [0]), by decide +kernel⟩,
   ⟨0, (Bits.make [(63, 63, 1), (F.sqCfgCtx.hi, F.sqCfgCtx.lo, 255), (F.sqCfgDepth.hi, F.sqCfgDepth.lo, 4096)]), State.reset, by decide +kernel, by decide +kernel, by decide +kernel, by decide +kernel, by decide +kernel, by decide +kernel⟩,
   ⟨0, 0, ((hostCmd [0]).setBitF (Pg.sq 0) F.sqCfgValid true), by decide +kernel, by decide +kernel, by decide +kernel⟩,
   ⟨(State.reset.withHost { State.reset.host with consumed := [(255, 1)] }), by decide +kernel, by decide +kernel⟩,
   ⟨0x40, 0x40000, State.reset, by decide +kernel⟩,
   ⟨0x40010, 0x40010, State.reset, by decide +kernel, by decide +kernel, by decide +kernel, by decide +kernel⟩⟩

theorem witness_abortsAndRecovery :
    (∃ (u : WdUnit) (s : State), s.plat.pwrOk = true ∧ s.excludedWait u = false) ∧
    (∃ (u : WdUnit) (s : State) (t : Trial), (s.rcv.trials.find? fun t => decide (t.unit = u)) = some t) ∧
    (∃ (s : State) (c : Nat) (ctx : Nat) (rest : List (Nat × Nat)), s.rcv.late = (c, ctx) :: rest) ∧
    (∃ (q : Fin 256) (s : State) (k : SqCmd), s.nextCmd q = some k ∧ k.echoed = true ∧ wf k.words 0 63 56 = 0x50 ∧ wf k.words 0 7 0 = k.ctx) ∧
    (∃ (q : Fin 256) (s : State) (k : SqCmd), s.nextCmd q = some k ∧ k.echoed = true ∧ wf k.words 0 63 56 = 0x50 ∧ wf k.words 0 7 0 ≠ k.ctx) ∧
    (∃ (ctx : Byte), ctx ≠ 0) ∧
    (∃ (s : State), s.rcv.aborts ≠ []) ∧
    (∃ (s : State) (j : AbortJob) (rest : List AbortJob), s.rcv.aborts = j :: rest) ∧
    (∃ (s : State) (r : Relay) (rest : List Relay), s.rcv.relays = r :: rest) ∧
    (∃ (e : W32) (s : State), s.oosLatched = true ∧ s.rcv.coldSince = true ∧ s.fld Pg.rcv F.rcvOosEvseq = e.toNat ∧ (s.setOos 0).fld Pg.rcv F.rcvStatPhase = 2) ∧
    (∃ (s : State), s.oosLatched = false) ∧
    (∃ (s : State), s.rcv.dump = none) :=
  ⟨⟨(.update 0), State.reset, by decide +kernel, by decide +kernel⟩,
   ⟨(.mxe 0), (State.reset.withRcv { State.reset.rcv with trials := [⟨.mxe 0, [5]⟩] }), (⟨.mxe 0, [5]⟩), by decide +kernel⟩,
   ⟨(State.reset.withRcv { State.reset.rcv with late := [(47, 5)] }), 47, 5, [], by decide +kernel⟩,
   ⟨0, (hostCmd [0x5000000000000005]), (cmdOf [0x5000000000000005]), by decide +kernel, by decide +kernel, by decide +kernel, by decide +kernel⟩,
   ⟨0, (hostCmd [0x5000000000000006]), (cmdOf [0x5000000000000006]), by decide +kernel, by decide +kernel, by decide +kernel, by decide +kernel⟩,
   ⟨255, by decide +kernel⟩,
   ⟨(State.reset.withRcv { State.reset.rcv with aborts := [⟨5, 0, 0, []⟩] }), by decide +kernel⟩,
   ⟨(State.reset.withRcv { State.reset.rcv with aborts := [⟨5, 0, 0, []⟩] }), (⟨5, 0, 0, []⟩), [], by decide +kernel⟩,
   ⟨(State.reset.withRcv { State.reset.rcv with relays := [⟨[], [], 1⟩] }), (⟨[], [], 1⟩), [], by decide +kernel⟩,
   ⟨0, (((State.reset.setBitF Pg.rcv F.rcvOosLatched true).setFld Pg.rcv F.rcvStatPhase 2).withRcv { State.reset.rcv with coldSince := true }), by decide +kernel, by decide +kernel, by decide +kernel, by decide +kernel⟩,
   ⟨State.reset, by decide +kernel⟩,
   ⟨State.reset, by decide +kernel⟩⟩

theorem witness_resets :
    (∃ (u : WdUnit) (s : State), s.fld Pg.rcv F.rcvStatPhase = 0 ∧ ((∃ e, u = .mxe e) ∨ (∃ v, u = .vxe v) ∨ (∃ x, u = .update x) ∨ (∃ d, u = .courier d)) ∧ s.runningCtx u = none) ∧
    (∃ (u : WdUnit) (s : State) (c : _), s.fld Pg.rcv F.rcvStatPhase = 0 ∧ ((∃ e, u = .mxe e) ∨ (∃ v, u = .vxe v) ∨ (∃ x, u = .update x) ∨ (∃ d, u = .courier d)) ∧ s.runningCtx u = some c) ∧
    (∃ (s : State), s.fld Pg.rcv F.rcvStatPhase = 0) ∧
    (∃ (d : Die) (s : State), s.fld Pg.rcv F.rcvStatPhase = 0 ∧ s.plat.dieFenced.getLsbD d = false) ∧
    (∃ (s : State), s.fld Pg.rcv F.rcvStatPhase = 0) ∧
    (∃ (s : State), s.fld Pg.rcv F.rcvStatPhase ≠ 0) ∧
    (∃ (s : State), s.plat.pwrOk = true ∧ s.phase ≠ Ph.test) ∧
    (∃ (u : WdUnit) (s : State) (j : ResetJob), s.findReset (.engine u) = some j) ∧
    (∃ (c : ClusterNo) (s : State) (j : ResetJob), s.findReset (.cluster c) = some j) ∧
    (∃ (d : Die) (s : State) (j : ResetJob), s.findReset (.dieFunction d) = some j) ∧
    (∃ (tg : ResetTarget) (s : State) (s1 : State) (j : ResetJob) (u : _) (c : _), s.findReset tg = some j ∧ s1 = ((s.dropReset tg).setErr Pg.rcv F.rcvErrStatResetFail 0).event (targetPlace tg).1 Ev.resetFail 0 (unitOf (targetPlace tg).2.1) 0 0 ∧ tg = .engine u ∧ wdCluster u = some c) ∧
    (∃ (tg : ResetTarget) (s : State) (s1 : State) (j : ResetJob) (u : _), s.findReset tg = some j ∧ s1 = ((s.dropReset tg).setErr Pg.rcv F.rcvErrStatResetFail 0).event (targetPlace tg).1 Ev.resetFail 0 (unitOf (targetPlace tg).2.1) 0 0 ∧ tg = .engine u ∧ wdCluster u = none) ∧
    (∃ (tg : ResetTarget) (s : State) (s1 : State) (j : ResetJob) (c : _), s.findReset tg = some j ∧ s1 = ((s.dropReset tg).setErr Pg.rcv F.rcvErrStatResetFail 0).event (targetPlace tg).1 Ev.resetFail 0 (unitOf (targetPlace tg).2.1) 0 0 ∧ tg = .cluster c) ∧
    (∃ (tg : ResetTarget) (s : State) (s1 : State) (j : ResetJob), s.findReset tg = some j ∧ s1 = ((s.dropReset tg).setErr Pg.rcv F.rcvErrStatResetFail 0).event (targetPlace tg).1 Ev.resetFail 0 (unitOf (targetPlace tg).2.1) 0 0 ∧ tg = .warm) ∧
    (∃ (s : State) (s1 : State) (j : ResetJob), (s.rcv.resets.find? fun j => decide (4 ≤ j.dom)) = some j ∧ s.phase = Ph.firmware ∧ s.tap.hold = false ∧ s1 = (s.withRcv { s.rcv with resets := [] }).withPlat { s.plat with coldRstN := true }) :=
  ⟨⟨(.courier 3), on, by decide +kernel, .inr (.inr (.inr ⟨3, rfl⟩)), by decide +kernel⟩,
   ⟨(.mxe 0), (withRun (tileRun 0 0 false)), 0, by decide +kernel, .inl ⟨0, rfl⟩, by decide +kernel⟩,
   ⟨on, by decide +kernel⟩,
   ⟨0, on, by decide +kernel, by decide +kernel⟩,
   ⟨on, by decide +kernel⟩,
   ⟨State.reset, by decide +kernel⟩,
   ⟨State.reset, by decide +kernel, by decide +kernel⟩,
   ⟨(.mxe 191), (on.withRcv { State.reset.rcv with resets := [⟨1, .engine (.mxe 191), none⟩] }), (⟨1, .engine (.mxe 191), none⟩), by decide +kernel⟩,
   ⟨47, (on.withRcv { State.reset.rcv with resets := [⟨2, .cluster 47, none⟩] }), (⟨2, .cluster 47, none⟩), by decide +kernel⟩,
   ⟨3, (on.withRcv { State.reset.rcv with resets := [⟨3, .dieFunction 3, none⟩] }), (⟨3, .dieFunction 3, none⟩), by decide +kernel⟩,
   ⟨(.engine (.mxe 191)), (on.withRcv { State.reset.rcv with resets := [⟨1, .engine (.mxe 191), none⟩] }), _, (⟨1, .engine (.mxe 191), none⟩), (.mxe 191), 47, by decide +kernel, rfl, by decide +kernel, by decide +kernel⟩,
   ⟨(.engine (.update 3)), (on.withRcv { State.reset.rcv with resets := [⟨1, .engine (.update 3), none⟩] }), _, (⟨1, .engine (.update 3), none⟩), (.update 3), by decide +kernel, rfl, by decide +kernel, by decide +kernel⟩,
   ⟨(.cluster 47), (on.withRcv { State.reset.rcv with resets := [⟨2, .cluster 47, none⟩] }), _, (⟨2, .cluster 47, none⟩), 47, by decide +kernel, rfl, by decide +kernel⟩,
   ⟨.warm, (on.withRcv { State.reset.rcv with resets := [⟨4, .warm, none⟩] }), _, (⟨4, .warm, none⟩), by decide +kernel, rfl, by decide +kernel⟩,
   ⟨((boot 3).withRcv { State.reset.rcv with resets := [⟨5, .cold, none⟩] }), _, (⟨5, .cold, none⟩), by decide +kernel, by decide +kernel, by decide +kernel, rfl⟩⟩

theorem witness_platformCommands :
    (∃ (s : State), s.plat.pwrOk = true) ∧
    (∃ (i : PowerUpIn) (s : State) (s0 : State) (s3 : State), s.plat.pwrOk = false ∧ s0 = s.unpowered s.host.ranges ∧ s3 = ((((((s0.withPlat { s0.plat with pwrOk := true, coldRstN := true }).senseFuses).readStore i.devA i.devB).loadUnits).newChal).pwrStart).selfChecks i.selfOk) ∧
    (∃ (b : Fin 4) (f : Nat) (s : State), s.bridgeUp b = true ∧ (s.bridge b).flit = f ∧ 0 < (s.bridge b).replays) ∧
    (∃ (b : Fin 4) (f : Nat) (s : State), s.bridgeUp b = true ∧ (s.bridge b).flit ≠ f) ∧
    (∃ (b : Fin 4) (s : State), s.bridgeUp b = true ∧ 16 ≤ (s.bridge b).replays) ∧
    (∃ (d : Die) (s : State), s.dieUp d = true ∧ (s.tb d).free = false) ∧
    (∃ (d : Die) (s : State), s.dieUp d = true ∧ (s.tb d).free = true) ∧
    (∃ (s : State), s.hubUp = true ∧ s.host.stopped = false) ∧
    (∃ (s : State), s.host.stopped = true ∧ s.allDurable = true) :=
  ⟨⟨State.reset, by decide +kernel⟩,
   ⟨(⟨15, 0, true, true⟩), (State.reset.withPlat { State.reset.plat with pwrOk := false }), _, _, by decide +kernel, rfl, rfl⟩,
   ⟨3, 7, (State.reset.setBridge 3 ⟨7, 15, false, [7]⟩), by decide +kernel, by decide +kernel, by decide +kernel⟩,
   ⟨0, 1, State.reset, by decide +kernel, by decide +kernel⟩,
   ⟨3, (State.reset.setBridge 3 ⟨7, 16, false, [7]⟩), by decide +kernel, by decide +kernel⟩,
   ⟨0, State.reset, by decide +kernel, by decide +kernel⟩,
   ⟨3, (State.reset.setTb 3 ⟨0, true⟩), by decide +kernel, by decide +kernel⟩,
   ⟨State.reset, by decide +kernel, by decide +kernel⟩,
   ⟨(State.reset.withHost { State.reset.host with stopped := true }), by decide +kernel, by decide +kernel⟩⟩

/-! ## Images and identity: conditions on constants that nothing evaluates

The result of an image and the match of the identity tree rest on constants without a body, so these two say that a state meets the other hypotheses in either case. -/

theorem witness_securityCommands_image (ws : List W64) : ∃ s s0 : State, s.boot.check = some ws ∧ s.phase = Ph.verify ∧ s0 = s.withBoot { s.boot with check := none } ∧
    (imageResult s.boot.svn s.boot.vkrev ws = 1 ∨ imageResult s.boot.svn s.boot.vkrev ws ≠ 1) :=
  let b := boot Ph.verify
  ⟨b.withBoot { b.boot with check := some ws }, _, rfl, show (boot Ph.verify).phase = Ph.verify by decide +kernel, rfl, Classical.em _⟩

theorem witness_securityCommands_identity : ∃ s : State, s.idReady = false ∧ s.boot.idFail = false ∧ s.boot.secretOff = false ∧ s.plat.pwrOk = true ∧
    (shake256 idPublic = (List.range 4).map Config.idpkh ∨ shake256 idPublic ≠ (List.range 4).map Config.idpkh) :=
  ⟨State.reset, by decide +kernel, rfl, rfl, rfl, Classical.em _⟩

/-! ## Ill-formed commands, one for each check of WellFormed, and a well-formed one beside the bound -/

theorem test_illFormed_tileExecute : WellFormed (.tileExecute ⟨0, []⟩ 0 [⟨0, 256, 0, 1, 0, false⟩]) = false ∧ WellFormed (.tileExecute ⟨0, []⟩ 0 [⟨0, 255, 255, 1, 0, false⟩]) = true := by decide
theorem test_illFormed_tileRerun : WellFormed (.tileRerun ⟨0, []⟩ [⟨0, 0, 256, 1, 0, false⟩]) = false := by decide
theorem test_illFormed_scrubPass : WellFormed (.scrubPass (.stack 3) ⟨[⟨4, 0, 0, true⟩], false⟩) = false ∧ WellFormed (.scrubPass (.stack 3) ⟨[⟨3, 2 ^ 38, 0, true⟩], false⟩) = false ∧
    WellFormed (.scrubPass (.lpddr 1) ⟨[⟨23, 0, 1, true⟩], false⟩) = true ∧ WellFormed (.scrubPass (.lpddr 1) ⟨[⟨23, 0, 2, true⟩], false⟩) = false := by decide
theorem test_illFormed_slOpenRecv : WellFormed (.slOpenRecv ⟨0, 0, 128, 0⟩) = false ∧ WellFormed (.slOpenRecv ⟨0, 0, 127, 0⟩) = true := by decide
theorem test_illFormed_slDescRecv : WellFormed (.slDescRecv ⟨0, 0, List.replicate 7 0⟩) = false := by decide
theorem test_illFormed_markRecv : WellFormed (.markRecv 0 [0]) = false := by decide
theorem test_illFormed_rsackRecv : WellFormed (.rsackRecv 0 []) = false := by decide
theorem test_illFormed_crdRecv : WellFormed (.crdRecv 0 (List.replicate 9 0)) = false := by decide
theorem test_illFormed_pktRecv : WellFormed (.pktRecv 0 [0, 0, 0, 0, 0]) = false ∧ WellFormed (.pktRecv 0 []) = false := by decide
theorem test_illFormed_relayRecv : WellFormed (.relayRecv 0 [0, 0, 0]) = false := by decide
theorem test_illFormed_hostFrameRecv : WellFormed (.hostFrameRecv false []) = false := by decide
theorem test_illFormed_pwrTick : WellFormed (.pwrTick [1, 2, 3]) = false := by decide
theorem test_illFormed_tsttoken : WellFormed (.tsttoken 0 (List.replicate 2945 0)) = false := by decide +kernel
theorem test_illFormed_bypass : WellFormed (.bypass 0 0x06) = false ∧ WellFormed (.bypass 0 0x10) = false ∧ WellFormed (.bypass 0 0x3F) = true := by decide

/-- No row of the table gives bits. -/
theorem test_noTableWords : decodeTableWord 32 0 = none := rfl

/-! ## Addresses and slots (the worked examples of R4, R12, R188, R219, R272, R292, R297, R330, R362, R382, R429, R470, R495) -/

theorem test_slot_of_core : coreSlot 31 4 = 237 := by decide
theorem test_address_stat : pg 3 5 10 + 0x018 = 0x0314A018 := by decide
theorem test_address_flush_f8 : evtKey 2 0 3 1 = 0x02380298 := by decide
theorem test_address_ms17_temp : Pg.msc 17 + F.mscTempLevel.off = 0x03482100 := by decide
theorem test_address_ol141_outseq : inSeqPg 141 + F.slqOutseqSent.off = 0x025C0B68 := by decide
theorem test_address_br07_stat : Pg.bar 7 + F.barStatState.off = 0x00647018 := by decide
theorem test_address_lk14_errcnt : Pg.lnk 14 + 0x128 = 0x02682128 := by decide
theorem test_address_rwin9_src : Pg.rwin + 32 * 9 + F.rwinSrcValid.off = 0x00740320 := by decide
theorem test_address_sq200_next : Pg.sq 200 + F.sqNextSeq.off = 0x03108108 := by decide
theorem test_address_rcv_abort : Pg.rcv + F.rcvAbortCtx.off = 0x00840108 := by decide
theorem test_address_cd2_drp_last : Pg.drp 2 + F.drpLastMv.off = 0x021C0108 := by decide
theorem test_address_sec_acmd : Pg.sec + F.secAcmdGo.off = 0x00980140 := by decide
/-- Slot 337, the courier of CD1, is bit 17 of MASK5 (R292). -/
theorem test_mask_of_courier : ((State.reset.setReg (Pg.bar 7 + 0x108 + 8 * 5) 0x20000).inMask 7 337) = true := by decide +kernel

/-! ## Memory -/

/-- The worked access of R196 and R501: region 5, mode 0, all 20 stacks: unit MS15, member offset 0x01001A40. -/
theorem test_worked_access :
    (Region.mk true false false 0 0 0 0xFFFFF 0x40000000 (2 ^ 30) 0x1000000).spread 0x40017A40 = (15, 0x1001A40) := by decide +kernel

/-! ## Formats and rounding -/

/-- F4 by 1×32 blocks with one slot a segment, F8 without blocks, and I4 with zero point −8. -/
def f4 : Fmt := .ofWord 0x1020
def i4 : Fmt := .ofWord 0x08A1
/-- A decimal as an exact number, close enough to round alike. -/
def dec (num den : Nat) : Fl := ratFl false num den 0

/-- The F4 intervals of R49 at their edges: 0.875 rounds to 1.0, anything below it to 0; 5 rounds to 6; −1.25 to −1.5; 7 saturates. -/
theorem test_f4_edges : (narrowOne f4 0 (dec 7 8)).code = 2 ∧ (narrowOne f4 0 (dec 874 1000)) = ⟨0, false, true, false⟩ ∧ (narrowOne f4 0 (.fin false 5 0)).code = 7 ∧
    (narrowOne f4 0 (.fin true 5 (-2))).code = 0b1011 ∧ narrowOne f4 0 (.fin false 7 0) = ⟨7, true, false, false⟩ := by decide +kernel
/-- The values of the F4 codes (R47). -/
theorem test_f4_codes : ((List.range 8).map fun c => (narrowCode 0 c).eq ([.zero, .zero, .one, .fin false 3 (-1), .fin false 2 0, .fin false 3 0, .fin false 4 0, .fin false 6 0].getD c .nan)) =
    List.replicate 8 true := by decide +kernel
/-- The worked I4 block of R51: scale byte 0x7B, codes 0b0110, 0b0000 and 0b1000. -/
theorem test_i4_block : blockScale i4 [dec 9 10, dec 1 2, dec 3 100] = 0x7B ∧ (narrowOne i4 (-4) (dec 9 10)).code = 6 ∧ (narrowOne i4 (-4) (dec 1 2)).code = 0 ∧
    (narrowOne i4 (-4) (dec 3 100)).code = 8 := by decide +kernel
/-- 0.1 in W40, and the update of 10⁻⁹ that W40 keeps and FP32 loses (R58). -/
theorem test_w40_tenth : w40Split (w40F.round (dec 1 10)).code = (0x3DCCCCCC, 0xCD) ∧ (fp32F.round (w40v 0x3DCCCCCC 0xCD)).code = 0x3DCCCCCD ∧
    w40Split (w40F.round (.add (w40v 0x3DCCCCCC 0xCD) (dec 1 (10 ^ 9)))).code = (0x3DCCCCCC, 0xEF) ∧
    (fp32F.round (.add (fp32v 0x3DCCCCCD) (dec 1 (10 ^ 9)))).code = 0x3DCCCCCD := by decide +kernel
/-- Halfway cases round away from zero (R70): 2²⁴ + 1 in FP32. -/
theorem test_round_away : (fp32F.round (.fin false 0x1000001 0)).code = 0x4B800001 ∧ (fp32F.round (.fin true 0x1000001 0)).code = 0xCB800001 := by decide +kernel
/-- The sums of R354's worked element: block 0 and block 2 of x₀ to x₃ = 2²⁴, 1, 1, −2²⁴ both end at 2.0. -/
theorem test_ring_orders : (fpAdd fp32F (fpAdd fp32F (fpAdd fp32F 0x3F800000 0x3F800000).code 0xCB800000).code 0x4B800000).code = 0x40000000 ∧
    (fpAdd fp32F (fpAdd fp32F (fpAdd fp32F 0xCB800000 0x4B800000).code 0x3F800000).code 0x3F800000).code = 0x40000000 := by decide +kernel
/-- The worked group of R174: bins 43, 42 and 39, and with OMODE 2 and T = 4.0 the first two are marked, the third is not. -/
theorem test_histogram_group : [dec 19 4, dec 18 5, dec 305 1000].map histBin = [43, 42, 39] ∧ [dec 19 4, dec 18 5, dec 305 1000].map (fun v => outlier 2 0x40800000 v (dec 305 1000)) =
    [true, true, false] := by decide +kernel

/-! ## Packets -/

/-- The worked header of R310: version 1, TTL 32 and VC 1 stand in word 0 beside the CLASS, PLEN and OP; word 1 names slot 0x2A7 of generation 3. -/
theorem test_worked_header : (mkPkt { State.reset.head 0x0456 0 Op.put with src := 0x0123, epoch := 1, ttl := 32, slot := 0x2A7, gen := 3, addr := 0x40017A40 } (List.replicate 32 0)).take 2 =
    [0x0456012382020001, 0x2A73000040017A40] ∧ Bits.put (Bits.put 0x0456012392020001 30 28 0) 25 20 0 = 0x0456012380020001 := by decide +kernel
/-- CRC-32C of the digits 1 to 9 in ASCII, the published check value of the code that R310 names. -/
theorem test_crc_check : crc32c ((List.range 9).map fun i => BitVec.ofNat 8 (0x31 + i)) = 0xE3069283 := by decide +kernel
/-- The board ports of R332: offset 5 from position 2 is LK03 and LK15, and 3 back is LK01 and LK13. -/
theorem test_board_ports : firstPorts.getD 4 0 = 3 ∧ secondPorts.getD 4 0 = 15 ∧ firstPorts.getD 2 0 = 1 ∧ secondPorts.getD 2 0 = 13 := by decide

/-! ## Synchronisation, power, ledger, attention -/

/-- The worked queue of R277 on a FULL word that holds 7: ldfe of slot 40, ldfn of slot 41, stef of slot 42 with 9. -/
def threeWait : State :=
  let s := (word true false).storeNat 0xF00000000000 8 7
  s.withSync { s.sync with waiters := [⟨40, 2, .ldfe 0xF00000000000⟩, ⟨41, 2, .ldfn 0xF00000000000⟩, ⟨42, 2, .stef 0xF00000000000 9⟩] }
/-- All three complete: slot 40 with the old value, slot 41 with the one slot 42 stored; the word stays FULL. -/
theorem test_worked_wake : (threeWait.wakeWord 0xF00000000000).1.sync.waiters = [] ∧ (threeWait.wakeWord 0xF00000000000).1.g 40 3 = 7 ∧
    (threeWait.wakeWord 0xF00000000000).1.g 41 3 = 9 ∧ (threeWait.wakeWord 0xF00000000000).1.wordState 0xF00000000000 = (true, false) := by decide +kernel

/-- One tick of full F4 issue on 192 engines at weight 2,880 pJ (46,080 sixteenths): 519.8 W (R457). -/
def fullF4 : State := ((List.range 4).foldl (fun s d => s.setFld Pg.pwr (staticFld d) 0) State.reset).setFld Pg.pwr F.pwrWPj 46080
theorem test_worked_estimate : fullF4.estimate [288768, 0, 0, 0, 0, 0, 0, 0] = 46080 * 288768 ∧ 46080 * 288768 * 10 / pwrUnit = 5197 := by decide +kernel
/-- The worked cap of R460: a board limit of 1,300 W, 990 W outside the engines and a settled estimate at c = 16. -/
theorem test_worked_cap : (fullF4.setFld Pg.pwr F.pwrBmlimLimit 1300).nextCap [] (990 * pwrUnit + 46080 * 144384) 144384 = 16 := by decide +kernel
/-- The worked interval of R443: 1,971,801 ms at start, and 1,783,561 ms with MTBF 17,673 s after 30 hours and 7 failures. -/
def ckpt (trun f : Nat) : State :=
  ((((State.reset.setFld (ldgPg 0) F.ldgCkcfgPriorMtbf 21600).setFld (ldgPg 0) F.ldgCkcfgPriorN 4).setFld (ldgPg 0) F.ldgCkcfgCostprior 90000).setFld (ldgPg 0) F.ldgCkobsTrun
    trun).setFld (ldgPg 0) F.ldgCkobsF f
theorem test_worked_interval : wholeOf ((ckpt 0 0).ckInt 0) = 1971801 ∧ wholeOf ((ckpt 108000 7).ckInt 0) = 1783561 ∧ wholeOf ((ckpt 108000 7).ckMtbf 0) = 17673 := by decide +kernel
/-- The status field of R376 before firmware starts: an error of CX035 on the host-link page (bit 15) and one of the boot page (bit 12), TAG 0x15. -/
def twoRaised : State := (((State.reset.setFld Pg.hlk F.comAtnEn 0xF).setErrBit Pg.hlk 0 35).setFld Pg.boot F.comAtnEn 0xF).setErrBit Pg.boot 0 0
theorem test_status_field : twoRaised.statusField 0x15 = 0x9315 ∧ Bits.get twoRaised.atnTop 63 56 = 35 := by decide +kernel

end Sys2Proof.Tests
end

section
/-! Register accesses of another size or alignment (R13): what the two shared operations of a register access answer when the check of
size and alignment refuses it, for the host's write and for the register operation of a request frame. -/

namespace Sys2Proof.Machine

/-- Before any question of the address or the page, a refused size or alignment ends an access with its status alone (R13). -/
theorem State.access_of_badSize (s : State) (src : Nat) {addr size : Nat} (f : Nat → State → State) (h : size ≠ 3 ∨ addr % 8 ≠ 0) :
    s.access src addr size f = s.withRegStatus St.regSize := by
  unfold State.access
  exact if_pos h

/-- The same refusal for a register operation of a request frame: its result is REG_SIZE with no data, at once, whatever page it names. -/
theorem State.regEffect_of_badSize (s : State) {o : RegOp} (h : o.size ≠ 3 ∨ o.addr.toNat % 8 ≠ 0) :
    s.regEffect o = some (o.res St.regSize 0, s) := by
  unfold State.regEffect
  exact if_pos h

theorem execRegWrite_of_powered (addr : BitVec 26) (size : BitVec 2) (data : W64) {s : State} (hp : s.plat.pwrOk = true) :
    execRegWrite addr size data s = .next (s.access s.hostDie addr.toNat size.toNat fun k s => s.writeReg k data) := by
  simp [execRegWrite, hp]

/-- Settles O7: both operations make the check of R13 first, and on a powered package REG_WRITE is one access of the host. -/
theorem registerSizes : Obligations.RegisterSizes := by
  unfold Obligations.RegisterSizes
  constructor
  · intro addr size data s hp h
    have hbad : size.toNat ≠ 3 ∨ addr.toNat % 8 ≠ 0 := h.imp_left fun hs ht => hs (BitVec.eq_of_toNat_eq ht)
    rw [exec_regWrite, execRegWrite_of_powered addr size data hp, State.access_of_badSize s s.hostDie _ hbad]
  · intro o s h
    exact s.regEffect_of_badSize h

end Sys2Proof.Machine
end

section
/-! The histogram of a stream (R173): the bin of a finite non-zero value as a function of floor(log2 |v|), and what an increment
does to the bins. -/

namespace Sys2Proof.Machine

/-- The exponent of R173: a significand whose leading bit is bit a, scaled by 2 ^ e, has floor(log2 |v|) = a + e, whatever the sign. -/
theorem log2_fin_eq_add (n : Bool) {m a : Nat} (e : Int) (hlo : 2 ^ a ≤ m) (hhi : m < 2 ^ (a + 1)) : (Fl.fin n m e).log2 = a + e := by
  have hm : m ≠ 0 := ((Nat.two_pow_pos a).trans_le hlo).ne'
  have hlog : m.log2 = a := (Nat.log2_eq_iff hm).mpr ⟨hlo, hhi⟩
  rw [Fl.log2, hlog]

/-- The rows of R173 for finite non-zero values, read off the exponent. -/
theorem histBin_fin_of_ne_zero (n : Bool) {m : Nat} (e : Int) (hm : m ≠ 0) :
    histBin (.fin n m e) =
      if (Fl.fin n m e).log2 ≤ -40 then 1 else if 21 ≤ (Fl.fin n m e).log2 then 62 else ((Fl.fin n m e).log2 + 41).toNat := by
  cases m with
  | zero => exact absurd rfl hm
  | succ m => rfl

/-- An increment raises its own bin and stays at the largest count (R173). -/
theorem State.bin_addBin_same (s : State) (d stream b k : Nat) :
    (s.addBin d stream b k).bin d stream b = min (2 ^ 64 - 1) (s.bin d stream b + k) := by
  simp only [State.addBin, State.bin, State.withBins_bins, KMap.get_set_same, satAdd]

/-- Bins under other keys are not touched by an increment. -/
theorem State.bin_addBin_other (s : State) {d stream b d' stream' b' : Nat} (k : Nat)
    (h : (d' * 256 + stream') * 64 + b' ≠ (d * 256 + stream) * 64 + b) : (s.addBin d stream b k).bin d' stream' b' = s.bin d' stream' b' := by
  simp only [State.addBin, State.bin, State.withBins_bins]
  exact KMap.get_set_other 0 0 s.bins _ h

/-- Two bins in range share a key only when die, stream and bin agree. -/
theorem binKey_injective {d stream b d' stream' b' : Nat} (hb : b < 64) (hb' : b' < 64) (hs : stream < 256) (hs' : stream' < 256)
    (h : (d' * 256 + stream') * 64 + b' = (d * 256 + stream) * 64 + b) : (d', stream', b') = (d, stream, b) := by
  simp only [Prod.mk.injEq]
  omega

/-- Settles O10: the finite rows follow from the exponent's value, and an increment changes the one key of its bin. -/
theorem histogramBins : Obligations.HistogramBins := by
  unfold Obligations.HistogramBins
  refine ⟨fun _ _ => rfl, fun _ => rfl, rfl, ?finite, ?increment⟩
  case finite =>
    intro n m a e hlo hhi
    have hm : m ≠ 0 := ((Nat.two_pow_pos a).trans_le hlo).ne'
    rw [histBin_fin_of_ne_zero n e hm, log2_fin_eq_add n e hlo hhi]
    refine ⟨fun hlow => if_pos hlow, fun hmid htop => ?_, fun hhigh => ?_⟩
    · rw [if_neg (by omega), if_neg (by omega)]
      omega
    · rw [if_neg (by omega), if_pos hhigh]
  case increment =>
    intro d st b k s
    refine ⟨s.bin_addBin_same d st b k, fun d' st' b' hb hb' hs hs' hne => ?_⟩
    exact s.bin_addBin_other k fun hkey => hne (binKey_injective hb hb' hs hs' hkey)

end Sys2Proof.Machine
end

section
/-! The heat of a stack (R200, R203): what a throttle and the fields of its page read back, the forms in which a readout sets the
level directly, and the level after lost readouts. -/

namespace Sys2Proof.Machine

/-- A throttle reads as what was set last. -/
@[simp] theorem State.throttle_setThrottle_same (s : State) (k : Nat) (t : Throttle) : (s.setThrottle k t).throttle k = t :=
  KMap.get_set_same _ _ _ _

/-- The throttles are no registers. -/
@[simp] theorem State.fld_setThrottle (s : State) (k p : Nat) (t : Throttle) (f : Fld) : (s.setThrottle k t).fld p f = s.fld p f := rfl

/-- A throttle is no part of the platform. -/
@[simp] theorem State.setThrottle_plat (s : State) (k : Nat) (t : Throttle) : (s.setThrottle k t).plat = s.plat := rfl

@[simp] theorem State.setFld_plat (s : State) (p v : Nat) (f : Fld) : (s.setFld p f v).plat = s.plat := rfl

/-- A field of another word of the same page is as it was. -/
theorem State.fld_setFld_of_off_ne (s : State) (p v : Nat) {f g : Fld} (h : g.off ≠ f.off) : (s.setFld p f v).fld p g = s.fld p g :=
  s.fld_setFld_other v (.inl fun e => h (Nat.add_left_cancel e))

/-- The level field of three bits holds every throttle level (R200). -/
theorem State.fld_setFld_mscTempLevel (s : State) (p : Nat) {lvl : Nat} (h : lvl ≤ 7) :
    (s.setFld p F.mscTempLevel lvl).fld p F.mscTempLevel = lvl := by
  rw [State.fld_setFld_same _ _ _ _ (by decide) (by decide)]
  exact Nat.mod_eq_of_lt (Nat.lt_succ_of_le h)

/-- A target is a throttle level (R200). -/
theorem heatTarget_le_seven (thr temp : W16) : heatTarget thr temp ≤ 7 := by
  unfold heatTarget
  split
  · exact Nat.zero_le 7
  · exact Nat.min_le_left _ _

/-- A recorded event leaves the platform, THERMTRIP_N with it, as it is. -/
theorem State.event_plat (s : State) (d code ctx unit d0 : Nat) (d1 : W64) : (s.event d code ctx unit d0 d1).plat = s.plat :=
  have kept : Keeps 33554800 s (s.event d code ctx unit d0 d1) := State.event_keeps (Sub.of rfl) (keeps_refl _ s)
  kept .plat rfl

/-- The registers of stack k after the temperature of a valid readout is written, before the level is looked at. -/
def State.storeReading (s : State) (k : Nat) (temp : W16) : State :=
  (s.setFld (Pg.msc k) F.mscTempTemp temp.toNat).setBitF (Pg.msc k) F.mscTempValid true

/-- The target after a readout is that of the temperature reported (R200). -/
theorem State.stackTarget_storeReading (s : State) (k : Nat) (temp : W16) :
    (s.storeReading k temp).stackTarget k = heatTarget (BitVec.ofNat 16 (s.fld (Pg.msc k) F.mscThrThresh)) temp := by
  have hthr : (s.storeReading k temp).fld (Pg.msc k) F.mscThrThresh = s.fld (Pg.msc k) F.mscThrThresh := by
    rw [State.storeReading, State.setBitF, State.fld_setFld_of_off_ne _ _ _ (by decide), State.fld_setFld_of_off_ne _ _ _ (by decide)]
  have htemp : (s.storeReading k temp).fld (Pg.msc k) F.mscTempTemp = temp.toNat := by
    rw [State.storeReading, State.fld_setBitF_other _ _ (.inr (by decide)), State.fld_setFld_same _ _ _ _ (by decide) (by decide)]
    exact Nat.mod_eq_of_lt temp.isLt
  rw [State.stackTarget, hthr, htemp, BitVec.ofNat_toNat, BitVec.setWidth_eq]

/-- The readouts below 110 °C that set the level directly to the target (R200, R201, R203): the first one, the first after lost
ones, and one whose target is above the level. -/
theorem exec_stackTempReport_of_sets_level (k : Fin 20) {temp : W16} {s : State} (hcool : temp.toInt < 1760)
    (hset : s.bitF (Pg.msc k) F.mscTempValid = false ∨ 5 ≤ (s.throttle k).missed ∨
      s.fld (Pg.msc k) F.mscTempLevel < heatTarget (BitVec.ofNat 16 (s.fld (Pg.msc k) F.mscThrThresh)) temp) :
    exec (.stackTempReport k temp) s = .next (((s.storeReading k temp).setFld (Pg.msc k) F.mscTempLevel
      (heatTarget (BitVec.ofNat 16 (s.fld (Pg.msc k) F.mscThrThresh)) temp)).setThrottle k ⟨false, 0⟩) := by
  rw [← s.stackTarget_storeReading k temp] at hset ⊢
  rw [exec_stackTempReport, execStackTempReport]
  rw [if_neg (Int.not_le.mpr hcool), ← State.storeReading, if_pos]
  simpa only [Bool.or_eq_true, Bool.not_eq_true', decide_eq_true_eq, or_assoc] using hset

/-- Outside a fall interval the level does not fall (R200). -/
theorem exec_throttleFallStep_of_not_falling (k : Fin 20) {s : State} (h : (s.throttle k).falling = false) :
    exec (.throttleFallStep k) s = .next s := by
  rw [exec_throttleFallStep, execThrottleFallStep, h]
  rfl

/-- Settles O15: no fall interval runs after five lost readouts, so only a report moves the level, and it moves it directly. -/
theorem lostReadouts : Obligations.LostReadouts := by
  unfold Obligations.LostReadouts
  intro k s
  refine ⟨_, rfl, ?level, exec_msTempLost k s, ?noTrip, ?noFall, ?report⟩
  case level => rw [State.fld_setThrottle, State.fld_setFld_mscTempLevel _ _ (Nat.le_refl 7)]
  case noTrip => rw [State.event_plat, State.setThrottle_plat, State.setFld_plat]
  case noFall => exact exec_throttleFallStep_of_not_falling k (by rw [State.throttle_setThrottle_same])
  case report =>
    intro temp u hmissed hcool
    refine ⟨_, exec_stackTempReport_of_sets_level k hcool (.inr (.inl hmissed.ge)), ?_, ?_⟩
    · rw [State.fld_setThrottle, State.fld_setFld_mscTempLevel _ _ (heatTarget_le_seven _ _)]
    · rw [State.throttle_setThrottle_same]

end Sys2Proof.Machine
end

section
/-! The flight table (R256): where the search for a context's entry of a sequence ends, what replacing or freeing one entry leaves of
the table, and from these one equation of fbeg and fend for each case. -/

namespace Sys2Proof.Machine

/-- The context holds no entry of the sequence in this part of the flight table. -/
def NotInFlight (ctx : Nat) (id : W32) (fs : List Flight) : Prop := ∀ f ∈ fs, ¬ (f.ctx = ctx ∧ f.seqid = id)

section
variable {s : State} {ctx : Nat} {id : W32} {l r : List Flight} {n : Nat}

theorem NotInFlight.not_mem (h : NotInFlight ctx id l) : (⟨ctx, id, n⟩ : Flight) ∉ l :=
  fun hm => h _ hm ⟨rfl, rfl⟩

theorem NotInFlight.find?_eq_none (h : NotInFlight ctx id l) : (l.find? fun f => decide (f.ctx = ctx ∧ f.seqid = id)) = none :=
  List.find?_eq_none.mpr fun f hf => mt of_decide_eq_true (h f hf)

theorem NotInFlight.find?_append_cons (h : NotInFlight ctx id (l ++ r)) :
    ((l ++ ⟨ctx, id, n⟩ :: r).find? fun f => decide (f.ctx = ctx ∧ f.seqid = id)) = some ⟨ctx, id, n⟩ := by
  have hl : NotInFlight ctx id l := fun f hf => h f (List.mem_append_left r hf)
  rw [List.find?_append, hl.find?_eq_none, Option.none_or]
  exact List.find?_cons_of_pos (decide_eq_true ⟨rfl, rfl⟩)

/-- Replacing the entries equal to one that is not in the list changes nothing. -/
theorem map_replace_of_not_mem {e : Flight} (g : Flight → Flight) (h : e ∉ l) : (l.map fun x => if x = e then g x else x) = l :=
  (List.map_congr_left fun _ hx => if_neg (ne_of_mem_of_not_mem hx h)).trans (List.map_id' l)

theorem NotInFlight.map_replace (h : NotInFlight ctx id (l ++ r)) (g : Flight → Flight) :
    ((l ++ ⟨ctx, id, n⟩ :: r).map fun x => if x = ⟨ctx, id, n⟩ then g x else x) = l ++ g ⟨ctx, id, n⟩ :: r := by
  obtain ⟨hl, hr⟩ := not_or.mp (mt List.mem_append.mpr (h.not_mem (n := n)))
  rw [List.map_append, List.map_cons, map_replace_of_not_mem g hl, map_replace_of_not_mem g hr, if_pos rfl]

theorem NotInFlight.filter_ne (h : NotInFlight ctx id (l ++ r)) :
    ((l ++ ⟨ctx, id, n⟩ :: r).filter fun x => decide (x ≠ ⟨ctx, id, n⟩)) = l ++ r := by
  have hkeep : ((l ++ r).filter fun x => decide (x ≠ ⟨ctx, id, n⟩)) = l ++ r :=
    List.filter_eq_self.mpr fun _ hx => decide_eq_true (ne_of_mem_of_not_mem hx h.not_mem)
  rw [List.filter_append, List.filter_cons_of_neg (by simp), ← List.filter_append, hkeep]

/-- fbeg on an entry the context holds counts up, unless the 16-bit COUNT is at its end (R256). -/
theorem State.fbeg_of_held (hs : s.stg.flight = l ++ ⟨ctx, id, n⟩ :: r) (h : NotInFlight ctx id (l ++ r)) :
    s.fbeg ctx id = if n = 65535 then (St.protocolErr, s) else (St.ok, s.setFlight (l ++ ⟨ctx, id, n + 1⟩ :: r)) := by
  simp only [State.fbeg, hs, h.find?_append_cons, h.map_replace]

/-- fbeg without an entry allocates one, unless the table or the partition's share of it is full (R256). -/
theorem State.fbeg_of_not_held (h : NotInFlight ctx id s.stg.flight) :
    s.fbeg ctx id =
      if 96 ≤ s.stg.flight.length ∨ s.fld (Pg.stg + 8 * s.partOf ctx) F.stgFcapCap ≤
          s.stg.flight.countP (fun f => decide (s.partOf f.ctx = s.partOf ctx)) then (St.flightFull, s)
      else (St.ok, s.setFlight (s.stg.flight ++ [⟨ctx, id, 1⟩])) := by
  simp only [State.fbeg, h.find?_eq_none]

/-- fend on an entry the context holds counts down and frees the entry at zero (R256). -/
theorem State.fend_of_held (hs : s.stg.flight = l ++ ⟨ctx, id, n⟩ :: r) (h : NotInFlight ctx id (l ++ r)) :
    s.fend ctx id = (St.ok, s.setFlight (if n ≤ 1 then l ++ r else l ++ ⟨ctx, id, n - 1⟩ :: r)) := by
  simp only [State.fend, hs, h.find?_append_cons, h.map_replace, h.filter_ne]

theorem State.fend_of_not_held (h : NotInFlight ctx id s.stg.flight) : s.fend ctx id = (St.refUnderflow, s) := by
  simp only [State.fend, h.find?_eq_none]

end

/-- Settles O12: the search finds the one entry of the context and sequence or none, and each clause is one branch of the equation
for that case. -/
theorem flightTable : Obligations.FlightTable := by
  unfold Obligations.FlightTable
  intro ctx id s
  constructor
  case left =>
    intro l r n hs h
    rw [State.fbeg_of_held hs h, State.fend_of_held hs h]
    refine ⟨fun hn => ?_, fun hn => if_pos hn, fun hn => ?_, fun hn => ?_⟩
    · rw [if_neg hn]
      exact ⟨rfl, rfl⟩
    · rw [if_neg (Nat.not_le.mpr hn)]
      exact ⟨rfl, rfl⟩
    · rw [if_pos hn.le]
      exact ⟨rfl, rfl⟩
  case right =>
    intro h
    rw [State.fbeg_of_not_held h]
    refine ⟨State.fend_of_not_held h, fun hroom hshare => if_neg ?_, fun hfull => if_pos hfull⟩
    exact not_or.mpr ⟨Nat.not_le.mpr hroom, Nat.not_le.mpr hshare⟩

end Sys2Proof.Machine
end

section
/-! Checkpoint cost (R441): C as a mean of the history or the prior, what leaves it unchanged, what showing it writes, and from these
one equation of the commands of CKMARK for each case. -/

namespace Sys2Proof.Machine

/-! ## Registers and the ledger -/

@[simp] theorem State.setFld_ldg (s : State) (p v : Nat) (f : Fld) : (s.setFld p f v).ldg = s.ldg := State.setReg_ldg _ _ _

@[simp] theorem State.setErr_ldg (s : State) (p ctx : Nat) (f : Fld) : (s.setErr p f ctx).ldg = s.ldg := by
  simp only [State.setErr, State.setErrBit]
  split
  · exact State.setFld_ldg _ _ _ _
  · rfl

theorem State.badSeq_ldg_page (s : State) : s.badSeq Pg.ldg = s.setErr Pg.ldg F.ldgErrStatBadSeq 0 := rfl

/-- The shown cost C has 32 bits. -/
theorem State.fld_setFld_ckcostC (s : State) (p v : Nat) : (s.setFld p F.ldgCkcostC v).fld p F.ldgCkcostC = v % 2 ^ 32 :=
  s.fld_setFld_same p F.ldgCkcostC v (by decide) (by decide)

/-! ## The cost C (R441) -/

section
variable {s : State} {ctx : Nat} {l : List Nat}

/-- C while the history is empty. -/
theorem State.ckCost_of_no_costs (h : KMap.get [] s.ldg.costs ctx = []) : s.ckCost ctx = s.fld (ldgPg ctx) F.ldgCkcfgCostprior := by
  simp only [State.ckCost, h, List.isEmpty_nil, if_true]

/-- C of a history: its mean, halves rounded up (log 71). -/
theorem State.ckCost_of_costs (h : KMap.get [] s.ldg.costs ctx = l) (hne : l ≠ []) :
    s.ckCost ctx = (2 * l.sum + l.length) / (2 * l.length) := by
  simp only [State.ckCost, h, List.isEmpty_iff, hne, if_false, List.sum_eq_foldl]

end

/-- A mean rounded to a whole number is within a half of the quotient, halves up. -/
theorem roundedMean_bounds (total : Nat) {n : Nat} (h : 0 < n) :
    2 * n * ((2 * total + n) / (2 * n)) ≤ 2 * total + n ∧ 2 * total + n < 2 * n * ((2 * total + n) / (2 * n) + 1) :=
  ⟨Nat.mul_div_le _ _, Nat.lt_mul_div_succ _ (Nat.mul_pos two_pos h)⟩

/-- C depends on the histories and on the word of CKCFG: a field of another word of the page leaves it. -/
theorem State.ckCost_setFld_of_off_ne (s : State) (ctx v : Nat) {f : Fld} (h : F.ldgCkcfgCostprior.off ≠ f.off) :
    (s.setFld (ldgPg ctx) f v).ckCost ctx = s.ckCost ctx := by
  simp only [State.ckCost, State.setFld_ldg, State.fld_setFld_of_off_ne _ _ _ h]

/-! ## Showing the cost -/

@[simp] theorem State.ckShow_ldg (s : State) (ctx : Nat) : (s.ckShow ctx).ldg = s.ldg := by
  simp only [State.ckShow, State.setFld_ldg]

/-- CKINT and CKCOST, where the results are shown, are not what C is computed from. -/
theorem State.ckCost_ckShow (s : State) (ctx : Nat) : (s.ckShow ctx).ckCost ctx = s.ckCost ctx := by
  simp only [State.ckShow]
  iterate 4 rw [State.ckCost_setFld_of_off_ne _ _ _ (by decide)]

theorem State.fld_ckShow_ckcostC (s : State) (ctx : Nat) :
    (s.ckShow ctx).fld (ldgPg ctx) F.ldgCkcostC = (s.ckShow ctx).ckCost ctx % 2 ^ 32 := by
  rw [State.ckCost_ckShow]
  exact State.fld_setFld_ckcostC _ _ _

/-! ## The commands of CKMARK -/

/-- A start is stamped, in place of one still open (R441). -/
def State.stampStart (s : State) (ctx ms : Nat) : State := s.withLdg { s.ldg with start := KMap.set none s.ldg.start ctx (some ms) }

/-- The open start is closed and its cost enters the history of the eight most recent ones (R441). -/
def State.enterCost (s : State) (ctx cost : Nat) : State :=
  s.withLdg { s.ldg with
    start := KMap.set none s.ldg.start ctx none
    costs := KMap.set [] s.ldg.costs ctx ((cost :: KMap.get [] s.ldg.costs ctx).take 8) }

/-- The history is emptied (R441). -/
def State.emptyCosts (s : State) (ctx : Nat) : State := s.withLdg { s.ldg with costs := KMap.set [] s.ldg.costs ctx [] }

theorem State.start_stampStart (s : State) (ctx ms : Nat) : KMap.get none (s.stampStart ctx ms).ldg.start ctx = some ms := by
  simp only [State.stampStart, State.withLdg_ldg, KMap.get_set_same]

theorem State.costs_stampStart (s : State) (ctx ms : Nat) : (s.stampStart ctx ms).ldg.costs = s.ldg.costs := rfl

theorem State.start_enterCost (s : State) (ctx cost : Nat) : KMap.get none (s.enterCost ctx cost).ldg.start ctx = none := by
  simp only [State.enterCost, State.withLdg_ldg, KMap.get_set_same]

theorem State.costs_enterCost (s : State) (ctx cost : Nat) :
    KMap.get [] (s.enterCost ctx cost).ldg.costs ctx = (cost :: KMap.get [] s.ldg.costs ctx).take 8 := by
  simp only [State.enterCost, State.withLdg_ldg, KMap.get_set_same]

theorem State.costs_emptyCosts (s : State) (ctx : Nat) : KMap.get [] (s.emptyCosts ctx).ldg.costs ctx = [] := by
  simp only [State.emptyCosts, State.withLdg_ldg, KMap.get_set_same]

theorem exec_ckmarkStart_eq (s : State) : exec .ckmarkStart s = .next (s.stampStart s.lsel (s.now s.hub / 10 ^ 6)) := rfl

theorem exec_ckmarkEmpty_eq (s : State) :
    exec .ckmarkEmpty s = .next (((s.emptyCosts s.lsel).setFld (ldgPg s.lsel) F.ldgCkcostN 0).setFld (ldgPg s.lsel) F.ldgCkcostC
      ((s.emptyCosts s.lsel).ckCost s.lsel)) := rfl

theorem exec_ckmarkEnd_of_open {s : State} {t0 : Nat} (h : KMap.get none s.ldg.start s.lsel = some t0) :
    exec .ckmarkEnd s = .next ((s.enterCost s.lsel (s.now s.hub / 10 ^ 6 - t0)).ckShow s.lsel) := by
  simp only [exec_ckmarkEnd, execCkmarkEnd, h, State.enterCost]

theorem exec_ckmarkEnd_of_no_start {s : State} (h : KMap.get none s.ldg.start s.lsel = none) :
    exec .ckmarkEnd s = .next (s.setErr Pg.ldg F.ldgErrStatBadSeq 0) := by
  simp only [exec_ckmarkEnd, execCkmarkEnd, h, State.badSeq_ldg_page]

/-- Settles O13: each command leaves the history and the start it is to leave, C is read from the history left, and a rounded mean is
within a half of the quotient. -/
theorem checkpointCost : Obligations.CheckpointCost := by
  unfold Obligations.CheckpointCost
  refine ⟨fun s => ?start, fun s t0 hopen => ?close, fun s => ?empty, fun s hnone => ?noStart,
    fun s ctx => State.ckCost_of_no_costs, fun s ctx l hl hne => ?mean⟩
  case start => exact ⟨_, exec_ckmarkStart_eq s, State.start_stampStart _ _ _, State.costs_stampStart _ _ _⟩
  case close =>
    refine ⟨_, exec_ckmarkEnd_of_open hopen, ?_, ?_, State.fld_ckShow_ckcostC _ _⟩
    · rw [State.ckShow_ldg, State.start_enterCost]
    · rw [State.ckShow_ldg, State.costs_enterCost]
  case empty =>
    refine ⟨_, exec_ckmarkEmpty_eq s, ?_, ?_, ?_⟩
    · rw [State.setFld_ldg, State.setFld_ldg, State.costs_emptyCosts]
    · rw [State.fld_setFld_other _ _ (.inr (.inr (by decide))), State.fld_setFld_same _ _ _ _ (by decide) (by decide)]
      rfl
    · rw [State.fld_setFld_ckcostC]
      iterate 2 rw [State.ckCost_setFld_of_off_ne _ _ _ (by decide)]
  case noStart =>
    exact ⟨_, exec_ckmarkEnd_of_no_start hnone, State.bitF_setErr_same _ _ _ _ rfl (by decide), State.setErr_ldg _ _ _ _⟩
  case mean =>
    rw [State.ckCost_of_costs hl hne]
    exact roundedMean_bounds l.sum (List.length_pos_of_ne_nil hne)

end Sys2Proof.Machine
end

section
/-! One step (chapter 95 of the specification): every command answers, what it leaves alone, and the invariant that every step keeps. Each of the
three facts is one case analysis over the commands; the rest follows from it. -/

namespace Sys2Proof.Machine

/-! ## Every command answers -/

/-- A meaning that answers a next state. -/
def Answers (o : Host.Outcome State Fault Refusal) : Prop := ∃ t, o = .next t

theorem answers_next (t : State) : Answers (.next t) := ⟨t, rfl⟩

theorem answers_ite {p : Prop} [Decidable p] {a b : Host.Outcome State Fault Refusal} (ha : Answers a) (hb : Answers b) :
    Answers (if p then a else b) := by
  split
  · exact ha
  · exact hb

/-- The commands in three groups: those that answer straight away, those that make tests one after the other, and those that look
something up first. -/
theorem exec_answers (c : Instr) (s : State) : Answers (exec c s) := by
  cases c with
  | islStretchRead | issueCapWindow | strikeWindowExpire | mxeFence | mxeSelftest | mxeSelftestDone | mxeReadmit | mxeChkRead | mxePerfRead | vxeFence
    | vxeSelftest | vxeSelftestDone | vxeReadmit | vxePerfRead | ringRecordRelease | gather | scatter | hstSnapshot | hstSnapshotClear | hstLoad |
    hstOwnWrite | ctrClear | ctrEvtRead | mapRgnValidate | mapRgnClose | mapQuiesceDone | tollRefill | tollHeldRead | stackTempReport | msTempLost |
    lpTempReport | scrubPass | mscFenceWrite | lpcFenceWrite | mscEccRead | uld | ust | uadd | usub | umul | udiv | ufma | usqrt | umax | umin | uabs
    | uneg | usgn | ucvt | uwadd | uuFence | uuSelftest | uuSelftestDone | uuReadmit | uuPerfRead | updPerfRead | slTaintRecv | vcmdActivate |
    vcmdRetire | stgTclr | ldfe | ldfn | stef | finc | fdec | fini | synLose | claimMarkDone | barDisarm | barStatRead | ropPut | ropGet | ropGet3 |
    ropAtomic | ropSignal | rwinDenyRead | rteTimersWrite | rteCounterRead | discPeerTimeout | dscExpWrite | dscIdWrite | collOpen | collClose |
    allreduce | reduceScatter | allgather | broadcast | permute | alltoall | crrFence | crrSelftest | crrSelftestDone | crrReadmit | crrCntRead |
    hlFrameGapTimeout | hlkCntRead | resetCluster | resetDieFunction | resetWarm | resetCold | dieFence | rcvJobidWrite | rcvWdlimWrite |
    rcvAbstatRead | evlLostRead | ldgGeomWrite | ckmarkStart | ckmarkEmpty | ldgCkWrite | ckRecompute | sstRselWrite | sstRdataRead | pwrCaplogRead |
    drpCntRead | bootLoadBegin | bootLoaddata | fuseRaiseSvn | fuseRevoke | secRselWrite | secRdataRead | tstTokenWrite | jtagTapReset | extest |
    samplePreload | idcode | clamp | highz | extestPulse | extestTrain | tsttoken | bypass => exact answers_next _
  | regWrite | powerUp | powerLoss | coldReset | bridgeFlitReplay | bridgeDown | refclkLost | refclkReturn | tissue | tpair | cissue | smovS | smovG |
    bs | intAlu | compareBranch | jumpAndLink | fpOp | cluCtxWrite | coreRun | coreStop | hstOpDone | hsnapWrite | ctrAdd | tollBktWrite |
    throttleFallStep | qpush | qpop | vacq | fbeg | fend | taint | slOpenRecv | slAcceptRecv | slRefuseRecv | slDescRecv | slConsumedSend |
    slCreditRecv | slResend | slqIncfgWrite | slqOutcfgWrite | fsig | barr | bwait | fclaim | barrive | barArm | linkTrainDone | linkTrainFail |
    linkFecUncorr | rsreqRecv | markRecv | rsackRecv | crdRecv | crdSend | linkFlitGapTimeout | linkResyncTimeout | pktRecv | lnkVcallocWrite |
    lnkFence | lnkReadmit | lnkRetrain | lnkAdmit | lnkPark | lnkEnWrite | lnkCounterRead | rteLoad | rteFlip | rteCfgWrite | helloRecv | locRecv |
    probeRecv | helloSend | discElect | dscFabricWrite | collChunkSend | hostFrameRecv | hostReplyFrame | complRecordSend | hlTrainDone |
    hlRetrainTick | hlkSwap | hlkRetrain | hlkFence | wmarkWrite | watchdogExpire | rcvAbort | abortWedgeCheck | relayRecv | rcvOosack | lseal |
    gstepWrite | sstBankErase | sstCompact | pwrTick | bmBmlimWrite | droopWarnEnd | droopReset | bmShutdown | bmShutdownDone | bootLoadEnd |
    idtreeDone | attestGo | attestDone | testDone | tstacc | hlTrainFail | phaseReady =>
    repeat refine answers_ite (answers_next _) ?_
    exact answers_next _
  | stgStageWrite => exact answers_ite (answers_ite (answers_next _) (answers_next _)) (answers_ite (answers_next _) (answers_next _))
  | sqCfgWrite =>
    exact answers_ite (answers_ite (answers_next _) (answers_ite (answers_next _) (answers_next _))) (answers_ite (answers_next _) (answers_next _))
  | tjcapStep =>
    refine answers_ite (answers_next _) (answers_ite ?hot ?cool)
    all_goals exact answers_ite (answers_next _) (answers_ite (answers_next _) (answers_next _))
  | thermtrip | tileExecute | tileCheckDone | tileRerun | tileDrainStart | tileDrainEnd | chainStart | chainEntryClaim | chainComplete | cpop | cpeek
    | gatherComplete | load | store | systemOp =>
    dsimp only [exec_thermtrip, execThermtrip, exec_tileExecute, execTileExecute, exec_tileCheckDone, execTileCheckDone, exec_tileRerun,
      execTileRerun, exec_tileDrainStart, execTileDrainStart, exec_tileDrainEnd, execTileDrainEnd, exec_chainStart, execChainStart,
      exec_chainEntryClaim, execChainEntryClaim, exec_chainComplete, execChainComplete, exec_cpop, execCpop, exec_cpeek, execCpeek,
      exec_gatherComplete, execGatherComplete, exec_load, execLoad, exec_store, execStore, exec_systemOp, execSystemOp]
    repeat' split
    all_goals exact answers_next _
  | updateStart | uuChunkRun | journalMirrorAck | uuSegmentPass | updateCommit | ukset | uloop | uend | qdone | vrel | slCopyDone | slAckRecv | swait
    | frel | syncTimeout =>
    dsimp only [exec_updateStart, execUpdateStart, exec_uuChunkRun, execUuChunkRun, exec_journalMirrorAck, execJournalMirrorAck,
      exec_uuSegmentPass, execUuSegmentPass, exec_updateCommit, execUpdateCommit, exec_ukset, execUkset, exec_uloop, execUloop, exec_uend,
      execUend, exec_qdone, execQdone, exec_vrel, execVrel, exec_slCopyDone, execSlCopyDone, exec_slAckRecv, execSlAckRecv, exec_swait, execSwait,
      exec_frel, execFrel, exec_syncTimeout, execSyncTimeout]
    repeat' split
    all_goals exact answers_next _
  | porterTransferDone | putRecv | getRecv | get3Recv | data3Recv | atomicRecv | signalRecv | replyRecv | remoteTimeout | pktForward | pktStaleDiscard
    | rteLoadDone | jobAdmission | collStart | chunkRecv =>
    dsimp only [exec_porterTransferDone, execPorterTransferDone, exec_putRecv, execPutRecv, exec_getRecv, execGetRecv, exec_get3Recv,
      execGet3Recv, exec_data3Recv, execData3Recv, exec_atomicRecv, execAtomicRecv, exec_signalRecv, execSignalRecv, exec_replyRecv,
      execReplyRecv, exec_remoteTimeout, execRemoteTimeout, exec_pktForward, execPktForward, exec_pktStaleDiscard, execPktStaleDiscard,
      exec_rteLoadDone, execRteLoadDone, exec_jobAdmission, execJobAdmission, exec_collStart, execCollStart, exec_chunkRecv, execChunkRecv]
    repeat' split
    all_goals exact answers_next _
  | collCreditRecv | collComplete | submitEcho | regDeferredResult | regOpTimeout | nop | qwait | hostCmdBadOpcode | errInject | evtSelWrite |
    evtSelRead | hangTrialDone | taintBackstop | contextAbort | abortComplete =>
    dsimp only [exec_collCreditRecv, execCollCreditRecv, exec_collComplete, execCollComplete, exec_submitEcho, execSubmitEcho,
      exec_regDeferredResult, execRegDeferredResult, exec_regOpTimeout, execRegOpTimeout, exec_nop, execNop, exec_qwait, execQwait,
      exec_hostCmdBadOpcode, execHostCmdBadOpcode, exec_errInject, execErrInject, exec_evtSelWrite, execEvtSelWrite, exec_evtSelRead,
      execEvtSelRead, exec_hangTrialDone, execHangTrialDone, exec_taintBackstop, execTaintBackstop, exec_contextAbort, execContextAbort,
      exec_abortComplete, execAbortComplete]
    repeat' split
    all_goals exact answers_next _
  | abortRelayResend | resetEngine | resetDone | resetFail | recoveryDone | dumpRead | sealDone | ckmarkEnd | sstRecordWrite | droopWarnAssert |
    imageVerifyDone | fuseBurnDone | testEnter | vcmdDone | downWindowExpire =>
    dsimp only [exec_abortRelayResend, execAbortRelayResend, exec_resetEngine, execResetEngine, exec_resetDone, execResetDone, exec_resetFail,
      execResetFail, exec_recoveryDone, execRecoveryDone, exec_dumpRead, execDumpRead, exec_sealDone, execSealDone, exec_ckmarkEnd, execCkmarkEnd,
      exec_sstRecordWrite, execSstRecordWrite, exec_droopWarnAssert, execDroopWarnAssert, exec_imageVerifyDone, execImageVerifyDone,
      exec_fuseBurnDone, execFuseBurnDone, exec_testEnter, execTestEnter, exec_vcmdDone, execVcmdDone, exec_downWindowExpire,
      execDownWindowExpire]
    repeat' split
    all_goals exact answers_next _

/-- Settles O2: no branch of a meaning faults or refuses. -/
theorem everyCommandCompletes : Obligations.EveryCommandCompletes := exec_answers

/-! ## What every command keeps -/

/-- Every meaning keeps the queue and, where they hold before, the canonical forms and the reset held by a test port. -/
theorem exec_good (c : Instr) {pq : List Instr × Prop} {s : State} (h : Good pq s) : GoodOut pq (exec c s) := by
  cases c with
  | regWrite => rw [exec_regWrite]; exact execRegWrite_good h
  | powerUp => rw [exec_powerUp]; exact execPowerUp_good h
  | powerLoss => rw [exec_powerLoss]; exact execPowerLoss_good h
  | coldReset => rw [exec_coldReset]; exact execColdReset_good h
  | bridgeFlitReplay => rw [exec_bridgeFlitReplay]; exact execBridgeFlitReplay_good h
  | bridgeDown => rw [exec_bridgeDown]; exact execBridgeDown_good h
  | refclkLost => rw [exec_refclkLost]; exact execRefclkLost_good h
  | refclkReturn => rw [exec_refclkReturn]; exact execRefclkReturn_good h
  | thermtrip => rw [exec_thermtrip]; exact execThermtrip_good h
  | islStretchRead => rw [exec_islStretchRead]; exact execIslStretchRead_good h
  | tissue => rw [exec_tissue]; exact execTissue_good h
  | tpair => rw [exec_tpair]; exact execTpair_good h
  | tileExecute => rw [exec_tileExecute]; exact execTileExecute_good h
  | tileCheckDone => rw [exec_tileCheckDone]; exact execTileCheckDone_good h
  | tileRerun => rw [exec_tileRerun]; exact execTileRerun_good h
  | tileDrainStart => rw [exec_tileDrainStart]; exact execTileDrainStart_good h
  | tileDrainEnd => rw [exec_tileDrainEnd]; exact execTileDrainEnd_good h
  | issueCapWindow => rw [exec_issueCapWindow]; exact execIssueCapWindow_good h
  | strikeWindowExpire => rw [exec_strikeWindowExpire]; exact execStrikeWindowExpire_good h
  | mxeFence => rw [exec_mxeFence]; exact execMxeFence_good h
  | mxeSelftest => rw [exec_mxeSelftest]; exact execMxeSelftest_good h
  | mxeSelftestDone => rw [exec_mxeSelftestDone]; exact execMxeSelftestDone_good h
  | mxeReadmit => rw [exec_mxeReadmit]; exact execMxeReadmit_good h
  | mxeChkRead => rw [exec_mxeChkRead]; exact execMxeChkRead_good h
  | mxePerfRead => rw [exec_mxePerfRead]; exact execMxePerfRead_good h
  | cissue => rw [exec_cissue]; exact execCissue_good h
  | chainStart => rw [exec_chainStart]; exact execChainStart_good h
  | chainEntryClaim => rw [exec_chainEntryClaim]; exact execChainEntryClaim_good h
  | chainComplete => rw [exec_chainComplete]; exact execChainComplete_good h
  | vxeFence => rw [exec_vxeFence]; exact execVxeFence_good h
  | vxeSelftest => rw [exec_vxeSelftest]; exact execVxeSelftest_good h
  | vxeSelftestDone => rw [exec_vxeSelftestDone]; exact execVxeSelftestDone_good h
  | vxeReadmit => rw [exec_vxeReadmit]; exact execVxeReadmit_good h
  | vxePerfRead => rw [exec_vxePerfRead]; exact execVxePerfRead_good h
  | cpop => rw [exec_cpop]; exact execCpop_good h
  | cpeek => rw [exec_cpeek]; exact execCpeek_good h
  | smovS => rw [exec_smovS]; exact execSmovS_good h
  | smovG => rw [exec_smovG]; exact execSmovG_good h
  | bs => rw [exec_bs]; exact execBs_good h
  | ringRecordRelease => rw [exec_ringRecordRelease]; exact execRingRecordRelease_good h
  | gather => rw [exec_gather]; exact execGather_good h
  | scatter => rw [exec_scatter]; exact execScatter_good h
  | gatherComplete => rw [exec_gatherComplete]; exact execGatherComplete_good h
  | intAlu => rw [exec_intAlu]; exact execIntAlu_good h
  | load => rw [exec_load]; exact execLoad_good h
  | store => rw [exec_store]; exact execStore_good h
  | compareBranch => rw [exec_compareBranch]; exact execCompareBranch_good h
  | jumpAndLink => rw [exec_jumpAndLink]; exact execJumpAndLink_good h
  | fpOp => rw [exec_fpOp]; exact execFpOp_good h
  | systemOp => rw [exec_systemOp]; exact execSystemOp_good h
  | cluCtxWrite => rw [exec_cluCtxWrite]; exact execCluCtxWrite_good h
  | coreRun => rw [exec_coreRun]; exact execCoreRun_good h
  | coreStop => rw [exec_coreStop]; exact execCoreStop_good h
  | hstSnapshot => rw [exec_hstSnapshot]; exact execHstSnapshot_good h
  | hstSnapshotClear => rw [exec_hstSnapshotClear]; exact execHstSnapshotClear_good h
  | hstLoad => rw [exec_hstLoad]; exact execHstLoad_good h
  | hstOpDone => rw [exec_hstOpDone]; exact execHstOpDone_good h
  | hsnapWrite => rw [exec_hsnapWrite]; exact execHsnapWrite_good h
  | hstOwnWrite => rw [exec_hstOwnWrite]; exact execHstOwnWrite_good h
  | ctrClear => rw [exec_ctrClear]; exact execCtrClear_good h
  | ctrAdd => rw [exec_ctrAdd]; exact execCtrAdd_good h
  | ctrEvtRead => rw [exec_ctrEvtRead]; exact execCtrEvtRead_good h
  | mapRgnValidate => rw [exec_mapRgnValidate]; exact execMapRgnValidate_good h
  | mapRgnClose => rw [exec_mapRgnClose]; exact execMapRgnClose_good h
  | mapQuiesceDone => rw [exec_mapQuiesceDone]; exact execMapQuiesceDone_good h
  | tollRefill => rw [exec_tollRefill]; exact execTollRefill_good h
  | tollBktWrite => rw [exec_tollBktWrite]; exact execTollBktWrite_good h
  | tollHeldRead => rw [exec_tollHeldRead]; exact execTollHeldRead_good h
  | stackTempReport => rw [exec_stackTempReport]; exact execStackTempReport_good h
  | throttleFallStep => rw [exec_throttleFallStep]; exact execThrottleFallStep_good h
  | msTempLost => rw [exec_msTempLost]; exact execMsTempLost_good h
  | lpTempReport => rw [exec_lpTempReport]; exact execLpTempReport_good h
  | scrubPass => rw [exec_scrubPass]; exact execScrubPass_good h
  | mscFenceWrite => rw [exec_mscFenceWrite]; exact execMscFenceWrite_good h
  | lpcFenceWrite => rw [exec_lpcFenceWrite]; exact execLpcFenceWrite_good h
  | mscEccRead => rw [exec_mscEccRead]; exact execMscEccRead_good h
  | updateStart => rw [exec_updateStart]; exact execUpdateStart_good h
  | uuChunkRun => rw [exec_uuChunkRun]; exact execUuChunkRun_good h
  | journalMirrorAck => rw [exec_journalMirrorAck]; exact execJournalMirrorAck_good h
  | uuSegmentPass => rw [exec_uuSegmentPass]; exact execUuSegmentPass_good h
  | updateCommit => rw [exec_updateCommit]; exact execUpdateCommit_good h
  | uld => rw [exec_uld]; exact execUld_good h
  | ust => rw [exec_ust]; exact execUst_good h
  | ukset => rw [exec_ukset]; exact execUkset_good h
  | uadd => rw [exec_uadd]; exact execUadd_good h
  | usub => rw [exec_usub]; exact execUsub_good h
  | umul => rw [exec_umul]; exact execUmul_good h
  | udiv => rw [exec_udiv]; exact execUdiv_good h
  | ufma => rw [exec_ufma]; exact execUfma_good h
  | usqrt => rw [exec_usqrt]; exact execUsqrt_good h
  | umax => rw [exec_umax]; exact execUmax_good h
  | umin => rw [exec_umin]; exact execUmin_good h
  | uabs => rw [exec_uabs]; exact execUabs_good h
  | uneg => rw [exec_uneg]; exact execUneg_good h
  | usgn => rw [exec_usgn]; exact execUsgn_good h
  | ucvt => rw [exec_ucvt]; exact execUcvt_good h
  | uwadd => rw [exec_uwadd]; exact execUwadd_good h
  | uloop => rw [exec_uloop]; exact execUloop_good h
  | uend => rw [exec_uend]; exact execUend_good h
  | uuFence => rw [exec_uuFence]; exact execUuFence_good h
  | uuSelftest => rw [exec_uuSelftest]; exact execUuSelftest_good h
  | uuSelftestDone => rw [exec_uuSelftestDone]; exact execUuSelftestDone_good h
  | uuReadmit => rw [exec_uuReadmit]; exact execUuReadmit_good h
  | uuPerfRead => rw [exec_uuPerfRead]; exact execUuPerfRead_good h
  | updPerfRead => rw [exec_updPerfRead]; exact execUpdPerfRead_good h
  | qpush => rw [exec_qpush]; exact execQpush_good h
  | qpop => rw [exec_qpop]; exact execQpop_good h
  | qdone => rw [exec_qdone]; exact execQdone_good h
  | vacq => rw [exec_vacq]; exact execVacq_good h
  | vrel => rw [exec_vrel]; exact execVrel_good h
  | fbeg => rw [exec_fbeg]; exact execFbeg_good h
  | fend => rw [exec_fend]; exact execFend_good h
  | taint => rw [exec_taint]; exact execTaint_good h
  | slCopyDone => rw [exec_slCopyDone]; exact execSlCopyDone_good h
  | slOpenRecv => rw [exec_slOpenRecv]; exact execSlOpenRecv_good h
  | slAcceptRecv => rw [exec_slAcceptRecv]; exact execSlAcceptRecv_good h
  | slRefuseRecv => rw [exec_slRefuseRecv]; exact execSlRefuseRecv_good h
  | slDescRecv => rw [exec_slDescRecv]; exact execSlDescRecv_good h
  | slAckRecv => rw [exec_slAckRecv]; exact execSlAckRecv_good h
  | slConsumedSend => rw [exec_slConsumedSend]; exact execSlConsumedSend_good h
  | slCreditRecv => rw [exec_slCreditRecv]; exact execSlCreditRecv_good h
  | slResend => rw [exec_slResend]; exact execSlResend_good h
  | slTaintRecv => rw [exec_slTaintRecv]; exact execSlTaintRecv_good h
  | slqIncfgWrite => rw [exec_slqIncfgWrite]; exact execSlqIncfgWrite_good h
  | slqOutcfgWrite => rw [exec_slqOutcfgWrite]; exact execSlqOutcfgWrite_good h
  | stgStageWrite => rw [exec_stgStageWrite]; exact execStgStageWrite_good h
  | vcmdActivate => rw [exec_vcmdActivate]; exact execVcmdActivate_good h
  | vcmdRetire => rw [exec_vcmdRetire]; exact execVcmdRetire_good h
  | stgTclr => rw [exec_stgTclr]; exact execStgTclr_good h
  | ldfe => rw [exec_ldfe]; exact execLdfe_good h
  | ldfn => rw [exec_ldfn]; exact execLdfn_good h
  | stef => rw [exec_stef]; exact execStef_good h
  | finc => rw [exec_finc]; exact execFinc_good h
  | fdec => rw [exec_fdec]; exact execFdec_good h
  | fini => rw [exec_fini]; exact execFini_good h
  | fsig => rw [exec_fsig]; exact execFsig_good h
  | swait => rw [exec_swait]; exact execSwait_good h
  | barr => rw [exec_barr]; exact execBarr_good h
  | bwait => rw [exec_bwait]; exact execBwait_good h
  | fclaim => rw [exec_fclaim]; exact execFclaim_good h
  | frel => rw [exec_frel]; exact execFrel_good h
  | barrive => rw [exec_barrive]; exact execBarrive_good h
  | syncTimeout => rw [exec_syncTimeout]; exact execSyncTimeout_good h
  | synLose => rw [exec_synLose]; exact execSynLose_good h
  | claimMarkDone => rw [exec_claimMarkDone]; exact execClaimMarkDone_good h
  | barArm => rw [exec_barArm]; exact execBarArm_good h
  | barDisarm => rw [exec_barDisarm]; exact execBarDisarm_good h
  | barStatRead => rw [exec_barStatRead]; exact execBarStatRead_good h
  | porterTransferDone => rw [exec_porterTransferDone]; exact execPorterTransferDone_good h
  | ropPut => rw [exec_ropPut]; exact execRopPut_good h
  | ropGet => rw [exec_ropGet]; exact execRopGet_good h
  | ropGet3 => rw [exec_ropGet3]; exact execRopGet3_good h
  | ropAtomic => rw [exec_ropAtomic]; exact execRopAtomic_good h
  | ropSignal => rw [exec_ropSignal]; exact execRopSignal_good h
  | putRecv => rw [exec_putRecv]; exact execPutRecv_good h
  | getRecv => rw [exec_getRecv]; exact execGetRecv_good h
  | get3Recv => rw [exec_get3Recv]; exact execGet3Recv_good h
  | data3Recv => rw [exec_data3Recv]; exact execData3Recv_good h
  | atomicRecv => rw [exec_atomicRecv]; exact execAtomicRecv_good h
  | signalRecv => rw [exec_signalRecv]; exact execSignalRecv_good h
  | replyRecv => rw [exec_replyRecv]; exact execReplyRecv_good h
  | remoteTimeout => rw [exec_remoteTimeout]; exact execRemoteTimeout_good h
  | rwinDenyRead => rw [exec_rwinDenyRead]; exact execRwinDenyRead_good h
  | linkTrainDone => rw [exec_linkTrainDone]; exact execLinkTrainDone_good h
  | linkTrainFail => rw [exec_linkTrainFail]; exact execLinkTrainFail_good h
  | linkFecUncorr => rw [exec_linkFecUncorr]; exact execLinkFecUncorr_good h
  | rsreqRecv => rw [exec_rsreqRecv]; exact execRsreqRecv_good h
  | markRecv => rw [exec_markRecv]; exact execMarkRecv_good h
  | rsackRecv => rw [exec_rsackRecv]; exact execRsackRecv_good h
  | crdRecv => rw [exec_crdRecv]; exact execCrdRecv_good h
  | crdSend => rw [exec_crdSend]; exact execCrdSend_good h
  | linkFlitGapTimeout => rw [exec_linkFlitGapTimeout]; exact execLinkFlitGapTimeout_good h
  | linkResyncTimeout => rw [exec_linkResyncTimeout]; exact execLinkResyncTimeout_good h
  | pktRecv => rw [exec_pktRecv]; exact execPktRecv_good h
  | pktForward => rw [exec_pktForward]; exact execPktForward_good h
  | pktStaleDiscard => rw [exec_pktStaleDiscard]; exact execPktStaleDiscard_good h
  | lnkVcallocWrite => rw [exec_lnkVcallocWrite]; exact execLnkVcallocWrite_good h
  | lnkFence => rw [exec_lnkFence]; exact execLnkFence_good h
  | lnkReadmit => rw [exec_lnkReadmit]; exact execLnkReadmit_good h
  | lnkRetrain => rw [exec_lnkRetrain]; exact execLnkRetrain_good h
  | lnkAdmit => rw [exec_lnkAdmit]; exact execLnkAdmit_good h
  | lnkPark => rw [exec_lnkPark]; exact execLnkPark_good h
  | lnkEnWrite => rw [exec_lnkEnWrite]; exact execLnkEnWrite_good h
  | lnkCounterRead => rw [exec_lnkCounterRead]; exact execLnkCounterRead_good h
  | rteLoad => rw [exec_rteLoad]; exact execRteLoad_good h
  | rteLoadDone => rw [exec_rteLoadDone]; exact execRteLoadDone_good h
  | rteFlip => rw [exec_rteFlip]; exact execRteFlip_good h
  | rteCfgWrite => rw [exec_rteCfgWrite]; exact execRteCfgWrite_good h
  | rteTimersWrite => rw [exec_rteTimersWrite]; exact execRteTimersWrite_good h
  | rteCounterRead => rw [exec_rteCounterRead]; exact execRteCounterRead_good h
  | helloRecv => rw [exec_helloRecv]; exact execHelloRecv_good h
  | locRecv => rw [exec_locRecv]; exact execLocRecv_good h
  | probeRecv => rw [exec_probeRecv]; exact execProbeRecv_good h
  | helloSend => rw [exec_helloSend]; exact execHelloSend_good h
  | discElect => rw [exec_discElect]; exact execDiscElect_good h
  | discPeerTimeout => rw [exec_discPeerTimeout]; exact execDiscPeerTimeout_good h
  | dscExpWrite => rw [exec_dscExpWrite]; exact execDscExpWrite_good h
  | dscFabricWrite => rw [exec_dscFabricWrite]; exact execDscFabricWrite_good h
  | dscIdWrite => rw [exec_dscIdWrite]; exact execDscIdWrite_good h
  | jobAdmission => rw [exec_jobAdmission]; exact execJobAdmission_good h
  | collOpen => rw [exec_collOpen]; exact execCollOpen_good h
  | collClose => rw [exec_collClose]; exact execCollClose_good h
  | allreduce => rw [exec_allreduce]; exact execAllreduce_good h
  | reduceScatter => rw [exec_reduceScatter]; exact execReduceScatter_good h
  | allgather => rw [exec_allgather]; exact execAllgather_good h
  | broadcast => rw [exec_broadcast]; exact execBroadcast_good h
  | permute => rw [exec_permute]; exact execPermute_good h
  | alltoall => rw [exec_alltoall]; exact execAlltoall_good h
  | collStart => rw [exec_collStart]; exact execCollStart_good h
  | collChunkSend => rw [exec_collChunkSend]; exact execCollChunkSend_good h
  | chunkRecv => rw [exec_chunkRecv]; exact execChunkRecv_good h
  | collCreditRecv => rw [exec_collCreditRecv]; exact execCollCreditRecv_good h
  | collComplete => rw [exec_collComplete]; exact execCollComplete_good h
  | crrFence => rw [exec_crrFence]; exact execCrrFence_good h
  | crrSelftest => rw [exec_crrSelftest]; exact execCrrSelftest_good h
  | crrSelftestDone => rw [exec_crrSelftestDone]; exact execCrrSelftestDone_good h
  | crrReadmit => rw [exec_crrReadmit]; exact execCrrReadmit_good h
  | crrCntRead => rw [exec_crrCntRead]; exact execCrrCntRead_good h
  | hostFrameRecv => rw [exec_hostFrameRecv]; exact execHostFrameRecv_good h
  | hostReplyFrame => rw [exec_hostReplyFrame]; exact execHostReplyFrame_good h
  | submitEcho => rw [exec_submitEcho]; exact execSubmitEcho_good h
  | regDeferredResult => rw [exec_regDeferredResult]; exact execRegDeferredResult_good h
  | regOpTimeout => rw [exec_regOpTimeout]; exact execRegOpTimeout_good h
  | nop => rw [exec_nop]; exact execNop_good h
  | qwait => rw [exec_qwait]; exact execQwait_good h
  | hostCmdBadOpcode => rw [exec_hostCmdBadOpcode]; exact execHostCmdBadOpcode_good h
  | complRecordSend => rw [exec_complRecordSend]; exact execComplRecordSend_good h
  | hlFrameGapTimeout => rw [exec_hlFrameGapTimeout]; exact execHlFrameGapTimeout_good h
  | hlTrainDone => rw [exec_hlTrainDone]; exact execHlTrainDone_good h
  | hlRetrainTick => rw [exec_hlRetrainTick]; exact execHlRetrainTick_good h
  | hlkSwap => rw [exec_hlkSwap]; exact execHlkSwap_good h
  | hlkRetrain => rw [exec_hlkRetrain]; exact execHlkRetrain_good h
  | hlkFence => rw [exec_hlkFence]; exact execHlkFence_good h
  | hlkCntRead => rw [exec_hlkCntRead]; exact execHlkCntRead_good h
  | sqCfgWrite => rw [exec_sqCfgWrite]; exact execSqCfgWrite_good h
  | wmarkWrite => rw [exec_wmarkWrite]; exact execWmarkWrite_good h
  | errInject => rw [exec_errInject]; exact execErrInject_good h
  | evtSelWrite => rw [exec_evtSelWrite]; exact execEvtSelWrite_good h
  | evtSelRead => rw [exec_evtSelRead]; exact execEvtSelRead_good h
  | watchdogExpire => rw [exec_watchdogExpire]; exact execWatchdogExpire_good h
  | hangTrialDone => rw [exec_hangTrialDone]; exact execHangTrialDone_good h
  | taintBackstop => rw [exec_taintBackstop]; exact execTaintBackstop_good h
  | contextAbort => rw [exec_contextAbort]; exact execContextAbort_good h
  | rcvAbort => rw [exec_rcvAbort]; exact execRcvAbort_good h
  | abortWedgeCheck => rw [exec_abortWedgeCheck]; exact execAbortWedgeCheck_good h
  | abortComplete => rw [exec_abortComplete]; exact execAbortComplete_good h
  | abortRelayResend => rw [exec_abortRelayResend]; exact execAbortRelayResend_good h
  | relayRecv => rw [exec_relayRecv]; exact execRelayRecv_good h
  | resetEngine => rw [exec_resetEngine]; exact execResetEngine_good h
  | resetCluster => rw [exec_resetCluster]; exact execResetCluster_good h
  | resetDieFunction => rw [exec_resetDieFunction]; exact execResetDieFunction_good h
  | resetWarm => rw [exec_resetWarm]; exact execResetWarm_good h
  | resetCold => rw [exec_resetCold]; exact execResetCold_good h
  | dieFence => rw [exec_dieFence]; exact execDieFence_good h
  | resetDone => rw [exec_resetDone]; exact execResetDone_good h
  | resetFail => rw [exec_resetFail]; exact execResetFail_good h
  | recoveryDone => rw [exec_recoveryDone]; exact execRecoveryDone_good h
  | rcvOosack => rw [exec_rcvOosack]; exact execRcvOosack_good h
  | rcvJobidWrite => rw [exec_rcvJobidWrite]; exact execRcvJobidWrite_good h
  | rcvWdlimWrite => rw [exec_rcvWdlimWrite]; exact execRcvWdlimWrite_good h
  | rcvAbstatRead => rw [exec_rcvAbstatRead]; exact execRcvAbstatRead_good h
  | dumpRead => rw [exec_dumpRead]; exact execDumpRead_good h
  | evlLostRead => rw [exec_evlLostRead]; exact execEvlLostRead_good h
  | lseal => rw [exec_lseal]; exact execLseal_good h
  | sealDone => rw [exec_sealDone]; exact execSealDone_good h
  | gstepWrite => rw [exec_gstepWrite]; exact execGstepWrite_good h
  | ldgGeomWrite => rw [exec_ldgGeomWrite]; exact execLdgGeomWrite_good h
  | ckmarkStart => rw [exec_ckmarkStart]; exact execCkmarkStart_good h
  | ckmarkEnd => rw [exec_ckmarkEnd]; exact execCkmarkEnd_good h
  | ckmarkEmpty => rw [exec_ckmarkEmpty]; exact execCkmarkEmpty_good h
  | ldgCkWrite => rw [exec_ldgCkWrite]; exact execLdgCkWrite_good h
  | ckRecompute => rw [exec_ckRecompute]; exact execCkRecompute_good h
  | sstRecordWrite => rw [exec_sstRecordWrite]; exact execSstRecordWrite_good h
  | sstBankErase => rw [exec_sstBankErase]; exact execSstBankErase_good h
  | sstCompact => rw [exec_sstCompact]; exact execSstCompact_good h
  | sstRselWrite => rw [exec_sstRselWrite]; exact execSstRselWrite_good h
  | sstRdataRead => rw [exec_sstRdataRead]; exact execSstRdataRead_good h
  | pwrTick => rw [exec_pwrTick]; exact execPwrTick_good h
  | tjcapStep => rw [exec_tjcapStep]; exact execTjcapStep_good h
  | bmBmlimWrite => rw [exec_bmBmlimWrite]; exact execBmBmlimWrite_good h
  | pwrCaplogRead => rw [exec_pwrCaplogRead]; exact execPwrCaplogRead_good h
  | droopWarnAssert => rw [exec_droopWarnAssert]; exact execDroopWarnAssert_good h
  | droopWarnEnd => rw [exec_droopWarnEnd]; exact execDroopWarnEnd_good h
  | droopReset => rw [exec_droopReset]; exact execDroopReset_good h
  | drpCntRead => rw [exec_drpCntRead]; exact execDrpCntRead_good h
  | bmShutdown => rw [exec_bmShutdown]; exact execBmShutdown_good h
  | bmShutdownDone => rw [exec_bmShutdownDone]; exact execBmShutdownDone_good h
  | bootLoadBegin => rw [exec_bootLoadBegin]; exact execBootLoadBegin_good h
  | bootLoaddata => rw [exec_bootLoaddata]; exact execBootLoaddata_good h
  | bootLoadEnd => rw [exec_bootLoadEnd]; exact execBootLoadEnd_good h
  | imageVerifyDone => rw [exec_imageVerifyDone]; exact execImageVerifyDone_good h
  | fuseRaiseSvn => rw [exec_fuseRaiseSvn]; exact execFuseRaiseSvn_good h
  | fuseRevoke => rw [exec_fuseRevoke]; exact execFuseRevoke_good h
  | fuseBurnDone => rw [exec_fuseBurnDone]; exact execFuseBurnDone_good h
  | idtreeDone => rw [exec_idtreeDone]; exact execIdtreeDone_good h
  | attestGo => rw [exec_attestGo]; exact execAttestGo_good h
  | attestDone => rw [exec_attestDone]; exact execAttestDone_good h
  | secRselWrite => rw [exec_secRselWrite]; exact execSecRselWrite_good h
  | secRdataRead => rw [exec_secRdataRead]; exact execSecRdataRead_good h
  | testEnter => rw [exec_testEnter]; exact execTestEnter_good h
  | tstTokenWrite => rw [exec_tstTokenWrite]; exact execTstTokenWrite_good h
  | testDone => rw [exec_testDone]; exact execTestDone_good h
  | jtagTapReset => rw [exec_jtagTapReset]; exact execJtagTapReset_good h
  | extest => rw [exec_extest]; exact execExtest_good h
  | samplePreload => rw [exec_samplePreload]; exact execSamplePreload_good h
  | idcode => rw [exec_idcode]; exact execIdcode_good h
  | clamp => rw [exec_clamp]; exact execClamp_good h
  | highz => rw [exec_highz]; exact execHighz_good h
  | extestPulse => rw [exec_extestPulse]; exact execExtestPulse_good h
  | extestTrain => rw [exec_extestTrain]; exact execExtestTrain_good h
  | tsttoken => rw [exec_tsttoken]; exact execTsttoken_good h
  | tstacc => rw [exec_tstacc]; exact execTstacc_good h
  | bypass => rw [exec_bypass]; exact execBypass_good h
  | hlTrainFail => rw [exec_hlTrainFail]; exact execHlTrainFail_good h
  | phaseReady => rw [exec_phaseReady]; exact execPhaseReady_good h
  | vcmdDone => rw [exec_vcmdDone]; exact execVcmdDone_good h
  | downWindowExpire => rw [exec_downWindowExpire]; exact execDownWindowExpire_good h

theorem exec_pending {c : Instr} {s t : State} (h : exec c s = .next t) : t.pending = s.pending :=
  (exec_good c (pq := (s.pending, False)) ⟨rfl, False.elim⟩ t h).1

theorem exec_canonical_tapOk {c : Instr} {s t : State} (hc : Canonical s) (ht : TapOk s) (h : exec c s = .next t) : Canonical t ∧ TapOk t :=
  (exec_good c (pq := (s.pending, True)) ⟨rfl, fun _ => ⟨hc, ht⟩⟩ t h).2 trivial

/-- Settles O3. -/
theorem queueUntouched : Obligations.QueueUntouched := fun _ _ _ => exec_pending

/-! ## The parts that a command may change -/

/-- Part.most is every part but the queue. -/
theorem eq_pending_of_not_mem_most {p : Part} (h : p ∉ Part.most) : p = .pending := by
  revert h
  cases p <;> decide

/-- A command that may start a cascade leaves the queue alone. -/
theorem exec_same_of_touched_most {c : Instr} {s t : State} {p : Part} (hc : touched c = Part.most) (h : exec c s = .next t) (hp : p ∉ touched c) :
    p.same s t := by
  rw [hc] at hp
  rw [eq_pending_of_not_mem_most hp]
  exact exec_pending h

/-- Settles O4: what each meaning keeps, read at the mask of the command's own list of parts. -/
theorem commandsTouchOnlyTheirParts : Obligations.CommandsTouchOnlyTheirParts := by
  unfold Obligations.CommandsTouchOnlyTheirParts
  intro c s t p h hp
  cases c with
  | regWrite | powerUp | powerLoss | coldReset | tileExecute | tileCheckDone | tileRerun | tileDrainEnd | chainStart | chainEntryClaim | chainComplete
    | gatherComplete | load | store | updateStart | uuChunkRun | journalMirrorAck | uuSegmentPass | updateCommit | uend | uuFence | taint | slCopyDone
    | slDescRecv | slAckRecv | slResend | slTaintRecv | ldfe | ldfn | stef | finc | fdec | fini | porterTransferDone | ropPut | putRecv | getRecv |
    get3Recv | data3Recv | atomicRecv | replyRecv | remoteTimeout | pktRecv | collStart | collChunkSend | chunkRecv | hostFrameRecv |
    regDeferredResult | watchdogExpire | hangTrialDone | contextAbort | rcvAbort | abortWedgeCheck | relayRecv | resetEngine | resetCluster |
    resetDieFunction | resetWarm | resetCold | dieFence | resetDone | resetFail | recoveryDone | rcvWdlimWrite | sealDone | droopReset | tstacc =>
    exact exec_same_of_touched_most rfl h hp
  | bridgeFlitReplay => rw [exec_bridgeFlitReplay] at h; rw [touched_bridgeFlitReplay] at hp; exact (execBridgeFlitReplay_keeps (.of rfl) (keeps_refl _ s)).same h hp
  | bridgeDown => rw [exec_bridgeDown] at h; rw [touched_bridgeDown] at hp; exact (execBridgeDown_keeps (.of rfl) (keeps_refl _ s)).same h hp
  | refclkLost => rw [exec_refclkLost] at h; rw [touched_refclkLost] at hp; exact (execRefclkLost_keeps (.of rfl) (keeps_refl _ s)).same h hp
  | refclkReturn => rw [exec_refclkReturn] at h; rw [touched_refclkReturn] at hp; exact (execRefclkReturn_keeps (.of rfl) (keeps_refl _ s)).same h hp
  | thermtrip => rw [exec_thermtrip] at h; rw [touched_thermtrip] at hp; exact (execThermtrip_keeps (.of rfl) (keeps_refl _ s)).same h hp
  | islStretchRead => rw [exec_islStretchRead] at h; rw [touched_islStretchRead] at hp; exact (execIslStretchRead_keeps (.of rfl) (keeps_refl _ s)).same h hp
  | tissue => rw [exec_tissue] at h; rw [touched_tissue] at hp; exact (execTissue_keeps (.of rfl) (keeps_refl _ s)).same h hp
  | tpair => rw [exec_tpair] at h; rw [touched_tpair] at hp; exact (execTpair_keeps (.of rfl) (keeps_refl _ s)).same h hp
  | tileDrainStart => rw [exec_tileDrainStart] at h; rw [touched_tileDrainStart] at hp; exact (execTileDrainStart_keeps (.of rfl) (keeps_refl _ s)).same h hp
  | issueCapWindow => rw [exec_issueCapWindow] at h; rw [touched_issueCapWindow] at hp; exact (execIssueCapWindow_keeps (.of rfl) (keeps_refl _ s)).same h hp
  | strikeWindowExpire => rw [exec_strikeWindowExpire] at h; rw [touched_strikeWindowExpire] at hp; exact (execStrikeWindowExpire_keeps (.of rfl) (keeps_refl _ s)).same h hp
  | mxeFence => rw [exec_mxeFence] at h; rw [touched_mxeFence] at hp; exact (execMxeFence_keeps (.of rfl) (keeps_refl _ s)).same h hp
  | mxeSelftest => rw [exec_mxeSelftest] at h; rw [touched_mxeSelftest] at hp; exact (execMxeSelftest_keeps (.of rfl) (keeps_refl _ s)).same h hp
  | mxeSelftestDone => rw [exec_mxeSelftestDone] at h; rw [touched_mxeSelftestDone] at hp; exact (execMxeSelftestDone_keeps (.of rfl) (keeps_refl _ s)).same h hp
  | mxeReadmit => rw [exec_mxeReadmit] at h; rw [touched_mxeReadmit] at hp; exact (execMxeReadmit_keeps (.of rfl) (keeps_refl _ s)).same h hp
  | mxeChkRead => rw [exec_mxeChkRead] at h; rw [touched_mxeChkRead] at hp; exact (execMxeChkRead_keeps (.of rfl) (keeps_refl _ s)).same h hp
  | mxePerfRead => rw [exec_mxePerfRead] at h; rw [touched_mxePerfRead] at hp; exact (execMxePerfRead_keeps (.of rfl) (keeps_refl _ s)).same h hp
  | cissue => rw [exec_cissue] at h; rw [touched_cissue] at hp; exact (execCissue_keeps (.of rfl) (keeps_refl _ s)).same h hp
  | vxeFence => rw [exec_vxeFence] at h; rw [touched_vxeFence] at hp; exact (execVxeFence_keeps (.of rfl) (keeps_refl _ s)).same h hp
  | vxeSelftest => rw [exec_vxeSelftest] at h; rw [touched_vxeSelftest] at hp; exact (execVxeSelftest_keeps (.of rfl) (keeps_refl _ s)).same h hp
  | vxeSelftestDone => rw [exec_vxeSelftestDone] at h; rw [touched_vxeSelftestDone] at hp; exact (execVxeSelftestDone_keeps (.of rfl) (keeps_refl _ s)).same h hp
  | vxeReadmit => rw [exec_vxeReadmit] at h; rw [touched_vxeReadmit] at hp; exact (execVxeReadmit_keeps (.of rfl) (keeps_refl _ s)).same h hp
  | vxePerfRead => rw [exec_vxePerfRead] at h; rw [touched_vxePerfRead] at hp; exact (execVxePerfRead_keeps (.of rfl) (keeps_refl _ s)).same h hp
  | cpop => rw [exec_cpop] at h; rw [touched_cpop] at hp; exact (execCpop_keeps (.of rfl) (keeps_refl _ s)).same h hp
  | cpeek => rw [exec_cpeek] at h; rw [touched_cpeek] at hp; exact (execCpeek_keeps (.of rfl) (keeps_refl _ s)).same h hp
  | smovS => rw [exec_smovS] at h; rw [touched_smovS] at hp; exact (execSmovS_keeps (.of rfl) (keeps_refl _ s)).same h hp
  | smovG => rw [exec_smovG] at h; rw [touched_smovG] at hp; exact (execSmovG_keeps (.of rfl) (keeps_refl _ s)).same h hp
  | bs => rw [exec_bs] at h; rw [touched_bs] at hp; exact (execBs_keeps (.of rfl) (keeps_refl _ s)).same h hp
  | ringRecordRelease => rw [exec_ringRecordRelease] at h; rw [touched_ringRecordRelease] at hp; exact (execRingRecordRelease_keeps (.of rfl) (keeps_refl _ s)).same h hp
  | gather => rw [exec_gather] at h; rw [touched_gather] at hp; exact (execGather_keeps (.of rfl) (keeps_refl _ s)).same h hp
  | scatter => rw [exec_scatter] at h; rw [touched_scatter] at hp; exact (execScatter_keeps (.of rfl) (keeps_refl _ s)).same h hp
  | intAlu => rw [exec_intAlu] at h; rw [touched_intAlu] at hp; exact (execIntAlu_keeps (.of rfl) (keeps_refl _ s)).same h hp
  | compareBranch => rw [exec_compareBranch] at h; rw [touched_compareBranch] at hp; exact (execCompareBranch_keeps (.of rfl) (keeps_refl _ s)).same h hp
  | jumpAndLink => rw [exec_jumpAndLink] at h; rw [touched_jumpAndLink] at hp; exact (execJumpAndLink_keeps (.of rfl) (keeps_refl _ s)).same h hp
  | fpOp => rw [exec_fpOp] at h; rw [touched_fpOp] at hp; exact (execFpOp_keeps (.of rfl) (keeps_refl _ s)).same h hp
  | systemOp => rw [exec_systemOp] at h; rw [touched_systemOp] at hp; exact (execSystemOp_keeps (.of rfl) (keeps_refl _ s)).same h hp
  | cluCtxWrite => rw [exec_cluCtxWrite] at h; rw [touched_cluCtxWrite] at hp; exact (execCluCtxWrite_keeps (.of rfl) (keeps_refl _ s)).same h hp
  | coreRun => rw [exec_coreRun] at h; rw [touched_coreRun] at hp; exact (execCoreRun_keeps (.of rfl) (keeps_refl _ s)).same h hp
  | coreStop => rw [exec_coreStop] at h; rw [touched_coreStop] at hp; exact (execCoreStop_keeps (.of rfl) (keeps_refl _ s)).same h hp
  | hstSnapshot => rw [exec_hstSnapshot] at h; rw [touched_hstSnapshot] at hp; exact (execHstSnapshot_keeps (.of rfl) (keeps_refl _ s)).same h hp
  | hstSnapshotClear => rw [exec_hstSnapshotClear] at h; rw [touched_hstSnapshotClear] at hp; exact (execHstSnapshotClear_keeps (.of rfl) (keeps_refl _ s)).same h hp
  | hstLoad => rw [exec_hstLoad] at h; rw [touched_hstLoad] at hp; exact (execHstLoad_keeps (.of rfl) (keeps_refl _ s)).same h hp
  | hstOpDone => rw [exec_hstOpDone] at h; rw [touched_hstOpDone] at hp; exact (execHstOpDone_keeps (.of rfl) (keeps_refl _ s)).same h hp
  | hsnapWrite => rw [exec_hsnapWrite] at h; rw [touched_hsnapWrite] at hp; exact (execHsnapWrite_keeps (.of rfl) (keeps_refl _ s)).same h hp
  | hstOwnWrite => rw [exec_hstOwnWrite] at h; rw [touched_hstOwnWrite] at hp; exact (execHstOwnWrite_keeps (.of rfl) (keeps_refl _ s)).same h hp
  | ctrClear => rw [exec_ctrClear] at h; rw [touched_ctrClear] at hp; exact (execCtrClear_keeps (.of rfl) (keeps_refl _ s)).same h hp
  | ctrAdd => rw [exec_ctrAdd] at h; rw [touched_ctrAdd] at hp; exact (execCtrAdd_keeps (.of rfl) (keeps_refl _ s)).same h hp
  | ctrEvtRead => rw [exec_ctrEvtRead] at h; rw [touched_ctrEvtRead] at hp; exact (execCtrEvtRead_keeps (.of rfl) (keeps_refl _ s)).same h hp
  | mapRgnValidate => rw [exec_mapRgnValidate] at h; rw [touched_mapRgnValidate] at hp; exact (execMapRgnValidate_keeps (.of rfl) (keeps_refl _ s)).same h hp
  | mapRgnClose => rw [exec_mapRgnClose] at h; rw [touched_mapRgnClose] at hp; exact (execMapRgnClose_keeps (.of rfl) (keeps_refl _ s)).same h hp
  | mapQuiesceDone => rw [exec_mapQuiesceDone] at h; rw [touched_mapQuiesceDone] at hp; exact (execMapQuiesceDone_keeps (.of rfl) (keeps_refl _ s)).same h hp
  | tollRefill => rw [exec_tollRefill] at h; rw [touched_tollRefill] at hp; exact (execTollRefill_keeps (.of rfl) (keeps_refl _ s)).same h hp
  | tollBktWrite => rw [exec_tollBktWrite] at h; rw [touched_tollBktWrite] at hp; exact (execTollBktWrite_keeps (.of rfl) (keeps_refl _ s)).same h hp
  | tollHeldRead => rw [exec_tollHeldRead] at h; rw [touched_tollHeldRead] at hp; exact (execTollHeldRead_keeps (.of rfl) (keeps_refl _ s)).same h hp
  | stackTempReport => rw [exec_stackTempReport] at h; rw [touched_stackTempReport] at hp; exact (execStackTempReport_keeps (.of rfl) (keeps_refl _ s)).same h hp
  | throttleFallStep => rw [exec_throttleFallStep] at h; rw [touched_throttleFallStep] at hp; exact (execThrottleFallStep_keeps (.of rfl) (keeps_refl _ s)).same h hp
  | msTempLost => rw [exec_msTempLost] at h; rw [touched_msTempLost] at hp; exact (execMsTempLost_keeps (.of rfl) (keeps_refl _ s)).same h hp
  | lpTempReport => rw [exec_lpTempReport] at h; rw [touched_lpTempReport] at hp; exact (execLpTempReport_keeps (.of rfl) (keeps_refl _ s)).same h hp
  | scrubPass => rw [exec_scrubPass] at h; rw [touched_scrubPass] at hp; exact (execScrubPass_keeps (.of rfl) (keeps_refl _ s)).same h hp
  | mscFenceWrite => rw [exec_mscFenceWrite] at h; rw [touched_mscFenceWrite] at hp; exact (execMscFenceWrite_keeps (.of rfl) (keeps_refl _ s)).same h hp
  | lpcFenceWrite => rw [exec_lpcFenceWrite] at h; rw [touched_lpcFenceWrite] at hp; exact (execLpcFenceWrite_keeps (.of rfl) (keeps_refl _ s)).same h hp
  | mscEccRead => rw [exec_mscEccRead] at h; rw [touched_mscEccRead] at hp; exact (execMscEccRead_keeps (.of rfl) (keeps_refl _ s)).same h hp
  | uld => rw [exec_uld] at h; rw [touched_uld] at hp; exact (execUld_keeps (.of rfl) (keeps_refl _ s)).same h hp
  | ust => rw [exec_ust] at h; rw [touched_ust] at hp; exact (execUst_keeps (.of rfl) (keeps_refl _ s)).same h hp
  | ukset => rw [exec_ukset] at h; rw [touched_ukset] at hp; exact (execUkset_keeps (.of rfl) (keeps_refl _ s)).same h hp
  | uadd => rw [exec_uadd] at h; rw [touched_uadd] at hp; exact (execUadd_keeps (.of rfl) (keeps_refl _ s)).same h hp
  | usub => rw [exec_usub] at h; rw [touched_usub] at hp; exact (execUsub_keeps (.of rfl) (keeps_refl _ s)).same h hp
  | umul => rw [exec_umul] at h; rw [touched_umul] at hp; exact (execUmul_keeps (.of rfl) (keeps_refl _ s)).same h hp
  | udiv => rw [exec_udiv] at h; rw [touched_udiv] at hp; exact (execUdiv_keeps (.of rfl) (keeps_refl _ s)).same h hp
  | ufma => rw [exec_ufma] at h; rw [touched_ufma] at hp; exact (execUfma_keeps (.of rfl) (keeps_refl _ s)).same h hp
  | usqrt => rw [exec_usqrt] at h; rw [touched_usqrt] at hp; exact (execUsqrt_keeps (.of rfl) (keeps_refl _ s)).same h hp
  | umax => rw [exec_umax] at h; rw [touched_umax] at hp; exact (execUmax_keeps (.of rfl) (keeps_refl _ s)).same h hp
  | umin => rw [exec_umin] at h; rw [touched_umin] at hp; exact (execUmin_keeps (.of rfl) (keeps_refl _ s)).same h hp
  | uabs => rw [exec_uabs] at h; rw [touched_uabs] at hp; exact (execUabs_keeps (.of rfl) (keeps_refl _ s)).same h hp
  | uneg => rw [exec_uneg] at h; rw [touched_uneg] at hp; exact (execUneg_keeps (.of rfl) (keeps_refl _ s)).same h hp
  | usgn => rw [exec_usgn] at h; rw [touched_usgn] at hp; exact (execUsgn_keeps (.of rfl) (keeps_refl _ s)).same h hp
  | ucvt => rw [exec_ucvt] at h; rw [touched_ucvt] at hp; exact (execUcvt_keeps (.of rfl) (keeps_refl _ s)).same h hp
  | uwadd => rw [exec_uwadd] at h; rw [touched_uwadd] at hp; exact (execUwadd_keeps (.of rfl) (keeps_refl _ s)).same h hp
  | uloop => rw [exec_uloop] at h; rw [touched_uloop] at hp; exact (execUloop_keeps (.of rfl) (keeps_refl _ s)).same h hp
  | uuSelftest => rw [exec_uuSelftest] at h; rw [touched_uuSelftest] at hp; exact (execUuSelftest_keeps (.of rfl) (keeps_refl _ s)).same h hp
  | uuSelftestDone => rw [exec_uuSelftestDone] at h; rw [touched_uuSelftestDone] at hp; exact (execUuSelftestDone_keeps (.of rfl) (keeps_refl _ s)).same h hp
  | uuReadmit => rw [exec_uuReadmit] at h; rw [touched_uuReadmit] at hp; exact (execUuReadmit_keeps (.of rfl) (keeps_refl _ s)).same h hp
  | uuPerfRead => rw [exec_uuPerfRead] at h; rw [touched_uuPerfRead] at hp; exact (execUuPerfRead_keeps (.of rfl) (keeps_refl _ s)).same h hp
  | updPerfRead => rw [exec_updPerfRead] at h; rw [touched_updPerfRead] at hp; exact (execUpdPerfRead_keeps (.of rfl) (keeps_refl _ s)).same h hp
  | qpush => rw [exec_qpush] at h; rw [touched_qpush] at hp; exact (execQpush_keeps (.of rfl) (keeps_refl _ s)).same h hp
  | qpop => rw [exec_qpop] at h; rw [touched_qpop] at hp; exact (execQpop_keeps (.of rfl) (keeps_refl _ s)).same h hp
  | qdone => rw [exec_qdone] at h; rw [touched_qdone] at hp; exact (execQdone_keeps (.of rfl) (keeps_refl _ s)).same h hp
  | vacq => rw [exec_vacq] at h; rw [touched_vacq] at hp; exact (execVacq_keeps (.of rfl) (keeps_refl _ s)).same h hp
  | vrel => rw [exec_vrel] at h; rw [touched_vrel] at hp; exact (execVrel_keeps (.of rfl) (keeps_refl _ s)).same h hp
  | fbeg => rw [exec_fbeg] at h; rw [touched_fbeg] at hp; exact (execFbeg_keeps (.of rfl) (keeps_refl _ s)).same h hp
  | fend => rw [exec_fend] at h; rw [touched_fend] at hp; exact (execFend_keeps (.of rfl) (keeps_refl _ s)).same h hp
  | slOpenRecv => rw [exec_slOpenRecv] at h; rw [touched_slOpenRecv] at hp; exact (execSlOpenRecv_keeps (.of rfl) (keeps_refl _ s)).same h hp
  | slAcceptRecv => rw [exec_slAcceptRecv] at h; rw [touched_slAcceptRecv] at hp; exact (execSlAcceptRecv_keeps (.of rfl) (keeps_refl _ s)).same h hp
  | slRefuseRecv => rw [exec_slRefuseRecv] at h; rw [touched_slRefuseRecv] at hp; exact (execSlRefuseRecv_keeps (.of rfl) (keeps_refl _ s)).same h hp
  | slConsumedSend => rw [exec_slConsumedSend] at h; rw [touched_slConsumedSend] at hp; exact (execSlConsumedSend_keeps (.of rfl) (keeps_refl _ s)).same h hp
  | slCreditRecv => rw [exec_slCreditRecv] at h; rw [touched_slCreditRecv] at hp; exact (execSlCreditRecv_keeps (.of rfl) (keeps_refl _ s)).same h hp
  | slqIncfgWrite => rw [exec_slqIncfgWrite] at h; rw [touched_slqIncfgWrite] at hp; exact (execSlqIncfgWrite_keeps (.of rfl) (keeps_refl _ s)).same h hp
  | slqOutcfgWrite => rw [exec_slqOutcfgWrite] at h; rw [touched_slqOutcfgWrite] at hp; exact (execSlqOutcfgWrite_keeps (.of rfl) (keeps_refl _ s)).same h hp
  | stgStageWrite => rw [exec_stgStageWrite] at h; rw [touched_stgStageWrite] at hp; exact (execStgStageWrite_keeps (.of rfl) (keeps_refl _ s)).same h hp
  | vcmdActivate => rw [exec_vcmdActivate] at h; rw [touched_vcmdActivate] at hp; exact (execVcmdActivate_keeps (.of rfl) (keeps_refl _ s)).same h hp
  | vcmdRetire => rw [exec_vcmdRetire] at h; rw [touched_vcmdRetire] at hp; exact (execVcmdRetire_keeps (.of rfl) (keeps_refl _ s)).same h hp
  | stgTclr => rw [exec_stgTclr] at h; rw [touched_stgTclr] at hp; exact (execStgTclr_keeps (.of rfl) (keeps_refl _ s)).same h hp
  | fsig => rw [exec_fsig] at h; rw [touched_fsig] at hp; exact (execFsig_keeps (.of rfl) (keeps_refl _ s)).same h hp
  | swait => rw [exec_swait] at h; rw [touched_swait] at hp; exact (execSwait_keeps (.of rfl) (keeps_refl _ s)).same h hp
  | barr => rw [exec_barr] at h; rw [touched_barr] at hp; exact (execBarr_keeps (.of rfl) (keeps_refl _ s)).same h hp
  | bwait => rw [exec_bwait] at h; rw [touched_bwait] at hp; exact (execBwait_keeps (.of rfl) (keeps_refl _ s)).same h hp
  | fclaim => rw [exec_fclaim] at h; rw [touched_fclaim] at hp; exact (execFclaim_keeps (.of rfl) (keeps_refl _ s)).same h hp
  | frel => rw [exec_frel] at h; rw [touched_frel] at hp; exact (execFrel_keeps (.of rfl) (keeps_refl _ s)).same h hp
  | barrive => rw [exec_barrive] at h; rw [touched_barrive] at hp; exact (execBarrive_keeps (.of rfl) (keeps_refl _ s)).same h hp
  | syncTimeout => rw [exec_syncTimeout] at h; rw [touched_syncTimeout] at hp; exact (execSyncTimeout_keeps (.of rfl) (keeps_refl _ s)).same h hp
  | synLose => rw [exec_synLose] at h; rw [touched_synLose] at hp; exact (execSynLose_keeps (.of rfl) (keeps_refl _ s)).same h hp
  | claimMarkDone => rw [exec_claimMarkDone] at h; rw [touched_claimMarkDone] at hp; exact (execClaimMarkDone_keeps (.of rfl) (keeps_refl _ s)).same h hp
  | barArm => rw [exec_barArm] at h; rw [touched_barArm] at hp; exact (execBarArm_keeps (.of rfl) (keeps_refl _ s)).same h hp
  | barDisarm => rw [exec_barDisarm] at h; rw [touched_barDisarm] at hp; exact (execBarDisarm_keeps (.of rfl) (keeps_refl _ s)).same h hp
  | barStatRead => rw [exec_barStatRead] at h; rw [touched_barStatRead] at hp; exact (execBarStatRead_keeps (.of rfl) (keeps_refl _ s)).same h hp
  | ropGet => rw [exec_ropGet] at h; rw [touched_ropGet] at hp; exact (execRopGet_keeps (.of rfl) (keeps_refl _ s)).same h hp
  | ropGet3 => rw [exec_ropGet3] at h; rw [touched_ropGet3] at hp; exact (execRopGet3_keeps (.of rfl) (keeps_refl _ s)).same h hp
  | ropAtomic => rw [exec_ropAtomic] at h; rw [touched_ropAtomic] at hp; exact (execRopAtomic_keeps (.of rfl) (keeps_refl _ s)).same h hp
  | ropSignal => rw [exec_ropSignal] at h; rw [touched_ropSignal] at hp; exact (execRopSignal_keeps (.of rfl) (keeps_refl _ s)).same h hp
  | signalRecv => rw [exec_signalRecv] at h; rw [touched_signalRecv] at hp; exact (execSignalRecv_keeps (.of rfl) (keeps_refl _ s)).same h hp
  | rwinDenyRead => rw [exec_rwinDenyRead] at h; rw [touched_rwinDenyRead] at hp; exact (execRwinDenyRead_keeps (.of rfl) (keeps_refl _ s)).same h hp
  | linkTrainDone => rw [exec_linkTrainDone] at h; rw [touched_linkTrainDone] at hp; exact (execLinkTrainDone_keeps (.of rfl) (keeps_refl _ s)).same h hp
  | linkTrainFail => rw [exec_linkTrainFail] at h; rw [touched_linkTrainFail] at hp; exact (execLinkTrainFail_keeps (.of rfl) (keeps_refl _ s)).same h hp
  | linkFecUncorr => rw [exec_linkFecUncorr] at h; rw [touched_linkFecUncorr] at hp; exact (execLinkFecUncorr_keeps (.of rfl) (keeps_refl _ s)).same h hp
  | rsreqRecv => rw [exec_rsreqRecv] at h; rw [touched_rsreqRecv] at hp; exact (execRsreqRecv_keeps (.of rfl) (keeps_refl _ s)).same h hp
  | markRecv => rw [exec_markRecv] at h; rw [touched_markRecv] at hp; exact (execMarkRecv_keeps (.of rfl) (keeps_refl _ s)).same h hp
  | rsackRecv => rw [exec_rsackRecv] at h; rw [touched_rsackRecv] at hp; exact (execRsackRecv_keeps (.of rfl) (keeps_refl _ s)).same h hp
  | crdRecv => rw [exec_crdRecv] at h; rw [touched_crdRecv] at hp; exact (execCrdRecv_keeps (.of rfl) (keeps_refl _ s)).same h hp
  | crdSend => rw [exec_crdSend] at h; rw [touched_crdSend] at hp; exact (execCrdSend_keeps (.of rfl) (keeps_refl _ s)).same h hp
  | linkFlitGapTimeout => rw [exec_linkFlitGapTimeout] at h; rw [touched_linkFlitGapTimeout] at hp; exact (execLinkFlitGapTimeout_keeps (.of rfl) (keeps_refl _ s)).same h hp
  | linkResyncTimeout => rw [exec_linkResyncTimeout] at h; rw [touched_linkResyncTimeout] at hp; exact (execLinkResyncTimeout_keeps (.of rfl) (keeps_refl _ s)).same h hp
  | pktForward => rw [exec_pktForward] at h; rw [touched_pktForward] at hp; exact (execPktForward_keeps (.of rfl) (keeps_refl _ s)).same h hp
  | pktStaleDiscard => rw [exec_pktStaleDiscard] at h; rw [touched_pktStaleDiscard] at hp; exact (execPktStaleDiscard_keeps (.of rfl) (keeps_refl _ s)).same h hp
  | lnkVcallocWrite => rw [exec_lnkVcallocWrite] at h; rw [touched_lnkVcallocWrite] at hp; exact (execLnkVcallocWrite_keeps (.of rfl) (keeps_refl _ s)).same h hp
  | lnkFence => rw [exec_lnkFence] at h; rw [touched_lnkFence] at hp; exact (execLnkFence_keeps (.of rfl) (keeps_refl _ s)).same h hp
  | lnkReadmit => rw [exec_lnkReadmit] at h; rw [touched_lnkReadmit] at hp; exact (execLnkReadmit_keeps (.of rfl) (keeps_refl _ s)).same h hp
  | lnkRetrain => rw [exec_lnkRetrain] at h; rw [touched_lnkRetrain] at hp; exact (execLnkRetrain_keeps (.of rfl) (keeps_refl _ s)).same h hp
  | lnkAdmit => rw [exec_lnkAdmit] at h; rw [touched_lnkAdmit] at hp; exact (execLnkAdmit_keeps (.of rfl) (keeps_refl _ s)).same h hp
  | lnkPark => rw [exec_lnkPark] at h; rw [touched_lnkPark] at hp; exact (execLnkPark_keeps (.of rfl) (keeps_refl _ s)).same h hp
  | lnkEnWrite => rw [exec_lnkEnWrite] at h; rw [touched_lnkEnWrite] at hp; exact (execLnkEnWrite_keeps (.of rfl) (keeps_refl _ s)).same h hp
  | lnkCounterRead => rw [exec_lnkCounterRead] at h; rw [touched_lnkCounterRead] at hp; exact (execLnkCounterRead_keeps (.of rfl) (keeps_refl _ s)).same h hp
  | rteLoad => rw [exec_rteLoad] at h; rw [touched_rteLoad] at hp; exact (execRteLoad_keeps (.of rfl) (keeps_refl _ s)).same h hp
  | rteLoadDone => rw [exec_rteLoadDone] at h; rw [touched_rteLoadDone] at hp; exact (execRteLoadDone_keeps (.of rfl) (keeps_refl _ s)).same h hp
  | rteFlip => rw [exec_rteFlip] at h; rw [touched_rteFlip] at hp; exact (execRteFlip_keeps (.of rfl) (keeps_refl _ s)).same h hp
  | rteCfgWrite => rw [exec_rteCfgWrite] at h; rw [touched_rteCfgWrite] at hp; exact (execRteCfgWrite_keeps (.of rfl) (keeps_refl _ s)).same h hp
  | rteTimersWrite => rw [exec_rteTimersWrite] at h; rw [touched_rteTimersWrite] at hp; exact (execRteTimersWrite_keeps (.of rfl) (keeps_refl _ s)).same h hp
  | rteCounterRead => rw [exec_rteCounterRead] at h; rw [touched_rteCounterRead] at hp; exact (execRteCounterRead_keeps (.of rfl) (keeps_refl _ s)).same h hp
  | helloRecv => rw [exec_helloRecv] at h; rw [touched_helloRecv] at hp; exact (execHelloRecv_keeps (.of rfl) (keeps_refl _ s)).same h hp
  | locRecv => rw [exec_locRecv] at h; rw [touched_locRecv] at hp; exact (execLocRecv_keeps (.of rfl) (keeps_refl _ s)).same h hp
  | probeRecv => rw [exec_probeRecv] at h; rw [touched_probeRecv] at hp; exact (execProbeRecv_keeps (.of rfl) (keeps_refl _ s)).same h hp
  | helloSend => rw [exec_helloSend] at h; rw [touched_helloSend] at hp; exact (execHelloSend_keeps (.of rfl) (keeps_refl _ s)).same h hp
  | discElect => rw [exec_discElect] at h; rw [touched_discElect] at hp; exact (execDiscElect_keeps (.of rfl) (keeps_refl _ s)).same h hp
  | discPeerTimeout => rw [exec_discPeerTimeout] at h; rw [touched_discPeerTimeout] at hp; exact (execDiscPeerTimeout_keeps (.of rfl) (keeps_refl _ s)).same h hp
  | dscExpWrite => rw [exec_dscExpWrite] at h; rw [touched_dscExpWrite] at hp; exact (execDscExpWrite_keeps (.of rfl) (keeps_refl _ s)).same h hp
  | dscFabricWrite => rw [exec_dscFabricWrite] at h; rw [touched_dscFabricWrite] at hp; exact (execDscFabricWrite_keeps (.of rfl) (keeps_refl _ s)).same h hp
  | dscIdWrite => rw [exec_dscIdWrite] at h; rw [touched_dscIdWrite] at hp; exact (execDscIdWrite_keeps (.of rfl) (keeps_refl _ s)).same h hp
  | jobAdmission => rw [exec_jobAdmission] at h; rw [touched_jobAdmission] at hp; exact (execJobAdmission_keeps (.of rfl) (keeps_refl _ s)).same h hp
  | collOpen => rw [exec_collOpen] at h; rw [touched_collOpen] at hp; exact (execCollOpen_keeps (.of rfl) (keeps_refl _ s)).same h hp
  | collClose => rw [exec_collClose] at h; rw [touched_collClose] at hp; exact (execCollClose_keeps (.of rfl) (keeps_refl _ s)).same h hp
  | allreduce => rw [exec_allreduce] at h; rw [touched_allreduce] at hp; exact (execAllreduce_keeps (.of rfl) (keeps_refl _ s)).same h hp
  | reduceScatter => rw [exec_reduceScatter] at h; rw [touched_reduceScatter] at hp; exact (execReduceScatter_keeps (.of rfl) (keeps_refl _ s)).same h hp
  | allgather => rw [exec_allgather] at h; rw [touched_allgather] at hp; exact (execAllgather_keeps (.of rfl) (keeps_refl _ s)).same h hp
  | broadcast => rw [exec_broadcast] at h; rw [touched_broadcast] at hp; exact (execBroadcast_keeps (.of rfl) (keeps_refl _ s)).same h hp
  | permute => rw [exec_permute] at h; rw [touched_permute] at hp; exact (execPermute_keeps (.of rfl) (keeps_refl _ s)).same h hp
  | alltoall => rw [exec_alltoall] at h; rw [touched_alltoall] at hp; exact (execAlltoall_keeps (.of rfl) (keeps_refl _ s)).same h hp
  | collCreditRecv => rw [exec_collCreditRecv] at h; rw [touched_collCreditRecv] at hp; exact (execCollCreditRecv_keeps (.of rfl) (keeps_refl _ s)).same h hp
  | collComplete => rw [exec_collComplete] at h; rw [touched_collComplete] at hp; exact (execCollComplete_keeps (.of rfl) (keeps_refl _ s)).same h hp
  | crrFence => rw [exec_crrFence] at h; rw [touched_crrFence] at hp; exact (execCrrFence_keeps (.of rfl) (keeps_refl _ s)).same h hp
  | crrSelftest => rw [exec_crrSelftest] at h; rw [touched_crrSelftest] at hp; exact (execCrrSelftest_keeps (.of rfl) (keeps_refl _ s)).same h hp
  | crrSelftestDone => rw [exec_crrSelftestDone] at h; rw [touched_crrSelftestDone] at hp; exact (execCrrSelftestDone_keeps (.of rfl) (keeps_refl _ s)).same h hp
  | crrReadmit => rw [exec_crrReadmit] at h; rw [touched_crrReadmit] at hp; exact (execCrrReadmit_keeps (.of rfl) (keeps_refl _ s)).same h hp
  | crrCntRead => rw [exec_crrCntRead] at h; rw [touched_crrCntRead] at hp; exact (execCrrCntRead_keeps (.of rfl) (keeps_refl _ s)).same h hp
  | hostReplyFrame => rw [exec_hostReplyFrame] at h; rw [touched_hostReplyFrame] at hp; exact (execHostReplyFrame_keeps (.of rfl) (keeps_refl _ s)).same h hp
  | submitEcho => rw [exec_submitEcho] at h; rw [touched_submitEcho] at hp; exact (execSubmitEcho_keeps (.of rfl) (keeps_refl _ s)).same h hp
  | regOpTimeout => rw [exec_regOpTimeout] at h; rw [touched_regOpTimeout] at hp; exact (execRegOpTimeout_keeps (.of rfl) (keeps_refl _ s)).same h hp
  | nop => rw [exec_nop] at h; rw [touched_nop] at hp; exact (execNop_keeps (.of rfl) (keeps_refl _ s)).same h hp
  | qwait => rw [exec_qwait] at h; rw [touched_qwait] at hp; exact (execQwait_keeps (.of rfl) (keeps_refl _ s)).same h hp
  | hostCmdBadOpcode => rw [exec_hostCmdBadOpcode] at h; rw [touched_hostCmdBadOpcode] at hp; exact (execHostCmdBadOpcode_keeps (.of rfl) (keeps_refl _ s)).same h hp
  | complRecordSend => rw [exec_complRecordSend] at h; rw [touched_complRecordSend] at hp; exact (execComplRecordSend_keeps (.of rfl) (keeps_refl _ s)).same h hp
  | hlFrameGapTimeout => rw [exec_hlFrameGapTimeout] at h; rw [touched_hlFrameGapTimeout] at hp; exact (execHlFrameGapTimeout_keeps (.of rfl) (keeps_refl _ s)).same h hp
  | hlTrainDone => rw [exec_hlTrainDone] at h; rw [touched_hlTrainDone] at hp; exact (execHlTrainDone_keeps (.of rfl) (keeps_refl _ s)).same h hp
  | hlRetrainTick => rw [exec_hlRetrainTick] at h; rw [touched_hlRetrainTick] at hp; exact (execHlRetrainTick_keeps (.of rfl) (keeps_refl _ s)).same h hp
  | hlkSwap => rw [exec_hlkSwap] at h; rw [touched_hlkSwap] at hp; exact (execHlkSwap_keeps (.of rfl) (keeps_refl _ s)).same h hp
  | hlkRetrain => rw [exec_hlkRetrain] at h; rw [touched_hlkRetrain] at hp; exact (execHlkRetrain_keeps (.of rfl) (keeps_refl _ s)).same h hp
  | hlkFence => rw [exec_hlkFence] at h; rw [touched_hlkFence] at hp; exact (execHlkFence_keeps (.of rfl) (keeps_refl _ s)).same h hp
  | hlkCntRead => rw [exec_hlkCntRead] at h; rw [touched_hlkCntRead] at hp; exact (execHlkCntRead_keeps (.of rfl) (keeps_refl _ s)).same h hp
  | sqCfgWrite => rw [exec_sqCfgWrite] at h; rw [touched_sqCfgWrite] at hp; exact (execSqCfgWrite_keeps (.of rfl) (keeps_refl _ s)).same h hp
  | wmarkWrite => rw [exec_wmarkWrite] at h; rw [touched_wmarkWrite] at hp; exact (execWmarkWrite_keeps (.of rfl) (keeps_refl _ s)).same h hp
  | errInject => rw [exec_errInject] at h; rw [touched_errInject] at hp; exact (execErrInject_keeps (.of rfl) (keeps_refl _ s)).same h hp
  | evtSelWrite => rw [exec_evtSelWrite] at h; rw [touched_evtSelWrite] at hp; exact (execEvtSelWrite_keeps (.of rfl) (keeps_refl _ s)).same h hp
  | evtSelRead => rw [exec_evtSelRead] at h; rw [touched_evtSelRead] at hp; exact (execEvtSelRead_keeps (.of rfl) (keeps_refl _ s)).same h hp
  | taintBackstop => rw [exec_taintBackstop] at h; rw [touched_taintBackstop] at hp; exact (execTaintBackstop_keeps (.of rfl) (keeps_refl _ s)).same h hp
  | abortComplete => rw [exec_abortComplete] at h; rw [touched_abortComplete] at hp; exact (execAbortComplete_keeps (.of rfl) (keeps_refl _ s)).same h hp
  | abortRelayResend => rw [exec_abortRelayResend] at h; rw [touched_abortRelayResend] at hp; exact (execAbortRelayResend_keeps (.of rfl) (keeps_refl _ s)).same h hp
  | rcvOosack => rw [exec_rcvOosack] at h; rw [touched_rcvOosack] at hp; exact (execRcvOosack_keeps (.of rfl) (keeps_refl _ s)).same h hp
  | rcvJobidWrite => rw [exec_rcvJobidWrite] at h; rw [touched_rcvJobidWrite] at hp; exact (execRcvJobidWrite_keeps (.of rfl) (keeps_refl _ s)).same h hp
  | rcvAbstatRead => rw [exec_rcvAbstatRead] at h; rw [touched_rcvAbstatRead] at hp; exact (execRcvAbstatRead_keeps (.of rfl) (keeps_refl _ s)).same h hp
  | dumpRead => rw [exec_dumpRead] at h; rw [touched_dumpRead] at hp; exact (execDumpRead_keeps (.of rfl) (keeps_refl _ s)).same h hp
  | evlLostRead => rw [exec_evlLostRead] at h; rw [touched_evlLostRead] at hp; exact (execEvlLostRead_keeps (.of rfl) (keeps_refl _ s)).same h hp
  | lseal => rw [exec_lseal] at h; rw [touched_lseal] at hp; exact (execLseal_keeps (.of rfl) (keeps_refl _ s)).same h hp
  | gstepWrite => rw [exec_gstepWrite] at h; rw [touched_gstepWrite] at hp; exact (execGstepWrite_keeps (.of rfl) (keeps_refl _ s)).same h hp
  | ldgGeomWrite => rw [exec_ldgGeomWrite] at h; rw [touched_ldgGeomWrite] at hp; exact (execLdgGeomWrite_keeps (.of rfl) (keeps_refl _ s)).same h hp
  | ckmarkStart => rw [exec_ckmarkStart] at h; rw [touched_ckmarkStart] at hp; exact (execCkmarkStart_keeps (.of rfl) (keeps_refl _ s)).same h hp
  | ckmarkEnd => rw [exec_ckmarkEnd] at h; rw [touched_ckmarkEnd] at hp; exact (execCkmarkEnd_keeps (.of rfl) (keeps_refl _ s)).same h hp
  | ckmarkEmpty => rw [exec_ckmarkEmpty] at h; rw [touched_ckmarkEmpty] at hp; exact (execCkmarkEmpty_keeps (.of rfl) (keeps_refl _ s)).same h hp
  | ldgCkWrite => rw [exec_ldgCkWrite] at h; rw [touched_ldgCkWrite] at hp; exact (execLdgCkWrite_keeps (.of rfl) (keeps_refl _ s)).same h hp
  | ckRecompute => rw [exec_ckRecompute] at h; rw [touched_ckRecompute] at hp; exact (execCkRecompute_keeps (.of rfl) (keeps_refl _ s)).same h hp
  | sstRecordWrite => rw [exec_sstRecordWrite] at h; rw [touched_sstRecordWrite] at hp; exact (execSstRecordWrite_keeps (.of rfl) (keeps_refl _ s)).same h hp
  | sstBankErase => rw [exec_sstBankErase] at h; rw [touched_sstBankErase] at hp; exact (execSstBankErase_keeps (.of rfl) (keeps_refl _ s)).same h hp
  | sstCompact => rw [exec_sstCompact] at h; rw [touched_sstCompact] at hp; exact (execSstCompact_keeps (.of rfl) (keeps_refl _ s)).same h hp
  | sstRselWrite => rw [exec_sstRselWrite] at h; rw [touched_sstRselWrite] at hp; exact (execSstRselWrite_keeps (.of rfl) (keeps_refl _ s)).same h hp
  | sstRdataRead => rw [exec_sstRdataRead] at h; rw [touched_sstRdataRead] at hp; exact (execSstRdataRead_keeps (.of rfl) (keeps_refl _ s)).same h hp
  | pwrTick => rw [exec_pwrTick] at h; rw [touched_pwrTick] at hp; exact (execPwrTick_keeps (.of rfl) (keeps_refl _ s)).same h hp
  | tjcapStep => rw [exec_tjcapStep] at h; rw [touched_tjcapStep] at hp; exact (execTjcapStep_keeps (.of rfl) (keeps_refl _ s)).same h hp
  | bmBmlimWrite => rw [exec_bmBmlimWrite] at h; rw [touched_bmBmlimWrite] at hp; exact (execBmBmlimWrite_keeps (.of rfl) (keeps_refl _ s)).same h hp
  | pwrCaplogRead => rw [exec_pwrCaplogRead] at h; rw [touched_pwrCaplogRead] at hp; exact (execPwrCaplogRead_keeps (.of rfl) (keeps_refl _ s)).same h hp
  | droopWarnAssert => rw [exec_droopWarnAssert] at h; rw [touched_droopWarnAssert] at hp; exact (execDroopWarnAssert_keeps (.of rfl) (keeps_refl _ s)).same h hp
  | droopWarnEnd => rw [exec_droopWarnEnd] at h; rw [touched_droopWarnEnd] at hp; exact (execDroopWarnEnd_keeps (.of rfl) (keeps_refl _ s)).same h hp
  | drpCntRead => rw [exec_drpCntRead] at h; rw [touched_drpCntRead] at hp; exact (execDrpCntRead_keeps (.of rfl) (keeps_refl _ s)).same h hp
  | bmShutdown => rw [exec_bmShutdown] at h; rw [touched_bmShutdown] at hp; exact (execBmShutdown_keeps (.of rfl) (keeps_refl _ s)).same h hp
  | bmShutdownDone => rw [exec_bmShutdownDone] at h; rw [touched_bmShutdownDone] at hp; exact (execBmShutdownDone_keeps (.of rfl) (keeps_refl _ s)).same h hp
  | bootLoadBegin => rw [exec_bootLoadBegin] at h; rw [touched_bootLoadBegin] at hp; exact (execBootLoadBegin_keeps (.of rfl) (keeps_refl _ s)).same h hp
  | bootLoaddata => rw [exec_bootLoaddata] at h; rw [touched_bootLoaddata] at hp; exact (execBootLoaddata_keeps (.of rfl) (keeps_refl _ s)).same h hp
  | bootLoadEnd => rw [exec_bootLoadEnd] at h; rw [touched_bootLoadEnd] at hp; exact (execBootLoadEnd_keeps (.of rfl) (keeps_refl _ s)).same h hp
  | imageVerifyDone => rw [exec_imageVerifyDone] at h; rw [touched_imageVerifyDone] at hp; exact (execImageVerifyDone_keeps (.of rfl) (keeps_refl _ s)).same h hp
  | fuseRaiseSvn => rw [exec_fuseRaiseSvn] at h; rw [touched_fuseRaiseSvn] at hp; exact (execFuseRaiseSvn_keeps (.of rfl) (keeps_refl _ s)).same h hp
  | fuseRevoke => rw [exec_fuseRevoke] at h; rw [touched_fuseRevoke] at hp; exact (execFuseRevoke_keeps (.of rfl) (keeps_refl _ s)).same h hp
  | fuseBurnDone => rw [exec_fuseBurnDone] at h; rw [touched_fuseBurnDone] at hp; exact (execFuseBurnDone_keeps (.of rfl) (keeps_refl _ s)).same h hp
  | idtreeDone => rw [exec_idtreeDone] at h; rw [touched_idtreeDone] at hp; exact (execIdtreeDone_keeps (.of rfl) (keeps_refl _ s)).same h hp
  | attestGo => rw [exec_attestGo] at h; rw [touched_attestGo] at hp; exact (execAttestGo_keeps (.of rfl) (keeps_refl _ s)).same h hp
  | attestDone => rw [exec_attestDone] at h; rw [touched_attestDone] at hp; exact (execAttestDone_keeps (.of rfl) (keeps_refl _ s)).same h hp
  | secRselWrite => rw [exec_secRselWrite] at h; rw [touched_secRselWrite] at hp; exact (execSecRselWrite_keeps (.of rfl) (keeps_refl _ s)).same h hp
  | secRdataRead => rw [exec_secRdataRead] at h; rw [touched_secRdataRead] at hp; exact (execSecRdataRead_keeps (.of rfl) (keeps_refl _ s)).same h hp
  | testEnter => rw [exec_testEnter] at h; rw [touched_testEnter] at hp; exact (execTestEnter_keeps (.of rfl) (keeps_refl _ s)).same h hp
  | tstTokenWrite => rw [exec_tstTokenWrite] at h; rw [touched_tstTokenWrite] at hp; exact (execTstTokenWrite_keeps (.of rfl) (keeps_refl _ s)).same h hp
  | testDone => rw [exec_testDone] at h; rw [touched_testDone] at hp; exact (execTestDone_keeps (.of rfl) (keeps_refl _ s)).same h hp
  | jtagTapReset => rw [exec_jtagTapReset] at h; rw [touched_jtagTapReset] at hp; exact (execJtagTapReset_keeps (.of rfl) (keeps_refl _ s)).same h hp
  | extest => rw [exec_extest] at h; rw [touched_extest] at hp; exact (execExtest_keeps (.of rfl) (keeps_refl _ s)).same h hp
  | samplePreload => rw [exec_samplePreload] at h; rw [touched_samplePreload] at hp; exact (execSamplePreload_keeps (.of rfl) (keeps_refl _ s)).same h hp
  | idcode => rw [exec_idcode] at h; rw [touched_idcode] at hp; exact (execIdcode_keeps (.of rfl) (keeps_refl _ s)).same h hp
  | clamp => rw [exec_clamp] at h; rw [touched_clamp] at hp; exact (execClamp_keeps (.of rfl) (keeps_refl _ s)).same h hp
  | highz => rw [exec_highz] at h; rw [touched_highz] at hp; exact (execHighz_keeps (.of rfl) (keeps_refl _ s)).same h hp
  | extestPulse => rw [exec_extestPulse] at h; rw [touched_extestPulse] at hp; exact (execExtestPulse_keeps (.of rfl) (keeps_refl _ s)).same h hp
  | extestTrain => rw [exec_extestTrain] at h; rw [touched_extestTrain] at hp; exact (execExtestTrain_keeps (.of rfl) (keeps_refl _ s)).same h hp
  | tsttoken => rw [exec_tsttoken] at h; rw [touched_tsttoken] at hp; exact (execTsttoken_keeps (.of rfl) (keeps_refl _ s)).same h hp
  | bypass => rw [exec_bypass] at h; rw [touched_bypass] at hp; exact (execBypass_keeps (.of rfl) (keeps_refl _ s)).same h hp
  | hlTrainFail => rw [exec_hlTrainFail] at h; rw [touched_hlTrainFail] at hp; exact (execHlTrainFail_keeps (.of rfl) (keeps_refl _ s)).same h hp
  | phaseReady => rw [exec_phaseReady] at h; rw [touched_phaseReady] at hp; exact (execPhaseReady_keeps (.of rfl) (keeps_refl _ s)).same h hp
  | vcmdDone => rw [exec_vcmdDone] at h; rw [touched_vcmdDone] at hp; exact (execVcmdDone_keeps (.of rfl) (keeps_refl _ s)).same h hp
  | downWindowExpire => rw [exec_downWindowExpire] at h; rw [touched_downWindowExpire] at hp; exact (execDownWindowExpire_keeps (.of rfl) (keeps_refl _ s)).same h hp

/-! ## Steps -/

theorem tick_pending (s : State) : (tick s).pending = s.pending :=
  (tick_good (pq := (s.pending, False)) ⟨rfl, False.elim⟩).1

theorem tick_canonical_tapOk {s : State} (hc : Canonical s) (ht : TapOk s) : Canonical (tick s) ∧ TapOk (tick s) :=
  (tick_good (pq := (s.pending, True)) ⟨rfl, fun _ => ⟨hc, ht⟩⟩).2 trivial

theorem step_of_pending_cons {c : Instr} {rest : List Instr} {s : State} (h : s.pending = c :: rest) : step s = exec c (s.withPending rest) := by
  rw [step, h]
  rfl

theorem step_of_pending_nil {s : State} (h : s.pending = []) : step s = .next (tick s) := by
  rw [step, h]

/-- Settles O1. -/
theorem stepTakesFront : Obligations.StepTakesFront := by
  unfold Obligations.StepTakesFront
  exact ⟨fun c rest s h => step_of_pending_cons h, fun s h => ⟨step_of_pending_nil h, (tick_pending s).trans h⟩⟩

/-- Settles O5: a clock edge and a command keep the canonical forms and the held reset, and a step takes at most the front of the queue away. -/
theorem invariantKept : Obligations.InvariantKept := by
  unfold Obligations.InvariantKept
  rintro s t ⟨hcanon, htap, hwf⟩ hstep
  cases hq : s.pending with
  | nil =>
    rw [step_of_pending_nil hq] at hstep
    obtain rfl : tick s = t := by injection hstep
    obtain ⟨hcanon', htap'⟩ := tick_canonical_tapOk hcanon htap
    exact ⟨hcanon', htap', by rwa [tick_pending]⟩
  | cons c rest =>
    rw [step_of_pending_cons hq] at hstep
    obtain ⟨hcanon', htap'⟩ := exec_canonical_tapOk (s := s.withPending rest) hcanon htap hstep
    refine ⟨hcanon', htap', fun d hd => hwf d ?_⟩
    rw [exec_pending hstep, State.withPending_pending] at hd
    rw [hq]
    exact List.mem_cons_of_mem c hd

/-! ## The state after reset -/

theorem inv_reset : Inv State.reset := ⟨canonical_reset, tapOk_reset, fun _ h => absurd h List.not_mem_nil⟩

theorem KMap.find_eq_none_of_not_mem {α : Type} {m : KMap α} {k : Nat} (h : k ∉ m.map (·.1)) : m.find k = none := by
  induction m with
  | nil => rfl
  | cons e t ih =>
    rw [List.map_cons, List.mem_cons, not_or] at h
    rw [KMap.find, if_neg fun e => h.1 e.symm, ih h.2]

/-- A register that the choice of reset values does not list holds its Reset column (R17). -/
theorem reset_reg_of_not_listed {k : Nat} (h : k ∉ regsAtReset.map (·.1)) : State.reset.reg k = resetOf k := by
  rw [State.reg, KMap.get, State.reset, KMap.find_eq_none_of_not_mem h, Option.getD_none]

/-- Every RUN bit of the 48 clusters is 0 after reset. -/
theorem reset_cluCoreRun : ∀ k < 48, State.reset.fld (Pg.clu k) F.cluCoreRun = 0 := by decide

theorem clusterOfSlot_lt {p : Nat} (h : p < 336) : clusterOfSlot p < 48 := by
  unfold clusterOfSlot
  split <;> omega

theorem reset_coreRuns {c : Nat} (h : c < 336) : State.reset.coreRuns c = false := by
  rw [State.coreRuns, if_pos h, reset_cluCoreRun _ (clusterOfSlot_lt h), Nat.zero_testBit, Bool.and_false]

/-- Settles O6. -/
theorem afterReset : Obligations.AfterReset := by
  unfold Obligations.AfterReset
  exact ⟨inv_reset, rfl, fun _ => reset_reg_of_not_listed, fun _ => rfl, fun _ => rfl, fun _ => rfl, fun _ => rfl, fun _ => reset_coreRuns,
    rfl, rfl, rfl, rfl, rfl, rfl, rfl, rfl⟩


end Sys2Proof.Machine
end

section
/-! Access codes (R15, R16): the masks of a register's row do not overlap, so that each bit of a write follows one code. -/

namespace Sys2Proof.Machine

/-- No bit of a row has two of the codes RW, W1C and W1S. -/
def RegRow.oneCode (r : RegRow) : Bool := (r.rw &&& r.w1c == 0) && (r.rw &&& r.w1s == 0) && (r.w1c &&& r.w1s == 0)

theorem catalogue_oneCode : ((List.range 64).all fun b => (Cat.block b).all RegRow.oneCode) = true ∧ Cat.com.all RegRow.oneCode = true := by
  decide

theorem rowOf_oneCode {k : Nat} {r : RegRow} (h : rowOf k = some r) : r.oneCode = true := by
  obtain ⟨hblocks, hcom⟩ := catalogue_oneCode
  have hblk : (Cat.block (pgBlk k)).all RegRow.oneCode = true :=
    List.all_eq_true.mp hblocks _ (List.mem_range.mpr (Nat.mod_lt _ (by decide)))
  unfold rowOf at h
  split at h
  next q hq =>
    obtain rfl : q = r := by injection h
    exact List.all_eq_true.mp hblk _ (List.mem_of_find?_eq_some hq)
  next => exact List.all_eq_true.mp hcom _ (List.mem_of_find?_eq_some h)

/-- Masks with no common bit: a bit of the one is no bit of the other. -/
theorem testBit_eq_false_of_and_eq_zero {a b i : Nat} (h : a &&& b = 0) (ha : a.testBit i = true) : b.testBit i = false := by
  have e : (a &&& b).testBit i = false := by rw [h, Nat.zero_testBit]
  rwa [Nat.testBit_and, ha, Bool.true_and] at e

theorem getLsbD_mask (m : Nat) {i : Nat} (h : i < 64) : (BitVec.ofNat 64 m).getLsbD i = m.testBit i := by
  rw [BitVec.getLsbD_ofNat, decide_eq_true h, Bool.true_and]

/-- One bit of a write, by the masks of its register. -/
theorem RegRow.getLsbD_apply (r : RegRow) (old data : W64) {i : Nat} (h : i < 64) :
    (r.apply old data).getLsbD i =
      (((old.getLsbD i && !r.rw.testBit i) || (data.getLsbD i && r.rw.testBit i)) && !(data.getLsbD i && r.w1c.testBit i) ||
        (data.getLsbD i && r.w1s.testBit i)) := by
  simp only [RegRow.apply, BitVec.getLsbD_or, BitVec.getLsbD_and, BitVec.getLsbD_not, getLsbD_mask _ h, decide_eq_true h, Bool.true_and]

theorem State.reg_plainWrite {k : Nat} {r : RegRow} (h : rowOf k = some r) (s : State) (data : W64) :
    (s.plainWrite k data).reg k = r.apply (s.reg k) data := by
  simp only [State.plainWrite, h, State.reg_setReg_same]

/-- Settles O8: the bit of the write, with the one code that the row gives it. -/
theorem accessCodes : Obligations.AccessCodes := by
  unfold Obligations.AccessCodes
  intro k r data s i hrow hi
  have hcode := rowOf_oneCode hrow
  simp only [RegRow.oneCode, Bool.and_eq_true, beq_iff_eq] at hcode
  obtain ⟨⟨hrc, hrs⟩, hcs⟩ := hcode
  rw [State.reg_plainWrite hrow, RegRow.getLsbD_apply _ _ _ hi]
  refine ⟨fun h => ?rw, fun h => ?w1c, fun h => ?w1s, fun h1 h2 h3 => ?ro⟩
  case rw => simp [h, testBit_eq_false_of_and_eq_zero hrc h, testBit_eq_false_of_and_eq_zero hrs h]
  case w1c => simp [h, testBit_eq_false_of_and_eq_zero ((Nat.and_comm _ _).trans hrc) h, testBit_eq_false_of_and_eq_zero hcs h]
  case w1s =>
    simp [h, testBit_eq_false_of_and_eq_zero ((Nat.and_comm _ _).trans hrs) h,
      testBit_eq_false_of_and_eq_zero ((Nat.and_comm _ _).trans hcs) h]
  case ro => simp [h1, h2, h3]

end Sys2Proof.Machine
end

section
/-! Bytes of memory and of scratch (R156, R158, R189): what a run of bytes reads back, and what a store to cluster SRAM changes. -/

namespace Sys2Proof.Machine

/-! ## Little-endian numbers -/

theorem leBytes_succ (rd : Nat → Byte) (a n : Nat) : leBytes rd a (n + 1) = (rd a).toNat + 256 * leBytes rd (a + 1) n := by
  simp only [leBytes, List.range_succ_eq_map, List.foldr_cons, List.foldr_map, Nat.add_zero, Nat.succ_eq_add_one, Nat.add_assoc, Nat.add_comm 1]

/-- n bytes that are those of a number, lowest first, are the number cut to n bytes. -/
theorem leBytes_of_natBytes {rd : Nat → Byte} {a n v : Nat} (h : ∀ i, i < n → rd (a + i) = BitVec.ofNat 8 (v >>> (8 * i))) :
    leBytes rd a n = v % 2 ^ (8 * n) := by
  induction n generalizing a v with
  | zero => simp [leBytes, Nat.mod_one]
  | succ n ih =>
    have hfirst : (rd a).toNat = v % 256 := by
      have h0 := h 0 (Nat.succ_pos n)
      rw [Nat.add_zero, Nat.mul_zero, Nat.shiftRight_zero] at h0
      rw [h0, BitVec.toNat_ofNat]
    have hrest : leBytes rd (a + 1) n = v / 256 % 2 ^ (8 * n) := by
      refine ih fun i hi => ?_
      have hi1 := h (i + 1) (Nat.succ_lt_succ hi)
      rw [Nat.mul_add, Nat.mul_one, Nat.add_comm (8 * i) 8, Nat.shiftRight_add] at hi1
      rw [Nat.add_assoc, Nat.add_comm 1 i, hi1, Nat.shiftRight_eq_div_pow v 8]
    rw [leBytes_succ, hfirst, hrest, Nat.mul_succ, Nat.pow_add, Nat.mul_comm (2 ^ (8 * n)), Nat.mod_mul]

theorem length_natBytes (n v : Nat) : (natBytes n v).length = n := by
  rw [natBytes, List.length_map, List.length_range]

theorem getD_natBytes {n i : Nat} (v : Nat) (h : i < n) : (natBytes n v).getD i 0 = BitVec.ofNat 8 (v >>> (8 * i)) := by
  rw [natBytes, List.getD_eq_getElem _ _ (by simpa using h), List.getElem_map, List.getElem_range]

/-! ## A run of bytes in a map -/

/-- Sets bytes from a key on. -/
def setBytes (m : KMap Byte) (k : Nat) (bs : List Byte) : KMap Byte :=
  (addrBytes k bs).foldl (fun m e => KMap.set unlisted m e.1 e.2) m

theorem addrBytes_concat (k : Nat) (bs : List Byte) (b : Byte) : addrBytes k (bs ++ [b]) = addrBytes k bs ++ [(k + bs.length, b)] := by
  simp [addrBytes, List.zipIdx_append]

theorem setBytes_concat (m : KMap Byte) (k : Nat) (bs : List Byte) (b : Byte) :
    setBytes m k (bs ++ [b]) = KMap.set unlisted (setBytes m k bs) (k + bs.length) b := by
  rw [setBytes, addrBytes_concat, List.foldl_append]
  rfl

theorem get_setBytes_outside (m : KMap Byte) {k j : Nat} (bs : List Byte) (h : j < k ∨ k + bs.length ≤ j) :
    KMap.get unlisted (setBytes m k bs) j = KMap.get unlisted m j := by
  induction bs using List.reverseRecOn with
  | nil => rfl
  | append_singleton bs b ih =>
    rw [List.length_append, List.length_singleton] at h
    rw [setBytes_concat, KMap.get_set_other _ _ _ _ (by omega), ih (by omega)]

theorem get_setBytes_inside (m : KMap Byte) (k : Nat) {bs : List Byte} {i : Nat} (h : i < bs.length) :
    KMap.get unlisted (setBytes m k bs) (k + i) = bs.getD i 0 := by
  induction bs using List.reverseRecOn with
  | nil => exact absurd h (Nat.not_lt_zero i)
  | append_singleton bs b ih =>
    rw [List.length_append, List.length_singleton] at h
    rw [setBytes_concat]
    by_cases hi : i = bs.length
    · subst hi
      rw [KMap.get_set_same, List.getD_append_right _ _ _ _ (Nat.le_refl _), Nat.sub_self]
      rfl
    · rw [KMap.get_set_other _ _ _ _ (by omega), ih (by omega), List.getD_append _ _ _ _ (by omega)]

/-! ## Stores to cluster SRAM -/

/-- A byte of cluster SRAM is kept at its own address. -/
theorem Place.key_cluster (c a : Nat) : (Place.cluster c).key a = a := rfl

/-- Canonical memory with a byte set. -/
theorem Memory.wf_setByte {m : Mem} (k : Nat) (b : Byte) (h : Memory.wf m = true) :
    Memory.wf { m with bytes := KMap.set unlisted m.bytes k b } = true := by
  simp only [Memory.wf, Bool.and_eq_true] at h ⊢
  obtain ⟨⟨⟨hb, hf⟩, hp⟩, hl⟩ := h
  exact ⟨⟨⟨KMap.wf_set (fun _ => unlisted) _ _ _ hb, hf⟩, hp⟩, hl⟩

/-- Canonical memory with a poison bit set. -/
theorem Memory.wf_setPoison {m : Mem} (k : Nat) (b : Bool) (h : Memory.wf m = true) :
    Memory.wf { m with poison := KMap.set false m.poison k b } = true := by
  simp only [Memory.wf, Bool.and_eq_true] at h ⊢
  obtain ⟨⟨⟨hb, hf⟩, hp⟩, hl⟩ := h
  exact ⟨⟨⟨hb, hf⟩, KMap.wf_set (fun _ => false) _ _ _ hp⟩, hl⟩

/-- One byte stored to cluster SRAM: the byte changes, and of the rest at most the word's poison bit. -/
theorem State.markStore_putByte_cluster (s : State) (c a : Nat) (b : Byte) (touched : List Nat) :
    ∃ m, (s.putByte a b).markStore (.cluster c) a touched false = s.withMem m ∧ m.bytes = KMap.set unlisted s.mem.bytes a b ∧
      (Memory.wf s.mem = true → Memory.wf m = true) := by
  unfold State.markStore
  rw [if_pos (show (s.putByte a b).hasWordBits (.cluster c) = true from rfl)]
  dsimp only
  split
  · exact ⟨_, rfl, rfl, fun h => Memory.wf_setPoison _ _ (Memory.wf_setByte a b h)⟩
  · exact ⟨_, rfl, rfl, Memory.wf_setByte a b⟩

/-- A store to the SRAM of a cluster in service: of the state only the memory changes, its bytes are those stored over those before,
and the canonical form is kept. -/
theorem State.storeBytes_cluster {s : State} {bs : List (Nat × Byte)} {c : Nat} (hp : ∀ e ∈ bs, s.place e.1 = some (.cluster c))
    (hf : s.placeFenced (.cluster c) = false) :
    ∃ m, s.storeBytes bs false = s.withMem m ∧ m.bytes = bs.foldl (fun m e => KMap.set unlisted m e.1 e.2) s.mem.bytes ∧
      (Memory.wf s.mem = true → Memory.wf m = true) := by
  simp only [State.storeBytes, Bool.false_eq_true, if_false]
  generalize bs.map (·.1) = touched
  induction bs generalizing s with
  | nil => exact ⟨s.mem, rfl, rfl, id⟩
  | cons e t ih =>
    obtain ⟨m1, hs1, hb1, hwf1⟩ := s.markStore_putByte_cluster c e.1 e.2 touched
    obtain ⟨m2, hs2, hb2, hwf2⟩ := ih (s := s.withMem m1) (fun x hx => hp x (List.mem_cons_of_mem e hx)) hf
    refine ⟨m2, ?_, ?_, fun h => hwf2 (hwf1 h)⟩
    · simp only [List.foldl_cons, hp e List.mem_cons_self, Place.key_cluster, hf, Bool.false_eq_true, if_false, hs1, hs2]
      rfl
    · rw [hb2, State.withMem_mem, hb1, List.foldl_cons]

theorem fst_of_mem_addrBytes {a : Nat} {bs : List Byte} {e : Nat × Byte} (h : e ∈ addrBytes a bs) : ∃ i, i < bs.length ∧ e.1 = a + i := by
  obtain ⟨⟨b, i⟩, hbi, rfl⟩ := List.mem_map.mp h
  exact ⟨i, by simpa using List.snd_lt_of_mem_zipIdx hbi, rfl⟩

/-- A number of n bytes stored to the SRAM of a cluster in service. -/
theorem State.storeNat_cluster {s : State} {l n c : Nat} (v : Nat) (hp : ∀ i, i < n → s.place (l + i) = some (.cluster c))
    (hf : s.placeFenced (.cluster c) = false) :
    ∃ m, s.storeNat l n v = s.withMem m ∧ m.bytes = setBytes s.mem.bytes l (natBytes n v) ∧ (Memory.wf s.mem = true → Memory.wf m = true) := by
  refine State.storeBytes_cluster (fun e he => ?_) hf
  obtain ⟨i, hi, hei⟩ := fst_of_mem_addrBytes he
  rw [hei]
  exact hp i (by rwa [length_natBytes] at hi)

theorem State.byteAt_cluster {s : State} {a c : Nat} (h : s.place a = some (.cluster c)) : s.byteAt a = s.byteKey a := by
  simp only [State.byteAt, h, Place.key_cluster]

/-- The number stored is the number loaded from the same bytes. -/
theorem State.loadNat_withMem_setBytes {s : State} {l n c v : Nat} {m : Mem} (hp : ∀ i, i < n → s.place (l + i) = some (.cluster c))
    (hm : m.bytes = setBytes s.mem.bytes l (natBytes n v)) : (s.withMem m).loadNat l n = v % 2 ^ (8 * n) := by
  refine leBytes_of_natBytes fun i hi => ?_
  have hplace : (s.withMem m).place (l + i) = some (.cluster c) := hp i hi
  rw [State.byteAt_cluster hplace, State.byteKey, State.withMem_mem, hm, get_setBytes_inside _ _ (by rwa [length_natBytes]), getD_natBytes v hi]

theorem State.byteKey_withMem_setBytes {s : State} {l n v k : Nat} {m : Mem} (hm : m.bytes = setBytes s.mem.bytes l (natBytes n v))
    (h : k < l ∨ l + n ≤ k) : (s.withMem m).byteKey k = s.byteKey k := by
  rw [State.byteKey, State.withMem_mem, hm, get_setBytes_outside _ _ (by rwa [length_natBytes])]
  rfl

/-- Settles O9: the store sets the bytes of the number in their places, and the load puts them together again. -/
theorem storedBytesReadBack : Obligations.StoredBytesReadBack := by
  unfold Obligations.StoredBytesReadBack
  intro s l n v c hp hf
  obtain ⟨m, hs, hm, hwf⟩ := State.storeNat_cluster v hp hf
  rw [hs]
  exact ⟨State.loadNat_withMem_setBytes hp hm, fun k => State.byteKey_withMem_setBytes hm, hwf⟩

end Sys2Proof.Machine
end

section
/-! The event ring of a die (R424, R425): an event as the entry of its record, the loss of the oldest record of a full ring, the move of
the write count and, for a severe one, the entry of the error log; what each of these reads back. -/

namespace Sys2Proof.Machine

/-! ## Requests of a record of the survival store -/

/-- A request changes one register, the next SEQ. -/
theorem State.reg_sstAdd_other (s : State) {k : Nat} (typ key : Nat) (payload : List W64) (h : k ≠ Pg.sst + F.sstSeqNext.off) :
    (s.sstAdd typ key payload).reg k = s.reg k := State.reg_setReg_other s _ h

theorem State.fld_sstAdd_other (s : State) {p : Nat} {f : Fld} (typ key : Nat) (payload : List W64) (h : p + f.off ≠ Pg.sst + F.sstSeqNext.off) :
    (s.sstAdd typ key payload).fld p f = s.fld p f := by
  rw [State.fld, State.reg_sstAdd_other _ _ _ _ h, State.fld]

theorem State.bitF_sstAdd_other (s : State) {p : Nat} {f : Fld} (typ key : Nat) (payload : List W64) (h : p + f.off ≠ Pg.sst + F.sstSeqNext.off) :
    (s.sstAdd typ key payload).bitF p f = s.bitF p f := by
  rw [State.bitF, State.reg_sstAdd_other _ _ _ _ h, State.bitF]

theorem State.sstAdd_events (s : State) (typ key : Nat) (payload : List W64) : (s.sstAdd typ key payload).events = s.events := rfl

theorem State.length_wait_sstAdd (s : State) (typ key : Nat) (payload : List W64) :
    (s.sstAdd typ key payload).sst.wait.length = s.sst.wait.length + 1 := by
  simp [State.sstAdd, State.setFld]

/-- The page of a die's event ring is not the page of the survival store. -/
theorem evl_ne_sst {d o : Nat} (h : o < 2 ^ 12) : Pg.evl d + o ≠ Pg.sst + F.sstSeqNext.off := by
  simp only [Pg.evl, Pg.sst, pg]
  omega

/-! ## The steps of an event -/

/-- The words of an event's record (R424). -/
def State.eventWords (s : State) (d code ctx unit d0 : Nat) (d1 : W64) : List W64 :=
  [Bits.make [(63, 48, code), (47, 40, ctx), (39, 38, (evInfo code).1), (37, 35, (evInfo code).2), (33, 32, d),
      (31, 0, s.fld (Pg.evl d) F.evlPtrWr)],
    BitVec.ofNat 64 (s.now d), Bits.make [(63, 32, unit), (31, 0, d0)], d1]

/-- The record in its place of the ring, with the mark of a free-running stamp behind it. -/
def State.enterRing (s : State) (d : Nat) (w : List W64) : State :=
  s.withEvents (KMap.set [] s.events (d * 1024 + s.fld (Pg.evl d) F.evlPtrWr % 1024) (w ++ s.freeMark d))

/-- The ring holds 1,024 records that were not read. -/
def ringFull (wr rd : Nat) : Prop := (wr - rd) % 2 ^ 32 = 1024 ∨ (2 ^ 32 + wr - rd) % 2 ^ 32 = 1024

/-- The oldest record is lost: RD passes it, LOST counts it and OVERFLOW says so (R425). -/
def State.loseOldest (s : State) (d ctx : Nat) : State :=
  ((s.setFld (Pg.evl d) F.evlPtrRd ((s.fld (Pg.evl d) F.evlPtrRd + 1) % 2 ^ 32)).addFld (Pg.evl d) F.evlLostCount 1).setErr (Pg.evl d)
    F.evlErrStatOverflow ctx

theorem ringFull_iff {wr rd : Nat} (hw : wr < 2 ^ 32) (hr : rd < 2 ^ 32) : ringFull wr rd ↔ wr = (rd + 1024) % 2 ^ 32 := by
  unfold ringFull
  omega

section
variable {s : State} {d : Nat}

theorem State.fld_enterRing (w : List W64) (p : Nat) (f : Fld) : (s.enterRing d w).fld p f = s.fld p f := rfl

theorem State.loseOldest_events (ctx : Nat) : (s.loseOldest d ctx).events = s.events :=
  (State.setErr_keeps (.of rfl) (State.addFld_keeps (.of rfl) (State.setFld_keeps (.of rfl) (keeps_refl 48 s)))) .events rfl

theorem State.loseOldest_sst (ctx : Nat) : (s.loseOldest d ctx).sst = s.sst :=
  (State.setErr_keeps (.of rfl) (State.addFld_keeps (.of rfl) (State.setFld_keeps (.of rfl) (keeps_refl 48 s)))) .sst rfl

/-- A field of the ring's page outside ERR_STAT and EVT_SEL, after the loss of the oldest record. -/
theorem State.fld_loseOldest (ctx : Nat) {f : Fld} (h1 : f.off ≠ 0x20) (h2 : f.off ≠ 0x38) :
    (s.loseOldest d ctx).fld (Pg.evl d) f =
      ((s.setFld (Pg.evl d) F.evlPtrRd ((s.fld (Pg.evl d) F.evlPtrRd + 1) % 2 ^ 32)).addFld (Pg.evl d) F.evlLostCount 1).fld (Pg.evl d) f :=
  State.fld_setErr_other _ (fun e => h1 (Nat.add_left_cancel e)) (fun e => h2 (Nat.add_left_cancel e))

theorem State.ptrRd_loseOldest (ctx : Nat) :
    (s.loseOldest d ctx).fld (Pg.evl d) F.evlPtrRd = (s.fld (Pg.evl d) F.evlPtrRd + 1) % 2 ^ 32 := by
  rw [State.fld_loseOldest ctx (by decide) (by decide), State.addFld, State.fld_setFld_of_off_ne _ _ _ (by decide),
    State.fld_setFld_same _ _ _ _ (by decide) (by decide)]
  exact Nat.mod_mod _ _

theorem State.lostCount_loseOldest (ctx : Nat) :
    (s.loseOldest d ctx).fld (Pg.evl d) F.evlLostCount = min (2 ^ 32 - 1) (s.fld (Pg.evl d) F.evlLostCount + 1) := by
  rw [State.fld_loseOldest ctx (by decide) (by decide), State.fld_addFld_same _ _ _ _ (by decide) (by decide),
    State.fld_setFld_of_off_ne _ _ _ (by decide)]
  rfl

theorem State.overflow_loseOldest (ctx : Nat) : (s.loseOldest d ctx).bitF (Pg.evl d) F.evlErrStatOverflow = true :=
  State.bitF_setErr_same _ _ _ _ rfl (by decide)

/-- The record enters the ring, past the oldest one when the ring is full. -/
def State.eventEntered (s : State) (d ctx : Nat) (w : List W64) : State :=
  if s.fld (Pg.evl d) F.evlPtrWr = (s.fld (Pg.evl d) F.evlPtrRd + 1024) % 2 ^ 32 then (s.enterRing d w).loseOldest d ctx else s.enterRing d w

theorem State.eventEntered_events (ctx : Nat) (w : List W64) : (s.eventEntered d ctx w).events = (s.enterRing d w).events := by
  unfold State.eventEntered
  split
  · exact State.loseOldest_events ctx
  · rfl

theorem State.eventEntered_sst (ctx : Nat) (w : List W64) : (s.eventEntered d ctx w).sst = s.sst := by
  unfold State.eventEntered
  split
  · exact State.loseOldest_sst ctx
  · rfl

/-- The write count moves on. -/
def State.moveWr (s : State) (d : Nat) (wr : Nat) : State := s.setFld (Pg.evl d) F.evlPtrWr ((wr + 1) % 2 ^ 32)

theorem State.moveWr_events (wr : Nat) : (s.moveWr d wr).events = s.events := State.setReg_events _ _ _

theorem State.moveWr_sst (wr : Nat) : (s.moveWr d wr).sst = s.sst := State.setReg_sst _ _ _

/-- An event of a die that works: its record enters the ring, the count moves on, and the error log takes what it keeps. -/
theorem State.event_of_dieUp (code ctx unit d0 : Nat) (d1 : W64) (h : s.dieUp d = true) :
    s.event d code ctx unit d0 d1 =
      if 4 ≤ (evInfo code).2 ∨ code = Ev.lkDown ∨ code = Ev.strike then
        ((s.eventEntered d ctx (s.eventWords d code ctx unit d0 d1)).moveWr d (s.fld (Pg.evl d) F.evlPtrWr)).sstAdd 0x04
          (d * 2 ^ 32 + s.fld (Pg.evl d) F.evlPtrWr) (s.eventWords d code ctx unit d0 d1)
      else (s.eventEntered d ctx (s.eventWords d code ctx unit d0 d1)).moveWr d (s.fld (Pg.evl d) F.evlPtrWr) := by
  have hrec : s.recDie d = d := if_pos h
  have hfull := ringFull_iff (Bits.get_lt (s.reg (Pg.evl d + F.evlPtrWr.off)) 63 32) (Bits.get_lt (s.reg (Pg.evl d + F.evlPtrRd.off)) 31 0)
  have hentered : s.eventEntered d ctx (s.eventWords d code ctx unit d0 d1) =
      if (s.fld (Pg.evl d) F.evlPtrWr - s.fld (Pg.evl d) F.evlPtrRd) % 2 ^ 32 = 1024 ∨
          (2 ^ 32 + s.fld (Pg.evl d) F.evlPtrWr - s.fld (Pg.evl d) F.evlPtrRd) % 2 ^ 32 = 1024 then
        (s.enterRing d (s.eventWords d code ctx unit d0 d1)).loseOldest d ctx
      else s.enterRing d (s.eventWords d code ctx unit d0 d1) := if_congr hfull.symm rfl rfl
  rw [hentered]
  unfold State.event
  dsimp only
  rw [hrec, h]
  rfl

end

/-- What an event of a die that works leaves: the case of the error log differs in its own record only. -/
structure EventRecorded (s : State) (d ctx : Nat) (w : List W64) (t : State) : Prop where
  events : t.events = (s.enterRing d w).events
  fld : ∀ f : Fld, f.off < 2 ^ 12 → t.fld (Pg.evl d) f = ((s.eventEntered d ctx w).moveWr d (s.fld (Pg.evl d) F.evlPtrWr)).fld (Pg.evl d) f
  bitF : ∀ f : Fld, f.off < 2 ^ 12 → t.bitF (Pg.evl d) f = ((s.eventEntered d ctx w).moveWr d (s.fld (Pg.evl d) F.evlPtrWr)).bitF (Pg.evl d) f

theorem State.event_recorded {s : State} {d : Nat} (code ctx unit d0 : Nat) (d1 : W64) (h : s.dieUp d = true) :
    EventRecorded s d ctx (s.eventWords d code ctx unit d0 d1) (s.event d code ctx unit d0 d1) := by
  rw [State.event_of_dieUp code ctx unit d0 d1 h]
  split
  · refine ⟨?_, fun f hf => State.fld_sstAdd_other _ _ _ _ (evl_ne_sst hf),
      fun f hf => State.bitF_sstAdd_other _ _ _ _ (evl_ne_sst hf)⟩
    rw [State.sstAdd_events, State.moveWr_events, State.eventEntered_events]
  · refine ⟨?_, fun _ _ => rfl, fun _ _ => rfl⟩
    rw [State.moveWr_events, State.eventEntered_events]

/-- Settles O16: an event of a die that works is its record in the ring, the count moved on, and what a full ring loses. -/
theorem eventRing : Obligations.EventRing := by
  unfold Obligations.EventRing
  rintro d code ctx unit d0 d1 s t wr rd hup rfl rfl rfl
  obtain ⟨hevents, hfld, hbit⟩ := State.event_recorded code ctx unit d0 d1 hup
  have hother : ∀ f : Fld, f.off < 2 ^ 12 → (f.off ≠ 0x100 ∨ f.hi < 32) → (s.event d code ctx unit d0 d1).fld (Pg.evl d) f =
      (s.eventEntered d ctx (s.eventWords d code ctx unit d0 d1)).fld (Pg.evl d) f := by
    intro f hf hne
    rw [hfld f hf, State.moveWr, State.fld_setFld_other]
    rcases hne with h | h
    · exact .inl fun e => h (Nat.add_left_cancel e)
    · exact .inr (.inl h)
  refine ⟨?record, fun k hk => ?others, ?count, fun hfull => ⟨?_, ?_, ?_⟩, fun hroom => ⟨?_, ?_⟩, fun hsev => ?log⟩
  case record => rw [hevents, State.enterRing, State.withEvents_events, KMap.get_set_same, State.eventWords]
  case others => rw [hevents, State.enterRing, State.withEvents_events, KMap.get_set_other _ _ _ _ hk]
  case count =>
    rw [hfld _ (by decide), State.moveWr, State.fld_setFld_same _ _ _ _ (by decide) (by decide)]
    exact Nat.mod_mod _ _
  · rw [hother _ (by decide) (.inr (by decide)), State.eventEntered, if_pos hfull, State.ptrRd_loseOldest, State.fld_enterRing]
  · rw [hbit _ (by decide), State.moveWr, State.eventEntered, if_pos hfull, State.bitF_setFld_other _ _ rfl (.inl ?_), State.overflow_loseOldest]
    exact fun e => absurd (Nat.add_left_cancel e) (by decide)
  · rw [hother _ (by decide) (.inl (by decide)), State.eventEntered, if_pos hfull, State.lostCount_loseOldest, State.fld_enterRing]
  · rw [hother _ (by decide) (.inr (by decide)), State.eventEntered, if_neg hroom, State.fld_enterRing]
  · rw [hother _ (by decide) (.inl (by decide)), State.eventEntered, if_neg hroom, State.fld_enterRing]
  case log =>
    rw [State.event_of_dieUp code ctx unit d0 d1 hup, if_pos (.inl hsev), State.length_wait_sstAdd, State.moveWr_sst, State.eventEntered_sst]

end Sys2Proof.Machine
end

section
/-! The lanes of an update unit (R227, R228): one element operation as a step per lane, each on the lane's own registers and streams. -/

namespace Sys2Proof.Machine

/-- The result of an element operation in a lane, on that lane's registers and streams. -/
def Uu.laneRes (x : Uu) (op : UOp) (l : Nat) : LaneRes :=
  op.run (fun n => KMap.get 0 x.e (32 * n + l)) fun st => KMap.get 0 x.inp (32 * st + l)

/-- The registers of all lanes after one lane's result. -/
def writeLane (e : KMap W64) (l : Nat) (r : Option (Nat × W64)) : KMap W64 :=
  match r with
  | some (rd, v) => if rd < 16 then KMap.set 0 e (32 * rd + l) v else e
  | none => e

/-- A lane's step of an element operation. -/
def State.laneStep (u : Nat) (op : UOp) (s : State) (l : Nat) : State :=
  let x := s.uu u
  let inp : LaneIn := fun st => (KMap.get 0 x.inp (32 * st + l), KMap.get false x.inSat (32 * st + l))
  let r := x.laneRes op l
  s.setUu u { x with
    e := writeLane x.e l r.reg
    out := match r.store with | some (st, v) => KMap.set 0 x.out (32 * st + l) v | none => x.out
    evs := KMap.set LaneEv.none x.evs l ((KMap.get LaneEv.none x.evs l).after op r inp) }

theorem State.lanes_eq_foldl {s : State} {u : Nat} (op : UOp) (hup : s.uuUp u = true) (hsec : (s.uu u).section_ = true) :
    s.lanes u op = (List.range 32).foldl (State.laneStep u op) s := by
  rw [State.lanes, hup, hsec]
  rfl

section
variable (s : State) (u : Nat) (op : UOp) (l : Nat)

theorem State.uu_e_laneStep : ((s.laneStep u op l).uu u).e = writeLane (s.uu u).e l ((s.uu u).laneRes op l).reg := by
  simp only [State.laneStep, State.uu_setUu_same]

theorem State.uu_inp_laneStep : ((s.laneStep u op l).uu u).inp = (s.uu u).inp := by
  simp only [State.laneStep, State.uu_setUu_same]

end

section
variable {e : KMap W64} {l m n : Nat} {r : Option (Nat × W64)} {v : W64}

/-- A lane's result changes no register of another lane. -/
theorem get_writeLane_other_lane (hl : l < 32) (hm : m < 32) (h : m ≠ l) : KMap.get 0 (writeLane e l r) (32 * n + m) = KMap.get 0 e (32 * n + m) := by
  unfold writeLane
  split
  · split
    · exact KMap.get_set_other _ _ _ _ (by omega)
    · rfl
  · rfl

theorem get_writeLane_written (hn : n < 16) (h : r = some (n, v)) : KMap.get 0 (writeLane e l r) (32 * n + l) = v := by
  subst h
  simp only [writeLane, hn, if_true, KMap.get_set_same]

theorem get_writeLane_not_written (h : ∀ v, r ≠ some (n, v)) : KMap.get 0 (writeLane e l r) (32 * n + l) = KMap.get 0 e (32 * n + l) := by
  unfold writeLane
  split
  next rd v =>
    split
    · refine KMap.get_set_other _ _ _ _ fun hk => h v ?_
      have hrd : rd = n := by omega
      rw [hrd]
    · rfl
  · rfl

/-- A lane's registers after a result depend on that lane's registers before it. -/
theorem get_writeLane_congr {e' : KMap W64} (h : ∀ m, KMap.get 0 e (32 * m + l) = KMap.get 0 e' (32 * m + l)) :
    KMap.get 0 (writeLane e l r) (32 * n + l) = KMap.get 0 (writeLane e' l r) (32 * n + l) := by
  rcases r with _ | ⟨rd, v⟩
  · exact h n
  · simp only [writeLane]
    split
    · by_cases hn : n = rd
      · rw [hn, KMap.get_set_same, KMap.get_set_same]
      · rw [KMap.get_set_other _ _ _ _ (by omega), KMap.get_set_other _ _ _ _ (by omega), h]
    · exact h n

end

/-- The results of two states agree in a lane whose registers and streams they agree on. -/
theorem Uu.laneRes_congr {x y : Uu} (op : UOp) {l : Nat} (he : ∀ n, KMap.get 0 x.e (32 * n + l) = KMap.get 0 y.e (32 * n + l))
    (hi : x.inp = y.inp) : x.laneRes op l = y.laneRes op l := by
  simp only [Uu.laneRes, he, hi]

/-- After the first k lanes: the streams are as before, a lane at or past k is as before, and a lane below k is as its own step leaves it. -/
theorem State.foldl_laneStep (s : State) (u : Nat) (op : UOp) {k : Nat} (hk : k ≤ 32) :
    (((List.range k).foldl (State.laneStep u op) s).uu u).inp = (s.uu u).inp ∧
      ∀ l n, l < 32 → KMap.get 0 (((List.range k).foldl (State.laneStep u op) s).uu u).e (32 * n + l) =
        if l < k then KMap.get 0 (writeLane (s.uu u).e l ((s.uu u).laneRes op l).reg) (32 * n + l) else KMap.get 0 (s.uu u).e (32 * n + l) := by
  induction k with
  | zero => exact ⟨rfl, fun l n _ => rfl⟩
  | succ k ih =>
    obtain ⟨hinp, hreg⟩ := ih (by omega)
    rw [List.range_succ, List.foldl_append, List.foldl_cons, List.foldl_nil]
    refine ⟨by rw [State.uu_inp_laneStep, hinp], fun l n hl => ?_⟩
    rw [State.uu_e_laneStep]
    by_cases hlk : l = k
    · subst hlk
      have hold : ∀ m, KMap.get 0 (((List.range l).foldl (State.laneStep u op) s).uu u).e (32 * m + l) = KMap.get 0 (s.uu u).e (32 * m + l) :=
        fun m => (hreg l m hl).trans (if_neg (Nat.lt_irrefl l))
      rw [if_pos (Nat.lt_succ_self l), Uu.laneRes_congr op hold hinp]
      exact get_writeLane_congr hold
    · rw [get_writeLane_other_lane (by omega) hl hlk, hreg l n hl]
      exact if_congr (by omega) rfl rfl

/-- Settles O33: after all 32 steps each lane is as its own step leaves it. -/
theorem lanesAreIndependent : Obligations.LanesAreIndependent := by
  unfold Obligations.LanesAreIndependent
  intro u op s hup hsec
  obtain ⟨_, hreg⟩ := s.foldl_laneStep u op (Nat.le_refl 32)
  rw [State.lanes_eq_foldl op hup hsec]
  refine ⟨fun l n v hl hn hrun => ?_, fun l n hl hrun => ?_⟩
  · rw [hreg l n hl, if_pos hl]
    exact get_writeLane_written hn hrun
  · rw [hreg l n hl, if_pos hl]
    exact get_writeLane_not_written hrun

end Sys2Proof.Machine
end

section
/-! The table of the full/empty operations (R276, R278): what a whole word written by an operation reads back, bytes and bits, and the rows of
the table on a word of no lost claim. -/

namespace Sys2Proof.Machine

/-! ## The bytes of a loaded number -/

theorem leBytes_lt (rd : Nat → Byte) (a n : Nat) : leBytes rd a n < 2 ^ (8 * n) := by
  induction n generalizing a with
  | zero => exact Nat.one_pos
  | succ n ih =>
    have hb := (rd a).isLt
    have hr := ih (a + 1)
    rw [leBytes_succ, Nat.mul_succ, Nat.pow_add]
    omega

/-- Byte i of a loaded number is the byte at the i-th address. -/
theorem ofNat_leBytes_shiftRight (rd : Nat → Byte) {a n i : Nat} (h : i < n) : BitVec.ofNat 8 (leBytes rd a n >>> (8 * i)) = rd (a + i) := by
  induction n generalizing a i with
  | zero => exact absurd h (Nat.not_lt_zero i)
  | succ n ih =>
    have hb : (rd a).toNat < 256 := (rd a).isLt
    rw [leBytes_succ]
    cases i with
    | zero =>
      apply BitVec.eq_of_toNat_eq
      rw [Nat.mul_zero, Nat.shiftRight_zero, BitVec.toNat_ofNat, show a + 0 = a from rfl]
      omega
    | succ i =>
      have hrest : ((rd a).toNat + 256 * leBytes rd (a + 1) n) >>> (8 * (i + 1)) = leBytes rd (a + 1) n >>> (8 * i) := by
        rw [Nat.mul_succ, Nat.add_comm (8 * i) 8, Nat.shiftRight_add, Nat.shiftRight_eq_div_pow _ 8]
        congr 1
        omega
      rw [hrest, ih (Nat.lt_of_succ_lt_succ h), Nat.add_assoc, Nat.add_comm 1 i]

theorem length_wordBytes (v : W64) : (wordBytes v).length = 8 := length_natBytes 8 v.toNat

theorem getD_wordBytes (v : W64) {i : Nat} (h : i < 8) : (wordBytes v).getD i 0 = v.extractLsb' (8 * i) 8 := getD_natBytes v.toNat h

theorem State.toNat_load64 (s : State) (l : Nat) : (s.load64 l).toNat = leBytes s.byteAt l 8 :=
  (BitVec.toNat_ofNat _ _).trans (Nat.mod_eq_of_lt (leBytes_lt s.byteAt l 8))

theorem State.extractLsb'_load64 (s : State) (l : Nat) {i : Nat} (h : i < 8) : (s.load64 l).extractLsb' (8 * i) 8 = s.byteAt (l + i) := by
  rw [BitVec.extractLsb', s.toNat_load64 l, ofNat_leBytes_shiftRight _ h]

/-! ## A word written by an operation -/

theorem State.foldl_putByte (s : State) (k : Nat) (l : List (Byte × Nat)) :
    l.foldl (fun s e => s.putByte (k + e.2) e.1) s =
      s.withMem { s.mem with bytes := (l.map fun e => (k + e.2, e.1)).foldl (fun m e => KMap.set unlisted m e.1 e.2) s.mem.bytes } := by
  induction l generalizing s with
  | nil => rfl
  | cons e t ih =>
    rw [List.foldl_cons, ih]
    rfl

/-- The memory after a whole word is set at a key: its bytes, its full bit and its poison bit. -/
def Mem.setWord (m : Mem) (k : Nat) (v : W64) (full poison : Bool) : Mem :=
  { m with
    bytes := setBytes m.bytes k (wordBytes v)
    full := KMap.set false m.full (k / 8) full
    poison := KMap.set false m.poison (k / 8) poison }

theorem State.setWord_eq (s : State) (l : Nat) (v : W64) (full poison : Bool) :
    s.setWord l v full poison = s.withMem (s.mem.setWord (s.keyOf l) v full poison) := by
  unfold State.setWord
  dsimp only
  rw [State.foldl_putByte]
  rfl

section
variable (s : State) (l : Nat) (v : W64) (full poison : Bool)

theorem State.fullAt_setWord : (s.setWord l v full poison).fullAt (s.keyOf l) = full := by
  simp only [State.setWord_eq, State.fullAt, State.withMem_mem, Mem.setWord, KMap.get_set_same]

theorem State.poisonAt_setWord : (s.setWord l v full poison).poisonAt (s.keyOf l) = poison := by
  simp only [State.setWord_eq, State.poisonAt, State.withMem_mem, Mem.setWord, KMap.get_set_same]

theorem State.byteKey_setWord {i : Nat} (h : i < 8) : (s.setWord l v full poison).byteKey (s.keyOf l + i) = v.extractLsb' (8 * i) 8 := by
  simp only [State.setWord_eq, State.byteKey, State.withMem_mem, Mem.setWord]
  rw [get_setBytes_inside _ _ (by rwa [length_wordBytes]), getD_wordBytes v h]

end

/-! ## The rows of the table -/

section
variable {s : State} {l : Nat}

/-- On a word of no lost claim fini always sets the word. -/
theorem State.wordOp_fini (f : Bool) (v : W64) (h : s.lostAt l = false) : s.wordOp l (.fini f v) = some (St.ok, none, s.setWord l v f false) := by
  simp [State.wordOp, h]

theorem State.wordOp_stef_full {p : Bool} (v : W64) (h : s.wordState l = (true, p)) : s.wordOp l (.stef v) = none := by
  simp [State.wordOp, h]

theorem State.wordOp_stef_empty (v : W64) (h : s.wordState l = (false, false)) :
    s.wordOp l (.stef v) = some (St.ok, none, s.setWord l v true false) := by
  simp [State.wordOp, h]

theorem State.wordOp_ldfe_full {p : Bool} (h : s.wordState l = (true, p)) :
    s.wordOp l .ldfe = some (if p then St.poisoned else St.ok, some (s.load64 l), s.setWord l (s.load64 l) false false) := by
  cases p <;> simp [State.wordOp, h]

theorem State.wordOp_ldfn_full {p : Bool} (h : s.wordState l = (true, p)) :
    s.wordOp l .ldfn = some (if p then St.poisoned else St.ok, some (s.load64 l), s) := by
  cases p <;> simp [State.wordOp, h]

theorem State.wordOp_ldfe_empty (h : s.wordState l = (false, false)) : s.wordOp l .ldfe = none := by
  simp [State.wordOp, h]

theorem State.wordOp_ldfn_empty (h : s.wordState l = (false, false)) : s.wordOp l .ldfn = none := by
  simp [State.wordOp, h]

theorem State.wordOp_ldfe_lost (h : s.wordState l = (false, true)) : s.wordOp l .ldfe = some (St.ownerLost, none, s) := by
  simp [State.wordOp, h]

theorem State.wordOp_stef_lost (v : W64) (h : s.wordState l = (false, true)) : s.wordOp l (.stef v) = some (St.ownerLost, none, s) := by
  simp [State.wordOp, h]

theorem State.wordOp_finc_full {v : W64} (h : s.wordState l = (true, false)) (hv : v ≠ 0) :
    s.wordOp l (.finc v) =
      if 2 ^ 64 ≤ (s.load64 l).toNat + v.toNat then some (St.syncOverflow, some (s.load64 l), s)
      else some (St.ok, some (s.load64 l), s.setWord l (s.load64 l + v) true false) := by
  simp only [State.wordOp, h, hv, if_false, Bool.not_true, Bool.false_and, Bool.false_eq_true]

theorem State.wordOp_fdec_underflow {v : W64} (h : s.wordState l = (true, false)) (hv : v ≠ 0) (hlt : (s.load64 l).toNat < v.toNat) :
    s.wordOp l (.fdec v) = some (St.syncUnderflow, some (s.load64 l), s) := by
  simp only [State.wordOp, h, hv, hlt, if_false, if_true, Bool.not_true, Bool.false_and, Bool.false_eq_true]

end

/-- Settles O39: each row of the table, with the word that it writes read back. -/
theorem fullEmptyTable : Obligations.FullEmptyTable := by
  unfold Obligations.FullEmptyTable
  intro l v s hlost hplace
  refine ⟨fun hw => ⟨?ldfe, State.wordOp_ldfn_full hw, State.wordOp_stef_full v hw, fun hv hfit => ?finc, fun hv hover => ?overflow,
      fun hv hlt => State.wordOp_fdec_underflow hw hv hlt⟩,
    fun hw => ⟨State.wordOp_ldfe_empty hw, State.wordOp_ldfn_empty hw, _, State.wordOp_stef_empty v hw, State.fullAt_setWord _ _ _ _ _,
      fun i hi => State.byteKey_setWord _ _ _ _ _ hi⟩,
    fun hw => ⟨⟨_, State.wordOp_ldfe_full hw, State.fullAt_setWord _ _ _ _ _⟩, State.wordOp_ldfn_full hw⟩,
    fun hw => ⟨State.wordOp_ldfe_lost hw, State.wordOp_stef_lost v hw⟩,
    _, State.wordOp_fini true v hlost, State.fullAt_setWord _ _ _ _ _, State.poisonAt_setWord _ _ _ _ _⟩
  case ldfe =>
    refine ⟨_, State.wordOp_ldfe_full hw, State.fullAt_setWord _ _ _ _ _, State.poisonAt_setWord _ _ _ _ _, fun i hi => ?_⟩
    obtain ⟨p, hp, hkey⟩ := hplace i hi
    rw [State.byteKey_setWord _ _ _ _ _ hi, s.extractLsb'_load64 l hi]
    simp only [State.byteAt, hp, hkey]
  case finc =>
    rw [State.wordOp_finc_full hw hv, if_neg (Nat.not_le.mpr hfit)]
    exact ⟨_, rfl, State.fullAt_setWord _ _ _ _ _, fun i hi => State.byteKey_setWord _ _ _ _ _ hi⟩
  case overflow => rw [State.wordOp_finc_full hw hv, if_pos hover]

end Sys2Proof.Machine
end

section
/-! Tollgates (R206, R207, R217): the requests that a level admits, and what a request, a refill and a write of a bucket leave of the
registers and the queues of a die's buckets. -/

namespace Sys2Proof.Machine

/-- A request of up to 256 bytes is one request, of one token per 64 bytes begun (R206). -/
theorem tollCosts_of_le {n : Nat} (h0 : 0 < n) (h : n ≤ 256) : tollCosts n = [(n + 63) / 64] := by
  unfold tollCosts
  rcases Nat.lt_or_eq_of_le h with hlt | rfl
  · rw [Nat.div_eq_of_lt hlt, Nat.mod_eq_of_lt hlt, if_neg h0.ne']
    rfl
  · rfl

/-! ## The requests that a level admits -/

/-- The admitted requests are the first ones, the level pays for them, and the next one costs more than what is left. -/
theorem admitHeld_spec (lvl : Nat) (q : List Nat) :
    ∃ served, q = served ++ (admitHeld lvl q).2 ∧ (admitHeld lvl q).1 + served.sum = lvl ∧
      ∀ c rest, (admitHeld lvl q).2 = c :: rest → (admitHeld lvl q).1 < c := by
  induction q generalizing lvl with
  | nil => exact ⟨[], rfl, rfl, fun _ _ h => absurd h (List.cons_ne_nil _ _).symm⟩
  | cons c t ih =>
    by_cases h : c ≤ lvl
    · obtain ⟨served, hq, hsum, hnext⟩ := ih (lvl - c)
      simp only [admitHeld, if_pos h]
      refine ⟨c :: served, by rw [List.cons_append, ← hq], ?_, hnext⟩
      rw [List.sum_cons]
      omega
    · simp only [admitHeld, if_neg h]
      refine ⟨[], rfl, rfl, fun c' rest hc => ?_⟩
      obtain ⟨rfl, -⟩ := List.cons.inj hc
      exact Nat.lt_of_not_le h

/-! ## Queues and levels -/

section
variable (s : State) {d b b' : Nat}

@[simp] theorem State.heldQ_setFld (p v : Nat) (f : Fld) : (s.setFld p f v).heldQ d b = s.heldQ d b := by
  rw [State.heldQ, State.setFld, State.setReg_ms, State.heldQ]

@[simp] theorem State.heldQ_setHeldQ_same (l : List Nat) : (s.setHeldQ d b l).heldQ d b = l := KMap.get_set_same _ _ _ _

theorem State.heldQ_setHeldQ_other (l : List Nat) (h : b' ≠ b) : (s.setHeldQ d b l).heldQ d b' = s.heldQ d b' :=
  KMap.get_set_other _ _ _ _ (by omega)

@[simp] theorem State.heldQ_setHeldSince (b₀ t : Nat) : (s.setHeldSince d b₀ t).heldQ d b = s.heldQ d b := rfl

@[simp] theorem State.reg_setHeldQ (b₀ k : Nat) (l : List Nat) : (s.setHeldQ d b₀ l).reg k = s.reg k := rfl

@[simp] theorem State.fld_setHeldQ (b₀ p : Nat) (f : Fld) (l : List Nat) : (s.setHeldQ d b₀ l).fld p f = s.fld p f := rfl

@[simp] theorem State.fld_setHeldSince (b₀ t p : Nat) (f : Fld) : (s.setHeldSince d b₀ t).fld p f = s.fld p f := rfl

@[simp] theorem State.bitF_setHeldSince (b₀ t p : Nat) (f : Fld) : (s.setHeldSince d b₀ t).bitF p f = s.bitF p f := rfl

@[simp] theorem State.heldQ_countHeld (b₀ : Nat) : (s.countHeld d b₀).heldQ d b = s.heldQ d b := by
  unfold State.countHeld
  dsimp only
  split
  · rfl
  · rw [State.heldQ_setHeldSince, State.addFld, State.heldQ_setFld]

/-- Counting HELD changes no other field of the die's buckets. -/
theorem State.fld_countHeld {b₀ : Nat} {f : Fld} (h : 8 * b + f.off ≠ 8 * b₀ + 0x500) :
    (s.countHeld d b₀).fld (Pg.toll d + 8 * b) f = s.fld (Pg.toll d + 8 * b) f := by
  unfold State.countHeld
  dsimp only
  split
  · rfl
  · rw [State.fld_setHeldSince, State.addFld, State.fld_setFld_other _ _ (.inl ?_)]
    show Pg.toll d + 8 * b + f.off ≠ Pg.toll d + 8 * b₀ + 0x500
    omega

theorem State.bitF_countHeld {b₀ : Nat} {f : Fld} (hf : f.hi = f.lo) (h : 8 * b + f.off ≠ 8 * b₀ + 0x500) :
    (s.countHeld d b₀).bitF (Pg.toll d + 8 * b) f = s.bitF (Pg.toll d + 8 * b) f := by
  rw [State.bitF_eq _ _ _ hf, State.bitF_eq _ _ _ hf, State.fld_countHeld s h]

/-- The level of another bucket of the die. -/
theorem State.level_setFld_other {v : Nat} (h : b' ≠ b) :
    (s.setFld (Pg.toll d + 8 * b) F.tollLevelLevel v).fld (Pg.toll d + 8 * b') F.tollLevelLevel = s.fld (Pg.toll d + 8 * b') F.tollLevelLevel := by
  refine State.fld_setFld_other _ _ (.inl ?_)
  show Pg.toll d + 8 * b' + 0x300 ≠ Pg.toll d + 8 * b + 0x300
  omega

/-- A level of 24 bits reads back. -/
theorem State.level_setFld_same {p v : Nat} (h : v < 2 ^ 24) : (s.setFld p F.tollLevelLevel v).fld p F.tollLevelLevel = v := by
  rw [State.fld_setFld_same _ _ _ _ (by decide) (by decide)]
  exact Nat.mod_eq_of_lt h

theorem State.level_lt (p : Nat) : s.fld p F.tollLevelLevel < 2 ^ 24 := Bits.get_lt _ 23 0

theorem State.fld_lt (p : Nat) (f : Fld) : s.fld p f < 2 ^ (f.hi + 1 - f.lo) := Bits.get_lt _ _ _

/-- A floor of a field: the field reads as the greater of the floor and what it was. -/
theorem State.fld_setFld_max (p : Nat) (f : Fld) {n : Nat} (h1 : f.lo ≤ f.hi) (h2 : f.hi < 64) (hn : n < 2 ^ (f.hi + 1 - f.lo)) :
    (s.setFld p f (max n (s.fld p f))).fld p f = max n (s.fld p f) := by
  rw [State.fld_setFld_same _ _ _ _ h1 h2]
  exact Nat.mod_eq_of_lt (Nat.max_lt.mpr ⟨hn, s.fld_lt p f⟩)

theorem State.depth_lt (p : Nat) : s.fld p F.tollBktDepth < 2 ^ 24 := Bits.get_lt _ 39 16

end

/-! ## Requests (R206) -/

section
variable {s : State} {d b b' c : Nat}

theorem State.tollRequest_of_off (h : s.bitF (Pg.toll d + 8 * b) F.tollBktEn = false) : s.tollRequest d b c = s := by
  simp [State.tollRequest, h]

/-- The request is admitted: the level pays for it. -/
theorem State.tollRequest_of_admitted (hen : s.bitF (Pg.toll d + 8 * b) F.tollBktEn = true) (hq : s.heldQ d b = [])
    (hc : c ≤ s.fld (Pg.toll d + 8 * b) F.tollLevelLevel) :
    s.tollRequest d b c = s.setFld (Pg.toll d + 8 * b) F.tollLevelLevel (s.fld (Pg.toll d + 8 * b) F.tollLevelLevel - c) := by
  rw [State.heldQ] at hq
  simp [State.tollRequest, hen, hq, hc]

/-- The request is held: it joins the bucket's queue, and the first one is stamped. -/
theorem State.tollRequest_of_held (hen : s.bitF (Pg.toll d + 8 * b) F.tollBktEn = true)
    (h : s.heldQ d b ≠ [] ∨ s.fld (Pg.toll d + 8 * b) F.tollLevelLevel < c) :
    s.tollRequest d b c =
      if (s.heldQ d b).isEmpty then (s.setHeldQ d b (s.heldQ d b ++ [c])).setHeldSince d b (s.now d + 1)
      else s.setHeldQ d b (s.heldQ d b ++ [c]) := by
  have hno : ((s.heldQ d b).isEmpty && decide (c ≤ s.fld (Pg.toll d + 8 * b) F.tollLevelLevel)) = false := by
    rw [Bool.and_eq_false_iff, List.isEmpty_eq_false_iff, decide_eq_false_iff_not, Nat.not_le]
    exact h
  unfold State.tollRequest
  simp only [hen, Bool.not_true, Bool.false_eq_true, if_false]
  rw [← State.heldQ, hno]
  rfl

/-- A held request leaves the levels, and the queues of the other buckets. -/
theorem State.tollRequest_held_frame (hen : s.bitF (Pg.toll d + 8 * b) F.tollBktEn = true)
    (h : s.heldQ d b ≠ [] ∨ s.fld (Pg.toll d + 8 * b) F.tollLevelLevel < c) :
    (s.tollRequest d b c).heldQ d b = s.heldQ d b ++ [c] ∧ (∀ b', b' ≠ b → (s.tollRequest d b c).heldQ d b' = s.heldQ d b') ∧
      ∀ p f, (s.tollRequest d b c).fld p f = s.fld p f := by
  rw [State.tollRequest_of_held hen h]
  split
  · exact ⟨State.heldQ_setHeldQ_same _ _, fun _ hb => State.heldQ_setHeldQ_other _ _ hb, fun _ _ => rfl⟩
  · exact ⟨State.heldQ_setHeldQ_same _ _, fun _ hb => State.heldQ_setHeldQ_other _ _ hb, fun _ _ => rfl⟩

/-- A request touches no other bucket of the die. -/
theorem State.tollRequest_other (hen : s.bitF (Pg.toll d + 8 * b) F.tollBktEn = true) (hb : b' ≠ b) :
    (s.tollRequest d b c).heldQ d b' = s.heldQ d b' ∧
      (s.tollRequest d b c).fld (Pg.toll d + 8 * b') F.tollLevelLevel = s.fld (Pg.toll d + 8 * b') F.tollLevelLevel := by
  by_cases h : s.heldQ d b ≠ [] ∨ s.fld (Pg.toll d + 8 * b) F.tollLevelLevel < c
  · obtain ⟨-, hother, hfld⟩ := State.tollRequest_held_frame hen h
    exact ⟨hother b' hb, hfld _ _⟩
  · obtain ⟨hq, hc⟩ := not_or.mp h
    rw [State.tollRequest_of_admitted hen (not_not.mp hq) (Nat.le_of_not_lt hc)]
    exact ⟨State.heldQ_setFld _ _ _ _, State.level_setFld_other _ hb⟩

/-! ## Refills (R206, R207) -/

/-- The level of a bucket after a refill, before held requests are admitted. -/
def State.refilled (s : State) (p : Nat) : Nat :=
  min (min (s.fld p F.tollLevelLevel) (s.fld p F.tollBktDepth) + s.fld p F.tollBktRate) (s.fld p F.tollBktDepth)

theorem State.refill_of_off (h : s.bitF (Pg.toll d + 8 * b) F.tollBktEn = false) : s.refill d b = s := by
  simp [State.refill, h]

theorem State.refill_of_on (h : s.bitF (Pg.toll d + 8 * b) F.tollBktEn = true) :
    ∃ s1, s1 = (s.setFld (Pg.toll d + 8 * b) F.tollLevelLevel (admitHeld (s.refilled (Pg.toll d + 8 * b)) (s.heldQ d b)).1).setHeldQ d b
        (admitHeld (s.refilled (Pg.toll d + 8 * b)) (s.heldQ d b)).2 ∧
      (s.refill d b = s1 ∨ s.refill d b = s1.countHeld d b) := by
  refine ⟨_, rfl, ?_⟩
  unfold State.refill
  simp only [h, Bool.not_true, Bool.false_eq_true, if_false]
  split
  · exact .inr rfl
  · exact .inl rfl

theorem State.heldQ_refill (h : s.bitF (Pg.toll d + 8 * b) F.tollBktEn = true) :
    (s.refill d b).heldQ d b = (admitHeld (s.refilled (Pg.toll d + 8 * b)) (s.heldQ d b)).2 := by
  obtain ⟨s1, rfl, hs | hs⟩ := State.refill_of_on h
  · rw [hs, State.heldQ_setHeldQ_same]
  · rw [hs, State.heldQ_countHeld, State.heldQ_setHeldQ_same]

/-- A bucket's level after a refill is what the admitted requests leave of the refilled level. -/
theorem State.level_refill (h : s.bitF (Pg.toll d + 8 * b) F.tollBktEn = true) :
    (s.refill d b).fld (Pg.toll d + 8 * b) F.tollLevelLevel = (admitHeld (s.refilled (Pg.toll d + 8 * b)) (s.heldQ d b)).1 := by
  have hlt : (admitHeld (s.refilled (Pg.toll d + 8 * b)) (s.heldQ d b)).1 < 2 ^ 24 := by
    obtain ⟨served, -, hsum, -⟩ := admitHeld_spec (s.refilled (Pg.toll d + 8 * b)) (s.heldQ d b)
    have hle : s.refilled (Pg.toll d + 8 * b) ≤ s.fld (Pg.toll d + 8 * b) F.tollBktDepth := Nat.min_le_right _ _
    have := s.depth_lt (Pg.toll d + 8 * b)
    omega
  obtain ⟨s1, rfl, hs | hs⟩ := State.refill_of_on h
  · rw [hs, State.fld_setHeldQ, State.level_setFld_same _ hlt]
  · rw [hs, State.fld_countHeld _ (by show 8 * b + 0x300 ≠ 8 * b + 0x500; omega), State.fld_setHeldQ, State.level_setFld_same _ hlt]

/-- A refill of a bucket touches no other bucket of the die. -/
theorem State.refill_other (h : s.bitF (Pg.toll d + 8 * b) F.tollBktEn = true) (hb : b' ≠ b) (hlt : b < 64) (hlt' : b' < 64) :
    (s.refill d b).heldQ d b' = s.heldQ d b' ∧
      (s.refill d b).fld (Pg.toll d + 8 * b') F.tollLevelLevel = s.fld (Pg.toll d + 8 * b') F.tollLevelLevel := by
  have hoff : 8 * b' + F.tollLevelLevel.off ≠ 8 * b + 0x500 := by
    show 8 * b' + 0x300 ≠ 8 * b + 0x500
    omega
  obtain ⟨s1, rfl, hs | hs⟩ := State.refill_of_on h
  · rw [hs, State.heldQ_setHeldQ_other _ _ hb, State.heldQ_setFld, State.fld_setHeldQ, State.level_setFld_other _ hb]
    exact ⟨rfl, rfl⟩
  · rw [hs, State.heldQ_countHeld, State.heldQ_setHeldQ_other _ _ hb, State.heldQ_setFld, State.fld_countHeld _ hoff, State.fld_setHeldQ,
      State.level_setFld_other _ hb]
    exact ⟨rfl, rfl⟩

end

/-! ## Writes of a bucket (R207, R217) -/

/-- The floors of a bucket as written: DEPTH at least 4, and RATE at least 1 while EN is 1. -/
def State.floorsKept (s : State) (p : Nat) : Prop :=
  4 ≤ s.fld p F.tollBktDepth ∧ (s.bitF p F.tollBktEn = true → 1 ≤ s.fld p F.tollBktRate)

/-- The state after the floors of a bucket are applied. -/
def State.applyFloors (s : State) (p : Nat) : State :=
  let s2 := s.setFld p F.tollBktDepth (max 4 (s.fld p F.tollBktDepth))
  if s2.bitF p F.tollBktEn then s2.setFld p F.tollBktRate (max 1 (s2.fld p F.tollBktRate)) else s2

theorem State.floorsKept_applyFloors (s : State) (p : Nat) : (s.applyFloors p).floorsKept p := by
  unfold State.applyFloors State.floorsKept
  dsimp only
  split
  · rw [State.fld_setFld_other _ _ (.inr (.inr (by decide))), State.fld_setFld_max _ _ _ (by decide) (by decide) (by decide),
      State.fld_setFld_max _ _ _ (by decide) (by decide) (by decide)]
    exact ⟨Nat.le_max_left _ _, fun _ => Nat.le_max_left _ _⟩
  · rw [State.fld_setFld_max _ _ _ (by decide) (by decide) (by decide)]
    exact ⟨Nat.le_max_left _ _, fun hen => absurd hen ‹_›⟩

theorem State.floorsKept_setLevel {s : State} {p : Nat} (v : Nat) (h : s.floorsKept p) : (s.setFld p F.tollLevelLevel v).floorsKept p := by
  unfold State.floorsKept
  rwa [State.fld_setFld_of_off_ne _ _ _ (by decide), State.fld_setFld_of_off_ne _ _ _ (by decide),
    State.bitF_setFld_other _ _ rfl (.inl fun e => absurd (Nat.add_left_cancel e) (by decide))]

theorem State.floorsKept_setHeldQ {s : State} {p : Nat} (d b : Nat) (l : List Nat) (h : s.floorsKept p) : (s.setHeldQ d b l).floorsKept p := h

theorem State.floorsKept_countHeld {s : State} {d b : Nat} (h : s.floorsKept (Pg.toll d + 8 * b)) :
    (s.countHeld d b).floorsKept (Pg.toll d + 8 * b) := by
  unfold State.floorsKept
  rwa [State.fld_countHeld _ (by show 8 * b + 0x100 ≠ 8 * b + 0x500; omega), State.fld_countHeld _ (by show 8 * b + 0x100 ≠ 8 * b + 0x500; omega),
    State.bitF_countHeld _ rfl (by show 8 * b + 0x100 ≠ 8 * b + 0x500; omega)]

/-- A write of a bucket: the bits of its row, the floors, and on a change of EN the bucket is emptied. -/
theorem exec_tollBktWrite_cases (d : Die) (b : Fin 64) (data : W64) (s : State) :
    ∃ u t, u = (s.plainWrite (Pg.toll d + 8 * b.val + 0x100) data).applyFloors (Pg.toll d + 8 * b.val) ∧ exec (.tollBktWrite d b data) s = .next t ∧
      (t = u ∨ t = u.setFld (Pg.toll d + 8 * b.val) F.tollLevelLevel 0 ∨
        t = ((u.setFld (Pg.toll d + 8 * b.val) F.tollLevelLevel 0).setHeldQ d b []).countHeld d b) := by
  have hexec : ∃ (p q : Prop) (_ : Decidable p) (_ : Decidable q) (u : State),
      u = (s.plainWrite (Pg.toll d + 8 * b.val + 0x100) data).applyFloors (Pg.toll d + 8 * b.val) ∧
        exec (.tollBktWrite d b data) s = if p then .next u else if q then .next (u.setFld (Pg.toll d + 8 * b.val) F.tollLevelLevel 0)
          else .next (((u.setFld (Pg.toll d + 8 * b.val) F.tollLevelLevel 0).setHeldQ d b []).countHeld d b) := ⟨_, _, _, _, _, rfl, rfl⟩
  obtain ⟨p, q, _, _, u, hu, hexec⟩ := hexec
  rw [hexec]
  split
  · exact ⟨u, _, hu, rfl, .inl rfl⟩
  · split
    · exact ⟨u, _, hu, rfl, .inr (.inl rfl)⟩
    · exact ⟨u, _, hu, rfl, .inr (.inr rfl)⟩

theorem exec_tollBktWrite_floors (d : Die) (b : Fin 64) (data : W64) (s : State) :
    ∃ t, exec (.tollBktWrite d b data) s = .next t ∧ t.floorsKept (Pg.toll d + 8 * b) := by
  have hfloors := (s.plainWrite (Pg.toll d + 8 * b.val + 0x100) data).floorsKept_applyFloors (Pg.toll d + 8 * b)
  obtain ⟨u, t, rfl, hexec, rfl | rfl | rfl⟩ := exec_tollBktWrite_cases d b data s
  · exact ⟨_, hexec, hfloors⟩
  · exact ⟨_, hexec, State.floorsKept_setLevel 0 hfloors⟩
  · exact ⟨_, hexec, State.floorsKept_countHeld (State.floorsKept_setHeldQ _ _ _ (State.floorsKept_setLevel 0 hfloors))⟩

/-- Settles O11: what each of the two operations of a bucket leaves, and the floors of a write. -/
theorem tollgateBuckets : Obligations.TollgateBuckets := by
  unfold Obligations.TollgateBuckets
  refine ⟨fun n => tollCosts_of_le, fun s d b c hoff => ⟨State.tollRequest_of_off hoff, State.refill_of_off hoff⟩,
    fun s d b c hen => ⟨fun hq hc => ?admitted, fun h => ?held, fun b' hb hlt' hlt => ?other, ?refill⟩, exec_tollRefill, exec_tollBktWrite_floors⟩
  case admitted =>
    rw [State.tollRequest_of_admitted hen hq hc]
    have := s.level_lt (Pg.toll d + 8 * b)
    exact ⟨State.level_setFld_same _ (by omega), by rw [State.heldQ_setFld, hq]⟩
  case held =>
    obtain ⟨hq, -, hfld⟩ := State.tollRequest_held_frame hen h
    exact ⟨hq, hfld _ _⟩
  case other =>
    obtain ⟨hq, hlvl⟩ := State.tollRequest_other (c := c) hen hb
    obtain ⟨hq', hlvl'⟩ := State.refill_other hen hb hlt hlt'
    exact ⟨hq, hq', hlvl, hlvl'⟩
  case refill =>
    rw [State.heldQ_refill hen, State.level_refill hen]
    exact admitHeld_spec _ _

end Sys2Proof.Machine
end

section
/-! The header of a packet (R308, R310): each field of the words that `mkPkt` forms, and what the PCRC covers. -/

namespace Sys2Proof.Machine

/-! ## Bits of a word whose field is replaced -/

theorem Bits.getLsbD_put (w : W64) (hi lo v : Nat) {i : Nat} (h : i < 64) :
    (Bits.put w hi lo v).getLsbD i = if lo ≤ i ∧ i ≤ hi then v.testBit (i - lo) else w.getLsbD i := by
  simp only [Bits.put, Bits.mask, BitVec.getLsbD_or, BitVec.getLsbD_and, BitVec.getLsbD_not, BitVec.getLsbD_ofNat,
    Nat.testBit_shiftLeft, Nat.testBit_two_pow_sub_one, h, decide_true, Bool.true_and]
  by_cases hl : lo ≤ i
  · by_cases hh : i ≤ hi
    · simp [hl, hh, show i - lo < hi + 1 - lo by omega]
    · simp [hl, hh, show ¬ i - lo < hi + 1 - lo by omega]
  · simp [hl]

/-- A field is replaced twice: the second value stands. -/
theorem Bits.put_put_same (w : W64) (hi lo v v' : Nat) : Bits.put (Bits.put w hi lo v) hi lo v' = Bits.put w hi lo v' := by
  apply BitVec.eq_of_getLsbD_eq
  intro i h
  simp only [Bits.getLsbD_put _ _ _ _ h]
  split <;> rfl

/-- Replacements of two fields that do not meet commute. -/
theorem Bits.put_comm (w : W64) {hi lo hi' lo' : Nat} (v v' : Nat) (hd : hi < lo' ∨ hi' < lo) :
    Bits.put (Bits.put w hi lo v) hi' lo' v' = Bits.put (Bits.put w hi' lo' v') hi lo v := by
  apply BitVec.eq_of_getLsbD_eq
  intro i h
  simp only [Bits.getLsbD_put _ _ _ _ h]
  split
  · rw [if_neg (by omega)]
  · rfl

theorem Bits.getLsbD_eq_get (w : W64) (n : Nat) : w.getLsbD n = decide (Bits.get w n n = 1) := by
  have : n + 1 - n = 1 := by omega
  rw [Bits.get, this, ← BitVec.testBit_toNat, Nat.testBit_eq_decide_div_mod_eq, Nat.shiftRight_eq_div_pow, pow_one]

theorem Bits.get_zero (hi lo : Nat) : Bits.get 0#64 hi lo = 0 := by simp [Bits.get]

/-! ## The CRC -/

theorem crcByte_lt {poly c : Nat} (b : Byte) (hp : poly < 2 ^ 32) (hc : c < 2 ^ 32) : crcByte poly c b < 2 ^ 32 := by
  have hb : b.toNat < 2 ^ 32 := by omega
  refine List.foldlRecOn (motive := fun c : Nat => c < 2 ^ 32) _ _ (Nat.xor_lt_two_pow hc hb) fun c h _ _ => ?_
  have half : c / 2 < 2 ^ 32 := by omega
  split
  · exact Nat.xor_lt_two_pow half hp
  · exact half

theorem crc32c_lt (bs : List Byte) : crc32c bs < 2 ^ 32 :=
  Nat.xor_lt_two_pow
    (List.foldlRecOn (motive := fun c : Nat => c < 2 ^ 32) _ _ (by decide) fun _ h b _ => crcByte_lt b (by decide) h) (by decide)

/-! ## The words of a packet -/

/-- The payload filled up with zeros to whole flits. -/
def flits (payload : List W64) : List W64 := payload ++ List.replicate (4 * ((payload.length + 3) / 4) - payload.length) 0

theorem length_flits (payload : List W64) : (flits payload).length = 4 * ((payload.length + 3) / 4) := by
  simp only [flits, List.length_append, List.length_replicate]
  omega

theorem getD_flits (payload : List W64) (i : Nat) : (flits payload).getD i 0 = payload.getD i 0 := by
  simp only [flits, List.getD_eq_getElem?_getD, List.getElem?_append, List.getElem?_replicate]
  split
  · rfl
  · rw [List.getElem?_eq_none (by omega)]
    split <;> rfl

/-- A PCRC of 32 bits written behind the header is the words' PCRC. -/
theorem pcrc_withPcrc (w0 w1 w2 w3 : W64) (ws : List W64) (c : Nat) :
    pcrc (w0 :: w1 :: w2 :: Bits.put w3 31 0 c :: ws) = pcrc (w0 :: w1 :: w2 :: w3 :: ws) := by
  have e3 : Bits.put (Bits.put w3 31 0 c) 31 0 0 = Bits.put w3 31 0 0 := Bits.put_put_same ..
  simp only [pcrc, wd, List.getD_cons_zero, List.getD_cons_succ, e3, List.drop_succ_cons]

/-- VC and TTL are set at each hop without touching the PCRC (R310). -/
theorem pcrc_setVcTtl (w0 w1 w2 w3 : W64) (ws : List W64) (vc ttl : Nat) :
    pcrc (Bits.put (Bits.put w0 30 28 vc) 25 20 ttl :: w1 :: w2 :: w3 :: ws) = pcrc (w0 :: w1 :: w2 :: w3 :: ws) := by
  have e0 : Bits.put (Bits.put (Bits.put (Bits.put w0 30 28 vc) 25 20 ttl) 30 28 0) 25 20 0 = Bits.put (Bits.put w0 30 28 0) 25 20 0 := by
    rw [Bits.put_comm (Bits.put w0 30 28 vc) ttl 0 (by decide), Bits.put_put_same, Bits.put_put_same]
  simp only [pcrc, wd, List.getD_cons_zero, List.getD_cons_succ, e0, List.drop_succ_cons]

/-- The words of the header before its PCRC. -/
def PktHead.word0 (h : PktHead) (plen : Nat) : W64 :=
  Bits.make [(63, 48, h.dst), (47, 32, h.src), (31, 31, h.epoch), (27, 26, h.cls), (25, 20, h.ttl), (19, 14, plen),
    (9, 9, if h.narrow then 1 else 0), (8, 8, if h.unord then 1 else 0), (7, 0, h.op)]
def PktHead.word1 (h : PktHead) : W64 := Bits.make [(63, 52, h.slot), (51, 48, h.gen), (47, 0, h.addr)]
def PktHead.word2 (h : PktHead) : W64 := Bits.make [(63, 32, h.seq), (31, 16, h.fmt), (15, 0, h.len)]
def PktHead.word3 (h : PktHead) : W64 := Bits.make [(63, 56, h.status)]

theorem mkPkt_eq (h : PktHead) (payload : List W64) : ∃ c < 2 ^ 32, c = pcrc (mkPkt h payload) ∧
    mkPkt h payload = h.word0 ((payload.length + 3) / 4) :: h.word1 :: h.word2 :: Bits.put h.word3 31 0 c :: flits payload := by
  refine ⟨pcrc (h.word0 ((payload.length + 3) / 4) :: h.word1 :: h.word2 :: h.word3 :: flits payload), crc32c_lt _, ?_, rfl⟩
  exact (pcrc_withPcrc ..).symm

/-- A field that `Bits.make` wrote reads as it was given, cut to its width; bits that none of its fields covers read zero. -/
theorem word0_fields (h : PktHead) (n : Nat) (hs : h.dst < 65536 ∧ h.src < 65536 ∧ h.epoch < 2 ∧ h.cls < 4 ∧ h.ttl < 64 ∧ n < 64 ∧ h.op < 256) :
    Bits.get (h.word0 n) 63 48 = h.dst ∧ Bits.get (h.word0 n) 47 32 = h.src ∧ Bits.get (h.word0 n) 31 31 = h.epoch ∧
      Bits.get (h.word0 n) 30 28 = 0 ∧ Bits.get (h.word0 n) 27 26 = h.cls ∧ Bits.get (h.word0 n) 25 20 = h.ttl ∧
      Bits.get (h.word0 n) 19 14 = n ∧ Bits.get (h.word0 n) 13 10 = 0 ∧ (h.word0 n).getLsbD 9 = h.narrow ∧
      (h.word0 n).getLsbD 8 = h.unord ∧ Bits.get (h.word0 n) 7 0 = h.op := by
  obtain ⟨h1, h2, h3, h4, h5, h6, h7⟩ := hs
  rw [Bits.getLsbD_eq_get, Bits.getLsbD_eq_get]
  cases hn : h.narrow <;> cases hu : h.unord <;>
    simp [PktHead.word0, Bits.make, Bits.get_put_same, Bits.get_put_other, Bits.get_zero, Nat.mod_eq_of_lt, *]

theorem word1_fields (h : PktHead) (h1 : h.slot < 4096) (h2 : h.gen < 16) (h3 : h.addr < 281474976710656) :
    Bits.get h.word1 63 52 = h.slot ∧ Bits.get h.word1 51 48 = h.gen ∧ Bits.get h.word1 47 0 = h.addr := by
  simp [PktHead.word1, Bits.make, Bits.get_put_same, Bits.get_put_other, Nat.mod_eq_of_lt, h1, h2, h3]

theorem word2_fields (h : PktHead) (h1 : h.seq < 4294967296) (h2 : h.fmt < 65536) (h3 : h.len < 65536) :
    Bits.get h.word2 63 32 = h.seq ∧ Bits.get h.word2 31 16 = h.fmt ∧ Bits.get h.word2 15 0 = h.len := by
  simp [PktHead.word2, Bits.make, Bits.get_put_same, Bits.get_put_other, Nat.mod_eq_of_lt, h1, h2, h3]

theorem word3_fields (h : PktHead) (c : Nat) (h1 : h.status < 256) (h2 : c < 4294967296) :
    Bits.get (Bits.put h.word3 31 0 c) 63 56 = h.status ∧ Bits.get (Bits.put h.word3 31 0 c) 55 32 = 0 ∧ Bits.get (Bits.put h.word3 31 0 c) 31 0 = c := by
  simp [PktHead.word3, Bits.make, Bits.get_put_same, Bits.get_put_other, Bits.get_zero, Nat.mod_eq_of_lt, h1, h2]

/-- Settles O19: the fields of the four header words one word at a time, the payload by `getD_flits`, the PCRC by
`pcrc_withPcrc` and `pcrc_setVcTtl`. -/
theorem packetHeader : Obligations.PacketHeader := by
  unfold Obligations.PacketHeader
  intro h payload ws hdst hsrc hepoch hcls httl hop hslot hgen haddr hseq hfmt hlen hstatus hpay hws
  obtain ⟨c, hc, hcrc, heq⟩ := mkPkt_eq h payload
  rw [← hws] at heq hcrc
  obtain ⟨a1, a2, a3, a4, a5, a6, a7, a8, a9, a10, a11⟩ :=
    word0_fields h ((payload.length + 3) / 4) ⟨hdst, hsrc, hepoch, hcls, httl, by omega, hop⟩
  obtain ⟨b1, b2, b3⟩ := word1_fields h hslot hgen haddr
  obtain ⟨c1, c2, c3⟩ := word2_fields h hseq hfmt hlen
  obtain ⟨d1, d2, d3⟩ := word3_fields h c hstatus hc
  have hplen : Pkt.plen ws = (payload.length + 3) / 4 := by rw [heq]; exact a7
  have hpayload : ∀ i, Pkt.payload ws i = payload.getD i 0 := by
    intro i
    rw [heq, ← getD_flits payload i, Pkt.payload, wd, Nat.add_comm 4 i]
    simp only [List.getD_cons_succ]
  refine ⟨?_, ?_, ?_, hplen, ?_, fun i _ => hpayload i, ?_, ?_, ?_⟩
  · rw [heq]
    exact ⟨a1, a2, a3, a4, a5, a6, a9, a10, a11, b1, b2, b3, c1, c2, c3, d1⟩
  · rw [heq]; exact a8
  · rw [heq]; exact d2
  · rw [hplen, heq]
    simp only [List.length_cons, length_flits]
    omega
  · intro i hi
    rw [hpayload, List.getD_eq_getElem?_getD, List.getElem?_eq_none hi, Option.getD_none]
  · rw [← hcrc, heq]; exact d3
  · intro vc ttl
    rw [heq]
    exact pcrc_setVcTtl ..

end Sys2Proof.Machine
end

section
/-! What the instructions of a core leave alone (R156): a general register, the pc and the status raised are all that moves in the cores. -/

namespace Sys2Proof.Machine

/-- From s to t, of the cores and of the parts that a core reaches only the registers of core c moved: its pc, its raised status, and the
general register w when one is given. -/
structure CoreFrame (c : Nat) (w : Option Nat) (s t : State) : Prop where
  g : ∀ d q : Nat, (d ≠ c ∨ w ≠ some q) → t.g d q = s.g d q
  core : ∀ d : Nat, d ≠ c → t.core d = s.core d
  tmo : (t.core c).tmo = (s.core c).tmo
  scratch : t.scratch = s.scratch
  mem : t.mem = s.mem
  clusters : t.clusters = s.clusters
  sync : t.sync = s.sync
  net : t.net = s.net

theorem CoreFrame.refl (c : Nat) (w : Option Nat) (s : State) : CoreFrame c w s s :=
  ⟨fun _ _ _ => rfl, fun _ _ => rfl, rfl, rfl, rfl, rfl, rfl, rfl⟩

theorem CoreFrame.trans {c : Nat} {w : Option Nat} {s t u : State} (h1 : CoreFrame c w s t) (h2 : CoreFrame c w t u) : CoreFrame c w s u :=
  ⟨fun d q h => (h2.g d q h).trans (h1.g d q h), fun d h => (h2.core d h).trans (h1.core d h), h2.tmo.trans h1.tmo, h2.scratch.trans h1.scratch,
    h2.mem.trans h1.mem, h2.clusters.trans h1.clusters, h2.sync.trans h1.sync, h2.net.trans h1.net⟩

/-- The cores are as they were: nothing of them moves. -/
theorem CoreFrame.of_cores {c : Nat} {w : Option Nat} {s t : State} (h : t.cores = s.cores) (h1 : t.scratch = s.scratch) (h2 : t.mem = s.mem)
    (h3 : t.clusters = s.clusters) (h4 : t.sync = s.sync) (h5 : t.net = s.net) : CoreFrame c w s t := by
  have core : ∀ d, t.core d = s.core d := fun d => congrArg (fun m => KMap.get _ m d) h
  exact ⟨fun d q _ => by simp only [State.g, core], fun d _ => core d, by rw [core], h1, h2, h3, h4, h5⟩

/-- A core changes in its pc and its raised status only. -/
theorem CoreFrame.setCore {c : Nat} {w : Option Nat} {s : State} {k : Core} (hg : k.g = (s.core c).g) (ht : k.tmo = (s.core c).tmo) :
    CoreFrame c w s (s.setCore c k) := by
  refine ⟨fun d q _ => ?_, fun d h => State.core_setCore_other _ _ h, by rw [State.core_setCore_same, ht], rfl, rfl, rfl, rfl, rfl⟩
  by_cases h : d = c
  · subst h; simp only [State.g, State.core_setCore_same, hg]
  · simp only [State.g, State.core_setCore_other _ _ h]

theorem CoreFrame.setG (c rd : Nat) (s : State) (v : W64) : CoreFrame c (some rd) s (s.setG c rd v) := by
  by_cases hr : rd = 0
  · simp only [State.setG, hr, if_true]
    exact .refl ..
  · refine ⟨fun d q h => ?_, ?_, ?_, ?_, ?_, ?_, ?_, ?_⟩
    · rcases h with h | h
      · exact State.g_setG_core _ _ _ _ h
      · by_cases hd : d = c
        · subst hd
          exact State.g_setG_other _ _ _ fun e => h (e ▸ rfl)
        · exact State.g_setG_core _ _ _ _ hd
    all_goals simp only [State.setG, if_neg hr]
    · exact fun d h => State.core_setCore_other _ _ h
    · rw [State.core_setCore_same]
    all_goals rfl

theorem CoreFrame.setPc (c : Nat) (w : Option Nat) (s : State) (v : W64) : CoreFrame c w s (s.setPc c v) := .setCore rfl rfl

theorem CoreFrame.ret (c rd : Nat) (s : State) (v : W64) : CoreFrame c (some rd) s (s.ret c rd v) := (setG c rd s v).trans (setPc ..)

theorem CoreFrame.draw (c : Nat) (w : Option Nat) (s : State) : CoreFrame c w s s.draw.2 := of_cores rfl rfl rfl rfl rfl rfl

theorem CoreFrame.setErr (c : Nat) (w : Option Nat) (s : State) (p : Nat) (f : Fld) (ctx : Nat) : CoreFrame c w s (s.setErr p f ctx) := by
  have keep : Keeps 48 s (s.setErr p f ctx) := State.setErr_keeps (.of rfl) (keeps_refl 48 s)
  exact of_cores (keep .cores rfl) (keep .scratch rfl) (keep .mem rfl) (keep .clusters rfl) (keep .sync rfl) (keep .net rfl)

theorem CoreFrame.illegal (c : Nat) (w : Option Nat) (s : State) : CoreFrame c w s (s.illegal c) := by
  refine CoreFrame.trans ?_ (.setPc ..)
  have raised : CoreFrame c w s (s.raise c St.illegalInsn) := .setCore rfl rfl
  split
  · exact raised.trans (.setErr ..)
  · split
    · exact raised
    · exact raised.trans (.setErr ..)

theorem CoreFrame.alu (c : Nat) (w : Option Nat) (s : State) (fn : AluFn) (a b : W64) : CoreFrame c w s (s.alu fn a b).2 := by
  cases fn
  case shl | shr =>
    dsimp only [State.alu]
    split
    · exact .refl ..
    · exact .draw ..
  all_goals exact .refl ..

theorem CoreFrame.compare (c : Nat) (w : Option Nat) (s : State) (cond : Cond) (a b : W64) : CoreFrame c w s (s.compare cond a b).2 := by
  cases cond
  case lt | ge =>
    dsimp only [State.compare]
    split
    · exact .refl ..
    · exact .draw ..
  all_goals exact .refl ..

theorem State.compare_regs (s : State) (cond : Cond) (a b : W64) : (s.compare cond a b).2.regs = s.regs := by
  cases cond
  case lt | ge =>
    dsimp only [State.compare]
    split <;> rfl
  all_goals rfl

theorem badOpc_own (c : Nat) : badOpc c .own = false := rfl

/-! ## The instructions that write one general register, and branches -/

theorem execIntAlu_coreFrame {c : CoreNo} {opc : Opc} {fn : AluFn} {rd rs1 : Gpr} {src : AluSrc} {s t : State}
    (h : exec (.intAlu ⟨c, opc⟩ fn rd rs1 src) s = .next t) : CoreFrame c (some rd) s t := by
  rw [exec_intAlu] at h
  dsimp only [execIntAlu] at h
  split at h
  · cases h; exact .refl ..
  · split at h
    · cases h; exact .illegal ..
    · cases h; exact (CoreFrame.alu ..).trans (.ret ..)

theorem execFpOp_coreFrame {c : CoreNo} {fn : FpFn} {dbl : Bool} {rd rs1 rs2 : Gpr} {s t : State}
    (h : exec (.fpOp c fn dbl rd rs1 rs2) s = .next t) : CoreFrame c (some rd) s t := by
  rw [exec_fpOp] at h
  dsimp only [execFpOp] at h
  split at h
  · cases h; exact .refl ..
  · split at h
    · cases h; exact .illegal ..
    · cases h; exact .ret ..

theorem execJumpAndLink_coreFrame {c : CoreNo} {opc : Opc} {rd rs1 : Gpr} {imm : BitVec 15} {s t : State}
    (h : exec (.jumpAndLink ⟨c, opc⟩ rd rs1 imm) s = .next t) : CoreFrame c (some rd) s t := by
  rw [exec_jumpAndLink] at h
  dsimp only [execJumpAndLink] at h
  split at h
  · cases h; exact .refl ..
  · split at h
    · cases h; exact .illegal ..
    · cases h; exact (CoreFrame.setG ..).trans (.setPc ..)

theorem execLoad_scratch_coreFrame {c : CoreNo} {opc : Opc} {w : Fin 4} {rd rs1 : Gpr} {imm : BitVec 15} {err : ArrayErr} {s t : State}
    (h : exec (.load ⟨c, opc⟩ .scratch w rd rs1 imm err) s = .next t) : CoreFrame c (some rd) s t := by
  rw [exec_load] at h
  dsimp only [execLoad] at h
  split at h
  · cases h; exact .refl ..
  · split at h
    · cases h; exact .illegal ..
    · cases h; exact .ret ..

/-- A branch of a core's own opcode moves the pc, and at most the count of free values. -/
theorem execCompareBranch_coreFrame {c : CoreNo} {cond : Cond} {rs1 rs2 : Gpr} {off : BitVec 15} {s t : State}
    (h : exec (.compareBranch ⟨c, .own⟩ cond rs1 rs2 off) s = .next t) : CoreFrame c none s t ∧ t.regs = s.regs := by
  rw [exec_compareBranch] at h
  simp only [execCompareBranch, badOpc_own, Bool.false_eq_true, if_false] at h
  split at h
  · cases h; exact ⟨.refl .., rfl⟩
  · split at h
    · cases h; exact ⟨(CoreFrame.compare ..).trans (.setPc ..), State.compare_regs ..⟩
    · cases h; exact ⟨(CoreFrame.compare ..).trans (.setPc ..), State.compare_regs ..⟩

/-- Settles O17: each instruction by its `CoreFrame`. -/
theorem coreRegistersFrame : Obligations.CoreRegistersFrame := by
  unfold Obligations.CoreRegistersFrame
  refine fun c rd rs1 rs2 s t i => ⟨fun hi h => ?_, ?_⟩
  · have frame : CoreFrame c (some rd) s t := by
      rcases hi with ⟨opc, fn, src, rfl⟩ | ⟨fn, dbl, rfl⟩ | ⟨opc, imm, rfl⟩ | ⟨opc, w, imm, err, rfl⟩
      · exact execIntAlu_coreFrame h
      · exact execFpOp_coreFrame h
      · exact execJumpAndLink_coreFrame h
      · exact execLoad_scratch_coreFrame h
    obtain ⟨hg, hcore, htmo, hscr, hmem, hclu, hsync, hnet⟩ := frame
    refine ⟨fun d q hdq => hg d q ?_, hcore, htmo, hscr, hmem, hclu, hsync, hnet⟩
    exact hdq.imp_right fun ne e => ne (Option.some.inj e).symm
  · rintro ⟨cond, off, rfl⟩ h
    obtain ⟨⟨hg, hcore, htmo, hscr, hmem, hclu, hsync, hnet⟩, hregs⟩ := execCompareBranch_coreFrame h
    exact ⟨fun d q => hg d q (.inr nofun), hcore, htmo, hscr, hmem, hregs, hclu, hsync, hnet⟩

end Sys2Proof.Machine
end

section
/-! Loads and stores of a core (R156, R158, R206): its scratch, cluster SRAM, and the memories behind their tollgate. -/

namespace Sys2Proof.Machine

/-! ## What an instruction's end leaves in its core -/

theorem State.core_setPc_same (s : State) (c : Nat) (v : W64) : ((s.setPc c v).core c).pc = v := by
  rw [State.setPc, State.core_setCore_same]

theorem State.pc_nextPc (s : State) (c : Nat) : ((s.nextPc c).core c).pc = (s.core c).pc + 4 := State.core_setPc_same ..

theorem State.pc_setG (s : State) (c r : Nat) (v : W64) : ((s.setG c r v).core c).pc = (s.core c).pc := by
  unfold State.setG
  split
  · rfl
  · rw [State.core_setCore_same]

theorem State.pc_ret (s : State) (c rd : Nat) (v : W64) : ((s.ret c rd v).core c).pc = (s.core c).pc + 4 := by
  rw [State.ret, State.pc_nextPc, State.pc_setG]

theorem State.nextPc_eq (s : State) (c : Nat) : ∃ cores, s.nextPc c = s.withCores cores := ⟨_, rfl⟩

/-! ## Scratch -/

theorem State.setScratchBytes_concat (s : State) (c a : Nat) (bs : List Byte) (b : Byte) :
    s.setScratchBytes c a (bs ++ [b]) = (s.setScratchBytes c a bs).setScratchByte c (a + bs.length) b := by
  simp [State.setScratchBytes, List.zipIdx_append]

theorem scratchKey_of_fits {c a i : Nat} (h : a + i < 131072) : scratchKey c (a + i) = scratchKey c a + i := by
  simp only [scratchKey, scratchSize]
  omega

/-- Bytes of scratch that do not run past its end lie one after the other. -/
theorem State.setScratchBytes_eq (s : State) (c : Nat) {a : Nat} {bs : List Byte} (h : a + bs.length ≤ 131072) :
    s.setScratchBytes c a bs = s.withScratch (setBytes s.scratch (scratchKey c a) bs) := by
  induction bs using List.reverseRecOn with
  | nil => rfl
  | append_singleton bs b ih =>
    rw [List.length_append, List.length_singleton] at h
    rw [State.setScratchBytes_concat, ih (by omega), setBytes_concat, State.setScratchByte, scratchKey_of_fits (by omega)]
    rfl

theorem State.scratchNat_withScratch_setBytes {s : State} {c a n v : Nat} {m : KMap Byte} (h : a + n ≤ 131072)
    (hm : m = setBytes s.scratch (scratchKey c a) (natBytes n v)) : (s.withScratch m).scratchNat c a n = v % 2 ^ (8 * n) := by
  refine leBytes_of_natBytes fun i hi => ?_
  rw [State.scratchByte, State.withScratch_scratch, hm, scratchKey_of_fits (by omega), get_setBytes_inside _ _ (by rwa [length_natBytes]), getD_natBytes v hi]

/-- The keys of a core's scratch that a run of bytes covers are those of its own bytes. -/
theorem State.scratchByte_withScratch_setBytes {s : State} {c a n v d x : Nat} {m : KMap Byte} (ha : a + n ≤ 131072) (hn : 0 < n) (hx : x < 131072)
    (hm : m = setBytes s.scratch (scratchKey c a) (natBytes n v)) (h : d ≠ c ∨ x < a ∨ a + n ≤ x) :
    (s.withScratch m).scratchByte d x = s.scratchByte d x := by
  rw [State.scratchByte, State.withScratch_scratch, hm, get_setBytes_outside]
  · rfl
  · rw [length_natBytes]
    simp only [scratchKey, scratchSize]
    omega

/-! ## The tollgates of an access -/

/-- The pieces of a range begin in it. -/
theorem mem_cuts {w fuel a n : Nat} {e : Nat × Nat} (hw : 0 < w) (h : e ∈ cuts w fuel a n) : a ≤ e.1 ∧ e.1 < a + n := by
  induction fuel generalizing a n with
  | zero => exact absurd h List.not_mem_nil
  | succ fuel ih =>
    unfold cuts at h
    split at h
    · exact absurd h List.not_mem_nil
    · next hn =>
      have hmod : a % w < w := Nat.mod_lt _ hw
      rcases List.mem_cons.mp h with rfl | h
      · exact ⟨Nat.le_refl _, by dsimp only; omega⟩
      · have := ih h
        omega

/-- A range that crosses no multiple of the width is one piece. -/
theorem cuts_one {w fuel a n : Nat} (hf : 0 < fuel) (hn : 0 < n) (h : a % w + n ≤ w) : cuts w fuel a n = [(a, n)] := by
  obtain ⟨fuel, rfl⟩ := Nat.exists_eq_succ_of_ne_zero (Nat.pos_iff_ne_zero.mp hf)
  have hm : min n (w - a % w) = n := by omega
  have hrest : cuts w fuel (a + n) 0 = [] := by cases fuel <;> rfl
  rw [cuts, if_neg (by omega)]
  simp only [hm, Nat.sub_self, hrest]

/-- No piece of the range lies behind a tollgate. -/
def State.NoToll (s : State) (a n : Nat) : Prop := ∀ e ∈ cuts 65536 n a n, ∀ r u m, s.place e.1 ≠ some (.unit r u m)

theorem State.charge_of_noToll {s : State} {a n : Nat} (d part : Nat) (wr : Bool) (h : s.NoToll a n) : s.charge d part a n wr = s := by
  unfold State.charge
  unfold State.NoToll at h
  generalize cuts 65536 n a n = l at h
  induction l with
  | nil => rfl
  | cons e l ih =>
    rw [List.foldl_cons]
    split
    · next r u m hp => exact absurd hp (h e List.mem_cons_self r u m)
    · exact ih fun x hx => h x (List.mem_cons_of_mem e hx)

theorem State.gateShut_of_noToll {s : State} {a n : Nat} (d part : Nat) (wr : Bool) (h : s.NoToll a n) : s.gateShut d part a n wr = false := by
  unfold State.gateShut
  rw [Bool.and_eq_false_iff]
  right
  rw [List.any_eq_false]
  intro e he
  split
  · next r u m hp => exact absurd hp (h e he r u m)
  · exact Bool.false_ne_true

theorem State.noToll_of_cluster {s : State} {a n k : Nat} (h : ∀ i, i < n → s.place (a + i) = some (.cluster k)) : s.NoToll a n := by
  intro e he r u m hp
  obtain ⟨h1, h2⟩ := mem_cuts (by decide) he
  obtain ⟨i, hi⟩ := Nat.exists_eq_add_of_le h1
  rw [hi, h i (by omega)] at hp
  cases hp

theorem State.noToll_of_first {s : State} {a n k : Nat} (hn : 0 < n) (hfit : a % 65536 + n ≤ 65536) (h : s.place a = some (.cluster k)) : s.NoToll a n := by
  intro e he r u m hp
  rw [cuts_one hn hn hfit, List.mem_singleton] at he
  rw [he, h] at hp
  cases hp

/-! ## Loads and stores -/

theorem exec_load_own_scratch {c : CoreNo} {w : Fin 4} {rd rs1 : Gpr} {imm : BitVec 15} {err : ArrayErr} {s : State} (hr : s.coreRuns c = true) :
    exec (.load ⟨c, .own⟩ .scratch w rd rs1 imm err) s =
      .next (s.ret c rd (BitVec.ofNat 64 (s.scratchNat c (s.g c rs1 + imm.signExtend 64).toNat (2 ^ w.val)))) := by
  rw [exec_load]
  simp [execLoad, hr, badOpc_own]

theorem exec_store_own_scratch {c : CoreNo} {w : Fin 4} {rs rs1 : Gpr} {imm : BitVec 15} {err : ArrayErr} {s : State} (hr : s.coreRuns c = true) :
    exec (.store ⟨c, .own⟩ .scratch w rs rs1 imm err) s =
      .next ((s.setScratchBytes c (s.g c rs1 + imm.signExtend 64).toNat (natBytes (2 ^ w.val) (s.g c rs).toNat)).nextPc c) := by
  rw [exec_store]
  simp [execStore, hr, badOpc_own]

theorem exec_load_own_addr {c : CoreNo} {w : Fin 4} {rd rs1 : Gpr} {imm : BitVec 15} {err : ArrayErr} {s : State} {l : Nat} (hr : s.coreRuns c = true)
    (hl : s.localOf (s.g c rs1 + imm.signExtend 64) = some l) (hd : s.dieAway c l = false) :
    exec (.load ⟨c, .own⟩ .addr w rd rs1 imm err) s = .next (s.loadInsn c rd l (2 ^ w.val) err) := by
  rw [exec_load]
  simp [execLoad, hr, badOpc_own, hl, hd]

theorem exec_store_own_addr {c : CoreNo} {w : Fin 4} {rs rs1 : Gpr} {imm : BitVec 15} {err : ArrayErr} {s : State} {l : Nat} (hr : s.coreRuns c = true)
    (hl : s.localOf (s.g c rs1 + imm.signExtend 64) = some l) (hd : s.dieAway c l = false) :
    exec (.store ⟨c, .own⟩ .addr w rs rs1 imm err) s = .next (s.storeInsn c l (2 ^ w.val) (s.g c rs) err) := by
  rw [exec_store]
  simp [execStore, hr, badOpc_own, hl, hd]

/-- A load whose checks pass and whose tollgate is open, of bytes that no array error meets and no poison marks. -/
theorem State.loadInsn_of_memory {s : State} {c rd l n : Nat} {p : Place} (hp : s.place l = some p) (hw : p ≠ .window)
    (hc : s.memCheck (s.coreCtx c) l n = St.ok) (hg : s.gateShut (slotDie c) (s.partOf (s.coreCtx c)) l n false = false)
    (hb : (s.charge (slotDie c) (s.partOf (s.coreCtx c)) l n false).loadPoison l n = false) :
    s.loadInsn c rd l n .none = (s.charge (slotDie c) (s.partOf (s.coreCtx c)) l n false).ret c rd
      (BitVec.ofNat 64 ((s.charge (slotDie c) (s.partOf (s.coreCtx c)) l n false).loadNat l n)) := by
  have hwin : ¬ s.place l = some .window := fun h => hw (Option.some.inj (hp.symm.trans h))
  unfold State.loadInsn
  dsimp only [State.arrayErr]
  rw [if_neg (fun h => h hc), if_neg hwin, hg, if_neg Bool.false_ne_true, hb, if_neg Bool.false_ne_true]

/-- A store whose checks pass and whose tollgate is open, that no array error meets. -/
theorem State.storeInsn_of_memory {s : State} {c l n : Nat} {v : W64} {p : Place} (hp : s.place l = some p) (hw : p ≠ .window)
    (hc : s.memCheckW (s.coreCtx c) l n = St.ok) (hg : s.gateShut (slotDie c) (s.partOf (s.coreCtx c)) l n true = false) :
    s.storeInsn c l n v .none =
      (((s.charge (slotDie c) (s.partOf (s.coreCtx c)) l n true).storeNat l n v.toNat).wakeRange l n).nextPc c := by
  have hwin : ¬ s.place l = some .window := fun h => hw (Option.some.inj (hp.symm.trans h))
  unfold State.storeInsn
  dsimp only
  rw [if_neg (fun h => h hc), if_neg hwin, hg, if_neg Bool.false_ne_true]
  split <;> rfl

/-- A load from cluster SRAM passes no tollgate (R205). -/
theorem State.loadInsn_cluster {s : State} {c rd l n k : Nat} (hp : s.place l = some (.cluster k)) (ht : s.NoToll l n)
    (hc : s.memCheck (s.coreCtx c) l n = St.ok) (hb : s.loadPoison l n = false) :
    s.loadInsn c rd l n .none = s.ret c rd (BitVec.ofNat 64 (s.loadNat l n)) := by
  rw [State.loadInsn_of_memory hp (by simp) hc (State.gateShut_of_noToll _ _ _ ht) (by rwa [State.charge_of_noToll _ _ _ ht]),
    State.charge_of_noToll _ _ _ ht]

theorem State.storeInsn_cluster {s : State} {c l n k : Nat} {v : W64} (hp : s.place l = some (.cluster k)) (ht : s.NoToll l n)
    (hc : s.memCheckW (s.coreCtx c) l n = St.ok) :
    s.storeInsn c l n v .none = ((s.storeNat l n v.toNat).wakeRange l n).nextPc c := by
  rw [State.storeInsn_of_memory hp (by simp) hc (State.gateShut_of_noToll _ _ _ ht), State.charge_of_noToll _ _ _ ht]

theorem State.wakeRange_of_noWaiters {s : State} (a n : Nat) (h : s.sync.waiters = []) : s.wakeRange a n = s := by
  simp [State.wakeRange, h]

/-- Settles O26: each form by its equation, the tollgate left out for cluster SRAM. -/
theorem coreMemory : Obligations.CoreMemory := by
  unfold Obligations.CoreMemory
  refine ⟨?_, fun c w rs rs1 imm err s hr => exec_store_own_scratch hr, ?_, ?_, ?_, ?_, ?_⟩
  · intro c w rd rs1 imm err s hr
    exact ⟨_, exec_load_own_scratch hr, State.g_ret .., State.pc_ret ..⟩
  · intro c w rd rs1 imm s l k hr hl hp hfit hd hc hb
    have ht := State.noToll_of_first (Nat.two_pow_pos _) hfit hp
    rw [exec_load_own_addr hr hl hd, State.loadInsn_cluster hp ht hc hb]
    exact ⟨_, rfl, State.g_ret .., State.pc_ret ..⟩
  · intro c w rs rs1 imm s l k hr hl hp hfit hd hc
    rw [exec_store_own_addr hr hl hd, State.storeInsn_cluster hp (State.noToll_of_first (Nat.two_pow_pos _) hfit hp) hc]
  · intro c w rd rs1 imm s l r u m hr hl hp hd hc hg hb
    rw [exec_load_own_addr hr hl hd, State.loadInsn_of_memory hp (by simp) hc hg hb]
    exact ⟨_, rfl, State.g_ret ..⟩
  · intro c w rs rs1 imm s l r u m hr hl hp hd hc hg
    rw [exec_store_own_addr hr hl hd, State.storeInsn_of_memory hp (by simp) hc hg]
  · intro c w r rs1 imm err s l hr hl hd
    exact ⟨exec_load_own_addr hr hl hd, exec_store_own_addr hr hl hd⟩

/-- Settles O18: in scratch by the keys of its bytes, in cluster SRAM by `State.storeNat_cluster`. -/
theorem coreStoreFrame : Obligations.CoreStoreFrame := by
  unfold Obligations.CoreStoreFrame
  constructor
  · intro c w rs rs1 imm err s a hr ha hfit
    have hn : 0 < 2 ^ w.val := Nat.two_pow_pos _
    have hm := State.setScratchBytes_eq s c (a := a) (bs := natBytes (2 ^ w.val) (s.g c rs).toNat) (by rwa [length_natBytes])
    refine ⟨_, exec_store_own_scratch hr, ?_, ?_, fun d q => ?_, ?_, ?_⟩
    · rw [← ha, hm]
      exact State.scratchNat_withScratch_setBytes hfit rfl
    · intro d x hx hout
      rw [← ha, hm]
      exact congrArg (fun b => b.toNat + 256 * 0) (State.scratchByte_withScratch_setBytes hfit hn hx rfl hout)
    · rw [← ha, hm, State.g_nextPc]
      rfl
    · rw [← ha, hm]
      rfl
    · rw [← ha, hm]
      rfl
  · intro c w rs rs1 imm s l k hr hwait hl hd hp hc hf
    have hp0 : s.place l = some (.cluster k) := hp 0 (Nat.two_pow_pos _)
    obtain ⟨m, hs, hm, -⟩ := State.storeNat_cluster (s.g c rs).toNat hp hf
    refine ⟨(s.withMem m).nextPc c, ?_, State.loadNat_withMem_setBytes (s := s) hp hm, fun x => State.byteKey_withMem_setBytes (s := s) hm, fun d q => ?_,
      State.pc_nextPc .., rfl, rfl, rfl, rfl⟩
    · rw [exec_store_own_addr hr hl hd, State.storeInsn_cluster hp0 (State.noToll_of_cluster hp) hc, hs,
        State.wakeRange_of_noWaiters (s := s.withMem m) _ _ hwait]
    · rw [State.g_nextPc]
      rfl

end Sys2Proof.Machine
end

section
/-! Integer and floating-point instructions, branches, jumps, system registers, and the start and stop of cores (R156, R157, R163). -/

namespace Sys2Proof.Machine

/-! ## Arithmetic -/

theorem exec_intAlu_own {c : CoreNo} {fn : AluFn} {rd rs1 : Gpr} {src : AluSrc} {s : State} (hr : s.coreRuns c = true) :
    exec (.intAlu ⟨c, .own⟩ fn rd rs1 src) s = .next ((s.alu fn (s.g c rs1) (s.src2 c src)).2.ret c rd (s.alu fn (s.g c rs1) (s.src2 c src)).1) := by
  rw [exec_intAlu]
  simp [execIntAlu, hr, badOpc_own]

theorem State.alu_cores (s : State) (fn : AluFn) (a b : W64) : (s.alu fn a b).2.cores = s.cores := by
  cases fn
  case shl | shr =>
    dsimp only [State.alu]
    split <;> rfl
  all_goals rfl

/-- An integer instruction ends whatever its function: the pc moves past it. -/
theorem exec_intAlu_pc {c : CoreNo} {rd rs1 : Gpr} {src : AluSrc} {s : State} (hr : s.coreRuns c = true) (fn : AluFn) :
    ∃ t, exec (.intAlu ⟨c, .own⟩ fn rd rs1 src) s = .next t ∧ (t.core c).pc = (s.core c).pc + 4 := by
  refine ⟨_, exec_intAlu_own hr, ?_⟩
  rw [State.pc_ret, State.core, State.alu_cores]
  rfl

/-- A function that answers v and draws nothing writes v to RD. -/
theorem exec_intAlu_of_alu {c : CoreNo} {fn : AluFn} {rd rs1 : Gpr} {src : AluSrc} {s : State} {v : W64} (hr : s.coreRuns c = true)
    (hv : s.alu fn (s.g c rs1) (s.src2 c src) = (v, s)) :
    ∃ t, exec (.intAlu ⟨c, .own⟩ fn rd rs1 src) s = .next t ∧ t.g c rd = (if rd.val = 0 then 0 else v) ∧ (t.core c).pc = (s.core c).pc + 4 := by
  rw [exec_intAlu_own hr, hv]
  exact ⟨_, rfl, State.g_ret .., State.pc_ret ..⟩

theorem exec_fpOp_of_noCourier {c : CoreNo} {fn : FpFn} {dbl : Bool} {rd rs1 rs2 : Gpr} {s : State} (hr : s.coreRuns c = true)
    (hc : c.val < 336 ∨ 340 ≤ c.val) : exec (.fpOp c fn dbl rd rs1 rs2) s = .next (s.ret c rd (fpResult fn dbl (s.g c rs1) (s.g c rs2))) := by
  rw [exec_fpOp]
  simp [execFpOp, hr, show ¬ (336 ≤ c.val ∧ c.val < 340) by omega]

theorem exec_fpOp_of_courier {c : CoreNo} {fn : FpFn} {dbl : Bool} {rd rs1 rs2 : Gpr} {s : State} (hr : s.coreRuns c = true)
    (h1 : 336 ≤ c.val) (h2 : c.val < 340) : exec (.fpOp c fn dbl rd rs1 rs2) s = .next (s.illegal c) := by
  rw [exec_fpOp]
  simp [execFpOp, hr, h1, h2]

/-- A courier has no error bit of its own for ILLEGAL_INSN (log 21). -/
theorem State.illegal_of_courier (s : State) {c : Nat} (h1 : 336 ≤ c) (h2 : c < 340) : s.illegal c = (s.raise c St.illegalInsn).nextPc c := by
  simp [State.illegal, h2, show ¬ c < 336 by omega]

theorem badOpc_of_not_profile {c : Nat} {x : BitVec 7} (h : (profile c).contains x.toNat = false) : badOpc c (.other x) = true := by
  simp only [badOpc, h, Bool.not_false]

/-- Settles O25: each function by what `State.alu` answers for it. -/
theorem coreArithmetic : Obligations.CoreArithmetic := by
  unfold Obligations.CoreArithmetic
  refine ⟨fun c rd rs1 src s hr => ?_, fun c fn dbl rd rs1 rs2 s hr hc => ?_, fun c fn dbl rd rs1 rs2 s hr h1 h2 => ?_, ?_⟩
  · refine ⟨exec_intAlu_of_alu hr rfl, exec_intAlu_of_alu hr rfl, exec_intAlu_of_alu hr rfl, exec_intAlu_of_alu hr rfl, exec_intAlu_of_alu hr rfl,
      exec_intAlu_of_alu hr rfl, fun hsh => ⟨?_, ?_⟩, fun _ => ⟨exec_intAlu_pc hr _, exec_intAlu_pc hr _⟩, fun f => exec_intAlu_pc hr _⟩
    · exact exec_intAlu_of_alu hr (if_pos hsh)
    · exact exec_intAlu_of_alu hr (if_pos hsh)
  · exact ⟨_, exec_fpOp_of_noCourier hr hc, State.g_ret .., State.pc_ret ..⟩
  · have frame : CoreFrame c none s (s.illegal c) := .illegal ..
    refine ⟨_, exec_fpOp_of_courier hr h1 h2, fun q => frame.g c q (.inr nofun), ?_⟩
    rw [State.illegal_of_courier s h1 h2, State.pc_nextPc, State.raise, State.core_setCore_same]
  · intro c x fn src sp w cond f rd rs1 imm err s hr hx
    have hbad := badOpc_of_not_profile hx
    refine ⟨?_, ?_, ?_, ?_, ?_, ?_⟩
    · rw [exec_intAlu]; simp [execIntAlu, hr, hbad]
    · rw [exec_load]; simp [execLoad, hr, hbad]
    · rw [exec_store]; simp [execStore, hr, hbad]
    · rw [exec_compareBranch]; simp [execCompareBranch, hr, hbad]
    · rw [exec_jumpAndLink]; simp [execJumpAndLink, hr, hbad]
    · rw [exec_systemOp]; simp [execSystemOp, hr, hbad]

/-! ## Branches and jumps -/

/-- A compare that draws nothing decides the pc. -/
theorem exec_compareBranch_of_compare {c : CoreNo} {cond : Cond} {rs1 rs2 : Gpr} {off : BitVec 15} {s : State} {p : Prop} [Decidable p]
    (hr : s.coreRuns c = true) (hp : s.compare cond (s.g c rs1) (s.g c rs2) = (decide p, s)) :
    ∃ t, exec (.compareBranch ⟨c, .own⟩ cond rs1 rs2 off) s = .next t ∧
      (t.core c).pc = if p then (s.core c).pc + Config.branchBase + 4 * off.signExtend 64 else (s.core c).pc + 4 := by
  rw [exec_compareBranch]
  by_cases h : p
  · refine ⟨s.setPc c ((s.core c).pc + Config.branchBase + 4 * off.signExtend 64), ?_, ?_⟩
    · simp [execCompareBranch, hr, badOpc_own, hp, h]
    · rw [State.core_setPc_same, if_pos h]
  · refine ⟨s.nextPc c, ?_, ?_⟩
    · simp [execCompareBranch, hr, badOpc_own, hp, h]
    · rw [State.pc_nextPc, if_neg h]

theorem exec_jumpAndLink_own {c : CoreNo} {rd rs1 : Gpr} {imm : BitVec 15} {s : State} (hr : s.coreRuns c = true) :
    exec (.jumpAndLink ⟨c, .own⟩ rd rs1 imm) s = .next ((s.setG c rd ((s.core c).pc + 4)).setPc c (s.g c rs1 + imm.signExtend 64)) := by
  rw [exec_jumpAndLink]
  simp [execJumpAndLink, hr, badOpc_own]

theorem State.g_setPc (s : State) (c d q : Nat) (v : W64) : (s.setPc c v).g d q = s.g d q :=
  (CoreFrame.setPc c none s v).g d q (.inr nofun)

/-! ## System registers -/

theorem exec_systemOp_read {c : CoreNo} {rd : Gpr} {r : Csr} {s : State} (hr : s.coreRuns c = true) :
    exec (.systemOp ⟨c, .own⟩ (.read rd r)) s = .next ((s.csrRead c r).2.ret c rd (s.csrRead c r).1) := by
  rw [exec_systemOp]
  simp [execSystemOp, hr, badOpc_own]

theorem exec_systemOp_write {c : CoreNo} {rs1 : Gpr} {r : Csr} {s : State} (hr : s.coreRuns c = true) :
    exec (.systemOp ⟨c, .own⟩ (.write r rs1)) s = .next ((s.csrWrite c r (s.g c rs1)).nextPc c) := by
  rw [exec_systemOp]
  simp [execSystemOp, hr, badOpc_own]

theorem exec_systemOp_fence {c : CoreNo} {s : State} (hr : s.coreRuns c = true) : exec (.systemOp ⟨c, .own⟩ .fence) s = .next (s.nextPc c) := by
  rw [exec_systemOp]
  simp [execSystemOp, hr, badOpc_own]

/-! ## A cluster's context -/

/-- The writable bits of CLU.CTX of every cluster. -/
theorem rowOf_cluCtx (c : ClusterNo) : (rowOf (Pg.clu c + 0x100)).map (·.rw) = some 0x1FF := by
  revert c
  decide +kernel

/-- A write of CLU.CTX: nothing that does not change the register, BAD_SEQ while the cluster is not idle or for a fenced cluster, else
the context changes. -/
theorem exec_cluCtxWrite_eq (c : ClusterNo) (data : W64) (s : State) :
    exec (.cluCtxWrite c data) s =
      if s.changes (Pg.clu c + 0x100) 0x1FF data = false then .next s
      else if s.cluIdle c = false ∨ (s.clusterFenced c = true ∧ data.getLsbD 8 = true) then .next (s.setErr (Pg.clu c) F.cluErrStatBadSeq 0)
      else .next (if (s.plainWrite (Pg.clu c + 0x100) data).reg (Pg.clu c + 0x100) = s.reg (Pg.clu c + 0x100)
        then s.plainWrite (Pg.clu c + 0x100) data else (s.plainWrite (Pg.clu c + 0x100) data).changeCtx c) := by
  rw [exec_cluCtxWrite, execCluCtxWrite]
  obtain ⟨r, hrow, hrw⟩ := Option.map_eq_some_iff.mp (rowOf_cluCtx c)
  simp [hrow, hrw]

/-- Settles O27. -/
theorem coreControl : Obligations.CoreControl := by
  unfold Obligations.CoreControl
  refine ⟨fun c rs1 rs2 off s hr => ⟨?_, ?_, fun hsign => ⟨?_, ?_⟩⟩, fun c rd rs1 imm s hr => ?_, fun c rd rs1 s hr => ⟨?_, ?_, ?_, ?_⟩,
    fun c k s hrun hk hc => ?_, fun c k s hrun => ?_, fun c data s hch hidle hfen hreg => ?_, fun c data s hch hidle => ?_, fun c data s hch => ?_⟩
  · exact exec_compareBranch_of_compare hr rfl
  · exact exec_compareBranch_of_compare hr rfl
  · exact exec_compareBranch_of_compare hr (if_pos hsign)
  · exact exec_compareBranch_of_compare hr (if_pos hsign)
  · refine ⟨_, exec_jumpAndLink_own hr, ?_, State.core_setPc_same ..⟩
    rw [State.g_setPc, ← State.g_ret s c rd, State.ret, State.g_nextPc]
  · exact ⟨_, exec_systemOp_read hr, State.g_ret ..⟩
  · exact ⟨_, exec_systemOp_read hr, State.g_ret ..⟩
  · refine ⟨_, exec_systemOp_write hr, ?_⟩
    rw [State.nextPc, State.setPc, State.core_setCore_same, State.csrWrite, State.core_setCore_same]
  · exact ⟨_, exec_systemOp_fence hr, State.pc_nextPc .., rfl, rfl⟩
  · rw [exec_coreRun]
    refine ⟨_, ?_, State.core_setPc_same (s.setFld (Pg.clu c) F.cluCoreRun (s.fld (Pg.clu c) F.cluCoreRun + 2 ^ k.val)) _ _⟩
    simp [execCoreRun, hrun, hk, hc]
  · rw [exec_coreStop]
    exact if_pos hrun
  · rw [exec_cluCtxWrite_eq, if_neg (ne_false_of_eq_true hch), if_neg (by simp [hidle, hfen]), if_neg hreg]
  · rw [exec_cluCtxWrite_eq, if_neg (ne_false_of_eq_true hch), if_pos (.inl hidle)]
  · rw [exec_cluCtxWrite_eq, if_pos hch]

end Sys2Proof.Machine
end

section
/-! Tile issue and the life of a tile (R95 to R108, R113, R120 to R124). -/

namespace Sys2Proof.Machine

/-! ## Issue -/

theorem State.newWork_of_notAborting {s t : State} {c rd : Nat} (h : s.aborting (s.coreCtx c) = false) : s.newWork c rd t = t := by
  rw [State.newWork, h, if_neg Bool.false_ne_true]

theorem State.newWork_of_aborting {s t : State} {c rd : Nat} (h : s.aborting (s.coreCtx c) = true) : s.newWork c rd t = s.retSt c rd St.aborted := by
  rw [State.newWork, h, if_pos rfl]

theorem exec_tissue_of_runs {c : ClusterNo} {rd rs1 rs2 : Gpr} {s : State} (hr : s.coreRuns (stewardOf c) = true) :
    exec (.tissue c rd rs1 rs2) s = .next (s.newWork (stewardOf c) rd
      (if 16 ≤ ((s.clu c).tileQ ((s.g (stewardOf c) rs1).toNat % 4)).length then s.retSt (stewardOf c) rd St.queueFull
        else (s.pushTiles c ((s.g (stewardOf c) rs1).toNat % 4) [s.tileOf c (s.g (stewardOf c) rs2).toNat 0]).retSt (stewardOf c) rd St.ok)) := by
  rw [exec_tissue]
  simp only [execTissue, hr, Bool.not_true, Bool.false_eq_true, if_false]

theorem exec_tpair_of_runs {c : ClusterNo} {rd rs1 rs2 : Gpr} {s : State} (hr : s.coreRuns (stewardOf c) = true) :
    exec (.tpair c rd rs1 rs2) s = .next (s.newWork (stewardOf c) rd
      (if 15 ≤ ((s.clu c).tileQ ((s.g (stewardOf c) rs1).toNat % 4)).length then s.retSt (stewardOf c) rd St.queueFull
        else (s.pushTiles c ((s.g (stewardOf c) rs1).toNat % 4)
          [s.tileOf c (s.g (stewardOf c) rs2).toNat 1, s.tileOf c ((s.g (stewardOf c) rs2).toNat + 64) 2]).retSt (stewardOf c) rd St.ok)) := by
  rw [exec_tpair]
  simp only [execTpair, hr, Bool.not_true, Bool.false_eq_true, if_false]

theorem State.ret_clusters (s : State) (c rd : Nat) (v : W64) : (s.ret c rd v).clusters = s.clusters := (CoreFrame.ret c rd s v).clusters

theorem State.clu_congr {s t : State} (h : t.clusters = s.clusters) (c : Nat) : t.clu c = s.clu c := by rw [State.clu, State.clu, h]

/-- The tiles issued stand at the end of their slot's queue, and the status is in RD. -/
theorem State.tileQ_pushTiles_retSt (s : State) (c slot : Nat) (l : List TileCmd) (p rd st : Nat) :
    (((s.pushTiles c slot l).retSt p rd st).clu c).tileQ slot = (s.clu c).tileQ slot ++ l := by
  rw [State.retSt, State.clu_congr (State.ret_clusters ..), State.pushTiles, State.clu_setClu_same, Cluster.tileQ, KMap.get_set_same]

/-! ## The life of a tile -/

/-- What `State.mayStartTile` rules out for the engine's unit. -/
theorem State.free_of_mayStartTile {s : State} {c slot e : Nat} {t : TileCmd} (h : s.mayStartTile c slot e t = true) :
    s.unitBlocked c (Pg.mxe e) = false ∧ s.inReset [(0, e), (9, c)] = false := by
  simp only [State.mayStartTile, Bool.and_eq_true, Bool.not_eq_true'] at h
  exact ⟨h.1.1.1.1, h.1.1.1.2⟩

theorem exec_tileExecute_single {c : ClusterNo} {slot : Fin 4} {faults : List CellFault} {hits : Hits} {s : State} {t : TileCmd}
    {rest : List TileCmd} {e : Nat} (hq : (s.clu c).tileQ slot = t :: rest) (hp : t.pair = 0) (ht : s.plat.thermtrip = false)
    (he : s.mxeFor c slot t = some e) (hc : tileCheck (s.sramSize c) t = St.ok) (hm : s.mayStartTile c slot e t = true) :
    exec (.tileExecute ⟨c, hits⟩ slot faults) s = .next (((s.meet hits).setTileQ c slot rest).startTile c slot e t faults) := by
  obtain ⟨hu, hi⟩ := State.free_of_mayStartTile hm
  rw [exec_tileExecute]
  simp [execTileExecute, hq, he, hp, ht, hu, hi, hc, hm]

theorem exec_tileExecute_pair {c : ClusterNo} {slot : Fin 4} {faults : List CellFault} {hits : Hits} {s : State} {t q : TileCmd}
    {rest : List TileCmd} {e : Nat} (hq : (s.clu c).tileQ slot = t :: q :: rest) (hp : t.pair = 1) (ht : s.plat.thermtrip = false)
    (he : s.mxeFor c slot t = some e) (hc : tileCheck (s.sramSize c) t = St.ok) (hcq : tileCheck (s.sramSize c) q = St.ok)
    (hok : pairOk t q = true) (hm : s.mayStartTile c slot e t = true) :
    exec (.tileExecute ⟨c, hits⟩ slot faults) s =
      .next (((s.meet hits).setTileQ c slot ({ q with engines := [e] } :: rest)).startTile c slot e t faults) := by
  obtain ⟨hu, hi⟩ := State.free_of_mayStartTile hm
  rw [exec_tileExecute]
  simp [execTileExecute, hq, he, hp, ht, hu, hi, hc, hcq, hok, hm]

theorem exec_tileExecute_fenced {c : ClusterNo} {slot : Fin 4} {faults : List CellFault} {hits : Hits} {s : State} {t : TileCmd}
    {rest : List TileCmd} (hq : (s.clu c).tileQ slot = t :: rest) (hp : t.pair ≠ 1) (he : s.mxeFor c slot t = none) :
    exec (.tileExecute ⟨c, hits⟩ slot faults) s = .next ((s.setTileQ c slot rest).refuseTile c slot 0 t St.engineFenced) := by
  rw [exec_tileExecute]
  simp only [execTileExecute, hq, he]
  split
  · next h => exact absurd h hp
  · rfl
  all_goals contradiction

/-- Settles O20. -/
theorem tileCommands : Obligations.TileCommands := by
  unfold Obligations.TileCommands
  refine ⟨⟨fun c rd rs1 rs2 s hr ha hlen => ?_, fun c rd rs1 rs2 s hr ha hlen => ?_, fun c rd rs1 rs2 s hr ha hlen => ⟨?_, ?_⟩,
      fun c rd rs1 rs2 s hr ha => ⟨?_, ?_⟩⟩,
    ⟨fun c slot faults hits s t rest e => exec_tileExecute_single, fun c slot faults hits s t q rest e => exec_tileExecute_pair,
      fun c slot faults hits s t rest => exec_tileExecute_fenced, fun e s a r h => ?_, fun e faults hits s a r ht hi hd h => ?_,
      fun e s a r h he => ?_, fun e s a r h he => ?_, fun e s a r h => ?_⟩⟩
  · rw [exec_tissue_of_runs hr, State.newWork_of_notAborting ha, if_neg (by omega)]
    exact ⟨_, rfl, State.tileQ_pushTiles_retSt .., State.g_ret ..⟩
  · rw [exec_tpair_of_runs hr, State.newWork_of_notAborting ha, if_neg (by omega)]
    exact ⟨_, rfl, State.tileQ_pushTiles_retSt .., State.g_ret ..⟩
  · rw [exec_tissue_of_runs hr, State.newWork_of_notAborting ha, if_pos hlen]
  · rw [exec_tpair_of_runs hr, State.newWork_of_notAborting ha, if_pos (by omega)]
  · rw [exec_tissue_of_runs hr, State.newWork_of_aborting ha]
  · rw [exec_tpair_of_runs hr, State.newWork_of_aborting ha]
  · rw [exec_tileCheckDone, execTileCheckDone, h]
  · rw [exec_tileRerun, execTileRerun]
    simp only [ht, hi, hd, Bool.or_false, Bool.false_eq_true, if_false, h]
  · rw [exec_tileDrainStart, execTileDrainStart, h]
    exact if_pos he
  · rw [exec_tileDrainStart, execTileDrainStart, h]
    exact if_neg (not_not_intro he)
  · rw [exec_tileDrainEnd, execTileDrainEnd, h]

end Sys2Proof.Machine
end

section
/-! Fence, self-test and re-admission (R111, R112, R155, R218, R219, R244, R327, R357, R399). -/

namespace Sys2Proof.Machine

theorem State.startSelftest_of_fenced {s : State} {page : Nat} {f : Fld} (h : s.fld page f = Eng.fenced) :
    s.startSelftest page f = s.setFld page f Eng.selftest := if_pos h

theorem State.startSelftest_of_not_fenced {s : State} {page : Nat} {f : Fld} (h : s.fld page f ≠ Eng.fenced) :
    s.startSelftest page f = s.badSeq page := if_neg h

theorem State.endSelftest_of_selftest {s : State} {page : Nat} {f : Fld} (pass : Bool) (h : s.fld page f = Eng.selftest) :
    s.endSelftest page f pass = s.setFld page f (if pass then Eng.selftestPass else Eng.selftestFail) := if_pos h

theorem State.readmit_of_pass {s : State} {page key : Nat} {f : Fld} (h : s.fld page f = Eng.selftestPass) :
    s.readmit page f key = ((s.setFld page f Eng.idle).setBitF page F.mxeCtrlFence false).putUnit key
      { s.unitRec key with fenced := false, cause := 0, strikes := [] } := if_pos h

theorem State.readmit_of_not_pass {s : State} {page key : Nat} {f : Fld} (h : s.fld page f ≠ Eng.selftestPass) :
    s.readmit page f key = s.badSeq page := if_neg h

/-- A STATE field of three or four bits holds the state written. -/
theorem State.fld_setFld_state {s : State} {page v : Nat} {f : Fld} (h1 : f.lo ≤ f.hi) (h2 : f.hi < 64) (hv : v < 2 ^ (f.hi + 1 - f.lo)) :
    (s.setFld page f v).fld page f = v := by
  rw [State.fld_setFld_same _ _ _ _ h1 h2, Nat.mod_eq_of_lt hv]

theorem selftestOutcome_lt (pass : Bool) : (if pass then Eng.selftestPass else Eng.selftestFail) < 2 ^ 4 := by
  cases pass <;> decide

/-- The four kinds of unit share the place of STATE. -/
theorem State.fld_startSelftest {s : State} {page : Nat} (h : s.fld page F.mxeStatState = Eng.fenced) :
    (s.startSelftest page F.mxeStatState).fld page F.mxeStatState = Eng.selftest := by
  rw [State.startSelftest_of_fenced h]
  exact State.fld_setFld_state (by decide) (by decide) (by decide)

theorem State.fld_endSelftest {s : State} {page : Nat} (pass : Bool) (h : s.fld page F.mxeStatState = Eng.selftest) :
    (s.endSelftest page F.mxeStatState pass).fld page F.mxeStatState = if pass then Eng.selftestPass else Eng.selftestFail := by
  rw [State.endSelftest_of_selftest pass h]
  exact State.fld_setFld_state (by decide) (by decide) (selftestOutcome_lt pass)

/-! ## Fences -/

theorem State.fenceMxe_of_inService {s : State} {e : Nat} (cause : Nat) (h : outOfSvc (s.fld (Pg.mxe e) F.mxeStatState) = false) :
    s.fenceMxe e cause = if s.pairOpen e then s.setMxe e { s.mxe e with fenceDue := some cause } else s.fenceMxeNow e cause := by
  rw [State.fenceMxe, h, if_neg Bool.false_ne_true]

theorem State.fenceVxe_of_idle {s : State} {v : Nat} (cause : Nat) (h : outOfSvc (s.fld (Pg.vxe v) F.vxeStatState) = false)
    (hv : s.vxe v = none) : s.fenceVxe v cause = s.fenceVxeNow v cause := by
  rw [State.fenceVxe, h, if_neg Bool.false_ne_true, hv]

theorem State.fenceVxe_of_running {s : State} {v : Nat} {r : ChainRun} (cause : Nat) (h : outOfSvc (s.fld (Pg.vxe v) F.vxeStatState) = false)
    (hv : s.vxe v = some r) (hf : r.fenceDue = none) : s.fenceVxe v cause = s.setVxe v (some { r with fenceDue := some cause }) := by
  rw [State.fenceVxe, h, if_neg Bool.false_ne_true, hv]
  exact if_neg (by rw [hf]; exact Bool.false_ne_true)

theorem State.ifRun_of_run {s t : State} (h : s.fld Pg.rcv F.rcvStatPhase = 0) : s.ifRun t = t := if_pos h

theorem State.ifRun_of_not_run {s t : State} (h : s.fld Pg.rcv F.rcvStatPhase ≠ 0) : s.ifRun t = s.badSeq Pg.rcv := if_neg h

/-- Settles O21: the self-test's and the re-admission's shared operations, then each unit's fence. -/
theorem engineService : Obligations.EngineService := by
  unfold Obligations.EngineService
  constructor
  · refine ⟨fun e s h => ?_, fun v s h => ?_, fun u s h => ?_, fun d s h => ?_, fun e pass s h => ?_, fun v pass s h => ?_, fun u pass s h => ?_,
      fun d pass s h => ?_, fun v s h => ?_, fun u s h => ?_, fun d s h => ?_, fun e s h => ?_, fun e s => ⟨fun h => ?_, fun h => ?_⟩,
      fun v s => ⟨fun h => ?_, fun h => ?_⟩, fun u s => ⟨fun h => ?_, fun h => ?_⟩, fun d s => ⟨fun h => ?_, fun h => ?_⟩⟩
    · rw [exec_mxeSelftest]; exact ⟨_, rfl, State.fld_startSelftest h⟩
    · rw [exec_vxeSelftest]; exact ⟨_, rfl, State.fld_startSelftest h⟩
    · rw [exec_uuSelftest]; exact ⟨_, rfl, State.fld_startSelftest h⟩
    · rw [exec_crrSelftest]; exact ⟨_, rfl, State.fld_startSelftest h⟩
    · rw [exec_mxeSelftestDone]; exact ⟨_, rfl, State.fld_endSelftest pass h⟩
    · rw [exec_vxeSelftestDone]; exact ⟨_, rfl, State.fld_endSelftest pass h⟩
    · rw [exec_uuSelftestDone]; exact ⟨_, rfl, State.fld_endSelftest pass h⟩
    · rw [exec_crrSelftestDone]; exact ⟨_, rfl, State.fld_endSelftest pass h⟩
    · rw [exec_vxeReadmit]; exact ⟨_, rfl, State.readmit_of_pass h⟩
    · rw [exec_uuReadmit]; exact ⟨_, rfl, State.readmit_of_pass h⟩
    · rw [exec_crrReadmit]; exact ⟨_, rfl, State.readmit_of_pass h⟩
    · rw [exec_mxeReadmit, execMxeReadmit, State.readmit_of_pass h]; exact ⟨_, rfl, rfl⟩
    · rw [exec_mxeSelftest, execMxeSelftest, State.startSelftest_of_not_fenced h]
    · rw [exec_mxeReadmit, execMxeReadmit, State.readmit_of_not_pass h]
    · rw [exec_vxeSelftest, execVxeSelftest, State.startSelftest_of_not_fenced h]
    · rw [exec_vxeReadmit, execVxeReadmit, State.readmit_of_not_pass h]
    · rw [exec_uuSelftest, execUuSelftest, State.startSelftest_of_not_fenced h]
    · rw [exec_uuReadmit, execUuReadmit, State.readmit_of_not_pass h]
    · rw [exec_crrSelftest, execCrrSelftest, State.startSelftest_of_not_fenced h]
    · rw [exec_crrReadmit, execCrrReadmit, State.readmit_of_not_pass h]
  · refine ⟨fun e s h hp => ?_, fun e s h hp => ?_, fun v s h hv => ?_, fun v s r h hv hf => ?_, fun v s h => ?_, fun e s h => ?_, fun u s h => ?_,
      fun d s h => ?_, fun p s h => ?_, fun u s h => ?_, fun d s h => ?_, fun p s h => ?_, fun d s h => ?_, fun d s h => ?_, fun k chan s => ?_,
      fun k lp s => ?_⟩
    · rw [exec_mxeFence, execMxeFence, State.fenceMxe_of_inService 7 h, hp, if_neg Bool.false_ne_true]
    · rw [exec_mxeFence, execMxeFence, State.fenceMxe_of_inService 7 h, hp, if_pos rfl]
      exact ⟨_, rfl, by rw [State.mxe_setMxe_same], rfl⟩
    · rw [exec_vxeFence, execVxeFence, State.fenceVxe_of_idle 7 h hv]
    · rw [exec_vxeFence, execVxeFence, State.fenceVxe_of_running 7 h hv hf]
    · rw [exec_vxeFence, execVxeFence, State.fenceVxe, h, if_pos rfl]
    · rw [exec_mxeFence, execMxeFence, State.fenceMxe, h, if_pos rfl]
    · rw [exec_uuFence, execUuFence, State.fenceUu, h, if_pos rfl]
    · rw [exec_crrFence, execCrrFence, State.fenceCrr, State.crrState, h, if_pos rfl]
    · rw [exec_lnkFence, execLnkFence, if_pos h]
    · rw [exec_uuFence, execUuFence]
    · rw [exec_crrFence, execCrrFence]
    · rw [exec_lnkFence, execLnkFence, if_neg h]
    · rw [exec_dieFence, execDieFence, State.ifRun_of_run h]
    · rw [exec_dieFence, execDieFence, State.ifRun_of_not_run h]
    · rw [exec_mscFenceWrite, execMscFenceWrite]
    · rw [exec_lpcFenceWrite, execLpcFenceWrite]

end Sys2Proof.Machine
end

section
/-! Counters that a read clears (R15), chains of the vector engines (R137 to R161), the completion ring, gather and scatter (R159 to R162). -/

namespace Sys2Proof.Machine

/-! ## Reads that clear -/

/-- A read of a register of access code RC: its count, and zero in the register. -/
theorem State.readClear_all (s : State) (k : Nat) :
    (s.readClear k (BitVec.allOnes 64)).rdData = s.reg k ∧ (s.readClear k (BitVec.allOnes 64)).reg k = 0 := by
  refine ⟨rfl, ?_⟩
  rw [State.readClear, State.reg_setReg_same, BitVec.not_allOnes, BitVec.and_zero]
  rfl

theorem exec_lnkCounterRead_of_count {p : Fin 24} {r : Fin 3} {s : State} (hr : r.val < 2) :
    exec (.lnkCounterRead p r) s = .next (s.readClear (Pg.lnk p + 0x128 + 8 * r.val) (BitVec.allOnes 64)) := by
  rw [exec_lnkCounterRead]
  exact if_pos hr

/-- The work counters of a port: the flits sent and heard in units of 2^20, and zero in both. -/
theorem exec_lnkCounterRead_work (p : Fin 24) (s : State) :
    ∃ t, exec (.lnkCounterRead p 2) s = .next t ∧
      t.rdData = Bits.make [(63, 32, s.workUnits (Pg.lnk p) 20), (31, 0, s.workUnits (Pg.lnk p + 1) 20)] ∧
      KMap.get 0 t.work (Pg.lnk p) = 0 ∧ KMap.get 0 t.work (Pg.lnk p + 1) = 0 := by
  rw [exec_lnkCounterRead]
  refine ⟨_, rfl, rfl, ?_, ?_⟩
  · rw [State.withWork_work, KMap.get_set_other _ _ _ _ (Nat.ne_of_lt (Nat.lt_succ_self _)), KMap.get_set_same]
  · rw [State.withWork_work, KMap.get_set_same]

/-- Settles O22: each register by `State.readClear_all`, the work counters by the map they clear. -/
theorem countersClearOnRead : Obligations.CountersClearOnRead := by
  unfold Obligations.CountersClearOnRead
  refine ⟨fun e s => ?_, fun e s => ?_, fun v s => ?_, fun u s => ?_, fun d s h => ?_, fun d s h => ?_, fun d i s => ?_, fun m s => ?_, fun d b s => ?_,
    fun p r s hr => ?_, fun p s => ?_, fun r s => ?_, fun s => ?_, fun d s => ?_, fun s => ?_⟩
  · rw [exec_mxeChkRead]; exact ⟨_, rfl, State.readClear_all ..⟩
  · rw [exec_mxePerfRead]
    exact ⟨_, rfl, rfl, by rw [State.reg_withWork, State.reg_setReg_same], by rw [State.withWork_work, KMap.get_set_same]⟩
  · rw [exec_vxePerfRead]
    exact ⟨_, rfl, rfl, by rw [State.reg_withWork, State.reg_setReg_same], by rw [State.withWork_work, KMap.get_set_same]⟩
  · rw [exec_uuPerfRead]; exact ⟨_, rfl, State.readClear_all ..⟩
  · rw [exec_updPerfRead, execUpdPerfRead, if_pos h]; exact ⟨_, rfl, State.readClear_all ..⟩
  · rw [exec_updPerfRead, execUpdPerfRead, if_neg h]; exact ⟨_, rfl, rfl, rfl⟩
  · rw [exec_ctrEvtRead]; exact ⟨_, rfl, State.readClear_all ..⟩
  · rw [exec_mscEccRead]; exact ⟨_, rfl, State.readClear_all ..⟩
  · rw [exec_tollHeldRead]; exact ⟨_, rfl, State.readClear_all ..⟩
  · rw [exec_lnkCounterRead_of_count hr]; exact ⟨_, rfl, State.readClear_all ..⟩
  · exact exec_lnkCounterRead_work p s
  · rw [exec_rteCounterRead]; exact ⟨_, rfl, State.readClear_all ..⟩
  · rw [exec_rwinDenyRead]; exact ⟨_, rfl, State.readClear_all ..⟩
  · rw [exec_crrCntRead]; exact ⟨_, rfl, State.readClear_all ..⟩
  · rw [exec_hlkCntRead]; exact ⟨_, rfl, State.readClear_all ..⟩

/-! ## Chains -/

/-- STATE of a vector engine is shown in its registers only. -/
theorem State.showVxe_eq (s : State) (v st : Nat) : ∃ m, s.showVxe v st = s.withRegs m := by
  unfold State.showVxe
  split
  · exact ⟨s.regs, rfl⟩
  · exact ⟨_, rfl⟩

theorem exec_chainEntryClaim_skew {v : VxeNo} {s : State} {r : ChainRun} {e : Nat} {x : Fte} (hv : s.vxe v = some r) (hn : r.seen < r.cmd.needs)
    (he : s.mxeOfSlot (v / 2) r.cmd.mslot = some e) (hx : (s.visible e).find? (fun x => !x.claimed) = some x) (ht : x.tag ≠ r.nextTag) :
    exec (.chainEntryClaim v) s = .next (s.endRun v r St.tagSkew .bad) := by
  rw [exec_chainEntryClaim, execChainEntryClaim]
  simp only [hv, if_neg (Nat.not_le.mpr hn), he, hx, ne_eq, ht, not_false_eq_true, if_true]

/-- A claim that keeps its entry in the table: it is marked, and the run counts it. -/
theorem exec_chainEntryClaim_kept {v : VxeNo} {s : State} {r : ChainRun} {e : Nat} {x : Fte} (hv : s.vxe v = some r) (hn : r.seen < r.cmd.needs)
    (he : s.mxeOfSlot (v / 2) r.cmd.mslot = some e) (hx : (s.visible e).find? (fun x => !x.claimed) = some x) (ht : x.tag = r.nextTag)
    (hc : x.ctx = r.cmd.ctx) (hs : r.cmd.stages = false) :
    ∃ m, exec (.chainEntryClaim v) s = .next (((s.mapFte e x.id fun y => { y with claimed := true }).setVxe v
      (some { r with seen := r.seen + 1, droop := r.droop || x.droop, poisoned := r.poisoned || x.poisoned, taken := r.taken ++ [(e, x.id)] })).withRegs m) := by
  rw [exec_chainEntryClaim, execChainEntryClaim]
  simp only [hv, if_neg (Nat.not_le.mpr hn), he, hx, ht, hc, hs, ne_eq, not_true_eq_false, if_false, Bool.false_and, Bool.false_eq_true]
  split
  · obtain ⟨m, hm⟩ := State.showVxe_eq ((s.mapFte e x.id fun y => { y with claimed := true }).setVxe v
      (some { r with seen := r.seen + 1, droop := r.droop || x.droop, poisoned := r.poisoned || x.poisoned, taken := r.taken ++ [(e, x.id)] })) v Eng.busy
    exact ⟨m, congrArg Host.Outcome.next hm⟩
  · exact ⟨s.regs, rfl⟩

/-- Settles O23. -/
theorem chainLife : Obligations.ChainLife := by
  unfold Obligations.ChainLife
  refine ⟨fun c rd rs1 rs2 s hr ha => ?_, fun c sd rs1 s hr => ?_, fun c rd ss s hr => ?_, fun c cond uns i j off s hr => ?_,
    fun v hits s k hl hv hi hu hk => ?_, fun v hits s k hl => ?_, fun v hits s r hv hn => ⟨?_, ?_⟩, fun v s r e x hv hn he hx ht hc hs => ?_,
    fun v s r e x => exec_chainEntryClaim_skew⟩
  · rw [exec_cissue]
    simp only [execCissue, hr, Bool.not_true, Bool.false_eq_true, if_false, State.newWork_of_notAborting ha]
  · rw [exec_smovS]
    simp only [execSmovS, hr, Bool.not_true, Bool.false_eq_true, if_false]
  · rw [exec_smovG]
    simp only [execSmovG, hr, Bool.not_true, Bool.false_eq_true, if_false]
  · rw [exec_bs]
    simp only [execBs, hr, Bool.not_true, Bool.false_eq_true, if_false]
  · rw [exec_chainStart, execChainStart]
    simp only [hl, hv, hi, hu, hk, Option.isSome_none, Bool.or_false, Bool.false_eq_true, if_false]
  · rw [exec_chainStart, execChainStart]
    simp only [hl]
  · rw [exec_chainComplete, execChainComplete]
    simp only [hv, if_neg (Nat.not_lt.mpr hn), Bool.false_eq_true, if_false]
  · rw [exec_chainComplete, execChainComplete]
    simp only [hv, if_neg (Nat.not_lt.mpr hn), if_true]
  · obtain ⟨m, hm⟩ := exec_chainEntryClaim_kept hv hn he hx ht hc hs
    exact ⟨_, hm, by rw [State.vxe, State.withRegs_vxes, ← State.vxe, State.vxe_setVxe_same], rfl⟩

/-! ## The completion ring -/

theorem State.g_setG (s : State) (c r : Nat) (v : W64) : (s.setG c r v).g c r = if r = 0 then 0 else v := by
  split
  · next h => rw [h, State.g_zero]
  · next h => exact State.g_setG_same s c v h

/-- A record popped leaves the rest in the ring and stands in RD and RD + 1. -/
theorem State.popRing_spec (s : State) (c rd : Nat) (r : RingRec) (rest : List RingRec) :
    ((s.popRing c rd r rest).clu c).ring = rest ∧ (s.popRing c rd r rest).g (stewardOf c) rd = (if rd = 0 then 0 else r.w0) ∧
      (s.popRing c rd r rest).g (stewardOf c) (rd + 1) = r.w1 := by
  refine ⟨?_, ?_, ?_⟩
  · have hclu : (s.popRing c rd r rest).clusters = (s.setClu c { s.clu c with ring := rest }).clusters :=
      (CoreFrame.setG _ _ _ _).clusters.trans (CoreFrame.setG _ _ _ _).clusters
    rw [State.clu_congr hclu, State.clu_setClu_same]
  · rw [State.popRing, State.g_nextPc, State.g_setG_other _ _ _ (Nat.ne_of_lt (Nat.lt_succ_self rd)), State.g_setG]
  · rw [State.popRing, State.g_nextPc, State.g_setG_same _ _ _ (Nat.succ_ne_zero rd)]

theorem exec_cpop_of_runs {c : ClusterNo} {rd : Gpr} {s : State} (hr : s.coreRuns (stewardOf c) = true) (he : rd.val % 2 = 0) :
    (∀ r rest, (s.clu c).ring = r :: rest → exec (.cpop c rd) s = .next (s.popRing c rd r rest)) ∧
      ((s.clu c).ring = [] → exec (.cpop c rd) s = .next (s.wait (stewardOf c) rd .ring)) := by
  rw [exec_cpop]
  constructor
  · intro r rest h
    simp only [execCpop, hr, he, Bool.not_true, Bool.false_eq_true, if_false, Nat.zero_ne_one, h]
  · intro h
    simp only [execCpop, hr, he, Bool.not_true, Bool.false_eq_true, if_false, Nat.zero_ne_one, h]

theorem exec_cpeek_of_runs {c : ClusterNo} {rd : Gpr} {s : State} (hr : s.coreRuns (stewardOf c) = true) (he : rd.val % 2 = 0) :
    (∀ r rest, (s.clu c).ring = r :: rest → exec (.cpeek c rd) s = .next (s.popRing c rd r rest)) ∧
      ((s.clu c).ring = [] → exec (.cpeek c rd) s = .next (s.ret (stewardOf c) rd 0)) := by
  rw [exec_cpeek]
  constructor
  · intro r rest h
    simp only [execCpeek, hr, he, Bool.not_true, Bool.false_eq_true, if_false, Nat.zero_ne_one, h]
  · intro h
    simp only [execCpeek, hr, he, Bool.not_true, Bool.false_eq_true, if_false, Nat.zero_ne_one, h]

/-! ## Gather and scatter -/

theorem State.queueGather_of_runs {s : State} {c oc rd rs1 : Nat} {scatter : Bool} (hr : s.coreRuns (ostlerOf c oc) = true)
    (ha : s.aborting (s.coreCtx (ostlerOf c oc)) = false) :
    s.queueGather c oc rd rs1 scatter = if 8 ≤ (s.clu c).gathers.length then s.retSt (ostlerOf c oc) rd St.queueFull
      else (s.setClu c { s.clu c with gathers :=
        (s.clu c).gathers ++ [⟨s.scratchWords (ostlerOf c oc) (s.g (ostlerOf c oc) rs1).toNat 4, scatter, oc⟩] }).retSt (ostlerOf c oc) rd St.ok := by
  simp only [State.queueGather, hr, Bool.not_true, Bool.false_eq_true, if_false, State.newWork_of_notAborting ha]

/-- A descriptor accepted stands last in the unit's queue, and OK is in RD. -/
theorem State.queueGather_accepted {s : State} {c oc rd rs1 : Nat} {scatter : Bool} (hr : s.coreRuns (ostlerOf c oc) = true)
    (ha : s.aborting (s.coreCtx (ostlerOf c oc)) = false) (hlen : (s.clu c).gathers.length < 8) :
    ((s.queueGather c oc rd rs1 scatter).clu c).gathers =
        (s.clu c).gathers ++ [⟨s.scratchWords (ostlerOf c oc) (s.g (ostlerOf c oc) rs1).toNat 4, scatter, oc⟩] ∧
      (s.queueGather c oc rd rs1 scatter).g (ostlerOf c oc) rd = if rd = 0 then 0 else BitVec.ofNat 64 St.ok := by
  rw [State.queueGather_of_runs hr ha, if_neg (Nat.not_le.mpr hlen)]
  exact ⟨by rw [State.retSt, State.clu_congr (State.ret_clusters ..), State.clu_setClu_same], State.g_ret ..⟩

/-- Settles O24. -/
theorem ringAndGather : Obligations.RingAndGather := by
  unfold Obligations.RingAndGather
  refine ⟨⟨fun c rd s r rest hr he h => ⟨?_, ?_⟩, fun c rd s hr he h => ⟨?_, ?_⟩, fun c s r rest h hlen => ?_⟩,
    ⟨fun c oc rd rs1 s hr ha hlen => ⟨?_, ?_⟩, fun c oc rd rs1 s hr ha hlen => ⟨?_, ?_⟩, fun c hits s g rest h hu hi => ?_⟩⟩
  · exact ⟨_, (exec_cpop_of_runs hr he).1 r rest h, State.popRing_spec ..⟩
  · exact ⟨_, (exec_cpeek_of_runs hr he).1 r rest h, State.popRing_spec ..⟩
  · exact ⟨_, (exec_cpop_of_runs hr he).2 h, rfl, rfl⟩
  · exact ⟨_, (exec_cpeek_of_runs hr he).2 h, by rw [State.g_ret, ite_self], (CoreFrame.ret ..).sync⟩
  · rw [exec_ringRecordRelease, execRingRecordRelease]
    simp only [State.releaseRec, h, if_pos hlen]
  · rw [exec_gather]
    exact ⟨_, rfl, State.queueGather_accepted hr ha hlen⟩
  · rw [exec_scatter]
    exact ⟨_, rfl, State.queueGather_accepted hr ha hlen⟩
  · rw [exec_gather, execGather, State.queueGather_of_runs hr ha, if_pos hlen]
  · rw [exec_scatter, execScatter, State.queueGather_of_runs hr ha, if_pos hlen]
  · rw [exec_gatherComplete, execGatherComplete]
    simp only [h, hu, hi, Bool.or_false, Bool.false_eq_true, if_false]

end Sys2Proof.Machine
end

section
/-! Histograms and event counters (R174 to R180). -/

namespace Sys2Proof.Machine

/-! ## Bins -/

theorem State.bin_setBin_same (s : State) (d st n v : Nat) : (s.setBin d st n v).bin d st n = v := KMap.get_set_same ..

theorem State.bin_setBin_other (s : State) {d st n m : Nat} (v : Nat) (h : m ≠ n) : (s.setBin d st n v).bin d st m = s.bin d st m :=
  KMap.get_set_other _ _ _ _ (by omega)

/-- A bin of a stream that is cleared reads zero. -/
theorem State.bin_clearBins (s : State) (d st : Nat) {n : Nat} (h : n < 64) : (s.clearBins d st).bin d st n = 0 := by
  have cleared : ∀ k ≤ 64, n < k → ((List.range k).foldl (fun s n => s.setBin d st n 0) s).bin d st n = 0 := by
    intro k hk hn
    induction k with
    | zero => exact absurd hn (Nat.not_lt_zero n)
    | succ k ih =>
      rw [List.range_succ, List.foldl_append, List.foldl_cons, List.foldl_nil]
      by_cases e : n = k
      · rw [e, State.bin_setBin_same]
      · rw [State.bin_setBin_other _ _ e, ih (by omega) (by omega)]
  exact cleared 64 (Nat.le_refl 64) h

/-! ## Operations -/

/-- An operation on a stream whose range passes begins: BUSY is set and the operation kept. -/
def State.beginHist (s : State) (d st op a : Nat) : State :=
  (s.setBitF (Pg.hst d) F.hstStatBusy true).withHstOp (KMap.set none s.hstOp d (some ⟨st, op, a⟩))

theorem State.histOp_of_range {s : State} {d st op a : Nat} (hb : s.bitF (Pg.hst d) F.hstStatBusy = false) (ho : op < 3)
    (hr : s.histRange d st op a = true) :
    (op = 0 → s.histOp d st op a = (s.beginHist d st op a).storeWords a ((s.beginHist d st op a).histRecord d st)) ∧
    (op = 1 → s.histOp d st op a = ((s.beginHist d st op a).storeWords a ((s.beginHist d st op a).histRecord d st)).clearBins d st) ∧
    (op = 2 → s.histOp d st op a = (s.beginHist d st op a).histLoad d st a) := by
  have hno : ¬ (s.bitF (Pg.hst d) F.hstStatBusy = true ∨ 3 ≤ op) := by
    rintro (h | h)
    · exact ne_true_of_eq_false hb h
    · omega
  refine ⟨?_, ?_, ?_⟩
  all_goals
    rintro rfl
    rw [State.histOp, if_neg hno, hr, Bool.not_true, if_neg Bool.false_ne_true]
    rfl

theorem clusterOfSlot_ostlerOf (c : ClusterNo) (oc : Fin 6) : clusterOfSlot (ostlerOf c oc) = c := by
  have h := oc.isLt
  rw [clusterOfSlot, ostlerOf, if_neg (by omega)]
  omega

/-- A write of HSNAP by an ostler core: the operation on the context's own stream, else PROTOCOL_ERR. -/
theorem exec_hsnapWrite_of_runs {c : ClusterNo} {oc : Fin 6} {data : W64} {s : State} (hr : s.coreRuns (ostlerOf c oc) = true) :
    exec (.hsnapWrite c oc data) s = .next ((if s.bitF (Pg.hst (c.val / 12) + 8 * F.hstSnapStream.of data) F.hstOwnValid = true ∧
        some (s.fld (Pg.hst (c.val / 12) + 8 * F.hstSnapStream.of data) F.hstOwnCtx) = s.cluCtx c
      then s.histOp (c.val / 12) (F.hstSnapStream.of data) (F.hstSnapOp.of data) (64 * F.hstSnapAddr.of data)
      else s.raise (ostlerOf c oc) St.protocolErr).nextPc (ostlerOf c oc)) := by
  rw [exec_hsnapWrite, execHsnapWrite, if_pos hr, State.hsnap, clusterOfSlot_ostlerOf]
  simp only [Bool.and_eq_true, decide_eq_true_eq]

theorem exec_hstOpDone_of_busy {d : Die} {s : State} (h : s.bitF (Pg.hst d) F.hstStatBusy = true) :
    ∃ t, exec (.hstOpDone d) s = .next t ∧ t.fld (Pg.hst d) F.hstStatDone = (s.fld (Pg.hst d) F.hstStatDone + 1) % 2 ^ 16 ∧
      t.bitF (Pg.hst d) F.hstStatBusy = false := by
  rw [exec_hstOpDone, execHstOpDone, if_pos h]
  refine ⟨_, rfl, ?_, ?_⟩
  · rw [State.wrapFld, State.fld_setFld_same _ _ _ _ (by decide) (by decide), State.fld_setBitF_other _ _ (.inr (by decide))]
    exact Nat.mod_mod _ _
  · rw [State.wrapFld, State.bitF_setFld_other _ _ rfl (.inr (by decide)), State.bitF_setBitF_same _ _ _ _ rfl (by decide)]

/-! ## Event counters -/

/-- The register that selects a context is none of the counters. -/
theorem ctrSel_ne_ctrKey (d ctx i : Nat) : Pg.ctr d + F.ctrSelCtx.off ≠ ctrKey d ctx i := by
  simp only [ctrKey, bank]
  omega

theorem State.ctrSel_setReg_ctrKey (s : State) (d ctx i : Nat) (v : W64) : (s.setReg (ctrKey d ctx i) v).ctrSel d = s.ctrSel d := by
  rw [State.ctrSel, State.fld, State.reg_setReg_other _ _ (ctrSel_ne_ctrKey d ctx i)]
  rfl

/-- The first k counters of the selected context are cleared, and the selection stays. -/
theorem State.reg_clearCounters (s : State) (d k : Nat) :
    ((List.range k).foldl (fun s i => s.setReg (ctrKey d (s.ctrSel d) i) 0) s).ctrSel d = s.ctrSel d ∧
      ∀ i < k, ((List.range k).foldl (fun s i => s.setReg (ctrKey d (s.ctrSel d) i) 0) s).reg (ctrKey d (s.ctrSel d) i) = 0 := by
  induction k with
  | zero => exact ⟨rfl, fun i h => absurd h (Nat.not_lt_zero i)⟩
  | succ k ih =>
    obtain ⟨hsel, hreg⟩ := ih
    rw [List.range_succ, List.foldl_append, List.foldl_cons, List.foldl_nil]
    refine ⟨by rw [State.ctrSel_setReg_ctrKey, hsel], fun i hi => ?_⟩
    rw [hsel]
    by_cases e : i = k
    · rw [e, State.reg_setReg_same]
    · rw [State.reg_setReg_other _ _ (by simp only [ctrKey]; omega), hreg i (by omega)]

/-- An event counter saturates. -/
theorem State.toNat_reg_addCount (s : State) (k : Nat) {n : Nat} (hn : n < 2 ^ 64) :
    ((s.addCount k n).reg k).toNat = min (2 ^ 64 - 1) ((s.reg k).toNat + n) := by
  have hreg := (s.reg k).isLt
  unfold State.addCount
  split
  · next h => rw [h]; omega
  · rw [State.reg_setReg_same, BitVec.toNat_ofNat, satAdd]
    omega

/-- Settles O28. -/
theorem telemetry : Obligations.Telemetry := by
  unfold Obligations.Telemetry
  refine ⟨⟨fun d st a s hb => ⟨fun hr => ?_, fun hr => ?_, fun hr => ?_⟩, fun d s h => exec_hstOpDone_of_busy h, fun c oc data s hr hv hc => ?_,
      fun c oc data s hr hv => ?_, fun d st data s => ?_⟩, fun d s => ?_, fun d v s h => ?_, fun d v s h => ?_⟩
  · rw [exec_hstSnapshot, execHstSnapshot]
    exact ⟨_, rfl, congrArg Host.Outcome.next ((State.histOp_of_range hb (by decide) hr).1 rfl)⟩
  · rw [exec_hstSnapshotClear, execHstSnapshotClear, (State.histOp_of_range hb (by decide) hr).2.1 rfl]
    exact ⟨_, rfl, fun n hn => State.bin_clearBins _ _ _ hn⟩
  · rw [exec_hstLoad, execHstLoad]
    exact congrArg Host.Outcome.next ((State.histOp_of_range hb (by decide) hr).2.2 rfl)
  · rw [exec_hsnapWrite_of_runs hr, if_pos ⟨hv, hc⟩]
  · rw [exec_hsnapWrite_of_runs hr, if_neg (fun h => ne_true_of_eq_false hv h.1)]
  · rw [exec_hstOwnWrite]
    exact ⟨_, rfl, fun n hn => State.bin_clearBins _ _ _ hn⟩
  · rw [exec_ctrClear]
    exact ⟨_, rfl, (s.reg_clearCounters d 48).2⟩
  · rw [exec_ctrAdd]
    exact ⟨_, if_pos h, State.toNat_reg_addCount _ _ v.isLt⟩
  · rw [exec_ctrAdd]
    exact if_neg (ne_true_of_eq_false h)

end Sys2Proof.Machine
end

section
/-! Memory regions, scrub passes and heat (R193 to R214, R43). -/

namespace Sys2Proof.Machine

/-! ## Regions -/

theorem getLsbD_putBit_63 (data : W64) (b : Bool) : (Bits.putBit data 63 b).getLsbD 63 = b := by
  rw [Bits.putBit, Bits.getLsbD_put _ _ _ _ (by decide)]
  cases b <;> rfl

theorem State.rgnWrite_validate {s : State} {r : Nat} {data : W64} (hv : s.bitF (Pg.map + 32 * r) F.mapRgnCfgValid = false)
    (hd : data.getLsbD 63 = true) :
    ∃ s1, s1 = s.setReg (Pg.map + 32 * r + 0x210) ((s.reg (Pg.map + 32 * r + 0x210) &&& ~~~rgnMask) ||| (data &&& rgnMask)) ∧
      s.rgnWrite r data = if s1.rgnCheck r = 0 then s1.rgnOpen r
        else (s1.setFld Pg.map F.mapStatLastErr (s1.rgnCheck r)).setErr Pg.map F.mapErrStatRefused 0 := by
  refine ⟨_, rfl, ?_⟩
  simp only [State.rgnWrite, hv, Bool.false_eq_true, if_false, hd, Bool.not_true]

theorem State.rgnWrite_close {s : State} {r : Nat} {data : W64} (hv : s.bitF (Pg.map + 32 * r) F.mapRgnCfgValid = true)
    (hd : data.getLsbD 63 = false) :
    s.rgnWrite r data = (s.setBitF (Pg.map + 32 * r) F.mapRgnCfgValid false).setBitF Pg.map F.mapStatQuiescing true := by
  simp only [State.rgnWrite, hv, hd, Bool.not_false, if_true]

theorem mapRgnCfgValid_ne_mapStat (r : Nat) : Pg.map + 32 * r + F.mapRgnCfgValid.off ≠ Pg.map + F.mapStatQuiescing.off := by
  show Pg.map + 32 * r + 0x210 ≠ Pg.map + 0x018
  omega

/-- Settles O29. -/
theorem regionTable : Obligations.RegionTable := by
  unfold Obligations.RegionTable
  refine ⟨fun r data s s1 hv hs1 => ?_, fun r s hv => ?_, fun s => ?_⟩
  · obtain ⟨s2, hs2, hw⟩ := State.rgnWrite_validate hv (getLsbD_putBit_63 data true)
    rw [hs1, ← hs2, exec_mapRgnValidate, execMapRgnValidate, hw]
    exact ⟨fun h => by rw [if_pos h], fun h => by rw [if_neg h]⟩
  · rw [exec_mapRgnClose, execMapRgnClose, State.rgnWrite_close hv (getLsbD_putBit_63 _ false)]
    refine ⟨_, rfl, ?_, State.bitF_setBitF_same _ _ _ _ rfl (by decide), rfl⟩
    rw [State.bitF_setBitF_other _ _ rfl (.inl (mapRgnCfgValid_ne_mapStat r)), State.bitF_setBitF_same _ _ _ _ rfl (by decide)]
  · rw [exec_mapQuiesceDone]
    exact ⟨_, rfl, State.bitF_setBitF_same _ _ _ _ rfl (by decide), rfl⟩

/-! ## Scrub -/

/-- Settles O30: of one error, and of none. -/
theorem scrub : Obligations.Scrub := by
  unfold Obligations.Scrub
  refine ⟨fun m e s hm hc => ?_, fun m e s hm hc => ?_, fun m s => ⟨?_, ?_⟩⟩
  · rw [exec_scrubPass, execScrubPass]
    simp only [List.filter_cons, hm, if_true, List.filter_nil, List.foldl_cons, hc, List.foldl_nil, Bool.false_eq_true, if_false, State.lineCe]
  · rw [exec_scrubPass, execScrubPass]
    simp only [List.filter_cons, hm, if_true, List.filter_nil, List.foldl_cons, hc, List.foldl_nil, Bool.false_eq_true, if_false]
  · rw [exec_scrubPass]
    rfl
  · rw [exec_scrubPass]
    rfl

/-! ## Heat -/

/-- THERMTRIP_N is asserted once a trip is recorded (R43). -/
theorem State.trip_thermtrip (s : State) (d unit : Nat) (temp : W16) : (s.trip d unit temp).plat.thermtrip = true := by
  unfold State.trip
  split
  · assumption
  · rw [State.event_plat]
    rfl

theorem exec_thermtrip_hot {sn : Sensor} {temp : W16} {s : State} (hp : s.plat.pwrOk = true) (ht : 1840 ≤ temp.toInt) :
    ∃ t, exec (.thermtrip sn temp) s = .next t ∧ t.plat.thermtrip = true := by
  have hstack : ¬ temp.toInt < 1760 := by omega
  rw [exec_thermtrip]
  cases sn with
  | island d k =>
    simp only [execThermtrip, hp, Bool.not_true, Bool.false_eq_true, if_false, if_neg (Int.not_lt.mpr ht)]
    exact ⟨_, rfl, State.trip_thermtrip ..⟩
  | stack k =>
    simp only [execThermtrip, hp, Bool.not_true, Bool.false_eq_true, if_false, if_neg hstack]
    exact ⟨_, rfl, State.trip_thermtrip ..⟩

theorem exec_throttleFallStep_of_falling {k : Fin 20} {s : State} (hf : (s.throttle k).falling = true)
    (hl : s.fld (Pg.msc k) F.mscTempLevel ≠ 0) :
    ∃ t, exec (.throttleFallStep k) s = .next t ∧ t.fld (Pg.msc k) F.mscTempLevel = s.fld (Pg.msc k) F.mscTempLevel - 1 := by
  rw [exec_throttleFallStep, execThrottleFallStep]
  simp only [hf, hl, ne_eq, not_false_eq_true, decide_true, Bool.and_true, if_true]
  refine ⟨_, rfl, ?_⟩
  rw [State.fld_setThrottle, State.fld_setFld_mscTempLevel]
  have : s.fld (Pg.msc k) F.mscTempLevel < 2 ^ 3 := State.fld_lt ..
  omega

theorem State.fld_withMs (s : State) (m : MemSys) (p : Nat) (f : Fld) : (s.withMs m).fld p f = s.fld p f := rfl

/-- A cool readout of an LPDDR package lifts the doubled refresh and shows the temperature (R204). -/
theorem exec_lpTempReport_cool {k : Fin 32} {temp : W16} {s : State} (h : temp.toInt ≤ 1360) :
    ∃ t, exec (.lpTempReport k temp) s = .next t ∧ KMap.get false t.ms.lpHot k = false ∧
      t.fld (Pg.lpc (k / 2 : Nat)) (if k.val % 2 = 0 then F.lpcTempTemp0 else F.lpcTempTemp1) = temp.toNat := by
  have hcool : decide (1360 < temp.toInt) = false := decide_eq_false (Int.not_lt.mpr h)
  rw [exec_lpTempReport, execLpTempReport]
  simp only [hcool, Bool.false_and, Bool.false_eq_true, if_false]
  refine ⟨_, rfl, by simp only [State.withMs_ms, KMap.get_set_same], ?_⟩
  rw [State.fld_withMs]
  split
  all_goals
    rw [State.fld_setFld_same _ _ _ _ (by decide) (by decide)]
    exact Nat.mod_eq_of_lt temp.isLt

/-- Settles O31. -/
theorem heat : Obligations.Heat := by
  unfold Obligations.Heat
  refine ⟨fun k temp s hcool _ _ hup => ?_, fun k s => exec_throttleFallStep_of_falling, fun k temp s => exec_lpTempReport_cool,
    fun sn temp s => exec_thermtrip_hot⟩
  refine ⟨_, exec_stackTempReport_of_sets_level k hcool (.inr (.inr hup)), ?_, ?_⟩
  · rw [State.throttle_setThrottle_same]
  · rw [State.fld_setThrottle, State.fld_setFld_mscTempLevel _ _ (heatTarget_le_seven _ _)]

end Sys2Proof.Machine
end

section
/-! The update dispatcher and the instructions of an update unit (R221 to R238). -/

namespace Sys2Proof.Machine

/-! ## The dispatcher -/

/-- Nothing staged, nothing to replay. -/
theorem State.replayCommit_of_noneStaged {s : State} (h : s.upd.any (·.staged) = false) : s.replayCommit = s := by
  have hnil : s.upd.filter (·.staged) = [] := by
    rw [List.filter_eq_nil_iff]
    exact List.any_eq_false.mp h
  rw [State.replayCommit, hnil]
  rfl

/-- Settles O32. -/
theorem updateDispatch : Obligations.UpdateDispatch := by
  unfold Obligations.UpdateDispatch
  refine ⟨fun s s1 hst hrun hk => ?_, fun u p hits s k c hu hi hj hk hsh => ?_, fun u s j hj => ?_, fun u hits s k hu hk => ?_,
    fun s k hst hk => ⟨fun hp => ?_, fun hp ht => ?_, fun hp ht => ?_⟩, fun s hst => ?_, fun s k hk => ?_⟩
  · rw [exec_updateStart, execUpdateStart, State.replayCommit_of_noneStaged hst, if_neg (Nat.not_le.mpr hrun), hk]
  · rw [exec_uuChunkRun, execUuChunkRun]
    simp only [hu, hi, hj, hk, hsh, Bool.not_true, Bool.or_false, Bool.false_eq_true, if_false]
  · rw [exec_journalMirrorAck, execJournalMirrorAck, hj]
  · rw [exec_uuSegmentPass, execUuSegmentPass]
    simp only [hu, hk, Bool.not_true, Bool.false_eq_true, if_false]
  · rw [exec_updateCommit, execUpdateCommit, hst, if_neg Bool.false_ne_true, hk]
    exact if_pos hp
  · rw [exec_updateCommit, execUpdateCommit, hst, if_neg Bool.false_ne_true, hk]
    exact (if_neg (ne_true_of_eq_false hp)).trans (if_pos ht)
  · rw [exec_updateCommit, execUpdateCommit, hst, if_neg Bool.false_ne_true, hk]
    exact (if_neg (ne_true_of_eq_false hp)).trans (if_neg (ne_true_of_eq_false ht))
  · rw [exec_updateCommit, execUpdateCommit, if_pos hst]
  · rw [State.cutCommit, hk]
    rfl

/-! ## A value for every lane -/

/-- A value set at n places one after the other stands at each of them. -/
theorem get_setRange (m : KMap W64) (k : Nat) (v : W64) {n l : Nat} (h : l < n) :
    KMap.get 0 ((List.range n).foldl (fun m l => KMap.set 0 m (k + l) v) m) (k + l) = v := by
  induction n with
  | zero => exact absurd h (Nat.not_lt_zero l)
  | succ n ih =>
    rw [List.range_succ, List.foldl_append, List.foldl_cons, List.foldl_nil]
    by_cases e : l = n
    · rw [e, KMap.get_set_same]
    · rw [KMap.get_set_other _ _ _ _ (by omega), ih (by omega)]

/-- A constant set in the prologue stands in its register of every lane. -/
theorem exec_ukset_of_runs {u : Fin 36} {rd : Fin 16} {rs1 : Gpr} {s : State} {k : UpdCmd} (hr : s.coreRuns (340 + u.val) = true)
    (hk : s.unitCmd u = some k) :
    ∃ t, exec (.ukset u rd rs1) s = .next t ∧
      ∀ l, l < 32 → KMap.get 0 (t.uu u).e (32 * (16 + rd.val) + l) = reg32 (lo32 (s.g (340 + u.val) rs1)) := by
  rw [exec_ukset]
  simp only [execUkset, hr, Bool.not_true, Bool.false_eq_true, if_false, hk]
  refine ⟨_, rfl, fun l hl => ?_⟩
  simp only [State.nextPc, State.setPc, State.uu, State.setCore_uus]
  rw [← State.uu, State.uu_setUu_same]
  exact get_setRange _ _ _ hl

/-- Settles O34: the element operations go to `State.lanes` as they are; the prologue and the bounds of the element section follow. -/
theorem unitInstructions : Obligations.UnitInstructions := by
  unfold Obligations.UnitInstructions
  refine ⟨⟨fun u rd st s h => ?_, fun u rs2 st s h1 h4 => ?_, fun u dbl rd a b s => ⟨rfl, rfl, rfl, rfl, rfl, rfl, rfl, rfl, rfl, rfl, rfl, rfl, rfl⟩⟩,
    ⟨fun u rd rs1 s k => exec_ukset_of_runs, fun u s k hr hk => ?_, fun u s k h hu hh hk hg => ?_, fun u s hu hh => ?_⟩⟩
  · rw [exec_uld, execUld, if_pos h]
  · rw [exec_ust, execUst, if_pos ⟨h1, h4⟩]
  · rw [exec_uloop]
    simp only [execUloop, hr, hk, Bool.not_true, Bool.false_eq_true, if_false]
  · rw [exec_uend]
    simp only [execUend, hu, hh, hk, hg, Bool.not_true, Bool.false_eq_true, if_false, if_true]
  · rw [exec_uend]
    simp only [execUend, hu, hh, Bool.not_true, Bool.false_eq_true, if_false]
    exact ⟨_, rfl, by rw [State.uu_setUu_same], by rw [State.uu_setUu_same]⟩

end Sys2Proof.Machine
end

section
/-! Stage links: push, pop and release, messages, configuration and the version table's commands (R249 to R268). -/

namespace Sys2Proof.Machine

/-! ## Push, pop and release -/

theorem State.linkRun_of_step {s s1 : State} {c rd st : Nat} {nb : Bool} {why : Why} (h : s.linkStep c rd why = some s1) :
    s.linkRun c rd nb st why = s1 := by
  rw [State.linkRun, h]

theorem State.linkRun_of_noStep {s : State} {c rd st : Nat} {nb : Bool} {why : Why} (h : s.linkStep c rd why = none) :
    s.linkRun c rd nb st why = if nb then s.retSt c rd st else s.wait c rd why := by
  rw [State.linkRun, h]

theorem State.linkStep_qpush {s : State} {c rd ol : Nat} {ws : List W64} (h : s.outState ol = Sl.outOpen) :
    s.linkStep c rd (.qpush ol ws) = if s.hasCredit ol then some ((s.pushLink ol ws).retSt c rd St.ok) else none :=
  if_neg (not_not_intro h)

theorem State.linkStep_qpop_some {s : State} {c rd qn dest : Nat} {ws : List W64} {l : List (List W64 × Bool)} (h : s.inState qn = Sl.open_)
    (hp : popDesc (s.inq qn).descs = some (ws, l)) :
    s.linkStep c rd (.qpop qn dest) =
      some (((s.setInq qn ⟨l⟩).setScratchWords c dest ws).retSt c rd (if s.descTainted (wf ws 0 55 48) ws then St.tainted else St.ok)) := by
  simp only [State.linkStep, h, ne_eq, not_true_eq_false, if_false, hp]

theorem State.linkStep_qpop_none {s : State} {c rd qn dest : Nat} (h : s.inState qn = Sl.open_) (hp : popDesc (s.inq qn).descs = none) :
    s.linkStep c rd (.qpop qn dest) = none := by
  simp only [State.linkStep, h, ne_eq, not_true_eq_false, if_false, hp]

/-- A push of the cluster's own open link, whose descriptor passes its checks, runs as far as the link allows. -/
theorem exec_qpush_of_passes {c : ClusterNo} {nb : Bool} {rd rs1 rs2 : Gpr} {s : State} {ol : Nat} {ws : List W64}
    (hr : s.coreRuns (stewardOf c) = true) (hol : (s.g (stewardOf c) rs1).toNat = ol)
    (hws : s.scratchWords (stewardOf c) (s.g (stewardOf c) rs2).toNat 8 = ws) (hown : s.ownsLink c ol (s.outStage ol) = true)
    (ha : s.aborting (s.coreCtx (stewardOf c)) = false) (ho : s.outState ol = Sl.outOpen) (hc : s.pushCheck (s.coreCtx (stewardOf c)) ol ws = St.ok) :
    exec (.qpush c nb rd rs1 rs2) s = .next (s.linkRun (stewardOf c) rd nb St.noCredit (.qpush ol ws)) := by
  rw [exec_qpush, execQpush]
  simp only [hr, hol, hws, hown, ho, hc, Bool.not_true, Bool.false_eq_true, if_false, ne_eq, not_true_eq_false, State.newWork_of_notAborting ha]

theorem exec_qpop_of_owns {c : ClusterNo} {nb : Bool} {rd rs1 rs2 : Gpr} {s : State} {qn : Nat} (hr : s.coreRuns (stewardOf c) = true)
    (hqn : (s.g (stewardOf c) rs1).toNat = qn) (hown : s.ownsLink c qn (s.inStage qn) = true) :
    exec (.qpop c nb rd rs1 rs2) s = .next (s.linkRun (stewardOf c) rd nb St.queueEmpty (.qpop qn (s.g (stewardOf c) rs2).toNat)) := by
  rw [exec_qpop, execQpop]
  simp only [hr, hqn, hown, Bool.not_true, Bool.false_eq_true, if_false]

/-- Settles O35. -/
theorem stageQueues : Obligations.StageQueues := by
  unfold Obligations.StageQueues
  refine ⟨fun c nb rd rs1 rs2 s ol ws hr hol hws hown ha ho hc => ⟨fun hcr => ?_, fun hcr => ?_⟩,
    fun c nb rd rs1 rs2 s qn hr hqn hown ho => ⟨fun ws l hp => ?_, fun hp => ?_⟩, fun c rd rs1 s qn ws rest hr hqn hown ho hd => ?_⟩
  · rw [exec_qpush_of_passes hr hol hws hown ha ho hc, State.linkRun_of_step]
    rw [State.linkStep_qpush ho, if_pos hcr]
  · rw [exec_qpush_of_passes hr hol hws hown ha ho hc, State.linkRun_of_noStep]
    rw [State.linkStep_qpush ho, if_neg (ne_true_of_eq_false hcr)]
  · rw [exec_qpop_of_owns hr hqn hown, State.linkRun_of_step (State.linkStep_qpop_some ho hp)]
  · rw [exec_qpop_of_owns hr hqn hown, State.linkRun_of_noStep (State.linkStep_qpop_none ho hp)]
  · rw [exec_qdone, execQdone]
    simp only [hr, hqn, hown, ho, hd, Bool.not_true, Bool.false_eq_true, if_false, ne_eq, not_true_eq_false]

/-! ## Messages -/

theorem State.inq_setInq_same (s : State) (qn : Nat) (q : InQueue) : (s.setInq qn q).inq qn = q := KMap.get_set_same ..

theorem State.outq_setOutq_same (s : State) (ol : Nat) (q : List OutMsg) : (s.setOutq ol q).outq ol = q := KMap.get_set_same ..

theorem State.fld_withStg (s : State) (x : Stages) (p : Nat) (f : Fld) : (s.withStg x).fld p f = s.fld p f := rfl

/-- The registers of SEQ of a link lie apart from those of its configuration. -/
theorem inSeqPg_ne_incfg (qn : Nat) : inPg qn + F.slqIncfgState.off ≠ inSeqPg qn + 0x900 := by
  show Pg.slq (qn / 64) + 16 * (qn % 64) + 0x100 ≠ Pg.slq (qn / 64) + 8 * (qn % 64) + 0x900
  omega

theorem outSeqPg_ne_outcfg (ol : Nat) : inPg ol + F.slqOutcfgState.off ≠ inSeqPg ol + 0xB00 := by
  show Pg.slq (ol / 64) + 16 * (ol % 64) + 0x500 ≠ Pg.slq (ol / 64) + 8 * (ol % 64) + 0xB00
  omega

theorem exec_slOpenRecv_accepts {m : SlOpen} {s : State} (hv : s.bitF (inPg m.qn.toNat) F.slqIncfgValid = true)
    (ho : s.inState m.qn.toNat ≠ Sl.open_) (h1 : s.fld (inPg m.qn.toNat) F.slqIncfgSrcdev = m.srcDev.toNat)
    (h2 : s.fld (inPg m.qn.toNat) F.slqIncfgSrcout = m.srcOl.toNat) (h3 : s.fld (inPg m.qn.toNat) F.slqIncfgDepth = m.depth) :
    exec (.slOpenRecv m) s = .next ((((s.setFld (inPg m.qn.toNat) F.slqIncfgState Sl.open_).setReg (inSeqPg m.qn.toNat + 0x900) 0).setInq
      m.qn.toNat ⟨[]⟩).slSend ⟨1, m.srcOl.toNat, [BitVec.ofNat 64 m.srcDev.toNat]⟩) := by
  rw [exec_slOpenRecv]
  simp only [execSlOpenRecv, hv, ho, h1, h2, h3, ne_eq, not_false_eq_true, and_self, decide_true, Bool.and_self, if_true]

theorem State.inq_slSend (s : State) (m : SlMsg) (qn : Nat) : (s.slSend m).inq qn = s.inq qn := rfl

theorem State.outbox_slSend (s : State) (m : SlMsg) : (s.slSend m).stg.outbox = s.stg.outbox ++ [m] := rfl

theorem State.outbox_setInq (s : State) (qn : Nat) (q : InQueue) : (s.setInq qn q).stg.outbox = s.stg.outbox := rfl

theorem State.inState_opened (s : State) (qn : Nat) (q : InQueue) (m : SlMsg) :
    ((((s.setFld (inPg qn) F.slqIncfgState Sl.open_).setReg (inSeqPg qn + 0x900) 0).setInq qn q).slSend m).inState qn = Sl.open_ := by
  rw [State.slSend, State.setInq, State.inState, State.fld_withStg, State.fld_withStg, State.fld_setReg_other _ _ (inSeqPg_ne_incfg qn)]
  exact State.fld_setFld_state (by decide) (by decide) (by decide)

theorem State.outState_opened (s : State) (ol : Nat) (q : List OutMsg) :
    (((s.setFld (inPg ol) F.slqOutcfgState Sl.outOpen).setReg (inSeqPg ol + 0xB00) 0).setOutq ol q).outState ol = Sl.outOpen := by
  rw [State.setOutq, State.outState, State.fld_withStg, State.fld_setReg_other _ _ (outSeqPg_ne_outcfg ol)]
  exact State.fld_setFld_state (by decide) (by decide) (by decide)

/-- The expected message of an open link is taken and acknowledged, and the cores that wait are tried (R252). -/
theorem State.slTake_expected {s : State} {qn : Nat} {seq : W32} (take : State → State) (ho : s.inState qn = Sl.open_)
    (hs : seq = BitVec.ofNat 32 (s.inExpected qn)) :
    s.slTake qn seq take = ((take (s.wrapFld (inSeqPg qn) F.slqInseqExpected 1)).slAck qn seq).wakeLinks := by
  simp only [State.slTake, ho, ne_eq, not_true_eq_false, if_false, if_pos hs]

/-- A message ahead of the expected one is a gap (R252). -/
theorem State.slTake_gap {s : State} {qn : Nat} {seq : W32} (take : State → State) (ho : s.inState qn = Sl.open_)
    (hs : seq ≠ BitVec.ofNat 32 (s.inExpected qn)) (hm : (seq - BitVec.ofNat 32 (s.inExpected qn)).msb = false) :
    s.slTake qn seq take = s.setErr (slqPage qn) F.slqErrStatGap (s.stageCtx (s.inStage qn)) := by
  simp only [State.slTake, ho, ne_eq, not_true_eq_false, if_false, if_neg hs, hm, Bool.false_eq_true]

/-- What a descriptor that is taken leaves: the descriptor at the end of the queue, and the mark of a tainted one. -/
def State.takeDesc (ctx : Nat) (m : SlDesc) (s : State) : State :=
  let s1 := s.setInq m.qn.toNat ⟨(s.inq m.qn.toNat).descs ++ [(s.landed m m.seq, false)]⟩
  if (wd m.words 0).getLsbD 46 then s1.recordTaint ⟨ctx, wd m.words 2, descMb m.words⟩ else s1

theorem exec_slDescRecv_eq {m : SlDesc} {s : State} (he : (wd m.words 0).getLsbD 47 = true → s.bitF (inPg m.qn.toNat) F.slqIncfgEarlyOk = true) :
    exec (.slDescRecv m) s = .next (s.slTake m.qn.toNat m.seq (State.takeDesc (s.stageCtx (s.inStage m.qn.toNat)) m)) := by
  rw [exec_slDescRecv, execSlDescRecv]
  refine if_neg fun h => ?_
  rw [Bool.and_eq_true, Bool.not_eq_true'] at h
  exact ne_true_of_eq_false h.2 (he h.1)

theorem exec_slAckRecv_of_open {ol : Byte} {seq consumed : W32} {s s1 : State} (ho : s.outState ol.toNat = Sl.outOpen)
    (hs1 : s1 = s.setFld (inSeqPg ol.toNat) F.slqOutseqConsumed consumed.toNat) :
    (((s1.outq ol.toNat).find? fun m => decide (m.seq = seq) && !m.copying) = none → exec (.slAckRecv ol seq consumed) s = .next s1.wakeLinks) ∧
    (∀ m, ((s1.outq ol.toNat).find? fun m => decide (m.seq = seq) && !m.copying) = some m → m.donew = 0 →
      exec (.slAckRecv ol seq consumed) s = .next (s1.setOutq ol.toNat ((s1.outq ol.toNat).filter fun x => decide (x.seq ≠ seq))).wakeLinks) := by
  subst hs1
  rw [exec_slAckRecv, execSlAckRecv]
  refine ⟨fun hn => ?_, fun m hm hd => ?_⟩
  · simp only [ho, ne_eq, not_true_eq_false, if_false, hn]
  · simp only [ho, ne_eq, not_true_eq_false, if_false, hm, hd, if_true]

theorem exec_slCopyDone_within {ol : Byte} {seq : W32} {hits : Hits} {s : State} {m : OutMsg}
    (hm : ((s.meet hits).outq ol.toNat).find? (fun m => decide (m.seq = seq) && m.copying) = some m)
    (hl : (s.meet hits).olLocal ol.toNat = true) (hs : (s.meet hits).copyShut ol.toNat m = false) :
    exec (.slCopyDone ⟨ol, hits⟩ seq) s = .next (((s.meet hits).copyPayload ol.toNat m).copyEnds ol.toNat seq) := by
  rw [exec_slCopyDone]
  simp only [execSlCopyDone, hl, hm, hs, if_true, Bool.false_eq_true, if_false]

theorem exec_slCopyDone_away {ol : Byte} {seq : W32} {hits : Hits} {s s1 : State} {m : OutMsg} {o : PortOp}
    (hm : ((s.meet hits).outq ol.toNat).find? (fun m => decide (m.seq = seq) && m.copying) = some m)
    (hl : (s.meet hits).olLocal ol.toNat = false) (ho : (s.meet hits).payloadPut ol.toNat seq = some o)
    (hs1 : s1 = (s.meet hits).withNet { (s.meet hits).net with ops := (s.meet hits).net.ops.filter fun x => decide (x.num ≠ o.num) }) :
    exec (.slCopyDone ⟨ol, hits⟩ seq) s =
      .next (if o.status = St.ok then s1.copyEnds ol.toNat seq else s1.putPayload ol.toNat m) := by
  subst hs1
  rw [exec_slCopyDone]
  simp only [execSlCopyDone, hl, hm, ho, Bool.false_eq_true, if_false]

/-! ## Configuration -/

theorem exec_slqIncfgWrite_valid {d : Die} {q : Fin 64} {data : W64} {s : State} (hd : data.getLsbD 63 = true)
    (hp : s.poolUsed d q + F.slqIncfgDepth.of data ≤ 1024) :
    exec (.slqIncfgWrite d q data) s = .next (if s.bitF (inPg (64 * d.val + q.val)) F.slqIncfgValid = true
      then s.plainWrite (inPg (64 * d.val + q.val) + 0x100) data
      else (s.plainWrite (inPg (64 * d.val + q.val) + 0x100) data).setFld (inPg (64 * d.val + q.val)) F.slqIncfgState Sl.closed) := by
  rw [exec_slqIncfgWrite]
  simp only [execSlqIncfgWrite, hd, Bool.not_true, Bool.false_eq_true, if_false, if_neg (Nat.not_lt.mpr hp)]

theorem exec_slqIncfgWrite_invalid {d : Die} {q : Fin 64} {data : W64} {s : State} (hd : data.getLsbD 63 = false) :
    exec (.slqIncfgWrite d q data) s = .next (((s.plainWrite (inPg (64 * d.val + q.val) + 0x100) data).setFld
      (inPg (64 * d.val + q.val)) F.slqIncfgState Sl.closed).setInq (64 * d.val + q.val) ⟨[]⟩).wakeLinks := by
  rw [exec_slqIncfgWrite]
  simp only [execSlqIncfgWrite, hd, Bool.not_false, if_true]

theorem exec_slqOutcfgWrite_opens {d : Die} {j : Fin 64} {data : W64} {s s0 : State} (hd : data.getLsbD 63 = true)
    (hv : s.bitF (inPg (64 * d.val + j.val)) F.slqOutcfgValid = false) (hs0 : s0 = s.plainWrite (inPg (64 * d.val + j.val) + 0x500) data)
    (hr : s0.fld (inPg (64 * d.val + j.val)) F.slqOutcfgResend ≠ 0) :
    exec (.slqOutcfgWrite d j data) s =
      .next ((s0.setFld (inPg (64 * d.val + j.val)) F.slqOutcfgState Sl.outOpening).slOpen (64 * d.val + j.val)) := by
  subst hs0
  rw [exec_slqOutcfgWrite]
  simp only [execSlqOutcfgWrite, hd, hv, if_neg hr, Bool.not_true, Bool.false_eq_true, if_false]

theorem exec_stgStageWrite_valid {i : Fin 16} {data : W64} {s : State} (hv : s.stageValid i = false) (hd : data.getLsbD 63 = true) :
    exec (.stgStageWrite i data) s = .next (if s.stageOk i data = true then s.plainWrite (Pg.stg + 0x100 + 8 * i.val) data
      else ((s.plainWrite (Pg.stg + 0x100 + 8 * i.val) data).setBitF (Pg.stg + 8 * i.val) F.stgStageValid false).setErr Pg.stg F.stgErrStatBadSeq 0) := by
  rw [exec_stgStageWrite, execStgStageWrite, hv, if_neg Bool.false_ne_true]
  cases hok : s.stageOk i data <;> simp [hd]

/-! ## The version table's commands -/

theorem State.vcmdStart_of_idle {s : State} {op vte : Nat} (h : s.bitF Pg.stg F.stgVstatBusy = false) :
    (s.vcmdStart op vte).stg.vcmd = some ⟨op, vte⟩ := by
  rw [State.vcmdStart, h, if_neg Bool.false_ne_true]
  rfl

theorem State.storeWords_stg (s : State) (a : Nat) (ws : List W64) : (s.storeWords a ws).stg = s.stg := by
  have keep : Keeps 262160 s (s.storeWords a ws) := State.storeWords_keeps (.of rfl) (keeps_refl _ s)
  exact keep .stg rfl

theorem State.setVt_stg (s : State) (e k : Nat) (v : W64) : (s.setVt e k v).stg = s.stg := by
  rw [State.setVt, State.storeWords_stg, State.storeWords_stg]

theorem State.vtNote_stg (s : State) : s.vtNote.stg = s.stg := by
  have keep : Keeps 48 s s.vtNote := State.vtNote_keeps (.of rfl) (keeps_refl _ s)
  exact keep .stg rfl

/-- The end of a version-table command leaves none running and shows its result. -/
theorem exec_vcmdDone_of_running {s : State} {k : VCmd} (h : s.stg.vcmd = some k) :
    ∃ s1 : State, exec .vcmdDone s = .next (s1.setReg (Pg.stg + 0x198)
        (Bits.make [(23, 16, ((s.withStg { s.stg with vcmd := none }).vtNote).vcmdResult k), (15, 0, k.vte)])) ∧ s1.stg.vcmd = none := by
  rw [exec_vcmdDone, execVcmdDone, h]
  refine ⟨_, rfl, ?_⟩
  have h0 : ((s.withStg { s.stg with vcmd := none }).vtNote).stg.vcmd = none := by
    rw [State.vtNote_stg, State.withStg_stg]
  dsimp only
  split
  · exact h0
  · split
    · rw [State.storeWords_stg, State.storeWords_stg, h0]
    · rw [State.setVt_stg, h0]

/-- Settles O37. -/
theorem stageLinks : Obligations.StageLinks := by
  unfold Obligations.StageLinks
  constructor
  · refine ⟨fun ol seq hits s m hm => ⟨exec_slCopyDone_within hm, fun o s1 hl ho hs1 => ⟨fun hst => ?_, fun hst => ?_⟩⟩, fun m s hv ho h1 h2 h3 => ?_,
      fun m s hv => ?_, fun ol s ho => ⟨?_, ?_, ?_⟩, fun ol s ho => ?_, fun m s ho hs h46 he => ?_, fun m s ho hs he hm => ?_, fun qn t s ho hs => ?_,
      fun ol seq consumed s s1 ho hs1 => ?_, fun qn s ho => ?_⟩
    · rw [exec_slCopyDone_away hm hl ho hs1, if_pos hst]
    · rw [exec_slCopyDone_away hm hl ho hs1, if_neg hst]
    · refine ⟨_, exec_slOpenRecv_accepts hv ho h1 h2 h3, State.inState_opened .., ?_, ?_⟩
      · rw [State.inq_slSend, State.inq_setInq_same]
      · rw [State.outbox_slSend, State.outbox_setInq, State.setReg_stg, State.setFld, State.setReg_stg]
    · rw [exec_slOpenRecv]
      simp only [execSlOpenRecv, hv, Bool.false_and, Bool.false_eq_true, if_false]
    · rw [exec_slAcceptRecv, execSlAcceptRecv, if_pos ho]
      exact ⟨_, rfl, State.outState_opened .., State.outq_setOutq_same ..⟩
    · rw [exec_slRefuseRecv, execSlRefuseRecv, if_pos ho]
    · rw [exec_slResend, execSlResend, if_pos ho]
    · rw [exec_slResend, execSlResend, if_neg (by rw [ho]; decide), if_pos ho]
    · refine ⟨_, rfl, ?_⟩
      rw [exec_slDescRecv_eq he, State.slTake_expected _ ho hs, State.takeDesc]
      simp only [h46, Bool.false_eq_true, if_false]
    · rw [exec_slDescRecv_eq he, State.slTake_gap _ ho hs hm]
    · refine ⟨_, rfl, ?_⟩
      rw [exec_slTaintRecv, execSlTaintRecv, State.slTake_expected _ ho hs]
    · obtain ⟨hnone, hsome⟩ := exec_slAckRecv_of_open (seq := seq) ho hs1
      refine ⟨hnone, hsome, ?_⟩
      rw [hs1, exec_slCreditRecv, execSlCreditRecv, if_pos ho]
    · rw [exec_slConsumedSend, execSlConsumedSend, if_pos ho]
  · refine ⟨fun d q data s hd hv hp => ?_, fun d q data s hd hv hp => ?_, fun d q data s hd => ⟨_, rfl, exec_slqIncfgWrite_invalid hd⟩,
      fun d j data s s0 => exec_slqOutcfgWrite_opens, fun i data s hv hd => ⟨fun hok => ?_, fun hok => ?_⟩, fun v s hb => ⟨?_, ?_⟩, fun s k hk => ?_,
      fun ctx s => ?_⟩
    · rw [exec_slqIncfgWrite_valid hd hp, if_neg (ne_true_of_eq_false hv)]
    · rw [exec_slqIncfgWrite_valid hd hp, if_pos hv]
    · rw [exec_stgStageWrite_valid hv hd, if_pos hok]
    · rw [exec_stgStageWrite_valid hv hd, if_neg (ne_true_of_eq_false hok)]
    · rw [exec_vcmdActivate]
      exact ⟨_, rfl, State.vcmdStart_of_idle hb⟩
    · rw [exec_vcmdRetire]
      exact ⟨_, rfl, State.vcmdStart_of_idle hb⟩
    · obtain ⟨s1, he, hn⟩ := exec_vcmdDone_of_running hk
      exact ⟨_, he, hn, State.reg_setReg_same ..⟩
    · rw [exec_stgTclr]
      refine ⟨_, rfl, by simp only [State.taintAll, State.withStg_stg, KMap.get_set_same], fun x hx => ?_, fun x hx hne => ?_⟩
      · exact of_decide_eq_true (List.mem_filter.mp hx).2
      · exact List.mem_filter.mpr ⟨hx, decide_eq_true hne⟩

end Sys2Proof.Machine
end

section
/-! Full/empty instructions, barriers, signals and claims (R274 to R292). -/

namespace Sys2Proof.Machine

/-! ## Full/empty instructions -/

/-- The word of a full/empty instruction as its operation meets it: its tollgate charged, the array error of its read handled. -/
def State.wordMet (s : State) (c l : Nat) (err : ArrayErr) : State :=
  (s.chargeAtomic (slotDie c) (s.partOf (s.coreCtx c)) l).arrayErr l err

section
variable {s : State} {c rd : Nat} {nb pair : Bool} {a : W64} {op : WordOp} {why : Why} {err : ArrayErr}
  (hr : s.coreRuns c = true) (hs : c < 340) (hp : pair = false ∨ rd % 2 = 0)
include hr hs hp

theorem State.wordInsn_some (hc : s.wordCheck (s.coreCtx c) a = St.ok) (hg : s.atomicShut (slotDie c) (s.partOf (s.coreCtx c)) (a.toNat % 2 ^ 48) = false)
    {v : Option W64} {s1 : State} (ho : (s.wordMet c (a.toNat % 2 ^ 48) err).wordOp (a.toNat % 2 ^ 48) op = some (St.ok, v, s1)) :
    s.wordInsn c rd nb pair a op why err = (s1.retWord c rd op St.ok v).wake (a.toNat % 2 ^ 48) := by
  have hok : ¬ (!hasSync c || (pair && decide (rd % 2 = 1))) = true := by
    rcases hp with rfl | hp <;> simp [hasSync, *]
  rw [State.wordMet] at ho
  rw [State.wordInsn, hr, Bool.not_true, if_neg Bool.false_ne_true, if_neg hok]
  dsimp only
  rw [if_neg (not_not_intro hc), hg, if_neg Bool.false_ne_true, ho]
  rfl

theorem State.wordInsn_none (hc : s.wordCheck (s.coreCtx c) a = St.ok) (hg : s.atomicShut (slotDie c) (s.partOf (s.coreCtx c)) (a.toNat % 2 ^ 48) = false)
    (ho : (s.wordMet c (a.toNat % 2 ^ 48) err).wordOp (a.toNat % 2 ^ 48) op = none) :
    s.wordInsn c rd nb pair a op why err = if nb then (s.wordMet c (a.toNat % 2 ^ 48) err).retWord c rd op St.notReady none
      else (s.wordMet c (a.toNat % 2 ^ 48) err).wait c rd why := by
  have hok : ¬ (!hasSync c || (pair && decide (rd % 2 = 1))) = true := by
    rcases hp with rfl | hp <;> simp [hasSync, *]
  rw [State.wordMet] at ho ⊢
  rw [State.wordInsn, hr, Bool.not_true, if_neg Bool.false_ne_true, if_neg hok]
  dsimp only
  rw [if_neg (not_not_intro hc), hg, if_neg Bool.false_ne_true, ho]

theorem State.wordInsn_of_failedCheck (hc : s.wordCheck (s.coreCtx c) a ≠ St.ok) :
    s.wordInsn c rd nb pair a op why err = s.retWord c rd op (s.wordCheck (s.coreCtx c) a) none := by
  have hok : ¬ (!hasSync c || (pair && decide (rd % 2 = 1))) = true := by
    rcases hp with rfl | hp <;> simp [hasSync, *]
  rw [State.wordInsn, hr, Bool.not_true, if_neg Bool.false_ne_true, if_neg hok]
  exact if_pos hc

end

/-- A pair form with an odd RD is illegal (R275). -/
theorem State.wordInsn_of_oddPair {s : State} {c rd : Nat} {nb : Bool} {a : W64} {op : WordOp} {why : Why} {err : ArrayErr}
    (hr : s.coreRuns c = true) (ho : rd % 2 = 1) : s.wordInsn c rd nb true a op why err = s.illegal c := by
  rw [State.wordInsn, hr, Bool.not_true, if_neg Bool.false_ne_true, if_pos]
  simp [ho]

/-- Settles O38: each instruction is the shared operation on a word. -/
theorem fullEmptyInstructions : Obligations.FullEmptyInstructions := by
  unfold Obligations.FullEmptyInstructions
  refine ⟨fun c nb rd rs1 rs2 err s s0 s2 l hr hc340 hc hl hg hs2 hs0 => ?_, fun c nb rd rs1 rs2 err s hr hc340 he hc => ⟨?_, ?_⟩,
    fun c nb rd rs1 err s hr ho => ⟨?_, ?_⟩⟩
  · subst hl hs2 hs0
    refine ⟨fun v s1 he ho => ?_, fun he ho => ?_, fun v s1 he ho => ?_, fun he ho => ?_, fun v s1 ho => ?_, fun ho => ?_, fun v s1 he ho => ?_,
      fun v s1 he ho => ?_, fun f v s1 ho => ?_⟩
    · rw [exec_ldfe, execLdfe, State.wordInsn_some hr hc340 (.inr he) hc hg ho]
    · rw [exec_ldfe, execLdfe, State.wordInsn_none hr hc340 (.inr he) hc hg ho]
      rfl
    · rw [exec_ldfn, execLdfn, State.wordInsn_some hr hc340 (.inr he) hc hg ho]
    · rw [exec_ldfn, execLdfn, State.wordInsn_none hr hc340 (.inr he) hc hg ho]
      rfl
    · rw [exec_stef, execStef, State.wordInsn_some (err := .none) hr hc340 (.inl rfl) hc hg ho]
    · rw [exec_stef, execStef, State.wordInsn_none (err := .none) hr hc340 (.inl rfl) hc hg ho]
      rfl
    · rw [exec_finc, execFinc, State.wordInsn_some hr hc340 (.inr he) hc hg ho]
    · rw [exec_fdec, execFdec, State.wordInsn_some hr hc340 (.inr he) hc hg ho]
    · rw [exec_fini, execFini, State.wordInsn_some (err := .none) hr hc340 (.inl rfl) hc hg ho]
  · rw [exec_ldfe, execLdfe, State.wordInsn_of_failedCheck hr hc340 (.inr he) hc]
  · rw [exec_stef, execStef, State.wordInsn_of_failedCheck hr hc340 (.inl rfl) hc]
  · rw [exec_ldfe, execLdfe, State.wordInsn_of_oddPair hr ho]
  · rw [exec_ldfn, execLdfn, State.wordInsn_of_oddPair hr ho]

/-! ## Barriers -/

theorem hasSync_of_lt {c : Nat} (h : c < 340) : hasSync c = true := decide_eq_true h

/-- A field cleared by its mask is the field set to zero. -/
theorem Bits.and_not_mask (w : W64) (hi lo : Nat) : w &&& ~~~Bits.mask hi lo = Bits.put w hi lo 0 := by
  rw [Bits.put, Nat.zero_shiftLeft, BitVec.zero_and, BitVec.or_zero]

theorem State.fld_withSync (s : State) (x : Sync) (p : Nat) (f : Fld) : (s.withSync x).fld p f = s.fld p f := rfl

/-- The bits of the arrived participants stand in registers of their own. -/
theorem State.fld_clearArrived (s : State) (b : Nat) {f : Fld} (ho : f.off = 0x018) (hl : F.barStatArrived.hi < f.lo) :
    (s.clearArrived b).fld (Pg.bar b) f = s.fld (Pg.bar b) f := by
  rw [State.clearArrived, State.fld_setFld_other _ _ (.inr (.inr hl))]
  refine List.foldlRecOn (motive := fun t : State => t.fld (Pg.bar b) f = s.fld (Pg.bar b) f) _ _ rfl fun t ht i _ => ?_
  rw [State.fld_setReg_other _ _ (by rw [ho]; omega), ht]

theorem State.clearArrived_sync (s : State) (b : Nat) : (s.clearArrived b).sync = s.sync := by
  rw [State.clearArrived, State.setFld, State.setReg_sync]
  exact List.foldlRecOn (motive := fun t : State => t.sync = s.sync) _ _ rfl fun t ht i _ => (State.setReg_sync t _ _).trans ht

theorem State.plainWrite_sync (s : State) (k : Nat) (data : W64) : (s.plainWrite k data).sync = s.sync := by
  have keep : Keeps 16 s (s.plainWrite k data) := State.plainWrite_keeps (.of rfl) (keeps_refl _ s)
  exact keep .sync rfl

theorem exec_barArm_arms {b : Fin 64} {data : W64} {s : State} (hv : s.bitF (Pg.bar b) F.barCfgValid = false) (hm : s.maskEmpty b = false) :
    ∃ t, exec (.barArm b data) s = .next t ∧ t.sync.waiters = s.sync.waiters ∧ t.barState b = Bar.armed ∧ t.barEpisode b = 0 := by
  rw [exec_barArm, execBarArm]
  simp only [hv, hm, Bool.false_eq_true, if_false]
  refine ⟨_, rfl, ?_, ?_, ?_⟩
  · simp only [State.withSync_sync, State.clearArrived_sync, State.setFld, State.setReg_sync, State.plainWrite_sync]
  · rw [State.barState, State.fld_withSync, State.fld_clearArrived _ _ rfl (by decide), State.fld_setFld_other _ _ (.inr (by decide))]
    exact State.fld_setFld_state (by decide) (by decide) (by decide)
  · rw [State.barEpisode, State.fld_withSync, State.fld_clearArrived _ _ rfl (by decide), State.fld_setFld_same _ _ _ _ (by decide) (by decide)]
    rfl

/-- A read of STAT clears DROPPED and nothing else of it. -/
theorem exec_barStatRead_eq (b : Fin 64) (s : State) :
    exec (.barStatRead b) s = .next ((s.out (s.reg (Pg.bar b + 0x18))).setFld (Pg.bar b) F.barStatDropped 0) := by
  rw [exec_barStatRead, execBarStatRead, State.readClear, Bits.and_not_mask]
  rfl

theorem exec_barr_of_runs {c : CoreNo} {nb : Bool} {rd rs1 : Gpr} {s : State} {b : Nat} (hr : s.coreRuns c = true) (hc : c.val < 340)
    (he : rd.val % 2 = 0) (hb : (s.g c rs1).toNat % 64 = b) :
    exec (.barr c nb rd rs1) s = .next (if s.arriveCheck b c (s.arriveCtx c b) ≠ St.ok then s.retNone c rd (s.arriveCheck b c (s.arriveCtx c b))
      else if agentSlot c then s.courierArrive c rd b (s.arriveCtx c b) nb else s.coreArrive c rd b nb) := by
  rw [exec_barr, execBarr]
  simp only [hr, hb, hasSync_of_lt hc, he, Bool.not_true, Bool.false_eq_true, if_false, Nat.zero_ne_one, decide_false, Bool.or_self]
  split <;> rfl

theorem exec_bwait_of_armed {c : CoreNo} {nb : Bool} {rd rs1 rs2 : Gpr} {s : State} {b : Nat} (hr : s.coreRuns c = true) (hc : c.val < 340)
    (hb : (s.g c rs1).toNat % 64 = b) (ha : s.barState b = Bar.armed) (hx : s.barCtx b = s.arriveCtx c b) :
    exec (.bwait c nb rd rs1 rs2) s = if episodeDone (s.barEpisode b) ((s.g c rs2).setWidth 32) = true then .next (s.retSt c rd St.ok)
      else .next (if nb then s.retSt c rd St.notReady else s.wait c rd (.episode b ((s.g c rs2).setWidth 32))) := by
  have hno : ¬ (s.barState b = Bar.idle ∨ s.barCtx b ≠ s.arriveCtx c b) := by
    rintro (h | h)
    · rw [ha] at h
      exact absurd h (by decide)
    · exact h hx
  have hnb : ¬ s.barState b = Bar.broken := by
    rw [ha]; decide
  rw [exec_bwait, execBwait]
  simp only [hr, hb, hasSync_of_lt hc, Bool.not_true, Bool.false_eq_true, if_false, if_neg hno, if_neg hnb]

/-- Settles O40. -/
theorem barriers : Obligations.Barriers := by
  unfold Obligations.Barriers
  refine ⟨fun b data s => exec_barArm_arms, fun b data s hv hm => ?_, fun b s => ?_, fun b s => ?_,
    fun c nb rd rs1 s b hr hc he hb => ⟨fun hok => ?_, fun hno => ?_⟩, fun c nb rd rs1 rs2 s b hr hc hb ha hx => ⟨fun hd => ?_, fun hd => ?_⟩,
    fun u ctx data s hr hs => ?_⟩
  · rw [exec_barArm, execBarArm]
    simp only [hv, hm, Bool.false_eq_true, if_false, if_true]
  · rw [exec_barDisarm, execBarDisarm]
  · refine ⟨_, exec_barStatRead_eq b s, rfl, ?_, ?_⟩
    · exact State.fld_setFld_state (by decide) (by decide) (by decide)
    · rw [State.barState, State.fld_setFld_other _ _ (.inr (by decide))]
      rfl
  · rw [exec_barr_of_runs hr hc he hb, if_neg (not_not_intro hok)]
  · rw [exec_barr_of_runs hr hc he hb, if_pos hno]
  · rw [exec_bwait_of_armed hr hc hb ha hx, if_pos hd]
  · rw [exec_bwait_of_armed hr hc hb ha hx, if_neg (ne_true_of_eq_false hd)]
  · rw [exec_barrive, execBarrive]
    simp only [hr, hs, Bool.not_true, Bool.or_self, Bool.false_eq_true, if_false]

/-! ## Signals -/

theorem State.signals_setSignals (s : State) (p : Nat) (v : W64) : (s.setSignals p v).signals p = v := KMap.get_set_same ..

/-- A signal to a slot that does not wait is pending there. -/
theorem State.wakeSignal_of_noWait {s : State} {p : Nat} (h : s.waits p = false) : s.wakeSignal p = s := by
  have hnone : (s.sync.waiters.find? fun w => decide (w.slot = p)) = none := by
    rw [List.find?_eq_none]
    exact List.any_eq_false.mp h
  rw [State.wakeSignal, hnone]

theorem State.signal_pending {ctx p : Nat} {m : W64} {s : State} (hp : p < 376) (hm : m ≠ 0) (hc : ctx = 0 ∨ s.slotRuns p ctx = true)
    (hw : s.waits p = false) : (s.signal ctx p m).1 = St.ok ∧ (s.signal ctx p m).2.signals p = s.signals p ||| m := by
  have h1 : ¬ (383 < p ∨ m = 0 ∨ 376 ≤ p) := by
    rintro (h | h | h)
    · omega
    · exact hm h
    · omega
  have h2 : ¬ (decide (ctx ≠ 0) && !s.slotRuns p ctx) = true := by
    rcases hc with h | h <;> simp [h]
  have hw' : (s.setSignals p (s.signals p ||| m)).waits p = false := hw
  rw [State.signal, if_neg h1, if_neg h2, State.wakeSignal_of_noWait hw']
  exact ⟨rfl, State.signals_setSignals ..⟩

/-- The cores' registers are no part of the signals. -/
theorem State.retPair_sync (s : State) (c rd st : Nat) (v : W64) : (s.retPair c rd st v).sync = s.sync :=
  (CoreFrame.setPc c none _ _).sync.trans ((CoreFrame.setG _ _ _ _).sync.trans (CoreFrame.setG _ _ _ _).sync)

theorem State.retSt_sync (s : State) (c rd st : Nat) : (s.retSt c rd st).sync = s.sync := (CoreFrame.ret ..).sync

theorem State.g_retPair_data (s : State) (c rd st : Nat) (v : W64) : (s.retPair c rd st v).g c (rd + 1) = v := by
  rw [State.retPair, State.g_nextPc, State.g_setG_same _ _ _ (Nat.succ_ne_zero rd)]

theorem exec_swait_of_runs {c : CoreNo} {nb : Bool} {rd rs1 : Gpr} {s : State} (hr : s.coreRuns c = true) (he : rd.val % 2 = 0) :
    exec (.swait c nb rd rs1) s = if s.signals c &&& s.g c rs1 = 0
      then .next (if nb then s.retNone c rd St.notReady else s.wait c rd (.signal (s.g c rs1)))
      else .next ((s.setSignals c (s.signals c &&& ~~~(s.g c rs1))).retPair c rd St.ok (s.signals c &&& s.g c rs1)) := by
  rw [exec_swait, execSwait, hr, Bool.not_true, if_neg Bool.false_ne_true, if_neg (by omega)]
  by_cases h : s.signals c &&& s.g c rs1 = 0
  · simp only [State.takeSignals, if_pos h]
  · simp only [State.takeSignals, if_neg h]

/-! ## Claims -/

theorem exec_fclaim_passes {c : CoreNo} {rd rs1 rs2 : Gpr} {s : State} (hr : s.coreRuns c = true) (hc : c.val < 340)
    (hk : s.claimCheck (s.coreCtx c) (s.g c rs1) (s.g c rs2).toNat = St.ok) :
    exec (.fclaim c rd rs1 rs2) s = .next ((s.setClaims (KMap.set none s.sync.claims
      (((List.range 256).find? fun i => (KMap.find s.sync.claims i).isNone).getD 0)
      (some ⟨wordL (s.g c rs1), (s.g c rs2).toNat, s.coreCtx c, false⟩))).retSt c rd St.ok) := by
  rw [exec_fclaim, execFclaim]
  simp only [hr, hasSync_of_lt hc, hk, Bool.not_true, Bool.false_eq_true, if_false, if_true]

theorem exec_frel_of_found {c : CoreNo} {rd rs1 : Gpr} {s : State} {e : Nat × Option Claim} (hr : s.coreRuns c = true) (hc : c.val < 340)
    (he : (s.sync.claims.find? fun e => decide ((s.g c rs1).toNat / 2 ^ 48 = s.dev) &&
      (e.2.map fun k => decide (k.ctx = s.coreCtx c ∧ k.base = wordL (s.g c rs1)) && !k.lost).getD false) = some e) :
    exec (.frel c rd rs1) s = .next ((s.setClaims (KMap.set none s.sync.claims e.1 none)).retSt c rd St.ok) := by
  rw [exec_frel, execFrel]
  simp only [hr, hasSync_of_lt hc, Bool.not_true, Bool.false_eq_true, if_false, he]

/-- Settles O41. -/
theorem signalsAndClaims : Obligations.SignalsAndClaims := by
  unfold Obligations.SignalsAndClaims
  refine ⟨⟨fun c rd rs1 rs2 s hr hc => ?_, fun ctx p m s => State.signal_pending, fun c nb rd rs1 s hr he hb => ?_,
      fun c rd rs1 s hr he hb => ⟨?_, ?_⟩⟩,
    ⟨fun c rd rs1 rs2 s hr hc hk => ?_, fun c rd rs1 s e hr hc he => ?_, fun c s w hw ht => ?_, fun ctx s h => ?_, fun ctx s h => ?_, fun s h => ?_⟩⟩
  · rw [exec_fsig, execFsig]
    simp only [hr, hasSync_of_lt hc, Bool.not_true, Bool.false_eq_true, if_false]
  · rw [exec_swait_of_runs hr he, if_neg hb]
    refine ⟨_, rfl, ?_, State.g_retPair_data ..⟩
    rw [State.signals, State.retPair_sync, ← State.signals, State.signals_setSignals]
  · rw [exec_swait_of_runs hr he, if_pos hb]
    rfl
  · rw [exec_swait_of_runs hr he, if_pos hb]
    rfl
  · refine ⟨_, _, exec_fclaim_passes hr hc hk, rfl, ?_, State.g_ret ..⟩
    simp only [State.retSt_sync, State.setClaims, State.withSync_sync, KMap.get_set_same]
  · refine ⟨_, exec_frel_of_found hr hc he, ?_⟩
    simp only [State.retSt_sync, State.setClaims, State.withSync_sync, KMap.get_set_same]
  · rw [exec_syncTimeout, execSyncTimeout, hw]
    simp only [if_neg ht]
  · rw [exec_synLose, execSynLose, State.synLose, h]
    rfl
  · rw [exec_synLose, execSynLose, State.synLose, if_pos h]
  · rw [exec_claimMarkDone, execClaimMarkDone, if_pos h]

end Sys2Proof.Machine
end

section
/-! Link ports: training, resync, credits and the port's registers (R299 to R307, R327, R328). -/

namespace Sys2Proof.Machine

/-! ## A port's record -/

theorem State.port_addWork (s : State) (page n p : Nat) : (s.addWork page n).port p = s.port p := rfl

theorem State.port_setReg (s : State) (k p : Nat) (v : W64) : (s.setReg k v).port p = s.port p := rfl

/-- A control flit heard counts as work of the port only. -/
theorem State.port_hearCtl (s : State) (p q : Nat) : (s.hearCtl p).port q = s.port q := State.port_addWork ..

/-- A control flit sent is the port's last. -/
theorem State.port_sendCtl (s : State) (p : Nat) (f : List W64) : (s.sendCtl p f).port p = { s.port p with lastTx := f } := by
  rw [State.sendCtl, State.port_addWork, State.port_setPort_same]

theorem State.reg_setPort (s : State) (p : Nat) (x : Port) (k : Nat) : (s.setPort p x).reg k = s.reg k := rfl

theorem exec_linkTrainDone_parks {p : Fin 24} {vers : Byte} {s : State} (ht : s.portTraining p = true) (hv : vers.getLsbD 3 = true)
    (hw : (s.port p).wasRouted = false) :
    ∃ t, exec (.linkTrainDone p 0xFF vers) s = .next t ∧ t.reg (Pg.lnk p + 0x18) = Bits.make [(11, 8, 8), (7, 4, 3), (3, 0, Lk.parked)] ∧
      (t.port p).helloDue = true ∧ (t.port p).sent = [] ∧ (t.port p).accepted = [] := by
  have hwas : (((s.hearCtl p).sendCtl p (verFlit 0xFF)).port p).wasRouted = false := by
    rw [State.port_sendCtl, State.port_hearCtl, hw]
  rw [exec_linkTrainDone, execLinkTrainDone]
  simp only [ht, hv, Bool.not_true, Bool.false_eq_true, if_false, if_true, hwas, Bool.false_and, OfNat.ofNat_ne_zero]
  refine ⟨_, rfl, ?_, ?_, ?_, ?_⟩
  · rw [State.reg_setPort, State.reg_setReg_same]
  all_goals rw [State.port_setPort_same]

/-- Settles O42. -/
theorem linkTraining : Obligations.LinkTraining := by
  unfold Obligations.LinkTraining
  refine ⟨fun p vers s => exec_linkTrainDone_parks, fun p s ht => ?_, fun p s hu hw cw => ?_, fun p s hu => ?_, fun p sent s hu hw => ?_,
    fun p freed s hu => ⟨fun hs => ?_, ?_, ?_, ?_, fun hw => ?_, fun hs => ?_⟩⟩
  · rw [exec_linkTrainFail, execLinkTrainFail, if_pos ht]
  · rw [exec_linkFecUncorr, execLinkFecUncorr]
    simp only [hu, hw, Bool.not_true, Bool.false_eq_true, if_false]
  · rw [exec_rsreqRecv, execRsreqRecv]
    simp only [hu, Bool.not_true, Bool.false_eq_true, if_false]
    exact ⟨_, rfl, by rw [State.port_sendCtl, State.port_setPort_same], by rw [State.port_sendCtl]⟩
  · rw [exec_markRecv, execMarkRecv]
    simp only [hu, hw, Bool.not_true, Bool.or_self, Bool.false_eq_true, if_false]
    refine ⟨_, rfl, ?_, ?_, ?_⟩
    all_goals rw [State.port_sendCtl, State.port_setPort_same]
  · rw [exec_rsackRecv, execRsackRecv]
    simp only [hu, hs, Bool.not_true, Bool.or_self, Bool.false_eq_true, if_false]
    exact ⟨_, rfl, by rw [State.port_setPort_same], by rw [State.port_setPort_same]⟩
  · rw [exec_crdRecv, execCrdRecv, if_pos hu]
    exact ⟨_, rfl, by rw [State.port_setPort_same], by rw [State.port_setPort_same]⟩
  · rw [exec_crdSend, execCrdSend, if_pos hu]
    exact ⟨_, rfl, by rw [State.port_sendCtl, State.port_setPort_same], by rw [State.port_sendCtl]⟩
  · rw [exec_linkFlitGapTimeout, execLinkFlitGapTimeout, if_pos hu]
  · rw [exec_linkResyncTimeout, execLinkResyncTimeout]
    simp only [hu, hw, Bool.true_or, Bool.and_self, if_true]
  · rw [exec_linkResyncTimeout, execLinkResyncTimeout]
    simp only [hu, hs, Bool.or_true, Bool.and_self, if_true]

/-! ## The registers of a port -/

theorem lnk_ne_sst {p o : Nat} (h : o < 2 ^ 12) : Pg.lnk p + o ≠ Pg.sst + F.sstSeqNext.off := by
  simp only [Pg.lnk, Pg.sst, pg]
  omega

theorem State.sstAdd_units (s : State) (typ key : Nat) (payload : List W64) : (s.sstAdd typ key payload).sst.units = s.sst.units := by
  simp only [State.sstAdd, State.setFld, State.withSst_sst, State.setReg_sst]

theorem State.unitRec_putUnit (s : State) (key : Nat) (u : UnitRec) : (s.putUnit key u).unitRec key = u := by
  rw [State.unitRec, State.putUnit, State.sstAdd_units, State.withSst_sst]
  exact KMap.get_set_same ..

theorem State.lnk_setLnk {s : State} {p st : Nat} (h : st < 16) : (s.setLnk p st).lnk p = st :=
  State.fld_setFld_state (by decide) (by decide) h

theorem exec_lnkReadmit_of_fenced {p : Fin 24} {s : State} (h : s.lnk p = Lk.fenced) :
    ∃ t, exec (.lnkReadmit p) s = .next t ∧ t.lnk p = Lk.down ∧ t.unitFenced (lnkKey p) = false := by
  rw [exec_lnkReadmit, execLnkReadmit, if_neg (not_not_intro h)]
  refine ⟨_, rfl, ?_, ?_⟩
  · rw [State.lnk, State.putUnit, State.fld_sstAdd_other _ _ _ _ (lnk_ne_sst (by decide))]
    rw [State.fld, State.reg_withSst, ← State.fld, State.fld_setFld_other _ _ (.inl (fun e => absurd (Nat.add_left_cancel e) (by decide))),
      State.fld_setBitF_other _ _ (.inr (by decide))]
    exact State.lnk_setLnk (by decide)
  · rw [State.unitFenced, State.unitRec_putUnit]

/-- Settles O43. -/
theorem linkCommands : Obligations.LinkCommands := by
  unfold Obligations.LinkCommands
  refine ⟨fun p hi data s ha => ?_, fun p hi data s ha => ⟨fun hu => ?_, fun hu hw => ?_⟩, fun p s => exec_lnkReadmit_of_fenced, fun p s hd hu => ?_,
    fun p s hl hp hv => ?_, fun p s hl => ?_, fun p s hl => ?_, fun p s hoff hf => ?_, fun p s hf => ?_, fun p s => exec_lnkCounterRead_work p s⟩
  · rw [exec_lnkVcallocWrite, execLnkVcallocWrite]
    simp only [ha, Bool.not_false, if_true]
  · rw [exec_lnkVcallocWrite, execLnkVcallocWrite]
    simp only [ha, hu, Bool.not_true, Bool.false_and, Bool.false_eq_true, if_false]
  · rw [exec_lnkVcallocWrite, execLnkVcallocWrite]
    simp only [ha, hu, hw, Bool.not_true, Bool.not_false, Bool.and_self, Bool.false_eq_true, if_false, if_true]
  · rw [exec_lnkRetrain, execLnkRetrain, if_pos ⟨hd, hu⟩]
  · have hno : ¬ (s.lnk p ≠ Lk.parked ∨ s.peerResult p ≠ 1) := not_or.mpr ⟨not_not_intro hl, not_not_intro hp⟩
    have h3 : ¬ (s.portVer p = 2 ∧ s.escapeMode = true) := fun h => absurd (hv.symm.trans h.1) (by decide)
    rw [exec_lnkAdmit, execLnkAdmit, if_neg hno, if_neg h3]
    refine ⟨_, rfl, State.fld_setFld_state (by decide) (by decide) (by decide), ?_⟩
    rw [State.lnk, State.fld_setFld_other _ _ (.inr (by decide)), ← State.lnk, hl]
  · rw [exec_lnkPark, execLnkPark, if_pos hl]
    exact ⟨_, rfl, State.fld_setFld_state (by decide) (by decide) (by decide)⟩
  · have hf : ¬ s.lnk p = Lk.fenced := by rw [hl]; decide
    rw [exec_lnkEnWrite, execLnkEnWrite, if_neg hf]
    refine ⟨_, congrArg Host.Outcome.next (if_pos hl), State.lnk_setLnk (by decide), ?_⟩
    rw [State.setLnk, State.bitF_setFld_other _ _ rfl (.inl (fun e => absurd (Nat.add_left_cancel e) (by decide))),
      State.bitF_setBitF_same _ _ _ _ rfl (by decide)]
  · rw [exec_lnkEnWrite, execLnkEnWrite, if_neg hf]
    exact congrArg Host.Outcome.next (if_neg hoff)
  · rw [exec_lnkReadmit, execLnkReadmit, if_pos hf]

end Sys2Proof.Machine
end

section
/-! Packets and routing versions, discovery, remote operations of a core (R303 to R347). -/

namespace Sys2Proof.Machine

/-! ## Packets and routing -/

theorem State.setVerState_net (s : State) (v n : Nat) : (s.setVerState v n).net = s.net := by
  unfold State.setVerState
  split <;> rw [State.setFld, State.setReg_net]

theorem exec_rteLoad_allowed {data : W64} {s : State} (hd : data.getLsbD 0 = true) (ha : s.loadAllowed (F.rteLoadVer.of data) = true) :
    ∃ t, exec (.rteLoad data) s = .next t ∧ t.net.loads = s.net.loads ++
      [(F.rteLoadVer.of data, F.rteLoadAddr.of data * 65536, decide (s.verState 0 = Ver.empty ∧ s.verState 1 = Ver.empty))] := by
  rw [exec_rteLoad, execRteLoad]
  simp only [hd, ha, Bool.not_true, Bool.false_eq_true, if_false, if_true]
  exact ⟨_, rfl, by simp only [State.withNet_net, State.setVerState_net]⟩

/-- Settles O44. -/
theorem packetsAndRouting : Obligations.PacketsAndRouting := by
  unfold Obligations.PacketsAndRouting
  refine ⟨⟨fun p words s hp => ⟨?_, fun ho => ?_⟩, fun d s h p vc e hn => ?_, fun d s h f hn => ?_, fun d s h hf => ?_⟩,
    ⟨fun data s => exec_rteLoad_allowed, fun data s hd ha => ?_, fun s v a both rest hl => ?_, fun s hv => ?_, fun s hv => ⟨_, rfl, ?_⟩,
      fun data s s1 h0 h1 hs1 => ?_, fun data s => ?_⟩⟩
  · rw [exec_pktRecv, execPktRecv, if_pos hp]
  · rw [exec_relayRecv, execRelayRecv]
    simp only [hp, ho, decide_true, Bool.and_self, if_true]
  · rw [exec_pktForward, execPktForward, hn]
  · rw [exec_pktForward, execPktForward, hn]
  · rw [exec_pktStaleDiscard, execPktStaleDiscard, hf]
  · rw [exec_rteLoad, execRteLoad]
    simp only [hd, ha, Bool.not_true, Bool.false_eq_true, if_false]
  · rw [exec_rteLoadDone, execRteLoadDone, hl]
  · rw [exec_rteFlip, execRteFlip]
    exact if_pos hv
  · rw [exec_rteFlip, execRteFlip]
    exact if_neg (not_not_intro hv)
  · rw [hs1, exec_rteCfgWrite, execRteCfgWrite]
    simp only [h0, h1, and_self, decide_true, Bool.not_true, Bool.false_and, Bool.false_eq_true, if_false]
  · rw [exec_rteTimersWrite, execRteTimersWrite]

/-! ## Discovery -/

theorem exec_helloRecv_of_parked {p : Fin 24} {h : Hello} {s : State} (hu : s.portUp p = true) (hc : h.crcOk = true) (hl : s.lnk p ≠ Lk.routed) :
    exec (.helloRecv p h) s =
      .next ((((s.hearCtl p).setPort p { s.port p with hello := some h, helloAt := some (s.now (portDie p)) }).showPeer p h).redecide p) := by
  have hno : ¬ ((s.hearCtl p).lnk p = Lk.routed ∧ h.uid ≠ (s.port p).admitUid) := fun e => hl e.1
  rw [exec_helloRecv, execHelloRecv]
  simp only [hu, hc, Bool.not_true, Bool.false_eq_true, if_false, State.port_hearCtl]
  exact if_neg hno

theorem exec_locRecv_of_agreeing {p : Fin 24} {l : Loc} {s s2 : State} (hu : s.portUp p = true) (hc : l.crcOk = true)
    (hs2 : s2 = ((((s.hearCtl p).setPort p { s.port p with loc := some l }).setFld (Pg.dsc + 8 * p.val) F.dscPeerPort l.sport.toNat).setFld
      (Pg.dsc + 8 * p.val) F.dscPeerDev (Loc.number l)).setBitF (Pg.dsc + 8 * p.val) F.dscPeerIdv true)
    (hl : s2.locConflict = false) : exec (.locRecv p l) s = .next (s2.identify.redecide p) := by
  rw [exec_locRecv, execLocRecv]
  simp only [hu, hc, Bool.not_true, Bool.false_eq_true, if_false, State.port_hearCtl]
  rw [← hs2, hl, if_neg Bool.false_ne_true]

/-- Settles O45. -/
theorem discovery : Obligations.Discovery := by
  unfold Obligations.Discovery
  refine ⟨fun p h s => exec_helloRecv_of_parked, fun p h s hu hc => ?_, fun p l s s2 => exec_locRecv_of_agreeing, fun p s hu => ⟨?_, ?_⟩,
    fun s hg hp => ?_, fun p s => ?_, fun p data s => ?_, fun data s hne => ?_, fun data s => ?_⟩
  · rw [exec_helloRecv, execHelloRecv]
    simp only [hu, hc, Bool.not_true, Bool.not_false, Bool.false_eq_true, if_false, if_true]
  · rw [exec_probeRecv, execProbeRecv]
    simp only [hu, Bool.not_true, Bool.false_eq_true, if_false, if_true]
    exact ⟨_, rfl, by rw [State.port_setPort_same]⟩
  · rw [exec_helloSend, execHelloSend, if_pos hu]
    exact ⟨_, rfl, by rw [State.port_sendCtl, State.port_setPort_same], by rw [State.port_sendCtl]⟩
  · rw [exec_discElect, execDiscElect]
    simp only [hg, hp, Option.isSome_none, Bool.not_true, Bool.or_self, Bool.false_eq_true, if_false]
  · rw [exec_discPeerTimeout, execDiscPeerTimeout]
  · rw [exec_dscExpWrite, execDscExpWrite]
  · rw [exec_dscFabricWrite, execDscFabricWrite]
    exact if_neg hne
  · rw [exec_dscIdWrite, execDscIdWrite]

/-! ## Remote operations -/

section
variable {c : CoreNo} {rd rs1 rs2 : Gpr} {s : State} (hr : s.coreRuns c = true) (hc : c.val < 340)
include hr hc

theorem State.rop_eq_newWork : ∃ t, s.rop c rd rs1 rs2 = s.newWork c rd t ∧
    (64 ≤ (s.net.ops.filter fun o => decide (o.group = 2 * slotDie c + Bits.get (s.g c rs1) 0 0)).length → t = s.retSt c rd St.queueFull) := by
  unfold State.rop
  rw [hr, Bool.not_true, if_neg Bool.false_ne_true, if_neg (Nat.not_le.mpr hc)]
  exact ⟨_, rfl, fun h => if_pos h⟩

theorem State.rop_refused {st : Nat} (h : (s.aborting (s.coreCtx c) = true ∧ st = St.aborted) ∨ (s.aborting (s.coreCtx c) = false ∧
      64 ≤ (s.net.ops.filter fun o => decide (o.group = 2 * slotDie c + Bits.get (s.g c rs1) 0 0)).length ∧ st = St.queueFull)) :
    s.rop c rd rs1 rs2 = s.retSt c rd st := by
  obtain ⟨t, ht, hfull⟩ := State.rop_eq_newWork (rd := rd) (rs1 := rs1) (rs2 := rs2) hr hc
  rcases h with ⟨ha, rfl⟩ | ⟨ha, hlen, rfl⟩
  · rw [ht, State.newWork_of_aborting ha]
  · rw [ht, State.newWork_of_notAborting ha, hfull hlen]

/-- A block that its queue has room for joins it with what the checks of its kind find (R342, R343). -/
theorem State.rop_accepted {s1 s2 : State} {g chk st : Nat} {win : KMap Byte} {o : PortOp} (ha : s.aborting (s.coreCtx c) = false)
    (hg : g = 2 * slotDie c + Bits.get (s.g c rs1) 0 0) (hlen : (s.net.ops.filter fun o => decide (o.group = g)).length < 64)
    (ho : o = ⟨s.net.nextOp, g, s.coreCtx c, s.scratchWords c (s.g c rs2).toNat 6, [], 0, none, 0, St.ok, 0, []⟩) (hchk : s.opCheck o = (chk, s1))
    (hwin : (if chk = St.ok && !s.isLocal o then s1.windowIssue o else (chk, [], s1)) = (st, win, s2)) :
    s.rop c rd rs1 rs2 = ((s2.withNet { s2.net with
      ops := s2.net.ops ++ [{ o with status := st, win := win, rest := if st ≠ St.ok then [] else if o.moves then [(0, o.len)] else if o.kind = 4 then [(0, 8)] else [(0, 0)] }],
      nextOp := s2.net.nextOp + 1 }).retSt c rd St.ok).formAll (slotDie c) := by
  subst hg ho
  unfold State.rop
  rw [hr, Bool.not_true, if_neg Bool.false_ne_true, if_neg (Nat.not_le.mpr hc), State.newWork_of_notAborting ha]
  dsimp only
  rw [if_neg (Nat.not_le.mpr hlen), hchk]
  dsimp only
  rw [hwin]

end

section
variable {d : Die} {g : Fin 2} {p : Fin 8} {par : Bool} {hits : Hits} {s : State} {o : PortOp} (hd : s.dieUp d = true)
  (hu : s.unitFenced (porterKey d (8 * g + p)) = false) (hi : s.inReset [(3, 16 * d.val + 8 * g.val + p.val)] = false)
  (ho : (s.net.ops.find? fun o => decide (o.group = 2 * d.val + g.val) && s.mayEnd o) = some o)
include hd hu hi ho

theorem exec_porterTransferDone_failed (hst : o.status ≠ St.ok) :
    exec (.porterTransferDone d g p par hits) s = .next (s.endOp o o.status o.bytes o.old) := by
  rw [exec_porterTransferDone, execPorterTransferDone]
  simp only [hd, hu, hi, Bool.not_true, Bool.or_self, Bool.false_eq_true, if_false, ho, ne_eq, hst, not_false_eq_true, if_true]

theorem exec_porterTransferDone_away (hst : o.status = St.ok) (hl : s.isLocal o = false) :
    exec (.porterTransferDone d g p false hits) s = .next ((s.windowEnd o).2.endOp o (s.windowEnd o).1 o.bytes o.old) := by
  rw [exec_porterTransferDone, execPorterTransferDone]
  simp only [hd, hu, hi, Bool.not_true, Bool.or_self, Bool.false_eq_true, if_false, ho, ne_eq, hst, not_true_eq_false, hl]

theorem exec_porterTransferDone_within (hst : o.status = St.ok) (hl : s.isLocal o = true) :
    exec (.porterTransferDone d g p false hits) s =
      .next (((s.meet hits).runHere o).2.2.2.endOp o ((s.meet hits).runHere o).1 ((s.meet hits).runHere o).2.1 ((s.meet hits).runHere o).2.2.1) := by
  rw [exec_porterTransferDone, execPorterTransferDone]
  simp only [hd, hu, hi, Bool.not_true, Bool.or_self, Bool.false_eq_true, if_false, ho, ne_eq, hst, not_true_eq_false, hl, if_true]

end

/-- The five rows are one operation (R342). -/
theorem exec_rop_forms {c : CoreNo} {rd rs1 rs2 : Gpr} {s t : State} (h : s.rop c rd rs1 rs2 = t) :
    exec (.ropPut ⟨c, []⟩ rd rs1 rs2) s = .next t ∧ exec (.ropGet c rd rs1 rs2) s = .next t ∧ exec (.ropGet3 c rd rs1 rs2) s = .next t ∧
      exec (.ropAtomic c rd rs1 rs2) s = .next t ∧ exec (.ropSignal c rd rs1 rs2) s = .next t := by
  subst h
  exact ⟨rfl, rfl, rfl, rfl, rfl⟩

/-- Settles O46: the five forms are one operation, told apart by the block. -/
theorem porterOperations : Obligations.PorterOperations := by
  unfold Obligations.PorterOperations
  refine ⟨⟨fun c rd rs1 rs2 s s1 s2 g chk st win o hr hc ha hg hlen ho hchk hwin => ⟨_, rfl, ?_⟩, fun c rd rs1 rs2 hits s => rfl,
      fun c rd rs1 rs2 s st hr hc h => ?_⟩, fun d g p par hits s o hd hu hi ho => ⟨exec_porterTransferDone_failed hd hu hi ho,
      exec_porterTransferDone_away hd hu hi ho, exec_porterTransferDone_within hd hu hi ho⟩⟩
  · exact exec_rop_forms (State.rop_accepted hr hc ha hg hlen ho hchk hwin)
  · exact exec_rop_forms (State.rop_refused hr hc h)

end Sys2Proof.Machine
end

section
/-! Requests and replies that arrive, and reply slots that expire (R206, R325, R344, R345, R353). -/

namespace Sys2Proof.Machine

/-! ## Requests -/

section
variable {d : Die} {hits : Hits} {s s1 : State} {ws : List W64}

section
variable (ht : ((s.meet hits).takeSunk d fun ws => decide (Pkt.op ws = Op.put)) = some (ws, s1))
include ht

theorem exec_putRecv_lands {w : Import} (hn : Pkt.narrow ws = false) (hw : s1.importWin (Pkt.src ws) 62 none (Pkt.addr ws) (lenOf ws) = some w)
    (hg : s1.gateShut d w.part (Pkt.addr ws) (lenOf ws) true = false) (hc : s1.importCheckW w (Pkt.addr ws) (lenOf ws) = St.ok) :
    exec (.putRecv ⟨d, hits⟩) s = .next ((((s1.storeMarked (Pkt.addr ws) (Pkt.bytes ws (lenOf ws)) fun _ =>
      decide (Pkt.status ws = St.poisoned)).charge d w.part (Pkt.addr ws) (lenOf ws) true).wakeRange (Pkt.addr ws) (lenOf ws)).ack d ws
        (s1.wrote (Pkt.addr ws) (lenOf ws))) := by
  rw [exec_putRecv, execPutRecv]
  simp only [ht, hn, hw, hg, hc, Bool.false_and, Bool.false_eq_true, if_false, ne_eq, not_true_eq_false]

theorem exec_putRecv_denied (hn : Pkt.narrow ws = false) (hw : s1.importWin (Pkt.src ws) 62 none (Pkt.addr ws) (lenOf ws) = none) :
    exec (.putRecv ⟨d, hits⟩) s = .next (s1.deny.ack d ws St.partViolation) := by
  rw [exec_putRecv, execPutRecv]
  simp only [ht, hn, hw, Bool.false_and, Bool.false_eq_true, if_false]

/-- A narrow put lands in whole segments. -/
theorem exec_putRecv_narrow {a n : Nat} {w : Import} (hn : Pkt.narrow ws = true) (hk : narrowCheck (Pkt.fmt ws) = St.ok)
    (ha : a = Pkt.addr ws + 1024 * wideBytes (wf ws 2 15 15) * (segSpan (Fmt.ofWord (Pkt.fmt ws)) (Pkt.seq ws) (lenOf ws)).1)
    (hlen : n = 1024 * wideBytes (wf ws 2 15 15) * (segSpan (Fmt.ofWord (Pkt.fmt ws)) (Pkt.seq ws) (lenOf ws)).2)
    (hw : s1.importWin (Pkt.src ws) 62 none a n = some w) (hg : s1.gateShut d w.part a n true = false) (hc : s1.importCheckW w a n = St.ok) :
    exec (.putRecv ⟨d, hits⟩) s = .next ((((s1.landNarrow d w ws).charge d w.part a n true).wakeRange a n).ack d ws (s1.wrote a n)) := by
  subst ha hlen
  rw [exec_putRecv, execPutRecv]
  simp only [ht, hn, hk, hw, hg, hc, Bool.true_and, if_true, Bool.false_eq_true, if_false, ne_eq, not_true_eq_false, decide_false]

end

theorem exec_get3Recv_sends {w : Import} (ht : ((s.meet hits).takeSunk d fun ws => decide (Pkt.op ws = Op.get3)) = some (ws, s1))
    (hw : s1.importWin (Pkt.src ws) 61 none (Pkt.addr ws) (Pkt.len ws) = some w)
    (hg : s1.gateShut d w.part (Pkt.addr ws) (Pkt.len ws) false = false) (hc : s1.importCheck w (Pkt.addr ws) (Pkt.len ws) = St.ok)
    (hself : Bits.get (Pkt.payload ws 0) 63 48 = s1.self) :
    exec (.get3Recv ⟨d, hits⟩) s = .next ((s1.charge d w.part (Pkt.addr ws) (Pkt.len ws) false).post d (mkPkt { s1.head s1.self 1 Op.data3 with
      slot := Pkt.slot ws, gen := Pkt.gen ws, addr := Bits.get (Pkt.payload ws 0) 47 0, seq := Pkt.src ws, len := Pkt.len ws,
      unord := s1.unordTo s1.self (Pkt.unord ws)
      status := if s1.loadPoison (Pkt.addr ws) (Pkt.len ws) then St.poisoned else St.ok } (s1.readPayload (Pkt.addr ws) (Pkt.len ws)))) := by
  rw [exec_get3Recv, execGet3Recv]
  simp only [ht, hw, hg, hc, hself, Bool.false_eq_true, if_false, if_true, ne_eq, not_true_eq_false]

theorem exec_atomicRecv_answers {w : Import} {s2 s3 : State} {st : Nat} {v : W64}
    (ht : ((s.meet hits).takeSunk d fun ws => decide (Pkt.op ws = Op.atomic)) = some (ws, s1))
    (hw : s1.importWin (Pkt.src ws) 60 none (Pkt.addr ws) 8 = some w) (hg : s1.atomicShut d w.part (Pkt.addr ws) = false)
    (ha : Pkt.addr ws % 8 = 0) (hc : s1.importCheckW w (Pkt.addr ws) 8 = St.ok) (hwr : s1.wrote (Pkt.addr ws) 8 = St.ok)
    (hs2 : s2 = (s1.charge d w.part (Pkt.addr ws) 8 false).charge d w.part (Pkt.addr ws) 8 true)
    (ho : s2.atomicOp (Pkt.addr ws) (Pkt.len ws) (Pkt.payload ws 0) (Pkt.payload ws 1) = (st, some v, s3)) (hst : st ≠ St.syncUnderflow) :
    exec (.atomicRecv ⟨d, hits⟩) s = .next (s3.reply d (Pkt.src ws) ws Op.ack st 0 [v]) := by
  rw [hs2] at ho
  rw [exec_atomicRecv, execAtomicRecv]
  simp only [ht, hw, hg, ha, hc, hwr, ho, State.oldValue, if_neg hst, Bool.false_eq_true, if_false, ne_eq, not_true_eq_false]

end

/-! ## Replies -/

/-- The replies that the courier of a die takes from those that arrived: its own, and those that no die waits for. -/
def State.repliesOn (m : State) (d : Die) (h : Held) : Bool :=
  isReply h.words && (m.replyMeets d h.words || ((List.range 4).all fun x => !m.replyMeets x h.words))

section
variable {d : Die} {hits : Hits} {s m : State} {h : Held} (hm : m = s.meet hits) (hf : m.net.sunk.find? (m.repliesOn d) = some h)
include hm hf

theorem exec_replyRecv_porter (hr : m.replyMeets d h.words = true) {ctx num off len : Nat}
    (hu : (m.slot (4096 * d.val + Pkt.slot h.words)).use = some (ctx, .porter num off len)) :
    exec (.replyRecv ⟨d, hits⟩) s = .next ((((m.withNet { m.net with sunk := m.net.sunk.erase h }).setSlot (4096 * d.val + Pkt.slot h.words)
      ⟨(m.slot (4096 * d.val + Pkt.slot h.words)).gen, none⟩).answered num off len h.words).formAll d) := by
  subst hm
  unfold State.repliesOn at hf
  rw [exec_replyRecv, execReplyRecv]
  simp only [hf, hr, hu, Bool.not_true, Bool.false_eq_true, if_false]

theorem exec_replyRecv_chunk {s1 : State} (hr : m.replyMeets d h.words = true) {ctx gid rank seq : Nat}
    (hu : (m.slot (4096 * d.val + Pkt.slot h.words)).use = some (ctx, .chunk gid rank seq))
    (hs1 : s1 = (m.withNet { m.net with sunk := m.net.sunk.erase h }).setSlot (4096 * d.val + Pkt.slot h.words)
      ⟨(m.slot (4096 * d.val + Pkt.slot h.words)).gen, none⟩) :
    exec (.replyRecv ⟨d, hits⟩) s =
      .next ((s1.withCr { s1.cr with colls := s1.cr.colls.map fun (x : Coll) => if x.die = d.val ∧ x.gid = gid then
        { x with flown := x.flown.filter fun f => decide (f.rank ≠ rank ∨ f.seq ≠ seq) } else x }).formAll d) := by
  subst hm hs1
  unfold State.repliesOn at hf
  rw [exec_replyRecv, execReplyRecv]
  simp only [hf, hr, hu, Bool.not_true, Bool.false_eq_true, if_false]

theorem exec_replyRecv_dropped (hr : m.replyMeets d h.words = false) :
    exec (.replyRecv ⟨d, hits⟩) s = .next ((m.withNet { m.net with sunk := m.net.sunk.erase h }).addFld Pg.rte F.rteDropbRpl 1) := by
  subst hm
  unfold State.repliesOn at hf
  rw [exec_replyRecv, execReplyRecv]
  simp only [hf, hr, Bool.not_false, if_true]

end

/-- Settles O47. -/
theorem remoteArrivals : Obligations.RemoteArrivals := by
  unfold Obligations.RemoteArrivals
  refine ⟨⟨fun d hits s s1 ws ht => ⟨fun hn => ⟨fun w => exec_putRecv_lands ht hn, exec_putRecv_denied ht hn⟩,
        fun hn hk a n w => exec_putRecv_narrow ht hn hk⟩, fun d hits s s1 ws ht => ⟨fun w hw hg hc => ?_, fun hw => ?_⟩,
      fun d hits s s1 ws ht => ⟨fun w => exec_get3Recv_sends ht, fun hw => ?_⟩, fun d hits s s1 ws ht w hw hg hc => ?_,
      fun d hits s s1 ws ht => ⟨fun w s2 s3 st v => exec_atomicRecv_answers ht, fun hw => ?_⟩,
      fun d s s1 ws ht => ⟨fun w hw => ?_, fun hw => ?_⟩⟩,
    ⟨fun d hits s m s1 h hm hf hr hs1 => ⟨fun ctx num off len hu => ?_, fun ctx gid rank seq hu => exec_replyRecv_chunk hm hf hr hu hs1⟩,
      fun d hits s m h hm hf hr => exec_replyRecv_dropped hm hf hr, fun d sl s ctx num off len hu => ?_, fun d sl s hu => ?_⟩⟩
  · rw [exec_getRecv, execGetRecv]
    simp only [ht, hw, hg, hc, Bool.false_eq_true, if_false, ne_eq, not_true_eq_false]
  · rw [exec_getRecv, execGetRecv]
    simp only [ht, hw]
  · rw [exec_get3Recv, execGet3Recv]
    simp only [ht, hw]
  · rw [exec_data3Recv, execData3Recv]
    simp only [ht, hw, hg, hc, Bool.false_eq_true, if_false, ne_eq, not_true_eq_false]
  · rw [exec_atomicRecv, execAtomicRecv]
    simp only [ht, hw]
  · rw [exec_signalRecv, execSignalRecv]
    simp only [ht, hw]
  · rw [exec_signalRecv, execSignalRecv]
    simp only [ht, hw]
  · rw [hs1]
    exact exec_replyRecv_porter hm hf hr hu
  · rw [exec_remoteTimeout, execRemoteTimeout]
    simp only [hu]
  · rw [exec_remoteTimeout, execRemoteTimeout]
    simp only [hu]

end Sys2Proof.Machine
end

section
/-! # Collectives and the admission of a job

Chapter 12. The eight collectives that a core issues are one operation (R342), told apart by the block; one rule for
each of its outcomes. Then the course of a collective (R350 to R355), one rule for each outcome of a row, and the
admission of a job (R341). -/

namespace Sys2Proof.Machine

/-! ## Issue of a collective -/

/-- The eight rows are one operation (R342). -/
theorem exec_rcoll_forms {c : CoreNo} {rd rs2 : Gpr} {s t : State} (h : s.rcoll c rd rs2 = t) :
    exec (.collOpen c rd rs2) s = .next t ∧ exec (.collClose c rd rs2) s = .next t ∧ exec (.allreduce c rd rs2) s = .next t ∧
      exec (.reduceScatter c rd rs2) s = .next t ∧ exec (.allgather c rd rs2) s = .next t ∧ exec (.broadcast c rd rs2) s = .next t ∧
      exec (.permute c rd rs2) s = .next t ∧ exec (.alltoall c rd rs2) s = .next t := by
  subst h
  exact ⟨rfl, rfl, rfl, rfl, rfl, rfl, rfl, rfl⟩

section
variable {c : CoreNo} {rd rs2 : Gpr} {s : State} (hr : s.coreRuns c = true) (hc : c.val < 340) (ha : s.aborting (s.coreCtx c) = false)
include hr hc ha

theorem State.rcoll_of_queueFull (hfull : 32 ≤ (s.cr.colls.filter fun k => decide (k.die = slotDie c ∧ k.running = false)).length) :
    s.rcoll c rd rs2 = s.retSt c rd St.queueFull := by
  unfold State.rcoll
  rw [hr, Bool.not_true, if_neg Bool.false_ne_true, if_neg (Nat.not_le.mpr hc), State.newWork_of_notAborting ha]
  exact if_pos hfull

section
variable {s1 : State} {ws : List W64} {k : Coll}
  (hlen : (s.cr.colls.filter fun k => decide (k.die = slotDie c ∧ k.running = false)).length < 32)
  (hws : ws = (s.scratchWords c (s.g c rs2).toNat 8).set 0 (Bits.put (wd (s.scratchWords c (s.g c rs2).toNat 8) 0) 55 48 (s.coreCtx c)))
  (hv : wf ws 0 63 56 = 0x40) (hk : k = ⟨s.cr.next, slotDie c, s.coreCtx c, ws, false, [(0, 0), (0, 0)], [0, 0], [], [], [], St.ok⟩)
  (hs1 : s1 = (s.retSt c rd St.ok).withCr { s.cr with next := s.cr.next + 1 })
include hlen hws hv hk hs1

theorem State.rcoll_open (hop : k.op = CollOp.open_) (ho : outOfSvc (s1.crrState (slotDie c)) = false) :
    s.rcoll c rd rs2 = (s1.openGroup (slotDie c) (s.coreCtx c) ws).2.collRecord (slotDie c) (s.coreCtx c) ws
      (s1.openGroup (slotDie c) (s.coreCtx c) ws).1 := by
  subst hs1 hws
  unfold State.rcoll
  rw [hr, Bool.not_true, if_neg Bool.false_ne_true, if_neg (Nat.not_le.mpr hc), State.newWork_of_notAborting ha]
  dsimp only
  rw [← hk, if_neg (Nat.not_le.mpr hlen), if_neg (not_not_intro hv), if_pos hop, ho, if_neg Bool.false_ne_true]

theorem State.rcoll_close {g : Group} (hop : k.op = CollOp.close) (hg : s1.group (slotDie c) k.gid = some g) (hctx : g.ctx = s.coreCtx c)
    (hres : closeReserved ws = false) : s.rcoll c rd rs2 = (s1.withCr { s1.cr with colls := s1.cr.colls ++ [k] }).closeDue (slotDie c) := by
  have hne : ¬ k.op = CollOp.open_ := by rw [hop]; decide
  have hown : (decide (g.ctx ≠ s.coreCtx c) || closeReserved ws) = false := by simp [hctx, hres]
  subst hs1 hws
  unfold State.rcoll
  rw [hr, Bool.not_true, if_neg Bool.false_ne_true, if_neg (Nat.not_le.mpr hc), State.newWork_of_notAborting ha]
  dsimp only
  rw [← hk, if_neg (Nat.not_le.mpr hlen), if_neg (not_not_intro hv), if_neg hne, if_pos hop, hg]
  dsimp only
  rw [hown, if_neg Bool.false_ne_true]

theorem State.rcoll_refused (hno : k.op ≠ CollOp.open_) (hnc : k.op ≠ CollOp.close) (hchk : s1.collCheck k ≠ St.ok) :
    s.rcoll c rd rs2 = s1.collRecord (slotDie c) (s.coreCtx c) ws (s1.collCheck k) := by
  subst hs1 hws
  unfold State.rcoll
  rw [hr, Bool.not_true, if_neg Bool.false_ne_true, if_neg (Nat.not_le.mpr hc), State.newWork_of_notAborting ha]
  dsimp only
  rw [← hk, if_neg (Nat.not_le.mpr hlen), if_neg (not_not_intro hv), if_neg hno, if_neg hnc, if_pos hchk]
  exact if_pos hchk

/-- A collective that its checks pass is accepted; a PERMUTE of a later layout makes that the context's (R351). -/
theorem State.rcoll_accepted {s2 : State} (hno : k.op ≠ CollOp.open_) (hnc : k.op ≠ CollOp.close) (hchk : s1.collCheck k = St.ok)
    (hl : s1.collLookup k = (St.ok, s2)) :
    s.rcoll c rd rs2 = if k.op = CollOp.permute && decide (KMap.get 0 s2.cr.layout (s.coreCtx c) < k.lepoch) then
      s2.withCr { s2.cr with colls := s2.cr.colls ++ [k], layout := KMap.set 0 s2.cr.layout (s.coreCtx c) k.lepoch }
      else s2.withCr { s2.cr with colls := s2.cr.colls ++ [k] } := by
  subst hs1 hws
  unfold State.rcoll
  rw [hr, Bool.not_true, if_neg Bool.false_ne_true, if_neg (Nat.not_le.mpr hc), State.newWork_of_notAborting ha]
  dsimp only
  rw [← hk, if_neg (Nat.not_le.mpr hlen), if_neg (not_not_intro hv), if_neg hno, if_neg hnc, if_neg (not_not_intro hchk), hl]
  rfl

end
end

theorem if_notPermute {k : Coll} {p : Prop} [Decidable p] {t u : State} (h : k.op ≠ CollOp.permute) :
    (if k.op = CollOp.permute && decide p then t else u) = u :=
  if_neg (by simp [h])

/-- A later layout is the context's after the PERMUTE that brings it, and another PERMUTE leaves a layout no older. -/
theorem layout_of_permute {k : Coll} {s2 : State} {ctx : Nat} :
    k.lepoch ≤ KMap.get 0 (if decide (KMap.get 0 s2.cr.layout ctx < k.lepoch) then
      s2.withCr { s2.cr with colls := s2.cr.colls ++ [k], layout := KMap.set 0 s2.cr.layout ctx k.lepoch }
      else s2.withCr { s2.cr with colls := s2.cr.colls ++ [k] }).cr.layout ctx := by
  by_cases h : KMap.get 0 s2.cr.layout ctx < k.lepoch
  · simp only [h, decide_true, if_true, State.withCr_cr, KMap.get_set_same, le_refl]
  · simp only [h, decide_false, Bool.false_eq_true, if_false, State.withCr_cr]
    exact Nat.le_of_not_lt h

/-- Settles O48: the eight forms are one operation, with one rule for each outcome. -/
theorem collectiveIssue : Obligations.CollectiveIssue := by
  unfold Obligations.CollectiveIssue
  refine ⟨fun c rd rs2 s s1 ws k hr hc ha hlen hws hv hk hs1 => ⟨fun hop ho => ?_, fun g hop hg hctx hres => ?_,
    fun s2 hno hnc hnp hchk hl => ?_, fun s2 hop hchk hl => ?_, fun hno hnc hchk => ?_⟩, fun c rd rs2 s hr hc ha hfull => ?_⟩
  · exact (exec_rcoll_forms (State.rcoll_open hr hc ha hlen hws hv hk hs1 hop ho)).1
  · exact (exec_rcoll_forms (State.rcoll_close hr hc ha hlen hws hv hk hs1 hop hg hctx hres)).2.1
  · obtain ⟨-, -, hred, hscat, hgath, hcast, -, hall⟩ :=
      exec_rcoll_forms ((State.rcoll_accepted hr hc ha hlen hws hv hk hs1 hno hnc hchk hl).trans (if_notPermute hnp))
    exact ⟨hred, hscat, hgath, hcast, hall⟩
  · have hno : k.op ≠ CollOp.open_ := by rw [hop]; decide
    have hnc : k.op ≠ CollOp.close := by rw [hop]; decide
    have hacc := State.rcoll_accepted hr hc ha hlen hws hv hk hs1 hno hnc hchk hl
    rw [decide_eq_true hop, Bool.true_and] at hacc
    obtain ⟨-, -, -, -, -, -, hperm, -⟩ := exec_rcoll_forms hacc
    refine ⟨_, hperm, ?_, layout_of_permute⟩
    split <;> rw [State.withCr_cr]
  · obtain ⟨-, -, hred, -⟩ := exec_rcoll_forms (State.rcoll_refused hr hc ha hlen hws hv hk hs1 hno hnc hchk)
    exact hred
  · obtain ⟨hopen, -, hred, -⟩ := exec_rcoll_forms (State.rcoll_of_queueFull (rd := rd) (rs2 := rs2) hr hc ha hfull)
    exact ⟨hopen, hred⟩

/-! ## The course of a collective -/

section
variable {d : Die} {hits : Hits} {s s1 : State} {ws : List W64} {g : Group}

theorem exec_collStart_failed {k : Coll}
    (hf : ((s.meet hits).cr.colls.find? fun k => decide (k.die = d.val) && (s.meet hits).mayStart k && !outOfSvc ((s.meet hits).crrState d) &&
      !(s.meet hits).inReset [(6, d)] && (s.meet hits).mayRun (6, d) k.ctx) = some k)
    (hg : (s.meet hits).group d k.gid = some g) (hm : (s.meet hits).collMemCheck g k ≠ St.ok) :
    exec (.collStart ⟨d, hits⟩) s = .next (((s.meet hits).endColl k ((s.meet hits).collMemCheck g k) 0).closeDue d) := by
  rw [exec_collStart, execCollStart]
  simp only [hf, hg]
  exact if_pos hm

theorem exec_collStart_of_checked {k : Coll}
    (hf : ((s.meet hits).cr.colls.find? fun k => decide (k.die = d.val) && (s.meet hits).mayStart k && !outOfSvc ((s.meet hits).crrState d) &&
      !(s.meet hits).inReset [(6, d)] && (s.meet hits).mayRun (6, d) k.ctx) = some k)
    (hg : (s.meet hits).group d k.gid = some g) (hm : (s.meet hits).collMemCheck g k = St.ok) {s2 : State}
    (hs1 : s1 = (s.meet hits).mapColl k.num (fun x => { x with running := true }))
    (hs2 : s2 = (if k.op = CollOp.permute then s1.collRead k k.ptab (8 + 24 * s1.loadNat k.ptab 8) else s1).collOwn g { k with running := true }) :
    exec (.collStart ⟨d, hits⟩) s =
      .next (((s2.recvRanks k.num).foldl (fun s r => match r with | some r => s.sendCredit g r | none => s) s2).consumeColl k.num) := by
  subst hs2 hs1
  rw [exec_collStart, execCollStart]
  simp only [hf, hg]
  exact if_neg (not_not_intro hm)

theorem exec_collChunkSend_of_sent (ho : outOfSvc ((s.meet hits).crrState d) = false) (hi : (s.meet hits).inReset [(6, d)] = false)
    (hs1 : (((s.meet hits).cr.colls.filter fun k => decide (k.die = d.val) && k.running && (s.meet hits).mayRun (6, d) k.ctx).findSome? fun k =>
      (s.meet hits).sendChunk k) = some s1) : exec (.collChunkSend ⟨d, hits⟩) s = .next s1 := by
  rw [exec_collChunkSend, execCollChunkSend]
  simp only [ho, hi, Bool.or_self, Bool.false_eq_true, if_false, hs1, Option.getD_some]

section
variable (ht : (s.meet hits).takeGroup d Op.chunk = some (ws, s1))
include ht

theorem exec_chunkRecv_nogroup (hg : s1.groupOf d ws = none) :
    exec (.chunkRecv ⟨d, hits⟩) s = .next (s1.setErr (Pg.crr d) F.crrErrStatNogroup 0) := by
  rw [exec_chunkRecv, execChunkRecv]
  simp only [ht, hg]

variable (hg : s1.groupOf d ws = some g)
include hg

theorem exec_chunkRecv_duplicate (hneg : seqDiff (Pkt.seq ws) (s1.streamCount g (g.members.idxOf (Pkt.src ws)) 2) < 0) :
    exec (.chunkRecv ⟨d, hits⟩) s = .next ((s1.addFld (Pg.crr d) F.crrCntDup 1).ack d ws St.ok) := by
  rw [exec_chunkRecv, execChunkRecv]
  simp only [ht, hg]
  exact if_pos (by rw [decide_eq_true hneg, Bool.true_or])

/-- A chunk of the window that is not there yet is kept and acknowledged, and its group's collective takes it (R352). -/
theorem exec_chunkRecv_kept {s2 : State} (hpos : 0 ≤ seqDiff (Pkt.seq ws) (s1.streamCount g (g.members.idxOf (Pkt.src ws)) 2))
    (hwin : seqDiff (Pkt.seq ws) (s1.streamCount g (g.members.idxOf (Pkt.src ws)) 2) < g.window)
    (hnew : (KMap.find g.intake (g.members.idxOf (Pkt.src ws) * 2 ^ 32 + Pkt.seq ws)).isSome = false)
    (hs2 : s2 = (s1.mapGroup d g.gid fun x => { x with intake := KMap.insert x.intake (g.members.idxOf (Pkt.src ws) * 2 ^ 32 + Pkt.seq ws) ws }).ack d ws St.ok) :
    (∀ k, s2.runningOf d g.gid = some k → exec (.chunkRecv ⟨d, hits⟩) s = .next (s2.consumeColl k.num)) ∧
      (s2.runningOf d g.gid = none → exec (.chunkRecv ⟨d, hits⟩) s = .next s2) := by
  have hnot : ¬ (decide (seqDiff (Pkt.seq ws) (s1.streamCount g (g.members.idxOf (Pkt.src ws)) 2) < 0) ||
      (KMap.find g.intake (g.members.idxOf (Pkt.src ws) * 2 ^ 32 + Pkt.seq ws)).isSome) = true := by
    rw [hnew, decide_eq_false (Int.not_lt.mpr hpos)]
    exact Bool.false_ne_true
  refine ⟨fun k hrun => ?_, fun hrun => ?_⟩ <;>
  · subst hs2
    rw [exec_chunkRecv, execChunkRecv]
    simp only [ht, hg]
    rw [if_neg hnot, if_neg (Int.not_le.mpr hwin), hrun]

end

theorem exec_collCreditRecv_of_later {s2 : State} (ht : s.takeGroup d Op.credit = some (ws, s1)) (hg : s1.groupOf d ws = some g)
    (hs2 : s2 = s1.mapGroup d g.gid fun x =>
      { x with heard := if x.heard.contains (g.members.idxOf (Pkt.src ws)) then x.heard else x.heard ++ [g.members.idxOf (Pkt.src ws)] })
    (hpos : 0 ≤ seqDiff (Pkt.seq ws) (s2.streamCount g (g.members.idxOf (Pkt.src ws)) 1)) :
    exec (.collCreditRecv d) s = .next (s2.setStreamCount g (g.members.idxOf (Pkt.src ws)) 1 (Pkt.seq ws)) := by
  subst hs2
  rw [exec_collCreditRecv, execCollCreditRecv]
  simp only [ht, hg]
  rw [if_pos hpos]

section
variable {k : Coll} (hf : (s.cr.colls.find? fun k => decide (k.die = d.val) && s.collDone k) = some k)
include hf

theorem exec_collComplete_failed (hst : k.status ≠ St.ok) : exec (.collComplete d) s = .next ((s.endColl k k.status 0).closeDue d) := by
  rw [exec_collComplete, execCollComplete]
  simp only [hf]
  rw [if_neg hst]

theorem exec_collComplete_ok (hst : k.status = St.ok) (hg : s.group d k.gid = some g) :
    exec (.collComplete d) s =
      .next ((s.endColl k St.ok (if k.op = CollOp.reduceScatter then k.outBytes (k.per g) else k.outBytes k.count)).closeDue d) := by
  rw [exec_collComplete, execCollComplete]
  simp only [hf, hg]
  rw [if_pos hst, hst]

end
end

/-! ## The admission of a job -/

section
variable {q : Fin 256} {s s0 : State} {k : SqCmd} (hn : s.nextCmd q = some k) (he : k.echoed = true) (hv : wf k.words 0 63 56 = 0x30)
  (hs0 : s0 = s.markDispatched q k.seq)
include hn he hv hs0

theorem exec_jobAdmission_of_next :
    exec (.jobAdmission q) s = .next (((if s0.jobCheck k.ctx k.words = St.topoShort then s0.storeWords (JobCmd.result k.words) (s0.shortBlock k.words)
      else if s0.jobCheck k.ctx k.words = St.ok then s0.withNet { s0.net with jobs := KMap.set none s0.net.jobs k.ctx (some (JobCmd.job k.words)) }
      else s0).finCmd q k.seq (s0.jobCheck k.ctx k.words) 0).pump q) := by
  subst hs0
  rw [exec_jobAdmission, execJobAdmission]
  simp only [hn, he, hv, ne_eq, not_true_eq_false, decide_false, Bool.not_true, Bool.or_self, Bool.false_eq_true, if_false]

end

/-- Settles O49: one rule for each outcome of a row. -/
theorem collectivesAndJobs : Obligations.CollectivesAndJobs := by
  unfold Obligations.CollectivesAndJobs
  refine ⟨⟨fun d hits s m k g hm hf hg => ?_, fun d hits s m s1 hm ho hi hs1 => ?_, fun d hits s s1 ws g ht hg =>
      ⟨exec_chunkRecv_duplicate ht hg, fun s2 => exec_chunkRecv_kept ht hg⟩, fun d hits s s1 ws => exec_chunkRecv_nogroup,
      fun d s s1 s2 ws g => exec_collCreditRecv_of_later, fun d s k => exec_collComplete_failed, fun d s k g => exec_collComplete_ok⟩,
    fun q s s0 k hn he hv hs0 => ⟨fun hst => ?_, fun hst => ?_, fun hok hshort => ?_⟩⟩
  · subst hm
    exact ⟨exec_collStart_failed hf hg, fun s1 s2 hchk => exec_collStart_of_checked hf hg hchk⟩
  · subst hm
    exact exec_collChunkSend_of_sent ho hi hs1
  · have hns : St.ok ≠ St.topoShort := by decide
    rw [exec_jobAdmission_of_next hn he hv hs0, hst, if_neg hns, if_pos rfl]
  · rw [exec_jobAdmission_of_next hn he hv hs0, hst, if_pos rfl]
  · rw [exec_jobAdmission_of_next hn he hv hs0, if_neg hshort, if_neg hok]

end Sys2Proof.Machine
end

section
/-! # The ledger, the survival store, power and droop

Chapters 15 and 16: sealing and the ledger's registers (R430 to R444), the banks of the survival store (R445 to R451), and
power estimates, limits, the TJ cap and droop warnings (R38 to R42, R454 to R466). -/

namespace Sys2Proof.Machine

@[simp] theorem State.setFld_sst (s : State) (p v : Nat) (f : Fld) : (s.setFld p f v).sst = s.sst := rfl

@[simp] theorem State.setFld_pwr (s : State) (p v : Nat) (f : Fld) : (s.setFld p f v).pwr = s.pwr := rfl

@[simp] theorem State.setFld_mem (s : State) (p v : Nat) (f : Fld) : (s.setFld p f v).mem = s.mem := rfl

/-! ## Sealing -/

section
variable {c : ClusterNo} {rd rs1 rs2 : Gpr} {s : State} (hr : s.coreRuns (stewardOf c) = true) (ha : s.aborting (s.coreCtx (stewardOf c)) = false)
include hr ha

theorem exec_lseal_of_room (hlen : s.ldg.seals.length < 64) :
    ∃ t x, exec (.lseal c rd rs1 rs2) s = .next t ∧ t.ldg.seals = s.ldg.seals ++ [x] ∧ x.num = s.ldg.next ∧ x.ctx = s.coreCtx (stewardOf c) ∧ x.applied = false ∧
      x.addr = (s.g (stewardOf c) rs1).toNat % 2 ^ 48 ∧ t.ldg.next = s.ldg.next + 1 ∧ t.g (stewardOf c) rd = if rd.val = 0 then 0 else BitVec.ofNat 64 St.ok := by
  rw [exec_lseal, execLseal, hr, State.newWork_of_notAborting ha, if_neg (Nat.not_le.mpr hlen), Bool.not_true, if_neg Bool.false_ne_true]
  refine ⟨_, _, rfl, by rw [State.withLdg_ldg], rfl, rfl, rfl, rfl, by rw [State.withLdg_ldg], ?_⟩
  exact State.g_ret s (stewardOf c) rd (BitVec.ofNat 64 St.ok)

theorem exec_lseal_of_full (hlen : 64 ≤ s.ldg.seals.length) :
    exec (.lseal c rd rs1 rs2) s = .next (s.retSt (stewardOf c) rd St.queueFull) := by
  rw [exec_lseal, execLseal, hr, State.newWork_of_notAborting ha, if_pos hlen, Bool.not_true, if_neg Bool.false_ne_true]

end

/-- The oldest request not applied yet is applied, and none is ready to end (R432). -/
theorem exec_sealDone_applied {s : State} {x : Seal} (hx : (s.ldg.seals.find? fun x => !x.applied) = some x)
    (hnone : ((s.applySeal x).ldg.seals.find? fun y => ((s.applySeal x).sealStatus y).isSome &&
      (((s.applySeal x).ldg.seals.takeWhile fun z => decide (z.num ≠ y.num)).all fun z => decide (z.ctx ≠ y.ctx ∨ wd z.block 2 = 0))) = none) :
    exec .sealDone s = .next (s.applySeal x) := by
  rw [exec_sealDone, execSealDone]
  simp only [hx]
  rw [hnone]

/-- A request without a mirror write whose status is OK ends with the status of its action (R433). -/
theorem exec_sealDone_ended {s s3 s5 : State} {x : Seal} {st : Nat} (hnone : (s.ldg.seals.find? fun x => !x.applied) = none)
    (hx : (s.ldg.seals.find? fun y => (s.sealStatus y).isSome &&
      ((s.ldg.seals.takeWhile fun z => decide (z.num ≠ y.num)).all fun z => decide (z.ctx ≠ y.ctx ∨ wd z.block 2 = 0))) = some x)
    (hput : x.put = none) (hst : s.sealStatus x = some St.ok)
    (hs3 : s3 = (s.withNet { s.net with ops := s.net.ops.filter fun o => decide (some o.num ≠ x.put) }).withLdg
      { s.ldg with seals := s.ldg.seals.filter fun y => decide (y.num ≠ x.num) })
    (hact : s3.act x.ctx (376 + 2 * s3.hub) (wd x.block 2) (wd x.block 3) = (st, s5)) :
    exec .sealDone s = .next (s5.portRecord s5.hub x.ctx (wf x.block 0 47 0) st (wf (s5.loadWords x.addr 1) 0 31 0) 0) := by
  rw [exec_sealDone, execSealDone]
  simp only [hnone]
  rw [hx]
  simp only [hput, hst, Option.getD_some, Option.isSome_none, Bool.false_and, Bool.false_eq_true, if_false, if_true] at hs3 ⊢
  rw [← hs3, hact]

theorem exec_gstepWrite_reg {c : ClusterNo} {rs1 : Gpr} {s : State} (hr : s.coreRuns (stewardOf c) = true) :
    ∃ t, exec (.gstepWrite c rs1) s = .next t ∧ t.reg (genStepKey c) = s.g (stewardOf c) rs1 := by
  rw [exec_gstepWrite, execGstepWrite]
  simp only [hr, if_true]
  obtain ⟨cores, hpc⟩ := State.nextPc_eq (s.setReg (genStepKey c) (s.g (stewardOf c) rs1)) (stewardOf c)
  exact ⟨_, rfl, by rw [hpc, State.reg_withCores, State.reg_setReg_same]⟩

theorem exec_ldgCkWrite_of_nonzero {obs : Bool} {data : W64} {s : State} (h : Bits.get data 31 24 ≠ 0) :
    exec (.ldgCkWrite obs data) s = .next ((s.setReg (ldgPg s.lsel + (if obs then 0x148 else 0x130)) data).ckShow s.lsel) := by
  rw [exec_ldgCkWrite, execLdgCkWrite]
  simp only [h, decide_false, Bool.and_false, Bool.false_eq_true, if_false]

/-! ## The survival store -/

theorem exec_sstRecordWrite_of_room {s s1 : State} {r : SstRec} {rest : List SstRec} (hw : s.sst.wait = r :: rest) (hfull : s.bankFull = false)
    (hs1 : s1 = (s.onDevs fun f => f.setBank s.activeBank (f.bank s.activeBank ++ [r])).addFld Pg.sst F.sstUsedWritten r.size) :
    ∃ t, exec .sstRecordWrite s = .next t ∧ t.sst.wait = rest ∧ t.sst.a = s1.sst.a ∧ t.sst.b = s1.sst.b ∧ t.regs = s1.regs := by
  subst hs1
  rw [exec_sstRecordWrite, execSstRecordWrite]
  simp only [hw, hfull, Bool.false_eq_true, if_false]
  exact ⟨_, rfl, by rw [State.withSst_sst], by rw [State.withSst_sst], by rw [State.withSst_sst], by rw [State.withSst_regs]⟩

theorem exec_sstBankErase_of_erasing {s : State} (h : s.sst.erasing = true) :
    ∃ t, exec .sstBankErase s = .next t ∧ t.sst.erased = true ∧ t.sst.erasing = false ∧ t.sst.wait = s.sst.wait := by
  rw [exec_sstBankErase, execSstBankErase, h, Bool.not_true, if_neg Bool.false_ne_true]
  exact ⟨_, rfl, by rw [State.withSst_sst], by rw [State.withSst_sst], by rw [State.withSst_sst, State.onDevs, State.withSst_sst]⟩

theorem State.fld_withSst (s : State) (x : Sst) (p : Nat) (f : Fld) : (s.withSst x).fld p f = s.fld p f := rfl

/-- The bank that a compaction made active. -/
theorem State.activeBank_compacted (s : State) (b n : Nat) :
    (((s.setFld Pg.sst F.sstStatActive b).wrapFld Pg.sst F.sstStatCompacts 1).setFld Pg.sst F.sstUsedWritten n).fld Pg.sst F.sstStatActive = b % 2 := by
  rw [State.fld_setFld_of_off_ne _ _ _ (by decide), State.wrapFld, State.fld_setFld_other _ _ (by decide),
    State.fld_setFld_same _ _ _ _ (by decide) (by decide)]
  rfl

theorem exec_sstCompact_of_full {s : State} (hfull : s.bankFull = true) (he : s.sst.erased = true) :
    ∃ t, exec .sstCompact s = .next t ∧ t.sst.erased = false ∧ t.sst.wait = s.sst.wait ∧ t.fld Pg.sst F.sstStatActive = (1 - s.activeBank) % 2 := by
  rw [exec_sstCompact, execSstCompact, hfull, he, Bool.and_self, Bool.not_true, if_neg Bool.false_ne_true]
  refine ⟨_, rfl, by rw [State.withSst_sst], ?_, ?_⟩
  · rw [State.withSst_sst]
    simp only [State.wrapFld, State.setFld_sst, State.onDevs, State.withSst_sst]
  · rw [State.fld_withSst]
    exact State.activeBank_compacted _ _ _

/-- Settles O50: one rule for each outcome of a row. -/
theorem ledgerAndStore : Obligations.LedgerAndStore := by
  unfold Obligations.LedgerAndStore
  refine ⟨⟨fun c rd rs1 rs2 s => exec_lseal_of_room, fun c rd rs1 rs2 s => exec_lseal_of_full, fun s x => exec_sealDone_applied,
      fun s s3 s5 x st => exec_sealDone_ended, fun c rs1 s => exec_gstepWrite_reg, fun data s => ?_, fun obs data s => exec_ldgCkWrite_of_nonzero,
      fun ctx s => ?_⟩, fun s s1 r rest => exec_sstRecordWrite_of_room, fun s => exec_sstBankErase_of_erasing, fun s => exec_sstCompact_of_full,
    fun data s => ?_, fun s => ?_⟩
  · rw [exec_ldgGeomWrite, execLdgGeomWrite]
  · rw [exec_ckRecompute, execCkRecompute]
  · rw [exec_sstRselWrite, execSstRselWrite]
    exact ⟨_, rfl, by rw [State.withSst_sst]⟩
  · rw [exec_sstRdataRead, execSstRdataRead]
    exact ⟨_, rfl, rfl, by rw [State.withSst_sst]⟩

/-! ## Power -/

/-- An episode of limited power counts its ticks beside the estimates. -/
theorem State.episode_ests (s : State) (old new : Nat) : (s.episode old new).pwr.ests = s.pwr.ests := by
  unfold State.episode
  by_cases hold : 32 ≤ old
  · rw [if_pos hold]
  · rw [if_neg hold]
    dsimp only
    split
    · rw [State.withPwr_pwr, State.addFld, State.setFld_pwr]
    · have keep (t : State) (ctx unit d0 : Nat) (d1 : W64) :
          (((t.addFld Pg.pwr F.pwrCaplogEpisodes 1).setErr Pg.pwr F.pwrErrStatLimited 0).event t.hub Ev.pwrLimit ctx unit d0 d1).pwr = t.pwr := by
        have hk : Keeps 33554800 t _ := State.event_keeps (d := t.hub) (code := Ev.pwrLimit) (ctx := ctx) (unit := unit) (d0 := d0) (d1 := d1) (.of rfl)
          (State.setErr_keeps (page := Pg.pwr) (f := F.pwrErrStatLimited) (ctx := 0) (.of rfl)
            (State.addFld_keeps (page := Pg.pwr) (f := F.pwrCaplogEpisodes) (n := 1) (.of rfl) (keeps_refl 33554800 t)))
        exact hk .pwr rfl
      rw [keep, State.withPwr_pwr, State.addFld, State.setFld_pwr]

theorem exec_pwrTick_ests {counts : List Nat} {s : State} (hp : s.plat.pwrOk = true) :
    ∃ t, exec (.pwrTick counts) s = .next t ∧ t.pwr.ests = (s.estimate counts :: s.pwr.ests).take 625000 := by
  rw [exec_pwrTick, execPwrTick, hp, Bool.not_true, if_neg Bool.false_ne_true]
  refine ⟨_, rfl, ?_⟩
  rw [State.episode_ests]
  simp only [State.setFld_pwr, State.withPwr_pwr]

theorem exec_bmBmlimWrite_of_change {v : W16} {s : State} (hh : s.hubUp = true)
    (hne : (if v = 0 then 0 else clampNat 1000 2000 v.toNat) ≠ s.fld Pg.pwr F.pwrBmlimLimit) :
    exec (.bmBmlimWrite v) s = .next (((s.setFld Pg.pwr F.pwrBmlimLimit (if v = 0 then 0 else clampNat 1000 2000 v.toNat)).setErr Pg.pwr F.pwrErrStatBmLimit 0).event
      s.hub Ev.bmLimit 0 (unitOf Pg.pwr) (if v = 0 then 0 else clampNat 1000 2000 v.toNat) (BitVec.ofNat 64 (s.fld Pg.pwr F.pwrBmlimLimit))) := by
  rw [exec_bmBmlimWrite, execBmBmlimWrite, hh, Bool.not_true, if_neg Bool.false_ne_true]
  exact if_neg hne

section
variable {d : Die} {k : Fin 35} {temp : W16} {s : State} (hp : s.plat.pwrOk = true)
include hp

theorem exec_tjcapStep_still_hot (ht : (BitVec.ofNat 16 (s.fld Pg.pwr F.pwrTjThr)).toInt ≤ temp.toInt) (hot : s.pwr.hot = true) :
    exec (.tjcapStep true d k temp) s = .next ((s.islTemp d k temp).setFld Pg.pwr F.pwrStatTjcap (max 1 (s.fld Pg.pwr F.pwrStatTjcap - 1))) := by
  rw [exec_tjcapStep, execTjcapStep, hp, Bool.not_true, if_neg Bool.false_ne_true, if_pos rfl]
  dsimp only
  rw [if_neg (Int.not_lt.mpr ht), if_pos hot]

theorem exec_tjcapStep_cool (ht : temp.toInt < (BitVec.ofNat 16 (s.fld Pg.pwr F.pwrTjThr)).toInt) :
    ∃ t, exec (.tjcapStep false d k temp) s = .next t ∧ t.pwr.hot = false := by
  rw [exec_tjcapStep, execTjcapStep, hp, Bool.not_true, if_neg Bool.false_ne_true, if_neg Bool.false_ne_true]
  dsimp only
  rw [if_neg (Int.not_le.mpr ht)]
  split
  · exact ⟨_, rfl, by rw [State.setFld_pwr, State.withPwr_pwr]⟩
  · exact ⟨_, rfl, by rw [State.withPwr_pwr]⟩

end

/-! ## Droop -/

theorem State.warn_setWarn (s : State) (d k : Nat) (w : Option Warn) : (s.setWarn d k w).warn d k = w := by
  simp only [State.warn, State.setWarn, State.setReg_plat, State.withPlat_plat, KMap.get_set_same]

theorem State.warn_congr {s t : State} (h : t.plat = s.plat) (d k : Nat) : t.warn d k = s.warn d k := by
  rw [State.warn, State.warn, h]

theorem State.capDroop_plat (s : State) (d : Nat) : (s.capDroop d).plat = s.plat :=
  (State.capDroop_keeps (d := d) (.of rfl) (keeps_refl 16 s) : Keeps 16 s (s.capDroop d)) .plat rfl

section
variable {d : Die} {k : Fin 35} {mv : W16} {s : State} (hd : s.dieUp d = true) (hlow : 660 ≤ mv.toNat) (hhigh : mv.toNat < 713)
include hd hlow hhigh

theorem exec_droopWarnAssert_first (hw : s.warn d k = none) :
    ∃ t, exec (.droopWarnAssert d k mv) s = .next t ∧ t.warn d k = some ⟨s.now d, mv.toNat, s.now d⟩ := by
  rw [exec_droopWarnAssert, execDroopWarnAssert, hd, decide_eq_false (by omega), Bool.not_true, Bool.or_self, if_neg Bool.false_ne_true, hw]
  refine ⟨_, rfl, ?_⟩
  rw [State.warn_congr (State.capDroop_plat _ _), State.addFld, State.warn_congr (State.setFld_plat ..), State.warn_setWarn]

theorem exec_droopWarnAssert_again {w : Warn} (hw : s.warn d k = some w) :
    ∃ t, exec (.droopWarnAssert d k mv) s = .next t ∧ t.warn d k = some { w with low := min w.low mv.toNat } := by
  rw [exec_droopWarnAssert, execDroopWarnAssert, hd, decide_eq_false (by omega), Bool.not_true, Bool.or_self, if_neg Bool.false_ne_true, hw]
  exact ⟨_, rfl, State.warn_setWarn ..⟩

end

/-- Settles O51: one rule for each outcome of a row. -/
theorem powerCommands : Obligations.PowerCommands := by
  unfold Obligations.PowerCommands
  refine ⟨fun counts s => exec_pwrTick_ests, fun v s => exec_bmBmlimWrite_of_change, fun s => ?_, fun d k temp s => exec_tjcapStep_still_hot,
    fun d k temp s => exec_tjcapStep_cool, fun d k mv s hd hlow hhigh => ⟨exec_droopWarnAssert_first hd hlow hhigh, fun w => exec_droopWarnAssert_again hd hlow hhigh⟩,
    fun d k mv s hlow => ?_, fun d k s hd hk => ?_, fun d s => ?_, fun d k s => ?_, fun e s => ?_, fun e s => ?_⟩
  · rw [exec_pwrCaplogRead]
    exact ⟨_, rfl, State.readClear_all ..⟩
  · rw [exec_droopWarnEnd]
    exact if_neg (Nat.not_lt.mpr hlow)
  · rw [exec_droopReset, execDroopReset, hd, Bool.not_true, if_neg Bool.false_ne_true]
    simp only [if_pos hk, BitVec.ofNat_eq_ofNat]
  · rw [exec_drpCntRead]
    exact ⟨_, rfl, State.readClear_all ..⟩
  · rw [exec_islStretchRead]
    exact ⟨_, rfl, State.readClear_all ..⟩
  · rw [exec_issueCapWindow, execIssueCapWindow]
    exact ⟨_, rfl, State.fld_setFld_same _ _ _ _ (by decide) (by decide), State.setFld_mem ..⟩
  · rw [exec_strikeWindowExpire, execStrikeWindowExpire]

end Sys2Proof.Machine
end

section
/-! # The host link

Chapter 13: the frames of the host link (R366 to R372, R380, R386) and its lane sets (R365 to R367). -/

namespace Sys2Proof.Machine

/-! ## Frames -/

theorem State.dropFrame_of_active {s : State} {b : Bool} (h : s.lane b = Hl.active) :
    s.dropFrame b = s.setHost { s.host with rqOk := false, tag := 0, fast := [] } := if_pos h

theorem State.dropFrame_of_standby {s : State} {b : Bool} (h : s.lane b = Hl.standby) : s.dropFrame b = s :=
  if_neg (by rw [h]; decide)

section
variable {b : Bool} {words : List W64} {s : State}

theorem exec_hostFrameRecv_valid (hl : s.lane b = Hl.active) (hok : Fr.ok words = true) (hv : Fr.hver words = 3) :
    exec (.hostFrameRecv b words) s = .next ((Bits.setBits 24 (Fr.map words)).foldl (fun s i => s.takeItem words i)
      ((s.setHost { s.host with tag := Fr.tag words, rqOk := true, fast := [] }).takeCcons (Fr.ccons words))) := by
  rw [exec_hostFrameRecv, execHostFrameRecv, if_neg (fun h => h.1 hl), hok, Bool.not_true, if_neg Bool.false_ne_true, if_neg (not_not_intro hv)]
  exact if_neg (by rw [hl]; decide)

/-- A standby lane set hears frames of any version and takes none (R366). -/
theorem exec_hostFrameRecv_standby (hl : s.lane b = Hl.standby) (hok : Fr.ok words = true) : exec (.hostFrameRecv b words) s = .next s := by
  rw [exec_hostFrameRecv, execHostFrameRecv, if_neg (fun h => h.2 hl), hok, Bool.not_true, if_neg Bool.false_ne_true, if_pos hl,
    State.dropFrame_of_standby hl]
  exact ite_self _

theorem exec_hostFrameRecv_version (hl : s.lane b = Hl.active) (hok : Fr.ok words = true) (hv : Fr.hver words ≠ 3) :
    exec (.hostFrameRecv b words) s = .next (s.dropFrame b) := by
  rw [exec_hostFrameRecv, execHostFrameRecv, if_neg (fun h => h.1 hl), hok, Bool.not_true, if_neg Bool.false_ne_true, if_pos hv]

theorem exec_hostFrameRecv_invalid (hl : s.lane b = Hl.active) (hok : Fr.ok words = false) :
    exec (.hostFrameRecv b words) s = .next (s.badFrame b) := by
  rw [exec_hostFrameRecv, execHostFrameRecv, if_neg (fun h => h.1 hl), hok, Bool.not_false, if_pos rfl]

end

theorem exec_hostReplyFrame_of_active {s s1 : State} (hs1 : s1 = s.sendIdle) (ha : s1.anyActive = true) :
    ∃ t, exec .hostReplyFrame s = .next t ∧ t.host.reply = s1.replyBody.set 7 (BitVec.ofNat 64 (Fr.crc s1.replyBody * 2 ^ 32)) ∧
      t.host.fast = [] ∧ t.host.rqOk = false := by
  subst hs1
  rw [exec_hostReplyFrame, execHostReplyFrame, ha, Bool.not_true, if_neg Bool.false_ne_true]
  exact ⟨_, rfl, by rw [State.setHost, State.withHost_host, sealFrame], by rw [State.setHost, State.withHost_host],
    by rw [State.setHost, State.withHost_host]⟩

/-- While both mirrors of the dump are in service the oldest command is echoed and its queue goes on (R372). -/
theorem exec_submitEcho_of_mirrored {s s1 : State} {q : Nat} {seq : W64} {rest : List (Nat × W64)} (hf : s.host.fresh = (q, seq) :: rest)
    (hlen : s.host.mirrors.length = 2) (hup : s.host.mirrors.all s.unitUp = true)
    (hs1 : s1 = s.setSqCmds q ((s.sqCmds q).map fun k => if k.seq = seq then { k with echoed := true } else k)) :
    exec .submitEcho s = .next (((s1.setHost
      { s1.host with fresh := rest, echoes := s1.host.echoes ++ [(q, seq)], mirrors := s.host.mirrors, mirrorLost := false }).refuseAborting q seq).pump q) := by
  subst hs1
  rw [exec_submitEcho, execSubmitEcho]
  simp only [hf, hlen, hup, and_self, if_true, Nat.lt_irrefl, if_false]

theorem exec_regDeferredResult_of_known {s : State} {o : RegOp} {r : RegRes} {rest : List (RegOp × Option RegRes)}
    (h : takeDeferred (fun x => x.2.isSome || (s.regEffect x.1).isSome) s.host.deferred = some ((o, some r), rest)) :
    ∃ t, exec .regDeferredResult s = .next t ∧ t.host.deferred = rest ∧ t.host.results = s.host.results ++ [r] := by
  rw [exec_regDeferredResult, execRegDeferredResult, h]
  exact ⟨_, rfl, by rw [State.setHost, State.withHost_host], by rw [State.setHost, State.withHost_host]⟩

theorem exec_regOpTimeout_of_waiting {s : State} {o : RegOp} {x : Option RegRes} {rest : List (RegOp × Option RegRes)}
    (h : takeDeferred (fun x => x.2.isNone) s.host.deferred = some ((o, x), rest)) :
    exec .regOpTimeout s =
      .next ((s.setHost { s.host with deferred := rest, results := s.host.results ++ [o.res St.regTimeout 0] }).keep (o.res St.regTimeout 0)) := by
  rw [exec_regOpTimeout, execRegOpTimeout, h]

/-- The open choice among the queues that owe a record falls on one of them. -/
theorem getD_eraseDups_mem {l : List Nat} (n : Nat) (h : l ≠ []) : l.eraseDups.getD (n % l.eraseDups.length) 0 ∈ l := by
  obtain ⟨a, ha⟩ := List.exists_mem_of_ne_nil l h
  have hlt : n % l.eraseDups.length < l.eraseDups.length := Nat.mod_lt _ (List.length_pos_of_mem (List.mem_eraseDups.mpr ha))
  rw [List.getD_eq_getElem _ _ hlt]
  exact List.mem_eraseDups.mp (List.getElem_mem hlt)

theorem exec_complRecordSend_of_due {s : State} (ha : s.anyActive = true) (hc : s.ringCredit = true) (hd : s.recordDue ≠ []) :
    ∃ q ∈ s.recordDue, exec .complRecordSend s = .next (s.draw.2.sendNext q) := by
  refine ⟨_, getD_eraseDups_mem s.draw.1.toNat hd, ?_⟩
  obtain ⟨a, hmem⟩ := List.exists_mem_of_ne_nil _ hd
  have hne : s.recordDue.eraseDups.isEmpty = false :=
    List.isEmpty_eq_false_iff.mpr (List.ne_nil_of_mem (List.mem_eraseDups.mpr hmem))
  rw [exec_complRecordSend, execComplRecordSend]
  simp only [ha, hc, hne, Bool.not_true, Bool.or_self, Bool.false_eq_true, if_false]

/-! ## Lane sets -/

section
variable {b : Bool} {s : State}

theorem exec_hlTrainFail_of_training {nv : Bool} (hl : s.lane b = Hl.train) (hh : s.tap.hold = false) (hd : s.dieUp (laneDie b) = true) :
    exec (.hlTrainFail b nv) s = .next (s.laneTrainFail b nv) := by
  rw [exec_hlTrainFail]
  exact if_pos ⟨hl, hh, hd⟩

/-- Training that offers version 3: the lane set waits beside an active one, or behind lane set A at boot (R365). -/
theorem exec_hlTrainDone_of_version {v : Byte} {s1 : State} (hl : s.lane b = Hl.train) (hh : s.tap.hold = false) (hd : s.dieUp (laneDie b) = true)
    (hv : v.getLsbD 3 = true) (hs1 : s1 = ((s.endTick b).setFld Pg.hlk F.hlkStatVersion 3).withPlat { s.plat with coldRstN := true }) :
    exec (.hlTrainDone b v) s = .next (((if s.anyActive || (b && decide (s.phase = Ph.boot ∧ s.lane false = Hl.train)) then s1.setLane b Hl.standby
      else s1.activate b).bootWait).noteDir s) := by
  have hno : ¬ (s.lane b ≠ Hl.train ∨ s.tap.hold ∨ s.dieUp (laneDie b) = false) := by rw [hl, hh, hd]; decide
  subst hs1
  rw [exec_hlTrainDone, execHlTrainDone, if_neg hno, hv, Bool.not_true, if_neg Bool.false_ne_true]

theorem exec_hlRetrainTick_of_idle (ha : s.anyActive = false) (hp : s.plat.pwrOk = true) :
    exec .hlRetrainTick s = .next ([false, true].foldl (fun s b =>
      if s.lane b = Hl.down && s.dieUp (laneDie b) then (s.setLane b Hl.train).withHost { s.host with ticks := b :: s.host.ticks } else s) s) := by
  rw [exec_hlRetrainTick, execHlRetrainTick, ha, hp]
  rfl

theorem exec_hlkSwap_to_b (ha : s.lane false = Hl.active) (hb : s.lane true = Hl.standby) :
    exec .hlkSwap s = .next (((s.setLane false Hl.standby).activate true).noteDir s) := by
  rw [exec_hlkSwap]
  exact if_pos ⟨ha, hb⟩

theorem exec_hlkSwap_to_a (hb : s.lane true = Hl.active) (ha : s.lane false = Hl.standby) :
    exec .hlkSwap s = .next (((s.setLane true Hl.standby).activate false).noteDir s) := by
  rw [exec_hlkSwap, execHlkSwap]
  simp only [ha, hb, (by decide : ¬ Hl.standby = Hl.active), false_and, if_false, and_self, if_true, Bool.not_true]

theorem exec_hlkRetrain_of_down (hd : s.dieUp (laneDie b) = true) (hl : s.lane b = Hl.down) :
    exec (.hlkRetrain b) s = .next (s.setLane b Hl.train) := by
  rw [exec_hlkRetrain, execHlkRetrain, hd, Bool.not_true, if_neg Bool.false_ne_true, if_neg (by rw [hl]; decide), if_pos hl]

theorem exec_hlkRetrain_of_fenced (hd : s.dieUp (laneDie b) = true) (hl : s.lane b = Hl.fenced) :
    exec (.hlkRetrain b) s = .next (((s.setBitF Pg.hlk (laneFence b) false).liftFence (laneKey b)).setLane b Hl.train) := by
  rw [exec_hlkRetrain, execHlkRetrain, hd, Bool.not_true, if_neg Bool.false_ne_true, if_pos hl]

end

/-- Settles O52: one rule for each outcome of a row. -/
theorem hostLinkCommands : Obligations.HostLinkCommands := by
  unfold Obligations.HostLinkCommands
  refine ⟨⟨fun b words s => exec_hostFrameRecv_valid, fun b words s => exec_hostFrameRecv_standby, fun b words s => exec_hostFrameRecv_version,
      fun b words s => exec_hostFrameRecv_invalid, fun s s1 => exec_hostReplyFrame_of_active, fun s s1 q seq rest => exec_submitEcho_of_mirrored,
      fun s o r rest => exec_regDeferredResult_of_known, fun s o x rest => exec_regOpTimeout_of_waiting, fun s => exec_complRecordSend_of_due⟩,
    fun b s => ?_, fun b nv s => exec_hlTrainFail_of_training, fun b v s s1 hl hh hd hv hs1 => ⟨fun ha => ?_, fun ha hboot => ?_⟩,
    fun s => exec_hlRetrainTick_of_idle, fun s => exec_hlkSwap_to_b, fun s => exec_hlkSwap_to_a, fun b s => exec_hlkRetrain_of_down,
    fun b s hd hl => ⟨exec_hlkRetrain_of_fenced hd hl, ?_⟩, fun b s hl => ?_⟩
  · rw [exec_hlFrameGapTimeout, execHlFrameGapTimeout]
  · rw [exec_hlTrainDone_of_version hl hh hd hv hs1, ha, Bool.true_or, if_pos rfl]
  · rw [exec_hlTrainDone_of_version hl hh hd hv hs1, ha, hboot, Bool.or_self, if_neg Bool.false_ne_true]
  · rw [exec_hlkFence]
    exact if_pos hl
  · rw [exec_hlkFence]
    exact if_neg hl

end Sys2Proof.Machine
end

section
/-! # Boot, images, fuses, attestation and test ports

Chapter 17: boot and images (R469 to R479), fuses and attestation (R480 to R486), test mode and the JTAG ports (R487 to
R491). -/

namespace Sys2Proof.Machine

@[simp] theorem State.setFld_boot (s : State) (p v : Nat) (f : Fld) : (s.setFld p f v).boot = s.boot := rfl

theorem State.event_boot (s : State) (d code ctx unit d0 : Nat) (d1 : W64) : (s.event d code ctx unit d0 d1).boot = s.boot :=
  (State.event_keeps (.of rfl) (keeps_refl 33554800 s) : Keeps 33554800 s (s.event d code ctx unit d0 d1)) .boot rfl

theorem State.setErr_boot (s : State) (p : Nat) (f : Fld) (c : Nat) : (s.setErr p f c).boot = s.boot :=
  (State.setErr_keeps (.of rfl) (keeps_refl 48 s) : Keeps 48 s (s.setErr p f c)) .boot rfl

/-! ## Boot and images -/

theorem State.phase_setPhase (s : State) {p : Nat} (hp : p < 16) : (s.setPhase p).phase = p :=
  State.fld_setFld_state (by decide) (by decide) hp

theorem exec_bootLoadBegin_empties (s : State) : ∃ t, exec .bootLoadBegin s = .next t ∧ t.boot.load = [] ∧ t.reg (Pg.boot + 0x110) = 0 := by
  rw [exec_bootLoadBegin, execBootLoadBegin]
  exact ⟨_, rfl, by rw [State.setReg_boot, State.withBoot_boot], State.reg_setReg_same ..⟩

theorem exec_bootLoaddata_appends (data : W64) (s : State) : ∃ t, exec (.bootLoaddata data) s = .next t ∧ t.boot.load = s.boot.load ++ [data] := by
  rw [exec_bootLoaddata, execBootLoaddata]
  exact ⟨_, rfl, by rw [State.wrapFld, State.setFld_boot, State.withBoot_boot]⟩

theorem exec_bootLoadEnd_waiting {s : State} (h : s.phase = Ph.waitImage) :
    ∃ t, exec .bootLoadEnd s = .next t ∧ t.boot.check = some s.boot.load ∧ t.phase = Ph.verify := by
  rw [exec_bootLoadEnd, execBootLoadEnd]
  exact ⟨_, if_pos h, by rw [State.setPhase, State.setFld_boot, State.withBoot_boot], State.phase_setPhase _ (by decide)⟩

theorem exec_bootLoadEnd_running {s : State} (h : s.phase = Ph.ready) :
    ∃ t, exec .bootLoadEnd s = .next t ∧ t.boot.check = some s.boot.load ∧ t.regs = s.regs := by
  have hw : ¬ s.phase = Ph.waitImage := by rw [h]; decide
  rw [exec_bootLoadEnd, execBootLoadEnd, if_neg hw, if_pos h]
  exact ⟨_, rfl, by rw [State.withBoot_boot], by rw [State.withBoot_regs]⟩

section
variable {s : State} {ws : List W64} (hc : s.boot.check = some ws) (hp : s.phase = Ph.verify)
include hc hp

theorem exec_imageVerifyDone_good (hr : imageResult s.boot.svn s.boot.vkrev ws = 1) :
    ∃ t, exec .imageVerifyDone s = .next t ∧ t.boot.kept0 = ws ∧ t.boot.kept1 = ws := by
  rw [exec_imageVerifyDone, execImageVerifyDone, hc]
  simp only [hp, hr, if_true]
  exact ⟨_, rfl, by rw [State.withBoot_boot], by rw [State.withBoot_boot]⟩

theorem exec_imageVerifyDone_bad {s0 : State} (hs0 : s0 = s.withBoot { s.boot with check := none }) (hr : imageResult s.boot.svn s.boot.vkrev ws ≠ 1) :
    exec .imageVerifyDone s = .next ((s0.authFail ws (imageResult s.boot.svn s.boot.vkrev ws)).setPhase Ph.waitImage) := by
  subst hs0
  rw [exec_imageVerifyDone, execImageVerifyDone, hc]
  simp only [hp, if_true]
  exact if_neg hr

end

theorem exec_phaseReady_of_recovered {s : State} (hp : s.plat.pwrOk = true) (hf : s.phase = Ph.firmware) (hr : s.fld Pg.rcv F.rcvStatPhase = 1)
    (hj : (s.rcv.resets.any fun j => decide (4 ≤ j.dom)) = false) :
    exec .phaseReady s =
      .next (((((((((s.dropFenced).showMemFences).showHistory).liftLanes).loadDump).loadWmark).loadLeaf).loadOos).loadIdentity.enterRun.noteDir s) := by
  rw [exec_phaseReady, execPhaseReady, hp, hj, decide_eq_false (not_not_intro hf), decide_eq_false (not_not_intro hr), Bool.not_true, Bool.or_self,
    Bool.or_self, Bool.or_self, if_neg Bool.false_ne_true]

/-! ## Fuses -/

theorem State.startBurn_started {s : State} {op x : Nat} {ok : Bool} (hok : ok = true) (hf : s.boot.fuseOp = none) :
    s.startBurn op x ok = s.withBoot { s.boot with fuseOp := some (op, x) } := by
  rw [State.startBurn, hok, hf]
  rfl

theorem State.startBurn_refused {s : State} {op x : Nat} {ok : Bool} (hok : ok = false) : s.startBurn op x ok = s.setErr Pg.sec F.secErrStatBadSeq 0 := by
  rw [State.startBurn, hok, Bool.false_and, if_neg Bool.false_ne_true]

theorem exec_fuseRaiseSvn_of_allowed {x : Byte} {s : State} (h1 : s.boot.svn < x.toNat) (h2 : x.toNat ≤ s.runSvn) (hf : s.boot.fuseOp = none) :
    ∃ t, exec (.fuseRaiseSvn x) s = .next t ∧ t.boot.fuseOp = some (1, x.toNat) ∧ t.boot.svn = s.boot.svn := by
  rw [exec_fuseRaiseSvn, execFuseRaiseSvn, State.startBurn_started (decide_eq_true ⟨h1, h2⟩) hf]
  exact ⟨_, rfl, by rw [State.withBoot_boot], by rw [State.withBoot_boot]⟩

theorem exec_fuseRaiseSvn_of_later {x : Byte} {s : State} (h : s.runSvn < x.toNat) :
    exec (.fuseRaiseSvn x) s = .next (s.setErr Pg.sec F.secErrStatBadSeq 0) := by
  rw [exec_fuseRaiseSvn, execFuseRaiseSvn, State.startBurn_refused (decide_eq_false fun hx => Nat.not_le.mpr h hx.2)]

theorem exec_fuseRevoke_of_allowed {x : Byte} {s : State} (hx : x.toNat ≤ 1) (hrun : s.boot.running ≠ []) (hslot : s.runSlot = 1 - x.toNat)
    (hkey : s.boot.vkrev.getLsbD (1 - x.toNat) = false) (hf : s.boot.fuseOp = none) :
    ∃ t, exec (.fuseRevoke x) s = .next t ∧ t.boot.fuseOp = some (2, x.toNat) := by
  have hok : (decide (x.toNat ≤ 1 ∧ s.boot.running ≠ [] ∧ s.runSlot = 1 - x.toNat) && !s.boot.vkrev.getLsbD (1 - x.toNat)) = true := by
    rw [hkey, decide_eq_true ⟨hx, hrun, hslot⟩]; rfl
  rw [exec_fuseRevoke, execFuseRevoke, State.startBurn_started hok hf]
  exact ⟨_, rfl, by rw [State.withBoot_boot]⟩

theorem exec_fuseBurnDone_svn {s : State} {x : Nat} (h : s.boot.fuseOp = some (1, x)) :
    ∃ t, exec (.fuseBurnDone true) s = .next t ∧ t.boot.svn = x ∧ t.boot.fuseOp = none := by
  rw [exec_fuseBurnDone, execFuseBurnDone, h]
  refine ⟨_, rfl, ?_, ?_⟩ <;> rw [State.event_boot, State.withBoot_boot]
  rw [State.withBoot_boot]

theorem exec_fuseBurnDone_key {s : State} {x : Nat} (h : s.boot.fuseOp = some (2, x)) :
    ∃ t, exec (.fuseBurnDone true) s = .next t ∧ t.boot.vkrev = s.boot.vkrev ||| BitVec.ofNat 2 (2 ^ x) ∧ t.boot.fuseOp = none := by
  rw [exec_fuseBurnDone, execFuseBurnDone, h]
  refine ⟨_, rfl, ?_, ?_⟩ <;> rw [State.event_boot, State.withBoot_boot, State.withBoot_boot]

theorem exec_fuseBurnDone_failed {s : State} {op x : Nat} (h : s.boot.fuseOp = some (op, x)) :
    ∃ t, exec (.fuseBurnDone false) s = .next t ∧ t.boot.fuseBad = true ∧ t.boot.svn = s.boot.svn ∧ t.boot.vkrev = s.boot.vkrev := by
  rw [exec_fuseBurnDone, execFuseBurnDone, h]
  refine ⟨_, rfl, ?_, ?_, ?_⟩ <;> rw [State.setErr_boot, State.withBoot_boot]
  · rw [State.withBoot_boot]
  · rw [State.withBoot_boot]

/-! ## Identity and attestation -/

section
variable {s : State} (hr : s.idReady = false) (hf : s.boot.idFail = false) (ho : s.boot.secretOff = false) (hp : s.plat.pwrOk = true)
include hr hf ho hp

theorem exec_idtreeDone_good (h : shake256 idPublic = (List.range 4).map Config.idpkh) :
    exec .idtreeDone s =
      .next ((List.range 8).foldl (fun s k => s.setReg (Pg.sec + 0x180 + 8 * k) (idpk k)) (s.setBitF Pg.sec F.secStatIdready true)) := by
  rw [exec_idtreeDone, execIdtreeDone, hr, hf, ho, hp, Bool.not_true, Bool.or_self, Bool.or_self, Bool.or_self, if_neg Bool.false_ne_true, if_pos h]

theorem exec_idtreeDone_bad (h : shake256 idPublic ≠ (List.range 4).map Config.idpkh) : ∃ t, exec .idtreeDone s = .next t ∧ t.boot.idFail = true := by
  have hboot (t : State) (d code ctx unit d0 : Nat) (d1 : W64) :
      (((t.withBoot { t.boot with idFail := true }).setErr Pg.sec F.secErrStatIdtreeFail 0).event d code ctx unit d0 d1).boot.idFail = true := by
    rw [State.event_boot, State.setErr_boot, State.withBoot_boot]
  rw [exec_idtreeDone, execIdtreeDone, hr, hf, ho, hp, Bool.not_true, Bool.or_self, Bool.or_self, Bool.or_self, if_neg Bool.false_ne_true, if_neg h]
  refine ⟨_, rfl, ?_⟩
  dsimp only
  split
  · rw [State.endAttest, State.withBoot_boot]
    simp only [State.setFld_boot, State.setBitF, hboot]
  · exact hboot ..

end

theorem exec_attestGo_of_leaf {s : State} (hb : s.bitF Pg.sec F.secAstatBusy = false) (ht : s.phase ≠ Ph.test) (hl : s.boot.lifecycle ≠ 2)
    (hi : s.boot.idFail = false) (hn : s.leafNext < leafEnd) :
    ∃ s1, s1 = (s.setBitF Pg.sec F.secAstatBusy true).reserveLeaf ∧ exec .attestGo s = .next (s1.withBoot { s1.boot with waitGo := !s.idReady }) := by
  have hok : ¬ (s.boot.lifecycle = 2 ∨ s.boot.idFail) := fun h => h.elim hl (by rw [hi]; exact Bool.false_ne_true)
  refine ⟨_, rfl, ?_⟩
  rw [exec_attestGo, execAttestGo, hb, if_neg Bool.false_ne_true, if_neg ht, if_neg hok, if_neg (Nat.not_le.mpr hn)]

theorem exec_attestGo_of_test {s : State} (hb : s.bitF Pg.sec F.secAstatBusy = false) (ht : s.phase = Ph.test) :
    exec .attestGo s = .next (s.endAttest 3) := by
  rw [exec_attestGo, execAttestGo, hb, if_neg Bool.false_ne_true, if_pos ht]

theorem exec_attestDone_of_leaf {s : State} (hb : s.bitF Pg.sec F.secAstatBusy = true) (hr : s.idReady = true) (hw : s.leafWaits = false)
    (hn : s.leafNext < s.boot.leafRes) : ∃ t, exec .attestDone s = .next t ∧
      t.boot.report = s.reportBody s.leafNext ++ signWords s.leafNext (wordsBytes (s.reportBody s.leafNext)) ∧ t.boot.secWord = 0 := by
  rw [exec_attestDone, execAttestDone, hb, hr, hw, decide_eq_false (Nat.not_le.mpr hn), Bool.not_true, Bool.or_self, Bool.or_self, Bool.or_self, if_neg Bool.false_ne_true]
  exact ⟨_, rfl, by rw [State.withBoot_boot], by rw [State.withBoot_boot, State.endAttest, State.withBoot_boot]⟩

/-- Settles O53: one rule for each outcome of a row. -/
theorem securityCommands : Obligations.SecurityCommands := by
  unfold Obligations.SecurityCommands
  refine ⟨⟨exec_bootLoadBegin_empties, exec_bootLoaddata_appends, fun s => exec_bootLoadEnd_waiting, fun s => exec_bootLoadEnd_running,
      fun s s0 ws hc hp hs0 => ⟨exec_imageVerifyDone_good hc hp, exec_imageVerifyDone_bad hc hp hs0⟩, fun s => exec_phaseReady_of_recovered⟩,
    fun x s => exec_fuseRaiseSvn_of_allowed, fun x s => exec_fuseRaiseSvn_of_later, fun x s => exec_fuseRevoke_of_allowed,
    fun s x => exec_fuseBurnDone_svn, fun s x => exec_fuseBurnDone_key, fun s op x => exec_fuseBurnDone_failed,
    fun s hr hf ho hp => ⟨exec_idtreeDone_good hr hf ho hp, exec_idtreeDone_bad hr hf ho hp⟩, fun s => exec_attestGo_of_leaf,
    fun s => exec_attestGo_of_test, fun s => exec_attestDone_of_leaf, fun s => ⟨?_, ?_⟩⟩
  · rw [exec_secRselWrite, execSecRselWrite]
    exact ⟨_, rfl, by rw [State.withBoot_boot]⟩
  · rw [exec_secRdataRead, execSecRdataRead]
    exact ⟨_, rfl, rfl, by rw [State.withBoot_boot]⟩

/-! ## Test ports -/

section
variable {s : State} {d : Nat} {c : Byte} (hp : s.plat.pwrOk = true)
include hp

theorem State.selectIr_eq_withTap : ∃ hold, s.selectIr d c = s.withTap { ir := KMap.set Ir.idcode s.tap.ir d c, hold := hold } := by
  rw [State.selectIr, hp, Bool.not_true, if_neg Bool.false_ne_true]
  exact ⟨_, rfl⟩

/-- A port selects the instruction that its shift register took (R490). -/
theorem State.ir_selectIr : (s.selectIr d c).ir d = c := by
  obtain ⟨hold, h⟩ := State.selectIr_eq_withTap (d := d) (c := c) hp
  rw [h, State.ir, State.withTap_tap, KMap.get_set_same]

theorem State.boot_selectIr : (s.selectIr d c).boot = s.boot := by
  obtain ⟨hold, h⟩ := State.selectIr_eq_withTap (d := d) (c := c) hp
  rw [h, State.withTap_boot]

theorem State.mem_selectIr : (s.selectIr d c).mem = s.mem := by
  obtain ⟨hold, h⟩ := State.selectIr_eq_withTap (d := d) (c := c) hp
  rw [h, State.withTap_mem]

/-- In reset a boundary instruction takes the lands and holds the package in reset (R491). -/
theorem State.boundary_in_reset (hc : s.plat.coldRstN = false) : (s.boundary d c).ir d = c ∧ (s.boundary d c).tap.hold = true := by
  have keep : (s.selectIr d c).lpLost.tap = (s.selectIr d c).tap :=
    (State.lpLost_keeps (.of rfl) (keeps_refl 262144 (s.selectIr d c)) : Keeps 262144 (s.selectIr d c) _) .tap rfl
  have hir : KMap.get Ir.idcode (s.selectIr d c).tap.ir d = c := State.ir_selectIr hp
  rw [State.boundary, hp, hc, Bool.not_true, if_neg Bool.false_ne_true, if_neg Bool.false_ne_true]
  refine ⟨?_, by rw [State.withTap_tap]⟩
  rw [State.ir, State.withTap_tap, keep, hir]

end

theorem State.tokenBytes_of_short {s : State} {d : Nat} {bs : List Byte} (h : s.boot.token.length + bs.length < 2944) :
    s.tokenBytes d bs = s.withBoot { s.boot with token := s.boot.token ++ bs } :=
  if_pos (by rw [List.length_append]; exact h)

theorem exec_tsttoken_of_short {d : Die} {bs : List Byte} {s : State} (h : s.boot.token.length + bs.length < 2944) (hp : s.plat.pwrOk = true) :
    ∃ t, exec (.tsttoken d bs) s = .next t ∧ t.boot.token = s.boot.token ++ bs ∧ t.ir d = Ir.tsttoken := by
  have hboot := State.boot_selectIr (d := d) (c := Ir.tsttoken) hp
  rw [exec_tsttoken, execTsttoken, hp, Bool.not_true, if_neg Bool.false_ne_true, State.tokenBytes_of_short (by rw [hboot]; exact h)]
  refine ⟨_, rfl, by rw [State.withBoot_boot, hboot], ?_⟩
  rw [State.ir, State.withBoot_tap]
  exact State.ir_selectIr hp

/-- What test entry does after it has the dies and the secrets: registers, lane sets, and the event. -/
theorem State.testEntry_keeps {s t : State} {mask : BitVec 4} {d code ctx unit d0 : Nat} {d1 : W64} {v : W64} :
    Keeps 301990256 s ((([false, true].foldl (fun s b => if mask.getLsbD (laneDie b) then s else s.laneOff b Hl.down)
      ((List.range 8).foldl (fun s k => s.setReg (Pg.sec + 0x180 + 8 * k) v)
        ((s.setBitF Pg.sec F.secStatIdready false).setBitF Pg.sec F.secAstatBusy false))).event d code ctx unit d0 d1).noteDir t) :=
  State.noteDir_keeps (.of rfl) <| State.event_keeps (.of rfl) <|
    foldl_keeps (fun _ _ h => ite_keeps (fun _ => h) fun _ => State.laneOff_keeps (.of rfl) h) <|
      foldl_keeps (fun _ _ h => State.setReg_keeps (.of rfl) h) <|
        State.setBitF_keeps (.of rfl) <| State.setBitF_keeps (.of rfl) (keeps_refl 301990256 s)

theorem exec_testEnter_of_allowed {d : Die} {dies : BitVec 4} {s : State} {m : Nat} (h : s.testMask dies.toNat = some m) :
    ∃ t, exec (.testEnter d dies) s = .next t ∧ t.plat.dieTest = BitVec.ofNat 4 m ∧ t.boot.secretOff = true ∧ t.boot.report = [] ∧ t.boot.check = none := by
  rw [exec_testEnter, execTestEnter, h]
  refine ⟨_, rfl, ?_, ?_⟩
  · rw [State.testEntry_keeps .plat rfl, State.withPlat_plat]
  · rw [State.testEntry_keeps .boot rfl, State.withPlat_boot, State.withBoot_boot]
    exact ⟨rfl, rfl, rfl⟩

theorem exec_testEnter_in_run {d : Die} {dies : BitVec 4} {s : State} (h : s.phase = Ph.ready) :
    exec (.testEnter d dies) s = .next ((s.setFld (Pg.tst d) F.tstModeDies dies.toNat).setErr (Pg.tst d) F.tstErrStatBadSeq 0) := by
  have hmask : s.testMask dies.toNat = none := if_pos (by rw [h]; decide)
  rw [exec_testEnter, execTestEnter, hmask]

theorem exec_testDone_results {d : Die} {r0 : BitVec 35} {r1 : W32} {s : State} (hp : s.phase = Ph.test) (hd : s.plat.dieTest.getLsbD d = true) :
    ∃ t, exec (.testDone d r0 r1) s = .next t ∧ t.reg (Pg.tst d + 0x138) = Bits.make [(63, 63, 1), (34, 0, r0.toNat)] ∧
      t.reg (Pg.tst d + 0x140) = r1.setWidth 64 &&& tstRes1Mask := by
  have hgo : ¬ (s.phase ≠ Ph.test ∨ !s.plat.dieTest.getLsbD d) := fun h => h.elim (fun hne => hne hp) (by rw [hd]; exact Bool.false_ne_true)
  rw [exec_testDone, execTestDone, if_neg hgo]
  exact ⟨_, rfl, by rw [State.reg_setReg_other _ _ (by omega), State.reg_setReg_same], by rw [State.reg_setReg_same]⟩

theorem State.access_of_page {s : State} {src addr k : Nat} (f : Nat → State → State) (ha : addr % 8 = 0) (hk : s.canon addr = some k)
    (hu : s.pageUp src k = true) : s.access src addr 3 f = (f k s).withRegStatus St.ok := by
  rw [State.access, if_neg (fun h => h.elim (fun h3 => h3 rfl) fun h8 => h8 ha), hk]
  exact if_pos hu

section
variable {d : Die} {addr : BitVec 26} {data : W64} {s s1 : State} (hp : s.plat.pwrOk = true) (hs1 : s1 = s.selectIr d Ir.tstacc) (ht : s1.phase = Ph.test)
include hp hs1 ht

/-- TSTACC makes the access of a register operation with the die's port as its source (R490). -/
theorem exec_tstacc_of_test {op : BitVec 2} (hop : op.toNat < 2) :
    exec (.tstacc d op addr data) s =
      .next (s1.access d addr.toNat 3 fun k s => if op = 0 then (s.readReg (pageOf addr.toNat) k).2 else s.writeReg k data) := by
  subst hs1
  rw [exec_tstacc, execTstacc, hp, Bool.not_true, if_neg Bool.false_ne_true]
  exact if_neg fun h => h.elim (fun hne => hne ht) (Nat.not_le.mpr hop)

theorem exec_tstacc_unaligned {op : BitVec 2} (hop : op.toNat < 2) (ha : addr.toNat % 8 ≠ 0) :
    exec (.tstacc d op addr data) s = .next (s1.withRegStatus St.regSize) := by
  rw [exec_tstacc_of_test hp hs1 ht hop, State.access_of_badSize _ _ _ (.inr ha)]

theorem exec_tstacc_of_page {k : Nat} (ha : addr.toNat % 8 = 0) (hk : s1.canon addr.toNat = some k) (hu : s1.pageUp d k = true) :
    exec (.tstacc d 0 addr data) s = .next ((s1.readReg (pageOf addr.toNat) k).2.withRegStatus St.ok) ∧
      exec (.tstacc d 1 addr data) s = .next ((s1.writeReg k data).withRegStatus St.ok) := by
  refine ⟨?_, ?_⟩
  · rw [exec_tstacc_of_test hp hs1 ht (by decide), State.access_of_page _ ha hk hu, if_pos rfl]
  · rw [exec_tstacc_of_test hp hs1 ht (by decide), State.access_of_page _ ha hk hu, if_neg (by decide)]

end

/-- Settles O54: each port selects its instruction by `State.ir_selectIr`, the boundary instructions by `State.boundary_in_reset`. -/
theorem testPorts : Obligations.TestPorts := by
  unfold Obligations.TestPorts
  refine ⟨fun d bs s => exec_tsttoken_of_short, fun data s => ?_, fun d dies s m => exec_testEnter_of_allowed, fun d dies s => exec_testEnter_in_run,
    fun d r0 r1 s => exec_testDone_results, fun d s hp => ⟨?_, ?_, ?_, fun code hcode => ?_⟩, fun d s hp hc => ?_,
    fun d addr data s s1 k hp hs1 ht ha hk hu => exec_tstacc_of_page hp hs1 ht ha hk hu,
    fun d op addr data s s1 hp hs1 ht hop ha => exec_tstacc_unaligned hp hs1 ht hop ha⟩
  · rw [exec_tstTokenWrite, execTstTokenWrite]
  · rw [exec_jtagTapReset]
    exact ⟨_, rfl, State.ir_selectIr hp, State.mem_selectIr hp⟩
  · rw [exec_samplePreload]
    exact ⟨_, rfl, State.ir_selectIr hp, State.mem_selectIr hp⟩
  · rw [exec_idcode, execIdcode, hp, Bool.not_true, if_neg Bool.false_ne_true]
    exact ⟨_, rfl, State.ir_selectIr hp, rfl⟩
  · rw [exec_bypass, execBypass, if_pos hcode]
    exact ⟨_, rfl, State.ir_selectIr hp, State.mem_selectIr hp⟩
  · rw [exec_extest, exec_clamp, exec_highz, exec_extestPulse, exec_extestTrain]
    exact ⟨⟨_, rfl, State.boundary_in_reset hp hc⟩, ⟨_, rfl, State.boundary_in_reset hp hc⟩, ⟨_, rfl, State.boundary_in_reset hp hc⟩,
      ⟨_, rfl, State.boundary_in_reset hp hc⟩, ⟨_, rfl, State.boundary_in_reset hp hc⟩⟩

end Sys2Proof.Machine
end

section
/-! # Host commands, watchdogs, aborts and recovery

Chapter 13: host commands, queues and register writes (R373 to R390). Chapter 14: watchdogs, aborts, relays and the recovery
service's registers (R402 to R426). -/

namespace Sys2Proof.Machine

/-! ## Host commands, queues and register writes -/

section
variable {q : Fin 256} {s : State} {k : SqCmd}

theorem exec_nop_of_ready (h : s.readyCmd q (fun o => decide (o = 0x60)) = some k) : exec (.nop q) s = .next (s.finNow q k St.ok (wd k.words 1)) := by
  rw [exec_nop, execNop, h]

theorem exec_qwait_of_oldest (h : s.readyCmd q (fun o => decide (o = 0x61)) = some k) (hold : (s.sqCmds q).head?.map (·.seq) = some k.seq) :
    exec (.qwait q) s = .next (s.finNow q k St.ok 0) := by
  rw [exec_qwait, execQwait, h]
  exact if_pos hold

theorem exec_hostCmdBadOpcode_of_ready (h : s.readyCmd q (fun o => !([0x10, 0x30, 0x50, 0x60, 0x61].contains o)) = some k) :
    exec (.hostCmdBadOpcode q) s = .next (s.finNow q k St.protocolErr 0) := by
  rw [exec_hostCmdBadOpcode, execHostCmdBadOpcode, h]

/-- A queue that is not valid takes a configuration that keeps the bounds of its depth and of the sum of the depths (R373). -/
theorem exec_sqCfgWrite_opened {data : W64} (hv : s.sqValid q = false) (hctx : F.sqCfgCtx.of data ≠ 0) (hpos : 0 < F.sqCfgDepth.of data)
    (hmax : F.sqCfgDepth.of data ≤ 4096) (hsum : s.depthSum + F.sqCfgDepth.of data ≤ 65536) :
    exec (.sqCfgWrite q data) s = .next (s.plainWrite (Pg.sq q + 0x100) data) := by
  have hok : ¬ (F.sqCfgCtx.of data = 0 ∨ F.sqCfgDepth.of data = 0 ∨ 4096 < F.sqCfgDepth.of data ∨ 65536 < s.depthSum + F.sqCfgDepth.of data) :=
    fun h => h.elim hctx fun h => h.elim (Nat.ne_of_gt hpos) fun h => h.elim (Nat.not_lt.mpr hmax) (Nat.not_lt.mpr hsum)
  rw [exec_sqCfgWrite, execSqCfgWrite, hv, if_neg Bool.false_ne_true, decide_eq_false hok, Bool.and_false, if_neg Bool.false_ne_true]

theorem exec_sqCfgWrite_busy {data : W64} (hv : s.sqValid q = true) (hd : data.getLsbD 63 = false) (ho : s.outstanding q ≠ 0) :
    exec (.sqCfgWrite q data) s = .next (s.badSeq (Pg.sq q)) := by
  rw [exec_sqCfgWrite, execSqCfgWrite, hv, if_pos rfl, hd, if_neg Bool.false_ne_true, if_neg ho]

end

theorem exec_wmarkWrite_of_moved {s : State} (hp : s.plat.pwrOk = true)
    (h : ((List.range 256).any fun q => decide (KMap.get (0 : W64) s.host.consumed q ≠ s.reg (Pg.sq q + 0x118))) = true) :
    exec .wmarkWrite s = .next s.storeWmark := by
  rw [exec_wmarkWrite, execWmarkWrite, hp, h, Bool.and_self, if_pos rfl]

/-- A read that clears part of a register: the register before, and the cleared bits zero after. -/
theorem State.readClear_part (s : State) (k : Nat) (m : W64) : (s.readClear k m).rdData = s.reg k ∧ (s.readClear k m).reg k = s.reg k &&& ~~~m :=
  ⟨rfl, State.reg_setReg_same ..⟩

theorem exec_page_of_canon {page : BitVec 14} {p : Nat} {s : State} (data : W64) (h : s.canon (page.toNat * 4096) = some p) :
    exec (.errInject page data) s = .next (s.injectErr p data) ∧ exec (.evtSelWrite page data) s = .next (s.writeEvtSel p data) ∧
      (∃ t, exec (.evtSelRead page) s = .next t ∧ t.rdData = s.reg (p + 0x38) ∧ t.reg (p + 0x38) = s.reg (p + 0x38) &&& ~~~Bits.mask 63 32) := by
  refine ⟨?_, ?_, ?_⟩
  · rw [exec_errInject, execErrInject, h]
  · rw [exec_evtSelWrite, execEvtSelWrite, h]
  · rw [exec_evtSelRead, execEvtSelRead, h]
    exact ⟨_, rfl, State.readClear_part ..⟩

/-- Settles O55: one rule for each row. -/
theorem hostCommands : Obligations.HostCommands := by
  unfold Obligations.HostCommands
  refine ⟨⟨fun q s k => exec_nop_of_ready, fun q s k => exec_qwait_of_oldest, fun q s k => exec_hostCmdBadOpcode_of_ready,
    fun q data s hv _ => exec_sqCfgWrite_opened hv, fun q data s => exec_sqCfgWrite_busy, fun s => exec_wmarkWrite_of_moved,
    fun page data p s => exec_page_of_canon data⟩, fun addr data k s ha hp hk hu => ?_⟩
  rw [exec_regWrite, execRegWrite_of_powered _ _ _ hp]
  exact congrArg _ (State.access_of_page _ ha hk hu)

/-! ## Watchdogs and aborts -/

theorem exec_watchdogExpire_of_counted {u : WdUnit} {s : State} (hp : s.plat.pwrOk = true) (hw : s.excludedWait u = false) :
    exec (.watchdogExpire u) s = .next (s.watchdog u) := by
  rw [exec_watchdogExpire, execWatchdogExpire, hp, hw, Bool.not_false, Bool.and_self, if_pos rfl]

theorem exec_rcvWdlimWrite_high (data : W64) (s : State) : ∃ t, exec (.rcvWdlimWrite true data []) s = .next t ∧ t.reg (Pg.rcv + 0x150) =
    Bits.make [(63, 48, max 1 (Bits.get data 63 48)), (47, 32, max 100 (Bits.get data 47 32)), (31, 16, max 100 (Bits.get data 31 16)),
      (15, 0, max 100 (Bits.get data 15 0))] := by
  rw [exec_rcvWdlimWrite, execRcvWdlimWrite]
  exact ⟨_, rfl, State.reg_setReg_same ..⟩

theorem exec_taintBackstop_of_late {s : State} {c ctx : Nat} {rest : List (Nat × Nat)} (h : s.rcv.late = (c, ctx) :: rest) :
    exec .taintBackstop s = .next ((((s.withRcv { s.rcv with late := rest }).taintWhole ctx).setErr Pg.rcv F.rcvErrStatTaintBackstop ctx).event
      (c / 12) Ev.taintBackstop ctx (unitOf (Pg.clu c)) 0 0) := by
  rw [exec_taintBackstop, execTaintBackstop, h]

section
variable {q : Fin 256} {s : State} {k : SqCmd} (hn : s.nextCmd q = some k) (he : k.echoed = true) (hv : wf k.words 0 63 56 = 0x50)
include hn he hv

theorem exec_contextAbort_of_own (hctx : wf k.words 0 7 0 = k.ctx) : exec (.contextAbort q) s =
    .next (((s.markDispatched q k.seq).abort k.ctx Cause.host ((wd k.words 0).getLsbD 8) (wd k.words 1) [(q.val, k.seq)]).pump q) := by
  rw [exec_contextAbort, execContextAbort]
  simp only [hn, he, hv, hctx, ne_eq, not_true_eq_false, decide_false, Bool.not_true, Bool.or_self, Bool.false_eq_true, if_false]

theorem exec_contextAbort_of_other (hctx : wf k.words 0 7 0 ≠ k.ctx) :
    exec (.contextAbort q) s = .next (((s.markDispatched q k.seq).finCmd q k.seq St.protocolErr 0).pump q) := by
  rw [exec_contextAbort, execContextAbort]
  simp only [hn, he, hv, ne_eq, not_true_eq_false, decide_false, Bool.not_true, Bool.or_self, Bool.false_eq_true, if_false]
  exact if_pos hctx

end

theorem exec_abortWedgeCheck_of_abort {u : WdUnit} {s : State} (h : s.rcv.aborts ≠ []) :
    exec (.abortWedgeCheck [(u, true)]) s = .next ((s.resetUnit u).countReset (.engine u)) ∧
      exec (.abortWedgeCheck [(u, false)]) s = .next ((s.startEngine u true).fenceAny u 5) := by
  rw [exec_abortWedgeCheck, exec_abortWedgeCheck, execAbortWedgeCheck, execAbortWedgeCheck, List.isEmpty_eq_false_iff.mpr h,
    if_neg Bool.false_ne_true, if_neg Bool.false_ne_true]
  exact ⟨rfl, rfl⟩

/-! ## Registers of the recovery service -/

theorem exec_rcvOosack_of_match {e : W32} {s : State} (ho : s.oosLatched = true) (hc : s.rcv.coldSince = true)
    (he : s.fld Pg.rcv F.rcvOosEvseq = e.toNat) (hp : (s.setOos 0).fld Pg.rcv F.rcvStatPhase = 2) :
    exec (.rcvOosack e) s = .next ((s.setOos 0).setFld Pg.rcv F.rcvStatPhase 0) := by
  rw [exec_rcvOosack, execRcvOosack, ho, hc, decide_eq_true he, Bool.and_self, Bool.and_self, if_pos rfl]
  dsimp only
  rw [if_pos hp]

theorem exec_rcvOosack_of_none {e : W32} {s : State} (ho : s.oosLatched = false) : exec (.rcvOosack e) s = .next (s.badSeq Pg.rcv) := by
  rw [exec_rcvOosack, execRcvOosack, ho, Bool.false_and, Bool.false_and, if_neg Bool.false_ne_true]

theorem exec_rcvJobidWrite_regs (j : W64) (s : State) : ∃ t, exec (.rcvJobidWrite j) s = .next t ∧
    t.reg (bank s.jobSel Pg.rcv + 0x138) = j ∧ t.reg (bank s.jobSel Pg.rcv + 0x140) = 0 := by
  rw [exec_rcvJobidWrite, execRcvJobidWrite]
  exact ⟨_, rfl, by rw [State.reg_setReg_other _ _ (by omega), State.reg_setReg_same], State.reg_setReg_same ..⟩

/-- A read of the dump answers its word and moves the pointer on by its eight bytes (R418). -/
theorem exec_dumpRead_of_none {s : State} (h : s.rcv.dump = none) : ∃ t, exec .dumpRead s = .next t ∧ t.rdData = s.dumpWord ∧
    t.fld Pg.rcv F.rcvDumpptrOffset = (s.fld Pg.rcv F.rcvDumpptrOffset + 8) % 2 ^ 32 := by
  rw [exec_dumpRead, execDumpRead, h]
  exact ⟨_, rfl, rfl, State.fld_setFld_state (by decide) (by decide) (Nat.mod_lt _ (Nat.two_pow_pos 32))⟩

/-- Settles O56: one rule for each outcome of a row. -/
theorem abortsAndRecovery : Obligations.AbortsAndRecovery := by
  unfold Obligations.AbortsAndRecovery
  refine ⟨⟨fun u s => exec_watchdogExpire_of_counted, fun u p s t h => ?_, exec_rcvWdlimWrite_high, fun s c ctx rest => exec_taintBackstop_of_late,
      fun q s k hn he hv => ⟨exec_contextAbort_of_own hn he hv, exec_contextAbort_of_other hn he hv⟩, fun ctx f s hne => ?_, fun f s => ?_,
      fun u s => exec_abortWedgeCheck_of_abort, fun s j rest h => ?_, fun s r rest h => ?_⟩,
    fun e s => exec_rcvOosack_of_match, fun e s => exec_rcvOosack_of_none, exec_rcvJobidWrite_regs, fun s => ?_, fun s => exec_dumpRead_of_none,
    fun d s => ?_, fun p s => ?_, fun s => ?_⟩
  · rw [exec_hangTrialDone, execHangTrialDone, h]
  · rw [exec_rcvAbort]
    exact if_neg hne
  · rw [exec_rcvAbort]
    exact if_pos rfl
  · rw [exec_abortComplete, execAbortComplete, h]
  · rw [exec_abortRelayResend, execAbortRelayResend, h]
  · rw [exec_rcvAbstatRead]
    exact ⟨_, rfl, State.readClear_part ..⟩
  · rw [exec_evlLostRead]
    exact ⟨_, rfl, State.readClear_all ..⟩
  · rw [exec_downWindowExpire, execDownWindowExpire]
    exact ⟨_, rfl, State.fld_setFld_same _ _ _ _ (by decide) (by decide)⟩
  · rw [exec_downWindowExpire, execDownWindowExpire]

end Sys2Proof.Machine
end

section
/-! # Resets, power, bridges, clocks and the board

Chapter 14: resets, their ends and failures (R413 to R422). Chapters 01, 16 and 17: power loss and power-up, bridges, clocks, and the
board's shutdown (R20 to R34, R467, R473, R481). -/

namespace Sys2Proof.Machine

/-! ## Resets -/

/-- An engine of the four kinds that a reset of one engine takes: it starts, after an abort of the context that runs there (R413). -/
theorem exec_resetEngine_of_run {u : WdUnit} {s : State} (h : s.fld Pg.rcv F.rcvStatPhase = 0)
    (hu : (∃ e, u = .mxe e) ∨ (∃ v, u = .vxe v) ∨ (∃ x, u = .update x) ∨ (∃ d, u = .courier d)) :
    (s.runningCtx u = none → exec (.resetEngine u) s = .next (s.startEngine u true)) ∧
      (∀ c, s.runningCtx u = some c → exec (.resetEngine u) s = .next ((s.abortFor c Cause.reset).startEngine u true)) := by
  rcases hu with ⟨_, rfl⟩ | ⟨_, rfl⟩ | ⟨_, rfl⟩ | ⟨_, rfl⟩ <;>
  · refine ⟨fun hc => ?_, fun c hc => ?_⟩ <;>
    · rw [exec_resetEngine]
      simp only [execResetEngine, hc]
      rw [State.ifRun_of_run h]

theorem exec_resetDone_engine {u : WdUnit} {p : Bool} {s : State} {j : ResetJob} (h : s.findReset (.engine u) = some j) :
    ∃ t, exec (.resetDone (.engine u) p) s = .next t ∧ t.findReset (.engine u) = none ∧ t.regs = s.regs := by
  rw [exec_resetDone, execResetDone, h]
  refine ⟨_, rfl, ?_, by rw [State.dropReset, State.withRcv_regs]⟩
  rw [State.findReset, State.dropReset, State.withRcv_rcv, List.find?_eq_none]
  intro x hx
  have hne : x.target ≠ .engine u := of_decide_eq_true (List.mem_filter.mp hx).2
  exact ne_true_of_eq_false (decide_eq_false hne)

theorem exec_resetDone_cluster {c : ClusterNo} {s : State} {j : ResetJob} (h : s.findReset (.cluster c) = some j) :
    exec (.resetDone (.cluster c) true) s = .next ((s.dropReset (.cluster c)).readmitCluster c) ∧
      exec (.resetDone (.cluster c) false) s = .next ((s.dropReset (.cluster c)).fenceCluster c 5) := by
  rw [exec_resetDone, exec_resetDone, execResetDone, execResetDone, h]
  exact ⟨rfl, rfl⟩

theorem exec_resetDone_die {d : Die} {p : Bool} {s : State} {j : ResetJob} (h : s.findReset (.dieFunction d) = some j) :
    exec (.resetDone (.dieFunction d) p) s = .next ((s.dropReset (.dieFunction d)).endDie d j.train) := by
  rw [exec_resetDone, execResetDone, h]

theorem exec_resetFail_die {d : Die} {s : State} {j : ResetJob} (h : s.findReset (.dieFunction d) = some j) :
    exec (.resetFail (.dieFunction d)) s = .next ((((s.dropReset (.dieFunction d)).setErr Pg.rcv F.rcvErrStatResetFail 0).event (targetPlace (.dieFunction d)).1
      Ev.resetFail 0 (unitOf (targetPlace (.dieFunction d)).2.1) 0 0).fenceDie d 5) := by
  rw [exec_resetFail, execResetFail, h]

section
variable {tg : ResetTarget} {s s1 : State} {j : ResetJob} (h : s.findReset tg = some j)
  (hs1 : s1 = ((s.dropReset tg).setErr Pg.rcv F.rcvErrStatResetFail 0).event (targetPlace tg).1 Ev.resetFail 0 (unitOf (targetPlace tg).2.1) 0 0)
include h hs1

/-- An engine whose reset fails takes its cluster with it, or its die where it has none (R416). -/
theorem exec_resetFail_engine {u : WdUnit} (htg : tg = .engine u) :
    (∀ c, wdCluster u = some c → exec (.resetFail tg) s = .next (s1.startCluster c true)) ∧
      (wdCluster u = none → exec (.resetFail tg) s = .next (s1.startDie (targetPlace tg).1 none true)) := by
  subst htg hs1
  rw [exec_resetFail, execResetFail, h]
  refine ⟨fun c hc => ?_, fun hc => ?_⟩ <;> simp only [hc]

theorem exec_resetFail_cluster {c : ClusterNo} (htg : tg = .cluster c) :
    exec (.resetFail tg) s = .next ((s1.fenceCluster c 5).startDie (targetPlace tg).1 none true) := by
  subst htg hs1
  rw [exec_resetFail, execResetFail, h]

theorem exec_resetFail_warm (htg : tg = .warm) : exec (.resetFail tg) s = .next (s1.startRecovery true (j.train.getD ⟨0, [], 0, 0, 0⟩) true) := by
  subst htg hs1
  rw [exec_resetFail, execResetFail, h]

end

theorem exec_recoveryDone_of_firmware {s s1 : State} {j : ResetJob} (hj : (s.rcv.resets.find? fun j => decide (4 ≤ j.dom)) = some j)
    (hp : s.phase = Ph.firmware) (hh : s.tap.hold = false) (hs1 : s1 = (s.withRcv { s.rcv with resets := [] }).withPlat { s.plat with coldRstN := true }) :
    exec .recoveryDone s = .next ((((((s1.applyTraining (j.train.getD ⟨0, [], 0, 0, 0⟩)).loadIdentity).unfinished).enterRun).event
      ((((s1.applyTraining (j.train.getD ⟨0, [], 0, 0, 0⟩)).loadIdentity).unfinished).enterRun).hub Ev.recoveryDone 0 (unitOf Pg.rcv) 0 0).noteDir s) := by
  have hgo : ¬ (s.phase ≠ Ph.firmware ∨ s.tap.hold) := fun h => h.elim (fun hne => hne hp) (by rw [hh]; exact Bool.false_ne_true)
  subst hs1
  rw [exec_recoveryDone, execRecoveryDone]
  simp only [hj]
  rw [if_neg hgo]

theorem exec_coldReset_of_powered {tr : TrainIn} {s : State} (hp : s.plat.pwrOk = true) (ht : s.phase ≠ Ph.test) :
    exec (.coldReset tr) s = .next ((s.withPlat { s.plat with coldRstN := false }).startRecovery true tr true) := by
  rw [exec_coldReset, execColdReset, hp, decide_eq_false ht, Bool.not_true, Bool.or_self, if_neg Bool.false_ne_true]

/-- Settles O57: one rule for each domain's start, end and failure. -/
theorem resets : Obligations.Resets := by
  unfold Obligations.Resets
  refine ⟨fun u s h hu => exec_resetEngine_of_run h hu, fun c s h => ?_, fun d tr s h hf => ?_, fun tr s h => ⟨?_, ?_⟩, fun c s h => ?_,
    fun tr s => exec_coldReset_of_powered, fun u p s j => exec_resetDone_engine, fun c s j => exec_resetDone_cluster,
    fun d p s j h => ⟨exec_resetDone_die h, exec_resetFail_die h⟩, fun tg s s1 j h hs1 => ⟨fun u c htg => (exec_resetFail_engine h hs1 htg).1 c,
      fun u htg => (exec_resetFail_engine h hs1 htg).2, fun c => exec_resetFail_cluster h hs1, exec_resetFail_warm h hs1⟩,
    fun s s1 j => exec_recoveryDone_of_firmware⟩
  · rw [exec_resetCluster, execResetCluster, State.ifRun_of_run h]
  · rw [exec_resetDieFunction, execResetDieFunction, hf, if_neg Bool.false_ne_true, State.ifRun_of_run h]
  · rw [exec_resetWarm, execResetWarm, State.ifRun_of_run h]
  · rw [exec_resetCold, execResetCold, State.ifRun_of_run h]
  · rw [exec_resetCluster, execResetCluster, State.ifRun_of_not_run h]

/-! ## Power -/

/-- Power loss leaves the reset state's memory and registers, and what is durable: the fuses and the survival store's devices. -/
theorem exec_powerLoss_of_powered {s : State} (hp : s.plat.pwrOk = true) :
    ∃ t, exec .powerLoss s = .next t ∧ t.plat.pwrOk = false ∧ t.mem = State.reset.mem ∧ t.regs = State.reset.regs ∧ t.boot.svn = s.boot.svn ∧
      t.sst.a = s.sst.a ∧ t.sst.b = s.sst.b ∧ t.sst.wait = [] := by
  rw [exec_powerLoss, execPowerLoss, hp, Bool.not_true, if_neg Bool.false_ne_true]
  refine ⟨_, rfl, ?_⟩
  simp only [State.unpowered, State.withHost_plat, State.withHost_mem, State.withHost_regs, State.withHost_boot, State.withHost_sst, State.withBoot_plat,
    State.withBoot_mem, State.withBoot_regs, State.withBoot_boot, State.withBoot_sst, State.withSst_plat, State.withSst_mem, State.withSst_regs,
    State.withSst_sst, State.withPlat_plat, State.withPlat_mem, State.withPlat_regs, State.withRegStatus_mem, State.withRegStatus_regs,
    State.withRdData_mem, State.withRdData_regs, State.withFree_mem, State.withFree_regs, State.withPending_mem, State.withPending_regs, and_self]

theorem exec_powerUp_of_unpowered {i : PowerUpIn} {s s0 s3 : State} (hp : s.plat.pwrOk = false) (hs0 : s0 = s.unpowered s.host.ranges)
    (hs3 : s3 = ((((((s0.withPlat { s0.plat with pwrOk := true, coldRstN := true }).senseFuses).readStore i.devA i.devB).loadUnits).newChal).pwrStart).selfChecks i.selfOk) :
    exec (.powerUp i) s = .next (((((List.range 32).filter fun k => !i.lpOk.getLsbD k && !s3.unitFenced (lpKey k)).foldl (fun s k => s.fenceLp k 4) s3).setFld
      Pg.dir F.dirStatGen 0).setReg (Pg.hlk + 0x20) 0) := by
  subst hs3 hs0
  rw [exec_powerUp, execPowerUp, hp, if_neg Bool.false_ne_true]

/-! ## Bridges -/

theorem State.bridge_setBridge_same (s : State) (b : Nat) (x : Bridge) : (s.setBridge b x).bridge b = x := by
  simp only [State.bridge, State.setBridge, State.withPlat_plat, KMap.get_set_same]

theorem State.bridge_setBridge_other (s : State) {b c : Nat} (x : Bridge) (h : b ≠ c) : (s.setBridge c x).bridge b = s.bridge b := by
  simp only [State.bridge, State.setBridge, State.withPlat_plat, KMap.get_set_other _ _ _ _ h]

theorem State.bridge_congr {s t : State} (h : t.plat = s.plat) (b : Nat) : t.bridge b = s.bridge b := by
  rw [State.bridge, State.bridge, h]

/-- The flits that go to other bridges leave this one as it is. -/
theorem State.bridge_heldElsewhere {b : Nat} {l : List Nat} (flits : List Nat) (h : ∀ c ∈ l, b ≠ c) (s : State) :
    (l.foldl (fun s c => s.setBridge c { s.bridge c with held := (s.bridge c).held ++ flits }) s).bridge b = s.bridge b := by
  induction l generalizing s with
  | nil => rfl
  | cons c rest ih =>
    rw [List.foldl_cons, ih fun x hx => h x (List.mem_cons_of_mem c hx), State.bridge_setBridge_other _ _ (h c List.mem_cons_self)]

theorem ne_of_mem_otherBridges {b c : Nat} (hc : c ∈ (List.range 3).map fun i => (b + 1 + i) % 4) : b ≠ c := by
  obtain ⟨i, hi, rfl⟩ := List.mem_map.mp hc
  have hi3 : i < 3 := List.mem_range.mp hi
  omega

theorem exec_bridgeFlitReplay_counts {b : Fin 4} {f : Nat} {s : State} (hu : s.bridgeUp b = true) :
    ((s.bridge b).flit = f → 0 < (s.bridge b).replays → ∃ t, exec (.bridgeFlitReplay b f) s = .next t ∧ (t.bridge b).replays = min 16 ((s.bridge b).replays + 1)) ∧
      ((s.bridge b).flit ≠ f → ∃ t, exec (.bridgeFlitReplay b f) s = .next t ∧ t.bridge b = ⟨f, 1, false, [f]⟩) := by
  rw [exec_bridgeFlitReplay, execBridgeFlitReplay, hu, Bool.not_true, if_neg Bool.false_ne_true]
  refine ⟨fun hf hr => ⟨_, rfl, ?_⟩, fun hf => ⟨_, rfl, ?_⟩⟩
  · rw [State.bridge_setBridge_same, if_pos ⟨hf, hr⟩]
  · rw [State.bridge_setBridge_same, if_neg fun h => hf h.1]

theorem exec_bridgeDown_of_sixteen {b : Fin 4} {s : State} (hu : s.bridgeUp b = true) (hr : 16 ≤ (s.bridge b).replays) :
    ∃ t, exec (.bridgeDown b) s = .next t ∧ (t.bridge b).down = true := by
  rw [exec_bridgeDown, execBridgeDown, hu, decide_eq_false (Nat.not_lt.mpr hr), Bool.not_true, Bool.or_self, if_neg Bool.false_ne_true]
  refine ⟨_, rfl, ?_⟩
  rw [State.bridge_congr (State.event_plat ..)]
  split
  · rw [State.bridge_heldElsewhere _ fun c hc => ne_of_mem_otherBridges hc, State.bridge_setBridge_same]
  · rw [State.bridge_setBridge_same]

/-! ## Clocks and the board -/

theorem State.tb_setTb_same (s : State) (d : Nat) (x : TimeBase) : (s.setTb d x).tb d = x := by
  simp only [State.tb, State.setTb, State.withPlat_plat, KMap.get_set_same]

/-- Without its reference clock a die's time base runs free, while its ports and lane sets go down (R32). -/
theorem exec_refclkLost_of_clocked {d : Die} {s : State} (hd : s.dieUp d = true) (hf : (s.tb d).free = false) :
    ∃ t, exec (.refclkLost d) s = .next t ∧ (t.tb d).free = true := by
  have keep (t : State) (code ctx unit d0 : Nat) (d1 : W64) :
      Keeps 369099120 t (((dieLanes d).foldl (fun s b => if s.lane b = Hl.train then s.laneDown b false (if b then F.hlkErrStatDownB else F.hlkErrStatDownA)
        else s.laneFails b) (((List.range 6).map (6 * d.val + ·)).foldl (fun s p =>
          if s.lnk p = Lk.off ∨ s.lnk p = Lk.down ∨ s.lnk p = Lk.fenced then s else s.portDown p) t)).event d code ctx unit d0 d1) :=
    State.event_keeps (.of rfl) <|
      foldl_keeps (fun _ _ h => ite_keeps (fun _ => State.laneDown_keeps (.of rfl) h) fun _ => State.laneFails_keeps (.of rfl) h) <|
        foldl_keeps (fun _ _ h => ite_keeps (fun _ => h) fun _ => State.portDown_keeps (.of rfl) h) (keeps_refl 369099120 t)
  rw [exec_refclkLost, execRefclkLost, hd, hf, Bool.not_true, Bool.or_self, if_neg Bool.false_ne_true]
  refine ⟨_, rfl, ?_⟩
  rw [State.tb, keep _ _ _ _ _ _ .plat rfl, ← State.tb, State.tb_setTb_same]

theorem exec_refclkReturn_of_free {d : Die} {s : State} (hd : s.dieUp d = true) (hf : (s.tb d).free = true) :
    ∃ s1, s1 = s.setTb d ⟨(s.tb ((s.timeNeighbour d).getD d)).ns, false⟩ ∧
      exec (.refclkReturn d) s = .next (((List.range 6).map (6 * d.val + ·)).foldl (fun s p => if s.lnk p = Lk.down then s.trainPort p else s) s1) := by
  refine ⟨_, rfl, ?_⟩
  rw [exec_refclkReturn, execRefclkReturn, hd, hf, Bool.not_true, Bool.or_self, if_neg Bool.false_ne_true]

/-- Settles O58: one rule for each outcome of a row. -/
theorem platformCommands : Obligations.PlatformCommands := by
  unfold Obligations.PlatformCommands
  refine ⟨fun s => exec_powerLoss_of_powered, fun i s s0 s3 => exec_powerUp_of_unpowered, fun b f s hu => exec_bridgeFlitReplay_counts hu,
    fun b s => exec_bridgeDown_of_sixteen, fun d s => exec_refclkLost_of_clocked, fun d s => exec_refclkReturn_of_free, fun s hh hs => ?_,
    fun s hs hd => ?_⟩
  · rw [exec_bmShutdown, execBmShutdown, hh, hs, decide_eq_false (not_not_intro rfl), Bool.not_true, Bool.or_self, Bool.or_self, if_neg Bool.false_ne_true]
  · rw [exec_bmShutdownDone, execBmShutdownDone, hs, hd, Bool.and_self, if_pos rfl]
    exact ⟨_, rfl, by rw [State.withHost_host], State.withHost_sst ..⟩

end Sys2Proof.Machine
end
